-- ==== Sys2Proof/Word.lean ====
section
/-!
DEFINITION. The word types of the hardware and their plainest arithmetic.
A Vuvan word has 24 bits (spec/13, R423), an accumulator 56 bits (R428), a floating-point register 64 bits (R478).
-/

-- Declarations are elaborated one after another: the package as one text then fits in memory.
set_option Elab.async false

namespace Sys2Proof

/-- A Vuvan word: 24 bits. -/
abbrev Word := BitVec 24

/-- A Vuvan accumulator: 56 bits. -/
abbrev Acc := BitVec 56

/-- An F register: 64 bits, an IEEE 754 binary64 image. -/
abbrev FReg := BitVec 64

end Sys2Proof
end

