-- ==== Sys2Proof/Config.lean ====
section
/-!
DEFINITION. What one built device fixes (factory values), and every value the spec leaves open.
Each constant here has no body: nothing can be proved of its value, so a claim holds whatever it is.
-/

namespace Sys2Proof.Config

/-- The factory value of an F object whose table gives the default as "—" (R49, R66), by its key (index times 256
plus subindex), as its link image. No value is chosen: log entry 3. -/
opaque factory : Nat → Nat

/-- A fresh value for each result the spec leaves undefined or unstated: applied to the counter `free` of the state.
Log entry 4. -/
opaque freeValue : Nat → Nat

/-- The cause codes of the eight traps (R441, R447), which the spec orders in part and does not number: a code for each
cause UNDEF, RESV, ILLEGAL_REPEAT, ACCESS, LOOP_NEST, STACK, BUDGET, FPU in this order from 0. Log entry 8. -/
opaque trapCode : Nat → Nat

/-- The earliest SOF of a Type B response after its command, in fc, by protocol: a value of ISO/IEC 14443 that the spec
names and does not give (R496). Log entry 25. -/
opaque typeBOpen : Nat → Nat
/-- What SOF and EOF of a command frame take in fc, by protocol, where ISO/IEC 14443 and ISO/IEC 15693 give them and the spec does
not (R496). Log entry 25. -/
opaque frameEnds : Nat → Nat
/-- The gain in dB that the receive AGC settles to at an amplitude at RXIN in 0.25 dBµV; the spec gives its range and step, and
no law (R497). Log entry 25. -/
opaque rxGain : Nat → Nat

/-- What the test access port captures into its shift register: of the instruction register, and of the data register an
instruction selects (IEEE 1149.1, R596); the spec gives neither lengths nor contents. Log entry 26. -/
opaque tapInstruction : List Bool
opaque tapData : List Bool → List Bool

/-! What the interface specifications of the navigation systems hold (R230, R234, R239, R241, R247), which the spec names
and does not give: codes, decoders, message layouts and orbit models. Signals and satellites are numbered as in R150 and R153.
Log entry 166. -/

/-- Chip `k` of the secondary code of a signal and satellite, of the pilot or of the data component; true for −1. -/
opaque secChip : Nat → Nat → Bool → Nat → Bool
/-- The pilot's nominal phase against the data component, in quarter turns (R208). -/
opaque pilotPhase : Nat → Nat
/-- What a soft sum is divided by, less one, before it is held within 4 bits (R229). -/
opaque softScale : Nat
/-- The bits the Trellis decoder gives of a run of soft symbols. -/
opaque trellis : Nat → List Int → List Bool
/-- One symbol of the 30-symbol GLONASS time mark. -/
opaque glonassMark : Nat → Bool
/-- A check of a message: signal, satellite, which of the family's checks, and the soft values from the sync word on in
NORMAL polarity; what the message's bits are when it passes. -/
opaque navCheck : Nat → Nat → Nat → List Int → Option (List Bool)
/-- What a message belongs to: StoreEntry Kind (0 none), satellite, issue of data, its number among the constituents. -/
opaque navEntry : Nat → Nat → List Bool → Nat × Nat × Nat × Nat
/-- The constituent messages an entry of a signal and kind has. -/
opaque navParts : Nat → Nat → Nat
/-- The time of the leading edge of its sync word that a message gives, in its system's time, if it gives one (DUR64 unit). -/
opaque navTime : Nat → Nat → List Bool → Option Nat
/-- The leap-second count a message gives: LeapOffset, LeapPending, LeapAt in Pond time (R286, R287); UtcFraction. -/
opaque navLeap : Nat → List Bool → Option (Int × Nat × Nat)
opaque navFraction : Nat → List Bool → Option Int
/-- The transmitted symbols of a message, re-encoded (R247). -/
opaque navSymbols : Nat → Nat → List Bool → List Bool
/-- A constituent message changes by time counters, page counters, parity and CRC alone (R247), and its symbols as they will be
transmitted from a time on, in the DUR64 unit. -/
opaque navPredictable : Nat → List Bool → Bool
opaque navPredict : Nat → Nat → List Bool → Nat → List Bool
/-- The constituent messages of an entry's Content (R241): their numbers and bits. -/
opaque entrySplit : Nat → Nat → Nat → List (Nat × List Bool)
/-- Reference and FitEnd of an entry's content, by signal and kind, in Pond time (DUR64 unit). -/
opaque entryReference : Nat → Nat → Nat → Nat
opaque entryFitEnd : Nat → Nat → Nat → Nat
/-- Orbit and clock of an ephemeris (R242), by signal, satellite and content: semi-major axis or GLONASS radius in metres, eccentricity in
10^-9, clock bias in ns and drift in 10^-15 as magnitudes; BeiDou MEO; a broadcast unhealthy status. -/
opaque ephAxis : Nat → Nat → Nat → Nat
opaque ephEcc : Nat → Nat → Nat → Nat
opaque ephBias : Nat → Nat → Nat → Nat
opaque ephDrift : Nat → Nat → Nat → Nat
opaque ephMeo : Nat → Nat → Bool
opaque ephUnhealthy : Nat → Nat → Nat → Bool
/-- Position in mm and clock in ps that an ephemeris predicts at a Pond time (R242). -/
opaque ephPosition : Nat → Nat → Nat → Nat → Int × Int × Int
opaque ephClock : Nat → Nat → Nat → Nat → Int
/-- What an ephemeris (signal, satellite, content) predicts at a position in mm and a Pond time: the transit in the DUR64 unit, less
the receiver clock (R260); the Doppler rate in 2^-16 Hz/s (R208); the elevation in degrees (R264). -/
opaque ephTransit : Nat → Nat → Nat → Int × Int × Int → Nat → Int
opaque ephDopplerRate : Nat → Nat → Nat → Int × Int × Int → Nat → Int
opaque ephElevation : Nat → Nat → Nat → Int × Int × Int → Nat → Int
/-- What an ephemeris gives a solution (R268, R275) at a position in mm and a Pond time: sin² of the elevation and the line of sight
in 2^-32; the geometric delay less the satellite clock of a pair of signals, or of one signal given twice (DUR64 unit). -/
opaque ephSin2 : Nat → Nat → Nat → Int × Int × Int → Nat → Nat
opaque ephLine : Nat → Nat → Nat → Int × Int × Int → Nat → Int × Int × Int
opaque ephDelay : Nat → Nat → Nat → Int × Int × Int → Nat → Nat × Nat → Int
/-- The ellipsoidal height of a position, in mm (R270; WGS 84). -/
opaque height : Int × Int × Int → Int
/-- The broadcast Klobuchar delay at L1 (R269): the IONO_UTC_OFFSETS content and its signal, then as of an ephemeris. -/
opaque klobuchar : Nat → Nat → Nat → Nat → Nat → Int × Int × Int → Nat → Nat
/-- GPS time less a system's time that its IONO_UTC_OFFSETS content gives at a Pond time (R278), by signal (DUR64 unit). -/
opaque systemOffset : Nat → Nat → Nat → Int
/-- The position about which the fit of an antenna in SURVEY_IN converges (R272), of what was observed: signal, satellite, content of the
ephemeris, transit. -/
opaque surveyAbout : List (Nat × Nat × Nat × Int) → Int × Int × Int
/-- The geometric range that an ephemeris predicts at a position in mm and a Pond time, over the speed of light (R372, DUR64 unit). -/
opaque ephRange : Nat → Nat → Nat → Int × Int × Int → Nat → Int
/-- The 1σ in ps of a common-view observation, by its Cn0: the spec gives CV_OBS the field and no formula. Log entry 179. -/
opaque cvSigma : Nat → Nat
/-- ClockRate of the Doppler observables (R278): signal, satellite, content of the ephemeris, antenna position, Doppler; t_e. -/
opaque clockRate : List (Nat × Nat × Nat × (Int × Int × Int) × Int) → Nat → Int

end Sys2Proof.Config
end

