-- ==== Sys2Proof/Syntax.lean ====
section
/-!
DEFINITION. The commands of the block: one constructor per row of spec/opcode_table.json, with what the command brings
from outside. A command is one step of spec/95: a request, a frame, an edge on a pin, an instant that the device's own
clock reaches, or the result of an analogue or radio measurement that only the outside world can supply.
Bytes are naturals below 256 (Machine/Bytes.lean); instants of Pond time and durations are in the DUR64 unit of R8
(2^-16 ns) unless a name says otherwise.
-/

namespace Sys2Proof

/-- The access paths of R401, R57 and R583. -/
inductive Path where
  /-- MSPI. -/
  | mspi
  /-- The host port. -/
  | host
  /-- A remote transaction. -/
  | remote
  /-- The dictionary access unit of a core 0 to 2. -/
  | firmware
  /-- The dictionary access unit of core 3. -/
  | user
  /-- A card on the reader (R411). -/
  | card
  deriving DecidableEq, Repr

/-- Who a request comes from and when it executes (R401, R56): the path, the key slot of a valid trailer, the device
address of the source (0 for a local path), the MSPI TAG or core, the time since the last tick edge, and the count of
CK_AON cycles (R410). -/
structure Ctx where
  path : Path
  slot : Option Nat
  source : Nat
  tag : Nat
  at_ : Nat
  aon : Nat
  deriving DecidableEq, Repr

/-- One instruction issued by a Vuvan core (spec/14, R457): the core, the instruction word it fetched at PCX, the word at
the next address (its extension word, where it has one), and the time since the last tick edge. -/
structure Issue where
  core : Nat
  w : Word
  x : Word
  at_ : Nat
  deriving DecidableEq, Repr

/-- What an Announce message says of its grandmaster (IEEE 1588): priority1, clockClass, clockAccuracy,
offsetScaledLogVariance, priority2, identity, stepsRemoved, timeSource. -/
structure PtpQuality where
  prio1 : Nat
  cls : Nat
  acc : Nat
  var : Nat
  prio2 : Nat
  gm : Nat
  steps : Nat
  src : Nat
  deriving DecidableEq, Repr

/-- A PTP message (IEEE 1588, whose layout the spec names and does not give): messageType, domain, sequenceId,
sourcePortIdentity, twoStepFlag, correctionField (2^-16 ns), the timestamp it carries (whole ns of PTP time),
requestingPortIdentity, and the quality of an Announce. -/
structure PtpMsg where
  kind : Nat
  domain : Nat
  seq : Nat
  source : Nat
  twoStep : Bool
  corr : Int
  ts : Nat
  requester : Nat
  quality : Option PtpQuality
  deriving DecidableEq, Repr

/-- A response as the reader's receiver measured it (R496 to R500): fc from the end of the command frame to its SOF; the
subcarrier energy of the first half of the SOF on the named coil and on its partner; the mean subcarrier energy per bit of the
frame, and the mean energy in the same band of the window before the SOF; amplitude in 0.25 dBµV; the bit position of its first
coding violation; bits decoded; the bytes. -/
structure RxFrame where
  respAt : Nat
  e0 : Nat
  e1 : Nat
  es : Nat
  en : Nat
  amp : Nat
  viol : Option Nat
  nbits : Nat
  bytes : List Nat
  deriving DecidableEq, Repr

/-- How an internal job of the reader ended (R502): its last frame, the attempts made of it, and how long before the end of the
job its command frame started, in the DUR64 unit. -/
structure JobEnd where
  frame : RxFrame
  tries : Nat
  ago : Nat
  deriving DecidableEq, Repr

/-- What ends an entry attempt before its state is reached, beyond the votes of the present state (R538, R544): nothing; a
block whose refusal arises in the stop phase; a wake source, in the poll or in the stop phase. -/
inductive EntryEnd where
  | none
  | block (b : Nat)
  | wake (cause : Nat) (poll : Bool)
  deriving DecidableEq, Repr

/-- What orbit data, position and time predict for a signal, a satellite and an antenna (R157): the instant it holds for in the
DUR64 unit, in Lake time while TimingState is UNSET with Lake time valid and in Pond time otherwise (R158); the Doppler in
2^-16 Hz; the code phase in 2^-32 chip; and the phase of the secondary code or data symbols in code periods. -/
structure ErgPred where
  at_ : Nat
  doppler : Int
  code : Nat
  sec : Nat
  deriving DecidableEq, Repr

/-- What the device measures of itself and of its pins for a tick edge: DieTemperature in 0.1 °C and VbatVoltage in mV; for
each chain the rms of I and Q over its samples that were not blanked (R125), in thousandths of 0.1 LSB, and its strong samples
as pairs of their number (R117; from 61380 on, those of the tick that begins) and max(|I|, |Q|) in LSB (R127); BiasVoltage in mV and BiasCurrent in 0.1 mA of
each antenna; when firmware has learned its oscillator model anew, Y, D and W as binary32 images (R94); the time in µs after which a ramp of VDD_CORE came into range (R551); for a link the
instant of its launch after t0 where that is not 0 (R306); the time in µs that tasks migrated to core 3 take (R34);
and after a wake whether the PLL has relocked (R541). -/
structure TickIn where
  temp : Int
  vbat : Nat
  chains : List (Nat × List (Nat × Nat))
  bias : List (Nat × Nat)
  model : Option (Nat × Nat × Nat)
  ramp : Option Nat
  launches : List (Nat × Nat)
  tasks : Nat
  relock : Bool
  deriving DecidableEq, Repr

/-- What a power-up finds: STRAP0 to STRAP5; the resources that fail their self-test (R570), as cores, slots, ports and
chains; the supplies in range, as the bits of SupplyStatus; the banks of IoBanks. -/
structure StartIn where
  straps : Nat
  cores : List Nat
  slots : List Nat
  ports : List Nat
  chains : List Nat
  supplies : Nat
  banks : Nat
  deriving DecidableEq, Repr

/-- The commands of the block, one constructor per row of the table. -/
inductive Instr where
  /-- TICK (R23): Pond time reaches a whole millisecond; the tick number advances and every tick-edge action of the device takes place. -/
  | tick (i : TickIn)
  /-- DUMP_READY (R23): At t0 + 2 µs the dumps of the previous tick are in place, DUMP_READY is raised and the budget window opens. -/
  | dumpReady
  /-- BUDGET_DEADLINE (R29): At t0 + 950 µs a firmware core that has not ended its per-tick work takes a BUDGET trap, and one past TICK_DONE is stopped. -/
  | budgetDeadline
  /-- HARD_STOP (R31): At t0 + 990 µs every core that has not executed WAIT is halted and restarts at TICK. -/
  | hardStop
  /-- USER_BUDGET_EXHAUSTED (R30): User code on core 3 reaches UserBudgetGranted and takes the BUDGET trap. -/
  | userBudgetExhausted (at_ : Nat)
  /-- USER_HARD_STOP (R31): Core 3 still in user code 10 µs after its BUDGET trap is halted. -/
  | userHardStop (at_ : Nat)
  /-- TICK_DONE (R25): A core writes 1 to TICK_DONE, marking the end of its per-tick tasks for the tick. -/
  | tickDone (core at_ : Nat) (w : Word)
  /-- SHED_STEP (R32): After ShedThreshold consecutive overrun ticks the device raises the level or releases the 16 lowest-priority slots. -/
  | shedStep
  /-- TASK_MIGRATION (R34): At the first tick edge after a core retires its tasks migrate, SlotsHeldLimit is recomputed and excess slots are released. -/
  | taskMigration (tasks : Nat)
  /-- STATUS (R68): An MSPI STATUS transfer returns the status byte only. -/
  | status (n at_ : Nat)
  /-- READ (R65): A READ operation returns the value of one object after the checks of R53. -/
  | read (c : Ctx) (index sub len : Nat)
  /-- WRITE (R44): A WRITE operation checks and sets the value of an object that has no row of its own. -/
  | write (c : Ctx) (index sub : Nat) (b : List Nat)
  /-- STREAM_READ (R63): STREAM_READ removes and returns the oldest whole entries of a stream that fit LEN. -/
  | streamRead (c : Ctx) (index sub len : Nat)
  /-- FETCH (R71): An MSPI FETCH transfer returns the next waiting reply, which leaves the queue once its CRC is clocked out. -/
  | fetch (n at_ : Nat)
  /-- SNAPSHOT (R59): SNAPSHOT reads all values of a record in one cycle. -/
  | snapshot (c : Ctx) (index len : Nat)
  /-- WRITE_RECORD (R60): WRITE_RECORD checks every value of a record and writes all of them in one cycle or none. -/
  | writeRecord (c : Ctx) (index : Nat) (b : List Nat)
  /-- DESCRIBE (R66): DESCRIBE returns the type, access, keep, length, default and limits of an object. -/
  | describe (c : Ctx) (index sub len : Nat)
  /-- MSPI_TRANSFER (R69): An MSPI request transfer is received whole and queued, or discarded for framing, CRC or a full queue. -/
  | mspiTransfer (b : List Nat) (at_ : Nat)
  /-- HOST_REQUEST (R77): A host-port request frame is received, authenticated, de-duplicated and its operations executed in order. -/
  | hostRequest (f : List Nat) (fcs : Bool) (at_ aon : Nat)
  /-- SOURCE_LOST (R84): LossDelay passes without a source update and the device enters HOLDOVER. -/
  | sourceLost
  /-- STEP (R90): At the first tick edge at least 2 ms after a winning estimate, Pond time is set and the tick lengthened. -/
  | step
  /-- PONDSEED (R91): A write of PondSeed in UNSET hands a seed to the Pond time unit for the single step. -/
  | pondseed (c : Ctx) (v : Nat)
  /-- RESEED (R93): After a confirmed re-seed, the named source arrives and the device logs, steps and reports the re-seed. -/
  | reseed (at_ : Nat)
  /-- RESEED_TIMEOUT (R93): The source of a confirmed re-seed does not come within 10 s and ReseedResult becomes TIMEOUT. -/
  | reseedTimeout (at_ : Nat)
  /-- REFERENCE_LOST (R95): The reference shows no edge or leaves ±50 ppm, and the PLL changes to the internal oscillator. -/
  | referenceLost (at_ : Nat)
  /-- REFERENCE_RETURNING (R95): A lost reference becomes valid again and RefStatus becomes RETURNING. -/
  | referenceReturning (at_ : Nat)
  /-- REFERENCE_VALID (R95): The reference has been valid for 10 s and the PLL returns to it with phase build-out. -/
  | referenceValid (at_ : Nat)
  /-- TIME_PULSE_EDGE (R100): A pulse placer emits the on-time edge of a grid instant, advanced by Q. -/
  | timePulseEdge (p g : Nat)
  /-- PULSE_WIDTH_END (R101): Width after its on-time edge a pulse returns to its inactive level. -/
  | pulseWidthEnd (p : Nat)
  /-- CLOCK_REALIGN (R104): A clock output starts or restarts with a rising edge at an alignment instant. -/
  | clockRealign (c g : Nat)
  /-- PHASE_RESIDUAL_MEASURE (R103): Once per second the phase detector measures and trims each clock output's PhaseResidual. -/
  | phaseResidualMeasure (c : Nat) (r : Int) (at_ : Nat)
  /-- TOD_MESSAGE (R105): TodLatency after each whole second the device begins a ZDA or binary time message on TOD_TX. -/
  | todMessage (sec : Nat)
  /-- IRIG_B_FRAME (R108): At each whole second TP3 begins an IRIG-B frame describing that second. -/
  | irigBFrame (sec : Nat)
  /-- ANTENNA_SHORT (R121): The limiter holds the current at CurrentLimit for 1 ms, and the bias is switched off. -/
  | antennaShort (a at_ : Nat)
  /-- SHORT_TRIAL (R121): Every 1 s in SHORT the bias is tried for 1 ms and the state left when the current is below the limit. -/
  | shortTrial (a current at_ : Nat)
  /-- ANTENNA_SUPPLY_LOW (R121): BiasVoltage stays below 2,950 mV for 10 ms and the input becomes SUPPLY_LOW. -/
  | antennaSupplyLow (a mv : Nat)
  /-- SUPPLY_LOW_CLEARED (R121): BiasVoltage stays at or above 3,050 mV for 100 ms and SUPPLY_LOW ends. -/
  | supplyLowCleared (a mv : Nat)
  /-- ANTENNA_OPEN (R121): BiasCurrent stays below OpenThreshold for 100 ms and the input becomes OPEN. -/
  | antennaOpen (a current : Nat)
  /-- OPEN_CLEARED (R121): BiasCurrent stays at or above OpenThreshold + 1.0 mA for 100 ms and OPEN ends. -/
  | openCleared (a current : Nat)
  /-- AGC_BASELINE_LEARNED (R126): After 600 s of clean ACTIVE operation AgcBaseline takes the median gain. -/
  | agcBaselineLearned (c : Nat)
  /-- NOTCH_SPECTRUM (R129): Every 10 ms the notch detector forms a spectrum and engages, follows or releases notches. -/
  | notchSpectrum (c : Nat) (lines : List (Nat × Int × Nat))
  /-- LO_UNLOCK (R135): A chain's LO loses lock; its output becomes zero and it is queued at the head for calibration. -/
  | loUnlock (c at_ : Nat)
  /-- CAL_REQUEST (R136): A write of CalRequest queues the named chains for the named calibration steps. -/
  | calRequest (c : Ctx) (v : Nat)
  /-- CALIBRATION_START (R132): At a tick edge the next queued chain starts calibrating and becomes CALIBRATING. -/
  | calibrationStart
  /-- CAL_STEP_COMPLETE (R130): A calibration step ends; a failure stops the run and puts the chain in FAULT. -/
  | calStepComplete (pass : Bool) (image at_ : Nat)
  /-- CALIBRATION_END (R132): At the first tick edge after settling the chain becomes ACTIVE and the next queued chain starts. -/
  | calibrationEnd
  /-- CHAIN_FAULT_RETRY (R131): A chain that has been in FAULT for 10 s is queued for calibration. -/
  | chainFaultRetry (c : Nat)
  /-- SPECTRUM_AVERAGING_START (R137): At the tick edge due after SpecInterval the spectrum monitor starts a new averaging. -/
  | spectrumAveragingStart
  /-- SPECTRUM_ENTRY (R137): At the first tick edge after the last frame the monitor appends eight spectrum entries, or none. -/
  | spectrumEntry (powers : List Int)
  /-- ANTENNA_SWITCH (R142): At the tick edge after the serving antenna becomes unusable the device switches antennas and frees abandoned slots. -/
  | antennaSwitch
  /-- ANTENNA_REVERT (R142): Primary has been usable for RevertDelay and the device returns to it. -/
  | antennaRevert
  /-- LANE_RUN_START (R164): A free lane takes the highest-priority DUE entry and starts a search run. -/
  | laneRunStart (p : ErgPred)
  /-- PASS_DECISION (R156): A pass ends and its detection decision yields a candidate or the next pass. -/
  | passDecision (l cell line ratio at_ : Nat)
  /-- VERIFICATION (R168): A verification ends; success refines the candidate into a result, failure continues the run. -/
  | verification (l : Nat) (powers : List Nat) (at_ : Nat)
  /-- HANDOFF_LOAD (R172): The slot allocator loads a result into a FREE slot, which enters QUEUED. -/
  | handoffLoad
  /-- NO_SLOT (R173): A held result exceeds HandoffHold, or finds 16 held, and is discarded. -/
  | noSlot
  /-- AUTO_LIST_REFILL (R166): Once per second the firmware refills search entries 128 to 255. -/
  | autoListRefill (predicted : List (Nat × Nat × Int))
  /-- DUMP_LATCH (R188): At a component's code epoch the tap accumulators are latched into the dump record. -/
  | dumpLatch (n : Nat) (data pilot mm : List Int)
  /-- LOOP_UPDATE (R197): Firmware closes a slot's code and carrier loops and judges its lock, C/N0 and transitions. -/
  | loopUpdate (n at_ : Nat)
  /-- SLOT_STATE_CHANGE (R192): A slot transition decided at an update takes effect at the next tick edge. -/
  | slotStateChange (n : Nat)
  /-- PULL_IN_FAILED (R192): PullInTimeout passes without reaching TRACK and the slot goes to FREE. -/
  | pullInFailed (n : Nat)
  /-- LOST_TIMEOUT (R192): LostHold passes in LOST and the slot goes to FREE. -/
  | lostTimeout (n : Nat)
  /-- AIDED_WINDOW_UPDATE (R209): An AIDED window's update is computed once its peer symbols are in hand or AidedLatencyLimit passes. -/
  | aidedWindowUpdate (n at_ : Nat)
  /-- PARITY_FAULT (R211): A parity check fails and the array reloads the context and re-runs the sample block. -/
  | parityFault (n : Nat) (again : Bool)
  /-- SLOT_RETIRED (R212): A slot with 3 parity faults in 1 s becomes RETIRED at the next tick edge. -/
  | slotRetired (n : Nat)
  /-- CROSS_CORR_DROP (R214): A slot matching a stronger slot's cross-correlation for 1 s is dropped to FREE. -/
  | crossCorrDrop (n : Nat)
  /-- RELEASE (R220): A write of RELEASE to SlotCommand sends the slot to FREE at the next tick edge. -/
  | release (c : Ctx) (n : Nat)
  /-- HISTOGRAM_RESTART (R231): No symbol position is accepted within 10 s and the transition histogram restarts. -/
  | histogramRestart (n : Nat)
  /-- DECODE_COMPLETE (R239): A decoder completes a block; candidates are checked, frames confirmed and messages stored. -/
  | decodeComplete (d at_ : Nat)
  /-- EPHEMERIS_EXPIRED (R242): A store entry reaches its FitEnd and becomes EXPIRED. -/
  | ephemerisExpired (e : Nat)
  /-- PREDICTED_BLOCK (R247): The device issues a PREDICTED symbol block up to PredictHorizon ahead. -/
  | predictedBlock (n e part start at_ : Nat)
  /-- MEASUREMENT_EPOCH (R257): At an epoch tick edge firmware forms one observation per locked slot. -/
  | measurementEpoch (at_ : Nat)
  /-- SOLUTION (R275): The time solution of a whole-second epoch completes with fault exclusion and trust checks. -/
  | solution (at_ : Nat)
  /-- SOLUTION_SKIPPED (R258): A solution not complete by t_e + 300 ms is abandoned. -/
  | solutionSkipped
  /-- SURVEY_RESTART (R272): SurveyMaxTime passes before the survey completes and it restarts. -/
  | surveyRestart (a : Nat)
  /-- LEAP_APPLIED (R287): At LeapAt LeapOffset changes by one second. -/
  | leapApplied
  /-- HOST_LEAP (R288): A write of HostLeap sets LeapOffset, LeapPending and LeapAt from the host. -/
  | hostLeap (c : Ctx) (b : List Nat)
  /-- ASYM_CAL_PERIOD (R311): At the end of each AsymCalTime period the measured asymmetry is written. -/
  | asymCalPeriod (n : Nat) (mean : Int) (sigma : Nat)
  /-- SIGNAL_DETECT (R300): A DOWN port with a valid reference detects receive signal and enters TRAINING. -/
  | signalDetect (n : Nat)
  /-- TRAINING_COMPLETE (R300): Comma alignment and HELLO or auto-negotiation complete and the port enters its UP state. -/
  | trainingComplete (n : Nat) (eth : Bool)
  /-- AUTO_MODE_SWITCH (R298): In AUTO mode every 50 ms training alternates between FABRIC and ETHERNET. -/
  | autoModeSwitch (n at_ : Nat)
  /-- TRAIN_FAIL (R300): 200 ms of training pass without success and the port goes DOWN. -/
  | trainFail (n at_ : Nat)
  /-- TRAIN_RETRY (R300): 1 s after a training failure the port returns to TRAINING. -/
  | trainRetry (n at_ : Nat)
  /-- LOS (R300): Loss of signal or symbol lock for 1 ms sends the port to TRAINING. -/
  | los (n : Nat) (group : Bool)
  /-- HELLO (R301): A HELLO control frame arrives with the peer's address and RESTART bit. -/
  | hello (n : Nat) (frame : List Nat)
  /-- DATA (R304): A DATA link frame arrives and is accepted, discarded as a duplicate or NAKed. -/
  | linkData (n : Nat) (frame : List Nat) (at_ : Nat)
  /-- LINK_ACK (R304): An ACK control frame arrives and releases acknowledged frames from the retry buffer. -/
  | linkAck (n : Nat) (frame : List Nat) (at_ : Nat)
  /-- NAK (R304): A NAK arrives and the sender resends from the oldest unacknowledged frame. -/
  | nak (n : Nat) (frame : List Nat) (at_ : Nat)
  /-- ACK_TIMEOUT (R304): The ACK timeout expires and the sender resends from the oldest unacknowledged frame. -/
  | ackTimeout (n at_ : Nat)
  /-- TIMING_FRAME (R307): A peer timing frame arrives and is stamped on receipt. -/
  | timingFrame (n : Nat) (frame : List Nat) (at_ : Nat)
  /-- TIMING_RECORD_POSTED (R309): Once all four stamps are in hand the exchange record is posted 1 µs later. -/
  | timingRecordPosted (n at_ : Nat)
  /-- LINK_MISSING (R309): No record for a tick is posted by t0 + 200 µs of the next tick and MISSING sets. -/
  | linkMissing (n : Nat)
  /-- ERROR_SECOND (R313): At each whole second a port's errors are totalled and a bad second counted. -/
  | errorSecond (n errs : Nat)
  /-- DEGRADED_RECOVERY (R300): 60 clean seconds return a DEGRADED port to its UP state. -/
  | degradedRecovery (n : Nat)
  /-- RETRAIN (R314): A write of RETRAIN to PortCommand sends the port to TRAINING. -/
  | retrain (c : Ctx) (n : Nat)
  /-- SYNC_INTERVAL (R317): A master port sends a one-step Sync at its sync interval. -/
  | syncInterval (n at_ : Nat)
  /-- ANNOUNCE_INTERVAL (R318): A PTP port sends an Announce with the clock quality at its interval. -/
  | announceInterval (n at_ : Nat)
  /-- DELAY_REQ_INTERVAL (R315): A slave port sends Delay_Req or Pdelay_Req at its interval. -/
  | delayReqInterval (n at_ : Nat)
  /-- ANNOUNCE_RECEIPT_TIMEOUT (R319): No Announce arrives within AnnounceReceiptTimeout intervals. -/
  | announceReceiptTimeout (n at_ : Nat)
  /-- SYNC (R317): A Sync message arrives and is stamped, used in SLAVE or forwarded with residence time. -/
  | sync (n : Nat) (m : PtpMsg) (at_ : Nat) (out : List (Nat × Nat))
  /-- FOLLOW_UP (R317): A Follow_Up arrives for a two-step Sync and is used or corrected and forwarded. -/
  | followUp (n : Nat) (m : PtpMsg)
  /-- DELAY_REQ (R315): A Delay_Req arrives and is answered or forwarded. -/
  | delayReq (n : Nat) (m : PtpMsg) (at_ : Nat) (out : List (Nat × Nat))
  /-- DELAY_RESP (R315): A Delay_Resp arrives and MeanPathDelay is computed. -/
  | delayResp (n : Nat) (m : PtpMsg) (at_ : Nat) (out : List (Nat × Nat))
  /-- PDELAY_REQ (R315): A Pdelay_Req arrives and is answered by peer delay. -/
  | pdelayReq (n : Nat) (m : PtpMsg) (at_ turn : Nat) (out : List (Nat × Nat))
  /-- PDELAY_RESP (R315): A Pdelay_Resp arrives and the link delay is computed. -/
  | pdelayResp (n : Nat) (m : PtpMsg) (at_ : Nat) (out : List (Nat × Nat))
  /-- ANNOUNCE (R319): An Announce arrives and the BMCA judges the port state. -/
  | announce (n : Nat) (m : PtpMsg) (at_ : Nat) (out : List (Nat × Nat))
  /-- LAUNCH_SUBMIT (R320): A write of LaunchSubmit queues a frame to leave a port at LAUNCH_AT. -/
  | launchSubmit (c : Ctx) (b : List Nat)
  /-- FRAME_LAUNCH (R321): A queued frame reaches its LAUNCH_AT, leaves the ball and posts its outcome. -/
  | frameLaunch (n at_ : Nat)
  /-- LSA (R333): A link-state advertisement arrives, is stored if newer and flooded on. -/
  | lsa (held : Bool) (at_ : Nat)
  /-- LSA_REFRESH (R333): Every 10 s, and when its links change, a device floods its own LSA. -/
  | lsaRefresh (at_ : Nat)
  /-- LSA_EXPIRY (R333): An LSA not refreshed for 40 s is removed from the database. -/
  | lsaExpiry (at_ : Nat)
  /-- ROOT_ELECTION (R331): At a tick edge after 200 ms of a settled database each device computes root and standbys. -/
  | rootElection (replica : List (Nat × Nat)) (at_ : Nat)
  /-- ROUTE_COMPUTE (R334): Within 10 ms of a database change routes are recomputed, taking effect at the next tick edge. -/
  | routeCompute (at_ : Nat)
  /-- NETWORK_FRAME_FORWARD (R335): A router receives a frame for another device and forwards or drops it by hops, age and route. -/
  | networkFrameForward (at_ : Nat)
  /-- JOIN (R329): The root receives a JOIN and decides the address grant. -/
  | join (at_ : Nat)
  /-- JOIN_RESEND (R328): A joining device repeats JOIN every 1 s until it is granted. -/
  | joinResend (at_ : Nat)
  /-- GRANT (R328): A GRANT arrives; with OK the device takes its address and becomes MEMBER after fetching fabric-scope values. -/
  | grant (at_ : Nat)
  /-- REMOTE_REQUEST (R343): A write of RemoteRequest submits a transaction to another device. -/
  | remoteRequest (c : Ctx) (b : List Nat)
  /-- TXN_REQUEST (R343): A transaction request arrives and is executed or answered from the kept reply. -/
  | txnRequest (at_ aon : Nat)
  /-- TXN_REPLY (R343): A transaction reply arrives and is appended to RemoteReplyStream. -/
  | txnReply (at_ : Nat)
  /-- TXN_RESEND (R343): TxnTimeout expires; the request is resent or, after the third, ends TIMEOUT. -/
  | txnResend (at_ : Nat)
  /-- MESSAGE_SUBMIT (R347): A write of MessageSubmit checks and journals a message on up to 8 channels. -/
  | messageSubmit (c : Ctx) (b : List Nat)
  /-- CHANNEL_OPEN (R345): A write of OPEN to ChannelCommand journals and sends the OPEN message. -/
  | channelOpen (c : Ctx) (k : Nat)
  /-- CHANNEL_CLOSE (R345): A write of CLOSE to ChannelCommand journals and sends the CLOSE message. -/
  | channelClose (c : Ctx) (k : Nat)
  /-- CHANNEL_BROKEN (R345): The destination is not live for ChannelDeadTime and the channel becomes BROKEN. -/
  | channelBroken (k at_ : Nat)
  /-- MESSAGE (R350): A MESSAGE copy arrives and is journalled, acknowledged or discarded by its CHSEQ. -/
  | message (at_ : Nat)
  /-- MESSAGE_ACK (R350): A MESSAGE_ACK arrives and closes the copy as CONFIRMED or EXPIRED. -/
  | messageAck (at_ : Nat)
  /-- MESSAGE_RESEND (R349): RetryTime passes without acknowledgement and the copy is resent with doubled interval. -/
  | messageResend (i at_ : Nat)
  /-- KEEPER_HOLD (R351): A keeper receives HOLD, journals the copy and answers HELD. -/
  | keeperHold (dest at_ : Nat)
  /-- KEEPER_HELD (R347): The source receives HELD from a keeper toward acceptance. -/
  | keeperHeld (at_ : Nat)
  /-- KEEPER_RELEASE (R351): A keeper receives RELEASE and drops its copy. -/
  | keeperRelease (at_ : Nat)
  /-- KEEPER_TAKEOVER (R351): The source is not live for KeeperTakeover and the keeper sends the copy RELAYED. -/
  | keeperTakeover (at_ : Nat)
  /-- MESSAGE_DELIVERY (R352): An entry's due instant arrives and it is presented or its WRITE begins. -/
  | messageDelivery (at_ aon : Nat)
  /-- RECEIVE_RECORD_FREE (R345): 100 ms after a CLOSE is delivered or timed out the receive record is freed. -/
  | receiveRecordFree (at_ : Nat)
  /-- STREAM_DATA (R344): A STREAM_DATA frame arrives and is accepted in order or discarded. -/
  | streamData (at_ : Nat)
  /-- STREAM_OPEN (R344): A STREAM_CONTROL OPEN arrives and opens a new incarnation. -/
  | streamOpen (at_ : Nat)
  /-- STREAM_OPEN_ACK (R344): A STREAM_CONTROL OPEN_ACK arrives and the stream starts sending. -/
  | streamOpenAck (at_ : Nat)
  /-- STREAM_ACK (R344): A STREAM_CONTROL ACK acknowledges frames cumulatively. -/
  | streamAck (at_ : Nat)
  /-- STREAM_CLOSE (R344): A STREAM_CONTROL CLOSE ends a stream. -/
  | streamClose (at_ : Nat)
  /-- STREAM_RESET (R344): A STREAM_CONTROL RESET abandons a stream. -/
  | streamReset (at_ : Nat)
  /-- STREAM_RESEND (R344): After 20 ms without progress the sender resends from the oldest unacknowledged frame. -/
  | streamResend (at_ : Nat)
  /-- FABRIC_SCOPE_WRITE (R357): A write to the fabric-scope range is journalled, answered ACCEPTED and proposed to the root. -/
  | fabricScopeWrite (c : Ctx) (index sub : Nat) (b : List Nat)
  /-- FSCOPE_PROPOSE (R357): The root receives a proposal and assigns CSEQ and COMMIT_TICK or aborts. -/
  | fscopePropose (at_ : Nat)
  /-- FSCOPE_PREPARE (R357): A member receives PREPARE, journals it and answers READY. -/
  | fscopePrepare (at_ : Nat)
  /-- FSCOPE_READY (R357): The root receives READY from a member. -/
  | fscopeReady (at_ : Nat)
  /-- FSCOPE_READY_DEADLINE (R357): 5 ms before COMMIT_TICK the root sends COMMIT if all are ready, otherwise ABORT. -/
  | fscopeReadyDeadline (at_ : Nat)
  /-- FSCOPE_COMMIT (R357): A member receives COMMIT for a prepared change. -/
  | fscopeCommit (at_ : Nat)
  /-- FSCOPE_ABORT (R357): A member or proposer receives ABORT and drops the change. -/
  | fscopeAbort (at_ : Nat)
  /-- FSCOPE_APPLY (R357): At the edge of COMMIT_TICK a member applies the committed value or sends FETCH. -/
  | fscopeApply
  /-- FSCOPE_FETCH (R357): The root receives FETCH and answers with VALUE. -/
  | fscopeFetch (at_ : Nat)
  /-- FSCOPE_VALUE (R357): A member receives VALUE and applies it at the next tick edge. -/
  | fscopeValue (at_ : Nat)
  /-- FSCOPE_LOST (R363): 1 s after a root change a proposal with no PREPARE ends TIMEOUT. -/
  | fscopeLost (at_ : Nat)
  /-- LAKE_EPOCH (R367): At a tick number multiple of 100 a member forms and sends its REPORT. -/
  | lakeEpoch (at_ : Nat)
  /-- REPORT (R369): The root receives a member's REPORT for the epoch. -/
  | report (at_ : Nat)
  /-- ENSEMBLE_EPOCH (R375): The root computes the ensemble and sends each reporting member an ESTIMATE. -/
  | ensembleEpoch (origin at_ : Nat)
  /-- ESTIMATE (R381): A member receives an ESTIMATE, which may be its first step estimate or a source update. -/
  | estimate (at_ : Nat)
  /-- ESTIMATE_LOSS (R380): No valid ESTIMATE arrives for 1 s and LakeValid goes FALSE. -/
  | estimateLoss (at_ : Nat)
  /-- REPLICA (R384): A standby receives a REPLICA fragment of the root's state. -/
  | replica (at_ : Nat)
  /-- ACTING_TAKEOVER (R385): Standby1 gets no estimate for three epochs and acts as computing root. -/
  | actingTakeover (at_ : Nat)
  /-- CV_OBS (R373): A common-view partner receives CV_OBS and advances the pair's series. -/
  | cvObs (at_ : Nat)
  /-- NEIGHBOURS (R390): A member receives its NEIGHBOURS list and common-view pairing. -/
  | neighbours (at_ : Nat)
  /-- SIGHTINGS (R391): A member receives a neighbour's SIGHTINGS, which become peer sightings. -/
  | sightings (at_ : Nat)
  /-- EPHEMERIS (R246): A member receives a peer's EPHEMERIS, which is validated as a PEER copy. -/
  | lakeEphemeris (at_ : Nat)
  /-- SYMBOLS (R249): A member receives a symbol block for data wipe-off. -/
  | symbols (at_ : Nat)
  /-- SUBSCRIBE (R392): A provider receives a SUBSCRIBE and serves or refuses it. -/
  | subscribe (at_ : Nat)
  /-- SUBSCRIBE_RENEW (R392): Every 5 s a member renews its subscriptions while the need lasts. -/
  | subscribeRenew (at_ : Nat)
  /-- RANK (R388): A root receives RANK from another root and the surviving realisation is chosen. -/
  | rank (at_ : Nat)
  /-- PROPOSE (R408): A write of Propose opens a two-party change of a PW object. -/
  | propose (c : Ctx) (b : List Nat)
  /-- CONFIRM (R409): A write of Confirm checks and applies a pending two-party change. -/
  | confirm (c : Ctx) (b : List Nat)
  /-- CANCEL (R410): A write of Cancel withdraws a pending two-party change. -/
  | cancel (c : Ctx) (id : Nat)
  /-- TWO_PARTY_EXPIRED (R410): 120,000 ms of CK_AON pass without confirmation and the change expires. -/
  | twoPartyExpired (aon : Nat)
  /-- CARD_POLL (R411): Every 250 ms with a CARD change pending the reader polls CardPosition and runs the card exchange. -/
  | cardPoll (present : Bool) (select answer challenge : List Nat) (last : JobEnd) (us at_ : Nat)
  /-- NOP (R472): No operation. -/
  | nop (i : Issue)
  /-- WAIT (R448): The core ends its work for the tick, or arms a power entry, and waits for TICK. -/
  | wait (i : Issue)
  /-- RTS (R472): Pops PCX from the stack. -/
  | rts (i : Issue)
  /-- RTI (R442): Pops ST and then PCX to return from an interrupt or trap. -/
  | rti (i : Issue)
  /-- EI (R472): Sets IE. -/
  | ei (i : Issue)
  /-- DI (R472): Clears IE. -/
  | di (i : Issue)
  /-- MOV (R465): Copies one register to another under R459. -/
  | mov (i : Issue)
  /-- LD (R465): Loads a register from memory. -/
  | ld (i : Issue)
  /-- ST (R465): Stores a register to memory. -/
  | st (i : Issue)
  /-- LDI (R465): Loads a register with the extension word. -/
  | ldi (i : Issue)
  /-- LDIS (R465): Loads a register with a sign-extended 11-bit immediate. -/
  | ldis (i : Issue)
  /-- LEA (R465): Writes the effective address to an address register without memory access. -/
  | lea (i : Issue)
  /-- ADD (R467): Adds two G operands, register or immediate b. -/
  | add (i : Issue)
  /-- ADC (R467): Adds with carry. -/
  | adc (i : Issue)
  /-- SUB (R467): Subtracts. -/
  | sub (i : Issue)
  /-- SBC (R467): Subtracts with borrow. -/
  | sbc (i : Issue)
  /-- CMP (R467): Sets flags of a - b without writing. -/
  | cmp (i : Issue)
  /-- NEG (R467): Negates a. -/
  | neg (i : Issue)
  /-- ABS (R467): Takes the absolute value of a. -/
  | abs (i : Issue)
  /-- AND (R467): Bitwise AND. -/
  | and (i : Issue)
  /-- OR (R467): Bitwise OR. -/
  | or (i : Issue)
  /-- XOR (R467): Bitwise exclusive OR. -/
  | xor (i : Issue)
  /-- ANDN (R467): a AND NOT b. -/
  | andn (i : Issue)
  /-- NOT (R467): Bitwise inversion of a. -/
  | not (i : Issue)
  /-- TST (R467): Sets flags of a AND b without writing. -/
  | tst (i : Issue)
  /-- ASL (R467): Arithmetic shift left. -/
  | asl (i : Issue)
  /-- ASR (R467): Arithmetic shift right. -/
  | asr (i : Issue)
  /-- LSL (R467): Logical shift left. -/
  | lsl (i : Issue)
  /-- LSR (R467): Logical shift right. -/
  | lsr (i : Issue)
  /-- BTST (R467): Tests bit k of a into Z. -/
  | btst (i : Issue)
  /-- BSET (R467): Sets bit k. -/
  | bset (i : Issue)
  /-- BCLR (R467): Clears bit k. -/
  | bclr (i : Issue)
  /-- BTGL (R467): Inverts bit k. -/
  | btgl (i : Issue)
  /-- NORM (R467): Counts redundant sign bits of a. -/
  | norm (i : Issue)
  /-- MIN (R467): Signed minimum. -/
  | min (i : Issue)
  /-- MAX (R467): Signed maximum. -/
  | max (i : Issue)
  /-- MAXX (R469): Keeps a running maximum and its index. -/
  | maxx (i : Issue)
  /-- MINX (R469): Keeps a running minimum and its index. -/
  | minx (i : Issue)
  /-- ADDD (R468): Packed-decimal add. -/
  | addd (i : Issue)
  /-- ADCD (R468): Packed-decimal add with decimal carry. -/
  | adcd (i : Issue)
  /-- SUBD (R468): Packed-decimal subtract. -/
  | subd (i : Issue)
  /-- SBCD (R468): Packed-decimal subtract with decimal carry. -/
  | sbcd (i : Issue)
  /-- MUL (R470): Fractional product to PH and PL. -/
  | mul (i : Issue)
  /-- IMUL (R470): Signed integer product to PH and PL. -/
  | imul (i : Issue)
  /-- UMUL (R470): Unsigned integer product to PH and PL. -/
  | umul (i : Issue)
  /-- MPY (R471): Accumulator takes the fractional product. -/
  | mpy (i : Issue)
  /-- MAC (R471): Accumulator adds the fractional product. -/
  | mac (i : Issue)
  /-- MSC (R471): Accumulator subtracts the fractional product. -/
  | msc (i : Issue)
  /-- MPYR (R471): Rounded fractional product. -/
  | mpyr (i : Issue)
  /-- MACR (R471): Multiply-accumulate then round. -/
  | macr (i : Issue)
  /-- IMAC (R471): Accumulator adds the integer product. -/
  | imac (i : Issue)
  /-- AADD (R471): Adds two accumulators. -/
  | aadd (i : Issue)
  /-- ASUB (R471): Subtracts two accumulators. -/
  | asub (i : Issue)
  /-- AMOV (R471): Copies an accumulator. -/
  | amov (i : Issue)
  /-- ANEG (R471): Negates an accumulator. -/
  | aneg (i : Issue)
  /-- AABS (R471): Absolute value of an accumulator. -/
  | aabs (i : Issue)
  /-- ACLR (R471): Clears an accumulator. -/
  | aclr (i : Issue)
  /-- ACMP (R471): Sets flags of AD - AS without writing. -/
  | acmp (i : Issue)
  /-- RND (R471): Rounds an accumulator convergently. -/
  | rnd (i : Issue)
  /-- ASAT (R471): Limits an accumulator to 48 bits. -/
  | asat (i : Issue)
  /-- ASH (R471): Shifts an accumulator by a signed amount. -/
  | ash (i : Issue)
  /-- AGET (R471): Copies an accumulator's upper word to a G register. -/
  | aget (i : Issue)
  /-- AGETS (R471): Copies a limited accumulator's upper word. -/
  | agets (i : Issue)
  /-- AGETR (R471): Copies a rounded and limited accumulator's upper word. -/
  | agetr (i : Issue)
  /-- MAXM (R469): Searches memory for a running maximum and its address. -/
  | maxm (i : Issue)
  /-- MINM (R469): Searches memory for a running minimum and its address. -/
  | minm (i : Issue)
  /-- MAXAM (R469): Searches memory for a running maximum magnitude and its address. -/
  | maxam (i : Issue)
  /-- B (R472): Conditional relative branch. -/
  | b (i : Issue)
  /-- JMP (R472): Conditional jump to the extension word. -/
  | jmp (i : Issue)
  /-- CALL (R472): Conditional call to the extension word. -/
  | call (i : Issue)
  /-- JMPR (R472): Conditional jump to a G register. -/
  | jmpr (i : Issue)
  /-- CALLR (R472): Conditional call to a G register. -/
  | callr (i : Issue)
  /-- LOOP (R473): Opens a hardware loop level with an immediate count. -/
  | loop (i : Issue)
  /-- LOOPR (R473): Opens a hardware loop level with a count from a G register. -/
  | loopr (i : Issue)
  /-- REP (R475): Repeats the next instruction COUNT or NREP times; `cut` repetitions have run when the hard stop falls within
  the repeat (R33). -/
  | rep (i : Issue) (w2 x2 : Word) (cut : Option Nat)
  /-- PUSH (R465): Pushes a register onto the stack. -/
  | push (i : Issue)
  /-- POP (R465): Pops a register from the stack. -/
  | pop (i : Issue)
  /-- FADD (R478): Floating-point add. -/
  | fadd (i : Issue)
  /-- FSUB (R478): Floating-point subtract. -/
  | fsub (i : Issue)
  /-- FMUL (R478): Floating-point multiply. -/
  | fmul (i : Issue)
  /-- FDIV (R478): Floating-point divide, setting FBUSY. -/
  | fdiv (i : Issue)
  /-- FSQRT (R478): Floating-point square root, setting FBUSY. -/
  | fsqrt (i : Issue)
  /-- FNEG (R478): Floating-point negate. -/
  | fneg (i : Issue)
  /-- FABS (R478): Floating-point absolute value. -/
  | fabs (i : Issue)
  /-- FMOV (R478): Floating-point copy. -/
  | fmov (i : Issue)
  /-- FCMP (R478): Floating-point compare into flags. -/
  | fcmp (i : Issue)
  /-- FITOF (R479): Signed integer to floating point. -/
  | fitof (i : Issue)
  /-- FUTOF (R479): Unsigned integer to floating point. -/
  | futof (i : Issue)
  /-- FFTOI (R479): Floating point to limited signed integer. -/
  | fftoi (i : Issue)
  /-- FQTOF (R479): Q1.23 fraction to floating point. -/
  | fqtof (i : Issue)
  /-- FFTOQ (R479): Floating point to limited Q1.23 fraction. -/
  | fftoq (i : Issue)
  /-- FATOF (R479): Accumulator to floating point. -/
  | fatof (i : Issue)
  /-- FFTOA (R479): Floating point to limited accumulator. -/
  | fftoa (i : Issue)
  /-- FLD (R480): Loads an F register from three words. -/
  | fld (i : Issue)
  /-- FST (R480): Stores an F register to three words. -/
  | fst (i : Issue)
  /-- PENDING_RESULT_WRITE (R435): An exposed MUL or floating-point result lands after its latency, and an enabled FPU trap is taken. -/
  | pendingResultWrite (core dest : Nat)
  /-- INTERRUPT_ENTRY (R442): An enabled pending interrupt is taken at an instruction boundary. -/
  | interruptEntry (core at_ : Nat)
  /-- USER_ENTRY (R446): After its migrated tasks core 3 enters USER mode at UserEntry. -/
  | userEntry (at_ : Nat)
  /-- NCO_COMMIT (R426): A write of COMMIT to word 4 of an NCO block submits the slot's NCO update. -/
  | ncoCommit (core at_ n : Nat) (w : Word)
  /-- MAILBOX_SEND (R425): A write of MAILBOX_SEND raises MAILBOX on the named cores. -/
  | mailboxSend (core at_ : Nat) (w : Word)
  /-- TICK_NOW (R425): A read of the first TICK_NOW word latches the other two. -/
  | tickNow (core at_ : Nat)
  /-- DAU_GO (R449): A write of 1 to DAU_GO submits the core's dictionary request. -/
  | dauGo (core at_ : Nat) (w : Word)
  /-- DAU_DONE (R449): A core's dictionary request completes, clears BUSY and raises DAU_DONE. -/
  | dauDone (core at_ aon : Nat)
  /-- RING_HEAD (R450): A write of RING_HEAD hands descriptors to the device. -/
  | ringHead (core at_ ring : Nat) (w : Word)
  /-- DESCRIPTOR_COMPLETE (R450): A ring descriptor completes, clears OWN and may raise RING. -/
  | descriptorComplete (core ring at_ : Nat)
  /-- SELF_CHECK (R451): Once per second each core runs its known-answer check. -/
  | selfCheck (failed : List Nat) (at_ : Nat)
  /-- FIELD_ON (R501): ReaderCommand FIELD_ON switches the field on at a position. -/
  | fieldOn (c : Ctx) (b : List Nat)
  /-- FIELD_OFF (R501): ReaderCommand FIELD_OFF switches the field off, starting any deferred calibration. -/
  | fieldOff (c : Ctx) (b : List Nat)
  /-- TRANSCEIVE (R501): ReaderCommand TRANSCEIVE sends a frame and receives the response. -/
  | transceive (c : Ctx) (b : List Nat)
  /-- INVENTORY (R505): ReaderCommand INVENTORY finds every tag of one family at one position. -/
  | inventory (c : Ctx) (b : List Nat)
  /-- CALIBRATE (R503): A write of 1 to SynthCalibrate triggers a synthesiser calibration. -/
  | calibrate (c : Ctx)
  /-- SYNTH_LOCK (R488): The carrier synthesiser reports lock and becomes READY. -/
  | synthLock (at_ : Nat)
  /-- SYNTH_LOCK_TIMEOUT (R488): No lock within 200 µs sends the synthesiser to CALIBRATING. -/
  | synthLockTimeout (at_ : Nat)
  /-- SYNTH_CAL_DONE (R489): A synthesiser calibration ends after 500 µs, or faults after three failures. -/
  | synthCalDone (at_ : Nat)
  /-- SYNTH_BUSY (R490): A field-on held 1 ms without READY ends with SYNTH_BUSY. -/
  | synthBusy (at_ : Nat)
  /-- FIELD_TIMEOUT (R492): FieldTimeout after field-on the software timeout switches the field off. -/
  | fieldTimeout (at_ : Nat)
  /-- HARDWARE_FIELD_TIMEOUT (R412): FieldTimeoutCeiling after field-on the hardware switches the field off. -/
  | hardwareFieldTimeout (at_ : Nat)
  /-- DUTY_LIMIT (R492): Field-on time in the last 1,000 ms reaches DutyCeiling and the field goes off. -/
  | dutyLimit (at_ : Nat)
  /-- RESPONSE_TIMEOUT (R496): A response window closes without an SOF and the attempt has no response. -/
  | responseTimeout (bins : List (Nat × Int)) (at_ : Nat)
  /-- READER_FRAME_RECEIVED (R499): A received frame ends and is reported with its link quality and amplitude. -/
  | readerFrameReceived (f : RxFrame) (bins : List (Nat × Int)) (at_ : Nat)
  /-- SECOND_SOF (R500): A second SOF during decoding leads to NOISE_SOF, COLLISION or nothing. -/
  | secondSof (f : RxFrame) (amp : Nat) (bins : List (Nat × Int)) (at_ : Nat)
  /-- CARD_DETECT_BURST (R506): Every CdInterval the reader sends a detection burst and compares the amplitude. -/
  | cardDetectBurst (amp at_ : Nat)
  /-- DELAY_SCAN (R508): At start or every ScanInterval the reader reads delay tags and posts their records. -/
  | delayScan (tags : List (List Nat × Option (List Nat))) (last : JobEnd) (us at_ : Nat)
  /-- SCAN_COMMAND (R508): A write of ScanCommand starts a delay scan of one item or all. -/
  | scanCommand (c : Ctx) (v : Nat)
  /-- START (R520): TimerCommand START arms a timer. -/
  | timerStart (c : Ctx) (n : Nat)
  /-- START_LATE_OK (R520): TimerCommand START_LATE_OK arms a timer that starts at once if StartAt has passed. -/
  | timerStartLateOk (c : Ctx) (n : Nat)
  /-- STOP (R519): TimerCommand STOP stops a timer after the next grid step. -/
  | timerStop (c : Ctx) (n : Nat)
  /-- GROUP_START (R523): A write of GroupStart starts all named timers together or none. -/
  | groupStart (c : Ctx) (mask : Nat)
  /-- COUNTING_BEGINS (R520): An ARMED timer reaches its start point and begins counting. -/
  | countingBegins (n at_ : Nat)
  /-- UNDERFLOW (R517): A timer's count underflows and it reloads or ends in DONE. -/
  | underflow (n at_ : Nat)
  /-- COMPARE_MATCH (R518): A timer's count moves into a compare value. -/
  | compareMatch (n w at_ : Nat)
  /-- CTO_PULSE_END (R524): PulseSteps after an underflow a PULSE output becomes inactive. -/
  | ctoPulseEnd (o at_ : Nat)
  /-- CAPTURE (R525): A selected edge at CAPi is stamped in Pond time and queued. -/
  | capture (i : Nat) (rising : Bool) (at_ : Nat)
  /-- CAPTURE_READ (R526): A read of CaptureRead or window word +0 removes the oldest stamp. -/
  | captureRead (c : Ctx) (i : Nat)
  /-- POWER_MODE_SLEEP (R536): A write of SLEEP to PowerMode arms an entry attempt. -/
  | powerModeSleep (c : Ctx)
  /-- POWER_MODE_DEEP (R536): A write of DEEP to PowerMode arms an entry attempt. -/
  | powerModeDeep (c : Ctx)
  /-- POWER_MODE_OFF (R536): A write of OFF to PowerMode arms an entry attempt. -/
  | powerModeOff (c : Ctx)
  /-- POWER_MODE_OASIS (R548): A write of OASIS to PowerMode arms an entry into the OASIS schedule. -/
  | powerModeOasis (c : Ctx)
  /-- POWER_MODE_NONE (R536): A write of NONE disarms an attempt that has not begun. -/
  | powerModeNone (c : Ctx)
  /-- ENTRY_ATTEMPT (R538): Once the reply has left and every core waits, the blocks vote and stop in turn. -/
  | entryAttempt (e : EntryEnd) (at_ aon : Nat)
  /-- WAKE (R541): A wake source acts in SLEEP and the device returns to RUN. -/
  | wake (cause port at_ aon : Nat)
  /-- REGULATOR_TIMEOUT (R545): The core regulator does not report ready within 2 ms and the device returns to OFF. -/
  | regulatorTimeout (aon : Nat)
  /-- WAKE_RETRY (R545): 1 s after a failed wake the device tries again. -/
  | wakeRetry (i : StartIn) (aon : Nat)
  /-- REF_LATE (R546): The reference is not valid 50 ms after the regulator is ready and the device runs on the internal oscillator. -/
  | refLate
  /-- OASIS_BURST (R548): At each OasisPeriod the device runs a RUN burst at P0. -/
  | oasisBurst (at_ : Nat)
  /-- OASIS_BURST_END (R548): OasisBurst ends and the device re-enters SLEEP or DEEP through the votes. -/
  | oasisBurstEnd (e : EntryEnd) (at_ aon : Nat)
  /-- LEVEL_FAIL (R551): A level raise not reported in range within 2 ms is abandoned. -/
  | levelFail (at_ : Nat)
  /-- POWER_UP (R569): Supplies enter range or a wake from DEEP or OFF starts the device from scratch. -/
  | powerUp (wake : Nat) (i : StartIn) (aon : Nat)
  /-- RST_N (R558): RST_N is asserted and released, giving a warm or cold reset by its length. -/
  | rstN (ns : Nat) (i : StartIn) (aon : Nat)
  /-- WARM (R559): ResetCommand WARM requests a warm reset once the reply has left. -/
  | resetWarm (c : Ctx)
  /-- COLD (R559): ResetCommand COLD requests a cold reset once the reply has left. -/
  | resetCold (c : Ctx)
  /-- UPDATE (R559): ResetCommand UPDATE requests a warm reset that stays in BOOTING for a new image. -/
  | resetUpdate (c : Ctx)
  /-- WATCHDOG (R558): A firmware core halted in WatchdogTicks consecutive ticks causes a warm reset. -/
  | watchdog
  /-- WARM_RESET (R560): A warm reset restarts the cores and their blocks and keeps the timing island. -/
  | warmReset (i : StartIn) (at_ : Nat)
  /-- COLD_RESET (R560): A cold reset restarts the timing island and Pond time begins again in UNSET. -/
  | coldReset (i : StartIn)
  /-- SUPPLY_DROP (R602): A supply leaves its range and the device acts as its case requires. -/
  | supplyDrop (mask at_ : Nat)
  /-- FIRMWARE_START (R569): At the first tick edge after load and self-tests the firmware starts. -/
  | firmwareStart
  /-- BOOT_WAIT_EXPIRY (R562): A HOST or PEER boot source delivers no verified image within BootWait. -/
  | bootWaitExpiry
  /-- IMAGE_WRITE (R565): A write of ImageWrite stages image bytes in shared memory. -/
  | imageWrite (c : Ctx) (b : List Nat)
  /-- BEGIN (R565): ImageCommand BEGIN empties the staging area. -/
  | imageBegin (c : Ctx)
  /-- RUN (R565): ImageCommand RUN verifies and loads the staged image. -/
  | imageRun (c : Ctx)
  /-- STORE_AND_RUN (R565): ImageCommand STORE_AND_RUN verifies the image, writes it to flash and boots it. -/
  | imageStoreAndRun (c : Ctx)
  /-- IMAGE_VERIFY_DONE (R416): Image verification completes and the image loads or is rejected. -/
  | imageVerifyDone (flash : List Nat)
  /-- COMMISSION (R568): StateCommand COMMISSION moves OPERATING to COMMISSIONING at the next tick edge. -/
  | commission (c : Ctx)
  /-- OPERATE (R568): StateCommand OPERATE moves COMMISSIONING to OPERATING at the next tick edge. -/
  | operate (c : Ctx)
  /-- SILT_RECORD_READ (R583): A READ of a cursor's Record returns a log record and advances Cursor. -/
  | siltRecordRead (c : Ctx) (r : Nat)
  /-- GROUP_REFERENCE_VALID (R299): The LNCK reference of a port group becomes valid again, so DOWN ports of that group that detect signal can enter TRAINING. -/
  | groupReferenceValid (k : Nat)
  /-- SUPPLY_RETURN (R594): A supply that left its range returns, its SupplyStatus bit sets and, for an I/O bank, input thresholds are set and outputs resume. -/
  | supplyReturn (mask banks : Nat)
  /-- PLL_LOCK (R569): At a start, once the reference is valid the cleaning PLL locks, Pond time is 0 and tick 0 begins. -/
  | pllLock
  /-- P_OBJECTS_LOADED (R569): The P objects finish loading from MRAM, no later than 5 ms after PLL lock, and the outputs leave their reset state under R109. -/
  | pObjectsLoaded (at_ : Nat)
  /-- TIMER_PIN_EDGE (R516): A filtered edge on the capture input chosen by a pin-clocked timer makes that timer take a step at the next grid step. -/
  | timerPinEdge (i : Nat) (rising : Bool) (at_ : Nat)
  /-- KEEPER_HELD_TIMEOUT (R347): A keeper has not answered HELD within 10 ms and the submission is rejected with TIMEOUT, leaving nothing journalled. -/
  | keeperHeldTimeout (at_ : Nat)
  /-- SUBSCRIPTION_EXPIRY (R392): A symbol subscription not renewed within 10 s lapses, and the provider stops sending blocks to that subscriber. -/
  | subscriptionExpiry (at_ : Nat)
  /-- SIGHTING_EXPIRY (R160): A received peer sighting passes MEAS_AT + 10 s and stops serving as a peer sighting, changing SightingsHeld. -/
  | sightingExpiry (at_ : Nat)
  /-- EPOCH_STREAM_APPEND (R263): At t_e + 300 ms the observations of an epoch that is not a solution epoch are appended to MeasStream. -/
  | epochStreamAppend
  /-- FLASH_WRITE_COMPLETE (R565): The flash write of STORE_AND_RUN ends; on read-back success the slot is made active and booted, otherwise ImageResult is INTERNAL_FAULT. -/
  | flashWriteComplete (ok : Bool)
  /-- ETHERNET_FRAME_RECEIVED (R319): An ETHERNET port receives a frame that is neither a PTP message nor for the host, such as PAUSE, and counts it in FramesRx and discards it. -/
  | ethernetFrameReceived (n : Nat)
  /-- TRST_N (R558): TRST_N is asserted and resets the test access port only. -/
  | trstN (asserted : Bool)
  /-- TAP_CLOCK (R596): A TCK edge advances the IEEE 1149.1 test access port and its boundary-scan chain. -/
  | tapClock (tms tdi : Bool)
  /-- UNDEFINED_INSTRUCTION (R462): A core decodes an instruction word with an unassigned major opcode, such as 0xFF_FFFF, and takes the UNDEF trap. -/
  | undefinedInstruction (i : Issue)
  deriving DecidableEq, Repr

end Sys2Proof
end

