-- ==== Sys2Proof/Machine/Names.lean ====
section
/-! DEFINITION. Keys of the object dictionary: one name per subindex of the tables of spec/ (R12, R41, R42).
A key is the index times 256 plus the subindex; a name of a repeated object takes the number of the copy. -/
namespace Sys2Proof.Machine.K

/-! 0x1010 DeviceState: R54 of 02_object_dictionary.md. -/
def deviceState : Nat := 0x101000

/-! 0x1020 DeviceControl: R568 of 18_reset_and_boot.md. -/
def deviceControl_StartState : Nat := 0x102001
def deviceControl_StateCommand : Nat := 0x102002
def deviceControl_ResetCommand : Nat := 0x102003
def deviceControl_ResetCause : Nat := 0x102004
def deviceControl_WatchdogTicks : Nat := 0x102005
def deviceControl_ResetFlags : Nat := 0x102006
def deviceControl_WatchdogResets : Nat := 0x102007
def deviceControl_BootFallbacks : Nat := 0x102008
def deviceControl_SafeEntries : Nat := 0x102009

/-! 0x1030 HostAccess: R80 of 02_object_dictionary.md. -/
def hostAccess_Reserved01 : Nat := 0x103001
def hostAccess_HostPortNumber : Nat := 0x103002
def hostAccess_HostEtherType : Nat := 0x103003
def hostAccess_IrqOnReply : Nat := 0x103004
def hostAccess_DuplicateWindow : Nat := 0x103005

/-! 0x1040 HostAccessCounters: R80 of 02_object_dictionary.md. -/
def hostAccessCounters_SpiCrcErrors : Nat := 0x104001
def hostAccessCounters_SpiFramingErrors : Nat := 0x104002
def hostAccessCounters_SpiQueueFull : Nat := 0x104003
def hostAccessCounters_HostFramesBad : Nat := 0x104004
def hostAccessCounters_HostDuplicates : Nat := 0x104005
def hostAccessCounters_NotInStateCount : Nat := 0x104006
def hostAccessCounters_RequestsServed : Nat := 0x104007

/-! 0x1060 + g PinGroup: R593 of 20_balls_and_package.md. -/
def pinGroup_Slew (n : Nat) : Nat := (0x1060 + n) * 256 + 0x01
def pinGroup_FilterTime (n : Nat) : Nat := (0x1060 + n) * 256 + 0x02
def pinGroup_Pull (n : Nat) : Nat := (0x1060 + n) * 256 + 0x03

/-! 0x1070 IoBanks: R594 of 20_balls_and_package.md. -/
def ioBanks : Nat := 0x107000

/-! 0x2000 PondTime: R93 of 03_pond_time_and_outputs.md. -/
def pondTime_PondNow : Nat := 0x200001
def pondTime_TickNumber : Nat := 0x200002
def pondTime_ErrorEstimate : Nat := 0x200003
def pondTime_TimeSource : Nat := 0x200004
def pondTime_LastStepAt : Nat := 0x200005
def pondTime_ReseedCount : Nat := 0x200006
def pondTime_Recovering : Nat := 0x200007

/-! 0x2001 TimingState: R83 of 03_pond_time_and_outputs.md. -/
def timingState : Nat := 0x200100

/-! 0x2002 Steering: R87 of 03_pond_time_and_outputs.md. -/
def steering_SteeringSource : Nat := 0x200201
def steering_ReferenceTimescale : Nat := 0x200202
def steering_JumpThreshold : Nat := 0x200203
def steering_LockThreshold : Nat := 0x200204
def steering_LockDwell : Nat := 0x200205
def steering_LossDelay : Nat := 0x200206
def steering_LoopBandwidth : Nat := 0x200207
def steering_LoopDamping : Nat := 0x200208
def steering_HostRate : Nat := 0x200209
def steering_RateApplied : Nat := 0x20020A
def steering_FreqCorrection : Nat := 0x20020B
def steering_PhaseSteer : Nat := 0x20020C
def steering_SteeringMode : Nat := 0x20020D
def steering_TuneGain : Nat := 0x20020E
def steering_TuneCentre : Nat := 0x20020F
def steering_TuneCode : Nat := 0x200210

/-! 0x2003 Seeding: R93 of 03_pond_time_and_outputs.md. -/
def seeding_PondSeed : Nat := 0x200301
def seeding_ReseedRequest : Nat := 0x200302
def seeding_ReseedResult : Nat := 0x200303

/-! 0x2004 TimingEvents: R95 of 03_pond_time_and_outputs.md. -/
def timingEvents_TimingFlags : Nat := 0x200401
def timingEvents_StepEvents : Nat := 0x200402
def timingEvents_JumpRefusals : Nat := 0x200403
def timingEvents_SourceLosses : Nat := 0x200404
def timingEvents_RateLimitedTicks : Nat := 0x200405
def timingEvents_TuneLimits : Nat := 0x200406
def timingEvents_LastRefusedOffset : Nat := 0x200407

/-! 0x2005 Holdover: R94 of 03_pond_time_and_outputs.md. -/
def holdover_HoldoverSeconds : Nat := 0x200501
def holdover_EntryError : Nat := 0x200502
def holdover_ModelY : Nat := 0x200503
def holdover_ModelD : Nat := 0x200504
def holdover_ModelW : Nat := 0x200505
def holdover_ErrorAlertLimit : Nat := 0x200506

/-! 0x2006 Reference: R82 of 03_pond_time_and_outputs.md. -/
def reference_RefFrequency : Nat := 0x200601
def reference_RefInputType : Nat := 0x200602
def reference_RefStatus : Nat := 0x200603
def reference_ReferenceFault : Nat := 0x200604
def reference_ReferenceFaultCount : Nat := 0x200605

/-! 0x2010 + p TimePulse: R99 of 03_pond_time_and_outputs.md. -/
def timePulse_Enable (n : Nat) : Nat := (0x2010 + n) * 256 + 0x01
def timePulse_Mode (n : Nat) : Nat := (0x2010 + n) * 256 + 0x02
def timePulse_Period (n : Nat) : Nat := (0x2010 + n) * 256 + 0x03
def timePulse_Width (n : Nat) : Nat := (0x2010 + n) * 256 + 0x04
def timePulse_Polarity (n : Nat) : Nat := (0x2010 + n) * 256 + 0x05
def timePulse_Offset (n : Nat) : Nat := (0x2010 + n) * 256 + 0x06
def timePulse_InternalDelay (n : Nat) : Nat := (0x2010 + n) * 256 + 0x07
def timePulse_EdgePlacement (n : Nat) : Nat := (0x2010 + n) * 256 + 0x08
def timePulse_NextEdge (n : Nat) : Nat := (0x2010 + n) * 256 + 0x09
def timePulse_PulseCount (n : Nat) : Nat := (0x2010 + n) * 256 + 0x0A
def timePulse_PulseFlags (n : Nat) : Nat := (0x2010 + n) * 256 + 0x0B
def timePulse_ShortIntervals (n : Nat) : Nat := (0x2010 + n) * 256 + 0x0C

/-! 0x2020 + c ClockOut: R102 of 03_pond_time_and_outputs.md. -/
def clockOut_Enable (n : Nat) : Nat := (0x2020 + n) * 256 + 0x01
def clockOut_FreqNum (n : Nat) : Nat := (0x2020 + n) * 256 + 0x02
def clockOut_FreqDen (n : Nat) : Nat := (0x2020 + n) * 256 + 0x03
def clockOut_Offset (n : Nat) : Nat := (0x2020 + n) * 256 + 0x04
def clockOut_Format (n : Nat) : Nat := (0x2020 + n) * 256 + 0x05
def clockOut_InternalDelay (n : Nat) : Nat := (0x2020 + n) * 256 + 0x06
def clockOut_PhaseApplied (n : Nat) : Nat := (0x2020 + n) * 256 + 0x07
def clockOut_ClockState (n : Nat) : Nat := (0x2020 + n) * 256 + 0x08
def clockOut_PhaseResidual (n : Nat) : Nat := (0x2020 + n) * 256 + 0x09
def clockOut_ClockFlags (n : Nat) : Nat := (0x2020 + n) * 256 + 0x0A
def clockOut_Realignments (n : Nat) : Nat := (0x2020 + n) * 256 + 0x0B
def clockOut_ResidualHighCount (n : Nat) : Nat := (0x2020 + n) * 256 + 0x0C

/-! 0x2030 + k Delay: R96 of 03_pond_time_and_outputs.md. -/
def delay_Configured (n : Nat) : Nat := (0x2030 + n) * 256 + 0x01
def delay_TagDelay (n : Nat) : Nat := (0x2030 + n) * 256 + 0x02
def delay_TagUncertainty (n : Nat) : Nat := (0x2030 + n) * 256 + 0x03
def delay_TagId (n : Nat) : Nat := (0x2030 + n) * 256 + 0x04
def delay_Source (n : Nat) : Nat := (0x2030 + n) * 256 + 0x05
def delay_TagPosition (n : Nat) : Nat := (0x2030 + n) * 256 + 0x06
def delay_InForce (n : Nat) : Nat := (0x2030 + n) * 256 + 0x07
def delay_Applied (n : Nat) : Nat := (0x2030 + n) * 256 + 0x08
def delay_DelayState (n : Nat) : Nat := (0x2030 + n) * 256 + 0x09
def delay_DelaySlewRate (n : Nat) : Nat := (0x2030 + n) * 256 + 0x0A
def delay_DelayFlags (n : Nat) : Nat := (0x2030 + n) * 256 + 0x0B
def delay_TagReads (n : Nat) : Nat := (0x2030 + n) * 256 + 0x0C
def delay_TagFailures (n : Nat) : Nat := (0x2030 + n) * 256 + 0x0D

/-! 0x2040 TimeOfDay: R105 of 03_pond_time_and_outputs.md. -/
def timeOfDay_TodEnable : Nat := 0x204001
def timeOfDay_BaudRate : Nat := 0x204002
def timeOfDay_TodLatency : Nat := 0x204003
def timeOfDay_TalkerId : Nat := 0x204004
def timeOfDay_MessagesSent : Nat := 0x204005
def timeOfDay_TodFlags : Nat := 0x204006
def timeOfDay_UtcUnknownCount : Nat := 0x204007

/-! 0x2041 IrigB: R108 of 03_pond_time_and_outputs.md. -/
def irigB_IrigFormat : Nat := 0x204101
def irigB_IrigTimescale : Nat := 0x204102
def irigB_FramesSent : Nat := 0x204103

/-! 0x3000 + a AntennaInput: R120 of 04_gnss_receive_chains.md. -/
def antennaInput_BiasMode (n : Nat) : Nat := (0x3000 + n) * 256 + 0x01
def antennaInput_BiasVoltage (n : Nat) : Nat := (0x3000 + n) * 256 + 0x02
def antennaInput_BiasCurrent (n : Nat) : Nat := (0x3000 + n) * 256 + 0x03
def antennaInput_OpenThreshold (n : Nat) : Nat := (0x3000 + n) * 256 + 0x04
def antennaInput_CurrentLimit (n : Nat) : Nat := (0x3000 + n) * 256 + 0x05
def antennaInput_AntennaState (n : Nat) : Nat := (0x3000 + n) * 256 + 0x06
def antennaInput_AntennaFlags (n : Nat) : Nat := (0x3000 + n) * 256 + 0x07
def antennaInput_OpenEvents (n : Nat) : Nat := (0x3000 + n) * 256 + 0x08
def antennaInput_ShortEvents (n : Nat) : Nat := (0x3000 + n) * 256 + 0x09
def antennaInput_SupplyLowEvents (n : Nat) : Nat := (0x3000 + n) * 256 + 0x0A

/-! 0x3010 + c Chain: R122 of 04_gnss_receive_chains.md. -/
def chain_ChainEnable (n : Nat) : Nat := (0x3010 + n) * 256 + 0x01
def chain_ChainState (n : Nat) : Nat := (0x3010 + n) * 256 + 0x02
def chain_LoFrequency (n : Nat) : Nat := (0x3010 + n) * 256 + 0x03
def chain_AgcTarget (n : Nat) : Nat := (0x3010 + n) * 256 + 0x04
def chain_AgcTimeConstant (n : Nat) : Nat := (0x3010 + n) * 256 + 0x05
def chain_AgcGain (n : Nat) : Nat := (0x3010 + n) * 256 + 0x06
def chain_AgcBaseline (n : Nat) : Nat := (0x3010 + n) * 256 + 0x07
def chain_InterferenceMargin (n : Nat) : Nat := (0x3010 + n) * 256 + 0x08
def chain_FrontEndStatus (n : Nat) : Nat := (0x3010 + n) * 256 + 0x09
def chain_ChainFlags (n : Nat) : Nat := (0x3010 + n) * 256 + 0x0A
def chain_LoUnlockEvents (n : Nat) : Nat := (0x3010 + n) * 256 + 0x0B
def chain_AgcLimitEvents (n : Nat) : Nat := (0x3010 + n) * 256 + 0x0C
def chain_InterferenceEvents (n : Nat) : Nat := (0x3010 + n) * 256 + 0x0D
def chain_CalFailures (n : Nat) : Nat := (0x3010 + n) * 256 + 0x0E
def chain_CalTemperature (n : Nat) : Nat := (0x3010 + n) * 256 + 0x0F
def chain_ImageRejection (n : Nat) : Nat := (0x3010 + n) * 256 + 0x10

/-! 0x3020 + c FrontEnd: R127 of 04_gnss_receive_chains.md. -/
def frontEnd_BlankEnable (n : Nat) : Nat := (0x3020 + n) * 256 + 0x01
def frontEnd_BlankThreshold (n : Nat) : Nat := (0x3020 + n) * 256 + 0x02
def frontEnd_BlankExtend (n : Nat) : Nat := (0x3020 + n) * 256 + 0x03
def frontEnd_BlankRatio (n : Nat) : Nat := (0x3020 + n) * 256 + 0x04
def frontEnd_BlankHighLimit (n : Nat) : Nat := (0x3020 + n) * 256 + 0x05
def frontEnd_BlankFlags (n : Nat) : Nat := (0x3020 + n) * 256 + 0x06
def frontEnd_BlankHighEvents (n : Nat) : Nat := (0x3020 + n) * 256 + 0x07

/-! 0x3030 + 4c + k Notch: R128 of 04_gnss_receive_chains.md. -/
def notch_NotchMode (n : Nat) : Nat := (0x3030 + n) * 256 + 0x01
def notch_FixedFrequency (n : Nat) : Nat := (0x3030 + n) * 256 + 0x02
def notch_NotchWidth (n : Nat) : Nat := (0x3030 + n) * 256 + 0x03
def notch_DetectMargin (n : Nat) : Nat := (0x3030 + n) * 256 + 0x04
def notch_PresentFrequency (n : Nat) : Nat := (0x3030 + n) * 256 + 0x05
def notch_NotchState (n : Nat) : Nat := (0x3030 + n) * 256 + 0x06
def notch_EngageCount (n : Nat) : Nat := (0x3030 + n) * 256 + 0x07

/-! 0x3040 Calibration: R136 of 04_gnss_receive_chains.md. -/
def calibration_CalRequest : Nat := 0x304001
def calibration_CalAuto : Nat := 0x304002
def calibration_DieTemperature : Nat := 0x304003
def calibration_CalQueue : Nat := 0x304004
def calibration_CalResult : Nat := 0x304005
def calibration_CalFlags : Nat := 0x304006
def calibration_CalDueEvents : Nat := 0x304007

/-! 0x3050 SpectrumMonitor: R137 of 04_gnss_receive_chains.md. -/
def spectrumMonitor_SpecEnable : Nat := 0x305001
def spectrumMonitor_SpecChain : Nat := 0x305002
def spectrumMonitor_SpecAverage : Nat := 0x305003
def spectrumMonitor_SpecInterval : Nat := 0x305004
def spectrumMonitor_SpecPoint : Nat := 0x305005
def spectrumMonitor_SpecFramesDiscarded : Nat := 0x305006

/-! 0x3051 SpectrumStream: R137 of 04_gnss_receive_chains.md. -/
def spectrumStream_StreamData : Nat := 0x305101
def spectrumStream_WordsAvailable : Nat := 0x305102
def spectrumStream_Overflow : Nat := 0x305103
def spectrumStream_DroppedCount : Nat := 0x305104

/-! 0x3060 AntennaRedundancy: R140 of 04_gnss_receive_chains.md. -/
def antennaRedundancy_RedundancyMode : Nat := 0x306001
def antennaRedundancy_Primary : Nat := 0x306002
def antennaRedundancy_Revertive : Nat := 0x306003
def antennaRedundancy_RevertDelay : Nat := 0x306004
def antennaRedundancy_NoSignalTime : Nat := 0x306005
def antennaRedundancy_ActiveAntenna : Nat := 0x306006
def antennaRedundancy_RedundancyFlags : Nat := 0x306007
def antennaRedundancy_SwitchCount : Nat := 0x306008

/-! 0x3070 + s Subband: R119 of 04_gnss_receive_chains.md. -/
def subband_CentreFrequency (n : Nat) : Nat := (0x3070 + n) * 256 + 0x01
def subband_SampleRate (n : Nat) : Nat := (0x3070 + n) * 256 + 0x02
def subband_Passband (n : Nat) : Nat := (0x3070 + n) * 256 + 0x03
def subband_GroupDelay (n : Nat) : Nat := (0x3070 + n) * 256 + 0x04
def subband_GroupDelayTempco (n : Nat) : Nat := (0x3070 + n) * 256 + 0x05

/-! 0x3080 Erg: R176 of 05_signals_and_search.md. -/
def erg_ErgEnable : Nat := 0x308001
def erg_LanesEnabled : Nat := 0x308002
def erg_AutoList : Nat := 0x308003
def erg_AutoElevationMask : Nat := 0x308004
def erg_OscUncertainty : Nat := 0x308005
def erg_DetectPfa : Nat := 0x308006
def erg_HandoffHold : Nat := 0x308007
def erg_CrossCorrMargin : Nat := 0x308008
def erg_ErgUtilisation : Nat := 0x308009
def erg_SearchesRun : Nat := 0x30800A
def erg_HandoffsDone : Nat := 0x30800B
def erg_ErgFlags : Nat := 0x30800C
def erg_NoSlotCount : Nat := 0x30800D
def erg_CrossCorrCount : Nat := 0x30800E
def erg_VerifyFailCount : Nat := 0x30800F
def erg_AbortCount : Nat := 0x308010
def erg_WaitingResults : Nat := 0x308011

/-! 0x3081 ErgResultStream: R178 of 05_signals_and_search.md. -/
def ergResultStream_StreamData : Nat := 0x308101
def ergResultStream_WordsAvailable : Nat := 0x308102
def ergResultStream_Overflow : Nat := 0x308103
def ergResultStream_DroppedCount : Nat := 0x308104

/-! 0x3082 SignalEnable: R154 of 05_signals_and_search.md. -/
def signalEnable : Nat := 0x308200

/-! 0x3090 + l ErgLane: R177 of 05_signals_and_search.md. -/
def ergLane_LaneState (n : Nat) : Nat := (0x3090 + n) * 256 + 0x01
def ergLane_LaneEntry (n : Nat) : Nat := (0x3090 + n) * 256 + 0x02
def ergLane_LaneAntenna (n : Nat) : Nat := (0x3090 + n) * 256 + 0x03
def ergLane_LanePass (n : Nat) : Nat := (0x3090 + n) * 256 + 0x04
def ergLane_LaneRuns (n : Nat) : Nat := (0x3090 + n) * 256 + 0x05

/-! 0x3100 + e SearchEntry: R161 of 05_signals_and_search.md. -/
def searchEntry_EntryEnable (n : Nat) : Nat := (0x3100 + n) * 256 + 0x01
def searchEntry_Owner (n : Nat) : Nat := (0x3100 + n) * 256 + 0x02
def searchEntry_SignalId (n : Nat) : Nat := (0x3100 + n) * 256 + 0x03
def searchEntry_Satellite (n : Nat) : Nat := (0x3100 + n) * 256 + 0x04
def searchEntry_Antenna (n : Nat) : Nat := (0x3100 + n) * 256 + 0x05
def searchEntry_Assist (n : Nat) : Nat := (0x3100 + n) * 256 + 0x06
def searchEntry_CoherentTime (n : Nat) : Nat := (0x3100 + n) * 256 + 0x07
def searchEntry_NonCoherent (n : Nat) : Nat := (0x3100 + n) * 256 + 0x08
def searchEntry_Priority (n : Nat) : Nat := (0x3100 + n) * 256 + 0x09
def searchEntry_Revisit (n : Nat) : Nat := (0x3100 + n) * 256 + 0x0A
def searchEntry_DopplerCentre (n : Nat) : Nat := (0x3100 + n) * 256 + 0x0B
def searchEntry_DopplerHalfWidth (n : Nat) : Nat := (0x3100 + n) * 256 + 0x0C
def searchEntry_CodeStart (n : Nat) : Nat := (0x3100 + n) * 256 + 0x0D
def searchEntry_CodeSpan (n : Nat) : Nat := (0x3100 + n) * 256 + 0x0E
def searchEntry_EntryState (n : Nat) : Nat := (0x3100 + n) * 256 + 0x0F
def searchEntry_LastResult (n : Nat) : Nat := (0x3100 + n) * 256 + 0x10
def searchEntry_LastPeakRatio (n : Nat) : Nat := (0x3100 + n) * 256 + 0x11
def searchEntry_AssistUsed (n : Nat) : Nat := (0x3100 + n) * 256 + 0x12
def searchEntry_EffectiveTc (n : Nat) : Nat := (0x3100 + n) * 256 + 0x13
def searchEntry_PassesLast (n : Nat) : Nat := (0x3100 + n) * 256 + 0x14
def searchEntry_LastStart (n : Nat) : Nat := (0x3100 + n) * 256 + 0x15
def searchEntry_RunCount (n : Nat) : Nat := (0x3100 + n) * 256 + 0x16

/-! 0x4000 Tracking: R215 of 06_tracking_slots.md. -/
def tracking_AidedEnable : Nat := 0x400001
def tracking_SymbolGap : Nat := 0x400002
def tracking_AidedLatencyLimit : Nat := 0x400003
def tracking_AidedExitDwell : Nat := 0x400004
def tracking_AidedLossDwell : Nat := 0x400005
def tracking_PullInDwell : Nat := 0x400006
def tracking_CoastSlipLimit : Nat := 0x400007
def tracking_MultipathLimit : Nat := 0x400008
def tracking_SlotsInUse : Nat := 0x400009
def tracking_SlotsAided : Nat := 0x40000A
def tracking_SlotsRetired : Nat := 0x40000B
def tracking_TrackingFlags : Nat := 0x40000C
def tracking_SlotRetiredEvents : Nat := 0x40000D
def tracking_SlotsReleasedCount : Nat := 0x40000E
def tracking_CrossCorrDrops : Nat := 0x40000F

/-! 0x4010 + v TrackingProfile: R216 of 06_tracking_slots.md. -/
def trackingProfile_DllDiscriminator (n : Nat) : Nat := (0x4010 + n) * 256 + 0x01
def trackingProfile_DllOrder (n : Nat) : Nat := (0x4010 + n) * 256 + 0x02
def trackingProfile_DllBandwidth (n : Nat) : Nat := (0x4010 + n) * 256 + 0x03
def trackingProfile_EarlyLateSpacing (n : Nat) : Nat := (0x4010 + n) * 256 + 0x04
def trackingProfile_VeryEarlyLateSpacing (n : Nat) : Nat := (0x4010 + n) * 256 + 0x05
def trackingProfile_MultipathTapOffset (n : Nat) : Nat := (0x4010 + n) * 256 + 0x06
def trackingProfile_PllDiscriminator (n : Nat) : Nat := (0x4010 + n) * 256 + 0x07
def trackingProfile_PllOrder (n : Nat) : Nat := (0x4010 + n) * 256 + 0x08
def trackingProfile_PllBandwidth (n : Nat) : Nat := (0x4010 + n) * 256 + 0x09
def trackingProfile_FllOrder (n : Nat) : Nat := (0x4010 + n) * 256 + 0x0A
def trackingProfile_FllBandwidth (n : Nat) : Nat := (0x4010 + n) * 256 + 0x0B
def trackingProfile_PullInFllTime (n : Nat) : Nat := (0x4010 + n) * 256 + 0x0C
def trackingProfile_CoherentTime (n : Nat) : Nat := (0x4010 + n) * 256 + 0x0D
def trackingProfile_PliThreshold (n : Nat) : Nat := (0x4010 + n) * 256 + 0x0E
def trackingProfile_StandaloneThreshold (n : Nat) : Nat := (0x4010 + n) * 256 + 0x0F
def trackingProfile_AidedCoherentTime (n : Nat) : Nat := (0x4010 + n) * 256 + 0x10
def trackingProfile_AidedPllBandwidth (n : Nat) : Nat := (0x4010 + n) * 256 + 0x11
def trackingProfile_AidedDllBandwidth (n : Nat) : Nat := (0x4010 + n) * 256 + 0x12
def trackingProfile_AidedExitThreshold (n : Nat) : Nat := (0x4010 + n) * 256 + 0x13
def trackingProfile_AidedLossThreshold (n : Nat) : Nat := (0x4010 + n) * 256 + 0x14
def trackingProfile_CnoWindow (n : Nat) : Nat := (0x4010 + n) * 256 + 0x15
def trackingProfile_LossDwell (n : Nat) : Nat := (0x4010 + n) * 256 + 0x16
def trackingProfile_LostHold (n : Nat) : Nat := (0x4010 + n) * 256 + 0x17
def trackingProfile_PullInTimeout (n : Nat) : Nat := (0x4010 + n) * 256 + 0x18
def trackingProfile_CycleSlipThreshold (n : Nat) : Nat := (0x4010 + n) * 256 + 0x19
def trackingProfile_AidedEnabled (n : Nat) : Nat := (0x4010 + n) * 256 + 0x1A

/-! 0x4200 + n Slot: R219 of 06_tracking_slots.md. -/
def slot_SlotState (n : Nat) : Nat := (0x4200 + n) * 256 + 0x01
def slot_SignalId (n : Nat) : Nat := (0x4200 + n) * 256 + 0x02
def slot_Satellite (n : Nat) : Nat := (0x4200 + n) * 256 + 0x03
def slot_Antenna (n : Nat) : Nat := (0x4200 + n) * 256 + 0x04
def slot_Priority (n : Nat) : Nat := (0x4200 + n) * 256 + 0x05
def slot_Components (n : Nat) : Nat := (0x4200 + n) * 256 + 0x06
def slot_CodePhase (n : Nat) : Nat := (0x4200 + n) * 256 + 0x07
def slot_SecondaryIndex (n : Nat) : Nat := (0x4200 + n) * 256 + 0x08
def slot_Doppler (n : Nat) : Nat := (0x4200 + n) * 256 + 0x09
def slot_CarrierPhase (n : Nat) : Nat := (0x4200 + n) * 256 + 0x0A
def slot_Cn0 (n : Nat) : Nat := (0x4200 + n) * 256 + 0x0B
def slot_Pli (n : Nat) : Nat := (0x4200 + n) * 256 + 0x0C
def slot_LockTime (n : Nat) : Nat := (0x4200 + n) * 256 + 0x0D
def slot_CoherentInUse (n : Nat) : Nat := (0x4200 + n) * 256 + 0x0E
def slot_MultipathMetric (n : Nat) : Nat := (0x4200 + n) * 256 + 0x0F
def slot_LockStatus (n : Nat) : Nat := (0x4200 + n) * 256 + 0x10
def slot_SlotFlags (n : Nat) : Nat := (0x4200 + n) * 256 + 0x11
def slot_CycleSlips (n : Nat) : Nat := (0x4200 + n) * 256 + 0x12
def slot_ParityFaults (n : Nat) : Nat := (0x4200 + n) * 256 + 0x13
def slot_BumpJumps (n : Nat) : Nat := (0x4200 + n) * 256 + 0x14
def slot_CoastTicks (n : Nat) : Nat := (0x4200 + n) * 256 + 0x15
def slot_AidedFallbacks (n : Nat) : Nat := (0x4200 + n) * 256 + 0x16
def slot_MultipathHighEvents (n : Nat) : Nat := (0x4200 + n) * 256 + 0x17
def slot_StateEntered (n : Nat) : Nat := (0x4200 + n) * 256 + 0x18
def slot_LastFreeCause (n : Nat) : Nat := (0x4200 + n) * 256 + 0x19
def slot_SlotCommand (n : Nat) : Nat := (0x4200 + n) * 256 + 0x1A

/-! 0x5000 NavData: R250 of 07_navigation_data.md. -/
def navData_DecodeEnable : Nat := 0x500001
def navData_SymbolPublish : Nat := 0x500002
def navData_PredictHorizon : Nat := 0x500003
def navData_EphemerisConfirm : Nat := 0x500004
def navData_MessagesDecoded : Nat := 0x500005
def navData_NavFlags : Nat := 0x500006
def navData_CrcFailures : Nat := 0x500007
def navData_Conflicts : Nat := 0x500008
def navData_EphRejected : Nat := 0x500009
def navData_DecoderOverflows : Nat := 0x50000A
def navData_SymbolMismatches : Nat := 0x50000B
def navData_StoreFullEvents : Nat := 0x50000C
def navData_FalsePreambles : Nat := 0x50000D
def navData_BlocksPublished : Nat := 0x50000E

/-! 0x5001 NavMessageStream: R240 of 07_navigation_data.md. -/
def navMessageStream_StreamData : Nat := 0x500101
def navMessageStream_WordsAvailable : Nat := 0x500102
def navMessageStream_Overflow : Nat := 0x500103
def navMessageStream_DroppedCount : Nat := 0x500104

/-! 0x5010 Measurement: R258 of 08_measurements_and_time_solution.md. -/
def measurement_MeasInterval : Nat := 0x501001
def measurement_ElevationMask : Nat := 0x501002
def measurement_Cn0Mask : Nat := 0x501003
def measurement_MinLockTime : Nat := 0x501004
def measurement_MeasStreamEnable : Nat := 0x501005
def measurement_EpochsFormed : Nat := 0x501006
def measurement_MeasFlags : Nat := 0x501007
def measurement_EpochsSkipped : Nat := 0x501008

/-! 0x5011 MeasStream: R263 of 08_measurements_and_time_solution.md. -/
def measStream_StreamData : Nat := 0x501101
def measStream_WordsAvailable : Nat := 0x501102
def measStream_Overflow : Nat := 0x501103
def measStream_DroppedCount : Nat := 0x501104

/-! 0x5020 TimeSolution: R278 of 08_measurements_and_time_solution.md. -/
def timeSolution_SolutionEnable : Nat := 0x502001
def timeSolution_SolutionMode : Nat := 0x502002
def timeSolution_MinDualCount : Nat := 0x502003
def timeSolution_FdePfa : Nat := 0x502004
def timeSolution_MaxExclusions : Nat := 0x502005
def timeSolution_StepSigmaLimit : Nat := 0x502006
def timeSolution_ReturnQualify : Nat := 0x502007
def timeSolution_ConfiguredDelayUncertainty : Nat := 0x502008
def timeSolution_SolutionState : Nat := 0x502009
def timeSolution_ClockOffset : Nat := 0x50200A
def timeSolution_ClockRate : Nat := 0x50200B
def timeSolution_SolutionSigma : Nat := 0x50200C
def timeSolution_Tdop : Nat := 0x50200D
def timeSolution_UsedCount : Nat := 0x50200E
def timeSolution_DualCount : Nat := 0x50200F
def timeSolution_ExcludedCount : Nat := 0x502010
def timeSolution_ResidualRms : Nat := 0x502011
def timeSolution_SolutionEpoch : Nat := 0x502012
def timeSolution_FitForStep : Nat := 0x502013
def timeSolution_SolutionFlags : Nat := 0x502014
def timeSolution_FdeExclusions : Nat := 0x502015
def timeSolution_FdeFailures : Nat := 0x502016
def timeSolution_SingleFallbacks : Nat := 0x502017
def timeSolution_SolutionsSkipped : Nat := 0x502018

/-! 0x5021 Trust: R280 of 08_measurements_and_time_solution.md. -/
def trust_TrustState : Nat := 0x502101
def trust_CrossCheckLimit : Nat := 0x502102
def trust_CrossCheckDwell : Nat := 0x502103
def trust_TrustRestore : Nat := 0x502104
def trust_LastDisagreement : Nat := 0x502105
def trust_TrustFlags : Nat := 0x502106
def trust_LakeDisagreements : Nat := 0x502107
def trust_HoldoverDisagreements : Nat := 0x502108
def trust_PositionDisagreements : Nat := 0x502109
def trust_ConflictExclusions : Nat := 0x50210A

/-! 0x5030 Utc: R288 of 08_measurements_and_time_solution.md. -/
def utc_LeapOffset : Nat := 0x503001
def utc_LeapSource : Nat := 0x503002
def utc_UtcValid : Nat := 0x503003
def utc_LeapPending : Nat := 0x503004
def utc_LeapAt : Nat := 0x503005
def utc_LeapConfirmedAt : Nat := 0x503006
def utc_HostLeap : Nat := 0x503007
def utc_UtcFraction : Nat := 0x503008
def utc_UtcFlags : Nat := 0x503009
def utc_LeapsApplied : Nat := 0x50300A
def utc_LeapConflicts : Nat := 0x50300B

/-! 0x5040 SystemOffsets: R278 of 08_measurements_and_time_solution.md. -/
def systemOffsets_OffsetMode : Nat := 0x504001
def systemOffsets_GpsOffset : Nat := 0x504002
def systemOffsets_GalileoOffset : Nat := 0x504003
def systemOffsets_BeidouOffset : Nat := 0x504004
def systemOffsets_GlonassOffset : Nat := 0x504005
def systemOffsets_QzssOffset : Nat := 0x504006
def systemOffsets_NavicOffset : Nat := 0x504007
def systemOffsets_OffsetSources : Nat := 0x504008

/-! 0x5050 + v SignalBias: R267 of 08_measurements_and_time_solution.md. -/
def signalBias_FactoryBias (n : Nat) : Nat := (0x5050 + n) * 256 + 0x01
def signalBias_UserBias (n : Nat) : Nat := (0x5050 + n) * 256 + 0x02
def signalBias_UseInSolution (n : Nat) : Nat := (0x5050 + n) * 256 + 0x03

/-! 0x5100 + a AntennaPosition: R271 of 08_measurements_and_time_solution.md. -/
def antennaPosition_PositionMode (n : Nat) : Nat := (0x5100 + n) * 256 + 0x01
def antennaPosition_PosX (n : Nat) : Nat := (0x5100 + n) * 256 + 0x02
def antennaPosition_PosY (n : Nat) : Nat := (0x5100 + n) * 256 + 0x03
def antennaPosition_PosZ (n : Nat) : Nat := (0x5100 + n) * 256 + 0x04
def antennaPosition_PosUncertainty (n : Nat) : Nat := (0x5100 + n) * 256 + 0x05
def antennaPosition_SurveyMinTime (n : Nat) : Nat := (0x5100 + n) * 256 + 0x06
def antennaPosition_SurveyLimit (n : Nat) : Nat := (0x5100 + n) * 256 + 0x07
def antennaPosition_SurveyMaxTime (n : Nat) : Nat := (0x5100 + n) * 256 + 0x08
def antennaPosition_SurveyState (n : Nat) : Nat := (0x5100 + n) * 256 + 0x09
def antennaPosition_SurveyElapsed (n : Nat) : Nat := (0x5100 + n) * 256 + 0x0A
def antennaPosition_SurveySigma (n : Nat) : Nat := (0x5100 + n) * 256 + 0x0B
def antennaPosition_PositionFlags (n : Nat) : Nat := (0x5100 + n) * 256 + 0x0C
def antennaPosition_SurveyRestarts (n : Nat) : Nat := (0x5100 + n) * 256 + 0x0D

/-! 0x5200 + n SlotNav: R251 of 07_navigation_data.md. -/
def slotNav_FrameState (n : Nat) : Nat := (0x5200 + n) * 256 + 0x01
def slotNav_Polarity (n : Nat) : Nat := (0x5200 + n) * 256 + 0x02
def slotNav_Candidates (n : Nat) : Nat := (0x5200 + n) * 256 + 0x03
def slotNav_LastMessageAt (n : Nat) : Nat := (0x5200 + n) * 256 + 0x04
def slotNav_FramesChecked (n : Nat) : Nat := (0x5200 + n) * 256 + 0x05
def slotNav_FramesFailed (n : Nat) : Nat := (0x5200 + n) * 256 + 0x06

/-! 0x5400 + e StoreEntry: R241 of 07_navigation_data.md. -/
def storeEntry_Kind (n : Nat) : Nat := (0x5400 + n) * 256 + 0x01
def storeEntry_SignalId (n : Nat) : Nat := (0x5400 + n) * 256 + 0x02
def storeEntry_Satellite (n : Nat) : Nat := (0x5400 + n) * 256 + 0x03
def storeEntry_EntryState (n : Nat) : Nat := (0x5400 + n) * 256 + 0x04
def storeEntry_Source (n : Nat) : Nat := (0x5400 + n) * 256 + 0x05
def storeEntry_IssueOfData (n : Nat) : Nat := (0x5400 + n) * 256 + 0x06
def storeEntry_Reference (n : Nat) : Nat := (0x5400 + n) * 256 + 0x07
def storeEntry_FitEnd (n : Nat) : Nat := (0x5400 + n) * 256 + 0x08
def storeEntry_Confirmations (n : Nat) : Nat := (0x5400 + n) * 256 + 0x09
def storeEntry_EntryFlags (n : Nat) : Nat := (0x5400 + n) * 256 + 0x0A
def storeEntry_ReceivedAt (n : Nat) : Nat := (0x5400 + n) * 256 + 0x0B
def storeEntry_Content (n : Nat) : Nat := (0x5400 + n) * 256 + 0x0C

/-! 0x6000 Lake: R393 of 11_lake_time.md. -/
def lake_LakeEnable : Nat := 0x600001
def lake_LakeValid : Nat := 0x600002
def lake_Generation : Nat := 0x600003
def lake_LakeAt : Nat := 0x600004
def lake_LakeOffset : Nat := 0x600005
def lake_LakeRate : Nat := 0x600006
def lake_SigmaNet : Nat := 0x600007
def lake_LakeError : Nat := 0x600008
def lake_Traceable : Nat := 0x600009
def lake_Contributing : Nat := 0x60000A
def lake_Weight : Nat := 0x60000B
def lake_LakeFlags : Nat := 0x60000C
def lake_GenerationChanges : Nat := 0x60000D
def lake_EstimateLosses : Nat := 0x60000E

/-! 0x6001 LakeRoot: R393 of 11_lake_time.md. -/
def lakeRoot_EnsembleRole : Nat := 0x600101
def lakeRoot_EnsembleTick : Nat := 0x600102
def lakeRoot_Contributors : Nat := 0x600103
def lakeRoot_GnssInputs : Nat := 0x600104
def lakeRoot_LakeSteer : Nat := 0x600105
def lakeRoot_GnssOffset : Nat := 0x600106
def lakeRoot_GnssSigma : Nat := 0x600107
def lakeRoot_LastGnssInput : Nat := 0x600108
def lakeRoot_RootFlags : Nat := 0x600109
def lakeRoot_GnssExclusions : Nat := 0x60010A
def lakeRoot_EpochsLate : Nat := 0x60010B
def lakeRoot_Merges : Nat := 0x60010C
def lakeRoot_ReplicaIncomplete : Nat := 0x60010D
def lakeRoot_EmptyEpochs : Nat := 0x60010E

/-! 0x6010 + p CvPartner: R393 of 11_lake_time.md. -/
def cvPartner_Partner (n : Nat) : Nat := (0x6010 + n) * 256 + 0x01
def cvPartner_CvRole (n : Nat) : Nat := (0x6010 + n) * 256 + 0x02
def cvPartner_Series (n : Nat) : Nat := (0x6010 + n) * 256 + 0x03
def cvPartner_CommonSatellites (n : Nat) : Nat := (0x6010 + n) * 256 + 0x04
def cvPartner_CvValue (n : Nat) : Nat := (0x6010 + n) * 256 + 0x05
def cvPartner_CvSigma (n : Nat) : Nat := (0x6010 + n) * 256 + 0x06
def cvPartner_CvFlags (n : Nat) : Nat := (0x6010 + n) * 256 + 0x07
def cvPartner_SeriesRestarts (n : Nat) : Nat := (0x6010 + n) * 256 + 0x08

/-! 0x6020 AidService: R393 of 11_lake_time.md. -/
def aidService_SightingShare : Nat := 0x602001
def aidService_SightingMinCn0 : Nat := 0x602002
def aidService_NeighbourCount : Nat := 0x602003
def aidService_SubscriptionsOut : Nat := 0x602004
def aidService_SubscriptionsIn : Nat := 0x602005
def aidService_AidFlags : Nat := 0x602006
def aidService_NoPositionEvents : Nat := 0x602007
def aidService_SubscriptionsRefused : Nat := 0x602008
def aidService_SightingsHeld : Nat := 0x602009

/-! 0x7000 Network: R358 of 10_fabric_network.md. -/
def network_DeviceAddress : Nat := 0x700001
def network_DeviceUid : Nat := 0x700002
def network_RootPriority : Nat := 0x700003
def network_MemberState : Nat := 0x700004
def network_RootAddress : Nat := 0x700005
def network_Standby1 : Nat := 0x700006
def network_Standby2 : Nat := 0x700007
def network_LiveMembers : Nat := 0x700008
def network_QuorumHeld : Nat := 0x700009
def network_AddressHold : Nat := 0x70000A
def network_CommitLead : Nat := 0x70000B
def network_FscopeResult : Nat := 0x70000C
def network_Epoch : Nat := 0x70000D
def network_NextNumber : Nat := 0x70000E
def network_NetFlags : Nat := 0x70000F
def network_RootChanges : Nat := 0x700010
def network_RouteChanges : Nat := 0x700011
def network_FramesDropped : Nat := 0x700012
def network_StaleDiscards : Nat := 0x700013
def network_FscopeStaleEvents : Nat := 0x700014
def network_AddressConflicts : Nat := 0x700015
def network_DropAge : Nat := 0x700016
def network_DropHops : Nat := 0x700017
def network_DropBuffer : Nat := 0x700018
def network_DropBad : Nat := 0x700019
def network_DropNoRoute : Nat := 0x70001A

/-! 0x7020 PtpClock: R319 of 09_fabric_ports.md. -/
def ptpClock_PtpEnable : Nat := 0x702001
def ptpClock_Profile : Nat := 0x702002
def ptpClock_DomainNumber : Nat := 0x702003
def ptpClock_Priority2 : Nat := 0x702004
def ptpClock_LocalPriority : Nat := 0x702005
def ptpClock_ClockIdentity : Nat := 0x702006
def ptpClock_ClockClass : Nat := 0x702007
def ptpClock_ClockAccuracy : Nat := 0x702008
def ptpClock_HoldoverSpecLimit : Nat := 0x702009
def ptpClock_CurrentUtcOffset : Nat := 0x70200A

/-! 0x7030 Messages: R358 of 10_fabric_network.md. -/
def messages_MessageSubmit : Nat := 0x703001
def messages_MaxDeliverAhead : Nat := 0x703002
def messages_DefaultExpiry : Nat := 0x703003
def messages_RetryTime : Nat := 0x703004
def messages_ChannelDeadTime : Nat := 0x703005
def messages_KeeperTakeover : Nat := 0x703006
def messages_JournalBytesFree : Nat := 0x703007
def messages_JournalEntries : Nat := 0x703008
def messages_ReceiveRecords : Nat := 0x703009
def messages_LastAcceptedRef : Nat := 0x70300A
def messages_MessagesAccepted : Nat := 0x70300B
def messages_MessagesDelivered : Nat := 0x70300C
def messages_MsgFlags : Nat := 0x70300D
def messages_JournalFullCount : Nat := 0x70300E
def messages_ArrivedLateCount : Nat := 0x70300F
def messages_DuplicateCount : Nat := 0x703010
def messages_UnconfirmedCount : Nat := 0x703011
def messages_ExpiredCount : Nat := 0x703012
def messages_RelayedCount : Nat := 0x703013
def messages_DelayedCount : Nat := 0x703014

/-! 0x7031 MessageDeliveryStream: R358 of 10_fabric_network.md. -/
def messageDeliveryStream_StreamData : Nat := 0x703101
def messageDeliveryStream_WordsAvailable : Nat := 0x703102
def messageDeliveryStream_Overflow : Nat := 0x703103
def messageDeliveryStream_DroppedCount : Nat := 0x703104

/-! 0x7032 MessageResultStream: R358 of 10_fabric_network.md. -/
def messageResultStream_StreamData : Nat := 0x703201
def messageResultStream_WordsAvailable : Nat := 0x703202
def messageResultStream_Overflow : Nat := 0x703203
def messageResultStream_DroppedCount : Nat := 0x703204

/-! 0x7050 Remote: R358 of 10_fabric_network.md. -/
def remote_RemoteRequest : Nat := 0x705001
def remote_TxnTimeout : Nat := 0x705002
def remote_TxnOpen : Nat := 0x705003
def remote_TxnFlags : Nat := 0x705004
def remote_TxnTimeouts : Nat := 0x705005

/-! 0x7051 RemoteReplyStream: R358 of 10_fabric_network.md. -/
def remoteReplyStream_StreamData : Nat := 0x705101
def remoteReplyStream_WordsAvailable : Nat := 0x705102
def remoteReplyStream_Overflow : Nat := 0x705103
def remoteReplyStream_DroppedCount : Nat := 0x705104

/-! 0x7060 LaunchQueue: R322 of 09_fabric_ports.md. -/
def launchQueue_LaunchSubmit : Nat := 0x706001
def launchQueue_QueuedTotal : Nat := 0x706002
def launchQueue_LaunchFlags : Nat := 0x706003
def launchQueue_LateSent : Nat := 0x706004
def launchQueue_DelayedCount : Nat := 0x706005
def launchQueue_DroppedCount : Nat := 0x706006

/-! 0x7061 LaunchResultStream: R322 of 09_fabric_ports.md. -/
def launchResultStream_StreamData : Nat := 0x706101
def launchResultStream_WordsAvailable : Nat := 0x706102
def launchResultStream_Overflow : Nat := 0x706103
def launchResultStream_DroppedCount : Nat := 0x706104

/-! 0x7080 + k OutChannel: R358 of 10_fabric_network.md. -/
def outChannel_Destination (n : Nat) : Nat := (0x7080 + n) * 256 + 0x01
def outChannel_Keeper (n : Nat) : Nat := (0x7080 + n) * 256 + 0x02
def outChannel_PathMode (n : Nat) : Nat := (0x7080 + n) * 256 + 0x03
def outChannel_ChannelCommand (n : Nat) : Nat := (0x7080 + n) * 256 + 0x04
def outChannel_ChannelState (n : Nat) : Nat := (0x7080 + n) * 256 + 0x05
def outChannel_NextSeq (n : Nat) : Nat := (0x7080 + n) * 256 + 0x06
def outChannel_OpenEntries (n : Nat) : Nat := (0x7080 + n) * 256 + 0x07
def outChannel_LastDeliverAt (n : Nat) : Nat := (0x7080 + n) * 256 + 0x08
def outChannel_ChannelResult (n : Nat) : Nat := (0x7080 + n) * 256 + 0x09

/-! 0x7100 + n Port: R314 of 09_fabric_ports.md. -/
def port_PortMode (n : Nat) : Nat := (0x7100 + n) * 256 + 0x01
def port_PortState (n : Nat) : Nat := (0x7100 + n) * 256 + 0x02
def port_ActiveMode (n : Nat) : Nat := (0x7100 + n) * 256 + 0x03
def port_Autoneg (n : Nat) : Nat := (0x7100 + n) * 256 + 0x04
def port_TxAmplitude (n : Nat) : Nat := (0x7100 + n) * 256 + 0x05
def port_TxEmphasis (n : Nat) : Nat := (0x7100 + n) * 256 + 0x06
def port_PolarityInvert (n : Nat) : Nat := (0x7100 + n) * 256 + 0x07
def port_MacAddress (n : Nat) : Nat := (0x7100 + n) * 256 + 0x08
def port_PeerAddress (n : Nat) : Nat := (0x7100 + n) * 256 + 0x09
def port_PeerPort (n : Nat) : Nat := (0x7100 + n) * 256 + 0x0A
def port_TxDelayFabric (n : Nat) : Nat := (0x7100 + n) * 256 + 0x0B
def port_RxDelayFabric (n : Nat) : Nat := (0x7100 + n) * 256 + 0x0C
def port_TxDelayEth (n : Nat) : Nat := (0x7100 + n) * 256 + 0x0D
def port_RxDelayEth (n : Nat) : Nat := (0x7100 + n) * 256 + 0x0E
def port_PortFlags (n : Nat) : Nat := (0x7100 + n) * 256 + 0x0F
def port_LosEvents (n : Nat) : Nat := (0x7100 + n) * 256 + 0x10
def port_CrcErrors (n : Nat) : Nat := (0x7100 + n) * 256 + 0x11
def port_Retries (n : Nat) : Nat := (0x7100 + n) * 256 + 0x12
def port_BadSeconds (n : Nat) : Nat := (0x7100 + n) * 256 + 0x13
def port_DegradedEvents (n : Nat) : Nat := (0x7100 + n) * 256 + 0x14
def port_RetiredEvents (n : Nat) : Nat := (0x7100 + n) * 256 + 0x15
def port_TrainFailures (n : Nat) : Nat := (0x7100 + n) * 256 + 0x16
def port_FailedRetryRun (n : Nat) : Nat := (0x7100 + n) * 256 + 0x17
def port_ErrorsLastSecond (n : Nat) : Nat := (0x7100 + n) * 256 + 0x18
def port_FramesTx (n : Nat) : Nat := (0x7100 + n) * 256 + 0x19
def port_FramesRx (n : Nat) : Nat := (0x7100 + n) * 256 + 0x1A
def port_PortCommand (n : Nat) : Nat := (0x7100 + n) * 256 + 0x1B

/-! 0x7140 + n PtpPort: R319 of 09_fabric_ports.md. -/
def ptpPort_PtpPortEnable (n : Nat) : Nat := (0x7140 + n) * 256 + 0x01
def ptpPort_PortRole (n : Nat) : Nat := (0x7140 + n) * 256 + 0x02
def ptpPort_DelayMechanism (n : Nat) : Nat := (0x7140 + n) * 256 + 0x03
def ptpPort_LogSyncInterval (n : Nat) : Nat := (0x7140 + n) * 256 + 0x04
def ptpPort_LogDelayReqInterval (n : Nat) : Nat := (0x7140 + n) * 256 + 0x05
def ptpPort_LogAnnounceInterval (n : Nat) : Nat := (0x7140 + n) * 256 + 0x06
def ptpPort_AnnounceReceiptTimeout (n : Nat) : Nat := (0x7140 + n) * 256 + 0x07
def ptpPort_DestAddress (n : Nat) : Nat := (0x7140 + n) * 256 + 0x08
def ptpPort_PtpState (n : Nat) : Nat := (0x7140 + n) * 256 + 0x09
def ptpPort_OffsetFromMaster (n : Nat) : Nat := (0x7140 + n) * 256 + 0x0A
def ptpPort_MeanPathDelay (n : Nat) : Nat := (0x7140 + n) * 256 + 0x0B
def ptpPort_PtpFlags (n : Nat) : Nat := (0x7140 + n) * 256 + 0x0C
def ptpPort_AnnounceTimeouts (n : Nat) : Nat := (0x7140 + n) * 256 + 0x0D
def ptpPort_BadMessages (n : Nat) : Nat := (0x7140 + n) * 256 + 0x0E

/-! 0x7180 + n LinkTiming: R312 of 09_fabric_ports.md. -/
def linkTiming_AsymmetrySource (n : Nat) : Nat := (0x7180 + n) * 256 + 0x01
def linkTiming_Asymmetry (n : Nat) : Nat := (0x7180 + n) * 256 + 0x02
def linkTiming_MeasuredAsymmetry (n : Nat) : Nat := (0x7180 + n) * 256 + 0x03
def linkTiming_AsymUncertainty (n : Nat) : Nat := (0x7180 + n) * 256 + 0x04
def linkTiming_AsymCalTime (n : Nat) : Nat := (0x7180 + n) * 256 + 0x05
def linkTiming_AsymInUse (n : Nat) : Nat := (0x7180 + n) * 256 + 0x06
def linkTiming_PeerOffset (n : Nat) : Nat := (0x7180 + n) * 256 + 0x07
def linkTiming_MeanDelay (n : Nat) : Nat := (0x7180 + n) * 256 + 0x08
def linkTiming_ExchangeTick (n : Nat) : Nat := (0x7180 + n) * 256 + 0x09
def linkTiming_DelayJumpLimit (n : Nat) : Nat := (0x7180 + n) * 256 + 0x0A
def linkTiming_LinkTimingFlags (n : Nat) : Nat := (0x7180 + n) * 256 + 0x0B
def linkTiming_MissingTicks (n : Nat) : Nat := (0x7180 + n) * 256 + 0x0C
def linkTiming_AsymMismatches (n : Nat) : Nat := (0x7180 + n) * 256 + 0x0D
def linkTiming_DelayJumps (n : Nat) : Nat := (0x7180 + n) * 256 + 0x0E
def linkTiming_PeerSteps (n : Nat) : Nat := (0x7180 + n) * 256 + 0x0F

/-! 0x8000 Reader: R503 of 15_dowser_reader.md. -/
def reader_ReaderEnable : Nat := 0x800001
def reader_ReaderState : Nat := 0x800002
def reader_SynthState : Nat := 0x800003
def reader_SynthCalibrate : Nat := 0x800004
def reader_SynthCalTemperature : Nat := 0x800005
def reader_FieldOn : Nat := 0x800006
def reader_CollisionMargin : Nat := 0x800007
def reader_LastCommandResult : Nat := 0x800008
def reader_ReaderFlags : Nat := 0x800009
def reader_CalDeferred : Nat := 0x80000A
def reader_SynthFaults : Nat := 0x80000B
def reader_SynthBusyCount : Nat := 0x80000C
def reader_FieldTimeouts : Nat := 0x80000D
def reader_DutyLimits : Nat := 0x80000E
def reader_MaskExceeded : Nat := 0x80000F
def reader_NoiseSofs : Nat := 0x800010
def reader_Collisions : Nat := 0x800011
def reader_InventoryFull : Nat := 0x800012
def reader_CardDetections : Nat := 0x800013

/-! 0x8001 ReaderCommand: R501 of 15_dowser_reader.md. -/
def readerCommand : Nat := 0x800100

/-! 0x8002 ReaderResultStream: R499 of 15_dowser_reader.md. -/
def readerResultStream_StreamData : Nat := 0x800201
def readerResultStream_WordsAvailable : Nat := 0x800202
def readerResultStream_Overflow : Nat := 0x800203
def readerResultStream_DroppedCount : Nat := 0x800204

/-! 0x8003 InventoryStream: R504 of 15_dowser_reader.md. -/
def inventoryStream_StreamData : Nat := 0x800301
def inventoryStream_WordsAvailable : Nat := 0x800302
def inventoryStream_Overflow : Nat := 0x800303
def inventoryStream_DroppedCount : Nat := 0x800304

/-! 0x8010 + p CoilPort: R487 of 15_dowser_reader.md. -/
def coilPort_PortEnable (n : Nat) : Nat := (0x8010 + n) * 256 + 0x01
def coilPort_MuxPositions (n : Nat) : Nat := (0x8010 + n) * 256 + 0x02
def coilPort_CoilDetuneRef (n : Nat) : Nat := (0x8010 + n) * 256 + 0x03

/-! 0x8020 Field: R494 of 15_dowser_reader.md. -/
def field_PowerStep : Nat := 0x802001
def field_StepApplied : Nat := 0x802002
def field_FieldTimeout : Nat := 0x802003
def field_FieldGuard : Nat := 0x802004
def field_FieldOffMin : Nat := 0x802005
def field_EdgeRise : Nat := 0x802006
def field_EdgeFall : Nat := 0x802007
def field_ModIndexB : Nat := 0x802008
def field_ModIndexV : Nat := 0x802009
def field_DutyUsed : Nat := 0x80200A

/-! 0x8030 SpectralMask: R494 of 15_dowser_reader.md. -/
def spectralMask_MaskAction : Nat := 0x803001
def spectralMask_MaskOffset0 : Nat := 0x803002
def spectralMask_MaskOffset1 : Nat := 0x803003
def spectralMask_MaskOffset2 : Nat := 0x803004
def spectralMask_MaskOffset3 : Nat := 0x803005
def spectralMask_MaskLimit0 : Nat := 0x803006
def spectralMask_MaskLimit1 : Nat := 0x803007
def spectralMask_MaskLimit2 : Nat := 0x803008
def spectralMask_MaskLimit3 : Nat := 0x803009
def spectralMask_MaskMargin : Nat := 0x80300A

/-! 0x8040 CardDetect: R506 of 15_dowser_reader.md. -/
def cardDetect_CdEnable : Nat := 0x804001
def cardDetect_CdPosition : Nat := 0x804002
def cardDetect_CdInterval : Nat := 0x804003
def cardDetect_CdThreshold : Nat := 0x804004
def cardDetect_CdWake : Nat := 0x804005

/-! 0x8050 DelayScan: R508 of 15_dowser_reader.md. -/
def delayScan_ScanMode : Nat := 0x805001
def delayScan_ScanInterval : Nat := 0x805002
def delayScan_ScanCommand : Nat := 0x805003
def delayScan_ScanPowerStep : Nat := 0x805004
def delayScan_ReadRetries : Nat := 0x805005
def delayScan_ScanState : Nat := 0x805006
def delayScan_LastScanAt : Nat := 0x805007
def delayScan_LastFailItem : Nat := 0x805008
def delayScan_LastFailCause : Nat := 0x805009

/-! 0x9000 TimerGlobal: R523 of 16_cadence_timers.md. -/
def timerGlobal_GroupStart : Nat := 0x900001
def timerGlobal_GroupStartLateOk : Nat := 0x900002
def timerGlobal_GroupStartAt : Nat := 0x900003
def timerGlobal_TimerIrqCore : Nat := 0x900004
def timerGlobal_EventSummary : Nat := 0x900005

/-! 0x9010 + n CadenceTimer: R522 of 16_cadence_timers.md. -/
def cadenceTimer_TimerMode (n : Nat) : Nat := (0x9010 + n) * 256 + 0x01
def cadenceTimer_ClockSource (n : Nat) : Nat := (0x9010 + n) * 256 + 0x02
def cadenceTimer_SourceSelect (n : Nat) : Nat := (0x9010 + n) * 256 + 0x03
def cadenceTimer_StartMode (n : Nat) : Nat := (0x9010 + n) * 256 + 0x04
def cadenceTimer_StartMaster (n : Nat) : Nat := (0x9010 + n) * 256 + 0x05
def cadenceTimer_Reload (n : Nat) : Nat := (0x9010 + n) * 256 + 0x06
def cadenceTimer_Compare0 (n : Nat) : Nat := (0x9010 + n) * 256 + 0x07
def cadenceTimer_Compare1 (n : Nat) : Nat := (0x9010 + n) * 256 + 0x08
def cadenceTimer_StartAt (n : Nat) : Nat := (0x9010 + n) * 256 + 0x09
def cadenceTimer_Options (n : Nat) : Nat := (0x9010 + n) * 256 + 0x0A
def cadenceTimer_TimerCommand (n : Nat) : Nat := (0x9010 + n) * 256 + 0x0B
def cadenceTimer_TimerState (n : Nat) : Nat := (0x9010 + n) * 256 + 0x0C
def cadenceTimer_Count (n : Nat) : Nat := (0x9010 + n) * 256 + 0x0D
def cadenceTimer_ReloadInUse (n : Nat) : Nat := (0x9010 + n) * 256 + 0x0E
def cadenceTimer_StartedAt (n : Nat) : Nat := (0x9010 + n) * 256 + 0x0F
def cadenceTimer_Periods (n : Nat) : Nat := (0x9010 + n) * 256 + 0x10
def cadenceTimer_TimerFlags (n : Nat) : Nat := (0x9010 + n) * 256 + 0x11
def cadenceTimer_UnderflowCount (n : Nat) : Nat := (0x9010 + n) * 256 + 0x12
def cadenceTimer_Compare0Count (n : Nat) : Nat := (0x9010 + n) * 256 + 0x13
def cadenceTimer_Compare1Count (n : Nat) : Nat := (0x9010 + n) * 256 + 0x14
def cadenceTimer_LateStarts (n : Nat) : Nat := (0x9010 + n) * 256 + 0x15
def cadenceTimer_StepSpans (n : Nat) : Nat := (0x9010 + n) * 256 + 0x16

/-! 0x9030 + i Capture: R526 of 16_cadence_timers.md. -/
def capture_CaptureEdge (n : Nat) : Nat := (0x9030 + n) * 256 + 0x01
def capture_CaptureRead (n : Nat) : Nat := (0x9030 + n) * 256 + 0x02
def capture_QueueDepth (n : Nat) : Nat := (0x9030 + n) * 256 + 0x03
def capture_IrqOnCapture (n : Nat) : Nat := (0x9030 + n) * 256 + 0x04
def capture_CaptureFlags (n : Nat) : Nat := (0x9030 + n) * 256 + 0x05
def capture_CaptureCount (n : Nat) : Nat := (0x9030 + n) * 256 + 0x06
def capture_OverflowCount (n : Nat) : Nat := (0x9030 + n) * 256 + 0x07
def capture_StepBetweenCount (n : Nat) : Nat := (0x9030 + n) * 256 + 0x08
def capture_CaptureInputDelay (n : Nat) : Nat := (0x9030 + n) * 256 + 0x09

/-! 0x9050 + o TimerOutput: R524 of 16_cadence_timers.md. -/
def timerOutput_OutSource (n : Nat) : Nat := (0x9050 + n) * 256 + 0x01
def timerOutput_OutMode (n : Nat) : Nat := (0x9050 + n) * 256 + 0x02
def timerOutput_OutPolarity (n : Nat) : Nat := (0x9050 + n) * 256 + 0x03
def timerOutput_PulseSteps (n : Nat) : Nat := (0x9050 + n) * 256 + 0x04
def timerOutput_OutLevel (n : Nat) : Nat := (0x9050 + n) * 256 + 0x05
def timerOutput_OutDelay (n : Nat) : Nat := (0x9050 + n) * 256 + 0x06

/-! 0xA000 PowerControl: R552 of 17_power_states.md. -/
def powerControl_PowerMode : Nat := 0xA00001
def powerControl_IdleEnable : Nat := 0xA00002
def powerControl_PowerState : Nat := 0xA00003
def powerControl_EntryResult : Nat := 0xA00004
def powerControl_RefusingBlock : Nat := 0xA00005
def powerControl_WakeEnable : Nat := 0xA00006
def powerControl_WakeAlarm : Nat := 0xA00007
def powerControl_LinkWakePorts : Nat := 0xA00008
def powerControl_LastWakeCause : Nat := 0xA00009
def powerControl_PowerFlags : Nat := 0xA0000A
def powerControl_RefusedCount : Nat := 0xA0000B
def powerControl_WakeFailEvents : Nat := 0xA0000C
def powerControl_LevelFailEvents : Nat := 0xA0000D
def powerControl_RefLateEvents : Nat := 0xA0000E
def powerControl_OasisLimitEvents : Nat := 0xA0000F
def powerControl_Entries : Nat := 0xA00010

/-! 0xA001 Performance: R552 of 17_power_states.md. -/
def performance_LevelRequest : Nat := 0xA00101
def performance_LevelCeiling : Nat := 0xA00102
def performance_LevelApplied : Nat := 0xA00103
def performance_LastRampTime : Nat := 0xA00104

/-! 0xA002 Oasis: R552 of 17_power_states.md. -/
def oasis_OasisPeriod : Nat := 0xA00201
def oasis_OasisBurst : Nat := 0xA00202
def oasis_OasisErrorLimit : Nat := 0xA00203
def oasis_OasisBursts : Nat := 0xA00204

/-! 0xA003 WakeLatch: R552 of 17_power_states.md. -/
def wakeLatch_LatchCause : Nat := 0xA00301
def wakeLatch_WakeAttempts : Nat := 0xA00302
def wakeLatch_LatchedAt : Nat := 0xA00303

/-! 0xA004 CoreSpreadEnable: R19 of 01_architecture_and_tick.md. -/
def coreSpreadEnable : Nat := 0xA00400

/-! 0xA010 SupplyMonitor: R603 of 21_electrical.md. -/
def supplyMonitor_SupplyStatus : Nat := 0xA01001
def supplyMonitor_SupplyFlags : Nat := 0xA01002
def supplyMonitor_SupplyDrops : Nat := 0xA01003
def supplyMonitor_ThermalAlerts : Nat := 0xA01004
def supplyMonitor_ThermalCuts : Nat := 0xA01005
def supplyMonitor_ThermalAlertLimit : Nat := 0xA01006
def supplyMonitor_PeakTemperature : Nat := 0xA01007
def supplyMonitor_VbatVoltage : Nat := 0xA01008

/-! 0xB000 SiltLog: R585 of 19_silt_log.md. -/
def siltLog_OldestSeq : Nat := 0xB00001
def siltLog_NewestSeq : Nat := 0xB00002
def siltLog_RecordCount : Nat := 0xB00003
def siltLog_LogClear : Nat := 0xB00004
def siltLog_QueueDepth : Nat := 0xB00005
def siltLog_LogFlags : Nat := 0xB00006
def siltLog_LostRecords : Nat := 0xB00007
def siltLog_CursorSkips : Nat := 0xB00008
def siltLog_CheckFailures : Nat := 0xB00009
def siltLog_ClearCount : Nat := 0xB0000A

/-! 0xB010 + r SiltCursor: R585 of 19_silt_log.md. -/
def siltCursor_Cursor (n : Nat) : Nat := (0xB010 + n) * 256 + 0x01
def siltCursor_Record (n : Nat) : Nat := (0xB010 + n) * 256 + 0x02

/-! 0xC000 Protection: R407 of 12_protection.md. -/
def protection_AuthRequired : Nat := 0xC00001
def protection_MspiRole : Nat := 0xC00002
def protection_HostUnauthRole : Nat := 0xC00003
def protection_RemoteUnauthRole : Nat := 0xC00004
def protection_StepAuthority : Nat := 0xC00005
def protection_AdmissionSlots : Nat := 0xC00006
def protection_ProtFlags : Nat := 0xC00007
def protection_AuthFailCount : Nat := 0xC00008
def protection_NotAuthorisedCount : Nat := 0xC00009
def protection_ExpiredCount : Nat := 0xC0000A
def protection_CeilingAppliedCount : Nat := 0xC0000B

/-! 0xC010 + r AccessRights: R402 of 12_protection.md. -/
def accessRights (n : Nat) : Nat := (0xC010 + n) * 256 + 0x00

/-! 0xC020 + k KeySlot: R403 of 12_protection.md. -/
def keySlot_KeyState (n : Nat) : Nat := (0xC020 + n) * 256 + 0x01
def keySlot_KeyRole (n : Nat) : Nat := (0xC020 + n) * 256 + 0x02
def keySlot_KeyId (n : Nat) : Nat := (0xC020 + n) * 256 + 0x03
def keySlot_KeyValue (n : Nat) : Nat := (0xC020 + n) * 256 + 0x04
def keySlot_KeyCheck (n : Nat) : Nat := (0xC020 + n) * 256 + 0x05
def keySlot_TxCounter (n : Nat) : Nat := (0xC020 + n) * 256 + 0x06
def keySlot_AuthFailures (n : Nat) : Nat := (0xC020 + n) * 256 + 0x07

/-! 0xC040 TwoParty: R410 of 12_protection.md. -/
def twoParty_Propose : Nat := 0xC04001
def twoParty_Confirm : Nat := 0xC04002
def twoParty_Cancel : Nat := 0xC04003
def twoParty_PendingCount : Nat := 0xC04004
def twoParty_LastChangeId : Nat := 0xC04005
def twoParty_LastResult : Nat := 0xC04006
def twoParty_CardPosition : Nat := 0xC04007

/-! 0xC048 + p PendingChange: R410 of 12_protection.md. -/
def pendingChange_ChangeId (n : Nat) : Nat := (0xC048 + n) * 256 + 0x01
def pendingChange_Target (n : Nat) : Nat := (0xC048 + n) * 256 + 0x02
def pendingChange_ProposerRole (n : Nat) : Nat := (0xC048 + n) * 256 + 0x03
def pendingChange_Digest (n : Nat) : Nat := (0xC048 + n) * 256 + 0x04
def pendingChange_RemainingMs (n : Nat) : Nat := (0xC048 + n) * 256 + 0x05
def pendingChange_Card (n : Nat) : Nat := (0xC048 + n) * 256 + 0x06

/-! 0xC060 RegulatoryLocks: R414 of 12_protection.md. -/
def regulatoryLocks_RegLocked : Nat := 0xC06001
def regulatoryLocks_FieldPowerCeiling : Nat := 0xC06002
def regulatoryLocks_DutyCeiling : Nat := 0xC06003
def regulatoryLocks_FieldTimeoutCeiling : Nat := 0xC06004
def regulatoryLocks_AllowedProtocols : Nat := 0xC06005
def regulatoryLocks_Sealed : Nat := 0xC06006

/-! 0xC070 ImageSecurity: R417 of 12_protection.md. -/
def imageSecurity_RootKeyHash0 : Nat := 0xC07001
def imageSecurity_RootKeyHash1 : Nat := 0xC07002
def imageSecurity_RootKeyHash2 : Nat := 0xC07003
def imageSecurity_RootKeyHash3 : Nat := 0xC07004
def imageSecurity_RootKeyRevoked : Nat := 0xC07005
def imageSecurity_AntiRollback : Nat := 0xC07006
def imageSecurity_RollbackAdvance : Nat := 0xC07007
def imageSecurity_RunningSecurityVersion : Nat := 0xC07008
def imageSecurity_RunningImageVersion : Nat := 0xC07009
def imageSecurity_RunningKeyIndex : Nat := 0xC0700A
def imageSecurity_LastRejectReason : Nat := 0xC0700B
def imageSecurity_ImageRejects : Nat := 0xC0700C

/-! 0xD000 Boot: R568 of 18_reset_and_boot.md. -/
def boot_BootOrder : Nat := 0xD00001
def boot_BootSource : Nat := 0xD00002
def boot_StrapValue : Nat := 0xD00003
def boot_FlashSlotActive : Nat := 0xD00004
def boot_ImageWrite : Nat := 0xD00005
def boot_ImageCommand : Nat := 0xD00006
def boot_ImageResult : Nat := 0xD00007
def boot_ImageState : Nat := 0xD00008
def boot_BytesReceived : Nat := 0xD00009
def boot_BootWait : Nat := 0xD0000A

/-! 0xD020 TickBudget: R28 of 01_architecture_and_tick.md. -/
def tickBudget_UserBudget : Nat := 0xD02001
def tickBudget_UserBudgetGranted : Nat := 0xD02002
def tickBudget_UserBudgetFloor : Nat := 0xD02003
def tickBudget_ShedThreshold : Nat := 0xD02004
def tickBudget_ShedPolicy : Nat := 0xD02005
def tickBudget_TickStatus : Nat := 0xD02006
def tickBudget_ShedCount : Nat := 0xD02007
def tickBudget_MigrationCount : Nat := 0xD02008
def tickBudget_SlotsHeldLimit : Nat := 0xD02009

/-! 0xD030 + c CoreTick: R28 of 01_architecture_and_tick.md. -/
def coreTick_UsedLast (n : Nat) : Nat := (0xD030 + n) * 256 + 0x01
def coreTick_UsedPeak (n : Nat) : Nat := (0xD030 + n) * 256 + 0x02
def coreTick_Overruns (n : Nat) : Nat := (0xD030 + n) * 256 + 0x03
def coreTick_HardStops (n : Nat) : Nat := (0xD030 + n) * 256 + 0x04
def coreTick_CoreState (n : Nat) : Nat := (0xD030 + n) * 256 + 0x05

/-! 0xD040 UserCore: R447 of 13_vuvan_programming_model.md. -/
def userCore_UserEnable : Nat := 0xD04001
def userCore_UserEntry : Nat := 0xD04002
def userCore_UserFlags : Nat := 0xD04003
def userCore_UserTraps : Nat := 0xD04004
def userCore_UserStackFaults : Nat := 0xD04005
def userCore_LastUserTrap : Nat := 0xD04006

/-! 0xD050 CoreHealth: R452 of 13_vuvan_programming_model.md. -/
def coreHealth_CoresActive : Nat := 0xD05001
def coreHealth_HealthFlags : Nat := 0xD05002
def coreHealth_CoreRetiredEvents : Nat := 0xD05003
def coreHealth_LastRetiredCore : Nat := 0xD05004

/-! 0xE600 LakeEnsemble: R393 of 11_lake_time.md. -/
def lakeEnsemble_LakeQualify : Nat := 0xE60001
def lakeEnsemble_LakeRateTime : Nat := 0xE60002
def lakeEnsemble_LakeWeightTime : Nat := 0xE60003
def lakeEnsemble_LakeWeightCap : Nat := 0xE60004
def lakeEnsemble_LakeGnssTimeConstant : Nat := 0xE60005
def lakeEnsemble_LakeSteerLimit : Nat := 0xE60006
def lakeEnsemble_LakeTraceHold : Nat := 0xE60007
def lakeEnsemble_CvEnable : Nat := 0xE60008
def lakeEnsemble_CvBiasTime : Nat := 0xE60009

end Sys2Proof.Machine.K
end

