-- ==== Sys2Proof/Machine/Bytes.lean ====
section
/-!
DEFINITION. Byte strings, two's complement images, check codes and the sparse maps that hold registers and memories.
Bytes are naturals below 256; every function here takes a byte modulo 256.
-/

namespace Sys2Proof.Machine

/-! ### Sparse maps in one canonical form: keys strictly rising, no entry equal to the value of an unlisted key -/

/-- A sparse map from addresses or keys. -/
abbrev SMap (α : Type) := List (Nat × α)

/-- What a key holds: its entry, or `d` where none is listed. -/
def SMap.get {α : Type} (d : α) (k : Nat) : SMap α → α
  | [] => d
  | (k', v) :: m => if k' = k then v else if k < k' then d else SMap.get d k m

/-- Set a key, `d` being what the key holds when unlisted: setting `d` removes the entry. -/
def SMap.set {α : Type} [DecidableEq α] (d : α) (k : Nat) (v : α) : SMap α → SMap α
  | [] => if v = d then [] else [(k, v)]
  | (k', v') :: m =>
    if k < k' then (if v = d then (k', v') :: m else (k, v) :: (k', v') :: m)
    else if k = k' then (if v = d then m else (k, v) :: m)
    else (k', v') :: SMap.set d k v m

/-- Every key of a map lies above `n`, keys rise, and no entry equals its unlisted value: from a bound. -/
def SMap.wfFrom {α : Type} [DecidableEq α] (d : Nat → α) : Option Nat → SMap α → Bool
  | _, [] => true
  | lo, (k, v) :: m =>
    (match lo with | none => true | some n => decide (n < k)) && decide (v ≠ d k) && SMap.wfFrom d (some k) m

/-- The canonical form. -/
def SMap.wf {α : Type} [DecidableEq α] (d : Nat → α) (m : SMap α) : Bool := SMap.wfFrom d none m

/-- Keep the entries whose key passes a test: the others return to their unlisted values. -/
def SMap.keep {α : Type} (p : Nat → Bool) (m : SMap α) : SMap α := m.filter fun e => p e.1

/-! ### Bytes -/

/-- `v` as `n` bytes, most significant first (R11, R43). -/
def toBytes : Nat → Nat → List Nat
  | 0, _ => []
  | n + 1, v => (v / 256 ^ n) % 256 :: toBytes n v

/-- The number a byte string spells, most significant byte first. -/
def ofBytes (l : List Nat) : Nat := l.foldl (fun a b => a * 256 + b % 256) 0

/-- `n` bytes from offset `a`, zero where the string ends. -/
def byteAt (l : List Nat) (a : Nat) : Nat := l.getD a 0 % 256

/-- The number in `n` bytes from offset `a`. -/
def field (l : List Nat) (a n : Nat) : Nat := ofBytes ((l.drop a).take n)

/-- A two's complement image of `n` bytes as an integer. -/
def toInt (n v : Nat) : Int := if v < 2 ^ (8 * n - 1) then (v : Int) else (v : Int) - (2 ^ (8 * n) : Nat)

/-- The two's complement image of an integer in `n` bytes. -/
def ofInt (n : Nat) (i : Int) : Nat := (i % ((2 ^ (8 * n) : Nat) : Int)).toNat

/-- An integer held within bounds. -/
def clamp (lo hi i : Int) : Int := if i < lo then lo else if hi < i then hi else i

/-- Division of integers rounded to nearest, a tie going to the even quotient; 0 for a zero divisor. -/
def divRound (a b : Int) : Int :=
  if b = 0 then 0
  else
    let q := a.fdiv b
    let r2 := 2 * (a - q * b)
    let ab := if b < 0 then -b else b
    let r2' := if r2 < 0 then -r2 else r2
    if r2' > ab then q + 1 else if r2' = ab then (if q % 2 = 0 then q else q + 1) else q

/-- Bit `i` of a number. -/
def bit (v i : Nat) : Bool := (v / 2 ^ i) % 2 == 1

/-- The number with bit `i` set. -/
def setBit (v i : Nat) : Nat := if bit v i then v else v + 2 ^ i

/-- The number with bit `i` clear. -/
def clrBit (v i : Nat) : Nat := if bit v i then v - 2 ^ i else v

/-- The number with bit `i` as told. -/
def putBit (v i : Nat) (b : Bool) : Nat := if b then setBit v i else clrBit v i

/-- Bits `hi` down to `lo`. -/
def bits (v hi lo : Nat) : Nat := (v / 2 ^ lo) % 2 ^ (hi + 1 - lo)

/-- 1 for true. -/
def b2n (b : Bool) : Nat := if b then 1 else 0

/-- Largest element by a key, the first of equals; `d` for an empty list. -/
def maxOn {α : Type} (f : α → Nat) (d : α) (l : List α) : α :=
  (l.foldl (fun (o : Option α) x => match o with | none => some x | some y => if f y < f x then some x else some y) none).getD d

/-- Insert before the first element it may stand before; with sortBy, equal elements keep their order. -/
def insertBy {α : Type} (le : α → α → Bool) (x : α) : List α → List α
  | [] => [x]
  | y :: l => if le y x then y :: insertBy le x l else x :: y :: l

/-- Stable sort by a relation that says when its first argument may stand before its second. -/
def sortBy {α : Type} (le : α → α → Bool) : List α → List α
  | [] => []
  | x :: l => insertBy (fun a b => le a b && !(le b a)) x (sortBy le l)

/-! ### Check codes -/

/-- One step of a shift register CRC of width `w` on one bit, most significant bit first. -/
def crcBit (w poly c : Nat) (b : Bool) : Nat :=
  let top := bit c (w - 1) != b
  let c' := (c * 2) % 2 ^ w
  if top then Nat.xor c' poly else c'

/-- The eight bits of a byte, most significant first. -/
def crcByte (w poly c x : Nat) : Nat :=
  [7, 6, 5, 4, 3, 2, 1, 0].foldl (fun c i => crcBit w poly c (bit x i)) c

/-- A CRC of width `w` over a byte string, no reflection, no final inversion. -/
def crc (w poly init : Nat) (l : List Nat) : Nat := l.foldl (crcByte w poly) init

/-- CRC-8 of MSPI: polynomial 0x07, initial value 0x00 (R70). -/
def crc8 (l : List Nat) : Nat := crc 8 0x07 0 l

/-- CRC-16 of R107: polynomial 0x1021, initial value 0xFFFF. -/
def crc16 (l : List Nat) : Nat := crc 16 0x1021 0xFFFF l

/-! ### Time units -/

/-- One nanosecond in the DUR64 unit of 2^-16 ns (R8). -/
def NS : Nat := 65536
/-- One microsecond in the DUR64 unit. -/
def US : Nat := 65536000
/-- One millisecond in the DUR64 unit. -/
def MS : Nat := 65536000000
/-- One second in the DUR64 unit. -/
def SEC : Nat := 65536000000000

/-- A TIME96 image (48 bits of seconds, 48 bits of fraction; R6) of an instant in the DUR64 unit, the fraction rounded
to the nearest unit of 2^-48 s. -/
def toTime96 (du : Nat) : Nat :=
  let q := du / SEC
  let f := ((du % SEC) * 2 ^ 48 * 2 + SEC) / (2 * SEC)
  (q * 2 ^ 48 + f) % 2 ^ 96

/-- The instant of a TIME96 image in the DUR64 unit, rounded to the nearest unit. -/
def ofTime96 (t : Nat) : Nat :=
  let q := t / 2 ^ 48
  let f := t % 2 ^ 48
  q * SEC + (f * SEC * 2 + 2 ^ 48) / 2 ^ 49

/-- A duration of whole picoseconds in the DUR64 unit (65.536 units a picosecond), rounded to nearest. -/
def psToDu (ps : Int) : Int := divRound (ps * 65536) 1000

/-- A duration of the DUR64 unit in whole picoseconds, rounded to nearest. -/
def duToPs (du : Int) : Int := divRound (du * 1000) 65536

/-- OCTETS as words (R43): three bytes a word, first byte highest, the last word filled with zero. -/
def octetWords (b : List Nat) : List Nat :=
  (List.range ((b.length + 2) / 3)).map fun i => byteAt b (3 * i) * 65536 + byteAt b (3 * i + 1) * 256 + byteAt b (3 * i + 2)

end Sys2Proof.Machine
end

