-- ==== Sys2Proof/Machine/ObjTable.lean ====
section
/-!
DEFINITION. The object table of the spec as data (R41 to R49): for every subindex its type, access class, persistence,
default and the values a write may carry. The rows are the tables of spec/ in index order.
-/

namespace Sys2Proof.Machine

/-- The types of R43. -/
inductive Ty where
  | bool | u8 | u16 | u24 | u32 | u48 | u64 | s8 | s16 | s24 | s32 | s48 | s64 | f32 | f64
  | time96 | dur64 | bcd24 | enum8 | bits16 | bits32
  | octets (n : Nat) | text (n : Nat) | record
  deriving DecidableEq, Repr

/-- The type code of R43, which DESCRIBE returns. -/
def Ty.code : Ty → Nat
  | .bool => 0x01 | .u8 => 0x02 | .u16 => 0x03 | .u24 => 0x04 | .u32 => 0x05 | .u48 => 0x06 | .u64 => 0x07
  | .s8 => 0x08 | .s16 => 0x09 | .s24 => 0x0A | .s32 => 0x0B | .s48 => 0x0C | .s64 => 0x0D
  | .f32 => 0x0E | .f64 => 0x0F | .time96 => 0x10 | .dur64 => 0x11 | .bcd24 => 0x12 | .enum8 => 0x13
  | .bits16 => 0x14 | .bits32 => 0x15 | .octets _ => 0x16 | .text _ => 0x17 | .record => 0x18

/-- The number of link bytes of R43. -/
def Ty.bytes : Ty → Nat
  | .bool => 1 | .u8 => 1 | .u16 => 2 | .u24 => 3 | .u32 => 4 | .u48 => 6 | .u64 => 8
  | .s8 => 1 | .s16 => 2 | .s24 => 3 | .s32 => 4 | .s48 => 6 | .s64 => 8
  | .f32 => 4 | .f64 => 8 | .time96 => 12 | .dur64 => 8 | .bcd24 => 3 | .enum8 => 1
  | .bits16 => 2 | .bits32 => 4 | .octets n => n | .text n => n | .record => 0

/-- The number of Vuvan words of R43. -/
def Ty.words : Ty → Nat
  | .bool => 1 | .u8 => 1 | .u16 => 1 | .u24 => 1 | .u32 => 2 | .u48 => 2 | .u64 => 3
  | .s8 => 1 | .s16 => 1 | .s24 => 1 | .s32 => 2 | .s48 => 2 | .s64 => 3
  | .f32 => 2 | .f64 => 3 | .time96 => 4 | .dur64 => 3 | .bcd24 => 1 | .enum8 => 1
  | .bits16 => 1 | .bits32 => 2 | .octets n => (n + 2) / 3 | .text n => (n + 2) / 3 | .record => 0

/-- Types whose image is two's complement (R43). -/
def Ty.signed : Ty → Bool
  | .s8 | .s16 | .s24 | .s32 | .s48 | .s64 | .dur64 => true
  | _ => false

/-- The numeric types of R66: codes 0x02 to 0x12. -/
def Ty.numeric (t : Ty) : Bool := decide (0x02 ≤ t.code) && decide (t.code ≤ 0x12)

/-- The access classes of R46. -/
inductive Access where
  | ro | rw | wo | rc | ax | pw
  deriving DecidableEq, Repr

/-- The access class code of R66. -/
def Access.code : Access → Nat
  | .ro => 0 | .rw => 1 | .wo => 2 | .rc => 3 | .ax => 4 | .pw => 5

/-- The persistence codes of R49. -/
inductive Keep where
  | v | p | f
  deriving DecidableEq, Repr

/-- The Keep code of R66. -/
def Keep.code : Keep → Nat
  | .v => 0 | .p => 1 | .f => 2

/-- A default: a link image, one image per copy of the object, a factory value, or none given ("—"). -/
inductive Dflt where
  | num (n : Nat)
  | per (l : List Nat)
  | factory
  | none
  deriving DecidableEq, Repr

/-- What the range column allows (R44): a range, a range or one more value, listed values, a range in steps, the
values of an enumeration, the reserved bits of a bit layout, upper-case letters, and the cursor range of R585. -/
inductive Check where
  | any
  | bool
  | range (lo hi : Int)
  | rangeOr (lo hi other : Int)
  | oneOf (l : List Int)
  | stepped (lo hi step : Int)
  | enum (lo hi : Nat)
  | bits (reserved : Nat)
  | upper
  | cursor
  deriving DecidableEq, Repr

/-- One subindex of an object. -/
structure Row where
  sub : Nat
  ty : Ty
  acc : Access
  keep : Keep
  dflt : Dflt
  chk : Check
  deriving DecidableEq, Repr

/-- One object, or `count` objects at consecutive indices from `base`. -/
structure Obj where
  base : Nat
  count : Nat
  rows : List Row
  deriving DecidableEq, Repr

/-- 0x1010 DeviceState, 1 of them: R54 of spec/02_object_dictionary.md. -/
def oDeviceState : Obj := ⟨0x1010, 1, [
  ⟨0x00, .enum8, .ro, .v, .num 0, .enum 0 3⟩]⟩

/-- 0x1020 DeviceControl, 1 of them: R568 of spec/18_reset_and_boot.md. -/
def oDeviceControl : Obj := ⟨0x1020, 1, [
  ⟨0x00, .u8, .ro, .f, .num 9, .range 9 9⟩,
  ⟨0x01, .enum8, .rw, .p, .num 1, .enum 1 2⟩,
  ⟨0x02, .enum8, .ax, .v, .num 0, .enum 1 2⟩,
  ⟨0x03, .enum8, .ax, .v, .num 0, .enum 1 3⟩,
  ⟨0x04, .enum8, .ro, .v, .none, .enum 0 7⟩,
  ⟨0x05, .u16, .rw, .p, .num 16, .range 2 1000⟩,
  ⟨0x06, .bits16, .rc, .p, .num 0x0, .bits 0xFFF8⟩,
  ⟨0x07, .u16, .rc, .p, .num 0, .range 0 65535⟩,
  ⟨0x08, .u16, .rc, .p, .num 0, .range 0 65535⟩,
  ⟨0x09, .u16, .rc, .p, .num 0, .range 0 65535⟩]⟩

/-- 0x1030 HostAccess, 1 of them: R80 of spec/02_object_dictionary.md. -/
def oHostAccess : Obj := ⟨0x1030, 1, [
  ⟨0x00, .u8, .ro, .f, .num 5, .range 5 5⟩,
  ⟨0x01, .u8, .ro, .f, .num 0, .range 0 0⟩,
  ⟨0x02, .u8, .rw, .p, .num 255, .rangeOr 0 31 255⟩,
  ⟨0x03, .u16, .rw, .p, .num 0x88B5, .range 1536 65535⟩,
  ⟨0x04, .bool, .rw, .p, .num 1, .bool⟩,
  ⟨0x05, .u16, .rw, .p, .num 1000, .range 0 10000⟩]⟩

/-- 0x1040 HostAccessCounters, 1 of them: R80 of spec/02_object_dictionary.md. -/
def oHostAccessCounters : Obj := ⟨0x1040, 1, [
  ⟨0x00, .u8, .ro, .f, .num 7, .range 7 7⟩,
  ⟨0x01, .u16, .rc, .v, .num 0, .range 0 65535⟩,
  ⟨0x02, .u16, .rc, .v, .num 0, .range 0 65535⟩,
  ⟨0x03, .u16, .rc, .v, .num 0, .range 0 65535⟩,
  ⟨0x04, .u16, .rc, .v, .num 0, .range 0 65535⟩,
  ⟨0x05, .u16, .rc, .v, .num 0, .range 0 65535⟩,
  ⟨0x06, .u16, .rc, .v, .num 0, .range 0 65535⟩,
  ⟨0x07, .u32, .ro, .v, .num 0, .range 0 4294967295⟩]⟩

/-- 0x1060 + g PinGroup, 8 of them: R593 of spec/20_balls_and_package.md. -/
def oPinGroup : Obj := ⟨0x1060, 8, [
  ⟨0x00, .u8, .ro, .f, .num 3, .range 3 3⟩,
  ⟨0x01, .enum8, .rw, .p, .num 1, .enum 0 3⟩,
  ⟨0x02, .u16, .rw, .p, .per [20, 20, 20, 20, 2, 2, 2, 20], .range 2 1000⟩,
  ⟨0x03, .enum8, .rw, .p, .per [0, 0, 2, 0, 0, 1, 0, 0], .enum 0 2⟩]⟩

/-- 0x1070 IoBanks, 1 of them: R594 of spec/20_balls_and_package.md. -/
def oIoBanks : Obj := ⟨0x1070, 1, [
  ⟨0x00, .bits16, .ro, .v, .none, .bits 0xFFC0⟩]⟩

/-- 0x2000 PondTime, 1 of them: R93 of spec/03_pond_time_and_outputs.md. -/
def oPondTime : Obj := ⟨0x2000, 1, [
  ⟨0x00, .u8, .ro, .f, .num 7, .range 7 7⟩,
  ⟨0x01, .time96, .ro, .v, .none, .any⟩,
  ⟨0x02, .u64, .ro, .v, .num 0, .any⟩,
  ⟨0x03, .u32, .ro, .v, .num 0xFFFFFFFF, .rangeOr 0 4294967294 4294967295⟩,
  ⟨0x04, .enum8, .ro, .v, .num 0, .enum 0 3⟩,
  ⟨0x05, .time96, .ro, .p, .num 0, .any⟩,
  ⟨0x06, .u16, .ro, .p, .num 0, .range 0 65535⟩,
  ⟨0x07, .bool, .ro, .v, .num 0, .bool⟩]⟩

/-- 0x2001 TimingState, 1 of them: R83 of spec/03_pond_time_and_outputs.md. -/
def oTimingState : Obj := ⟨0x2001, 1, [
  ⟨0x00, .enum8, .ro, .v, .num 0, .enum 0 4⟩]⟩

/-- 0x2002 Steering, 1 of them: R87 of spec/03_pond_time_and_outputs.md. -/
def oSteering : Obj := ⟨0x2002, 1, [
  ⟨0x00, .u8, .ro, .f, .num 16, .range 16 16⟩,
  ⟨0x01, .enum8, .rw, .p, .num 0, .enum 0 1⟩,
  ⟨0x02, .enum8, .rw, .p, .num 0, .enum 0 2⟩,
  ⟨0x03, .dur64, .rw, .p, .num 0x3E80000, .range 6553600 65536000000⟩,
  ⟨0x04, .u32, .rw, .p, .num 20000, .range 100 1000000⟩,
  ⟨0x05, .u16, .rw, .p, .num 60, .range 1 3600⟩,
  ⟨0x06, .u16, .rw, .p, .num 2000, .range 100 60000⟩,
  ⟨0x07, .u16, .rw, .p, .num 10, .range 1 1000⟩,
  ⟨0x08, .u16, .rw, .p, .num 707, .range 500 2000⟩,
  ⟨0x09, .s48, .rw, .v, .num 0, .range (-28147497671) 28147497671⟩,
  ⟨0x0A, .s48, .ro, .v, .num 0, .range (-28147497671) 28147497671⟩,
  ⟨0x0B, .s48, .ro, .v, .num 0, .range (-28147497671) 28147497671⟩,
  ⟨0x0C, .s48, .ro, .v, .num 0, .range (-56294995) 56294995⟩,
  ⟨0x0D, .enum8, .rw, .p, .num 0, .enum 0 1⟩,
  ⟨0x0E, .f32, .rw, .p, .num 0x3C23D70A, .range 0x358637BD 0x41200000⟩,
  ⟨0x0F, .u24, .rw, .p, .num 0x80000, .range 0 1048575⟩,
  ⟨0x10, .u24, .ro, .v, .num 0x80000, .range 0 1048575⟩]⟩

/-- 0x2003 Seeding, 1 of them: R93 of spec/03_pond_time_and_outputs.md. -/
def oSeeding : Obj := ⟨0x2003, 1, [
  ⟨0x00, .u8, .ro, .f, .num 3, .range 3 3⟩,
  ⟨0x01, .time96, .ax, .v, .none, .any⟩,
  ⟨0x02, (.octets 13), .pw, .v, .num 0, .any⟩,
  ⟨0x03, .u16, .ro, .p, .num 0x0, .any⟩]⟩

/-- 0x2004 TimingEvents, 1 of them: R95 of spec/03_pond_time_and_outputs.md. -/
def oTimingEvents : Obj := ⟨0x2004, 1, [
  ⟨0x00, .u8, .ro, .f, .num 7, .range 7 7⟩,
  ⟨0x01, .bits16, .rc, .v, .num 0x0, .bits 0xFFE0⟩,
  ⟨0x02, .u16, .rc, .v, .num 0, .range 0 65535⟩,
  ⟨0x03, .u16, .rc, .v, .num 0, .range 0 65535⟩,
  ⟨0x04, .u16, .rc, .v, .num 0, .range 0 65535⟩,
  ⟨0x05, .u16, .rc, .v, .num 0, .range 0 65535⟩,
  ⟨0x06, .u16, .rc, .v, .num 0, .range 0 65535⟩,
  ⟨0x07, .dur64, .ro, .v, .num 0, .any⟩]⟩

/-- 0x2005 Holdover, 1 of them: R94 of spec/03_pond_time_and_outputs.md. -/
def oHoldover : Obj := ⟨0x2005, 1, [
  ⟨0x00, .u8, .ro, .f, .num 6, .range 6 6⟩,
  ⟨0x01, .u32, .ro, .v, .num 0, .range 0 4294967295⟩,
  ⟨0x02, .u32, .ro, .v, .num 0, .any⟩,
  ⟨0x03, .f32, .ro, .p, .num 0x3F800000, .any⟩,
  ⟨0x04, .f32, .ro, .p, .num 0x41200000, .any⟩,
  ⟨0x05, .f32, .ro, .p, .num 0, .any⟩,
  ⟨0x06, .u32, .rw, .p, .num 0xF4240, .range 1000 4294967294⟩]⟩

/-- 0x2006 Reference, 1 of them: R82 of spec/03_pond_time_and_outputs.md. -/
def oReference : Obj := ⟨0x2006, 1, [
  ⟨0x00, .u8, .ro, .f, .num 5, .range 5 5⟩,
  ⟨0x01, .u32, .rw, .p, .num 0x989680, .range 10000000 100000000⟩,
  ⟨0x02, .enum8, .rw, .p, .num 0, .enum 0 1⟩,
  ⟨0x03, .enum8, .ro, .v, .num 0, .enum 0 2⟩,
  ⟨0x04, .bool, .rc, .v, .num 0, .bool⟩,
  ⟨0x05, .u16, .rc, .v, .num 0, .range 0 65535⟩]⟩

/-- 0x2010 + p TimePulse, 4 of them: R99 of spec/03_pond_time_and_outputs.md. -/
def oTimePulse : Obj := ⟨0x2010, 4, [
  ⟨0x00, .u8, .ro, .f, .num 12, .range 12 12⟩,
  ⟨0x01, .enum8, .rw, .p, .num 0, .enum 0 2⟩,
  ⟨0x02, .enum8, .rw, .p, .num 0, .enum 0 1⟩,
  ⟨0x03, .u32, .rw, .p, .num 0xF4240, .range 1 1000000000⟩,
  ⟨0x04, .u32, .rw, .p, .num 0x5F5E100, .range 8 4294967295⟩,
  ⟨0x05, .enum8, .rw, .p, .num 0, .enum 0 1⟩,
  ⟨0x06, .dur64, .rw, .p, .num 0, .range (-32768000000000) 32768000000000⟩,
  ⟨0x07, .dur64, .ro, .f, .factory, .any⟩,
  ⟨0x08, .dur64, .ro, .v, .num 0, .stepped (-9223372036854775808) 9223372036854775807 512⟩,
  ⟨0x09, .time96, .ro, .v, .none, .any⟩,
  ⟨0x0A, .u48, .ro, .v, .num 0, .any⟩,
  ⟨0x0B, .bits16, .rc, .v, .num 0x0, .bits 0xFFFE⟩,
  ⟨0x0C, .u16, .rc, .v, .num 0, .range 0 65535⟩]⟩

/-- 0x2020 + c ClockOut, 2 of them: R102 of spec/03_pond_time_and_outputs.md. -/
def oClockOut : Obj := ⟨0x2020, 2, [
  ⟨0x00, .u8, .ro, .f, .num 12, .range 12 12⟩,
  ⟨0x01, .enum8, .rw, .p, .num 0, .enum 0 2⟩,
  ⟨0x02, .u32, .rw, .p, .num 0x989680, .range 1000000 4294967295⟩,
  ⟨0x03, .u16, .rw, .p, .num 1, .range 1 65535⟩,
  ⟨0x04, .dur64, .rw, .p, .num 0, .range (-65536000000000) 65536000000000⟩,
  ⟨0x05, .enum8, .rw, .p, .num 0, .enum 0 2⟩,
  ⟨0x06, .dur64, .ro, .f, .factory, .any⟩,
  ⟨0x07, .dur64, .ro, .v, .num 0, .any⟩,
  ⟨0x08, .enum8, .ro, .v, .num 0, .enum 0 2⟩,
  ⟨0x09, .s16, .ro, .v, .num 0, .range (-32767) 32767⟩,
  ⟨0x0A, .bits16, .rc, .v, .num 0x0, .bits 0xFFFC⟩,
  ⟨0x0B, .u16, .rc, .v, .num 0, .range 0 65535⟩,
  ⟨0x0C, .u16, .rc, .v, .num 0, .range 0 65535⟩]⟩

/-- 0x2030 + k Delay, 10 of them: R96 of spec/03_pond_time_and_outputs.md. -/
def oDelay : Obj := ⟨0x2030, 10, [
  ⟨0x00, .u8, .ro, .f, .num 13, .range 13 13⟩,
  ⟨0x01, .dur64, .rw, .p, .num 0, .range (-655360000) 6553600000⟩,
  ⟨0x02, .dur64, .ro, .p, .num 0, .range (-655360000) 6553600000⟩,
  ⟨0x03, .u24, .ro, .p, .num 0, .any⟩,
  ⟨0x04, (.octets 8), .ro, .p, .num 0, .any⟩,
  ⟨0x05, .enum8, .rw, .p, .num 1, .enum 0 2⟩,
  ⟨0x06, .u8, .rw, .p, .num 255, .rangeOr 0 127 255⟩,
  ⟨0x07, .dur64, .ro, .v, .num 0, .any⟩,
  ⟨0x08, .dur64, .ro, .v, .num 0, .any⟩,
  ⟨0x09, .enum8, .ro, .v, .num 0, .enum 0 3⟩,
  ⟨0x0A, .u16, .rw, .p, .num 1000, .range 0 65535⟩,
  ⟨0x0B, .bits16, .rc, .v, .num 0x0, .bits 0xFFF8⟩,
  ⟨0x0C, .u16, .rc, .v, .num 0, .range 0 65535⟩,
  ⟨0x0D, .u16, .rc, .v, .num 0, .range 0 65535⟩]⟩

/-- 0x2040 TimeOfDay, 1 of them: R105 of spec/03_pond_time_and_outputs.md. -/
def oTimeOfDay : Obj := ⟨0x2040, 1, [
  ⟨0x00, .u8, .ro, .f, .num 7, .range 7 7⟩,
  ⟨0x01, .enum8, .rw, .p, .num 0, .enum 0 2⟩,
  ⟨0x02, .u32, .rw, .p, .num 0x1C200, .oneOf [9600, 19200, 38400, 57600, 115200, 230400, 460800, 921600]⟩,
  ⟨0x03, .u16, .rw, .p, .num 10, .range 1 500⟩,
  ⟨0x04, (.text 2), .rw, .p, .num 0x474E, .upper⟩,
  ⟨0x05, .u32, .ro, .v, .num 0, .any⟩,
  ⟨0x06, .bits16, .rc, .v, .num 0x0, .bits 0xFFFE⟩,
  ⟨0x07, .u16, .rc, .v, .num 0, .range 0 65535⟩]⟩

/-- 0x2041 IrigB, 1 of them: R108 of spec/03_pond_time_and_outputs.md. -/
def oIrigB : Obj := ⟨0x2041, 1, [
  ⟨0x00, .u8, .ro, .f, .num 3, .range 3 3⟩,
  ⟨0x01, .enum8, .rw, .p, .num 4, .enum 0 7⟩,
  ⟨0x02, .enum8, .rw, .p, .num 0, .enum 0 1⟩,
  ⟨0x03, .u32, .ro, .v, .num 0, .any⟩]⟩

/-- 0x3000 + a AntennaInput, 2 of them: R120 of spec/04_gnss_receive_chains.md. -/
def oAntennaInput : Obj := ⟨0x3000, 2, [
  ⟨0x00, .u8, .ro, .f, .num 10, .range 10 10⟩,
  ⟨0x01, .enum8, .rw, .p, .num 1, .enum 0 2⟩,
  ⟨0x02, .u16, .ro, .v, .num 0, .range 0 6000⟩,
  ⟨0x03, .u16, .ro, .v, .num 0, .range 0 1500⟩,
  ⟨0x04, .u16, .rw, .p, .num 30, .range 5 200⟩,
  ⟨0x05, .u16, .rw, .p, .num 1000, .range 200 1000⟩,
  ⟨0x06, .enum8, .ro, .v, .num 0, .enum 0 5⟩,
  ⟨0x07, .bits16, .rc, .v, .num 0x0, .bits 0xFFF8⟩,
  ⟨0x08, .u16, .rc, .v, .num 0, .range 0 65535⟩,
  ⟨0x09, .u16, .rc, .v, .num 0, .range 0 65535⟩,
  ⟨0x0A, .u16, .rc, .v, .num 0, .range 0 65535⟩]⟩

/-- 0x3010 + c Chain, 4 of them: R122 of spec/04_gnss_receive_chains.md. -/
def oChain : Obj := ⟨0x3010, 4, [
  ⟨0x00, .u8, .ro, .f, .num 16, .range 16 16⟩,
  ⟨0x01, .bool, .rw, .p, .num 1, .bool⟩,
  ⟨0x02, .enum8, .ro, .v, .num 0, .enum 0 5⟩,
  ⟨0x03, .u32, .ro, .f, .per [1585000000, 1190000000, 1585000000, 1190000000], .any⟩,
  ⟨0x04, .u8, .rw, .p, .num 100, .range 40 200⟩,
  ⟨0x05, .u16, .rw, .p, .num 100, .range 10 10000⟩,
  ⟨0x06, .u16, .ro, .v, .num 0, .range 0 700⟩,
  ⟨0x07, .u16, .ro, .p, .num 0, .range 0 700⟩,
  ⟨0x08, .u8, .rw, .p, .num 6, .range 1 40⟩,
  ⟨0x09, .bits16, .ro, .v, .num 0x0, .bits 0x0⟩,
  ⟨0x0A, .bits16, .rc, .v, .num 0x0, .bits 0xFFF0⟩,
  ⟨0x0B, .u16, .rc, .v, .num 0, .range 0 65535⟩,
  ⟨0x0C, .u16, .rc, .v, .num 0, .range 0 65535⟩,
  ⟨0x0D, .u16, .rc, .v, .num 0, .range 0 65535⟩,
  ⟨0x0E, .u16, .rc, .v, .num 0, .range 0 65535⟩,
  ⟨0x0F, .s16, .ro, .v, .num 0, .any⟩,
  ⟨0x10, .u8, .ro, .v, .num 0, .range 0 80⟩]⟩

/-- 0x3020 + c FrontEnd, 4 of them: R127 of spec/04_gnss_receive_chains.md. -/
def oFrontEnd : Obj := ⟨0x3020, 4, [
  ⟨0x00, .u8, .ro, .f, .num 7, .range 7 7⟩,
  ⟨0x01, .bool, .rw, .p, .num 1, .bool⟩,
  ⟨0x02, .u8, .rw, .p, .num 31, .range 8 31⟩,
  ⟨0x03, .u16, .rw, .p, .num 16, .range 0 1023⟩,
  ⟨0x04, .u16, .ro, .v, .num 0, .any⟩,
  ⟨0x05, .u16, .rw, .p, .num 6554, .range 1 65535⟩,
  ⟨0x06, .bits16, .rc, .v, .num 0x0, .bits 0xFFFE⟩,
  ⟨0x07, .u16, .rc, .v, .num 0, .range 0 65535⟩]⟩

/-- 0x3030 + 4c + k Notch, 16 of them: R128 of spec/04_gnss_receive_chains.md. -/
def oNotch : Obj := ⟨0x3030, 16, [
  ⟨0x00, .u8, .ro, .f, .num 7, .range 7 7⟩,
  ⟨0x01, .enum8, .rw, .p, .num 2, .enum 0 2⟩,
  ⟨0x02, .s32, .rw, .p, .num 0, .range (-30690000) 30690000⟩,
  ⟨0x03, .enum8, .rw, .p, .num 1, .enum 0 4⟩,
  ⟨0x04, .u8, .rw, .p, .num 15, .range 6 40⟩,
  ⟨0x05, .s32, .ro, .v, .num 0, .any⟩,
  ⟨0x06, .enum8, .ro, .v, .num 0, .enum 0 3⟩,
  ⟨0x07, .u16, .rc, .v, .num 0, .range 0 65535⟩]⟩

/-- 0x3040 Calibration, 1 of them: R136 of spec/04_gnss_receive_chains.md. -/
def oCalibration : Obj := ⟨0x3040, 1, [
  ⟨0x00, .u8, .ro, .f, .num 7, .range 7 7⟩,
  ⟨0x01, .bits16, .ax, .v, .num 0x0, .bits 0xFF00⟩,
  ⟨0x02, .bool, .rw, .p, .num 1, .bool⟩,
  ⟨0x03, .s16, .ro, .v, .num 0, .any⟩,
  ⟨0x04, .bits16, .ro, .v, .num 0x0, .bits 0xFF00⟩,
  ⟨0x05, .u16, .ro, .v, .num 0x0, .any⟩,
  ⟨0x06, .bits16, .rc, .v, .num 0x0, .bits 0xFFFE⟩,
  ⟨0x07, .u16, .rc, .v, .num 0, .range 0 65535⟩]⟩

/-- 0x3050 SpectrumMonitor, 1 of them: R137 of spec/04_gnss_receive_chains.md. -/
def oSpectrumMonitor : Obj := ⟨0x3050, 1, [
  ⟨0x00, .u8, .ro, .f, .num 6, .range 6 6⟩,
  ⟨0x01, .bool, .rw, .v, .num 0, .bool⟩,
  ⟨0x02, .enum8, .rw, .v, .num 0, .enum 0 4⟩,
  ⟨0x03, .u16, .rw, .v, .num 16, .range 1 1024⟩,
  ⟨0x04, .u16, .rw, .v, .num 1000, .range 10 60000⟩,
  ⟨0x05, .enum8, .rw, .v, .num 0, .enum 0 1⟩,
  ⟨0x06, .u16, .rc, .v, .num 0, .range 0 65535⟩]⟩

/-- 0x3051 SpectrumStream, 1 of them: R137 of spec/04_gnss_receive_chains.md. -/
def oSpectrumStream : Obj := ⟨0x3051, 1, [
  ⟨0x00, .u8, .ro, .f, .num 4, .range 4 4⟩,
  ⟨0x01, (.octets 0), .ro, .v, .none, .any⟩,
  ⟨0x02, .u24, .ro, .v, .num 0, .range 0 16777215⟩,
  ⟨0x03, .bool, .rc, .v, .num 0, .bool⟩,
  ⟨0x04, .u16, .rc, .v, .num 0, .range 0 65535⟩]⟩

/-- 0x3060 AntennaRedundancy, 1 of them: R140 of spec/04_gnss_receive_chains.md. -/
def oAntennaRedundancy : Obj := ⟨0x3060, 1, [
  ⟨0x00, .u8, .ro, .f, .num 8, .range 8 8⟩,
  ⟨0x01, .enum8, .rw, .p, .num 0, .enum 0 3⟩,
  ⟨0x02, .enum8, .rw, .p, .num 0, .enum 0 1⟩,
  ⟨0x03, .bool, .rw, .p, .num 1, .bool⟩,
  ⟨0x04, .u16, .rw, .p, .num 600, .range 10 65535⟩,
  ⟨0x05, .u16, .rw, .p, .num 60, .range 10 3600⟩,
  ⟨0x06, .enum8, .ro, .v, .num 0, .enum 0 3⟩,
  ⟨0x07, .bits16, .rc, .v, .num 0x0, .bits 0xFFFE⟩,
  ⟨0x08, .u16, .rc, .v, .num 0, .range 0 65535⟩]⟩

/-- 0x3070 + s Subband, 10 of them: R119 of spec/04_gnss_receive_chains.md. -/
def oSubband : Obj := ⟨0x3070, 10, [
  ⟨0x00, .u8, .ro, .f, .num 5, .range 5 5⟩,
  ⟨0x01, .u32, .ro, .f, .per [1575420000, 1561098000, 1602000000, 1176450000, 1207140000, 1575420000, 1561098000, 1602000000, 1176450000, 1207140000], .any⟩,
  ⟨0x02, .u32, .ro, .f, .per [30690000, 30690000, 30690000, 61380000, 61380000, 30690000, 30690000, 30690000, 61380000, 61380000], .any⟩,
  ⟨0x03, .u32, .ro, .f, .per [24000000, 12000000, 12000000, 24000000, 24000000, 24000000, 12000000, 12000000, 24000000, 24000000], .any⟩,
  ⟨0x04, .dur64, .ro, .f, .factory, .any⟩,
  ⟨0x05, .s16, .ro, .f, .factory, .any⟩]⟩

/-- 0x3080 Erg, 1 of them: R176 of spec/05_signals_and_search.md. -/
def oErg : Obj := ⟨0x3080, 1, [
  ⟨0x00, .u8, .ro, .f, .num 17, .range 17 17⟩,
  ⟨0x01, .bool, .rw, .p, .num 1, .bool⟩,
  ⟨0x02, .bits16, .rw, .p, .num 0xFF, .bits 0xFF00⟩,
  ⟨0x03, .bool, .rw, .p, .num 1, .bool⟩,
  ⟨0x04, .s8, .rw, .p, .num 5, .range (-10) 60⟩,
  ⟨0x05, .u16, .rw, .p, .num 2000, .range 10 50000⟩,
  ⟨0x06, .u8, .rw, .p, .num 3, .range 2 9⟩,
  ⟨0x07, .u16, .rw, .p, .num 1000, .range 0 10000⟩,
  ⟨0x08, .u8, .rw, .p, .num 21, .range 10 30⟩,
  ⟨0x09, .u16, .ro, .v, .num 0, .any⟩,
  ⟨0x0A, .u32, .ro, .v, .num 0, .any⟩,
  ⟨0x0B, .u32, .ro, .v, .num 0, .any⟩,
  ⟨0x0C, .bits16, .rc, .v, .num 0x0, .bits 0xFFF0⟩,
  ⟨0x0D, .u16, .rc, .v, .num 0, .range 0 65535⟩,
  ⟨0x0E, .u16, .rc, .v, .num 0, .range 0 65535⟩,
  ⟨0x0F, .u16, .rc, .v, .num 0, .range 0 65535⟩,
  ⟨0x10, .u16, .rc, .v, .num 0, .range 0 65535⟩,
  ⟨0x11, .u8, .ro, .v, .num 0, .range 0 16⟩]⟩

/-- 0x3081 ErgResultStream, 1 of them: R178 of spec/05_signals_and_search.md. -/
def oErgResultStream : Obj := ⟨0x3081, 1, [
  ⟨0x00, .u8, .ro, .f, .num 4, .range 4 4⟩,
  ⟨0x01, (.octets 0), .ro, .v, .none, .any⟩,
  ⟨0x02, .u24, .ro, .v, .num 0, .range 0 16777215⟩,
  ⟨0x03, .bool, .rc, .v, .num 0, .bool⟩,
  ⟨0x04, .u16, .rc, .v, .num 0, .range 0 65535⟩]⟩

/-- 0x3082 SignalEnable, 1 of them: R154 of spec/05_signals_and_search.md. -/
def oSignalEnable : Obj := ⟨0x3082, 1, [
  ⟨0x00, .bits16, .rw, .p, .num 0xFFFF, .bits 0x0⟩]⟩

/-- 0x3090 + l ErgLane, 8 of them: R177 of spec/05_signals_and_search.md. -/
def oErgLane : Obj := ⟨0x3090, 8, [
  ⟨0x00, .u8, .ro, .f, .num 5, .range 5 5⟩,
  ⟨0x01, .enum8, .ro, .v, .num 0, .enum 0 3⟩,
  ⟨0x02, .u16, .ro, .v, .num 0xFFFF, .rangeOr 0 255 65535⟩,
  ⟨0x03, .enum8, .ro, .v, .num 0, .enum 0 1⟩,
  ⟨0x04, .u16, .ro, .v, .num 0, .range 0 65535⟩,
  ⟨0x05, .u32, .ro, .v, .num 0, .any⟩]⟩

/-- 0x3100 + e SearchEntry, 256 of them: R161 of spec/05_signals_and_search.md. -/
def oSearchEntry : Obj := ⟨0x3100, 256, [
  ⟨0x00, .u8, .ro, .f, .num 22, .range 22 22⟩,
  ⟨0x01, .enum8, .rw, .v, .num 0, .enum 0 2⟩,
  ⟨0x02, .enum8, .ro, .v, .num 0, .enum 0 1⟩,
  ⟨0x03, .enum8, .rw, .v, .num 0, .enum 0 15⟩,
  ⟨0x04, .u8, .rw, .v, .num 1, .range 0 202⟩,
  ⟨0x05, .enum8, .rw, .v, .num 2, .enum 0 2⟩,
  ⟨0x06, .enum8, .rw, .v, .num 0, .enum 0 5⟩,
  ⟨0x07, .u8, .rw, .v, .num 1, .range 1 100⟩,
  ⟨0x08, .u8, .rw, .v, .num 10, .range 1 255⟩,
  ⟨0x09, .u8, .rw, .v, .num 1, .range 0 3⟩,
  ⟨0x0A, .u16, .rw, .v, .num 1000, .range 10 65535⟩,
  ⟨0x0B, .s32, .rw, .v, .num 0, .range (-50000) 50000⟩,
  ⟨0x0C, .u16, .rw, .v, .num 5000, .range 0 50000⟩,
  ⟨0x0D, .u24, .rw, .v, .num 0, .range 0 20459⟩,
  ⟨0x0E, .u24, .rw, .v, .num 0, .range 0 20460⟩,
  ⟨0x0F, .enum8, .ro, .v, .num 0, .enum 0 4⟩,
  ⟨0x10, .enum8, .ro, .v, .num 0, .enum 0 8⟩,
  ⟨0x11, .u16, .ro, .v, .num 0, .any⟩,
  ⟨0x12, .enum8, .ro, .v, .num 0, .enum 0 5⟩,
  ⟨0x13, .u8, .ro, .v, .num 0, .range 1 100⟩,
  ⟨0x14, .u16, .ro, .v, .num 0, .range 0 65535⟩,
  ⟨0x15, .time96, .ro, .v, .num 0, .any⟩,
  ⟨0x16, .u16, .rc, .v, .num 0, .range 0 65535⟩]⟩

/-- 0x4000 Tracking, 1 of them: R215 of spec/06_tracking_slots.md. -/
def oTracking : Obj := ⟨0x4000, 1, [
  ⟨0x00, .u8, .ro, .f, .num 15, .range 15 15⟩,
  ⟨0x01, .bool, .rw, .p, .num 1, .bool⟩,
  ⟨0x02, .u16, .rw, .p, .num 2000, .range 500 10000⟩,
  ⟨0x03, .u16, .rw, .p, .num 300, .range 50 2000⟩,
  ⟨0x04, .u16, .rw, .p, .num 2000, .range 1000 60000⟩,
  ⟨0x05, .u16, .rw, .p, .num 4000, .range 1000 60000⟩,
  ⟨0x06, .u16, .rw, .p, .num 100, .range 20 5000⟩,
  ⟨0x07, .u16, .rw, .p, .num 20, .range 1 1000⟩,
  ⟨0x08, .u16, .rw, .p, .num 50, .range 1 1000⟩,
  ⟨0x09, .u16, .ro, .v, .num 0, .range 0 512⟩,
  ⟨0x0A, .u16, .ro, .v, .num 0, .range 0 512⟩,
  ⟨0x0B, .u16, .ro, .v, .num 0, .range 0 512⟩,
  ⟨0x0C, .bits16, .rc, .v, .num 0x0, .bits 0xFFF8⟩,
  ⟨0x0D, .u16, .rc, .v, .num 0, .range 0 65535⟩,
  ⟨0x0E, .u16, .rc, .v, .num 0, .range 0 65535⟩,
  ⟨0x0F, .u16, .rc, .v, .num 0, .range 0 65535⟩]⟩

/-- 0x4010 + v TrackingProfile, 16 of them: R216 of spec/06_tracking_slots.md. -/
def oTrackingProfile : Obj := ⟨0x4010, 16, [
  ⟨0x00, .u8, .ro, .f, .num 26, .range 26 26⟩,
  ⟨0x01, .enum8, .rw, .p, .num 0, .enum 0 2⟩,
  ⟨0x02, .u8, .rw, .p, .num 1, .range 1 2⟩,
  ⟨0x03, .u16, .rw, .p, .num 50, .range 1 1000⟩,
  ⟨0x04, .u8, .rw, .p, .per [16, 16, 32, 16, 32, 32, 16, 16, 32, 32, 32, 16, 16, 32, 16, 16], .range 2 64⟩,
  ⟨0x05, .u8, .rw, .p, .per [32, 64, 64, 64, 64, 64, 32, 64, 64, 64, 64, 32, 64, 64, 32, 32], .range 4 128⟩,
  ⟨0x06, .u8, .rw, .p, .num 6, .range 1 32⟩,
  ⟨0x07, .enum8, .rw, .p, .per [0, 1, 1, 1, 1, 1, 0, 1, 1, 0, 0, 0, 1, 1, 0, 0], .enum 0 2⟩,
  ⟨0x08, .u8, .rw, .p, .num 3, .range 2 3⟩,
  ⟨0x09, .u16, .rw, .p, .num 150, .range 10 500⟩,
  ⟨0x0A, .u8, .rw, .p, .num 2, .range 1 2⟩,
  ⟨0x0B, .u16, .rw, .p, .num 100, .range 1 200⟩,
  ⟨0x0C, .u16, .rw, .p, .num 200, .range 0 2000⟩,
  ⟨0x0D, .u16, .rw, .p, .per [20, 10, 20, 20, 20, 20, 20, 10, 20, 1, 10, 20, 10, 20, 20, 2], .range 1 100⟩,
  ⟨0x0E, .u16, .rw, .p, .num 800, .range 0 1000⟩,
  ⟨0x0F, .u16, .rw, .p, .num 150, .range 100 400⟩,
  ⟨0x10, .u16, .rw, .p, .num 1000, .range 20 1000⟩,
  ⟨0x11, .u16, .rw, .p, .num 20, .range 1 100⟩,
  ⟨0x12, .u16, .rw, .p, .num 5, .range 1 100⟩,
  ⟨0x13, .u16, .rw, .p, .num 165, .range 100 400⟩,
  ⟨0x14, .u16, .rw, .p, .num 70, .range 50 400⟩,
  ⟨0x15, .u16, .rw, .p, .num 1000, .range 100 10000⟩,
  ⟨0x16, .u16, .rw, .p, .num 500, .range 100 10000⟩,
  ⟨0x17, .u16, .rw, .p, .num 5000, .range 500 60000⟩,
  ⟨0x18, .u16, .rw, .p, .num 1500, .range 200 10000⟩,
  ⟨0x19, .u16, .rw, .p, .num 25, .range 5 50⟩,
  ⟨0x1A, .bool, .rw, .p, .num 1, .bool⟩]⟩

/-- 0x4200 + n Slot, 512 of them: R219 of spec/06_tracking_slots.md. -/
def oSlot : Obj := ⟨0x4200, 512, [
  ⟨0x00, .u8, .ro, .f, .num 26, .range 26 26⟩,
  ⟨0x01, .enum8, .ro, .v, .num 0, .enum 0 6⟩,
  ⟨0x02, .enum8, .ro, .v, .num 0, .enum 0 15⟩,
  ⟨0x03, .u8, .ro, .v, .num 0, .any⟩,
  ⟨0x04, .enum8, .ro, .v, .num 0, .enum 0 1⟩,
  ⟨0x05, .u8, .ro, .v, .num 0, .range 0 3⟩,
  ⟨0x06, .enum8, .ro, .v, .num 0, .enum 0 1⟩,
  ⟨0x07, .u48, .ro, .v, .num 0, .any⟩,
  ⟨0x08, .u16, .ro, .v, .num 0, .range 0 1799⟩,
  ⟨0x09, .s48, .ro, .v, .num 0, .any⟩,
  ⟨0x0A, .s64, .ro, .v, .num 0, .any⟩,
  ⟨0x0B, .u16, .ro, .v, .num 0, .range 0 700⟩,
  ⟨0x0C, .s16, .ro, .v, .num 0, .range (-1000) 1000⟩,
  ⟨0x0D, .u32, .ro, .v, .num 0, .any⟩,
  ⟨0x0E, .u16, .ro, .v, .num 0, .range 1 1000⟩,
  ⟨0x0F, .s16, .ro, .v, .num 0, .range (-1000) 1000⟩,
  ⟨0x10, .bits16, .ro, .v, .num 0x0, .bits 0xFE00⟩,
  ⟨0x11, .bits16, .rc, .v, .num 0x0, .bits 0xFFC0⟩,
  ⟨0x12, .u16, .rc, .v, .num 0, .range 0 65535⟩,
  ⟨0x13, .u16, .rc, .v, .num 0, .range 0 65535⟩,
  ⟨0x14, .u16, .rc, .v, .num 0, .range 0 65535⟩,
  ⟨0x15, .u16, .rc, .v, .num 0, .range 0 65535⟩,
  ⟨0x16, .u16, .rc, .v, .num 0, .range 0 65535⟩,
  ⟨0x17, .u16, .rc, .v, .num 0, .range 0 65535⟩,
  ⟨0x18, .time96, .ro, .v, .num 0, .any⟩,
  ⟨0x19, .enum8, .ro, .v, .num 0, .enum 0 10⟩,
  ⟨0x1A, .enum8, .ax, .v, .num 0, .enum 1 1⟩]⟩

/-- 0x5000 NavData, 1 of them: R250 of spec/07_navigation_data.md. -/
def oNavData : Obj := ⟨0x5000, 1, [
  ⟨0x00, .u8, .ro, .f, .num 14, .range 14 14⟩,
  ⟨0x01, .bits16, .rw, .p, .num 0xFFFF, .bits 0x0⟩,
  ⟨0x02, .bool, .rw, .p, .num 1, .bool⟩,
  ⟨0x03, .u16, .rw, .p, .num 2000, .range 0 18000⟩,
  ⟨0x04, .enum8, .rw, .p, .num 1, .enum 0 1⟩,
  ⟨0x05, .u32, .ro, .v, .num 0, .any⟩,
  ⟨0x06, .bits16, .rc, .v, .num 0x0, .bits 0xFFC0⟩,
  ⟨0x07, .u16, .rc, .v, .num 0, .range 0 65535⟩,
  ⟨0x08, .u16, .rc, .v, .num 0, .range 0 65535⟩,
  ⟨0x09, .u16, .rc, .v, .num 0, .range 0 65535⟩,
  ⟨0x0A, .u16, .rc, .v, .num 0, .range 0 65535⟩,
  ⟨0x0B, .u16, .rc, .v, .num 0, .range 0 65535⟩,
  ⟨0x0C, .u16, .rc, .v, .num 0, .range 0 65535⟩,
  ⟨0x0D, .u16, .rc, .v, .num 0, .range 0 65535⟩,
  ⟨0x0E, .u32, .ro, .v, .num 0, .any⟩]⟩

/-- 0x5001 NavMessageStream, 1 of them: R240 of spec/07_navigation_data.md. -/
def oNavMessageStream : Obj := ⟨0x5001, 1, [
  ⟨0x00, .u8, .ro, .f, .num 4, .range 4 4⟩,
  ⟨0x01, (.octets 0), .ro, .v, .none, .any⟩,
  ⟨0x02, .u24, .ro, .v, .num 0, .range 0 16777215⟩,
  ⟨0x03, .bool, .rc, .v, .num 0, .bool⟩,
  ⟨0x04, .u16, .rc, .v, .num 0, .range 0 65535⟩]⟩

/-- 0x5010 Measurement, 1 of them: R258 of spec/08_measurements_and_time_solution.md. -/
def oMeasurement : Obj := ⟨0x5010, 1, [
  ⟨0x00, .u8, .ro, .f, .num 8, .range 8 8⟩,
  ⟨0x01, .u16, .rw, .p, .num 1000, .oneOf [20, 50, 100, 200, 500, 1000]⟩,
  ⟨0x02, .s8, .rw, .p, .num 10, .range (-10) 60⟩,
  ⟨0x03, .u16, .rw, .p, .num 250, .range 70 400⟩,
  ⟨0x04, .u16, .rw, .p, .num 2000, .range 0 60000⟩,
  ⟨0x05, .bool, .rw, .v, .num 0, .bool⟩,
  ⟨0x06, .u32, .ro, .v, .num 0, .any⟩,
  ⟨0x07, .bits16, .rc, .v, .num 0x0, .bits 0xFFFE⟩,
  ⟨0x08, .u16, .rc, .v, .num 0, .range 0 65535⟩]⟩

/-- 0x5011 MeasStream, 1 of them: R263 of spec/08_measurements_and_time_solution.md. -/
def oMeasStream : Obj := ⟨0x5011, 1, [
  ⟨0x00, .u8, .ro, .f, .num 4, .range 4 4⟩,
  ⟨0x01, (.octets 0), .ro, .v, .none, .any⟩,
  ⟨0x02, .u24, .ro, .v, .num 0, .range 0 16777215⟩,
  ⟨0x03, .bool, .rc, .v, .num 0, .bool⟩,
  ⟨0x04, .u16, .rc, .v, .num 0, .range 0 65535⟩]⟩

/-- 0x5020 TimeSolution, 1 of them: R278 of spec/08_measurements_and_time_solution.md. -/
def oTimeSolution : Obj := ⟨0x5020, 1, [
  ⟨0x00, .u8, .ro, .f, .num 24, .range 24 24⟩,
  ⟨0x01, .bool, .rw, .p, .num 1, .bool⟩,
  ⟨0x02, .enum8, .rw, .p, .num 0, .enum 0 2⟩,
  ⟨0x03, .u8, .rw, .p, .num 4, .range 1 32⟩,
  ⟨0x04, .u8, .rw, .p, .num 4, .range 2 9⟩,
  ⟨0x05, .u8, .rw, .p, .num 3, .range 0 8⟩,
  ⟨0x06, .u32, .rw, .p, .num 0x186A0, .range 1000 1000000⟩,
  ⟨0x07, .u8, .rw, .p, .num 10, .range 1 120⟩,
  ⟨0x08, .u24, .rw, .p, .num 1000, .range 0 16777215⟩,
  ⟨0x09, .enum8, .ro, .v, .num 0, .enum 0 4⟩,
  ⟨0x0A, .dur64, .ro, .v, .num 0, .any⟩,
  ⟨0x0B, .s48, .ro, .v, .num 0, .any⟩,
  ⟨0x0C, .u32, .ro, .v, .num 0, .any⟩,
  ⟨0x0D, .u16, .ro, .v, .num 0, .any⟩,
  ⟨0x0E, .u8, .ro, .v, .num 0, .range 0 255⟩,
  ⟨0x0F, .u8, .ro, .v, .num 0, .range 0 255⟩,
  ⟨0x10, .u8, .ro, .v, .num 0, .range 0 8⟩,
  ⟨0x11, .u32, .ro, .v, .num 0, .any⟩,
  ⟨0x12, .time96, .ro, .v, .num 0, .any⟩,
  ⟨0x13, .bool, .ro, .v, .num 0, .bool⟩,
  ⟨0x14, .bits16, .rc, .v, .num 0x0, .bits 0xFFE0⟩,
  ⟨0x15, .u16, .rc, .v, .num 0, .range 0 65535⟩,
  ⟨0x16, .u16, .rc, .v, .num 0, .range 0 65535⟩,
  ⟨0x17, .u16, .rc, .v, .num 0, .range 0 65535⟩,
  ⟨0x18, .u16, .rc, .v, .num 0, .range 0 65535⟩]⟩

/-- 0x5021 Trust, 1 of them: R280 of spec/08_measurements_and_time_solution.md. -/
def oTrust : Obj := ⟨0x5021, 1, [
  ⟨0x00, .u8, .ro, .f, .num 10, .range 10 10⟩,
  ⟨0x01, .enum8, .ro, .v, .num 0, .enum 0 1⟩,
  ⟨0x02, .u32, .rw, .p, .num 50000, .range 1000 10000000⟩,
  ⟨0x03, .u16, .rw, .p, .num 10, .range 1 600⟩,
  ⟨0x04, .u16, .rw, .p, .num 60, .range 10 3600⟩,
  ⟨0x05, .dur64, .ro, .v, .num 0, .any⟩,
  ⟨0x06, .bits16, .rc, .v, .num 0x0, .bits 0xFFF0⟩,
  ⟨0x07, .u16, .rc, .v, .num 0, .range 0 65535⟩,
  ⟨0x08, .u16, .rc, .v, .num 0, .range 0 65535⟩,
  ⟨0x09, .u16, .rc, .v, .num 0, .range 0 65535⟩,
  ⟨0x0A, .u16, .rc, .v, .num 0, .range 0 65535⟩]⟩

/-- 0x5030 Utc, 1 of them: R288 of spec/08_measurements_and_time_solution.md. -/
def oUtc : Obj := ⟨0x5030, 1, [
  ⟨0x00, .u8, .ro, .f, .num 11, .range 11 11⟩,
  ⟨0x01, .s16, .ro, .p, .num 18, .range (-100) 200⟩,
  ⟨0x02, .enum8, .ro, .v, .num 0, .enum 0 3⟩,
  ⟨0x03, .bool, .ro, .v, .num 0, .bool⟩,
  ⟨0x04, .enum8, .ro, .p, .num 0, .enum 0 2⟩,
  ⟨0x05, .time96, .ro, .p, .num 0, .any⟩,
  ⟨0x06, .time96, .ro, .p, .num 0, .any⟩,
  ⟨0x07, (.octets 15), .ax, .v, .none, .any⟩,
  ⟨0x08, .dur64, .ro, .v, .num 0, .any⟩,
  ⟨0x09, .bits16, .rc, .v, .num 0x0, .bits 0xFFFC⟩,
  ⟨0x0A, .u16, .rc, .v, .num 0, .range 0 65535⟩,
  ⟨0x0B, .u16, .rc, .v, .num 0, .range 0 65535⟩]⟩

/-- 0x5040 SystemOffsets, 1 of them: R278 of spec/08_measurements_and_time_solution.md. -/
def oSystemOffsets : Obj := ⟨0x5040, 1, [
  ⟨0x00, .u8, .ro, .f, .num 8, .range 8 8⟩,
  ⟨0x01, .enum8, .rw, .p, .num 0, .enum 0 1⟩,
  ⟨0x02, .dur64, .ro, .v, .num 0, .any⟩,
  ⟨0x03, .dur64, .ro, .v, .num 0, .any⟩,
  ⟨0x04, .dur64, .ro, .v, .num 0, .any⟩,
  ⟨0x05, .dur64, .ro, .v, .num 0, .any⟩,
  ⟨0x06, .dur64, .ro, .v, .num 0, .any⟩,
  ⟨0x07, .dur64, .ro, .v, .num 0, .any⟩,
  ⟨0x08, .bits16, .ro, .v, .num 0x0, .bits 0xF000⟩]⟩

/-- 0x5050 + v SignalBias, 16 of them: R267 of spec/08_measurements_and_time_solution.md. -/
def oSignalBias : Obj := ⟨0x5050, 16, [
  ⟨0x00, .u8, .ro, .f, .num 3, .range 3 3⟩,
  ⟨0x01, .dur64, .ro, .f, .factory, .any⟩,
  ⟨0x02, .dur64, .rw, .p, .num 0, .range (-6553600) 6553600⟩,
  ⟨0x03, .bool, .rw, .p, .per [1, 1, 1, 1, 1, 1, 1, 1, 1, 1, 1, 1, 1, 1, 1, 0], .bool⟩]⟩

/-- 0x5100 + a AntennaPosition, 2 of them: R271 of spec/08_measurements_and_time_solution.md. -/
def oAntennaPosition : Obj := ⟨0x5100, 2, [
  ⟨0x00, .u8, .ro, .f, .num 13, .range 13 13⟩,
  ⟨0x01, .enum8, .rw, .p, .num 0, .enum 0 1⟩,
  ⟨0x02, .s48, .rw, .p, .num 0, .range (-10000000000) 10000000000⟩,
  ⟨0x03, .s48, .rw, .p, .num 0, .range (-10000000000) 10000000000⟩,
  ⟨0x04, .s48, .rw, .p, .num 0, .range (-10000000000) 10000000000⟩,
  ⟨0x05, .u32, .rw, .p, .num 0x5F5E100, .range 1 100000000⟩,
  ⟨0x06, .u32, .rw, .p, .num 3600, .range 60 604800⟩,
  ⟨0x07, .u32, .rw, .p, .num 500, .range 10 100000⟩,
  ⟨0x08, .u32, .rw, .p, .num 86400, .range 600 2592000⟩,
  ⟨0x09, .enum8, .ro, .v, .num 0, .enum 0 2⟩,
  ⟨0x0A, .u32, .ro, .v, .num 0, .any⟩,
  ⟨0x0B, .u32, .ro, .v, .num 0, .any⟩,
  ⟨0x0C, .bits16, .rc, .v, .num 0x0, .bits 0xFFFC⟩,
  ⟨0x0D, .u16, .rc, .v, .num 0, .range 0 65535⟩]⟩

/-- 0x5200 + n SlotNav, 512 of them: R251 of spec/07_navigation_data.md. -/
def oSlotNav : Obj := ⟨0x5200, 512, [
  ⟨0x00, .u8, .ro, .f, .num 6, .range 6 6⟩,
  ⟨0x01, .enum8, .ro, .v, .num 0, .enum 0 3⟩,
  ⟨0x02, .enum8, .ro, .v, .num 0, .enum 0 2⟩,
  ⟨0x03, .u8, .ro, .v, .num 0, .range 0 4⟩,
  ⟨0x04, .time96, .ro, .v, .num 0, .any⟩,
  ⟨0x05, .u32, .ro, .v, .num 0, .any⟩,
  ⟨0x06, .u16, .rc, .v, .num 0, .range 0 65535⟩]⟩

/-- 0x5400 + e StoreEntry, 256 of them: R241 of spec/07_navigation_data.md. -/
def oStoreEntry : Obj := ⟨0x5400, 256, [
  ⟨0x00, .u8, .ro, .f, .num 12, .range 12 12⟩,
  ⟨0x01, .enum8, .ro, .p, .num 0, .enum 0 4⟩,
  ⟨0x02, .enum8, .ro, .p, .num 0, .enum 0 15⟩,
  ⟨0x03, .u8, .ro, .p, .num 0, .any⟩,
  ⟨0x04, .enum8, .ro, .p, .num 0, .enum 0 5⟩,
  ⟨0x05, .enum8, .ro, .p, .num 0, .enum 0 1⟩,
  ⟨0x06, .u16, .ro, .p, .num 0, .range 0 65535⟩,
  ⟨0x07, .time96, .ro, .p, .num 0, .any⟩,
  ⟨0x08, .time96, .ro, .p, .num 0, .any⟩,
  ⟨0x09, .u8, .ro, .p, .num 0, .range 0 255⟩,
  ⟨0x0A, .bits16, .ro, .p, .num 0x0, .bits 0xFFF8⟩,
  ⟨0x0B, .time96, .ro, .p, .num 0, .any⟩,
  ⟨0x0C, (.octets 192), .ro, .p, .num 0, .any⟩]⟩

/-- 0x6000 Lake, 1 of them: R393 of spec/11_lake_time.md. -/
def oLake : Obj := ⟨0x6000, 1, [
  ⟨0x00, .u8, .ro, .f, .num 14, .range 14 14⟩,
  ⟨0x01, .bool, .rw, .p, .num 1, .bool⟩,
  ⟨0x02, .bool, .ro, .v, .num 0, .bool⟩,
  ⟨0x03, .u32, .ro, .v, .num 0, .any⟩,
  ⟨0x04, .time96, .ro, .v, .num 0, .any⟩,
  ⟨0x05, .dur64, .ro, .v, .num 0, .any⟩,
  ⟨0x06, .s48, .ro, .v, .num 0, .any⟩,
  ⟨0x07, .u32, .ro, .v, .num 0xFFFFFFFF, .any⟩,
  ⟨0x08, .u32, .ro, .v, .num 0xFFFFFFFF, .any⟩,
  ⟨0x09, .bool, .ro, .v, .num 0, .bool⟩,
  ⟨0x0A, .bool, .ro, .v, .num 0, .bool⟩,
  ⟨0x0B, .u16, .ro, .v, .num 0, .any⟩,
  ⟨0x0C, .bits16, .rc, .v, .num 0x0, .bits 0xFFFC⟩,
  ⟨0x0D, .u16, .rc, .v, .num 0, .range 0 65535⟩,
  ⟨0x0E, .u16, .rc, .v, .num 0, .range 0 65535⟩]⟩

/-- 0x6001 LakeRoot, 1 of them: R393 of spec/11_lake_time.md. -/
def oLakeRoot : Obj := ⟨0x6001, 1, [
  ⟨0x00, .u8, .ro, .f, .num 14, .range 14 14⟩,
  ⟨0x01, .enum8, .ro, .v, .num 0, .enum 0 3⟩,
  ⟨0x02, .u64, .ro, .v, .num 0, .any⟩,
  ⟨0x03, .u16, .ro, .v, .num 0, .range 0 4094⟩,
  ⟨0x04, .u16, .ro, .v, .num 0, .range 0 4094⟩,
  ⟨0x05, .s48, .ro, .v, .num 0, .any⟩,
  ⟨0x06, .dur64, .ro, .v, .num 0, .any⟩,
  ⟨0x07, .u32, .ro, .v, .num 0, .any⟩,
  ⟨0x08, .time96, .ro, .v, .num 0, .any⟩,
  ⟨0x09, .bits16, .rc, .v, .num 0x0, .bits 0xFFE0⟩,
  ⟨0x0A, .u16, .rc, .v, .num 0, .range 0 65535⟩,
  ⟨0x0B, .u16, .rc, .v, .num 0, .range 0 65535⟩,
  ⟨0x0C, .u16, .rc, .v, .num 0, .range 0 65535⟩,
  ⟨0x0D, .u16, .rc, .v, .num 0, .range 0 65535⟩,
  ⟨0x0E, .u16, .rc, .v, .num 0, .range 0 65535⟩]⟩

/-- 0x6010 + p CvPartner, 4 of them: R393 of spec/11_lake_time.md. -/
def oCvPartner : Obj := ⟨0x6010, 4, [
  ⟨0x00, .u8, .ro, .f, .num 8, .range 8 8⟩,
  ⟨0x01, .u16, .ro, .v, .num 0x0, .range 0 4094⟩,
  ⟨0x02, .enum8, .ro, .v, .num 0, .enum 0 2⟩,
  ⟨0x03, .u16, .ro, .v, .num 0, .range 0 65535⟩,
  ⟨0x04, .u8, .ro, .v, .num 0, .range 0 255⟩,
  ⟨0x05, .dur64, .ro, .v, .num 0, .any⟩,
  ⟨0x06, .u32, .ro, .v, .num 0, .any⟩,
  ⟨0x07, .bits16, .rc, .v, .num 0x0, .bits 0xFFFE⟩,
  ⟨0x08, .u16, .rc, .v, .num 0, .range 0 65535⟩]⟩

/-- 0x6020 AidService, 1 of them: R393 of spec/11_lake_time.md. -/
def oAidService : Obj := ⟨0x6020, 1, [
  ⟨0x00, .u8, .ro, .f, .num 9, .range 9 9⟩,
  ⟨0x01, .bool, .rw, .p, .num 1, .bool⟩,
  ⟨0x02, .u16, .rw, .p, .num 300, .range 200 500⟩,
  ⟨0x03, .u8, .ro, .v, .num 0, .range 0 16⟩,
  ⟨0x04, .u16, .ro, .v, .num 0, .range 0 65535⟩,
  ⟨0x05, .u16, .ro, .v, .num 0, .range 0 128⟩,
  ⟨0x06, .bits16, .rc, .v, .num 0x0, .bits 0xFFFC⟩,
  ⟨0x07, .u16, .rc, .v, .num 0, .range 0 65535⟩,
  ⟨0x08, .u16, .rc, .v, .num 0, .range 0 65535⟩,
  ⟨0x09, .u16, .ro, .v, .num 0, .range 0 65535⟩]⟩

/-- 0x7000 Network, 1 of them: R358 of spec/10_fabric_network.md. -/
def oNetwork : Obj := ⟨0x7000, 1, [
  ⟨0x00, .u8, .ro, .f, .num 26, .range 26 26⟩,
  ⟨0x01, .u16, .ro, .p, .num 0x0, .range 0 4094⟩,
  ⟨0x02, (.octets 8), .ro, .f, .factory, .any⟩,
  ⟨0x03, .u8, .rw, .p, .num 128, .range 0 255⟩,
  ⟨0x04, .enum8, .ro, .v, .num 0, .enum 0 4⟩,
  ⟨0x05, .u16, .ro, .v, .num 0x0, .range 0 4094⟩,
  ⟨0x06, .u16, .ro, .v, .num 0x0, .range 0 4094⟩,
  ⟨0x07, .u16, .ro, .v, .num 0x0, .range 0 4094⟩,
  ⟨0x08, .u16, .ro, .v, .num 0, .range 0 4094⟩,
  ⟨0x09, .bool, .ro, .v, .num 0, .bool⟩,
  ⟨0x0A, .u16, .rw, .p, .num 30, .range 1 3650⟩,
  ⟨0x0B, .u16, .rw, .p, .num 20, .range 5 1000⟩,
  ⟨0x0C, .u16, .ro, .v, .num 0x0, .any⟩,
  ⟨0x0D, .u16, .ro, .p, .num 0, .range 0 65535⟩,
  ⟨0x0E, .u16, .ro, .v, .num 0, .range 0 65535⟩,
  ⟨0x0F, .bits16, .rc, .v, .num 0x0, .bits 0xFFC0⟩,
  ⟨0x10, .u16, .rc, .v, .num 0, .range 0 65535⟩,
  ⟨0x11, .u16, .rc, .v, .num 0, .range 0 65535⟩,
  ⟨0x12, .u16, .rc, .v, .num 0, .range 0 65535⟩,
  ⟨0x13, .u16, .rc, .v, .num 0, .range 0 65535⟩,
  ⟨0x14, .u16, .rc, .v, .num 0, .range 0 65535⟩,
  ⟨0x15, .u16, .rc, .v, .num 0, .range 0 65535⟩,
  ⟨0x16, .u16, .rc, .v, .num 0, .range 0 65535⟩,
  ⟨0x17, .u16, .rc, .v, .num 0, .range 0 65535⟩,
  ⟨0x18, .u16, .rc, .v, .num 0, .range 0 65535⟩,
  ⟨0x19, .u16, .rc, .v, .num 0, .range 0 65535⟩,
  ⟨0x1A, .u16, .rc, .v, .num 0, .range 0 65535⟩]⟩

/-- 0x7020 PtpClock, 1 of them: R319 of spec/09_fabric_ports.md. -/
def oPtpClock : Obj := ⟨0x7020, 1, [
  ⟨0x00, .u8, .ro, .f, .num 10, .range 10 10⟩,
  ⟨0x01, .bool, .rw, .p, .num 0, .bool⟩,
  ⟨0x02, .enum8, .rw, .p, .num 0, .enum 0 2⟩,
  ⟨0x03, .u8, .rw, .p, .num 24, .range 0 127⟩,
  ⟨0x04, .u8, .rw, .p, .num 128, .range 0 255⟩,
  ⟨0x05, .u8, .rw, .p, .num 128, .range 1 255⟩,
  ⟨0x06, (.octets 8), .ro, .f, .factory, .any⟩,
  ⟨0x07, .u8, .ro, .v, .num 248, .any⟩,
  ⟨0x08, .u8, .ro, .v, .num 0xFE, .any⟩,
  ⟨0x09, .u32, .rw, .p, .num 0xF4240, .range 1000 4294967294⟩,
  ⟨0x0A, .s16, .ro, .v, .num 0, .any⟩]⟩

/-- 0x7030 Messages, 1 of them: R358 of spec/10_fabric_network.md. -/
def oMessages : Obj := ⟨0x7030, 1, [
  ⟨0x00, .u8, .ro, .f, .num 20, .range 20 20⟩,
  ⟨0x01, (.octets 1064), .ax, .v, .none, .any⟩,
  ⟨0x02, .u32, .rw, .p, .num 3600, .range 1 86400⟩,
  ⟨0x03, .u32, .rw, .p, .num 10000, .range 100 86400000⟩,
  ⟨0x04, .u16, .rw, .p, .num 20, .range 5 1000⟩,
  ⟨0x05, .u16, .rw, .p, .num 60, .range 5 3600⟩,
  ⟨0x06, .u16, .rw, .p, .num 1000, .range 100 60000⟩,
  ⟨0x07, .u32, .ro, .v, .num 0x300000, .any⟩,
  ⟨0x08, .u24, .ro, .v, .num 0, .range 0 65536⟩,
  ⟨0x09, .u16, .ro, .v, .num 0, .range 0 4096⟩,
  ⟨0x0A, .u32, .ro, .p, .num 0, .any⟩,
  ⟨0x0B, .u48, .ro, .v, .num 0, .any⟩,
  ⟨0x0C, .u48, .ro, .v, .num 0, .any⟩,
  ⟨0x0D, .bits16, .rc, .v, .num 0x0, .bits 0xFF80⟩,
  ⟨0x0E, .u16, .rc, .v, .num 0, .range 0 65535⟩,
  ⟨0x0F, .u16, .rc, .v, .num 0, .range 0 65535⟩,
  ⟨0x10, .u16, .rc, .v, .num 0, .range 0 65535⟩,
  ⟨0x11, .u16, .rc, .v, .num 0, .range 0 65535⟩,
  ⟨0x12, .u16, .rc, .v, .num 0, .range 0 65535⟩,
  ⟨0x13, .u16, .rc, .v, .num 0, .range 0 65535⟩,
  ⟨0x14, .u16, .rc, .v, .num 0, .range 0 65535⟩]⟩

/-- 0x7031 MessageDeliveryStream, 1 of them: R358 of spec/10_fabric_network.md. -/
def oMessageDeliveryStream : Obj := ⟨0x7031, 1, [
  ⟨0x00, .u8, .ro, .f, .num 4, .range 4 4⟩,
  ⟨0x01, (.octets 0), .ro, .v, .none, .any⟩,
  ⟨0x02, .u24, .ro, .v, .num 0, .range 0 16777215⟩,
  ⟨0x03, .bool, .rc, .v, .num 0, .bool⟩,
  ⟨0x04, .u16, .rc, .v, .num 0, .range 0 65535⟩]⟩

/-- 0x7032 MessageResultStream, 1 of them: R358 of spec/10_fabric_network.md. -/
def oMessageResultStream : Obj := ⟨0x7032, 1, [
  ⟨0x00, .u8, .ro, .f, .num 4, .range 4 4⟩,
  ⟨0x01, (.octets 0), .ro, .v, .none, .any⟩,
  ⟨0x02, .u24, .ro, .v, .num 0, .range 0 16777215⟩,
  ⟨0x03, .bool, .rc, .v, .num 0, .bool⟩,
  ⟨0x04, .u16, .rc, .v, .num 0, .range 0 65535⟩]⟩

/-- 0x7050 Remote, 1 of them: R358 of spec/10_fabric_network.md. -/
def oRemote : Obj := ⟨0x7050, 1, [
  ⟨0x00, .u8, .ro, .f, .num 5, .range 5 5⟩,
  ⟨0x01, (.octets 1026), .ax, .v, .none, .any⟩,
  ⟨0x02, .u16, .rw, .p, .num 20, .range 5 1000⟩,
  ⟨0x03, .u16, .ro, .v, .num 0, .range 0 256⟩,
  ⟨0x04, .bits16, .rc, .v, .num 0x0, .bits 0xFFFE⟩,
  ⟨0x05, .u16, .rc, .v, .num 0, .range 0 65535⟩]⟩

/-- 0x7051 RemoteReplyStream, 1 of them: R358 of spec/10_fabric_network.md. -/
def oRemoteReplyStream : Obj := ⟨0x7051, 1, [
  ⟨0x00, .u8, .ro, .f, .num 4, .range 4 4⟩,
  ⟨0x01, (.octets 0), .ro, .v, .none, .any⟩,
  ⟨0x02, .u24, .ro, .v, .num 0, .range 0 16777215⟩,
  ⟨0x03, .bool, .rc, .v, .num 0, .bool⟩,
  ⟨0x04, .u16, .rc, .v, .num 0, .range 0 65535⟩]⟩

/-- 0x7060 LaunchQueue, 1 of them: R322 of spec/09_fabric_ports.md. -/
def oLaunchQueue : Obj := ⟨0x7060, 1, [
  ⟨0x00, .u8, .ro, .f, .num 6, .range 6 6⟩,
  ⟨0x01, (.octets 1000), .ax, .v, .none, .any⟩,
  ⟨0x02, .u16, .ro, .v, .num 0, .range 0 2048⟩,
  ⟨0x03, .bits16, .rc, .v, .num 0x0, .bits 0xFFF8⟩,
  ⟨0x04, .u16, .rc, .v, .num 0, .range 0 65535⟩,
  ⟨0x05, .u16, .rc, .v, .num 0, .range 0 65535⟩,
  ⟨0x06, .u16, .rc, .v, .num 0, .range 0 65535⟩]⟩

/-- 0x7061 LaunchResultStream, 1 of them: R322 of spec/09_fabric_ports.md. -/
def oLaunchResultStream : Obj := ⟨0x7061, 1, [
  ⟨0x00, .u8, .ro, .f, .num 4, .range 4 4⟩,
  ⟨0x01, (.octets 0), .ro, .v, .none, .any⟩,
  ⟨0x02, .u24, .ro, .v, .num 0, .range 0 16777215⟩,
  ⟨0x03, .bool, .rc, .v, .num 0, .bool⟩,
  ⟨0x04, .u16, .rc, .v, .num 0, .range 0 65535⟩]⟩

/-- 0x7080 + k OutChannel, 64 of them: R358 of spec/10_fabric_network.md. -/
def oOutChannel : Obj := ⟨0x7080, 64, [
  ⟨0x00, .u8, .ro, .f, .num 9, .range 9 9⟩,
  ⟨0x01, .u16, .rw, .p, .num 0x0, .range 0 4094⟩,
  ⟨0x02, .u16, .rw, .p, .num 0x0, .range 0 4094⟩,
  ⟨0x03, .enum8, .rw, .p, .num 0, .enum 0 1⟩,
  ⟨0x04, .enum8, .ax, .v, .num 0, .enum 1 2⟩,
  ⟨0x05, .enum8, .ro, .p, .num 0, .enum 0 4⟩,
  ⟨0x06, .u48, .ro, .p, .num 1, .any⟩,
  ⟨0x07, .u16, .ro, .v, .num 0, .range 0 65535⟩,
  ⟨0x08, .time96, .ro, .p, .num 0, .any⟩,
  ⟨0x09, .u16, .ro, .v, .num 0x0, .any⟩]⟩

/-- 0x7100 + n Port, 32 of them: R314 of spec/09_fabric_ports.md. -/
def oPort : Obj := ⟨0x7100, 32, [
  ⟨0x00, .u8, .ro, .f, .num 27, .range 27 27⟩,
  ⟨0x01, .enum8, .rw, .p, .num 3, .enum 0 3⟩,
  ⟨0x02, .enum8, .ro, .v, .num 0, .enum 0 6⟩,
  ⟨0x03, .enum8, .ro, .v, .num 0, .enum 0 3⟩,
  ⟨0x04, .bool, .rw, .p, .num 1, .bool⟩,
  ⟨0x05, .u16, .rw, .p, .num 800, .stepped 400 1200 50⟩,
  ⟨0x06, .u8, .rw, .p, .num 4, .range 0 12⟩,
  ⟨0x07, .bits16, .rw, .p, .num 0x0, .bits 0xFFFC⟩,
  ⟨0x08, (.octets 6), .ro, .f, .factory, .any⟩,
  ⟨0x09, .u16, .ro, .v, .num 0xFFFF, .any⟩,
  ⟨0x0A, .u8, .ro, .v, .num 255, .rangeOr 0 31 255⟩,
  ⟨0x0B, .dur64, .ro, .f, .factory, .any⟩,
  ⟨0x0C, .dur64, .ro, .f, .factory, .any⟩,
  ⟨0x0D, .dur64, .ro, .f, .factory, .any⟩,
  ⟨0x0E, .dur64, .ro, .f, .factory, .any⟩,
  ⟨0x0F, .bits16, .rc, .v, .num 0x0, .bits 0xFF80⟩,
  ⟨0x10, .u16, .rc, .v, .num 0, .range 0 65535⟩,
  ⟨0x11, .u16, .rc, .v, .num 0, .range 0 65535⟩,
  ⟨0x12, .u16, .rc, .v, .num 0, .range 0 65535⟩,
  ⟨0x13, .u16, .rc, .v, .num 0, .range 0 65535⟩,
  ⟨0x14, .u16, .rc, .v, .num 0, .range 0 65535⟩,
  ⟨0x15, .u16, .rc, .v, .num 0, .range 0 65535⟩,
  ⟨0x16, .u16, .rc, .v, .num 0, .range 0 65535⟩,
  ⟨0x17, .u8, .ro, .v, .num 0, .range 0 16⟩,
  ⟨0x18, .u32, .ro, .v, .num 0, .any⟩,
  ⟨0x19, .u48, .ro, .v, .num 0, .any⟩,
  ⟨0x1A, .u48, .ro, .v, .num 0, .any⟩,
  ⟨0x1B, .enum8, .ax, .v, .num 0, .enum 1 1⟩]⟩

/-- 0x7140 + n PtpPort, 32 of them: R319 of spec/09_fabric_ports.md. -/
def oPtpPort : Obj := ⟨0x7140, 32, [
  ⟨0x00, .u8, .ro, .f, .num 14, .range 14 14⟩,
  ⟨0x01, .bool, .rw, .p, .num 0, .bool⟩,
  ⟨0x02, .enum8, .rw, .p, .num 0, .enum 0 2⟩,
  ⟨0x03, .enum8, .rw, .p, .num 0, .enum 0 1⟩,
  ⟨0x04, .s8, .rw, .p, .num 252, .range (-7) 0⟩,
  ⟨0x05, .s8, .rw, .p, .num 252, .range (-7) 0⟩,
  ⟨0x06, .s8, .rw, .p, .num 253, .range (-3) 3⟩,
  ⟨0x07, .u8, .rw, .p, .num 3, .range 2 10⟩,
  ⟨0x08, .enum8, .rw, .p, .num 0, .enum 0 1⟩,
  ⟨0x09, .enum8, .ro, .v, .num 0, .enum 0 5⟩,
  ⟨0x0A, .dur64, .ro, .v, .num 0, .any⟩,
  ⟨0x0B, .dur64, .ro, .v, .num 0, .any⟩,
  ⟨0x0C, .bits16, .rc, .v, .num 0x0, .bits 0xFFFC⟩,
  ⟨0x0D, .u16, .rc, .v, .num 0, .range 0 65535⟩,
  ⟨0x0E, .u16, .rc, .v, .num 0, .range 0 65535⟩]⟩

/-- 0x7180 + n LinkTiming, 32 of them: R312 of spec/09_fabric_ports.md. -/
def oLinkTiming : Obj := ⟨0x7180, 32, [
  ⟨0x00, .u8, .ro, .f, .num 15, .range 15 15⟩,
  ⟨0x01, .enum8, .rw, .p, .num 0, .enum 0 1⟩,
  ⟨0x02, .dur64, .rw, .p, .num 0, .range (-65536000) 65536000⟩,
  ⟨0x03, .dur64, .ro, .p, .num 0, .any⟩,
  ⟨0x04, .u24, .ro, .p, .num 0, .any⟩,
  ⟨0x05, .u16, .rw, .p, .num 3600, .range 600 65535⟩,
  ⟨0x06, .dur64, .ro, .v, .num 0, .any⟩,
  ⟨0x07, .dur64, .ro, .v, .num 0, .any⟩,
  ⟨0x08, .dur64, .ro, .v, .num 0, .any⟩,
  ⟨0x09, .u64, .ro, .v, .num 0, .any⟩,
  ⟨0x0A, .u16, .rw, .p, .num 1000, .range 10 65535⟩,
  ⟨0x0B, .bits16, .rc, .v, .num 0x0, .bits 0xFFF0⟩,
  ⟨0x0C, .u16, .rc, .v, .num 0, .range 0 65535⟩,
  ⟨0x0D, .u16, .rc, .v, .num 0, .range 0 65535⟩,
  ⟨0x0E, .u16, .rc, .v, .num 0, .range 0 65535⟩,
  ⟨0x0F, .u16, .rc, .v, .num 0, .range 0 65535⟩]⟩

/-- 0x8000 Reader, 1 of them: R503 of spec/15_dowser_reader.md. -/
def oReader : Obj := ⟨0x8000, 1, [
  ⟨0x00, .u8, .ro, .f, .num 19, .range 19 19⟩,
  ⟨0x01, .bool, .rw, .p, .num 1, .bool⟩,
  ⟨0x02, .enum8, .ro, .v, .num 0, .enum 0 4⟩,
  ⟨0x03, .enum8, .ro, .v, .num 0, .enum 0 4⟩,
  ⟨0x04, .enum8, .ax, .v, .num 0, .enum 1 1⟩,
  ⟨0x05, .s16, .ro, .v, .num 0, .any⟩,
  ⟨0x06, .bool, .ro, .v, .num 0, .bool⟩,
  ⟨0x07, .u8, .rw, .p, .num 24, .range 4 80⟩,
  ⟨0x08, .u16, .ro, .v, .num 0x0, .any⟩,
  ⟨0x09, .bits16, .rc, .v, .num 0x0, .bits 0xFC00⟩,
  ⟨0x0A, .u16, .rc, .v, .num 0, .range 0 65535⟩,
  ⟨0x0B, .u16, .rc, .v, .num 0, .range 0 65535⟩,
  ⟨0x0C, .u16, .rc, .v, .num 0, .range 0 65535⟩,
  ⟨0x0D, .u16, .rc, .v, .num 0, .range 0 65535⟩,
  ⟨0x0E, .u16, .rc, .v, .num 0, .range 0 65535⟩,
  ⟨0x0F, .u16, .rc, .v, .num 0, .range 0 65535⟩,
  ⟨0x10, .u16, .rc, .v, .num 0, .range 0 65535⟩,
  ⟨0x11, .u16, .rc, .v, .num 0, .range 0 65535⟩,
  ⟨0x12, .u16, .rc, .v, .num 0, .range 0 65535⟩,
  ⟨0x13, .u16, .rc, .v, .num 0, .range 0 65535⟩]⟩

/-- 0x8001 ReaderCommand, 1 of them: R501 of spec/15_dowser_reader.md. -/
def oReaderCommand : Obj := ⟨0x8001, 1, [
  ⟨0x00, (.octets 268), .ax, .v, .none, .any⟩]⟩

/-- 0x8002 ReaderResultStream, 1 of them: R499 of spec/15_dowser_reader.md. -/
def oReaderResultStream : Obj := ⟨0x8002, 1, [
  ⟨0x00, .u8, .ro, .f, .num 4, .range 4 4⟩,
  ⟨0x01, (.octets 0), .ro, .v, .none, .any⟩,
  ⟨0x02, .u24, .ro, .v, .num 0, .range 0 16777215⟩,
  ⟨0x03, .bool, .rc, .v, .num 0, .bool⟩,
  ⟨0x04, .u16, .rc, .v, .num 0, .range 0 65535⟩]⟩

/-- 0x8003 InventoryStream, 1 of them: R504 of spec/15_dowser_reader.md. -/
def oInventoryStream : Obj := ⟨0x8003, 1, [
  ⟨0x00, .u8, .ro, .f, .num 4, .range 4 4⟩,
  ⟨0x01, (.octets 0), .ro, .v, .none, .any⟩,
  ⟨0x02, .u24, .ro, .v, .num 0, .range 0 16777215⟩,
  ⟨0x03, .bool, .rc, .v, .num 0, .bool⟩,
  ⟨0x04, .u16, .rc, .v, .num 0, .range 0 65535⟩]⟩

/-- 0x8010 + p CoilPort, 4 of them: R487 of spec/15_dowser_reader.md. -/
def oCoilPort : Obj := ⟨0x8010, 4, [
  ⟨0x00, .u8, .ro, .f, .num 3, .range 3 3⟩,
  ⟨0x01, .bool, .rw, .p, .num 0, .bool⟩,
  ⟨0x02, .u8, .rw, .p, .num 0, .range 0 32⟩,
  ⟨0x03, .u16, .ro, .p, .num 0, .any⟩]⟩

/-- 0x8020 Field, 1 of them: R494 of spec/15_dowser_reader.md. -/
def oField : Obj := ⟨0x8020, 1, [
  ⟨0x00, .u8, .ro, .f, .num 10, .range 10 10⟩,
  ⟨0x01, .u8, .rw, .p, .num 24, .range 0 31⟩,
  ⟨0x02, .u8, .ro, .v, .num 0, .range 0 31⟩,
  ⟨0x03, .u16, .rw, .p, .num 1000, .range 10 60000⟩,
  ⟨0x04, .u8, .rw, .p, .num 5, .range 1 20⟩,
  ⟨0x05, .u8, .rw, .p, .num 5, .range 1 100⟩,
  ⟨0x06, .u8, .rw, .p, .num 8, .range 1 63⟩,
  ⟨0x07, .u8, .rw, .p, .num 4, .range 1 63⟩,
  ⟨0x08, .u8, .rw, .p, .num 11, .range 8 14⟩,
  ⟨0x09, .enum8, .rw, .p, .num 0, .enum 0 1⟩,
  ⟨0x0A, .u16, .ro, .v, .num 0, .range 0 1000⟩]⟩

/-- 0x8030 SpectralMask, 1 of them: R494 of spec/15_dowser_reader.md. -/
def oSpectralMask : Obj := ⟨0x8030, 1, [
  ⟨0x00, .u8, .ro, .f, .num 10, .range 10 10⟩,
  ⟨0x01, .enum8, .rw, .p, .num 0, .enum 0 1⟩,
  ⟨0x02, .u16, .rw, .p, .num 150, .range 10 3000⟩,
  ⟨0x03, .u16, .rw, .p, .num 450, .range 10 3000⟩,
  ⟨0x04, .u16, .rw, .p, .num 1000, .range 10 3000⟩,
  ⟨0x05, .u16, .rw, .p, .num 2000, .range 10 3000⟩,
  ⟨0x06, .u8, .rw, .p, .num 25, .range 0 90⟩,
  ⟨0x07, .u8, .rw, .p, .num 40, .range 0 90⟩,
  ⟨0x08, .u8, .rw, .p, .num 50, .range 0 90⟩,
  ⟨0x09, .u8, .rw, .p, .num 60, .range 0 90⟩,
  ⟨0x0A, .s16, .ro, .v, .num 0, .any⟩]⟩

/-- 0x8040 CardDetect, 1 of them: R506 of spec/15_dowser_reader.md. -/
def oCardDetect : Obj := ⟨0x8040, 1, [
  ⟨0x00, .u8, .ro, .f, .num 5, .range 5 5⟩,
  ⟨0x01, .bool, .rw, .p, .num 0, .bool⟩,
  ⟨0x02, .u8, .rw, .p, .num 0, .range 0 127⟩,
  ⟨0x03, .u16, .rw, .p, .num 500, .range 100 10000⟩,
  ⟨0x04, .u8, .rw, .p, .num 4, .range 1 80⟩,
  ⟨0x05, .bool, .rw, .p, .num 0, .bool⟩]⟩

/-- 0x8050 DelayScan, 1 of them: R508 of spec/15_dowser_reader.md. -/
def oDelayScan : Obj := ⟨0x8050, 1, [
  ⟨0x00, .u8, .ro, .f, .num 9, .range 9 9⟩,
  ⟨0x01, .enum8, .rw, .p, .num 1, .enum 0 2⟩,
  ⟨0x02, .u32, .rw, .p, .num 86400, .range 600 2592000⟩,
  ⟨0x03, .u8, .ax, .v, .none, .rangeOr 0 9 255⟩,
  ⟨0x04, .u8, .rw, .p, .num 20, .range 0 31⟩,
  ⟨0x05, .u8, .rw, .p, .num 3, .range 0 7⟩,
  ⟨0x06, .enum8, .ro, .v, .num 0, .enum 0 1⟩,
  ⟨0x07, .time96, .ro, .v, .num 0, .any⟩,
  ⟨0x08, .u8, .ro, .v, .num 255, .rangeOr 0 9 255⟩,
  ⟨0x09, .enum8, .ro, .v, .num 0, .enum 0 5⟩]⟩

/-- 0x9000 TimerGlobal, 1 of them: R523 of spec/16_cadence_timers.md. -/
def oTimerGlobal : Obj := ⟨0x9000, 1, [
  ⟨0x00, .u8, .ro, .f, .num 5, .range 5 5⟩,
  ⟨0x01, .bits16, .ax, .v, .num 0x0, .bits 0x0⟩,
  ⟨0x02, .bool, .rw, .v, .num 0, .bool⟩,
  ⟨0x03, .time96, .rw, .v, .num 0, .any⟩,
  ⟨0x04, .u8, .rw, .p, .num 0, .range 0 3⟩,
  ⟨0x05, .bits32, .ro, .v, .num 0x0, .bits 0xFF000000⟩]⟩

/-- 0x9010 + n CadenceTimer, 16 of them: R522 of spec/16_cadence_timers.md. -/
def oCadenceTimer : Obj := ⟨0x9010, 16, [
  ⟨0x00, .u8, .ro, .f, .num 22, .range 22 22⟩,
  ⟨0x01, .enum8, .rw, .p, .num 0, .enum 0 2⟩,
  ⟨0x02, .enum8, .rw, .p, .num 0, .enum 0 5⟩,
  ⟨0x03, .u8, .rw, .p, .num 0, .range 0 15⟩,
  ⟨0x04, .enum8, .rw, .p, .num 0, .enum 0 3⟩,
  ⟨0x05, .u8, .rw, .p, .num 255, .rangeOr 0 15 255⟩,
  ⟨0x06, .u32, .rw, .p, .num 0x1E848, .range 1 4294967295⟩,
  ⟨0x07, .u32, .rw, .p, .num 0, .range 0 4294967295⟩,
  ⟨0x08, .u32, .rw, .p, .num 0, .range 0 4294967295⟩,
  ⟨0x09, .time96, .rw, .v, .num 0, .any⟩,
  ⟨0x0A, .bits16, .rw, .p, .num 0x0, .bits 0xFFF0⟩,
  ⟨0x0B, .enum8, .ax, .v, .num 0, .enum 1 3⟩,
  ⟨0x0C, .enum8, .ro, .v, .num 0, .enum 0 3⟩,
  ⟨0x0D, .u32, .ro, .v, .num 0, .any⟩,
  ⟨0x0E, .u32, .ro, .v, .num 0, .any⟩,
  ⟨0x0F, .time96, .ro, .v, .num 0, .any⟩,
  ⟨0x10, .u48, .ro, .v, .num 0, .any⟩,
  ⟨0x11, .bits16, .rc, .v, .num 0x0, .bits 0xFFE0⟩,
  ⟨0x12, .u16, .rc, .v, .num 0, .range 0 65535⟩,
  ⟨0x13, .u16, .rc, .v, .num 0, .range 0 65535⟩,
  ⟨0x14, .u16, .rc, .v, .num 0, .range 0 65535⟩,
  ⟨0x15, .u16, .rc, .v, .num 0, .range 0 65535⟩,
  ⟨0x16, .u16, .rc, .v, .num 0, .range 0 65535⟩]⟩

/-- 0x9030 + i Capture, 8 of them: R526 of spec/16_cadence_timers.md. -/
def oCapture : Obj := ⟨0x9030, 8, [
  ⟨0x00, .u8, .ro, .f, .num 9, .range 9 9⟩,
  ⟨0x01, .enum8, .rw, .p, .num 0, .enum 0 3⟩,
  ⟨0x02, .time96, .ro, .v, .num 0, .any⟩,
  ⟨0x03, .u8, .ro, .v, .num 0, .range 0 4⟩,
  ⟨0x04, .bool, .rw, .p, .num 0, .bool⟩,
  ⟨0x05, .bits16, .rc, .v, .num 0x0, .bits 0xFFF8⟩,
  ⟨0x06, .u16, .rc, .v, .num 0, .range 0 65535⟩,
  ⟨0x07, .u16, .rc, .v, .num 0, .range 0 65535⟩,
  ⟨0x08, .u16, .rc, .v, .num 0, .range 0 65535⟩,
  ⟨0x09, .dur64, .ro, .f, .factory, .any⟩]⟩

/-- 0x9050 + o TimerOutput, 8 of them: R524 of spec/16_cadence_timers.md. -/
def oTimerOutput : Obj := ⟨0x9050, 8, [
  ⟨0x00, .u8, .ro, .f, .num 6, .range 6 6⟩,
  ⟨0x01, .u8, .rw, .p, .num 255, .rangeOr 0 15 255⟩,
  ⟨0x02, .enum8, .rw, .p, .num 0, .enum 0 5⟩,
  ⟨0x03, .enum8, .rw, .p, .num 0, .enum 0 1⟩,
  ⟨0x04, .u16, .rw, .p, .num 1, .range 1 65535⟩,
  ⟨0x05, .bool, .ro, .v, .num 0, .bool⟩,
  ⟨0x06, .dur64, .ro, .f, .factory, .any⟩]⟩

/-- 0xA000 PowerControl, 1 of them: R552 of spec/17_power_states.md. -/
def oPowerControl : Obj := ⟨0xA000, 1, [
  ⟨0x00, .u8, .ro, .f, .num 16, .range 16 16⟩,
  ⟨0x01, .enum8, .rw, .v, .num 0, .enum 0 4⟩,
  ⟨0x02, .bool, .rw, .p, .num 1, .bool⟩,
  ⟨0x03, .enum8, .ro, .v, .num 0, .enum 0 1⟩,
  ⟨0x04, .u16, .ro, .v, .num 0x0, .any⟩,
  ⟨0x05, .u8, .ro, .v, .num 255, .rangeOr 0 14 255⟩,
  ⟨0x06, .bits16, .rw, .p, .num 0x1, .bits 0xFFE0⟩,
  ⟨0x07, .u32, .rw, .p, .num 0, .range 0 4294967295⟩,
  ⟨0x08, .bits32, .rw, .p, .num 0x0, .bits 0x0⟩,
  ⟨0x09, .enum8, .ro, .v, .num 0, .enum 0 6⟩,
  ⟨0x0A, .bits16, .rc, .v, .num 0x0, .bits 0xFFE0⟩,
  ⟨0x0B, .u16, .rc, .v, .num 0, .range 0 65535⟩,
  ⟨0x0C, .u16, .rc, .v, .num 0, .range 0 65535⟩,
  ⟨0x0D, .u16, .rc, .v, .num 0, .range 0 65535⟩,
  ⟨0x0E, .u16, .rc, .v, .num 0, .range 0 65535⟩,
  ⟨0x0F, .u16, .rc, .v, .num 0, .range 0 65535⟩,
  ⟨0x10, .u32, .ro, .v, .num 0, .any⟩]⟩

/-- 0xA001 Performance, 1 of them: R552 of spec/17_power_states.md. -/
def oPerformance : Obj := ⟨0xA001, 1, [
  ⟨0x00, .u8, .ro, .f, .num 4, .range 4 4⟩,
  ⟨0x01, .enum8, .rw, .p, .num 3, .enum 0 3⟩,
  ⟨0x02, .enum8, .rw, .p, .num 3, .enum 0 3⟩,
  ⟨0x03, .enum8, .ro, .v, .num 3, .enum 0 3⟩,
  ⟨0x04, .u16, .ro, .v, .num 0, .range 0 2000⟩]⟩

/-- 0xA002 Oasis, 1 of them: R552 of spec/17_power_states.md. -/
def oOasis : Obj := ⟨0xA002, 1, [
  ⟨0x00, .u8, .ro, .f, .num 4, .range 4 4⟩,
  ⟨0x01, .u16, .rw, .p, .num 1000, .range 200 60000⟩,
  ⟨0x02, .u16, .rw, .p, .num 25, .range 10 100⟩,
  ⟨0x03, .u32, .rw, .p, .num 0xFFFFFFFE, .range 1000 4294967294⟩,
  ⟨0x04, .u32, .ro, .v, .num 0, .any⟩]⟩

/-- 0xA003 WakeLatch, 1 of them: R552 of spec/17_power_states.md. -/
def oWakeLatch : Obj := ⟨0xA003, 1, [
  ⟨0x00, .u8, .ro, .f, .num 3, .range 3 3⟩,
  ⟨0x01, .enum8, .ro, .p, .num 0, .enum 0 2⟩,
  ⟨0x02, .u8, .ro, .p, .num 0, .range 0 3⟩,
  ⟨0x03, .u48, .ro, .p, .num 0, .any⟩]⟩

/-- 0xA004 CoreSpreadEnable, 1 of them: R19 of spec/01_architecture_and_tick.md. -/
def oCoreSpreadEnable : Obj := ⟨0xA004, 1, [
  ⟨0x00, .bool, .rw, .p, .num 1, .bool⟩]⟩

/-- 0xA010 SupplyMonitor, 1 of them: R603 of spec/21_electrical.md. -/
def oSupplyMonitor : Obj := ⟨0xA010, 1, [
  ⟨0x00, .u8, .ro, .f, .num 8, .range 8 8⟩,
  ⟨0x01, .bits16, .ro, .v, .none, .bits 0xFE00⟩,
  ⟨0x02, .bits16, .rc, .v, .num 0x0, .bits 0xFFF8⟩,
  ⟨0x03, .u16, .rc, .v, .num 0, .range 0 65535⟩,
  ⟨0x04, .u16, .rc, .v, .num 0, .range 0 65535⟩,
  ⟨0x05, .u16, .rc, .v, .num 0, .range 0 65535⟩,
  ⟨0x06, .s16, .rw, .p, .num 1050, .range 600 1100⟩,
  ⟨0x07, .s16, .ro, .v, .num 0, .any⟩,
  ⟨0x08, .u16, .ro, .v, .num 0, .range 0 4000⟩]⟩

/-- 0xB000 SiltLog, 1 of them: R585 of spec/19_silt_log.md. -/
def oSiltLog : Obj := ⟨0xB000, 1, [
  ⟨0x00, .u8, .ro, .f, .num 10, .range 10 10⟩,
  ⟨0x01, .u48, .ro, .p, .num 0, .any⟩,
  ⟨0x02, .u48, .ro, .p, .num 0, .any⟩,
  ⟨0x03, .u16, .ro, .p, .num 0, .range 0 16384⟩,
  ⟨0x04, .enum8, .pw, .v, .num 0, .enum 1 1⟩,
  ⟨0x05, .u8, .ro, .v, .num 0, .range 0 64⟩,
  ⟨0x06, .bits16, .rc, .v, .num 0x0, .bits 0xFFF8⟩,
  ⟨0x07, .u16, .rc, .v, .num 0, .range 0 65535⟩,
  ⟨0x08, .u16, .rc, .v, .num 0, .range 0 65535⟩,
  ⟨0x09, .u16, .rc, .v, .num 0, .range 0 65535⟩,
  ⟨0x0A, .u16, .ro, .p, .num 0, .range 0 65535⟩]⟩

/-- 0xB010 + r SiltCursor, 5 of them: R585 of spec/19_silt_log.md. -/
def oSiltCursor : Obj := ⟨0xB010, 5, [
  ⟨0x00, .u8, .ro, .f, .num 2, .range 2 2⟩,
  ⟨0x01, .u48, .rw, .v, .num 0, .cursor⟩,
  ⟨0x02, (.octets 48), .ro, .v, .none, .any⟩]⟩

/-- 0xC000 Protection, 1 of them: R407 of spec/12_protection.md. -/
def oProtection : Obj := ⟨0xC000, 1, [
  ⟨0x00, .u8, .ro, .f, .num 11, .range 11 11⟩,
  ⟨0x01, .bits16, .pw, .p, .num 0x0, .bits 0xFFC0⟩,
  ⟨0x02, .enum8, .pw, .p, .num 2, .enum 0 3⟩,
  ⟨0x03, .enum8, .pw, .p, .num 0, .enum 0 3⟩,
  ⟨0x04, .enum8, .pw, .p, .num 4, .enum 0 4⟩,
  ⟨0x05, .bits16, .pw, .p, .num 0xC, .bits 0xFF80⟩,
  ⟨0x06, .bits16, .pw, .p, .num 0x0, .bits 0x0⟩,
  ⟨0x07, .bits16, .rc, .v, .num 0x0, .bits 0xFFE0⟩,
  ⟨0x08, .u16, .rc, .v, .num 0, .range 0 65535⟩,
  ⟨0x09, .u16, .rc, .v, .num 0, .range 0 65535⟩,
  ⟨0x0A, .u16, .rc, .v, .num 0, .range 0 65535⟩,
  ⟨0x0B, .u16, .rc, .v, .num 0, .range 0 65535⟩]⟩

/-- 0xC010 + r AccessRights, 7 of them: R402 of spec/12_protection.md. -/
def oAccessRights : Obj := ⟨0xC010, 7, [
  ⟨0x00, .bits32, .pw, .p, .per [0x15555555, 0x15FFFFF5, 0x1FFFFFFD, 0x1F55555D, 0x3555D555, 0x3FFFFFFF, 0x155DD555], .bits 0xC0000000⟩]⟩

/-- 0xC020 + k KeySlot, 16 of them: R403 of spec/12_protection.md. -/
def oKeySlot : Obj := ⟨0xC020, 16, [
  ⟨0x00, .u8, .ro, .f, .num 7, .range 7 7⟩,
  ⟨0x01, .enum8, .pw, .p, .num 0, .enum 0 2⟩,
  ⟨0x02, .enum8, .pw, .p, .num 0, .enum 0 4⟩,
  ⟨0x03, (.octets 8), .pw, .p, .num 0, .any⟩,
  ⟨0x04, (.octets 24), .pw, .p, .none, .any⟩,
  ⟨0x05, (.octets 4), .ro, .p, .num 0, .any⟩,
  ⟨0x06, .u48, .ro, .p, .num 0, .any⟩,
  ⟨0x07, .u16, .rc, .v, .num 0, .range 0 65535⟩]⟩

/-- 0xC040 TwoParty, 1 of them: R410 of spec/12_protection.md. -/
def oTwoParty : Obj := ⟨0xC040, 1, [
  ⟨0x00, .u8, .ro, .f, .num 7, .range 7 7⟩,
  ⟨0x01, (.octets 1040), .ax, .v, .none, .any⟩,
  ⟨0x02, (.octets 10), .ax, .v, .none, .any⟩,
  ⟨0x03, .u16, .ax, .v, .none, .range 1 65535⟩,
  ⟨0x04, .u8, .ro, .v, .num 0, .range 0 8⟩,
  ⟨0x05, .u16, .ro, .v, .num 0, .any⟩,
  ⟨0x06, .u16, .ro, .v, .num 0x0, .any⟩,
  ⟨0x07, .u8, .rw, .p, .num 255, .rangeOr 0 127 255⟩]⟩

/-- 0xC048 + p PendingChange, 8 of them: R410 of spec/12_protection.md. -/
def oPendingChange : Obj := ⟨0xC048, 8, [
  ⟨0x00, .u8, .ro, .f, .num 6, .range 6 6⟩,
  ⟨0x01, .u16, .ro, .v, .num 0, .any⟩,
  ⟨0x02, .u24, .ro, .v, .num 0, .any⟩,
  ⟨0x03, .enum8, .ro, .v, .num 0, .enum 0 3⟩,
  ⟨0x04, (.octets 8), .ro, .v, .num 0, .any⟩,
  ⟨0x05, .u24, .ro, .v, .num 0, .range 0 120000⟩,
  ⟨0x06, .bool, .ro, .v, .num 0, .bool⟩]⟩

/-- 0xC060 RegulatoryLocks, 1 of them: R414 of spec/12_protection.md. -/
def oRegulatoryLocks : Obj := ⟨0xC060, 1, [
  ⟨0x00, .u8, .ro, .f, .num 6, .range 6 6⟩,
  ⟨0x01, .bool, .pw, .p, .num 0, .bool⟩,
  ⟨0x02, .u8, .pw, .p, .num 31, .range 0 31⟩,
  ⟨0x03, .u16, .pw, .p, .num 1000, .range 1 1000⟩,
  ⟨0x04, .u16, .pw, .p, .num 10000, .range 10 60000⟩,
  ⟨0x05, .bits16, .pw, .p, .num 0x7, .bits 0xFFF8⟩,
  ⟨0x06, .bool, .pw, .p, .num 0, .bool⟩]⟩

/-- 0xC070 ImageSecurity, 1 of them: R417 of spec/12_protection.md. -/
def oImageSecurity : Obj := ⟨0xC070, 1, [
  ⟨0x00, .u8, .ro, .f, .num 12, .range 12 12⟩,
  ⟨0x01, (.octets 32), .ro, .f, .factory, .any⟩,
  ⟨0x02, (.octets 32), .ro, .f, .factory, .any⟩,
  ⟨0x03, (.octets 32), .ro, .f, .factory, .any⟩,
  ⟨0x04, (.octets 32), .ro, .f, .factory, .any⟩,
  ⟨0x05, .bits16, .pw, .p, .num 0x0, .bits 0xFFF0⟩,
  ⟨0x06, .u8, .ro, .p, .num 0, .range 0 63⟩,
  ⟨0x07, .u8, .pw, .v, .num 0, .range 1 63⟩,
  ⟨0x08, .u8, .ro, .v, .num 0, .range 0 63⟩,
  ⟨0x09, .u32, .ro, .v, .num 0, .any⟩,
  ⟨0x0A, .u8, .ro, .v, .num 0, .range 0 3⟩,
  ⟨0x0B, .enum8, .ro, .v, .num 0, .enum 0 6⟩,
  ⟨0x0C, .u16, .rc, .v, .num 0, .range 0 65535⟩]⟩

/-- 0xD000 Boot, 1 of them: R568 of spec/18_reset_and_boot.md. -/
def oBoot : Obj := ⟨0xD000, 1, [
  ⟨0x00, .u8, .ro, .f, .num 10, .range 10 10⟩,
  ⟨0x01, .enum8, .ro, .v, .none, .enum 0 3⟩,
  ⟨0x02, .enum8, .ro, .v, .num 0, .enum 0 4⟩,
  ⟨0x03, .bits16, .ro, .v, .none, .bits 0xFFC0⟩,
  ⟨0x04, .enum8, .ro, .p, .num 0, .enum 0 1⟩,
  ⟨0x05, (.octets 1030), .ax, .v, .none, .any⟩,
  ⟨0x06, .enum8, .ax, .v, .num 0, .enum 1 3⟩,
  ⟨0x07, .u16, .ro, .v, .num 0x0, .any⟩,
  ⟨0x08, .enum8, .ro, .v, .num 0, .enum 0 3⟩,
  ⟨0x09, .u32, .ro, .v, .num 0, .range 0 6291456⟩,
  ⟨0x0A, .u16, .rw, .p, .num 60, .range 10 3600⟩]⟩

/-- 0xD020 TickBudget, 1 of them: R28 of spec/01_architecture_and_tick.md. -/
def oTickBudget : Obj := ⟨0xD020, 1, [
  ⟨0x00, .u8, .ro, .f, .num 9, .range 9 9⟩,
  ⟨0x01, .u16, .rw, .p, .num 948, .range 0 948⟩,
  ⟨0x02, .u16, .ro, .v, .num 948, .range 0 948⟩,
  ⟨0x03, .u16, .rw, .p, .num 200, .range 0 948⟩,
  ⟨0x04, .u8, .rw, .p, .num 4, .range 1 16⟩,
  ⟨0x05, .enum8, .rw, .p, .num 0, .enum 0 2⟩,
  ⟨0x06, .bits16, .rc, .v, .num 0x0, .bits 0xFC00⟩,
  ⟨0x07, .u16, .rc, .v, .num 0, .range 0 65535⟩,
  ⟨0x08, .u16, .rc, .v, .num 0, .range 0 65535⟩,
  ⟨0x09, .u16, .ro, .v, .num 512, .range 0 512⟩]⟩

/-- 0xD030 + c CoreTick, 4 of them: R28 of spec/01_architecture_and_tick.md. -/
def oCoreTick : Obj := ⟨0xD030, 4, [
  ⟨0x00, .u8, .ro, .f, .num 5, .range 5 5⟩,
  ⟨0x01, .u24, .ro, .v, .num 0, .range 0 125000⟩,
  ⟨0x02, .u24, .rc, .v, .num 0, .range 0 125000⟩,
  ⟨0x03, .u16, .rc, .v, .num 0, .range 0 65535⟩,
  ⟨0x04, .u16, .rc, .v, .num 0, .range 0 65535⟩,
  ⟨0x05, .enum8, .ro, .v, .num 0, .enum 0 2⟩]⟩

/-- 0xD040 UserCore, 1 of them: R447 of spec/13_vuvan_programming_model.md. -/
def oUserCore : Obj := ⟨0xD040, 1, [
  ⟨0x00, .u8, .ro, .f, .num 6, .range 6 6⟩,
  ⟨0x01, .bool, .rw, .p, .num 0, .bool⟩,
  ⟨0x02, .u24, .rw, .p, .num 0x4010, .range 16400 65535⟩,
  ⟨0x03, .bits16, .rc, .v, .num 0x0, .bits 0xFFFC⟩,
  ⟨0x04, .u16, .rc, .v, .num 0, .range 0 65535⟩,
  ⟨0x05, .u16, .rc, .v, .num 0, .range 0 65535⟩,
  ⟨0x06, .u8, .ro, .v, .num 0, .rangeOr 1 8 0⟩]⟩

/-- 0xD050 CoreHealth, 1 of them: R452 of spec/13_vuvan_programming_model.md. -/
def oCoreHealth : Obj := ⟨0xD050, 1, [
  ⟨0x00, .u8, .ro, .f, .num 4, .range 4 4⟩,
  ⟨0x01, .bits16, .ro, .v, .num 0xF, .bits 0xFFF0⟩,
  ⟨0x02, .bits16, .rc, .v, .num 0x0, .bits 0xFFFE⟩,
  ⟨0x03, .u16, .rc, .v, .num 0, .range 0 65535⟩,
  ⟨0x04, .u8, .ro, .v, .num 255, .rangeOr 0 3 255⟩]⟩

/-- 0xE600 LakeEnsemble, 1 of them: R393 of spec/11_lake_time.md. -/
def oLakeEnsemble : Obj := ⟨0xE600, 1, [
  ⟨0x00, .u8, .ro, .f, .num 9, .range 9 9⟩,
  ⟨0x01, .u16, .rw, .p, .num 600, .range 60 65535⟩,
  ⟨0x02, .u16, .rw, .p, .num 100, .range 10 10000⟩,
  ⟨0x03, .u16, .rw, .p, .num 3600, .range 60 65535⟩,
  ⟨0x04, .u16, .rw, .p, .num 26214, .range 3277 65535⟩,
  ⟨0x05, .u16, .rw, .p, .num 1000, .range 100 65535⟩,
  ⟨0x06, .u16, .rw, .p, .num 100, .range 10 2000⟩,
  ⟨0x07, .u16, .rw, .p, .num 600, .range 10 65535⟩,
  ⟨0x08, .bool, .rw, .p, .num 1, .bool⟩,
  ⟨0x09, .u16, .rw, .p, .num 300, .range 10 65535⟩]⟩
/-- Part 0 of the table, in index order. -/
def objs0 : List Obj := [oDeviceState, oDeviceControl, oHostAccess, oHostAccessCounters, oPinGroup, oIoBanks, oPondTime, oTimingState, oSteering, oSeeding, oTimingEvents, oHoldover, oReference, oTimePulse, oClockOut, oDelay, oTimeOfDay, oIrigB, oAntennaInput, oChain]

/-- Part 1 of the table, in index order. -/
def objs1 : List Obj := [oFrontEnd, oNotch, oCalibration, oSpectrumMonitor, oSpectrumStream, oAntennaRedundancy, oSubband, oErg, oErgResultStream, oSignalEnable, oErgLane, oSearchEntry, oTracking, oTrackingProfile, oSlot, oNavData, oNavMessageStream, oMeasurement, oMeasStream, oTimeSolution]

/-- Part 2 of the table, in index order. -/
def objs2 : List Obj := [oTrust, oUtc, oSystemOffsets, oSignalBias, oAntennaPosition, oSlotNav, oStoreEntry, oLake, oLakeRoot, oCvPartner, oAidService, oNetwork, oPtpClock, oMessages, oMessageDeliveryStream, oMessageResultStream, oRemote, oRemoteReplyStream, oLaunchQueue, oLaunchResultStream]

/-- Part 3 of the table, in index order. -/
def objs3 : List Obj := [oOutChannel, oPort, oPtpPort, oLinkTiming, oReader, oReaderCommand, oReaderResultStream, oInventoryStream, oCoilPort, oField, oSpectralMask, oCardDetect, oDelayScan, oTimerGlobal, oCadenceTimer, oCapture, oTimerOutput, oPowerControl, oPerformance, oOasis]

/-- Part 4 of the table, in index order. -/
def objs4 : List Obj := [oWakeLatch, oCoreSpreadEnable, oSupplyMonitor, oSiltLog, oSiltCursor, oProtection, oAccessRights, oKeySlot, oTwoParty, oPendingChange, oRegulatoryLocks, oImageSecurity, oBoot, oTickBudget, oCoreTick, oUserCore, oCoreHealth, oLakeEnsemble]

/-- The whole object table (R42), in index order. -/
def objs : List Obj := objs0 ++ objs1 ++ objs2 ++ objs3 ++ objs4

/-- The object at an index, if the tables list one (R42). -/
def findObj (index : Nat) : Option Obj :=
  objs.find? fun o => decide (o.base ≤ index) && decide (index < o.base + o.count)

/-- The row of a subindex. Groups of pins answer only the subindices their group has (R593). -/
def findRow (index sub : Nat) : Option Row :=
  match findObj index with
  | none => none
  | some o =>
    match o.rows.find? fun r => r.sub == sub with
    | none => none
    | some r =>
      if o.base == 0x1060 then
        let g := index - 0x1060
        let has : List Nat := if g == 2 then [0, 2, 3] else if g == 4 then [0, 1, 2] else
          if g == 5 then [0, 1, 2, 3] else if g == 6 then [0, 1, 2] else [0, 1]
        if has.contains sub then
          -- R593: the filters of groups 4 to 6 range from 2 to 4 ns
          if sub == 2 && decide (4 ≤ g) && decide (g ≤ 6) then some { r with chk := .range 2 4 } else some r
        else none
      else if index == 0xC015 then some { r with acc := .ro, keep := .f } -- R402: role FIRMWARE is fixed
      else some r

/-- An object of type RECORD: one whose values sit at subindices above 0x00 (R41). -/
def Obj.isRecord (o : Obj) : Bool := o.rows.any fun r => decide (r.sub ≠ 0)

/-- The default of a row of an index as a link image (R49, R66); a factory value is Config.factory of its key. A "—" of another
persistence is zero here: such a value is computed when it is read, or State.reset lists it (log entry 5). -/
def Row.default (r : Row) (index base : Nat) : Nat :=
  match r.dflt with
  | .num n => n
  | .per l => l.getD (index - base) 0
  | .factory => Config.factory (index * 256 + r.sub)
  | .none => 0

/-- The default of a key; zero for a key no table lists. -/
def dfltOf (k : Nat) : Nat :=
  match findObj (k / 256), findRow (k / 256) (k % 256) with
  | some o, some r => r.default (k / 256) o.base
  | _, _ => 0

end Sys2Proof.Machine
end

