-- ==== Sys2Proof/Machine/StBase.lean ====
section
/-!
DEFINITION. Replies, the Silt log, the streams and the access ports: the state every family of commands shares
(spec/02, spec/19).
-/

namespace Sys2Proof.Machine

/-- A status code (R52) and reply data. -/
structure Reply where
  status : Nat
  data : List Nat
  deriving DecidableEq, Repr

/-- A request received over MSPI (R69). -/
structure MspiReq where
  op : Nat
  tag : Nat
  index : Nat
  sub : Nat
  len : Nat
  data : List Nat
  deriving DecidableEq, Repr

/-- An entry of the MSPI queue (R73): the request, and its reply once it has executed. -/
structure MspiEntry where
  req : MspiReq
  reply : Option Reply
  deriving DecidableEq, Repr

/-- The MSPI port: accepted requests not yet fetched, oldest first, and the sticky bits of the status byte (R68). -/
structure MspiSt where
  queue : List MspiEntry
  qfull : Bool
  crcErr : Bool
  framErr : Bool
  /-- Bytes the device sent in the last transfer. -/
  sent : List Nat
  deriving DecidableEq, Repr

/-- A kept host reply (R79): source address, TAG, reply payload, count of tick edges when it was kept. -/
structure HostKept where
  mac : Nat
  tag : Nat
  reply : List Nat
  since : Nat
  deriving DecidableEq, Repr

/-- The host port (R76 to R80). -/
structure HostSt where
  /-- The port in host mode: HostPortNumber as it stood at the last tick edge. -/
  port : Nat
  /-- HostPortNumber has chosen a RETIRED port: no port serves as host until a reset (R325). -/
  barred : Bool
  /-- Newest first, at most 16. -/
  kept : List HostKept
  /-- The last reply payload sent, none when the last frame got none. -/
  sent : Option (List Nat)
  deriving DecidableEq, Repr

/-- A record of the Silt log (R575). -/
structure SiltRec where
  seq : Nat
  opSec : Nat
  cycles : Nat
  pondValid : Bool
  pond : Nat
  code : Nat
  tstate : Nat
  dstate : Nat
  status : Nat
  data : List Nat
  check : Nat
  deriving DecidableEq, Repr

/-- The Silt log: committed records, oldest first, at most 16,384; the queue, oldest first, at most 64; the next SEQ;
and the events lost since the queue was last full (R580). -/
structure SiltSt where
  recs : List SiltRec
  queue : List SiltRec
  nextSeq : Nat
  lost : Nat
  /-- From a reset until firmware or SAFE starts: the START record with the stamps of the reset; nothing is committed before
  it (R579, R580). -/
  start : Option SiltRec
  deriving DecidableEq, Repr

def MspiSt.reset : MspiSt := ⟨[], false, false, false, []⟩
def HostSt.reset : HostSt := ⟨255, false, [], none⟩
def SiltSt.reset : SiltSt := ⟨[], [], 1, 0, none⟩

end Sys2Proof.Machine
end

