-- ==== Sys2Proof/Machine/StCore.lean ====
section
/-!
DEFINITION. State of the Vuvan cores, of the memories and of the cadence timers beyond the object dictionary
(spec/13, spec/14, spec/16).
-/

namespace Sys2Proof.Machine

/-- A result not yet written (R435): of MUL to PH and PL (`dest` 4), or of an F operation to F `dest`. It lands when
`due` cycles of the core have passed; `exc` are its FP_CTRL exception bits that trap (R437); `pc` its instruction. -/
structure Exposed where
  dest : Nat
  value : FReg
  due : Nat
  exc : Nat
  pc : Word
  /-- FDIV or FSQRT: FBUSY is set meanwhile. -/
  busy : Bool
  deriving DecidableEq, Repr

/-- A dictionary request of a core in progress (R449). -/
structure DauReq where
  op : Nat
  index : Nat
  sub : Nat
  len : Nat
  buf : Nat
  cap : Nat
  /-- Submitted in USER mode. -/
  user : Bool
  deriving DecidableEq, Repr

/-- A descriptor ring (R450). -/
structure Ring where
  base : Word
  size : Word
  head : Word
  tail : Word
  /-- The next index the device submits. -/
  taken : Nat
  deriving DecidableEq, Repr

/-- A descriptor whose request has ended and which is still to be completed (R450): core, ring, index; STATUS, HANDLE, and the
reply payload of a transaction. -/
structure RingDone where
  core : Nat
  ring : Nat
  index : Nat
  status : Nat
  handle : Nat
  data : Option (List Nat)
  deriving DecidableEq, Repr

/-- One Vuvan core (R425, R427): its registers, its special-function words, its local memory. -/
structure CoreSt where
  g : Vector Word 16
  a : Vector Acc 4
  j : Vector Word 8
  m : Vector Word 8
  k : Vector Word 8
  l : Vector Word 8
  ph : Word
  pl : Word
  f : Vector FReg 4
  pcx : Word
  sp : Word
  st : Word
  ls : Vector Word 4
  le : Vector Word 4
  lc : Vector Word 4
  nrep : Word
  /-- Local memory (R423): address and word, words that are zero unlisted (log entry 6). -/
  mem : SMap Word
  /-- INT_ENABLE bits 3 to 7; bits 0 to 2 read 1. -/
  intEnable : Word
  intPending : Word
  /-- The words latched by a read of the first TICK_NOW word. -/
  tickNow1 : Word
  tickNow2 : Word
  trapCause : Word
  trapPc : Word
  trapAddr : Word
  trapSt : Word
  stackLow : Word
  stackHigh : Word
  fpCtrl : Word
  dauOp : Word
  dauTarget : Word
  dauLen : Word
  dauBuf : Word
  dauCap : Word
  /-- DAU_STATUS bits 15 to 0; BUSY is `dauReq`. -/
  dauStatus : Word
  dauRlen : Word
  dauReq : Option DauReq
  ring0 : Ring
  ring1 : Ring
  /-- Results in the order of their instructions. -/
  exposed : List Exposed
  /-- Values that addressing and loop ends still see of registers written by the last instruction (R435). -/
  shadow : List (Nat × Word)
  /-- CK_CORE cycles counted for the exposed results. -/
  cyc : Nat
  /-- Reset and started: a core runs from its reset vector on (R441). -/
  running : Bool
  /-- In WAIT (R448). -/
  waiting : Bool
  /-- WAIT, or a stop that counts as one, was reached in the present tick (R25, R536). -/
  waited : Bool
  /-- The core has been stopped under R25: the handlers entered and not yet returned from since. RTI from the outermost
  returns into WAIT (R448). -/
  stopped : Option Nat
  /-- TICK_DONE written in the present tick (R25). -/
  tickDone : Bool
  /-- The time of that write, or of WAIT, since t0 + 2 us, in units of 8 ns (R28). -/
  usedNow : Nat
  /-- FPU traps due at the next boundary (R437): the instructions' addresses, in order. -/
  fpuDue : List Word
  /-- A BUDGET trap is due at the next boundary (R29, R33). -/
  budgetDue : Bool
  /-- The core has taken its BUDGET trap in the present tick. -/
  budgetTaken : Bool
  /-- The time of the BUDGET trap of user code in the tick, in the DUR64 unit since t0 (R31). -/
  budgetAt : Option Nat
  deriving DecidableEq, Repr

/-- The cores, and what they share. -/
structure CoresSt where
  core : Vector CoreSt 4
  /-- Descriptors to complete, in the order their requests ended. -/
  ringDone : List RingDone
  /-- Shared memory and dump storage by address 0x10_0000 to 0x2F_FFFF (R423), words that are zero unlisted. -/
  shared : SMap Word
  /-- Words 0 to 3 of the NCO update blocks (R426), by 8 n + word. -/
  nco : SMap Word
  /-- Submitted NCO updates (R24, R426) by slot: CODE_RATE and CARRIER images that take effect at the next tick edge, and
  those written in the guard interval, for the edge after it. -/
  ncoNext : SMap (Option (Nat × Nat))
  ncoLater : SMap (Option (Nat × Nat))
  /-- Core 3 runs migrated firmware tasks in the present tick (R34): the time they take, in us; none when none run. -/
  migrated : Option Nat
  /-- Firmware cores have migrated their tasks (R34): the set of cores whose retirement has been acted on, as bits. -/
  moved : Nat
  /-- User code has been entered in the present tick (R446). -/
  userEntered : Bool
  /-- UserEnable and UserEntry in force since the last tick edge (R447). -/
  userEnable : Bool
  userEntry : Nat
  /-- Time in USER mode in the present tick up to `userSince`, in units of 8 ns (R30). -/
  userUsed : Nat
  /-- Time since t0 at which the present stretch of USER mode began. -/
  userSince : Option Nat
  /-- Consecutive ticks with an overrun, by firmware core (R32). -/
  overruns : Vector Nat 4
  /-- The cores that have overrun in the present tick, as bits; shedding goes on; a shedding step is due at this edge. -/
  overNow : Nat
  shedding : Bool
  shedDue : Bool
  /-- The budget window of the present tick is open (R23). -/
  window : Bool
  /-- The deadline of the present tick has passed. -/
  guard : Bool
  /-- The hard stop of the present tick has passed. -/
  hard : Bool
  /-- Cores that were retired in the last tick and whose tasks move at the next edge, as bits (R34). -/
  toMove : Nat
  deriving DecidableEq, Repr

/-- How an ARMED timer begins counting (R520): at the first grid step after an instant, at the first grid step at or
after an instant, at the first tick edge after a count of them, with its start master. -/
inductive Arm where
  | none
  | after (t : Nat)
  | at_ (t : Nat)
  | tick (m : Nat)
  | master (m : Nat)
  deriving DecidableEq, Repr

/-- One cadence timer beyond its record. -/
structure TmrSt where
  arm : Arm
  /-- STOP executed: it takes effect after the grid step at this instant (R519). -/
  stopAt : Option Nat
  /-- The last grid step counted, in Pond time (DUR64 unit), of a timer clocked from TS8. -/
  last : Nat
  /-- First words of U32 pairs held until the second is written, by window offset (R528). -/
  held : SMap Word
  /-- Status of the last write to window word +8. -/
  cmdStatus : Nat
  deriving DecidableEq, Repr

/-- The cadence timer unit. -/
structure TimersSt where
  tmr : Vector TmrSt 16
  /-- The grid step at which the PULSE in progress of output o ends (R524; log entry 9). -/
  pulse : Vector (Option Nat) 8
  /-- Capture queues, oldest first, at most 4 stamps, as TIME96 images (R526). -/
  queue : Vector (List Nat) 8
  /-- Words +1 to +3 latched by a core's read of +0 (R529), as a TIME96 image. -/
  latch : Vector Nat 8
  /-- The elapsed time at which the last edge seen at each capture input reached the stamp point (R525). -/
  capAt : Vector (Option Nat) 8
  /-- No capture is stamped: SLEEP and deeper (R533). -/
  stopped : Bool
  deriving DecidableEq, Repr

/-- A core at reset (R427): every register zero but SP; its special-function words as log entry 7 says. -/
def CoreSt.reset : CoreSt :=
  { g := .replicate 16 0, a := .replicate 4 0, j := .replicate 8 0, m := .replicate 8 0, k := .replicate 8 0,
    l := .replicate 8 0, ph := 0, pl := 0, f := .replicate 4 0, pcx := 0, sp := 0x010000, st := 0,
    ls := .replicate 4 0, le := .replicate 4 0, lc := .replicate 4 0, nrep := 0, mem := [],
    intEnable := 0, intPending := 0, tickNow1 := 0, tickNow2 := 0, trapCause := 0, trapPc := 0, trapAddr := 0,
    trapSt := 0, stackLow := 0, stackHigh := 0x010000, fpCtrl := 0, dauOp := 0, dauTarget := 0, dauLen := 0, dauBuf := 0,
    dauCap := 0, dauStatus := 0, dauRlen := 0, dauReq := none, ring0 := ⟨0, 0, 0, 0, 0⟩, ring1 := ⟨0, 0, 0, 0, 0⟩,
    exposed := [], shadow := [], cyc := 0, running := false, waiting := false, waited := false, stopped := none, tickDone := false,
    usedNow := 0, fpuDue := [], budgetDue := false, budgetTaken := false, budgetAt := none }

/-- The cores right after a power-up. -/
def CoresSt.reset : CoresSt :=
  { core := .replicate 4 CoreSt.reset, ringDone := [], shared := [], nco := [], ncoNext := [], ncoLater := [], migrated := none, moved := 0, userEntered := false,
    userEnable := false, userEntry := 0x4010, userUsed := 0, userSince := none, overruns := .replicate 4 0, overNow := 0, shedding := false, shedDue := false,
    window := false, guard := false, hard := false, toMove := 0 }

/-- One timer at reset: STOPPED. -/
def TmrSt.reset : TmrSt := ⟨.none, none, 0, [], 0⟩

/-- The timer unit at reset. -/
def TimersSt.reset : TimersSt :=
  ⟨.replicate 16 TmrSt.reset, .replicate 8 none, .replicate 8 [], .replicate 8 0, .replicate 8 none, false⟩

end Sys2Proof.Machine
end

