-- ==== Sys2Proof/Machine/StLake.lean ====
section
/-!
DEFINITION. State of Lake time and the aided-tracking data service beyond the object dictionary (spec/11). Offsets of the
ensemble are in the DUR64 unit times 2^-20, rates in 2^-48 times 2^-20 (log entry 22).
-/

namespace Sys2Proof.Machine

/-- A neighbour as NEIGHBOURS lists it (R390). -/
structure Neigh where
  addr : Nat
  dist : Nat
  sky : Bool
  cv : Bool
  sender : Bool
  deriving DecidableEq, Repr

/-- A common-view observation (R372, R373): signal, satellite, continuous since the previous second, T, sigma in ps. -/
structure CvObs where
  signal : Nat
  satellite : Nat
  cont : Bool
  t : Int
  sigma : Nat
  deriving DecidableEq, Repr

/-- A common-view series at the computing member (R373): the second it stands at, its D_s, C, the seconds since it began. -/
structure CvSt where
  at_ : Nat
  d : List (Nat × Nat × Int)
  c : Int
  steps : Nat
  /-- The entry has a value to report. -/
  live : Bool
  deriving DecidableEq, Repr

/-- A REPORT as the root holds it (R369). -/
structure Report where
  source : Nat
  stepped : Bool
  gnss : Option (Int × Nat × Nat)
  pos : Option (Int × Int × Int)
  scale : Nat
  tstate : Nat
  tick : Nat
  gen : Nat
  rate : Int
  steer : Int
  modelY : Nat
  modelD : Nat
  /-- PORT, PEER, PEER_AT as a TIME96 image, SIGMA. -/
  links : List (Nat × Nat × Nat × Nat)
  /-- PARTNER, SERIES, C, SIGMA. -/
  cv : List (Nat × Nat × Int × Nat)
  deriving DecidableEq, Repr

/-- A member at the computing root (R375, R376): u, r, eps2 in ps² times 2^-20, S in 2^-48 s; consecutive epochs in which the
conditions of entry held, epochs without a report; offsets a at its last epoch edges, newest first. -/
structure EnsMem where
  addr : Nat
  contrib : Bool
  u : Int
  r : Int
  steer : Int
  eps2 : Nat
  run : Nat
  missed : Nat
  hist : List (Nat × Int)
  modelY : Nat
  modelD : Nat
  pos : Option (Int × Int × Int)
  /-- Elapsed time of its last GNSS input. -/
  skyAt : Option Nat
  /-- Its position was reported, and it reported, within the last epochs. -/
  seen : Bool
  deriving DecidableEq, Repr

/-- The bias of a common-view pair and series (R374). -/
structure CvBias where
  a : Nat
  b : Nat
  series : Nat
  bias : Int
  deriving DecidableEq, Repr

/-- The state of a realisation of Lake time (R375 to R378, R384): a_root apart, which u and S of the root give. -/
structure Realm where
  gen : Nat
  /-- Lake time exists: the realisation has been seeded (R383). -/
  begun : Bool
  mems : List EnsMem
  bias : List CvBias
  s : Int
  sI : Int
  gHat : Int
  gSigma : Nat
  /-- Lake time of the last GNSS input, as a TIME96 image, with the elapsed time of that input, and the error E_L0 at it. -/
  lastGnss : Nat
  gnssAt : Option Nat
  e0 : Nat
  /-- The tick of the last complete epoch; a state taken from a replica, which its first epoch carries forward from there (R384). -/
  tick : Nat
  carry : Bool
  deriving DecidableEq, Repr

/-- Lake time. -/
structure LakeSt where
  /-- Reports sent since the last step, re-seed or warm reset: TICK and Pond time of the edge, newest first. -/
  sent : List (Nat × Nat)
  /-- An ESTIMATE of a report of `sent` has come (R381). -/
  matched : Bool
  /-- The next REPORT carries STEPPED. -/
  stepped : Bool
  /-- RateApplied summed over the ticks since the last epoch edge, in 2^-48 ms. -/
  steer : Int
  /-- The tick number of the last epoch edge acted on, and epochs since the last ESTIMATE. -/
  epoch : Option Nat
  silent : Nat
  /-- The root whose silence that counts (R385). -/
  silentRoot : Nat
  /-- The sender of the last ESTIMATE, none since a reset (R380). -/
  estFrom : Option Nat
  /-- Elapsed time of the last valid ESTIMATE; its x, RATE, Pond time of its edge. -/
  estAt : Option Nat
  est : Option (Int × Int × Nat)
  /-- The acting standby this member reports to (R385). -/
  acting : Option Nat
  neighbours : List Neigh
  cv : Vector CvSt 4
  /-- This device's own observations of the last whole second, and that second (R372, R373). -/
  cvOwn : Nat × List CvObs
  /-- Elapsed time of the last SUBSCRIBE, and what is subscribed: neighbour, signal, satellite. -/
  subAt : Option Nat
  subOut : List (Nat × Nat × Nat)
  /-- Subscriptions served: subscriber, signal, satellite, elapsed time of the last SUBSCRIBE. -/
  subIn : List (Nat × Nat × Nat × Nat)
  /-- The computing root: its epoch edge in Pond time and the elapsed time of it, the reports of the epoch. -/
  open_ : Option (Nat × Nat)
  reports : List Report
  /-- GNSS inputs since the last whole second: source, x, sigma, Pond time of the solution in the member's time. -/
  inputs : List (Nat × Int × Nat × Nat)
  realm : Realm
  genCount : Nat
  neighAt : Option Nat
  /-- Fragments of a REPLICA in progress: source, TICK, NFRAG, the bodies by FRAG. -/
  frags : Option (Nat × Nat × Nat × List (Nat × List Nat))
  /-- The last complete replica and the elapsed time of its arrival. -/
  replica : Option (Realm × Nat)
  /-- An acting standby stops at the next epoch. -/
  stopActing : Bool
  /-- This device's realisation gives way to another root's: its REPLICA is awaited (R388). -/
  merging : Bool
  deriving DecidableEq, Repr

def CvSt.reset : CvSt := ⟨0, [], 0, 0, false⟩

def Realm.reset : Realm :=
  { gen := 0, begun := false, mems := [], bias := [], s := 0, sI := 0, gHat := 0, gSigma := 0, lastGnss := 0, gnssAt := none,
    e0 := 0xFFFFFFFF, tick := 0, carry := false }

def LakeSt.reset : LakeSt :=
  { sent := [], matched := false, stepped := false, steer := 0, epoch := none, silent := 0, silentRoot := 0, estFrom := none, estAt := none, est := none,
    acting := none, neighbours := [], cv := .replicate 4 CvSt.reset, cvOwn := (0, []), subAt := none, subOut := [], subIn := [], open_ := none,
    reports := [], inputs := [], realm := Realm.reset, genCount := 0, neighAt := none, frags := none, replica := none,
    stopActing := false, merging := false }

end Sys2Proof.Machine
end

