-- ==== Sys2Proof/Machine/StNet.lean ====
section
/-!
DEFINITION. State of the ports, the links and the Omzia network beyond the object dictionary (spec/09, spec/10).
Elapsed times count Pond rate without its steps, in the DUR64 unit; "ms" names counts of tick edges.
-/

namespace Sys2Proof.Machine

/-! ### Ports (spec/09) -/

/-- One launch of a timing frame whose exchange is not posted (R308): its tick, T1, T3 with T4, T2 (TIME96 images), whether a peer
frame of it carried STEPPED, and whether its tick has counted as MISSING. -/
structure Launch where
  tick : Nat
  t1 : Nat
  t34 : Option (Nat × Nat)
  t2 : Option Nat
  step : Bool
  missed : Bool
  deriving DecidableEq, Repr

/-- A timing record as posted (R309): its tick, θ and δ in the DUR64 unit, T1, and its flags. -/
structure LinkRec where
  tick : Nat
  t1 : Nat
  theta : Int
  delta : Int
  missing : Bool
  peerStep : Bool
  degraded : Bool
  jump : Bool
  deriving DecidableEq, Repr

/-- A network frame at an output port (R335): its bytes as they were last sent, the AGE it came with, and the elapsed time since
which it resides in this device; none while this device is its source and has not sent it. -/
structure OutFrame where
  bytes : List Nat
  age : Nat
  since : Option Nat
  deriving DecidableEq, Repr

/-- PTP of one port (R315 to R319). -/
structure PtpSt where
  syncSeq : Nat
  annSeq : Nat
  reqSeq : Nat
  /-- Elapsed times of the last Sync, Announce and request sent. -/
  syncAt : Nat
  annAt : Nat
  reqAt : Nat
  /-- The best Announce received, its sender, and the elapsed time of the last one. -/
  foreign : Option (PtpQuality × Nat)
  heardAt : Nat
  /-- A two-step Sync waiting for its Follow_Up: sequence, sender, ingress stamp, correction. -/
  sync : Option (Nat × Nat × Int × Int)
  /-- t2 - t1 of the last Sync used, in the DUR64 unit. -/
  down : Option Int
  /-- The request outstanding: its sequence and egress stamp. -/
  req : Option (Nat × Int)
  /-- Residence of forwarded two-step Syncs: sender, sequence, time to add to the Follow_Up. -/
  resid : List (Nat × Nat × Int)
  /-- The last message sent on the port. -/
  sent : Option PtpMsg
  deriving DecidableEq, Repr

/-- One port. -/
structure PortSt where
  /-- PortMode in force since the last tick edge; the port is named by HostPortNumber. -/
  mode : Nat
  host : Bool
  /-- Receive signal is detected; the receiver holds symbol lock. -/
  signal : Bool
  locked : Bool
  /-- Elapsed time of entry to TRAINING; AUTO: ETHERNET is tried, since when. -/
  since : Nat
  tryEth : Bool
  tryAt : Nat
  /-- Elapsed time of a training failure (R300). -/
  failAt : Option Nat
  /-- A HELLO has arrived in the present TRAINING, and the device has sent one. -/
  helloIn : Bool
  helloOut : Bool
  /-- The UID of the device at the other end, once its own LSA has come over the link. -/
  peer : Option Nat
  /-- The next HELLO carries RESTART. -/
  restart : Bool
  /-- The next link sequence number to send, and to accept. -/
  txSeq : Nat
  rxSeq : Nat
  /-- The retry buffer, oldest first (R304): sequence number and network frame. -/
  buf : List (Nat × OutFrame)
  /-- Frames that wait to start, in order of arrival; the rounds of R339 by class: source, deficit, in its turn. -/
  wait : List OutFrame
  round : Vector (List (Nat × Nat × Bool)) 4
  /-- Allowances of classes 0 and 1 (R338) in bytes times SEC, and the elapsed time they stand at. -/
  tok0 : Nat
  tok1 : Nat
  tokAt : Nat
  /-- Elapsed time of the last start or resend; a resend has not been acknowledged. -/
  sentAt : Nat
  retrying : Bool
  /-- The last control frame sent (R301). -/
  ctl : List Nat
  /-- Bad frames in the present second; consecutive bad seconds; consecutive seconds with none and no failed retry. -/
  bad : Nat
  badRun : Nat
  clean : Nat
  /-- A retry has failed in the present second. -/
  failed : Bool
  /-- Launches whose exchange is not complete, newest first; the stamp and TICK of the last timing frame received. -/
  launches : List Launch
  rxPrev : Option (Nat × Nat)
  /-- The next timing frame carries STEPPED. -/
  stepped : Bool
  /-- The last timing frame sent. -/
  frame : List Nat
  /-- An exchange with all four stamps in hand: it, the asymmetry, and the instant it is posted. -/
  due : List (Launch × Nat)
  /-- Records of the present Lake interval, newest first (R370). -/
  recs : List LinkRec
  /-- The last tick whose record was posted. -/
  posted : Option Nat
  /-- A RETRAIN of PortCommand has sent the port to the TRAINING it is in (R48). -/
  retraining : Bool
  /-- Δ of this end in force since the last tick edge; of the period of R311 the tick count of its beginning, the sum of
  Δ + 2 (θ - x_g) over this device's solutions, and their number. -/
  asym : Int
  asymAt : Nat
  asymSum : Int
  asymN : Nat
  ptp : PtpSt
  deriving DecidableEq, Repr

/-- A frame in a launch queue (R320, R321). -/
structure LaunchEnt where
  handle : Nat
  port : Nat
  /-- LAUNCH_AT as a TIME96 image. -/
  at96 : Nat
  lateOk : Bool
  /-- LAUNCH_AT had passed at acceptance. -/
  late : Bool
  frame : List Nat
  deriving DecidableEq, Repr

/-- The ports and their launch queues. -/
structure PortsSt where
  port : Vector PortSt 32
  /-- References of the four groups (R299). -/
  group : Vector Bool 4
  /-- Entries of all ports in launch order: by LAUNCH_AT, then by acceptance. -/
  launch : List LaunchEnt
  handle : Nat
  deriving DecidableEq, Repr

/-! ### The network (spec/10) -/

/-- One link of an LSA (R336): the peer's UID, the ports of both ends, the cost. -/
structure LsaLink where
  peer : Nat
  local_ : Nat
  port : Nat
  cost : Nat
  deriving DecidableEq, Repr

/-- A link-state advertisement held (R333): its fields; the tick counts of its last refresh and since which the device has
been live without a break; whether it came authenticated under a slot of role PEER (R406). -/
structure Lsa where
  uid : Nat
  addr : Nat
  seq : Nat
  prio : Nat
  state : Nat
  links : List LsaLink
  at_ : Nat
  auth : Bool
  deriving DecidableEq, Repr

/-- A route (R334): destination address, the port of the primary path, the port of the second path. -/
structure Route where
  dest : Nat
  port : Nat
  second : Option Nat
  deriving DecidableEq, Repr

/-- A network frame received or looped back, not yet taken: its port (255 for a frame from this device), the elapsed time of
its arrival, its bytes. -/
structure InFrame where
  port : Nat
  at_ : Nat
  bytes : List Nat
  deriving DecidableEq, Repr

/-- An entry of the root's address table (R329): UID, address, and the tick count at which its holder was last live. -/
structure AddrEnt where
  uid : Nat
  addr : Nat
  lastLive : Nat
  deriving DecidableEq, Repr

/-- An open transaction (R343): the elapsed time of the last attempt, the attempts made; the ring descriptor that submitted
it, as core and index. -/
structure TxnEnt where
  dest : Nat
  epoch : Nat
  number : Nat
  payload : List Nat
  at_ : Nat
  tries : Nat
  ring : Option (Nat × Nat)
  deriving DecidableEq, Repr

/-- A kept reply of a target (R343). -/
structure TxnKept where
  source : Nat
  epoch : Nat
  number : Nat
  reply : List Nat
  at_ : Nat
  deriving DecidableEq, Repr

/-- A request frame whose operations are executing (R77, R78, R343): the context, the reply so far and its limit, the
operations left as (OP, INDEX, SUB, LEN, data), STOP, and whether one has failed; the source, epoch and number of a
transaction; the port the request came by; the Ethernet header of a host reply and the host's MAC address. -/
structure FrameRun where
  ctx : Ctx
  stop : Bool
  failed : Bool
  limit : Nat
  reply : List Nat
  ops : List (Nat × Nat × Nat × Nat × List Nat)
  toward : Option (Nat × Nat × Nat)
  port : Nat
  head : List Nat
  mac : Nat
  deriving DecidableEq, Repr

/-- The fixed part of a MESSAGE (R349), times as TIME96 images. -/
structure Msg where
  epoch : Nat
  number : Nat
  channel : Nat
  flags : Nat
  chseq : Nat
  keeper : Nat
  deliverAt : Nat
  expires : Nat
  payload : List Nat
  deriving DecidableEq, Repr

/-- A channel copy of a source entry: its resend interval in ms (0: not sent yet), the elapsed time of its last sending,
its outcome once closed (0 CONFIRMED, 1 EXPIRED, 2 UNCONFIRMED). -/
structure Copy where
  channel : Nat
  chseq : Nat
  dest : Nat
  keeper : Nat
  interval : Nat
  at_ : Nat
  outcome : Option Nat
  deriving DecidableEq, Repr

/-- A source entry of the journal. -/
structure SrcEnt where
  epoch : Nat
  number : Nat
  ref : Nat
  flags : Nat
  deliverAt : Nat
  expires : Nat
  payload : List Nat
  copies : List Copy
  deriving DecidableEq, Repr

/-- A receive record (R345, R350): the next expected CHSEQ, and the elapsed time at which it is freed after a CLOSE. -/
structure RecvRec where
  source : Nat
  channel : Nat
  next : Nat
  freeAt : Option Nat
  deriving DecidableEq, Repr

/-- A receipt in the journal (R350, R352): the key slot its frame was authenticated under; where it is (0 journal, 1 delivery
queue, 2 presented). -/
structure Receipt where
  source : Nat
  msg : Msg
  slot : Option Nat
  relayed : Bool
  /-- Pond time before which it was not due: its arrival, or the delivery of the one before it on its channel. -/
  ready : Nat
  /-- It arrived after its DELIVER_AT; a forward step passed over its instant. -/
  arrivedLate : Bool
  steppedOver : Bool
  stage : Nat
  /-- The status of a WRITE that has executed and failed and is still to be presented (R353). -/
  failed : Option Nat
  deriving DecidableEq, Repr

/-- A keeper's copy (R351): the tick count of HOLD; relayed with its resend interval and the elapsed time of its last
sending. -/
structure KeeperEnt where
  source : Nat
  dest : Nat
  msg : Msg
  relayed : Bool
  interval : Nat
  at_ : Nat
  deriving DecidableEq, Repr

/-- A submission whose keepers have not all answered HELD (R347): the request it came by, the entry, the keepers awaited by
channel, the elapsed time of the HOLDs; DELIVER_AT had passed without LATE_OK. -/
structure SubWait where
  ctx : Ctx
  ent : SrcEnt
  await : List Nat
  at_ : Nat
  late : Bool
  deriving DecidableEq, Repr

/-- A fabric-scope change a member has prepared (R357); committed once COMMIT has come. -/
structure FsChange where
  cseq : Nat
  tick : Nat
  index : Nat
  sub : Nat
  value : List Nat
  committed : Bool
  deriving DecidableEq, Repr

/-- A proposal at the root (R357): the change, its proposer, the members whose READY is awaited. -/
structure FsRoot where
  change : FsChange
  proposer : Nat
  await : List Nat
  deriving DecidableEq, Repr

/-- One stream this device receives, or sends (R344). -/
structure StreamRx where
  source : Nat
  stream : Nat
  inc : Nat
  next : Nat
  bytes : Nat
  deriving DecidableEq, Repr
structure StreamTx where
  dest : Nat
  stream : Nat
  inc : Nat
  open_ : Bool
  /-- SEQ of the oldest frame not acknowledged, the frames from it on, the number sent of them. -/
  base : Nat
  frames : List (List Nat)
  sent : Nat
  at_ : Nat
  deriving DecidableEq, Repr

/-- The network layer. -/
structure NetSt where
  inbox : List InFrame
  lsas : List Lsa
  /-- UIDs live in the database and the tick counts since which they have been live without a break. -/
  live : List (Nat × Nat)
  lsaSeq : Nat
  /-- Tick count of the last change of the database, of this device's last LSA; its links as last advertised. -/
  dbAt : Nat
  lsaAt : Nat
  links : List LsaLink
  /-- The database has changed since routes were computed: whether, and the tick count of the first such change; since the
  election. -/
  dirty : Bool
  dirtyAt : Nat
  unsettled : Bool
  routes : List Route
  /-- Routes computed, for the next tick edge. -/
  nextRoutes : Option (List Route)
  /-- Relayed JOINs: UID and the port their link peer is on. -/
  relays : List (Nat × Nat)
  /-- Elapsed time of the last JOIN sent, and the fabric-scope subindices still to fetch. -/
  joinAt : Nat
  joined : Bool
  fetch : List (Nat × Nat)
  table : List AddrEnt
  /-- Tick count of a change of the root that left a proposal without a PREPARE. -/
  rootAt : Option Nat
  txns : List TxnEnt
  kept : List TxnKept
  /-- Newest epoch received from each source, and the tick count of its request (R342). -/
  epochs : List (Nat × Nat × Nat)
  run : Option FrameRun
  submit : Option SubWait
  entries : List SrcEnt
  recvs : List RecvRec
  receipts : List Receipt
  keepers : List KeeperEnt
  /-- Journal budget spent in the present tick (R348): messages, bytes. -/
  spentMsgs : Nat
  spentBytes : Nat
  /-- Tick counts since which a destination or source has not been live. -/
  deadSince : List (Nat × Nat)
  /-- UID of the elected root, 0 for none. -/
  root : Nat
  fsSeq : Nat
  fsRoot : List FsRoot
  fsHeld : List FsChange
  /-- Values to apply at the next tick edge. -/
  fsNext : List FsChange
  /-- This device's last proposal while its PREPARE has not come: index, subindex, value; its CSEQ once it has. -/
  proposed : Option (Nat × Nat × List Nat)
  mine : Option Nat
  /-- The CSEQ of the last commit applied to each object, by key. -/
  fsDone : SMap Nat
  streamCount : Nat
  rx : List StreamRx
  tx : List StreamTx
  /-- Counters of authentication (R405), by sender and slot: H, and the window of counters below it, as bits. -/
  seen : List (Nat × Nat × Nat × Nat)
  deriving DecidableEq, Repr

def PtpSt.reset : PtpSt :=
  { syncSeq := 0, annSeq := 0, reqSeq := 0, syncAt := 0, annAt := 0, reqAt := 0, foreign := none, heardAt := 0,
    sync := none, down := none, req := none, resid := [], sent := none }

def PortSt.reset : PortSt :=
  { mode := 3, host := false, signal := false, locked := false, since := 0, tryEth := false, tryAt := 0, failAt := none,
    helloIn := false, helloOut := false, peer := none, restart := true, txSeq := 0, rxSeq := 0, buf := [], wait := [],
    round := .replicate 4 [], tok0 := 16384 * SEC, tok1 := 16384 * SEC, tokAt := 0, sentAt := 0, retrying := false,
    ctl := [], bad := 0, badRun := 0, clean := 0, failed := false, launches := [], rxPrev := none, stepped := false, frame := [],
    due := [], recs := [], posted := none, retraining := false, asym := 0, asymAt := 0,
    asymSum := 0, asymN := 0, ptp := PtpSt.reset }

def PortsSt.reset : PortsSt := { port := .replicate 32 PortSt.reset, group := .replicate 4 false, launch := [], handle := 0 }

def NetSt.reset : NetSt :=
  { inbox := [], lsas := [], live := [], lsaSeq := 0, dbAt := 0, lsaAt := 0, links := [], dirty := false, dirtyAt := 0,
    unsettled := false, routes := [], nextRoutes := none, relays := [], joinAt := 0, joined := false, fetch := [],
    table := [], rootAt := none, txns := [], kept := [], epochs := [], run := none, submit := none, entries := [],
    recvs := [], receipts := [], keepers := [], spentMsgs := 0, spentBytes := 0, deadSince := [], root := 0,
    fsSeq := 0, fsRoot := [], fsHeld := [], fsNext := [], proposed := none, mine := none, fsDone := [], streamCount := 0, rx := [], tx := [],
    seen := [] }

end Sys2Proof.Machine
end

