-- ==== Sys2Proof/Machine/StProt.lean ====
section
/-!
DEFINITION. State of protection and two-party change beyond the object dictionary (spec/12).
-/

namespace Sys2Proof.Machine

/-- A principal as R578 writes it: the path in bits [7:4] with the key slot in bits [3:0], and its device address. -/
structure Principal where
  byte : Nat
  addr : Nat
  deriving DecidableEq, Repr

/-- A pending two-party change (R408): its value as link bytes; the proposer's principal and role; the count of CK_AON
cycles at acceptance. -/
structure Pending where
  id : Nat
  index : Nat
  sub : Nat
  value : List Nat
  proposer : Principal
  role : Nat
  card : Bool
  digest : List Nat
  at_ : Nat
  deriving DecidableEq, Repr

/-- One of the last 8 closures (R409): 0 applied, 1 expired, 2 cancelled. -/
structure Closure where
  id : Nat
  proposer : Principal
  outcome : Nat
  deriving DecidableEq, Repr

/-- Protection. -/
structure ProtSt where
  /-- Keys by slot, 16 bytes each as a number; 0 when the slot holds none. -/
  keys : SMap Nat
  /-- AuthRequired in force since the last tick edge (R406). -/
  required : Nat
  changeId : Nat
  /-- By acceptance, at most 8. -/
  pending : List Pending
  /-- Newest first, at most 8. -/
  closed : List Closure
  /-- A card failed: no attempt until no card has answered for 1 s (R411); the elapsed time of the last answer. -/
  cardHeld : Bool
  cardAt : Nat
  /-- Elapsed time of the last poll of CardPosition. -/
  pollAt : Option Nat
  /-- A ceiling has changed: CEILING_APPLIED is judged at the next tick edge (R414). -/
  ceiling : Bool
  deriving DecidableEq, Repr

def ProtSt.reset : ProtSt :=
  { keys := [], required := 0, changeId := 0, pending := [], closed := [], cardHeld := false, cardAt := 0, pollAt := none,
    ceiling := false }

end Sys2Proof.Machine
end

