-- ==== Sys2Proof/Machine/StRx.lean ====
section
/-!
DEFINITION. State of the antenna inputs, the receive chains and the spectrum monitor beyond the object dictionary
(spec/04). Elapsed times count Pond rate without its steps, in the DUR64 unit.
-/

namespace Sys2Proof.Machine

/-- One antenna input (R120, R121, R141, R142). -/
structure AntSt where
  /-- BiasMode in force since the last tick edge. -/
  bias : Nat
  /-- The conditions of R121 that hold. -/
  short : Bool
  low : Bool
  opened : Bool
  /-- The bias switch is on. -/
  switchOn : Bool
  /-- Elapsed time of the last trial in SHORT, or of its entry. -/
  trialAt : Nat
  /-- Count of tick edges since which the input has had no tracked signal while the other had at least 4. -/
  noSignalSince : Option Nat
  /-- Count of tick edges since which the antenna has been usable without a break. -/
  usableSince : Option Nat
  deriving DecidableEq, Repr

/-- One notch (R128, R129). -/
structure NotchSt where
  /-- Consecutive spectra with a line above DetectMargin, by bin. -/
  runs : SMap Nat
  /-- Consecutive spectra with the held line below DetectMargin less 3 dB. -/
  lowRun : Nat
  /-- The bin of the line held. -/
  bin : Option Nat
  /-- The state it had when it was FROZEN. -/
  frozen : Option Nat
  deriving DecidableEq, Repr

/-- One chain. -/
structure ChainSt where
  /-- Powered: ChainEnable and RedundancyMode as they stood at the last tick edge. -/
  powered : Bool
  /-- Steps queued, bit 0 OSCILLATOR to bit 3 OFFSET; zero when not queued (R131). -/
  queued : Nat
  /-- Elapsed time of its entry to the queue, and whether it entered at the head, for a loss of lock (R132). -/
  queuedAt : Nat
  urgent : Bool
  /-- Consecutive failed runs (R134). -/
  failRuns : Nat
  /-- Elapsed time of entry to FAULT. -/
  faultAt : Nat
  /-- The LO has lost lock since its last OSCILLATOR step (R135). -/
  loLost : Bool
  /-- Elapsed time since which its sub-band buses have carried zeros (R124, R133, R135). -/
  zeroAt : Option Nat
  /-- The 8.0 degree condition held at the last tick edge. -/
  tempOver : Bool
  /-- Parts of the present tick's FrontEndStatus: CAL, LO_UNLOCK, NOTCH_MOVING, REPHASE. -/
  cal : Bool
  lo : Bool
  moving : Bool
  rephase : Bool
  /-- Ticks for which CAL stays set after a wake (R143). -/
  wakeCal : Nat
  /-- Tick edges until the notches are free again after a calibration (R129). -/
  thaw : Nat
  /-- The filtered rms level of R125, in 2^-32 of a thousandth of 0.1 LSB; the samples of the present tick that triggers of the
  last one blank (R127). -/
  level : Nat
  tail : Nat
  /-- Elapsed time of the notch detector's last spectrum (R129). -/
  lineAt : Nat
  /-- Ticks of clean operation counted, and the gains seen in them, before AgcBaseline is learned (R126). -/
  clean : Nat
  gains : SMap Nat
  /-- AgcBaseline times 2^32 while it follows the gain. -/
  fine : Nat
  notch : Vector NotchSt 4
  deriving DecidableEq, Repr

/-- A calibration in progress (R130, R132): its chain, the steps left (the first one running; none: settling), whether a
CalRequest awaits it, whether the chain has been disabled since its start (R145), whether the LO has lost lock in the step
in progress so that the step fails (R149), and the elapsed time at which the step, or settling, began. -/
structure CalRun where
  chain : Nat
  steps : List Nat
  requested : Bool
  disabled : Bool
  lost : Bool
  since : Nat
  deriving DecidableEq, Repr

/-- An averaging in progress (R137, R138). -/
structure SpecRun where
  chain : Nat
  point : Nat
  frames : Nat
  /-- Elapsed time and Pond time of its start. -/
  start : Nat
  startAt : Nat
  gain : Nat
  status : Nat
  deriving DecidableEq, Repr

/-- The receive part. -/
structure RxSt where
  ant : Vector AntSt 2
  chain : Vector ChainSt 4
  /-- Queued chains in the order of service. -/
  queue : List Nat
  run : Option CalRun
  /-- Chains of the last CalRequest that have not finished, as bits; some of them failed. -/
  asked : Nat
  askFailed : Bool
  spec : Option SpecRun
  /-- Elapsed time of the last averaging's start, and its chain. -/
  specLast : Option Nat
  specChain : Nat
  /-- An averaging was abandoned and restarts when CAL clears (R146). -/
  specRedo : Bool
  /-- RedundancyMode and Primary in force since the last tick edge. -/
  mode : Nat
  primary : Nat
  deriving DecidableEq, Repr

def NotchSt.reset : NotchSt := ⟨[], 0, none, none⟩
def AntSt.reset : AntSt := ⟨0, false, false, false, false, 0, none, none⟩
def ChainSt.reset : ChainSt :=
  { powered := false, queued := 0, queuedAt := 0, urgent := false, failRuns := 0, faultAt := 0, loLost := false,
    zeroAt := some 0, tempOver := false, cal := false,
    lo := false, moving := false, rephase := false, wakeCal := 0, thaw := 0, level := 0, tail := 0, lineAt := 0, clean := 0, gains := [], fine := 0,
    notch := .replicate 4 NotchSt.reset }

/-- The receive part right after a power-up: bias off, chains OFF (R560). -/
def RxSt.reset : RxSt :=
  { ant := .replicate 2 AntSt.reset, chain := .replicate 4 ChainSt.reset, queue := [], run := none, asked := 0,
    askFailed := false, spec := none, specLast := none, specChain := 0, specRedo := false, mode := 0, primary := 0 }

end Sys2Proof.Machine
end

