-- ==== Sys2Proof/Machine/StSys.lean ====
section
/-!
DEFINITION. State of the reader, of power, reset and boot, and of the test access port beyond the object dictionary
(spec/15, spec/17, spec/18, spec/20). Elapsed times are in the DUR64 unit and are moved by no step of Pond time.
-/

namespace Sys2Proof.Machine

/-! ### The reader (spec/15) -/

/-- An inventory round (R505): the UIDs found; the mask of the request in progress as bits, least significant first, the
slot it has come to, whether a slot has collided, the masks still to search; for Type A the stage (0 WUPA, 1 anticollision,
2 SELECT, 3 HLTA; 4 is the HLTB of Type B), the cascade level, the UID bytes of the levels done. -/
structure InvSt where
  found : List (List Nat)
  mask : List Nat
  slot : Nat
  collided : Bool
  stack : List (List Nat)
  stage : Nat
  level : Nat
  uid : List Nat
  deriving DecidableEq, Repr

/-- What the reader reports of a frame: RX_COIL, LQ, amplitude, the intruder's amplitude, the first coding violation, the
time to its SOF in fc, its bytes. -/
structure RxReport where
  coil : Nat
  lq : Nat
  amp : Nat
  other : Nat
  viol : Option Nat
  respAt : Nat
  bytes : List Nat
  deriving DecidableEq, Repr

/-- Nothing was received. -/
def RxReport.none : RxReport := ⟨0, 0, 0, 0, Option.none, 0, []⟩

/-- A command that holds the reader (R501): its fields; attempts begun for the present frame; the elapsed times at which its
command frame starts, none before the field is on, and ends; the Pond time of that start as a TIME96 image. -/
structure RdrCmd where
  op : Nat
  flags : Nat
  ref : Nat
  pos : Nat
  proto : Nat
  retries : Nat
  timeout : Nat
  txbits : Nat
  data : List Nat
  tries : Nat
  startAt : Option Nat
  endAt : Nat
  started : Nat
  inv : InvSt
  /-- The frame of the last attempt that failed, and the elapsed time at which the command was taken (R502, R515). -/
  last : RxReport
  took : Nat
  /-- Its protocol family has been excluded since: it ends when the frame in progress does (R511). -/
  drop : Bool
  deriving DecidableEq, Repr

/-- The reader. -/
structure ReaderSt where
  /-- ReaderEnable in force since the last tick edge. -/
  enabled : Bool
  /-- Elapsed time of the last change of SynthState. -/
  synthAt : Nat
  /-- A calibration has run since the last reset, and since the synthesiser last locked; calibrations that failed to reach
  lock one after another; a trigger waits (R489); three have failed. -/
  calRun : Bool
  calDue : Bool
  calTried : Bool
  calFails : Nat
  fault : Bool
  /-- DieTemperature lay 8.0 °C or more from SynthCalTemperature at the last tick edge (R489). -/
  drifted : Bool
  /-- The position DWSEL carries, and the elapsed time of its last change. -/
  pos : Nat
  selAt : Nat
  /-- Elapsed times of the last field-on and field-off. -/
  onAt : Nat
  offAt : Option Nat
  /-- Intervals with the field on, newest first, as start and end (R492). -/
  spans : List (Nat × Nat)
  /-- A field-on that waits: the position and the elapsed time at which FieldOffMin and the change of DWSEL are over. -/
  want : Option (Nat × Nat)
  cmd : Option RdrCmd
  /-- The gain of the receive AGC in dB, and whether it is frozen: from an SOF to the end of its frame (R497). -/
  gain : Nat
  frozen : Bool
  /-- The elapsed time at which the least gap before the next command frame is over (R496). -/
  gapAt : Nat
  /-- Elapsed time of the last card-detection burst; CoilDetuneRef times 64, by coil port. -/
  burstAt : Nat
  detune : SMap Nat
  /-- Items of a running delay scan still to read; a scan is due; the elapsed time of the end of the last one. -/
  scan : Option (List Nat)
  scanDue : Bool
  scanAt : Nat
  /-- DieTemperature has reached 118.0 °C and not fallen below 110.0 °C since (R618). -/
  cut : Bool
  deriving DecidableEq, Repr

/-! ### Power states (spec/17) -/

/-- Where the device is: RUN, SLEEP, DEEP or OFF; held in reset; starting, before its PLL has locked. -/
inductive Phase where
  | run | sleep | deep | off | held | starting
  deriving DecidableEq, Repr

/-- Power. -/
structure PowerSt where
  phase : Phase
  /-- An armed attempt (R536): the replies still to be fetched until the reply to its write has left. -/
  armed : Option Nat
  /-- Elapsed time, and the count of CK_AON, at which SLEEP or DEEP was reached. -/
  reachedAt : Nat
  reachedAon : Nat
  /-- RefStatus was VALID at entry (R546). -/
  refWas : Bool
  /-- OASIS runs: the elapsed time of its entry; the elapsed time of the start of a burst in progress. -/
  oasis : Option Nat
  burst : Option Nat
  /-- Back from SLEEP, before the first tick edge after the relock (R541); elapsed time at which the source acted. -/
  waking : Bool
  wakeAt : Nat
  /-- The count of CK_AON at which the regulator's ramp of a start or a wake began (R545). -/
  rampAon : Nat
  /-- The wake latch of the always-on domain (R545 to R547): cause, failed attempts of the present wake, operating seconds
  at the last entry; the operating seconds of each failure not yet logged, oldest first. -/
  latchCause : Nat
  fails : Nat
  latchedAt : Nat
  failed : List Nat
  /-- The wake has given up; the count of CK_AON at the last failure. -/
  gaveUp : Bool
  failAon : Nat
  /-- A raise of the level in progress (R551): the level, the elapsed time at which its ramp started. -/
  ramp : Option (Nat × Nat)
  /-- Firmware has started since the last cold start: LevelRequest and LevelCeiling apply (R569). -/
  levels : Bool
  /-- DieTemperature exceeded ThermalAlertLimit at the last tick edge (R618). -/
  hot : Bool
  /-- CoreSpreadEnable in force since the last tick edge (R19). -/
  spread : Bool
  deriving DecidableEq, Repr

/-! ### Reset and boot (spec/18) -/

/-- The kinds of a start (R558). -/
inductive StartKind where
  | warm | cold | power
  deriving DecidableEq, Repr

/-- A load of an image (R564): core, word address and length of each local-memory section; the SHA-256 recorded of the
sections of each core (R566). -/
structure Loaded where
  sections : List (Nat × Nat × Nat)
  hashes : List (List Nat)
  deriving DecidableEq, Repr

/-- Reset and boot. -/
structure BootSt where
  /-- A reset that is due: its kind and ResetCause; the replies still to be fetched before it begins (R559); UPDATE. -/
  due : Option (StartKind × Nat × Nat × Bool)
  /-- The kind of the last start, and the elapsed time of its release. -/
  kind : StartKind
  releasedAt : Nat
  /-- The sources still to try, the first of them in progress (0 FLASH, 1 PEER, 2 HOST), and the elapsed time since which
  it is tried; the other flash slot is being tried. -/
  sources : List Nat
  sourceAt : Nat
  other : Bool
  /-- An image is loaded, so that firmware may start. -/
  image : Bool
  loaded : Option Loaded
  /-- The staging area: bytes by offset (R565). -/
  staged : SMap Nat
  /-- The ImageCommand being carried out: 2 RUN, 3 STORE_AND_RUN, and the BootSource it came by; its flash write is in
  progress. -/
  verify : Option (Nat × Nat)
  writing : Bool
  /-- The device state to take at the next tick edge (R568). -/
  next : Option Nat
  /-- Consecutive ticks in which each firmware core was halted (R558). -/
  halts : Vector Nat 3
  deriving DecidableEq, Repr

/-! ### The test access port (R596) -/

/-- The states of the test access port of IEEE 1149.1. -/
inductive Tap where
  | reset | idle | selectDr | captureDr | shiftDr | exit1Dr | pauseDr | exit2Dr | updateDr
  | selectIr | captureIr | shiftIr | exit1Ir | pauseIr | exit2Ir | updateIr
  deriving DecidableEq, Repr

/-- The test access port: its state; the shift register; the instruction and the data last updated; TDO, driven only in the
shift states; TRST_N asserted. -/
structure TapSt where
  state : Tap
  shift : List Bool
  ir : List Bool
  dr : List Bool
  tdo : Option Bool
  trst : Bool
  deriving DecidableEq, Repr

def InvSt.reset : InvSt := ⟨[], [], 0, false, [], 0, 0, []⟩

def ReaderSt.reset : ReaderSt :=
  { enabled := false, synthAt := 0, calRun := false, calDue := false, calTried := false, calFails := 0, fault := false, drifted := false,
    pos := 0, selAt := 0, onAt := 0, offAt := none, spans := [], want := none, cmd := none, gain := 0, frozen := false, gapAt := 0, burstAt := 0, detune := [],
    scan := none, scanDue := false, scanAt := 0, cut := false }

def PowerSt.reset : PowerSt :=
  { phase := .starting, armed := none, reachedAt := 0, reachedAon := 0, refWas := true, oasis := none, burst := none,
    waking := false, wakeAt := 0, rampAon := 0, latchCause := 0, fails := 0, latchedAt := 0, failed := [], gaveUp := false, failAon := 0, ramp := none, levels := false,
    hot := false, spread := true }

def BootSt.reset : BootSt :=
  { due := none, kind := .power, releasedAt := 0, sources := [0, 2], sourceAt := 0, other := false,
    image := false, loaded := none, staged := [], verify := none, writing := false, next := none,
    halts := .replicate 3 0 }

def TapSt.reset : TapSt := ⟨.reset, [], [], [], none, true⟩

end Sys2Proof.Machine
end

