-- ==== Sys2Proof/Machine/StTime.lean ====
section
/-!
DEFINITION. State of the time of the block beyond the object dictionary (spec/03, spec/01): Pond time and its tick,
steering, the step that is due, outputs. Every record here is plain data.
-/

namespace Sys2Proof.Machine

/-- Where a step or re-seed comes from (R89, R93). -/
inductive StepSource where
  | gnss | lake | host
  deriving DecidableEq, Repr

/-- A step the Pond time unit holds (R89, R90): the value for the step edge, either an offset to Pond time in the DUR64 unit or
the value itself as a TIME96 image; the count of tick edges before which it is not applied; its source; its frequency estimate, if it has one; its
error estimate in ps; and whether it is a re-seed. -/
structure StepDue where
  /-- Pond time is set to `old + amount`, in the DUR64 unit, when relative, to the TIME96 image `amount` otherwise. -/
  relative : Bool
  amount : Int
  notBefore : Nat
  source : StepSource
  freq : Option Int
  error : Nat
  reseed : Bool
  deriving DecidableEq, Repr

/-- A confirmed re-seed in progress (R93): its source byte (0 LAKE, 1 GNSS, 2 VALUE), its value, the elapsed time
of its confirmation, its CHANGE_ID, and whether its log record has been written (it then waits for the commit, R115) with
the step to hand over. -/
structure Reseed where
  source : Nat
  value : Nat
  since : Nat
  changeId : Nat
  logged : Option StepDue
  deriving DecidableEq, Repr

/-- Pond time, its rate and the sources that steer it. -/
structure TimeSt where
  /-- Pond time runs: the cleaning PLL has locked since the start (R569). -/
  running : Bool
  /-- The latest instant of Pond time the block has reached, in the DUR64 unit. -/
  now : Nat
  /-- Pond time at the last tick edge. -/
  t0 : Nat
  /-- What Pond time holds below the DUR64 unit, in units of 2^-23 of it: a step to a TIME96 value leaves it, and it lasts to
  the next tick edge, which falls at a whole millisecond (R90). -/
  frac : Nat
  /-- The tick number (R9), as TickNumber and TICK_NOW read it. -/
  tick : Nat
  /-- Tick edges since power-up: a count of elapsed milliseconds that no step moves. -/
  ms : Nat
  /-- CK_AON cycles counted since power-up (R410). -/
  aon : Nat
  /-- The request in force is cut by the PhaseSteer limit (R85). -/
  cutU : Bool
  /-- SteeringSource HOST in force since the last edge (R87). -/
  hostMode : Bool
  /-- Count of tick edges at the last source update (R84). -/
  lastUpdate : Option Nat
  /-- Count of tick edges since which every update lay within LockThreshold (R84). -/
  lockSince : Option Nat
  /-- The step that the Pond time unit holds. -/
  due : Option StepDue
  /-- The re-seed in progress. -/
  reseed : Option Reseed
  /-- A re-seed was abandoned at a warm reset and its record is still to be written (R115): CHANGE_ID and source. -/
  abandoned : Option (Nat × Nat)
  /-- A re-seed applied while firmware was down: firmware completes its objects at its start (R115): the value set, as a TIME96
  image. -/
  reseedDone : Option Nat
  /-- Count of tick edges at entry to HOLDOVER or SPLIT. -/
  holdSince : Option Nat
  /-- ErrorEstimate from which growth goes on and the count of edges there (R84, R94). -/
  growFrom : Nat × Nat
  /-- In HOLDOVER or SPLIT with PhaseSteer back at 0: the FreqCorrection from which it follows the learned drift, and the count
  of tick edges there (R94). -/
  driftFrom : Option (Int × Nat)
  /-- Accumulated OCXO_TUNE allowance in units of 2^-48 (R88). -/
  tuneAcc : Nat
  /-- The reference is electrically valid. -/
  refOk : Bool
  /-- RefFrequency and RefInputType in force since the last cold reset (R82). -/
  refFreq : Nat
  refType : Nat
  /-- Count of tick edges since which the reference has been valid without a break (R95). -/
  refSince : Nat
  /-- Offsets x of the last updates, newest first, at most 600 (R284 takes 60, R398 600). -/
  xs : List Int
  /-- Source updates since the step (R284). -/
  updates : Nat
  /-- The last update came from Lake time. -/
  fromLake : Bool
  /-- Operating seconds (R10). -/
  opSec : Nat
  /-- The part of an operating second counted so far, in units of 1/32,768,000 s (R10): a millisecond is 32,768 units, a
  CK_AON cycle 1,000. -/
  opAcc : Nat
  /-- Power-cycle count (R10). -/
  cycles : Nat
  deriving DecidableEq, Repr

/-- One time pulse output (R99 to R101): the level, the settings in force, the pulse in progress. -/
structure TpSt where
  /-- The ball is at its active level, or the element that ends a cut IRIG-B frame is in progress. -/
  active : Bool
  /-- Pond time of the last on-time edge as emitted. -/
  lastEdge : Option Nat
  /-- Pond time at which the pulse, the IRIG-B frame or the element that cuts it ends. -/
  endsAt : Nat
  /-- The output may start at the first grid instant at or after this Pond time; none while it does not run. -/
  from_ : Option Nat
  /-- Period in force, in µs, Polarity in force. -/
  period : Nat
  polarity : Nat
  /-- The grid is new: the interval to the first edge is judged for SHORT_INTERVAL (R101). -/
  fresh : Bool
  /-- Pond time of the last SHORT_INTERVAL (R107). -/
  shortAt : Option Nat
  /-- Mode in force is IRIG_B. -/
  irig : Bool
  deriving DecidableEq, Repr

/-- One clock output (R102 to R104). -/
structure CkoSt where
  /-- Earliest alignment instant, none while stopped. -/
  from_ : Option Nat
  /-- The next alignment counts REALIGNED. -/
  realign : Bool
  deriving DecidableEq, Repr

/-- The time-of-day port and IRIG-B (R105 to R108). -/
structure TodSt where
  /-- A message in progress ends at this Pond time. -/
  busyUntil : Option Nat
  /-- Bytes of the last message begun. -/
  last : List Nat
  /-- Sending waits for the first whole second at or after this Pond time. -/
  resumeAt : Nat
  /-- Elements of the last IRIG-B frame begun: 0, 1, or 2 for a marker. -/
  frame : List Nat
  deriving DecidableEq, Repr

/-- A pin group's settings in force since the last tick edge (R593): FilterTime in ns, the one before it, the elapsed time of
that change (R597); Pull. -/
structure PinSt where
  filter : Nat
  was : Nat
  since : Nat
  pull : Nat
  deriving DecidableEq, Repr

/-- The outputs. -/
structure OutSt where
  /-- The settings in force of the pin groups (R593), by group. -/
  pins : List PinSt
  /-- The always-on domain's copy of Polarity of TP0 to TP3, bits [3:0], and of OutPolarity of CTO0 to CTO7, bits [11:4] (R590). -/
  polarity : Nat
  /-- The P objects have loaded since the start, so outputs follow UNSET (R109, R569). -/
  loaded : Bool
  tp : List TpSt
  cko : List CkoSt
  tod : TodSt
  /-- Per delay item: slew allowance accumulated, in units of 2^-16 ns times 1000 (R98). -/
  slewAcc : List Nat
  /-- Outputs are not driven (DEEP, OFF, loss of VDD_TS; R109). -/
  undriven : Bool
  /-- Outputs are stopped by SLEEP or OASIS (R109). -/
  asleep : Bool
  deriving DecidableEq, Repr

/-- One pulse output at reset. -/
def TpSt.reset : TpSt := ⟨false, none, 0, none, 1000000, 0, false, none, false⟩

/-- The time of the block right after a power-up: nothing runs until the PLL locks. -/
def TimeSt.reset : TimeSt :=
  { running := false, now := 0, t0 := 0, frac := 0, tick := 0, ms := 0, aon := 0, cutU := false, hostMode := false,
    lastUpdate := none, lockSince := none, due := none, reseed := none, abandoned := none, reseedDone := none,
    holdSince := none, growFrom := (0, 0), driftFrom := none, tuneAcc := 0, refOk := false,
    refFreq := 10000000, refType := 0, refSince := 0, xs := [], updates := 0,
    fromLake := false, opSec := 0, opAcc := 0, cycles := 1 }

/-- Operating time passes, in units of 1/32,768,000 s; the count of whole seconds holds at its largest value (R10). -/
def TimeSt.operate (t : TimeSt) (u : Nat) : TimeSt :=
  { t with opSec := min (2 ^ 40 - 1) (t.opSec + (t.opAcc + u) / 32768000), opAcc := (t.opAcc + u) % 32768000 }

/-- The outputs right after a power-up (R109, first row). -/
def OutSt.reset : OutSt :=
  { pins := [⟨20, 20, 0, 0⟩, ⟨20, 20, 0, 0⟩, ⟨20, 20, 0, 2⟩, ⟨20, 20, 0, 0⟩, ⟨2, 2, 0, 0⟩, ⟨2, 2, 0, 1⟩, ⟨2, 2, 0, 0⟩, ⟨20, 20, 0, 0⟩],
    polarity := 0, loaded := false, tp := [TpSt.reset, TpSt.reset, TpSt.reset, TpSt.reset],
    cko := [⟨none, false⟩, ⟨none, false⟩], tod := ⟨none, [], 0, []⟩,
    slewAcc := [0, 0, 0, 0, 0, 0, 0, 0, 0, 0], undriven := false, asleep := false }

end Sys2Proof.Machine
end

