-- ==== Sys2Proof/Machine/StTrack.lean ====
section
/-!
DEFINITION. State of search, tracking, navigation data and the time solution beyond the object dictionary
(spec/05, spec/06, spec/07, spec/08). Times named "ms" count tick edges since power-up (State.time.ms).
-/

namespace Sys2Proof.Machine

/-- A sum of one loop update kept for a window (R200, R202): the tick count of the update, the two sums, and the
coherent interval in ms. -/
structure LoopSum where
  ms : Nat
  p : Nat
  q : Nat
  t : Nat
  deriving DecidableEq, Repr

/-- A dump as firmware reads it (R188, R189): the number of its code period since the slot was loaded, Pond time of its latch, the spacings d, d_v, m that were in force over it, its tap words as signed values, and the
marks of its tick. -/
structure Dump where
  per : Int
  at_ : Nat
  spacing : Nat × Nat × Nat
  data : List Int
  pilot : List Int
  mm : List Int
  coast : Bool
  bad : Bool
  cal : Bool
  deriving DecidableEq, Repr

/-- A soft value of a stream in which a sync word is sought: a symbol or a decoded bit (R229, R234), and Pond time at the end
of its last symbol. -/
structure SoftSym where
  v : Int
  at_ : Nat
  deriving DecidableEq, Repr

/-- A sync-word candidate (R235, R236): the position of its sync word in the stream, its polarity, whether it is accepted, and
the bits of its provisional message with the end of its last symbol. -/
structure NavCand where
  pos : Nat
  inverted : Bool
  accepted : Bool
  prov : Option (List Bool × Nat)
  deriving DecidableEq, Repr

/-- A block in a decoder's queue (R239): its slot; which of the family's checks it is for, none for a run of the Trellis decoder
that continues a slot's stream; the position of its sync word; its polarity; its soft values; the end of its last symbol. -/
structure NavJob where
  slot : Nat
  stage : Option Nat
  pos : Nat
  inverted : Bool
  block : List Int
  at_ : Nat
  deriving DecidableEq, Repr

/-- A checked message on its way to the store (R240, R252): its slot, the signal, satellite and antenna it came by, polarity, the end of its last
symbol, its bits. -/
structure NavIn where
  slot : Nat
  signal : Nat
  satellite : Nat
  ant : Nat
  inverted : Bool
  rxAt : Nat
  bits : List Bool
  /-- Transmit time of its first symbol (R5 epoch, DUR64 unit), when the slot holds a time of week. -/
  start : Option Int
  deriving DecidableEq, Repr

/-- A correlator context kept over a warm reset or SLEEP (R226): what it follows, its NCOs, and the tick count since which it has
coasted. -/
structure SlotKept where
  signal : Nat
  satellite : Nat
  ant : Nat
  priority : Nat
  code : Nat
  sec : Nat
  doppler : Nat
  carrier : Nat
  rate : Nat
  codeFrac : Nat
  carrFrac : Nat
  seq : Nat
  since : Nat
  deriving DecidableEq, Repr

/-- One slot beyond its record. -/
structure SlotSt where
  /-- A transition decided for the next tick edge (R192): the new state, and the cause of a change to FREE. -/
  next : Option (Nat × Nat)
  /-- The decided change is a release: no transition replaces it (R222). -/
  release : Bool
  /-- The handoff carried SEC_KNOWN, whose bits the methods of R230 still verify: SECONDARY_SYNC, SYMBOL_SYNC. -/
  secKnown : Bool
  symKnown : Bool
  /-- The tick count of the edge at which the NCOs start (R172). -/
  startMs : Nat
  /-- Ticks in the present state, those with CAL on the slot's chain left out (R192). -/
  age : Nat
  /-- The value of `age` since which the upward condition, the loss condition, has held without a break. -/
  goodAt : Option Nat
  badAt : Option Nat
  /-- Code periods since the slot was loaded. -/
  periods : Int
  /-- Code NCO in force, unit 2^-24 chip/s; the parts of CodePhase and CarrierPhase below their units, in 1/SEC. -/
  codeRate : Nat
  codeFrac : Nat
  carrFrac : Nat
  /-- Code epochs latched in the present tick, the spacings d, d_v, m that the taps have had since the last one (R187). -/
  latched : Nat
  spacing : Nat × Nat × Nat
  /-- No NCO update took effect at the start of the present tick, of the last tick (R190); ticks coasted on end; this coast has
  counted as a slip (R203). -/
  coasting : Bool
  coastLast : Bool
  coastRun : Nat
  coastSlip : Bool
  /-- FrontEndStatus of the slot's chain in the last ticks, newest first, at most 12 (R189). -/
  fe : List Nat
  /-- The dumps of the present tick; those of ticks before it that no update has taken; those kept for AIDED windows. -/
  dumps : List Dump
  inbox : List Dump
  window : List Dump
  /-- The dump record of the tick just ended (R189). -/
  record : List Nat
  rerun : Bool
  bad : Bool
  seq : Nat
  /-- Loop filter states in units of 2^-40 (R197): code rate in chips/s, carrier in Hz, its rate in Hz/s; the last carrier_out. -/
  vc : Int
  v : Int
  acc : Int
  dop : Int
  /-- Prompt of the last coherent interval (R198). -/
  prior : Option (Int × Int)
  /-- Bump counters of R196, very early and very late. -/
  bumpE : Nat
  bumpL : Nat
  /-- Updates of the PLI window and of the C/N0 window, newest first. -/
  pli : List LoopSum
  cno : List LoopSum
  /-- Consecutive updates with PLI below PliThreshold. -/
  low : Nat
  /-- Multipath metrics of the last 10 s: tick count and metric in thousandths, newest first. -/
  mm : List (Nat × Int)
  mmHigh : Bool
  /-- Tick counts of parity faults in the last second (R212). -/
  parity : List Nat
  /-- Other slots that match R214, with the tick count since which they do. -/
  cross : SMap Nat
  /-- An AIDED window has begun since entry to AIDED; Pond time at which the next window to compute begins (R207). -/
  windowed : Bool
  winAt : Nat
  /-- CYCLE_SLIP has set since the last measurement epoch; N0 of R261. -/
  slipped : Bool
  n0 : Option Int
  /-- Transition histogram (R231), by position; the last prompt sign with its code period; tick count of its start. -/
  hist : SMap Nat
  histSign : Option (Bool × Int)
  histAt : Nat
  /-- Secondary alignment (R232): prompt signs of the period in progress, oldest first, with the first one's code period; the phase
  of code period 0 at which the last whole period passed; good and failed periods on end at a handed-off phase. -/
  signs : List Bool
  signPer : Int
  secPhase : Option Nat
  secGood : Nat
  secFails : Nat
  /-- The same for the data component's own code, and its phase at code period 0 once it is known. -/
  dsigns : List Bool
  dsignPer : Int
  dPhase : Option Nat
  symPhase : Nat
  /-- The symbol in progress (R229): its first code period, its sum; none between symbols. -/
  symSum : Option (Int × Int)
  /-- The code period in which symbol 0 began. -/
  symAt : Option Int
  /-- Soft symbols for the Trellis decoder, where the sync word is sought in decoded bits, from number `rawAt` on. -/
  raw : List SoftSym
  rawAt : Nat
  /-- The stream in which the sync word is sought, from position `softAt` on. -/
  soft : List SoftSym
  softAt : Nat
  cands : List NavCand
  /-- Consecutive frames failed, sync words missing (R237), the position of the frame in place. -/
  failRun : Nat
  missRun : Nat
  framePos : Nat
  /-- A code period and the transmit time of its beginning (R259), in the signal's system time from the R5 epoch. -/
  txRef : Option (Int × Int)
  kept : Option SlotKept
  deriving DecidableEq, Repr

/-- A peer sighting (R160, R391): the peer, signal, satellite, Cn0, Doppler in 2^-8 Hz, and the elapsed time of MEAS_AT. -/
structure Sighting where
  peer : Nat
  signal : Nat
  satellite : Nat
  cn0 : Nat
  doppler : Int
  at_ : Int
  deriving DecidableEq, Repr

/-- Symbols received from peers for one signal and satellite (R249): by symbol number since the R5 epoch, the rank of
the block (3 CHECKED, 2 PREDICTED, 1 LIVE) and the symbol, 2 when unknown; the tick count of the last symbol. -/
structure PeerSyms where
  signal : Nat
  satellite : Nat
  syms : SMap (Nat × Nat)
  lastMs : Nat
  deriving DecidableEq, Repr

/-- One copy of a constituent message: the signal it came by, the Pond time of its reception, and whether a peer sent it. -/
structure StoreCopy where
  signal : Nat
  at_ : Nat
  peer : Bool
  deriving DecidableEq, Repr

/-- One constituent message of an entry, with the copies received of this content. -/
structure StorePart where
  part : Nat
  bits : List Bool
  copies : List StoreCopy
  deriving DecidableEq, Repr

/-- A store entry beyond its record: its messages in message order, those of a conflicting copy (R244), Reference and FitEnd
as the peer's frame gave them that made it, and whether it was rejected for continuity alone (R242). -/
structure StoreSt where
  parts : List StorePart
  rival : List StorePart
  given : Option (Nat × Nat)
  broken : Bool
  deriving DecidableEq, Repr

/-- A block of symbols to publish (R247, R248): its kind (0 PREDICTED, 1 CHECKED, 2 LIVE), START in the DUR64 unit, the symbols. -/
structure SymBlock where
  signal : Nat
  satellite : Nat
  kind : Nat
  start : Nat
  syms : List Bool
  deriving DecidableEq, Repr

/-- Navigation data beyond the record of a slot. -/
structure NavSt where
  /-- Decoder queues in order of arrival, by decoder 0 Trellis, 1 LDPC, 2 BCH, 3 Hamming, 4 Parity (R239). -/
  queue : Vector (List NavJob) 5
  /-- Messages checked in the present tick, in order (R252). -/
  checked : List NavIn
  store : SMap StoreSt
  /-- DecodeEnable, SymbolPublish, PredictHorizon, EphemerisConfirm in force since the last tick edge (R250). -/
  decode : Nat
  publish : Bool
  horizon : Nat
  confirm : Nat
  sightings : List Sighting
  peers : List PeerSyms
  /-- Pond time of the last step (R253). -/
  stepAt : Option Nat
  /-- The reference system has sent a leap count since reset (R286). -/
  leapRef : Bool
  leapAny : Bool
  /-- Entries that became VALID and symbol blocks formed in the command in progress, to be sent to peers (R246, R247). -/
  offers : List Nat
  blocks : List SymBlock
  deriving DecidableEq, Repr

/-- A peak of a search (R167): code phase in 2^-32 chip at t_ref, Doppler in 2^-16 Hz, Λ / N as a fraction of 2^16, and the
Pond time of t_ref, the tick edge it is given for. -/
structure Peak where
  code : Nat
  doppler : Int
  ratio : Nat
  tref : Nat
  deriving DecidableEq, Repr

/-- The window of a run (R157, R159): C code cells half a chip apart from a code phase at the run's first tick edge on, in
2^-32 chip, and F Doppler cells about a centre in 2^-16 Hz. -/
structure ErgWindow where
  c : Nat
  f : Nat
  base : Nat
  centre : Int
  deriving DecidableEq, Repr

/-- A candidate (R167, R170): its cell, the peak it is reported with, and C/N0 in 0.1 dB-Hz from its verification. -/
structure ErgCand where
  cell : Nat
  line : Nat
  peak : Peak
  cn0 : Nat
  deriving DecidableEq, Repr

/-- A search run on a lane (R164): its entry, antenna and level, and what it has come to. -/
structure ErgRun where
  entry : Nat
  ant : Nat
  signal : Nat
  satellite : Nat
  level : Nat
  tc : Nat
  n : Nat
  /-- DetectPfa at the start of the run (R167, R168). -/
  pfa : Nat
  win : ErgWindow
  /-- The predicted phase at the run's first edge, whole code periods and all, in 2^-32 chip (HOT and PEER). -/
  phase : Nat
  /-- P passes (R155), and the pass in progress, from 1. -/
  passes : Nat
  pass : Nat
  verifying : Bool
  /-- The tick count at which the pass or verification began, and of the run. -/
  began : Nat
  start : Nat
  /-- OR of FrontEndStatus over the run. -/
  status : Nat
  best : Peak
  cand : Option ErgCand
  /-- The outcome if no pass remains: 2, 3 or 4. -/
  outcome : Nat
  /-- A pass or verification has ended: the next begins at the next tick edge. -/
  waiting : Bool
  /-- TimingState has entered SPLIT during the run (R185). -/
  split : Bool
  deriving DecidableEq, Repr

/-- A result to be loaded (R171): its lane, its run and its peak, its secondary phase at t_ref, and C/N0. -/
structure ErgResult where
  lane : Nat
  run : ErgRun
  peak : Peak
  sec : Option Nat
  cn0 : Nat
  /-- The first tick in which it may be loaded, by tick count; the tick counts of t_ref and of its posting, and the elapsed
  time of that; it has found no slot once. -/
  from_ : Nat
  ref : Nat
  posted : Nat
  at_ : Nat
  tried : Bool
  deriving DecidableEq, Repr

/-- The search engine. -/
structure ErgSt where
  lane : Vector (Option ErgRun) 8
  /-- Results that wait for a slot, oldest first; at most 16 are held (R173). -/
  held : List ErgResult
  /-- LanesEnabled, ErgEnable, AutoList and SignalEnable in force since the last tick edge. -/
  lanes : Nat
  enable : Bool
  auto : Bool
  signals : Nat
  /-- SERVING entries whose visit goes on (R163): 1 the run on ANT_B is next, 2 the run on ANT_A of a ONCE entry is. -/
  second : SMap Nat
  /-- Elapsed time of the last refill of the firmware's entries (R166). -/
  refill : Option Nat
  /-- Enabled-lane ticks and running ticks in the present second (ErgUtilisation). -/
  laneTicks : Nat
  busyTicks : Nat
  /-- Where the firmware's rotation of R166 group 3 stands. -/
  rotation : Nat
  deriving DecidableEq, Repr

/-- One observation of an epoch (R257, R264). -/
structure ObsRec where
  slot : Nat
  signal : Nat
  ant : Nat
  aided : Bool
  satellite : Nat
  flags : Nat
  /-- τ in the DUR64 unit. -/
  transit : Int
  phase : Int
  doppler : Int
  cn0 : Nat
  lock : Nat
  elev : Option Int
  fe : Nat
  /-- Residual in the solution, unit 1/16 ns. -/
  residual : Option Int
  /-- The delay contained in τ at t_e (R265); the ephemeris in use at t_e, its entry's signal and content (R294). -/
  delay : Int
  eph : Option (Nat × Nat)
  deriving DecidableEq, Repr

/-- What a solution epoch takes as it stands at t_e (R273, R278, R294): SolutionMode, MinDualCount, FdePfa, MaxExclusions; of each antenna,
FIXED and its position in mm; the systems of known offset; the content and signal of the Klobuchar coefficients; Lake time less Pond
time and its 1σ, when the check of R279 applies; the sums `rates` and `steers` of SolSt. -/
structure EpochCfg where
  mode : Nat
  dual : Nat
  pfa : Nat
  excl : Nat
  fixed : List Bool
  pos : List (Int × Int × Int)
  known : List (Nat × Int)
  klob : Option (Nat × Nat)
  lake : Option (Int × Nat)
  rates : Int
  steers : Int
  deriving DecidableEq, Repr

/-- Observations of an epoch that are not yet in the stream: t_e, its tick count, TimingState and settings at t_e, and whether its
solution is still to complete. -/
structure EpochSt where
  at_ : Nat
  ms : Nat
  tstate : Nat
  obs : List ObsRec
  cfg : EpochCfg
  solution : Bool
  deriving DecidableEq, Repr

/-- An epoch edge whose observations are not formed yet (R257, R258): its Pond time, TimingState and settings, the slots' state at it, and per slot whether
CYCLE_SLIP had set since the epoch before and its N0 before it. -/
structure EpochDue where
  at_ : Nat
  tstate : Nat
  cfg : EpochCfg
  obs : List ObsRec
  was : List (Nat × Bool × Option Int)
  deriving DecidableEq, Repr

/-- One check of R279: its run of failing epochs, and whether this run has counted. -/
structure CheckRun where
  run : Nat
  counted : Bool
  deriving DecidableEq, Repr

/-- A survey-in (R272): sums of the estimates in mm times their weights, and of the weights (1/mm², in units of 2^-64);
the tick count of its start. -/
structure SurveySt where
  wx : Int
  wy : Int
  wz : Int
  w : Nat
  since : Nat
  deriving DecidableEq, Repr

/-- Measurements and the time solution. -/
structure SolSt where
  epochs : List EpochSt
  /-- An epoch edge has passed and its observations are not formed (R258). -/
  due : Option EpochDue
  /-- MeasInterval in force since the last whole second. -/
  interval : Nat
  /-- Clock offsets of the last solution epochs, newest first; none where not VALID (R282). -/
  valid : List (Option Int)
  /-- The sum of RateApplied over Pond time, by which clock offsets are carried (R283), in 2^-48 of the DUR64 unit; the sum of the part of
  it that removes an offset; the offset of the last source update, with that sum at its epoch (R279). -/
  rates : Int
  steers : Int
  last : Int × Int
  /-- Qualification (R283) is in progress, with its series: clock offset and that sum at its epoch, newest first. -/
  qualify : Bool
  series : List (Int × Int)
  /-- The checks of R279: LAKE_DISAGREE, HOLDOVER_DISAGREE, POSITION_DISAGREE of each antenna. -/
  checks : Vector CheckRun 4
  /-- Passing epochs counted by TrustRestore, and the checks that applied, as bits. -/
  passing : Nat
  applied : Nat
  /-- Tick count of the last POSITION_DISAGREE check of each antenna. -/
  posAt : Vector Nat 2
  fallback : Bool
  survey : Vector (Option SurveySt) 2
  /-- The solution that the next REPORT gives (R371): -b, SolutionSigma, t_e. -/
  report : Option (Int × Nat × Nat)
  /-- The last VALID, TRUSTED solution (R93): elapsed time, -b in the DUR64 unit, ClockRate, its error estimate in ps. -/
  good : Option (Nat × Int × Int × Nat)
  deriving DecidableEq, Repr

/-- One slot right after a power-up, or FREE. -/
def SlotSt.reset : SlotSt :=
  { next := none, release := false, secKnown := false, symKnown := false, startMs := 0, age := 0, goodAt := none,
    badAt := none, periods := 0, codeRate := 0, codeFrac := 0, carrFrac := 0, latched := 0, spacing := (0, 0, 0),
    coasting := false, coastLast := false, coastRun := 0, coastSlip := false, fe := [], dumps := [], inbox := [],
    window := [], record := [], rerun := false, bad := false, seq := 0, vc := 0, v := 0, acc := 0, dop := 0,
    prior := none, bumpE := 0, bumpL := 0, pli := [], cno := [], low := 0, mm := [], mmHigh := false, parity := [],
    cross := [], windowed := false, winAt := 0, slipped := false, n0 := none, hist := [], histSign := none, histAt := 0,
    signs := [], signPer := 0, secPhase := none, secGood := 0, secFails := 0, dsigns := [], dsignPer := 0,
    dPhase := none, symPhase := 0, symSum := none, symAt := none, raw := [], rawAt := 0, soft := [],
    softAt := 0, cands := [], failRun := 0, missRun := 0, framePos := 0, txRef := none, kept := none }

def StoreSt.reset : StoreSt := ⟨[], [], none, false⟩

def NavSt.reset : NavSt :=
  { queue := .replicate 5 [], checked := [], store := [], decode := 0xFFFF, publish := true, horizon := 2000, confirm := 1,
    sightings := [], peers := [], stepAt := none, leapRef := false, leapAny := false,
    offers := [], blocks := [] }

def ErgSt.reset : ErgSt :=
  { lane := .replicate 8 none, held := [], lanes := 0x00FF, enable := true, auto := true, signals := 0xFFFF,
    second := [], refill := none, laneTicks := 0, busyTicks := 0, rotation := 0 }

def SolSt.reset : SolSt :=
  { epochs := [], due := none, interval := 1000, valid := [], rates := 0, steers := 0, last := (0, 0), qualify := false, series := [],
    checks := .replicate 4 ⟨0, false⟩, passing := 0, applied := 0, posAt := .replicate 2 0, fallback := false,
    survey := .replicate 2 none, report := none, good := none }

end Sys2Proof.Machine
end

