-- ==== Sys2Proof/Machine/State.lean ====
section
/-!
DEFINITION. The state of the block, its faults and refusals, and the state right after reset.
-/

namespace Sys2Proof.Machine

/-- Why the machine stops. No command of this block stops it: every command has an effect, or is answered with a status
code of R52, or is not an occurrence of its event in the present state and changes nothing (log entry 2). -/
inductive Fault where
  /-- Raised by nobody: kept so that the type of faults is not empty. Safe. -/
  | none
  deriving DecidableEq, Repr

/-- Why a command has no meaning. -/
inductive Refusal where
  /-- Raised by an arm of exec for a command that has no meaning yet, under its mnemonic. Safe. -/
  | notModelled (mnemonic : String)
  deriving DecidableEq, Repr

/-- The state of the block. -/
structure State where
  /-- The commands that wait, first in, first out. -/
  pending : List Instr
  /-- The values of the object dictionary that differ from their defaults, as link images, by key. -/
  dict : SMap Nat
  /-- Queued entries of each stream object, by index, oldest first; each entry its words, header first (R62). -/
  streams : SMap (List (List Nat))
  silt : SiltSt
  mspi : MspiSt
  host : HostSt
  /-- The reply to the last request executed. -/
  reply : Reply
  /-- The model's own count of free values taken. -/
  free : Nat
  time : TimeSt
  out : OutSt
  cpu : CoresSt
  tmr : TimersSt
  rx : RxSt
  slots : SMap SlotSt
  nav : NavSt
  erg : ErgSt
  sol : SolSt
  ports : PortsSt
  net : NetSt
  prot : ProtSt
  lake : LakeSt
  reader : ReaderSt
  power : PowerSt
  boot : BootSt
  jtag : TapSt
  deriving DecidableEq, Repr

/-- The machine right after reset: the first power-up of a device whose MRAM holds nothing, before its PLL locks. Every
supply is in range and the banks read V3_3 (log entry 27); the start counts in Epoch (R341) and waits for its START record. -/
def State.reset : State :=
  { pending := [],
    dict := [(K.ioBanks, 0x2A), (K.network_Epoch, 1), (K.supplyMonitor_SupplyStatus, 0x1FF)],
    streams := [], silt := { SiltSt.reset with start := some ⟨0, 0, 1, false, 0, 0x0801, 0, 0, 0, [], 0⟩ }, mspi := MspiSt.reset, host := HostSt.reset,
    reply := ⟨0, []⟩, free := 0, time := TimeSt.reset, out := OutSt.reset, cpu := CoresSt.reset,
    tmr := TimersSt.reset, rx := RxSt.reset, slots := [], nav := NavSt.reset,
    erg := ErgSt.reset, sol := SolSt.reset,
    ports := PortsSt.reset, net := NetSt.reset,
    prot := ProtSt.reset, lake := LakeSt.reset, reader := ReaderSt.reset, power := PowerSt.reset, boot := BootSt.reset,
    jtag := TapSt.reset }

end Sys2Proof.Machine
end

