-- ==== Sys2Proof/Machine/Ops.lean ====
section
/-!
DEFINITION. The named operations every family of commands shares: reading and setting the values of the dictionary,
flags with their counters, Silt records, stream entries, replies, free values.
-/

namespace Sys2Proof.Machine

/-! ### Status codes (R52) -/

namespace St
def ok : Nat := 0x0000
def accepted : Nat := 0x0001
def noObject : Nat := 0x0101
def noSubindex : Nat := 0x0102
def typeMismatch : Nat := 0x0103
def lengthMismatch : Nat := 0x0104
def outOfRange : Nat := 0x0105
def valueReserved : Nat := 0x0106
def reservedBits : Nat := 0x0107
def readOnly : Nat := 0x0201
def writeOnly : Nat := 0x0202
def notInState : Nat := 0x0301
def busy : Nat := 0x0302
def synthBusy : Nat := 0x0303
def resourceRetired : Nat := 0x0304
def notAuthorised : Nat := 0x0401
def needsTwoParty : Nat := 0x0402
def twoPartyPending : Nat := 0x0403
def twoPartyExpired : Nat := 0x0404
def lockedByRegulation : Nat := 0x0405
def late : Nat := 0x0501
def jumpRefused : Nat := 0x0502
def noRoute : Nat := 0x0601
def timeout : Nat := 0x0602
def staleEpoch : Nat := 0x0603
def journalFull : Nat := 0x0701
def integrityFail : Nat := 0x0702
def internalFault : Nat := 0x0801
def refused : Nat := 0x0802
end St

/-! ### Values of the dictionary -/

/-- The value of a key, as its link image. -/
def State.get (s : State) (k : Nat) : Nat := SMap.get (dfltOf k) k s.dict

/-- Set the value of a key, as its link image. -/
def State.set (s : State) (k v : Nat) : State := { s with dict := SMap.set (dfltOf k) k v s.dict }

/-- The value of a signed key of `n` bytes. -/
def State.getI (s : State) (k n : Nat) : Int := toInt n (s.get k)

/-- Set a signed key of `n` bytes. -/
def State.setI (s : State) (k n : Nat) (i : Int) : State := s.set k (ofInt n i)

/-- A BOOL, or a value other than zero. -/
def State.getB (s : State) (k : Nat) : Bool := s.get k != 0

/-- Set a BOOL. -/
def State.setB (s : State) (k : Nat) (b : Bool) : State := s.set k (b2n b)

/-- Add one to a counter of `n` bytes, which holds at its largest value (R47). -/
def State.bump (s : State) (k n : Nat) : State :=
  let v := s.get k
  if v + 1 < 2 ^ (8 * n) then s.set k (v + 1) else s.set k (2 ^ (8 * n) - 1)

/-- Add to a 16-bit counter, which holds at 65,535. -/
def State.bumpBy (s : State) (k m : Nat) : State := s.set k (min 65535 (s.get k + m))

/-- Add one to a total of `n` bytes that wraps to zero. -/
def State.count (s : State) (k n : Nat) : State := s.set k ((s.get k + 1) % 2 ^ (8 * n))

/-- Set bit `b` of a flag word and add one to its 16-bit counter (R47). -/
def State.flag (s : State) (word b counter : Nat) : State :=
  (s.set word (setBit (s.get word) b)).bump counter 2

/-- Set bit `b` of a flag word. -/
def State.raise (s : State) (word b : Nat) : State := s.set word (setBit (s.get word) b)

/-! ### Timing state and device state -/

/-- TimingState (R83). -/
def State.timing (s : State) : Nat := s.get K.timingState
/-- DeviceState (R54). -/
def State.device (s : State) : Nat := s.get K.deviceState
/-- Firmware is running: DeviceState COMMISSIONING or OPERATING (R54, R568). -/
def State.fwUp (s : State) : Bool := s.device == 1 || s.device == 2

/-- A count of 2^-23 DUR64 units as a TIME96 image, rounded to nearest (R6, R8). -/
def fine96 (f : Nat) : Nat := (2 * f + 1953125) / 3906250 % 2 ^ 96

/-- An instant of the present tick as a TIME96 image. -/
def State.at96 (s : State) (t : Nat) : Nat :=
  if s.time.frac = 0 then toTime96 t else fine96 (t * 2 ^ 23 + s.time.frac)

/-! ### The Silt log -/

/-- Words 0 to 14 of a record as 45 bytes (R575). -/
def siltHead (r : SiltRec) : List Nat :=
  toBytes 6 r.seq ++ [0] ++ toBytes 2 (r.opSec / 2 ^ 24) ++ toBytes 3 r.opSec ++ toBytes 3 r.cycles
    ++ toBytes 12 (if r.pondValid then r.pond else 0)
    ++ [(r.code / 256) % 256] ++ toBytes 2 r.code
    ++ [b2n r.pondValid * 128 + (r.tstate % 8) * 16 + (r.dstate % 4) * 4] ++ toBytes 2 r.status
    ++ (r.data ++ List.replicate 12 0).take 12

/-- The 48 bytes of a record (R575). -/
def siltBytes (r : SiltRec) : List Nat := siltHead r ++ [0] ++ toBytes 2 r.check

/-- A record with its check code (R107, R575). -/
def siltSeal (r : SiltRec) : SiltRec := { r with check := crc16 (siltHead r) }

/-- Form a record of an event at Pond time `pond` (R576) and queue it; a full queue loses it (R580). -/
def State.logAt (s : State) (pond code status : Nat) (data : List Nat) : State :=
  if 64 ≤ s.silt.queue.length then
    { (s.flag K.siltLog_LogFlags 0 K.siltLog_LostRecords) with silt := { s.silt with lost := s.silt.lost + 1 } }
  else
    let r : SiltRec :=
      { seq := s.silt.nextSeq, opSec := s.time.opSec, cycles := s.time.cycles, pondValid := s.timing != 0,
        pond := s.at96 pond, code := code, tstate := s.timing, dstate := s.device, status := status, data := data,
        check := 0 }
    { s with silt := { s.silt with queue := s.silt.queue ++ [siltSeal r], nextSeq := s.silt.nextSeq + 1 } }

/-- Form a record of an event now. -/
def State.log (s : State) (code status : Nat) (data : List Nat) : State := s.logAt s.time.now code status data

/-- Records the log holds (R575). -/
def siltCap : Nat := 16384

/-- The newest records, as many as the log holds (R575). -/
def siltNewestOf (l : List SiltRec) : List SiltRec := (l.reverse.take siltCap).reverse

/-- Commit up to `n` queued records in SEQ order; the log holds the newest 16,384 (R575, R580). Room in the queue lets
one RECORDS_LOST record give the events lost. -/
def State.siltCommit (s : State) (n : Nat) : State :=
  if s.silt.start.isSome then s else
  let done := s.silt.queue.take n
  let s := { s with silt := { s.silt with recs := siltNewestOf (s.silt.recs ++ done), queue := s.silt.queue.drop n } }
  if s.silt.lost = 0 || 64 ≤ s.silt.queue.length then s
  else
    let t := s.log 0x0902 St.ok (toBytes 2 (min 65535 s.silt.lost))
    { t with silt := { t.silt with lost := 0 } }

/-- Records formed in one step after the first `n` of the queue take SEQ in ascending order of CODE (R580). -/
def State.siltOrder (s : State) (n : Nat) : State :=
  let old := s.silt.queue.take n
  let new := sortBy (fun a b => decide (a.code ≤ b.code)) (s.silt.queue.drop n)
  let base := s.silt.nextSeq - new.length
  let new := (List.zip (List.range new.length) new).map fun p => siltSeal { p.2 with seq := base + p.1 }
  { s with silt := { s.silt with queue := old ++ new } }

/-! ### Streams (R61 to R64) -/

/-- The words a stream holds. -/
def streamWords (l : List (List Nat)) : Nat := (l.map List.length).sum

/-- The words a stream object may hold, by its index. -/
def streamCap (index : Nat) : Nat :=
  if index == 0x3051 then 8448 else if index == 0x5011 || index == 0x7031 then 16384
  else if index == 0x7061 then 1024 else 4096

/-- The entries a stream holds. -/
def State.stream (s : State) (index : Nat) : List (List Nat) := SMap.get [] index s.streams

/-- Put the entries of a stream. -/
def State.setStream (s : State) (index : Nat) (l : List (List Nat)) : State :=
  { s with streams := SMap.set [] index l s.streams }

/-- Room for an entry of `w` words. -/
def State.streamFits (s : State) (index w : Nat) : Bool :=
  decide (streamWords (s.stream index) + w ≤ streamCap index)

/-- Discard `n` entries that find the stream full (R64). -/
def State.streamDrop (s : State) (index n : Nat) : State :=
  (s.set (index * 256 + 3) 1).bumpBy (index * 256 + 4) n

/-- Append one entry of a kind: its header word and body (R62), discarded whole when the stream is full (R64). -/
def State.append (s : State) (index kind : Nat) (body : List Nat) : State :=
  if s.streamFits index (body.length + 1) then
    s.setStream index (s.stream index ++ [(kind * 65536 + body.length) :: body])
  else s.streamDrop index 1

/-! ### Replies and free values -/

/-- Record the reply to the request just executed. -/
def State.answer (s : State) (status : Nat) (data : List Nat) : State := { s with reply := ⟨status, data⟩ }

/-- The next free value, for a result the spec leaves undefined or unstated (log entry 4). -/
def State.freeVal (s : State) : Nat := Config.freeValue s.free

/-- Take a free value: the next one is another. -/
def State.takeFree (s : State) : State := { s with free := s.free + 1 }

/-- An event that cannot happen in the present state is no occurrence of it and changes nothing (log entry 2). -/
def onlyIf (c : Bool) (s t : State) : State := if c then t else s

/-- The device is in RUN: its blocks run (R534). Between a wake and the first tick edge after it nothing runs (R541). -/
def State.inRun (s : State) : Bool := s.power.phase == .run && !s.power.waking

/-- The cores and the dictionary engine are clocked: in RUN, and in a burst of OASIS (R534, R548). -/
def State.clocked (s : State) : Bool := s.inRun || s.power.burst.isSome

/-- Firmware runs and is clocked. -/
def State.fwRuns (s : State) : Bool := s.fwUp && s.clocked

/-- Pond time reaches an instant (never goes back by this). -/
def State.reach (s : State) (at_ : Nat) : State := { s with time := { s.time with now := max s.time.now at_ } }

/-- The count of CK_AON reaches a value (R410). -/
def State.reachAon (s : State) (n : Nat) : State := { s with time := { s.time with aon := max s.time.aon n } }

/-- Elapsed time in the DUR64 unit: milliseconds counted at tick edges, and the time since the last one. No step of Pond
time moves it. -/
def State.elapsed (s : State) : Nat := s.time.ms * MS + (s.time.now - s.time.t0)

/-- Nothing has happened since the last tick edge. -/
def State.atEdge (s : State) : Bool := s.time.now == s.time.t0

/-- Milliseconds since a count of tick edges. -/
def State.since (s : State) (m : Nat) : Nat := s.time.ms - m

/-- Pond time of the next tick edge. -/
def State.tickAhead (s : State) : Nat := (s.time.t0 + min 1 s.time.frac + 2 * MS - 1) / MS * MS

/-- Present Pond time as a TIME96 image (R6). -/
def State.now96 (s : State) : Nat := s.at96 s.time.now

/-- Present Pond time of the last tick edge as a TIME96 image. -/
def State.edge96 (s : State) : Nat := s.at96 s.time.t0

/-- A value in a list at an index changed by a function; the list is unchanged where it has no such index. -/
def listMod {α : Type} (l : List α) (i : Nat) (f : α → α) : List α := l.modify i f

/-- Set an ENUM-like key if it differs and say whether it changed. -/
def State.put (s : State) (k v : Nat) : State := s.set k v

end Sys2Proof.Machine
end

