-- ==== Sys2Proof/Machine/Time.lean ====
section
/-!
DEFINITION. Pond time: the steering law, TimingState, holdover, the hand-over of a step (spec/03, R81 to R95).
The parts of a step that act on other blocks are joined in Machine/TimeCmds.lean.
-/

namespace Sys2Proof.Machine

/-! ### Exact arithmetic on binary32 images -/

/-- The value of a binary32 image times 2^149, an integer; infinities and NaN never enter an object (R44). -/
def f32Scaled (v : Nat) : Int :=
  let e := bits v 30 23
  let m := bits v 22 0
  let a : Nat := if e = 0 then m else (m + 2 ^ 23) * 2 ^ (e - 1)
  if bit v 31 then -(a : Int) else a

/-- The integer square root, by `n` bits from the top. -/
def isqrtBits : Nat → Nat → Nat → Nat
  | 0, _, r => r
  | n + 1, v, r => let c := r + 2 ^ n; if c * c ≤ v then isqrtBits n v c else isqrtBits n v r

/-- The integer square root (floor). -/
def isqrt (v : Nat) : Nat := isqrtBits (v.log2 / 2 + 1) v 0

/-- The square root rounded to nearest. -/
def rsqrt (v : Nat) : Nat := let r := isqrt v; if r * r + r < v then r + 1 else r

/-! ### Error growth (R94) -/

/-- ErrorEstimate unknown (R94). -/
def errUnknown : Nat := 0xFFFF_FFFF

/-- An error in ps held below the unknown code. -/
def errCap (e : Int) : Nat := (clamp 0 0xFFFF_FFFE e).toNat

/-- E(t) of R94, `ms` milliseconds after the error was `e0` ps, rounded to a whole ps. -/
def errGrow (e0 y d w ms : Nat) : Nat :=
  if e0 = errUnknown then errUnknown
  else
    let t : Int := ms
    let sc : Int := (2 ^ 149 : Nat)
    -- 1000 Y t, 500 (D / 86400) t^2 and W t^1.5 with t in ms
    let a := divRound (f32Scaled y * t) sc
    let b := divRound (f32Scaled d * 500 * t * t) (sc * 86400 * 1000000)
    let c := divRound (f32Scaled w * (isqrt (ms ^ 3 * 1000) : Nat)) (sc * 1000000)
    errCap ((e0 : Int) + a + b + c)

/-- An error exceeds a limit; an unknown error exceeds every limit (R94). -/
def errExceeds (e lim : Nat) : Bool := e == errUnknown || decide (lim < e)

/-! ### TimingState (R84) -/

/-- Put TimingState. -/
def State.setTiming (s : State) (v : Nat) : State := s.set K.timingState v

/-- Entry to HOLDOVER or SPLIT: E0 and the count of time there (R94); qualification begins (R283). -/
def State.holdEntry (s : State) (v : Nat) : State :=
  let e := s.get K.pondTime_ErrorEstimate
  let first := !(s.timing == 3 || s.timing == 4)
  let since := if first then some s.time.ms else s.time.holdSince
  let s := if first then (s.set K.holdover_EntryError e) else s
  let s := (s.setTiming v).setB K.pondTime_Recovering false
  let s := { s with sol := { s.sol with qualify := true, series := [] } }
  { s with time := { s.time with holdSince := since, lockSince := none, driftFrom := none,
                                 growFrom := if first then (e, s.time.ms) else s.time.growFrom } }

/-- HOLDOVER goes on with Recovering FALSE: the error grows on from its present value (R84). -/
def State.recoverEnd (s : State) : State :=
  let e := s.get K.pondTime_ErrorEstimate
  let s := s.setB K.pondTime_Recovering false
  { s with time := { s.time with growFrom := (e, s.time.ms), lockSince := none, driftFrom := none } }

/-- Entry to HOLDOVER from STEPPED or LOCKED, or the end of Recovering; other states stay (R84, R95). -/
def State.toHoldover (s : State) : State :=
  if s.timing == 1 || s.timing == 2 then s.holdEntry 3
  else if s.timing == 3 && s.getB K.pondTime_Recovering then s.recoverEnd
  else s

/-- The single step has been handed over and its edge has not come (R89): the outputs are as in UNSET. -/
def State.firstDue (s : State) : Bool := s.time.due.any fun d => !d.reseed

/-- LossDelay has passed without a source update while firmware runs (R84). -/
def State.lossDue (s : State) : Bool :=
  s.fwUp && !s.firstDue &&
  (s.timing == 1 || s.timing == 2 || (s.timing == 3 && s.getB K.pondTime_Recovering)) &&
  (match s.time.lastUpdate with
   | none => true
   | some m => decide (s.get K.steering_LossDelay ≤ s.since m))

/-- The source is lost: SOURCE_LOST counts an entry to HOLDOVER (R84). -/
def State.sourceLost (s : State) : State :=
  let s := if s.timing == 1 || s.timing == 2 then s.flag K.timingEvents_TimingFlags 2 K.timingEvents_SourceLosses else s
  s.toHoldover

/-! ### The steering law -/

/-- 200 ppb in units of 2^-48 (R85). -/
def phaseLimit : Int := 56294995
/-- 100 ppm in units of 2^-48 (R85). -/
def rateLimit : Int := 28147497671
/-- The slew limit of a tick in units of 2^-48 (R85). -/
def slewLimit : Int := 562

/-- wn as a fraction of integers: 8 B ζ over 4 ζ² + 10^6, with B in mHz and ζ in thousandths. -/
def wnNum (s : State) : Int := 8 * s.get K.steering_LoopBandwidth * s.get K.steering_LoopDamping
def wnDen (s : State) : Int := 4 * s.get K.steering_LoopDamping * s.get K.steering_LoopDamping + 1000000

/-- u before its clamp, in units of 2^-48, for an offset in the DUR64 unit: 2 ζ wn x. -/
def phaseTerm (s : State) (x : Int) : Int :=
  divRound (2 * s.get K.steering_LoopDamping * wnNum s * x * (2 ^ 48 : Nat)) (1000 * wnDen s * SEC)

/-- wn² x dt in units of 2^-48, dt in ms. -/
def freqTerm (s : State) (x : Int) (dt : Nat) : Int :=
  divRound (wnNum s * wnNum s * x * dt * (2 ^ 48 : Nat)) (wnDen s * wnDen s * SEC * 1000)

/-- The source update forms the rate request (the steering law), `dt` ms after the update before it; TimeSource names the
source that Pond time follows. -/
def State.steer (s : State) (x : Int) (dt : Nat) : State :=
  let s := s.set K.pondTime_TimeSource (if s.time.fromLake then 2 else 1)
  if s.time.hostMode then s
  else
    let u0 := phaseTerm s x
    let cut := decide (phaseLimit < u0) || decide (u0 < -phaseLimit)
    let u := clamp (-phaseLimit) phaseLimit u0
    let f := s.getI K.steering_FreqCorrection 6
    let f := if cut then f else clamp (-rateLimit) rateLimit (f + freqTerm s x dt)
    let s := (s.setI K.steering_PhaseSteer 6 u).setI K.steering_FreqCorrection 6 f
    { s with time := { s.time with cutU := cut } }

/-- |x| lies within a number of ps. -/
def withinPs (x : Int) (ps : Nat) : Bool := decide (x.natAbs * 1000 ≤ ps * 65536)

/-- LOCKED is due: every update within LockThreshold for LockDwell (R84). -/
def State.lockJudge (s : State) (x : Int) : State :=
  if withinPs x (s.get K.steering_LockThreshold) then
    let since := s.time.lockSince.getD s.time.ms
    let s := { s with time := { s.time with lockSince := some since } }
    if decide (s.get K.steering_LockDwell * 1000 ≤ s.since since) &&
       (s.timing == 1 || (s.timing == 3 && s.getB K.pondTime_Recovering)) then
      let s := (s.setTiming 2).setB K.pondTime_Recovering false
      { s with time := { s.time with holdSince := none } }
    else s
  else { s with time := { s.time with lockSince := none } }

/-- Searches in progress when TimingState enters SPLIT (R185). -/
def State.ergSplit (s : State) : State :=
  { s with erg := { s.erg with lane := s.erg.lane.map fun o => o.map fun r => { r with split := true } } }

/-- A jump is refused: SPLIT, or again in SPLIT (R92). -/
def State.jumpRefused (s : State) (x : Int) : State :=
  let s := if s.timing == 4 then s else ((s.log 0x0103 St.jumpRefused (toBytes 8 (ofInt 8 x))).holdEntry 4).ergSplit
  (s.flag K.timingEvents_TimingFlags 1 K.timingEvents_JumpRefusals).setI K.timingEvents_LastRefusedOffset 8 x

/-- A source update after the step (R84, R92): `x` is source time minus Pond time, `dt` the ms since the update
before. It judges JumpThreshold and LockThreshold and forms the rate request. -/
def State.sourceUpdate (s : State) (lake : Bool) (x : Int) : State :=
  if s.timing == 0 then s
  else
    let dt := match s.time.lastUpdate with | none => (if lake then 100 else 1000) | some m => s.since m
    let s := { s with time := { s.time with lastUpdate := some s.time.ms, fromLake := lake,
                                            xs := (x :: s.time.xs).take 600, updates := s.time.updates + 1 } }
    let s := { s with sol := { s.sol with last := (x, s.sol.steers) } }
    let far := decide (s.getI K.steering_JumpThreshold 8 < (x.natAbs : Int))
    if far then s.jumpRefused x
    else if s.timing == 4 then s
    else if s.timing == 3 then
      if s.get K.reference_RefStatus == 0 then
        let s := s.setB K.pondTime_Recovering true
        (s.steer x (min dt 60000)).lockJudge x
      else s
    else (s.steer x (min dt 60000)).lockJudge x

/-! ### The step (R89 to R93) -/

/-- The time source code (R89): 1 GNSS, 2 LAKE, 3 HOST. -/
def StepSource.code : StepSource → Nat
  | .gnss => 1 | .lake => 2 | .host => 3

/-- An estimate is handed to the Pond time unit: of a first step TimingState leaves UNSET at once (R89). -/
def State.handOver (s : State) (d : StepDue) : State :=
  let s := { s with time := { s.time with due := some d } }
  if d.reseed then s
  else (s.setTiming 1).set K.pondTime_TimeSource d.source.code

/-- The count of tick edges at the first edge at least 2 ms from now (R90): the second edge from a tick edge, the third
from any later instant of the tick. -/
def State.edgeAfter2ms (s : State) : Nat := if s.time.now = s.time.t0 then s.time.ms + 2 else s.time.ms + 3

/-- A first estimate of a source offset (R89): in UNSET with no step due. DESIGN CHOICE (log entry 152): the offset of its
epoch stands for the step edge, without the change of the rate since. -/
def State.firstEstimate (s : State) (src : StepSource) (x : Int) (freq : Option Int) (error : Nat) : State :=
  if s.timing == 0 && s.time.due.isNone then
    s.handOver ⟨true, x, s.edgeAfter2ms, src, freq, error, false⟩
  else s

/-- Pond time at the step edge after the step (R90), in 2^-23 DUR64 units. A TIME96 unit is 5^9 of them. -/
def stepFine (edge : Nat) (d : StepDue) : Nat :=
  if d.relative then ((edge : Int) + d.amount).toNat * 2 ^ 23 else d.amount.toNat * 5 ^ 9

/-- Pond time at the step edge after the step, in the DUR64 unit. -/
def stepTarget (edge : Nat) (d : StepDue) : Nat := stepFine edge d / 2 ^ 23

/-- Pond time at the step edge after the step, as a TIME96 image. -/
def stepValue (edge : Nat) (d : StepDue) : Nat := fine96 (stepFine edge d)

/-- The step at its edge (R90): Pond time takes the value; the tick keeps its number, and the next edge falls at the
first whole millisecond at least 1 ms later. -/
def State.stepPond (s : State) (d : StepDue) : State :=
  let f := stepFine s.time.t0 d
  { s with time := { s.time with now := f / 2 ^ 23, t0 := f / 2 ^ 23, frac := f % 2 ^ 23, due := none } }

/-- The records and counters of a step at its edge (R90, R93): STEP for the single step; the record of a re-seed was
written before its hand-over, and firmware that is down sets LastStepAt when it restarts (R115). `v` is the value set, as a
TIME96 image. -/
def State.stepReport (s : State) (d : StepDue) (v : Nat) : State :=
  let s := if d.reseed then s else s.log 0x0101 St.ok (toBytes 12 v)
  let s := s.flag K.timingEvents_TimingFlags 0 K.timingEvents_StepEvents
  if d.reseed && !s.fwUp then s else s.set K.pondTime_LastStepAt v

/-- Timing after the step: STEPPED, the counts of updates begin again, ErrorEstimate starts from the source's error;
a reference that is not VALID takes the device to HOLDOVER at once (R89, R93, R114). -/
def State.stepState (s : State) (d : StepDue) : State :=
  let s := ((s.setTiming 1).setB K.pondTime_Recovering false).set K.pondTime_ErrorEstimate d.error
  let s := s.set K.pondTime_TimeSource d.source.code
  let s := { s with time := { s.time with lastUpdate := some s.time.ms, lockSince := none, holdSince := none, xs := [],
                                          updates := 0, fromLake := decide (d.source = StepSource.lake) } }
  let s := { s with sol := { s.sol with last := (0, s.sol.steers) } }
  if s.get K.reference_RefStatus == 0 then s else s.toHoldover

/-! ### Tick-edge actions of steering (R85, R87, R88, R94) -/

/-- The OCXO_TUNE code offset for a frequency correction: f / TuneGain, convergent rounding (R88). -/
def tuneOffset (f : Int) (gain : Nat) : Int := divRound (f * 1000000000 * (2 ^ 101 : Nat)) (f32Scaled gain)

/-- The rate a number of codes gives, in units of 2^-48. -/
def tuneRate (codes : Int) (gain : Nat) : Int := divRound (codes * f32Scaled gain) (1000000000 * (2 ^ 101 : Nat))

/-- The part of f that goes to the oscillator's target code, and what remains for the digital path (R88). -/
def tuneTarget (s : State) (f : Int) : Nat × Int × Bool :=
  let gain := s.get K.steering_TuneGain
  let c : Int := s.get K.steering_TuneCentre
  let want := c + tuneOffset f gain
  if want < 0 then (0, f - tuneRate (0 - c) gain, true)
  else if 1048575 < want then (1048575, f - tuneRate (1048575 - c) gain, true)
  else (want.toNat, 0, false)

/-- The rate objects at a step (R89, R93): PhaseSteer 0, FreqCorrection the source's estimate; RateApplied takes it at once, in
OCXO_DAC mode what the target code leaves of it (R88). DESIGN CHOICE (log entry 153): in HOST mode the request stays HostRate,
as R87 says, and the step leaves the rate objects. -/
def State.stepRate (s : State) (d : StepDue) : State :=
  if s.time.hostMode then s
  else
    let f := match d.freq with
      | some f => clamp (-rateLimit) rateLimit f
      | none => if d.reseed then s.getI K.steering_FreqCorrection 6 else 0
    let s := (s.setI K.steering_FreqCorrection 6 f).setI K.steering_PhaseSteer 6 0
    let r := if s.get K.steering_SteeringMode == 0 then f else clamp (-rateLimit) rateLimit (tuneTarget s f).2.1
    let s := s.setI K.steering_RateApplied 6 r
    { s with time := { s.time with cutU := false, driftFrom := none } }

/-- TuneCode moves toward a target by the whole codes of the accumulated allowance (R88). -/
def State.tuneMove (s : State) (target : Nat) : State :=
  let code := s.get K.steering_TuneCode
  if code = target then { s with time := { s.time with tuneAcc := 0 } }
  else
    let g := (f32Scaled (s.get K.steering_TuneGain)).toNat
    let acc := s.time.tuneAcc + 562 * 1000000000 * 2 ^ 101
    let dist := if code < target then target - code else code - target
    let n := min (acc / g) dist
    let code' := if code < target then code + n else code - n
    let s := s.set K.steering_TuneCode code'
    { s with time := { s.time with tuneAcc := if code' = target then 0 else acc - n * g } }

/-- One edge of the applied rate toward the digital part of the request (R85); a request cut by a limit counts. DESIGN CHOICE
(log entry 154): TuneLimits counts every tick whose target code is held at a range end, TuneCode still on its way or not. -/
def State.rateSlew (s : State) : State :=
  let host := s.time.hostMode
  let ocxo := s.get K.steering_SteeringMode == 1
  let f := if host then s.getI K.steering_HostRate 6 else s.getI K.steering_FreqCorrection 6
  let u := if host then 0 else s.getI K.steering_PhaseSteer 6
  let tt := tuneTarget s f
  let want := if ocxo then u + tt.2.1 else f + u
  let held := clamp (-rateLimit) rateLimit want
  let r := s.getI K.steering_RateApplied 6
  let r' := r + clamp (-slewLimit) slewLimit (held - r)
  let s := s.setI K.steering_RateApplied 6 r'
  let cut := (!host && s.time.cutU) || (decide (held ≠ want) && decide (r' = held))
  let s := if cut then s.flag K.timingEvents_TimingFlags 3 K.timingEvents_RateLimitedTicks else s
  let s := if host && ocxo then (s.setI K.steering_FreqCorrection 6 f).setI K.steering_PhaseSteer 6 0 else s
  let s := if ocxo && tt.2.2 then s.flag K.timingEvents_TimingFlags 4 K.timingEvents_TuneLimits else s
  s.tuneMove (if ocxo then tt.1 else s.get K.steering_TuneCentre)

/-- FreqCorrection `ms` milliseconds after it was `f` and began to follow a drift of D ppb per day, given as the binary32 image
of ModelD (R94): D × 10^-9 × 2^48 units a day, rounded to nearest. -/
def driftRate (f : Int) (d ms : Nat) : Int :=
  clamp (-rateLimit) rateLimit (f + divRound (f32Scaled d * ms * (2 ^ 48 : Nat)) ((2 ^ 149 : Nat) * 86400000 * 1000000000))

/-- Firmware does not steer in HOLDOVER and SPLIT (R94): PhaseSteer returns to 0 under the slew limit; from then on
FreqCorrection follows the learned drift (log entry 156). -/
def State.holdRate (s : State) : State :=
  let u := s.getI K.steering_PhaseSteer 6
  if u ≠ 0 then
    let s := s.setI K.steering_PhaseSteer 6 (u + clamp (-slewLimit) slewLimit (0 - u))
    { s with time := { s.time with cutU := false, driftFrom := none } }
  else
    let p := s.time.driftFrom.getD (s.getI K.steering_FreqCorrection 6, s.time.ms)
    let s := s.setI K.steering_FreqCorrection 6 (driftRate p.1 (s.get K.holdover_ModelD) (s.since p.2))
    { s with time := { s.time with cutU := false, driftFrom := some p } }

/-- In HOLDOVER without Recovering, and in SPLIT, the rate follows the oscillator model, and in both the error grows (R94). -/
def State.holdTick (s : State) : State :=
  if s.timing == 3 || s.timing == 4 then
    let s := if (s.timing == 4 || !s.getB K.pondTime_Recovering) && !s.time.hostMode then s.holdRate
      else { s with time := { s.time with driftFrom := none } }
    let e := errGrow s.time.growFrom.1 (s.get K.holdover_ModelY) (s.get K.holdover_ModelD) (s.get K.holdover_ModelW)
      (s.since s.time.growFrom.2)
    let s := s.set K.pondTime_ErrorEstimate e
    s.set K.holdover_HoldoverSeconds (min 0xFFFFFFFF (s.since (s.time.holdSince.getD s.time.ms) / 1000))
  else s.set K.holdover_HoldoverSeconds 0

/-- SteeringSource takes effect at the edge (R87). -/
def State.steerSource (s : State) : State :=
  { s with time := { s.time with hostMode := s.get K.steering_SteeringSource == 1 } }

/-! ### The reference (R95) -/

/-- The reference is lost: the device leaves VALID, counts, logs, and enters HOLDOVER, after the single step where that is due
(R95, R114). -/
def State.referenceLost (s : State) : State :=
  let s := { s with time := { s.time with refOk := false } }
  if s.get K.reference_RefStatus == 1 then s
  else
    let s := (s.set K.reference_RefStatus 1).setB K.reference_ReferenceFault true
    let s := s.bump K.reference_ReferenceFaultCount 2
    let s := if s.firstDue then s else s.toHoldover
    s.log 0x0104 St.ok []

/-- The reference is valid again and qualifies (R95). -/
def State.referenceReturning (s : State) : State :=
  let s := { s with time := { s.time with refOk := true, refSince := s.time.ms } }
  if s.get K.reference_RefStatus == 1 then s.set K.reference_RefStatus 2 else s

/-- The reference has been valid for 10 s (R95). -/
def State.referenceValid (s : State) : State :=
  if s.get K.reference_RefStatus == 2 && s.time.refOk && decide (10000 ≤ s.since s.time.refSince) then
    s.set K.reference_RefStatus 0
  else s

end Sys2Proof.Machine
end

