-- ==== Sys2Proof/Machine/Arith.lean ====
section
/-!
DEFINITION. Real functions the spec's formulas use, on integers: the arctangent in cycles, decibels, e^-x and the upper
tail of the chi-square law. Each is computed to far more digits than any result that is kept.
-/

namespace Sys2Proof.Machine

/-- The unit of discriminator outputs and loop filters: 2^-40. -/
def FX : Int := (2 ^ 40 : Nat)

/-- atan(2^-i) / 2π in units of 2^-40, i from 0. -/
def atanTable : List Int :=
  [137438953472, 81134951838, 42869480287, 21761217566, 10922836750, 5466743129, 2734038620, 1367102738, 683561799,
   341782203, 170891265, 85445653, 42722829, 21361415, 10680707, 5340354, 2670177, 1335088, 667544, 333772, 166886]
  ++ [83443, 41722, 20861, 10430, 5215, 2608, 1304, 652, 326, 163, 81, 41, 20, 10, 5, 3, 1, 1]

/-- Rotate (x, y), x ≥ 0, onto the x axis; the angle turned, in units of 2^-40 cycle. -/
def cordic : List Int → Nat → Int → Int → Int → Int
  | [], _, _, _, z => z
  | a :: l, i, x, y, z =>
    let d : Int := (2 ^ i : Nat)
    if 0 ≤ y then cordic l (i + 1) (x + y / d) (y - x / d) (z + a)
    else cordic l (i + 1) (x - y / d) (y + x / d) (z - a)

/-- atan2(y, x) / 2π in units of 2^-40 cycle, within ±2^39; 0 for (0, 0). -/
def atan2c (y x : Int) : Int :=
  if x = 0 ∧ y = 0 then 0
  else
    let k : Int := (2 ^ 48 : Nat)
    if 0 ≤ x then cordic atanTable 0 (x * k) (y * k) 0
    else if 0 ≤ y then (2 ^ 39 : Nat) + cordic atanTable 0 (-x * k) (-y * k) 0
    else cordic atanTable 0 (-x * k) (-y * k) 0 - (2 ^ 39 : Nat)

/-- atan(y / x) / 2π in units of 2^-40 cycle, within ±2^38; 0 when x is 0. -/
def atanc (y x : Int) : Int :=
  if x = 0 then 0 else if 0 < x then atan2c y x else atan2c (-y) (-x)

/-- 1 / 2π in units of 2^-40. -/
def inv2pi : Int := 174992710548

/-- Largest n below 2^k (k bits) with 10^(2 n - 1) b ≤ a, from the top bit. -/
def dbSearch : Nat → Nat → Nat → Nat → Nat
  | 0, _, _, n => n
  | k + 1, a, b, n =>
    let m := n + 2 ^ k
    if 10 ^ (2 * m - 1) * b ≤ a then dbSearch k a b m else dbSearch k a b n

/-- 10 log10(num / den) in tenths of a decibel, rounded to nearest, held at 0 from below; 1023 for a zero divisor of
something, 0 for 0. -/
def deciBel (num den : Nat) : Nat :=
  if num = 0 then 0 else if den = 0 then 1023 else dbSearch 10 (num ^ 200) (den ^ 200) 0

/-- 10 log10(num / den) in units of 0.25 dB, rounded to nearest and held at 0 to 4,095 (R499). -/
def quarterDb (num den : Nat) : Nat :=
  if num = 0 then 0 else if den = 0 then 4095 else dbSearch 12 (num ^ 80) (den ^ 80) 0

/-! ### e^-x and the chi-square law, in units of 2^-256 -/

/-- The unit. -/
def P256 : Nat := 2 ^ 256

/-- Terms of the series of e^-y. -/
def expTerms : Nat → Nat → Int → Int → Int → Int
  | 0, _, _, _, a => a
  | f + 1, i, y, t, a =>
    let t' := -(t * y) / ((P256 : Int) * i)
    expTerms f (i + 1) y t' (a + t')

/-- A value squared `n` times. -/
def squares : Nat → Nat → Nat
  | 0, v => v
  | n + 1, v => squares n (v * v / P256)

/-- e^-x, x in units of 2^-256. -/
def expNeg (x : Nat) : Nat :=
  if 2000 * P256 ≤ x then 0
  else squares 12 (expTerms 50 1 ((x / 4096 : Nat) : Int) P256 P256).toNat

/-- Sum of the terms (2x)^k / (2k+1)!! (odd) or x^k / k! (even) below and from index m: (below, from). -/
def chiTerms : Nat → Nat → Nat → Bool → Nat → Nat → Nat × Nat → Nat × Nat
  | 0, _, _, _, _, _, a => a
  | f + 1, k, m, odd, x, t, a =>
    let a := if k < m then (a.1 + t, a.2) else (a.1, a.2 + t)
    let t' := if odd then t * (2 * x) / (P256 * (2 * k + 3)) else t * x / (P256 * (k + 1))
    chiTerms f (k + 1) m odd x t' a

/-- π in units of 2^-256. -/
def pi256 : Nat := 363771576891766324280234942777729862653393377328392429958772151117938894466185

/-- The probability that a chi-square variable of `nu` degrees of freedom exceeds q, q in units of 2^-256. -/
def chiTail (nu q : Nat) : Nat :=
  let x := q / 2
  if 2000 * P256 ≤ x then 0
  else
    let e := expNeg x
    let m := nu / 2
    let r := chiTerms (64 + 4 * (x / P256) + nu) 0 m (nu % 2 == 1) x P256 (0, 0)
    if nu % 2 = 0 then e * r.1 / P256
    else
      let w := 2 * isqrt (x * P256 / pi256 * P256)
      let low := w * e / P256 * r.2 / P256
      P256 - low

/-- A statistic passes at probability 1 - 10^-p: its tail probability is at least 10^-p. `q` is num / den. -/
def chiPasses (nu p num den : Nat) : Bool :=
  if den = 0 then true else decide (P256 ≤ chiTail nu (num * P256 / den) * 10 ^ p)

/-- The natural logarithm of 10 in units of 2^-256. -/
def ln10 : Nat := 266621138564480548222253459415182587429914225440519472036001743423645469947338

/-- 10^(n / 100) in units of 2^-64. -/
def pow10 (n : Int) : Nat :=
  let k := n.fdiv 100
  let m := (n.fmod 100).toNat
  -- 10^(m/100) = 10 e^-((100 - m)/100 ln 10)
  let f := 10 * (expNeg (ln10 * (100 - m) / 100) / 2 ^ 128)
  if 0 ≤ k then f * 10 ^ k.toNat / 2 ^ 64 else f / 10 ^ (-k).toNat / 2 ^ 64

end Sys2Proof.Machine
end

