-- ==== Sys2Proof/Machine/Timers.lean ====
section
/-!
DEFINITION. Cadence timers and capture (spec/16, R516 to R533): steps, starts, stops, outputs, stamps.
Grid steps fall every 8 ns of Pond time. A timer clocked from TS8 counts plain steps when an event names a later one.
-/

namespace Sys2Proof.Machine

/-- A vector's entry changed by a function; unchanged where there is no such entry. -/
def vecMod {α : Type} {n : Nat} (v : Vector α n) (i : Nat) (f : α → α) : Vector α n :=
  match v[i]? with
  | some x => v.setIfInBounds i (f x)
  | none => v

/-- One grid step in the DUR64 unit: 8 ns (R516). -/
def gridStep : Nat := 8 * NS
/-- The first grid step at or after an instant. -/
def gridFrom (t : Nat) : Nat := (t + gridStep - 1) / gridStep * gridStep
/-- The first grid step after an instant. -/
def gridAfter (t : Nat) : Nat := (t / gridStep + 1) * gridStep

/-- One core. -/
def State.core (s : State) (c : Nat) : CoreSt := s.cpu.core.getD c CoreSt.reset
/-- Change one core. -/
def State.modCore (s : State) (c : Nat) (f : CoreSt → CoreSt) : State :=
  { s with cpu := { s.cpu with core := vecMod s.cpu.core c f } }

/-- Raise a bit of INT_PENDING of a core (R425): setting wins over a clearing write. -/
def State.raiseInt (s : State) (c v : Nat) : State :=
  s.modCore c fun k => { k with intPending := k.intPending ||| (1 <<< v : BitVec 24) }

/-- One timer. -/
def State.timer (s : State) (n : Nat) : TmrSt := s.tmr.tmr.getD n TmrSt.reset
/-- Change one timer. -/
def State.modTimer (s : State) (n : Nat) (f : TmrSt → TmrSt) : State :=
  { s with tmr := { s.tmr with tmr := vecMod s.tmr.tmr n f } }
/-- TimerState: 0 STOPPED, 1 ARMED, 2 RUNNING, 3 DONE. -/
def State.timerState (s : State) (n : Nat) : Nat := s.get (K.cadenceTimer_TimerState n)
/-- Put TimerState. -/
def State.setTimerState (s : State) (n v : Nat) : State := s.set (K.cadenceTimer_TimerState n) v

/-- An event of a timer: its flag and counter, and TIMER on the core of TimerIrqCore when its Options bit is set (R527). -/
def State.timerEvent (s : State) (n b counter : Nat) : State :=
  let s := s.flag (K.cadenceTimer_TimerFlags n) b counter
  if b < 3 && bit (s.get (K.cadenceTimer_Options n)) b then s.raiseInt (s.get K.timerGlobal_TimerIrqCore) 6 else s

/-! ### Outputs (R524) -/

/-- The next level of an output from the events of one step of its source timer. -/
def outNext (mode : Nat) (now under m0 m1 begins : Bool) : Bool :=
  match mode with
  | 1 => if under then !now else now
  | 2 => if under then true else now
  | 3 => if m0 then false else if under || begins then true else now
  | 4 => if m0 then !now else now
  | 5 => if m0 && m1 then false else if m0 then true else if m1 then false else now
  | _ => false

/-- One output follows the events of a step of timer `n` at an instant. -/
def State.outFollow (s : State) (n at_ : Nat) (under m0 m1 begins : Bool) (o : Nat) : State :=
  if s.get (K.timerOutput_OutSource o) = n then
    let mode := s.get (K.timerOutput_OutMode o)
    let s := s.setB (K.timerOutput_OutLevel o)
      (outNext mode (s.getB (K.timerOutput_OutLevel o)) under m0 m1 begins)
    if mode = 2 ∧ under = true then
      let e := at_ + s.get (K.timerOutput_PulseSteps o) * gridStep
      { s with tmr := { s.tmr with pulse := vecMod s.tmr.pulse o fun _ => some e } }
    else s
  else s

/-- The outputs follow a step. -/
def State.outsFollow (s : State) (n at_ : Nat) (under m0 m1 begins : Bool) : State :=
  (List.range 8).foldl (fun s o => s.outFollow n at_ under m0 m1 begins o) s

/-- A change to a TimerOutput record: OFF and a source of 255 hold the inactive level. -/
def State.outChanged (s : State) (o : Nat) : State :=
  let s := if s.get (K.timerOutput_OutMode o) = 2 then s
           else { s with tmr := { s.tmr with pulse := vecMod s.tmr.pulse o fun _ => none } }
  if s.get (K.timerOutput_OutMode o) = 0 || s.get (K.timerOutput_OutSource o) = 255 then
    s.setB (K.timerOutput_OutLevel o) false
  else s

/-- The pulse of output `o` ends at its grid step. -/
def State.pulseEnd (s : State) (o at_ : Nat) : State :=
  if s.tmr.pulse.getD o none = some at_ then
    let s := { s with tmr := { s.tmr with pulse := vecMod s.tmr.pulse o fun _ => none } }
    s.setB (K.timerOutput_OutLevel o) false
  else s

/-! ### Steps (R517, R518, R520, R521) -/

/-- The events of a move of Count into its present value: matches, flags, outputs. -/
def State.timerMoved (s : State) (n at_ : Nat) (under begins : Bool) : State :=
  let c := s.get (K.cadenceTimer_Count n)
  let m0 := decide (s.get (K.cadenceTimer_Compare0 n) = c)
  let m1 := decide (s.get (K.cadenceTimer_Compare1 n) = c)
  let s := if under then s.timerEvent n 0 (K.cadenceTimer_UnderflowCount n) else s
  let s := if m0 then s.timerEvent n 1 (K.cadenceTimer_Compare0Count n) else s
  let s := if m1 then s.timerEvent n 2 (K.cadenceTimer_Compare1Count n) else s
  s.outsFollow n at_ under m0 m1 begins

/-- Timers that satisfy a test, in ascending order. -/
def timersWhere (p : Nat → Bool) : List Nat := (List.range 16).filter p

/-- Timer `n` begins counting at a grid step: RUNNING, StartedAt; so do the timers armed WITH_MASTER on it, through a
chain of any depth (`fuel` 16). -/
def State.timerBegin : Nat → Nat → Nat → State → State
  | 0, _, _, s => s
  | fuel + 1, at_, n, s =>
    if s.timerState n = 1 then
      let s := (s.setTimerState n 2).set (K.cadenceTimer_StartedAt n) (toTime96 at_)
      let s := s.modTimer n fun t => { t with arm := .none, last := at_ }
      let s := s.timerMoved n at_ false true
      (timersWhere fun m => decide (s.timerState m = 1 ∧ (s.timer m).arm = .master n)).foldl
        (fun s m => State.timerBegin fuel at_ m s) s
    else s

/-- Timer `n` takes one step at an instant (R517): it counts down, or underflows and reloads or ends; its slaves take a
step with each underflow and timers armed on it begin. -/
def State.timerStep : Nat → Nat → Nat → State → State
  | 0, _, _, s => s
  | fuel + 1, at_, n, s =>
    if s.timerState n = 2 then
      let c := s.get (K.cadenceTimer_Count n)
      let s := s.modTimer n fun t => { t with last := at_ }
      if 1 < c then (s.set (K.cadenceTimer_Count n) (c - 1)).timerMoved n at_ false false
      else
        let s :=
          if s.get (K.cadenceTimer_TimerMode n) = 1 ∧ c = 1 then
            (s.set (K.cadenceTimer_Count n) 0).setTimerState n 3
          else
            let r := s.get (K.cadenceTimer_Reload n)
            ((s.set (K.cadenceTimer_ReloadInUse n) r).set (K.cadenceTimer_Count n) r).count (K.cadenceTimer_Periods n) 6
        let s := s.timerMoved n at_ true false
        let slaves := timersWhere fun m =>
          s.timerState m = 2 && s.get (K.cadenceTimer_ClockSource m) == 2 && s.get (K.cadenceTimer_SourceSelect m) == n
        let waiting := timersWhere fun m => decide (s.timerState m = 1 ∧ (s.timer m).arm = .master n)
        let s := slaves.foldl (fun s m => State.timerStep fuel at_ m s) s
        waiting.foldl (fun s m => State.timerBegin 16 at_ m s) s
    else s

/-- Grid steps from the last one counted to an instant, of a timer clocked from TS8. -/
def State.timerAhead (s : State) (n at_ : Nat) : Nat := (at_ - (s.timer n).last) / gridStep

/-- Timer `n` counts plain steps up to the grid step before an instant, and takes its step there. -/
def State.timerTo (s : State) (n at_ : Nat) : State :=
  let k := s.timerAhead n at_
  if s.timerState n = 2 && s.get (K.cadenceTimer_ClockSource n) == 0 && decide (0 < k) then
    let c := s.get (K.cadenceTimer_Count n)
    State.timerStep 16 at_ n (s.set (K.cadenceTimer_Count n) (max 1 (c - (k - 1))))
  else s

/-- Count as it stands at an instant: plain steps are counted when it is read. -/
def State.timerCount (s : State) (n at_ : Nat) : Nat :=
  let c := s.get (K.cadenceTimer_Count n)
  if s.timerState n = 2 && s.get (K.cadenceTimer_ClockSource n) == 0 then max (min c 1) (c - s.timerAhead n at_) else c

/-- The step of timer `n` at an instant is an underflow. -/
def State.underflowDue (s : State) (n at_ : Nat) : Bool :=
  let k := s.timerAhead n at_
  s.timerState n = 2 && s.get (K.cadenceTimer_ClockSource n) == 0 && decide (at_ % gridStep = 0 ∧ 0 < k)
    && decide (s.get (K.cadenceTimer_Count n) ≤ k)
    && decide (k ≤ max 1 (s.get (K.cadenceTimer_Count n)))

/-- The value Count moves into at the step of timer `n` at an instant. -/
def State.countInto (s : State) (n at_ : Nat) : Nat :=
  let c := s.get (K.cadenceTimer_Count n) - (s.timerAhead n at_ - 1)
  if 1 < c then c - 1
  else if s.get (K.cadenceTimer_TimerMode n) = 1 ∧ c = 1 then 0
  else s.get (K.cadenceTimer_Reload n)

/-- The step of timer `n` at an instant matches compare `w`. -/
def State.matchDue (s : State) (n w at_ : Nat) : Bool :=
  let k := s.timerAhead n at_
  s.timerState n = 2 && s.get (K.cadenceTimer_ClockSource n) == 0 && decide (at_ % gridStep = 0 ∧ 0 < k)
    && decide (k ≤ max 1 (s.get (K.cadenceTimer_Count n))) && decide (w < 2)
    && decide (s.countInto n at_ = s.get (if w = 0 then K.cadenceTimer_Compare0 n else K.cadenceTimer_Compare1 n))

/-- The instant at which an armed timer begins counting, when it is a grid step of its own (R520). -/
def armInstant : Arm → Option Nat
  | .after t => some (gridAfter t)
  | .at_ t => some (gridFrom t)
  | _ => none

/-- The grid step after a STOP, at `t`, completes with its events (R519). -/
def State.stopStep (s : State) (t n : Nat) : State :=
  if s.timerState n = 1 ∧ armInstant (s.timer n).arm = some t then State.timerBegin 16 t n s else s.timerTo n t

/-- A timer halts: Count holds, and the outputs that follow it hold their level (R519, R524). -/
def State.timerHalt (s : State) (n : Nat) : State :=
  let s := s.modTimer n fun k => { k with stopAt := none, arm := .none }
  if s.timerState n = 3 then s
  else
    let pulse := Vector.ofFn fun (o : Fin 8) =>
      if s.get (K.timerOutput_OutSource o) = n then none else s.tmr.pulse.getD o none
    { s.setTimerState n 0 with tmr := { s.tmr with pulse := pulse } }

/-- Every STOP whose grid step lies before an instant takes effect: the steps complete, then the timers halt. -/
def State.timersStop (s : State) (before : Nat) : State :=
  let l := timersWhere fun n => match (s.timer n).stopAt with | some t => decide (t < before) | none => false
  let s := l.foldl (fun s n => match (s.timer n).stopAt with | some t => s.stopStep t n | none => s) s
  l.foldl (fun s n => s.timerHalt n) s

/-- Every STOP that is complete by now takes effect. -/
def State.timersSettle (s : State) : State := s.timersStop (s.time.now + 1)

/-- TICK: timers clocked from TICK take their step (R516). -/
def State.timersTick (s : State) : State :=
  let s := s.timersStop s.time.t0
  let run := timersWhere fun n => s.timerState n = 2 && s.get (K.cadenceTimer_ClockSource n) == 1
  (run.foldl (fun s n => State.timerStep 16 s.time.t0 n s) s).timersSettle

/-- An armed timer reaches its start point (R520): its own grid step, or the tick edge after its START. -/
def State.timerStart (s : State) (n at_ : Nat) : State :=
  let due := match (s.timer n).arm with
    | .tick m => decide (m < s.time.ms ∧ at_ = s.time.t0)
    | a => armInstant a == some at_
  if due && s.timerState n == 1 then State.timerBegin 16 at_ n (s.reach at_) else s

/-- A filtered edge at capture pin `i`: the timers it clocks take a step at the next grid step (R516). -/
def State.timersPin (s : State) (i : Nat) (rising : Bool) (at_ : Nat) : State :=
  let run := timersWhere fun n =>
    let cs := s.get (K.cadenceTimer_ClockSource n)
    s.timerState n = 2 && s.get (K.cadenceTimer_SourceSelect n) == i && (cs == 5 || (cs == 3 && rising) || (cs == 4 && !rising))
  run.foldl (fun s n => State.timerStep 16 (gridAfter at_) n s) s

/-! ### Commands (R519, R520, R523) -/

/-- Why a START, START_LATE_OK or STOP of timer `n` is turned away: status and data, in the order of R53. `late` allows a
past instant; `group` is GroupStartAt of a group start. -/
def State.timerRefuses (s : State) (n cmd : Nat) (group : Option Nat) : Option (Nat × List Nat) :=
  let st := s.timerState n
  if cmd = 3 then (if st = 1 ∨ st = 2 then none else some (St.notInState, [st, 0x06]))
  else
    let mode := s.get (K.cadenceTimer_StartMode n)
    let at_ : Option Nat := match group with
      | some g => if g = 0 then none else some (ofTime96 g)
      | none => if mode = 1 then some (ofTime96 (s.get (K.cadenceTimer_StartAt n))) else none
    if s.get (K.cadenceTimer_TimerMode n) = 0 then some (St.outOfRange, [])
    else if group.isNone && mode == 3 && s.get (K.cadenceTimer_StartMaster n) == 255 then some (St.outOfRange, [])
    else if at_.any fun a => decide (s.time.now + 86400 * SEC < a) then some (St.outOfRange, [])
    else if !(st == 0 || st == 3) then some (St.notInState, [st, 0x09])
    else if cmd = 1 ∧ (at_.any fun a => decide (a < s.time.now)) = true then some (St.late, [])
    else none

/-- Timer `n` is armed: Count takes Reload and Periods begins again (R517). -/
def State.timerArm (s : State) (n : Nat) (a : Arm) : State :=
  let r := s.get (K.cadenceTimer_Reload n)
  let s := ((s.set (K.cadenceTimer_ReloadInUse n) r).set (K.cadenceTimer_Count n) r).set (K.cadenceTimer_Periods n) 0
  (s.setTimerState n 1).modTimer n fun t => { t with arm := a, stopAt := none }

/-- An accepted START, START_LATE_OK or STOP of timer `n`. -/
def State.timerCommand (s : State) (n cmd : Nat) : State :=
  if cmd = 3 then s.modTimer n fun t => { t with stopAt := some (gridAfter s.time.now) }
  else
    let mode := s.get (K.cadenceTimer_StartMode n)
    let t := ofTime96 (s.get (K.cadenceTimer_StartAt n))
    if mode = 1 then
      if t < s.time.now then
        (s.timerArm n (.after s.time.now)).timerEvent n 3 (K.cadenceTimer_LateStarts n)
      else s.timerArm n (.at_ t)
    else if mode = 2 then s.timerArm n (.tick s.time.ms)
    else if mode = 3 then s.timerArm n (.master (s.get (K.cadenceTimer_StartMaster n)))
    else s.timerArm n (.after s.time.now)

/-- The timers a GroupStart names. -/
def groupTimers (mask : Nat) : List Nat := timersWhere fun n => bit mask n

/-- The first reason to turn a GroupStart away, by the order of R53: checks against records, then states, then LATE. -/
def State.groupRefuses (s : State) (mask : Nat) : Option (Nat × List Nat) :=
  let cmd := if s.getB K.timerGlobal_GroupStartLateOk then 2 else 1
  let l := (groupTimers mask).filterMap fun n => s.timerRefuses n cmd (some (s.get K.timerGlobal_GroupStartAt))
  match l.find? fun p => p.1 == St.outOfRange with
  | some p => some p
  | none => match l.find? fun p => p.1 == St.notInState with
    | some p => some p
    | none => l.head?

/-- An accepted GroupStart: all named timers begin at the same grid step. -/
def State.groupStart (s : State) (mask : Nat) : State :=
  let g := s.get K.timerGlobal_GroupStartAt
  let t := ofTime96 g
  (groupTimers mask).foldl (fun s n =>
    if g = 0 then s.timerArm n (.after s.time.now)
    else if t < s.time.now then (s.timerArm n (.after s.time.now)).timerEvent n 3 (K.cadenceTimer_LateStarts n)
    else s.timerArm n (.at_ t)) s

/-- Following a chain of links from a timer never comes back to it within 16 links. -/
def linkCycle (next : Nat → Option Nat) (start : Nat) : Nat → Nat → Bool
  | 0, _ => false
  | fuel + 1, n => match next n with
    | none => false
    | some m => m == start || linkCycle next start fuel m

/-- A write of the links of timer `n` that R521 rejects, judged on the resulting record. -/
def State.timerLinksBad (s : State) (n : Nat) : Bool :=
  let clk (m : Nat) : Option Nat :=
    if s.get (K.cadenceTimer_ClockSource m) = 2 then some (s.get (K.cadenceTimer_SourceSelect m)) else none
  let sm (m : Nat) : Option Nat :=
    let x := s.get (K.cadenceTimer_StartMaster m)
    if x < 16 then some x else none
  linkCycle clk n 17 n || linkCycle sm n 17 n
    || (decide (3 ≤ s.get (K.cadenceTimer_ClockSource n)) && decide (8 ≤ s.get (K.cadenceTimer_SourceSelect n)))

/-! ### Capture (R525, R526) -/

/-- The stamps of a capture input. -/
def State.captures (s : State) (i : Nat) : List Nat := s.tmr.queue.getD i []

/-- The glitch filter of CAP0 to CAP7 for an edge that reaches the logic now, in ns: an edge that was inside its filter window
when FilterTime changed is judged under the old setting (R592, R597). -/
def capFilter (s : State) : Nat :=
  let g := s.out.pins.getD 2 ⟨20, 20, 0, 2⟩
  if s.elapsed < g.since + g.filter * NS then g.was else g.filter

/-- The stamp of an edge that has reached the stamp point: the Pond time at which it crossed the ball, to the nearest whole
nanosecond (R525). -/
def captureStamp (s : State) (i : Nat) : Nat :=
  let d := toInt 8 (s.get (K.capture_CaptureInputDelay i))
  ((((s.time.now : Int) - capFilter s * NS - d).toNat + NS / 2) / NS) * NS

/-- An edge at capture input `i` reaches the stamp point; one closer to the last than the glitch filter is not seen. -/
def State.capture (s : State) (i : Nat) (rising : Bool) : State :=
  let e := s.get (K.capture_CaptureEdge i)
  let near := (s.tmr.capAt.getD i none).any fun t => decide (s.elapsed < t + capFilter s * NS)
  if 8 ≤ i ∨ s.tmr.stopped ∨ near then s
  else
    let s := { s with tmr := { s.tmr with capAt := vecMod s.tmr.capAt i fun _ => some s.elapsed } }
    if e == 3 || (e == 1 && rising) || (e == 2 && !rising) then
      if 4 ≤ (s.captures i).length then s.flag (K.capture_CaptureFlags i) 1 (K.capture_OverflowCount i)
      else
        let stamp := toTime96 (captureStamp s i)
        let s := { s with tmr := { s.tmr with queue := vecMod s.tmr.queue i fun q => q ++ [stamp] } }
        let s := s.flag (K.capture_CaptureFlags i) 0 (K.capture_CaptureCount i)
        if s.getB (K.capture_IrqOnCapture i) then s.raiseInt (s.get K.timerGlobal_TimerIrqCore) 6 else s
    else s

/-- The oldest stamp of a capture input, zero when it has none. -/
def State.captureOldest (s : State) (i : Nat) : Nat := (s.captures i).headD 0

/-- Remove the oldest stamp. -/
def State.captureTake (s : State) (i : Nat) : State :=
  { s with tmr := { s.tmr with queue := vecMod s.tmr.queue i List.tail } }

/-- EventSummary (R523). -/
def State.eventSummary (s : State) : Nat :=
  (List.range 16).foldl (fun v n => putBit v n (s.getB (K.cadenceTimer_TimerFlags n)))
    ((List.range 8).foldl (fun v i => putBit v (16 + i) (s.getB (K.capture_CaptureFlags i))) 0)

/-! ### The core windows (R528, R529) -/

/-- The four words of a TIME96 image, most significant first (R7): each the upper part by 24 bits. -/
def time96Word (t i : Nat) : Word := BitVec.ofNat 24 (t / 2 ^ (24 * (3 - i)))

/-- The timer word a core reads at offset `o` of window `n`. -/
def State.timerWord (s : State) (n o : Nat) : Word :=
  let pair (v : Nat) (i : Nat) : Word := BitVec.ofNat 24 (if i = 0 then v / 2 ^ 24 else v)
  if o < 2 then pair (s.timerCount n s.time.now) o
  else if o < 4 then pair (s.get (K.cadenceTimer_Reload n)) (o - 2)
  else if o < 6 then pair (s.get (K.cadenceTimer_Compare0 n)) (o - 4)
  else if o < 8 then pair (s.get (K.cadenceTimer_Compare1 n)) (o - 6)
  else if o = 8 then BitVec.ofNat 24 (s.timerState n)
  else if o = 9 then BitVec.ofNat 24 (s.get (K.cadenceTimer_TimerFlags n))
  else if o < 14 then time96Word (s.get (K.cadenceTimer_StartAt n)) (o - 10)
  else if o = 14 then BitVec.ofNat 24 (s.get (K.cadenceTimer_Options n))
  else if o = 15 then BitVec.ofNat 24 (s.timer n).cmdStatus
  else 0

/-- Read a word of the timer area (R425, R528, R529) at offset `a` below 0x1000: the word, and the state after the read. -/
def State.timerRead (s : State) (a : Nat) : Word × State :=
  let s := s.timersSettle
  if a < 0x200 then (s.timerWord (a / 32) (a % 32), s)
  else if a < 0x240 then
    let i := (a - 0x200) / 8
    let o := a % 8
    if o = 0 then
      let t := s.captureOldest i
      (time96Word t 0, { (s.captureTake i) with tmr := { (s.captureTake i).tmr with latch := vecMod s.tmr.latch i fun _ => t } })
    else if o < 4 then (time96Word (s.tmr.latch.getD i 0) o, s)
    else if o = 4 then (BitVec.ofNat 24 (s.captures i).length, s)
    else if o = 5 then (BitVec.ofNat 24 (s.get (K.capture_CaptureFlags i)), s)
    else (0, s)
  else (0, s)

/-- A U32 of a pair of words whose second is written now: the value, or none when it leaves the type (R44). -/
def pairValue (hi lo : Word) : Option Nat :=
  if hi.toNat < 256 then some (hi.toNat * 2 ^ 24 + lo.toNat) else none

/-- Write a word of the timer area (R528): a U32 applies with its second word, a value its range forbids is not taken,
a command passes the checks of R519 and R520. -/
def State.timerWrite (s : State) (a : Nat) (w : Word) : State :=
  let s := s.timersSettle
  if a < 0x200 then
    let n := a / 32
    let o := a % 32
    let t := s.timer n
    let u32 (key lo : Nat) : State :=
      match pairValue (SMap.get 0 (o - 1) t.held) w with
      | some v =>
        let s := s.modTimer n fun t => { t with held := SMap.set 0 (o - 1) 0 t.held }
        if v < lo then s else s.set key v
      | none => s.modTimer n fun t => { t with held := SMap.set 0 (o - 1) 0 t.held }
    if o = 2 ∨ o = 4 ∨ o = 6 then s.modTimer n fun t => { t with held := SMap.set 0 o w t.held }
    else if o = 3 then u32 (K.cadenceTimer_Reload n) 1
    else if o = 5 then u32 (K.cadenceTimer_Compare0 n) 0
    else if o = 7 then u32 (K.cadenceTimer_Compare1 n) 0
    else if o = 8 then
      let c := w.toNat
      if c = 1 ∨ c = 2 ∨ c = 3 then
        match s.timerRefuses n c none with
        | some p => s.modTimer n fun t => { t with cmdStatus := p.1 }
        | none => (s.timerCommand n c).modTimer n fun t => { t with cmdStatus := St.ok }
      else s.modTimer n fun t => { t with cmdStatus := St.valueReserved }
    else if o = 9 then
      s.set (K.cadenceTimer_TimerFlags n) (Nat.land (s.get (K.cadenceTimer_TimerFlags n)) (65535 - w.toNat % 65536))
    else if 10 ≤ o ∧ o < 14 then
      let v := s.get (K.cadenceTimer_StartAt n)
      let p := 2 ^ (24 * (13 - o))
      s.set (K.cadenceTimer_StartAt n) (v - v / p % 2 ^ 24 * p + w.toNat * p)
    else if o = 14 then (if w.toNat < 16 then s.set (K.cadenceTimer_Options n) w.toNat else s)
    else s
  else if 0x200 ≤ a ∧ a < 0x240 ∧ a % 8 = 5 then
    let i := (a - 0x200) / 8
    s.set (K.capture_CaptureFlags i) (Nat.land (s.get (K.capture_CaptureFlags i)) (65535 - w.toNat % 65536))
  else s

/-! ### Steps of Pond time, resets and power states (R531 to R533) -/

/-- One timer at the edge at which a step of Pond time takes effect: `old` and `new` are Pond time before and after. -/
def State.timerPondStep (s : State) (old new n : Nat) : State :=
  let next := gridFrom (new + gridStep)
  let s := if s.timerState n = 2 then
      let s := s.timerTo n old
      let s := if s.get (K.cadenceTimer_ClockSource n) = 1 then State.timerStep 16 new n s else s
      let s := if s.timerState n = 2 then s.timerEvent n 4 (K.cadenceTimer_StepSpans n) else s
      s.modTimer n fun t => { t with last := next - gridStep }
    else if s.timerState n = 1 then
      match (s.timer n).arm with
      | .at_ t =>
        if gridFrom t = old then State.timerBegin 16 new n s
        else if old < t ∧ t ≤ new then
          (State.timerBegin 16 new n s).timerEvent n 3 (K.cadenceTimer_LateStarts n)
        else if new < t ∧ gridFrom t < next then s.modTimer n fun k => { k with arm := .at_ next }
        else s
      | .after t =>
        if gridAfter t = old then State.timerBegin 16 new n s
        else s.modTimer n fun k => { k with arm := .after (next - gridStep) }
      | _ => s
    else s
  s.modTimer n fun t => { t with stopAt := t.stopAt.map fun x => if x ≤ old then new else next }

/-- The timer unit at the step edge (R531). -/
def State.timersPondStep (s : State) (old new : Nat) : State :=
  let next := gridFrom (new + gridStep)
  let s := (List.range 16).foldl (fun s n => s.timerPondStep old new n) s
  let mv (e : Nat) : Nat := if e ≤ old then new else next + (e - old - gridStep)
  let s := { s with tmr := { s.tmr with pulse := s.tmr.pulse.map fun p => p.map mv } }
  (List.range 8).foldl (fun s i =>
    if (s.captures i).isEmpty then s else s.flag (K.capture_CaptureFlags i) 2 (K.capture_StepBetweenCount i)) s

/-- The RO values of a running timer that a warm reset keeps with it (R532). -/
def timerKept (s : State) (n : Nat) : Bool := bit (s.get (K.cadenceTimer_Options n)) 3 && (s.timerState n == 1 || s.timerState n == 2)

/-- The timer unit at a warm reset, before the dictionary returns to its defaults: which keys it keeps. -/
def timerKeepsKey (s : State) (k : Nat) : Bool :=
  let i := k / 256
  let sub := k % 256
  if 0x9010 ≤ i ∧ i < 0x9020 then timerKept s (i - 0x9010) && decide (0x0C ≤ sub ∧ sub ≤ 0x10)
  else if 0x9050 ≤ i ∧ i < 0x9058 then
    sub == 5 && decide (s.get (K.timerOutput_OutSource (i - 0x9050)) < 16)
      && timerKept s (s.get (K.timerOutput_OutSource (i - 0x9050)))
  else false

/-- The timer unit after a reset: timers without KEEP_RESET stopped, queues empty (R532). -/
def TimersSt.afterReset (s : State) : TimersSt :=
  { tmr := Vector.ofFn fun (n : Fin 16) => if timerKept s n then { (s.timer n) with held := [], cmdStatus := 0 } else TmrSt.reset,
    pulse := Vector.ofFn fun (o : Fin 8) =>
      if s.get (K.timerOutput_OutSource o) < 16 && timerKept s (s.get (K.timerOutput_OutSource o)) then s.tmr.pulse.getD o none else none,
    queue := .replicate 8 [], latch := .replicate 8 0, capAt := s.tmr.capAt, stopped := false }

/-- SLEEP: no capture is stamped and every timer is STOPPED; outputs hold their level (R524, R533). -/
def State.timersSleep (s : State) : State :=
  let s := (List.range 16).foldl (fun s n => (s.setTimerState n 0).modTimer n fun t => { t with arm := .none, stopAt := none }) s
  { s with tmr := { s.tmr with stopped := true, pulse := .replicate 8 none } }

/-- Back in RUN: capture stamps again. -/
def State.timersWake (s : State) : State := { s with tmr := { s.tmr with stopped := false } }

/-- A timer is ARMED or RUNNING: the unit votes against SLEEP and DEEP (R533). -/
def State.timersBusy (s : State) : Bool := (List.range 16).any fun n => s.timerState n == 1 || s.timerState n == 2

/-! ### Commands -/

/-- COUNTING_BEGINS (R520): an ARMED timer reaches its start point. -/
def execCountingBegins (n at_ : Nat) (s : State) : Host.Outcome State Fault Refusal := .next (s.timersSettle.timerStart n at_)

/-- A grid step of the present tick at which timer `n` has a step of interest: earlier STOPs have taken effect, and one whose step
it is takes effect after it. -/
def State.timerEventAt (s : State) (n at_ : Nat) (due : State → Bool) : State :=
  let t := s.timersStop at_
  if s.time.running && !s.tmr.stopped && decide (at_ ≤ s.tickAhead) && due t then ((t.reach at_).timerTo n at_).timersSettle else s

/-- UNDERFLOW (R517): at a grid step the count of a timer clocked from TS8 underflows. -/
def execUnderflow (n at_ : Nat) (s : State) : Host.Outcome State Fault Refusal :=
  .next (s.timerEventAt n at_ fun s => s.underflowDue n at_)

/-- COMPARE_MATCH (R518): at a grid step the count of a timer clocked from TS8 moves into compare `w`. -/
def execCompareMatch (n w at_ : Nat) (s : State) : Host.Outcome State Fault Refusal :=
  .next (s.timerEventAt n at_ fun s => s.matchDue n w at_)

/-- CTO_PULSE_END (R524): PulseSteps after an underflow a PULSE output becomes inactive. -/
def execCtoPulseEnd (o at_ : Nat) (s : State) : Host.Outcome State Fault Refusal :=
  .next ((s.reach at_).timersSettle.pulseEnd o at_)

/-- Bank VDD_IO1 to VDD_IO3 (0 to 2) is at one of its levels. Else its outputs are not driven and its inputs hold their last
filtered level (R594). -/
def bankUp (s : State) (i : Nat) : Bool := let v := bits (s.get K.ioBanks) (2 * i + 1) (2 * i); v == 1 || v == 2

/-- CAPTURE (R525): an edge at a capture input has passed the glitch filter and reaches the stamp point. -/
def execCapture (i : Nat) (rising : Bool) (at_ : Nat) (s : State) : Host.Outcome State Fault Refusal :=
  .next (if s.time.running && bankUp s 1 then (s.reach at_).capture i rising else s)

/-- TIMER_PIN_EDGE (R516): a filtered edge at a capture pin makes the timers it clocks take a step. -/
def execTimerPinEdge (i : Nat) (rising : Bool) (at_ : Nat) (s : State) : Host.Outcome State Fault Refusal :=
  .next (let s := (s.reach at_).timersSettle
    if bankUp s 1 then s.timersPin i rising at_ else s)

end Sys2Proof.Machine
end

