-- ==== Sys2Proof/Machine/Chains.lean ====
section
/-!
DEFINITION. Antenna inputs, receive chains, calibration, notches and the spectrum monitor (spec/04, R116 to R149).
What only an analogue measurement can supply (currents, levels, spectra, the outcome of a calibration step) comes with the
command.
-/

namespace Sys2Proof.Machine

/-- One antenna input. -/
def State.ant (s : State) (a : Nat) : AntSt := s.rx.ant.getD a AntSt.reset
/-- Change one antenna input. -/
def State.modAnt (s : State) (a : Nat) (f : AntSt → AntSt) : State := { s with rx := { s.rx with ant := vecMod s.rx.ant a f } }
/-- One chain. -/
def State.chain (s : State) (c : Nat) : ChainSt := s.rx.chain.getD c ChainSt.reset
/-- Change one chain. -/
def State.modChain (s : State) (c : Nat) (f : ChainSt → ChainSt) : State :=
  { s with rx := { s.rx with chain := vecMod s.rx.chain c f } }
/-- Change one notch: number 4 c + k. -/
def State.modNotch (s : State) (n : Nat) (f : NotchSt → NotchSt) : State :=
  s.modChain (n / 4) fun ch => { ch with notch := vecMod ch.notch (n % 4) f }
/-- One notch. -/
def State.notch (s : State) (n : Nat) : NotchSt := (s.chain (n / 4)).notch.getD (n % 4) NotchSt.reset

/-- ChainState: 0 OFF, 1 STARTING, 2 CALIBRATING, 3 ACTIVE, 4 FAULT, 5 RETIRED. -/
def State.chainState (s : State) (c : Nat) : Nat := s.get (K.chain_ChainState c)

/-- CAL holds for a chain in the present tick: it calibrates or settles (R123), or has just woken (R143). -/
def chainCal (s : State) (c : Nat) : Bool := (s.chain c).cal || decide (0 < (s.chain c).wakeCal)

/-- The sub-band buses of a chain carry zeros: it is OFF, CALIBRATING, in FAULT or RETIRED (R124), or its LO has lost lock
(R135). -/
def busZero (s : State) (c : Nat) : Bool :=
  let v := s.chainState c
  v == 0 || v == 2 || v == 4 || v == 5 || (s.chain c).loLost || s.rx.run.any fun r => r.chain == c

/-- Since when they do, after a change of the chain. -/
def State.buses (s : State) (c : Nat) : State :=
  let z := busZero s c
  let t := s.elapsed
  s.modChain c fun x => { x with zeroAt := if z then some (x.zeroAt.getD t) else none }

/-! ### Antenna inputs (R120, R121) -/

/-- VDDA_RF is in range: bias may be on and RXIN is sampled (R602). -/
def radioUp (s : State) : Bool := bit (s.get K.supplyMonitor_SupplyStatus) 3

/-- AntennaState as its conditions give it: SHORT, SUPPLY_LOW, OPEN, NORMAL in this order. -/
def AntSt.state (a : AntSt) : Nat :=
  if a.bias = 0 then 0 else if a.bias = 2 then 5
  else if a.short then 3 else if a.low then 4 else if a.opened then 2 else 1

/-- AntennaState follows its conditions; an entry to a fault state sets its flag and counts. -/
def State.antUpdate (s : State) (a : Nat) : State :=
  let v := (s.ant a).state
  if s.get (K.antennaInput_AntennaState a) = v then s
  else
    let s := s.set (K.antennaInput_AntennaState a) v
    match v with
    | 2 => s.flag (K.antennaInput_AntennaFlags a) 0 (K.antennaInput_OpenEvents a)
    | 3 => s.flag (K.antennaInput_AntennaFlags a) 1 (K.antennaInput_ShortEvents a)
    | 4 => s.flag (K.antennaInput_AntennaFlags a) 2 (K.antennaInput_SupplyLowEvents a)
    | _ => s

/-- Bias is internal: the input is monitored. -/
def State.antLive (s : State) (a : Nat) : Bool := decide (a < 2) && (s.ant a).bias == 1

/-- The limiter has held the current for 1 ms: the bias switch opens. -/
def State.antShort (s : State) (a : Nat) : State :=
  if s.antLive a && !(s.ant a).short then
    let t := s.elapsed
    (s.modAnt a fun x => { x with short := true, switchOn := false, trialAt := t }).antUpdate a
  else s

/-- A 1 ms trial in SHORT, once a second: the state is left when the current stays below the limit. -/
def State.antTrial (s : State) (a current : Nat) : State :=
  if s.antLive a && (s.ant a).short && decide (SEC ≤ s.elapsed - (s.ant a).trialAt) then
    let t := s.elapsed
    let s := s.set (K.antennaInput_BiasCurrent a) (min 1500 current)
    if current < s.get (K.antennaInput_CurrentLimit a) then
      (s.modAnt a fun x => { x with short := false, switchOn := radioUp s, trialAt := t }).antUpdate a
    else s.modAnt a fun x => { x with trialAt := t }
  else s

/-- BiasVoltage has been below 2,950 mV for 10 ms. -/
def State.antLow (s : State) (a mv : Nat) : State :=
  if s.antLive a && decide (mv < 2950) then
    ((s.set (K.antennaInput_BiasVoltage a) (min 6000 mv)).modAnt a fun x => { x with low := true }).antUpdate a
  else s

/-- BiasVoltage has been at or above 3,050 mV for 100 ms. -/
def State.antLowEnd (s : State) (a mv : Nat) : State :=
  if s.antLive a && decide (3050 ≤ mv) then
    ((s.set (K.antennaInput_BiasVoltage a) (min 6000 mv)).modAnt a fun x => { x with low := false }).antUpdate a
  else s

/-- BiasCurrent has been below OpenThreshold for 100 ms. -/
def State.antOpen (s : State) (a current : Nat) : State :=
  if s.antLive a && decide (current < s.get (K.antennaInput_OpenThreshold a)) then
    ((s.set (K.antennaInput_BiasCurrent a) (min 1500 current)).modAnt a fun x => { x with opened := true }).antUpdate a
  else s

/-- BiasCurrent has been at or above OpenThreshold plus 1.0 mA for 100 ms. -/
def State.antOpenEnd (s : State) (a current : Nat) : State :=
  if s.antLive a && decide (s.get (K.antennaInput_OpenThreshold a) + 10 ≤ current) then
    ((s.set (K.antennaInput_BiasCurrent a) (min 1500 current)).modAnt a fun x => { x with opened := false }).antUpdate a
  else s

/-- BiasMode takes effect at the tick edge (R120). -/
def State.antTick (s : State) (a : Nat) : State :=
  let m := s.get (K.antennaInput_BiasMode a)
  let s := if m = (s.ant a).bias then s
    else s.modAnt a fun x => { x with bias := m, short := false, low := false, opened := false, switchOn := m == 1 && radioUp s }
  s.antUpdate a

/-! ### Calibration (R130 to R136) -/

/-- The steps of a set, in order. -/
def calSteps (bits_ : Nat) : List Nat := [0, 1, 2, 3].filter fun i => bit bits_ i

/-- The queue with a chain put in at elapsed time `now` (R132): at the end, or at the head for a loss of lock; chains that enter
at one edge stand in chain-number order. -/
def queuePut (s : State) (c now : Nat) (head : Bool) (q : List Nat) : List Nat :=
  let peer (e : Nat) : Bool := (s.chain e).queuedAt == now && (s.chain e).urgent == head
  if head then
    let first (e : Nat) : Bool := peer e && decide (e < c)
    q.takeWhile first ++ c :: q.dropWhile first
  else
    let before (e : Nat) : Bool := !(peer e && decide (c < e))
    q.takeWhile before ++ c :: q.dropWhile before

/-- A chain enters the queue for some steps, or adds them to the steps it is queued for (R131); a loss of lock goes to the
head (R132). -/
def State.calQueue (s : State) (c steps : Nat) (head : Bool) : State :=
  let was := (s.chain c).queued
  let now := s.elapsed
  let s := s.modChain c fun x => { x with queued := Nat.lor x.queued steps }
  if was ≠ 0 && !head then s
  else
    let q := queuePut s c now head (s.rx.queue.filter (· ≠ c))
    let s := s.modChain c fun x => { x with queuedAt := now, urgent := head }
    { s with rx := { s.rx with queue := q } }

/-- A chain leaves the queue. -/
def State.calUnqueue (s : State) (c : Nat) : State :=
  { (s.modChain c fun x => { x with queued := 0 }) with rx :=
      { (s.modChain c fun x => { x with queued := 0 }).rx with queue := s.rx.queue.filter (· ≠ c) } }

/-- A chain named by the last CalRequest has finished: when none is left, CalResult says whether any failed (R136). -/
def State.calAnswered (s : State) (c : Nat) (failed : Bool) : State :=
  if bit s.rx.asked c then
    let left := clrBit s.rx.asked c
    let bad := s.rx.askFailed || failed
    let s := { s with rx := { s.rx with asked := left, askFailed := bad } }
    if left = 0 then s.set K.calibration_CalResult (if bad then St.internalFault else St.ok) else s
  else s

/-- CalQueue as it reads. -/
def State.calQueueRead (s : State) : Nat :=
  let q := s.rx.queue.foldl (fun v c => setBit v c) 0
  match s.rx.run with
  | none => q
  | some r => setBit q (4 + r.chain)

/-- The notches of a chain are FROZEN where they stand (R129). -/
def State.notchFreeze (s : State) (c : Nat) : State :=
  (List.range 4).foldl (fun s k =>
    let n := 4 * c + k
    let st := s.get (K.notch_NotchState n)
    if st = 3 then s
    else (s.set (K.notch_NotchState n) 3).modNotch n fun x => { x with frozen := some st }) s

/-- A frequency relative to the LO lies within a sub-band passband of the chain (R118). -/
def inPassband (c : Nat) (f : Int) : Bool :=
  let l : List (Int × Int) := if c % 2 = 0 then [(-9580000, 12000000), (-23902000, 6000000), (17000000, 6000000)]
    else [(-13550000, 12000000), (17140000, 12000000)]
  l.any fun p => decide (p.1 - p.2 ≤ f) && decide (f ≤ p.1 + p.2)

/-- The 3 dB width of a notch in Hz (R128). -/
def notchWidth (s : State) (n : Nat) : Nat := [50000, 100000, 200000, 500000, 1000000].getD (s.get (K.notch_NotchWidth n)) 50000

/-- A notch changed at a frequency: NOTCH_MOVING when it lies within a passband (R123). -/
def State.notchMoved (s : State) (n : Nat) (f : Int) : State :=
  if inPassband (n / 4) f then s.modChain (n / 4) fun x => { x with moving := true } else s

/-- A notch engages at a frequency. -/
def State.notchEngage (s : State) (n : Nat) (f : Int) (bin : Option Nat) : State :=
  let s := ((s.set (K.notch_NotchState n) 2).setI (K.notch_PresentFrequency n) 4 f).bump (K.notch_EngageCount n) 2
  (s.modNotch n fun x => { x with bin := bin, lowRun := 0 }).notchMoved n f

/-- A notch that is ENGAGED leaves its frequency. -/
def State.notchRelease (s : State) (n toward : Nat) : State :=
  let f := s.getI (K.notch_PresentFrequency n) 4
  let was := s.get (K.notch_NotchState n)
  let s := (s.set (K.notch_NotchState n) toward).set (K.notch_PresentFrequency n) 0
  let s := s.modNotch n fun _ => NotchSt.reset
  if was = 2 then s.notchMoved n f else s

/-- A notch follows NotchMode and FixedFrequency: IDLE when OFF, ENGAGED at FixedFrequency when FIXED, seeking a line when
ADAPTIVE (R129). -/
def State.notchApply (s : State) (n : Nat) : State :=
  let st := s.get (K.notch_NotchState n)
  if st = 3 then s
  else
    let m := s.get (K.notch_NotchMode n)
    let f := s.getI (K.notch_FixedFrequency n) 4
    if m = 0 then (if st = 0 then s else s.notchRelease n 0)
    else if m = 1 then
      if st = 2 ∧ (s.notch n).bin = none then
        let p := s.getI (K.notch_PresentFrequency n) 4
        if p = f then s
        else
          let s := s.setI (K.notch_PresentFrequency n) 4 f
          if notchWidth s n < (f - p).natAbs then (s.notchMoved n f).notchMoved n p else s
      else
        -- an adaptive notch that is ENGAGED leaves the line it follows
        let s := if st = 2 then s.notchMoved n (s.getI (K.notch_PresentFrequency n) 4) else s
        s.notchEngage n f none
    else if st = 0 then s.set (K.notch_NotchState n) 1
    else if st = 2 ∧ (s.notch n).bin = none then s.notchRelease n 1
    else s

/-- The notches of a chain are free again and follow their modes. -/
def State.notchThaw (s : State) (c : Nat) : State :=
  (List.range 4).foldl (fun s k =>
    let n := 4 * c + k
    if s.get (K.notch_NotchState n) = 3 then
      let s := (s.set (K.notch_NotchState n) ((s.notch n).frozen.getD 0)).modNotch n fun x => { x with frozen := none }
      s.notchApply n
    else s) s

/-- The spectrum monitor's chain enters CAL before an averaging completes: the part is discarded (R146). -/
def State.specDiscard (s : State) (c : Nat) : State :=
  match s.rx.spec with
  | none => s
  | some r => if r.chain = c then
      ({ s with rx := { s.rx with spec := none, specRedo := true } }).bump K.spectrumMonitor_SpecFramesDiscarded 2
    else s

/-- The next queued chain starts calibrating (R132, R133). -/
def State.calStart (s : State) : State :=
  match s.rx.run, s.rx.queue with
  | none, c :: rest =>
    let steps := calSteps (s.chain c).queued
    let osc := bit (s.chain c).queued 0
    let s := s.modChain c fun x => { x with queued := 0, cal := true }
    let s := { s with rx := { s.rx with queue := rest, run := some ⟨c, steps, bit s.rx.asked c, false, false, s.elapsed⟩ } }
    let s := (s.set (K.chain_ChainState c) 2).buses c
    let s := if osc then s.set (K.chain_CalTemperature c) (s.get K.calibration_DieTemperature) else s
    (s.notchFreeze c).specDiscard c
  | _, _ => s

/-- A chain's run has ended. CAL stays for the tick in which it calibrated, and the notches stay FROZEN one tick more
(R123, R129). -/
def State.calOver (s : State) (c : Nat) : State :=
  let edge := s.atEdge
  let s := { s with rx := { s.rx with run := none } }
  s.modChain c fun x => { x with cal := x.cal && !edge, thaw := max x.thaw (if edge then 1 else 2) }

/-- A run ends with a failed step: FAULT, or RETIRED after three (R134). A CalRequest that awaits the run, or any run of a
chain that is RETIRED now, has failed for the chain (R136). -/
def State.calFail (s : State) (r : CalRun) (step : Nat) : State :=
  let c := r.chain
  let t := s.elapsed
  let n := (s.chain c).failRuns + 1
  let s := (s.calOver c).modChain c fun x => { x with failRuns := n, faultAt := t }
  let s := s.flag (K.chain_ChainFlags c) 3 (K.chain_CalFailures c)
  let s := s.log 0x0201 St.internalFault [c, step]
  let s := s.set (K.chain_ChainState c) 4
  let s := if 3 ≤ n then ((s.set (K.chain_ChainState c) 5).calUnqueue c).log 0x0202 St.resourceRetired [c] else s
  let s := s.buses c
  if r.requested || decide (3 ≤ n) then s.calAnswered c true else s

/-- A chain powers down (R122, R145): it leaves the queue, and a CalRequest that named it is done with it. -/
def State.chainDown (s : State) (c : Nat) : State :=
  if s.chainState c = 5 then s
  else
    let s := ((s.set (K.chain_ChainState c) 0).calUnqueue c).modChain c fun x => { x with loLost := false }
    (s.buses c).calAnswered c false

/-- The duration of a calibration step (R130). -/
def stepTime (step : Nat) : Nat := ([3000, 1000, 2000, 200].getD step 0) * US

/-- The step in progress ends, its duration over (R130): with its outcome, and, of IMAGE, the image rejection measured. A chain
disabled meanwhile powers down whatever the outcome, or goes on to the calibration its new STARTING asks for when it has
been enabled again (R122, R145): DESIGN CHOICE, log entry 158. -/
def State.calStepEnd (s : State) (pass : Bool) (image : Nat) : State :=
  match s.rx.run with
  | none => s
  | some r => match r.steps with
    | [] => s
    | step :: rest =>
      let ends := r.since + stepTime step
      if s.elapsed < ends then s
      else
        let s := if step = 2 then s.set (K.chain_ImageRejection r.chain) (min 80 image) else s
        let ok := (if step = 2 then pass && decide (35 ≤ image) else pass) && !r.lost
        let s := if ok && step == 0 then s.modChain r.chain fun x => { x with loLost := false } else s
        if r.disabled then
          let s := s.calOver r.chain
          if (s.chain r.chain).powered then s.buses r.chain else s.chainDown r.chain
        else if !ok then s.calFail r step
        else { s with rx := { s.rx with run := some { r with steps := rest, since := ends } } }

/-- The settling time: 0.8 ms (R130). -/
def settleTime : Nat := 800 * US

/-- The run has settled: at this edge the chain becomes ACTIVE and the next queued chain starts (R132). -/
def State.calEnd (s : State) : State :=
  match s.rx.run with
  | none => s
  | some r =>
    if s.atEdge && r.steps.isEmpty && decide (r.since + settleTime ≤ s.elapsed) then
      let c := r.chain
      let s := (s.calOver c).modChain c fun x => { x with failRuns := 0 }
      let s := if !r.disabled then
          let s := (s.set (K.chain_ChainState c) 3).buses c
          if r.requested then s.calAnswered c false else s
        else if (s.chain c).powered then s.buses c
        else s.chainDown c
      s.calStart
    else s

/-- The LO of a chain loses lock (R135, R149): its output becomes zero, and the chain is queued at the head. In its OSCILLATOR
step nothing further is queued; a later step in progress fails at its end. While the chain settles no step is left to
fail, and the loss queues the chain as at any other time: DESIGN CHOICE, log entry 159. -/
def State.loUnlock (s : State) (c : Nat) : State :=
  let st := s.chainState c
  if decide (c < 4) && decide (1 ≤ st ∧ st ≤ 4) then
    let s := (s.modChain c fun x => { x with lo := true, loLost := true }).buses c
    let s := s.flag (K.chain_ChainFlags c) 0 (K.chain_LoUnlockEvents c)
    match s.rx.run with
    | some r =>
      if r.chain = c then
        match r.steps with
        | 0 :: _ => s
        | _ :: _ => { s with rx := { s.rx with run := some { r with lost := true } } }
        | [] => s.calQueue c 0b1001 true
      else s.calQueue c 0b1001 true
    | none => s.calQueue c 0b1001 true
  else s

/-- A chain has been in FAULT for 10 s (R131). -/
def State.faultRetry (s : State) (c : Nat) : State :=
  if decide (c < 4) && s.chainState c == 4 && (s.chain c).powered && decide ((s.chain c).faultAt + 10 * SEC ≤ s.elapsed) then
    s.calQueue c 0b1111 false
  else s

/-- Chains a CalRequest names. -/
def calNamed (v : Nat) : List Nat := [0, 1, 2, 3].filter fun c => bit v c

/-- Why a CalRequest is turned away (R136), after the checks of its type. -/
def State.calRefuses (s : State) (v : Nat) : Option (Nat × List Nat) :=
  if calNamed v = [] then some (St.outOfRange, [])
  else if (calNamed v).any fun c => s.chainState c == 0 then some (St.notInState, [0, 0x1E])
  else if (calNamed v).any fun c => s.chainState c == 5 then some (St.resourceRetired, [])
  else if s.rx.asked ≠ 0 then some (St.busy, [])
  else none

/-- An accepted CalRequest. -/
def State.calRequest (s : State) (v : Nat) : State :=
  let steps := if bits v 7 4 = 0 then 0b1111 else bits v 7 4
  let s := (calNamed v).foldl (fun s c => s.calQueue c steps false) s
  ({ s with rx := { s.rx with asked := bits v 3 0, askFailed := false } }).set K.calibration_CalResult St.accepted

/-- The temperature of a chain is judged at a tick edge (R131). -/
def State.calTemp (s : State) (c : Nat) : State :=
  let d := s.getI K.calibration_DieTemperature 2 - s.getI (K.chain_CalTemperature c) 2
  let above := decide (80 ≤ d.natAbs)
  let st := s.chainState c
  if 1 ≤ st ∧ st ≤ 4 then
    let was := (s.chain c).tempOver
    let s := s.modChain c fun x => { x with tempOver := above }
    if !above then s
    else if s.getB K.calibration_CalAuto then
      (if st = 4 ∧ was = true then s else s.calQueue c 0b1111 false)
    else if was then s else s.flag K.calibration_CalFlags 0 K.calibration_CalDueEvents
  else s

/-! ### FrontEndStatus and the AGC (R123 to R127) -/

/-- What the front end of a chain saw in the tick just ended: the rms of I and Q over the samples that were not blanked, in
thousandths of 0.1 LSB, and the samples by number k of R117 with max(|I|, |Q|) in LSB, before blanking. The next tick's
first four stand under the numbers from 61380 on, since a trigger there reaches back. -/
structure ChainReading where
  rms : Nat
  peaks : List (Nat × Nat)
  deriving DecidableEq, Repr

/-- Samples of a chain in a tick (R117). -/
def tickSamples : Nat := 61380

/-- Pulse blanking over a tick (R127): each triggering sample blanks from 4 before it to `ext` after it. `tail` samples are
blanked by triggers of the last tick. Answers the samples blanked, and the tail into the next tick. -/
def blankRun (thr ext tail : Nat) (peaks : List (Nat × Nat)) : Nat × Nat :=
  let hits := (sortBy (fun a b => decide (a.1 ≤ b.1)) (peaks.filter fun p => decide (thr ≤ p.2))).map (·.1)
  let r := hits.foldl (fun (a : Nat × Nat) k =>
    let lo := min tickSamples (max a.2 (k - 4))
    let hi := min tickSamples (k + ext + 1)
    (a.1 + (hi - lo), max a.2 hi)) (min tail tickSamples, min tail tickSamples)
  let past := (hits.filter fun k => decide (k < tickSamples)).map fun k => k + ext + 1 - tickSamples
  (r.1, past.foldl max (tail - tickSamples))

/-- BlankRatio of the tick just ended, and the filtered rms of R125: a first-order filter, `level += (rms - level) /
AgcTimeConstant` a tick (DESIGN CHOICE, log entry 160), which holds over a tick without an unblanked sample. -/
def State.chainSense (s : State) (c : Nat) (r : ChainReading) : State :=
  let b := if s.getB (K.frontEnd_BlankEnable c) then
      blankRun (s.get (K.frontEnd_BlankThreshold c)) (s.get (K.frontEnd_BlankExtend c)) (s.chain c).tail r.peaks
    else (0, 0)
  let y : Int := (s.chain c).level
  let y' := if b.1 = tickSamples then y
    else y + divRound (((r.rms * 2 ^ 32 : Nat) : Int) - y) (s.get (K.chain_AgcTimeConstant c) : Nat)
  let s := s.set (K.frontEnd_BlankRatio c) (min 65535 (divRound ((b.1 * 65536 : Nat) : Int) (tickSamples : Nat)).toNat)
  s.modChain c fun x => { x with tail := b.2, level := y'.toNat }

/-- A filtered level differs from the target, in 0.1 LSB, by more than a number of half decibels: its ratio to the 40th power
exceeds 10 to that number. -/
def levelOff (level target halfDb : Nat) : Bool :=
  let a := level ^ 40
  let b := (target * 1000 * 2 ^ 32) ^ 40
  decide (10 ^ halfDb * b < a) || decide (10 ^ halfDb * a < b)

/-- Conditions under which AgcBaseline is learned and followed (R126). -/
def cleanTick (s : State) (c : Nat) : Bool :=
  let a := s.get (K.antennaInput_AntennaState (c / 2))
  s.chainState c == 3 && (a == 0 || a == 1 || a == 5)
    && (List.range 4).all fun k => s.get (K.notch_NotchState (4 * c + k)) != 2

/-- The FrontEndStatus of a chain for the tick just ended (R123). -/
def frontEndWord (s : State) (c : Nat) : Nat :=
  let ch := s.chain c
  let g := s.get (K.chain_AgcGain c)
  let target := s.get (K.chain_AgcTarget c)
  let base := s.get (K.chain_AgcBaseline c)
  let ast := s.get (K.antennaInput_AntennaState (c / 2))
  let st := s.chainState c
  b2n (chainCal s c) + 2 * b2n ch.lo
    + 4 * b2n ((g == 0 || g == 700) && levelOff ch.level target 6)
    + 8 * b2n (s.getB (K.frontEnd_BlankEnable c) && decide (s.get (K.frontEnd_BlankHighLimit c) < s.get (K.frontEnd_BlankRatio c)))
    + 16 * b2n ch.moving + 32 * b2n (decide (2 ≤ ast ∧ ast ≤ 4))
    + 64 * b2n (base != 0 && decide (g + 10 * s.get (K.chain_InterferenceMargin c) < base))
    + 128 * b2n ch.rephase + 256 * b2n (st == 0 || st == 4 || st == 5)

/-- A condition of the word begins: it was not in the word before. -/
def begins (old new i : Nat) : Bool := bit new i && !bit old i

/-- AgcBaseline learns or follows (R126): the gains of 600 s of clean operation, then a 24 h time constant. -/
def State.baseline (s : State) (c : Nat) : State :=
  if cleanTick s c then
    let g := s.get (K.chain_AgcGain c)
    if s.get (K.chain_AgcBaseline c) = 0 then
      s.modChain c fun x => if x.clean < 600000 then
        { x with clean := x.clean + 1, gains := SMap.set 0 g (SMap.get 0 g x.gains + 1) x.gains } else x
    else
      let b := if (s.chain c).fine = 0 then s.get (K.chain_AgcBaseline c) * 2 ^ 32 else (s.chain c).fine
      let b' : Nat := ((b : Int) + divRound ((g * 2 ^ 32 : Nat) - (b : Int)) 86400000).toNat
      (s.modChain c fun x => { x with fine := b' }).set (K.chain_AgcBaseline c) (divRound b' (2 ^ 32 : Nat)).toNat
  else s

/-- The median of counted values. -/
def medianOf (l : SMap Nat) : Nat :=
  let n := (l.map (·.2)).sum
  let r := l.foldl (fun (p : Nat × Option Nat) e =>
    let m := p.1 + e.2
    (m, match p.2 with | some v => some v | none => if n < 2 * m + 1 then some e.1 else none)) (0, none)
  r.2.getD 0

/-- AGC_BASELINE_LEARNED (R126). -/
def State.baselineLearn (s : State) (c : Nat) : State :=
  if decide (c < 4) && s.get (K.chain_AgcBaseline c) == 0 && decide (600000 ≤ (s.chain c).clean) then
    (s.set (K.chain_AgcBaseline c) (medianOf (s.chain c).gains)).modChain c fun x => { x with clean := 0, gains := [], fine := 0 }
  else s

/-- One chain at a tick edge: FrontEndStatus, flags, the AGC's step, the baseline; then the new tick begins. -/
def State.chainTick (s : State) (c : Nat) (r : ChainReading) : State :=
  let s := s.chainSense c r
  let old := s.get (K.chain_FrontEndStatus c)
  let w := frontEndWord s c
  let s := s.set (K.chain_FrontEndStatus c) w
  let s := if begins old w 2 then s.flag (K.chain_ChainFlags c) 1 (K.chain_AgcLimitEvents c) else s
  let s := if begins old w 6 then s.flag (K.chain_ChainFlags c) 2 (K.chain_InterferenceEvents c) else s
  let s := if begins old w 3 then s.flag (K.frontEnd_BlankFlags c) 0 (K.frontEnd_BlankHighEvents c) else s
  let s := s.baseline c
  let target := s.get (K.chain_AgcTarget c)
  let g := s.get (K.chain_AgcGain c)
  let level := (s.chain c).level
  let s := if !(bit w 0) && !(bit w 3) && !(bit w 8) && levelOff level target 1 then
      s.set (K.chain_AgcGain c) (if level < target * 1000 * 2 ^ 32 then min 700 (g + 5) else g - 5)
    else s
  let s := match s.rx.spec with
    | some p => if p.chain = c then { s with rx := { s.rx with spec := some { p with status := Nat.lor p.status w } } } else s
    | none => s
  let still := s.rx.run.any fun r => r.chain == c
  let thaws := (s.chain c).thaw == 1
  let s := s.modChain c fun x => { x with cal := still, lo := false, moving := false, rephase := false,
                                          wakeCal := x.wakeCal - 1, thaw := x.thaw - 1 }
  let s := if thaws && !still then s.notchThaw c else s
  s.calTemp c

/-- ChainEnable and RedundancyMode take effect at the tick edge (R122, R140): a chain enabled enters STARTING with a full
calibration, a chain disabled powers down, after the step in progress when it is calibrating (R145). -/
def State.chainPower (s : State) (c : Nat) : State :=
  let off := (s.rx.mode == 2 && decide (2 ≤ c)) || (s.rx.mode == 3 && decide (c < 2))
  let want := s.getB (K.chain_ChainEnable c) && !off
  if want = (s.chain c).powered then s
  else
    let s := s.modChain c fun x => { x with powered := want }
    let running := s.rx.run.any fun r => r.chain == c
    if want then
      if s.chainState c = 5 then s else ((s.set (K.chain_ChainState c) 1).buses c).calQueue c 0b1111 false
    else if running then
      let s := s.calUnqueue c
      { s with rx := { s.rx with run := s.rx.run.map fun r => { r with disabled := true } } }
    else s.chainDown c

/-! ### Notches (R129) -/

/-- A line of a 512-point spectrum: its bin, its frequency relative to the LO in Hz, its height above the floor in dB. -/
structure NotchLine where
  bin : Nat
  freq : Int
  height : Nat
  deriving DecidableEq, Repr

/-- The strongest of some lines, the first of equals. -/
def strongest (l : List NotchLine) : Option NotchLine :=
  l.foldl (fun o x => match o with | none => some x | some y => if y.height < x.height then some x else some y) none

/-- One notch takes in a spectrum. -/
def State.notchSee (s : State) (lines : List NotchLine) (n : Nat) : State :=
  let st := s.get (K.notch_NotchState n)
  let x := s.notch n
  let margin := s.get (K.notch_DetectMargin n)
  if s.get (K.notch_NotchMode n) ≠ 2 then s
  else if st = 2 then
    match x.bin with
    | none => s
    | some b =>
      let mine := strongest (lines.filter fun l => decide (l.bin ≤ b + 1) && decide (b ≤ l.bin + 1))
      let low := match mine with | none => true | some l => decide (l.height + 3 < margin)
      if low then
        if 10 ≤ x.lowRun + 1 then s.notchRelease n 1 else s.modNotch n fun x => { x with lowRun := x.lowRun + 1 }
      else match mine with
        | none => s
        | some l =>
          let p := s.getI (K.notch_PresentFrequency n) 4
          let f := p + clamp (-5000) 5000 (l.freq - p)
          (s.setI (K.notch_PresentFrequency n) 4 f).modNotch n fun x => { x with lowRun := 0, bin := some l.bin }
  else if st = 1 then
    let above := lines.filter fun l => decide (margin < l.height)
    let runs := above.foldl (fun m l => SMap.set 0 l.bin (SMap.get 0 l.bin x.runs + 1) m) []
    let held := (List.range (n % 4)).filterMap fun k => (s.notch (4 * (n / 4) + k)).bin
    let s := s.modNotch n fun x => { x with runs := runs }
    match strongest (above.filter fun l => decide (3 ≤ SMap.get 0 l.bin runs) && !(held.contains l.bin)) with
    | some l => s.notchEngage n l.freq (some l.bin)
    | none => s
  else s

/-- NOTCH_SPECTRUM (R129): the detector of a chain forms a spectrum. -/
def State.notchSpectrum (s : State) (c : Nat) (lines : List NotchLine) : State :=
  if decide (c < 4) && decide (1 ≤ s.chainState c ∧ s.chainState c ≤ 3) && decide ((s.chain c).lineAt + 10 * MS ≤ s.elapsed) then
    let t := s.elapsed
    let s := s.modChain c fun x => { x with lineAt := t }
    (List.range 4).foldl (fun s k => s.notchSee lines (4 * c + k)) s
  else s

/-! ### The spectrum monitor (R137 to R139, R146) -/

/-- The chain of the next averaging: the one chosen, or the next ACTIVE chain in turn; none while CAL is set on it. -/
def specNext (s : State) : Option Nat :=
  let c := s.get K.spectrumMonitor_SpecChain
  if c < 4 then (if chainCal s c then none else some c)
  else ([0, 1, 2, 3].map fun i => (s.rx.specChain + i) % 4).find? fun c => s.chainState c == 3 && !chainCal s c

/-- SPECTRUM_AVERAGING_START: an averaging starts at the tick edge due. -/
def State.specStart (s : State) : State :=
  let due := s.rx.specRedo || (match s.rx.specLast with
    | none => true
    | some t => decide (t + s.get K.spectrumMonitor_SpecInterval * MS ≤ s.elapsed))
  if s.atEdge && s.fwUp && s.getB K.spectrumMonitor_SpecEnable && s.rx.spec.isNone && due then
    match specNext s with
    | none => s
    | some c =>
      let r : SpecRun := { chain := c, point := s.get K.spectrumMonitor_SpecPoint, frames := s.get K.spectrumMonitor_SpecAverage,
                           start := s.elapsed, startAt := s.time.t0, gain := s.get (K.chain_AgcGain c), status := 0 }
      { s with rx := { s.rx with spec := some r, specLast := some s.elapsed, specChain := c + 1, specRedo := false } }
  else s

/-- The value of a bin: 16 (P + 64) with P in units of 2^-16 dB, rounded and held (R139). -/
def specBin (p : Int) : Nat := (clamp 0 4095 (divRound (16 * (p + 4194304)) 65536)).toNat

/-- The 263 body words of segment `i` of an averaging (R138). -/
def specBody (r : SpecRun) (bins : List Nat) (i : Nat) : List Nat :=
  let t := toTime96 r.startAt
  let word (k : Nat) : Nat := t / 2 ^ (24 * (3 - k)) % 2 ^ 24
  let seg := (bins.drop (512 * i)).take 512
  [r.chain * 2 ^ 21 + r.point * 2 ^ 20 + (r.frames - 1) * 1024 + i * 128, word 0, word 1, word 2, word 3, r.gain, r.status]
    ++ (List.range 256).map fun j => seg.getD (2 * j) 0 * 4096 + seg.getD (2 * j + 1) 0

/-- The duration of an averaging: 4,096 samples a frame at 61.38 Msps. -/
def specTime (frames : Nat) : Nat := frames * 4096 * SEC / 61380000

/-- SPECTRUM_ENTRY: eight entries are appended, or none (R137), also when SpecEnable has been cleared since the averaging began
(DESIGN CHOICE, log entry 161); `powers` are the 4,096 averaged bin powers in units of
2^-16 dB. -/
def State.specEntry (s : State) (powers : List Int) : State :=
  match s.rx.spec with
  | none => s
  | some r =>
    if s.atEdge && decide (r.start + specTime r.frames ≤ s.elapsed) then
      let s := { s with rx := { s.rx with spec := none } }
      let bins := powers.map specBin
      if s.streamFits 0x3051 (8 * 264) then
        (List.range 8).foldl (fun s i => s.append 0x3051 0x01 (specBody r bins i)) s
      else s.streamDrop 0x3051 8
    else s

/-! ### Resets, wakes and steps of Pond time (R143, R144) -/

/-- REPHASE on every chain for the lengthened tick. -/
def State.rephase (s : State) : State :=
  (List.range 4).foldl (fun s c => s.modChain c fun x => { x with rephase := true }) s

/-- A warm reset releases every notch that stands at a frequency (R123, R143). -/
def State.notchesLeave (s : State) : State :=
  (List.range 16).foldl (fun s n =>
    let st := s.get (K.notch_NotchState n)
    if st = 2 ∨ (st = 3 ∧ (s.notch n).frozen = some 2) then s.notchMoved n (s.getI (K.notch_PresentFrequency n) 4) else s) s

/-- Notches after a warm reset: SEEKING, or their FIXED setting; those of a chain in CAL are FROZEN there (R129, R143). -/
def State.notchesRestart (s : State) : State :=
  let s := (List.range 16).foldl (fun s n =>
    let s := (s.set (K.notch_NotchState n) 0).set (K.notch_PresentFrequency n) 0
    (s.modNotch n fun _ => NotchSt.reset).notchApply n) s
  (List.range 4).foldl (fun s c => if chainCal s c || decide (0 < (s.chain c).thaw) then s.notchFreeze c else s) s

/-- Back in RUN from SLEEP, at the edge of the first tick: each enabled chain relocks and settles, with CAL for that tick and
the next; its notches are FROZEN for one tick more (R129), and a partial average of it is discarded (R146). -/
def State.chainsWake (s : State) : State :=
  (List.range 4).foldl (fun s c =>
    if (s.chain c).powered then
      ((s.modChain c fun x => { x with wakeCal := 2, thaw := max x.thaw 3 }).notchFreeze c).specDiscard c
    else s) s

/-- Writes of the chain objects with an effect of their own: the notches (R128). -/
def State.chainWritten (s : State) (k : Nat) : State :=
  let i := k / 256
  if 0x3030 ≤ i ∧ i < 0x3040 then s.notchApply (i - 0x3030) else s

/-! ### Commands -/

/-- ANTENNA_SHORT (R121): the limiter has held the current at CurrentLimit for 1 ms; the bias is switched off. -/
def execAntennaShort (a at_ : Nat) (s : State) : Host.Outcome State Fault Refusal := .next ((s.reach (s.time.t0 + at_)).antShort a)
/-- SHORT_TRIAL (R121): a trial of the bias, with the current it meets. -/
def execShortTrial (a current at_ : Nat) (s : State) : Host.Outcome State Fault Refusal :=
  .next ((s.reach (s.time.t0 + at_)).antTrial a current)
/-- ANTENNA_SUPPLY_LOW (R121): BiasVoltage, in mV, has stayed below 2,950 mV for 10 ms. -/
def execAntennaSupplyLow (a mv : Nat) (s : State) : Host.Outcome State Fault Refusal := .next (s.antLow a mv)
/-- SUPPLY_LOW_CLEARED (R121). -/
def execSupplyLowCleared (a mv : Nat) (s : State) : Host.Outcome State Fault Refusal := .next (s.antLowEnd a mv)
/-- ANTENNA_OPEN (R121): BiasCurrent, in 0.1 mA, has stayed below OpenThreshold for 100 ms. -/
def execAntennaOpen (a current : Nat) (s : State) : Host.Outcome State Fault Refusal := .next (s.antOpen a current)
/-- OPEN_CLEARED (R121). -/
def execOpenCleared (a current : Nat) (s : State) : Host.Outcome State Fault Refusal := .next (s.antOpenEnd a current)
/-- AGC_BASELINE_LEARNED (R126). -/
def execAgcBaselineLearned (c : Nat) (s : State) : Host.Outcome State Fault Refusal :=
  .next (onlyIf s.inRun s (s.baselineLearn c))
/-- NOTCH_SPECTRUM (R129). -/
def execNotchSpectrum (c : Nat) (lines : List (Nat × Int × Nat)) (s : State) : Host.Outcome State Fault Refusal :=
  .next (onlyIf s.inRun s (s.notchSpectrum c (lines.map fun p => ⟨p.1, p.2.1, p.2.2⟩)))
/-- LO_UNLOCK (R135). -/
def execLoUnlock (c at_ : Nat) (s : State) : Host.Outcome State Fault Refusal :=
  .next (onlyIf s.inRun s ((s.reach (s.time.t0 + at_)).loUnlock c))
/-- CAL_STEP_COMPLETE (R130). -/
def execCalStepComplete (pass : Bool) (image at_ : Nat) (s : State) : Host.Outcome State Fault Refusal :=
  .next (onlyIf s.inRun s ((s.reach (s.time.t0 + at_)).calStepEnd pass image))
/-- CHAIN_FAULT_RETRY (R131). -/
def execChainFaultRetry (c : Nat) (s : State) : Host.Outcome State Fault Refusal := .next (onlyIf s.inRun s (s.faultRetry c))
/-- SPECTRUM_AVERAGING_START (R137). -/
def execSpectrumAveragingStart (s : State) : Host.Outcome State Fault Refusal := .next (onlyIf s.inRun s s.specStart)
/-- SPECTRUM_ENTRY (R137). -/
def execSpectrumEntry (powers : List Int) (s : State) : Host.Outcome State Fault Refusal :=
  .next (onlyIf s.inRun s (s.specEntry powers))

end Sys2Proof.Machine
end

