-- ==== Sys2Proof/Machine/Slots.lean ====
section
/-!
DEFINITION. Tracking slots (spec/06, R186 to R228) and the signals they follow (spec/05, R150 to R153): contexts, dumps,
discriminators, lock and transitions. The loops are in Machine/Loops.lean. Tap values, which the correlators measure, come
with a command; the codes and orbit models of a signal's own interface specification are constants of Config.
-/

namespace Sys2Proof.Machine

/-! ### Signals (R150, R151, R153, R230) -/

/-- Primary code length in chips. -/
def sigChips (v : Nat) : Nat :=
  [1023, 10230, 10230, 4092, 10230, 10230, 2046, 10230, 10230, 10230, 511, 1023, 10230, 10230, 1023, 1023].getD v 1023
/-- Code rate in chips/s. -/
def sigRate (v : Nat) : Nat :=
  [1023000, 1023000, 10230000, 1023000, 10230000, 10230000, 2046000, 1023000, 10230000, 10230000, 511000, 1023000,
   1023000, 10230000, 1023000, 1023000].getD v 1023000
/-- Code period in ms. -/
def sigPeriod (v : Nat) : Nat := [1, 10, 1, 4, 1, 1, 1, 10, 1, 1, 1, 1, 10, 1, 1, 1].getD v 1
/-- Carrier in Hz; of GLO_G1 by the channel. -/
def sigCarrier (v sat : Nat) : Nat :=
  if v = 10 then 1602000000 - 7 * 562500 + sat * 562500
  else [1575420000, 1575420000, 1176450000, 1575420000, 1176450000, 1207140000, 1561098000, 1575420000, 1176450000,
        1207140000, 1602000000, 1575420000, 1575420000, 1176450000, 1176450000, 1575420000].getD v 1575420000
/-- Correlated as BOC(1,1). -/
def sigBoc (v : Nat) : Bool := v == 1 || v == 3 || v == 7 || v == 12
/-- Has a pilot beside its data component; the pilot is searched and closes the carrier loop. -/
def sigPilot (v : Nat) : Bool := [1, 2, 3, 4, 5, 7, 8, 12, 13].contains v
/-- Sub-band b of R118. -/
def sigBand (v : Nat) : Nat := [0, 0, 3, 0, 3, 4, 1, 0, 3, 4, 2, 0, 0, 3, 3, 0].getD v 0
/-- The chain of a signal on an antenna. -/
def sigChain (v ant : Nat) : Nat := 2 * ant + (if 3 ≤ sigBand v then 1 else 0)
/-- System: 0 GPS, 1 Galileo, 2 BeiDou, 3 GLONASS, 4 QZSS, 5 NavIC, 6 SBAS. -/
def sigSystem (v : Nat) : Nat := [0, 0, 0, 1, 1, 1, 2, 2, 2, 2, 3, 4, 4, 4, 5, 6].getD v 0
/-- BeiDou satellites 1 to 5 and 59 to 63. -/
def bdsGeo (sat : Nat) : Bool := decide (1 ≤ sat ∧ sat ≤ 5) || decide (59 ≤ sat ∧ sat ≤ 63)
/-- Symbol length in ms (R230). -/
def sigSymbol (v sat : Nat) : Nat :=
  if v = 6 then (if bdsGeo sat then 2 else 20)
  else [20, 10, 10, 4, 20, 4, 20, 10, 5, 1, 10, 20, 10, 10, 20, 2].getD v 20
/-- Positions SecondaryIndex counts, in code periods: the secondary code of the loop component, or the symbol. -/
def sigSecondary (v sat : Nat) : Nat :=
  match v with
  | 1 | 7 | 12 => 1800
  | 2 | 13 => 20
  | 3 => 25
  | 4 | 5 | 8 => 100
  | _ => sigSymbol v sat / sigPeriod v
/-- Satellite numbers (R153). -/
def satRange (v : Nat) : Nat × Nat :=
  match sigSystem v with
  | 0 | 2 => (1, 63)
  | 1 => (1, 50)
  | 3 => (0, 13)
  | 4 => (193, 202)
  | 5 => (1, 14)
  | _ => (120, 158)
/-- SYMBOL_SYNC comes by the transition histogram: its positions; zero otherwise. -/
def sigHistogram (v sat : Nat) : Nat :=
  match v with
  | 0 | 11 | 14 => 20
  | 6 => if bdsGeo sat then 2 else 0
  | 10 => 10
  | 15 => 2
  | _ => 0
/-- Symbols are one code period long: SYMBOL_SYNC by code epoch. -/
def sigByEpoch (v : Nat) : Bool := [1, 3, 7, 9, 12].contains v
/-- The bits SEC_KNOWN names at the handoff (R230): SYMBOL_SYNC, SECONDARY_SYNC. -/
def sigNamed (v sat : Nat) : Bool × Bool :=
  if sigPilot v then (false, true) else if v = 6 ∧ !bdsGeo sat then (true, true) else (true, false)

/-- Chips of the secondary code of the pilot or of the data component (R230); 1 without one. -/
def secLen (v sat : Nat) (pilot : Bool) : Nat :=
  if pilot then sigSecondary v sat
  else match v with
    | 2 | 13 => 10
    | 4 => 20
    | 5 => 4
    | 8 => 5
    | 6 => if bdsGeo sat then 1 else 20
    | _ => 1
/-- A chip of it, +1 or −1. -/
def secSign (v sat : Nat) (pilot : Bool) (k : Int) : Int :=
  let len := secLen v sat pilot
  if len = 1 then 1 else if Config.secChip v sat pilot (k.emod len).toNat then -1 else 1

/-! ### Ephemerides in the store (R241 to R243) -/

/-- An entry holds a kind for a satellite of the same system. -/
def storeIs (s : State) (e kind v sat : Nat) : Bool :=
  s.get (K.storeEntry_Kind e) == kind && sigSystem (s.get (K.storeEntry_SignalId e)) == sigSystem v
    && s.get (K.storeEntry_Satellite e) == sat

/-- The entries in order. -/
def entries : List Nat := List.range 256

/-- A usable ephemeris of a satellite (R243, R294): the VALID entry, or a SUPERSEDED one, within its fit; of a VALID one
that became so at this edge the use begins with the next solution. -/
def ephemerisOf (s : State) (v sat : Nat) : Option Nat :=
  let fits (e : Nat) : Bool := s.timing == 0 || decide (s.now96 < s.get (K.storeEntry_FitEnd e))
  match entries.find? fun e => storeIs s e 1 v sat && s.get (K.storeEntry_EntryState e) == 2 && fits e with
  | some e => some e
  | none => entries.find? fun e => storeIs s e 1 v sat && s.get (K.storeEntry_EntryState e) == 3 && fits e

/-- The position of an antenna in mm. -/
def antennaAt (s : State) (a : Nat) : Int × Int × Int :=
  (s.getI (K.antennaPosition_PosX a) 6, s.getI (K.antennaPosition_PosY a) 6, s.getI (K.antennaPosition_PosZ a) 6)

/-- A survey begins (R272, R273). -/
def State.surveyBegin (s : State) (a : Nat) : State :=
  let s := ((s.set (K.antennaPosition_SurveyState a) 1).set (K.antennaPosition_SurveyElapsed a) 0).set (K.antennaPosition_SurveySigma a) 0
  { s with sol := { s.sol with survey := vecMod s.sol.survey a fun _ => some ⟨0, 0, 0, 0, s.time.ms⟩ } }

/-- PositionMode of an antenna has been written: SURVEY_IN starts a new survey (R273), FIXED ends one in progress. -/
def State.positionWritten (s : State) (a : Nat) : State :=
  if s.get (K.antennaPosition_PositionMode a) = 0 then s.surveyBegin a
  else if (s.sol.survey.getD a none).isNone then s
  else
    let s := s.set (K.antennaPosition_SurveyState a) 0
    { s with sol := { s.sol with survey := vecMod s.sol.survey a fun _ => none } }

/-- What the ephemeris of a satellite predicts for an antenna at a Pond time: `f` one of Config's functions of an ephemeris. -/
def ephSays (s : State) (f : Nat → Nat → Nat → Int × Int × Int → Nat → Int) (v sat a t : Nat) : Option Int :=
  (ephemerisOf s v sat).map fun e => f (s.get (K.storeEntry_SignalId e)) sat (s.get (K.storeEntry_Content e)) (antennaAt s a) t

/-! ### Slots -/

/-- One slot. -/
def State.slot (s : State) (n : Nat) : SlotSt := SMap.get SlotSt.reset n s.slots
/-- Change one slot. -/
def State.modSlot (s : State) (n : Nat) (f : SlotSt → SlotSt) : State :=
  { s with slots := SMap.set SlotSt.reset n (f (s.slot n)) s.slots }
/-- SlotState (R191): 0 FREE, 1 QUEUED, 2 PULL_IN, 3 TRACK, 4 AIDED, 5 LOST, 6 RETIRED. -/
def State.slotState (s : State) (n : Nat) : Nat := s.get (K.slot_SlotState n)
/-- The slot holds its signal: QUEUED to LOST. -/
def State.slotHeld (s : State) (n : Nat) : Bool := decide (1 ≤ s.slotState n) && decide (s.slotState n ≤ 5)
/-- Slots whose state passes a test. -/
def State.slotsWhere (s : State) (p : Nat → Bool) : List Nat := (List.range 512).filter fun n => p (s.slotState n)
/-- SlotsInUse. -/
def State.slotsInUse (s : State) : Nat := (s.slotsWhere fun v => decide (1 ≤ v ∧ v ≤ 5)).length
/-- The signal, satellite, antenna and chain of a slot. -/
def State.slotSig (s : State) (n : Nat) : Nat := s.get (K.slot_SignalId n)
def State.slotSat (s : State) (n : Nat) : Nat := s.get (K.slot_Satellite n)
def State.slotAnt (s : State) (n : Nat) : Nat := s.get (K.slot_Antenna n)
def State.slotChain (s : State) (n : Nat) : Nat := sigChain (s.slotSig n) (s.slotAnt n)
/-- A bit of LockStatus. -/
def State.lockBit (s : State) (n b : Nat) : Bool := bit (s.get (K.slot_LockStatus n)) b
/-- Put a bit of LockStatus. -/
def State.putLock (s : State) (n b : Nat) (v : Bool) : State :=
  s.set (K.slot_LockStatus n) (putBit (s.get (K.slot_LockStatus n)) b v)

/-- Symbol timing and frame alignment begin again: the stream, candidates and what the methods of R230 have seen are dropped. -/
def State.navUnsync (s : State) (n : Nat) : State :=
  let s := (s.set (K.slotNav_FrameState n) 0).set (K.slotNav_Candidates n) 0
  s.modSlot n fun x =>
    { x with symSum := none, symAt := none, raw := [], rawAt := 0, soft := [], softAt := 0, cands := [], failRun := 0, missRun := 0,
             framePos := 0, secPhase := none, secGood := 0, secFails := 0, dPhase := none, hist := [], histSign := none }

/-- Frame alignment, candidates and partial messages of a slot are dropped (R233), its queued blocks with them. -/
def State.navClear (s : State) (n : Nat) : State :=
  let s := (s.navUnsync n).set (K.slotNav_Polarity n) 0
  let s := s.modSlot n fun x => { x with signs := [], dsigns := [], secKnown := false, symKnown := false }
  { s with nav := { s.nav with queue := s.nav.queue.map fun q => q.filter fun j => j.slot != n } }

/-- A cycle slip (R203): CYCLE_SLIP, LockTime 0; Polarity is judged again (R238). -/
def State.slip (s : State) (n : Nat) : State :=
  let s := (s.flag (K.slot_SlotFlags n) 0 (K.slot_CycleSlips n)).set (K.slot_LockTime n) 0
  let s := s.set (K.slotNav_Polarity n) 0
  s.modSlot n fun x => { x with slipped := true, n0 := none }

/-- The slot returns to FREE with a cause (R192, R219, R251); its decoder blocks are of no slot any more. -/
def State.slotFree (s : State) (n cause : Nat) : State :=
  let s := (List.range 15).foldl (fun s i => s.set (K.slot_SignalId n + i) 0) s
  let s := (s.set (K.slot_SlotState n) 0).set (K.slot_StateEntered n) s.edge96
  let s := ((s.set (K.slot_LastFreeCause n) cause).navClear n).set (K.slotNav_LastMessageAt n) 0
  let s := s.modSlot n fun x => { SlotSt.reset with seq := x.seq, parity := x.parity }
  { s with cpu := { s.cpu with ncoNext := SMap.set none n none s.cpu.ncoNext, ncoLater := SMap.set none n none s.cpu.ncoLater } }

/-- CoherentTime as a slot may use it: at most 2 ms on a BeiDou GEO satellite (R199). -/
def coherentTime (s : State) (n : Nat) : Nat :=
  let v := s.slotSig n
  let t := s.get (K.trackingProfile_CoherentTime v)
  if v = 6 ∧ bdsGeo (s.slotSat n) then min t 2 else t

/-- The loop component is synchronised: SECONDARY_SYNC on a pilot, SYMBOL_SYNC otherwise (R199). -/
def loopSynced (s : State) (n : Nat) : Bool := if sigPilot (s.slotSig n) then s.lockBit n 5 else s.lockBit n 4

/-- T of a slot in TRACK (R199): CoherentTime once the loop component is synchronised, one code period before. -/
def trackT (s : State) (n : Nat) : Nat := if loopSynced s n then coherentTime s n else sigPeriod (s.slotSig n)

/-- The tap spacings of a signal's profile: d, d_v, m in 1/64 chip (R187). -/
def spacingOf (s : State) (v : Nat) : Nat × Nat × Nat :=
  (s.get (K.trackingProfile_EarlyLateSpacing v), s.get (K.trackingProfile_VeryEarlyLateSpacing v),
   s.get (K.trackingProfile_MultipathTapOffset v))

/-- AidedCoherentTime of a slot's profile, as a duration. -/
def aidedSpan (s : State) (n : Nat) : Nat := s.get (K.trackingProfile_AidedCoherentTime (s.slotSig n)) * MS

/-- The first AIDED window begins at an edge that is a whole multiple of AidedCoherentTime (R207): TRACK processing ends. -/
def State.windowBegin (s : State) (n : Nat) : State :=
  if s.slotState n = 4 ∧ (s.slot n).windowed = false ∧ s.time.t0 % aidedSpan s n = 0 then
    (s.set (K.slot_CoherentInUse n) (s.get (K.trackingProfile_AidedCoherentTime (s.slotSig n)))).modSlot n fun x =>
      { x with windowed := true, winAt := s.time.t0, inbox := [], window := [], pli := [], cno := [] }
  else s

/-- A slot enters a state at a tick edge; entry to TRACK is a cycle slip (R203) unless a step of Pond time brings it (R224). -/
def State.slotEnter (s : State) (n toward : Nat) (slips : Bool) : State :=
  let s := (s.set (K.slot_SlotState n) toward).set (K.slot_StateEntered n) s.edge96
  let s := s.modSlot n fun x => { x with age := 0, goodAt := none, badAt := none, next := none, release := false,
                                         windowed := false, window := [] }
  let v := s.slotSig n
  match toward with
  | 2 =>
    let named := sigNamed v (s.slotSat n)
    let known := (s.slot n).secKnown
    let s := if known && named.1 then s.putLock n 4 true else s
    let s := if known && named.2 then s.putLock n 5 true else s
    let d := s.getI (K.slot_Doppler n) 6 * 16777216
    let s := s.set (K.slot_CoherentInUse n) (if known then coherentTime s n else sigPeriod v)
    let ms := s.time.ms
    s.modSlot n fun x =>
      { x with secKnown := known && named.2, symKnown := known && named.1, v := d, dop := d, acc := 0, vc := 0, prior := none,
               inbox := [], pli := [], cno := [], low := 0, hist := [], histSign := none, histAt := ms, bumpE := 0, bumpL := 0, mm := [] }
  | 3 =>
    let s := if slips then s.slip n else s
    if sigPilot v then s.putLock n 3 true else s
  | 4 => s.windowBegin n
  | 5 =>
    -- without the sync bits T is one code period (log entry 167)
    let s := ((s.putLock n 4 false).putLock n 5 false).set (K.slot_CoherentInUse n) (sigPeriod v)
    (s.navClear n).modSlot n fun x => { x with cno := [], inbox := [] }
  | _ => s

/-! ### Aiding (R206, R225) -/

/-- TimeSource is LAKE and TimingState is LOCKED. -/
def lakeHeld (s : State) : Bool := s.get K.pondTime_TimeSource == 2 && s.timing == 2

/-- A current peer sighting of a signal and satellite (R160). -/
def sighted (s : State) (v sat : Nat) : Bool :=
  s.nav.sightings.any fun x => x.signal == v && x.satellite == sat && decide ((s.elapsed : Int) ≤ x.at_ + (10 * SEC : Nat))

/-- Peer symbols of a signal and satellite have come within SymbolGap. -/
def peerSymbols (s : State) (v sat : Nat) : Bool :=
  s.nav.peers.any fun x => x.signal == v && x.satellite == sat && decide (s.since x.lastMs ≤ s.get K.tracking_SymbolGap)

/-- Aiding is available to a slot. -/
def aiding (s : State) (n : Nat) : Bool :=
  let v := s.slotSig n
  let sat := s.slotSat n
  s.getB K.tracking_AidedEnable && s.getB (K.trackingProfile_AidedEnabled v) && lakeHeld s && sighted s v sat && peerSymbols s v sat

/-- LAKE_HELD and PEER_SYMBOLS follow their conditions. -/
def State.aidBits (s : State) (n : Nat) : State :=
  (s.putLock n 7 (lakeHeld s)).putLock n 6 (peerSymbols s (s.slotSig n) (s.slotSat n))

/-! ### Dumps (R188 to R190) -/

/-- Bits [27:4] of a 32-bit accumulator as a 24-bit word. -/
def dumpWord (a : Int) : Nat := (ofInt 4 a / 16) % 2 ^ 24

/-- Code period of a slot counted from its loading, as a position in the secondary code or symbol (SecondaryIndex). -/
def perIdx (s : State) (n : Nat) (per : Int) : Int :=
  ((s.get (K.slot_SecondaryIndex n) : Int) + (per - (s.slot n).periods)).emod (sigSecondary (s.slotSig n) (s.slotSat n) : Nat)

/-- The time from the last tick edge to the slot's next code epoch that is not latched yet (R188), which falls where the code
phase completes a period. -/
def nextEpoch (s : State) (n : Nat) : Nat :=
  let x := s.slot n
  let full := sigChips (s.slotSig n) * 2 ^ 32 * (x.latched + 1) * SEC
  let have_ := s.get (K.slot_CodePhase n) * SEC + x.codeFrac
  if x.codeRate = 0 then s.tickAhead else (full - have_ + x.codeRate * 256 - 1) / (x.codeRate * 256)

/-- DUMP_LATCH (R188): at its next code epoch in the present tick the slot's accumulators are latched: twelve sums of each
component it has, four of the multipath taps. They are zero when the sub-band has carried zeros for the whole code period (R124). -/
def State.dumpLatch (s : State) (n : Nat) (data pilot mm : List Int) : State :=
  let d := nextEpoch s n
  if decide (n < 512) && s.slotHeld n && decide (2 ≤ s.slotState n) && decide ((s.slot n).startMs ≤ s.time.ms)
      && decide (d ≤ s.tickAhead - s.time.t0) then
    let s := s.reach (s.time.t0 + d)
    let v := s.slotSig n
    let quiet := match (s.chain (s.slotChain n)).zeroAt with
      | some t => decide (t + sigPeriod v * MS ≤ s.elapsed)
      | none => false
    let sums (k : Nat) (l : List Int) : List Int :=
      ((if quiet then [] else l.map fun a => toInt 3 (dumpWord a)) ++ List.replicate k 0).take k
    let now := spacingOf s v
    s.modSlot n fun x =>
      let e : Dump :=
        { per := x.periods + x.latched, at_ := s.time.t0 + d, spacing := x.spacing, data := sums 12 data,
          pilot := if sigPilot v then sums 12 pilot else List.replicate 12 0, mm := sums 4 mm, coast := false, bad := false,
          cal := false }
      { x with dumps := x.dumps ++ [e], latched := x.latched + 1, spacing := now, seq := (x.seq + 1) % 65536 }
  else s

/-- The dump record of a slot for the tick just ended, which began at `t0` (R189): its last dump, if it latched one. -/
def dumpRecord (x : SlotSt) (v t0 : Nat) : List Nat :=
  let span := sigPeriod v
  let fe (k : Nat) : Nat := (x.fe.take k).foldl Nat.lor 0 % 65536
  let head (some_ : Bool) : Nat :=
    b2n some_ * 2 ^ 23 + b2n (some_ && sigPilot v) * 2 ^ 22 + b2n x.coastLast * 2 ^ 21 + b2n x.rerun * 2 ^ 20 + b2n x.bad * 2 ^ 19
      + x.seq % 65536
  match x.dumps.getLast? with
  | none => [head false, fe 0] ++ List.replicate 30 0
  | some e =>
    [head true, fe (span + 1), (e.at_ - t0) * 245520000 / SEC % 2 ^ 24, span * 65536]
      ++ (e.data ++ e.pilot ++ e.mm).map (ofInt 3)

/-- The dump windows receive the records of the tick just ended (R188, R190). -/
def State.dumpWrite (s : State) : State :=
  (s.slotsWhere fun v => decide (1 ≤ v ∧ v ≤ 5)).foldl (fun s n =>
    (List.zip (List.range 32) (s.slot n).record).foldl (fun s p =>
      { s with cpu := { s.cpu with shared := SMap.set 0 (0x2FC000 + 32 * n + p.1) (BitVec.ofNat 24 p.2) s.cpu.shared } }) s) s

/-- At a tick edge the dumps of the tick that ended, which began at Pond time `t0`, make its record and go to firmware, with the
marks of their ticks (R189, R190, R211). Firmware keeps what an AIDED window may need, and otherwise the last 128. -/
def State.slotDumps (s : State) (n t0 : Nat) : State :=
  let v := s.slotSig n
  let aided := s.slotState n == 4
  s.modSlot n fun x =>
    let cal := (x.fe.take (sigPeriod v + 1)).any fun w => bit w 0
    let new := x.dumps.map fun e => { e with coast := x.coastLast, bad := x.bad, cal := cal }
    let toward := aided && x.windowed
    { x with record := dumpRecord x v t0, dumps := [], rerun := false, bad := false,
             window := if toward then x.window ++ new else x.window,
             inbox := if toward then x.inbox else ((new.reverse ++ x.inbox.reverse).take 128).reverse }

/-! ### The tick edge (R24, R190, R203, R219) -/

/-- Phases after `d` in the DUR64 unit at a code rate and Doppler: code phase with its part below the unit, code periods completed,
carrier phase with its part below the unit. -/
def phasesAfter (full rate : Nat) (dop : Int) (code codeFrac : Nat) (carr : Int) (carrFrac d : Nat) : (Nat × Nat) × Nat × Int × Nat :=
  let c := rate * 256 * d + codeFrac
  let p := code + c / SEC
  let ca := dop * d + carrFrac
  ((p % full, c % SEC), p / full, carr + ca.fdiv SEC, (ca.fmod SEC).toNat)

/-- Advance a slot's phases over the tick that ended, `d` in the DUR64 unit, at the rates it had. -/
def State.slotAdvance (s : State) (n d : Nat) : State :=
  let x := s.slot n
  let v := s.slotSig n
  let r := phasesAfter (sigChips v * 2 ^ 32) x.codeRate (s.getI (K.slot_Doppler n) 6) (s.get (K.slot_CodePhase n)) x.codeFrac
    (s.getI (K.slot_CarrierPhase n) 8) x.carrFrac d
  let s := s.set (K.slot_CodePhase n) r.1.1
  let s := s.set (K.slot_SecondaryIndex n) ((s.get (K.slot_SecondaryIndex n) + r.2.1) % sigSecondary v (s.slotSat n))
  let s := s.setI (K.slot_CarrierPhase n) 8 r.2.2.1
  s.modSlot n fun x => { x with codeFrac := r.1.2, carrFrac := r.2.2.2, periods := x.periods + r.2.1, latched := 0 }

/-- Between the updates of AIDED windows the carrier NCO follows the Doppler rate that the ephemeris predicts (R208), over the
tick that ended at the present edge. -/
def State.dopplerFollow (s : State) (n d : Nat) : State :=
  if s.slotState n = 4 ∧ (s.slot n).windowed = true then
    match ephSays s Config.ephDopplerRate (s.slotSig n) (s.slotSat n) (s.slotAnt n) s.time.t0 with
    | some r =>
      let add := (r * s.time.t0).fdiv SEC - (r * ((s.time.t0 - d : Nat) : Int)).fdiv SEC
      let dop := clamp (-(2 ^ 47 : Nat)) (2 ^ 47 - 1 : Nat) (s.getI (K.slot_Doppler n) 6 + add)
      (s.setI (K.slot_Doppler n) 6 dop).modSlot n fun x => { x with v := x.v + add * 16777216, dop := x.dop + add * 16777216 }
    | none => s
  else s

/-- One slot at a tick edge: its phases advance, the pending NCO update takes effect or the slot coasts, LockTime counts. The
NCOs of a slot just loaded start at its edge (R172, R191). -/
def State.slotTick (s : State) (n d : Nat) : State :=
  let st := s.slotState n
  let x := s.slot n
  if 1 ≤ st ∧ st ≤ 5 ∧ x.startMs ≤ s.time.ms then
    let ran := decide (x.startMs < s.time.ms)
    let s := if ran then s.slotAdvance n d else s
    let fe := s.get (K.chain_FrontEndStatus (s.slotChain n))
    let ended := ran && x.coasting
    let run := if ended then x.coastRun + 1 else 0
    let s := if ended then s.flag (K.slot_SlotFlags n) 3 (K.slot_CoastTicks n) else s
    let s := s.putLock n 8 ended
    let s := if st = 3 ∨ st = 4 then s.set (K.slot_LockTime n) (min 0xFFFFFFFF (s.get (K.slot_LockTime n) + d / MS)) else s
    let long := decide (s.get K.tracking_CoastSlipLimit < run)
    let s := if long && !x.coastSlip then s.slip n else s
    let s := s.modSlot n fun x => { x with coastLast := ended, coastRun := run, coastSlip := decide (0 < run) && (long || x.coastSlip),
                                           fe := (fe :: x.fe).take 12, age := if bit fe 0 then x.age else x.age + 1 }
    let s := s.slotDumps n (s.time.t0 - d)
    let upd := SMap.get none n s.cpu.ncoNext
    let s := match upd with
      | none => s
      | some u => (s.set (K.slot_Doppler n) u.2).modSlot n fun x => { x with codeRate := u.1 }
    let s := s.modSlot n fun x => { x with coasting := upd.isNone }
    ((s.windowBegin n).dopplerFollow n d).aidBits n
  else s

/-- A context kept over a reset coasts on (R226): its phases advance, and an NCO set that was pending takes effect. -/
def State.keptTick (s : State) (n d : Nat) : State :=
  match (s.slot n).kept with
  | none => s
  | some k =>
    let r := phasesAfter (sigChips k.signal * 2 ^ 32) k.rate (toInt 6 k.doppler) k.code k.codeFrac (toInt 8 k.carrier) k.carrFrac d
    let k := { k with code := r.1.1, codeFrac := r.1.2, sec := (k.sec + r.2.1) % sigSecondary k.signal k.satellite,
                      carrier := ofInt 8 r.2.2.1, carrFrac := r.2.2.2 }
    let k := match SMap.get none n s.cpu.ncoNext with
      | none => k
      | some u => { k with rate := u.1, doppler := u.2 }
    s.modSlot n fun x => { x with kept := some k }

/-- Signals with a 1 ms primary code that two slots follow on one antenna and sub-band match under R214. -/
def crossMatch (s : State) (n m : Nat) : Bool :=
  let tracks (k : Nat) : Bool := s.slotState k == 3 || s.slotState k == 4
  let v := s.slotSig n
  let w := s.slotSig m
  n != m && tracks n && tracks m && sigPeriod v == 1 && sigPeriod w == 1 && s.slotAnt n == s.slotAnt m && sigBand v == sigBand w
    && (let d := (s.getI (K.slot_Doppler n) 6 - s.getI (K.slot_Doppler m) 6).natAbs % 65536000
        decide (d ≤ 5 * 65536) || decide (65536000 - 5 * 65536 ≤ d))
    && decide (s.get (K.slot_Cn0 n) + 10 * s.get K.erg_CrossCorrMargin ≤ s.get (K.slot_Cn0 m))

/-- The matches of R214 since when. -/
def State.crossTick (s : State) : State :=
  let l := s.slotsWhere fun v => v == 3 || v == 4
  l.foldl (fun s n =>
    let old := (s.slot n).cross
    let now := (l.filter fun m => crossMatch s n m).foldl (fun c m =>
      SMap.set 0 m (let t := SMap.get 0 m old; if t = 0 then s.time.ms + 1 else t) c) []
    s.modSlot n fun x => { x with cross := now }) s

/-! ### Loops (R194 to R199) -/

/-- I and Q of tap `k` (0 VE, 1 E, 2 P, 3 L, 4 VL, 5 N) of a component's twelve sums. -/
def tap (l : List Int) (k : Nat) : Int × Int := (l.getD (2 * k) 0, l.getD (2 * k + 1) 0)
/-- The power of a tap. -/
def pow2 (z : Int × Int) : Nat := (z.1 * z.1 + z.2 * z.2).toNat
/-- The power of a tap over components. -/
def tapPower (cs : List (List Int)) (k : Nat) : Nat := (cs.map fun l => pow2 (tap l k)).sum

/-- EMLP_NORM (R195): early and late powers, the spacing in 1/64 chip. -/
def emlp (boc : Bool) (d e l : Nat) : Int :=
  let a : Int := isqrt (e * 2 ^ 40)
  let b : Int := isqrt (l * 2 ^ 40)
  if a + b = 0 then 0
  else if boc then divRound ((128 - 3 * (d : Int)) * (a - b) * FX) (384 * (a + b))
  else divRound ((128 - (d : Int)) * (a - b) * FX) (128 * (a + b))

/-- The value the formula leaves unstated at a zero divisor: a free value within ±`lim` (log entry 4). -/
def freeWithin (s : State) (lim : Nat) : Int := (s.freeVal % (2 * lim + 1) : Nat) - (lim : Int)

/-- A quotient in units of 2^-40, its value at a zero divisor free. -/
def quot (s : State) (a b : Int) : Int × Bool := if b = 0 then (freeWithin s (2 ^ 40), true) else (divRound (a * FX) b, false)

/-- The code discriminator (R195), in chips of 2^-40; whether it is a free value. `cs` are the components, `lead` the
component of the carrier loop, `d` the spacing of the taps it uses in 1/64 chip. -/
def codeDisc (s : State) (kind v d : Nat) (wide : Bool) (cs : List (List Int)) (lead : List Int) : Int × Bool :=
  let boc := sigBoc v
  let g : Int := if boc then 6 else 2
  let de := if wide then 0 else 1
  let dl := if wide then 4 else 3
  match kind with
  | 0 => (emlp boc d (tapPower cs de) (tapPower cs dl), false)
  | 1 =>
    let num := (cs.map fun l => ((tap l de).1 - (tap l dl).1) * (tap l 2).1 + ((tap l de).2 - (tap l dl).2) * (tap l 2).2).sum
    quot s num (g * tapPower cs 2)
  | _ => quot s ((tap lead de).1 - (tap lead dl).1) (g * (tap lead 2).1)

/-- The carrier discriminator (R198), in cycles of 2^-40. -/
def carrierDisc (s : State) (kind : Nat) (p : Int × Int) : Int × Bool :=
  match kind with
  | 0 => (atanc p.2 p.1, false)
  | 1 => if p.1 = 0 ∧ p.2 = 0 then (freeWithin s (2 ^ 39), true) else (atan2c p.2 p.1, false)
  | _ =>
    let m : Int := isqrt (pow2 p * 2 ^ 40)
    if m = 0 then (freeWithin s (2 ^ 38), true)
    else
      let q := if p.1 < 0 then -p.2 else if p.1 = 0 then 0 else p.2
      (divRound (q * inv2pi * (2 ^ 20 : Nat)) m, false)

/-- The FLL's output e_f in Hz of 2^-40 over two prompts `t` ms apart. -/
def fllDisc (pilot : Bool) (a b : Int × Int) (t : Nat) : Int :=
  let cross := a.1 * b.2 - b.1 * a.2
  let dot := a.1 * b.1 + a.2 * b.2
  divRound ((if pilot then atan2c cross dot else atanc cross dot) * 1000) (t : Nat)

/-- The code loop (R197): the new v_c and code_out, in chips/s of 2^-40; `bn` in 0.01 Hz, `t` in ms. -/
def codeLoop (order bn t : Nat) (vc ec : Int) : Int × Int :=
  if order = 1 then (vc, divRound (bn * ec) 25)
  else
    let vc := vc + divRound ((bn * bn * t : Nat) * ec) (53 * 53 * 1000)
    (vc, vc + divRound ((1414 * bn : Nat) * ec) 53000)

/-- The carrier loop (R197): the new v, acc and carrier_out, in Hz of 2^-40; `bp` in 0.01 Hz, wf as a fraction. -/
def carrierLoop (order bp t wfn wfd : Nat) (v acc ep ef : Int) : Int × Int × Int :=
  if order = 2 then
    let v := v + divRound ((t * bp * bp : Nat) * ep) (53 * 53 * 1000) + divRound ((t * wfn : Nat) * ef) (wfd * 1000)
    (v, acc, v + divRound ((1414 * bp : Nat) * ep) 53000)
  else
    -- wp = 20 bp / 1569
    let w := 20 * bp
    let acc := acc + divRound ((t * w * w * w : Nat) * ep) (1569 * 1569 * 1569 * 1000) + divRound ((t * wfn * wfn : Nat) * ef) (wfd * wfd * 1000)
    let v := v + divRound (t * acc) 1000 + divRound ((t * 11 * w * w : Nat) * ep) (1569 * 1569 * 10000)
      + divRound ((t * 1414 * wfn : Nat) * ef) (wfd * 1000000)
    (v, acc, v + divRound ((24 * w : Nat) * ep) 15690)

/-- wf of R197 as a fraction: 4 Bf or Bf / 0.53, Bf in 0.1 Hz. -/
def fllW (order bf : Nat) : Nat × Nat := if order = 1 then (2 * bf, 5) else (10 * bf, 53)

/-- The NCO update of a slot: the code rate in 2^-24 chip/s and the Doppler in 2^-16 Hz. `dopWas` is the Doppler that aids the
code: the one before this update (R197). -/
def ncoWords (v sat : Nat) (codeOut dopWas carrOut : Int) : Nat × Nat :=
  let dop := divRound carrOut 16777216
  let rc : Int := sigRate v
  let aid := divRound (rc * dopWas) (65536 * sigCarrier v sat)
  let rate := rc * 16777216 + aid + divRound codeOut 65536
  ((clamp 0 (2 ^ 48 - 1 : Nat) rate).toNat, ofInt 6 (clamp (-(2 ^ 47 : Nat)) (2 ^ 47 - 1 : Nat) dop))

/-- Firmware submits an NCO update for a slot (R24): for the next edge, or in the guard interval the edge after it. -/
def State.ncoPut (s : State) (n : Nat) (w : Nat × Nat) : State :=
  if s.cpu.guard then { s with cpu := { s.cpu with ncoLater := SMap.set none n (some w) s.cpu.ncoLater } }
  else { s with cpu := { s.cpu with ncoNext := SMap.set none n (some w) s.cpu.ncoNext } }

/-! ### Lock and C/N0 (R200 to R205) -/

/-- Updates of the last `w` ms, or the last four when those span longer (R200). -/
def lastMs (now w : Nat) (l : List LoopSum) : List LoopSum :=
  let a := l.filter fun x => decide (now - x.ms < w)
  if a.length < 4 then l.take 4 else a

/-- Pli in thousandths, whether PLI reaches `thr` thousandths (judged on the sums themselves), and whether it is a free value (no
power in the window). -/
def pliOf (s : State) (l : List LoopSum) (thr : Nat) : Int × Bool × Bool :=
  let a : Int := (l.map (·.p)).sum
  let b : Int := (l.map (·.q)).sum
  if a + b = 0 then (let r := freeWithin s 1000; (r, decide ((thr : Int) ≤ r), true))
  else (divRound (1000 * (a - b)) (a + b), decide (thr * (a + b) ≤ 1000 * (a - b)), false)

/-- Cn0 in 0.1 dB-Hz of the sums of a window with coherent interval `t` ms (R202). -/
def cnoOf (l : List LoopSum) (t : Nat) : Nat :=
  let p := (l.map (·.p)).sum
  let n := (l.map (·.q)).sum
  if p ≤ n then 0 else min 700 (deciBel ((p - n) * 1000) (n * t))

/-- CARRIER_LOCK, Pli and its slip at an update (R200, R203): what `slip` the update brings. -/
def State.pliJudge (s : State) (n : Nat) (prompt : Int × Int) : State × Bool :=
  let ms := s.time.ms
  let e : LoopSum := ⟨ms, (prompt.1 * prompt.1).toNat, (prompt.2 * prompt.2).toNat, 0⟩
  let l := lastMs ms 100 (e :: (s.slot n).pli)
  let r := pliOf s l (s.get (K.trackingProfile_PliThreshold (s.slotSig n)))
  let s := if r.2.2 then s.takeFree else s
  let s := s.setI (K.slot_Pli n) 2 r.1
  let below := !r.2.1
  let low := if below then (s.slot n).low + 1 else 0
  let was := s.lockBit n 1
  let s := s.modSlot n fun x => { x with pli := l, low := low }
  if !below then
    let s := s.putLock n 1 true
    (if s.lockBit n 2 then s.putLock n 2 false else s, false)
  else if was && decide (3 ≤ low) then
    let s := s.putLock n 1 false
    (if s.slotState n = 3 then s.putLock n 2 true else s, true)
  else (s, false)

/-- Cn0 and CODE_LOCK at an update. -/
def State.cnoJudge (s : State) (n t : Nat) (p noise : Nat) : State :=
  let ms := s.time.ms
  let st := s.slotState n
  let v := s.slotSig n
  let all := (⟨ms, p, noise, t⟩ : LoopSum) :: (s.slot n).cno
  let w := if st = 3 ∨ st = 4 then s.get (K.trackingProfile_CnoWindow v) else 100
  let l := if st = 4 ∧ (s.slot n).windowed then all.take 4 else all.filter fun x => decide (ms - x.ms < max w x.t)
  let c := cnoOf (l.filter fun x => x.t == t) t
  let s := (s.set (K.slot_Cn0 n) c).modSlot n fun x => { x with cno := l }
  s.putLock n 0 (decide (s.get (K.trackingProfile_StandaloneThreshold v) ≤ c)
    || (st == 4 && decide (s.get (K.trackingProfile_AidedLossThreshold v) ≤ c)))

/-- The multipath metric (R205): M−, M+ sums and the prompt power of the component. -/
def State.mmJudge (s : State) (n : Nat) (mm : List Int) (prompt : Int × Int) : State :=
  let a : Int := isqrt (pow2 (mm.getD 0 0, mm.getD 1 0) * 2 ^ 40)
  let b : Int := isqrt (pow2 (mm.getD 2 0, mm.getD 3 0) * 2 ^ 40)
  let p : Int := isqrt (pow2 prompt * 2 ^ 40)
  let m := if p = 0 then freeWithin s 1000 else divRound (1000 * (b - a)) p
  let s := if p = 0 then s.takeFree else s
  let ms := s.time.ms
  let l := (ms, m) :: (s.slot n).mm.filter fun x => decide (ms - x.1 < 10000)
  let avg := clamp (-1000) 1000 (divRound ((l.map (·.2)).sum) l.length)
  let high := decide (s.get K.tracking_MultipathLimit < avg.natAbs)
  let was := (s.slot n).mmHigh
  let s := (s.setI (K.slot_MultipathMetric n) 2 avg).modSlot n fun x => { x with mm := l, mmHigh := high }
  if high && !was then s.flag (K.slot_SlotFlags n) 5 (K.slot_MultipathHighEvents n) else s

/-- Shift a slot's replica by `d` in 2^-32 chip: the phase, and the code periods it carries into. -/
def State.codeShift (s : State) (n : Nat) (d : Int) : State :=
  let v := s.slotSig n
  let full : Int := (sigChips v * 2 ^ 32 : Nat)
  let p := (s.get (K.slot_CodePhase n) : Int) + d
  let k := p.fdiv full
  let sec := ((s.get (K.slot_SecondaryIndex n) : Int) + k).emod (sigSecondary v (s.slotSat n) : Nat)
  ((s.set (K.slot_CodePhase n) (p.fmod full).toNat).set (K.slot_SecondaryIndex n) sec.toNat).modSlot n fun x =>
    { x with periods := x.periods + k }

/-- The bump counters of a BOC slot (R196): a jump of half a chip toward the very tap that stays stronger; whether one
happened. -/
def State.bumpJudge (s : State) (n : Nat) (cs : List (List Int)) : State × Bool :=
  let v := s.slotSig n
  if sigBoc v && (s.slotState n == 3 || s.slotState n == 4) then
    let p := tapPower cs 2
    let x := s.slot n
    let e := if p < tapPower cs 0 then x.bumpE + 1 else x.bumpE - 1
    let l := if p < tapPower cs 4 then x.bumpL + 1 else x.bumpL - 1
    if 16 ≤ e ∨ 16 ≤ l then
      let s := (s.codeShift n (if 16 ≤ e then (2 ^ 31 : Nat) else -(2 ^ 31 : Nat))).flag (K.slot_SlotFlags n) 2 (K.slot_BumpJumps n)
      (s.modSlot n fun x => { x with bumpE := 0, bumpL := 0 }, true)
    else (s.modSlot n fun x => { x with bumpE := e, bumpL := l }, false)
  else (s, false)

/-! ### Transitions (R192, R210, R222, R223) -/

/-- A transition is decided for the next edge; a release already decided stands. -/
def State.decide_ (s : State) (n toward cause : Nat) : State :=
  s.modSlot n fun x => if x.release then x else { x with next := some (toward, cause) }

/-- Where a slot in AIDED goes when aiding becomes unavailable (R192, R210): TRACK or LOST, by its Cn0. -/
def fallbackTo (s : State) (n : Nat) : Nat :=
  if s.get (K.trackingProfile_StandaloneThreshold (s.slotSig n)) ≤ s.get (K.slot_Cn0 n) then 3 else 5

/-- Aiding has become unavailable to a slot in AIDED for which no transition is decided (R210). -/
def State.fallback (s : State) (n : Nat) : State :=
  if (s.slot n).next.isSome then s
  else (s.flag (K.slot_SlotFlags n) 4 (K.slot_AidedFallbacks n)).decide_ n (fallbackTo s n) 0

/-- Every slot at a tick edge, `d` after the last one: NCO_UPDATE_APPLY. -/
def State.slotsTick (s : State) (d : Nat) : State :=
  let s := (s.slotsWhere fun v => decide (1 ≤ v ∧ v ≤ 5)).foldl (fun s n => s.slotTick n d) s
  let s := (s.slots.map (·.1)).foldl (fun s n => s.keptTick n d) s
  let s := { s with cpu := { s.cpu with ncoNext := s.cpu.ncoLater, ncoLater := [] } }
  let s := if lakeHeld s then s else (s.slotsWhere fun v => v == 4).foldl (fun s n => s.fallback n) s
  s.crossTick

/-- The condition of a dwell holds or not: since which age it does. -/
def dwellSince (c : Bool) (age : Nat) (o : Option Nat) : Option Nat := if c then some (o.getD age) else none
/-- The dwell has passed. -/
def dwellDone (age d : Nat) (o : Option Nat) : Bool := match o with | some a => decide (a + d ≤ age) | none => false

/-- The row of R192 that an update meets. -/
def State.slotJudge (s : State) (n : Nat) : State :=
  let v := s.slotSig n
  let st := s.slotState n
  let c := s.get (K.slot_Cn0 n)
  let thr := s.get (K.trackingProfile_StandaloneThreshold v)
  let x := s.slot n
  match st with
  | 2 =>
    let g := dwellSince (s.lockBit n 1 && decide (thr ≤ c)) x.age x.goodAt
    let s := s.modSlot n fun x => { x with goodAt := g }
    if dwellDone x.age (s.get K.tracking_PullInDwell) g && decide (s.get (K.trackingProfile_PullInFllTime v) ≤ x.age) then
      s.decide_ n 3 0 else s
  | 3 =>
    if c < thr then
      if aiding s n then (s.modSlot n fun x => { x with badAt := none }).decide_ n 4 0
      else
        let b := dwellSince true x.age x.badAt
        let s := s.modSlot n fun x => { x with badAt := b }
        if dwellDone x.age (s.get (K.trackingProfile_LossDwell v)) b then s.decide_ n 5 0 else s
    else s.modSlot n fun x => { x with badAt := none }
  | 4 =>
    -- what ends LAKE_HELD makes every AIDED slot fall back together, at the tick edge (R225)
    if !lakeHeld s then s
    else if !aiding s n then s.fallback n
    else
      let g := dwellSince (decide (s.get (K.trackingProfile_AidedExitThreshold v) ≤ c)) x.age x.goodAt
      let b := dwellSince (decide (c < s.get (K.trackingProfile_AidedLossThreshold v))) x.age x.badAt
      let s := s.modSlot n fun x => { x with goodAt := g, badAt := b }
      if dwellDone x.age (s.get K.tracking_AidedExitDwell) g then s.decide_ n 3 0
      else if dwellDone x.age (s.get K.tracking_AidedLossDwell) b then s.decide_ n 5 0
      else s
  | 5 =>
    let full := decide (100 ≤ x.age)
    if full && decide (thr + 30 ≤ c) then s.decide_ n 2 0 else s
  | _ => s

/-! ### Symbol timing (R230 to R232) -/

/-- The transition histogram takes in the prompt sign of code period `per` (R231). A position handed off is verified by the
position it accepts. -/
def State.histSee (s : State) (n : Nat) (per : Int) (positive : Bool) : State :=
  let len := sigHistogram (s.slotSig n) (s.slotSat n)
  let x := s.slot n
  if len = 0 || (s.lockBit n 4 && !x.symKnown) then s
  else
    let pos := (perIdx s n per).toNat % len
    let h := match x.histSign with
      | some (b, p) => if p + 1 ≠ per ∨ b = positive then x.hist else SMap.set 0 pos (SMap.get 0 pos x.hist + 1) x.hist
      | none => x.hist
    let s := s.modSlot n fun x => { x with hist := h, histSign := some (positive, per) }
    let total := (h.map (·.2)).sum
    let top := maxOn (fun e : Nat × Nat => e.2) (0, 0) h
    let next := ((h.filter fun e => e.1 != top.1).map (·.2)).foldl max 0
    if decide (50 ≤ total) && decide (total ≤ 2 * top.2) && decide (4 * next ≤ top.2) then
      -- symbols begin at the position that holds the transitions
      let s := if top.1 = 0 then s else s.navUnsync n
      let i := s.get (K.slot_SecondaryIndex n)
      ((s.putLock n 4 true).set (K.slot_SecondaryIndex n) ((i + len - top.1) % len)).modSlot n fun x => { x with symKnown := false }
    else s

/-- The correlation of prompt signs, true for positive, with a secondary code from chip `k` on. -/
def secCorr (v sat : Nat) (pilot : Bool) (k : Int) (signs : List Bool) : Int :=
  ((List.zip (List.range signs.length) signs).map fun e => (if e.2 then 1 else -1) * secSign v sat pilot (k + e.1)).sum

/-- The phase at which a period of signs correlates best, the lowest of equals, and the magnitude there. -/
def secBest (v sat : Nat) (pilot : Bool) (signs : List Bool) : Nat × Nat :=
  maxOn (fun e : Nat × Nat => e.2) (0, 0)
    ((List.range (secLen v sat pilot)).map fun k => (k, (secCorr v sat pilot k signs).natAbs))

/-- A period of the loop component's secondary code is complete: its signs from code period `per` on (R232). -/
def State.secSee (s : State) (n : Nat) (per : Int) (signs : List Bool) : State :=
  let v := s.slotSig n
  let sat := s.slotSat n
  let pilot := sigPilot v
  let len := secLen v sat pilot
  let x := s.slot n
  if x.secKnown then
    -- the handed-off phase is verified: two periods that pass on end settle it, two that fail clear the bit
    if 8 * len ≤ 10 * (secCorr v sat pilot (perIdx s n per) signs).natAbs then
      s.modSlot n fun x => { x with secFails := 0, secGood := x.secGood + 1, secKnown := decide (x.secGood = 0) }
    else if x.secFails = 0 then s.modSlot n fun x => { x with secFails := 1, secGood := 0 }
    else
      let s := (s.putLock n 5 false).putLock n 4 (s.lockBit n 4 && !(sigNamed v sat).1)
      (s.navUnsync n).modSlot n fun x => { x with secKnown := false, symKnown := false }
  else if s.lockBit n 5 then s
  else
    let b := secBest v sat pilot signs
    let at0 := ((b.1 : Int) - per).emod len
    if 10 * b.2 < 8 * len then s.modSlot n fun x => { x with secPhase := none }
    else if x.secPhase = some at0.toNat then
      let s := (s.putLock n 5 true).set (K.slot_SecondaryIndex n) ((at0 + x.periods).emod len).toNat
      if v = 6 then s.putLock n 4 true else s
    else s.modSlot n fun x => { x with secPhase := some at0.toNat }

/-- A period of the data component's own code is complete, on a signal whose loops run on the pilot: its phase is sought in the
same way, and SYMBOL_SYNC follows SECONDARY_SYNC (R230). -/
def State.dataSee (s : State) (n : Nat) (per : Int) (signs : List Bool) : State :=
  let v := s.slotSig n
  let sat := s.slotSat n
  let len := secLen v sat false
  if s.lockBit n 4 then s
  else
    let b := secBest v sat false signs
    let at0 := ((b.1 : Int) - per).emod len
    if 10 * b.2 < 8 * len then s.modSlot n fun x => { x with dPhase := none }
    else if (s.slot n).dPhase = some at0.toNat then (s.putLock n 4 true).modSlot n fun x => { x with symPhase := at0.toNat }
    else s.modSlot n fun x => { x with dPhase := some at0.toNat }

/-- One more sign of a code of `len` chips: the signs of the period in progress with its first code period, and the period that is
complete. A missing dump begins the period again. -/
def signTake (len : Nat) (per : Int) (positive : Bool) (l : List Bool) (first : Int) : List Bool × Int × Option (List Bool) :=
  let go := !l.isEmpty && decide (first + l.length = per)
  let l := if go then l ++ [positive] else [positive]
  let first := if go then first else per
  if l.length = len then ([], first, some l) else (l, first, none)

/-- The code period within its symbol: 0 where a symbol begins. -/
def symPos (s : State) (n : Nat) (per : Int) : Nat :=
  let v := s.slotSig n
  let m := sigSymbol v (s.slotSat n) / sigPeriod v
  if 1 < secLen v (s.slotSat n) false ∧ sigPilot v = true then ((((s.slot n).symPhase : Int) + per).emod m).toNat
  else ((perIdx s n per).emod m).toNat

/-- The chip of the secondary code that covers a code period of the pilot or of the data component. -/
def chipAt (s : State) (n : Nat) (pilot : Bool) (per : Int) : Int :=
  let v := s.slotSig n
  let sat := s.slotSat n
  if !pilot && sigPilot v then secSign v sat false ((s.slot n).symPhase + per) else secSign v sat pilot (perIdx s n per)

/-- What a dump brings to symbol timing, in PULL_IN and TRACK (R230). A dump that carries COAST, BAD or CAL brings no sign. -/
def State.syncSee (s : State) (n : Nat) (e : Dump) : State :=
  let v := s.slotSig n
  let sat := s.slotSat n
  let st := s.slotState n
  if (st = 2 ∨ st = 3) ∧ (e.coast || e.bad || e.cal) = false then
    let s := if sigByEpoch v && !s.lockBit n 4 then s.putLock n 4 true else s
    let dataP := decide (0 ≤ (tap e.data 2).1)
    let leadP := if sigPilot v then decide (0 ≤ (tap e.pilot 2).1) else dataP
    let s := if sigPeriod v = 1 then s.histSee n e.per dataP else s
    let pilot := sigPilot v
    let s := if secLen v sat pilot = 1 then s
      else
        let x := s.slot n
        let r := signTake (secLen v sat pilot) e.per leadP x.signs x.signPer
        let s := s.modSlot n fun x => { x with signs := r.1, signPer := r.2.1 }
        match r.2.2 with | some l => s.secSee n r.2.1 l | none => s
    if pilot && decide (1 < secLen v sat false) && s.lockBit n 5 then
      let x := s.slot n
      let r := signTake (secLen v sat false) e.per dataP x.dsigns x.dsignPer
      let s := s.modSlot n fun x => { x with dsigns := r.1, dsignPer := r.2.1 }
      match r.2.2 with | some l => s.dataSee n r.2.1 l | none => s
    else s
  else s

/-! ### Changes at the tick edge -/

/-- SLOT_STATE_CHANGE (R192): at a tick edge a decided transition takes effect; a QUEUED slot enters PULL_IN. -/
def State.slotChange (s : State) (n : Nat) : State :=
  if decide (n < 512) && s.atEdge && s.slotHeld n then
    match (s.slot n).next with
    | some (0, cause) => s.slotFree n cause
    | some (toward, _) => s.slotEnter n toward true
    | none => if s.slotState n = 1 ∧ (s.slot n).startMs ≤ s.time.ms then s.slotEnter n 2 true else s
  else s

/-- PULL_IN_FAILED (R192): PullInTimeout has passed after entry, and no update of the tick before decided otherwise. -/
def State.pullInFailed (s : State) (n : Nat) : State :=
  if decide (n < 512) && s.atEdge && s.slotState n == 2 && (s.slot n).next.isNone
      && decide (s.get (K.trackingProfile_PullInTimeout (s.slotSig n)) ≤ (s.slot n).age) then s.slotFree n 6 else s

/-- LOST_TIMEOUT (R192, R223): LostHold has passed after entry. -/
def State.lostTimeout (s : State) (n : Nat) : State :=
  if decide (n < 512) && s.atEdge && s.slotState n == 5 && (s.slot n).next.isNone
      && decide (s.get (K.trackingProfile_LostHold (s.slotSig n)) ≤ (s.slot n).age) then s.slotFree n 7 else s

/-- CROSS_CORR_DROP (R214): a slot has matched a stronger one for 1 s without a break. -/
def State.crossDrop (s : State) (n : Nat) : State :=
  if decide (n < 512) && s.atEdge && (s.slotState n == 3 || s.slotState n == 4)
      && ((s.slot n).cross.any fun e => decide (e.2 + 999 ≤ s.time.ms)) then
    (s.flag K.tracking_TrackingFlags 2 K.tracking_CrossCorrDrops).slotFree n 8
  else s

/-- A parity check fails (R211): PARITY, RERUN, and BAD with a second fault when the re-run fails too. -/
def State.parityFault (s : State) (n : Nat) (again : Bool) : State :=
  if decide (n < 512) && s.slotState n != 6 then
    let one (s : State) : State :=
      let ms := s.time.ms
      (s.flag (K.slot_SlotFlags n) 1 (K.slot_ParityFaults n)).modSlot n fun x =>
        { x with parity := (ms :: x.parity.filter fun t => decide (ms - t < 1000)).take 3 }
    let s := (one s).modSlot n fun x => { x with rerun := true }
    -- the BAD record is discarded: the tick counts as one without dumps
    if again then (one s).modSlot n fun x => { x with bad := true } else s
  else s

/-- SLOT_RETIRED (R212): three parity faults within 1 s. -/
def State.slotRetire (s : State) (n : Nat) : State :=
  if decide (n < 512) && s.atEdge && s.slotState n != 6 && decide (3 ≤ (s.slot n).parity.length) then
    let cause := s.get (K.slot_LastFreeCause n)
    let s := (s.slotFree n cause).set (K.slot_SlotState n) 6
    (s.log 0x0203 St.ok (toBytes 2 n)).flag K.tracking_TrackingFlags 0 K.tracking_SlotRetiredEvents
  else s

/-- The correlator self-test at a reset (R213) of a RETIRED slot. -/
def State.slotSelfTest (s : State) (n : Nat) (pass : Bool) : State :=
  if s.slotState n = 6 ∧ pass = true then
    (s.slotFree n 10).modSlot n fun x => { x with parity := [] }
  else s

/-! ### Releases (R193, R32, R35, R154, R220) -/

/-- The key of R193: a slot of lower key is released first. -/
def releaseKey (s : State) (n : Nat) : Nat :=
  let st := s.slotState n
  let g := if st = 5 then 0 else if st = 1 ∨ st = 2 then 1 else 2
  ((g * 4 + s.get (K.slot_Priority n)) * 1024 + s.get (K.slot_Cn0 n)) * 1024 + (1023 - n)

/-- Release `m` slots of lowest priority at a tick edge, with a cause; SLOTS_RELEASED counts each. -/
def State.slotsRelease (s : State) (m cause : Nat) : State :=
  let l := sortBy (fun a b => decide (releaseKey s a ≤ releaseKey s b)) (s.slotsWhere fun v => decide (1 ≤ v ∧ v ≤ 5))
  (l.take m).foldl (fun s n => (s.slotFree n cause).flag K.tracking_TrackingFlags 1 K.tracking_SlotsReleasedCount) s

/-- Release every slot in use beyond SlotsHeldLimit (R35). -/
def State.slotsLimit (s : State) : State :=
  let lim := s.get K.tickBudget_SlotsHeldLimit
  let n := s.slotsInUse
  if lim < n then s.slotsRelease (n - lim) 3 else s

/-- Why a write of SlotCommand is turned away (R220). -/
def State.releaseRefuses (s : State) (n v : Nat) : Option (Nat × List Nat) :=
  if v ≠ 1 then some (St.valueReserved, [])
  else if s.slotState n = 6 then some (St.resourceRetired, [])
  else if s.slotState n = 0 then some (St.notInState, [0, 0x3E])
  else none

/-- RELEASE: the slot goes to FREE at the next tick edge. -/
def State.releaseSlot (s : State) (n : Nat) : State :=
  s.modSlot n fun x => { x with next := some (0, 1), release := true }

/-- Slots of an antenna or of a signal return to FREE at this edge. -/
def State.slotsFreeWhere (s : State) (p : State → Nat → Bool) (cause : Nat) : State :=
  ((s.slotsWhere fun v => decide (1 ≤ v ∧ v ≤ 5)).filter fun n => p s n).foldl (fun s n => s.slotFree n cause) s

/-! ### Profiles (R217) -/

/-- A profile as its values would be after a write: `g` gives the value of a subindex. -/
def profileBad (v : Nat) (g : Nat → Nat) : Bool :=
  let coh := g 0x0D
  let aided := g 0x10
  decide (g 0x05 ≤ g 0x04) || (sigBoc v && decide (32 < g 0x04)) || coh % sigPeriod v != 0 || aided % sigPeriod v != 0
    || (!sigPilot v && decide (sigSymbol v 6 < coh))
    || decide (3000 < g 0x09 * coh) || decide (30000 < g 0x03 * coh) || decide (30000 < g 0x11 * aided)
    || decide (g 0x0F ≤ g 0x14) || decide (g 0x13 < g 0x0F)

/-! ### Resets and steps of Pond time (R224, R226) -/

/-- A slot in AIDED falls back at the edge of a step (R224), where a release that was decided wins (R222). -/
def State.slotsStep (s : State) : State :=
  (s.slotsWhere fun v => v == 4).foldl (fun s n =>
    match (s.slot n).release, (s.slot n).next with
    | true, some (_, cause) => s.slotFree n cause
    | _, _ => (s.flag (K.slot_SlotFlags n) 4 (K.slot_AidedFallbacks n)).slotEnter n (fallbackTo s n) false) s

/-- A slot's context as the correlator array keeps it. -/
def keptOf (s : State) (n : Nat) : SlotKept :=
  let x := s.slot n
  { signal := s.slotSig n, satellite := s.slotSat n, ant := s.slotAnt n, priority := s.get (K.slot_Priority n),
    code := s.get (K.slot_CodePhase n), sec := s.get (K.slot_SecondaryIndex n), doppler := s.get (K.slot_Doppler n),
    carrier := s.get (K.slot_CarrierPhase n), rate := x.codeRate, codeFrac := x.codeFrac, carrFrac := x.carrFrac,
    seq := x.seq, since := s.time.ms }

/-- The contexts the array has kept already. -/
def State.keptAll (s : State) : List (Nat × SlotKept) := s.slots.filterMap fun p => p.2.kept.map fun k => (p.1, k)

/-- The contexts the correlator array keeps at a warm reset or in SLEEP (R226): those whose NCOs run, and those kept already. -/
def State.slotsKeep (s : State) : List (Nat × SlotKept) :=
  s.keptAll ++ ((s.slotsWhere fun v => decide (1 ≤ v ∧ v ≤ 5)).filter fun n =>
    (s.slot n).kept.isNone && decide ((s.slot n).startMs ≤ s.time.ms)).map fun n => (n, keptOf s n)

/-- The array holds its contexts, which coast until firmware restarts. -/
def State.slotsHold (s : State) (l : List (Nat × SlotKept)) : State :=
  l.foldl (fun s p => s.modSlot p.1 fun x => { x with kept := some p.2, seq := p.2.seq }) s

/-- Firmware restarts: a context that has coasted no longer than 1,000 ms resumes into PULL_IN with what the array kept, every
other goes to FREE. -/
def State.slotsResume (s : State) : State :=
  s.keptAll.foldl (fun s p =>
    let n := p.1
    let k := p.2
    let since := s.since k.since
    let was := s.get (K.slot_LastFreeCause n)
    let s := (s.slotFree n 9).modSlot n fun x => { x with parity := [] }
    if 1000 < since then s
    else
      let s := ((s.set (K.slot_SignalId n) k.signal).set (K.slot_Satellite n) k.satellite).set (K.slot_Antenna n) k.ant
      let s := ((s.set (K.slot_Priority n) k.priority).set (K.slot_CodePhase n) k.code).set (K.slot_SecondaryIndex n) k.sec
      let s := (s.set (K.slot_Doppler n) k.doppler).set (K.slot_CarrierPhase n) k.carrier
      let s := (s.set (K.slot_Components n) (b2n (sigPilot k.signal))).set (K.slot_LastFreeCause n) was
      let s := s.modSlot n fun x => { x with codeRate := k.rate, codeFrac := k.codeFrac, carrFrac := k.carrFrac, startMs := s.time.ms,
                                             spacing := spacingOf s k.signal, coasting := true }
      s.slotEnter n 2 true) s

/-! ### Commands -/

/-- DUMP_LATCH (R188). -/
def execDumpLatch (n : Nat) (data pilot mm : List Int) (s : State) : Host.Outcome State Fault Refusal :=
  .next (onlyIf s.inRun s (s.dumpLatch n data pilot mm))
/-- SLOT_STATE_CHANGE (R192). -/
def execSlotStateChange (n : Nat) (s : State) : Host.Outcome State Fault Refusal := .next (onlyIf s.inRun s (s.slotChange n))
/-- PULL_IN_FAILED (R192). -/
def execPullInFailed (n : Nat) (s : State) : Host.Outcome State Fault Refusal := .next (onlyIf s.inRun s (s.pullInFailed n))
/-- LOST_TIMEOUT (R192). -/
def execLostTimeout (n : Nat) (s : State) : Host.Outcome State Fault Refusal := .next (onlyIf s.inRun s (s.lostTimeout n))
/-- PARITY_FAULT (R211). -/
def execParityFault (n : Nat) (again : Bool) (s : State) : Host.Outcome State Fault Refusal :=
  .next (onlyIf s.inRun s (s.parityFault n again))
/-- SLOT_RETIRED (R212). -/
def execSlotRetired (n : Nat) (s : State) : Host.Outcome State Fault Refusal := .next (onlyIf s.inRun s (s.slotRetire n))
/-- CROSS_CORR_DROP (R214). -/
def execCrossCorrDrop (n : Nat) (s : State) : Host.Outcome State Fault Refusal := .next (onlyIf s.inRun s (s.crossDrop n))
/-- HISTOGRAM_RESTART (R231): no position accepted within 10 s of entry to PULL_IN, or of the last restart. -/
def execHistogramRestart (n : Nat) (s : State) : Host.Outcome State Fault Refusal :=
  .next (onlyIf s.inRun s (if decide (n < 512) && s.slotHeld n && sigHistogram (s.slotSig n) (s.slotSat n) != 0 && !s.lockBit n 4
            && decide (10000 ≤ s.since (s.slot n).histAt) then
      s.modSlot n fun x => { x with hist := [], histSign := none, histAt := s.time.ms } else s))

end Sys2Proof.Machine
end

