-- ==== Sys2Proof/Machine/Nav.lean ====
section
/-!
DEFINITION. Navigation data (spec/07, R229 to R256) and UTC (R286 to R288): soft symbols, frame alignment, the message
store, leap seconds, symbols from peers. Codes, decoders and what a message says are in its system's interface specification,
which the spec names and does not give: they are constants of Config.
-/

namespace Sys2Proof.Machine

/-! ### UTC and leap seconds (R286 to R288) -/

/-- UtcValid (R288). -/
def State.utcUpdate (s : State) : State :=
  let src := s.get K.utc_LeapSource
  let at_ := ofTime96 (s.get K.utc_LeapConfirmedAt)
  let stored := src == 3 && decide (s.time.now ≤ at_ + 180 * 86400 * SEC)
  s.setB K.utc_UtcValid (s.timing != 0 && (src == 1 || src == 2 || stored))

/-- The leap second announced takes place (R287). -/
def State.leapApply (s : State) : State :=
  let p := s.get K.utc_LeapPending
  let off := s.getI K.utc_LeapOffset 2 + (if p = 1 then 1 else -1)
  let s := ((s.setI K.utc_LeapOffset 2 off).set K.utc_LeapPending 0).flag K.utc_UtcFlags 0 K.utc_LeapsApplied
  s.log 0x0106 St.ok (toBytes 2 (ofInt 2 off))

/-- LEAP_APPLIED: Pond time has reached LeapAt. -/
def State.leapDue (s : State) : State :=
  if s.get K.utc_LeapPending != 0 && s.timing != 0 && decide (s.get K.utc_LeapAt ≤ s.now96) then s.leapApply.utcUpdate else s

/-- A count from a host or a broadcast: LeapOffset, LeapPending, LeapAt; LEAP_CONFLICT when a count in force disagrees. -/
def State.leapCount (s : State) (source : Nat) (offset : Int) (pending leapAt : Nat) : State :=
  let src := s.get K.utc_LeapSource
  let differs := decide (s.getI K.utc_LeapOffset 2 ≠ offset)
  let s := if (src == 1 || src == 2) && differs && source == 1 then s.flag K.utc_UtcFlags 1 K.utc_LeapConflicts else s
  let s := ((s.setI K.utc_LeapOffset 2 offset).set K.utc_LeapPending pending).set K.utc_LeapAt leapAt
  ((s.set K.utc_LeapSource source).set K.utc_LeapConfirmedAt s.now96).utcUpdate

/-- A broadcast count of a system (R286): the reference system's stands; another's is used until the reference system has
sent one since reset, and a disagreement sets LEAP_CONFLICT. -/
def State.leapBroadcast (s : State) (system : Nat) (offset : Int) (pending leapAt : Nat) : State :=
  let isRef := system == s.get K.steering_ReferenceTimescale
  if isRef then
    let s := s.leapCount 1 offset pending leapAt
    { s with nav := { s.nav with leapRef := true, leapAny := true } }
  else if s.nav.leapRef then
    if s.getI K.utc_LeapOffset 2 = offset then s else s.flag K.utc_UtcFlags 1 K.utc_LeapConflicts
  else
    let s := s.leapCount 1 offset pending leapAt
    { s with nav := { s.nav with leapAny := true } }

/-- The value of HostLeap: 15 bytes. -/
def State.hostLeap (s : State) (b : List Nat) : State :=
  s.leapCount 2 (toInt 2 (field b 0 2)) (byteAt b 2) (field b 3 12)

/-- LeapSource at a reset (R288). -/
def State.leapReset (s : State) : State :=
  let s := s.set K.utc_LeapSource (if s.get K.utc_LeapConfirmedAt = 0 then 0 else 3)
  ({ s with nav := { s.nav with leapRef := false, leapAny := false } }).utcUpdate

/-! ### Transmit times (R259, R260) -/

/-- What is added to a system's time to count it from the R5 epoch without leaps (R259): BeiDou 14 s, GLONASS −3 h and LeapOffset. -/
def sysOffset (s : State) (v : Nat) : Int :=
  match sigSystem v with
  | 2 => (14 * SEC : Nat)
  | 3 => (s.getI K.utc_LeapOffset 2 - 10800) * (SEC : Int)
  | _ => 0

/-- The time a slot's replica has run since the beginning of its present code period, at the last tick edge. -/
def codeTime (s : State) (n : Nat) : Int :=
  let v := s.slotSig n
  ((s.get (K.slot_CodePhase n) * (sigPeriod v * MS) : Nat) : Int).fdiv (sigChips v * 2 ^ 32 : Nat)

/-- The distance of sync words, in the symbols or bits in which positions count (R234, log entry 170). -/
def frameLen (v : Nat) : Nat :=
  [300, 1800, 300, 500, 500, 500, 300, 1800, 600, 1000, 200, 300, 1800, 300, 600, 250].getD v 300
/-- The sync word is sought in decoded bits, two symbols each. -/
def inDecoded (v : Nat) : Bool := v == 2 || v == 13 || v == 15
/-- Code periods of one position of the stream. -/
def posPeriods (v sat : Nat) : Nat := (if inDecoded v then 2 else 1) * (sigSymbol v sat / sigPeriod v)

/-- The longest period whose phase a slot holds, and the phase at the last tick edge (R260): the primary code, the secondary code,
the symbol or the frame. They begin at whole multiples of their length in the system's time. -/
def heldPeriod (s : State) (n : Nat) : Nat × Int :=
  let v := s.slotSig n
  let sat := s.slotSat n
  let x := s.slot n
  let p := sigPeriod v * MS
  let of (len : Nat) (pos : Int) : Nat × Int := (len * p, pos * p + codeTime s n)
  let code := of 1 0
  let sym := if s.lockBit n 4 then of (sigSymbol v sat / sigPeriod v) (symPos s n x.periods) else code
  let sec := if s.lockBit n 5 then of (sigSecondary v sat) (perIdx s n x.periods) else code
  let m := posPeriods v sat
  let frame := match s.get (K.slotNav_FrameState n), x.symAt with
    | 3, some a => of (frameLen v * m) ((x.periods - a - x.framePos * m).emod ((frameLen v * m : Nat) : Int))
    | _, _ => code
  [sym, sec, frame].foldl (fun a b => if a.1 < b.1 then b else a) code

/-- The code period and transmit time that a slot's time of week gives, or, before a message has given it, the candidate nearest to
the transit the ephemeris predicts for the last tick edge (R259, R260). -/
def txReference (s : State) (n : Nat) : Option (Int × Int) :=
  let x := s.slot n
  let v := s.slotSig n
  match x.txRef with
  | some r => some r
  | none =>
    (ephSays s Config.ephTransit v (s.slotSat n) (s.slotAnt n) s.time.t0).map fun transit =>
      let h := heldPeriod s n
      let len : Int := h.1
      let near := (s.time.t0 : Int) - transit - sysOffset s v
      -- the multiple of the period, plus the phase, that lies nearest
      let k := (2 * (near - h.2) + len).fdiv (2 * len)
      (x.periods, k * len + h.2 + sysOffset s v - codeTime s n)

/-- The transmit time of the beginning of a code period of a slot. -/
def txAt (s : State) (n : Nat) (per : Int) : Option Int :=
  (txReference s n).map fun r => r.2 + (per - r.1) * (sigPeriod (s.slotSig n) * MS : Nat)

/-! ### Symbol blocks (R247 to R249) -/

/-- A slot's symbols may be published: SymbolPublish and DecodeEnable allow it, and its frame alignment is confirmed in TRACK. -/
def publishes (s : State) (n : Nat) : Bool :=
  s.nav.publish && bit s.nav.decode (s.slotSig n) && s.slotState n == 3 && s.get (K.slotNav_FrameState n) == 3

/-- A block is formed for publication; it is sent to the subscribers in the same command. -/
def State.publish (s : State) (n kind : Nat) (start : Option Int) (syms : List Bool) : State :=
  match start with
  | some t =>
    if publishes s n && decide (1 ≤ syms.length ∧ syms.length ≤ 4000) && decide (0 ≤ t) then
      { s with nav := { s.nav with blocks := s.nav.blocks ++ [⟨s.slotSig n, s.slotSat n, kind, t.toNat, syms⟩] } }
    else s
  | none => s

/-- A list of bits as a number, the first most significant. -/
def bitsNat (l : List Bool) : Nat := l.foldl (fun a b => 2 * a + b2n b) 0

/-- The payload of a block (R248). -/
def symPayload (b : SymBlock) : List Nat :=
  let c := b.syms.length
  let n := (c + 7) / 8
  [1, b.signal, b.satellite, b.kind] ++ toBytes 12 (toTime96 b.start) ++ toBytes 2 c
    ++ toBytes n (bitsNat b.syms * 2 ^ (8 * n - c))

/-- One received symbol joins those held (R249): its rank and value; whether two of equal rank disagree. -/
def symMerge (rank v : Nat) (old : Nat × Nat) : (Nat × Nat) × Bool :=
  if old.1 < rank then ((rank, v), false)
  else if old.1 = rank ∧ old.2 ≠ v ∧ old.2 ≠ 2 then ((rank, 2), true)
  else (old, false)

/-- The symbols of a block join, from symbol number `k`. -/
def symsJoin : Nat → Nat → Nat → Nat → Nat → SMap (Nat × Nat) → SMap (Nat × Nat) × Nat
  | 0, _, _, _, _, m => (m, 0)
  | c + 1, k, rank, count, bits, m =>
    let v := bits / 2 ^ c % 2
    let r := symMerge rank v (SMap.get (0, 0) k m)
    let t := symsJoin c (k + 1) rank count bits (SMap.set (0, 0) k r.1 m)
    (t.1, t.2 + b2n r.2)

/-- A symbol block arrives (R248, R249). -/
def State.symbolsIn (s : State) (p : List Nat) : State :=
  let v := byteAt p 1
  let sat := byteAt p 2
  let fl := byteAt p 3
  let start := ofTime96 (field p 4 12)
  let count := field p 16 2
  let step := sigSymbol v sat * MS
  let nb := (count + 7) / 8
  if decide (p.length < 18 + nb) || byteAt p 0 != 1 || decide (16 ≤ v) || decide (3 ≤ fl) || start % step != 0
      || count == 0 || decide (4000 < count) then
    s.flag K.navData_NavFlags 4 K.navData_SymbolMismatches
  else
    let bits := field p 18 nb / 2 ^ (8 * nb - count)
    let rank := if fl = 1 then 3 else if fl = 0 then 2 else 1
    let old := (s.nav.peers.find? fun x => x.signal == v && x.satellite == sat).getD ⟨v, sat, [], 0⟩
    let r := symsJoin count (start / step) rank count bits old.syms
    let new : PeerSyms := { old with syms := r.1, lastMs := s.time.ms }
    let s := { s with nav := { s.nav with peers := s.nav.peers.filter (fun x => !(x.signal == v && x.satellite == sat)) ++ [new] } }
    (List.range r.2).foldl (fun s _ => s.flag K.navData_NavFlags 4 K.navData_SymbolMismatches) s

/-- The symbol a peer has sent for symbol number `k` of a signal and satellite (R248, R249): none while it is missing or unknown. -/
def peerSymbol (s : State) (v sat : Nat) (k : Nat) : Option Bool :=
  match s.nav.peers.find? fun x => x.signal == v && x.satellite == sat with
  | some x => match SMap.get (0, 0) k x.syms with | (0, _) => none | (_, 0) => some false | (_, 1) => some true | _ => none
  | none => none

/-- A symbol has arrived, be it one that is unknown. -/
def peerHas (s : State) (v sat : Nat) (k : Nat) : Bool :=
  match s.nav.peers.find? fun x => x.signal == v && x.satellite == sat with
  | some x => (SMap.get (0, 0) k x.syms).1 != 0
  | none => false

/-! ### The message store (R240 to R246) -/

/-- An entry's state beyond its record. -/
def State.storeSt (s : State) (e : Nat) : StoreSt := SMap.get StoreSt.reset e s.nav.store
/-- Change it. -/
def State.modStore (s : State) (e : Nat) (f : StoreSt → StoreSt) : State :=
  { s with nav := { s.nav with store := SMap.set StoreSt.reset e (f (s.storeSt e)) s.nav.store } }

/-- The entry of least key among some, the lowest of equals. -/
def oldest (key : Nat → Nat) (l : List Nat) : Option Nat :=
  l.foldl (fun o e => match o with | none => some e | some f => if key e < key f then some e else some f) none

/-- Where a new entry goes (R245): an EMPTY entry, or the one given up. -/
def storePlace (s : State) : Option Nat :=
  match entries.find? fun e => s.get (K.storeEntry_Kind e) == 0 with
  | some e => some e
  | none =>
    let byState (st : Nat) := oldest (fun e => s.get (K.storeEntry_ReceivedAt e)) (entries.filter fun e => s.get (K.storeEntry_EntryState e) == st)
    match byState 4 with
    | some e => some e
    | none => match byState 5 with
      | some e => some e
      | none => match byState 3 with
        | some e => some e
        | none => oldest (fun e => s.get (K.storeEntry_Reference e)) (entries.filter fun e => s.get (K.storeEntry_Kind e) == 2)

/-- Messages of one family have one layout and join in one entry (R234): the family of a signal. -/
def navFamily (v : Nat) : Nat :=
  [0, 1, 2, 3, 4, 3, 6, 7, 8, 9, 10, 0, 1, 2, 14, 15].getD v v

/-- Two copies are of one transmission (R242, R252): no peer's, by one signal, less than 0.1 s apart (log entry 171). -/
def sameTransmission (a b : StoreCopy) : Bool :=
  !a.peer && !b.peer && a.signal == b.signal && decide (a.at_ < b.at_ + SEC / 10) && decide (b.at_ < a.at_ + SEC / 10)

/-- The parts with one more copy of a constituent message; none when a part of other content is held. -/
def joinPart (l : List StorePart) (p : StorePart) : Option (List StorePart) :=
  match l.find? fun q => q.part == p.part with
  | none => some (insertBy (fun a b => decide (a.part ≤ b.part)) p l)
  | some q =>
    if q.bits = p.bits then
      some (l.map fun x => if x.part = p.part then
        { x with copies := x.copies ++ p.copies.filter fun c => !(x.copies.any fun d => sameTransmission c d) } else x)
    else none

/-- Identical copies of the whole content: the fewest of any part. -/
def copiesOf (parts : Nat) (l : List StorePart) : Nat :=
  if l.length < parts then 0 else (l.map fun x => x.copies.length).foldl min 255

/-- The content of an entry: its messages in order, zero-filled to 192 bytes. -/
def storeContent (l : List StorePart) : Nat :=
  let b := (l.flatMap (·.bits)).take 1536
  bitsNat b * 2 ^ (1536 - b.length)

/-- The first copy of an entry's content. -/
def firstCopy (l : List StorePart) : Option StoreCopy :=
  (l.flatMap (·.copies)).foldl (fun o c => match o with | some d => if c.at_ < d.at_ then some c else some d | none => some c) none

/-- The entry's record shows the content that stands: Content, Reference, FitEnd, and of its first copy SignalId, Source and
ReceivedAt (R241). -/
def State.storeShow (s : State) (e : Nat) : State :=
  let x := s.storeSt e
  let v := s.get (K.storeEntry_SignalId e)
  let kind := s.get (K.storeEntry_Kind e)
  let content := storeContent x.parts
  let t := x.given.getD (toTime96 (Config.entryReference v kind content), toTime96 (Config.entryFitEnd v kind content))
  let s := ((s.set (K.storeEntry_Content e) content).set (K.storeEntry_Reference e) t.1).set (K.storeEntry_FitEnd e) t.2
  match firstCopy x.parts with
  | some c => ((s.set (K.storeEntry_SignalId e) c.signal).set (K.storeEntry_Source e) (b2n c.peer)).set (K.storeEntry_ReceivedAt e) (toTime96 c.at_)
  | none => s

/-- The orbit and clock of an ephemeris entry lie in range (R242.2, R242.3). -/
def orbitOk (v sat content : Nat) : Bool :=
  let nominal := match sigSystem v with
    | 0 => 26560000
    | 1 => 29600000
    | 2 => if Config.ephMeo sat content then 27906000 else 42164000
    | 3 => 25510000
    | _ => 42164000
  let axis := Config.ephAxis v sat content
  decide (95 * nominal ≤ 100 * axis) && decide (100 * axis ≤ 105 * nominal) && decide (Config.ephEcc v sat content ≤ 100000000)
    && decide (Config.ephBias v sat content ≤ 1000000) && decide (Config.ephDrift v sat content ≤ 10000000)

/-- Two ephemerides of a satellite disagree at a Pond time (R242.4): by more than 200 m, or 50 ns. -/
def ephJump (v c w d sat t : Nat) : Bool :=
  let p := Config.ephPosition v sat c t
  let q := Config.ephPosition w sat d t
  let x := p.1 - q.1
  let y := p.2.1 - q.2.1
  let z := p.2.2 - q.2.2
  decide ((200000 : Int) * 200000 < x * x + y * y + z * z)
    || decide (50000 < (Config.ephClock v sat c t - Config.ephClock w sat d t).natAbs)

/-- Identical content came in a separate transmission at least 30 s after the first, or from a peer (R242). -/
def laterCopy (l : List StorePart) : Bool :=
  l.all fun p => p.copies.any fun c => c.peer || p.copies.any fun d => decide (d.at_ + 30 * SEC ≤ c.at_)

/-- An entry becomes VALID: the earlier VALID entry becomes SUPERSEDED, and peers are offered the entry (R243, R246). -/
def State.storeValid (s : State) (e : Nat) (flagsOr : Nat) : State :=
  let kind := s.get (K.storeEntry_Kind e)
  let v := s.get (K.storeEntry_SignalId e)
  let sat := s.get (K.storeEntry_Satellite e)
  let s := (entries.filter fun f => f != e && storeIs s f kind v sat && s.get (K.storeEntry_EntryState f) == 2).foldl
    (fun s f => s.set (K.storeEntry_EntryState f) 3) s
  let s := s.set (K.storeEntry_EntryState e) 2
  let s := s.set (K.storeEntry_EntryFlags e) (Nat.lor (s.get (K.storeEntry_EntryFlags e)) flagsOr)
  let s := s.modStore e fun x => { x with broken := false }
  { s with nav := { s.nav with offers := s.nav.offers ++ [e] } }

/-- A CANDIDATE is judged (R242), or an entry rejected for continuity alone that a later copy may still carry. -/
def State.ephemerisJudge (s : State) (e n : Nat) : State :=
  let v := s.get (K.storeEntry_SignalId e)
  let sat := s.get (K.storeEntry_Satellite e)
  let x := s.storeSt e
  let content := storeContent x.parts
  if decide (n < 2) && s.nav.confirm == 1 then s
  else
    let reject (s : State) (b : Bool) : State :=
      if s.get (K.storeEntry_EntryState e) = 5 then s
      else ((s.set (K.storeEntry_EntryState e) 5).flag K.navData_NavFlags 2 K.navData_EphRejected).modStore e fun x => { x with broken := b }
    if !orbitOk v sat content then reject s false
    else
      let at_ := ofTime96 (s.get (K.storeEntry_Reference e))
      let prior := entries.find? fun f => f != e && storeIs s f 1 v sat && s.get (K.storeEntry_EntryState f) == 2
      let jump := match prior with
        | some f => ephJump v content (s.get (K.storeEntry_SignalId f)) (s.get (K.storeEntry_Content f)) sat at_
        | none => false
      if jump && !laterCopy x.parts then reject s true
      else s.storeValid e (b2n (Config.ephUnhealthy v sat content) + 2 * b2n jump)

/-- Judge an entry after a copy (R242, R244): the content that has first reached two copies stands alone, and the record shows
what stands; a complete entry is a CANDIDATE, and one of no ephemeris is VALID at once. -/
def State.storeJudge (s : State) (e : Nat) : State :=
  let st := s.get (K.storeEntry_EntryState e)
  let kind := s.get (K.storeEntry_Kind e)
  let parts := Config.navParts (s.get (K.storeEntry_SignalId e)) kind
  let settled := st == 2 || st == 3 || st == 4
  let s := if settled then s
    else
      let x := s.storeSt e
      if 2 ≤ copiesOf parts x.parts then s.modStore e fun x => { x with rival := [] }
      else if 2 ≤ copiesOf parts x.rival then s.modStore e fun x => { x with parts := x.rival, rival := [], given := none }
      else s
  let n := copiesOf parts (s.storeSt e).parts
  let s := (if settled then s else s.storeShow e).set (K.storeEntry_Confirmations e) n
  if settled ∨ n = 0 then s
  else
    let s := if st = 0 then s.set (K.storeEntry_EntryState e) 1 else s
    if kind ≠ 1 then s.storeValid e 0 else s.ephemerisJudge e n

/-- An entry a message joins (R241): of its kind, family, satellite and issue of data, in use, or rejected for continuity alone. -/
def storeJoins (s : State) (v kind sat issue : Nat) : Option Nat :=
  entries.find? fun e =>
    let st := s.get (K.storeEntry_EntryState e)
    storeIs s e kind v sat && navFamily (s.get (K.storeEntry_SignalId e)) == navFamily v && s.get (K.storeEntry_IssueOfData e) == issue
      && st != 4 && (st != 5 || (s.storeSt e).broken)

/-- A constituent message joins the store (R241 to R245): as a copy of what an entry holds, as a conflicting copy, which is held
beside it (R244), or in a new entry, whose Reference and FitEnd `given` gives when a peer's frame brings them. -/
def State.storePart (s : State) (v kind sat issue : Nat) (new : StorePart) (given : Option (Nat × Nat)) : State :=
  match storeJoins s v kind sat issue with
  | some e =>
    let x := s.storeSt e
    match joinPart x.parts new with
    | some l => (s.modStore e fun x => { x with parts := l }).storeJudge e
    | none =>
      let base := x.parts.filter fun q => q.part != new.part
      match joinPart (if x.rival.isEmpty then base else x.rival) new with
      | some l =>
        let held := x.rival.any fun q => q.part == new.part
        let s := if held then s
          else (s.flag K.navData_NavFlags 1 K.navData_Conflicts).set (K.storeEntry_EntryFlags e) (Nat.lor (s.get (K.storeEntry_EntryFlags e)) 4)
        (s.modStore e fun x => { x with rival := l }).storeJudge e
      -- a third content finds two held
      | none => s.flag K.navData_NavFlags 1 K.navData_Conflicts
  | none =>
    match storePlace s with
    | none => s.flag K.navData_NavFlags 5 K.navData_StoreFullEvents
    | some e =>
      let s := (List.range 12).foldl (fun s i => s.set (K.storeEntry_Kind e + i) 0) s
      let s := ((s.set (K.storeEntry_Kind e) kind).set (K.storeEntry_SignalId e) v).set (K.storeEntry_Satellite e) sat
      let s := s.set (K.storeEntry_IssueOfData e) issue
      (s.modStore e fun _ => ⟨[new], [], given, false⟩).storeJudge e

/-- A checked message goes to the store (R240, R241), if it belongs to an entry. -/
def State.storeMessage (s : State) (v sat at_ : Nat) (bits : List Bool) : State :=
  let m := Config.navEntry v sat bits
  if m.1 = 0 ∨ 4 < m.1 then s
  else s.storePart v m.1 m.2.1 m.2.2.1 ⟨m.2.2.2, bits, [⟨v, at_, false⟩]⟩ none

/-- A peer's entry joins the store (R246): every constituent message of its content is a peer copy. -/
def State.storePeer (s : State) (v kind sat issue : Nat) (content : Nat) (given : Nat × Nat) : State :=
  if kind = 0 ∨ 4 < kind then s
  else (Config.entrySplit v kind content).foldl (fun s p => s.storePart v kind sat issue ⟨p.1, p.2, [⟨v, s.time.now, true⟩]⟩ (some given)) s

/-- EPHEMERIS_EXPIRED (R242): a store entry reaches FitEnd; judged only from the first step. -/
def State.storeExpire (s : State) (e : Nat) : State :=
  let st := s.get (K.storeEntry_EntryState e)
  if decide (e < 256) && s.timing != 0 && s.get (K.storeEntry_Kind e) == 1 && (st == 2 || st == 3)
      && decide (s.get (K.storeEntry_FitEnd e) ≤ s.now96) then s.set (K.storeEntry_EntryState e) 4
  else s

/-! ### Messages of a slot -/

/-- The NavMessageStream entry of a message (R240). -/
def navBody (i : NavIn) : List Nat :=
  let t := toTime96 i.rxAt
  let nbits := min 600 i.bits.length
  let w := (nbits + 23) / 24
  let b := bitsNat (i.bits.take 600) * 2 ^ (24 * w - nbits)
  [i.slot * 2 ^ 15 + i.signal * 2 ^ 11 + i.ant * 2 ^ 10 + b2n i.inverted * 2 ^ 9, i.satellite * 2 ^ 16]
    ++ (List.range 4).map (fun k => t / 2 ^ (24 * (3 - k)) % 2 ^ 24) ++ [nbits * 2 ^ 12]
    ++ (List.range w).map fun k => b / 2 ^ (24 * (w - 1 - k)) % 2 ^ 24

/-- A checked message of a slot: counted, its time of week taken (`per` is the code period in which its sync word began), and on its
way to the store and to peers. -/
def State.messageIn (s : State) (n : Nat) (per : Int) (inverted : Bool) (bits : List Bool) (rxAt : Nat) : State :=
  let v := s.slotSig n
  let sat := s.slotSat n
  let s := (s.count (K.slotNav_FramesChecked n) 4).set (K.slotNav_LastMessageAt n) (toTime96 rxAt)
  let s := match Config.navTime v sat bits with
    | some t => s.modSlot n fun x => { x with txRef := some (per, t + sysOffset s v) }
    | none => s
  let start := ((s.slot n).txRef).map fun r => r.2 + (per - r.1) * (sigPeriod v * MS : Nat)
  let i : NavIn := { slot := n, signal := v, satellite := sat, ant := s.slotAnt n, inverted := inverted, rxAt := rxAt, bits := bits,
                     start := start }
  { s with nav := { s.nav with checked := s.nav.checked ++ [i] } }

/-- A checked message enters the store and the stream (R240, R247); what it says of UTC is taken (R286). -/
def State.messageStore (s : State) (i : NavIn) : State :=
  let v := i.signal
  let s := s.count K.navData_MessagesDecoded 4
  let s := s.append 0x5001 0x03 (navBody i)
  let s := s.storeMessage v i.satellite i.rxAt i.bits
  let s := match Config.navLeap v i.bits with
    | some l => s.leapBroadcast (sigSystem v) l.1 l.2.1 (toTime96 l.2.2)
    | none => s
  let s := match Config.navFraction v i.bits with
    | some f => if sigSystem v = s.get K.steering_ReferenceTimescale then s.setI K.utc_UtcFraction 8 f else s
    | none => s
  s.publish i.slot 1 i.start (Config.navSymbols v i.satellite i.bits)

/-- The messages checked in a tick enter the store in the order of their slots (R252). -/
def State.storeFlush (s : State) : State :=
  let l := sortBy (fun a b : NavIn => decide (a.slot ≤ b.slot)) s.nav.checked
  l.foldl (fun s i => s.messageStore i) { s with nav := { s.nav with checked := [] } }

/-! ### Frame alignment (R234 to R238) -/

/-- The bits of a number, most significant first. -/
def natBits (n v : Nat) : List Bool := (List.range n).map fun i => bit v (n - 1 - i)

/-- The sync words of a signal's message (R234); none where the frame begins with the pilot's secondary period. -/
def syncWords (v : Nat) : List (List Bool) :=
  match v with
  | 0 | 2 | 11 | 13 => [natBits 8 0b10001011]
  | 3 | 5 => [natBits 10 0b0101100000]
  | 4 => [natBits 12 0b101101110000]
  | 6 => [natBits 11 0b11100010010]
  | 8 => [natBits 24 0xE24DE8]
  | 9 | 14 => [natBits 16 0xEB90]
  | 10 => [(List.range 30).map Config.glonassMark]
  | 15 => [natBits 8 0x53, natBits 8 0x9A, natBits 8 0xC6]
  | _ => []
/-- Their length. -/
def syncLen (v : Nat) : Nat := match syncWords v with | l :: _ => l.length | [] => 0

/-- The checks of a family in order (R235, R239): the decoder each uses, none where the CRC is taken of bits already decoded; where
its block begins and ends, from the sync word on. LDPC follows BCH once that has passed. -/
def navStages (v : Nat) : List (Option Nat × Int × Nat) :=
  match v with
  | 0 | 11 => [(some 4, -2, 30), (some 4, 28, 60), (some 4, -2, 300)]
  | 6 => [(some 2, 0, 60), (some 2, 0, 300)]
  | 1 | 7 | 12 => [(some 2, 0, 1800)]
  | 2 | 13 | 15 => [(none, 0, frameLen v)]
  | 8 | 9 => [(some 1, 0, frameLen v)]
  | 10 => [(some 3, 0, 200)]
  | _ => [(some 0, 0, frameLen v)]
/-- BCH on subframe 1, then LDPC and CRC. -/
def bchFirst (v : Nat) : Bool := v == 1 || v == 7 || v == 12
/-- The check that accepts a candidate (R235): TLM and HOW, words 1 and 2, or the first whole message, which is the last check. -/
def acceptStage (v : Nat) : Nat := if v == 0 || v == 11 || bchFirst v then 1 else 0
/-- The check of the whole message. -/
def lastStage (v : Nat) : Nat := if v == 0 || v == 11 then 2 else if v == 6 || bchFirst v then 1 else 0

/-- The sync word at a position of the stream: its polarity when one is there (true for inverted), and which word it is. -/
def syncWord (x : SlotSt) (v pos : Nat) : Option (Bool × Nat) :=
  let l := ((x.soft.drop (pos - x.softAt)).take (syncLen v)).map fun y => decide (y.v < 0)
  if pos < x.softAt then none
  else match (syncWords v).findIdx? fun w => w == l, (syncWords v).findIdx? fun w => w == l.map not with
    | some k, _ => some (false, k)
    | none, some k => some (true, k)
    | none, none => none

/-- Sync words follow each other in rotation (R234): the one at `pos` comes next after the one a frame before. -/
def inRotation (x : SlotSt) (v pos : Nat) : Bool :=
  let len := (syncWords v).length
  match syncWord x v (pos - frameLen v), syncWord x v pos with
  | some a, some b => len ≤ 1 || (a.2 + 1) % len == b.2
  | _, _ => true

/-- FrameState. -/
def State.frameState (s : State) (n : Nat) : Nat := s.get (K.slotNav_FrameState n)

/-- Candidates and FrameState as the pending candidates give them. -/
def State.candShow (s : State) (n : Nat) : State :=
  let l := (s.slot n).cands
  let s := s.set (K.slotNav_Candidates n) l.length
  if s.frameState n = 3 then s else s.set (K.slotNav_FrameState n) (if l.any fun c => c.accepted then 2 else 1)

/-- A candidate is discarded (R236). -/
def State.candDrop (s : State) (n pos : Nat) : State :=
  let s := s.modSlot n fun x => { x with cands := x.cands.filter fun c => c.pos != pos }
  (s.bump K.navData_FalsePreambles 2).candShow n

/-- Frame alignment is lost: the slot returns to the candidate search (R237). -/
def State.frameLose (s : State) (n : Nat) : State :=
  ((s.modSlot n fun x => { x with failRun := 0, missRun := 0, cands := [] }).set (K.slotNav_FrameState n) 1).candShow n

/-- A frame of an aligned slot fails its check (R237). -/
def State.frameFail (s : State) (n : Nat) : State :=
  let s := (s.flag K.navData_NavFlags 0 K.navData_CrcFailures).bump (K.slotNav_FramesFailed n) 2
  let k := (s.slot n).failRun + 1
  if 3 ≤ k then s.frameLose n else s.modSlot n fun x => { x with failRun := k }

/-- The code period in which a position of a slot's stream began. -/
def posPer (s : State) (n pos : Nat) : Int := (s.slot n).symAt.getD 0 + pos * posPeriods (s.slotSig n) (s.slotSat n)

/-- Alignment is confirmed by the sync word at `pos` (R235, R238); the provisional message enters the store. -/
def State.frameConfirm (s : State) (n : Nat) (c : NavCand) (pos : Nat) : State :=
  let s := s.modSlot n fun x => { x with cands := [], failRun := 0, missRun := 0, framePos := pos }
  let s := ((s.set (K.slotNav_FrameState n) 3).set (K.slotNav_Polarity n) (if c.inverted then 2 else 1)).candShow n
  let s := if sigPilot (s.slotSig n) then s else s.putLock n 3 true
  let s := if c.inverted then s.setI (K.slot_CarrierPhase n) 8 (s.getI (K.slot_CarrierPhase n) 8 + 32768) else s
  match c.prov with | some m => s.messageIn n (posPer s n c.pos) c.inverted m.1 m.2 | none => s

/-- A candidate passes its first check: it confirms the accepted candidate one frame before it in the same polarity (R235). -/
def State.candFirst (s : State) (n pos : Nat) (inverted : Bool) : State :=
  let v := s.slotSig n
  match (s.slot n).cands.find? fun d => d.accepted && d.pos + frameLen v == pos && d.inverted == inverted && inRotation (s.slot n) v pos with
  | some d => s.frameConfirm n d pos
  | none => s

/-- A candidate of a slot changes. -/
def State.candMod (s : State) (n pos : Nat) (f : NavCand → NavCand) : State :=
  (s.modSlot n fun x => { x with cands := x.cands.map fun d => if d.pos = pos then f d else d }).candShow n

/-- A check of a slot's message ends: check `stage` of the frame whose sync word is at `pos`; its bits when it passes. -/
def State.checkEnd (s : State) (n stage pos : Nat) (inverted : Bool) (got : Option (List Bool)) (at_ : Nat) : State :=
  let v := s.slotSig n
  let whole := stage == lastStage v
  let aligned := s.frameState n == 3
  let pending := (s.slot n).cands.any fun c => c.pos == pos
  if aligned then
    if pos % frameLen v ≠ (s.slot n).framePos % frameLen v then s
    else match got with
      | some b => if whole then (s.modSlot n fun x => { x with failRun := 0 }).messageIn n (posPer s n pos) inverted b at_ else s
      | none => if whole ∨ bchFirst v = true then s.frameFail n else s
  else if !pending then s
  else match got with
    | none => s.candDrop n pos
    | some b =>
      let s := if whole then s.candMod n pos fun c => { c with prov := some (b, at_) } else s
      let s := if stage = 0 then s.candFirst n pos inverted else s
      if s.frameState n = 3 then (if whole then s.messageIn n (posPer s n pos) inverted b at_ else s)
      else if stage = acceptStage v then s.candMod n pos fun c => { c with accepted := true }
      else s

/-- A block joins its decoder's queue of 64; at a full queue it is discarded and its check counts as failed (R239). -/
def State.jobPut (s : State) (d : Nat) (j : NavJob) : State :=
  if 64 ≤ (s.nav.queue.getD d []).length then
    let s := s.flag K.navData_NavFlags 3 K.navData_DecoderOverflows
    match j.stage with
    | some st => s.checkEnd j.slot st j.pos j.inverted none j.at_
    | none => s
  else { s with nav := { s.nav with queue := vecMod s.nav.queue d fun q => q ++ [j] } }

/-- The pilot's secondary period, with which a frame begins, starts with a code period (R234). -/
def frameStart (s : State) (n : Nat) (per : Int) : Bool :=
  bchFirst (s.slotSig n) && s.lockBit n 5 && perIdx s n per == 0

/-- Soft values of the stream from a position on, zero before its beginning, in NORMAL polarity. -/
def softBlock (x : SlotSt) (pos : Nat) (from_ : Int) (to_ : Nat) (inverted : Bool) : List Int :=
  (List.range (to_ - from_).toNat).map fun i =>
    let p : Int := pos + from_ + i - x.softAt
    let w := if p < 0 then 0 else ((x.soft.getD p.toNat ⟨0, 0⟩).v)
    if inverted then -w else w

/-- Check `i` of the frame at `pos` is due: its block goes to its decoder, or the check is taken of the decoded bits. -/
def State.checkBegin (s : State) (n i pos : Nat) (inverted : Bool) : State :=
  let v := s.slotSig n
  match (navStages v)[i]? with
  | none => s
  | some (d, from_, to_) =>
    let x := s.slot n
    let block := softBlock x pos from_ to_ inverted
    let at_ := match x.soft.getLast? with | some y => y.at_ | none => s.time.now
    match d with
    | some d => s.jobPut d ⟨n, some i, pos, inverted, block, at_⟩
    | none => s.checkEnd n i pos inverted (Config.navCheck v (s.slotSat n) i block) at_

/-- A match opens a candidate; a fifth replaces the oldest (R236). -/
def State.candOpen (s : State) (n pos : Nat) (inverted : Bool) : State :=
  (s.modSlot n fun x =>
    let l := if 4 ≤ x.cands.length then x.cands.drop 1 else x.cands
    { x with cands := l ++ [⟨pos, inverted, false, none⟩] }).candShow n

/-- An aligned slot's stream has reached position `p` (R237, R238): a frame that is whole is checked, in the polarity its sync word
shows; at the expected sync word the frame in place moves on, and Polarity is judged again or a missing word counted. -/
def State.alignedSee (s : State) (n p : Nat) : State :=
  let v := s.slotSig n
  let x := s.slot n
  let inv := match syncWord x v x.framePos with | some b => b.1 | none => s.get (K.slotNav_Polarity n) == 2
  let s := if p = x.framePos + frameLen v ∧ x.softAt ≤ x.framePos then
      s.checkBegin n (if bchFirst v then 0 else lastStage v) x.framePos inv else s
  let next := x.framePos + frameLen v
  if s.frameState n = 3 ∧ next + syncLen v ≤ p then
    let s := s.modSlot n fun x => { x with framePos := next }
    if bchFirst v then s
    else match syncWord x v next, inRotation x v next with
      | some b, true =>
        let s := s.modSlot n fun x => { x with missRun := 0 }
        if s.get (K.slotNav_Polarity n) = 0 then s.set (K.slotNav_Polarity n) (if b.1 then 2 else 1) else s
      | _, _ =>
        let k := (s.slot n).missRun + 1
        if 3 ≤ k then s.frameLose n else s.modSlot n fun x => { x with missRun := k }
  else s

/-- A slot in the candidate search whose stream has reached position `p` (R235, R236): the checks that are due, the candidates whose
expected sync word has not appeared, and a new match. `start` says that the pilot's secondary period begins after it. -/
def State.searchSee (s : State) (n p : Nat) (start : Bool) : State :=
  let v := s.slotSig n
  let len := syncLen v
  let inv := (s.slot n).cands.map fun c => (c.pos, c.inverted)
  let s := inv.foldl (fun s c =>
    (List.range (navStages v).length).foldl (fun s i =>
      match (navStages v)[i]? with
      | some (_, _, to_) => if p = c.1 + to_ then s.checkBegin n i c.1 c.2 else s
      | none => s) s) s
  if s.frameState n = 3 then s
  else
    let s := if bchFirst v then (if start then s.candOpen n p false else s)
      else if len ≤ p then (match syncWord (s.slot n) v (p - len) with | some b => s.candOpen n (p - len) b.1 | none => s)
      else s
    let gone := (s.slot n).cands.filter fun c => c.pos + frameLen v + len == p
      && !(inRotation (s.slot n) v (c.pos + frameLen v)
        && (s.slot n).cands.any fun d => d.pos == c.pos + frameLen v && d.inverted == c.inverted)
    if bchFirst v then s else gone.foldl (fun s c => s.candDrop n c.pos) s

/-- One more soft value of the stream in which a slot's sync word is sought. -/
def State.streamSee (s : State) (n : Nat) (y : SoftSym) (start : Bool) : State :=
  let keep := 2 * frameLen (s.slotSig n) + 64
  let s := s.modSlot n fun x =>
    let l := x.soft ++ [y]
    if keep < l.length then { x with soft := l.drop (l.length - keep), softAt := x.softAt + (l.length - keep) } else { x with soft := l }
  let p := (s.slot n).softAt + (s.slot n).soft.length
  if s.frameState n = 3 then s.alignedSee n p else s.searchSee n p start

/-! ### Soft symbols and decoders (R229, R239, R247) -/

/-- Symbols of one run of the Trellis decoder (log entry 170). -/
def trellisRun : Nat := 128

/-- A soft symbol is complete (R229, R247): a LIVE block of its hard decision at 30.0 dB-Hz or more; it joins the stream, or the
symbols for the Trellis decoder. `per` is its first code period; `start` that the secondary period begins after it. -/
def State.symbolPut (s : State) (n : Nat) (per : Int) (y : SoftSym) (start : Bool) : State :=
  let v := s.slotSig n
  let s := if s.frameState n = 0 then s.set (K.slotNav_FrameState n) 1 else s
  let s := if 300 ≤ s.get (K.slot_Cn0 n) then s.publish n 2 (txAt s n per) [decide (y.v < 0)] else s
  if inDecoded v then
    let s := s.modSlot n fun x => { x with raw := x.raw ++ [y] }
    let x := s.slot n
    if (x.rawAt + x.raw.length) % trellisRun = 0 then s.jobPut 0 ⟨n, none, x.rawAt, false, x.raw.map (·.v), y.at_⟩ else s
  else s.streamSee n y start

/-- Symbols missing since the last one, when they are too many to count as erasures: the stream goes on at the number the code
period gives, and the frame in place with it (R229). -/
def State.symbolGap (s : State) (n k : Nat) : State :=
  let v := s.slotSig n
  let at_ := if inDecoded v then k / 2 else k
  s.modSlot n fun x =>
    { x with raw := List.replicate (k % 2) ⟨0, 0⟩, rawAt := k - k % 2, soft := [], softAt := at_, cands := [],
             framePos := x.framePos + (at_ - x.framePos) / frameLen v * frameLen v }

/-- A slot's symbols up to number `k`, which is the next: the code periods of the missing ones are erasures. -/
def State.symbolFill (s : State) (n k : Nat) (at_ : Nat) : State :=
  let v := s.slotSig n
  let x := s.slot n
  let have_ := if inDecoded v then x.rawAt + x.raw.length else x.softAt + x.soft.length
  if k ≤ have_ then s
  else if frameLen v < k - have_ then s.symbolGap n k
  else (List.range (k - have_)).foldl (fun s i =>
    let m : Nat := sigSymbol v (s.slotSat n) / sigPeriod v
    let per := (s.slot n).symAt.getD 0 + ((have_ + i) * m : Nat)
    s.symbolPut n per ⟨0, at_⟩ (frameStart s n (per + m))) s

/-- What a dump brings to the data symbol in progress (R229), in TRACK with SYMBOL_SYNC. A dump that carries COAST, BAD or CAL is an
erasure. -/
def State.symbolSee (s : State) (n : Nat) (e : Dump) : State :=
  let v := s.slotSig n
  if s.slotState n = 3 ∧ s.lockBit n 4 = true ∧ bit s.nav.decode v = true then
    let m := sigSymbol v (s.slotSat n) / sigPeriod v
    let pos := symPos s n e.per
    let term := if e.coast || e.bad || e.cal then 0 else chipAt s n false e.per * (tap e.data 2).1
    let first := e.per - pos
    let sum := match (s.slot n).symSum with
      | some (f, a) => if f = first then some (f, a + term) else if pos = 0 then some (first, term) else none
      | none => if pos = 0 then some (first, term) else none
    match sum with
    | none => s.modSlot n fun x => { x with symSum := none }
    | some (f, a) =>
      if pos + 1 < m then s.modSlot n fun x => { x with symSum := some (f, a) }
      else
        let s := s.modSlot n fun x => { x with symSum := none, symAt := some (x.symAt.getD f) }
        let q := clamp (-8) 7 (a.fdiv ((Config.softScale : Int) + 1))
        let k := ((f - (s.slot n).symAt.getD f).fdiv m).toNat
        (s.symbolFill n k e.at_).symbolPut n f ⟨q, e.at_⟩ (frameStart s n (f + m))
  else s.modSlot n fun x => { x with symSum := none }

/-- A run of the Trellis decoder on a slot's symbols is done: the bits beyond those held join the stream. -/
def State.trellisEnd (s : State) (j : NavJob) : State :=
  let n := j.slot
  let x := s.slot n
  let bits := Config.trellis (s.slotSig n) j.block
  let have_ := x.softAt + x.soft.length - j.pos / 2
  let sym := 2 * sigSymbol (s.slotSig n) (s.slotSat n) * MS
  let new := (List.zip (List.range bits.length) bits).drop have_
  let s := new.foldl (fun s e =>
    s.streamSee n ⟨if e.2 then -1 else 1, j.at_ - (bits.length - 1 - e.1) * sym⟩ false) s
  -- what a later run needs of the past is the traceback and a frame
  s.modSlot n fun x =>
    let drop := (x.raw.length - 4 * frameLen (s.slotSig n)) / trellisRun * trellisRun
    { x with raw := x.raw.drop drop, rawAt := x.rawAt + drop }

/-- DECODE_COMPLETE (R239): the oldest block of a decoder is done. -/
def State.decodeComplete (s : State) (d : Nat) : State :=
  match s.nav.queue.getD d [] with
  | [] => s
  | j :: _ =>
    let s := { s with nav := { s.nav with queue := vecMod s.nav.queue d fun q => q.drop 1 } }
    let v := s.slotSig j.slot
    match j.stage with
    | none => s.trellisEnd j
    | some st =>
      let got := Config.navCheck v (s.slotSat j.slot) st j.block
      if bchFirst v ∧ st = 0 ∧ got.isSome = true then
        (s.checkEnd j.slot 0 j.pos j.inverted got j.at_).jobPut 1 { j with stage := some 1 }
      else s.checkEnd j.slot st j.pos j.inverted got j.at_

/-- PREDICTED_BLOCK (R247, R253): symbols of a constituent message that entry `e` holds from an earlier transmission and that changes
by counters, parity and CRC alone, as they will be sent from `start` (DUR64 unit) on, no further than PredictHorizon ahead of the
present transmit time; none for 1 s after a step. -/
def State.predictedBlock (s : State) (n e part start : Nat) : State :=
  let v := s.slotSig n
  let sat := s.slotSat n
  let stepped := match s.nav.stepAt with | some t => decide (s.time.now < t + SEC) | none => false
  let held := (s.storeSt e).parts.find? fun p => p.part == part && Config.navPredictable v p.bits
  let mine := navFamily (s.get (K.storeEntry_SignalId e)) == navFamily v && storeIs s e (s.get (K.storeEntry_Kind e)) v sat
    && s.get (K.storeEntry_Kind e) != 0
  let sym := sigSymbol v sat * MS
  match held, txAt s n (s.slot n).periods with
  | some p, some t =>
    let syms := Config.navPredict v sat p.bits start
    let now := t + codeTime s n + ((s.time.now - s.time.t0 : Nat) : Int)
    if decide (n < 512) && mine && !stepped && decide (((start : Int) - sysOffset s v) % sym = 0) && decide (now ≤ start)
        && decide ((start + syms.length * sym : Nat) ≤ now + (s.nav.horizon * MS : Nat)) then
      s.publish n 0 (some start) syms
    else s
  | _, _ => s

/-- The navigation settings in force change at the tick edge (R250, R255). -/
def State.navTick (s : State) : State :=
  let old := s.nav.decode
  let new := s.get K.navData_DecodeEnable
  let s := { s with nav := { s.nav with decode := new, publish := s.getB K.navData_SymbolPublish,
                                        horizon := s.get K.navData_PredictHorizon, confirm := s.get K.navData_EphemerisConfirm } }
  if old = new then s
  else
    let gone := (s.slotsWhere fun v => decide (1 ≤ v ∧ v ≤ 5)).filter fun n => bit old (s.slotSig n) && !bit new (s.slotSig n)
    let s := { s with nav := { s.nav with queue := s.nav.queue.map fun q => q.filter fun j => !(gone.contains j.slot) } }
    gone.foldl (fun s n =>
      let s := s.modSlot n fun x => { x with cands := [], symSum := none }
      if s.frameState n = 3 then s else (s.set (K.slotNav_Candidates n) 0).set (K.slotNav_FrameState n) 0) s

/-- A warm reset (R254): queues, candidates and provisional messages are discarded, and the stream. -/
def State.navReset (s : State) : State :=
  let s := { s with nav := { s.nav with queue := .replicate 5 [], checked := [], sightings := [], peers := [], offers := [], blocks := [] } }
  s.setStream 0x5001 []

/-! ### Commands -/

/-- EPHEMERIS_EXPIRED (R242). -/
def execEphemerisExpired (e : Nat) (s : State) : Host.Outcome State Fault Refusal :=
  .next (onlyIf s.inRun s (s.storeExpire e))
/-- LEAP_APPLIED (R287). -/
def execLeapApplied (s : State) : Host.Outcome State Fault Refusal := .next s.leapDue

end Sys2Proof.Machine
end

