-- ==== Sys2Proof/Machine/Loops.lean ====
section
/-!
DEFINITION. The loops of tracking slots (R194 to R210): coherent intervals of the dumps, one update of the loops, AIDED windows
with the data removed. What a dump brings to symbol timing and to the data symbols goes with the update that takes it.
-/

namespace Sys2Proof.Machine

/-! ### Coherent intervals (R199) -/

/-- Sum lists of tap words, each times a sign. -/
def sumTaps (l : List (Int × List Int)) : List Int :=
  l.foldl (fun a e => (List.range 12).map fun i => a.getD i 0 + e.1 * e.2.getD i 0) []

/-- An interval of T may begin with a code period: at a multiple of T in the secondary code or symbol, or anywhere on a pilot whose
secondary code T does not divide. -/
def groupStart (s : State) (n t : Nat) (per : Int) : Bool :=
  let v := s.slotSig n
  let p := sigPeriod v
  perIdx s n per * p % t == 0 || (sigPilot v && decide ((sigSecondary v (s.slotSat n) * p) % t ≠ 0))

/-- The first coherent interval of `t` ms among the dumps in hand: its dumps, and those after it; none while it is not whole. -/
def groupTake (s : State) (n t : Nat) : Option (List Dump × List Dump) :=
  let k : Int := (t / sigPeriod (s.slotSig n) : Nat)
  match ((s.slot n).inbox.dropWhile fun e => !groupStart s n t e.per) with
  | [] => none
  | e :: l =>
    let g := (e :: l).takeWhile fun d => decide (d.per < e.per + k)
    if (e :: l).any fun d => decide (e.per + k ≤ d.per + 1) then some (g, (e :: l).drop g.length) else none

/-- The coherent sums of the data component over an interval (R194): one per data symbol once its timing is known (log entry 168). -/
def dataSums (s : State) (n : Nat) (g : List Dump) : List (List Int) :=
  let of (l : List Dump) : List Int := sumTaps (l.map fun e => (if s.lockBit n 4 then chipAt s n false e.per else 1, e.data))
  if s.lockBit n 4 then
    let first (e : Dump) : Int := e.per - (symPos s n e.per : Int)
    ((g.map first).eraseDups).map fun f => of (g.filter fun e => first e == f)
  else [of g]

/-- The coherent sum of the pilot over an interval. -/
def pilotSum (s : State) (n : Nat) (g : List Dump) : List Int :=
  sumTaps (g.map fun e => (if s.lockBit n 5 then chipAt s n true e.per else 1, e.pilot))

/-- The multipath taps of the component the loops run on. -/
def mmSum (s : State) (n : Nat) (g : List Dump) : List Int :=
  let pilot := sigPilot (s.slotSig n)
  sumTaps (g.map fun e => (if s.lockBit n (if pilot then 5 else 4) then chipAt s n pilot e.per else 1, e.mm))

/-! ### One loop update (R195 to R205) -/

/-- The sums an update works on: those of every component, of the one the carrier loop uses, of the multipath taps; T in ms; the
spacings that were in force. -/
structure LoopSums where
  cs : List (List Int)
  lead : List Int
  mm : List Int
  t : Nat
  spacing : Nat × Nat × Nat

/-- What follows the discriminators at an update: bump jumps, PLI, slips, C/N0 and the multipath metric. -/
def State.updateJudge (s : State) (n : Nat) (u : LoopSums) (ep : Int) : State :=
  let v := s.slotSig n
  let st := s.slotState n
  let p := tap u.lead 2
  let locked := s.lockBit n 1
  let bj := s.bumpJudge n u.cs
  let pj := bj.1.pliJudge n p
  let far := locked && decide (s.get (K.trackingProfile_CycleSlipThreshold v) * (2 ^ 40 : Nat) < ep.natAbs * 100)
  let s := if bj.2 || pj.2 || far then pj.1.slip n else pj.1
  let s := s.cnoJudge n u.t (tapPower u.cs 2) (tapPower u.cs 5)
  if st = 3 ∨ st = 4 then s.mmJudge n u.mm p else s

/-- The filters of a slot have moved and its NCO update is submitted (R197). -/
def State.loopPut (s : State) (n : Nat) (cl : Int × Int) (ca : Int × Int × Int) (p : Int × Int) : State :=
  let w := ncoWords (s.slotSig n) (s.slotSat n) cl.2 (s.slot n).dop ca.2.2
  (s.modSlot n fun x => { x with vc := cl.1, v := ca.1, acc := ca.2.1, dop := ca.2.2, prior := some p }).ncoPut n w

/-- The loops of a slot outside an AIDED window, over one coherent interval. In LOST they are open. -/
def State.loopClose (s : State) (n : Nat) (u : LoopSums) : State :=
  let st := s.slotState n
  let v := s.slotSig n
  let x := s.slot n
  let p := tap u.lead 2
  let wide := st == 2
  let fllOnly := wide && decide (x.age < s.get (K.trackingProfile_PullInFllTime v))
  let ec := codeDisc s (s.get (K.trackingProfile_DllDiscriminator v)) v (if wide then u.spacing.2.1 else u.spacing.1) wide u.cs u.lead
  let s := if ec.2 then s.takeFree else s
  let bn := if wide then 4 * s.get (K.trackingProfile_DllBandwidth v) else s.get (K.trackingProfile_DllBandwidth v)
  let cl := codeLoop (s.get (K.trackingProfile_DllOrder v)) bn u.t x.vc ec.1
  let ep := if fllOnly then (0, false) else carrierDisc s (s.get (K.trackingProfile_PllDiscriminator v)) p
  let s := if ep.2 then s.takeFree else s
  let ef := if wide || s.lockBit n 2 then (match x.prior with | some q => fllDisc (sigPilot v) q p u.t | none => 0) else 0
  let wf := fllW (s.get (K.trackingProfile_FllOrder v)) (s.get (K.trackingProfile_FllBandwidth v))
  let ca := carrierLoop (s.get (K.trackingProfile_PllOrder v)) (10 * s.get (K.trackingProfile_PllBandwidth v)) u.t wf.1 wf.2
    x.v x.acc ep.1 ef
  let s := if st = 5 then s else s.loopPut n cl ca p
  s.updateJudge n u ep.1

/-- LOOP_UPDATE (R197, R199, R211): firmware takes a slot's next coherent interval. BAD and CAL dumps are left out of its sums; with
none left, or while the chain is CALIBRATING (R133), the loops are not updated. In AIDED windows only the loss of aiding is judged. -/
def State.loopUpdate (s : State) (n : Nat) : State :=
  let st := s.slotState n
  if decide (n < 512) && decide (2 ≤ st) && decide (st ≤ 5) then
    if st = 4 ∧ (s.slot n).windowed = true then
      let s := s.aidBits n
      if lakeHeld s && !aiding s n then s.fallback n else s
    else
      let s := if st = 3 then s.set (K.slot_CoherentInUse n) (trackT s n)
        else if st = 2 ∧ loopSynced s n = false then s.set (K.slot_CoherentInUse n) (sigPeriod (s.slotSig n))
        else s
      let t := s.get (K.slot_CoherentInUse n)
      match groupTake s n t with
      | none => s
      | some (g, rest) =>
        let s := s.modSlot n fun x => { x with inbox := rest }
        let use := g.filter fun e => !e.bad && !e.cal
        let s := match use.getLast? with
          | some last =>
            if chainCal s (s.slotChain n) then s
            else
              let pilot := sigPilot (s.slotSig n)
              let data := dataSums s n use
              let ps := pilotSum s n use
              let u : LoopSums := { cs := if pilot then ps :: data else data, lead := if pilot then ps else data.headD [],
                                    mm := mmSum s n use, t := t, spacing := last.spacing }
              s.loopClose n u
          | none => s
        let s := g.foldl (fun s e => (s.syncSee n e).symbolSee n e) s
        (s.aidBits n).slotJudge n
  else s

/-! ### AIDED windows (R207 to R210, R224) -/

/-- The data symbol that covers a dump of an AIDED window: its number from the R5 epoch, by the transmit time of the dump's middle. -/
def dumpSymbol (s : State) (n : Nat) (e : Dump) : Option Nat :=
  let v := s.slotSig n
  (txAt s n e.per).map fun (t : Int) =>
    ((t + ((sigPeriod v * MS / 2 : Nat) : Int)).fdiv ((sigSymbol v (s.slotSat n) * MS : Nat) : Int)).toNat

/-- A tap word turned by quarter turns: I and Q in turn. -/
def turnTaps (k : Nat) (l : List Int) : List Int :=
  (List.range l.length).map fun i =>
    let a := l.getD (2 * (i / 2)) 0
    let b := l.getD (2 * (i / 2) + 1) 0
    match k % 4, i % 2 with
    | 0, 0 => a | 0, _ => b
    | 1, 0 => -b | 1, _ => a
    | 2, 0 => -a | 2, _ => -b
    | _, 0 => b | _, _ => -a

/-- The terms of a window's coherent sum (R208): each data dump times its symbol and secondary chip, where the symbol is in hand; each
pilot dump times its chip, in the components' nominal phase relation. -/
def windowTerms (s : State) (n : Nat) (l : List Dump) : List (Int × List Int) × List (Int × List Int) :=
  let v := s.slotSig n
  let sat := s.slotSat n
  let data := l.filterMap fun e =>
    match (dumpSymbol s n e).bind fun k => peerSymbol s v sat k with
    | some b => some ((if b then -1 else 1) * chipAt s n false e.per, e)
    | none => none
  let pilot := if sigPilot v then l.map fun e => (chipAt s n true e.per, e) else []
  let mm := if sigPilot v then pilot else data
  (data.map (fun p => (p.1, p.2.data)) ++ pilot.map fun p => (p.1, turnTaps (4 - Config.pilotPhase v % 4) p.2.pilot),
   mm.map fun p => (p.1, p.2.mm))

/-- The loops of an AIDED slot over a window of `act` ms (R208): ATAN2 and COHERENT on the combined sum. -/
def State.windowClose (s : State) (n act : Nat) (u : LoopSums) : State :=
  let v := s.slotSig n
  let x := s.slot n
  let p := tap u.lead 2
  let ec := codeDisc s 2 v u.spacing.1 false u.cs u.lead
  let s := if ec.2 then s.takeFree else s
  let cl := codeLoop (s.get (K.trackingProfile_DllOrder v)) (s.get (K.trackingProfile_AidedDllBandwidth v)) act x.vc ec.1
  let ep := carrierDisc s 1 p
  let s := if ep.2 then s.takeFree else s
  let ca := carrierLoop (s.get (K.trackingProfile_PllOrder v)) (s.get (K.trackingProfile_AidedPllBandwidth v)) act 0 1 x.v x.acc ep.1 0
  (s.loopPut n cl ca p).updateJudge n u ep.1

/-- AIDED_WINDOW_UPDATE (R209, R224): the slot's next window, once it has ended, is computed when the peer symbols for the whole of it
are in hand or AidedLatencyLimit after its end. A window more than half of which is CAL is discarded. -/
def State.aidedWindow (s : State) (n : Nat) : State :=
  let v := s.slotSig n
  let sat := s.slotSat n
  let x := s.slot n
  let act := s.get (K.slot_CoherentInUse n)
  let ends := x.winAt + act * MS
  let mine := x.window.filter fun e => decide (x.winAt < e.at_) && decide (e.at_ ≤ ends)
  let whole := mine.all fun e => match dumpSymbol s n e with | some k => peerHas s v sat k | none => false
  if decide (n < 512) && s.slotState n == 4 && x.windowed && decide (ends ≤ s.time.t0) && !chainCal s (s.slotChain n)
      && (whole || decide (ends + s.get K.tracking_AidedLatencyLimit * MS ≤ s.time.now)) then
    -- a change of AidedCoherentTime takes effect here: the next window begins at its next multiple
    let span := aidedSpan s n
    let s := (s.set (K.slot_CoherentInUse n) (span / MS)).modSlot n fun x =>
      { x with winAt := (ends + span - 1) / span * span, window := x.window.filter fun e => decide (ends < e.at_) }
    let use := mine.filter fun e => !e.cal && !e.bad
    let lost := 2 * ((mine.filter fun e => e.cal).length * sigPeriod v)
    let t := windowTerms s n use
    let s := match use.getLast? with
      | some last =>
        if act < lost ∨ t.1 = [] then s
        else
          let taps := sumTaps t.1
          s.windowClose n act { cs := [taps], lead := taps, mm := sumTaps t.2, t := act, spacing := last.spacing }
      | none => s
    (s.aidBits n).slotJudge n
  else s

/-! ### Commands -/

/-- AIDED_WINDOW_UPDATE (R209). -/
def execAidedWindowUpdate (n at_ : Nat) (s : State) : Host.Outcome State Fault Refusal :=
  .next (let s := s.reach (s.time.t0 + at_); onlyIf (s.fwUp && s.inRun) s (s.aidedWindow n))
/-- DECODE_COMPLETE (R239) of a decoder. -/
def execDecodeComplete (d at_ : Nat) (s : State) : Host.Outcome State Fault Refusal :=
  .next (let s := s.reach (s.time.t0 + at_); onlyIf (s.fwUp && s.inRun) s (s.decodeComplete d))

end Sys2Proof.Machine
end

