-- ==== Sys2Proof/Machine/Crypto.lean ====
section
/-!
DEFINITION. The check codes and the cryptographic functions the spec names: CRC-32C (R302), SHA-256 (R408, R415),
AES-128 and AES-128-CMAC (R403, R404), AES key unwrap of RFC 3394 (R403), ECDSA over P-256 (R415). Their standards are
named by the spec and lie outside it (log entry 14).
-/

namespace Sys2Proof.Machine

/-! ### CRC-32C (R302) -/

/-- One byte into the reflected register. -/
def crc32Byte (c x : Nat) : Nat :=
  (List.range 8).foldl (fun c _ => if c % 2 = 1 then Nat.xor (c / 2) 0x82F63B78 else c / 2) (Nat.xor c (x % 256))

/-- CRC-32C over a byte string. -/
def crc32c (l : List Nat) : Nat := Nat.xor (l.foldl crc32Byte 0xFFFFFFFF) 0xFFFFFFFF

/-! ### SHA-256 -/

/-- Bitwise rotation right of a 32-bit word. -/
def ror32 (x n : Nat) : Nat := (x / 2 ^ n + x * 2 ^ (32 - n)) % 2 ^ 32

/-- The largest root of `n` further bits: what its `k`-th power keeps at or below `v`. -/
def rootBits (k v : Nat) : Nat → Nat → Nat
  | 0, r => r
  | n + 1, r => rootBits k v n (if (r + 2 ^ n) ^ k ≤ v then r + 2 ^ n else r)

/-- The first 32 fractional bits of the `k`-th root of a number below 512. -/
def rootFraction (k p : Nat) : Nat := rootBits k (p * 2 ^ (32 * k)) 37 0 % 2 ^ 32

/-- The first 64 primes. -/
def shaPrimes : List Nat :=
  (List.range 312).filter fun p => decide (2 ≤ p) && (List.range 18).all fun d => decide (d < 2) || decide (p ≤ d) || p % d != 0

/-- Round constants: of the cube roots of the primes. -/
def shaK : List Nat := shaPrimes.map (rootFraction 3)

/-- Initial state: of the square roots of the first eight. -/
def shaInit : List Nat := (shaPrimes.take 8).map (rootFraction 2)

/-- The next 48 words of the schedule; the newest word first. -/
def shaExtend : Nat → List Nat → List Nat
  | 0, w => w
  | n + 1, w =>
    let g (i : Nat) : Nat := w.getD (i - 1) 0
    let s0 := Nat.xor (Nat.xor (ror32 (g 15) 7) (ror32 (g 15) 18)) (g 15 / 2 ^ 3)
    let s1 := Nat.xor (Nat.xor (ror32 (g 2) 17) (ror32 (g 2) 19)) (g 2 / 2 ^ 10)
    shaExtend n (((g 16 + s0 + g 7 + s1) % 2 ^ 32) :: w)

/-- One round: the state as a list a to h, the constant and the schedule word. -/
def shaRound (v : List Nat) (kw : Nat × Nat) : List Nat :=
  let a := v.getD 0 0; let b := v.getD 1 0; let c := v.getD 2 0; let d := v.getD 3 0
  let e := v.getD 4 0; let f := v.getD 5 0; let g := v.getD 6 0; let h := v.getD 7 0
  let s1 := Nat.xor (Nat.xor (ror32 e 6) (ror32 e 11)) (ror32 e 25)
  let ch := Nat.xor (Nat.land e f) (Nat.land (2 ^ 32 - 1 - e) g)
  let t1 := h + s1 + ch + kw.1 + kw.2
  let s0 := Nat.xor (Nat.xor (ror32 a 2) (ror32 a 13)) (ror32 a 22)
  let mj := Nat.xor (Nat.xor (Nat.land a b) (Nat.land a c)) (Nat.land b c)
  [(t1 + s0 + mj) % 2 ^ 32, a, b, c, (d + t1) % 2 ^ 32, e, f, g]

/-- One block of 64 bytes. -/
def shaBlock (v : List Nat) (b : List Nat) : List Nat :=
  let w := (List.range 16).foldl (fun w i => field b (4 * i) 4 :: w) []
  let ws := (shaExtend 48 w).reverse
  let v' := (List.zip shaK ws).foldl shaRound v
  (List.zip v v').map fun p => (p.1 + p.2) % 2 ^ 32

/-- All blocks. -/
def shaBlocks : Nat → List Nat → List Nat → List Nat
  | 0, v, _ => v
  | n + 1, v, l => shaBlocks n (shaBlock v (l.take 64)) (l.drop 64)

/-- SHA-256 of a byte string: 32 bytes. -/
def sha256 (l : List Nat) : List Nat :=
  let n := l.length
  let pad := (119 - n % 64) % 64
  let m := l ++ [0x80] ++ List.replicate pad 0 ++ toBytes 8 (8 * n)
  (shaBlocks (m.length / 64) shaInit m).flatMap (toBytes 4)

/-! ### AES-128 -/

/-- Doubling in the field of AES. -/
def xtime (x : Nat) : Nat := if 128 ≤ x then Nat.xor ((2 * x) % 256) 0x1B else 2 * x

/-- Multiplication in the field of AES. -/
def gmul (a b : Nat) : Nat :=
  ((List.range 8).foldl (fun (p : Nat × Nat) i => (if bit b i then Nat.xor p.1 p.2 else p.1, xtime p.2)) (0, a)).1

/-- The inverse in the field, 0 for 0: the 254th power. -/
def ginv (a : Nat) : Nat :=
  let a2 := gmul a a; let a4 := gmul a2 a2; let a8 := gmul a4 a4; let a16 := gmul a8 a8
  let a32 := gmul a16 a16; let a64 := gmul a32 a32; let a128 := gmul a64 a64
  gmul (gmul (gmul a2 a4) (gmul a8 a16)) (gmul (gmul a32 a64) a128)

/-- Rotation left of a byte. -/
def rol8 (x n : Nat) : Nat := (x * 2 ^ n + x / 2 ^ (8 - n)) % 256

/-- The substitution box. -/
def sbox (x : Nat) : Nat :=
  let i := ginv (x % 256)
  Nat.xor (Nat.xor (Nat.xor (Nat.xor (Nat.xor i (rol8 i 1)) (rol8 i 2)) (rol8 i 3)) (rol8 i 4)) 0x63

/-- The inverse substitution box. -/
def isbox (x : Nat) : Nat := ginv (Nat.xor (Nat.xor (Nat.xor (rol8 x 1) (rol8 x 3)) (rol8 x 6)) 0x05)

/-- Exclusive or of byte strings of equal length. -/
def xorBytes (a b : List Nat) : List Nat := List.zipWith Nat.xor a b

/-- The round keys that follow a round key. -/
def aesKeys : Nat → Nat → List Nat → List (List Nat)
  | 0, _, _ => []
  | n + 1, rcon, k =>
    let t := [Nat.xor (sbox (k.getD 13 0)) rcon, sbox (k.getD 14 0), sbox (k.getD 15 0), sbox (k.getD 12 0)]
    let w0 := xorBytes (k.take 4) t
    let w1 := xorBytes ((k.drop 4).take 4) w0
    let w2 := xorBytes ((k.drop 8).take 4) w1
    let w3 := xorBytes ((k.drop 12).take 4) w2
    let k' := w0 ++ w1 ++ w2 ++ w3
    k' :: aesKeys n (xtime rcon) k'

/-- Row shifts of a state held by columns; the inverse shifts. -/
def shiftRows (s : List Nat) : List Nat := (List.range 16).map fun i => s.getD ((i + 4 * (i % 4)) % 16) 0
def ishiftRows (s : List Nat) : List Nat := (List.range 16).map fun i => s.getD ((i + 12 * (i % 4)) % 16) 0

/-- One column times a circulant row. -/
def mixCol (m : List Nat) (c : List Nat) : List Nat :=
  (List.range 4).map fun r => (List.range 4).foldl (fun x k => Nat.xor x (gmul (c.getD k 0) (m.getD ((k + 4 - r) % 4) 0))) 0

/-- All four columns. -/
def mixCols (m s : List Nat) : List Nat := (List.range 4).flatMap fun c => mixCol m ((s.drop (4 * c)).take 4)

/-- AES-128 of a block of 16 bytes. -/
def aes (key blk : List Nat) : List Nat :=
  let ks := aesKeys 10 1 key
  let s := (ks.take 9).foldl (fun s k => xorBytes (mixCols [2, 3, 1, 1] (shiftRows (s.map sbox))) k) (xorBytes blk key)
  xorBytes (shiftRows (s.map sbox)) (ks.getD 9 [])

/-- The inverse of AES-128. -/
def aesInv (key blk : List Nat) : List Nat :=
  let ks := (key :: aesKeys 10 1 key).reverse
  let s := ((ks.drop 1).take 9).foldl (fun s k => mixCols [14, 11, 13, 9] (xorBytes ((ishiftRows s).map isbox) k))
    (xorBytes blk (ks.getD 0 []))
  xorBytes ((ishiftRows s).map isbox) key

/-! ### AES-128-CMAC (NIST SP 800-38B) -/

/-- Doubling of a 16-byte block. -/
def cmacDouble (b : List Nat) : List Nat :=
  let v := ofBytes b
  toBytes 16 (if bit v 127 then Nat.xor ((2 * v) % 2 ^ 128) 0x87 else 2 * v)

/-- The chain over whole blocks. -/
def cbcMac (key : List Nat) : Nat → List Nat → List Nat → List Nat
  | 0, x, _ => x
  | n + 1, x, l => cbcMac key n (aes key (xorBytes x (l.take 16))) (l.drop 16)

/-- The 16-byte code of a message. -/
def cmac (key msg : List Nat) : List Nat :=
  let k1 := cmacDouble (aes key (List.replicate 16 0))
  let n := msg.length
  let full := decide (n ≠ 0) && n % 16 == 0
  let blocks := if full then n / 16 else n / 16 + 1
  let head := msg.take (16 * (blocks - 1))
  let last := msg.drop (16 * (blocks - 1))
  let last := if full then xorBytes last k1
    else xorBytes (last ++ [0x80] ++ List.replicate (15 - last.length) 0) (cmacDouble k1)
  cbcMac key blocks (List.replicate 16 0) (head ++ last)

/-! ### AES key unwrap (RFC 3394) of a 16-byte key -/

/-- One unwrapping step `t` on (A, R1, R2). -/
def unwrapStep (kek : List Nat) (v : List Nat × List Nat × List Nat) (t : Nat) : List Nat × List Nat × List Nat :=
  let a := xorBytes v.1 (toBytes 8 t)
  if t % 2 = 0 then
    let b := aesInv kek (a ++ v.2.2)
    (b.take 8, v.2.1, b.drop 8)
  else
    let b := aesInv kek (a ++ v.2.1)
    (b.take 8, b.drop 8, v.2.2)

/-- The key in a 24-byte wrapping; none where its check value is wrong. -/
def keyUnwrap (kek w : List Nat) : Option (List Nat) :=
  let v := [12, 11, 10, 9, 8, 7, 6, 5, 4, 3, 2, 1].foldl (unwrapStep kek) (w.take 8, (w.drop 8).take 8, (w.drop 16).take 8)
  if v.1 = List.replicate 8 0xA6 then some (v.2.1 ++ v.2.2) else none

/-! ### ECDSA over P-256 -/

/-- The prime of the field, the order of the group, the coefficient b, the base point. -/
def p256p : Nat := 0xffffffff00000001000000000000000000000000ffffffffffffffffffffffff
def p256n : Nat := 0xffffffff00000000ffffffffffffffffbce6faada7179e84f3b9cac2fc632551
def p256b : Nat := 0x5ac635d8aa3a93e7b3ebbd55769886bc651d06b0cc53b0f63bce3c3e27d2604b
def p256g : Nat × Nat := (0x6b17d1f2e12c4247f8bce6e563a440f277037d812deb33a0f4a13945d898c296,
  0x4fe342e2fe1a7f9b8ee7eb4a7c0f9e162bce33576b315ececbb6406837bf51f5)

/-- A power modulo `m`, by `n` bits of the exponent. -/
def powMod (m : Nat) : Nat → Nat → Nat → Nat → Nat
  | 0, _, _, r => r
  | n + 1, b, e, r => powMod m n (b * b % m) (e / 2) (if e % 2 = 1 then r * b % m else r)

/-- The inverse modulo a prime. -/
def invMod (m a : Nat) : Nat := powMod m 256 (a % m) (m - 2) 1

/-- Addition of points, none being the point at infinity. -/
def ecAdd (a b : Option (Nat × Nat)) : Option (Nat × Nat) :=
  match a, b with
  | none, q => q
  | p, none => p
  | some (x1, y1), some (x2, y2) =>
    let p := p256p
    if x1 = x2 ∧ (y1 + y2) % p = 0 then none
    else
      let l := if x1 = x2 then (3 * x1 * x1 + p - 3) * invMod p (2 * y1) % p
               else (y2 + p - y1) * invMod p (x2 + p - x1) % p
      let x := (l * l + 2 * p - x1 - x2) % p
      some (x, (l * (x1 + p - x) + p - y1) % p)

/-- Multiples of a point, by `n` bits. -/
def ecMul : Nat → Nat → Option (Nat × Nat) → Option (Nat × Nat) → Option (Nat × Nat)
  | 0, _, _, r => r
  | n + 1, k, q, r => ecMul n (k / 2) (ecAdd q q) (if k % 2 = 1 then ecAdd r q else r)

/-- A signature r, s on a 32-byte hash verifies under a public key. -/
def ecdsaVerify (x y r s : Nat) (hash : List Nat) : Bool :=
  let ok := decide (x < p256p) && decide (y < p256p) && decide (y * y % p256p = (x * x * x + (p256p - 3) * x + p256b) % p256p)
  if ok && decide (0 < r) && decide (r < p256n) && decide (0 < s) && decide (s < p256n) then
    let e := ofBytes hash
    let w := invMod p256n s
    match ecAdd (ecMul 256 (e * w % p256n) (some p256g) none) (ecMul 256 (r * w % p256n) (some (x, y)) none) with
    | none => false
    | some q => q.1 % p256n == r
  else false

end Sys2Proof.Machine
end

