-- ==== Sys2Proof/Machine/Auth.lean ====
section
/-!
DEFINITION. Roles, principals, key slots and authenticated frames (spec/12, R401 to R407).
-/

namespace Sys2Proof.Machine

/-! ### Principals and roles (R401, R402) -/

/-- The role a request executes with. -/
def roleOf (s : State) (c : Ctx) : Nat :=
  match c.slot with
  | some k => s.get (K.keySlot_KeyRole k)
  | none => match c.path with
    | .mspi => s.get K.protection_MspiRole
    | .host => s.get K.protection_HostUnauthRole
    | .remote => s.get K.protection_RemoteUnauthRole
    | .firmware => 5
    | .user => 6
    | .card => 0

/-- The principal of a request (R401), as R578 writes it. -/
def principalOf (c : Ctx) : Principal :=
  match c.slot with
  | some k => ⟨(if c.path = .card then 0x60 else 0) + k, c.source⟩
  | none => match c.path with
    | .mspi => ⟨0x10, 0⟩
    | .host => ⟨0x20, 0⟩
    | .remote => ⟨0x30, c.source⟩
    | .firmware => ⟨0x40, 0⟩
    | .user => ⟨0x50, 0⟩
    | .card => ⟨0x60, 0⟩

/-- The key slot of a principal, if it is one. -/
def Principal.slot (p : Principal) : Option Nat := if p.byte < 16 ∨ 0x60 ≤ p.byte then some (p.byte % 16) else none

/-- Two requests come from one principal: one key slot by any path, or one path (and for remote transactions, one device). -/
def Principal.same (a b : Principal) : Bool :=
  match a.slot, b.slot with
  | some i, some j => i == j
  | none, none => a.byte == b.byte && (a.byte != 0x30 || a.addr == b.addr)
  | _, _ => false

/-- AccessRights grant a role reads, or writes and actions, in the range of an index (R402). -/
def mayRead (s : State) (role index : Nat) : Bool := bit (s.get (K.accessRights role)) (2 * (index / 4096))
def mayWrite (s : State) (role index : Nat) : Bool := bit (s.get (K.accessRights role)) (2 * (index / 4096) + 1)

/-! ### Key slots (R403) -/

/-- The key of a slot. -/
def keyOf (s : State) (k : Nat) : List Nat := toBytes 16 (SMap.get 0 k s.prot.keys)

/-- The change of a slot's KeyValue applies: the slot is ACTIVE, its TxCounter 0. -/
def State.keyPut (s : State) (k : Nat) (key : List Nat) : State :=
  let s := { s with prot := { s.prot with keys := SMap.set 0 k (ofBytes key) s.prot.keys } }
  ((s.set (K.keySlot_KeyState k) 1).set (K.keySlot_TxCounter k) 0).set (K.keySlot_KeyCheck k)
    (ofBytes ((aes key (List.replicate 16 0)).take 4))

/-- Some slot of role INSTALLER or SECURITY_OFFICER is ACTIVE. -/
def officerHeld (s : State) : Bool :=
  (List.range 16).any fun k => s.get (K.keySlot_KeyState k) == 1 && (s.get (K.keySlot_KeyRole k) == 2 || s.get (K.keySlot_KeyRole k) == 3)

/-! ### Trailers (R404, R405) -/

/-- The counters held for a sender and slot: H and the window of the 64 below it, bit i for H - 1 - i; H is none before
the first. -/
def seenOf (s : State) (sender k : Nat) : Option (Nat × Nat) :=
  (s.net.seen.find? fun e => e.1 == sender && e.2.1 == k).map fun e => (e.2.2.1, e.2.2.2)

/-- COUNTER is accepted. -/
def counterOk (s : State) (sender k c : Nat) : Bool :=
  match seenOf s sender k with
  | none => true
  | some (h, w) => decide (h < c) || (decide (c < h) && decide (h ≤ c + 64) && !bit w (h - 1 - c))

/-- COUNTER has been used. -/
def State.counterSee (s : State) (sender k c : Nat) : State :=
  let e : Nat × Nat := match seenOf s sender k with
    | none => (c, 0)
    | some (h, w) =>
      if h < c then (c, if c - h ≤ 64 then (w * 2 ^ (c - h) + 2 ^ (c - h - 1)) % 2 ^ 64 else 0)
      else (h, setBit w (h - 1 - c))
  let l := s.net.seen.filter fun x => !(x.1 == sender && x.2.1 == k)
  { s with net := { s.net with seen := (sender, k, e.1, e.2) :: l } }

/-- The window is lost at a reset: only counters above H are accepted. -/
def State.windowsLost (s : State) : State :=
  { s with net := { s.net with seen := s.net.seen.map fun e => (e.1, e.2.1, e.2.2.1, 2 ^ 64 - 1) } }

/-- A frame fails authentication (R405): AUTH_FAIL, and the slot's own counter where its trailer names one. -/
def State.authFail (s : State) (slot : Option Nat) : State :=
  let s := s.flag K.protection_ProtFlags 0 K.protection_AuthFailCount
  match slot with
  | some k => s.bump (K.keySlot_AuthFailures k) 2
  | none => s

/-- A trailer of a sender over a message (bytes up to the trailer, HOPS and AGE zeroed): the slot, when it is valid. -/
def authValid (s : State) (sender : Nat) (msg trailer : List Nat) : Bool :=
  let k := byteAt trailer 0
  trailer.length == 24 && decide (k < 16) && byteAt trailer 1 == 0 && s.get (K.keySlot_KeyState k) == 1
    && cmac (keyOf s k) (msg ++ trailer.take 8) == (trailer.drop 8).map (· % 256)
    && counterOk s sender k (field trailer 2 6)

/-- The slot under which this device authenticates what it sends: the lowest ACTIVE slot of role PEER (log entry 15). -/
def sendSlot (s : State) : Option Nat :=
  (List.range 16).find? fun k => s.get (K.keySlot_KeyState k) == 1 && s.get (K.keySlot_KeyRole k) == 4

/-- The trailer of a message under a slot: TxCounter + 1 is in MRAM before the frame leaves. -/
def State.authSign (s : State) (k : Nat) (msg : List Nat) : State × List Nat :=
  let n := s.get (K.keySlot_TxCounter k)
  let head := [k, 0] ++ toBytes 6 n
  (s.set (K.keySlot_TxCounter k) ((n + 1) % 2 ^ 48), head ++ cmac (keyOf s k) (msg ++ head))

end Sys2Proof.Machine
end

