-- ==== Sys2Proof/Machine/Link.lean ====
section
/-!
DEFINITION. Sending on ports and the network layer's frames (spec/09 R301 to R305; spec/10 R333 to R340). A frame that may
start is sent at once: serialisation times are not modelled (log entry 16).
-/

namespace Sys2Proof.Machine

/-! ### Ports -/

/-- One port. -/
def State.port (s : State) (n : Nat) : PortSt := s.ports.port.toList.getD n PortSt.reset

/-- Change one port. -/
def State.modPort (s : State) (n : Nat) (f : PortSt → PortSt) : State :=
  { s with ports := { s.ports with port := .ofFn fun i => if i.val = n then f s.ports.port[i] else s.ports.port[i] } }

/-- PortState of a port. -/
def State.portState (s : State) (n : Nat) : Nat := s.get (K.port_PortState n)

/-- A port carries fabric traffic: UP_FABRIC, or DEGRADED with ActiveMode FABRIC. -/
def fabricUp (s : State) (n : Nat) : Bool :=
  decide (n < 32) && (s.portState n == 2 || (s.portState n == 5 && s.get (K.port_ActiveMode n) == 1))

/-- A port carries Ethernet traffic: UP_ETH, or DEGRADED with ActiveMode ETHERNET. -/
def ethUp (s : State) (n : Nat) : Bool :=
  decide (n < 32) && (s.portState n == 3 || (s.portState n == 5 && s.get (K.port_ActiveMode n) == 2))

/-- The fabric ports that carry traffic. -/
def fabricPorts (s : State) : List Nat := (List.range 32).filter fun n => fabricUp s n

/-! ### Link frames (R301, R302) -/

/-- A link frame: TYPE, SUB, SEQ, ACK, payload, CRC. -/
def linkFrame (ty sub seq ack : Nat) (payload : List Nat) : List Nat :=
  let m := [ty * 16, sub] ++ toBytes 2 seq ++ toBytes 2 ack ++ toBytes 2 payload.length ++ payload
  m ++ toBytes 4 (crc32c m)

/-- A received frame is good (R302): its CRC, its length, a listed TYPE and SUB, no reserved bit. -/
def linkGood (f : List Nat) : Bool :=
  let n := f.length
  let ty := byteAt f 0
  let sub := byteAt f 1
  decide (12 ≤ n) && field f (n - 4) 4 == crc32c (f.take (n - 4)) && field f 6 2 + 12 == n && decide (n ≤ 2060)
    && ((ty == 0x10 && decide (sub < 4)) ||
        (ty == 0x20 && decide (1 ≤ sub) && decide (sub ≤ 3) && field f 2 2 == 0
          && (if sub = 3 then n == 16 && byteAt f 10 < 32 && byteAt f 11 < 2 else n == 12)))

/-- A control frame is sent: 1 ACK, 2 NAK, 3 HELLO; ACK names the next sequence number expected. -/
def State.sendCtl (s : State) (n sub : Nat) (payload : List Nat) : State :=
  s.modPort n fun p => { p with ctl := linkFrame 2 sub 0 p.rxSeq payload }

/-- HELLO carries the device address, the port, RESTART. -/
def State.sendHello (s : State) (n : Nat) : State :=
  let r := (s.port n).restart
  let s := s.sendCtl n 3 (toBytes 2 (s.get K.network_DeviceAddress) ++ [n, b2n r])
  s.modPort n fun p => { p with helloOut := true, restart := false }

/-! ### The output arbiter (R338 to R340) -/

/-- The class of a network frame, and its SOURCE. -/
def frameClass (f : List Nat) : Nat := byteAt f 2 % 4
def frameSource (f : List Nat) : Nat := field f 6 2

/-- Allowances at the present time: 125 Mbit/s and 500 Mbit/s, 16,384 bytes deep. -/
def tokensNow (el : Nat) (p : PortSt) : PortSt :=
  let d := el - p.tokAt
  { p with tok0 := min (16384 * SEC) (p.tok0 + d * 15625000), tok1 := min (16384 * SEC) (p.tok1 + d * 62500000), tokAt := el }

/-- Whole µs of a duration, rounded up. -/
def upUs (d : Nat) : Nat := (d + US - 1) / US

/-- A frame with its AGE, and with its HOPS. -/
def withAge (a : Nat) (f : List Nat) : List Nat := f.take 8 ++ toBytes 2 (min 65535 a) ++ f.drop 10
def withHops (h : Nat) (f : List Nat) : List Nat := f.take 3 ++ [h] ++ f.drop 4

/-- A frame this device is the source of. -/
def ownFrame (f : List Nat) : OutFrame := ⟨f, field f 8 2, none⟩

/-- AGE of a frame at an elapsed time (R335): what it came with and its residence here. -/
def OutFrame.ageAt (o : OutFrame) (el : Nat) : Nat :=
  match o.since with
  | some t => o.age + upUs (el - t)
  | none => o.age

/-- A frame as it is sent at an elapsed time. -/
def OutFrame.sentAt (o : OutFrame) (el : Nat) : OutFrame :=
  { o with bytes := withAge (o.ageAt el) o.bytes, since := some (o.since.getD el) }

/-- Deficit round robin of one class: the next frame to start and the round after it. A source whose turn begins gains a
quantum of 2,048 bytes; one whose deficit does not cover its next frame goes to the tail. -/
def drrNext : Nat → List OutFrame → List (Nat × Nat × Bool) → Option (OutFrame × List (Nat × Nat × Bool))
  | 0, _, _ => none
  | _ + 1, _, [] => none
  | k + 1, q, (src, d, turn) :: r =>
    match q.find? fun f => frameSource f.bytes == src with
    | none => drrNext k q r
    | some f =>
      let d := if turn then d else d + 2048
      if f.bytes.length ≤ d then
        let more := (q.erase f).any fun g => frameSource g.bytes == src
        some (f, if more then (src, d - f.bytes.length, true) :: r else r)
      else drrNext k q (r ++ [(src, d, false)])

/-- The next DATA frame to start on a port, by class order and within the class by its round. -/
def portNext (p : PortSt) : Option (Nat × OutFrame × List (Nat × Nat × Bool)) :=
  [0, 1, 2, 3].findSome? fun c =>
    let q := p.wait.filter fun f => frameClass f.bytes == c
    match drrNext (4 * (q.length + 1) * 2) q (p.round.toList.getD c []) with
    | none => none
    | some (f, r) =>
      let need := f.bytes.length * SEC
      if (c = 0 ∧ p.tok0 < need) ∨ (c = 1 ∧ p.tok1 < need) then none else some (c, f, r)

/-- The link layer of a port runs: since its last reset it has sent HELLO (R305, R324). -/
def linkRuns (s : State) (n : Nat) : Bool := fabricUp s n && !(s.port n).restart

/-- A drop of R334, R335, R337 or R340, with its own counter. -/
def State.netDrop (s : State) (counter : Nat) : State :=
  (s.flag K.network_NetFlags 2 K.network_FramesDropped).bump counter 2

/-- Frames that wait at a port until their AGE is 50,000 µs are dropped; a source without a frame leaves its round (R335, R339). -/
def State.portAge (s : State) (n : Nat) : State :=
  let p := s.port n
  let keep := p.wait.filter fun f => decide (f.ageAt s.elapsed < 50000)
  if keep.length = p.wait.length then s
  else
    let has (c src : Nat) : Bool := keep.any fun f => frameClass f.bytes == c && frameSource f.bytes == src
    let s := s.modPort n fun p =>
      { p with wait := keep, round := .ofFn fun i => p.round[i].filter fun e => has i.val e.1 }
    (List.range (p.wait.length - keep.length)).foldl (fun s _ => s.netDrop K.network_DropAge) s

/-- Frames start while the retry buffer has room and the arbiter has one (R303, R304). -/
def State.portPump (s : State) (n : Nat) : Nat → State
  | 0 => s
  | k + 1 =>
    if !linkRuns s n then s
    else
      let p := tokensNow s.elapsed (s.port n)
      if 64 ≤ p.buf.length then s
      else match portNext p with
        | none => s
        | some (c, f, r) =>
          let need := f.bytes.length * SEC
          let s := s.modPort n fun _ =>
            { p with wait := p.wait.erase f, round := vset p.round c r, buf := p.buf ++ [(p.txSeq, f.sentAt s.elapsed)],
                     txSeq := (p.txSeq + 1) % 65536,
                     tok0 := if c = 0 then p.tok0 - need else p.tok0,
                     tok1 := if c = 1 then p.tok1 - need else p.tok1,
                     sentAt := if p.buf.isEmpty then s.elapsed else p.sentAt }
          (s.count (K.port_FramesTx n) 6).portPump n k
where vset (v : Vector (List (Nat × Nat × Bool)) 4) (i : Nat) (x : List (Nat × Nat × Bool)) : Vector (List (Nat × Nat × Bool)) 4 :=
  .ofFn fun j => if j.val = i then x else v[j]

/-- Start what may start on a port. -/
def State.portGo (s : State) (n : Nat) : State :=
  let s := s.portAge n
  s.portPump n ((s.port n).wait.length + 1)

/-- A network frame joins the output buffer of a port, 64 KiB: dropped under R340 by its class and the occupancy. -/
def State.portPutAs (s : State) (n : Nat) (f : OutFrame) : State :=
  let p := s.port n
  let occ := (p.wait.map fun f => f.bytes.length).sum
  let c := frameClass f.bytes
  if (c = 3 ∧ 49152 ≤ occ) ∨ (c = 2 ∧ 57344 ≤ occ) ∨ 65536 < occ + f.bytes.length then s.netDrop K.network_DropBuffer
  else
    let src := frameSource f.bytes
    let join (r : List (Nat × Nat × Bool)) : List (Nat × Nat × Bool) := if r.any fun e => e.1 == src then r else r ++ [(src, 0, false)]
    let s := s.modPort n fun p =>
      { p with wait := p.wait ++ [f], round := .ofFn fun i => if i.val = c then join p.round[i] else p.round[i] }
    s.portGo n

/-- A frame of this device joins the output buffer of a port. -/
def State.portPut (s : State) (n : Nat) (f : List Nat) : State := s.portPutAs n (ownFrame f)

/-! ### Network frames (R336, R337) -/

/-- The frame with HOPS and AGE taken as zero. -/
def zeroLife (f : List Nat) : List Nat := f.take 3 ++ [0] ++ (f.drop 4).take 4 ++ [0, 0] ++ f.drop 10

/-- The class of a KIND, none for an unlisted one. -/
def kindClass (k : Nat) : Option Nat := ([0, 0, 0, 0, 2, 2, 2, 2, 2, 3, 3, 1] : List Nat)[k - 1]? |>.filter fun _ => decide (1 ≤ k)

/-- The bit of AuthRequired that names a KIND (R406). -/
def kindAuth (k : Nat) : Nat :=
  if k = 5 ∨ k = 6 then 1 else if 7 ≤ k ∧ k ≤ 9 then 2 else if k = 12 then 3 else if k ≤ 4 then 4 else 5

/-- The bytes of a frame before E2E_CRC and its trailer. -/
def netHead (kind flags dest source : Nat) (body : List Nat) : List Nat :=
  [1, kind, flags, 16] ++ toBytes 2 dest ++ toBytes 2 source ++ [0, 0] ++ toBytes 2 body.length ++ body

/-- A frame, with AUTH or without, when a slot is at hand. -/
def State.netFrameAs (s : State) (auth : Bool) (kind flags dest source : Nat) (body : List Nat) : State × List Nat :=
  let flags := flags + (kindClass kind).getD 0
  let slot := if auth then sendSlot s else none
  match slot with
  | none =>
    let h := netHead kind flags dest source body
    (s, h ++ toBytes 4 (crc32c (zeroLife h)))
  | some k =>
    let h := netHead kind (setBit flags 4) dest source body
    let r := s.authSign k (zeroLife h)
    let m := h ++ r.2
    (r.1, m ++ toBytes 4 (crc32c (zeroLife m)))

/-- A frame of this device: AUTH when AuthRequired names its kind (R406). -/
def State.netFrame (s : State) (kind flags dest source : Nat) (body : List Nat) : State × List Nat :=
  s.netFrameAs (bit s.prot.required (kindAuth kind)) kind flags dest source body

/-- The body and the trailer of a frame. -/
def netTrailer (f : List Nat) : Option (List Nat) :=
  if bit (byteAt f 2) 4 then some ((f.drop (f.length - 28)).take 24) else none
def netBody (f : List Nat) : List Nat := (f.drop 12).take (field f 10 2)

/-- A frame is well formed under R337. LEN counts the body without the trailer. -/
def netGood (f : List Nat) : Bool :=
  let n := f.length
  let t := if bit (byteAt f 2) 4 then 24 else 0
  decide (16 + t ≤ n) && field f (n - 4) 4 == crc32c (zeroLife (f.take (n - 4))) && byteAt f 0 == 1
    && kindClass (byteAt f 1) == some (byteAt f 2 % 4) && decide (byteAt f 2 < 64) && decide (byteAt f 3 ≤ 16)
    && decide (field f 4 2 < 4096) && decide (field f 6 2 < 4096) && field f 10 2 + 16 + t == n
    && decide (field f 10 2 + t ≤ 2032) && (field f 4 2 != 0xFFF || byteAt f 1 == 1)

/-! ### Routes (R334) -/

/-- The route to a destination. -/
def routeTo (s : State) (dest : Nat) : Option Route := s.net.routes.find? fun r => r.dest == dest

/-- The port a frame leaves by: the primary path's, or the second path's for a frame with SECOND and while the primary's
port is not up. -/
def portFor (s : State) (dest : Nat) (second : Bool) : Option Nat :=
  match routeTo s dest with
  | none => none
  | some r =>
    let other := r.second.filter fun p => fabricUp s p
    if second then (other.or (if fabricUp s r.port then some r.port else none))
    else if fabricUp s r.port then some r.port else other

/-- A destination has a usable path; this device is its own. -/
def hasRoute (s : State) (dest : Nat) : Bool := dest == s.get K.network_DeviceAddress || (portFor s dest false).isSome

/-- A frame loops back to this device. -/
def State.loopBack (s : State) (f : List Nat) : State :=
  { s with net := { s.net with inbox := s.net.inbox ++ [⟨255, s.elapsed, f⟩] } }

/-- A frame leaves toward its destination, or is dropped without a path. -/
def State.netRouteAs (s : State) (f : OutFrame) : State :=
  match portFor s (field f.bytes 4 2) (bit (byteAt f.bytes 2) 3) with
  | some p => s.portPutAs p f
  | none => s.netDrop K.network_DropNoRoute

/-- A frame of this device leaves toward its destination. -/
def State.netRoute (s : State) (f : List Nat) : State := s.netRouteAs (ownFrame f)

/-- The hop budget and the age of a frame that is to be forwarded (R335): it as it goes on, or the counter of its drop. -/
def State.lifeCheck (s : State) (f : OutFrame) : Option OutFrame × State :=
  let h := byteAt f.bytes 3
  if h = 0 then (none, s.netDrop K.network_DropHops)
  else if 50000 ≤ f.ageAt s.elapsed then (none, s.netDrop K.network_DropAge)
  else (some { f with bytes := withHops (h - 1) f.bytes }, s)

/-- This device originates a frame (KIND, FLAGS beyond the class, DEST, body). -/
def State.netSend (s : State) (kind flags dest : Nat) (body : List Nat) : State :=
  let r := s.netFrame kind flags dest (s.get K.network_DeviceAddress) body
  if dest == s.get K.network_DeviceAddress && dest != 0 then r.1.loopBack r.2 else r.1.netRoute r.2

/-- A frame for the link peer of a port: DEST 0x000. -/
def State.peerSend (s : State) (n kind : Nat) (body : List Nat) : State :=
  let r := s.netFrame kind 0 0 (s.get K.network_DeviceAddress) body
  if fabricUp s n then r.1.portPut n r.2 else r.1

/-! ### Undelivered frames (R305, R335) -/

/-- A frame that is for this link's peer alone, or was flooded: no other path leads it on. -/
def linkOnly (f : OutFrame) : Bool := field f.bytes 4 2 == 0 || field f.bytes 4 2 == 0xFFF

/-- A port's unacknowledged frames return to the network layer and are forwarded again on the present routes, under the checks of
R335 (log entry 176); frames that have not started yet take a present route as well. -/
def State.undelivered (s : State) (n : Nat) : State :=
  let p := s.port n
  let s := s.modPort n fun p => { p with buf := [], wait := [], round := .replicate 4 [], txSeq := 0, rxSeq := 0, retrying := false }
  let again (s : State) (f : OutFrame) : State := match s.lifeCheck f with
    | (some g, s) => s.netRouteAs g
    | (none, s) => s
  let s := ((p.buf.map (·.2)).filter fun f => !linkOnly f).foldl again s
  (p.wait.filter fun f => !linkOnly f).foldl (fun s f => s.netRouteAs f) s

end Sys2Proof.Machine
end

