-- ==== Sys2Proof/Machine/NetBase.lean ====
section
/-!
DEFINITION. The link-state database, liveness, routes and the election (spec/10, R328 to R334).
-/

namespace Sys2Proof.Machine

/-! ### This device in the database -/

/-- The device's UID as a number. -/
def ownUid (s : State) : Nat := s.get K.network_DeviceUid % 2 ^ 64
/-- The device's address. -/
def ownAddr (s : State) : Nat := s.get K.network_DeviceAddress
/-- MemberState. -/
def memberState (s : State) : Nat := s.get K.network_MemberState

/-- The links this device lists (R333): each UP_FABRIC or DEGRADED port that knows its peer, cost 1 or 8. -/
def ownLinks (s : State) : List LsaLink :=
  (fabricPorts s).filterMap fun n =>
    match (s.port n).peer with
    | some u => some ⟨u, n, s.get (K.port_PeerPort n), if s.portState n = 5 then 8 else 1⟩
    | none => none

/-- This device's own LSA as it would be held. -/
def ownLsa (s : State) : Lsa :=
  ⟨ownUid s, ownAddr s, s.net.lsaSeq, s.get K.network_RootPriority, memberState s, s.net.links, s.time.ms, true⟩

/-- Every LSA of the database, this device's among them. -/
def database (s : State) : List Lsa := ownLsa s :: s.net.lsas

/-- The body of an LSA (R336). -/
def lsaBody (l : Lsa) : List Nat :=
  toBytes 8 l.uid ++ toBytes 2 l.addr ++ toBytes 4 l.seq ++ [l.prio, l.state, l.links.length, 0]
    ++ l.links.flatMap fun k => toBytes 8 k.peer ++ [k.local_, k.port] ++ toBytes 2 k.cost

/-- The links in a body from an offset. -/
def lsaLinks (b : List Nat) : Nat → Nat → List LsaLink
  | 0, _ => []
  | n + 1, a => ⟨field b a 8, byteAt b (a + 8), byteAt b (a + 9), field b (a + 10) 2⟩ :: lsaLinks b n (a + 12)

/-- The LSA a body spells; none when its length disagrees. -/
def lsaOf (b : List Nat) (ms : Nat) (auth : Bool) : Option Lsa :=
  if b.length < 18 ∨ b.length ≠ 18 + 12 * byteAt b 16 ∨ byteAt b 17 ≠ 0 then none
  else some ⟨field b 0 8, field b 8 2, field b 10 4, byteAt b 14, byteAt b 15, lsaLinks b (byteAt b 16) 18, ms, auth⟩

/-! ### The graph -/

/-- A link that both ends list: from, to, the port it leaves by, its cost. -/
structure Edge where
  src : Nat
  dst : Nat
  port : Nat
  cost : Nat
  deriving DecidableEq, Repr

/-- Edges of the database: a link enters only when both of its ends list it (R333). -/
def edges (db : List Lsa) : List Edge :=
  db.flatMap fun a => a.links.filterMap fun k =>
    if db.any fun b => b.uid == k.peer && b.links.any fun r => r.peer == a.uid && r.local_ == k.port && r.port == k.local_
    then some ⟨a.uid, k.peer, k.local_, k.cost⟩ else none

/-- Devices reached from a set by edges, in at most `n` steps. -/
def reachSet (es : List Edge) : Nat → List Nat → List Nat
  | 0, l => l
  | n + 1, l =>
    let more := (es.filter fun e => l.contains e.src && !l.contains e.dst).map (·.dst)
    if more.isEmpty then l else reachSet es n (more.foldl (fun l u => if l.contains u then l else l ++ [u]) l)

/-- Devices live to this one (R329): their LSA is held and links that both ends report reach them. -/
def liveSet (s : State) : List Nat :=
  let db := database s
  reachSet (edges db) db.length [ownUid s]

/-- A device with an address is live. -/
def liveAddr (s : State) (a : Nat) : Bool :=
  (a == ownAddr s && a != 0) || (database s).any fun l => l.addr == a && (s.net.live.any fun p => p.1 == l.uid)

/-- Live devices as last computed. -/
def liveDb (s : State) : List Lsa := (database s).filter fun l => s.net.live.any fun p => p.1 == l.uid

/-- Distances to a destination by relaxation. -/
def distances (es : List Edge) : Nat → SMap Nat → SMap Nat
  | 0, d => d
  | n + 1, d =>
    let d' := es.foldl (fun d e =>
      let v := SMap.get 0 e.dst d
      let u := SMap.get 0 e.src d
      -- distances are held one higher, 0 for none
      if v = 0 then d else if u = 0 ∨ v + e.cost < u then SMap.set 0 e.src (v + e.cost) d else d) d
    if d' = d then d else distances es n d'

/-- The path of least cost from a device to a destination: the ports and devices on the way, equal costs decided by the
lower next-hop address and then by the lower port. -/
def pathFrom (addr : Nat → Nat) (es : List Edge) (d : SMap Nat) : Nat → Nat → Nat → List Edge
  | 0, _, _ => []
  | n + 1, u, dst =>
    if u = dst then []
    else
      let best := (es.filter fun e => e.src == u && SMap.get 0 e.dst d != 0).foldl (fun (o : Option Edge) e =>
        match o with
        | none => some e
        | some b =>
          let ce := SMap.get 0 e.dst d + e.cost
          let cb := SMap.get 0 b.dst d + b.cost
          if ce < cb ∨ (ce = cb ∧ (addr e.dst < addr b.dst ∨ (addr e.dst = addr b.dst ∧ e.port < b.port))) then some e else o) none
      match best with
      | none => []
      | some e => e :: pathFrom addr es d n e.dst dst

/-- A path to a destination over some edges; empty when there is none. -/
def pathOver (addr : Nat → Nat) (es : List Edge) (count src dst : Nat) : List Edge :=
  let p := pathFrom addr es (distances es (count + 1) (SMap.set 0 dst 1 [])) (count + 1) src dst
  match p.getLast? with
  | some e => if e.dst = dst then p else []
  | none => []

/-- The routes of the database (R334). With no intermediate device on the primary path only its links are removed
(log entry 17). -/
def routesOf (s : State) : List Route :=
  let db := database s
  let es := edges db
  let addr (u : Nat) : Nat := match db.find? fun l => l.uid == u with | some l => l.addr | none => 0
  let me := ownUid s
  (db.filter fun l => l.uid != me && l.addr != 0).filterMap fun l =>
    let p := pathOver addr es db.length me l.uid
    match p with
    | [] => none
    | e :: _ =>
      let mids := (p.map (·.dst)).filter fun u => u != l.uid
      let es1 := if mids.isEmpty then [] else es.filter fun e => !mids.contains e.src && !mids.contains e.dst
      let q := pathOver addr es1 db.length me l.uid
      -- both directions of the primary path's links are removed
      let es2 := es.filter fun e => !(p.any fun k => (k.src == e.src && k.port == e.port) ||
        (k.dst == e.src && k.src == e.dst && (es.any fun r => r.src == k.src && r.port == k.port && r.dst == e.src &&
          (db.any fun d => d.uid == e.src && d.links.any fun x => x.local_ == e.port && x.port == k.port && x.peer == k.src))))
      let q := if q.isEmpty then pathOver addr es2 db.length me l.uid else q
      some ⟨l.addr, e.port, q.head?.map (·.port)⟩

/-! ### Liveness, quorum -/

/-- The database has changed: liveness is judged again, routes and the election are due. -/
def State.dbChanged (s : State) : State :=
  let now := liveSet s
  let live := now.map fun u => (u, ((s.net.live.find? fun p => p.1 == u).map (·.2)).getD s.time.ms)
  let first := if s.net.dirty then s.net.dirtyAt else s.time.ms
  { s with net := { s.net with live := live, dbAt := s.time.ms, dirty := true, dirtyAt := first, unsettled := true } }

/-- LiveMembers: live devices, this one included. -/
def liveMembers (s : State) : Nat := max 1 s.net.live.length

/-- QuorumBase (R332): entries of the address table whose holders were live in the last 600 s. -/
def quorumBase (s : State) : Nat := (s.net.table.filter fun e => decide (s.since e.lastLive ≤ 600000)).length

/-- Quorum holds at the root, which holds the address table. -/
def quorum (s : State) : Bool := memberState s == 4 && decide (quorumBase s < liveMembers s * 2)

/-- Holders that are live are seen live. -/
def State.tableTick (s : State) : State :=
  let see (e : AddrEnt) : AddrEnt := if s.net.live.any fun p => p.1 == e.uid then { e with lastLive := s.time.ms } else e
  { s with net := { s.net with table := s.net.table.map see } }

/-! ### Flooding (R333) -/

/-- A frame for every device of the fabric goes out on every fabric port but one. -/
def State.flood (s : State) (body : List Nat) (but : Nat) : State :=
  let r := s.netFrame 1 0 0xFFF (s.get K.network_DeviceAddress) body
  (fabricPorts r.1).foldl (fun s n => if n = but then s else s.portPut n r.2) r.1

/-- This device floods its own LSA, under a new SEQ. -/
def State.lsaSend (s : State) : State :=
  let s := { s with net := { s.net with lsaSeq := (s.net.lsaSeq + 1) % 2 ^ 32, lsaAt := s.time.ms, links := ownLinks s } }
  s.flood (lsaBody (ownLsa s)) 255

/-- Put MemberState, and flood it. -/
def State.memberSet (s : State) (v : Nat) : State :=
  if memberState s = v then s else (s.set K.network_MemberState v).lsaSend

/-- The links of this device may have changed (R328, R333): it floods its LSA when they have; without a fabric port it is
ALONE, with its first one it begins to join. -/
def State.linksJudge (s : State) : State :=
  let old := s.net.links
  let up := !(fabricPorts s).isEmpty
  let s :=
    if !up then
      if memberState s = 0 then s
      else
        let s := (((s.set K.network_MemberState 0).set K.network_RootAddress 0).set K.network_Standby1 0).set K.network_Standby2 0
        { s with net := { s.net with joined := false, fetch := [] } }
    else if memberState s = 0 then
      let s := s.set K.network_MemberState 1
      { s with net := { s.net with joined := false, fetch := [], joinAt := 0 } }.lsaSend
    else s
  if ownLinks s = old then s else s.lsaSend.dbChanged

/-- A fabric port has come up: the peer's request for the database is answered with this device's own LSA and, with HOPS
counted down, every LSA held (R328; log entry 18). -/
def State.portJoined (s : State) (n : Nat) : State :=
  let s := s.linksJudge
  (database s).foldl (fun s l =>
    let r := s.netFrame 1 0 0xFFF (ownAddr s) (lsaBody l)
    let f := if l.uid = ownUid s then r.2 else withHops 15 r.2
    if fabricUp r.1 n then r.1.portPut n f else r.1) s

/-! ### The election (R331) -/

/-- One key is better than another: (RootPriority, DeviceUid), the lower the better. -/
def keyBetter (a b : Lsa) : Bool := decide (a.prio < b.prio) || (a.prio == b.prio && decide (a.uid < b.uid))

/-- The best of a list. -/
def bestKey (l : List Lsa) : Option Lsa :=
  l.foldl (fun (o : Option Lsa) a => match o with | none => some a | some b => if keyBetter a b then some a else o) none

/-- The root and the standbys of the present database. -/
def elect (s : State) : Option Lsa × Option Lsa × Option Lsa :=
  let live := liveDb s
  let able := live.filter fun (l : Lsa) => decide (l.prio < 255)
  let roots := live.filter fun (l : Lsa) => l.state == 4
  let root := match bestKey roots with
    | none => bestKey able
    | some r =>
      let above := able.filter fun (l : Lsa) => decide (l.prio < r.prio) &&
        (s.net.live.any fun p => p.1 == l.uid && decide (60000 ≤ s.since p.2))
      match bestKey above with
      | some b => some b
      | none => some r
  match root with
  | none => (none, none, none)
  | some r =>
    let rest := able.filter fun (l : Lsa) => l.uid != r.uid
    let s1 := bestKey rest
    let s2 := match s1 with | none => none | some a => bestKey (rest.filter fun (l : Lsa) => l.uid != a.uid)
    (some r, s1, s2)

end Sys2Proof.Machine
end

