-- ==== Sys2Proof/Machine/Ports.lean ====
section
/-!
DEFINITION. Ports and links (spec/09): training, link frames, the timing exchange, errors and retirement, launch queues.
-/

namespace Sys2Proof.Machine

/-! ### States of a port (R298 to R300) -/

/-- The mode a port follows: the host port runs ETHERNET. -/
def portMode (p : PortSt) : Nat := if p.host then 2 else p.mode

/-- An outcome of a launch entry (R322). -/
def State.launchOutcome (s : State) (e : LaunchEnt) (outcome stamp96 : Nat) : State :=
  let s := { s with ports := { s.ports with launch := s.ports.launch.erase e } }
  let s := s.append 0x7061 0x06 ((e.handle % 65536 * 256 + e.port * 8 + outcome) :: [3, 2, 1, 0].map fun i => bits stamp96 (24 * i + 23) (24 * i))
  if outcome = 1 then s.flag K.launchQueue_LaunchFlags 0 K.launchQueue_LateSent
  else if outcome = 2 then s.flag K.launchQueue_LaunchFlags 1 K.launchQueue_DelayedCount
  else if 3 ≤ outcome then s.flag K.launchQueue_LaunchFlags 2 K.launchQueue_DroppedCount
  else s

/-- Queued entries of ports are dropped (R323). -/
def State.launchDrop (s : State) (p : LaunchEnt → Bool) (outcome : Nat) : State :=
  (s.ports.launch.filter p).foldl (fun s e => s.launchOutcome e outcome 0) s

/-- A port leaves its UP state, DEGRADED or TRAINING for a state that carries no traffic (R305, R323). -/
def State.portLeave (s : State) (n toward : Nat) : State :=
  let s := (s.set (K.port_PortState n) toward).set (K.port_ActiveMode n) 0
  let s := (s.undelivered n).launchDrop (fun e => e.port == n) 3
  let s := s.modPort n fun p => { p with peer := none, launches := [], due := [], rxPrev := none }
  s.linksJudge

/-- Entry to TRAINING: a port that tries FABRIC sends HELLO. -/
def State.portTrain (s : State) (n : Nat) : State :=
  let s := s.portLeave n 1
  let s := s.modPort n fun p =>
    { p with since := s.elapsed, tryAt := s.elapsed, tryEth := portMode p == 2, failAt := none, helloIn := false, helloOut := false }
  let s := s.modPort n fun p => { p with retraining := false }
  if portMode (s.port n) = 2 then s else s.sendHello n

/-- A DOWN port that detects signal, with its reference and a mode, enters TRAINING, unless a failure is 1 s away. -/
def State.portTry (s : State) (n : Nat) : State :=
  let p := s.port n
  if decide (n < 32) && s.inRun && s.portState n == 0 && portMode p != 0 && s.ports.group.toList.getD (n / 8) false && p.signal && p.failAt.isNone
  then s.portTrain n else s

/-- SIGNAL_DETECT (R299, R300). -/
def State.signalDetect (s : State) (n : Nat) : State :=
  (s.modPort n fun p => { p with signal := true, locked := true }).portTry n

/-- GROUP_REFERENCE_VALID (R299). -/
def State.groupValid (s : State) (k : Nat) : State :=
  let s := { s with ports := { s.ports with group := .ofFn fun i => if i.val = k then true else s.ports.group[i] } }
  ((List.range 32).filter fun n => n / 8 == k).foldl (fun s n => s.portTry n) s

/-- A port is tried at a line rate (R298): AUTO at one at a time; the host port and ETHERNET at 1.25 Gbaud. -/
def trainsAt (p : PortSt) (eth : Bool) : Bool :=
  if portMode p = 3 then p.tryEth == eth else (portMode p == 2) == eth

/-- Some row of R300 ends TRAINING, with the group's reference (R299): FABRIC once HELLO has come and gone, ETHERNET, or the host
port. -/
def State.trainingComplete (s : State) (n : Nat) (eth : Bool) : State :=
  let p := s.port n
  if !(decide (n < 32) && s.portState n == 1 && trainsAt p eth && s.ports.group.toList.getD (n / 8) false
      && (eth || (p.helloIn && p.helloOut))) then s
  else
    let s := s.modPort n fun p =>
      { p with failAt := none, bad := 0, badRun := 0, clean := 0, failed := false, locked := true, retraining := false }
    if p.host then (s.set (K.port_PortState n) 4).set (K.port_ActiveMode n) 3
    else if eth then (s.set (K.port_PortState n) 3).set (K.port_ActiveMode n) 2
    else ((s.set (K.port_PortState n) 2).set (K.port_ActiveMode n) 1).portJoined n

/-- AUTO_MODE_SWITCH (R298): every 50 ms of training. -/
def State.autoSwitch (s : State) (n : Nat) : State :=
  let p := s.port n
  if decide (n < 32) && s.portState n == 1 && portMode p == 3 && decide (p.tryAt + 50 * MS ≤ s.elapsed) then
    let s := s.modPort n fun p => { p with tryEth := !p.tryEth, tryAt := s.elapsed }
    if (s.port n).tryEth then s else s.sendHello n
  else s

/-- TRAIN_FAIL (R300): 200 ms without success. -/
def State.trainFail (s : State) (n : Nat) : State :=
  let p := s.port n
  if decide (n < 32) && s.portState n == 1 && decide (p.since + 200 * MS ≤ s.elapsed) then
    let s := (s.portLeave n 0).flag (K.port_PortFlags n) 6 (K.port_TrainFailures n)
    s.modPort n fun p => { p with failAt := some s.elapsed }
  else s

/-- TRAIN_RETRY (R300): 1 s after a training failure. -/
def State.trainRetry (s : State) (n : Nat) : State :=
  let p := s.port n
  match p.failAt with
  | none => s
  | some a =>
    if decide (n < 32) && s.portState n == 0 && decide (a + SEC ≤ s.elapsed) then
      let s := s.modPort n fun p => { p with failAt := none }
      if portMode p = 0 ∨ s.ports.group.toList.getD (n / 8) false = false then s else s.portTrain n
    else s

/-- LOS (R299, R300): signal or symbol lock lost for 1 ms; `group` when the reference of the port's group is absent. -/
def State.los (s : State) (n : Nat) (group : Bool) : State :=
  let s := s.modPort n fun p => { p with signal := false, locked := false }
  let s := if group then
      { s with ports := { s.ports with group := .ofFn fun i => if i.val = n / 8 then false else s.ports.group[i] } }
    else s
  let st := s.portState n
  if decide (n < 32) && decide (2 ≤ st) && decide (st ≤ 5) then
    (s.flag (K.port_PortFlags n) 0 (K.port_LosEvents n)).portTrain n
  else s

/-- DEGRADED is entered from an UP state (R300); ActiveMode is kept. -/
def State.portDegrade (s : State) (n : Nat) : State :=
  let st := s.portState n
  if 2 ≤ st ∧ st ≤ 4 then
    (((s.set (K.port_PortState n) 5).flag (K.port_PortFlags n) 4 (K.port_DegradedEvents n)).modPort n fun p => { p with clean := 0 }).linksJudge
  else s

/-- The launches of a port whose record is not posted. -/
def openLaunches (s : State) (n : Nat) : List Launch := (s.port n).launches ++ (s.port n).due.map (·.1)

/-- A port retires (R313, R325), for failed retries (0) or bad seconds (1): each tick whose record is incomplete counts as MISSING. -/
def State.portRetire (s : State) (n cause : Nat) : State :=
  if s.portState n = 6 then s
  else
    let s := ((openLaunches s n).filter fun l => !l.missed).foldl (fun s _ =>
      s.flag (K.linkTiming_LinkTimingFlags n) 0 (K.linkTiming_MissingTicks n)) s
    ((s.portLeave n 6).flag (K.port_PortFlags n) 5 (K.port_RetiredEvents n)).log 0x0301 St.ok [n, cause]

/-! ### Link frames (R301 to R305) -/

/-- An ACK field: frames before it leave the retry buffer; an ACK that advances ends a run of failed retries. -/
def State.ackTo (s : State) (n a : Nat) : State :=
  let p := s.port n
  match p.buf with
  | [] => s
  | (q, _) :: _ =>
    let k := (a + 65536 - q) % 65536
    if 0 < k ∧ k ≤ p.buf.length then
      let s := s.modPort n fun p => { p with buf := p.buf.drop k, retrying := false, sentAt := s.elapsed }
      (s.set (K.port_FailedRetryRun n) 0).portGo n
    else s

/-- The sender resends from the oldest unacknowledged frame (R304); a resend that is NAKed or times out again is a failed
retry, which counts while the receiver holds symbol lock. -/
def State.resend (s : State) (n : Nat) : State :=
  let p := s.port n
  if p.buf.isEmpty then s
  else
    let s := if p.retrying && p.locked then
        let run := min 16 (s.get (K.port_FailedRetryRun n) + 1)
        (s.set (K.port_FailedRetryRun n) run).modPort n fun p => { p with failed := true, clean := 0 }
      else s
    let s := (s.flag (K.port_PortFlags n) 2 (K.port_Retries n)).modPort n fun p => { p with retrying := true, sentAt := s.elapsed }
    let run := s.get (K.port_FailedRetryRun n)
    if !(p.retrying && p.locked) then s
    else if 16 ≤ run then s.portRetire n 0
    else if 4 ≤ run then s.portDegrade n
    else s

/-- A bad frame (R302). -/
def State.badFrame (s : State) (n : Nat) (nak : Bool) : State :=
  let s := (s.flag (K.port_PortFlags n) 1 (K.port_CrcErrors n)).modPort n fun p => { p with bad := p.bad + 1 }
  if nak then s.sendCtl n 2 [] else s

/-- DATA (R304): accepted in order and passed up, a duplicate discarded silently, a gap NAKed. -/
def State.linkData (s : State) (n : Nat) (f : List Nat) : State :=
  if !linkRuns s n then s
  else
    let s := s.count (K.port_FramesRx n) 6
    if !(linkGood f && byteAt f 0 == 0x10) then s.badFrame n true
    else
      let s := s.ackTo n (field f 4 2)
      let q := field f 2 2
      let want := (s.port n).rxSeq
      if q = want then
        let s := s.modPort n fun p => { p with rxSeq := (want + 1) % 65536 }
        let s := { s with net := { s.net with inbox := s.net.inbox ++ [InFrame.mk n s.elapsed ((f.drop 8).take (field f 6 2))] } }
        s.sendCtl n 1 []
      else if (want + 65536 - q) % 65536 < 32768 then s
      else s.sendCtl n 2 []

/-- LINK_ACK (R304). -/
def State.linkAck (s : State) (n : Nat) (f : List Nat) : State :=
  if !linkRuns s n then s
  else
    let s := s.count (K.port_FramesRx n) 6
    if linkGood f && byteAt f 0 == 0x20 && byteAt f 1 == 1 then s.ackTo n (field f 4 2) else s.badFrame n true

/-- NAK (R304). -/
def State.linkNak (s : State) (n : Nat) (f : List Nat) : State :=
  if !linkRuns s n then s
  else
    let s := s.count (K.port_FramesRx n) 6
    if linkGood f && byteAt f 0 == 0x20 && byteAt f 1 == 2 then (s.ackTo n (field f 4 2)).resend n else s.badFrame n true

/-- The ACK timeout (R304): 2 δ + 10 µs, 500 µs before the first exchange. -/
def ackTimeout (s : State) (n : Nat) : Nat :=
  if (s.port n).posted.isSome then (2 * s.getI (K.linkTiming_MeanDelay n) 8 + (10 * US : Nat)).toNat else 500 * US

/-- ACK_TIMEOUT (R304). -/
def State.ackExpire (s : State) (n : Nat) : State :=
  let p := s.port n
  if linkRuns s n && !p.buf.isEmpty && decide (p.sentAt + ackTimeout s n ≤ s.elapsed) then s.resend n else s

/-- A period of R311 begins. -/
def State.asymBegin (s : State) (n : Nat) : State :=
  s.modPort n fun p => { p with asymAt := s.time.ms, asymSum := 0, asymN := 0 }

/-- HELLO (R301, R305, R311): RESTART returns the retry buffer; a new peer ends a measured asymmetry. -/
def State.hello (s : State) (n : Nat) (f : List Nat) : State :=
  let st := s.portState n
  if !(decide (n < 32) && ((st == 1 && portMode (s.port n) != 2) || fabricUp s n)) then s
  else
    let s := s.count (K.port_FramesRx n) 6
    if !(linkGood f && byteAt f 0 == 0x20 && byteAt f 1 == 3) then s.badFrame n true
    else
      let old := s.get (K.port_PeerAddress n)
      let new := field f 8 2
      let s := (s.set (K.port_PeerAddress n) new).set (K.port_PeerPort n) (byteAt f 10)
      let s := if old = new then s
        else if old = 0xFFFF then s.asymBegin n
        else ((s.set (K.linkTiming_MeasuredAsymmetry n) 0).set (K.linkTiming_AsymUncertainty n) 0).asymBegin n
      let s := if bit (byteAt f 11) 0 && st != 1 then s.undelivered n else s
      let s := s.modPort n fun p => { p with helloIn := true }
      if st = 1 then s.sendHello n else s.linksJudge

/-! ### The timing exchange (R306 to R312) -/

/-- A factory delay of a port. -/
def factoryDelay (s : State) (k : Nat) : Int := toInt 8 (s.get k % 2 ^ 64)

/-- The asymmetry this end would use by its own settings (R311). -/
def asymOwn (s : State) (n : Nat) : Int :=
  if s.get (K.linkTiming_AsymmetrySource n) == 1 && s.get (K.linkTiming_AsymUncertainty n) != 0
  then s.getI (K.linkTiming_MeasuredAsymmetry n) 8 else s.getI (K.linkTiming_Asymmetry n) 8

/-- A timing frame (R307). -/
def timingFrame (s : State) (n : Nat) (launch : Nat) : List Nat :=
  let p := s.port n
  let rx := p.rxPrev
  let m := [1, b2n rx.isSome + 2 * b2n p.stepped] ++ toBytes 2 (s.get K.network_DeviceAddress) ++ toBytes 8 s.time.tick
    ++ toBytes 12 launch ++ toBytes 12 ((rx.map (·.1)).getD 0) ++ toBytes 2 ((rx.map (·.2)).getD 0)
    ++ toBytes 8 (s.get (K.linkTiming_AsymInUse n))
  m ++ toBytes 4 (crc32c m)

/-- TIMING_FRAME_LAUNCH (R306): at the tick edge each fabric link launches its frame, `d` after t0, and stamps it. -/
def State.timingLaunch (s : State) (n d : Nat) : State :=
  if !fabricUp s n then s
  else
    let t1 := toTime96 (((s.time.t0 + d : Nat) : Int) + factoryDelay s (K.port_TxDelayFabric n)).toNat
    let f := timingFrame s n t1
    (s.count (K.port_FramesTx n) 6).modPort n fun p =>
      { p with frame := f, stepped := false, launches := (⟨s.time.tick, t1, none, none, false, false⟩ :: p.launches).take 16 }

/-- Every fabric link launches its frame (R306), `l` giving for a port the time after t0 of the first 4-byte boundary of its transmit
stream, less than 12.8 ns. -/
def State.timingLaunches (s : State) (l : List (Nat × Nat)) : State :=
  (fabricPorts s).foldl (fun s n => s.timingLaunch n (min 838860 (((l.find? fun p => p.1 == n).map (·.2)).getD 0))) s

/-- A timing frame is good. -/
def timingGood (f : List Nat) : Bool :=
  f.length == 50 && byteAt f 0 == 1 && decide (byteAt f 1 < 4) && field f 46 4 == crc32c (f.take 46)

/-- A change of the asymmetry this end gives is in force at the tick edge (R311). -/
def State.asymTick (s : State) (n : Nat) : State :=
  let a := asymOwn s n
  if a = (s.port n).asym then s
  else (s.setI (K.linkTiming_AsymInUse n) 8 a).modPort n fun p => { p with asym := a }

/-- ASYM of the two ends (R310): a difference of more than 10 ps from opposites counts, and the end with the higher address
uses the negative of the other's. -/
def State.asymMeet (s : State) (n peer : Nat) (theirs : Int) : State :=
  let mine := s.getI (K.linkTiming_AsymInUse n) 8
  if (mine + theirs).natAbs * 1000 ≤ 10 * 65536 then s
  else
    let s := s.flag (K.linkTiming_LinkTimingFlags n) 1 (K.linkTiming_AsymMismatches n)
    if peer < s.get K.network_DeviceAddress then s.setI (K.linkTiming_AsymInUse n) 8 (-theirs) else s

/-- TIMING_FRAME (R307, R308): stamped on receipt, `at_` after t0; it may give T3 and T4 of one exchange and T2 of another.
An exchange with all four stamps is due for posting 1 µs later. -/
def State.timingFrameIn (s : State) (n : Nat) (f : List Nat) : State :=
  if !fabricUp s n then s
  else
    let s := s.count (K.port_FramesRx n) 6
    if !timingGood f then s.badFrame n false
    else
      let rx := toTime96 ((s.time.now : Int) - factoryDelay s (K.port_RxDelayFabric n)).toNat
      let stepped := bit (byteAt f 1) 1
      let see (l : Launch) : Launch :=
        let l := if l.t34.isNone && decide (l.t1 ≤ rx) then { l with t34 := some (field f 12 12, rx), step := l.step || stepped } else l
        if bit (byteAt f 1) 0 && l.t2.isNone && l.tick % 65536 == field f 36 2 then
          { l with t2 := some (field f 24 12), step := l.step || stepped } else l
      let s := s.modPort n fun p =>
        let l := p.launches.map see
        let full (x : Launch) : Bool := x.t34.isSome && x.t2.isSome
        { p with rxPrev := some (rx, field f 4 8 % 65536), launches := l.filter fun x => !full x,
                 due := p.due ++ ((l.filter full).reverse.map fun x => (x, s.time.now + US)) }
      s.asymMeet n (field f 2 2) (toInt 8 (field f 38 8))

/-- θ and δ of an exchange in the DUR64 unit, convergently (R308); stamps are TIME96 images. -/
def exchange (l : Launch) (asym : Int) : Int × Int :=
  let t34 := l.t34.getD (0, 0)
  let a : Int := (l.t2.getD 0 : Int) - l.t1
  let b : Int := (t34.2 : Int) - t34.1
  let q : Int := (2 ^ 49 : Nat)
  (divRound ((a - b) * SEC - asym * (2 ^ 48 : Nat)) q, divRound ((a + b) * SEC) q)

/-- Words of a number, most significant first, of `n` words. -/
def wordsOf (n v : Nat) : List Nat := (List.range n).map fun i => (v / 2 ^ (24 * (n - 1 - i))) % 2 ^ 24

/-- Store words in shared memory from an address. -/
def State.sharedPut (s : State) (a : Nat) (l : List Nat) : State :=
  (List.zip (List.range l.length) l).foldl (fun s p =>
    { s with cpu := { s.cpu with shared := SMap.set 0 (a + p.1) (BitVec.ofNat 24 p.2) s.cpu.shared } }) s

/-- The timing record of a port (R309). A signed duration fills its top word with copies of its sign (R43). -/
def recordWords (n : Nat) (valid : Bool) (r : LinkRec) (l : Launch) (asym : Int) : List Nat :=
  let t34 := l.t34.getD (0, 0)
  let dur (i : Int) : List Nat := wordsOf 3 (ofInt 9 i)
  (b2n valid * 2 ^ 23 + b2n r.missing * 2 ^ 22 + b2n r.peerStep * 2 ^ 21 + b2n r.degraded * 2 ^ 20 + b2n r.jump * 2 ^ 19 + n)
    :: (wordsOf 3 (r.tick % 2 ^ 64) ++ wordsOf 4 l.t1 ++ wordsOf 4 (l.t2.getD 0) ++ wordsOf 4 t34.1 ++ wordsOf 4 t34.2
      ++ dur r.theta ++ dur r.delta ++ dur asym)

/-- TIMING_RECORD_POSTED (R309): the oldest exchange that is due. -/
def State.recordPost (s : State) (n : Nat) : State :=
  match (s.port n).due with
  | [] => s
  | (l, at_) :: rest =>
    if !(fabricUp s n && decide (at_ ≤ s.time.now)) then s
    else
      let p := s.port n
      let asym := s.getI (K.linkTiming_AsymInUse n) 8
      let x := exchange l asym
      let jump := p.posted.isSome &&
        decide (s.get (K.linkTiming_DelayJumpLimit n) * 65536 < (x.2 - s.getI (K.linkTiming_MeanDelay n) 8).natAbs * 1000)
      let r : LinkRec := { tick := l.tick, t1 := l.t1, theta := x.1, delta := x.2, missing := l.missed,
                           peerStep := l.step, degraded := s.portState n == 5, jump := jump }
      let s := s.modPort n fun p => { p with due := rest, posted := some l.tick, recs := r :: p.recs }
      let s := s.sharedPut (0x2F8000 + 32 * n) (recordWords n true r l asym)
      let s := s.setI (K.linkTiming_PeerOffset n) 8 (clamp (-(2 ^ 63 : Nat)) ((2 ^ 63 : Nat) - 1) x.1)
      let s := (s.setI (K.linkTiming_MeanDelay n) 8 (clamp (-(2 ^ 63 : Nat)) ((2 ^ 63 : Nat) - 1) x.2)).set (K.linkTiming_ExchangeTick n) (l.tick % 2 ^ 64)
      let s := if jump then s.flag (K.linkTiming_LinkTimingFlags n) 2 (K.linkTiming_DelayJumps n) else s
      if l.step then s.flag (K.linkTiming_LinkTimingFlags n) 3 (K.linkTiming_PeerSteps n) else s

/-- LINK_MISSING (R309): the exchange of the last tick has no record by t0 + 200 µs. -/
def State.linkMissing (s : State) (n : Nat) : State :=
  let k := s.time.tick - 1
  if fabricUp s n && decide (s.time.t0 + 200 * US ≤ s.time.now) && (openLaunches s n).any fun l => l.tick == k && !l.missed then
    let r : LinkRec := ⟨k, 0, 0, 0, true, false, s.portState n == 5, false⟩
    let miss (l : Launch) : Launch := if l.tick = k then { l with missed := true } else l
    let s := s.modPort n fun p =>
      { p with launches := p.launches.map miss, due := p.due.map fun d => (miss d.1, d.2), recs := r :: p.recs }
    let s := s.sharedPut (0x2F8000 + 32 * n) ((recordWords n false r ⟨k, 0, none, none, false, true⟩ 0).take 4)
    s.flag (K.linkTiming_LinkTimingFlags n) 0 (K.linkTiming_MissingTicks n)
  else s

/-- A VALID, TRUSTED solution of dual-frequency measurements alone, with x_g the offset it gives, enters the average of R311 of each
fabric link that measures: Δ + 2 (θ - x_g), to which the peer's part is added at the end of the period. -/
def State.asymSee (s : State) (x : Int) : State :=
  ((fabricPorts s).filter fun n => s.get (K.linkTiming_AsymmetrySource n) == 1 && (s.port n).posted.isSome).foldl (fun s n =>
    let v := s.getI (K.linkTiming_AsymInUse n) 8 + 2 * (s.getI (K.linkTiming_PeerOffset n) 8 - x)
    s.modPort n fun p => { p with asymSum := p.asymSum + v, asymN := p.asymN + 1 }) s

/-- ASYM_CAL_PERIOD (R311): `peer` is the mean of the peer's x_g over the period's solutions, `sigma` its σ_g in ps. A period in which no
solution entered writes nothing. -/
def State.asymCal (s : State) (n : Nat) (peer : Int) (sigma : Nat) : State :=
  let p := s.port n
  let t := s.get (K.linkTiming_AsymCalTime n)
  if decide (n < 32) && s.get (K.linkTiming_AsymmetrySource n) == 1 && fabricUp s n && decide (t * 1000 ≤ s.since p.asymAt) then
    if p.asymN = 0 then s.asymBegin n
    else
      let own := s.get K.timeSolution_SolutionSigma
      let u := rsqrt (4 * (own * own + sigma * sigma) * 60 / t)
      let mean := divRound (p.asymSum + 2 * p.asymN * peer) p.asymN
      let s := s.setI (K.linkTiming_MeasuredAsymmetry n) 8 (clamp (-(2 ^ 63 : Nat)) ((2 ^ 63 : Nat) - 1) mean)
      (s.set (K.linkTiming_AsymUncertainty n) (min (2 ^ 24 - 1) (max 1 u))).asymBegin n
  else s

/-! ### Errors, degradation, retirement (R313) -/

/-- ERROR_SECOND (R313): `errs` invalid code groups and disparity errors; bad frames are the port's own count. -/
def State.errorSecond (s : State) (n errs : Nat) : State :=
  let st := s.portState n
  if decide (n < 32) && s.atEdge && decide (s.time.t0 % SEC = 0) && decide (2 ≤ st) && decide (st ≤ 5) then
    let p := s.port n
    let total := errs + p.bad
    let bad := decide ((if s.get (K.port_ActiveMode n) = 1 then 4 else 2) ≤ total)
    let s := s.set (K.port_ErrorsLastSecond n) (min 0xFFFFFFFF total)
    let s := s.modPort n fun p => { p with bad := 0, failed := false, badRun := if bad then p.badRun + 1 else 0,
                                           clean := if bad || p.failed then 0 else p.clean + 1 }
    if bad then
      let s := s.flag (K.port_PortFlags n) 3 (K.port_BadSeconds n)
      if 10 ≤ p.badRun + 1 then s.portRetire n 1 else s.portDegrade n
    else s
  else s

/-- DEGRADED_RECOVERY (R300): 60 seconds with no bad second and no failed retry. -/
def State.recovery (s : State) (n : Nat) : State :=
  if decide (n < 32) && s.portState n == 5 && decide (60 ≤ (s.port n).clean) then
    (s.set (K.port_PortState n) (s.get (K.port_ActiveMode n) + 1)).linksJudge
  else s

/-- RETRAIN of PortCommand (R314): ACCEPTED; the port goes to TRAINING from any UP state or DEGRADED. -/
def State.retrain (s : State) (n : Nat) : State :=
  let st := s.portState n
  if 2 ≤ st ∧ st ≤ 5 then (s.portTrain n).modPort n fun p => { p with retraining := true } else s

/-- A RETRAIN has not finished: the port is in the TRAINING it began (R48). -/
def retrains (s : State) (n : Nat) : Bool := (s.port n).retraining && s.portState n == 1

/-! ### Launch queues (R320 to R323) -/

/-- A launch request: a list of its bytes with a frame of at most `most` bytes is refused (R320), or nothing. -/
def launchRefuses (s : State) (b : List Nat) (most : Nat) : Option (Nat × List Nat) :=
  let n := byteAt b 0
  let len := field b 14 2
  let at96 := field b 2 12
  if 2 ≤ byteAt b 1 then some (St.reservedBits, [])
  else if 31 < n ∨ len < 60 ∨ most < len ∨ toTime96 (s.time.now + 10 * SEC) < at96 then some (St.outOfRange, [])
  else if s.portState n = 6 then some (St.resourceRetired, [])
  else if !ethUp s n then some (St.notInState, [s.portState n, 0x28])
  else if 64 ≤ (s.ports.launch.filter fun e => e.port == n).length then some (St.busy, [])
  else if at96 < s.now96 ∧ byteAt b 1 = 0 then some (St.late, [])
  else none

/-- An accepted request: its handle, and its place by LAUNCH_AT and acceptance. -/
def State.launchAccept (s : State) (b : List Nat) : State × Nat :=
  let h := (s.ports.handle + 1) % 65536
  let at96 := field b 2 12
  let e : LaunchEnt := ⟨h, byteAt b 0, at96, byteAt b 1 == 1, decide (at96 < s.now96), (b.drop 16).take (field b 14 2)⟩
  ({ s with ports := { s.ports with handle := h, launch := insertBy (fun x y => decide (x.at96 ≤ y.at96)) e s.ports.launch } }, h)

/-- FRAME_LAUNCH (R321, R322): the first entry of a port whose LAUNCH_AT has come leaves the ball at the present instant. -/
def State.frameLaunch (s : State) (n : Nat) : State :=
  match s.ports.launch.find? fun e => e.port == n with
  | none => s
  | some e =>
    if ethUp s n && decide (e.at96 ≤ s.now96) then
      let stamp := toTime96 ((s.time.now : Int) + factoryDelay s (K.port_TxDelayEth n)).toNat
      let outcome := if e.late then 1 else if toTime96 (ofTime96 e.at96 + 16 * NS) < s.now96 then 2 else 0
      (s.count (K.port_FramesTx n) 6).launchOutcome e outcome stamp
    else s

/-! ### Tick, step, reset -/

/-- PortMode and HostPortNumber in force change at the tick edge (R80, R298). -/
def State.portsTick (s : State) : State :=
  let hp := s.get K.hostAccess_HostPortNumber
  let chosen := hp != s.host.port && s.portState hp == 6 && decide (hp < 32)
  let s := { s with host := { s.host with port := hp, barred := s.host.barred || chosen } }
  (List.range 32).foldl (fun s n =>
    let p := s.port n
    let mode := s.get (K.port_PortMode n)
    let host := n == hp && !s.host.barred
    let s := s.asymTick n
    if mode = p.mode ∧ host = p.host then (if p.wait.isEmpty then s else s.portGo n)
    else
      let was := portMode p
      let s := s.modPort n fun p => { p with mode := mode, host := host }
      let st := s.portState n
      if was = portMode (s.port n) ∧ host = p.host then s
      else if 1 ≤ st ∧ st ≤ 5 then (if portMode (s.port n) = 0 then s.portLeave n 0 else s.portTrain n)
      else s.portTry n) s

/-- PortMode is written DISABLED: DOWN at once, unless the port is the host port (R298, R300). -/
def State.portDisable (s : State) (n : Nat) : State :=
  if s.portState n = 6 ∨ (s.port n).host then s
  else (s.portLeave n 0).modPort n fun p => { p with mode := 0, failAt := none }

/-- The step (R323): queued launches are dropped, the next timing frames carry STEPPED. Stamps taken before it stand. -/
def State.portsStep (s : State) : State :=
  let s := s.launchDrop (fun _ => true) 4
  (List.range 32).foldl (fun s n => s.modPort n fun p => { p with stepped := true }) s

/-- A warm reset (R324): retry buffers, launch queues and their results are emptied. -/
def State.portsReset (s : State) : State :=
  let s := { s with ports := { s.ports with launch := [] } }
  let s := s.setStream 0x7061 []
  (List.range 32).foldl (fun s n => s.modPort n fun p =>
    { p with buf := [], wait := [], round := .replicate 4 [], txSeq := 0, rxSeq := 0, retrying := false, restart := true }) s

/-- After the restart each fabric port sends HELLO with RESTART (R324). -/
def State.portsHello (s : State) : State := (fabricPorts s).foldl (fun s n => s.sendHello n) s

/-- A reset with its self-test (R300): RETIRED ports that pass go DOWN. -/
def State.portsSelfTest (s : State) (failed : List Nat) : State :=
  (List.range 32).foldl (fun s n => if s.portState n = 6 ∧ !(failed.contains n) then s.set (K.port_PortState n) 0 else s) s

end Sys2Proof.Machine
end

