-- ==== Sys2Proof/Machine/NetIn.lean ====
section
/-!
DEFINITION. Taking network frames that have arrived: the checks of R335, R337, R405 and R406, and identifiers (spec/10, R341,
R342).
-/

namespace Sys2Proof.Machine

/-! ### Frames that have arrived -/

/-- A frame is for this device: its own address, the link peer, or every device (R327). -/
def forUs (s : State) (f : List Nat) : Bool :=
  let d := field f 4 2
  d == 0 || d == 0xFFF || d == ownAddr s

/-- A frame taken: where it came in, its key slot if it carried a valid trailer, its source, flags, HOPS and body. -/
structure NetFrame where
  port : Nat
  slot : Option Nat
  source : Nat
  dest : Nat
  flags : Nat
  hops : Nat
  body : List Nat
  bytes : List Nat
  deriving DecidableEq, Repr

/-- The first frame of the inbox that is for this device and passes a test, taken out of it. -/
def State.inboxTake (s : State) (test : List Nat → Bool) : Option (InFrame × State) :=
  match s.net.inbox.find? fun e => forUs s e.bytes && test e.bytes with
  | none => none
  | some e => some (e, { s with net := { s.net with inbox := s.net.inbox.erase e } })

/-- The checks of a frame that is for this device: form (R337), age (R335), authentication (R405, R406). A frame that fails
one is discarded and counted. -/
def State.netOpen (s : State) (e : InFrame) : Option NetFrame × State :=
  let f := e.bytes
  if !netGood f then (none, s.netDrop K.network_DropBad)
  else if 50000 ≤ field f 8 2 then (none, s.netDrop K.network_DropAge)
  else
    let src := field f 6 2
    let r (slot : Option Nat) : NetFrame := ⟨e.port, slot, src, field f 4 2, byteAt f 2, byteAt f 3, netBody f, f⟩
    match netTrailer f with
    | none =>
      if bit s.prot.required (kindAuth (byteAt f 1)) then (none, s.authFail none) else (some (r none), s)
    | some t =>
      let k := byteAt t 0
      if authValid s src (zeroLife (f.take (f.length - 28))) t then (some (r (some k)), s.counterSee src k (field t 2 6))
      else (none, s.authFail (if k < 16 then some k else none))

/-- The first frame of a KIND whose body passes a test, opened; the state after it was taken out. -/
def State.netTake (s : State) (kind : Nat) (test : List Nat → Bool) : Option NetFrame × State :=
  match s.inboxTake fun f => byteAt f 1 == kind && test (f.drop 12) with
  | none => (none, s)
  | some (e, s) => s.netOpen e

/-- A frame whose body is not laid out as its KIND says: its LEN disagrees, or a reserved bit is set (R337). -/
def State.netBad (s : State) : State := s.netDrop K.network_DropBad

/-! ### Identifiers (R341, R342) -/

/-- An open transaction or journal entry holds a pair. -/
def idHeld (s : State) (epoch number : Nat) : Bool :=
  (s.net.txns.any fun t => t.epoch == epoch && t.number == number)
    || (s.net.entries.any fun e => e.epoch == epoch && e.number == number)

/-- The next number is used: NextNumber increments, and Epoch with its wrap. -/
def State.idNext (s : State) : State :=
  let n := (s.get K.network_NextNumber + 1) % 65536
  let s := s.set K.network_NextNumber n
  if n = 0 then s.set K.network_Epoch ((s.get K.network_Epoch + 1) % 65536) else s

/-- Pairs that are held are skipped. -/
def State.idSkip (s : State) : Nat → State
  | 0 => s
  | k + 1 => if idHeld s (s.get K.network_Epoch) (s.get K.network_NextNumber) then s.idNext.idSkip k else s

/-- The present pair is assigned. -/
def State.idTake (s : State) : (Nat × Nat) × State :=
  let s := s.idSkip (s.net.txns.length + s.net.entries.length)
  ((s.get K.network_Epoch, s.get K.network_NextNumber), s.idNext)

/-- A reply or acknowledgement that matches no open entry (R342). -/
def State.staleDiscard (s : State) : State := s.flag K.network_NetFlags 3 K.network_StaleDiscards

/-- `a` is newer than `b` in serial arithmetic of `n` bits. -/
def serialNewer (n a b : Nat) : Bool := let d := (a + 2 ^ n - b % 2 ^ n) % 2 ^ n; decide (0 < d) && decide (d < 2 ^ (n - 1))

/-- Add milliseconds to a TIME96 image. -/
def plusMs (t ms : Nat) : Nat := t + toTime96 (ms * MS)

end Sys2Proof.Machine
end

