-- ==== Sys2Proof/Machine/Messages.lean ====
section
/-!
DEFINITION. Message channels, the journal and delivery (spec/10, R345 to R356, R359, R360).
-/

namespace Sys2Proof.Machine

/-! ### The MESSAGE body (R349) -/

def msgBody (m : Msg) : List Nat :=
  toBytes 2 m.epoch ++ toBytes 2 m.number ++ [m.channel, m.flags] ++ toBytes 6 m.chseq ++ toBytes 2 m.keeper
    ++ toBytes 12 m.deliverAt ++ toBytes 12 m.expires ++ toBytes 2 m.payload.length ++ m.payload

/-- The message a body spells; none where its length disagrees or a reserved bit is set. -/
def msgOf (b : List Nat) : Option Msg :=
  let n := field b 38 2
  if b.length < 40 ∨ b.length ≠ 40 + n ∨ 1024 < n ∨ 64 ≤ byteAt b 4 ∨ 32 ≤ byteAt b 5 ∨ 4096 ≤ field b 12 2 then none
  else some { epoch := field b 0 2, number := field b 2 2, channel := byteAt b 4, flags := byteAt b 5, chseq := field b 6 6,
              keeper := field b 12 2, deliverAt := field b 14 12, expires := field b 26 12, payload := b.drop 40 }

/-- MFLAGS. -/
def Msg.write (m : Msg) : Bool := bit m.flags 1
def Msg.late (m : Msg) : Bool := bit m.flags 2
def Msg.open_ (m : Msg) : Bool := bit m.flags 3
def Msg.close (m : Msg) : Bool := bit m.flags 4

/-- The fields that name a copy: EPOCH, NUMBER, CHANNEL, reserved, CHSEQ (R336). -/
def copyName (m : Msg) : List Nat := toBytes 2 m.epoch ++ toBytes 2 m.number ++ [m.channel, 0] ++ toBytes 6 m.chseq

/-! ### The journal (R348) -/

/-- Journal bytes of an acceptance, of a receipt or keeper copy. -/
def acceptBytes (count plen : Nat) : Nat := 64 + 16 * count + plen
def receiptBytes (plen : Nat) : Nat := 64 + plen

/-- Bytes and entries the journal holds. -/
def journalUsed (s : State) : Nat :=
  (s.net.entries.map fun e => acceptBytes e.copies.length e.payload.length).sum
    + (s.net.receipts.map fun r => receiptBytes r.msg.payload.length).sum
    + (s.net.keepers.map fun k => receiptBytes k.msg.payload.length).sum
def journalEntries (s : State) : Nat := s.net.entries.length + s.net.receipts.length + s.net.keepers.length

/-- The journal takes a write: the budget of the tick and the capacity allow it. -/
def journalFits (s : State) (msgs bytes : Nat) : Bool :=
  decide (s.net.spentMsgs + msgs ≤ 250) && decide (s.net.spentBytes + bytes ≤ 256000)
    && decide (journalUsed s + bytes ≤ 3145728) && decide (journalEntries s < 65536)

/-- A journal write draws on the budget. -/
def State.journalSpend (s : State) (msgs bytes : Nat) : State :=
  { s with net := { s.net with spentMsgs := s.net.spentMsgs + msgs, spentBytes := s.net.spentBytes + bytes } }

/-- JournalBytesFree, JournalEntries and ReceiveRecords as they stand. -/
def State.journalSync (s : State) : State :=
  ((s.set K.messages_JournalBytesFree (3145728 - journalUsed s)).set K.messages_JournalEntries (journalEntries s)).set
    K.messages_ReceiveRecords s.net.recvs.length

/-- A JOURNAL_FULL answer or rejection. -/
def State.journalRefused (s : State) : State := s.flag K.messages_MsgFlags 0 K.messages_JournalFullCount

/-! ### Sending copies (R349) -/

/-- The MESSAGE of a copy. -/
def copyMsg (e : SrcEnt) (c : Copy) : Msg :=
  { epoch := e.epoch, number := e.number, channel := c.channel, flags := e.flags, chseq := c.chseq, keeper := c.keeper,
    deliverAt := e.deliverAt, expires := e.expires, payload := e.payload }

/-- A copy goes out, on both paths with PathMode DUAL. -/
def State.copySend (s : State) (e : SrcEnt) (c : Copy) : State :=
  let b := msgBody (copyMsg e c)
  if s.get (K.outChannel_PathMode c.channel) = 1 then (s.netSend 7 4 c.dest b).netSend 7 12 c.dest b
  else s.netSend 7 0 c.dest b

/-- RetryTime. -/
def retryTime (s : State) : Nat := s.get K.messages_RetryTime

/-- Change the copies of an entry. -/
def State.modCopies (s : State) (epoch number : Nat) (f : Copy → Copy) : State :=
  { s with net := { s.net with entries := s.net.entries.map fun e =>
      if e.epoch = epoch ∧ e.number = number then { e with copies := e.copies.map f } else e } }

/-- A new entry is journalled and its copies go out: each takes the next CHSEQ of its channel. -/
def State.entryAccept (s : State) (e : SrcEnt) : State :=
  let n := e.copies.length
  let s := s.journalSpend n (acceptBytes n e.payload.length)
  let s := { s with net := { s.net with entries := s.net.entries ++ [e] } }
  let s := e.copies.foldl (fun s c =>
    (s.set (K.outChannel_NextSeq c.channel) ((c.chseq + 1) % 2 ^ 48)).bump (K.outChannel_OpenEntries c.channel) 2) s
  let s := e.copies.foldl (fun s c => s.copySend e c) s
  s.journalSync

/-! ### Outcomes (R350) -/

/-- The result of a copy in MessageResultStream. -/
def resultWords (e : SrcEnt) (c : Copy) (outcome : Nat) : List Nat :=
  [e.ref / 256, e.ref % 256 * 65536 + c.channel * 256 + outcome, c.chseq / 2 ^ 24, c.chseq % 2 ^ 24, e.epoch * 256, e.number * 256]

/-- What the end of an OPEN or CLOSE message does to its channel (R345). -/
def State.channelOutcome (s : State) (e : SrcEnt) (k outcome : Nat) : State :=
  let st := s.get (K.outChannel_ChannelState k)
  let put (s : State) (v r : Nat) : State := (s.set (K.outChannel_ChannelState k) v).set (K.outChannel_ChannelResult k) r
  if bit e.flags 3 ∧ st = 1 then
    if outcome = 0 then put s 2 St.ok else if outcome = 1 then put s 0 St.timeout else s
  else if bit e.flags 4 ∧ st = 3 then
    if outcome = 0 then put s 0 St.ok else if outcome = 1 then put s 0 St.timeout else s
  else s

/-- An entry all of whose copies are closed leaves the journal, and its keepers are released. -/
def State.entryEnd (s : State) (e : SrcEnt) : State :=
  if e.copies.any fun c => c.outcome.isNone then s
  else
    let s := { s with net := { s.net with entries := s.net.entries.filter fun x => !(x.epoch == e.epoch && x.number == e.number) } }
    let s := e.copies.foldl (fun s c => if c.keeper = 0 then s else s.netSend 9 0 c.keeper ([3, 0] ++ copyName (copyMsg e c))) s
    s.journalSync

/-- A copy closes with an outcome: 0 CONFIRMED, 1 EXPIRED, 2 UNCONFIRMED. -/
def State.copyClose (s : State) (epoch number channel outcome : Nat) : State :=
  match s.net.entries.find? fun e => e.epoch == epoch && e.number == number with
  | none => s
  | some e =>
    match e.copies.find? fun c => c.channel == channel && c.outcome.isNone with
    | none => s
    | some c =>
      let s := s.modCopies epoch number fun x => if x.channel = channel then { x with outcome := some outcome } else x
      let s := s.set (K.outChannel_OpenEntries channel) (s.get (K.outChannel_OpenEntries channel) - 1)
      let s := if outcome = 1 then s.flag K.messages_MsgFlags 4 K.messages_ExpiredCount
        else if outcome = 2 then s.flag K.messages_MsgFlags 3 K.messages_UnconfirmedCount else s
      let s := (s.append 0x7032 0x08 (resultWords e c outcome)).channelOutcome e channel outcome
      match s.net.entries.find? fun e => e.epoch == epoch && e.number == number with
      | some e => s.entryEnd e
      | none => s

/-- An OPEN message answered with JOURNAL_FULL: final (R345). -/
def State.openRefused (s : State) (e : SrcEnt) (k : Nat) : State :=
  let s := { s with net := { s.net with entries := s.net.entries.filter fun x => !(x.epoch == e.epoch && x.number == e.number) } }
  let s := s.set (K.outChannel_OpenEntries k) (s.get (K.outChannel_OpenEntries k) - 1)
  let s := if s.get (K.outChannel_ChannelState k) = 1 then
      (s.set (K.outChannel_ChannelState k) 0).set (K.outChannel_ChannelResult k) St.journalFull else s
  s.journalSync

/-! ### Channel commands (R345) -/

/-- A write to ChannelCommand that the channel's state refuses. -/
def channelRefuses (s : State) (k v : Nat) : Option (Nat × List Nat) :=
  let st := s.get (K.outChannel_ChannelState k)
  if v = 1 then if st = 0 ∨ st = 4 then none else some (St.notInState, [st, 0x11])
  else if st = 2 then none else some (St.notInState, [st, 0x04])

/-- Destination, Keeper and PathMode may be written only in CLOSED or BROKEN. -/
def channelHolds (s : State) (index sub : Nat) : Option (Nat × List Nat) :=
  if 0x7080 ≤ index ∧ index < 0x70C0 ∧ 1 ≤ sub ∧ sub ≤ 3 then
    let st := s.get (K.outChannel_ChannelState (index - 0x7080))
    if st = 0 ∨ st = 4 then none else some (St.notInState, [st, 0x11])
  else none

/-- OPEN and CLOSE: the message is journalled and sent, or the journal cannot take it. -/
def State.channelCommand (s : State) (k v : Nat) : State :=
  let s := s.answer St.accepted []
  if !journalFits s 1 (acceptBytes 1 0) then (s.set (K.outChannel_ChannelResult k) St.journalFull).journalRefused
  else
    let r := s.idTake
    let s := r.2
    let c : Copy := { channel := k, chseq := s.get (K.outChannel_NextSeq k), dest := s.get (K.outChannel_Destination k),
                      keeper := 0, interval := retryTime s, at_ := s.elapsed, outcome := none }
    let e : SrcEnt := { epoch := r.1.1, number := r.1.2, ref := 0, flags := if v = 1 then 8 else 16, deliverAt := 0,
                        expires := plusMs s.now96 (s.get K.messages_DefaultExpiry), payload := [], copies := [c] }
    let s := (s.set (K.outChannel_ChannelState k) (if v = 1 then 1 else 3)).set (K.outChannel_ChannelResult k) St.accepted
    s.entryAccept e

/-! ### Submissions (R346, R347) -/

/-- The channels a submission names. -/
def subChannels (b : List Nat) : List Nat := (b.drop 2).take (byteAt b 0) |>.map (· % 256)

/-- DELIVER_AT, and EXPIRES as resolved. -/
def subDeliver (b : List Nat) : Nat := field b 14 12
def subExpires (s : State) (b : List Nat) : Nat :=
  let x := field b 26 12
  if x ≠ 0 then x
  else plusMs (if subDeliver b = 0 then s.now96 else subDeliver b) (s.get K.messages_DefaultExpiry)

/-- The first check of R347 that a submission of 1,064 bytes fails, in the order of R53, up to the keepers. -/
def subRefuses (s : State) (b : List Nat) : Option (Nat × List Nat) :=
  let count := byteAt b 0
  let plen := field b 38 2
  let ch := subChannels b
  let at96 := subDeliver b
  if bit (byteAt b 1) 1 ∧ (plen < 5 ∨ field b 43 2 + 5 ≠ plen) then some (St.lengthMismatch, [])
  else if 4 ≤ byteAt b 1 then some (St.reservedBits, [])
  else if count = 0 ∨ 8 < count ∨ (ch.any fun c => decide (63 < c)) ∨ ch.eraseDups.length ≠ ch.length ∨ 1024 < plen
      ∨ ((b.drop (2 + count)).take (8 - count)).any (· % 256 != 0) ∨ (b.drop (40 + plen)).any (· % 256 != 0)
      ∨ subExpires s b < at96 ∨ s.now96 + s.get K.messages_MaxDeliverAhead * 2 ^ 48 < at96
      ∨ (at96 ≠ 0 ∧ ch.any fun c => decide (at96 < s.get (K.outChannel_LastDeliverAt c))) then some (St.outOfRange, [])
  else match ch.find? fun c => s.get (K.outChannel_ChannelState c) != 2 with
    | some c => some (St.notInState, [s.get (K.outChannel_ChannelState c), 0x04])
    | none =>
      if !journalFits s count (acceptBytes count plen) then some (St.journalFull, [])
      else
        let keepers := (ch.map fun c => s.get (K.outChannel_Keeper c)).filter (· != 0)
        if keepers.any fun k => !hasRoute s k then some (St.noRoute, [])
        else if keepers.isEmpty ∧ at96 ≠ 0 ∧ at96 < s.now96 ∧ !bit (byteAt b 1) 0 then some (St.late, [])
        else none

/-- The entry of a submission under an identifier. -/
def subEntry (s : State) (b : List Nat) (id : Nat × Nat) : SrcEnt :=
  let at96 := subDeliver b
  let late := decide (at96 ≠ 0) && decide (at96 < s.now96)
  { epoch := id.1, number := id.2, ref := field b 10 4, flags := byteAt b 1 % 4 + (if late then 4 else 0), deliverAt := at96,
    expires := subExpires s b, payload := (b.drop 40).take (field b 38 2),
    copies := (subChannels b).map fun c =>
      { channel := c, chseq := s.get (K.outChannel_NextSeq c), dest := s.get (K.outChannel_Destination c),
        keeper := s.get (K.outChannel_Keeper c), interval := retryTime s, at_ := s.elapsed, outcome := none } }

/-- The submission is accepted: its copies, LastAcceptedRef, LastDeliverAt, the reply with EPOCH and NUMBER. -/
def State.subAccept (s : State) (e : SrcEnt) : State :=
  let e := { e with copies := e.copies.map fun c => { c with at_ := s.elapsed } }
  let s := s.entryAccept e
  let s := e.copies.foldl (fun s c =>
    let s := s.count K.messages_MessagesAccepted 6
    if e.deliverAt = 0 then s else s.set (K.outChannel_LastDeliverAt c.channel) e.deliverAt) s
  (s.set K.messages_LastAcceptedRef e.ref).answer St.accepted (toBytes 2 e.epoch ++ toBytes 2 e.number)

/-- A submission that has passed its checks: accepted at once, or held until every keeper has answered HELD. -/
def State.subTake (s : State) (ctx : Ctx) (b : List Nat) : State :=
  let r := s.idTake
  let e := subEntry s b r.1
  let s := r.2
  let kept := e.copies.filter fun c => c.keeper != 0
  if kept.isEmpty then s.subAccept e
  else
    let late := bit e.flags 2 && !bit e.flags 0
    let w : SubWait := { ctx := ctx, ent := e, await := kept.map (·.channel), at_ := s.elapsed, late := late }
    let s := { s with net := { s.net with submit := some w } }
    kept.foldl (fun s c => s.netSend 9 0 c.keeper ([1, 0] ++ msgBody (copyMsg e c))) s

/-- A submission ends without acceptance: nothing stays journalled, at the keepers neither. -/
def State.subDrop (s : State) (w : SubWait) (status : Nat) : State :=
  let s := { s with net := { s.net with submit := none } }
  let s := w.ent.copies.foldl (fun s c =>
    if c.keeper = 0 then s else s.netSend 9 0 c.keeper ([3, 0] ++ copyName (copyMsg w.ent c))) s
  s.answer status []

/-- Every keeper has answered: acceptance, or LATE. A channel that broke meanwhile ends its copy UNCONFIRMED. -/
def State.subFinish (s : State) (w : SubWait) : State :=
  if w.late then s.subDrop w St.late
  else
    let s := { s with net := { s.net with submit := none } }
    let s := s.subAccept w.ent
    let r := s.reply
    let s := w.ent.copies.foldl (fun s c =>
      if s.get (K.outChannel_ChannelState c.channel) = 4 then s.copyClose w.ent.epoch w.ent.number c.channel 2 else s) s
    { s with reply := r }

/-- KEEPER_HELD (R347): HELD from the keeper of a copy awaited. -/
def State.keeperHeld (s : State) : State :=
  match s.netTake 9 fun b => byteAt b 0 == 2 with
  | (none, s) => s
  | (some f, s) =>
    if f.body.length ≠ 14 ∨ byteAt f.body 1 ≠ 0 ∨ byteAt f.body 7 ≠ 0 then s.netBad
    else match s.net.submit with
      | none => s.staleDiscard
      | some w =>
        let c := byteAt f.body 6
        if w.ent.epoch = field f.body 2 2 ∧ w.ent.number = field f.body 4 2 ∧ w.await.contains c
            ∧ (w.ent.copies.any fun x => x.channel == c && x.keeper == f.source && x.chseq == field f.body 8 6) then
          let w := { w with await := w.await.filter (· != c) }
          if w.await.isEmpty then s.subFinish w else { s with net := { s.net with submit := some w } }
        else s.staleDiscard

/-- KEEPER_HELD_TIMEOUT (R347). -/
def State.keeperTimeout (s : State) : State :=
  match s.net.submit with
  | none => s
  | some w => if w.at_ + 10 * MS ≤ s.elapsed then s.subDrop w St.timeout else s

/-! ### The destination (R350) -/

/-- The receive record of a source and channel. -/
def recvOf (s : State) (source channel : Nat) : Option RecvRec :=
  s.net.recvs.find? fun r => r.source == source && r.channel == channel

/-- Set what a record expects; it is created where there is none. -/
def State.recvSet (s : State) (source channel next : Nat) : State :=
  let rest := s.net.recvs.filter fun r => !(r.source == source && r.channel == channel)
  let old := recvOf s source channel
  let r : RecvRec := ⟨source, channel, next % 2 ^ 48, match old with | some r => r.freeAt | none => none⟩
  { s with net := { s.net with recvs := rest ++ [r] } }

/-- Free a record later: 100 ms from now. -/
def State.recvFree (s : State) (source channel : Nat) : State :=
  { s with net := { s.net with recvs := s.net.recvs.map fun r =>
      if r.source = source ∧ r.channel = channel then { r with freeAt := some (s.elapsed + 100 * MS) } else r } }

/-- MESSAGE_ACK of a copy, to the keeper of a relayed one. -/
def State.msgAck (s : State) (f : NetFrame) (m : Msg) (status : Nat) : State :=
  s.netSend 8 0 (if bit f.flags 5 then m.keeper else f.source) (copyName m ++ toBytes 2 status)

/-- Timed entries are held: the device is in UNSET, or its first step has not been made (R359). -/
def timedHeld (s : State) : Bool := s.timing == 0 || (s.time.due.any fun d => !d.reseed)

/-- The receipt of a copy in sequence. -/
def receiptOf (s : State) (f : NetFrame) (m : Msg) : Receipt :=
  { source := f.source, msg := m, slot := f.slot, relayed := bit f.flags 5, ready := s.time.now,
    arrivedLate := decide (m.deliverAt ≠ 0) && !timedHeld s && decide (m.deliverAt < s.now96), steppedOver := false,
    stage := 0, failed := none }

/-- Entries due within the present tick move to the delivery queue (R352). -/
def State.deliveryMove (s : State) : State :=
  let edge := toTime96 (s.time.t0 + MS)
  { s with net := { s.net with receipts := s.net.receipts.map fun r =>
      if r.stage = 0 ∧ (r.msg.deliverAt = 0 ∨ r.msg.late ∨ r.steppedOver ∨ (r.msg.deliverAt < edge ∧ !timedHeld s)) then
        { r with stage := 1 } else r } }

/-- A copy is journalled and acknowledged. -/
def State.receiptTake (s : State) (f : NetFrame) (m : Msg) : State :=
  let n := receiptBytes m.payload.length
  if m.open_ then (s.recvSet f.source m.channel (m.chseq + 1)).journalSync.msgAck f m St.ok
  else if !journalFits s 1 n then s.journalRefused.msgAck f m St.journalFull
  else
    let r := receiptOf s f m
    let s := (s.journalSpend 1 n).recvSet f.source m.channel (m.chseq + 1)
    let s := { s with net := { s.net with receipts := s.net.receipts ++ [r] } }
    let s := if r.arrivedLate then s.flag K.messages_MsgFlags 1 K.messages_ArrivedLateCount else s
    s.journalSync.deliveryMove.msgAck f m St.ok

/-- A copy has arrived (R350). An OPEN message sets what the record expects to its own CHSEQ (R345). -/
def State.msgIn (s : State) : State :=
  match s.netTake 7 fun _ => true with
  | (none, s) => s
  | (some f, s) =>
    match msgOf f.body with
    | none => s.netBad
    | some m =>
      let judge (s : State) (e : Nat) : State :=
        if m.chseq < e then (s.flag K.messages_MsgFlags 2 K.messages_DuplicateCount).msgAck f m St.ok
        else if e < m.chseq then s
        else if m.expires < s.now96 then
          let s := (s.recvSet f.source m.channel (m.chseq + 1)).journalSync
          let s := if m.close then s.recvFree f.source m.channel else s
          s.msgAck f m St.timeout
        else s.receiptTake f m
      match recvOf s f.source m.channel with
      | some r =>
        if m.open_ ∧ r.next ≤ m.chseq then
          -- the record is in use again
          let s := { s with net := { s.net with recvs := s.net.recvs.map fun x =>
            if x.source = f.source ∧ x.channel = m.channel then { x with freeAt := none } else x } }
          judge s m.chseq
        else judge s r.next
      | none =>
        if !m.open_ then s
        else if 4096 ≤ s.net.recvs.length then s.journalRefused.msgAck f m St.journalFull
        else judge s m.chseq

/-! ### The source again -/

/-- Resend interval after another sending: doubled, at most 1 s. -/
def nextInterval (i : Nat) : Nat := min 1000 (2 * i)

/-- MESSAGE_ACK (R350). -/
def State.ackIn (s : State) : State :=
  match s.netTake 8 fun _ => true with
  | (none, s) => s
  | (some f, s) =>
    let b := f.body
    if b.length ≠ 14 ∨ byteAt b 5 ≠ 0 ∨ 64 ≤ byteAt b 4 then s.netBad
    else
      let epoch := field b 0 2
      let number := field b 2 2
      let k := byteAt b 4
      let status := field b 12 2
      let seq := field b 6 6
      let hit (c : Copy) : Bool := c.channel == k && c.chseq == seq && c.dest == f.source && c.outcome.isNone
      match s.net.entries.find? fun e => e.epoch == epoch && e.number == number && e.copies.any hit with
      | some e =>
        if status = St.ok then s.copyClose epoch number k 0
        else if status = St.timeout then s.copyClose epoch number k 1
        else if status = St.journalFull then
          if bit e.flags 3 then s.openRefused e k
          else s.modCopies epoch number fun c => if hit c then { c with interval := retryTime s, at_ := s.elapsed } else c
        else s
      | none =>
        match s.net.keepers.find? fun x => x.msg.epoch == epoch && x.msg.number == number && x.msg.channel == k
            && x.msg.chseq == seq && x.dest == f.source with
        | some x =>
          if status = St.journalFull then
            { s with net := { s.net with keepers := s.net.keepers.map fun y =>
                if y = x then { y with interval := retryTime s, at_ := s.elapsed } else y } }
          else if status = St.ok ∨ status = St.timeout then
            { s with net := { s.net with keepers := s.net.keepers.erase x } }.journalSync
          else s
        | none => s.staleDiscard

/-- A keeper's copy goes out with RELAYED, its SOURCE the original source. -/
def State.keeperSend (s : State) (k : KeeperEnt) : State :=
  let r := s.netFrame 7 32 k.dest k.source (msgBody k.msg)
  if k.dest = ownAddr s ∧ k.dest ≠ 0 then r.1.loopBack r.2 else r.1.netRoute r.2

/-- MESSAGE_RESEND (R349): on channels 0 to 63 the copy of lowest CHSEQ that waits, above that the keeper's copy of the
number less 64, once its interval has passed without acknowledgement. -/
def State.msgResend (s : State) (i : Nat) : State :=
  if i < 64 then
    let open_ (c : Copy) : Bool := c.channel == i && c.outcome.isNone && decide (c.at_ + c.interval * MS ≤ s.elapsed)
    let all := s.net.entries.flatMap fun e => (e.copies.filter open_).map fun c => (e, c)
    match all.foldl (fun (o : Option (SrcEnt × Copy)) p =>
        match o with | none => some p | some q => if p.2.chseq < q.2.chseq then some p else some q) none with
    | none => s
    | some (e, c) =>
      (s.modCopies e.epoch e.number fun x =>
        if x.channel = i then { x with interval := nextInterval x.interval, at_ := s.elapsed } else x).copySend e c
  else match s.net.keepers[i - 64]? with
    | some k =>
      if k.relayed ∧ k.at_ + k.interval * MS ≤ s.elapsed then
        { s with net := { s.net with keepers := s.net.keepers.map fun y =>
            if y = k then { y with interval := nextInterval y.interval, at_ := s.elapsed } else y } }.keeperSend k
      else s
    | none => s

/-- CHANNEL_BROKEN (R345): the destination has not been live for ChannelDeadTime. -/
def State.channelBroken (s : State) (k : Nat) : State :=
  let st := s.get (K.outChannel_ChannelState k)
  let dest := s.get (K.outChannel_Destination k)
  let dead := s.net.deadSince.any fun p => p.1 == dest && decide (s.get K.messages_ChannelDeadTime * 1000 ≤ s.since p.2)
  if k < 64 ∧ 1 ≤ st ∧ st ≤ 3 ∧ dead = true then
    let s := s.set (K.outChannel_ChannelState k) 4
    let s := if st = 2 then s else s.set (K.outChannel_ChannelResult k) St.timeout
    let all := s.net.entries.filter fun e => e.copies.any fun c => c.channel == k && c.outcome.isNone
    all.foldl (fun s e => s.copyClose e.epoch e.number k 2) s
  else s

/-! ### Keepers (R351) -/

/-- KEEPER_HOLD: the copy is journalled and HELD answered; `dest` is the copy's destination, which the body of HOLD as R336
lays it out does not name (log entry 21). -/
def State.keeperHold (s : State) (dest : Nat) : State :=
  match s.netTake 9 fun b => byteAt b 0 == 1 with
  | (none, s) => s
  | (some f, s) =>
    match msgOf (f.body.drop 2) with
    | none => s.netBad
    | some m =>
      if byteAt f.body 1 ≠ 0 then s.netBad
      else
        let held := s.net.keepers.any fun k => k.source == f.source && k.msg.epoch == m.epoch && k.msg.number == m.number
          && k.msg.channel == m.channel
        let n := receiptBytes m.payload.length
        if held then s.netSend 9 0 f.source ([2, 0] ++ copyName m)
        else if !journalFits s 1 n then s
        else
          let s := s.journalSpend 1 n
          let k : KeeperEnt := { source := f.source, dest := dest, msg := m, relayed := false, interval := 0, at_ := s.elapsed }
          let s := { s with net := { s.net with keepers := s.net.keepers ++ [k] } }
          s.journalSync.netSend 9 0 f.source ([2, 0] ++ copyName m)

/-- KEEPER_RELEASE: the copy is dropped; one that is not held is discarded under R342. -/
def State.keeperRelease (s : State) : State :=
  match s.netTake 9 fun b => byteAt b 0 == 3 with
  | (none, s) => s
  | (some f, s) =>
    let b := f.body
    if b.length ≠ 14 ∨ byteAt b 1 ≠ 0 ∨ byteAt b 7 ≠ 0 then s.netBad
    else
      let hit (k : KeeperEnt) : Bool := k.source == f.source && k.msg.epoch == field b 2 2 && k.msg.number == field b 4 2
        && k.msg.channel == byteAt b 6
      if s.net.keepers.any hit then { s with net := { s.net with keepers := s.net.keepers.filter fun k => !hit k } }.journalSync
      else s.staleDiscard

/-- KEEPER_TAKEOVER: the source of a copy has not been live for KeeperTakeover. -/
def State.keeperTakeover (s : State) : State :=
  match s.net.keepers.find? fun k => !k.relayed && s.net.deadSince.any fun p => p.1 == k.source
      && decide (s.get K.messages_KeeperTakeover ≤ s.since p.2) with
  | none => s
  | some k =>
    let s := { s with net := { s.net with keepers := s.net.keepers.map fun y =>
      if y = k then { y with relayed := true, interval := retryTime s, at_ := s.elapsed } else y } }
    (s.flag K.messages_MsgFlags 5 K.messages_RelayedCount).keeperSend k

/-! ### Delivery (R352 to R355) -/

/-- A receipt that has not been delivered stands before another on its channel. -/
def blockedBy (r x : Receipt) : Bool :=
  x.source == r.source && x.msg.channel == r.msg.channel && decide (x.msg.chseq < r.msg.chseq) && x.failed.isNone

/-- An entry in the delivery queue is due now. -/
def isDue (s : State) (r : Receipt) : Bool :=
  r.stage == 1 && r.failed.isNone && !(s.net.receipts.any (blockedBy r))
    && (r.msg.deliverAt == 0 || r.msg.late || r.steppedOver || (!timedHeld s && decide (r.msg.deliverAt ≤ s.now96)))

/-- Its due instant (R352). -/
def dueInstant (r : Receipt) : Nat :=
  if r.msg.deliverAt = 0 ∨ r.msg.late ∨ r.steppedOver then r.ready else max r.ready (ofTime96 r.msg.deliverAt)

/-- The order of R355. -/
def deliverBefore (a b : Receipt) : Bool :=
  decide (a.msg.deliverAt < b.msg.deliverAt) || (a.msg.deliverAt == b.msg.deliverAt &&
    (decide (a.source < b.source) || (a.source == b.source &&
      (decide (a.msg.channel < b.msg.channel) || (a.msg.channel == b.msg.channel && decide (a.msg.chseq < b.msg.chseq))))))

/-- The next entry to deliver. -/
def nextDue (s : State) : Option Receipt :=
  (s.net.receipts.filter (isDue s)).foldl (fun (o : Option Receipt) r =>
    match o with | none => some r | some x => if deliverBefore r x then some r else some x) none

/-- The words of a delivery entry (R354). -/
def deliveryWords (s : State) (r : Receipt) (delayed : Bool) (payload : List Nat) : List Nat :=
  let dflags := b2n r.msg.late + 2 * b2n r.arrivedLate + 4 * b2n r.steppedOver + 8 * b2n delayed + 16 * b2n r.relayed
    + 32 * b2n r.msg.write
  [r.source * 4096 + r.msg.channel * 64 + dflags] ++ wordsOf 2 r.msg.chseq ++ wordsOf 4 r.msg.deliverAt ++ wordsOf 4 s.now96
    ++ [payload.length] ++ octetWords payload

/-- The journal entry of a delivery is removed; the next of its channel is not due before this. -/
def State.delivered (s : State) (r : Receipt) : State :=
  let after (x : Receipt) : Receipt := if blockedBy x r then { x with ready := max x.ready s.time.now } else x
  let s := { s with net := { s.net with receipts := (s.net.receipts.erase r).map after } }
  let s := if r.msg.close then s.recvFree r.source r.msg.channel else s
  (s.count K.messages_MessagesDelivered 6).journalSync

/-- Change one receipt. -/
def State.modReceipt (s : State) (r x : Receipt) : State :=
  { s with net := { s.net with receipts := s.net.receipts.map fun y => if y = r then x else y } }

/-- An entry is presented in MessageDeliveryStream, where it fits (R353). -/
def State.present (s : State) (r : Receipt) (payload : List Nat) (gone : Bool) : State :=
  let delayed := decide (dueInstant r + MS < s.time.now)
  let w := deliveryWords s r delayed payload
  if !s.streamFits 0x7031 (w.length + 1) then s
  else
    let s := s.append 0x7031 0x07 w
    let s := if delayed then s.flag K.messages_MsgFlags 6 K.messages_DelayedCount else s
    if gone then { s with net := { s.net with receipts := s.net.receipts.erase r } }.journalSync
    else s.modReceipt r { r with stage := 2 }

/-- A WRITE message executed with a status: delivered, and presented when it failed (R353). -/
def State.writeDone (s : State) (r : Receipt) (status : Nat) : State :=
  if status = St.ok ∨ status = St.accepted then s.delivered r
  else
    let x := { r with failed := some status, stage := 2 }
    let s := (s.delivered r)
    let s := { s with net := { s.net with receipts := s.net.receipts ++ [x] } }
    s.journalSync.present x (toBytes 2 status) true

/-- A failed WRITE that waited for room is presented. -/
def State.failedPresent (s : State) : State :=
  match s.net.receipts.find? fun r => r.failed.isSome with
  | some r => s.present r (toBytes 2 (r.failed.getD 0)) true
  | none => s

/-- Entries taken from MessageDeliveryStream by STREAM_READ are delivered (R353). -/
def State.deliveryTaken (s : State) (taken : List (List Nat)) : State :=
  taken.foldl (fun s w =>
    let h := w.getD 1 0
    let seq := w.getD 2 0 * 2 ^ 24 + w.getD 3 0
    match s.net.receipts.find? fun r => r.stage == 2 && r.failed.isNone && r.source == h / 4096
        && r.msg.channel == h / 64 % 64 && r.msg.chseq == seq with
    | some r => s.delivered r
    | none => s) s

/-- RECEIVE_RECORD_FREE (R345). -/
def State.recordsFree (s : State) : State :=
  let due (r : RecvRec) : Bool := match r.freeAt with | some t => decide (t ≤ s.elapsed) | none => false
  { s with net := { s.net with recvs := s.net.recvs.filter fun r => !due r } }.journalSync

/-! ### Step, tick, reset, sleep -/

/-- A step from one Pond time to another (R359). -/
def State.messagesStep (s : State) (old new : Nat) : State :=
  let o := toTime96 old
  let n := toTime96 new
  let f (r : Receipt) : Receipt :=
    if r.stage = 2 then r
    else if r.msg.deliverAt ≠ 0 ∧ !r.msg.late ∧ o ≤ n ∧ o < r.msg.deliverAt ∧ r.msg.deliverAt ≤ n then
      { r with steppedOver := true, ready := new, stage := 1 }
    else { r with ready := new, stage := 0 }
  { s with net := { s.net with receipts := s.net.receipts.map f } }.deliveryMove

/-- The tick edge: a new journal budget, addresses that are not live, entries due within the tick. -/
def State.messagesTick (s : State) : State :=
  let want := (((List.range 64).filter fun k => s.get (K.outChannel_ChannelState k) != 0).map fun k =>
    s.get (K.outChannel_Destination k)) ++ s.net.keepers.map (·.source)
  let dead := want.eraseDups.filter fun a => !liveAddr s a
  let since := dead.map fun a => match s.net.deadSince.find? fun p => p.1 == a with | some p => p | none => (a, s.time.ms)
  { s with net := { s.net with spentMsgs := 0, spentBytes := 0, deadSince := since } }.deliveryMove

/-- A warm reset (R360): the journal stays, entries presented and not taken are presented again. -/
def State.messagesReset (s : State) : State :=
  { s with net := { s.net with submit := none, receipts := s.net.receipts.map fun r => if r.stage = 2 then { r with stage := 1 } else r } }

/-- After the restart open copies are sent again (R360). -/
def State.messagesRestart (s : State) : State :=
  let again (c : Copy) : Copy := { c with interval := retryTime s, at_ := s.elapsed }
  let l := s.net.entries.map fun (e : SrcEnt) => { e with copies := e.copies.map again }
  let s0 := { s with net := { s.net with entries := l } }
  s0.net.entries.foldl (fun s e => e.copies.foldl (fun s c => if c.outcome.isNone then s.copySend e c else s) s) s0

/-- The message engine refuses SLEEP and DEEP (R364). -/
def messagesRefuse (s : State) : Bool :=
  (s.net.receipts.any fun r => r.failed.isNone && (r.msg.deliverAt == 0 || r.msg.late || decide (r.msg.deliverAt ≤ plusMs s.now96 1000)))
    || (s.net.entries.any fun e => e.copies.any fun c => c.outcome.isNone) || (s.net.keepers.any (·.relayed))

end Sys2Proof.Machine
end

