-- ==== Sys2Proof/Machine/Network.lean ====
section
/-!
DEFINITION. Routing, joining, the election, fabric-scope commits and streams (spec/10, R328 to R335, R344, R357, R363).
-/

namespace Sys2Proof.Machine

/-! ### Forwarding (R335) -/

/-- What a router adds to AGE for the link a frame came over: its MeanDelay, 10 µs before the first exchange. -/
def linkDelayUs (s : State) (n : Nat) : Nat :=
  if n < 32 ∧ (s.port n).posted.isSome then upUs (s.getI (K.linkTiming_MeanDelay n) 8).toNat else 10

/-- A frame as a router passes it on, or the counter of its drop. -/
def State.passOn (s : State) (e : InFrame) : Option OutFrame × State :=
  s.lifeCheck ⟨e.bytes, field e.bytes 8 2 + linkDelayUs s e.port, some e.at_⟩

/-- A KIND that is not listed, or an OP that its KIND does not list (R336, R368). -/
def unlisted (f : List Nat) : Bool :=
  let k := byteAt f 1
  let op := byteAt f 12
  (kindClass k).isNone || (k == 4 && (op == 0 || decide (7 < op))) || (k == 9 && (op == 0 || decide (3 < op)))
    || (k == 11 && (byteAt f 16 == 0 || decide (5 < byteAt f 16))) || (k == 12 && (op == 0 || decide (10 < op)))

/-- NETWORK_FRAME_FORWARD: the first frame that is not for this device, or whose KIND or OP is not listed. -/
def State.netForward (s : State) : State :=
  let test (e : InFrame) : Bool := !forUs s e.bytes || unlisted e.bytes
  match s.net.inbox.find? test with
  | none => s
  | some e =>
    let s := { s with net := { s.net with inbox := s.net.inbox.erase e } }
    if !netGood e.bytes ∨ forUs s e.bytes then s.netBad
    else match s.passOn e with
      | (some f, s) => s.netRouteAs f
      | (none, s) => s

/-! ### Link-state advertisements (R330, R333) -/

/-- The root is known: a live device of the database holds the role. -/
def knownRoot (s : State) : Option Lsa := bestKey ((liveDb s).filter fun (l : Lsa) => l.state == 4)

/-- A joining device that knows of a root sends JOIN to its link peer. -/
def State.joinSend (s : State) : State :=
  match fabricPorts s with
  | [] => s
  | n :: _ => { s with net := { s.net with joinAt := max 1 s.elapsed } }.peerSend n 2 (toBytes 8 (ownUid s) ++ toBytes 2 (ownAddr s))

/-- The first JOIN, once the root is known (R328). -/
def State.joinTry (s : State) : State :=
  if memberState s = 1 ∧ !s.net.joined ∧ s.net.joinAt = 0 ∧ (knownRoot s).isSome then s.joinSend else s

/-- The device drops its address and joins again (R330). -/
def State.addressConflict (s : State) : State :=
  let s := (s.set K.network_DeviceAddress 0).flag K.network_NetFlags 5 K.network_AddressConflicts
  let s := { s with net := { s.net with joined := false, joinAt := 0, fetch := [] } }
  (s.memberSet 1).lsaSend.dbChanged

/-- The root's table holds this device for its address, where this device is the root; otherwise as told. -/
def holdsAddress (s : State) (held : Bool) : Bool :=
  if memberState s = 4 then s.net.table.any fun e => e.uid == ownUid s && e.addr == ownAddr s else held

/-- Store an LSA. -/
def State.lsaStore (s : State) (l : Lsa) : State :=
  { s with net := { s.net with lsas := s.net.lsas.filter (fun x => x.uid != l.uid) ++ [l] } }

/-- LSA (R333): stored if newer, passed on over every other fabric port; `held`: the root's table holds this device for its
address (R330). One that is sent on by nobody names the device at the other end of the link (log entry 18). -/
def State.lsaIn (s : State) (held : Bool) : State :=
  match s.inboxTake fun f => byteAt f 1 == 1 with
  | none => s
  | some (e, s) =>
    match s.netOpen e with
    | (none, s) => s
    | (some f, s) =>
      match lsaOf f.body s.time.ms (match f.slot with | some k => s.get (K.keySlot_KeyRole k) == 4 | none => false) with
      | none => s.netBad
      | some l =>
        let s := if f.hops = 16 ∧ e.port < 32 ∧ l.uid ≠ ownUid s then
            (s.modPort e.port fun p => { p with peer := some l.uid }) else s
        let s := s.linksJudge
        if l.uid = ownUid s then
          if serialNewer 32 l.seq s.net.lsaSeq then { s with net := { s.net with lsaSeq := l.seq } }.lsaSend else s
        else
          let old := s.net.lsas.find? fun x => x.uid == l.uid
          let newer := match old with | some o => serialNewer 32 l.seq o.seq | none => true
          if !newer then s
          else
            let same := match old with
              | some o => o.addr == l.addr && o.prio == l.prio && o.state == l.state && o.links == l.links
              | none => false
            let s := s.lsaStore l
            let s := match s.passOn e with
              | (some g, s) => (fabricPorts s).foldl (fun s n => if n = e.port then s else s.portPutAs n g) s
              | (none, s) => s
            let s := if same then s else s.dbChanged
            let s := if l.addr = ownAddr s ∧ l.addr ≠ 0 ∧ !holdsAddress s held then s.addressConflict else s
            s.joinTry

/-- LSA_REFRESH (R333): every 10 s, and when the links have changed. -/
def State.lsaRefresh (s : State) : State :=
  if memberState s = 0 then s
  else if ownLinks s ≠ s.net.links then s.lsaSend.dbChanged
  else if 10000 ≤ s.since s.net.lsaAt then s.lsaSend
  else s

/-- LSA_EXPIRY (R333): LSAs not refreshed for 40 s leave the database. -/
def State.lsaExpire (s : State) : State :=
  let keep := s.net.lsas.filter fun l => decide (s.since l.at_ < 40000)
  if keep.length = s.net.lsas.length then s else { s with net := { s.net with lsas := keep } }.dbChanged

/-- ROUTE_COMPUTE (R334). -/
def State.routeCompute (s : State) : State :=
  if s.net.dirty then { s with net := { s.net with dirty := false, nextRoutes := some (routesOf s) } } else s

/-- Computed routes take effect at the tick edge (R334), and a change of the database that is 10 ms old has its routes computed
there at the latest. -/
def State.routesTick (s : State) : State :=
  let s := match s.net.nextRoutes with
    | none => s
    | some r => ({ s with net := { s.net with routes := r, nextRoutes := none } }).flag K.network_NetFlags 1 K.network_RouteChanges
  if 10 ≤ s.since s.net.dirtyAt then s.routeCompute else s

/-! ### Joining (R328, R329) -/

/-- AddressHold in ms. -/
def addressHold (s : State) : Nat := s.get K.network_AddressHold * 86400000

/-- An address is free: never granted, or its holder has not been live for AddressHold. -/
def addrFree (s : State) (a : Nat) : Bool :=
  match s.net.table.find? fun e => e.addr == a with
  | none => true
  | some e => decide (addressHold s ≤ s.since e.lastLive) && !(s.net.live.any fun p => p.1 == e.uid)

/-- The address the root grants a device for its claim (R329 items 3 to 5). -/
def addrGrant (s : State) (uid claim : Nat) : Option Nat :=
  let mine := s.net.table.any fun e => e.addr == claim && e.uid == uid
  if 1 ≤ claim ∧ claim ≤ 0xFFE ∧ (mine ∨ addrFree s claim) then some claim
  else (List.range 0xFFE).map (· + 1) |>.find? (addrFree s)

/-- The address-table entry of a grant. -/
def State.addrPut (s : State) (uid a : Nat) : State :=
  let rest := s.net.table.filter fun e => e.uid != uid && e.addr != a
  { s with net := { s.net with table := rest ++ [⟨uid, a, s.time.ms⟩] } }

/-- The status with which a root refuses a JOIN outright (R329 items 1 and 2, R407). -/
def joinRefuses (s : State) (slot : Option Nat) : Option Nat :=
  let adm := s.get K.protection_AdmissionSlots
  let ok := match slot with | some k => bit adm k && s.get (K.keySlot_KeyRole k) == 4 | none => false
  if adm ≠ 0 ∧ !ok then some St.notAuthorised
  else if !quorum s then some St.notInState
  else none

/-- GRANT goes to the device that relayed the JOIN, or over the link it came by. -/
def State.grantSend (s : State) (f : NetFrame) (uid a status : Nat) : State :=
  let b := toBytes 8 uid ++ toBytes 2 a ++ toBytes 2 status
  if f.dest = 0 ∧ f.port < 32 then s.peerSend f.port 3 b else s.netSend 3 0 f.source b

/-- JOIN: the root decides; any other device relays a JOIN of its link peer to the root (R328). -/
def State.joinIn (s : State) : State :=
  match s.netTake 2 fun _ => true with
  | (none, s) => s
  | (some f, s) =>
    if f.body.length ≠ 10 ∨ 4096 ≤ field f.body 8 2 then s.netBad
    else
      let uid := field f.body 0 8
      let claim := field f.body 8 2
      if memberState s = 4 then
        match joinRefuses s f.slot with
        | some st => s.grantSend f uid 0 st
        | none => match addrGrant s uid claim with
          | none => s.grantSend f uid 0 St.busy
          | some a => (s.addrPut uid a).grantSend f uid a St.ok
      else if f.dest = 0 ∧ f.port < 32 then
        match knownRoot s with
        | none => s
        | some r =>
          let rest := s.net.relays.filter fun (p : Nat × Nat) => p.1 != uid
          let s := { s with net := { s.net with relays := rest ++ [(uid, f.port)] } }
          let m := s.netFrameAs f.slot.isSome 2 0 r.addr (ownAddr s) f.body
          m.1.netRoute m.2
      else s

/-- JOIN_RESEND: the first JOIN, and another every 1 s until a grant. -/
def State.joinAgain (s : State) : State :=
  if memberState s = 1 ∧ !s.net.joined ∧ (knownRoot s).isSome ∧ (s.net.joinAt = 0 ∨ s.net.joinAt + SEC ≤ s.elapsed) then s.joinSend
  else s

/-- The rows of an object that answer, in subindex order. -/
def rowsOf (index : Nat) : List Row :=
  match findObj index with
  | none => []
  | some o => o.rows.filterMap fun r => findRow index r.sub

/-- Rows whose values WRITE_RECORD carries (R60). -/
def recordRows (index : Nat) : List Row :=
  (rowsOf index).filter fun r => decide (r.sub ≠ 0) && (r.acc == .rw || r.acc == .wo || r.acc == .pw) && r.keep != .f

/-- The bytes of a record split by its rows. -/
def splitRows : List Row → List Nat → List (Row × List Nat)
  | [], _ => []
  | r :: l, b => (r, b.take r.ty.bytes) :: splitRows l (b.drop r.ty.bytes)

/-- Keys of the fabric-scope range: the writable subindices of 0xE600. -/
def fscopeKeys : List (Nat × Nat) := (oLakeEnsemble.rows.filter fun r => r.acc == .rw).map fun r => (0xE600, r.sub)

/-- The body of an FSCOPE frame (R336). -/
def fsBody (op cseq tick index sub : Nat) (value : List Nat) : List Nat :=
  [op, 0] ++ toBytes 4 cseq ++ toBytes 8 tick ++ toBytes 2 index ++ [sub] ++ toBytes 2 value.length ++ value

/-- The address of the present root. -/
def rootAddr (s : State) : Nat := s.get K.network_RootAddress

/-- A device that has joined and holds every fabric-scope value is MEMBER, or STANDBY when it is elected one. -/
def State.memberJoined (s : State) : State :=
  let e := elect s
  let mine (o : Option Lsa) : Bool := match o with | some l => l.uid == ownUid s | none => false
  s.memberSet (if mine e.1 then 4 else if mine e.2.1 || mine e.2.2 then 3 else 2)

/-- GRANT: this device takes its address and fetches the fabric-scope values; a GRANT for a relayed JOIN goes over the
link. -/
def State.grantIn (s : State) : State :=
  match s.netTake 3 fun _ => true with
  | (none, s) => s
  | (some f, s) =>
    if f.body.length ≠ 12 ∨ 4096 ≤ field f.body 8 2 then s.netBad
    else
      let uid := field f.body 0 8
      if uid = ownUid s then
        if memberState s = 1 ∧ !s.net.joined ∧ field f.body 10 2 = St.ok then
          let s := s.set K.network_DeviceAddress (field f.body 8 2)
          let s := { s with net := { s.net with joined := true, fetch := fscopeKeys } }
          let s := s.lsaSend.dbChanged
          let root := match knownRoot s with | some l => l.addr | none => rootAddr s
          fscopeKeys.foldl (fun s k => s.netSend 4 0 root (fsBody 6 0 0 k.1 k.2 [])) s
        else s
      else match s.net.relays.find? fun p => p.1 == uid with
        | some p =>
          let s := { s with net := { s.net with relays := s.net.relays.filter fun q => q.1 != uid } }
          s.peerSend p.2 3 f.body
        | none => s

/-! ### The election (R331) -/

/-- Addresses of the live members but this device. -/
def otherMembers (s : State) : List Nat :=
  ((liveDb s).filter fun (l : Lsa) => l.addr != 0 && decide (2 ≤ l.state) && l.uid != ownUid s).map (·.addr)

/-- A frame to every other live member. -/
def State.toMembers (s : State) (kind : Nat) (body : List Nat) : State :=
  (otherMembers s).foldl (fun s a => s.netSend kind 0 a body) s

/-- The outcome of this device's proposal, if a CSEQ is its. -/
def State.fsResult (s : State) (cseq status : Nat) : State :=
  if s.net.mine = some cseq then ({ s with net := { s.net with mine := none } }).set K.network_FscopeResult status else s

/-- A held change is dropped; the proposer's result is TIMEOUT. -/
def State.fsDrop (s : State) (cseq : Nat) : State :=
  let s := { s with net := { s.net with fsHeld := s.net.fsHeld.filter fun c => c.cseq != cseq } }
  s.fsResult cseq St.timeout

/-- The device takes the role: the address table as replicated to it, an address, and the prepared commits (R331, R357). -/
def State.rootTake (s : State) (replica : List (Nat × Nat)) : State :=
  let table := if replica.isEmpty then s.net.table else replica.map fun p => (⟨p.1, p.2, s.time.ms⟩ : AddrEnt)
  let s := { s with net := { s.net with table := table, joined := true, fetch := [] } }
  let s := s.memberSet 4
  let s := if ownAddr s = 0 then
      match addrGrant s (ownUid s) 0 with
      | some a => ((s.addrPut (ownUid s) a).set K.network_DeviceAddress a).lsaSend.dbChanged
      | none => s
    else if s.net.table.any fun e => e.uid == ownUid s then s else s.addrPut (ownUid s) (ownAddr s)
  let top := s.net.fsHeld.foldl (fun m c => max m c.cseq) s.net.fsSeq
  let held := s.net.fsHeld
  let s := { s with net := { s.net with fsSeq := top } }
  let s := (held.filter fun c => !c.committed).foldl (fun s c => s.fsDrop c.cseq) s
  held.foldl (fun s c => s.toMembers 4 (fsBody (if c.committed then 4 else 5) c.cseq c.tick c.index c.sub c.value)) s

/-- ROOT_ELECTION: at a tick edge at which the database has not changed for 200 ms; `replica` is the address table as the
root replicated it to this device, by UID and address. -/
def State.electRoot (s : State) (replica : List (Nat × Nat)) : State :=
  if !(s.atEdge && decide (200 ≤ s.since s.net.dbAt) && memberState s != 0) then s
  else
    let e := elect s
    let addr (o : Option Lsa) : Nat := match o with | some l => l.addr | none => 0
    let uid (o : Option Lsa) : Nat := match o with | some l => l.uid | none => 0
    let me := ownUid s
    let changed := uid e.1 != s.net.root
    let s := { s with net := { s.net with root := uid e.1, unsettled := false } }
    let s := if changed then s.flag K.network_NetFlags 0 K.network_RootChanges else s
    let s := if changed ∧ s.net.proposed.isSome then { s with net := { s.net with rootAt := some s.time.ms } } else s
    let s := if uid e.1 = me ∧ e.1.isSome then (if memberState s = 4 then s else s.rootTake replica)
      else
        -- a device that is not the root decides no commit
        let s := { s with net := { s.net with fsRoot := [] } }
        if s.net.joined ∧ s.net.fetch.isEmpty then s.memberSet (if uid e.2.1 = me ∨ uid e.2.2 = me then 3 else 2) else s
    let root := if uid e.1 = me ∧ e.1.isSome then ownAddr s else addr e.1
    let s := ((s.set K.network_RootAddress root).set K.network_Standby1 (addr e.2.1)).set K.network_Standby2 (addr e.2.2)
    s.joinTry

/-! ### Fabric-scope commits (R357, R363) -/

/-- A write to the fabric-scope range that MemberState refuses. -/
def fscopeRefuses (s : State) : Option (Nat × List Nat) :=
  if 2 ≤ memberState s then none else some (St.notInState, [memberState s, 0x1C])

/-- FABRIC_SCOPE_WRITE: journalled, answered ACCEPTED, proposed to the root. -/
def State.fscopePropose (s : State) (index sub : Nat) (value : List Nat) : State :=
  let s := { s with net := { s.net with proposed := some (index, sub, value), mine := none, rootAt := none } }
  let s := (s.set K.network_FscopeResult St.accepted).answer St.accepted []
  s.netSend 4 0 (rootAddr s) (fsBody 1 0 0 index sub value)

/-- The fields of an FSCOPE body; none where its length disagrees or its reserved byte is set. -/
def fsOf (b : List Nat) : Option FsChange :=
  let n := field b 17 2
  if b.length < 19 ∨ b.length ≠ 19 + n ∨ byteAt b 1 ≠ 0 then none
  else some ⟨field b 2 4, field b 6 8, field b 14 2, byteAt b 16, b.drop 19, false⟩

/-- Take an FSCOPE frame of an OP. -/
def State.fsTake (s : State) (op : Nat) : Option (NetFrame × FsChange) × State :=
  match s.netTake 4 fun b => byteAt b 0 == op with
  | (none, s) => (none, s)
  | (some f, s) => match fsOf f.body with
    | none => (none, s.netBad)
    | some c => (some (f, c), s)

/-- A PREPARE is journalled; the proposer knows its change by its value. -/
def State.fsPrepare (s : State) (c : FsChange) : State :=
  let mine := match s.net.proposed with | some p => p == (c.index, c.sub, c.value) | none => false
  let held := s.net.fsHeld.filter (fun x => x.cseq != c.cseq) ++ [c]
  let s := { s with net := { s.net with fsHeld := held } }
  if mine then { s with net := { s.net with proposed := none, mine := some c.cseq, rootAt := none } } else s

/-- FSCOPE_PROPOSE at the root (R357 steps 1 and 2). -/
def State.fsProposeIn (s : State) : State :=
  match s.fsTake 1 with
  | (none, s) => s
  | (some (f, c), s) =>
    if memberState s ≠ 4 then s
    else if !quorum s then s.netSend 4 0 f.source (fsBody 5 0 0 c.index c.sub c.value)
    else
      let q := (s.net.fsSeq + 1) % 2 ^ 32
      let gone := s.time.now - s.time.t0
      let tick := s.time.tick + (gone + s.get K.network_CommitLead * MS + MS - 1) / MS
      let c := { c with cseq := q, tick := tick, committed := false }
      let others := otherMembers s
      let s := { s with net := { s.net with fsSeq := q, fsRoot := s.net.fsRoot ++ [FsRoot.mk c f.source others] } }
      (s.fsPrepare c).toMembers 4 (fsBody 2 q tick c.index c.sub c.value)

/-- FSCOPE_PREPARE at a member. -/
def State.fsPrepareIn (s : State) : State :=
  match s.fsTake 2 with
  | (none, s) => s
  | (some (f, c), s) => (s.fsPrepare c).netSend 4 0 f.source (fsBody 3 c.cseq c.tick c.index c.sub [])

/-- FSCOPE_READY at the root. -/
def State.fsReadyIn (s : State) : State :=
  match s.fsTake 3 with
  | (none, s) => s
  | (some (f, c), s) =>
    let g (r : FsRoot) : FsRoot := if r.change.cseq = c.cseq then { r with await := r.await.filter (· != f.source) } else r
    { s with net := { s.net with fsRoot := s.net.fsRoot.map g } }

/-- A held change is committed. -/
def State.fsCommit (s : State) (cseq : Nat) : State :=
  let g (c : FsChange) : FsChange := if c.cseq = cseq then { c with committed := true } else c
  { s with net := { s.net with fsHeld := s.net.fsHeld.map g } }

/-- FSCOPE_READY_DEADLINE (R357 step 3): 5 ms before the edge of COMMIT_TICK. -/
def State.fsDeadline (s : State) : State :=
  match s.net.fsRoot.find? fun r => decide (r.change.tick ≤ s.time.tick + 5) with
  | none => s
  | some r =>
    let s := { s with net := { s.net with fsRoot := s.net.fsRoot.erase r } }
    let c := r.change
    if r.await.any fun a => liveAddr s a then
      let s := (s.fsDrop c.cseq).toMembers 4 (fsBody 5 c.cseq c.tick c.index c.sub c.value)
      s
    else (s.fsCommit c.cseq).toMembers 4 (fsBody 4 c.cseq c.tick c.index c.sub c.value)

/-- FSCOPE_COMMIT at a member. -/
def State.fsCommitIn (s : State) : State :=
  match s.fsTake 4 with
  | (none, s) => s
  | (some (_, c), s) => s.fsCommit c.cseq

/-- FSCOPE_ABORT at a member or proposer; CSEQ 0, which no change has, is the answer without quorum. -/
def State.fsAbortIn (s : State) : State :=
  match s.fsTake 5 with
  | (none, s) => s
  | (some (_, c), s) =>
    if c.cseq = 0 then
      if s.net.proposed = some (c.index, c.sub, c.value) then
        ({ s with net := { s.net with proposed := none, rootAt := none } }).set K.network_FscopeResult St.notInState
      else s
    else s.fsDrop c.cseq

/-- The values a change carries, by key: one value, or under subindex 0 those of the whole record in the order of WRITE_RECORD
(log entry 177). -/
def fsValues (c : FsChange) : List (Nat × List Nat) :=
  if c.sub = 0 then (splitRows (recordRows c.index) c.value).map fun (p : Row × List Nat) => (c.index * 256 + p.1.sub, p.2)
  else [(c.index * 256 + c.sub, c.value)]

/-- The objects a change names. -/
def fsNames (c : FsChange) : List (Nat × Nat) :=
  if c.sub = 0 then (recordRows c.index).map fun r => (c.index, r.sub) else [(c.index, c.sub)]

/-- The values of a change apply together, each unless a later commit of its object has. -/
def State.fsApply (s : State) (c : FsChange) : State :=
  (fsValues c).foldl (fun s (p : Nat × List Nat) =>
    if (fscopeKeys.contains (p.1 / 256, p.1 % 256)) ∧ SMap.get 0 p.1 s.net.fsDone ≤ c.cseq then
      ({ s with net := { s.net with fsDone := SMap.set 0 p.1 c.cseq s.net.fsDone } }).set p.1 (ofBytes p.2)
    else s) s

/-- FSCOPE_APPLY: at the edge of COMMIT_TICK. -/
def State.fsEdge (s : State) : State :=
  if !s.atEdge then s
  else
    let due := sortBy (fun a b => decide (a.cseq ≤ b.cseq)) (s.net.fsHeld.filter fun c => decide (c.tick ≤ s.time.tick))
    let s := { s with net := { s.net with fsHeld := s.net.fsHeld.filter fun c => !decide (c.tick ≤ s.time.tick) } }
    due.foldl (fun s c =>
      if c.committed then (s.fsApply c).fsResult c.cseq St.ok
      else
        let s := s.flag K.network_NetFlags 4 K.network_FscopeStaleEvents
        (fsNames c).foldl (fun s k => s.netSend 4 0 (rootAddr s) (fsBody 6 0 0 k.1 k.2 [])) s) s

/-- FSCOPE_FETCH at the root. -/
def State.fsFetchIn (s : State) : State :=
  match s.fsTake 6 with
  | (none, s) => s
  | (some (f, c), s) =>
    match findRow c.index c.sub with
    | some r =>
      if memberState s = 4 ∧ fscopeKeys.contains (c.index, c.sub) then
        let k := c.index * 256 + c.sub
        s.netSend 4 0 f.source (fsBody 7 (SMap.get 0 k s.net.fsDone) 0 c.index c.sub (toBytes r.ty.bytes (s.get k)))
      else s
    | none => s

/-- FSCOPE_VALUE at a member: applied at the next tick edge. -/
def State.fsValueIn (s : State) : State :=
  match s.fsTake 7 with
  | (none, s) => s
  | (some (_, c), s) =>
    { s with net := { s.net with fsNext := s.net.fsNext ++ [c], fetch := s.net.fetch.filter fun k => k != (c.index, c.sub) } }

/-- Values fetched apply at the tick edge; with the last of them a joining device is a member (R328, R357). The value of this
device's own commit is its proposal's outcome OK (log entry 178). -/
def State.fsTick (s : State) : State :=
  let l := s.net.fsNext
  let s := { s with net := { s.net with fsNext := [] } }
  let s := l.foldl (fun s c => (s.fsApply c).fsResult c.cseq St.ok) s
  if memberState s = 1 ∧ s.net.joined ∧ s.net.fetch.isEmpty then s.memberJoined else s

/-- FSCOPE_LOST (R363): 1 s after a change of the root. -/
def State.fsLost (s : State) : State :=
  match s.net.rootAt with
  | some t =>
    if s.net.proposed.isSome ∧ 1000 ≤ s.since t then
      ({ s with net := { s.net with proposed := none, rootAt := none } }).set K.network_FscopeResult St.timeout
    else s
  | none => s

/-! ### Streams (R344) -/

/-- The body of STREAM_CONTROL. -/
def streamCtl (stream inc op seq : Nat) : List Nat := toBytes 2 stream ++ toBytes 2 inc ++ [op, 0] ++ toBytes 6 seq

/-- Take a STREAM_CONTROL frame of an OP. -/
def State.streamTake (s : State) (op : Nat) : Option NetFrame × State :=
  match s.netTake 11 fun b => byteAt b 4 == op with
  | (none, s) => (none, s)
  | (some f, s) => if f.body.length ≠ 12 ∨ byteAt f.body 5 ≠ 0 then (none, s.netBad) else (some f, s)

/-- A stream received from a source. -/
def rxOf (s : State) (source stream : Nat) : Option StreamRx :=
  s.net.rx.find? fun r => r.source == source && r.stream == stream

/-- Put a stream received. -/
def State.rxPut (s : State) (r : StreamRx) : State :=
  { s with net := { s.net with rx := s.net.rx.filter (fun x => !(x.source == r.source && x.stream == r.stream)) ++ [r] } }

/-- STREAM_OPEN: a new incarnation, expecting the SEQ it names. -/
def State.streamOpen (s : State) : State :=
  match s.streamTake 1 with
  | (none, s) => s
  | (some f, s) =>
    let st := field f.body 0 2
    let inc := field f.body 2 2
    let fresh := match rxOf s f.source st with | some r => serialNewer 16 inc r.inc | none => true
    let again := match rxOf s f.source st with | some r => r.inc == inc | none => false
    let s := if fresh then s.rxPut ⟨f.source, st, inc, field f.body 6 6, 0⟩ else s
    if fresh || again then
      s.netSend 11 0 f.source (streamCtl st inc 2 (match rxOf s f.source st with | some r => r.next | none => 0))
    else s

/-- STREAM_DATA: accepted in order and acknowledged; a frame already passed, or of an older incarnation, is discarded; one of
a newer incarnation that is not open is answered RESET. -/
def State.streamData (s : State) : State :=
  match s.netTake 10 fun _ => true with
  | (none, s) => s
  | (some f, s) =>
    let st := field f.body 0 2
    let inc := field f.body 2 2
    let seq := field f.body 4 6
    if f.body.length < 10 ∨ 2010 < f.body.length then s.netBad
    else match rxOf s f.source st with
      | none => s.netSend 11 0 f.source (streamCtl st inc 5 0)
      | some r =>
        if serialNewer 16 inc r.inc then s.netSend 11 0 f.source (streamCtl st inc 5 0)
        else if inc ≠ r.inc then s
        else
          let r := if seq = r.next then { r with next := (seq + 1) % 2 ^ 48, bytes := r.bytes + (f.body.length - 10) } else r
          (s.rxPut r).netSend 11 0 f.source (streamCtl st inc 3 r.next)

/-- Change the stream sent that a control frame names. -/
def State.modTx (s : State) (dest stream inc : Nat) (g : StreamTx → StreamTx) : State :=
  { s with net := { s.net with tx := s.net.tx.map fun t =>
      if t.dest = dest ∧ t.stream = stream ∧ t.inc = inc then g t else t } }

/-- Frames of a stream go out, while no more than 64 are not acknowledged. -/
def State.txPump (s : State) (t : StreamTx) : State :=
  if !t.open_ then s
  else
    let n := min 64 t.frames.length
    let new := (List.range n).filter fun i => decide (t.sent ≤ i)
    let s := s.modTx t.dest t.stream t.inc fun x => { x with sent := max x.sent n, at_ := if new.isEmpty then x.at_ else s.elapsed }
    new.foldl (fun s i => s.netSend 10 0 t.dest
      (toBytes 2 t.stream ++ toBytes 2 t.inc ++ toBytes 6 ((t.base + i) % 2 ^ 48) ++ t.frames.getD i [])) s

/-- A stream sent as it stands. -/
def txOf (s : State) (dest stream inc : Nat) : Option StreamTx :=
  s.net.tx.find? fun t => t.dest == dest && t.stream == stream && t.inc == inc

/-- STREAM_OPEN_ACK: the stream starts sending. -/
def State.streamOpenAck (s : State) : State :=
  match s.streamTake 2 with
  | (none, s) => s
  | (some f, s) =>
    let st := field f.body 0 2
    let inc := field f.body 2 2
    let s := s.modTx f.source st inc fun t => { t with open_ := true, at_ := s.elapsed }
    match txOf s f.source st inc with
    | some t => s.txPump t
    | none => s

/-- STREAM_ACK: cumulative, with the next SEQ the receiver expects. -/
def State.streamAck (s : State) : State :=
  match s.streamTake 3 with
  | (none, s) => s
  | (some f, s) =>
    let st := field f.body 0 2
    let inc := field f.body 2 2
    let seq := field f.body 6 6
    let g (t : StreamTx) : StreamTx :=
      let d := (seq + 2 ^ 48 - t.base) % 2 ^ 48
      if 0 < d ∧ d ≤ t.sent then { t with base := seq, frames := t.frames.drop d, sent := t.sent - d, at_ := s.elapsed } else t
    let s := s.modTx f.source st inc g
    match txOf s f.source st inc with
    | some t => s.txPump t
    | none => s

/-- STREAM_CLOSE ends a stream received. -/
def State.streamClose (s : State) : State :=
  match s.streamTake 4 with
  | (none, s) => s
  | (some f, s) =>
    let hit (r : StreamRx) : Bool := r.source == f.source && r.stream == field f.body 0 2 && r.inc == field f.body 2 2
    { s with net := { s.net with rx := s.net.rx.filter fun r => !hit r } }

/-- STREAM_RESET abandons a stream, sent or received. -/
def State.streamReset (s : State) : State :=
  match s.streamTake 5 with
  | (none, s) => s
  | (some f, s) =>
    let st := field f.body 0 2
    let inc := field f.body 2 2
    let rx := s.net.rx.filter fun r => !(r.source == f.source && r.stream == st && r.inc == inc)
    let tx := s.net.tx.filter fun t => !(t.dest == f.source && t.stream == st && t.inc == inc)
    { s with net := { s.net with rx := rx, tx := tx } }

/-- STREAM_RESEND: 20 ms without progress; again from the oldest frame that is not acknowledged. -/
def State.streamResend (s : State) : State :=
  match s.net.tx.find? fun t => t.open_ && decide (0 < t.sent) && decide (t.at_ + 20 * MS ≤ s.elapsed) with
  | none => s
  | some t =>
    let s := s.modTx t.dest t.stream t.inc fun x => { x with sent := 0, at_ := s.elapsed }
    s.txPump { t with sent := 0 }

/-! ### Tick and reset -/

/-- The network's tick-edge actions: routes, address table, fetched values, the journal budget, LiveMembers, QuorumHeld. -/
def State.netTick (s : State) : State :=
  let s := s.routesTick.tableTick.fsTick.messagesTick
  let s := s.set K.network_LiveMembers (liveMembers s)
  s.setB K.network_QuorumHeld (quorum s)

/-- A reset: what is not in MRAM is gone; Epoch increments (R341). -/
def State.netReset (s : State) : State :=
  let n := s.net
  let fresh := NetSt.reset
  let keep : NetSt :=
    { fresh with
      table := n.table, entries := n.entries, recvs := n.recvs, receipts := n.receipts, keepers := n.keepers,
      fsHeld := n.fsHeld, fsSeq := n.fsSeq, fsDone := n.fsDone, proposed := n.proposed, mine := n.mine,
      streamCount := n.streamCount, seen := n.seen, lsaSeq := n.lsaSeq }
  let s := ({ s with net := keep }).windowsLost.messagesReset
  s.set K.network_Epoch ((s.get K.network_Epoch + 1) % 65536)

end Sys2Proof.Machine
end

