-- ==== Sys2Proof/Machine/Erg.lean ====
section
/-!
DEFINITION. Antenna selection (spec/04, R140 to R142) and the Erg search engine (spec/05, R154 to R185). The peaks a lane
measures come with the command that ends a pass or a verification.
-/

namespace Sys2Proof.Machine

/-- Change the search engine. -/
def State.modErg (s : State) (f : ErgSt → ErgSt) : State := { s with erg := f s.erg }

/-! ### Antenna selection (R141, R142) -/

/-- An antenna serves (R142): ActiveAntenna is 0 ANT_A, 1 ANT_B, 2 BOTH, 3 NONE. -/
def serving (s : State) (a : Nat) : Bool :=
  let v := s.get K.antennaRedundancy_ActiveAntenna
  v == 2 || v == a

/-- Slots of an antenna in TRACK or AIDED. -/
def tracked (s : State) (a : Nat) : Nat := ((s.slotsWhere fun v => v == 3 || v == 4).filter fun n => s.slotAnt n == a).length

/-- An antenna is usable (R141). -/
def usable (s : State) (a : Nat) : Bool :=
  let st := s.get (K.antennaInput_AntennaState a)
  let chainUp (c : Nat) : Bool := let v := s.chainState c; decide (1 ≤ v ∧ v ≤ 3)
  let quiet := match (s.ant a).noSignalSince with
    | some m => decide (s.get K.antennaRedundancy_NoSignalTime * 1000 ≤ s.since m)
    | none => false
  st != 2 && st != 3 && (chainUp (2 * a) || chainUp (2 * a + 1)) && !quiet

/-- The usable set as ActiveAntenna names it. -/
def usableSet (s : State) : Nat :=
  if usable s 0 then (if usable s 1 then 2 else 0) else if usable s 1 then 1 else 3

/-- Signal and usability times of an antenna at a tick edge. -/
def State.antWatch (s : State) (a : Nat) : State :=
  let quiet := tracked s a == 0 && decide (4 ≤ tracked s (1 - a))
  let ms := s.time.ms
  let s := s.modAnt a fun x => { x with noSignalSince := if quiet then some (x.noSignalSince.getD ms) else none }
  let u := usable s a
  s.modAnt a fun x => { x with usableSince := if u then some (x.usableSince.getD ms) else none }

/-! ### Levels and windows (R157 to R160) -/

/-- U_t in the DUR64 unit (R158); none when unbounded. -/
def timeUncertainty (s : State) : Option Nat :=
  let ps (e : Nat) : Option Nat := if e = errUnknown then none else some (psToDu e).toNat
  match s.timing with
  | 0 => if s.getB K.lake_LakeValid then ps (s.get K.lake_SigmaNet) else none
  | 4 => (ps (s.get K.pondTime_ErrorEstimate)).map fun x => x + (s.getI K.timingEvents_LastRefusedOffset 8).natAbs
  | _ => ps (s.get K.pondTime_ErrorEstimate)

/-- U_f as a fraction (R158), in units of 1: ModelY in ppb, or OscUncertainty. -/
def freqUncertainty (s : State) : Nat × Nat :=
  if s.timing == 0 && !s.getB K.lake_LakeValid then (s.get K.erg_OscUncertainty, 1000000000)
  else ((f32Scaled (s.get K.holdover_ModelY)).toNat, 2 ^ 149 * 1000000000)

/-- U_t is bounded by a duration. -/
def utWithin (s : State) (lim : Nat) : Bool := match timeUncertainty s with | some u => decide (u ≤ lim) | none => false

/-- An almanac or ephemeris of a satellite is held. -/
def orbitHeld (s : State) (v sat : Nat) : Bool :=
  (ephemerisOf s v sat).isSome || entries.any fun e => storeIs s e 2 v sat && s.get (K.storeEntry_EntryState e) == 2

/-- A level is available to a signal, satellite and antenna (R157). -/
def levelHas (s : State) (v sat a level : Nat) : Bool :=
  let pos (mm : Nat) : Bool := decide (s.get (K.antennaPosition_PosUncertainty a) ≤ mm)
  let hot := (ephemerisOf s v sat).isSome && pos 300000 && utWithin s (20 * US)
  match level with
  | 1 | 5 => true
  | 2 => (orbitHeld s v sat && pos 10000000 && utWithin s (10 * SEC)) || sighted s v sat
  | 3 => hot
  | 4 => hot && (sigPilot v || peerSymbols s v sat)
  | _ => false

/-- The level of a run: the one named, or the highest available (R164); a pilot's PEER is its HOT. -/
def levelOf (s : State) (v sat a assist : Nat) : Nat :=
  if assist ≠ 0 then assist
  else if !sigPilot v && levelHas s v sat a 4 then 4
  else if levelHas s v sat a 3 then 3
  else if levelHas s v sat a 2 then 2
  else 1

/-- The block limit of R151 in ms. -/
def blockLimit (v sat level : Nat) : Nat :=
  match level with
  | 3 => if v = 6 ∧ bdsGeo sat then 2 else [20, 100, 100, 100, 100, 100, 20, 100, 100, 1, 10, 20, 100, 100, 20, 2].getD v 1
  | 4 => 100
  | _ => [10, 10, 1, 4, 1, 1, 1, 10, 1, 1, 5, 10, 10, 1, 10, 1].getD v 1

/-- The effective T_c (R162). -/
def effectiveTc (v sat level want : Nat) : Nat :=
  let p := sigPeriod v
  max p (min want (blockLimit v sat level) / p * p)

/-- The quotient rounded up. -/
def ceilDiv (a b : Nat) : Nat := (a + b - 1) / b

/-- The Doppler half-width as a fraction in Hz (R159). -/
def dopplerHalf (s : State) (v sat level : Nat) : Nat × Nat :=
  let fc := sigCarrier v sat
  let u := freqUncertainty s
  -- s × A with s = fc / 1,575.42 MHz
  let plus (an ad : Nat) : Nat × Nat := (fc * u.1 * (1575420000 * ad) + fc * an * u.2, u.2 * (1575420000 * ad))
  match level with
  | 2 =>
    if sighted s v sat then (fc * 10, 1575420000)
    else match timeUncertainty s with
      | some t => plus (50 * SEC + t) SEC
      | none => plus 50 1
  | 3 | 4 => plus 5 1
  | _ => plus 5000 1

/-- F and C of an entry at a level (R159). -/
def windowCells (s : State) (e v sat level tc : Nat) : Nat × Nat :=
  let full := 2 * sigChips v
  if level = 5 then
    let span := s.get (K.searchEntry_CodeSpan e)
    (2 * ceilDiv (s.get (K.searchEntry_DopplerHalfWidth e) * tc) 500 + 1, if span = 0 then full else span)
  else
    let w := dopplerHalf s v sat level
    let f := 2 * ceilDiv (w.1 * tc) (w.2 * 500) + 1
    let c := if level = 3 ∨ level = 4 then
        match timeUncertainty s with
        | some t => min full (2 * ceilDiv (2 * sigRate v * (t + US)) SEC + 1)
        | none => full
      else full
    (f, c)

/-- The code phase and the whole code periods passed, a duration `t` in the DUR64 unit after a phase, at a Doppler (R172). -/
def carryCode (v sat code : Nat) (dop t : Int) : Nat × Int :=
  let full : Int := (sigChips v * 2 ^ 32 : Nat)
  let rc : Int := sigRate v
  let rate := rc * 4294967296 + divRound (rc * dop * 65536) (sigCarrier v sat)
  let c := (code : Int) + divRound (rate * t) SEC
  ((c.fmod full).toNat, c.fdiv full)

/-- A prediction carried to a Pond time (R157, R158): the code phase there, and the phase of the secondary code or symbols
with it, in 2^-32 chip. In UNSET with Lake time valid the prediction is Lake time's, and the measured offset maps the
instant. -/
def predictedAt (s : State) (v sat : Nat) (p : ErgPred) (at_ : Nat) : Nat × Nat :=
  let x : Int := if s.timing == 0 && s.getB K.lake_LakeValid then s.getI K.lake_LakeOffset 8 else 0
  let c := carryCode v sat (p.code % (sigChips v * 2 ^ 32)) p.doppler ((at_ : Int) + x - p.at_)
  let n := ((p.sec : Int) + c.2).emod (sigSecondary v sat : Nat)
  (c.1, n.toNat * (sigChips v * 2 ^ 32) + c.1)

/-- The latest sighting of a signal and satellite that serves (R160). -/
def sightingOf (s : State) (v sat : Nat) : Option Sighting :=
  (s.nav.sightings.filter fun x => x.signal == v && x.satellite == sat
      && decide ((s.elapsed : Int) ≤ x.at_ + (10 * SEC : Nat))).foldl
    (fun o x => match o with | none => some x | some y => if y.at_ < x.at_ then some x else some y) none

/-- The window of an entry at a level for a run whose first edge is at a Pond time (R157, R159). -/
def windowOf (s : State) (e v sat level tc : Nat) (p : ErgPred) (edge : Nat) : ErgWindow :=
  let w := windowCells s e v sat level tc
  let full := sigChips v * 2 ^ 32
  let half := (w.2 - 1) / 2 * 2 ^ 31
  match level with
  | 5 => ⟨w.2, w.1, s.get (K.searchEntry_CodeStart e) * 2 ^ 31 % full, s.getI (K.searchEntry_DopplerCentre e) 4 * 65536⟩
  | 3 | 4 => ⟨w.2, w.1, ((predictedAt s v sat p edge).1 + full - half % full) % full, p.doppler⟩
  | 2 => ⟨w.2, w.1, 0, match sightingOf s v sat with | some x => x.doppler * 256 | none => p.doppler⟩
  | _ => ⟨w.2, w.1, 0, 0⟩

/-- P = ceil(C F / K) (R155). -/
def passCount (cells tc : Nat) : Nat := ceilDiv cells (min (300000 * tc) 1048576)

/-! ### Entries (R161 to R166) -/

/-- The lane that runs an entry. -/
def laneOf (s : State) (e : Nat) : Option Nat :=
  (List.range 8).find? fun l => match s.erg.lane.getD l none with | some r => r.entry == e | none => false

/-- A result of a signal, satellite and antenna waits. -/
def resultWaits (s : State) (v sat a : Nat) : Bool := s.erg.held.any fun r => r.run.signal == v && r.run.satellite == sat && r.run.ant == a

/-- A slot holds a signal from a satellite on an antenna in one of some states. -/
def slotHolds (s : State) (v sat a : Nat) (p : Nat → Bool) : Bool :=
  (s.slotsWhere p).any fun n => s.slotSig n == v && s.slotSat n == sat && s.slotAnt n == a

/-- An entry is DUE on an antenna (R163), the time since its last start apart. -/
def dueOn (s : State) (e a : Nat) : Bool :=
  let v := s.get (K.searchEntry_SignalId e)
  let sat := s.get (K.searchEntry_Satellite e)
  let assist := s.get (K.searchEntry_Assist e)
  let c := sigChain v a
  s.erg.enable && bit s.erg.signals v && serving s a && s.chainState c == 3 && !chainCal s c
    && !slotHolds s v sat a (fun st => decide (1 ≤ st ∧ st ≤ 4)) && !resultWaits s v sat a
    && (assist == 0 || levelHas s v sat a assist)

/-- The antenna a DUE entry runs on; none while it is WAITING, IDLE, RUNNING or DONE. With SERVING each antenna is judged
separately: a visit runs on ANT_A and then on ANT_B, without a Revisit between, and a ONCE entry that could run on ANT_B
alone has its run on ANT_A still to come (R163). -/
def entryDue (s : State) (e : Nat) : Option Nat :=
  let en := s.get (K.searchEntry_EntryEnable e)
  if en = 0 || (laneOf s e).isSome || s.get (K.searchEntry_EntryState e) == 4 then none
  else
    let ant := s.get (K.searchEntry_Antenna e)
    let start := s.get (K.searchEntry_LastStart e)
    let rested := en == 1 || start == 0 || decide (ofTime96 start + s.get (K.searchEntry_Revisit e) * MS ≤ s.time.now)
    let next := SMap.get 0 e s.erg.second
    if ant ≠ 2 then (if rested && dueOn s e ant then some ant else none)
    else if next = 1 && dueOn s e 1 then some 1
    else if next = 2 then (if dueOn s e 0 then some 0 else none)
    else if next = 1 && en == 1 && serving s 1 then none
    else if !rested then none
    else if dueOn s e 0 then some 0
    else if dueOn s e 1 then some 1
    else none

/-- EntryState as it reads. -/
def entryStateRead (s : State) (e : Nat) : Nat :=
  if s.get (K.searchEntry_EntryEnable e) = 0 then 0
  else if (laneOf s e).isSome then 3
  else if s.get (K.searchEntry_EntryState e) = 4 then 4
  else if (entryDue s e).isSome then 2 else 1

/-- The whole record fails R162: `g` gives the value of a subindex. -/
def entryBad (g : Nat → Nat) : Bool :=
  let v := g 0x03
  let r := satRange v
  decide (g 0x04 < r.1) || decide (r.2 < g 0x04) || g 0x07 % sigPeriod v != 0 || decide (2 * sigChips v ≤ g 0x0D)
    || decide (2 * sigChips v < g 0x0E)

/-! ### Outcomes (R175, R178) -/

/-- C/N0 in 0.1 dB-Hz of a cell: 10 log10((Λ / N - 1) / T_c) (R170). -/
def ergCn0 (ratio tc : Nat) : Nat := if ratio ≤ 65536 then 0 else deciBel ((ratio - 65536) * 1000) (65536 * tc)

/-- The stream entry of an outcome: the peak it reports with its t_ref, C/N0, the secondary phase known, the slot. -/
def ergBody (lane : Nat) (r : ErgRun) (outcome : Nat) (pk : Peak) (cn0 : Nat) (sec : Bool) (slot : Option Nat) : List Nat :=
  let t := toTime96 pk.tref
  let d := ofInt 6 pk.doppler
  [r.entry * 2 ^ 16 + lane * 2 ^ 13 + outcome * 2 ^ 9 + r.ant * 2 ^ 8 + r.signal * 2 ^ 4 + r.level * 2 + b2n (sigPilot r.signal),
   r.satellite * 2 ^ 16 + r.tc * 2 ^ 8 + (r.n - 1)]
    ++ (List.range 4).map (fun k => t / 2 ^ (24 * (3 - k)) % 2 ^ 24)
    ++ [pk.code / 2 ^ 24 % 2 ^ 24, pk.code % 2 ^ 24, d / 2 ^ 24, d % 2 ^ 24,
        min 4095 (deciBel pk.ratio 65536) * 2 ^ 12 + min 4095 cn0, b2n sec * 2 ^ 16 + r.status % 65536,
        (match slot with | some n => 2 ^ 9 + n | none => 0)]

/-- An outcome is written to the entry and posted; CANCELLED is not posted (R175, R178). With SERVING the visit may go on with
the other antenna (R163). -/
def State.ergOutcome (s : State) (lane : Nat) (r : ErgRun) (outcome : Nat) (pk : Peak) (cn0 : Nat) (sec : Bool)
    (slot : Option Nat) : State :=
  let e := r.entry
  let s := (s.set (K.searchEntry_LastResult e) outcome).set (K.searchEntry_LastPeakRatio e) (deciBel r.best.ratio 65536)
  let s := s.set (K.searchEntry_PassesLast e) (min 65535 r.pass)
  let s := if outcome = 8 then s else s.append 0x3081 0x02 (ergBody lane r outcome pk cn0 sec slot)
  if outcome = 5 ∨ outcome = 8 then s
  else
    let once := s.get (K.searchEntry_EntryEnable e) == 1
    let both := s.get (K.searchEntry_Antenna e) == 2
    let next := if !both then 0
      else if r.ant = 0 then (if SMap.get 0 e s.erg.second != 2 && dueOn s e 1 then 1 else 0)
      else if once && SMap.get 0 e s.erg.second != 1 && serving s 0 then 2 else 0
    let s := { s with erg := { s.erg with second := SMap.set 0 e next s.erg.second } }
    if once && next == 0 then s.set (K.searchEntry_EntryState e) 4 else s

/-- A lane's run ends: the lane is free. -/
def State.laneFree (s : State) (l : Nat) : State :=
  let s := { s with erg := { s.erg with lane := vecMod s.erg.lane l fun _ => none } }
  s.count (K.ergLane_LaneRuns l) 4

/-- A run ends with an outcome of its own: 2 to 5, 8. One whose last candidate was not accepted reports that candidate, and any
other its best cell, with the C/N0 that R170 makes of it. -/
def State.runEnd (s : State) (l outcome : Nat) : State :=
  match s.erg.lane.getD l none with
  | none => s
  | some r =>
    let s := s.laneFree l
    let s := if outcome = 5 then s.flag K.erg_ErgFlags 3 K.erg_AbortCount else s
    match r.cand with
    | some c =>
      if outcome = 3 ∨ outcome = 4 then s.ergOutcome l r outcome c.peak c.cn0 (r.level == 3 || r.level == 4) none
      else s.ergOutcome l r outcome r.best (ergCn0 r.best.ratio r.tc) false none
    | none => s.ergOutcome l r outcome r.best (ergCn0 r.best.ratio r.tc) false none

/-- Runs that satisfy a test end as ABORTED. -/
def State.runsAbort (s : State) (p : ErgRun → Bool) : State :=
  (List.range 8).foldl (fun s l => match s.erg.lane.getD l none with
    | some r => if p r then s.runEnd l 5 else s
    | none => s) s

/-- Held results that satisfy a test are discarded without counting; their runs end as ABORTED and are repeated (R175; DESIGN
CHOICE, log entry 164). -/
def State.resultsDrop (s : State) (p : ErgResult → Bool) : State :=
  let l := s.erg.held.filter p
  let s := { s with erg := { s.erg with held := s.erg.held.filter fun r => !p r } }
  l.foldl (fun s r => s.ergOutcome r.lane r.run 5 r.peak r.cn0 r.sec.isSome none) s

/-- Runs on a chain that has begun calibrating end (R180). -/
def State.ergCal (s : State) : State := s.runsAbort fun r => chainCal s (sigChain r.signal r.ant)

/-- An antenna has stopped serving (R181): its runs end, its results are discarded, its slots return to FREE. -/
def State.antLeave (s : State) (a : Nat) : State :=
  let s := s.runsAbort fun r => r.ant == a
  let s := s.resultsDrop fun r => r.run.ant == a
  s.slotsFreeWhere (fun s n => s.slotAnt n == a) 5

/-- ActiveAntenna takes a value: an antenna that served and serves no longer is abandoned, with SWITCHED (R142). -/
def State.serve (s : State) (toward : Nat) : State :=
  let left := [0, 1].filter fun a => serving s a && !(toward == 2 || toward == a)
  let s := s.set K.antennaRedundancy_ActiveAntenna toward
  if left = [] then s
  else left.foldl (fun s a => s.antLeave a) (s.flag K.antennaRedundancy_RedundancyFlags 0 K.antennaRedundancy_SwitchCount)

/-- RedundancyMode and Primary take effect, and a usable antenna joins the serving set (R140, R142). In BOTH every usable
antenna joins; one leaves by ANTENNA_SWITCH. In PRIMARY_BACKUP an antenna that alone serves goes on; out of two, or of none,
the Primary serves if it is usable, or else the other if that is. A new Primary serves by ANTENNA_SWITCH or
ANTENNA_REVERT. DESIGN CHOICE, log entry 162. -/
def State.antSelect (s : State) : State :=
  let s := (s.antWatch 0).antWatch 1
  let m := s.get K.antennaRedundancy_RedundancyMode
  let p := s.get K.antennaRedundancy_Primary
  let s := { s with rx := { s.rx with mode := m, primary := p } }
  let v := s.get K.antennaRedundancy_ActiveAntenna
  if m = 2 then s.serve 0
  else if m = 3 then s.serve 1
  else if m = 1 then
    if v < 2 then s
    else if usable s p then s.serve p
    else if usable s (1 - p) then s.serve (1 - p)
    else if v = 2 then s.serve p
    else s
  else
    let u := usableSet s
    s.serve (if v = 3 then u else if v = 2 then 2 else if u = 2 ∨ u = 1 - v then 2 else v)

/-- ANTENNA_SWITCH (R142): the serving antenna has become unusable. -/
def State.antSwitch (s : State) : State :=
  if s.atEdge then
    let v := s.get K.antennaRedundancy_ActiveAntenna
    match s.rx.mode with
    | 0 =>
      if [0, 1].any fun a => serving s a && !usable s a then
        match [0, 1].filter fun a => serving s a && usable s a with
        | [a] => s.serve a
        | _ => s.serve 3
      else s
    | 1 => if decide (v < 2) && !usable s v && usable s (1 - v) then s.serve (1 - v) else s
    | _ => s
  else s

/-- ANTENNA_REVERT (R142): Primary has been usable without a break for RevertDelay. -/
def State.antRevert (s : State) : State :=
  let v := s.get K.antennaRedundancy_ActiveAntenna
  let p := s.rx.primary
  let long := match (s.ant p).usableSince with
    | some m => decide (s.get K.antennaRedundancy_RevertDelay * 1000 ≤ s.since m)
    | none => false
  if s.atEdge && s.rx.mode == 1 && s.getB K.antennaRedundancy_Revertive && v != p && usable s p && long then s.serve p else s

/-! ### Runs (R164, R156) -/

/-- Pond time of the tick edge at which a run that starts now begins, and its tick count. -/
def nextEdge (s : State) : Nat × Nat := if s.atEdge then (s.time.t0, s.time.ms) else (s.time.t0 + MS, s.time.ms + 1)

/-- The entry a free lane takes (R164): highest Priority, then oldest LastStart, then lowest number. -/
def bestEntry (s : State) : Option (Nat × Nat) :=
  let l := (List.range 256).filterMap fun e => (entryDue s e).map fun a => (e, a)
  let key (e : Nat) : Nat := (3 - s.get (K.searchEntry_Priority e)) * 2 ^ 97 + s.get (K.searchEntry_LastStart e)
  l.foldl (fun o x => match o with | none => some x | some y => if key x.1 < key y.1 then some x else some y) none

/-- LANE_RUN_START (R164): the lowest-numbered free lane takes the DUE entry that comes first; `p` is what the device predicts
for it. -/
def State.laneStart (s : State) (p : ErgPred) : State :=
  match (List.range 8).find? fun l => bit s.erg.lanes l && (s.erg.lane.getD l none).isNone with
  | none => s
  | some l =>
    if !s.erg.enable then s
    else match bestEntry s with
    | none => s
    | some (e, a) =>
      let v := s.get (K.searchEntry_SignalId e)
      let sat := s.get (K.searchEntry_Satellite e)
      let level := levelOf s v sat a (s.get (K.searchEntry_Assist e))
      let tc := effectiveTc v sat level (s.get (K.searchEntry_CoherentTime e))
      let edge := nextEdge s
      let w := windowOf s e v sat level tc p edge.1
      let s := (s.bump (K.searchEntry_RunCount e) 2).count K.erg_SearchesRun 4
      let s := (s.set (K.searchEntry_LastStart e) (toTime96 edge.1)).set (K.searchEntry_AssistUsed e) level
      let s := (s.set (K.searchEntry_EffectiveTc e) tc).set (K.searchEntry_PassesLast e) 1
      let r : ErgRun := { entry := e, ant := a, signal := v, satellite := sat, level := level, tc := tc,
                          n := s.get (K.searchEntry_NonCoherent e), pfa := s.get K.erg_DetectPfa, win := w,
                          phase := (predictedAt s v sat p edge.1).2, passes := passCount (w.c * w.f) tc, pass := 1,
                          verifying := false, began := edge.2, start := edge.2, status := 0, best := ⟨0, 0, 0, edge.1⟩,
                          cand := none, outcome := 2, waiting := false, split := false }
      { s with erg := { s.erg with lane := vecMod s.erg.lane l fun _ => some r } }

/-- The time from a tick edge to the first block that begins at or after it (R156), for a pass or verification that begins at
tick count `ms`: none at COLD, WARM and MANUAL; at HOT and PEER to the predicted boundary of the secondary code or data
symbol that is next on a grid of T_c, or of the secondary code or symbol where that is shorter. -/
def blockWait (r : ErgRun) (ms : Nat) : Nat :=
  if r.level = 3 ∨ r.level = 4 then
    let full := sigChips r.signal * 2 ^ 32
    let c := carryCode r.signal r.satellite (r.phase % full) r.win.centre ((ms - r.start) * MS : Nat)
    let n := ((r.phase / full : Nat) + c.2).emod (sigSecondary r.signal r.satellite : Nat)
    let grid := min r.tc (sigSecondary r.signal r.satellite * sigPeriod r.signal) * MS
    let at_ := n.toNat * (sigPeriod r.signal * MS) + c.1 * SEC / (sigRate r.signal * 2 ^ 32)
    (grid - at_ % grid) % grid
  else 0

/-- Its N blocks have been taken, and the decision's 100 µs have not passed (R156). -/
def blocksDone (s : State) (r : ErgRun) : Bool :=
  let last := r.n * r.tc * MS + blockWait r r.began
  let since := (s.time.ms - r.began) * MS + (s.time.now - s.time.t0)
  !r.waiting && decide (r.began ≤ s.time.ms) && decide (last ≤ since) && decide (since ≤ last + 100 * US)

/-- Λ exceeds the threshold γ of R167: its tail probability is below 10^-D / (C F), with the D of the run's start. -/
def detects (r : ErgRun) (ratio : Nat) : Bool :=
  decide (chiTail (2 * r.n) (2 * r.n * ratio * P256 / 65536) * (10 ^ r.pfa * (r.win.c * r.win.f)) < P256)

/-- The peak at a place in the window, in eighths of a cell from its first (R155), as the tick edge of the present tick sees it:
a cell is a code phase at the run's first edge, carried at its Doppler (DESIGN CHOICE, log entry 165). -/
def peakAt (s : State) (r : ErgRun) (cell8 line8 : Int) (ratio : Nat) : Peak :=
  let full : Int := (sigChips r.signal * 2 ^ 32 : Nat)
  let dop := r.win.centre + divRound ((line8 - 4 * ((r.win.f : Int) - 1)) * 32768000) (8 * r.tc : Nat)
  let code := ((r.win.base : Int) + cell8 * 268435456).fmod full
  ⟨(carryCode r.signal r.satellite code.toNat dop ((s.time.ms - r.start) * MS : Nat)).1, dop, ratio, s.time.t0⟩

/-- The vertex of the parabola through three powers, in eighths of a cell from the middle one, held within half a cell of the
largest, `k` being its place -1 to 1 (R168). -/
def vertex8 (a b c k : Int) : Int :=
  let d := a - 2 * b + c
  if d < 0 then clamp (8 * k - 4) (8 * k + 4) (divRound (8 * (a - c)) (2 * d)) else 8 * k

/-- Change the run of a lane. -/
def State.modRun (s : State) (l : Nat) (f : ErgRun → ErgRun) : State :=
  { s with erg := { s.erg with lane := vecMod s.erg.lane l fun o => o.map f } }

/-- The run goes on with its next pass at the next tick edge, or ends with its outcome. -/
def State.runNext (s : State) (l : Nat) (r : ErgRun) : State :=
  if r.pass < r.passes then s.modRun l fun r => { r with verifying := false, waiting := true }
  else s.runEnd l r.outcome

/-- The better of two peaks. -/
def better (a b : Peak) : Peak := if a.ratio < b.ratio then b else a

/-- PASS_DECISION (R156, R167): a pass ends; its cell of largest Λ is code cell `cell`, Doppler cell `line` of the window. -/
def State.passDecision (s : State) (l cell line ratio : Nat) : State :=
  match s.erg.lane.getD l none with
  | none => s
  | some r =>
    if r.verifying || !blocksDone s r || decide (r.win.c ≤ cell) || decide (r.win.f ≤ line) then s
    else
      let pk := peakAt s r (8 * cell) (8 * line) ratio
      let s := s.modRun l fun r => { r with best := better r.best pk }
      if detects r ratio then s.modRun l fun r => { r with cand := some ⟨cell, line, pk, 0⟩, verifying := true, waiting := true }
      else s.runNext l r

/-- CROSS_CORR holds for a candidate (R169). -/
def crossRejects (s : State) (r : ErgRun) (pk : Peak) (cn0 : Nat) : Bool :=
  sigPeriod r.signal == 1 &&
  (s.slotsWhere fun v => v == 3 || v == 4).any fun n =>
    s.slotAnt n == r.ant && sigBand (s.slotSig n) == sigBand r.signal && sigPeriod (s.slotSig n) == 1
      && (let d := (pk.doppler - s.getI (K.slot_Doppler n) 6).natAbs % 65536000
          let w := 500 * 65536 / r.tc
          decide (d ≤ w) || decide (65536000 - w ≤ d))
      && decide (cn0 + 10 * s.get K.erg_CrossCorrMargin ≤ s.get (K.slot_Cn0 n))

/-- A result is posted (R171, R172): those posted in one cycle stand in lane order. -/
def State.resultPost (s : State) (x : ErgResult) : State :=
  let before (y : ErgResult) : Bool := !(decide (y.at_ = x.at_) && decide (x.lane < y.lane))
  { s with erg := { s.erg with held := s.erg.held.takeWhile before ++ x :: s.erg.held.dropWhile before } }

/-- The secondary or symbol phase of a verified peak (R171): the predicted one whose code phase lies nearest. -/
def secPhase (s : State) (r : ErgRun) (pk : Peak) : Nat :=
  let full := sigChips r.signal * 2 ^ 32
  let c := carryCode r.signal r.satellite (r.phase % full) r.win.centre ((s.time.ms - r.start) * MS : Nat)
  let n := (r.phase / full : Nat) + c.2 + divRound ((c.1 : Int) - pk.code) full
  (n.emod (sigSecondary r.signal r.satellite : Nat)).toNat

/-- VERIFICATION (R168 to R171): it ends with Λ / N of the 3 × 3 cells about the candidate, rows by Doppler. After a success the
peak is refined; CROSS_CORR, or a SPLIT during a HOT or PEER run, keeps it from becoming a result. -/
def State.verification (s : State) (l : Nat) (powers : List Nat) : State :=
  match s.erg.lane.getD l none with
  | none => s
  | some r => match r.cand with
    | none => s
    | some c =>
    if !r.verifying || !blocksDone s r then s
    else
      let y (i : Nat) : Nat := powers.getD i 0
      let top := (List.range 9).foldl (fun o i => if y o < y i then i else o) 0
      let ratio := y top
      let cn0 := ergCn0 ratio r.tc
      if !detects r ratio then
        let r := { r with outcome := 3, cand := some { c with cn0 := cn0 } }
        ((s.flag K.erg_ErgFlags 2 K.erg_VerifyFailCount).modRun l fun _ => r).runNext l r
      else
        let row := top / 3
        let col := top % 3
        let dc := vertex8 (y (3 * row)) (y (3 * row + 1)) (y (3 * row + 2)) ((col : Int) - 1)
        let df := vertex8 (y col) (y (3 + col)) (y (6 + col)) ((row : Int) - 1)
        let pk := peakAt s r (8 * c.cell + dc) (8 * c.line + df) ratio
        let r := { r with best := better r.best pk, outcome := 4, cand := some { c with peak := pk, cn0 := cn0 } }
        let s := s.modRun l fun _ => r
        if crossRejects s r pk cn0 then (s.flag K.erg_ErgFlags 1 K.erg_CrossCorrCount).runNext l r
        else if (r.level = 3 ∨ r.level = 4) ∧ r.split = true then s.runEnd l 5
        else
          let known := r.level == 3 || r.level == 4
          let tick := if s.time.now - s.time.t0 < 900 * US then s.time.ms else s.time.ms + 1
          (s.laneFree l).resultPost
            { lane := l, run := r, peak := pk, sec := if known then some (secPhase s r pk) else none, cn0 := cn0, from_ := tick,
              ref := s.time.ms, posted := s.time.ms, at_ := s.elapsed, tried := false }

/-! ### Handoff (R171 to R174) -/

/-- HANDOFF_LOAD (R171 to R174): the oldest result that may be loaded now is tried: loaded into the lowest FREE slot, where its
phase is the one of the next tick edge, at which the NCOs start; discarded as a DUPLICATE; or held. -/
def State.handoff (s : State) : State :=
  let ready (r : ErgResult) : Bool := decide (r.from_ ≤ s.time.ms) && (!r.tried || s.atEdge)
  match s.erg.held.find? ready with
  | none => s
  | some r =>
    let v := r.run.signal
    let sat := r.run.satellite
    let rest (s : State) : State := { s with erg := { s.erg with held := s.erg.held.erase r } }
    if slotHolds s v sat r.run.ant (fun st => decide (1 ≤ st ∧ st ≤ 5)) then
      (rest s).ergOutcome r.lane r.run 7 r.peak r.cn0 r.sec.isSome none
    else
      let free := (List.range 512).find? fun n => s.slotState n == 0
      match free with
      | some n =>
        if s.slotsInUse < s.get K.tickBudget_SlotsHeldLimit then
          let c := carryCode v sat r.peak.code r.peak.doppler ((s.time.ms + 1 - r.ref) * MS : Nat)
          let nco := ncoWords v sat 0 (r.peak.doppler * 16777216) (r.peak.doppler * 16777216)
          let sec := (((r.sec.getD 0 : Nat) : Int) + c.2).emod (sigSecondary v sat : Nat)
          let at_ := s.time.ms + 1
          let s := rest s
          let s := ((s.set (K.slot_SlotState n) 1).set (K.slot_SignalId n) v).set (K.slot_Satellite n) sat
          let s := ((s.set (K.slot_Antenna n) r.run.ant).set (K.slot_Priority n) (s.get (K.searchEntry_Priority r.run.entry))).set
            (K.slot_Components n) (b2n (sigPilot v))
          let s := ((s.set (K.slot_CodePhase n) c.1).set (K.slot_SecondaryIndex n) sec.toNat).setI (K.slot_Doppler n) 6 r.peak.doppler
          let s := (s.set (K.slot_CarrierPhase n) 0).set (K.slot_StateEntered n) s.edge96
          let s := s.modSlot n fun x =>
            { SlotSt.reset with seq := x.seq, parity := x.parity, secKnown := r.sec.isSome, codeRate := nco.1, startMs := at_,
                                spacing := spacingOf s v }
          let s := s.count K.erg_HandoffsDone 4
          s.ergOutcome r.lane r.run 1 r.peak r.cn0 r.sec.isSome (some n)
        else { s with erg := { s.erg with held := s.erg.held.map fun q => if q = r then { q with tried := true } else q } }
      | none => { s with erg := { s.erg with held := s.erg.held.map fun q => if q = r then { q with tried := true } else q } }

/-- Results held under R173. -/
def State.heldCount (s : State) : Nat := (s.erg.held.filter fun r => r.tried).length

/-- NO_SLOT (R173): a result held longer than HandoffHold, or one more than 16, is discarded. -/
def State.noSlot (s : State) : State :=
  let late (r : ErgResult) : Bool := r.tried && decide (s.get K.erg_HandoffHold < s.since r.posted)
  let above : Option ErgResult := if 16 < s.heldCount then (s.erg.held.filter fun r => r.tried).getLast? else none
  match (s.erg.held.find? late).orElse fun _ => above with
  | none => s
  | some r =>
    let s := { s with erg := { s.erg with held := s.erg.held.erase r } }
    (s.flag K.erg_ErgFlags 0 K.erg_NoSlotCount).ergOutcome r.lane r.run 6 r.peak r.cn0 r.sec.isSome none

/-! ### The firmware's entries (R165, R166) -/

/-- Candidates of R166 in order: signal, satellite, Priority, Revisit. `predicted` gives satellites the orbit data places
at an elevation: system, satellite, degrees. -/
def autoList (s : State) (predicted : List (Nat × Nat × Int)) : List (Nat × Nat × Nat × Nat) :=
  let sigs := (List.range 16).filter fun v => bit s.erg.signals v
  let held (v sat : Nat) : Bool := (s.slotsWhere fun st => decide (1 ≤ st ∧ st ≤ 4)).any fun n => s.slotSig n == v && s.slotSat n == sat
  let sats (v : Nat) : List Nat := let r := satRange v; (List.range (r.2 + 1 - r.1)).map fun i => r.1 + i
  let g1 := sigs.flatMap fun v => (sats v).filterMap fun sat => if sighted s v sat && !held v sat then some (v, sat, 3, 1000) else none
  let above (v sat : Nat) : Bool :=
    predicted.any (fun p => p.1 == sigSystem v && p.2.1 == sat && decide (s.getI K.erg_AutoElevationMask 1 ≤ p.2.2))
      && (List.range 16).any fun w => sigSystem w == sigSystem v && orbitHeld s w sat
  let g2 := sigs.flatMap fun v => (sats v).filterMap fun sat =>
    if above v sat && !(g1.any fun x => x.1 == v && x.2.1 == sat) then some (v, sat, 2, 2000) else none
  let g3 := (sigs.filter fun v => !((g1 ++ g2).any fun x => x.1 == v)).flatMap fun v => (sats v).map fun sat => (v, sat, 1, 10000)
  let g3 := if g3.length = 0 then g3 else g3.drop (s.erg.rotation % g3.length) ++ g3.take (s.erg.rotation % g3.length)
  g1 ++ g2 ++ g3

/-- Fill an entry as the firmware does. -/
def State.autoFill (s : State) (e : Nat) (c : Nat × Nat × Nat × Nat) : State :=
  let v := c.1
  let sat := c.2.1
  let a := if serving s 0 then 0 else 1
  let level := levelOf s v sat a 0
  let same := s.get (K.searchEntry_SignalId e) == v && s.get (K.searchEntry_Satellite e) == sat && s.get (K.searchEntry_EntryEnable e) == 2
  let s := if same then s else (List.range 8).foldl (fun s i => s.set (K.searchEntry_EntryState e + i) 0) s
  let s := ((s.set (K.searchEntry_EntryEnable e) 2).set (K.searchEntry_SignalId e) v).set (K.searchEntry_Satellite e) sat
  let s := ((s.set (K.searchEntry_Antenna e) 2).set (K.searchEntry_Assist e) 0).set (K.searchEntry_CoherentTime e) (blockLimit v sat level)
  let s := (s.set (K.searchEntry_NonCoherent e) (if level = 3 ∨ level = 4 then 20 else 10)).set (K.searchEntry_Priority e) c.2.2.1
  s.set (K.searchEntry_Revisit e) c.2.2.2

/-- AUTO_LIST_REFILL (R166), once per second: entries that run go on; a candidate that has an entry keeps it. -/
def State.autoRefill (s : State) (predicted : List (Nat × Nat × Int)) : State :=
  let due := match s.erg.refill with | some t => decide (t + SEC ≤ s.elapsed) | none => true
  if s.erg.auto && s.fwUp && due then
    let mine := (List.range 128).map fun i => 128 + i
    let l := (autoList s predicted).take 128
    let has (e : Nat) (c : Nat × Nat × Nat × Nat) : Bool :=
      s.get (K.searchEntry_EntryEnable e) == 2 && s.get (K.searchEntry_SignalId e) == c.1 && s.get (K.searchEntry_Satellite e) == c.2.1
    let busy := mine.filter fun e => (laneOf s e).isSome
    let kept := mine.filter fun e => !(busy.contains e) && l.any fun c => has e c
    let rest := mine.filter fun e => !(busy.contains e) && !(kept.contains e)
    let fresh := l.filter fun c => !(mine.any fun e => has e c)
    let s := kept.foldl (fun s e => match l.find? fun c => has e c with | some c => s.autoFill e c | none => s) s
    let s := (List.zip rest fresh).foldl (fun s p => s.autoFill p.1 p.2) s
    let s := (rest.drop fresh.length).foldl (fun s e => s.set (K.searchEntry_EntryEnable e) 0) s
    { s with erg := { s.erg with rotation := s.erg.rotation + 128, refill := some s.elapsed } }
  else s

/-- OFF written to EntryEnable: the run ends at once as CANCELLED (R162); any other write leaves DONE. -/
def State.entryWritten (s : State) (e v : Nat) : State :=
  let s := s.set (K.searchEntry_EntryState e) 0
  let s := { s with erg := { s.erg with second := SMap.set 0 e 0 s.erg.second } }
  if v = 0 then
    match laneOf s e with
    | some l => s.runEnd l 8
    | none => s
  else s

/-! ### Tick edge, steps, resets (R154, R165, R176, R181 to R184) -/

/-- The search engine at a tick edge: settings take effect, runs gather FrontEndStatus, passes that wait begin. -/
def State.ergTick (s : State) : State :=
  let lanes := s.get K.erg_LanesEnabled
  let enable := s.getB K.erg_ErgEnable
  let signals := s.get K.signalEnable
  let auto := s.getB K.erg_AutoList
  let busy := ((List.range 8).filter fun l => (s.erg.lane.getD l none).isSome).length
  let on := if s.erg.enable then ((List.range 8).filter fun l => bit s.erg.lanes l).length else 0
  let s := s.modErg fun e => { e with laneTicks := e.laneTicks + on, busyTicks := e.busyTicks + busy }
  let s := if s.time.t0 % SEC = 0 then
      let u := if s.erg.laneTicks = 0 then 0 else min 65535 (s.erg.busyTicks * 65536 / s.erg.laneTicks)
      (s.set K.erg_ErgUtilisation u).modErg fun e => { e with laneTicks := 0, busyTicks := 0 }
    else s
  -- R154
  let off (v : Nat) : Bool := bit s.erg.signals v && !bit signals v
  let s := if signals = s.erg.signals then s
    else ((s.runsAbort fun r => off r.signal).resultsDrop fun r => off r.run.signal).slotsFreeWhere (fun s n => off (s.slotSig n)) 4
  -- R176
  let s := (List.range 8).foldl (fun s l => if enable && bit lanes l then s else match s.erg.lane.getD l none with
    | some _ => s.runEnd l 5 | none => s) s
  -- R165
  let s := if auto = s.erg.auto then s
    else ((List.range 128).map fun i => 128 + i).foldl (fun s e =>
      let s := match laneOf s e with | some l => s.runEnd l 5 | none => s
      s.set (K.searchEntry_EntryEnable e) 0) s
  let s := s.modErg fun e => { e with lanes := lanes, enable := enable, signals := signals, auto := auto }
  let ms := s.time.ms
  { s with erg := { s.erg with lane := s.erg.lane.map fun o => o.map fun r =>
      { r with status := Nat.lor r.status (s.get (K.chain_FrontEndStatus (sigChain r.signal r.ant))),
               began := if r.waiting then ms else r.began, waiting := false,
               pass := if r.waiting && !r.verifying then r.pass + 1 else r.pass } } }

/-- A step or re-seed (R182). -/
def State.ergStep (s : State) : State := (s.runsAbort fun _ => true).resultsDrop fun _ => true

/-- Entry to SLEEP or DEEP (R184). -/
def State.ergSleep (s : State) : State := s.runsAbort fun _ => true

/-- A warm reset (R184): lanes stop, entries and the stream return to their defaults (the entries with every V object). -/
def State.ergReset (s : State) : State :=
  { (s.setStream 0x3081 []) with erg := { s.erg with lane := .replicate 8 none, held := [], second := [], refill := none, laneTicks := 0, busyTicks := 0 } }

/-! ### Commands -/

/-- CALIBRATION_START (R132, R180): at a tick edge with no run in progress; searches on the chain end. -/
def execCalibrationStart (s : State) : Host.Outcome State Fault Refusal :=
  .next (onlyIf s.inRun s (if s.atEdge then s.calStart.ergCal else s))
/-- CALIBRATION_END (R132): the next queued chain starts at the same edge. -/
def execCalibrationEnd (s : State) : Host.Outcome State Fault Refusal := .next (onlyIf s.inRun s s.calEnd.ergCal)
/-- ANTENNA_SWITCH (R142). -/
def execAntennaSwitch (s : State) : Host.Outcome State Fault Refusal := .next (onlyIf s.inRun s s.antSwitch)
/-- ANTENNA_REVERT (R142). -/
def execAntennaRevert (s : State) : Host.Outcome State Fault Refusal := .next (onlyIf s.inRun s s.antRevert)
/-- LANE_RUN_START (R164). -/
def execLaneRunStart (p : ErgPred) (s : State) : Host.Outcome State Fault Refusal := .next (onlyIf s.inRun s (s.laneStart p))
/-- PASS_DECISION (R156): the code and Doppler cell of largest Λ, with Λ / N in 2^-16. -/
def execPassDecision (l cell line ratio at_ : Nat) (s : State) : Host.Outcome State Fault Refusal :=
  .next (onlyIf s.inRun s ((s.reach (s.time.t0 + at_)).passDecision l cell line ratio))
/-- VERIFICATION (R168): Λ / N of the nine cells, in 2^-16. -/
def execVerification (l : Nat) (powers : List Nat) (at_ : Nat) (s : State) : Host.Outcome State Fault Refusal :=
  .next (onlyIf s.inRun s ((s.reach (s.time.t0 + at_)).verification l powers))
/-- HANDOFF_LOAD (R172). -/
def execHandoffLoad (s : State) : Host.Outcome State Fault Refusal := .next (onlyIf s.inRun s s.handoff)
/-- NO_SLOT (R173). -/
def execNoSlot (s : State) : Host.Outcome State Fault Refusal := .next (onlyIf s.inRun s s.noSlot)
/-- AUTO_LIST_REFILL (R166). -/
def execAutoListRefill (predicted : List (Nat × Nat × Int)) (s : State) : Host.Outcome State Fault Refusal :=
  .next (onlyIf s.inRun s (s.autoRefill predicted))

end Sys2Proof.Machine
end

