-- ==== Sys2Proof/Machine/Outputs.lean ====
section
/-!
DEFINITION. Delays, time pulses, clock outputs, time of day and IRIG-B (spec/03, R96 to R113; spec/20, R594).
-/

namespace Sys2Proof.Machine

/-! ### Delay items (R96 to R98) -/

/-- The Offset an item's target subtracts: of TP p for item 4 + p, of CKO c for item 8 + c, none for an antenna (R98). -/
def delayOffset (s : State) (k : Nat) : Int :=
  if k < 4 then 0
  else if k < 8 then s.getI (K.timePulse_Offset (k - 4)) 8
  else s.getI (K.clockOut_Offset (k - 8)) 8

/-- A valid tag read is held: TagId is not all zero (R97). -/
def tagHeld (s : State) (k : Nat) : Bool := s.get (K.delay_TagId k) != 0

/-- InForce and DelayState follow Source (R97). -/
def State.delayChoose (s : State) (k : Nat) : State :=
  let src := s.get (K.delay_Source k)
  if src != 0 && tagHeld s k then
    (s.set (K.delay_InForce k) (s.get (K.delay_TagDelay k))).set (K.delay_DelayState k) 1
  else
    (s.set (K.delay_InForce k) (s.get (K.delay_Configured k))).set (K.delay_DelayState k)
      (if src == 0 then 0 else if src == 1 then 2 else 3)

/-- The target of Applied (R98, R266). -/
def delayTarget (s : State) (k : Nat) : Int := s.getI (K.delay_InForce k) 8 - delayOffset s k

/-- One edge of Applied toward its target (R98): an antenna item at once, an output item at DelaySlewRate in steps of
512 units, or at once with an OUTPUT_STEP record when the rate is 0. -/
def State.delaySlew (s : State) (k : Nat) : State :=
  let target := delayTarget s k
  let a := s.getI (K.delay_Applied k) 8
  if k < 4 then s.setI (K.delay_Applied k) 8 target
  else if a = target then { s with out := { s.out with slewAcc := s.out.slewAcc.set k 0 } }
  else
    let rate := s.get (K.delay_DelaySlewRate k)
    if rate = 0 then
      (s.setI (K.delay_Applied k) 8 target).log 0x0105 St.ok ([k, 0, 0, 0] ++ toBytes 8 (ofInt 8 target))
    else
      -- the allowance of one tick, in units of 10^-6 DUR64 units
      let acc := s.out.slewAcc.getD k 0 + rate * 65536
      let n := acc / 512000000
      let dist := (target - a).natAbs
      let mv := min (n * 512) dist
      let a' := if a < target then a + mv else a - mv
      let s := s.setI (K.delay_Applied k) 8 a'
      { s with out := { s.out with slewAcc := s.out.slewAcc.set k (if a' = target then 0 else acc - n * 512000000) } }

/-- Every delay item chooses and moves at a tick edge. -/
def State.delayTick (s : State) : State :=
  if s.out.loaded then
    (List.range 10).foldl (fun s k => (s.delayChoose k).delaySlew k) s
  else s

/-- Some delay item of a list is UNVERIFIED (R97). -/
def unverified (s : State) (ks : List Nat) : Bool := ks.any fun k => s.get (K.delay_DelayState k) == 3

/-! ### Time pulses (R99 to R101) -/

/-- The delay from placer to ball for the Slew in force of a pin group (R99, R524, R594): a factory value. -/
def slewFactory (s : State) (key group : Nat) : Int :=
  toInt 8 (Config.factory (key + s.get (K.pinGroup_Slew group) * 2 ^ 32) % 2 ^ 64)

/-- The advance Q of a pulse output: Applied + InternalDelay to the nearest multiple of 512, ties to even (R100). -/
def tpAdvance (s : State) (p : Nat) : Int :=
  512 * divRound (s.getI (K.delay_Applied (4 + p)) 8 + slewFactory s (K.timePulse_InternalDelay p) 0) 512

/-- The advance of a clock output (R103). -/
def ckoAdvance (s : State) (c : Nat) : Int :=
  512 * divRound (s.getI (K.delay_Applied (8 + c)) 8 + toInt 8 (s.get (K.clockOut_InternalDelay c) % 2 ^ 64)) 512

/-- The first multiple of `p` at or after an instant. -/
def gridAt (p t : Nat) : Nat := if p = 0 then t else (t + p - 1) / p * p

/-- The grid in force of a pulse output, in the DUR64 unit: its period, or whole seconds in IRIG_B mode (R100, R108). -/
def tpPeriod (t : TpSt) : Nat := if t.irig then SEC else t.period * US

/-- The outputs behave as in UNSET: until the edge of the single step (R89, R109). -/
def outUnset (s : State) : Bool := s.timing == 0 || s.firstDue

/-- The output may run: ALWAYS, or FROM_STEP once Pond time has been set (R99, R109). -/
def outRuns (s : State) (enable : Nat) : Bool := enable == 2 || (enable == 1 && !outUnset s)

/-- Change one pulse output. -/
def State.modTp (s : State) (p : Nat) (f : TpSt → TpSt) : State :=
  { s with out := { s.out with tp := listMod s.out.tp p f } }

/-- One pulse output. -/
def State.tp (s : State) (p : Nat) : TpSt := s.out.tp.getD p TpSt.reset

/-- The IRIG-B frame in progress at an instant, begun 1 s before `endsAt`, is cut: the element in progress completes (R108). -/
def State.irigCut (s : State) (p at_ : Nat) : State :=
  let t := s.tp p
  if t.active || decide (t.endsAt ≤ at_) then s
  else
    let from_ := t.endsAt - SEC
    let n := (at_ - from_) / (10 * MS) + 1
    let s := { s with out := { s.out with tod := { s.out.tod with frame := s.out.tod.frame.take n } } }
    s.modTp p fun t => { t with active := true, endsAt := from_ + n * (10 * MS) }

/-- The settings of an output are those in force; Period is ignored in IRIG_B mode (R108). -/
def tpSame (s : State) (p : Nat) (t : TpSt) : Bool :=
  t.irig == (s.get (K.timePulse_Mode p) == 1) && t.polarity == s.get (K.timePulse_Polarity p)
    && (t.irig || t.period == s.get (K.timePulse_Period p))

/-- Width as R101 uses it: 0 in IRIG_B mode (R108). -/
def tpWidth (s : State) (p : Nat) : Nat :=
  if s.get (K.timePulse_Mode p) == 1 then 0 else s.get (K.timePulse_Width p) * NS

/-- An output takes its settings. -/
def TpSt.take (t : TpSt) (s : State) (p : Nat) : TpSt :=
  { t with period := s.get (K.timePulse_Period p), polarity := s.get (K.timePulse_Polarity p),
           irig := s.get (K.timePulse_Mode p) == 1 }

/-- Enabling starts the output at the first grid instant at least 2 ms later (R101), with the settings in force until a pulse in
progress ends; disabling lets a pulse or element in progress end and starts none. -/
def State.tpEnable (s : State) (p : Nat) : State :=
  let e := s.get (K.timePulse_Enable p)
  if s.out.loaded && !s.out.asleep && outRuns s e then
    s.modTp p fun t => match t.from_ with
      | some _ => t
      | none =>
        if t.active then { t with from_ := some (s.time.now + 2 * MS) }
        else { t.take s p with from_ := some (s.time.now + 2 * MS), fresh := false }
  else (s.irigCut p s.time.now).modTp p fun t => { t with from_ := none }

/-- New Period, Polarity or Mode after the pulse or element in progress: the new grid starts at least Width after its end plus
1 µs, and no sooner than it would have (R101, R108). -/
def State.tpRegrid (s : State) (p : Nat) : State :=
  let s := if tpSame s p (s.tp p) then s else s.irigCut p s.time.now
  s.modTp p fun t =>
    if t.active || tpSame s p t then t
    else { t.take s p with from_ := t.from_.map fun f => max f (max s.time.now (t.endsAt + tpWidth s p + US)), fresh := true }

/-- The on-time edge of a grid instant (R100, R101): the output is at its active level, the pulse ends Width later; an
interval shorter than the new Period counts SHORT_INTERVAL. `g` is the grid instant. -/
def State.tpEdge (s : State) (p g : Nat) : State :=
  let t := s.tp p
  let due := match t.from_ with | some f => decide (f ≤ g) | none => false
  if decide (p < 4) && s.out.loaded && due && !t.active && decide (g % tpPeriod t = 0)
      && !t.irig && (match t.lastEdge with | some l => decide (l < g) | none => true) then
    let short := t.fresh && (match t.lastEdge with | some l => decide (g - l < tpPeriod t) | none => false)
    let emit := ((g : Int) - tpAdvance s p).toNat
    let s := s.modTp p fun t => { t with active := true, lastEdge := some g,
                                         endsAt := emit + s.get (K.timePulse_Width p) * NS, fresh := false,
                                         shortAt := if short then some g else t.shortAt }
    let s := s.count (K.timePulse_PulseCount p) 6
    if short then s.flag (K.timePulse_PulseFlags p) 0 (K.timePulse_ShortIntervals p) else s
  else s

/-- Width after its on-time edge the pulse ends (R101); a change that waited for it takes effect. -/
def State.tpEnd (s : State) (p : Nat) : State :=
  if (s.tp p).active then
    (s.modTp p fun t => { t with active := false }).tpRegrid p
  else s

/-- An instant of the old Pond time on the new one. -/
def shiftAt (old new t : Nat) : Nat := ((t : Int) + new - old).toNat

/-- The step moves the grids (R109): a running output completes its pulse or element and starts the new grid under R101, no
sooner than it would have; a stopped FROM_STEP output starts. `old` and `new` are Pond time before and after. -/
def State.tpStep (s : State) (old new p : Nat) : State :=
  let shift := shiftAt old new
  let s := (s.irigCut p old).modTp p fun t =>
    { t with lastEdge := t.lastEdge.map shift, endsAt := shift t.endsAt, shortAt := t.shortAt.map shift }
  if s.out.loaded && !s.out.asleep && outRuns s (s.get (K.timePulse_Enable p)) then
    s.modTp p fun t => match t.from_ with
      | some f => { t with from_ := some (max (shift f) (max new (t.endsAt + tpWidth s p + US))), fresh := true }
      | none => if t.active then { t with from_ := some (new + 2 * MS) }
        else { t.take s p with from_ := some (new + 2 * MS), fresh := false }
  else s

/-! ### Clock outputs (R102 to R104) -/

/-- Change one clock output. -/
def State.modCko (s : State) (c : Nat) (f : CkoSt → CkoSt) : State :=
  { s with out := { s.out with cko := listMod s.out.cko c f } }

/-- One clock output. -/
def State.cko (s : State) (c : Nat) : CkoSt := s.out.cko.getD c ⟨none, false⟩

/-- Enable changes (R104): WAITING from 2 ms after the enable, STOPPED when OFF. -/
def State.ckoEnable (s : State) (c : Nat) : State :=
  let e := s.get (K.clockOut_Enable c)
  if e = 0 then (s.modCko c fun _ => ⟨none, false⟩).set (K.clockOut_ClockState c) 0
  else if s.get (K.clockOut_ClockState c) == 0 then
    let s := s.set (K.clockOut_ClockState c) 1
    if s.out.loaded && !s.out.asleep && outRuns s e then s.modCko c fun _ => ⟨some (s.time.now + 2 * MS), false⟩ else s
  else if outRuns s e then s
  else (s.modCko c fun _ => ⟨none, false⟩).set (K.clockOut_ClockState c) 1

/-- A clock output stops low after the present cycle and restarts at the next alignment instant from an instant on, with
REALIGNED; one that is WAITING goes on waiting, `wait` giving its earliest instant (R104, R109, R112). -/
def State.ckoRestart (s : State) (c from_ : Nat) (wait : Option Nat → Nat) : State :=
  if s.get (K.clockOut_ClockState c) == 0 then s
  else if s.out.loaded && !s.out.asleep && outRuns s (s.get (K.clockOut_Enable c)) then
    let was := s.get (K.clockOut_ClockState c) == 2
    (s.modCko c fun k => ⟨some (if was then from_ else wait k.from_), k.realign || was⟩).set (K.clockOut_ClockState c) 1
  else s

/-- A change of FreqNum or FreqDen now (R104). -/
def State.ckoChange (s : State) (c : Nat) : State :=
  s.ckoRestart c s.time.now fun f => max s.time.now (f.getD (s.time.now + 2 * MS))

/-- The step (R109): what waits since before it does so on the new Pond time. -/
def State.ckoStep (s : State) (old new c : Nat) : State :=
  s.ckoRestart c new fun f => match f with | some f => max new (shiftAt old new f) | none => new + 2 * MS

/-- The rising edge at an alignment instant: m times FreqDen seconds (R103, R104). `g` is the instant. -/
def State.ckoAlign (s : State) (c g : Nat) : State :=
  let k := s.cko c
  let due := match k.from_ with | some f => decide (f ≤ g) | none => false
  if decide (c < 2) && due && s.get (K.clockOut_ClockState c) == 1
      && decide (g % (s.get (K.clockOut_FreqDen c) * SEC) = 0) then
    let s := (s.set (K.clockOut_ClockState c) 2).modCko c fun k => { k with realign := false }
    if k.realign then s.flag (K.clockOut_ClockFlags c) 0 (K.clockOut_Realignments c) else s
  else s

/-- The phase detector measures PhaseResidual, in ps; above 20 ps counts RESIDUAL_HIGH (R102, R103). -/
def State.ckoResidual (s : State) (c : Nat) (r : Int) : State :=
  if decide (c < 2) && s.get (K.clockOut_ClockState c) == 2 then
    let r := clamp (-32767) 32767 r
    let s := s.setI (K.clockOut_PhaseResidual c) 2 r
    if 20 < r.natAbs then s.flag (K.clockOut_ClockFlags c) 1 (K.clockOut_ResidualHighCount c) else s
  else s

/-! ### Calendar -/

/-- Year, month, day of a count of days since 1980-01-06 (R5). -/
def civil (days : Nat) : Nat × Nat × Nat :=
  let z := days + 3657 + 719468
  let era := z / 146097
  let doe := z % 146097
  let yoe := (doe + doe / 36524 - doe / 1460 - doe / 146096) / 365
  let doy := doe - (365 * yoe + yoe / 4 - yoe / 100)
  let mp := (5 * doy + 2) / 153
  let d := doy - (153 * mp + 2) / 5 + 1
  let m := if mp < 10 then mp + 3 else mp - 9
  let y := yoe + era * 400 + (if m ≤ 2 then 1 else 0)
  (y, m, d)

/-- A leap year. -/
def isLeap (y : Nat) : Bool := (y % 4 == 0 && y % 100 != 0) || y % 400 == 0

/-- Days of the year before a month. -/
def daysBefore (y m : Nat) : Nat :=
  ([0, 31, 59, 90, 120, 151, 181, 212, 243, 273, 304, 334].getD (m - 1) 0) + (if decide (2 < m) && isLeap y then 1 else 0)

/-- UTC is known (R106, R288), and the outputs are not as in UNSET. -/
def utcKnown (s : State) : Bool := s.getB K.utc_UtcValid && !outUnset s

/-- TimingState as the time of day and IRIG-B give it: UNSET until the edge of the single step (R89, R109). -/
def outTiming (s : State) : Nat := if outUnset s then 0 else s.timing

/-- A civil instant: days since the epoch and the second of the day, which is 86,400 in an inserted leap second. -/
structure Civil where
  days : Nat
  sec : Nat
  deriving DecidableEq, Repr

/-- UTC of a whole second of Pond time (R286, R287): in the second before LeapAt of an announced insertion the second of
the day is 86,400. -/
def utcOf (s : State) (sec : Nat) : Civil :=
  let u := ((sec : Int) - s.getI K.utc_LeapOffset 2).toNat
  if s.get K.utc_LeapPending == 1 && decide ((sec + 1) * 2 ^ 48 = s.get K.utc_LeapAt) then
    ⟨u / 86400 - (if u % 86400 = 0 then 1 else 0), 86400⟩
  else ⟨u / 86400, u % 86400⟩

/-- Hours, minutes and seconds of a second of the day. -/
def hms (c : Civil) : Nat × Nat × Nat :=
  if c.sec = 86400 then (23, 59, 60) else (c.sec / 3600, c.sec / 60 % 60, c.sec % 60)

/-! ### Time of day (R105 to R107) -/

/-- `n` decimal digits as ASCII. -/
def digits : Nat → Nat → List Nat
  | 0, _ => []
  | n + 1, v => (48 + v / 10 ^ n % 10) :: digits n v

/-- An upper-case hexadecimal digit as ASCII. -/
def hexDigit (v : Nat) : Nat := if v < 10 then 48 + v else 55 + v

/-- The ZDA message of a second (R106): its fields empty when UTC is not known. -/
def zda (s : State) (sec : Nat) : List Nat :=
  let tt := toBytes 2 (s.get K.timeOfDay_TalkerId)
  let body := tt ++ [90, 68, 65, 44] ++
    (if utcKnown s then
      let c := utcOf s sec
      let t := hms c
      let d := civil c.days
      digits 2 t.1 ++ digits 2 t.2.1 ++ digits 2 t.2.2 ++ [46, 48, 48, 44] ++ digits 2 d.2.2 ++ [44] ++ digits 2 d.2.1
        ++ [44] ++ digits 4 d.1 ++ [44, 48, 48, 44, 48, 48]
    else [44, 44, 44, 44, 44])
  let x := body.foldl Nat.xor 0
  [36] ++ body ++ [42, hexDigit (x / 16), hexDigit (x % 16), 13, 10]

/-- The binary time message of a second (R107). DESIGN CHOICE (log entry 155): the last second of SHORT_INTERVAL is from S - 1 s to
S, both inside. -/
def binTime (s : State) (sec : Nat) : List Nat :=
  let pend := s.get K.utc_LeapPending
  let short := s.out.tp.any fun t => match t.shortAt with
    | some a => decide (a ≤ sec * SEC) && decide (sec * SEC ≤ a + SEC)
    | none => false
  let flags := b2n (s.getB K.utc_UtcValid) + 2 * b2n (pend != 0) + 4 * b2n (pend == 2)
    + 8 * b2n (unverified s (List.range 10)) + 16 * b2n (s.get K.reference_RefStatus != 0) + 32 * b2n short
  let m := [0xA7, 0x3C, 0x01, outTiming s, flags, s.get K.steering_ReferenceTimescale] ++ toBytes 12 (sec * 2 ^ 48)
    ++ toBytes 2 (s.get K.utc_LeapOffset) ++ toBytes 4 (s.get K.pondTime_ErrorEstimate)
    ++ toBytes 4 (s.get K.holdover_HoldoverSeconds)
  m ++ toBytes 2 (crc16 m)

/-- The message of second `sec` begins TodLatency after it; one that would not finish before the next second is not begun
(R105); a ZDA with empty fields counts UTC_UNKNOWN. -/
def State.todSend (s : State) (sec : Nat) : State :=
  let e := s.get K.timeOfDay_TodEnable
  if e = 0 || !s.fwUp || s.out.asleep || s.out.undriven || decide (sec * SEC < s.out.tod.resumeAt) then s
  else
    let m := if e = 1 then zda s sec else binTime s sec
    -- ten bit times a byte
    let lat := s.get K.timeOfDay_TodLatency * MS
    let dur := m.length * 10 * SEC / s.get K.timeOfDay_BaudRate
    if SEC ≤ lat + dur then s
    else
      let s := { s with out := { s.out with tod := { s.out.tod with last := m, busyUntil := some (sec * SEC + lat + dur) } } }
      let s := s.count K.timeOfDay_MessagesSent 4
      if e = 1 && !utcKnown s then s.flag K.timeOfDay_TodFlags 0 K.timeOfDay_UtcUnknownCount else s

/-! ### IRIG-B (R108) -/

/-- BCD digits as elements, least significant bit first, digit widths given. -/
def bcdBits (v : Nat) : List Nat → List Nat
  | [] => []
  | w :: ws => (List.range w).map (fun i => b2n (bit (v % 10) i)) ++ bcdBits (v / 10) ws

/-- `n` bits of a number as elements, least significant bit first. -/
def binBits (v n : Nat) : List Nat := (List.range n).map fun i => b2n (bit v i)

/-- ERROR_CODE of an error in ps: the least n with error at most 10^n ns, 8 above 10^7 ns, 15 unknown. -/
def irigError (e : Nat) : Nat :=
  if e = errUnknown then 15
  else ((List.range 8).find? fun n => decide (e ≤ 10 ^ (n + 3))).getD 8

/-- The leap second announced lies at the end of the present UTC month: it is pending and LeapAt is in this month. -/
def leapThisMonth (s : State) (sec : Nat) : Bool :=
  let pend := s.get K.utc_LeapPending
  let at_ := s.get K.utc_LeapAt / 2 ^ 48
  let d1 := civil ((sec - (s.get K.utc_LeapOffset % 32768)) / 86400)
  let d2 := civil ((at_ - 2 - (s.get K.utc_LeapOffset % 32768)) / 86400)
  pend != 0 && d1.1 == d2.1 && d1.2.1 == d2.2.1

/-- The 100 elements of the frame of a second: 0, 1, or 2 for a marker. -/
def irigFrame (s : State) (sec : Nat) : List Nat :=
  let fmt := s.get K.irigB_IrigFormat
  let utc := s.get K.irigB_IrigTimescale == 0
  let unknown := utc && !utcKnown s
  let c : Civil := if utc && !unknown then utcOf s sec else ⟨sec / 86400, sec % 86400⟩
  let t := hms c
  let d := civil c.days
  let doy := daysBefore d.1 d.2.1 + d.2.2
  let z (n : Nat) : List Nat := List.replicate n 0
  -- R108: which formats carry what: B000 to B003 no year, B004 to B007 year; control in 0, 1, 4, 5; SBS in 0, 3, 4, 7
  let year := decide (4 ≤ fmt)
  let cf := fmt % 4 == 0 || fmt % 4 == 1
  let sbs := fmt % 4 == 0 || fmt % 4 == 3
  let ctl60 := binBits (outTiming s) 3 ++ [b2n (leapThisMonth s sec), b2n (leapThisMonth s sec && s.get K.utc_LeapPending == 2)]
    ++ binBits (irigError (s.get K.pondTime_ErrorEstimate)) 4
  let ctl70 := [b2n unknown, b2n (unverified s [0, 1, 2, 3, 7])] ++ z 6
  let par := ((ctl60 ++ ctl70).sum) % 2
  let sb := binBits c.sec 17
  [2] ++ bcdBits t.2.2 [4] ++ z 1 ++ bcdBits (t.2.2 / 10) [3] ++ [2]                       -- 0 to 9
    ++ bcdBits t.2.1 [4] ++ z 1 ++ bcdBits (t.2.1 / 10) [3] ++ z 1 ++ [2]                 -- 10 to 19
    ++ bcdBits t.1 [4] ++ z 1 ++ bcdBits (t.1 / 10) [2] ++ z 2 ++ [2]                     -- 20 to 29
    ++ bcdBits doy [4] ++ z 1 ++ bcdBits (doy / 10) [4] ++ [2]                            -- 30 to 39
    ++ bcdBits (doy / 100) [2] ++ z 7 ++ [2]                                              -- 40 to 49
    ++ (if year then bcdBits (d.1 % 100) [4] ++ z 1 ++ bcdBits (d.1 / 10 % 10) [4] else z 9) ++ [2]  -- 50 to 59
    ++ (if cf then ctl60 else z 9) ++ [2]                                                 -- 60 to 69
    ++ (if cf then ctl70 ++ [par] else z 9) ++ [2]                                        -- 70 to 79
    ++ (if sbs then sb.take 9 else z 9) ++ [2]                                            -- 80 to 89
    ++ (if sbs then sb.drop 9 ++ z 1 else z 9) ++ [2]                                     -- 90 to 99

/-- A frame begins at a whole second on TP3 in IRIG_B mode (R108). -/
def State.irigSend (s : State) (sec : Nat) : State :=
  let t := s.tp 3
  let due := match t.from_ with | some f => decide (f ≤ sec * SEC) | none => false
  if t.irig && !t.active && due && s.out.loaded then
    let short := t.fresh && (match t.lastEdge with | some l => decide (sec * SEC - l < SEC) | none => false)
    let emit := ((sec * SEC : Nat) : Int) - tpAdvance s 3
    let s := { s with out := { s.out with tod := { s.out.tod with frame := irigFrame s sec } } }
    let s := s.modTp 3 fun t => { t with lastEdge := some (sec * SEC), endsAt := emit.toNat + SEC, fresh := false,
                                         shortAt := if short then some (sec * SEC) else t.shortAt }
    let s := (s.count K.irigB_FramesSent 4).count (K.timePulse_PulseCount 3) 6
    if short then s.flag (K.timePulse_PulseFlags 3) 0 (K.timePulse_ShortIntervals 3) else s
  else s

/-! ### Outputs across state changes (R109) -/

/-- The P objects have loaded: outputs leave their reset state. -/
def State.outputsLoad (s : State) : State :=
  let s := { s with out := { s.out with loaded := true, undriven := false } }
  let s := (List.range 10).foldl (fun s k => s.delayChoose k) s
  let s := (List.range 4).foldl (fun s p => s.tpEnable p) s
  (List.range 2).foldl (fun s c => s.ckoEnable c) s

/-- The always-on domain's copy of an output's polarity is written with the P object (R590). -/
def State.polarityCopy (s : State) (i v : Nat) : State :=
  { s with out := { s.out with polarity := if v = 0 then clrBit s.out.polarity i else setBit s.out.polarity i } }

/-- The outputs at the step edge (R109, R112). -/
def State.outputsStep (s : State) (old new : Nat) : State :=
  let s := (List.range 4).foldl (fun s p => s.tpStep old new p) s
  (List.range 2).foldl (fun s c => s.ckoStep old new c) s

/-- Entry to SLEEP or OASIS: no further pulse starts, clocks stop low, TOD_TX idles (R109). -/
def State.outputsSleep (s : State) : State :=
  let s := (List.range 4).foldl (fun s p => s.irigCut p s.time.now) s
  let s := { s with out := { s.out with asleep := true, tp := s.out.tp.map fun t => { t with from_ := none },
                                        cko := s.out.cko.map fun _ => ⟨none, true⟩ } }
  (List.range 2).foldl (fun s c => if s.get (K.clockOut_ClockState c) == 2 then s.set (K.clockOut_ClockState c) 1 else s) s

/-- Return to RUN (R109): pulses at the first grid instant at least 2 ms after the relock, clocks at the next alignment
instant with REALIGNED, messages at the next whole second; ErrorEstimate gains 1 ns. -/
def State.outputsWake (s : State) : State :=
  let s := { s with out := { s.out with asleep := false, tod := { s.out.tod with resumeAt := s.time.now } } }
  let s := (List.range 4).foldl (fun s p => s.tpEnable p) s
  let s := (List.range 2).foldl (fun s c =>
    if outRuns s (s.get (K.clockOut_Enable c)) then s.modCko c fun _ => ⟨some s.time.now, true⟩ else s) s
  let e := s.get K.pondTime_ErrorEstimate
  let s := s.set K.pondTime_ErrorEstimate (if e = errUnknown then e else errCap (e + 1000))
  { s with time := { s.time with growFrom := (if e = errUnknown then e else errCap ((s.time.growFrom.1 : Int) + 1000), s.time.growFrom.2) } }

/-- A warm reset cuts a message in progress; sending resumes at the first whole second after firmware restarts (R109). -/
def State.todCut (s : State) : State :=
  { s with out := { s.out with tod := { s.out.tod with busyUntil := none } } }

/-! ### Writes with an effect of their own -/

/-- What a written value of the time and output objects does beside being held (R87, R97 to R104). -/
def State.outputWritten (s : State) (k old : Nat) : State :=
  let idx := k / 256
  let sub := k % 256
  if 0x2030 ≤ idx ∧ idx < 0x203A then
    let i := idx - 0x2030
    let s := if sub = 6 ∧ s.get k ≠ old then s.set (K.delay_TagId i) 0 else s
    s.delayChoose i
  else if 0x2010 ≤ idx ∧ idx < 0x2014 then
    let p := idx - 0x2010
    if sub = 1 then s.tpEnable p
    else if sub = 2 ∨ sub = 3 ∨ sub = 5 then s.tpRegrid p
    else s
  else if 0x2020 ≤ idx ∧ idx < 0x2022 then
    let c := idx - 0x2020
    if sub = 1 then s.ckoEnable c
    else if (sub = 2 ∨ sub = 3) ∧ s.get k ≠ old then s.ckoChange c
    else s
  else s

end Sys2Proof.Machine
end

