-- ==== Sys2Proof/Machine/Solution.lean ====
section
/-!
DEFINITION. Measurements and the time solution (spec/08, R257 to R297): observations, the least-squares fit, fault
exclusion, trust, qualification, surveys. Orbit and ionosphere models of the systems' interface specifications are Config's.
-/

namespace Sys2Proof.Machine

/-- Change the solution's state. -/
def State.modSol (s : State) (f : SolSt → SolSt) : State := { s with sol := f s.sol }

/-- The sum of a list of rationals. -/
def ratSum (l : List Rat) : Rat := l.foldl (· + ·) 0

/-! ### Observations (R257 to R264) -/

/-- The speed of light: mm per DUR64 unit times 65536 × 10^6. -/
def lightMm : Nat := 299792458

/-- A length in mm as a duration in the DUR64 unit, rounded up. -/
def mmToDu (mm : Nat) : Nat := ceilDiv (mm * 65536 * 1000000) lightMm

/-- The observation carries AMBIGUOUS (R260): no message has given the time of week, and what the prediction leaves open reaches
half the longest period whose phase the slot holds; or nothing predicts. -/
def ambiguous (s : State) (n : Nat) : Bool :=
  (s.slot n).txRef.isNone && ((txReference s n).isNone || match timeUncertainty s with
    | none => true
    | some u => decide ((heldPeriod s n).1 ≤ 2 * (u + mmToDu (s.get (K.antennaPosition_PosUncertainty (s.slotAnt n))) + US)))

/-- The delay contained in τ for a signal, antenna and die temperature in 0.1 °C (R265). -/
def delayOf (s : State) (v a : Nat) (temp : Int) : Int :=
  let b := 5 * a + sigBand v
  let tempco := toInt 2 (s.get (K.subband_GroupDelayTempco b) % 65536)
  s.getI (K.delay_InForce (2 * a)) 8 + s.getI (K.delay_InForce (2 * a + 1)) 8
    + toInt 8 (s.get (K.subband_GroupDelay b) % 2 ^ 64)
    + divRound (tempco * (temp - 250) * 65536) (1000 * 1000)
    + toInt 8 (s.get (K.signalBias_FactoryBias v) % 2 ^ 64) + s.getI (K.signalBias_UserBias v) 8

/-- One observation at a tick edge `te` (R257 to R262), and N0 of the slot after it. The transit of a slot whose transmit time is not
known at all is a free value (log entry 4). -/
def observe (s : State) (te n : Nat) : ObsRec × Int :=
  let v := s.slotSig n
  let sat := s.slotSat n
  let a := s.slotAnt n
  let x := s.slot n
  let transit : Int := match txAt s n x.periods with
    | some t => (te : Int) - (t + codeTime s n)
    | none => (s.freeVal % 2 ^ 63 : Nat)
  let cp := s.getI (K.slot_CarrierPhase n) 8
  let n0 := x.n0.getD (divRound (transit * sigCarrier v sat * 65536 + cp * (SEC : Int)) ((SEC : Int) * 65536))
  let lock := s.get (K.slot_LockTime n)
  let cn0 := s.get (K.slot_Cn0 n)
  let eph := ephemerisOf s v sat
  let elev := ephSays s Config.ephElevation v sat a te
  let ef := match eph with | some e => s.get (K.storeEntry_EntryFlags e) | none => 0
  let below := (match elev with | some e => decide (e < s.getI K.measurement_ElevationMask 1) | none => false)
    || decide (cn0 < s.get K.measurement_Cn0Mask)
  let flags := b2n (s.lockBit n 8) + 2 * b2n (x.slipped || decide (lock < s.get K.measurement_MinLockTime))
    + 4 * b2n (!s.lockBit n 3) + 8 * b2n (ambiguous s n) + 16 * b2n eph.isNone + 32 * b2n (bit ef 0)
    + 64 * b2n (unverified s [2 * a, 2 * a + 1]) + 128 * b2n x.mmHigh + 256 * b2n below + 512 * b2n (bit ef 2)
  ({ slot := n, signal := v, ant := a, aided := s.slotState n == 4, satellite := sat, flags := flags, transit := transit,
     phase := n0 * 65536 - cp, doppler := s.getI (K.slot_Doppler n) 6, cn0 := cn0, lock := lock, elev := elev,
     fe := s.get (K.chain_FrontEndStatus (sigChain v a)), residual := none,
     delay := delayOf s v a (s.getI K.calibration_DieTemperature 2),
     eph := eph.map fun e => (s.get (K.storeEntry_SignalId e), s.get (K.storeEntry_Content e)) }, n0)

/-- Lake time is valid for the check: LakeValid and TRACEABLE (R380). -/
def lakeTrace (s : State) : Bool := s.getB K.lake_LakeValid && s.getB K.lake_Traceable

/-- The VALID IONO_UTC_OFFSETS entry of a system. -/
def ionoEntry (s : State) (system : Nat) : Option Nat :=
  entries.find? fun e => s.get (K.storeEntry_Kind e) == 3 && sigSystem (s.get (K.storeEntry_SignalId e)) == system
    && s.get (K.storeEntry_EntryState e) == 2

/-- GPS time less a system's time as broadcast (R278): from Galileo, BeiDou and NavIC for themselves; QZSS as GPS. -/
def broadcastOffset (s : State) (te system : Nat) : Option Int :=
  match system with
  | 0 | 4 => some 0
  | 1 | 2 | 5 => (ionoEntry s system).map fun e =>
      Config.systemOffset (s.get (K.storeEntry_SignalId e)) (s.get (K.storeEntry_Content e)) te
  | _ => none

/-- Systems of known offset to the reference timescale: the reference's, and unless OffsetMode is ESTIMATE those both whose own and the
reference's offset to GPS are broadcast (R278). -/
def knownOffsets (s : State) (te : Nat) : List (Nat × Int) :=
  let ref := s.get K.steering_ReferenceTimescale
  (List.range 6).filterMap fun v =>
    if v = ref then some (v, 0)
    else if s.get K.systemOffsets_OffsetMode = 0 then
      match broadcastOffset s te ref, broadcastOffset s te v with
      | some r, some g => some (v, r - g)
      | _, _ => none
    else none

/-- The settings of an epoch as they stand at its edge. -/
def epochCfg (s : State) (te : Nat) : EpochCfg :=
  { mode := s.get K.timeSolution_SolutionMode, dual := s.get K.timeSolution_MinDualCount,
    pfa := s.get K.timeSolution_FdePfa, excl := s.get K.timeSolution_MaxExclusions,
    fixed := [0, 1].map fun a => s.get (K.antennaPosition_PositionMode a) == 1,
    pos := [0, 1].map fun a => antennaAt s a,
    known := knownOffsets s te,
    klob := ((ionoEntry s 0).or (ionoEntry s 2)).map fun e => (s.get (K.storeEntry_SignalId e), s.get (K.storeEntry_Content e)),
    lake := if lakeTrace s then some (s.getI K.lake_LakeOffset 8, s.get K.lake_SigmaNet) else none,
    rates := s.sol.rates, steers := s.sol.steers }

/-- The state of the slots at an epoch edge: one observation of each slot in TRACK or AIDED with CODE_LOCK (R257). -/
def State.epochObserve (s : State) (te : Nat) : State :=
  let mine := (s.slotsWhere fun v => v == 3 || v == 4).filter fun n => s.lockBit n 0
  let r := mine.foldl (fun (a : State × EpochDue) n =>
    let s := a.1
    let x := s.slot n
    let p := observe s te n
    let s := if (txAt s n x.periods).isNone then s.takeFree else s
    (s.modSlot n fun x => { x with slipped := false, n0 := some p.2 },
     { a.2 with obs := a.2.obs ++ [p.1], was := a.2.was ++ [(n, x.slipped, x.n0)] })) (s, ⟨te, s.timing, epochCfg s te, [], []⟩)
  { r.1 with sol := { r.1.sol with due := some r.2 } }

/-- MEASUREMENT_EPOCH (R257, R258): the epoch that is due is formed, before the budget deadline. -/
def State.measure (s : State) : State :=
  match s.sol.due with
  | none => s
  | some d =>
    if s.cpu.guard || !s.fwUp then s
    else
      let whole := d.at_ % SEC == 0 && s.getB K.timeSolution_SolutionEnable
      let e : EpochSt := { at_ := d.at_, ms := s.time.ms, tstate := d.tstate, obs := d.obs, cfg := d.cfg, solution := whole }
      let s := s.count K.measurement_EpochsFormed 4
      { s with sol := { s.sol with due := none, epochs := s.sol.epochs ++ [e] } }

/-- A DUR64 image as three Vuvan words (R8). -/
def durWords (i : Int) : List Nat :=
  let v := ofInt 8 i
  [v / 2 ^ 48 % 2 ^ 24, v / 2 ^ 24 % 2 ^ 24, v % 2 ^ 24]

/-- The body of an observation entry (R264). -/
def obsBody (o : ObsRec) : List Nat :=
  let d := ofInt 6 o.doppler
  let el := match o.elev with | some e => ofInt 1 (clamp (-127) 127 e) | none => 128
  let res := match o.residual with | some r => ofInt 3 (clamp (-8388607) 8388607 r) | none => 0x800000
  [o.slot * 2 ^ 15 + o.signal * 2 ^ 11 + o.ant * 2 ^ 10 + b2n o.aided * 2 ^ 9, o.satellite * 2 ^ 16 + o.flags % 8192]
    ++ durWords o.transit ++ durWords o.phase
    ++ [d / 2 ^ 24, d % 2 ^ 24, o.cn0 * 2 ^ 12, min 16777215 o.lock, el * 2 ^ 16 + o.fe % 65536, res]

/-- The entries of an epoch are appended, all or none (R263). -/
def State.epochAppend (s : State) (e : EpochSt) : State :=
  if s.getB K.measurement_MeasStreamEnable then
    let n := e.obs.length
    if s.streamFits 0x5011 (7 + 15 * n) then
      let t := toTime96 e.at_
      let s := s.append 0x5011 0x04 ((List.range 4).map (fun k => t / 2 ^ (24 * (3 - k)) % 2 ^ 24) ++ [e.tstate * 2 ^ 21 + n, 0])
      e.obs.foldl (fun s o => s.append 0x5011 0x05 (obsBody o)) s
    else s.streamDrop 0x5011 (1 + n)
  else s

/-- EPOCH_STREAM_APPEND (R263): an epoch that is not a solution epoch, at t_e + 300 ms. -/
def State.epochStream (s : State) : State :=
  match s.sol.epochs.find? fun e => !e.solution && decide (e.ms + 300 ≤ s.time.ms) with
  | none => s
  | some e => ({ s with sol := { s.sol with epochs := s.sol.epochs.erase e } }).epochAppend e

/-- The epoch that is due is skipped (R258): EPOCH_SKIPPED. For the slots it is no epoch: their slips and N0 stand as before. -/
def State.epochSkip (s : State) : State :=
  match s.sol.due with
  | none => s
  | some d =>
    let s := d.was.foldl (fun s w => s.modSlot w.1 fun x =>
      { x with slipped := w.2.1 || x.slipped, n0 := if x.n0.isNone then none else w.2.2 }) s
    ({ s with sol := { s.sol with due := none } }).flag K.measurement_MeasFlags 0 K.measurement_EpochsSkipped

/-- An epoch falls due at a tick edge (R257); a new MeasInterval takes effect at a whole second. -/
def State.epochTick (s : State) : State :=
  let t := s.time.t0
  let whole := t % SEC == 0
  let s := if whole then { s with sol := { s.sol with interval := s.get K.measurement_MeasInterval } } else s
  if s.fwUp && s.time.running && (whole || t % (s.sol.interval * MS) == 0) then s.epochObserve t else s

/-! ### Delays and atmosphere (R265 to R270) -/

/-- T_trop of R270 in the DUR64 unit: height in mm, sin² of the elevation in 2^-32. -/
def troposphere (height : Int) (sin2 : Nat) : Nat :=
  let e := if height < 0 then P256 * P256 / expNeg ((-height).toNat * P256 / 8000000) else expNeg (height.toNat * P256 / 8000000)
  -- 7.67 ns × 1.001 × e / √(0.002001 + sin² el)
  let den := isqrt ((2001 * 2 ^ 32 / 1000000 + sin2) * 2 ^ 64)
  if den = 0 then 0 else 767 * 1001 * 65536 * (e / 2 ^ 208) / (100000 * den)

/-! ### Measurements (R268, R269, R274, R275, R277) -/

/-- One solution measurement: its observations' slots, the clock offset it gives (DUR64 unit), its variance in the
square of that unit times 2^32. -/
structure Meas where
  system : Nat
  ant : Nat
  slots : List Nat
  dual : Bool
  z : Int
  var : Nat
  losX : Int
  losY : Int
  losZ : Int
  deriving DecidableEq, Repr

/-- The front-end conditions that make an observation not eligible (R274): CAL, LO_UNLOCK, BLANK_HIGH, NOTCH_MOVING,
ANT_FAULT, REPHASE, CHAIN_OFF. -/
def feBad (fe : Nat) : Bool := [0, 1, 3, 4, 5, 7, 8].any fun i => bit fe i

/-- An observation is eligible (R274), its system's offset apart; `unv` admits DELAY_UNVERIFIED (R266). -/
def eligible (s : State) (unv : Bool) (o : ObsRec) : Bool :=
  !([0, 3, 4, 5, 8, 9].any fun i => bit o.flags i) && !feBad o.fe && s.getB (K.signalBias_UseInSolution o.signal)
    && (unv || !bit o.flags 6)

/-- The pairs of R268 in order: the signals of the higher and the lower band. -/
def bandPairs (system : Nat) : List (Nat × Nat) :=
  match system with
  | 0 => [(1, 2), (0, 2)]
  | 4 => [(12, 13), (11, 13)]
  | 1 => [(3, 4), (3, 5)]
  | 2 => [(7, 8), (6, 9)]
  | _ => []

/-- (1 + 1 / sin² el) (1 + 10^((35 - Cn0) / 10)) (0.5 ns)² in the DUR64 unit squared times 2^32. -/
def baseVar (sin2 cn0 : Nat) : Nat :=
  let el := 2 ^ 64 + (if sin2 = 0 then 2 ^ 128 else 2 ^ 96 / sin2)
  let c := 2 ^ 64 + pow10 (350 - (cn0 : Int))
  2 ^ 30 * (el * c / 2 ^ 96)

/-- The factor 4 of an observation's front end or multipath (R275). -/
def feFactor (l : List ObsRec) : Nat :=
  (if l.any fun o => bit o.fe 2 || bit o.fe 6 then 4 else 1) * (if l.any fun o => bit o.flags 7 then 4 else 1)

/-- The antenna's position a solution starts from, in mm: FIXED, as it stood at t_e; in SURVEY_IN where the fit converges (R272, R273). -/
def epochPos (e : EpochSt) (a : Nat) : Int × Int × Int :=
  if e.cfg.fixed.getD a false then e.cfg.pos.getD a (0, 0, 0)
  else Config.surveyAbout ((e.obs.filter fun o => o.ant == a).filterMap fun o =>
    o.eph.map fun p => (p.1, o.satellite, p.2, o.transit - o.delay))

/-- A satellite as an antenna sees it: system, satellite, antenna, the ephemeris' signal and content. -/
structure SatView where
  system : Nat
  satellite : Nat
  ant : Nat
  eph : Nat × Nat
  deriving DecidableEq, Repr

/-- The satellites that some antennas observed with an ephemeris. -/
def epochSats (e : EpochSt) (ants : List Nat) : List SatView :=
  ((e.obs.filter fun o => ants.contains o.ant).filterMap fun o =>
    o.eph.map fun p => (⟨sigSystem o.signal, o.satellite, o.ant, p⟩ : SatView)).eraseDups

/-- The measurements of one satellite and antenna under a mode: at most one (R268, R269, R277). `dualOk`, `singleOk` say
which kinds may be formed. -/
def measOf (e : EpochSt) (obs : List ObsRec) (g : SatView) (dualOk singleOk : Bool) : Option Meas :=
  let mine := obs.filter fun o => sigSystem o.signal == g.system && o.satellite == g.satellite && o.ant == g.ant
  let pos := epochPos e g.ant
  let tau (o : ObsRec) : Int := o.transit - o.delay
  let sin2 := Config.ephSin2 g.eph.1 g.satellite g.eph.2 pos e.at_
  let line := Config.ephLine g.eph.1 g.satellite g.eph.2 pos e.at_
  let path (v w : Nat) : Int := Config.ephDelay g.eph.1 g.satellite g.eph.2 pos e.at_ (v, w)
  let trop : Int := troposphere (Config.height pos) sin2
  let mk (l : List ObsRec) (dual : Bool) (z : Int) (var : Nat) : Meas :=
    ⟨g.system, g.ant, l.map (·.slot), dual, z, var, line.1, line.2.1, line.2.2⟩
  let pair := if dualOk then (bandPairs g.system).findSome? fun p =>
      match mine.find? fun o => o.signal == p.1, mine.find? fun o => o.signal == p.2 with
      | some a, some b => some (a, b)
      | _, _ => none
    else none
  match pair with
  | some (a, b) =>
    let f1 : Int := sigCarrier a.signal 0 / 1000
    let f2 : Int := sigCarrier b.signal 0 / 1000
    let d := f1 * f1 - f2 * f2
    let t := divRound (f1 * f1 * tau a - f2 * f2 * tau b) d
    let k := (f1 ^ 4 + f2 ^ 4).toNat
    some (mk [a, b] true (t - path a.signal b.signal - trop) (baseVar sin2 (min a.cn0 b.cn0) * k / (d * d).toNat * feFactor [a, b]))
  | none =>
    if singleOk then
      match mine with
      | [] => none
      | o :: l =>
        let best := l.foldl (fun x y => if x.cn0 < y.cn0 then y else x) o
        let f : Int := sigCarrier best.signal best.satellite
        let iono : Int := match e.cfg.klob with
          | some k => divRound ((Config.klobuchar k.1 k.2 g.eph.1 g.satellite g.eph.2 pos e.at_ : Int) * 1575420000 * 1575420000) (f * f)
          | none => 0
        let extra := (if e.cfg.klob.isNone then 655360 * 655360 * 2 ^ 32 else 0) + (if g.system = 3 then 196608 * 196608 * 2 ^ 32 else 0)
        some (mk [best] false (tau best - path best.signal best.signal - trop - iono) (baseVar sin2 best.cn0 * feFactor [best] + extra))
    else none

/-! ### The fit (R275, R276) -/

/-- One column of the unknowns. -/
inductive Unknown where
  | clock
  | system (v : Nat)
  | pos (ant axis : Nat)
  deriving DecidableEq, Repr

/-- The coefficient of an unknown in a measurement; positions in mm. -/
def coef (m : Meas) : Unknown → Rat
  | .clock => 1
  | .system v => if m.system = v then -1 else 0
  | .pos a k =>
    if m.ant = a then
      -((([m.losX, m.losY, m.losZ].getD k 0 : Int) : Rat) * 65536 * 1000000 / (lightMm * 4294967296))
    else 0

/-- A row with a multiple of another added. -/
def rowAdd (f : Rat) : List Rat → List Rat → List Rat
  | a :: l, b :: m => (a + f * b) :: rowAdd f l m
  | l, _ => l

/-- Gauss and Jordan on the rows `todo` (columns from `k`), rows done before; none when singular. -/
def gauss : Nat → Nat → List (List Rat) → List (List Rat) → Option (List (List Rat))
  | 0, _, done, _ => some done
  | f + 1, k, done, todo =>
    match todo.find? fun r => r.getD k 0 != 0 with
    | none => none
    | some p =>
      let q := p.map fun x => x / p.getD k 0
      let clear (r : List Rat) : List Rat := rowAdd (-(r.getD k 0)) r q
      gauss f (k + 1) (done.map clear ++ [q]) ((todo.erase p).map clear)

/-- The inverse of a square matrix. -/
def inverse (m : List (List Rat)) : Option (List (List Rat)) :=
  let n := m.length
  let unit (i : Nat) : List Rat := (List.range n).map fun j => if i = j then 1 else 0
  (gauss n 0 [] ((List.zip (List.range n) m).map fun p => p.2 ++ unit p.1)).map fun r => r.map fun row => row.drop n

/-- A scalar product. -/
def dot (a b : List Rat) : Rat := ((List.zip a b).map fun p => p.1 * p.2).foldl (· + ·) 0

/-- The weight of a measurement: 2^48 over its variance. -/
def weight (m : Meas) : Rat := ((2 ^ 80 / (max 1 m.var) : Nat) : Rat)

/-- A fit: the unknowns' values, the inverse of the normal matrix (times 2^-48 the covariance's inverse), residuals and
the diagonal of the hat matrix. -/
structure Fit where
  x : List Rat
  inv : List (List Rat)
  res : List Rat
  hat : List Rat
  deriving DecidableEq, Repr

/-- The weighted least-squares fit; none when the measurements do not determine the unknowns. -/
def fit (us : List Unknown) (ms : List Meas) : Option Fit :=
  let rows := ms.map fun m => us.map fun u => coef m u
  let ws := ms.map weight
  let n := us.length
  let normal := (List.range n).map fun i => (List.range n).map fun j =>
    ((List.zip rows ws).map fun p => p.2 * p.1.getD i 0 * p.1.getD j 0).foldl (· + ·) 0
  let rhs := (List.range n).map fun i =>
    ((List.zip (List.zip rows ws) ms).map fun p => p.1.2 * p.1.1.getD i 0 * (p.2.z : Rat)).foldl (· + ·) 0
  (inverse normal).map fun inv =>
    let x := inv.map fun r => dot r rhs
    { x := x, inv := inv, res := (List.zip rows ms).map fun p => (p.2.z : Rat) - dot p.1 x,
      hat := (List.zip rows ws).map fun p => p.2 * dot p.1 (inv.map fun r => dot r p.1) }

/-- Systems whose offset is estimated among some measurements: those with neither the reference's nor a broadcast offset
(R278), and of them those with more than one measurement. -/
def estimated (known : List Nat) (ms : List Meas) : List Nat :=
  ((List.range 7).filter fun v => !(known.contains v)).filter fun v => decide (2 ≤ (ms.filter fun m => m.system == v).length)

/-- Measurements that may enter: their system's offset is known or estimated. -/
def admitted (known : List Nat) (ms : List Meas) : List Meas :=
  let est := estimated known ms
  ms.filter fun m => known.contains m.system || est.contains m.system

/-- The outcome of fault detection: SolutionState (1 INSUFFICIENT, 2 VALID, 3 FDE_FAILED), the measurements used, those
excluded, the unknowns and the fit. -/
structure Solved where
  state : Nat
  used : List Meas
  out : List Meas
  us : List Unknown
  fit : Option Fit
  deriving DecidableEq, Repr

/-- Fault detection and exclusion (R276); `left` exclusions remain. -/
def fde (known : List Nat) (pos : List Nat) (pfa : Nat) : Nat → List Meas → List Meas → Solved
  | left, ms, out =>
    let ms := admitted known ms
    let us := [Unknown.clock] ++ (estimated known ms).map Unknown.system
      ++ (pos.filter fun a => ms.any fun m => m.ant == a).flatMap fun a => [Unknown.pos a 0, Unknown.pos a 1, Unknown.pos a 2]
    let n := ms.length
    let m := us.length
    if n < m + 1 then ⟨1, ms, out, us, none⟩
    else
      match fit us ms with
      | none => ⟨1, ms, out, us, none⟩
      | some f =>
        let q := ratSum ((List.zip f.res ms).map fun p => p.1 * p.1 * weight p.2) / (2 ^ 48 : Nat)
        if chiPasses (n - m) pfa q.num.toNat q.den then ⟨2, ms, out, us, some f⟩
        else if n < m + 2 then ⟨3, ms, out, us, some f⟩
        else
          match left with
          | 0 => ⟨3, ms, out, us, some f⟩
          | k + 1 =>
            let ws := (List.zip (List.zip f.res f.hat) ms).map fun p =>
              let d := 1 - p.1.2
              ((if d ≤ 0 then 0 else p.1.1 * p.1.1 * weight p.2 / d), p.2)
            match ws.foldl (fun (o : Option (Rat × Meas)) x => match o with
                | none => some x | some y => if y.1 < x.1 then some x else some y) none with
            | none => ⟨3, ms, out, us, some f⟩
            | some w => fde known pos pfa k (ms.erase w.2) (out ++ [w.2])

/-- A rational rounded to the nearest integer. -/
def ratRound (r : Rat) : Int := divRound r.num r.den

/-! ### One solution (R266, R274 to R278, R282 to R284) -/

/-- The measurements of an epoch from some antennas, and whether single-frequency ones have entered beside the pairs (R277). -/
def measures (s : State) (e : EpochSt) (ants : List Nat) (unv : Bool) : List Meas × Bool :=
  let obs := e.obs.filter fun o => ants.contains o.ant && eligible s unv o
  let shift (m : Meas) : Meas :=
    match e.cfg.known.find? fun p => p.1 == m.system with | some p => { m with z := m.z + p.2 } | none => m
  let g := epochSats e ants
  if e.cfg.mode = 2 then ((g.filterMap fun g => measOf e obs g false true).map shift, false)
  else
    let duals := (g.filterMap fun g => measOf e obs g true false).map shift
    if e.cfg.mode = 1 || decide (e.cfg.dual ≤ duals.length) then (duals, false)
    else ((g.filterMap fun g => measOf e obs g true true).map shift, true)

/-- Antennas that were in FIXED at t_e, and the others. -/
def EpochSt.fixedAnts (e : EpochSt) : List Nat := [0, 1].filter fun a => e.cfg.fixed.getD a false
def EpochSt.surveyAnts (e : EpochSt) : List Nat := [0, 1].filter fun a => !e.cfg.fixed.getD a false

/-- Fault detection over the measurements of an epoch from some antennas, the positions of `pos` free. -/
def EpochSt.fdeOf (e : EpochSt) (pos : List Nat) (ms : List Meas) : Solved :=
  fde (e.cfg.known.map (·.1)) pos e.cfg.pfa e.cfg.excl ms []

/-- The attempts of R266 and R275 in order: antennas, and whether UNVERIFIED items are admitted. -/
def attempts (e : EpochSt) : List (List Nat × Bool) :=
  let f := e.fixedAnts
  let clean (a : Nat) : Bool := !e.obs.any fun o => o.ant == a && bit o.flags 6
  let l := [(f.filter clean, false), ([0, 1].filter clean, false), (f, true), ([0, 1], true)]
  l.filter fun p => p.1 != []

/-- The first attempt that is VALID, or the last of them. -/
def solve (s : State) (e : EpochSt) : Solved × Bool × Bool :=
  let run (p : List Nat × Bool) : Solved × Bool × Bool :=
    let m := measures s e p.1 p.2
    let unv := e.obs.any fun o => bit o.flags 6 && m.1.any fun x => x.slots.contains o.slot
    (e.fdeOf (e.surveyAnts.filter fun a => p.1.contains a) m.1, m.2, p.2 && unv)
  (attempts e).foldl (fun o p => if o.1.state = 2 then o else run p) (⟨1, [], [], [], none⟩, false, false)

/-- SolutionSigma in ps of a fit. -/
def sigmaPs (f : Fit) : Nat :=
  let v := (f.inv.getD 0 []).getD 0 0 * (2 ^ 48 : Nat) * 1000000 / (65536 * 65536)
  min 0xFFFFFFFE (rsqrt (ratRound v).toNat)

/-- The time dilution of precision in hundredths (log entry 12): the clock's of the unweighted geometry of clock and
position; none when the geometry does not give it. -/
def tdop (ms : List Meas) : Option Nat :=
  let unit := ms.map fun m => { m with var := 1, ant := 0 }
  match fit [Unknown.clock, .pos 0 0, .pos 0 1, .pos 0 2] unit with
  | none => none
  | some f => some (min 65535 (rsqrt (ratRound ((f.inv.getD 0 []).getD 0 0 * ((2 ^ 80 : Nat) * 10000))).toNat))

/-- The delay uncertainty U_d in ps of some antennas (R284). -/
def delayUncertainty (s : State) (ants : List Nat) : Nat :=
  let u (k : Nat) : Nat := if s.get (K.delay_DelayState k) = 1 then s.get (K.delay_TagUncertainty k) else s.get K.timeSolution_ConfiguredDelayUncertainty
  (ants.map fun a => rsqrt (u (2 * a) ^ 2 + u (2 * a + 1) ^ 2)).foldl max 0

/-- The position uncertainty of some antennas in ps. -/
def posUncertaintyPs (s : State) (ants : List Nat) : Nat :=
  (ants.map fun a => s.get (K.antennaPosition_PosUncertainty a) * 1000000000 / lightMm).foldl max 0

/-- E of R284 in ps from the mean of the last offsets. -/
def gnssError (s : State) (ants : List Nat) (sigma : Nat) : Nat :=
  let n := min 60 s.time.updates
  let l := s.time.xs.take n
  let mean := if l.length = 0 then 0 else (duToPs (divRound l.sum l.length)).natAbs
  let part := if n = 0 then sigma * sigma else sigma * sigma / n
  errCap (rsqrt (mean ^ 2 + part + delayUncertainty s ants ^ 2 + posUncertaintyPs s ants ^ 2) : Nat)

/-- Qualification begins (R283). -/
def State.qualifyBegin (s : State) : State := { s with sol := { s.sol with qualify := true, series := [] } }

/-- What a sum of rates over Pond time comes to, in the DUR64 unit. -/
def rateSum (r : Int) : Int := divRound r (2 ^ 48 : Nat)

/-- The offsets of a series, each corrected by the rate applied since its epoch (`rates` the sum now), lie within 3 σ + 1 ns of their
mean. -/
def seriesAgrees (rates : Int) (sigma : Nat) (l : List (Int × Int)) : Bool :=
  let v := l.map fun p => p.1 + rateSum (rates - p.2)
  let mean := divRound v.sum v.length
  v.all fun x => decide ((x - mean).natAbs * 1000 ≤ (3 * sigma + 1000) * 65536)

/-- A VALID, TRUSTED solution during qualification: the series goes on, or begins again; whether qualification ends. -/
def State.qualifyStep (s : State) (b rates : Int) (sigma : Nat) : State × Bool :=
  if !s.sol.qualify then (s, true)
  else
    let l := (b, rates) :: s.sol.series
    let l := if seriesAgrees rates sigma l then l else [(b, rates)]
    let need := s.get K.timeSolution_ReturnQualify
    if need ≤ l.length then ({ s with sol := { s.sol with qualify := false, series := [] } }, true)
    else ({ s with sol := { s.sol with series := l } }, false)

/-! ### Trust (R279 to R281) -/

/-- A difference in the DUR64 unit exceeds a limit in ps plus 3 √(v) with v in ps². -/
def disagrees (d : Int) (lim v : Nat) : Bool :=
  let e : Int := (d.natAbs * 1000 : Nat) - (lim * 65536 : Nat)
  decide (0 < e) && decide (9 * (v : Int) * 65536 * 65536 < e * e)

/-- A check fails (R280). -/
def State.trustFail (s : State) (k : Nat) (d : Option Int) : State :=
  let s := s.set K.trust_TrustState 1
  let s := match d with | some d => s.setI K.trust_LastDisagreement 8 d | none => s
  let s := s.flag K.trust_TrustFlags k (K.trust_LakeDisagreements + k)
  let s := s.log 0x0108 St.ok ([k, 0, 0, 0] ++ toBytes 8 (s.get K.trust_LastDisagreement))
  { s with sol := { s.sol with passing := 0 } }

/-- A check that applies is judged at an epoch with a VALID solution: run `i`, check `k`. -/
def State.trustCheck (s : State) (i k dwell : Nat) (cond : Bool) (d : Option Int) : State :=
  let r := s.sol.checks.getD i ⟨0, false⟩
  let put (s : State) (r : CheckRun) : State := { s with sol := { s.sol with checks := vecMod s.sol.checks i fun _ => r } }
  if !cond then put s ⟨0, false⟩
  else if r.counted then
    (match d with | some d => s.setI K.trust_LastDisagreement 8 d | none => s)
  else if dwell ≤ r.run + 1 then (put s ⟨r.run + 1, true⟩).trustFail k d
  else put s ⟨r.run + 1, false⟩

/-- x_p of R279, the offset predicted by the steering at t_e: that of the last update less what the steering has removed since. -/
def predictedOffset (s : State) (e : EpochSt) : Int := s.sol.last.1 - rateSum (e.cfg.steers - s.sol.last.2)

/-- The checks of R279 on a VALID solution, and TrustRestore: `far` are the antennas of which POSITION_DISAGREE is judged at this epoch,
with its condition. A check whose run of failures goes on has not passed (R280). -/
def State.trustJudge (s : State) (e : EpochSt) (x : Int) (sigma : Nat) (far : List (Nat × Bool)) : State :=
  let lim := s.get K.trust_CrossCheckLimit
  let dwell := s.get K.trust_CrossCheckDwell
  let err := s.get K.pondTime_ErrorEstimate
  let hold := e.cfg.lake.isNone && decide (2 ≤ s.timing ∧ s.timing ≤ 4) && err != errUnknown
  let dh := x - predictedOffset s e
  let ch := disagrees dh lim (sigma ^ 2 + err ^ 2)
  let was := s.get K.trust_TrustState
  let s := match e.cfg.lake with
    | some l => s.trustCheck 0 0 dwell (disagrees (x - l.1) lim (sigma ^ 2 + l.2 ^ 2)) (some (x - l.1))
    | none => s
  let s := if hold then s.trustCheck 1 1 dwell ch (some dh) else s
  let s := far.foldl (fun s f => s.trustCheck (2 + f.1) 2 3 f.2 none) s
  let on := (if e.cfg.lake.isSome then [0] else []) ++ (if hold then [1] else []) ++ e.fixedAnts.map (2 + ·)
  let bits := (on.map fun i => 2 ^ i).sum
  let failing := on.any fun i => decide (0 < (s.sol.checks.getD i ⟨0, false⟩).run)
  if was = 1 then
    let n : Nat := if failing || bits != s.sol.applied then 0 else s.sol.passing + 1
    let s := { s with sol := { s.sol with passing := n, applied := bits } }
    if decide (s.get K.trust_TrustRestore ≤ n) then (s.set K.trust_TrustState 0).qualifyBegin else s
  else { s with sol := { s.sol with applied := bits, passing := 0 } }

/-- POSITION_DISAGREE of an antenna in FIXED (R279): a solution with its position free lies too far from the record. -/
def posFar (s : State) (e : EpochSt) (a : Nat) : Option Bool :=
  let r := e.fdeOf [a] (measures s e e.fixedAnts false).1
  if r.state ≠ 2 then none
  else match r.fit with
    | none => none
    | some f =>
      let i := r.us.findIdx fun x => x == Unknown.pos a 0
      if r.us.length ≤ i then none
      else
        let d := [0, 1, 2].map fun k => f.x.getD (i + k) 0
        let d2 := dot d d
        let v := ratSum ([0, 1, 2].map fun k => (f.inv.getD (i + k) []).getD (i + k) 0) * (2 ^ 48 : Nat)
        some (decide (2500000000 < d2) && decide (25 * v < d2))

/-! ### Surveys (R272, R273) -/

/-- An estimate of a survey's antenna: its position in mm and its variance in mm². -/
def State.surveyAdd (s : State) (a : Nat) (x y z : Int) (var : Rat) : State :=
  match s.sol.survey.getD a none with
  | none => s
  | some v =>
    let w := (ratRound ((2 ^ 64 : Nat) / var)).toNat
    let v := { v with wx := v.wx + w * x, wy := v.wy + w * y, wz := v.wz + w * z, w := v.w + w }
    let s := s.count (K.antennaPosition_SurveyElapsed a) 4
    let sg := if v.w = 0 then 0xFFFFFFFF else min 0xFFFFFFFF (rsqrt (60 * 2 ^ 64 / v.w))
    let s := s.set (K.antennaPosition_SurveySigma a) sg
    if decide (s.get (K.antennaPosition_SurveyMinTime a) ≤ s.get (K.antennaPosition_SurveyElapsed a))
        && decide (sg ≤ s.get (K.antennaPosition_SurveyLimit a)) && v.w != 0 then
      let s := ((s.setI (K.antennaPosition_PosX a) 6 (divRound v.wx v.w)).setI (K.antennaPosition_PosY a) 6 (divRound v.wy v.w)).setI
        (K.antennaPosition_PosZ a) 6 (divRound v.wz v.w)
      let s := (s.set (K.antennaPosition_PosUncertainty a) (max 1 sg)).set (K.antennaPosition_PositionMode a) 1
      let s := (s.set (K.antennaPosition_SurveyState a) 2).raise (K.antennaPosition_PositionFlags a) 0
      let s := s.log 0x0107 St.ok ([a, 0, 0, 0] ++ toBytes 4 sg)
      { s with sol := { s.sol with survey := vecMod s.sol.survey a fun _ => none } }
    else { s with sol := { s.sol with survey := vecMod s.sol.survey a fun _ => some v } }

/-- SURVEY_RESTART (R272): SurveyMaxTime has passed. -/
def State.surveyRestart (s : State) (a : Nat) : State :=
  match s.sol.survey.getD a none with
  | none => s
  | some v =>
    if decide (a < 2) && decide (s.get (K.antennaPosition_SurveyMaxTime a) * 1000 ≤ s.since v.since) then
      (s.surveyBegin a).flag (K.antennaPosition_PositionFlags a) 1 (K.antennaPosition_SurveyRestarts a)
    else s

/-- A survey runs whose antenna is in SURVEY_IN and none is in progress: at start-up, after a warm reset. -/
def State.surveysTick (s : State) : State :=
  if s.fwUp then [0, 1].foldl (fun s a =>
    if s.get (K.antennaPosition_PositionMode a) == 0 && (s.sol.survey.getD a none).isNone then s.surveyBegin a else s) s
  else s

/-- The surveys take their estimates from a VALID solution's measurements with positions free. -/
def State.surveys (s : State) (e : EpochSt) : State :=
  let l := e.surveyAnts.filter fun a => s.get (K.antennaPosition_PositionMode a) == 0 && (s.sol.survey.getD a none).isSome
  if l = [] then s
  else
    let r := e.fdeOf l (measures s e [0, 1] false).1
    if r.state ≠ 2 then s
    else match r.fit with
      | none => s
      | some f => l.foldl (fun s a =>
          let i := r.us.findIdx fun x => x == Unknown.pos a 0
          if r.us.length ≤ i then s
          else
            let p := epochPos e a
            let v := ratSum ([0, 1, 2].map fun k => (f.inv.getD (i + k) []).getD (i + k) 0) * (2 ^ 48 : Nat)
            if v ≤ 0 then s
            else s.surveyAdd a (p.1 + ratRound (f.x.getD i 0)) (p.2.1 + ratRound (f.x.getD (i + 1) 0)) (p.2.2 + ratRound (f.x.getD (i + 2) 0)) v) s

/-! ### SOLUTION (R275) -/

/-- The observations of the epoch carry what the solution made of them. -/
def marked (e : EpochSt) (r : Solved) : List ObsRec :=
  let res := match r.fit with | some f => List.zip r.used f.res | none => []
  e.obs.map fun o =>
    match res.find? fun p => p.1.slots.contains o.slot with
    | some p => { o with flags := o.flags + (if r.state = 2 then 2048 + 4096 * b2n p.1.dual else 0),
                         residual := if r.state = 2 then some (ratRound (p.2 / 4096)) else none }
    | none => if r.out.any fun m => m.slots.contains o.slot then { o with flags := o.flags + 1024 } else o

/-- System offsets as the solution leaves them (R278). -/
def State.offsetsShow (s : State) (e : EpochSt) (r : Solved) : State :=
  let src := (List.range 6).foldl (fun (a : State × Nat) v =>
    let key := K.systemOffsets_GpsOffset + v
    match e.cfg.known.find? fun p => p.1 == v with
    | some p => (a.1.setI key 8 p.2, a.2 + 4 ^ v)
    | none =>
      let i := r.us.findIdx fun x => x == Unknown.system v
      match r.fit with
      | some f => if i < r.us.length then (a.1.setI key 8 (ratRound (f.x.getD i 0)), a.2 + 2 * 4 ^ v) else (a.1.set key 0, a.2)
      | none => (a.1.set key 0, a.2)) (s, 0)
  src.1.set K.systemOffsets_OffsetSources src.2

/-- The antennas whose measurements a solution used. -/
def antsOf (ms : List Meas) : List Nat := [0, 1].filter fun a => ms.any fun m => m.ant == a

/-- Tdop of a solution; a free value where its geometry has none (log entry 4). -/
def State.tdopShow (s : State) (r : Solved) : State :=
  match tdop r.used with
  | some v => s.set K.timeSolution_Tdop v
  | none => (s.set K.timeSolution_Tdop (s.freeVal % 65536)).takeFree

/-- The last three clock offsets lie within three times the limit of their mean (R282). -/
def threeAgree (l : List (Option Int)) (lim : Nat) : Bool :=
  match l with
  | [some x, some y, some z] =>
    let m := divRound (x + y + z) 3
    [x, y, z].all fun v => decide ((v - m).natAbs * 1000 ≤ 3 * lim * 65536)
  | _ => false

/-- A solution used more than one satellite: of a single one no source update is derived (R285). -/
def manySats (e : EpochSt) (r : Solved) : Bool :=
  let l := (e.obs.filter fun o => r.used.any fun m => m.slots.contains o.slot).map fun o => (sigSystem o.signal, o.satellite)
  match l with
  | [] => false
  | x :: l => l.any fun y => y != x

/-- ClockRate of a solution: Pond rate less reference rate, from the Doppler observables of what it used (R278). -/
def solutionRate (e : EpochSt) (r : Solved) : Int :=
  Config.clockRate ((e.obs.filter fun o => r.used.any fun m => m.slots.contains o.slot).filterMap fun o =>
    o.eph.map fun p => (p.1, o.satellite, p.2, epochPos e o.ant, o.doppler)) e.at_

/-- A VALID solution: trust, qualification, fitness, the update it is (R279 to R284, R381). -/
def State.solutionValid (s : State) (e : EpochSt) (r : Solved) (f : Fit) (unv : Bool) : State :=
  let b := ratRound (f.x.getD 0 0)
  let sigma := sigmaPs f
  let rate := clamp (-(2 ^ 47)) (2 ^ 47 - 1) (solutionRate e r)
  let s := ((s.setI K.timeSolution_ClockOffset 8 b).setI K.timeSolution_ClockRate 6 rate).set K.timeSolution_SolutionSigma sigma
  let s := s.tdopShow r
  let due := e.fixedAnts.filter fun a => decide (60000 ≤ e.ms - s.sol.posAt.getD a 0)
  let far := due.filterMap fun a => (posFar s e a).map fun c => (a, c)
  let s := due.foldl (fun s a => s.modSol fun x => { x with posAt := vecMod x.posAt a fun _ => e.ms }) s
  let s := s.trustJudge e (-b) sigma far
  let s := s.modSol fun x => { x with valid := (some b :: x.valid).take 3 }
  let trusted := s.get K.trust_TrustState == 0
  let lim := s.get K.timeSolution_StepSigmaLimit
  let fitFor := trusted && decide (sigma ≤ lim) && !unv && threeAgree s.sol.valid lim
  let s := s.setB K.timeSolution_FitForStep fitFor
  let q := if s.timing == 0 then (s, true) else if trusted then s.qualifyStep b e.cfg.rates sigma else (s, !s.sol.qualify)
  let s := q.1
  let s := s.set K.timeSolution_SolutionState (if q.2 then 2 else 4)
  let ants := antsOf r.used
  let s := if trusted then s.modSol fun x => { x with good := some (s.elapsed, -b, rate, gnssError s ants sigma) } else s
  let s := s.surveys e
  let s := if trusted && q.2 && decide (1 ≤ s.timing ∧ s.timing ≤ 3) then
      s.modSol fun x => { x with report := some (-b, sigma, e.at_) } else s
  if s.timing == 0 then
    if fitFor then s.firstEstimate .gnss (-b) (some rate) (gnssError s ants sigma) else s
  else if trusted && q.2 && manySats e r && !s.getB K.lake_LakeValid && s.time.due.isNone then
    let s := (s.sourceUpdate false (-b)).modSol fun x => { x with last := (-b, e.cfg.steers) }
    if s.timing == 1 || s.timing == 2 then s.set K.pondTime_ErrorEstimate (gnssError s ants sigma) else s
  else s

/-- SOLUTION: the solution of the oldest solution epoch completes, before t_e + 300 ms. -/
def State.solution (s : State) : State :=
  match s.sol.epochs.find? fun e => e.solution with
  | none => s
  | some e =>
    if e.ms + 300 < s.time.ms || !s.fwUp then s
    else
      let a := solve s e
      let r := a.1
      let s := { s with sol := { s.sol with epochs := s.sol.epochs.erase e } }
      let s := s.set K.timeSolution_SolutionEpoch (toTime96 e.at_)
      let s := (s.set K.timeSolution_UsedCount (min 255 r.used.length)).set K.timeSolution_DualCount (min 255 (r.used.filter fun m => m.dual).length)
      let s := s.set K.timeSolution_ExcludedCount r.out.length
      let s := r.out.foldl (fun s _ => s.flag K.timeSolution_SolutionFlags 0 K.timeSolution_FdeExclusions) s
      let s := if a.2.1 && !s.sol.fallback then s.flag K.timeSolution_SolutionFlags 2 K.timeSolution_SingleFallbacks else s
      let s := { s with sol := { s.sol with fallback := a.2.1 } }
      let s := if a.2.2 then s.raise K.timeSolution_SolutionFlags 4 else s
      let s := if e.obs.any fun o => bit o.flags 9 then s.flag K.trust_TrustFlags 3 K.trust_ConflictExclusions else s
      let s := s.offsetsShow e r
      let s := match r.fit with
        | some f =>
          let ws := ratSum (r.used.map weight)
          let q := ratSum ((List.zip f.res r.used).map fun (p : Rat × Meas) => p.1 * p.1 * weight p.2)
          s.set K.timeSolution_ResidualRms (min 0xFFFFFFFF (rsqrt (ratRound (if ws = 0 then 0 else q / ws * 1000000 / (65536 * 65536))).toNat))
        | none => s
      let s :=
        if r.state = 2 then
          match r.fit with
          | some f => s.solutionValid e r f a.2.2
          | none => s
        else
          let s := (s.set K.timeSolution_SolutionState r.state).setB K.timeSolution_FitForStep false
          let s := { s with sol := { s.sol with valid := (none :: s.sol.valid).take 3, series := [] } }
          if r.state = 3 then s.flag K.timeSolution_SolutionFlags 1 K.timeSolution_FdeFailures else s
      s.epochAppend { e with obs := marked e r }

/-- SOLUTION_SKIPPED (R258): a solution not complete by t_e + 300 ms is abandoned; its epoch gives no observations. -/
def State.solutionSkip (s : State) : State :=
  match s.sol.epochs.find? fun e => e.solution && decide (e.ms + 300 ≤ s.time.ms) with
  | none => s
  | some e =>
    let s := { s with sol := { s.sol with epochs := s.sol.epochs.erase e, valid := (none :: s.sol.valid).take 3, series := [] } }
    (s.setB K.timeSolution_FitForStep false).flag K.timeSolution_SolutionFlags 3 K.timeSolution_SolutionsSkipped

/-! ### Steps and resets (R290, R296) -/

/-- A step or re-seed (R290): epochs whose solution has not completed are abandoned without counting, qualification
begins, N0 is chosen again. -/
def State.solStep (s : State) : State :=
  let s := { s with sol := { s.sol with epochs := s.sol.epochs.filter fun e => !e.solution } }
  let s := (s.slotsWhere fun v => decide (1 ≤ v ∧ v ≤ 5)).foldl (fun s n => s.modSlot n fun x => { x with n0 := none }) s
  s.qualifyBegin

/-- A warm reset (R296): history, N0 and surveys are abandoned; SURVEY_RESTART of each survey in progress. -/
def State.solReset (s : State) : State :=
  let s := [0, 1].foldl (fun s a => if (s.sol.survey.getD a none).isSome then
    s.flag (K.antennaPosition_PositionFlags a) 1 (K.antennaPosition_SurveyRestarts a) else s) s
  ({ s with sol := { SolSt.reset with qualify := true, rates := s.sol.rates, steers := s.sol.steers, last := s.sol.last } }).setStream 0x5011 []

/-! ### Commands -/

/-- SOLUTION_SKIPPED (R258). -/
def execSolutionSkipped (s : State) : Host.Outcome State Fault Refusal := .next (onlyIf s.inRun s s.solutionSkip)
/-- SURVEY_RESTART (R272). -/
def execSurveyRestart (a : Nat) (s : State) : Host.Outcome State Fault Refusal := .next (onlyIf s.inRun s (s.surveyRestart a))
/-- EPOCH_STREAM_APPEND (R263). -/
def execEpochStreamAppend (s : State) : Host.Outcome State Fault Refusal := .next (onlyIf s.inRun s s.epochStream)

end Sys2Proof.Machine
end

