-- ==== Sys2Proof/Machine/LakeMember.lean ====
section
/-!
DEFINITION. Lake time at a member: reports, estimates, common view, and the aided-tracking data service
(spec/11, R367 to R373, R379 to R382, R386, R390 to R399).
-/

namespace Sys2Proof.Machine

/-- Change the Lake's state. -/
def State.modLake (s : State) (f : LakeSt → LakeSt) : State := { s with lake := f s.lake }

/-! ### Frames -/

/-- Take a Lake frame of an OP (R368). -/
def State.lakeTake (s : State) (op : Nat) : Option NetFrame × State := s.netTake 12 fun b => byteAt b 0 == op

/-- Firmware sends Lake frames: it runs, and the device has joined. -/
def lakeActive (s : State) : Bool := s.fwUp && decide (2 ≤ memberState s)

/-! ### The link entries of a report (R370) -/

/-- The address of the device at the other end of a port: as its LSA gives it, or else as its HELLO did. -/
def peerAddrOf (s : State) (n : Nat) : Nat :=
  match (s.port n).peer with
  | some u => match s.net.lsas.find? fun l => l.uid == u with
    | some l => l.addr
    | none => s.get (K.port_PeerAddress n)
  | none => s.get (K.port_PeerAddress n)

/-- The straight line of θ against T1 - edge: its value at the edge, and the mean square of the residuals, exact. -/
def lineFit (l : List (Int × Int)) : Rat × Rat :=
  let n : Rat := (l.length : Nat)
  let st := ratSum (l.map fun p => (p.1 : Rat))
  let sy := ratSum (l.map fun p => (p.2 : Rat))
  let stt := ratSum (l.map fun p => (p.1 : Rat) * p.1)
  let sty := ratSum (l.map fun p => (p.1 : Rat) * p.2)
  let det := n * stt - st * st
  let b := if det = 0 then 0 else (n * sty - st * sy) / det
  let a := if n = 0 then 0 else (sy - b * st) / n
  let q := ratSum (l.map fun p => let r := (p.2 : Rat) - a - b * p.1; r * r)
  (a, if n = 0 then 0 else q / n)

/-- A port's entry: DEGRADED, PEER_AT as a TIME96 image, SIGMA in ps; none when it gives none. -/
def linkEntry (s : State) (n edge : Nat) : Option (Bool × Nat × Nat) :=
  let recs := (s.port n).recs.filter fun r => decide (r.tick ≤ s.time.tick) && decide (s.time.tick ≤ r.tick + 100)
  let use := recs.filter fun r => !r.missing && !r.jump && !r.peerStep
  let trusted := !bit s.prot.required 3 || match (s.port n).peer with
    | some u => s.net.lsas.any fun l => l.uid == u && l.auth
    | none => false
  if !fabricUp s n ∨ (recs.any (·.peerStep)) ∨ use.length < 10 ∨ !trusted then none
  else
    let f := lineFit (use.map fun r => ((ofTime96 r.t1 : Int) - edge, r.theta))
    let u := if s.get (K.linkTiming_AsymmetrySource n) = 1 then s.get (K.linkTiming_AsymUncertainty n)
      else s.get K.timeSolution_ConfiguredDelayUncertainty
    let v : Rat := f.2 * 1000000 / (65536 * 65536) / ((use.length : Nat) : Rat) + ((u * u : Nat) : Rat) / 4 + 25
    let deg := use.any (·.degraded)
    let sigma := rsqrt (ratRound v).toNat * (if deg then 4 else 1)
    some (deg, toTime96 ((edge : Int) + ratRound f.1).toNat, min 0xFFFFFFFF sigma)

/-! ### REPORT (R369, R371) -/

/-- The serving antenna whose position a report gives: one in FIXED. -/
def reportAntenna (s : State) : Option Nat :=
  [0, 1].find? fun a => serving s a && s.get (K.antennaPosition_PositionMode a) == 1

/-- STEER: Pond time gained from RateApplied over the interval, in 2^-48 s. -/
def reportSteer (s : State) : Int := divRound s.lake.steer 1000

/-- The body of this device's REPORT at an epoch edge. -/
def reportBody (s : State) (edge : Nat) : List Nat :=
  let links := (List.range 32).filterMap fun n => (linkEntry s n edge).map fun e => (n, e)
  let gnss := s.sol.report.filter fun r => decide (r.2.2 < edge) && decide (edge ≤ r.2.2 + SEC)
  let g : List Nat := match gnss with
    | some r => toBytes 8 (ofInt 8 r.1) ++ toBytes 4 r.2.1 ++ [(edge - r.2.2) / (100 * MS)]
    | none => List.replicate 13 0
  let pos := match reportAntenna s with
    | some a => toBytes 6 (s.get (K.antennaPosition_PosX a)) ++ toBytes 6 (s.get (K.antennaPosition_PosY a))
        ++ toBytes 6 (s.get (K.antennaPosition_PosZ a))
    | none => List.replicate 18 0
  let cv := (List.range 4).filter fun p => s.get (K.cvPartner_CvRole p) == 1 && (s.lake.cv.toList.getD p CvSt.reset).live
  let flags := b2n s.lake.stepped + 2 * b2n gnss.isSome + 4 * b2n (reportAntenna s).isSome
    + 8 * (s.get K.steering_ReferenceTimescale % 4)
  [1, flags, s.timing, links.length] ++ toBytes 8 s.time.tick ++ toBytes 4 (s.get K.lake_Generation)
    ++ toBytes 6 (s.get K.steering_RateApplied) ++ toBytes 6 (ofInt 6 (reportSteer s)) ++ g ++ pos
    ++ toBytes 4 (s.get K.holdover_ModelY) ++ toBytes 4 (s.get K.holdover_ModelD) ++ [cv.length]
    ++ links.flatMap (fun e => [e.1, b2n e.2.1] ++ toBytes 2 (peerAddrOf s e.1) ++ toBytes 12 e.2.2.1 ++ toBytes 4 e.2.2.2)
    ++ cv.flatMap (fun p => toBytes 2 (s.get (K.cvPartner_Partner p)) ++ toBytes 2 (s.get (K.cvPartner_Series p))
        ++ [s.get (K.cvPartner_CommonSatellites p), 0] ++ toBytes 8 (s.get (K.cvPartner_CvValue p))
        ++ toBytes 4 (s.get (K.cvPartner_CvSigma p)) ++ [0, 0])

/-- The link entries of a body from an offset. -/
def reportLinks (b : List Nat) : Nat → Nat → List (Nat × Nat × Nat × Nat)
  | 0, _ => []
  | n + 1, a => (byteAt b a, field b (a + 2) 2, field b (a + 4) 12, field b (a + 16) 4) :: reportLinks b n (a + 20)

/-- The common-view entries of a body from an offset. -/
def reportCv (b : List Nat) : Nat → Nat → List (Nat × Nat × Int × Nat)
  | 0, _ => []
  | n + 1, a => (field b a 2, field b (a + 2) 2, toInt 8 (field b (a + 6) 8), field b (a + 14) 4) :: reportCv b n (a + 20)

/-- The report a body spells; none where its length disagrees or a reserved bit is set. -/
def reportOf (source : Nat) (b : List Nat) : Option Report :=
  let np := byteAt b 3
  let nc := byteAt b 67
  let fl := byteAt b 1
  let links (i : Nat) : Nat := 68 + 20 * i
  let reserved := (List.range np).any (fun i => decide (2 ≤ byteAt b (links i + 1)))
    || (List.range nc).any fun i => byteAt b (links (np + i) + 5) != 0 || field b (links (np + i) + 18) 2 != 0
  if b.length < 68 ∨ b.length ≠ 68 + 20 * np + 20 * nc ∨ 32 < np ∨ 4 < nc ∨ 32 ≤ fl ∨ reserved then none
  else some { source := source, stepped := bit fl 0,
              gnss := if bit fl 1 then some (toInt 8 (field b 28 8), field b 36 4, byteAt b 40) else none,
              pos := if bit fl 2 then some (toInt 6 (field b 41 6), toInt 6 (field b 47 6), toInt 6 (field b 53 6)) else none,
              scale := bits fl 4 3, tstate := byteAt b 2, tick := field b 4 8, gen := field b 12 4,
              rate := toInt 6 (field b 16 6), steer := toInt 6 (field b 22 6), modelY := field b 59 4, modelD := field b 63 4,
              links := reportLinks b np 68, cv := reportCv b nc (68 + 20 * np) }

/-! ### Sightings, ephemerides, symbols (R391, R392) -/

/-- The slots a SIGHTINGS frame lists: in TRACK with Cn0 at or above SightingMinCn0. -/
def sightingsOf (s : State) : List (List Nat) :=
  ((s.slotsWhere fun v => v == 3).filter fun n => decide (s.get K.aidService_SightingMinCn0 ≤ s.get (K.slot_Cn0 n))).map fun n =>
    let d := clamp (-(2 ^ 31 : Nat)) ((2 ^ 31 : Nat) - 1) (divRound (s.getI (K.slot_Doppler n) 6) 256)
    [s.slotSig n, s.slotSat n] ++ toBytes 2 (s.get (K.slot_Cn0 n)) ++ toBytes 4 (ofInt 4 d)

/-- Lists of at most `n` elements. -/
def chunks {α : Type} (n : Nat) : Nat → List α → List (List α)
  | 0, _ => []
  | _ + 1, [] => []
  | k + 1, l => l.take n :: chunks n k (l.drop n)

/-- SIGHTINGS to each neighbour. -/
def State.sightingsSend (s : State) : State :=
  if !(s.getB K.aidService_SightingShare && lakeActive s) then s
  else
    let l := sightingsOf s
    let frames := (chunks 240 (l.length + 1) l).map fun c => [6, 0] ++ toBytes 2 c.length ++ toBytes 12 s.edge96 ++ c.flatten
    s.lake.neighbours.foldl (fun s n => frames.foldl (fun s b => s.netSend 12 0 n.addr b) s) s

/-- The EPHEMERIS frame of a store entry: its subindices 0x01 to 0x0C in link encoding. -/
def ephemerisBody (s : State) (e : Nat) : List Nat :=
  7 :: (List.range 12).flatMap fun i =>
    toBytes (([1, 1, 1, 1, 1, 2, 12, 12, 1, 2, 12, 192] : List Nat).getD i 0) (s.get (K.storeEntry_Kind e + i))

/-- Entries that became VALID in this command are offered to the neighbours (R246). -/
def State.offersSend (s : State) : State :=
  let l := s.nav.offers
  let s := { s with nav := { s.nav with offers := [] } }
  if !lakeActive s then s
  else l.foldl (fun s e => s.lake.neighbours.foldl (fun s n => s.netSend 12 0 n.addr (ephemerisBody s e)) s) s

/-- Current subscribers of a block's signal and satellite (R392). -/
def blockTargets (s : State) (b : SymBlock) : List Nat :=
  (s.lake.subIn.filter fun x => x.2.1 == b.signal && x.2.2.1 == b.satellite && decide (s.elapsed ≤ x.2.2.2 + 10 * SEC)).map (·.1)

/-- Symbol blocks formed in this command go to every current subscriber of their signal and satellite (R247, R392). A block
that goes to any is counted once. -/
def State.blocksSend (s : State) : State :=
  let l := s.nav.blocks
  let s := { s with nav := { s.nav with blocks := [] } }
  if !lakeActive s then s
  else l.foldl (fun s b =>
    let toward := blockTargets s b
    let s := if toward.isEmpty then s else s.count K.navData_BlocksPublished 4
    toward.foldl (fun s a => s.netSend 12 0 a (8 :: symPayload b)) s) s

/-- The elapsed time of a sighting's MEAS_AT (R160): in UNSET it is mapped through the measured offset of Lake time, and without
one it is taken as the instant of reception (DESIGN CHOICE, log entry 163). -/
def sightedAt (s : State) (measAt : Nat) : Int :=
  let age : Int := if s.timing != 0 then (s.time.now : Int) - measAt
    else if s.getB K.lake_LakeValid then (s.time.now : Int) + s.getI K.lake_LakeOffset 8 - measAt
    else 0
  (s.elapsed : Int) - age

/-- Sightings that still serve (R160). -/
def State.sightingsKeep (s : State) (l : List Sighting) : State :=
  let l := l.filter fun x => decide ((s.elapsed : Int) ≤ x.at_ + (10 * SEC : Nat))
  ({ s with nav := { s.nav with sightings := l } }).set K.aidService_SightingsHeld (min 65535 l.length)

/-- SIGHTINGS (R391): each becomes the neighbour's sighting. A member that NEIGHBOURS puts beyond 2 km is none (R160). -/
def State.sightingsIn (s : State) : State :=
  match s.lakeTake 6 with
  | (none, s) => s
  | (some f, s) =>
    let b := f.body
    let n := field b 2 2
    if b.length ≠ 16 + 8 * n ∨ 240 < n ∨ byteAt b 1 ≠ 0 then s.netBad
    else if s.lake.neighbours.any fun x => x.addr == f.source && decide (2000 < x.dist) then s
    else
      let at_ := sightedAt s (ofTime96 (field b 4 12))
      let new := (List.range n).map fun i =>
        let a := 16 + 8 * i
        (⟨f.source, byteAt b a, byteAt b (a + 1), field b (a + 2) 2, toInt 4 (field b (a + 4) 4), at_⟩ : Sighting)
      let old := s.nav.sightings.filter fun x => !(x.peer == f.source && new.any fun y => y.signal == x.signal && y.satellite == x.satellite)
      s.sightingsKeep (old ++ new)

/-- SIGHTING_EXPIRY (R160). -/
def State.sightingsExpire (s : State) : State := s.sightingsKeep s.nav.sightings

/-- EPHEMERIS (R246): a peer copy of a StoreEntry. -/
def State.ephemerisIn (s : State) : State :=
  match s.lakeTake 7 with
  | (none, s) => s
  | (some f, s) =>
    let b := f.body
    if b.length ≠ 239 ∨ 15 < byteAt b 2 then s.netBad
    else (s.storePeer (byteAt b 2) (byteAt b 1) (byteAt b 3) (field b 6 2) (field b 47 192) (field b 8 12, field b 20 12)).offersSend

/-- SYMBOLS (R248, R249). -/
def State.symbolsTake (s : State) : State :=
  match s.lakeTake 8 with
  | (none, s) => s
  | (some f, s) => s.symbolsIn (f.body.drop 1)

/-- SUBSCRIBE at a provider (R392): at most 128 subscriptions. -/
def State.subscribeIn (s : State) : State :=
  match s.lakeTake 9 with
  | (none, s) => s
  | (some f, s) =>
    let n := byteAt f.body 1
    if f.body.length ≠ 2 + 2 * n ∨ n = 0 ∨ 64 < n then s.netBad
    else
      let s := (List.range n).foldl (fun s i =>
        let v := byteAt f.body (2 + 2 * i)
        let sat := byteAt f.body (3 + 2 * i)
        let hit (x : Nat × Nat × Nat × Nat) : Bool := x.1 == f.source && x.2.1 == v && x.2.2.1 == sat
        if s.lake.subIn.any hit then
          { s with lake := { s.lake with subIn := s.lake.subIn.map fun x => if hit x then (f.source, v, sat, s.elapsed) else x } }
        else if 128 ≤ s.lake.subIn.length then s.flag K.aidService_AidFlags 1 K.aidService_SubscriptionsRefused
        else { s with lake := { s.lake with subIn := s.lake.subIn ++ [(f.source, v, sat, s.elapsed)] } }) s
      s.set K.aidService_SubscriptionsIn s.lake.subIn.length

/-- SUBSCRIPTION_EXPIRY (R392): not renewed within 10 s. -/
def State.subscriptionsExpire (s : State) : State :=
  let l := s.lake.subIn.filter fun x => decide (s.elapsed ≤ x.2.2.2 + 10 * SEC)
  let s := { s with lake := { s.lake with subIn := l } }
  s.set K.aidService_SubscriptionsIn l.length

/-- A search entry would run at HOT on a data component (R392). -/
def wantsHot (s : State) (e : Nat) : Bool :=
  let v := s.get (K.searchEntry_SignalId e)
  let sat := s.get (K.searchEntry_Satellite e)
  match entryDue s e with
  | some a =>
    let level := levelOf s v sat a (s.get (K.searchEntry_Assist e))
    !sigPilot v && (level == 3 || level == 4)
  | none => false

/-- Signals and satellites whose symbols this device needs (R392). -/
def symbolNeeds (s : State) : List (Nat × Nat) :=
  let slots := (s.slotsWhere fun v => v == 3 || v == 4).filter fun n =>
    s.slotState n == 4 || decide (s.get (K.slot_Cn0 n) < s.get (K.trackingProfile_StandaloneThreshold (s.slotSig n)) + 30)
  let hot := ((List.range 256).filter (wantsHot s)).map fun e => (s.get (K.searchEntry_SignalId e), s.get (K.searchEntry_Satellite e))
  (slots.map (fun n => (s.slotSig n, s.slotSat n)) ++ hot).eraseDups

/-- SUBSCRIBE_RENEW (R392): every 5 s, or when a need has come, to each neighbour with SKY whose sighting lists the signal
and satellite. -/
def State.subscribeRenew (s : State) : State :=
  let needs := symbolNeeds s
  let want := (s.lake.neighbours.filter (·.sky)).flatMap fun n =>
    (needs.filter fun p => s.nav.sightings.any fun x => x.peer == n.addr && x.signal == p.1 && x.satellite == p.2
      && decide ((s.elapsed : Int) ≤ x.at_ + (10 * SEC : Nat))).map fun p => (n.addr, p.1, p.2)
  let new := want.any fun w => !(s.lake.subOut.contains w)
  let due := match s.lake.subAt with | some t => decide (t + 5 * SEC ≤ s.elapsed) | none => true
  if !lakeActive s ∨ !(new || due) then s
  else
    let s := { s with lake := { s.lake with subAt := some s.elapsed, subOut := want } }
    let s := s.set K.aidService_SubscriptionsOut (min 65535 want.length)
    s.lake.neighbours.foldl (fun s n =>
      let l := (want.filter fun w => w.1 == n.addr).map fun w => [w.2.1, w.2.2]
      (chunks 64 (l.length + 1) l).foldl (fun s c => s.netSend 12 0 n.addr ([9, c.length] ++ c.flatten)) s) s

/-! ### Common view (R372, R373, R399) -/

/-- One partner's series as it stands. -/
def cvAt (s : State) (p : Nat) : CvSt := s.lake.cv.toList.getD p CvSt.reset

/-- Change it. -/
def State.modCv (s : State) (p : Nat) (x : CvSt) : State :=
  { s with lake := { s.lake with cv := .ofFn fun i => if i.val = p then x else s.lake.cv[i] } }

/-- The observations of an epoch that common view uses (R372): of a FIXED antenna, with an ephemeris and a known elevation, without
COAST, CYCLE_SLIP, HALF_CYCLE, NO_EPHEMERIS, BELOW_MASK, CAL, LO_UNLOCK, REPHASE. One is continuous since the previous second where it was
observed there and LockTime has not restarted since. -/
def cvObsAt (s : State) (e : EpochSt) : List CvObs :=
  e.obs.filterMap fun o =>
    match o.eph with
    | none => none
    | some p =>
      if !e.cfg.fixed.getD o.ant false ∨ o.elev.isNone ∨ ([0, 1, 2, 4, 8].any fun i => bit o.flags i)
          ∨ ([0, 1, 7].any fun i => bit o.fe i) then none
      else
        let range := Config.ephRange p.1 o.satellite p.2 (e.cfg.pos.getD o.ant (0, 0, 0)) e.at_
        let t := divRound (o.phase * (SEC : Int)) (65536 * sigCarrier o.signal o.satellite) - range - o.delay
        let was := s.lake.cvOwn.1 + SEC == e.at_ && s.lake.cvOwn.2.any fun x => x.signal == o.signal && x.satellite == o.satellite
        some ⟨o.signal, o.satellite, was && decide (1000 ≤ o.lock), t, Config.cvSigma o.cn0⟩

/-- CV_OBS to the partners this device sends to, with its observations of a second (R372). -/
def State.cvSend (s : State) (te : Nat) (obs : List CvObs) : State :=
  if !(s.getB K.lakeEnsemble_CvEnable && lakeActive s) then s
  else
    let obs := obs.take 126
    let one (o : CvObs) : List Nat := [o.signal, o.satellite, b2n o.cont, 0] ++ toBytes 8 (ofInt 8 o.t) ++ toBytes 4 o.sigma
    let b := [4, 0, obs.length, 0] ++ toBytes 12 (toTime96 te) ++ obs.flatMap one
    (List.range 4).foldl (fun s p => if s.get (K.cvPartner_CvRole p) = 2 then s.netSend 12 0 (s.get (K.cvPartner_Partner p)) b else s) s

/-- MEASUREMENT_EPOCH (R257), and common view's observations of a whole second (R372). -/
def State.measureEpoch (s : State) : State :=
  let t := s.measure
  match t.sol.epochs.getLast? with
  | none => t
  | some e =>
    if s.sol.due.isNone ∨ t.sol.due.isSome ∨ e.at_ % SEC ≠ 0 then t
    else
      let obs := cvObsAt t e
      (t.modLake fun l => { l with cvOwn := (e.at_, obs) }).cvSend e.at_ obs

/-- The observations a CV_OBS body gives from an offset. -/
def cvObsOf (b : List Nat) (n : Nat) : List CvObs :=
  (List.range n).map fun i =>
    let a := 16 + 16 * i
    ⟨byteAt b a, byteAt b (a + 1), bit (byteAt b (a + 2)) 0, toInt 8 (field b (a + 4) 8), field b (a + 12) 4⟩

/-- The series of a partner advances to a second with the observations of both ends (R373). Where no satellite is continuous the sum of
weights is empty, and SIGMA is held at its largest value (log entry 180). -/
def State.cvAdvance (s : State) (p sec : Nat) (own peer : List CvObs) : State :=
  let x := cvAt s p
  let pairs := own.filterMap fun o => (peer.find? fun q => q.signal == o.signal && q.satellite == o.satellite).map fun q => (o, q)
  let d := pairs.map fun (o, q) => (o.signal, o.satellite, o.t - q.t)
  let cont := if x.at_ + SEC ≠ sec then [] else pairs.filterMap fun (o, q) =>
    if !(o.cont && q.cont) then none
    else match x.d.find? fun e => e.1 == o.signal && e.2.1 == o.satellite with
      | some e => some (o.t - q.t - e.2.2, max 1 (o.sigma ^ 2 + q.sigma ^ 2))
      | none => none
  let sv := ratSum (cont.map fun c => (1 : Rat) / ((c.2 : Nat) : Rat))
  if cont.isEmpty then
    let first := !x.live
    let s := s.modCv p { at_ := sec, d := d, c := 0, steps := 0, live := true }
    let s := ((s.setI (K.cvPartner_CvValue p) 8 0).set (K.cvPartner_CommonSatellites p) 0).set (K.cvPartner_CvSigma p) 0xFFFFFFFF
    if first then s
    else (s.set (K.cvPartner_Series p) ((s.get (K.cvPartner_Series p) + 1) % 65536)).flag (K.cvPartner_CvFlags p) 0 (K.cvPartner_SeriesRestarts p)
  else
    let dc := ratRound (ratSum (cont.map fun c => (c.1 : Rat) / ((c.2 : Nat) : Rat)) / sv)
    let steps := x.steps + 1
    let c := clamp (-(2 ^ 63 : Nat)) ((2 ^ 63 : Nat) - 1) (x.c + dc)
    let sigma := rsqrt (ratRound (((steps : Nat) : Rat) / sv)).toNat
    let s := s.modCv p { at_ := sec, d := d, c := c, steps := steps, live := true }
    ((s.setI (K.cvPartner_CvValue p) 8 c).set (K.cvPartner_CommonSatellites p) (min 255 cont.length)).set (K.cvPartner_CvSigma p)
      (min 0xFFFFFFFF sigma)

/-- CV_OBS (R373), paired with this device's own observations of the same second. -/
def State.cvIn (s : State) : State :=
  match s.lakeTake 4 with
  | (none, s) => s
  | (some f, s) =>
    let n := byteAt f.body 2
    if f.body.length ≠ 16 + 16 * n ∨ 126 < n ∨ byteAt f.body 1 ≠ 0 ∨ byteAt f.body 3 ≠ 0
        ∨ (List.range n).any fun i => decide (2 ≤ byteAt f.body (16 + 16 * i + 2)) || byteAt f.body (16 + 16 * i + 3) != 0 then s.netBad
    else match (List.range 4).find? fun p => s.get (K.cvPartner_Partner p) == f.source && s.get (K.cvPartner_CvRole p) == 1 with
      | some p =>
        let sec := ofTime96 (field f.body 4 12)
        let own := if s.lake.cvOwn.1 = sec then s.lake.cvOwn.2 else []
        if s.getB K.lakeEnsemble_CvEnable then s.cvAdvance p sec own (cvObsOf f.body n) else s
      | none => s

/-- NEIGHBOURS (R390, R391, R399): the list, the common-view partners, the entries sent to a new neighbour. -/
def State.neighboursIn (s : State) : State :=
  match s.lakeTake 5 with
  | (none, s) => s
  | (some f, s) =>
    let n := byteAt f.body 1
    if f.body.length ≠ 2 + 6 * n ∨ 16 < n ∨ (List.range n).any fun i => decide (8 ≤ byteAt f.body (6 + 6 * i)) || byteAt f.body (7 + 6 * i) != 0 then s.netBad
    else if f.source ≠ rootAddr s ∧ some f.source ≠ s.lake.acting then s
    else
      let new := (List.range n).map fun i =>
        let a := 2 + 6 * i
        let fl := byteAt f.body (a + 4)
        (⟨field f.body a 2, field f.body (a + 2) 2, bit fl 0, bit fl 1, bit fl 2⟩ : Neigh)
      let old := s.lake.neighbours
      let s := { s with lake := { s.lake with neighbours := new } }
      let s := s.set K.aidService_NeighbourCount n
      let s := if (reportAntenna s).isNone then s.flag K.aidService_AidFlags 0 K.aidService_NoPositionEvents else s
      let pairs := new.filter (·.cv)
      -- a pair that is gone ends its series
      let s := (List.range 4).foldl (fun s p =>
        let a := s.get (K.cvPartner_Partner p)
        if a ≠ 0 ∧ !(pairs.any fun x => x.addr == a) then
          ((s.set (K.cvPartner_Partner p) 0).set (K.cvPartner_CvRole p) 0).modCv p CvSt.reset
        else s) s
      let s := pairs.foldl (fun s x =>
        if (List.range 4).any fun p => s.get (K.cvPartner_Partner p) == x.addr then s
        else match (List.range 4).find? fun p => s.get (K.cvPartner_Partner p) == 0 with
          | some p => ((s.set (K.cvPartner_Partner p) x.addr).set (K.cvPartner_CvRole p) (if x.sender then 1 else 2)).modCv p CvSt.reset
          | none => s) s
      let fresh := new.filter fun x => !(old.any fun y => y.addr == x.addr)
      let valid := entries.filter fun e => s.get (K.storeEntry_EntryState e) == 2 && s.get (K.storeEntry_Kind e) != 0
      fresh.foldl (fun s x => valid.foldl (fun s e => s.netSend 12 0 x.addr (ephemerisBody s e)) s) s

/-! ### The epoch at a member (R367) -/

/-- LAKE_EPOCH: at a tick number that is a multiple of 100 the REPORT is formed and sent; at a whole second sightings. A computing
root opens its epoch. -/
def State.lakeEpoch (s : State) : State :=
  if s.time.tick % 100 ≠ 0 ∨ s.lake.epoch = some s.time.tick ∨ !lakeActive s ∨ s.time.running = false then s
  else
    let edge := s.time.t0
    let body := reportBody s edge
    let root := rootAddr s
    let s := s.modLake fun l =>
      { l with epoch := some s.time.tick, silent := (if l.silentRoot = root then l.silent else 0) + 1, silentRoot := root }
    let role := s.get K.lakeRoot_EnsembleRole
    let s := if s.lake.stopActing then
        (s.modLake fun l => { l with stopActing := false }).set K.lakeRoot_EnsembleRole (if memberState s = 3 then 2 else 0)
      else s
    let s := if role = 1 ∨ role = 3 then
        -- the epoch before that is still open was not complete in time
        let s := if s.lake.open_.isSome then s.flag K.lakeRoot_RootFlags 1 K.lakeRoot_EpochsLate else s
        s.modLake fun l => { l with open_ := some (edge, s.time.ms * MS), reports := [] }
      else s
    let s :=
      if !s.getB K.lake_LakeEnable then s
      else
        let toward := s.lake.acting.getD (rootAddr s)
        let s := s.netSend 12 0 toward body
        (s.modLake fun l => { l with sent := ((s.time.tick, edge) :: l.sent).take 32, stepped := false }).modSol fun x =>
          { x with report := none }
    let s := s.modLake fun l => { l with steer := 0 }
    let s := (List.range 32).foldl (fun s n => s.modPort n fun p => { p with recs := [] }) s
    if edge % SEC = 0 then s.sightingsSend else s

/-! ### ESTIMATE (R379 to R382, R386) -/

/-- LakeValid goes FALSE. -/
def State.lakeLost (s : State) : State :=
  if s.getB K.lake_LakeValid then (s.setB K.lake_LakeValid false).flag K.lake_LakeFlags 1 K.lake_EstimateLosses else s

/-- x̄ of R382 in the DUR64 unit. -/
def meanX (s : State) : Int :=
  let l := s.time.xs.take (min 600 s.time.updates)
  if l.isEmpty then 0 else divRound l.sum l.length

/-- ErrorEstimate with Lake time as source (R382). -/
def lakeErrorEstimate (s : State) : Nat :=
  let e := s.get K.lake_LakeError
  if e = errUnknown then errUnknown
  else
    let x := (duToPs (meanX s)).natAbs
    min 0xFFFFFFFE (rsqrt (e * e + s.get K.lake_SigmaNet ^ 2 + x * x))

/-- Lake time minus Pond time at a later edge: x carried forward at RATE. -/
def carried (x rate : Int) (edge at_ : Nat) : Int := x + divRound (rate * ((at_ : Int) - edge)) (2 ^ 48 : Nat)

/-- The largest offset LakeOffset holds: ±140,737 s. -/
def offsetLimit : Int := 140737 * SEC

/-- A valid estimate acts (R381, R386): the first estimate of a device in UNSET, or a source update. -/
def State.estimateUse (s : State) (x rate : Int) (edge : Nat) : State :=
  if s.timing = 0 then
    if s.get K.lake_SigmaNet ≤ 1000 then
      let step := s.time.t0 + (s.edgeAfter2ms - s.time.ms) * MS
      s.firstEstimate .lake (carried x rate edge step) (some rate) (lakeErrorEstimate { s with time := { s.time with updates := 0 } })
    else s
  else if s.time.due.isSome then s
  else
    let s := s.sourceUpdate true x
    if s.timing = 1 ∨ s.timing = 2 then s.set K.pondTime_ErrorEstimate (lakeErrorEstimate s) else s

/-- ESTIMATE at a member. -/
def State.estimateIn (s : State) : State :=
  match s.lakeTake 2 with
  | (none, s) => s
  | (some f, s) =>
    let b := f.body
    let fl := byteAt b 1
    if b.length ≠ 42 ∨ 16 ≤ fl then s.netBad
    else if !s.getB K.lake_LakeEnable ∨ !lakeActive s then s
    else
      let fromRoot := f.source == rootAddr s
      let fromActing := bit fl 2 && f.source == s.get K.network_Standby1
      if !(fromRoot || fromActing) then s
      else
        let tick := field b 6 8
        let mine := s.lake.sent.find? fun p => p.1 == tick
        if mine.isNone ∧ !s.lake.matched then s
        else
          let edge : Nat := match mine with | some p => p.2 | none => tick * MS
          let x : Int := (ofTime96 (field b 14 12) : Int) - edge
          let rate := toInt 6 (field b 26 6)
          let gen := field b 2 4
          let old := s.get K.lake_Generation
          let s := if old ≠ 0 ∧ gen ≠ old then s.flag K.lake_LakeFlags 0 K.lake_GenerationChanges else s
          let s := ((s.set K.lake_Generation gen).set K.lake_LakeAt (field b 14 12)).setI K.lake_LakeOffset 8 (clamp (-offsetLimit) offsetLimit x)
          let s := ((s.setI K.lake_LakeRate 6 rate).set K.lake_SigmaNet (field b 32 4)).set K.lake_LakeError (field b 36 4)
          let s := ((s.setB K.lake_Traceable (bit fl 1)).setB K.lake_Contributing (bit fl 3)).set K.lake_Weight (field b 40 2)
          let s := { s with lake := { s.lake with matched := true, silent := 0, estFrom := some f.source, acting := if fromActing then some f.source else none } }
          if !bit fl 0 then s.lakeLost
          else
            let s := { s with lake := { s.lake with estAt := some s.elapsed, est := some (x, rate, edge) } }
            (s.setB K.lake_LakeValid true).estimateUse x rate edge

/-- ESTIMATE_LOSS (R380): no valid ESTIMATE for 1 s. -/
def State.estimateLoss (s : State) : State :=
  let late := match s.lake.estAt with | some t => decide (t + SEC < s.elapsed) | none => true
  if late then s.lakeLost else s

/-! ### Tick, step, reset -/

/-- The last ESTIMATE is no longer one that LakeValid rests on (R380): its root has changed, or it is more than 1 s old. -/
def estimateGone (s : State) : Bool :=
  (match s.lake.estFrom with | some a => a != rootAddr s && s.lake.acting != some a | none => true)
    || (match s.lake.estAt with | some t => decide (t + SEC < s.elapsed) | none => true)

/-- The tick edge: the Pond time gained from RateApplied in the tick that ended; LakeValid needs LakeEnable, membership, and an ESTIMATE
of the last second from the present root or from an acting standby (R380). -/
def State.lakeTick (s : State) : State :=
  let s := { s with lake := { s.lake with steer := s.lake.steer + s.getI K.steering_RateApplied 6 } }
  if s.getB K.lake_LakeEnable && decide (2 ≤ memberState s) && !estimateGone s then s else s.lakeLost

/-- After a step or re-seed the next REPORT says so, and no ESTIMATE of an earlier report is used (R381, R394). -/
def State.lakeStep (s : State) : State :=
  { s with lake := { s.lake with sent := [], matched := false, stepped := true } }

/-- A reset: only the count of generations begun is in MRAM. -/
def State.lakeReset (s : State) : State :=
  { s with lake := { LakeSt.reset with genCount := s.lake.genCount } }

/-! ### Commands -/

/-- MEASUREMENT_EPOCH (R257). -/
def execMeasurementEpoch (at_ : Nat) (s : State) : Host.Outcome State Fault Refusal :=
  .next (onlyIf s.inRun s ((s.reach (s.time.t0 + at_)).measureEpoch))

end Sys2Proof.Machine
end

