-- ==== Sys2Proof/Machine/LakeRoot.lean ====
section
/-!
DEFINITION. Lake time at the computing root: the ensemble, replication, taking and giving up the role, merging
(spec/11, R374 to R379, R383 to R390, R394).
-/

namespace Sys2Proof.Machine

/-! ### Units: offsets in the DUR64 unit times 2^-20, rates in 2^-48 times 2^-20 (log entry 22) -/

/-- The fine fraction. -/
def FINE : Nat := 2 ^ 20

/-- What a rate gains in `ms` milliseconds. -/
def rateGain (r : Int) (ms : Nat) : Int := divRound (r * ms * MS) (2 ^ 48 : Nat)

/-- A sum of STEER in 2^-48 s as an offset. -/
def steerOff (v : Int) : Int := divRound (v * SEC * FINE) (2 ^ 48 : Nat)

/-- An offset in ps, exact. -/
def offPs (v : Int) : Rat := (v : Rat) * 1000 / ((65536 * FINE : Nat) : Rat)

/-- A duration in ps as an offset. -/
def psOff (v : Nat) : Int := divRound ((v : Int) * 65536 * FINE) 1000

/-- An offset over a time constant in s as a rate. -/
def offRate (v : Int) (num den : Nat) : Int := divRound (v * num * (2 ^ 48 : Nat)) ((SEC : Int) * den)

/-- A rate of 0.1 ppb. -/
def tenthPpb (n : Nat) : Int := divRound ((n : Int) * (2 ^ 68 : Nat)) 10000000000

/-! ### The network solution (R375) -/

/-- A measurement: P(b) - P(a), as an offset, with its 1σ in ps. -/
structure NetMeas where
  a : Nat
  b : Nat
  z : Int
  sigma : Nat
  deriving DecidableEq, Repr

/-- The port at the other end of a member's link, as the database has it. -/
def farPort (s : State) (addr port : Nat) : Option Nat :=
  (database s).findSome? fun l => if l.addr = addr then (l.links.find? fun k => k.local_ == port).map (·.port) else none

/-- The report of a member. -/
def reportFrom (reps : List Report) (a : Nat) : Option Report := reps.find? fun r => r.source == a

/-- Link measurements of an epoch: each link once, the mean of its two ends when both report, with the smaller SIGMA; those
of a member that stepped, and its peers' for the link, left out (R394). -/
def linkMeas (s : State) (reps : List Report) : List NetMeas :=
  let off (r : Report) (at_ : Nat) : Int := ((ofTime96 at_ : Int) - r.tick * MS) * FINE
  let ok (r : Report) : Bool := !r.stepped
  (reps.filter ok).flatMap fun r => r.links.filterMap fun l =>
    let peer := l.2.1
    match reportFrom reps peer with
    | none => some ⟨r.source, peer, off r l.2.2.1, max 1 l.2.2.2⟩
    | some q =>
      if q.stepped then none
      else
        let back := match farPort s r.source l.1 with
          | some p => q.links.find? fun (k : Nat × Nat × Nat × Nat) => k.1 == p && k.2.1 == r.source
          | none => none
        match back with
        | none => some ⟨r.source, peer, off r l.2.2.1, max 1 l.2.2.2⟩
        | some k =>
          if peer < r.source then none
          else some ⟨r.source, peer, divRound (off r l.2.2.1 - off q k.2.2.1) 2, max 1 (min l.2.2.2 k.2.2.2)⟩

/-- Members that measurements connect to the root, in at most `n` steps. -/
def connected (ms : List NetMeas) : Nat → List Nat → List Nat
  | 0, l => l
  | n + 1, l =>
    let more := (ms.filterMap fun m =>
      if l.contains m.a && !(l.contains m.b) then some m.b else if l.contains m.b && !(l.contains m.a) then some m.a else none).eraseDups
    if more.isEmpty then l else connected ms n (l ++ more)

/-- The weighted least-squares solution: q and its variance in ps² for each member connected to the root. -/
def netSolve (root : Nat) (ms : List NetMeas) : List (Nat × Int × Rat) :=
  let nodes := (connected ms (2 * ms.length + 1) [root]).filter (· != root)
  let use := ms.filter fun m => (m.a == root || nodes.contains m.a) && (m.b == root || nodes.contains m.b)
  let coef (m : NetMeas) (x : Nat) : Rat := if m.b = x then 1 else if m.a = x then -1 else 0
  let w (m : NetMeas) : Rat := 1 / ((m.sigma * m.sigma : Nat) : Rat)
  let normal := nodes.map fun i => nodes.map fun j => ratSum (use.map fun m => w m * coef m i * coef m j)
  let rhs := nodes.map fun i => ratSum (use.map fun m => w m * coef m i * (m.z : Rat))
  match inverse normal with
  | none => [(root, 0, 0)]
  | some inv =>
    let at_ (k : Nat) : Int × Rat := (ratRound (dot (inv.getD k []) rhs), (inv.getD k []).getD k 0)
    (root, 0, 0) :: (List.zip (List.range nodes.length) nodes).map fun p => (p.2, (at_ p.1).1, (at_ p.1).2)

/-- q of a member. -/
def qOf (q : List (Nat × Int × Rat)) (a : Nat) : Option Int := (q.find? fun e => e.1 == a).map (·.2.1)

/-- SigmaNet of a member in ps. -/
def sigmaNet (q : List (Nat × Int × Rat)) (a : Nat) : Nat :=
  match q.find? fun e => e.1 == a with
  | some e => min 0xFFFFFFFF (rsqrt (ratRound e.2.2).toNat)
  | none => 0xFFFFFFFF

/-- Biases and measurements of the common-view pairs (R374): at the first sample of a series the bias is C less the
link-network estimate; at later whole seconds it moves toward that. -/
def cvMeas (s : State) (whole : Bool) (reps : List Report) (q : List (Nat × Int × Rat)) (bias : List CvBias) :
    List NetMeas × List CvBias :=
  if !s.getB K.lakeEnsemble_CvEnable then ([], bias)
  else
    let t := s.get K.lakeEnsemble_CvBiasTime
    let l := reps.flatMap fun r => r.cv.map fun c => (r.source, c)
    l.foldl (fun acc (src, partner, series, c, sigma) =>
      match qOf q src, qOf q partner with
      | some qi, some qp =>
        let v := c * FINE
        let est := qi - qp
        let same (x : CvBias) : Bool := x.a == src && x.b == partner
        let b := match acc.2.find? fun x => same x && x.series == series with
          | some x => if whole then x.bias + divRound (v - x.bias - est) t else x.bias
          | none => v - est
        (acc.1 ++ [⟨partner, src, v - b, max 1 sigma⟩], acc.2.filter (fun x => !same x) ++ [⟨src, partner, series, b⟩])
      | _, _ => acc) ([], bias)

/-! ### Weights (R376) -/

/-- Capped weights of some variances: the excess of a capped weight goes to the others in proportion, repeatedly. -/
def capWeights (cap : Rat) : Nat → List (Rat × Bool) → List Rat
  | 0, l => l.map (·.1)
  | n + 1, l =>
    let above := l.any fun p => !p.2 && decide (cap < p.1)
    if !above then l.map (·.1)
    else
      let l := l.map fun p => if !p.2 && decide (cap < p.1) then (cap, true) else p
      let held := ratSum ((l.filter (·.2)).map (·.1))
      let free := ratSum ((l.filter fun p => !p.2).map (·.1))
      if free = 0 then l.map (·.1)
      else capWeights cap n (l.map fun p => if p.2 then p else (p.1 * (1 - held) / free, false))

/-- The weights of members by their eps2. -/
def weightsOf (s : State) (l : List EnsMem) : List Rat :=
  let inv := l.map fun m => (1 : Rat) / ((max 1 m.eps2 : Nat) : Rat)
  let t := ratSum inv
  let n : Rat := (max 1 l.length : Nat)
  let cap0 : Rat := (s.get K.lakeEnsemble_LakeWeightCap : Rat) / 65536
  let cap := if cap0 < 1 / n then 1 / n else cap0
  capWeights cap (l.length + 1) (inv.map fun w => (if t = 0 then 0 else w / t, false))

/-- A member of the realisation. -/
def Realm.mem (r : Realm) (a : Nat) : EnsMem :=
  (r.mems.find? fun m => m.addr == a).getD
    { addr := a, contrib := false, u := 0, r := 0, steer := 0, eps2 := 10000 * FINE, run := 0, missed := 0, hist := [],
      modelY := 0, modelD := 0, pos := none, skyAt := none, seen := false }

/-- Put a member. -/
def Realm.put (r : Realm) (m : EnsMem) : Realm := { r with mems := r.mems.filter (fun x => x.addr != m.addr) ++ [m] }

/-- The contributing members. -/
def Realm.contribs (r : Realm) : List EnsMem := r.mems.filter (·.contrib)

/-! ### One epoch -/

/-- The reports of an epoch enter: STEER of contributors and of the root, the conditions of entry, exits (R376, R394, R395). -/
def takeReports (root : Nat) (reps : List Report) (r : Realm) : Realm :=
  let r := reps.foldl (fun r x =>
    let m := r.mem x.source
    let ok := x.tstate == 2 && x.gen == r.gen && !x.stepped
    let stay := m.contrib && ok
    r.put { m with contrib := stay, steer := if m.contrib || x.source == root then m.steer + x.steer else 0, missed := 0,
                   run := if ok then m.run + 1 else 0, hist := if x.stepped then [] else m.hist, modelY := x.modelY,
                   modelD := x.modelD, pos := x.pos, seen := true }) r
  let absent (m : EnsMem) : EnsMem :=
    if reps.any fun x => x.source == m.addr then m
    else { m with missed := m.missed + 1, run := 0, seen := false, contrib := m.contrib && decide (m.missed + 1 < 10) }
  { r with mems := r.mems.map absent }

/-- The prediction of a member (R375). -/
def predict (r : Realm) (m : EnsMem) (dt : Nat) : Int := m.u + rateGain (m.r + r.s) dt

/-- The ensemble step of an epoch (R375): the members after it, a_root, and whether the contributing set was empty. -/
def ensembleStep (s : State) (root dt : Nat) (q : List (Nat × Int × Rat)) (r : Realm) : Realm × Int × Bool :=
  let rt := r.mem root
  let z (m : EnsMem) : Option Int := (qOf q m.addr).map fun v => v - (steerOff m.steer - steerOff rt.steer)
  let here := r.contribs.filter fun m => (z m).isSome
  let ws := weightsOf s here
  let sum := ratSum ((List.zip ws here).map fun p => p.1 * ((predict r p.2 dt + (z p.2).getD 0 : Int) : Rat))
  let uRoot := if here.isEmpty then predict r rt dt else ratRound sum
  let t := s.get K.lakeEnsemble_LakeRateTime
  let tw := s.get K.lakeEnsemble_LakeWeightTime
  let step (m : EnsMem) : EnsMem :=
    if m.contrib then
      match z m with
      | some v =>
        let u := uRoot - v
        let e := u - predict r m dt
        let e2 : Rat := offPs e * offPs e * ((FINE : Nat) : Rat)
        let eps := (m.eps2 : Rat) + (e2 - (m.eps2 : Rat)) / ((10 * tw : Nat) : Rat)
        { m with u := u, r := m.r + offRate e 1 t, eps2 := (ratRound eps).toNat }
      | none => { m with u := predict r m dt }
    else if m.addr = root then { m with u := uRoot }
    else m
  let r := { r.put rt with mems := (r.put rt).mems.map step }
  (r, (r.mem root).u - steerOff (r.mem root).steer, here.isEmpty)

/-- The realisation begins (R383): from an estimate of the root's own, or from an origin, which joins the contributing set. -/
def seed (root origin : Nat) (own : Option Int) (reps : List Report) (q : List (Nat × Int × Rat)) (r : Realm) : Option (Realm × Int) :=
  let rate (a : Nat) : Int := match reportFrom reps a with | some x => x.rate * FINE | none => 0
  let begin_ (r : Realm) (a : Int) : Realm := { r.put { r.mem root with u := a, steer := 0, r := rate root } with begun := true }
  match own with
  | some a => some (begin_ r a, a)
  | none =>
    match reportFrom reps origin, qOf q origin with
    | some x, some v =>
      if x.tstate = 0 then none
      else
        let r := begin_ r v
        let m := r.mem origin
        some (r.put { m with contrib := true, u := if origin = root then v else 0, steer := 0, r := rate origin, eps2 := 10000 * FINE }, v)
    | _, _ => none

/-- Offsets of this epoch join the members' histories, and qualified members enter the contributing set (R376). The history reaches
back to the solution of a GNSS input: at most 10 epochs before its report, which came at most a second ago. -/
def noteOffsets (s : State) (aRoot : Int) (reps : List Report) (q : List (Nat × Int × Rat)) (r : Realm) : Realm :=
  reps.foldl (fun r x =>
    match qOf q x.source with
    | none => r
    | some v =>
      if x.stepped then r
      else
        let a := aRoot - v
        let m := r.mem x.source
        let m := { m with hist := ((x.tick * MS, a) :: m.hist).take 21 }
        let cs := r.contribs
        let mean := if cs.isEmpty then 10000 * FINE else (cs.map (·.eps2)).sum / cs.length
        if !m.contrib && decide (s.get K.lakeEnsemble_LakeQualify * 10 ≤ m.run) then
          r.put { m with contrib := true, u := a, steer := 0, r := x.rate * FINE, eps2 := mean }
        else r.put m) r

/-- RATE (R379): the least-squares slope of a over the last 10 epochs, in 2^-48. -/
def slope (h : List (Nat × Int)) : Int :=
  let h := h.take 10
  let n : Int := h.length
  let st := (h.map fun p => (p.1 : Int)).sum
  let sy := (h.map (·.2)).sum
  let stt := (h.map fun p => (p.1 : Int) * p.1).sum
  let sty := (h.map fun p => (p.1 : Int) * p.2).sum
  divRound ((n * sty - st * sy) * (2 ^ 48 : Nat)) ((n * stt - st * st) * FINE)

/-! ### GNSS inputs (R377, R378) -/

/-- The median of offsets. -/
def median (l : List Int) : Int :=
  let v := sortBy (fun a b => decide (a ≤ b)) l
  let n := v.length
  if n % 2 = 1 then v.getD (n / 2) 0 else divRound (v.getD (n / 2 - 1) 0 + v.getD (n / 2) 0) 2

/-- The inputs of the last second: reference minus Lake time, the variance in ps², the member. -/
def gnssInputs (s : State) (r : Realm) (q : List (Nat × Int × Rat)) : List (Int × Rat × Nat) :=
  s.lake.inputs.filterMap fun (src, x, sg, te) =>
    match (r.mem src).hist.find? fun h => h.1 == te with
    | some h => some (x * FINE - h.2, ((sg ^ 2 + (sigmaNet q src) ^ 2 : Nat) : Rat), src)
    | none => none

/-- The steering of Lake time at a whole second. -/
def State.gnssSteer (s : State) (q : List (Nat × Int × Rat)) (lakeNow : Nat) : State :=
  let r := s.lake.realm
  let all := gnssInputs s r q
  let s := { s with lake := { s.lake with inputs := [] } }
  let med := median (all.map (·.1))
  let lim := s.get K.trust_CrossCheckLimit
  let good (x : Int × Rat × Nat) : Bool :=
    decide (ratRound (offPs (if x.1 < med then med - x.1 else x.1 - med)) ≤ ((lim + 3 * rsqrt (ratRound x.2.1).toNat : Nat) : Int))
  let kept := all.filter good
  let s := (all.filter fun x => !good x).foldl (fun s _ => s.flag K.lakeRoot_RootFlags 0 K.lakeRoot_GnssExclusions) s
  let s := s.set K.lakeRoot_GnssInputs (min 4094 kept.length)
  if kept.isEmpty then s
  else
    let w (x : Int × Rat × Nat) : Rat := 1 / (if x.2.1 < 1 then 1 else x.2.1)
    let sw := ratSum (kept.map w)
    let g := ratRound (ratSum (kept.map fun x => w x * (x.1 : Rat)) / sw)
    let sg := rsqrt (ratRound (1 / sw)).toNat
    let t := s.get K.lakeEnsemble_LakeGnssTimeConstant
    let sI := r.sI + offRate g 1 (4 * t * t)
    let want := sI + offRate g 1 t
    let limit := tenthPpb (s.get K.lakeEnsemble_LakeSteerLimit)
    let held := clamp (-limit) limit want
    let sNew := clamp (r.s - tenthPpb 10) (r.s + tenthPpb 10) held
    let gp := ratRound (offPs g)
    let e0 := min 0xFFFFFFFE (rsqrt (gp.natAbs ^ 2 + sg ^ 2))
    let sky (m : EnsMem) : EnsMem := if kept.any fun x => x.2.2 == m.addr then { m with skyAt := some s.elapsed } else m
    let r := { r with s := sNew, sI := sI, gHat := g, gSigma := sg, lastGnss := lakeNow, gnssAt := some s.elapsed, e0 := e0,
                      mems := r.mems.map sky }
    { s with lake := { s.lake with realm := r } }

/-- Lake time is TRACEABLE. -/
def realmTraceable (s : State) : Bool :=
  match s.lake.realm.gnssAt with
  | some t => decide (s.elapsed ≤ t + s.get K.lakeEnsemble_LakeTraceHold * SEC)
  | none => false

/-- Lake error in ps (R378). -/
def realmError (s : State) : Nat :=
  let r := s.lake.realm
  match r.gnssAt with
  | none => errUnknown
  | some at_ =>
    if realmTraceable s ∨ r.e0 = errUnknown then r.e0
    else
      let cs := r.contribs
      let ws := weightsOf s cs
      let t : Rat := ((s.elapsed - at_ : Nat) : Rat) / ((SEC : Nat) : Rat)
      let sc : Rat := ((2 ^ 149 : Nat) : Rat)
      let y2 := ratSum ((List.zip ws cs).map fun p => let y := p.1 * (f32Scaled p.2.modelY : Rat) / sc; y * y)
      let y : Rat := ((rsqrt (ratRound (y2 * 1000000000000000000)).toNat : Nat) : Rat) / 1000000000
      let d := ratSum ((List.zip ws cs).map fun p => p.1 * (f32Scaled p.2.modelD : Rat) / sc)
      errCap (ratRound ((r.e0 : Rat) + 1000 * y * t + 500 * (d / 86400) * t * t))

/-! ### Sending (R379, R384, R390) -/

/-- The ESTIMATE for a report. -/
def estimateBody (s : State) (x : Report) (aRoot : Option Int) (q : List (Nat × Int × Rat)) : List Nat :=
  let r := s.lake.realm
  let m := r.mem x.source
  let a : Option Int := match aRoot, qOf q x.source with | some a, some v => some (a - v) | _, _ => none
  let valid := a.isSome && !x.stepped && x.scale == s.get K.steering_ReferenceTimescale % 4
  let edge := x.tick * MS
  let lakeAt := match a with | some v => toTime96 ((edge : Int) + divRound v FINE).toNat | none => toTime96 edge
  let w := match (List.zip (weightsOf s r.contribs) r.contribs).find? fun p => p.2.addr == x.source with
    | some p => clamp 0 65535 (ratRound (p.1 * 65536))
    | none => 0
  [2, b2n valid + 2 * b2n (realmTraceable s) + 4 * b2n (s.get K.lakeRoot_EnsembleRole == 3) + 8 * b2n m.contrib]
    ++ toBytes 4 r.gen ++ toBytes 8 x.tick ++ toBytes 12 lakeAt ++ toBytes 6 (ofInt 6 (slope m.hist))
    ++ toBytes 4 (if a.isSome then sigmaNet q x.source else 0xFFFFFFFF) ++ toBytes 4 (realmError s) ++ toBytes 2 w.toNat

/-- An offset in the DUR64 unit. -/
def toDur (v : Int) : Int := clamp (-(2 ^ 63 : Nat)) ((2 ^ 63 : Nat) - 1) (divRound v FINE)

/-- The REPLICA frames of a realisation (R368, R384): NMEM and NCV count the entries of their frame (log entry 23). -/
def replicaBodies (r : Realm) : List (List Nat) :=
  let mem (m : EnsMem) : List Nat :=
    toBytes 2 m.addr ++ [b2n m.contrib, 0] ++ toBytes 8 (ofInt 8 (toDur m.u)) ++ toBytes 6 (ofInt 6 (divRound m.r FINE))
      ++ toBytes 8 (ofInt 8 (toDur (steerOff m.steer))) ++ toBytes 4 (min 0xFFFFFFFF (m.eps2 / FINE)) ++ [0, 0]
  let cv (b : CvBias) : List Nat := toBytes 2 b.a ++ toBytes 2 b.b ++ toBytes 2 b.series ++ [0, 0] ++ toBytes 8 (ofInt 8 (toDur b.bias))
  let ms := chunks 50 (r.mems.length + 1) r.mems
  let bs := chunks 100 (r.bias.length + 1) r.bias
  let parts : List (List EnsMem × List CvBias) := ms.map (fun l => (l, [])) ++ bs.map fun l => ([], l)
  let parts := if parts.isEmpty then [([], [])] else parts
  (List.zip (List.range parts.length) parts).map fun p =>
    [3, p.1, parts.length] ++ toBytes 2 p.2.1.length ++ toBytes 2 p.2.2.length ++ toBytes 4 r.gen ++ toBytes 8 r.tick
      ++ toBytes 6 (ofInt 6 (divRound r.s FINE)) ++ toBytes 6 (ofInt 6 (divRound r.sI FINE)) ++ toBytes 8 (ofInt 8 (toDur r.gHat))
      ++ toBytes 12 r.lastGnss ++ p.2.1.flatMap mem ++ p.2.2.flatMap cv

/-- REPLICA to an address. -/
def State.replicaSend (s : State) (toward : Nat) : State :=
  if toward = 0 then s else (replicaBodies s.lake.realm).foldl (fun s b => s.netSend 12 0 toward b) s

/-- The distance of two positions in m, rounded up. -/
def distanceM (a b : Int × Int × Int) : Nat :=
  let d := (a.1 - b.1) ^ 2 + (a.2.1 - b.2.1) ^ 2 + (a.2.2 - b.2.2) ^ 2
  let r := isqrt d.toNat
  ceilDiv (if r * r = d.toNat then r else r + 1) 1000

/-- The common-view pairs of the members with SKY: nearest first, at most 4 a member. -/
def cvPairs (l : List (Nat × Nat × Nat)) : List (Nat × Nat) :=
  (sortBy (fun a b => decide (a.1 ≤ b.1)) l).foldl (fun acc (_, a, b) =>
    let deg (x : Nat) : Nat := (acc.filter fun p => p.1 == x || p.2 == x).length
    if deg a < 4 ∧ deg b < 4 then acc ++ [(a, b)] else acc) []

/-- NEIGHBOURS every 10 s to each member (R390); biases of pairs that are gone are discarded (R399). -/
def State.neighboursSend (s : State) : State :=
  let due := match s.lake.neighAt with | some t => decide (t + 10 * SEC ≤ s.elapsed) | none => true
  if !due then s
  else
    let s := { s with lake := { s.lake with neighAt := some s.elapsed } }
    let ms := s.lake.realm.mems.filter (·.seen)
    let sky (m : EnsMem) : Bool := match m.skyAt with | some t => decide (s.elapsed ≤ t + 10 * SEC) | none => false
    let near (m : EnsMem) : List (Nat × EnsMem) :=
      match m.pos with
      | none => []
      | some p => sortBy (fun a b => decide (a.1 ≤ b.1)) (ms.filterMap fun x =>
          match x.pos with
          | some q => if x.addr ≠ m.addr ∧ distanceM p q ≤ 2000 then some (distanceM p q, x) else none
          | none => none)
    let pairs := if s.getB K.lakeEnsemble_CvEnable then
        cvPairs (ms.flatMap fun m => (near m).filterMap fun x =>
          if m.addr < x.2.addr ∧ sky m ∧ sky x.2 then some (x.1, m.addr, x.2.addr) else none)
      else []
    let paired (a b : Nat) : Bool := pairs.any fun p => (p.1 == a && p.2 == b) || (p.1 == b && p.2 == a)
    let keep := s.lake.realm.bias.filter fun b => paired b.a b.b
    let s := { s with lake := { s.lake with realm := { s.lake.realm with bias := keep } } }
    ms.foldl (fun s m =>
      let l := (near m).take 16
      let b := l.flatMap fun x => toBytes 2 x.2.addr ++ toBytes 2 x.1
        ++ [b2n (sky x.2) + 2 * b2n (paired m.addr x.2.addr) + 4 * b2n (paired m.addr x.2.addr && decide (m.addr < x.2.addr)), 0]
      s.netSend 12 0 m.addr ([5, l.length] ++ b)) s

/-! ### The epoch at the root -/

/-- Reports of this epoch whose edges, mapped through the network solution, lie within 50 ms of the root's (R367). -/
def inEpoch (edge : Nat) (reps : List Report) (q : List (Nat × Int × Rat)) : List Report :=
  reps.filter fun x =>
    let e : Int := (x.tick * MS : Nat) - divRound ((qOf q x.source).getD 0) FINE
    decide ((e - edge).natAbs ≤ 50 * MS)

/-- The root's own valid estimate of the last 10 s, carried forward to its epoch edge. -/
def ownEstimate (s : State) (edge : Nat) : Option Int :=
  match s.lake.estAt, s.lake.est with
  | some t, some e => if s.elapsed ≤ t + 10 * SEC then some (carried e.1 e.2.1 e.2.2 edge * FINE) else none
  | _, _ => none

/-- ENSEMBLE_EPOCH (R375): 30 ms to 50 ms after the root's epoch edge. `origin` is the stepped member with the lowest
ErrorEstimate, which the reports do not give (log entry 24). -/
def State.ensembleEpoch (s : State) (origin : Nat) : State :=
  let role := s.get K.lakeRoot_EnsembleRole
  match s.lake.open_ with
  | none => s
  | some (edge, since) =>
    if role ≠ 1 ∧ role ≠ 3 then { s with lake := { s.lake with open_ := none, reports := [] } }
    else if s.elapsed < since + 30 * MS then s
    else if since + 50 * MS < s.elapsed then
      ({ s with lake := { s.lake with open_ := none, reports := [] } }).flag K.lakeRoot_RootFlags 1 K.lakeRoot_EpochsLate
    else
      let root := ownAddr s
      let q0 := netSolve root (linkMeas s s.lake.reports)
      let reps := inEpoch edge s.lake.reports q0
      let ls := linkMeas s reps
      let q1 := netSolve root ls
      let r := takeReports root reps s.lake.realm
      let whole := edge % SEC == 0
      let cv := cvMeas s whole reps q1 r.bias
      let q := netSolve root (ls ++ cv.1.filter fun m => (qOf q1 m.a).isSome && (qOf q1 m.b).isSome)
      let r := { r with bias := cv.2 }
      let tick := edge / MS
      -- τ is 0.1 s; a state taken from a replica is carried forward from its own epoch
      let dt := if r.carry then tick - r.tick else 100
      let res : Option (Realm × Int × Bool) :=
        if r.begun then some (ensembleStep s root dt q r)
        else (seed root origin (ownEstimate s edge) reps q r).map fun p => (p.1, p.2, false)
      let s := { s with lake := { s.lake with open_ := none } }
      let s := match res with
        | none => { s with lake := { s.lake with realm := { r with tick := tick } } }
        | some (r, a, empty) =>
          let r := noteOffsets s a reps q { r with tick := tick, carry := false }
          let s := { s with lake := { s.lake with realm := r } }
          let s := if empty then s.flag K.lakeRoot_RootFlags 4 K.lakeRoot_EmptyEpochs else s
          if whole then s.gnssSteer q (toTime96 ((edge : Int) + divRound a FINE).toNat) else s
      let r := s.lake.realm
      let s := ((s.set K.lakeRoot_EnsembleTick tick).set K.lakeRoot_Contributors (min 4094 r.contribs.length)).setI K.lakeRoot_LakeSteer 6
        (divRound r.s FINE)
      let s := ((s.setI K.lakeRoot_GnssOffset 8 (toDur r.gHat)).set K.lakeRoot_GnssSigma (min 0xFFFFFFFF r.gSigma)).set
        K.lakeRoot_LastGnssInput r.lastGnss
      let a := res.map fun x => x.2.1
      let s := reps.foldl (fun s x => s.netSend 12 0 x.source (estimateBody s x a q)) s
      let s := { s with lake := { s.lake with reports := [] } }
      let s := if role = 1 then
          [s.get K.network_Standby1, s.get K.network_Standby2].foldl (fun s a => if a = root then s else s.replicaSend a) s
        else s
      if role = 1 then s.neighboursSend else s

/-- REPORT at the root (R367): one that arrives later than 30 ms after the root's edge is ignored. -/
def State.reportIn (s : State) : State :=
  match s.lakeTake 1 with
  | (none, s) => s
  | (some f, s) =>
    match reportOf f.source f.body with
    | none => s.netBad
    | some r =>
      let role := s.get K.lakeRoot_EnsembleRole
      match s.lake.open_ with
      | some (_, since) =>
        if (role ≠ 1 ∧ role ≠ 3) ∨ since + 30 * MS < s.elapsed then s
        else
          let input := match r.gnss with
            | some (x, sg, age) => [(r.source, x, sg, r.tick * MS - age * 100 * MS)]
            | none => []
          let l := s.lake.reports.filter (fun x => x.source != r.source) ++ [r]
          { s with lake := { s.lake with reports := l, inputs := s.lake.inputs ++ input } }
      | none => s

/-! ### Roles (R383 to R388) -/

/-- A new realisation of this root (R383). -/
def State.realmBegin (s : State) : State :=
  let n := (s.lake.genCount + 1) % 2 ^ 20
  let r := { Realm.reset with gen := ownAddr s * 2 ^ 20 + n }
  { s with lake := { s.lake with genCount := n, realm := r } }

/-- A replica no more than 1 s old. -/
def freshReplica (s : State) : Option Realm :=
  match s.lake.replica with
  | some (r, t) => if s.elapsed ≤ t + SEC then some r else none
  | none => none

/-- EnsembleRole follows MemberState: a device that becomes ROOT takes the replica it holds, or begins a generation. -/
def State.roleJudge (s : State) : State :=
  let role := s.get K.lakeRoot_EnsembleRole
  let m := memberState s
  if m = 4 then
    if role = 1 then s
    else
      let s := if role = 3 then s
        else match freshReplica s with
          | some r => { s with lake := { s.lake with realm := { r with carry := true } } }
          | none => s.realmBegin
      ({ s with lake := { s.lake with open_ := none, reports := [], inputs := [], stopActing := false } }).set K.lakeRoot_EnsembleRole 1
  else if role = 3 ∧ m = 3 then s
  else
    let v := if m = 3 then 2 else 0
    if role = v then s
    else
      let s := { s with lake := { s.lake with open_ := none, reports := [], inputs := [], realm := Realm.reset } }
      let s := s.set K.lakeRoot_EnsembleRole v
      -- on a device with EnsembleRole NONE subindices 0x02 to 0x09 read zero
      if v = 0 then
        [K.lakeRoot_EnsembleTick, K.lakeRoot_Contributors, K.lakeRoot_GnssInputs, K.lakeRoot_LakeSteer, K.lakeRoot_GnssOffset,
          K.lakeRoot_GnssSigma, K.lakeRoot_LastGnssInput, K.lakeRoot_RootFlags].foldl (fun s k => s.set k 0) s
      else s

/-- Other live devices that hold the root role. -/
def otherRoots (s : State) : List Lsa := (liveDb s).filter fun (l : Lsa) => l.state == 4 && l.uid != ownUid s

/-- RANK to another root (R388); OFFER, of which the spec says no more than its type, is a free value. -/
def State.rankSend (s : State) (toward : Nat) : State :=
  let offer := s.freeVal % 2 ^ 96
  let s := s.takeFree
  s.netSend 12 0 toward ([10] ++ toBytes 4 s.lake.realm.gen ++ [b2n (realmTraceable s), 0] ++ toBytes 4 (realmError s)
    ++ toBytes 2 s.lake.realm.contribs.length ++ toBytes 12 offer)

/-- This device is the one the election names. -/
def electedHere (s : State) : Bool := match (elect s).1 with | some l => l.uid == ownUid s | none => false

/-- ROOT_ELECTION (R331, R388): where two roots meet, each sends RANK to the other, and the one that does not keep the role
gives it up when RANK has come. -/
def State.rootElection (s : State) (replica : List (Nat × Nat)) : State :=
  let settled := s.atEdge && decide (200 ≤ s.since s.net.dbAt)
  if !settled then s
  else
    let others := otherRoots s
    let meets := memberState s == 4 && !others.isEmpty
    let s := if meets then others.foldl (fun s l => s.rankSend l.addr) s else s
    if meets ∧ !electedHere s then s else (s.electRoot replica).roleJudge

/-- The role is given up to the elected root. -/
def State.roleGive (s : State) : State :=
  let e := elect s
  let me := ownUid s
  let is (o : Option Lsa) : Bool := match o with | some l => l.uid == me | none => false
  let addr (o : Option Lsa) : Nat := match o with | some l => l.addr | none => 0
  let s := s.memberSet (if is e.2.1 || is e.2.2 then 3 else 2)
  let s := ({ s with net := { s.net with root := match e.1 with | some l => l.uid | none => 0 } }).flag K.network_NetFlags 0 K.network_RootChanges
  (((s.set K.network_RootAddress (addr e.1)).set K.network_Standby1 (addr e.2.1)).set K.network_Standby2 (addr e.2.2)).roleJudge

/-- RANK (R388): the surviving realisation, and who takes it. -/
def State.rankIn (s : State) : State :=
  match s.lakeTake 10 with
  | (none, s) => s
  | (some f, s) =>
    let b := f.body
    if b.length ≠ 25 ∨ 2 ≤ byteAt b 5 ∨ byteAt b 6 ≠ 0 then s.netBad
    else if memberState s ≠ 4 ∨ s.get K.lakeRoot_EnsembleRole ≠ 1 then s
    else
      let tMe := realmTraceable s
      let tYou := bit (byteAt b 5) 0
      let eMe := realmError s
      let eYou := field b 7 4
      let nMe := s.lake.realm.contribs.length
      let nYou := field b 11 2
      let keep := electedHere s
      let mine := if tMe ≠ tYou then tMe else if eMe ≠ eYou then decide (eMe < eYou)
        else if nMe ≠ nYou then decide (nYou < nMe) else keep
      if keep then
        let s := s.flag K.lakeRoot_RootFlags 2 K.lakeRoot_Merges
        { s with lake := { s.lake with merging := !mine } }
      else (if mine then s.replicaSend f.source else s).roleGive

/-! ### REPLICA (R384, R385, R388) -/

/-- The realisation that the frames of a replica spell, which has come from `source` at an elapsed time. The last GNSS input is as
old as LAST_GNSS lies before the Lake time of the replica's epoch. -/
def realmOf (source ms : Nat) (frags : List (List Nat)) : Realm :=
  let b := frags.headD []
  let mem (f : List Nat) (i : Nat) : EnsMem :=
    let a := 51 + 32 * i
    let e := field f (a + 26) 4
    { addr := field f a 2, contrib := bit (byteAt f (a + 2)) 0, u := toInt 8 (field f (a + 4) 8) * FINE,
      r := toInt 6 (field f (a + 12) 6) * FINE,
      steer := divRound (toInt 8 (field f (a + 18) 8) * (2 ^ 48 : Nat)) SEC, eps2 := e * FINE, run := 0, missed := 0, hist := [],
      modelY := 0, modelD := 0, pos := none, skyAt := none, seen := false }
  let cv (f : List Nat) (i : Nat) : CvBias :=
    let a := 51 + 32 * field f 3 2 + 16 * i
    ⟨field f a 2, field f (a + 2) 2, field f (a + 4) 2, toInt 8 (field f (a + 8) 8) * FINE⟩
  let g := toInt 8 (field b 31 8) * FINE
  let last := field b 39 12
  let mems := frags.flatMap fun f => (List.range (field f 3 2)).map (mem f)
  let aRoot : Int := match mems.find? fun m => m.addr == source with | some m => m.u - steerOff m.steer | none => 0
  let age := (((field b 11 8 * MS : Nat) : Int) + divRound aRoot FINE - ofTime96 last).toNat
  { gen := field b 7 4, begun := true, mems := mems,
    bias := frags.flatMap fun f => (List.range (field f 5 2)).map (cv f),
    s := toInt 6 (field b 19 6) * FINE, sI := toInt 6 (field b 25 6) * FINE, gHat := g, gSigma := 0, lastGnss := last,
    gnssAt := if last = 0 ∨ ms < age then none else some (ms - age), e0 := if last = 0 then errUnknown else min 0xFFFFFFFE (ratRound (offPs g)).natAbs,
    tick := field b 11 8, carry := true }

/-- A complete replica has come: kept by a standby; taken by a root that resumes or merges; answered by an acting standby. -/
def State.replicaWhole (s : State) (source : Nat) (r : Realm) : State :=
  let role := s.get K.lakeRoot_EnsembleRole
  if role = 1 then
    { s with lake := { s.lake with realm := { r with carry := true }, merging := false } }
  else if role = 3 then ({ s with lake := { s.lake with stopActing := true } }).replicaSend source
  else { s with lake := { s.lake with replica := some (r, s.elapsed) } }

/-- REPLICA: a fragment; a new epoch before the last was whole counts it incomplete. -/
def State.replicaIn (s : State) : State :=
  match s.lakeTake 3 with
  | (none, s) => s
  | (some f, s) =>
    let b := f.body
    let n := byteAt b 2
    let cvs := 51 + 32 * field b 3 2
    let reserved := (List.range (field b 3 2)).any (fun i =>
        decide (2 ≤ byteAt b (53 + 32 * i)) || byteAt b (54 + 32 * i) != 0 || field b (81 + 32 * i) 2 != 0)
      || (List.range (field b 5 2)).any fun i => field b (cvs + 16 * i + 6) 2 != 0
    if b.length ≠ cvs + 16 * field b 5 2 ∨ n ≤ byteAt b 1 ∨ reserved then s.netBad
    else
      let role := s.get K.lakeRoot_EnsembleRole
      let welcome := ((role = 2 ∨ role = 3) ∧ f.source = rootAddr s)
        ∨ (role = 1 ∧ memberState s = 4 ∧ (s.lake.merging ∨ f.source = s.get K.network_Standby1))
      if !welcome then s
      else
        let tick := field b 11 8
        let part : List (Nat × List Nat) := match s.lake.frags with
          | some (src, t, k, l) => if src = f.source ∧ t = tick ∧ k = n then l.filter (fun p => p.1 != byteAt b 1) else []
          | none => []
        let broken := match s.lake.frags with | some (src, t, _, _) => src == f.source && t != tick | none => false
        let s := if broken then s.flag K.lakeRoot_RootFlags 3 K.lakeRoot_ReplicaIncomplete else s
        let l := insertBy (fun x y => decide (x.1 ≤ y.1)) (byteAt b 1, b) part
        if l.length = n then
          let s := { s with lake := { s.lake with frags := none } }
          s.replicaWhole f.source (realmOf f.source s.elapsed (l.map (·.2)))
        else { s with lake := { s.lake with frags := some (f.source, tick, n, l) } }

/-- Three consecutive epochs have brought no ESTIMATE: one of them may come until 50 ms after its edge (R367, R385). -/
def threeSilent (s : State) : Bool :=
  decide (3 < s.lake.silent) || (s.lake.silent == 3 && match s.lake.epoch with
    | some t => decide (t + 50 ≤ s.time.tick)
    | none => false)

/-- ACTING_TAKEOVER (R385): Standby1 has had no ESTIMATE in three consecutive epochs of one root. -/
def State.actingTake (s : State) : State :=
  if memberState s = 3 ∧ s.get K.network_Standby1 = ownAddr s ∧ ownAddr s ≠ 0 ∧ threeSilent s ∧ s.lake.silentRoot = rootAddr s ∧ s.get K.lakeRoot_EnsembleRole = 2
      ∧ s.getB K.lake_LakeEnable then
    let s := match s.lake.replica with
      | some (r, _) => { s with lake := { s.lake with realm := { r with carry := true } } }
      | none => s.realmBegin
    ({ s with lake := { s.lake with open_ := none, reports := [], inputs := [], acting := some (ownAddr s) } }).set K.lakeRoot_EnsembleRole 3
  else s

end Sys2Proof.Machine
end

