-- ==== Sys2Proof/Machine/Ptp.lean ====
section
/-!
DEFINITION. IEEE 1588 on Ethernet ports (spec/09, R315 to R319). The message formats and the comparison of data sets are those
of IEEE 1588-2019, which the spec names (log entry 20).
-/

namespace Sys2Proof.Machine

/-- PTP time of an instant of Pond time, in the DUR64 unit (R316). -/
def ptpOf (pond : Int) : Int := pond + (315964819 * SEC : Nat)

/-- A correctionField that an addition would overflow takes its largest value (R317). -/
def corrCap (c : Int) : Int := if (2 ^ 63 : Nat) ≤ c then (2 ^ 63 - 1 : Nat) else c

/-- Change PTP of one port. -/
def State.modPtp (s : State) (n : Nat) (f : PtpSt → PtpSt) : State := s.modPort n fun p => { p with ptp := f p.ptp }
/-- PTP of one port. -/
def State.ptp (s : State) (n : Nat) : PtpSt := (s.port n).ptp
/-- PtpState of a port. -/
def ptpState (s : State) (n : Nat) : Nat := s.get (K.ptpPort_PtpState n)

/-- A message leaves a port. -/
def State.ptpSend (s : State) (n : Nat) (m : PtpMsg) : State :=
  (s.count (K.port_FramesTx n) 6).modPtp n fun p => { p with sent := some m }

/-- The identity of a port: clockIdentity and port number from 1. -/
def portIdentity (s : State) (n : Nat) : Nat := (s.get K.ptpClock_ClockIdentity % 2 ^ 64) * 65536 + n + 1

/-- A log2 interval in the DUR64 unit. -/
def logInterval (i : Int) : Nat := if i < 0 then SEC / 2 ^ (-i).toNat else SEC * 2 ^ i.toNat

/-! ### Clock quality (R316, R318) -/

/-- clockClass by TimingState and ErrorEstimate. -/
def clockClass (s : State) : Nat :=
  let e := s.get K.pondTime_ErrorEstimate
  if s.timing = 0 then 248 else if s.timing = 2 then 6 else if s.timing = 4 then 160
  else if errExceeds e (s.get K.ptpClock_HoldoverSpecLimit) then 140 else 7

/-- clockAccuracy by ErrorEstimate in ps. -/
def clockAccuracy (s : State) : Nat :=
  let e := s.get K.pondTime_ErrorEstimate
  if s.timing = 0 ∨ e = errUnknown then 0xFE
  else if e ≤ 25000 then 0x20 else if e ≤ 100000 then 0x21 else if e ≤ 250000 then 0x22
  else if e ≤ 1000000 then 0x23 else if e ≤ 2500000 then 0x24 else if e ≤ 10000000 then 0x25 else 0xFE

/-- The quality this clock announces; the timeSource of a time set by the host is a free value, since R318 gives none. -/
def ownQuality (s : State) : PtpQuality :=
  let src := s.get K.pondTime_TimeSource
  { prio1 := 128, cls := clockClass s, acc := clockAccuracy s, var := if s.timing = 2 then 0x4E5D else 0xFFFF,
    prio2 := s.get K.ptpClock_Priority2, gm := s.get K.ptpClock_ClockIdentity % 2 ^ 64, steps := 0,
    src := if s.timing = 3 ∨ s.timing = 4 then 0xA0 else if src = 1 then 0x20 else if src = 2 then 0x90 else s.freeVal % 256 }

/-- One quality is better than another: by class, accuracy, variance and priority2, then (G.8275.1, when neither class is
below 128) by localPriority of the receiving port, then by identity and distance; the other profiles compare priority1 first. -/
def qualityBetter (g8275 : Bool) (lpA lpB : Nat) (a b : PtpQuality) : Bool :=
  let key (q : PtpQuality) (lp : Nat) : List Nat :=
    if g8275 then [q.cls, q.acc, q.var, q.prio2, lp, q.gm, q.steps] else [q.prio1, q.cls, q.acc, q.var, q.prio2, q.gm, q.steps]
  let rec less : List Nat → List Nat → Bool
    | x :: l, y :: m => decide (x < y) || (x == y && less l m)
    | _, _ => false
  less (key a lpA) (key b lpB)

/-! ### Port states (R315, R316, R319) -/

/-- The best foreign quality of all ports that follow the BMCA, with its port. -/
def bestForeign (s : State) : Option (Nat × PtpQuality) :=
  let g := s.get K.ptpClock_Profile == 0
  ((List.range 32).filter fun n => s.get (K.ptpPort_PortRole n) == 1 && decide (1 ≤ ptpState s n)).foldl (fun (o : Option (Nat × PtpQuality)) n =>
    match (s.ptp n).foreign, o with
    | some (q, _), none => some (n, q)
    | some (q, _), some (m, r) => if qualityBetter g 128 128 q r then some (n, q) else some (m, r)
    | none, o => o) none

/-- PtpState as the settings, the link, TimingState and the Announces heard give it. -/
def ptpJudged (s : State) (n : Nat) : Nat :=
  if !(s.getB K.ptpClock_PtpEnable && s.getB (K.ptpPort_PtpPortEnable n)) then 0
  else if !ethUp s n then 5
  else if s.timing = 0 then 1
  else
    let role := s.get (K.ptpPort_PortRole n)
    if role = 2 then 1
    else if role = 0 then 2
    else
      let own := ownQuality s
      let g := s.get K.ptpClock_Profile == 0
      let lp := s.get K.ptpClock_LocalPriority
      match (s.ptp n).foreign with
      | none =>
        let wait := s.get (K.ptpPort_AnnounceReceiptTimeout n) * logInterval (s.getI (K.ptpPort_LogAnnounceInterval n) 1)
        if (s.ptp n).heardAt + wait ≤ s.elapsed ∨ ptpState s n = 2 then 2 else 1
      | some (q, _) =>
        if !qualityBetter g 128 lp q own then 2
        else if own.cls ≤ 127 then 4
        else match bestForeign s with
          | some (m, b) => if m = n then 3 else if b.gm = q.gm then 4 else 2
          | none => 2

/-- A port's PtpState is judged again; leaving SLAVE ends its measurement. -/
def State.ptpJudge (s : State) (n : Nat) : State :=
  let old := ptpState s n
  let new := ptpJudged s n
  if old = new then s
  else
    let s := s.set (K.ptpPort_PtpState n) new
    let s := if old = 0 ∨ old = 5 then s.modPtp n fun p => { p with heardAt := s.elapsed } else s
    if new = 3 then s else s.modPtp n fun p => { p with sync := none, down := none, req := none }

/-- Every port, and the clock objects (R318), at a tick edge. -/
def State.ptpTick (s : State) : State :=
  let s := (s.set K.ptpClock_ClockClass (clockClass s)).set K.ptpClock_ClockAccuracy (clockAccuracy s)
  let s := s.setI K.ptpClock_CurrentUtcOffset 2 (s.getI K.utc_LeapOffset 2 + 19)
  if s.getB K.ptpClock_PtpEnable then (List.range 32).foldl (fun s n => s.ptpJudge n) s
  else (List.range 32).foldl (fun s n => if ptpState s n = 0 then s else s.ptpJudge n) s

/-! ### Sending -/

/-- Egress, and ingress, of a message at the ball at the present instant (R306, R315). -/
def egress (s : State) (n : Nat) : Int := ptpOf ((s.time.now : Int) + factoryDelay s (K.port_TxDelayEth n))
def ingress (s : State) (n : Nat) : Int := ptpOf ((s.time.now : Int) - factoryDelay s (K.port_RxDelayEth n))

/-- SYNC_INTERVAL (R317): one-step, originTimestamp the egress stamp truncated to whole ns, the rest in correctionField. -/
def State.syncSend (s : State) (n : Nat) : State :=
  let p := s.ptp n
  if decide (n < 32) && s.fwUp && ptpState s n == 2 && decide (p.syncAt + logInterval (s.getI (K.ptpPort_LogSyncInterval n) 1) ≤ s.elapsed) then
    let t := (egress s n).toNat
    let m : PtpMsg := ⟨0, s.get K.ptpClock_DomainNumber, p.syncSeq, portIdentity s n, false, (t % 65536 : Nat), t / 65536, 0, none⟩
    (s.ptpSend n m).modPtp n fun p => { p with syncSeq := (p.syncSeq + 1) % 65536, syncAt := s.elapsed }
  else s

/-- ANNOUNCE_INTERVAL (R318). -/
def State.announceSend (s : State) (n : Nat) : State :=
  let p := s.ptp n
  if decide (n < 32) && s.fwUp && ptpState s n == 2 && decide (p.annAt + logInterval (s.getI (K.ptpPort_LogAnnounceInterval n) 1) ≤ s.elapsed) then
    let m : PtpMsg := ⟨11, s.get K.ptpClock_DomainNumber, p.annSeq, portIdentity s n, false, 0, 0, 0, some (ownQuality s)⟩
    let s := (s.ptpSend n m).modPtp n fun p => { p with annSeq := (p.annSeq + 1) % 65536, annAt := s.elapsed }
    s.takeFree
  else s

/-- DELAY_REQ_INTERVAL (R315): Delay_Req by a SLAVE under E2E, Pdelay_Req by any running port under P2P. -/
def State.delaySend (s : State) (n : Nat) : State :=
  let p := s.ptp n
  let st := ptpState s n
  let p2p := s.get (K.ptpPort_DelayMechanism n) == 1
  let may := if p2p then decide (1 ≤ st) && decide (st ≤ 4) && s.timing != 0 else st == 3
  if decide (n < 32) && s.fwUp && may && decide (p.reqAt + logInterval (s.getI (K.ptpPort_LogDelayReqInterval n) 1) ≤ s.elapsed) then
    let t := egress s n
    let m : PtpMsg := ⟨if p2p then 2 else 1, s.get K.ptpClock_DomainNumber, p.reqSeq, portIdentity s n, false, 0, 0, 0, none⟩
    (s.ptpSend n m).modPtp n fun p => { p with reqSeq := (p.reqSeq + 1) % 65536, reqAt := s.elapsed, req := some (p.reqSeq, t) }
  else s

/-! ### Receiving -/

/-- A message the port takes: PTP runs on it and the domain is its own. -/
def ptpTakes (s : State) (n : Nat) (m : PtpMsg) : Bool := decide (1 ≤ ptpState s n) && decide (ptpState s n ≤ 4) && m.domain == s.get K.ptpClock_DomainNumber

/-- A received frame counts; a message of another type than its event counts BAD_MESSAGE. -/
def State.ptpHeard (s : State) (n kind : Nat) (m : PtpMsg) (f : State → State) : State :=
  if !ethUp s n then s
  else
    let s := s.count (K.port_FramesRx n) 6
    if m.kind != kind then s.flag (K.ptpPort_PtpFlags n) 1 (K.ptpPort_BadMessages n)
    else if ptpTakes s n m then f s else s

/-- The transparent role of a port. -/
def transparent (s : State) (n : Nat) : Bool := s.get (K.ptpPort_PortRole n) == 2

/-- A message is forwarded to every other TRANSPARENT port (R317); `out` gives each port's egress after t0, the present
instant where it names none. An event message gains its residence time, Sync under P2P also the ingress port's path
delay; a two-step Sync leaves them to its Follow_Up. -/
def State.ptpForward (s : State) (n : Nat) (m : PtpMsg) (event : Bool) (out : List (Nat × Nat)) : State :=
  ((List.range 32).filter fun k => k != n && transparent s k && ethUp s k && s.getB (K.ptpPort_PtpPortEnable k)).foldl (fun s k =>
    let o := match out.find? fun p => p.1 == k with
      | some p => ((s.time.t0 + p.2 : Nat) : Int)
      | none => (s.time.now : Int)
    let rt := ptpOf (o + factoryDelay s (K.port_TxDelayEth k)) - ingress s n
    let add := if event then
        rt + (if m.kind = 0 ∧ s.get (K.ptpPort_DelayMechanism n) = 1 then s.getI (K.ptpPort_MeanPathDelay n) 8 else 0)
      else 0
    if event ∧ m.kind = 0 ∧ m.twoStep = true then
      (s.ptpSend k m).modPtp k fun p => { p with resid := ((m.source, m.seq, add) :: p.resid).take 16 }
    else s.ptpSend k { m with corr := corrCap (m.corr + add) }) s

/-- OffsetFromMaster of a Sync used: t2 - t1 less the path delay (R315). -/
def State.syncUse (s : State) (n : Nat) (down : Int) : State :=
  let s := s.modPtp n fun p => { p with down := some down }
  s.setI (K.ptpPort_OffsetFromMaster n) 8 (down - s.getI (K.ptpPort_MeanPathDelay n) 8)

/-- SYNC (R317). -/
def State.syncIn (s : State) (n : Nat) (m : PtpMsg) (out : List (Nat × Nat)) : State :=
  s.ptpHeard n 0 m fun s =>
    if transparent s n then s.ptpForward n m true out
    else if ptpState s n = 3 ∧ (s.ptp n).foreign.any (fun f => f.2 == m.source) = true then
      if m.twoStep then s.modPtp n fun p => { p with sync := some (m.seq, m.source, ingress s n, m.corr) }
      else s.syncUse n (ingress s n - ((m.ts * 65536 : Nat) : Int) - m.corr)
    else s

/-- FOLLOW_UP (R317). -/
def State.followIn (s : State) (n : Nat) (m : PtpMsg) : State :=
  s.ptpHeard n 8 m fun s =>
    if transparent s n then
      ((List.range 32).filter fun k => k != n && transparent s k && ethUp s k).foldl (fun s k =>
        match (s.ptp k).resid.find? fun r => r.1 == m.source && r.2.1 == m.seq with
        | none => s
        | some r => (s.ptpSend k { m with corr := corrCap (m.corr + r.2.2) }).modPtp k fun p => { p with resid := p.resid.erase r }) s
    else match (s.ptp n).sync with
      | some (q, src, t2, c) =>
        if ptpState s n = 3 ∧ q = m.seq ∧ src = m.source then
          (s.modPtp n fun p => { p with sync := none }).syncUse n (t2 - ((m.ts * 65536 : Nat) : Int) - m.corr - c)
        else s
      | none => s

/-- DELAY_REQ (R315): a MASTER answers with its ingress stamp. -/
def State.delayReqIn (s : State) (n : Nat) (m : PtpMsg) (out : List (Nat × Nat)) : State :=
  s.ptpHeard n 1 m fun s =>
    if transparent s n then s.ptpForward n m true out
    else if ptpState s n = 2 ∧ s.get (K.ptpPort_DelayMechanism n) = 0 then
      let t := (ingress s n).toNat
      s.ptpSend n ⟨9, m.domain, m.seq, portIdentity s n, false, m.corr - (t % 65536 : Nat), t / 65536, m.source, none⟩
    else s

/-- DELAY_RESP (R315): MeanPathDelay of the last Sync and this exchange. -/
def State.delayRespIn (s : State) (n : Nat) (m : PtpMsg) (out : List (Nat × Nat)) : State :=
  s.ptpHeard n 9 m fun s =>
    if transparent s n then s.ptpForward n m false out
    else match (s.ptp n).req, (s.ptp n).down with
      | some (q, t3), some down =>
        if ptpState s n = 3 ∧ q = m.seq ∧ m.requester = portIdentity s n ∧ s.get (K.ptpPort_DelayMechanism n) = 0 then
          let up := ((m.ts * 65536 : Nat) : Int) - m.corr - t3
          let d := divRound (down + up) 2
          ((s.modPtp n fun p => { p with req := none }).setI (K.ptpPort_MeanPathDelay n) 8 d).setI (K.ptpPort_OffsetFromMaster n) 8 (down - d)
        else s
      | _, _ => s

/-- PDELAY_REQ (R315): answered one-step with the turnaround in correctionField, the answer leaving `turn` after t0; forwarded
by a transparent port under E2E. -/
def State.pdelayReqIn (s : State) (n : Nat) (m : PtpMsg) (turn : Nat) (out : List (Nat × Nat)) : State :=
  s.ptpHeard n 2 m fun s =>
    if s.get (K.ptpPort_DelayMechanism n) = 0 then
      if transparent s n then s.ptpForward n m true out else s
    else
      let t3 := ptpOf (((s.time.t0 + turn : Nat) : Int) + factoryDelay s (K.port_TxDelayEth n))
      s.ptpSend n ⟨3, m.domain, m.seq, portIdentity s n, false, corrCap (m.corr + t3 - ingress s n), 0, m.source, none⟩

/-- PDELAY_RESP (R315): the link delay. -/
def State.pdelayRespIn (s : State) (n : Nat) (m : PtpMsg) (out : List (Nat × Nat)) : State :=
  s.ptpHeard n 3 m fun s =>
    if s.get (K.ptpPort_DelayMechanism n) = 0 then
      if transparent s n then s.ptpForward n m true out else s
    else match (s.ptp n).req with
      | some (q, t1) =>
        if q = m.seq ∧ m.requester = portIdentity s n ∧ m.twoStep = false then
          (s.modPtp n fun p => { p with req := none }).setI (K.ptpPort_MeanPathDelay n) 8 (divRound (ingress s n - t1 - m.corr) 2)
        else s
      | none => s

/-- ANNOUNCE (R319): the better of the sender held and the one heard is held. -/
def State.announceIn (s : State) (n : Nat) (m : PtpMsg) (out : List (Nat × Nat)) : State :=
  s.ptpHeard n 11 m fun s =>
    if transparent s n then s.ptpForward n m false out
    else match m.quality with
      | none => s.flag (K.ptpPort_PtpFlags n) 1 (K.ptpPort_BadMessages n)
      | some q =>
        let g := s.get K.ptpClock_Profile == 0
        let hold := match (s.ptp n).foreign with
          | none => (q, m.source)
          | some (r, src) => if src == m.source || qualityBetter g 128 128 q r then (q, m.source) else (r, src)
        let s := s.modPtp n fun p =>
          { p with foreign := some hold, heardAt := if hold.2 = m.source then s.elapsed else p.heardAt }
        (List.range 32).foldl (fun s k => if ptpState s k = 0 then s else s.ptpJudge k) s

/-- ANNOUNCE_RECEIPT_TIMEOUT (R319). -/
def State.announceTimeout (s : State) (n : Nat) : State :=
  let wait := s.get (K.ptpPort_AnnounceReceiptTimeout n) * logInterval (s.getI (K.ptpPort_LogAnnounceInterval n) 1)
  let st := ptpState s n
  if decide (n < 32) && s.get (K.ptpPort_PortRole n) == 1 && (st == 1 || st == 3 || st == 4) && s.timing != 0
      && decide ((s.ptp n).heardAt + wait ≤ s.elapsed) then
    let s := (s.modPtp n fun p => { p with foreign := none }).flag (K.ptpPort_PtpFlags n) 0 (K.ptpPort_AnnounceTimeouts n)
    (List.range 32).foldl (fun s k => if ptpState s k = 0 then s else s.ptpJudge k) s
  else s

/-- ETHERNET_FRAME_RECEIVED (R298, R319): counted and discarded. -/
def State.ethIn (s : State) (n : Nat) : State := if ethUp s n then s.count (K.port_FramesRx n) 6 else s

/-! ### Writes (R319) -/

/-- Under G8275_1 a DomainNumber outside 24 to 43, an interval other than the profile's and P2P are refused. -/
def ptpRefuses (s : State) (index sub : Nat) (v : Nat) : Bool :=
  if s.get K.ptpClock_Profile ≠ 0 then false
  else if index = 0x7020 then sub = 3 && !(decide (24 ≤ v) && decide (v ≤ 43))
  else if 0x7140 ≤ index ∧ index < 0x7160 then
    (sub == 3 && v == 1) || ((sub == 4 || sub == 5) && v != ofInt 1 (-4)) || (sub == 6 && v != ofInt 1 (-3))
  else false

/-- A write of G8275_1 to Profile sets every port's intervals and its DelayMechanism. -/
def State.ptpWritten (s : State) (index sub : Nat) : State :=
  let s := if index = 0x7020 ∧ sub = 2 ∧ s.get K.ptpClock_Profile = 0 then
      (List.range 32).foldl (fun s n =>
        (((s.setI (K.ptpPort_LogSyncInterval n) 1 (-4)).setI (K.ptpPort_LogDelayReqInterval n) 1 (-4)).setI
          (K.ptpPort_LogAnnounceInterval n) 1 (-3)).set (K.ptpPort_DelayMechanism n) 0) s
    else s
  if index = 0x7020 then s.ptpTick
  else if 0x7140 ≤ index ∧ index < 0x7160 then s.ptpJudge (index - 0x7140)
  else s

/-- PTP at a warm reset: nothing is sent until firmware restarts (R324); what was heard is lost. -/
def State.ptpReset (s : State) : State := (List.range 32).foldl (fun s n => s.modPtp n fun _ => PtpSt.reset) s

/-! ### Commands -/

/-- ASYM_CAL_PERIOD (R311). -/
def execAsymCalPeriod (n : Nat) (peer : Int) (sigma : Nat) (s : State) : Host.Outcome State Fault Refusal := .next (s.asymCal n peer sigma)
/-- SIGNAL_DETECT (R300). -/
def execSignalDetect (n : Nat) (s : State) : Host.Outcome State Fault Refusal := .next (s.signalDetect n)
/-- GROUP_REFERENCE_VALID (R299). -/
def execGroupReferenceValid (k : Nat) (s : State) : Host.Outcome State Fault Refusal := .next (s.groupValid k)
/-- TRAINING_COMPLETE (R300): `eth` at 1.25 Gbaud. -/
def execTrainingComplete (n : Nat) (eth : Bool) (s : State) : Host.Outcome State Fault Refusal := .next (s.trainingComplete n eth)
/-- AUTO_MODE_SWITCH (R298). -/
def execAutoModeSwitch (n at_ : Nat) (s : State) : Host.Outcome State Fault Refusal := .next ((s.reach (s.time.t0 + at_)).autoSwitch n)
/-- TRAIN_FAIL (R300). -/
def execTrainFail (n at_ : Nat) (s : State) : Host.Outcome State Fault Refusal := .next ((s.reach (s.time.t0 + at_)).trainFail n)
/-- TRAIN_RETRY (R300). -/
def execTrainRetry (n at_ : Nat) (s : State) : Host.Outcome State Fault Refusal := .next ((s.reach (s.time.t0 + at_)).trainRetry n)
/-- LOS (R300). -/
def execLos (n : Nat) (group : Bool) (s : State) : Host.Outcome State Fault Refusal := .next (s.los n group)
/-- HELLO (R301). -/
def execHello (n : Nat) (frame : List Nat) (s : State) : Host.Outcome State Fault Refusal := .next (s.hello n frame)
/-- DATA (R304). -/
def execLinkData (n : Nat) (frame : List Nat) (at_ : Nat) (s : State) : Host.Outcome State Fault Refusal :=
  .next ((s.reach (s.time.t0 + at_)).linkData n frame)
/-- LINK_ACK (R304). -/
def execLinkAck (n : Nat) (frame : List Nat) (at_ : Nat) (s : State) : Host.Outcome State Fault Refusal :=
  .next ((s.reach (s.time.t0 + at_)).linkAck n frame)
/-- NAK (R304). -/
def execNak (n : Nat) (frame : List Nat) (at_ : Nat) (s : State) : Host.Outcome State Fault Refusal :=
  .next ((s.reach (s.time.t0 + at_)).linkNak n frame)
/-- ACK_TIMEOUT (R304). -/
def execAckTimeout (n at_ : Nat) (s : State) : Host.Outcome State Fault Refusal := .next ((s.reach (s.time.t0 + at_)).ackExpire n)
/-- TIMING_FRAME (R307): its start symbol is at the stamp point `at_` after t0. -/
def execTimingFrame (n : Nat) (frame : List Nat) (at_ : Nat) (s : State) : Host.Outcome State Fault Refusal :=
  .next ((s.reach (s.time.t0 + at_)).timingFrameIn n frame)
/-- TIMING_RECORD_POSTED (R309). -/
def execTimingRecordPosted (n at_ : Nat) (s : State) : Host.Outcome State Fault Refusal := .next ((s.reach (s.time.t0 + at_)).recordPost n)
/-- LINK_MISSING (R309). -/
def execLinkMissing (n : Nat) (s : State) : Host.Outcome State Fault Refusal := .next ((s.reach (s.time.t0 + 200 * US)).linkMissing n)
/-- ERROR_SECOND (R313). -/
def execErrorSecond (n errs : Nat) (s : State) : Host.Outcome State Fault Refusal := .next (s.errorSecond n errs)
/-- DEGRADED_RECOVERY (R300). -/
def execDegradedRecovery (n : Nat) (s : State) : Host.Outcome State Fault Refusal := .next (s.recovery n)
/-- FRAME_LAUNCH (R321). -/
def execFrameLaunch (n at_ : Nat) (s : State) : Host.Outcome State Fault Refusal := .next ((s.reach (s.time.t0 + at_)).frameLaunch n)
/-- SYNC_INTERVAL (R317). -/
def execSyncInterval (n at_ : Nat) (s : State) : Host.Outcome State Fault Refusal := .next ((s.reach (s.time.t0 + at_)).syncSend n)
/-- ANNOUNCE_INTERVAL (R318). -/
def execAnnounceInterval (n at_ : Nat) (s : State) : Host.Outcome State Fault Refusal := .next ((s.reach (s.time.t0 + at_)).announceSend n)
/-- DELAY_REQ_INTERVAL (R315). -/
def execDelayReqInterval (n at_ : Nat) (s : State) : Host.Outcome State Fault Refusal := .next ((s.reach (s.time.t0 + at_)).delaySend n)
/-- ANNOUNCE_RECEIPT_TIMEOUT (R319). -/
def execAnnounceReceiptTimeout (n at_ : Nat) (s : State) : Host.Outcome State Fault Refusal := .next ((s.reach (s.time.t0 + at_)).announceTimeout n)
/-- SYNC (R317). -/
def execSync (n : Nat) (m : PtpMsg) (at_ : Nat) (out : List (Nat × Nat)) (s : State) : Host.Outcome State Fault Refusal :=
  .next ((s.reach (s.time.t0 + at_)).syncIn n m out)
/-- FOLLOW_UP (R317). -/
def execFollowUp (n : Nat) (m : PtpMsg) (s : State) : Host.Outcome State Fault Refusal := .next (s.followIn n m)
/-- DELAY_REQ (R315). -/
def execDelayReq (n : Nat) (m : PtpMsg) (at_ : Nat) (out : List (Nat × Nat)) (s : State) : Host.Outcome State Fault Refusal :=
  .next ((s.reach (s.time.t0 + at_)).delayReqIn n m out)
/-- DELAY_RESP (R315). -/
def execDelayResp (n : Nat) (m : PtpMsg) (at_ : Nat) (out : List (Nat × Nat)) (s : State) : Host.Outcome State Fault Refusal :=
  .next ((s.reach (s.time.t0 + at_)).delayRespIn n m out)
/-- PDELAY_REQ (R315). -/
def execPdelayReq (n : Nat) (m : PtpMsg) (at_ turn : Nat) (out : List (Nat × Nat)) (s : State) : Host.Outcome State Fault Refusal :=
  .next ((s.reach (s.time.t0 + at_)).pdelayReqIn n m turn out)
/-- PDELAY_RESP (R315). -/
def execPdelayResp (n : Nat) (m : PtpMsg) (at_ : Nat) (out : List (Nat × Nat)) (s : State) : Host.Outcome State Fault Refusal :=
  .next ((s.reach (s.time.t0 + at_)).pdelayRespIn n m out)
/-- ANNOUNCE (R319). -/
def execAnnounce (n : Nat) (m : PtpMsg) (at_ : Nat) (out : List (Nat × Nat)) (s : State) : Host.Outcome State Fault Refusal :=
  .next ((s.reach (s.time.t0 + at_)).announceIn n m out)
/-- ETHERNET_FRAME_RECEIVED (R319). -/
def execEthernetFrameReceived (n : Nat) (s : State) : Host.Outcome State Fault Refusal := .next (s.ethIn n)

end Sys2Proof.Machine
end

