-- ==== Sys2Proof/Machine/Reader.lean ====
section
/-!
DEFINITION. The Dowser reader (spec/15, R486 to R515): the carrier synthesiser, the field and its limits, commands and
their results, inventory, card detection, delay tags.
-/

namespace Sys2Proof.Machine

/-- Change the reader's own state. -/
def State.modReader (s : State) (f : ReaderSt → ReaderSt) : State := { s with reader := f s.reader }

/-- Carrier cycles as a time (R496): 13.56 MHz. -/
def fcDu (n : Nat) : Nat := n * 6553600000 / 1356

/-- The field is on. -/
def fieldOn (s : State) : Bool := s.getB K.reader_FieldOn
/-- SynthState (R488): 0 OFF, 1 SETTLING, 2 READY, 3 CALIBRATING, 4 HOLD. -/
def synth (s : State) : Nat := s.get K.reader_SynthState
/-- DieTemperature in 0.1 °C. -/
def dieTemp (s : State) : Int := s.getI K.calibration_DieTemperature 2

/-! ### Positions (R486, R498) -/

/-- A position is usable. -/
def posUsable (s : State) (p : Nat) : Bool :=
  decide (p < 128) && s.getB (K.coilPort_PortEnable (p / 32))
    && (let m := s.get (K.coilPort_MuxPositions (p / 32)); if m = 0 then p % 32 == 0 else decide (p % 32 < m))

/-- The other coil port of the diversity pair. -/
def partner (port : Nat) : Nat := if port % 2 = 0 then port + 1 else port - 1

/-! ### ReaderState (R503) -/

/-- An internal job holds the reader. -/
def readerInternal (s : State) : Bool := s.reader.scan.isSome

/-- ReaderState follows what holds the reader. -/
def State.readerJudge (s : State) : State :=
  s.set K.reader_ReaderState
    (if !s.reader.enabled then 0
     else if s.reader.cmd.isSome then 2
     else if readerInternal s then 4
     else if s.getB K.cardDetect_CdEnable then 3 else 1)

/-! ### The synthesiser (R488, R489) -/

/-- SynthState changes at an elapsed time. -/
def State.synthTo (s : State) (t v : Nat) : State :=
  (s.set K.reader_SynthState v).modReader fun r => { r with synthAt := t }

/-- A calibration starts. -/
def State.synthCal (s : State) (t : Nat) : State :=
  let s := s.setI K.reader_SynthCalTemperature 2 (dieTemp s)
  (s.synthTo t 3).modReader fun r => { r with calRun := true, calDue := false, calTried := true, drifted := false }

/-- A waiting trigger takes effect in READY with the field off. -/
def State.synthPend (s : State) (t : Nat) : State :=
  if s.reader.calDue && synth s == 2 && !(fieldOn s) then s.synthCal t else s

/-- A calibration is triggered (R489): with the field on it is deferred, and counted. -/
def State.synthTrigger (s : State) : State :=
  if fieldOn s then
    (s.flag K.reader_ReaderFlags 0 K.reader_CalDeferred).modReader fun r => { r with calDue := true }
  else (s.modReader fun r => { r with calDue := true }).synthPend s.elapsed

/-- The synthesiser leaves OFF for SETTLING. -/
def State.synthStart (s : State) : State :=
  if synth s = 0 ∧ !s.reader.fault then
    let s := s.synthTo s.elapsed 1
    if s.reader.calRun then s else s.modReader fun r => { r with calDue := true }
  else s

/-- CK_REF changes source (R488, R510). -/
def State.synthRefChange (s : State) : State :=
  if synth s = 2 then s.synthTo s.elapsed (if fieldOn s then 4 else 1) else s

/-! ### Command frames (R495, R496) -/

/-- A cyclic check of the contactless standards: least significant bit first, polynomial 0x1021 (log entry 14). -/
def crcContactless (init : Nat) (b : List Nat) : Nat :=
  b.foldl (fun c x => (List.range 8).foldl (fun c i =>
    let f := (c % 2 == 1) != (bit x i)
    if f then Nat.xor (c / 2) 0x8408 else c / 2) c) init

/-- The two bytes of the CRC of a protocol's family, in the order sent. -/
def crcBytes (proto : Nat) (b : List Nat) : List Nat :=
  let c := crcContactless (if proto / 16 = 1 then 0x6363 else 0xFFFF) b
  let c := if proto / 16 = 1 then c else 0xFFFF - c
  [c % 256, c / 256]

/-- The frame ends with the CRC of its family (R496). -/
def crcHolds (proto : Nat) (b : List Nat) : Bool :=
  let n := b.length
  decide (2 ≤ n) && b.drop (n - 2) == crcBytes proto (b.take (n - 2))

/-- Bits of bytes, least significant first. -/
def bitsOf (b : List Nat) : List Nat := b.flatMap fun x => (List.range 8).map fun k => x / 2 ^ k % 2
/-- Bytes of bits. -/
def bytesOfBits : Nat → List Nat → List Nat
  | 0, _ => []
  | n + 1, l => if l.isEmpty then [] else
    ((List.zip (List.range 8) (l.take 8)).map fun (p : Nat × Nat) => p.2 * 2 ^ p.1).sum :: bytesOfBits n (l.drop 8)

/-- The frame an inventory sends next, before its CRC, and whether it has one (R505): of Type A WUPA, anticollision or SELECT
of a cascade level, HLTA; of Type B WUPB, a slot marker, HLTB; of ISO/IEC 15693 the request with 16 slots, or for a later slot
an EOF alone (log entry 14). -/
def invFrame (c : RdrCmd) : List Nat × Nat × Bool :=
  let i := c.inv
  let sel := 0x93 + 2 * i.level
  if c.proto / 16 = 1 then
    match i.stage with
    | 0 => ([0x52], 7, false)
    | 1 =>
      let m := i.mask.length
      ([sel, (2 + m / 8) * 16 + m % 8] ++ bytesOfBits 5 i.mask, 16 + m, false)
    | 2 => ([sel, 0x70] ++ bytesOfBits 5 i.mask, 56, true)
    | _ => ([0x50, 0x00], 16, true)
  else if c.proto / 16 = 2 then
    if i.stage = 4 then ([0x50] ++ (i.found.getLastD []).take 4, 40, true)
    else if i.slot = 0 then ([0x05, byteAt c.data 1, 0x08 + byteAt c.data 0], 24, true)
    else ([i.slot * 16 + 0x05], 8, true)
  else if i.slot ≠ 0 then ([], 0, false)
  else
    let afi := bit (byteAt c.data 1) 0
    let m := bytesOfBits 8 i.mask
    let b := [0x04 + (if c.proto % 2 = 0 then 2 else 0) + (if afi then 0x10 else 0), 0x01]
      ++ (if afi then [byteAt c.data 0] else []) ++ [i.mask.length] ++ m
    (b, 8 * b.length, true)

/-- The bits of the command frame, with its CRC: its bytes in the order sent and how many bits of them. -/
def cmdFrame (c : RdrCmd) : List Nat × Nat :=
  let f := if c.op = 4 then invFrame c else (c.data.take ((c.txbits + 7) / 8), c.txbits, bit c.flags 0)
  if f.2.2 then (f.1 ++ crcBytes c.proto f.1, f.2.1 + 16) else (f.1, f.2.1)

/-- How long the command frame lasts, in fc (R496). -/
def txFc (c : RdrCmd) : Nat :=
  let n := (cmdFrame c).2
  let bitFc := 128 / 2 ^ (c.proto % 16)
  if c.proto / 16 = 1 then (n + n / 8) * bitFc + Config.frameEnds c.proto
  else if c.proto / 16 = 2 then n / 8 * 10 * bitFc + Config.frameEnds c.proto
  else if n = 0 then 512
  else if c.proto % 16 < 2 then 1024 + n / 2 * 1024 + 512
  else n / 8 * 65536 + Config.frameEnds c.proto

/-- The response window opens 64 fc before the nominal response time (R496), which for Type A depends on the last bit sent. -/
def windowOpen (c : RdrCmd) : Nat :=
  let f := cmdFrame c
  let last := bit (byteAt f.1 ((f.2 - 1) / 8)) ((f.2 - 1) % 8)
  if c.proto / 16 = 1 then (if last then 1236 else 1172) - 64
  else if c.proto / 16 = 3 then 4256 else Config.typeBOpen c.proto

/-- The SOF lies in the response window. -/
def inWindow (c : RdrCmd) (respAt : Nat) : Bool := decide (windowOpen c ≤ respAt) && decide (respAt ≤ c.timeout * 128)

/-- The least gap before the next command frame (R496). -/
def frameGap (proto : Nat) : Nat := if proto / 16 = 3 then 4192 else 1172

/-- A command frame is out, or being received. -/
def frameRuns (s : State) (c : RdrCmd) : Bool := match c.startAt with | some t => decide (t ≤ s.elapsed) | none => false

/-- The command frame of the command starts at an elapsed time. -/
def State.frameAt (s : State) (c : RdrCmd) (start : Nat) : State :=
  s.modReader fun r =>
    { r with cmd := some { c with startAt := some start, endAt := start + fcDu (txFc c),
                                  started := toTime96 (s.time.now + start - s.elapsed) } }

/-- The next frame of the command starts a least gap after now. -/
def State.nextFrame (s : State) (c : RdrCmd) (tries : Nat) (inv : InvSt) : State :=
  s.frameAt { c with tries := tries, inv := inv } (s.elapsed + fcDu (frameGap c.proto))

/-! ### Results (R502) -/

/-- The body of an entry of ReaderResultStream, `tries` attempts having been made. -/
def resultEntry (c : RdrCmd) (tries outcome : Nat) (r : RxReport) : List Nat :=
  [c.ref * 256 + outcome, c.pos * 2 ^ 17 + r.coil * 65536 + c.proto * 256 + (min 7 (tries - 1)) * 32,
   (min 4095 r.lq) * 4096, (min 4095 r.amp) * 4096 + min 4095 r.other, (min 4095 (r.viol.getD 4095)) * 4096,
   r.respAt % 2 ^ 24] ++ (List.range 4).map (fun i => c.started / 2 ^ (24 * (3 - i)) % 2 ^ 24)
    ++ [min 256 r.bytes.length] ++ octetWords (r.bytes.take 256)

/-- LastCommandResult of an outcome. -/
def outcomeStatus (outcome : Nat) : Nat :=
  if outcome = 0 ∨ outcome = 9 then St.ok else if outcome = 7 then St.synthBusy else if outcome = 8 then St.busy
  else St.internalFault

/-! ### Field-off and field-on (R487, R490 to R492) -/

/-- The field goes off at an elapsed time: the synthesiser leaves HOLD, a waiting calibration starts. -/
def State.fieldOffAt (s : State) (t : Nat) : State :=
  if fieldOn s then
    let s := s.setB K.reader_FieldOn false
    let s := s.modReader fun r => { r with offAt := some t, spans := (r.onAt, t) :: r.spans, frozen := false }
    let s := if synth s = 4 then s.synthTo t 1 else s
    s.synthPend t
  else s

/-- The field goes off. -/
def State.fieldOff (s : State) : State := s.fieldOffAt s.elapsed

/-- Field-on time in the 1,000 ms before an elapsed time, in the DUR64 unit (R492). -/
def dutyAt (s : State) (t : Nat) : Nat :=
  let l := if fieldOn s then (s.reader.onAt, t) :: s.reader.spans else s.reader.spans
  (l.map fun (p : Nat × Nat) => min p.2 t - max p.1 (t - SEC)).sum

/-- Field-on time in the last 1,000 ms. -/
def dutyUsed (s : State) : Nat := dutyAt s s.elapsed

/-- The field-on time reaches DutyCeiling at an elapsed time. -/
def dutyMet (s : State) (t : Nat) : Bool := decide (s.get K.regulatoryLocks_DutyCeiling * MS ≤ dutyAt s t)

/-- The earliest instant above `lo` and up to `hi` at which it does: while the field is on it can only grow. -/
def dutyHit (s : State) : Nat → Nat → Nat → Nat
  | 0, _, hi => hi
  | n + 1, lo, hi => let m := (lo + hi) / 2; if dutyMet s m then dutyHit s n lo m else dutyHit s n m hi

/-- Intervals older than 1,000 ms no longer count. -/
def State.spansTrim (s : State) : State :=
  s.modReader fun r => { r with spans := r.spans.filter fun (p : Nat × Nat) => decide (s.elapsed - SEC ≤ p.2) }

/-- The command that holds the reader ends (R502): of an inventory with the tags found. The AGC is free again (R497). -/
def State.cmdEnd (s : State) (outcome status : Nat) (r : RxReport) : State :=
  match s.reader.cmd with
  | none => s
  | some c =>
    let made := if frameRuns s c then c.tries else c.tries - 1
    let r := if c.op = 4 then { r with bytes := toBytes 2 c.inv.found.length } else r
    let s := s.append 0x8002 0x0A (resultEntry c made outcome r)
    let s := s.set K.reader_LastCommandResult status
    let gap := s.elapsed + fcDu (frameGap c.proto)
    let s := s.modReader fun r => { r with cmd := none, want := none, frozen := false, gapAt := gap }
    let s := if (c.op = 3 ∨ c.op = 4) ∧ !(bit c.flags 3) then s.fieldOff else s
    s.readerJudge

/-- The command ends with an outcome. -/
def State.cmdOutcome (s : State) (outcome : Nat) (r : RxReport) : State := s.cmdEnd outcome (outcomeStatus outcome) r

/-- Why a field-on ends with BUSY (R492, R494, R602, R618): DUTY_LIMIT sets for the first. -/
def fieldRefused (s : State) : Option Bool :=
  if s.get K.regulatoryLocks_DutyCeiling * MS < dutyUsed s + MS then some true
  else if s.reader.cut ∨ !(bit (s.get K.supplyMonitor_SupplyStatus) 7)
      ∨ (bit (s.get K.reader_ReaderFlags) 5 ∧ s.get K.spectralMask_MaskAction = 1) then some false
  else none

/-- P(s) in mW, rounded: 1,500 mW × 10^((s − 31) / 20) (R491). -/
def fieldPower (step : Nat) : Nat := (1500 * pow10 (5 * ((step : Int) - 31)) + 2 ^ 63) / 2 ^ 64

/-- The field is at power since `t`; its command goes on: FIELD_ON ends, the others start their first frame FieldGuard after
`t`, once the field is theirs from `since` and a least gap is over. -/
def State.fieldUp (s : State) (t since : Nat) : State :=
  let s := s.setB K.reader_FieldOn true
  let s := s.set K.field_StepApplied (min (s.get K.field_PowerStep) (s.get K.regulatoryLocks_FieldPowerCeiling))
  let s := s.modReader fun r => { r with onAt := t, want := none }
  match s.reader.cmd with
  | none => s
  | some c =>
    if c.op = 1 then s.cmdOutcome 0 RxReport.none
    else s.frameAt { c with tries := 1 } (max (max (t + s.get K.field_FieldGuard * MS) since) s.reader.gapAt)

/-! ### Cuts (R492, R412, R512) -/

/-- The field is cut at an elapsed time: the command in progress ends with FIELD_CUT, with the last attempt's frame where the
cut falls between two. -/
def State.fieldCut (s : State) (t : Nat) : State :=
  if fieldOn s then
    let r := match s.reader.cmd with
      | some c => if frameRuns s c then RxReport.none else c.last
      | none => RxReport.none
    ((s.fieldOffAt t).cmdOutcome 6 r).readerJudge
  else s

/-- A timeout cuts the field. -/
def State.timeoutCut (s : State) (hard : Bool) (t : Nat) : State :=
  let s := s.flag K.reader_ReaderFlags 3 K.reader_FieldTimeouts
  (s.log 0x0501 St.ok [s.reader.pos, b2n hard]).fieldCut t

/-- The duty limit cuts the field. -/
def State.dutyCut (s : State) (t : Nat) : State := (s.flag K.reader_ReaderFlags 4 K.reader_DutyLimits).fieldCut t

/-- When a timeout of R492 is due: software, or hardware. -/
def timeoutAt (s : State) (hard : Bool) : Nat :=
  s.reader.onAt + s.get (if hard then K.regulatoryLocks_FieldTimeoutCeiling else K.field_FieldTimeout) * MS

/-- A limit of R492 that has passed before now has cut the field. -/
def State.fieldOverdue (s : State) : State :=
  if fieldOn s then
    let hard := decide (timeoutAt s true < timeoutAt s false)
    let t := timeoutAt s hard
    let d := min t s.elapsed
    let h := dutyHit s 48 s.reader.onAt d
    if dutyMet s d && decide (h < s.elapsed) then s.dutyCut h
    else if t < s.elapsed then s.timeoutCut hard t else s
  else s

/-- SYNTH_BUSY (R490): a field-on has waited 1 ms for the synthesiser. -/
def State.synthBusy (s : State) : State :=
  match s.reader.want with
  | some (_, t) =>
    if synth s ≠ 2 ∧ synth s ≠ 4 ∧ t + MS ≤ s.elapsed then
      (s.flag K.reader_ReaderFlags 2 K.reader_SynthBusyCount).cmdOutcome 7 RxReport.none
    else s
  | none => s

/-- A field-on that waits comes on once its waits are over and the synthesiser is READY or HOLD, which it must be within 1 ms; a
supply or the temperature may refuse it by then. -/
def State.readerSettle (s : State) : State :=
  let s := s.fieldOverdue
  match s.reader.want with
  | none => s
  | some (p, t) =>
    let ready := if synth s = 2 ∨ synth s = 4 then max t s.reader.synthAt else s.elapsed
    if t + MS < ready then (s.flag K.reader_ReaderFlags 2 K.reader_SynthBusyCount).cmdOutcome 7 RxReport.none
    else if (synth s = 2 ∨ synth s = 4) ∧ s.reader.pos = p ∧ ready ≤ s.elapsed then
      if (fieldRefused s).any (!·) then s.cmdOutcome 8 RxReport.none else s.fieldUp ready ready
    else s

/-- A command asks for the field at its position: it is refused, or waits under R487, R490 and R492, or is already there. -/
def State.fieldAsk (s : State) (p : Nat) : State :=
  if fieldOn s ∧ s.reader.pos = p then s.fieldUp s.reader.onAt s.elapsed
  else
    let s := s.fieldOff
    match fieldRefused s with
    | some duty =>
      let s := if duty then s.flag K.reader_ReaderFlags 4 K.reader_DutyLimits else s
      s.cmdOutcome 8 RxReport.none
    | none =>
      let now := s.elapsed
      let off := match s.reader.offAt with
        | some t => max now (t + s.get K.field_FieldOffMin * MS)
        | none => now
      let s := if s.reader.pos = p then s else s.modReader fun r => { r with pos := p, selAt := off }
      let at_ := max off (s.reader.selAt + 20 * US)
      (s.modReader fun r => { r with want := some (p, at_) }).readerSettle

/-- A timeout has cut the field (R492). -/
def State.fieldTimeout (s : State) (hard : Bool) : State :=
  let s := s.readerSettle
  if fieldOn s && decide (timeoutAt s hard ≤ s.elapsed) then s.timeoutCut hard (timeoutAt s hard) else s

/-- DUTY_LIMIT (R492). -/
def State.dutyLimit (s : State) : State :=
  let s := s.readerSettle
  if fieldOn s && dutyMet s s.elapsed then s.dutyCut (dutyHit s 48 s.reader.onAt s.elapsed) else s

/-- VDD_RDR leaves its range: the field goes off (R602). -/
def State.readerSupply (s : State) : State := let s := s.readerSettle; s.fieldCut s.elapsed

/-! ### The synthesiser's events -/

/-- SYNTH_LOCK (R488). -/
def State.synthLock (s : State) : State :=
  if synth s = 1 ∧ s.elapsed ≤ s.reader.synthAt + 200 * US then
    let s := (s.synthTo s.elapsed 2).modReader fun r => { r with calFails := 0, calTried := false }
    (s.synthPend s.elapsed).readerSettle.readerJudge
  else s

/-- SYNTH_LOCK_TIMEOUT (R488, R489), 200 µs after SETTLING was entered: the third calibration in a row that does not reach
lock is a fault. -/
def State.synthTimeout (s : State) : State :=
  let t := s.reader.synthAt + 200 * US
  if synth s = 1 ∧ t ≤ s.elapsed then
    let fails := s.reader.calFails + (if s.reader.calTried then 1 else 0)
    let s := s.modReader fun r => { r with calFails := fails }
    if 3 ≤ fails then
      let s := (s.synthTo t 0).modReader fun r => { r with fault := true, calDue := false }
      let s := (s.flag K.reader_ReaderFlags 1 K.reader_SynthFaults).log 0x0502 St.ok []
      if s.reader.want.isSome then s.cmdOutcome 7 RxReport.none else s
    else s.synthCal t
  else s

/-- SYNTH_CAL_DONE (R488): the VCO band and gain are set, 500 µs after the calibration started. -/
def State.synthCalDone (s : State) : State :=
  let t := s.reader.synthAt + 500 * US
  if synth s = 3 ∧ t ≤ s.elapsed then s.synthTo t 1 else s

/-! ### Commands (R495, R501) -/

/-- The protocol codes of R495. -/
def protoListed (p : Nat) : Bool := decide (p / 16 = 1 ∧ p % 16 < 4 ∨ p / 16 = 2 ∧ p % 16 < 4 ∨ p / 16 = 3 ∧ p % 16 < 4)
/-- AllowedProtocols includes the family of a code. -/
def protoAllowed (s : State) (p : Nat) : Bool := bit (s.get K.regulatoryLocks_AllowedProtocols) (p / 16 - 1)

/-- A command as written. -/
def rdrCmdOf (b : List Nat) : RdrCmd :=
  { op := byteAt b 0, flags := byteAt b 1, ref := field b 2 2, pos := byteAt b 4, proto := byteAt b 5, retries := byteAt b 6,
    timeout := field b 8 2, txbits := field b 10 2, data := b.drop 12, tries := 0, startAt := none, endAt := 0, started := 0,
    inv := InvSt.reset, last := RxReport.none, took := 0, drop := false }

/-- The data bytes a command uses, of the 256 from byte 12 on. -/
def cmdDataLen (c : RdrCmd) : Nat :=
  if c.op = 3 then (c.txbits + 7) / 8 else if c.op = 4 ∧ c.proto / 16 ≠ 1 then 2 else 0

/-- The checks of R501, with the reply data of a refusal. -/
def readerRefuses (s : State) (b : List Nat) : Option (Nat × List Nat) :=
  let c := rdrCmdOf b
  let st := s.get K.reader_ReaderState
  if 16 ≤ c.flags ∨ byteAt b 7 ≠ 0 then some (St.reservedBits, [])
  else if c.op = 0 ∨ 4 < c.op ∨ (if c.op = 2 then c.proto ≠ 0 else !(protoListed c.proto)) then some (St.valueReserved, [])
  else if !(posUsable s c.pos) ∨ 7 < c.retries ∨ c.timeout = 0
      ∨ (c.op = 3 ∧ (c.txbits = 0 ∨ 2048 < c.txbits)) ∨ (c.op = 4 ∧ c.txbits ≠ 0)
      ∨ (c.data.drop (cmdDataLen c)).any (· ≠ 0) ∨ (c.op = 4 ∧ c.proto / 16 = 2 ∧ 4 < byteAt c.data 0)
      ∨ (bit c.flags 2 ∧ !(posUsable s (partner (c.pos / 32) * 32 + c.pos % 32))) then some (St.outOfRange, [])
  else if st = 0 ∨ st = 2 then some (St.notInState, [st, 0x0A])
  else if c.op ≠ 2 ∧ !(protoAllowed s c.proto) then some (St.lockedByRegulation, [])
  else if readerInternal s then some (St.busy, [])
  else if c.op ≠ 2 ∧ s.reader.fault then some (St.synthBusy, [])
  else none

/-- A command is accepted and begins. -/
def State.readerCommand (s : State) (b : List Nat) : State :=
  let c := rdrCmdOf b
  let s := s.set K.reader_LastCommandResult St.accepted
  let s := (s.modReader fun r => { r with cmd := some { c with tries := 1, started := s.now96, took := s.elapsed } }).readerJudge
  if c.op = 2 then s.fieldOff.cmdOutcome 0 RxReport.none else s.fieldAsk c.pos

/-- AllowedProtocols no longer includes the family of the command in progress (R511): it ends when the frame in progress
does, or at once. -/
def State.protoNarrowed (s : State) : State :=
  match s.reader.cmd with
  | none => s
  | some c =>
    if c.op ≠ 2 ∧ !(protoAllowed s c.proto) then
      if frameRuns s c then s.modReader fun r => { r with cmd := some { c with drop := true } }
      else (s.fieldOff.cmdEnd 6 St.lockedByRegulation RxReport.none).readerJudge
    else s

/-! ### Frames (R496 to R500) -/

/-- RX_COIL (R498): the partner when it holds more energy. -/
def rxCoil (c : RdrCmd) (f : RxFrame) : Nat := if bit c.flags 2 ∧ f.e0 < f.e1 then 1 else 0

/-- LQ (R499). -/
def lqOf (f : RxFrame) : Nat := quarterDb f.es f.en

/-- What the reader reports of a frame. -/
def reportOfFrame (c : RdrCmd) (f : RxFrame) (bytes : List Nat) : RxReport :=
  ⟨rxCoil c f, lqOf f, f.amp, 0, f.viol, f.respAt, bytes⟩

/-- The AGC freezes at an SOF at the gain it has settled to for an amplitude at RXIN (R497). -/
def State.agcFreeze (s : State) (amp : Nat) : State :=
  s.modReader fun r => { r with gain := min 60 (Config.rxGain amp), frozen := true }

/-- The frame being decoded has its gain since its SOF. -/
def State.agcHeld (s : State) (amp : Nat) : State := if s.reader.frozen then s else s.agcFreeze amp

/-- The frame has ended: the AGC is free for the next window. -/
def State.agcFree (s : State) : State := s.modReader fun r => { r with frozen := false }

/-- The spectral-mask monitor has measured a frame (R494): bins as offset from the carrier in kHz and depth below it in
0.1 dB. -/
def State.maskMeasure (s : State) (bins : List (Nat × Int)) : State :=
  let margins := (List.range 4).flatMap fun k =>
    bins.filterMap fun (b : Nat × Int) =>
      if s.get (K.spectralMask_MaskOffset0 + k) ≤ b.1 then some (b.2 - 10 * (s.get (K.spectralMask_MaskLimit0 + k) : Int)) else none
  match margins with
  | [] => s
  | m :: l =>
    let least := clamp (-32768) 32767 (l.foldl min m)
    let s := s.setI K.spectralMask_MaskMargin 2 least
    if least < 0 then s.flag K.reader_ReaderFlags 5 K.reader_MaskExceeded else s

/-- The mask was broken and MaskAction is STOP: the field goes off as the frame ends. -/
def maskStops (s : State) (bins : List (Nat × Int)) : Bool :=
  s.get K.spectralMask_MaskAction == 1 &&
    ((List.range 4).any fun k => bins.any fun (b : Nat × Int) =>
      decide (s.get (K.spectralMask_MaskOffset0 + k) ≤ b.1) && decide (b.2 < 10 * (s.get (K.spectralMask_MaskLimit0 + k) : Int)))

/-- The frame in progress has ended: what stops the command here (R494, R511). -/
def State.frameStops (s : State) (c : RdrCmd) (bins : List (Nat × Int)) (r : RxReport) (go : State → State) : State :=
  let stop := maskStops s bins
  let s := (s.maskMeasure bins).agcFree
  if c.drop then (s.fieldOff.cmdEnd 6 St.lockedByRegulation r).readerJudge
  else if stop then
    let s := go s
    if s.reader.cmd.isSome then s.fieldCut s.elapsed else s.fieldOff
  else go s

/-! ### Inventory (R504, R505) -/

/-- A tag is found: it enters InventoryStream once, unless 256 have. -/
def State.tagFound (s : State) (c : RdrCmd) (i : InvSt) (uid : List Nat) (info : Nat) (f : RxFrame) : State × InvSt :=
  if i.found.contains uid then (s, i)
  else
    let u := octetWords uid ++ List.replicate 4 0
    let s := s.append 0x8003 0x0B
      ([c.ref * 256 + i.found.length % 256, c.pos * 2 ^ 17 + rxCoil c f * 65536 + c.proto * 256 + uid.length] ++ u.take 4
        ++ [(min 4095 (lqOf f)) * 4096 + min 4095 f.amp, info * 65536])
    (s, { i with found := i.found ++ [uid] })

/-- The round ends: INVENTORY_FULL when the 256th tag was found and more remain. -/
def State.invEnd (s : State) (i : InvSt) (full : Bool) : State :=
  let s := if full then s.flag K.reader_ReaderFlags 8 K.reader_InventoryFull else s
  let s := s.modReader fun r => { r with cmd := r.cmd.map fun c => { c with inv := i } }
  s.cmdOutcome (if full then 9 else 0) RxReport.none

/-- Go on with the round. -/
def State.invGo (s : State) (c : RdrCmd) (i : InvSt) : State := s.nextFrame c 1 i

/-- The slots of a request (R505). -/
def invSlots (c : RdrCmd) : Nat := if c.proto / 16 = 3 then 16 else 2 ^ byteAt c.data 0

/-- The next slot of a slotted request, or the next request: of ISO/IEC 15693 the next mask to search, of Type B the same
again while a slot collided; or the end. -/
def State.invNextSlot (s : State) (c : RdrCmd) (i : InvSt) : State :=
  let full := decide (256 ≤ i.found.length)
  if i.slot + 1 < invSlots c then s.invGo c { i with slot := i.slot + 1 }
  else if c.proto / 16 = 3 then
    match i.stack with
    | [] => s.invEnd i false
    | m :: l => if full then s.invEnd i true else s.invGo c { i with mask := m, slot := 0, stack := l }
  else if i.collided then (if full then s.invEnd i true else s.invGo c { i with slot := 0, collided := false })
  else s.invEnd i false

/-- A slot collided: ISO/IEC 15693 searches it with the mask lengthened by the slot number, depth first. -/
def invCollide (c : RdrCmd) (i : InvSt) : InvSt :=
  if c.proto / 16 = 3 then
    if 60 < i.mask.length then i
    else { i with collided := true, stack := (i.mask ++ (List.range 4).map fun k => i.slot / 2 ^ k % 2) :: i.stack }
  else { i with collided := true }

/-- A slot of ISO/IEC 15693 or Type B has been answered, or not. -/
def State.invSlotted (s : State) (c : RdrCmd) (f : Option RxFrame) (collision : Bool) : State :=
  let i := c.inv
  match f with
  | none =>
    if i.stage = 4 then s.invNextSlot c { i with stage := 0 }
    else
      -- the EOF that opens the next slot of ISO/IEC 15693 comes 5,152 fc after the previous EOF (R496)
      let s := s.invNextSlot c i
      if c.proto / 16 = 3 ∧ i.slot + 1 < 16 then
        s.frameAt { c with tries := 1, inv := { i with slot := i.slot + 1 } } (max s.elapsed (c.endAt + fcDu 5152))
      else s
  | some f =>
    if i.stage = 4 then s.invNextSlot c { i with stage := 0 }
    else if collision ∨ f.viol.isSome ∨ !(crcHolds c.proto f.bytes) then s.invNextSlot c (invCollide c i)
    else
      let b := f.bytes
      let uid := if c.proto / 16 = 3 then (b.drop 2).take 8 else (b.drop 1).take 4
      let info := if c.proto / 16 = 3 then byteAt b 1 else byteAt b 9
      if 256 ≤ i.found.length ∧ !(i.found.contains uid) then s.invEnd i true
      else
        let (s, i) := s.tagFound c i uid info f
        if c.proto / 16 = 3 then s.invNextSlot c i else s.invGo c { i with stage := 4 }

/-- A frame of the Type A round has been answered, or not. -/
def State.invTypeA (s : State) (c : RdrCmd) (f : Option RxFrame) : State :=
  let i := c.inv
  let again : InvSt := { i with stage := 0, level := 0, uid := [], mask := [] }
  match f with
  | none =>
    if i.stage = 0 then s.invEnd i false
    else if i.stage = 3 ∨ c.retries < c.tries then s.invGo c again
    else s.nextFrame c (c.tries + 1) i
  | some f =>
    let retry (s : State) : State := if c.retries < c.tries then s.invGo c again else s.nextFrame c (c.tries + 1) i
    match i.stage with
    | 0 => if 256 ≤ i.found.length then s.invEnd i true else s.invGo c { again with stage := 1 }
    | 1 =>
      match f.viol with
      | some p => s.invGo c { i with mask := i.mask ++ (bitsOf f.bytes).take p ++ [0] }
      | none =>
        let m := (i.mask ++ bitsOf f.bytes).take 40
        let b := bytesOfBits 5 m
        let bcc := b.foldl Nat.xor 0
        if m.length = 40 ∧ bcc = 0 then s.invGo c { i with stage := 2, mask := m } else retry s
    | 2 =>
      if f.viol.isSome ∨ !(crcHolds c.proto f.bytes) then retry s
      else
        let b := bytesOfBits 4 (i.mask.take 32)
        let sak := byteAt f.bytes 0
        if bit sak 2 ∧ i.level < 2 then s.invGo c { i with stage := 1, level := i.level + 1, uid := i.uid ++ b.drop 1, mask := [] }
        else
          let (s, i) := s.tagFound c i (i.uid ++ b) sak f
          s.invGo c { i with stage := 3 }
    | _ => s.invGo c again

/-- A frame of an inventory round has been answered, or not. -/
def State.invStep (s : State) (c : RdrCmd) (f : Option RxFrame) (collision : Bool) : State :=
  if c.proto / 16 = 1 then s.invTypeA c f else s.invSlotted c f collision

/-! ### The events of a frame -/

/-- A failed attempt is tried again under RETRIES, or ends the command. -/
def State.attemptFailed (s : State) (c : RdrCmd) (outcome : Nat) (r : RxReport) : State :=
  if c.tries ≤ c.retries then s.nextFrame { c with last := r } (c.tries + 1) c.inv else s.cmdOutcome outcome r

/-- The command whose frame is in progress. -/
def cmdInFrame (s : State) : Option RdrCmd := s.reader.cmd.filter fun c => frameRuns s c && decide (3 ≤ c.op)

/-- READER_FRAME_RECEIVED (R499): a frame ends. -/
def State.frameReceived (s : State) (f : RxFrame) (bins : List (Nat × Int)) : State :=
  let s := s.readerSettle
  match cmdInFrame s with
  | none => s
  | some c =>
    if !(inWindow c f.respAt) || decide (s.elapsed < c.endAt + fcDu f.respAt) then s
    else
      let s := s.agcHeld f.amp
      let r := reportOfFrame c f f.bytes
      s.frameStops c bins r fun s =>
        if c.op = 4 then s.invStep c (some f) false
        else if f.viol.isSome then s.attemptFailed c 3 r
        else if bit c.flags 1 ∧ !(crcHolds c.proto f.bytes) then s.attemptFailed c 2 r
        else s.cmdOutcome 0 (if bit c.flags 1 then { r with bytes := f.bytes.take (f.bytes.length - 2) } else r)

/-- RESPONSE_TIMEOUT (R496): the window closes without an SOF. -/
def State.responseTimeout (s : State) (bins : List (Nat × Int)) : State :=
  let s := s.readerSettle
  match cmdInFrame s with
  | none => s
  | some c =>
    if c.endAt + fcDu (c.timeout * 128) ≤ s.elapsed then
      s.frameStops c bins RxReport.none fun s =>
        if c.op = 4 then s.invStep c none false else s.attemptFailed c 1 RxReport.none
    else s

/-- SECOND_SOF (R500): `f` is the frame being decoded as it stands, `amp` the new SOF's amplitude, `bins` what the mask
monitor measured of the command frame. -/
def State.secondSof (s : State) (f : RxFrame) (amp : Nat) (bins : List (Nat × Int)) : State :=
  let s := s.readerSettle
  match cmdInFrame s with
  | none => s
  | some c =>
    if !(inWindow c f.respAt) || decide (s.elapsed < c.endAt + fcDu f.respAt) then s
    else
    let s := s.agcHeld f.amp
    let r := reportOfFrame c f f.bytes
    let established := decide (8 ≤ match f.viol with | some v => min v f.nbits | none => f.nbits)
    if !established && f.viol.isSome then
      -- the new frame is decoded, with the AGC frozen anew
      ((s.flag K.reader_ReaderFlags 6 K.reader_NoiseSofs).append 0x8002 0x0A (resultEntry c c.tries 5 r)).agcFreeze amp
    else if established && decide (f.amp + s.get K.reader_CollisionMargin ≤ amp) then
      let s := s.flag K.reader_ReaderFlags 7 K.reader_Collisions
      s.frameStops c bins r fun s =>
        if c.op = 4 then s.invStep c (some f) true else s.cmdOutcome 4 { r with other := amp }
    else s

/-! ### Card detection (R506) -/

/-- A burst compared with CoilDetuneRef, which follows the amplitude while no card is detected. -/
def State.burstJudge (s : State) (port amp : Nat) : State × Bool :=
  let ref := s.get (K.coilPort_CoilDetuneRef port)
  if ref = 0 then
    ((s.set (K.coilPort_CoilDetuneRef port) amp).modReader fun r => { r with detune := SMap.set 0 port (64 * amp) r.detune }, false)
  else if s.get K.cardDetect_CdThreshold ≤ ((amp : Int) - ref).natAbs then
    (s.flag K.reader_ReaderFlags 9 K.reader_CardDetections, true)
  else
    let acc := SMap.get 0 port s.reader.detune
    let acc := if acc / 64 = ref then acc else 64 * ref
    let acc := acc + amp - acc / 64
    ((s.set (K.coilPort_CoilDetuneRef port) (acc / 64)).modReader fun r => { r with detune := SMap.set 0 port acc r.detune }, false)

/-- The command that holds the reader was taken within a cycle of CK_RDR from now (R515). -/
def cmdJustNow (s : State) : Bool :=
  s.reader.cmd.any fun c => decide (s.elapsed < c.took + (fcDu 1) / 8)

/-- CARD_DETECT_BURST: the amplitude at RXIN in the burst; `asleep` in SLEEP, where a burst that falls due starts the synthesiser
and is sent by the next such command once that has locked (R488). Answers whether a card was detected. -/
def State.cardBurst (s : State) (asleep : Bool) (amp : Nat) : State × Bool :=
  let p := s.get K.cardDetect_CdPosition
  let now := s.elapsed
  let due := decide (s.reader.burstAt + s.get K.cardDetect_CdInterval * MS ≤ now)
  let off := match s.reader.offAt with | some t => decide (t + s.get K.field_FieldOffMin * MS ≤ now) | none => true
  let free := s.reader.cmd.isNone && !(readerInternal s) && off && !(fieldOn s) && (fieldRefused s).isNone
  if due && s.reader.enabled && s.getB K.cardDetect_CdEnable && posUsable s p && (free || cmdJustNow s) then
    if asleep && synth s == 0 then (s.synthStart, false)
    else if synth s == 2 || cmdJustNow s then
      let sel := if s.reader.pos = p then s.reader.selAt else now - 20 * US
      let stop := now + fcDu 128
      let s := s.modReader fun r => { r with burstAt := now, spans := (now, stop) :: r.spans }
      let s := if free then
          (s.set K.field_StepApplied 0).modReader fun r => { r with pos := p, selAt := sel, offAt := some stop }
        else s
      let r := s.burstJudge (p / 32) amp
      (if asleep then r.1.synthTo now 0 else r.1, r.2)
    else (s, false)
  else (s, false)

/-! ### Delay tags (R507, R508) -/

/-- Two BCD digits. -/
def bcdByte (b : Nat) : Bool := decide (b / 16 < 10) && decide (b % 16 < 10)

/-- A delay record is valid for an item. -/
def recordValid (k : Nat) (b : List Nat) : Bool :=
  let d := toInt 8 (field b 4 8)
  b.length == 32 && field b 0 2 == 0xD71E && byteAt b 2 == 1
    && byteAt b 3 == (if k = 0 ∨ k = 2 then 0 else 1)
    && decide (-(10 * US : Nat) ≤ d) && decide (d ≤ (100 * US : Nat)) && byteAt b 15 == 0 && field b 28 2 == 0
    && ((b.drop 16).take 4).all bcdByte && field b 30 2 == crc16 (b.take 30)

/-- A valid record posts to an item (R97). -/
def State.tagPost (s : State) (k : Nat) (uid b : List Nat) : State :=
  let s := s.flag (K.delay_DelayFlags k) 0 (K.delay_TagReads k)
  if s.get (K.delay_TagId k) = ofBytes (uid.take 8) then s
  else
    let s := (s.set (K.delay_TagId k) (ofBytes (uid.take 8))).set (K.delay_TagDelay k) (field b 4 8)
    (s.set (K.delay_TagUncertainty k) (field b 12 3)).flag (K.delay_DelayFlags k) 2 (K.delay_TagReads k)

/-- A read of an item has failed with a cause. -/
def State.tagFail (s : State) (k cause : Nat) : State :=
  let s := s.flag (K.delay_DelayFlags k) 1 (K.delay_TagFailures k)
  (s.set K.delayScan_LastFailItem k).set K.delayScan_LastFailCause cause

/-- The items a scan reads. -/
def scanItems (s : State) (l : List Nat) : List Nat :=
  l.filter fun k => s.get (K.delay_Source k) != 0 && s.get (K.delay_TagPosition k) != 255

/-- A running scan with nothing left ends. -/
def State.scanEnd (s : State) : State :=
  match s.reader.scan with
  | some [] =>
    let s := (s.set K.delayScan_ScanState 0).set K.delayScan_LastScanAt s.now96
    (s.modReader fun r => { r with scan := none, scanAt := s.elapsed }).readerJudge
  | _ => s

/-- A scan starts. -/
def State.scanStart (s : State) (l : List Nat) : State :=
  let s := s.set K.delayScan_ScanState 1
  ((s.modReader fun r => { r with scan := some (scanItems s l), scanDue := false }).readerJudge).scanEnd

/-- A scan is due (R508). -/
def scanIsDue (s : State) : Bool :=
  let mode := s.get K.delayScan_ScanMode
  s.fwUp && ((s.reader.scanDue && mode != 0)
    || (mode == 2 && decide (s.reader.scanAt + s.get K.delayScan_ScanInterval * SEC ≤ s.elapsed)))

/-- An internal job ends with an entry of ReaderResultStream, of REF 0xFFFF (R502). -/
def State.jobResult (s : State) (pos proto outcome : Nat) (e : JobEnd) (bytes : List Nat) : State :=
  let c := rdrCmdOf ([3, 2, 0xFF, 0xFF, pos, proto] ++ List.replicate 262 0)
  let c := { c with started := toTime96 (s.time.now - e.ago) }
  let r := if outcome = 1 then RxReport.none else reportOfFrame c e.frame bytes
  s.append 0x8002 0x0A (resultEntry c e.tries outcome r)

/-- The reader's own field for an internal job of `us` µs: refused under R490 and R492, or taken. -/
def State.jobField (s : State) (p step us : Nat) : Option State :=
  if s.reader.enabled ∧ posUsable s p ∧ (synth s = 2 ∨ synth s = 4) ∧ (fieldRefused s).isNone then
    let now := s.elapsed
    let s := if fieldOn s then s.fieldOff else s
    let s := s.set K.field_StepApplied (min step (s.get K.regulatoryLocks_FieldPowerCeiling))
    let sel := if s.reader.pos = p then s.reader.selAt else now - us * US - 20 * US
    some (s.modReader fun r => { r with pos := p, selAt := sel, offAt := some now, spans := (now - us * US, now) :: r.spans })
  else none

/-- DELAY_SCAN (R508): a scan that is due starts; a running one reads its next item, whose tags answered with `tags` (UID and
the 32-byte record, or none after a radio error) in a field of `us` µs and whose last frame was `e`; `poll`: a card poll is due
and goes first (R509). -/
def State.delayScan (s : State) (poll : Bool) (tags : List (List Nat × Option (List Nat))) (e : JobEnd) (us : Nat) : State :=
  let s := s.readerSettle
  if !s.reader.enabled then s
  else match s.reader.scan with
  | none => if scanIsDue s then s.scanStart (List.range 10) else s
  | some [] => s.scanEnd
  | some (k :: l) =>
    if s.reader.cmd.isSome || poll then s
    else
      let s := s.modReader fun r => { r with scan := some l }
      let s :=
        if !(protoAllowed s 0x30) then s.tagFail k 5
        else match s.jobField (s.get (K.delay_TagPosition k)) (s.get K.delayScan_ScanPowerStep) us with
        | none => s.tagFail k 4
        | some s =>
          let lost := tags.any fun (t : List Nat × Option (List Nat)) => t.2.isNone
          let outcome := if tags.isEmpty then 1 else if !lost then 0 else if e.frame.viol.isSome then 3 else 2
          let s := s.jobResult (s.get (K.delay_TagPosition k)) 0x30 outcome e (e.frame.bytes.take (e.frame.bytes.length - 2))
          let good := tags.filterMap fun (t : List Nat × Option (List Nat)) => match t.2 with
            | some b => if recordValid k b then some (t.1, b) else none
            | none => none
          match good with
          | [] => s.tagFail k (if tags.isEmpty then 1 else if lost then 4 else 2)
          | [g] => s.tagPost k g.1 g.2
          | _ => s.tagFail k 3
      s.scanEnd

/-! ### Writes of reader objects (R412, R487, R494, R503) -/

/-- What a write of a reader object is refused with, after R53 position 9. -/
def readerWriteRefuses (s : State) (index sub v : Nat) : Option (Nat × List Nat) :=
  let ceil := s.get K.regulatoryLocks_FieldPowerCeiling
  if decide (0x8010 ≤ index ∧ index ≤ 0x8013) && fieldOn s && decide (s.reader.pos / 32 = index - 0x8010) then some (St.busy, [])
  else if (index = 0x8020 ∧ sub = 1 ∧ ceil < v) ∨ (index = 0x8050 ∧ sub = 4 ∧ ceil < v)
      ∨ (index = 0x8020 ∧ sub = 3 ∧ s.get K.regulatoryLocks_FieldTimeoutCeiling < v) then some (St.lockedByRegulation, [])
  else if index = 0x8000 ∧ sub = 1 ∧ v = 0 ∧ (s.reader.cmd.isSome ∨ readerInternal s) then some (St.busy, [])
  else if index = 0x8000 ∧ sub = 4 ∧ (s.reader.calDue ∨ synth s = 3) then some (St.busy, [])
  else if index = 0x8050 ∧ sub = 3 ∧ s.reader.scan.isSome then some (St.busy, [])
  else none

/-- The mask offsets of a state ascend strictly (R494). -/
def maskAscends (f : Nat → Nat) : Bool :=
  decide (f K.spectralMask_MaskOffset0 < f K.spectralMask_MaskOffset1)
    && decide (f K.spectralMask_MaskOffset1 < f K.spectralMask_MaskOffset2)
    && decide (f K.spectralMask_MaskOffset2 < f K.spectralMask_MaskOffset3)

/-! ### Tick, reset, sleep -/

/-- A tick edge: ReaderEnable takes effect, the calibration trigger is judged, duty is kept (R489, R492, R503). -/
def State.readerTick (s : State) : State :=
  let s := s.readerSettle.spansTrim
  let en := s.getB K.reader_ReaderEnable
  let s :=
    if en && !s.reader.enabled then (s.modReader fun r => { r with enabled := true }).synthStart
    else if !en && s.reader.enabled then
      let s := s.fieldOff.cmdOutcome 6 RxReport.none
      (s.synthTo s.elapsed 0).modReader fun r => { r with enabled := false, calDue := false, want := none }
    else s
  let d := dieTemp s - s.getI K.reader_SynthCalTemperature 2
  let far := decide (80 ≤ d.natAbs)
  let s := if s.reader.enabled && far && !s.reader.drifted then s.synthTrigger else s
  (s.modReader fun r => { r with drifted := r.enabled && far && synth s != 3 }).readerJudge

/-- Ceilings are applied at the tick edge after a change of one (R414). -/
def State.ceilingTick (s : State) : State :=
  if s.prot.ceiling then
    let s := { s with prot := { s.prot with ceiling := false } }
    let pc := s.get K.regulatoryLocks_FieldPowerCeiling
    let tc := s.get K.regulatoryLocks_FieldTimeoutCeiling
    let long := fieldOn s && decide (s.reader.onAt + tc * MS < s.elapsed)
    let above := decide (pc < s.get K.field_PowerStep) || decide (pc < s.get K.delayScan_ScanPowerStep)
      || decide (tc < s.get K.field_FieldTimeout) || (fieldOn s && decide (pc < s.get K.field_StepApplied)) || long
    let s := s.set K.field_PowerStep (min pc (s.get K.field_PowerStep))
    let s := s.set K.delayScan_ScanPowerStep (min pc (s.get K.delayScan_ScanPowerStep))
    let s := s.set K.field_FieldTimeout (min tc (s.get K.field_FieldTimeout))
    let s := if fieldOn s then s.set K.field_StepApplied (min pc (s.get K.field_StepApplied)) else s
    let s := if above then s.flag K.protection_ProtFlags 4 K.protection_CeilingAppliedCount else s
    if long then s.fieldCut s.elapsed else s
  else s

/-- The thermal cut, judged at a tick edge (R618). -/
def State.thermalCut (s : State) : State :=
  let t := dieTemp s
  if s.reader.cut then (if t < 1100 then s.modReader fun r => { r with cut := false } else s)
  else if 1180 ≤ t then
    let s := s.readerSettle.fieldOff.cmdOutcome 6 RxReport.none
    (s.flag K.supplyMonitor_SupplyFlags 2 K.supplyMonitor_ThermalCuts).modReader fun r => { r with cut := true }
  else s

/-- The reader votes against SLEEP and DEEP (R514). -/
def readerVotes (s : State) : Bool := fieldOn s || s.reader.cmd.isSome || s.reader.scan.isSome || s.reader.want.isSome

/-- A warm reset (R513): field off, commands and scans end without a result, streams empty, the synthesiser keeps its state. -/
def State.readerWarm (s : State) : State :=
  let s := s.fieldOff
  let s := (s.setStream 0x8002 []).setStream 0x8003 []
  s.modReader fun r => { r with cmd := none, want := none, scan := none, scanDue := false, enabled := r.enabled && !r.fault, calRun := false, fault := false, calFails := 0 }

/-- The reader's clock stops for SLEEP, DEEP or OFF. -/
def State.readerStop (s : State) : State := s.fieldOff.synthTo s.elapsed 0

end Sys2Proof.Machine
end

