-- ==== Sys2Proof/Machine/Dict.lean ====
section
/-!
DEFINITION. Values of the object dictionary as requests see them: what a written value may be, what a read returns, the
descriptors of DESCRIBE (spec/02, R41 to R66).
-/

namespace Sys2Proof.Machine

/-! ### The Silt log as it reads (R583, R585) -/

/-- SEQ of the oldest record held, 0 for none. -/
def siltOldest (s : State) : Nat := match s.silt.recs.head? with | some r => r.seq | none => 0
/-- SEQ of the newest committed record, 0 for none. -/
def siltNewest (s : State) : Nat := match s.silt.recs.getLast? with | some r => r.seq | none => 0
/-- The committed record of a SEQ. -/
def siltFind (s : State) (seq : Nat) : Option SiltRec := s.silt.recs.find? fun r => r.seq == seq

/-- The record a cursor value reads, if any; whether it skips. -/
def siltAt (s : State) (c : Nat) : Option SiltRec × Bool :=
  if s.silt.recs.isEmpty then (none, false)
  else if c < siltOldest s then (siltFind s (siltOldest s), c != 0)
  else (siltFind s c, false)

/-! ### Written values (R44) -/

/-- The number an image of a type stands for. -/
def Ty.num (t : Ty) (v : Nat) : Int := if t.signed then toInt t.bytes v else v

/-- The range column allows a value. -/
def checkOk (s : State) (t : Ty) (v : Nat) : Check → Bool
  | .any => true
  | .bool => decide (v ≤ 1)
  | .range lo hi => decide (lo ≤ t.num v) && decide (t.num v ≤ hi)
  | .rangeOr lo hi o => (decide (lo ≤ t.num v) && decide (t.num v ≤ hi)) || t.num v == o
  | .oneOf l => l.contains (t.num v)
  | .stepped lo hi st => decide (lo ≤ t.num v) && decide (t.num v ≤ hi) && (t.num v - lo) % st == 0
  | .enum lo hi => decide (lo ≤ v) && decide (v ≤ hi)
  | .bits r => Nat.land v r == 0
  | .upper => (toBytes t.bytes v).all fun b => decide (65 ≤ b) && decide (b ≤ 90)
  | .cursor => decide (v ≤ siltNewest s + 1)

/-- A text: characters 0x20 to 0x7E, then zero bytes. -/
def textOk (b : List Nat) : Bool :=
  let rest := b.dropWhile fun c => decide (0x20 ≤ c) && decide (c ≤ 0x7E)
  rest.all (· == 0)

/-- An encoding its type forbids: a NaN or an infinity, a digit above 9. -/
def encodingBad (t : Ty) (v : Nat) : Bool :=
  match t with
  | .f32 => bits v 30 23 == 255
  | .f64 => bits v 62 52 == 2047
  | .bcd24 => (List.range 6).any fun i => decide (10 ≤ bits v (4 * i + 3) (4 * i))
  | .text n => !textOk (toBytes n v)
  | _ => false

/-- The status of a written value by its own type and range (R44, R47): OK, or why it is rejected. -/
def valueStatus (s : State) (r : Row) (v : Nat) : Nat :=
  match r.ty with
  | .bits16 | .bits32 => if checkOk s r.ty v r.chk then St.ok else St.reservedBits
  | .enum8 => if checkOk s r.ty v r.chk then St.ok else St.valueReserved
  | .bool => if v ≤ 1 then St.ok else St.outOfRange
  | _ =>
    if r.acc = .rc then (if v = 1 then St.ok else St.outOfRange)
    else if encodingBad r.ty v || !checkOk s r.ty v r.chk then St.outOfRange else St.ok

/-! ### Read values -/

/-- The next on-time edge of a pulse output at the cable end (R99, R100): Offset after its grid instant; none while the output
does not run. -/
def nextPulse (s : State) (p : Nat) : Option Nat :=
  let t := s.tp p
  t.from_.map fun f =>
    ((gridAt (tpPeriod t) (max f (match t.lastEdge with | some l => l + 1 | none => f)) : Int)
      + s.getI (K.timePulse_Offset p) 8).toNat

/-- EdgePlacement (R99): the advance Q applied now; 0 while the output does not run (log entry 157). -/
def edgePlacement (s : State) (p : Nat) : Int :=
  if (s.tp p).from_.isSome || (s.tp p).active then tpAdvance s p else 0

/-- Values of a lane (R177): state, entry, antenna, pass. -/
def laneRead (s : State) (l sub : Nat) : Nat :=
  let on := bit s.erg.lanes l && s.erg.enable
  match s.erg.lane.toList.getD l none with
  | none => if sub = 1 then b2n on else if sub = 2 then 0xFFFF else 0
  | some r =>
    if sub = 1 then (if r.verifying then 3 else 2) else if sub = 2 then r.entry else if sub = 3 then r.ant
    else min 65535 r.pass

/-- A pending change as PendingChange shows it (R410). -/
def pendingRead (s : State) (p sub : Nat) : Nat :=
  match s.prot.pending[p]? with
  | none => 0
  | some c =>
    if sub = 1 then c.id else if sub = 2 then c.index * 256 + c.sub else if sub = 3 then c.role
    else if sub = 4 then ofBytes c.digest
    else if sub = 5 then (3932160 - min 3932160 (s.time.aon - c.at_)) * 1000 / 32768
    else b2n c.card

/-- The stream objects (R61). -/
def streamList : List Nat :=
  [K.spectrumStream_StreamData, K.ergResultStream_StreamData, K.navMessageStream_StreamData, K.measStream_StreamData,
   K.messageDeliveryStream_StreamData, K.messageResultStream_StreamData, K.remoteReplyStream_StreamData,
   K.launchResultStream_StreamData, K.readerResultStream_StreamData, K.inventoryStream_StreamData].map (· / 256)

/-- An object is a stream. -/
def isStream (index : Nat) : Bool := streamList.contains index

/-- The value a read returns is unstated by the spec: the next edge of a pulse output that does not run. -/
def readUnstated (s : State) (index sub : Nat) : Bool :=
  decide (0x2010 ≤ index ∧ index < 0x2014) && sub == 0x09 && (nextPulse s (index - 0x2010)).isNone

/-- The value of a subindex as a read returns it, as a link image: what the device computes, what an action reads, or what
it holds. -/
def readValue (s : State) (index sub : Nat) : Nat :=
  let k := index * 256 + sub
  if k = K.pondTime_PondNow then s.now96
  else if k = K.pondTime_TickNumber then s.time.tick % 2 ^ 64
  else if 0x2010 ≤ index ∧ index < 0x2014 then
    let p := index - 0x2010
    if k = K.timePulse_NextEdge p then (match nextPulse s p with | some t => toTime96 t | none => s.freeVal)
    else if k = K.timePulse_EdgePlacement p then ofInt 8 (edgePlacement s p)
    else if k = K.timePulse_InternalDelay p then ofInt 8 (slewFactory s k 0)
    else s.get k
  else if 0x2020 ≤ index ∧ index < 0x2022 then
    let c := index - 0x2020
    if k = K.clockOut_PhaseApplied c then (if s.get (K.clockOut_ClockState c) = 2 then ofInt 8 (ckoAdvance s c) else 0)
    else s.get k
  else if k = K.calibration_CalQueue then s.calQueueRead
  else if k = K.calibration_CalRequest then s.rx.asked
  else if isStream index then
    if sub = 1 then 0 else if sub = 2 then streamWords (s.stream index) else s.get k
  else if k = K.erg_WaitingResults then min 16 s.heldCount
  else if K.ergLane_LaneState 0 / 256 ≤ index ∧ index < K.ergLane_LaneState 8 / 256 then
    if 1 ≤ sub ∧ sub ≤ 4 then laneRead s (index - K.ergLane_LaneState 0 / 256) sub else s.get k
  else if 0x3100 ≤ index ∧ index < 0x3200 then
    if sub = 0x0F then entryStateRead s (index - 0x3100)
    else if sub = 2 then b2n (s.erg.auto && decide (0x3180 ≤ index))
    else s.get k
  else if k = K.tracking_SlotsInUse then s.slotsInUse
  else if k = K.tracking_SlotsAided then (s.slotsWhere (· == 4)).length
  else if k = K.tracking_SlotsRetired then (s.slotsWhere (· == 6)).length
  else if k = K.launchQueue_QueuedTotal then s.ports.launch.length
  else if k = K.field_DutyUsed then min 1000 (dutyUsed s / MS)
  else if k = K.timerGlobal_EventSummary then s.eventSummary
  else if 0x9010 ≤ index ∧ index < 0x9020 then
    if k = K.cadenceTimer_Count (index - 0x9010) then s.timerCount (index - 0x9010) s.time.now else s.get k
  else if 0x9030 ≤ index ∧ index < 0x9038 then
    let i := index - 0x9030
    if k = K.capture_CaptureRead i then s.captureOldest i
    else if k = K.capture_QueueDepth i then (s.captures i).length
    else s.get k
  else if k = K.timerOutput_OutDelay (index - K.timerOutput_OutDelay 0 / 256) then ofInt 8 (slewFactory s k 3)
  else if k = K.siltLog_OldestSeq then siltOldest s
  else if k = K.siltLog_NewestSeq then siltNewest s
  else if k = K.siltLog_RecordCount then s.silt.recs.length
  else if k = K.siltLog_QueueDepth then s.silt.queue.length
  else if 0xB010 ≤ index ∧ index < 0xB015 then
    let i := index - 0xB010
    if k = K.siltCursor_Record i then
      (match (siltAt s (s.get (K.siltCursor_Cursor i))).1 with | some r => ofBytes (siltBytes r) | none => 0)
    else s.get k
  else if k = K.twoParty_PendingCount then s.prot.pending.length
  else if 0xC048 ≤ index ∧ index < 0xC050 then
    if sub = 0 then s.get k else pendingRead s (index - 0xC048) sub
  else if k = K.powerControl_WakeEnable then setBit (s.get k) 0
  else s.get k

/-! ### Rows as requests see them -/

/-- An object of type RECORD at an index. -/
def isRecord (index : Nat) : Bool := match findObj index with | some o => o.isRecord | none => false

/-- A read of the subindex is answered WRITE_ONLY (R46, R403). -/
def readBarred (index : Nat) (r : Row) : Bool :=
  r.acc == .wo || (decide (0xC020 ≤ index ∧ index < 0xC030) && r.sub == 4)

/-- The values of a record by SNAPSHOT (R59): in subindex order, WO values as zero bytes. -/
def snapshotBytes (s : State) (index : Nat) : List Nat :=
  ((rowsOf index).filter fun r => decide (r.sub ≠ 0)).flatMap fun r =>
    toBytes r.ty.bytes (if readBarred index r then 0 else readValue s index r.sub)

/-- Smallest and largest value the range column allows, or of the type (R66). DESIGN CHOICE (log entry 146): a range column
that reads "Status code" gives the limits of U16. -/
def rowLimits (s : State) (r : Row) : Int × Int :=
  let n := r.ty.bytes
  let full : Int × Int :=
    if r.ty.signed then (-((2 ^ (8 * n - 1) : Nat) : Int), ((2 ^ (8 * n - 1) : Nat) : Int) - 1)
    else match r.ty with
      | .f32 => (0xFF7FFFFF, 0x7F7FFFFF)
      | .f64 => (0xFFEFFFFFFFFFFFFF, 0x7FEFFFFFFFFFFFFF)
      | .bcd24 => (0, 0x999999)
      | _ => (0, ((2 ^ (8 * n) : Nat) : Int) - 1)
  match r.chk with
  | .range lo hi => (lo, hi)
  | .stepped lo hi st => (lo, hi - (hi - lo) % st)
  | .rangeOr lo hi o => (min lo o, max hi o)
  | .oneOf l => (l.foldl min (l.headD 0), l.foldl max (l.headD 0))
  | .cursor => (0, siltNewest s + 1)
  | _ => full

/-- The descriptor of a subindex (R66). A default the table gives as "—" is the value a READ returns. -/
def describeBytes (s : State) (index : Nat) (o : Obj) (r : Row) : List Nat :=
  let n := r.ty.bytes
  let dflt := match r.dflt with
    | .none | .factory => if readBarred index r then 0 else readValue s index r.sub
    | _ => r.default index o.base
  let lim := rowLimits s r
  [r.ty.code, r.acc.code, r.keep.code] ++ toBytes 2 n ++
    (match r.ty with
     | .text _ | .octets _ | .record => []
     | _ => toBytes n dflt ++ (if r.ty.numeric then toBytes n (ofInt n lim.1) ++ toBytes n (ofInt n lim.2) else []))

end Sys2Proof.Machine
end

