-- ==== Sys2Proof/Machine/Txn.lean ====
section
/-!
DEFINITION. Transactions at the requester (spec/10, R343), and what a target keeps (R342, R343).
-/

namespace Sys2Proof.Machine

/-- A transaction's request goes out: to the link peer of the lowest port for DEST 0x000. -/
def State.txnSend (s : State) (t : TxnEnt) : State :=
  let b := toBytes 2 t.epoch ++ toBytes 2 t.number ++ t.payload
  if t.dest = 0 then
    match fabricPorts s with
    | n :: _ => s.peerSend n 5 b
    | [] => s
  else s.netSend 5 0 t.dest b

/-- A transaction is submitted: its identifier, or the status that refuses it. -/
def State.txnSubmit (s : State) (dest : Nat) (payload : List Nat) (ring : Option (Nat × Nat)) : Except Nat (Nat × State) :=
  if 0xFFE < dest then .error St.outOfRange
  else if 256 ≤ s.net.txns.length then .error St.busy
  else if dest = 0 ∧ (fabricPorts s).isEmpty ∨ dest ≠ 0 ∧ !hasRoute s dest then .error St.noRoute
  else
    let r := s.idTake
    let s := r.2
    let t : TxnEnt := { dest := dest, epoch := r.1.1, number := r.1.2, payload := payload, at_ := s.elapsed, tries := 1, ring := ring }
    let s := { s with net := { s.net with txns := s.net.txns ++ [t] } }
    .ok (t.number, (s.set K.remote_TxnOpen s.net.txns.length).txnSend t)

/-- A transaction ends with an outcome status and the reply payload: in RemoteReplyStream, or at its descriptor. -/
def State.txnEnd (s : State) (t : TxnEnt) (status : Nat) (payload : List Nat) : State :=
  let s := { s with net := { s.net with txns := s.net.txns.erase t } }
  let s := s.set K.remote_TxnOpen s.net.txns.length
  match t.ring with
  | some (c, i) =>
    let d : RingDone := ⟨c, 1, i, status, t.number, if status = St.ok then some payload else none⟩
    { s with cpu := { s.cpu with ringDone := s.cpu.ringDone ++ [d] } }
  | none => s.append 0x7051 0x09 ([t.epoch * 256, t.number * 256, status] ++ octetWords payload)

/-- TXN_REPLY. -/
def State.txnReply (s : State) : State :=
  match s.netTake 6 fun _ => true with
  | (none, s) => s
  | (some f, s) =>
    if f.body.length < 4 then s.netBad
    else match s.net.txns.find? fun t => (t.dest == f.source || t.dest == 0) && t.epoch == field f.body 0 2 && t.number == field f.body 2 2 with
      | some t => s.txnEnd t St.ok (f.body.drop 4)
      | none => s.staleDiscard

/-- TXN_RESEND: TxnTimeout has passed since the last attempt of the oldest such transaction. -/
def State.txnAgain (s : State) : State :=
  match s.net.txns.find? fun t => decide (t.at_ + s.get K.remote_TxnTimeout * MS ≤ s.elapsed) with
  | none => s
  | some t =>
    if 3 ≤ t.tries then (s.flag K.remote_TxnFlags 0 K.remote_TxnTimeouts).txnEnd t St.timeout []
    else
      let u := { t with tries := t.tries + 1, at_ := s.elapsed }
      { s with net := { s.net with txns := s.net.txns.map fun x => if x = t then u else x } }.txnSend u

/-- RemoteRequest is written: ACCEPTED with NUMBER, or the status that refuses it. -/
def State.remoteSubmit (s : State) (b : List Nat) : State :=
  match s.txnSubmit (field b 0 2) (b.drop 2) none with
  | .ok (n, s) => s.answer St.accepted (toBytes 2 n)
  | .error e => s.answer e []

/-! ### The target (R342, R343) -/

/-- The kept reply of a request seen within 200 ms. -/
def keptReply (s : State) (source epoch number : Nat) : Option (List Nat) :=
  (s.net.kept.find? fun k => k.source == source && k.epoch == epoch && k.number == number && decide (s.elapsed ≤ k.at_ + 200 * MS)).map
    (·.reply)

/-- Keep a reply: the last 256. -/
def State.keepReply (s : State) (source epoch number : Nat) (reply : List Nat) : State :=
  let rest := s.net.kept.filter fun k => !(k.source == source && k.epoch == epoch && k.number == number)
  { s with net := { s.net with kept := (⟨source, epoch, number, reply, s.elapsed⟩ :: rest).take 256 } }

/-- A request's epoch is older than the newest its source has used in the last 10 s. -/
def epochStale (s : State) (source epoch : Nat) : Bool :=
  s.net.epochs.any fun e => e.1 == source && decide (s.since e.2.2 ≤ 10000) && serialNewer 16 e.2.1 epoch

/-- The newest epoch of a source. -/
def State.epochSee (s : State) (source epoch : Nat) : State :=
  { s with net := { s.net with epochs := (source, epoch, s.time.ms) :: s.net.epochs.filter fun e => e.1 != source } }

end Sys2Proof.Machine
end

