-- ==== Sys2Proof/Machine/Writes.lean ====
section
/-!
DEFINITION. What a write is refused with beyond its type, and what it does, object by object: the rules of the objects' own
chapters, joined where the dictionary engine applies them (R53, R55, R60).
-/

namespace Sys2Proof.Machine

/-- The place of a status in the order of R53. -/
def checkOrder (status : Nat) : Nat :=
  if status = St.noObject then 1 else if status = St.noSubindex then 2 else if status = St.notAuthorised then 3
  else if status = St.readOnly ∨ status = St.writeOnly then 4 else if status = St.typeMismatch then 5
  else if status = St.lengthMismatch then 6 else if status = St.reservedBits then 7 else if status = St.valueReserved then 8
  else if status = St.outOfRange then 9 else if status = St.notInState then 10
  else if status = St.lockedByRegulation then 11 else if status = St.needsTwoParty ∨ status = St.twoPartyPending then 12
  else if status = St.resourceRetired then 13 else 14

/-- A failed check: its status, its reply data, and the subindex WRITE_RECORD names (0 for the object as a whole). -/
structure Refused where
  status : Nat
  data : List Nat
  sub : Nat
  deriving DecidableEq, Repr

/-- The first failing check in the order of R53, the first listed of equals. -/
def firstRefused (l : List Refused) : Option Refused :=
  l.foldl (fun (o : Option Refused) x => match o with
    | none => some x
    | some y => if checkOrder x.status < checkOrder y.status then some x else some y) none

/-- A family's answer as a refusal of a subindex. -/
def refusedOf (sub : Nat) (o : Option (Nat × List Nat)) : List Refused :=
  match o with | some p => [⟨p.1, p.2, sub⟩] | none => []

/-- A condition as a refusal. -/
def refusedIf (c : Bool) (status sub : Nat) : List Refused := if c then [⟨status, [], sub⟩] else []

/-! ### Device state (R55, R56, R563) -/

/-- The image objects (R563). -/
def isImageObject (index sub : Nat) : Bool := index == 0xD000 && decide (5 ≤ sub ∧ sub ≤ 7)

/-- The device states in which a request is accepted, as a mask. -/
def stateMask (write : Bool) (index sub : Nat) : Nat :=
  if isImageObject index sub then (if write then 0x09 else 0x0F)
  else if !write then (if index < 0x2000 then 0x0F else 0x0E)
  else if index < 0x2000 then 0x0E
  else if index < 0xC000 then 0x06
  else if index < 0xD000 then 0x0E
  else if index < 0xE000 then 0x06
  else 0x04

/-- The request is not legal in the present device state. -/
def stateRefuses (s : State) (write : Bool) (index sub : Nat) : Option (Nat × List Nat) :=
  let m := stateMask write index sub
  if bit m s.device then none else some (St.notInState, [s.device, m])

/-- The device states in which an object's own chapter accepts a written value: RefFrequency and RefInputType in COMMISSIONING
(R82), StateCommand as R568 gives. -/
def ownMask (index sub v : Nat) : Nat :=
  let k := index * 256 + sub
  if k = K.reference_RefFrequency ∨ k = K.reference_RefInputType then 0x02
  else if k = K.deviceControl_StateCommand then (if v = 1 then 0x04 else 0x02)
  else 0x0F

/-- A write of a value is not legal in the present device state: the mask holds the states of R55 that the object's own chapter
leaves (R56). -/
def writeStateRefuses (s : State) (index sub v : Nat) : Option (Nat × List Nat) :=
  let m := Nat.land (stateMask true index sub) (ownMask index sub v)
  if bit m s.device then none else some (St.notInState, [s.device, m])

/-! ### Relations between subindices (position 9 of R53) -/

/-- Values of a record that break a rule of its chapter: `g` gives the value of each subindex after the write; `subs` are the
subindices written. -/
def relationBad (s : State) (index : Nat) (g : Nat → Nat) (subs : List Nat) : Bool :=
  if 0x2010 ≤ index ∧ index < 0x2014 then
    -- R99
    decide (g 0x03 * 1000 ≤ g 0x04 + 8) || (g 0x02 == 1 && index != 0x2013)
  else if 0x2020 ≤ index ∧ index < 0x2022 then
    -- R102
    decide (g 0x02 < 1000000 * g 0x03) || decide (400000000 * g 0x03 < g 0x02)
  else if 0x3100 ≤ index ∧ index < 0x3200 then
    -- R162
    let set := subs.contains 0x01 && g 0x01 != 0
    let enabled := g 0x01 != 0 && subs.any fun k => decide (0x03 ≤ k ∧ k ≤ 0x0E)
    (set || enabled) && entryBad g
  else if K.trackingProfile_DllDiscriminator 0 / 256 ≤ index ∧ index < K.trackingProfile_DllDiscriminator 0 / 256 + 16 then
    profileBad (index - K.trackingProfile_DllDiscriminator 0 / 256) g
  else if index = 0x8030 then !maskAscends fun k => g (k % 256)
  else if 0x9010 ≤ index ∧ index < 0x9020 then
    -- R521
    let n := index - 0x9010
    let t := ([2, 3, 5].foldl (fun s k => s.set (index * 256 + k) (g k)) s)
    subs.any (fun k => k == 2 || k == 3 || k == 5) && t.timerLinksBad n
  else if index = 0xA001 then subs.contains 0x01 && decide (g 0x02 < g 0x01)
  else if index = 0xA002 then subs.contains 0x02 && decide (g 0x01 ≤ g 0x02)
  else false

/-! ### Protected objects (R403, R408, R413, R417, R93) -/

/-- A proposal for an object of a ceiling that a lock holds (R413); `card`: one party is, or is to be, a card of role
SECURITY_OFFICER. -/
def lockRefuses (s : State) (index sub v : Nat) (card : Bool) : Bool :=
  if index = 0xC060 then
    let k := index * 256 + sub
    let locked := s.getB K.regulatoryLocks_RegLocked
    let shut := s.getB K.regulatoryLocks_Sealed
    let raises :=
      if sub = 1 then v == 0 && locked
      else if sub = 5 then Nat.land v (0xFFFF - s.get k % 65536) != 0
      else decide (s.get k < v)
    if sub = 6 then (if v = 0 then shut else !locked) else raises && (shut || (locked && !card))
  else if 0xC020 ≤ index ∧ index < 0xC030 then s.get (K.keySlot_KeyState (index - 0xC020)) == 2
  else false

/-- The value of a KeyValue proposal as the key it brings (R403): under the slot that authenticated it, or none. -/
def keyOfProposal (s : State) (slot : Option Nat) (v : Nat) : Option (List Nat) :=
  let b := toBytes 24 v
  match slot with
  | some k => keyUnwrap (keyOf s k) b
  | none => if (b.drop 16).all (· == 0) then some (b.take 16) else none

/-- Values of protected objects that their chapters reject, in whatever way they are written. -/
def pwBad (s : State) (ctx : Ctx) (index sub v : Nat) : List Refused :=
  let k := index * 256 + sub
  if k = K.seeding_ReseedRequest then
    let b := toBytes 13 v
    let src := byteAt b 0
    refusedIf (decide (2 < src)) St.valueReserved sub ++ refusedIf (src != 2 && (b.drop 1).any (· != 0)) St.outOfRange sub
      ++ (if s.timing = 0 then [⟨St.notInState, [0, 0x1E], sub⟩] else [])
      ++ refusedIf (s.time.reseed.isSome) St.busy sub
  else if 0xC020 ≤ index ∧ index < 0xC030 ∧ sub = 1 then refusedIf (v != 2) St.outOfRange sub
  else if 0xC020 ≤ index ∧ index < 0xC030 ∧ sub = 4 then
    refusedIf (ctx.slot.isNone && officerHeld s) St.notAuthorised sub
      ++ (if (keyOfProposal s ctx.slot v).isSome then []
          else if ctx.slot.isNone then refusedIf true St.outOfRange sub else refusedIf true St.integrityFail sub)
  else if k = K.imageSecurity_RollbackAdvance then
    refusedIf (decide (v ≤ s.get K.imageSecurity_AntiRollback) || decide (s.get K.imageSecurity_RunningSecurityVersion < v))
      St.outOfRange sub
  else if k = K.imageSecurity_RootKeyRevoked then
    let all := Nat.lor v (s.get k)
    refusedIf (all % 16 == 15 || (s.boot.image && bit v (s.get K.imageSecurity_RunningKeyIndex)
      && !bit (s.get k) (s.get K.imageSecurity_RunningKeyIndex))) St.outOfRange sub
  else []

/-! ### Writes that the objects' chapters refuse (positions 7 to 14 of R53) -/

/-- Timer settings that hold while a timer is ARMED or RUNNING (R519). -/
def timerHolds (s : State) (n sub : Nat) : Option (Nat × List Nat) :=
  let st := s.timerState n
  if 1 ≤ sub ∧ sub ≤ 5 ∧ (st = 1 ∨ st = 2) then some (St.notInState, [st, 0x09]) else none

/-- Bytes of an image write: OFFSET, COUNT. -/
def imageSpan (b : List Nat) : Nat × Nat := (field b 0 4, field b 4 2)

/-- What a write of a subindex is refused with by its own chapter. -/
def familyRefuses (s : State) (ctx : Ctx) (index sub v : Nat) : List Refused :=
  let k := index * 256 + sub
  let of (o : Option (Nat × List Nat)) : List Refused := refusedOf sub o
  let busy (c : Bool) : List Refused := refusedIf c St.busy sub
  if k = K.deviceControl_StateCommand then
    busy s.boot.next.isSome
  else if k = K.deviceControl_ResetCommand then busy s.boot.due.isSome
  else if k = K.pinGroup_Slew 0 then busy ((List.range 4).any fun p => s.get (K.timePulse_Enable p) != 0)
  else if k = K.pinGroup_Slew 3 then busy ((List.range 8).any fun o => s.get (K.timerOutput_OutSource o) != 255)
  else if k = K.seeding_PondSeed then
    refusedIf (!bit (s.get K.protection_StepAuthority) (roleOf s ctx)) St.notAuthorised sub
      ++ (if s.timing = 0 then [] else [⟨St.notInState, [s.timing, 0x01], sub⟩]) ++ busy s.time.due.isSome
  else if 0x2020 ≤ index ∧ index < 0x2022 ∧ sub = 5 then busy (s.get (K.clockOut_Enable (index - 0x2020)) != 0)
  else if k = K.calibration_CalRequest then of (s.calRefuses v)
  else if 0x3100 ≤ index ∧ index < 0x3200 then
    let e := index - 0x3100
    (if 128 ≤ e ∧ s.erg.auto = true ∧ ctx.path ≠ .firmware then [⟨St.notInState, [b2n s.erg.auto, 0x01], 0⟩] else [])
      ++ busy (decide (3 ≤ sub ∧ sub ≤ 0x0E) && (laneOf s e).isSome)
  else if 0x4200 ≤ index ∧ index < 0x4400 ∧ sub = 0x1A then
    of (s.releaseRefuses (index - 0x4200) v) ++ busy (s.slot (index - 0x4200)).release
  else if k = K.utc_HostLeap then refusedIf (decide (2 < byteAt (toBytes 15 v) 2)) St.valueReserved sub
  else if k = K.messages_MessageSubmit then of (subRefuses s (toBytes 1064 v))
  else if k = K.launchQueue_LaunchSubmit then of (launchRefuses s (toBytes 1000 v) 984)
  else if k = K.remote_RemoteRequest then
    match s.txnSubmit (field (toBytes 1026 v) 0 2) ((toBytes 1026 v).drop 2) none with
    | .ok _ => []
    | .error e => [⟨e, [], sub⟩]
  else if 0x7080 ≤ index ∧ index < 0x70C0 then
    if sub = 4 then of (channelRefuses s (index - 0x7080) v) else of (channelHolds s index sub)
  else if 0x7100 ≤ index ∧ index < 0x7120 ∧ sub = 0x1B then
    let n := index - 0x7100
    refusedIf (s.portState n == 6) St.resourceRetired sub ++ busy (retrains s n)
  else if index = 0x7020 ∨ (0x7140 ≤ index ∧ index < 0x7160) then refusedIf (ptpRefuses s index sub v) St.outOfRange sub
  else if k = K.readerCommand then of (readerRefuses s (toBytes 268 v))
  else if 0x8000 ≤ index ∧ index < 0x9000 then of (readerWriteRefuses s index sub v)
  else if k = K.timerGlobal_GroupStart then of (s.groupRefuses v)
  else if 0x9010 ≤ index ∧ index < 0x9020 then
    if sub = 0x0B then of (s.timerRefuses (index - 0x9010) v none) else of (timerHolds s (index - 0x9010) sub)
  else if k = K.boot_ImageWrite then
    let b := toBytes 1030 v
    let p := imageSpan b
    refusedIf (p.2 == 0 || decide (1024 < p.2) || decide (6291456 < p.1 + p.2) || (b.drop (6 + p.2)).any (· != 0)) St.outOfRange sub
      ++ busy s.boot.verify.isSome
  else if k = K.boot_ImageCommand then busy s.boot.verify.isSome
  else if 0xE000 ≤ index then of (fscopeRefuses s)
  else []

/-! ### The checks of one write -/

/-- Positions 1 to 4 of R53: the index, the subindex, the role, the access class. -/
def tableRefuses (s : State) (ctx : Ctx) (write : Bool) (index sub : Nat) : Option Nat :=
  match findObj index, findRow index sub with
  | none, _ => some St.noObject
  | _, none => some St.noSubindex
  | some _, some r =>
    let role := roleOf s ctx
    let free := isImageObject index sub && (s.device == 0 || s.device == 3)
    if !free && !(if write then mayWrite s role index else mayRead s role index) then some St.notAuthorised
    else if write then (if r.acc = .ro ∨ r.keep = .f then some St.readOnly else none)
    else if readBarred index r then some St.writeOnly
    else none

/-- The number of bytes a write carries fits the type (R45). -/
def lengthOk (t : Ty) (n : Nat) : Bool := match t with | .text m => decide (n ≤ m) | _ => n == t.bytes

/-- The link image of written bytes; a text is filled with zero bytes. -/
def imageOf (t : Ty) (b : List Nat) : Nat :=
  match t with | .text m => ofBytes ((b ++ List.replicate m 0).take m) | _ => ofBytes b

/-- Every check of R53 on a write of one value but NEEDS_TWO_PARTY; `card` as lockRefuses has it. -/
def writeRefusals (s : State) (ctx : Ctx) (index sub : Nat) (b : List Nat) (card : Bool) : List Refused :=
  match tableRefuses s ctx true index sub with
  | some e => [⟨e, [], 0⟩]
  | none => match findRow index sub with
    | none => []
    | some r =>
      if !lengthOk r.ty b.length then [⟨St.lengthMismatch, [], sub⟩]
      else
        let v := imageOf r.ty b
        let g (k : Nat) : Nat := if k = sub then v else s.get (index * 256 + k)
        refusedIf (valueStatus s r v != St.ok) (valueStatus s r v) sub ++ refusedIf (relationBad s index g [sub]) St.outOfRange sub
          ++ refusedOf 0 (writeStateRefuses s index sub v)
          ++ refusedIf (lockRefuses s index sub v card) St.lockedByRegulation sub
          ++ (if valueStatus s r v = St.ok then familyRefuses s ctx index sub v else [])

/-! ### What a written value does -/

/-- Replies still to be fetched until the reply to this request has left the device (R536): over MSPI those that wait, and
its own; by any other path the reply leaves with the request. -/
def repliesAhead (s : State) (ctx : Ctx) : Nat :=
  if ctx.path = .mspi then (s.mspi.queue.filter fun e => e.reply.isSome).length + 1 else 0

/-- A write of PowerMode (R536): NONE disarms, any other mode arms an attempt. -/
def State.powerArm (s : State) (ctx : Ctx) (v : Nat) : State :=
  { s with power := { s.power with armed := if v = 0 then none else some (repliesAhead s ctx) } }

/-- ImageCommand (R565). -/
def State.imageCommand (s : State) (ctx : Ctx) (v : Nat) : State :=
  if v = 1 then
    let s := { s with boot := { s.boot with staged := [] } }
    ((s.set K.boot_BytesReceived 0).set K.boot_ImageState 1).answer St.ok []
  else
    let s := { s with boot := { s.boot with verify := some (v, (if ctx.path = Path.remote then 3 else 4 : Nat)) } }
    ((s.set K.boot_ImageResult St.accepted).set K.boot_ImageState 2).answer St.accepted []

/-- ImageWrite (R565): bytes join the staging area. -/
def State.imageWrite (s : State) (b : List Nat) : State :=
  let p := imageSpan b
  let data := (b.drop 6).take p.2
  let m := (List.zip (List.range p.2) data).foldl (fun m e => SMap.set 0 (p.1 + e.1) (e.2 % 256) m) s.boot.staged
  let s := { s with boot := { s.boot with staged := m } }
  ((s.set K.boot_BytesReceived (max (s.get K.boot_BytesReceived) (p.1 + p.2))).set K.boot_ImageState 1).answer St.ok []

/-- DuplicateWindow has changed from `old` (R79): pairs older than either window are kept no longer. -/
def State.dupWindow (s : State) (old : Nat) : State :=
  let w := min old (s.get K.hostAccess_DuplicateWindow)
  { s with host := { s.host with
      kept := if w = 0 then [] else s.host.kept.filter fun k => decide (s.since k.since ≤ w) } }

/-- What a value just written does beside being held: `old` is the value before. -/
def State.written (s : State) (ctx : Ctx) (index sub old : Nat) : State :=
  let k := index * 256 + sub
  let v := s.get k
  if 0x2010 ≤ index ∧ index < 0x2014 ∧ k = K.timePulse_Polarity (index - 0x2010) then
    (s.polarityCopy (index - 0x2010) v).outputWritten k old
  else if 0x2000 ≤ index ∧ index < 0x3000 then s.outputWritten k old
  else if 0x3030 ≤ index ∧ index < 0x3040 then s.chainWritten k
  else if 0x3100 ≤ index ∧ index < 0x3200 then (if sub = 1 then s.entryWritten (index - 0x3100) v else s)
  else if index = 0x7020 ∨ (0x7140 ≤ index ∧ index < 0x7160) then s.ptpWritten index sub
  else if 0x5100 ≤ index ∧ index < 0x5102 then (if sub = 1 then s.positionWritten (index - 0x5100) else s)
  else if 0x7100 ≤ index ∧ index < 0x7120 then (if sub = 1 ∧ v = 0 then s.portDisable (index - 0x7100) else s)
  else if 0x7180 ≤ index ∧ index < 0x71A0 then (if sub = 1 then s.asymBegin (index - 0x7180) else s)
  else if 0x8000 ≤ index ∧ index < 0x9000 then s.readerJudge
  else if 0x9050 ≤ index ∧ index < 0x9058 then
    (if sub = 3 then s.polarityCopy (4 + (index - 0x9050)) v else s).outChanged (index - 0x9050)
  else if k = K.powerControl_PowerMode then s.powerArm ctx v
  else if k = K.hostAccess_DuplicateWindow then s.dupWindow old
  else s

/-- An action of an AX object (R46, R48) with its argument: it answers for itself. -/
def State.action (s : State) (ctx : Ctx) (index sub v : Nat) : State :=
  let k := index * 256 + sub
  if k = K.deviceControl_StateCommand then
    { s with boot := { s.boot with next := some v } }.answer St.accepted []
  else if k = K.deviceControl_ResetCommand then
    let kind : StartKind := if v = 2 then .cold else .warm
    let cause := if v = 2 then 5 else 4
    { s with boot := { s.boot with due := some (kind, cause, repliesAhead s ctx, v == 3) } }.answer St.ok []
  else if k = K.seeding_PondSeed then
    (s.handOver ⟨false, v, s.edgeAfter2ms, .host, none, errUnknown, false⟩).answer St.accepted []
  else if k = K.calibration_CalRequest then (s.calRequest v).answer St.accepted []
  else if 0x4200 ≤ index ∧ index < 0x4400 then (s.releaseSlot (index - 0x4200)).answer St.accepted []
  else if k = K.utc_HostLeap then (s.hostLeap (toBytes 15 v)).answer St.ok []
  else if k = K.messages_MessageSubmit then s.subTake ctx (toBytes 1064 v)
  else if k = K.launchQueue_LaunchSubmit then
    let r := s.launchAccept (toBytes 1000 v)
    r.1.answer St.accepted (toBytes 2 r.2)
  else if k = K.remote_RemoteRequest then s.remoteSubmit (toBytes 1026 v)
  else if 0x7080 ≤ index ∧ index < 0x70C0 then s.channelCommand (index - 0x7080) v
  else if 0x7100 ≤ index ∧ index < 0x7120 then (s.retrain (index - 0x7100)).answer St.accepted []
  else if k = K.reader_SynthCalibrate then s.synthTrigger.answer St.accepted []
  else if k = K.readerCommand then (s.readerCommand (toBytes 268 v)).answer St.accepted []
  else if k = K.delayScan_ScanCommand then
    (s.scanStart (if v = 255 then List.range 10 else [v])).answer St.accepted []
  else if k = K.timerGlobal_GroupStart then (s.groupStart v).answer St.ok []
  else if 0x9010 ≤ index ∧ index < 0x9020 then (s.timerCommand (index - 0x9010) v).answer St.ok []
  else if k = K.boot_ImageWrite then s.imageWrite (toBytes 1030 v)
  else if k = K.boot_ImageCommand then s.imageCommand ctx v
  else s.answer St.ok []

/-- Work that is due before a request executes: waits of the reader and stops of timers that are over by now. -/
def State.settle (s : State) : State := s.readerSettle.timersSettle

/-- A subindex takes a value, with what that does; RC values clear (R46, R47). -/
def State.putValue (s : State) (ctx : Ctx) (index : Nat) (r : Row) (v : Nat) : State :=
  let k := index * 256 + r.sub
  match r.acc with
  | .rc => match r.ty with
    | .bits16 | .bits32 => s.set k (Nat.land (s.get k) (2 ^ (8 * r.ty.bytes) - 1 - v))
    | .bool => if v = 1 then s.set k 0 else s
    | _ => s.set k 0
  | .ax => s.action ctx index r.sub v
  | _ =>
    let old := s.get k
    (s.set k v).written ctx index r.sub old

end Sys2Proof.Machine
end

