-- ==== Sys2Proof/Machine/Protect.lean ====
section
/-!
DEFINITION. Two-party change: proposal, confirmation, cancellation, expiry, and what the change of a protected object does
(spec/12, R403, R408 to R422; spec/03, R93; spec/19, R582).
-/

namespace Sys2Proof.Machine

/-! ### Records and closures -/

/-- No confirmer (R578). -/
def noPrincipal : Principal := ⟨0xFF, 0⟩

/-- DATA of a two-party record (R578). -/
def twoPartyData (c : Pending) (by_ : Principal) : List Nat :=
  toBytes 2 c.id ++ toBytes 2 c.index ++ [c.sub, c.proposer.byte, by_.byte, 0] ++ toBytes 2 c.proposer.addr
    ++ toBytes 2 by_.addr

/-- Change protection's own state. -/
def State.modProt (s : State) (f : ProtSt → ProtSt) : State := { s with prot := f s.prot }

/-- A pending change closes with an outcome: 0 applied, 1 expired, 2 cancelled; the last 8 closures are kept (R409). -/
def State.changeClose (s : State) (c : Pending) (outcome : Nat) : State :=
  s.modProt fun p => { p with pending := p.pending.filter (·.id != c.id), closed := (⟨c.id, c.proposer, outcome⟩ :: p.closed).take 8 }

/-- Applications and expiries are reported (R409). -/
def State.changeReport (s : State) (c : Pending) (result : Nat) : State :=
  (s.set K.twoParty_LastChangeId c.id).set K.twoParty_LastResult result

/-- A change expires, or is discarded (R410, R420). -/
def State.changeExpire (s : State) (c : Pending) : State :=
  let s := s.flag K.protection_ProtFlags 2 K.protection_ExpiredCount
  let s := s.log 0x0403 St.twoPartyExpired (twoPartyData c noPrincipal)
  (s.changeClose c 1).changeReport c St.twoPartyExpired

/-- Every change whose 3,932,160 CK_AON cycles are over expires (R410): at the next cycle. -/
def State.changesExpire (s : State) : State :=
  (s.prot.pending.filter fun c => decide (c.at_ + 3932160 < s.time.aon)).foldl (fun s c => s.changeExpire c) s

/-- A reset, or an entry to SLEEP, DEEP or OFF, discards every pending change (R420). -/
def State.changesDiscard (s : State) : State := s.prot.pending.foldl (fun s c => s.changeExpire c) s

/-- A change is cancelled by a principal. -/
def State.changeCancel (s : State) (c : Pending) (by_ : Principal) : State :=
  (s.log 0x0404 St.ok (twoPartyData c by_)).changeClose c 2

/-- Pending changes of a slot's principal are cancelled with the slot (R419). -/
def State.slotCancels (s : State) (k : Nat) : State :=
  (s.prot.pending.filter fun c => c.proposer.slot == some k).foldl (fun s c => s.changeCancel c noPrincipal) s

/-! ### What a change does when it applies -/

/-- The log is cleared (R582): every record is discarded and LOG_CLEARED takes the next SEQ; queued records take later ones. -/
def State.logClear (s : State) (c : Pending) (by_ : Principal) : State :=
  let n := s.silt.recs.length
  let q := s.silt.queue
  let first := s.silt.nextSeq - q.length
  let r : SiltRec :=
    { seq := first, opSec := s.time.opSec, cycles := s.time.cycles, pondValid := s.timing != 0, pond := s.now96, code := 0x0901,
      tstate := s.timing, dstate := s.device, status := St.ok,
      data := toBytes 2 n ++ toBytes 2 c.id ++ [c.proposer.byte, by_.byte] ++ List.replicate 6 0, check := 0 }
  let q := (List.zip (List.range q.length) q).map fun e => siltSeal { e.2 with seq := first + 1 + e.1 }
  let s := { s with silt := { s.silt with recs := [siltSeal r], queue := q, nextSeq := s.silt.nextSeq + 1 } }
  s.bump K.siltLog_ClearCount 2

/-- The value of a confirmed change applies; the status of the reply (R403, R409, R413, R417, R582, R93). -/
def State.changeApply (s : State) (c : Pending) (by_ : Principal) : State × Nat :=
  let k := c.index * 256 + c.sub
  let v := ofBytes c.value
  if k = K.seeding_ReseedRequest then
    let s := (s.set k v).set K.seeding_ReseedResult St.accepted
    let r : Reseed := { source := byteAt c.value 0, value := field c.value 1 12, since := s.elapsed, changeId := c.id, logged := none }
    ({ s with time := { s.time with reseed := some r } }, St.accepted)
  else if k = K.siltLog_LogClear then ((s.set k v).logClear c by_, St.ok)
  else if 0xC020 ≤ c.index ∧ c.index < 0xC030 then
    let n := c.index - 0xC020
    let s := if c.sub = 4 then (match keyOfProposal s c.proposer.slot v with | some key => s.keyPut n key | none => s) else s.set k v
    (if c.sub = 3 then s else s.slotCancels n, St.ok)
  else if k = K.imageSecurity_RollbackAdvance then ((s.set k v).set K.imageSecurity_AntiRollback v, St.ok)
  else if k = K.imageSecurity_RootKeyRevoked then (s.set k (Nat.lor (s.get k) v), St.ok)
  else if c.index = 0xC060 then
    let s := s.set k v
    let s := if 2 ≤ c.sub ∧ c.sub ≤ 4 then s.modProt fun p => { p with ceiling := true } else s
    (if c.sub = 5 then s.protoNarrowed else s, St.ok)
  else (s.set k v, St.ok)

/-! ### Propose (R408) -/

/-- A role that is no party to two-party changes. -/
def noParty (role : Nat) : Bool := role == 4 || role == 5 || role == 6

/-- The checks of a proposal after those of R53, in order. -/
def proposalRefuses (s : State) (ctx : Ctx) (index sub : Nat) (card : Bool) : Option Nat :=
  let role := roleOf s ctx
  let pw : Bool := match findRow index sub with | some r => r.acc == .pw | none => false
  if !pw then some St.outOfRange
  else if noParty role then some St.notAuthorised
  else if index * 256 + sub = K.seeding_ReseedRequest ∧ !bit (s.get K.protection_StepAuthority) role then some St.notAuthorised
  else if s.prot.pending.any fun c => c.index == index && c.sub == sub then some St.twoPartyPending
  else if 8 ≤ s.prot.pending.length ∨ (card ∧ s.prot.pending.any (·.card)) then some St.busy
  else if card ∧ bits (s.get K.regulatoryLocks_AllowedProtocols) 1 0 = 0 then some St.lockedByRegulation
  else none

/-- A write of Propose: 1,040 bytes. -/
def State.propose (s : State) (ctx : Ctx) (b : List Nat) : State :=
  let own := writeRefusals s ctx 0xC040 1 b false
  let index := field b 0 2
  let sub := byteAt b 2
  let card := byteAt b 3 % 2 == 1
  let len := field b 4 2
  let value := (b.drop 6).take len
  let form := refusedIf (decide (2 ≤ byteAt b 3)) St.reservedBits 1 ++ refusedIf (decide (1034 < len)) St.lengthMismatch 1
    ++ refusedIf ((b.drop (6 + len)).any (· != 0)) St.outOfRange 1
  let target := writeRefusals s ctx index sub value card
  let fits : Bool := match findRow index sub with | some r => lengthOk r.ty len && r.acc == .pw | none => false
  let more := if fits then pwBad s ctx index sub (ofBytes value) else []
  let all := if own.any fun r => decide (checkOrder r.status ≤ 6) then own else own ++ form ++ target ++ more
  match firstRefused all with
  | some r => s.answer r.status r.data
  | none => match proposalRefuses s ctx index sub card with
    | some e => s.answer e []
    | none =>
      let id := s.prot.changeId % 65535 + 1
      let digest := (sha256 (toBytes 2 id ++ toBytes 2 index ++ [sub] ++ toBytes 2 len ++ value)).take 8
      let c : Pending := { id := id, index := index, sub := sub, value := value, proposer := principalOf ctx, role := roleOf s ctx,
                           card := card, digest := digest, at_ := s.time.aon }
      let s := s.modProt fun p => { p with changeId := id, pending := p.pending ++ [c] }
      (s.log 0x0401 St.ok (twoPartyData c noPrincipal)).answer St.accepted (toBytes 2 id ++ digest)

/-! ### Confirm (R409) -/

/-- The present role of a principal. -/
def roleNow (s : State) (p : Principal) : Nat :=
  match p.slot with
  | some k => s.get (K.keySlot_KeyRole k)
  | none =>
    if p.byte = 0x10 then s.get K.protection_MspiRole else if p.byte = 0x20 then s.get K.protection_HostUnauthRole
    else if p.byte = 0x30 then s.get K.protection_RemoteUnauthRole else if p.byte = 0x40 then 5 else 6

/-- Steps 3 to 5 of R409 for a pending change and a confirmer; `card`: the confirmer is a card of role SECURITY_OFFICER. -/
def confirmRefuses (s : State) (c : Pending) (by_ : Principal) (card : Bool) : Option (Nat × List Nat) :=
  let role := roleNow s by_
  if by_.same c.proposer ∨ role = c.role ∨ noParty role then some (St.notAuthorised, [])
  else if !(mayWrite s role c.index && mayWrite s (roleNow s c.proposer) c.index) then some (St.notAuthorised, [])
  else
    let ctx : Ctx := { path := .mspi, slot := c.proposer.slot, source := c.proposer.addr, tag := 0, at_ := 0, aon := 0 }
    let v := ofBytes c.value
    let l := refusedOf 0 (writeStateRefuses s c.index c.sub v) ++ refusedIf (lockRefuses s c.index c.sub v card) St.lockedByRegulation c.sub
      ++ pwBad s ctx c.index c.sub v
    (firstRefused (l.filter fun r => decide (10 ≤ checkOrder r.status))).map fun r => (r.status, r.data)

/-- Steps 3 onward: the change applies, or stays pending. -/
def State.confirmBy (s : State) (c : Pending) (by_ : Principal) (card : Bool) : State :=
  match confirmRefuses s c by_ card with
  | some e => s.answer e.1 e.2
  | none =>
    let clears := decide (c.index * 256 + c.sub = K.siltLog_LogClear)
    let s := if clears then s else s.log 0x0402 St.ok (twoPartyData c by_)
    let s := s.changeClose c 0
    let r := s.changeApply c by_
    (r.1.changeReport c r.2).answer r.2 []

/-- A write of Confirm: CHANGE_ID and DIGEST. -/
def State.confirm (s : State) (ctx : Ctx) (b : List Nat) : State :=
  match firstRefused (writeRefusals s ctx 0xC040 2 b false) with
  | some r => s.answer r.status r.data
  | none =>
    let id := field b 0 2
    match s.prot.pending.find? fun c => c.id == id with
    | none => match s.prot.closed.find? fun c => c.id == id with
      | some c => s.answer (if c.outcome = 0 then St.ok else if c.outcome = 1 then St.twoPartyExpired else St.outOfRange) []
      | none => s.answer St.outOfRange []
    | some c =>
      if (b.drop 2).take 8 ≠ c.digest then s.answer St.integrityFail []
      else s.confirmBy c (principalOf ctx) false

/-! ### Cancel (R410) -/

/-- A write of Cancel. -/
def State.cancel (s : State) (ctx : Ctx) (b : List Nat) : State :=
  let own := writeRefusals s ctx 0xC040 3 b false
  let me := principalOf ctx
  let officer := roleOf s ctx == 3
  let id := ofBytes b
  let held := s.prot.pending.find? fun c => c.id == id
  let closed := s.prot.closed.find? fun c => c.id == id
  let proposer := match held, closed with
    | some c, _ => some c.proposer
    | none, some c => some c.proposer
    | none, none => none
  let allowed := officer || (proposer.any fun p => me.same p)
  let auth := refusedIf (!allowed && decide (b.length = 2)) St.notAuthorised 3
  match firstRefused (own ++ auth) with
  | some r => s.answer r.status r.data
  | none => match held, closed with
    | some c, _ => (s.changeCancel c me).answer St.ok []
    | none, some c => s.answer (if c.outcome = 2 then St.ok else if c.outcome = 1 then St.twoPartyExpired else St.outOfRange) []
    | none, none => s.answer St.outOfRange []

/-! ### Card confirmation (R411) -/

/-- A poll is due: a change with CARD is pending, CardPosition names a position, a Type A or B card is allowed (R421), 250 ms
have passed since the last poll. -/
def cardPollDue (s : State) : Bool :=
  s.prot.pending.any (·.card) && s.get K.twoParty_CardPosition != 255
    && bits (s.get K.regulatoryLocks_AllowedProtocols) 1 0 != 0
    && (match s.prot.pollAt with | none => true | some t => decide (t + 250 * MS ≤ s.elapsed))

/-- A poll of CardPosition in a field burst of `us` µs: whether a card activated, its answers to SELECT and to the second
command, the CHALLENGE the device's random generator gave, and its last frame. -/
def State.cardPoll (s : State) (present : Bool) (select answer challenge : List Nat) (e : JobEnd) (us : Nat) : State :=
  if !cardPollDue s then s
  else if s.reader.cmd.isSome then s
  else
    let s := s.modProt fun p => { p with pollAt := some s.elapsed }
    match s.jobField (s.get K.twoParty_CardPosition) (s.get K.field_PowerStep) (min us 100000) with
    | none => s
    | some s =>
      let proto := if bit (s.get K.regulatoryLocks_AllowedProtocols) 0 then 0x10 else 0x20
      let s := s.jobResult (s.get K.twoParty_CardPosition) proto (if present then 0 else 1) e []
      if !present then
        if s.prot.cardHeld ∧ s.prot.cardAt + SEC ≤ s.elapsed then s.modProt fun p => { p with cardHeld := false } else s
      else if s.prot.cardHeld ∧ s.elapsed < s.prot.cardAt + SEC then s.modProt fun p => { p with cardAt := s.elapsed }
      else match s.prot.pending.find? (·.card) with
        | none => s
        | some c =>
          let fail (s : State) : State :=
            (s.flag K.protection_ProtFlags 0 K.protection_AuthFailCount).modProt fun p => { p with cardHeld := true, cardAt := s.elapsed }
          let id := answer.take 8
          let mac := (answer.drop 8).take 16
          if select ≠ [0x90, 0x00] ∨ answer.length ≠ 26 ∨ answer.drop 24 ≠ [0x90, 0x00] then fail s
          else match (List.range 16).find? fun k => s.get (K.keySlot_KeyState k) == 1 && s.get (K.keySlot_KeyId k) == ofBytes id with
            | none => fail s
            | some k =>
              if cmac (keyOf s k) (toBytes 2 c.id ++ c.digest ++ challenge ++ id) ≠ mac then fail s
              else
                let r := s.reply
                let s := s.confirmBy c ⟨0x60 + k, 0⟩ (s.get (K.keySlot_KeyRole k) == 3)
                { s with reply := r }

end Sys2Proof.Machine
end

