-- ==== Sys2Proof/Machine/Flags.lean ====
section
/-!
DEFINITION. Vuvan arithmetic and its flags (R428 to R431, R461, R467 to R471): exact results as integers, limiting,
convergent rounding, conditions, packed decimal.
-/

namespace Sys2Proof.Machine

/-! ### ST (R428) -/

/-- A bit of ST. -/
def stBit (st : Word) (i : Nat) : Bool := st.getLsbD i
/-- ST with a bit as told. -/
def stPut (st : Word) (i : Nat) (b : Bool) : Word :=
  if b then st ||| BitVec.twoPow 24 i else st &&& ~~~(BitVec.twoPow 24 i)
/-- ST with C. -/
def stC (st : Word) (b : Bool) : Word := stPut st 0 b
/-- ST with V, and L with it (R428). -/
def stV (st : Word) (b : Bool) : Word := if b then stPut (stPut st 1 true) 4 true else stPut st 1 false
/-- ST with Z and N of a result. -/
def stZN (st : Word) (z n : Bool) : Word := stPut (stPut st 3 z) 2 n
/-- ST with Z. -/
def stZ (st : Word) (z : Bool) : Word := stPut st 3 z
/-- SAT. -/
def stSat (st : Word) : Bool := stBit st 6
/-- LD, the active loop levels. -/
def stLd (st : Word) : Nat := (st.toNat / 256) % 8
/-- ST with LD. -/
def stSetLd (st : Word) (n : Nat) : Word := (st &&& ~~~(0x000700 : Word)) ||| (BitVec.ofNat 24 (n % 8 * 256))
/-- U: core 3 in USER mode. -/
def stUser (st : Word) : Bool := stBit st 12

/-- A condition of R461. -/
def condHolds (cond : Nat) (st : Word) : Bool :=
  let c := stBit st 0; let v := stBit st 1; let n := stBit st 2; let z := stBit st 3; let l := stBit st 4
  match cond with
  | 0 => true | 1 => z | 2 => !z | 3 => n | 4 => !n | 5 => v | 6 => !v | 7 => c | 8 => !c
  | 9 => !z && (n == v) | 10 => n == v | 11 => n != v | 12 => z || n != v
  | 13 => !c && !z | 14 => c || z | _ => l

/-! ### Limiting and rounding (R430, R431) -/

/-- An exact result at 24 bits: the word, limited when told to, and V. -/
def fit24 (sat : Bool) (x : Int) : Word × Bool :=
  let above := decide (x < -8388608) || decide (8388607 < x)
  (if sat && above then BitVec.ofInt 24 (clamp (-8388608) 8388607 x) else BitVec.ofInt 24 x, above)

/-- The 48-bit range of R430. -/
def lim48 (x : Int) : Int := clamp (-140737488355328) 140737488355327 x

/-- An exact result for an accumulator: V on 56-bit overflow, or, under SAT, on limiting to the 48-bit range. -/
def fit56 (sat : Bool) (x : Int) : Acc × Bool :=
  if sat then (BitVec.ofInt 56 (lim48 x), decide (lim48 x ≠ x))
  else (BitVec.ofInt 56 x, decide (x < -36028797018963968) || decide (36028797018963967 < x))

/-- Convergent rounding to a whole number of AnU units, exact (R431). -/
def rnd (v : Int) : Int :=
  let t := v + 8388608
  let t := if v % 16777216 = 8388608 then (if (t / 16777216) % 2 = 1 then t - 16777216 else t) else t
  t - t % 16777216

/-! ### The ALU group (R467) -/

/-- The operations of the ALU group that write GD and flags. -/
inductive Alu where
  | add | adc | sub | sbc | cmp | neg | abs | and | or | xor | andn | not | tst
  | asl | asr | lsl | lsr | btst | bset | bclr | btgl | norm | min | max | maxx | minx
  | addd | adcd | subd | sbcd | mul | imul | umul
  deriving DecidableEq, Repr

/-- An arithmetic result: limited under SAT, with Z N V and C. -/
def arith (st : Word) (x : Int) (carry : Bool) : Word × Word :=
  let r := fit24 (stSat st) x
  (r.1, stC (stV (stZN st (r.1 == 0) r.1.msb) r.2) carry)

/-- A logical result: Z N, V clear. -/
def logic (st r : Word) : Word × Word := (r, stV (stZN st (r == 0) r.msb) false)

/-- The last bit a shift moves out: bit `i` of the word, or what lies beyond it. -/
def shiftC (st a : Word) (s : Nat) (i : Int) (beyond : Bool) : Word :=
  if s = 0 then st else stC st (if 0 ≤ i ∧ i < 24 then a.getLsbD i.toNat else beyond)

/-- The number of bits below bit 23 that equal it before the first that differs. -/
def redundant (a : Word) : Nat :=
  ((List.range 23).findIdx? fun i => a.getLsbD (22 - i) != a.msb).getD 23

/-- The ALU operations on a and b: the word for GD (meaningless where GD is not written) and ST. -/
def alu (op : Alu) (st a b : Word) : Word × Word :=
  let cin : Int := if stBit st 0 then 1 else 0
  let s := b.toNat % 64
  let k := b.toNat % 32
  let bitw : Word := BitVec.twoPow 24 k
  match op with
  | .add => arith st (a.toInt + b.toInt) (decide (2 ^ 24 ≤ a.toNat + b.toNat))
  | .adc => arith st (a.toInt + b.toInt + cin) (decide (2 ^ 24 ≤ (a.toNat : Int) + b.toNat + cin))
  | .sub => arith st (a.toInt - b.toInt) (decide (a.toNat < b.toNat))
  | .sbc => arith st (a.toInt - b.toInt - cin) (decide ((a.toNat : Int) < b.toNat + cin))
  | .cmp =>
    let x := a.toInt - b.toInt
    let r : Word := BitVec.ofInt 24 x
    (r, stC (stV (stZN st (r == 0) r.msb) (fit24 false x).2) (decide (a.toNat < b.toNat)))
  | .neg => arith st (-a.toInt) (decide (a ≠ 0))
  | .abs =>
    let r := fit24 (stSat st) (if a.toInt < 0 then -a.toInt else a.toInt)
    (r.1, stV (stZN st (r.1 == 0) r.1.msb) r.2)
  | .and => logic st (a &&& b)
  | .or => logic st (a ||| b)
  | .xor => logic st (a ^^^ b)
  | .andn => logic st (a &&& ~~~b)
  | .not => logic st (~~~a)
  | .tst => logic st (a &&& b)
  | .asl =>
    let r := fit24 (stSat st) (a.toInt * 2 ^ s)
    (r.1, shiftC (stV (stZN st (r.1 == 0) r.1.msb) r.2) a s (24 - (s : Int)) false)
  | .asr =>
    let r : Word := a.sshiftRight s
    (r, shiftC (stV (stZN st (r == 0) r.msb) false) a s ((s : Int) - 1) a.msb)
  | .lsl =>
    let r : Word := a <<< s
    (r, shiftC (stZN st (r == 0) r.msb) a s (24 - (s : Int)) false)
  | .lsr =>
    let r : Word := a >>> s
    (r, shiftC (stZN st (r == 0) r.msb) a s ((s : Int) - 1) false)
  | .btst => (a, stZ st (!(a.getLsbD k)))
  | .bset => let r : Word := a ||| bitw; (r, stZN st (r == 0) r.msb)
  | .bclr => let r : Word := a &&& ~~~bitw; (r, stZN st (r == 0) r.msb)
  | .btgl => let r : Word := a ^^^ bitw; (r, stZN st (r == 0) r.msb)
  | .norm => let r : Word := BitVec.ofNat 24 (redundant a); (r, stZ st (r == 0))
  | .min => let r : Word := if a.toInt ≤ b.toInt then a else b; (r, stZN st (r == 0) r.msb)
  | .max => let r : Word := if a.toInt ≤ b.toInt then b else a; (r, stZN st (r == 0) r.msb)
  | _ => (a, st)

/-! ### Packed decimal (R468) -/

/-- The six digits of a word, most significant first. -/
def bcdDigits (a : Word) : List Nat := (List.range 6).map fun i => (a.toNat / 16 ^ (5 - i)) % 16
/-- The number six digits spell. -/
def dec (a : Word) : Nat := (bcdDigits a).foldl (fun v d => v * 10 + d) 0
/-- The word of a number below 1,000,000. -/
def bcd (v : Nat) : Word := BitVec.ofNat 24 ((List.range 6).foldl (fun w i => w * 16 + (v / 10 ^ (5 - i)) % 10) 0)

/-- A packed decimal sum or difference: none for GD where a digit is not decimal. -/
def decimal (sub : Bool) (carry : Bool) (st a b : Word) : Option Word × Word :=
  if (bcdDigits a ++ bcdDigits b).any fun d => decide (9 < d) then (none, stV st true)
  else
    let cin : Int := if carry && stBit st 5 then 1 else 0
    let r : Int := if sub then (dec a : Int) - dec b - cin else (dec a : Int) + dec b + cin
    let dc := if sub then decide (r < 0) else decide (1000000 ≤ r)
    let st := stPut st 5 dc
    let lim := dc && stSat st
    let r : Nat := if lim then (if sub then 0 else 999999) else (r % 1000000).toNat
    let st := stV st lim
    (some (bcd r), stZN st (decide (r = 0)) false)

/-! ### Products (R470) -/

/-- PH and PL of MUL, IMUL and UMUL as a 48-bit image, and ST. -/
def product (op : Alu) (st a b : Word) : BitVec 48 × Word :=
  match op with
  | .mul =>
    if a = 0x800000 ∧ b = 0x800000 then
      (if stSat st then 0x7FFFFFFFFFFF else 0x800000000000, stV st true)
    else (BitVec.ofInt 48 (2 * a.toInt * b.toInt), stV st false)
  | .umul => (BitVec.ofNat 48 (a.toNat * b.toNat), stV st false)
  | _ => (BitVec.ofInt 48 (a.toInt * b.toInt), stV st false)

/-! ### Search (R469) -/

/-- The comparison of a search: the candidate replaces the running value. -/
def beats (isMax : Bool) (v g : Word) : Bool :=
  if isMax then decide (g.toInt < v.toInt) else decide (v.toInt < g.toInt)

/-- |v|, at most 0x7FFFFF. -/
def magnitude (v : Word) : Word :=
  if v.toInt < 0 then BitVec.ofInt 24 (clamp 0 8388607 (-v.toInt)) else v

/-! ### The accumulator group (R471) -/

/-- The operations of the accumulator group. -/
inductive AccOp where
  | mpy | mac | msc | mpyr | macr | imac | aadd | asub | amov | aneg | aabs | aclr | acmp | rnd | asat | ash
  | aget | agets | agetr
  deriving DecidableEq, Repr

/-- The exact result of an operation that writes AD (or that ACMP compares): from AD, AS, a and b. -/
def accExact (op : AccOp) (ad as_ : Acc) (a b : Word) : Int :=
  let p := 2 * a.toInt * b.toInt
  let q := a.toInt * b.toInt
  match op with
  | .mpy => p
  | .mac => ad.toInt + p
  | .msc => ad.toInt - p
  | .mpyr => rnd p
  | .macr => rnd (ad.toInt + p)
  | .imac => ad.toInt + q
  | .aadd => ad.toInt + as_.toInt
  | .asub | .acmp => ad.toInt - as_.toInt
  | .aneg => -as_.toInt
  | .aabs => if as_.toInt < 0 then -as_.toInt else as_.toInt
  | .aclr => 0
  | .rnd => rnd as_.toInt
  | .ash =>
    let s := clamp (-56) 56 a.toInt
    if s < 0 then as_.toInt.fdiv (2 ^ (-s).toNat) else as_.toInt * 2 ^ s.toNat
  | _ => as_.toInt

/-- The value and flags of an operation that writes AD. -/
def accResult (op : AccOp) (st : Word) (x : Int) : Acc × Word :=
  let r := match op with
    | .asat => (BitVec.ofInt 56 (lim48 x), decide (lim48 x ≠ x))
    | .acmp => fit56 false x
    | _ => fit56 (stSat st) x
  (r.1, stV (stZN st (r.1 == 0) r.1.msb) r.2)

/-- The word and ST of AGET, AGETS and AGETR. -/
def accGet (op : AccOp) (st : Word) (as_ : Acc) : Word × Word :=
  let up (x : Int) : Word := ((BitVec.ofInt 56 x : Acc).extractLsb' 24 24)
  match op with
  | .agets => let t := lim48 as_.toInt; (up t, stV st (decide (t ≠ as_.toInt)))
  | .agetr => let r := rnd as_.toInt; let t := lim48 r; (up t, stV st (decide (t ≠ r)))
  | _ => (as_.extractLsb' 24 24, st)

end Sys2Proof.Machine
end

