-- ==== Sys2Proof/Machine/Float.lean ====
section
/-!
DEFINITION. IEEE 754 binary64 arithmetic (R478, R479), exact and then rounded to nearest with ties to even.
A finite value is a sign and a magnitude m times 2^e.
-/

namespace Sys2Proof.Machine

/-- What an F image holds. -/
inductive FVal where
  | nan (signalling : Bool)
  | inf (neg : Bool)
  | fin (neg : Bool) (m : Nat) (e : Int)
  deriving DecidableEq, Repr

/-- The NaN result (R478). -/
def fNaN : FReg := 0x7FF8000000000000

/-- Read an image. -/
def fRead (f : FReg) : FVal :=
  let neg := f.msb
  let ex : Nat := (f.toNat / 2 ^ 52) % 2048
  let m : Nat := f.toNat % 2 ^ 52
  if ex = 2047 then (if m = 0 then .inf neg else .nan (!(f.getLsbD 51)))
  else if ex = 0 then .fin neg m (-1074)
  else .fin neg (m + 2 ^ 52) ((ex : Int) - 1075)

/-- Exception bits of FP_CTRL: 1 INVALID, 2 DIVZERO, 4 OVERFLOW, 8 INEXACT. -/
abbrev FExc := Nat

/-- An infinity or a zero. -/
def fInf (neg : Bool) : FReg := if neg then 0xFFF0000000000000 else 0x7FF0000000000000
/-- A zero. -/
def fZero (neg : Bool) : FReg := if neg then 0x8000000000000000 else 0

/-- A magnitude m times 2^e, with `sticky` for a non-zero part below it, divided by 2^k and rounded: quotient and whether
anything was lost. `k` may be negative: then nothing is lost. -/
def roundShift (m : Nat) (k : Int) (sticky : Bool) : Nat × Bool :=
  if k ≤ 0 then (m * 2 ^ (-k).toNat, sticky)
  else
    let d := 2 ^ k.toNat
    let q := m / d
    let r := m % d
    let half := decide (2 * r = d)
    let up := decide (d < 2 * r) || (half && (sticky || q % 2 == 1))
    (if up then q + 1 else q, decide (r ≠ 0) || sticky)

/-- Round m times 2^e to an image (R478), with its exceptions. -/
def fRound (neg : Bool) (m : Nat) (e : Int) (sticky : Bool) : FReg × FExc :=
  if m = 0 then (fZero neg, if sticky then 8 else 0)
  else
    -- the exponent of the last place: 53 significant bits, no lower than 2^-1074
    let lsb : Int := max ((m.log2 : Int) + e - 52) (-1074)
    let r := roundShift m (lsb - e) sticky
    let q := r.1
    let lsb := if q = 2 ^ 53 then lsb + 1 else lsb
    let q := if q = 2 ^ 53 then 2 ^ 52 else q
    let sgn : Nat := if neg then 2 ^ 63 else 0
    if 971 < lsb then (fInf neg, 4 + 8)
    else
      let img := if q < 2 ^ 52 then q else ((lsb + 1075).toNat) * 2 ^ 52 + (q - 2 ^ 52)
      (BitVec.ofNat 64 (sgn + img), if r.2 then 8 else 0)

/-- An exact integer times 2^e, rounded; a zero takes the sign given. -/
def fOfInt (x : Int) (e : Int) (zneg : Bool) : FReg × FExc :=
  if x = 0 then (fZero zneg, 0) else fRound (decide (x < 0)) x.natAbs e false

/-- Some operand is a NaN: the NaN result, INVALID for a signalling one. -/
def fNanOf (l : List FVal) : Option (FReg × FExc) :=
  if l.any fun v => match v with | .nan _ => true | _ => false then
    some (fNaN, if l.any fun v => match v with | .nan true => true | _ => false then 1 else 0)
  else none

/-- FA + FB; FSUB negates FB first. -/
def fAddV (a b : FVal) : FReg × FExc :=
  match fNanOf [a, b] with
  | some r => r
  | none => match a, b with
    | .inf x, .inf y => if x = y then (fInf x, 0) else (fNaN, 1)
    | .inf x, _ => (fInf x, 0)
    | _, .inf y => (fInf y, 0)
    | .fin x m e, .fin y n f =>
      let lo := min e f
      let v (neg : Bool) (m : Nat) (e : Int) : Int :=
        let w : Int := ((m * 2 ^ (e - lo).toNat : Nat) : Int)
        if neg then -w else w
      fOfInt (v x m e + v y n f) lo (x && y)
    | _, _ => (fNaN, 0)

/-- The value with its sign inverted. -/
def FVal.negate : FVal → FVal
  | .nan s => .nan s
  | .inf x => .inf (!x)
  | .fin x m e => .fin (!x) m e

/-- FA times FB. -/
def fMulV (a b : FVal) : FReg × FExc :=
  match fNanOf [a, b] with
  | some r => r
  | none => match a, b with
    | .inf x, .inf y => (fInf (x != y), 0)
    | .inf x, .fin y n _ => if n = 0 then (fNaN, 1) else (fInf (x != y), 0)
    | .fin x m _, .inf y => if m = 0 then (fNaN, 1) else (fInf (x != y), 0)
    | .fin x m e, .fin y n f => fRound (x != y) (m * n) (e + f) false
    | _, _ => (fNaN, 0)

/-- FA over FB; DIVZERO when FB is zero and FA is finite and not zero. -/
def fDivV (a b : FVal) : FReg × FExc :=
  match fNanOf [a, b] with
  | some r => r
  | none => match a, b with
    | .inf _, .inf _ => (fNaN, 1)
    | .inf x, .fin y _ _ => (fInf (x != y), 0)
    | .fin x _ _, .inf y => (fZero (x != y), 0)
    | .fin x m e, .fin y n f =>
      if n = 0 then (if m = 0 then (fNaN, 1) else (fInf (x != y), 2))
      else
        -- at least 55 significant bits of the quotient, and whether a remainder is left
        let k : Nat := 120
        let q : Nat := m * 2 ^ k / n
        fRound (x != y) q (e - f - (k : Int)) (decide (m * 2 ^ k % n ≠ 0))
    | _, _ => (fNaN, 0)

/-- The integer square root by bits from the top. -/
def fIsqrt : Nat → Nat → Nat → Nat
  | 0, _, r => r
  | n + 1, v, r => let c := r + 2 ^ n; if c * c ≤ v then fIsqrt n v c else fIsqrt n v r

/-- The square root of FA; INVALID below zero. -/
def fSqrtV (a : FVal) : FReg × FExc :=
  match a with
  | .nan s => (fNaN, if s then 1 else 0)
  | .inf x => if x then (fNaN, 1) else (fInf false, 0)
  | .fin x m e =>
    if m = 0 then (fZero x, 0)
    else if x then (fNaN, 1)
    else
      -- an even exponent and a magnitude of at least 108 bits
      let k : Nat := if (e % 2 = 0) then 120 else 121
      let v := m * 2 ^ k
      let r := fIsqrt (v.log2 / 2 + 1) v 0
      fRound false r ((e - k) / 2) (decide (r * r ≠ v))

/-- The operations of the floating-point group. -/
inductive FOp where
  | fadd | fsub | fmul | fdiv | fsqrt | fneg | fabs | fmov | fcmp
  deriving DecidableEq, Repr

/-- A result other than FCMP, a NaN being the NaN result of R478. -/
def fResult (op : FOp) (a b : FReg) : FReg × FExc :=
  match op with
  | .fadd => fAddV (fRead a) (fRead b)
  | .fsub => fAddV (fRead a) (fRead b).negate
  | .fmul => fMulV (fRead a) (fRead b)
  | .fdiv => fDivV (fRead a) (fRead b)
  | .fsqrt => fSqrtV (fRead a)
  | op =>
    match fRead a with
    | .nan _ => (fNaN, 0)
    | _ =>
      (match op with
       | .fneg => a ^^^ 0x8000000000000000
       | .fabs => a &&& 0x7FFFFFFFFFFFFFFF
       | _ => a, 0)

/-- Cycles after which a result of the group is valid (R478). -/
def FOp.latency : FOp → Nat
  | .fmul => 5
  | .fdiv | .fsqrt => 24
  | _ => 4

/-- FCMP: Z, N, C, and INVALID on a signalling NaN. -/
def fCompare (a b : FReg) : Bool × Bool × Bool × FExc :=
  let va := fRead a
  let vb := fRead b
  match fNanOf [va, vb] with
  | some r => (false, false, true, r.2)
  | none => match va, vb with
    | .inf x, .inf y => (decide (x = y), x && !y, false, 0)
    | .inf x, _ => (false, x, false, 0)
    | _, .inf y => (false, !y, false, 0)
    | .fin x m e, .fin y n f =>
      let lo := min e f
      let v (neg : Bool) (m : Nat) (e : Int) : Int :=
        let w : Int := ((m * 2 ^ (e - lo).toNat : Nat) : Int)
        if neg then -w else w
      (decide (v x m e = v y n f), decide (v x m e < v y n f), false, 0)
    | _, _ => (false, false, true, 0)

/-- A value times 2^k rounded to an integer and held within bounds: NaN gives 0; INVALID for NaN and when limited,
INEXACT when rounded (R479). -/
def fToInt (f : FReg) (k : Int) (lo hi : Int) : Int × FExc :=
  match fRead f with
  | .nan _ => (0, 1)
  | .inf x => (if x then lo else hi, 1)
  | .fin x m e =>
    let r := roundShift m (-(e + k)) false
    let v : Int := if x then -(r.1 : Int) else r.1
    if v < lo then (lo, 1) else if hi < v then (hi, 1) else (v, if r.2 then 8 else 0)

/-- The conversions of R479. -/
inductive FConv where
  | fitof | futof | fftoi | fqtof | fftoq | fatof | fftoa
  deriving DecidableEq, Repr

/-- The value of a conversion to F. -/
def fFrom (op : FConv) (g : Word) (a : Acc) : FReg × FExc :=
  match op with
  | .futof => fOfInt g.toNat 0 false
  | .fqtof => fOfInt g.toInt (-23) false
  | .fatof => fOfInt a.toInt (-47) false
  | _ => fOfInt g.toInt 0 false

end Sys2Proof.Machine
end

