-- ==== Sys2Proof/Machine/Operands.lean ====
section
/-!
DEFINITION. Vuvan operand forms (spec/14, R457 to R464; spec/13, R432 to R435, R453): register codes, effective
addresses, instruction words and the checks of R462.
-/

namespace Sys2Proof.Machine

/-- The traps (R441, R442). -/
inductive Trap where
  | undef | resv | illegalRepeat
  /-- ACCESS, with its data address where it has one. -/
  | access (addr : Option Word)
  | loopNest | stack | budget | fpu
  deriving DecidableEq, Repr

/-- The place of a trap in the argument order of Config.trapCode. -/
def Trap.place : Trap → Nat
  | .undef => 0 | .resv => 1 | .illegalRepeat => 2 | .access _ => 3 | .loopNest => 4 | .stack => 5 | .budget => 6 | .fpu => 7

/-- The cause code of a trap, within 1 to 8 (R447). -/
def Trap.code (t : Trap) : Nat := 1 + Config.trapCode t.place % 8

/-- A bit field of an instruction word. -/
def fld (w : Word) (hi lo : Nat) : Nat := bits w.toNat hi lo

/-! ### Registers by code (R459) -/

/-- The codes of R459. -/
def regListed (c : Nat) : Bool :=
  decide (c < 0x46) || (decide (0x48 ≤ c) && decide (c < 0x54))

/-- FBUSY: an FDIV or FSQRT is in progress. -/
def CoreSt.fbusy (k : CoreSt) : Bool := k.exposed.any fun e => e.busy

/-- ST as it reads. -/
def CoreSt.stRead (k : CoreSt) : Word := stPut k.st 11 k.fbusy

/-- Read a register by its code; PCX holds `next` while an instruction executes. -/
def CoreSt.readReg (k : CoreSt) (c : Nat) : Word :=
  if c < 0x10 then k.g.getD c 0
  else if c < 0x18 then k.j.getD (c - 0x10) 0
  else if c < 0x20 then k.m.getD (c - 0x18) 0
  else if c < 0x28 then k.k.getD (c - 0x20) 0
  else if c < 0x30 then k.l.getD (c - 0x28) 0
  else if c < 0x34 then (k.a.getD (c - 0x30) 0).extractLsb' 24 24
  else if c < 0x38 then ((k.a.getD (c - 0x34) 0).extractLsb' 48 8).signExtend 24
  else if c < 0x3C then (k.a.getD (c - 0x38) 0).extractLsb' 0 24
  else if c < 0x40 then (k.a.getD (c - 0x3C) 0).extractLsb' 24 24
  else if c = 0x40 then k.ph
  else if c = 0x41 then k.pl
  else if c = 0x42 then k.stRead
  else if c = 0x43 then k.sp
  else if c = 0x44 then k.pcx
  else if c = 0x45 then k.nrep
  else if c < 0x4C then k.ls.getD (c - 0x48) 0
  else if c < 0x50 then k.le.getD (c - 0x4C) 0
  else k.lc.getD (c - 0x50) 0

/-- A whole accumulator from a word (R429). -/
def accOfWord (w : Word) : Acc := (w.signExtend 32 : BitVec 32) ++ (0 : BitVec 24)

/-- Write an exposed result. -/
def CoreSt.land1 (k : CoreSt) (e : Exposed) : CoreSt :=
  let k := if e.dest = 4 then { k with ph := e.value.extractLsb' 24 24, pl := e.value.extractLsb' 0 24 }
           else { k with f := vecMod k.f e.dest fun _ => e.value }
  if e.exc = 0 then k else { k with fpuDue := k.fpuDue ++ [e.pc] }

/-- Write the exposed results that meet a test, in the order of their instructions; the others stay pending. -/
def CoreSt.landWhere (k : CoreSt) (p : Exposed → Bool) : CoreSt :=
  let now := k.exposed.filter p
  now.foldl CoreSt.land1 { k with exposed := k.exposed.filter fun e => !(p e) }

/-- Registers that addressing and loop ends see late (R435). -/
def isLate (c : Nat) : Bool := (decide (0x10 ≤ c) && decide (c < 0x30)) || (decide (0x48 ≤ c) && decide (c < 0x54))

/-- ST as a write leaves it: FBUSY is read only, U stays 0 on cores 0 to 2, reserved bits read zero (R428). -/
def stWritten (core : Nat) (w : Word) : Word :=
  let v := w &&& 0x0017FF
  if core = 3 then v else stPut v 12 false

/-- Write a register by its code (R459). A write to ST from USER mode that changes U raises ACCESS (R428). A pending
product is written before PH or PL (R484). -/
def CoreSt.writeReg (k : CoreSt) (core c : Nat) (w : Word) : Except Trap CoreSt :=
  let k := if isLate c then { k with shadow := k.shadow ++ [(c, k.readReg c)] } else k
  if c < 0x10 then .ok { k with g := vecMod k.g c fun _ => w }
  else if c < 0x18 then .ok { k with j := vecMod k.j (c - 0x10) fun _ => w }
  else if c < 0x20 then .ok { k with m := vecMod k.m (c - 0x18) fun _ => w }
  else if c < 0x28 then .ok { k with k := vecMod k.k (c - 0x20) fun _ => w }
  else if c < 0x30 then .ok { k with l := vecMod k.l (c - 0x28) fun _ => w }
  else if c < 0x34 then .ok { k with a := vecMod k.a (c - 0x30) fun _ => accOfWord w }
  else if c < 0x38 then .ok { k with a := vecMod k.a (c - 0x34) fun a => (w.extractLsb' 0 8) ++ (a.extractLsb' 0 48) }
  else if c < 0x3C then .ok { k with a := vecMod k.a (c - 0x38) fun a => (a.extractLsb' 24 32) ++ w }
  else if c < 0x40 then
    .ok { k with a := vecMod k.a (c - 0x3C) fun a => (a.extractLsb' 48 8) ++ w ++ (a.extractLsb' 0 24) }
  else if c = 0x40 then .ok { (k.landWhere fun e => e.dest == 4) with ph := w }
  else if c = 0x41 then .ok { (k.landWhere fun e => e.dest == 4) with pl := w }
  else if c = 0x42 then
    let v := stWritten core w
    if stUser k.st && !(stUser v) then .error (.access none) else .ok { k with st := v }
  else if c = 0x43 then .ok { k with sp := w }
  else if c = 0x44 then .ok { k with pcx := w }
  else if c = 0x45 then .ok { k with nrep := w &&& 0x000FFF }
  else if c < 0x4C then .ok { k with ls := vecMod k.ls (c - 0x48) fun _ => w }
  else if c < 0x50 then .ok { k with le := vecMod k.le (c - 0x4C) fun _ => w }
  else .ok { k with lc := vecMod k.lc (c - 0x50) fun _ => w }

/-! ### Effective addresses (R432 to R434, R460) -/

/-- A register as addressing sees it: a value written by the last instruction is not seen yet (R435). -/
def CoreSt.late (k : CoreSt) (sh : List (Nat × Word)) (c : Nat) : Word := (sh.lookup c).getD (k.readReg c)

/-- Jn modified by m, circular (R433). -/
def CoreSt.circular (k : CoreSt) (sh : List (Nat × Word)) (n : Nat) (m : Int) : Word :=
  let j := k.late sh (0x10 + n)
  let b := k.late sh (0x20 + n)
  let l := k.late sh (0x28 + n)
  if l = 0 then BitVec.ofInt 24 (j.toNat + m)
  else BitVec.ofInt 24 (b.toNat + ((j.toNat : Int) - b.toNat + m) % l.toNat)

/-- The address a mode uses, and the address register it modifies with its new value. -/
def CoreSt.ea (k : CoreSt) (sh : List (Nat × Word)) (w x : Word) : Word × Option (Nat × Word) :=
  let n := fld w 5 3
  let j := k.late sh (0x10 + n)
  let m := k.late sh (0x18 + fld w 2 0)
  match fld w 8 6 with
  | 0 => (j, none)
  | 1 => (j, some (n, k.circular sh n 1))
  | 2 => (j, some (n, k.circular sh n (-1)))
  | 3 => (j, some (n, k.circular sh n m.toInt))
  | 4 => (j + m, none)
  | 5 => (j + x, none)
  | 6 => (j, some (n, (j.reverse + m.reverse).reverse))
  | _ => (x, none)

/-- Apply a mode's modify; a write of the register by the last instruction is the later of the two and stands (R453). -/
def CoreSt.modify (k : CoreSt) (sh : List (Nat × Word)) (p : Option (Nat × Word)) : CoreSt :=
  match p with
  | none => k
  | some (n, v) => if (sh.lookup (0x10 + n)).isSome then k else { k with j := vecMod k.j n fun _ => v }

/-! ### Instruction words (R457, R458) -/

/-- The instructions, an ALU operation with or without an immediate b. -/
inductive VOp where
  | nop | wait | rts | rti | ei | di
  | mov | ld | st | ldi | ldis | lea
  | alu (op : Alu) (imm : Bool)
  | acc (op : AccOp)
  | maxm | minm | maxam
  | b | jmp | call | jmpr | callr | loop | loopr | rep | push | pop
  | fp (op : FOp)
  | fcv (op : FConv)
  | fld | fst
  deriving DecidableEq, Repr

/-- The ALU minors of R467. -/
def aluMinors : List (Nat × Alu) :=
  [(0x00, .add), (0x01, .adc), (0x02, .sub), (0x03, .sbc), (0x04, .cmp), (0x05, .neg), (0x06, .abs),
   (0x08, .and), (0x09, .or), (0x0A, .xor), (0x0B, .andn), (0x0C, .not), (0x0D, .tst),
   (0x10, .asl), (0x11, .asr), (0x12, .lsl), (0x13, .lsr),
   (0x18, .btst), (0x19, .bset), (0x1A, .bclr), (0x1B, .btgl), (0x1C, .norm),
   (0x20, .min), (0x21, .max), (0x22, .maxx), (0x23, .minx),
   (0x28, .addd), (0x29, .adcd), (0x2A, .subd), (0x2B, .sbcd),
   (0x30, .mul), (0x31, .imul), (0x32, .umul)]

/-- The accumulator minors of R471. -/
def accMinors : List (Nat × AccOp) :=
  [(0x00, .mpy), (0x01, .mac), (0x02, .msc), (0x03, .mpyr), (0x04, .macr), (0x05, .imac),
   (0x08, .aadd), (0x09, .asub), (0x0A, .amov), (0x0B, .aneg), (0x0C, .aabs), (0x0D, .aclr), (0x0E, .acmp),
   (0x10, .rnd), (0x11, .asat), (0x12, .ash), (0x14, .aget), (0x15, .agets), (0x16, .agetr)]

/-- The instruction of a word: none where the major or the minor is not assigned (R462, checks 1 and 2). -/
def vDecode (w : Word) : Option VOp :=
  let lo := fld w 5 0
  match fld w 23 18 with
  | 0x00 => match lo with
    | 0 => some .nop | 1 => some .wait | 2 => some .rts | 3 => some .rti | 4 => some .ei | 5 => some .di | _ => none
  | 0x01 => some .mov
  | 0x02 => some .ld
  | 0x03 => some .st
  | 0x04 => some .ldi
  | 0x05 => some .ldis
  | 0x06 => some .lea
  | 0x08 => (aluMinors.lookup lo).map fun o => .alu o false
  | 0x09 => match aluMinors.lookup (fld w 9 4) with
    | none => none
    | some o => if o = .neg ∨ o = .abs ∨ o = .not ∨ o = .norm then none else some (.alu o true)
  | 0x0C => (accMinors.lookup lo).map .acc
  | 0x0E => match fld w 13 12 with
    | 0 => some .maxm | 1 => some .minm | 2 => some .maxam | _ => none
  | 0x10 => some .b
  | 0x11 => some .jmp
  | 0x12 => some .call
  | 0x13 => match lo with
    | 0 => some .jmpr | 1 => some .callr | _ => none
  | 0x14 => some .loop
  | 0x15 => some .loopr
  | 0x16 => some .rep
  | 0x18 => if w.getLsbD 0 then some .pop else some .push
  | 0x20 => match lo with
    | 0 => some (.fp .fadd) | 1 => some (.fp .fsub) | 2 => some (.fp .fmul) | 3 => some (.fp .fdiv)
    | 4 => some (.fp .fsqrt) | 5 => some (.fp .fneg) | 6 => some (.fp .fabs) | 7 => some (.fp .fmov)
    | 8 => some (.fp .fcmp) | _ => none
  | 0x21 => match lo with
    | 0 => some (.fcv .fitof) | 1 => some (.fcv .futof) | 2 => some (.fcv .fftoi) | 3 => some (.fcv .fqtof)
    | 4 => some (.fcv .fftoq) | 5 => some (.fcv .fatof) | 6 => some (.fcv .fftoa) | _ => none
  | 0x22 => some .fld
  | 0x23 => some .fst
  | _ => none

/-- The EA field reserves non-zero J or M here (R460). -/
def eaResv (w : Word) : Bool :=
  match fld w 8 6 with
  | 0 | 1 | 2 | 5 => fld w 2 0 != 0
  | 7 => fld w 5 0 != 0
  | _ => false

/-- An ALU operation that writes no GD. -/
def Alu.noDest (op : Alu) : Bool := op = .cmp || op = .tst || op = .btst || op = .mul || op = .imul || op = .umul
/-- An ALU operation of a alone. -/
def Alu.unary (op : Alu) : Bool := op = .neg || op = .abs || op = .not || op = .norm

/-- The fields an accumulator operation requires zero, as tests of AD, AS, GA, GB (R471). -/
def AccOp.zeroes (op : AccOp) (w : Word) : Bool :=
  let ad := fld w 17 16 != 0
  let as_ := fld w 15 14 != 0
  let ga := fld w 13 10 != 0
  let gb := fld w 9 6 != 0
  match op with
  | .mpy | .mac | .msc | .mpyr | .macr | .imac => as_
  | .aclr => as_ || ga || gb
  | .ash => gb
  | .aget | .agets | .agetr => ad || gb
  | _ => ga || gb

/-- Check 3 of R462: a reserved field that is not zero, an unlisted register code, an odd GD of a search. -/
def vResv (op : VOp) (w : Word) : Bool :=
  match op with
  | .nop | .wait | .rts | .rti | .ei | .di => fld w 17 6 != 0
  | .mov => !(regListed (fld w 17 11)) || !(regListed (fld w 10 4)) || fld w 3 0 != 0
  | .ld | .st => !(regListed (fld w 17 11)) || fld w 10 9 != 0 || eaResv w
  | .ldi => !(regListed (fld w 17 11)) || fld w 10 0 != 0
  | .ldis => !(regListed (fld w 17 11))
  | .lea => fld w 14 9 != 0 || eaResv w
  | .alu o imm =>
    (o.noDest && fld w 17 14 != 0) || (o.unary && fld w 9 6 != 0) || (imm && fld w 3 0 != 0)
      || ((o = .maxx || o = .minx) && fld w 14 14 != 0)
  | .acc o => o.zeroes w
  | .maxm | .minm | .maxam => fld w 14 14 != 0 || fld w 11 9 != 0 || eaResv w
  | .b => false
  | .jmp | .call => fld w 13 0 != 0
  | .jmpr | .callr => fld w 9 6 != 0
  | .loop | .rep => fld w 5 0 != 0
  | .loopr => fld w 13 0 != 0
  | .push | .pop => !(regListed (fld w 17 11)) || fld w 10 1 != 0
  | .fp o =>
    fld w 11 6 != 0
      || ((o = .fsqrt || o = .fneg || o = .fabs || o = .fmov) && fld w 13 12 != 0) || (o = .fcmp && fld w 17 16 != 0)
  | .fcv o =>
    fld w 9 6 != 0
      || (match o with
          | .fitof | .futof | .fqtof | .fftoi | .fftoq => fld w 15 14 != 0
          | .fatof | .fftoa => fld w 13 10 != 0)
  | .fld | .fst => fld w 15 9 != 0 || eaResv w

/-- The instruction has an extension word (R458). -/
def vHasExt (op : VOp) (w : Word) : Bool :=
  match op with
  | .ldi | .jmp | .call | .loop | .loopr => true
  | .alu _ imm => imm
  | .ld | .st | .lea | .maxm | .minm | .maxam | .fld | .fst => fld w 8 6 == 5 || fld w 8 6 == 7
  | _ => false

/-- The register code an instruction names as its destination. -/
def vDest (op : VOp) (w : Word) : Option Nat :=
  match op with
  | .mov | .ld | .ldi | .ldis | .pop => some (fld w 17 11)
  | .lea => some (0x10 + fld w 17 15)
  | _ => none

/-- The flow-changing instructions of R464 (log entry 10: PCX named as a destination). -/
def vFlow (op : VOp) (w : Word) : Bool :=
  match op with
  | .b | .jmp | .call | .jmpr | .callr | .rts | .rti | .wait | .loop | .loopr => true
  | .mov | .ld | .ldi | .ldis | .pop => vDest op w == some 0x44
  | _ => false

/-- The instruction may not be repeated (R476). -/
def vNoRepeat (op : VOp) (w : Word) : Bool :=
  vFlow op w || op == .rep || op == .push || op == .pop
    || (match vDest op w with
        | some d => (decide (0x42 ≤ d) && decide (d ≤ 0x45)) || (decide (0x48 ≤ d) && decide (d < 0x54))
        | none => false)

/-- Cycles of an instruction without its data accesses and waits (R481): an instruction that accesses memory takes the time of
its accesses, RTS and RTI two cycles beside theirs. -/
def vCycles (op : VOp) (w : Word) : Nat :=
  (match op with
   | .ld | .st | .maxm | .minm | .maxam | .push | .pop | .fld | .fst => 0
   | .rts | .rti | .loop | .loopr => 2 | .fcv .fftoi | .fcv .fftoq | .fcv .fftoa => 4 | _ => 1)
    + (if vHasExt op w then 1 else 0)

end Sys2Proof.Machine
end

