-- ==== Sys2Proof/Machine/Rings.lean ====
section
/-!
DEFINITION. Plain memory of the cores and their descriptor rings (spec/13, R423, R450, R452).
-/

namespace Sys2Proof.Machine

/-! ### Plain memory -/

/-- The core is in USER mode (R446). -/
def State.userMode (s : State) (c : Nat) : Bool := c == 3 && stUser (s.core c).st

/-- A word of plain memory that the core may read and write (R423). -/
def plainRw (user : Bool) (a : Nat) : Bool :=
  (decide (a ≤ 0xFFFF) && (!user || decide (0x4000 ≤ a)))
    || (decide (0x100000 ≤ a) && decide (a ≤ 0x27FFFF) && !user)
    || (decide (0x280000 ≤ a) && decide (a ≤ 0x2F7FFF))

/-- Read a word of plain memory: local below 0x01_0000, shared above. -/
def State.plainGet (s : State) (c a : Nat) : Word :=
  if a ≤ 0xFFFF then SMap.get 0 a (s.core c).mem else SMap.get 0 a s.cpu.shared

/-- Write a word of plain memory. -/
def State.plainSet (s : State) (c a : Nat) (w : Word) : State :=
  if a ≤ 0xFFFF then s.modCore c fun k => { k with mem := SMap.set 0 a w k.mem }
  else { s with cpu := { s.cpu with shared := SMap.set 0 a w s.cpu.shared } }

/-- Every word of a buffer is plain memory of the core. -/
def bufferOk (user : Bool) (a n : Nat) : Bool := (List.range n).all fun i => plainRw user (a + i)

/-! ### Rings (R450) -/

/-- One of the two rings of a core. -/
def CoreSt.ring (k : CoreSt) (r : Nat) : Ring := if r = 0 then k.ring0 else k.ring1
/-- Change one ring. -/
def CoreSt.modRing (k : CoreSt) (r : Nat) (f : Ring → Ring) : CoreSt :=
  if r = 0 then { k with ring0 := f k.ring0 } else { k with ring1 := f k.ring1 }

/-- The bytes of a buffer of `n` bytes, packed as OCTETS. -/
def State.bufferBytes (s : State) (c a n : Nat) : List Nat :=
  (List.range n).map fun i => ((s.plainGet c (a + i / 3)).toNat / 256 ^ (2 - i % 3)) % 256

/-- Write bytes into a buffer. -/
def State.bufferPut (s : State) (c a : Nat) (b : List Nat) : State :=
  let l := octetWords b
  (List.zip (List.range l.length) l).foldl (fun s p => s.plainSet c (a + p.1) (BitVec.ofNat 24 p.2)) s

/-- The address of a descriptor. -/
def Ring.slot (q : Ring) (i : Nat) : Nat := q.base.toNat + 4 * i

/-- A request of a ring has ended. -/
def State.ringEnd (s : State) (d : RingDone) : State := { s with cpu := { s.cpu with ringDone := s.cpu.ringDone ++ [d] } }

/-- The device takes one descriptor: a launch is accepted or refused at once, a transaction is submitted. -/
def State.ringTakeOne (s : State) (c r i : Nat) : State :=
  let q := (s.core c).ring r
  let user := s.userMode c
  let a := q.slot i
  let done (s : State) (status handle : Nat) : State := s.ringEnd ⟨c, r, i, status, handle, none⟩
  if !bufferOk user a 4 then done s St.outOfRange 0
  else
    let w0 := (s.plainGet c a).toNat
    let buf := (s.plainGet c (a + 1)).toNat
    let len := w0 % 2048
    if !bit w0 23 then s
    else if bits w0 21 11 ≠ 0 then done s St.reservedBits 0
    else if len = 0 ∨ 1530 < len ∨ !bufferOk user buf (if r = 0 then (len + 2) / 3 else 683) then done s St.outOfRange 0
    else
      let b := s.bufferBytes c buf len
      if r = 0 then
        match launchRefuses s b 1514 with
        | some e => done s e.1 0
        | none => let x := s.launchAccept b; done x.1 St.accepted x.2
      else match s.txnSubmit (field b 0 2) (b.drop 2) (some (c, i)) with
        | .ok x => x.2
        | .error e => done s e 0

/-- Descriptors from the next one to submit up to HEAD are taken in order. -/
def State.ringTake (s : State) (c r : Nat) : Nat → State
  | 0 => s
  | k + 1 =>
    let q := (s.core c).ring r
    let i := q.taken
    if q.size = 0 ∨ i = q.head.toNat % q.size.toNat then s
    else
      let s := s.ringTakeOne c r i
      let s := s.modCore c fun k => k.modRing r fun q => { q with taken := (i + 1) % q.size.toNat }
      s.ringTake c r k

/-- RING_HEAD written: the device takes the descriptors up to it. -/
def State.ringHead (s : State) (c r : Nat) (w : Word) : State :=
  (s.modCore c fun k => k.modRing r fun q => { q with head := w }).ringTake c r 64

/-- TAIL advances past completed descriptors up to the first the device still owns. -/
def State.tailMove (s : State) (c r : Nat) (user : Bool) : Nat → State
  | 0 => s
  | k + 1 =>
    let q := (s.core c).ring r
    let t := q.tail.toNat
    if q.size = 0 ∨ t = q.taken then s
    else if bufferOk user (q.slot t) 4 ∧ bit (s.plainGet c (q.slot t)).toNat 23
        ∨ s.cpu.ringDone.any fun d => d.core == c && d.ring == r && d.index == t then s
    else (s.modCore c fun k => k.modRing r fun q => { q with tail := BitVec.ofNat 24 ((t + 1) % q.size.toNat) }).tailMove c r user k

/-- A finished descriptor completes: STATUS, HANDLE, LEN and the reply payload are written, OWN clears, RING is raised. -/
def State.descriptorPut (s : State) (d : RingDone) : State :=
  let q := (s.core d.core).ring d.ring
  let user := s.userMode d.core
  let a := q.slot d.index
  let s := { s with cpu := { s.cpu with ringDone := s.cpu.ringDone.erase d } }
  let s :=
    if !bufferOk user a 4 then s
    else
      let w0 := (s.plainGet d.core a).toNat
      let buf := (s.plainGet d.core (a + 1)).toNat
      let data := d.data.getD []
      let len := match d.data with | some l => l.length % 2048 | none => w0 % 2048
      let s := if data.isEmpty ∨ !bufferOk user buf ((data.length + 2) / 3) then s else s.bufferPut d.core buf data
      let s := s.plainSet d.core a (BitVec.ofNat 24 (b2n (bit w0 22) * 2 ^ 22 + len))
      let s := s.plainSet d.core (a + 2) (BitVec.ofNat 24 d.status)
      let s := s.plainSet d.core (a + 3) (BitVec.ofNat 24 (d.handle % 65536))
      if bit w0 22 then s.raiseInt d.core 5 else s
  s.tailMove d.core d.ring user 64

/-- DESCRIPTOR_COMPLETE (R450): the first finished descriptor of a ring. -/
def State.descriptorComplete (s : State) (c r : Nat) : State :=
  match s.cpu.ringDone.find? fun d => d.core == c && d.ring == r with
  | some d => s.descriptorPut d
  | none => s

/-- A retired core's descriptors that have not completed complete with RESOURCE_RETIRED (R452). -/
def State.ringsRetire (s : State) (c : Nat) : State :=
  let open_ := s.net.txns.filterMap fun t => match t.ring with
    | some p => if p.1 = c then some (⟨c, 1, p.2, St.resourceRetired, t.number, none⟩ : RingDone) else none
    | none => none
  let done := s.cpu.ringDone.filterMap fun d => if d.core = c then some { d with status := St.resourceRetired, data := none } else none
  let s := { s with net := { s.net with txns := s.net.txns.filter fun t => !(t.ring.any fun (p : Nat × Nat) => p.1 == c) } }
  let s := s.set K.remote_TxnOpen s.net.txns.length
  (done ++ open_).foldl (fun s d => s.descriptorPut d) { s with cpu := { s.cpu with ringDone := s.cpu.ringDone.filter fun d => d.core != c } }

end Sys2Proof.Machine
end

