-- ==== Sys2Proof/Machine/Requests.lean ====
section
/-!
DEFINITION. The dictionary engine: every operation of R65 executed with its checks, and the paths a request comes by: MSPI,
the host port, remote transactions, the dictionary access units, messages (spec/02, R53 to R79; spec/10, R343; spec/13, R449).
-/

namespace Sys2Proof.Machine

/-! ### Reads -/

/-- A refusal is answered. -/
def State.refuse (s : State) (r : Refused) : State := s.answer r.status r.data

/-- Every check of a read of one subindex. -/
def readRefusals (s : State) (ctx : Ctx) (index sub len : Nat) : List Refused :=
  match tableRefuses s ctx false index sub with
  | some e => [⟨e, [], 0⟩]
  | none => refusedIf (isStream index && sub == 1) St.typeMismatch sub ++ refusedIf (len != 0) St.lengthMismatch sub
      ++ refusedOf 0 (stateRefuses s false index sub)

/-- The log record a cursor points to is read (R583): Cursor goes on, a skip and a wrong CHECK are flagged. -/
def State.siltRead (s : State) (i : Nat) : State :=
  let c := s.get (K.siltCursor_Cursor i)
  match siltAt s c with
  | (none, _) => s
  | (some r, skip) =>
    let s := s.set (K.siltCursor_Cursor i) (r.seq + 1)
    let s := if skip then s.flag K.siltLog_LogFlags 1 K.siltLog_CursorSkips else s
    if r.check = crc16 (siltHead r) then s else s.flag K.siltLog_LogFlags 2 K.siltLog_CheckFailures

/-- What a read of a subindex does beside returning its value: a capture stamp is taken (R526), a log cursor goes on. -/
def State.readTakes (s : State) (index sub : Nat) : State :=
  let k := index * 256 + sub
  let s := if readUnstated s index sub then s.takeFree else s
  if 0x9030 ≤ index ∧ index < 0x9038 ∧ k = K.capture_CaptureRead (index - 0x9030) then s.captureTake (index - 0x9030)
  else if 0xB010 ≤ index ∧ index < 0xB015 ∧ k = K.siltCursor_Record (index - 0xB010) then s.siltRead (index - 0xB010)
  else s

/-- READ (R65). -/
def State.opRead (s : State) (ctx : Ctx) (index sub len : Nat) : State :=
  match firstRefused (readRefusals s ctx index sub len) with
  | some r => s.refuse r
  | none => match findRow index sub with
    | none => s
    | some r => (s.readTakes index sub).answer St.ok (toBytes r.ty.bytes (readValue s index sub))

/-- The oldest whole entries of a stream whose total fits a number of words (R63). -/
def streamTakeable : Nat → List (List Nat) → List (List Nat)
  | _, [] => []
  | n, e :: l => if e.length ≤ n then e :: streamTakeable (n - e.length) l else []

/-- STREAM_READ (R63). -/
def State.opStream (s : State) (ctx : Ctx) (index sub len : Nat) : State :=
  match tableRefuses s ctx false index sub with
  | some e => s.answer e []
  | none =>
    if !(isStream index && sub == 1) then s.answer St.typeMismatch []
    else
      let q := s.stream index
      let got := streamTakeable len q
      if !q.isEmpty ∧ got.isEmpty then s.answer St.lengthMismatch []
      else match stateRefuses s false index sub with
        | some e => s.answer e.1 e.2
        | none =>
          let s := s.setStream index (q.drop got.length)
          let s := if index = 0x7031 then s.deliveryTaken got else s
          s.answer St.ok (got.flatMap fun e => e.flatMap fun w => toBytes 3 w)

/-- Whether a role may read, or write, an object as a whole (positions 1 and 3 of R53), and whether it is a record. -/
def objectRefuses (s : State) (ctx : Ctx) (write : Bool) (index : Nat) : Option Nat :=
  if (findObj index).isNone then some St.noObject
  else if !(if write then mayWrite s (roleOf s ctx) index else mayRead s (roleOf s ctx) index) then some St.notAuthorised
  else if !isRecord index then some St.typeMismatch
  else none

/-- SNAPSHOT (R59). The SUB of the request is not looked at (log entry 149). -/
def State.opSnapshot (s : State) (ctx : Ctx) (index len : Nat) : State :=
  match objectRefuses s ctx false index with
  | some e => s.answer e []
  | none =>
    if len ≠ 0 then s.answer St.lengthMismatch []
    else match stateRefuses s false index 0 with
      | some e => s.answer e.1 e.2
      | none => s.answer St.ok (snapshotBytes s index)

/-- DESCRIBE (R66). DESIGN CHOICE (log entry 148): subindex 0 of a record is described as the U8 it holds, HighestSub (R41), so
no reply carries the type code of RECORD. -/
def State.opDescribe (s : State) (ctx : Ctx) (index sub len : Nat) : State :=
  match findObj index, findRow index sub with
  | none, _ => s.answer St.noObject []
  | _, none => s.answer St.noSubindex []
  | some o, some r =>
    let free := isImageObject index sub && (s.device == 0 || s.device == 3)
    if !free && !(mayRead s (roleOf s ctx) index) then s.answer St.notAuthorised []
    else if len ≠ 0 then s.answer St.lengthMismatch []
    else match stateRefuses s false index sub with
      | some e => s.answer e.1 e.2
      | none => s.answer St.ok (describeBytes s index o r)

/-! ### Writes -/

/-- WRITE (R44 to R51). -/
def State.opWrite (s : State) (ctx : Ctx) (index sub : Nat) (b : List Nat) : State :=
  if index = 0xC040 ∧ sub = 1 ∧ b.length = 1040 then s.propose ctx b
  else if index = 0xC040 ∧ sub = 2 ∧ b.length = 10 then s.confirm ctx b
  else if index = 0xC040 ∧ sub = 3 ∧ b.length = 2 then s.cancel ctx b
  else
    let s' := s.settle
    let pw : Bool := match findRow index sub with | some r => r.acc == .pw | none => false
    match firstRefused (writeRefusals s' ctx index sub b false ++ refusedIf pw St.needsTwoParty sub) with
    | some r => s'.refuse r
    | none => match findRow index sub with
      | none => s'
      | some r =>
        if 0xE000 ≤ index then s'.fscopePropose index sub b
        else if r.acc = .ax then s'.putValue ctx index r (imageOf r.ty b)
        else (s'.putValue ctx index r (imageOf r.ty b)).answer St.ok []

/-- Reply data of a refused WRITE_RECORD (R60): the data of the status, then the subindex. -/
def recordRefused (r : Refused) : List Nat := (if r.status = St.notInState then r.data else []) ++ [r.sub]

/-- The values that a WRITE_RECORD carries, by their rows (R60). -/
def recordVals (index : Nat) (b : List Nat) : List (Row × Nat) :=
  (splitRows (recordRows index) b).map fun (p : Row × List Nat) => (p.1, imageOf p.1.ty p.2)

/-- The device states in which a WRITE_RECORD with these values is accepted (R55, R56). -/
def recordMask (index : Nat) (l : List (Row × Nat)) : Nat :=
  l.foldl (fun m (p : Row × Nat) => Nat.land m (ownMask index p.1.sub p.2)) (stateMask true index 0)

/-- The checks of R53 on a WRITE_RECORD whose object and length are right (R60). A state rule of the whole object names
subindex 0, one of a single subindex names it. DESIGN CHOICE (log entry 147): where a relation fails and a single value is
out of range as well, the relation is named, by subindex 0. -/
def recordRefusals (s : State) (c : Ctx) (index : Nat) (b : List Nat) : List Refused :=
  let l := recordVals index b
  let g (k : Nat) : Nat := match l.find? fun (p : Row × Nat) => p.1.sub == k with
    | some p => p.2
    | none => s.get (index * 256 + k)
  let good := l.all fun (p : Row × Nat) => valueStatus s p.1 p.2 == St.ok
  let illegal (m sub : Nat) : List Refused :=
    if bit m s.device then [] else [⟨St.notInState, [s.device, recordMask index l], sub⟩]
  refusedIf (relationBad s index g (l.map fun (p : Row × Nat) => p.1.sub)) St.outOfRange 0 ++ illegal (stateMask true index 0) 0
    ++ l.flatMap fun (p : Row × Nat) =>
      refusedIf (valueStatus s p.1 p.2 != St.ok) (valueStatus s p.1 p.2) p.1.sub ++ illegal (ownMask index p.1.sub p.2) p.1.sub
        ++ refusedIf (lockRefuses s index p.1.sub p.2 false) St.lockedByRegulation p.1.sub
        ++ refusedIf (p.1.acc == .pw) St.needsTwoParty p.1.sub ++ (if good then familyRefuses s c index p.1.sub p.2 else [])

/-- WRITE_RECORD (R60). The SUB of the request is not looked at (log entry 149). -/
def State.opRecord (s : State) (ctx : Ctx) (index : Nat) (b : List Nat) : State :=
  match objectRefuses s ctx true index with
  | some e => s.answer e [0]
  | none =>
    let s := s.settle
    let rows := recordRows index
    if b.length ≠ (rows.map fun r => r.ty.bytes).sum then s.answer St.lengthMismatch [0]
    else match firstRefused (recordRefusals s ctx index b) with
      | some r => s.answer r.status (recordRefused r)
      | none =>
        if 0xE000 ≤ index then
          s.fscopePropose index 0 b
        else
          let vals := recordVals index b
          let old := vals.map fun (p : Row × Nat) => (p.1.sub, s.get (index * 256 + p.1.sub))
          let s := vals.foldl (fun s (p : Row × Nat) => s.set (index * 256 + p.1.sub) p.2) s
          (old.foldl (fun s (p : Nat × Nat) => s.written ctx index p.1 p.2) s).answer St.ok []

/-! ### One operation -/

/-- The counters every executed request moves: RequestsServed, NotInStateCount, NOT_AUTHORISED, JOURNAL_FULL. -/
def State.served (s : State) : State :=
  let s := s.bump K.hostAccessCounters_RequestsServed 4
  if s.reply.status = St.notInState then s.bump K.hostAccessCounters_NotInStateCount 2
  else if s.reply.status = St.notAuthorised then s.flag K.protection_ProtFlags 1 K.protection_NotAuthorisedCount
  else if s.reply.status = St.journalFull then s.journalRefused
  else s

/-- A submission waits for its keepers: its reply comes later (R347). -/
def waits (s : State) : Bool := s.net.submit.isSome

/-- One operation executes; its reply is in `reply`, unless a submission waits for its keepers. Reserved operation codes are
answered first (R53). -/
def State.execOp (s : State) (ctx : Ctx) (op index sub len : Nat) (b : List Nat) : State :=
  let s := match op with
    | 1 => s.opRead ctx index sub len
    | 2 => if b.length = len then s.opWrite ctx index sub b else s.answer St.lengthMismatch []
    | 3 => s.opStream ctx index sub len
    | 5 => s.opSnapshot ctx index len
    | 6 => if b.length = len then s.opRecord ctx index b else s.answer St.lengthMismatch [0]
    | 7 => s.opDescribe ctx index sub len
    | _ => s.answer St.valueReserved []
  if waits s then s else s.served

/-- The device serves requests: in RUN, while starting, and in a burst of OASIS (R543, R548). -/
def engineUp (s : State) : Bool :=
  s.clocked || s.power.phase == .starting

/-- The engine is free: no submission waits. -/
def engineFree (s : State) : Bool := engineUp s && !waits s

/-- Operation codes that are no request's (R65). -/
def opReserved (op : Nat) : Bool := !([1, 2, 3, 5, 6, 7].contains op)

/-! ### MSPI (R67 to R73) -/

/-- Change the MSPI port. -/
def State.modMspi (s : State) (f : MspiSt → MspiSt) : State := { s with mspi := f s.mspi }

/-- The status byte (R68). -/
def statusByte (s : State) : Nat :=
  128 * b2n (match s.mspi.queue with | e :: _ => e.reply.isSome | [] => false) + 64 * b2n s.mspi.qfull + 32 * b2n s.mspi.crcErr
    + 16 * b2n s.mspi.framErr + 4 * (s.device % 4) + 1

/-- The status byte is sent, `n` bytes in all: the error bits clear. -/
def State.statusSent (s : State) (n : Nat) : State :=
  if n = 0 then s.modMspi fun m => { m with sent := [] }
  else
    let b := statusByte s
    s.modMspi fun m => { m with sent := b :: List.replicate (n - 1) 0, qfull := false, crcErr := false, framErr := false }

/-- The first request not yet executed. -/
def mspiNext (s : State) : Option MspiReq := (s.mspi.queue.find? fun e => e.reply.isNone).map (·.req)

/-- The reply of the first request not yet executed is ready. -/
def State.mspiReply (s : State) : State :=
  let done := s.mspi.queue.takeWhile fun e => e.reply.isSome
  match s.mspi.queue.drop done.length with
  | e :: rest => s.modMspi fun m => { m with queue := done ++ [{ e with reply := some s.reply }] ++ rest }
  | [] => s

/-- A reply as it is sent (R71). -/
def replyFrame (tag : Nat) (r : Reply) : List Nat :=
  let b := tag :: (toBytes 2 r.status ++ toBytes 2 r.data.length ++ r.data)
  b ++ [crc8 b]

/-- One reply fewer waits before a power mode or a reset begins (R536, R559). -/
def State.replyLeft (s : State) : State :=
  let s := { s with power := { s.power with armed := s.power.armed.map (· - 1) } }
  { s with boot := { s.boot with due := s.boot.due.map fun (p : StartKind × Nat × Nat × Bool) => (p.1, p.2.1, p.2.2.1 - 1, p.2.2.2) } }

/-- A FETCH transfer of `n` bytes in all (R71, R72). -/
def State.mspiFetch (s : State) (n : Nat) : State :=
  if !engineUp s then s.modMspi fun m => { m with sent := List.replicate n 0 }
  else if n = 0 then s
  else
    let st := statusByte s
    let s := s.statusSent n
    match s.mspi.queue with
    | ⟨r, some y⟩ :: rest =>
      let f := replyFrame r.tag y
      let s := s.modMspi fun m => { m with sent := ((st :: f) ++ List.replicate n 0).take n }
      if 1 + f.length ≤ n then (s.modMspi fun m => { m with queue := rest }).replyLeft else s
    | _ => s

/-- A request transfer (R69): the host's bytes. A transfer that begins with STATUS or FETCH is one (R65). A reserved operation
code is answered at once, in its place among the replies (R53, R72). DESIGN CHOICE (log entry 150): a transfer that finds
four requests queued and is malformed counts for its framing or its CRC, not for the queue. -/
def State.mspiTransfer (s : State) (b : List Nat) : State :=
  if !engineUp s then s.modMspi fun m => { m with sent := List.replicate b.length 0 }
  else if b.isEmpty then s
  else if byteAt b 0 = 0 then s.statusSent b.length
  else if byteAt b 0 = 4 then s.mspiFetch b.length
  else
    let s := s.statusSent b.length
    let op := byteAt b 0
    let len := field b 5 2
    let d := if op = 2 ∨ op = 6 then len else 0
    if b.length ≠ 8 + d ∨ 1024 < len then
      (s.modMspi fun m => { m with framErr := true }).bump K.hostAccessCounters_SpiFramingErrors 2
    else if byteAt b (7 + d) ≠ crc8 (b.take (7 + d)) then
      (s.modMspi fun m => { m with crcErr := true }).bump K.hostAccessCounters_SpiCrcErrors 2
    else if 4 ≤ s.mspi.queue.length then
      (s.modMspi fun m => { m with qfull := true }).bump K.hostAccessCounters_SpiQueueFull 2
    else
      let r : MspiReq := { op := op, tag := byteAt b 1, index := field b 2 2, sub := byteAt b 4, len := len, data := (b.drop 7).take d }
      let put (s : State) (y : Option Reply) : State := s.modMspi fun m => { m with queue := m.queue ++ [⟨r, y⟩] }
      if opReserved op then put (s.answer St.valueReserved []).served (some ⟨St.valueReserved, []⟩) else put s none

/-! ### The order of the paths (R57) -/

/-- A request of a path that comes before this one is waiting: a core's access unit, the MSPI queue, a transaction. The host
port holds no request. -/
def engineAhead (s : State) (p : Path) : Bool :=
  let cores := (List.range 3).any fun c => (s.core c).dauReq.isSome
  let mspi := (mspiNext s).isSome
  let remote := s.net.inbox.any fun e => forUs s e.bytes && byteAt e.bytes 1 == 5
  match p with
  | .firmware | .card => false
  | .mspi => cores
  | .host | .remote => cores || mspi
  | .user => cores || mspi || remote

/-- The engine takes a request of a path now: it is free, and no request that comes first waits. -/
def engineTakes (s : State) (p : Path) : Bool := engineFree s && !engineAhead s p

/-! ### Frames of operations (R77, R78) -/

/-- Operations of a payload from byte 6 on, and where they end; none where the payload ends before them. -/
def parseOps : Nat → List Nat → Nat → Option (List (Nat × Nat × Nat × Nat × List Nat) × Nat)
  | 0, _, a => some ([], a)
  | n + 1, b, a =>
    let op := byteAt b a
    let len := field b (a + 4) 2
    let d := if op = 2 ∨ op = 6 then len else 0
    if b.length < a + 6 + d then none
    else match parseOps n b (a + 6 + d) with
      | none => none
      | some (l, e) => some ((op, field b (a + 1) 2, byteAt b (a + 3), len, (b.drop (a + 6)).take d) :: l, e)

/-- A request payload is laid out as R77 says: its operations, and where they end. DESIGN CHOICE (log entry 151): a payload with
the REPLY flag set, or with a reserved byte 5 other than zero, is malformed, and its frame is discarded and counted. -/
def payloadOps (b : List Nat) : Option (List (Nat × Nat × Nat × Nat × List Nat) × Nat) :=
  let n := byteAt b 4
  if b.length < 6 ∨ byteAt b 0 ≠ 1 ∨ 8 ≤ byteAt b 1 ∨ bit (byteAt b 1) 1 ∨ n = 0 ∨ 32 < n ∨ byteAt b 5 ≠ 0 then none
  else parseOps n b 6

/-- One result of a reply frame. -/
def resultBytes (op index sub : Nat) (r : Reply) : List Nat :=
  [op] ++ toBytes 2 index ++ [sub] ++ toBytes 2 r.status ++ toBytes 2 r.data.length ++ r.data

/-- A status that is a failure. -/
def failedStatus (status : Nat) : Bool := status != St.ok && status != St.accepted

/-- Put the frame in progress. -/
def State.putRun (s : State) (r : Option FrameRun) : State := { s with net := { s.net with run := r } }

/-- The reply of a finished frame leaves: to the host, authenticated under the slot of the request (R405) and kept (R79); or
as the reply of a transaction, kept (R343). -/
def State.frameEnd (s : State) (r : FrameRun) : State :=
  let s := s.putRun none
  match r.toward with
  | some (source, epoch, number) =>
    let s := s.keepReply source epoch number r.reply
    let body := toBytes 2 epoch ++ toBytes 2 number ++ r.reply
    if r.port < 32 then s.peerSend r.port 6 body else s.netSend 6 0 source body
  | none =>
    let (s, tail) : State × List Nat := match r.ctx.slot with
      | some k => s.authSign k r.reply
      | none => (s, [])
    let f := r.head ++ r.reply ++ tail
    let kept : List HostKept :=
      if s.get K.hostAccess_DuplicateWindow = 0 then []
      else ({ mac := r.mac, tag := field r.reply 2 2, reply := f, since := s.time.ms } :: s.host.kept).take 16
    let s := { s with host := { s.host with kept := kept, sent := some f } }
    s.count (K.port_FramesTx s.host.port) 6

/-- Operations of the frame in progress execute in order until one waits for its keepers (R78). -/
def State.frameGo (s : State) : Nat → State
  | 0 => s
  | n + 1 => match s.net.run with
    | none => s
    | some r => match r.ops with
      | [] => s.frameEnd r
      | (op, index, sub, len, b) :: rest =>
        let put (s : State) (y : Reply) (failed stop : Bool) : State :=
          s.putRun (some { r with reply := r.reply ++ resultBytes op index sub y, ops := rest, failed := failed, stop := stop })
        if r.failed && r.stop then (put s ⟨St.busy, []⟩ true true).frameGo n
        else
          let t := s.execOp r.ctx op index sub len b
          if waits t then t
          else if r.limit < (r.reply ++ resultBytes op index sub t.reply).length then
            (put s ⟨St.lengthMismatch, []⟩ true true).frameGo n
          else (put t t.reply (r.failed || failedStatus t.reply.status) r.stop).frameGo n

/-- A frame begins: its header becomes the reply's, with REPLY set. -/
def State.frameBegin (s : State) (ctx : Ctx) (b : List Nat) (ops : List (Nat × Nat × Nat × Nat × List Nat)) (limit : Nat)
    (toward : Option (Nat × Nat × Nat)) (port : Nat) (head : List Nat) (mac : Nat) : State :=
  let r : FrameRun :=
    { ctx := ctx, stop := bit (byteAt b 1) 2, failed := false, limit := limit,
      reply := [1, setBit (byteAt b 1) 1] ++ (b.drop 2).take 4, ops := ops, toward := toward, port := port, head := head, mac := mac }
  (s.putRun (some r)).frameGo 40

/-! ### The host port (R76 to R79) -/

/-- A frame is discarded and counted. -/
def State.hostBad (s : State) : State :=
  { (s.bump K.hostAccessCounters_HostFramesBad 2) with host := { s.host with sent := none } }

/-- The kept reply of a source and TAG within DuplicateWindow. -/
def hostKept (s : State) (mac tag : Nat) : Option HostKept :=
  s.host.kept.find? fun k => k.mac == mac && k.tag == tag && decide (s.since k.since ≤ s.get K.hostAccess_DuplicateWindow)

/-- A host frame without its FCS, whose outcome is `fcs`. -/
def State.hostRequest (s : State) (f : List Nat) (fcs : Bool) (at_ aon : Nat) : State :=
  let n := s.host.port
  if !(engineTakes s .host) ∨ 32 ≤ n ∨ s.net.run.isSome ∨ !(s.portState n == 4 || (s.portState n == 5 && s.get (K.port_ActiveMode n) == 3)) then s
  else
    let s := s.count (K.port_FramesRx n) 6
    let tagged := field f 12 2 == 0x8100
    let h := if tagged then 18 else 14
    let own := toBytes 6 (s.get (K.port_MacAddress n))
    if !fcs ∨ f.length < h ∨ h + 1500 < f.length ∨ f.take 6 ≠ own
        ∨ field f (h - 2) 2 ≠ s.get K.hostAccess_HostEtherType then s.hostBad
    else
      let b := f.drop h
      match payloadOps b with
      | none => s.hostBad
      | some (ops, e) =>
        let mac := field f 6 6
        let auth := bit (byteAt b 1) 0
        let t := (b.drop e).take 24
        if auth ∧ b.length < e + 24 then s.hostBad
        else
          let valid := authValid s 65536 (b.take e) t
          if auth ∧ !valid then
            let s := s.authFail (if byteAt t 0 < 16 then some (byteAt t 0) else none)
            { s with host := { s.host with sent := none } }
          else if !auth ∧ bit s.prot.required 0 then
            { (s.authFail none) with host := { s.host with sent := none } }
          else
            let s := if auth then s.counterSee 65536 (byteAt t 0) (field t 2 6) else s
            match hostKept s mac (field b 2 2) with
            | some k =>
              { (s.bump K.hostAccessCounters_HostDuplicates 2) with host := { s.host with sent := some k.reply } }
            | none =>
              let ctx : Ctx := { path := .host, slot := if auth then some (byteAt t 0) else none, source := 0, tag := 0, at_ := at_, aon := aon }
              let head := (f.drop 6).take 6 ++ own ++ (f.drop 12).take (h - 12)
              s.frameBegin ctx b ops (1500 - (if auth then 24 else 0)) none 255 head mac

/-! ### Remote transactions (R342, R343) -/

/-- TXN_REQUEST: the first such frame that has arrived. -/
def State.txnRequest (s : State) (at_ aon : Nat) : State :=
  if !(engineTakes s .remote) ∨ s.net.run.isSome then s
  else match s.netTake 5 fun _ => true with
  | (none, s) => s
  | (some f, s) =>
    let epoch := field f.body 0 2
    let number := field f.body 2 2
    let b := f.body.drop 4
    match (if f.body.length < 4 then none else payloadOps b) with
    | none => s.netBad
    | some (ops, _) =>
      let port := if f.dest = 0 then f.port else 255
      let ctx : Ctx := { path := .remote, slot := f.slot, source := f.source, tag := 0, at_ := at_, aon := aon }
      let trailer := if bit s.prot.required (kindAuth 6) && (sendSlot s).isSome then 24 else 0
      let head : FrameRun :=
        { ctx := ctx, stop := false, failed := false, limit := 0, reply := [], ops := [], toward := some (f.source, epoch, number),
          port := port, head := [], mac := 0 }
      if epochStale s f.source epoch then
        let y := [1, setBit (byteAt b 1) 1] ++ (b.drop 2).take 4
          ++ ops.flatMap fun o => resultBytes o.1 o.2.1 o.2.2.1 ⟨St.staleEpoch, []⟩
        s.frameEnd { head with reply := y }
      else
        let s := s.epochSee f.source epoch
        match keptReply s f.source epoch number with
        | some y => s.frameEnd { head with reply := y }
        | none => s.frameBegin ctx b ops (2028 - trailer) (some (f.source, epoch, number)) port [] 0

/-! ### Dictionary access units (R449) -/

/-- The words of a value in the layout of R43. -/
def valueWords (t : Ty) (v : Nat) : List Nat :=
  match t with
  | .octets n => octetWords (toBytes n v)
  | .text n => octetWords (toBytes n v)
  | _ =>
    let n := t.words
    let w := if t.signed then ofInt (3 * n) (t.num v) else v
    (List.range n).map fun i => w / 2 ^ (24 * (n - 1 - i)) % 2 ^ 24

/-- A value of `len` bytes from words, and whether its unused upper bits keep R43; the value is what the bits below them spell. -/
def wordsValue (t : Ty) (len : Nat) (w : List Nat) : List Nat × Bool :=
  match t with
  | .octets _ | .text _ => ((w.flatMap fun x => toBytes 3 x).take len, true)
  | _ =>
    let n := t.words
    let v := (w.take n).foldl (fun a x => a * 2 ^ 24 + x) 0
    let img := v % 2 ^ (8 * t.bytes)
    (toBytes t.bytes img, valueWords t img == w.take n)

/-- Reply data as words: values in the layout of R43, everything else packed as OCTETS. -/
def replyWords (op index sub : Nat) (y : Reply) : List Nat :=
  if y.status ≠ St.ok then octetWords y.data
  else match op with
    | 1 => (match findRow index sub with | some r => valueWords r.ty (ofBytes y.data) | none => [])
    | 5 => (splitRows ((rowsOf index).filter fun r => decide (r.sub ≠ 0)) y.data).flatMap fun (p : Row × List Nat) =>
        valueWords p.1.ty (ofBytes p.2)
    | _ => octetWords y.data

/-- The words of a core's buffer. -/
def dauWords (s : State) (c : Nat) (q : DauReq) : List Nat := (List.range q.cap).map fun i => (s.plainGet c (q.buf + i)).toNat

/-- Bytes of a record's values from words, and the subindex of the first value whose image breaks R43. -/
def recordBytes : List Row → List Nat → List Nat × Option Nat
  | [], _ => ([], none)
  | r :: l, w =>
    let a := wordsValue r.ty r.ty.bytes (w.take r.ty.words)
    let b := recordBytes l (w.drop r.ty.words)
    (a.1 ++ b.1, if a.2 then b.2 else some r.sub)

/-- The data bytes of a request of an access unit, and the subindex of a value whose word image breaks R43. -/
def dauData (s : State) (c : Nat) (q : DauReq) : List Nat × Option Nat :=
  let w := dauWords s c q
  if q.op = 2 then (match findRow q.index q.sub with
    | some r =>
      if lengthOk r.ty q.len then
        let v := wordsValue r.ty q.len w
        (v.1, if v.2 then none else some q.sub)
      else (List.replicate q.len 0, none)
    | none => (List.replicate q.len 0, none))
  else if q.op = 6 then
    let rows := recordRows q.index
    if (rows.map fun r => r.ty.bytes).sum = q.len then recordBytes rows w else (List.replicate q.len 0, none)
  else ([], none)

/-- The reply to a request of an access unit with a value whose word image breaks R43: OUT_OF_RANGE at its place in the order
of R53, with the subindex in a WRITE_RECORD (R44, R60); `y` is the reply of its other checks. -/
def imageReply (op : Nat) (y : Reply) (sub : Nat) : Reply :=
  let o := checkOrder y.status
  if failedStatus y.status && decide (o < 9) then y
  else
    let sub := if failedStatus y.status ∧ o = 9 then min sub (y.data.headD sub) else sub
    ⟨St.outOfRange, if op = 6 then [sub] else []⟩

/-- A request of an access unit ends with the reply present: the data in the buffer, the status, DAU_DONE. The
reply of a RETIRED core is discarded (R452). -/
def State.dauEnd (s : State) (c : Nat) (q : DauReq) : State :=
  if s.get (K.coreTick_CoreState c) = 2 then s.modCore c fun k => { k with dauReq := none } else
  let y := s.reply
  let w := replyWords q.op q.index q.sub y
  let s := (List.zip (List.range w.length) w).foldl (fun s p => s.plainSet c (q.buf + p.1) (BitVec.ofNat 24 p.2)) s
  let s := s.modCore c fun k => { k with dauReq := none, dauStatus := BitVec.ofNat 24 y.status, dauRlen := BitVec.ofNat 24 y.data.length }
  s.raiseInt c 4

/-- DAU_DONE: the request of a core executes and completes. A reply longer than the buffer is answered LENGTH_MISMATCH and
changes nothing. -/
def State.dauRun (s : State) (c at_ aon : Nat) : State :=
  match (s.core c).dauReq with
  | none => s
  | some q =>
    if !(engineTakes s (if c = 3 then .user else .firmware)) ∨ 4 ≤ c then s
    else
      let ctx : Ctx := { path := if c = 3 then .user else .firmware, slot := none, source := 0, tag := c, at_ := at_, aon := aon }
      let b := dauData s c q
      let t := s.execOp ctx q.op q.index q.sub q.len b.1
      match b.2 with
      | some sub =>
        let y := imageReply q.op t.reply sub
        ((s.answer y.status y.data).served).dauEnd c q
      | none =>
        if waits t then t
        else if q.cap < (replyWords q.op q.index q.sub t.reply).length then ((s.answer St.lengthMismatch []).served).dauEnd c q
        else t.dauEnd c q

/-! ### A request by its context -/

/-- The context is one of a request that can be executing. -/
def ctxOk (s : State) (c : Ctx) : Bool :=
  c.path != .card && (match c.slot with
    | none => true
    | some k => (c.path == .host || c.path == .remote) && decide (k < 16) && s.get (K.keySlot_KeyState k) == 1)

/-- Time goes on to an instant of the tick and a count of CK_AON: what is due by then takes effect. -/
def State.instant (s : State) (at_ aon : Nat) : State := (((s.reach (s.time.t0 + at_)).reachAon aon).changesExpire).settle

/-- Time goes on to a context's instant. -/
def State.comeTo (s : State) (c : Ctx) : State := s.instant c.at_ c.aon

/-- The next request of the MSPI queue is this one. SUB counts for operations on one subindex only (log entry 149). -/
def mspiIs (s : State) (tag op index sub len : Nat) (b : List Nat) : Bool :=
  match mspiNext s with
  | some r => r.op == op && r.tag == tag && r.index == index && (r.sub == sub || op == 5 || op == 6) && r.len == len && r.data == b
  | none => false

/-- One request executes: the next one of the MSPI queue, or one of another path. -/
def State.request (s : State) (c : Ctx) (op index sub len : Nat) (b : List Nat) : State :=
  if !(engineTakes s c.path && ctxOk s c) then s
  else if c.path = .mspi then
    if mspiIs s c.tag op index sub len b then
      let t := (s.comeTo c).execOp c op index sub len b
      if waits t then t else t.mspiReply
    else s
  else (s.comeTo c).execOp c op index sub len b

/-- The reply of a submission whose keepers have answered, or not, has come: it goes where its request came from. -/
def State.submitDone (s : State) (c : Ctx) : State :=
  let s := s.served
  match s.net.run with
  | some r => match r.ops with
    | (op, index, sub, _, _) :: rest =>
      (s.putRun (some { r with reply := r.reply ++ resultBytes op index sub s.reply, ops := rest,
                               failed := r.failed || failedStatus s.reply.status })).frameGo 40
    | [] => s
  | none => match c.path with
    | .mspi => s.mspiReply
    | .firmware | .user => (match (s.core c.tag).dauReq with | some q => s.dauEnd c.tag q | none => s)
    | _ => s

/-- The context of the submission that waits, and the state after an event that may end it. -/
def State.submitEvent (s : State) (f : State → State) : State :=
  match s.net.submit with
  | none => f s
  | some w =>
    let t := f s
    if waits t then t else t.submitDone w.ctx

/-- A request with whole data: LEN is its length. -/
def State.write (s : State) (c : Ctx) (index sub : Nat) (b : List Nat) : State := s.request c 2 index sub b.length b

/-- The write of a key with a value of its type. -/
def State.writeKey (s : State) (c : Ctx) (k n v : Nat) : State := s.write c (k / 256) (k % 256) (toBytes n v)

/-! ### Messages (R352, R353) -/

/-- MESSAGE_DELIVERY: a failed WRITE that waited for room is presented; the next entry that is due is presented, or its
WRITE executes. -/
def State.messageDelivery (s : State) (at_ aon : Nat) : State :=
  let s := (s.instant at_ aon).failedPresent
  match nextDue s with
  | none => s
  | some r =>
    let m := r.msg
    if bit m.flags 1 then
      if !(engineTakes s .remote) then s
      else
        let ctx : Ctx := { path := .remote, slot := r.slot, source := r.source, tag := 0, at_ := s.time.now - s.time.t0, aon := aon }
        let p := m.payload
        let t := s.execOp ctx 2 (field p 0 2) (byteAt p 2) (field p 3 2) ((p.drop 5).take (field p 3 2))
        (t.writeDone r (if waits t then St.accepted else t.reply.status))
    else s.present r m.payload false

end Sys2Proof.Machine
end

