-- ==== Sys2Proof/Machine/Power.lean ====
section
/-!
DEFINITION. Power states: the votes, entry attempts, wakes from SLEEP, OASIS, and the failures of a start or a level
change (spec/17, R534 to R557).
-/

namespace Sys2Proof.Machine

/-- Change power's own state. -/
def State.modPower (s : State) (f : PowerSt → PowerSt) : State := { s with power := f s.power }

/-! ### The records of a start (R579, R580) -/

/-- Firmware, or SAFE, starts: the START record takes the first SEQ of the start, the WAKE_FAIL records of the failed wakes
follow, then what was logged since the reset, by CODE. A power-up that has come so far has succeeded: the wake latch is
shown, cleared, and ALERT_N released (R547). -/
def State.startLog (s : State) : State :=
  match s.silt.start with
  | none => s
  | some r =>
    let rest := sortBy (fun a b => decide (a.code ≤ b.code)) s.silt.queue
    let power := s.boot.kind == .power
    let fails := if power then s.power.failed else []
    let wf (sec : Nat) : SiltRec :=
      { seq := 0, opSec := s.time.opSec, cycles := s.time.cycles, pondValid := s.timing != 0, pond := s.now96, code := 0x0703,
        tstate := s.timing, dstate := s.device, status := St.ok, data := 1 :: toBytes 6 sec, check := 0 }
    let first := { r with data := [s.get K.deviceControl_ResetCause, s.get K.boot_BootSource] }
    let all := first :: (fails.map wf ++ rest)
    let base := s.silt.nextSeq - s.silt.queue.length
    let l := (List.zip (List.range 64) all).map fun p => siltSeal { p.2 with seq := base + p.1 }
    let n := all.length - l.length
    let s := { s with silt := { s.silt with start := none, queue := l, nextSeq := base + l.length, lost := s.silt.lost + n } }
    let s := if n = 0 then s else (s.raise K.siltLog_LogFlags 0).bumpBy K.siltLog_LostRecords n
    if !power then s
    else
      let s := if fails.isEmpty then s
        else (s.raise K.powerControl_PowerFlags 1).bumpBy K.powerControl_WakeFailEvents fails.length
      let p := s.power
      let s := ((s.set K.wakeLatch_LatchCause p.latchCause).set K.wakeLatch_WakeAttempts p.fails).set K.wakeLatch_LatchedAt
        (p.latchedAt % 2 ^ 48)
      s.modPower fun p => { p with latchCause := 0, fails := 0, latchedAt := 0, failed := [], gaveUp := false }

/-! ### Votes (R537) -/

/-- The elements of an IRIG-B frame that begins at a whole second: the instants of their edges, before the advance. -/
def irigEdges (g : Nat) (frame : List Nat) : List Nat :=
  (List.zip (List.range frame.length) frame).flatMap fun (p : Nat × Nat) =>
    let at_ := g + p.1 * 10 * MS
    [at_, at_ + (if p.2 = 0 then 2 else if p.2 = 1 then 5 else 8) * MS]

/-- The instants, before the advance, of edges that a pulse placer has due. -/
def pulseEdges (s : State) (p : Nat) : List Nat :=
  let t := s.tp p
  let next := match t.from_ with
    | some f =>
      let lo := max f (match t.lastEdge with | some l => l + 1 | none => 0)
      [gridAt (tpPeriod t) lo]
    | none => []
  if t.irig then next ++ (match t.lastEdge with | some l => irigEdges l s.out.tod.frame | none => []) else next

/-- A pulse placer has an edge due within 10 µs (block 11). -/
def pulseSoon (s : State) : Bool :=
  (List.range 4).any fun p =>
    let t := s.tp p
    let soon (x : Int) : Bool := decide ((s.time.now : Int) < x ∧ x ≤ (s.time.now : Int) + 10 * US)
    (t.active && !t.irig && soon t.endsAt) || (pulseEdges s p).any fun g => soon ((g : Int) - tpAdvance s p)

/-- A block refuses to leave RUN. Journal and P-object writes are whole within their commands, so MRAM refuses only where
a write is in progress as the attempt meets it, which the attempt's command says. -/
def blockRefuses (s : State) (b : Nat) : Bool :=
  let role := s.get K.lakeRoot_EnsembleRole
  match b with
  | 0 => role == 1 || role == 3 || s.time.due.isSome || s.time.reseed.isSome
  | 1 => !s.mspi.queue.isEmpty || s.net.run.isSome || waits s || (List.range 4).any fun c => (s.core c).dauReq.isSome
  | 2 => messagesRefuse s
  | 3 => (List.range 32).any (fun n => !(s.port n).buf.isEmpty) || !s.ports.launch.isEmpty || !s.net.rx.isEmpty
      || !s.net.tx.isEmpty
  | 6 => s.nav.queue.toList.any fun q => !q.isEmpty
  | 7 => s.rx.run.isSome
  | 8 => readerVotes s
  | 9 => s.timersBusy
  | 11 => pulseSoon s
  | _ => false

/-- The first block that refuses, in the order of the block numbers. -/
def refusingBlock (s : State) : Option Nat := (List.range 12).find? (blockRefuses s)

/-! ### Entry attempts (R536 to R539) -/

/-- The attempt ends, however it ends: PowerMode is NONE again (R536). -/
def State.entryDone (s : State) : State :=
  (s.set K.powerControl_PowerMode 0).modPower fun p => { p with armed := none }

/-- A block, or a wake source as block 14, ends the attempt (R539). -/
def State.entryRefused (s : State) (b : Nat) : State :=
  let s := s.entryDone
  let s := (s.set K.powerControl_EntryResult St.refused).set K.powerControl_RefusingBlock b
  let s := s.flag K.powerControl_PowerFlags 0 K.powerControl_RefusedCount
  s.log 0x0702 St.refused [b]

/-- Every port is DOWN (R557); a RETIRED port stays so. -/
def State.portsDown (s : State) : State :=
  (List.range 32).foldl (fun s n => if s.portState n = 0 ∨ s.portState n = 6 then s else s.portLeave n 0) s

/-- The blocks have stopped, and the state of a mode is reached: 1 SLEEP, 2 DEEP, 3 OFF, 4 OASIS. MRAM has committed every
record, the entry record among them (R538, R580). -/
def State.entryReached (s : State) (mode : Nat) : State :=
  let was := s.get K.reference_RefStatus == 0
  let s := (s.log 0x0701 St.ok [mode]).changesDiscard
  let s := s.entryDone
  let s := (s.set K.powerControl_EntryResult St.ok).set K.powerControl_RefusingBlock 255
  let s := s.count K.powerControl_Entries 4
  let s := (s.portsDown.ergSleep).timersSleep.readerStop
  let s := s.slotsHold s.slotsKeep
  let s := ((s.siltCommit 64).siltCommit 64).outputsSleep
  let deep := mode == 2 || mode == 3
  let s := if deep then { s with out := { s.out with undriven := true }, time := { s.time with running := false } } else s
  s.modPower fun p =>
    { p with phase := (if mode = 2 then .deep else if mode = 3 then .off else .sleep), reachedAt := s.elapsed,
             reachedAon := s.time.aon, refWas := was, ramp := none,
             oasis := (if mode = 4 then (match p.oasis with | some e => some e | none => some s.elapsed) else none),
             burst := none }

/-- A wake source is enabled in the state of a mode (R540): 1 WAKE_N, 2 ALARM, 3 CARD, 4 MSPI, 5 LINK, 6 REF_LOSS. -/
def wakeEnabled (s : State) (sleep : Bool) (cause : Nat) : Bool :=
  let e := s.get K.powerControl_WakeEnable
  match cause with
  | 1 => true
  | 2 => bit e 1 && s.get K.powerControl_WakeAlarm != 0
  | 3 => sleep && bit e 2 && s.getB K.cardDetect_CdWake
  | 4 => bit e 3
  | 5 => sleep && bit e 4 && s.get K.powerControl_LinkWakePorts != 0
  | 6 => sleep
  | _ => false

/-- The poll and the stop phase of an attempt at a mode, as one: `e` is what ends it beyond the votes (R544, R556). Answers
whether the state is reached. -/
def State.entryTry (s : State) (mode : Nat) (e : EntryEnd) : State × Bool :=
  match refusingBlock s with
  | some b => (s.entryRefused b, false)
  | none => match e with
    | .block b =>
      if b < 12 ∧ b ≠ 4 ∧ b ≠ 5 then ((s.log 0x0701 St.ok [mode]).entryRefused b, false) else (s.entryReached mode, true)
    | .wake cause poll =>
      if wakeEnabled s (mode == 1 || mode == 4) cause then
        let s := if poll then s else s.log 0x0701 St.ok [mode]
        let s := if cause = 6 then s.referenceLost.synthRefChange else s
        ((s.set K.powerControl_LastWakeCause cause).entryRefused 14, false)
      else (s.entryReached mode, true)
    | .none => (s.entryReached mode, true)

/-- Every core that is not RETIRED has executed WAIT in the present tick, or has been stopped (R536). -/
def coresWait (s : State) : Bool :=
  (List.range 4).all fun c => s.get (K.coreTick_CoreState c) != 0 || (s.core c).waited

/-- ENTRY_ATTEMPT (R536 to R539): the reply has left and every core waits. -/
def State.entryAttempt (s : State) (e : EntryEnd) : State :=
  let mode := s.get K.powerControl_PowerMode
  if s.inRun && s.power.armed == some 0 && mode != 0 && coresWait s then
    let s := if mode = 4 then s.set K.oasis_OasisBursts 0 else s
    (s.entryTry mode e).1
  else s

/-- IDLE (R535): CK_CORE of a core in WAIT is gated, but for a dictionary request or a ring descriptor of that core in
progress. No block votes, and PowerState reads RUN. -/
def coreGated (s : State) (c : Nat) : Bool :=
  let k := s.core c
  let ring := (s.cpu.ringDone.any fun d => d.core == c) || s.net.txns.any fun t => t.ring.any fun (p : Nat × Nat) => p.1 == c
  s.getB K.powerControl_IdleEnable && s.clocked && k.waiting && k.dauReq.isNone && !ring

/-! ### Wakes from SLEEP (R540, R541, R544) -/

/-- The device returns from SLEEP: the regulator ramps, the PLL relocks, and the first tick edge after it releases the
cores. -/
def State.wakeStart (s : State) : State :=
  (s.set K.powerControl_PowerState 0).modPower fun p =>
    { p with phase := .run, oasis := none, burst := none, waking := true, wakeAt := s.elapsed, rampAon := s.time.aon }

/-- At a tick edge after a wake the PLL has relocked, as the edge reports: at the latest 2.5 ms after the source acted, with
the reference valid or given up (R541, R546). -/
def relocked (s : State) (now : Bool) : Bool :=
  (s.time.refOk || s.get K.reference_RefStatus != 0) && (now || decide (s.power.wakeAt + 2500 * US ≤ s.elapsed))

/-- A wake source has acted in SLEEP. -/
def State.wakeBy (s : State) (cause : Nat) : State :=
  if s.power.phase == .sleep then (s.set K.powerControl_LastWakeCause cause).wakeStart else s

/-- CK_REF is lost in SLEEP: the wake takes the path of R95 (R541). -/
def State.refWake (s : State) : State := s.referenceLost.wakeBy 6

/-- WAKE (R541): WAKE_N, the alarm, MSPI, a link's signal at a port, the loss of CK_REF. A card wakes the device by its
burst (R506). -/
def State.wake (s : State) (cause port : Nat) : State :=
  if s.power.phase == .sleep && wakeEnabled s true cause then
    match cause with
    | 2 => if s.power.reachedAon + 32768 * s.get K.powerControl_WakeAlarm ≤ s.time.aon then s.wakeBy 2 else s
    | 3 => s
    | 5 => if port < 32 ∧ bit (s.get K.powerControl_LinkWakePorts) port then s.wakeBy 5 else s
    | 6 => s.refWake
    | c => s.wakeBy c
  else s

/-! ### OASIS (R548, R549) -/

/-- OASIS_BURST: at a multiple of OasisPeriod after entry. -/
def State.oasisBurst (s : State) : State :=
  match s.power.oasis, s.power.burst with
  | some e, none =>
    let d := s.elapsed - e
    if s.power.phase == .sleep && decide (0 < d) && decide (d % (s.get K.oasis_OasisPeriod * MS) = 0) then
      ((s.count K.oasis_OasisBursts 4).set K.powerControl_PowerState 1).modPower fun p => { p with burst := some s.elapsed }
    else s
  | _, _ => s

/-- OASIS_BURST_END: OasisBurst after its start the device goes back through the votes, to DEEP beyond OasisErrorLimit; a
refusal leaves it in RUN. -/
def State.oasisBurstEnd (s : State) (e : EntryEnd) : State :=
  match s.power.burst with
  | none => s
  | some b =>
    if s.elapsed < b + s.get K.oasis_OasisBurst * MS then s
    else
      let above := errExceeds (s.get K.pondTime_ErrorEstimate) (s.get K.oasis_OasisErrorLimit)
      let s := if above then s.flag K.powerControl_PowerFlags 4 K.powerControl_OasisLimitEvents else s
      let r := s.entryTry (if above then 2 else 4) e
      if r.2 then r.1.set K.powerControl_PowerState 0 else r.1.wakeStart

/-! ### Failures (R545, R546, R551) -/

/-- REGULATOR_TIMEOUT (R545): in a start or a wake the core regulator has not reported ready within 2 ms of the start of
its ramp, as CK_AON can tell; the device returns
to OFF, at the third failure for good. -/
def State.regulatorTimeout (s : State) : State :=
  let late := decide (2 * 32768 < (s.time.aon + 1 - s.power.rampAon) * 1000)
  if (s.power.waking || (s.power.phase == .starting && !s.time.running)) && late then
    let s := { s with out := { s.out with undriven := true }, time := { s.time with running := false } }
    s.modPower fun p =>
      { p with phase := .off, waking := false, latchCause := 1, fails := min 3 (p.fails + 1), latchedAt := s.time.opSec,
               failed := p.failed ++ [s.time.opSec], gaveUp := p.gaveUp || decide (2 ≤ p.fails), failAon := s.time.aon }
  else s

/-- REF_LATE (R546): 50 ms after the regulator is ready the reference is not valid; the device goes on with the internal
oscillator, on the path of R95. -/
def State.refLate (s : State) : State :=
  let start := s.power.phase == .starting && !s.time.running && s.get K.reference_RefStatus == 0
  let wake := s.power.waking && s.power.refWas && s.get K.reference_RefStatus == 0
  if (start || wake) && !s.time.refOk then
    let s := s.referenceLost.flag K.powerControl_PowerFlags 3 K.powerControl_RefLateEvents
    s.modPower fun p => { p with latchCause := 2 }
  else s

/-- LEVEL_FAIL (R551): a raise has not come into range within 2 ms of the start of its ramp. A tick edge that finds it so does
the same. -/
def State.levelFail (s : State) : State :=
  match s.power.ramp with
  | none => s
  | some (lvl, t) =>
    if s.elapsed < t + 2 * MS then s
    else
      let s := s.modPower fun p => { p with ramp := none }
      let s := s.set K.performance_LevelRequest (s.get K.performance_LevelApplied)
      let s := s.flag K.powerControl_PowerFlags 2 K.powerControl_LevelFailEvents
      s.log 0x0704 St.ok [lvl]

/-! ### Commands -/

/-- ENTRY_ATTEMPT (R538); `aon` is the count of CK_AON. -/
def execEntryAttempt (e : EntryEnd) (at_ aon : Nat) (s : State) : Host.Outcome State Fault Refusal :=
  .next (((s.reach (s.time.t0 + at_)).reachAon aon).entryAttempt e)
/-- WAKE (R541); `port` of a LINK wake. -/
def execWake (cause port at_ aon : Nat) (s : State) : Host.Outcome State Fault Refusal :=
  .next (((s.reach (s.time.t0 + at_)).reachAon aon).wake cause port)
/-- REGULATOR_TIMEOUT (R545). -/
def execRegulatorTimeout (aon : Nat) (s : State) : Host.Outcome State Fault Refusal := .next ((s.reachAon aon).regulatorTimeout)
/-- REF_LATE (R546). -/
def execRefLate (s : State) : Host.Outcome State Fault Refusal := .next s.refLate
/-- OASIS_BURST (R548). -/
def execOasisBurst (at_ : Nat) (s : State) : Host.Outcome State Fault Refusal := .next ((s.reach (s.time.t0 + at_)).oasisBurst)
/-- OASIS_BURST_END (R548). -/
def execOasisBurstEnd (e : EntryEnd) (at_ aon : Nat) (s : State) : Host.Outcome State Fault Refusal :=
  .next (((s.reach (s.time.t0 + at_)).reachAon aon).oasisBurstEnd e)
/-- LEVEL_FAIL (R551). -/
def execLevelFail (at_ : Nat) (s : State) : Host.Outcome State Fault Refusal := .next ((s.reach (s.time.t0 + at_)).levelFail)

end Sys2Proof.Machine
end

