-- ==== Sys2Proof/Machine/TimeCmds.lean ====
section
/-!
DEFINITION. The commands of Pond time and the outputs: the step and re-seeds, the reference, edges and messages of the
outputs; and what firmware completes in its own time: loop updates, decoded blocks, the time solution (spec/03, spec/06 to
spec/08).
-/

namespace Sys2Proof.Machine

/-- Firmware's own work is done: it runs, in RUN. -/
def State.fwWorks (s : State) : Bool := s.fwUp && s.inRun


/-- An instant lies in the present tick. -/
def State.inTick (s : State) (t : Int) : Bool := decide ((s.time.t0 : Int) ≤ t ∧ t < s.tickAhead)

/-! ### The step and re-seeds (R89 to R93, R112, R115) -/

/-- A re-seed is complete: its count, LastStepAt and ReseedResult; `v` is the value set, as a TIME96 image. -/
def State.reseedFinish (s : State) (v : Nat) : State :=
  let s := (s.set K.pondTime_LastStepAt v).bump K.pondTime_ReseedCount 2
  let s := s.set K.seeding_ReseedResult St.ok
  { s with time := { s.time with reseed := none, reseedDone := none } }

/-- What a step of Pond time from `old` to `new` does to the blocks (R109, R144, R182, R224, R288, R290, R323, R359, R394,
R531). -/
def State.stepBlocks (s : State) (old new : Nat) : State :=
  let s := (s.outputsStep old new).timersPondStep old new
  let s := s.rephase.slotsStep.ergStep.solStep.portsStep
  let s := { s with nav := { s.nav with stepAt := some new } }
  ((s.messagesStep old new).lakeStep).leapDue

/-- STEP (R90): at its tick edge the step that the Pond time unit holds is taken. -/
def State.pondStep (s : State) : State :=
  match s.time.due with
  | none => s
  | some d =>
    if s.atEdge && decide (d.notBefore ≤ s.time.ms) then
      let old := s.time.t0
      let v := stepValue old d
      let s := ((s.stepReport d v).stepRate d).stepPond d
      let s := (s.stepState d).stepBlocks old (stepTarget old d)
      if !d.reseed then s
      else if s.fwUp then s.reseedFinish v
      else { s with time := { s.time with reseedDone := some v, reseed := none } }
    else s

/-- The count of tick edges at the edge of a re-seed whose record is written now: at least 2 ms ahead (R90), and not before
the record is committed, at most 4 a tick (R115, R580). -/
def State.reseedEdge (s : State) : Nat := max s.edgeAfter2ms (s.time.ms + (s.silt.queue.length + 4) / 4)

/-- What the source of a re-seed gives for a tick edge at Pond time `edge`, once it has come (R93). DESIGN CHOICE (log entry
152): the GNSS offset of its epoch stands for the step edge. -/
def reseedStep (s : State) (r : Reseed) (edge at_ : Nat) : Option StepDue :=
  match r.source with
  | 0 => match s.lake.est, s.lake.estAt with
    | some (x, rate, e), some t =>
      if r.since < t then
        some ⟨true, carried x rate e edge, at_, .lake, some rate, lakeErrorEstimate { s with time := { s.time with updates := 0 } }, true⟩
      else none
    | _, _ => none
  | 1 => match s.sol.good with
    | some (t, x, rate, err) => if r.since < t then some ⟨true, x, at_, .gnss, some rate, err, true⟩ else none
    | none => none
  | _ => some ⟨false, r.value, at_, .host, none, errUnknown, true⟩

/-- RESEED (R93): the named source has come within 10 s; the record is written, and the step is handed over once it is
committed. -/
def State.reseedCome (s : State) : State :=
  match s.time.reseed with
  | none => s
  | some r =>
    if r.logged.isSome || s.time.due.isSome || !s.fwWorks || decide (r.since + 10 * SEC < s.elapsed) then s
    else
      let at_ := s.reseedEdge
      let edge := s.tickAhead + (at_ - s.time.ms - 1) * MS
      match reseedStep s r edge at_ with
      | none => s
      | some d =>
        let s := s.log 0x0102 St.ok (toBytes 12 (stepValue edge d))
        { s with time := { s.time with reseed := some { r with logged := some d } } }

/-- The hand-over of a re-seed whose record has been committed (R115). -/
def State.reseedHand (s : State) : State :=
  match s.time.reseed with
  | some r => match r.logged with
    | some d =>
      if s.fwWorks && s.time.due.isNone && !(s.silt.queue.any fun x => x.code == 0x0102) then s.handOver d else s
    | none => s
  | none => s

/-- RESEED_TIMEOUT (R93): 10 s have passed without the source. -/
def State.reseedLate (s : State) : State :=
  match s.time.reseed with
  | some r =>
    if r.logged.isNone && s.fwWorks && decide (r.since + 10 * SEC ≤ s.elapsed) then
      { (s.set K.seeding_ReseedResult St.timeout) with time := { s.time with reseed := none } }
    else s
  | none => s

/-! ### The reference (R95, R488, R546) -/

/-- In a start or a wake the PLL has not yet taken the reference: what it does is judged at its lock, or at REF_LATE. -/
def refWaits (s : State) : Bool :=
  !(s.inRun || s.power.phase == .sleep) &&
    (s.get K.reference_RefStatus == 0 || !(s.power.waking || s.power.phase == .starting))

/-- REFERENCE_LOST. In SLEEP it wakes the device (R541). -/
def State.refLost (s : State) : State :=
  if refWaits s then { s with time := { s.time with refOk := false } }
  else if s.power.phase == .sleep then s.refWake
  else if s.get K.reference_RefStatus == 1 then s.referenceLost
  else s.referenceLost.synthRefChange

/-- REFERENCE_RETURNING. -/
def State.refReturns (s : State) : State :=
  if refWaits s then { s with time := { s.time with refOk := true, refSince := s.time.ms } } else s.referenceReturning

/-- REFERENCE_VALID: the PLL returns to the reference. -/
def State.refValid (s : State) : State :=
  let t := s.referenceValid
  if t.get K.reference_RefStatus = s.get K.reference_RefStatus then s else t.synthRefChange

/-! ### Commands -/

/-- SOURCE_LOST (R84). -/
def execSourceLost (s : State) : Host.Outcome State Fault Refusal :=
  .next (onlyIf (s.clocked && s.lossDue) s s.sourceLost)
/-- STEP (R90). -/
def execStep (s : State) : Host.Outcome State Fault Refusal := .next s.pondStep
/-- RESEED (R93). -/
def execReseed (at_ : Nat) (s : State) : Host.Outcome State Fault Refusal := .next ((s.reach (s.time.t0 + at_)).reseedCome)
/-- RESEED_TIMEOUT (R93). -/
def execReseedTimeout (at_ : Nat) (s : State) : Host.Outcome State Fault Refusal :=
  .next ((s.reach (s.time.t0 + at_)).reseedLate)
/-- REFERENCE_LOST (R95). -/
def execReferenceLost (at_ : Nat) (s : State) : Host.Outcome State Fault Refusal := .next ((s.reach (s.time.t0 + at_)).refLost)
/-- REFERENCE_RETURNING (R95). -/
def execReferenceReturning (at_ : Nat) (s : State) : Host.Outcome State Fault Refusal :=
  .next ((s.reach (s.time.t0 + at_)).refReturns)
/-- REFERENCE_VALID (R95). -/
def execReferenceValid (at_ : Nat) (s : State) : Host.Outcome State Fault Refusal :=
  .next ((s.reach (s.time.t0 + at_)).refValid)
/-- TIME_PULSE_EDGE (R100): output `p` emits the edge of grid instant `g`, advanced by Q, in the present tick. -/
def execTimePulseEdge (p g : Nat) (s : State) : Host.Outcome State Fault Refusal :=
  .next (let emit := (g : Int) - tpAdvance s p
    onlyIf (s.time.running && s.inTick emit) s ((s.reach emit.toNat).tpEdge p g))
/-- PULSE_WIDTH_END (R101). -/
def execPulseWidthEnd (p : Nat) (s : State) : Host.Outcome State Fault Refusal :=
  .next (onlyIf (s.time.running && decide ((s.tp p).endsAt < s.tickAhead)) s ((s.reach (s.tp p).endsAt).tpEnd p))
/-- CLOCK_REALIGN (R104): output `c` gives the edge of alignment instant `g`, advanced, in the present tick. -/
def execClockRealign (c g : Nat) (s : State) : Host.Outcome State Fault Refusal :=
  .next (let emit := (g : Int) - ckoAdvance s c
    onlyIf (s.time.running && s.inTick emit) s ((s.reach emit.toNat).ckoAlign c g))
/-- PHASE_RESIDUAL_MEASURE (R103): the error measured, in ps. -/
def execPhaseResidualMeasure (c : Nat) (r : Int) (at_ : Nat) (s : State) : Host.Outcome State Fault Refusal :=
  .next ((s.reach (s.time.t0 + at_)).ckoResidual c r)
/-- TOD_MESSAGE (R105): the message of whole second `sec`, TodLatency after it. -/
def execTodMessage (sec : Nat) (s : State) : Host.Outcome State Fault Refusal :=
  .next (let t := sec * SEC + s.get K.timeOfDay_TodLatency * MS
    onlyIf (s.inRun && s.inTick t) s ((s.reach t).todSend sec))
/-- IRIG_B_FRAME (R108): the frame of whole second `sec` begins, advanced by Q. -/
def execIrigBFrame (sec : Nat) (s : State) : Host.Outcome State Fault Refusal :=
  .next (let emit := ((sec * SEC : Nat) : Int) - tpAdvance s 3
    onlyIf (s.time.running && s.inTick emit) s ((s.reach emit.toNat).irigSend sec))
/-- LOOP_UPDATE (R197) of a slot, with the data symbols it completes (R229). -/
def execLoopUpdate (n at_ : Nat) (s : State) : Host.Outcome State Fault Refusal :=
  .next (let s := s.reach (s.time.t0 + at_)
    onlyIf s.fwWorks s ((s.loopUpdate n).blocksSend))
/-- PREDICTED_BLOCK (R247). -/
def execPredictedBlock (n e part start at_ : Nat) (s : State) : Host.Outcome State Fault Refusal :=
  .next (let s := s.reach (s.time.t0 + at_)
    onlyIf s.fwWorks s ((s.predictedBlock n e part start).blocksSend))
/-- SOLUTION (R275). -/
def execSolution (at_ : Nat) (s : State) : Host.Outcome State Fault Refusal :=
  .next (let s := s.reach (s.time.t0 + at_)
    let t := s.solution
    let dual := t.get K.timeSolution_UsedCount == t.get K.timeSolution_DualCount
    let t := if dual && t.sol.good != s.sol.good then
        (match t.sol.good with | some g => t.asymSee g.2.1 | none => t)
      else t
    onlyIf s.fwWorks s t)

end Sys2Proof.Machine
end

