-- ==== Sys2Proof/Machine/VMem.lean ====
section
/-!
DEFINITION. The address space of the Vuvan cores (spec/13, R423 to R426, R449, R450; spec/16, R528): what a core may
read, write and fetch, and what the special-function words do.
-/

namespace Sys2Proof.Machine

/-- A word may be fetched (R423). -/
def canFetch (user : Bool) (a : Nat) : Bool := decide (a ≤ 0xFFFF) && (!user || decide (0x4000 ≤ a))

/-! ### Time words -/

/-- Time since t0 of the present tick, in units of 8 ns. -/
def State.sinceT0 (s : State) : Nat := min 124999 ((s.time.now - s.time.t0) / (8 * NS))

/-- Time in USER mode in the present tick, in units of 8 ns (R30). -/
def State.userTime (s : State) : Nat :=
  s.cpu.userUsed + (match s.cpu.userSince with | none => 0 | some t => s.sinceT0 - t)

/-- User time stops counting (R446). -/
def State.userStop (s : State) : State :=
  { s with cpu := { s.cpu with userUsed := s.userTime, userSince := none } }

/-! ### Actions of special-function words -/

/-- MAILBOX_SEND: bit c raises MAILBOX on core c. -/
def State.mailbox (s : State) (w : Word) : State :=
  (List.range 4).foldl (fun s c => if w.getLsbD c then s.raiseInt c 7 else s) s

/-- A read of the first TICK_NOW word: word 0, and the other two latched. -/
def State.tickNow (s : State) (c : Nat) : Word × State :=
  let t := s.time.tick
  (BitVec.ofNat 24 (t / 2 ^ 48 % 65536),
   s.modCore c fun k => { k with tickNow1 := BitVec.ofNat 24 (t / 2 ^ 24), tickNow2 := BitVec.ofNat 24 t })

/-- TICK_DONE written 1 (R25, R28): the first write of a tick marks the time of the core's tasks,
unless WAIT has already marked it. -/
def State.tickDone (s : State) (c : Nat) : State :=
  let used := s.sinceT0 - 250
  s.modCore c fun k => if k.tickDone then k else { k with tickDone := true, usedNow := if k.waited then k.usedNow else used }

/-- The NCO update of slot `n` is submitted (R24, R426): for the next tick edge, or the edge after it in the guard
interval. -/
def State.ncoCommit (s : State) (n : Nat) : State :=
  let word (i : Nat) : Nat := (SMap.get 0 (8 * n + i) s.cpu.nco).toNat
  let v := some (word 0 * 2 ^ 24 + word 1, word 2 * 2 ^ 24 + word 3)
  if s.cpu.guard then { s with cpu := { s.cpu with ncoLater := SMap.set none n v s.cpu.ncoLater } }
  else { s with cpu := { s.cpu with ncoNext := SMap.set none n v s.cpu.ncoNext } }

/-- DAU_GO written 1 (R449): the request is submitted; ACCESS while one is in progress, or when a word of the buffer lies
outside the core's access. -/
def State.dauGo (s : State) (c : Nat) : Except Trap State :=
  let k := s.core c
  let user := s.userMode c
  if k.dauReq.isSome then .error (.access none)
  else if !(bufferOk user k.dauBuf.toNat (min k.dauCap.toNat 1024)) then .error (.access (some k.dauBuf))
  else
    let r : DauReq := { op := k.dauOp.toNat % 256, index := k.dauTarget.toNat / 256, sub := k.dauTarget.toNat % 256,
                        len := k.dauLen.toNat, buf := k.dauBuf.toNat, cap := k.dauCap.toNat, user := user }
    .ok (s.modCore c fun k => { k with dauReq := some r })

/-! ### The special-function words (R425) -/

/-- Read a special-function word. -/
def State.specRead (s : State) (c a : Nat) : Except Trap (Word × State) :=
  let k := s.core c
  let user := s.userMode c
  let no : Except Trap (Word × State) := .error (.access (some (BitVec.ofNat 24 a)))
  if a < 0xF04000 then (if user then no else .ok (SMap.get 0 (0x2FC000 + (a - 0xF00000)) s.cpu.shared, s))
  else match a with
  | 0xF10000 => .ok ((k.intEnable &&& 0x0000F8) ||| 0x000007, s)
  | 0xF10001 => .ok (k.intPending &&& 0x0000FF, s)
  | 0xF10100 => .ok (s.tickNow c)
  | 0xF10101 => .ok (k.tickNow1, s)
  | 0xF10102 => .ok (k.tickNow2, s)
  | 0xF10103 => .ok (BitVec.ofNat 24 s.sinceT0, s)
  | 0xF10104 => .ok (BitVec.ofNat 24 (s.get K.tickBudget_UserBudgetGranted), s)
  | 0xF10105 => .ok (BitVec.ofNat 24 s.userTime, s)
  | 0xF10106 => .ok (BitVec.ofNat 24 (s.get K.performance_LevelApplied), s)
  | 0xF10107 => if user then no else .ok (0, s)
  | 0xF10200 => .ok (k.dauOp, s)
  | 0xF10201 => .ok (k.dauTarget, s)
  | 0xF10202 => .ok (k.dauLen, s)
  | 0xF10203 => .ok (k.dauBuf, s)
  | 0xF10204 => .ok (k.dauCap, s)
  | 0xF10205 => .ok (0, s)
  | 0xF10206 => .ok (stPut (k.dauStatus &&& 0x00FFFF) 23 k.dauReq.isSome, s)
  | 0xF10207 => .ok (k.dauRlen, s)
  | 0xF10300 => .ok (k.ring0.base, s)
  | 0xF10301 => .ok (k.ring0.size, s)
  | 0xF10302 => .ok (k.ring0.head, s)
  | 0xF10303 => .ok (k.ring0.tail, s)
  | 0xF10304 => .ok (k.ring1.base, s)
  | 0xF10305 => .ok (k.ring1.size, s)
  | 0xF10306 => .ok (k.ring1.head, s)
  | 0xF10307 => .ok (k.ring1.tail, s)
  | 0xF10400 => .ok (k.trapCause, s)
  | 0xF10401 => .ok (k.trapPc, s)
  | 0xF10402 => .ok (k.trapAddr, s)
  | 0xF10403 => .ok (k.trapSt, s)
  | 0xF10404 => .ok (BitVec.ofNat 24 c, s)
  | 0xF10405 => .ok (k.stackLow, s)
  | 0xF10406 => .ok (k.stackHigh, s)
  | 0xF10407 => .ok (k.fpCtrl, s)
  | _ => if 0xF20000 ≤ a ∧ a ≤ 0xF20FFF then .ok (s.timerRead (a - 0xF20000)) else no

/-- A word of the timer area that is read only (R528, R529). -/
def timerReadOnly (o : Nat) : Bool :=
  if o < 0x200 then o % 32 == 0 || o % 32 == 1 || o % 32 == 15 else decide (o < 0x240) && decide (o % 8 < 5)

/-- Write a ring word: RING_BASE and RING_SIZE only while HEAD equals TAIL, a size from 2 to 64; RING_TAIL is read only. -/
def State.ringWrite (s : State) (c r o : Nat) (w : Word) : Except Trap State :=
  let q := (s.core c).ring r
  if o = 2 then .ok (s.ringHead c r w)
  else if o = 3 ∨ q.head ≠ q.tail then .error (.access (some (BitVec.ofNat 24 (0xF10300 + 4 * r + o))))
  else if o = 0 then .ok (s.modCore c fun k => k.modRing r fun q => { q with base := w })
  else if 2 ≤ w.toNat ∧ w.toNat ≤ 64 then .ok (s.modCore c fun k => k.modRing r fun q => { q with size := w })
  else .ok s

/-- Write a special-function word. -/
def State.specWrite (s : State) (c a : Nat) (w : Word) : Except Trap State :=
  let k := s.core c
  let user := s.userMode c
  let no : Except Trap State := .error (.access (some (BitVec.ofNat 24 a)))
  if 0xF04000 ≤ a ∧ a ≤ 0xF04FFF then
    if user then no
    else
      let o := a - 0xF04000
      if o % 8 < 4 then .ok { s with cpu := { s.cpu with nco := SMap.set 0 o w s.cpu.nco } }
      else if o % 8 = 4 ∧ w.getLsbD 23 = true then .ok (s.ncoCommit (o / 8))
      else .ok s
  else match a with
  | 0xF10000 =>
    let mask : Word := if user then 0x000070 else 0x0000F8
    .ok (s.modCore c fun k => { k with intEnable := (k.intEnable &&& ~~~mask) ||| (w &&& mask) })
  | 0xF10001 =>
    let mask : Word := if user then 0x000070 else 0x0000FF
    .ok (s.modCore c fun k => { k with intPending := k.intPending &&& ~~~(w &&& mask) })
  | 0xF10002 => .ok (s.mailbox w)
  | 0xF10107 => if user then no else if w = 1 then .ok (s.tickDone c) else .ok s
  | 0xF10200 => if k.dauReq.isSome then no else .ok (s.modCore c fun k => { k with dauOp := w })
  | 0xF10201 => if k.dauReq.isSome then no else .ok (s.modCore c fun k => { k with dauTarget := w })
  | 0xF10202 => if k.dauReq.isSome then no else .ok (s.modCore c fun k => { k with dauLen := w })
  | 0xF10203 => if k.dauReq.isSome then no else .ok (s.modCore c fun k => { k with dauBuf := w })
  | 0xF10204 => if k.dauReq.isSome then no else .ok (s.modCore c fun k => { k with dauCap := w })
  | 0xF10205 => if k.dauReq.isSome then no else if w = 1 then s.dauGo c else .ok s
  | 0xF10206 | 0xF10207 => .ok s
  | 0xF10405 => .ok (s.modCore c fun k => { k with stackLow := w })
  | 0xF10406 => .ok (s.modCore c fun k => { k with stackHigh := w })
  | 0xF10407 => .ok (s.modCore c fun k => { k with fpCtrl := w &&& 0x00007F })
  | _ =>
    if 0xF10300 ≤ a ∧ a ≤ 0xF10307 then s.ringWrite c ((a - 0xF10300) / 4) (a % 4) w
    else if 0xF20000 ≤ a ∧ a ≤ 0xF20FFF then
      if timerReadOnly (a - 0xF20000) then no else .ok (s.timerWrite (a - 0xF20000) w)
    else no

/-! ### Data accesses (R423) -/

/-- Cycles of a data access without its waits (R481). -/
def accessCycles (a : Nat) : Nat := if a ≤ 0xFFFF then 1 else if a < 0xF00000 then 3 else 4

/-- Read a word for a core: ACCESS, with its address, where R423 does not allow it. -/
def State.readWord (s : State) (c : Nat) (a : Word) : Except Trap (Word × State) :=
  let n := a.toNat
  let s := s.modCore c fun k => { k with cyc := k.cyc + accessCycles n }
  if plainRw (s.userMode c) n then .ok (s.plainGet c n, s)
  else if 0x2F8000 ≤ n ∧ n ≤ 0x2F83FF then .ok (s.plainGet c n, s)
  else if 0xF00000 ≤ n then s.specRead c n
  else .error (.access (some a))

/-- Write a word for a core. -/
def State.writeWord (s : State) (c : Nat) (a w : Word) : Except Trap State :=
  let n := a.toNat
  let s := s.modCore c fun k => { k with cyc := k.cyc + accessCycles n }
  if plainRw (s.userMode c) n then .ok (s.plainSet c n w)
  else if 0xF00000 ≤ n then s.specWrite c n w
  else .error (.access (some a))

/-! ### The stack (R438) -/

/-- Push a word: STACK below STACK_LOW, ACCESS into memory R423 forbids; of both, the lower cause code. -/
def State.push (s : State) (c : Nat) (w : Word) : Except Trap State :=
  let k := s.core c
  let a := k.sp - 1
  let r := s.writeWord c a w
  if a.toNat < k.stackLow.toNat then
    match r with
    | .error e => .error (if e.code < Trap.stack.code then e else .stack)
    | .ok _ => .error .stack
  else match r with
    | .error e => .error e
    | .ok s => .ok (s.modCore c fun k => { k with sp := a })

/-- Pop a word: STACK at or above STACK_HIGH. -/
def State.pop (s : State) (c : Nat) : Except Trap (Word × State) :=
  let k := s.core c
  let r := s.readWord c k.sp
  if k.stackHigh.toNat ≤ k.sp.toNat then
    match r with
    | .error e => .error (if e.code < Trap.stack.code then e else .stack)
    | .ok _ => .error .stack
  else match r with
    | .error e => .error e
    | .ok p => .ok (p.1, p.2.modCore c fun k => { k with sp := k.sp + 1 })

end Sys2Proof.Machine
end

