-- ==== Sys2Proof/Machine/Vuvan.lean ====
section
/-!
DEFINITION. Execution on the Vuvan cores (spec/13, spec/14): the effect of each instruction, traps and interrupts and
their entries, the boundary between instructions, repeats and hardware loops.
-/

namespace Sys2Proof.Machine

/-! ### Effects on the registers of a core -/

/-- An F result is exposed (R435): `t` is the cycle of the instruction's issue. The sticky bits of FP_CTRL set, and the
exceptions it traps are kept with the result (R437). -/
def CoreSt.expose (k : CoreSt) (t : Nat) (pc : Word) (dest : Nat) (r : FReg × FExc) (lat : Nat) (busy : Bool) : CoreSt :=
  let trapped := Nat.land r.2 (k.fpCtrl.toNat % 8)
  { k with fpCtrl := k.fpCtrl ||| BitVec.ofNat 24 (r.2 * 8),
           exposed := k.exposed ++ [⟨dest, r.1, t + lat, trapped, pc, busy⟩] }

/-- Exceptions of an operation whose result is not exposed: sticky bits, and an FPU trap at the next boundary. -/
def CoreSt.fpExc (k : CoreSt) (pc : Word) (e : FExc) : CoreSt :=
  let trapped := Nat.land e (k.fpCtrl.toNat % 8)
  let k := { k with fpCtrl := k.fpCtrl ||| BitVec.ofNat 24 (e * 8) }
  if trapped = 0 then k else { k with fpuDue := k.fpuDue ++ [pc] }

/-- A running extreme replaced or kept, and C (R469). -/
def CoreSt.search (k : CoreSt) (gd : Nat) (isMax : Bool) (v i : Word) : CoreSt :=
  if beats isMax v (k.g.getD gd 0) then
    { k with g := vecMod (vecMod k.g gd fun _ => v) (gd + 1) fun _ => i, st := stC k.st true }
  else { k with st := stC k.st false }

/-- An ALU instruction on G registers (R467 to R470). -/
def CoreSt.aluRun (k : CoreSt) (t : Nat) (pc : Word) (op : Alu) (gd : Nat) (a b : Word) : CoreSt :=
  match op with
  | .maxx => k.search gd true a b
  | .minx => k.search gd false a b
  | .addd | .adcd | .subd | .sbcd =>
    let r := decimal (op = .subd || op = .sbcd) (op = .adcd || op = .sbcd) k.st a b
    match r.1 with
    | some d => { k with g := vecMod k.g gd fun _ => d, st := r.2 }
    | none => { k with st := r.2 }
  | .mul | .imul | .umul =>
    let r := product op k.st a b
    { k with st := r.2, exposed := k.exposed ++ [⟨4, r.1.zeroExtend 64, t + 3, 0, pc, false⟩] }
  | .cmp | .tst | .btst => { k with st := (alu op k.st a b).2 }
  | op =>
    let r := alu op k.st a b
    { k with g := vecMod k.g gd fun _ => r.1, st := r.2 }

/-- An accumulator instruction (R471). -/
def CoreSt.accRun (k : CoreSt) (op : AccOp) (w : Word) : CoreSt :=
  let ad := fld w 17 16
  let as_ := k.a.getD (fld w 15 14) 0
  let ga := fld w 13 10
  match op with
  | .aget | .agets | .agetr =>
    let r := accGet op k.st as_
    { k with g := vecMod k.g ga fun _ => r.1, st := r.2 }
  | .acmp =>
    { k with st := (accResult op k.st (accExact op (k.a.getD ad 0) as_ (k.g.getD ga 0) (k.g.getD (fld w 9 6) 0))).2 }
  | op =>
    let r := accResult op k.st (accExact op (k.a.getD ad 0) as_ (k.g.getD ga 0) (k.g.getD (fld w 9 6) 0))
    { k with a := vecMod k.a ad fun _ => r.1, st := r.2 }

/-- A floating-point instruction (R478). FDIV and FSQRT wait for the one in progress. -/
def CoreSt.fpRun (k : CoreSt) (t : Nat) (pc : Word) (op : FOp) (w : Word) : CoreSt :=
  let fa := k.f.getD (fld w 15 14) 0
  let fb := k.f.getD (fld w 13 12) 0
  match op with
  | .fcmp =>
    let r := fCompare fa fb
    ({ k with st := stC (stV (stZN k.st r.1 r.2.1) false) r.2.2.1 }).fpExc pc r.2.2.2
  | op =>
    let slow := op = .fdiv ∨ op = .fsqrt
    let k' := if slow then k.landWhere fun e => e.busy else k
    let t' := if slow then (k.exposed.filter fun e => e.busy).foldl (fun m e => max m e.due) t else t
    let k' := { k' with cyc := max k'.cyc (t' + 1) }
    -- operands are read when the instruction issues, after the wait
    let fa := if slow then k'.f.getD (fld w 15 14) 0 else fa
    let fb := if slow then k'.f.getD (fld w 13 12) 0 else fb
    k'.expose t' pc (fld w 17 16) (fResult op fa fb) op.latency (decide slow)

/-- A conversion (R479). -/
def CoreSt.fcvRun (k : CoreSt) (t : Nat) (pc : Word) (op : FConv) (w : Word) : CoreSt :=
  let f := fld w 17 16
  let a := fld w 15 14
  let g := fld w 13 10
  let fv := k.f.getD f 0
  match op with
  | .fftoi =>
    let r := fToInt fv 0 (-8388608) 8388607
    ({ k with g := vecMod k.g g fun _ => BitVec.ofInt 24 r.1 }).fpExc pc r.2
  | .fftoq =>
    let r := fToInt fv 23 (-8388608) 8388607
    ({ k with g := vecMod k.g g fun _ => BitVec.ofInt 24 r.1 }).fpExc pc r.2
  | .fftoa =>
    let r := if stSat k.st then fToInt fv 47 (-140737488355328) 140737488355327
             else fToInt fv 47 (-36028797018963968) 36028797018963967
    ({ k with a := vecMod k.a a fun _ => BitVec.ofInt 56 r.1 }).fpExc pc r.2
  | op => k.expose t pc f (fFrom op (k.g.getD g 0) (k.a.getD a 0)) 4 false

/-- The three words of an F64 image (R43). -/
def fWord (f : FReg) (i : Nat) : Word := BitVec.ofNat 24 (if i = 0 then f.toNat / 2 ^ 48 else f.toNat / 2 ^ (24 * (2 - i)))

/-- A hardware loop level begins (R439, R473): with a count of 0 the body is skipped, the instruction at LE being one or
two words. -/
def CoreSt.loopRun (k : CoreSt) (count : Nat) (le : Word) : Except Trap CoreSt :=
  let ld := stLd k.st
  if 4 ≤ ld then .error .loopNest
  else if count = 0 then
    let at_ := SMap.get 0 le.toNat k.mem
    let ext : Word := match vDecode at_ with | some op => if vHasExt op at_ then 1 else 0 | none => 0
    .ok { k with pcx := le + 1 + ext, cyc := k.cyc + 2 }
  else
    .ok { k with ls := vecMod k.ls ld fun _ => k.pcx, le := vecMod k.le ld fun _ => le,
                 lc := vecMod k.lc ld fun _ => BitVec.ofNat 24 count, st := stSetLd k.st (ld + 1) }

/-! ### The effect of an instruction -/

/-- Change a core, when its change is allowed. -/
def State.tryCore (s : State) (c : Nat) (f : CoreSt → Except Trap CoreSt) : Except Trap State :=
  match f (s.core c) with
  | .ok k => .ok (s.modCore c fun _ => k)
  | .error t => .error t

/-- WAIT (R25, R448): the core ends its work for the tick; PCX stays at the WAIT, into which RTI returns. -/
def State.waitRun (s : State) (c : Nat) (pc : Word) : State :=
  let s := if s.userMode c then s.userStop else s
  let used := s.sinceT0 - 250
  s.modCore c fun k => { k with pcx := pc, waiting := true, waited := true,
                                usedNow := if k.tickDone || k.waited then k.usedNow else used }

/-- A register of a core is written. A write of ST that brings core 3 to USER mode lets its time there count again (R30, R446). -/
def State.putReg (s : State) (c code : Nat) (w : Word) : Except Trap State := do
  let t ← s.tryCore c fun k => k.writeReg c code w
  .ok (if code = 0x42 ∧ s.userMode 3 = false ∧ t.userMode 3 = true then
         { t with cpu := { t.cpu with userSince := some s.sinceT0 } }
       else t)

/-- RTI (R442): ST, with LD, IE and U, and then PCX. Of a core that R25 has stopped, the outermost one returns into WAIT
(R448). -/
def State.rtiRun (s : State) (c : Nat) : Except Trap State := do
  let p ← s.pop c
  let q ← p.2.pop c
  let s ← q.2.putReg c 0x42 p.1
  .ok (s.modCore c fun k =>
    let k := { k with pcx := q.1 }
    match k.stopped with
    | some n => { k with stopped := some (n - 1), waiting := k.waiting || decide (n = 1) }
    | none => k)

/-- A jump, taken in 3 cycles (R481). -/
def State.jump (s : State) (c : Nat) (a : Word) : State := s.modCore c fun k => { k with pcx := a, cyc := k.cyc + 2 }

/-- A call taken: push next, then jump, in 2 cycles and the time of the stack word (R481). -/
def State.callTo (s : State) (c : Nat) (a : Word) : Except Trap State := do
  let t ← s.push c (s.core c).pcx
  .ok (t.modCore c fun k => { k with pcx := a, cyc := k.cyc + 1 })

/-- The effect of an instruction on a core whose PCX holds next: `sh` are the register values that addressing still sees
(R435), `t` the cycle of issue, `pc` the address of the instruction. A trap leaves everything as it was (R463). -/
def State.vEffect (s : State) (c : Nat) (sh : List (Nat × Word)) (t : Nat) (pc : Word) (op : VOp) (w x : Word) :
    Except Trap State :=
  let k := s.core c
  let reg := fld w 17 11
  let ea := k.ea sh w x
  let cond := condHolds (fld w 17 14) k.stRead
  match op with
  | .nop => .ok s
  | .wait => .ok (s.waitRun c pc)
  | .rts => do let p ← s.pop c; .ok (p.2.modCore c fun k => { k with pcx := p.1 })
  | .rti => s.rtiRun c
  | .ei => .ok (s.modCore c fun k => { k with st := stPut k.st 7 true })
  | .di => .ok (s.modCore c fun k => { k with st := stPut k.st 7 false })
  | .mov => s.putReg c reg (k.readReg (fld w 10 4))
  | .ld => do
    let p ← s.readWord c ea.1
    (p.2.modCore c fun k => k.modify sh ea.2).putReg c reg p.1
  | .st => do
    let s ← s.writeWord c ea.1 (k.readReg reg)
    .ok (s.modCore c fun k => k.modify sh ea.2)
  | .ldi => s.putReg c reg x
  | .ldis => s.putReg c reg ((w.extractLsb' 0 11).signExtend 24)
  | .lea => (s.modCore c fun k => k.modify sh ea.2).tryCore c fun k => k.writeReg c (0x10 + fld w 17 15) ea.1
  | .alu o imm =>
    let b := if imm then x else k.g.getD (fld w 9 6) 0
    .ok (s.modCore c fun k => k.aluRun t pc o (fld w 17 14) (k.g.getD (fld w 13 10) 0) b)
  | .acc o => .ok (s.modCore c fun k => k.accRun o w)
  | .maxm => do
    let p ← s.readWord c ea.1
    .ok (p.2.modCore c fun k => (k.modify sh ea.2).search (fld w 17 14) true p.1 ea.1)
  | .minm => do
    let p ← s.readWord c ea.1
    .ok (p.2.modCore c fun k => (k.modify sh ea.2).search (fld w 17 14) false p.1 ea.1)
  | .maxam => do
    let p ← s.readWord c ea.1
    .ok (p.2.modCore c fun k => (k.modify sh ea.2).search (fld w 17 14) true (magnitude p.1) ea.1)
  | .b => .ok (if cond then s.jump c (k.pcx + (w.extractLsb' 0 14).signExtend 24) else s)
  | .jmp => .ok (if cond then s.jump c x else s)
  | .call => if cond then s.callTo c x else .ok s
  | .jmpr => .ok (if condHolds (fld w 13 10) k.stRead then s.jump c (k.g.getD (fld w 17 14) 0) else s)
  | .callr => if condHolds (fld w 13 10) k.stRead then s.callTo c (k.g.getD (fld w 17 14) 0) else .ok s
  | .loop => s.tryCore c fun k => k.loopRun (fld w 17 6) x
  | .loopr => s.tryCore c fun k => k.loopRun (k.g.getD (fld w 17 14) 0).toNat x
  | .rep => .ok s
  | .push => s.push c (k.readReg reg)
  | .pop => do
    let p ← s.pop c
    p.2.putReg c reg p.1
  | .fp o => .ok (s.modCore c fun k => k.fpRun t pc o w)
  | .fcv o => .ok (s.modCore c fun k => k.fcvRun t pc o w)
  | .fld => do
    let p0 ← s.readWord c ea.1
    let p1 ← p0.2.readWord c (ea.1 + 1)
    let p2 ← p1.2.readWord c (ea.1 + 2)
    let v : FReg := BitVec.ofNat 64 (p0.1.toNat % 2 ^ 16 * 2 ^ 48 + p1.1.toNat * 2 ^ 24 + p2.1.toNat)
    let f := fld w 17 16
    -- a pending result of the register is written first (R484)
    .ok (p2.2.modCore c fun k =>
      let k := (k.modify sh ea.2).landWhere fun e => e.dest == f
      { k with f := vecMod k.f f fun _ => v })
  | .fst => do
    let v := k.f.getD (fld w 17 16) 0
    let s ← s.writeWord c ea.1 (fWord v 0)
    let s ← s.writeWord c (ea.1 + 1) (fWord v 1)
    let s ← s.writeWord c (ea.1 + 2) (fWord v 2)
    .ok (s.modCore c fun k => k.modify sh ea.2)

/-! ### Traps and interrupts (R436 to R447) -/

/-- The address of a vector, in the firmware table or the user table (R441, R447). -/
def vectorAt (user : Bool) (v : Nat) : Word := BitVec.ofNat 24 ((if user then 0x4000 else 0) + 2 * v)

/-- A trap taken in USER mode is counted (R447). -/
def State.userTrap (s : State) (t : Trap) : State :=
  let s := (s.flag K.userCore_UserFlags 0 K.userCore_UserTraps).set K.userCore_LastUserTrap t.code
  if t = .stack then s.flag K.userCore_UserFlags 1 K.userCore_UserStackFaults else s

/-- STACK entry (R445): no stack is written; PCX and ST are kept in TRAP_PC and TRAP_ST. -/
def State.stackTrap (s : State) (c : Nat) (pc : Word) : State :=
  let user := s.userMode c
  let s := if user then (s.userTrap .stack).userStop else s
  s.modCore c fun k =>
    { k with trapCause := BitVec.ofNat 24 Trap.stack.code, trapPc := pc, trapSt := k.stRead, sp := k.stackHigh,
             st := stPut (stSetLd (stPut k.st 7 false) 0) 12 false, pcx := vectorAt false 1, shadow := [], waiting := false,
             stopped := none }

/-- Entry to a vector other than TICK and RESET (R442): push PCX and ST, IE clear, LD 0; none when a push is refused. -/
def State.vectorEntry (s : State) (c : Nat) (pushed vector : Word) (keepU : Bool) : Option State :=
  match (do let t ← s.push c pushed; t.push c (s.core c).stRead : Except Trap State) with
  | .error _ => none
  | .ok t => some (t.modCore c fun k =>
      let st := stSetLd (stPut k.st 7 false) 0
      { k with st := if keepU then st else stPut st 12 false, pcx := vector, shadow := [], waiting := false,
               stopped := k.stopped.map (· + 1) })

/-- A trap is taken (R441, R442, R445, R447): `pc` is the instruction's address, `pushed` the PCX pushed. A refused push
leads to STACK entry (log entry 11). -/
def State.takeTrap (s : State) (c : Nat) (t : Trap) (pc pushed : Word) : State :=
  -- entry waits for the results not yet written (R436)
  let s := s.modCore c fun k => k.landWhere fun _ => true
  if t = .stack then s.stackTrap c pc
  else
    let user := s.userMode c
    let firm := !user || t == .budget
    let s1 := if user then s.userTrap t else s
    let s1 := if user && firm then s1.userStop else s1
    let s1 := s1.modCore c fun k => { k with trapCause := BitVec.ofNat 24 t.code, trapPc := pc }
    let s1 := match t with
      | .access (some a) => s1.modCore c fun k => { k with trapAddr := a }
      | _ => s1
    match s1.vectorEntry c pushed (vectorAt (!firm) 1) (!firm) with
    | some s2 => s2
    | none => s.stackTrap c pc

/-- The traps due at a boundary: an FPU trap for each result that has become valid, then BUDGET, which is taken at the
first boundary of another trap's handler (R437, R441). -/
def State.dueTraps (s : State) (c : Nat) : State :=
  let due := (s.core c).fpuDue
  let s := s.modCore c fun k => { k with fpuDue := [] }
  let s := due.foldl (fun s pc => s.takeTrap c .fpu pc (s.core c).pcx) s
  if (s.core c).budgetDue then
    let s := s.modCore c fun k => { k with budgetDue := false, budgetTaken := true, waiting := false }
    s.takeTrap c .budget (s.core c).pcx (s.core c).pcx
  else s

/-- Some trap is due at the boundary. -/
def CoreSt.trapDue (k : CoreSt) : Bool := !k.fpuDue.isEmpty || k.budgetDue

/-- The core issues instructions: it runs, is not in WAIT, halted or retired. -/
def State.coreActive (s : State) (c : Nat) : Bool :=
  decide (c < 4) && s.clocked && (s.core c).running && !(s.core c).waiting && s.get (K.coreTick_CoreState c) == 0

/-- The loop-end test (R439, R474): the instruction whose first word lies at LE of the innermost level has completed. -/
def CoreSt.loopEnd (k : CoreSt) (sh : List (Nat × Word)) (pc : Word) : CoreSt :=
  let ld := stLd k.st
  if ld = 0 ∨ 4 < ld then k
  else
    let i := ld - 1
    let old (code : Nat) : Word := (sh.lookup code).getD (k.late k.shadow code)
    if old (0x4C + i) ≠ pc then k
    else if 1 < (old (0x50 + i)).toNat then
      let stands := (sh.lookup (0x50 + i)).isSome || (k.shadow.lookup (0x50 + i)).isSome
      { k with lc := if stands then k.lc else vecMod k.lc i fun v => v - 1, pcx := old (0x48 + i) }
    else { k with st := stSetLd k.st i }

/-- The address is LE of the innermost level (R440). -/
def CoreSt.atLoopEnd (k : CoreSt) (sh : List (Nat × Word)) (pc : Word) : Bool :=
  let ld := stLd k.st
  decide (0 < ld ∧ ld ≤ 4) && k.late sh (0x4C + (ld - 1)) == pc

/-- The trap of an instruction at LE that changes flow: LOOP_NEST, unless a trap of lower cause meets it (R441, R482). -/
def nestOr (r : Except Trap State) : Trap :=
  match r with
  | .error (.access a) => .access a
  | .error t => if t.code < Trap.loopNest.code then t else .loopNest
  | .ok _ => .loopNest

/-- One execution of a checked instruction at `pc`, its next instruction at `next`; without the loop-end test. -/
def State.runOnce (s : State) (c : Nat) (op : VOp) (pc next w x : Word) : Except Trap State :=
  let k := s.core c
  let sh := k.shadow
  let t := k.cyc
  (s.modCore c fun k => { k with pcx := next, shadow := [], cyc := k.cyc + vCycles op w }).vEffect c sh t pc op w x

/-- Issue an instruction (R462, R463): the checks in their order, then its effect and the loop-end test. -/
def State.issue (s : State) (c : Nat) (w x : Word) : State :=
  let k := s.core c
  let pc := k.pcx
  let user := s.userMode c
  let trap (t : Trap) : State := s.takeTrap c t pc pc
  if !(canFetch user pc.toNat) then trap (.access (some pc))
  else match vDecode w with
  | none => trap .undef
  | some op =>
    if vResv op w then trap .resv
    else if vHasExt op w && !(canFetch user (pc + 1).toNat) then trap (.access (some (pc + 1)))
    else
      let next := if vHasExt op w then pc + 2 else pc + 1
      let r := s.runOnce c op pc next w x
      if vFlow op w && k.atLoopEnd k.shadow pc then trap (nestOr r)
      else match r with
        | .error t => trap t
        | .ok s' => s'.modCore c fun k' => k'.loopEnd k.shadow pc

/-! ### The budget of a core (R29 to R33) -/

/-- Change what the cores share. -/
def State.modCpu (s : State) (f : CoresSt → CoresSt) : State := { s with cpu := f s.cpu }

/-- A core is not RETIRED and has started. -/
def coreUp (s : State) (c : Nat) : Bool := (s.core c).running && s.get (K.coreTick_CoreState c) != 2

/-- A core does per-tick firmware work: cores 0 to 2, and core 3 in FIRMWARE mode while it runs migrated tasks (R29). -/
def firmwareWork (s : State) (c : Nat) : Bool :=
  coreUp s c && (decide (c < 3) || (s.cpu.migrated.isSome && !s.userMode 3))

/-- An overrun of a core (R29, R30): the BUDGET trap is due, OVERRUN and its counter. -/
def State.overrun (s : State) (c : Nat) : State :=
  let s := s.modCore c fun k => { k with budgetDue := true }
  (s.raise K.tickBudget_TickStatus c).bump (K.coreTick_Overruns c) 2

/-- A core is halted (R31). -/
def State.haltCore (s : State) (c : Nat) : State :=
  let s := if c = 3 then s.userStop else s
  let s := s.set (K.coreTick_CoreState c) 1
  (s.raise K.tickBudget_TickStatus (4 + c)).bump (K.coreTick_HardStops c) 2

/-- A firmware core overruns at the deadline (R29, R32). -/
def State.coreOverrun (s : State) (c : Nat) : State :=
  (s.overrun c).modCpu fun k => { k with overNow := setBit k.overNow c }

/-- The hard stop passes within a repeat of a core (R33); a repeat that began before the deadline overruns as well. -/
def State.repHalt (s : State) (c : Nat) : State :=
  let s := if s.cpu.window && firmwareWork s c && !(s.core c).tickDone then s.coreOverrun c else s
  s.haltCore c

/-! ### Repeats and boundaries -/

/-- The repetitions of a repeated instruction (R475, R477): those that ran stand; a trap leaves NREP at what is left. The
hard stop cuts the repeat with `left` repetitions not executed, which NREP then holds (R33). -/
def State.repeatRun (left : Nat) : Nat → State → Nat → VOp → Word → Word → Word → Word → State
  | 0, s, c, _, _, _, _, _ => if left = 0 then s else s.repHalt c
  | n + 1, s, c, op, pc, next, w, x =>
    let s := s.modCore c fun k => { k with nrep := BitVec.ofNat 24 (n + 1 + left) }
    let s := s.modCore c fun k => k.landWhere fun e => decide (e.due ≤ k.cyc)
    match s.runOnce c op pc next w x with
    | .error t => s.takeTrap c t pc pc
    | .ok s' =>
      let s' := s'.modCore c fun k => { k with nrep := BitVec.ofNat 24 (n + left) }
      if n = 0 ∧ left = 0 then s'.modCore c fun k => k.loopEnd (s.core c).shadow pc
      else State.repeatRun left n s' c op pc next w x

/-- Issue REP with the instruction that follows it (R475, R476, R483). `cut` is the number of repetitions that have run when
the hard stop passes within the repeat (R33). -/
def State.issueRep (s : State) (c : Nat) (w w2 x2 : Word) (cut : Option Nat) : State :=
  let k := s.core c
  let pc := k.pcx
  let user := s.userMode c
  let trap (t : Trap) : State := s.takeTrap c t pc pc
  let pc2 := pc + 1
  if !(canFetch user pc.toNat) then trap (.access (some pc))
  else if vResv .rep w then trap .resv
  else if !(canFetch user pc2.toNat) then trap (.access (some pc2))
  else match vDecode w2 with
  | none => trap .undef
  | some op =>
    if vResv op w2 then trap .resv
    else if vNoRepeat op w2 then trap .illegalRepeat
    else if k.atLoopEnd k.shadow pc then trap .loopNest
    else
      let count := if fld w 17 6 ≠ 0 then fld w 17 6 else k.nrep.toNat
      let next := if vHasExt op w2 then pc2 + 2 else pc2 + 1
      let s := s.modCore c fun k => { k with nrep := BitVec.ofNat 24 count, cyc := k.cyc + 1, shadow := [] }
      if count = 0 then s.modCore c fun k => { k with pcx := next, cyc := k.cyc + 1 }
      else if vHasExt op w2 && !(canFetch user (pc2 + 1).toNat) then
        s.takeTrap c (.access (some (pc2 + 1))) pc2 pc2
      else
        let hit := !s.cpu.hard && (s.cpu.window || s.cpu.guard) && !(s.core c).waited
        let runs := match cut with | some m => if hit then min m count else count | none => count
        State.repeatRun (count - runs) runs s c op pc2 next w2 x2

/-- The boundary before an instruction: results whose latency has passed are written; true when a trap is taken there
instead of the instruction. -/
def State.boundary (s : State) (c : Nat) : State × Bool :=
  let s := s.modCore c fun k => k.landWhere fun e => decide (e.due ≤ k.cyc)
  if (s.core c).trapDue then
    -- the results still pending are written before entry (R436)
    let s := s.modCore c fun k => k.landWhere fun _ => true
    (s.dueTraps c, true)
  else (s, false)

/-- A core issues an instruction of a kind: at an instant since the last tick edge. A core that issues none, or a word of
another instruction, is no occurrence (log entry 2). -/
def State.vuvan (s : State) (i : Issue) (want : VOp → Bool) (run : State → State) : State :=
  if s.coreActive i.core && (vDecode i.w).any want then
    let b := (s.reach (s.time.t0 + i.at_)).boundary i.core
    if b.2 then b.1 else run b.1
  else s

/-- Interrupts in the order in which they are taken, TICK and RESET apart (R441). -/
def intOrder : List Nat := [3, 7, 4, 5, 6]

/-- The interrupt a core would take at a boundary: enabled, pending, IE set; DUMP_READY on core 3 in FIRMWARE mode only. -/
def State.intTaken (s : State) (c : Nat) : Option Nat :=
  let k := s.core c
  if stBit k.st 7 then
    intOrder.find? fun v => k.intEnable.getLsbD v && k.intPending.getLsbD v && !(v == 3 && s.userMode c)
  else none

/-- An enabled pending interrupt is taken at an instruction boundary, in WAIT too (R442, R448). -/
def State.interrupt (s : State) (c : Nat) : State :=
  if decide (c < 4) && s.clocked && (s.core c).running && s.get (K.coreTick_CoreState c) == 0 then
    match s.intTaken c with
    | none => s
    | some v =>
      let s := s.modCore c fun k => k.landWhere fun _ => true
      let user := s.userMode c
      -- a trap due at the boundary comes first
      if (s.core c).trapDue then s.dueTraps c
      else match s.vectorEntry c (s.core c).pcx (vectorAt user v) true with
      | some t => t
      | none => s.stackTrap c (s.core c).pcx
  else s

/-- TICK entry (R444): a fresh start at vector 2; a core halted by the hard stop runs again. -/
def State.tickEntry (s : State) (c : Nat) : State :=
  if (s.core c).running && s.get (K.coreTick_CoreState c) != 2 then
    let s := s.modCore c fun k =>
      let k := k.landWhere fun _ => true
      { k with sp := k.stackHigh, st := 0, pcx := vectorAt false 2, intPending := k.intPending &&& 0xFFFF07,
               waiting := false, waited := false, stopped := none, shadow := [], fpuDue := [], budgetDue := false,
               budgetTaken := false, budgetAt := none, tickDone := false, usedNow := 0 }
    s.set (K.coreTick_CoreState c) 0
  else s

/-- User code is entered (R446): U and IE set, at UserEntry. -/
def State.userEnter (s : State) : State :=
  let s := s.modCore 3 fun k =>
    { k with st := stPut (stPut k.st 12 true) 7 true, pcx := BitVec.ofNat 24 s.cpu.userEntry, shadow := [] }
  { s with cpu := { s.cpu with userEntered := true, userSince := some s.sinceT0 } }

end Sys2Proof.Machine
end

