-- ==== Sys2Proof/Machine/Tick.lean ====
section
/-!
DEFINITION. The tick: everything that comes about at a tick edge, the budget of the cores and what follows from it, the
performance level, and the retirement of a core (spec/01, spec/13, spec/17; spec/95 TICK).
-/

namespace Sys2Proof.Machine

/-! ### The cores and their budget (R23 to R36, R451, R452) -/

/-- Firmware cores that are still active (W of R35). -/
def firmwareCores (s : State) : Nat := ((List.range 3).filter fun c => s.get (K.coreTick_CoreState c) != 2).length

/-- Slots within budget at a level with three firmware cores (S of R35). -/
def levelSlots (level : Nat) : Nat := 128 * (level % 4 + 1)

/-- SlotsHeldLimit (R28, R35). -/
def slotsHeldLimit (s : State) : Nat :=
  let cap := levelSlots (s.get K.performance_LevelApplied)
  let w := firmwareCores s
  if w = 3 then cap
  else
    let spare := if s.get (K.coreTick_CoreState 3) = 2 then 0 else 948 - s.get K.tickBudget_UserBudgetFloor
    min 512 (cap * (w * 948 + spare) / (3 * 948))

/-- The time granted to user code in a tick in which migrated tasks take `tasks` µs of core 3 (R34, R452). -/
def userGranted (s : State) (tasks : Nat) : Nat :=
  if s.get (K.coreTick_CoreState 3) = 2 then 0
  else min (s.get K.tickBudget_UserBudget) (948 - min tasks (948 - s.get K.tickBudget_UserBudgetFloor))

/-- Core 3 runs migrated tasks of a length, or none, in the present tick; the grant follows. -/
def State.migrateTasks (s : State) (tasks : Nat) : State :=
  let on := s.cpu.moved != 0 && firmwareCores s != 3 && s.get (K.coreTick_CoreState 3) != 2
  let s := s.modCpu fun k => { k with migrated := if on then some (min tasks (948 - s.get K.tickBudget_UserBudgetFloor)) else none }
  s.set K.tickBudget_UserBudgetGranted (userGranted s (if on then tasks else 0))

/-- A core's use of the tick that ends (R28). One that was halted before it wrote TICK_DONE or executed WAIT used a time the
spec does not state: a free value. -/
def State.coreUsage (s : State) (c : Nat) : State :=
  if coreUp s c then
    let k := s.core c
    let known := k.tickDone || k.waited
    let v := if known then k.usedNow else s.freeVal % 125001
    let s := if known then s else s.takeFree
    (s.set (K.coreTick_UsedLast c) v).set (K.coreTick_UsedPeak c) (max v (s.get (K.coreTick_UsedPeak c)))
  else s

/-- Overruns and halts of the tick that ends (R32, R558). -/
def State.tickJudge (s : State) : State :=
  let above := s.cpu.overNow
  let runs : Vector Nat 4 := .ofFn fun i => if bit above i.val then s.cpu.overruns[i] + 1 else 0
  let any := above != 0
  let reached := (List.range 4).any fun c => decide (s.get K.tickBudget_ShedThreshold ≤ runs.toList.getD c 0)
  let shed := any && (s.cpu.shedding || reached)
  let halts : Vector Nat 3 := .ofFn fun i => if s.get (K.coreTick_CoreState i.val) = 1 then s.boot.halts[i] + 1 else 0
  let s := s.modCpu fun k => { k with overruns := runs, shedding := shed, shedDue := shed }
  { s with boot := { s.boot with halts := halts } }

/-- The new tick begins for the cores: settings of user code take effect (R447), TICK is taken (R444). -/
def State.coresTick (s : State) : State :=
  let s := (List.range 4).foldl (fun s c => s.coreUsage c) s
  let s := s.tickJudge
  let s := s.modCpu fun k =>
    { k with userEntered := false, userEnable := s.getB K.userCore_UserEnable, userEntry := s.get K.userCore_UserEntry,
             userUsed := 0, userSince := none, overNow := 0, window := false, guard := false, hard := false }
  (List.range 4).foldl (fun s c => s.tickEntry c) s

/-- BUDGET_DEADLINE (R25, R29): at t0 + 950 µs. -/
def State.budgetDeadline (s : State) : State :=
  if s.clocked && s.cpu.window then
    let s := s.reach (s.time.t0 + 950 * US)
    let s := s.modCpu fun k => { k with window := false, guard := true }
    let s := (List.range 4).foldl (fun s c =>
      if !firmwareWork s c || (s.core c).waited || s.get (K.coreTick_CoreState c) != 0 then s
      else if (s.core c).tickDone then
        s.modCore c fun k => { k with waiting := true, waited := true, stopped := some 0 }
      else s.coreOverrun c) s
    s.epochSkip
  else s

/-- HARD_STOP (R31): at t0 + 990 µs. -/
def State.hardStop (s : State) : State :=
  if s.clocked && s.cpu.guard && !s.cpu.hard then
    let s := s.reach (s.time.t0 + 990 * US)
    let s := s.modCpu fun k => { k with hard := true }
    (List.range 4).foldl (fun s c =>
      if coreUp s c && s.get (K.coreTick_CoreState c) == 0 && !(s.core c).waited then s.haltCore c else s) s
  else s

/-- DUMP_READY (R23, R190): at t0 + 2 µs the dumps are in place and the budget window opens. -/
def State.dumpReady (s : State) : State :=
  if s.clocked && !s.cpu.window && !s.cpu.guard && decide (s.time.now ≤ s.time.t0 + 2 * US) then
    let s := s.reach (s.time.t0 + 2 * US)
    let s := if s.inRun then s.dumpWrite else s
    let s := s.modCpu fun k => { k with window := true }
    (List.range 4).foldl (fun s c => if coreUp s c && (decide (c < 3) || !s.userMode 3) then s.raiseInt c 3 else s) s
  else s

/-- USER_BUDGET_EXHAUSTED (R30). -/
def State.userBudget (s : State) : State :=
  if s.coreActive 3 && s.userMode 3 && (s.core 3).budgetAt.isNone
      && decide (s.get K.tickBudget_UserBudgetGranted * 125 ≤ s.userTime) then
    (s.overrun 3).modCore 3 fun k => { k with budgetAt := some (s.time.now - s.time.t0) }
  else s

/-- USER_HARD_STOP (R31): user code 10 µs after its BUDGET trap. -/
def State.userHardStop (s : State) : State :=
  match (s.core 3).budgetAt with
  | some t =>
    if coreUp s 3 && s.get (K.coreTick_CoreState 3) == 0 && s.userMode 3 && !(s.core 3).waited
        && decide (t + 10 * US ≤ s.time.now - s.time.t0) then s.haltCore 3
    else s
  | none => s

/-- SHED_STEP (R32, R550, R555): at the edge after the overruns. While the level is below its ceiling a step asks for the
next level, and LevelRequest goes no higher than the ceiling. -/
def State.shedStep (s : State) : State :=
  if s.atEdge && s.cpu.shedDue then
    let s := s.modCpu fun k => { k with shedDue := false }
    let s := (s.raise K.tickBudget_TickStatus 8).bump K.tickBudget_ShedCount 2
    let p := s.get K.tickBudget_ShedPolicy
    let r := s.get K.performance_LevelRequest
    if p = 2 then s
    else if p = 0 ∧ s.get K.performance_LevelApplied < s.get K.performance_LevelCeiling then
      s.set K.performance_LevelRequest (min (r + 1) (s.get K.performance_LevelCeiling))
    else s.slotsRelease 16 2
  else s

/-- TASK_MIGRATION (R34 to R36): at the first edge after a firmware core has retired; its tasks take `tasks` µs of core 3. -/
def State.taskMigration (s : State) (tasks : Nat) : State :=
  if s.atEdge && s.inRun && s.cpu.toMove != 0 then
    let s := s.modCpu fun k => { k with moved := Nat.lor k.moved k.toMove, toMove := 0 }
    let s := (s.raise K.tickBudget_TickStatus 9).bump K.tickBudget_MigrationCount 2
    let s := (s.set K.tickBudget_SlotsHeldLimit (slotsHeldLimit s)).slotsLimit
    s.migrateTasks tasks
  else s

/-- A core retires (R451, R452): its record; SAFE when no firmware core is left. -/
def State.coreRetire (s : State) (c : Nat) : State :=
  let s := if c = 3 then s.userStop else s
  let s := s.modCore c fun k => { k with running := false }
  let s := (s.set (K.coreTick_CoreState c) 2).set K.coreHealth_CoresActive
    (((List.range 4).filter fun d => d != c && bit (s.get K.coreHealth_CoresActive) d).map fun d => 2 ^ d).sum
  let s := (s.flag K.coreHealth_HealthFlags 0 K.coreHealth_CoreRetiredEvents).set K.coreHealth_LastRetiredCore c
  let s := (s.log 0x0601 St.ok [c]).ringsRetire c
  let s := if c < 3 then s.modCpu fun k => { k with toMove := setBit k.toMove c } else s.set K.tickBudget_UserBudgetGranted 0
  if firmwareCores s = 0 then { s with boot := { s.boot with next := some 3 } } else s

/-- SELF_CHECK (R451): the cores whose known-answer check fails are retired. -/
def State.selfCheck (s : State) (failed : List Nat) : State :=
  failed.foldl (fun s c => if decide (c < 4) && s.clocked && coreUp s c then s.coreRetire c else s) s

/-! ### The performance level (R27, R550, R551) -/

/-- The level at a tick edge: a lower one applies at once, a higher one starts a ramp, which ends at a later edge once the
voltage has come into range `ramp` µs after its start, or is given up 2 ms after it. From a cold start until firmware starts the level is BOOT_LEVEL's
(R569). -/
def State.levelTick (s : State) (ramp : Option Nat) : State :=
  if !s.power.levels then s else
  let want := min (s.get K.performance_LevelRequest) (s.get K.performance_LevelCeiling)
  let cur := s.get K.performance_LevelApplied
  let none' (s : State) : State := s.modPower fun p => { p with ramp := none }
  if want < cur then (none' s).set K.performance_LevelApplied want
  else if want = cur then none' s
  else match s.power.ramp with
    | some (l, t) =>
      let us := ramp.getD 2001
      if l ≠ want then s.modPower fun p => { p with ramp := some (want, s.elapsed) }
      else if us ≤ 2000 ∧ t + us * US ≤ s.elapsed then
        ((none' s).set K.performance_LevelApplied want).set K.performance_LastRampTime us
      else s.levelFail
    | none => s.modPower fun p => { p with ramp := some (want, s.elapsed) }

/-! ### Device state (R568) -/

/-- A change of DeviceState at its tick edge. -/
def State.deviceTick (s : State) : State :=
  match s.boot.next with
  | none => s
  | some v =>
    let s := { s with boot := { s.boot with next := none } }
    if v = s.device then s
    else
      let s := s.log 0x0802 St.ok [s.device, v]
      let s := s.set K.deviceState v
      if v = 3 then (s.flag K.deviceControl_ResetFlags 2 K.deviceControl_SafeEntries).startLog else s

/-! ### TICK -/

/-- The part of RateApplied that removes an offset: what it holds beyond the frequency correction (R85, R88). -/
def steeredRate (s : State) : Int :=
  let f := s.getI K.steering_FreqCorrection 6
  s.getI K.steering_RateApplied 6 - (if s.get K.steering_SteeringMode == 1 then (tuneTarget s f).2.1 else f)

/-- Pond time reaches the next whole millisecond: the tick number advances (R9, R90); operating seconds count (R10); the rate of the
tick that ends joins the sums of the solution (R279, R283). -/
def State.tickTime (s : State) : State :=
  let t := s.tickAhead
  let d : Int := (t - s.time.t0 : Nat)
  let sol := { s.sol with rates := s.sol.rates + s.getI K.steering_RateApplied 6 * d, steers := s.sol.steers + steeredRate s * d }
  { s with
    sol := sol
    time := { s.time.operate 32768 with now := t, t0 := t, frac := 0, tick := t / MS, ms := s.time.ms + 1 } }

/-- What the device measures of itself (R603, R618), and the thermal alert. -/
def State.tickMeasure (s : State) (i : TickIn) : State :=
  let s := s.setI K.calibration_DieTemperature 2 i.temp
  let s := s.setI K.supplyMonitor_PeakTemperature 2 (max i.temp (s.getI K.supplyMonitor_PeakTemperature 2))
  let s := s.set K.supplyMonitor_VbatVoltage (min 4000 i.vbat)
  let hot := decide (s.getI K.supplyMonitor_ThermalAlertLimit 2 < s.getI K.calibration_DieTemperature 2)
  let s := if hot && !s.power.hot then s.flag K.supplyMonitor_SupplyFlags 1 K.supplyMonitor_ThermalAlerts else s
  s.modPower fun p => { p with hot := hot }

/-- The first tick edge after the PLL has relocked from SLEEP (R541): the cores, the outputs, the ports and the timers
resume; the chains do when the tick that ended has been judged. -/
def State.wakeEnd (s : State) : State :=
  let s := s.modPower fun p => { p with waking := false }
  let s := s.outputsWake.timersWake.slotsResume
  let s := s.modReader fun r => { r with enabled := false }
  (List.range 32).foldl (fun s n => s.portTry n) s

/-- The receive chains, the slots, the reader and the antennas at the edge, `d` after the last one. -/
def State.tickRadio (s : State) (i : TickIn) (d : Nat) : State :=
  let s := (List.range 2).foldl (fun s a =>
    let b := i.bias.getD a (0, 0)
    (s.set (K.antennaInput_BiasVoltage a) (min 6000 b.1)).set (K.antennaInput_BiasCurrent a) (min 1500 b.2)) s
  let s := (List.range 4).foldl (fun s c => let r := i.chains.getD c (0, []); s.chainTick c ⟨r.1, r.2⟩) s
  let s := s.slotsTick d
  let s := s.thermalCut.readerTick.ceilingTick
  let s := (List.range 2).foldl (fun s a => s.antTick a) s
  let s := s.antSelect
  let s := if s.fwUp then (List.range 4).foldl (fun s c => s.chainPower c) s else s
  s.epochTick.storeFlush.navTick.ergTick.surveysTick

/-- Ports, network, Lake time, timers, outputs and steering at the edge. -/
def State.tickTimed (s : State) (i : TickIn) : State :=
  let s := s.utcUpdate.steerSource
  let s := s.portsTick.ptpTick.netTick.lakeTick.roleJudge.offersSend.blocksSend
  let s := s.timersTick.delayTick
  let s := s.rateSlew
  let s := if s.fwUp && s.timing == 2 then (match i.model with
    | some (y, d, w) => ((s.set K.holdover_ModelY y).set K.holdover_ModelD d).set K.holdover_ModelW w
    | none => s) else s
  if s.fwUp then s.holdTick else s

/-- The settings of the pin groups take effect (R593). -/
def State.pinsTick (s : State) : State :=
  let next (g : Nat) (p : PinSt) : PinSt :=
    let f := s.get (K.pinGroup_FilterTime g)
    let p := if f = p.filter then p else { p with filter := f, was := p.filter, since := s.elapsed }
    { p with pull := s.get (K.pinGroup_Pull g) }
  { s with out := { s.out with pins := s.out.pins.zipIdx.map fun (p : PinSt × Nat) => next p.2 p.1 } }

/-- Settings that take effect at a tick edge: AuthRequired (R406), CoreSpreadEnable (R19), the pin groups (R593). -/
def State.tickSettings (s : State) : State :=
  let s := if s.out.loaded then s.pinsTick else s
  let s := s.modProt fun p => { p with required := s.get K.protection_AuthRequired }
  s.modPower fun p => { p with spread := s.getB K.coreSpreadEnable }

/-- A tick edge in RUN. Until the P objects have loaded only the steering word slews (R569). -/
def State.tickRun (s : State) (i : TickIn) (d : Nat) : State :=
  let s := (s.siltCommit 4).reseedHand
  let n := s.silt.queue.length
  let s := s.tickMeasure i
  let s := if s.out.loaded then ((s.tickRadio i d).tickTimed i) else s.rateSlew
  let s := s.levelTick i.ramp
  let s := if s.cpu.toMove = 0 then (s.set K.tickBudget_SlotsHeldLimit (slotsHeldLimit s)).slotsLimit else s
  let s := s.timingLaunches i.launches
  let s := (s.deviceTick.tickSettings).coresTick
  (s.migrateTasks i.tasks).siltOrder n

/-- A tick edge in a burst of OASIS (R548): the cores run, the rate word follows the drift, ErrorEstimate is kept. -/
def State.tickBurst (s : State) (i : TickIn) : State :=
  let s := s.siltCommit 4
  let n := s.silt.queue.length
  let s := s.tickMeasure i
  let s := if s.fwUp then s.rateSlew.holdTick else s
  ((s.deviceTick.tickSettings).coresTick).siltOrder n

/-- TICK (R23). In SLEEP Pond time goes on alone; after a wake TICK is released once the PLL has relocked, from the reference
or from the internal oscillator. -/
def State.tick (s : State) (i : TickIn) : State :=
  if !s.time.running then s
  else if s.power.phase == .sleep then
    (if s.power.burst.isSome then s.tickTime.tickBurst i else s.tickTime)
  else if s.power.phase != .run then s
  else if s.power.waking then
    (let s := s.tickTime
     if relocked s i.relock then (s.wakeEnd.tickRun i MS).chainsWake else s)
  else
    let d := s.tickAhead - s.time.t0
    s.tickTime.tickRun i d

/-! ### Commands -/

/-- TICK (R23). -/
def execTick (i : TickIn) (s : State) : Host.Outcome State Fault Refusal := .next (s.tick i)
/-- DUMP_READY (R23). -/
def execDumpReady (s : State) : Host.Outcome State Fault Refusal := .next s.dumpReady
/-- BUDGET_DEADLINE (R29). -/
def execBudgetDeadline (s : State) : Host.Outcome State Fault Refusal := .next s.budgetDeadline
/-- HARD_STOP (R31). -/
def execHardStop (s : State) : Host.Outcome State Fault Refusal := .next s.hardStop
/-- USER_BUDGET_EXHAUSTED (R30). -/
def execUserBudgetExhausted (at_ : Nat) (s : State) : Host.Outcome State Fault Refusal :=
  .next ((s.reach (s.time.t0 + at_)).userBudget)
/-- USER_HARD_STOP (R31). -/
def execUserHardStop (at_ : Nat) (s : State) : Host.Outcome State Fault Refusal :=
  .next ((s.reach (s.time.t0 + at_)).userHardStop)
/-- SHED_STEP (R32). -/
def execShedStep (s : State) : Host.Outcome State Fault Refusal := .next s.shedStep
/-- TASK_MIGRATION (R34). -/
def execTaskMigration (tasks : Nat) (s : State) : Host.Outcome State Fault Refusal := .next (s.taskMigration tasks)
/-- SELF_CHECK (R451): the cores that fail. -/
def execSelfCheck (failed : List Nat) (at_ : Nat) (s : State) : Host.Outcome State Fault Refusal :=
  .next ((s.reach (s.time.t0 + at_)).selfCheck failed)

end Sys2Proof.Machine
end

