-- ==== Sys2Proof/Machine/Boot.lean ====
section
/-!
DEFINITION. Reset, boot and start-up: warm and cold resets and power-ups, images and their sources, the start of firmware,
supplies that leave their range and return (spec/18; spec/12 R415, R416; spec/21 R601, R602, R620).
-/

namespace Sys2Proof.Machine

/-- Change what reset and boot keep. -/
def State.modBoot (s : State) (f : BootSt → BootSt) : State := { s with boot := f s.boot }

/-! ### Images (R415, R416, R564) -/

/-- The bytes of a map from offset `at_` on, unlisted ones zero, up to its last entry. -/
def spread : Nat → SMap Nat → List Nat
  | _, [] => []
  | at_, (k, v) :: m => List.replicate (k - at_) 0 ++ v :: spread (k + 1) m

/-- The bytes staged (R565). -/
def stagedBytes (s : State) : List Nat :=
  let b := spread 0 s.boot.staged
  b ++ List.replicate (s.get K.boot_BytesReceived - b.length) 0

/-- The words of a byte string, three bytes a word, most significant first. -/
def imageWords : Nat → List Nat → List Nat
  | 0, _ => []
  | n + 1, b => field b 0 3 :: imageWords n (b.drop 3)

/-- A section of an image: DEST, CORE_MASK, content, and the offset of its content in words of the body. -/
structure Section where
  dest : Nat
  mask : Nat
  words : List Nat
  at_ : Nat
  deriving DecidableEq, Repr

/-- A section keeps the rules of its memory (R564). -/
def sectionOk (x : Section) : Bool :=
  let n := x.words.length
  decide (1 ≤ n) &&
    (if x.dest < 0x10000 then decide (x.dest + n ≤ 0x10000)
     else decide (0x100000 ≤ x.dest) && decide (x.dest + n ≤ 0x300000) && x.mask == 0)

/-- The sections of a body, from word `at_` on; none when one breaks a rule or they do not end with the body. -/
def sectionsOf : Nat → Nat → List Nat → Option (List Section)
  | _, _, [] => some []
  | 0, _, _ => none
  | n + 1, at_, dest :: w :: rest =>
    let len := w % 2 ^ 20
    let x : Section := ⟨dest, w / 2 ^ 20, rest.take len, at_ + 2⟩
    if x.words.length = len ∧ sectionOk x then (sectionsOf n (at_ + 2 + len) (rest.drop len)).map (x :: ·) else none
  | _, _, _ => none

/-- The body of an image as words. -/
def bodyWords (b : List Nat) : List Nat := let n := field b 16 4 / 3; imageWords n (b.drop 180)

/-- The sections of an image. -/
def imageSections (b : List Nat) : Option (List Section) := let w := bodyWords b; sectionsOf w.length 0 w

/-- The format of the header (R416 position 1). -/
def headerOk (b : List Nat) : Bool :=
  let len := field b 16 4
  decide (180 ≤ b.length) && field b 0 4 == 0x4B5A504D && byteAt b 4 == 1 && field b 6 2 == 0 && field b 13 3 == 0
    && decide (byteAt b 5 ≤ 3) && len % 3 == 0 && decide (len ≤ 6291276)

/-- RootKeyHash of a key index. -/
def rootHash (s : State) (i : Nat) : Nat := s.get (K.imageSecurity_RootKeyHash0 + i)

/-- Verification of an image (R416), then of its sections (R564): LastRejectReason, 0 for an image that passes. -/
def imageReject (s : State) (b : List Nat) : Nat :=
  let key := (b.drop 52).take 64
  let len := field b 16 4
  let body := (b.drop 180).take len
  if !headerOk b then 1
  else if bit (s.get K.imageSecurity_RootKeyRevoked) (byteAt b 5) then 2
  else if ofBytes (sha256 key) ≠ rootHash s (byteAt b 5) then 3
  else if !ecdsaVerify (field b 52 32) (field b 84 32) (field b 116 32) (field b 148 32) (sha256 (b.take 116)) then 4
  else if byteAt b 12 < s.get K.imageSecurity_AntiRollback then 5
  else if body.length ≠ len ∨ sha256 body ≠ (b.drop 20).take 32 then 6
  else if (imageSections b).isNone then 1
  else 0

/-- A shared-memory section would overwrite staged bytes not yet loaded (R565): the image is staged up to 0x2F_FFFF, and a
section is copied upwards. -/
def stagedClash (b : List Nat) : Bool :=
  let base := 0x300000 - (60 + (bodyWords b).length)
  ((imageSections b).getD []).any fun x => decide (0x100000 ≤ x.dest) && decide (base + 60 + x.at_ < x.dest)

/-- An image is rejected (R416): its flag, its reason, its record. -/
def State.imageRejected (s : State) (reason : Nat) (b : List Nat) : State :=
  let s := (s.flag K.protection_ProtFlags 3 K.imageSecurity_ImageRejects).set K.imageSecurity_LastRejectReason reason
  s.log 0x0405 St.integrityFail ([reason] ++ (((b.drop 8).take 4) ++ [0, 0, 0, 0]).take 4 ++ [byteAt b 12])

/-- Words put into a memory from an address on. -/
def memPut (m : SMap Word) (dest : Nat) (l : List Nat) : SMap Word :=
  (List.zip (List.range l.length) l).foldl (fun m e => SMap.set 0 (dest + e.1) (BitVec.ofNat 24 e.2) m) m

/-- The SHA-256 of a core's local-memory sections as they stand in its memory (R566). -/
def sectionsHash (s : State) (secs : List (Nat × Nat × Nat)) (c : Nat) : List Nat :=
  sha256 ((secs.filter fun x => x.1 == c).flatMap fun x =>
    (List.range x.2.2).flatMap fun i => toBytes 3 (SMap.get 0 (x.2.1 + i) (s.core c).mem).toNat)

/-- A section is loaded (R564). -/
def State.sectionLoad (s : State) (x : Section) : State :=
  if x.dest < 0x10000 then
    (List.range 4).foldl (fun s c =>
      if bit x.mask c then s.modCore c fun k => { k with mem := memPut k.mem x.dest x.words } else s) s
  else s.modCpu fun k => { k with shared := memPut k.shared x.dest x.words }

/-- A verified image is loaded from a source (R564, R566): the hashes of the local sections are recorded, and no source is
left to try. -/
def State.imageLoad (s : State) (b : List Nat) (source : Nat) : State :=
  let secs := (imageSections b).getD []
  let s := secs.foldl (fun s x => s.sectionLoad x) s
  let l := (secs.filter fun x => decide (x.dest < 0x10000)).flatMap fun x =>
    ((List.range 4).filter fun c => bit x.mask c).map fun c => (c, x.dest, x.words.length)
  let s := s.modBoot fun t => { t with image := true, sources := [], other := false,
                                       loaded := some ⟨l, (List.range 4).map fun c => sectionsHash s l c⟩ }
  let s := (s.set K.boot_BootSource source).set K.imageSecurity_RunningSecurityVersion (byteAt b 12)
  let s := (s.set K.imageSecurity_RunningImageVersion (field b 8 4)).set K.imageSecurity_RunningKeyIndex (byteAt b 5)
  if s.get K.boot_ImageState = 2 then s.set K.boot_ImageState 3 else s

/-! ### Boot sources (R562) -/

/-- The sources of a BOOT_ORDER: 0 FLASH, 1 PEER, 2 HOST. -/
def bootSources (order : Nat) : List Nat :=
  if order = 0 then [0, 2] else if order = 1 then [0, 1, 2] else if order = 2 then [2] else [1, 2]

/-- Where a link peer may write the image objects, in PEER and in SAFE, the fabric ports' links begin again: HELLO (R324, R562). -/
def State.bootHello (s : State) : State :=
  if s.boot.sources.head? = some 1 ∨ s.boot.next = some 3 then s.portsHello else s

/-- The boot begins at its first source, or with none of FLASH after UPDATE; TEST at 1 enters SAFE without booting (R561). -/
def State.bootBegin (s : State) (update : Bool) : State :=
  let straps := s.get K.boot_StrapValue
  let l := bootSources (s.get K.boot_BootOrder)
  let test := bit straps 5
  let t := s.elapsed
  let s := s.modBoot fun b =>
    { b with image := false, other := false, sourceAt := t,
             sources := (if test then [] else if update then l.filter (· ≠ 0) else l),
             next := (if test then some 3 else none) }
  (s.set K.boot_BootSource 0).bootHello

/-- The present source has failed: the next one is tried, or the device enters SAFE. -/
def State.bootNext (s : State) : State :=
  let t := s.elapsed
  (s.modBoot fun b =>
    { b with sources := b.sources.drop 1, other := false, sourceAt := t,
             next := if b.sources.length ≤ 1 ∧ s.device = 0 then some 3 else b.next }).bootHello

/-- The flash slot in use: the active one, or the other while it is tried; slot A alone where the strap says so. -/
def flashSlot (s : State) : Nat :=
  let a := if bit (s.get K.boot_StrapValue) 2 then 0 else s.get K.boot_FlashSlotActive
  if s.boot.other then 1 - a else a

/-- A flash slot has been read and verified: it is loaded, or the other slot, or the next source, is tried. -/
def State.flashVerified (s : State) (b : List Nat) : State :=
  let r := imageReject s b
  if r = 0 then
    let other := s.boot.other
    let s := s.imageLoad b (1 + flashSlot s)
    if other then s.flag K.deviceControl_ResetFlags 1 K.deviceControl_BootFallbacks else s
  else
    let s := s.imageRejected r b
    if s.boot.other || bit (s.get K.boot_StrapValue) 2 then s.bootNext
    else s.modBoot fun t => { t with other := true }

/-- A staged image has been verified (R565): RUN loads it, STORE_AND_RUN begins its flash write. -/
def State.stagedVerified (s : State) (cmd source : Nat) : State :=
  let b := stagedBytes s
  let v := imageReject s b
  let r := if v = 0 ∧ cmd = 2 ∧ stagedClash b then 1 else v
  if r ≠ 0 then
    let s := (s.imageRejected r b).modBoot fun t => { t with verify := none }
    (s.set K.boot_ImageResult St.integrityFail).set K.boot_ImageState 1
  else if cmd = 2 then
    ((s.imageLoad b source).set K.boot_ImageResult St.ok).modBoot fun t => { t with verify := none }
  else s.modBoot fun t => { t with writing := true }

/-- IMAGE_VERIFY_DONE: a staged image first; else the flash slot in use, whose bytes are `flash`. -/
def State.imageVerified (s : State) (flash : List Nat) : State :=
  if !(s.device == 0 || s.device == 3) || s.boot.writing then s
  else match s.boot.verify with
    | some v => s.stagedVerified v.1 v.2
    | none => if s.boot.sources.head? = some 0 then s.flashVerified (flash.map (· % 256)) else s

/-- FLASH_WRITE_COMPLETE (R565): the inactive slot has been written and read back. -/
def State.flashWritten (s : State) (ok : Bool) : State :=
  if !s.boot.writing then s
  else
    let s := s.modBoot fun t => { t with writing := false, verify := none }
    if ok && !bit (s.get K.boot_StrapValue) 2 then
      let s := s.set K.boot_FlashSlotActive (1 - s.get K.boot_FlashSlotActive)
      (s.set K.boot_ImageResult St.ok).modBoot fun t => { t with sources := 0 :: t.sources, other := false }
    else (s.set K.boot_ImageResult St.internalFault).set K.boot_ImageState 1

/-- BOOT_WAIT_EXPIRY (R562): PEER or HOST has not delivered within BootWait. -/
def State.bootWaitOver (s : State) : State :=
  match s.boot.sources.head? with
  | some k =>
    if k ≠ 0 ∧ s.device = 0 ∧ s.boot.next.isNone ∧ s.boot.sourceAt + s.get K.boot_BootWait * SEC ≤ s.elapsed then s.bootNext else s
  | none => s

/-! ### What every reset does (R49, R560, R586) -/

/-- The persistence of a key lets its value stand over a reset (R49). -/
def keyStands (k : Nat) : Bool := match findRow (k / 256) (k % 256) with | some r => r.keep != .v | none => false

/-- The queue of the Silt log is discarded; SEQ goes on from the records committed (R586). -/
def State.siltDiscard (s : State) : State :=
  let n := match s.silt.recs.getLast? with | some r => r.seq + 1 | none => s.silt.nextSeq - s.silt.queue.length
  { s with silt := { s.silt with queue := [], lost := 0, nextSeq := n, start := none } }

/-- The START record of a reset, with its stamps; its data are known when firmware or SAFE starts. -/
def State.startRec (s : State) : State :=
  let r : SiltRec :=
    { seq := 0, opSec := s.time.opSec, cycles := s.time.cycles, pondValid := s.timing != 0, pond := s.now96, code := 0x0801,
      tstate := s.timing, dstate := s.device, status := St.ok, data := [], check := 0 }
  { s with silt := { s.silt with start := some r } }

/-- Which resources are RETIRED: cores, slots, ports, chains. -/
def retiredNow (s : State) : List Nat × List Nat × List Nat × List Nat :=
  ((List.range 4).filter fun c => s.get (K.coreTick_CoreState c) == 2, s.slotsWhere (· == 6),
   (List.range 32).filter fun n => s.portState n == 6, (List.range 4).filter fun c => s.chainState c == 5)

/-- The self-tests of RETIRED slots, ports and chains (R570): one that passes is back in service, one that fails stays. -/
def State.selfTests (s : State) (was : List Nat × List Nat × List Nat × List Nat) (i : StartIn) : State :=
  let s := was.2.1.foldl (fun s n => if i.slots.contains n then s.set (K.slot_SlotState n) 6 else s.slotFree n 10) s
  let s := was.2.2.1.foldl (fun s n => s.set (K.port_PortState n) (if i.ports.contains n then 6 else 0)) s
  was.2.2.2.foldl (fun s c =>
    let s := s.set (K.chain_ChainState c) (if i.chains.contains c then 5 else 0)
    s.modChain c fun x => { x with powered := false, failRuns := 0, queued := 0 }) s

/-- The self-tests of the cores (R451, R570): a RETIRED one that passes is ACTIVE; an active one that fails is retired, before
firmware runs. -/
def State.coreTests (s : State) (was : List Nat) (failed : List Nat) : State :=
  let gone := was.filter fun c => failed.contains c
  let s := (List.range 4).foldl (fun s c => s.set (K.coreTick_CoreState c) (if gone.contains c then 2 else 0)) s
  let s := s.set K.coreHealth_CoresActive (((List.range 4).filter fun c => !gone.contains c).map fun c => 2 ^ c).sum
  let s := s.modCpu fun k => { k with moved := ((gone.filter (· < 3)).map fun c => 2 ^ c).sum }
  ((List.range 4).filter fun c => failed.contains c && !gone.contains c).foldl (fun s c => s.coreRetire c) s

/-- The values a reset keeps, the device in BOOTING, its cause; and what every reset does to the state that is in no object. -/
def State.resetCommon (s : State) (keeps : Nat → Bool) (kind : StartKind) (cause : Nat) : State :=
  let s := s.siltDiscard
  let s := { s with dict := SMap.keep keeps s.dict, streams := [], mspi := MspiSt.reset,
                    host := { s.host with barred := false, kept := [], sent := none } }
  let s := s.set K.deviceControl_ResetCause cause
  let t := s.elapsed
  let s := s.modBoot fun b =>
    { b with due := none, kind := kind, releasedAt := t, sourceAt := t, staged := [], verify := none, writing := false,
             next := none, halts := .replicate 3 0 }
  let s := s.changesDiscard
  s.modProt fun p => { p with pollAt := none, cardHeld := false, ceiling := false, required := s.get K.protection_AuthRequired }

/-! ### Warm reset (R560, R566, R570, R572) -/

/-- RO values that report what a warm reset keeps running: Pond time and its steering, outputs, antennas and chains, trained
ports, the reader's synthesiser, the power level, supplies, memory's image. -/
def warmKeeps (s : State) (k : Nat) : Bool :=
  let i := k / 256
  let sub := k % 256
  let of_ (lo n : Nat) (l : List Nat) : Bool := decide (lo ≤ i ∧ i < lo + n) && l.contains sub
  keyStands k || i == 0x1070 || i == 0x2000 || i == 0x2001 || (i == 0x2002 && sub != 9) || i == 0x2005
    || of_ 0x2006 1 [3] || of_ 0x2010 4 [8] || of_ 0x2020 2 [7, 8, 9] || of_ 0x2030 10 [7, 8, 9]
    || of_ 0x3000 2 [2, 3, 6] || of_ 0x3010 4 [2, 6, 9, 0x0F, 0x10] || of_ 0x3020 4 [4] || of_ 0x3030 16 [5, 6]
    || of_ 0x3040 1 [3, 4] || of_ 0x3060 1 [6] || of_ 0x7100 32 [2, 3, 9, 0x0A] || of_ 0x7180 32 [6] || of_ 0x8000 1 [3, 5]
    || of_ 0xA001 1 [3] || of_ 0xA010 1 [1, 8] || of_ 0xC070 1 [8, 9, 0x0A] || of_ 0xD000 1 [1, 2, 3]
    || timerKeepsKey s k

/-- The loaded sections stand as they were recorded (R566). -/
def imageStands (s : State) : Bool :=
  match s.boot.loaded with
  | some l => s.boot.image && (List.range 4).all fun c => sectionsHash s l.sections c == l.hashes.getD c []
  | none => false

/-- The cores restart from their reset vectors; their memories, the shared memory and the correlators' NCO sets stand (R226). -/
def CoresSt.afterWarm (k : CoresSt) : CoresSt :=
  { CoresSt.reset with
    core := .ofFn fun i => { CoreSt.reset with mem := k.core[i].mem },
    shared := k.shared, nco := k.nco, ncoNext := k.ncoNext, ncoLater := k.ncoLater }

/-- A warm reset with its cause. A re-seed not handed over is abandoned; one that was handed over is applied (R115). -/
def State.warmReset (s : State) (cause : Nat) (update : Bool) (i : StartIn) : State :=
  let s := s.timersSettle.notchesLeave.storeFlush.fieldOff
  let stands := imageStands s && !update && s.fwUp
  let was := retiredNow s
  let kept := s.slotsKeep
  let tmr := TimersSt.afterReset s
  let gone := match s.time.reseed with
    | some r => if s.time.due.any fun (d : StepDue) => d.reseed then none else some (r.changeId, r.source)
    | none => s.time.abandoned
  let s := (s.resetCommon (warmKeeps s) .warm cause).netReset.lakeReset.ptpReset.portsReset
  let s := s.solReset.navReset.ergReset.readerWarm.todCut.notchesRestart
  let time := { s.time with xs := [], reseed := none, abandoned := gone }
  let run := s.rx.run.map fun (r : CalRun) => { r with requested := false }
  let rx := { s.rx with asked := 0, askFailed := false, spec := none, run := run }
  let s := { s with slots := [], tmr := tmr, cpu := s.cpu.afterWarm, time := time, rx := rx }
  let s := s.leapReset
  let s := s.modPower fun p => { p with armed := none, hot := false }
  let s := if s.power.phase == .sleep then s.wakeStart else s
  let s := (s.slotsHold kept).selfTests was i
  let s := if stands then s else s.bootBegin update
  (s.coreTests was.1 i.cores).startRec

/-- WARM_RESET: a warm reset is due. -/
def State.warmDue (s : State) (i : StartIn) : State :=
  match s.boot.due with
  | some (.warm, cause, 0, update) =>
    if s.clocked || s.power.phase == .starting then s.warmReset cause update i else s
  | _ => s

/-! ### Cold reset and power-up (R560, R561, R569, R574) -/

/-- Pond time begins again in UNSET; elapsed time, the counts of the always-on domain and the state of the reference go on. -/
def TimeSt.afterCold (t : TimeSt) : TimeSt :=
  let o := t.operate ((t.now - t.t0) * 32768 / MS)
  { TimeSt.reset with ms := t.ms + 1, aon := t.aon, opSec := o.opSec, opAcc := o.opAcc, cycles := t.cycles, refOk := t.refOk,
                      refSince := t.refSince }

/-- Signals at the ports and references of the groups are as they are at the balls. -/
def PortsSt.afterCold (p : PortsSt) : PortsSt :=
  { PortsSt.reset with
    group := p.group, port := .ofFn fun i => { PortSt.reset with signal := p.port[i].signal, locked := p.port[i].locked } }

/-- A cold reset or power-up: the straps are sampled, everything but P and F objects, journal, log and latch starts again. -/
def State.coldReset (s : State) (kind : StartKind) (cause : Nat) (i : StartIn) : State :=
  let s := s.fieldOff
  let was := retiredNow s
  let keeps (k : Nat) : Bool := keyStands k || k == K.supplyMonitor_SupplyStatus || k == K.ioBanks
  let s := { s with time := s.time.afterCold }
  let s := (s.resetCommon keeps kind cause).netReset.lakeReset
  let s := { s with out := { OutSt.reset with polarity := s.out.polarity }, cpu := CoresSt.reset, tmr := TimersSt.reset, rx := RxSt.reset, slots := [],
                    nav := { NavSt.reset with store := s.nav.store }, erg := ErgSt.reset, sol := SolSt.reset,
                    ports := s.ports.afterCold,
                    reader := { ReaderSt.reset with spans := s.reader.spans, offAt := s.reader.offAt } }
  let s := s.modProt fun p => { p with changeId := 0, closed := [] }
  let s := s.leapReset
  let s := s.modPower fun p =>
    { p with phase := .starting, armed := none, refWas := true, oasis := none, burst := none, waking := false, ramp := none,
             levels := false, hot := false, spread := s.getB K.coreSpreadEnable, rampAon := s.time.aon }
  let straps := i.straps % 64
  let s := (s.set K.boot_StrapValue straps).set K.boot_BootOrder (straps % 4)
  let s := s.set K.performance_LevelApplied (if bit straps 4 then 1 else 3)
  let s := s.modBoot fun b => { b with loaded := none }
  let s := { s with time := { s.time with refFreq := s.get K.reference_RefFrequency, refType := s.get K.reference_RefInputType } }
  ((s.selfTests was i).bootBegin false |>.coreTests was.1 i.cores).startRec

/-- COLD_RESET: a cold reset is due. -/
def State.coldDue (s : State) (i : StartIn) : State :=
  match s.boot.due with
  | some (.cold, cause, 0, _) =>
    let p := s.power.phase
    if p == .run || p == .starting || p == .sleep then s.coldReset .cold cause i else s
  | _ => s

/-- The supplies of R601 are in range: VDD_CORE, VDD_TS, VDD_SRD, VDDA_RF and VDD_IO1. -/
def suppliesUp (n : Nat) : Bool := (List.range 5).all fun b => bit n b

/-- A power-up with its cause and what woke the device. A wake from DEEP counts its operating seconds and no power cycle
(R10, R560). -/
def State.powerUp (s : State) (cause wake : Nat) (i : StartIn) : State :=
  if !suppliesUp i.supplies then s
  else
    let deep := s.power.phase == .deep
    let slept := if deep then (s.time.aon - s.power.reachedAon) * 1000 else 0
    let s := { s with time := { s.time.operate slept with
      cycles := if deep then s.time.cycles else min (2 ^ 24 - 1) (s.time.cycles + 1) } }
    let s := { s with jtag := { TapSt.reset with trst := s.jtag.trst } }
    let s := (s.coldReset .power cause i).set K.powerControl_LastWakeCause wake
    (s.set K.supplyMonitor_SupplyStatus (i.supplies % 512)).set K.ioBanks (i.banks % 64)

/-- POWER_UP: the supplies rise into range (`wake` 0), or a source wakes the device from DEEP or OFF (R540, R542). -/
def State.powerStart (s : State) (wake : Nat) (i : StartIn) : State :=
  let fresh (s : State) : State := s.modPower fun p => { p with fails := 0 }
  match s.power.phase with
  | .held => if wake = 0 then (fresh s).powerUp 0 0 i else s
  | .off => if wake = 0 then (fresh s).powerUp 0 0 i else if wake = 1 then (fresh s).powerUp 1 1 i else s
  | .deep =>
    let due := wake != 2 || decide (s.power.reachedAon + 32768 * s.get K.powerControl_WakeAlarm ≤ s.time.aon)
    if decide (1 ≤ wake) && decide (wake ≤ 4) && wakeEnabled s false wake && due then (fresh s).powerUp 1 wake i else s
  | _ => s

/-- WAKE_RETRY (R545): 1 s after a failed wake, at most twice. -/
def State.wakeRetry (s : State) (i : StartIn) : State :=
  if s.power.phase == .off && decide (1 ≤ s.power.fails) && decide (s.power.fails < 3)
      && decide (s.power.failAon + 32768 ≤ s.time.aon) then s.powerUp 1 (s.get K.powerControl_LastWakeCause) i
  else s

/-! ### Reset sources (R558, R571) -/

/-- A reset becomes due; a cold one takes the place of a warm one. -/
def State.resetDue (s : State) (kind : StartKind) (cause : Nat) : State :=
  let keep : Bool := match s.boot.due with | some (.cold, _, _, _) => true | some _ => kind == .warm | none => false
  if keep then s else s.modBoot fun b => { b with due := some (kind, cause, 0, false) }

/-- RST_N, asserted for `ns` nanoseconds and released. In the CK_AON cycle in which a wake source acts the reset is what is
taken (R571); from DEEP both are the power-up that has begun (R540). -/
def State.rstN (s : State) (ns : Nat) (i : StartIn) : State :=
  if ns < 200 then s
  else
    let due (s : State) : State := if ns < 10000000 then s.resetDue .warm 2 else s.resetDue .cold 3
    match s.power.phase with
    | .run | .starting =>
      let one := decide (s.power.rampAon = s.time.aon) && s.get K.powerControl_LastWakeCause != 0
      if one then
        let s := s.set K.powerControl_LastWakeCause 0
        if s.power.waking then due s else s
      else due s
    | .sleep => due ((s.set K.powerControl_LastWakeCause 0).wakeStart)
    | .deep => (s.modPower fun p => { p with fails := 0 }).powerUp 1 0 i
    | _ => s

/-- WATCHDOG: a firmware core has been halted in WatchdogTicks consecutive ticks. -/
def State.watchdog (s : State) : State :=
  if s.clocked && s.boot.halts.toList.any fun n => decide (s.get K.deviceControl_WatchdogTicks ≤ n) then
    let s := s.modBoot fun b => { b with halts := .replicate 3 0 }
    (s.flag K.deviceControl_ResetFlags 0 K.deviceControl_WatchdogResets).resetDue .warm 6
  else s

/-! ### Start (R567, R569, R570) -/

/-- PLL_LOCK: Pond time is 0 at the first CK_TS cycle after it. -/
def State.pllLock (s : State) : State :=
  let up := [0, 1, 4].all fun b => bit (s.get K.supplyMonitor_SupplyStatus) b
  if s.power.phase == .starting && !s.time.running && (s.time.refOk || s.get K.reference_RefStatus != 0) && up then
    let s := { s with time := { s.time with running := true, now := 0, t0 := 0, frac := 0, tick := 0 } }
    s.modPower fun p => { p with phase := .run }
  else s

/-- P_OBJECTS_LOADED: the outputs leave their reset state, ports with signal train. -/
def State.objectsLoaded (s : State) : State :=
  if s.inRun && s.time.running && !s.out.loaded then (List.range 32).foldl (fun s n => s.portTry n) s.outputsLoad else s

/-- FIRMWARE_START: at a tick edge, with an image, after a warm reset no sooner than 3 ms from its release. Every core that is
not RETIRED takes its RESET vector (R567); with no firmware core the device enters SAFE. -/
def State.firmwareStart (s : State) : State :=
  let down := (List.range 4).all fun c => !(s.core c).running
  let ripe := s.boot.kind != .warm || decide (s.boot.releasedAt + 3 * MS ≤ s.elapsed)
  if s.atEdge && s.inRun && s.time.running && s.out.loaded && s.boot.image && !s.fwUp && s.boot.next.isNone && down && ripe then
    if firmwareCores s = 0 then s.modBoot fun b => { b with next := some 3 }
    else
      let s := (List.range 4).foldl (fun s c =>
        if s.get (K.coreTick_CoreState c) = 2 then s
        else s.modCore c fun k => { k with running := true, pcx := vectorAt false 0 }) s
      let s := s.modBoot fun b => { b with next := some (s.get K.deviceControl_StartState) }
      let s := (s.startLog.modPower fun p => { p with levels := true }).levelTick none
      let s := (List.range 4).foldl (fun s c => s.chainPower c) s
      let s := s.qualifyBegin.portsHello.messagesRestart.slotsResume
      let s := s.modReader fun r => { r with scanDue := true }
      let s := { s with out := { s.out with tod := { s.out.tod with resumeAt := s.time.now } } }
      let s := match s.time.reseedDone with | some p => s.reseedFinish p | none => s
      match s.time.abandoned with
      | some (id, src) =>
        let s := (s.log 0x0109 St.timeout (toBytes 2 id ++ [src])).set K.seeding_ReseedResult St.timeout
        { s with time := { s.time with abandoned := none } }
      | none => s
  else s

/-! ### Supplies (R594, R602, R620) -/

/-- VDD_SRD has left its range: every port goes DOWN with LOS. -/
def State.lanesDown (s : State) : State :=
  (List.range 32).foldl (fun s n =>
    let s := s.modPort n fun p => { p with signal := false, locked := false }
    if s.portState n = 0 ∨ s.portState n = 6 then s
    else (s.flag (K.port_PortFlags n) 0 (K.port_LosEvents n)).portLeave n 0) s

/-- VDDA_RF has left its range: bias off, every chain in service in FAULT with CHAIN_OFF. -/
def State.radioDown (s : State) : State :=
  let s := [0, 1].foldl (fun s a => s.modAnt a fun x => { x with switchOn := false }) s
  let t := s.elapsed
  let s := { s with rx := { s.rx with run := none } }
  (List.range 4).foldl (fun s c =>
    if 1 ≤ s.chainState c ∧ s.chainState c ≤ 4 then
      let s := (s.calUnqueue c).modChain c fun x => { x with faultAt := t }
      (s.set (K.chain_ChainState c) 4).raise (K.chain_FrontEndStatus c) 8
    else s) s

/-- What one supply does beside its status bit. -/
def State.supplyLost (s : State) (b : Nat) : State :=
  if b = 2 then s.lanesDown
  else if b = 3 then s.radioDown
  else if b = 5 then s.set K.ioBanks (Nat.lor (s.get K.ioBanks) 0x0C)
  else if b = 6 then s.set K.ioBanks (Nat.lor (s.get K.ioBanks) 0x30)
  else if b = 7 then s.readerSupply
  else s

/-- SUPPLY_DROP: the supplies of `mask` leave their range; the action of wider scope is taken. In a ramp of the level
CORE_PGOOD tells nothing of VDD_CORE. -/
def State.supplyDrop (s : State) (mask : Nat) : State :=
  let p := s.power.phase
  let st := s.get K.supplyMonitor_SupplyStatus
  let l := (List.range 9).filter fun b => bit mask b && bit st b && !(b == 0 && s.power.ramp.isSome)
  if !(p == .run || p == .sleep || p == .starting) || l.isEmpty then s
  else
    let s := s.set K.supplyMonitor_SupplyStatus (l.foldl (fun v b => clrBit v b) st)
    let counted := l.filter fun b => b != 0 && b != 1 && b != 4
    let s := if counted.isEmpty then s
      else (s.raise K.supplyMonitor_SupplyFlags 0).bumpBy K.supplyMonitor_SupplyDrops counted.length
    let s := if l.contains 4 then s.set K.ioBanks (Nat.lor (s.get K.ioBanks) 0x03) else s
    let off (s : State) : State :=
      { s with out := { s.out with undriven := true }, time := { s.time with running := false } }
    if l.contains 1 then (off s).resetDue .cold 7
    else if l.contains 0 || l.contains 4 then
      ((off s).modPower fun p => { p with phase := .held, waking := false, burst := none, oasis := none }).modBoot
        fun b => { b with due := none }
    else l.foldl (fun s b => s.supplyLost b) s

/-- SUPPLY_RETURN: supplies are back in range, the banks at their levels; bias and ports come back. -/
def State.supplyReturn (s : State) (mask banks : Nat) : State :=
  let st := s.get K.supplyMonitor_SupplyStatus
  let l := (List.range 9).filter fun b => bit mask b && !bit st b
  let s := s.set K.supplyMonitor_SupplyStatus (l.foldl (fun v b => setBit v b) st)
  let bank (s : State) (b i : Nat) : State :=
    if l.contains b then
      let v := s.get K.ioBanks
      s.set K.ioBanks (v - bits v (2 * i + 1) (2 * i) * 4 ^ i + bits banks (2 * i + 1) (2 * i) * 4 ^ i)
    else s
  let s := bank (bank (bank s 4 0) 5 1) 6 2
  let s := if l.contains 2 then (List.range 32).foldl (fun s n => s.portTry n) s else s
  if l.contains 3 then [0, 1].foldl (fun s a => s.modAnt a fun x => { x with switchOn := x.bias == 1 && !x.short }) s else s

/-! ### Commands -/

/-- WAKE_RETRY (R545). -/
def execWakeRetry (i : StartIn) (aon : Nat) (s : State) : Host.Outcome State Fault Refusal := .next ((s.reachAon aon).wakeRetry i)
/-- POWER_UP (R569). -/
def execPowerUp (wake : Nat) (i : StartIn) (aon : Nat) (s : State) : Host.Outcome State Fault Refusal :=
  .next ((s.reachAon aon).powerStart wake i)
/-- RST_N (R558). -/
def execRstN (ns : Nat) (i : StartIn) (aon : Nat) (s : State) : Host.Outcome State Fault Refusal :=
  .next ((s.reachAon aon).rstN ns i)
/-- WATCHDOG (R558). -/
def execWatchdog (s : State) : Host.Outcome State Fault Refusal := .next s.watchdog
/-- WARM_RESET (R560). -/
def execWarmReset (i : StartIn) (at_ : Nat) (s : State) : Host.Outcome State Fault Refusal :=
  .next ((s.reach (s.time.t0 + at_)).warmDue i)
/-- COLD_RESET (R560). -/
def execColdReset (i : StartIn) (s : State) : Host.Outcome State Fault Refusal := .next (s.coldDue i)
/-- SUPPLY_DROP (R602). -/
def execSupplyDrop (mask at_ : Nat) (s : State) : Host.Outcome State Fault Refusal :=
  .next ((s.reach (s.time.t0 + at_)).supplyDrop mask)
/-- FIRMWARE_START (R569). -/
def execFirmwareStart (s : State) : Host.Outcome State Fault Refusal := .next s.firmwareStart
/-- BOOT_WAIT_EXPIRY (R562). -/
def execBootWaitExpiry (s : State) : Host.Outcome State Fault Refusal := .next s.bootWaitOver
/-- IMAGE_VERIFY_DONE (R416): `flash` is what the flash slot in use holds. -/
def execImageVerifyDone (flash : List Nat) (s : State) : Host.Outcome State Fault Refusal := .next (s.imageVerified flash)
/-- SUPPLY_RETURN (R594). -/
def execSupplyReturn (mask banks : Nat) (s : State) : Host.Outcome State Fault Refusal := .next (s.supplyReturn mask banks)
/-- PLL_LOCK (R569). -/
def execPllLock (s : State) : Host.Outcome State Fault Refusal := .next s.pllLock
/-- P_OBJECTS_LOADED (R569). -/
def execPObjectsLoaded (at_ : Nat) (s : State) : Host.Outcome State Fault Refusal :=
  .next ((s.reach (s.time.t0 + at_)).objectsLoaded)
/-- FLASH_WRITE_COMPLETE (R565): the write was read back and verified. -/
def execFlashWriteComplete (ok : Bool) (s : State) : Host.Outcome State Fault Refusal := .next (s.flashWritten ok)

end Sys2Proof.Machine
end

