-- ==== Sys2Proof/Machine/Jtag.lean ====
section
/-!
DEFINITION. The test access port of IEEE 1149.1 (spec/20 R596) and the levels of the device's signal outputs to the host
(spec/02 R80; spec/20 R589).
-/

namespace Sys2Proof.Machine

/-! ### The test access port -/

/-- The state after a rising edge of TCK, by TMS. -/
def Tap.next (t : Tap) (tms : Bool) : Tap :=
  match t with
  | .reset => if tms then .reset else .idle
  | .idle => if tms then .selectDr else .idle
  | .selectDr => if tms then .selectIr else .captureDr
  | .captureDr => if tms then .exit1Dr else .shiftDr
  | .shiftDr => if tms then .exit1Dr else .shiftDr
  | .exit1Dr => if tms then .updateDr else .pauseDr
  | .pauseDr => if tms then .exit2Dr else .pauseDr
  | .exit2Dr => if tms then .updateDr else .shiftDr
  | .updateDr => if tms then .selectDr else .idle
  | .selectIr => if tms then .reset else .captureIr
  | .captureIr => if tms then .exit1Ir else .shiftIr
  | .shiftIr => if tms then .exit1Ir else .shiftIr
  | .exit1Ir => if tms then .updateIr else .pauseIr
  | .pauseIr => if tms then .exit2Ir else .pauseIr
  | .exit2Ir => if tms then .updateIr else .shiftIr
  | .updateIr => if tms then .selectDr else .idle

/-- The shift register after the rising edge that leaves a state: a capture, a shift towards TDO, or as it was. -/
def TapSt.shifted (t : TapSt) (tdi : Bool) : List Bool :=
  match t.state with
  | .captureDr => Config.tapData t.ir
  | .captureIr => Config.tapInstruction
  | .shiftDr | .shiftIr => t.shift.drop 1 ++ [tdi]
  | _ => t.shift

/-- A cycle of TCK: the rising edge moves the state and the shift register, the falling edge updates and drives TDO, which is
high impedance outside the shift states. -/
def TapSt.clock (t : TapSt) (tms tdi : Bool) : TapSt :=
  if t.trst then t
  else
    let sh := t.shifted tdi
    let st := t.state.next tms
    { t with state := st, shift := sh,
             ir := if st = .updateIr then sh else if st = .reset then [] else t.ir,
             dr := if st = .updateDr then sh else t.dr,
             tdo := if st = .shiftDr ∨ st = .shiftIr then sh.head? else none }

/-- TRST_N asserted holds the port in its reset state; released, the port runs. -/
def TapSt.trstN (t : TapSt) (asserted : Bool) : TapSt :=
  if asserted then TapSt.reset else { t with trst := false }

/-! ### Signals (R80, R589) -/

/-- IRQ_N is asserted: IrqOnReply and a reply waits to be fetched, while the dictionary engine runs (R80). -/
def irqAsserted (s : State) : Bool :=
  engineUp s && s.getB K.hostAccess_IrqOnReply && s.mspi.queue.any fun e => e.reply.isSome

/-- ALERT_N is asserted: ErrorEstimate beyond ErrorAlertLimit, the thermal limit (R618), a wake that has given up (R545). -/
def alertAsserted (s : State) : Bool :=
  s.power.gaveUp || (s.inRun && (errExceeds (s.get K.pondTime_ErrorEstimate) (s.get K.holdover_ErrorAlertLimit) || s.power.hot))

/-- CORE_EN is high but in OFF (R589, R597). -/
def coreEn (s : State) : Bool := s.power.phase != .off

/-- CORE_VSEL: the code of the level, 0 in SLEEP and DEEP (R589). -/
def coreVsel (s : State) : Nat :=
  match s.power.phase with
  | .run | .starting => (match s.power.ramp with | some r => r.1 | none => s.get K.performance_LevelApplied)
  | _ => 0

/-! ### Commands -/

/-- TRST_N (R558). -/
def execTrstN (asserted : Bool) (s : State) : Host.Outcome State Fault Refusal := .next { s with jtag := s.jtag.trstN asserted }
/-- TAP_CLOCK (R596). -/
def execTapClock (tms tdi : Bool) (s : State) : Host.Outcome State Fault Refusal := .next { s with jtag := s.jtag.clock tms tdi }

end Sys2Proof.Machine
end

