-- ==== Sys2Proof/Machine/NetCmds.lean ====
section
/-!
DEFINITION. The commands of the network and of Lake time (spec/10, spec/11): each is an event at an instant `at_` after the
last tick edge; a frame is the oldest of its kind in the inbox of the device.
-/

namespace Sys2Proof.Machine

/-- LSA (R333); `held`: the root holds this device for its address. -/
def execLsa (held : Bool) (at_ : Nat) (s : State) : Host.Outcome State Fault Refusal :=
  .next (onlyIf s.inRun s ((s.reach (s.time.t0 + at_)).lsaIn held))
/-- LSA_REFRESH (R333). -/
def execLsaRefresh (at_ : Nat) (s : State) : Host.Outcome State Fault Refusal :=
  .next (onlyIf s.inRun s ((s.reach (s.time.t0 + at_)).lsaRefresh))
/-- LSA_EXPIRY (R333). -/
def execLsaExpiry (at_ : Nat) (s : State) : Host.Outcome State Fault Refusal :=
  .next (onlyIf s.inRun s ((s.reach (s.time.t0 + at_)).lsaExpire))
/-- ROOT_ELECTION (R331); `replica`: the address table of the replica held, as UID and address. -/
def execRootElection (replica : List (Nat × Nat)) (at_ : Nat) (s : State) : Host.Outcome State Fault Refusal :=
  .next (onlyIf s.inRun s ((s.reach (s.time.t0 + at_)).rootElection replica))
/-- ROUTE_COMPUTE (R334). -/
def execRouteCompute (at_ : Nat) (s : State) : Host.Outcome State Fault Refusal :=
  .next (onlyIf s.inRun s ((s.reach (s.time.t0 + at_)).routeCompute))
/-- NETWORK_FRAME_FORWARD (R335). -/
def execNetworkFrameForward (at_ : Nat) (s : State) : Host.Outcome State Fault Refusal :=
  .next (onlyIf s.inRun s ((s.reach (s.time.t0 + at_)).netForward))
/-- JOIN (R329). -/
def execJoin (at_ : Nat) (s : State) : Host.Outcome State Fault Refusal :=
  .next (onlyIf s.inRun s ((s.reach (s.time.t0 + at_)).joinIn))
/-- JOIN_RESEND (R328). -/
def execJoinResend (at_ : Nat) (s : State) : Host.Outcome State Fault Refusal :=
  .next (onlyIf s.inRun s ((s.reach (s.time.t0 + at_)).joinAgain))
/-- GRANT (R328). -/
def execGrant (at_ : Nat) (s : State) : Host.Outcome State Fault Refusal :=
  .next (onlyIf s.inRun s ((s.reach (s.time.t0 + at_)).grantIn))
/-- TXN_REPLY (R343). -/
def execTxnReply (at_ : Nat) (s : State) : Host.Outcome State Fault Refusal :=
  .next (onlyIf s.inRun s ((s.reach (s.time.t0 + at_)).txnReply))
/-- TXN_RESEND (R343). -/
def execTxnResend (at_ : Nat) (s : State) : Host.Outcome State Fault Refusal :=
  .next (onlyIf s.inRun s ((s.reach (s.time.t0 + at_)).txnAgain))
/-- CHANNEL_BROKEN (R345) of channel `k`. -/
def execChannelBroken (k at_ : Nat) (s : State) : Host.Outcome State Fault Refusal :=
  .next (onlyIf s.inRun s ((s.reach (s.time.t0 + at_)).channelBroken k))
/-- MESSAGE (R350). -/
def execMessage (at_ : Nat) (s : State) : Host.Outcome State Fault Refusal :=
  .next (onlyIf s.inRun s ((s.reach (s.time.t0 + at_)).msgIn))
/-- MESSAGE_ACK (R350). -/
def execMessageAck (at_ : Nat) (s : State) : Host.Outcome State Fault Refusal :=
  .next (onlyIf s.inRun s ((s.reach (s.time.t0 + at_)).ackIn))
/-- MESSAGE_RESEND (R349): channel `i`, or from 64 on a keeper's copy. -/
def execMessageResend (i at_ : Nat) (s : State) : Host.Outcome State Fault Refusal :=
  .next (onlyIf s.inRun s ((s.reach (s.time.t0 + at_)).msgResend i))
/-- KEEPER_HOLD (R351), of a copy for `dest` (log entry 21). -/
def execKeeperHold (dest at_ : Nat) (s : State) : Host.Outcome State Fault Refusal :=
  .next (onlyIf s.inRun s ((s.reach (s.time.t0 + at_)).keeperHold dest))
/-- KEEPER_RELEASE (R351). -/
def execKeeperRelease (at_ : Nat) (s : State) : Host.Outcome State Fault Refusal :=
  .next (onlyIf s.inRun s ((s.reach (s.time.t0 + at_)).keeperRelease))
/-- KEEPER_TAKEOVER (R351). -/
def execKeeperTakeover (at_ : Nat) (s : State) : Host.Outcome State Fault Refusal :=
  .next (onlyIf s.inRun s ((s.reach (s.time.t0 + at_)).keeperTakeover))
/-- RECEIVE_RECORD_FREE (R345). -/
def execReceiveRecordFree (at_ : Nat) (s : State) : Host.Outcome State Fault Refusal :=
  .next (onlyIf s.inRun s ((s.reach (s.time.t0 + at_)).recordsFree))
/-- STREAM_DATA (R344). -/
def execStreamData (at_ : Nat) (s : State) : Host.Outcome State Fault Refusal :=
  .next (onlyIf s.inRun s ((s.reach (s.time.t0 + at_)).streamData))
/-- STREAM_OPEN (R344). -/
def execStreamOpen (at_ : Nat) (s : State) : Host.Outcome State Fault Refusal :=
  .next (onlyIf s.inRun s ((s.reach (s.time.t0 + at_)).streamOpen))
/-- STREAM_OPEN_ACK (R344). -/
def execStreamOpenAck (at_ : Nat) (s : State) : Host.Outcome State Fault Refusal :=
  .next (onlyIf s.inRun s ((s.reach (s.time.t0 + at_)).streamOpenAck))
/-- STREAM_ACK (R344). -/
def execStreamAck (at_ : Nat) (s : State) : Host.Outcome State Fault Refusal :=
  .next (onlyIf s.inRun s ((s.reach (s.time.t0 + at_)).streamAck))
/-- STREAM_CLOSE (R344). -/
def execStreamClose (at_ : Nat) (s : State) : Host.Outcome State Fault Refusal :=
  .next (onlyIf s.inRun s ((s.reach (s.time.t0 + at_)).streamClose))
/-- STREAM_RESET (R344). -/
def execStreamReset (at_ : Nat) (s : State) : Host.Outcome State Fault Refusal :=
  .next (onlyIf s.inRun s ((s.reach (s.time.t0 + at_)).streamReset))
/-- STREAM_RESEND (R344). -/
def execStreamResend (at_ : Nat) (s : State) : Host.Outcome State Fault Refusal :=
  .next (onlyIf s.inRun s ((s.reach (s.time.t0 + at_)).streamResend))
/-- FSCOPE_PROPOSE (R357). -/
def execFscopePropose (at_ : Nat) (s : State) : Host.Outcome State Fault Refusal :=
  .next (onlyIf s.inRun s ((s.reach (s.time.t0 + at_)).fsProposeIn))
/-- FSCOPE_PREPARE (R357). -/
def execFscopePrepare (at_ : Nat) (s : State) : Host.Outcome State Fault Refusal :=
  .next (onlyIf s.inRun s ((s.reach (s.time.t0 + at_)).fsPrepareIn))
/-- FSCOPE_READY (R357). -/
def execFscopeReady (at_ : Nat) (s : State) : Host.Outcome State Fault Refusal :=
  .next (onlyIf s.inRun s ((s.reach (s.time.t0 + at_)).fsReadyIn))
/-- FSCOPE_READY_DEADLINE (R357). -/
def execFscopeReadyDeadline (at_ : Nat) (s : State) : Host.Outcome State Fault Refusal :=
  .next (onlyIf s.inRun s ((s.reach (s.time.t0 + at_)).fsDeadline))
/-- FSCOPE_COMMIT (R357). -/
def execFscopeCommit (at_ : Nat) (s : State) : Host.Outcome State Fault Refusal :=
  .next (onlyIf s.inRun s ((s.reach (s.time.t0 + at_)).fsCommitIn))
/-- FSCOPE_ABORT (R357). -/
def execFscopeAbort (at_ : Nat) (s : State) : Host.Outcome State Fault Refusal :=
  .next (onlyIf s.inRun s ((s.reach (s.time.t0 + at_)).fsAbortIn))
/-- FSCOPE_APPLY (R357), at a tick edge. -/
def execFscopeApply (s : State) : Host.Outcome State Fault Refusal := .next (onlyIf s.inRun s (s.fsEdge))
/-- FSCOPE_FETCH (R357). -/
def execFscopeFetch (at_ : Nat) (s : State) : Host.Outcome State Fault Refusal :=
  .next (onlyIf s.inRun s ((s.reach (s.time.t0 + at_)).fsFetchIn))
/-- FSCOPE_VALUE (R357). -/
def execFscopeValue (at_ : Nat) (s : State) : Host.Outcome State Fault Refusal :=
  .next (onlyIf s.inRun s ((s.reach (s.time.t0 + at_)).fsValueIn))
/-- FSCOPE_LOST (R363). -/
def execFscopeLost (at_ : Nat) (s : State) : Host.Outcome State Fault Refusal :=
  .next (onlyIf s.inRun s ((s.reach (s.time.t0 + at_)).fsLost))
/-- LAKE_EPOCH (R367). -/
def execLakeEpoch (at_ : Nat) (s : State) : Host.Outcome State Fault Refusal :=
  .next (onlyIf s.inRun s ((s.reach (s.time.t0 + at_)).lakeEpoch))
/-- REPORT (R369). -/
def execReport (at_ : Nat) (s : State) : Host.Outcome State Fault Refusal :=
  .next (onlyIf s.inRun s ((s.reach (s.time.t0 + at_)).reportIn))
/-- ENSEMBLE_EPOCH (R375); `origin`: the member whose time a first realisation takes (log entry 24). -/
def execEnsembleEpoch (origin at_ : Nat) (s : State) : Host.Outcome State Fault Refusal :=
  .next (onlyIf s.inRun s ((s.reach (s.time.t0 + at_)).ensembleEpoch origin))
/-- ESTIMATE (R381). -/
def execEstimate (at_ : Nat) (s : State) : Host.Outcome State Fault Refusal :=
  .next (onlyIf s.inRun s ((s.reach (s.time.t0 + at_)).estimateIn))
/-- ESTIMATE_LOSS (R380). -/
def execEstimateLoss (at_ : Nat) (s : State) : Host.Outcome State Fault Refusal :=
  .next (onlyIf s.inRun s ((s.reach (s.time.t0 + at_)).estimateLoss))
/-- REPLICA (R384). -/
def execReplica (at_ : Nat) (s : State) : Host.Outcome State Fault Refusal :=
  .next (onlyIf s.inRun s ((s.reach (s.time.t0 + at_)).replicaIn))
/-- ACTING_TAKEOVER (R385). -/
def execActingTakeover (at_ : Nat) (s : State) : Host.Outcome State Fault Refusal :=
  .next (onlyIf s.inRun s ((s.reach (s.time.t0 + at_)).actingTake))
/-- CV_OBS (R373). -/
def execCvObs (at_ : Nat) (s : State) : Host.Outcome State Fault Refusal :=
  .next (onlyIf s.inRun s ((s.reach (s.time.t0 + at_)).cvIn))
/-- NEIGHBOURS (R390). -/
def execNeighbours (at_ : Nat) (s : State) : Host.Outcome State Fault Refusal :=
  .next (onlyIf s.inRun s ((s.reach (s.time.t0 + at_)).neighboursIn))
/-- SIGHTINGS (R391). -/
def execSightings (at_ : Nat) (s : State) : Host.Outcome State Fault Refusal :=
  .next (onlyIf s.inRun s ((s.reach (s.time.t0 + at_)).sightingsIn))
/-- EPHEMERIS (R246); `items`: what its messages say. -/
def execLakeEphemeris (at_ : Nat) (s : State) : Host.Outcome State Fault Refusal :=
  .next (onlyIf s.inRun s ((s.reach (s.time.t0 + at_)).ephemerisIn))
/-- SYMBOLS (R249). -/
def execSymbols (at_ : Nat) (s : State) : Host.Outcome State Fault Refusal :=
  .next (onlyIf s.inRun s ((s.reach (s.time.t0 + at_)).symbolsTake))
/-- SUBSCRIBE (R392). -/
def execSubscribe (at_ : Nat) (s : State) : Host.Outcome State Fault Refusal :=
  .next (onlyIf s.inRun s ((s.reach (s.time.t0 + at_)).subscribeIn))
/-- SUBSCRIBE_RENEW (R392). -/
def execSubscribeRenew (at_ : Nat) (s : State) : Host.Outcome State Fault Refusal :=
  .next (onlyIf s.inRun s ((s.reach (s.time.t0 + at_)).subscribeRenew))
/-- RANK (R388). -/
def execRank (at_ : Nat) (s : State) : Host.Outcome State Fault Refusal :=
  .next (onlyIf s.inRun s ((s.reach (s.time.t0 + at_)).rankIn))
/-- SUBSCRIPTION_EXPIRY (R392). -/
def execSubscriptionExpiry (at_ : Nat) (s : State) : Host.Outcome State Fault Refusal :=
  .next (onlyIf s.inRun s ((s.reach (s.time.t0 + at_)).subscriptionsExpire))
/-- SIGHTING_EXPIRY (R160). -/
def execSightingExpiry (at_ : Nat) (s : State) : Host.Outcome State Fault Refusal :=
  .next (onlyIf s.inRun s ((s.reach (s.time.t0 + at_)).sightingsExpire))
/-- DESCRIPTOR_COMPLETE (R450) of a ring. -/
def execDescriptorComplete (core ring at_ : Nat) (s : State) : Host.Outcome State Fault Refusal :=
  .next (onlyIf s.clocked s ((s.reach (s.time.t0 + at_)).descriptorComplete core ring))

end Sys2Proof.Machine
end

