-- ==== Sys2Proof/Machine/ReaderCmds.lean ====
section
/-!
DEFINITION. The events of the reader as commands: its synthesiser, field limits, received frames, card detection and delay
scans (spec/15).
-/

namespace Sys2Proof.Machine

/-- SYNTH_LOCK (R488). -/
def execSynthLock (at_ : Nat) (s : State) : Host.Outcome State Fault Refusal := .next ((s.reach (s.time.t0 + at_)).readerSettle.synthLock)
/-- SYNTH_LOCK_TIMEOUT (R488). -/
def execSynthLockTimeout (at_ : Nat) (s : State) : Host.Outcome State Fault Refusal :=
  .next ((s.reach (s.time.t0 + at_)).readerSettle.synthTimeout)
/-- SYNTH_CAL_DONE (R489). -/
def execSynthCalDone (at_ : Nat) (s : State) : Host.Outcome State Fault Refusal :=
  .next ((s.reach (s.time.t0 + at_)).synthCalDone)
/-- SYNTH_BUSY (R490). -/
def execSynthBusy (at_ : Nat) (s : State) : Host.Outcome State Fault Refusal :=
  .next (((s.reach (s.time.t0 + at_)).readerSettle).synthBusy)
/-- FIELD_TIMEOUT (R492). -/
def execFieldTimeout (at_ : Nat) (s : State) : Host.Outcome State Fault Refusal :=
  .next ((s.reach (s.time.t0 + at_)).fieldTimeout false)
/-- HARDWARE_FIELD_TIMEOUT (R412, R492). -/
def execHardwareFieldTimeout (at_ : Nat) (s : State) : Host.Outcome State Fault Refusal :=
  .next ((s.reach (s.time.t0 + at_)).fieldTimeout true)
/-- DUTY_LIMIT (R492). -/
def execDutyLimit (at_ : Nat) (s : State) : Host.Outcome State Fault Refusal := .next ((s.reach (s.time.t0 + at_)).dutyLimit)
/-- RESPONSE_TIMEOUT (R496), with what the mask monitor measured of the command frame. -/
def execResponseTimeout (bins : List (Nat × Int)) (at_ : Nat) (s : State) : Host.Outcome State Fault Refusal :=
  .next ((s.reach (s.time.t0 + at_)).responseTimeout bins)
/-- READER_FRAME_RECEIVED (R499). -/
def execReaderFrameReceived (f : RxFrame) (bins : List (Nat × Int)) (at_ : Nat) (s : State) :
    Host.Outcome State Fault Refusal :=
  .next (let s := s.reach (s.time.t0 + at_)
    if radioUp s then s.frameReceived f bins else s)
/-- SECOND_SOF (R500): the frame being decoded as it stands, the amplitude of the new SOF, and what the mask monitor measured of
the command frame. -/
def execSecondSof (f : RxFrame) (amp : Nat) (bins : List (Nat × Int)) (at_ : Nat) (s : State) :
    Host.Outcome State Fault Refusal :=
  .next (let s := s.reach (s.time.t0 + at_)
    if radioUp s then s.secondSof f amp bins else s)
/-- CARD_DETECT_BURST (R506), with the amplitude at RXIN; in SLEEP a detection is a wake source (R540). -/
def execCardDetectBurst (amp at_ : Nat) (s : State) : Host.Outcome State Fault Refusal :=
  .next (let s := s.reach (s.time.t0 + at_)
    if s.power.phase == .sleep then
      let r := s.cardBurst true amp
      if r.2 && wakeEnabled r.1 true 3 then r.1.wakeBy 3 else r.1
    else onlyIf s.inRun s (s.cardBurst false amp).1)
/-- DELAY_SCAN (R508): the tags that answered at the item read, its last frame, and the length of the field burst in µs. -/
def execDelayScan (tags : List (List Nat × Option (List Nat))) (last : JobEnd) (us at_ : Nat) (s : State) :
    Host.Outcome State Fault Refusal :=
  .next (let s := s.reach (s.time.t0 + at_)
    onlyIf s.inRun s (s.delayScan (cardPollDue s) tags last us))

end Sys2Proof.Machine
end

