-- ==== Sys2Proof/Machine/ReqCmds.lean ====
section
/-!
DEFINITION. The commands that are requests: each is one operation executed in its context, or a frame or transfer that
carries operations (spec/02, and the chapters of the objects written).
-/

namespace Sys2Proof.Machine

/-- READ (R65). -/
def execRead (c : Ctx) (index sub len : Nat) (s : State) : Host.Outcome State Fault Refusal :=
  .next (s.request c 1 index sub len [])
/-- WRITE (R44 to R53). -/
def execWrite (c : Ctx) (index sub : Nat) (b : List Nat) (s : State) : Host.Outcome State Fault Refusal :=
  .next (s.write c index sub b)
/-- STREAM_READ (R63). -/
def execStreamRead (c : Ctx) (index sub len : Nat) (s : State) : Host.Outcome State Fault Refusal :=
  .next (s.request c 3 index sub len [])
/-- SNAPSHOT (R59). SUB is 0. -/
def execSnapshot (c : Ctx) (index len : Nat) (s : State) : Host.Outcome State Fault Refusal :=
  .next (s.request c 5 index 0 len [])
/-- WRITE_RECORD (R60). -/
def execWriteRecord (c : Ctx) (index : Nat) (b : List Nat) (s : State) : Host.Outcome State Fault Refusal :=
  .next (s.request c 6 index 0 b.length b)
/-- DESCRIBE (R66). -/
def execDescribe (c : Ctx) (index sub len : Nat) (s : State) : Host.Outcome State Fault Refusal :=
  .next (s.request c 7 index sub len [])
/-- STATUS (R68): a transfer of `n` bytes, which reads zero bytes where the device serves no request (R543). -/
def execStatus (n at_ : Nat) (s : State) : Host.Outcome State Fault Refusal :=
  .next (if engineUp s then (s.reach (s.time.t0 + at_)).statusSent n else s.modMspi fun m => { m with sent := List.replicate n 0 })
/-- FETCH (R71): a transfer of `n` bytes. -/
def execFetch (n at_ : Nat) (s : State) : Host.Outcome State Fault Refusal := .next ((s.reach (s.time.t0 + at_)).mspiFetch n)
/-- MSPI_TRANSFER (R69): the bytes the host clocks in, the framing byte first. -/
def execMspiTransfer (b : List Nat) (at_ : Nat) (s : State) : Host.Outcome State Fault Refusal :=
  .next ((s.reach (s.time.t0 + at_)).mspiTransfer b)
/-- HOST_REQUEST (R77): an Ethernet frame without its FCS, whose outcome is `fcs`. -/
def execHostRequest (f : List Nat) (fcs : Bool) (at_ aon : Nat) (s : State) : Host.Outcome State Fault Refusal :=
  .next ((s.instant at_ aon).hostRequest f fcs at_ aon)
/-- TXN_REQUEST (R343): the oldest request frame that has arrived. -/
def execTxnRequest (at_ aon : Nat) (s : State) : Host.Outcome State Fault Refusal :=
  .next ((s.instant at_ aon).txnRequest at_ aon)
/-- DAU_DONE (R449). -/
def execDauDone (core at_ aon : Nat) (s : State) : Host.Outcome State Fault Refusal :=
  .next ((s.instant at_ aon).dauRun core at_ aon)
/-- KEEPER_HELD (R347). -/
def execKeeperHeld (at_ : Nat) (s : State) : Host.Outcome State Fault Refusal :=
  .next ((s.reach (s.time.t0 + at_)).submitEvent State.keeperHeld)
/-- KEEPER_HELD_TIMEOUT (R347). -/
def execKeeperHeldTimeout (at_ : Nat) (s : State) : Host.Outcome State Fault Refusal :=
  .next ((s.reach (s.time.t0 + at_)).submitEvent State.keeperTimeout)
/-- MESSAGE_DELIVERY (R352, R353). -/
def execMessageDelivery (at_ aon : Nat) (s : State) : Host.Outcome State Fault Refusal := .next (s.messageDelivery at_ aon)
/-- REMOTE_REQUEST (R343): the 1,026 bytes of RemoteRequest. -/
def execRemoteRequest (c : Ctx) (b : List Nat) (s : State) : Host.Outcome State Fault Refusal := .next (s.write c 0x7050 1 b)
/-- MESSAGE_SUBMIT (R347): the 1,064 bytes of MessageSubmit. -/
def execMessageSubmit (c : Ctx) (b : List Nat) (s : State) : Host.Outcome State Fault Refusal := .next (s.write c 0x7030 1 b)
/-- LAUNCH_SUBMIT (R320): the 1,000 bytes of LaunchSubmit. -/
def execLaunchSubmit (c : Ctx) (b : List Nat) (s : State) : Host.Outcome State Fault Refusal := .next (s.write c 0x7060 1 b)
/-- HOST_LEAP (R288): the bytes of HostLeap. -/
def execHostLeap (c : Ctx) (b : List Nat) (s : State) : Host.Outcome State Fault Refusal := .next (s.write c 0x5030 7 b)
/-- PONDSEED (R91): the TIME96 image. -/
def execPondseed (c : Ctx) (v : Nat) (s : State) : Host.Outcome State Fault Refusal :=
  .next (s.writeKey c K.seeding_PondSeed 12 v)
/-- PROPOSE (R408): the 1,040 bytes of Propose. -/
def execPropose (c : Ctx) (b : List Nat) (s : State) : Host.Outcome State Fault Refusal := .next (s.write c 0xC040 1 b)
/-- CONFIRM (R409): CHANGE_ID and DIGEST. -/
def execConfirm (c : Ctx) (b : List Nat) (s : State) : Host.Outcome State Fault Refusal := .next (s.write c 0xC040 2 b)
/-- CANCEL (R410): CHANGE_ID. -/
def execCancel (c : Ctx) (id : Nat) (s : State) : Host.Outcome State Fault Refusal :=
  .next (s.writeKey c K.twoParty_Cancel 2 id)
/-- IMAGE_WRITE (R565): the 1,030 bytes of ImageWrite. -/
def execImageWrite (c : Ctx) (b : List Nat) (s : State) : Host.Outcome State Fault Refusal := .next (s.write c 0xD000 5 b)
/-- BEGIN (R565). -/
def execBegin (c : Ctx) (s : State) : Host.Outcome State Fault Refusal := .next (s.writeKey c K.boot_ImageCommand 1 1)
/-- RUN (R565). -/
def execRun (c : Ctx) (s : State) : Host.Outcome State Fault Refusal := .next (s.writeKey c K.boot_ImageCommand 1 2)
/-- STORE_AND_RUN (R565). -/
def execStoreAndRun (c : Ctx) (s : State) : Host.Outcome State Fault Refusal := .next (s.writeKey c K.boot_ImageCommand 1 3)
/-- CHANNEL_OPEN (R345) of a channel. -/
def execChannelOpen (c : Ctx) (k : Nat) (s : State) : Host.Outcome State Fault Refusal :=
  .next (s.writeKey c (K.outChannel_ChannelCommand k) 1 1)
/-- CHANNEL_CLOSE (R345) of a channel. -/
def execChannelClose (c : Ctx) (k : Nat) (s : State) : Host.Outcome State Fault Refusal :=
  .next (s.writeKey c (K.outChannel_ChannelCommand k) 1 2)
/-- FABRIC_SCOPE_WRITE (R357): a write to an index of the fabric-scope range. -/
def execFabricScopeWrite (c : Ctx) (index sub : Nat) (b : List Nat) (s : State) : Host.Outcome State Fault Refusal :=
  .next (if 0xE000 ≤ index then s.write c index sub b else s)
/-- RETRAIN (R314) of a port. -/
def execRetrain (c : Ctx) (n : Nat) (s : State) : Host.Outcome State Fault Refusal :=
  .next (s.writeKey c (K.port_PortCommand n) 1 1)
/-- RELEASE (R220) of a slot. -/
def execRelease (c : Ctx) (n : Nat) (s : State) : Host.Outcome State Fault Refusal :=
  .next (s.writeKey c (K.slot_SlotCommand n) 1 1)
/-- CAL_REQUEST (R136). -/
def execCalRequest (c : Ctx) (v : Nat) (s : State) : Host.Outcome State Fault Refusal :=
  .next (s.writeKey c K.calibration_CalRequest 2 v)
/-- FIELD_ON (R501): the 267 bytes of ReaderCommand after OP. -/
def execFieldOn (c : Ctx) (b : List Nat) (s : State) : Host.Outcome State Fault Refusal := .next (s.write c 0x8001 0 (1 :: b))
/-- FIELD_OFF (R501): the 267 bytes of ReaderCommand after OP. -/
def execFieldOff (c : Ctx) (b : List Nat) (s : State) : Host.Outcome State Fault Refusal := .next (s.write c 0x8001 0 (2 :: b))
/-- TRANSCEIVE (R501): the 267 bytes of ReaderCommand after OP. -/
def execTransceive (c : Ctx) (b : List Nat) (s : State) : Host.Outcome State Fault Refusal :=
  .next (s.write c 0x8001 0 (3 :: b))
/-- INVENTORY (R501): the 267 bytes of ReaderCommand after OP. -/
def execInventory (c : Ctx) (b : List Nat) (s : State) : Host.Outcome State Fault Refusal := .next (s.write c 0x8001 0 (4 :: b))
/-- CALIBRATE (R503). -/
def execCalibrate (c : Ctx) (s : State) : Host.Outcome State Fault Refusal := .next (s.writeKey c K.reader_SynthCalibrate 1 1)
/-- SCAN_COMMAND (R508). -/
def execScanCommand (c : Ctx) (v : Nat) (s : State) : Host.Outcome State Fault Refusal :=
  .next (s.writeKey c K.delayScan_ScanCommand 1 v)
/-- START of a cadence timer (R519, R520). -/
def execStart (c : Ctx) (n : Nat) (s : State) : Host.Outcome State Fault Refusal :=
  .next (s.writeKey c (K.cadenceTimer_TimerCommand n) 1 1)
/-- START_LATE_OK of a cadence timer (R519, R520). -/
def execStartLateOk (c : Ctx) (n : Nat) (s : State) : Host.Outcome State Fault Refusal :=
  .next (s.writeKey c (K.cadenceTimer_TimerCommand n) 1 2)
/-- STOP of a cadence timer (R519, R520). -/
def execStop (c : Ctx) (n : Nat) (s : State) : Host.Outcome State Fault Refusal :=
  .next (s.writeKey c (K.cadenceTimer_TimerCommand n) 1 3)
/-- GROUP_START (R523). -/
def execGroupStart (c : Ctx) (mask : Nat) (s : State) : Host.Outcome State Fault Refusal :=
  .next (s.writeKey c K.timerGlobal_GroupStart 2 mask)
/-- CAPTURE_READ (R526) of an input. -/
def execCaptureRead (c : Ctx) (i : Nat) (s : State) : Host.Outcome State Fault Refusal :=
  .next (s.request c 1 (0x9030 + i) 2 0 [])
/-- SILT_RECORD_READ (R583) of a cursor. -/
def execSiltRecordRead (c : Ctx) (r : Nat) (s : State) : Host.Outcome State Fault Refusal :=
  .next (s.request c 1 (0xB010 + r) 2 0 [])
/-- A write of NONE to PowerMode (R536). -/
def execPowerModeNone (c : Ctx) (s : State) : Host.Outcome State Fault Refusal :=
  .next (s.writeKey c K.powerControl_PowerMode 1 0)
/-- A write of SLEEP to PowerMode (R536). -/
def execPowerModeSleep (c : Ctx) (s : State) : Host.Outcome State Fault Refusal :=
  .next (s.writeKey c K.powerControl_PowerMode 1 1)
/-- A write of DEEP to PowerMode (R536). -/
def execPowerModeDeep (c : Ctx) (s : State) : Host.Outcome State Fault Refusal :=
  .next (s.writeKey c K.powerControl_PowerMode 1 2)
/-- A write of OFF to PowerMode (R536). -/
def execPowerModeOff (c : Ctx) (s : State) : Host.Outcome State Fault Refusal :=
  .next (s.writeKey c K.powerControl_PowerMode 1 3)
/-- A write of OASIS to PowerMode (R536). -/
def execPowerModeOasis (c : Ctx) (s : State) : Host.Outcome State Fault Refusal :=
  .next (s.writeKey c K.powerControl_PowerMode 1 4)
/-- ResetCommand WARM (R559). -/
def execWarm (c : Ctx) (s : State) : Host.Outcome State Fault Refusal := .next (s.writeKey c K.deviceControl_ResetCommand 1 1)
/-- ResetCommand COLD (R559). -/
def execCold (c : Ctx) (s : State) : Host.Outcome State Fault Refusal := .next (s.writeKey c K.deviceControl_ResetCommand 1 2)
/-- ResetCommand UPDATE (R559). -/
def execUpdate (c : Ctx) (s : State) : Host.Outcome State Fault Refusal := .next (s.writeKey c K.deviceControl_ResetCommand 1 3)
/-- StateCommand COMMISSION (R568). -/
def execCommission (c : Ctx) (s : State) : Host.Outcome State Fault Refusal :=
  .next (s.writeKey c K.deviceControl_StateCommand 1 1)
/-- StateCommand OPERATE (R568). -/
def execOperate (c : Ctx) (s : State) : Host.Outcome State Fault Refusal :=
  .next (s.writeKey c K.deviceControl_StateCommand 1 2)
/-- TWO_PARTY_EXPIRED (R410): at a count of CK_AON. -/
def execTwoPartyExpired (aon : Nat) (s : State) : Host.Outcome State Fault Refusal := .next ((s.reachAon aon).changesExpire)
/-- CARD_POLL (R411). -/
def execCardPoll (present : Bool) (select answer challenge : List Nat) (last : JobEnd) (us at_ : Nat) (s : State) : Host.Outcome State Fault Refusal :=
  .next (((s.reach (s.time.t0 + at_)).settle).cardPoll present select answer challenge last us)

end Sys2Proof.Machine
end

