-- ==== Sys2Proof/Machine/VuvanCmds.lean ====
section
/-!
DEFINITION. The meaning of each Vuvan instruction command: a core issues the word, which must be that instruction.
The effects are those of Machine/Vuvan.lean, Machine/Flags.lean and Machine/Float.lean.
-/

namespace Sys2Proof.Machine

/-- An ALU instruction, with either form of b. -/
def VOp.isAlu (a : Alu) : VOp → Bool
  | .alu o _ => o == a
  | _ => false
/-- An accumulator instruction. -/
def VOp.isAcc (a : AccOp) : VOp → Bool
  | .acc o => o == a
  | _ => false
/-- A floating-point instruction. -/
def VOp.isFp (a : FOp) : VOp → Bool
  | .fp o => o == a
  | _ => false
/-- A conversion. -/
def VOp.isFcv (a : FConv) : VOp → Bool
  | .fcv o => o == a
  | _ => false

/-- Issue of an instruction of a kind. -/
abbrev Outcome := Host.Outcome State Fault Refusal

/-- NOP (R472): No operation. -/
def execNop (i : Issue) (s : State) : Outcome :=
  .next (s.vuvan i (· == .nop) fun s => s.issue i.core i.w i.x)

/-- WAIT (R448): The core ends its work for the tick, or arms a power entry, and waits for TICK. -/
def execWait (i : Issue) (s : State) : Outcome :=
  .next (s.vuvan i (· == .wait) fun s => s.issue i.core i.w i.x)

/-- RTS (R472): Pops PCX from the stack. -/
def execRts (i : Issue) (s : State) : Outcome :=
  .next (s.vuvan i (· == .rts) fun s => s.issue i.core i.w i.x)

/-- RTI (R442): Pops ST and then PCX to return from an interrupt or trap. -/
def execRti (i : Issue) (s : State) : Outcome :=
  .next (s.vuvan i (· == .rti) fun s => s.issue i.core i.w i.x)

/-- EI (R472): Sets IE. -/
def execEi (i : Issue) (s : State) : Outcome :=
  .next (s.vuvan i (· == .ei) fun s => s.issue i.core i.w i.x)

/-- DI (R472): Clears IE. -/
def execDi (i : Issue) (s : State) : Outcome :=
  .next (s.vuvan i (· == .di) fun s => s.issue i.core i.w i.x)

/-- MOV (R465): Copies one register to another under R459. -/
def execMov (i : Issue) (s : State) : Outcome :=
  .next (s.vuvan i (· == .mov) fun s => s.issue i.core i.w i.x)

/-- LD (R465): Loads a register from memory. -/
def execLd (i : Issue) (s : State) : Outcome :=
  .next (s.vuvan i (· == .ld) fun s => s.issue i.core i.w i.x)

/-- ST (R465): Stores a register to memory. -/
def execSt (i : Issue) (s : State) : Outcome :=
  .next (s.vuvan i (· == .st) fun s => s.issue i.core i.w i.x)

/-- LDI (R465): Loads a register with the extension word. -/
def execLdi (i : Issue) (s : State) : Outcome :=
  .next (s.vuvan i (· == .ldi) fun s => s.issue i.core i.w i.x)

/-- LDIS (R465): Loads a register with a sign-extended 11-bit immediate. -/
def execLdis (i : Issue) (s : State) : Outcome :=
  .next (s.vuvan i (· == .ldis) fun s => s.issue i.core i.w i.x)

/-- LEA (R465): Writes the effective address to an address register without memory access. -/
def execLea (i : Issue) (s : State) : Outcome :=
  .next (s.vuvan i (· == .lea) fun s => s.issue i.core i.w i.x)

/-- MAXM (R469): Searches memory for a running maximum and its address. -/
def execMaxm (i : Issue) (s : State) : Outcome :=
  .next (s.vuvan i (· == .maxm) fun s => s.issue i.core i.w i.x)

/-- MINM (R469): Searches memory for a running minimum and its address. -/
def execMinm (i : Issue) (s : State) : Outcome :=
  .next (s.vuvan i (· == .minm) fun s => s.issue i.core i.w i.x)

/-- MAXAM (R469): Searches memory for a running maximum magnitude and its address. -/
def execMaxam (i : Issue) (s : State) : Outcome :=
  .next (s.vuvan i (· == .maxam) fun s => s.issue i.core i.w i.x)

/-- B (R472): Conditional relative branch. -/
def execB (i : Issue) (s : State) : Outcome :=
  .next (s.vuvan i (· == .b) fun s => s.issue i.core i.w i.x)

/-- JMP (R472): Conditional jump to the extension word. -/
def execJmp (i : Issue) (s : State) : Outcome :=
  .next (s.vuvan i (· == .jmp) fun s => s.issue i.core i.w i.x)

/-- CALL (R472): Conditional call to the extension word. -/
def execCall (i : Issue) (s : State) : Outcome :=
  .next (s.vuvan i (· == .call) fun s => s.issue i.core i.w i.x)

/-- JMPR (R472): Conditional jump to a G register. -/
def execJmpr (i : Issue) (s : State) : Outcome :=
  .next (s.vuvan i (· == .jmpr) fun s => s.issue i.core i.w i.x)

/-- CALLR (R472): Conditional call to a G register. -/
def execCallr (i : Issue) (s : State) : Outcome :=
  .next (s.vuvan i (· == .callr) fun s => s.issue i.core i.w i.x)

/-- LOOP (R473): Opens a hardware loop level with an immediate count. -/
def execLoop (i : Issue) (s : State) : Outcome :=
  .next (s.vuvan i (· == .loop) fun s => s.issue i.core i.w i.x)

/-- LOOPR (R473): Opens a hardware loop level with a count from a G register. -/
def execLoopr (i : Issue) (s : State) : Outcome :=
  .next (s.vuvan i (· == .loopr) fun s => s.issue i.core i.w i.x)

/-- PUSH (R465): Pushes a register onto the stack. -/
def execPush (i : Issue) (s : State) : Outcome :=
  .next (s.vuvan i (· == .push) fun s => s.issue i.core i.w i.x)

/-- POP (R465): Pops a register from the stack. -/
def execPop (i : Issue) (s : State) : Outcome :=
  .next (s.vuvan i (· == .pop) fun s => s.issue i.core i.w i.x)

/-- FLD (R480): Loads an F register from three words. -/
def execFld (i : Issue) (s : State) : Outcome :=
  .next (s.vuvan i (· == .fld) fun s => s.issue i.core i.w i.x)

/-- FST (R480): Stores an F register to three words. -/
def execFst (i : Issue) (s : State) : Outcome :=
  .next (s.vuvan i (· == .fst) fun s => s.issue i.core i.w i.x)

/-- ADD (R467): Adds two G operands, register or immediate b. -/
def execAdd (i : Issue) (s : State) : Outcome :=
  .next (s.vuvan i (VOp.isAlu .add) fun s => s.issue i.core i.w i.x)

/-- ADC (R467): Adds with carry. -/
def execAdc (i : Issue) (s : State) : Outcome :=
  .next (s.vuvan i (VOp.isAlu .adc) fun s => s.issue i.core i.w i.x)

/-- SUB (R467): Subtracts. -/
def execSub (i : Issue) (s : State) : Outcome :=
  .next (s.vuvan i (VOp.isAlu .sub) fun s => s.issue i.core i.w i.x)

/-- SBC (R467): Subtracts with borrow. -/
def execSbc (i : Issue) (s : State) : Outcome :=
  .next (s.vuvan i (VOp.isAlu .sbc) fun s => s.issue i.core i.w i.x)

/-- CMP (R467): Sets flags of a - b without writing. -/
def execCmp (i : Issue) (s : State) : Outcome :=
  .next (s.vuvan i (VOp.isAlu .cmp) fun s => s.issue i.core i.w i.x)

/-- NEG (R467): Negates a. -/
def execNeg (i : Issue) (s : State) : Outcome :=
  .next (s.vuvan i (VOp.isAlu .neg) fun s => s.issue i.core i.w i.x)

/-- ABS (R467): Takes the absolute value of a. -/
def execAbs (i : Issue) (s : State) : Outcome :=
  .next (s.vuvan i (VOp.isAlu .abs) fun s => s.issue i.core i.w i.x)

/-- AND (R467): Bitwise AND. -/
def execAnd (i : Issue) (s : State) : Outcome :=
  .next (s.vuvan i (VOp.isAlu .and) fun s => s.issue i.core i.w i.x)

/-- OR (R467): Bitwise OR. -/
def execOr (i : Issue) (s : State) : Outcome :=
  .next (s.vuvan i (VOp.isAlu .or) fun s => s.issue i.core i.w i.x)

/-- XOR (R467): Bitwise exclusive OR. -/
def execXor (i : Issue) (s : State) : Outcome :=
  .next (s.vuvan i (VOp.isAlu .xor) fun s => s.issue i.core i.w i.x)

/-- ANDN (R467): a AND NOT b. -/
def execAndn (i : Issue) (s : State) : Outcome :=
  .next (s.vuvan i (VOp.isAlu .andn) fun s => s.issue i.core i.w i.x)

/-- NOT (R467): Bitwise inversion of a. -/
def execNot (i : Issue) (s : State) : Outcome :=
  .next (s.vuvan i (VOp.isAlu .not) fun s => s.issue i.core i.w i.x)

/-- TST (R467): Sets flags of a AND b without writing. -/
def execTst (i : Issue) (s : State) : Outcome :=
  .next (s.vuvan i (VOp.isAlu .tst) fun s => s.issue i.core i.w i.x)

/-- ASL (R467): Arithmetic shift left. -/
def execAsl (i : Issue) (s : State) : Outcome :=
  .next (s.vuvan i (VOp.isAlu .asl) fun s => s.issue i.core i.w i.x)

/-- ASR (R467): Arithmetic shift right. -/
def execAsr (i : Issue) (s : State) : Outcome :=
  .next (s.vuvan i (VOp.isAlu .asr) fun s => s.issue i.core i.w i.x)

/-- LSL (R467): Logical shift left. -/
def execLsl (i : Issue) (s : State) : Outcome :=
  .next (s.vuvan i (VOp.isAlu .lsl) fun s => s.issue i.core i.w i.x)

/-- LSR (R467): Logical shift right. -/
def execLsr (i : Issue) (s : State) : Outcome :=
  .next (s.vuvan i (VOp.isAlu .lsr) fun s => s.issue i.core i.w i.x)

/-- BTST (R467): Tests bit k of a into Z. -/
def execBtst (i : Issue) (s : State) : Outcome :=
  .next (s.vuvan i (VOp.isAlu .btst) fun s => s.issue i.core i.w i.x)

/-- BSET (R467): Sets bit k. -/
def execBset (i : Issue) (s : State) : Outcome :=
  .next (s.vuvan i (VOp.isAlu .bset) fun s => s.issue i.core i.w i.x)

/-- BCLR (R467): Clears bit k. -/
def execBclr (i : Issue) (s : State) : Outcome :=
  .next (s.vuvan i (VOp.isAlu .bclr) fun s => s.issue i.core i.w i.x)

/-- BTGL (R467): Inverts bit k. -/
def execBtgl (i : Issue) (s : State) : Outcome :=
  .next (s.vuvan i (VOp.isAlu .btgl) fun s => s.issue i.core i.w i.x)

/-- NORM (R467): Counts redundant sign bits of a. -/
def execNorm (i : Issue) (s : State) : Outcome :=
  .next (s.vuvan i (VOp.isAlu .norm) fun s => s.issue i.core i.w i.x)

/-- MIN (R467): Signed minimum. -/
def execMin (i : Issue) (s : State) : Outcome :=
  .next (s.vuvan i (VOp.isAlu .min) fun s => s.issue i.core i.w i.x)

/-- MAX (R467): Signed maximum. -/
def execMax (i : Issue) (s : State) : Outcome :=
  .next (s.vuvan i (VOp.isAlu .max) fun s => s.issue i.core i.w i.x)

/-- MAXX (R469): Keeps a running maximum and its index. -/
def execMaxx (i : Issue) (s : State) : Outcome :=
  .next (s.vuvan i (VOp.isAlu .maxx) fun s => s.issue i.core i.w i.x)

/-- MINX (R469): Keeps a running minimum and its index. -/
def execMinx (i : Issue) (s : State) : Outcome :=
  .next (s.vuvan i (VOp.isAlu .minx) fun s => s.issue i.core i.w i.x)

/-- ADDD (R468): Packed-decimal add. -/
def execAddd (i : Issue) (s : State) : Outcome :=
  .next (s.vuvan i (VOp.isAlu .addd) fun s => s.issue i.core i.w i.x)

/-- ADCD (R468): Packed-decimal add with decimal carry. -/
def execAdcd (i : Issue) (s : State) : Outcome :=
  .next (s.vuvan i (VOp.isAlu .adcd) fun s => s.issue i.core i.w i.x)

/-- SUBD (R468): Packed-decimal subtract. -/
def execSubd (i : Issue) (s : State) : Outcome :=
  .next (s.vuvan i (VOp.isAlu .subd) fun s => s.issue i.core i.w i.x)

/-- SBCD (R468): Packed-decimal subtract with decimal carry. -/
def execSbcd (i : Issue) (s : State) : Outcome :=
  .next (s.vuvan i (VOp.isAlu .sbcd) fun s => s.issue i.core i.w i.x)

/-- MUL (R470): Fractional product to PH and PL. -/
def execMul (i : Issue) (s : State) : Outcome :=
  .next (s.vuvan i (VOp.isAlu .mul) fun s => s.issue i.core i.w i.x)

/-- IMUL (R470): Signed integer product to PH and PL. -/
def execImul (i : Issue) (s : State) : Outcome :=
  .next (s.vuvan i (VOp.isAlu .imul) fun s => s.issue i.core i.w i.x)

/-- UMUL (R470): Unsigned integer product to PH and PL. -/
def execUmul (i : Issue) (s : State) : Outcome :=
  .next (s.vuvan i (VOp.isAlu .umul) fun s => s.issue i.core i.w i.x)

/-- MPY (R471): Accumulator takes the fractional product. -/
def execMpy (i : Issue) (s : State) : Outcome :=
  .next (s.vuvan i (VOp.isAcc .mpy) fun s => s.issue i.core i.w i.x)

/-- MAC (R471): Accumulator adds the fractional product. -/
def execMac (i : Issue) (s : State) : Outcome :=
  .next (s.vuvan i (VOp.isAcc .mac) fun s => s.issue i.core i.w i.x)

/-- MSC (R471): Accumulator subtracts the fractional product. -/
def execMsc (i : Issue) (s : State) : Outcome :=
  .next (s.vuvan i (VOp.isAcc .msc) fun s => s.issue i.core i.w i.x)

/-- MPYR (R471): Rounded fractional product. -/
def execMpyr (i : Issue) (s : State) : Outcome :=
  .next (s.vuvan i (VOp.isAcc .mpyr) fun s => s.issue i.core i.w i.x)

/-- MACR (R471): Multiply-accumulate then round. -/
def execMacr (i : Issue) (s : State) : Outcome :=
  .next (s.vuvan i (VOp.isAcc .macr) fun s => s.issue i.core i.w i.x)

/-- IMAC (R471): Accumulator adds the integer product. -/
def execImac (i : Issue) (s : State) : Outcome :=
  .next (s.vuvan i (VOp.isAcc .imac) fun s => s.issue i.core i.w i.x)

/-- AADD (R471): Adds two accumulators. -/
def execAadd (i : Issue) (s : State) : Outcome :=
  .next (s.vuvan i (VOp.isAcc .aadd) fun s => s.issue i.core i.w i.x)

/-- ASUB (R471): Subtracts two accumulators. -/
def execAsub (i : Issue) (s : State) : Outcome :=
  .next (s.vuvan i (VOp.isAcc .asub) fun s => s.issue i.core i.w i.x)

/-- AMOV (R471): Copies an accumulator. -/
def execAmov (i : Issue) (s : State) : Outcome :=
  .next (s.vuvan i (VOp.isAcc .amov) fun s => s.issue i.core i.w i.x)

/-- ANEG (R471): Negates an accumulator. -/
def execAneg (i : Issue) (s : State) : Outcome :=
  .next (s.vuvan i (VOp.isAcc .aneg) fun s => s.issue i.core i.w i.x)

/-- AABS (R471): Absolute value of an accumulator. -/
def execAabs (i : Issue) (s : State) : Outcome :=
  .next (s.vuvan i (VOp.isAcc .aabs) fun s => s.issue i.core i.w i.x)

/-- ACLR (R471): Clears an accumulator. -/
def execAclr (i : Issue) (s : State) : Outcome :=
  .next (s.vuvan i (VOp.isAcc .aclr) fun s => s.issue i.core i.w i.x)

/-- ACMP (R471): Sets flags of AD - AS without writing. -/
def execAcmp (i : Issue) (s : State) : Outcome :=
  .next (s.vuvan i (VOp.isAcc .acmp) fun s => s.issue i.core i.w i.x)

/-- RND (R471): Rounds an accumulator convergently. -/
def execRnd (i : Issue) (s : State) : Outcome :=
  .next (s.vuvan i (VOp.isAcc .rnd) fun s => s.issue i.core i.w i.x)

/-- ASAT (R471): Limits an accumulator to 48 bits. -/
def execAsat (i : Issue) (s : State) : Outcome :=
  .next (s.vuvan i (VOp.isAcc .asat) fun s => s.issue i.core i.w i.x)

/-- ASH (R471): Shifts an accumulator by a signed amount. -/
def execAsh (i : Issue) (s : State) : Outcome :=
  .next (s.vuvan i (VOp.isAcc .ash) fun s => s.issue i.core i.w i.x)

/-- AGET (R471): Copies an accumulator's upper word to a G register. -/
def execAget (i : Issue) (s : State) : Outcome :=
  .next (s.vuvan i (VOp.isAcc .aget) fun s => s.issue i.core i.w i.x)

/-- AGETS (R471): Copies a limited accumulator's upper word. -/
def execAgets (i : Issue) (s : State) : Outcome :=
  .next (s.vuvan i (VOp.isAcc .agets) fun s => s.issue i.core i.w i.x)

/-- AGETR (R471): Copies a rounded and limited accumulator's upper word. -/
def execAgetr (i : Issue) (s : State) : Outcome :=
  .next (s.vuvan i (VOp.isAcc .agetr) fun s => s.issue i.core i.w i.x)

/-- FADD (R478): Floating-point add. -/
def execFadd (i : Issue) (s : State) : Outcome :=
  .next (s.vuvan i (VOp.isFp .fadd) fun s => s.issue i.core i.w i.x)

/-- FSUB (R478): Floating-point subtract. -/
def execFsub (i : Issue) (s : State) : Outcome :=
  .next (s.vuvan i (VOp.isFp .fsub) fun s => s.issue i.core i.w i.x)

/-- FMUL (R478): Floating-point multiply. -/
def execFmul (i : Issue) (s : State) : Outcome :=
  .next (s.vuvan i (VOp.isFp .fmul) fun s => s.issue i.core i.w i.x)

/-- FDIV (R478): Floating-point divide, setting FBUSY. -/
def execFdiv (i : Issue) (s : State) : Outcome :=
  .next (s.vuvan i (VOp.isFp .fdiv) fun s => s.issue i.core i.w i.x)

/-- FSQRT (R478): Floating-point square root, setting FBUSY. -/
def execFsqrt (i : Issue) (s : State) : Outcome :=
  .next (s.vuvan i (VOp.isFp .fsqrt) fun s => s.issue i.core i.w i.x)

/-- FNEG (R478): Floating-point negate. -/
def execFneg (i : Issue) (s : State) : Outcome :=
  .next (s.vuvan i (VOp.isFp .fneg) fun s => s.issue i.core i.w i.x)

/-- FABS (R478): Floating-point absolute value. -/
def execFabs (i : Issue) (s : State) : Outcome :=
  .next (s.vuvan i (VOp.isFp .fabs) fun s => s.issue i.core i.w i.x)

/-- FMOV (R478): Floating-point copy. -/
def execFmov (i : Issue) (s : State) : Outcome :=
  .next (s.vuvan i (VOp.isFp .fmov) fun s => s.issue i.core i.w i.x)

/-- FCMP (R478): Floating-point compare into flags. -/
def execFcmp (i : Issue) (s : State) : Outcome :=
  .next (s.vuvan i (VOp.isFp .fcmp) fun s => s.issue i.core i.w i.x)

/-- FITOF (R479): Signed integer to floating point. -/
def execFitof (i : Issue) (s : State) : Outcome :=
  .next (s.vuvan i (VOp.isFcv .fitof) fun s => s.issue i.core i.w i.x)

/-- FUTOF (R479): Unsigned integer to floating point. -/
def execFutof (i : Issue) (s : State) : Outcome :=
  .next (s.vuvan i (VOp.isFcv .futof) fun s => s.issue i.core i.w i.x)

/-- FFTOI (R479): Floating point to limited signed integer. -/
def execFftoi (i : Issue) (s : State) : Outcome :=
  .next (s.vuvan i (VOp.isFcv .fftoi) fun s => s.issue i.core i.w i.x)

/-- FQTOF (R479): Q1.23 fraction to floating point. -/
def execFqtof (i : Issue) (s : State) : Outcome :=
  .next (s.vuvan i (VOp.isFcv .fqtof) fun s => s.issue i.core i.w i.x)

/-- FFTOQ (R479): Floating point to limited Q1.23 fraction. -/
def execFftoq (i : Issue) (s : State) : Outcome :=
  .next (s.vuvan i (VOp.isFcv .fftoq) fun s => s.issue i.core i.w i.x)

/-- FATOF (R479): Accumulator to floating point. -/
def execFatof (i : Issue) (s : State) : Outcome :=
  .next (s.vuvan i (VOp.isFcv .fatof) fun s => s.issue i.core i.w i.x)

/-- FFTOA (R479): Floating point to limited accumulator. -/
def execFftoa (i : Issue) (s : State) : Outcome :=
  .next (s.vuvan i (VOp.isFcv .fftoa) fun s => s.issue i.core i.w i.x)

/-- REP (R475): the pair of REP and the instruction word that follows it, with that one's extension word; `cut` is the number
of repetitions that have run when the hard stop falls within the repeat (R33). -/
def execRep (i : Issue) (w2 x2 : Word) (cut : Option Nat) (s : State) : Outcome :=
  .next (s.vuvan i (· == .rep) fun s => s.issueRep i.core i.w w2 x2 cut)

/-- UNDEFINED_INSTRUCTION (R462): a word of an unassigned major or minor takes the UNDEF trap. -/
def execUndefinedInstruction (i : Issue) (s : State) : Outcome :=
  .next (if s.coreActive i.core && (vDecode i.w).isNone then
    let b := (s.reach (s.time.t0 + i.at_)).boundary i.core
    if b.2 then b.1 else b.1.issue i.core i.w i.x
  else s)

/-- PENDING_RESULT_WRITE (R435 to R437): the oldest exposed result for a destination (4 for PH and PL, else F) is
written; an FPU trap it is due is taken once every pending result has been written. -/
def execPendingResultWrite (core dest : Nat) (s : State) : Outcome :=
  .next (match (s.core core).exposed.find? fun e => e.dest == dest with
  | none => s
  | some e =>
    let s := s.modCore core fun k => { k with exposed := k.exposed.erase e }.land1 e
    if (s.core core).trapDue && s.coreActive core then
      (s.modCore core fun k => k.landWhere fun _ => true).dueTraps core
    else s)

/-- INTERRUPT_ENTRY (R441, R442): the core takes its first enabled pending interrupt. -/
def execInterruptEntry (core at_ : Nat) (s : State) : Outcome :=
  .next ((s.reach (s.time.t0 + at_)).interrupt core)

/-- USER_ENTRY (R446): core 3 enters user code once a tick, after its migrated tasks. -/
def execUserEntry (at_ : Nat) (s : State) : Outcome :=
  .next (let k := s.core 3
    if s.coreActive 3 && s.cpu.userEnable && !s.cpu.userEntered && !(stUser k.st) && s.cpu.window
        && (s.cpu.migrated.isNone || k.tickDone) then
      (s.reach (s.time.t0 + at_)).userEnter
    else s)

/-- A write of a special-function word by a store of an active core: a trap where the word may not be written. -/
def State.storeWord (s : State) (core at_ : Nat) (a w : Word) : State :=
  if s.coreActive core then
    let s := s.reach (s.time.t0 + at_)
    let k := s.core core
    match s.writeWord core a w with
    | .ok t => t
    | .error t => s.takeTrap core t k.pcx k.pcx
  else s

/-- NCO_COMMIT (R426): word 4 of the NCO block of slot n written. -/
def execNcoCommit (core at_ n : Nat) (w : Word) (s : State) : Outcome :=
  .next (if n < 512 then s.storeWord core at_ (BitVec.ofNat 24 (0xF04004 + 8 * n)) w else s)

/-- MAILBOX_SEND (R425): MAILBOX rises on the cores named. -/
def execMailboxSend (core at_ : Nat) (w : Word) (s : State) : Outcome := .next (s.storeWord core at_ 0xF10002 w)

/-- TICK_NOW (R425): a read of the first TICK_NOW word latches the other two. -/
def execTickNow (core at_ : Nat) (s : State) : Outcome :=
  .next (if s.coreActive core then ((s.reach (s.time.t0 + at_)).tickNow core).2 else s)

/-- TICK_DONE (R25): a core marks the end of its per-tick tasks. -/
def execTickDone (core at_ : Nat) (w : Word) (s : State) : Outcome := .next (s.storeWord core at_ 0xF10107 w)

/-- DAU_GO (R449): the core's dictionary request is submitted. -/
def execDauGo (core at_ : Nat) (w : Word) (s : State) : Outcome := .next (s.storeWord core at_ 0xF10205 w)

/-- RING_HEAD (R450): descriptors up to the head are handed to the device. -/
def execRingHead (core at_ ring : Nat) (w : Word) (s : State) : Outcome :=
  .next (if ring < 2 then s.storeWord core at_ (BitVec.ofNat 24 (0xF10302 + 4 * ring)) w else s)

end Sys2Proof.Machine
end

