-- ==== Sys2Proof/Machine/Dispatch.lean ====
section
/-! DEFINITION. One arm per command: the meaning of each is one definition of the files of Machine/. -/

namespace Sys2Proof.Machine

def exec (i : Instr) (s : State) : Host.Outcome State Fault Refusal :=
  match i with
  | .tick a => Sys2Proof.Machine.execTick a s
  | .dumpReady => Sys2Proof.Machine.execDumpReady s
  | .budgetDeadline => Sys2Proof.Machine.execBudgetDeadline s
  | .hardStop => Sys2Proof.Machine.execHardStop s
  | .userBudgetExhausted at_ => Sys2Proof.Machine.execUserBudgetExhausted at_ s
  | .userHardStop at_ => Sys2Proof.Machine.execUserHardStop at_ s
  | .tickDone core at_ w => Sys2Proof.Machine.execTickDone core at_ w s
  | .shedStep => Sys2Proof.Machine.execShedStep s
  | .taskMigration tasks => Sys2Proof.Machine.execTaskMigration tasks s
  | .status n at_ => Sys2Proof.Machine.execStatus n at_ s
  | .read c index sub len => Sys2Proof.Machine.execRead c index sub len s
  | .write c index sub b => Sys2Proof.Machine.execWrite c index sub b s
  | .streamRead c index sub len => Sys2Proof.Machine.execStreamRead c index sub len s
  | .fetch n at_ => Sys2Proof.Machine.execFetch n at_ s
  | .snapshot c index len => Sys2Proof.Machine.execSnapshot c index len s
  | .writeRecord c index b => Sys2Proof.Machine.execWriteRecord c index b s
  | .describe c index sub len => Sys2Proof.Machine.execDescribe c index sub len s
  | .mspiTransfer b at_ => Sys2Proof.Machine.execMspiTransfer b at_ s
  | .hostRequest f fcs at_ aon => Sys2Proof.Machine.execHostRequest f fcs at_ aon s
  | .sourceLost => Sys2Proof.Machine.execSourceLost s
  | .step => Sys2Proof.Machine.execStep s
  | .pondseed c v => Sys2Proof.Machine.execPondseed c v s
  | .reseed at_ => Sys2Proof.Machine.execReseed at_ s
  | .reseedTimeout at_ => Sys2Proof.Machine.execReseedTimeout at_ s
  | .referenceLost at_ => Sys2Proof.Machine.execReferenceLost at_ s
  | .referenceReturning at_ => Sys2Proof.Machine.execReferenceReturning at_ s
  | .referenceValid at_ => Sys2Proof.Machine.execReferenceValid at_ s
  | .timePulseEdge p g => Sys2Proof.Machine.execTimePulseEdge p g s
  | .pulseWidthEnd p => Sys2Proof.Machine.execPulseWidthEnd p s
  | .clockRealign c g => Sys2Proof.Machine.execClockRealign c g s
  | .phaseResidualMeasure c r at_ => Sys2Proof.Machine.execPhaseResidualMeasure c r at_ s
  | .todMessage sec => Sys2Proof.Machine.execTodMessage sec s
  | .irigBFrame sec => Sys2Proof.Machine.execIrigBFrame sec s
  | .antennaShort a at_ => Sys2Proof.Machine.execAntennaShort a at_ s
  | .shortTrial a current at_ => Sys2Proof.Machine.execShortTrial a current at_ s
  | .antennaSupplyLow a mv => Sys2Proof.Machine.execAntennaSupplyLow a mv s
  | .supplyLowCleared a mv => Sys2Proof.Machine.execSupplyLowCleared a mv s
  | .antennaOpen a current => Sys2Proof.Machine.execAntennaOpen a current s
  | .openCleared a current => Sys2Proof.Machine.execOpenCleared a current s
  | .agcBaselineLearned c => Sys2Proof.Machine.execAgcBaselineLearned c s
  | .notchSpectrum c lines => Sys2Proof.Machine.execNotchSpectrum c lines s
  | .loUnlock c at_ => Sys2Proof.Machine.execLoUnlock c at_ s
  | .calRequest c v => Sys2Proof.Machine.execCalRequest c v s
  | .calibrationStart => Sys2Proof.Machine.execCalibrationStart s
  | .calStepComplete pass image at_ => Sys2Proof.Machine.execCalStepComplete pass image at_ s
  | .calibrationEnd => Sys2Proof.Machine.execCalibrationEnd s
  | .chainFaultRetry c => Sys2Proof.Machine.execChainFaultRetry c s
  | .spectrumAveragingStart => Sys2Proof.Machine.execSpectrumAveragingStart s
  | .spectrumEntry powers => Sys2Proof.Machine.execSpectrumEntry powers s
  | .antennaSwitch => Sys2Proof.Machine.execAntennaSwitch s
  | .antennaRevert => Sys2Proof.Machine.execAntennaRevert s
  | .laneRunStart p => Sys2Proof.Machine.execLaneRunStart p s
  | .passDecision l cell line ratio at_ => Sys2Proof.Machine.execPassDecision l cell line ratio at_ s
  | .verification l powers at_ => Sys2Proof.Machine.execVerification l powers at_ s
  | .handoffLoad => Sys2Proof.Machine.execHandoffLoad s
  | .noSlot => Sys2Proof.Machine.execNoSlot s
  | .autoListRefill predicted => Sys2Proof.Machine.execAutoListRefill predicted s
  | .dumpLatch n data pilot mm => Sys2Proof.Machine.execDumpLatch n data pilot mm s
  | .loopUpdate n at_ => Sys2Proof.Machine.execLoopUpdate n at_ s
  | .slotStateChange n => Sys2Proof.Machine.execSlotStateChange n s
  | .pullInFailed n => Sys2Proof.Machine.execPullInFailed n s
  | .lostTimeout n => Sys2Proof.Machine.execLostTimeout n s
  | .aidedWindowUpdate n at_ => Sys2Proof.Machine.execAidedWindowUpdate n at_ s
  | .parityFault n again => Sys2Proof.Machine.execParityFault n again s
  | .slotRetired n => Sys2Proof.Machine.execSlotRetired n s
  | .crossCorrDrop n => Sys2Proof.Machine.execCrossCorrDrop n s
  | .release c n => Sys2Proof.Machine.execRelease c n s
  | .histogramRestart n => Sys2Proof.Machine.execHistogramRestart n s
  | .decodeComplete d at_ => Sys2Proof.Machine.execDecodeComplete d at_ s
  | .ephemerisExpired e => Sys2Proof.Machine.execEphemerisExpired e s
  | .predictedBlock n e part start at_ => Sys2Proof.Machine.execPredictedBlock n e part start at_ s
  | .measurementEpoch at_ => Sys2Proof.Machine.execMeasurementEpoch at_ s
  | .solution at_ => Sys2Proof.Machine.execSolution at_ s
  | .solutionSkipped => Sys2Proof.Machine.execSolutionSkipped s
  | .surveyRestart a => Sys2Proof.Machine.execSurveyRestart a s
  | .leapApplied => Sys2Proof.Machine.execLeapApplied s
  | .hostLeap c b => Sys2Proof.Machine.execHostLeap c b s
  | .asymCalPeriod n mean sigma => Sys2Proof.Machine.execAsymCalPeriod n mean sigma s
  | .signalDetect n => Sys2Proof.Machine.execSignalDetect n s
  | .trainingComplete n eth => Sys2Proof.Machine.execTrainingComplete n eth s
  | .autoModeSwitch n at_ => Sys2Proof.Machine.execAutoModeSwitch n at_ s
  | .trainFail n at_ => Sys2Proof.Machine.execTrainFail n at_ s
  | .trainRetry n at_ => Sys2Proof.Machine.execTrainRetry n at_ s
  | .los n group => Sys2Proof.Machine.execLos n group s
  | .hello n frame => Sys2Proof.Machine.execHello n frame s
  | .linkData n frame at_ => Sys2Proof.Machine.execLinkData n frame at_ s
  | .linkAck n frame at_ => Sys2Proof.Machine.execLinkAck n frame at_ s
  | .nak n frame at_ => Sys2Proof.Machine.execNak n frame at_ s
  | .ackTimeout n at_ => Sys2Proof.Machine.execAckTimeout n at_ s
  | .timingFrame n frame at_ => Sys2Proof.Machine.execTimingFrame n frame at_ s
  | .timingRecordPosted n at_ => Sys2Proof.Machine.execTimingRecordPosted n at_ s
  | .linkMissing n => Sys2Proof.Machine.execLinkMissing n s
  | .errorSecond n errs => Sys2Proof.Machine.execErrorSecond n errs s
  | .degradedRecovery n => Sys2Proof.Machine.execDegradedRecovery n s
  | .retrain c n => Sys2Proof.Machine.execRetrain c n s
  | .syncInterval n at_ => Sys2Proof.Machine.execSyncInterval n at_ s
  | .announceInterval n at_ => Sys2Proof.Machine.execAnnounceInterval n at_ s
  | .delayReqInterval n at_ => Sys2Proof.Machine.execDelayReqInterval n at_ s
  | .announceReceiptTimeout n at_ => Sys2Proof.Machine.execAnnounceReceiptTimeout n at_ s
  | .sync n m at_ out => Sys2Proof.Machine.execSync n m at_ out s
  | .followUp n m => Sys2Proof.Machine.execFollowUp n m s
  | .delayReq n m at_ out => Sys2Proof.Machine.execDelayReq n m at_ out s
  | .delayResp n m at_ out => Sys2Proof.Machine.execDelayResp n m at_ out s
  | .pdelayReq n m at_ turn out => Sys2Proof.Machine.execPdelayReq n m at_ turn out s
  | .pdelayResp n m at_ out => Sys2Proof.Machine.execPdelayResp n m at_ out s
  | .announce n m at_ out => Sys2Proof.Machine.execAnnounce n m at_ out s
  | .launchSubmit c b => Sys2Proof.Machine.execLaunchSubmit c b s
  | .frameLaunch n at_ => Sys2Proof.Machine.execFrameLaunch n at_ s
  | .lsa held at_ => Sys2Proof.Machine.execLsa held at_ s
  | .lsaRefresh at_ => Sys2Proof.Machine.execLsaRefresh at_ s
  | .lsaExpiry at_ => Sys2Proof.Machine.execLsaExpiry at_ s
  | .rootElection replica at_ => Sys2Proof.Machine.execRootElection replica at_ s
  | .routeCompute at_ => Sys2Proof.Machine.execRouteCompute at_ s
  | .networkFrameForward at_ => Sys2Proof.Machine.execNetworkFrameForward at_ s
  | .join at_ => Sys2Proof.Machine.execJoin at_ s
  | .joinResend at_ => Sys2Proof.Machine.execJoinResend at_ s
  | .grant at_ => Sys2Proof.Machine.execGrant at_ s
  | .remoteRequest c b => Sys2Proof.Machine.execRemoteRequest c b s
  | .txnRequest at_ aon => Sys2Proof.Machine.execTxnRequest at_ aon s
  | .txnReply at_ => Sys2Proof.Machine.execTxnReply at_ s
  | .txnResend at_ => Sys2Proof.Machine.execTxnResend at_ s
  | .messageSubmit c b => Sys2Proof.Machine.execMessageSubmit c b s
  | .channelOpen c k => Sys2Proof.Machine.execChannelOpen c k s
  | .channelClose c k => Sys2Proof.Machine.execChannelClose c k s
  | .channelBroken k at_ => Sys2Proof.Machine.execChannelBroken k at_ s
  | .message at_ => Sys2Proof.Machine.execMessage at_ s
  | .messageAck at_ => Sys2Proof.Machine.execMessageAck at_ s
  | .messageResend a at_ => Sys2Proof.Machine.execMessageResend a at_ s
  | .keeperHold dest at_ => Sys2Proof.Machine.execKeeperHold dest at_ s
  | .keeperHeld at_ => Sys2Proof.Machine.execKeeperHeld at_ s
  | .keeperRelease at_ => Sys2Proof.Machine.execKeeperRelease at_ s
  | .keeperTakeover at_ => Sys2Proof.Machine.execKeeperTakeover at_ s
  | .messageDelivery at_ aon => Sys2Proof.Machine.execMessageDelivery at_ aon s
  | .receiveRecordFree at_ => Sys2Proof.Machine.execReceiveRecordFree at_ s
  | .streamData at_ => Sys2Proof.Machine.execStreamData at_ s
  | .streamOpen at_ => Sys2Proof.Machine.execStreamOpen at_ s
  | .streamOpenAck at_ => Sys2Proof.Machine.execStreamOpenAck at_ s
  | .streamAck at_ => Sys2Proof.Machine.execStreamAck at_ s
  | .streamClose at_ => Sys2Proof.Machine.execStreamClose at_ s
  | .streamReset at_ => Sys2Proof.Machine.execStreamReset at_ s
  | .streamResend at_ => Sys2Proof.Machine.execStreamResend at_ s
  | .fabricScopeWrite c index sub b => Sys2Proof.Machine.execFabricScopeWrite c index sub b s
  | .fscopePropose at_ => Sys2Proof.Machine.execFscopePropose at_ s
  | .fscopePrepare at_ => Sys2Proof.Machine.execFscopePrepare at_ s
  | .fscopeReady at_ => Sys2Proof.Machine.execFscopeReady at_ s
  | .fscopeReadyDeadline at_ => Sys2Proof.Machine.execFscopeReadyDeadline at_ s
  | .fscopeCommit at_ => Sys2Proof.Machine.execFscopeCommit at_ s
  | .fscopeAbort at_ => Sys2Proof.Machine.execFscopeAbort at_ s
  | .fscopeApply => Sys2Proof.Machine.execFscopeApply s
  | .fscopeFetch at_ => Sys2Proof.Machine.execFscopeFetch at_ s
  | .fscopeValue at_ => Sys2Proof.Machine.execFscopeValue at_ s
  | .fscopeLost at_ => Sys2Proof.Machine.execFscopeLost at_ s
  | .lakeEpoch at_ => Sys2Proof.Machine.execLakeEpoch at_ s
  | .report at_ => Sys2Proof.Machine.execReport at_ s
  | .ensembleEpoch origin at_ => Sys2Proof.Machine.execEnsembleEpoch origin at_ s
  | .estimate at_ => Sys2Proof.Machine.execEstimate at_ s
  | .estimateLoss at_ => Sys2Proof.Machine.execEstimateLoss at_ s
  | .replica at_ => Sys2Proof.Machine.execReplica at_ s
  | .actingTakeover at_ => Sys2Proof.Machine.execActingTakeover at_ s
  | .cvObs at_ => Sys2Proof.Machine.execCvObs at_ s
  | .neighbours at_ => Sys2Proof.Machine.execNeighbours at_ s
  | .sightings at_ => Sys2Proof.Machine.execSightings at_ s
  | .lakeEphemeris at_ => Sys2Proof.Machine.execLakeEphemeris at_ s
  | .symbols at_ => Sys2Proof.Machine.execSymbols at_ s
  | .subscribe at_ => Sys2Proof.Machine.execSubscribe at_ s
  | .subscribeRenew at_ => Sys2Proof.Machine.execSubscribeRenew at_ s
  | .rank at_ => Sys2Proof.Machine.execRank at_ s
  | .propose c b => Sys2Proof.Machine.execPropose c b s
  | .confirm c b => Sys2Proof.Machine.execConfirm c b s
  | .cancel c id => Sys2Proof.Machine.execCancel c id s
  | .twoPartyExpired aon => Sys2Proof.Machine.execTwoPartyExpired aon s
  | .cardPoll present select answer challenge last us at_ => Sys2Proof.Machine.execCardPoll present select answer challenge last us at_ s
  | .nop a => Sys2Proof.Machine.execNop a s
  | .wait a => Sys2Proof.Machine.execWait a s
  | .rts a => Sys2Proof.Machine.execRts a s
  | .rti a => Sys2Proof.Machine.execRti a s
  | .ei a => Sys2Proof.Machine.execEi a s
  | .di a => Sys2Proof.Machine.execDi a s
  | .mov a => Sys2Proof.Machine.execMov a s
  | .ld a => Sys2Proof.Machine.execLd a s
  | .st a => Sys2Proof.Machine.execSt a s
  | .ldi a => Sys2Proof.Machine.execLdi a s
  | .ldis a => Sys2Proof.Machine.execLdis a s
  | .lea a => Sys2Proof.Machine.execLea a s
  | .add a => Sys2Proof.Machine.execAdd a s
  | .adc a => Sys2Proof.Machine.execAdc a s
  | .sub a => Sys2Proof.Machine.execSub a s
  | .sbc a => Sys2Proof.Machine.execSbc a s
  | .cmp a => Sys2Proof.Machine.execCmp a s
  | .neg a => Sys2Proof.Machine.execNeg a s
  | .abs a => Sys2Proof.Machine.execAbs a s
  | .and a => Sys2Proof.Machine.execAnd a s
  | .or a => Sys2Proof.Machine.execOr a s
  | .xor a => Sys2Proof.Machine.execXor a s
  | .andn a => Sys2Proof.Machine.execAndn a s
  | .not a => Sys2Proof.Machine.execNot a s
  | .tst a => Sys2Proof.Machine.execTst a s
  | .asl a => Sys2Proof.Machine.execAsl a s
  | .asr a => Sys2Proof.Machine.execAsr a s
  | .lsl a => Sys2Proof.Machine.execLsl a s
  | .lsr a => Sys2Proof.Machine.execLsr a s
  | .btst a => Sys2Proof.Machine.execBtst a s
  | .bset a => Sys2Proof.Machine.execBset a s
  | .bclr a => Sys2Proof.Machine.execBclr a s
  | .btgl a => Sys2Proof.Machine.execBtgl a s
  | .norm a => Sys2Proof.Machine.execNorm a s
  | .min a => Sys2Proof.Machine.execMin a s
  | .max a => Sys2Proof.Machine.execMax a s
  | .maxx a => Sys2Proof.Machine.execMaxx a s
  | .minx a => Sys2Proof.Machine.execMinx a s
  | .addd a => Sys2Proof.Machine.execAddd a s
  | .adcd a => Sys2Proof.Machine.execAdcd a s
  | .subd a => Sys2Proof.Machine.execSubd a s
  | .sbcd a => Sys2Proof.Machine.execSbcd a s
  | .mul a => Sys2Proof.Machine.execMul a s
  | .imul a => Sys2Proof.Machine.execImul a s
  | .umul a => Sys2Proof.Machine.execUmul a s
  | .mpy a => Sys2Proof.Machine.execMpy a s
  | .mac a => Sys2Proof.Machine.execMac a s
  | .msc a => Sys2Proof.Machine.execMsc a s
  | .mpyr a => Sys2Proof.Machine.execMpyr a s
  | .macr a => Sys2Proof.Machine.execMacr a s
  | .imac a => Sys2Proof.Machine.execImac a s
  | .aadd a => Sys2Proof.Machine.execAadd a s
  | .asub a => Sys2Proof.Machine.execAsub a s
  | .amov a => Sys2Proof.Machine.execAmov a s
  | .aneg a => Sys2Proof.Machine.execAneg a s
  | .aabs a => Sys2Proof.Machine.execAabs a s
  | .aclr a => Sys2Proof.Machine.execAclr a s
  | .acmp a => Sys2Proof.Machine.execAcmp a s
  | .rnd a => Sys2Proof.Machine.execRnd a s
  | .asat a => Sys2Proof.Machine.execAsat a s
  | .ash a => Sys2Proof.Machine.execAsh a s
  | .aget a => Sys2Proof.Machine.execAget a s
  | .agets a => Sys2Proof.Machine.execAgets a s
  | .agetr a => Sys2Proof.Machine.execAgetr a s
  | .maxm a => Sys2Proof.Machine.execMaxm a s
  | .minm a => Sys2Proof.Machine.execMinm a s
  | .maxam a => Sys2Proof.Machine.execMaxam a s
  | .b a => Sys2Proof.Machine.execB a s
  | .jmp a => Sys2Proof.Machine.execJmp a s
  | .call a => Sys2Proof.Machine.execCall a s
  | .jmpr a => Sys2Proof.Machine.execJmpr a s
  | .callr a => Sys2Proof.Machine.execCallr a s
  | .loop a => Sys2Proof.Machine.execLoop a s
  | .loopr a => Sys2Proof.Machine.execLoopr a s
  | .rep a w2 x2 cut => Sys2Proof.Machine.execRep a w2 x2 cut s
  | .push a => Sys2Proof.Machine.execPush a s
  | .pop a => Sys2Proof.Machine.execPop a s
  | .fadd a => Sys2Proof.Machine.execFadd a s
  | .fsub a => Sys2Proof.Machine.execFsub a s
  | .fmul a => Sys2Proof.Machine.execFmul a s
  | .fdiv a => Sys2Proof.Machine.execFdiv a s
  | .fsqrt a => Sys2Proof.Machine.execFsqrt a s
  | .fneg a => Sys2Proof.Machine.execFneg a s
  | .fabs a => Sys2Proof.Machine.execFabs a s
  | .fmov a => Sys2Proof.Machine.execFmov a s
  | .fcmp a => Sys2Proof.Machine.execFcmp a s
  | .fitof a => Sys2Proof.Machine.execFitof a s
  | .futof a => Sys2Proof.Machine.execFutof a s
  | .fftoi a => Sys2Proof.Machine.execFftoi a s
  | .fqtof a => Sys2Proof.Machine.execFqtof a s
  | .fftoq a => Sys2Proof.Machine.execFftoq a s
  | .fatof a => Sys2Proof.Machine.execFatof a s
  | .fftoa a => Sys2Proof.Machine.execFftoa a s
  | .fld a => Sys2Proof.Machine.execFld a s
  | .fst a => Sys2Proof.Machine.execFst a s
  | .pendingResultWrite core dest => Sys2Proof.Machine.execPendingResultWrite core dest s
  | .interruptEntry core at_ => Sys2Proof.Machine.execInterruptEntry core at_ s
  | .userEntry at_ => Sys2Proof.Machine.execUserEntry at_ s
  | .ncoCommit core at_ n w => Sys2Proof.Machine.execNcoCommit core at_ n w s
  | .mailboxSend core at_ w => Sys2Proof.Machine.execMailboxSend core at_ w s
  | .tickNow core at_ => Sys2Proof.Machine.execTickNow core at_ s
  | .dauGo core at_ w => Sys2Proof.Machine.execDauGo core at_ w s
  | .dauDone core at_ aon => Sys2Proof.Machine.execDauDone core at_ aon s
  | .ringHead core at_ ring w => Sys2Proof.Machine.execRingHead core at_ ring w s
  | .descriptorComplete core ring at_ => Sys2Proof.Machine.execDescriptorComplete core ring at_ s
  | .selfCheck failed at_ => Sys2Proof.Machine.execSelfCheck failed at_ s
  | .fieldOn c b => Sys2Proof.Machine.execFieldOn c b s
  | .fieldOff c b => Sys2Proof.Machine.execFieldOff c b s
  | .transceive c b => Sys2Proof.Machine.execTransceive c b s
  | .inventory c b => Sys2Proof.Machine.execInventory c b s
  | .calibrate c => Sys2Proof.Machine.execCalibrate c s
  | .synthLock at_ => Sys2Proof.Machine.execSynthLock at_ s
  | .synthLockTimeout at_ => Sys2Proof.Machine.execSynthLockTimeout at_ s
  | .synthCalDone at_ => Sys2Proof.Machine.execSynthCalDone at_ s
  | .synthBusy at_ => Sys2Proof.Machine.execSynthBusy at_ s
  | .fieldTimeout at_ => Sys2Proof.Machine.execFieldTimeout at_ s
  | .hardwareFieldTimeout at_ => Sys2Proof.Machine.execHardwareFieldTimeout at_ s
  | .dutyLimit at_ => Sys2Proof.Machine.execDutyLimit at_ s
  | .responseTimeout bins at_ => Sys2Proof.Machine.execResponseTimeout bins at_ s
  | .readerFrameReceived f bins at_ => Sys2Proof.Machine.execReaderFrameReceived f bins at_ s
  | .secondSof f amp bins at_ => Sys2Proof.Machine.execSecondSof f amp bins at_ s
  | .cardDetectBurst amp at_ => Sys2Proof.Machine.execCardDetectBurst amp at_ s
  | .delayScan tags last us at_ => Sys2Proof.Machine.execDelayScan tags last us at_ s
  | .scanCommand c v => Sys2Proof.Machine.execScanCommand c v s
  | .timerStart c n => Sys2Proof.Machine.execStart c n s
  | .timerStartLateOk c n => Sys2Proof.Machine.execStartLateOk c n s
  | .timerStop c n => Sys2Proof.Machine.execStop c n s
  | .groupStart c mask => Sys2Proof.Machine.execGroupStart c mask s
  | .countingBegins n at_ => Sys2Proof.Machine.execCountingBegins n at_ s
  | .underflow n at_ => Sys2Proof.Machine.execUnderflow n at_ s
  | .compareMatch n w at_ => Sys2Proof.Machine.execCompareMatch n w at_ s
  | .ctoPulseEnd o at_ => Sys2Proof.Machine.execCtoPulseEnd o at_ s
  | .capture a rising at_ => Sys2Proof.Machine.execCapture a rising at_ s
  | .captureRead c a => Sys2Proof.Machine.execCaptureRead c a s
  | .powerModeSleep c => Sys2Proof.Machine.execPowerModeSleep c s
  | .powerModeDeep c => Sys2Proof.Machine.execPowerModeDeep c s
  | .powerModeOff c => Sys2Proof.Machine.execPowerModeOff c s
  | .powerModeOasis c => Sys2Proof.Machine.execPowerModeOasis c s
  | .powerModeNone c => Sys2Proof.Machine.execPowerModeNone c s
  | .entryAttempt e at_ aon => Sys2Proof.Machine.execEntryAttempt e at_ aon s
  | .wake cause port at_ aon => Sys2Proof.Machine.execWake cause port at_ aon s
  | .regulatorTimeout aon => Sys2Proof.Machine.execRegulatorTimeout aon s
  | .wakeRetry a aon => Sys2Proof.Machine.execWakeRetry a aon s
  | .refLate => Sys2Proof.Machine.execRefLate s
  | .oasisBurst at_ => Sys2Proof.Machine.execOasisBurst at_ s
  | .oasisBurstEnd e at_ aon => Sys2Proof.Machine.execOasisBurstEnd e at_ aon s
  | .levelFail at_ => Sys2Proof.Machine.execLevelFail at_ s
  | .powerUp wake a aon => Sys2Proof.Machine.execPowerUp wake a aon s
  | .rstN ns a aon => Sys2Proof.Machine.execRstN ns a aon s
  | .resetWarm c => Sys2Proof.Machine.execWarm c s
  | .resetCold c => Sys2Proof.Machine.execCold c s
  | .resetUpdate c => Sys2Proof.Machine.execUpdate c s
  | .watchdog => Sys2Proof.Machine.execWatchdog s
  | .warmReset a at_ => Sys2Proof.Machine.execWarmReset a at_ s
  | .coldReset a => Sys2Proof.Machine.execColdReset a s
  | .supplyDrop mask at_ => Sys2Proof.Machine.execSupplyDrop mask at_ s
  | .firmwareStart => Sys2Proof.Machine.execFirmwareStart s
  | .bootWaitExpiry => Sys2Proof.Machine.execBootWaitExpiry s
  | .imageWrite c b => Sys2Proof.Machine.execImageWrite c b s
  | .imageBegin c => Sys2Proof.Machine.execBegin c s
  | .imageRun c => Sys2Proof.Machine.execRun c s
  | .imageStoreAndRun c => Sys2Proof.Machine.execStoreAndRun c s
  | .imageVerifyDone flash => Sys2Proof.Machine.execImageVerifyDone flash s
  | .commission c => Sys2Proof.Machine.execCommission c s
  | .operate c => Sys2Proof.Machine.execOperate c s
  | .siltRecordRead c r => Sys2Proof.Machine.execSiltRecordRead c r s
  | .groupReferenceValid k => Sys2Proof.Machine.execGroupReferenceValid k s
  | .supplyReturn mask banks => Sys2Proof.Machine.execSupplyReturn mask banks s
  | .pllLock => Sys2Proof.Machine.execPllLock s
  | .pObjectsLoaded at_ => Sys2Proof.Machine.execPObjectsLoaded at_ s
  | .timerPinEdge a rising at_ => Sys2Proof.Machine.execTimerPinEdge a rising at_ s
  | .keeperHeldTimeout at_ => Sys2Proof.Machine.execKeeperHeldTimeout at_ s
  | .subscriptionExpiry at_ => Sys2Proof.Machine.execSubscriptionExpiry at_ s
  | .sightingExpiry at_ => Sys2Proof.Machine.execSightingExpiry at_ s
  | .epochStreamAppend => Sys2Proof.Machine.execEpochStreamAppend s
  | .flashWriteComplete ok => Sys2Proof.Machine.execFlashWriteComplete ok s
  | .ethernetFrameReceived n => Sys2Proof.Machine.execEthernetFrameReceived n s
  | .trstN asserted => Sys2Proof.Machine.execTrstN asserted s
  | .tapClock tms tdi => Sys2Proof.Machine.execTapClock tms tdi s
  | .undefinedInstruction a => Sys2Proof.Machine.execUndefinedInstruction a s

end Sys2Proof.Machine
end

