-- ==== Sys2Proof/Safety.lean ====
section
/-!
DEFINITION. What holds of a sound state, in the terms the statements use: the canonical form of the dictionary and of the
memories, the bounds of the Silt log; and what only few commands may change.
-/

namespace Sys2Proof.Machine

/-- The memories hold their canonical form: shared memory and the local memory of every core list rising addresses, and no
word that an unlisted address reads as (R423). -/
abbrev CoresSt.MemOk (k : CoresSt) : Prop :=
  SMap.wf (fun _ => (0 : Word)) k.shared = true ∧ ∀ i : Fin 4, SMap.wf (fun _ => (0 : Word)) k.core[i].mem = true

/-- The Silt log keeps its bounds: 64 records wait, 16,384 are held (R575, R580). -/
abbrev SiltSt.Bounded (l : SiltSt) : Prop := l.queue.length ≤ 64 ∧ l.recs.length ≤ siltCap

/-- The maps of the state hold their canonical form, rising keys and no value equal to what an unlisted key reads as: the
dictionary, the streams, the slots. -/
abbrev State.MapsOk (s : State) : Prop :=
  SMap.wf dfltOf s.dict = true ∧ SMap.wf (fun _ => ([] : List (List Nat))) s.streams = true ∧
    SMap.wf (fun _ => SlotSt.reset) s.slots = true

/-- The invariant of every state the machine reaches: the dictionary, the streams, the slots and the memories hold their
canonical form, the Silt log keeps its bounds. -/
abbrev State.Inv (s : State) : Prop :=
  s.MapsOk ∧ s.silt.Bounded ∧ s.cpu.MemOk

/-- What the tick, a step of Pond time and a start alone may change of time (R9, R10, R21). -/
structure TimeBase where
  ms : Nat
  t0 : Nat
  tick : Nat
  opSec : Nat
  cycles : Nat
  deriving DecidableEq, Repr

/-- The time base of a state. -/
def TimeSt.base (t : TimeSt) : TimeBase := ⟨t.ms, t.t0, t.tick, t.opSec, t.cycles⟩

/-- A state keeps a queue, a test access port and a time base, and the invariant. -/
structure Keeps (q : List Instr) (j : TapSt) (b : TimeBase) (s : State) : Prop where
  pending : s.pending = q
  jtag : s.jtag = j
  base : s.time.base = b
  inv : s.Inv

/-- The parts of the state, one for each of its fields. -/
inductive Part where
  | pending | dict | streams | silt | mspi | host | reply | free | time | out | cpu | tmr | rx
  | slots | nav | erg | sol | ports | net | prot | lake | reader | power | boot | jtag
  deriving DecidableEq, Repr

/-- A part is the same in two states. -/
def Part.Same (a b : State) : Part → Prop
  | .pending => a.pending = b.pending
  | .dict => a.dict = b.dict
  | .streams => a.streams = b.streams
  | .silt => a.silt = b.silt
  | .mspi => a.mspi = b.mspi
  | .host => a.host = b.host
  | .reply => a.reply = b.reply
  | .free => a.free = b.free
  | .time => a.time = b.time
  | .out => a.out = b.out
  | .cpu => a.cpu = b.cpu
  | .tmr => a.tmr = b.tmr
  | .rx => a.rx = b.rx
  | .slots => a.slots = b.slots
  | .nav => a.nav = b.nav
  | .erg => a.erg = b.erg
  | .sol => a.sol = b.sol
  | .ports => a.ports = b.ports
  | .net => a.net = b.net
  | .prot => a.prot = b.prot
  | .lake => a.lake = b.lake
  | .reader => a.reader = b.reader
  | .power => a.power = b.power
  | .boot => a.boot = b.boot
  | .jtag => a.jtag = b.jtag

/-- All of a state `s` but the parts `fp` is as in the state `o`. -/
structure Frame (fp : List Part) (o s : State) : Prop where
  same : ∀ p, p ∉ fp → p.Same s o

/-! ### Instruction commands -/

/-- The core as an instruction finds it: the results whose latency has passed are written (R435). -/
def State.found (s : State) (i : Issue) : CoreSt :=
  (s.core i.core).landWhere fun e => decide (e.due ≤ (s.core i.core).cyc)

/-- An instruction command issues its word (R462): the core takes instructions, the word is the instruction `op` with its
reserved fields zero, its words may be fetched (R423), and no trap is due at the boundary before it (R437, R441). -/
abbrev Ready (s : State) (i : Issue) (op : VOp) : Prop :=
  s.coreActive i.core = true ∧ vDecode i.w = some op ∧ vResv op i.w = false ∧
    canFetch (s.userMode i.core) (s.found i).pcx.toNat = true ∧
    (vHasExt op i.w = true → canFetch (s.userMode i.core) ((s.found i).pcx + 1).toNat = true) ∧
    (s.found i).trapDue = false

/-- The instruction does not lie at LE of the innermost hardware loop (R440). -/
abbrev OffLoopEnd (s : State) (i : Issue) : Prop := (s.found i).atLoopEnd (s.found i).shadow (s.found i).pcx = false

/-- A core past an instruction of so many words, with so many cycles counted: PCX is next, and the registers that were seen
late are late no more (R435). -/
def CoreSt.passed (k : CoreSt) (words cycles : Nat) : CoreSt :=
  { k with pcx := k.pcx + BitVec.ofNat 24 words, shadow := [], cyc := k.cyc + cycles }

/-- The state in which the instruction's core is `k` and nothing else has changed, the instant apart. -/
def State.with_ (s : State) (i : Issue) (k : CoreSt) : State :=
  (s.reach (s.time.t0 + i.at_)).modCore i.core fun _ => k

/-- The same after the loop-end test of the instruction (R439). -/
def State.done (s : State) (i : Issue) (k : CoreSt) : State :=
  s.with_ i (k.loopEnd (s.found i).shadow (s.found i).pcx)

/-- The state `t` that follows `s` once a register of a code has been written: a write of ST that brings core 3 to USER mode lets
its time there count again (R30, R446). -/
def State.resumed (s : State) (i : Issue) (code : Nat) (t : State) : State :=
  if code = 0x42 ∧ s.userMode 3 = false ∧ t.userMode 3 = true then
    { t with cpu := { t.cpu with userSince := some (s.reach (s.time.t0 + i.at_)).sinceT0 } }
  else t

/-- ST `new` is ST `old` with C, V, N, Z and DC as told (none: unchanged), L set with V, and every other bit as it was (R428). -/
structure StAs (old new : Word) (c v n z dc : Option Bool) : Prop where
  carry : stBit new 0 = c.getD (stBit old 0)
  overflow : stBit new 1 = v.getD (stBit old 1)
  negative : stBit new 2 = n.getD (stBit old 2)
  zero : stBit new 3 = z.getD (stBit old 3)
  sticky : stBit new 4 = (stBit old 4 || v == some true)
  decimal : stBit new 5 = dc.getD (stBit old 5)
  rest : ∀ j, 6 ≤ j → stBit new j = stBit old j

/-- A 24-bit result of the exact value `x` (R430): limited under SAT, else modulo 2^24, with V where it does not fit. -/
structure Fits24 (sat : Bool) (x : Int) (r : Word) (v : Bool) : Prop where
  exact : -8388608 ≤ x → x ≤ 8388607 → r.toInt = x ∧ v = false
  high : 8388607 < x → v = true ∧ (sat = true → r = 0x7FFFFF)
  low : x < -8388608 → v = true ∧ (sat = true → r = 0x800000)
  wrap : sat = false → r = BitVec.ofInt 24 x

/-- An accumulator result of the exact value `x` (R430): under SAT limited to the 48-bit range, with V where it was limited;
else modulo 2^56, with V where it does not fit 56 bits. -/
structure Fits56 (sat : Bool) (x : Int) (r : Acc) (v : Bool) : Prop where
  limited : sat = true → r.toInt = max (-140737488355328) (min 140737488355327 x) ∧ (v = true ↔ r.toInt ≠ x)
  wrapped : sat = false → r = BitVec.ofInt 56 x ∧ (v = true ↔ x < -36028797018963968 ∨ 36028797018963967 < x)

/-- Rounding to a whole number of AnU units, 2^24, ties to even (R431). -/
structure RoundsEven (x y : Int) : Prop where
  whole : y % 16777216 = 0
  near : -8388608 ≤ x - y ∧ x - y ≤ 8388608
  even : x - y = 8388608 ∨ x - y = -8388608 → y % 33554432 = 0

/-- The core with every result written that is still to come (R436). -/
def CoreSt.landed (k : CoreSt) : CoreSt := k.landWhere fun _ => true

/-- The stack has room for the two words of an entry, in memory that the core may write (R423, R438, R442). -/
abbrev EntryRoom (k : CoreSt) (user : Bool) : Prop :=
  plainRw user (k.sp - 1).toNat = true ∧ plainRw user (k.sp - 2).toNat = true ∧
    k.stackLow.toNat ≤ (k.sp - 1).toNat ∧ k.stackLow.toNat ≤ (k.sp - 2).toNat

/-- Entry to a vector (R442): from the state `s`, in which core `c` is `k`, to `t`. PCX `pc` and then ST are pushed, IE and LD
become 0, PCX is the vector's address; every other word of memory, register and core is as it was. -/
structure Entry (s t : State) (c : Nat) (k : CoreSt) (pc : Word) (vector : Nat) : Prop where
  pcx : (t.core c).pcx = BitVec.ofNat 24 vector
  sp : (t.core c).sp = k.sp - 2
  pushedPc : t.plainGet c (k.sp - 1).toNat = pc
  pushedSt : t.plainGet c (k.sp - 2).toNat = k.stRead
  memory : ∀ a, a ≠ (k.sp - 1).toNat → a ≠ (k.sp - 2).toNat → t.plainGet c a = s.plainGet c a
  ie : stBit (t.core c).st 7 = false
  ld : stLd (t.core c).st = 0
  rest : ∀ j, j < 7 ∨ 10 < j ∧ j ≠ 12 → stBit (t.core c).st j = stBit k.st j
  registers : (t.core c).g = k.g ∧ (t.core c).a = k.a ∧ (t.core c).j = k.j ∧ (t.core c).m = k.m ∧ (t.core c).k = k.k ∧
    (t.core c).l = k.l ∧ (t.core c).ph = k.ph ∧ (t.core c).pl = k.pl ∧ (t.core c).f = k.f ∧ (t.core c).ls = k.ls ∧
    (t.core c).le = k.le ∧ (t.core c).lc = k.lc ∧ (t.core c).nrep = k.nrep
  others : ∀ e, e ≠ c → t.core e = s.core e

/-- The inbox without the frame just taken. -/
def State.took (s : State) (l : List InFrame) : State := { s with net := { s.net with inbox := l } }

/-- In RUN a frame of a KIND is the first of the inbox, the frames `l` after it: it is for this device and passes the checks
(R335, R337); it carries no trailer, and AuthRequired asks for none (R406). -/
abbrev State.Arrives (s : State) (e : InFrame) (l : List InFrame) (kind : Nat) : Prop :=
  s.inRun = true ∧ s.net.inbox = e :: l ∧ forUs s e.bytes = true ∧ byteAt e.bytes 1 = kind ∧ netGood e.bytes = true ∧
    field e.bytes 8 2 < 50000 ∧ bit (byteAt e.bytes 2) 4 = false ∧ bit s.prot.required (kindAuth kind) = false

/-! ### Requests -/

/-- A request in a context executes: the dictionary engine serves, no submission and no request of an earlier path waits, the
context may be executing, and over MSPI the request is the next of the queue (R57, R69, R73, R543). -/
abbrev State.Serves (s : State) (c : Ctx) (op index sub len : Nat) (b : List Nat) : Prop :=
  engineTakes s c.path = true ∧ ctxOk s c = true ∧ (c.path = .mspi → mspiIs s c.tag op index sub len b = true)

/-- The state in which a write is judged: its instant, with what is due by then. -/
def State.meets (s : State) (c : Ctx) : State := (s.comeTo c).settle

/-- A write executes and passes every check of R53 but NEEDS_TWO_PARTY. -/
abbrev State.Passes (s : State) (c : Ctx) (index sub : Nat) (b : List Nat) : Prop :=
  s.Serves c 2 index sub b.length b ∧ firstRefused (writeRefusals (s.meets c) c index sub b false) = none

/-- The same of the write of a key with a value of so many bytes. -/
abbrev State.PassesKey (s : State) (c : Ctx) (k n v : Nat) : Prop := s.Passes c (k / 256) (k % 256) (toBytes n v)

/-- The keys that count requests (R80, R401). -/
def requestKeys : List Nat :=
  [K.hostAccessCounters_RequestsServed, K.hostAccessCounters_NotInStateCount, K.protection_ProtFlags, K.protection_NotAuthorisedCount]

/-- An integer within the range of a word. -/
abbrev Limits24 (r : Int × FExc) : Prop := -8388608 ≤ r.1 ∧ r.1 ≤ 8388607

/-- The G register a field of the word names. -/
def CoreSt.gOf (k : CoreSt) (w : Word) (hi lo : Nat) : Word := k.g.getD (fld w hi lo) 0

/-- Operand b of the ALU group: GB, or the extension word (R467). -/
def CoreSt.bOf (k : CoreSt) (i : Issue) (imm : Bool) : Word := if imm then i.x else k.gOf i.w 9 6

/-- GD and ST written. -/
def CoreSt.wrote (k : CoreSt) (w r st : Word) : CoreSt := { k with g := vecMod k.g (fld w 17 14) fun _ => r, st := st }

/-- A core past an ALU instruction, with or without an extension word. -/
def CoreSt.aluPassed (k : CoreSt) (imm : Bool) : CoreSt := if imm then k.passed 2 2 else k.passed 1 1

end Sys2Proof.Machine

namespace Sys2Proof

open Machine

/-- The parts of the state that a command may change; every other part stays as it is. -/
def Instr.parts : Instr → List Part
  | .tick _ =>
    [.dict, .streams, .silt, .host, .free, .time, .out, .cpu, .tmr, .rx, .slots, .nav, .erg, .sol, .ports, .net,
      .prot, .lake, .reader, .power, .boot]
  | .dumpReady | .userEntry _ | .tickNow _ _ | .descriptorComplete _ _ _ =>
    [.time, .cpu]
  | .budgetDeadline =>
    [.dict, .time, .cpu, .slots, .sol]
  | .hardStop | .userBudgetExhausted _ | .userHardStop _ =>
    [.dict, .time, .cpu]
  | .tickDone _ _ _ | .nop _ | .wait _ | .rts _ | .rti _ | .ei _ | .di _ | .mov _ | .ld _ | .st _ | .ldi _ | .ldis _
    | .lea _ | .add _ | .adc _ | .sub _ | .sbc _ | .cmp _ | .neg _ | .abs _ | .and _ | .or _ | .xor _ | .andn _
    | .not _ | .tst _ | .asl _ | .asr _ | .lsl _ | .lsr _ | .btst _ | .bset _ | .bclr _ | .btgl _ | .norm _ | .min _
    | .max _ | .maxx _ | .minx _ | .addd _ | .adcd _ | .subd _ | .sbcd _ | .mul _ | .imul _ | .umul _ | .mpy _
    | .mac _ | .msc _ | .mpyr _ | .macr _ | .imac _ | .aadd _ | .asub _ | .amov _ | .aneg _ | .aabs _ | .aclr _
    | .acmp _ | .rnd _ | .asat _ | .ash _ | .aget _ | .agets _ | .agetr _ | .maxm _ | .minm _ | .maxam _ | .b _
    | .jmp _ | .call _ | .jmpr _ | .callr _ | .loop _ | .loopr _ | .rep _ _ _ _ | .push _ | .pop _ | .fadd _ | .fsub _
    | .fmul _ | .fdiv _ | .fsqrt _ | .fneg _ | .fabs _ | .fmov _ | .fcmp _ | .fitof _ | .futof _ | .fftoi _ | .fqtof _
    | .fftoq _ | .fatof _ | .fftoa _ | .fld _ | .fst _ | .interruptEntry _ _ | .ncoCommit _ _ _ _ | .mailboxSend _ _ _
    | .dauGo _ _ _ | .ringHead _ _ _ _ | .undefinedInstruction _ =>
    [.dict, .time, .cpu, .tmr, .ports, .net]
  | .shedStep | .taskMigration _ | .slotStateChange _ | .pullInFailed _ | .lostTimeout _ | .crossCorrDrop _ =>
    [.dict, .cpu, .slots, .nav]
  | .status _ _ =>
    [.mspi, .time]
  | .read _ _ _ _ | .write _ _ _ _ | .streamRead _ _ _ _ | .snapshot _ _ _ | .writeRecord _ _ _ | .describe _ _ _ _
    | .pondseed _ _ | .calRequest _ _ | .release _ _ | .hostLeap _ _ | .retrain _ _ | .launchSubmit _ _
    | .remoteRequest _ _ | .messageSubmit _ _ | .channelOpen _ _ | .channelClose _ _ | .keeperHeld _
    | .fabricScopeWrite _ _ _ _ | .propose _ _ | .confirm _ _ | .cancel _ _ | .fieldOn _ _ | .fieldOff _ _
    | .transceive _ _ | .inventory _ _ | .calibrate _ | .scanCommand _ _ | .timerStart _ _ | .timerStartLateOk _ _
    | .timerStop _ _ | .groupStart _ _ | .captureRead _ _ | .powerModeSleep _ | .powerModeDeep _ | .powerModeOff _
    | .powerModeOasis _ | .powerModeNone _ | .resetWarm _ | .resetCold _ | .resetUpdate _ | .imageWrite _ _
    | .imageBegin _ | .imageRun _ | .imageStoreAndRun _ | .commission _ | .operate _ | .siltRecordRead _ _
    | .keeperHeldTimeout _ =>
    [.dict, .streams, .silt, .mspi, .host, .reply, .free, .time, .out, .cpu, .tmr, .rx, .slots, .erg, .sol, .ports,
      .net, .prot, .reader, .power, .boot]
  | .fetch _ _ =>
    [.mspi, .time, .power, .boot]
  | .mspiTransfer _ _ =>
    [.dict, .mspi, .reply, .time, .power, .boot]
  | .hostRequest _ _ _ _ | .txnRequest _ _ | .messageDelivery _ _ | .dauDone _ _ _ =>
    [.dict, .streams, .silt, .host, .reply, .free, .time, .out, .cpu, .tmr, .rx, .slots, .erg, .sol, .ports, .net,
      .prot, .reader, .power, .boot]
  | .sourceLost =>
    [.dict, .time, .sol]
  | .step =>
    [.dict, .streams, .silt, .time, .out, .cpu, .tmr, .rx, .slots, .nav, .erg, .sol, .ports, .net, .lake]
  | .reseed _ =>
    [.dict, .silt, .time]
  | .reseedTimeout _ | .referenceReturning _ | .phaseResidualMeasure _ _ _ | .estimateLoss _ =>
    [.dict, .time]
  | .referenceLost _ =>
    [.dict, .silt, .time, .sol, .reader, .power]
  | .referenceValid _ | .synthCalDone _ =>
    [.dict, .time, .reader]
  | .timePulseEdge _ _ | .clockRealign _ _ | .todMessage _ | .irigBFrame _ =>
    [.dict, .time, .out]
  | .pulseWidthEnd _ =>
    [.time, .out]
  | .antennaShort _ _ | .shortTrial _ _ _ | .loUnlock _ _ =>
    [.dict, .time, .rx]
  | .antennaSupplyLow _ _ | .supplyLowCleared _ _ | .antennaOpen _ _ | .openCleared _ _ | .agcBaselineLearned _
    | .notchSpectrum _ _ =>
    [.dict, .rx]
  | .calibrationStart | .calibrationEnd =>
    [.dict, .streams, .rx, .erg]
  | .calStepComplete _ _ _ =>
    [.dict, .silt, .time, .rx]
  | .chainFaultRetry _ | .spectrumAveragingStart =>
    [.rx]
  | .spectrumEntry _ =>
    [.dict, .streams, .rx]
  | .antennaSwitch | .antennaRevert =>
    [.dict, .streams, .cpu, .slots, .nav, .erg]
  | .laneRunStart _ | .autoListRefill _ =>
    [.dict, .erg]
  | .passDecision _ _ _ _ _ | .verification _ _ _ =>
    [.dict, .streams, .time, .erg]
  | .handoffLoad =>
    [.dict, .streams, .slots, .erg]
  | .noSlot =>
    [.dict, .streams, .erg]
  | .dumpLatch _ _ _ _ =>
    [.time, .slots]
  | .loopUpdate _ _ =>
    [.dict, .free, .time, .cpu, .slots, .nav, .ports, .net]
  | .aidedWindowUpdate _ _ =>
    [.dict, .free, .time, .cpu, .slots]
  | .parityFault _ _ =>
    [.dict, .slots]
  | .slotRetired _ =>
    [.dict, .silt, .cpu, .slots, .nav]
  | .histogramRestart _ =>
    [.slots]
  | .decodeComplete _ _ =>
    [.dict, .time, .slots, .nav]
  | .ephemerisExpired _ | .ethernetFrameReceived _ =>
    [.dict]
  | .predictedBlock _ _ _ _ _ | .lakeEphemeris _ =>
    [.dict, .time, .nav, .ports, .net]
  | .measurementEpoch _ | .lakeEpoch _ =>
    [.dict, .time, .sol, .ports, .net, .lake]
  | .solution _ =>
    [.dict, .streams, .silt, .free, .time, .erg, .sol, .ports]
  | .solutionSkipped | .surveyRestart _ =>
    [.dict, .sol]
  | .leapApplied =>
    [.dict, .silt]
  | .asymCalPeriod _ _ _ | .followUp _ _ =>
    [.dict, .ports]
  | .signalDetect _ | .los _ _ | .groupReferenceValid _ =>
    [.dict, .streams, .ports, .net]
  | .trainingComplete _ _ | .hello _ _ | .degradedRecovery _ | .fscopeApply =>
    [.dict, .ports, .net]
  | .autoModeSwitch _ _ =>
    [.time, .ports]
  | .trainFail _ _ | .trainRetry _ _ | .channelBroken _ _ | .messageAck _ =>
    [.dict, .streams, .time, .ports, .net]
  | .linkData _ _ _ | .lsa _ _ | .lsaRefresh _ | .networkFrameForward _ | .join _ | .joinResend _ | .grant _
    | .message _ | .messageResend _ _ | .keeperHold _ _ | .keeperTakeover _ | .streamData _ | .streamOpen _
    | .streamOpenAck _ | .streamAck _ | .streamResend _ | .fscopePropose _ | .fscopePrepare _ | .fscopeReadyDeadline _
    | .fscopeFetch _ =>
    [.dict, .time, .ports, .net]
  | .linkAck _ _ _ | .timingFrame _ _ _ | .syncInterval _ _ | .delayReqInterval _ _ | .announceReceiptTimeout _ _
    | .sync _ _ _ _ | .delayReq _ _ _ _ | .delayResp _ _ _ _ | .pdelayReq _ _ _ _ _ | .pdelayResp _ _ _ _
    | .announce _ _ _ _ =>
    [.dict, .time, .ports]
  | .nak _ _ _ | .ackTimeout _ _ =>
    [.dict, .streams, .silt, .time, .ports, .net]
  | .timingRecordPosted _ _ | .linkMissing _ =>
    [.dict, .time, .cpu, .ports]
  | .errorSecond _ _ =>
    [.dict, .streams, .silt, .ports, .net]
  | .announceInterval _ _ =>
    [.dict, .free, .time, .ports]
  | .frameLaunch _ _ =>
    [.dict, .streams, .time, .ports]
  | .lsaExpiry _ | .routeCompute _ =>
    [.time, .net]
  | .rootElection _ _ =>
    [.dict, .free, .time, .ports, .net, .lake]
  | .txnReply _ =>
    [.dict, .streams, .time, .cpu, .net]
  | .txnResend _ =>
    [.dict, .streams, .time, .cpu, .ports, .net]
  | .keeperRelease _ | .receiveRecordFree _ | .streamClose _ | .streamReset _ | .fscopeReady _ | .fscopeCommit _
    | .fscopeAbort _ | .fscopeValue _ | .fscopeLost _ =>
    [.dict, .time, .net]
  | .report _ | .cvObs _ | .subscribe _ =>
    [.dict, .time, .net, .lake]
  | .ensembleEpoch _ _ | .replica _ | .neighbours _ | .subscribeRenew _ | .rank _ =>
    [.dict, .time, .ports, .net, .lake]
  | .estimate _ =>
    [.dict, .silt, .time, .erg, .sol, .net, .lake]
  | .actingTakeover _ | .subscriptionExpiry _ =>
    [.dict, .time, .lake]
  | .sightings _ | .symbols _ =>
    [.dict, .time, .nav, .net]
  | .twoPartyExpired _ =>
    [.dict, .silt, .time, .prot]
  | .cardPoll _ _ _ _ _ _ _ =>
    [.dict, .streams, .silt, .reply, .time, .cpu, .tmr, .prot, .reader]
  | .pendingResultWrite _ _ =>
    [.dict, .cpu, .tmr, .ports, .net]
  | .selfCheck _ _ =>
    [.dict, .silt, .time, .cpu, .net, .boot]
  | .synthLock _ | .synthLockTimeout _ | .synthBusy _ | .fieldTimeout _ | .hardwareFieldTimeout _ | .dutyLimit _
    | .responseTimeout _ _ | .readerFrameReceived _ _ _ | .secondSof _ _ _ _ | .delayScan _ _ _ _ =>
    [.dict, .streams, .silt, .time, .reader]
  | .cardDetectBurst _ _ =>
    [.dict, .time, .reader, .power]
  | .countingBegins _ _ | .underflow _ _ | .compareMatch _ _ _ | .ctoPulseEnd _ _ | .capture _ _ _
    | .timerPinEdge _ _ _ =>
    [.dict, .time, .cpu, .tmr]
  | .entryAttempt _ _ _ | .oasisBurstEnd _ _ _ =>
    [.dict, .streams, .silt, .time, .out, .tmr, .slots, .erg, .sol, .ports, .net, .prot, .reader, .power]
  | .wake _ _ _ _ | .refLate =>
    [.dict, .silt, .time, .sol, .power]
  | .regulatorTimeout _ =>
    [.time, .out, .power]
  | .wakeRetry _ _ | .powerUp _ _ _ | .rstN _ _ _ =>
    [.dict, .streams, .silt, .mspi, .host, .time, .out, .cpu, .tmr, .rx, .slots, .nav, .erg, .sol, .ports, .net,
      .prot, .lake, .reader, .power, .boot, .jtag]
  | .oasisBurst _ =>
    [.dict, .time, .power]
  | .levelFail _ =>
    [.dict, .silt, .time, .power]
  | .watchdog | .flashWriteComplete _ =>
    [.dict, .boot]
  | .warmReset _ _ | .coldReset _ =>
    [.dict, .streams, .silt, .mspi, .host, .time, .out, .cpu, .tmr, .rx, .slots, .nav, .erg, .sol, .ports, .net,
      .prot, .lake, .reader, .power, .boot]
  | .supplyDrop _ _ =>
    [.dict, .streams, .silt, .time, .out, .rx, .ports, .net, .reader, .power, .boot]
  | .firmwareStart =>
    [.dict, .silt, .time, .out, .cpu, .rx, .slots, .nav, .sol, .ports, .net, .reader, .power, .boot]
  | .bootWaitExpiry =>
    [.ports, .boot]
  | .imageVerifyDone _ =>
    [.dict, .silt, .cpu, .ports, .boot]
  | .supplyReturn _ _ =>
    [.dict, .streams, .rx, .ports, .net]
  | .pllLock =>
    [.time, .power]
  | .pObjectsLoaded _ =>
    [.dict, .streams, .time, .out, .ports, .net]
  | .sightingExpiry _ =>
    [.dict, .time, .nav]
  | .epochStreamAppend =>
    [.dict, .streams, .sol]
  | .trstN _ | .tapClock _ _ =>
    [.jtag]

end Sys2Proof
end

