-- ==== Sys2Proof/Certificates/Slice0/Obligations.lean ====
section
/-!
DEFINITION. The statements of this row. A statement over several groups of commands is the conjunction of its claims, each a
definition of its own under Sys2Proof.Claims.
-/

open Sys2Proof Sys2Proof.Machine

/-- R467, with R430: ADD, ADC, SUB, SBC, NEG and ABS write GD with the exact result, limited under SAT, and Z, N, V and (ABS
apart) C; CMP writes flags alone. Everything else stays, but for PCX, the cycles, and the loop end of R439. -/
def Sys2Proof.Claims.AddSubtractCompare : Prop :=
  ∀ (s : State) (i : Issue) (imm : Bool),
    let k := s.found i
    let a := k.gOf i.w 13 10
    let b := k.bOf i imm
    let cin : Nat := if stBit k.st 0 then 1 else 0
    let writes (c : Instr) (x : Int) (carry : Option Bool) : Prop := ∃ r v st,
      exec c s = .next (s.done i ((k.aluPassed imm).wrote i.w r st)) ∧ Fits24 (stSat k.st) x r v ∧
        StAs k.st st carry (some v) (some r.msb) (some (r == 0)) none
    (Ready s i (.alu .add imm) → writes (.add i) (a.toInt + b.toInt) (some (decide (2 ^ 24 ≤ a.toNat + b.toNat)))) ∧
    (Ready s i (.alu .adc imm) →
      writes (.adc i) (a.toInt + b.toInt + cin) (some (decide (2 ^ 24 ≤ a.toNat + b.toNat + cin)))) ∧
    (Ready s i (.alu .sub imm) → writes (.sub i) (a.toInt - b.toInt) (some (decide (a.toNat < b.toNat)))) ∧
    (Ready s i (.alu .sbc imm) →
      writes (.sbc i) (a.toInt - b.toInt - cin) (some (decide (a.toNat < b.toNat + cin)))) ∧
    (imm = false → Ready s i (.alu .neg imm) → writes (.neg i) (-a.toInt) (some (decide (0 < a.toNat)))) ∧
    (imm = false → Ready s i (.alu .abs imm) → writes (.abs i) (a.toInt.natAbs : Int) none) ∧
    (Ready s i (.alu .cmp imm) → ∃ st, exec (.cmp i) s = .next (s.done i { k.aluPassed imm with st := st }) ∧
      StAs k.st st (some (decide (a.toNat < b.toNat)))
        (some (decide (a.toInt - b.toInt < -8388608 ∨ 8388607 < a.toInt - b.toInt))) (some (a - b).msb) (some (a == b)) none)

/-- R467: the logical operations write GD, Z and N, and clear V; TST writes flags alone. C stays. -/
def Sys2Proof.Claims.LogicalOperations : Prop :=
  ∀ (s : State) (i : Issue) (imm : Bool),
    let k := s.found i
    let a := k.gOf i.w 13 10
    let b := k.bOf i imm
    let flags (st r : Word) : Prop := StAs k.st st none (some false) (some r.msb) (some (r == 0)) none
    let writes (c : Instr) (r : Word) : Prop := ∃ st,
      exec c s = .next (s.done i ((k.aluPassed imm).wrote i.w r st)) ∧ flags st r
    (Ready s i (.alu .and imm) → writes (.and i) (a &&& b)) ∧
    (Ready s i (.alu .or imm) → writes (.or i) (a ||| b)) ∧
    (Ready s i (.alu .xor imm) → writes (.xor i) (a ^^^ b)) ∧
    (Ready s i (.alu .andn imm) → writes (.andn i) (a &&& ~~~b)) ∧
    (imm = false → Ready s i (.alu .not imm) → writes (.not i) (~~~a)) ∧
    (Ready s i (.alu .tst imm) → ∃ st, exec (.tst i) s = .next (s.done i { k.aluPassed imm with st := st }) ∧ flags st (a &&& b))

/-- R467: the shifts by s = b[5:0]. C takes the last bit shifted out, bits beyond the word counting as 0, or as the sign for
ASR; with s = 0 it stays. -/
def Sys2Proof.Claims.Shifts : Prop :=
  ∀ (s : State) (i : Issue) (imm : Bool),
    let k := s.found i
    let a := k.gOf i.w 13 10
    let n := (k.bOf i imm).toNat % 64
    let writes (c : Instr) (r : Word) (v : Option Bool) (last : Bool) : Prop := ∃ st,
      exec c s = .next (s.done i ((k.aluPassed imm).wrote i.w r st)) ∧
        StAs k.st st (if n = 0 then none else some last) v (some r.msb) (some (r == 0)) none
    let left : Bool := if n ≤ 24 then a.getLsbD (24 - n) else false
    (Ready s i (.alu .asl imm) → ∃ r v, Fits24 (stSat k.st) (a.toInt * 2 ^ n) r v ∧ writes (.asl i) r (some v) left) ∧
    (Ready s i (.alu .asr imm) → ∃ r : Word, r.toInt = a.toInt / 2 ^ n ∧
      writes (.asr i) r (some false) (if n ≤ 24 then a.getLsbD (n - 1) else a.msb)) ∧
    (Ready s i (.alu .lsl imm) → ∃ r : Word, r.toNat = a.toNat * 2 ^ n % 2 ^ 24 ∧ writes (.lsl i) r none left) ∧
    (Ready s i (.alu .lsr imm) → ∃ r : Word, r.toNat = a.toNat / 2 ^ n ∧
      writes (.lsr i) r none (if n ≤ 24 then a.getLsbD (n - 1) else false))

/-- Integer arithmetic, logic and shifts: results, flags and frame. Where the spec leaves it open, as log entry 34 of the
model says. -/
def Obligations.IntegerArithmetic : Prop :=
  Claims.AddSubtractCompare ∧ Claims.LogicalOperations ∧ Claims.Shifts

/-- R467: BTST, BSET, BCLR and BTGL on bit k = b[4:0], which does nothing to the word beyond bit 23; NORM counts the bits below
bit 23 that equal it before the first that differs; MIN and MAX compare as signed. -/
def Sys2Proof.Claims.BitsNormMinMax : Prop :=
  ∀ (s : State) (i : Issue) (imm : Bool),
    let k := s.found i
    let a := k.gOf i.w 13 10
    let b := k.bOf i imm
    let n := b.toNat % 32
    let writes (c : Instr) (r : Word) : Prop := ∃ st,
      exec c s = .next (s.done i ((k.aluPassed imm).wrote i.w r st)) ∧
        StAs k.st st none none (some r.msb) (some (r == 0)) none
    (Ready s i (.alu .btst imm) → ∃ st, exec (.btst i) s = .next (s.done i { k.aluPassed imm with st := st }) ∧
      StAs k.st st none none none (some (decide (23 < n ∨ a.getLsbD n = false))) none) ∧
    (Ready s i (.alu .bset imm) → ∃ r : Word, (∀ j, j < 24 → r.getLsbD j = (a.getLsbD j || j == n)) ∧ writes (.bset i) r) ∧
    (Ready s i (.alu .bclr imm) → ∃ r : Word, (∀ j, j < 24 → r.getLsbD j = (a.getLsbD j && j != n)) ∧ writes (.bclr i) r) ∧
    (Ready s i (.alu .btgl imm) → ∃ r : Word, (∀ j, j < 24 → r.getLsbD j = (a.getLsbD j ^^ j == n)) ∧ writes (.btgl i) r) ∧
    (imm = false → Ready s i (.alu .norm imm) → ∃ (r : Word) (st : Word),
      r.toNat ≤ 23 ∧ (∀ j, j < r.toNat → a.getLsbD (22 - j) = a.msb) ∧ (r.toNat < 23 → a.getLsbD (22 - r.toNat) ≠ a.msb) ∧
      exec (.norm i) s = .next (s.done i ((k.aluPassed imm).wrote i.w r st)) ∧
      StAs k.st st none none none (some (r == 0)) none) ∧
    (Ready s i (.alu .min imm) → ∃ r : Word, r.toInt = min a.toInt b.toInt ∧ writes (.min i) r) ∧
    (Ready s i (.alu .max imm) → ∃ r : Word, r.toInt = max a.toInt b.toInt ∧ writes (.max i) r)

/-- R468: the packed-decimal operations. A digit above 9 sets V and L and leaves GD; else DC takes the carry or borrow, a
result that carries is limited under SAT, and Z tells whether the result is 0. -/
def Sys2Proof.Claims.PackedDecimal : Prop :=
  ∀ (s : State) (i : Issue) (imm : Bool),
    let k := s.found i
    let a := k.gOf i.w 13 10
    let b := k.bOf i imm
    let decimal (w : Word) : Prop := ∀ j, j < 6 → w.toNat / 16 ^ j % 16 ≤ 9
    let dc : Int := if stBit k.st 5 then 1 else 0
    let meaning (c : Instr) (x : Int) (limit : Int) : Prop :=
      (decimal a ∧ decimal b → ∃ st, let carry := decide (x < 0 ∨ 1000000 ≤ x)
        let y := if carry && stSat k.st then limit else x % 1000000
        exec c s = .next (s.done i ((k.aluPassed imm).wrote i.w (bcd y.toNat) st)) ∧
        StAs k.st st none (some (carry && stSat k.st)) (some false) (some (decide (y = 0))) (some carry)) ∧
      (¬ (decimal a ∧ decimal b) → ∃ st, exec c s = .next (s.done i { k.aluPassed imm with st := st }) ∧
        StAs k.st st none (some true) none none none)
    (Ready s i (.alu .addd imm) → meaning (.addd i) (dec a + dec b) 999999) ∧
    (Ready s i (.alu .adcd imm) → meaning (.adcd i) (dec a + dec b + dc) 999999) ∧
    (Ready s i (.alu .subd imm) → meaning (.subd i) (dec a - dec b) 0) ∧
    (Ready s i (.alu .sbcd imm) → meaning (.sbcd i) (dec a - dec b - dc) 0)

/-- R469: MAXX and MINX keep a running extreme in G[d] and its index in G[d + 1]; C tells whether it was replaced. -/
def Sys2Proof.Claims.SearchWithIndex : Prop :=
  ∀ (s : State) (i : Issue) (imm : Bool),
    let k := s.found i
    let d := fld i.w 17 14
    let a := k.gOf i.w 13 10
    let b := k.bOf i imm
    let g := k.g.getD d 0
    let meaning (c : Instr) (beaten : Prop) : Prop :=
      (beaten → ∃ st, exec c s = .next (s.done i { k.aluPassed imm with
        g := vecMod (vecMod k.g d fun _ => a) (d + 1) fun _ => b, st := st }) ∧ StAs k.st st (some true) none none none none) ∧
      (¬ beaten → ∃ st, exec c s = .next (s.done i { k.aluPassed imm with st := st }) ∧
        StAs k.st st (some false) none none none none)
    (Ready s i (.alu .maxx imm) → meaning (.maxx i) (g.toInt < a.toInt)) ∧
    (Ready s i (.alu .minx imm) → meaning (.minx i) (a.toInt < g.toInt))

/-- Bit operations, extremes, packed decimal and search with index. Where the spec leaves it open, as log entry 34 of the
model says. -/
def Obligations.BitsDecimalSearch : Prop :=
  Claims.BitsNormMinMax ∧ Claims.PackedDecimal ∧ Claims.SearchWithIndex

/-- R470 with R435: the products. PH and PL take the 48-bit product, valid for instructions issued after 3 cycles; MUL of
0x80_0000 by itself overflows; flags are written at issue, V (and L) alone. -/
def Sys2Proof.Claims.Products : Prop :=
  ∀ (s : State) (i : Issue) (imm : Bool),
    let k := s.found i
    let a := k.gOf i.w 13 10
    let b := k.bOf i imm
    let gives (c : Instr) (p : BitVec 48) (v : Bool) : Prop := ∃ st,
      exec c s = .next (s.done i { k.aluPassed imm with
        st := st, exposed := k.exposed ++ [⟨4, p.setWidth 64, k.cyc + 3, 0, k.pcx, false⟩] }) ∧
        StAs k.st st none (some v) none none none
    (Ready s i (.alu .mul imm) →
      if a = 0x800000 ∧ b = 0x800000 then gives (.mul i) (if stSat k.st then 0x7FFFFFFFFFFF else 0x800000000000) true
      else gives (.mul i) (BitVec.ofInt 48 (2 * a.toInt * b.toInt)) false) ∧
    (Ready s i (.alu .imul imm) → gives (.imul i) (BitVec.ofInt 48 (a.toInt * b.toInt)) false) ∧
    (Ready s i (.alu .umul imm) → gives (.umul i) (BitVec.ofNat 48 (a.toNat * b.toNat)) false)

/-- R471 with R430 and R431: the accumulator operations that write AD. Z and N describe the 56-bit result, V tells overflow or
limiting, C stays. -/
def Sys2Proof.Claims.AccumulatorWrites : Prop :=
  ∀ (s : State) (i : Issue),
    let k := s.found i
    let ad := k.a.getD (fld i.w 17 16) 0
    let src := (k.a.getD (fld i.w 15 14) 0).toInt
    let a := (k.gOf i.w 13 10).toInt
    let p := 2 * a * (k.gOf i.w 9 6).toInt
    let takes (c : Instr) (r : Acc) (v : Bool) : Prop := ∃ st,
      exec c s = .next (s.done i { k.passed 1 1 with a := vecMod k.a (fld i.w 17 16) fun _ => r, st := st }) ∧
        StAs k.st st none (some v) (some r.msb) (some (r == 0)) none
    let writes (c : Instr) (x : Int) : Prop := ∃ r v, Fits56 (stSat k.st) x r v ∧ takes c r v
    let shift := max (-56) (min 56 a)
    (Ready s i (.acc .mpy) → writes (.mpy i) p) ∧
    (Ready s i (.acc .mac) → writes (.mac i) (ad.toInt + p)) ∧
    (Ready s i (.acc .msc) → writes (.msc i) (ad.toInt - p)) ∧
    (Ready s i (.acc .mpyr) → ∃ y, RoundsEven p y ∧ writes (.mpyr i) y) ∧
    (Ready s i (.acc .macr) → ∃ y, RoundsEven (ad.toInt + p) y ∧ writes (.macr i) y) ∧
    (Ready s i (.acc .imac) → writes (.imac i) (ad.toInt + a * (k.gOf i.w 9 6).toInt)) ∧
    (Ready s i (.acc .aadd) → writes (.aadd i) (ad.toInt + src)) ∧
    (Ready s i (.acc .asub) → writes (.asub i) (ad.toInt - src)) ∧
    (Ready s i (.acc .amov) → writes (.amov i) src) ∧
    (Ready s i (.acc .aneg) → writes (.aneg i) (-src)) ∧
    (Ready s i (.acc .aabs) → writes (.aabs i) (src.natAbs : Int)) ∧
    (Ready s i (.acc .aclr) → writes (.aclr i) 0) ∧
    (Ready s i (.acc .rnd) → ∃ y, RoundsEven src y ∧ writes (.rnd i) y) ∧
    (Ready s i (.acc .ash) →
      writes (.ash i) (if shift < 0 then src / 2 ^ (-shift).toNat else src * 2 ^ shift.toNat)) ∧
    (Ready s i (.acc .asat) → ∃ r : Acc, r.toInt = max (-140737488355328) (min 140737488355327 src) ∧
      takes (.asat i) r (decide (r.toInt ≠ src)))

/-- R471: ACMP sets the flags of AD − AS and writes nothing; AGET, AGETS and AGETR copy the upper word, as it stands, limited to
the 48-bit range, or rounded and then limited, to GA; V tells limiting, and AGET changes no flag. -/
def Sys2Proof.Claims.AccumulatorReads : Prop :=
  ∀ (s : State) (i : Issue),
    let k := s.found i
    let src := k.a.getD (fld i.w 15 14) 0
    let x := (k.a.getD (fld i.w 17 16) 0).toInt - src.toInt
    let lim (y : Int) : Int := max (-140737488355328) (min 140737488355327 y)
    let gives (c : Instr) (r : Word) (v : Option Bool) : Prop := ∃ st,
      exec c s = .next (s.done i { k.passed 1 1 with g := vecMod k.g (fld i.w 13 10) fun _ => r, st := st }) ∧
        StAs k.st st none v none none none
    (Ready s i (.acc .acmp) → ∃ st, exec (.acmp i) s = .next (s.done i { k.passed 1 1 with st := st }) ∧
      StAs k.st st none (some (decide (x < -36028797018963968 ∨ 36028797018963967 < x)))
        (some (BitVec.ofInt 56 x).msb) (some (BitVec.ofInt 56 x == 0)) none) ∧
    (Ready s i (.acc .aget) → gives (.aget i) (src.extractLsb' 24 24) none) ∧
    (Ready s i (.acc .agets) → gives (.agets i) ((BitVec.ofInt 56 (lim src.toInt)).extractLsb' 24 24)
      (some (decide (lim src.toInt ≠ src.toInt)))) ∧
    (Ready s i (.acc .agetr) → ∃ y, RoundsEven src.toInt y ∧
      gives (.agetr i) ((BitVec.ofInt 56 (lim y)).extractLsb' 24 24) (some (decide (lim y ≠ y))))

/-- Products and the accumulator instructions. Where the spec leaves it open, as log entries 34, 36 of the model say. -/
def Obligations.AccumulatorInstructions : Prop :=
  Claims.Products ∧ Claims.AccumulatorWrites ∧ Claims.AccumulatorReads

/-- R478 with R435 and R437: an operation of the floating-point group exposes its result, valid after its latency; the
exceptions set the sticky bits of FP_CTRL, and those it traps are kept with the result. FDIV and FSQRT set FBUSY, and wait
for the one in progress, whose result is then written first. -/
def Sys2Proof.Claims.FloatingPoint : Prop :=
  ∀ (s : State) (i : Issue) (o : FOp),
    let k := s.found i
    let d := fld i.w 17 16
    let gives (c : Instr) (k : CoreSt) (at_ lat : Nat) (busy : Bool) : Prop :=
      let r := fResult o (k.f.getD (fld i.w 15 14) 0) (k.f.getD (fld i.w 13 12) 0)
      exec c s = .next (s.done i { k.passed 1 0 with
        cyc := at_ + 1, fpCtrl := k.fpCtrl ||| BitVec.ofNat 24 (r.2 * 8),
        exposed := k.exposed ++ [⟨d, r.1, at_ + lat, Nat.land r.2 (k.fpCtrl.toNat % 8), (s.found i).pcx, busy⟩] })
    let slow (c : Instr) : Prop :=
      (k.fbusy = false → gives c k k.cyc 24 true) ∧
      (∀ e, k.exposed.filter (fun e => e.busy) = [e] → k.cyc ≤ e.due → gives c (k.landWhere fun e => e.busy) e.due 24 true)
    (o = .fadd → Ready s i (.fp o) → gives (.fadd i) k k.cyc 4 false) ∧
    (o = .fsub → Ready s i (.fp o) → gives (.fsub i) k k.cyc 4 false) ∧
    (o = .fmul → Ready s i (.fp o) → gives (.fmul i) k k.cyc 5 false) ∧
    (o = .fneg → Ready s i (.fp o) → gives (.fneg i) k k.cyc 4 false) ∧
    (o = .fabs → Ready s i (.fp o) → gives (.fabs i) k k.cyc 4 false) ∧
    (o = .fmov → Ready s i (.fp o) → gives (.fmov i) k k.cyc 4 false) ∧
    (o = .fdiv → Ready s i (.fp o) → slow (.fdiv i)) ∧
    (o = .fsqrt → Ready s i (.fp o) → slow (.fsqrt i))

/-- R478: FCMP writes Z, N and C at once and clears V; INVALID on a signalling NaN sets its sticky bit and, where it traps,
becomes due at the next boundary. -/
def Sys2Proof.Claims.FloatCompare : Prop :=
  ∀ (s : State) (i : Issue),
    let k := s.found i
    let a := k.f.getD (fld i.w 15 14) 0
    let b := k.f.getD (fld i.w 13 12) 0
    let nan (x : FReg) : Prop := x.toNat / 2 ^ 52 % 2048 = 2047 ∧ x.toNat % 2 ^ 52 ≠ 0
    let quiet (x : FReg) : Prop := nan x ∧ x.getLsbD 51 = true
    Ready s i (.fp .fcmp) →
      ∃ st fpCtrl due, exec (.fcmp i) s = .next (s.done i { k.passed 1 1 with st := st, fpCtrl := fpCtrl, fpuDue := due }) ∧
        (nan a ∨ nan b → StAs k.st st (some true) (some false) (some false) (some false) none) ∧
        (a = b → ¬ nan a → StAs k.st st (some false) (some false) (some false) (some true) none) ∧
        ((nan a → quiet a) ∧ (nan b → quiet b) → fpCtrl = k.fpCtrl ∧ due = k.fpuDue) ∧
        ((nan a ∧ ¬ quiet a) ∨ (nan b ∧ ¬ quiet b) →
          fpCtrl = k.fpCtrl ||| 0x000008 ∧ due = k.fpuDue ++ if k.fpCtrl.getLsbD 0 then [k.pcx] else [])

/-- R478: of the results: FNEG and FABS act on the sign of what is no NaN and FMOV copies it, without exceptions; every NaN
operand gives the NaN 0x7FF8_0000_0000_0000; division of a finite number that is not 0 by 0 is DIVZERO and gives an
infinity; the square root of a negative number is INVALID. -/
def Sys2Proof.Claims.FloatResults : Prop :=
  ∀ (a b : FReg),
    let nan (x : FReg) : Prop := x.toNat / 2 ^ 52 % 2048 = 2047 ∧ x.toNat % 2 ^ 52 ≠ 0
    let finite (x : FReg) : Prop := x.toNat / 2 ^ 52 % 2048 ≠ 2047
    (¬ nan a → fResult .fneg a b = (a ^^^ 0x8000000000000000, 0) ∧ fResult .fabs a b = (a &&& 0x7FFFFFFFFFFFFFFF, 0) ∧
      fResult .fmov a b = (a, 0)) ∧
    (nan a ∨ nan b → ∀ o, o = .fadd ∨ o = .fsub ∨ o = .fmul ∨ o = .fdiv → (fResult o a b).1 = 0x7FF8000000000000) ∧
    (nan a → ∀ o, (fResult o a b).1 = 0x7FF8000000000000) ∧
    (finite a → a.toNat % 2 ^ 63 ≠ 0 → b.toNat % 2 ^ 63 = 0 →
      fResult .fdiv a b = (if a.msb != b.msb then 0xFFF0000000000000 else 0x7FF0000000000000, 2)) ∧
    (finite a → a.msb = true → a.toNat % 2 ^ 63 ≠ 0 → fResult .fsqrt a b = (0x7FF8000000000000, 1))

/-- R479: the conversions. Those to F expose their result for 4 cycles; those to G and A are limited to their range, give 0
for a NaN with INVALID, and take 4 cycles. -/
def Sys2Proof.Claims.Conversions : Prop :=
  ∀ (s : State) (i : Issue),
    let k := s.found i
    let f := fld i.w 17 16
    let g := k.gOf i.w 13 10
    let a := k.a.getD (fld i.w 15 14) 0
    let x := k.f.getD f 0
    let float (c : Instr) (r : FReg × FExc) : Prop :=
      exec c s = .next (s.done i { k.passed 1 1 with
        fpCtrl := k.fpCtrl ||| BitVec.ofNat 24 (r.2 * 8),
        exposed := k.exposed ++ [⟨f, r.1, k.cyc + 4, Nat.land r.2 (k.fpCtrl.toNat % 8), k.pcx, false⟩] })
    let fixed (c : Instr) (k' : CoreSt) (e : FExc) : Prop :=
      exec c s = .next (s.done i { k' with
        fpCtrl := k.fpCtrl ||| BitVec.ofNat 24 (e * 8),
        fpuDue := if Nat.land e (k.fpCtrl.toNat % 8) = 0 then k.fpuDue else k.fpuDue ++ [k.pcx] })
    let word (r : Int × FExc) : CoreSt := { k.passed 1 4 with g := vecMod k.g (fld i.w 13 10) fun _ => BitVec.ofInt 24 r.1 }
    (Ready s i (.fcv .fitof) → float (.fitof i) (fOfInt g.toInt 0 false)) ∧
    (Ready s i (.fcv .futof) → float (.futof i) (fOfInt g.toNat 0 false)) ∧
    (Ready s i (.fcv .fqtof) → float (.fqtof i) (fOfInt g.toInt (-23) false)) ∧
    (Ready s i (.fcv .fatof) → float (.fatof i) (fOfInt a.toInt (-47) false)) ∧
    (Ready s i (.fcv .fftoi) → ∃ r, Limits24 r ∧ r = fToInt x 0 (-8388608) 8388607 ∧ fixed (.fftoi i) (word r) r.2) ∧
    (Ready s i (.fcv .fftoq) → ∃ r, Limits24 r ∧ r = fToInt x 23 (-8388608) 8388607 ∧ fixed (.fftoq i) (word r) r.2) ∧
    (Ready s i (.fcv .fftoa) → ∃ r, (stSat k.st = true → -140737488355328 ≤ r.1 ∧ r.1 ≤ 140737488355327) ∧
      r = (if stSat k.st then fToInt x 47 (-140737488355328) 140737488355327
        else fToInt x 47 (-36028797018963968) 36028797018963967) ∧
      fixed (.fftoa i) { k.passed 1 4 with a := vecMod k.a (fld i.w 15 14) fun _ => BitVec.ofInt 56 r.1 } r.2)

/-- The floating-point group: results, exceptions, latencies, conversions. Where the spec leaves it open, as log entries 34,
36, 39, 40 of the model say. -/
def Obligations.FloatingPointUnit : Prop :=
  Claims.FloatingPoint ∧ Claims.FloatCompare ∧ Claims.FloatResults ∧ Claims.Conversions

/-- R459: what a register code reads after it is written. Those read and written whole give the word back; an accumulator takes
it as R429 gives; AnX takes 8 bits, AnU its middle word, and NREP 12 bits; and no other code of the general, address,
modifier, base, length and accumulator registers changes but the parts of the accumulator written. -/
def Sys2Proof.Claims.RegisterCodes : Prop :=
  ∀ (k : CoreSt) (core c : Nat) (w : Word), regListed c = true → c ≠ 0x42 →
    ∃ k', k.writeReg core c w = .ok k' ∧ k'.mem = k.mem ∧ k'.st = k.st ∧
      (c < 0x34 ∨ 0x38 ≤ c → c ≠ 0x45 → k'.readReg c = w) ∧
      (c = 0x45 → (k'.readReg c).toNat = w.toNat % 4096) ∧
      (∀ n : Fin 4, c = 0x30 + n.val → k'.a[n] = (w.signExtend 32 ++ (0 : BitVec 24) : BitVec 56)) ∧
      (∀ n : Fin 4, c = 0x34 + n.val → k'.a[n] = (w.extractLsb' 0 8 ++ k.a[n].extractLsb' 0 48 : BitVec 56)) ∧
      (∀ n : Fin 4, c = 0x38 + n.val → k'.a[n] = (k.a[n].extractLsb' 24 32 ++ w : BitVec 56)) ∧
      (∀ n : Fin 4, c = 0x3C + n.val → k'.a[n] = (k.a[n].extractLsb' 48 8 ++ w ++ k.a[n].extractLsb' 0 24 : BitVec 56)) ∧
      (∀ d, d < 0x30 → d ≠ c → k'.readReg d = k.readReg d) ∧
      (∀ n : Fin 4, c ≠ 0x30 + n.val → c ≠ 0x34 + n.val → c ≠ 0x38 + n.val → c ≠ 0x3C + n.val → k'.a[n] = k.a[n])

/-- R465: MOV, LDI, LDIS and LEA write the register they name with the register, the extension word, the immediate or the
address. MOV reads PCX as next; no flag changes but by a write to ST, which, where it brings core 3 to USER mode, lets its time there
count (R30). -/
def Sys2Proof.Claims.Moves : Prop :=
  ∀ (s : State) (i : Issue),
    let k := s.found i
    let dst := fld i.w 17 11
    let writes (c : Instr) (k : CoreSt) (dst : Nat) (v : Word) : Prop :=
      ∀ k', k.writeReg i.core dst v = .ok k' → exec c s = .next (s.resumed i dst (s.done i k'))
    let words := if fld i.w 8 6 = 5 ∨ fld i.w 8 6 = 7 then 2 else 1
    let ea := k.ea k.shadow i.w i.x
    (Ready s i .mov → (dst ≠ 0x44 ∨ OffLoopEnd s i) →
      writes (.mov i) (k.passed 1 1) dst ((k.passed 1 1).readReg (fld i.w 10 4))) ∧
    (Ready s i .ldi → (dst ≠ 0x44 ∨ OffLoopEnd s i) → writes (.ldi i) (k.passed 2 2) dst i.x) ∧
    (Ready s i .ldis → (dst ≠ 0x44 ∨ OffLoopEnd s i) →
      writes (.ldis i) (k.passed 1 1) dst ((i.w.extractLsb' 0 11).signExtend 24)) ∧
    (Ready s i .lea →
      writes (.lea i) ((k.passed words words).modify k.shadow ea.2) (0x10 + fld i.w 17 15) ea.1)

/-- Register codes as they are read and written, and the moves. Where the spec leaves it open, as log entry 34 of the model
says. -/
def Obligations.MovesAndRegisterCodes : Prop :=
  Claims.RegisterCodes ∧ Claims.Moves

/-- R432 to R434: the address a mode uses and the value it leaves in Jn, from the registers as addressing sees them (R435). -/
def Sys2Proof.Claims.AddressModes : Prop :=
  ∀ (k : CoreSt) (sh : List (Nat × Word)) (w x : Word),
    let n := fld w 5 3
    let j := k.late sh (0x10 + n)
    let m := k.late sh (0x18 + fld w 2 0)
    let base := k.late sh (0x20 + n)
    let len := k.late sh (0x28 + n)
    let mode := fld w 8 6
    let circular (d : Int) : Prop := ∃ v : Word, k.ea sh w x = (j, some (n, v)) ∧
      (len.toNat = 0 → v = BitVec.ofInt 24 (j.toNat + d)) ∧
      (len.toNat ≠ 0 → v = BitVec.ofInt 24 (base.toNat + ((j.toNat : Int) - base.toNat + d) % len.toNat))
    (mode = 0 → k.ea sh w x = (j, none)) ∧
    (mode = 1 → circular 1) ∧
    (mode = 2 → circular (-1)) ∧
    (mode = 3 → circular m.toInt) ∧
    (mode = 4 → k.ea sh w x = (j + m, none)) ∧
    (mode = 5 → k.ea sh w x = (j + x, none)) ∧
    (mode = 6 → ∃ v : Word, k.ea sh w x = (j, some (n, v)) ∧ v.reverse = j.reverse + m.reverse) ∧
    (mode = 7 → k.ea sh w x = (x, none))

/-- R465, R466, R469, R480 with R423: a read of memory the core may read. LD writes the register after the address modify; MAXM,
MINM and MAXAM search; FLD takes three words, a result pending for its register being written first (R484). -/
def Sys2Proof.Claims.MemoryReads : Prop :=
  ∀ (s : State) (i : Issue),
    let k := s.found i
    let n := if fld i.w 8 6 = 5 ∨ fld i.w 8 6 = 7 then 2 else 1
    let ea := k.ea k.shadow i.w i.x
    let a := ea.1.toNat
    let at_ (a : Nat) : Word := if a ≤ 0xFFFF then SMap.get 0 a k.mem else SMap.get 0 a s.cpu.shared
    let free (a : Nat) : Prop := plainRw (s.userMode i.core) a = true ∨ 0x2F8000 ≤ a ∧ a ≤ 0x2F83FF
    let k1 := (k.passed n (n - 1 + accessCycles a)).modify k.shadow ea.2
    let d := fld i.w 17 14
    let g := (k.g.getD d 0).toInt
    let search (c : Instr) (v : Word) (beaten : Prop) : Prop :=
      (beaten → ∃ st, exec c s = .next (s.done i { k1 with
        g := vecMod (vecMod k.g d fun _ => v) (d + 1) fun _ => ea.1, st := st }) ∧ StAs k.st st (some true) none none none none) ∧
      (¬ beaten → ∃ st, exec c s = .next (s.done i { k1 with st := st }) ∧ StAs k.st st (some false) none none none none)
    let mag : Word := if (at_ a).toInt < 0 then BitVec.ofInt 24 (min 8388607 (-(at_ a).toInt)) else at_ a
    (Ready s i .ld → (fld i.w 17 11 ≠ 0x44 ∨ OffLoopEnd s i) → free a →
      ∀ k', k1.writeReg i.core (fld i.w 17 11) (at_ a) = .ok k' →
        exec (.ld i) s = .next (s.resumed i (fld i.w 17 11) (s.done i k'))) ∧
    (Ready s i .maxm → free a → search (.maxm i) (at_ a) (g < (at_ a).toInt)) ∧
    (Ready s i .minm → free a → search (.minm i) (at_ a) ((at_ a).toInt < g)) ∧
    (Ready s i .maxam → free a → search (.maxam i) mag (g < mag.toInt)) ∧
    (Ready s i .fld → free a → free (ea.1 + 1).toNat → free (ea.1 + 2).toNat →
      let f := fld i.w 17 16
      let k2 := (((k.passed n (n - 1 + accessCycles a + accessCycles (ea.1 + 1).toNat + accessCycles (ea.1 + 2).toNat)).modify
        k.shadow ea.2).landWhere fun e => e.dest == f)
      exec (.fld i) s = .next (s.done i { k2 with f := vecMod k2.f f fun _ =>
        ((at_ a).extractLsb' 0 16 ++ at_ (ea.1 + 1).toNat ++ at_ (ea.1 + 2).toNat : BitVec 64) }))

/-- R465, R480 with R423: a write of memory the core may write: ST its word, FST three words, the first with bits 23 to 16 zero.
Every other word of memory stays. -/
def Sys2Proof.Claims.MemoryWrites : Prop :=
  ∀ (s : State) (i : Issue),
    let k := s.found i
    let n := if fld i.w 8 6 = 5 ∨ fld i.w 8 6 = 7 then 2 else 1
    let ea := k.ea k.shadow i.w i.x
    let free (a : Word) : Prop := plainRw (s.userMode i.core) a.toNat = true
    let stores (c : Instr) (l : List (Word × Word)) : Prop := ∃ t,
      exec c s = .next t ∧ t = (l.foldl (fun t p => t.plainSet i.core p.1.toNat p.2)
        (s.with_ i ((k.passed n (n - 1 + (l.map fun p => accessCycles p.1.toNat).sum)).modify k.shadow ea.2))).modCore i.core
          (fun k' => k'.loopEnd k.shadow k.pcx) ∧
      ∀ a, (∀ p ∈ l, a ≠ p.1.toNat) → t.plainGet i.core a = s.plainGet i.core a
    let v := k.f.getD (fld i.w 17 16) 0
    (s.cpu.MemOk → Ready s i .st → free ea.1 → stores (.st i) [(ea.1, (k.passed n 0).readReg (fld i.w 17 11))]) ∧
    (s.cpu.MemOk → Ready s i .fst → free ea.1 → free (ea.1 + 1) → free (ea.1 + 2) → stores (.fst i)
      [(ea.1, BitVec.ofNat 24 (v.toNat / 2 ^ 48)), (ea.1 + 1, v.extractLsb' 24 24), (ea.1 + 2, v.extractLsb' 0 24)])

/-- R438, R465: PUSH writes the word below SP, which must not lie below STACK_LOW; POP reads the word at SP, which must lie below
STACK_HIGH. PUSH SP stores SP as it was; POP SP leaves the word read. -/
def Sys2Proof.Claims.PushPop : Prop :=
  ∀ (s : State) (i : Issue),
    let k := s.found i
    let a := k.sp - 1
    let free (a : Word) : Prop := plainRw (s.userMode i.core) a.toNat = true
    let v := if k.sp.toNat ≤ 0xFFFF then SMap.get 0 k.sp.toNat k.mem else SMap.get 0 k.sp.toNat s.cpu.shared
    (Ready s i .push → free a → k.stackLow.toNat ≤ a.toNat →
      exec (.push i) s = .next (((s.with_ i (k.passed 1 (accessCycles a.toNat))).plainSet i.core a.toNat
        ((k.passed 1 0).readReg (fld i.w 17 11))).modCore i.core fun k' => { k' with sp := a }.loopEnd k.shadow k.pcx)) ∧
    (Ready s i .pop → (fld i.w 17 11 ≠ 0x44 ∨ OffLoopEnd s i) → free k.sp →
      k.sp.toNat < k.stackHigh.toNat →
      ∀ k', { k.passed 1 (accessCycles k.sp.toNat) with sp := k.sp + 1 }.writeReg i.core (fld i.w 17 11) v = .ok k' →
        exec (.pop i) s = .next (s.resumed i (fld i.w 17 11) (s.done i k')))

/-- Address modes, loads, stores and the stack. Where the spec leaves it open, as log entries 6, 34, 35, 44 of the model say.
-/
def Obligations.MemoryAccess : Prop :=
  Claims.AddressModes ∧ Claims.MemoryReads ∧ Claims.MemoryWrites ∧ Claims.PushPop

/-- R472, R461: branches and jumps away from a loop end. Where the condition holds PCX takes the target, in 3 cycles, or 4 with an extension word; else the
next instruction follows. The tests are those of ST as it reads. -/
def Sys2Proof.Claims.Branches : Prop :=
  ∀ (s : State) (i : Issue),
    let k := s.found i
    let holds (c : Nat) : Prop :=
      let st := k.stRead
      let C := st.getLsbD 0; let V := st.getLsbD 1; let N := st.getLsbD 2; let Z := st.getLsbD 3; let L := st.getLsbD 4
      (c = 0 ∨ c = 1 ∧ Z ∨ c = 2 ∧ !Z ∨ c = 3 ∧ N ∨ c = 4 ∧ !N ∨ c = 5 ∧ V ∨ c = 6 ∧ !V ∨ c = 7 ∧ C ∨ c = 8 ∧ !C) ∨
      (c = 9 ∧ !Z ∧ N = V ∨ c = 10 ∧ N = V ∨ c = 11 ∧ N ≠ V ∨ c = 12 ∧ (Z ∨ N ≠ V) ∨ c = 13 ∧ !C ∧ !Z ∨ c = 14 ∧ (C ∨ Z) ∨
        c = 15 ∧ L)
    let jumps (c : Instr) (cond words : Nat) (target : Word) : Prop :=
      (holds cond → exec c s = .next (s.done i { k.passed words (words + 2) with pcx := target })) ∧
      (¬ holds cond → exec c s = .next (s.done i (k.passed words words)))
    OffLoopEnd s i →
      (Ready s i .b → jumps (.b i) (fld i.w 17 14) 1 (k.pcx + 1 + (i.w.extractLsb' 0 14).signExtend 24)) ∧
      (Ready s i .jmp → jumps (.jmp i) (fld i.w 17 14) 2 i.x) ∧
      (Ready s i .jmpr → jumps (.jmpr i) (fld i.w 13 10) 1 (k.gOf i.w 17 14))

/-- R472, R438: a call taken pushes next and jumps; not taken, the next instruction follows. RTS pops PCX; RTI pops ST and then
PCX, and the outermost one on a core that the deadline has stopped returns into WAIT (R448). -/
def Sys2Proof.Claims.CallsAndReturns : Prop :=
  ∀ (s : State) (i : Issue),
    let k := s.found i
    let a := k.sp - 1
    let free (a : Word) : Prop := plainRw (s.userMode i.core) a.toNat = true
    let at_ (a : Word) : Word := if a.toNat ≤ 0xFFFF then SMap.get 0 a.toNat k.mem else SMap.get 0 a.toNat s.cpu.shared
    let calls (c : Instr) (cond words : Nat) (target : Word) : Prop :=
      (condHolds cond k.stRead = true → free a → k.stackLow.toNat ≤ a.toNat →
        exec c s = .next (((s.with_ i (k.passed words (words + 1 + accessCycles a.toNat))).plainSet i.core a.toNat
          (k.pcx + BitVec.ofNat 24 words)).modCore i.core fun k' =>
            { k' with sp := a, pcx := target }.loopEnd k.shadow k.pcx)) ∧
      (condHolds cond k.stRead = false → exec c s = .next (s.done i (k.passed words words)))
    OffLoopEnd s i →
      (Ready s i .call → calls (.call i) (fld i.w 17 14) 2 i.x) ∧
      (Ready s i .callr → calls (.callr i) (fld i.w 13 10) 1 (k.gOf i.w 17 14)) ∧
      (Ready s i .rts → free k.sp → k.sp.toNat < k.stackHigh.toNat →
        exec (.rts i) s = .next (s.done i { k.passed 1 (2 + accessCycles k.sp.toNat) with
          sp := k.sp + 1, pcx := at_ k.sp })) ∧
      (Ready s i .rti → free k.sp → free (k.sp + 1) → k.sp.toNat < k.stackHigh.toNat → (k.sp + 1).toNat < k.stackHigh.toNat →
        (stUser k.st = true → stUser (stWritten i.core (at_ k.sp)) = true) →
        exec (.rti i) s = .next (s.resumed i 0x42 (s.done i
          { k.passed 1 (2 + accessCycles k.sp.toNat + accessCycles (k.sp + 1).toNat) with
            sp := k.sp + 1 + 1, st := stWritten i.core (at_ k.sp), pcx := at_ (k.sp + 1),
            stopped := k.stopped.map fun n => n - 1, waiting := k.waiting || k.stopped == some 1 })))

/-- Branches, jumps, calls and returns. Where the spec leaves it open, as log entries 34, 35 of the model say. -/
def Obligations.ProgramFlow : Prop :=
  Claims.Branches ∧ Claims.CallsAndReturns

/-- R472, R439, R474: NOP, EI and DI, and the test of the loop end that every instruction meets: at LE of the innermost level
a count above 1 is counted down and PCX goes back to LS, else the level ends; elsewhere nothing more happens. -/
def Sys2Proof.Claims.NopAndLoopEnd : Prop :=
  ∀ (s : State) (i : Issue),
    let k := s.found i
    (Ready s i .ei → ∃ st, exec (.ei i) s = .next (s.done i { k.passed 1 1 with st := st }) ∧
      stBit st 7 = true ∧ ∀ j, j ≠ 7 → stBit st j = stBit k.st j) ∧
    (Ready s i .di → ∃ st, exec (.di i) s = .next (s.done i { k.passed 1 1 with st := st }) ∧
      stBit st 7 = false ∧ ∀ j, j ≠ 7 → stBit st j = stBit k.st j) ∧
    (Ready s i .nop → exec (.nop i) s = .next (s.done i (k.passed 1 1))) ∧
    (k.shadow = [] → stLd k.st = 0 → Ready s i .nop → exec (.nop i) s = .next (s.with_ i (k.passed 1 1))) ∧
    (∀ n : Fin 4, k.shadow = [] → stLd k.st = n.val + 1 → Ready s i .nop →
      (k.le[n] ≠ k.pcx → exec (.nop i) s = .next (s.with_ i (k.passed 1 1))) ∧
      (k.le[n] = k.pcx → 1 < k.lc[n].toNat → exec (.nop i) s = .next (s.with_ i { k.passed 1 1 with
        lc := vecMod k.lc n.val fun v => v - 1, pcx := k.ls[n] })) ∧
      (k.le[n] = k.pcx → k.lc[n].toNat ≤ 1 → ∃ st, exec (.nop i) s = .next (s.with_ i { k.passed 1 1 with st := st }) ∧
        stLd st = n.val ∧ ∀ j, j < 8 ∨ 10 < j → stBit st j = stBit k.st j))

/-- R473, R439: LOOP and LOOPR open a level with LS at next, LE from the extension word and the count; with a count of 0 the body
is skipped, whose last instruction is the one at LE. -/
def Sys2Proof.Claims.Loops : Prop :=
  ∀ (s : State) (i : Issue),
    let k := s.found i
    let ld := stLd k.st
    let opens (c : Instr) (n : Nat) : Prop :=
      (n ≠ 0 → ld < 4 → ∃ st, exec c s = .next (s.done i { k.passed 2 3 with
          ls := vecMod k.ls ld fun _ => k.pcx + 2, le := vecMod k.le ld fun _ => i.x,
          lc := vecMod k.lc ld fun _ => BitVec.ofNat 24 n, st := st }) ∧
        stLd st = ld + 1 ∧ ∀ j, j < 8 ∨ 10 < j → stBit st j = stBit k.st j) ∧
      (n = 0 → ld < 4 → ∃ e : Nat,
        (e = 1 ↔ ∃ op, vDecode (SMap.get 0 i.x.toNat k.mem) = some op ∧ vHasExt op (SMap.get 0 i.x.toNat k.mem) = true) ∧ e ≤ 1 ∧
        exec c s = .next (s.done i { k.passed 2 5 with pcx := i.x + 1 + BitVec.ofNat 24 e }))
    OffLoopEnd s i →
      (Ready s i .loop → opens (.loop i) (fld i.w 17 6)) ∧
      (Ready s i .loopr → opens (.loopr i) (k.gOf i.w 17 14).toNat)

/-- R475, R483, R33: REP with the instruction that follows it. With a count of 0 that instruction is passed over; else it is executed
so many times, here NOP: NREP ends at 0, and the loop end is tested once. The hard stop of the tick halts the core within the
repeat, and NREP holds the repetitions not executed. -/
def Sys2Proof.Claims.Repeat : Prop :=
  ∀ (s : State) (i : Issue) (w2 x2 : Word) (cut : Option Nat),
    let k := s.found i
    let user := s.userMode i.core
    let stops : Prop := s.cpu.hard = false ∧ (s.cpu.window = true ∨ s.cpu.guard = true) ∧ k.waited = false
    let n := if fld i.w 17 6 ≠ 0 then fld i.w 17 6 else k.nrep.toNat
    Ready s i .rep → OffLoopEnd s i → canFetch user (k.pcx + 1).toNat = true →
      (∀ op, vDecode w2 = some op → vResv op w2 = false → vNoRepeat op w2 = false → n = 0 →
        exec (.rep i w2 x2 cut) s = .next (s.with_ i { k with
          nrep := 0, shadow := [], cyc := k.cyc + 2, pcx := if vHasExt op w2 then k.pcx + 1 + 2 else k.pcx + 1 + 1 })) ∧
      (k.exposed = [] → stLd k.st = 0 → w2 = 0 → n ≠ 0 → (∀ m, cut = some m → stops → n ≤ m) →
        exec (.rep i w2 x2 cut) s = .next (s.with_ i { k with
          nrep := 0, shadow := [], cyc := k.cyc + 1 + n, pcx := k.pcx + 1 + 1 })) ∧
      (∀ m, cut = some m → stops → m < n → k.exposed = [] → w2 = 0 → ∃ t, exec (.rep i w2 x2 cut) s = .next t ∧
        (t.core i.core).nrep = BitVec.ofNat 24 (n - m) ∧ t.get (K.coreTick_CoreState i.core) = 1)

/-- R25, R448: WAIT leaves PCX at the WAIT, ends the core's work for the tick, and stops the core until TICK or an interrupt; user
time stops. -/
def Sys2Proof.Claims.Wait : Prop :=
  ∀ (s : State) (i : Issue), Ready s i .wait → OffLoopEnd s i →
    ∃ t, exec (.wait i) s = .next t ∧ (t.core i.core).waiting = true ∧ (t.core i.core).waited = true ∧
      (t.core i.core).g = (s.found i).g ∧ (t.core i.core).a = (s.found i).a ∧ (t.core i.core).mem = (s.found i).mem ∧
      (t.core i.core).sp = (s.found i).sp ∧ (t.core i.core).st = (s.found i).st ∧
      (t.core i.core).pcx = (s.found i).pcx ∧
      (s.userMode i.core = true → t.cpu.userSince = none) ∧ t.coreActive i.core = false ∧
      (∀ c, c ≠ i.core → t.core c = s.core c) ∧ t.dict = s.dict ∧ t.cpu.shared = s.cpu.shared

/-- NOP, EI, DI, hardware loops, REP and WAIT. Where the spec leaves it open, as log entries 34, 37, 38, 41 of the model say.
-/
def Obligations.LoopsRepeatWait : Prop :=
  Claims.NopAndLoopEnd ∧ Claims.Loops ∧ Claims.Repeat ∧ Claims.Wait

/-- R441, R442, R445, R472: a word whose encoding the table does not give traps: TRAP_CAUSE names UNDEFINED, TRAP_PC holds the
address of the word, which is pushed with ST, and vector 1 of the firmware table, or of the user table in USER mode, is
entered. Where the stack has no room for them STACK is entered in its place, with ST and PCX in TRAP_ST and TRAP_PC. The
trap codes are the model's (log entry 8). Where the spec leaves it open, as log entries 8, 11 of the model say. -/
def Obligations.UndefinedInstructions : Prop :=
  ∀ (s : State) (i : Issue),
    let k := (s.found i).landed
    let user := s.userMode i.core
    s.Inv → s.coreActive i.core = true → vDecode i.w = none → canFetch user k.pcx.toNat = true → (s.found i).trapDue = false →
      (EntryRoom k user → ∃ t, exec (.undefinedInstruction i) s = .next t ∧
        Entry s t i.core k k.pcx (if user then 0x4002 else 2) ∧ (t.core i.core).trapPc = k.pcx ∧
        (t.core i.core).trapCause = BitVec.ofNat 24 Trap.undef.code ∧ stUser (t.core i.core).st = user) ∧
      ((k.sp - 1).toNat < k.stackLow.toNat → ∃ t, exec (.undefinedInstruction i) s = .next t ∧
        (t.core i.core).pcx = 2 ∧ (t.core i.core).trapPc = k.pcx ∧ (t.core i.core).trapSt = k.stRead ∧
        (t.core i.core).trapCause = BitVec.ofNat 24 Trap.stack.code ∧ (t.core i.core).sp = k.stackHigh ∧
        stUser (t.core i.core).st = false ∧ (t.core i.core).mem = k.mem ∧ t.cpu.shared = s.cpu.shared)

/-- R441, R442: an interrupt that is enabled and pending is entered while IE is set and no trap is due, the first in the order DUMP_READY (not on
a core in USER mode), MAILBOX, DAU_DONE, RING, TIMER; pending bits stay, and no other interrupt is taken. Where the spec
leaves it open, as log entries 11, 43 of the model say. -/
def Obligations.InterruptEntries : Prop :=
  ∀ (s : State) (core at_ : Nat),
    let k := (s.core core).landed
    let user := s.userMode core
    let raised (v : Nat) : Prop := k.intEnable.getLsbD v = true ∧ k.intPending.getLsbD v = true
    let enters (v : Nat) : Prop := ∃ t, exec (.interruptEntry core at_) s = .next t ∧
      Entry s t core k k.pcx ((if user then 0x4000 else 0) + 2 * v) ∧ (t.core core).intPending = k.intPending ∧
      (t.core core).waiting = false
    let dump : Prop := raised 3 ∧ user = false
    s.Inv → core < 4 → s.clocked = true → (s.core core).running = true → s.get (K.coreTick_CoreState core) = 0 →
      (stBit k.st 7 = true → k.trapDue = false → EntryRoom k user →
        (dump → enters 3) ∧ (¬ dump → raised 7 → enters 7) ∧ (¬ dump → ¬ raised 7 → raised 4 → enters 4) ∧
        (¬ dump → ¬ raised 7 → ¬ raised 4 → raised 5 → enters 5) ∧
        (¬ dump → ¬ raised 7 → ¬ raised 4 → ¬ raised 5 → raised 6 → enters 6)) ∧
      (stBit k.st 7 = false → exec (.interruptEntry core at_) s = .next (s.reach (s.time.t0 + at_)))

/-- R435, R437: a result that was not yet written is written, PH and PL or an F register, and no later; an exception that
FP_CTRL traps takes the FPU trap, with TRAP_PC the instruction's address. Where the spec leaves it open, as log entries
36, 40 of the model say. -/
def Obligations.ResultWrites : Prop :=
  ∀ (s : State) (core : Nat) (e : Exposed) (l : List Exposed),
    s.Inv → core < 4 → (s.core core).exposed = e :: l → (s.core core).trapDue = false →
      (e.exc = 0 → e.dest = 4 → exec (.pendingResultWrite core 4) s = .next (s.modCore core fun k => { k with
        exposed := l, ph := e.value.extractLsb' 24 24, pl := e.value.extractLsb' 0 24 })) ∧
      (e.exc = 0 → e.dest < 4 → exec (.pendingResultWrite core e.dest) s = .next (s.modCore core fun k => { k with
        exposed := l, f := vecMod k.f e.dest fun _ => e.value })) ∧
      (e.exc ≠ 0 → e.dest < 4 → l = [] → s.coreActive core = true → EntryRoom (s.core core) (s.userMode core) →
        ∃ t, exec (.pendingResultWrite core e.dest) s = .next t ∧
          (t.core core).pcx = (if s.userMode core then 0x4002 else 2) ∧ (t.core core).trapPc = e.pc ∧
          (t.core core).trapCause = BitVec.ofNat 24 Trap.fpu.code ∧ (t.core core).sp = (s.core core).sp - 2 ∧
          t.plainGet core ((s.core core).sp - 1).toNat = (s.core core).pcx ∧
          (t.core core).f = vecMod (s.core core).f e.dest fun _ => e.value)

/-- R25, R28, R425, R426, R446: what the words of a core's own area do. TICK_DONE marks the end of the core's tasks once a
tick, and its time is the core's use of the tick where it has not executed WAIT; MAILBOX_SEND raises bit 7 of INT_PENDING on the cores it names; the first word of TICK_NOW latches the other two;
COMMIT in word 4 of block n submits its four words, for the edge after next once the deadline has passed; core 3 enters
user code at UserEntry. Where the spec leaves it open, as log entry 7 of the model says. -/
def Obligations.WordActions : Prop :=
  ∀ (s : State) (core at_ : Nat),
    let n := s.reach (s.time.t0 + at_)
    (s.coreActive core = true →
      (s.userMode core = false → (s.core core).tickDone = false → ∃ t, exec (.tickDone core at_ 1) s = .next t ∧
        (t.core core).tickDone = true ∧
        (t.core core).usedNow = (if (s.core core).waited = true then (s.core core).usedNow else n.sinceT0 - 250) ∧ (∀ c, c ≠ core → t.core c = s.core c) ∧
        t.dict = s.dict) ∧
      (∀ w : Word, ∃ t, exec (.mailboxSend core at_ w) s = .next t ∧
        ∀ c < 4, (t.core c).intPending = (if w.getLsbD c = true then (s.core c).intPending ||| 0x80 else (s.core c).intPending)) ∧
      (exec (.tickNow core at_) s = .next (n.modCore core fun k => { k with
        tickNow1 := BitVec.ofNat 24 (s.time.tick / 2 ^ 24), tickNow2 := BitVec.ofNat 24 s.time.tick })) ∧
      (s.userMode core = false → ∀ b < 512, ∀ w : Word, w.getLsbD 23 = true → ∃ t, exec (.ncoCommit core at_ b w) s = .next t ∧
        let v := fun j => (SMap.get 0 (8 * b + j) s.cpu.nco).toNat
        let image := some (v 0 * 2 ^ 24 + v 1, v 2 * 2 ^ 24 + v 3)
        (if s.cpu.guard = true
          then t.cpu.ncoLater = SMap.set none b image s.cpu.ncoLater ∧ t.cpu.ncoNext = s.cpu.ncoNext
          else t.cpu.ncoNext = SMap.set none b image s.cpu.ncoNext ∧ t.cpu.ncoLater = s.cpu.ncoLater) ∧ t.dict = s.dict)) ∧
    (s.coreActive 3 = true → s.cpu.userEnable = true → s.cpu.userEntered = false → stUser (s.core 3).st = false →
      s.cpu.window = true → (s.cpu.migrated = none ∨ (s.core 3).tickDone = true) →
      ∃ t, exec (.userEntry at_) s = .next t ∧ (t.core 3).pcx = BitVec.ofNat 24 s.cpu.userEntry ∧
        stUser (t.core 3).st = true ∧ stBit (t.core 3).st 7 = true ∧ (t.core 3).sp = (s.core 3).sp ∧
        (∀ j, j ≠ 7 → j ≠ 12 → stBit (t.core 3).st j = stBit (s.core 3).st j) ∧ t.userMode 3 = true ∧
        t.cpu.userEntered = true ∧ t.cpu.userSince = some n.sinceT0)

/-- R425, R427, R437, R441, R449: the words of a core's own area read what was written to them: INT_ENABLE with bits 0 to 2
reading 1, FP_CTRL in its seven bits, the stack limits and, while no request is in progress, the words of the dictionary
access unit; writing 1 to a bit of INT_PENDING clears it; CORE_ID reads the core's number. Where the spec leaves it open,
as log entry 7 of the model says. -/
def Obligations.SpecialWords : Prop :=
  ∀ (s : State) (c : Nat) (w : Word),
    let reads (t : State) (a v : Word) : Prop := ∃ u, t.readWord c a = .ok (v, u)
    let keeps (a v : Word) : Prop := ∃ t, s.writeWord c a w = .ok t ∧ reads t a v
    c < 4 →
      (s.userMode c = false → keeps 0xF10000 ((w &&& 0xF8) ||| 7) ∧
        keeps 0xF10001 ((s.core c).intPending &&& 0xFF &&& ~~~w)) ∧
      keeps 0xF10405 w ∧ keeps 0xF10406 w ∧ keeps 0xF10407 (w &&& 0x7F) ∧
      ((s.core c).dauReq = none →
        keeps 0xF10200 w ∧ keeps 0xF10201 w ∧ keeps 0xF10202 w ∧ keeps 0xF10203 w ∧ keeps 0xF10204 w) ∧
      reads s 0xF10404 (BitVec.ofNat 24 c)

/-- R449: DAU_GO submits the request that DAU_OP, DAU_TARGET, DAU_LEN, DAU_BUF and DAU_CAP describe, and DAU_STATUS reads
BUSY; DAU_DONE executes it on the core's path, here a READ of an object below 0x2000, and leaves its status and length in
DAU_STATUS and DAU_RLEN, with DAU_DONE raised. Where the spec leaves it open, as log entries 45, 46, 56, 72 of the model
say. -/
def Obligations.DictionaryAccessUnit : Prop :=
  ∀ (s : State) (core at_ aon : Nat),
    (s.coreActive core = true → (s.core core).dauReq = none →
      bufferOk (s.userMode core) (s.core core).dauBuf.toNat (min (s.core core).dauCap.toNat 1024) = true →
      ∃ t u x, exec (.dauGo core at_ 1) s = .next t ∧ (t.core core).dauReq = some
          { op := (s.core core).dauOp.toNat % 256, index := (s.core core).dauTarget.toNat / 256,
            sub := (s.core core).dauTarget.toNat % 256, len := (s.core core).dauLen.toNat, buf := (s.core core).dauBuf.toNat,
            cap := (s.core core).dauCap.toNat, user := s.userMode core } ∧
        t.readWord core 0xF10206 = .ok (x, u) ∧ x.getLsbD 23 = true ∧ t.dict = s.dict) ∧
    (∀ (q : DauReq) (r : Row), s.Inv →
      let u := s.instant at_ aon
      let c : Ctx := { path := if core = 3 then .user else .firmware, slot := none, source := 0, tag := core, at_ := at_, aon := aon }
      let b := toBytes r.ty.bytes (readValue u q.index q.sub)
      core < 4 → engineTakes u c.path = true → u.get (K.coreTick_CoreState core) ≠ 2 → (u.core core).dauReq = some q → q.op = 1 →
        q.index < 0x2000 → findRow q.index q.sub = some r → firstRefused (readRefusals u c q.index q.sub q.len) = none →
        (replyWords 1 q.index q.sub ⟨St.ok, b⟩).length ≤ q.cap →
        ∃ t, exec (.dauDone core at_ aon) s = .next t ∧ (t.core core).dauReq = none ∧ (t.core core).dauStatus = 0 ∧
          (t.core core).dauRlen = BitVec.ofNat 24 b.length ∧ (t.core core).intPending.getLsbD 4 = true)

/-- R450: RING_HEAD hands descriptors to the device, here the next one: a launch that LaunchSubmit would accept ends ACCEPTED
with its handle, one that it would refuse with the status of the refusal, one that the core still owns waits. Completion
writes STATUS and HANDLE, clears OWN, moves TAIL past it and raises RING where the descriptor asks. Where the spec leaves
it open, as log entry 47 of the model says. -/
def Obligations.DescriptorRings : Prop :=
  ∀ (s : State) (core at_ : Nat),
    (∀ (r : Nat) (w : Word),
      let n := s.reach (s.time.t0 + at_)
      let q := (s.core core).ring r
      let a := q.slot q.taken
      let w0 := (s.plainGet core a).toNat
      let buf := (s.plainGet core (a + 1)).toNat
      let b := s.bufferBytes core buf (w0 % 2048)
      let user := s.userMode core
      s.coreActive core = true → r < 2 → 2 ≤ q.size.toNat → q.taken < q.size.toNat → w.toNat = (q.taken + 1) % q.size.toNat →
        bufferOk user a 4 = true →
        ∃ t, exec (.ringHead core at_ r w) s = .next t ∧ ((t.core core).ring r).head = w ∧
          ((t.core core).ring r).taken = (q.taken + 1) % q.size.toNat ∧ ((t.core core).ring r).tail = q.tail ∧
          (bit w0 23 = false → t.cpu.ringDone = s.cpu.ringDone ∧ t.ports = s.ports ∧ t.net = s.net) ∧
          (r = 0 → bit w0 23 = true → bits w0 21 11 = 0 → 0 < w0 % 2048 → w0 % 2048 ≤ 1530 →
            bufferOk user buf ((w0 % 2048 + 2) / 3) = true →
            (launchRefuses n b 1514 = none → t.ports = (n.launchAccept b).1.ports ∧
              t.cpu.ringDone = s.cpu.ringDone ++ [⟨core, 0, q.taken, St.accepted, (n.launchAccept b).2, none⟩]) ∧
            (∀ e, launchRefuses n b 1514 = some e → t.ports = s.ports ∧
              t.cpu.ringDone = s.cpu.ringDone ++ [⟨core, 0, q.taken, e.1, 0, none⟩]))) ∧
    (∀ d : RingDone,
      let q := (s.core core).ring d.ring
      let a := q.slot d.index
      s.Inv → s.clocked = true → core < 4 → d.core = core → s.cpu.ringDone = [d] → d.data = none →
        bufferOk (s.userMode core) a 4 = true →
        ∃ t, exec (.descriptorComplete core d.ring at_) s = .next t ∧ t.cpu.ringDone = [] ∧
          bit (t.plainGet core a).toNat 23 = false ∧ t.plainGet core (a + 2) = BitVec.ofNat 24 d.status ∧
          t.plainGet core (a + 3) = BitVec.ofNat 24 (d.handle % 65536) ∧ t.plainGet core (a + 1) = s.plainGet core (a + 1) ∧
          (bit (s.plainGet core a).toNat 22 = true → (t.core core).intPending.getLsbD 5 = true) ∧
          (d.ring < 2 → 2 ≤ q.size.toNat → q.size.toNat ≤ 64 → q.tail.toNat = d.index → d.index < q.size.toNat →
            q.taken = (d.index + 1) % q.size.toNat → ((t.core core).ring d.ring).tail.toNat = (d.index + 1) % q.size.toNat))

/-- A step takes the command at the front of the queue: it is exec of that command with the queue's rest. With nothing waiting
the block idles, since TICK is a command (the model's choice, log entry 13). Where the spec leaves it open, as log entry
13 of the model says. -/
def Obligations.StepTakesFront : Prop :=
  ∀ s : State, (∀ c : Instr, step { s with pending := c :: s.pending } = exec c s) ∧ (s.pending = [] → step s = .next s)

/-- R427, R54, R82, R341: what reset leaves. The cores' registers are zero but SP; DeviceState is BOOTING, TimingState UNSET;
the first start counts in Epoch; no command waits; and the invariant holds. Where the spec leaves it open, as log entries
5, 6, 7, 27 of the model say. -/
def Obligations.ResetState : Prop :=
  State.reset.Inv ∧ State.reset.pending = [] ∧ State.reset.device = 0 ∧ State.reset.timing = 0 ∧
    State.reset.get K.network_Epoch = 1 ∧ State.reset.time.running = false ∧
    ∀ c : Fin 4, let k := State.reset.core c.val
      k.sp = 0x010000 ∧ k.pcx = 0 ∧ k.st = 0 ∧ k.nrep = 0 ∧ k.ph = 0 ∧ k.pl = 0 ∧ (∀ r : Fin 16, k.g[r] = 0) ∧
        (∀ r : Fin 4, k.a[r] = 0 ∧ k.f[r] = 0 ∧ k.ls[r] = 0 ∧ k.le[r] = 0 ∧ k.lc[r] = 0) ∧
        (∀ r : Fin 8, k.j[r] = 0 ∧ k.m[r] = 0 ∧ k.k[r] = 0 ∧ k.l[r] = 0)

/-- Every step keeps the invariant: the dictionary and the memories of the cores stay in canonical form, the Silt log within
its bounds (R423, R575, R580). -/
def Obligations.StepKeepsInvariant : Prop :=
  ∀ s t : State, s.Inv → step s = .next t → t.Inv

/-- Every command answers a next state, and changes no part of the state but those named for it. Where the spec leaves it
open, as log entry 2 of the model says. -/
def Obligations.CommandsAnswerWithinParts : Prop :=
  ∀ (c : Instr) (s : State), ∃ t, exec c s = .next t ∧ Frame c.parts s t

/-- R9, R10, R90, R560: only a tick edge, the step, and a start move the count of edges, the tick number, the Pond time of the
last edge, operating seconds and power cycles; only TRST_N, TCK and a start move the test access port; no command takes or
leaves another in the queue. Where the spec leaves it open, as log entry 30 of the model says. -/
def Obligations.TimeBaseAndTestPort : Prop :=
  ∀ (c : Instr) (s t : State), s.Inv → exec c s = .next t →
    t.pending = s.pending ∧
    (match c with
     | .tick _ | .step | .pllLock | .coldReset _ | .powerUp _ _ _ | .rstN _ _ _ | .wakeRetry _ _ => True
     | _ => t.time.base = s.time.base) ∧
    (match c with
     | .trstN _ | .tapClock _ _ | .powerUp _ _ _ | .rstN _ _ _ | .wakeRetry _ _ => True
     | _ => t.jtag = s.jtag)

/-- R9, R10, R23, R444, R541: a tick edge in RUN. Pond time reaches the next whole millisecond, whose number the tick takes,
operating time counts a millisecond, and every core that runs is at vector 2 of the firmware table with an empty
stack, ST zero, no halt and no WAIT. In SLEEP, and after a wake until the PLL has relocked, Pond time goes on alone. Where the spec leaves it open, as log entries 30,
31, 53 of the model say. -/
def Obligations.TickEdge : Prop :=
  ∀ (s : State) (i : TickIn),
    let t0 := (s.time.t0 + min 1 s.time.frac + 2 * MS - 1) / MS * MS
    let base : TimeBase :=
      ⟨s.time.ms + 1, t0, t0 / MS, min (2 ^ 40 - 1) (s.time.opSec + (s.time.opAcc + 32768) / 32768000), s.time.cycles⟩
    let alone : Prop := ∃ t, exec (.tick i) s = .next t ∧ t.time.base = base ∧
      t.time.opAcc = (s.time.opAcc + 32768) % 32768000 ∧ t.dict = s.dict ∧ t.cpu = s.cpu ∧ t.out = s.out ∧ t.power = s.power
    s.Inv → s.time.running = true →
      (s.power.phase = .run → s.power.waking = false → ∃ t, exec (.tick i) s = .next t ∧
        t.time.base = base ∧ t.time.opAcc = (s.time.opAcc + 32768) % 32768000 ∧
        ∀ c < 4, (t.core c).running = true → t.get (K.coreTick_CoreState c) ≠ 2 →
          (t.core c).pcx = 4 ∧ (t.core c).sp = (t.core c).stackHigh ∧ (t.core c).st = 0 ∧ (t.core c).waiting = false ∧
            (t.core c).tickDone = false ∧ t.get (K.coreTick_CoreState c) = 0) ∧
      (s.power.phase = .sleep → s.power.burst = none → alone) ∧
      (s.power.phase = .run → s.power.waking = true →
        s.time.refOk = false ∧ s.get K.reference_RefStatus = 0 ∨
          i.relock = false ∧ (s.time.ms + 1) * MS < s.power.wakeAt + 2500 * US → alone)

/-- R23, R25, R29 to R31: the instants of the budget window. At t0 + 2 us it opens with DUMP_READY raised on the firmware
cores; at the deadline it closes, a core past TICK_DONE is stopped and one before it takes a BUDGET trap; at the hard stop
a core that has not executed WAIT is halted; user code is trapped once its grant is used, and halted 10 us later. Where
the spec leaves it open, as log entries 49, 50 of the model say. -/
def Obligations.BudgetWindow : Prop :=
  ∀ (s : State) (at_ : Nat), s.Inv → s.clocked = true →
    (s.cpu.window = false → s.cpu.guard = false → s.time.now ≤ s.time.t0 + 2 * US →
      ∃ t, exec .dumpReady s = .next t ∧ t.cpu.window = true ∧ s.time.t0 + 2 * US ≤ t.time.now ∧
        ∀ c < 3, coreUp s c = true → (t.core c).intPending.getLsbD 3 = true) ∧
    (s.cpu.window = true → ∃ t, exec .budgetDeadline s = .next t ∧ t.cpu.window = false ∧ t.cpu.guard = true ∧
      ∀ c < 3, coreUp s c = true → s.get (K.coreTick_CoreState c) = 0 → (s.core c).waited = false →
        if (s.core c).tickDone = true then (t.core c).waiting = true ∧ (t.core c).stopped = some 0 ∧
          (t.core c).budgetDue = (s.core c).budgetDue
        else (t.core c).budgetDue = true ∧ (t.core c).waiting = (s.core c).waiting) ∧
    (s.cpu.guard = true → s.cpu.hard = false → ∃ t, exec .hardStop s = .next t ∧ t.cpu.hard = true ∧
      ∀ c < 4, coreUp s c = true → s.get (K.coreTick_CoreState c) = 0 →
        t.get (K.coreTick_CoreState c) = (if (s.core c).waited = true then 0 else 1)) ∧
    (s.coreActive 3 = true → s.userMode 3 = true → (s.core 3).budgetAt = none →
      s.get K.tickBudget_UserBudgetGranted * 125 ≤ (s.reach (s.time.t0 + at_)).userTime →
      ∃ t, exec (.userBudgetExhausted at_) s = .next t ∧ (t.core 3).budgetDue = true ∧
        (t.core 3).budgetAt = some (max s.time.now (s.time.t0 + at_) - s.time.t0) ∧
        t.get (K.coreTick_Overruns 3) = min (s.get (K.coreTick_Overruns 3) + 1) 65535) ∧
    (∀ b, (s.core 3).budgetAt = some b → coreUp s 3 = true → s.get (K.coreTick_CoreState 3) = 0 → s.userMode 3 = true →
      (s.core 3).waited = false → b + 10 * US ≤ max s.time.now (s.time.t0 + at_) - s.time.t0 →
      ∃ t, exec (.userHardStop at_) s = .next t ∧ t.get (K.coreTick_CoreState 3) = 1 ∧ t.cpu.userSince = none ∧
        t.get (K.coreTick_HardStops 3) = min (s.get (K.coreTick_HardStops 3) + 1) 65535)

/-- R32, R34 to R36, R451: shedding counts and, by ShedPolicy, raises the level request, no higher than the ceiling, while the level
is below it; the tasks of a retired firmware core
move at the edge; a core that fails its self-check is retired for good. Where the spec leaves it open, as log entries 51,
52 of the model say. -/
def Obligations.ShedMigrateRetire : Prop :=
  ∀ (s : State), s.Inv →
    (s.atEdge = true → s.cpu.shedDue = true → ∃ t, exec .shedStep s = .next t ∧ t.cpu.shedDue = false ∧
      (s.get K.tickBudget_ShedPolicy = 0 → s.get K.performance_LevelApplied < s.get K.performance_LevelCeiling →
        t.get K.performance_LevelRequest = min (s.get K.performance_LevelRequest + 1) (s.get K.performance_LevelCeiling) ∧
        t.slots = s.slots) ∧
      (s.get K.tickBudget_ShedPolicy = 2 → t.get K.performance_LevelRequest = s.get K.performance_LevelRequest ∧
        t.slots = s.slots ∧ t.get K.tickBudget_ShedCount = min (s.get K.tickBudget_ShedCount + 1) 65535)) ∧
    (∀ tasks : Nat, s.atEdge = true → s.inRun = true → s.cpu.toMove ≠ 0 → ∃ t, exec (.taskMigration tasks) s = .next t ∧
      t.cpu.moved = Nat.lor s.cpu.moved s.cpu.toMove ∧ t.cpu.toMove = 0 ∧
      (s.get (K.coreTick_CoreState 3) ≠ 2 → firmwareCores s ≠ 3 →
        t.cpu.migrated = some (min tasks (948 - s.get K.tickBudget_UserBudgetFloor)))) ∧
    (∀ c at_ : Nat, c < 4 → s.clocked = true → coreUp s c = true → ∃ t, exec (.selfCheck [c] at_) s = .next t ∧
      t.get (K.coreTick_CoreState c) = 2 ∧ (t.core c).running = false ∧ t.get K.coreHealth_LastRetiredCore = c ∧
      (c < 3 → bit t.cpu.toMove c = true))

/-- R84, R90, R93, R95: what changes Pond time and what it follows. SOURCE_LOST: LossDelay without an update leads to HOLDOVER, with
E0 the present ErrorEstimate, or ends Recovering. STEP: a step that is due sets Pond time at its tick edge, which keeps its number, and
TimingState is STEPPED, or HOLDOVER where the reference is not VALID. RESEED: the source of a confirmed re-seed has come within 10 s, and
the record of the value is written for its hand-over; RESEED_TIMEOUT: it has not. The reference is LOST, RETURNING and, 10 s later,
VALID. -/
def Sys2Proof.Claims.PondTimeSources : Prop :=
  ∀ (s : State) (at_ : Nat), s.Inv →
    let n := s.reach (s.time.t0 + at_)
    let lossDelay : Prop := ∀ m, s.time.lastUpdate = some m → s.get K.steering_LossDelay ≤ s.time.ms - m
    (s.clocked = true → s.fwUp = true → s.firstDue = false → lossDelay →
      (s.timing = 1 ∨ s.timing = 2 → ∃ t, exec .sourceLost s = .next t ∧ t.timing = 3 ∧
        t.get K.timingEvents_SourceLosses = min (s.get K.timingEvents_SourceLosses + 1) 65535 ∧
        t.get K.holdover_EntryError = s.get K.pondTime_ErrorEstimate ∧ t.time.base = s.time.base) ∧
      (s.timing = 3 → s.getB K.pondTime_Recovering = true → ∃ t, exec .sourceLost s = .next t ∧ t.timing = 3 ∧
        t.getB K.pondTime_Recovering = false ∧ t.time.growFrom = (s.get K.pondTime_ErrorEstimate, s.time.ms))) ∧
    (∀ d, s.time.due = some d → s.atEdge = true → d.notBefore ≤ s.time.ms →
      let fine := if d.relative then ((s.time.t0 : Int) + d.amount).toNat * 2 ^ 23 else d.amount.toNat * 5 ^ 9
      ∃ t, exec .step s = .next t ∧ t.time.t0 = fine / 2 ^ 23 ∧ t.time.now = fine / 2 ^ 23 ∧ t.time.frac = fine % 2 ^ 23 ∧
        t.time.due = none ∧ t.time.tick = s.time.tick ∧ t.time.ms = s.time.ms ∧ t.time.updates = 0 ∧
        t.timing = (if s.get K.reference_RefStatus = 0 then 1 else 3) ∧ t.getB K.pondTime_Recovering = false ∧
        t.get K.pondTime_TimeSource = d.source.code ∧ t.get K.pondTime_ErrorEstimate = d.error ∧
        (d.reseed = false ∨ s.fwUp = true → t.get K.pondTime_LastStepAt = fine96 fine)) ∧
    (∀ r, s.time.reseed = some r → r.logged = none → s.time.due = none → s.fwWorks = true →
      (n.elapsed ≤ r.since + 10 * SEC → r.source < 3 → s.silt.queue.length < 64 → ∀ d : StepDue,
        (r.source = 0 → ∃ x rate e since, s.lake.est = some (x, rate, e) ∧ s.lake.estAt = some since ∧ r.since < since ∧
          d = ⟨true, carried x rate e (s.tickAhead + (n.reseedEdge - s.time.ms - 1) * MS), n.reseedEdge, .lake, some rate,
            lakeErrorEstimate { s with time := { s.time with updates := 0 } }, true⟩) →
        (r.source = 1 → ∃ since x rate err, s.sol.good = some (since, x, rate, err) ∧ r.since < since ∧
          d = ⟨true, x, n.reseedEdge, .gnss, some rate, err, true⟩) →
        (r.source = 2 → d = ⟨false, r.value, n.reseedEdge, .host, none, 0xFFFFFFFF, true⟩) →
        ∃ t e, exec (.reseed at_) s = .next t ∧ t.time.reseed = some { r with logged := some d } ∧
          t.silt.queue = s.silt.queue ++ [e] ∧ e.code = 0x0102 ∧ t.time.t0 = s.time.t0 ∧ t.timing = s.timing) ∧
      (r.since + 10 * SEC ≤ n.elapsed → ∃ t, exec (.reseedTimeout at_) s = .next t ∧ t.time.reseed = none ∧
        t.get K.seeding_ReseedResult = St.timeout ∧ t.timing = s.timing ∧ t.time.t0 = s.time.t0)) ∧
    (s.inRun = true →
      (s.get K.reference_RefStatus ≠ 1 → ∃ t, exec (.referenceLost at_) s = .next t ∧ t.time.refOk = false ∧
        t.get K.reference_RefStatus = 1 ∧
        t.get K.reference_ReferenceFaultCount = min (s.get K.reference_ReferenceFaultCount + 1) 65535 ∧
        (s.firstDue = false → s.timing = 1 ∨ s.timing = 2 → t.timing = 3)) ∧
      (s.get K.reference_RefStatus = 1 → ∃ t, exec (.referenceReturning at_) s = .next t ∧ t.time.refOk = true ∧
        t.time.refSince = s.time.ms ∧ t.get K.reference_RefStatus = 2) ∧
      (s.get K.reference_RefStatus = 2 → s.time.refOk = true → 10000 ≤ s.time.ms - s.time.refSince →
        ∃ t, exec (.referenceValid at_) s = .next t ∧ t.get K.reference_RefStatus = 0 ∧ t.time.base = s.time.base))

/-- R100, R101, R103 to R105, R108: the outputs. TIME_PULSE_EDGE: a pulse output that runs emits the edge of a grid instant, advanced by
Q, and counts an interval shorter than a new Period; PULSE_WIDTH_END: it is inactive again Width later, and new settings take effect.
CLOCK_REALIGN: a stopped clock output aligned at its instant is ALIGNED; PHASE_RESIDUAL_MEASURE: the phase detector's error, held to its
range, is PhaseResidual. TOD_MESSAGE and IRIG_B_FRAME: TOD_TX and IRIG-B send what describes their second. -/
def Sys2Proof.Claims.TimingOutputs : Prop :=
  ∀ (s : State), s.Inv →
    (∀ p g f : Nat, p < 4 → p < s.out.tp.length → s.time.running = true → s.out.loaded = true → (s.tp p).irig = false →
      (s.tp p).from_ = some f → f ≤ g → (s.tp p).active = false → g % ((s.tp p).period * US) = 0 →
      (∀ l, (s.tp p).lastEdge = some l → l < g) → s.inTick ((g : Int) - tpAdvance s p) = true →
      ∃ t, exec (.timePulseEdge p g) s = .next t ∧ (t.tp p).active = true ∧ (t.tp p).lastEdge = some g ∧
        (t.tp p).endsAt = ((g : Int) - tpAdvance s p).toNat + s.get (K.timePulse_Width p) * NS ∧
        t.get (K.timePulse_PulseCount p) = (s.get (K.timePulse_PulseCount p) + 1) % 2 ^ 48 ∧
        (∀ l, (s.tp p).fresh = true → (s.tp p).lastEdge = some l → g - l < (s.tp p).period * US →
          t.get (K.timePulse_ShortIntervals p) = min (s.get (K.timePulse_ShortIntervals p) + 1) 65535)) ∧
    (∀ p : Nat, p < 4 → p < s.out.tp.length → s.time.running = true → (s.tp p).endsAt < s.tickAhead → (s.tp p).active = true →
      ∃ t, exec (.pulseWidthEnd p) s = .next t ∧ (t.tp p).active = false ∧ t.dict = s.dict ∧
        (t.tp p).polarity = s.get (K.timePulse_Polarity p) ∧ (t.tp p).irig = (s.get (K.timePulse_Mode p) == 1) ∧
        ((t.tp p).irig = false → (t.tp p).period = s.get (K.timePulse_Period p))) ∧
    (∀ c g f : Nat, c < 2 → s.time.running = true → (s.cko c).from_ = some f → f ≤ g → s.get (K.clockOut_ClockState c) = 1 →
      g % (s.get (K.clockOut_FreqDen c) * SEC) = 0 → s.inTick ((g : Int) - ckoAdvance s c) = true →
      ∃ t, exec (.clockRealign c g) s = .next t ∧ t.get (K.clockOut_ClockState c) = 2 ∧
        t.get (K.clockOut_Realignments c) = (if (s.cko c).realign = true then min (s.get (K.clockOut_Realignments c) + 1) 65535
          else s.get (K.clockOut_Realignments c))) ∧
    (∀ (c : Nat) (r : Int) (at_ : Nat), c < 2 → s.get (K.clockOut_ClockState c) = 2 →
      ∃ t, exec (.phaseResidualMeasure c r at_) s = .next t ∧
        t.getI (K.clockOut_PhaseResidual c) 2 = max (-32767) (min 32767 r) ∧
        (20 < r.natAbs → t.get (K.clockOut_ResidualHighCount c) = min (s.get (K.clockOut_ResidualHighCount c) + 1) 65535)) ∧
    (∀ sec : Nat, s.inRun = true → s.fwUp = true → s.out.asleep = false → s.out.undriven = false →
      s.out.tod.resumeAt ≤ sec * SEC →
      let l := sec * SEC + s.get K.timeOfDay_TodLatency * MS
      let n := s.reach l
      let m := if s.get K.timeOfDay_TodEnable = 1 then zda n sec else binTime n sec
      s.get K.timeOfDay_TodEnable ≠ 0 → s.inTick l = true →
      s.get K.timeOfDay_TodLatency * MS + m.length * 10 * SEC / s.get K.timeOfDay_BaudRate < SEC →
      ∃ t, exec (.todMessage sec) s = .next t ∧ t.out.tod.last = m ∧
        t.get K.timeOfDay_MessagesSent = (s.get K.timeOfDay_MessagesSent + 1) % 2 ^ 32) ∧
    (∀ sec f : Nat, s.time.running = true → s.out.loaded = true → (s.tp 3).irig = true → (s.tp 3).active = false →
      (s.tp 3).from_ = some f → f ≤ sec * SEC →
      let emit := ((sec * SEC : Nat) : Int) - tpAdvance s 3
      s.inTick emit = true → ∃ t, exec (.irigBFrame sec) s = .next t ∧ t.out.tod.frame = irigFrame (s.reach emit.toNat) sec ∧
        t.get K.irigB_FramesSent = (s.get K.irigB_FramesSent + 1) % 2 ^ 32)

/-- Sources of Pond time, steps, the reference, and the timing outputs. Where the spec leaves it open, as log entries 71, 74,
76, 81, 82, 83, 152, 153, 155, 156 of the model say. -/
def Obligations.PondTimeAndOutputs : Prop :=
  Claims.PondTimeSources ∧ Claims.TimingOutputs

/-- R121: the conditions of an input whose bias is internal, with AntennaState SHORT, SUPPLY_LOW, OPEN or NORMAL in that
order. A short opens the bias switch, and a trial a second later closes it, while VDDA_RF is in range (R602), where the current stays below the limit; the
voltage and the current that an event reports are shown. Where the spec leaves it open, as log entry 29 of the model says.
-/
def Obligations.AntennaConditions : Prop :=
  ∀ (s : State) (a x at_ : Nat), s.Inv → a < 2 → (s.ant a).bias = 1 →
    let n := s.reach (s.time.t0 + at_)
    let st (t : State) (v : Nat) : Prop := t.get (K.antennaInput_AntennaState a) = v
    ((s.ant a).short = false → ∃ t, exec (.antennaShort a at_) s = .next t ∧ (t.ant a).short = true ∧
      (t.ant a).switchOn = false ∧ (t.ant a).trialAt = n.elapsed ∧ st t 3 ∧
      (s.get (K.antennaInput_AntennaState a) ≠ 3 →
        t.get (K.antennaInput_ShortEvents a) = min (s.get (K.antennaInput_ShortEvents a) + 1) 65535)) ∧
    ((s.ant a).short = true → SEC ≤ n.elapsed - (s.ant a).trialAt → ∃ t, exec (.shortTrial a x at_) s = .next t ∧
      t.get (K.antennaInput_BiasCurrent a) = min 1500 x ∧ (t.ant a).trialAt = n.elapsed ∧
      (x < s.get (K.antennaInput_CurrentLimit a) → (t.ant a).short = false ∧ (t.ant a).switchOn = radioUp s ∧
        ((s.ant a).low = false → (s.ant a).opened = false → st t 1)) ∧
      (s.get (K.antennaInput_CurrentLimit a) ≤ x → (t.ant a).short = true)) ∧
    (x < 2950 → ∃ t, exec (.antennaSupplyLow a x) s = .next t ∧ (t.ant a).low = true ∧
      t.get (K.antennaInput_BiasVoltage a) = x ∧ st t (if (s.ant a).short = true then 3 else 4)) ∧
    (3050 ≤ x → ∃ t, exec (.supplyLowCleared a x) s = .next t ∧ (t.ant a).low = false ∧
      t.get (K.antennaInput_BiasVoltage a) = min 6000 x ∧
      st t (if (s.ant a).short = true then 3 else if (s.ant a).opened = true then 2 else 1)) ∧
    (x < s.get (K.antennaInput_OpenThreshold a) → ∃ t, exec (.antennaOpen a x) s = .next t ∧ (t.ant a).opened = true ∧
      t.get (K.antennaInput_BiasCurrent a) = min 1500 x ∧
      st t (if (s.ant a).short = true then 3 else if (s.ant a).low = true then 4 else 2)) ∧
    (s.get (K.antennaInput_OpenThreshold a) + 10 ≤ x → ∃ t, exec (.openCleared a x) s = .next t ∧ (t.ant a).opened = false ∧
      t.get (K.antennaInput_BiasCurrent a) = min 1500 x ∧
      st t (if (s.ant a).short = true then 3 else if (s.ant a).low = true then 4 else 1))

/-- R126, R129 to R132, R134, R135, R145: calibration of the chains and their notches. A loss of lock puts a chain at the head of the
queue, after those that lost it at the same instant, or fails the step in progress;
the head starts at a tick edge as CALIBRATING, each step that passes leads to the next, a failed one to FAULT, and the third on end to RETIRED;
a run that has settled to ACTIVE, or, disabled meanwhile, to OFF; a chain in FAULT is queued again after 10 s. A line seen three times engages a notch at its
frequency; the baseline is the median of the gains seen. -/
def Sys2Proof.Claims.ChainCalibration : Prop :=
  ∀ (s : State) (c at_ : Nat), s.Inv → s.inRun = true → c < 4 →
    let n := s.reach (s.time.t0 + at_)
    (1 ≤ s.chainState c → s.chainState c ≤ 4 →
      (s.rx.run = none → ∃ t, exec (.loUnlock c at_) s = .next t ∧
        (t.chain c).loLost = true ∧ c ∈ t.rx.queue ∧ bit (t.chain c).queued 0 = true ∧ bit (t.chain c).queued 3 = true ∧
        ((∀ e, (s.chain e).urgent = true → (s.chain e).queuedAt ≠ n.elapsed) → t.rx.queue.head? = some c) ∧
        t.get (K.chain_LoUnlockEvents c) = min (s.get (K.chain_LoUnlockEvents c) + 1) 65535) ∧
      (∀ r k l, s.rx.run = some r → r.chain = c → r.steps = k :: l → k ≠ 0 → ∃ t, exec (.loUnlock c at_) s = .next t ∧
        t.rx.run = some { r with lost := true } ∧ (t.chain c).loLost = true)) ∧
    (∀ l, s.atEdge = true → s.rx.run = none → s.rx.queue = c :: l → ∃ t, exec .calibrationStart s = .next t ∧
      t.rx.queue = l ∧ t.rx.run = some ⟨c, calSteps (s.chain c).queued, bit s.rx.asked c, false, false, s.elapsed⟩ ∧
      t.get (K.chain_ChainState c) = 2 ∧ (t.chain c).queued = 0) ∧
    (∀ (r : CalRun) (k : Nat) (l : List Nat) (image : Nat) (pass : Bool), s.rx.run = some r → r.chain = c → r.steps = k :: l →
      r.since + stepTime k ≤ n.elapsed →
      let ok : Prop := pass = true ∧ r.lost = false ∧ (k = 2 → 35 ≤ image)
      (r.disabled = false → ok → ∃ t, exec (.calStepComplete pass image at_) s = .next t ∧
        t.rx.run = some { r with steps := l, since := r.since + stepTime k } ∧
        (k = 0 → (t.chain c).loLost = false) ∧ (k = 2 → t.get (K.chain_ImageRejection c) = min 80 image)) ∧
      (r.disabled = false → ¬ ok → ∃ t, exec (.calStepComplete pass image at_) s = .next t ∧ t.rx.run = none ∧
        t.get (K.chain_ChainState c) = (if (s.chain c).failRuns < 2 then 4 else 5) ∧
        (t.chain c).failRuns = (s.chain c).failRuns + 1) ∧
      (r.disabled = true → (s.chain c).powered = false → s.chainState c ≠ 5 →
        ∃ t, exec (.calStepComplete pass image at_) s = .next t ∧ t.rx.run = none ∧ t.get (K.chain_ChainState c) = 0)) ∧
    (∀ r, s.rx.run = some r → r.chain = c → r.steps = [] → s.atEdge = true → r.since + settleTime ≤ s.elapsed →
      s.rx.queue = [] → ∃ t, exec .calibrationEnd s = .next t ∧ t.rx.run = none ∧ (t.chain c).failRuns = 0 ∧
      (r.disabled = false → t.get (K.chain_ChainState c) = 3) ∧
      (r.disabled = true → (s.chain c).powered = false → s.chainState c ≠ 5 → t.get (K.chain_ChainState c) = 0)) ∧
    (s.chainState c = 4 → (s.chain c).powered = true → (s.chain c).queued = 0 →
      (s.chain c).faultAt + 10 * SEC ≤ s.elapsed → ∃ t, exec (.chainFaultRetry c) s = .next t ∧
      (t.chain c).queued = 15 ∧ c ∈ t.rx.queue ∧
      (c ∉ s.rx.queue → (∀ e ∈ s.rx.queue, (s.chain e).queuedAt ≠ s.elapsed) → t.rx.queue = s.rx.queue ++ [c])) ∧
    (s.get (K.chain_AgcBaseline c) = 0 → 600000 ≤ (s.chain c).clean → ∃ t, exec (.agcBaselineLearned c) s = .next t ∧
      t.get (K.chain_AgcBaseline c) = medianOf (s.chain c).gains ∧ (t.chain c).clean = 0) ∧
    (∀ (b h : Nat) (f : Int), 1 ≤ s.chainState c → s.chainState c ≤ 3 → (s.chain c).lineAt + 10 * MS ≤ s.elapsed → s.get (K.notch_NotchMode (4 * c)) = 2 →
      s.get (K.notch_NotchState (4 * c)) = 1 → SMap.get 0 b (s.notch (4 * c)).runs = 2 →
      s.get (K.notch_DetectMargin (4 * c)) < h → -2147483648 ≤ f → f ≤ 2147483647 →
      ∃ t, exec (.notchSpectrum c [(b, f, h)]) s = .next t ∧ t.get (K.notch_NotchState (4 * c)) = 2 ∧
        t.getI (K.notch_PresentFrequency (4 * c)) 4 = f ∧
        t.get (K.notch_EngageCount (4 * c)) = min (s.get (K.notch_EngageCount (4 * c)) + 1) 65535)

/-- R137, R138: an averaging starts at a tick edge on the chain due, and when its frames have been taken eight entries join the
spectrum stream, or, where they do not fit, none: their loss is counted. -/
def Sys2Proof.Claims.SpectrumMonitor : Prop :=
  ∀ (s : State), s.Inv → s.inRun = true → s.atEdge = true →
    (∀ c, s.fwUp = true → s.getB K.spectrumMonitor_SpecEnable = true → s.rx.spec = none →
      (s.rx.specRedo = true ∨ ∀ m, s.rx.specLast = some m → m + s.get K.spectrumMonitor_SpecInterval * MS ≤ s.elapsed) →
      specNext s = some c → ∃ t, exec .spectrumAveragingStart s = .next t ∧ t.rx.specLast = some s.elapsed ∧
      t.rx.spec = some ⟨c, s.get K.spectrumMonitor_SpecPoint, s.get K.spectrumMonitor_SpecAverage, s.elapsed, s.time.t0,
        s.get (K.chain_AgcGain c), 0⟩) ∧
    (∀ (r : SpecRun) (l : List Int), s.rx.spec = some r → r.start + specTime r.frames ≤ s.elapsed →
      ∃ t, exec (.spectrumEntry l) s = .next t ∧ t.rx.spec = none ∧
        (streamWords (s.stream 0x3051) + 2112 ≤ 8448 →
          t.stream 0x3051 = s.stream 0x3051 ++ (List.range 8).map fun i => (65536 + 263) :: specBody r (l.map specBin) i) ∧
        (8448 < streamWords (s.stream 0x3051) + 2112 → t.stream 0x3051 = s.stream 0x3051 ∧
          t.get K.spectrumStream_Overflow = 1 ∧ t.get K.spectrumStream_DroppedCount = min 65535 (s.get K.spectrumStream_DroppedCount + 8)))

/-- Calibration of the chains, their notches, and the spectrum monitor. Where the spec leaves it open, as log entries 84, 85,
158, 159, 161 of the model say. -/
def Obligations.ChainsAndSpectrum : Prop :=
  Claims.ChainCalibration ∧ Claims.SpectrumMonitor

/-- R140 to R142: an antenna that becomes unusable hands over to the other, and its search results go; Primary serves again
once it has been usable for RevertDelay. Where the spec leaves it open, as log entries 86, 162 of the model say. -/
def Obligations.AntennaSelection : Prop :=
  ∀ (s : State), s.Inv → s.inRun = true → s.atEdge = true →
    let v := s.get K.antennaRedundancy_ActiveAntenna
    let counted (t : State) : Prop := t.get K.antennaRedundancy_SwitchCount = min (s.get K.antennaRedundancy_SwitchCount + 1) 65535
    (s.rx.mode = 1 → v < 2 → usable s v = false → usable s (1 - v) = true → ∃ t, exec .antennaSwitch s = .next t ∧
      t.get K.antennaRedundancy_ActiveAntenna = 1 - v ∧ counted t ∧ ∀ r ∈ t.erg.held, r.run.ant ≠ v) ∧
    (s.rx.mode = 0 → v = 2 → usable s 0 = true → usable s 1 = false → ∃ t, exec .antennaSwitch s = .next t ∧
      t.get K.antennaRedundancy_ActiveAntenna = 0 ∧ counted t ∧ ∀ r ∈ t.erg.held, r.run.ant ≠ 1) ∧
    (∀ m, s.rx.mode = 1 → v < 2 → s.rx.primary < 2 → s.getB K.antennaRedundancy_Revertive = true → v ≠ s.rx.primary →
      usable s s.rx.primary = true →
      (s.ant s.rx.primary).usableSince = some m → s.get K.antennaRedundancy_RevertDelay * 1000 ≤ s.time.ms - m →
      ∃ t, exec .antennaRevert s = .next t ∧ t.get K.antennaRedundancy_ActiveAntenna = s.rx.primary ∧ counted t)

/-- R156, R164, R166 to R175: the search engine. LANE_RUN_START: the lowest free lane takes the entry due. PASS_DECISION: a pass that
detects leads to a verification, one that does not to the next pass, or to the end of the run. VERIFICATION: a verified candidate,
refined within a cell and a half, is a result that waits for a slot; a failed one counts, and the run goes on or ends. HANDOFF_LOAD: the
result loads into the lowest FREE slot as QUEUED, is a DUPLICATE where a slot holds its signal, or is held; NO_SLOT: it is discarded
after HandoffHold. AUTO_LIST_REFILL: the firmware refills its entries. Where the spec leaves it open, as log entries 87, 88, 89, 90, 164,
165 of the model say. -/
def Obligations.SearchEngine : Prop :=
  ∀ (s : State) (l at_ : Nat), s.Inv → s.inRun = true → l < 8 →
    let n := s.reach (s.time.t0 + at_)
    let lane (t : State) : Option ErgRun := t.erg.lane.getD l none
    let ended (t : State) (e outcome : Nat) : Prop := e < 256 → t.get (K.searchEntry_LastResult e) = outcome
    (∀ (p : ErgPred) (e a : Nat), s.erg.enable = true → bit s.erg.lanes l = true → lane s = none →
      (∀ k < l, bit s.erg.lanes k = true → s.erg.lane.getD k none ≠ none) → bestEntry s = some (e, a) →
      ∃ t r, exec (.laneRunStart p) s = .next t ∧ lane t = some r ∧ r.entry = e ∧ r.ant = a ∧ r.pass = 1 ∧ r.verifying = false ∧
        r.signal = s.get (K.searchEntry_SignalId e) ∧ r.satellite = s.get (K.searchEntry_Satellite e) ∧
        r.began = (nextEdge s).2 ∧ r.passes = passCount (r.win.c * r.win.f) r.tc ∧
        t.get (K.searchEntry_LastStart e) = toTime96 (nextEdge s).1 ∧ t.get (K.searchEntry_EffectiveTc e) = r.tc ∧
        t.get (K.searchEntry_AssistUsed e) = r.level) ∧
    (∀ r, lane s = some r → blocksDone n r = true →
      (∀ cell line ratio : Nat, r.verifying = false → cell < r.win.c → line < r.win.f →
        let c : Instr := .passDecision l cell line ratio at_
        (detects r ratio = true → ∃ t r', exec c s = .next t ∧ lane t = some r' ∧ r'.verifying = true ∧
          r'.cand = some ⟨cell, line, peakAt n r (8 * cell) (8 * line) ratio, 0⟩ ∧ r'.waiting = true ∧ r'.pass = r.pass) ∧
        (detects r ratio = false → r.pass < r.passes → ∃ t r', exec c s = .next t ∧ lane t = some r' ∧ r'.verifying = false ∧
          r'.waiting = true ∧ r'.pass = r.pass) ∧
        (detects r ratio = false → r.passes ≤ r.pass → ∃ t, exec c s = .next t ∧ lane t = none ∧ ended t r.entry r.outcome)) ∧
      (∀ (cand : ErgCand) (powers : List Nat) (i : Nat), r.verifying = true → r.cand = some cand → i < 9 →
        (∀ j < 9, powers.getD j 0 ≤ powers.getD i 0) →
        let c : Instr := .verification l powers at_
        (detects r (powers.getD i 0) = true → (∀ pk cn0, crossRejects n r pk cn0 = false) →
          (r.level = 3 ∨ r.level = 4 → r.split = false) →
          ∃ t res, exec c s = .next t ∧ lane t = none ∧ res ∈ t.erg.held ∧
            ((∀ y ∈ s.erg.held, y.at_ ≠ n.elapsed) → t.erg.held = s.erg.held ++ [res]) ∧
            (∃ dc df : Int, -12 ≤ dc ∧ dc ≤ 12 ∧ -12 ≤ df ∧ df ≤ 12 ∧
              res.peak = peakAt n r (8 * cand.cell + dc) (8 * cand.line + df) (powers.getD i 0)) ∧
            res.cn0 = ergCn0 (powers.getD i 0) r.tc ∧ res.run.entry = r.entry ∧ res.run.satellite = r.satellite ∧
            res.from_ = (if n.time.now - s.time.t0 < 900 * US then s.time.ms else s.time.ms + 1) ∧ res.tried = false) ∧
        (detects r (powers.getD i 0) = false → ∃ t, exec c s = .next t ∧
          t.get K.erg_VerifyFailCount = min (s.get K.erg_VerifyFailCount + 1) 65535 ∧
          (r.pass < r.passes → ∃ r', lane t = some r' ∧ r'.verifying = false ∧ r'.waiting = true) ∧
          (r.passes ≤ r.pass → lane t = none ∧ ended t r.entry 3)))) ∧
    (∀ (r : ErgResult) (n : Nat), s.erg.held = [r] → r.run.entry < 256 →
      (r.from_ ≤ s.time.ms → r.tried = false →
        let held := slotHolds s r.run.signal r.run.satellite r.run.ant fun st => decide (1 ≤ st ∧ st ≤ 5)
        (held = false → n < 512 → s.slotState n = 0 → (∀ m < n, s.slotState m ≠ 0) →
          s.slotsInUse < s.get K.tickBudget_SlotsHeldLimit →
          ∃ t, exec .handoffLoad s = .next t ∧ t.erg.held = [] ∧ t.slotState n = 1 ∧ t.slotSig n = r.run.signal ∧
            t.slotSat n = r.run.satellite ∧ t.slotAnt n = r.run.ant ∧ (t.slot n).startMs = s.time.ms + 1 ∧ ended t r.run.entry 1 ∧
            t.get K.erg_HandoffsDone = (s.get K.erg_HandoffsDone + 1) % 2 ^ 32) ∧
        (held = true → ∃ t, exec .handoffLoad s = .next t ∧ t.erg.held = [] ∧ ended t r.run.entry 7) ∧
        (held = false → (∀ m < 512, s.slotState m ≠ 0) → ∃ t, exec .handoffLoad s = .next t ∧
          t.erg.held = [{ r with tried := true }])) ∧
      (r.tried = true → s.get K.erg_HandoffHold < s.time.ms - r.posted → ∃ t, exec .noSlot s = .next t ∧ t.erg.held = [] ∧
        ended t r.run.entry 6 ∧ t.get K.erg_NoSlotCount = min (s.get K.erg_NoSlotCount + 1) 65535)) ∧
    (∀ predicted, s.erg.auto = true → s.fwUp = true → (∀ m, s.erg.refill = some m → m + SEC ≤ s.elapsed) →
      (∀ e, 128 ≤ e → e < 256 → laneOf s e = none) →
      (autoList s predicted = [] → ∃ t, exec (.autoListRefill predicted) s = .next t ∧ t.erg.rotation = s.erg.rotation + 128 ∧
        ∀ e, 128 ≤ e → e < 256 → t.get (K.searchEntry_EntryEnable e) = 0) ∧
      (∀ c, autoList s predicted = [c] →
        (∀ e, 128 ≤ e → e < 256 → s.get (K.searchEntry_EntryEnable e) = 2 → s.get (K.searchEntry_SignalId e) = c.1 →
          s.get (K.searchEntry_Satellite e) ≠ c.2.1) →
        ∃ t, exec (.autoListRefill predicted) s = .next t ∧ t.get (K.searchEntry_EntryEnable 128) = 2 ∧
          t.get (K.searchEntry_SignalId 128) = c.1 ∧ t.get (K.searchEntry_Satellite 128) = c.2.1 ∧
          ∀ e, 129 ≤ e → e < 256 → t.get (K.searchEntry_EntryEnable e) = 0))

/-- R187 to R190, R211, R212: the correlators. A slot that correlates latches, at its next code epoch within the tick (what is
left of the code at the code NCO's rate), a dump: bits 27 to 4 of its sums as signed words, zeros where the chain's buses
have been zero for the whole code period, zeros for the pilot of a signal without one, with the spacings that were in force
over it; the profile's spacings take effect there. A parity fault sets PARITY and asks for a re-run, a failed re-run makes
the record bad with a second fault; three faults within a second retire the slot at the edge, with LastFreeCause as it was. Where the spec
leaves it open, as log entries 92, 98 of the model say. -/
def Obligations.SlotCorrelators : Prop :=
  ∀ (s : State) (n : Nat), s.Inv → s.inRun = true → n < 512 →
    (∀ data pilot mm : List Int, 2 ≤ s.slotState n → s.slotState n ≤ 5 → (s.slot n).startMs ≤ s.time.ms →
      nextEpoch s n ≤ s.tickAhead - s.time.t0 → data.length = 12 → pilot.length = 12 → mm.length = 4 →
      let x := s.slot n
      let v := s.slotSig n
      let r := s.reach (s.time.t0 + nextEpoch s n)
      let words (l : List Int) : List Int := l.map fun a => toInt 3 (dumpWord a)
      ∃ t e, exec (.dumpLatch n data pilot mm) s = .next t ∧ (t.slot n).dumps = x.dumps ++ [e] ∧
        e.per = x.periods + x.latched ∧ e.at_ = s.time.t0 + nextEpoch s n ∧ e.spacing = x.spacing ∧
        ((s.chain (s.slotChain n)).zeroAt = none →
          e.data = words data ∧ e.mm = words mm ∧ (sigPilot v = true → e.pilot = words pilot)) ∧
        (∀ z, (s.chain (s.slotChain n)).zeroAt = some z → z + sigPeriod v * MS ≤ r.elapsed →
          e.data = List.replicate 12 0 ∧ e.mm = List.replicate 4 0 ∧ e.pilot = List.replicate 12 0) ∧
        (sigPilot v = false → e.pilot = List.replicate 12 0) ∧
        (t.slot n).latched = x.latched + 1 ∧ (t.slot n).spacing = spacingOf s v ∧
        (t.slot n).seq = (x.seq + 1) % 65536 ∧ t.dict = s.dict ∧ ∀ m, m ≠ n → t.slot m = s.slot m) ∧
    (∀ again : Bool, s.slotState n ≠ 6 → ∃ t, exec (.parityFault n again) s = .next t ∧ (t.slot n).rerun = true ∧
      (t.slot n).bad = (again || (s.slot n).bad) ∧ bit (t.get (K.slot_SlotFlags n)) 1 = true ∧
      t.get (K.slot_ParityFaults n) = min (s.get (K.slot_ParityFaults n) + (if again = true then 2 else 1)) 65535 ∧
      t.slotState n = s.slotState n ∧ ∀ m, m ≠ n → t.slot m = s.slot m) ∧
    (s.atEdge = true → s.slotState n ≠ 6 → 3 ≤ (s.slot n).parity.length → ∃ t, exec (.slotRetired n) s = .next t ∧
      t.slotState n = 6 ∧ t.get (K.slot_LastFreeCause n) = s.get (K.slot_LastFreeCause n) ∧
      bit (t.get K.tracking_TrackingFlags) 0 = true ∧
      t.get K.tracking_SlotRetiredEvents = min (s.get K.tracking_SlotRetiredEvents + 1) 65535)

/-- R192, R214, R222, R223, R231: the states of a slot. At a tick edge a QUEUED slot whose NCOs have started enters PULL_IN, and a
transition decided takes effect, a release to FREE with its cause; PullInTimeout, LostHold and a second of cross-correlation free the slot
with the causes of R192; a transition histogram without a position in 10 s starts anew. Where the spec leaves it open, as
log entries 31, 93 of the model say. -/
def Obligations.SlotStates : Prop :=
  ∀ (s : State) (n : Nat), s.Inv → s.inRun = true → n < 512 →
    let freed (t : State) (cause : Nat) : Prop := t.slotState n = 0 ∧ t.get (K.slot_LastFreeCause n) = cause ∧
      t.get (K.slot_StateEntered n) = s.edge96 ∧ t.get (K.slot_SignalId n) = 0 ∧ t.get (K.slotNav_FrameState n) = 0
    (s.atEdge = true →
      ((s.slot n).next = none → s.slotState n = 1 → (s.slot n).startMs ≤ s.time.ms →
        ∃ t, exec (.slotStateChange n) s = .next t ∧ t.slotState n = 2 ∧
        t.get (K.slot_StateEntered n) = s.edge96 ∧ (t.slot n).age = 0 ∧ t.slotSig n = s.slotSig n ∧
        (t.slot n).v = s.getI (K.slot_Doppler n) 6 * 16777216) ∧
      (∀ w cause : Nat, (s.slot n).next = some (w, cause) → 1 ≤ s.slotState n → s.slotState n ≤ 5 →
        (1 ≤ w → ∃ t, exec (.slotStateChange n) s = .next t ∧ t.slotState n = w ∧ (t.slot n).next = none ∧
          t.get (K.slot_StateEntered n) = s.edge96 ∧ t.slotSig n = s.slotSig n) ∧
        (w = 0 → ∃ t, exec (.slotStateChange n) s = .next t ∧ freed t cause)) ∧
      ((s.slot n).next = none →
        (s.slotState n = 2 → s.get (K.trackingProfile_PullInTimeout (s.slotSig n)) ≤ (s.slot n).age →
          ∃ t, exec (.pullInFailed n) s = .next t ∧ freed t 6) ∧
        (s.slotState n = 5 → s.get (K.trackingProfile_LostHold (s.slotSig n)) ≤ (s.slot n).age →
          ∃ t, exec (.lostTimeout n) s = .next t ∧ freed t 7)) ∧
      (∀ e ∈ (s.slot n).cross, s.slotState n = 3 ∨ s.slotState n = 4 → e.2 + 999 ≤ s.time.ms →
        ∃ t, exec (.crossCorrDrop n) s = .next t ∧ freed t 8 ∧ bit (t.get K.tracking_TrackingFlags) 2 = true ∧
          t.get K.tracking_CrossCorrDrops = min (s.get K.tracking_CrossCorrDrops + 1) 65535)) ∧
    (1 ≤ s.slotState n → s.slotState n ≤ 5 → sigHistogram (s.slotSig n) (s.slotSat n) ≠ 0 → s.lockBit n 4 = false →
      10000 ≤ s.time.ms - (s.slot n).histAt → ∃ t, exec (.histogramRestart n) s = .next t ∧ (t.slot n).hist = [] ∧
      (t.slot n).histSign = none ∧ (t.slot n).histAt = s.time.ms ∧ t.dict = s.dict)

/-- R24, R195, R197 to R199, R207 to R209: the loops. An update of a slot in PULL_IN, in TRACK, or in AIDED before its first
window takes its next whole coherent interval; a window of a slot in AIDED is computed once it has ended with its symbols
in hand or AidedLatencyLimit has passed. Either takes the code and the carrier discriminator into the filters of the
configured order and bandwidths and submits the NCO words for the next edge, or in the guard interval for the edge after
it; in LOST the loops are open, without dumps that are neither BAD nor CAL nothing moves, and a window mostly calibrated
over moves nothing. The clauses name the discriminators where the spec states their value. Where the spec leaves it open,
as log entries 91, 92, 94, 95, 97, 167, 168, 169 of the model say. -/
def Obligations.TrackingLoops : Prop :=
  ∀ (s : State) (n at_ : Nat), s.Inv → s.fwWorks = true → n < 512 →
    let v := s.slotSig n
    let x := s.slot n
    let st := s.slotState n
    let c := s.reach (s.time.t0 + at_)
    let submitted (t : State) (w : Nat × Nat) : Prop :=
      if s.cpu.guard = true then t.cpu.ncoLater = SMap.set none n (some w) s.cpu.ncoLater ∧ t.cpu.ncoNext = s.cpu.ncoNext
      else t.cpu.ncoNext = SMap.set none n (some w) s.cpu.ncoNext ∧ t.cpu.ncoLater = s.cpu.ncoLater
    let unmoved (t : State) : Prop := (t.slot n).vc = x.vc ∧ (t.slot n).v = x.v ∧ (t.slot n).acc = x.acc ∧ t.cpu.ncoNext = s.cpu.ncoNext ∧
      t.cpu.ncoLater = s.cpu.ncoLater
    (st = 2 ∨ st = 3 ∨ st = 4 ∧ x.windowed = false →
      let cohT := if st = 3 then trackT s n else if st = 2 ∧ loopSynced s n = false then sigPeriod v
        else s.get (K.slot_CoherentInUse n)
      ∀ g rest, groupTake s n cohT = some (g, rest) →
      let use := g.filter fun e => !e.bad && !e.cal
      (use = [] → ∃ t, exec (.loopUpdate n at_) s = .next t ∧ unmoved t) ∧
      (∀ last, use.getLast? = some last → chainCal s (s.slotChain n) = false →
        let data := dataSums s n use
        let lead := if sigPilot v = true then pilotSum s n use else data.headD []
        let cs := if sigPilot v = true then pilotSum s n use :: data else data
        let p := tap lead 2
        let ec := codeDisc s (s.get (K.trackingProfile_DllDiscriminator v)) v (if st = 2 then last.spacing.2.1 else last.spacing.1)
          (st == 2) cs lead
        let fllOnly := st = 2 ∧ x.age < s.get (K.trackingProfile_PullInFllTime v)
        let ep := if fllOnly then (0, false) else carrierDisc s (s.get (K.trackingProfile_PllDiscriminator v)) p
        let ef := if st = 2 ∨ s.lockBit n 2 = true then ((x.prior.map fun q => fllDisc (sigPilot v) q p cohT).getD 0) else 0
        let bn := (if st = 2 then 4 else 1) * s.get (K.trackingProfile_DllBandwidth v)
        let cl := codeLoop (s.get (K.trackingProfile_DllOrder v)) bn cohT x.vc ec.1
        let wf := fllW (s.get (K.trackingProfile_FllOrder v)) (s.get (K.trackingProfile_FllBandwidth v))
        let ca := carrierLoop (s.get (K.trackingProfile_PllOrder v)) (10 * s.get (K.trackingProfile_PllBandwidth v)) cohT wf.1 wf.2
          x.v x.acc ep.1 ef
        ec.2 = false → ep.2 = false → ∃ t, exec (.loopUpdate n at_) s = .next t ∧ (t.slot n).vc = cl.1 ∧ (t.slot n).v = ca.1 ∧
          (t.slot n).acc = ca.2.1 ∧ (t.slot n).dop = ca.2.2 ∧ (t.slot n).prior = some p ∧ (t.slot n).inbox = rest ∧
          submitted t (ncoWords v (s.slotSat n) cl.2 x.dop ca.2.2))) ∧
    (st = 5 → ∃ t, exec (.loopUpdate n at_) s = .next t ∧ unmoved t) ∧
    (st = 4 → x.windowed = true →
      let act := s.get (K.slot_CoherentInUse n)
      let ends := x.winAt + act * MS
      let mine := x.window.filter fun e => decide (x.winAt < e.at_) && decide (e.at_ ≤ ends)
      let whole := ∀ e ∈ mine, ∃ k, dumpSymbol c n e = some k ∧ peerHas c v (s.slotSat n) k = true
      ends ≤ s.time.t0 → chainCal s (s.slotChain n) = false →
      whole ∨ ends + s.get K.tracking_AidedLatencyLimit * MS ≤ c.time.now →
      let use := mine.filter fun e => !e.cal && !e.bad
      let lost := 2 * ((mine.filter fun e => e.cal).length * sigPeriod v)
      let terms := (windowTerms c n use).1
      let taps := sumTaps terms
      let span := aidedSpan s n
      let began (t : State) : Prop := (t.slot n).winAt = (ends + span - 1) / span * span
      (act < lost ∨ terms = [] → ∃ t, exec (.aidedWindowUpdate n at_) s = .next t ∧ unmoved t ∧ began t) ∧
      (∀ last, lost ≤ act → terms ≠ [] → use.getLast? = some last →
        let ec := codeDisc s 2 v last.spacing.1 false [taps] taps
        let ep := carrierDisc s 1 (tap taps 2)
        let cl := codeLoop (s.get (K.trackingProfile_DllOrder v)) (s.get (K.trackingProfile_AidedDllBandwidth v)) act x.vc ec.1
        let ca := carrierLoop (s.get (K.trackingProfile_PllOrder v)) (s.get (K.trackingProfile_AidedPllBandwidth v)) act 0 1 x.v x.acc
          ep.1 0
        ec.2 = false → ep.2 = false → ∃ t, exec (.aidedWindowUpdate n at_) s = .next t ∧ began t ∧
          (t.slot n).vc = cl.1 ∧ (t.slot n).v = ca.1 ∧ (t.slot n).acc = ca.2.1 ∧
          submitted t (ncoWords v (s.slotSat n) cl.2 x.dop ca.2.2)))

/-- R160, R235 to R240, R242, R247, R287: navigation data. The oldest block of a decoder is taken from its queue: a frame of
an aligned slot that passes its last check counts and waits, as checked, for the next tick edge; a failed one counts, and
three in a row lose the alignment; a candidate that fails is discarded, and one that passes its first check confirms the
alignment when an accepted candidate stands one frame before it in the same polarity. A block of symbols that is predicted
goes to the peers that subscribed (between commands no block waits to be sent); an ephemeris expires at FitEnd; a leap
second announced is applied; a sighting is held for 10 s. Where the spec leaves it open, as log entries 92, 96, 99, 100,
163, 166, 170, 171, 194 of the model say. -/
def Obligations.NavigationData : Prop :=
  ∀ (s : State) (at_ : Nat), s.Inv →
    let c := s.reach (s.time.t0 + at_)
    (∀ (d st : Nat) (j : NavJob) (l : List NavJob), s.fwWorks = true → d < 5 → j.slot < 512 → s.nav.queue.getD d [] = j :: l →
      j.stage = some st →
      let n := j.slot
      let x := s.slot n
      let v := s.slotSig n
      let got := Config.navCheck v (s.slotSat n) st j.block
      (s.frameState n = 3 → j.pos % frameLen v = x.framePos % frameLen v →
        (∀ b, got = some b → st = lastStage v → bchFirst v = false ∨ st ≠ 0 → ∃ t i, exec (.decodeComplete d at_) s = .next t ∧
          t.nav.queue.getD d [] = l ∧ (t.slot n).failRun = 0 ∧
          t.get (K.slotNav_FramesChecked n) = (s.get (K.slotNav_FramesChecked n) + 1) % 2 ^ 32 ∧
          t.get (K.slotNav_LastMessageAt n) = toTime96 j.at_ ∧ t.nav.checked = s.nav.checked ++ [i] ∧ i.slot = n ∧ i.signal = v ∧
          i.satellite = s.slotSat n ∧ i.inverted = j.inverted ∧ i.rxAt = j.at_ ∧ i.bits = b) ∧
        (got = none → st = lastStage v ∨ bchFirst v = true → ∃ t, exec (.decodeComplete d at_) s = .next t ∧
          t.nav.queue.getD d [] = l ∧ t.nav.checked = s.nav.checked ∧
          t.get (K.slotNav_FramesFailed n) = min (s.get (K.slotNav_FramesFailed n) + 1) 65535 ∧
          bit (t.get K.navData_NavFlags) 0 = true ∧
          (x.failRun < 2 → t.frameState n = 3 ∧ (t.slot n).failRun = x.failRun + 1) ∧
          (2 ≤ x.failRun → t.frameState n = 1 ∧ (t.slot n).failRun = 0 ∧ (t.slot n).cands = []))) ∧
      (s.frameState n ≠ 3 → (∃ e ∈ x.cands, e.pos = j.pos) →
        (got = none → ∃ t, exec (.decodeComplete d at_) s = .next t ∧ t.nav.queue.getD d [] = l ∧
          (t.slot n).cands = x.cands.filter (fun e => e.pos != j.pos) ∧
          t.get (K.slotNav_Candidates n) = (t.slot n).cands.length ∧
          t.get K.navData_FalsePreambles = min (s.get K.navData_FalsePreambles + 1) 65535) ∧
        (∀ b, got = some b → st = 0 → bchFirst v = false → inRotation x v j.pos = true →
          (∃ e ∈ x.cands, e.accepted = true ∧ e.pos + frameLen v = j.pos ∧ e.inverted = j.inverted) →
          ∃ t, exec (.decodeComplete d at_) s = .next t ∧ t.nav.queue.getD d [] = l ∧ t.frameState n = 3 ∧
            t.get (K.slotNav_Polarity n) = (if j.inverted = true then 2 else 1) ∧ (t.slot n).framePos = j.pos ∧
            (t.slot n).cands = [] ∧ t.get (K.slotNav_Candidates n) = 0))) ∧
    (∀ (n e part start : Nat) (p : StorePart) (tx : Int), s.fwWorks = true → n < 512 → e < 256 →
      let v := s.slotSig n
      let sat := s.slotSat n
      let sym := sigSymbol v sat * MS
      let syms := Config.navPredict v sat p.bits start
      let now := tx + codeTime s n + ((c.time.now - s.time.t0 : Nat) : Int)
      let b : SymBlock := ⟨v, sat, 0, start, syms⟩
      (s.storeSt e).parts.find? (fun p => p.part == part && Config.navPredictable v p.bits) = some p →
      txAt s n (s.slot n).periods = some tx → s.get (K.storeEntry_Kind e) ≠ 0 →
      navFamily (s.get (K.storeEntry_SignalId e)) = navFamily v → storeIs s e (s.get (K.storeEntry_Kind e)) v sat = true →
      (∀ u, s.nav.stepAt = some u → u + SEC ≤ c.time.now) → ((start : Int) - sysOffset s v) % sym = 0 → now ≤ start →
      ((start + syms.length * sym : Nat) : Int) ≤ now + (s.nav.horizon * MS : Nat) → publishes s n = true →
      1 ≤ syms.length → syms.length ≤ 4000 → s.nav.blocks = [] → lakeActive s = true → blockTargets c b ≠ [] →
      ∃ t, exec (.predictedBlock n e part start at_) s = .next t ∧ t.nav.blocks = [] ∧
        t.get K.navData_BlocksPublished = (s.get K.navData_BlocksPublished + 1) % 2 ^ 32) ∧
    (∀ e : Nat, e < 256 → s.inRun = true → s.timing ≠ 0 → s.get (K.storeEntry_Kind e) = 1 →
      s.get (K.storeEntry_EntryState e) = 2 ∨ s.get (K.storeEntry_EntryState e) = 3 →
      s.get (K.storeEntry_FitEnd e) ≤ s.now96 →
      ∃ t, exec (.ephemerisExpired e) s = .next t ∧ t.get (K.storeEntry_EntryState e) = 4 ∧
        ∀ k, k ≠ K.storeEntry_EntryState e → t.get k = s.get k) ∧
    (s.get K.utc_LeapPending ≠ 0 → s.timing ≠ 0 → s.get K.utc_LeapAt ≤ s.now96 →
      ∃ t, exec .leapApplied s = .next t ∧ t.get K.utc_LeapPending = 0 ∧
        t.get K.utc_LeapOffset = ofInt 2 (s.getI K.utc_LeapOffset 2 + (if s.get K.utc_LeapPending = 1 then 1 else -1)) ∧
        bit (t.get K.utc_UtcFlags) 0 = true ∧ t.get K.utc_LeapsApplied = min (s.get K.utc_LeapsApplied + 1) 65535) ∧
    (s.inRun = true → ∃ t, exec (.sightingExpiry at_) s = .next t ∧
      (∀ x, x ∈ t.nav.sightings ↔ x ∈ s.nav.sightings ∧ (c.elapsed : Int) ≤ x.at_ + (10 * SEC : Nat)) ∧
      t.get K.aidService_SightingsHeld = min 65535 t.nav.sightings.length)

/-- R257, R258, R263: measurement epochs. What an epoch edge observes is every slot in TRACK or AIDED with CODE_LOCK, in slot
order, as it stands there. The epoch that fell due is formed of that; an epoch that is no solution epoch joins the observation stream 300 ms later, whole
or, where it does not fit, not at all. -/
def Sys2Proof.Claims.MeasurementEpochs : Prop :=
  ∀ (s : State), s.Inv → s.inRun = true →
    (∀ te : Nat, ∃ d, (s.epochObserve te).sol.due = some d ∧ d.at_ = te ∧ d.tstate = s.timing ∧ d.cfg = epochCfg s te ∧
      d.obs.map (·.slot) = (List.range 512).filter (fun n => (s.slotState n == 3 || s.slotState n == 4) && s.lockBit n 0) ∧
      ∀ o ∈ d.obs, o.signal = s.slotSig o.slot ∧ o.satellite = s.slotSat o.slot ∧ o.ant = s.slotAnt o.slot ∧
        o.cn0 = s.get (K.slot_Cn0 o.slot) ∧ o.lock = s.get (K.slot_LockTime o.slot) ∧
        o.doppler = s.getI (K.slot_Doppler o.slot) 6 ∧ ((s.epochObserve te).slot o.slot).slipped = false ∧
        ∀ tx, txAt s o.slot (s.slot o.slot).periods = some tx → o.transit = (te : Int) - (tx + codeTime s o.slot)) ∧
    (∀ (d : EpochDue) (at_ : Nat), s.sol.due = some d → s.cpu.guard = false → s.fwUp = true →
      ∃ t e, exec (.measurementEpoch at_) s = .next t ∧ t.sol.due = none ∧ t.sol.epochs = s.sol.epochs ++ [e] ∧
        t.get K.measurement_EpochsFormed = (s.get K.measurement_EpochsFormed + 1) % 2 ^ 32 ∧ e.at_ = d.at_ ∧ e.ms = s.time.ms ∧
        e.tstate = d.tstate ∧ e.obs = d.obs ∧ e.cfg = d.cfg ∧
        (e.solution = true ↔ d.at_ % SEC = 0 ∧ s.get K.timeSolution_SolutionEnable ≠ 0)) ∧
    (∀ (e : EpochSt) (l : List EpochSt), s.sol.epochs = e :: l → e.solution = false → e.ms + 300 ≤ s.time.ms →
      s.get K.measurement_MeasStreamEnable ≠ 0 →
      let t96 := toTime96 e.at_
      let head := (0x04 * 65536 + 6) :: ((List.range 4).map (fun k => t96 / 2 ^ (24 * (3 - k)) % 2 ^ 24) ++
        [e.tstate * 2 ^ 21 + e.obs.length, 0])
      ∃ t, exec .epochStreamAppend s = .next t ∧ t.sol.epochs = l ∧
        (streamWords (s.stream 0x5011) + (7 + 15 * e.obs.length) ≤ 16384 →
          t.stream 0x5011 = s.stream 0x5011 ++ head :: e.obs.map (fun o => (0x05 * 65536 + 14) :: obsBody o)) ∧
        (16384 < streamWords (s.stream 0x5011) + (7 + 15 * e.obs.length) → t.stream 0x5011 = s.stream 0x5011 ∧
          t.get (0x5011 * 256 + 3) = 1 ∧
          t.get (0x5011 * 256 + 4) = min 65535 (s.get (0x5011 * 256 + 4) + (1 + e.obs.length))))

/-- R258, R272, R275, R276, R282: the time solution. A solution takes the oldest solution epoch and shows how many measurements it used
and excluded; VALID, it gives the clock offset and its sigma; otherwise SolutionState names why and FitForStep is FALSE. One
not complete 300 ms after its epoch is skipped; a survey that has run for SurveyMaxTime begins anew. -/
def Sys2Proof.Claims.TimeSolution : Prop :=
  ∀ (s : State), s.Inv → s.inRun = true →
    (∀ (e : EpochSt) (at_ : Nat), s.sol.epochs.find? (fun x => x.solution) = some e → s.time.ms ≤ e.ms + 300 →
      s.fwUp = true →
      let r := (solve s e).1
      ∃ t, exec (.solution at_) s = .next t ∧ t.sol.epochs = s.sol.epochs.erase e ∧
        t.get K.timeSolution_SolutionEpoch = toTime96 e.at_ ∧ t.get K.timeSolution_UsedCount = min 255 r.used.length ∧
        t.get K.timeSolution_DualCount = min 255 (r.used.filter fun m => m.dual).length ∧
        t.get K.timeSolution_ExcludedCount = r.out.length ∧
        (s.get K.timeSolution_FdeExclusions ≤ 65535 →
          t.get K.timeSolution_FdeExclusions = min 65535 (s.get K.timeSolution_FdeExclusions + r.out.length)) ∧
        (r.state ≠ 2 → t.get K.timeSolution_SolutionState = r.state ∧ t.get K.timeSolution_FitForStep = 0 ∧
          (r.state = 3 → bit (t.get K.timeSolution_SolutionFlags) 1 = true)) ∧
        (∀ f, r.state = 2 → r.fit = some f →
          t.get K.timeSolution_ClockOffset = ofInt 8 (ratRound (f.x.getD 0 0)) ∧
          t.get K.timeSolution_ClockRate = ofInt 6 (clamp (-(2 ^ 47)) (2 ^ 47 - 1) (solutionRate e r)) ∧
          t.get K.timeSolution_SolutionSigma = sigmaPs f ∧
          (s.timing = 0 ∨ s.get K.trust_TrustState = 0 ∧ s.sol.qualify = false → t.get K.timeSolution_SolutionState = 2) ∧
          (t.get K.timeSolution_SolutionState = 2 ∨ t.get K.timeSolution_SolutionState = 4))) ∧
    (∀ e : EpochSt, s.sol.epochs.find? (fun x => x.solution && decide (x.ms + 300 ≤ s.time.ms)) = some e →
      ∃ t, exec .solutionSkipped s = .next t ∧ t.sol.epochs = s.sol.epochs.erase e ∧ t.sol.series = [] ∧
        t.sol.valid = (none :: s.sol.valid).take 3 ∧ t.get K.timeSolution_FitForStep = 0 ∧
        bit (t.get K.timeSolution_SolutionFlags) 3 = true ∧
        t.get K.timeSolution_SolutionsSkipped = min (s.get K.timeSolution_SolutionsSkipped + 1) 65535) ∧
    (∀ (a : Nat) (v : SurveySt), a < 2 → s.sol.survey.getD a none = some v →
      s.get (K.antennaPosition_SurveyMaxTime a) * 1000 ≤ s.time.ms - v.since →
      ∃ t, exec (.surveyRestart a) s = .next t ∧ t.sol.survey.getD a none = some ⟨0, 0, 0, 0, s.time.ms⟩ ∧
        t.get (K.antennaPosition_SurveyState a) = 1 ∧ t.get (K.antennaPosition_SurveyElapsed a) = 0 ∧
        bit (t.get (K.antennaPosition_PositionFlags a)) 1 = true ∧
        t.get (K.antennaPosition_SurveyRestarts a) = min (s.get (K.antennaPosition_SurveyRestarts a) + 1) 65535)

/-- Measurement epochs, the time solution and the survey. Where the spec leaves it open, as log entries 12, 92, 101, 102, 166,
193, 195 of the model say. -/
def Obligations.MeasurementsAndSolution : Prop :=
  Claims.MeasurementEpochs ∧ Claims.TimeSolution

/-- R298 to R300, R313: the states of a port. Signal, with the reference of its group, starts TRAINING; its completion brings
the port up as FABRIC (once HELLO has come and gone), ETHERNET or host port, at the line rate tried; AUTO tries the other
mode every 50 ms; 200 ms without success fail, to be tried again after 1 s; a loss of signal trains anew; a bad second
degrades, the tenth in a row retires, and 60 s without one recover. Where the spec leaves it open, as log entries 19, 172,
173 of the model say. -/
def Obligations.PortStates : Prop :=
  ∀ (s : State) (n at_ : Nat), s.Inv → n < 32 →
    let p := s.port n
    let el := (s.reach (s.time.t0 + at_)).elapsed
    let counted (t : State) (b k : Nat) : Prop := bit (t.get (K.port_PortFlags n)) b = true ∧ t.get k = min (s.get k + 1) 65535
    (s.portState n = 0 → s.inRun = true → portMode p ≠ 0 → p.failAt = none →
      (s.ports.group.toList.getD (n / 8) false = true → ∃ t, exec (.signalDetect n) s = .next t ∧ t.portState n = 1 ∧
        t.get (K.port_ActiveMode n) = 0 ∧ (t.port n).since = s.elapsed ∧ (portMode p ≠ 2 → (t.port n).helloOut = true)) ∧
      (p.signal = true → ∃ t, exec (.groupReferenceValid (n / 8)) s = .next t ∧ t.portState n = 1 ∧
        t.ports.group.toList.getD (n / 8) false = true)) ∧
    (s.portState n = 1 →
      (p.host = true → s.ports.group.toList.getD (n / 8) false = true → ∃ t, exec (.trainingComplete n true) s = .next t ∧ t.portState n = 4 ∧ t.get (K.port_ActiveMode n) = 3) ∧
      (p.host = false → s.ports.group.toList.getD (n / 8) false = true → portMode p = 2 ∨ portMode p = 3 ∧ p.tryEth = true →
        ∃ t, exec (.trainingComplete n true) s = .next t ∧ t.portState n = 3 ∧
        t.get (K.port_ActiveMode n) = 2) ∧
      (p.host = false → s.ports.group.toList.getD (n / 8) false = true → portMode p = 1 ∨ portMode p = 3 ∧ p.tryEth = false →
        p.helloIn = true → p.helloOut = true → ∃ t, exec (.trainingComplete n false) s = .next t ∧
        t.portState n = 2 ∧ t.get (K.port_ActiveMode n) = 1) ∧
      (portMode p = 3 → p.tryAt + 50 * MS ≤ el → ∃ t, exec (.autoModeSwitch n at_) s = .next t ∧ (t.port n).tryEth = !p.tryEth ∧
        (t.port n).tryAt = el ∧ t.portState n = 1) ∧
      (p.since + 200 * MS ≤ el → ∃ t, exec (.trainFail n at_) s = .next t ∧ t.portState n = 0 ∧ (t.port n).failAt = some el ∧
        counted t 6 (K.port_TrainFailures n))) ∧
    (∀ a, p.failAt = some a → s.portState n = 0 → a + SEC ≤ el → ∃ t, exec (.trainRetry n at_) s = .next t ∧
      (t.port n).failAt = none ∧
      t.portState n = if portMode p ≠ 0 ∧ s.ports.group.toList.getD (n / 8) false = true then 1 else 0) ∧
    (2 ≤ s.portState n → s.portState n ≤ 5 →
      (∀ group : Bool, ∃ t, exec (.los n group) s = .next t ∧ t.portState n = 1 ∧ (t.port n).signal = false ∧
        counted t 0 (K.port_LosEvents n)) ∧
      (∀ errs : Nat, s.atEdge = true → s.time.t0 % SEC = 0 →
        let total := errs + p.bad
        let most := if s.get (K.port_ActiveMode n) = 1 then 4 else 2
        ∃ t, exec (.errorSecond n errs) s = .next t ∧ t.get (K.port_ErrorsLastSecond n) = min 0xFFFFFFFF total ∧
          (total < most → t.portState n = s.portState n ∧ (t.port n).badRun = 0 ∧
            (t.port n).clean = if p.failed = true then 0 else p.clean + 1) ∧
          (most ≤ total → counted t 3 (K.port_BadSeconds n) ∧ t.portState n = if 10 ≤ p.badRun + 1 then 6 else 5))) ∧
    (s.portState n = 5 → 60 ≤ p.clean → ∃ t, exec (.degradedRecovery n) s = .next t ∧
      t.portState n = s.get (K.port_ActiveMode n) + 1)

/-- R301 to R305, R320 to R322: the link layer, which runs once HELLO has gone since the last reset. A good DATA frame in
order passes up and is acknowledged, a duplicate is dropped, a gap and a bad frame are NAKed; an ACK frees the retry
buffer; a NAK or the ACK timeout resends, and failed retries degrade the port at the fourth and retire it at the
sixteenth; HELLO names the peer; a queued launch leaves with its outcome. Where the spec leaves it open, as log entries
16, 19, 176 of the model say. -/
def Obligations.LinkFrames : Prop :=
  ∀ (s : State) (n at_ : Nat) (f : List Nat), s.Inv →
    let p := s.port n
    let el := (s.reach (s.time.t0 + at_)).elapsed
    let ctl (t : State) (sub seq : Nat) : Prop := (t.port n).ctl = linkFrame 2 sub 0 seq []
    (linkRuns s n = true → linkGood f = true →
      (byteAt f 0 = 0x10 → ∃ t, exec (.linkData n f at_) s = .next t ∧
        (field f 2 2 = p.rxSeq → t.net.inbox = s.net.inbox ++ [⟨n, el, (f.drop 8).take (field f 6 2)⟩] ∧
          (t.port n).rxSeq = (p.rxSeq + 1) % 65536 ∧ ctl t 1 ((p.rxSeq + 1) % 65536)) ∧
        (field f 2 2 ≠ p.rxSeq → t.net.inbox = s.net.inbox ∧ (t.port n).rxSeq = p.rxSeq ∧
          (32768 ≤ (p.rxSeq + 65536 - field f 2 2) % 65536 → ctl t 2 p.rxSeq))) ∧
      (∀ q b l, p.buf = (q, b) :: l → byteAt f 0 = 0x20 →
        let k := (field f 4 2 + 65536 - q) % 65536
        (byteAt f 1 = 1 → 0 < k → k ≤ p.buf.length → p.wait = [] → ∃ t, exec (.linkAck n f at_) s = .next t ∧
          (t.port n).buf = p.buf.drop k ∧ (t.port n).retrying = false ∧ t.get (K.port_FailedRetryRun n) = 0) ∧
        (byteAt f 1 = 2 → k = 0 → p.retrying = false → ∃ t, exec (.nak n f at_) s = .next t ∧ (t.port n).buf = p.buf ∧
          (t.port n).retrying = true ∧ (t.port n).sentAt = el ∧ t.get (K.port_Retries n) = min (s.get (K.port_Retries n) + 1) 65535))) ∧
    (linkRuns s n = true → linkGood f = false → ∃ t, exec (.linkData n f at_) s = .next t ∧ t.net.inbox = s.net.inbox ∧
      ctl t 2 p.rxSeq ∧ bit (t.get (K.port_PortFlags n)) 1 = true ∧
      t.get (K.port_CrcErrors n) = min (s.get (K.port_CrcErrors n) + 1) 65535) ∧
    (linkRuns s n = true → p.buf ≠ [] → p.sentAt + ackTimeout s n ≤ el → ∃ t, exec (.ackTimeout n at_) s = .next t ∧
      t.get (K.port_Retries n) = min (s.get (K.port_Retries n) + 1) 65535 ∧
      (∀ run, p.retrying = true → p.locked = true → run = min 16 (s.get (K.port_FailedRetryRun n) + 1) →
        t.get (K.port_FailedRetryRun n) = run ∧ t.portState n = if run = 16 then 6 else if 4 ≤ run then 5 else s.portState n) ∧
      (p.retrying = false ∨ p.locked = false → t.portState n = s.portState n ∧ (t.port n).retrying = true)) ∧
    (n < 32 → s.portState n = 1 ∧ portMode p ≠ 2 ∨ fabricUp s n = true → linkGood f = true → byteAt f 0 = 0x20 → byteAt f 1 = 3 →
      ∃ t, exec (.hello n f) s = .next t ∧ t.get (K.port_PeerAddress n) = field f 8 2 ∧ t.get (K.port_PeerPort n) = byteAt f 10 ∧
        (t.port n).helloIn = true ∧ (s.portState n = 1 → (t.port n).helloOut = true)) ∧
    (∀ e, s.ports.launch.find? (fun x => x.port == n) = some e → ethUp s n = true →
      let r := s.reach (s.time.t0 + at_)
      let outcome := if e.late = true then 1 else if toTime96 (ofTime96 e.at96 + 16 * NS) < r.now96 then 2 else 0
      let stamp := toTime96 ((r.time.now : Int) + factoryDelay s (K.port_TxDelayEth n)).toNat
      e.at96 ≤ r.now96 → s.streamFits 0x7061 6 = true → ∃ t, exec (.frameLaunch n at_) s = .next t ∧
        t.ports.launch = s.ports.launch.erase e ∧
        t.stream 0x7061 = s.stream 0x7061 ++ [(0x06 * 65536 + 5) :: (e.handle % 65536 * 256 + e.port * 8 + outcome) ::
          [3, 2, 1, 0].map fun i => bits stamp (24 * i + 23) (24 * i)])

/-- R306 to R311: the timing exchange of a fabric link. A good timing frame is stamped; with it an exchange that holds its
other three stamps is due 1 us later; posted, the exchange gives the peer's offset, the mean delay and the record in
shared memory; a launch of the last tick without a record by 200 us counts as missing; a period of calibration gives the
asymmetry measured over its solutions, or nothing without one. Where the spec leaves it open, as log entries 29, 142, 174,
175 of the model say. -/
def Obligations.LinkTiming : Prop :=
  ∀ (s : State) (n at_ : Nat), s.Inv → fabricUp s n = true →
    let p := s.port n
    let r := s.reach (s.time.t0 + at_)
    let held (t : State) (w : List Nat) : Prop := ∀ j < w.length,
      SMap.get 0 (0x2F8000 + 32 * n + j) t.cpu.shared = BitVec.ofNat 24 (w.getD j 0)
    (∀ (f : List Nat), timingGood f = true →
      let rx := toTime96 ((r.time.now : Int) - factoryDelay s (K.port_RxDelayFabric n)).toNat
      ∃ t, exec (.timingFrame n f at_) s = .next t ∧ (t.port n).rxPrev = some (rx, field f 4 8 % 65536) ∧
        ∀ (l : Launch), p.launches = [l] → l.t34 = none → l.t2.isSome = true → l.t1 ≤ rx → (t.port n).launches = [] ∧
          (t.port n).due = p.due ++ [({ l with t34 := some (field f 12 12, rx), step := l.step || bit (byteAt f 1) 1 },
            r.time.now + US)]) ∧
    (∀ (l : Launch) (a : Nat) (rest : List (Launch × Nat)), p.due = (l, a) :: rest → a ≤ r.time.now →
      let asym := s.getI (K.linkTiming_AsymInUse n) 8
      let x := exchange l asym
      x.1 < (2 ^ 63 : Nat) ∧ -(2 ^ 63 : Nat) ≤ x.1 → x.2 < (2 ^ 63 : Nat) ∧ -(2 ^ 63 : Nat) ≤ x.2 →
      ∃ t, exec (.timingRecordPosted n at_) s = .next t ∧ (t.port n).due = rest ∧ (t.port n).posted = some l.tick ∧
        t.getI (K.linkTiming_PeerOffset n) 8 = x.1 ∧ t.getI (K.linkTiming_MeanDelay n) 8 = x.2 ∧
        t.get (K.linkTiming_ExchangeTick n) = l.tick % 2 ^ 64 ∧
        ∃ q : LinkRec, (t.port n).recs = q :: p.recs ∧ q.theta = x.1 ∧ q.delta = x.2 ∧ q.tick = l.tick ∧
          held t (recordWords n true q l asym)) ∧
    ((∃ l ∈ openLaunches s n, l.tick = s.time.tick - 1 ∧ l.missed = false) →
      ∃ t, exec (.linkMissing n) s = .next t ∧ (∀ l ∈ openLaunches t n, l.tick = s.time.tick - 1 → l.missed = true) ∧
        bit (t.get (K.linkTiming_LinkTimingFlags n)) 0 = true ∧
        t.get (K.linkTiming_MissingTicks n) = min (s.get (K.linkTiming_MissingTicks n) + 1) 65535) ∧
    (∀ (peer : Int) (sigma : Nat), s.get (K.linkTiming_AsymmetrySource n) = 1 →
      s.get (K.linkTiming_AsymCalTime n) * 1000 ≤ s.time.ms - p.asymAt →
      let own := s.get K.timeSolution_SolutionSigma
      let mean := divRound (p.asymSum + 2 * p.asymN * peer) p.asymN
      ∃ t, exec (.asymCalPeriod n peer sigma) s = .next t ∧ (t.port n).asymAt = s.time.ms ∧ (t.port n).asymN = 0 ∧
        (t.port n).asymSum = 0 ∧
        (p.asymN = 0 → t.dict = s.dict) ∧
        (p.asymN ≠ 0 → mean < (2 ^ 63 : Nat) ∧ -(2 ^ 63 : Nat) ≤ mean →
          t.get (K.linkTiming_MeasuredAsymmetry n) = ofInt 8 mean ∧
          t.get (K.linkTiming_AsymUncertainty n) =
            min (2 ^ 24 - 1) (max 1 (rsqrt (4 * (own * own + sigma * sigma) * 60 / s.get (K.linkTiming_AsymCalTime n))))))

/-- R315 to R319: PTP on an Ethernet port. A MASTER sends Sync and Announce at their intervals, a SLAVE its delay requests; a
SLAVE takes its offset and its path delay from Sync, Follow_Up, Delay_Resp and Pdelay_Resp; requests are answered; a
TRANSPARENT port forwards with the residence time; an Announce names its sender, whose silence is a timeout. Where the
spec leaves it open, as log entries 20, 142 of the model say. -/
def Obligations.PtpPorts : Prop :=
  ∀ (s : State) (n at_ : Nat) (m : PtpMsg) (out : List (Nat × Nat)), s.Inv → n < 32 →
    let r := s.reach (s.time.t0 + at_)
    let p := s.ptp n
    let st := ptpState s n
    let sent (t : State) (k : Nat) (x : PtpMsg) : Prop := (t.ptp k).sent = some x ∧
      t.get (K.port_FramesTx k) = (s.get (K.port_FramesTx k) + 1) % 2 ^ 48
    let every (k : Nat) : Nat := logInterval (s.getI k 1)
    let ts : Int := ((m.ts * 65536 : Nat) : Int)
    let path := s.getI (K.ptpPort_MeanPathDelay n) 8
    let offset (t : State) (x : Int) : Prop := t.get (K.ptpPort_OffsetFromMaster n) = ofInt 8 x
    (s.fwUp = true →
      (st = 2 → p.syncAt + every (K.ptpPort_LogSyncInterval n) ≤ r.elapsed →
        let e := (egress r n).toNat
        ∃ t, exec (.syncInterval n at_) s = .next t ∧ (t.ptp n).syncSeq = (p.syncSeq + 1) % 65536 ∧ (t.ptp n).syncAt = r.elapsed ∧
          sent t n ⟨0, s.get K.ptpClock_DomainNumber, p.syncSeq, portIdentity s n, false, (e % 65536 : Nat), e / 65536, 0, none⟩) ∧
      (st = 2 → p.annAt + every (K.ptpPort_LogAnnounceInterval n) ≤ r.elapsed →
        ∃ t, exec (.announceInterval n at_) s = .next t ∧ (t.ptp n).annSeq = (p.annSeq + 1) % 65536 ∧
          sent t n ⟨11, s.get K.ptpClock_DomainNumber, p.annSeq, portIdentity s n, false, 0, 0, 0, some (ownQuality s)⟩) ∧
      (p.reqAt + every (K.ptpPort_LogDelayReqInterval n) ≤ r.elapsed →
        ∀ kind, kind = 1 ∧ s.get (K.ptpPort_DelayMechanism n) = 0 ∧ st = 3 ∨
            kind = 2 ∧ s.get (K.ptpPort_DelayMechanism n) = 1 ∧ 1 ≤ st ∧ st ≤ 4 ∧ s.timing ≠ 0 →
        ∃ t, exec (.delayReqInterval n at_) s = .next t ∧ (t.ptp n).req = some (p.reqSeq, egress r n) ∧
          sent t n ⟨kind, s.get K.ptpClock_DomainNumber, p.reqSeq, portIdentity s n, false, 0, 0, 0, none⟩)) ∧
    (ethUp s n = true → 1 ≤ st → st ≤ 4 → m.domain = s.get K.ptpClock_DomainNumber →
      (s.get (K.ptpPort_PortRole n) ≠ 2 →
        (st = 3 →
          (∀ q, p.foreign = some (q, m.source) → m.kind = 0 →
            (m.twoStep = false → ∃ t, exec (.sync n m at_ out) s = .next t ∧ offset t (ingress r n - ts - m.corr - path)) ∧
            (m.twoStep = true → ∃ t, exec (.sync n m at_ out) s = .next t ∧
              (t.ptp n).sync = some (m.seq, m.source, ingress r n, m.corr))) ∧
          (∀ t2 c, p.sync = some (m.seq, m.source, t2, c) → m.kind = 8 → ∃ t, exec (.followUp n m) s = .next t ∧
            offset t (t2 - ts - m.corr - c - path)) ∧
          (∀ t3 down, p.req = some (m.seq, t3) → p.down = some down → m.requester = portIdentity s n → m.kind = 9 →
            s.get (K.ptpPort_DelayMechanism n) = 0 →
            let d := divRound (down + (ts - m.corr - t3)) 2
            ∃ t, exec (.delayResp n m at_ out) s = .next t ∧ t.get (K.ptpPort_MeanPathDelay n) = ofInt 8 d ∧ offset t (down - d))) ∧
        (st = 2 → m.kind = 1 → s.get (K.ptpPort_DelayMechanism n) = 0 →
          let i := (ingress r n).toNat
          ∃ t, exec (.delayReq n m at_ out) s = .next t ∧
            sent t n ⟨9, m.domain, m.seq, portIdentity s n, false, m.corr - (i % 65536 : Nat), i / 65536, m.source, none⟩) ∧
        (∀ q, m.kind = 11 → m.quality = some q → p.foreign = none → ∃ t, exec (.announce n m at_ out) s = .next t ∧
          (t.ptp n).foreign = some (q, m.source))) ∧
      (s.get (K.ptpPort_DelayMechanism n) ≠ 0 →
        (∀ turn : Nat, m.kind = 2 →
          let t3 := ptpOf (((s.time.t0 + turn : Nat) : Int) + factoryDelay s (K.port_TxDelayEth n))
          ∃ t, exec (.pdelayReq n m at_ turn out) s = .next t ∧
            sent t n ⟨3, m.domain, m.seq, portIdentity s n, false, corrCap (m.corr + t3 - ingress r n), 0, m.source, none⟩) ∧
        (∀ t1, p.req = some (m.seq, t1) → m.kind = 3 → m.requester = portIdentity s n → m.twoStep = false →
          ∃ t, exec (.pdelayResp n m at_ out) s = .next t ∧ (t.ptp n).req = none ∧
            t.get (K.ptpPort_MeanPathDelay n) = ofInt 8 (divRound (ingress r n - t1 - m.corr) 2))) ∧
      (∀ k o : Nat, k < 32 → k ≠ n → s.get (K.ptpPort_PortRole n) = 2 → s.get (K.ptpPort_PortRole k) = 2 → ethUp s k = true →
        s.get (K.ptpPort_PtpPortEnable k) ≠ 0 → s.get (K.ptpPort_DelayMechanism n) = 0 → m.kind = 0 → m.twoStep = false →
        ∃ t, exec (.sync n m at_ [(k, o)]) s = .next t ∧ sent t k { m with corr := corrCap (m.corr +
          (ptpOf (((s.time.t0 + o : Nat) : Int) + factoryDelay s (K.port_TxDelayEth k)) - ingress r n)) })) ∧
    (s.get (K.ptpPort_PortRole n) = 1 → st = 1 ∨ st = 3 ∨ st = 4 → s.timing ≠ 0 →
      p.heardAt + s.get (K.ptpPort_AnnounceReceiptTimeout n) * every (K.ptpPort_LogAnnounceInterval n) ≤ r.elapsed →
      ∃ t, exec (.announceReceiptTimeout n at_) s = .next t ∧ (t.ptp n).foreign = none ∧
        bit (t.get (K.ptpPort_PtpFlags n)) 0 = true ∧
        t.get (K.ptpPort_AnnounceTimeouts n) = min (s.get (K.ptpPort_AnnounceTimeouts n) + 1) 65535) ∧
    (ethUp s n = true → ∃ t, exec (.ethernetFrameReceived n) s = .next t ∧
      t.get (K.port_FramesRx n) = (s.get (K.port_FramesRx n) + 1) % 2 ^ 48)

/-- R333 to R337, R405, R406: frames. A frame for this device that is not well formed, or whose AGE has reached 50 ms, is
dropped and counted; one without the trailer that AuthRequired asks for fails authentication. A frame for another device
goes on with HOPS less one and its AGE, or is dropped by HOPS, by AGE or for want of a route; a KIND that is not listed is
dropped. Where the spec leaves it open, as log entries 16, 106 of the model say. -/
def Obligations.NetworkFrames : Prop :=
  ∀ (s : State) (at_ : Nat) (e : InFrame) (l : List InFrame), s.Inv → s.inRun = true → s.net.inbox = e :: l →
    let r := s.reach (s.time.t0 + at_)
    let dropped (t : State) (k : Nat) : Prop := t.net.inbox = l ∧ t.get k = min (s.get k + 1) 65535 ∧
      t.get K.network_FramesDropped = min (s.get K.network_FramesDropped + 1) 65535 ∧ bit (t.get K.network_NetFlags) 2 = true
    (forUs s e.bytes = true → byteAt e.bytes 1 = 2 →
      (netGood e.bytes = false → ∃ t, exec (.join at_) s = .next t ∧ dropped t K.network_DropBad) ∧
      (netGood e.bytes = true → 50000 ≤ field e.bytes 8 2 → ∃ t, exec (.join at_) s = .next t ∧ dropped t K.network_DropAge) ∧
      (netGood e.bytes = true → field e.bytes 8 2 < 50000 → bit (byteAt e.bytes 2) 4 = false → bit s.prot.required 4 = true →
        ∃ t, exec (.join at_) s = .next t ∧ t.net.inbox = l ∧ t.net.table = s.net.table ∧
          bit (t.get K.protection_ProtFlags) 0 = true ∧
          t.get K.protection_AuthFailCount = min (s.get K.protection_AuthFailCount + 1) 65535)) ∧
    (forUs s e.bytes = true → unlisted e.bytes = true → ∃ t, exec (.networkFrameForward at_) s = .next t ∧
      dropped t K.network_DropBad) ∧
    (forUs s e.bytes = false → netGood e.bytes = true →
      let age := field e.bytes 8 2 + linkDelayUs s e.port + upUs (r.elapsed - e.at_)
      let f := withAge age (withHops (byteAt e.bytes 3 - 1) e.bytes)
      let way := portFor s (field f 4 2) (bit (byteAt f 2) 3)
      (byteAt e.bytes 3 = 0 → ∃ t, exec (.networkFrameForward at_) s = .next t ∧ dropped t K.network_DropHops) ∧
      (byteAt e.bytes 3 ≠ 0 → 50000 ≤ age → ∃ t, exec (.networkFrameForward at_) s = .next t ∧ dropped t K.network_DropAge) ∧
      (byteAt e.bytes 3 ≠ 0 → age < 50000 →
        (way = none → ∃ t, exec (.networkFrameForward at_) s = .next t ∧ dropped t K.network_DropNoRoute) ∧
        (∀ p, way = some p → (s.port p).wait = [] → ∃ t, exec (.networkFrameForward at_) s = .next t ∧ t.net.inbox = l ∧
          ∃ o ∈ (t.port p).wait ++ (t.port p).buf.map (·.2), (o.sentAt r.elapsed).bytes = f)))

/-- R328 to R334: membership. A newer LSA replaces the one held, this device's own goes out again after 10 s, one not
refreshed for 40 s goes, and a changed database gives new routes; the election names the root, its standbys and this
device's state; the root grants an address or refuses; a device that joins asks every second, and its grant gives it its
address. Where the spec leaves it open, as log entries 17, 18, 107, 108 of the model say. -/
def Obligations.Membership : Prop :=
  ∀ (s : State) (at_ : Nat), s.Inv →
    let r := s.reach (s.time.t0 + at_)
    (∀ (e : InFrame) (l : List InFrame),
      let b := netBody e.bytes
      let s1 := r.took l
      (∀ (held : Bool) (a : Lsa), s.Arrives e l 1 → lsaOf b s.time.ms false = some a → a.uid ≠ ownUid s →
        (∀ o ∈ s.net.lsas, o.uid = a.uid → serialNewer 32 a.seq o.seq = true) →
        ∃ t, exec (.lsa held at_) s = .next t ∧ a ∈ t.net.lsas ∧ ∀ o ∈ t.net.lsas, o.uid = a.uid → o = a) ∧
      (s.Arrives e l 2 → b.length = 10 → field b 8 2 < 4096 → memberState s = 4 →
        (∀ st, joinRefuses s1 none = some st → ∃ t, exec (.join at_) s = .next t ∧ t.net.table = s.net.table) ∧
        (∀ a, joinRefuses s1 none = none → addrGrant s1 (field b 0 8) (field b 8 2) = some a →
          ∃ t, exec (.join at_) s = .next t ∧
            ∀ x : AddrEnt, x ∈ t.net.table ∧ (x.uid = field b 0 8 ∨ x.addr = a) ↔ x = ⟨field b 0 8, a, s.time.ms⟩)) ∧
      (s.Arrives e l 3 → b.length = 12 → field b 8 2 < 4096 → field b 0 8 = ownUid s → memberState s = 1 →
        s.net.joined = false → field b 10 2 = St.ok → ∃ t, exec (.grant at_) s = .next t ∧
        t.get K.network_DeviceAddress = field b 8 2 ∧ t.net.joined = true ∧ t.net.fetch = fscopeKeys)) ∧
    (s.inRun = true →
      (memberState s ≠ 0 → ownLinks s = s.net.links → 10000 ≤ s.time.ms - s.net.lsaAt → ∃ t, exec (.lsaRefresh at_) s = .next t ∧
        t.net.lsaSeq = (s.net.lsaSeq + 1) % 2 ^ 32 ∧ t.net.lsaAt = s.time.ms) ∧
      (∃ t, exec (.lsaExpiry at_) s = .next t ∧ t.net.lsas = s.net.lsas.filter fun x => decide (s.time.ms - x.at_ < 40000)) ∧
      (s.net.dirty = true → ∃ t, exec (.routeCompute at_) s = .next t ∧ t.net.dirty = false ∧
        t.net.nextRoutes = some (routesOf r)) ∧
      (memberState s = 1 → s.net.joined = false → (knownRoot r).isSome = true → fabricPorts s ≠ [] →
        s.net.joinAt = 0 ∨ s.net.joinAt + SEC ≤ r.elapsed → ∃ t, exec (.joinResend at_) s = .next t ∧
        t.net.joinAt = max 1 r.elapsed) ∧
      (∀ (replica : List (Nat × Nat)) (x : Lsa), r.atEdge = true → 200 ≤ s.time.ms - s.net.dbAt → memberState s ≠ 0 →
        memberState s ≠ 4 ∨ otherRoots r = [] → (elect r).1 = some x →
        let addr (o : Option Lsa) : Nat := (o.map (·.addr)).getD 0
        let mine (o : Option Lsa) : Prop := (o.map (·.uid)).getD 0 = ownUid s
        ∃ t, exec (.rootElection replica at_) s = .next t ∧ t.net.root = x.uid ∧
          t.get K.network_Standby1 = addr (elect r).2.1 ∧ t.get K.network_Standby2 = addr (elect r).2.2 ∧
          (x.uid ≠ ownUid s → t.get K.network_RootAddress = x.addr ∧
            (s.net.joined = true → s.net.fetch = [] →
              (mine (elect r).2.1 ∨ mine (elect r).2.2 → memberState t = 3) ∧
              (¬ (mine (elect r).2.1 ∨ mine (elect r).2.2) → memberState t = 2))) ∧
          (x.uid = ownUid s → memberState t = 4 ∧ t.get K.network_RootAddress = ownAddr t ∧
            t.get K.lakeRoot_EnsembleRole = 1)))

/-- R342, R343, R345, R349, R350: the source of transactions and messages. A reply ends its transaction, which is tried three times before
its timeout; an acknowledgement closes the copy that waits, and the copy is sent again meanwhile at intervals that double; a
destination dead for ChannelDeadTime breaks the channel; a reply that matches nothing is stale. -/
def Sys2Proof.Claims.TransactionsAndCopies : Prop :=
  ∀ (s : State) (at_ : Nat), s.Inv → s.inRun = true →
    let el := (s.reach (s.time.t0 + at_)).elapsed
    (∀ (e : InFrame) (l : List InFrame),
      let b := netBody e.bytes
      let src := field e.bytes 6 2
      (s.Arrives e l 6 → 4 ≤ b.length →
        let hit (t : TxnEnt) : Bool := (t.dest == src || t.dest == 0) && t.epoch == field b 0 2 && t.number == field b 2 2
        (s.net.txns.find? hit = none → ∃ t, exec (.txnReply at_) s = .next t ∧
          t.get K.network_StaleDiscards = min (s.get K.network_StaleDiscards + 1) 65535) ∧
        (∀ x, s.net.txns.find? hit = some x → ∃ t, exec (.txnReply at_) s = .next t ∧ t.net.txns = s.net.txns.erase x ∧
          t.get K.remote_TxnOpen = t.net.txns.length ∧
          (∀ c i, x.ring = some (c, i) → t.cpu.ringDone = s.cpu.ringDone ++ [⟨c, 1, i, St.ok, x.number, some (b.drop 4)⟩]) ∧
          (x.ring = none → s.streamFits 0x7051 (4 + (octetWords (b.drop 4)).length) = true →
            t.stream 0x7051 = s.stream 0x7051 ++ [(0x09 * 65536 + (3 + (octetWords (b.drop 4)).length)) ::
              ([x.epoch * 256, x.number * 256, St.ok] ++ octetWords (b.drop 4))]))) ∧
      (∀ (x : SrcEnt) (c : Copy), s.Arrives e l 8 → b.length = 14 → byteAt b 5 = 0 → byteAt b 4 < 64 → x ∈ s.net.entries →
        (∀ y ∈ s.net.entries, y.epoch = x.epoch → y.number = x.number → y = x) → x.copies = [c] → c.outcome = none →
        x.epoch = field b 0 2 → x.number = field b 2 2 → c.channel = byteAt b 4 → c.chseq = field b 6 6 → c.dest = src →
        bit x.flags 3 = false → bit x.flags 4 = false →
        (field b 12 2 = St.ok ∨ field b 12 2 = St.timeout →
          let outcome := if field b 12 2 = St.ok then 0 else 1
          ∃ t, exec (.messageAck at_) s = .next t ∧
            t.net.entries = s.net.entries.filter (fun y => !(y.epoch == x.epoch && y.number == x.number)) ∧
            t.get (K.outChannel_OpenEntries c.channel) = s.get (K.outChannel_OpenEntries c.channel) - 1 ∧
            (s.streamFits 0x7032 7 = true → t.stream 0x7032 = s.stream 0x7032 ++
              [(0x08 * 65536 + 6) :: resultWords x c outcome])) ∧
        (field b 12 2 = St.journalFull → ∃ t, exec (.messageAck at_) s = .next t ∧
          { x with copies := [{ c with interval := s.get K.messages_RetryTime, at_ := el }] } ∈ t.net.entries))) ∧
    (∀ x, s.net.txns.find? (fun t => decide (t.at_ + s.get K.remote_TxnTimeout * MS ≤ el)) = some x →
      ∃ t, exec (.txnResend at_) s = .next t ∧
        (x.tries < 3 → t.net.txns = s.net.txns.map fun y => if y = x then { x with tries := x.tries + 1, at_ := el } else y) ∧
        (3 ≤ x.tries → t.net.txns = s.net.txns.erase x ∧ bit (t.get K.remote_TxnFlags) 0 = true ∧
          t.get K.remote_TxnTimeouts = min (s.get K.remote_TxnTimeouts + 1) 65535)) ∧
    (∀ (x : SrcEnt) (c : Copy), s.net.entries = [x] → x.copies = [c] → c.channel < 64 → c.outcome = none →
      c.at_ + c.interval * MS ≤ el → ∃ t, exec (.messageResend c.channel at_) s = .next t ∧
      t.net.entries = [{ x with copies := [{ c with interval := min 1000 (2 * c.interval), at_ := el }] }]) ∧
    (∀ (i : Nat) (k : KeeperEnt), s.net.keepers[i]? = some k → k.relayed = true → k.at_ + k.interval * MS ≤ el →
      ∃ t, exec (.messageResend (64 + i) at_) s = .next t ∧ t.net.keepers = s.net.keepers.map fun y =>
        if y = k then { y with interval := min 1000 (2 * y.interval), at_ := el } else y) ∧
    (∀ k : Nat, k < 64 → 1 ≤ s.get (K.outChannel_ChannelState k) → s.get (K.outChannel_ChannelState k) ≤ 3 →
      (∃ p ∈ s.net.deadSince, p.1 = s.get (K.outChannel_Destination k) ∧
        s.get K.messages_ChannelDeadTime * 1000 ≤ s.time.ms - p.2) →
      ∃ t, exec (.channelBroken k at_) s = .next t ∧ t.get (K.outChannel_ChannelState k) = 4 ∧
        (s.get (K.outChannel_ChannelState k) ≠ 2 → t.get (K.outChannel_ChannelResult k) = St.timeout))

/-- R345, R348, R350, R351: the destination and the keepers. A copy in sequence is journalled once and acknowledged, a duplicate counts, a
copy ahead of its turn is left; OPEN makes the receive record; a keeper holds a copy until it is released, relays it once its
source is dead, and a record of a closed channel is freed. -/
def Sys2Proof.Claims.ReceiptsAndKeepers : Prop :=
  ∀ (s : State) (at_ : Nat), s.Inv → s.inRun = true →
    let r := s.reach (s.time.t0 + at_)
    (∀ (e : InFrame) (l : List InFrame) (m : Msg),
      let b := netBody e.bytes
      let src := field e.bytes 6 2
      (s.Arrives e l 7 → msgOf b = some m →
        (∀ q, recvOf s src m.channel = some q → m.open_ = false →
          (m.chseq < q.next → ∃ t, exec (.message at_) s = .next t ∧ t.net.receipts = s.net.receipts ∧ t.net.recvs = s.net.recvs ∧
            t.get K.messages_DuplicateCount = min (s.get K.messages_DuplicateCount + 1) 65535) ∧
          (q.next < m.chseq → ∃ t, exec (.message at_) s = .next t ∧ t.net.receipts = s.net.receipts ∧
            t.net.recvs = s.net.recvs) ∧
          (m.chseq = q.next → r.now96 ≤ m.expires → journalFits s 1 (64 + m.payload.length) = true →
            ∃ t, exec (.message at_) s = .next t ∧ (∃ x ∈ t.net.receipts, x.source = src ∧ x.msg = m) ∧
              t.net.receipts.length = s.net.receipts.length + 1 ∧
              recvOf t src m.channel = some { q with next := (m.chseq + 1) % 2 ^ 48 })) ∧
        (recvOf s src m.channel = none → m.open_ = true → s.net.recvs.length < 4096 → r.now96 ≤ m.expires →
          ∃ t, exec (.message at_) s = .next t ∧ recvOf t src m.channel = some ⟨src, m.channel, (m.chseq + 1) % 2 ^ 48, none⟩)) ∧
      (∀ dest : Nat, s.Arrives e l 9 → byteAt b 0 = 1 → byteAt b 1 = 0 → msgOf (b.drop 2) = some m →
        (∀ k ∈ s.net.keepers, ¬ (k.source = src ∧ k.msg.epoch = m.epoch ∧ k.msg.number = m.number ∧ k.msg.channel = m.channel)) →
        journalFits s 1 (64 + m.payload.length) = true → ∃ t, exec (.keeperHold dest at_) s = .next t ∧
        t.net.keepers = s.net.keepers ++ [⟨src, dest, m, false, 0, r.elapsed⟩]) ∧
      (s.Arrives e l 9 → byteAt b 0 = 3 → b.length = 14 → byteAt b 1 = 0 → byteAt b 7 = 0 →
        let hit (k : KeeperEnt) : Bool := k.source == src && k.msg.epoch == field b 2 2 && k.msg.number == field b 4 2
          && k.msg.channel == byteAt b 6
        ∃ t, exec (.keeperRelease at_) s = .next t ∧ t.net.keepers = (s.net.keepers.filter fun k => !hit k) ∧
          (s.net.keepers.any hit = false → t.get K.network_StaleDiscards = min (s.get K.network_StaleDiscards + 1) 65535))) ∧
    (∀ k, s.net.keepers.find? (fun k => !k.relayed && s.net.deadSince.any fun p => p.1 == k.source
        && decide (s.get K.messages_KeeperTakeover ≤ s.time.ms - p.2)) = some k →
      ∃ t, exec (.keeperTakeover at_) s = .next t ∧ bit (t.get K.messages_MsgFlags) 5 = true ∧
        t.get K.messages_RelayedCount = min (s.get K.messages_RelayedCount + 1) 65535 ∧
        t.net.keepers = s.net.keepers.map fun y =>
          if y = k then { y with relayed := true, interval := s.get K.messages_RetryTime, at_ := r.elapsed } else y) ∧
    (∃ t, exec (.receiveRecordFree at_) s = .next t ∧ t.get K.messages_ReceiveRecords = t.net.recvs.length ∧
      ∀ x, x ∈ t.net.recvs ↔ x ∈ s.net.recvs ∧ ∀ u, x.freeAt = some u → r.elapsed < u)

/-- Transactions, copies of messages, receipts and keepers. Where the spec leaves it open, as log entries 21, 104, 105, 106 of
the model say. -/
def Obligations.MessagesAndTransactions : Prop :=
  Claims.TransactionsAndCopies ∧ Claims.ReceiptsAndKeepers

/-- R344: streams. OPEN makes a stream that expects the SEQ it names; data in order is accepted, what has passed is not; CLOSE
and RESET end it. A stream sent starts at OPEN_ACK, moves on with ACK, and without progress for 20 ms sends again from the
oldest frame. Where the spec leaves it open, as log entries 106, 110 of the model say. -/
def Obligations.StreamChannels : Prop :=
  ∀ (s : State) (at_ : Nat), s.Inv → s.inRun = true →
    let el := (s.reach (s.time.t0 + at_)).elapsed
    (∀ (e : InFrame) (l : List InFrame),
      let b := netBody e.bytes
      let src := field e.bytes 6 2
      let st := field b 0 2
      let inc := field b 2 2
      (s.Arrives e l 10 → 10 ≤ b.length → b.length ≤ 2010 → ∀ q, rxOf s src st = some q → q.inc = inc →
        ∃ t, exec (.streamData at_) s = .next t ∧
          (field b 4 6 = q.next → rxOf t src st = some { q with next := (q.next + 1) % 2 ^ 48, bytes := q.bytes + (b.length - 10) }) ∧
          (field b 4 6 ≠ q.next → rxOf t src st = some q)) ∧
      (s.Arrives e l 11 → b.length = 12 → byteAt b 5 = 0 →
        (byteAt b 4 = 1 → (∀ q, rxOf s src st = some q → serialNewer 16 inc q.inc = true) →
          ∃ t, exec (.streamOpen at_) s = .next t ∧ rxOf t src st = some ⟨src, st, inc, field b 6 6, 0⟩) ∧
        (byteAt b 4 = 4 → ∃ t, exec (.streamClose at_) s = .next t ∧
          t.net.rx = s.net.rx.filter fun x => !(x.source == src && x.stream == st && x.inc == inc)) ∧
        (byteAt b 4 = 5 → ∃ t, exec (.streamReset at_) s = .next t ∧
          t.net.rx = (s.net.rx.filter fun x => !(x.source == src && x.stream == st && x.inc == inc)) ∧
          t.net.tx = s.net.tx.filter fun x => !(x.dest == src && x.stream == st && x.inc == inc)) ∧
        (∀ x : StreamTx, s.net.tx = [x] → x.dest = src → x.stream = st → x.inc = inc →
          (byteAt b 4 = 2 → ∃ t, exec (.streamOpenAck at_) s = .next t ∧
            t.net.tx = [{ x with open_ := true, at_ := el, sent := max x.sent (min 64 x.frames.length) }]) ∧
          (byteAt b 4 = 3 → x.open_ = true →
            let d := (field b 6 6 + 2 ^ 48 - x.base) % 2 ^ 48
            0 < d → d ≤ x.sent → ∃ t, exec (.streamAck at_) s = .next t ∧
            let n := max (x.sent - d) (min 64 (x.frames.length - d))
            t.net.tx = [{ x with base := field b 6 6, frames := x.frames.drop d, at_ := el, sent := n }])))) ∧
    (∀ x : StreamTx, s.net.tx = [x] → x.open_ = true → 0 < x.sent → x.at_ + 20 * MS ≤ el →
      ∃ t, exec (.streamResend at_) s = .next t ∧ t.net.tx = [{ x with sent := min 64 x.frames.length, at_ := el }])

/-- R357, R363: fabric-scope commits. The root with quorum numbers a proposal and prepares it at every member, and 5 ms before
its tick commits or aborts it; a member journals a PREPARE, and at the edge of its tick applies what was committed; values
are fetched; a proposal that a change of the root leaves behind is lost after 1 s. Where the spec leaves it open, as log
entries 109, 177, 178 of the model say. -/
def Obligations.FabricScope : Prop :=
  ∀ (s : State) (at_ : Nat), s.Inv → s.inRun = true →
    let r := s.reach (s.time.t0 + at_)
    (∀ (e : InFrame) (l : List InFrame) (c : FsChange),
      let b := netBody e.bytes
      let src := field e.bytes 6 2
      let s1 := r.took l
      s.Arrives e l 4 → fsOf b = some c →
      (byteAt b 0 = 1 → memberState s = 4 →
        (quorum s1 = false → ∃ t, exec (.fscopePropose at_) s = .next t ∧ t.net.fsSeq = s.net.fsSeq ∧
          t.net.fsRoot = s.net.fsRoot ∧ t.net.fsHeld = s.net.fsHeld) ∧
        (quorum s1 = true →
          let q := (s.net.fsSeq + 1) % 2 ^ 32
          let tick := s.time.tick + (r.time.now - s.time.t0 + s.get K.network_CommitLead * MS + MS - 1) / MS
          let d : FsChange := { c with cseq := q, tick := tick, committed := false }
          ∃ t, exec (.fscopePropose at_) s = .next t ∧ t.net.fsSeq = q ∧ d ∈ t.net.fsHeld ∧
            t.net.fsRoot = s.net.fsRoot ++ [⟨d, src, otherMembers s1⟩])) ∧
      (byteAt b 0 = 2 → ∃ t, exec (.fscopePrepare at_) s = .next t ∧
        t.net.fsHeld = s.net.fsHeld.filter (fun x => x.cseq != c.cseq) ++ [c] ∧
        (s.net.proposed = some (c.index, c.sub, c.value) → t.net.proposed = none ∧ t.net.mine = some c.cseq) ∧
        (s.net.proposed ≠ some (c.index, c.sub, c.value) → t.net.proposed = s.net.proposed ∧ t.net.mine = s.net.mine)) ∧
      (byteAt b 0 = 3 → ∃ t, exec (.fscopeReady at_) s = .next t ∧ t.net.fsRoot = s.net.fsRoot.map fun x =>
        if x.change.cseq = c.cseq then { x with await := x.await.filter (· != src) } else x) ∧
      (byteAt b 0 = 4 → ∃ t, exec (.fscopeCommit at_) s = .next t ∧
        t.net.fsHeld = s.net.fsHeld.map fun x => if x.cseq = c.cseq then { x with committed := true } else x) ∧
      (byteAt b 0 = 5 →
        (c.cseq ≠ 0 → ∃ t, exec (.fscopeAbort at_) s = .next t ∧ t.net.fsHeld = s.net.fsHeld.filter (fun x => x.cseq != c.cseq) ∧
          (s.net.mine = some c.cseq → t.net.mine = none ∧ t.get K.network_FscopeResult = St.timeout)) ∧
        (c.cseq = 0 → s.net.proposed = some (c.index, c.sub, c.value) → ∃ t, exec (.fscopeAbort at_) s = .next t ∧
          t.net.proposed = none ∧ t.get K.network_FscopeResult = St.notInState)) ∧
      (byteAt b 0 = 6 → memberState s = 4 → (c.index, c.sub) ∈ fscopeKeys → ∀ row, findRow c.index c.sub = some row →
        let k := c.index * 256 + c.sub
        exec (.fscopeFetch at_) s = .next (s1.netSend 4 0 src
          (fsBody 7 (SMap.get 0 k s.net.fsDone) 0 c.index c.sub (toBytes row.ty.bytes (s.get k))))) ∧
      (byteAt b 0 = 7 → ∃ t, exec (.fscopeValue at_) s = .next t ∧ t.net.fsNext = s.net.fsNext ++ [c] ∧
        t.net.fetch = s.net.fetch.filter fun k => k != (c.index, c.sub))) ∧
    (∀ x : FsRoot, s.net.fsRoot.find? (fun x => decide (x.change.tick ≤ s.time.tick + 5)) = some x →
      ∃ t, exec (.fscopeReadyDeadline at_) s = .next t ∧ t.net.fsRoot = s.net.fsRoot.erase x ∧
        ((∃ a ∈ x.await, liveAddr r a = true) → t.net.fsHeld = s.net.fsHeld.filter fun y => y.cseq != x.change.cseq) ∧
        ((∀ a ∈ x.await, liveAddr r a = false) →
          t.net.fsHeld = s.net.fsHeld.map fun y => if y.cseq = x.change.cseq then { y with committed := true } else y)) ∧
    (∀ c : FsChange, s.atEdge = true → s.net.fsHeld = [c] → c.tick ≤ s.time.tick →
      (c.committed = true → (c.index, c.sub) ∈ fscopeKeys → SMap.get 0 (c.index * 256 + c.sub) s.net.fsDone ≤ c.cseq →
        ∃ t, exec .fscopeApply s = .next t ∧ t.net.fsHeld = [] ∧ t.get (c.index * 256 + c.sub) = ofBytes c.value ∧
          (s.net.mine = some c.cseq → t.get K.network_FscopeResult = St.ok)) ∧
      (c.committed = false → ∃ t, exec .fscopeApply s = .next t ∧ t.net.fsHeld = [] ∧
        t.get K.network_FscopeStaleEvents = min (s.get K.network_FscopeStaleEvents + 1) 65535)) ∧
    (∀ u, s.net.rootAt = some u → s.net.proposed.isSome = true → 1000 ≤ s.time.ms - u →
      ∃ t, exec (.fscopeLost at_) s = .next t ∧ t.net.proposed = none ∧ t.net.rootAt = none ∧
        t.get K.network_FscopeResult = St.timeout)

/-- R367, R371, R379 to R382, R384 to R388: Lake time. LAKE_EPOCH: a member's epoch edge notes the report it sends and one more epoch without an ESTIMATE of
its root, and opens the epoch of a computing root. ESTIMATE: the one that answers a report noted gives the offset, rate and errors it carries;
ESTIMATE_LOSS: without a valid one for 1 s LakeValid ends. REPORT: the root takes a report that comes within 30 ms of its edge. ENSEMBLE_EPOCH: it
completes the epoch 30 ms to 50 ms after the edge, and counts it late after that. REPLICA: a standby keeps the replica of its root. ACTING_TAKEOVER: the first standby
acts after three silent epochs. RANK: of two roots the elected one stays, and the other gives the role up. -/
def Sys2Proof.Claims.LakeTime : Prop :=
  ∀ (s : State) (at_ : Nat), s.Inv → s.inRun = true →
    let r := s.reach (s.time.t0 + at_)
    let role := s.get K.lakeRoot_EnsembleRole
    let root := s.get K.network_RootAddress
    (s.time.tick % 100 = 0 → s.lake.epoch ≠ some s.time.tick → lakeActive s = true →
      s.time.running = true → s.lake.stopActing = false → ∃ t, exec (.lakeEpoch at_) s = .next t ∧
      t.lake.epoch = some s.time.tick ∧ t.lake.steer = 0 ∧ t.lake.silentRoot = root ∧
      t.lake.silent = (if s.lake.silentRoot = root then s.lake.silent else 0) + 1 ∧ (∀ n < 32, (t.port n).recs = []) ∧
      (s.get K.lake_LakeEnable ≠ 0 → t.lake.sent = ((s.time.tick, s.time.t0) :: s.lake.sent).take 32 ∧ t.lake.stepped = false) ∧
      (role = 1 ∨ role = 3 → t.lake.open_ = some (s.time.t0, s.time.ms * MS) ∧ t.lake.reports = [])) ∧
    (∀ (e : InFrame) (l : List InFrame), s.Arrives e l 12 →
      let b := netBody e.bytes
      let src := field e.bytes 6 2
      let s1 := r.took l
      (∀ q edge since, byteAt b 0 = 1 → reportOf src b = some q → role = 1 ∨ role = 3 → s.lake.open_ = some (edge, since) →
        r.elapsed ≤ since + 30 * MS → ∃ t, exec (.report at_) s = .next t ∧
        ∀ x, x ∈ t.lake.reports ∧ x.source = src ↔ x = q) ∧
      (∀ edge, byteAt b 0 = 2 → b.length = 42 → byteAt b 1 < 16 → s.get K.lake_LakeEnable ≠ 0 → lakeActive s = true →
        src = root → s.lake.sent.find? (fun p => p.1 == field b 6 8) = some (field b 6 8, edge) →
        ∃ t, exec (.estimate at_) s = .next t ∧ t.lake.matched = true ∧ t.lake.silent = 0 ∧
          t.get K.lake_Generation = field b 2 4 ∧ t.get K.lake_LakeAt = field b 14 12 ∧
          t.get K.lake_LakeOffset = ofInt 8 (clamp (-offsetLimit) offsetLimit ((ofTime96 (field b 14 12) : Int) - edge)) ∧
          t.get K.lake_LakeRate = ofInt 6 (toInt 6 (field b 26 6)) ∧ t.get K.lake_SigmaNet = field b 32 4 ∧
          t.get K.lake_LakeError = field b 36 4 ∧ t.get K.lake_Traceable = b2n (bit (byteAt b 1) 1) ∧
          t.get K.lake_Contributing = b2n (bit (byteAt b 1) 3) ∧ t.get K.lake_Weight = field b 40 2 ∧
          t.get K.lake_LakeValid = b2n (bit (byteAt b 1) 0)) ∧
      (byteAt b 0 = 3 → b.length = 51 + 32 * field b 3 2 + 16 * field b 5 2 → byteAt b 1 = 0 → byteAt b 2 = 1 →
        (∀ i < field b 3 2, byteAt b (53 + 32 * i) < 2 ∧ byteAt b (54 + 32 * i) = 0 ∧ field b (81 + 32 * i) 2 = 0) →
        (∀ i < field b 5 2, field b (51 + 32 * field b 3 2 + 16 * i + 6) 2 = 0) → role = 2 →
        src = root → s.lake.frags = none → ∃ t, exec (.replica at_) s = .next t ∧
        t.lake.replica = some (realmOf src r.elapsed [b], r.elapsed) ∧ t.lake.frags = none) ∧
      (byteAt b 0 = 10 → b.length = 25 → byteAt b 5 < 2 → byteAt b 6 = 0 → memberState s = 4 → role = 1 →
        let mine := if realmTraceable r ≠ bit (byteAt b 5) 0 then realmTraceable r
          else if realmError r ≠ field b 7 4 then decide (realmError r < field b 7 4)
          else if s.lake.realm.contribs.length ≠ field b 11 2 then decide (field b 11 2 < s.lake.realm.contribs.length)
          else electedHere s1
        (electedHere s1 = true → ∃ t, exec (.rank at_) s = .next t ∧ t.lake.merging = (!mine) ∧ memberState t = 4 ∧
          t.get K.lakeRoot_Merges = min (s.get K.lakeRoot_Merges + 1) 65535) ∧
        (electedHere s1 = false → ∃ t, exec (.rank at_) s = .next t ∧ (memberState t = 2 ∨ memberState t = 3) ∧
          t.get K.lakeRoot_EnsembleRole ≠ 1))) ∧
    (∀ origin edge since : Nat, s.lake.open_ = some (edge, since) → role = 1 ∨ role = 3 →
      (since + 30 * MS ≤ r.elapsed → r.elapsed ≤ since + 50 * MS → ∃ t, exec (.ensembleEpoch origin at_) s = .next t ∧
        t.lake.open_ = none ∧ t.lake.reports = [] ∧ t.lake.realm.tick = edge / MS ∧ t.get K.lakeRoot_EnsembleTick = edge / MS ∧
        t.get K.lakeRoot_Contributors = min 4094 t.lake.realm.contribs.length) ∧
      (since + 50 * MS < r.elapsed → ∃ t, exec (.ensembleEpoch origin at_) s = .next t ∧ t.lake.open_ = none ∧
        t.lake.realm = s.lake.realm ∧ bit (t.get K.lakeRoot_RootFlags) 1 = true ∧
        t.get K.lakeRoot_EpochsLate = min (s.get K.lakeRoot_EpochsLate + 1) 65535)) ∧
    ((∀ u, s.lake.estAt = some u → u + SEC < r.elapsed) → s.get K.lake_LakeValid ≠ 0 → ∃ t, exec (.estimateLoss at_) s = .next t ∧
      t.get K.lake_LakeValid = 0 ∧ t.get K.lake_EstimateLosses = min (s.get K.lake_EstimateLosses + 1) 65535 ∧
      bit (t.get K.lake_LakeFlags) 1 = true) ∧
    (memberState s = 3 → s.get K.network_Standby1 = ownAddr s → ownAddr s ≠ 0 → threeSilent s = true → s.lake.silentRoot = root →
      role = 2 → s.get K.lake_LakeEnable ≠ 0 → ∃ t, exec (.actingTakeover at_) s = .next t ∧ t.get K.lakeRoot_EnsembleRole = 3 ∧
      t.lake.acting = some (ownAddr s) ∧ ∀ p, s.lake.replica = some p → t.lake.realm = { p.1 with carry := true })

/-- R246, R249, R373, R390 to R392: the aided-tracking data service. NEIGHBOURS: a member takes the neighbours that the root lists. From another
device, CV_OBS: the partner's series stands at the second of the observations, restarted where it is not the next; SIGHTINGS: each becomes a sighting
of the sender while it is not older than 10 s; EPHEMERIS: an entry of one message is stored as a peer copy with the Reference and FitEnd it carries; SYMBOLS: the symbols are held; SUBSCRIBE: the subscription is held.
SUBSCRIBE_RENEW renews this device's own every 5 s; SUBSCRIPTION_EXPIRY ends those not renewed for 10 s. -/
def Sys2Proof.Claims.DataService : Prop :=
  ∀ (s : State) (at_ : Nat), s.Inv → s.inRun = true →
    let r := s.reach (s.time.t0 + at_)
    (∀ (e : InFrame) (l : List InFrame), s.Arrives e l 12 →
      let b := netBody e.bytes
      let src := field e.bytes 6 2
      (∀ p : Nat, byteAt b 0 = 4 →
        b.length = 16 + 16 * byteAt b 2 → byteAt b 2 ≤ 126 → byteAt b 1 = 0 → byteAt b 3 = 0 →
        (∀ i < byteAt b 2, byteAt b (16 + 16 * i + 2) < 2 ∧ byteAt b (16 + 16 * i + 3) = 0) → s.get K.lakeEnsemble_CvEnable ≠ 0 →
        (List.range 4).find? (fun p => s.get (K.cvPartner_Partner p) == src && s.get (K.cvPartner_CvRole p) == 1) = some p →
        ∃ t, exec (.cvObs at_) s = .next t ∧ (cvAt t p).at_ = ofTime96 (field b 4 12) ∧ (cvAt t p).live = true ∧
          ((cvAt s p).at_ + SEC ≠ ofTime96 (field b 4 12) → (cvAt t p).c = 0 ∧ (cvAt t p).steps = 0 ∧
            ((cvAt s p).live = true → t.get (K.cvPartner_Series p) = (s.get (K.cvPartner_Series p) + 1) % 65536 ∧
              t.get (K.cvPartner_SeriesRestarts p) = min (s.get (K.cvPartner_SeriesRestarts p) + 1) 65535))) ∧
      (byteAt b 0 = 5 → b.length = 2 + 6 * byteAt b 1 → byteAt b 1 ≤ 16 →
        (∀ i < byteAt b 1, byteAt b (6 + 6 * i) < 8 ∧ byteAt b (7 + 6 * i) = 0) →
        src = s.get K.network_RootAddress → ∃ t, exec (.neighbours at_) s = .next t ∧
        t.get K.aidService_NeighbourCount = byteAt b 1 ∧
        t.lake.neighbours.map (·.addr) = (List.range (byteAt b 1)).map fun i => field b (2 + 6 * i) 2) ∧
      (byteAt b 0 = 6 → b.length = 16 + 8 * field b 2 2 → field b 2 2 ≤ 240 → byteAt b 1 = 0 →
        (∀ x ∈ s.lake.neighbours, x.addr = src → x.dist ≤ 2000) →
        let seen := sightedAt r (ofTime96 (field b 4 12))
        ∃ t, exec (.sightings at_) s = .next t ∧ t.get K.aidService_SightingsHeld = min 65535 t.nav.sightings.length ∧
          ∀ i < field b 2 2, (r.elapsed : Int) ≤ seen + (10 * SEC : Nat) → ∃ x ∈ t.nav.sightings, x.peer = src ∧
            x.signal = byteAt b (16 + 8 * i) ∧ x.satellite = byteAt b (17 + 8 * i) ∧ x.cn0 = field b (18 + 8 * i) 2 ∧
            x.doppler = toInt 4 (field b (20 + 8 * i) 4) ∧ x.at_ = seen) ∧
      (∀ (k part : Nat) (bits : List Bool), byteAt b 0 = 7 → b.length = 239 → byteAt b 2 ≤ 15 → 1 ≤ byteAt b 1 → byteAt b 1 ≤ 4 →
        Config.entrySplit (byteAt b 2) (byteAt b 1) (field b 47 192) = [(part, bits)] →
        storeJoins s (byteAt b 2) (byteAt b 1) (byteAt b 3) (field b 6 2) = none → storePlace s = some k →
        ∃ t, exec (.lakeEphemeris at_) s = .next t ∧ t.get (K.storeEntry_Kind k) = byteAt b 1 ∧
          t.get (K.storeEntry_SignalId k) = byteAt b 2 ∧ t.get (K.storeEntry_Satellite k) = byteAt b 3 ∧
          t.get (K.storeEntry_Source k) = 1 ∧ t.get (K.storeEntry_IssueOfData k) = field b 6 2 ∧
          t.get (K.storeEntry_Reference k) = field b 8 12 ∧ t.get (K.storeEntry_FitEnd k) = field b 20 12) ∧
      (byteAt b 0 = 8 →
        let n := field b 17 2
        let v := byteAt b 2
        b.length = 19 + (n + 7) / 8 → byteAt b 1 = 1 → v < 16 → byteAt b 4 < 3 → 1 ≤ n → n ≤ 4000 →
        ofTime96 (field b 5 12) % (sigSymbol v (byteAt b 3) * MS) = 0 → ∃ t, exec (.symbols at_) s = .next t ∧
        (∀ k < n, peerHas t v (byteAt b 3) (ofTime96 (field b 5 12) / (sigSymbol v (byteAt b 3) * MS) + k) = true) ∧
        ∃ x ∈ t.nav.peers, x.signal = v ∧ x.satellite = byteAt b 3 ∧ x.lastMs = s.time.ms) ∧
      (byteAt b 0 = 9 → b.length = 4 → byteAt b 1 = 1 → s.lake.subIn.length < 128 →
        ∃ t, exec (.subscribe at_) s = .next t ∧ (src, byteAt b 2, byteAt b 3, r.elapsed) ∈ t.lake.subIn ∧
          t.get K.aidService_SubscriptionsIn = t.lake.subIn.length)) ∧
    (lakeActive s = true → (∀ u, s.lake.subAt = some u → u + 5 * SEC ≤ r.elapsed) →
      ∃ t, exec (.subscribeRenew at_) s = .next t ∧ t.lake.subAt = some r.elapsed ∧
        t.get K.aidService_SubscriptionsOut = min 65535 t.lake.subOut.length) ∧
    (∃ t, exec (.subscriptionExpiry at_) s = .next t ∧ t.get K.aidService_SubscriptionsIn = t.lake.subIn.length ∧
      t.lake.subIn = s.lake.subIn.filter fun x => decide (r.elapsed ≤ x.2.2.2 + 10 * SEC))

/-- Lake time and the aided-tracking data service. Where the spec leaves it open, as log entries 22, 23, 24, 103, 112, 113,
114, 115, 163, 179, 180 of the model say. -/
def Obligations.LakeTimeAndService : Prop :=
  Claims.LakeTime ∧ Claims.DataService

/-- R487 to R490, R492: the carrier synthesiser and the limits of the field. A lock within 200 us makes READY, and a field-on that waits
comes on unless it is refused; a calibration that waits runs then, the field being off. Without a lock a calibration runs, 200 us after SETTLING
was entered, and after the third the fault stands; a calibration ends in SETTLING 500 us after its start. A field-on that has waited 1 ms for the
synthesiser ends SYNTH_BUSY. Whichever comes first of FieldTimeout, its ceiling and the duty ceiling cuts the field at its instant and ends the
command in progress with FIELD_CUT. -/
def Sys2Proof.Claims.ReaderSynthesiser : Prop :=
  ∀ (s : State) (at_ : Nat), s.Inv →
    let n := s.reach (s.time.t0 + at_)
    let soft := timeoutAt s false
    let hard := timeoutAt s true
    let within : Prop := fieldOn s = true → n.elapsed ≤ soft ∧ n.elapsed ≤ hard ∧ dutyMet n n.elapsed = false
    let waits : Prop := ∀ p w, s.reader.want = some (p, w) → n.elapsed ≤ w + MS
    let counted (t : State) (b k : Nat) : Prop := bit (t.get K.reader_ReaderFlags) b = true ∧ t.get k = min (s.get k + 1) 65535
    let ended (t : State) (c : RdrCmd) (st outcome : Nat) (r : RxReport) : Prop :=
      let e := resultEntry c (if frameRuns n c = true then c.tries else c.tries - 1) outcome
        (if c.op = 4 then { r with bytes := toBytes 2 c.inv.found.length } else r)
      t.reader.cmd = none ∧ t.reader.want = none ∧ t.get K.reader_LastCommandResult = st ∧
        (s.streamFits 0x8002 (e.length + 1) = true →
          t.stream 0x8002 = s.stream 0x8002 ++ [(0x0A * 65536 + e.length) :: e])
    (synth s = 1 → n.elapsed ≤ s.reader.synthAt + 200 * US → within → waits →
      (s.reader.calDue = false → ∃ t, exec (.synthLock at_) s = .next t ∧ synth t = 2 ∧ t.reader.synthAt = n.elapsed ∧
        t.reader.calFails = 0 ∧ t.reader.calTried = false ∧
        (∀ p w c, s.reader.want = some (p, w) → s.reader.pos = p → w ≤ n.elapsed → s.reader.cmd = some c →
          (fieldRefused n = some false → ended t c St.busy 8 RxReport.none) ∧
          (fieldRefused n ≠ some false → fieldOn t = true ∧ t.reader.onAt = n.elapsed ∧ t.reader.want = none ∧
            t.get K.field_StepApplied = min (s.get K.field_PowerStep) (s.get K.regulatoryLocks_FieldPowerCeiling) ∧
            (c.op = 1 → ended t c St.ok 0 RxReport.none) ∧
            (c.op ≠ 1 → ∃ d, t.reader.cmd = some d ∧ d.tries = 1 ∧
              d.startAt = some (max (n.elapsed + s.get K.field_FieldGuard * MS) s.reader.gapAt))))) ∧
      (s.reader.calDue = true → fieldOn s = false → ∃ t, exec (.synthLock at_) s = .next t ∧ synth t = 3 ∧
        t.reader.calDue = false ∧ t.reader.calTried = true ∧ t.get K.reader_SynthCalTemperature = ofInt 2 (dieTemp s)) ∧
      (s.reader.calDue = true → fieldOn s = true → s.reader.want = none → ∃ t, exec (.synthLock at_) s = .next t ∧
        synth t = 2 ∧ t.reader.calDue = true)) ∧
    (synth s = 1 → s.reader.synthAt + 200 * US ≤ n.elapsed → within → waits →
      let fails := s.reader.calFails + if s.reader.calTried = true then 1 else 0
      (fails < 3 → ∃ t, exec (.synthLockTimeout at_) s = .next t ∧ synth t = 3 ∧ t.reader.calFails = fails ∧
        t.reader.calTried = true ∧ t.reader.synthAt = s.reader.synthAt + 200 * US) ∧
      (3 ≤ fails → ∃ t, exec (.synthLockTimeout at_) s = .next t ∧ synth t = 0 ∧ t.reader.fault = true ∧
        counted t 1 K.reader_SynthFaults ∧
        (∀ c, s.reader.want ≠ none → s.reader.cmd = some c → ended t c St.synthBusy 7 RxReport.none))) ∧
    (synth s = 3 → s.reader.synthAt + 500 * US ≤ n.elapsed → ∃ t, exec (.synthCalDone at_) s = .next t ∧ synth t = 1 ∧
      t.reader.synthAt = s.reader.synthAt + 500 * US) ∧
    (∀ p w c, s.reader.want = some (p, w) → s.reader.cmd = some c → synth s ≠ 2 → synth s ≠ 4 → w + MS ≤ n.elapsed → within →
      ∃ t, exec (.synthBusy at_) s = .next t ∧ counted t 2 K.reader_SynthBusyCount ∧ ended t c St.synthBusy 7 RxReport.none) ∧
    (s.reader.want = none → fieldOn s = true →
      let cut (t : State) (w : Nat) : Prop := fieldOn t = false ∧ t.reader.offAt = some w ∧
        ∀ c, s.reader.cmd = some c → ended t c St.internalFault 6 (if frameRuns n c = true then RxReport.none else c.last)
      (soft ≤ hard → soft ≤ n.elapsed → dutyMet n soft = false → ∃ t, exec (.fieldTimeout at_) s = .next t ∧ cut t soft ∧
        counted t 3 K.reader_FieldTimeouts) ∧
      (hard ≤ soft → hard ≤ n.elapsed → dutyMet n hard = false → ∃ t, exec (.hardwareFieldTimeout at_) s = .next t ∧
        cut t hard ∧ counted t 3 K.reader_FieldTimeouts) ∧
      (n.elapsed ≤ soft → n.elapsed ≤ hard → dutyMet n n.elapsed = true → ∃ t, exec (.dutyLimit at_) s = .next t ∧
        cut t (dutyHit n 48 s.reader.onAt n.elapsed) ∧ counted t 4 K.reader_DutyLimits))

/-- R494, R496 to R500, R505, R511: frames of a TRANSCEIVE (operation 3) and of an INVENTORY (4) of a command in progress. An attempt that fails is
tried again while tries remain, a least gap later, and else ends with its outcome: 1 no response, 2 CRC, 3 coding, 4 collision; a good frame ends the
command. A second SOF before 8 bits with a violation makes an entry of outcome 5, and the new frame is decoded; a louder one over an established
frame is a collision; any other changes nothing. The gain of the AGC is that of the frame's SOF until the frame ends. A frame that breaks the mask
with MaskAction STOP ends command and field. A tag of ISO/IEC 15693 found in a slot is kept, and the next slot follows; an inventory that hears no
tag of Type A is over; a command whose protocols have been locked ends with the frame. -/
def Sys2Proof.Claims.ReaderExchanges : Prop :=
  ∀ (s : State) (c : RdrCmd) (t0 at_ : Nat) (bins : List (Nat × Int)), s.Inv → s.reader.want = none → s.reader.cmd = some c →
    c.startAt = some t0 → t0 ≤ (s.reach (s.time.t0 + at_)).elapsed →
    let n := s.reach (s.time.t0 + at_)
    (fieldOn s = true → n.elapsed ≤ timeoutAt s false ∧ n.elapsed ≤ timeoutAt s true ∧ dutyMet n n.elapsed = false) →
    let entered (t : State) (o : Nat) (r : RxReport) : Prop :=
      let e := resultEntry c c.tries o r
      s.streamFits 0x8002 (e.length + 1) = true → t.stream 0x8002 = s.stream 0x8002 ++ [(0x0A * 65536 + e.length) :: e]
    let ended (t : State) (st : Nat) : Prop := t.reader.cmd = none ∧ t.get K.reader_LastCommandResult = st ∧
      (bit c.flags 3 = false → fieldOn t = false) ∧ (bit c.flags 3 = true → fieldOn t = fieldOn s)
    let again (t : State) (r : RxReport) : Prop := ∃ d, t.reader.cmd = some d ∧ d.tries = c.tries + 1 ∧ d.last = r ∧ d.inv = c.inv ∧
      d.startAt = some (n.elapsed + fcDu (frameGap c.proto)) ∧ t.streams = s.streams ∧
      t.get K.reader_LastCommandResult = s.get K.reader_LastCommandResult
    let failed (i : Instr) (o : Nat) (r : RxReport) : Prop :=
      (c.tries ≤ c.retries → ∃ t, exec i s = .next t ∧ again t r) ∧
      (c.retries < c.tries → ∃ t, exec i s = .next t ∧ ended t St.internalFault ∧ entered t o r)
    let silent : Prop := c.endAt + fcDu (c.timeout * 128) ≤ n.elapsed
    let heard (f : RxFrame) : Prop := radioUp s = true ∧ inWindow c f.respAt = true ∧ c.endAt + fcDu f.respAt ≤ n.elapsed
    let free (t : State) (f : RxFrame) : Prop := t.reader.frozen = false ∧
      (s.reader.frozen = false → t.reader.gain = min 60 (Config.rxGain f.amp)) ∧ (s.reader.frozen = true → t.reader.gain = s.reader.gain)
    (c.op = 3 → c.drop = false → maskStops s bins = false →
      (silent → failed (.responseTimeout bins at_) 1 RxReport.none) ∧
      (∀ f : RxFrame, heard f →
        (f.viol ≠ none → failed (.readerFrameReceived f bins at_) 3 (reportOfFrame c f f.bytes)) ∧
        (f.viol = none → bit c.flags 1 = true → crcHolds c.proto f.bytes = false →
          failed (.readerFrameReceived f bins at_) 2 (reportOfFrame c f f.bytes)) ∧
        (f.viol = none → bit c.flags 1 = true → crcHolds c.proto f.bytes = true →
          ∃ t, exec (.readerFrameReceived f bins at_) s = .next t ∧ ended t St.ok ∧
            entered t 0 (reportOfFrame c f (f.bytes.take (f.bytes.length - 2)))) ∧
        (f.viol = none → bit c.flags 1 = false → ∃ t, exec (.readerFrameReceived f bins at_) s = .next t ∧ ended t St.ok ∧
          entered t 0 (reportOfFrame c f f.bytes)))) ∧
    (3 ≤ c.op → ∀ f : RxFrame, heard f → ∃ t, exec (.readerFrameReceived f bins at_) s = .next t ∧ free t f) ∧
    (∀ (f : RxFrame) (amp : Nat), 3 ≤ c.op → heard f →
      (∀ v, f.viol = some v → v < 8 ∨ f.nbits < 8 → ∃ t, exec (.secondSof f amp bins at_) s = .next t ∧ t.reader.cmd = some c ∧
        entered t 5 (reportOfFrame c f f.bytes) ∧ bit (t.get K.reader_ReaderFlags) 6 = true ∧
        t.get K.reader_NoiseSofs = min (s.get K.reader_NoiseSofs + 1) 65535 ∧
        t.reader.frozen = true ∧ t.reader.gain = min 60 (Config.rxGain amp)) ∧
      ((∀ v, f.viol = some v → 8 ≤ v) → 8 ≤ f.nbits → f.amp + s.get K.reader_CollisionMargin ≤ amp → c.op = 3 → c.drop = false →
        maskStops s bins = false → ∃ t, exec (.secondSof f amp bins at_) s = .next t ∧ ended t St.internalFault ∧ free t f ∧
          entered t 4 { reportOfFrame c f f.bytes with other := amp } ∧
          bit (t.get K.reader_ReaderFlags) 7 = true ∧
          t.get K.reader_Collisions = min (s.get K.reader_Collisions + 1) 65535) ∧
      ((∀ v, f.viol = some v → 8 ≤ v ∧ 8 ≤ f.nbits) → f.nbits < 8 ∨ amp < f.amp + s.get K.reader_CollisionMargin →
        ∃ t, exec (.secondSof f amp bins at_) s = .next t ∧ t.reader.cmd = some c ∧ t.streams = s.streams ∧ t.dict = s.dict)) ∧
    (3 ≤ c.op → c.drop = false → maskStops s bins = true → fieldOn s = true → silent →
      ∃ t, exec (.responseTimeout bins at_) s = .next t ∧ t.reader.cmd = none ∧ fieldOn t = false ∧
        bit (t.get K.reader_ReaderFlags) 5 = true ∧ t.get K.reader_MaskExceeded = min (s.get K.reader_MaskExceeded + 1) 65535) ∧
    (3 ≤ c.op → c.drop = true → silent → ∃ t, exec (.responseTimeout bins at_) s = .next t ∧ t.reader.cmd = none ∧
      fieldOn t = false ∧ t.get K.reader_LastCommandResult = St.lockedByRegulation) ∧
    (c.op = 4 → c.proto / 16 = 3 → c.inv.stage ≠ 4 → c.inv.slot < 15 → c.drop = false → maskStops s bins = false →
      ∀ f : RxFrame, heard f → f.viol = none → crcHolds c.proto f.bytes = true → ((f.bytes.drop 2).take 8) ∉ c.inv.found →
      c.inv.found.length < 256 →
      ∃ t d, exec (.readerFrameReceived f bins at_) s = .next t ∧ t.reader.cmd = some d ∧
        d.inv.found = c.inv.found ++ [(f.bytes.drop 2).take 8] ∧ d.inv.slot = c.inv.slot + 1) ∧
    (c.op = 4 → c.proto / 16 = 1 → c.inv.stage = 0 → c.drop = false → maskStops s bins = false → silent →
      ∃ t, exec (.responseTimeout bins at_) s = .next t ∧ ended t St.ok ∧
        entered t 0 { RxReport.none with bytes := toBytes 2 c.inv.found.length })

/-- R97, R506 to R508: the reader's own jobs. A card-detection burst that is due learns the amplitude of its coil, or counts a detection
beyond CdThreshold, or else lets the reference follow; a delay scan that is due starts, and reads its items one after the other: a single valid
record posts to its item; a protocol that the locks forbid, a field that is refused, a tag that does not answer or answers without its record,
an invalid record and two valid ones are failures with their causes. -/
def Sys2Proof.Claims.ReaderJobs : Prop :=
  ∀ (s : State) (at_ : Nat), s.Inv → s.inRun = true → s.reader.enabled = true → s.reader.cmd = none → s.reader.want = none →
    let n := s.reach (s.time.t0 + at_)
    (fieldOn s = true → n.elapsed ≤ timeoutAt s false ∧ n.elapsed ≤ timeoutAt s true ∧ dutyMet n n.elapsed = false) →
    let pos := s.get K.cardDetect_CdPosition
    let ref := K.coilPort_CoilDetuneRef (pos / 32)
    (∀ amp : Nat, s.reader.scan = none → s.reader.burstAt + s.get K.cardDetect_CdInterval * MS ≤ n.elapsed →
      s.getB K.cardDetect_CdEnable = true → synth s = 2 → posUsable s pos = true → fieldOn s = false → fieldRefused n = none →
      (∀ w, s.reader.offAt = some w → w + s.get K.field_FieldOffMin * MS ≤ n.elapsed) →
      let detects : Prop := s.get ref ≠ 0 ∧ s.get K.cardDetect_CdThreshold ≤ ((amp : Int) - s.get ref).natAbs
      let acc := let a := SMap.get 0 (pos / 32) s.reader.detune; if a / 64 = s.get ref then a else 64 * s.get ref
      ∃ t, exec (.cardDetectBurst amp at_) s = .next t ∧ t.reader.burstAt = n.elapsed ∧ t.reader.pos = pos ∧
        (s.get ref = 0 → t.get ref = amp) ∧
        (detects → t.get ref = s.get ref ∧ bit (t.get K.reader_ReaderFlags) 9 = true ∧
          t.get K.reader_CardDetections = min (s.get K.reader_CardDetections + 1) 65535) ∧
        (¬ detects → t.get K.reader_CardDetections = s.get K.reader_CardDetections ∧
          (s.get ref ≠ 0 → t.get ref = (acc + amp - acc / 64) / 64))) ∧
    (∀ (tags : List (List Nat × Option (List Nat))) (last : JobEnd) (us : Nat),
      (s.reader.scan = none → scanIsDue n = true → scanItems s (List.range 10) ≠ [] →
        ∃ t, exec (.delayScan tags last us at_) s = .next t ∧ t.reader.scan = some (scanItems s (List.range 10)) ∧
          t.get K.delayScan_ScanState = 1) ∧
      (∀ k l, s.reader.scan = some (k :: l) → k < 10 → cardPollDue n = false →
        let left (t : State) : Prop := if l = [] then t.reader.scan = none ∧ t.get K.delayScan_ScanState = 0 ∧
          t.get K.delayScan_LastScanAt = n.now96 else t.reader.scan = some l
        let failed (cause : Nat) : Prop := ∃ t, exec (.delayScan tags last us at_) s = .next t ∧ left t ∧
          t.get K.delayScan_LastFailItem = k ∧ t.get K.delayScan_LastFailCause = cause ∧
          bit (t.get (K.delay_DelayFlags k)) 1 = true ∧
          t.get (K.delay_TagFailures k) = min (s.get (K.delay_TagFailures k) + 1) 65535
        let lit : Prop := posUsable s (s.get (K.delay_TagPosition k)) = true ∧ (synth s = 2 ∨ synth s = 4) ∧ fieldRefused n = none
        (protoAllowed s 0x30 = false → failed 5) ∧
        (protoAllowed s 0x30 = true → ¬ lit → failed 4) ∧
        (protoAllowed s 0x30 = true → lit →
          (tags = [] → failed 1) ∧
          (∀ uid, tags = [(uid, none)] → failed 4) ∧
          (∀ uid b, tags = [(uid, some b)] → recordValid k b = false → failed 2) ∧
          (∀ uid b uid' b', tags = [(uid, some b), (uid', some b')] → recordValid k b = true → recordValid k b' = true →
            failed 3) ∧
          (∀ uid b, tags = [(uid, some b)] → recordValid k b = true →
            ∃ t, exec (.delayScan tags last us at_) s = .next t ∧ left t ∧ bit (t.get (K.delay_DelayFlags k)) 0 = true ∧
              t.get (K.delay_TagId k) = ofBytes (uid.take 8) ∧
              (s.get (K.delay_TagId k) ≠ ofBytes (uid.take 8) → t.get (K.delay_TagDelay k) = field b 4 8 ∧
                t.get (K.delay_TagUncertainty k) = field b 12 3 ∧ bit (t.get (K.delay_DelayFlags k)) 2 = true) ∧
              (s.get (K.delay_TagId k) = ofBytes (uid.take 8) →
                t.get (K.delay_TagDelay k) = s.get (K.delay_TagDelay k))))))

/-- The reader: synthesiser and limits, exchanges, its own jobs. Where the spec leaves it open, as log entries 25, 116, 117,
118, 119, 120, 121, 181, 182, 183, 184, 192 of the model say. -/
def Obligations.ReaderUnit : Prop :=
  Claims.ReaderSynthesiser ∧ Claims.ReaderExchanges ∧ Claims.ReaderJobs

/-- R516 to R521: steps of the timers. An ARMED timer begins at its grid step, or at the first edge after its START, RUNNING with its Count
as it stands, and so do the timers armed on it. A count that underflows reloads, or in ONE_SHOT ends at 0 as DONE; the
timers it clocks take a step. A count that moves into a compare value flags the match; an edge at a pin steps what it clocks. -/
def Sys2Proof.Claims.CadenceTimers : Prop :=
  ∀ (s : State) (n at_ : Nat), s.Inv → n < 16 → (∀ m < 16, (s.timer m).stopAt = none) →
    let event (t : State) (b k : Nat) : Prop := bit (t.get (K.cadenceTimer_TimerFlags n)) b = true ∧ t.get k = min (s.get k + 1) 65535
    let count (t : State) (m : Nat) : Nat := t.get (K.cadenceTimer_Count m)
    let runs : Prop := s.time.running = true ∧ s.tmr.stopped = false ∧ at_ ≤ s.tickAhead
    (s.timerState n = 1 → armInstant (s.timer n).arm = some at_ ∨
        (∃ m, (s.timer n).arm = .tick m ∧ m < s.time.ms ∧ at_ = s.time.t0) →
      ∃ t, exec (.countingBegins n at_) s = .next t ∧ t.timerState n = 2 ∧ count t n = count s n ∧
        t.get (K.cadenceTimer_StartedAt n) = toTime96 at_ ∧
        ∀ m < 16, s.timerState m = 1 → (s.timer m).arm = .master n → t.timerState m = 2 ∧
          t.get (K.cadenceTimer_StartedAt m) = toTime96 at_) ∧
    (runs → s.underflowDue n at_ = true → ∃ t, exec (.underflow n at_) s = .next t ∧
      event t 0 (K.cadenceTimer_UnderflowCount n) ∧
      (s.get (K.cadenceTimer_TimerMode n) = 1 → t.timerState n = 3 ∧ count t n = 0) ∧
      (s.get (K.cadenceTimer_TimerMode n) ≠ 1 → t.timerState n = 2 ∧ count t n = s.get (K.cadenceTimer_Reload n) ∧
        t.get (K.cadenceTimer_ReloadInUse n) = s.get (K.cadenceTimer_Reload n) ∧
        t.get (K.cadenceTimer_Periods n) = (s.get (K.cadenceTimer_Periods n) + 1) % 2 ^ 48) ∧
      ∀ m < 16, s.timerState m = 2 → s.get (K.cadenceTimer_ClockSource m) = 2 → s.get (K.cadenceTimer_SourceSelect m) = n →
        1 < count s m → count t m = count s m - 1) ∧
    (∀ w, runs → s.matchDue n w at_ = true → 1 ≤ count s n → ∃ t, exec (.compareMatch n w at_) s = .next t ∧
      event t (1 + w) (if w = 0 then K.cadenceTimer_Compare0Count n else K.cadenceTimer_Compare1Count n)) ∧
    (∀ (i : Nat) (rising : Bool), s.timerState n = 2 → s.get (K.cadenceTimer_SourceSelect n) = i →
      s.get (K.cadenceTimer_ClockSource n) = 5 ∨
        s.get (K.cadenceTimer_ClockSource n) = (if rising = true then 3 else 4) →
      bankUp s 1 = true → 1 < count s n → ∃ t, exec (.timerPinEdge i rising at_) s = .next t ∧ count t n = count s n - 1 ∧
        (t.timer n).last = gridAfter at_)

/-- R524 to R527, R594: outputs and capture. With no STOP waiting, a pulse of an output ends at its grid step. With its bank at a level, a
selected edge of an input adds its stamp to a queue of four, the Pond time less the filter and the input delay to the nearest nanosecond, with
CAPTURE's flag, count and interrupt; one that finds the queue full only overflows. -/
def Sys2Proof.Claims.CaptureAndOutputs : Prop :=
  ∀ (s : State) (i : Nat), s.Inv → i < 8 →
    (∀ at_, (∀ m < 16, (s.timer m).stopAt = none) → s.tmr.pulse.getD i none = some at_ → ∃ t, exec (.ctoPulseEnd i at_) s = .next t ∧ t.tmr.pulse.getD i none = none ∧
      t.getB (K.timerOutput_OutLevel i) = false ∧ t.cpu = s.cpu) ∧
    (∀ (rising : Bool) (at_ : Nat), s.time.running = true → bankUp s 1 = true → s.tmr.stopped = false →
      let n := s.reach at_
      (∀ w, s.tmr.capAt.getD i none = some w → w + capFilter n * NS ≤ n.elapsed) →
      s.get (K.capture_CaptureEdge i) = 3 ∨ s.get (K.capture_CaptureEdge i) = (if rising = true then 1 else 2) →
      ((s.captures i).length < 4 → ∃ t, exec (.capture i rising at_) s = .next t ∧
        t.captures i = s.captures i ++ [toTime96 (captureStamp n i)] ∧ bit (t.get (K.capture_CaptureFlags i)) 0 = true ∧
        t.get (K.capture_CaptureCount i) = min (s.get (K.capture_CaptureCount i) + 1) 65535 ∧
        (∀ c, s.getB (K.capture_IrqOnCapture i) = true → s.get K.timerGlobal_TimerIrqCore = c → c < 4 →
          (t.core c).intPending.getLsbD 6 = true)) ∧
      (4 ≤ (s.captures i).length → ∃ t, exec (.capture i rising at_) s = .next t ∧ t.captures i = s.captures i ∧
        bit (t.get (K.capture_CaptureFlags i)) 1 = true ∧
        t.get (K.capture_OverflowCount i) = min (s.get (K.capture_OverflowCount i) + 1) 65535 ∧ t.cpu = s.cpu))

/-- Cadence timers, their outputs and capture. Where the spec leaves it open, as log entries 9, 123, 185, 191 of the model
say. -/
def Obligations.TimerUnit : Prop :=
  Claims.CadenceTimers ∧ Claims.CaptureAndOutputs

/-- R536 to R540, R544, R556, R557: an entry attempt. In RUN, with the reply to its write fetched and every core in WAIT, the blocks vote in
their order; the first that refuses, or one that refuses as it stops, or an enabled wake source, ends the attempt REFUSED in
RUN; without one the state of the mode is reached, its timers stopped, the field off and the ports DOWN. -/
def Sys2Proof.Claims.EntryAttempts : Prop :=
  ∀ (s : State) (e : EntryEnd) (at_ aon m : Nat), s.Inv → s.inRun = true → s.power.armed = some 0 → s.get K.powerControl_PowerMode = m →
    m ≠ 0 → m ≤ 4 → coresWait s = true →
    let n := (s.reach (s.time.t0 + at_)).reachAon aon
    let v := if m = 4 then n.set K.oasis_OasisBursts 0 else n
    let ended (t : State) : Prop := t.get K.powerControl_PowerMode = 0 ∧ t.power.armed = none
    let refused (b : Nat) : Prop := ∃ t, exec (.entryAttempt e at_ aon) s = .next t ∧ ended t ∧ t.inRun = true ∧
      t.get K.powerControl_EntryResult = St.refused ∧ t.get K.powerControl_RefusingBlock = b ∧
      bit (t.get K.powerControl_PowerFlags) 0 = true ∧
      t.get K.powerControl_RefusedCount = min (s.get K.powerControl_RefusedCount + 1) 65535 ∧
      (∀ c poll, refusingBlock v = none → e = .wake c poll → t.get K.powerControl_LastWakeCause = c)
    (∀ b, refusingBlock v = some b → refused b) ∧
    (refusingBlock v = none →
      (∀ b, e = .block b → b < 12 → b ≠ 4 → b ≠ 5 → refused b) ∧
      (∀ c poll, e = .wake c poll → c ≠ 6 → wakeEnabled s (m == 1 || m == 4) c = true → refused 14) ∧
      (e = .none → ∃ t, exec (.entryAttempt e at_ aon) s = .next t ∧ ended t ∧
        t.power.phase = (if m = 2 then .deep else if m = 3 then .off else .sleep) ∧
        t.get K.powerControl_EntryResult = St.ok ∧ t.get K.powerControl_RefusingBlock = 255 ∧
        t.get K.powerControl_Entries = (s.get K.powerControl_Entries + 1) % 2 ^ 32 ∧ fieldOn t = false ∧
        (∀ k < 16, t.timerState k = 0) ∧ (∀ p < 32, t.portState p = 0 ∨ t.portState p = 6) ∧ t.tmr.stopped = true ∧
        (m = 4 → s.power.oasis = none → t.power.oasis = some n.elapsed)))

/-- R95, R540, R541, R545 to R549, R551: wakes and the failures of power. In SLEEP an enabled source starts the wake and is shown; a
regulator that is more than 2 ms late ends it in OFF, a late reference makes a start go on with the internal oscillator; an OASIS burst begins at a
multiple of its period and ends in SLEEP, beyond its error limit in DEEP; a level raise not in range within 2 ms is withdrawn. -/
def Sys2Proof.Claims.WakesAndFailures : Prop :=
  ∀ (s : State) (at_ aon : Nat), s.Inv →
    let n := (s.reach (s.time.t0 + at_)).reachAon aon
    let counted (t : State) (b k : Nat) : Prop := bit (t.get K.powerControl_PowerFlags) b = true ∧ t.get k = min (s.get k + 1) 65535
    let woken (t : State) : Prop := t.power.phase = .run ∧ t.power.waking = true ∧ t.get K.powerControl_PowerState = 0
    (∀ c port, s.power.phase = .sleep → wakeEnabled s true c = true → c ≠ 3 →
      (c = 2 → s.power.reachedAon + 32768 * s.get K.powerControl_WakeAlarm ≤ n.time.aon) →
      (c = 5 → port < 32 ∧ bit (s.get K.powerControl_LinkWakePorts) port = true) →
      ∃ t, exec (.wake c port at_ aon) s = .next t ∧ woken t ∧ t.get K.powerControl_LastWakeCause = c ∧
        (c = 6 → s.get K.reference_RefStatus ≠ 1 → t.get K.reference_RefStatus = 1)) ∧
    (s.power.waking = true → 65536 < (max s.time.aon aon + 1 - s.power.rampAon) * 1000 → ∃ t, exec (.regulatorTimeout aon) s = .next t ∧ t.power.phase = .off ∧ t.power.waking = false ∧
      t.power.latchCause = 1 ∧ t.power.fails = min 3 (s.power.fails + 1) ∧ t.power.failed = s.power.failed ++ [s.time.opSec] ∧
      (t.power.gaveUp = true ↔ s.power.gaveUp = true ∨ 2 ≤ s.power.fails) ∧ t.time.running = false) ∧
    (s.power.phase = .starting → s.time.running = false → s.time.refOk = false → s.get K.reference_RefStatus = 0 →
      ∃ t, exec .refLate s = .next t ∧ t.get K.reference_RefStatus = 1 ∧ t.power.latchCause = 2 ∧
        counted t 3 K.powerControl_RefLateEvents) ∧
    (∀ e, s.power.phase = .sleep → s.power.oasis = some e → s.power.burst = none → e < n.elapsed →
      (n.elapsed - e) % (s.get K.oasis_OasisPeriod * MS) = 0 → ∃ t, exec (.oasisBurst at_) s = .next t ∧
        t.power.burst = some n.elapsed ∧ t.get K.powerControl_PowerState = 1 ∧
        t.get K.oasis_OasisBursts = (s.get K.oasis_OasisBursts + 1) % 2 ^ 32) ∧
    (∀ b, s.power.burst = some b → b + s.get K.oasis_OasisBurst * MS ≤ n.elapsed →
      let beyond := errExceeds (s.get K.pondTime_ErrorEstimate) (s.get K.oasis_OasisErrorLimit)
      let v := if beyond = true then n.flag K.powerControl_PowerFlags 4 K.powerControl_OasisLimitEvents else n
      (refusingBlock v = none → ∃ t, exec (.oasisBurstEnd .none at_ aon) s = .next t ∧ t.power.burst = none ∧
        t.get K.powerControl_PowerState = 0 ∧
        (beyond = false → t.power.phase = .sleep ∧ ∀ x, s.power.oasis = some x → t.power.oasis = some x) ∧
        (beyond = true → t.power.phase = .deep ∧ counted t 4 K.powerControl_OasisLimitEvents)) ∧
      (∀ k, refusingBlock v = some k → ∃ t, exec (.oasisBurstEnd .none at_ aon) s = .next t ∧ woken t ∧
        t.power.burst = none ∧ t.get K.powerControl_RefusingBlock = k)) ∧
    (∀ lvl t0, s.power.ramp = some (lvl, t0) → t0 + 2 * MS ≤ n.elapsed → ∃ t, exec (.levelFail at_) s = .next t ∧
      t.power.ramp = none ∧ t.get K.performance_LevelRequest = s.get K.performance_LevelApplied ∧
      counted t 2 K.powerControl_LevelFailEvents)

/-- Entry attempts, wakes and failures of power. Where the spec leaves it open, as log entries 77, 124, 126, 127, 128, 130,
188, 189, 190, 196 of the model say. -/
def Obligations.PowerStates : Prop :=
  Claims.EntryAttempts ∧ Claims.WakesAndFailures

/-- R10, R49, R545, R558 to R561, R569, R571: resets and power-ups. RST_N for 200 ns to 10 ms makes a warm reset due, for
longer a cold one, and a watchdog a warm one; RST_N wakes from SLEEP, and in the CK_AON cycle of a wake source it is what
is taken. A warm reset leaves Pond time running and the memories as they stand, and boots again unless the image loaded
stands; a cold one samples the straps and clears the cores. A power-up needs the supplies of R601, and counts a power
cycle, or, from DEEP, the time slept, which adds up with what of a second was counted before. Where the spec leaves it
open, as log entries 75, 131, 132, 133, 134, 135, 136, 140, 173 of the model say. -/
def Obligations.ResetsAndPowerUps : Prop :=
  ∀ (s : State) (i : StartIn) (at_ aon : Nat), s.Inv →
    let started (t : State) (cause : Nat) : Prop := t.device = 0 ∧ t.get K.deviceControl_ResetCause = cause ∧ t.boot.due = none ∧
      t.streams = [] ∧ t.mspi = MspiSt.reset ∧ t.get K.deviceControl_StartState = s.get K.deviceControl_StartState
    let boots (t : State) (l : List Nat) : Prop := t.boot.image = false ∧
      (bit (t.get K.boot_StrapValue) 5 = true → t.boot.sources = [] ∧ t.boot.next = some 3) ∧
      (bit (t.get K.boot_StrapValue) 5 = false → t.boot.sources = l ∧ t.boot.next = none)
    let part := (s.time.now - s.time.t0) * 32768 / MS
    let rising (t : State) : Prop := t.power.phase = .starting ∧ t.time.running = false ∧ t.boot.kind = .power ∧
      t.get K.supplyMonitor_SupplyStatus = i.supplies % 512
    (∀ ns, 200 ≤ ns → s.boot.due = none →
      let due (t : State) : Prop := t.boot.due = some (if ns < 10000000 then (.warm, 2, 0, false) else (.cold, 3, 0, false))
      let same : Prop := s.power.rampAon = max s.time.aon aon ∧ s.get K.powerControl_LastWakeCause ≠ 0
      (s.power.phase = .run ∨ s.power.phase = .starting →
        (¬ same ∨ s.power.waking = true → ∃ t, exec (.rstN ns i aon) s = .next t ∧ due t) ∧
        (same → ∃ t, exec (.rstN ns i aon) s = .next t ∧ t.get K.powerControl_LastWakeCause = 0 ∧
          (s.power.waking = false → t.boot.due = none))) ∧
      (s.power.phase = .sleep → ∃ t, exec (.rstN ns i aon) s = .next t ∧ due t ∧ t.power.waking = true ∧
        t.get K.powerControl_LastWakeCause = 0)) ∧
    (∀ c : Fin 3, s.clocked = true → s.get K.deviceControl_WatchdogTicks ≤ s.boot.halts[c] → s.boot.due = none →
      ∃ t, exec .watchdog s = .next t ∧ t.boot.due = some (.warm, 6, 0, false) ∧ bit (t.get K.deviceControl_ResetFlags) 0 = true ∧
        t.get K.deviceControl_WatchdogResets = min (s.get K.deviceControl_WatchdogResets + 1) 65535) ∧
    (∀ cause upd, s.boot.due = some (.warm, cause, 0, upd) → s.clocked = true → i.cores = [] →
      let n := (s.reach (s.time.t0 + at_)).timersSettle
      ∃ t, exec (.warmReset i at_) s = .next t ∧ started t cause ∧ t.boot.kind = .warm ∧ t.time.running = s.time.running ∧
        t.cpu.shared = n.cpu.shared ∧
        (∀ c < 4, (t.core c).running = false ∧ (t.core c).mem = (n.core c).mem ∧ t.get (K.coreTick_CoreState c) = 0) ∧
        (imageStands n = true → upd = false → n.fwUp = true → t.boot.image = true ∧ t.boot.next = none) ∧
        (imageStands n = false ∨ upd = true ∨ n.fwUp = false →
          boots t (if upd = true then (bootSources (t.get K.boot_BootOrder)).filter (· ≠ 0)
            else bootSources (t.get K.boot_BootOrder)))) ∧
    (∀ cause upd, s.boot.due = some (.cold, cause, 0, upd) → s.power.phase = .run → i.cores = [] →
      ∃ t, exec (.coldReset i) s = .next t ∧ started t cause ∧ t.boot.kind = .cold ∧ t.power.phase = .starting ∧
        t.time.running = false ∧ t.get K.boot_StrapValue = i.straps % 64 ∧ t.get K.boot_BootOrder = i.straps % 4 ∧
        t.get K.performance_LevelApplied = (if bit i.straps 4 = true then 1 else 3) ∧ boots t (bootSources (i.straps % 4)) ∧
        t.cpu.shared = [] ∧ ∀ c < 4, (t.core c).running = false ∧ (t.core c).mem = []) ∧
    (suppliesUp i.supplies = true → i.cores = [] →
      (s.power.phase = .held ∨ s.power.phase = .off → ∃ t, exec (.powerUp 0 i aon) s = .next t ∧ started t 0 ∧ rising t ∧
        t.time.cycles = min (2 ^ 24 - 1) (s.time.cycles + 1) ∧
        t.time.opSec = min (2 ^ 40 - 1) (s.time.opSec + (s.time.opAcc + part) / 32768000)) ∧
      (∀ w, s.power.phase = .deep → 1 ≤ w → w ≤ 4 → w ≠ 2 → wakeEnabled s false w = true →
        ∃ t, exec (.powerUp w i aon) s = .next t ∧ started t 1 ∧ rising t ∧ t.get K.powerControl_LastWakeCause = w ∧
          t.time.cycles = s.time.cycles ∧
          t.time.opSec = min (2 ^ 40 - 1)
            (s.time.opSec + (s.time.opAcc + part + (max s.time.aon aon - s.power.reachedAon) * 1000) / 32768000)) ∧
      (s.power.phase = .off → 1 ≤ s.power.fails → s.power.fails < 3 → s.power.failAon + 32768 ≤ max s.time.aon aon →
        ∃ t, exec (.wakeRetry i aon) s = .next t ∧ started t 1 ∧ rising t ∧ t.power.fails = s.power.fails))

/-- R416, R562, R564 to R570: the way from a start to firmware. The PLL's lock begins Pond time at 0; the P objects' values
reach the outputs; a source that fails gives way to the next, after the last the device enters SAFE; an image that
verifies is loaded, one that does not is counted; a flash write that verified makes its slot active. Firmware starts at an
edge with every core that is not RETIRED at its RESET vector. Where the spec leaves it open, as log entries 137, 138, 139
of the model say. -/
def Obligations.BootSequence : Prop :=
  ∀ (s : State) (at_ : Nat), s.Inv →
    let rejected (t : State) (r : Nat) : Prop := t.get K.imageSecurity_LastRejectReason = r ∧ t.boot.image = s.boot.image ∧
      t.get K.imageSecurity_ImageRejects = min (s.get K.imageSecurity_ImageRejects + 1) 65535
    let loaded (t : State) (b : List Nat) (source : Nat) : Prop := t.boot.image = true ∧ t.boot.sources = [] ∧
      t.get K.boot_BootSource = source ∧ t.get K.imageSecurity_RunningSecurityVersion = byteAt b 12 ∧
      t.get K.imageSecurity_RunningImageVersion = field b 8 4
    let gaveWay (t : State) (l : List Nat) : Prop := t.boot.sources = l ∧ t.boot.other = false ∧
      (l = [] → s.device = 0 → t.boot.next = some 3)
    (s.power.phase = .starting → s.time.running = false → s.time.refOk = true →
      (∀ b ∈ [0, 1, 4], bit (s.get K.supplyMonitor_SupplyStatus) b = true) → ∃ t, exec .pllLock s = .next t ∧
        t.power.phase = .run ∧ t.time.running = true ∧ t.time.now = 0 ∧ t.time.t0 = 0 ∧ t.time.tick = 0 ∧ t.dict = s.dict) ∧
    (s.inRun = true → s.time.running = true → s.out.loaded = false → ∃ t, exec (.pObjectsLoaded at_) s = .next t ∧
      t.out.loaded = true ∧ t.out.undriven = false) ∧
    (∀ k l, s.boot.sources = k :: l → k ≠ 0 → s.device = 0 → s.boot.next = none →
      s.boot.sourceAt + s.get K.boot_BootWait * SEC ≤ s.elapsed → ∃ t, exec .bootWaitExpiry s = .next t ∧ gaveWay t l) ∧
    (s.device = 0 ∨ s.device = 3 → s.boot.writing = false →
      (∀ source, s.boot.verify = some (2, source) →
        (imageReject s (stagedBytes s) = 0 → stagedClash (stagedBytes s) = false → ∃ t, exec (.imageVerifyDone []) s = .next t ∧
          loaded t (stagedBytes s) source ∧ t.boot.verify = none ∧ t.get K.boot_ImageResult = St.ok) ∧
        (imageReject s (stagedBytes s) ≠ 0 → ∃ t, exec (.imageVerifyDone []) s = .next t ∧
          rejected t (imageReject s (stagedBytes s)) ∧ t.boot.verify = none ∧
          t.get K.boot_ImageResult = St.integrityFail ∧ t.get K.boot_ImageState = 1)) ∧
      (∀ (l b : List Nat), s.boot.verify = none → s.boot.sources = 0 :: l → (∀ x ∈ b, x < 256) →
        (imageReject s b = 0 → ∃ t, exec (.imageVerifyDone b) s = .next t ∧ loaded t b (1 + flashSlot s) ∧
          (s.boot.other = true → t.get K.deviceControl_BootFallbacks = min (s.get K.deviceControl_BootFallbacks + 1) 65535)) ∧
        (imageReject s b ≠ 0 → ∃ t, exec (.imageVerifyDone b) s = .next t ∧ rejected t (imageReject s b) ∧
          (s.boot.other = false → bit (s.get K.boot_StrapValue) 2 = false → t.boot.other = true ∧ t.boot.sources = 0 :: l) ∧
          (s.boot.other = true ∨ bit (s.get K.boot_StrapValue) 2 = true → gaveWay t l)))) ∧
    (s.boot.writing = true → ∀ ok : Bool, ∃ t, exec (.flashWriteComplete ok) s = .next t ∧ t.boot.writing = false ∧
      t.boot.verify = none ∧
      (ok = true → bit (s.get K.boot_StrapValue) 2 = false → t.get K.boot_FlashSlotActive = 1 - s.get K.boot_FlashSlotActive ∧
        t.get K.boot_ImageResult = St.ok ∧ t.boot.sources.head? = some 0) ∧
      (ok = false → t.get K.boot_FlashSlotActive = s.get K.boot_FlashSlotActive ∧
        t.get K.boot_ImageResult = St.internalFault ∧ t.get K.boot_ImageState = 1)) ∧
    (s.atEdge = true → s.inRun = true → s.time.running = true → s.out.loaded = true → s.boot.image = true → s.fwUp = false →
      s.boot.next = none → (∀ c < 4, (s.core c).running = false) →
      (s.boot.kind = .warm → s.boot.releasedAt + 3 * MS ≤ s.elapsed) →
      (firmwareCores s = 0 → ∃ t, exec .firmwareStart s = .next t ∧ t.boot.next = some 3 ∧ t.cpu = s.cpu) ∧
      (firmwareCores s ≠ 0 → ∃ t, exec .firmwareStart s = .next t ∧
        t.boot.next = some (s.get K.deviceControl_StartState) ∧ t.silt.start = none ∧
        ∀ c < 4, (t.core c).running = !(s.get (K.coreTick_CoreState c) == 2) ∧
          (s.get (K.coreTick_CoreState c) ≠ 2 → (t.core c).pcx = 0)))

/-- R594, R601, R602, R620: supplies. One that leaves its range is shown and, but for the three that stop the device, counted: VDD_TS makes a
cold reset due, VDD_CORE (outside a ramp of the level) and VDD_IO1 hold the device, VDD_SRD takes the ports down, VDDA_RF the chains in service to FAULT,
VDD_RDR the field off. One that returns is shown again, the level of its bank with it. -/
def Sys2Proof.Claims.Supplies : Prop :=
  ∀ (s : State) (b at_ : Nat), s.Inv → b < 9 →
    let status (t : State) : Nat := t.get K.supplyMonitor_SupplyStatus
    (bit (status s) b = true → s.power.phase = .run ∨ s.power.phase = .sleep ∨ s.power.phase = .starting →
      (b = 0 → s.power.ramp = none) →
      ∃ t, exec (.supplyDrop (2 ^ b) at_) s = .next t ∧ bit (status t) b = false ∧
        (∀ e < 9, e ≠ b → bit (status t) e = bit (status s) e) ∧
        (b ≠ 0 → b ≠ 1 → b ≠ 4 → bit (t.get K.supplyMonitor_SupplyFlags) 0 = true ∧
          t.get K.supplyMonitor_SupplyDrops = min (s.get K.supplyMonitor_SupplyDrops + 1) 65535) ∧
        (b = 1 → s.boot.due = none → t.time.running = false ∧ t.out.undriven = true ∧
          t.boot.due = some (.cold, 7, 0, false)) ∧
        (b = 0 ∨ b = 4 → t.power.phase = .held ∧ t.time.running = false ∧ t.boot.due = none) ∧
        (b = 2 → ∀ p < 32, t.portState p = 0 ∨ t.portState p = 6) ∧
        (b = 3 → ∀ c < 4, 1 ≤ s.chainState c → s.chainState c ≤ 4 → t.chainState c = 4) ∧
        (b = 7 → fieldOn t = false)) ∧
    (∀ banks, bit (status s) b = false → ∃ t, exec (.supplyReturn (2 ^ b) banks) s = .next t ∧ bit (status t) b = true ∧
      (∀ e < 9, e ≠ b → bit (status t) e = bit (status s) e) ∧
      (b = 3 → ∀ a < 2, ((t.ant a).switchOn = true ↔ (s.ant a).bias = 1 ∧ (s.ant a).short = false)))

/-- R596, R558: the test access port of IEEE 1149.1. TRST_N holds it in its reset state; a cycle of TCK moves its state by TMS, a shift takes
TDI in and drives TDO from the other end; from every state five cycles with TMS at 1 lead to the reset state. Nothing else of
the device moves. -/
def Sys2Proof.Claims.TestAccess : Prop :=
  ∀ s : State, exec (.trstN true) s = .next { s with jtag := TapSt.reset } ∧
    exec (.trstN false) s = .next { s with jtag := { s.jtag with trst := false } } ∧
    (s.jtag.trst = true → ∀ tms tdi, exec (.tapClock tms tdi) s = .next s) ∧
    (s.jtag.trst = false →
      (∀ tms tdi, ∃ t, exec (.tapClock tms tdi) s = .next t ∧ t.jtag.state = s.jtag.state.next tms ∧
        (s.jtag.state = .shiftIr ∨ s.jtag.state = .shiftDr → ∀ b l, s.jtag.shift = b :: l → t.jtag.shift = l ++ [tdi]) ∧
        (t.jtag.state = .shiftIr ∨ t.jtag.state = .shiftDr → t.jtag.tdo = t.jtag.shift.head?) ∧
        (t.jtag.state = .updateIr → t.jtag.ir = t.jtag.shift) ∧ (t.jtag.state = .updateDr → t.jtag.dr = t.jtag.shift) ∧
        ∃ j, t = { s with jtag := j }) ∧
      (∀ a b c d e : Bool, ∃ t u v w x, exec (.tapClock true a) s = .next t ∧ exec (.tapClock true b) t = .next u ∧
        exec (.tapClock true c) u = .next v ∧ exec (.tapClock true d) v = .next w ∧ exec (.tapClock true e) w = .next x ∧
        x.jtag.state = .reset))

/-- Supplies, and the test access port. Where the spec leaves it open, as log entries 26, 139, 141, 187 of the model say. -/
def Obligations.SuppliesAndTestAccess : Prop :=
  Claims.Supplies ∧ Claims.TestAccess

/-- R45 to R48, R59, R60, R63, R66: the operations on a request that passes its checks. READ, SNAPSHOT and DESCRIBE answer OK
with what they read; STREAM_READ takes the oldest whole entries that fit; WRITE holds a value, or clears one that reading
clears; and a record takes all its values at once. Reading moves nothing but the counters of requests. Where the spec
leaves it open, as log entries 55, 62, 72, 146, 148, 149 of the model say. -/
def Obligations.Operations : Prop :=
  ∀ (s : State) (c : Ctx) (index sub len : Nat) (b : List Nat), s.Inv →
    let n := s.comeTo c
    let k := index * 256 + sub
    let rest (t : State) : Prop := ∀ j, j ∉ requestKeys → t.get j = n.get j
    (∀ r, s.Serves c 1 index sub len [] → firstRefused (readRefusals n c index sub len) = none → findRow index sub = some r →
      ∃ t, exec (.read c index sub len) s = .next t ∧ t.reply = ⟨St.ok, toBytes r.ty.bytes (readValue n index sub)⟩ ∧
        ((∀ i < 5, k ≠ K.siltCursor_Record i) → rest t)) ∧
    (s.Serves c 3 index sub len [] → tableRefuses n c false index sub = none → isStream index = true → sub = 1 →
      stateRefuses n false index sub = none →
      let got := streamTakeable len (n.stream index)
      n.stream index = [] ∨ got ≠ [] → ∃ t, exec (.streamRead c index sub len) s = .next t ∧
        t.reply = ⟨St.ok, got.flatMap fun e => e.flatMap fun w => toBytes 3 w⟩ ∧
        t.stream index = (n.stream index).drop got.length) ∧
    (s.Serves c 5 index 0 0 [] → objectRefuses n c false index = none → stateRefuses n false index 0 = none →
      ∃ t, exec (.snapshot c index 0) s = .next t ∧ t.reply = ⟨St.ok, snapshotBytes n index⟩ ∧ rest t) ∧
    (∀ o r, s.Serves c 7 index sub 0 [] → findObj index = some o → findRow index sub = some r →
      mayRead n (roleOf n c) index = true → stateRefuses n false index sub = none →
      ∃ t, exec (.describe c index sub 0) s = .next t ∧ t.reply = ⟨St.ok, describeBytes n index o r⟩ ∧ rest t) ∧
    (∀ r, s.Passes c index sub b → findRow index sub = some r → index ≠ 0xC040 → index < 0xE000 → k ∉ requestKeys →
      (r.acc = .rw ∨ r.acc = .wo → ∃ t, exec (.write c index sub b) s = .next t ∧ t.reply = ⟨St.ok, []⟩ ∧
        t.get k = imageOf r.ty b) ∧
      (r.acc = .rc → ∃ t, exec (.write c index sub b) s = .next t ∧ t.reply = ⟨St.ok, []⟩ ∧
        (r.ty = .bits16 → t.get k = Nat.land ((s.meets c).get k) (65535 - imageOf r.ty b)) ∧
        (r.ty = .u16 ∨ r.ty = .u32 → t.get k = 0) ∧ ∀ j, j ∉ requestKeys → j ≠ k → t.get j = (s.meets c).get j)) ∧
    (s.Serves c 6 index 0 b.length b → objectRefuses n c true index = none → index < 0xE000 →
      b.length = ((recordRows index).map fun r => r.ty.bytes).sum →
      firstRefused (recordRefusals (s.meets c) c index b) = none →
      ∃ t, exec (.writeRecord c index b) s = .next t ∧ t.reply = ⟨St.ok, []⟩ ∧
        ∀ p ∈ recordVals index b, t.get (index * 256 + p.1.sub) = p.2)

/-- R45, R52, R53, R55, R60, R401: the checks of a READ, of a WRITE and of a WRITE_RECORD, in their order. Each answers its status, no
value changes but the counters of requests, and a refusal for want of a right is flagged and counted; a refused WRITE_RECORD names the
subindex of its first failing check, 0 for the object. Where the spec leaves it open, as log entries 63, 64, 67, 147, 149 of the model say. -/
def Obligations.RequestChecks : Prop :=
  ∀ (s : State) (c : Ctx) (index sub len : Nat) (b : List Nat), s.Inv →
    let n := s.comeTo c
    let w := s.meets c
    let refused (i : Instr) (m : State) (st : Nat) (data : List Nat) : Prop := ∃ t, exec i s = .next t ∧ t.reply = ⟨st, data⟩ ∧
      (∀ j, j ∉ requestKeys → t.get j = m.get j) ∧
      (st = St.notAuthorised → bit (t.get K.protection_ProtFlags) 1 = true ∧
        t.get K.protection_NotAuthorisedCount = min (m.get K.protection_NotAuthorisedCount + 1) 65535)
    (s.Serves c 2 index sub b.length b → index ≠ 0xC040 →
      let no := refused (.write c index sub b) w
      (findObj index = none → no St.noObject []) ∧
      (∀ o, findObj index = some o → findRow index sub = none → no St.noSubindex []) ∧
      (∀ r, findRow index sub = some r →
        (isImageObject index sub = false → mayWrite w (roleOf w c) index = false → no St.notAuthorised []) ∧
        (mayWrite w (roleOf w c) index = true →
          (r.acc = .ro ∨ r.keep = .f → no St.readOnly []) ∧
          (r.acc ≠ .ro → r.keep ≠ .f →
            let v := imageOf r.ty b
            let rel := relationBad w index (fun j => if j = sub then v else w.get (index * 256 + j)) [sub]
            (lengthOk r.ty b.length = false → no St.lengthMismatch []) ∧
            (lengthOk r.ty b.length = true →
              (valueStatus w r v ≠ St.ok → no (valueStatus w r v) []) ∧
              (valueStatus w r v = St.ok → familyRefuses w c index sub v = [] →
                (rel = true → no St.outOfRange []) ∧
                (rel = false →
                  (∀ e, writeStateRefuses w index sub v = some e → no e.1 e.2) ∧
                  (writeStateRefuses w index sub v = none →
                    (lockRefuses w index sub v false = true → no St.lockedByRegulation []) ∧
                    (lockRefuses w index sub v false = false → r.acc = .pw → no St.needsTwoParty []))))))))) ∧
    (s.Serves c 1 index sub len [] →
      let no := refused (.read c index sub len) n
      (findObj index = none → no St.noObject []) ∧
      (∀ o, findObj index = some o → findRow index sub = none → no St.noSubindex []) ∧
      (∀ r, findRow index sub = some r →
        (isImageObject index sub = false → mayRead n (roleOf n c) index = false → no St.notAuthorised []) ∧
        (mayRead n (roleOf n c) index = true →
          (readBarred index r = true → no St.writeOnly []) ∧
          (readBarred index r = false →
            (isStream index = true → sub = 1 → no St.typeMismatch []) ∧
            (isStream index = false ∨ sub ≠ 1 →
              (len ≠ 0 → no St.lengthMismatch []) ∧
              (len = 0 → ∀ e, stateRefuses n false index sub = some e → no e.1 e.2)))))) ∧
    (s.Serves c 6 index 0 b.length b →
      let no := refused (.writeRecord c index b)
      (∀ e, objectRefuses n c true index = some e → no n e [0]) ∧
      (objectRefuses n c true index = none →
        (b.length ≠ ((recordRows index).map fun r => r.ty.bytes).sum → no w St.lengthMismatch [0]) ∧
        (b.length = ((recordRows index).map fun r => r.ty.bytes).sum → ∀ r,
          firstRefused (recordRefusals w c index b) = some r →
          no w r.status ((if r.status = St.notInState then r.data else []) ++ [r.sub]))))

/-- R53, R65, R68 to R73: the MSPI port. A transfer sends the status byte first, after which its error bits are clear; one that begins with the
code of STATUS or FETCH is that; a request that arrives whole joins the queue of four, with its reply where the operation is reserved, another is
flagged and counted; a request that executes keeps its reply in the queue, and a FETCH that is
long enough takes the oldest reply away. Where the device serves no request every byte sent is zero. -/
def Sys2Proof.Claims.MspiPort : Prop :=
  ∀ (s : State) (m at_ : Nat) (b : List Nat), s.Inv →
    (∀ i ∈ [(Instr.status m at_, m), (Instr.fetch m at_, m), (Instr.mspiTransfer b at_, b.length)], engineUp s = false →
      ∃ t, exec i.1 s = .next t ∧ t.mspi = { s.mspi with sent := List.replicate i.2 0 } ∧ t.dict = s.dict) ∧
    (engineUp s = true →
      (0 < m → ∃ t, exec (.status m at_) s = .next t ∧ t.mspi =
        ⟨s.mspi.queue, false, false, false, statusByte s :: List.replicate (m - 1) 0⟩) ∧
      (∀ r y l, s.mspi.queue = ⟨r, some y⟩ :: l → 0 < m →
        let f := replyFrame r.tag y
        ∃ t, exec (.fetch m at_) s = .next t ∧ t.mspi.sent = ((statusByte s :: f) ++ List.replicate m 0).take m ∧
          (m ≤ f.length → t.mspi.queue = s.mspi.queue ∧ t.power = s.power ∧ t.boot = s.boot) ∧
          (f.length < m → t.mspi.queue = l ∧ t.power.armed = s.power.armed.map (· - 1) ∧
            ∀ x, s.boot.due = some x → t.boot.due = some (x.1, x.2.1, x.2.2.1 - 1, x.2.2.2))) ∧
      (let len := field b 5 2
       let d := if byteAt b 0 = 2 ∨ byteAt b 0 = 6 then len else 0
       (b ≠ [] → byteAt b 0 = 0 → exec (.mspiTransfer b at_) s = exec (.status b.length at_) s) ∧
       (b ≠ [] → byteAt b 0 = 4 → exec (.mspiTransfer b at_) s = exec (.fetch b.length at_) s) ∧
       (b ≠ [] → byteAt b 0 ≠ 0 → byteAt b 0 ≠ 4 →
        (b.length ≠ 8 + d ∨ 1024 < len → ∃ t, exec (.mspiTransfer b at_) s = .next t ∧ t.mspi.framErr = true ∧
          t.mspi.queue = s.mspi.queue ∧
          t.get K.hostAccessCounters_SpiFramingErrors = min (s.get K.hostAccessCounters_SpiFramingErrors + 1) 65535) ∧
        (b.length = 8 + d → len ≤ 1024 →
          (byteAt b (7 + d) ≠ crc8 (b.take (7 + d)) → ∃ t, exec (.mspiTransfer b at_) s = .next t ∧ t.mspi.crcErr = true ∧
            t.mspi.queue = s.mspi.queue ∧
            t.get K.hostAccessCounters_SpiCrcErrors = min (s.get K.hostAccessCounters_SpiCrcErrors + 1) 65535) ∧
          (byteAt b (7 + d) = crc8 (b.take (7 + d)) →
            (4 ≤ s.mspi.queue.length → ∃ t, exec (.mspiTransfer b at_) s = .next t ∧ t.mspi.qfull = true ∧
              t.mspi.queue = s.mspi.queue ∧
              t.get K.hostAccessCounters_SpiQueueFull = min (s.get K.hostAccessCounters_SpiQueueFull + 1) 65535) ∧
            (s.mspi.queue.length < 4 →
              let q : MspiReq := ⟨byteAt b 0, byteAt b 1, field b 2 2, byteAt b 4, len, (b.drop 7).take d⟩
              (opReserved (byteAt b 0) = false → ∃ t, exec (.mspiTransfer b at_) s = .next t ∧ t.dict = s.dict ∧
                t.mspi.queue = s.mspi.queue ++ [⟨q, none⟩]) ∧
              (opReserved (byteAt b 0) = true → ∃ t, exec (.mspiTransfer b at_) s = .next t ∧
                t.mspi.queue = s.mspi.queue ++ [⟨q, some ⟨St.valueReserved, []⟩⟩]))))))) ∧
    (∀ (c : Ctx) (index sub len : Nat) (l k : List MspiEntry) (q : MspiReq), c.path = .mspi → s.Serves c 1 index sub len [] →
      s.mspi.queue = l ++ ⟨q, none⟩ :: k → (∀ e ∈ l, e.reply.isSome = true) → ∃ t, exec (.read c index sub len) s = .next t ∧
        t.mspi.queue = l ++ ⟨q, some t.reply⟩ :: k)

/-- R77 to R79, R343, R347, R352, R353: requests that arrive in frames. A host frame that is no request, or whose sender lacks a key that is
asked for, is counted and gets no answer; one that is kept is answered as before; a READ in a frame is answered in the reply
frame, and in the reply of a transaction, which is kept. A submission whose keepers have answered is accepted, and one whose
keepers have not within 10 ms ends TIMEOUT. A message that is due is presented, or its WRITE takes effect. -/
def Sys2Proof.Claims.FramedRequests : Prop :=
  ∀ (s : State) (at_ aon : Nat), s.Inv →
    let n := s.instant at_ aon
    let head (b : List Nat) : List Nat := [1, setBit (byteAt b 1) 1] ++ (b.drop 2).take 4
    let ctx (p : Path) (source : Nat) : Ctx := ⟨p, none, source, 0, at_, aon⟩
    let result (m : State) (p : Path) (source index sub len : Nat) (x : List Nat) : Prop :=
      firstRefused (readRefusals m (ctx p source) index sub len) = none ∧ ∃ r, findRow index sub = some r ∧
        x = resultBytes 1 index sub ⟨St.ok, toBytes r.ty.bytes (readValue m index sub)⟩
    (∀ (f : List Nat) (fcs : Bool), engineTakes n .host = true → s.net.run = none → s.host.port < 32 → s.portState s.host.port = 4 →
      let q := s.host.port
      let m := n.count (K.port_FramesRx q) 6
      let own := toBytes 6 (s.get (K.port_MacAddress q))
      let b := f.drop 14
      (fcs = false ∨ f.length < 14 ∨ f.take 6 ≠ own → ∃ t, exec (.hostRequest f fcs at_ aon) s = .next t ∧
        t.host.sent = none ∧ t.get K.hostAccessCounters_HostFramesBad =
          min (s.get K.hostAccessCounters_HostFramesBad + 1) 65535) ∧
      (∀ ops e, fcs = true → 14 ≤ f.length → f.length ≤ 1514 → f.take 6 = own → field f 12 2 ≠ 0x8100 →
        field f 12 2 = s.get K.hostAccess_HostEtherType → payloadOps b = some (ops, e) → bit (byteAt b 1) 0 = false →
        (bit s.prot.required 0 = true → ∃ t, exec (.hostRequest f fcs at_ aon) s = .next t ∧ t.host.sent = none ∧
          t.get K.protection_AuthFailCount = min (n.get K.protection_AuthFailCount + 1) 65535) ∧
        (bit s.prot.required 0 = false →
          (∀ k, hostKept n (field f 6 6) (field b 2 2) = some k → ∃ t, exec (.hostRequest f fcs at_ aon) s = .next t ∧
            t.host.sent = some k.reply ∧ t.host.kept = s.host.kept ∧
            t.get K.hostAccessCounters_HostDuplicates = min (s.get K.hostAccessCounters_HostDuplicates + 1) 65535) ∧
          (∀ index sub len x, hostKept n (field f 6 6) (field b 2 2) = none → ops = [(1, index, sub, len, [])] →
            result m .host 0 index sub len x → 6 + x.length ≤ 1500 → ∃ t, exec (.hostRequest f fcs at_ aon) s = .next t ∧
            t.host.sent = some ((f.drop 6).take 6 ++ own ++ (f.drop 12).take 2 ++ (head b ++ x)) ∧
            (s.get K.hostAccess_DuplicateWindow ≠ 0 → ∃ k, t.host.kept.head? = some k ∧ k.mac = field f 6 6 ∧
              k.tag = field b 2 2 ∧ t.host.sent = some k.reply))))) ∧
    (∀ (e : InFrame) (l : List InFrame) (index sub len z : Nat) (x : List Nat), s.Arrives e l 5 → engineTakes n .remote = true → s.net.run = none →
      let body := netBody e.bytes
      let src := field e.bytes 6 2
      let b := body.drop 4
      let m := (n.took l).epochSee src (field body 0 2)
      4 ≤ body.length → payloadOps b = some ([(1, index, sub, len, [])], z) →
      (epochStale n src (field body 0 2) = true → ∃ t k, exec (.txnRequest at_ aon) s = .next t ∧ t.net.kept.head? = some k ∧
        k.reply = head b ++ resultBytes 1 index sub ⟨St.staleEpoch, []⟩) ∧
      (epochStale n src (field body 0 2) = false → keptReply m src (field body 0 2) (field body 2 2) = none →
        result m .remote src index sub len x → 6 + x.length ≤ 2004 → ∃ t, exec (.txnRequest at_ aon) s = .next t ∧
        t.net.kept.head? = some ⟨src, field body 0 2, field body 2 2, head b ++ x, n.elapsed⟩)) ∧
    (∀ w : SubWait, s.inRun = true → s.net.submit = some w → s.net.run = none → (∀ y ∈ w.ent.copies, y.channel < 64) →
      let accepted (i : Instr) : Prop := ∃ t x, exec i s = .next t ∧ t.net.submit = none ∧
        t.net.entries = s.net.entries ++ [x] ∧ x.epoch = w.ent.epoch ∧ x.number = w.ent.number ∧ x.payload = w.ent.payload ∧
        t.reply = ⟨St.accepted, toBytes 2 w.ent.epoch ++ toBytes 2 w.ent.number⟩
      let dropped (i : Instr) (st : Nat) : Prop := ∃ t, exec i s = .next t ∧ t.net.submit = none ∧
        t.net.entries = s.net.entries ∧ t.reply = ⟨st, []⟩
      (w.at_ + 10 * MS ≤ (s.reach (s.time.t0 + at_)).elapsed → dropped (.keeperHeldTimeout at_) St.timeout) ∧
      (∀ (e : InFrame) (l : List InFrame) (y : Copy),
        let b := netBody e.bytes
        s.Arrives e l 9 → b.length = 14 → byteAt b 0 = 2 → byteAt b 1 = 0 → byteAt b 7 = 0 → w.ent.epoch = field b 2 2 →
        w.ent.number = field b 4 2 → y ∈ w.ent.copies → y.channel = byteAt b 6 → y.keeper = field e.bytes 6 2 →
        y.chseq = field b 8 6 → w.await.contains y.channel = true →
        let rest := w.await.filter (· != y.channel)
        (rest ≠ [] → ∃ t, exec (.keeperHeld at_) s = .next t ∧ t.net.submit = some { w with await := rest } ∧
          t.net.entries = s.net.entries) ∧
        (rest = [] → w.late = true → dropped (.keeperHeld at_) St.late) ∧
        (rest = [] → w.late = false → (∀ z ∈ w.ent.copies, s.get (K.outChannel_ChannelState z.channel) ≠ 4) →
          accepted (.keeperHeld at_)))) ∧
    (∀ r : Receipt, (∀ x ∈ s.net.receipts, x.failed = none) → nextDue n = some r →
      (bit r.msg.flags 1 = false →
        let late := decide (dueInstant r + MS < n.time.now)
        let words := deliveryWords n r late r.msg.payload
        (n.streamFits 0x7031 (words.length + 1) = true → ∃ t, exec (.messageDelivery at_ aon) s = .next t ∧
          t.stream 0x7031 = s.stream 0x7031 ++ [(0x07 * 65536 + words.length) :: words] ∧ t.dict = (if late = true then
            n.flag K.messages_MsgFlags 6 K.messages_DelayedCount else n).dict) ∧
        (n.streamFits 0x7031 (words.length + 1) = false → exec (.messageDelivery at_ aon) s = .next n)) ∧
      (bit r.msg.flags 1 = true → engineTakes n .remote = true → ∀ row,
        let p := r.msg.payload
        let index := field p 0 2
        let sub := byteAt p 2
        let value := (p.drop 5).take (field p 3 2)
        let c : Ctx := ⟨.remote, r.slot, r.source, 0, n.time.now - n.time.t0, aon⟩
        value.length = field p 3 2 → findRow index sub = some row → row.acc = .rw → index < 0xE000 →
        firstRefused (writeRefusals n.settle c index sub value false) = none → ∃ t, exec (.messageDelivery at_ aon) s = .next t ∧
          t.get (index * 256 + sub) = imageOf row.ty value ∧
          t.get K.messages_MessagesDelivered = (s.get K.messages_MessagesDelivered + 1) % 2 ^ 48 ∧
          t.net.receipts.length = s.net.receipts.length - 1))

/-- Requests by MSPI, by host frame, by transaction and by message. Where the spec leaves it open, as log entries 55, 56, 57,
68, 69, 149, 150, 151 of the model say. -/
def Obligations.RequestTransports : Prop :=
  Claims.MspiPort ∧ Claims.FramedRequests

/-- R536, R558, R559, R563, R565, R568: requests to the device as a whole. A reset becomes due, and a power mode is armed, for when the replies
still waiting have left; a change of the state waits for the edge; an image is staged byte by byte, and RUN or STORE_AND_RUN
has it verified. -/
def Sys2Proof.Claims.SystemRequests : Prop :=
  ∀ (s : State) (c : Ctx), s.Inv →
    let w := s.meets c
    let answers (i : Instr) (k v st : Nat) (p : State → Prop) : Prop :=
      s.PassesKey c k 1 v → ∃ t, exec i s = .next t ∧ t.reply = ⟨st, []⟩ ∧ p t
    let due (kind : StartKind) (cause : Nat) (upd : Bool) (t : State) : Prop :=
      t.boot.due = some (kind, cause, repliesAhead s c, upd)
    let armed (v : Nat) (t : State) : Prop := t.get K.powerControl_PowerMode = v ∧
      t.power.armed = if v = 0 then none else some (repliesAhead s c)
    let verifies (v : Nat) (t : State) : Prop := t.boot.verify = some (v, if c.path = .remote then 3 else 4) ∧
      t.get K.boot_ImageResult = St.accepted ∧ t.get K.boot_ImageState = 2
    answers (.resetWarm c) K.deviceControl_ResetCommand 1 St.ok (due .warm 4 false) ∧
    answers (.resetCold c) K.deviceControl_ResetCommand 2 St.ok (due .cold 5 false) ∧
    answers (.resetUpdate c) K.deviceControl_ResetCommand 3 St.ok (due .warm 4 true) ∧
    answers (.commission c) K.deviceControl_StateCommand 1 St.accepted (fun t => t.boot.next = some 1) ∧
    answers (.operate c) K.deviceControl_StateCommand 2 St.accepted (fun t => t.boot.next = some 2) ∧
    answers (.powerModeNone c) K.powerControl_PowerMode 0 St.ok (armed 0) ∧
    answers (.powerModeSleep c) K.powerControl_PowerMode 1 St.ok (armed 1) ∧
    answers (.powerModeDeep c) K.powerControl_PowerMode 2 St.ok (armed 2) ∧
    answers (.powerModeOff c) K.powerControl_PowerMode 3 St.ok (armed 3) ∧
    answers (.powerModeOasis c) K.powerControl_PowerMode 4 St.ok (armed 4) ∧
    answers (.imageBegin c) K.boot_ImageCommand 1 St.ok
      (fun t => t.boot.staged = [] ∧ t.get K.boot_BytesReceived = 0 ∧ t.get K.boot_ImageState = 1) ∧
    answers (.imageRun c) K.boot_ImageCommand 2 St.accepted (verifies 2) ∧
    answers (.imageStoreAndRun c) K.boot_ImageCommand 3 St.accepted (verifies 3) ∧
    (∀ b, s.Passes c 0xD000 5 b → (∀ x ∈ b, x < 256) → SMap.wf (fun _ => 0) s.boot.staged = true →
      let at_ := field b 0 4
      let n := field b 4 2
      ∃ t, exec (.imageWrite c b) s = .next t ∧ t.reply = ⟨St.ok, []⟩ ∧
        (∀ i < n, SMap.get 0 (at_ + i) t.boot.staged = byteAt b (6 + i)) ∧
        (∀ a, a < at_ ∨ at_ + n ≤ a → SMap.get 0 a t.boot.staged = SMap.get 0 a s.boot.staged) ∧
        t.get K.boot_BytesReceived = max (w.get K.boot_BytesReceived) (at_ + n) ∧ t.get K.boot_ImageState = 1)

/-- R517, R519, R520, R523, R526, R583: requests to the timers, the captures and the log. START arms a timer by its StartMode with Count at
Reload, START_LATE_OK at once, and counted, where its instant is over; STOP takes effect at the next grid step; a group starts
together; reading a capture takes its oldest stamp, and reading a log cursor the next record. -/
def Sys2Proof.Claims.TimerAndLogRequests : Prop :=
  ∀ (s : State) (c : Ctx), s.Inv →
    let w := s.meets c
    let now := w.time.now
    let armed (t : State) (n : Nat) (a : Arm) : Prop := t.timerState n = 1 ∧ (t.timer n).arm = a ∧
      t.get (K.cadenceTimer_Count n) = w.get (K.cadenceTimer_Reload n) ∧ t.get (K.cadenceTimer_Periods n) = 0
    (∀ n < 16,
      let cmd := K.cadenceTimer_TimerCommand n
      let mode := w.get (K.cadenceTimer_StartMode n)
      let at_ := ofTime96 (w.get (K.cadenceTimer_StartAt n))
      let a : Arm := if mode = 1 then (if at_ < now then .after now else .at_ at_) else if mode = 2 then .tick w.time.ms else
        if mode = 3 then .master (w.get (K.cadenceTimer_StartMaster n)) else .after now
      (s.PassesKey c cmd 1 1 → ∃ t, exec (.timerStart c n) s = .next t ∧ t.reply = ⟨St.ok, []⟩ ∧ armed t n a) ∧
      (s.PassesKey c cmd 1 2 → ∃ t, exec (.timerStartLateOk c n) s = .next t ∧ t.reply = ⟨St.ok, []⟩ ∧ armed t n a ∧
        (mode = 1 → at_ < now → bit (t.get (K.cadenceTimer_TimerFlags n)) 3 = true ∧
          t.get (K.cadenceTimer_LateStarts n) = min (w.get (K.cadenceTimer_LateStarts n) + 1) 65535)) ∧
      (s.PassesKey c cmd 1 3 → ∃ t, exec (.timerStop c n) s = .next t ∧ t.reply = ⟨St.ok, []⟩ ∧
        (t.timer n).stopAt = some (gridAfter now) ∧ t.timerState n = w.timerState n)) ∧
    (∀ mask < 65536, s.PassesKey c K.timerGlobal_GroupStart 2 mask →
      let g := w.get K.timerGlobal_GroupStartAt
      ∃ t, exec (.groupStart c mask) s = .next t ∧ t.reply = ⟨St.ok, []⟩ ∧ ∀ n < 16, bit mask n = true →
        armed t n (if g = 0 ∨ ofTime96 g < now then .after now else .at_ (ofTime96 g))) ∧
    (∀ i < 8, s.Serves c 1 (0x9030 + i) 2 0 [] → firstRefused (readRefusals (s.comeTo c) c (0x9030 + i) 2 0) = none →
      ∃ t, exec (.captureRead c i) s = .next t ∧ t.captures i = (s.captures i).tail ∧
        ∃ st, t.reply = ⟨St.ok, st⟩ ∧ ofBytes st = s.captureOldest i % 2 ^ 96) ∧
    (∀ i < 5, s.Serves c 1 (0xB010 + i) 2 0 [] → firstRefused (readRefusals (s.comeTo c) c (0xB010 + i) 2 0) = none →
      ∀ r skip, siltAt (s.comeTo c) (s.get (K.siltCursor_Cursor i)) = (some r, skip) →
      ∃ t, exec (.siltRecordRead c i) s = .next t ∧ t.reply.status = St.ok ∧
        t.get (K.siltCursor_Cursor i) = r.seq + 1 ∧
        (skip = true → t.get K.siltLog_CursorSkips = min ((s.comeTo c).get K.siltLog_CursorSkips + 1) 65535))

/-- R501, R503, R508: requests to the reader. A command is accepted and holds the reader: FIELD_OFF ends at once with the field off, one that
needs the field at its position waits for it, or goes on where it is on, or is turned away where the field may not come on.
CALIBRATE starts a calibration, or leaves it until the field is off; a scan command names the items to read. -/
def Sys2Proof.Claims.ReaderRequests : Prop :=
  ∀ (s : State) (c : Ctx), s.Inv →
    let w := s.meets c
    (∀ b : List Nat, (∀ x ∈ b, x < 256) →
      (s.Passes c 0x8001 0 (2 :: b) → ∃ t, exec (.fieldOff c b) s = .next t ∧ t.reply = ⟨St.accepted, []⟩ ∧
        fieldOn t = false ∧ t.reader.cmd = none ∧ t.get K.reader_LastCommandResult = St.ok) ∧
      (∀ op i, (op, i) ∈ [(1, Instr.fieldOn c b), (3, Instr.transceive c b), (4, Instr.inventory c b)] →
        s.Passes c 0x8001 0 (op :: b) →
        let p := byteAt b 3
        (fieldOn w = false → ∀ duty, fieldRefused w = some duty → ∃ t, exec i s = .next t ∧ t.reply = ⟨St.accepted, []⟩ ∧
          fieldOn t = false ∧ t.reader.cmd = none ∧ t.get K.reader_LastCommandResult = St.busy ∧
          (duty = true → t.get K.reader_DutyLimits = min (w.get K.reader_DutyLimits + 1) 65535)) ∧
        (fieldOn w = false → fieldRefused w = none → synth w ≠ 2 → synth w ≠ 4 → ∃ t d at_, exec i s = .next t ∧
          t.reply = ⟨St.accepted, []⟩ ∧ fieldOn t = false ∧ t.reader.pos = p ∧ t.reader.want = some (p, at_) ∧
          w.elapsed ≤ at_ ∧ t.reader.cmd = some d ∧ d.op = op ∧ d.pos = p ∧
          t.get K.reader_LastCommandResult = St.accepted ∧ (w.reader.enabled = true → t.get K.reader_ReaderState = 2)) ∧
        (fieldOn w = true → w.reader.pos = p → ∃ t, exec i s = .next t ∧ t.reply = ⟨St.accepted, []⟩ ∧ fieldOn t = true ∧
          (op = 1 → t.reader.cmd = none ∧ t.get K.reader_LastCommandResult = St.ok) ∧
          (op ≠ 1 → ∃ d, t.reader.cmd = some d ∧ d.op = op ∧ d.tries = 1 ∧
            d.startAt = some (max (max (w.reader.onAt + w.get K.field_FieldGuard * MS) w.elapsed) w.reader.gapAt))))) ∧
    (s.PassesKey c K.reader_SynthCalibrate 1 1 → ∃ t, exec (.calibrate c) s = .next t ∧ t.reply = ⟨St.accepted, []⟩ ∧
      (fieldOn w = false → synth w = 2 → synth t = 3 ∧ t.reader.calDue = false) ∧
      (fieldOn w = false → synth w ≠ 2 → t.reader.calDue = true) ∧
      (fieldOn w = true → t.reader.calDue = true ∧ bit (t.get K.reader_ReaderFlags) 0 = true ∧
        t.get K.reader_CalDeferred = min (w.get K.reader_CalDeferred + 1) 65535)) ∧
    (∀ v < 256, s.PassesKey c K.delayScan_ScanCommand 1 v →
      let l := scanItems w (if v = 255 then List.range 10 else [v])
      ∃ t, exec (.scanCommand c v) s = .next t ∧ t.reply = ⟨St.accepted, []⟩ ∧
        (l ≠ [] → t.reader.scan = some l ∧ t.get K.delayScan_ScanState = 1) ∧
        (l = [] → t.reader.scan = none ∧ t.get K.delayScan_ScanState = 0))

/-- Requests to the device, the timers, the log and the reader. Where the spec leaves it open, as log entries 63, 70, 116,
117, 124 of the model say. -/
def Obligations.SystemAndUnitRequests : Prop :=
  Claims.SystemRequests ∧ Claims.TimerAndLogRequests ∧ Claims.ReaderRequests

/-- R91, R136, R220, R288, R314: requests to time, the chains, the slots and the ports. PONDSEED hands over a step to the time written, leap
seconds take what the host says, a calibration queues the chains named, RELEASE frees a slot at the edge as RELEASED, and
RETRAIN takes a port that is up through training again, and is BUSY until that is done (R48). -/
def Sys2Proof.Claims.TimeAndRadioRequests : Prop :=
  ∀ (s : State) (c : Ctx), s.Inv →
    let w := s.meets c
    (∀ v < 2 ^ 96, s.PassesKey c K.seeding_PondSeed 12 v → ∃ t, exec (.pondseed c v) s = .next t ∧
      t.reply = ⟨St.accepted, []⟩ ∧ t.timing = 1 ∧
      t.time.due = some ⟨false, v, w.edgeAfter2ms, .host, none, errUnknown, false⟩) ∧
    (∀ b : List Nat, s.Passes c 0x5030 7 b → (∀ x ∈ b, x < 256) → ∃ t, exec (.hostLeap c b) s = .next t ∧ t.reply = ⟨St.ok, []⟩ ∧
      t.get K.utc_LeapSource = 2 ∧ t.getI K.utc_LeapOffset 2 = toInt 2 (field b 0 2) ∧ t.get K.utc_LeapPending = byteAt b 2 ∧
      t.get K.utc_LeapAt = field b 3 12 ∧ t.get K.utc_LeapConfirmedAt = w.now96) ∧
    (∀ v < 65536, s.PassesKey c K.calibration_CalRequest 2 v → ∃ t, exec (.calRequest c v) s = .next t ∧
      t.reply = ⟨St.accepted, []⟩ ∧ t.rx.asked = bits v 3 0 ∧ t.get K.calibration_CalResult = St.accepted ∧
      ∀ k < 4, (bit v k = true → (t.chain k).queued = Nat.lor (s.chain k).queued (if bits v 7 4 = 0 then 15 else bits v 7 4) ∧
          ((s.chain k).queued = 0 → k ∈ t.rx.queue)) ∧
        (bit v k = false → t.chain k = s.chain k)) ∧
    (∀ n < 512, s.PassesKey c (K.slot_SlotCommand n) 1 1 → ∃ t, exec (.release c n) s = .next t ∧
      t.reply = ⟨St.accepted, []⟩ ∧ (t.slot n).next = some (0, 1) ∧ (t.slot n).release = true ∧
      t.slotState n = s.slotState n) ∧
    (∀ n < 32, s.PassesKey c (K.port_PortCommand n) 1 1 → ∃ t, exec (.retrain c n) s = .next t ∧ t.reply = ⟨St.accepted, []⟩ ∧
      (2 ≤ s.portState n → s.portState n ≤ 5 → t.portState n = 1 ∧ t.get (K.port_ActiveMode n) = 0 ∧
        (t.port n).retraining = true) ∧
      (s.portState n < 2 → t.portState n = s.portState n)) ∧
    (∀ n < 32, s.Serves c 2 (0x7100 + n) 0x1B 1 [1] → tableRefuses w c true (0x7100 + n) 0x1B = none →
      writeStateRefuses w (0x7100 + n) 0x1B 1 = none → s.portState n = 1 → (s.port n).retraining = true →
      ∃ t, exec (.retrain c n) s = .next t ∧ t.reply = ⟨St.busy, []⟩ ∧ t.portState n = 1 ∧ (t.port n).retraining = true)

/-- R320, R343, R345, R347, R357: requests to the network. A submission is journalled and answered with its number, or waits for its
keepers; OPEN and CLOSE send their copy where the journal has room; a remote request becomes a transaction, a launch an entry
of the queue, a write to the fabric scope a proposal to the root. -/
def Sys2Proof.Claims.NetworkRequests : Prop :=
  ∀ (s : State) (c : Ctx), s.Inv →
    let w := s.meets c
    (∀ b : List Nat, (∀ x ∈ b, x < 256) →
      (s.Passes c 0x7050 1 b → ∃ t x, exec (.remoteRequest c b) s = .next t ∧ t.net.txns = s.net.txns ++ [x] ∧
        x.dest = field b 0 2 ∧ x.payload = b.drop 2 ∧ x.tries = 1 ∧ x.ring = none ∧ x.at_ = w.elapsed ∧
        t.reply = ⟨St.accepted, toBytes 2 x.number⟩ ∧ t.get K.remote_TxnOpen = t.net.txns.length) ∧
      (s.Passes c 0x7060 1 b → ∃ t, exec (.launchSubmit c b) s = .next t ∧ t.ports = (w.launchAccept b).1.ports ∧
        t.reply = ⟨St.accepted, toBytes 2 ((s.ports.handle + 1) % 65536)⟩) ∧
      (s.Passes c 0x7030 1 b →
        ((∀ k ∈ subChannels b, s.get (K.outChannel_Keeper k) = 0) → ∃ t e, exec (.messageSubmit c b) s = .next t ∧
          t.net.entries = s.net.entries ++ [e] ∧ e.ref = field b 10 4 ∧ e.payload = (b.drop 40).take (field b 38 2) ∧
          e.copies.map (·.channel) = subChannels b ∧ t.get K.messages_LastAcceptedRef = e.ref ∧
          t.reply = ⟨St.accepted, toBytes 2 e.epoch ++ toBytes 2 e.number⟩) ∧
        ((∃ k ∈ subChannels b, s.get (K.outChannel_Keeper k) ≠ 0) → ∃ t x, exec (.messageSubmit c b) s = .next t ∧
          t.net.submit = some x ∧ t.net.entries = s.net.entries ∧ x.ctx = c ∧ x.at_ = w.elapsed ∧
          x.await = (subChannels b).filter fun k => s.get (K.outChannel_Keeper k) != 0)) ∧
      (∀ index sub r, s.Passes c index sub b → 0xE000 ≤ index → findRow index sub = some r → r.acc ≠ .pw →
        ∃ t, exec (.fabricScopeWrite c index sub b) s = .next t ∧ t.reply = ⟨St.accepted, []⟩ ∧
          t.net.proposed = some (index, sub, b) ∧ t.net.mine = none ∧ t.get K.network_FscopeResult = St.accepted)) ∧
    (∀ k v i, k < 64 → (v, i) ∈ [(1, Instr.channelOpen c k), (2, Instr.channelClose c k)] →
      s.PassesKey c (K.outChannel_ChannelCommand k) 1 v →
      (journalFits w 1 (acceptBytes 1 0) = true → ∃ t e x, exec i s = .next t ∧ t.reply = ⟨St.accepted, []⟩ ∧
        t.net.entries = s.net.entries ++ [e] ∧ e.flags = (if v = 1 then 8 else 16) ∧ e.copies = [x] ∧ x.channel = k ∧
        x.chseq = s.get (K.outChannel_NextSeq k) ∧ x.dest = s.get (K.outChannel_Destination k) ∧
        t.get (K.outChannel_ChannelState k) = (if v = 1 then 1 else 3) ∧ t.get (K.outChannel_ChannelResult k) = St.accepted ∧
        t.get (K.outChannel_NextSeq k) = (s.get (K.outChannel_NextSeq k) + 1) % 2 ^ 48) ∧
      (journalFits w 1 (acceptBytes 1 0) = false → ∃ t, exec i s = .next t ∧ t.reply = ⟨St.accepted, []⟩ ∧
        t.net.entries = s.net.entries ∧ t.get (K.outChannel_ChannelState k) = s.get (K.outChannel_ChannelState k) ∧
        t.get (K.outChannel_ChannelResult k) = St.journalFull ∧ bit (t.get K.messages_MsgFlags) 0 = true ∧
        t.get K.messages_JournalFullCount = min (s.get K.messages_JournalFullCount + 1) 65535))

/-- Requests to time, the radio and the network. Where the spec leaves it open, as log entries 71, 105, 109, 111 of the model
say. -/
def Obligations.RadioAndNetworkRequests : Prop :=
  Claims.TimeAndRadioRequests ∧ Claims.NetworkRequests

/-- R408 to R411, R413, R417, R582, R93: two-party change. PROPOSE that passes every check is pending with a CHANGE_ID and a
digest; CONFIRM by another role with that digest applies it, and by the proposer or with another digest does not; CANCEL
by the proposer or an officer takes it away, 120 s on CK_AON expire it; a card confirms by its answer, and one that
answers wrongly is counted. Where the spec leaves it open, as log entries 64, 65, 72, 122, 182 of the model say. -/
def Obligations.TwoPartyChange : Prop :=
  ∀ (s : State) (c : Ctx), s.Inv →
    let n := s.comeTo c
    let me := principalOf c
    let answers (i : Instr) (st : Nat) (p : State → Prop) : Prop := ∃ t, exec i s = .next t ∧ t.reply = ⟨st, []⟩ ∧ p t
    let kept (t : State) : Prop := t.prot.pending = n.prot.pending
    let gone (p : Pending) (t : State) : Prop := ∀ x ∈ t.prot.pending, x.id ≠ p.id
    (∀ b : List Nat, s.Serves c 2 0xC040 1 1040 b → b.length = 1040 → writeRefusals n c 0xC040 1 b false = [] → byteAt b 3 < 2 →
      let index := field b 0 2
      let sub := byteAt b 2
      let card := byteAt b 3 % 2 == 1
      let len := field b 4 2
      let value := (b.drop 6).take len
      let id := n.prot.changeId % 65535 + 1
      let digest := (sha256 (toBytes 2 id ++ toBytes 2 index ++ [sub] ++ toBytes 2 len ++ value)).take 8
      len ≤ 1034 → (∀ x ∈ b.drop (6 + len), x = 0) → ∀ r, findRow index sub = some r →
      (∀ e, firstRefused (writeRefusals n c index sub value card) = some e →
        r.acc ≠ .pw ∨ lengthOk r.ty len = false ∨ pwBad n c index sub (ofBytes value) = [] →
        ∃ t, exec (.propose c b) s = .next t ∧ t.reply = ⟨e.status, e.data⟩ ∧ kept t) ∧
      (writeRefusals n c index sub value card = [] → r.acc = .pw → lengthOk r.ty len = true →
        pwBad n c index sub (ofBytes value) = [] →
        (∀ e, proposalRefuses n c index sub card = some e → answers (.propose c b) e kept) ∧
        (proposalRefuses n c index sub card = none → ∃ t, exec (.propose c b) s = .next t ∧
          t.reply = ⟨St.accepted, toBytes 2 id ++ digest⟩ ∧ t.prot.changeId = id ∧
          t.prot.pending = n.prot.pending ++ [⟨id, index, sub, value, me, roleOf n c, card, digest, n.time.aon⟩]))) ∧
    (∀ b : List Nat, s.Serves c 2 0xC040 2 10 b → b.length = 10 → writeRefusals n c 0xC040 2 b false = [] →
      let find := n.prot.pending.find? fun (p : Pending) => p.id == field b 0 2
      (find = none → (∀ x ∈ n.prot.closed, x.id ≠ field b 0 2) → answers (.confirm c b) St.outOfRange kept) ∧
      (∀ p, find = some p →
        ((b.drop 2).take 8 ≠ p.digest → answers (.confirm c b) St.integrityFail kept) ∧
        ((b.drop 2).take 8 = p.digest →
          (me.same p.proposer = true → answers (.confirm c b) St.notAuthorised kept) ∧
          (∀ e, confirmRefuses n p me false = some e → ∃ t, exec (.confirm c b) s = .next t ∧ t.reply = ⟨e.1, e.2⟩ ∧ kept t) ∧
          (confirmRefuses n p me false = none → p.sub < 256 →
            let k := p.index * 256 + p.sub
            (∃ t, exec (.confirm c b) s = .next t ∧ gone p t ∧ t.get K.twoParty_LastChangeId = p.id ∧
              t.get K.twoParty_LastResult = t.reply.status) ∧
            (p.index = 0xC060 → answers (.confirm c b) St.ok fun t => t.get k = ofBytes p.value) ∧
            (k = K.imageSecurity_RollbackAdvance → answers (.confirm c b) St.ok fun t =>
              t.get K.imageSecurity_AntiRollback = ofBytes p.value) ∧
            (k = K.siltLog_LogClear → answers (.confirm c b) St.ok fun t => t.silt.recs.length = 1 ∧
              t.silt.nextSeq = n.silt.nextSeq + 1) ∧
            (k = K.seeding_ReseedRequest → answers (.confirm c b) St.accepted fun t => ∃ x, t.time.reseed = some x ∧
              x.source = byteAt p.value 0 ∧ x.value = field p.value 1 12 ∧ x.changeId = p.id) ∧
            (∀ i < 16, p.index = 0xC020 + i → p.sub = 1 → answers (.confirm c b) St.ok fun t =>
              t.get (K.keySlot_KeyState i) = ofBytes p.value ∧ ∀ x ∈ t.prot.pending, x.proposer.slot ≠ some i) ∧
            (∀ i key, i < 16 → p.index = 0xC020 + i → p.sub = 4 →
              keyOfProposal n p.proposer.slot (ofBytes p.value) = some key → answers (.confirm c b) St.ok fun t =>
              t.get (K.keySlot_KeyState i) = 1 ∧ keyOf t i = keyOf (n.keyPut i key) i))))) ∧
    (∀ id < 65536, s.Serves c 2 0xC040 3 2 (toBytes 2 id) → writeRefusals n c 0xC040 3 (toBytes 2 id) false = [] →
      let find := n.prot.pending.find? fun (p : Pending) => p.id == id
      (∀ p, find = some p →
        (me.same p.proposer = true ∨ roleOf n c = 3 → answers (.cancel c id) St.ok (gone p)) ∧
        (me.same p.proposer = false → roleOf n c ≠ 3 → answers (.cancel c id) St.notAuthorised kept)) ∧
      (find = none → (∀ x ∈ n.prot.closed, x.id ≠ id) → roleOf n c = 3 → answers (.cancel c id) St.outOfRange kept)) ∧
    (∀ p aon, s.prot.pending = [p] → p.at_ + 3932160 < max s.time.aon aon → ∃ t, exec (.twoPartyExpired aon) s = .next t ∧
      t.prot.pending = [] ∧ bit (t.get K.protection_ProtFlags) 2 = true ∧
      t.get K.protection_ExpiredCount = min (s.get K.protection_ExpiredCount + 1) 65535 ∧
      t.get K.twoParty_LastChangeId = p.id ∧ t.get K.twoParty_LastResult = St.twoPartyExpired) ∧
    (∀ (present : Bool) (select answer challenge : List Nat) (last : JobEnd) (us at_ : Nat) (p : Pending),
      let m := (s.reach (s.time.t0 + at_)).settle
      let i := Instr.cardPoll present select answer challenge last us at_
      let counted (t : State) : Prop := t.prot.pending = s.prot.pending ∧ t.prot.cardHeld = true ∧
        bit (t.get K.protection_ProtFlags) 0 = true ∧
        t.get K.protection_AuthFailCount = min (s.get K.protection_AuthFailCount + 1) 65535
      cardPollDue m = true → m.reader.cmd = none → m.reader.enabled = true → posUsable m (m.get K.twoParty_CardPosition) = true →
      synth m = 2 → fieldRefused m = none → s.prot.cardHeld = false → s.prot.pending.find? (·.card) = some p →
      (present = false → ∃ t, exec i s = .next t ∧ t.prot.pending = s.prot.pending ∧ t.prot.pollAt = some m.elapsed ∧
        t.prot.cardHeld = false) ∧
      (present = true →
        (select ≠ [0x90, 0x00] ∨ answer.length ≠ 26 ∨ answer.drop 24 ≠ [0x90, 0x00] → ∃ t, exec i s = .next t ∧ counted t) ∧
        (∀ k, select = [0x90, 0x00] → answer.length = 26 → answer.drop 24 = [0x90, 0x00] →
          ((List.range 16).find? fun k => s.get (K.keySlot_KeyState k) == 1 &&
            s.get (K.keySlot_KeyId k) == ofBytes (answer.take 8)) = some k →
          let mac := cmac (keyOf s k) (toBytes 2 p.id ++ p.digest ++ challenge ++ answer.take 8)
          (mac ≠ (answer.drop 8).take 16 → ∃ t, exec i s = .next t ∧ counted t) ∧
          (mac = (answer.drop 8).take 16 → confirmRefuses m p ⟨0x60 + k, 0⟩ (s.get (K.keySlot_KeyRole k) == 3) = none →
            ∃ t, exec i s = .next t ∧ gone p t ∧ t.get K.twoParty_LastChangeId = p.id))))

/-- R70: the CRC-8 of MSPI has the polynomial 0x07 and the initial value 0, takes the bits of each byte from the most significant, without
reflection or final inversion, and gives 0xF4 for its check string. -/
def Obligations.Crc8 : Prop :=
  let step (c : Nat) : Nat := if 128 ≤ c then Nat.xor (2 * c % 256) 0x07 else 2 * c
  crc8 [] = 0 ∧
    (∀ (b : List Nat) (x : Nat), (∀ y ∈ b, y < 256) → x < 256 →
      crc8 (b ++ [x]) = step (step (step (step (step (step (step (step (Nat.xor (crc8 b) x)))))))) ∧ crc8 (b ++ [x]) < 256) ∧
    crc8 [0x31, 0x32, 0x33, 0x34, 0x35, 0x36, 0x37, 0x38, 0x39] = 0xF4

/-- R45: OCTETS(n) is written with exactly n bytes and TEXT(n) with up to n, the rest 0; any other length is refused, and a read returns n
bytes. -/
def Obligations.OctetsAndText : Prop :=
  ∀ (s : State) (c : Ctx) (index sub n len : Nat) (b : List Nat) (r : Row), s.Inv → findRow index sub = some r →
    r.ty = .octets n ∨ r.ty = .text n → (∀ x ∈ b, x < 256) →
    let w := s.meets c
    (s.Serves c 2 index sub b.length b → mayWrite w (roleOf w c) index = true → r.acc ≠ .ro → r.keep ≠ .f →
      n < b.length ∨ r.ty = .octets n ∧ b.length ≠ n → ∃ t, exec (.write c index sub b) s = .next t ∧
        t.reply = ⟨St.lengthMismatch, []⟩ ∧ ∀ j, j ∉ requestKeys → t.get j = w.get j) ∧
    (s.Passes c index sub b → r.acc = .rw → index < 0xE000 → b.length ≤ n ∧ (r.ty = .octets n → b.length = n) ∧
      ∃ t, exec (.write c index sub b) s = .next t ∧
        toBytes n (t.get (index * 256 + sub)) = b ++ List.replicate (n - b.length) 0) ∧
    (s.Serves c 1 index sub len [] → firstRefused (readRefusals (s.comeTo c) c index sub len) = none →
      ∃ t, exec (.read c index sub len) s = .next t ∧ t.reply.status = St.ok ∧ t.reply.data.length = n)

/-- R72: a reply leaves the queue once its CRC has been clocked out, else the next FETCH sends it again; replies follow the order of their
requests: a transfer adds its request at the end, the first one without a reply alone executes, the first of all alone is
fetched. -/
def Obligations.MspiReplies : Prop :=
  ∀ (s : State) (at_ : Nat), s.Inv → engineUp s = true →
    (∀ r y l m, s.mspi.queue = ⟨r, some y⟩ :: l → 0 < m →
      let f := replyFrame r.tag y
      (f.length < m → ∃ t, exec (.fetch m at_) s = .next t ∧ t.mspi.queue = l ∧ t.mspi.sent.tail = f ++ List.replicate (m - 1 - f.length) 0) ∧
      (m ≤ f.length → ∃ t, exec (.fetch m at_) s = .next t ∧ t.mspi.queue = s.mspi.queue ∧ t.mspi.sent.tail = f.take (m - 1) ∧
        ∀ k, f.length < k → ∃ u, exec (.fetch k at_) t = .next u ∧ u.mspi.queue = l ∧
          u.mspi.sent.tail = f ++ List.replicate (k - 1 - f.length) 0)) ∧
    (∀ b : List Nat, byteAt b 0 ≠ 4 → ∃ t, exec (.mspiTransfer b at_) s = .next t ∧
      (t.mspi.queue = s.mspi.queue ∨ ∃ q y, t.mspi.queue = s.mspi.queue ++ [⟨q, y⟩] ∧ (y.isSome = true ↔ opReserved q.op = true))) ∧
    (∀ (c : Ctx) (index sub len : Nat), c.path = .mspi →
      mspiNext s ≠ some { op := 1, tag := c.tag, index := index, sub := sub, len := len, data := [] } →
      exec (.read c index sub len) s = .next s)

/-- R571: a reset that acts with a wake source is taken and LastWakeCause reads NONE; of a warm and a cold reset the cold one is taken. -/
def Obligations.ResetPriority : Prop :=
  ∀ (s : State) (i : StartIn) (ns aon : Nat), s.Inv → 200 ≤ ns →
    let due := if ns < 10000000 then (StartKind.warm, 2, 0, false) else (StartKind.cold, 3, 0, false)
    (s.power.phase = .sleep → s.boot.due = none → ∃ t, exec (.rstN ns i aon) s = .next t ∧ t.boot.due = some due ∧
      t.get K.powerControl_LastWakeCause = 0) ∧
    (s.power.phase = .run ∨ s.power.phase = .starting →
      (∀ x, s.boot.due = some (.warm, x) → 10000000 ≤ ns →
        s.power.waking = true ∨ s.power.rampAon ≠ max s.time.aon aon ∨ s.get K.powerControl_LastWakeCause = 0 →
        ∃ t, exec (.rstN ns i aon) s = .next t ∧ t.boot.due = some due) ∧
      (s.power.waking = true → s.power.rampAon = max s.time.aon aon → s.boot.due = none → ∃ t, exec (.rstN ns i aon) s = .next t ∧
        t.boot.due = some due ∧ t.get K.powerControl_LastWakeCause = 0) ∧
      (∀ x, s.boot.due = some (.cold, x) → ∃ t, exec (.rstN ns i aon) s = .next t ∧ t.boot.due = some (.cold, x)))

/-- R533: the timer unit votes against leaving RUN while a timer is ARMED or RUNNING; in SLEEP no capture is stamped, and every timer is
STOPPED from then on. -/
def Obligations.TimerVotes : Prop :=
  ∀ (s : State) (e : EntryEnd) (at_ aon : Nat), s.Inv →
    let n := (s.reach (s.time.t0 + at_)).reachAon aon
    (blockRefuses s 9 = true ↔ ∃ k < 16, s.timerState k = 1 ∨ s.timerState k = 2) ∧
    (s.tmr.stopped = true → ∀ (i : Nat) (rising : Bool) (a : Nat), ∃ t, exec (.capture i rising a) s = .next t ∧ t.tmr = s.tmr ∧
      t.dict = s.dict ∧ t.cpu = s.cpu) ∧
    (s.inRun = true → s.power.armed = some 0 → coresWait s = true → s.get K.powerControl_PowerMode = 2 → blockRefuses s 9 = true →
      ∃ t, exec (.entryAttempt e at_ aon) s = .next t ∧ t.inRun = true ∧ t.get K.powerControl_EntryResult = St.refused) ∧
    (s.inRun = true → s.power.armed = some 0 → coresWait s = true → s.get K.powerControl_PowerMode = 1 →
      (blockRefuses s 9 = true → ∃ t, exec (.entryAttempt e at_ aon) s = .next t ∧ t.inRun = true ∧
        t.get K.powerControl_EntryResult = St.refused) ∧
      (refusingBlock n = none → e = .none → ∃ t, exec (.entryAttempt e at_ aon) s = .next t ∧ t.power.phase = .sleep ∧
        t.tmr.stopped = true ∧ (∀ k < 16, t.timerState k = 0) ∧
        ∀ x, ∃ u, exec (.wake 1 0 at_ x) t = .next u ∧ u.power.phase = .run ∧ ∀ k < 16, u.timerState k = 0))
end

