-- ==== Sys2Proof/Laws/Maps.lean ====
section
/-!
SUPPORT. Laws of the sparse maps that hold the dictionary and the memories: what a read after a write gives, and that every
operation keeps the canonical form.
-/

namespace Sys2Proof.Machine

variable {α : Type} [DecidableEq α]

/-- A bound of the keys of a map, as SMap.wfFrom takes it. -/
def SMap.above (lo : Option Nat) (k : Nat) : Prop := ∀ n, lo = some n → n < k

theorem SMap.wfFrom_cons (dd : Nat → α) (lo : Option Nat) (k : Nat) (v : α) (m : SMap α) :
    SMap.wfFrom dd lo ((k, v) :: m) = true ↔ SMap.above lo k ∧ v ≠ dd k ∧ SMap.wfFrom dd (some k) m = true := by
  cases lo <;> simp [SMap.wfFrom, SMap.above, and_assoc]

theorem SMap.wfFrom_weaken (dd : Nat → α) {lo lo' : Option Nat} (m : SMap α)
    (h : ∀ k, SMap.above lo' k → SMap.above lo k) (w : SMap.wfFrom dd lo' m = true) : SMap.wfFrom dd lo m = true := by
  cases m with
  | nil => rfl
  | cons e m =>
    obtain ⟨k, v⟩ := e
    rw [SMap.wfFrom_cons] at *
    exact ⟨h k w.1, w.2⟩

theorem SMap.wfFrom_set (dd : Nat → α) (d : α) (k : Nat) (v : α) (hd : d = dd k) (m : SMap α) :
    ∀ lo, SMap.above lo k → SMap.wfFrom dd lo m = true → SMap.wfFrom dd lo (SMap.set d k v m) = true := by
  subst hd
  induction m with
  | nil =>
    intro lo hk _
    by_cases hv : v = dd k
    · simp [SMap.set, hv, SMap.wfFrom]
    · simp only [SMap.set, hv, if_false]
      rw [SMap.wfFrom_cons]
      exact ⟨hk, hv, rfl⟩
  | cons e m ih =>
    intro lo hk w
    obtain ⟨k', v'⟩ := e
    have w' := (SMap.wfFrom_cons dd lo k' v' m).1 w
    simp only [SMap.set]
    by_cases h1 : k < k'
    · simp only [h1, if_true]
      by_cases hv : v = dd k
      · simpa [hv] using w
      · simp only [hv, if_false]
        rw [SMap.wfFrom_cons, SMap.wfFrom_cons]
        exact ⟨hk, hv, by intro n hn; cases hn; exact h1, w'.2⟩
    · simp only [h1, if_false]
      by_cases h2 : k = k'
      · subst h2
        simp only [if_true]
        by_cases hv : v = dd k
        · simp only [hv, if_true]
          exact SMap.wfFrom_weaken dd m (fun j hj n hn => Nat.lt_trans (hk n hn) (hj k rfl)) w'.2.2
        · simp only [hv, if_false]
          rw [SMap.wfFrom_cons]
          exact ⟨hk, hv, w'.2.2⟩
      · simp only [h2, if_false]
        rw [SMap.wfFrom_cons]
        refine ⟨w'.1, w'.2.1, ih (some k') ?_ w'.2.2⟩
        intro n hn
        cases hn
        omega

/-- Setting a key keeps the canonical form. -/
theorem SMap.wf_set (dd : Nat → α) (d : α) (k : Nat) (v : α) (hd : d = dd k) (m : SMap α) (w : SMap.wf dd m = true) :
    SMap.wf dd (SMap.set d k v m) = true :=
  SMap.wfFrom_set dd d k v hd m none (by intro n hn; cases hn) w

theorem SMap.wfFrom_keep (dd : Nat → α) (p : Nat → Bool) (m : SMap α) :
    ∀ lo, SMap.wfFrom dd lo m = true → SMap.wfFrom dd lo (SMap.keep p m) = true := by
  induction m with
  | nil => intro _ _; rfl
  | cons e m ih =>
    intro lo w
    obtain ⟨k, v⟩ := e
    have w' := (SMap.wfFrom_cons dd lo k v m).1 w
    by_cases hp : p k
    · simp only [SMap.keep, List.filter_cons, hp, if_true]
      rw [SMap.wfFrom_cons]
      exact ⟨w'.1, w'.2.1, ih _ w'.2.2⟩
    · simp only [SMap.keep, List.filter_cons, hp]
      exact SMap.wfFrom_weaken dd _ (fun j hj n hn => Nat.lt_trans (w'.1 n hn) (hj k rfl)) (ih _ w'.2.2)

/-- Returning keys to their unlisted values keeps the canonical form. -/
theorem SMap.wf_keep (dd : Nat → α) (p : Nat → Bool) (m : SMap α) (w : SMap.wf dd m = true) :
    SMap.wf dd (SMap.keep p m) = true := SMap.wfFrom_keep dd p m none w

theorem SMap.get_below (dd : Nat → α) (d : α) (k : Nat) (m : SMap α) :
    ∀ lo, (∃ n, lo = some n ∧ k ≤ n) → SMap.wfFrom dd lo m = true → SMap.get d k m = d := by
  cases m with
  | nil => intros; rfl
  | cons e m =>
    rintro lo ⟨n, rfl, hk⟩ w
    obtain ⟨k', v⟩ := e
    have w' := (SMap.wfFrom_cons dd _ k' v m).1 w
    have : n < k' := w'.1 n rfl
    simp only [SMap.get]
    rw [if_neg (by omega), if_pos (by omega)]

theorem SMap.get_set_same_from (dd : Nat → α) (d : α) (k : Nat) (v : α) (m : SMap α) :
    ∀ lo, SMap.wfFrom dd lo m = true → SMap.get d k (SMap.set d k v m) = v := by
  induction m with
  | nil =>
    intro lo _
    by_cases hv : v = d <;> simp [SMap.set, SMap.get, hv]
  | cons e m ih =>
    intro lo w
    obtain ⟨k', v'⟩ := e
    have w' := (SMap.wfFrom_cons dd lo k' v' m).1 w
    simp only [SMap.set]
    by_cases h1 : k < k'
    · simp only [h1, if_true]
      by_cases hv : v = d
      · simp [SMap.get, hv, h1, Nat.ne_of_gt h1]
      · simp [SMap.get, hv]
    · simp only [h1, if_false]
      by_cases h2 : k = k'
      · subst h2
        simp only [if_true]
        by_cases hv : v = d
        · simp only [hv, if_true]
          exact SMap.get_below dd d k m (some k) ⟨k, rfl, Nat.le_refl _⟩ w'.2.2
        · simp [SMap.get, hv]
      · simp only [h2, if_false, SMap.get]
        rw [if_neg (by omega), if_neg (by omega)]
        exact ih _ w'.2.2

/-- A key read after it is set holds the value. -/
theorem SMap.get_set_same (dd : Nat → α) (d : α) (k : Nat) (v : α) (m : SMap α) (w : SMap.wf dd m = true) :
    SMap.get d k (SMap.set d k v m) = v := SMap.get_set_same_from dd d k v m none w

/-- Every other key holds what it held. -/
theorem SMap.get_set_other (d d' : α) (k j : Nat) (v : α) (m : SMap α) (dd : Nat → α) (h : j ≠ k)
    (w : SMap.wf dd m = true) : SMap.get d' j (SMap.set d k v m) = SMap.get d' j m := by
  have key : ∀ (m : SMap α) (lo : Option Nat), SMap.wfFrom dd lo m = true →
      SMap.get d' j (SMap.set d k v m) = SMap.get d' j m := by
    intro m
    induction m with
    | nil =>
      intro lo _
      by_cases hv : v = d
      · simp [SMap.set, hv]
      · simp only [SMap.set, hv, if_false, SMap.get]
        rw [if_neg (Ne.symm h)]
        split <;> rfl
    | cons e m ih =>
      intro lo w
      obtain ⟨k', v'⟩ := e
      have w' := (SMap.wfFrom_cons dd lo k' v' m).1 w
      simp only [SMap.set]
      by_cases h1 : k < k'
      · simp only [h1, if_true]
        by_cases hv : v = d
        · simp [hv]
        · simp only [hv, if_false, SMap.get]
          rw [if_neg (Ne.symm h)]
          by_cases h3 : j < k
          · rw [if_pos h3, if_neg (by omega), if_pos (by omega)]
          · rw [if_neg h3]
      · simp only [h1, if_false]
        by_cases h2 : k = k'
        · subst h2
          simp only [if_true]
          by_cases hv : v = d
          · simp only [hv, if_true, SMap.get]
            rw [if_neg (Ne.symm h)]
            by_cases h3 : j < k
            · rw [if_pos h3]
              exact SMap.get_below dd d' j m (some k) ⟨k, rfl, by omega⟩ w'.2.2
            · rw [if_neg h3]
          · simp [SMap.get, hv, Ne.symm h]
        · simp only [h2, if_false, SMap.get]
          rw [ih _ w'.2.2]
  exact key m none w

end Sys2Proof.Machine
end

