-- ==== Sys2Proof/Laws/Keeps.lean ====
section
/-!
SUPPORT. What every operation of the model keeps: the queue of commands, the test access port, the time base, and the
invariant of Safety.lean. Here the shared operations; the families follow in the files beside this one.
-/

namespace Sys2Proof.Machine

variable {q : List Instr} {j : TapSt} {b : TimeBase} {s : State}

/-- A change of the fields in which nothing of this is kept. -/
theorem keeps_mk (h : Keeps q j b s) {mspi host reply free time out cpu tmr rx nav erg sol ports net prot lake
    reader power boot} (ht : time.ms = s.time.ms ∧ time.t0 = s.time.t0 ∧ time.tick = s.time.tick ∧ time.opSec = s.time.opSec ∧
      time.cycles = s.time.cycles) (hc : cpu.shared = s.cpu.shared ∧ cpu.core = s.cpu.core) :
    Keeps q j b ⟨s.pending, s.dict, s.streams, s.silt, mspi, host, reply, free, time, out, cpu, tmr, rx, s.slots, nav, erg, sol, ports,
      net, prot, lake, reader, power, boot, s.jtag⟩ := by
  refine ⟨h.pending, h.jtag, ?_, h.inv.1, h.inv.2.1, ?_⟩
  · rw [← h.base]
    unfold TimeSt.base
    rw [ht.1, ht.2.1, ht.2.2.1, ht.2.2.2.1, ht.2.2.2.2]
  · exact ⟨hc.1 ▸ h.inv.2.2.1, hc.2 ▸ h.inv.2.2.2⟩

/-- A change of the cores that keeps the form of the memories. -/
theorem keeps_cpu (h : Keeps q j b s) {cpu : CoresSt} (hc : s.cpu.MemOk → cpu.MemOk) : Keeps q j b { s with cpu := cpu } :=
  ⟨h.pending, h.jtag, h.base, h.inv.1, h.inv.2.1, hc h.inv.2.2⟩

/-- A change of time alone: the base is that of the new time. -/
theorem keeps_time (h : Keeps q j b s) (t : TimeSt) : Keeps q j t.base { s with time := t } :=
  ⟨h.pending, h.jtag, rfl, h.inv.1, h.inv.2.1, h.inv.2.2⟩

/-- A change of the test access port alone. -/
theorem keeps_jtag (h : Keeps q j b s) (t : TapSt) : Keeps q t b { s with jtag := t } :=
  ⟨h.pending, rfl, h.base, h.inv.1, h.inv.2.1, h.inv.2.2⟩

/-- An intermediate state keeps what its value keeps. -/
theorem keeps_cut {x : State} {Q : Prop} (h : Keeps q j b x) (k : Keeps q j b x → Q) : Q := k h

/-- The state of a pair that an operation answers. -/
theorem keeps_fst {α : Type} {p : State × α} {x : α} {t : State} (e : p = (t, x)) (h : Keeps q j b p.1) : Keeps q j b t := by
  subst e
  exact h

theorem keeps_snd {α : Type} {p : α × State} {x : α} {t : State} (e : p = (x, t)) (h : Keeps q j b p.2) : Keeps q j b t := by
  subst e
  exact h

theorem keeps_ite {c : Prop} [Decidable c] {x y : State} (hx : Keeps q j b x) (hy : Keeps q j b y) :
    Keeps q j b (if c then x else y) := by split <;> assumption

theorem keeps_ite_fst {α : Type} {c : Prop} [Decidable c] {x y : State × α} (hx : Keeps q j b x.1) (hy : Keeps q j b y.1) :
    Keeps q j b (if c then x else y).1 := by split <;> assumption

theorem keeps_ite_snd {α : Type} {c : Prop} [Decidable c] {x y : α × State} (hx : Keeps q j b x.2) (hy : Keeps q j b y.2) :
    Keeps q j b (if c then x else y).2 := by split <;> assumption

/-- A change of the dictionary by one key. -/
theorem State.set_keeps (k v : Nat) (h : Keeps q j b s) : Keeps q j b (s.set k v) :=
  ⟨h.pending, h.jtag, h.base, ⟨SMap.wf_set dfltOf _ k v rfl _ h.inv.1.1, h.inv.1.2⟩, h.inv.2.1, h.inv.2.2⟩

/-- A change of one stream. -/
theorem State.setStream_keeps (index : Nat) (l : List (List Nat)) (h : Keeps q j b s) : Keeps q j b (s.setStream index l) :=
  ⟨h.pending, h.jtag, h.base, ⟨h.inv.1.1, SMap.wf_set (fun _ => []) _ index l rfl _ h.inv.1.2.1, h.inv.1.2.2⟩, h.inv.2.1, h.inv.2.2⟩

/-- A change of one slot. -/
theorem State.modSlot_keeps (n : Nat) (f : SlotSt → SlotSt) (h : Keeps q j b s) : Keeps q j b (s.modSlot n f) :=
  ⟨h.pending, h.jtag, h.base,
    ⟨h.inv.1.1, h.inv.1.2.1, SMap.wf_set (fun _ => SlotSt.reset) _ n (f (s.slot n)) rfl _ h.inv.1.2.2⟩, h.inv.2.1, h.inv.2.2⟩

/-- A run over a list keeps what each of its steps keeps. -/
theorem keeps_foldl {α : Type} (f : State → α → State) (l : List α) (h : Keeps q j b s)
    (hf : ∀ t a, Keeps q j b t → Keeps q j b (f t a)) : Keeps q j b (l.foldl f s) := by
  induction l generalizing s with
  | nil => exact h
  | cons a l ih => exact ih (hf _ _ h)

theorem keeps_foldl_fst {α β : Type} (f : State × β → α → State × β) (l : List α) {p : State × β} (h : Keeps q j b p.1)
    (hf : ∀ p a, Keeps q j b p.1 → Keeps q j b (f p a).1) : Keeps q j b (l.foldl f p).1 := by
  induction l generalizing p with
  | nil => exact h
  | cons a l ih => exact ih (hf _ _ h)

/-- What an operation that a trap may end keeps when it is allowed. -/
structure KeepsOk (q : List Instr) (j : TapSt) (b : TimeBase) (r : Except Trap State) : Prop where
  ok : ∀ t, r = .ok t → Keeps q j b t

/-- The same of an operation that answers a value as well. -/
structure KeepsOk2 {α : Type} (q : List Instr) (j : TapSt) (b : TimeBase) (r : Except Trap (α × State)) : Prop where
  ok : ∀ p, r = .ok p → Keeps q j b p.2

theorem keepsOk_ok {t : State} (h : Keeps q j b t) : KeepsOk q j b (.ok t) := by
  constructor
  intro u e
  cases e
  exact h

theorem keepsOk_error (e : Trap) : KeepsOk q j b (.error e) := by
  constructor
  intro u h
  cases h

theorem keepsOk2_ok {α : Type} {p : α × State} (h : Keeps q j b p.2) : KeepsOk2 q j b (.ok p) := by
  constructor
  intro u e
  cases e
  exact h

theorem keepsOk2_error {α : Type} (e : Trap) : KeepsOk2 (α := α) q j b (.error e) := by
  constructor
  intro u h
  cases h

theorem keepsOk_ite {c : Prop} [Decidable c] {x y : Except Trap State} (hx : KeepsOk q j b x) (hy : KeepsOk q j b y) :
    KeepsOk q j b (if c then x else y) := by split <;> assumption

theorem keepsOk2_ite {α : Type} {c : Prop} [Decidable c] {x y : Except Trap (α × State)} (hx : KeepsOk2 q j b x)
    (hy : KeepsOk2 q j b y) : KeepsOk2 q j b (if c then x else y) := by split <;> assumption

theorem keepsOk_bind {r : Except Trap State} {f : State → Except Trap State} (h : KeepsOk q j b r)
    (k : ∀ t, Keeps q j b t → KeepsOk q j b (f t)) : KeepsOk q j b (r >>= f) := by
  cases r with
  | error e => exact keepsOk_error e
  | ok t => exact k t (h.ok t rfl)

theorem keepsOk2_bind {α : Type} {r : Except Trap (α × State)} {f : α × State → Except Trap State} (h : KeepsOk2 q j b r)
    (k : ∀ p, Keeps q j b p.2 → KeepsOk q j b (f p)) : KeepsOk q j b (r >>= f) := by
  cases r with
  | error e => exact keepsOk_error e
  | ok p => exact k p (h.ok p rfl)

theorem onlyIf_keeps {c : Bool} {s t : State} (h : Keeps q j b s) (k : Keeps q j b t) : Keeps q j b (onlyIf c s t) := by
  unfold onlyIf
  split <;> assumption

theorem vecMod_get {α : Type} {n : Nat} (v : Vector α n) (i : Nat) (f : α → α) (k : Fin n) :
    (vecMod v i f)[k] = if k.val = i then f v[k] else v[k] := by
  unfold vecMod
  by_cases hi : i < n
  · rw [Vector.getElem?_eq_getElem hi]
    by_cases hk : k.val = i
    · subst hk
      simp
    · rw [if_neg hk]
      simp only [Fin.getElem_fin]
      exact Vector.getElem_setIfInBounds_ne _ (fun h => hk h.symm)
  · rw [Vector.getElem?_eq_none (by omega)]
    rw [if_neg (by omega)]

/-- A change of one core that leaves its local memory alone. -/
theorem State.modCore_keeps (c : Nat) (f : CoreSt → CoreSt) (h : Keeps q j b s) (hf : ∀ k, (f k).mem = k.mem) :
    Keeps q j b (s.modCore c f) := by
  refine keeps_cpu h fun m => ⟨m.1, fun i => ?_⟩
  show SMap.wf _ ((vecMod s.cpu.core c f)[i]).mem = true
  rw [vecMod_get]
  split
  · rw [hf]
    exact m.2 i
  · exact m.2 i

/-- A change of one core's local memory by one word. -/
theorem State.modCore_mem_keeps (c : Nat) (f : CoreSt → CoreSt) (h : Keeps q j b s)
    (hf : ∀ k, SMap.wf (fun _ => (0 : Word)) k.mem = true → SMap.wf (fun _ => (0 : Word)) (f k).mem = true) :
    Keeps q j b (s.modCore c f) := by
  refine keeps_cpu h fun m => ⟨m.1, fun i => ?_⟩
  show SMap.wf _ ((vecMod s.cpu.core c f)[i]).mem = true
  rw [vecMod_get]
  split
  · exact hf _ (m.2 i)
  · exact m.2 i

theorem State.bump_keeps (k n : Nat) (h : Keeps q j b s) : Keeps q j b (s.bump k n) := by
  unfold State.bump
  dsimp only
  split <;> exact State.set_keeps _ _ h

theorem State.flag_keeps (w i c : Nat) (h : Keeps q j b s) : Keeps q j b (s.flag w i c) :=
  State.bump_keeps _ _ (State.set_keeps _ _ h)

/-- A change of the Silt log within its bounds. -/
theorem keeps_silt (h : Keeps q j b s) {silt : SiltSt} (hb : silt.Bounded) : Keeps q j b { s with silt := silt } :=
  ⟨h.pending, h.jtag, h.base, h.inv.1, hb, h.inv.2.2⟩

/-- A record joins the queue only where it has room (R580). -/
theorem State.logAt_keeps (pond code status : Nat) (data : List Nat) (h : Keeps q j b s) :
    Keeps q j b (s.logAt pond code status data) := by
  unfold State.logAt
  split
  · exact keeps_silt (State.flag_keeps _ _ _ h) h.inv.2.1
  · exact keeps_silt h ⟨by simp only [List.length_append, List.length_singleton]; omega, h.inv.2.1.2⟩

theorem State.log_keeps (code status : Nat) (data : List Nat) (h : Keeps q j b s) : Keeps q j b (s.log code status data) :=
  State.logAt_keeps _ _ _ _ h

theorem siltNewestOf_length (l : List SiltRec) : (siltNewestOf l).length ≤ siltCap := by
  unfold siltNewestOf
  rw [List.length_reverse, List.length_take]
  exact Nat.min_le_left _ _

/-- A commit shortens the queue; the log keeps its newest 16,384 records (R575, R580). -/
theorem State.siltCommit_keeps (n : Nat) (h : Keeps q j b s) : Keeps q j b (s.siltCommit n) := by
  unfold State.siltCommit
  split
  · exact h
  · have hq : (s.silt.queue.drop n).length ≤ 64 := by
      have := h.inv.2.1.1
      rw [List.length_drop]
      omega
    have h2 : Keeps q j b { s with silt := { s.silt with
        recs := siltNewestOf (s.silt.recs ++ s.silt.queue.take n), queue := s.silt.queue.drop n } } := by
      refine keeps_silt h ?_
      exact And.intro hq (siltNewestOf_length (s.silt.recs ++ s.silt.queue.take n))
    dsimp only
    split
    · exact h2
    · have h3 := State.log_keeps 0x0902 St.ok (toBytes 2 (min 65535 s.silt.lost)) h2
      exact keeps_silt h3 h3.inv.2.1

theorem insertBy_length {α : Type} (le : α → α → Bool) (x : α) (l : List α) : (insertBy le x l).length = l.length + 1 := by
  induction l with
  | nil => rfl
  | cons a l ih =>
    unfold insertBy
    split <;> simp_all

theorem sortBy_length {α : Type} (le : α → α → Bool) (l : List α) : (sortBy le l).length = l.length := by
  induction l with
  | nil => rfl
  | cons a l ih =>
    unfold sortBy
    rw [insertBy_length, ih]
    rfl

theorem State.siltOrder_keeps (n : Nat) (h : Keeps q j b s) : Keeps q j b (s.siltOrder n) := by
  unfold State.siltOrder
  refine keeps_silt h ⟨?_, h.inv.2.1.2⟩
  have := h.inv.2.1.1
  simp only [List.length_append, List.length_map, List.length_zip, List.length_range, sortBy_length, List.length_take,
    List.length_drop]
  omega

end Sys2Proof.Machine
end

