-- ==== Sys2Proof/Laws/State.lean ====
section
/-!
SUPPORT. Every update of the state, field by field; reading back a value of the dictionary and of a core.
-/

namespace Sys2Proof.Machine

variable (s : State)

/-! ### State.set -/

@[simp] theorem State.set_pending (k v : Nat) : (s.set k v).pending = s.pending := rfl
@[simp] theorem State.set_dict (k v : Nat) : (s.set k v).dict = SMap.set (dfltOf k) k v s.dict := rfl
@[simp] theorem State.set_streams (k v : Nat) : (s.set k v).streams = s.streams := rfl
@[simp] theorem State.set_silt (k v : Nat) : (s.set k v).silt = s.silt := rfl
@[simp] theorem State.set_mspi (k v : Nat) : (s.set k v).mspi = s.mspi := rfl
@[simp] theorem State.set_host (k v : Nat) : (s.set k v).host = s.host := rfl
@[simp] theorem State.set_reply (k v : Nat) : (s.set k v).reply = s.reply := rfl
@[simp] theorem State.set_free (k v : Nat) : (s.set k v).free = s.free := rfl
@[simp] theorem State.set_time (k v : Nat) : (s.set k v).time = s.time := rfl
@[simp] theorem State.set_out (k v : Nat) : (s.set k v).out = s.out := rfl
@[simp] theorem State.set_cpu (k v : Nat) : (s.set k v).cpu = s.cpu := rfl
@[simp] theorem State.set_tmr (k v : Nat) : (s.set k v).tmr = s.tmr := rfl
@[simp] theorem State.set_rx (k v : Nat) : (s.set k v).rx = s.rx := rfl
@[simp] theorem State.set_slots (k v : Nat) : (s.set k v).slots = s.slots := rfl
@[simp] theorem State.set_nav (k v : Nat) : (s.set k v).nav = s.nav := rfl
@[simp] theorem State.set_erg (k v : Nat) : (s.set k v).erg = s.erg := rfl
@[simp] theorem State.set_sol (k v : Nat) : (s.set k v).sol = s.sol := rfl
@[simp] theorem State.set_ports (k v : Nat) : (s.set k v).ports = s.ports := rfl
@[simp] theorem State.set_net (k v : Nat) : (s.set k v).net = s.net := rfl
@[simp] theorem State.set_prot (k v : Nat) : (s.set k v).prot = s.prot := rfl
@[simp] theorem State.set_lake (k v : Nat) : (s.set k v).lake = s.lake := rfl
@[simp] theorem State.set_reader (k v : Nat) : (s.set k v).reader = s.reader := rfl
@[simp] theorem State.set_power (k v : Nat) : (s.set k v).power = s.power := rfl
@[simp] theorem State.set_boot (k v : Nat) : (s.set k v).boot = s.boot := rfl
@[simp] theorem State.set_jtag (k v : Nat) : (s.set k v).jtag = s.jtag := rfl
@[simp] theorem State.set_core (k v : Nat) (i : Nat) : (s.set k v).core i = s.core i := rfl

/-! ### State.setStream -/

@[simp] theorem State.setStream_pending (n : Nat) (l : List (List Nat)) : (s.setStream n l).pending = s.pending := rfl
@[simp] theorem State.setStream_dict (n : Nat) (l : List (List Nat)) : (s.setStream n l).dict = s.dict := rfl
@[simp] theorem State.setStream_streams (n : Nat) (l : List (List Nat)) : (s.setStream n l).streams = SMap.set [] n l s.streams := rfl
@[simp] theorem State.setStream_silt (n : Nat) (l : List (List Nat)) : (s.setStream n l).silt = s.silt := rfl
@[simp] theorem State.setStream_mspi (n : Nat) (l : List (List Nat)) : (s.setStream n l).mspi = s.mspi := rfl
@[simp] theorem State.setStream_host (n : Nat) (l : List (List Nat)) : (s.setStream n l).host = s.host := rfl
@[simp] theorem State.setStream_reply (n : Nat) (l : List (List Nat)) : (s.setStream n l).reply = s.reply := rfl
@[simp] theorem State.setStream_free (n : Nat) (l : List (List Nat)) : (s.setStream n l).free = s.free := rfl
@[simp] theorem State.setStream_time (n : Nat) (l : List (List Nat)) : (s.setStream n l).time = s.time := rfl
@[simp] theorem State.setStream_out (n : Nat) (l : List (List Nat)) : (s.setStream n l).out = s.out := rfl
@[simp] theorem State.setStream_cpu (n : Nat) (l : List (List Nat)) : (s.setStream n l).cpu = s.cpu := rfl
@[simp] theorem State.setStream_tmr (n : Nat) (l : List (List Nat)) : (s.setStream n l).tmr = s.tmr := rfl
@[simp] theorem State.setStream_rx (n : Nat) (l : List (List Nat)) : (s.setStream n l).rx = s.rx := rfl
@[simp] theorem State.setStream_slots (n : Nat) (l : List (List Nat)) : (s.setStream n l).slots = s.slots := rfl
@[simp] theorem State.setStream_nav (n : Nat) (l : List (List Nat)) : (s.setStream n l).nav = s.nav := rfl
@[simp] theorem State.setStream_erg (n : Nat) (l : List (List Nat)) : (s.setStream n l).erg = s.erg := rfl
@[simp] theorem State.setStream_sol (n : Nat) (l : List (List Nat)) : (s.setStream n l).sol = s.sol := rfl
@[simp] theorem State.setStream_ports (n : Nat) (l : List (List Nat)) : (s.setStream n l).ports = s.ports := rfl
@[simp] theorem State.setStream_net (n : Nat) (l : List (List Nat)) : (s.setStream n l).net = s.net := rfl
@[simp] theorem State.setStream_prot (n : Nat) (l : List (List Nat)) : (s.setStream n l).prot = s.prot := rfl
@[simp] theorem State.setStream_lake (n : Nat) (l : List (List Nat)) : (s.setStream n l).lake = s.lake := rfl
@[simp] theorem State.setStream_reader (n : Nat) (l : List (List Nat)) : (s.setStream n l).reader = s.reader := rfl
@[simp] theorem State.setStream_power (n : Nat) (l : List (List Nat)) : (s.setStream n l).power = s.power := rfl
@[simp] theorem State.setStream_boot (n : Nat) (l : List (List Nat)) : (s.setStream n l).boot = s.boot := rfl
@[simp] theorem State.setStream_jtag (n : Nat) (l : List (List Nat)) : (s.setStream n l).jtag = s.jtag := rfl
@[simp] theorem State.setStream_get (n : Nat) (l : List (List Nat)) (i : Nat) : (s.setStream n l).get i = s.get i := rfl
@[simp] theorem State.setStream_core (n : Nat) (l : List (List Nat)) (i : Nat) : (s.setStream n l).core i = s.core i := rfl

/-! ### State.answer -/

@[simp] theorem State.answer_pending (a : Nat) (l : List Nat) : (s.answer a l).pending = s.pending := rfl
@[simp] theorem State.answer_dict (a : Nat) (l : List Nat) : (s.answer a l).dict = s.dict := rfl
@[simp] theorem State.answer_streams (a : Nat) (l : List Nat) : (s.answer a l).streams = s.streams := rfl
@[simp] theorem State.answer_silt (a : Nat) (l : List Nat) : (s.answer a l).silt = s.silt := rfl
@[simp] theorem State.answer_mspi (a : Nat) (l : List Nat) : (s.answer a l).mspi = s.mspi := rfl
@[simp] theorem State.answer_host (a : Nat) (l : List Nat) : (s.answer a l).host = s.host := rfl
@[simp] theorem State.answer_reply (a : Nat) (l : List Nat) : (s.answer a l).reply = ⟨a, l⟩ := rfl
@[simp] theorem State.answer_free (a : Nat) (l : List Nat) : (s.answer a l).free = s.free := rfl
@[simp] theorem State.answer_time (a : Nat) (l : List Nat) : (s.answer a l).time = s.time := rfl
@[simp] theorem State.answer_out (a : Nat) (l : List Nat) : (s.answer a l).out = s.out := rfl
@[simp] theorem State.answer_cpu (a : Nat) (l : List Nat) : (s.answer a l).cpu = s.cpu := rfl
@[simp] theorem State.answer_tmr (a : Nat) (l : List Nat) : (s.answer a l).tmr = s.tmr := rfl
@[simp] theorem State.answer_rx (a : Nat) (l : List Nat) : (s.answer a l).rx = s.rx := rfl
@[simp] theorem State.answer_slots (a : Nat) (l : List Nat) : (s.answer a l).slots = s.slots := rfl
@[simp] theorem State.answer_nav (a : Nat) (l : List Nat) : (s.answer a l).nav = s.nav := rfl
@[simp] theorem State.answer_erg (a : Nat) (l : List Nat) : (s.answer a l).erg = s.erg := rfl
@[simp] theorem State.answer_sol (a : Nat) (l : List Nat) : (s.answer a l).sol = s.sol := rfl
@[simp] theorem State.answer_ports (a : Nat) (l : List Nat) : (s.answer a l).ports = s.ports := rfl
@[simp] theorem State.answer_net (a : Nat) (l : List Nat) : (s.answer a l).net = s.net := rfl
@[simp] theorem State.answer_prot (a : Nat) (l : List Nat) : (s.answer a l).prot = s.prot := rfl
@[simp] theorem State.answer_lake (a : Nat) (l : List Nat) : (s.answer a l).lake = s.lake := rfl
@[simp] theorem State.answer_reader (a : Nat) (l : List Nat) : (s.answer a l).reader = s.reader := rfl
@[simp] theorem State.answer_power (a : Nat) (l : List Nat) : (s.answer a l).power = s.power := rfl
@[simp] theorem State.answer_boot (a : Nat) (l : List Nat) : (s.answer a l).boot = s.boot := rfl
@[simp] theorem State.answer_jtag (a : Nat) (l : List Nat) : (s.answer a l).jtag = s.jtag := rfl
@[simp] theorem State.answer_get (a : Nat) (l : List Nat) (i : Nat) : (s.answer a l).get i = s.get i := rfl
@[simp] theorem State.answer_core (a : Nat) (l : List Nat) (i : Nat) : (s.answer a l).core i = s.core i := rfl

/-! ### State.takeFree -/

@[simp] theorem State.takeFree_pending  : (s.takeFree).pending = s.pending := rfl
@[simp] theorem State.takeFree_dict  : (s.takeFree).dict = s.dict := rfl
@[simp] theorem State.takeFree_streams  : (s.takeFree).streams = s.streams := rfl
@[simp] theorem State.takeFree_silt  : (s.takeFree).silt = s.silt := rfl
@[simp] theorem State.takeFree_mspi  : (s.takeFree).mspi = s.mspi := rfl
@[simp] theorem State.takeFree_host  : (s.takeFree).host = s.host := rfl
@[simp] theorem State.takeFree_reply  : (s.takeFree).reply = s.reply := rfl
@[simp] theorem State.takeFree_free  : (s.takeFree).free = s.free + 1 := rfl
@[simp] theorem State.takeFree_time  : (s.takeFree).time = s.time := rfl
@[simp] theorem State.takeFree_out  : (s.takeFree).out = s.out := rfl
@[simp] theorem State.takeFree_cpu  : (s.takeFree).cpu = s.cpu := rfl
@[simp] theorem State.takeFree_tmr  : (s.takeFree).tmr = s.tmr := rfl
@[simp] theorem State.takeFree_rx  : (s.takeFree).rx = s.rx := rfl
@[simp] theorem State.takeFree_slots  : (s.takeFree).slots = s.slots := rfl
@[simp] theorem State.takeFree_nav  : (s.takeFree).nav = s.nav := rfl
@[simp] theorem State.takeFree_erg  : (s.takeFree).erg = s.erg := rfl
@[simp] theorem State.takeFree_sol  : (s.takeFree).sol = s.sol := rfl
@[simp] theorem State.takeFree_ports  : (s.takeFree).ports = s.ports := rfl
@[simp] theorem State.takeFree_net  : (s.takeFree).net = s.net := rfl
@[simp] theorem State.takeFree_prot  : (s.takeFree).prot = s.prot := rfl
@[simp] theorem State.takeFree_lake  : (s.takeFree).lake = s.lake := rfl
@[simp] theorem State.takeFree_reader  : (s.takeFree).reader = s.reader := rfl
@[simp] theorem State.takeFree_power  : (s.takeFree).power = s.power := rfl
@[simp] theorem State.takeFree_boot  : (s.takeFree).boot = s.boot := rfl
@[simp] theorem State.takeFree_jtag  : (s.takeFree).jtag = s.jtag := rfl
@[simp] theorem State.takeFree_get (i : Nat) : (s.takeFree).get i = s.get i := rfl
@[simp] theorem State.takeFree_core  (i : Nat) : (s.takeFree).core i = s.core i := rfl

/-! ### State.reach -/

@[simp] theorem State.reach_pending (a : Nat) : (s.reach a).pending = s.pending := rfl
@[simp] theorem State.reach_dict (a : Nat) : (s.reach a).dict = s.dict := rfl
@[simp] theorem State.reach_streams (a : Nat) : (s.reach a).streams = s.streams := rfl
@[simp] theorem State.reach_silt (a : Nat) : (s.reach a).silt = s.silt := rfl
@[simp] theorem State.reach_mspi (a : Nat) : (s.reach a).mspi = s.mspi := rfl
@[simp] theorem State.reach_host (a : Nat) : (s.reach a).host = s.host := rfl
@[simp] theorem State.reach_reply (a : Nat) : (s.reach a).reply = s.reply := rfl
@[simp] theorem State.reach_free (a : Nat) : (s.reach a).free = s.free := rfl
@[simp] theorem State.reach_time (a : Nat) : (s.reach a).time = { s.time with now := max s.time.now a } := rfl
@[simp] theorem State.reach_out (a : Nat) : (s.reach a).out = s.out := rfl
@[simp] theorem State.reach_cpu (a : Nat) : (s.reach a).cpu = s.cpu := rfl
@[simp] theorem State.reach_tmr (a : Nat) : (s.reach a).tmr = s.tmr := rfl
@[simp] theorem State.reach_rx (a : Nat) : (s.reach a).rx = s.rx := rfl
@[simp] theorem State.reach_slots (a : Nat) : (s.reach a).slots = s.slots := rfl
@[simp] theorem State.reach_nav (a : Nat) : (s.reach a).nav = s.nav := rfl
@[simp] theorem State.reach_erg (a : Nat) : (s.reach a).erg = s.erg := rfl
@[simp] theorem State.reach_sol (a : Nat) : (s.reach a).sol = s.sol := rfl
@[simp] theorem State.reach_ports (a : Nat) : (s.reach a).ports = s.ports := rfl
@[simp] theorem State.reach_net (a : Nat) : (s.reach a).net = s.net := rfl
@[simp] theorem State.reach_prot (a : Nat) : (s.reach a).prot = s.prot := rfl
@[simp] theorem State.reach_lake (a : Nat) : (s.reach a).lake = s.lake := rfl
@[simp] theorem State.reach_reader (a : Nat) : (s.reach a).reader = s.reader := rfl
@[simp] theorem State.reach_power (a : Nat) : (s.reach a).power = s.power := rfl
@[simp] theorem State.reach_boot (a : Nat) : (s.reach a).boot = s.boot := rfl
@[simp] theorem State.reach_jtag (a : Nat) : (s.reach a).jtag = s.jtag := rfl
@[simp] theorem State.reach_get (a : Nat) (i : Nat) : (s.reach a).get i = s.get i := rfl
@[simp] theorem State.reach_core (a : Nat) (i : Nat) : (s.reach a).core i = s.core i := rfl

/-! ### State.reachAon -/

@[simp] theorem State.reachAon_pending (n : Nat) : (s.reachAon n).pending = s.pending := rfl
@[simp] theorem State.reachAon_dict (n : Nat) : (s.reachAon n).dict = s.dict := rfl
@[simp] theorem State.reachAon_streams (n : Nat) : (s.reachAon n).streams = s.streams := rfl
@[simp] theorem State.reachAon_silt (n : Nat) : (s.reachAon n).silt = s.silt := rfl
@[simp] theorem State.reachAon_mspi (n : Nat) : (s.reachAon n).mspi = s.mspi := rfl
@[simp] theorem State.reachAon_host (n : Nat) : (s.reachAon n).host = s.host := rfl
@[simp] theorem State.reachAon_reply (n : Nat) : (s.reachAon n).reply = s.reply := rfl
@[simp] theorem State.reachAon_free (n : Nat) : (s.reachAon n).free = s.free := rfl
@[simp] theorem State.reachAon_time (n : Nat) : (s.reachAon n).time = { s.time with aon := max s.time.aon n } := rfl
@[simp] theorem State.reachAon_out (n : Nat) : (s.reachAon n).out = s.out := rfl
@[simp] theorem State.reachAon_cpu (n : Nat) : (s.reachAon n).cpu = s.cpu := rfl
@[simp] theorem State.reachAon_tmr (n : Nat) : (s.reachAon n).tmr = s.tmr := rfl
@[simp] theorem State.reachAon_rx (n : Nat) : (s.reachAon n).rx = s.rx := rfl
@[simp] theorem State.reachAon_slots (n : Nat) : (s.reachAon n).slots = s.slots := rfl
@[simp] theorem State.reachAon_nav (n : Nat) : (s.reachAon n).nav = s.nav := rfl
@[simp] theorem State.reachAon_erg (n : Nat) : (s.reachAon n).erg = s.erg := rfl
@[simp] theorem State.reachAon_sol (n : Nat) : (s.reachAon n).sol = s.sol := rfl
@[simp] theorem State.reachAon_ports (n : Nat) : (s.reachAon n).ports = s.ports := rfl
@[simp] theorem State.reachAon_net (n : Nat) : (s.reachAon n).net = s.net := rfl
@[simp] theorem State.reachAon_prot (n : Nat) : (s.reachAon n).prot = s.prot := rfl
@[simp] theorem State.reachAon_lake (n : Nat) : (s.reachAon n).lake = s.lake := rfl
@[simp] theorem State.reachAon_reader (n : Nat) : (s.reachAon n).reader = s.reader := rfl
@[simp] theorem State.reachAon_power (n : Nat) : (s.reachAon n).power = s.power := rfl
@[simp] theorem State.reachAon_boot (n : Nat) : (s.reachAon n).boot = s.boot := rfl
@[simp] theorem State.reachAon_jtag (n : Nat) : (s.reachAon n).jtag = s.jtag := rfl
@[simp] theorem State.reachAon_get (n : Nat) (i : Nat) : (s.reachAon n).get i = s.get i := rfl
@[simp] theorem State.reachAon_core (n : Nat) (i : Nat) : (s.reachAon n).core i = s.core i := rfl

/-! ### State.modTp -/

@[simp] theorem State.modTp_pending (n : Nat) (f : TpSt → TpSt) : (s.modTp n f).pending = s.pending := rfl
@[simp] theorem State.modTp_dict (n : Nat) (f : TpSt → TpSt) : (s.modTp n f).dict = s.dict := rfl
@[simp] theorem State.modTp_streams (n : Nat) (f : TpSt → TpSt) : (s.modTp n f).streams = s.streams := rfl
@[simp] theorem State.modTp_silt (n : Nat) (f : TpSt → TpSt) : (s.modTp n f).silt = s.silt := rfl
@[simp] theorem State.modTp_mspi (n : Nat) (f : TpSt → TpSt) : (s.modTp n f).mspi = s.mspi := rfl
@[simp] theorem State.modTp_host (n : Nat) (f : TpSt → TpSt) : (s.modTp n f).host = s.host := rfl
@[simp] theorem State.modTp_reply (n : Nat) (f : TpSt → TpSt) : (s.modTp n f).reply = s.reply := rfl
@[simp] theorem State.modTp_free (n : Nat) (f : TpSt → TpSt) : (s.modTp n f).free = s.free := rfl
@[simp] theorem State.modTp_time (n : Nat) (f : TpSt → TpSt) : (s.modTp n f).time = s.time := rfl
@[simp] theorem State.modTp_out (n : Nat) (f : TpSt → TpSt) : (s.modTp n f).out = { s.out with tp := listMod s.out.tp n f } := rfl
@[simp] theorem State.modTp_cpu (n : Nat) (f : TpSt → TpSt) : (s.modTp n f).cpu = s.cpu := rfl
@[simp] theorem State.modTp_tmr (n : Nat) (f : TpSt → TpSt) : (s.modTp n f).tmr = s.tmr := rfl
@[simp] theorem State.modTp_rx (n : Nat) (f : TpSt → TpSt) : (s.modTp n f).rx = s.rx := rfl
@[simp] theorem State.modTp_slots (n : Nat) (f : TpSt → TpSt) : (s.modTp n f).slots = s.slots := rfl
@[simp] theorem State.modTp_nav (n : Nat) (f : TpSt → TpSt) : (s.modTp n f).nav = s.nav := rfl
@[simp] theorem State.modTp_erg (n : Nat) (f : TpSt → TpSt) : (s.modTp n f).erg = s.erg := rfl
@[simp] theorem State.modTp_sol (n : Nat) (f : TpSt → TpSt) : (s.modTp n f).sol = s.sol := rfl
@[simp] theorem State.modTp_ports (n : Nat) (f : TpSt → TpSt) : (s.modTp n f).ports = s.ports := rfl
@[simp] theorem State.modTp_net (n : Nat) (f : TpSt → TpSt) : (s.modTp n f).net = s.net := rfl
@[simp] theorem State.modTp_prot (n : Nat) (f : TpSt → TpSt) : (s.modTp n f).prot = s.prot := rfl
@[simp] theorem State.modTp_lake (n : Nat) (f : TpSt → TpSt) : (s.modTp n f).lake = s.lake := rfl
@[simp] theorem State.modTp_reader (n : Nat) (f : TpSt → TpSt) : (s.modTp n f).reader = s.reader := rfl
@[simp] theorem State.modTp_power (n : Nat) (f : TpSt → TpSt) : (s.modTp n f).power = s.power := rfl
@[simp] theorem State.modTp_boot (n : Nat) (f : TpSt → TpSt) : (s.modTp n f).boot = s.boot := rfl
@[simp] theorem State.modTp_jtag (n : Nat) (f : TpSt → TpSt) : (s.modTp n f).jtag = s.jtag := rfl
@[simp] theorem State.modTp_get (n : Nat) (f : TpSt → TpSt) (i : Nat) : (s.modTp n f).get i = s.get i := rfl
@[simp] theorem State.modTp_core (n : Nat) (f : TpSt → TpSt) (i : Nat) : (s.modTp n f).core i = s.core i := rfl

/-! ### State.modCko -/

@[simp] theorem State.modCko_pending (n : Nat) (f : CkoSt → CkoSt) : (s.modCko n f).pending = s.pending := rfl
@[simp] theorem State.modCko_dict (n : Nat) (f : CkoSt → CkoSt) : (s.modCko n f).dict = s.dict := rfl
@[simp] theorem State.modCko_streams (n : Nat) (f : CkoSt → CkoSt) : (s.modCko n f).streams = s.streams := rfl
@[simp] theorem State.modCko_silt (n : Nat) (f : CkoSt → CkoSt) : (s.modCko n f).silt = s.silt := rfl
@[simp] theorem State.modCko_mspi (n : Nat) (f : CkoSt → CkoSt) : (s.modCko n f).mspi = s.mspi := rfl
@[simp] theorem State.modCko_host (n : Nat) (f : CkoSt → CkoSt) : (s.modCko n f).host = s.host := rfl
@[simp] theorem State.modCko_reply (n : Nat) (f : CkoSt → CkoSt) : (s.modCko n f).reply = s.reply := rfl
@[simp] theorem State.modCko_free (n : Nat) (f : CkoSt → CkoSt) : (s.modCko n f).free = s.free := rfl
@[simp] theorem State.modCko_time (n : Nat) (f : CkoSt → CkoSt) : (s.modCko n f).time = s.time := rfl
@[simp] theorem State.modCko_out (n : Nat) (f : CkoSt → CkoSt) : (s.modCko n f).out = { s.out with cko := listMod s.out.cko n f } := rfl
@[simp] theorem State.modCko_cpu (n : Nat) (f : CkoSt → CkoSt) : (s.modCko n f).cpu = s.cpu := rfl
@[simp] theorem State.modCko_tmr (n : Nat) (f : CkoSt → CkoSt) : (s.modCko n f).tmr = s.tmr := rfl
@[simp] theorem State.modCko_rx (n : Nat) (f : CkoSt → CkoSt) : (s.modCko n f).rx = s.rx := rfl
@[simp] theorem State.modCko_slots (n : Nat) (f : CkoSt → CkoSt) : (s.modCko n f).slots = s.slots := rfl
@[simp] theorem State.modCko_nav (n : Nat) (f : CkoSt → CkoSt) : (s.modCko n f).nav = s.nav := rfl
@[simp] theorem State.modCko_erg (n : Nat) (f : CkoSt → CkoSt) : (s.modCko n f).erg = s.erg := rfl
@[simp] theorem State.modCko_sol (n : Nat) (f : CkoSt → CkoSt) : (s.modCko n f).sol = s.sol := rfl
@[simp] theorem State.modCko_ports (n : Nat) (f : CkoSt → CkoSt) : (s.modCko n f).ports = s.ports := rfl
@[simp] theorem State.modCko_net (n : Nat) (f : CkoSt → CkoSt) : (s.modCko n f).net = s.net := rfl
@[simp] theorem State.modCko_prot (n : Nat) (f : CkoSt → CkoSt) : (s.modCko n f).prot = s.prot := rfl
@[simp] theorem State.modCko_lake (n : Nat) (f : CkoSt → CkoSt) : (s.modCko n f).lake = s.lake := rfl
@[simp] theorem State.modCko_reader (n : Nat) (f : CkoSt → CkoSt) : (s.modCko n f).reader = s.reader := rfl
@[simp] theorem State.modCko_power (n : Nat) (f : CkoSt → CkoSt) : (s.modCko n f).power = s.power := rfl
@[simp] theorem State.modCko_boot (n : Nat) (f : CkoSt → CkoSt) : (s.modCko n f).boot = s.boot := rfl
@[simp] theorem State.modCko_jtag (n : Nat) (f : CkoSt → CkoSt) : (s.modCko n f).jtag = s.jtag := rfl
@[simp] theorem State.modCko_get (n : Nat) (f : CkoSt → CkoSt) (i : Nat) : (s.modCko n f).get i = s.get i := rfl
@[simp] theorem State.modCko_core (n : Nat) (f : CkoSt → CkoSt) (i : Nat) : (s.modCko n f).core i = s.core i := rfl

/-! ### State.modCore -/

@[simp] theorem State.modCore_pending (c : Nat) (f : CoreSt → CoreSt) : (s.modCore c f).pending = s.pending := rfl
@[simp] theorem State.modCore_dict (c : Nat) (f : CoreSt → CoreSt) : (s.modCore c f).dict = s.dict := rfl
@[simp] theorem State.modCore_streams (c : Nat) (f : CoreSt → CoreSt) : (s.modCore c f).streams = s.streams := rfl
@[simp] theorem State.modCore_silt (c : Nat) (f : CoreSt → CoreSt) : (s.modCore c f).silt = s.silt := rfl
@[simp] theorem State.modCore_mspi (c : Nat) (f : CoreSt → CoreSt) : (s.modCore c f).mspi = s.mspi := rfl
@[simp] theorem State.modCore_host (c : Nat) (f : CoreSt → CoreSt) : (s.modCore c f).host = s.host := rfl
@[simp] theorem State.modCore_reply (c : Nat) (f : CoreSt → CoreSt) : (s.modCore c f).reply = s.reply := rfl
@[simp] theorem State.modCore_free (c : Nat) (f : CoreSt → CoreSt) : (s.modCore c f).free = s.free := rfl
@[simp] theorem State.modCore_time (c : Nat) (f : CoreSt → CoreSt) : (s.modCore c f).time = s.time := rfl
@[simp] theorem State.modCore_out (c : Nat) (f : CoreSt → CoreSt) : (s.modCore c f).out = s.out := rfl
@[simp] theorem State.modCore_cpu (c : Nat) (f : CoreSt → CoreSt) : (s.modCore c f).cpu = { s.cpu with core := vecMod s.cpu.core c f } := rfl
@[simp] theorem State.modCore_tmr (c : Nat) (f : CoreSt → CoreSt) : (s.modCore c f).tmr = s.tmr := rfl
@[simp] theorem State.modCore_rx (c : Nat) (f : CoreSt → CoreSt) : (s.modCore c f).rx = s.rx := rfl
@[simp] theorem State.modCore_slots (c : Nat) (f : CoreSt → CoreSt) : (s.modCore c f).slots = s.slots := rfl
@[simp] theorem State.modCore_nav (c : Nat) (f : CoreSt → CoreSt) : (s.modCore c f).nav = s.nav := rfl
@[simp] theorem State.modCore_erg (c : Nat) (f : CoreSt → CoreSt) : (s.modCore c f).erg = s.erg := rfl
@[simp] theorem State.modCore_sol (c : Nat) (f : CoreSt → CoreSt) : (s.modCore c f).sol = s.sol := rfl
@[simp] theorem State.modCore_ports (c : Nat) (f : CoreSt → CoreSt) : (s.modCore c f).ports = s.ports := rfl
@[simp] theorem State.modCore_net (c : Nat) (f : CoreSt → CoreSt) : (s.modCore c f).net = s.net := rfl
@[simp] theorem State.modCore_prot (c : Nat) (f : CoreSt → CoreSt) : (s.modCore c f).prot = s.prot := rfl
@[simp] theorem State.modCore_lake (c : Nat) (f : CoreSt → CoreSt) : (s.modCore c f).lake = s.lake := rfl
@[simp] theorem State.modCore_reader (c : Nat) (f : CoreSt → CoreSt) : (s.modCore c f).reader = s.reader := rfl
@[simp] theorem State.modCore_power (c : Nat) (f : CoreSt → CoreSt) : (s.modCore c f).power = s.power := rfl
@[simp] theorem State.modCore_boot (c : Nat) (f : CoreSt → CoreSt) : (s.modCore c f).boot = s.boot := rfl
@[simp] theorem State.modCore_jtag (c : Nat) (f : CoreSt → CoreSt) : (s.modCore c f).jtag = s.jtag := rfl
@[simp] theorem State.modCore_get (c : Nat) (f : CoreSt → CoreSt) (i : Nat) : (s.modCore c f).get i = s.get i := rfl

/-! ### State.modCpu -/

@[simp] theorem State.modCpu_pending (f : CoresSt → CoresSt) : (s.modCpu f).pending = s.pending := rfl
@[simp] theorem State.modCpu_dict (f : CoresSt → CoresSt) : (s.modCpu f).dict = s.dict := rfl
@[simp] theorem State.modCpu_streams (f : CoresSt → CoresSt) : (s.modCpu f).streams = s.streams := rfl
@[simp] theorem State.modCpu_silt (f : CoresSt → CoresSt) : (s.modCpu f).silt = s.silt := rfl
@[simp] theorem State.modCpu_mspi (f : CoresSt → CoresSt) : (s.modCpu f).mspi = s.mspi := rfl
@[simp] theorem State.modCpu_host (f : CoresSt → CoresSt) : (s.modCpu f).host = s.host := rfl
@[simp] theorem State.modCpu_reply (f : CoresSt → CoresSt) : (s.modCpu f).reply = s.reply := rfl
@[simp] theorem State.modCpu_free (f : CoresSt → CoresSt) : (s.modCpu f).free = s.free := rfl
@[simp] theorem State.modCpu_time (f : CoresSt → CoresSt) : (s.modCpu f).time = s.time := rfl
@[simp] theorem State.modCpu_out (f : CoresSt → CoresSt) : (s.modCpu f).out = s.out := rfl
@[simp] theorem State.modCpu_cpu (f : CoresSt → CoresSt) : (s.modCpu f).cpu = f s.cpu := rfl
@[simp] theorem State.modCpu_tmr (f : CoresSt → CoresSt) : (s.modCpu f).tmr = s.tmr := rfl
@[simp] theorem State.modCpu_rx (f : CoresSt → CoresSt) : (s.modCpu f).rx = s.rx := rfl
@[simp] theorem State.modCpu_slots (f : CoresSt → CoresSt) : (s.modCpu f).slots = s.slots := rfl
@[simp] theorem State.modCpu_nav (f : CoresSt → CoresSt) : (s.modCpu f).nav = s.nav := rfl
@[simp] theorem State.modCpu_erg (f : CoresSt → CoresSt) : (s.modCpu f).erg = s.erg := rfl
@[simp] theorem State.modCpu_sol (f : CoresSt → CoresSt) : (s.modCpu f).sol = s.sol := rfl
@[simp] theorem State.modCpu_ports (f : CoresSt → CoresSt) : (s.modCpu f).ports = s.ports := rfl
@[simp] theorem State.modCpu_net (f : CoresSt → CoresSt) : (s.modCpu f).net = s.net := rfl
@[simp] theorem State.modCpu_prot (f : CoresSt → CoresSt) : (s.modCpu f).prot = s.prot := rfl
@[simp] theorem State.modCpu_lake (f : CoresSt → CoresSt) : (s.modCpu f).lake = s.lake := rfl
@[simp] theorem State.modCpu_reader (f : CoresSt → CoresSt) : (s.modCpu f).reader = s.reader := rfl
@[simp] theorem State.modCpu_power (f : CoresSt → CoresSt) : (s.modCpu f).power = s.power := rfl
@[simp] theorem State.modCpu_boot (f : CoresSt → CoresSt) : (s.modCpu f).boot = s.boot := rfl
@[simp] theorem State.modCpu_jtag (f : CoresSt → CoresSt) : (s.modCpu f).jtag = s.jtag := rfl
@[simp] theorem State.modCpu_get (f : CoresSt → CoresSt) (i : Nat) : (s.modCpu f).get i = s.get i := rfl

/-! ### State.modTimer -/

@[simp] theorem State.modTimer_pending (n : Nat) (f : TmrSt → TmrSt) : (s.modTimer n f).pending = s.pending := rfl
@[simp] theorem State.modTimer_dict (n : Nat) (f : TmrSt → TmrSt) : (s.modTimer n f).dict = s.dict := rfl
@[simp] theorem State.modTimer_streams (n : Nat) (f : TmrSt → TmrSt) : (s.modTimer n f).streams = s.streams := rfl
@[simp] theorem State.modTimer_silt (n : Nat) (f : TmrSt → TmrSt) : (s.modTimer n f).silt = s.silt := rfl
@[simp] theorem State.modTimer_mspi (n : Nat) (f : TmrSt → TmrSt) : (s.modTimer n f).mspi = s.mspi := rfl
@[simp] theorem State.modTimer_host (n : Nat) (f : TmrSt → TmrSt) : (s.modTimer n f).host = s.host := rfl
@[simp] theorem State.modTimer_reply (n : Nat) (f : TmrSt → TmrSt) : (s.modTimer n f).reply = s.reply := rfl
@[simp] theorem State.modTimer_free (n : Nat) (f : TmrSt → TmrSt) : (s.modTimer n f).free = s.free := rfl
@[simp] theorem State.modTimer_time (n : Nat) (f : TmrSt → TmrSt) : (s.modTimer n f).time = s.time := rfl
@[simp] theorem State.modTimer_out (n : Nat) (f : TmrSt → TmrSt) : (s.modTimer n f).out = s.out := rfl
@[simp] theorem State.modTimer_cpu (n : Nat) (f : TmrSt → TmrSt) : (s.modTimer n f).cpu = s.cpu := rfl
@[simp] theorem State.modTimer_tmr (n : Nat) (f : TmrSt → TmrSt) : (s.modTimer n f).tmr = { s.tmr with tmr := vecMod s.tmr.tmr n f } := rfl
@[simp] theorem State.modTimer_rx (n : Nat) (f : TmrSt → TmrSt) : (s.modTimer n f).rx = s.rx := rfl
@[simp] theorem State.modTimer_slots (n : Nat) (f : TmrSt → TmrSt) : (s.modTimer n f).slots = s.slots := rfl
@[simp] theorem State.modTimer_nav (n : Nat) (f : TmrSt → TmrSt) : (s.modTimer n f).nav = s.nav := rfl
@[simp] theorem State.modTimer_erg (n : Nat) (f : TmrSt → TmrSt) : (s.modTimer n f).erg = s.erg := rfl
@[simp] theorem State.modTimer_sol (n : Nat) (f : TmrSt → TmrSt) : (s.modTimer n f).sol = s.sol := rfl
@[simp] theorem State.modTimer_ports (n : Nat) (f : TmrSt → TmrSt) : (s.modTimer n f).ports = s.ports := rfl
@[simp] theorem State.modTimer_net (n : Nat) (f : TmrSt → TmrSt) : (s.modTimer n f).net = s.net := rfl
@[simp] theorem State.modTimer_prot (n : Nat) (f : TmrSt → TmrSt) : (s.modTimer n f).prot = s.prot := rfl
@[simp] theorem State.modTimer_lake (n : Nat) (f : TmrSt → TmrSt) : (s.modTimer n f).lake = s.lake := rfl
@[simp] theorem State.modTimer_reader (n : Nat) (f : TmrSt → TmrSt) : (s.modTimer n f).reader = s.reader := rfl
@[simp] theorem State.modTimer_power (n : Nat) (f : TmrSt → TmrSt) : (s.modTimer n f).power = s.power := rfl
@[simp] theorem State.modTimer_boot (n : Nat) (f : TmrSt → TmrSt) : (s.modTimer n f).boot = s.boot := rfl
@[simp] theorem State.modTimer_jtag (n : Nat) (f : TmrSt → TmrSt) : (s.modTimer n f).jtag = s.jtag := rfl
@[simp] theorem State.modTimer_get (n : Nat) (f : TmrSt → TmrSt) (i : Nat) : (s.modTimer n f).get i = s.get i := rfl
@[simp] theorem State.modTimer_core (n : Nat) (f : TmrSt → TmrSt) (i : Nat) : (s.modTimer n f).core i = s.core i := rfl

/-! ### State.modAnt -/

@[simp] theorem State.modAnt_pending (n : Nat) (f : AntSt → AntSt) : (s.modAnt n f).pending = s.pending := rfl
@[simp] theorem State.modAnt_dict (n : Nat) (f : AntSt → AntSt) : (s.modAnt n f).dict = s.dict := rfl
@[simp] theorem State.modAnt_streams (n : Nat) (f : AntSt → AntSt) : (s.modAnt n f).streams = s.streams := rfl
@[simp] theorem State.modAnt_silt (n : Nat) (f : AntSt → AntSt) : (s.modAnt n f).silt = s.silt := rfl
@[simp] theorem State.modAnt_mspi (n : Nat) (f : AntSt → AntSt) : (s.modAnt n f).mspi = s.mspi := rfl
@[simp] theorem State.modAnt_host (n : Nat) (f : AntSt → AntSt) : (s.modAnt n f).host = s.host := rfl
@[simp] theorem State.modAnt_reply (n : Nat) (f : AntSt → AntSt) : (s.modAnt n f).reply = s.reply := rfl
@[simp] theorem State.modAnt_free (n : Nat) (f : AntSt → AntSt) : (s.modAnt n f).free = s.free := rfl
@[simp] theorem State.modAnt_time (n : Nat) (f : AntSt → AntSt) : (s.modAnt n f).time = s.time := rfl
@[simp] theorem State.modAnt_out (n : Nat) (f : AntSt → AntSt) : (s.modAnt n f).out = s.out := rfl
@[simp] theorem State.modAnt_cpu (n : Nat) (f : AntSt → AntSt) : (s.modAnt n f).cpu = s.cpu := rfl
@[simp] theorem State.modAnt_tmr (n : Nat) (f : AntSt → AntSt) : (s.modAnt n f).tmr = s.tmr := rfl
@[simp] theorem State.modAnt_rx (n : Nat) (f : AntSt → AntSt) : (s.modAnt n f).rx = { s.rx with ant := vecMod s.rx.ant n f } := rfl
@[simp] theorem State.modAnt_slots (n : Nat) (f : AntSt → AntSt) : (s.modAnt n f).slots = s.slots := rfl
@[simp] theorem State.modAnt_nav (n : Nat) (f : AntSt → AntSt) : (s.modAnt n f).nav = s.nav := rfl
@[simp] theorem State.modAnt_erg (n : Nat) (f : AntSt → AntSt) : (s.modAnt n f).erg = s.erg := rfl
@[simp] theorem State.modAnt_sol (n : Nat) (f : AntSt → AntSt) : (s.modAnt n f).sol = s.sol := rfl
@[simp] theorem State.modAnt_ports (n : Nat) (f : AntSt → AntSt) : (s.modAnt n f).ports = s.ports := rfl
@[simp] theorem State.modAnt_net (n : Nat) (f : AntSt → AntSt) : (s.modAnt n f).net = s.net := rfl
@[simp] theorem State.modAnt_prot (n : Nat) (f : AntSt → AntSt) : (s.modAnt n f).prot = s.prot := rfl
@[simp] theorem State.modAnt_lake (n : Nat) (f : AntSt → AntSt) : (s.modAnt n f).lake = s.lake := rfl
@[simp] theorem State.modAnt_reader (n : Nat) (f : AntSt → AntSt) : (s.modAnt n f).reader = s.reader := rfl
@[simp] theorem State.modAnt_power (n : Nat) (f : AntSt → AntSt) : (s.modAnt n f).power = s.power := rfl
@[simp] theorem State.modAnt_boot (n : Nat) (f : AntSt → AntSt) : (s.modAnt n f).boot = s.boot := rfl
@[simp] theorem State.modAnt_jtag (n : Nat) (f : AntSt → AntSt) : (s.modAnt n f).jtag = s.jtag := rfl
@[simp] theorem State.modAnt_get (n : Nat) (f : AntSt → AntSt) (i : Nat) : (s.modAnt n f).get i = s.get i := rfl
@[simp] theorem State.modAnt_core (n : Nat) (f : AntSt → AntSt) (i : Nat) : (s.modAnt n f).core i = s.core i := rfl

/-! ### State.modChain -/

@[simp] theorem State.modChain_pending (n : Nat) (f : ChainSt → ChainSt) : (s.modChain n f).pending = s.pending := rfl
@[simp] theorem State.modChain_dict (n : Nat) (f : ChainSt → ChainSt) : (s.modChain n f).dict = s.dict := rfl
@[simp] theorem State.modChain_streams (n : Nat) (f : ChainSt → ChainSt) : (s.modChain n f).streams = s.streams := rfl
@[simp] theorem State.modChain_silt (n : Nat) (f : ChainSt → ChainSt) : (s.modChain n f).silt = s.silt := rfl
@[simp] theorem State.modChain_mspi (n : Nat) (f : ChainSt → ChainSt) : (s.modChain n f).mspi = s.mspi := rfl
@[simp] theorem State.modChain_host (n : Nat) (f : ChainSt → ChainSt) : (s.modChain n f).host = s.host := rfl
@[simp] theorem State.modChain_reply (n : Nat) (f : ChainSt → ChainSt) : (s.modChain n f).reply = s.reply := rfl
@[simp] theorem State.modChain_free (n : Nat) (f : ChainSt → ChainSt) : (s.modChain n f).free = s.free := rfl
@[simp] theorem State.modChain_time (n : Nat) (f : ChainSt → ChainSt) : (s.modChain n f).time = s.time := rfl
@[simp] theorem State.modChain_out (n : Nat) (f : ChainSt → ChainSt) : (s.modChain n f).out = s.out := rfl
@[simp] theorem State.modChain_cpu (n : Nat) (f : ChainSt → ChainSt) : (s.modChain n f).cpu = s.cpu := rfl
@[simp] theorem State.modChain_tmr (n : Nat) (f : ChainSt → ChainSt) : (s.modChain n f).tmr = s.tmr := rfl
@[simp] theorem State.modChain_rx (n : Nat) (f : ChainSt → ChainSt) : (s.modChain n f).rx = { s.rx with chain := vecMod s.rx.chain n f } := rfl
@[simp] theorem State.modChain_slots (n : Nat) (f : ChainSt → ChainSt) : (s.modChain n f).slots = s.slots := rfl
@[simp] theorem State.modChain_nav (n : Nat) (f : ChainSt → ChainSt) : (s.modChain n f).nav = s.nav := rfl
@[simp] theorem State.modChain_erg (n : Nat) (f : ChainSt → ChainSt) : (s.modChain n f).erg = s.erg := rfl
@[simp] theorem State.modChain_sol (n : Nat) (f : ChainSt → ChainSt) : (s.modChain n f).sol = s.sol := rfl
@[simp] theorem State.modChain_ports (n : Nat) (f : ChainSt → ChainSt) : (s.modChain n f).ports = s.ports := rfl
@[simp] theorem State.modChain_net (n : Nat) (f : ChainSt → ChainSt) : (s.modChain n f).net = s.net := rfl
@[simp] theorem State.modChain_prot (n : Nat) (f : ChainSt → ChainSt) : (s.modChain n f).prot = s.prot := rfl
@[simp] theorem State.modChain_lake (n : Nat) (f : ChainSt → ChainSt) : (s.modChain n f).lake = s.lake := rfl
@[simp] theorem State.modChain_reader (n : Nat) (f : ChainSt → ChainSt) : (s.modChain n f).reader = s.reader := rfl
@[simp] theorem State.modChain_power (n : Nat) (f : ChainSt → ChainSt) : (s.modChain n f).power = s.power := rfl
@[simp] theorem State.modChain_boot (n : Nat) (f : ChainSt → ChainSt) : (s.modChain n f).boot = s.boot := rfl
@[simp] theorem State.modChain_jtag (n : Nat) (f : ChainSt → ChainSt) : (s.modChain n f).jtag = s.jtag := rfl
@[simp] theorem State.modChain_get (n : Nat) (f : ChainSt → ChainSt) (i : Nat) : (s.modChain n f).get i = s.get i := rfl
@[simp] theorem State.modChain_core (n : Nat) (f : ChainSt → ChainSt) (i : Nat) : (s.modChain n f).core i = s.core i := rfl

/-! ### State.modSlot -/

@[simp] theorem State.modSlot_pending (n : Nat) (f : SlotSt → SlotSt) : (s.modSlot n f).pending = s.pending := rfl
@[simp] theorem State.modSlot_dict (n : Nat) (f : SlotSt → SlotSt) : (s.modSlot n f).dict = s.dict := rfl
@[simp] theorem State.modSlot_streams (n : Nat) (f : SlotSt → SlotSt) : (s.modSlot n f).streams = s.streams := rfl
@[simp] theorem State.modSlot_silt (n : Nat) (f : SlotSt → SlotSt) : (s.modSlot n f).silt = s.silt := rfl
@[simp] theorem State.modSlot_mspi (n : Nat) (f : SlotSt → SlotSt) : (s.modSlot n f).mspi = s.mspi := rfl
@[simp] theorem State.modSlot_host (n : Nat) (f : SlotSt → SlotSt) : (s.modSlot n f).host = s.host := rfl
@[simp] theorem State.modSlot_reply (n : Nat) (f : SlotSt → SlotSt) : (s.modSlot n f).reply = s.reply := rfl
@[simp] theorem State.modSlot_free (n : Nat) (f : SlotSt → SlotSt) : (s.modSlot n f).free = s.free := rfl
@[simp] theorem State.modSlot_time (n : Nat) (f : SlotSt → SlotSt) : (s.modSlot n f).time = s.time := rfl
@[simp] theorem State.modSlot_out (n : Nat) (f : SlotSt → SlotSt) : (s.modSlot n f).out = s.out := rfl
@[simp] theorem State.modSlot_cpu (n : Nat) (f : SlotSt → SlotSt) : (s.modSlot n f).cpu = s.cpu := rfl
@[simp] theorem State.modSlot_tmr (n : Nat) (f : SlotSt → SlotSt) : (s.modSlot n f).tmr = s.tmr := rfl
@[simp] theorem State.modSlot_rx (n : Nat) (f : SlotSt → SlotSt) : (s.modSlot n f).rx = s.rx := rfl
@[simp] theorem State.modSlot_slots (n : Nat) (f : SlotSt → SlotSt) : (s.modSlot n f).slots = SMap.set SlotSt.reset n (f (s.slot n)) s.slots := rfl
@[simp] theorem State.modSlot_nav (n : Nat) (f : SlotSt → SlotSt) : (s.modSlot n f).nav = s.nav := rfl
@[simp] theorem State.modSlot_erg (n : Nat) (f : SlotSt → SlotSt) : (s.modSlot n f).erg = s.erg := rfl
@[simp] theorem State.modSlot_sol (n : Nat) (f : SlotSt → SlotSt) : (s.modSlot n f).sol = s.sol := rfl
@[simp] theorem State.modSlot_ports (n : Nat) (f : SlotSt → SlotSt) : (s.modSlot n f).ports = s.ports := rfl
@[simp] theorem State.modSlot_net (n : Nat) (f : SlotSt → SlotSt) : (s.modSlot n f).net = s.net := rfl
@[simp] theorem State.modSlot_prot (n : Nat) (f : SlotSt → SlotSt) : (s.modSlot n f).prot = s.prot := rfl
@[simp] theorem State.modSlot_lake (n : Nat) (f : SlotSt → SlotSt) : (s.modSlot n f).lake = s.lake := rfl
@[simp] theorem State.modSlot_reader (n : Nat) (f : SlotSt → SlotSt) : (s.modSlot n f).reader = s.reader := rfl
@[simp] theorem State.modSlot_power (n : Nat) (f : SlotSt → SlotSt) : (s.modSlot n f).power = s.power := rfl
@[simp] theorem State.modSlot_boot (n : Nat) (f : SlotSt → SlotSt) : (s.modSlot n f).boot = s.boot := rfl
@[simp] theorem State.modSlot_jtag (n : Nat) (f : SlotSt → SlotSt) : (s.modSlot n f).jtag = s.jtag := rfl
@[simp] theorem State.modSlot_get (n : Nat) (f : SlotSt → SlotSt) (i : Nat) : (s.modSlot n f).get i = s.get i := rfl
@[simp] theorem State.modSlot_core (n : Nat) (f : SlotSt → SlotSt) (i : Nat) : (s.modSlot n f).core i = s.core i := rfl

/-! ### State.modErg -/

@[simp] theorem State.modErg_pending (f : ErgSt → ErgSt) : (s.modErg f).pending = s.pending := rfl
@[simp] theorem State.modErg_dict (f : ErgSt → ErgSt) : (s.modErg f).dict = s.dict := rfl
@[simp] theorem State.modErg_streams (f : ErgSt → ErgSt) : (s.modErg f).streams = s.streams := rfl
@[simp] theorem State.modErg_silt (f : ErgSt → ErgSt) : (s.modErg f).silt = s.silt := rfl
@[simp] theorem State.modErg_mspi (f : ErgSt → ErgSt) : (s.modErg f).mspi = s.mspi := rfl
@[simp] theorem State.modErg_host (f : ErgSt → ErgSt) : (s.modErg f).host = s.host := rfl
@[simp] theorem State.modErg_reply (f : ErgSt → ErgSt) : (s.modErg f).reply = s.reply := rfl
@[simp] theorem State.modErg_free (f : ErgSt → ErgSt) : (s.modErg f).free = s.free := rfl
@[simp] theorem State.modErg_time (f : ErgSt → ErgSt) : (s.modErg f).time = s.time := rfl
@[simp] theorem State.modErg_out (f : ErgSt → ErgSt) : (s.modErg f).out = s.out := rfl
@[simp] theorem State.modErg_cpu (f : ErgSt → ErgSt) : (s.modErg f).cpu = s.cpu := rfl
@[simp] theorem State.modErg_tmr (f : ErgSt → ErgSt) : (s.modErg f).tmr = s.tmr := rfl
@[simp] theorem State.modErg_rx (f : ErgSt → ErgSt) : (s.modErg f).rx = s.rx := rfl
@[simp] theorem State.modErg_slots (f : ErgSt → ErgSt) : (s.modErg f).slots = s.slots := rfl
@[simp] theorem State.modErg_nav (f : ErgSt → ErgSt) : (s.modErg f).nav = s.nav := rfl
@[simp] theorem State.modErg_erg (f : ErgSt → ErgSt) : (s.modErg f).erg = f s.erg := rfl
@[simp] theorem State.modErg_sol (f : ErgSt → ErgSt) : (s.modErg f).sol = s.sol := rfl
@[simp] theorem State.modErg_ports (f : ErgSt → ErgSt) : (s.modErg f).ports = s.ports := rfl
@[simp] theorem State.modErg_net (f : ErgSt → ErgSt) : (s.modErg f).net = s.net := rfl
@[simp] theorem State.modErg_prot (f : ErgSt → ErgSt) : (s.modErg f).prot = s.prot := rfl
@[simp] theorem State.modErg_lake (f : ErgSt → ErgSt) : (s.modErg f).lake = s.lake := rfl
@[simp] theorem State.modErg_reader (f : ErgSt → ErgSt) : (s.modErg f).reader = s.reader := rfl
@[simp] theorem State.modErg_power (f : ErgSt → ErgSt) : (s.modErg f).power = s.power := rfl
@[simp] theorem State.modErg_boot (f : ErgSt → ErgSt) : (s.modErg f).boot = s.boot := rfl
@[simp] theorem State.modErg_jtag (f : ErgSt → ErgSt) : (s.modErg f).jtag = s.jtag := rfl
@[simp] theorem State.modErg_get (f : ErgSt → ErgSt) (i : Nat) : (s.modErg f).get i = s.get i := rfl
@[simp] theorem State.modErg_core (f : ErgSt → ErgSt) (i : Nat) : (s.modErg f).core i = s.core i := rfl

/-! ### State.modSol -/

@[simp] theorem State.modSol_pending (f : SolSt → SolSt) : (s.modSol f).pending = s.pending := rfl
@[simp] theorem State.modSol_dict (f : SolSt → SolSt) : (s.modSol f).dict = s.dict := rfl
@[simp] theorem State.modSol_streams (f : SolSt → SolSt) : (s.modSol f).streams = s.streams := rfl
@[simp] theorem State.modSol_silt (f : SolSt → SolSt) : (s.modSol f).silt = s.silt := rfl
@[simp] theorem State.modSol_mspi (f : SolSt → SolSt) : (s.modSol f).mspi = s.mspi := rfl
@[simp] theorem State.modSol_host (f : SolSt → SolSt) : (s.modSol f).host = s.host := rfl
@[simp] theorem State.modSol_reply (f : SolSt → SolSt) : (s.modSol f).reply = s.reply := rfl
@[simp] theorem State.modSol_free (f : SolSt → SolSt) : (s.modSol f).free = s.free := rfl
@[simp] theorem State.modSol_time (f : SolSt → SolSt) : (s.modSol f).time = s.time := rfl
@[simp] theorem State.modSol_out (f : SolSt → SolSt) : (s.modSol f).out = s.out := rfl
@[simp] theorem State.modSol_cpu (f : SolSt → SolSt) : (s.modSol f).cpu = s.cpu := rfl
@[simp] theorem State.modSol_tmr (f : SolSt → SolSt) : (s.modSol f).tmr = s.tmr := rfl
@[simp] theorem State.modSol_rx (f : SolSt → SolSt) : (s.modSol f).rx = s.rx := rfl
@[simp] theorem State.modSol_slots (f : SolSt → SolSt) : (s.modSol f).slots = s.slots := rfl
@[simp] theorem State.modSol_nav (f : SolSt → SolSt) : (s.modSol f).nav = s.nav := rfl
@[simp] theorem State.modSol_erg (f : SolSt → SolSt) : (s.modSol f).erg = s.erg := rfl
@[simp] theorem State.modSol_sol (f : SolSt → SolSt) : (s.modSol f).sol = f s.sol := rfl
@[simp] theorem State.modSol_ports (f : SolSt → SolSt) : (s.modSol f).ports = s.ports := rfl
@[simp] theorem State.modSol_net (f : SolSt → SolSt) : (s.modSol f).net = s.net := rfl
@[simp] theorem State.modSol_prot (f : SolSt → SolSt) : (s.modSol f).prot = s.prot := rfl
@[simp] theorem State.modSol_lake (f : SolSt → SolSt) : (s.modSol f).lake = s.lake := rfl
@[simp] theorem State.modSol_reader (f : SolSt → SolSt) : (s.modSol f).reader = s.reader := rfl
@[simp] theorem State.modSol_power (f : SolSt → SolSt) : (s.modSol f).power = s.power := rfl
@[simp] theorem State.modSol_boot (f : SolSt → SolSt) : (s.modSol f).boot = s.boot := rfl
@[simp] theorem State.modSol_jtag (f : SolSt → SolSt) : (s.modSol f).jtag = s.jtag := rfl
@[simp] theorem State.modSol_get (f : SolSt → SolSt) (i : Nat) : (s.modSol f).get i = s.get i := rfl
@[simp] theorem State.modSol_core (f : SolSt → SolSt) (i : Nat) : (s.modSol f).core i = s.core i := rfl

/-! ### State.modPort -/

@[simp] theorem State.modPort_pending (n : Nat) (f : PortSt → PortSt) : (s.modPort n f).pending = s.pending := by
  unfold State.modPort
  with_reducible rfl
@[simp] theorem State.modPort_dict (n : Nat) (f : PortSt → PortSt) : (s.modPort n f).dict = s.dict := by
  unfold State.modPort
  with_reducible rfl
@[simp] theorem State.modPort_streams (n : Nat) (f : PortSt → PortSt) : (s.modPort n f).streams = s.streams := by
  unfold State.modPort
  with_reducible rfl
@[simp] theorem State.modPort_silt (n : Nat) (f : PortSt → PortSt) : (s.modPort n f).silt = s.silt := by
  unfold State.modPort
  with_reducible rfl
@[simp] theorem State.modPort_mspi (n : Nat) (f : PortSt → PortSt) : (s.modPort n f).mspi = s.mspi := by
  unfold State.modPort
  with_reducible rfl
@[simp] theorem State.modPort_host (n : Nat) (f : PortSt → PortSt) : (s.modPort n f).host = s.host := by
  unfold State.modPort
  with_reducible rfl
@[simp] theorem State.modPort_reply (n : Nat) (f : PortSt → PortSt) : (s.modPort n f).reply = s.reply := by
  unfold State.modPort
  with_reducible rfl
@[simp] theorem State.modPort_free (n : Nat) (f : PortSt → PortSt) : (s.modPort n f).free = s.free := by
  unfold State.modPort
  with_reducible rfl
@[simp] theorem State.modPort_time (n : Nat) (f : PortSt → PortSt) : (s.modPort n f).time = s.time := by
  unfold State.modPort
  with_reducible rfl
@[simp] theorem State.modPort_out (n : Nat) (f : PortSt → PortSt) : (s.modPort n f).out = s.out := by
  unfold State.modPort
  with_reducible rfl
@[simp] theorem State.modPort_cpu (n : Nat) (f : PortSt → PortSt) : (s.modPort n f).cpu = s.cpu := by
  unfold State.modPort
  with_reducible rfl
@[simp] theorem State.modPort_tmr (n : Nat) (f : PortSt → PortSt) : (s.modPort n f).tmr = s.tmr := by
  unfold State.modPort
  with_reducible rfl
@[simp] theorem State.modPort_rx (n : Nat) (f : PortSt → PortSt) : (s.modPort n f).rx = s.rx := by
  unfold State.modPort
  with_reducible rfl
@[simp] theorem State.modPort_slots (n : Nat) (f : PortSt → PortSt) : (s.modPort n f).slots = s.slots := by
  unfold State.modPort
  with_reducible rfl
@[simp] theorem State.modPort_nav (n : Nat) (f : PortSt → PortSt) : (s.modPort n f).nav = s.nav := by
  unfold State.modPort
  with_reducible rfl
@[simp] theorem State.modPort_erg (n : Nat) (f : PortSt → PortSt) : (s.modPort n f).erg = s.erg := by
  unfold State.modPort
  with_reducible rfl
@[simp] theorem State.modPort_sol (n : Nat) (f : PortSt → PortSt) : (s.modPort n f).sol = s.sol := by
  unfold State.modPort
  with_reducible rfl
@[simp] theorem State.modPort_net (n : Nat) (f : PortSt → PortSt) : (s.modPort n f).net = s.net := by
  unfold State.modPort
  with_reducible rfl
@[simp] theorem State.modPort_prot (n : Nat) (f : PortSt → PortSt) : (s.modPort n f).prot = s.prot := by
  unfold State.modPort
  with_reducible rfl
@[simp] theorem State.modPort_lake (n : Nat) (f : PortSt → PortSt) : (s.modPort n f).lake = s.lake := by
  unfold State.modPort
  with_reducible rfl
@[simp] theorem State.modPort_reader (n : Nat) (f : PortSt → PortSt) : (s.modPort n f).reader = s.reader := by
  unfold State.modPort
  with_reducible rfl
@[simp] theorem State.modPort_power (n : Nat) (f : PortSt → PortSt) : (s.modPort n f).power = s.power := by
  unfold State.modPort
  with_reducible rfl
@[simp] theorem State.modPort_boot (n : Nat) (f : PortSt → PortSt) : (s.modPort n f).boot = s.boot := by
  unfold State.modPort
  with_reducible rfl
@[simp] theorem State.modPort_jtag (n : Nat) (f : PortSt → PortSt) : (s.modPort n f).jtag = s.jtag := by
  unfold State.modPort
  with_reducible rfl
@[simp] theorem State.modPort_get (n : Nat) (f : PortSt → PortSt) (i : Nat) : (s.modPort n f).get i = s.get i := by
  unfold State.get
  rw [State.modPort_dict]
@[simp] theorem State.modPort_core (n : Nat) (f : PortSt → PortSt) (i : Nat) : (s.modPort n f).core i = s.core i := by
  unfold State.core
  rw [State.modPort_cpu]

/-! ### State.modProt -/

@[simp] theorem State.modProt_pending (f : ProtSt → ProtSt) : (s.modProt f).pending = s.pending := rfl
@[simp] theorem State.modProt_dict (f : ProtSt → ProtSt) : (s.modProt f).dict = s.dict := rfl
@[simp] theorem State.modProt_streams (f : ProtSt → ProtSt) : (s.modProt f).streams = s.streams := rfl
@[simp] theorem State.modProt_silt (f : ProtSt → ProtSt) : (s.modProt f).silt = s.silt := rfl
@[simp] theorem State.modProt_mspi (f : ProtSt → ProtSt) : (s.modProt f).mspi = s.mspi := rfl
@[simp] theorem State.modProt_host (f : ProtSt → ProtSt) : (s.modProt f).host = s.host := rfl
@[simp] theorem State.modProt_reply (f : ProtSt → ProtSt) : (s.modProt f).reply = s.reply := rfl
@[simp] theorem State.modProt_free (f : ProtSt → ProtSt) : (s.modProt f).free = s.free := rfl
@[simp] theorem State.modProt_time (f : ProtSt → ProtSt) : (s.modProt f).time = s.time := rfl
@[simp] theorem State.modProt_out (f : ProtSt → ProtSt) : (s.modProt f).out = s.out := rfl
@[simp] theorem State.modProt_cpu (f : ProtSt → ProtSt) : (s.modProt f).cpu = s.cpu := rfl
@[simp] theorem State.modProt_tmr (f : ProtSt → ProtSt) : (s.modProt f).tmr = s.tmr := rfl
@[simp] theorem State.modProt_rx (f : ProtSt → ProtSt) : (s.modProt f).rx = s.rx := rfl
@[simp] theorem State.modProt_slots (f : ProtSt → ProtSt) : (s.modProt f).slots = s.slots := rfl
@[simp] theorem State.modProt_nav (f : ProtSt → ProtSt) : (s.modProt f).nav = s.nav := rfl
@[simp] theorem State.modProt_erg (f : ProtSt → ProtSt) : (s.modProt f).erg = s.erg := rfl
@[simp] theorem State.modProt_sol (f : ProtSt → ProtSt) : (s.modProt f).sol = s.sol := rfl
@[simp] theorem State.modProt_ports (f : ProtSt → ProtSt) : (s.modProt f).ports = s.ports := rfl
@[simp] theorem State.modProt_net (f : ProtSt → ProtSt) : (s.modProt f).net = s.net := rfl
@[simp] theorem State.modProt_prot (f : ProtSt → ProtSt) : (s.modProt f).prot = f s.prot := rfl
@[simp] theorem State.modProt_lake (f : ProtSt → ProtSt) : (s.modProt f).lake = s.lake := rfl
@[simp] theorem State.modProt_reader (f : ProtSt → ProtSt) : (s.modProt f).reader = s.reader := rfl
@[simp] theorem State.modProt_power (f : ProtSt → ProtSt) : (s.modProt f).power = s.power := rfl
@[simp] theorem State.modProt_boot (f : ProtSt → ProtSt) : (s.modProt f).boot = s.boot := rfl
@[simp] theorem State.modProt_jtag (f : ProtSt → ProtSt) : (s.modProt f).jtag = s.jtag := rfl
@[simp] theorem State.modProt_get (f : ProtSt → ProtSt) (i : Nat) : (s.modProt f).get i = s.get i := rfl
@[simp] theorem State.modProt_core (f : ProtSt → ProtSt) (i : Nat) : (s.modProt f).core i = s.core i := rfl

/-! ### State.modLake -/

@[simp] theorem State.modLake_pending (f : LakeSt → LakeSt) : (s.modLake f).pending = s.pending := rfl
@[simp] theorem State.modLake_dict (f : LakeSt → LakeSt) : (s.modLake f).dict = s.dict := rfl
@[simp] theorem State.modLake_streams (f : LakeSt → LakeSt) : (s.modLake f).streams = s.streams := rfl
@[simp] theorem State.modLake_silt (f : LakeSt → LakeSt) : (s.modLake f).silt = s.silt := rfl
@[simp] theorem State.modLake_mspi (f : LakeSt → LakeSt) : (s.modLake f).mspi = s.mspi := rfl
@[simp] theorem State.modLake_host (f : LakeSt → LakeSt) : (s.modLake f).host = s.host := rfl
@[simp] theorem State.modLake_reply (f : LakeSt → LakeSt) : (s.modLake f).reply = s.reply := rfl
@[simp] theorem State.modLake_free (f : LakeSt → LakeSt) : (s.modLake f).free = s.free := rfl
@[simp] theorem State.modLake_time (f : LakeSt → LakeSt) : (s.modLake f).time = s.time := rfl
@[simp] theorem State.modLake_out (f : LakeSt → LakeSt) : (s.modLake f).out = s.out := rfl
@[simp] theorem State.modLake_cpu (f : LakeSt → LakeSt) : (s.modLake f).cpu = s.cpu := rfl
@[simp] theorem State.modLake_tmr (f : LakeSt → LakeSt) : (s.modLake f).tmr = s.tmr := rfl
@[simp] theorem State.modLake_rx (f : LakeSt → LakeSt) : (s.modLake f).rx = s.rx := rfl
@[simp] theorem State.modLake_slots (f : LakeSt → LakeSt) : (s.modLake f).slots = s.slots := rfl
@[simp] theorem State.modLake_nav (f : LakeSt → LakeSt) : (s.modLake f).nav = s.nav := rfl
@[simp] theorem State.modLake_erg (f : LakeSt → LakeSt) : (s.modLake f).erg = s.erg := rfl
@[simp] theorem State.modLake_sol (f : LakeSt → LakeSt) : (s.modLake f).sol = s.sol := rfl
@[simp] theorem State.modLake_ports (f : LakeSt → LakeSt) : (s.modLake f).ports = s.ports := rfl
@[simp] theorem State.modLake_net (f : LakeSt → LakeSt) : (s.modLake f).net = s.net := rfl
@[simp] theorem State.modLake_prot (f : LakeSt → LakeSt) : (s.modLake f).prot = s.prot := rfl
@[simp] theorem State.modLake_lake (f : LakeSt → LakeSt) : (s.modLake f).lake = f s.lake := rfl
@[simp] theorem State.modLake_reader (f : LakeSt → LakeSt) : (s.modLake f).reader = s.reader := rfl
@[simp] theorem State.modLake_power (f : LakeSt → LakeSt) : (s.modLake f).power = s.power := rfl
@[simp] theorem State.modLake_boot (f : LakeSt → LakeSt) : (s.modLake f).boot = s.boot := rfl
@[simp] theorem State.modLake_jtag (f : LakeSt → LakeSt) : (s.modLake f).jtag = s.jtag := rfl
@[simp] theorem State.modLake_get (f : LakeSt → LakeSt) (i : Nat) : (s.modLake f).get i = s.get i := rfl
@[simp] theorem State.modLake_core (f : LakeSt → LakeSt) (i : Nat) : (s.modLake f).core i = s.core i := rfl

/-! ### State.modReader -/

@[simp] theorem State.modReader_pending (f : ReaderSt → ReaderSt) : (s.modReader f).pending = s.pending := rfl
@[simp] theorem State.modReader_dict (f : ReaderSt → ReaderSt) : (s.modReader f).dict = s.dict := rfl
@[simp] theorem State.modReader_streams (f : ReaderSt → ReaderSt) : (s.modReader f).streams = s.streams := rfl
@[simp] theorem State.modReader_silt (f : ReaderSt → ReaderSt) : (s.modReader f).silt = s.silt := rfl
@[simp] theorem State.modReader_mspi (f : ReaderSt → ReaderSt) : (s.modReader f).mspi = s.mspi := rfl
@[simp] theorem State.modReader_host (f : ReaderSt → ReaderSt) : (s.modReader f).host = s.host := rfl
@[simp] theorem State.modReader_reply (f : ReaderSt → ReaderSt) : (s.modReader f).reply = s.reply := rfl
@[simp] theorem State.modReader_free (f : ReaderSt → ReaderSt) : (s.modReader f).free = s.free := rfl
@[simp] theorem State.modReader_time (f : ReaderSt → ReaderSt) : (s.modReader f).time = s.time := rfl
@[simp] theorem State.modReader_out (f : ReaderSt → ReaderSt) : (s.modReader f).out = s.out := rfl
@[simp] theorem State.modReader_cpu (f : ReaderSt → ReaderSt) : (s.modReader f).cpu = s.cpu := rfl
@[simp] theorem State.modReader_tmr (f : ReaderSt → ReaderSt) : (s.modReader f).tmr = s.tmr := rfl
@[simp] theorem State.modReader_rx (f : ReaderSt → ReaderSt) : (s.modReader f).rx = s.rx := rfl
@[simp] theorem State.modReader_slots (f : ReaderSt → ReaderSt) : (s.modReader f).slots = s.slots := rfl
@[simp] theorem State.modReader_nav (f : ReaderSt → ReaderSt) : (s.modReader f).nav = s.nav := rfl
@[simp] theorem State.modReader_erg (f : ReaderSt → ReaderSt) : (s.modReader f).erg = s.erg := rfl
@[simp] theorem State.modReader_sol (f : ReaderSt → ReaderSt) : (s.modReader f).sol = s.sol := rfl
@[simp] theorem State.modReader_ports (f : ReaderSt → ReaderSt) : (s.modReader f).ports = s.ports := rfl
@[simp] theorem State.modReader_net (f : ReaderSt → ReaderSt) : (s.modReader f).net = s.net := rfl
@[simp] theorem State.modReader_prot (f : ReaderSt → ReaderSt) : (s.modReader f).prot = s.prot := rfl
@[simp] theorem State.modReader_lake (f : ReaderSt → ReaderSt) : (s.modReader f).lake = s.lake := rfl
@[simp] theorem State.modReader_reader (f : ReaderSt → ReaderSt) : (s.modReader f).reader = f s.reader := rfl
@[simp] theorem State.modReader_power (f : ReaderSt → ReaderSt) : (s.modReader f).power = s.power := rfl
@[simp] theorem State.modReader_boot (f : ReaderSt → ReaderSt) : (s.modReader f).boot = s.boot := rfl
@[simp] theorem State.modReader_jtag (f : ReaderSt → ReaderSt) : (s.modReader f).jtag = s.jtag := rfl
@[simp] theorem State.modReader_get (f : ReaderSt → ReaderSt) (i : Nat) : (s.modReader f).get i = s.get i := rfl
@[simp] theorem State.modReader_core (f : ReaderSt → ReaderSt) (i : Nat) : (s.modReader f).core i = s.core i := rfl

/-! ### State.modPower -/

@[simp] theorem State.modPower_pending (f : PowerSt → PowerSt) : (s.modPower f).pending = s.pending := rfl
@[simp] theorem State.modPower_dict (f : PowerSt → PowerSt) : (s.modPower f).dict = s.dict := rfl
@[simp] theorem State.modPower_streams (f : PowerSt → PowerSt) : (s.modPower f).streams = s.streams := rfl
@[simp] theorem State.modPower_silt (f : PowerSt → PowerSt) : (s.modPower f).silt = s.silt := rfl
@[simp] theorem State.modPower_mspi (f : PowerSt → PowerSt) : (s.modPower f).mspi = s.mspi := rfl
@[simp] theorem State.modPower_host (f : PowerSt → PowerSt) : (s.modPower f).host = s.host := rfl
@[simp] theorem State.modPower_reply (f : PowerSt → PowerSt) : (s.modPower f).reply = s.reply := rfl
@[simp] theorem State.modPower_free (f : PowerSt → PowerSt) : (s.modPower f).free = s.free := rfl
@[simp] theorem State.modPower_time (f : PowerSt → PowerSt) : (s.modPower f).time = s.time := rfl
@[simp] theorem State.modPower_out (f : PowerSt → PowerSt) : (s.modPower f).out = s.out := rfl
@[simp] theorem State.modPower_cpu (f : PowerSt → PowerSt) : (s.modPower f).cpu = s.cpu := rfl
@[simp] theorem State.modPower_tmr (f : PowerSt → PowerSt) : (s.modPower f).tmr = s.tmr := rfl
@[simp] theorem State.modPower_rx (f : PowerSt → PowerSt) : (s.modPower f).rx = s.rx := rfl
@[simp] theorem State.modPower_slots (f : PowerSt → PowerSt) : (s.modPower f).slots = s.slots := rfl
@[simp] theorem State.modPower_nav (f : PowerSt → PowerSt) : (s.modPower f).nav = s.nav := rfl
@[simp] theorem State.modPower_erg (f : PowerSt → PowerSt) : (s.modPower f).erg = s.erg := rfl
@[simp] theorem State.modPower_sol (f : PowerSt → PowerSt) : (s.modPower f).sol = s.sol := rfl
@[simp] theorem State.modPower_ports (f : PowerSt → PowerSt) : (s.modPower f).ports = s.ports := rfl
@[simp] theorem State.modPower_net (f : PowerSt → PowerSt) : (s.modPower f).net = s.net := rfl
@[simp] theorem State.modPower_prot (f : PowerSt → PowerSt) : (s.modPower f).prot = s.prot := rfl
@[simp] theorem State.modPower_lake (f : PowerSt → PowerSt) : (s.modPower f).lake = s.lake := rfl
@[simp] theorem State.modPower_reader (f : PowerSt → PowerSt) : (s.modPower f).reader = s.reader := rfl
@[simp] theorem State.modPower_power (f : PowerSt → PowerSt) : (s.modPower f).power = f s.power := rfl
@[simp] theorem State.modPower_boot (f : PowerSt → PowerSt) : (s.modPower f).boot = s.boot := rfl
@[simp] theorem State.modPower_jtag (f : PowerSt → PowerSt) : (s.modPower f).jtag = s.jtag := rfl
@[simp] theorem State.modPower_get (f : PowerSt → PowerSt) (i : Nat) : (s.modPower f).get i = s.get i := rfl
@[simp] theorem State.modPower_core (f : PowerSt → PowerSt) (i : Nat) : (s.modPower f).core i = s.core i := rfl

/-! ### State.modBoot -/

@[simp] theorem State.modBoot_pending (f : BootSt → BootSt) : (s.modBoot f).pending = s.pending := rfl
@[simp] theorem State.modBoot_dict (f : BootSt → BootSt) : (s.modBoot f).dict = s.dict := rfl
@[simp] theorem State.modBoot_streams (f : BootSt → BootSt) : (s.modBoot f).streams = s.streams := rfl
@[simp] theorem State.modBoot_silt (f : BootSt → BootSt) : (s.modBoot f).silt = s.silt := rfl
@[simp] theorem State.modBoot_mspi (f : BootSt → BootSt) : (s.modBoot f).mspi = s.mspi := rfl
@[simp] theorem State.modBoot_host (f : BootSt → BootSt) : (s.modBoot f).host = s.host := rfl
@[simp] theorem State.modBoot_reply (f : BootSt → BootSt) : (s.modBoot f).reply = s.reply := rfl
@[simp] theorem State.modBoot_free (f : BootSt → BootSt) : (s.modBoot f).free = s.free := rfl
@[simp] theorem State.modBoot_time (f : BootSt → BootSt) : (s.modBoot f).time = s.time := rfl
@[simp] theorem State.modBoot_out (f : BootSt → BootSt) : (s.modBoot f).out = s.out := rfl
@[simp] theorem State.modBoot_cpu (f : BootSt → BootSt) : (s.modBoot f).cpu = s.cpu := rfl
@[simp] theorem State.modBoot_tmr (f : BootSt → BootSt) : (s.modBoot f).tmr = s.tmr := rfl
@[simp] theorem State.modBoot_rx (f : BootSt → BootSt) : (s.modBoot f).rx = s.rx := rfl
@[simp] theorem State.modBoot_slots (f : BootSt → BootSt) : (s.modBoot f).slots = s.slots := rfl
@[simp] theorem State.modBoot_nav (f : BootSt → BootSt) : (s.modBoot f).nav = s.nav := rfl
@[simp] theorem State.modBoot_erg (f : BootSt → BootSt) : (s.modBoot f).erg = s.erg := rfl
@[simp] theorem State.modBoot_sol (f : BootSt → BootSt) : (s.modBoot f).sol = s.sol := rfl
@[simp] theorem State.modBoot_ports (f : BootSt → BootSt) : (s.modBoot f).ports = s.ports := rfl
@[simp] theorem State.modBoot_net (f : BootSt → BootSt) : (s.modBoot f).net = s.net := rfl
@[simp] theorem State.modBoot_prot (f : BootSt → BootSt) : (s.modBoot f).prot = s.prot := rfl
@[simp] theorem State.modBoot_lake (f : BootSt → BootSt) : (s.modBoot f).lake = s.lake := rfl
@[simp] theorem State.modBoot_reader (f : BootSt → BootSt) : (s.modBoot f).reader = s.reader := rfl
@[simp] theorem State.modBoot_power (f : BootSt → BootSt) : (s.modBoot f).power = s.power := rfl
@[simp] theorem State.modBoot_boot (f : BootSt → BootSt) : (s.modBoot f).boot = f s.boot := rfl
@[simp] theorem State.modBoot_jtag (f : BootSt → BootSt) : (s.modBoot f).jtag = s.jtag := rfl
@[simp] theorem State.modBoot_get (f : BootSt → BootSt) (i : Nat) : (s.modBoot f).get i = s.get i := rfl
@[simp] theorem State.modBoot_core (f : BootSt → BootSt) (i : Nat) : (s.modBoot f).core i = s.core i := rfl

/-! ### State.modMspi -/

@[simp] theorem State.modMspi_pending (f : MspiSt → MspiSt) : (s.modMspi f).pending = s.pending := rfl
@[simp] theorem State.modMspi_dict (f : MspiSt → MspiSt) : (s.modMspi f).dict = s.dict := rfl
@[simp] theorem State.modMspi_streams (f : MspiSt → MspiSt) : (s.modMspi f).streams = s.streams := rfl
@[simp] theorem State.modMspi_silt (f : MspiSt → MspiSt) : (s.modMspi f).silt = s.silt := rfl
@[simp] theorem State.modMspi_mspi (f : MspiSt → MspiSt) : (s.modMspi f).mspi = f s.mspi := rfl
@[simp] theorem State.modMspi_host (f : MspiSt → MspiSt) : (s.modMspi f).host = s.host := rfl
@[simp] theorem State.modMspi_reply (f : MspiSt → MspiSt) : (s.modMspi f).reply = s.reply := rfl
@[simp] theorem State.modMspi_free (f : MspiSt → MspiSt) : (s.modMspi f).free = s.free := rfl
@[simp] theorem State.modMspi_time (f : MspiSt → MspiSt) : (s.modMspi f).time = s.time := rfl
@[simp] theorem State.modMspi_out (f : MspiSt → MspiSt) : (s.modMspi f).out = s.out := rfl
@[simp] theorem State.modMspi_cpu (f : MspiSt → MspiSt) : (s.modMspi f).cpu = s.cpu := rfl
@[simp] theorem State.modMspi_tmr (f : MspiSt → MspiSt) : (s.modMspi f).tmr = s.tmr := rfl
@[simp] theorem State.modMspi_rx (f : MspiSt → MspiSt) : (s.modMspi f).rx = s.rx := rfl
@[simp] theorem State.modMspi_slots (f : MspiSt → MspiSt) : (s.modMspi f).slots = s.slots := rfl
@[simp] theorem State.modMspi_nav (f : MspiSt → MspiSt) : (s.modMspi f).nav = s.nav := rfl
@[simp] theorem State.modMspi_erg (f : MspiSt → MspiSt) : (s.modMspi f).erg = s.erg := rfl
@[simp] theorem State.modMspi_sol (f : MspiSt → MspiSt) : (s.modMspi f).sol = s.sol := rfl
@[simp] theorem State.modMspi_ports (f : MspiSt → MspiSt) : (s.modMspi f).ports = s.ports := rfl
@[simp] theorem State.modMspi_net (f : MspiSt → MspiSt) : (s.modMspi f).net = s.net := rfl
@[simp] theorem State.modMspi_prot (f : MspiSt → MspiSt) : (s.modMspi f).prot = s.prot := rfl
@[simp] theorem State.modMspi_lake (f : MspiSt → MspiSt) : (s.modMspi f).lake = s.lake := rfl
@[simp] theorem State.modMspi_reader (f : MspiSt → MspiSt) : (s.modMspi f).reader = s.reader := rfl
@[simp] theorem State.modMspi_power (f : MspiSt → MspiSt) : (s.modMspi f).power = s.power := rfl
@[simp] theorem State.modMspi_boot (f : MspiSt → MspiSt) : (s.modMspi f).boot = s.boot := rfl
@[simp] theorem State.modMspi_jtag (f : MspiSt → MspiSt) : (s.modMspi f).jtag = s.jtag := rfl
@[simp] theorem State.modMspi_get (f : MspiSt → MspiSt) (i : Nat) : (s.modMspi f).get i = s.get i := rfl
@[simp] theorem State.modMspi_core (f : MspiSt → MspiSt) (i : Nat) : (s.modMspi f).core i = s.core i := rfl

end Sys2Proof.Machine
end

