-- ==== Sys2Proof/Laws/Vuvan.lean ====
section
/-!
SUPPORT. What issuing an instruction does, once for all instructions; the bits of ST; replacing a core.
-/

namespace Sys2Proof.Machine

variable {s : State} {i : Issue} {op : VOp}

/-! ### Cores -/

theorem vecMod_self {α : Type} {n : Nat} (v : Vector α n) (c : Nat) (f : α → α) (g : α → α) :
    vecMod (vecMod v c f) c g = vecMod v c fun x => g (f x) := by
  unfold vecMod
  by_cases h : c < n
  · rw [Vector.getElem?_eq_getElem h]
    simp [h]
  · rw [Vector.getElem?_eq_none (by omega)]
    simp [Vector.getElem?_eq_none (show n ≤ c by omega)]

theorem vecMod_getD {α : Type} {n : Nat} (v : Vector α n) (c : Nat) (f : α → α) (d : α) (h : c < n) :
    (vecMod v c f).getD c d = f (v.getD c d) := by
  unfold vecMod
  rw [Vector.getElem?_eq_getElem h]
  simp [Vector.getD, h]

theorem vecMod_getD_other {α : Type} {n : Nat} (v : Vector α n) (c e : Nat) (f : α → α) (d : α) (h : e ≠ c) :
    (vecMod v c f).getD e d = v.getD e d := by
  unfold vecMod
  by_cases hc : c < n
  · rw [Vector.getElem?_eq_getElem hc]
    by_cases he : e < n
    · simp [Vector.getD, he, Ne.symm h]
    · simp [Vector.getD, he]
  · rw [Vector.getElem?_eq_none (by omega)]

theorem vecMod_const {α : Type} {n : Nat} (v : Vector α n) (c : Nat) (f : α → α) (d : α) (h : c < n) :
    vecMod v c f = vecMod v c fun _ => f (v.getD c d) := by
  unfold vecMod
  rw [Vector.getElem?_eq_getElem h]
  simp [Vector.getD, h]

@[simp] theorem State.modCore_modCore (s : State) (c : Nat) (f g : CoreSt → CoreSt) :
    (s.modCore c f).modCore c g = s.modCore c fun k => g (f k) := by
  simp only [State.modCore, vecMod_self]

/-- A change of a core is the core changed put in its place. -/
theorem State.modCore_const (s : State) (c : Nat) (f : CoreSt → CoreSt) (h : c < 4) :
    s.modCore c f = s.modCore c fun _ => f (s.core c) := by
  unfold State.modCore State.core
  rw [vecMod_const _ _ f CoreSt.reset h]

theorem State.modCore_core_same (s : State) (c : Nat) (f : CoreSt → CoreSt) (h : c < 4) :
    (s.modCore c f).core c = f (s.core c) := vecMod_getD _ _ _ _ h

theorem State.modCore_core_other (s : State) (c e : Nat) (f : CoreSt → CoreSt) (h : e ≠ c) :
    (s.modCore c f).core e = s.core e := vecMod_getD_other _ _ _ _ _ h

theorem CoreSt.land1_st (k : CoreSt) (e : Exposed) : (k.land1 e).st = k.st := by
  unfold CoreSt.land1
  dsimp only
  split <;> split <;> rfl

theorem CoreSt.landWhere_st (k : CoreSt) (p : Exposed → Bool) : (k.landWhere p).st = k.st := by
  unfold CoreSt.landWhere
  dsimp only
  generalize k.exposed.filter p = l
  have h : ∀ (l : List Exposed) (k : CoreSt), (l.foldl CoreSt.land1 k).st = k.st := by
    intro l
    induction l with
    | nil => intro _; rfl
    | cons a l ih => intro k; rw [List.foldl_cons, ih, CoreSt.land1_st]
  rw [h]

/-! ### Issue -/

theorem Ready.core_lt (h : Ready s i op) : i.core < 4 := by
  have h1 := h.1
  unfold State.coreActive at h1
  simp only [Bool.and_eq_true, decide_eq_true_eq] at h1
  exact h1.1.1.1.1

/-- The boundary before an instruction at which no trap is due. -/
theorem Ready.boundary (h : Ready s i op) :
    (s.reach (s.time.t0 + i.at_)).boundary i.core = (s.with_ i (s.found i), false) := by
  have hc := h.core_lt
  unfold State.boundary State.with_
  dsimp only
  rw [State.modCore_const _ _ _ hc, State.modCore_core_same _ _ _ hc]
  have ht : (s.found i).trapDue = false := h.2.2.2.2.2
  rw [if_neg (by
    show ¬ (s.found i).trapDue = true
    rw [ht]
    simp)]
  rfl

theorem State.with_core (s : State) (i : Issue) (k : CoreSt) (h : i.core < 4) : (s.with_ i k).core i.core = k :=
  State.modCore_core_same _ _ _ h

theorem State.with_modCore (s : State) (i : Issue) (k : CoreSt) (f : CoreSt → CoreSt) :
    (s.with_ i k).modCore i.core f = s.with_ i (f k) := by
  unfold State.with_
  rw [State.modCore_modCore]

theorem State.with_userMode (s : State) (i : Issue) (k : CoreSt) (h : i.core < 4) :
    (s.with_ i k).userMode i.core = (i.core == 3 && stUser k.st) := by
  unfold State.userMode
  rw [State.with_core _ _ _ h]

theorem State.with_found_userMode (s : State) (i : Issue) (h : i.core < 4) :
    (s.with_ i (s.found i)).userMode i.core = s.userMode i.core := by
  rw [State.with_userMode _ _ _ h]
  unfold State.found State.userMode
  rw [CoreSt.landWhere_st]

/-- What an instruction that changes no flow, or does so away from a loop end, does: its effect, or its trap. -/
theorem State.vuvan_ready (want : VOp → Bool) (h : Ready s i op) (hw : want op = true)
    (hf : vFlow op i.w = false ∨ OffLoopEnd s i) :
    s.vuvan i want (fun s => s.issue i.core i.w i.x) =
      match (s.with_ i ((s.found i).passed (if vHasExt op i.w then 2 else 1) (vCycles op i.w))).vEffect i.core (s.found i).shadow
          (s.found i).cyc (s.found i).pcx op i.w i.x with
      | .error t => (s.with_ i (s.found i)).takeTrap i.core t (s.found i).pcx (s.found i).pcx
      | .ok t => t.modCore i.core fun k => k.loopEnd (s.found i).shadow (s.found i).pcx := by
  obtain ⟨h1, h2, h3, h4, h5, h6⟩ := id h
  have hc := h.core_lt
  unfold State.vuvan
  rw [if_pos (by rw [h1, h2]; simpa using hw)]
  rw [h.boundary]
  simp only [Bool.false_eq_true, if_false]
  unfold State.issue
  dsimp only
  rw [State.with_core _ _ _ hc, State.with_found_userMode _ _ hc, h4, h2]
  simp only [Bool.not_true, Bool.false_eq_true, if_false]
  rw [h3]
  simp only [Bool.false_eq_true, if_false]
  have he : (vHasExt op i.w && !canFetch (s.userMode i.core) ((s.found i).pcx + 1).toNat) = false := by
    by_cases hx : vHasExt op i.w = true
    · rw [h5 hx]; simp
    · simp [hx]
  rw [he]
  simp only [Bool.false_eq_true, if_false]
  have hl : (vFlow op i.w && (s.found i).atLoopEnd (s.found i).shadow (s.found i).pcx) = false := by
    rcases hf with hf | hf
    · rw [hf]; rfl
    · rw [hf]; simp
  rw [hl]
  simp only [Bool.false_eq_true, if_false]
  unfold State.runOnce
  dsimp only
  rw [State.with_core _ _ _ hc, State.with_modCore]
  unfold CoreSt.passed
  by_cases hx : vHasExt op i.w = true
  · simp only [hx, if_true]
    rfl
  · simp only [hx]
    rfl

/-- An ALU instruction (R467). -/
theorem State.vuvan_alu {o : Alu} {imm : Bool} (h : Ready s i (.alu o imm)) :
    s.vuvan i (VOp.isAlu o) (fun s => s.issue i.core i.w i.x) =
      s.done i (((s.found i).aluPassed imm).aluRun (s.found i).cyc (s.found i).pcx o (fld i.w 17 14) ((s.found i).gOf i.w 13 10)
        ((s.found i).bOf i imm)) := by
  rw [State.vuvan_ready _ h (by simp [VOp.isAlu]) (Or.inl rfl)]
  unfold State.vEffect
  dsimp only
  rw [State.with_core _ _ _ h.core_lt, State.with_modCore, State.with_modCore]
  cases imm <;> rfl

theorem CoreSt.aluPassed_st (k : CoreSt) (imm : Bool) : (k.aluPassed imm).st = k.st := by cases imm <;> rfl
theorem CoreSt.aluPassed_g (k : CoreSt) (imm : Bool) : (k.aluPassed imm).g = k.g := by cases imm <;> rfl
theorem CoreSt.aluPassed_exposed (k : CoreSt) (imm : Bool) : (k.aluPassed imm).exposed = k.exposed := by cases imm <;> rfl

/-- The operations that write GD and ST, and nothing else. -/
theorem State.vuvan_aluWrite {o : Alu} {imm : Bool} {k : CoreSt} {a b : Word} {r : Word × Word} (hk : s.found i = k)
    (ha : k.gOf i.w 13 10 = a) (hb : k.bOf i imm = b) (h : Ready s i (.alu o imm)) (hr : alu o k.st a b = r)
    (ho : ∀ (x : CoreSt) t pc gd a b, x.aluRun t pc o gd a b =
      { x with g := vecMod x.g gd fun _ => (alu o x.st a b).1, st := (alu o x.st a b).2 }) :
    s.vuvan i (VOp.isAlu o) (fun s => s.issue i.core i.w i.x) = s.done i ((k.aluPassed imm).wrote i.w r.1 r.2) := by
  rw [State.vuvan_alu h, ho, hk, CoreSt.aluPassed_st, ha, hb, hr]
  rfl

/-- The operations that write ST alone. -/
theorem State.vuvan_aluFlags {o : Alu} {imm : Bool} {k : CoreSt} {a b st : Word} (hk : s.found i = k)
    (ha : k.gOf i.w 13 10 = a) (hb : k.bOf i imm = b) (h : Ready s i (.alu o imm)) (hr : (alu o k.st a b).2 = st)
    (ho : ∀ (x : CoreSt) t pc gd a b, x.aluRun t pc o gd a b = { x with st := (alu o x.st a b).2 }) :
    s.vuvan i (VOp.isAlu o) (fun s => s.issue i.core i.w i.x) = s.done i { k.aluPassed imm with st := st } := by
  rw [State.vuvan_alu h, ho, hk, CoreSt.aluPassed_st, ha, hb, hr]

/-- An accumulator instruction (R471). -/
theorem State.vuvan_acc {o : AccOp} (h : Ready s i (.acc o)) :
    s.vuvan i (VOp.isAcc o) (fun s => s.issue i.core i.w i.x) = s.done i (((s.found i).passed 1 1).accRun o i.w) := by
  rw [State.vuvan_ready _ h (by simp [VOp.isAcc]) (Or.inl rfl)]
  unfold State.vEffect
  dsimp only
  rw [State.with_modCore, State.with_modCore]
  rfl

/-- A floating-point instruction (R478). -/
theorem State.vuvan_fp {o : FOp} (h : Ready s i (.fp o)) :
    s.vuvan i (VOp.isFp o) (fun s => s.issue i.core i.w i.x) =
      s.done i (((s.found i).passed 1 1).fpRun (s.found i).cyc (s.found i).pcx o i.w) := by
  rw [State.vuvan_ready _ h (by simp [VOp.isFp]) (Or.inl rfl)]
  unfold State.vEffect
  dsimp only
  rw [State.with_modCore, State.with_modCore]
  rfl

/-- A conversion (R479). -/
theorem State.vuvan_fcv {o : FConv} (h : Ready s i (.fcv o)) :
    s.vuvan i (VOp.isFcv o) (fun s => s.issue i.core i.w i.x) =
      s.done i (((s.found i).passed 1 (vCycles (.fcv o) i.w)).fcvRun (s.found i).cyc (s.found i).pcx o i.w) := by
  rw [State.vuvan_ready _ h (by simp [VOp.isFcv]) (Or.inl rfl)]
  unfold State.vEffect
  dsimp only
  rw [State.with_modCore, State.with_modCore]
  rfl

/-! ### ST -/

theorem stBit_stPut (st : Word) (n j : Nat) (b : Bool) (hn : n < 24) :
    stBit (stPut st n b) j = if j = n then b else stBit st j := by
  unfold stPut stBit
  cases b
  · simp only [Bool.false_eq_true, if_false, BitVec.getLsbD_and, BitVec.getLsbD_not, BitVec.getLsbD_twoPow]
    by_cases h : j = n
    · subst h; simp [hn]
    · by_cases hj : j < 24
      · simp [h, hj, Ne.symm h]
      · simp [h, hj, BitVec.getLsbD_of_ge st j (by omega)]
  · simp only [if_true, BitVec.getLsbD_or, BitVec.getLsbD_twoPow]
    by_cases h : j = n
    · subst h; simp [hn]
    · simp [h, Ne.symm h]

theorem stBit_stC (st : Word) (b : Bool) (j : Nat) : stBit (stC st b) j = if j = 0 then b else stBit st j :=
  stBit_stPut st 0 j b (by decide)

theorem stBit_stV (st : Word) (b : Bool) (j : Nat) :
    stBit (stV st b) j = if j = 1 then b else if j = 4 then (stBit st 4 || b) else stBit st j := by
  unfold stV
  cases b
  · simp only [Bool.false_eq_true, if_false, Bool.or_false]
    rw [stBit_stPut _ _ _ _ (by decide)]
    by_cases h : j = 4
    · subst h; simp
    · simp [h]
  · simp only [if_true, Bool.or_true]
    rw [stBit_stPut _ _ _ _ (by decide), stBit_stPut _ _ _ _ (by decide)]
    by_cases h : j = 1
    · subst h; simp
    · simp [h]

theorem stBit_stZN (st : Word) (z n : Bool) (j : Nat) :
    stBit (stZN st z n) j = if j = 2 then n else if j = 3 then z else stBit st j := by
  unfold stZN
  rw [stBit_stPut _ _ _ _ (by decide), stBit_stPut _ _ _ _ (by decide)]

theorem stBit_stZ (st : Word) (z : Bool) (j : Nat) : stBit (stZ st z) j = if j = 3 then z else stBit st j :=
  stBit_stPut st 3 j z (by decide)

theorem StAs.arith (st : Word) (z n v c : Bool) :
    StAs st (stC (stV (stZN st z n) v) c) (some c) (some v) (some n) (some z) none := by
  constructor <;> simp [stBit_stC, stBit_stV, stBit_stZN]
  intro j hj
  have h : j ≠ 0 ∧ j ≠ 1 ∧ j ≠ 4 ∧ j ≠ 2 ∧ j ≠ 3 := by omega
  simp [h]

theorem StAs.logic (st : Word) (z n v : Bool) :
    StAs st (stV (stZN st z n) v) none (some v) (some n) (some z) none := by
  constructor <;> simp [stBit_stV, stBit_stZN]
  intro j hj
  have h : j ≠ 1 ∧ j ≠ 4 ∧ j ≠ 2 ∧ j ≠ 3 := by omega
  simp [h]

theorem StAs.zn (st : Word) (z n : Bool) : StAs st (stZN st z n) none none (some n) (some z) none := by
  constructor <;> simp [stBit_stZN]
  intro j hj
  have h : j ≠ 2 ∧ j ≠ 3 := by omega
  simp [h]

theorem StAs.z (st : Word) (z : Bool) : StAs st (stZ st z) none none none (some z) none := by
  constructor <;> simp [stBit_stZ]
  intro j hj
  have h : j ≠ 3 := by omega
  simp [h]

theorem StAs.v (st : Word) (v : Bool) : StAs st (stV st v) none (some v) none none none := by
  constructor <;> simp [stBit_stV]
  intro j hj
  have h : j ≠ 1 ∧ j ≠ 4 := by omega
  simp [h]

theorem StAs.c (st : Word) (c : Bool) : StAs st (stC st c) (some c) none none none none := by
  constructor <;> simp [stBit_stC]
  intro j hj
  have h : j ≠ 0 := by omega
  simp [h]

theorem StAs.znc (st : Word) (z n c : Bool) : StAs st (stC (stZN st z n) c) (some c) none (some n) (some z) none := by
  constructor <;> simp [stBit_stZN, stBit_stC]
  intro j hj
  have h : j ≠ 0 ∧ j ≠ 2 ∧ j ≠ 3 := by omega
  simp [h]

theorem StAs.refl (st : Word) : StAs st st none none none none none := by
  constructor <;> simp

/-! ### Limiting -/

/-- R430 for a word. -/
theorem fit24_fits (sat : Bool) (x : Int) : Fits24 sat x (fit24 sat x).1 (fit24 sat x).2 := by
  unfold fit24
  constructor
  · intro h1 h2
    have h3 : ¬ x < -8388608 := by omega
    have h4 : ¬ 8388607 < x := by omega
    simp only [h3, h4, decide_false, Bool.or_false, Bool.and_false, Bool.false_eq_true, if_false, and_true]
    rw [BitVec.toInt_ofInt]
    exact Int.bmod_eq_of_le (by omega) (by omega)
  · intro h1
    have h3 : ¬ x < -8388608 := by omega
    simp only [h3, h1, decide_false, decide_true, Bool.or_true, Bool.and_true, true_and]
    intro hs
    simp only [hs, if_true, clamp, h3, h1, if_false]
    rfl
  · intro h1
    have h3 : ¬ 8388607 < x := by omega
    simp only [h3, h1, decide_false, decide_true, Bool.or_false, Bool.and_true, true_and]
    intro hs
    simp only [hs, if_true, clamp, h1]
    rfl
  · intro hs
    simp [hs]

/-- R430 for an accumulator. -/
theorem fit56_fits (sat : Bool) (x : Int) : Fits56 sat x (fit56 sat x).1 (fit56 sat x).2 := by
  unfold fit56
  constructor
  · intro hs
    have hl : lim48 x = max (-140737488355328) (min 140737488355327 x) := by
      unfold lim48 clamp
      split
      · omega
      · split <;> omega
    have ht : (BitVec.ofInt 56 (lim48 x)).toInt = lim48 x := by
      rw [BitVec.toInt_ofInt]
      exact Int.bmod_eq_of_le (by omega) (by omega)
    simp only [hs, if_true, ht, decide_eq_true_eq]
    exact ⟨hl, trivial⟩
  · intro hs
    simp [hs]

end Sys2Proof.Machine
end

