-- ==== Sys2Proof/Laws/Entry.lean ====
section
/-!
SUPPORT. The words of a core's plain memory; pushes, and entry to a vector.
-/

namespace Sys2Proof.Machine

variable {s t : State} {c : Nat}

/-- The memories of a state hold their canonical form. -/
theorem State.mem_wf (h : s.cpu.MemOk) (hc : c < 4) : SMap.wf (fun _ => (0 : Word)) (s.core c).mem = true := by
  have := h.2 ⟨c, hc⟩
  unfold State.core
  simpa [Vector.getD, hc] using this

theorem State.modCore_shared (s : State) (c : Nat) (f : CoreSt → CoreSt) : (s.modCore c f).cpu.shared = s.cpu.shared := rfl

/-- A change of a core that keeps its local memory keeps every word. -/
theorem State.plainGet_modCore (s : State) (c a : Nat) (f : CoreSt → CoreSt) (hc : c < 4)
    (h : (f (s.core c)).mem = (s.core c).mem) : (s.modCore c f).plainGet c a = s.plainGet c a := by
  unfold State.plainGet
  rw [State.modCore_core_same _ _ _ hc, h]
  rfl

/-- A word of plain memory just written. -/
theorem State.plainGet_plainSet (s : State) (c a : Nat) (w : Word) (hc : c < 4) (h : s.cpu.MemOk) :
    (s.plainSet c a w).plainGet c a = w := by
  unfold State.plainGet State.plainSet
  by_cases ha : a ≤ 0xFFFF
  · rw [if_pos ha, if_pos ha, State.modCore_core_same _ _ _ hc]
    exact SMap.get_set_same _ 0 a w _ (State.mem_wf h hc)
  · rw [if_neg ha, if_neg ha]
    exact SMap.get_set_same _ 0 a w _ h.1

/-- Every other word is as it was. -/
theorem State.plainGet_plainSet_other (s : State) (c a b : Nat) (w : Word) (hc : c < 4) (h : s.cpu.MemOk) (hb : b ≠ a) :
    (s.plainSet c a w).plainGet c b = s.plainGet c b := by
  unfold State.plainGet State.plainSet
  by_cases ha : a ≤ 0xFFFF
  · rw [if_pos ha]
    by_cases hb' : b ≤ 0xFFFF
    · rw [if_pos hb', if_pos hb', State.modCore_core_same _ _ _ hc]
      exact SMap.get_set_other 0 0 a b w _ _ hb (State.mem_wf h hc)
    · rw [if_neg hb', if_neg hb']
      rfl
  · rw [if_neg ha]
    by_cases hb' : b ≤ 0xFFFF
    · rw [if_pos hb', if_pos hb']
      rfl
    · rw [if_neg hb', if_neg hb']
      exact SMap.get_set_other 0 0 a b w _ _ hb h.1

/-- A core and its words of memory after a word is written: every register is as it was. -/
theorem State.plainSet_core (s : State) (c a : Nat) (w : Word) (hc : c < 4) :
    (s.plainSet c a w).core c = { s.core c with mem := ((s.plainSet c a w).core c).mem } := by
  unfold State.plainSet
  by_cases ha : a ≤ 0xFFFF
  · rw [if_pos ha, State.modCore_core_same _ _ _ hc]
  · rw [if_neg ha]
    rfl

theorem State.plainSet_core_other (s : State) (c e a : Nat) (w : Word) (h : e ≠ c) : (s.plainSet c a w).core e = s.core e := by
  unfold State.plainSet
  by_cases ha : a ≤ 0xFFFF
  · rw [if_pos ha, State.modCore_core_other _ _ _ _ h]
  · rw [if_neg ha]
    rfl

theorem State.modCore_memOk (s : State) (c : Nat) (f : CoreSt → CoreSt) (h : s.cpu.MemOk)
    (hf : SMap.wf (fun _ => (0 : Word)) (f (s.core c)).mem = true) : (s.modCore c f).cpu.MemOk := by
  refine ⟨h.1, fun i => ?_⟩
  have e : ∀ x : State, x.cpu.core[i.val] = x.core i.val := by
    intro x
    unfold State.core
    simp [Vector.getD]
  show SMap.wf _ (s.modCore c f).cpu.core[i.val].mem = true
  rw [e]
  by_cases hi : i.val = c
  · rw [hi, State.modCore_core_same s c f (hi ▸ i.isLt)]
    exact hf
  · rw [State.modCore_core_other s c i.val f hi, ← e]
    exact h.2 i

theorem State.plainSet_memOk (s : State) (c a : Nat) (w : Word) (hc : c < 4) (h : s.cpu.MemOk) :
    (s.plainSet c a w).cpu.MemOk := by
  unfold State.plainSet
  by_cases ha : a ≤ 0xFFFF
  · rw [if_pos ha]
    exact State.modCore_memOk s c _ h (SMap.wf_set _ 0 a w rfl _ (State.mem_wf h hc))
  · rw [if_neg ha]
    exact ⟨SMap.wf_set _ 0 a w rfl _ h.1, h.2⟩

/-- A push with room for its word, in memory the core may write. -/
theorem State.push_ok (s : State) (c : Nat) (w : Word) (hc : c < 4)
    (hp : plainRw (s.userMode c) ((s.core c).sp - 1).toNat = true)
    (hl : (s.core c).stackLow.toNat ≤ ((s.core c).sp - 1).toNat) :
    ∃ t, s.push c w = .ok t ∧ (t.core c).sp = (s.core c).sp - 1 ∧
      (∃ m n, t.core c = { s.core c with sp := (s.core c).sp - 1, mem := m, cyc := n }) ∧
      (s.cpu.MemOk → t.cpu.MemOk ∧ t.plainGet c ((s.core c).sp - 1).toNat = w ∧
        ∀ a, a ≠ ((s.core c).sp - 1).toNat → t.plainGet c a = s.plainGet c a) ∧
      (∀ e, e ≠ c → t.core e = s.core e) := by
  unfold State.push State.writeWord
  dsimp only
  rw [if_neg (by omega)]
  have hu : ∀ f : CoreSt → CoreSt, (f (s.core c)).st = (s.core c).st → (s.modCore c f).userMode c = s.userMode c := by
    intro f hf
    unfold State.userMode
    rw [State.modCore_core_same _ _ _ hc, hf]
  rw [hu _ rfl, if_pos hp]
  dsimp only
  generalize hq : accessCycles ((s.core c).sp - 1).toNat = q
  have hcore := State.modCore_core_same s c (fun k => { k with cyc := k.cyc + q }) hc
  refine ⟨_, rfl, ?_, ?_, ?_, ?_⟩
  · rw [State.modCore_core_same _ _ _ hc]
  · rw [State.modCore_core_same _ _ _ hc, State.plainSet_core _ _ _ _ hc, hcore]
    exact ⟨_, _, rfl⟩
  · intro h
    have h1 : (s.modCore c fun k => { k with cyc := k.cyc + q }).cpu.MemOk := State.modCore_memOk _ _ _ h (State.mem_wf h hc)
    have h2 := State.plainSet_memOk _ c ((s.core c).sp - 1).toNat w hc h1
    refine ⟨State.modCore_memOk _ _ _ h2 (State.mem_wf h2 hc), ?_, ?_⟩
    · rw [State.plainGet_modCore _ _ _ _ hc rfl, State.plainGet_plainSet _ _ _ _ hc h1]
    · intro a ha
      rw [State.plainGet_modCore _ _ _ _ hc rfl, State.plainGet_plainSet_other _ _ _ _ _ hc h1 ha,
        State.plainGet_modCore _ _ _ _ hc rfl]
  · intro e he
    rw [State.modCore_core_other _ _ _ _ he, State.plainSet_core_other _ _ _ _ _ he, State.modCore_core_other _ _ _ _ he]

theorem stLd_extract (st : Word) : stLd st = (st.extractLsb' 8 3).toNat := by
  unfold stLd
  rw [BitVec.extractLsb'_toNat, Nat.shiftRight_eq_div_pow]

theorem stLd_of_bits (a b : Word) (h : ∀ j, 8 ≤ j → j ≤ 10 → stBit a j = stBit b j) : stLd a = stLd b := by
  rw [stLd_extract, stLd_extract]
  congr 1
  apply BitVec.eq_of_getLsbD_eq
  intro j hj
  simp only [BitVec.getLsbD_extractLsb']
  have := h (8 + j) (by omega) (by omega)
  unfold stBit at this
  rw [this]

theorem stLd_stPut (st : Word) (n : Nat) (b : Bool) (hn : n < 8 ∨ 10 < n) (h : n < 24) : stLd (stPut st n b) = stLd st := by
  apply stLd_of_bits
  intro j h1 h2
  rw [stBit_stPut _ _ _ _ h, if_neg (by omega)]

theorem stLd_stSetLd (st : Word) (n : Nat) : stLd (stSetLd st n) = n % 8 := by
  have hn : n % 8 < 8 := Nat.mod_lt _ (by decide)
  have h : stLd (stSetLd st n) = stLd (BitVec.ofNat 24 (n % 8 * 256)) := by
    apply stLd_of_bits
    intro j h1 h2
    unfold stBit stSetLd
    have : ∀ j : Fin 24, 8 ≤ j.val → j.val ≤ 10 → (~~~(0x000700 : Word)).getLsbD j.val = false := by decide
    have := this ⟨j, by omega⟩ h1 h2
    dsimp only at this
    rw [BitVec.getLsbD_or, BitVec.getLsbD_and, this]
    simp
  rw [h]
  unfold stLd
  rw [BitVec.toNat_ofNat]
  omega

theorem stBit_stSetLd (st : Word) (n j : Nat) (hj : j < 8 ∨ 10 < j) : stBit (stSetLd st n) j = stBit st j := by
  unfold stBit stSetLd
  have hn : n % 8 < 8 := Nat.mod_lt _ (by decide)
  generalize n % 8 = m at hn
  by_cases h : j < 24
  · have : ∀ (m : Fin 8) (j : Fin 24), j.val < 8 ∨ 10 < j.val →
        (~~~(0x000700 : Word)).getLsbD j.val = true ∧ (BitVec.ofNat 24 (m.val * 256)).getLsbD j.val = false := by decide
    have := this ⟨m, hn⟩ ⟨j, h⟩ hj
    simp only [BitVec.getLsbD_or, BitVec.getLsbD_and]
    dsimp only at this
    rw [this.1, this.2]
    simp
  · rw [BitVec.getLsbD_of_ge _ _ (by omega), BitVec.getLsbD_of_ge _ _ (by omega)]

/-- Entry to a vector, where the stack has room (R442). -/
theorem State.vectorEntry_ok (s : State) (c : Nat) (pc : Word) (v : Nat) (keepU : Bool) (hc : c < 4) (hm : s.cpu.MemOk)
    (hr : EntryRoom (s.core c) (s.userMode c)) :
    ∃ t, s.vectorEntry c pc (BitVec.ofNat 24 v) keepU = some t ∧ Entry s t c (s.core c) pc v ∧
      stUser (t.core c).st = (keepU && stUser (s.core c).st) ∧ (t.core c).waiting = false ∧
      (t.core c).intPending = (s.core c).intPending ∧ (t.core c).trapPc = (s.core c).trapPc ∧
      (t.core c).trapCause = (s.core c).trapCause ∧ (t.core c).fpuDue = (s.core c).fpuDue ∧
      (t.core c).budgetDue = (s.core c).budgetDue := by
  obtain ⟨h1, h2, h3, h4⟩ := hr
  have e2 : (s.core c).sp - 2 = (s.core c).sp - 1 - 1 := by
    rw [BitVec.sub_sub]
    rfl
  rw [e2] at h2 h4
  obtain ⟨p, hp, hp1, ⟨m, n, hpc⟩, hp3, hp4⟩ := s.push_ok c pc hc h1 h3
  obtain ⟨hpm, hpw, hpo⟩ := hp3 hm
  have hu : p.userMode c = s.userMode c := by unfold State.userMode; rw [hpc]
  obtain ⟨q, hq, hq1, ⟨m', n', hqc⟩, hq3, hq4⟩ := p.push_ok c (p.core c).stRead hc (by rw [hu, hp1]; exact h2)
    (by rw [hp1, hpc]; exact h4)
  obtain ⟨hqm, hqw, hqo⟩ := hq3 hpm
  have hne : ((s.core c).sp - 1).toNat ≠ ((s.core c).sp - 1 - 1).toNat := by bv_omega
  have hst : (p.core c).stRead = (s.core c).stRead := by rw [hpc]; rfl
  rw [hp1, hst] at hqw
  rw [hst] at hq
  rw [hp1] at hqo
  unfold State.vectorEntry
  rw [hp]
  dsimp only [bind, Except.bind]
  rw [hq]
  dsimp only
  refine ⟨_, rfl, ?_, ?_⟩
  · constructor
    · rw [State.modCore_core_same _ _ _ hc]
    · rw [State.modCore_core_same _ _ _ hc, e2, hq1, hp1]
    · rw [State.plainGet_modCore _ _ _ _ hc rfl, hqo _ hne, hpw]
    · rw [State.plainGet_modCore _ _ _ _ hc rfl, e2, hqw]
    · intro a ha hb
      rw [e2] at hb
      rw [State.plainGet_modCore _ _ _ _ hc rfl, hqo _ hb, hpo _ ha]
    · rw [State.modCore_core_same _ _ _ hc]
      dsimp only
      cases keepU
      · rw [if_neg (by simp), stBit_stPut _ _ _ _ (by decide), if_neg (by decide), stBit_stSetLd _ _ _ (by decide),
          stBit_stPut _ _ _ _ (by decide), if_pos rfl]
      · rw [if_pos rfl, stBit_stSetLd _ _ _ (by decide), stBit_stPut _ _ _ _ (by decide), if_pos rfl]
    · rw [State.modCore_core_same _ _ _ hc]
      dsimp only
      cases keepU
      · rw [if_neg (by simp)]
        rw [stLd_stPut _ _ _ (by decide) (by decide), stLd_stSetLd]
      · rw [if_pos rfl, stLd_stSetLd]
    · intro j hj
      rw [State.modCore_core_same _ _ _ hc]
      dsimp only
      rw [hqc, hpc]
      cases keepU
      · rw [if_neg (by simp), stBit_stPut _ _ _ _ (by decide), if_neg (by omega), stBit_stSetLd _ _ _ (by omega),
          stBit_stPut _ _ _ _ (by decide), if_neg (by omega)]
      · rw [if_pos rfl, stBit_stSetLd _ _ _ (by omega), stBit_stPut _ _ _ _ (by decide), if_neg (by omega)]
    · rw [State.modCore_core_same _ _ _ hc, hqc, hpc]
      exact ⟨rfl, rfl, rfl, rfl, rfl, rfl, rfl, rfl, rfl, rfl, rfl, rfl, rfl⟩
    · intro e he
      rw [State.modCore_core_other _ _ _ _ he, hq4 e he, hp4 e he]
  · rw [State.modCore_core_same _ _ _ hc]
    dsimp only
    rw [hqc, hpc]
    refine ⟨?_, rfl, rfl, rfl, rfl, rfl, rfl⟩
    unfold stUser
    cases keepU
    · rw [if_neg (by simp), stBit_stPut _ _ _ _ (by decide), if_pos rfl]
      rfl
    · rw [if_pos rfl, stBit_stSetLd _ _ _ (by decide), stBit_stPut _ _ _ _ (by decide), if_neg (by decide)]
      rfl

/-- Writing results that were still to come changes the registers they go to, and what traps are due. -/
theorem CoreSt.landWhere_eq (k : CoreSt) (p : Exposed → Bool) : ∃ f ph pl due l,
    k.landWhere p = { k with f := f, ph := ph, pl := pl, fpuDue := due, exposed := l } := by
  unfold CoreSt.landWhere
  dsimp only
  generalize k.exposed.filter p = now
  have h : ∀ (now : List Exposed) (k : CoreSt), ∃ f ph pl due l,
      now.foldl CoreSt.land1 k = { k with f := f, ph := ph, pl := pl, fpuDue := due, exposed := l } := by
    intro now
    induction now with
    | nil => intro k; exact ⟨k.f, k.ph, k.pl, k.fpuDue, k.exposed, rfl⟩
    | cons a now ih =>
      intro k
      rw [List.foldl_cons]
      obtain ⟨f, ph, pl, due, l, e⟩ := ih (k.land1 a)
      rw [e]
      unfold CoreSt.land1
      dsimp only
      split <;> split <;> exact ⟨_, _, _, _, _, rfl⟩
  obtain ⟨f, ph, pl, due, l, e⟩ := h now { k with exposed := k.exposed.filter fun e => !(p e) }
  exact ⟨f, ph, pl, due, l, e⟩

theorem State.bump_eq (s : State) (k n : Nat) : ∃ d, s.bump k n = { s with dict := d } := by
  unfold State.bump
  dsimp only
  split <;> exact ⟨_, rfl⟩

theorem State.flag_eq (s : State) (w b k : Nat) : ∃ d, s.flag w b k = { s with dict := d } := by
  obtain ⟨d, h⟩ := (s.set w (setBit (s.get w) b)).bump_eq k 2
  exact ⟨d, h⟩

/-- A trap in USER mode is counted in the dictionary. -/
theorem State.userTrap_eq (s : State) (tr : Trap) : ∃ d, s.userTrap tr = { s with dict := d } := by
  unfold State.userTrap
  dsimp only
  obtain ⟨d, h⟩ := s.flag_eq K.userCore_UserFlags 0 K.userCore_UserTraps
  rw [h]
  split
  · obtain ⟨d', h'⟩ := (({ s with dict := d } : State).set K.userCore_LastUserTrap tr.code).flag_eq K.userCore_UserFlags 1
      K.userCore_UserStackFaults
    exact ⟨d', h'⟩
  · exact ⟨_, rfl⟩

/-- Two states with the same cores and shared memory have the same words. -/
theorem State.plainGet_cpu (s t : State) (c a : Nat) (h : t.core c = s.core c) (hs : t.cpu.shared = s.cpu.shared) :
    t.plainGet c a = s.plainGet c a := by
  unfold State.plainGet
  rw [h, hs]

/-- Entry as seen from a state with the same words and other cores, in which the core differs in other registers. -/
theorem Entry.of {s s' t : State} {c : Nat} {k k' : CoreSt} {pc : Word} {v : Nat} (h : Entry s' t c k' pc v)
    (hk : ∃ x y z, k' = { k with trapCause := x, trapPc := y, trapAddr := z }) (hm : ∀ a, s'.plainGet c a = s.plainGet c a)
    (ho : ∀ e, e ≠ c → s'.core e = s.core e) : Entry s t c k pc v := by
  obtain ⟨x, y, z, rfl⟩ := hk
  obtain ⟨h1, h2, h3, h4, h5, h6, h7, h8, h9, h10⟩ := h
  exact ⟨h1, h2, h3, h4, fun a p q => (h5 a p q).trans (hm a), h6, h7, h8, h9, fun e p => (h10 e p).trans (ho e p)⟩

/-- A trap but STACK, where the stack has room (R441, R442, R447): the firmware table outside USER mode and for BUDGET. -/
theorem State.takeTrap_ok (s : State) (c : Nat) (tr : Trap) (pc pushed : Word) (hc : c < 4) (hm : s.cpu.MemOk)
    (ht : tr ≠ .stack) (hr : EntryRoom (s.core c).landed (s.userMode c)) :
    let firm := !s.userMode c || tr == .budget
    Entry s (s.takeTrap c tr pc pushed) c (s.core c).landed pushed (if firm then 2 else 0x4002) ∧
      ((s.takeTrap c tr pc pushed).core c).trapPc = pc ∧
      ((s.takeTrap c tr pc pushed).core c).trapCause = BitVec.ofNat 24 tr.code ∧
      stUser ((s.takeTrap c tr pc pushed).core c).st = (!firm && stUser (s.core c).st) ∧
      ((s.takeTrap c tr pc pushed).core c).fpuDue = (s.core c).landed.fpuDue ∧
      ((s.takeTrap c tr pc pushed).core c).budgetDue = (s.core c).budgetDue := by
  intro firm
  obtain ⟨f, ph, pl, due, l, hl⟩ := (s.core c).landWhere_eq fun _ => true
  have hland : (s.core c).landed = { s.core c with f := f, ph := ph, pl := pl, fpuDue := due, exposed := l } := hl
  have key : ∀ s1 : State, s1.cpu.MemOk → (∃ x y z, s1.core c = { (s.core c).landed with trapCause := x, trapPc := y, trapAddr := z }) →
      (∀ a, s1.plainGet c a = s.plainGet c a) → (∀ e, e ≠ c → s1.core e = s.core e) →
      (s1.core c).trapPc = pc → (s1.core c).trapCause = BitVec.ofNat 24 tr.code →
      ∃ t, s1.vectorEntry c pushed (vectorAt (!firm) 1) (!firm) = some t ∧
        Entry s t c (s.core c).landed pushed (if firm then 2 else 0x4002) ∧ (t.core c).trapPc = pc ∧
        (t.core c).trapCause = BitVec.ofNat 24 tr.code ∧ stUser (t.core c).st = (!firm && stUser (s.core c).st) ∧
        (t.core c).fpuDue = (s.core c).landed.fpuDue ∧ (t.core c).budgetDue = (s.core c).budgetDue := by
    intro s1 h1 h2 h3 h4 h5 h6
    have hu : s1.userMode c = s.userMode c := by
      obtain ⟨x, y, z, h2⟩ := h2
      unfold State.userMode
      rw [h2, hland]
    have hroom : EntryRoom (s1.core c) (s1.userMode c) := by
      obtain ⟨x, y, z, h2⟩ := h2
      rw [hu, h2]
      exact hr
    obtain ⟨t, e1, e2, e3, _, _, e6, e7, e8, e9⟩ := s1.vectorEntry_ok c pushed (if firm then 2 else 0x4002) (!firm) hc h1 hroom
    have hv : vectorAt (!firm) 1 = BitVec.ofNat 24 (if firm then 2 else 0x4002) := by cases firm <;> rfl
    refine ⟨t, hv ▸ e1, Entry.of e2 h2 h3 h4, e6.trans h5, e7.trans h6, ?_, ?_, ?_⟩
    · rw [e3]
      obtain ⟨x, y, z, h2⟩ := h2
      rw [h2, hland]
    · rw [e8]
      obtain ⟨x, y, z, h2⟩ := h2
      rw [h2]
    · rw [e9]
      obtain ⟨x, y, z, h2⟩ := h2
      rw [h2, hland]
  unfold State.takeTrap
  dsimp only
  rw [if_neg ht]
  have hu0 : (s.modCore c fun k => k.landWhere fun _ => true).userMode c = s.userMode c := by
    unfold State.userMode
    rw [State.modCore_core_same _ _ _ hc, hl]
  rw [hu0]
  -- the state before the entry, with whatever the dictionary and the user time hold
  have base : ∀ x : State, x.cpu.core = (s.modCore c fun k => k.landWhere fun _ => true).cpu.core →
      x.cpu.shared = s.cpu.shared → ∀ g : CoreSt → CoreSt,
      (∃ a : CoreSt → Word, ∀ k : CoreSt, g k = { k with trapCause := BitVec.ofNat 24 tr.code, trapPc := pc, trapAddr := a k }) →
      (x.modCore c g).cpu.MemOk ∧ (∃ x' y z, (x.modCore c g).core c = { (s.core c).landed with trapCause := x', trapPc := y, trapAddr := z }) ∧
      (∀ a, (x.modCore c g).plainGet c a = s.plainGet c a) ∧ (∀ e, e ≠ c → (x.modCore c g).core e = s.core e) ∧
      ((x.modCore c g).core c).trapPc = pc ∧ ((x.modCore c g).core c).trapCause = BitVec.ofNat 24 tr.code := by
    intro x hx hs g hg
    obtain ⟨a, hg⟩ := hg
    have hxc : ∀ e, x.core e = (s.modCore c fun k => k.landWhere fun _ => true).core e := by
      intro e
      unfold State.core
      rw [hx]
    have hxm : x.cpu.MemOk := by
      have : (s.modCore c fun k => k.landWhere fun _ => true).cpu.MemOk :=
        State.modCore_memOk _ _ _ hm (by rw [hl]; exact State.mem_wf hm hc)
      refine ⟨by rw [hs]; exact hm.1, ?_⟩
      rw [hx]
      exact this.2
    have hxs : (x.core c).mem = (s.core c).mem := by
      rw [hxc, State.modCore_core_same _ _ _ hc, hl]
    refine ⟨State.modCore_memOk _ _ _ hxm (by rw [hg]; exact State.mem_wf hxm hc), ?_, ?_, ?_, ?_, ?_⟩
    · rw [State.modCore_core_same _ _ _ hc, hg, hxc, State.modCore_core_same _ _ _ hc]
      exact ⟨_, _, _, rfl⟩
    · intro b
      rw [State.plainGet_modCore _ _ _ _ hc (by rw [hg])]
      unfold State.plainGet
      rw [hxs, hs]
    · intro e he
      rw [State.modCore_core_other _ _ _ _ he, hxc, State.modCore_core_other _ _ _ _ he]
    · rw [State.modCore_core_same _ _ _ hc, hg]
    · rw [State.modCore_core_same _ _ _ hc, hg]
  have fin : ∀ x : State, x.cpu.core = (s.modCore c fun k => k.landWhere fun _ => true).cpu.core →
      x.cpu.shared = s.cpu.shared → ∀ g : CoreSt → CoreSt,
      (∃ a : CoreSt → Word, ∀ k : CoreSt, g k = { k with trapCause := BitVec.ofNat 24 tr.code, trapPc := pc, trapAddr := a k }) →
      ∀ r : State, ∀ t, t = (match (x.modCore c g).vectorEntry c pushed (vectorAt (!firm) 1) (!firm) with | some s2 => s2 | none => r) →
        Entry s t c (s.core c).landed pushed (if firm then 2 else 0x4002) ∧ (t.core c).trapPc = pc ∧
        (t.core c).trapCause = BitVec.ofNat 24 tr.code ∧ stUser (t.core c).st = (!firm && stUser (s.core c).st) ∧
        (t.core c).fpuDue = (s.core c).landed.fpuDue ∧ (t.core c).budgetDue = (s.core c).budgetDue := by
    intro x hx hs g hg r
    obtain ⟨b1, b2, b3, b4, b5, b6⟩ := base x hx hs g hg
    obtain ⟨t, e, h⟩ := key _ b1 b2 b3 b4 b5 b6
    rw [e]
    rintro _ rfl
    exact h
  have us : ∀ tr' : Trap, ((s.modCore c fun k => k.landWhere fun _ => true).userTrap tr').cpu =
      (s.modCore c fun k => k.landWhere fun _ => true).cpu := by
    intro tr'
    obtain ⟨d, h⟩ := (s.modCore c fun k => k.landWhere fun _ => true).userTrap_eq tr'
    rw [h]
  have stp : ∀ y z : State, (if (s.userMode c && firm) = true then y.userStop else y).cpu.core = y.cpu.core ∧
      (if (s.userMode c && firm) = true then y.userStop else y).cpu.shared = y.cpu.shared := by
    intro y _
    split <;> exact ⟨rfl, rfl⟩
  have all : ∀ r : State, ∀ g : CoreSt → CoreSt,
      (∃ a : CoreSt → Word, ∀ k : CoreSt, g k = { k with trapCause := BitVec.ofNat 24 tr.code, trapPc := pc, trapAddr := a k }) →
      ∀ x, x = (let s1 := if s.userMode c = true then (s.modCore c fun k => k.landWhere fun _ => true).userTrap tr
          else s.modCore c fun k => k.landWhere fun _ => true
        if (s.userMode c && firm) = true then s1.userStop else s1) →
      ∀ t, t = (match (x.modCore c g).vectorEntry c pushed (vectorAt (!firm) 1) (!firm) with | some s2 => s2 | none => r) →
        Entry s t c (s.core c).landed pushed (if firm then 2 else 0x4002) ∧ (t.core c).trapPc = pc ∧
        (t.core c).trapCause = BitVec.ofNat 24 tr.code ∧ stUser (t.core c).st = (!firm && stUser (s.core c).st) ∧
        (t.core c).fpuDue = (s.core c).landed.fpuDue ∧ (t.core c).budgetDue = (s.core c).budgetDue := by
    intro r g hg x hx
    have h1 : x.cpu.core = (s.modCore c fun k => k.landWhere fun _ => true).cpu.core ∧ x.cpu.shared = s.cpu.shared := by
      rw [hx]
      dsimp only
      rw [(stp _ s).1, (stp _ s).2]
      split
      · rw [us]
        exact ⟨rfl, rfl⟩
      · exact ⟨rfl, rfl⟩
    exact fin x h1.1 h1.2 g hg r
  rcases tr with _ | _ | _ | (_ | a) | _ | _ | _ | _
  case access.some =>
    dsimp only
    rw [State.modCore_modCore]
    exact all _ (fun k => { k with trapCause := BitVec.ofNat 24 (Trap.access (some a)).code, trapPc := pc, trapAddr := a })
      ⟨fun _ => a, fun _ => rfl⟩ _ rfl _ rfl
  case stack => exact absurd rfl ht
  all_goals
    exact all _ (fun k => { k with trapCause := BitVec.ofNat 24 (Trap.code _), trapPc := pc }) ⟨fun k => k.trapAddr, fun _ => rfl⟩ _ rfl _ rfl

end Sys2Proof.Machine
end

