-- ==== Sys2Proof/Laws/Frame.lean ====
section
/-!
SUPPORT. What the operations leave alone, part by part of the state: the rules from which the lemmas of the files beside
this one are composed, and the shared operations.
-/

namespace Sys2Proof.Machine

variable {fp : List Part} {orig s t : State}

theorem frame_refl (s : State) : Frame fp s s := ⟨fun p _ => by cases p <;> rfl⟩

/-- A larger set of parts allows more. -/
theorem Frame.mono {fp' : List Part} (h : Frame fp orig s) (hs : ∀ p ∈ fp, p ∈ fp') : Frame fp' orig s :=
  ⟨fun p hp => h.same p fun hm => hp (hs p hm)⟩

/-- A change of parts that the set names. -/
theorem frame_mk (h : Frame fp orig t) {x1 x2 x3 x4 x5 x6 x7 x8 x9 x10 x11 x12 x13 x14 x15 x16 x17 x18 x19 x20 x21 x22 x23 x24}
    (h1 : x1 = t.dict ∨ Part.dict ∈ fp := by first | exact Or.inr (by with_reducible assumption) | with_reducible exact Or.inl rfl)
    (h2 : x2 = t.streams ∨ Part.streams ∈ fp := by first | exact Or.inr (by with_reducible assumption) | with_reducible exact Or.inl rfl)
    (h3 : x3 = t.silt ∨ Part.silt ∈ fp := by first | exact Or.inr (by with_reducible assumption) | with_reducible exact Or.inl rfl)
    (h4 : x4 = t.mspi ∨ Part.mspi ∈ fp := by first | exact Or.inr (by with_reducible assumption) | with_reducible exact Or.inl rfl)
    (h5 : x5 = t.host ∨ Part.host ∈ fp := by first | exact Or.inr (by with_reducible assumption) | with_reducible exact Or.inl rfl)
    (h6 : x6 = t.reply ∨ Part.reply ∈ fp := by first | exact Or.inr (by with_reducible assumption) | with_reducible exact Or.inl rfl)
    (h7 : x7 = t.free ∨ Part.free ∈ fp := by first | exact Or.inr (by with_reducible assumption) | with_reducible exact Or.inl rfl)
    (h8 : x8 = t.time ∨ Part.time ∈ fp := by first | exact Or.inr (by with_reducible assumption) | with_reducible exact Or.inl rfl)
    (h9 : x9 = t.out ∨ Part.out ∈ fp := by first | exact Or.inr (by with_reducible assumption) | with_reducible exact Or.inl rfl)
    (h10 : x10 = t.cpu ∨ Part.cpu ∈ fp := by first | exact Or.inr (by with_reducible assumption) | with_reducible exact Or.inl rfl)
    (h11 : x11 = t.tmr ∨ Part.tmr ∈ fp := by first | exact Or.inr (by with_reducible assumption) | with_reducible exact Or.inl rfl)
    (h12 : x12 = t.rx ∨ Part.rx ∈ fp := by first | exact Or.inr (by with_reducible assumption) | with_reducible exact Or.inl rfl)
    (h13 : x13 = t.slots ∨ Part.slots ∈ fp := by first | exact Or.inr (by with_reducible assumption) | with_reducible exact Or.inl rfl)
    (h14 : x14 = t.nav ∨ Part.nav ∈ fp := by first | exact Or.inr (by with_reducible assumption) | with_reducible exact Or.inl rfl)
    (h15 : x15 = t.erg ∨ Part.erg ∈ fp := by first | exact Or.inr (by with_reducible assumption) | with_reducible exact Or.inl rfl)
    (h16 : x16 = t.sol ∨ Part.sol ∈ fp := by first | exact Or.inr (by with_reducible assumption) | with_reducible exact Or.inl rfl)
    (h17 : x17 = t.ports ∨ Part.ports ∈ fp := by first | exact Or.inr (by with_reducible assumption) | with_reducible exact Or.inl rfl)
    (h18 : x18 = t.net ∨ Part.net ∈ fp := by first | exact Or.inr (by with_reducible assumption) | with_reducible exact Or.inl rfl)
    (h19 : x19 = t.prot ∨ Part.prot ∈ fp := by first | exact Or.inr (by with_reducible assumption) | with_reducible exact Or.inl rfl)
    (h20 : x20 = t.lake ∨ Part.lake ∈ fp := by first | exact Or.inr (by with_reducible assumption) | with_reducible exact Or.inl rfl)
    (h21 : x21 = t.reader ∨ Part.reader ∈ fp := by first | exact Or.inr (by with_reducible assumption) | with_reducible exact Or.inl rfl)
    (h22 : x22 = t.power ∨ Part.power ∈ fp := by first | exact Or.inr (by with_reducible assumption) | with_reducible exact Or.inl rfl)
    (h23 : x23 = t.boot ∨ Part.boot ∈ fp := by first | exact Or.inr (by with_reducible assumption) | with_reducible exact Or.inl rfl)
    (h24 : x24 = t.jtag ∨ Part.jtag ∈ fp := by first | exact Or.inr (by with_reducible assumption) | with_reducible exact Or.inl rfl) :
    Frame fp orig ⟨t.pending, x1, x2, x3, x4, x5, x6, x7, x8, x9, x10, x11, x12, x13, x14, x15, x16, x17, x18, x19, x20, x21, x22, x23, x24⟩ := by
  constructor
  intro p hp
  have hh := h.same p hp
  cases p
  case pending => exact hh
  case dict => exact (h1.resolve_right hp).trans hh
  case streams => exact (h2.resolve_right hp).trans hh
  case silt => exact (h3.resolve_right hp).trans hh
  case mspi => exact (h4.resolve_right hp).trans hh
  case host => exact (h5.resolve_right hp).trans hh
  case reply => exact (h6.resolve_right hp).trans hh
  case free => exact (h7.resolve_right hp).trans hh
  case time => exact (h8.resolve_right hp).trans hh
  case out => exact (h9.resolve_right hp).trans hh
  case cpu => exact (h10.resolve_right hp).trans hh
  case tmr => exact (h11.resolve_right hp).trans hh
  case rx => exact (h12.resolve_right hp).trans hh
  case slots => exact (h13.resolve_right hp).trans hh
  case nav => exact (h14.resolve_right hp).trans hh
  case erg => exact (h15.resolve_right hp).trans hh
  case sol => exact (h16.resolve_right hp).trans hh
  case ports => exact (h17.resolve_right hp).trans hh
  case net => exact (h18.resolve_right hp).trans hh
  case prot => exact (h19.resolve_right hp).trans hh
  case lake => exact (h20.resolve_right hp).trans hh
  case reader => exact (h21.resolve_right hp).trans hh
  case power => exact (h22.resolve_right hp).trans hh
  case boot => exact (h23.resolve_right hp).trans hh
  case jtag => exact (h24.resolve_right hp).trans hh

/-- An intermediate state leaves alone what its value does. -/
theorem frame_cut {x : State} {Q : Prop} (h : Frame fp orig x) (k : Frame fp orig x → Q) : Q := k h

theorem frame_fst {α : Type} {p : State × α} {x : α} {t : State} (e : p = (t, x)) (h : Frame fp orig p.1) : Frame fp orig t := by
  subst e
  exact h

theorem frame_snd {α : Type} {p : α × State} {x : α} {t : State} (e : p = (x, t)) (h : Frame fp orig p.2) : Frame fp orig t := by
  subst e
  exact h

theorem frame_ite {c : Prop} [Decidable c] {x y : State} (hx : Frame fp orig x) (hy : Frame fp orig y) :
    Frame fp orig (if c then x else y) := by split <;> assumption

theorem frame_ite_fst {α : Type} {c : Prop} [Decidable c] {x y : State × α} (hx : Frame fp orig x.1) (hy : Frame fp orig y.1) :
    Frame fp orig (if c then x else y).1 := by split <;> assumption

theorem frame_ite_snd {α : Type} {c : Prop} [Decidable c] {x y : α × State} (hx : Frame fp orig x.2) (hy : Frame fp orig y.2) :
    Frame fp orig (if c then x else y).2 := by split <;> assumption

theorem frame_foldl {α : Type} (f : State → α → State) (l : List α) (h : Frame fp orig s)
    (hf : ∀ t a, Frame fp orig t → Frame fp orig (f t a)) : Frame fp orig (l.foldl f s) := by
  induction l generalizing s with
  | nil => exact h
  | cons a l ih => exact ih (hf _ _ h)

theorem frame_foldl_fst {α β : Type} (f : State × β → α → State × β) (l : List α) {p : State × β} (h : Frame fp orig p.1)
    (hf : ∀ p a, Frame fp orig p.1 → Frame fp orig (f p a).1) : Frame fp orig (l.foldl f p).1 := by
  induction l generalizing p with
  | nil => exact h
  | cons a l ih => exact ih (hf _ _ h)

/-- What an operation that a trap may end leaves alone when it is allowed. -/
structure FrameOk (fp : List Part) (orig : State) (r : Except Trap State) : Prop where
  ok : ∀ t, r = .ok t → Frame fp orig t

/-- The same of an operation that answers a value as well. -/
structure FrameOk2 {α : Type} (fp : List Part) (orig : State) (r : Except Trap (α × State)) : Prop where
  ok : ∀ p, r = .ok p → Frame fp orig p.2

theorem frameOk_ok {t : State} (h : Frame fp orig t) : FrameOk fp orig (.ok t) := by
  constructor
  intro u e
  cases e
  exact h

theorem frameOk_error (e : Trap) : FrameOk fp orig (.error e) := by
  constructor
  intro u h
  cases h

theorem frameOk2_ok {α : Type} {p : α × State} (h : Frame fp orig p.2) : FrameOk2 fp orig (.ok p) := by
  constructor
  intro u e
  cases e
  exact h

theorem frameOk2_error {α : Type} (e : Trap) : FrameOk2 (α := α) fp orig (.error e) := by
  constructor
  intro u h
  cases h

theorem frameOk_ite {c : Prop} [Decidable c] {x y : Except Trap State} (hx : FrameOk fp orig x) (hy : FrameOk fp orig y) :
    FrameOk fp orig (if c then x else y) := by split <;> assumption

theorem frameOk2_ite {α : Type} {c : Prop} [Decidable c] {x y : Except Trap (α × State)} (hx : FrameOk2 fp orig x)
    (hy : FrameOk2 fp orig y) : FrameOk2 fp orig (if c then x else y) := by split <;> assumption

theorem frameOk_bind {r : Except Trap State} {f : State → Except Trap State} (h : FrameOk fp orig r)
    (k : ∀ t, Frame fp orig t → FrameOk fp orig (f t)) : FrameOk fp orig (r >>= f) := by
  cases r with
  | error e => exact frameOk_error e
  | ok t => exact k t (h.ok t rfl)

theorem frameOk2_bind {α : Type} {r : Except Trap (α × State)} {f : α × State → Except Trap State} (h : FrameOk2 fp orig r)
    (k : ∀ p, Frame fp orig p.2 → FrameOk fp orig (f p)) : FrameOk fp orig (r >>= f) := by
  cases r with
  | error e => exact frameOk_error e
  | ok p => exact k p (h.ok p rfl)

theorem onlyIf_frame {c : Bool} {s t : State} (h : Frame fp orig s) (k : Frame fp orig t) : Frame fp orig (onlyIf c s t) := by
  unfold onlyIf
  split <;> assumption

/-- A change of the dictionary by one key. -/
theorem State.set_frame (k v : Nat) (h : Frame fp orig s) (hdict : Part.dict ∈ fp := by assumption) :
    Frame fp orig (s.set k v) := frame_mk h

theorem State.modCore_frame (c : Nat) (f : CoreSt → CoreSt) (h : Frame fp orig s) (hcpu : Part.cpu ∈ fp := by assumption) :
    Frame fp orig (s.modCore c f) := frame_mk h

theorem State.bump_frame (k n : Nat) (h : Frame fp orig s) (hdict : Part.dict ∈ fp := by assumption) :
    Frame fp orig (s.bump k n) := by
  unfold State.bump
  dsimp only
  split <;> exact State.set_frame _ _ h

theorem State.flag_frame (w i c : Nat) (h : Frame fp orig s) (hdict : Part.dict ∈ fp := by assumption) :
    Frame fp orig (s.flag w i c) := State.bump_frame _ _ (State.set_frame _ _ h)

theorem State.logAt_frame (pond code status : Nat) (data : List Nat) (h : Frame fp orig s)
    (hdict : Part.dict ∈ fp := by assumption) (hsilt : Part.silt ∈ fp := by assumption) :
    Frame fp orig (s.logAt pond code status data) := by
  unfold State.logAt
  split
  · exact frame_mk (State.flag_frame K.siltLog_LogFlags 0 K.siltLog_LostRecords h)
  · exact frame_mk h

theorem State.log_frame (code status : Nat) (data : List Nat) (h : Frame fp orig s)
    (hdict : Part.dict ∈ fp := by assumption) (hsilt : Part.silt ∈ fp := by assumption) :
    Frame fp orig (s.log code status data) := State.logAt_frame _ _ _ _ h

theorem State.siltCommit_frame (n : Nat) (h : Frame fp orig s) (hdict : Part.dict ∈ fp := by assumption)
    (hsilt : Part.silt ∈ fp := by assumption) : Frame fp orig (s.siltCommit n) := by
  unfold State.siltCommit
  split
  · exact h
  · have h2 : Frame fp orig { s with silt := { s.silt with
        recs := siltNewestOf (s.silt.recs ++ s.silt.queue.take n), queue := s.silt.queue.drop n } } := frame_mk h
    dsimp only
    split
    · exact h2
    · exact frame_mk (State.log_frame 0x0902 St.ok (toBytes 2 (min 65535 s.silt.lost)) h2)

theorem State.siltOrder_frame (n : Nat) (h : Frame fp orig s) (hsilt : Part.silt ∈ fp := by assumption) :
    Frame fp orig (s.siltOrder n) := by
  unfold State.siltOrder
  exact frame_mk h

end Sys2Proof.Machine
end

