-- ==== Sys2Proof/Laws/FrameTime.lean ====
section
/-!
SUPPORT. What the operations leave alone: the shared operations, time, the timers and the chains.
-/

set_option linter.all false
set_option Elab.async false

namespace Sys2Proof.Machine

/-! ### Ops -/

theorem State.setI_frame {fp : List Part} {orig : State} {s : State} (k : Nat) (n : Nat) (i : Int) (hs : Frame fp orig s)  (hdict : Part.dict ∈ fp := by assumption) :
    Frame fp orig (State.setI s k n i) := by
  unfold State.setI
  repeat' first
    | intro _
    | with_reducible assumption
    | with_reducible apply State.set_frame
    | dsimp only
    | (with_reducible refine frame_mk ?_)

theorem State.setB_frame {fp : List Part} {orig : State} {s : State} (k : Nat) (b : Bool) (hs : Frame fp orig s)  (hdict : Part.dict ∈ fp := by assumption) :
    Frame fp orig (State.setB s k b) := by
  unfold State.setB
  repeat' first
    | intro _
    | with_reducible assumption
    | with_reducible apply State.set_frame
    | dsimp only
    | (with_reducible refine frame_mk ?_)

theorem State.bumpBy_frame {fp : List Part} {orig : State} {s : State} (k : Nat) (m : Nat) (hs : Frame fp orig s)  (hdict : Part.dict ∈ fp := by assumption) :
    Frame fp orig (State.bumpBy s k m) := by
  unfold State.bumpBy
  repeat' first
    | intro _
    | with_reducible assumption
    | with_reducible apply State.set_frame
    | dsimp only
    | (with_reducible refine frame_mk ?_)

theorem State.count_frame {fp : List Part} {orig : State} {s : State} (k : Nat) (n : Nat) (hs : Frame fp orig s)  (hdict : Part.dict ∈ fp := by assumption) :
    Frame fp orig (State.count s k n) := by
  unfold State.count
  repeat' first
    | intro _
    | with_reducible assumption
    | with_reducible apply State.set_frame
    | dsimp only
    | (with_reducible refine frame_mk ?_)

theorem State.raise_frame {fp : List Part} {orig : State} {s : State} (word : Nat) (b : Nat) (hs : Frame fp orig s)  (hdict : Part.dict ∈ fp := by assumption) :
    Frame fp orig (State.raise s word b) := by
  unfold State.raise
  repeat' first
    | intro _
    | with_reducible assumption
    | with_reducible apply State.set_frame
    | dsimp only
    | (with_reducible refine frame_mk ?_)

theorem State.setStream_frame {fp : List Part} {orig : State} {s : State} (index : Nat) (l : List (List Nat)) (hs : Frame fp orig s)  (hstreams : Part.streams ∈ fp := by assumption) :
    Frame fp orig (State.setStream s index l) := by
  unfold State.setStream
  repeat' first
    | intro _
    | with_reducible assumption
    | with_reducible apply State.set_frame
    | dsimp only
    | (with_reducible refine frame_mk ?_)

theorem State.streamDrop_frame {fp : List Part} {orig : State} {s : State} (index : Nat) (n : Nat) (hs : Frame fp orig s)  (hdict : Part.dict ∈ fp := by assumption) :
    Frame fp orig (State.streamDrop s index n) := by
  unfold State.streamDrop
  repeat' first
    | intro _
    | with_reducible assumption
    | with_reducible apply State.bumpBy_frame
    | with_reducible apply State.set_frame
    | dsimp only
    | (with_reducible refine frame_mk ?_)

theorem State.append_frame {fp : List Part} {orig : State} {s : State} (index : Nat) (kind : Nat) (body : List Nat) (hs : Frame fp orig s)  (hdict : Part.dict ∈ fp := by assumption) (hstreams : Part.streams ∈ fp := by assumption) :
    Frame fp orig (State.append s index kind body) := by
  unfold State.append
  repeat' first
    | intro _
    | with_reducible assumption
    | with_reducible apply State.streamDrop_frame
    | with_reducible apply State.setStream_frame
    | with_reducible apply frame_ite
    | split
    | dsimp only
    | (with_reducible refine frame_mk ?_)

theorem State.answer_frame {fp : List Part} {orig : State} {s : State} (status : Nat) (data : List Nat) (hs : Frame fp orig s)  (hreply : Part.reply ∈ fp := by assumption) :
    Frame fp orig (State.answer s status data) := by
  unfold State.answer
  repeat' first
    | intro _
    | with_reducible assumption
    | dsimp only
    | (with_reducible refine frame_mk ?_)

theorem State.takeFree_frame {fp : List Part} {orig : State} {s : State}  (hs : Frame fp orig s)  (hfree : Part.free ∈ fp := by assumption) :
    Frame fp orig (State.takeFree s) := by
  unfold State.takeFree
  repeat' first
    | intro _
    | with_reducible assumption
    | dsimp only
    | (with_reducible refine frame_mk ?_)

theorem State.reach_frame {fp : List Part} {orig : State} {s : State} (at_ : Nat) (hs : Frame fp orig s)  (htime : Part.time ∈ fp := by assumption) :
    Frame fp orig (State.reach s at_) := by
  unfold State.reach
  repeat' first
    | intro _
    | with_reducible assumption
    | dsimp only
    | (with_reducible refine frame_mk ?_)

theorem State.reachAon_frame {fp : List Part} {orig : State} {s : State} (n : Nat) (hs : Frame fp orig s)  (htime : Part.time ∈ fp := by assumption) :
    Frame fp orig (State.reachAon s n) := by
  unfold State.reachAon
  repeat' first
    | intro _
    | with_reducible assumption
    | dsimp only
    | (with_reducible refine frame_mk ?_)

theorem State.put_frame {fp : List Part} {orig : State} {s : State} (k : Nat) (v : Nat) (hs : Frame fp orig s)  (hdict : Part.dict ∈ fp := by assumption) :
    Frame fp orig (State.put s k v) := by
  unfold State.put
  repeat' first
    | intro _
    | with_reducible assumption
    | with_reducible apply State.set_frame
    | dsimp only
    | (with_reducible refine frame_mk ?_)

/-! ### Time -/

theorem State.setTiming_frame {fp : List Part} {orig : State} {s : State} (v : Nat) (hs : Frame fp orig s)  (hdict : Part.dict ∈ fp := by assumption) :
    Frame fp orig (State.setTiming s v) := by
  unfold State.setTiming
  repeat' first
    | intro _
    | with_reducible assumption
    | with_reducible apply State.set_frame
    | dsimp only
    | (with_reducible refine frame_mk ?_)

theorem State.holdEntry_frame {fp : List Part} {orig : State} {s : State} (v : Nat) (hs : Frame fp orig s)  (hdict : Part.dict ∈ fp := by assumption) (htime : Part.time ∈ fp := by assumption) (hsol : Part.sol ∈ fp := by assumption) :
    Frame fp orig (State.holdEntry s v) := by
  unfold State.holdEntry
  repeat' first
    | intro _
    | with_reducible assumption
    | with_reducible apply State.setTiming_frame
    | with_reducible apply State.setB_frame
    | with_reducible apply State.set_frame
    | with_reducible apply frame_ite
    | (extract_lets +onlyGivenNames -underBinder x; first | (refine frame_cut (fp := fp) (orig := orig) (x := x) ?_ ?_ <;> first | (intro h0; generalize x = y at h0 ⊢; clear x) | intro h0 | subst x) | (have h0 := Nat.zero_le x; generalize x = y at h0 ⊢; clear h0 x) | subst x)
    | split
    | dsimp only
    | (with_reducible refine frame_mk ?_)

theorem State.recoverEnd_frame {fp : List Part} {orig : State} {s : State}  (hs : Frame fp orig s)  (hdict : Part.dict ∈ fp := by assumption) (htime : Part.time ∈ fp := by assumption) :
    Frame fp orig (State.recoverEnd s) := by
  unfold State.recoverEnd
  repeat' first
    | intro _
    | with_reducible assumption
    | with_reducible apply State.setB_frame
    | (extract_lets +onlyGivenNames -underBinder x; first | (refine frame_cut (fp := fp) (orig := orig) (x := x) ?_ ?_ <;> first | (intro h0; generalize x = y at h0 ⊢; clear x) | intro h0 | subst x) | (have h0 := Nat.zero_le x; generalize x = y at h0 ⊢; clear h0 x) | subst x)
    | dsimp only
    | (with_reducible refine frame_mk ?_)

theorem State.toHoldover_frame {fp : List Part} {orig : State} {s : State}  (hs : Frame fp orig s)  (hdict : Part.dict ∈ fp := by assumption) (htime : Part.time ∈ fp := by assumption) (hsol : Part.sol ∈ fp := by assumption) :
    Frame fp orig (State.toHoldover s) := by
  unfold State.toHoldover
  repeat' first
    | intro _
    | with_reducible assumption
    | with_reducible apply State.recoverEnd_frame
    | with_reducible apply State.holdEntry_frame
    | with_reducible apply frame_ite
    | split
    | dsimp only
    | (with_reducible refine frame_mk ?_)

theorem State.sourceLost_frame {fp : List Part} {orig : State} {s : State}  (hs : Frame fp orig s)  (hdict : Part.dict ∈ fp := by assumption) (htime : Part.time ∈ fp := by assumption) (hsol : Part.sol ∈ fp := by assumption) :
    Frame fp orig (State.sourceLost s) := by
  unfold State.sourceLost
  repeat' first
    | intro _
    | with_reducible assumption
    | with_reducible apply State.toHoldover_frame
    | with_reducible apply State.flag_frame
    | with_reducible apply frame_ite
    | (extract_lets +onlyGivenNames -underBinder x; first | (refine frame_cut (fp := fp) (orig := orig) (x := x) ?_ ?_ <;> first | (intro h0; generalize x = y at h0 ⊢; clear x) | intro h0 | subst x) | (have h0 := Nat.zero_le x; generalize x = y at h0 ⊢; clear h0 x) | subst x)
    | split
    | dsimp only
    | (with_reducible refine frame_mk ?_)

theorem State.steer_frame {fp : List Part} {orig : State} {s : State} (x : Int) (dt : Nat) (hs : Frame fp orig s)  (hdict : Part.dict ∈ fp := by assumption) (htime : Part.time ∈ fp := by assumption) :
    Frame fp orig (State.steer s x dt) := by
  unfold State.steer
  repeat' first
    | intro _
    | with_reducible assumption
    | with_reducible apply State.setI_frame
    | with_reducible apply State.set_frame
    | with_reducible apply frame_ite
    | (extract_lets +onlyGivenNames -underBinder x; first | (refine frame_cut (fp := fp) (orig := orig) (x := x) ?_ ?_ <;> first | (intro h0; generalize x = y at h0 ⊢; clear x) | intro h0 | subst x) | (have h0 := Nat.zero_le x; generalize x = y at h0 ⊢; clear h0 x) | subst x)
    | split
    | dsimp only
    | (with_reducible refine frame_mk ?_)

theorem State.lockJudge_frame {fp : List Part} {orig : State} {s : State} (x : Int) (hs : Frame fp orig s)  (hdict : Part.dict ∈ fp := by assumption) (htime : Part.time ∈ fp := by assumption) :
    Frame fp orig (State.lockJudge s x) := by
  unfold State.lockJudge
  repeat' first
    | intro _
    | with_reducible assumption
    | with_reducible apply State.setTiming_frame
    | with_reducible apply State.setB_frame
    | with_reducible apply frame_ite
    | (extract_lets +onlyGivenNames -underBinder x; first | (refine frame_cut (fp := fp) (orig := orig) (x := x) ?_ ?_ <;> first | (intro h0; generalize x = y at h0 ⊢; clear x) | intro h0 | subst x) | (have h0 := Nat.zero_le x; generalize x = y at h0 ⊢; clear h0 x) | subst x)
    | split
    | dsimp only
    | (with_reducible refine frame_mk ?_)

theorem State.ergSplit_frame {fp : List Part} {orig : State} {s : State}  (hs : Frame fp orig s)  (herg : Part.erg ∈ fp := by assumption) :
    Frame fp orig (State.ergSplit s) := by
  unfold State.ergSplit
  repeat' first
    | intro _
    | with_reducible assumption
    | dsimp only
    | (with_reducible refine frame_mk ?_)

theorem State.jumpRefused_frame {fp : List Part} {orig : State} {s : State} (x : Int) (hs : Frame fp orig s)  (hdict : Part.dict ∈ fp := by assumption) (hsilt : Part.silt ∈ fp := by assumption) (htime : Part.time ∈ fp := by assumption) (herg : Part.erg ∈ fp := by assumption) (hsol : Part.sol ∈ fp := by assumption) :
    Frame fp orig (State.jumpRefused s x) := by
  unfold State.jumpRefused
  repeat' first
    | intro _
    | with_reducible assumption
    | with_reducible apply State.ergSplit_frame
    | with_reducible apply State.holdEntry_frame
    | with_reducible apply State.setI_frame
    | with_reducible apply State.flag_frame
    | with_reducible apply State.log_frame
    | with_reducible apply frame_ite
    | (extract_lets +onlyGivenNames -underBinder x; first | (refine frame_cut (fp := fp) (orig := orig) (x := x) ?_ ?_ <;> first | (intro h0; generalize x = y at h0 ⊢; clear x) | intro h0 | subst x) | (have h0 := Nat.zero_le x; generalize x = y at h0 ⊢; clear h0 x) | subst x)
    | split
    | dsimp only
    | (with_reducible refine frame_mk ?_)

theorem State.sourceUpdate_frame {fp : List Part} {orig : State} {s : State} (lake : Bool) (x : Int) (hs : Frame fp orig s)  (hdict : Part.dict ∈ fp := by assumption) (hsilt : Part.silt ∈ fp := by assumption) (htime : Part.time ∈ fp := by assumption) (herg : Part.erg ∈ fp := by assumption) (hsol : Part.sol ∈ fp := by assumption) :
    Frame fp orig (State.sourceUpdate s lake x) := by
  unfold State.sourceUpdate
  repeat' first
    | intro _
    | with_reducible assumption
    | with_reducible apply State.jumpRefused_frame
    | with_reducible apply State.lockJudge_frame
    | with_reducible apply State.steer_frame
    | with_reducible apply State.setB_frame
    | with_reducible apply frame_ite
    | (extract_lets +onlyGivenNames -underBinder x; first | (refine frame_cut (fp := fp) (orig := orig) (x := x) ?_ ?_ <;> first | (intro h0; generalize x = y at h0 ⊢; clear x) | intro h0 | subst x) | (have h0 := Nat.zero_le x; generalize x = y at h0 ⊢; clear h0 x) | subst x)
    | split
    | dsimp only
    | (with_reducible refine frame_mk ?_)

theorem State.handOver_frame {fp : List Part} {orig : State} {s : State} (d : StepDue) (hs : Frame fp orig s)  (hdict : Part.dict ∈ fp := by assumption) (htime : Part.time ∈ fp := by assumption) :
    Frame fp orig (State.handOver s d) := by
  unfold State.handOver
  repeat' first
    | intro _
    | with_reducible assumption
    | with_reducible apply State.setTiming_frame
    | with_reducible apply State.set_frame
    | with_reducible apply frame_ite
    | (extract_lets +onlyGivenNames -underBinder x; first | (refine frame_cut (fp := fp) (orig := orig) (x := x) ?_ ?_ <;> first | (intro h0; generalize x = y at h0 ⊢; clear x) | intro h0 | subst x) | (have h0 := Nat.zero_le x; generalize x = y at h0 ⊢; clear h0 x) | subst x)
    | split
    | dsimp only
    | (with_reducible refine frame_mk ?_)

theorem State.firstEstimate_frame {fp : List Part} {orig : State} {s : State} (src : StepSource) (x : Int) (freq : Option Int) (error : Nat) (hs : Frame fp orig s)  (hdict : Part.dict ∈ fp := by assumption) (htime : Part.time ∈ fp := by assumption) :
    Frame fp orig (State.firstEstimate s src x freq error) := by
  unfold State.firstEstimate
  repeat' first
    | intro _
    | with_reducible assumption
    | with_reducible apply State.handOver_frame
    | with_reducible apply frame_ite
    | split
    | dsimp only
    | (with_reducible refine frame_mk ?_)

theorem State.stepPond_frame {fp : List Part} {orig : State} {s : State} (d : StepDue) (hs : Frame fp orig s)  (htime : Part.time ∈ fp := by assumption) :
    Frame fp orig (State.stepPond s d) := by
  unfold State.stepPond
  repeat' first
    | intro _
    | with_reducible assumption
    | (extract_lets +onlyGivenNames -underBinder x; first | (refine frame_cut (fp := fp) (orig := orig) (x := x) ?_ ?_ <;> first | (intro h0; generalize x = y at h0 ⊢; clear x) | intro h0 | subst x) | (have h0 := Nat.zero_le x; generalize x = y at h0 ⊢; clear h0 x) | subst x)
    | dsimp only
    | (with_reducible refine frame_mk ?_)

theorem State.stepReport_frame {fp : List Part} {orig : State} {s : State} (d : StepDue) (v : Nat) (hs : Frame fp orig s)  (hdict : Part.dict ∈ fp := by assumption) (hsilt : Part.silt ∈ fp := by assumption) :
    Frame fp orig (State.stepReport s d v) := by
  unfold State.stepReport
  repeat' first
    | intro _
    | with_reducible assumption
    | with_reducible apply State.set_frame
    | with_reducible apply State.flag_frame
    | with_reducible apply State.log_frame
    | with_reducible apply frame_ite
    | (extract_lets +onlyGivenNames -underBinder x; first | (refine frame_cut (fp := fp) (orig := orig) (x := x) ?_ ?_ <;> first | (intro h0; generalize x = y at h0 ⊢; clear x) | intro h0 | subst x) | (have h0 := Nat.zero_le x; generalize x = y at h0 ⊢; clear h0 x) | subst x)
    | split
    | dsimp only
    | (with_reducible refine frame_mk ?_)

theorem State.stepState_frame {fp : List Part} {orig : State} {s : State} (d : StepDue) (hs : Frame fp orig s)  (hdict : Part.dict ∈ fp := by assumption) (htime : Part.time ∈ fp := by assumption) (hsol : Part.sol ∈ fp := by assumption) :
    Frame fp orig (State.stepState s d) := by
  unfold State.stepState
  repeat' first
    | intro _
    | with_reducible assumption
    | with_reducible apply State.toHoldover_frame
    | with_reducible apply State.setTiming_frame
    | with_reducible apply State.setB_frame
    | with_reducible apply State.set_frame
    | with_reducible apply frame_ite
    | (extract_lets +onlyGivenNames -underBinder x; first | (refine frame_cut (fp := fp) (orig := orig) (x := x) ?_ ?_ <;> first | (intro h0; generalize x = y at h0 ⊢; clear x) | intro h0 | subst x) | (have h0 := Nat.zero_le x; generalize x = y at h0 ⊢; clear h0 x) | subst x)
    | split
    | dsimp only
    | (with_reducible refine frame_mk ?_)

theorem State.stepRate_frame {fp : List Part} {orig : State} {s : State} (d : StepDue) (hs : Frame fp orig s)  (hdict : Part.dict ∈ fp := by assumption) (htime : Part.time ∈ fp := by assumption) :
    Frame fp orig (State.stepRate s d) := by
  unfold State.stepRate
  repeat' first
    | intro _
    | with_reducible assumption
    | with_reducible apply State.setI_frame
    | with_reducible apply frame_ite
    | (extract_lets +onlyGivenNames -underBinder x; first | (refine frame_cut (fp := fp) (orig := orig) (x := x) ?_ ?_ <;> first | (intro h0; generalize x = y at h0 ⊢; clear x) | intro h0 | subst x) | (have h0 := Nat.zero_le x; generalize x = y at h0 ⊢; clear h0 x) | subst x)
    | split
    | dsimp only
    | (with_reducible refine frame_mk ?_)

theorem State.tuneMove_frame {fp : List Part} {orig : State} {s : State} (target : Nat) (hs : Frame fp orig s)  (hdict : Part.dict ∈ fp := by assumption) (htime : Part.time ∈ fp := by assumption) :
    Frame fp orig (State.tuneMove s target) := by
  unfold State.tuneMove
  repeat' first
    | intro _
    | with_reducible assumption
    | with_reducible apply State.set_frame
    | with_reducible apply frame_ite
    | (extract_lets +onlyGivenNames -underBinder x; first | (refine frame_cut (fp := fp) (orig := orig) (x := x) ?_ ?_ <;> first | (intro h0; generalize x = y at h0 ⊢; clear x) | intro h0 | subst x) | (have h0 := Nat.zero_le x; generalize x = y at h0 ⊢; clear h0 x) | subst x)
    | split
    | dsimp only
    | (with_reducible refine frame_mk ?_)

theorem State.rateSlew_frame {fp : List Part} {orig : State} {s : State}  (hs : Frame fp orig s)  (hdict : Part.dict ∈ fp := by assumption) (htime : Part.time ∈ fp := by assumption) :
    Frame fp orig (State.rateSlew s) := by
  unfold State.rateSlew
  repeat' first
    | intro _
    | with_reducible assumption
    | with_reducible apply State.tuneMove_frame
    | with_reducible apply State.setI_frame
    | with_reducible apply State.flag_frame
    | with_reducible apply frame_ite
    | (extract_lets +onlyGivenNames -underBinder x; first | (refine frame_cut (fp := fp) (orig := orig) (x := x) ?_ ?_ <;> first | (intro h0; generalize x = y at h0 ⊢; clear x) | intro h0 | subst x) | (have h0 := Nat.zero_le x; generalize x = y at h0 ⊢; clear h0 x) | subst x)
    | split
    | dsimp only
    | (with_reducible refine frame_mk ?_)

theorem State.holdRate_frame {fp : List Part} {orig : State} {s : State}  (hs : Frame fp orig s)  (hdict : Part.dict ∈ fp := by assumption) (htime : Part.time ∈ fp := by assumption) :
    Frame fp orig (State.holdRate s) := by
  unfold State.holdRate
  repeat' first
    | intro _
    | with_reducible assumption
    | with_reducible apply State.setI_frame
    | with_reducible apply frame_ite
    | (extract_lets +onlyGivenNames -underBinder x; first | (refine frame_cut (fp := fp) (orig := orig) (x := x) ?_ ?_ <;> first | (intro h0; generalize x = y at h0 ⊢; clear x) | intro h0 | subst x) | (have h0 := Nat.zero_le x; generalize x = y at h0 ⊢; clear h0 x) | subst x)
    | split
    | dsimp only
    | (with_reducible refine frame_mk ?_)

theorem State.holdTick_frame {fp : List Part} {orig : State} {s : State}  (hs : Frame fp orig s)  (hdict : Part.dict ∈ fp := by assumption) (htime : Part.time ∈ fp := by assumption) :
    Frame fp orig (State.holdTick s) := by
  unfold State.holdTick
  repeat' first
    | intro _
    | with_reducible assumption
    | with_reducible apply State.holdRate_frame
    | with_reducible apply State.set_frame
    | with_reducible apply frame_ite
    | (extract_lets +onlyGivenNames -underBinder x; first | (refine frame_cut (fp := fp) (orig := orig) (x := x) ?_ ?_ <;> first | (intro h0; generalize x = y at h0 ⊢; clear x) | intro h0 | subst x) | (have h0 := Nat.zero_le x; generalize x = y at h0 ⊢; clear h0 x) | subst x)
    | split
    | dsimp only
    | (with_reducible refine frame_mk ?_)

theorem State.steerSource_frame {fp : List Part} {orig : State} {s : State}  (hs : Frame fp orig s)  (htime : Part.time ∈ fp := by assumption) :
    Frame fp orig (State.steerSource s) := by
  unfold State.steerSource
  repeat' first
    | intro _
    | with_reducible assumption
    | dsimp only
    | (with_reducible refine frame_mk ?_)

theorem State.referenceLost_frame {fp : List Part} {orig : State} {s : State}  (hs : Frame fp orig s)  (hdict : Part.dict ∈ fp := by assumption) (hsilt : Part.silt ∈ fp := by assumption) (htime : Part.time ∈ fp := by assumption) (hsol : Part.sol ∈ fp := by assumption) :
    Frame fp orig (State.referenceLost s) := by
  unfold State.referenceLost
  repeat' first
    | intro _
    | with_reducible assumption
    | with_reducible apply State.toHoldover_frame
    | with_reducible apply State.setB_frame
    | with_reducible apply State.set_frame
    | with_reducible apply State.bump_frame
    | with_reducible apply State.log_frame
    | with_reducible apply frame_ite
    | (extract_lets +onlyGivenNames -underBinder x; first | (refine frame_cut (fp := fp) (orig := orig) (x := x) ?_ ?_ <;> first | (intro h0; generalize x = y at h0 ⊢; clear x) | intro h0 | subst x) | (have h0 := Nat.zero_le x; generalize x = y at h0 ⊢; clear h0 x) | subst x)
    | split
    | dsimp only
    | (with_reducible refine frame_mk ?_)

theorem State.referenceReturning_frame {fp : List Part} {orig : State} {s : State}  (hs : Frame fp orig s)  (hdict : Part.dict ∈ fp := by assumption) (htime : Part.time ∈ fp := by assumption) :
    Frame fp orig (State.referenceReturning s) := by
  unfold State.referenceReturning
  repeat' first
    | intro _
    | with_reducible assumption
    | with_reducible apply State.set_frame
    | with_reducible apply frame_ite
    | (extract_lets +onlyGivenNames -underBinder x; first | (refine frame_cut (fp := fp) (orig := orig) (x := x) ?_ ?_ <;> first | (intro h0; generalize x = y at h0 ⊢; clear x) | intro h0 | subst x) | (have h0 := Nat.zero_le x; generalize x = y at h0 ⊢; clear h0 x) | subst x)
    | split
    | dsimp only
    | (with_reducible refine frame_mk ?_)

theorem State.referenceValid_frame {fp : List Part} {orig : State} {s : State}  (hs : Frame fp orig s)  (hdict : Part.dict ∈ fp := by assumption) :
    Frame fp orig (State.referenceValid s) := by
  unfold State.referenceValid
  repeat' first
    | intro _
    | with_reducible assumption
    | with_reducible apply State.set_frame
    | with_reducible apply frame_ite
    | split
    | dsimp only
    | (with_reducible refine frame_mk ?_)

/-! ### Timers -/

theorem State.raiseInt_frame {fp : List Part} {orig : State} {s : State} (c : Nat) (v : Nat) (hs : Frame fp orig s)  (hcpu : Part.cpu ∈ fp := by assumption) :
    Frame fp orig (State.raiseInt s c v) := by
  unfold State.raiseInt
  repeat' first
    | intro _
    | with_reducible assumption
    | with_reducible apply State.modCore_frame
    | dsimp only
    | (with_reducible refine frame_mk ?_)

theorem State.modTimer_frame {fp : List Part} {orig : State} {s : State} (n : Nat) (f : TmrSt → TmrSt) (hs : Frame fp orig s)  (htmr : Part.tmr ∈ fp := by assumption) :
    Frame fp orig (State.modTimer s n f) := by
  unfold State.modTimer
  repeat' first
    | intro _
    | with_reducible assumption
    | dsimp only
    | (with_reducible refine frame_mk ?_)

theorem State.setTimerState_frame {fp : List Part} {orig : State} {s : State} (n : Nat) (v : Nat) (hs : Frame fp orig s)  (hdict : Part.dict ∈ fp := by assumption) :
    Frame fp orig (State.setTimerState s n v) := by
  unfold State.setTimerState
  repeat' first
    | intro _
    | with_reducible assumption
    | with_reducible apply State.set_frame
    | dsimp only
    | (with_reducible refine frame_mk ?_)

theorem State.timerEvent_frame {fp : List Part} {orig : State} {s : State} (n : Nat) (b : Nat) (counter : Nat) (hs : Frame fp orig s)  (hdict : Part.dict ∈ fp := by assumption) (hcpu : Part.cpu ∈ fp := by assumption) :
    Frame fp orig (State.timerEvent s n b counter) := by
  unfold State.timerEvent
  repeat' first
    | intro _
    | with_reducible assumption
    | with_reducible apply State.raiseInt_frame
    | with_reducible apply State.flag_frame
    | with_reducible apply frame_ite
    | (extract_lets +onlyGivenNames -underBinder x; first | (refine frame_cut (fp := fp) (orig := orig) (x := x) ?_ ?_ <;> first | (intro h0; generalize x = y at h0 ⊢; clear x) | intro h0 | subst x) | (have h0 := Nat.zero_le x; generalize x = y at h0 ⊢; clear h0 x) | subst x)
    | split
    | dsimp only
    | (with_reducible refine frame_mk ?_)

theorem State.outFollow_frame {fp : List Part} {orig : State} {s : State} (n : Nat) (at_ : Nat) (under : Bool) (m0 : Bool) (m1 : Bool) (begins : Bool) (o : Nat) (hs : Frame fp orig s)  (hdict : Part.dict ∈ fp := by assumption) (htmr : Part.tmr ∈ fp := by assumption) :
    Frame fp orig (State.outFollow s n at_ under m0 m1 begins o) := by
  unfold State.outFollow
  repeat' first
    | intro _
    | with_reducible assumption
    | with_reducible apply State.setB_frame
    | with_reducible apply frame_ite
    | (extract_lets +onlyGivenNames -underBinder x; first | (refine frame_cut (fp := fp) (orig := orig) (x := x) ?_ ?_ <;> first | (intro h0; generalize x = y at h0 ⊢; clear x) | intro h0 | subst x) | (have h0 := Nat.zero_le x; generalize x = y at h0 ⊢; clear h0 x) | subst x)
    | split
    | dsimp only
    | (with_reducible refine frame_mk ?_)

theorem State.outsFollow_frame {fp : List Part} {orig : State} {s : State} (n : Nat) (at_ : Nat) (under : Bool) (m0 : Bool) (m1 : Bool) (begins : Bool) (hs : Frame fp orig s)  (hdict : Part.dict ∈ fp := by assumption) (htmr : Part.tmr ∈ fp := by assumption) :
    Frame fp orig (State.outsFollow s n at_ under m0 m1 begins) := by
  unfold State.outsFollow
  repeat' first
    | intro _
    | with_reducible assumption
    | with_reducible apply State.outFollow_frame
    | with_reducible apply frame_foldl
    | with_reducible apply frame_foldl_fst
    | dsimp only
    | (with_reducible refine frame_mk ?_)

theorem State.outChanged_frame {fp : List Part} {orig : State} {s : State} (o : Nat) (hs : Frame fp orig s)  (hdict : Part.dict ∈ fp := by assumption) (htmr : Part.tmr ∈ fp := by assumption) :
    Frame fp orig (State.outChanged s o) := by
  unfold State.outChanged
  repeat' first
    | intro _
    | with_reducible assumption
    | with_reducible apply State.setB_frame
    | with_reducible apply frame_ite
    | (extract_lets +onlyGivenNames -underBinder x; first | (refine frame_cut (fp := fp) (orig := orig) (x := x) ?_ ?_ <;> first | (intro h0; generalize x = y at h0 ⊢; clear x) | intro h0 | subst x) | (have h0 := Nat.zero_le x; generalize x = y at h0 ⊢; clear h0 x) | subst x)
    | split
    | dsimp only
    | (with_reducible refine frame_mk ?_)

theorem State.pulseEnd_frame {fp : List Part} {orig : State} {s : State} (o : Nat) (at_ : Nat) (hs : Frame fp orig s)  (hdict : Part.dict ∈ fp := by assumption) (htmr : Part.tmr ∈ fp := by assumption) :
    Frame fp orig (State.pulseEnd s o at_) := by
  unfold State.pulseEnd
  repeat' first
    | intro _
    | with_reducible assumption
    | with_reducible apply State.setB_frame
    | with_reducible apply frame_ite
    | (extract_lets +onlyGivenNames -underBinder x; first | (refine frame_cut (fp := fp) (orig := orig) (x := x) ?_ ?_ <;> first | (intro h0; generalize x = y at h0 ⊢; clear x) | intro h0 | subst x) | (have h0 := Nat.zero_le x; generalize x = y at h0 ⊢; clear h0 x) | subst x)
    | split
    | dsimp only
    | (with_reducible refine frame_mk ?_)

theorem State.timerMoved_frame {fp : List Part} {orig : State} {s : State} (n : Nat) (at_ : Nat) (under : Bool) (begins : Bool) (hs : Frame fp orig s)  (hdict : Part.dict ∈ fp := by assumption) (hcpu : Part.cpu ∈ fp := by assumption) (htmr : Part.tmr ∈ fp := by assumption) :
    Frame fp orig (State.timerMoved s n at_ under begins) := by
  unfold State.timerMoved
  repeat' first
    | intro _
    | with_reducible assumption
    | with_reducible apply State.outsFollow_frame
    | with_reducible apply State.timerEvent_frame
    | with_reducible apply frame_ite
    | (extract_lets +onlyGivenNames -underBinder x; first | (refine frame_cut (fp := fp) (orig := orig) (x := x) ?_ ?_ <;> first | (intro h0; generalize x = y at h0 ⊢; clear x) | intro h0 | subst x) | (have h0 := Nat.zero_le x; generalize x = y at h0 ⊢; clear h0 x) | subst x)
    | split
    | dsimp only
    | (with_reducible refine frame_mk ?_)

theorem State.timerBegin_frame {fp : List Part} {orig : State} {s : State} (fuel at_ n : Nat) (hs : Frame fp orig s) (hdict : Part.dict ∈ fp := by assumption) (hcpu : Part.cpu ∈ fp := by assumption) (htmr : Part.tmr ∈ fp := by assumption) :
    Frame fp orig (State.timerBegin fuel at_ n s) := by
  induction fuel generalizing n s with
  | zero => exact hs
  | succ k ih =>
    unfold State.timerBegin
    repeat' first
    | with_reducible assumption
    | with_reducible apply ih
    | with_reducible apply State.set_frame
    | with_reducible apply State.timerMoved_frame
    | with_reducible apply State.modTimer_frame
    | with_reducible apply State.setTimerState_frame
    | (extract_lets +onlyGivenNames -underBinder x; first | (refine frame_cut (fp := fp) (orig := orig) (x := x) ?_ ?_ <;> first | (intro h0; generalize x = y at h0 ⊢; clear x) | intro h0 | subst x) | (have h0 := Nat.zero_le x; generalize x = y at h0 ⊢; clear h0 x) | subst x)
    | intro _
    | with_reducible apply frame_foldl
    | with_reducible apply frame_ite
    | split
    | dsimp only
    | (with_reducible refine frame_mk ?_)

theorem State.timerStep_frame {fp : List Part} {orig : State} {s : State} (fuel at_ n : Nat) (hs : Frame fp orig s) (hdict : Part.dict ∈ fp := by assumption) (hcpu : Part.cpu ∈ fp := by assumption) (htmr : Part.tmr ∈ fp := by assumption) :
    Frame fp orig (State.timerStep fuel at_ n s) := by
  induction fuel generalizing n s with
  | zero => exact hs
  | succ k ih =>
    unfold State.timerStep
    repeat' first
    | with_reducible assumption
    | with_reducible apply ih
    | with_reducible apply State.timerBegin_frame
    | with_reducible apply State.count_frame
    | with_reducible apply State.set_frame
    | with_reducible apply State.timerMoved_frame
    | with_reducible apply State.modTimer_frame
    | with_reducible apply State.setTimerState_frame
    | (extract_lets +onlyGivenNames -underBinder x; first | (refine frame_cut (fp := fp) (orig := orig) (x := x) ?_ ?_ <;> first | (intro h0; generalize x = y at h0 ⊢; clear x) | intro h0 | subst x) | (have h0 := Nat.zero_le x; generalize x = y at h0 ⊢; clear h0 x) | subst x)
    | intro _
    | with_reducible apply frame_foldl
    | with_reducible apply frame_ite
    | split
    | dsimp only
    | (with_reducible refine frame_mk ?_)

theorem State.timerTo_frame {fp : List Part} {orig : State} {s : State} (n : Nat) (at_ : Nat) (hs : Frame fp orig s)  (hdict : Part.dict ∈ fp := by assumption) (hcpu : Part.cpu ∈ fp := by assumption) (htmr : Part.tmr ∈ fp := by assumption) :
    Frame fp orig (State.timerTo s n at_) := by
  unfold State.timerTo
  repeat' first
    | intro _
    | with_reducible assumption
    | with_reducible apply State.timerStep_frame
    | with_reducible apply State.set_frame
    | with_reducible apply frame_ite
    | (extract_lets +onlyGivenNames -underBinder x; first | (refine frame_cut (fp := fp) (orig := orig) (x := x) ?_ ?_ <;> first | (intro h0; generalize x = y at h0 ⊢; clear x) | intro h0 | subst x) | (have h0 := Nat.zero_le x; generalize x = y at h0 ⊢; clear h0 x) | subst x)
    | split
    | dsimp only
    | (with_reducible refine frame_mk ?_)

theorem State.stopStep_frame {fp : List Part} {orig : State} {s : State} (t : Nat) (n : Nat) (hs : Frame fp orig s)  (hdict : Part.dict ∈ fp := by assumption) (hcpu : Part.cpu ∈ fp := by assumption) (htmr : Part.tmr ∈ fp := by assumption) :
    Frame fp orig (State.stopStep s t n) := by
  unfold State.stopStep
  repeat' first
    | intro _
    | with_reducible assumption
    | with_reducible apply State.timerTo_frame
    | with_reducible apply State.timerBegin_frame
    | with_reducible apply frame_ite
    | split
    | dsimp only
    | (with_reducible refine frame_mk ?_)

theorem State.timerHalt_frame {fp : List Part} {orig : State} {s : State} (n : Nat) (hs : Frame fp orig s)  (hdict : Part.dict ∈ fp := by assumption) (htmr : Part.tmr ∈ fp := by assumption) :
    Frame fp orig (State.timerHalt s n) := by
  unfold State.timerHalt
  repeat' first
    | intro _
    | with_reducible assumption
    | with_reducible apply State.setTimerState_frame
    | with_reducible apply State.modTimer_frame
    | with_reducible apply frame_ite
    | (extract_lets +onlyGivenNames -underBinder x; first | (refine frame_cut (fp := fp) (orig := orig) (x := x) ?_ ?_ <;> first | (intro h0; generalize x = y at h0 ⊢; clear x) | intro h0 | subst x) | (have h0 := Nat.zero_le x; generalize x = y at h0 ⊢; clear h0 x) | subst x)
    | split
    | dsimp only
    | (with_reducible refine frame_mk ?_)

theorem State.timersStop_frame {fp : List Part} {orig : State} {s : State} (before : Nat) (hs : Frame fp orig s)  (hdict : Part.dict ∈ fp := by assumption) (hcpu : Part.cpu ∈ fp := by assumption) (htmr : Part.tmr ∈ fp := by assumption) :
    Frame fp orig (State.timersStop s before) := by
  unfold State.timersStop
  repeat' first
    | intro _
    | with_reducible assumption
    | with_reducible apply State.timerHalt_frame
    | with_reducible apply State.stopStep_frame
    | with_reducible apply frame_foldl
    | with_reducible apply frame_foldl_fst
    | (extract_lets +onlyGivenNames -underBinder x; first | (refine frame_cut (fp := fp) (orig := orig) (x := x) ?_ ?_ <;> first | (intro h0; generalize x = y at h0 ⊢; clear x) | intro h0 | subst x) | (have h0 := Nat.zero_le x; generalize x = y at h0 ⊢; clear h0 x) | subst x)
    | split
    | dsimp only
    | (with_reducible refine frame_mk ?_)

theorem State.timersSettle_frame {fp : List Part} {orig : State} {s : State}  (hs : Frame fp orig s)  (hdict : Part.dict ∈ fp := by assumption) (hcpu : Part.cpu ∈ fp := by assumption) (htmr : Part.tmr ∈ fp := by assumption) :
    Frame fp orig (State.timersSettle s) := by
  unfold State.timersSettle
  repeat' first
    | intro _
    | with_reducible assumption
    | with_reducible apply State.timersStop_frame
    | dsimp only
    | (with_reducible refine frame_mk ?_)

theorem State.timersTick_frame {fp : List Part} {orig : State} {s : State}  (hs : Frame fp orig s)  (hdict : Part.dict ∈ fp := by assumption) (hcpu : Part.cpu ∈ fp := by assumption) (htmr : Part.tmr ∈ fp := by assumption) :
    Frame fp orig (State.timersTick s) := by
  unfold State.timersTick
  repeat' first
    | intro _
    | with_reducible assumption
    | with_reducible apply State.timersSettle_frame
    | with_reducible apply State.timersStop_frame
    | with_reducible apply State.timerStep_frame
    | with_reducible apply frame_foldl
    | with_reducible apply frame_foldl_fst
    | (extract_lets +onlyGivenNames -underBinder x; first | (refine frame_cut (fp := fp) (orig := orig) (x := x) ?_ ?_ <;> first | (intro h0; generalize x = y at h0 ⊢; clear x) | intro h0 | subst x) | (have h0 := Nat.zero_le x; generalize x = y at h0 ⊢; clear h0 x) | subst x)
    | dsimp only
    | (with_reducible refine frame_mk ?_)

theorem State.timerStart_frame {fp : List Part} {orig : State} {s : State} (n : Nat) (at_ : Nat) (hs : Frame fp orig s)  (hdict : Part.dict ∈ fp := by assumption) (htime : Part.time ∈ fp := by assumption) (hcpu : Part.cpu ∈ fp := by assumption) (htmr : Part.tmr ∈ fp := by assumption) :
    Frame fp orig (State.timerStart s n at_) := by
  unfold State.timerStart
  repeat' first
    | intro _
    | with_reducible assumption
    | with_reducible apply State.timerBegin_frame
    | with_reducible apply State.reach_frame
    | with_reducible apply frame_ite
    | (extract_lets +onlyGivenNames -underBinder x; first | (refine frame_cut (fp := fp) (orig := orig) (x := x) ?_ ?_ <;> first | (intro h0; generalize x = y at h0 ⊢; clear x) | intro h0 | subst x) | (have h0 := Nat.zero_le x; generalize x = y at h0 ⊢; clear h0 x) | subst x)
    | split
    | dsimp only
    | (with_reducible refine frame_mk ?_)

theorem State.timersPin_frame {fp : List Part} {orig : State} {s : State} (i : Nat) (rising : Bool) (at_ : Nat) (hs : Frame fp orig s)  (hdict : Part.dict ∈ fp := by assumption) (hcpu : Part.cpu ∈ fp := by assumption) (htmr : Part.tmr ∈ fp := by assumption) :
    Frame fp orig (State.timersPin s i rising at_) := by
  unfold State.timersPin
  repeat' first
    | intro _
    | with_reducible assumption
    | with_reducible apply State.timerStep_frame
    | with_reducible apply frame_foldl
    | with_reducible apply frame_foldl_fst
    | (extract_lets +onlyGivenNames -underBinder x; first | (refine frame_cut (fp := fp) (orig := orig) (x := x) ?_ ?_ <;> first | (intro h0; generalize x = y at h0 ⊢; clear x) | intro h0 | subst x) | (have h0 := Nat.zero_le x; generalize x = y at h0 ⊢; clear h0 x) | subst x)
    | dsimp only
    | (with_reducible refine frame_mk ?_)

theorem State.timerArm_frame {fp : List Part} {orig : State} {s : State} (n : Nat) (a : Arm) (hs : Frame fp orig s)  (hdict : Part.dict ∈ fp := by assumption) (htmr : Part.tmr ∈ fp := by assumption) :
    Frame fp orig (State.timerArm s n a) := by
  unfold State.timerArm
  repeat' first
    | intro _
    | with_reducible assumption
    | with_reducible apply State.setTimerState_frame
    | with_reducible apply State.modTimer_frame
    | with_reducible apply State.set_frame
    | (extract_lets +onlyGivenNames -underBinder x; first | (refine frame_cut (fp := fp) (orig := orig) (x := x) ?_ ?_ <;> first | (intro h0; generalize x = y at h0 ⊢; clear x) | intro h0 | subst x) | (have h0 := Nat.zero_le x; generalize x = y at h0 ⊢; clear h0 x) | subst x)
    | dsimp only
    | (with_reducible refine frame_mk ?_)

theorem State.timerCommand_frame {fp : List Part} {orig : State} {s : State} (n : Nat) (cmd : Nat) (hs : Frame fp orig s)  (hdict : Part.dict ∈ fp := by assumption) (hcpu : Part.cpu ∈ fp := by assumption) (htmr : Part.tmr ∈ fp := by assumption) :
    Frame fp orig (State.timerCommand s n cmd) := by
  unfold State.timerCommand
  repeat' first
    | intro _
    | with_reducible assumption
    | with_reducible apply State.timerArm_frame
    | with_reducible apply State.timerEvent_frame
    | with_reducible apply State.modTimer_frame
    | with_reducible apply frame_ite
    | (extract_lets +onlyGivenNames -underBinder x; first | (refine frame_cut (fp := fp) (orig := orig) (x := x) ?_ ?_ <;> first | (intro h0; generalize x = y at h0 ⊢; clear x) | intro h0 | subst x) | (have h0 := Nat.zero_le x; generalize x = y at h0 ⊢; clear h0 x) | subst x)
    | split
    | dsimp only
    | (with_reducible refine frame_mk ?_)

theorem State.groupStart_frame {fp : List Part} {orig : State} {s : State} (mask : Nat) (hs : Frame fp orig s)  (hdict : Part.dict ∈ fp := by assumption) (hcpu : Part.cpu ∈ fp := by assumption) (htmr : Part.tmr ∈ fp := by assumption) :
    Frame fp orig (State.groupStart s mask) := by
  unfold State.groupStart
  repeat' first
    | intro _
    | with_reducible assumption
    | with_reducible apply State.timerArm_frame
    | with_reducible apply State.timerEvent_frame
    | with_reducible apply frame_foldl
    | with_reducible apply frame_foldl_fst
    | with_reducible apply frame_ite
    | (extract_lets +onlyGivenNames -underBinder x; first | (refine frame_cut (fp := fp) (orig := orig) (x := x) ?_ ?_ <;> first | (intro h0; generalize x = y at h0 ⊢; clear x) | intro h0 | subst x) | (have h0 := Nat.zero_le x; generalize x = y at h0 ⊢; clear h0 x) | subst x)
    | split
    | dsimp only
    | (with_reducible refine frame_mk ?_)

theorem State.capture_frame {fp : List Part} {orig : State} {s : State} (i : Nat) (rising : Bool) (hs : Frame fp orig s)  (hdict : Part.dict ∈ fp := by assumption) (hcpu : Part.cpu ∈ fp := by assumption) (htmr : Part.tmr ∈ fp := by assumption) :
    Frame fp orig (State.capture s i rising) := by
  unfold State.capture
  repeat' first
    | intro _
    | with_reducible assumption
    | with_reducible apply State.raiseInt_frame
    | with_reducible apply State.flag_frame
    | with_reducible apply frame_ite
    | (extract_lets +onlyGivenNames -underBinder x; first | (refine frame_cut (fp := fp) (orig := orig) (x := x) ?_ ?_ <;> first | (intro h0; generalize x = y at h0 ⊢; clear x) | intro h0 | subst x) | (have h0 := Nat.zero_le x; generalize x = y at h0 ⊢; clear h0 x) | subst x)
    | split
    | dsimp only
    | (with_reducible refine frame_mk ?_)

theorem State.captureTake_frame {fp : List Part} {orig : State} {s : State} (i : Nat) (hs : Frame fp orig s)  (htmr : Part.tmr ∈ fp := by assumption) :
    Frame fp orig (State.captureTake s i) := by
  unfold State.captureTake
  repeat' first
    | intro _
    | with_reducible assumption
    | dsimp only
    | (with_reducible refine frame_mk ?_)

theorem State.timerRead_frame {fp : List Part} {orig : State} {s : State} (a : Nat) (hs : Frame fp orig s)  (hdict : Part.dict ∈ fp := by assumption) (hcpu : Part.cpu ∈ fp := by assumption) (htmr : Part.tmr ∈ fp := by assumption) :
    Frame fp orig (State.timerRead s a).2 := by
  unfold State.timerRead
  repeat' first
    | intro _
    | with_reducible assumption
    | with_reducible apply State.captureTake_frame
    | with_reducible apply State.timersSettle_frame
    | with_reducible apply frame_ite
    | with_reducible apply frame_ite_snd
    | (extract_lets +onlyGivenNames -underBinder x; first | (refine frame_cut (fp := fp) (orig := orig) (x := x) ?_ ?_ <;> first | (intro h0; generalize x = y at h0 ⊢; clear x) | intro h0 | subst x) | (have h0 := Nat.zero_le x; generalize x = y at h0 ⊢; clear h0 x) | subst x)
    | split
    | dsimp only
    | (with_reducible refine frame_mk ?_)

theorem State.timerWrite_frame {fp : List Part} {orig : State} {s : State} (a : Nat) (w : Word) (hs : Frame fp orig s)  (hdict : Part.dict ∈ fp := by assumption) (hcpu : Part.cpu ∈ fp := by assumption) (htmr : Part.tmr ∈ fp := by assumption) :
    Frame fp orig (State.timerWrite s a w) := by
  unfold State.timerWrite
  repeat' first
    | intro _
    | with_reducible assumption
    | with_reducible apply State.timerCommand_frame
    | with_reducible apply State.timersSettle_frame
    | with_reducible apply State.modTimer_frame
    | with_reducible apply State.set_frame
    | with_reducible apply frame_ite
    | (extract_lets +onlyGivenNames -underBinder x; first | (refine frame_cut (fp := fp) (orig := orig) (x := x) ?_ ?_ <;> first | (intro h0; generalize x = y at h0 ⊢; clear x) | intro h0 | subst x) | (have h0 := Nat.zero_le x; generalize x = y at h0 ⊢; clear h0 x) | subst x)
    | split
    | dsimp only
    | (with_reducible refine frame_mk ?_)

theorem State.timerPondStep_frame {fp : List Part} {orig : State} {s : State} (old : Nat) (new : Nat) (n : Nat) (hs : Frame fp orig s)  (hdict : Part.dict ∈ fp := by assumption) (hcpu : Part.cpu ∈ fp := by assumption) (htmr : Part.tmr ∈ fp := by assumption) :
    Frame fp orig (State.timerPondStep s old new n) := by
  unfold State.timerPondStep
  repeat' first
    | intro _
    | with_reducible assumption
    | with_reducible apply State.timerTo_frame
    | with_reducible apply State.timerStep_frame
    | with_reducible apply State.timerBegin_frame
    | with_reducible apply State.timerEvent_frame
    | with_reducible apply State.modTimer_frame
    | with_reducible apply frame_ite
    | (extract_lets +onlyGivenNames -underBinder x; first | (refine frame_cut (fp := fp) (orig := orig) (x := x) ?_ ?_ <;> first | (intro h0; generalize x = y at h0 ⊢; clear x) | intro h0 | subst x) | (have h0 := Nat.zero_le x; generalize x = y at h0 ⊢; clear h0 x) | subst x)
    | split
    | dsimp only
    | (with_reducible refine frame_mk ?_)

theorem State.timersPondStep_frame {fp : List Part} {orig : State} {s : State} (old : Nat) (new : Nat) (hs : Frame fp orig s)  (hdict : Part.dict ∈ fp := by assumption) (hcpu : Part.cpu ∈ fp := by assumption) (htmr : Part.tmr ∈ fp := by assumption) :
    Frame fp orig (State.timersPondStep s old new) := by
  unfold State.timersPondStep
  repeat' first
    | intro _
    | with_reducible assumption
    | with_reducible apply State.timerPondStep_frame
    | with_reducible apply State.flag_frame
    | with_reducible apply frame_foldl
    | with_reducible apply frame_foldl_fst
    | with_reducible apply frame_ite
    | (extract_lets +onlyGivenNames -underBinder x; first | (refine frame_cut (fp := fp) (orig := orig) (x := x) ?_ ?_ <;> first | (intro h0; generalize x = y at h0 ⊢; clear x) | intro h0 | subst x) | (have h0 := Nat.zero_le x; generalize x = y at h0 ⊢; clear h0 x) | subst x)
    | split
    | dsimp only
    | (with_reducible refine frame_mk ?_)

theorem State.timersSleep_frame {fp : List Part} {orig : State} {s : State}  (hs : Frame fp orig s)  (hdict : Part.dict ∈ fp := by assumption) (htmr : Part.tmr ∈ fp := by assumption) :
    Frame fp orig (State.timersSleep s) := by
  unfold State.timersSleep
  repeat' first
    | intro _
    | with_reducible assumption
    | with_reducible apply State.setTimerState_frame
    | with_reducible apply State.modTimer_frame
    | with_reducible apply frame_foldl
    | with_reducible apply frame_foldl_fst
    | (extract_lets +onlyGivenNames -underBinder x; first | (refine frame_cut (fp := fp) (orig := orig) (x := x) ?_ ?_ <;> first | (intro h0; generalize x = y at h0 ⊢; clear x) | intro h0 | subst x) | (have h0 := Nat.zero_le x; generalize x = y at h0 ⊢; clear h0 x) | subst x)
    | dsimp only
    | (with_reducible refine frame_mk ?_)

theorem State.timersWake_frame {fp : List Part} {orig : State} {s : State}  (hs : Frame fp orig s)  (htmr : Part.tmr ∈ fp := by assumption) :
    Frame fp orig (State.timersWake s) := by
  unfold State.timersWake
  repeat' first
    | intro _
    | with_reducible assumption
    | dsimp only
    | (with_reducible refine frame_mk ?_)

theorem State.timerEventAt_frame {fp : List Part} {orig : State} {s : State} (n : Nat) (at_ : Nat) (due : State → Bool) (hs : Frame fp orig s)  (hdict : Part.dict ∈ fp := by assumption) (htime : Part.time ∈ fp := by assumption) (hcpu : Part.cpu ∈ fp := by assumption) (htmr : Part.tmr ∈ fp := by assumption) :
    Frame fp orig (State.timerEventAt s n at_ due) := by
  unfold State.timerEventAt
  repeat' first
    | intro _
    | with_reducible assumption
    | with_reducible apply State.timersSettle_frame
    | with_reducible apply State.timersStop_frame
    | with_reducible apply State.timerTo_frame
    | with_reducible apply State.reach_frame
    | with_reducible apply frame_ite
    | (extract_lets +onlyGivenNames -underBinder x; first | (refine frame_cut (fp := fp) (orig := orig) (x := x) ?_ ?_ <;> first | (intro h0; generalize x = y at h0 ⊢; clear x) | intro h0 | subst x) | (have h0 := Nat.zero_le x; generalize x = y at h0 ⊢; clear h0 x) | subst x)
    | split
    | dsimp only
    | (with_reducible refine frame_mk ?_)

/-! ### Chains -/

theorem State.modAnt_frame {fp : List Part} {orig : State} {s : State} (a : Nat) (f : AntSt → AntSt) (hs : Frame fp orig s)  (hrx : Part.rx ∈ fp := by assumption) :
    Frame fp orig (State.modAnt s a f) := by
  unfold State.modAnt
  repeat' first
    | intro _
    | with_reducible assumption
    | dsimp only
    | (with_reducible refine frame_mk ?_)

theorem State.modChain_frame {fp : List Part} {orig : State} {s : State} (c : Nat) (f : ChainSt → ChainSt) (hs : Frame fp orig s)  (hrx : Part.rx ∈ fp := by assumption) :
    Frame fp orig (State.modChain s c f) := by
  unfold State.modChain
  repeat' first
    | intro _
    | with_reducible assumption
    | dsimp only
    | (with_reducible refine frame_mk ?_)

theorem State.modNotch_frame {fp : List Part} {orig : State} {s : State} (n : Nat) (f : NotchSt → NotchSt) (hs : Frame fp orig s)  (hrx : Part.rx ∈ fp := by assumption) :
    Frame fp orig (State.modNotch s n f) := by
  unfold State.modNotch
  repeat' first
    | intro _
    | with_reducible assumption
    | with_reducible apply State.modChain_frame
    | dsimp only
    | (with_reducible refine frame_mk ?_)

theorem State.buses_frame {fp : List Part} {orig : State} {s : State} (c : Nat) (hs : Frame fp orig s)  (hrx : Part.rx ∈ fp := by assumption) :
    Frame fp orig (State.buses s c) := by
  unfold State.buses
  repeat' first
    | intro _
    | with_reducible assumption
    | with_reducible apply State.modChain_frame
    | with_reducible apply frame_ite
    | (extract_lets +onlyGivenNames -underBinder x; first | (refine frame_cut (fp := fp) (orig := orig) (x := x) ?_ ?_ <;> first | (intro h0; generalize x = y at h0 ⊢; clear x) | intro h0 | subst x) | (have h0 := Nat.zero_le x; generalize x = y at h0 ⊢; clear h0 x) | subst x)
    | split
    | dsimp only
    | (with_reducible refine frame_mk ?_)

theorem State.antUpdate_frame {fp : List Part} {orig : State} {s : State} (a : Nat) (hs : Frame fp orig s)  (hdict : Part.dict ∈ fp := by assumption) :
    Frame fp orig (State.antUpdate s a) := by
  unfold State.antUpdate
  repeat' first
    | intro _
    | with_reducible assumption
    | with_reducible apply State.set_frame
    | with_reducible apply State.flag_frame
    | with_reducible apply frame_ite
    | (extract_lets +onlyGivenNames -underBinder x; first | (refine frame_cut (fp := fp) (orig := orig) (x := x) ?_ ?_ <;> first | (intro h0; generalize x = y at h0 ⊢; clear x) | intro h0 | subst x) | (have h0 := Nat.zero_le x; generalize x = y at h0 ⊢; clear h0 x) | subst x)
    | split
    | dsimp only
    | (with_reducible refine frame_mk ?_)

theorem State.antShort_frame {fp : List Part} {orig : State} {s : State} (a : Nat) (hs : Frame fp orig s)  (hdict : Part.dict ∈ fp := by assumption) (hrx : Part.rx ∈ fp := by assumption) :
    Frame fp orig (State.antShort s a) := by
  unfold State.antShort
  repeat' first
    | intro _
    | with_reducible assumption
    | with_reducible apply State.antUpdate_frame
    | with_reducible apply State.modAnt_frame
    | with_reducible apply frame_ite
    | (extract_lets +onlyGivenNames -underBinder x; first | (refine frame_cut (fp := fp) (orig := orig) (x := x) ?_ ?_ <;> first | (intro h0; generalize x = y at h0 ⊢; clear x) | intro h0 | subst x) | (have h0 := Nat.zero_le x; generalize x = y at h0 ⊢; clear h0 x) | subst x)
    | split
    | dsimp only
    | (with_reducible refine frame_mk ?_)

theorem State.antTrial_frame {fp : List Part} {orig : State} {s : State} (a : Nat) (current : Nat) (hs : Frame fp orig s)  (hdict : Part.dict ∈ fp := by assumption) (hrx : Part.rx ∈ fp := by assumption) :
    Frame fp orig (State.antTrial s a current) := by
  unfold State.antTrial
  repeat' first
    | intro _
    | with_reducible assumption
    | with_reducible apply State.antUpdate_frame
    | with_reducible apply State.modAnt_frame
    | with_reducible apply State.set_frame
    | with_reducible apply frame_ite
    | (extract_lets +onlyGivenNames -underBinder x; first | (refine frame_cut (fp := fp) (orig := orig) (x := x) ?_ ?_ <;> first | (intro h0; generalize x = y at h0 ⊢; clear x) | intro h0 | subst x) | (have h0 := Nat.zero_le x; generalize x = y at h0 ⊢; clear h0 x) | subst x)
    | split
    | dsimp only
    | (with_reducible refine frame_mk ?_)

theorem State.antLow_frame {fp : List Part} {orig : State} {s : State} (a : Nat) (mv : Nat) (hs : Frame fp orig s)  (hdict : Part.dict ∈ fp := by assumption) (hrx : Part.rx ∈ fp := by assumption) :
    Frame fp orig (State.antLow s a mv) := by
  unfold State.antLow
  repeat' first
    | intro _
    | with_reducible assumption
    | with_reducible apply State.antUpdate_frame
    | with_reducible apply State.modAnt_frame
    | with_reducible apply State.set_frame
    | with_reducible apply frame_ite
    | split
    | dsimp only
    | (with_reducible refine frame_mk ?_)

theorem State.antLowEnd_frame {fp : List Part} {orig : State} {s : State} (a : Nat) (mv : Nat) (hs : Frame fp orig s)  (hdict : Part.dict ∈ fp := by assumption) (hrx : Part.rx ∈ fp := by assumption) :
    Frame fp orig (State.antLowEnd s a mv) := by
  unfold State.antLowEnd
  repeat' first
    | intro _
    | with_reducible assumption
    | with_reducible apply State.antUpdate_frame
    | with_reducible apply State.modAnt_frame
    | with_reducible apply State.set_frame
    | with_reducible apply frame_ite
    | split
    | dsimp only
    | (with_reducible refine frame_mk ?_)

theorem State.antOpen_frame {fp : List Part} {orig : State} {s : State} (a : Nat) (current : Nat) (hs : Frame fp orig s)  (hdict : Part.dict ∈ fp := by assumption) (hrx : Part.rx ∈ fp := by assumption) :
    Frame fp orig (State.antOpen s a current) := by
  unfold State.antOpen
  repeat' first
    | intro _
    | with_reducible assumption
    | with_reducible apply State.antUpdate_frame
    | with_reducible apply State.modAnt_frame
    | with_reducible apply State.set_frame
    | with_reducible apply frame_ite
    | split
    | dsimp only
    | (with_reducible refine frame_mk ?_)

theorem State.antOpenEnd_frame {fp : List Part} {orig : State} {s : State} (a : Nat) (current : Nat) (hs : Frame fp orig s)  (hdict : Part.dict ∈ fp := by assumption) (hrx : Part.rx ∈ fp := by assumption) :
    Frame fp orig (State.antOpenEnd s a current) := by
  unfold State.antOpenEnd
  repeat' first
    | intro _
    | with_reducible assumption
    | with_reducible apply State.antUpdate_frame
    | with_reducible apply State.modAnt_frame
    | with_reducible apply State.set_frame
    | with_reducible apply frame_ite
    | split
    | dsimp only
    | (with_reducible refine frame_mk ?_)

theorem State.antTick_frame {fp : List Part} {orig : State} {s : State} (a : Nat) (hs : Frame fp orig s)  (hdict : Part.dict ∈ fp := by assumption) (hrx : Part.rx ∈ fp := by assumption) :
    Frame fp orig (State.antTick s a) := by
  unfold State.antTick
  repeat' first
    | intro _
    | with_reducible assumption
    | with_reducible apply State.antUpdate_frame
    | with_reducible apply State.modAnt_frame
    | with_reducible apply frame_ite
    | (extract_lets +onlyGivenNames -underBinder x; first | (refine frame_cut (fp := fp) (orig := orig) (x := x) ?_ ?_ <;> first | (intro h0; generalize x = y at h0 ⊢; clear x) | intro h0 | subst x) | (have h0 := Nat.zero_le x; generalize x = y at h0 ⊢; clear h0 x) | subst x)
    | split
    | dsimp only
    | (with_reducible refine frame_mk ?_)

theorem State.calQueue_frame {fp : List Part} {orig : State} {s : State} (c : Nat) (steps : Nat) (head : Bool) (hs : Frame fp orig s)  (hrx : Part.rx ∈ fp := by assumption) :
    Frame fp orig (State.calQueue s c steps head) := by
  unfold State.calQueue
  repeat' first
    | intro _
    | with_reducible assumption
    | with_reducible apply State.modChain_frame
    | with_reducible apply frame_ite
    | (extract_lets +onlyGivenNames -underBinder x; first | (refine frame_cut (fp := fp) (orig := orig) (x := x) ?_ ?_ <;> first | (intro h0; generalize x = y at h0 ⊢; clear x) | intro h0 | subst x) | (have h0 := Nat.zero_le x; generalize x = y at h0 ⊢; clear h0 x) | subst x)
    | split
    | dsimp only
    | (with_reducible refine frame_mk ?_)

theorem State.calUnqueue_frame {fp : List Part} {orig : State} {s : State} (c : Nat) (hs : Frame fp orig s)  (hrx : Part.rx ∈ fp := by assumption) :
    Frame fp orig (State.calUnqueue s c) := by
  unfold State.calUnqueue
  repeat' first
    | intro _
    | with_reducible assumption
    | with_reducible apply State.modChain_frame
    | dsimp only
    | (with_reducible refine frame_mk ?_)

theorem State.calAnswered_frame {fp : List Part} {orig : State} {s : State} (c : Nat) (failed : Bool) (hs : Frame fp orig s)  (hdict : Part.dict ∈ fp := by assumption) (hrx : Part.rx ∈ fp := by assumption) :
    Frame fp orig (State.calAnswered s c failed) := by
  unfold State.calAnswered
  repeat' first
    | intro _
    | with_reducible assumption
    | with_reducible apply State.set_frame
    | with_reducible apply frame_ite
    | (extract_lets +onlyGivenNames -underBinder x; first | (refine frame_cut (fp := fp) (orig := orig) (x := x) ?_ ?_ <;> first | (intro h0; generalize x = y at h0 ⊢; clear x) | intro h0 | subst x) | (have h0 := Nat.zero_le x; generalize x = y at h0 ⊢; clear h0 x) | subst x)
    | split
    | dsimp only
    | (with_reducible refine frame_mk ?_)

theorem State.notchFreeze_frame {fp : List Part} {orig : State} {s : State} (c : Nat) (hs : Frame fp orig s)  (hdict : Part.dict ∈ fp := by assumption) (hrx : Part.rx ∈ fp := by assumption) :
    Frame fp orig (State.notchFreeze s c) := by
  unfold State.notchFreeze
  repeat' first
    | intro _
    | with_reducible assumption
    | with_reducible apply State.modNotch_frame
    | with_reducible apply State.set_frame
    | with_reducible apply frame_foldl
    | with_reducible apply frame_foldl_fst
    | with_reducible apply frame_ite
    | (extract_lets +onlyGivenNames -underBinder x; first | (refine frame_cut (fp := fp) (orig := orig) (x := x) ?_ ?_ <;> first | (intro h0; generalize x = y at h0 ⊢; clear x) | intro h0 | subst x) | (have h0 := Nat.zero_le x; generalize x = y at h0 ⊢; clear h0 x) | subst x)
    | split
    | dsimp only
    | (with_reducible refine frame_mk ?_)

theorem State.notchMoved_frame {fp : List Part} {orig : State} {s : State} (n : Nat) (f : Int) (hs : Frame fp orig s)  (hrx : Part.rx ∈ fp := by assumption) :
    Frame fp orig (State.notchMoved s n f) := by
  unfold State.notchMoved
  repeat' first
    | intro _
    | with_reducible assumption
    | with_reducible apply State.modChain_frame
    | with_reducible apply frame_ite
    | split
    | dsimp only
    | (with_reducible refine frame_mk ?_)

theorem State.notchEngage_frame {fp : List Part} {orig : State} {s : State} (n : Nat) (f : Int) (bin : Option Nat) (hs : Frame fp orig s)  (hdict : Part.dict ∈ fp := by assumption) (hrx : Part.rx ∈ fp := by assumption) :
    Frame fp orig (State.notchEngage s n f bin) := by
  unfold State.notchEngage
  repeat' first
    | intro _
    | with_reducible assumption
    | with_reducible apply State.notchMoved_frame
    | with_reducible apply State.modNotch_frame
    | with_reducible apply State.setI_frame
    | with_reducible apply State.set_frame
    | with_reducible apply State.bump_frame
    | (extract_lets +onlyGivenNames -underBinder x; first | (refine frame_cut (fp := fp) (orig := orig) (x := x) ?_ ?_ <;> first | (intro h0; generalize x = y at h0 ⊢; clear x) | intro h0 | subst x) | (have h0 := Nat.zero_le x; generalize x = y at h0 ⊢; clear h0 x) | subst x)
    | dsimp only
    | (with_reducible refine frame_mk ?_)

theorem State.notchRelease_frame {fp : List Part} {orig : State} {s : State} (n : Nat) (toward : Nat) (hs : Frame fp orig s)  (hdict : Part.dict ∈ fp := by assumption) (hrx : Part.rx ∈ fp := by assumption) :
    Frame fp orig (State.notchRelease s n toward) := by
  unfold State.notchRelease
  repeat' first
    | intro _
    | with_reducible assumption
    | with_reducible apply State.notchMoved_frame
    | with_reducible apply State.modNotch_frame
    | with_reducible apply State.set_frame
    | with_reducible apply frame_ite
    | (extract_lets +onlyGivenNames -underBinder x; first | (refine frame_cut (fp := fp) (orig := orig) (x := x) ?_ ?_ <;> first | (intro h0; generalize x = y at h0 ⊢; clear x) | intro h0 | subst x) | (have h0 := Nat.zero_le x; generalize x = y at h0 ⊢; clear h0 x) | subst x)
    | split
    | dsimp only
    | (with_reducible refine frame_mk ?_)

theorem State.notchApply_frame {fp : List Part} {orig : State} {s : State} (n : Nat) (hs : Frame fp orig s)  (hdict : Part.dict ∈ fp := by assumption) (hrx : Part.rx ∈ fp := by assumption) :
    Frame fp orig (State.notchApply s n) := by
  unfold State.notchApply
  repeat' first
    | intro _
    | with_reducible assumption
    | with_reducible apply State.notchRelease_frame
    | with_reducible apply State.notchEngage_frame
    | with_reducible apply State.notchMoved_frame
    | with_reducible apply State.setI_frame
    | with_reducible apply State.set_frame
    | with_reducible apply frame_ite
    | (extract_lets +onlyGivenNames -underBinder x; first | (refine frame_cut (fp := fp) (orig := orig) (x := x) ?_ ?_ <;> first | (intro h0; generalize x = y at h0 ⊢; clear x) | intro h0 | subst x) | (have h0 := Nat.zero_le x; generalize x = y at h0 ⊢; clear h0 x) | subst x)
    | split
    | dsimp only
    | (with_reducible refine frame_mk ?_)

theorem State.notchThaw_frame {fp : List Part} {orig : State} {s : State} (c : Nat) (hs : Frame fp orig s)  (hdict : Part.dict ∈ fp := by assumption) (hrx : Part.rx ∈ fp := by assumption) :
    Frame fp orig (State.notchThaw s c) := by
  unfold State.notchThaw
  repeat' first
    | intro _
    | with_reducible assumption
    | with_reducible apply State.notchApply_frame
    | with_reducible apply State.modNotch_frame
    | with_reducible apply State.set_frame
    | with_reducible apply frame_foldl
    | with_reducible apply frame_foldl_fst
    | with_reducible apply frame_ite
    | (extract_lets +onlyGivenNames -underBinder x; first | (refine frame_cut (fp := fp) (orig := orig) (x := x) ?_ ?_ <;> first | (intro h0; generalize x = y at h0 ⊢; clear x) | intro h0 | subst x) | (have h0 := Nat.zero_le x; generalize x = y at h0 ⊢; clear h0 x) | subst x)
    | split
    | dsimp only
    | (with_reducible refine frame_mk ?_)

theorem State.specDiscard_frame {fp : List Part} {orig : State} {s : State} (c : Nat) (hs : Frame fp orig s)  (hdict : Part.dict ∈ fp := by assumption) (hrx : Part.rx ∈ fp := by assumption) :
    Frame fp orig (State.specDiscard s c) := by
  unfold State.specDiscard
  repeat' first
    | intro _
    | with_reducible assumption
    | with_reducible apply State.bump_frame
    | with_reducible apply frame_ite
    | split
    | dsimp only
    | (with_reducible refine frame_mk ?_)

theorem State.calStart_frame {fp : List Part} {orig : State} {s : State}  (hs : Frame fp orig s)  (hdict : Part.dict ∈ fp := by assumption) (hrx : Part.rx ∈ fp := by assumption) :
    Frame fp orig (State.calStart s) := by
  unfold State.calStart
  repeat' first
    | intro _
    | with_reducible assumption
    | with_reducible apply State.specDiscard_frame
    | with_reducible apply State.notchFreeze_frame
    | with_reducible apply State.buses_frame
    | with_reducible apply State.modChain_frame
    | with_reducible apply State.set_frame
    | with_reducible apply frame_ite
    | (extract_lets +onlyGivenNames -underBinder x; first | (refine frame_cut (fp := fp) (orig := orig) (x := x) ?_ ?_ <;> first | (intro h0; generalize x = y at h0 ⊢; clear x) | intro h0 | subst x) | (have h0 := Nat.zero_le x; generalize x = y at h0 ⊢; clear h0 x) | subst x)
    | split
    | dsimp only
    | (with_reducible refine frame_mk ?_)

theorem State.calOver_frame {fp : List Part} {orig : State} {s : State} (c : Nat) (hs : Frame fp orig s)  (hrx : Part.rx ∈ fp := by assumption) :
    Frame fp orig (State.calOver s c) := by
  unfold State.calOver
  repeat' first
    | intro _
    | with_reducible assumption
    | with_reducible apply State.modChain_frame
    | with_reducible apply frame_ite
    | (extract_lets +onlyGivenNames -underBinder x; first | (refine frame_cut (fp := fp) (orig := orig) (x := x) ?_ ?_ <;> first | (intro h0; generalize x = y at h0 ⊢; clear x) | intro h0 | subst x) | (have h0 := Nat.zero_le x; generalize x = y at h0 ⊢; clear h0 x) | subst x)
    | split
    | dsimp only
    | (with_reducible refine frame_mk ?_)

theorem State.calFail_frame {fp : List Part} {orig : State} {s : State} (r : CalRun) (step : Nat) (hs : Frame fp orig s)  (hdict : Part.dict ∈ fp := by assumption) (hsilt : Part.silt ∈ fp := by assumption) (hrx : Part.rx ∈ fp := by assumption) :
    Frame fp orig (State.calFail s r step) := by
  unfold State.calFail
  repeat' first
    | intro _
    | with_reducible assumption
    | with_reducible apply State.calOver_frame
    | with_reducible apply State.calAnswered_frame
    | with_reducible apply State.calUnqueue_frame
    | with_reducible apply State.buses_frame
    | with_reducible apply State.modChain_frame
    | with_reducible apply State.set_frame
    | with_reducible apply State.flag_frame
    | with_reducible apply State.log_frame
    | with_reducible apply frame_ite
    | (extract_lets +onlyGivenNames -underBinder x; first | (refine frame_cut (fp := fp) (orig := orig) (x := x) ?_ ?_ <;> first | (intro h0; generalize x = y at h0 ⊢; clear x) | intro h0 | subst x) | (have h0 := Nat.zero_le x; generalize x = y at h0 ⊢; clear h0 x) | subst x)
    | split
    | dsimp only
    | (with_reducible refine frame_mk ?_)

theorem State.chainDown_frame {fp : List Part} {orig : State} {s : State} (c : Nat) (hs : Frame fp orig s)  (hdict : Part.dict ∈ fp := by assumption) (hrx : Part.rx ∈ fp := by assumption) :
    Frame fp orig (State.chainDown s c) := by
  unfold State.chainDown
  repeat' first
    | intro _
    | with_reducible assumption
    | with_reducible apply State.calAnswered_frame
    | with_reducible apply State.calUnqueue_frame
    | with_reducible apply State.buses_frame
    | with_reducible apply State.modChain_frame
    | with_reducible apply State.set_frame
    | with_reducible apply frame_ite
    | (extract_lets +onlyGivenNames -underBinder x; first | (refine frame_cut (fp := fp) (orig := orig) (x := x) ?_ ?_ <;> first | (intro h0; generalize x = y at h0 ⊢; clear x) | intro h0 | subst x) | (have h0 := Nat.zero_le x; generalize x = y at h0 ⊢; clear h0 x) | subst x)
    | split
    | dsimp only
    | (with_reducible refine frame_mk ?_)

theorem State.calStepEnd_frame {fp : List Part} {orig : State} {s : State} (pass : Bool) (image : Nat) (hs : Frame fp orig s)  (hdict : Part.dict ∈ fp := by assumption) (hsilt : Part.silt ∈ fp := by assumption) (hrx : Part.rx ∈ fp := by assumption) :
    Frame fp orig (State.calStepEnd s pass image) := by
  unfold State.calStepEnd
  repeat' first
    | intro _
    | with_reducible assumption
    | with_reducible apply State.chainDown_frame
    | with_reducible apply State.calFail_frame
    | with_reducible apply State.calOver_frame
    | with_reducible apply State.buses_frame
    | with_reducible apply State.modChain_frame
    | with_reducible apply State.set_frame
    | with_reducible apply frame_ite
    | (extract_lets +onlyGivenNames -underBinder x; first | (refine frame_cut (fp := fp) (orig := orig) (x := x) ?_ ?_ <;> first | (intro h0; generalize x = y at h0 ⊢; clear x) | intro h0 | subst x) | (have h0 := Nat.zero_le x; generalize x = y at h0 ⊢; clear h0 x) | subst x)
    | split
    | dsimp only
    | (with_reducible refine frame_mk ?_)

theorem State.calEnd_frame {fp : List Part} {orig : State} {s : State}  (hs : Frame fp orig s)  (hdict : Part.dict ∈ fp := by assumption) (hrx : Part.rx ∈ fp := by assumption) :
    Frame fp orig (State.calEnd s) := by
  unfold State.calEnd
  repeat' first
    | intro _
    | with_reducible assumption
    | with_reducible apply State.chainDown_frame
    | with_reducible apply State.calOver_frame
    | with_reducible apply State.calStart_frame
    | with_reducible apply State.calAnswered_frame
    | with_reducible apply State.buses_frame
    | with_reducible apply State.modChain_frame
    | with_reducible apply State.set_frame
    | with_reducible apply frame_ite
    | (extract_lets +onlyGivenNames -underBinder x; first | (refine frame_cut (fp := fp) (orig := orig) (x := x) ?_ ?_ <;> first | (intro h0; generalize x = y at h0 ⊢; clear x) | intro h0 | subst x) | (have h0 := Nat.zero_le x; generalize x = y at h0 ⊢; clear h0 x) | subst x)
    | split
    | dsimp only
    | (with_reducible refine frame_mk ?_)

theorem State.loUnlock_frame {fp : List Part} {orig : State} {s : State} (c : Nat) (hs : Frame fp orig s)  (hdict : Part.dict ∈ fp := by assumption) (hrx : Part.rx ∈ fp := by assumption) :
    Frame fp orig (State.loUnlock s c) := by
  unfold State.loUnlock
  repeat' first
    | intro _
    | with_reducible assumption
    | with_reducible apply State.calQueue_frame
    | with_reducible apply State.buses_frame
    | with_reducible apply State.modChain_frame
    | with_reducible apply State.flag_frame
    | with_reducible apply frame_ite
    | (extract_lets +onlyGivenNames -underBinder x; first | (refine frame_cut (fp := fp) (orig := orig) (x := x) ?_ ?_ <;> first | (intro h0; generalize x = y at h0 ⊢; clear x) | intro h0 | subst x) | (have h0 := Nat.zero_le x; generalize x = y at h0 ⊢; clear h0 x) | subst x)
    | split
    | dsimp only
    | (with_reducible refine frame_mk ?_)

theorem State.faultRetry_frame {fp : List Part} {orig : State} {s : State} (c : Nat) (hs : Frame fp orig s)  (hrx : Part.rx ∈ fp := by assumption) :
    Frame fp orig (State.faultRetry s c) := by
  unfold State.faultRetry
  repeat' first
    | intro _
    | with_reducible assumption
    | with_reducible apply State.calQueue_frame
    | with_reducible apply frame_ite
    | split
    | dsimp only
    | (with_reducible refine frame_mk ?_)

theorem State.calRequest_frame {fp : List Part} {orig : State} {s : State} (v : Nat) (hs : Frame fp orig s)  (hdict : Part.dict ∈ fp := by assumption) (hrx : Part.rx ∈ fp := by assumption) :
    Frame fp orig (State.calRequest s v) := by
  unfold State.calRequest
  repeat' first
    | intro _
    | with_reducible assumption
    | with_reducible apply State.calQueue_frame
    | with_reducible apply State.set_frame
    | with_reducible apply frame_foldl
    | with_reducible apply frame_foldl_fst
    | with_reducible apply frame_ite
    | (extract_lets +onlyGivenNames -underBinder x; first | (refine frame_cut (fp := fp) (orig := orig) (x := x) ?_ ?_ <;> first | (intro h0; generalize x = y at h0 ⊢; clear x) | intro h0 | subst x) | (have h0 := Nat.zero_le x; generalize x = y at h0 ⊢; clear h0 x) | subst x)
    | split
    | dsimp only
    | (with_reducible refine frame_mk ?_)

theorem State.calTemp_frame {fp : List Part} {orig : State} {s : State} (c : Nat) (hs : Frame fp orig s)  (hdict : Part.dict ∈ fp := by assumption) (hrx : Part.rx ∈ fp := by assumption) :
    Frame fp orig (State.calTemp s c) := by
  unfold State.calTemp
  repeat' first
    | intro _
    | with_reducible assumption
    | with_reducible apply State.calQueue_frame
    | with_reducible apply State.modChain_frame
    | with_reducible apply State.flag_frame
    | with_reducible apply frame_ite
    | (extract_lets +onlyGivenNames -underBinder x; first | (refine frame_cut (fp := fp) (orig := orig) (x := x) ?_ ?_ <;> first | (intro h0; generalize x = y at h0 ⊢; clear x) | intro h0 | subst x) | (have h0 := Nat.zero_le x; generalize x = y at h0 ⊢; clear h0 x) | subst x)
    | split
    | dsimp only
    | (with_reducible refine frame_mk ?_)

theorem State.chainSense_frame {fp : List Part} {orig : State} {s : State} (c : Nat) (r : ChainReading) (hs : Frame fp orig s)  (hdict : Part.dict ∈ fp := by assumption) (hrx : Part.rx ∈ fp := by assumption) :
    Frame fp orig (State.chainSense s c r) := by
  unfold State.chainSense
  repeat' first
    | intro _
    | with_reducible assumption
    | with_reducible apply State.modChain_frame
    | with_reducible apply State.set_frame
    | with_reducible apply frame_ite
    | (extract_lets +onlyGivenNames -underBinder x; first | (refine frame_cut (fp := fp) (orig := orig) (x := x) ?_ ?_ <;> first | (intro h0; generalize x = y at h0 ⊢; clear x) | intro h0 | subst x) | (have h0 := Nat.zero_le x; generalize x = y at h0 ⊢; clear h0 x) | subst x)
    | split
    | dsimp only
    | (with_reducible refine frame_mk ?_)

theorem State.baseline_frame {fp : List Part} {orig : State} {s : State} (c : Nat) (hs : Frame fp orig s)  (hdict : Part.dict ∈ fp := by assumption) (hrx : Part.rx ∈ fp := by assumption) :
    Frame fp orig (State.baseline s c) := by
  unfold State.baseline
  repeat' first
    | intro _
    | with_reducible assumption
    | with_reducible apply State.modChain_frame
    | with_reducible apply State.set_frame
    | with_reducible apply frame_ite
    | (extract_lets +onlyGivenNames -underBinder x; first | (refine frame_cut (fp := fp) (orig := orig) (x := x) ?_ ?_ <;> first | (intro h0; generalize x = y at h0 ⊢; clear x) | intro h0 | subst x) | (have h0 := Nat.zero_le x; generalize x = y at h0 ⊢; clear h0 x) | subst x)
    | split
    | dsimp only
    | (with_reducible refine frame_mk ?_)

theorem State.baselineLearn_frame {fp : List Part} {orig : State} {s : State} (c : Nat) (hs : Frame fp orig s)  (hdict : Part.dict ∈ fp := by assumption) (hrx : Part.rx ∈ fp := by assumption) :
    Frame fp orig (State.baselineLearn s c) := by
  unfold State.baselineLearn
  repeat' first
    | intro _
    | with_reducible assumption
    | with_reducible apply State.modChain_frame
    | with_reducible apply State.set_frame
    | with_reducible apply frame_ite
    | split
    | dsimp only
    | (with_reducible refine frame_mk ?_)

theorem State.chainTick_frame {fp : List Part} {orig : State} {s : State} (c : Nat) (r : ChainReading) (hs : Frame fp orig s)  (hdict : Part.dict ∈ fp := by assumption) (hrx : Part.rx ∈ fp := by assumption) :
    Frame fp orig (State.chainTick s c r) := by
  unfold State.chainTick
  repeat' first
    | intro _
    | with_reducible assumption
    | with_reducible apply State.baseline_frame
    | with_reducible apply State.chainSense_frame
    | with_reducible apply State.calTemp_frame
    | with_reducible apply State.notchThaw_frame
    | with_reducible apply State.modChain_frame
    | with_reducible apply State.set_frame
    | with_reducible apply State.flag_frame
    | with_reducible apply frame_ite
    | (extract_lets +onlyGivenNames -underBinder x; first | (refine frame_cut (fp := fp) (orig := orig) (x := x) ?_ ?_ <;> first | (intro h0; generalize x = y at h0 ⊢; clear x) | intro h0 | subst x) | (have h0 := Nat.zero_le x; generalize x = y at h0 ⊢; clear h0 x) | subst x)
    | split
    | dsimp only
    | (with_reducible refine frame_mk ?_)

theorem State.chainPower_frame {fp : List Part} {orig : State} {s : State} (c : Nat) (hs : Frame fp orig s)  (hdict : Part.dict ∈ fp := by assumption) (hrx : Part.rx ∈ fp := by assumption) :
    Frame fp orig (State.chainPower s c) := by
  unfold State.chainPower
  repeat' first
    | intro _
    | with_reducible assumption
    | with_reducible apply State.chainDown_frame
    | with_reducible apply State.calUnqueue_frame
    | with_reducible apply State.calQueue_frame
    | with_reducible apply State.buses_frame
    | with_reducible apply State.modChain_frame
    | with_reducible apply State.set_frame
    | with_reducible apply frame_ite
    | (extract_lets +onlyGivenNames -underBinder x; first | (refine frame_cut (fp := fp) (orig := orig) (x := x) ?_ ?_ <;> first | (intro h0; generalize x = y at h0 ⊢; clear x) | intro h0 | subst x) | (have h0 := Nat.zero_le x; generalize x = y at h0 ⊢; clear h0 x) | subst x)
    | split
    | dsimp only
    | (with_reducible refine frame_mk ?_)

theorem State.notchSee_frame {fp : List Part} {orig : State} {s : State} (lines : List NotchLine) (n : Nat) (hs : Frame fp orig s)  (hdict : Part.dict ∈ fp := by assumption) (hrx : Part.rx ∈ fp := by assumption) :
    Frame fp orig (State.notchSee s lines n) := by
  unfold State.notchSee
  repeat' first
    | intro _
    | with_reducible assumption
    | with_reducible apply State.notchRelease_frame
    | with_reducible apply State.notchEngage_frame
    | with_reducible apply State.modNotch_frame
    | with_reducible apply State.setI_frame
    | with_reducible apply State.set_frame
    | with_reducible apply frame_foldl
    | with_reducible apply frame_foldl_fst
    | with_reducible apply frame_ite
    | (extract_lets +onlyGivenNames -underBinder x; first | (refine frame_cut (fp := fp) (orig := orig) (x := x) ?_ ?_ <;> first | (intro h0; generalize x = y at h0 ⊢; clear x) | intro h0 | subst x) | (have h0 := Nat.zero_le x; generalize x = y at h0 ⊢; clear h0 x) | subst x)
    | split
    | dsimp only
    | (with_reducible refine frame_mk ?_)

theorem State.notchSpectrum_frame {fp : List Part} {orig : State} {s : State} (c : Nat) (lines : List NotchLine) (hs : Frame fp orig s)  (hdict : Part.dict ∈ fp := by assumption) (hrx : Part.rx ∈ fp := by assumption) :
    Frame fp orig (State.notchSpectrum s c lines) := by
  unfold State.notchSpectrum
  repeat' first
    | intro _
    | with_reducible assumption
    | with_reducible apply State.notchSee_frame
    | with_reducible apply State.modChain_frame
    | with_reducible apply frame_foldl
    | with_reducible apply frame_foldl_fst
    | with_reducible apply frame_ite
    | (extract_lets +onlyGivenNames -underBinder x; first | (refine frame_cut (fp := fp) (orig := orig) (x := x) ?_ ?_ <;> first | (intro h0; generalize x = y at h0 ⊢; clear x) | intro h0 | subst x) | (have h0 := Nat.zero_le x; generalize x = y at h0 ⊢; clear h0 x) | subst x)
    | split
    | dsimp only
    | (with_reducible refine frame_mk ?_)

theorem State.specStart_frame {fp : List Part} {orig : State} {s : State}  (hs : Frame fp orig s)  (hrx : Part.rx ∈ fp := by assumption) :
    Frame fp orig (State.specStart s) := by
  unfold State.specStart
  repeat' first
    | intro _
    | with_reducible assumption
    | with_reducible apply frame_ite
    | (extract_lets +onlyGivenNames -underBinder x; first | (refine frame_cut (fp := fp) (orig := orig) (x := x) ?_ ?_ <;> first | (intro h0; generalize x = y at h0 ⊢; clear x) | intro h0 | subst x) | (have h0 := Nat.zero_le x; generalize x = y at h0 ⊢; clear h0 x) | subst x)
    | split
    | dsimp only
    | (with_reducible refine frame_mk ?_)

theorem State.specEntry_frame {fp : List Part} {orig : State} {s : State} (powers : List Int) (hs : Frame fp orig s)  (hdict : Part.dict ∈ fp := by assumption) (hstreams : Part.streams ∈ fp := by assumption) (hrx : Part.rx ∈ fp := by assumption) :
    Frame fp orig (State.specEntry s powers) := by
  unfold State.specEntry
  repeat' first
    | intro _
    | with_reducible assumption
    | with_reducible apply State.append_frame
    | with_reducible apply State.streamDrop_frame
    | with_reducible apply frame_foldl
    | with_reducible apply frame_foldl_fst
    | with_reducible apply frame_ite
    | (extract_lets +onlyGivenNames -underBinder x; first | (refine frame_cut (fp := fp) (orig := orig) (x := x) ?_ ?_ <;> first | (intro h0; generalize x = y at h0 ⊢; clear x) | intro h0 | subst x) | (have h0 := Nat.zero_le x; generalize x = y at h0 ⊢; clear h0 x) | subst x)
    | split
    | dsimp only
    | (with_reducible refine frame_mk ?_)

theorem State.rephase_frame {fp : List Part} {orig : State} {s : State}  (hs : Frame fp orig s)  (hrx : Part.rx ∈ fp := by assumption) :
    Frame fp orig (State.rephase s) := by
  unfold State.rephase
  repeat' first
    | intro _
    | with_reducible assumption
    | with_reducible apply State.modChain_frame
    | with_reducible apply frame_foldl
    | with_reducible apply frame_foldl_fst
    | dsimp only
    | (with_reducible refine frame_mk ?_)

theorem State.notchesLeave_frame {fp : List Part} {orig : State} {s : State}  (hs : Frame fp orig s)  (hrx : Part.rx ∈ fp := by assumption) :
    Frame fp orig (State.notchesLeave s) := by
  unfold State.notchesLeave
  repeat' first
    | intro _
    | with_reducible assumption
    | with_reducible apply State.notchMoved_frame
    | with_reducible apply frame_foldl
    | with_reducible apply frame_foldl_fst
    | with_reducible apply frame_ite
    | (extract_lets +onlyGivenNames -underBinder x; first | (refine frame_cut (fp := fp) (orig := orig) (x := x) ?_ ?_ <;> first | (intro h0; generalize x = y at h0 ⊢; clear x) | intro h0 | subst x) | (have h0 := Nat.zero_le x; generalize x = y at h0 ⊢; clear h0 x) | subst x)
    | split
    | dsimp only
    | (with_reducible refine frame_mk ?_)

theorem State.notchesRestart_frame {fp : List Part} {orig : State} {s : State}  (hs : Frame fp orig s)  (hdict : Part.dict ∈ fp := by assumption) (hrx : Part.rx ∈ fp := by assumption) :
    Frame fp orig (State.notchesRestart s) := by
  unfold State.notchesRestart
  repeat' first
    | intro _
    | with_reducible assumption
    | with_reducible apply State.notchApply_frame
    | with_reducible apply State.notchFreeze_frame
    | with_reducible apply State.modNotch_frame
    | with_reducible apply State.set_frame
    | with_reducible apply frame_foldl
    | with_reducible apply frame_foldl_fst
    | with_reducible apply frame_ite
    | (extract_lets +onlyGivenNames -underBinder x; first | (refine frame_cut (fp := fp) (orig := orig) (x := x) ?_ ?_ <;> first | (intro h0; generalize x = y at h0 ⊢; clear x) | intro h0 | subst x) | (have h0 := Nat.zero_le x; generalize x = y at h0 ⊢; clear h0 x) | subst x)
    | split
    | dsimp only
    | (with_reducible refine frame_mk ?_)

theorem State.chainsWake_frame {fp : List Part} {orig : State} {s : State}  (hs : Frame fp orig s)  (hdict : Part.dict ∈ fp := by assumption) (hrx : Part.rx ∈ fp := by assumption) :
    Frame fp orig (State.chainsWake s) := by
  unfold State.chainsWake
  repeat' first
    | intro _
    | with_reducible assumption
    | with_reducible apply State.specDiscard_frame
    | with_reducible apply State.notchFreeze_frame
    | with_reducible apply State.modChain_frame
    | with_reducible apply frame_foldl
    | with_reducible apply frame_foldl_fst
    | with_reducible apply frame_ite
    | split
    | dsimp only
    | (with_reducible refine frame_mk ?_)

theorem State.chainWritten_frame {fp : List Part} {orig : State} {s : State} (k : Nat) (hs : Frame fp orig s)  (hdict : Part.dict ∈ fp := by assumption) (hrx : Part.rx ∈ fp := by assumption) :
    Frame fp orig (State.chainWritten s k) := by
  unfold State.chainWritten
  repeat' first
    | intro _
    | with_reducible assumption
    | with_reducible apply State.notchApply_frame
    | with_reducible apply frame_ite
    | (extract_lets +onlyGivenNames -underBinder x; first | (refine frame_cut (fp := fp) (orig := orig) (x := x) ?_ ?_ <;> first | (intro h0; generalize x = y at h0 ⊢; clear x) | intro h0 | subst x) | (have h0 := Nat.zero_le x; generalize x = y at h0 ⊢; clear h0 x) | subst x)
    | split
    | dsimp only
    | (with_reducible refine frame_mk ?_)

end Sys2Proof.Machine
end

