-- ==== Sys2Proof/Laws/FrameGnss.lean ====
section
/-!
SUPPORT. What the operations leave alone: the slots and navigation.
-/

set_option linter.all false
set_option Elab.async false

namespace Sys2Proof.Machine

/-! ### Slots -/

theorem State.surveyBegin_frame {fp : List Part} {orig : State} {s : State} (a : Nat) (hs : Frame fp orig s)  (hdict : Part.dict ∈ fp := by assumption) (hsol : Part.sol ∈ fp := by assumption) :
    Frame fp orig (State.surveyBegin s a) := by
  unfold State.surveyBegin
  repeat' first
    | intro _
    | with_reducible assumption
    | with_reducible apply State.set_frame
    | (extract_lets +onlyGivenNames -underBinder x; first | (refine frame_cut (fp := fp) (orig := orig) (x := x) ?_ ?_ <;> first | (intro h0; generalize x = y at h0 ⊢; clear x) | intro h0 | subst x) | (have h0 := Nat.zero_le x; generalize x = y at h0 ⊢; clear h0 x) | subst x)
    | dsimp only
    | (with_reducible refine frame_mk ?_)

theorem State.positionWritten_frame {fp : List Part} {orig : State} {s : State} (a : Nat) (hs : Frame fp orig s)  (hdict : Part.dict ∈ fp := by assumption) (hsol : Part.sol ∈ fp := by assumption) :
    Frame fp orig (State.positionWritten s a) := by
  unfold State.positionWritten
  repeat' first
    | intro _
    | with_reducible assumption
    | with_reducible apply State.surveyBegin_frame
    | with_reducible apply State.set_frame
    | with_reducible apply frame_ite
    | (extract_lets +onlyGivenNames -underBinder x; first | (refine frame_cut (fp := fp) (orig := orig) (x := x) ?_ ?_ <;> first | (intro h0; generalize x = y at h0 ⊢; clear x) | intro h0 | subst x) | (have h0 := Nat.zero_le x; generalize x = y at h0 ⊢; clear h0 x) | subst x)
    | split
    | dsimp only
    | (with_reducible refine frame_mk ?_)

theorem State.modSlot_frame {fp : List Part} {orig : State} {s : State} (n : Nat) (f : SlotSt → SlotSt) (hs : Frame fp orig s)  (hslots : Part.slots ∈ fp := by assumption) :
    Frame fp orig (State.modSlot s n f) := by
  unfold State.modSlot
  repeat' first
    | intro _
    | with_reducible assumption
    | with_reducible apply State.set_frame
    | dsimp only
    | (with_reducible refine frame_mk ?_)

theorem State.putLock_frame {fp : List Part} {orig : State} {s : State} (n : Nat) (b : Nat) (v : Bool) (hs : Frame fp orig s)  (hdict : Part.dict ∈ fp := by assumption) :
    Frame fp orig (State.putLock s n b v) := by
  unfold State.putLock
  repeat' first
    | intro _
    | with_reducible assumption
    | with_reducible apply State.set_frame
    | dsimp only
    | (with_reducible refine frame_mk ?_)

theorem State.navUnsync_frame {fp : List Part} {orig : State} {s : State} (n : Nat) (hs : Frame fp orig s)  (hdict : Part.dict ∈ fp := by assumption) (hslots : Part.slots ∈ fp := by assumption) :
    Frame fp orig (State.navUnsync s n) := by
  unfold State.navUnsync
  repeat' first
    | intro _
    | with_reducible assumption
    | with_reducible apply State.modSlot_frame
    | with_reducible apply State.set_frame
    | (extract_lets +onlyGivenNames -underBinder x; first | (refine frame_cut (fp := fp) (orig := orig) (x := x) ?_ ?_ <;> first | (intro h0; generalize x = y at h0 ⊢; clear x) | intro h0 | subst x) | (have h0 := Nat.zero_le x; generalize x = y at h0 ⊢; clear h0 x) | subst x)
    | dsimp only
    | (with_reducible refine frame_mk ?_)

theorem State.navClear_frame {fp : List Part} {orig : State} {s : State} (n : Nat) (hs : Frame fp orig s)  (hdict : Part.dict ∈ fp := by assumption) (hslots : Part.slots ∈ fp := by assumption) (hnav : Part.nav ∈ fp := by assumption) :
    Frame fp orig (State.navClear s n) := by
  unfold State.navClear
  repeat' first
    | intro _
    | with_reducible assumption
    | with_reducible apply State.navUnsync_frame
    | with_reducible apply State.modSlot_frame
    | with_reducible apply State.set_frame
    | (extract_lets +onlyGivenNames -underBinder x; first | (refine frame_cut (fp := fp) (orig := orig) (x := x) ?_ ?_ <;> first | (intro h0; generalize x = y at h0 ⊢; clear x) | intro h0 | subst x) | (have h0 := Nat.zero_le x; generalize x = y at h0 ⊢; clear h0 x) | subst x)
    | dsimp only
    | (with_reducible refine frame_mk ?_)

theorem State.slip_frame {fp : List Part} {orig : State} {s : State} (n : Nat) (hs : Frame fp orig s)  (hdict : Part.dict ∈ fp := by assumption) (hslots : Part.slots ∈ fp := by assumption) :
    Frame fp orig (State.slip s n) := by
  unfold State.slip
  repeat' first
    | intro _
    | with_reducible assumption
    | with_reducible apply State.modSlot_frame
    | with_reducible apply State.set_frame
    | with_reducible apply State.flag_frame
    | (extract_lets +onlyGivenNames -underBinder x; first | (refine frame_cut (fp := fp) (orig := orig) (x := x) ?_ ?_ <;> first | (intro h0; generalize x = y at h0 ⊢; clear x) | intro h0 | subst x) | (have h0 := Nat.zero_le x; generalize x = y at h0 ⊢; clear h0 x) | subst x)
    | dsimp only
    | (with_reducible refine frame_mk ?_)

theorem State.slotFree_frame {fp : List Part} {orig : State} {s : State} (n : Nat) (cause : Nat) (hs : Frame fp orig s)  (hdict : Part.dict ∈ fp := by assumption) (hcpu : Part.cpu ∈ fp := by assumption) (hslots : Part.slots ∈ fp := by assumption) (hnav : Part.nav ∈ fp := by assumption) :
    Frame fp orig (State.slotFree s n cause) := by
  unfold State.slotFree
  repeat' first
    | intro _
    | with_reducible assumption
    | with_reducible apply State.navClear_frame
    | with_reducible apply State.modSlot_frame
    | with_reducible apply State.set_frame
    | with_reducible apply frame_foldl
    | with_reducible apply frame_foldl_fst
    | (extract_lets +onlyGivenNames -underBinder x; first | (refine frame_cut (fp := fp) (orig := orig) (x := x) ?_ ?_ <;> first | (intro h0; generalize x = y at h0 ⊢; clear x) | intro h0 | subst x) | (have h0 := Nat.zero_le x; generalize x = y at h0 ⊢; clear h0 x) | subst x)
    | dsimp only
    | (with_reducible refine frame_mk ?_)

theorem State.windowBegin_frame {fp : List Part} {orig : State} {s : State} (n : Nat) (hs : Frame fp orig s)  (hdict : Part.dict ∈ fp := by assumption) (hslots : Part.slots ∈ fp := by assumption) :
    Frame fp orig (State.windowBegin s n) := by
  unfold State.windowBegin
  repeat' first
    | intro _
    | with_reducible assumption
    | with_reducible apply State.modSlot_frame
    | with_reducible apply State.set_frame
    | with_reducible apply frame_ite
    | split
    | dsimp only
    | (with_reducible refine frame_mk ?_)

theorem State.slotEnter_frame {fp : List Part} {orig : State} {s : State} (n : Nat) (toward : Nat) (slips : Bool) (hs : Frame fp orig s)  (hdict : Part.dict ∈ fp := by assumption) (hslots : Part.slots ∈ fp := by assumption) (hnav : Part.nav ∈ fp := by assumption) :
    Frame fp orig (State.slotEnter s n toward slips) := by
  unfold State.slotEnter
  repeat' first
    | intro _
    | with_reducible assumption
    | with_reducible apply State.windowBegin_frame
    | with_reducible apply State.slip_frame
    | with_reducible apply State.navClear_frame
    | with_reducible apply State.putLock_frame
    | with_reducible apply State.modSlot_frame
    | with_reducible apply State.set_frame
    | with_reducible apply frame_ite
    | (extract_lets +onlyGivenNames -underBinder x; first | (refine frame_cut (fp := fp) (orig := orig) (x := x) ?_ ?_ <;> first | (intro h0; generalize x = y at h0 ⊢; clear x) | intro h0 | subst x) | (have h0 := Nat.zero_le x; generalize x = y at h0 ⊢; clear h0 x) | subst x)
    | split
    | dsimp only
    | (with_reducible refine frame_mk ?_)

theorem State.aidBits_frame {fp : List Part} {orig : State} {s : State} (n : Nat) (hs : Frame fp orig s)  (hdict : Part.dict ∈ fp := by assumption) :
    Frame fp orig (State.aidBits s n) := by
  unfold State.aidBits
  repeat' first
    | intro _
    | with_reducible assumption
    | with_reducible apply State.putLock_frame
    | dsimp only
    | (with_reducible refine frame_mk ?_)

theorem State.dumpLatch_frame {fp : List Part} {orig : State} {s : State} (n : Nat) (data : List Int) (pilot : List Int) (mm : List Int) (hs : Frame fp orig s)  (htime : Part.time ∈ fp := by assumption) (hslots : Part.slots ∈ fp := by assumption) :
    Frame fp orig (State.dumpLatch s n data pilot mm) := by
  unfold State.dumpLatch
  repeat' first
    | intro _
    | with_reducible assumption
    | with_reducible apply State.modSlot_frame
    | with_reducible apply State.reach_frame
    | with_reducible apply frame_ite
    | (extract_lets +onlyGivenNames -underBinder x; first | (refine frame_cut (fp := fp) (orig := orig) (x := x) ?_ ?_ <;> first | (intro h0; generalize x = y at h0 ⊢; clear x) | intro h0 | subst x) | (have h0 := Nat.zero_le x; generalize x = y at h0 ⊢; clear h0 x) | subst x)
    | split
    | dsimp only
    | (with_reducible refine frame_mk ?_)

theorem State.dumpWrite_frame {fp : List Part} {orig : State} {s : State}  (hs : Frame fp orig s)  (hcpu : Part.cpu ∈ fp := by assumption) :
    Frame fp orig (State.dumpWrite s) := by
  unfold State.dumpWrite
  repeat' first
    | intro _
    | with_reducible assumption
    | with_reducible apply State.set_frame
    | with_reducible apply frame_foldl
    | with_reducible apply frame_foldl_fst
    | dsimp only
    | (with_reducible refine frame_mk ?_)

theorem State.slotDumps_frame {fp : List Part} {orig : State} {s : State} (n : Nat) (t0 : Nat) (hs : Frame fp orig s)  (hslots : Part.slots ∈ fp := by assumption) :
    Frame fp orig (State.slotDumps s n t0) := by
  unfold State.slotDumps
  repeat' first
    | intro _
    | with_reducible assumption
    | with_reducible apply State.modSlot_frame
    | with_reducible apply frame_ite
    | (extract_lets +onlyGivenNames -underBinder x; first | (refine frame_cut (fp := fp) (orig := orig) (x := x) ?_ ?_ <;> first | (intro h0; generalize x = y at h0 ⊢; clear x) | intro h0 | subst x) | (have h0 := Nat.zero_le x; generalize x = y at h0 ⊢; clear h0 x) | subst x)
    | split
    | dsimp only
    | (with_reducible refine frame_mk ?_)

theorem State.slotAdvance_frame {fp : List Part} {orig : State} {s : State} (n : Nat) (d : Nat) (hs : Frame fp orig s)  (hdict : Part.dict ∈ fp := by assumption) (hslots : Part.slots ∈ fp := by assumption) :
    Frame fp orig (State.slotAdvance s n d) := by
  unfold State.slotAdvance
  repeat' first
    | intro _
    | with_reducible assumption
    | with_reducible apply State.modSlot_frame
    | with_reducible apply State.setI_frame
    | with_reducible apply State.set_frame
    | (extract_lets +onlyGivenNames -underBinder x; first | (refine frame_cut (fp := fp) (orig := orig) (x := x) ?_ ?_ <;> first | (intro h0; generalize x = y at h0 ⊢; clear x) | intro h0 | subst x) | (have h0 := Nat.zero_le x; generalize x = y at h0 ⊢; clear h0 x) | subst x)
    | dsimp only
    | (with_reducible refine frame_mk ?_)

theorem State.dopplerFollow_frame {fp : List Part} {orig : State} {s : State} (n : Nat) (d : Nat) (hs : Frame fp orig s)  (hdict : Part.dict ∈ fp := by assumption) (hslots : Part.slots ∈ fp := by assumption) :
    Frame fp orig (State.dopplerFollow s n d) := by
  unfold State.dopplerFollow
  repeat' first
    | intro _
    | with_reducible assumption
    | with_reducible apply State.modSlot_frame
    | with_reducible apply State.setI_frame
    | with_reducible apply frame_ite
    | (extract_lets +onlyGivenNames -underBinder x; first | (refine frame_cut (fp := fp) (orig := orig) (x := x) ?_ ?_ <;> first | (intro h0; generalize x = y at h0 ⊢; clear x) | intro h0 | subst x) | (have h0 := Nat.zero_le x; generalize x = y at h0 ⊢; clear h0 x) | subst x)
    | split
    | dsimp only
    | (with_reducible refine frame_mk ?_)

theorem State.slotTick_frame {fp : List Part} {orig : State} {s : State} (n : Nat) (d : Nat) (hs : Frame fp orig s)  (hdict : Part.dict ∈ fp := by assumption) (hslots : Part.slots ∈ fp := by assumption) :
    Frame fp orig (State.slotTick s n d) := by
  unfold State.slotTick
  repeat' first
    | intro _
    | with_reducible assumption
    | with_reducible apply State.dopplerFollow_frame
    | with_reducible apply State.slotAdvance_frame
    | with_reducible apply State.slotDumps_frame
    | with_reducible apply State.aidBits_frame
    | with_reducible apply State.windowBegin_frame
    | with_reducible apply State.slip_frame
    | with_reducible apply State.putLock_frame
    | with_reducible apply State.modSlot_frame
    | with_reducible apply State.set_frame
    | with_reducible apply State.flag_frame
    | with_reducible apply frame_ite
    | (extract_lets +onlyGivenNames -underBinder x; first | (refine frame_cut (fp := fp) (orig := orig) (x := x) ?_ ?_ <;> first | (intro h0; generalize x = y at h0 ⊢; clear x) | intro h0 | subst x) | (have h0 := Nat.zero_le x; generalize x = y at h0 ⊢; clear h0 x) | subst x)
    | split
    | dsimp only
    | (with_reducible refine frame_mk ?_)

theorem State.keptTick_frame {fp : List Part} {orig : State} {s : State} (n : Nat) (d : Nat) (hs : Frame fp orig s)  (hslots : Part.slots ∈ fp := by assumption) :
    Frame fp orig (State.keptTick s n d) := by
  unfold State.keptTick
  repeat' first
    | intro _
    | with_reducible assumption
    | with_reducible apply State.modSlot_frame
    | (extract_lets +onlyGivenNames -underBinder x; first | (refine frame_cut (fp := fp) (orig := orig) (x := x) ?_ ?_ <;> first | (intro h0; generalize x = y at h0 ⊢; clear x) | intro h0 | subst x) | (have h0 := Nat.zero_le x; generalize x = y at h0 ⊢; clear h0 x) | subst x)
    | split
    | dsimp only
    | (with_reducible refine frame_mk ?_)

theorem State.crossTick_frame {fp : List Part} {orig : State} {s : State}  (hs : Frame fp orig s)  (hslots : Part.slots ∈ fp := by assumption) :
    Frame fp orig (State.crossTick s) := by
  unfold State.crossTick
  repeat' first
    | intro _
    | with_reducible assumption
    | with_reducible apply State.modSlot_frame
    | with_reducible apply State.set_frame
    | with_reducible apply frame_foldl
    | with_reducible apply frame_foldl_fst
    | with_reducible apply frame_ite
    | (extract_lets +onlyGivenNames -underBinder x; first | (refine frame_cut (fp := fp) (orig := orig) (x := x) ?_ ?_ <;> first | (intro h0; generalize x = y at h0 ⊢; clear x) | intro h0 | subst x) | (have h0 := Nat.zero_le x; generalize x = y at h0 ⊢; clear h0 x) | subst x)
    | split
    | dsimp only
    | (with_reducible refine frame_mk ?_)

theorem State.ncoPut_frame {fp : List Part} {orig : State} {s : State} (n : Nat) (w : Nat × Nat) (hs : Frame fp orig s)  (hcpu : Part.cpu ∈ fp := by assumption) :
    Frame fp orig (State.ncoPut s n w) := by
  unfold State.ncoPut
  repeat' first
    | intro _
    | with_reducible assumption
    | with_reducible apply State.set_frame
    | with_reducible apply frame_ite
    | split
    | dsimp only
    | (with_reducible refine frame_mk ?_)

theorem State.pliJudge_frame {fp : List Part} {orig : State} {s : State} (n : Nat) (prompt : Int × Int) (hs : Frame fp orig s)  (hdict : Part.dict ∈ fp := by assumption) (hfree : Part.free ∈ fp := by assumption) (hslots : Part.slots ∈ fp := by assumption) :
    Frame fp orig (State.pliJudge s n prompt).1 := by
  unfold State.pliJudge
  repeat' first
    | intro _
    | with_reducible assumption
    | with_reducible apply State.putLock_frame
    | with_reducible apply State.modSlot_frame
    | with_reducible apply State.takeFree_frame
    | with_reducible apply State.setI_frame
    | with_reducible apply frame_ite
    | with_reducible apply frame_ite_fst
    | (extract_lets +onlyGivenNames -underBinder x; first | (refine frame_cut (fp := fp) (orig := orig) (x := x) ?_ ?_ <;> first | (intro h0; generalize x = y at h0 ⊢; clear x) | intro h0 | subst x) | (have h0 := Nat.zero_le x; generalize x = y at h0 ⊢; clear h0 x) | subst x)
    | split
    | dsimp only
    | (with_reducible refine frame_mk ?_)

theorem State.cnoJudge_frame {fp : List Part} {orig : State} {s : State} (n : Nat) (t : Nat) (p : Nat) (noise : Nat) (hs : Frame fp orig s)  (hdict : Part.dict ∈ fp := by assumption) (hslots : Part.slots ∈ fp := by assumption) :
    Frame fp orig (State.cnoJudge s n t p noise) := by
  unfold State.cnoJudge
  repeat' first
    | intro _
    | with_reducible assumption
    | with_reducible apply State.putLock_frame
    | with_reducible apply State.modSlot_frame
    | with_reducible apply State.set_frame
    | with_reducible apply frame_ite
    | (extract_lets +onlyGivenNames -underBinder x; first | (refine frame_cut (fp := fp) (orig := orig) (x := x) ?_ ?_ <;> first | (intro h0; generalize x = y at h0 ⊢; clear x) | intro h0 | subst x) | (have h0 := Nat.zero_le x; generalize x = y at h0 ⊢; clear h0 x) | subst x)
    | split
    | dsimp only
    | (with_reducible refine frame_mk ?_)

theorem State.mmJudge_frame {fp : List Part} {orig : State} {s : State} (n : Nat) (mm : List Int) (prompt : Int × Int) (hs : Frame fp orig s)  (hdict : Part.dict ∈ fp := by assumption) (hfree : Part.free ∈ fp := by assumption) (hslots : Part.slots ∈ fp := by assumption) :
    Frame fp orig (State.mmJudge s n mm prompt) := by
  unfold State.mmJudge
  repeat' first
    | intro _
    | with_reducible assumption
    | with_reducible apply State.modSlot_frame
    | with_reducible apply State.takeFree_frame
    | with_reducible apply State.setI_frame
    | with_reducible apply State.flag_frame
    | with_reducible apply frame_ite
    | (extract_lets +onlyGivenNames -underBinder x; first | (refine frame_cut (fp := fp) (orig := orig) (x := x) ?_ ?_ <;> first | (intro h0; generalize x = y at h0 ⊢; clear x) | intro h0 | subst x) | (have h0 := Nat.zero_le x; generalize x = y at h0 ⊢; clear h0 x) | subst x)
    | split
    | dsimp only
    | (with_reducible refine frame_mk ?_)

theorem State.codeShift_frame {fp : List Part} {orig : State} {s : State} (n : Nat) (d : Int) (hs : Frame fp orig s)  (hdict : Part.dict ∈ fp := by assumption) (hslots : Part.slots ∈ fp := by assumption) :
    Frame fp orig (State.codeShift s n d) := by
  unfold State.codeShift
  repeat' first
    | intro _
    | with_reducible assumption
    | with_reducible apply State.modSlot_frame
    | with_reducible apply State.set_frame
    | (extract_lets +onlyGivenNames -underBinder x; first | (refine frame_cut (fp := fp) (orig := orig) (x := x) ?_ ?_ <;> first | (intro h0; generalize x = y at h0 ⊢; clear x) | intro h0 | subst x) | (have h0 := Nat.zero_le x; generalize x = y at h0 ⊢; clear h0 x) | subst x)
    | dsimp only
    | (with_reducible refine frame_mk ?_)

theorem State.bumpJudge_frame {fp : List Part} {orig : State} {s : State} (n : Nat) (cs : List (List Int)) (hs : Frame fp orig s)  (hdict : Part.dict ∈ fp := by assumption) (hslots : Part.slots ∈ fp := by assumption) :
    Frame fp orig (State.bumpJudge s n cs).1 := by
  unfold State.bumpJudge
  repeat' first
    | intro _
    | with_reducible assumption
    | with_reducible apply State.codeShift_frame
    | with_reducible apply State.modSlot_frame
    | with_reducible apply State.flag_frame
    | with_reducible apply frame_ite
    | with_reducible apply frame_ite_fst
    | (extract_lets +onlyGivenNames -underBinder x; first | (refine frame_cut (fp := fp) (orig := orig) (x := x) ?_ ?_ <;> first | (intro h0; generalize x = y at h0 ⊢; clear x) | intro h0 | subst x) | (have h0 := Nat.zero_le x; generalize x = y at h0 ⊢; clear h0 x) | subst x)
    | split
    | dsimp only
    | (with_reducible refine frame_mk ?_)

theorem State.decide__frame {fp : List Part} {orig : State} {s : State} (n : Nat) (toward : Nat) (cause : Nat) (hs : Frame fp orig s)  (hslots : Part.slots ∈ fp := by assumption) :
    Frame fp orig (State.decide_ s n toward cause) := by
  unfold State.decide_
  repeat' first
    | intro _
    | with_reducible assumption
    | with_reducible apply State.modSlot_frame
    | with_reducible apply frame_ite
    | split
    | dsimp only
    | (with_reducible refine frame_mk ?_)

theorem State.fallback_frame {fp : List Part} {orig : State} {s : State} (n : Nat) (hs : Frame fp orig s)  (hdict : Part.dict ∈ fp := by assumption) (hslots : Part.slots ∈ fp := by assumption) :
    Frame fp orig (State.fallback s n) := by
  unfold State.fallback
  repeat' first
    | intro _
    | with_reducible assumption
    | with_reducible apply State.decide__frame
    | with_reducible apply State.flag_frame
    | with_reducible apply frame_ite
    | split
    | dsimp only
    | (with_reducible refine frame_mk ?_)

theorem State.slotsTick_frame {fp : List Part} {orig : State} {s : State} (d : Nat) (hs : Frame fp orig s)  (hdict : Part.dict ∈ fp := by assumption) (hcpu : Part.cpu ∈ fp := by assumption) (hslots : Part.slots ∈ fp := by assumption) :
    Frame fp orig (State.slotsTick s d) := by
  unfold State.slotsTick
  repeat' first
    | intro _
    | with_reducible assumption
    | with_reducible apply State.fallback_frame
    | with_reducible apply State.crossTick_frame
    | with_reducible apply State.keptTick_frame
    | with_reducible apply State.slotTick_frame
    | with_reducible apply frame_foldl
    | with_reducible apply frame_foldl_fst
    | with_reducible apply frame_ite
    | (extract_lets +onlyGivenNames -underBinder x; first | (refine frame_cut (fp := fp) (orig := orig) (x := x) ?_ ?_ <;> first | (intro h0; generalize x = y at h0 ⊢; clear x) | intro h0 | subst x) | (have h0 := Nat.zero_le x; generalize x = y at h0 ⊢; clear h0 x) | subst x)
    | split
    | dsimp only
    | (with_reducible refine frame_mk ?_)

theorem State.slotJudge_frame {fp : List Part} {orig : State} {s : State} (n : Nat) (hs : Frame fp orig s)  (hdict : Part.dict ∈ fp := by assumption) (hslots : Part.slots ∈ fp := by assumption) :
    Frame fp orig (State.slotJudge s n) := by
  unfold State.slotJudge
  repeat' first
    | intro _
    | with_reducible assumption
    | with_reducible apply State.fallback_frame
    | with_reducible apply State.decide__frame
    | with_reducible apply State.modSlot_frame
    | with_reducible apply frame_ite
    | (extract_lets +onlyGivenNames -underBinder x; first | (refine frame_cut (fp := fp) (orig := orig) (x := x) ?_ ?_ <;> first | (intro h0; generalize x = y at h0 ⊢; clear x) | intro h0 | subst x) | (have h0 := Nat.zero_le x; generalize x = y at h0 ⊢; clear h0 x) | subst x)
    | split
    | dsimp only
    | (with_reducible refine frame_mk ?_)

theorem State.histSee_frame {fp : List Part} {orig : State} {s : State} (n : Nat) (per : Int) (positive : Bool) (hs : Frame fp orig s)  (hdict : Part.dict ∈ fp := by assumption) (hslots : Part.slots ∈ fp := by assumption) :
    Frame fp orig (State.histSee s n per positive) := by
  unfold State.histSee
  repeat' first
    | intro _
    | with_reducible assumption
    | with_reducible apply State.navUnsync_frame
    | with_reducible apply State.putLock_frame
    | with_reducible apply State.modSlot_frame
    | with_reducible apply State.set_frame
    | with_reducible apply frame_foldl
    | with_reducible apply frame_foldl_fst
    | with_reducible apply frame_ite
    | (extract_lets +onlyGivenNames -underBinder x; first | (refine frame_cut (fp := fp) (orig := orig) (x := x) ?_ ?_ <;> first | (intro h0; generalize x = y at h0 ⊢; clear x) | intro h0 | subst x) | (have h0 := Nat.zero_le x; generalize x = y at h0 ⊢; clear h0 x) | subst x)
    | split
    | dsimp only
    | (with_reducible refine frame_mk ?_)

theorem State.secSee_frame {fp : List Part} {orig : State} {s : State} (n : Nat) (per : Int) (signs : List Bool) (hs : Frame fp orig s)  (hdict : Part.dict ∈ fp := by assumption) (hslots : Part.slots ∈ fp := by assumption) :
    Frame fp orig (State.secSee s n per signs) := by
  unfold State.secSee
  repeat' first
    | intro _
    | with_reducible assumption
    | with_reducible apply State.navUnsync_frame
    | with_reducible apply State.putLock_frame
    | with_reducible apply State.modSlot_frame
    | with_reducible apply State.set_frame
    | with_reducible apply frame_ite
    | (extract_lets +onlyGivenNames -underBinder x; first | (refine frame_cut (fp := fp) (orig := orig) (x := x) ?_ ?_ <;> first | (intro h0; generalize x = y at h0 ⊢; clear x) | intro h0 | subst x) | (have h0 := Nat.zero_le x; generalize x = y at h0 ⊢; clear h0 x) | subst x)
    | split
    | dsimp only
    | (with_reducible refine frame_mk ?_)

theorem State.dataSee_frame {fp : List Part} {orig : State} {s : State} (n : Nat) (per : Int) (signs : List Bool) (hs : Frame fp orig s)  (hdict : Part.dict ∈ fp := by assumption) (hslots : Part.slots ∈ fp := by assumption) :
    Frame fp orig (State.dataSee s n per signs) := by
  unfold State.dataSee
  repeat' first
    | intro _
    | with_reducible assumption
    | with_reducible apply State.putLock_frame
    | with_reducible apply State.modSlot_frame
    | with_reducible apply frame_ite
    | (extract_lets +onlyGivenNames -underBinder x; first | (refine frame_cut (fp := fp) (orig := orig) (x := x) ?_ ?_ <;> first | (intro h0; generalize x = y at h0 ⊢; clear x) | intro h0 | subst x) | (have h0 := Nat.zero_le x; generalize x = y at h0 ⊢; clear h0 x) | subst x)
    | split
    | dsimp only
    | (with_reducible refine frame_mk ?_)

theorem State.syncSee_frame {fp : List Part} {orig : State} {s : State} (n : Nat) (e : Dump) (hs : Frame fp orig s)  (hdict : Part.dict ∈ fp := by assumption) (hslots : Part.slots ∈ fp := by assumption) :
    Frame fp orig (State.syncSee s n e) := by
  unfold State.syncSee
  repeat' first
    | intro _
    | with_reducible assumption
    | with_reducible apply State.dataSee_frame
    | with_reducible apply State.secSee_frame
    | with_reducible apply State.histSee_frame
    | with_reducible apply State.putLock_frame
    | with_reducible apply State.modSlot_frame
    | with_reducible apply frame_ite
    | (extract_lets +onlyGivenNames -underBinder x; first | (refine frame_cut (fp := fp) (orig := orig) (x := x) ?_ ?_ <;> first | (intro h0; generalize x = y at h0 ⊢; clear x) | intro h0 | subst x) | (have h0 := Nat.zero_le x; generalize x = y at h0 ⊢; clear h0 x) | subst x)
    | split
    | dsimp only
    | (with_reducible refine frame_mk ?_)

theorem State.slotChange_frame {fp : List Part} {orig : State} {s : State} (n : Nat) (hs : Frame fp orig s)  (hdict : Part.dict ∈ fp := by assumption) (hcpu : Part.cpu ∈ fp := by assumption) (hslots : Part.slots ∈ fp := by assumption) (hnav : Part.nav ∈ fp := by assumption) :
    Frame fp orig (State.slotChange s n) := by
  unfold State.slotChange
  repeat' first
    | intro _
    | with_reducible assumption
    | with_reducible apply State.slotEnter_frame
    | with_reducible apply State.slotFree_frame
    | with_reducible apply frame_ite
    | split
    | dsimp only
    | (with_reducible refine frame_mk ?_)

theorem State.pullInFailed_frame {fp : List Part} {orig : State} {s : State} (n : Nat) (hs : Frame fp orig s)  (hdict : Part.dict ∈ fp := by assumption) (hcpu : Part.cpu ∈ fp := by assumption) (hslots : Part.slots ∈ fp := by assumption) (hnav : Part.nav ∈ fp := by assumption) :
    Frame fp orig (State.pullInFailed s n) := by
  unfold State.pullInFailed
  repeat' first
    | intro _
    | with_reducible assumption
    | with_reducible apply State.slotFree_frame
    | with_reducible apply frame_ite
    | split
    | dsimp only
    | (with_reducible refine frame_mk ?_)

theorem State.lostTimeout_frame {fp : List Part} {orig : State} {s : State} (n : Nat) (hs : Frame fp orig s)  (hdict : Part.dict ∈ fp := by assumption) (hcpu : Part.cpu ∈ fp := by assumption) (hslots : Part.slots ∈ fp := by assumption) (hnav : Part.nav ∈ fp := by assumption) :
    Frame fp orig (State.lostTimeout s n) := by
  unfold State.lostTimeout
  repeat' first
    | intro _
    | with_reducible assumption
    | with_reducible apply State.slotFree_frame
    | with_reducible apply frame_ite
    | split
    | dsimp only
    | (with_reducible refine frame_mk ?_)

theorem State.crossDrop_frame {fp : List Part} {orig : State} {s : State} (n : Nat) (hs : Frame fp orig s)  (hdict : Part.dict ∈ fp := by assumption) (hcpu : Part.cpu ∈ fp := by assumption) (hslots : Part.slots ∈ fp := by assumption) (hnav : Part.nav ∈ fp := by assumption) :
    Frame fp orig (State.crossDrop s n) := by
  unfold State.crossDrop
  repeat' first
    | intro _
    | with_reducible assumption
    | with_reducible apply State.slotFree_frame
    | with_reducible apply State.flag_frame
    | with_reducible apply frame_ite
    | split
    | dsimp only
    | (with_reducible refine frame_mk ?_)

theorem State.parityFault_frame {fp : List Part} {orig : State} {s : State} (n : Nat) (again : Bool) (hs : Frame fp orig s)  (hdict : Part.dict ∈ fp := by assumption) (hslots : Part.slots ∈ fp := by assumption) :
    Frame fp orig (State.parityFault s n again) := by
  unfold State.parityFault
  repeat' first
    | intro _
    | with_reducible assumption
    | with_reducible apply State.modSlot_frame
    | with_reducible apply State.flag_frame
    | with_reducible apply frame_ite
    | (extract_lets +onlyGivenNames -underBinder x; first | (refine frame_cut (fp := fp) (orig := orig) (x := x) ?_ ?_ <;> first | (intro h0; generalize x = y at h0 ⊢; clear x) | intro h0 | subst x) | (have h0 := Nat.zero_le x; generalize x = y at h0 ⊢; clear h0 x) | subst x)
    | split
    | dsimp only
    | (with_reducible refine frame_mk ?_)

theorem State.slotRetire_frame {fp : List Part} {orig : State} {s : State} (n : Nat) (hs : Frame fp orig s)  (hdict : Part.dict ∈ fp := by assumption) (hsilt : Part.silt ∈ fp := by assumption) (hcpu : Part.cpu ∈ fp := by assumption) (hslots : Part.slots ∈ fp := by assumption) (hnav : Part.nav ∈ fp := by assumption) :
    Frame fp orig (State.slotRetire s n) := by
  unfold State.slotRetire
  repeat' first
    | intro _
    | with_reducible assumption
    | with_reducible apply State.slotFree_frame
    | with_reducible apply State.set_frame
    | with_reducible apply State.flag_frame
    | with_reducible apply State.log_frame
    | with_reducible apply frame_ite
    | (extract_lets +onlyGivenNames -underBinder x; first | (refine frame_cut (fp := fp) (orig := orig) (x := x) ?_ ?_ <;> first | (intro h0; generalize x = y at h0 ⊢; clear x) | intro h0 | subst x) | (have h0 := Nat.zero_le x; generalize x = y at h0 ⊢; clear h0 x) | subst x)
    | split
    | dsimp only
    | (with_reducible refine frame_mk ?_)

theorem State.slotSelfTest_frame {fp : List Part} {orig : State} {s : State} (n : Nat) (pass : Bool) (hs : Frame fp orig s)  (hdict : Part.dict ∈ fp := by assumption) (hcpu : Part.cpu ∈ fp := by assumption) (hslots : Part.slots ∈ fp := by assumption) (hnav : Part.nav ∈ fp := by assumption) :
    Frame fp orig (State.slotSelfTest s n pass) := by
  unfold State.slotSelfTest
  repeat' first
    | intro _
    | with_reducible assumption
    | with_reducible apply State.slotFree_frame
    | with_reducible apply State.modSlot_frame
    | with_reducible apply frame_ite
    | split
    | dsimp only
    | (with_reducible refine frame_mk ?_)

theorem State.slotsRelease_frame {fp : List Part} {orig : State} {s : State} (m : Nat) (cause : Nat) (hs : Frame fp orig s)  (hdict : Part.dict ∈ fp := by assumption) (hcpu : Part.cpu ∈ fp := by assumption) (hslots : Part.slots ∈ fp := by assumption) (hnav : Part.nav ∈ fp := by assumption) :
    Frame fp orig (State.slotsRelease s m cause) := by
  unfold State.slotsRelease
  repeat' first
    | intro _
    | with_reducible assumption
    | with_reducible apply State.slotFree_frame
    | with_reducible apply State.flag_frame
    | with_reducible apply frame_foldl
    | with_reducible apply frame_foldl_fst
    | (extract_lets +onlyGivenNames -underBinder x; first | (refine frame_cut (fp := fp) (orig := orig) (x := x) ?_ ?_ <;> first | (intro h0; generalize x = y at h0 ⊢; clear x) | intro h0 | subst x) | (have h0 := Nat.zero_le x; generalize x = y at h0 ⊢; clear h0 x) | subst x)
    | dsimp only
    | (with_reducible refine frame_mk ?_)

theorem State.slotsLimit_frame {fp : List Part} {orig : State} {s : State}  (hs : Frame fp orig s)  (hdict : Part.dict ∈ fp := by assumption) (hcpu : Part.cpu ∈ fp := by assumption) (hslots : Part.slots ∈ fp := by assumption) (hnav : Part.nav ∈ fp := by assumption) :
    Frame fp orig (State.slotsLimit s) := by
  unfold State.slotsLimit
  repeat' first
    | intro _
    | with_reducible assumption
    | with_reducible apply State.slotsRelease_frame
    | with_reducible apply frame_ite
    | (extract_lets +onlyGivenNames -underBinder x; first | (refine frame_cut (fp := fp) (orig := orig) (x := x) ?_ ?_ <;> first | (intro h0; generalize x = y at h0 ⊢; clear x) | intro h0 | subst x) | (have h0 := Nat.zero_le x; generalize x = y at h0 ⊢; clear h0 x) | subst x)
    | split
    | dsimp only
    | (with_reducible refine frame_mk ?_)

theorem State.releaseSlot_frame {fp : List Part} {orig : State} {s : State} (n : Nat) (hs : Frame fp orig s)  (hslots : Part.slots ∈ fp := by assumption) :
    Frame fp orig (State.releaseSlot s n) := by
  unfold State.releaseSlot
  repeat' first
    | intro _
    | with_reducible assumption
    | with_reducible apply State.modSlot_frame
    | dsimp only
    | (with_reducible refine frame_mk ?_)

theorem State.slotsFreeWhere_frame {fp : List Part} {orig : State} {s : State} (p : State → Nat → Bool) (cause : Nat) (hs : Frame fp orig s)  (hdict : Part.dict ∈ fp := by assumption) (hcpu : Part.cpu ∈ fp := by assumption) (hslots : Part.slots ∈ fp := by assumption) (hnav : Part.nav ∈ fp := by assumption) :
    Frame fp orig (State.slotsFreeWhere s p cause) := by
  unfold State.slotsFreeWhere
  repeat' first
    | intro _
    | with_reducible assumption
    | with_reducible apply State.slotFree_frame
    | with_reducible apply frame_foldl
    | with_reducible apply frame_foldl_fst
    | dsimp only
    | (with_reducible refine frame_mk ?_)

theorem State.slotsStep_frame {fp : List Part} {orig : State} {s : State}  (hs : Frame fp orig s)  (hdict : Part.dict ∈ fp := by assumption) (hcpu : Part.cpu ∈ fp := by assumption) (hslots : Part.slots ∈ fp := by assumption) (hnav : Part.nav ∈ fp := by assumption) :
    Frame fp orig (State.slotsStep s) := by
  unfold State.slotsStep
  repeat' first
    | intro _
    | with_reducible assumption
    | with_reducible apply State.slotEnter_frame
    | with_reducible apply State.slotFree_frame
    | with_reducible apply State.flag_frame
    | with_reducible apply frame_foldl
    | with_reducible apply frame_foldl_fst
    | split
    | dsimp only
    | (with_reducible refine frame_mk ?_)

theorem State.slotsHold_frame {fp : List Part} {orig : State} {s : State} (l : List (Nat × SlotKept)) (hs : Frame fp orig s)  (hslots : Part.slots ∈ fp := by assumption) :
    Frame fp orig (State.slotsHold s l) := by
  unfold State.slotsHold
  repeat' first
    | intro _
    | with_reducible assumption
    | with_reducible apply State.modSlot_frame
    | with_reducible apply frame_foldl
    | with_reducible apply frame_foldl_fst
    | dsimp only
    | (with_reducible refine frame_mk ?_)

theorem State.slotsResume_frame {fp : List Part} {orig : State} {s : State}  (hs : Frame fp orig s)  (hdict : Part.dict ∈ fp := by assumption) (hcpu : Part.cpu ∈ fp := by assumption) (hslots : Part.slots ∈ fp := by assumption) (hnav : Part.nav ∈ fp := by assumption) :
    Frame fp orig (State.slotsResume s) := by
  unfold State.slotsResume
  repeat' first
    | intro _
    | with_reducible assumption
    | with_reducible apply State.slotEnter_frame
    | with_reducible apply State.slotFree_frame
    | with_reducible apply State.modSlot_frame
    | with_reducible apply State.set_frame
    | with_reducible apply frame_foldl
    | with_reducible apply frame_foldl_fst
    | with_reducible apply frame_ite
    | (extract_lets +onlyGivenNames -underBinder x; first | (refine frame_cut (fp := fp) (orig := orig) (x := x) ?_ ?_ <;> first | (intro h0; generalize x = y at h0 ⊢; clear x) | intro h0 | subst x) | (have h0 := Nat.zero_le x; generalize x = y at h0 ⊢; clear h0 x) | subst x)
    | split
    | dsimp only
    | (with_reducible refine frame_mk ?_)

/-! ### Nav -/

theorem State.utcUpdate_frame {fp : List Part} {orig : State} {s : State}  (hs : Frame fp orig s)  (hdict : Part.dict ∈ fp := by assumption) :
    Frame fp orig (State.utcUpdate s) := by
  unfold State.utcUpdate
  repeat' first
    | intro _
    | with_reducible assumption
    | with_reducible apply State.setB_frame
    | (extract_lets +onlyGivenNames -underBinder x; first | (refine frame_cut (fp := fp) (orig := orig) (x := x) ?_ ?_ <;> first | (intro h0; generalize x = y at h0 ⊢; clear x) | intro h0 | subst x) | (have h0 := Nat.zero_le x; generalize x = y at h0 ⊢; clear h0 x) | subst x)
    | dsimp only
    | (with_reducible refine frame_mk ?_)

theorem State.leapApply_frame {fp : List Part} {orig : State} {s : State}  (hs : Frame fp orig s)  (hdict : Part.dict ∈ fp := by assumption) (hsilt : Part.silt ∈ fp := by assumption) :
    Frame fp orig (State.leapApply s) := by
  unfold State.leapApply
  repeat' first
    | intro _
    | with_reducible assumption
    | with_reducible apply State.setI_frame
    | with_reducible apply State.set_frame
    | with_reducible apply State.flag_frame
    | with_reducible apply State.log_frame
    | with_reducible apply frame_ite
    | (extract_lets +onlyGivenNames -underBinder x; first | (refine frame_cut (fp := fp) (orig := orig) (x := x) ?_ ?_ <;> first | (intro h0; generalize x = y at h0 ⊢; clear x) | intro h0 | subst x) | (have h0 := Nat.zero_le x; generalize x = y at h0 ⊢; clear h0 x) | subst x)
    | split
    | dsimp only
    | (with_reducible refine frame_mk ?_)

theorem State.leapDue_frame {fp : List Part} {orig : State} {s : State}  (hs : Frame fp orig s)  (hdict : Part.dict ∈ fp := by assumption) (hsilt : Part.silt ∈ fp := by assumption) :
    Frame fp orig (State.leapDue s) := by
  unfold State.leapDue
  repeat' first
    | intro _
    | with_reducible assumption
    | with_reducible apply State.leapApply_frame
    | with_reducible apply State.utcUpdate_frame
    | with_reducible apply frame_ite
    | split
    | dsimp only
    | (with_reducible refine frame_mk ?_)

theorem State.leapCount_frame {fp : List Part} {orig : State} {s : State} (source : Nat) (offset : Int) (pending : Nat) (leapAt : Nat) (hs : Frame fp orig s)  (hdict : Part.dict ∈ fp := by assumption) :
    Frame fp orig (State.leapCount s source offset pending leapAt) := by
  unfold State.leapCount
  repeat' first
    | intro _
    | with_reducible assumption
    | with_reducible apply State.utcUpdate_frame
    | with_reducible apply State.setI_frame
    | with_reducible apply State.set_frame
    | with_reducible apply State.flag_frame
    | with_reducible apply frame_ite
    | (extract_lets +onlyGivenNames -underBinder x; first | (refine frame_cut (fp := fp) (orig := orig) (x := x) ?_ ?_ <;> first | (intro h0; generalize x = y at h0 ⊢; clear x) | intro h0 | subst x) | (have h0 := Nat.zero_le x; generalize x = y at h0 ⊢; clear h0 x) | subst x)
    | split
    | dsimp only
    | (with_reducible refine frame_mk ?_)

theorem State.leapBroadcast_frame {fp : List Part} {orig : State} {s : State} (system : Nat) (offset : Int) (pending : Nat) (leapAt : Nat) (hs : Frame fp orig s)  (hdict : Part.dict ∈ fp := by assumption) (hnav : Part.nav ∈ fp := by assumption) :
    Frame fp orig (State.leapBroadcast s system offset pending leapAt) := by
  unfold State.leapBroadcast
  repeat' first
    | intro _
    | with_reducible assumption
    | with_reducible apply State.leapCount_frame
    | with_reducible apply State.flag_frame
    | with_reducible apply frame_ite
    | (extract_lets +onlyGivenNames -underBinder x; first | (refine frame_cut (fp := fp) (orig := orig) (x := x) ?_ ?_ <;> first | (intro h0; generalize x = y at h0 ⊢; clear x) | intro h0 | subst x) | (have h0 := Nat.zero_le x; generalize x = y at h0 ⊢; clear h0 x) | subst x)
    | split
    | dsimp only
    | (with_reducible refine frame_mk ?_)

theorem State.hostLeap_frame {fp : List Part} {orig : State} {s : State} (b : List Nat) (hs : Frame fp orig s)  (hdict : Part.dict ∈ fp := by assumption) :
    Frame fp orig (State.hostLeap s b) := by
  unfold State.hostLeap
  repeat' first
    | intro _
    | with_reducible assumption
    | with_reducible apply State.leapCount_frame
    | dsimp only
    | (with_reducible refine frame_mk ?_)

theorem State.leapReset_frame {fp : List Part} {orig : State} {s : State}  (hs : Frame fp orig s)  (hdict : Part.dict ∈ fp := by assumption) (hnav : Part.nav ∈ fp := by assumption) :
    Frame fp orig (State.leapReset s) := by
  unfold State.leapReset
  repeat' first
    | intro _
    | with_reducible assumption
    | with_reducible apply State.utcUpdate_frame
    | with_reducible apply State.set_frame
    | with_reducible apply frame_ite
    | (extract_lets +onlyGivenNames -underBinder x; first | (refine frame_cut (fp := fp) (orig := orig) (x := x) ?_ ?_ <;> first | (intro h0; generalize x = y at h0 ⊢; clear x) | intro h0 | subst x) | (have h0 := Nat.zero_le x; generalize x = y at h0 ⊢; clear h0 x) | subst x)
    | split
    | dsimp only
    | (with_reducible refine frame_mk ?_)

theorem State.publish_frame {fp : List Part} {orig : State} {s : State} (n : Nat) (kind : Nat) (start : Option Int) (syms : List Bool) (hs : Frame fp orig s)  (hnav : Part.nav ∈ fp := by assumption) :
    Frame fp orig (State.publish s n kind start syms) := by
  unfold State.publish
  repeat' first
    | intro _
    | with_reducible assumption
    | with_reducible apply frame_ite
    | split
    | dsimp only
    | (with_reducible refine frame_mk ?_)

theorem State.symbolsIn_frame {fp : List Part} {orig : State} {s : State} (p : List Nat) (hs : Frame fp orig s)  (hdict : Part.dict ∈ fp := by assumption) (hnav : Part.nav ∈ fp := by assumption) :
    Frame fp orig (State.symbolsIn s p) := by
  unfold State.symbolsIn
  repeat' first
    | intro _
    | with_reducible assumption
    | with_reducible apply State.flag_frame
    | with_reducible apply frame_foldl
    | with_reducible apply frame_foldl_fst
    | with_reducible apply frame_ite
    | (extract_lets +onlyGivenNames -underBinder x; first | (refine frame_cut (fp := fp) (orig := orig) (x := x) ?_ ?_ <;> first | (intro h0; generalize x = y at h0 ⊢; clear x) | intro h0 | subst x) | (have h0 := Nat.zero_le x; generalize x = y at h0 ⊢; clear h0 x) | subst x)
    | split
    | dsimp only
    | (with_reducible refine frame_mk ?_)

theorem State.modStore_frame {fp : List Part} {orig : State} {s : State} (e : Nat) (f : StoreSt → StoreSt) (hs : Frame fp orig s)  (hnav : Part.nav ∈ fp := by assumption) :
    Frame fp orig (State.modStore s e f) := by
  unfold State.modStore
  repeat' first
    | intro _
    | with_reducible assumption
    | with_reducible apply State.set_frame
    | dsimp only
    | (with_reducible refine frame_mk ?_)

theorem State.storeShow_frame {fp : List Part} {orig : State} {s : State} (e : Nat) (hs : Frame fp orig s)  (hdict : Part.dict ∈ fp := by assumption) :
    Frame fp orig (State.storeShow s e) := by
  unfold State.storeShow
  repeat' first
    | intro _
    | with_reducible assumption
    | with_reducible apply State.set_frame
    | (extract_lets +onlyGivenNames -underBinder x; first | (refine frame_cut (fp := fp) (orig := orig) (x := x) ?_ ?_ <;> first | (intro h0; generalize x = y at h0 ⊢; clear x) | intro h0 | subst x) | (have h0 := Nat.zero_le x; generalize x = y at h0 ⊢; clear h0 x) | subst x)
    | split
    | dsimp only
    | (with_reducible refine frame_mk ?_)

theorem State.storeValid_frame {fp : List Part} {orig : State} {s : State} (e : Nat) (flagsOr : Nat) (hs : Frame fp orig s)  (hdict : Part.dict ∈ fp := by assumption) (hnav : Part.nav ∈ fp := by assumption) :
    Frame fp orig (State.storeValid s e flagsOr) := by
  unfold State.storeValid
  repeat' first
    | intro _
    | with_reducible assumption
    | with_reducible apply State.modStore_frame
    | with_reducible apply State.set_frame
    | with_reducible apply frame_foldl
    | with_reducible apply frame_foldl_fst
    | (extract_lets +onlyGivenNames -underBinder x; first | (refine frame_cut (fp := fp) (orig := orig) (x := x) ?_ ?_ <;> first | (intro h0; generalize x = y at h0 ⊢; clear x) | intro h0 | subst x) | (have h0 := Nat.zero_le x; generalize x = y at h0 ⊢; clear h0 x) | subst x)
    | dsimp only
    | (with_reducible refine frame_mk ?_)

theorem State.ephemerisJudge_frame {fp : List Part} {orig : State} {s : State} (e : Nat) (n : Nat) (hs : Frame fp orig s)  (hdict : Part.dict ∈ fp := by assumption) (hnav : Part.nav ∈ fp := by assumption) :
    Frame fp orig (State.ephemerisJudge s e n) := by
  unfold State.ephemerisJudge
  repeat' first
    | intro _
    | with_reducible assumption
    | with_reducible apply State.storeValid_frame
    | with_reducible apply State.modStore_frame
    | with_reducible apply State.set_frame
    | with_reducible apply State.flag_frame
    | with_reducible apply frame_ite
    | (extract_lets +onlyGivenNames -underBinder x; first | (refine frame_cut (fp := fp) (orig := orig) (x := x) ?_ ?_ <;> first | (intro h0; generalize x = y at h0 ⊢; clear x) | intro h0 | subst x) | (have h0 := Nat.zero_le x; generalize x = y at h0 ⊢; clear h0 x) | subst x)
    | split
    | dsimp only
    | (with_reducible refine frame_mk ?_)

theorem State.storeJudge_frame {fp : List Part} {orig : State} {s : State} (e : Nat) (hs : Frame fp orig s)  (hdict : Part.dict ∈ fp := by assumption) (hnav : Part.nav ∈ fp := by assumption) :
    Frame fp orig (State.storeJudge s e) := by
  unfold State.storeJudge
  repeat' first
    | intro _
    | with_reducible assumption
    | with_reducible apply State.ephemerisJudge_frame
    | with_reducible apply State.storeValid_frame
    | with_reducible apply State.storeShow_frame
    | with_reducible apply State.modStore_frame
    | with_reducible apply State.set_frame
    | with_reducible apply frame_ite
    | (extract_lets +onlyGivenNames -underBinder x; first | (refine frame_cut (fp := fp) (orig := orig) (x := x) ?_ ?_ <;> first | (intro h0; generalize x = y at h0 ⊢; clear x) | intro h0 | subst x) | (have h0 := Nat.zero_le x; generalize x = y at h0 ⊢; clear h0 x) | subst x)
    | split
    | dsimp only
    | (with_reducible refine frame_mk ?_)

theorem State.storePart_frame {fp : List Part} {orig : State} {s : State} (v : Nat) (kind : Nat) (sat : Nat) (issue : Nat) (new : StorePart) (given : Option (Nat × Nat)) (hs : Frame fp orig s)  (hdict : Part.dict ∈ fp := by assumption) (hnav : Part.nav ∈ fp := by assumption) :
    Frame fp orig (State.storePart s v kind sat issue new given) := by
  unfold State.storePart
  repeat' first
    | intro _
    | with_reducible assumption
    | with_reducible apply State.storeJudge_frame
    | with_reducible apply State.modStore_frame
    | with_reducible apply State.set_frame
    | with_reducible apply State.flag_frame
    | with_reducible apply frame_foldl
    | with_reducible apply frame_foldl_fst
    | with_reducible apply frame_ite
    | (extract_lets +onlyGivenNames -underBinder x; first | (refine frame_cut (fp := fp) (orig := orig) (x := x) ?_ ?_ <;> first | (intro h0; generalize x = y at h0 ⊢; clear x) | intro h0 | subst x) | (have h0 := Nat.zero_le x; generalize x = y at h0 ⊢; clear h0 x) | subst x)
    | split
    | dsimp only
    | (with_reducible refine frame_mk ?_)

theorem State.storeMessage_frame {fp : List Part} {orig : State} {s : State} (v : Nat) (sat : Nat) (at_ : Nat) (bits : List Bool) (hs : Frame fp orig s)  (hdict : Part.dict ∈ fp := by assumption) (hnav : Part.nav ∈ fp := by assumption) :
    Frame fp orig (State.storeMessage s v sat at_ bits) := by
  unfold State.storeMessage
  repeat' first
    | intro _
    | with_reducible assumption
    | with_reducible apply State.storePart_frame
    | with_reducible apply frame_ite
    | (extract_lets +onlyGivenNames -underBinder x; first | (refine frame_cut (fp := fp) (orig := orig) (x := x) ?_ ?_ <;> first | (intro h0; generalize x = y at h0 ⊢; clear x) | intro h0 | subst x) | (have h0 := Nat.zero_le x; generalize x = y at h0 ⊢; clear h0 x) | subst x)
    | split
    | dsimp only
    | (with_reducible refine frame_mk ?_)

theorem State.storePeer_frame {fp : List Part} {orig : State} {s : State} (v : Nat) (kind : Nat) (sat : Nat) (issue : Nat) (content : Nat) (given : Nat × Nat) (hs : Frame fp orig s)  (hdict : Part.dict ∈ fp := by assumption) (hnav : Part.nav ∈ fp := by assumption) :
    Frame fp orig (State.storePeer s v kind sat issue content given) := by
  unfold State.storePeer
  repeat' first
    | intro _
    | with_reducible assumption
    | with_reducible apply State.storePart_frame
    | with_reducible apply frame_foldl
    | with_reducible apply frame_foldl_fst
    | with_reducible apply frame_ite
    | split
    | dsimp only
    | (with_reducible refine frame_mk ?_)

theorem State.storeExpire_frame {fp : List Part} {orig : State} {s : State} (e : Nat) (hs : Frame fp orig s)  (hdict : Part.dict ∈ fp := by assumption) :
    Frame fp orig (State.storeExpire s e) := by
  unfold State.storeExpire
  repeat' first
    | intro _
    | with_reducible assumption
    | with_reducible apply State.set_frame
    | with_reducible apply frame_ite
    | (extract_lets +onlyGivenNames -underBinder x; first | (refine frame_cut (fp := fp) (orig := orig) (x := x) ?_ ?_ <;> first | (intro h0; generalize x = y at h0 ⊢; clear x) | intro h0 | subst x) | (have h0 := Nat.zero_le x; generalize x = y at h0 ⊢; clear h0 x) | subst x)
    | split
    | dsimp only
    | (with_reducible refine frame_mk ?_)

theorem State.messageIn_frame {fp : List Part} {orig : State} {s : State} (n : Nat) (per : Int) (inverted : Bool) (bits : List Bool) (rxAt : Nat) (hs : Frame fp orig s)  (hdict : Part.dict ∈ fp := by assumption) (hslots : Part.slots ∈ fp := by assumption) (hnav : Part.nav ∈ fp := by assumption) :
    Frame fp orig (State.messageIn s n per inverted bits rxAt) := by
  unfold State.messageIn
  repeat' first
    | intro _
    | with_reducible assumption
    | with_reducible apply State.modSlot_frame
    | with_reducible apply State.count_frame
    | with_reducible apply State.set_frame
    | (extract_lets +onlyGivenNames -underBinder x; first | (refine frame_cut (fp := fp) (orig := orig) (x := x) ?_ ?_ <;> first | (intro h0; generalize x = y at h0 ⊢; clear x) | intro h0 | subst x) | (have h0 := Nat.zero_le x; generalize x = y at h0 ⊢; clear h0 x) | subst x)
    | split
    | dsimp only
    | (with_reducible refine frame_mk ?_)

theorem State.messageStore_frame {fp : List Part} {orig : State} {s : State} (i : NavIn) (hs : Frame fp orig s)  (hdict : Part.dict ∈ fp := by assumption) (hstreams : Part.streams ∈ fp := by assumption) (hnav : Part.nav ∈ fp := by assumption) :
    Frame fp orig (State.messageStore s i) := by
  unfold State.messageStore
  repeat' first
    | intro _
    | with_reducible assumption
    | with_reducible apply State.storeMessage_frame
    | with_reducible apply State.publish_frame
    | with_reducible apply State.leapBroadcast_frame
    | with_reducible apply State.append_frame
    | with_reducible apply State.count_frame
    | with_reducible apply State.setI_frame
    | with_reducible apply frame_ite
    | (extract_lets +onlyGivenNames -underBinder x; first | (refine frame_cut (fp := fp) (orig := orig) (x := x) ?_ ?_ <;> first | (intro h0; generalize x = y at h0 ⊢; clear x) | intro h0 | subst x) | (have h0 := Nat.zero_le x; generalize x = y at h0 ⊢; clear h0 x) | subst x)
    | split
    | dsimp only
    | (with_reducible refine frame_mk ?_)

theorem State.storeFlush_frame {fp : List Part} {orig : State} {s : State}  (hs : Frame fp orig s)  (hdict : Part.dict ∈ fp := by assumption) (hstreams : Part.streams ∈ fp := by assumption) (hnav : Part.nav ∈ fp := by assumption) :
    Frame fp orig (State.storeFlush s) := by
  unfold State.storeFlush
  repeat' first
    | intro _
    | with_reducible assumption
    | with_reducible apply State.messageStore_frame
    | with_reducible apply frame_foldl
    | with_reducible apply frame_foldl_fst
    | (extract_lets +onlyGivenNames -underBinder x; first | (refine frame_cut (fp := fp) (orig := orig) (x := x) ?_ ?_ <;> first | (intro h0; generalize x = y at h0 ⊢; clear x) | intro h0 | subst x) | (have h0 := Nat.zero_le x; generalize x = y at h0 ⊢; clear h0 x) | subst x)
    | dsimp only
    | (with_reducible refine frame_mk ?_)

theorem State.candShow_frame {fp : List Part} {orig : State} {s : State} (n : Nat) (hs : Frame fp orig s)  (hdict : Part.dict ∈ fp := by assumption) :
    Frame fp orig (State.candShow s n) := by
  unfold State.candShow
  repeat' first
    | intro _
    | with_reducible assumption
    | with_reducible apply State.set_frame
    | with_reducible apply frame_ite
    | (extract_lets +onlyGivenNames -underBinder x; first | (refine frame_cut (fp := fp) (orig := orig) (x := x) ?_ ?_ <;> first | (intro h0; generalize x = y at h0 ⊢; clear x) | intro h0 | subst x) | (have h0 := Nat.zero_le x; generalize x = y at h0 ⊢; clear h0 x) | subst x)
    | split
    | dsimp only
    | (with_reducible refine frame_mk ?_)

theorem State.candDrop_frame {fp : List Part} {orig : State} {s : State} (n : Nat) (pos : Nat) (hs : Frame fp orig s)  (hdict : Part.dict ∈ fp := by assumption) (hslots : Part.slots ∈ fp := by assumption) :
    Frame fp orig (State.candDrop s n pos) := by
  unfold State.candDrop
  repeat' first
    | intro _
    | with_reducible assumption
    | with_reducible apply State.candShow_frame
    | with_reducible apply State.modSlot_frame
    | with_reducible apply State.bump_frame
    | (extract_lets +onlyGivenNames -underBinder x; first | (refine frame_cut (fp := fp) (orig := orig) (x := x) ?_ ?_ <;> first | (intro h0; generalize x = y at h0 ⊢; clear x) | intro h0 | subst x) | (have h0 := Nat.zero_le x; generalize x = y at h0 ⊢; clear h0 x) | subst x)
    | dsimp only
    | (with_reducible refine frame_mk ?_)

theorem State.frameLose_frame {fp : List Part} {orig : State} {s : State} (n : Nat) (hs : Frame fp orig s)  (hdict : Part.dict ∈ fp := by assumption) (hslots : Part.slots ∈ fp := by assumption) :
    Frame fp orig (State.frameLose s n) := by
  unfold State.frameLose
  repeat' first
    | intro _
    | with_reducible assumption
    | with_reducible apply State.candShow_frame
    | with_reducible apply State.modSlot_frame
    | with_reducible apply State.set_frame
    | dsimp only
    | (with_reducible refine frame_mk ?_)

theorem State.frameFail_frame {fp : List Part} {orig : State} {s : State} (n : Nat) (hs : Frame fp orig s)  (hdict : Part.dict ∈ fp := by assumption) (hslots : Part.slots ∈ fp := by assumption) :
    Frame fp orig (State.frameFail s n) := by
  unfold State.frameFail
  repeat' first
    | intro _
    | with_reducible assumption
    | with_reducible apply State.frameLose_frame
    | with_reducible apply State.modSlot_frame
    | with_reducible apply State.flag_frame
    | with_reducible apply State.bump_frame
    | with_reducible apply frame_ite
    | (extract_lets +onlyGivenNames -underBinder x; first | (refine frame_cut (fp := fp) (orig := orig) (x := x) ?_ ?_ <;> first | (intro h0; generalize x = y at h0 ⊢; clear x) | intro h0 | subst x) | (have h0 := Nat.zero_le x; generalize x = y at h0 ⊢; clear h0 x) | subst x)
    | split
    | dsimp only
    | (with_reducible refine frame_mk ?_)

theorem State.frameConfirm_frame {fp : List Part} {orig : State} {s : State} (n : Nat) (c : NavCand) (pos : Nat) (hs : Frame fp orig s)  (hdict : Part.dict ∈ fp := by assumption) (hslots : Part.slots ∈ fp := by assumption) (hnav : Part.nav ∈ fp := by assumption) :
    Frame fp orig (State.frameConfirm s n c pos) := by
  unfold State.frameConfirm
  repeat' first
    | intro _
    | with_reducible assumption
    | with_reducible apply State.candShow_frame
    | with_reducible apply State.messageIn_frame
    | with_reducible apply State.putLock_frame
    | with_reducible apply State.modSlot_frame
    | with_reducible apply State.setI_frame
    | with_reducible apply State.set_frame
    | with_reducible apply frame_ite
    | (extract_lets +onlyGivenNames -underBinder x; first | (refine frame_cut (fp := fp) (orig := orig) (x := x) ?_ ?_ <;> first | (intro h0; generalize x = y at h0 ⊢; clear x) | intro h0 | subst x) | (have h0 := Nat.zero_le x; generalize x = y at h0 ⊢; clear h0 x) | subst x)
    | split
    | dsimp only
    | (with_reducible refine frame_mk ?_)

theorem State.candFirst_frame {fp : List Part} {orig : State} {s : State} (n : Nat) (pos : Nat) (inverted : Bool) (hs : Frame fp orig s)  (hdict : Part.dict ∈ fp := by assumption) (hslots : Part.slots ∈ fp := by assumption) (hnav : Part.nav ∈ fp := by assumption) :
    Frame fp orig (State.candFirst s n pos inverted) := by
  unfold State.candFirst
  repeat' first
    | intro _
    | with_reducible assumption
    | with_reducible apply State.frameConfirm_frame
    | (extract_lets +onlyGivenNames -underBinder x; first | (refine frame_cut (fp := fp) (orig := orig) (x := x) ?_ ?_ <;> first | (intro h0; generalize x = y at h0 ⊢; clear x) | intro h0 | subst x) | (have h0 := Nat.zero_le x; generalize x = y at h0 ⊢; clear h0 x) | subst x)
    | split
    | dsimp only
    | (with_reducible refine frame_mk ?_)

theorem State.candMod_frame {fp : List Part} {orig : State} {s : State} (n : Nat) (pos : Nat) (f : NavCand → NavCand) (hs : Frame fp orig s)  (hdict : Part.dict ∈ fp := by assumption) (hslots : Part.slots ∈ fp := by assumption) :
    Frame fp orig (State.candMod s n pos f) := by
  unfold State.candMod
  repeat' first
    | intro _
    | with_reducible assumption
    | with_reducible apply State.candShow_frame
    | with_reducible apply State.modSlot_frame
    | with_reducible apply frame_ite
    | split
    | dsimp only
    | (with_reducible refine frame_mk ?_)

theorem State.checkEnd_frame {fp : List Part} {orig : State} {s : State} (n : Nat) (stage : Nat) (pos : Nat) (inverted : Bool) (got : Option (List Bool)) (at_ : Nat) (hs : Frame fp orig s)  (hdict : Part.dict ∈ fp := by assumption) (hslots : Part.slots ∈ fp := by assumption) (hnav : Part.nav ∈ fp := by assumption) :
    Frame fp orig (State.checkEnd s n stage pos inverted got at_) := by
  unfold State.checkEnd
  repeat' first
    | intro _
    | with_reducible assumption
    | with_reducible apply State.candMod_frame
    | with_reducible apply State.candFirst_frame
    | with_reducible apply State.frameFail_frame
    | with_reducible apply State.candDrop_frame
    | with_reducible apply State.messageIn_frame
    | with_reducible apply State.modSlot_frame
    | with_reducible apply frame_ite
    | (extract_lets +onlyGivenNames -underBinder x; first | (refine frame_cut (fp := fp) (orig := orig) (x := x) ?_ ?_ <;> first | (intro h0; generalize x = y at h0 ⊢; clear x) | intro h0 | subst x) | (have h0 := Nat.zero_le x; generalize x = y at h0 ⊢; clear h0 x) | subst x)
    | split
    | dsimp only
    | (with_reducible refine frame_mk ?_)

theorem State.jobPut_frame {fp : List Part} {orig : State} {s : State} (d : Nat) (j : NavJob) (hs : Frame fp orig s)  (hdict : Part.dict ∈ fp := by assumption) (hslots : Part.slots ∈ fp := by assumption) (hnav : Part.nav ∈ fp := by assumption) :
    Frame fp orig (State.jobPut s d j) := by
  unfold State.jobPut
  repeat' first
    | intro _
    | with_reducible assumption
    | with_reducible apply State.checkEnd_frame
    | with_reducible apply State.flag_frame
    | with_reducible apply frame_ite
    | (extract_lets +onlyGivenNames -underBinder x; first | (refine frame_cut (fp := fp) (orig := orig) (x := x) ?_ ?_ <;> first | (intro h0; generalize x = y at h0 ⊢; clear x) | intro h0 | subst x) | (have h0 := Nat.zero_le x; generalize x = y at h0 ⊢; clear h0 x) | subst x)
    | split
    | dsimp only
    | (with_reducible refine frame_mk ?_)

theorem State.checkBegin_frame {fp : List Part} {orig : State} {s : State} (n : Nat) (i : Nat) (pos : Nat) (inverted : Bool) (hs : Frame fp orig s)  (hdict : Part.dict ∈ fp := by assumption) (hslots : Part.slots ∈ fp := by assumption) (hnav : Part.nav ∈ fp := by assumption) :
    Frame fp orig (State.checkBegin s n i pos inverted) := by
  unfold State.checkBegin
  repeat' first
    | intro _
    | with_reducible assumption
    | with_reducible apply State.jobPut_frame
    | with_reducible apply State.checkEnd_frame
    | (extract_lets +onlyGivenNames -underBinder x; first | (refine frame_cut (fp := fp) (orig := orig) (x := x) ?_ ?_ <;> first | (intro h0; generalize x = y at h0 ⊢; clear x) | intro h0 | subst x) | (have h0 := Nat.zero_le x; generalize x = y at h0 ⊢; clear h0 x) | subst x)
    | split
    | dsimp only
    | (with_reducible refine frame_mk ?_)

theorem State.candOpen_frame {fp : List Part} {orig : State} {s : State} (n : Nat) (pos : Nat) (inverted : Bool) (hs : Frame fp orig s)  (hdict : Part.dict ∈ fp := by assumption) (hslots : Part.slots ∈ fp := by assumption) :
    Frame fp orig (State.candOpen s n pos inverted) := by
  unfold State.candOpen
  repeat' first
    | intro _
    | with_reducible assumption
    | with_reducible apply State.candShow_frame
    | with_reducible apply State.modSlot_frame
    | with_reducible apply frame_ite
    | (extract_lets +onlyGivenNames -underBinder x; first | (refine frame_cut (fp := fp) (orig := orig) (x := x) ?_ ?_ <;> first | (intro h0; generalize x = y at h0 ⊢; clear x) | intro h0 | subst x) | (have h0 := Nat.zero_le x; generalize x = y at h0 ⊢; clear h0 x) | subst x)
    | split
    | dsimp only
    | (with_reducible refine frame_mk ?_)

theorem State.alignedSee_frame {fp : List Part} {orig : State} {s : State} (n : Nat) (p : Nat) (hs : Frame fp orig s)  (hdict : Part.dict ∈ fp := by assumption) (hslots : Part.slots ∈ fp := by assumption) (hnav : Part.nav ∈ fp := by assumption) :
    Frame fp orig (State.alignedSee s n p) := by
  unfold State.alignedSee
  repeat' first
    | intro _
    | with_reducible assumption
    | with_reducible apply State.checkBegin_frame
    | with_reducible apply State.frameLose_frame
    | with_reducible apply State.modSlot_frame
    | with_reducible apply State.set_frame
    | with_reducible apply frame_ite
    | (extract_lets +onlyGivenNames -underBinder x; first | (refine frame_cut (fp := fp) (orig := orig) (x := x) ?_ ?_ <;> first | (intro h0; generalize x = y at h0 ⊢; clear x) | intro h0 | subst x) | (have h0 := Nat.zero_le x; generalize x = y at h0 ⊢; clear h0 x) | subst x)
    | split
    | dsimp only
    | (with_reducible refine frame_mk ?_)

theorem State.searchSee_frame {fp : List Part} {orig : State} {s : State} (n : Nat) (p : Nat) (start : Bool) (hs : Frame fp orig s)  (hdict : Part.dict ∈ fp := by assumption) (hslots : Part.slots ∈ fp := by assumption) (hnav : Part.nav ∈ fp := by assumption) :
    Frame fp orig (State.searchSee s n p start) := by
  unfold State.searchSee
  repeat' first
    | intro _
    | with_reducible assumption
    | with_reducible apply State.candOpen_frame
    | with_reducible apply State.checkBegin_frame
    | with_reducible apply State.candDrop_frame
    | with_reducible apply frame_foldl
    | with_reducible apply frame_foldl_fst
    | with_reducible apply frame_ite
    | (extract_lets +onlyGivenNames -underBinder x; first | (refine frame_cut (fp := fp) (orig := orig) (x := x) ?_ ?_ <;> first | (intro h0; generalize x = y at h0 ⊢; clear x) | intro h0 | subst x) | (have h0 := Nat.zero_le x; generalize x = y at h0 ⊢; clear h0 x) | subst x)
    | split
    | dsimp only
    | (with_reducible refine frame_mk ?_)

theorem State.streamSee_frame {fp : List Part} {orig : State} {s : State} (n : Nat) (y : SoftSym) (start : Bool) (hs : Frame fp orig s)  (hdict : Part.dict ∈ fp := by assumption) (hslots : Part.slots ∈ fp := by assumption) (hnav : Part.nav ∈ fp := by assumption) :
    Frame fp orig (State.streamSee s n y start) := by
  unfold State.streamSee
  repeat' first
    | intro _
    | with_reducible assumption
    | with_reducible apply State.searchSee_frame
    | with_reducible apply State.alignedSee_frame
    | with_reducible apply State.modSlot_frame
    | with_reducible apply frame_ite
    | (extract_lets +onlyGivenNames -underBinder x; first | (refine frame_cut (fp := fp) (orig := orig) (x := x) ?_ ?_ <;> first | (intro h0; generalize x = y at h0 ⊢; clear x) | intro h0 | subst x) | (have h0 := Nat.zero_le x; generalize x = y at h0 ⊢; clear h0 x) | subst x)
    | split
    | dsimp only
    | (with_reducible refine frame_mk ?_)

theorem State.symbolPut_frame {fp : List Part} {orig : State} {s : State} (n : Nat) (per : Int) (y : SoftSym) (start : Bool) (hs : Frame fp orig s)  (hdict : Part.dict ∈ fp := by assumption) (hslots : Part.slots ∈ fp := by assumption) (hnav : Part.nav ∈ fp := by assumption) :
    Frame fp orig (State.symbolPut s n per y start) := by
  unfold State.symbolPut
  repeat' first
    | intro _
    | with_reducible assumption
    | with_reducible apply State.streamSee_frame
    | with_reducible apply State.jobPut_frame
    | with_reducible apply State.publish_frame
    | with_reducible apply State.modSlot_frame
    | with_reducible apply State.set_frame
    | with_reducible apply frame_ite
    | (extract_lets +onlyGivenNames -underBinder x; first | (refine frame_cut (fp := fp) (orig := orig) (x := x) ?_ ?_ <;> first | (intro h0; generalize x = y at h0 ⊢; clear x) | intro h0 | subst x) | (have h0 := Nat.zero_le x; generalize x = y at h0 ⊢; clear h0 x) | subst x)
    | split
    | dsimp only
    | (with_reducible refine frame_mk ?_)

theorem State.symbolGap_frame {fp : List Part} {orig : State} {s : State} (n : Nat) (k : Nat) (hs : Frame fp orig s)  (hslots : Part.slots ∈ fp := by assumption) :
    Frame fp orig (State.symbolGap s n k) := by
  unfold State.symbolGap
  repeat' first
    | intro _
    | with_reducible assumption
    | with_reducible apply State.modSlot_frame
    | with_reducible apply frame_ite
    | (extract_lets +onlyGivenNames -underBinder x; first | (refine frame_cut (fp := fp) (orig := orig) (x := x) ?_ ?_ <;> first | (intro h0; generalize x = y at h0 ⊢; clear x) | intro h0 | subst x) | (have h0 := Nat.zero_le x; generalize x = y at h0 ⊢; clear h0 x) | subst x)
    | split
    | dsimp only
    | (with_reducible refine frame_mk ?_)

theorem State.symbolFill_frame {fp : List Part} {orig : State} {s : State} (n : Nat) (k : Nat) (at_ : Nat) (hs : Frame fp orig s)  (hdict : Part.dict ∈ fp := by assumption) (hslots : Part.slots ∈ fp := by assumption) (hnav : Part.nav ∈ fp := by assumption) :
    Frame fp orig (State.symbolFill s n k at_) := by
  unfold State.symbolFill
  repeat' first
    | intro _
    | with_reducible assumption
    | with_reducible apply State.symbolGap_frame
    | with_reducible apply State.symbolPut_frame
    | with_reducible apply frame_foldl
    | with_reducible apply frame_foldl_fst
    | with_reducible apply frame_ite
    | (extract_lets +onlyGivenNames -underBinder x; first | (refine frame_cut (fp := fp) (orig := orig) (x := x) ?_ ?_ <;> first | (intro h0; generalize x = y at h0 ⊢; clear x) | intro h0 | subst x) | (have h0 := Nat.zero_le x; generalize x = y at h0 ⊢; clear h0 x) | subst x)
    | split
    | dsimp only
    | (with_reducible refine frame_mk ?_)

theorem State.symbolSee_frame {fp : List Part} {orig : State} {s : State} (n : Nat) (e : Dump) (hs : Frame fp orig s)  (hdict : Part.dict ∈ fp := by assumption) (hslots : Part.slots ∈ fp := by assumption) (hnav : Part.nav ∈ fp := by assumption) :
    Frame fp orig (State.symbolSee s n e) := by
  unfold State.symbolSee
  repeat' first
    | intro _
    | with_reducible assumption
    | with_reducible apply State.symbolFill_frame
    | with_reducible apply State.symbolPut_frame
    | with_reducible apply State.modSlot_frame
    | with_reducible apply frame_ite
    | (extract_lets +onlyGivenNames -underBinder x; first | (refine frame_cut (fp := fp) (orig := orig) (x := x) ?_ ?_ <;> first | (intro h0; generalize x = y at h0 ⊢; clear x) | intro h0 | subst x) | (have h0 := Nat.zero_le x; generalize x = y at h0 ⊢; clear h0 x) | subst x)
    | split
    | dsimp only
    | (with_reducible refine frame_mk ?_)

theorem State.trellisEnd_frame {fp : List Part} {orig : State} {s : State} (j : NavJob) (hs : Frame fp orig s)  (hdict : Part.dict ∈ fp := by assumption) (hslots : Part.slots ∈ fp := by assumption) (hnav : Part.nav ∈ fp := by assumption) :
    Frame fp orig (State.trellisEnd s j) := by
  unfold State.trellisEnd
  repeat' first
    | intro _
    | with_reducible assumption
    | with_reducible apply State.streamSee_frame
    | with_reducible apply State.modSlot_frame
    | with_reducible apply frame_foldl
    | with_reducible apply frame_foldl_fst
    | with_reducible apply frame_ite
    | (extract_lets +onlyGivenNames -underBinder x; first | (refine frame_cut (fp := fp) (orig := orig) (x := x) ?_ ?_ <;> first | (intro h0; generalize x = y at h0 ⊢; clear x) | intro h0 | subst x) | (have h0 := Nat.zero_le x; generalize x = y at h0 ⊢; clear h0 x) | subst x)
    | split
    | dsimp only
    | (with_reducible refine frame_mk ?_)

theorem State.decodeComplete_frame {fp : List Part} {orig : State} {s : State} (d : Nat) (hs : Frame fp orig s)  (hdict : Part.dict ∈ fp := by assumption) (hslots : Part.slots ∈ fp := by assumption) (hnav : Part.nav ∈ fp := by assumption) :
    Frame fp orig (State.decodeComplete s d) := by
  unfold State.decodeComplete
  repeat' first
    | intro _
    | with_reducible assumption
    | with_reducible apply State.trellisEnd_frame
    | with_reducible apply State.jobPut_frame
    | with_reducible apply State.checkEnd_frame
    | with_reducible apply frame_ite
    | (extract_lets +onlyGivenNames -underBinder x; first | (refine frame_cut (fp := fp) (orig := orig) (x := x) ?_ ?_ <;> first | (intro h0; generalize x = y at h0 ⊢; clear x) | intro h0 | subst x) | (have h0 := Nat.zero_le x; generalize x = y at h0 ⊢; clear h0 x) | subst x)
    | split
    | dsimp only
    | (with_reducible refine frame_mk ?_)

theorem State.predictedBlock_frame {fp : List Part} {orig : State} {s : State} (n : Nat) (e : Nat) (part : Nat) (start : Nat) (hs : Frame fp orig s)  (hnav : Part.nav ∈ fp := by assumption) :
    Frame fp orig (State.predictedBlock s n e part start) := by
  unfold State.predictedBlock
  repeat' first
    | intro _
    | with_reducible assumption
    | with_reducible apply State.publish_frame
    | with_reducible apply frame_ite
    | (extract_lets +onlyGivenNames -underBinder x; first | (refine frame_cut (fp := fp) (orig := orig) (x := x) ?_ ?_ <;> first | (intro h0; generalize x = y at h0 ⊢; clear x) | intro h0 | subst x) | (have h0 := Nat.zero_le x; generalize x = y at h0 ⊢; clear h0 x) | subst x)
    | split
    | dsimp only
    | (with_reducible refine frame_mk ?_)

theorem State.navTick_frame {fp : List Part} {orig : State} {s : State}  (hs : Frame fp orig s)  (hdict : Part.dict ∈ fp := by assumption) (hslots : Part.slots ∈ fp := by assumption) (hnav : Part.nav ∈ fp := by assumption) :
    Frame fp orig (State.navTick s) := by
  unfold State.navTick
  repeat' first
    | intro _
    | with_reducible assumption
    | with_reducible apply State.modSlot_frame
    | with_reducible apply State.set_frame
    | with_reducible apply frame_foldl
    | with_reducible apply frame_foldl_fst
    | with_reducible apply frame_ite
    | (extract_lets +onlyGivenNames -underBinder x; first | (refine frame_cut (fp := fp) (orig := orig) (x := x) ?_ ?_ <;> first | (intro h0; generalize x = y at h0 ⊢; clear x) | intro h0 | subst x) | (have h0 := Nat.zero_le x; generalize x = y at h0 ⊢; clear h0 x) | subst x)
    | split
    | dsimp only
    | (with_reducible refine frame_mk ?_)

theorem State.navReset_frame {fp : List Part} {orig : State} {s : State}  (hs : Frame fp orig s)  (hstreams : Part.streams ∈ fp := by assumption) (hnav : Part.nav ∈ fp := by assumption) :
    Frame fp orig (State.navReset s) := by
  unfold State.navReset
  repeat' first
    | intro _
    | with_reducible assumption
    | with_reducible apply State.setStream_frame
    | (extract_lets +onlyGivenNames -underBinder x; first | (refine frame_cut (fp := fp) (orig := orig) (x := x) ?_ ?_ <;> first | (intro h0; generalize x = y at h0 ⊢; clear x) | intro h0 | subst x) | (have h0 := Nat.zero_le x; generalize x = y at h0 ⊢; clear h0 x) | subst x)
    | dsimp only
    | (with_reducible refine frame_mk ?_)

/-! ### Loops -/

theorem State.updateJudge_frame {fp : List Part} {orig : State} {s : State} (n : Nat) (u : LoopSums) (ep : Int) (hs : Frame fp orig s)  (hdict : Part.dict ∈ fp := by assumption) (hfree : Part.free ∈ fp := by assumption) (hslots : Part.slots ∈ fp := by assumption) :
    Frame fp orig (State.updateJudge s n u ep) := by
  unfold State.updateJudge
  repeat' first
    | intro _
    | with_reducible assumption
    | with_reducible apply State.bumpJudge_frame
    | with_reducible apply State.mmJudge_frame
    | with_reducible apply State.cnoJudge_frame
    | with_reducible apply State.pliJudge_frame
    | with_reducible apply State.slip_frame
    | with_reducible apply frame_ite
    | (extract_lets +onlyGivenNames -underBinder x; first | (refine frame_cut (fp := fp) (orig := orig) (x := x) ?_ ?_ <;> first | (intro h0; generalize x = y at h0 ⊢; clear x) | intro h0 | subst x) | (have h0 := Nat.zero_le x; generalize x = y at h0 ⊢; clear h0 x) | subst x)
    | (with_reducible refine frame_fst (by with_reducible assumption) ?_)
    | (with_reducible refine frame_snd (by with_reducible assumption) ?_)
    | split
    | dsimp only
    | (with_reducible refine frame_mk ?_)

theorem State.loopPut_frame {fp : List Part} {orig : State} {s : State} (n : Nat) (cl : Int × Int) (ca : Int × Int × Int) (p : Int × Int) (hs : Frame fp orig s)  (hcpu : Part.cpu ∈ fp := by assumption) (hslots : Part.slots ∈ fp := by assumption) :
    Frame fp orig (State.loopPut s n cl ca p) := by
  unfold State.loopPut
  repeat' first
    | intro _
    | with_reducible assumption
    | with_reducible apply State.ncoPut_frame
    | with_reducible apply State.modSlot_frame
    | (extract_lets +onlyGivenNames -underBinder x; first | (refine frame_cut (fp := fp) (orig := orig) (x := x) ?_ ?_ <;> first | (intro h0; generalize x = y at h0 ⊢; clear x) | intro h0 | subst x) | (have h0 := Nat.zero_le x; generalize x = y at h0 ⊢; clear h0 x) | subst x)
    | dsimp only
    | (with_reducible refine frame_mk ?_)

theorem State.loopClose_frame {fp : List Part} {orig : State} {s : State} (n : Nat) (u : LoopSums) (hs : Frame fp orig s)  (hdict : Part.dict ∈ fp := by assumption) (hfree : Part.free ∈ fp := by assumption) (hcpu : Part.cpu ∈ fp := by assumption) (hslots : Part.slots ∈ fp := by assumption) :
    Frame fp orig (State.loopClose s n u) := by
  unfold State.loopClose
  repeat' first
    | intro _
    | with_reducible assumption
    | with_reducible apply State.loopPut_frame
    | with_reducible apply State.updateJudge_frame
    | with_reducible apply State.takeFree_frame
    | with_reducible apply frame_ite
    | (extract_lets +onlyGivenNames -underBinder x; first | (refine frame_cut (fp := fp) (orig := orig) (x := x) ?_ ?_ <;> first | (intro h0; generalize x = y at h0 ⊢; clear x) | intro h0 | subst x) | (have h0 := Nat.zero_le x; generalize x = y at h0 ⊢; clear h0 x) | subst x)
    | split
    | dsimp only
    | (with_reducible refine frame_mk ?_)

theorem State.loopUpdate_frame {fp : List Part} {orig : State} {s : State} (n : Nat) (hs : Frame fp orig s)  (hdict : Part.dict ∈ fp := by assumption) (hfree : Part.free ∈ fp := by assumption) (hcpu : Part.cpu ∈ fp := by assumption) (hslots : Part.slots ∈ fp := by assumption) (hnav : Part.nav ∈ fp := by assumption) :
    Frame fp orig (State.loopUpdate s n) := by
  unfold State.loopUpdate
  repeat' first
    | intro _
    | with_reducible assumption
    | with_reducible apply State.loopClose_frame
    | with_reducible apply State.symbolSee_frame
    | with_reducible apply State.syncSee_frame
    | with_reducible apply State.slotJudge_frame
    | with_reducible apply State.fallback_frame
    | with_reducible apply State.aidBits_frame
    | with_reducible apply State.modSlot_frame
    | with_reducible apply State.set_frame
    | with_reducible apply frame_foldl
    | with_reducible apply frame_foldl_fst
    | with_reducible apply frame_ite
    | (extract_lets +onlyGivenNames -underBinder x; first | (refine frame_cut (fp := fp) (orig := orig) (x := x) ?_ ?_ <;> first | (intro h0; generalize x = y at h0 ⊢; clear x) | intro h0 | subst x) | (have h0 := Nat.zero_le x; generalize x = y at h0 ⊢; clear h0 x) | subst x)
    | split
    | dsimp only
    | (with_reducible refine frame_mk ?_)

theorem State.windowClose_frame {fp : List Part} {orig : State} {s : State} (n : Nat) (act : Nat) (u : LoopSums) (hs : Frame fp orig s)  (hdict : Part.dict ∈ fp := by assumption) (hfree : Part.free ∈ fp := by assumption) (hcpu : Part.cpu ∈ fp := by assumption) (hslots : Part.slots ∈ fp := by assumption) :
    Frame fp orig (State.windowClose s n act u) := by
  unfold State.windowClose
  repeat' first
    | intro _
    | with_reducible assumption
    | with_reducible apply State.loopPut_frame
    | with_reducible apply State.updateJudge_frame
    | with_reducible apply State.takeFree_frame
    | with_reducible apply frame_ite
    | (extract_lets +onlyGivenNames -underBinder x; first | (refine frame_cut (fp := fp) (orig := orig) (x := x) ?_ ?_ <;> first | (intro h0; generalize x = y at h0 ⊢; clear x) | intro h0 | subst x) | (have h0 := Nat.zero_le x; generalize x = y at h0 ⊢; clear h0 x) | subst x)
    | split
    | dsimp only
    | (with_reducible refine frame_mk ?_)

theorem State.aidedWindow_frame {fp : List Part} {orig : State} {s : State} (n : Nat) (hs : Frame fp orig s)  (hdict : Part.dict ∈ fp := by assumption) (hfree : Part.free ∈ fp := by assumption) (hcpu : Part.cpu ∈ fp := by assumption) (hslots : Part.slots ∈ fp := by assumption) :
    Frame fp orig (State.aidedWindow s n) := by
  unfold State.aidedWindow
  repeat' first
    | intro _
    | with_reducible assumption
    | with_reducible apply State.windowClose_frame
    | with_reducible apply State.slotJudge_frame
    | with_reducible apply State.aidBits_frame
    | with_reducible apply State.modSlot_frame
    | with_reducible apply State.set_frame
    | with_reducible apply frame_ite
    | (extract_lets +onlyGivenNames -underBinder x; first | (refine frame_cut (fp := fp) (orig := orig) (x := x) ?_ ?_ <;> first | (intro h0; generalize x = y at h0 ⊢; clear x) | intro h0 | subst x) | (have h0 := Nat.zero_le x; generalize x = y at h0 ⊢; clear h0 x) | subst x)
    | split
    | dsimp only
    | (with_reducible refine frame_mk ?_)

end Sys2Proof.Machine
end

