-- ==== Sys2Proof/Laws/FrameRadio.lean ====
section
/-!
SUPPORT. What the operations leave alone: the outputs, the reader and the ports.
-/

set_option linter.all false
set_option Elab.async false

namespace Sys2Proof.Machine

/-! ### Outputs -/

theorem State.delayChoose_frame {fp : List Part} {orig : State} {s : State} (k : Nat) (hs : Frame fp orig s)  (hdict : Part.dict ∈ fp := by assumption) :
    Frame fp orig (State.delayChoose s k) := by
  unfold State.delayChoose
  repeat' first
    | intro _
    | with_reducible assumption
    | with_reducible apply State.set_frame
    | with_reducible apply frame_ite
    | (extract_lets +onlyGivenNames -underBinder x; first | (refine frame_cut (fp := fp) (orig := orig) (x := x) ?_ ?_ <;> first | (intro h0; generalize x = y at h0 ⊢; clear x) | intro h0 | subst x) | (have h0 := Nat.zero_le x; generalize x = y at h0 ⊢; clear h0 x) | subst x)
    | split
    | dsimp only
    | (with_reducible refine frame_mk ?_)

theorem State.delaySlew_frame {fp : List Part} {orig : State} {s : State} (k : Nat) (hs : Frame fp orig s)  (hdict : Part.dict ∈ fp := by assumption) (hsilt : Part.silt ∈ fp := by assumption) (hout : Part.out ∈ fp := by assumption) :
    Frame fp orig (State.delaySlew s k) := by
  unfold State.delaySlew
  repeat' first
    | intro _
    | with_reducible assumption
    | with_reducible apply State.setI_frame
    | with_reducible apply State.set_frame
    | with_reducible apply State.log_frame
    | with_reducible apply frame_ite
    | (extract_lets +onlyGivenNames -underBinder x; first | (refine frame_cut (fp := fp) (orig := orig) (x := x) ?_ ?_ <;> first | (intro h0; generalize x = y at h0 ⊢; clear x) | intro h0 | subst x) | (have h0 := Nat.zero_le x; generalize x = y at h0 ⊢; clear h0 x) | subst x)
    | split
    | dsimp only
    | (with_reducible refine frame_mk ?_)

theorem State.delayTick_frame {fp : List Part} {orig : State} {s : State}  (hs : Frame fp orig s)  (hdict : Part.dict ∈ fp := by assumption) (hsilt : Part.silt ∈ fp := by assumption) (hout : Part.out ∈ fp := by assumption) :
    Frame fp orig (State.delayTick s) := by
  unfold State.delayTick
  repeat' first
    | intro _
    | with_reducible assumption
    | with_reducible apply State.delaySlew_frame
    | with_reducible apply State.delayChoose_frame
    | with_reducible apply frame_foldl
    | with_reducible apply frame_foldl_fst
    | with_reducible apply frame_ite
    | split
    | dsimp only
    | (with_reducible refine frame_mk ?_)

theorem State.modTp_frame {fp : List Part} {orig : State} {s : State} (p : Nat) (f : TpSt → TpSt) (hs : Frame fp orig s)  (hout : Part.out ∈ fp := by assumption) :
    Frame fp orig (State.modTp s p f) := by
  unfold State.modTp
  repeat' first
    | intro _
    | with_reducible assumption
    | dsimp only
    | (with_reducible refine frame_mk ?_)

theorem State.irigCut_frame {fp : List Part} {orig : State} {s : State} (p : Nat) (at_ : Nat) (hs : Frame fp orig s)  (hout : Part.out ∈ fp := by assumption) :
    Frame fp orig (State.irigCut s p at_) := by
  unfold State.irigCut
  repeat' first
    | intro _
    | with_reducible assumption
    | with_reducible apply State.modTp_frame
    | with_reducible apply frame_ite
    | (extract_lets +onlyGivenNames -underBinder x; first | (refine frame_cut (fp := fp) (orig := orig) (x := x) ?_ ?_ <;> first | (intro h0; generalize x = y at h0 ⊢; clear x) | intro h0 | subst x) | (have h0 := Nat.zero_le x; generalize x = y at h0 ⊢; clear h0 x) | subst x)
    | split
    | dsimp only
    | (with_reducible refine frame_mk ?_)

theorem State.tpEnable_frame {fp : List Part} {orig : State} {s : State} (p : Nat) (hs : Frame fp orig s)  (hout : Part.out ∈ fp := by assumption) :
    Frame fp orig (State.tpEnable s p) := by
  unfold State.tpEnable
  repeat' first
    | intro _
    | with_reducible assumption
    | with_reducible apply State.irigCut_frame
    | with_reducible apply State.modTp_frame
    | with_reducible apply frame_ite
    | (extract_lets +onlyGivenNames -underBinder x; first | (refine frame_cut (fp := fp) (orig := orig) (x := x) ?_ ?_ <;> first | (intro h0; generalize x = y at h0 ⊢; clear x) | intro h0 | subst x) | (have h0 := Nat.zero_le x; generalize x = y at h0 ⊢; clear h0 x) | subst x)
    | split
    | dsimp only
    | (with_reducible refine frame_mk ?_)

theorem State.tpRegrid_frame {fp : List Part} {orig : State} {s : State} (p : Nat) (hs : Frame fp orig s)  (hout : Part.out ∈ fp := by assumption) :
    Frame fp orig (State.tpRegrid s p) := by
  unfold State.tpRegrid
  repeat' first
    | intro _
    | with_reducible assumption
    | with_reducible apply State.irigCut_frame
    | with_reducible apply State.modTp_frame
    | with_reducible apply frame_ite
    | (extract_lets +onlyGivenNames -underBinder x; first | (refine frame_cut (fp := fp) (orig := orig) (x := x) ?_ ?_ <;> first | (intro h0; generalize x = y at h0 ⊢; clear x) | intro h0 | subst x) | (have h0 := Nat.zero_le x; generalize x = y at h0 ⊢; clear h0 x) | subst x)
    | split
    | dsimp only
    | (with_reducible refine frame_mk ?_)

theorem State.tpEdge_frame {fp : List Part} {orig : State} {s : State} (p : Nat) (g : Nat) (hs : Frame fp orig s)  (hdict : Part.dict ∈ fp := by assumption) (hout : Part.out ∈ fp := by assumption) :
    Frame fp orig (State.tpEdge s p g) := by
  unfold State.tpEdge
  repeat' first
    | intro _
    | with_reducible assumption
    | with_reducible apply State.modTp_frame
    | with_reducible apply State.count_frame
    | with_reducible apply State.flag_frame
    | with_reducible apply frame_ite
    | (extract_lets +onlyGivenNames -underBinder x; first | (refine frame_cut (fp := fp) (orig := orig) (x := x) ?_ ?_ <;> first | (intro h0; generalize x = y at h0 ⊢; clear x) | intro h0 | subst x) | (have h0 := Nat.zero_le x; generalize x = y at h0 ⊢; clear h0 x) | subst x)
    | split
    | dsimp only
    | (with_reducible refine frame_mk ?_)

theorem State.tpEnd_frame {fp : List Part} {orig : State} {s : State} (p : Nat) (hs : Frame fp orig s)  (hout : Part.out ∈ fp := by assumption) :
    Frame fp orig (State.tpEnd s p) := by
  unfold State.tpEnd
  repeat' first
    | intro _
    | with_reducible assumption
    | with_reducible apply State.tpRegrid_frame
    | with_reducible apply State.modTp_frame
    | with_reducible apply frame_ite
    | split
    | dsimp only
    | (with_reducible refine frame_mk ?_)

theorem State.tpStep_frame {fp : List Part} {orig : State} {s : State} (old : Nat) (new : Nat) (p : Nat) (hs : Frame fp orig s)  (hout : Part.out ∈ fp := by assumption) :
    Frame fp orig (State.tpStep s old new p) := by
  unfold State.tpStep
  repeat' first
    | intro _
    | with_reducible assumption
    | with_reducible apply State.irigCut_frame
    | with_reducible apply State.modTp_frame
    | with_reducible apply frame_ite
    | (extract_lets +onlyGivenNames -underBinder x; first | (refine frame_cut (fp := fp) (orig := orig) (x := x) ?_ ?_ <;> first | (intro h0; generalize x = y at h0 ⊢; clear x) | intro h0 | subst x) | (have h0 := Nat.zero_le x; generalize x = y at h0 ⊢; clear h0 x) | subst x)
    | split
    | dsimp only
    | (with_reducible refine frame_mk ?_)

theorem State.modCko_frame {fp : List Part} {orig : State} {s : State} (c : Nat) (f : CkoSt → CkoSt) (hs : Frame fp orig s)  (hout : Part.out ∈ fp := by assumption) :
    Frame fp orig (State.modCko s c f) := by
  unfold State.modCko
  repeat' first
    | intro _
    | with_reducible assumption
    | dsimp only
    | (with_reducible refine frame_mk ?_)

theorem State.ckoEnable_frame {fp : List Part} {orig : State} {s : State} (c : Nat) (hs : Frame fp orig s)  (hdict : Part.dict ∈ fp := by assumption) (hout : Part.out ∈ fp := by assumption) :
    Frame fp orig (State.ckoEnable s c) := by
  unfold State.ckoEnable
  repeat' first
    | intro _
    | with_reducible assumption
    | with_reducible apply State.modCko_frame
    | with_reducible apply State.set_frame
    | with_reducible apply frame_ite
    | (extract_lets +onlyGivenNames -underBinder x; first | (refine frame_cut (fp := fp) (orig := orig) (x := x) ?_ ?_ <;> first | (intro h0; generalize x = y at h0 ⊢; clear x) | intro h0 | subst x) | (have h0 := Nat.zero_le x; generalize x = y at h0 ⊢; clear h0 x) | subst x)
    | split
    | dsimp only
    | (with_reducible refine frame_mk ?_)

theorem State.ckoRestart_frame {fp : List Part} {orig : State} {s : State} (c : Nat) (from_ : Nat) (wait : Option Nat → Nat) (hs : Frame fp orig s)  (hdict : Part.dict ∈ fp := by assumption) (hout : Part.out ∈ fp := by assumption) :
    Frame fp orig (State.ckoRestart s c from_ wait) := by
  unfold State.ckoRestart
  repeat' first
    | intro _
    | with_reducible assumption
    | with_reducible apply State.modCko_frame
    | with_reducible apply State.set_frame
    | with_reducible apply frame_ite
    | (extract_lets +onlyGivenNames -underBinder x; first | (refine frame_cut (fp := fp) (orig := orig) (x := x) ?_ ?_ <;> first | (intro h0; generalize x = y at h0 ⊢; clear x) | intro h0 | subst x) | (have h0 := Nat.zero_le x; generalize x = y at h0 ⊢; clear h0 x) | subst x)
    | split
    | dsimp only
    | (with_reducible refine frame_mk ?_)

theorem State.ckoChange_frame {fp : List Part} {orig : State} {s : State} (c : Nat) (hs : Frame fp orig s)  (hdict : Part.dict ∈ fp := by assumption) (hout : Part.out ∈ fp := by assumption) :
    Frame fp orig (State.ckoChange s c) := by
  unfold State.ckoChange
  repeat' first
    | intro _
    | with_reducible assumption
    | with_reducible apply State.ckoRestart_frame
    | dsimp only
    | (with_reducible refine frame_mk ?_)

theorem State.ckoStep_frame {fp : List Part} {orig : State} {s : State} (old : Nat) (new : Nat) (c : Nat) (hs : Frame fp orig s)  (hdict : Part.dict ∈ fp := by assumption) (hout : Part.out ∈ fp := by assumption) :
    Frame fp orig (State.ckoStep s old new c) := by
  unfold State.ckoStep
  repeat' first
    | intro _
    | with_reducible assumption
    | with_reducible apply State.ckoRestart_frame
    | split
    | dsimp only
    | (with_reducible refine frame_mk ?_)

theorem State.ckoAlign_frame {fp : List Part} {orig : State} {s : State} (c : Nat) (g : Nat) (hs : Frame fp orig s)  (hdict : Part.dict ∈ fp := by assumption) (hout : Part.out ∈ fp := by assumption) :
    Frame fp orig (State.ckoAlign s c g) := by
  unfold State.ckoAlign
  repeat' first
    | intro _
    | with_reducible assumption
    | with_reducible apply State.modCko_frame
    | with_reducible apply State.set_frame
    | with_reducible apply State.flag_frame
    | with_reducible apply frame_ite
    | (extract_lets +onlyGivenNames -underBinder x; first | (refine frame_cut (fp := fp) (orig := orig) (x := x) ?_ ?_ <;> first | (intro h0; generalize x = y at h0 ⊢; clear x) | intro h0 | subst x) | (have h0 := Nat.zero_le x; generalize x = y at h0 ⊢; clear h0 x) | subst x)
    | split
    | dsimp only
    | (with_reducible refine frame_mk ?_)

theorem State.ckoResidual_frame {fp : List Part} {orig : State} {s : State} (c : Nat) (r : Int) (hs : Frame fp orig s)  (hdict : Part.dict ∈ fp := by assumption) :
    Frame fp orig (State.ckoResidual s c r) := by
  unfold State.ckoResidual
  repeat' first
    | intro _
    | with_reducible assumption
    | with_reducible apply State.setI_frame
    | with_reducible apply State.flag_frame
    | with_reducible apply frame_ite
    | (extract_lets +onlyGivenNames -underBinder x; first | (refine frame_cut (fp := fp) (orig := orig) (x := x) ?_ ?_ <;> first | (intro h0; generalize x = y at h0 ⊢; clear x) | intro h0 | subst x) | (have h0 := Nat.zero_le x; generalize x = y at h0 ⊢; clear h0 x) | subst x)
    | split
    | dsimp only
    | (with_reducible refine frame_mk ?_)

theorem State.todSend_frame {fp : List Part} {orig : State} {s : State} (sec : Nat) (hs : Frame fp orig s)  (hdict : Part.dict ∈ fp := by assumption) (hout : Part.out ∈ fp := by assumption) :
    Frame fp orig (State.todSend s sec) := by
  unfold State.todSend
  repeat' first
    | intro _
    | with_reducible assumption
    | with_reducible apply State.count_frame
    | with_reducible apply State.flag_frame
    | with_reducible apply frame_ite
    | (extract_lets +onlyGivenNames -underBinder x; first | (refine frame_cut (fp := fp) (orig := orig) (x := x) ?_ ?_ <;> first | (intro h0; generalize x = y at h0 ⊢; clear x) | intro h0 | subst x) | (have h0 := Nat.zero_le x; generalize x = y at h0 ⊢; clear h0 x) | subst x)
    | split
    | dsimp only
    | (with_reducible refine frame_mk ?_)

theorem State.irigSend_frame {fp : List Part} {orig : State} {s : State} (sec : Nat) (hs : Frame fp orig s)  (hdict : Part.dict ∈ fp := by assumption) (hout : Part.out ∈ fp := by assumption) :
    Frame fp orig (State.irigSend s sec) := by
  unfold State.irigSend
  repeat' first
    | intro _
    | with_reducible assumption
    | with_reducible apply State.modTp_frame
    | with_reducible apply State.count_frame
    | with_reducible apply State.flag_frame
    | with_reducible apply frame_ite
    | (extract_lets +onlyGivenNames -underBinder x; first | (refine frame_cut (fp := fp) (orig := orig) (x := x) ?_ ?_ <;> first | (intro h0; generalize x = y at h0 ⊢; clear x) | intro h0 | subst x) | (have h0 := Nat.zero_le x; generalize x = y at h0 ⊢; clear h0 x) | subst x)
    | split
    | dsimp only
    | (with_reducible refine frame_mk ?_)

theorem State.outputsLoad_frame {fp : List Part} {orig : State} {s : State}  (hs : Frame fp orig s)  (hdict : Part.dict ∈ fp := by assumption) (hout : Part.out ∈ fp := by assumption) :
    Frame fp orig (State.outputsLoad s) := by
  unfold State.outputsLoad
  repeat' first
    | intro _
    | with_reducible assumption
    | with_reducible apply State.ckoEnable_frame
    | with_reducible apply State.tpEnable_frame
    | with_reducible apply State.delayChoose_frame
    | with_reducible apply frame_foldl
    | with_reducible apply frame_foldl_fst
    | (extract_lets +onlyGivenNames -underBinder x; first | (refine frame_cut (fp := fp) (orig := orig) (x := x) ?_ ?_ <;> first | (intro h0; generalize x = y at h0 ⊢; clear x) | intro h0 | subst x) | (have h0 := Nat.zero_le x; generalize x = y at h0 ⊢; clear h0 x) | subst x)
    | dsimp only
    | (with_reducible refine frame_mk ?_)

theorem State.polarityCopy_frame {fp : List Part} {orig : State} {s : State} (i : Nat) (v : Nat) (hs : Frame fp orig s)  (hout : Part.out ∈ fp := by assumption) :
    Frame fp orig (State.polarityCopy s i v) := by
  unfold State.polarityCopy
  repeat' first
    | intro _
    | with_reducible assumption
    | with_reducible apply frame_ite
    | split
    | dsimp only
    | (with_reducible refine frame_mk ?_)

theorem State.outputsStep_frame {fp : List Part} {orig : State} {s : State} (old : Nat) (new : Nat) (hs : Frame fp orig s)  (hdict : Part.dict ∈ fp := by assumption) (hout : Part.out ∈ fp := by assumption) :
    Frame fp orig (State.outputsStep s old new) := by
  unfold State.outputsStep
  repeat' first
    | intro _
    | with_reducible assumption
    | with_reducible apply State.ckoStep_frame
    | with_reducible apply State.tpStep_frame
    | with_reducible apply frame_foldl
    | with_reducible apply frame_foldl_fst
    | (extract_lets +onlyGivenNames -underBinder x; first | (refine frame_cut (fp := fp) (orig := orig) (x := x) ?_ ?_ <;> first | (intro h0; generalize x = y at h0 ⊢; clear x) | intro h0 | subst x) | (have h0 := Nat.zero_le x; generalize x = y at h0 ⊢; clear h0 x) | subst x)
    | dsimp only
    | (with_reducible refine frame_mk ?_)

theorem State.outputsSleep_frame {fp : List Part} {orig : State} {s : State}  (hs : Frame fp orig s)  (hdict : Part.dict ∈ fp := by assumption) (hout : Part.out ∈ fp := by assumption) :
    Frame fp orig (State.outputsSleep s) := by
  unfold State.outputsSleep
  repeat' first
    | intro _
    | with_reducible assumption
    | with_reducible apply State.irigCut_frame
    | with_reducible apply State.set_frame
    | with_reducible apply frame_foldl
    | with_reducible apply frame_foldl_fst
    | with_reducible apply frame_ite
    | (extract_lets +onlyGivenNames -underBinder x; first | (refine frame_cut (fp := fp) (orig := orig) (x := x) ?_ ?_ <;> first | (intro h0; generalize x = y at h0 ⊢; clear x) | intro h0 | subst x) | (have h0 := Nat.zero_le x; generalize x = y at h0 ⊢; clear h0 x) | subst x)
    | split
    | dsimp only
    | (with_reducible refine frame_mk ?_)

theorem State.outputsWake_frame {fp : List Part} {orig : State} {s : State}  (hs : Frame fp orig s)  (hdict : Part.dict ∈ fp := by assumption) (htime : Part.time ∈ fp := by assumption) (hout : Part.out ∈ fp := by assumption) :
    Frame fp orig (State.outputsWake s) := by
  unfold State.outputsWake
  repeat' first
    | intro _
    | with_reducible assumption
    | with_reducible apply State.modCko_frame
    | with_reducible apply State.tpEnable_frame
    | with_reducible apply State.set_frame
    | with_reducible apply frame_foldl
    | with_reducible apply frame_foldl_fst
    | with_reducible apply frame_ite
    | (extract_lets +onlyGivenNames -underBinder x; first | (refine frame_cut (fp := fp) (orig := orig) (x := x) ?_ ?_ <;> first | (intro h0; generalize x = y at h0 ⊢; clear x) | intro h0 | subst x) | (have h0 := Nat.zero_le x; generalize x = y at h0 ⊢; clear h0 x) | subst x)
    | split
    | dsimp only
    | (with_reducible refine frame_mk ?_)

theorem State.todCut_frame {fp : List Part} {orig : State} {s : State}  (hs : Frame fp orig s)  (hout : Part.out ∈ fp := by assumption) :
    Frame fp orig (State.todCut s) := by
  unfold State.todCut
  repeat' first
    | intro _
    | with_reducible assumption
    | dsimp only
    | (with_reducible refine frame_mk ?_)

theorem State.outputWritten_frame {fp : List Part} {orig : State} {s : State} (k : Nat) (old : Nat) (hs : Frame fp orig s)  (hdict : Part.dict ∈ fp := by assumption) (hout : Part.out ∈ fp := by assumption) :
    Frame fp orig (State.outputWritten s k old) := by
  unfold State.outputWritten
  repeat' first
    | intro _
    | with_reducible assumption
    | with_reducible apply State.ckoChange_frame
    | with_reducible apply State.ckoEnable_frame
    | with_reducible apply State.tpRegrid_frame
    | with_reducible apply State.tpEnable_frame
    | with_reducible apply State.delayChoose_frame
    | with_reducible apply State.set_frame
    | with_reducible apply frame_ite
    | (extract_lets +onlyGivenNames -underBinder x; first | (refine frame_cut (fp := fp) (orig := orig) (x := x) ?_ ?_ <;> first | (intro h0; generalize x = y at h0 ⊢; clear x) | intro h0 | subst x) | (have h0 := Nat.zero_le x; generalize x = y at h0 ⊢; clear h0 x) | subst x)
    | split
    | dsimp only
    | (with_reducible refine frame_mk ?_)

/-! ### Auth -/

theorem State.keyPut_frame {fp : List Part} {orig : State} {s : State} (k : Nat) (key : List Nat) (hs : Frame fp orig s)  (hdict : Part.dict ∈ fp := by assumption) (hprot : Part.prot ∈ fp := by assumption) :
    Frame fp orig (State.keyPut s k key) := by
  unfold State.keyPut
  repeat' first
    | intro _
    | with_reducible assumption
    | with_reducible apply State.set_frame
    | (extract_lets +onlyGivenNames -underBinder x; first | (refine frame_cut (fp := fp) (orig := orig) (x := x) ?_ ?_ <;> first | (intro h0; generalize x = y at h0 ⊢; clear x) | intro h0 | subst x) | (have h0 := Nat.zero_le x; generalize x = y at h0 ⊢; clear h0 x) | subst x)
    | dsimp only
    | (with_reducible refine frame_mk ?_)

theorem State.counterSee_frame {fp : List Part} {orig : State} {s : State} (sender : Nat) (k : Nat) (c : Nat) (hs : Frame fp orig s)  (hnet : Part.net ∈ fp := by assumption) :
    Frame fp orig (State.counterSee s sender k c) := by
  unfold State.counterSee
  repeat' first
    | intro _
    | with_reducible assumption
    | with_reducible apply frame_ite
    | (extract_lets +onlyGivenNames -underBinder x; first | (refine frame_cut (fp := fp) (orig := orig) (x := x) ?_ ?_ <;> first | (intro h0; generalize x = y at h0 ⊢; clear x) | intro h0 | subst x) | (have h0 := Nat.zero_le x; generalize x = y at h0 ⊢; clear h0 x) | subst x)
    | split
    | dsimp only
    | (with_reducible refine frame_mk ?_)

theorem State.windowsLost_frame {fp : List Part} {orig : State} {s : State}  (hs : Frame fp orig s)  (hnet : Part.net ∈ fp := by assumption) :
    Frame fp orig (State.windowsLost s) := by
  unfold State.windowsLost
  repeat' first
    | intro _
    | with_reducible assumption
    | dsimp only
    | (with_reducible refine frame_mk ?_)

theorem State.authFail_frame {fp : List Part} {orig : State} {s : State} (slot : Option Nat) (hs : Frame fp orig s)  (hdict : Part.dict ∈ fp := by assumption) :
    Frame fp orig (State.authFail s slot) := by
  unfold State.authFail
  repeat' first
    | intro _
    | with_reducible assumption
    | with_reducible apply State.flag_frame
    | with_reducible apply State.bump_frame
    | (extract_lets +onlyGivenNames -underBinder x; first | (refine frame_cut (fp := fp) (orig := orig) (x := x) ?_ ?_ <;> first | (intro h0; generalize x = y at h0 ⊢; clear x) | intro h0 | subst x) | (have h0 := Nat.zero_le x; generalize x = y at h0 ⊢; clear h0 x) | subst x)
    | split
    | dsimp only
    | (with_reducible refine frame_mk ?_)

theorem State.authSign_frame {fp : List Part} {orig : State} {s : State} (k : Nat) (msg : List Nat) (hs : Frame fp orig s)  (hdict : Part.dict ∈ fp := by assumption) :
    Frame fp orig (State.authSign s k msg).1 := by
  unfold State.authSign
  repeat' first
    | intro _
    | with_reducible assumption
    | with_reducible apply State.set_frame
    | with_reducible apply frame_ite_fst
    | (extract_lets +onlyGivenNames -underBinder x; first | (refine frame_cut (fp := fp) (orig := orig) (x := x) ?_ ?_ <;> first | (intro h0; generalize x = y at h0 ⊢; clear x) | intro h0 | subst x) | (have h0 := Nat.zero_le x; generalize x = y at h0 ⊢; clear h0 x) | subst x)
    | dsimp only
    | (with_reducible refine frame_mk ?_)

/-! ### Reader -/

theorem State.modReader_frame {fp : List Part} {orig : State} {s : State} (f : ReaderSt → ReaderSt) (hs : Frame fp orig s)  (hreader : Part.reader ∈ fp := by assumption) :
    Frame fp orig (State.modReader s f) := by
  unfold State.modReader
  repeat' first
    | intro _
    | with_reducible assumption
    | dsimp only
    | (with_reducible refine frame_mk ?_)

theorem State.readerJudge_frame {fp : List Part} {orig : State} {s : State}  (hs : Frame fp orig s)  (hdict : Part.dict ∈ fp := by assumption) :
    Frame fp orig (State.readerJudge s) := by
  unfold State.readerJudge
  repeat' first
    | intro _
    | with_reducible assumption
    | with_reducible apply State.set_frame
    | with_reducible apply frame_ite
    | split
    | dsimp only
    | (with_reducible refine frame_mk ?_)

theorem State.synthTo_frame {fp : List Part} {orig : State} {s : State} (t : Nat) (v : Nat) (hs : Frame fp orig s)  (hdict : Part.dict ∈ fp := by assumption) (hreader : Part.reader ∈ fp := by assumption) :
    Frame fp orig (State.synthTo s t v) := by
  unfold State.synthTo
  repeat' first
    | intro _
    | with_reducible assumption
    | with_reducible apply State.modReader_frame
    | with_reducible apply State.set_frame
    | dsimp only
    | (with_reducible refine frame_mk ?_)

theorem State.synthCal_frame {fp : List Part} {orig : State} {s : State} (t : Nat) (hs : Frame fp orig s)  (hdict : Part.dict ∈ fp := by assumption) (hreader : Part.reader ∈ fp := by assumption) :
    Frame fp orig (State.synthCal s t) := by
  unfold State.synthCal
  repeat' first
    | intro _
    | with_reducible assumption
    | with_reducible apply State.synthTo_frame
    | with_reducible apply State.modReader_frame
    | with_reducible apply State.setI_frame
    | (extract_lets +onlyGivenNames -underBinder x; first | (refine frame_cut (fp := fp) (orig := orig) (x := x) ?_ ?_ <;> first | (intro h0; generalize x = y at h0 ⊢; clear x) | intro h0 | subst x) | (have h0 := Nat.zero_le x; generalize x = y at h0 ⊢; clear h0 x) | subst x)
    | dsimp only
    | (with_reducible refine frame_mk ?_)

theorem State.synthPend_frame {fp : List Part} {orig : State} {s : State} (t : Nat) (hs : Frame fp orig s)  (hdict : Part.dict ∈ fp := by assumption) (hreader : Part.reader ∈ fp := by assumption) :
    Frame fp orig (State.synthPend s t) := by
  unfold State.synthPend
  repeat' first
    | intro _
    | with_reducible assumption
    | with_reducible apply State.synthCal_frame
    | with_reducible apply frame_ite
    | split
    | dsimp only
    | (with_reducible refine frame_mk ?_)

theorem State.synthTrigger_frame {fp : List Part} {orig : State} {s : State}  (hs : Frame fp orig s)  (hdict : Part.dict ∈ fp := by assumption) (hreader : Part.reader ∈ fp := by assumption) :
    Frame fp orig (State.synthTrigger s) := by
  unfold State.synthTrigger
  repeat' first
    | intro _
    | with_reducible assumption
    | with_reducible apply State.synthPend_frame
    | with_reducible apply State.modReader_frame
    | with_reducible apply State.flag_frame
    | with_reducible apply frame_ite
    | split
    | dsimp only
    | (with_reducible refine frame_mk ?_)

theorem State.synthStart_frame {fp : List Part} {orig : State} {s : State}  (hs : Frame fp orig s)  (hdict : Part.dict ∈ fp := by assumption) (hreader : Part.reader ∈ fp := by assumption) :
    Frame fp orig (State.synthStart s) := by
  unfold State.synthStart
  repeat' first
    | intro _
    | with_reducible assumption
    | with_reducible apply State.synthTo_frame
    | with_reducible apply State.modReader_frame
    | with_reducible apply frame_ite
    | (extract_lets +onlyGivenNames -underBinder x; first | (refine frame_cut (fp := fp) (orig := orig) (x := x) ?_ ?_ <;> first | (intro h0; generalize x = y at h0 ⊢; clear x) | intro h0 | subst x) | (have h0 := Nat.zero_le x; generalize x = y at h0 ⊢; clear h0 x) | subst x)
    | split
    | dsimp only
    | (with_reducible refine frame_mk ?_)

theorem State.synthRefChange_frame {fp : List Part} {orig : State} {s : State}  (hs : Frame fp orig s)  (hdict : Part.dict ∈ fp := by assumption) (hreader : Part.reader ∈ fp := by assumption) :
    Frame fp orig (State.synthRefChange s) := by
  unfold State.synthRefChange
  repeat' first
    | intro _
    | with_reducible assumption
    | with_reducible apply State.synthTo_frame
    | with_reducible apply frame_ite
    | split
    | dsimp only
    | (with_reducible refine frame_mk ?_)

theorem State.frameAt_frame {fp : List Part} {orig : State} {s : State} (c : RdrCmd) (start : Nat) (hs : Frame fp orig s)  (hreader : Part.reader ∈ fp := by assumption) :
    Frame fp orig (State.frameAt s c start) := by
  unfold State.frameAt
  repeat' first
    | intro _
    | with_reducible assumption
    | with_reducible apply State.modReader_frame
    | dsimp only
    | (with_reducible refine frame_mk ?_)

theorem State.nextFrame_frame {fp : List Part} {orig : State} {s : State} (c : RdrCmd) (tries : Nat) (inv : InvSt) (hs : Frame fp orig s)  (hreader : Part.reader ∈ fp := by assumption) :
    Frame fp orig (State.nextFrame s c tries inv) := by
  unfold State.nextFrame
  repeat' first
    | intro _
    | with_reducible assumption
    | with_reducible apply State.frameAt_frame
    | dsimp only
    | (with_reducible refine frame_mk ?_)

theorem State.fieldOffAt_frame {fp : List Part} {orig : State} {s : State} (t : Nat) (hs : Frame fp orig s)  (hdict : Part.dict ∈ fp := by assumption) (hreader : Part.reader ∈ fp := by assumption) :
    Frame fp orig (State.fieldOffAt s t) := by
  unfold State.fieldOffAt
  repeat' first
    | intro _
    | with_reducible assumption
    | with_reducible apply State.synthPend_frame
    | with_reducible apply State.synthTo_frame
    | with_reducible apply State.modReader_frame
    | with_reducible apply State.setB_frame
    | with_reducible apply frame_ite
    | (extract_lets +onlyGivenNames -underBinder x; first | (refine frame_cut (fp := fp) (orig := orig) (x := x) ?_ ?_ <;> first | (intro h0; generalize x = y at h0 ⊢; clear x) | intro h0 | subst x) | (have h0 := Nat.zero_le x; generalize x = y at h0 ⊢; clear h0 x) | subst x)
    | split
    | dsimp only
    | (with_reducible refine frame_mk ?_)

theorem State.fieldOff_frame {fp : List Part} {orig : State} {s : State}  (hs : Frame fp orig s)  (hdict : Part.dict ∈ fp := by assumption) (hreader : Part.reader ∈ fp := by assumption) :
    Frame fp orig (State.fieldOff s) := by
  unfold State.fieldOff
  repeat' first
    | intro _
    | with_reducible assumption
    | with_reducible apply State.fieldOffAt_frame
    | dsimp only
    | (with_reducible refine frame_mk ?_)

theorem State.spansTrim_frame {fp : List Part} {orig : State} {s : State}  (hs : Frame fp orig s)  (hreader : Part.reader ∈ fp := by assumption) :
    Frame fp orig (State.spansTrim s) := by
  unfold State.spansTrim
  repeat' first
    | intro _
    | with_reducible assumption
    | with_reducible apply State.modReader_frame
    | dsimp only
    | (with_reducible refine frame_mk ?_)

theorem State.cmdEnd_frame {fp : List Part} {orig : State} {s : State} (outcome : Nat) (status : Nat) (r : RxReport) (hs : Frame fp orig s)  (hdict : Part.dict ∈ fp := by assumption) (hstreams : Part.streams ∈ fp := by assumption) (hreader : Part.reader ∈ fp := by assumption) :
    Frame fp orig (State.cmdEnd s outcome status r) := by
  unfold State.cmdEnd
  repeat' first
    | intro _
    | with_reducible assumption
    | with_reducible apply State.fieldOff_frame
    | with_reducible apply State.readerJudge_frame
    | with_reducible apply State.modReader_frame
    | with_reducible apply State.append_frame
    | with_reducible apply State.set_frame
    | with_reducible apply frame_ite
    | (extract_lets +onlyGivenNames -underBinder x; first | (refine frame_cut (fp := fp) (orig := orig) (x := x) ?_ ?_ <;> first | (intro h0; generalize x = y at h0 ⊢; clear x) | intro h0 | subst x) | (have h0 := Nat.zero_le x; generalize x = y at h0 ⊢; clear h0 x) | subst x)
    | split
    | dsimp only
    | (with_reducible refine frame_mk ?_)

theorem State.cmdOutcome_frame {fp : List Part} {orig : State} {s : State} (outcome : Nat) (r : RxReport) (hs : Frame fp orig s)  (hdict : Part.dict ∈ fp := by assumption) (hstreams : Part.streams ∈ fp := by assumption) (hreader : Part.reader ∈ fp := by assumption) :
    Frame fp orig (State.cmdOutcome s outcome r) := by
  unfold State.cmdOutcome
  repeat' first
    | intro _
    | with_reducible assumption
    | with_reducible apply State.cmdEnd_frame
    | dsimp only
    | (with_reducible refine frame_mk ?_)

theorem State.fieldUp_frame {fp : List Part} {orig : State} {s : State} (t : Nat) (since : Nat) (hs : Frame fp orig s)  (hdict : Part.dict ∈ fp := by assumption) (hstreams : Part.streams ∈ fp := by assumption) (hreader : Part.reader ∈ fp := by assumption) :
    Frame fp orig (State.fieldUp s t since) := by
  unfold State.fieldUp
  repeat' first
    | intro _
    | with_reducible assumption
    | with_reducible apply State.cmdOutcome_frame
    | with_reducible apply State.frameAt_frame
    | with_reducible apply State.modReader_frame
    | with_reducible apply State.setB_frame
    | with_reducible apply State.set_frame
    | with_reducible apply frame_ite
    | (extract_lets +onlyGivenNames -underBinder x; first | (refine frame_cut (fp := fp) (orig := orig) (x := x) ?_ ?_ <;> first | (intro h0; generalize x = y at h0 ⊢; clear x) | intro h0 | subst x) | (have h0 := Nat.zero_le x; generalize x = y at h0 ⊢; clear h0 x) | subst x)
    | split
    | dsimp only
    | (with_reducible refine frame_mk ?_)

theorem State.fieldCut_frame {fp : List Part} {orig : State} {s : State} (t : Nat) (hs : Frame fp orig s)  (hdict : Part.dict ∈ fp := by assumption) (hstreams : Part.streams ∈ fp := by assumption) (hreader : Part.reader ∈ fp := by assumption) :
    Frame fp orig (State.fieldCut s t) := by
  unfold State.fieldCut
  repeat' first
    | intro _
    | with_reducible assumption
    | with_reducible apply State.cmdOutcome_frame
    | with_reducible apply State.fieldOffAt_frame
    | with_reducible apply State.readerJudge_frame
    | with_reducible apply frame_ite
    | (extract_lets +onlyGivenNames -underBinder x; first | (refine frame_cut (fp := fp) (orig := orig) (x := x) ?_ ?_ <;> first | (intro h0; generalize x = y at h0 ⊢; clear x) | intro h0 | subst x) | (have h0 := Nat.zero_le x; generalize x = y at h0 ⊢; clear h0 x) | subst x)
    | split
    | dsimp only
    | (with_reducible refine frame_mk ?_)

theorem State.timeoutCut_frame {fp : List Part} {orig : State} {s : State} (hard : Bool) (t : Nat) (hs : Frame fp orig s)  (hdict : Part.dict ∈ fp := by assumption) (hstreams : Part.streams ∈ fp := by assumption) (hsilt : Part.silt ∈ fp := by assumption) (hreader : Part.reader ∈ fp := by assumption) :
    Frame fp orig (State.timeoutCut s hard t) := by
  unfold State.timeoutCut
  repeat' first
    | intro _
    | with_reducible assumption
    | with_reducible apply State.fieldCut_frame
    | with_reducible apply State.flag_frame
    | with_reducible apply State.log_frame
    | (extract_lets +onlyGivenNames -underBinder x; first | (refine frame_cut (fp := fp) (orig := orig) (x := x) ?_ ?_ <;> first | (intro h0; generalize x = y at h0 ⊢; clear x) | intro h0 | subst x) | (have h0 := Nat.zero_le x; generalize x = y at h0 ⊢; clear h0 x) | subst x)
    | dsimp only
    | (with_reducible refine frame_mk ?_)

theorem State.dutyCut_frame {fp : List Part} {orig : State} {s : State} (t : Nat) (hs : Frame fp orig s)  (hdict : Part.dict ∈ fp := by assumption) (hstreams : Part.streams ∈ fp := by assumption) (hreader : Part.reader ∈ fp := by assumption) :
    Frame fp orig (State.dutyCut s t) := by
  unfold State.dutyCut
  repeat' first
    | intro _
    | with_reducible assumption
    | with_reducible apply State.fieldCut_frame
    | with_reducible apply State.flag_frame
    | dsimp only
    | (with_reducible refine frame_mk ?_)

theorem State.fieldOverdue_frame {fp : List Part} {orig : State} {s : State}  (hs : Frame fp orig s)  (hdict : Part.dict ∈ fp := by assumption) (hstreams : Part.streams ∈ fp := by assumption) (hsilt : Part.silt ∈ fp := by assumption) (hreader : Part.reader ∈ fp := by assumption) :
    Frame fp orig (State.fieldOverdue s) := by
  unfold State.fieldOverdue
  repeat' first
    | intro _
    | with_reducible assumption
    | with_reducible apply State.dutyCut_frame
    | with_reducible apply State.timeoutCut_frame
    | with_reducible apply frame_ite
    | (extract_lets +onlyGivenNames -underBinder x; first | (refine frame_cut (fp := fp) (orig := orig) (x := x) ?_ ?_ <;> first | (intro h0; generalize x = y at h0 ⊢; clear x) | intro h0 | subst x) | (have h0 := Nat.zero_le x; generalize x = y at h0 ⊢; clear h0 x) | subst x)
    | split
    | dsimp only
    | (with_reducible refine frame_mk ?_)

theorem State.synthBusy_frame {fp : List Part} {orig : State} {s : State}  (hs : Frame fp orig s)  (hdict : Part.dict ∈ fp := by assumption) (hstreams : Part.streams ∈ fp := by assumption) (hreader : Part.reader ∈ fp := by assumption) :
    Frame fp orig (State.synthBusy s) := by
  unfold State.synthBusy
  repeat' first
    | intro _
    | with_reducible assumption
    | with_reducible apply State.cmdOutcome_frame
    | with_reducible apply State.flag_frame
    | with_reducible apply frame_ite
    | split
    | dsimp only
    | (with_reducible refine frame_mk ?_)

theorem State.readerSettle_frame {fp : List Part} {orig : State} {s : State}  (hs : Frame fp orig s)  (hdict : Part.dict ∈ fp := by assumption) (hstreams : Part.streams ∈ fp := by assumption) (hsilt : Part.silt ∈ fp := by assumption) (hreader : Part.reader ∈ fp := by assumption) :
    Frame fp orig (State.readerSettle s) := by
  unfold State.readerSettle
  repeat' first
    | intro _
    | with_reducible assumption
    | with_reducible apply State.fieldOverdue_frame
    | with_reducible apply State.fieldUp_frame
    | with_reducible apply State.cmdOutcome_frame
    | with_reducible apply State.flag_frame
    | with_reducible apply frame_ite
    | (extract_lets +onlyGivenNames -underBinder x; first | (refine frame_cut (fp := fp) (orig := orig) (x := x) ?_ ?_ <;> first | (intro h0; generalize x = y at h0 ⊢; clear x) | intro h0 | subst x) | (have h0 := Nat.zero_le x; generalize x = y at h0 ⊢; clear h0 x) | subst x)
    | split
    | dsimp only
    | (with_reducible refine frame_mk ?_)

theorem State.fieldAsk_frame {fp : List Part} {orig : State} {s : State} (p : Nat) (hs : Frame fp orig s)  (hdict : Part.dict ∈ fp := by assumption) (hstreams : Part.streams ∈ fp := by assumption) (hsilt : Part.silt ∈ fp := by assumption) (hreader : Part.reader ∈ fp := by assumption) :
    Frame fp orig (State.fieldAsk s p) := by
  unfold State.fieldAsk
  repeat' first
    | intro _
    | with_reducible assumption
    | with_reducible apply State.readerSettle_frame
    | with_reducible apply State.fieldUp_frame
    | with_reducible apply State.cmdOutcome_frame
    | with_reducible apply State.fieldOff_frame
    | with_reducible apply State.modReader_frame
    | with_reducible apply State.flag_frame
    | with_reducible apply frame_ite
    | (extract_lets +onlyGivenNames -underBinder x; first | (refine frame_cut (fp := fp) (orig := orig) (x := x) ?_ ?_ <;> first | (intro h0; generalize x = y at h0 ⊢; clear x) | intro h0 | subst x) | (have h0 := Nat.zero_le x; generalize x = y at h0 ⊢; clear h0 x) | subst x)
    | split
    | dsimp only
    | (with_reducible refine frame_mk ?_)

theorem State.fieldTimeout_frame {fp : List Part} {orig : State} {s : State} (hard : Bool) (hs : Frame fp orig s)  (hdict : Part.dict ∈ fp := by assumption) (hstreams : Part.streams ∈ fp := by assumption) (hsilt : Part.silt ∈ fp := by assumption) (hreader : Part.reader ∈ fp := by assumption) :
    Frame fp orig (State.fieldTimeout s hard) := by
  unfold State.fieldTimeout
  repeat' first
    | intro _
    | with_reducible assumption
    | with_reducible apply State.readerSettle_frame
    | with_reducible apply State.timeoutCut_frame
    | with_reducible apply frame_ite
    | (extract_lets +onlyGivenNames -underBinder x; first | (refine frame_cut (fp := fp) (orig := orig) (x := x) ?_ ?_ <;> first | (intro h0; generalize x = y at h0 ⊢; clear x) | intro h0 | subst x) | (have h0 := Nat.zero_le x; generalize x = y at h0 ⊢; clear h0 x) | subst x)
    | split
    | dsimp only
    | (with_reducible refine frame_mk ?_)

theorem State.dutyLimit_frame {fp : List Part} {orig : State} {s : State}  (hs : Frame fp orig s)  (hdict : Part.dict ∈ fp := by assumption) (hstreams : Part.streams ∈ fp := by assumption) (hsilt : Part.silt ∈ fp := by assumption) (hreader : Part.reader ∈ fp := by assumption) :
    Frame fp orig (State.dutyLimit s) := by
  unfold State.dutyLimit
  repeat' first
    | intro _
    | with_reducible assumption
    | with_reducible apply State.readerSettle_frame
    | with_reducible apply State.dutyCut_frame
    | with_reducible apply frame_ite
    | (extract_lets +onlyGivenNames -underBinder x; first | (refine frame_cut (fp := fp) (orig := orig) (x := x) ?_ ?_ <;> first | (intro h0; generalize x = y at h0 ⊢; clear x) | intro h0 | subst x) | (have h0 := Nat.zero_le x; generalize x = y at h0 ⊢; clear h0 x) | subst x)
    | split
    | dsimp only
    | (with_reducible refine frame_mk ?_)

theorem State.readerSupply_frame {fp : List Part} {orig : State} {s : State}  (hs : Frame fp orig s)  (hdict : Part.dict ∈ fp := by assumption) (hstreams : Part.streams ∈ fp := by assumption) (hsilt : Part.silt ∈ fp := by assumption) (hreader : Part.reader ∈ fp := by assumption) :
    Frame fp orig (State.readerSupply s) := by
  unfold State.readerSupply
  repeat' first
    | intro _
    | with_reducible assumption
    | with_reducible apply State.readerSettle_frame
    | with_reducible apply State.fieldCut_frame
    | (extract_lets +onlyGivenNames -underBinder x; first | (refine frame_cut (fp := fp) (orig := orig) (x := x) ?_ ?_ <;> first | (intro h0; generalize x = y at h0 ⊢; clear x) | intro h0 | subst x) | (have h0 := Nat.zero_le x; generalize x = y at h0 ⊢; clear h0 x) | subst x)
    | dsimp only
    | (with_reducible refine frame_mk ?_)

theorem State.synthLock_frame {fp : List Part} {orig : State} {s : State}  (hs : Frame fp orig s)  (hdict : Part.dict ∈ fp := by assumption) (hstreams : Part.streams ∈ fp := by assumption) (hsilt : Part.silt ∈ fp := by assumption) (hreader : Part.reader ∈ fp := by assumption) :
    Frame fp orig (State.synthLock s) := by
  unfold State.synthLock
  repeat' first
    | intro _
    | with_reducible assumption
    | with_reducible apply State.readerSettle_frame
    | with_reducible apply State.synthPend_frame
    | with_reducible apply State.synthTo_frame
    | with_reducible apply State.readerJudge_frame
    | with_reducible apply State.modReader_frame
    | with_reducible apply frame_ite
    | (extract_lets +onlyGivenNames -underBinder x; first | (refine frame_cut (fp := fp) (orig := orig) (x := x) ?_ ?_ <;> first | (intro h0; generalize x = y at h0 ⊢; clear x) | intro h0 | subst x) | (have h0 := Nat.zero_le x; generalize x = y at h0 ⊢; clear h0 x) | subst x)
    | split
    | dsimp only
    | (with_reducible refine frame_mk ?_)

theorem State.synthTimeout_frame {fp : List Part} {orig : State} {s : State}  (hs : Frame fp orig s)  (hdict : Part.dict ∈ fp := by assumption) (hstreams : Part.streams ∈ fp := by assumption) (hsilt : Part.silt ∈ fp := by assumption) (hreader : Part.reader ∈ fp := by assumption) :
    Frame fp orig (State.synthTimeout s) := by
  unfold State.synthTimeout
  repeat' first
    | intro _
    | with_reducible assumption
    | with_reducible apply State.cmdOutcome_frame
    | with_reducible apply State.synthCal_frame
    | with_reducible apply State.synthTo_frame
    | with_reducible apply State.modReader_frame
    | with_reducible apply State.flag_frame
    | with_reducible apply State.log_frame
    | with_reducible apply frame_ite
    | (extract_lets +onlyGivenNames -underBinder x; first | (refine frame_cut (fp := fp) (orig := orig) (x := x) ?_ ?_ <;> first | (intro h0; generalize x = y at h0 ⊢; clear x) | intro h0 | subst x) | (have h0 := Nat.zero_le x; generalize x = y at h0 ⊢; clear h0 x) | subst x)
    | split
    | dsimp only
    | (with_reducible refine frame_mk ?_)

theorem State.synthCalDone_frame {fp : List Part} {orig : State} {s : State}  (hs : Frame fp orig s)  (hdict : Part.dict ∈ fp := by assumption) (hreader : Part.reader ∈ fp := by assumption) :
    Frame fp orig (State.synthCalDone s) := by
  unfold State.synthCalDone
  repeat' first
    | intro _
    | with_reducible assumption
    | with_reducible apply State.synthTo_frame
    | with_reducible apply frame_ite
    | (extract_lets +onlyGivenNames -underBinder x; first | (refine frame_cut (fp := fp) (orig := orig) (x := x) ?_ ?_ <;> first | (intro h0; generalize x = y at h0 ⊢; clear x) | intro h0 | subst x) | (have h0 := Nat.zero_le x; generalize x = y at h0 ⊢; clear h0 x) | subst x)
    | split
    | dsimp only
    | (with_reducible refine frame_mk ?_)

theorem State.readerCommand_frame {fp : List Part} {orig : State} {s : State} (b : List Nat) (hs : Frame fp orig s)  (hdict : Part.dict ∈ fp := by assumption) (hstreams : Part.streams ∈ fp := by assumption) (hsilt : Part.silt ∈ fp := by assumption) (hreader : Part.reader ∈ fp := by assumption) :
    Frame fp orig (State.readerCommand s b) := by
  unfold State.readerCommand
  repeat' first
    | intro _
    | with_reducible assumption
    | with_reducible apply State.fieldAsk_frame
    | with_reducible apply State.cmdOutcome_frame
    | with_reducible apply State.fieldOff_frame
    | with_reducible apply State.readerJudge_frame
    | with_reducible apply State.modReader_frame
    | with_reducible apply State.set_frame
    | with_reducible apply frame_ite
    | (extract_lets +onlyGivenNames -underBinder x; first | (refine frame_cut (fp := fp) (orig := orig) (x := x) ?_ ?_ <;> first | (intro h0; generalize x = y at h0 ⊢; clear x) | intro h0 | subst x) | (have h0 := Nat.zero_le x; generalize x = y at h0 ⊢; clear h0 x) | subst x)
    | split
    | dsimp only
    | (with_reducible refine frame_mk ?_)

theorem State.protoNarrowed_frame {fp : List Part} {orig : State} {s : State}  (hs : Frame fp orig s)  (hdict : Part.dict ∈ fp := by assumption) (hstreams : Part.streams ∈ fp := by assumption) (hreader : Part.reader ∈ fp := by assumption) :
    Frame fp orig (State.protoNarrowed s) := by
  unfold State.protoNarrowed
  repeat' first
    | intro _
    | with_reducible assumption
    | with_reducible apply State.cmdEnd_frame
    | with_reducible apply State.fieldOff_frame
    | with_reducible apply State.readerJudge_frame
    | with_reducible apply State.modReader_frame
    | with_reducible apply frame_ite
    | split
    | dsimp only
    | (with_reducible refine frame_mk ?_)

theorem State.agcFreeze_frame {fp : List Part} {orig : State} {s : State} (amp : Nat) (hs : Frame fp orig s)  (hreader : Part.reader ∈ fp := by assumption) :
    Frame fp orig (State.agcFreeze s amp) := by
  unfold State.agcFreeze
  repeat' first
    | intro _
    | with_reducible assumption
    | with_reducible apply State.modReader_frame
    | dsimp only
    | (with_reducible refine frame_mk ?_)

theorem State.agcHeld_frame {fp : List Part} {orig : State} {s : State} (amp : Nat) (hs : Frame fp orig s)  (hreader : Part.reader ∈ fp := by assumption) :
    Frame fp orig (State.agcHeld s amp) := by
  unfold State.agcHeld
  repeat' first
    | intro _
    | with_reducible assumption
    | with_reducible apply State.agcFreeze_frame
    | with_reducible apply frame_ite
    | split
    | dsimp only
    | (with_reducible refine frame_mk ?_)

theorem State.agcFree_frame {fp : List Part} {orig : State} {s : State}  (hs : Frame fp orig s)  (hreader : Part.reader ∈ fp := by assumption) :
    Frame fp orig (State.agcFree s) := by
  unfold State.agcFree
  repeat' first
    | intro _
    | with_reducible assumption
    | with_reducible apply State.modReader_frame
    | dsimp only
    | (with_reducible refine frame_mk ?_)

theorem State.maskMeasure_frame {fp : List Part} {orig : State} {s : State} (bins : List (Nat × Int)) (hs : Frame fp orig s)  (hdict : Part.dict ∈ fp := by assumption) :
    Frame fp orig (State.maskMeasure s bins) := by
  unfold State.maskMeasure
  repeat' first
    | intro _
    | with_reducible assumption
    | with_reducible apply State.setI_frame
    | with_reducible apply State.flag_frame
    | with_reducible apply frame_foldl
    | with_reducible apply frame_foldl_fst
    | with_reducible apply frame_ite
    | (extract_lets +onlyGivenNames -underBinder x; first | (refine frame_cut (fp := fp) (orig := orig) (x := x) ?_ ?_ <;> first | (intro h0; generalize x = y at h0 ⊢; clear x) | intro h0 | subst x) | (have h0 := Nat.zero_le x; generalize x = y at h0 ⊢; clear h0 x) | subst x)
    | split
    | dsimp only
    | (with_reducible refine frame_mk ?_)

theorem State.frameStops_frame {fp : List Part} {orig : State} {s : State} (c : RdrCmd) (bins : List (Nat × Int)) (r : RxReport) (go : State → State) (hs : Frame fp orig s) (hf : ∀ t, Frame fp orig t → Frame fp orig (go t)) (hdict : Part.dict ∈ fp := by assumption) (hstreams : Part.streams ∈ fp := by assumption) (hreader : Part.reader ∈ fp := by assumption) :
    Frame fp orig (State.frameStops s c bins r go) := by
  unfold State.frameStops
  repeat' first
    | intro _
    | with_reducible assumption
    | with_reducible apply State.maskMeasure_frame
    | with_reducible apply State.agcFree_frame
    | with_reducible apply State.fieldCut_frame
    | with_reducible apply State.cmdEnd_frame
    | with_reducible apply State.fieldOff_frame
    | with_reducible apply State.readerJudge_frame
    | with_reducible apply hf
    | with_reducible apply frame_ite
    | (extract_lets +onlyGivenNames -underBinder x; first | (refine frame_cut (fp := fp) (orig := orig) (x := x) ?_ ?_ <;> first | (intro h0; generalize x = y at h0 ⊢; clear x) | intro h0 | subst x) | (have h0 := Nat.zero_le x; generalize x = y at h0 ⊢; clear h0 x) | subst x)
    | split
    | dsimp only
    | (with_reducible refine frame_mk ?_)

theorem State.tagFound_frame {fp : List Part} {orig : State} {s : State} (c : RdrCmd) (i : InvSt) (uid : List Nat) (info : Nat) (f : RxFrame) (hs : Frame fp orig s)  (hdict : Part.dict ∈ fp := by assumption) (hstreams : Part.streams ∈ fp := by assumption) :
    Frame fp orig (State.tagFound s c i uid info f).1 := by
  unfold State.tagFound
  repeat' first
    | intro _
    | with_reducible assumption
    | with_reducible apply State.append_frame
    | with_reducible apply frame_ite
    | with_reducible apply frame_ite_fst
    | (extract_lets +onlyGivenNames -underBinder x; first | (refine frame_cut (fp := fp) (orig := orig) (x := x) ?_ ?_ <;> first | (intro h0; generalize x = y at h0 ⊢; clear x) | intro h0 | subst x) | (have h0 := Nat.zero_le x; generalize x = y at h0 ⊢; clear h0 x) | subst x)
    | split
    | dsimp only
    | (with_reducible refine frame_mk ?_)

theorem State.invEnd_frame {fp : List Part} {orig : State} {s : State} (i : InvSt) (full : Bool) (hs : Frame fp orig s)  (hdict : Part.dict ∈ fp := by assumption) (hstreams : Part.streams ∈ fp := by assumption) (hreader : Part.reader ∈ fp := by assumption) :
    Frame fp orig (State.invEnd s i full) := by
  unfold State.invEnd
  repeat' first
    | intro _
    | with_reducible assumption
    | with_reducible apply State.cmdOutcome_frame
    | with_reducible apply State.modReader_frame
    | with_reducible apply State.flag_frame
    | with_reducible apply frame_ite
    | (extract_lets +onlyGivenNames -underBinder x; first | (refine frame_cut (fp := fp) (orig := orig) (x := x) ?_ ?_ <;> first | (intro h0; generalize x = y at h0 ⊢; clear x) | intro h0 | subst x) | (have h0 := Nat.zero_le x; generalize x = y at h0 ⊢; clear h0 x) | subst x)
    | split
    | dsimp only
    | (with_reducible refine frame_mk ?_)

theorem State.invGo_frame {fp : List Part} {orig : State} {s : State} (c : RdrCmd) (i : InvSt) (hs : Frame fp orig s)  (hreader : Part.reader ∈ fp := by assumption) :
    Frame fp orig (State.invGo s c i) := by
  unfold State.invGo
  repeat' first
    | intro _
    | with_reducible assumption
    | with_reducible apply State.nextFrame_frame
    | dsimp only
    | (with_reducible refine frame_mk ?_)

theorem State.invNextSlot_frame {fp : List Part} {orig : State} {s : State} (c : RdrCmd) (i : InvSt) (hs : Frame fp orig s)  (hdict : Part.dict ∈ fp := by assumption) (hstreams : Part.streams ∈ fp := by assumption) (hreader : Part.reader ∈ fp := by assumption) :
    Frame fp orig (State.invNextSlot s c i) := by
  unfold State.invNextSlot
  repeat' first
    | intro _
    | with_reducible assumption
    | with_reducible apply State.invGo_frame
    | with_reducible apply State.invEnd_frame
    | with_reducible apply frame_ite
    | (extract_lets +onlyGivenNames -underBinder x; first | (refine frame_cut (fp := fp) (orig := orig) (x := x) ?_ ?_ <;> first | (intro h0; generalize x = y at h0 ⊢; clear x) | intro h0 | subst x) | (have h0 := Nat.zero_le x; generalize x = y at h0 ⊢; clear h0 x) | subst x)
    | split
    | dsimp only
    | (with_reducible refine frame_mk ?_)

theorem State.invSlotted_frame {fp : List Part} {orig : State} {s : State} (c : RdrCmd) (f : Option RxFrame) (collision : Bool) (hs : Frame fp orig s)  (hdict : Part.dict ∈ fp := by assumption) (hstreams : Part.streams ∈ fp := by assumption) (hreader : Part.reader ∈ fp := by assumption) :
    Frame fp orig (State.invSlotted s c f collision) := by
  unfold State.invSlotted
  repeat' first
    | intro _
    | with_reducible assumption
    | with_reducible apply State.invNextSlot_frame
    | with_reducible apply State.invGo_frame
    | with_reducible apply State.invEnd_frame
    | with_reducible apply State.tagFound_frame
    | with_reducible apply State.frameAt_frame
    | with_reducible apply frame_ite
    | (extract_lets +onlyGivenNames -underBinder x; first | (refine frame_cut (fp := fp) (orig := orig) (x := x) ?_ ?_ <;> first | (intro h0; generalize x = y at h0 ⊢; clear x) | intro h0 | subst x) | (have h0 := Nat.zero_le x; generalize x = y at h0 ⊢; clear h0 x) | subst x)
    | (with_reducible refine frame_fst (by with_reducible assumption) ?_)
    | (with_reducible refine frame_snd (by with_reducible assumption) ?_)
    | split
    | dsimp only
    | (with_reducible refine frame_mk ?_)

theorem State.invTypeA_frame {fp : List Part} {orig : State} {s : State} (c : RdrCmd) (f : Option RxFrame) (hs : Frame fp orig s)  (hdict : Part.dict ∈ fp := by assumption) (hstreams : Part.streams ∈ fp := by assumption) (hreader : Part.reader ∈ fp := by assumption) :
    Frame fp orig (State.invTypeA s c f) := by
  unfold State.invTypeA
  repeat' first
    | intro _
    | with_reducible assumption
    | with_reducible apply State.invGo_frame
    | with_reducible apply State.invEnd_frame
    | with_reducible apply State.tagFound_frame
    | with_reducible apply State.nextFrame_frame
    | with_reducible apply frame_foldl
    | with_reducible apply frame_foldl_fst
    | with_reducible apply frame_ite
    | (extract_lets +onlyGivenNames -underBinder x; first | (refine frame_cut (fp := fp) (orig := orig) (x := x) ?_ ?_ <;> first | (intro h0; generalize x = y at h0 ⊢; clear x) | intro h0 | subst x) | (have h0 := Nat.zero_le x; generalize x = y at h0 ⊢; clear h0 x) | subst x)
    | (with_reducible refine frame_fst (by with_reducible assumption) ?_)
    | (with_reducible refine frame_snd (by with_reducible assumption) ?_)
    | split
    | dsimp only
    | (with_reducible refine frame_mk ?_)

theorem State.invStep_frame {fp : List Part} {orig : State} {s : State} (c : RdrCmd) (f : Option RxFrame) (collision : Bool) (hs : Frame fp orig s)  (hdict : Part.dict ∈ fp := by assumption) (hstreams : Part.streams ∈ fp := by assumption) (hreader : Part.reader ∈ fp := by assumption) :
    Frame fp orig (State.invStep s c f collision) := by
  unfold State.invStep
  repeat' first
    | intro _
    | with_reducible assumption
    | with_reducible apply State.invTypeA_frame
    | with_reducible apply State.invSlotted_frame
    | with_reducible apply frame_ite
    | split
    | dsimp only
    | (with_reducible refine frame_mk ?_)

theorem State.attemptFailed_frame {fp : List Part} {orig : State} {s : State} (c : RdrCmd) (outcome : Nat) (r : RxReport) (hs : Frame fp orig s)  (hdict : Part.dict ∈ fp := by assumption) (hstreams : Part.streams ∈ fp := by assumption) (hreader : Part.reader ∈ fp := by assumption) :
    Frame fp orig (State.attemptFailed s c outcome r) := by
  unfold State.attemptFailed
  repeat' first
    | intro _
    | with_reducible assumption
    | with_reducible apply State.cmdOutcome_frame
    | with_reducible apply State.nextFrame_frame
    | with_reducible apply frame_ite
    | split
    | dsimp only
    | (with_reducible refine frame_mk ?_)

theorem State.frameReceived_frame {fp : List Part} {orig : State} {s : State} (f : RxFrame) (bins : List (Nat × Int)) (hs : Frame fp orig s)  (hdict : Part.dict ∈ fp := by assumption) (hstreams : Part.streams ∈ fp := by assumption) (hsilt : Part.silt ∈ fp := by assumption) (hreader : Part.reader ∈ fp := by assumption) :
    Frame fp orig (State.frameReceived s f bins) := by
  unfold State.frameReceived
  repeat' first
    | intro _
    | with_reducible assumption
    | with_reducible apply State.attemptFailed_frame
    | with_reducible apply State.invStep_frame
    | with_reducible apply State.frameStops_frame
    | with_reducible apply State.agcHeld_frame
    | with_reducible apply State.readerSettle_frame
    | with_reducible apply State.cmdOutcome_frame
    | with_reducible apply frame_ite
    | (extract_lets +onlyGivenNames -underBinder x; first | (refine frame_cut (fp := fp) (orig := orig) (x := x) ?_ ?_ <;> first | (intro h0; generalize x = y at h0 ⊢; clear x) | intro h0 | subst x) | (have h0 := Nat.zero_le x; generalize x = y at h0 ⊢; clear h0 x) | subst x)
    | split
    | dsimp only
    | (with_reducible refine frame_mk ?_)

theorem State.responseTimeout_frame {fp : List Part} {orig : State} {s : State} (bins : List (Nat × Int)) (hs : Frame fp orig s)  (hdict : Part.dict ∈ fp := by assumption) (hstreams : Part.streams ∈ fp := by assumption) (hsilt : Part.silt ∈ fp := by assumption) (hreader : Part.reader ∈ fp := by assumption) :
    Frame fp orig (State.responseTimeout s bins) := by
  unfold State.responseTimeout
  repeat' first
    | intro _
    | with_reducible assumption
    | with_reducible apply State.attemptFailed_frame
    | with_reducible apply State.invStep_frame
    | with_reducible apply State.frameStops_frame
    | with_reducible apply State.readerSettle_frame
    | with_reducible apply frame_ite
    | (extract_lets +onlyGivenNames -underBinder x; first | (refine frame_cut (fp := fp) (orig := orig) (x := x) ?_ ?_ <;> first | (intro h0; generalize x = y at h0 ⊢; clear x) | intro h0 | subst x) | (have h0 := Nat.zero_le x; generalize x = y at h0 ⊢; clear h0 x) | subst x)
    | split
    | dsimp only
    | (with_reducible refine frame_mk ?_)

theorem State.secondSof_frame {fp : List Part} {orig : State} {s : State} (f : RxFrame) (amp : Nat) (bins : List (Nat × Int)) (hs : Frame fp orig s)  (hdict : Part.dict ∈ fp := by assumption) (hstreams : Part.streams ∈ fp := by assumption) (hsilt : Part.silt ∈ fp := by assumption) (hreader : Part.reader ∈ fp := by assumption) :
    Frame fp orig (State.secondSof s f amp bins) := by
  unfold State.secondSof
  repeat' first
    | intro _
    | with_reducible assumption
    | with_reducible apply State.invStep_frame
    | with_reducible apply State.frameStops_frame
    | with_reducible apply State.agcHeld_frame
    | with_reducible apply State.agcFreeze_frame
    | with_reducible apply State.readerSettle_frame
    | with_reducible apply State.cmdOutcome_frame
    | with_reducible apply State.append_frame
    | with_reducible apply State.flag_frame
    | with_reducible apply frame_ite
    | (extract_lets +onlyGivenNames -underBinder x; first | (refine frame_cut (fp := fp) (orig := orig) (x := x) ?_ ?_ <;> first | (intro h0; generalize x = y at h0 ⊢; clear x) | intro h0 | subst x) | (have h0 := Nat.zero_le x; generalize x = y at h0 ⊢; clear h0 x) | subst x)
    | split
    | dsimp only
    | (with_reducible refine frame_mk ?_)

theorem State.burstJudge_frame {fp : List Part} {orig : State} {s : State} (port : Nat) (amp : Nat) (hs : Frame fp orig s)  (hdict : Part.dict ∈ fp := by assumption) (hreader : Part.reader ∈ fp := by assumption) :
    Frame fp orig (State.burstJudge s port amp).1 := by
  unfold State.burstJudge
  repeat' first
    | intro _
    | with_reducible assumption
    | with_reducible apply State.modReader_frame
    | with_reducible apply State.set_frame
    | with_reducible apply State.flag_frame
    | with_reducible apply frame_ite
    | with_reducible apply frame_ite_fst
    | (extract_lets +onlyGivenNames -underBinder x; first | (refine frame_cut (fp := fp) (orig := orig) (x := x) ?_ ?_ <;> first | (intro h0; generalize x = y at h0 ⊢; clear x) | intro h0 | subst x) | (have h0 := Nat.zero_le x; generalize x = y at h0 ⊢; clear h0 x) | subst x)
    | split
    | dsimp only
    | (with_reducible refine frame_mk ?_)

theorem State.cardBurst_frame {fp : List Part} {orig : State} {s : State} (asleep : Bool) (amp : Nat) (hs : Frame fp orig s)  (hdict : Part.dict ∈ fp := by assumption) (hreader : Part.reader ∈ fp := by assumption) :
    Frame fp orig (State.cardBurst s asleep amp).1 := by
  unfold State.cardBurst
  repeat' first
    | intro _
    | with_reducible assumption
    | with_reducible apply State.burstJudge_frame
    | with_reducible apply State.synthStart_frame
    | with_reducible apply State.synthTo_frame
    | with_reducible apply State.modReader_frame
    | with_reducible apply State.set_frame
    | with_reducible apply frame_ite
    | with_reducible apply frame_ite_fst
    | (extract_lets +onlyGivenNames -underBinder x; first | (refine frame_cut (fp := fp) (orig := orig) (x := x) ?_ ?_ <;> first | (intro h0; generalize x = y at h0 ⊢; clear x) | intro h0 | subst x) | (have h0 := Nat.zero_le x; generalize x = y at h0 ⊢; clear h0 x) | subst x)
    | (with_reducible refine frame_fst (by with_reducible assumption) ?_)
    | (with_reducible refine frame_snd (by with_reducible assumption) ?_)
    | split
    | dsimp only
    | (with_reducible refine frame_mk ?_)

theorem State.tagPost_frame {fp : List Part} {orig : State} {s : State} (k : Nat) (uid : List Nat) (b : List Nat) (hs : Frame fp orig s)  (hdict : Part.dict ∈ fp := by assumption) :
    Frame fp orig (State.tagPost s k uid b) := by
  unfold State.tagPost
  repeat' first
    | intro _
    | with_reducible assumption
    | with_reducible apply State.set_frame
    | with_reducible apply State.flag_frame
    | with_reducible apply frame_ite
    | (extract_lets +onlyGivenNames -underBinder x; first | (refine frame_cut (fp := fp) (orig := orig) (x := x) ?_ ?_ <;> first | (intro h0; generalize x = y at h0 ⊢; clear x) | intro h0 | subst x) | (have h0 := Nat.zero_le x; generalize x = y at h0 ⊢; clear h0 x) | subst x)
    | split
    | dsimp only
    | (with_reducible refine frame_mk ?_)

theorem State.tagFail_frame {fp : List Part} {orig : State} {s : State} (k : Nat) (cause : Nat) (hs : Frame fp orig s)  (hdict : Part.dict ∈ fp := by assumption) :
    Frame fp orig (State.tagFail s k cause) := by
  unfold State.tagFail
  repeat' first
    | intro _
    | with_reducible assumption
    | with_reducible apply State.set_frame
    | with_reducible apply State.flag_frame
    | (extract_lets +onlyGivenNames -underBinder x; first | (refine frame_cut (fp := fp) (orig := orig) (x := x) ?_ ?_ <;> first | (intro h0; generalize x = y at h0 ⊢; clear x) | intro h0 | subst x) | (have h0 := Nat.zero_le x; generalize x = y at h0 ⊢; clear h0 x) | subst x)
    | dsimp only
    | (with_reducible refine frame_mk ?_)

theorem State.scanEnd_frame {fp : List Part} {orig : State} {s : State}  (hs : Frame fp orig s)  (hdict : Part.dict ∈ fp := by assumption) (hreader : Part.reader ∈ fp := by assumption) :
    Frame fp orig (State.scanEnd s) := by
  unfold State.scanEnd
  repeat' first
    | intro _
    | with_reducible assumption
    | with_reducible apply State.readerJudge_frame
    | with_reducible apply State.modReader_frame
    | with_reducible apply State.set_frame
    | (extract_lets +onlyGivenNames -underBinder x; first | (refine frame_cut (fp := fp) (orig := orig) (x := x) ?_ ?_ <;> first | (intro h0; generalize x = y at h0 ⊢; clear x) | intro h0 | subst x) | (have h0 := Nat.zero_le x; generalize x = y at h0 ⊢; clear h0 x) | subst x)
    | split
    | dsimp only
    | (with_reducible refine frame_mk ?_)

theorem State.scanStart_frame {fp : List Part} {orig : State} {s : State} (l : List Nat) (hs : Frame fp orig s)  (hdict : Part.dict ∈ fp := by assumption) (hreader : Part.reader ∈ fp := by assumption) :
    Frame fp orig (State.scanStart s l) := by
  unfold State.scanStart
  repeat' first
    | intro _
    | with_reducible assumption
    | with_reducible apply State.scanEnd_frame
    | with_reducible apply State.readerJudge_frame
    | with_reducible apply State.modReader_frame
    | with_reducible apply State.set_frame
    | (extract_lets +onlyGivenNames -underBinder x; first | (refine frame_cut (fp := fp) (orig := orig) (x := x) ?_ ?_ <;> first | (intro h0; generalize x = y at h0 ⊢; clear x) | intro h0 | subst x) | (have h0 := Nat.zero_le x; generalize x = y at h0 ⊢; clear h0 x) | subst x)
    | dsimp only
    | (with_reducible refine frame_mk ?_)

theorem State.jobResult_frame {fp : List Part} {orig : State} {s : State} (pos : Nat) (proto : Nat) (outcome : Nat) (e : JobEnd) (bytes : List Nat) (hs : Frame fp orig s)  (hdict : Part.dict ∈ fp := by assumption) (hstreams : Part.streams ∈ fp := by assumption) :
    Frame fp orig (State.jobResult s pos proto outcome e bytes) := by
  unfold State.jobResult
  repeat' first
    | intro _
    | with_reducible assumption
    | with_reducible apply State.append_frame
    | with_reducible apply frame_ite
    | (extract_lets +onlyGivenNames -underBinder x; first | (refine frame_cut (fp := fp) (orig := orig) (x := x) ?_ ?_ <;> first | (intro h0; generalize x = y at h0 ⊢; clear x) | intro h0 | subst x) | (have h0 := Nat.zero_le x; generalize x = y at h0 ⊢; clear h0 x) | subst x)
    | split
    | dsimp only
    | (with_reducible refine frame_mk ?_)

theorem State.jobField_frame {fp : List Part} {orig : State} {s t : State} {p step us : Nat}
    (h : s.jobField p step us = some t) (hs : Frame fp orig s) (hdict : Part.dict ∈ fp := by assumption) (hreader : Part.reader ∈ fp := by assumption) : Frame fp orig t := by
  unfold State.jobField at h
  split at h
  · have h2 := Option.some.inj h
    subst h2
    refine State.modReader_frame _ (State.set_frame _ _ ?_)
    split
    · exact State.fieldOff_frame hs
    · exact hs
  · exact absurd h (by simp)

theorem State.delayScan_frame {fp : List Part} {orig : State} {s : State} (poll : Bool) (tags : List (List Nat × Option (List Nat))) (e : JobEnd) (us : Nat) (hs : Frame fp orig s)  (hdict : Part.dict ∈ fp := by assumption) (hstreams : Part.streams ∈ fp := by assumption) (hsilt : Part.silt ∈ fp := by assumption) (hreader : Part.reader ∈ fp := by assumption) :
    Frame fp orig (State.delayScan s poll tags e us) := by
  unfold State.delayScan
  repeat' first
    | intro _
    | with_reducible assumption
    | with_reducible apply State.jobResult_frame
    | with_reducible apply State.scanStart_frame
    | with_reducible apply State.scanEnd_frame
    | with_reducible apply State.tagFail_frame
    | with_reducible apply State.tagPost_frame
    | with_reducible apply State.readerSettle_frame
    | with_reducible apply State.modReader_frame
    | (with_reducible refine State.jobField_frame (by with_reducible assumption) ?_)
    | with_reducible apply frame_ite
    | (extract_lets +onlyGivenNames -underBinder x; first | (refine frame_cut (fp := fp) (orig := orig) (x := x) ?_ ?_ <;> first | (intro h0; generalize x = y at h0 ⊢; clear x) | intro h0 | subst x) | (have h0 := Nat.zero_le x; generalize x = y at h0 ⊢; clear h0 x) | subst x)
    | split
    | dsimp only
    | (with_reducible refine frame_mk ?_)

theorem State.readerTick_frame {fp : List Part} {orig : State} {s : State}  (hs : Frame fp orig s)  (hdict : Part.dict ∈ fp := by assumption) (hstreams : Part.streams ∈ fp := by assumption) (hsilt : Part.silt ∈ fp := by assumption) (hreader : Part.reader ∈ fp := by assumption) :
    Frame fp orig (State.readerTick s) := by
  unfold State.readerTick
  repeat' first
    | intro _
    | with_reducible assumption
    | with_reducible apply State.readerSettle_frame
    | with_reducible apply State.cmdOutcome_frame
    | with_reducible apply State.spansTrim_frame
    | with_reducible apply State.fieldOff_frame
    | with_reducible apply State.synthStart_frame
    | with_reducible apply State.synthTrigger_frame
    | with_reducible apply State.synthTo_frame
    | with_reducible apply State.readerJudge_frame
    | with_reducible apply State.modReader_frame
    | with_reducible apply frame_ite
    | (extract_lets +onlyGivenNames -underBinder x; first | (refine frame_cut (fp := fp) (orig := orig) (x := x) ?_ ?_ <;> first | (intro h0; generalize x = y at h0 ⊢; clear x) | intro h0 | subst x) | (have h0 := Nat.zero_le x; generalize x = y at h0 ⊢; clear h0 x) | subst x)
    | split
    | dsimp only
    | (with_reducible refine frame_mk ?_)

theorem State.ceilingTick_frame {fp : List Part} {orig : State} {s : State}  (hs : Frame fp orig s)  (hdict : Part.dict ∈ fp := by assumption) (hstreams : Part.streams ∈ fp := by assumption) (hprot : Part.prot ∈ fp := by assumption) (hreader : Part.reader ∈ fp := by assumption) :
    Frame fp orig (State.ceilingTick s) := by
  unfold State.ceilingTick
  repeat' first
    | intro _
    | with_reducible assumption
    | with_reducible apply State.fieldCut_frame
    | with_reducible apply State.set_frame
    | with_reducible apply State.flag_frame
    | with_reducible apply frame_ite
    | (extract_lets +onlyGivenNames -underBinder x; first | (refine frame_cut (fp := fp) (orig := orig) (x := x) ?_ ?_ <;> first | (intro h0; generalize x = y at h0 ⊢; clear x) | intro h0 | subst x) | (have h0 := Nat.zero_le x; generalize x = y at h0 ⊢; clear h0 x) | subst x)
    | split
    | dsimp only
    | (with_reducible refine frame_mk ?_)

theorem State.thermalCut_frame {fp : List Part} {orig : State} {s : State}  (hs : Frame fp orig s)  (hdict : Part.dict ∈ fp := by assumption) (hstreams : Part.streams ∈ fp := by assumption) (hsilt : Part.silt ∈ fp := by assumption) (hreader : Part.reader ∈ fp := by assumption) :
    Frame fp orig (State.thermalCut s) := by
  unfold State.thermalCut
  repeat' first
    | intro _
    | with_reducible assumption
    | with_reducible apply State.readerSettle_frame
    | with_reducible apply State.cmdOutcome_frame
    | with_reducible apply State.fieldOff_frame
    | with_reducible apply State.modReader_frame
    | with_reducible apply State.flag_frame
    | with_reducible apply frame_ite
    | (extract_lets +onlyGivenNames -underBinder x; first | (refine frame_cut (fp := fp) (orig := orig) (x := x) ?_ ?_ <;> first | (intro h0; generalize x = y at h0 ⊢; clear x) | intro h0 | subst x) | (have h0 := Nat.zero_le x; generalize x = y at h0 ⊢; clear h0 x) | subst x)
    | split
    | dsimp only
    | (with_reducible refine frame_mk ?_)

theorem State.readerWarm_frame {fp : List Part} {orig : State} {s : State}  (hs : Frame fp orig s)  (hdict : Part.dict ∈ fp := by assumption) (hstreams : Part.streams ∈ fp := by assumption) (hreader : Part.reader ∈ fp := by assumption) :
    Frame fp orig (State.readerWarm s) := by
  unfold State.readerWarm
  repeat' first
    | intro _
    | with_reducible assumption
    | with_reducible apply State.fieldOff_frame
    | with_reducible apply State.modReader_frame
    | with_reducible apply State.setStream_frame
    | (extract_lets +onlyGivenNames -underBinder x; first | (refine frame_cut (fp := fp) (orig := orig) (x := x) ?_ ?_ <;> first | (intro h0; generalize x = y at h0 ⊢; clear x) | intro h0 | subst x) | (have h0 := Nat.zero_le x; generalize x = y at h0 ⊢; clear h0 x) | subst x)
    | dsimp only
    | (with_reducible refine frame_mk ?_)

theorem State.readerStop_frame {fp : List Part} {orig : State} {s : State}  (hs : Frame fp orig s)  (hdict : Part.dict ∈ fp := by assumption) (hreader : Part.reader ∈ fp := by assumption) :
    Frame fp orig (State.readerStop s) := by
  unfold State.readerStop
  repeat' first
    | intro _
    | with_reducible assumption
    | with_reducible apply State.fieldOff_frame
    | with_reducible apply State.synthTo_frame
    | dsimp only
    | (with_reducible refine frame_mk ?_)

/-! ### Link -/

theorem State.modPort_frame {fp : List Part} {orig : State} {s : State} (n : Nat) (f : PortSt → PortSt) (hs : Frame fp orig s)  (hports : Part.ports ∈ fp := by assumption) :
    Frame fp orig (State.modPort s n f) := by
  unfold State.modPort
  repeat' first
    | intro _
    | with_reducible assumption
    | with_reducible apply frame_ite
    | split
    | dsimp only
    | (with_reducible refine frame_mk ?_)

theorem State.sendCtl_frame {fp : List Part} {orig : State} {s : State} (n : Nat) (sub : Nat) (payload : List Nat) (hs : Frame fp orig s)  (hports : Part.ports ∈ fp := by assumption) :
    Frame fp orig (State.sendCtl s n sub payload) := by
  unfold State.sendCtl
  repeat' first
    | intro _
    | with_reducible assumption
    | with_reducible apply State.modPort_frame
    | dsimp only
    | (with_reducible refine frame_mk ?_)

theorem State.sendHello_frame {fp : List Part} {orig : State} {s : State} (n : Nat) (hs : Frame fp orig s)  (hports : Part.ports ∈ fp := by assumption) :
    Frame fp orig (State.sendHello s n) := by
  unfold State.sendHello
  repeat' first
    | intro _
    | with_reducible assumption
    | with_reducible apply State.sendCtl_frame
    | with_reducible apply State.modPort_frame
    | (extract_lets +onlyGivenNames -underBinder x; first | (refine frame_cut (fp := fp) (orig := orig) (x := x) ?_ ?_ <;> first | (intro h0; generalize x = y at h0 ⊢; clear x) | intro h0 | subst x) | (have h0 := Nat.zero_le x; generalize x = y at h0 ⊢; clear h0 x) | subst x)
    | dsimp only
    | (with_reducible refine frame_mk ?_)

theorem State.netDrop_frame {fp : List Part} {orig : State} {s : State} (counter : Nat) (hs : Frame fp orig s)  (hdict : Part.dict ∈ fp := by assumption) :
    Frame fp orig (State.netDrop s counter) := by
  unfold State.netDrop
  repeat' first
    | intro _
    | with_reducible assumption
    | with_reducible apply State.flag_frame
    | with_reducible apply State.bump_frame
    | dsimp only
    | (with_reducible refine frame_mk ?_)

theorem State.portAge_frame {fp : List Part} {orig : State} {s : State} (n : Nat) (hs : Frame fp orig s)  (hdict : Part.dict ∈ fp := by assumption) (hports : Part.ports ∈ fp := by assumption) :
    Frame fp orig (State.portAge s n) := by
  unfold State.portAge
  repeat' first
    | intro _
    | with_reducible assumption
    | with_reducible apply State.netDrop_frame
    | with_reducible apply State.modPort_frame
    | with_reducible apply frame_foldl
    | with_reducible apply frame_foldl_fst
    | with_reducible apply frame_ite
    | (extract_lets +onlyGivenNames -underBinder x; first | (refine frame_cut (fp := fp) (orig := orig) (x := x) ?_ ?_ <;> first | (intro h0; generalize x = y at h0 ⊢; clear x) | intro h0 | subst x) | (have h0 := Nat.zero_le x; generalize x = y at h0 ⊢; clear h0 x) | subst x)
    | split
    | dsimp only
    | (with_reducible refine frame_mk ?_)

theorem State.portPump_frame {fp : List Part} {orig : State} {s : State} (n fuel : Nat) (hs : Frame fp orig s) (hdict : Part.dict ∈ fp := by assumption) (hports : Part.ports ∈ fp := by assumption) :
    Frame fp orig (State.portPump s n fuel) := by
  induction fuel generalizing s with
  | zero => exact hs
  | succ k ih =>
    unfold State.portPump
    repeat' first
    | with_reducible assumption
    | with_reducible apply ih
    | with_reducible apply State.count_frame
    | with_reducible apply State.modPort_frame
    | (extract_lets +onlyGivenNames -underBinder x; first | (refine frame_cut (fp := fp) (orig := orig) (x := x) ?_ ?_ <;> first | (intro h0; generalize x = y at h0 ⊢; clear x) | intro h0 | subst x) | (have h0 := Nat.zero_le x; generalize x = y at h0 ⊢; clear h0 x) | subst x)
    | intro _
    | with_reducible apply frame_foldl
    | with_reducible apply frame_ite
    | split
    | dsimp only
    | (with_reducible refine frame_mk ?_)

theorem State.portGo_frame {fp : List Part} {orig : State} {s : State} (n : Nat) (hs : Frame fp orig s)  (hdict : Part.dict ∈ fp := by assumption) (hports : Part.ports ∈ fp := by assumption) :
    Frame fp orig (State.portGo s n) := by
  unfold State.portGo
  repeat' first
    | intro _
    | with_reducible assumption
    | with_reducible apply State.portPump_frame
    | with_reducible apply State.portAge_frame
    | (extract_lets +onlyGivenNames -underBinder x; first | (refine frame_cut (fp := fp) (orig := orig) (x := x) ?_ ?_ <;> first | (intro h0; generalize x = y at h0 ⊢; clear x) | intro h0 | subst x) | (have h0 := Nat.zero_le x; generalize x = y at h0 ⊢; clear h0 x) | subst x)
    | dsimp only
    | (with_reducible refine frame_mk ?_)

theorem State.portPutAs_frame {fp : List Part} {orig : State} {s : State} (n : Nat) (f : OutFrame) (hs : Frame fp orig s)  (hdict : Part.dict ∈ fp := by assumption) (hports : Part.ports ∈ fp := by assumption) :
    Frame fp orig (State.portPutAs s n f) := by
  unfold State.portPutAs
  repeat' first
    | intro _
    | with_reducible assumption
    | with_reducible apply State.portGo_frame
    | with_reducible apply State.netDrop_frame
    | with_reducible apply State.modPort_frame
    | with_reducible apply frame_ite
    | (extract_lets +onlyGivenNames -underBinder x; first | (refine frame_cut (fp := fp) (orig := orig) (x := x) ?_ ?_ <;> first | (intro h0; generalize x = y at h0 ⊢; clear x) | intro h0 | subst x) | (have h0 := Nat.zero_le x; generalize x = y at h0 ⊢; clear h0 x) | subst x)
    | split
    | dsimp only
    | (with_reducible refine frame_mk ?_)

theorem State.portPut_frame {fp : List Part} {orig : State} {s : State} (n : Nat) (f : List Nat) (hs : Frame fp orig s)  (hdict : Part.dict ∈ fp := by assumption) (hports : Part.ports ∈ fp := by assumption) :
    Frame fp orig (State.portPut s n f) := by
  unfold State.portPut
  repeat' first
    | intro _
    | with_reducible assumption
    | with_reducible apply State.portPutAs_frame
    | dsimp only
    | (with_reducible refine frame_mk ?_)

theorem State.netFrameAs_frame {fp : List Part} {orig : State} {s : State} (auth : Bool) (kind : Nat) (flags : Nat) (dest : Nat) (source : Nat) (body : List Nat) (hs : Frame fp orig s)  (hdict : Part.dict ∈ fp := by assumption) :
    Frame fp orig (State.netFrameAs s auth kind flags dest source body).1 := by
  unfold State.netFrameAs
  repeat' first
    | intro _
    | with_reducible assumption
    | with_reducible apply State.authSign_frame
    | with_reducible apply frame_ite
    | with_reducible apply frame_ite_fst
    | (extract_lets +onlyGivenNames -underBinder x; first | (refine frame_cut (fp := fp) (orig := orig) (x := x) ?_ ?_ <;> first | (intro h0; generalize x = y at h0 ⊢; clear x) | intro h0 | subst x) | (have h0 := Nat.zero_le x; generalize x = y at h0 ⊢; clear h0 x) | subst x)
    | (with_reducible refine frame_fst (by with_reducible assumption) ?_)
    | (with_reducible refine frame_snd (by with_reducible assumption) ?_)
    | split
    | dsimp only
    | (with_reducible refine frame_mk ?_)

theorem State.netFrame_frame {fp : List Part} {orig : State} {s : State} (kind : Nat) (flags : Nat) (dest : Nat) (source : Nat) (body : List Nat) (hs : Frame fp orig s)  (hdict : Part.dict ∈ fp := by assumption) :
    Frame fp orig (State.netFrame s kind flags dest source body).1 := by
  unfold State.netFrame
  repeat' first
    | intro _
    | with_reducible assumption
    | with_reducible apply State.netFrameAs_frame
    | with_reducible apply frame_ite_fst
    | (with_reducible refine frame_fst (by with_reducible assumption) ?_)
    | (with_reducible refine frame_snd (by with_reducible assumption) ?_)
    | dsimp only
    | (with_reducible refine frame_mk ?_)

theorem State.loopBack_frame {fp : List Part} {orig : State} {s : State} (f : List Nat) (hs : Frame fp orig s)  (hnet : Part.net ∈ fp := by assumption) :
    Frame fp orig (State.loopBack s f) := by
  unfold State.loopBack
  repeat' first
    | intro _
    | with_reducible assumption
    | dsimp only
    | (with_reducible refine frame_mk ?_)

theorem State.netRouteAs_frame {fp : List Part} {orig : State} {s : State} (f : OutFrame) (hs : Frame fp orig s)  (hdict : Part.dict ∈ fp := by assumption) (hports : Part.ports ∈ fp := by assumption) :
    Frame fp orig (State.netRouteAs s f) := by
  unfold State.netRouteAs
  repeat' first
    | intro _
    | with_reducible assumption
    | with_reducible apply State.portPutAs_frame
    | with_reducible apply State.netDrop_frame
    | split
    | dsimp only
    | (with_reducible refine frame_mk ?_)

theorem State.netRoute_frame {fp : List Part} {orig : State} {s : State} (f : List Nat) (hs : Frame fp orig s)  (hdict : Part.dict ∈ fp := by assumption) (hports : Part.ports ∈ fp := by assumption) :
    Frame fp orig (State.netRoute s f) := by
  unfold State.netRoute
  repeat' first
    | intro _
    | with_reducible assumption
    | with_reducible apply State.netRouteAs_frame
    | dsimp only
    | (with_reducible refine frame_mk ?_)

theorem State.lifeCheck_frame {fp : List Part} {orig : State} {s : State} (f : OutFrame) (hs : Frame fp orig s)  (hdict : Part.dict ∈ fp := by assumption) :
    Frame fp orig (State.lifeCheck s f).2 := by
  unfold State.lifeCheck
  repeat' first
    | intro _
    | with_reducible assumption
    | with_reducible apply State.netDrop_frame
    | with_reducible apply frame_ite
    | with_reducible apply frame_ite_snd
    | (extract_lets +onlyGivenNames -underBinder x; first | (refine frame_cut (fp := fp) (orig := orig) (x := x) ?_ ?_ <;> first | (intro h0; generalize x = y at h0 ⊢; clear x) | intro h0 | subst x) | (have h0 := Nat.zero_le x; generalize x = y at h0 ⊢; clear h0 x) | subst x)
    | split
    | dsimp only
    | (with_reducible refine frame_mk ?_)

theorem State.netSend_frame {fp : List Part} {orig : State} {s : State} (kind : Nat) (flags : Nat) (dest : Nat) (body : List Nat) (hs : Frame fp orig s)  (hdict : Part.dict ∈ fp := by assumption) (hports : Part.ports ∈ fp := by assumption) (hnet : Part.net ∈ fp := by assumption) :
    Frame fp orig (State.netSend s kind flags dest body) := by
  unfold State.netSend
  repeat' first
    | intro _
    | with_reducible assumption
    | with_reducible apply State.netRoute_frame
    | with_reducible apply State.loopBack_frame
    | with_reducible apply State.netFrame_frame
    | with_reducible apply frame_ite
    | (extract_lets +onlyGivenNames -underBinder x; first | (refine frame_cut (fp := fp) (orig := orig) (x := x) ?_ ?_ <;> first | (intro h0; generalize x = y at h0 ⊢; clear x) | intro h0 | subst x) | (have h0 := Nat.zero_le x; generalize x = y at h0 ⊢; clear h0 x) | subst x)
    | (with_reducible refine frame_fst (by with_reducible assumption) ?_)
    | (with_reducible refine frame_snd (by with_reducible assumption) ?_)
    | split
    | dsimp only
    | (with_reducible refine frame_mk ?_)

theorem State.peerSend_frame {fp : List Part} {orig : State} {s : State} (n : Nat) (kind : Nat) (body : List Nat) (hs : Frame fp orig s)  (hdict : Part.dict ∈ fp := by assumption) (hports : Part.ports ∈ fp := by assumption) :
    Frame fp orig (State.peerSend s n kind body) := by
  unfold State.peerSend
  repeat' first
    | intro _
    | with_reducible assumption
    | with_reducible apply State.netFrame_frame
    | with_reducible apply State.portPut_frame
    | with_reducible apply frame_ite
    | (extract_lets +onlyGivenNames -underBinder x; first | (refine frame_cut (fp := fp) (orig := orig) (x := x) ?_ ?_ <;> first | (intro h0; generalize x = y at h0 ⊢; clear x) | intro h0 | subst x) | (have h0 := Nat.zero_le x; generalize x = y at h0 ⊢; clear h0 x) | subst x)
    | (with_reducible refine frame_fst (by with_reducible assumption) ?_)
    | (with_reducible refine frame_snd (by with_reducible assumption) ?_)
    | split
    | dsimp only
    | (with_reducible refine frame_mk ?_)

theorem State.undelivered_frame {fp : List Part} {orig : State} {s : State} (n : Nat) (hs : Frame fp orig s)  (hdict : Part.dict ∈ fp := by assumption) (hports : Part.ports ∈ fp := by assumption) :
    Frame fp orig (State.undelivered s n) := by
  unfold State.undelivered
  repeat' first
    | intro _
    | with_reducible assumption
    | with_reducible apply State.lifeCheck_frame
    | with_reducible apply State.netRouteAs_frame
    | with_reducible apply State.modPort_frame
    | with_reducible apply frame_foldl
    | with_reducible apply frame_foldl_fst
    | (extract_lets +onlyGivenNames -underBinder x; first | (refine frame_cut (fp := fp) (orig := orig) (x := x) ?_ ?_ <;> first | (intro h0; generalize x = y at h0 ⊢; clear x) | intro h0 | subst x) | (have h0 := Nat.zero_le x; generalize x = y at h0 ⊢; clear h0 x) | subst x)
    | (with_reducible refine frame_fst (by with_reducible assumption) ?_)
    | (with_reducible refine frame_snd (by with_reducible assumption) ?_)
    | split
    | dsimp only
    | (with_reducible refine frame_mk ?_)

/-! ### NetBase -/

theorem State.dbChanged_frame {fp : List Part} {orig : State} {s : State}  (hs : Frame fp orig s)  (hnet : Part.net ∈ fp := by assumption) :
    Frame fp orig (State.dbChanged s) := by
  unfold State.dbChanged
  repeat' first
    | intro _
    | with_reducible assumption
    | with_reducible apply frame_ite
    | (extract_lets +onlyGivenNames -underBinder x; first | (refine frame_cut (fp := fp) (orig := orig) (x := x) ?_ ?_ <;> first | (intro h0; generalize x = y at h0 ⊢; clear x) | intro h0 | subst x) | (have h0 := Nat.zero_le x; generalize x = y at h0 ⊢; clear h0 x) | subst x)
    | split
    | dsimp only
    | (with_reducible refine frame_mk ?_)

theorem State.tableTick_frame {fp : List Part} {orig : State} {s : State}  (hs : Frame fp orig s)  (hnet : Part.net ∈ fp := by assumption) :
    Frame fp orig (State.tableTick s) := by
  unfold State.tableTick
  repeat' first
    | intro _
    | with_reducible assumption
    | with_reducible apply frame_ite
    | (extract_lets +onlyGivenNames -underBinder x; first | (refine frame_cut (fp := fp) (orig := orig) (x := x) ?_ ?_ <;> first | (intro h0; generalize x = y at h0 ⊢; clear x) | intro h0 | subst x) | (have h0 := Nat.zero_le x; generalize x = y at h0 ⊢; clear h0 x) | subst x)
    | split
    | dsimp only
    | (with_reducible refine frame_mk ?_)

theorem State.flood_frame {fp : List Part} {orig : State} {s : State} (body : List Nat) (but : Nat) (hs : Frame fp orig s)  (hdict : Part.dict ∈ fp := by assumption) (hports : Part.ports ∈ fp := by assumption) :
    Frame fp orig (State.flood s body but) := by
  unfold State.flood
  repeat' first
    | intro _
    | with_reducible assumption
    | with_reducible apply State.netFrame_frame
    | with_reducible apply State.portPut_frame
    | with_reducible apply frame_foldl
    | with_reducible apply frame_foldl_fst
    | with_reducible apply frame_ite
    | (extract_lets +onlyGivenNames -underBinder x; first | (refine frame_cut (fp := fp) (orig := orig) (x := x) ?_ ?_ <;> first | (intro h0; generalize x = y at h0 ⊢; clear x) | intro h0 | subst x) | (have h0 := Nat.zero_le x; generalize x = y at h0 ⊢; clear h0 x) | subst x)
    | (with_reducible refine frame_fst (by with_reducible assumption) ?_)
    | (with_reducible refine frame_snd (by with_reducible assumption) ?_)
    | split
    | dsimp only
    | (with_reducible refine frame_mk ?_)

theorem State.lsaSend_frame {fp : List Part} {orig : State} {s : State}  (hs : Frame fp orig s)  (hdict : Part.dict ∈ fp := by assumption) (hports : Part.ports ∈ fp := by assumption) (hnet : Part.net ∈ fp := by assumption) :
    Frame fp orig (State.lsaSend s) := by
  unfold State.lsaSend
  repeat' first
    | intro _
    | with_reducible assumption
    | with_reducible apply State.flood_frame
    | (extract_lets +onlyGivenNames -underBinder x; first | (refine frame_cut (fp := fp) (orig := orig) (x := x) ?_ ?_ <;> first | (intro h0; generalize x = y at h0 ⊢; clear x) | intro h0 | subst x) | (have h0 := Nat.zero_le x; generalize x = y at h0 ⊢; clear h0 x) | subst x)
    | dsimp only
    | (with_reducible refine frame_mk ?_)

theorem State.memberSet_frame {fp : List Part} {orig : State} {s : State} (v : Nat) (hs : Frame fp orig s)  (hdict : Part.dict ∈ fp := by assumption) (hports : Part.ports ∈ fp := by assumption) (hnet : Part.net ∈ fp := by assumption) :
    Frame fp orig (State.memberSet s v) := by
  unfold State.memberSet
  repeat' first
    | intro _
    | with_reducible assumption
    | with_reducible apply State.lsaSend_frame
    | with_reducible apply State.set_frame
    | with_reducible apply frame_ite
    | split
    | dsimp only
    | (with_reducible refine frame_mk ?_)

theorem State.linksJudge_frame {fp : List Part} {orig : State} {s : State}  (hs : Frame fp orig s)  (hdict : Part.dict ∈ fp := by assumption) (hports : Part.ports ∈ fp := by assumption) (hnet : Part.net ∈ fp := by assumption) :
    Frame fp orig (State.linksJudge s) := by
  unfold State.linksJudge
  repeat' first
    | intro _
    | with_reducible assumption
    | with_reducible apply State.lsaSend_frame
    | with_reducible apply State.dbChanged_frame
    | with_reducible apply State.set_frame
    | with_reducible apply frame_ite
    | (extract_lets +onlyGivenNames -underBinder x; first | (refine frame_cut (fp := fp) (orig := orig) (x := x) ?_ ?_ <;> first | (intro h0; generalize x = y at h0 ⊢; clear x) | intro h0 | subst x) | (have h0 := Nat.zero_le x; generalize x = y at h0 ⊢; clear h0 x) | subst x)
    | split
    | dsimp only
    | (with_reducible refine frame_mk ?_)

theorem State.portJoined_frame {fp : List Part} {orig : State} {s : State} (n : Nat) (hs : Frame fp orig s)  (hdict : Part.dict ∈ fp := by assumption) (hports : Part.ports ∈ fp := by assumption) (hnet : Part.net ∈ fp := by assumption) :
    Frame fp orig (State.portJoined s n) := by
  unfold State.portJoined
  repeat' first
    | intro _
    | with_reducible assumption
    | with_reducible apply State.linksJudge_frame
    | with_reducible apply State.netFrame_frame
    | with_reducible apply State.portPut_frame
    | with_reducible apply frame_foldl
    | with_reducible apply frame_foldl_fst
    | with_reducible apply frame_ite
    | (extract_lets +onlyGivenNames -underBinder x; first | (refine frame_cut (fp := fp) (orig := orig) (x := x) ?_ ?_ <;> first | (intro h0; generalize x = y at h0 ⊢; clear x) | intro h0 | subst x) | (have h0 := Nat.zero_le x; generalize x = y at h0 ⊢; clear h0 x) | subst x)
    | (with_reducible refine frame_fst (by with_reducible assumption) ?_)
    | (with_reducible refine frame_snd (by with_reducible assumption) ?_)
    | split
    | dsimp only
    | (with_reducible refine frame_mk ?_)

/-! ### Ports -/

theorem State.launchOutcome_frame {fp : List Part} {orig : State} {s : State} (e : LaunchEnt) (outcome : Nat) (stamp96 : Nat) (hs : Frame fp orig s)  (hdict : Part.dict ∈ fp := by assumption) (hstreams : Part.streams ∈ fp := by assumption) (hports : Part.ports ∈ fp := by assumption) :
    Frame fp orig (State.launchOutcome s e outcome stamp96) := by
  unfold State.launchOutcome
  repeat' first
    | intro _
    | with_reducible assumption
    | with_reducible apply State.append_frame
    | with_reducible apply State.flag_frame
    | with_reducible apply frame_ite
    | (extract_lets +onlyGivenNames -underBinder x; first | (refine frame_cut (fp := fp) (orig := orig) (x := x) ?_ ?_ <;> first | (intro h0; generalize x = y at h0 ⊢; clear x) | intro h0 | subst x) | (have h0 := Nat.zero_le x; generalize x = y at h0 ⊢; clear h0 x) | subst x)
    | split
    | dsimp only
    | (with_reducible refine frame_mk ?_)

theorem State.launchDrop_frame {fp : List Part} {orig : State} {s : State} (p : LaunchEnt → Bool) (outcome : Nat) (hs : Frame fp orig s)  (hdict : Part.dict ∈ fp := by assumption) (hstreams : Part.streams ∈ fp := by assumption) (hports : Part.ports ∈ fp := by assumption) :
    Frame fp orig (State.launchDrop s p outcome) := by
  unfold State.launchDrop
  repeat' first
    | intro _
    | with_reducible assumption
    | with_reducible apply State.launchOutcome_frame
    | with_reducible apply frame_foldl
    | with_reducible apply frame_foldl_fst
    | dsimp only
    | (with_reducible refine frame_mk ?_)

theorem State.portLeave_frame {fp : List Part} {orig : State} {s : State} (n : Nat) (toward : Nat) (hs : Frame fp orig s)  (hdict : Part.dict ∈ fp := by assumption) (hstreams : Part.streams ∈ fp := by assumption) (hports : Part.ports ∈ fp := by assumption) (hnet : Part.net ∈ fp := by assumption) :
    Frame fp orig (State.portLeave s n toward) := by
  unfold State.portLeave
  repeat' first
    | intro _
    | with_reducible assumption
    | with_reducible apply State.launchDrop_frame
    | with_reducible apply State.linksJudge_frame
    | with_reducible apply State.undelivered_frame
    | with_reducible apply State.modPort_frame
    | with_reducible apply State.set_frame
    | (extract_lets +onlyGivenNames -underBinder x; first | (refine frame_cut (fp := fp) (orig := orig) (x := x) ?_ ?_ <;> first | (intro h0; generalize x = y at h0 ⊢; clear x) | intro h0 | subst x) | (have h0 := Nat.zero_le x; generalize x = y at h0 ⊢; clear h0 x) | subst x)
    | dsimp only
    | (with_reducible refine frame_mk ?_)

theorem State.portTrain_frame {fp : List Part} {orig : State} {s : State} (n : Nat) (hs : Frame fp orig s)  (hdict : Part.dict ∈ fp := by assumption) (hstreams : Part.streams ∈ fp := by assumption) (hports : Part.ports ∈ fp := by assumption) (hnet : Part.net ∈ fp := by assumption) :
    Frame fp orig (State.portTrain s n) := by
  unfold State.portTrain
  repeat' first
    | intro _
    | with_reducible assumption
    | with_reducible apply State.portLeave_frame
    | with_reducible apply State.sendHello_frame
    | with_reducible apply State.modPort_frame
    | with_reducible apply frame_ite
    | (extract_lets +onlyGivenNames -underBinder x; first | (refine frame_cut (fp := fp) (orig := orig) (x := x) ?_ ?_ <;> first | (intro h0; generalize x = y at h0 ⊢; clear x) | intro h0 | subst x) | (have h0 := Nat.zero_le x; generalize x = y at h0 ⊢; clear h0 x) | subst x)
    | split
    | dsimp only
    | (with_reducible refine frame_mk ?_)

theorem State.portTry_frame {fp : List Part} {orig : State} {s : State} (n : Nat) (hs : Frame fp orig s)  (hdict : Part.dict ∈ fp := by assumption) (hstreams : Part.streams ∈ fp := by assumption) (hports : Part.ports ∈ fp := by assumption) (hnet : Part.net ∈ fp := by assumption) :
    Frame fp orig (State.portTry s n) := by
  unfold State.portTry
  repeat' first
    | intro _
    | with_reducible assumption
    | with_reducible apply State.portTrain_frame
    | with_reducible apply frame_ite
    | (extract_lets +onlyGivenNames -underBinder x; first | (refine frame_cut (fp := fp) (orig := orig) (x := x) ?_ ?_ <;> first | (intro h0; generalize x = y at h0 ⊢; clear x) | intro h0 | subst x) | (have h0 := Nat.zero_le x; generalize x = y at h0 ⊢; clear h0 x) | subst x)
    | split
    | dsimp only
    | (with_reducible refine frame_mk ?_)

theorem State.signalDetect_frame {fp : List Part} {orig : State} {s : State} (n : Nat) (hs : Frame fp orig s)  (hdict : Part.dict ∈ fp := by assumption) (hstreams : Part.streams ∈ fp := by assumption) (hports : Part.ports ∈ fp := by assumption) (hnet : Part.net ∈ fp := by assumption) :
    Frame fp orig (State.signalDetect s n) := by
  unfold State.signalDetect
  repeat' first
    | intro _
    | with_reducible assumption
    | with_reducible apply State.portTry_frame
    | with_reducible apply State.modPort_frame
    | dsimp only
    | (with_reducible refine frame_mk ?_)

theorem State.groupValid_frame {fp : List Part} {orig : State} {s : State} (k : Nat) (hs : Frame fp orig s)  (hdict : Part.dict ∈ fp := by assumption) (hstreams : Part.streams ∈ fp := by assumption) (hports : Part.ports ∈ fp := by assumption) (hnet : Part.net ∈ fp := by assumption) :
    Frame fp orig (State.groupValid s k) := by
  unfold State.groupValid
  repeat' first
    | intro _
    | with_reducible assumption
    | with_reducible apply State.portTry_frame
    | with_reducible apply frame_foldl
    | with_reducible apply frame_foldl_fst
    | with_reducible apply frame_ite
    | (extract_lets +onlyGivenNames -underBinder x; first | (refine frame_cut (fp := fp) (orig := orig) (x := x) ?_ ?_ <;> first | (intro h0; generalize x = y at h0 ⊢; clear x) | intro h0 | subst x) | (have h0 := Nat.zero_le x; generalize x = y at h0 ⊢; clear h0 x) | subst x)
    | split
    | dsimp only
    | (with_reducible refine frame_mk ?_)

theorem State.trainingComplete_frame {fp : List Part} {orig : State} {s : State} (n : Nat) (eth : Bool) (hs : Frame fp orig s)  (hdict : Part.dict ∈ fp := by assumption) (hports : Part.ports ∈ fp := by assumption) (hnet : Part.net ∈ fp := by assumption) :
    Frame fp orig (State.trainingComplete s n eth) := by
  unfold State.trainingComplete
  repeat' first
    | intro _
    | with_reducible assumption
    | with_reducible apply State.portJoined_frame
    | with_reducible apply State.modPort_frame
    | with_reducible apply State.set_frame
    | with_reducible apply frame_ite
    | (extract_lets +onlyGivenNames -underBinder x; first | (refine frame_cut (fp := fp) (orig := orig) (x := x) ?_ ?_ <;> first | (intro h0; generalize x = y at h0 ⊢; clear x) | intro h0 | subst x) | (have h0 := Nat.zero_le x; generalize x = y at h0 ⊢; clear h0 x) | subst x)
    | split
    | dsimp only
    | (with_reducible refine frame_mk ?_)

theorem State.autoSwitch_frame {fp : List Part} {orig : State} {s : State} (n : Nat) (hs : Frame fp orig s)  (hports : Part.ports ∈ fp := by assumption) :
    Frame fp orig (State.autoSwitch s n) := by
  unfold State.autoSwitch
  repeat' first
    | intro _
    | with_reducible assumption
    | with_reducible apply State.sendHello_frame
    | with_reducible apply State.modPort_frame
    | with_reducible apply frame_ite
    | (extract_lets +onlyGivenNames -underBinder x; first | (refine frame_cut (fp := fp) (orig := orig) (x := x) ?_ ?_ <;> first | (intro h0; generalize x = y at h0 ⊢; clear x) | intro h0 | subst x) | (have h0 := Nat.zero_le x; generalize x = y at h0 ⊢; clear h0 x) | subst x)
    | split
    | dsimp only
    | (with_reducible refine frame_mk ?_)

theorem State.trainFail_frame {fp : List Part} {orig : State} {s : State} (n : Nat) (hs : Frame fp orig s)  (hdict : Part.dict ∈ fp := by assumption) (hstreams : Part.streams ∈ fp := by assumption) (hports : Part.ports ∈ fp := by assumption) (hnet : Part.net ∈ fp := by assumption) :
    Frame fp orig (State.trainFail s n) := by
  unfold State.trainFail
  repeat' first
    | intro _
    | with_reducible assumption
    | with_reducible apply State.portLeave_frame
    | with_reducible apply State.modPort_frame
    | with_reducible apply State.flag_frame
    | with_reducible apply frame_ite
    | (extract_lets +onlyGivenNames -underBinder x; first | (refine frame_cut (fp := fp) (orig := orig) (x := x) ?_ ?_ <;> first | (intro h0; generalize x = y at h0 ⊢; clear x) | intro h0 | subst x) | (have h0 := Nat.zero_le x; generalize x = y at h0 ⊢; clear h0 x) | subst x)
    | split
    | dsimp only
    | (with_reducible refine frame_mk ?_)

theorem State.trainRetry_frame {fp : List Part} {orig : State} {s : State} (n : Nat) (hs : Frame fp orig s)  (hdict : Part.dict ∈ fp := by assumption) (hstreams : Part.streams ∈ fp := by assumption) (hports : Part.ports ∈ fp := by assumption) (hnet : Part.net ∈ fp := by assumption) :
    Frame fp orig (State.trainRetry s n) := by
  unfold State.trainRetry
  repeat' first
    | intro _
    | with_reducible assumption
    | with_reducible apply State.portTrain_frame
    | with_reducible apply State.modPort_frame
    | with_reducible apply frame_ite
    | (extract_lets +onlyGivenNames -underBinder x; first | (refine frame_cut (fp := fp) (orig := orig) (x := x) ?_ ?_ <;> first | (intro h0; generalize x = y at h0 ⊢; clear x) | intro h0 | subst x) | (have h0 := Nat.zero_le x; generalize x = y at h0 ⊢; clear h0 x) | subst x)
    | split
    | dsimp only
    | (with_reducible refine frame_mk ?_)

theorem State.los_frame {fp : List Part} {orig : State} {s : State} (n : Nat) (group : Bool) (hs : Frame fp orig s)  (hdict : Part.dict ∈ fp := by assumption) (hstreams : Part.streams ∈ fp := by assumption) (hports : Part.ports ∈ fp := by assumption) (hnet : Part.net ∈ fp := by assumption) :
    Frame fp orig (State.los s n group) := by
  unfold State.los
  repeat' first
    | intro _
    | with_reducible assumption
    | with_reducible apply State.portTrain_frame
    | with_reducible apply State.modPort_frame
    | with_reducible apply State.flag_frame
    | with_reducible apply frame_ite
    | (extract_lets +onlyGivenNames -underBinder x; first | (refine frame_cut (fp := fp) (orig := orig) (x := x) ?_ ?_ <;> first | (intro h0; generalize x = y at h0 ⊢; clear x) | intro h0 | subst x) | (have h0 := Nat.zero_le x; generalize x = y at h0 ⊢; clear h0 x) | subst x)
    | split
    | dsimp only
    | (with_reducible refine frame_mk ?_)

theorem State.portDegrade_frame {fp : List Part} {orig : State} {s : State} (n : Nat) (hs : Frame fp orig s)  (hdict : Part.dict ∈ fp := by assumption) (hports : Part.ports ∈ fp := by assumption) (hnet : Part.net ∈ fp := by assumption) :
    Frame fp orig (State.portDegrade s n) := by
  unfold State.portDegrade
  repeat' first
    | intro _
    | with_reducible assumption
    | with_reducible apply State.linksJudge_frame
    | with_reducible apply State.modPort_frame
    | with_reducible apply State.set_frame
    | with_reducible apply State.flag_frame
    | with_reducible apply frame_ite
    | (extract_lets +onlyGivenNames -underBinder x; first | (refine frame_cut (fp := fp) (orig := orig) (x := x) ?_ ?_ <;> first | (intro h0; generalize x = y at h0 ⊢; clear x) | intro h0 | subst x) | (have h0 := Nat.zero_le x; generalize x = y at h0 ⊢; clear h0 x) | subst x)
    | split
    | dsimp only
    | (with_reducible refine frame_mk ?_)

theorem State.portRetire_frame {fp : List Part} {orig : State} {s : State} (n : Nat) (cause : Nat) (hs : Frame fp orig s)  (hdict : Part.dict ∈ fp := by assumption) (hstreams : Part.streams ∈ fp := by assumption) (hsilt : Part.silt ∈ fp := by assumption) (hports : Part.ports ∈ fp := by assumption) (hnet : Part.net ∈ fp := by assumption) :
    Frame fp orig (State.portRetire s n cause) := by
  unfold State.portRetire
  repeat' first
    | intro _
    | with_reducible assumption
    | with_reducible apply State.portLeave_frame
    | with_reducible apply State.flag_frame
    | with_reducible apply State.log_frame
    | with_reducible apply frame_foldl
    | with_reducible apply frame_foldl_fst
    | with_reducible apply frame_ite
    | (extract_lets +onlyGivenNames -underBinder x; first | (refine frame_cut (fp := fp) (orig := orig) (x := x) ?_ ?_ <;> first | (intro h0; generalize x = y at h0 ⊢; clear x) | intro h0 | subst x) | (have h0 := Nat.zero_le x; generalize x = y at h0 ⊢; clear h0 x) | subst x)
    | split
    | dsimp only
    | (with_reducible refine frame_mk ?_)

theorem State.ackTo_frame {fp : List Part} {orig : State} {s : State} (n : Nat) (a : Nat) (hs : Frame fp orig s)  (hdict : Part.dict ∈ fp := by assumption) (hports : Part.ports ∈ fp := by assumption) :
    Frame fp orig (State.ackTo s n a) := by
  unfold State.ackTo
  repeat' first
    | intro _
    | with_reducible assumption
    | with_reducible apply State.portGo_frame
    | with_reducible apply State.modPort_frame
    | with_reducible apply State.set_frame
    | with_reducible apply frame_ite
    | (extract_lets +onlyGivenNames -underBinder x; first | (refine frame_cut (fp := fp) (orig := orig) (x := x) ?_ ?_ <;> first | (intro h0; generalize x = y at h0 ⊢; clear x) | intro h0 | subst x) | (have h0 := Nat.zero_le x; generalize x = y at h0 ⊢; clear h0 x) | subst x)
    | split
    | dsimp only
    | (with_reducible refine frame_mk ?_)

theorem State.resend_frame {fp : List Part} {orig : State} {s : State} (n : Nat) (hs : Frame fp orig s)  (hdict : Part.dict ∈ fp := by assumption) (hstreams : Part.streams ∈ fp := by assumption) (hsilt : Part.silt ∈ fp := by assumption) (hports : Part.ports ∈ fp := by assumption) (hnet : Part.net ∈ fp := by assumption) :
    Frame fp orig (State.resend s n) := by
  unfold State.resend
  repeat' first
    | intro _
    | with_reducible assumption
    | with_reducible apply State.portRetire_frame
    | with_reducible apply State.portDegrade_frame
    | with_reducible apply State.modPort_frame
    | with_reducible apply State.set_frame
    | with_reducible apply State.flag_frame
    | with_reducible apply frame_ite
    | (extract_lets +onlyGivenNames -underBinder x; first | (refine frame_cut (fp := fp) (orig := orig) (x := x) ?_ ?_ <;> first | (intro h0; generalize x = y at h0 ⊢; clear x) | intro h0 | subst x) | (have h0 := Nat.zero_le x; generalize x = y at h0 ⊢; clear h0 x) | subst x)
    | split
    | dsimp only
    | (with_reducible refine frame_mk ?_)

theorem State.badFrame_frame {fp : List Part} {orig : State} {s : State} (n : Nat) (nak : Bool) (hs : Frame fp orig s)  (hdict : Part.dict ∈ fp := by assumption) (hports : Part.ports ∈ fp := by assumption) :
    Frame fp orig (State.badFrame s n nak) := by
  unfold State.badFrame
  repeat' first
    | intro _
    | with_reducible assumption
    | with_reducible apply State.sendCtl_frame
    | with_reducible apply State.modPort_frame
    | with_reducible apply State.flag_frame
    | with_reducible apply frame_ite
    | (extract_lets +onlyGivenNames -underBinder x; first | (refine frame_cut (fp := fp) (orig := orig) (x := x) ?_ ?_ <;> first | (intro h0; generalize x = y at h0 ⊢; clear x) | intro h0 | subst x) | (have h0 := Nat.zero_le x; generalize x = y at h0 ⊢; clear h0 x) | subst x)
    | split
    | dsimp only
    | (with_reducible refine frame_mk ?_)

theorem State.linkData_frame {fp : List Part} {orig : State} {s : State} (n : Nat) (f : List Nat) (hs : Frame fp orig s)  (hdict : Part.dict ∈ fp := by assumption) (hports : Part.ports ∈ fp := by assumption) (hnet : Part.net ∈ fp := by assumption) :
    Frame fp orig (State.linkData s n f) := by
  unfold State.linkData
  repeat' first
    | intro _
    | with_reducible assumption
    | with_reducible apply State.badFrame_frame
    | with_reducible apply State.ackTo_frame
    | with_reducible apply State.sendCtl_frame
    | with_reducible apply State.modPort_frame
    | with_reducible apply State.count_frame
    | with_reducible apply frame_ite
    | (extract_lets +onlyGivenNames -underBinder x; first | (refine frame_cut (fp := fp) (orig := orig) (x := x) ?_ ?_ <;> first | (intro h0; generalize x = y at h0 ⊢; clear x) | intro h0 | subst x) | (have h0 := Nat.zero_le x; generalize x = y at h0 ⊢; clear h0 x) | subst x)
    | split
    | dsimp only
    | (with_reducible refine frame_mk ?_)

theorem State.linkAck_frame {fp : List Part} {orig : State} {s : State} (n : Nat) (f : List Nat) (hs : Frame fp orig s)  (hdict : Part.dict ∈ fp := by assumption) (hports : Part.ports ∈ fp := by assumption) :
    Frame fp orig (State.linkAck s n f) := by
  unfold State.linkAck
  repeat' first
    | intro _
    | with_reducible assumption
    | with_reducible apply State.badFrame_frame
    | with_reducible apply State.ackTo_frame
    | with_reducible apply State.count_frame
    | with_reducible apply frame_ite
    | (extract_lets +onlyGivenNames -underBinder x; first | (refine frame_cut (fp := fp) (orig := orig) (x := x) ?_ ?_ <;> first | (intro h0; generalize x = y at h0 ⊢; clear x) | intro h0 | subst x) | (have h0 := Nat.zero_le x; generalize x = y at h0 ⊢; clear h0 x) | subst x)
    | split
    | dsimp only
    | (with_reducible refine frame_mk ?_)

theorem State.linkNak_frame {fp : List Part} {orig : State} {s : State} (n : Nat) (f : List Nat) (hs : Frame fp orig s)  (hdict : Part.dict ∈ fp := by assumption) (hstreams : Part.streams ∈ fp := by assumption) (hsilt : Part.silt ∈ fp := by assumption) (hports : Part.ports ∈ fp := by assumption) (hnet : Part.net ∈ fp := by assumption) :
    Frame fp orig (State.linkNak s n f) := by
  unfold State.linkNak
  repeat' first
    | intro _
    | with_reducible assumption
    | with_reducible apply State.badFrame_frame
    | with_reducible apply State.resend_frame
    | with_reducible apply State.ackTo_frame
    | with_reducible apply State.count_frame
    | with_reducible apply frame_ite
    | (extract_lets +onlyGivenNames -underBinder x; first | (refine frame_cut (fp := fp) (orig := orig) (x := x) ?_ ?_ <;> first | (intro h0; generalize x = y at h0 ⊢; clear x) | intro h0 | subst x) | (have h0 := Nat.zero_le x; generalize x = y at h0 ⊢; clear h0 x) | subst x)
    | split
    | dsimp only
    | (with_reducible refine frame_mk ?_)

theorem State.ackExpire_frame {fp : List Part} {orig : State} {s : State} (n : Nat) (hs : Frame fp orig s)  (hdict : Part.dict ∈ fp := by assumption) (hstreams : Part.streams ∈ fp := by assumption) (hsilt : Part.silt ∈ fp := by assumption) (hports : Part.ports ∈ fp := by assumption) (hnet : Part.net ∈ fp := by assumption) :
    Frame fp orig (State.ackExpire s n) := by
  unfold State.ackExpire
  repeat' first
    | intro _
    | with_reducible assumption
    | with_reducible apply State.resend_frame
    | with_reducible apply frame_ite
    | (extract_lets +onlyGivenNames -underBinder x; first | (refine frame_cut (fp := fp) (orig := orig) (x := x) ?_ ?_ <;> first | (intro h0; generalize x = y at h0 ⊢; clear x) | intro h0 | subst x) | (have h0 := Nat.zero_le x; generalize x = y at h0 ⊢; clear h0 x) | subst x)
    | split
    | dsimp only
    | (with_reducible refine frame_mk ?_)

theorem State.asymBegin_frame {fp : List Part} {orig : State} {s : State} (n : Nat) (hs : Frame fp orig s)  (hports : Part.ports ∈ fp := by assumption) :
    Frame fp orig (State.asymBegin s n) := by
  unfold State.asymBegin
  repeat' first
    | intro _
    | with_reducible assumption
    | with_reducible apply State.modPort_frame
    | dsimp only
    | (with_reducible refine frame_mk ?_)

theorem State.hello_frame {fp : List Part} {orig : State} {s : State} (n : Nat) (f : List Nat) (hs : Frame fp orig s)  (hdict : Part.dict ∈ fp := by assumption) (hports : Part.ports ∈ fp := by assumption) (hnet : Part.net ∈ fp := by assumption) :
    Frame fp orig (State.hello s n f) := by
  unfold State.hello
  repeat' first
    | intro _
    | with_reducible assumption
    | with_reducible apply State.asymBegin_frame
    | with_reducible apply State.badFrame_frame
    | with_reducible apply State.linksJudge_frame
    | with_reducible apply State.undelivered_frame
    | with_reducible apply State.sendHello_frame
    | with_reducible apply State.modPort_frame
    | with_reducible apply State.count_frame
    | with_reducible apply State.set_frame
    | with_reducible apply frame_ite
    | (extract_lets +onlyGivenNames -underBinder x; first | (refine frame_cut (fp := fp) (orig := orig) (x := x) ?_ ?_ <;> first | (intro h0; generalize x = y at h0 ⊢; clear x) | intro h0 | subst x) | (have h0 := Nat.zero_le x; generalize x = y at h0 ⊢; clear h0 x) | subst x)
    | split
    | dsimp only
    | (with_reducible refine frame_mk ?_)

theorem State.timingLaunch_frame {fp : List Part} {orig : State} {s : State} (n : Nat) (d : Nat) (hs : Frame fp orig s)  (hdict : Part.dict ∈ fp := by assumption) (hports : Part.ports ∈ fp := by assumption) :
    Frame fp orig (State.timingLaunch s n d) := by
  unfold State.timingLaunch
  repeat' first
    | intro _
    | with_reducible assumption
    | with_reducible apply State.modPort_frame
    | with_reducible apply State.count_frame
    | with_reducible apply frame_ite
    | (extract_lets +onlyGivenNames -underBinder x; first | (refine frame_cut (fp := fp) (orig := orig) (x := x) ?_ ?_ <;> first | (intro h0; generalize x = y at h0 ⊢; clear x) | intro h0 | subst x) | (have h0 := Nat.zero_le x; generalize x = y at h0 ⊢; clear h0 x) | subst x)
    | split
    | dsimp only
    | (with_reducible refine frame_mk ?_)

theorem State.timingLaunches_frame {fp : List Part} {orig : State} {s : State} (l : List (Nat × Nat)) (hs : Frame fp orig s)  (hdict : Part.dict ∈ fp := by assumption) (hports : Part.ports ∈ fp := by assumption) :
    Frame fp orig (State.timingLaunches s l) := by
  unfold State.timingLaunches
  repeat' first
    | intro _
    | with_reducible assumption
    | with_reducible apply State.timingLaunch_frame
    | with_reducible apply frame_foldl
    | with_reducible apply frame_foldl_fst
    | dsimp only
    | (with_reducible refine frame_mk ?_)

theorem State.asymTick_frame {fp : List Part} {orig : State} {s : State} (n : Nat) (hs : Frame fp orig s)  (hdict : Part.dict ∈ fp := by assumption) (hports : Part.ports ∈ fp := by assumption) :
    Frame fp orig (State.asymTick s n) := by
  unfold State.asymTick
  repeat' first
    | intro _
    | with_reducible assumption
    | with_reducible apply State.modPort_frame
    | with_reducible apply State.setI_frame
    | with_reducible apply frame_ite
    | (extract_lets +onlyGivenNames -underBinder x; first | (refine frame_cut (fp := fp) (orig := orig) (x := x) ?_ ?_ <;> first | (intro h0; generalize x = y at h0 ⊢; clear x) | intro h0 | subst x) | (have h0 := Nat.zero_le x; generalize x = y at h0 ⊢; clear h0 x) | subst x)
    | split
    | dsimp only
    | (with_reducible refine frame_mk ?_)

theorem State.asymMeet_frame {fp : List Part} {orig : State} {s : State} (n : Nat) (peer : Nat) (theirs : Int) (hs : Frame fp orig s)  (hdict : Part.dict ∈ fp := by assumption) :
    Frame fp orig (State.asymMeet s n peer theirs) := by
  unfold State.asymMeet
  repeat' first
    | intro _
    | with_reducible assumption
    | with_reducible apply State.setI_frame
    | with_reducible apply State.flag_frame
    | with_reducible apply frame_ite
    | (extract_lets +onlyGivenNames -underBinder x; first | (refine frame_cut (fp := fp) (orig := orig) (x := x) ?_ ?_ <;> first | (intro h0; generalize x = y at h0 ⊢; clear x) | intro h0 | subst x) | (have h0 := Nat.zero_le x; generalize x = y at h0 ⊢; clear h0 x) | subst x)
    | split
    | dsimp only
    | (with_reducible refine frame_mk ?_)

theorem State.timingFrameIn_frame {fp : List Part} {orig : State} {s : State} (n : Nat) (f : List Nat) (hs : Frame fp orig s)  (hdict : Part.dict ∈ fp := by assumption) (hports : Part.ports ∈ fp := by assumption) :
    Frame fp orig (State.timingFrameIn s n f) := by
  unfold State.timingFrameIn
  repeat' first
    | intro _
    | with_reducible assumption
    | with_reducible apply State.asymMeet_frame
    | with_reducible apply State.badFrame_frame
    | with_reducible apply State.modPort_frame
    | with_reducible apply State.count_frame
    | with_reducible apply frame_ite
    | (extract_lets +onlyGivenNames -underBinder x; first | (refine frame_cut (fp := fp) (orig := orig) (x := x) ?_ ?_ <;> first | (intro h0; generalize x = y at h0 ⊢; clear x) | intro h0 | subst x) | (have h0 := Nat.zero_le x; generalize x = y at h0 ⊢; clear h0 x) | subst x)
    | split
    | dsimp only
    | (with_reducible refine frame_mk ?_)

theorem State.sharedPut_frame {fp : List Part} {orig : State} {s : State} (a : Nat) (l : List Nat) (hs : Frame fp orig s)  (hcpu : Part.cpu ∈ fp := by assumption) :
    Frame fp orig (State.sharedPut s a l) := by
  unfold State.sharedPut
  repeat' first
    | intro _
    | with_reducible assumption
    | with_reducible apply State.set_frame
    | with_reducible apply frame_foldl
    | with_reducible apply frame_foldl_fst
    | dsimp only
    | (with_reducible refine frame_mk ?_)

theorem State.recordPost_frame {fp : List Part} {orig : State} {s : State} (n : Nat) (hs : Frame fp orig s)  (hdict : Part.dict ∈ fp := by assumption) (hcpu : Part.cpu ∈ fp := by assumption) (hports : Part.ports ∈ fp := by assumption) :
    Frame fp orig (State.recordPost s n) := by
  unfold State.recordPost
  repeat' first
    | intro _
    | with_reducible assumption
    | with_reducible apply State.sharedPut_frame
    | with_reducible apply State.modPort_frame
    | with_reducible apply State.setI_frame
    | with_reducible apply State.set_frame
    | with_reducible apply State.flag_frame
    | with_reducible apply frame_ite
    | (extract_lets +onlyGivenNames -underBinder x; first | (refine frame_cut (fp := fp) (orig := orig) (x := x) ?_ ?_ <;> first | (intro h0; generalize x = y at h0 ⊢; clear x) | intro h0 | subst x) | (have h0 := Nat.zero_le x; generalize x = y at h0 ⊢; clear h0 x) | subst x)
    | split
    | dsimp only
    | (with_reducible refine frame_mk ?_)

theorem State.linkMissing_frame {fp : List Part} {orig : State} {s : State} (n : Nat) (hs : Frame fp orig s)  (hdict : Part.dict ∈ fp := by assumption) (hcpu : Part.cpu ∈ fp := by assumption) (hports : Part.ports ∈ fp := by assumption) :
    Frame fp orig (State.linkMissing s n) := by
  unfold State.linkMissing
  repeat' first
    | intro _
    | with_reducible assumption
    | with_reducible apply State.sharedPut_frame
    | with_reducible apply State.modPort_frame
    | with_reducible apply State.flag_frame
    | with_reducible apply frame_ite
    | (extract_lets +onlyGivenNames -underBinder x; first | (refine frame_cut (fp := fp) (orig := orig) (x := x) ?_ ?_ <;> first | (intro h0; generalize x = y at h0 ⊢; clear x) | intro h0 | subst x) | (have h0 := Nat.zero_le x; generalize x = y at h0 ⊢; clear h0 x) | subst x)
    | split
    | dsimp only
    | (with_reducible refine frame_mk ?_)

theorem State.asymSee_frame {fp : List Part} {orig : State} {s : State} (x : Int) (hs : Frame fp orig s)  (hports : Part.ports ∈ fp := by assumption) :
    Frame fp orig (State.asymSee s x) := by
  unfold State.asymSee
  repeat' first
    | intro _
    | with_reducible assumption
    | with_reducible apply State.modPort_frame
    | with_reducible apply frame_foldl
    | with_reducible apply frame_foldl_fst
    | (extract_lets +onlyGivenNames -underBinder x; first | (refine frame_cut (fp := fp) (orig := orig) (x := x) ?_ ?_ <;> first | (intro h0; generalize x = y at h0 ⊢; clear x) | intro h0 | subst x) | (have h0 := Nat.zero_le x; generalize x = y at h0 ⊢; clear h0 x) | subst x)
    | dsimp only
    | (with_reducible refine frame_mk ?_)

theorem State.asymCal_frame {fp : List Part} {orig : State} {s : State} (n : Nat) (peer : Int) (sigma : Nat) (hs : Frame fp orig s)  (hdict : Part.dict ∈ fp := by assumption) (hports : Part.ports ∈ fp := by assumption) :
    Frame fp orig (State.asymCal s n peer sigma) := by
  unfold State.asymCal
  repeat' first
    | intro _
    | with_reducible assumption
    | with_reducible apply State.asymBegin_frame
    | with_reducible apply State.setI_frame
    | with_reducible apply State.set_frame
    | with_reducible apply frame_ite
    | (extract_lets +onlyGivenNames -underBinder x; first | (refine frame_cut (fp := fp) (orig := orig) (x := x) ?_ ?_ <;> first | (intro h0; generalize x = y at h0 ⊢; clear x) | intro h0 | subst x) | (have h0 := Nat.zero_le x; generalize x = y at h0 ⊢; clear h0 x) | subst x)
    | split
    | dsimp only
    | (with_reducible refine frame_mk ?_)

theorem State.errorSecond_frame {fp : List Part} {orig : State} {s : State} (n : Nat) (errs : Nat) (hs : Frame fp orig s)  (hdict : Part.dict ∈ fp := by assumption) (hstreams : Part.streams ∈ fp := by assumption) (hsilt : Part.silt ∈ fp := by assumption) (hports : Part.ports ∈ fp := by assumption) (hnet : Part.net ∈ fp := by assumption) :
    Frame fp orig (State.errorSecond s n errs) := by
  unfold State.errorSecond
  repeat' first
    | intro _
    | with_reducible assumption
    | with_reducible apply State.portRetire_frame
    | with_reducible apply State.portDegrade_frame
    | with_reducible apply State.modPort_frame
    | with_reducible apply State.set_frame
    | with_reducible apply State.flag_frame
    | with_reducible apply frame_ite
    | (extract_lets +onlyGivenNames -underBinder x; first | (refine frame_cut (fp := fp) (orig := orig) (x := x) ?_ ?_ <;> first | (intro h0; generalize x = y at h0 ⊢; clear x) | intro h0 | subst x) | (have h0 := Nat.zero_le x; generalize x = y at h0 ⊢; clear h0 x) | subst x)
    | split
    | dsimp only
    | (with_reducible refine frame_mk ?_)

theorem State.recovery_frame {fp : List Part} {orig : State} {s : State} (n : Nat) (hs : Frame fp orig s)  (hdict : Part.dict ∈ fp := by assumption) (hports : Part.ports ∈ fp := by assumption) (hnet : Part.net ∈ fp := by assumption) :
    Frame fp orig (State.recovery s n) := by
  unfold State.recovery
  repeat' first
    | intro _
    | with_reducible assumption
    | with_reducible apply State.linksJudge_frame
    | with_reducible apply State.set_frame
    | with_reducible apply frame_ite
    | split
    | dsimp only
    | (with_reducible refine frame_mk ?_)

theorem State.retrain_frame {fp : List Part} {orig : State} {s : State} (n : Nat) (hs : Frame fp orig s)  (hdict : Part.dict ∈ fp := by assumption) (hstreams : Part.streams ∈ fp := by assumption) (hports : Part.ports ∈ fp := by assumption) (hnet : Part.net ∈ fp := by assumption) :
    Frame fp orig (State.retrain s n) := by
  unfold State.retrain
  repeat' first
    | intro _
    | with_reducible assumption
    | with_reducible apply State.portTrain_frame
    | with_reducible apply State.modPort_frame
    | with_reducible apply frame_ite
    | (extract_lets +onlyGivenNames -underBinder x; first | (refine frame_cut (fp := fp) (orig := orig) (x := x) ?_ ?_ <;> first | (intro h0; generalize x = y at h0 ⊢; clear x) | intro h0 | subst x) | (have h0 := Nat.zero_le x; generalize x = y at h0 ⊢; clear h0 x) | subst x)
    | split
    | dsimp only
    | (with_reducible refine frame_mk ?_)

theorem State.launchAccept_frame {fp : List Part} {orig : State} {s : State} (b : List Nat) (hs : Frame fp orig s)  (hports : Part.ports ∈ fp := by assumption) :
    Frame fp orig (State.launchAccept s b).1 := by
  unfold State.launchAccept
  repeat' first
    | intro _
    | with_reducible assumption
    | with_reducible apply frame_ite_fst
    | (extract_lets +onlyGivenNames -underBinder x; first | (refine frame_cut (fp := fp) (orig := orig) (x := x) ?_ ?_ <;> first | (intro h0; generalize x = y at h0 ⊢; clear x) | intro h0 | subst x) | (have h0 := Nat.zero_le x; generalize x = y at h0 ⊢; clear h0 x) | subst x)
    | dsimp only
    | (with_reducible refine frame_mk ?_)

theorem State.frameLaunch_frame {fp : List Part} {orig : State} {s : State} (n : Nat) (hs : Frame fp orig s)  (hdict : Part.dict ∈ fp := by assumption) (hstreams : Part.streams ∈ fp := by assumption) (hports : Part.ports ∈ fp := by assumption) :
    Frame fp orig (State.frameLaunch s n) := by
  unfold State.frameLaunch
  repeat' first
    | intro _
    | with_reducible assumption
    | with_reducible apply State.launchOutcome_frame
    | with_reducible apply State.count_frame
    | with_reducible apply frame_ite
    | (extract_lets +onlyGivenNames -underBinder x; first | (refine frame_cut (fp := fp) (orig := orig) (x := x) ?_ ?_ <;> first | (intro h0; generalize x = y at h0 ⊢; clear x) | intro h0 | subst x) | (have h0 := Nat.zero_le x; generalize x = y at h0 ⊢; clear h0 x) | subst x)
    | split
    | dsimp only
    | (with_reducible refine frame_mk ?_)

theorem State.portsTick_frame {fp : List Part} {orig : State} {s : State}  (hs : Frame fp orig s)  (hdict : Part.dict ∈ fp := by assumption) (hstreams : Part.streams ∈ fp := by assumption) (hhost : Part.host ∈ fp := by assumption) (hports : Part.ports ∈ fp := by assumption) (hnet : Part.net ∈ fp := by assumption) :
    Frame fp orig (State.portsTick s) := by
  unfold State.portsTick
  repeat' first
    | intro _
    | with_reducible assumption
    | with_reducible apply State.asymTick_frame
    | with_reducible apply State.portTry_frame
    | with_reducible apply State.portTrain_frame
    | with_reducible apply State.portLeave_frame
    | with_reducible apply State.portGo_frame
    | with_reducible apply State.modPort_frame
    | with_reducible apply frame_foldl
    | with_reducible apply frame_foldl_fst
    | with_reducible apply frame_ite
    | (extract_lets +onlyGivenNames -underBinder x; first | (refine frame_cut (fp := fp) (orig := orig) (x := x) ?_ ?_ <;> first | (intro h0; generalize x = y at h0 ⊢; clear x) | intro h0 | subst x) | (have h0 := Nat.zero_le x; generalize x = y at h0 ⊢; clear h0 x) | subst x)
    | split
    | dsimp only
    | (with_reducible refine frame_mk ?_)

theorem State.portDisable_frame {fp : List Part} {orig : State} {s : State} (n : Nat) (hs : Frame fp orig s)  (hdict : Part.dict ∈ fp := by assumption) (hstreams : Part.streams ∈ fp := by assumption) (hports : Part.ports ∈ fp := by assumption) (hnet : Part.net ∈ fp := by assumption) :
    Frame fp orig (State.portDisable s n) := by
  unfold State.portDisable
  repeat' first
    | intro _
    | with_reducible assumption
    | with_reducible apply State.portLeave_frame
    | with_reducible apply State.modPort_frame
    | with_reducible apply frame_ite
    | split
    | dsimp only
    | (with_reducible refine frame_mk ?_)

theorem State.portsStep_frame {fp : List Part} {orig : State} {s : State}  (hs : Frame fp orig s)  (hdict : Part.dict ∈ fp := by assumption) (hstreams : Part.streams ∈ fp := by assumption) (hports : Part.ports ∈ fp := by assumption) :
    Frame fp orig (State.portsStep s) := by
  unfold State.portsStep
  repeat' first
    | intro _
    | with_reducible assumption
    | with_reducible apply State.launchDrop_frame
    | with_reducible apply State.modPort_frame
    | with_reducible apply frame_foldl
    | with_reducible apply frame_foldl_fst
    | (extract_lets +onlyGivenNames -underBinder x; first | (refine frame_cut (fp := fp) (orig := orig) (x := x) ?_ ?_ <;> first | (intro h0; generalize x = y at h0 ⊢; clear x) | intro h0 | subst x) | (have h0 := Nat.zero_le x; generalize x = y at h0 ⊢; clear h0 x) | subst x)
    | dsimp only
    | (with_reducible refine frame_mk ?_)

theorem State.portsReset_frame {fp : List Part} {orig : State} {s : State}  (hs : Frame fp orig s)  (hstreams : Part.streams ∈ fp := by assumption) (hports : Part.ports ∈ fp := by assumption) :
    Frame fp orig (State.portsReset s) := by
  unfold State.portsReset
  repeat' first
    | intro _
    | with_reducible assumption
    | with_reducible apply State.modPort_frame
    | with_reducible apply State.setStream_frame
    | with_reducible apply frame_foldl
    | with_reducible apply frame_foldl_fst
    | (extract_lets +onlyGivenNames -underBinder x; first | (refine frame_cut (fp := fp) (orig := orig) (x := x) ?_ ?_ <;> first | (intro h0; generalize x = y at h0 ⊢; clear x) | intro h0 | subst x) | (have h0 := Nat.zero_le x; generalize x = y at h0 ⊢; clear h0 x) | subst x)
    | dsimp only
    | (with_reducible refine frame_mk ?_)

theorem State.portsHello_frame {fp : List Part} {orig : State} {s : State}  (hs : Frame fp orig s)  (hports : Part.ports ∈ fp := by assumption) :
    Frame fp orig (State.portsHello s) := by
  unfold State.portsHello
  repeat' first
    | intro _
    | with_reducible assumption
    | with_reducible apply State.sendHello_frame
    | with_reducible apply frame_foldl
    | with_reducible apply frame_foldl_fst
    | dsimp only
    | (with_reducible refine frame_mk ?_)

theorem State.portsSelfTest_frame {fp : List Part} {orig : State} {s : State} (failed : List Nat) (hs : Frame fp orig s)  (hdict : Part.dict ∈ fp := by assumption) :
    Frame fp orig (State.portsSelfTest s failed) := by
  unfold State.portsSelfTest
  repeat' first
    | intro _
    | with_reducible assumption
    | with_reducible apply State.set_frame
    | with_reducible apply frame_foldl
    | with_reducible apply frame_foldl_fst
    | with_reducible apply frame_ite
    | split
    | dsimp only
    | (with_reducible refine frame_mk ?_)

end Sys2Proof.Machine
end

