-- ==== Sys2Proof/Laws/FrameNetwork.lean ====
section
/-!
SUPPORT. What the operations leave alone: precision time, the network, search, the time solution and the Lake.
-/

set_option linter.all false
set_option Elab.async false

namespace Sys2Proof.Machine

/-! ### Ptp -/

theorem State.modPtp_frame {fp : List Part} {orig : State} {s : State} (n : Nat) (f : PtpSt → PtpSt) (hs : Frame fp orig s)  (hports : Part.ports ∈ fp := by assumption) :
    Frame fp orig (State.modPtp s n f) := by
  unfold State.modPtp
  repeat' first
    | intro _
    | with_reducible assumption
    | with_reducible apply State.modPort_frame
    | dsimp only
    | (with_reducible refine frame_mk ?_)

theorem State.ptpSend_frame {fp : List Part} {orig : State} {s : State} (n : Nat) (m : PtpMsg) (hs : Frame fp orig s)  (hdict : Part.dict ∈ fp := by assumption) (hports : Part.ports ∈ fp := by assumption) :
    Frame fp orig (State.ptpSend s n m) := by
  unfold State.ptpSend
  repeat' first
    | intro _
    | with_reducible assumption
    | with_reducible apply State.modPtp_frame
    | with_reducible apply State.count_frame
    | dsimp only
    | (with_reducible refine frame_mk ?_)

theorem State.ptpJudge_frame {fp : List Part} {orig : State} {s : State} (n : Nat) (hs : Frame fp orig s)  (hdict : Part.dict ∈ fp := by assumption) (hports : Part.ports ∈ fp := by assumption) :
    Frame fp orig (State.ptpJudge s n) := by
  unfold State.ptpJudge
  repeat' first
    | intro _
    | with_reducible assumption
    | with_reducible apply State.modPtp_frame
    | with_reducible apply State.set_frame
    | with_reducible apply frame_ite
    | (extract_lets +onlyGivenNames -underBinder x; first | (refine frame_cut (fp := fp) (orig := orig) (x := x) ?_ ?_ <;> first | (intro h0; generalize x = y at h0 ⊢; clear x) | intro h0 | subst x) | (have h0 := Nat.zero_le x; generalize x = y at h0 ⊢; clear h0 x) | subst x)
    | split
    | dsimp only
    | (with_reducible refine frame_mk ?_)

theorem State.ptpTick_frame {fp : List Part} {orig : State} {s : State}  (hs : Frame fp orig s)  (hdict : Part.dict ∈ fp := by assumption) (hports : Part.ports ∈ fp := by assumption) :
    Frame fp orig (State.ptpTick s) := by
  unfold State.ptpTick
  repeat' first
    | intro _
    | with_reducible assumption
    | with_reducible apply State.ptpJudge_frame
    | with_reducible apply State.setI_frame
    | with_reducible apply State.set_frame
    | with_reducible apply frame_foldl
    | with_reducible apply frame_foldl_fst
    | with_reducible apply frame_ite
    | (extract_lets +onlyGivenNames -underBinder x; first | (refine frame_cut (fp := fp) (orig := orig) (x := x) ?_ ?_ <;> first | (intro h0; generalize x = y at h0 ⊢; clear x) | intro h0 | subst x) | (have h0 := Nat.zero_le x; generalize x = y at h0 ⊢; clear h0 x) | subst x)
    | split
    | dsimp only
    | (with_reducible refine frame_mk ?_)

theorem State.syncSend_frame {fp : List Part} {orig : State} {s : State} (n : Nat) (hs : Frame fp orig s)  (hdict : Part.dict ∈ fp := by assumption) (hports : Part.ports ∈ fp := by assumption) :
    Frame fp orig (State.syncSend s n) := by
  unfold State.syncSend
  repeat' first
    | intro _
    | with_reducible assumption
    | with_reducible apply State.ptpSend_frame
    | with_reducible apply State.modPtp_frame
    | with_reducible apply frame_ite
    | (extract_lets +onlyGivenNames -underBinder x; first | (refine frame_cut (fp := fp) (orig := orig) (x := x) ?_ ?_ <;> first | (intro h0; generalize x = y at h0 ⊢; clear x) | intro h0 | subst x) | (have h0 := Nat.zero_le x; generalize x = y at h0 ⊢; clear h0 x) | subst x)
    | split
    | dsimp only
    | (with_reducible refine frame_mk ?_)

theorem State.announceSend_frame {fp : List Part} {orig : State} {s : State} (n : Nat) (hs : Frame fp orig s)  (hdict : Part.dict ∈ fp := by assumption) (hfree : Part.free ∈ fp := by assumption) (hports : Part.ports ∈ fp := by assumption) :
    Frame fp orig (State.announceSend s n) := by
  unfold State.announceSend
  repeat' first
    | intro _
    | with_reducible assumption
    | with_reducible apply State.ptpSend_frame
    | with_reducible apply State.modPtp_frame
    | with_reducible apply State.takeFree_frame
    | with_reducible apply frame_ite
    | (extract_lets +onlyGivenNames -underBinder x; first | (refine frame_cut (fp := fp) (orig := orig) (x := x) ?_ ?_ <;> first | (intro h0; generalize x = y at h0 ⊢; clear x) | intro h0 | subst x) | (have h0 := Nat.zero_le x; generalize x = y at h0 ⊢; clear h0 x) | subst x)
    | split
    | dsimp only
    | (with_reducible refine frame_mk ?_)

theorem State.delaySend_frame {fp : List Part} {orig : State} {s : State} (n : Nat) (hs : Frame fp orig s)  (hdict : Part.dict ∈ fp := by assumption) (hports : Part.ports ∈ fp := by assumption) :
    Frame fp orig (State.delaySend s n) := by
  unfold State.delaySend
  repeat' first
    | intro _
    | with_reducible assumption
    | with_reducible apply State.ptpSend_frame
    | with_reducible apply State.modPtp_frame
    | with_reducible apply frame_ite
    | (extract_lets +onlyGivenNames -underBinder x; first | (refine frame_cut (fp := fp) (orig := orig) (x := x) ?_ ?_ <;> first | (intro h0; generalize x = y at h0 ⊢; clear x) | intro h0 | subst x) | (have h0 := Nat.zero_le x; generalize x = y at h0 ⊢; clear h0 x) | subst x)
    | split
    | dsimp only
    | (with_reducible refine frame_mk ?_)

theorem State.ptpHeard_frame {fp : List Part} {orig : State} {s : State} (n : Nat) (kind : Nat) (m : PtpMsg) (f : State → State) (hs : Frame fp orig s) (hf : ∀ t, Frame fp orig t → Frame fp orig (f t)) (hdict : Part.dict ∈ fp := by assumption) :
    Frame fp orig (State.ptpHeard s n kind m f) := by
  unfold State.ptpHeard
  repeat' first
    | intro _
    | with_reducible assumption
    | with_reducible apply State.count_frame
    | with_reducible apply State.flag_frame
    | with_reducible apply hf
    | with_reducible apply frame_ite
    | (extract_lets +onlyGivenNames -underBinder x; first | (refine frame_cut (fp := fp) (orig := orig) (x := x) ?_ ?_ <;> first | (intro h0; generalize x = y at h0 ⊢; clear x) | intro h0 | subst x) | (have h0 := Nat.zero_le x; generalize x = y at h0 ⊢; clear h0 x) | subst x)
    | split
    | dsimp only
    | (with_reducible refine frame_mk ?_)

theorem State.ptpForward_frame {fp : List Part} {orig : State} {s : State} (n : Nat) (m : PtpMsg) (event : Bool) (out : List (Nat × Nat)) (hs : Frame fp orig s)  (hdict : Part.dict ∈ fp := by assumption) (hports : Part.ports ∈ fp := by assumption) :
    Frame fp orig (State.ptpForward s n m event out) := by
  unfold State.ptpForward
  repeat' first
    | intro _
    | with_reducible assumption
    | with_reducible apply State.ptpSend_frame
    | with_reducible apply State.modPtp_frame
    | with_reducible apply frame_foldl
    | with_reducible apply frame_foldl_fst
    | with_reducible apply frame_ite
    | (extract_lets +onlyGivenNames -underBinder x; first | (refine frame_cut (fp := fp) (orig := orig) (x := x) ?_ ?_ <;> first | (intro h0; generalize x = y at h0 ⊢; clear x) | intro h0 | subst x) | (have h0 := Nat.zero_le x; generalize x = y at h0 ⊢; clear h0 x) | subst x)
    | split
    | dsimp only
    | (with_reducible refine frame_mk ?_)

theorem State.syncUse_frame {fp : List Part} {orig : State} {s : State} (n : Nat) (down : Int) (hs : Frame fp orig s)  (hdict : Part.dict ∈ fp := by assumption) (hports : Part.ports ∈ fp := by assumption) :
    Frame fp orig (State.syncUse s n down) := by
  unfold State.syncUse
  repeat' first
    | intro _
    | with_reducible assumption
    | with_reducible apply State.modPtp_frame
    | with_reducible apply State.setI_frame
    | (extract_lets +onlyGivenNames -underBinder x; first | (refine frame_cut (fp := fp) (orig := orig) (x := x) ?_ ?_ <;> first | (intro h0; generalize x = y at h0 ⊢; clear x) | intro h0 | subst x) | (have h0 := Nat.zero_le x; generalize x = y at h0 ⊢; clear h0 x) | subst x)
    | dsimp only
    | (with_reducible refine frame_mk ?_)

theorem State.syncIn_frame {fp : List Part} {orig : State} {s : State} (n : Nat) (m : PtpMsg) (out : List (Nat × Nat)) (hs : Frame fp orig s)  (hdict : Part.dict ∈ fp := by assumption) (hports : Part.ports ∈ fp := by assumption) :
    Frame fp orig (State.syncIn s n m out) := by
  unfold State.syncIn
  repeat' first
    | intro _
    | with_reducible assumption
    | with_reducible apply State.syncUse_frame
    | with_reducible apply State.ptpForward_frame
    | with_reducible apply State.ptpHeard_frame
    | with_reducible apply State.modPtp_frame
    | with_reducible apply frame_ite
    | split
    | dsimp only
    | (with_reducible refine frame_mk ?_)

theorem State.followIn_frame {fp : List Part} {orig : State} {s : State} (n : Nat) (m : PtpMsg) (hs : Frame fp orig s)  (hdict : Part.dict ∈ fp := by assumption) (hports : Part.ports ∈ fp := by assumption) :
    Frame fp orig (State.followIn s n m) := by
  unfold State.followIn
  repeat' first
    | intro _
    | with_reducible assumption
    | with_reducible apply State.syncUse_frame
    | with_reducible apply State.ptpHeard_frame
    | with_reducible apply State.ptpSend_frame
    | with_reducible apply State.modPtp_frame
    | with_reducible apply frame_foldl
    | with_reducible apply frame_foldl_fst
    | with_reducible apply frame_ite
    | split
    | dsimp only
    | (with_reducible refine frame_mk ?_)

theorem State.delayReqIn_frame {fp : List Part} {orig : State} {s : State} (n : Nat) (m : PtpMsg) (out : List (Nat × Nat)) (hs : Frame fp orig s)  (hdict : Part.dict ∈ fp := by assumption) (hports : Part.ports ∈ fp := by assumption) :
    Frame fp orig (State.delayReqIn s n m out) := by
  unfold State.delayReqIn
  repeat' first
    | intro _
    | with_reducible assumption
    | with_reducible apply State.ptpForward_frame
    | with_reducible apply State.ptpHeard_frame
    | with_reducible apply State.ptpSend_frame
    | with_reducible apply frame_ite
    | (extract_lets +onlyGivenNames -underBinder x; first | (refine frame_cut (fp := fp) (orig := orig) (x := x) ?_ ?_ <;> first | (intro h0; generalize x = y at h0 ⊢; clear x) | intro h0 | subst x) | (have h0 := Nat.zero_le x; generalize x = y at h0 ⊢; clear h0 x) | subst x)
    | split
    | dsimp only
    | (with_reducible refine frame_mk ?_)

theorem State.delayRespIn_frame {fp : List Part} {orig : State} {s : State} (n : Nat) (m : PtpMsg) (out : List (Nat × Nat)) (hs : Frame fp orig s)  (hdict : Part.dict ∈ fp := by assumption) (hports : Part.ports ∈ fp := by assumption) :
    Frame fp orig (State.delayRespIn s n m out) := by
  unfold State.delayRespIn
  repeat' first
    | intro _
    | with_reducible assumption
    | with_reducible apply State.ptpForward_frame
    | with_reducible apply State.ptpHeard_frame
    | with_reducible apply State.modPtp_frame
    | with_reducible apply State.setI_frame
    | with_reducible apply frame_ite
    | (extract_lets +onlyGivenNames -underBinder x; first | (refine frame_cut (fp := fp) (orig := orig) (x := x) ?_ ?_ <;> first | (intro h0; generalize x = y at h0 ⊢; clear x) | intro h0 | subst x) | (have h0 := Nat.zero_le x; generalize x = y at h0 ⊢; clear h0 x) | subst x)
    | split
    | dsimp only
    | (with_reducible refine frame_mk ?_)

theorem State.pdelayReqIn_frame {fp : List Part} {orig : State} {s : State} (n : Nat) (m : PtpMsg) (turn : Nat) (out : List (Nat × Nat)) (hs : Frame fp orig s)  (hdict : Part.dict ∈ fp := by assumption) (hports : Part.ports ∈ fp := by assumption) :
    Frame fp orig (State.pdelayReqIn s n m turn out) := by
  unfold State.pdelayReqIn
  repeat' first
    | intro _
    | with_reducible assumption
    | with_reducible apply State.ptpForward_frame
    | with_reducible apply State.ptpHeard_frame
    | with_reducible apply State.ptpSend_frame
    | with_reducible apply frame_ite
    | (extract_lets +onlyGivenNames -underBinder x; first | (refine frame_cut (fp := fp) (orig := orig) (x := x) ?_ ?_ <;> first | (intro h0; generalize x = y at h0 ⊢; clear x) | intro h0 | subst x) | (have h0 := Nat.zero_le x; generalize x = y at h0 ⊢; clear h0 x) | subst x)
    | split
    | dsimp only
    | (with_reducible refine frame_mk ?_)

theorem State.pdelayRespIn_frame {fp : List Part} {orig : State} {s : State} (n : Nat) (m : PtpMsg) (out : List (Nat × Nat)) (hs : Frame fp orig s)  (hdict : Part.dict ∈ fp := by assumption) (hports : Part.ports ∈ fp := by assumption) :
    Frame fp orig (State.pdelayRespIn s n m out) := by
  unfold State.pdelayRespIn
  repeat' first
    | intro _
    | with_reducible assumption
    | with_reducible apply State.ptpForward_frame
    | with_reducible apply State.ptpHeard_frame
    | with_reducible apply State.modPtp_frame
    | with_reducible apply State.setI_frame
    | with_reducible apply frame_ite
    | split
    | dsimp only
    | (with_reducible refine frame_mk ?_)

theorem State.announceIn_frame {fp : List Part} {orig : State} {s : State} (n : Nat) (m : PtpMsg) (out : List (Nat × Nat)) (hs : Frame fp orig s)  (hdict : Part.dict ∈ fp := by assumption) (hports : Part.ports ∈ fp := by assumption) :
    Frame fp orig (State.announceIn s n m out) := by
  unfold State.announceIn
  repeat' first
    | intro _
    | with_reducible assumption
    | with_reducible apply State.ptpForward_frame
    | with_reducible apply State.ptpHeard_frame
    | with_reducible apply State.ptpJudge_frame
    | with_reducible apply State.modPtp_frame
    | with_reducible apply State.flag_frame
    | with_reducible apply frame_foldl
    | with_reducible apply frame_foldl_fst
    | with_reducible apply frame_ite
    | (extract_lets +onlyGivenNames -underBinder x; first | (refine frame_cut (fp := fp) (orig := orig) (x := x) ?_ ?_ <;> first | (intro h0; generalize x = y at h0 ⊢; clear x) | intro h0 | subst x) | (have h0 := Nat.zero_le x; generalize x = y at h0 ⊢; clear h0 x) | subst x)
    | split
    | dsimp only
    | (with_reducible refine frame_mk ?_)

theorem State.announceTimeout_frame {fp : List Part} {orig : State} {s : State} (n : Nat) (hs : Frame fp orig s)  (hdict : Part.dict ∈ fp := by assumption) (hports : Part.ports ∈ fp := by assumption) :
    Frame fp orig (State.announceTimeout s n) := by
  unfold State.announceTimeout
  repeat' first
    | intro _
    | with_reducible assumption
    | with_reducible apply State.ptpJudge_frame
    | with_reducible apply State.modPtp_frame
    | with_reducible apply State.flag_frame
    | with_reducible apply frame_foldl
    | with_reducible apply frame_foldl_fst
    | with_reducible apply frame_ite
    | (extract_lets +onlyGivenNames -underBinder x; first | (refine frame_cut (fp := fp) (orig := orig) (x := x) ?_ ?_ <;> first | (intro h0; generalize x = y at h0 ⊢; clear x) | intro h0 | subst x) | (have h0 := Nat.zero_le x; generalize x = y at h0 ⊢; clear h0 x) | subst x)
    | split
    | dsimp only
    | (with_reducible refine frame_mk ?_)

theorem State.ethIn_frame {fp : List Part} {orig : State} {s : State} (n : Nat) (hs : Frame fp orig s)  (hdict : Part.dict ∈ fp := by assumption) :
    Frame fp orig (State.ethIn s n) := by
  unfold State.ethIn
  repeat' first
    | intro _
    | with_reducible assumption
    | with_reducible apply State.count_frame
    | with_reducible apply frame_ite
    | split
    | dsimp only
    | (with_reducible refine frame_mk ?_)

theorem State.ptpWritten_frame {fp : List Part} {orig : State} {s : State} (index : Nat) (sub : Nat) (hs : Frame fp orig s)  (hdict : Part.dict ∈ fp := by assumption) (hports : Part.ports ∈ fp := by assumption) :
    Frame fp orig (State.ptpWritten s index sub) := by
  unfold State.ptpWritten
  repeat' first
    | intro _
    | with_reducible assumption
    | with_reducible apply State.ptpTick_frame
    | with_reducible apply State.ptpJudge_frame
    | with_reducible apply State.setI_frame
    | with_reducible apply State.set_frame
    | with_reducible apply frame_foldl
    | with_reducible apply frame_foldl_fst
    | with_reducible apply frame_ite
    | (extract_lets +onlyGivenNames -underBinder x; first | (refine frame_cut (fp := fp) (orig := orig) (x := x) ?_ ?_ <;> first | (intro h0; generalize x = y at h0 ⊢; clear x) | intro h0 | subst x) | (have h0 := Nat.zero_le x; generalize x = y at h0 ⊢; clear h0 x) | subst x)
    | split
    | dsimp only
    | (with_reducible refine frame_mk ?_)

theorem State.ptpReset_frame {fp : List Part} {orig : State} {s : State}  (hs : Frame fp orig s)  (hports : Part.ports ∈ fp := by assumption) :
    Frame fp orig (State.ptpReset s) := by
  unfold State.ptpReset
  repeat' first
    | intro _
    | with_reducible assumption
    | with_reducible apply State.modPtp_frame
    | with_reducible apply frame_foldl
    | with_reducible apply frame_foldl_fst
    | dsimp only
    | (with_reducible refine frame_mk ?_)

/-! ### NetIn -/

theorem State.inboxTake_frame {fp : List Part} {orig : State} {s t : State} {test : List Nat → Bool} {e : InFrame}
    (h : s.inboxTake test = some (e, t)) (hs : Frame fp orig s) (hnet : Part.net ∈ fp := by assumption) : Frame fp orig t := by
  unfold State.inboxTake at h
  split at h
  · exact absurd h (by simp)
  · have h2 := (Prod.mk.inj (Option.some.inj h)).2
    subst h2
    exact frame_mk hs

theorem State.netOpen_frame {fp : List Part} {orig : State} {s : State} (e : InFrame) (hs : Frame fp orig s)  (hdict : Part.dict ∈ fp := by assumption) (hnet : Part.net ∈ fp := by assumption) :
    Frame fp orig (State.netOpen s e).2 := by
  unfold State.netOpen
  repeat' first
    | intro _
    | with_reducible assumption
    | with_reducible apply State.netDrop_frame
    | with_reducible apply State.authFail_frame
    | with_reducible apply State.counterSee_frame
    | with_reducible apply frame_ite
    | with_reducible apply frame_ite_snd
    | (extract_lets +onlyGivenNames -underBinder x; first | (refine frame_cut (fp := fp) (orig := orig) (x := x) ?_ ?_ <;> first | (intro h0; generalize x = y at h0 ⊢; clear x) | intro h0 | subst x) | (have h0 := Nat.zero_le x; generalize x = y at h0 ⊢; clear h0 x) | subst x)
    | split
    | dsimp only
    | (with_reducible refine frame_mk ?_)

theorem State.netTake_frame {fp : List Part} {orig : State} {s : State} (kind : Nat) (test : List Nat → Bool) (hs : Frame fp orig s)  (hdict : Part.dict ∈ fp := by assumption) (hnet : Part.net ∈ fp := by assumption) :
    Frame fp orig (State.netTake s kind test).2 := by
  unfold State.netTake
  repeat' first
    | intro _
    | with_reducible assumption
    | with_reducible apply State.netOpen_frame
    | (with_reducible refine State.inboxTake_frame (by with_reducible assumption) ?_)
    | with_reducible apply frame_ite_snd
    | (with_reducible refine frame_fst (by with_reducible assumption) ?_)
    | (with_reducible refine frame_snd (by with_reducible assumption) ?_)
    | split
    | dsimp only
    | (with_reducible refine frame_mk ?_)

theorem State.netBad_frame {fp : List Part} {orig : State} {s : State}  (hs : Frame fp orig s)  (hdict : Part.dict ∈ fp := by assumption) :
    Frame fp orig (State.netBad s) := by
  unfold State.netBad
  repeat' first
    | intro _
    | with_reducible assumption
    | with_reducible apply State.netDrop_frame
    | dsimp only
    | (with_reducible refine frame_mk ?_)

theorem State.idNext_frame {fp : List Part} {orig : State} {s : State}  (hs : Frame fp orig s)  (hdict : Part.dict ∈ fp := by assumption) :
    Frame fp orig (State.idNext s) := by
  unfold State.idNext
  repeat' first
    | intro _
    | with_reducible assumption
    | with_reducible apply State.set_frame
    | with_reducible apply frame_ite
    | (extract_lets +onlyGivenNames -underBinder x; first | (refine frame_cut (fp := fp) (orig := orig) (x := x) ?_ ?_ <;> first | (intro h0; generalize x = y at h0 ⊢; clear x) | intro h0 | subst x) | (have h0 := Nat.zero_le x; generalize x = y at h0 ⊢; clear h0 x) | subst x)
    | split
    | dsimp only
    | (with_reducible refine frame_mk ?_)

theorem State.idSkip_frame {fp : List Part} {orig : State} {s : State} (fuel : Nat) (hs : Frame fp orig s) (hdict : Part.dict ∈ fp := by assumption) :
    Frame fp orig (State.idSkip s fuel) := by
  induction fuel generalizing s with
  | zero => exact hs
  | succ k ih =>
    unfold State.idSkip
    repeat' first
    | with_reducible assumption
    | with_reducible apply ih
    | with_reducible apply State.idNext_frame
    | (extract_lets +onlyGivenNames -underBinder x; first | (refine frame_cut (fp := fp) (orig := orig) (x := x) ?_ ?_ <;> first | (intro h0; generalize x = y at h0 ⊢; clear x) | intro h0 | subst x) | (have h0 := Nat.zero_le x; generalize x = y at h0 ⊢; clear h0 x) | subst x)
    | intro _
    | with_reducible apply frame_foldl
    | with_reducible apply frame_ite
    | split
    | dsimp only
    | (with_reducible refine frame_mk ?_)

theorem State.idTake_frame {fp : List Part} {orig : State} {s : State}  (hs : Frame fp orig s)  (hdict : Part.dict ∈ fp := by assumption) :
    Frame fp orig (State.idTake s).2 := by
  unfold State.idTake
  repeat' first
    | intro _
    | with_reducible assumption
    | with_reducible apply State.idSkip_frame
    | with_reducible apply State.idNext_frame
    | with_reducible apply frame_ite_snd
    | (extract_lets +onlyGivenNames -underBinder x; first | (refine frame_cut (fp := fp) (orig := orig) (x := x) ?_ ?_ <;> first | (intro h0; generalize x = y at h0 ⊢; clear x) | intro h0 | subst x) | (have h0 := Nat.zero_le x; generalize x = y at h0 ⊢; clear h0 x) | subst x)
    | dsimp only
    | (with_reducible refine frame_mk ?_)

theorem State.staleDiscard_frame {fp : List Part} {orig : State} {s : State}  (hs : Frame fp orig s)  (hdict : Part.dict ∈ fp := by assumption) :
    Frame fp orig (State.staleDiscard s) := by
  unfold State.staleDiscard
  repeat' first
    | intro _
    | with_reducible assumption
    | with_reducible apply State.flag_frame
    | dsimp only
    | (with_reducible refine frame_mk ?_)

/-! ### Messages -/

theorem State.journalSpend_frame {fp : List Part} {orig : State} {s : State} (msgs : Nat) (bytes : Nat) (hs : Frame fp orig s)  (hnet : Part.net ∈ fp := by assumption) :
    Frame fp orig (State.journalSpend s msgs bytes) := by
  unfold State.journalSpend
  repeat' first
    | intro _
    | with_reducible assumption
    | dsimp only
    | (with_reducible refine frame_mk ?_)

theorem State.journalSync_frame {fp : List Part} {orig : State} {s : State}  (hs : Frame fp orig s)  (hdict : Part.dict ∈ fp := by assumption) :
    Frame fp orig (State.journalSync s) := by
  unfold State.journalSync
  repeat' first
    | intro _
    | with_reducible assumption
    | with_reducible apply State.set_frame
    | dsimp only
    | (with_reducible refine frame_mk ?_)

theorem State.journalRefused_frame {fp : List Part} {orig : State} {s : State}  (hs : Frame fp orig s)  (hdict : Part.dict ∈ fp := by assumption) :
    Frame fp orig (State.journalRefused s) := by
  unfold State.journalRefused
  repeat' first
    | intro _
    | with_reducible assumption
    | with_reducible apply State.flag_frame
    | dsimp only
    | (with_reducible refine frame_mk ?_)

theorem State.copySend_frame {fp : List Part} {orig : State} {s : State} (e : SrcEnt) (c : Copy) (hs : Frame fp orig s)  (hdict : Part.dict ∈ fp := by assumption) (hports : Part.ports ∈ fp := by assumption) (hnet : Part.net ∈ fp := by assumption) :
    Frame fp orig (State.copySend s e c) := by
  unfold State.copySend
  repeat' first
    | intro _
    | with_reducible assumption
    | with_reducible apply State.netSend_frame
    | with_reducible apply frame_ite
    | (extract_lets +onlyGivenNames -underBinder x; first | (refine frame_cut (fp := fp) (orig := orig) (x := x) ?_ ?_ <;> first | (intro h0; generalize x = y at h0 ⊢; clear x) | intro h0 | subst x) | (have h0 := Nat.zero_le x; generalize x = y at h0 ⊢; clear h0 x) | subst x)
    | split
    | dsimp only
    | (with_reducible refine frame_mk ?_)

theorem State.modCopies_frame {fp : List Part} {orig : State} {s : State} (epoch : Nat) (number : Nat) (f : Copy → Copy) (hs : Frame fp orig s)  (hnet : Part.net ∈ fp := by assumption) :
    Frame fp orig (State.modCopies s epoch number f) := by
  unfold State.modCopies
  repeat' first
    | intro _
    | with_reducible assumption
    | with_reducible apply frame_ite
    | split
    | dsimp only
    | (with_reducible refine frame_mk ?_)

theorem State.entryAccept_frame {fp : List Part} {orig : State} {s : State} (e : SrcEnt) (hs : Frame fp orig s)  (hdict : Part.dict ∈ fp := by assumption) (hports : Part.ports ∈ fp := by assumption) (hnet : Part.net ∈ fp := by assumption) :
    Frame fp orig (State.entryAccept s e) := by
  unfold State.entryAccept
  repeat' first
    | intro _
    | with_reducible assumption
    | with_reducible apply State.copySend_frame
    | with_reducible apply State.journalSync_frame
    | with_reducible apply State.journalSpend_frame
    | with_reducible apply State.set_frame
    | with_reducible apply State.bump_frame
    | with_reducible apply frame_foldl
    | with_reducible apply frame_foldl_fst
    | (extract_lets +onlyGivenNames -underBinder x; first | (refine frame_cut (fp := fp) (orig := orig) (x := x) ?_ ?_ <;> first | (intro h0; generalize x = y at h0 ⊢; clear x) | intro h0 | subst x) | (have h0 := Nat.zero_le x; generalize x = y at h0 ⊢; clear h0 x) | subst x)
    | dsimp only
    | (with_reducible refine frame_mk ?_)

theorem State.channelOutcome_frame {fp : List Part} {orig : State} {s : State} (e : SrcEnt) (k : Nat) (outcome : Nat) (hs : Frame fp orig s)  (hdict : Part.dict ∈ fp := by assumption) :
    Frame fp orig (State.channelOutcome s e k outcome) := by
  unfold State.channelOutcome
  repeat' first
    | intro _
    | with_reducible assumption
    | with_reducible apply State.set_frame
    | with_reducible apply frame_ite
    | (extract_lets +onlyGivenNames -underBinder x; first | (refine frame_cut (fp := fp) (orig := orig) (x := x) ?_ ?_ <;> first | (intro h0; generalize x = y at h0 ⊢; clear x) | intro h0 | subst x) | (have h0 := Nat.zero_le x; generalize x = y at h0 ⊢; clear h0 x) | subst x)
    | split
    | dsimp only
    | (with_reducible refine frame_mk ?_)

theorem State.entryEnd_frame {fp : List Part} {orig : State} {s : State} (e : SrcEnt) (hs : Frame fp orig s)  (hdict : Part.dict ∈ fp := by assumption) (hports : Part.ports ∈ fp := by assumption) (hnet : Part.net ∈ fp := by assumption) :
    Frame fp orig (State.entryEnd s e) := by
  unfold State.entryEnd
  repeat' first
    | intro _
    | with_reducible assumption
    | with_reducible apply State.journalSync_frame
    | with_reducible apply State.netSend_frame
    | with_reducible apply frame_foldl
    | with_reducible apply frame_foldl_fst
    | with_reducible apply frame_ite
    | (extract_lets +onlyGivenNames -underBinder x; first | (refine frame_cut (fp := fp) (orig := orig) (x := x) ?_ ?_ <;> first | (intro h0; generalize x = y at h0 ⊢; clear x) | intro h0 | subst x) | (have h0 := Nat.zero_le x; generalize x = y at h0 ⊢; clear h0 x) | subst x)
    | split
    | dsimp only
    | (with_reducible refine frame_mk ?_)

theorem State.copyClose_frame {fp : List Part} {orig : State} {s : State} (epoch : Nat) (number : Nat) (channel : Nat) (outcome : Nat) (hs : Frame fp orig s)  (hdict : Part.dict ∈ fp := by assumption) (hstreams : Part.streams ∈ fp := by assumption) (hports : Part.ports ∈ fp := by assumption) (hnet : Part.net ∈ fp := by assumption) :
    Frame fp orig (State.copyClose s epoch number channel outcome) := by
  unfold State.copyClose
  repeat' first
    | intro _
    | with_reducible assumption
    | with_reducible apply State.entryEnd_frame
    | with_reducible apply State.channelOutcome_frame
    | with_reducible apply State.modCopies_frame
    | with_reducible apply State.append_frame
    | with_reducible apply State.set_frame
    | with_reducible apply State.flag_frame
    | with_reducible apply frame_ite
    | (extract_lets +onlyGivenNames -underBinder x; first | (refine frame_cut (fp := fp) (orig := orig) (x := x) ?_ ?_ <;> first | (intro h0; generalize x = y at h0 ⊢; clear x) | intro h0 | subst x) | (have h0 := Nat.zero_le x; generalize x = y at h0 ⊢; clear h0 x) | subst x)
    | split
    | dsimp only
    | (with_reducible refine frame_mk ?_)

theorem State.openRefused_frame {fp : List Part} {orig : State} {s : State} (e : SrcEnt) (k : Nat) (hs : Frame fp orig s)  (hdict : Part.dict ∈ fp := by assumption) (hnet : Part.net ∈ fp := by assumption) :
    Frame fp orig (State.openRefused s e k) := by
  unfold State.openRefused
  repeat' first
    | intro _
    | with_reducible assumption
    | with_reducible apply State.journalSync_frame
    | with_reducible apply State.set_frame
    | with_reducible apply frame_ite
    | (extract_lets +onlyGivenNames -underBinder x; first | (refine frame_cut (fp := fp) (orig := orig) (x := x) ?_ ?_ <;> first | (intro h0; generalize x = y at h0 ⊢; clear x) | intro h0 | subst x) | (have h0 := Nat.zero_le x; generalize x = y at h0 ⊢; clear h0 x) | subst x)
    | split
    | dsimp only
    | (with_reducible refine frame_mk ?_)

theorem State.channelCommand_frame {fp : List Part} {orig : State} {s : State} (k : Nat) (v : Nat) (hs : Frame fp orig s)  (hdict : Part.dict ∈ fp := by assumption) (hreply : Part.reply ∈ fp := by assumption) (hports : Part.ports ∈ fp := by assumption) (hnet : Part.net ∈ fp := by assumption) :
    Frame fp orig (State.channelCommand s k v) := by
  unfold State.channelCommand
  repeat' first
    | intro _
    | with_reducible assumption
    | with_reducible apply State.entryAccept_frame
    | with_reducible apply State.journalRefused_frame
    | with_reducible apply State.idTake_frame
    | with_reducible apply State.answer_frame
    | with_reducible apply State.set_frame
    | with_reducible apply frame_ite
    | (extract_lets +onlyGivenNames -underBinder x; first | (refine frame_cut (fp := fp) (orig := orig) (x := x) ?_ ?_ <;> first | (intro h0; generalize x = y at h0 ⊢; clear x) | intro h0 | subst x) | (have h0 := Nat.zero_le x; generalize x = y at h0 ⊢; clear h0 x) | subst x)
    | (with_reducible refine frame_fst (by with_reducible assumption) ?_)
    | (with_reducible refine frame_snd (by with_reducible assumption) ?_)
    | split
    | dsimp only
    | (with_reducible refine frame_mk ?_)

theorem State.subAccept_frame {fp : List Part} {orig : State} {s : State} (e : SrcEnt) (hs : Frame fp orig s)  (hdict : Part.dict ∈ fp := by assumption) (hreply : Part.reply ∈ fp := by assumption) (hports : Part.ports ∈ fp := by assumption) (hnet : Part.net ∈ fp := by assumption) :
    Frame fp orig (State.subAccept s e) := by
  unfold State.subAccept
  repeat' first
    | intro _
    | with_reducible assumption
    | with_reducible apply State.entryAccept_frame
    | with_reducible apply State.answer_frame
    | with_reducible apply State.count_frame
    | with_reducible apply State.set_frame
    | with_reducible apply frame_foldl
    | with_reducible apply frame_foldl_fst
    | with_reducible apply frame_ite
    | (extract_lets +onlyGivenNames -underBinder x; first | (refine frame_cut (fp := fp) (orig := orig) (x := x) ?_ ?_ <;> first | (intro h0; generalize x = y at h0 ⊢; clear x) | intro h0 | subst x) | (have h0 := Nat.zero_le x; generalize x = y at h0 ⊢; clear h0 x) | subst x)
    | split
    | dsimp only
    | (with_reducible refine frame_mk ?_)

theorem State.subTake_frame {fp : List Part} {orig : State} {s : State} (ctx : Ctx) (b : List Nat) (hs : Frame fp orig s)  (hdict : Part.dict ∈ fp := by assumption) (hreply : Part.reply ∈ fp := by assumption) (hports : Part.ports ∈ fp := by assumption) (hnet : Part.net ∈ fp := by assumption) :
    Frame fp orig (State.subTake s ctx b) := by
  unfold State.subTake
  repeat' first
    | intro _
    | with_reducible assumption
    | with_reducible apply State.subAccept_frame
    | with_reducible apply State.idTake_frame
    | with_reducible apply State.netSend_frame
    | with_reducible apply frame_foldl
    | with_reducible apply frame_foldl_fst
    | with_reducible apply frame_ite
    | (extract_lets +onlyGivenNames -underBinder x; first | (refine frame_cut (fp := fp) (orig := orig) (x := x) ?_ ?_ <;> first | (intro h0; generalize x = y at h0 ⊢; clear x) | intro h0 | subst x) | (have h0 := Nat.zero_le x; generalize x = y at h0 ⊢; clear h0 x) | subst x)
    | (with_reducible refine frame_fst (by with_reducible assumption) ?_)
    | (with_reducible refine frame_snd (by with_reducible assumption) ?_)
    | split
    | dsimp only
    | (with_reducible refine frame_mk ?_)

theorem State.subDrop_frame {fp : List Part} {orig : State} {s : State} (w : SubWait) (status : Nat) (hs : Frame fp orig s)  (hdict : Part.dict ∈ fp := by assumption) (hreply : Part.reply ∈ fp := by assumption) (hports : Part.ports ∈ fp := by assumption) (hnet : Part.net ∈ fp := by assumption) :
    Frame fp orig (State.subDrop s w status) := by
  unfold State.subDrop
  repeat' first
    | intro _
    | with_reducible assumption
    | with_reducible apply State.netSend_frame
    | with_reducible apply State.answer_frame
    | with_reducible apply frame_foldl
    | with_reducible apply frame_foldl_fst
    | with_reducible apply frame_ite
    | (extract_lets +onlyGivenNames -underBinder x; first | (refine frame_cut (fp := fp) (orig := orig) (x := x) ?_ ?_ <;> first | (intro h0; generalize x = y at h0 ⊢; clear x) | intro h0 | subst x) | (have h0 := Nat.zero_le x; generalize x = y at h0 ⊢; clear h0 x) | subst x)
    | split
    | dsimp only
    | (with_reducible refine frame_mk ?_)

theorem State.subFinish_frame {fp : List Part} {orig : State} {s : State} (w : SubWait) (hs : Frame fp orig s)  (hdict : Part.dict ∈ fp := by assumption) (hstreams : Part.streams ∈ fp := by assumption) (hreply : Part.reply ∈ fp := by assumption) (hports : Part.ports ∈ fp := by assumption) (hnet : Part.net ∈ fp := by assumption) :
    Frame fp orig (State.subFinish s w) := by
  unfold State.subFinish
  repeat' first
    | intro _
    | with_reducible assumption
    | with_reducible apply State.subDrop_frame
    | with_reducible apply State.subAccept_frame
    | with_reducible apply State.copyClose_frame
    | with_reducible apply frame_foldl
    | with_reducible apply frame_foldl_fst
    | with_reducible apply frame_ite
    | (extract_lets +onlyGivenNames -underBinder x; first | (refine frame_cut (fp := fp) (orig := orig) (x := x) ?_ ?_ <;> first | (intro h0; generalize x = y at h0 ⊢; clear x) | intro h0 | subst x) | (have h0 := Nat.zero_le x; generalize x = y at h0 ⊢; clear h0 x) | subst x)
    | split
    | dsimp only
    | (with_reducible refine frame_mk ?_)

theorem State.keeperHeld_frame {fp : List Part} {orig : State} {s : State}  (hs : Frame fp orig s)  (hdict : Part.dict ∈ fp := by assumption) (hstreams : Part.streams ∈ fp := by assumption) (hreply : Part.reply ∈ fp := by assumption) (hports : Part.ports ∈ fp := by assumption) (hnet : Part.net ∈ fp := by assumption) :
    Frame fp orig (State.keeperHeld s) := by
  unfold State.keeperHeld
  repeat' first
    | intro _
    | with_reducible assumption
    | with_reducible apply State.subFinish_frame
    | with_reducible apply State.staleDiscard_frame
    | with_reducible apply State.netBad_frame
    | with_reducible apply State.netTake_frame
    | with_reducible apply frame_ite
    | (extract_lets +onlyGivenNames -underBinder x; first | (refine frame_cut (fp := fp) (orig := orig) (x := x) ?_ ?_ <;> first | (intro h0; generalize x = y at h0 ⊢; clear x) | intro h0 | subst x) | (have h0 := Nat.zero_le x; generalize x = y at h0 ⊢; clear h0 x) | subst x)
    | (with_reducible refine frame_fst (by with_reducible assumption) ?_)
    | (with_reducible refine frame_snd (by with_reducible assumption) ?_)
    | split
    | dsimp only
    | (with_reducible refine frame_mk ?_)

theorem State.keeperTimeout_frame {fp : List Part} {orig : State} {s : State}  (hs : Frame fp orig s)  (hdict : Part.dict ∈ fp := by assumption) (hreply : Part.reply ∈ fp := by assumption) (hports : Part.ports ∈ fp := by assumption) (hnet : Part.net ∈ fp := by assumption) :
    Frame fp orig (State.keeperTimeout s) := by
  unfold State.keeperTimeout
  repeat' first
    | intro _
    | with_reducible assumption
    | with_reducible apply State.subDrop_frame
    | with_reducible apply frame_ite
    | split
    | dsimp only
    | (with_reducible refine frame_mk ?_)

theorem State.recvSet_frame {fp : List Part} {orig : State} {s : State} (source : Nat) (channel : Nat) (next : Nat) (hs : Frame fp orig s)  (hnet : Part.net ∈ fp := by assumption) :
    Frame fp orig (State.recvSet s source channel next) := by
  unfold State.recvSet
  repeat' first
    | intro _
    | with_reducible assumption
    | (extract_lets +onlyGivenNames -underBinder x; first | (refine frame_cut (fp := fp) (orig := orig) (x := x) ?_ ?_ <;> first | (intro h0; generalize x = y at h0 ⊢; clear x) | intro h0 | subst x) | (have h0 := Nat.zero_le x; generalize x = y at h0 ⊢; clear h0 x) | subst x)
    | split
    | dsimp only
    | (with_reducible refine frame_mk ?_)

theorem State.recvFree_frame {fp : List Part} {orig : State} {s : State} (source : Nat) (channel : Nat) (hs : Frame fp orig s)  (hnet : Part.net ∈ fp := by assumption) :
    Frame fp orig (State.recvFree s source channel) := by
  unfold State.recvFree
  repeat' first
    | intro _
    | with_reducible assumption
    | with_reducible apply frame_ite
    | split
    | dsimp only
    | (with_reducible refine frame_mk ?_)

theorem State.msgAck_frame {fp : List Part} {orig : State} {s : State} (f : NetFrame) (m : Msg) (status : Nat) (hs : Frame fp orig s)  (hdict : Part.dict ∈ fp := by assumption) (hports : Part.ports ∈ fp := by assumption) (hnet : Part.net ∈ fp := by assumption) :
    Frame fp orig (State.msgAck s f m status) := by
  unfold State.msgAck
  repeat' first
    | intro _
    | with_reducible assumption
    | with_reducible apply State.netSend_frame
    | with_reducible apply frame_ite
    | split
    | dsimp only
    | (with_reducible refine frame_mk ?_)

theorem State.deliveryMove_frame {fp : List Part} {orig : State} {s : State}  (hs : Frame fp orig s)  (hnet : Part.net ∈ fp := by assumption) :
    Frame fp orig (State.deliveryMove s) := by
  unfold State.deliveryMove
  repeat' first
    | intro _
    | with_reducible assumption
    | with_reducible apply frame_ite
    | (extract_lets +onlyGivenNames -underBinder x; first | (refine frame_cut (fp := fp) (orig := orig) (x := x) ?_ ?_ <;> first | (intro h0; generalize x = y at h0 ⊢; clear x) | intro h0 | subst x) | (have h0 := Nat.zero_le x; generalize x = y at h0 ⊢; clear h0 x) | subst x)
    | split
    | dsimp only
    | (with_reducible refine frame_mk ?_)

theorem State.receiptTake_frame {fp : List Part} {orig : State} {s : State} (f : NetFrame) (m : Msg) (hs : Frame fp orig s)  (hdict : Part.dict ∈ fp := by assumption) (hports : Part.ports ∈ fp := by assumption) (hnet : Part.net ∈ fp := by assumption) :
    Frame fp orig (State.receiptTake s f m) := by
  unfold State.receiptTake
  repeat' first
    | intro _
    | with_reducible assumption
    | with_reducible apply State.deliveryMove_frame
    | with_reducible apply State.msgAck_frame
    | with_reducible apply State.recvSet_frame
    | with_reducible apply State.journalRefused_frame
    | with_reducible apply State.journalSync_frame
    | with_reducible apply State.journalSpend_frame
    | with_reducible apply State.flag_frame
    | with_reducible apply frame_ite
    | (extract_lets +onlyGivenNames -underBinder x; first | (refine frame_cut (fp := fp) (orig := orig) (x := x) ?_ ?_ <;> first | (intro h0; generalize x = y at h0 ⊢; clear x) | intro h0 | subst x) | (have h0 := Nat.zero_le x; generalize x = y at h0 ⊢; clear h0 x) | subst x)
    | split
    | dsimp only
    | (with_reducible refine frame_mk ?_)

theorem State.msgIn_frame {fp : List Part} {orig : State} {s : State}  (hs : Frame fp orig s)  (hdict : Part.dict ∈ fp := by assumption) (hports : Part.ports ∈ fp := by assumption) (hnet : Part.net ∈ fp := by assumption) :
    Frame fp orig (State.msgIn s) := by
  unfold State.msgIn
  repeat' first
    | intro _
    | with_reducible assumption
    | with_reducible apply State.receiptTake_frame
    | with_reducible apply State.msgAck_frame
    | with_reducible apply State.recvFree_frame
    | with_reducible apply State.recvSet_frame
    | with_reducible apply State.journalRefused_frame
    | with_reducible apply State.journalSync_frame
    | with_reducible apply State.netBad_frame
    | with_reducible apply State.netTake_frame
    | with_reducible apply State.flag_frame
    | with_reducible apply frame_ite
    | (extract_lets +onlyGivenNames -underBinder x; first | (refine frame_cut (fp := fp) (orig := orig) (x := x) ?_ ?_ <;> first | (intro h0; generalize x = y at h0 ⊢; clear x) | intro h0 | subst x) | (have h0 := Nat.zero_le x; generalize x = y at h0 ⊢; clear h0 x) | subst x)
    | (with_reducible refine frame_fst (by with_reducible assumption) ?_)
    | (with_reducible refine frame_snd (by with_reducible assumption) ?_)
    | split
    | dsimp only
    | (with_reducible refine frame_mk ?_)

theorem State.ackIn_frame {fp : List Part} {orig : State} {s : State}  (hs : Frame fp orig s)  (hdict : Part.dict ∈ fp := by assumption) (hstreams : Part.streams ∈ fp := by assumption) (hports : Part.ports ∈ fp := by assumption) (hnet : Part.net ∈ fp := by assumption) :
    Frame fp orig (State.ackIn s) := by
  unfold State.ackIn
  repeat' first
    | intro _
    | with_reducible assumption
    | with_reducible apply State.openRefused_frame
    | with_reducible apply State.copyClose_frame
    | with_reducible apply State.modCopies_frame
    | with_reducible apply State.journalSync_frame
    | with_reducible apply State.staleDiscard_frame
    | with_reducible apply State.netBad_frame
    | with_reducible apply State.netTake_frame
    | with_reducible apply frame_ite
    | (extract_lets +onlyGivenNames -underBinder x; first | (refine frame_cut (fp := fp) (orig := orig) (x := x) ?_ ?_ <;> first | (intro h0; generalize x = y at h0 ⊢; clear x) | intro h0 | subst x) | (have h0 := Nat.zero_le x; generalize x = y at h0 ⊢; clear h0 x) | subst x)
    | (with_reducible refine frame_fst (by with_reducible assumption) ?_)
    | (with_reducible refine frame_snd (by with_reducible assumption) ?_)
    | split
    | dsimp only
    | (with_reducible refine frame_mk ?_)

theorem State.keeperSend_frame {fp : List Part} {orig : State} {s : State} (k : KeeperEnt) (hs : Frame fp orig s)  (hdict : Part.dict ∈ fp := by assumption) (hports : Part.ports ∈ fp := by assumption) (hnet : Part.net ∈ fp := by assumption) :
    Frame fp orig (State.keeperSend s k) := by
  unfold State.keeperSend
  repeat' first
    | intro _
    | with_reducible assumption
    | with_reducible apply State.netRoute_frame
    | with_reducible apply State.loopBack_frame
    | with_reducible apply State.netFrame_frame
    | with_reducible apply frame_ite
    | (extract_lets +onlyGivenNames -underBinder x; first | (refine frame_cut (fp := fp) (orig := orig) (x := x) ?_ ?_ <;> first | (intro h0; generalize x = y at h0 ⊢; clear x) | intro h0 | subst x) | (have h0 := Nat.zero_le x; generalize x = y at h0 ⊢; clear h0 x) | subst x)
    | (with_reducible refine frame_fst (by with_reducible assumption) ?_)
    | (with_reducible refine frame_snd (by with_reducible assumption) ?_)
    | split
    | dsimp only
    | (with_reducible refine frame_mk ?_)

theorem State.msgResend_frame {fp : List Part} {orig : State} {s : State} (i : Nat) (hs : Frame fp orig s)  (hdict : Part.dict ∈ fp := by assumption) (hports : Part.ports ∈ fp := by assumption) (hnet : Part.net ∈ fp := by assumption) :
    Frame fp orig (State.msgResend s i) := by
  unfold State.msgResend
  repeat' first
    | intro _
    | with_reducible assumption
    | with_reducible apply State.keeperSend_frame
    | with_reducible apply State.modCopies_frame
    | with_reducible apply State.copySend_frame
    | with_reducible apply frame_foldl
    | with_reducible apply frame_foldl_fst
    | with_reducible apply frame_ite
    | (extract_lets +onlyGivenNames -underBinder x; first | (refine frame_cut (fp := fp) (orig := orig) (x := x) ?_ ?_ <;> first | (intro h0; generalize x = y at h0 ⊢; clear x) | intro h0 | subst x) | (have h0 := Nat.zero_le x; generalize x = y at h0 ⊢; clear h0 x) | subst x)
    | split
    | dsimp only
    | (with_reducible refine frame_mk ?_)

theorem State.channelBroken_frame {fp : List Part} {orig : State} {s : State} (k : Nat) (hs : Frame fp orig s)  (hdict : Part.dict ∈ fp := by assumption) (hstreams : Part.streams ∈ fp := by assumption) (hports : Part.ports ∈ fp := by assumption) (hnet : Part.net ∈ fp := by assumption) :
    Frame fp orig (State.channelBroken s k) := by
  unfold State.channelBroken
  repeat' first
    | intro _
    | with_reducible assumption
    | with_reducible apply State.copyClose_frame
    | with_reducible apply State.set_frame
    | with_reducible apply frame_foldl
    | with_reducible apply frame_foldl_fst
    | with_reducible apply frame_ite
    | (extract_lets +onlyGivenNames -underBinder x; first | (refine frame_cut (fp := fp) (orig := orig) (x := x) ?_ ?_ <;> first | (intro h0; generalize x = y at h0 ⊢; clear x) | intro h0 | subst x) | (have h0 := Nat.zero_le x; generalize x = y at h0 ⊢; clear h0 x) | subst x)
    | split
    | dsimp only
    | (with_reducible refine frame_mk ?_)

theorem State.keeperHold_frame {fp : List Part} {orig : State} {s : State} (dest : Nat) (hs : Frame fp orig s)  (hdict : Part.dict ∈ fp := by assumption) (hports : Part.ports ∈ fp := by assumption) (hnet : Part.net ∈ fp := by assumption) :
    Frame fp orig (State.keeperHold s dest) := by
  unfold State.keeperHold
  repeat' first
    | intro _
    | with_reducible assumption
    | with_reducible apply State.journalSync_frame
    | with_reducible apply State.journalSpend_frame
    | with_reducible apply State.netBad_frame
    | with_reducible apply State.netTake_frame
    | with_reducible apply State.netSend_frame
    | with_reducible apply frame_ite
    | (extract_lets +onlyGivenNames -underBinder x; first | (refine frame_cut (fp := fp) (orig := orig) (x := x) ?_ ?_ <;> first | (intro h0; generalize x = y at h0 ⊢; clear x) | intro h0 | subst x) | (have h0 := Nat.zero_le x; generalize x = y at h0 ⊢; clear h0 x) | subst x)
    | (with_reducible refine frame_fst (by with_reducible assumption) ?_)
    | (with_reducible refine frame_snd (by with_reducible assumption) ?_)
    | split
    | dsimp only
    | (with_reducible refine frame_mk ?_)

theorem State.keeperRelease_frame {fp : List Part} {orig : State} {s : State}  (hs : Frame fp orig s)  (hdict : Part.dict ∈ fp := by assumption) (hnet : Part.net ∈ fp := by assumption) :
    Frame fp orig (State.keeperRelease s) := by
  unfold State.keeperRelease
  repeat' first
    | intro _
    | with_reducible assumption
    | with_reducible apply State.journalSync_frame
    | with_reducible apply State.staleDiscard_frame
    | with_reducible apply State.netBad_frame
    | with_reducible apply State.netTake_frame
    | with_reducible apply frame_ite
    | (extract_lets +onlyGivenNames -underBinder x; first | (refine frame_cut (fp := fp) (orig := orig) (x := x) ?_ ?_ <;> first | (intro h0; generalize x = y at h0 ⊢; clear x) | intro h0 | subst x) | (have h0 := Nat.zero_le x; generalize x = y at h0 ⊢; clear h0 x) | subst x)
    | (with_reducible refine frame_fst (by with_reducible assumption) ?_)
    | (with_reducible refine frame_snd (by with_reducible assumption) ?_)
    | split
    | dsimp only
    | (with_reducible refine frame_mk ?_)

theorem State.keeperTakeover_frame {fp : List Part} {orig : State} {s : State}  (hs : Frame fp orig s)  (hdict : Part.dict ∈ fp := by assumption) (hports : Part.ports ∈ fp := by assumption) (hnet : Part.net ∈ fp := by assumption) :
    Frame fp orig (State.keeperTakeover s) := by
  unfold State.keeperTakeover
  repeat' first
    | intro _
    | with_reducible assumption
    | with_reducible apply State.keeperSend_frame
    | with_reducible apply State.flag_frame
    | with_reducible apply frame_ite
    | (extract_lets +onlyGivenNames -underBinder x; first | (refine frame_cut (fp := fp) (orig := orig) (x := x) ?_ ?_ <;> first | (intro h0; generalize x = y at h0 ⊢; clear x) | intro h0 | subst x) | (have h0 := Nat.zero_le x; generalize x = y at h0 ⊢; clear h0 x) | subst x)
    | split
    | dsimp only
    | (with_reducible refine frame_mk ?_)

theorem State.delivered_frame {fp : List Part} {orig : State} {s : State} (r : Receipt) (hs : Frame fp orig s)  (hdict : Part.dict ∈ fp := by assumption) (hnet : Part.net ∈ fp := by assumption) :
    Frame fp orig (State.delivered s r) := by
  unfold State.delivered
  repeat' first
    | intro _
    | with_reducible assumption
    | with_reducible apply State.recvFree_frame
    | with_reducible apply State.journalSync_frame
    | with_reducible apply State.count_frame
    | with_reducible apply frame_ite
    | (extract_lets +onlyGivenNames -underBinder x; first | (refine frame_cut (fp := fp) (orig := orig) (x := x) ?_ ?_ <;> first | (intro h0; generalize x = y at h0 ⊢; clear x) | intro h0 | subst x) | (have h0 := Nat.zero_le x; generalize x = y at h0 ⊢; clear h0 x) | subst x)
    | split
    | dsimp only
    | (with_reducible refine frame_mk ?_)

theorem State.modReceipt_frame {fp : List Part} {orig : State} {s : State} (r : Receipt) (x : Receipt) (hs : Frame fp orig s)  (hnet : Part.net ∈ fp := by assumption) :
    Frame fp orig (State.modReceipt s r x) := by
  unfold State.modReceipt
  repeat' first
    | intro _
    | with_reducible assumption
    | with_reducible apply frame_ite
    | split
    | dsimp only
    | (with_reducible refine frame_mk ?_)

theorem State.present_frame {fp : List Part} {orig : State} {s : State} (r : Receipt) (payload : List Nat) (gone : Bool) (hs : Frame fp orig s)  (hdict : Part.dict ∈ fp := by assumption) (hstreams : Part.streams ∈ fp := by assumption) (hnet : Part.net ∈ fp := by assumption) :
    Frame fp orig (State.present s r payload gone) := by
  unfold State.present
  repeat' first
    | intro _
    | with_reducible assumption
    | with_reducible apply State.modReceipt_frame
    | with_reducible apply State.journalSync_frame
    | with_reducible apply State.append_frame
    | with_reducible apply State.flag_frame
    | with_reducible apply frame_ite
    | (extract_lets +onlyGivenNames -underBinder x; first | (refine frame_cut (fp := fp) (orig := orig) (x := x) ?_ ?_ <;> first | (intro h0; generalize x = y at h0 ⊢; clear x) | intro h0 | subst x) | (have h0 := Nat.zero_le x; generalize x = y at h0 ⊢; clear h0 x) | subst x)
    | split
    | dsimp only
    | (with_reducible refine frame_mk ?_)

theorem State.writeDone_frame {fp : List Part} {orig : State} {s : State} (r : Receipt) (status : Nat) (hs : Frame fp orig s)  (hdict : Part.dict ∈ fp := by assumption) (hstreams : Part.streams ∈ fp := by assumption) (hnet : Part.net ∈ fp := by assumption) :
    Frame fp orig (State.writeDone s r status) := by
  unfold State.writeDone
  repeat' first
    | intro _
    | with_reducible assumption
    | with_reducible apply State.present_frame
    | with_reducible apply State.delivered_frame
    | with_reducible apply State.journalSync_frame
    | with_reducible apply frame_ite
    | (extract_lets +onlyGivenNames -underBinder x; first | (refine frame_cut (fp := fp) (orig := orig) (x := x) ?_ ?_ <;> first | (intro h0; generalize x = y at h0 ⊢; clear x) | intro h0 | subst x) | (have h0 := Nat.zero_le x; generalize x = y at h0 ⊢; clear h0 x) | subst x)
    | split
    | dsimp only
    | (with_reducible refine frame_mk ?_)

theorem State.failedPresent_frame {fp : List Part} {orig : State} {s : State}  (hs : Frame fp orig s)  (hdict : Part.dict ∈ fp := by assumption) (hstreams : Part.streams ∈ fp := by assumption) (hnet : Part.net ∈ fp := by assumption) :
    Frame fp orig (State.failedPresent s) := by
  unfold State.failedPresent
  repeat' first
    | intro _
    | with_reducible assumption
    | with_reducible apply State.present_frame
    | split
    | dsimp only
    | (with_reducible refine frame_mk ?_)

theorem State.deliveryTaken_frame {fp : List Part} {orig : State} {s : State} (taken : List (List Nat)) (hs : Frame fp orig s)  (hdict : Part.dict ∈ fp := by assumption) (hnet : Part.net ∈ fp := by assumption) :
    Frame fp orig (State.deliveryTaken s taken) := by
  unfold State.deliveryTaken
  repeat' first
    | intro _
    | with_reducible assumption
    | with_reducible apply State.delivered_frame
    | with_reducible apply frame_foldl
    | with_reducible apply frame_foldl_fst
    | (extract_lets +onlyGivenNames -underBinder x; first | (refine frame_cut (fp := fp) (orig := orig) (x := x) ?_ ?_ <;> first | (intro h0; generalize x = y at h0 ⊢; clear x) | intro h0 | subst x) | (have h0 := Nat.zero_le x; generalize x = y at h0 ⊢; clear h0 x) | subst x)
    | split
    | dsimp only
    | (with_reducible refine frame_mk ?_)

theorem State.recordsFree_frame {fp : List Part} {orig : State} {s : State}  (hs : Frame fp orig s)  (hdict : Part.dict ∈ fp := by assumption) (hnet : Part.net ∈ fp := by assumption) :
    Frame fp orig (State.recordsFree s) := by
  unfold State.recordsFree
  repeat' first
    | intro _
    | with_reducible assumption
    | with_reducible apply State.journalSync_frame
    | (extract_lets +onlyGivenNames -underBinder x; first | (refine frame_cut (fp := fp) (orig := orig) (x := x) ?_ ?_ <;> first | (intro h0; generalize x = y at h0 ⊢; clear x) | intro h0 | subst x) | (have h0 := Nat.zero_le x; generalize x = y at h0 ⊢; clear h0 x) | subst x)
    | split
    | dsimp only
    | (with_reducible refine frame_mk ?_)

theorem State.messagesStep_frame {fp : List Part} {orig : State} {s : State} (old : Nat) (new : Nat) (hs : Frame fp orig s)  (hnet : Part.net ∈ fp := by assumption) :
    Frame fp orig (State.messagesStep s old new) := by
  unfold State.messagesStep
  repeat' first
    | intro _
    | with_reducible assumption
    | with_reducible apply State.deliveryMove_frame
    | with_reducible apply frame_ite
    | (extract_lets +onlyGivenNames -underBinder x; first | (refine frame_cut (fp := fp) (orig := orig) (x := x) ?_ ?_ <;> first | (intro h0; generalize x = y at h0 ⊢; clear x) | intro h0 | subst x) | (have h0 := Nat.zero_le x; generalize x = y at h0 ⊢; clear h0 x) | subst x)
    | split
    | dsimp only
    | (with_reducible refine frame_mk ?_)

theorem State.messagesTick_frame {fp : List Part} {orig : State} {s : State}  (hs : Frame fp orig s)  (hnet : Part.net ∈ fp := by assumption) :
    Frame fp orig (State.messagesTick s) := by
  unfold State.messagesTick
  repeat' first
    | intro _
    | with_reducible assumption
    | with_reducible apply State.deliveryMove_frame
    | (extract_lets +onlyGivenNames -underBinder x; first | (refine frame_cut (fp := fp) (orig := orig) (x := x) ?_ ?_ <;> first | (intro h0; generalize x = y at h0 ⊢; clear x) | intro h0 | subst x) | (have h0 := Nat.zero_le x; generalize x = y at h0 ⊢; clear h0 x) | subst x)
    | split
    | dsimp only
    | (with_reducible refine frame_mk ?_)

theorem State.messagesReset_frame {fp : List Part} {orig : State} {s : State}  (hs : Frame fp orig s)  (hnet : Part.net ∈ fp := by assumption) :
    Frame fp orig (State.messagesReset s) := by
  unfold State.messagesReset
  repeat' first
    | intro _
    | with_reducible assumption
    | with_reducible apply frame_ite
    | split
    | dsimp only
    | (with_reducible refine frame_mk ?_)

theorem State.messagesRestart_frame {fp : List Part} {orig : State} {s : State}  (hs : Frame fp orig s)  (hdict : Part.dict ∈ fp := by assumption) (hports : Part.ports ∈ fp := by assumption) (hnet : Part.net ∈ fp := by assumption) :
    Frame fp orig (State.messagesRestart s) := by
  unfold State.messagesRestart
  repeat' first
    | intro _
    | with_reducible assumption
    | with_reducible apply State.copySend_frame
    | with_reducible apply frame_foldl
    | with_reducible apply frame_foldl_fst
    | with_reducible apply frame_ite
    | (extract_lets +onlyGivenNames -underBinder x; first | (refine frame_cut (fp := fp) (orig := orig) (x := x) ?_ ?_ <;> first | (intro h0; generalize x = y at h0 ⊢; clear x) | intro h0 | subst x) | (have h0 := Nat.zero_le x; generalize x = y at h0 ⊢; clear h0 x) | subst x)
    | split
    | dsimp only
    | (with_reducible refine frame_mk ?_)

/-! ### Network -/

theorem State.passOn_frame {fp : List Part} {orig : State} {s : State} (e : InFrame) (hs : Frame fp orig s)  (hdict : Part.dict ∈ fp := by assumption) :
    Frame fp orig (State.passOn s e).2 := by
  unfold State.passOn
  repeat' first
    | intro _
    | with_reducible assumption
    | with_reducible apply State.lifeCheck_frame
    | with_reducible apply frame_ite_snd
    | (with_reducible refine frame_fst (by with_reducible assumption) ?_)
    | (with_reducible refine frame_snd (by with_reducible assumption) ?_)
    | dsimp only
    | (with_reducible refine frame_mk ?_)

theorem State.netForward_frame {fp : List Part} {orig : State} {s : State}  (hs : Frame fp orig s)  (hdict : Part.dict ∈ fp := by assumption) (hports : Part.ports ∈ fp := by assumption) (hnet : Part.net ∈ fp := by assumption) :
    Frame fp orig (State.netForward s) := by
  unfold State.netForward
  repeat' first
    | intro _
    | with_reducible assumption
    | with_reducible apply State.passOn_frame
    | with_reducible apply State.netBad_frame
    | with_reducible apply State.netRouteAs_frame
    | with_reducible apply frame_ite
    | (extract_lets +onlyGivenNames -underBinder x; first | (refine frame_cut (fp := fp) (orig := orig) (x := x) ?_ ?_ <;> first | (intro h0; generalize x = y at h0 ⊢; clear x) | intro h0 | subst x) | (have h0 := Nat.zero_le x; generalize x = y at h0 ⊢; clear h0 x) | subst x)
    | (with_reducible refine frame_fst (by with_reducible assumption) ?_)
    | (with_reducible refine frame_snd (by with_reducible assumption) ?_)
    | split
    | dsimp only
    | (with_reducible refine frame_mk ?_)

theorem State.joinSend_frame {fp : List Part} {orig : State} {s : State}  (hs : Frame fp orig s)  (hdict : Part.dict ∈ fp := by assumption) (hports : Part.ports ∈ fp := by assumption) (hnet : Part.net ∈ fp := by assumption) :
    Frame fp orig (State.joinSend s) := by
  unfold State.joinSend
  repeat' first
    | intro _
    | with_reducible assumption
    | with_reducible apply State.peerSend_frame
    | split
    | dsimp only
    | (with_reducible refine frame_mk ?_)

theorem State.joinTry_frame {fp : List Part} {orig : State} {s : State}  (hs : Frame fp orig s)  (hdict : Part.dict ∈ fp := by assumption) (hports : Part.ports ∈ fp := by assumption) (hnet : Part.net ∈ fp := by assumption) :
    Frame fp orig (State.joinTry s) := by
  unfold State.joinTry
  repeat' first
    | intro _
    | with_reducible assumption
    | with_reducible apply State.joinSend_frame
    | with_reducible apply frame_ite
    | split
    | dsimp only
    | (with_reducible refine frame_mk ?_)

theorem State.addressConflict_frame {fp : List Part} {orig : State} {s : State}  (hs : Frame fp orig s)  (hdict : Part.dict ∈ fp := by assumption) (hports : Part.ports ∈ fp := by assumption) (hnet : Part.net ∈ fp := by assumption) :
    Frame fp orig (State.addressConflict s) := by
  unfold State.addressConflict
  repeat' first
    | intro _
    | with_reducible assumption
    | with_reducible apply State.memberSet_frame
    | with_reducible apply State.lsaSend_frame
    | with_reducible apply State.dbChanged_frame
    | with_reducible apply State.set_frame
    | with_reducible apply State.flag_frame
    | (extract_lets +onlyGivenNames -underBinder x; first | (refine frame_cut (fp := fp) (orig := orig) (x := x) ?_ ?_ <;> first | (intro h0; generalize x = y at h0 ⊢; clear x) | intro h0 | subst x) | (have h0 := Nat.zero_le x; generalize x = y at h0 ⊢; clear h0 x) | subst x)
    | dsimp only
    | (with_reducible refine frame_mk ?_)

theorem State.lsaStore_frame {fp : List Part} {orig : State} {s : State} (l : Lsa) (hs : Frame fp orig s)  (hnet : Part.net ∈ fp := by assumption) :
    Frame fp orig (State.lsaStore s l) := by
  unfold State.lsaStore
  repeat' first
    | intro _
    | with_reducible assumption
    | dsimp only
    | (with_reducible refine frame_mk ?_)

theorem State.lsaIn_frame {fp : List Part} {orig : State} {s : State} (held : Bool) (hs : Frame fp orig s)  (hdict : Part.dict ∈ fp := by assumption) (hports : Part.ports ∈ fp := by assumption) (hnet : Part.net ∈ fp := by assumption) :
    Frame fp orig (State.lsaIn s held) := by
  unfold State.lsaIn
  repeat' first
    | intro _
    | with_reducible assumption
    | with_reducible apply State.lsaStore_frame
    | with_reducible apply State.addressConflict_frame
    | with_reducible apply State.joinTry_frame
    | with_reducible apply State.passOn_frame
    | with_reducible apply State.netBad_frame
    | with_reducible apply State.netOpen_frame
    | with_reducible apply State.linksJudge_frame
    | with_reducible apply State.lsaSend_frame
    | with_reducible apply State.dbChanged_frame
    | with_reducible apply State.portPutAs_frame
    | with_reducible apply State.modPort_frame
    | (with_reducible refine State.inboxTake_frame (by with_reducible assumption) ?_)
    | with_reducible apply frame_foldl
    | with_reducible apply frame_foldl_fst
    | with_reducible apply frame_ite
    | (extract_lets +onlyGivenNames -underBinder x; first | (refine frame_cut (fp := fp) (orig := orig) (x := x) ?_ ?_ <;> first | (intro h0; generalize x = y at h0 ⊢; clear x) | intro h0 | subst x) | (have h0 := Nat.zero_le x; generalize x = y at h0 ⊢; clear h0 x) | subst x)
    | (with_reducible refine frame_fst (by with_reducible assumption) ?_)
    | (with_reducible refine frame_snd (by with_reducible assumption) ?_)
    | split
    | dsimp only
    | (with_reducible refine frame_mk ?_)

theorem State.lsaRefresh_frame {fp : List Part} {orig : State} {s : State}  (hs : Frame fp orig s)  (hdict : Part.dict ∈ fp := by assumption) (hports : Part.ports ∈ fp := by assumption) (hnet : Part.net ∈ fp := by assumption) :
    Frame fp orig (State.lsaRefresh s) := by
  unfold State.lsaRefresh
  repeat' first
    | intro _
    | with_reducible assumption
    | with_reducible apply State.lsaSend_frame
    | with_reducible apply State.dbChanged_frame
    | with_reducible apply frame_ite
    | split
    | dsimp only
    | (with_reducible refine frame_mk ?_)

theorem State.lsaExpire_frame {fp : List Part} {orig : State} {s : State}  (hs : Frame fp orig s)  (hnet : Part.net ∈ fp := by assumption) :
    Frame fp orig (State.lsaExpire s) := by
  unfold State.lsaExpire
  repeat' first
    | intro _
    | with_reducible assumption
    | with_reducible apply State.dbChanged_frame
    | with_reducible apply frame_ite
    | (extract_lets +onlyGivenNames -underBinder x; first | (refine frame_cut (fp := fp) (orig := orig) (x := x) ?_ ?_ <;> first | (intro h0; generalize x = y at h0 ⊢; clear x) | intro h0 | subst x) | (have h0 := Nat.zero_le x; generalize x = y at h0 ⊢; clear h0 x) | subst x)
    | split
    | dsimp only
    | (with_reducible refine frame_mk ?_)

theorem State.routeCompute_frame {fp : List Part} {orig : State} {s : State}  (hs : Frame fp orig s)  (hnet : Part.net ∈ fp := by assumption) :
    Frame fp orig (State.routeCompute s) := by
  unfold State.routeCompute
  repeat' first
    | intro _
    | with_reducible assumption
    | with_reducible apply frame_ite
    | split
    | dsimp only
    | (with_reducible refine frame_mk ?_)

theorem State.routesTick_frame {fp : List Part} {orig : State} {s : State}  (hs : Frame fp orig s)  (hdict : Part.dict ∈ fp := by assumption) (hnet : Part.net ∈ fp := by assumption) :
    Frame fp orig (State.routesTick s) := by
  unfold State.routesTick
  repeat' first
    | intro _
    | with_reducible assumption
    | with_reducible apply State.routeCompute_frame
    | with_reducible apply State.flag_frame
    | with_reducible apply frame_ite
    | (extract_lets +onlyGivenNames -underBinder x; first | (refine frame_cut (fp := fp) (orig := orig) (x := x) ?_ ?_ <;> first | (intro h0; generalize x = y at h0 ⊢; clear x) | intro h0 | subst x) | (have h0 := Nat.zero_le x; generalize x = y at h0 ⊢; clear h0 x) | subst x)
    | split
    | dsimp only
    | (with_reducible refine frame_mk ?_)

theorem State.addrPut_frame {fp : List Part} {orig : State} {s : State} (uid : Nat) (a : Nat) (hs : Frame fp orig s)  (hnet : Part.net ∈ fp := by assumption) :
    Frame fp orig (State.addrPut s uid a) := by
  unfold State.addrPut
  repeat' first
    | intro _
    | with_reducible assumption
    | (extract_lets +onlyGivenNames -underBinder x; first | (refine frame_cut (fp := fp) (orig := orig) (x := x) ?_ ?_ <;> first | (intro h0; generalize x = y at h0 ⊢; clear x) | intro h0 | subst x) | (have h0 := Nat.zero_le x; generalize x = y at h0 ⊢; clear h0 x) | subst x)
    | dsimp only
    | (with_reducible refine frame_mk ?_)

theorem State.grantSend_frame {fp : List Part} {orig : State} {s : State} (f : NetFrame) (uid : Nat) (a : Nat) (status : Nat) (hs : Frame fp orig s)  (hdict : Part.dict ∈ fp := by assumption) (hports : Part.ports ∈ fp := by assumption) (hnet : Part.net ∈ fp := by assumption) :
    Frame fp orig (State.grantSend s f uid a status) := by
  unfold State.grantSend
  repeat' first
    | intro _
    | with_reducible assumption
    | with_reducible apply State.peerSend_frame
    | with_reducible apply State.netSend_frame
    | with_reducible apply frame_ite
    | (extract_lets +onlyGivenNames -underBinder x; first | (refine frame_cut (fp := fp) (orig := orig) (x := x) ?_ ?_ <;> first | (intro h0; generalize x = y at h0 ⊢; clear x) | intro h0 | subst x) | (have h0 := Nat.zero_le x; generalize x = y at h0 ⊢; clear h0 x) | subst x)
    | split
    | dsimp only
    | (with_reducible refine frame_mk ?_)

theorem State.joinIn_frame {fp : List Part} {orig : State} {s : State}  (hs : Frame fp orig s)  (hdict : Part.dict ∈ fp := by assumption) (hports : Part.ports ∈ fp := by assumption) (hnet : Part.net ∈ fp := by assumption) :
    Frame fp orig (State.joinIn s) := by
  unfold State.joinIn
  repeat' first
    | intro _
    | with_reducible assumption
    | with_reducible apply State.grantSend_frame
    | with_reducible apply State.addrPut_frame
    | with_reducible apply State.netBad_frame
    | with_reducible apply State.netTake_frame
    | with_reducible apply State.netRoute_frame
    | with_reducible apply State.netFrameAs_frame
    | with_reducible apply frame_ite
    | (extract_lets +onlyGivenNames -underBinder x; first | (refine frame_cut (fp := fp) (orig := orig) (x := x) ?_ ?_ <;> first | (intro h0; generalize x = y at h0 ⊢; clear x) | intro h0 | subst x) | (have h0 := Nat.zero_le x; generalize x = y at h0 ⊢; clear h0 x) | subst x)
    | (with_reducible refine frame_fst (by with_reducible assumption) ?_)
    | (with_reducible refine frame_snd (by with_reducible assumption) ?_)
    | split
    | dsimp only
    | (with_reducible refine frame_mk ?_)

theorem State.joinAgain_frame {fp : List Part} {orig : State} {s : State}  (hs : Frame fp orig s)  (hdict : Part.dict ∈ fp := by assumption) (hports : Part.ports ∈ fp := by assumption) (hnet : Part.net ∈ fp := by assumption) :
    Frame fp orig (State.joinAgain s) := by
  unfold State.joinAgain
  repeat' first
    | intro _
    | with_reducible assumption
    | with_reducible apply State.joinSend_frame
    | with_reducible apply frame_ite
    | split
    | dsimp only
    | (with_reducible refine frame_mk ?_)

theorem State.memberJoined_frame {fp : List Part} {orig : State} {s : State}  (hs : Frame fp orig s)  (hdict : Part.dict ∈ fp := by assumption) (hports : Part.ports ∈ fp := by assumption) (hnet : Part.net ∈ fp := by assumption) :
    Frame fp orig (State.memberJoined s) := by
  unfold State.memberJoined
  repeat' first
    | intro _
    | with_reducible assumption
    | with_reducible apply State.memberSet_frame
    | with_reducible apply frame_ite
    | (extract_lets +onlyGivenNames -underBinder x; first | (refine frame_cut (fp := fp) (orig := orig) (x := x) ?_ ?_ <;> first | (intro h0; generalize x = y at h0 ⊢; clear x) | intro h0 | subst x) | (have h0 := Nat.zero_le x; generalize x = y at h0 ⊢; clear h0 x) | subst x)
    | split
    | dsimp only
    | (with_reducible refine frame_mk ?_)

theorem State.grantIn_frame {fp : List Part} {orig : State} {s : State}  (hs : Frame fp orig s)  (hdict : Part.dict ∈ fp := by assumption) (hports : Part.ports ∈ fp := by assumption) (hnet : Part.net ∈ fp := by assumption) :
    Frame fp orig (State.grantIn s) := by
  unfold State.grantIn
  repeat' first
    | intro _
    | with_reducible assumption
    | with_reducible apply State.netBad_frame
    | with_reducible apply State.netTake_frame
    | with_reducible apply State.lsaSend_frame
    | with_reducible apply State.dbChanged_frame
    | with_reducible apply State.peerSend_frame
    | with_reducible apply State.netSend_frame
    | with_reducible apply State.set_frame
    | with_reducible apply frame_foldl
    | with_reducible apply frame_foldl_fst
    | with_reducible apply frame_ite
    | (extract_lets +onlyGivenNames -underBinder x; first | (refine frame_cut (fp := fp) (orig := orig) (x := x) ?_ ?_ <;> first | (intro h0; generalize x = y at h0 ⊢; clear x) | intro h0 | subst x) | (have h0 := Nat.zero_le x; generalize x = y at h0 ⊢; clear h0 x) | subst x)
    | (with_reducible refine frame_fst (by with_reducible assumption) ?_)
    | (with_reducible refine frame_snd (by with_reducible assumption) ?_)
    | split
    | dsimp only
    | (with_reducible refine frame_mk ?_)

theorem State.toMembers_frame {fp : List Part} {orig : State} {s : State} (kind : Nat) (body : List Nat) (hs : Frame fp orig s)  (hdict : Part.dict ∈ fp := by assumption) (hports : Part.ports ∈ fp := by assumption) (hnet : Part.net ∈ fp := by assumption) :
    Frame fp orig (State.toMembers s kind body) := by
  unfold State.toMembers
  repeat' first
    | intro _
    | with_reducible assumption
    | with_reducible apply State.netSend_frame
    | with_reducible apply frame_foldl
    | with_reducible apply frame_foldl_fst
    | dsimp only
    | (with_reducible refine frame_mk ?_)

theorem State.fsResult_frame {fp : List Part} {orig : State} {s : State} (cseq : Nat) (status : Nat) (hs : Frame fp orig s)  (hdict : Part.dict ∈ fp := by assumption) (hnet : Part.net ∈ fp := by assumption) :
    Frame fp orig (State.fsResult s cseq status) := by
  unfold State.fsResult
  repeat' first
    | intro _
    | with_reducible assumption
    | with_reducible apply State.set_frame
    | with_reducible apply frame_ite
    | split
    | dsimp only
    | (with_reducible refine frame_mk ?_)

theorem State.fsDrop_frame {fp : List Part} {orig : State} {s : State} (cseq : Nat) (hs : Frame fp orig s)  (hdict : Part.dict ∈ fp := by assumption) (hnet : Part.net ∈ fp := by assumption) :
    Frame fp orig (State.fsDrop s cseq) := by
  unfold State.fsDrop
  repeat' first
    | intro _
    | with_reducible assumption
    | with_reducible apply State.fsResult_frame
    | (extract_lets +onlyGivenNames -underBinder x; first | (refine frame_cut (fp := fp) (orig := orig) (x := x) ?_ ?_ <;> first | (intro h0; generalize x = y at h0 ⊢; clear x) | intro h0 | subst x) | (have h0 := Nat.zero_le x; generalize x = y at h0 ⊢; clear h0 x) | subst x)
    | dsimp only
    | (with_reducible refine frame_mk ?_)

theorem State.rootTake_frame {fp : List Part} {orig : State} {s : State} (replica : List (Nat × Nat)) (hs : Frame fp orig s)  (hdict : Part.dict ∈ fp := by assumption) (hports : Part.ports ∈ fp := by assumption) (hnet : Part.net ∈ fp := by assumption) :
    Frame fp orig (State.rootTake s replica) := by
  unfold State.rootTake
  repeat' first
    | intro _
    | with_reducible assumption
    | with_reducible apply State.fsDrop_frame
    | with_reducible apply State.toMembers_frame
    | with_reducible apply State.addrPut_frame
    | with_reducible apply State.memberSet_frame
    | with_reducible apply State.lsaSend_frame
    | with_reducible apply State.dbChanged_frame
    | with_reducible apply State.set_frame
    | with_reducible apply frame_foldl
    | with_reducible apply frame_foldl_fst
    | with_reducible apply frame_ite
    | (extract_lets +onlyGivenNames -underBinder x; first | (refine frame_cut (fp := fp) (orig := orig) (x := x) ?_ ?_ <;> first | (intro h0; generalize x = y at h0 ⊢; clear x) | intro h0 | subst x) | (have h0 := Nat.zero_le x; generalize x = y at h0 ⊢; clear h0 x) | subst x)
    | split
    | dsimp only
    | (with_reducible refine frame_mk ?_)

theorem State.electRoot_frame {fp : List Part} {orig : State} {s : State} (replica : List (Nat × Nat)) (hs : Frame fp orig s)  (hdict : Part.dict ∈ fp := by assumption) (hports : Part.ports ∈ fp := by assumption) (hnet : Part.net ∈ fp := by assumption) :
    Frame fp orig (State.electRoot s replica) := by
  unfold State.electRoot
  repeat' first
    | intro _
    | with_reducible assumption
    | with_reducible apply State.rootTake_frame
    | with_reducible apply State.joinTry_frame
    | with_reducible apply State.memberSet_frame
    | with_reducible apply State.set_frame
    | with_reducible apply State.flag_frame
    | with_reducible apply frame_ite
    | (extract_lets +onlyGivenNames -underBinder x; first | (refine frame_cut (fp := fp) (orig := orig) (x := x) ?_ ?_ <;> first | (intro h0; generalize x = y at h0 ⊢; clear x) | intro h0 | subst x) | (have h0 := Nat.zero_le x; generalize x = y at h0 ⊢; clear h0 x) | subst x)
    | split
    | dsimp only
    | (with_reducible refine frame_mk ?_)

theorem State.fscopePropose_frame {fp : List Part} {orig : State} {s : State} (index : Nat) (sub : Nat) (value : List Nat) (hs : Frame fp orig s)  (hdict : Part.dict ∈ fp := by assumption) (hreply : Part.reply ∈ fp := by assumption) (hports : Part.ports ∈ fp := by assumption) (hnet : Part.net ∈ fp := by assumption) :
    Frame fp orig (State.fscopePropose s index sub value) := by
  unfold State.fscopePropose
  repeat' first
    | intro _
    | with_reducible assumption
    | with_reducible apply State.netSend_frame
    | with_reducible apply State.answer_frame
    | with_reducible apply State.set_frame
    | (extract_lets +onlyGivenNames -underBinder x; first | (refine frame_cut (fp := fp) (orig := orig) (x := x) ?_ ?_ <;> first | (intro h0; generalize x = y at h0 ⊢; clear x) | intro h0 | subst x) | (have h0 := Nat.zero_le x; generalize x = y at h0 ⊢; clear h0 x) | subst x)
    | dsimp only
    | (with_reducible refine frame_mk ?_)

theorem State.fsTake_frame {fp : List Part} {orig : State} {s : State} (op : Nat) (hs : Frame fp orig s)  (hdict : Part.dict ∈ fp := by assumption) (hnet : Part.net ∈ fp := by assumption) :
    Frame fp orig (State.fsTake s op).2 := by
  unfold State.fsTake
  repeat' first
    | intro _
    | with_reducible assumption
    | with_reducible apply State.netBad_frame
    | with_reducible apply State.netTake_frame
    | with_reducible apply frame_ite_snd
    | (with_reducible refine frame_fst (by with_reducible assumption) ?_)
    | (with_reducible refine frame_snd (by with_reducible assumption) ?_)
    | split
    | dsimp only
    | (with_reducible refine frame_mk ?_)

theorem State.fsPrepare_frame {fp : List Part} {orig : State} {s : State} (c : FsChange) (hs : Frame fp orig s)  (hnet : Part.net ∈ fp := by assumption) :
    Frame fp orig (State.fsPrepare s c) := by
  unfold State.fsPrepare
  repeat' first
    | intro _
    | with_reducible assumption
    | with_reducible apply frame_ite
    | (extract_lets +onlyGivenNames -underBinder x; first | (refine frame_cut (fp := fp) (orig := orig) (x := x) ?_ ?_ <;> first | (intro h0; generalize x = y at h0 ⊢; clear x) | intro h0 | subst x) | (have h0 := Nat.zero_le x; generalize x = y at h0 ⊢; clear h0 x) | subst x)
    | split
    | dsimp only
    | (with_reducible refine frame_mk ?_)

theorem State.fsProposeIn_frame {fp : List Part} {orig : State} {s : State}  (hs : Frame fp orig s)  (hdict : Part.dict ∈ fp := by assumption) (hports : Part.ports ∈ fp := by assumption) (hnet : Part.net ∈ fp := by assumption) :
    Frame fp orig (State.fsProposeIn s) := by
  unfold State.fsProposeIn
  repeat' first
    | intro _
    | with_reducible assumption
    | with_reducible apply State.fsPrepare_frame
    | with_reducible apply State.fsTake_frame
    | with_reducible apply State.toMembers_frame
    | with_reducible apply State.netSend_frame
    | with_reducible apply frame_ite
    | (extract_lets +onlyGivenNames -underBinder x; first | (refine frame_cut (fp := fp) (orig := orig) (x := x) ?_ ?_ <;> first | (intro h0; generalize x = y at h0 ⊢; clear x) | intro h0 | subst x) | (have h0 := Nat.zero_le x; generalize x = y at h0 ⊢; clear h0 x) | subst x)
    | (with_reducible refine frame_fst (by with_reducible assumption) ?_)
    | (with_reducible refine frame_snd (by with_reducible assumption) ?_)
    | split
    | dsimp only
    | (with_reducible refine frame_mk ?_)

theorem State.fsPrepareIn_frame {fp : List Part} {orig : State} {s : State}  (hs : Frame fp orig s)  (hdict : Part.dict ∈ fp := by assumption) (hports : Part.ports ∈ fp := by assumption) (hnet : Part.net ∈ fp := by assumption) :
    Frame fp orig (State.fsPrepareIn s) := by
  unfold State.fsPrepareIn
  repeat' first
    | intro _
    | with_reducible assumption
    | with_reducible apply State.fsPrepare_frame
    | with_reducible apply State.fsTake_frame
    | with_reducible apply State.netSend_frame
    | (with_reducible refine frame_fst (by with_reducible assumption) ?_)
    | (with_reducible refine frame_snd (by with_reducible assumption) ?_)
    | split
    | dsimp only
    | (with_reducible refine frame_mk ?_)

theorem State.fsReadyIn_frame {fp : List Part} {orig : State} {s : State}  (hs : Frame fp orig s)  (hdict : Part.dict ∈ fp := by assumption) (hnet : Part.net ∈ fp := by assumption) :
    Frame fp orig (State.fsReadyIn s) := by
  unfold State.fsReadyIn
  repeat' first
    | intro _
    | with_reducible assumption
    | with_reducible apply State.fsTake_frame
    | with_reducible apply frame_ite
    | (extract_lets +onlyGivenNames -underBinder x; first | (refine frame_cut (fp := fp) (orig := orig) (x := x) ?_ ?_ <;> first | (intro h0; generalize x = y at h0 ⊢; clear x) | intro h0 | subst x) | (have h0 := Nat.zero_le x; generalize x = y at h0 ⊢; clear h0 x) | subst x)
    | (with_reducible refine frame_fst (by with_reducible assumption) ?_)
    | (with_reducible refine frame_snd (by with_reducible assumption) ?_)
    | split
    | dsimp only
    | (with_reducible refine frame_mk ?_)

theorem State.fsCommit_frame {fp : List Part} {orig : State} {s : State} (cseq : Nat) (hs : Frame fp orig s)  (hnet : Part.net ∈ fp := by assumption) :
    Frame fp orig (State.fsCommit s cseq) := by
  unfold State.fsCommit
  repeat' first
    | intro _
    | with_reducible assumption
    | with_reducible apply frame_ite
    | (extract_lets +onlyGivenNames -underBinder x; first | (refine frame_cut (fp := fp) (orig := orig) (x := x) ?_ ?_ <;> first | (intro h0; generalize x = y at h0 ⊢; clear x) | intro h0 | subst x) | (have h0 := Nat.zero_le x; generalize x = y at h0 ⊢; clear h0 x) | subst x)
    | split
    | dsimp only
    | (with_reducible refine frame_mk ?_)

theorem State.fsDeadline_frame {fp : List Part} {orig : State} {s : State}  (hs : Frame fp orig s)  (hdict : Part.dict ∈ fp := by assumption) (hports : Part.ports ∈ fp := by assumption) (hnet : Part.net ∈ fp := by assumption) :
    Frame fp orig (State.fsDeadline s) := by
  unfold State.fsDeadline
  repeat' first
    | intro _
    | with_reducible assumption
    | with_reducible apply State.fsCommit_frame
    | with_reducible apply State.fsDrop_frame
    | with_reducible apply State.toMembers_frame
    | with_reducible apply frame_ite
    | (extract_lets +onlyGivenNames -underBinder x; first | (refine frame_cut (fp := fp) (orig := orig) (x := x) ?_ ?_ <;> first | (intro h0; generalize x = y at h0 ⊢; clear x) | intro h0 | subst x) | (have h0 := Nat.zero_le x; generalize x = y at h0 ⊢; clear h0 x) | subst x)
    | split
    | dsimp only
    | (with_reducible refine frame_mk ?_)

theorem State.fsCommitIn_frame {fp : List Part} {orig : State} {s : State}  (hs : Frame fp orig s)  (hdict : Part.dict ∈ fp := by assumption) (hnet : Part.net ∈ fp := by assumption) :
    Frame fp orig (State.fsCommitIn s) := by
  unfold State.fsCommitIn
  repeat' first
    | intro _
    | with_reducible assumption
    | with_reducible apply State.fsCommit_frame
    | with_reducible apply State.fsTake_frame
    | (with_reducible refine frame_fst (by with_reducible assumption) ?_)
    | (with_reducible refine frame_snd (by with_reducible assumption) ?_)
    | split
    | dsimp only
    | (with_reducible refine frame_mk ?_)

theorem State.fsAbortIn_frame {fp : List Part} {orig : State} {s : State}  (hs : Frame fp orig s)  (hdict : Part.dict ∈ fp := by assumption) (hnet : Part.net ∈ fp := by assumption) :
    Frame fp orig (State.fsAbortIn s) := by
  unfold State.fsAbortIn
  repeat' first
    | intro _
    | with_reducible assumption
    | with_reducible apply State.fsTake_frame
    | with_reducible apply State.fsDrop_frame
    | with_reducible apply State.set_frame
    | with_reducible apply frame_ite
    | (with_reducible refine frame_fst (by with_reducible assumption) ?_)
    | (with_reducible refine frame_snd (by with_reducible assumption) ?_)
    | split
    | dsimp only
    | (with_reducible refine frame_mk ?_)

theorem State.fsApply_frame {fp : List Part} {orig : State} {s : State} (c : FsChange) (hs : Frame fp orig s)  (hdict : Part.dict ∈ fp := by assumption) (hnet : Part.net ∈ fp := by assumption) :
    Frame fp orig (State.fsApply s c) := by
  unfold State.fsApply
  repeat' first
    | intro _
    | with_reducible assumption
    | with_reducible apply State.set_frame
    | with_reducible apply frame_foldl
    | with_reducible apply frame_foldl_fst
    | with_reducible apply frame_ite
    | split
    | dsimp only
    | (with_reducible refine frame_mk ?_)

theorem State.fsEdge_frame {fp : List Part} {orig : State} {s : State}  (hs : Frame fp orig s)  (hdict : Part.dict ∈ fp := by assumption) (hports : Part.ports ∈ fp := by assumption) (hnet : Part.net ∈ fp := by assumption) :
    Frame fp orig (State.fsEdge s) := by
  unfold State.fsEdge
  repeat' first
    | intro _
    | with_reducible assumption
    | with_reducible apply State.fsApply_frame
    | with_reducible apply State.fsResult_frame
    | with_reducible apply State.netSend_frame
    | with_reducible apply State.flag_frame
    | with_reducible apply frame_foldl
    | with_reducible apply frame_foldl_fst
    | with_reducible apply frame_ite
    | (extract_lets +onlyGivenNames -underBinder x; first | (refine frame_cut (fp := fp) (orig := orig) (x := x) ?_ ?_ <;> first | (intro h0; generalize x = y at h0 ⊢; clear x) | intro h0 | subst x) | (have h0 := Nat.zero_le x; generalize x = y at h0 ⊢; clear h0 x) | subst x)
    | split
    | dsimp only
    | (with_reducible refine frame_mk ?_)

theorem State.fsFetchIn_frame {fp : List Part} {orig : State} {s : State}  (hs : Frame fp orig s)  (hdict : Part.dict ∈ fp := by assumption) (hports : Part.ports ∈ fp := by assumption) (hnet : Part.net ∈ fp := by assumption) :
    Frame fp orig (State.fsFetchIn s) := by
  unfold State.fsFetchIn
  repeat' first
    | intro _
    | with_reducible assumption
    | with_reducible apply State.fsTake_frame
    | with_reducible apply State.netSend_frame
    | with_reducible apply frame_ite
    | (extract_lets +onlyGivenNames -underBinder x; first | (refine frame_cut (fp := fp) (orig := orig) (x := x) ?_ ?_ <;> first | (intro h0; generalize x = y at h0 ⊢; clear x) | intro h0 | subst x) | (have h0 := Nat.zero_le x; generalize x = y at h0 ⊢; clear h0 x) | subst x)
    | (with_reducible refine frame_fst (by with_reducible assumption) ?_)
    | (with_reducible refine frame_snd (by with_reducible assumption) ?_)
    | split
    | dsimp only
    | (with_reducible refine frame_mk ?_)

theorem State.fsValueIn_frame {fp : List Part} {orig : State} {s : State}  (hs : Frame fp orig s)  (hdict : Part.dict ∈ fp := by assumption) (hnet : Part.net ∈ fp := by assumption) :
    Frame fp orig (State.fsValueIn s) := by
  unfold State.fsValueIn
  repeat' first
    | intro _
    | with_reducible assumption
    | with_reducible apply State.fsTake_frame
    | (with_reducible refine frame_fst (by with_reducible assumption) ?_)
    | (with_reducible refine frame_snd (by with_reducible assumption) ?_)
    | split
    | dsimp only
    | (with_reducible refine frame_mk ?_)

theorem State.fsTick_frame {fp : List Part} {orig : State} {s : State}  (hs : Frame fp orig s)  (hdict : Part.dict ∈ fp := by assumption) (hports : Part.ports ∈ fp := by assumption) (hnet : Part.net ∈ fp := by assumption) :
    Frame fp orig (State.fsTick s) := by
  unfold State.fsTick
  repeat' first
    | intro _
    | with_reducible assumption
    | with_reducible apply State.fsApply_frame
    | with_reducible apply State.fsResult_frame
    | with_reducible apply State.memberJoined_frame
    | with_reducible apply frame_foldl
    | with_reducible apply frame_foldl_fst
    | with_reducible apply frame_ite
    | (extract_lets +onlyGivenNames -underBinder x; first | (refine frame_cut (fp := fp) (orig := orig) (x := x) ?_ ?_ <;> first | (intro h0; generalize x = y at h0 ⊢; clear x) | intro h0 | subst x) | (have h0 := Nat.zero_le x; generalize x = y at h0 ⊢; clear h0 x) | subst x)
    | split
    | dsimp only
    | (with_reducible refine frame_mk ?_)

theorem State.fsLost_frame {fp : List Part} {orig : State} {s : State}  (hs : Frame fp orig s)  (hdict : Part.dict ∈ fp := by assumption) (hnet : Part.net ∈ fp := by assumption) :
    Frame fp orig (State.fsLost s) := by
  unfold State.fsLost
  repeat' first
    | intro _
    | with_reducible assumption
    | with_reducible apply State.set_frame
    | with_reducible apply frame_ite
    | split
    | dsimp only
    | (with_reducible refine frame_mk ?_)

theorem State.streamTake_frame {fp : List Part} {orig : State} {s : State} (op : Nat) (hs : Frame fp orig s)  (hdict : Part.dict ∈ fp := by assumption) (hnet : Part.net ∈ fp := by assumption) :
    Frame fp orig (State.streamTake s op).2 := by
  unfold State.streamTake
  repeat' first
    | intro _
    | with_reducible assumption
    | with_reducible apply State.netBad_frame
    | with_reducible apply State.netTake_frame
    | with_reducible apply frame_ite
    | with_reducible apply frame_ite_snd
    | (with_reducible refine frame_fst (by with_reducible assumption) ?_)
    | (with_reducible refine frame_snd (by with_reducible assumption) ?_)
    | split
    | dsimp only
    | (with_reducible refine frame_mk ?_)

theorem State.rxPut_frame {fp : List Part} {orig : State} {s : State} (r : StreamRx) (hs : Frame fp orig s)  (hnet : Part.net ∈ fp := by assumption) :
    Frame fp orig (State.rxPut s r) := by
  unfold State.rxPut
  repeat' first
    | intro _
    | with_reducible assumption
    | dsimp only
    | (with_reducible refine frame_mk ?_)

theorem State.streamOpen_frame {fp : List Part} {orig : State} {s : State}  (hs : Frame fp orig s)  (hdict : Part.dict ∈ fp := by assumption) (hports : Part.ports ∈ fp := by assumption) (hnet : Part.net ∈ fp := by assumption) :
    Frame fp orig (State.streamOpen s) := by
  unfold State.streamOpen
  repeat' first
    | intro _
    | with_reducible assumption
    | with_reducible apply State.rxPut_frame
    | with_reducible apply State.streamTake_frame
    | with_reducible apply State.netSend_frame
    | with_reducible apply frame_ite
    | (extract_lets +onlyGivenNames -underBinder x; first | (refine frame_cut (fp := fp) (orig := orig) (x := x) ?_ ?_ <;> first | (intro h0; generalize x = y at h0 ⊢; clear x) | intro h0 | subst x) | (have h0 := Nat.zero_le x; generalize x = y at h0 ⊢; clear h0 x) | subst x)
    | (with_reducible refine frame_fst (by with_reducible assumption) ?_)
    | (with_reducible refine frame_snd (by with_reducible assumption) ?_)
    | split
    | dsimp only
    | (with_reducible refine frame_mk ?_)

theorem State.streamData_frame {fp : List Part} {orig : State} {s : State}  (hs : Frame fp orig s)  (hdict : Part.dict ∈ fp := by assumption) (hports : Part.ports ∈ fp := by assumption) (hnet : Part.net ∈ fp := by assumption) :
    Frame fp orig (State.streamData s) := by
  unfold State.streamData
  repeat' first
    | intro _
    | with_reducible assumption
    | with_reducible apply State.rxPut_frame
    | with_reducible apply State.netBad_frame
    | with_reducible apply State.netTake_frame
    | with_reducible apply State.netSend_frame
    | with_reducible apply frame_ite
    | (extract_lets +onlyGivenNames -underBinder x; first | (refine frame_cut (fp := fp) (orig := orig) (x := x) ?_ ?_ <;> first | (intro h0; generalize x = y at h0 ⊢; clear x) | intro h0 | subst x) | (have h0 := Nat.zero_le x; generalize x = y at h0 ⊢; clear h0 x) | subst x)
    | (with_reducible refine frame_fst (by with_reducible assumption) ?_)
    | (with_reducible refine frame_snd (by with_reducible assumption) ?_)
    | split
    | dsimp only
    | (with_reducible refine frame_mk ?_)

theorem State.modTx_frame {fp : List Part} {orig : State} {s : State} (dest : Nat) (stream : Nat) (inc : Nat) (g : StreamTx → StreamTx) (hs : Frame fp orig s)  (hnet : Part.net ∈ fp := by assumption) :
    Frame fp orig (State.modTx s dest stream inc g) := by
  unfold State.modTx
  repeat' first
    | intro _
    | with_reducible assumption
    | with_reducible apply frame_ite
    | split
    | dsimp only
    | (with_reducible refine frame_mk ?_)

theorem State.txPump_frame {fp : List Part} {orig : State} {s : State} (t : StreamTx) (hs : Frame fp orig s)  (hdict : Part.dict ∈ fp := by assumption) (hports : Part.ports ∈ fp := by assumption) (hnet : Part.net ∈ fp := by assumption) :
    Frame fp orig (State.txPump s t) := by
  unfold State.txPump
  repeat' first
    | intro _
    | with_reducible assumption
    | with_reducible apply State.modTx_frame
    | with_reducible apply State.netSend_frame
    | with_reducible apply frame_foldl
    | with_reducible apply frame_foldl_fst
    | with_reducible apply frame_ite
    | (extract_lets +onlyGivenNames -underBinder x; first | (refine frame_cut (fp := fp) (orig := orig) (x := x) ?_ ?_ <;> first | (intro h0; generalize x = y at h0 ⊢; clear x) | intro h0 | subst x) | (have h0 := Nat.zero_le x; generalize x = y at h0 ⊢; clear h0 x) | subst x)
    | split
    | dsimp only
    | (with_reducible refine frame_mk ?_)

theorem State.streamOpenAck_frame {fp : List Part} {orig : State} {s : State}  (hs : Frame fp orig s)  (hdict : Part.dict ∈ fp := by assumption) (hports : Part.ports ∈ fp := by assumption) (hnet : Part.net ∈ fp := by assumption) :
    Frame fp orig (State.streamOpenAck s) := by
  unfold State.streamOpenAck
  repeat' first
    | intro _
    | with_reducible assumption
    | with_reducible apply State.txPump_frame
    | with_reducible apply State.modTx_frame
    | with_reducible apply State.streamTake_frame
    | (extract_lets +onlyGivenNames -underBinder x; first | (refine frame_cut (fp := fp) (orig := orig) (x := x) ?_ ?_ <;> first | (intro h0; generalize x = y at h0 ⊢; clear x) | intro h0 | subst x) | (have h0 := Nat.zero_le x; generalize x = y at h0 ⊢; clear h0 x) | subst x)
    | (with_reducible refine frame_fst (by with_reducible assumption) ?_)
    | (with_reducible refine frame_snd (by with_reducible assumption) ?_)
    | split
    | dsimp only
    | (with_reducible refine frame_mk ?_)

theorem State.streamAck_frame {fp : List Part} {orig : State} {s : State}  (hs : Frame fp orig s)  (hdict : Part.dict ∈ fp := by assumption) (hports : Part.ports ∈ fp := by assumption) (hnet : Part.net ∈ fp := by assumption) :
    Frame fp orig (State.streamAck s) := by
  unfold State.streamAck
  repeat' first
    | intro _
    | with_reducible assumption
    | with_reducible apply State.txPump_frame
    | with_reducible apply State.modTx_frame
    | with_reducible apply State.streamTake_frame
    | with_reducible apply frame_ite
    | (extract_lets +onlyGivenNames -underBinder x; first | (refine frame_cut (fp := fp) (orig := orig) (x := x) ?_ ?_ <;> first | (intro h0; generalize x = y at h0 ⊢; clear x) | intro h0 | subst x) | (have h0 := Nat.zero_le x; generalize x = y at h0 ⊢; clear h0 x) | subst x)
    | (with_reducible refine frame_fst (by with_reducible assumption) ?_)
    | (with_reducible refine frame_snd (by with_reducible assumption) ?_)
    | split
    | dsimp only
    | (with_reducible refine frame_mk ?_)

theorem State.streamClose_frame {fp : List Part} {orig : State} {s : State}  (hs : Frame fp orig s)  (hdict : Part.dict ∈ fp := by assumption) (hnet : Part.net ∈ fp := by assumption) :
    Frame fp orig (State.streamClose s) := by
  unfold State.streamClose
  repeat' first
    | intro _
    | with_reducible assumption
    | with_reducible apply State.streamTake_frame
    | (extract_lets +onlyGivenNames -underBinder x; first | (refine frame_cut (fp := fp) (orig := orig) (x := x) ?_ ?_ <;> first | (intro h0; generalize x = y at h0 ⊢; clear x) | intro h0 | subst x) | (have h0 := Nat.zero_le x; generalize x = y at h0 ⊢; clear h0 x) | subst x)
    | (with_reducible refine frame_fst (by with_reducible assumption) ?_)
    | (with_reducible refine frame_snd (by with_reducible assumption) ?_)
    | split
    | dsimp only
    | (with_reducible refine frame_mk ?_)

theorem State.streamReset_frame {fp : List Part} {orig : State} {s : State}  (hs : Frame fp orig s)  (hdict : Part.dict ∈ fp := by assumption) (hnet : Part.net ∈ fp := by assumption) :
    Frame fp orig (State.streamReset s) := by
  unfold State.streamReset
  repeat' first
    | intro _
    | with_reducible assumption
    | with_reducible apply State.streamTake_frame
    | (extract_lets +onlyGivenNames -underBinder x; first | (refine frame_cut (fp := fp) (orig := orig) (x := x) ?_ ?_ <;> first | (intro h0; generalize x = y at h0 ⊢; clear x) | intro h0 | subst x) | (have h0 := Nat.zero_le x; generalize x = y at h0 ⊢; clear h0 x) | subst x)
    | (with_reducible refine frame_fst (by with_reducible assumption) ?_)
    | (with_reducible refine frame_snd (by with_reducible assumption) ?_)
    | split
    | dsimp only
    | (with_reducible refine frame_mk ?_)

theorem State.streamResend_frame {fp : List Part} {orig : State} {s : State}  (hs : Frame fp orig s)  (hdict : Part.dict ∈ fp := by assumption) (hports : Part.ports ∈ fp := by assumption) (hnet : Part.net ∈ fp := by assumption) :
    Frame fp orig (State.streamResend s) := by
  unfold State.streamResend
  repeat' first
    | intro _
    | with_reducible assumption
    | with_reducible apply State.txPump_frame
    | with_reducible apply State.modTx_frame
    | (extract_lets +onlyGivenNames -underBinder x; first | (refine frame_cut (fp := fp) (orig := orig) (x := x) ?_ ?_ <;> first | (intro h0; generalize x = y at h0 ⊢; clear x) | intro h0 | subst x) | (have h0 := Nat.zero_le x; generalize x = y at h0 ⊢; clear h0 x) | subst x)
    | split
    | dsimp only
    | (with_reducible refine frame_mk ?_)

theorem State.netTick_frame {fp : List Part} {orig : State} {s : State}  (hs : Frame fp orig s)  (hdict : Part.dict ∈ fp := by assumption) (hports : Part.ports ∈ fp := by assumption) (hnet : Part.net ∈ fp := by assumption) :
    Frame fp orig (State.netTick s) := by
  unfold State.netTick
  repeat' first
    | intro _
    | with_reducible assumption
    | with_reducible apply State.fsTick_frame
    | with_reducible apply State.routesTick_frame
    | with_reducible apply State.messagesTick_frame
    | with_reducible apply State.tableTick_frame
    | with_reducible apply State.setB_frame
    | with_reducible apply State.set_frame
    | (extract_lets +onlyGivenNames -underBinder x; first | (refine frame_cut (fp := fp) (orig := orig) (x := x) ?_ ?_ <;> first | (intro h0; generalize x = y at h0 ⊢; clear x) | intro h0 | subst x) | (have h0 := Nat.zero_le x; generalize x = y at h0 ⊢; clear h0 x) | subst x)
    | dsimp only
    | (with_reducible refine frame_mk ?_)

theorem State.netReset_frame {fp : List Part} {orig : State} {s : State}  (hs : Frame fp orig s)  (hdict : Part.dict ∈ fp := by assumption) (hnet : Part.net ∈ fp := by assumption) :
    Frame fp orig (State.netReset s) := by
  unfold State.netReset
  repeat' first
    | intro _
    | with_reducible assumption
    | with_reducible apply State.messagesReset_frame
    | with_reducible apply State.windowsLost_frame
    | with_reducible apply State.set_frame
    | (extract_lets +onlyGivenNames -underBinder x; first | (refine frame_cut (fp := fp) (orig := orig) (x := x) ?_ ?_ <;> first | (intro h0; generalize x = y at h0 ⊢; clear x) | intro h0 | subst x) | (have h0 := Nat.zero_le x; generalize x = y at h0 ⊢; clear h0 x) | subst x)
    | dsimp only
    | (with_reducible refine frame_mk ?_)

/-! ### Erg -/

theorem State.modErg_frame {fp : List Part} {orig : State} {s : State} (f : ErgSt → ErgSt) (hs : Frame fp orig s)  (herg : Part.erg ∈ fp := by assumption) :
    Frame fp orig (State.modErg s f) := by
  unfold State.modErg
  repeat' first
    | intro _
    | with_reducible assumption
    | dsimp only
    | (with_reducible refine frame_mk ?_)

theorem State.antWatch_frame {fp : List Part} {orig : State} {s : State} (a : Nat) (hs : Frame fp orig s)  (hrx : Part.rx ∈ fp := by assumption) :
    Frame fp orig (State.antWatch s a) := by
  unfold State.antWatch
  repeat' first
    | intro _
    | with_reducible assumption
    | with_reducible apply State.modAnt_frame
    | with_reducible apply frame_ite
    | (extract_lets +onlyGivenNames -underBinder x; first | (refine frame_cut (fp := fp) (orig := orig) (x := x) ?_ ?_ <;> first | (intro h0; generalize x = y at h0 ⊢; clear x) | intro h0 | subst x) | (have h0 := Nat.zero_le x; generalize x = y at h0 ⊢; clear h0 x) | subst x)
    | split
    | dsimp only
    | (with_reducible refine frame_mk ?_)

theorem State.ergOutcome_frame {fp : List Part} {orig : State} {s : State} (lane : Nat) (r : ErgRun) (outcome : Nat) (pk : Peak) (cn0 : Nat) (sec : Bool) (slot : Option Nat) (hs : Frame fp orig s)  (hdict : Part.dict ∈ fp := by assumption) (hstreams : Part.streams ∈ fp := by assumption) (herg : Part.erg ∈ fp := by assumption) :
    Frame fp orig (State.ergOutcome s lane r outcome pk cn0 sec slot) := by
  unfold State.ergOutcome
  repeat' first
    | intro _
    | with_reducible assumption
    | with_reducible apply State.append_frame
    | with_reducible apply State.set_frame
    | with_reducible apply frame_ite
    | (extract_lets +onlyGivenNames -underBinder x; first | (refine frame_cut (fp := fp) (orig := orig) (x := x) ?_ ?_ <;> first | (intro h0; generalize x = y at h0 ⊢; clear x) | intro h0 | subst x) | (have h0 := Nat.zero_le x; generalize x = y at h0 ⊢; clear h0 x) | subst x)
    | split
    | dsimp only
    | (with_reducible refine frame_mk ?_)

theorem State.laneFree_frame {fp : List Part} {orig : State} {s : State} (l : Nat) (hs : Frame fp orig s)  (hdict : Part.dict ∈ fp := by assumption) (herg : Part.erg ∈ fp := by assumption) :
    Frame fp orig (State.laneFree s l) := by
  unfold State.laneFree
  repeat' first
    | intro _
    | with_reducible assumption
    | with_reducible apply State.count_frame
    | (extract_lets +onlyGivenNames -underBinder x; first | (refine frame_cut (fp := fp) (orig := orig) (x := x) ?_ ?_ <;> first | (intro h0; generalize x = y at h0 ⊢; clear x) | intro h0 | subst x) | (have h0 := Nat.zero_le x; generalize x = y at h0 ⊢; clear h0 x) | subst x)
    | dsimp only
    | (with_reducible refine frame_mk ?_)

theorem State.runEnd_frame {fp : List Part} {orig : State} {s : State} (l : Nat) (outcome : Nat) (hs : Frame fp orig s)  (hdict : Part.dict ∈ fp := by assumption) (hstreams : Part.streams ∈ fp := by assumption) (herg : Part.erg ∈ fp := by assumption) :
    Frame fp orig (State.runEnd s l outcome) := by
  unfold State.runEnd
  repeat' first
    | intro _
    | with_reducible assumption
    | with_reducible apply State.laneFree_frame
    | with_reducible apply State.ergOutcome_frame
    | with_reducible apply State.flag_frame
    | with_reducible apply frame_ite
    | (extract_lets +onlyGivenNames -underBinder x; first | (refine frame_cut (fp := fp) (orig := orig) (x := x) ?_ ?_ <;> first | (intro h0; generalize x = y at h0 ⊢; clear x) | intro h0 | subst x) | (have h0 := Nat.zero_le x; generalize x = y at h0 ⊢; clear h0 x) | subst x)
    | split
    | dsimp only
    | (with_reducible refine frame_mk ?_)

theorem State.runsAbort_frame {fp : List Part} {orig : State} {s : State} (p : ErgRun → Bool) (hs : Frame fp orig s)  (hdict : Part.dict ∈ fp := by assumption) (hstreams : Part.streams ∈ fp := by assumption) (herg : Part.erg ∈ fp := by assumption) :
    Frame fp orig (State.runsAbort s p) := by
  unfold State.runsAbort
  repeat' first
    | intro _
    | with_reducible assumption
    | with_reducible apply State.runEnd_frame
    | with_reducible apply frame_foldl
    | with_reducible apply frame_foldl_fst
    | with_reducible apply frame_ite
    | split
    | dsimp only
    | (with_reducible refine frame_mk ?_)

theorem State.resultsDrop_frame {fp : List Part} {orig : State} {s : State} (p : ErgResult → Bool) (hs : Frame fp orig s)  (hdict : Part.dict ∈ fp := by assumption) (hstreams : Part.streams ∈ fp := by assumption) (herg : Part.erg ∈ fp := by assumption) :
    Frame fp orig (State.resultsDrop s p) := by
  unfold State.resultsDrop
  repeat' first
    | intro _
    | with_reducible assumption
    | with_reducible apply State.ergOutcome_frame
    | with_reducible apply frame_foldl
    | with_reducible apply frame_foldl_fst
    | (extract_lets +onlyGivenNames -underBinder x; first | (refine frame_cut (fp := fp) (orig := orig) (x := x) ?_ ?_ <;> first | (intro h0; generalize x = y at h0 ⊢; clear x) | intro h0 | subst x) | (have h0 := Nat.zero_le x; generalize x = y at h0 ⊢; clear h0 x) | subst x)
    | dsimp only
    | (with_reducible refine frame_mk ?_)

theorem State.ergCal_frame {fp : List Part} {orig : State} {s : State}  (hs : Frame fp orig s)  (hdict : Part.dict ∈ fp := by assumption) (hstreams : Part.streams ∈ fp := by assumption) (herg : Part.erg ∈ fp := by assumption) :
    Frame fp orig (State.ergCal s) := by
  unfold State.ergCal
  repeat' first
    | intro _
    | with_reducible assumption
    | with_reducible apply State.runsAbort_frame
    | dsimp only
    | (with_reducible refine frame_mk ?_)

theorem State.antLeave_frame {fp : List Part} {orig : State} {s : State} (a : Nat) (hs : Frame fp orig s)  (hdict : Part.dict ∈ fp := by assumption) (hstreams : Part.streams ∈ fp := by assumption) (hcpu : Part.cpu ∈ fp := by assumption) (hslots : Part.slots ∈ fp := by assumption) (hnav : Part.nav ∈ fp := by assumption) (herg : Part.erg ∈ fp := by assumption) :
    Frame fp orig (State.antLeave s a) := by
  unfold State.antLeave
  repeat' first
    | intro _
    | with_reducible assumption
    | with_reducible apply State.resultsDrop_frame
    | with_reducible apply State.runsAbort_frame
    | with_reducible apply State.slotsFreeWhere_frame
    | (extract_lets +onlyGivenNames -underBinder x; first | (refine frame_cut (fp := fp) (orig := orig) (x := x) ?_ ?_ <;> first | (intro h0; generalize x = y at h0 ⊢; clear x) | intro h0 | subst x) | (have h0 := Nat.zero_le x; generalize x = y at h0 ⊢; clear h0 x) | subst x)
    | dsimp only
    | (with_reducible refine frame_mk ?_)

theorem State.serve_frame {fp : List Part} {orig : State} {s : State} (toward : Nat) (hs : Frame fp orig s)  (hdict : Part.dict ∈ fp := by assumption) (hstreams : Part.streams ∈ fp := by assumption) (hcpu : Part.cpu ∈ fp := by assumption) (hslots : Part.slots ∈ fp := by assumption) (hnav : Part.nav ∈ fp := by assumption) (herg : Part.erg ∈ fp := by assumption) :
    Frame fp orig (State.serve s toward) := by
  unfold State.serve
  repeat' first
    | intro _
    | with_reducible assumption
    | with_reducible apply State.antLeave_frame
    | with_reducible apply State.set_frame
    | with_reducible apply State.flag_frame
    | with_reducible apply frame_foldl
    | with_reducible apply frame_foldl_fst
    | with_reducible apply frame_ite
    | (extract_lets +onlyGivenNames -underBinder x; first | (refine frame_cut (fp := fp) (orig := orig) (x := x) ?_ ?_ <;> first | (intro h0; generalize x = y at h0 ⊢; clear x) | intro h0 | subst x) | (have h0 := Nat.zero_le x; generalize x = y at h0 ⊢; clear h0 x) | subst x)
    | split
    | dsimp only
    | (with_reducible refine frame_mk ?_)

theorem State.antSelect_frame {fp : List Part} {orig : State} {s : State}  (hs : Frame fp orig s)  (hdict : Part.dict ∈ fp := by assumption) (hstreams : Part.streams ∈ fp := by assumption) (hcpu : Part.cpu ∈ fp := by assumption) (hrx : Part.rx ∈ fp := by assumption) (hslots : Part.slots ∈ fp := by assumption) (hnav : Part.nav ∈ fp := by assumption) (herg : Part.erg ∈ fp := by assumption) :
    Frame fp orig (State.antSelect s) := by
  unfold State.antSelect
  repeat' first
    | intro _
    | with_reducible assumption
    | with_reducible apply State.serve_frame
    | with_reducible apply State.antWatch_frame
    | with_reducible apply frame_ite
    | (extract_lets +onlyGivenNames -underBinder x; first | (refine frame_cut (fp := fp) (orig := orig) (x := x) ?_ ?_ <;> first | (intro h0; generalize x = y at h0 ⊢; clear x) | intro h0 | subst x) | (have h0 := Nat.zero_le x; generalize x = y at h0 ⊢; clear h0 x) | subst x)
    | split
    | dsimp only
    | (with_reducible refine frame_mk ?_)

theorem State.antSwitch_frame {fp : List Part} {orig : State} {s : State}  (hs : Frame fp orig s)  (hdict : Part.dict ∈ fp := by assumption) (hstreams : Part.streams ∈ fp := by assumption) (hcpu : Part.cpu ∈ fp := by assumption) (hslots : Part.slots ∈ fp := by assumption) (hnav : Part.nav ∈ fp := by assumption) (herg : Part.erg ∈ fp := by assumption) :
    Frame fp orig (State.antSwitch s) := by
  unfold State.antSwitch
  repeat' first
    | intro _
    | with_reducible assumption
    | with_reducible apply State.serve_frame
    | with_reducible apply frame_ite
    | (extract_lets +onlyGivenNames -underBinder x; first | (refine frame_cut (fp := fp) (orig := orig) (x := x) ?_ ?_ <;> first | (intro h0; generalize x = y at h0 ⊢; clear x) | intro h0 | subst x) | (have h0 := Nat.zero_le x; generalize x = y at h0 ⊢; clear h0 x) | subst x)
    | split
    | dsimp only
    | (with_reducible refine frame_mk ?_)

theorem State.antRevert_frame {fp : List Part} {orig : State} {s : State}  (hs : Frame fp orig s)  (hdict : Part.dict ∈ fp := by assumption) (hstreams : Part.streams ∈ fp := by assumption) (hcpu : Part.cpu ∈ fp := by assumption) (hslots : Part.slots ∈ fp := by assumption) (hnav : Part.nav ∈ fp := by assumption) (herg : Part.erg ∈ fp := by assumption) :
    Frame fp orig (State.antRevert s) := by
  unfold State.antRevert
  repeat' first
    | intro _
    | with_reducible assumption
    | with_reducible apply State.serve_frame
    | with_reducible apply frame_ite
    | (extract_lets +onlyGivenNames -underBinder x; first | (refine frame_cut (fp := fp) (orig := orig) (x := x) ?_ ?_ <;> first | (intro h0; generalize x = y at h0 ⊢; clear x) | intro h0 | subst x) | (have h0 := Nat.zero_le x; generalize x = y at h0 ⊢; clear h0 x) | subst x)
    | split
    | dsimp only
    | (with_reducible refine frame_mk ?_)

theorem State.laneStart_frame {fp : List Part} {orig : State} {s : State} (p : ErgPred) (hs : Frame fp orig s)  (hdict : Part.dict ∈ fp := by assumption) (herg : Part.erg ∈ fp := by assumption) :
    Frame fp orig (State.laneStart s p) := by
  unfold State.laneStart
  repeat' first
    | intro _
    | with_reducible assumption
    | with_reducible apply State.count_frame
    | with_reducible apply State.set_frame
    | with_reducible apply State.bump_frame
    | with_reducible apply frame_ite
    | (extract_lets +onlyGivenNames -underBinder x; first | (refine frame_cut (fp := fp) (orig := orig) (x := x) ?_ ?_ <;> first | (intro h0; generalize x = y at h0 ⊢; clear x) | intro h0 | subst x) | (have h0 := Nat.zero_le x; generalize x = y at h0 ⊢; clear h0 x) | subst x)
    | split
    | dsimp only
    | (with_reducible refine frame_mk ?_)

theorem State.modRun_frame {fp : List Part} {orig : State} {s : State} (l : Nat) (f : ErgRun → ErgRun) (hs : Frame fp orig s)  (herg : Part.erg ∈ fp := by assumption) :
    Frame fp orig (State.modRun s l f) := by
  unfold State.modRun
  repeat' first
    | intro _
    | with_reducible assumption
    | dsimp only
    | (with_reducible refine frame_mk ?_)

theorem State.runNext_frame {fp : List Part} {orig : State} {s : State} (l : Nat) (r : ErgRun) (hs : Frame fp orig s)  (hdict : Part.dict ∈ fp := by assumption) (hstreams : Part.streams ∈ fp := by assumption) (herg : Part.erg ∈ fp := by assumption) :
    Frame fp orig (State.runNext s l r) := by
  unfold State.runNext
  repeat' first
    | intro _
    | with_reducible assumption
    | with_reducible apply State.modRun_frame
    | with_reducible apply State.runEnd_frame
    | with_reducible apply frame_ite
    | split
    | dsimp only
    | (with_reducible refine frame_mk ?_)

theorem State.passDecision_frame {fp : List Part} {orig : State} {s : State} (l : Nat) (cell : Nat) (line : Nat) (ratio : Nat) (hs : Frame fp orig s)  (hdict : Part.dict ∈ fp := by assumption) (hstreams : Part.streams ∈ fp := by assumption) (herg : Part.erg ∈ fp := by assumption) :
    Frame fp orig (State.passDecision s l cell line ratio) := by
  unfold State.passDecision
  repeat' first
    | intro _
    | with_reducible assumption
    | with_reducible apply State.runNext_frame
    | with_reducible apply State.modRun_frame
    | with_reducible apply frame_ite
    | (extract_lets +onlyGivenNames -underBinder x; first | (refine frame_cut (fp := fp) (orig := orig) (x := x) ?_ ?_ <;> first | (intro h0; generalize x = y at h0 ⊢; clear x) | intro h0 | subst x) | (have h0 := Nat.zero_le x; generalize x = y at h0 ⊢; clear h0 x) | subst x)
    | split
    | dsimp only
    | (with_reducible refine frame_mk ?_)

theorem State.resultPost_frame {fp : List Part} {orig : State} {s : State} (x : ErgResult) (hs : Frame fp orig s)  (herg : Part.erg ∈ fp := by assumption) :
    Frame fp orig (State.resultPost s x) := by
  unfold State.resultPost
  repeat' first
    | intro _
    | with_reducible assumption
    | (extract_lets +onlyGivenNames -underBinder x; first | (refine frame_cut (fp := fp) (orig := orig) (x := x) ?_ ?_ <;> first | (intro h0; generalize x = y at h0 ⊢; clear x) | intro h0 | subst x) | (have h0 := Nat.zero_le x; generalize x = y at h0 ⊢; clear h0 x) | subst x)
    | dsimp only
    | (with_reducible refine frame_mk ?_)

theorem State.verification_frame {fp : List Part} {orig : State} {s : State} (l : Nat) (powers : List Nat) (hs : Frame fp orig s)  (hdict : Part.dict ∈ fp := by assumption) (hstreams : Part.streams ∈ fp := by assumption) (herg : Part.erg ∈ fp := by assumption) :
    Frame fp orig (State.verification s l powers) := by
  unfold State.verification
  repeat' first
    | intro _
    | with_reducible assumption
    | with_reducible apply State.resultPost_frame
    | with_reducible apply State.runNext_frame
    | with_reducible apply State.modRun_frame
    | with_reducible apply State.runEnd_frame
    | with_reducible apply State.laneFree_frame
    | with_reducible apply State.flag_frame
    | with_reducible apply frame_foldl
    | with_reducible apply frame_foldl_fst
    | with_reducible apply frame_ite
    | (extract_lets +onlyGivenNames -underBinder x; first | (refine frame_cut (fp := fp) (orig := orig) (x := x) ?_ ?_ <;> first | (intro h0; generalize x = y at h0 ⊢; clear x) | intro h0 | subst x) | (have h0 := Nat.zero_le x; generalize x = y at h0 ⊢; clear h0 x) | subst x)
    | split
    | dsimp only
    | (with_reducible refine frame_mk ?_)

theorem State.handoff_frame {fp : List Part} {orig : State} {s : State}  (hs : Frame fp orig s)  (hdict : Part.dict ∈ fp := by assumption) (hstreams : Part.streams ∈ fp := by assumption) (hslots : Part.slots ∈ fp := by assumption) (herg : Part.erg ∈ fp := by assumption) :
    Frame fp orig (State.handoff s) := by
  unfold State.handoff
  repeat' first
    | intro _
    | with_reducible assumption
    | with_reducible apply State.ergOutcome_frame
    | with_reducible apply State.modSlot_frame
    | with_reducible apply State.count_frame
    | with_reducible apply State.setI_frame
    | with_reducible apply State.set_frame
    | with_reducible apply frame_ite
    | (extract_lets +onlyGivenNames -underBinder x; first | (refine frame_cut (fp := fp) (orig := orig) (x := x) ?_ ?_ <;> first | (intro h0; generalize x = y at h0 ⊢; clear x) | intro h0 | subst x) | (have h0 := Nat.zero_le x; generalize x = y at h0 ⊢; clear h0 x) | subst x)
    | split
    | dsimp only
    | (with_reducible refine frame_mk ?_)

theorem State.noSlot_frame {fp : List Part} {orig : State} {s : State}  (hs : Frame fp orig s)  (hdict : Part.dict ∈ fp := by assumption) (hstreams : Part.streams ∈ fp := by assumption) (herg : Part.erg ∈ fp := by assumption) :
    Frame fp orig (State.noSlot s) := by
  unfold State.noSlot
  repeat' first
    | intro _
    | with_reducible assumption
    | with_reducible apply State.ergOutcome_frame
    | with_reducible apply State.flag_frame
    | with_reducible apply frame_ite
    | (extract_lets +onlyGivenNames -underBinder x; first | (refine frame_cut (fp := fp) (orig := orig) (x := x) ?_ ?_ <;> first | (intro h0; generalize x = y at h0 ⊢; clear x) | intro h0 | subst x) | (have h0 := Nat.zero_le x; generalize x = y at h0 ⊢; clear h0 x) | subst x)
    | split
    | dsimp only
    | (with_reducible refine frame_mk ?_)

theorem State.autoFill_frame {fp : List Part} {orig : State} {s : State} (e : Nat) (c : Nat × Nat × Nat × Nat) (hs : Frame fp orig s)  (hdict : Part.dict ∈ fp := by assumption) :
    Frame fp orig (State.autoFill s e c) := by
  unfold State.autoFill
  repeat' first
    | intro _
    | with_reducible assumption
    | with_reducible apply State.set_frame
    | with_reducible apply frame_foldl
    | with_reducible apply frame_foldl_fst
    | with_reducible apply frame_ite
    | (extract_lets +onlyGivenNames -underBinder x; first | (refine frame_cut (fp := fp) (orig := orig) (x := x) ?_ ?_ <;> first | (intro h0; generalize x = y at h0 ⊢; clear x) | intro h0 | subst x) | (have h0 := Nat.zero_le x; generalize x = y at h0 ⊢; clear h0 x) | subst x)
    | split
    | dsimp only
    | (with_reducible refine frame_mk ?_)

theorem State.autoRefill_frame {fp : List Part} {orig : State} {s : State} (predicted : List (Nat × Nat × Int)) (hs : Frame fp orig s)  (hdict : Part.dict ∈ fp := by assumption) (herg : Part.erg ∈ fp := by assumption) :
    Frame fp orig (State.autoRefill s predicted) := by
  unfold State.autoRefill
  repeat' first
    | intro _
    | with_reducible assumption
    | with_reducible apply State.autoFill_frame
    | with_reducible apply State.set_frame
    | with_reducible apply frame_foldl
    | with_reducible apply frame_foldl_fst
    | with_reducible apply frame_ite
    | (extract_lets +onlyGivenNames -underBinder x; first | (refine frame_cut (fp := fp) (orig := orig) (x := x) ?_ ?_ <;> first | (intro h0; generalize x = y at h0 ⊢; clear x) | intro h0 | subst x) | (have h0 := Nat.zero_le x; generalize x = y at h0 ⊢; clear h0 x) | subst x)
    | split
    | dsimp only
    | (with_reducible refine frame_mk ?_)

theorem State.entryWritten_frame {fp : List Part} {orig : State} {s : State} (e : Nat) (v : Nat) (hs : Frame fp orig s)  (hdict : Part.dict ∈ fp := by assumption) (hstreams : Part.streams ∈ fp := by assumption) (herg : Part.erg ∈ fp := by assumption) :
    Frame fp orig (State.entryWritten s e v) := by
  unfold State.entryWritten
  repeat' first
    | intro _
    | with_reducible assumption
    | with_reducible apply State.runEnd_frame
    | with_reducible apply State.set_frame
    | with_reducible apply frame_ite
    | (extract_lets +onlyGivenNames -underBinder x; first | (refine frame_cut (fp := fp) (orig := orig) (x := x) ?_ ?_ <;> first | (intro h0; generalize x = y at h0 ⊢; clear x) | intro h0 | subst x) | (have h0 := Nat.zero_le x; generalize x = y at h0 ⊢; clear h0 x) | subst x)
    | split
    | dsimp only
    | (with_reducible refine frame_mk ?_)

theorem State.ergTick_frame {fp : List Part} {orig : State} {s : State}  (hs : Frame fp orig s)  (hdict : Part.dict ∈ fp := by assumption) (hstreams : Part.streams ∈ fp := by assumption) (hcpu : Part.cpu ∈ fp := by assumption) (hslots : Part.slots ∈ fp := by assumption) (hnav : Part.nav ∈ fp := by assumption) (herg : Part.erg ∈ fp := by assumption) :
    Frame fp orig (State.ergTick s) := by
  unfold State.ergTick
  repeat' first
    | intro _
    | with_reducible assumption
    | with_reducible apply State.resultsDrop_frame
    | with_reducible apply State.runsAbort_frame
    | with_reducible apply State.runEnd_frame
    | with_reducible apply State.modErg_frame
    | with_reducible apply State.slotsFreeWhere_frame
    | with_reducible apply State.set_frame
    | with_reducible apply frame_foldl
    | with_reducible apply frame_foldl_fst
    | with_reducible apply frame_ite
    | (extract_lets +onlyGivenNames -underBinder x; first | (refine frame_cut (fp := fp) (orig := orig) (x := x) ?_ ?_ <;> first | (intro h0; generalize x = y at h0 ⊢; clear x) | intro h0 | subst x) | (have h0 := Nat.zero_le x; generalize x = y at h0 ⊢; clear h0 x) | subst x)
    | split
    | dsimp only
    | (with_reducible refine frame_mk ?_)

theorem State.ergStep_frame {fp : List Part} {orig : State} {s : State}  (hs : Frame fp orig s)  (hdict : Part.dict ∈ fp := by assumption) (hstreams : Part.streams ∈ fp := by assumption) (herg : Part.erg ∈ fp := by assumption) :
    Frame fp orig (State.ergStep s) := by
  unfold State.ergStep
  repeat' first
    | intro _
    | with_reducible assumption
    | with_reducible apply State.resultsDrop_frame
    | with_reducible apply State.runsAbort_frame
    | dsimp only
    | (with_reducible refine frame_mk ?_)

theorem State.ergSleep_frame {fp : List Part} {orig : State} {s : State}  (hs : Frame fp orig s)  (hdict : Part.dict ∈ fp := by assumption) (hstreams : Part.streams ∈ fp := by assumption) (herg : Part.erg ∈ fp := by assumption) :
    Frame fp orig (State.ergSleep s) := by
  unfold State.ergSleep
  repeat' first
    | intro _
    | with_reducible assumption
    | with_reducible apply State.runsAbort_frame
    | dsimp only
    | (with_reducible refine frame_mk ?_)

theorem State.ergReset_frame {fp : List Part} {orig : State} {s : State}  (hs : Frame fp orig s)  (hstreams : Part.streams ∈ fp := by assumption) (herg : Part.erg ∈ fp := by assumption) :
    Frame fp orig (State.ergReset s) := by
  unfold State.ergReset
  repeat' first
    | intro _
    | with_reducible assumption
    | with_reducible apply State.setStream_frame
    | dsimp only
    | (with_reducible refine frame_mk ?_)

/-! ### Solution -/

theorem State.modSol_frame {fp : List Part} {orig : State} {s : State} (f : SolSt → SolSt) (hs : Frame fp orig s)  (hsol : Part.sol ∈ fp := by assumption) :
    Frame fp orig (State.modSol s f) := by
  unfold State.modSol
  repeat' first
    | intro _
    | with_reducible assumption
    | dsimp only
    | (with_reducible refine frame_mk ?_)

theorem State.epochObserve_frame {fp : List Part} {orig : State} {s : State} (te : Nat) (hs : Frame fp orig s)  (hfree : Part.free ∈ fp := by assumption) (hslots : Part.slots ∈ fp := by assumption) (hsol : Part.sol ∈ fp := by assumption) :
    Frame fp orig (State.epochObserve s te) := by
  unfold State.epochObserve
  repeat' first
    | intro _
    | with_reducible assumption
    | with_reducible apply State.modSlot_frame
    | with_reducible apply State.takeFree_frame
    | with_reducible apply frame_foldl
    | with_reducible apply frame_foldl_fst
    | with_reducible apply frame_ite
    | (extract_lets +onlyGivenNames -underBinder x; first | (refine frame_cut (fp := fp) (orig := orig) (x := x) ?_ ?_ <;> first | (intro h0; generalize x = y at h0 ⊢; clear x) | intro h0 | subst x) | (have h0 := Nat.zero_le x; generalize x = y at h0 ⊢; clear h0 x) | subst x)
    | split
    | dsimp only
    | (with_reducible refine frame_mk ?_)

theorem State.measure_frame {fp : List Part} {orig : State} {s : State}  (hs : Frame fp orig s)  (hdict : Part.dict ∈ fp := by assumption) (hsol : Part.sol ∈ fp := by assumption) :
    Frame fp orig (State.measure s) := by
  unfold State.measure
  repeat' first
    | intro _
    | with_reducible assumption
    | with_reducible apply State.count_frame
    | with_reducible apply frame_ite
    | (extract_lets +onlyGivenNames -underBinder x; first | (refine frame_cut (fp := fp) (orig := orig) (x := x) ?_ ?_ <;> first | (intro h0; generalize x = y at h0 ⊢; clear x) | intro h0 | subst x) | (have h0 := Nat.zero_le x; generalize x = y at h0 ⊢; clear h0 x) | subst x)
    | split
    | dsimp only
    | (with_reducible refine frame_mk ?_)

theorem State.epochAppend_frame {fp : List Part} {orig : State} {s : State} (e : EpochSt) (hs : Frame fp orig s)  (hdict : Part.dict ∈ fp := by assumption) (hstreams : Part.streams ∈ fp := by assumption) :
    Frame fp orig (State.epochAppend s e) := by
  unfold State.epochAppend
  repeat' first
    | intro _
    | with_reducible assumption
    | with_reducible apply State.append_frame
    | with_reducible apply State.streamDrop_frame
    | with_reducible apply frame_foldl
    | with_reducible apply frame_foldl_fst
    | with_reducible apply frame_ite
    | (extract_lets +onlyGivenNames -underBinder x; first | (refine frame_cut (fp := fp) (orig := orig) (x := x) ?_ ?_ <;> first | (intro h0; generalize x = y at h0 ⊢; clear x) | intro h0 | subst x) | (have h0 := Nat.zero_le x; generalize x = y at h0 ⊢; clear h0 x) | subst x)
    | split
    | dsimp only
    | (with_reducible refine frame_mk ?_)

theorem State.epochStream_frame {fp : List Part} {orig : State} {s : State}  (hs : Frame fp orig s)  (hdict : Part.dict ∈ fp := by assumption) (hstreams : Part.streams ∈ fp := by assumption) (hsol : Part.sol ∈ fp := by assumption) :
    Frame fp orig (State.epochStream s) := by
  unfold State.epochStream
  repeat' first
    | intro _
    | with_reducible assumption
    | with_reducible apply State.epochAppend_frame
    | split
    | dsimp only
    | (with_reducible refine frame_mk ?_)

theorem State.epochSkip_frame {fp : List Part} {orig : State} {s : State}  (hs : Frame fp orig s)  (hdict : Part.dict ∈ fp := by assumption) (hslots : Part.slots ∈ fp := by assumption) (hsol : Part.sol ∈ fp := by assumption) :
    Frame fp orig (State.epochSkip s) := by
  unfold State.epochSkip
  repeat' first
    | intro _
    | with_reducible assumption
    | with_reducible apply State.modSlot_frame
    | with_reducible apply State.flag_frame
    | with_reducible apply frame_foldl
    | with_reducible apply frame_foldl_fst
    | with_reducible apply frame_ite
    | (extract_lets +onlyGivenNames -underBinder x; first | (refine frame_cut (fp := fp) (orig := orig) (x := x) ?_ ?_ <;> first | (intro h0; generalize x = y at h0 ⊢; clear x) | intro h0 | subst x) | (have h0 := Nat.zero_le x; generalize x = y at h0 ⊢; clear h0 x) | subst x)
    | split
    | dsimp only
    | (with_reducible refine frame_mk ?_)

theorem State.epochTick_frame {fp : List Part} {orig : State} {s : State}  (hs : Frame fp orig s)  (hfree : Part.free ∈ fp := by assumption) (hslots : Part.slots ∈ fp := by assumption) (hsol : Part.sol ∈ fp := by assumption) :
    Frame fp orig (State.epochTick s) := by
  unfold State.epochTick
  repeat' first
    | intro _
    | with_reducible assumption
    | with_reducible apply State.epochObserve_frame
    | with_reducible apply frame_ite
    | (extract_lets +onlyGivenNames -underBinder x; first | (refine frame_cut (fp := fp) (orig := orig) (x := x) ?_ ?_ <;> first | (intro h0; generalize x = y at h0 ⊢; clear x) | intro h0 | subst x) | (have h0 := Nat.zero_le x; generalize x = y at h0 ⊢; clear h0 x) | subst x)
    | split
    | dsimp only
    | (with_reducible refine frame_mk ?_)

theorem State.qualifyBegin_frame {fp : List Part} {orig : State} {s : State}  (hs : Frame fp orig s)  (hsol : Part.sol ∈ fp := by assumption) :
    Frame fp orig (State.qualifyBegin s) := by
  unfold State.qualifyBegin
  repeat' first
    | intro _
    | with_reducible assumption
    | dsimp only
    | (with_reducible refine frame_mk ?_)

theorem State.qualifyStep_frame {fp : List Part} {orig : State} {s : State} (b : Int) (rates : Int) (sigma : Nat) (hs : Frame fp orig s)  (hsol : Part.sol ∈ fp := by assumption) :
    Frame fp orig (State.qualifyStep s b rates sigma).1 := by
  unfold State.qualifyStep
  repeat' first
    | intro _
    | with_reducible assumption
    | with_reducible apply frame_ite
    | with_reducible apply frame_ite_fst
    | (extract_lets +onlyGivenNames -underBinder x; first | (refine frame_cut (fp := fp) (orig := orig) (x := x) ?_ ?_ <;> first | (intro h0; generalize x = y at h0 ⊢; clear x) | intro h0 | subst x) | (have h0 := Nat.zero_le x; generalize x = y at h0 ⊢; clear h0 x) | subst x)
    | split
    | dsimp only
    | (with_reducible refine frame_mk ?_)

theorem State.trustFail_frame {fp : List Part} {orig : State} {s : State} (k : Nat) (d : Option Int) (hs : Frame fp orig s)  (hdict : Part.dict ∈ fp := by assumption) (hsilt : Part.silt ∈ fp := by assumption) (hsol : Part.sol ∈ fp := by assumption) :
    Frame fp orig (State.trustFail s k d) := by
  unfold State.trustFail
  repeat' first
    | intro _
    | with_reducible assumption
    | with_reducible apply State.setI_frame
    | with_reducible apply State.set_frame
    | with_reducible apply State.flag_frame
    | with_reducible apply State.log_frame
    | (extract_lets +onlyGivenNames -underBinder x; first | (refine frame_cut (fp := fp) (orig := orig) (x := x) ?_ ?_ <;> first | (intro h0; generalize x = y at h0 ⊢; clear x) | intro h0 | subst x) | (have h0 := Nat.zero_le x; generalize x = y at h0 ⊢; clear h0 x) | subst x)
    | split
    | dsimp only
    | (with_reducible refine frame_mk ?_)

theorem State.trustCheck_frame {fp : List Part} {orig : State} {s : State} (i : Nat) (k : Nat) (dwell : Nat) (cond : Bool) (d : Option Int) (hs : Frame fp orig s)  (hdict : Part.dict ∈ fp := by assumption) (hsilt : Part.silt ∈ fp := by assumption) (hsol : Part.sol ∈ fp := by assumption) :
    Frame fp orig (State.trustCheck s i k dwell cond d) := by
  unfold State.trustCheck
  repeat' first
    | intro _
    | with_reducible assumption
    | with_reducible apply State.trustFail_frame
    | with_reducible apply State.setI_frame
    | with_reducible apply frame_ite
    | (extract_lets +onlyGivenNames -underBinder x; first | (refine frame_cut (fp := fp) (orig := orig) (x := x) ?_ ?_ <;> first | (intro h0; generalize x = y at h0 ⊢; clear x) | intro h0 | subst x) | (have h0 := Nat.zero_le x; generalize x = y at h0 ⊢; clear h0 x) | subst x)
    | split
    | dsimp only
    | (with_reducible refine frame_mk ?_)

theorem State.trustJudge_frame {fp : List Part} {orig : State} {s : State} (e : EpochSt) (x : Int) (sigma : Nat) (far : List (Nat × Bool)) (hs : Frame fp orig s)  (hdict : Part.dict ∈ fp := by assumption) (hsilt : Part.silt ∈ fp := by assumption) (hsol : Part.sol ∈ fp := by assumption) :
    Frame fp orig (State.trustJudge s e x sigma far) := by
  unfold State.trustJudge
  repeat' first
    | intro _
    | with_reducible assumption
    | with_reducible apply State.trustCheck_frame
    | with_reducible apply State.qualifyBegin_frame
    | with_reducible apply State.set_frame
    | with_reducible apply frame_foldl
    | with_reducible apply frame_foldl_fst
    | with_reducible apply frame_ite
    | (extract_lets +onlyGivenNames -underBinder x; first | (refine frame_cut (fp := fp) (orig := orig) (x := x) ?_ ?_ <;> first | (intro h0; generalize x = y at h0 ⊢; clear x) | intro h0 | subst x) | (have h0 := Nat.zero_le x; generalize x = y at h0 ⊢; clear h0 x) | subst x)
    | split
    | dsimp only
    | (with_reducible refine frame_mk ?_)

theorem State.surveyAdd_frame {fp : List Part} {orig : State} {s : State} (a : Nat) (x : Int) (y : Int) (z : Int) (var : Rat) (hs : Frame fp orig s)  (hdict : Part.dict ∈ fp := by assumption) (hsilt : Part.silt ∈ fp := by assumption) (hsol : Part.sol ∈ fp := by assumption) :
    Frame fp orig (State.surveyAdd s a x y z var) := by
  unfold State.surveyAdd
  repeat' first
    | intro _
    | with_reducible assumption
    | with_reducible apply State.raise_frame
    | with_reducible apply State.count_frame
    | with_reducible apply State.setI_frame
    | with_reducible apply State.set_frame
    | with_reducible apply State.log_frame
    | with_reducible apply frame_ite
    | (extract_lets +onlyGivenNames -underBinder x; first | (refine frame_cut (fp := fp) (orig := orig) (x := x) ?_ ?_ <;> first | (intro h0; generalize x = y at h0 ⊢; clear x) | intro h0 | subst x) | (have h0 := Nat.zero_le x; generalize x = y at h0 ⊢; clear h0 x) | subst x)
    | split
    | dsimp only
    | (with_reducible refine frame_mk ?_)

theorem State.surveyRestart_frame {fp : List Part} {orig : State} {s : State} (a : Nat) (hs : Frame fp orig s)  (hdict : Part.dict ∈ fp := by assumption) (hsol : Part.sol ∈ fp := by assumption) :
    Frame fp orig (State.surveyRestart s a) := by
  unfold State.surveyRestart
  repeat' first
    | intro _
    | with_reducible assumption
    | with_reducible apply State.surveyBegin_frame
    | with_reducible apply State.flag_frame
    | with_reducible apply frame_ite
    | split
    | dsimp only
    | (with_reducible refine frame_mk ?_)

theorem State.surveysTick_frame {fp : List Part} {orig : State} {s : State}  (hs : Frame fp orig s)  (hdict : Part.dict ∈ fp := by assumption) (hsol : Part.sol ∈ fp := by assumption) :
    Frame fp orig (State.surveysTick s) := by
  unfold State.surveysTick
  repeat' first
    | intro _
    | with_reducible assumption
    | with_reducible apply State.surveyBegin_frame
    | with_reducible apply frame_foldl
    | with_reducible apply frame_foldl_fst
    | with_reducible apply frame_ite
    | split
    | dsimp only
    | (with_reducible refine frame_mk ?_)

theorem State.surveys_frame {fp : List Part} {orig : State} {s : State} (e : EpochSt) (hs : Frame fp orig s)  (hdict : Part.dict ∈ fp := by assumption) (hsilt : Part.silt ∈ fp := by assumption) (hsol : Part.sol ∈ fp := by assumption) :
    Frame fp orig (State.surveys s e) := by
  unfold State.surveys
  repeat' first
    | intro _
    | with_reducible assumption
    | with_reducible apply State.surveyAdd_frame
    | with_reducible apply frame_foldl
    | with_reducible apply frame_foldl_fst
    | with_reducible apply frame_ite
    | (extract_lets +onlyGivenNames -underBinder x; first | (refine frame_cut (fp := fp) (orig := orig) (x := x) ?_ ?_ <;> first | (intro h0; generalize x = y at h0 ⊢; clear x) | intro h0 | subst x) | (have h0 := Nat.zero_le x; generalize x = y at h0 ⊢; clear h0 x) | subst x)
    | split
    | dsimp only
    | (with_reducible refine frame_mk ?_)

theorem State.offsetsShow_frame {fp : List Part} {orig : State} {s : State} (e : EpochSt) (r : Solved) (hs : Frame fp orig s)  (hdict : Part.dict ∈ fp := by assumption) :
    Frame fp orig (State.offsetsShow s e r) := by
  unfold State.offsetsShow
  repeat' first
    | intro _
    | with_reducible assumption
    | with_reducible apply State.setI_frame
    | with_reducible apply State.set_frame
    | with_reducible apply frame_foldl
    | with_reducible apply frame_foldl_fst
    | with_reducible apply frame_ite
    | (extract_lets +onlyGivenNames -underBinder x; first | (refine frame_cut (fp := fp) (orig := orig) (x := x) ?_ ?_ <;> first | (intro h0; generalize x = y at h0 ⊢; clear x) | intro h0 | subst x) | (have h0 := Nat.zero_le x; generalize x = y at h0 ⊢; clear h0 x) | subst x)
    | split
    | dsimp only
    | (with_reducible refine frame_mk ?_)

theorem State.tdopShow_frame {fp : List Part} {orig : State} {s : State} (r : Solved) (hs : Frame fp orig s)  (hdict : Part.dict ∈ fp := by assumption) (hfree : Part.free ∈ fp := by assumption) :
    Frame fp orig (State.tdopShow s r) := by
  unfold State.tdopShow
  repeat' first
    | intro _
    | with_reducible assumption
    | with_reducible apply State.takeFree_frame
    | with_reducible apply State.set_frame
    | split
    | dsimp only
    | (with_reducible refine frame_mk ?_)

theorem State.solutionValid_frame {fp : List Part} {orig : State} {s : State} (e : EpochSt) (r : Solved) (f : Fit) (unv : Bool) (hs : Frame fp orig s)  (hdict : Part.dict ∈ fp := by assumption) (hsilt : Part.silt ∈ fp := by assumption) (hfree : Part.free ∈ fp := by assumption) (htime : Part.time ∈ fp := by assumption) (herg : Part.erg ∈ fp := by assumption) (hsol : Part.sol ∈ fp := by assumption) :
    Frame fp orig (State.solutionValid s e r f unv) := by
  unfold State.solutionValid
  repeat' first
    | intro _
    | with_reducible assumption
    | with_reducible apply State.tdopShow_frame
    | with_reducible apply State.surveys_frame
    | with_reducible apply State.trustJudge_frame
    | with_reducible apply State.qualifyStep_frame
    | with_reducible apply State.modSol_frame
    | with_reducible apply State.firstEstimate_frame
    | with_reducible apply State.sourceUpdate_frame
    | with_reducible apply State.setB_frame
    | with_reducible apply State.setI_frame
    | with_reducible apply State.set_frame
    | with_reducible apply frame_foldl
    | with_reducible apply frame_foldl_fst
    | with_reducible apply frame_ite
    | (extract_lets +onlyGivenNames -underBinder x; first | (refine frame_cut (fp := fp) (orig := orig) (x := x) ?_ ?_ <;> first | (intro h0; generalize x = y at h0 ⊢; clear x) | intro h0 | subst x) | (have h0 := Nat.zero_le x; generalize x = y at h0 ⊢; clear h0 x) | subst x)
    | (with_reducible refine frame_fst (by with_reducible assumption) ?_)
    | (with_reducible refine frame_snd (by with_reducible assumption) ?_)
    | split
    | dsimp only
    | (with_reducible refine frame_mk ?_)

theorem State.solution_frame {fp : List Part} {orig : State} {s : State}  (hs : Frame fp orig s)  (hdict : Part.dict ∈ fp := by assumption) (hstreams : Part.streams ∈ fp := by assumption) (hsilt : Part.silt ∈ fp := by assumption) (hfree : Part.free ∈ fp := by assumption) (htime : Part.time ∈ fp := by assumption) (herg : Part.erg ∈ fp := by assumption) (hsol : Part.sol ∈ fp := by assumption) :
    Frame fp orig (State.solution s) := by
  unfold State.solution
  repeat' first
    | intro _
    | with_reducible assumption
    | with_reducible apply State.solutionValid_frame
    | with_reducible apply State.offsetsShow_frame
    | with_reducible apply State.epochAppend_frame
    | with_reducible apply State.fallback_frame
    | with_reducible apply State.raise_frame
    | with_reducible apply State.setB_frame
    | with_reducible apply State.set_frame
    | with_reducible apply State.flag_frame
    | with_reducible apply frame_foldl
    | with_reducible apply frame_foldl_fst
    | with_reducible apply frame_ite
    | (extract_lets +onlyGivenNames -underBinder x; first | (refine frame_cut (fp := fp) (orig := orig) (x := x) ?_ ?_ <;> first | (intro h0; generalize x = y at h0 ⊢; clear x) | intro h0 | subst x) | (have h0 := Nat.zero_le x; generalize x = y at h0 ⊢; clear h0 x) | subst x)
    | split
    | dsimp only
    | (with_reducible refine frame_mk ?_)

theorem State.solutionSkip_frame {fp : List Part} {orig : State} {s : State}  (hs : Frame fp orig s)  (hdict : Part.dict ∈ fp := by assumption) (hsol : Part.sol ∈ fp := by assumption) :
    Frame fp orig (State.solutionSkip s) := by
  unfold State.solutionSkip
  repeat' first
    | intro _
    | with_reducible assumption
    | with_reducible apply State.solution_frame
    | with_reducible apply State.setB_frame
    | with_reducible apply State.flag_frame
    | (extract_lets +onlyGivenNames -underBinder x; first | (refine frame_cut (fp := fp) (orig := orig) (x := x) ?_ ?_ <;> first | (intro h0; generalize x = y at h0 ⊢; clear x) | intro h0 | subst x) | (have h0 := Nat.zero_le x; generalize x = y at h0 ⊢; clear h0 x) | subst x)
    | split
    | dsimp only
    | (with_reducible refine frame_mk ?_)

theorem State.solStep_frame {fp : List Part} {orig : State} {s : State}  (hs : Frame fp orig s)  (hslots : Part.slots ∈ fp := by assumption) (hsol : Part.sol ∈ fp := by assumption) :
    Frame fp orig (State.solStep s) := by
  unfold State.solStep
  repeat' first
    | intro _
    | with_reducible assumption
    | with_reducible apply State.solution_frame
    | with_reducible apply State.qualifyBegin_frame
    | with_reducible apply State.modSlot_frame
    | with_reducible apply frame_foldl
    | with_reducible apply frame_foldl_fst
    | (extract_lets +onlyGivenNames -underBinder x; first | (refine frame_cut (fp := fp) (orig := orig) (x := x) ?_ ?_ <;> first | (intro h0; generalize x = y at h0 ⊢; clear x) | intro h0 | subst x) | (have h0 := Nat.zero_le x; generalize x = y at h0 ⊢; clear h0 x) | subst x)
    | dsimp only
    | (with_reducible refine frame_mk ?_)

theorem State.solReset_frame {fp : List Part} {orig : State} {s : State}  (hs : Frame fp orig s)  (hdict : Part.dict ∈ fp := by assumption) (hstreams : Part.streams ∈ fp := by assumption) (hsol : Part.sol ∈ fp := by assumption) :
    Frame fp orig (State.solReset s) := by
  unfold State.solReset
  repeat' first
    | intro _
    | with_reducible assumption
    | with_reducible apply State.setStream_frame
    | with_reducible apply State.flag_frame
    | with_reducible apply frame_foldl
    | with_reducible apply frame_foldl_fst
    | with_reducible apply frame_ite
    | (extract_lets +onlyGivenNames -underBinder x; first | (refine frame_cut (fp := fp) (orig := orig) (x := x) ?_ ?_ <;> first | (intro h0; generalize x = y at h0 ⊢; clear x) | intro h0 | subst x) | (have h0 := Nat.zero_le x; generalize x = y at h0 ⊢; clear h0 x) | subst x)
    | split
    | dsimp only
    | (with_reducible refine frame_mk ?_)

/-! ### LakeMember -/

theorem State.modLake_frame {fp : List Part} {orig : State} {s : State} (f : LakeSt → LakeSt) (hs : Frame fp orig s)  (hlake : Part.lake ∈ fp := by assumption) :
    Frame fp orig (State.modLake s f) := by
  unfold State.modLake
  repeat' first
    | intro _
    | with_reducible assumption
    | dsimp only
    | (with_reducible refine frame_mk ?_)

theorem State.lakeTake_frame {fp : List Part} {orig : State} {s : State} (op : Nat) (hs : Frame fp orig s)  (hdict : Part.dict ∈ fp := by assumption) (hnet : Part.net ∈ fp := by assumption) :
    Frame fp orig (State.lakeTake s op).2 := by
  unfold State.lakeTake
  repeat' first
    | intro _
    | with_reducible assumption
    | with_reducible apply State.netTake_frame
    | with_reducible apply frame_ite_snd
    | (with_reducible refine frame_fst (by with_reducible assumption) ?_)
    | (with_reducible refine frame_snd (by with_reducible assumption) ?_)
    | dsimp only
    | (with_reducible refine frame_mk ?_)

theorem State.sightingsSend_frame {fp : List Part} {orig : State} {s : State}  (hs : Frame fp orig s)  (hdict : Part.dict ∈ fp := by assumption) (hports : Part.ports ∈ fp := by assumption) (hnet : Part.net ∈ fp := by assumption) :
    Frame fp orig (State.sightingsSend s) := by
  unfold State.sightingsSend
  repeat' first
    | intro _
    | with_reducible assumption
    | with_reducible apply State.netSend_frame
    | with_reducible apply frame_foldl
    | with_reducible apply frame_foldl_fst
    | with_reducible apply frame_ite
    | (extract_lets +onlyGivenNames -underBinder x; first | (refine frame_cut (fp := fp) (orig := orig) (x := x) ?_ ?_ <;> first | (intro h0; generalize x = y at h0 ⊢; clear x) | intro h0 | subst x) | (have h0 := Nat.zero_le x; generalize x = y at h0 ⊢; clear h0 x) | subst x)
    | split
    | dsimp only
    | (with_reducible refine frame_mk ?_)

theorem State.offersSend_frame {fp : List Part} {orig : State} {s : State}  (hs : Frame fp orig s)  (hdict : Part.dict ∈ fp := by assumption) (hnav : Part.nav ∈ fp := by assumption) (hports : Part.ports ∈ fp := by assumption) (hnet : Part.net ∈ fp := by assumption) :
    Frame fp orig (State.offersSend s) := by
  unfold State.offersSend
  repeat' first
    | intro _
    | with_reducible assumption
    | with_reducible apply State.netSend_frame
    | with_reducible apply frame_foldl
    | with_reducible apply frame_foldl_fst
    | with_reducible apply frame_ite
    | (extract_lets +onlyGivenNames -underBinder x; first | (refine frame_cut (fp := fp) (orig := orig) (x := x) ?_ ?_ <;> first | (intro h0; generalize x = y at h0 ⊢; clear x) | intro h0 | subst x) | (have h0 := Nat.zero_le x; generalize x = y at h0 ⊢; clear h0 x) | subst x)
    | split
    | dsimp only
    | (with_reducible refine frame_mk ?_)

theorem State.blocksSend_frame {fp : List Part} {orig : State} {s : State}  (hs : Frame fp orig s)  (hdict : Part.dict ∈ fp := by assumption) (hnav : Part.nav ∈ fp := by assumption) (hports : Part.ports ∈ fp := by assumption) (hnet : Part.net ∈ fp := by assumption) :
    Frame fp orig (State.blocksSend s) := by
  unfold State.blocksSend
  repeat' first
    | intro _
    | with_reducible assumption
    | with_reducible apply State.netSend_frame
    | with_reducible apply State.count_frame
    | with_reducible apply frame_foldl
    | with_reducible apply frame_foldl_fst
    | with_reducible apply frame_ite
    | (extract_lets +onlyGivenNames -underBinder x; first | (refine frame_cut (fp := fp) (orig := orig) (x := x) ?_ ?_ <;> first | (intro h0; generalize x = y at h0 ⊢; clear x) | intro h0 | subst x) | (have h0 := Nat.zero_le x; generalize x = y at h0 ⊢; clear h0 x) | subst x)
    | split
    | dsimp only
    | (with_reducible refine frame_mk ?_)

theorem State.sightingsKeep_frame {fp : List Part} {orig : State} {s : State} (l : List Sighting) (hs : Frame fp orig s)  (hdict : Part.dict ∈ fp := by assumption) (hnav : Part.nav ∈ fp := by assumption) :
    Frame fp orig (State.sightingsKeep s l) := by
  unfold State.sightingsKeep
  repeat' first
    | intro _
    | with_reducible assumption
    | with_reducible apply State.set_frame
    | (extract_lets +onlyGivenNames -underBinder x; first | (refine frame_cut (fp := fp) (orig := orig) (x := x) ?_ ?_ <;> first | (intro h0; generalize x = y at h0 ⊢; clear x) | intro h0 | subst x) | (have h0 := Nat.zero_le x; generalize x = y at h0 ⊢; clear h0 x) | subst x)
    | dsimp only
    | (with_reducible refine frame_mk ?_)

theorem State.sightingsIn_frame {fp : List Part} {orig : State} {s : State}  (hs : Frame fp orig s)  (hdict : Part.dict ∈ fp := by assumption) (hnav : Part.nav ∈ fp := by assumption) (hnet : Part.net ∈ fp := by assumption) :
    Frame fp orig (State.sightingsIn s) := by
  unfold State.sightingsIn
  repeat' first
    | intro _
    | with_reducible assumption
    | with_reducible apply State.sightingsKeep_frame
    | with_reducible apply State.lakeTake_frame
    | with_reducible apply State.netBad_frame
    | with_reducible apply frame_ite
    | (extract_lets +onlyGivenNames -underBinder x; first | (refine frame_cut (fp := fp) (orig := orig) (x := x) ?_ ?_ <;> first | (intro h0; generalize x = y at h0 ⊢; clear x) | intro h0 | subst x) | (have h0 := Nat.zero_le x; generalize x = y at h0 ⊢; clear h0 x) | subst x)
    | (with_reducible refine frame_fst (by with_reducible assumption) ?_)
    | (with_reducible refine frame_snd (by with_reducible assumption) ?_)
    | split
    | dsimp only
    | (with_reducible refine frame_mk ?_)

theorem State.sightingsExpire_frame {fp : List Part} {orig : State} {s : State}  (hs : Frame fp orig s)  (hdict : Part.dict ∈ fp := by assumption) (hnav : Part.nav ∈ fp := by assumption) :
    Frame fp orig (State.sightingsExpire s) := by
  unfold State.sightingsExpire
  repeat' first
    | intro _
    | with_reducible assumption
    | with_reducible apply State.sightingsKeep_frame
    | dsimp only
    | (with_reducible refine frame_mk ?_)

theorem State.ephemerisIn_frame {fp : List Part} {orig : State} {s : State}  (hs : Frame fp orig s)  (hdict : Part.dict ∈ fp := by assumption) (hnav : Part.nav ∈ fp := by assumption) (hports : Part.ports ∈ fp := by assumption) (hnet : Part.net ∈ fp := by assumption) :
    Frame fp orig (State.ephemerisIn s) := by
  unfold State.ephemerisIn
  repeat' first
    | intro _
    | with_reducible assumption
    | with_reducible apply State.offersSend_frame
    | with_reducible apply State.lakeTake_frame
    | with_reducible apply State.netBad_frame
    | with_reducible apply State.storePeer_frame
    | with_reducible apply frame_ite
    | (extract_lets +onlyGivenNames -underBinder x; first | (refine frame_cut (fp := fp) (orig := orig) (x := x) ?_ ?_ <;> first | (intro h0; generalize x = y at h0 ⊢; clear x) | intro h0 | subst x) | (have h0 := Nat.zero_le x; generalize x = y at h0 ⊢; clear h0 x) | subst x)
    | (with_reducible refine frame_fst (by with_reducible assumption) ?_)
    | (with_reducible refine frame_snd (by with_reducible assumption) ?_)
    | split
    | dsimp only
    | (with_reducible refine frame_mk ?_)

theorem State.symbolsTake_frame {fp : List Part} {orig : State} {s : State}  (hs : Frame fp orig s)  (hdict : Part.dict ∈ fp := by assumption) (hnav : Part.nav ∈ fp := by assumption) (hnet : Part.net ∈ fp := by assumption) :
    Frame fp orig (State.symbolsTake s) := by
  unfold State.symbolsTake
  repeat' first
    | intro _
    | with_reducible assumption
    | with_reducible apply State.lakeTake_frame
    | with_reducible apply State.symbolsIn_frame
    | (with_reducible refine frame_fst (by with_reducible assumption) ?_)
    | (with_reducible refine frame_snd (by with_reducible assumption) ?_)
    | split
    | dsimp only
    | (with_reducible refine frame_mk ?_)

theorem State.subscribeIn_frame {fp : List Part} {orig : State} {s : State}  (hs : Frame fp orig s)  (hdict : Part.dict ∈ fp := by assumption) (hnet : Part.net ∈ fp := by assumption) (hlake : Part.lake ∈ fp := by assumption) :
    Frame fp orig (State.subscribeIn s) := by
  unfold State.subscribeIn
  repeat' first
    | intro _
    | with_reducible assumption
    | with_reducible apply State.lakeTake_frame
    | with_reducible apply State.netBad_frame
    | with_reducible apply State.set_frame
    | with_reducible apply State.flag_frame
    | with_reducible apply frame_foldl
    | with_reducible apply frame_foldl_fst
    | with_reducible apply frame_ite
    | (extract_lets +onlyGivenNames -underBinder x; first | (refine frame_cut (fp := fp) (orig := orig) (x := x) ?_ ?_ <;> first | (intro h0; generalize x = y at h0 ⊢; clear x) | intro h0 | subst x) | (have h0 := Nat.zero_le x; generalize x = y at h0 ⊢; clear h0 x) | subst x)
    | (with_reducible refine frame_fst (by with_reducible assumption) ?_)
    | (with_reducible refine frame_snd (by with_reducible assumption) ?_)
    | split
    | dsimp only
    | (with_reducible refine frame_mk ?_)

theorem State.subscriptionsExpire_frame {fp : List Part} {orig : State} {s : State}  (hs : Frame fp orig s)  (hdict : Part.dict ∈ fp := by assumption) (hlake : Part.lake ∈ fp := by assumption) :
    Frame fp orig (State.subscriptionsExpire s) := by
  unfold State.subscriptionsExpire
  repeat' first
    | intro _
    | with_reducible assumption
    | with_reducible apply State.set_frame
    | (extract_lets +onlyGivenNames -underBinder x; first | (refine frame_cut (fp := fp) (orig := orig) (x := x) ?_ ?_ <;> first | (intro h0; generalize x = y at h0 ⊢; clear x) | intro h0 | subst x) | (have h0 := Nat.zero_le x; generalize x = y at h0 ⊢; clear h0 x) | subst x)
    | dsimp only
    | (with_reducible refine frame_mk ?_)

theorem State.subscribeRenew_frame {fp : List Part} {orig : State} {s : State}  (hs : Frame fp orig s)  (hdict : Part.dict ∈ fp := by assumption) (hports : Part.ports ∈ fp := by assumption) (hnet : Part.net ∈ fp := by assumption) (hlake : Part.lake ∈ fp := by assumption) :
    Frame fp orig (State.subscribeRenew s) := by
  unfold State.subscribeRenew
  repeat' first
    | intro _
    | with_reducible assumption
    | with_reducible apply State.netSend_frame
    | with_reducible apply State.set_frame
    | with_reducible apply frame_foldl
    | with_reducible apply frame_foldl_fst
    | with_reducible apply frame_ite
    | (extract_lets +onlyGivenNames -underBinder x; first | (refine frame_cut (fp := fp) (orig := orig) (x := x) ?_ ?_ <;> first | (intro h0; generalize x = y at h0 ⊢; clear x) | intro h0 | subst x) | (have h0 := Nat.zero_le x; generalize x = y at h0 ⊢; clear h0 x) | subst x)
    | split
    | dsimp only
    | (with_reducible refine frame_mk ?_)

theorem State.modCv_frame {fp : List Part} {orig : State} {s : State} (p : Nat) (x : CvSt) (hs : Frame fp orig s)  (hlake : Part.lake ∈ fp := by assumption) :
    Frame fp orig (State.modCv s p x) := by
  unfold State.modCv
  repeat' first
    | intro _
    | with_reducible assumption
    | with_reducible apply frame_ite
    | split
    | dsimp only
    | (with_reducible refine frame_mk ?_)

theorem State.cvSend_frame {fp : List Part} {orig : State} {s : State} (te : Nat) (obs : List CvObs) (hs : Frame fp orig s)  (hdict : Part.dict ∈ fp := by assumption) (hports : Part.ports ∈ fp := by assumption) (hnet : Part.net ∈ fp := by assumption) :
    Frame fp orig (State.cvSend s te obs) := by
  unfold State.cvSend
  repeat' first
    | intro _
    | with_reducible assumption
    | with_reducible apply State.netSend_frame
    | with_reducible apply frame_foldl
    | with_reducible apply frame_foldl_fst
    | with_reducible apply frame_ite
    | (extract_lets +onlyGivenNames -underBinder x; first | (refine frame_cut (fp := fp) (orig := orig) (x := x) ?_ ?_ <;> first | (intro h0; generalize x = y at h0 ⊢; clear x) | intro h0 | subst x) | (have h0 := Nat.zero_le x; generalize x = y at h0 ⊢; clear h0 x) | subst x)
    | split
    | dsimp only
    | (with_reducible refine frame_mk ?_)

theorem State.measureEpoch_frame {fp : List Part} {orig : State} {s : State}  (hs : Frame fp orig s)  (hdict : Part.dict ∈ fp := by assumption) (hsol : Part.sol ∈ fp := by assumption) (hports : Part.ports ∈ fp := by assumption) (hnet : Part.net ∈ fp := by assumption) (hlake : Part.lake ∈ fp := by assumption) :
    Frame fp orig (State.measureEpoch s) := by
  unfold State.measureEpoch
  repeat' first
    | intro _
    | with_reducible assumption
    | with_reducible apply State.cvSend_frame
    | with_reducible apply State.modLake_frame
    | with_reducible apply State.measure_frame
    | with_reducible apply frame_ite
    | (extract_lets +onlyGivenNames -underBinder x; first | (refine frame_cut (fp := fp) (orig := orig) (x := x) ?_ ?_ <;> first | (intro h0; generalize x = y at h0 ⊢; clear x) | intro h0 | subst x) | (have h0 := Nat.zero_le x; generalize x = y at h0 ⊢; clear h0 x) | subst x)
    | split
    | dsimp only
    | (with_reducible refine frame_mk ?_)

theorem State.cvAdvance_frame {fp : List Part} {orig : State} {s : State} (p : Nat) (sec : Nat) (own : List CvObs) (peer : List CvObs) (hs : Frame fp orig s)  (hdict : Part.dict ∈ fp := by assumption) (hlake : Part.lake ∈ fp := by assumption) :
    Frame fp orig (State.cvAdvance s p sec own peer) := by
  unfold State.cvAdvance
  repeat' first
    | intro _
    | with_reducible assumption
    | with_reducible apply State.modCv_frame
    | with_reducible apply State.setI_frame
    | with_reducible apply State.set_frame
    | with_reducible apply State.flag_frame
    | with_reducible apply frame_ite
    | (extract_lets +onlyGivenNames -underBinder x; first | (refine frame_cut (fp := fp) (orig := orig) (x := x) ?_ ?_ <;> first | (intro h0; generalize x = y at h0 ⊢; clear x) | intro h0 | subst x) | (have h0 := Nat.zero_le x; generalize x = y at h0 ⊢; clear h0 x) | subst x)
    | split
    | dsimp only
    | (with_reducible refine frame_mk ?_)

theorem State.cvIn_frame {fp : List Part} {orig : State} {s : State}  (hs : Frame fp orig s)  (hdict : Part.dict ∈ fp := by assumption) (hnet : Part.net ∈ fp := by assumption) (hlake : Part.lake ∈ fp := by assumption) :
    Frame fp orig (State.cvIn s) := by
  unfold State.cvIn
  repeat' first
    | intro _
    | with_reducible assumption
    | with_reducible apply State.cvAdvance_frame
    | with_reducible apply State.lakeTake_frame
    | with_reducible apply State.netBad_frame
    | with_reducible apply frame_ite
    | (extract_lets +onlyGivenNames -underBinder x; first | (refine frame_cut (fp := fp) (orig := orig) (x := x) ?_ ?_ <;> first | (intro h0; generalize x = y at h0 ⊢; clear x) | intro h0 | subst x) | (have h0 := Nat.zero_le x; generalize x = y at h0 ⊢; clear h0 x) | subst x)
    | (with_reducible refine frame_fst (by with_reducible assumption) ?_)
    | (with_reducible refine frame_snd (by with_reducible assumption) ?_)
    | split
    | dsimp only
    | (with_reducible refine frame_mk ?_)

theorem State.neighboursIn_frame {fp : List Part} {orig : State} {s : State}  (hs : Frame fp orig s)  (hdict : Part.dict ∈ fp := by assumption) (hports : Part.ports ∈ fp := by assumption) (hnet : Part.net ∈ fp := by assumption) (hlake : Part.lake ∈ fp := by assumption) :
    Frame fp orig (State.neighboursIn s) := by
  unfold State.neighboursIn
  repeat' first
    | intro _
    | with_reducible assumption
    | with_reducible apply State.modCv_frame
    | with_reducible apply State.lakeTake_frame
    | with_reducible apply State.netBad_frame
    | with_reducible apply State.netSend_frame
    | with_reducible apply State.set_frame
    | with_reducible apply State.flag_frame
    | with_reducible apply frame_foldl
    | with_reducible apply frame_foldl_fst
    | with_reducible apply frame_ite
    | (extract_lets +onlyGivenNames -underBinder x; first | (refine frame_cut (fp := fp) (orig := orig) (x := x) ?_ ?_ <;> first | (intro h0; generalize x = y at h0 ⊢; clear x) | intro h0 | subst x) | (have h0 := Nat.zero_le x; generalize x = y at h0 ⊢; clear h0 x) | subst x)
    | (with_reducible refine frame_fst (by with_reducible assumption) ?_)
    | (with_reducible refine frame_snd (by with_reducible assumption) ?_)
    | split
    | dsimp only
    | (with_reducible refine frame_mk ?_)

theorem State.lakeEpoch_frame {fp : List Part} {orig : State} {s : State}  (hs : Frame fp orig s)  (hdict : Part.dict ∈ fp := by assumption) (hsol : Part.sol ∈ fp := by assumption) (hports : Part.ports ∈ fp := by assumption) (hnet : Part.net ∈ fp := by assumption) (hlake : Part.lake ∈ fp := by assumption) :
    Frame fp orig (State.lakeEpoch s) := by
  unfold State.lakeEpoch
  repeat' first
    | intro _
    | with_reducible assumption
    | with_reducible apply State.sightingsSend_frame
    | with_reducible apply State.modLake_frame
    | with_reducible apply State.modSol_frame
    | with_reducible apply State.netSend_frame
    | with_reducible apply State.modPort_frame
    | with_reducible apply State.set_frame
    | with_reducible apply State.flag_frame
    | with_reducible apply frame_foldl
    | with_reducible apply frame_foldl_fst
    | with_reducible apply frame_ite
    | (extract_lets +onlyGivenNames -underBinder x; first | (refine frame_cut (fp := fp) (orig := orig) (x := x) ?_ ?_ <;> first | (intro h0; generalize x = y at h0 ⊢; clear x) | intro h0 | subst x) | (have h0 := Nat.zero_le x; generalize x = y at h0 ⊢; clear h0 x) | subst x)
    | split
    | dsimp only
    | (with_reducible refine frame_mk ?_)

theorem State.lakeLost_frame {fp : List Part} {orig : State} {s : State}  (hs : Frame fp orig s)  (hdict : Part.dict ∈ fp := by assumption) :
    Frame fp orig (State.lakeLost s) := by
  unfold State.lakeLost
  repeat' first
    | intro _
    | with_reducible assumption
    | with_reducible apply State.setB_frame
    | with_reducible apply State.flag_frame
    | with_reducible apply frame_ite
    | split
    | dsimp only
    | (with_reducible refine frame_mk ?_)

theorem State.estimateUse_frame {fp : List Part} {orig : State} {s : State} (x : Int) (rate : Int) (edge : Nat) (hs : Frame fp orig s)  (hdict : Part.dict ∈ fp := by assumption) (hsilt : Part.silt ∈ fp := by assumption) (htime : Part.time ∈ fp := by assumption) (herg : Part.erg ∈ fp := by assumption) (hsol : Part.sol ∈ fp := by assumption) :
    Frame fp orig (State.estimateUse s x rate edge) := by
  unfold State.estimateUse
  repeat' first
    | intro _
    | with_reducible assumption
    | with_reducible apply State.firstEstimate_frame
    | with_reducible apply State.sourceUpdate_frame
    | with_reducible apply State.set_frame
    | with_reducible apply frame_ite
    | (extract_lets +onlyGivenNames -underBinder x; first | (refine frame_cut (fp := fp) (orig := orig) (x := x) ?_ ?_ <;> first | (intro h0; generalize x = y at h0 ⊢; clear x) | intro h0 | subst x) | (have h0 := Nat.zero_le x; generalize x = y at h0 ⊢; clear h0 x) | subst x)
    | split
    | dsimp only
    | (with_reducible refine frame_mk ?_)

theorem State.estimateIn_frame {fp : List Part} {orig : State} {s : State}  (hs : Frame fp orig s)  (hdict : Part.dict ∈ fp := by assumption) (hsilt : Part.silt ∈ fp := by assumption) (htime : Part.time ∈ fp := by assumption) (herg : Part.erg ∈ fp := by assumption) (hsol : Part.sol ∈ fp := by assumption) (hnet : Part.net ∈ fp := by assumption) (hlake : Part.lake ∈ fp := by assumption) :
    Frame fp orig (State.estimateIn s) := by
  unfold State.estimateIn
  repeat' first
    | intro _
    | with_reducible assumption
    | with_reducible apply State.estimateUse_frame
    | with_reducible apply State.lakeLost_frame
    | with_reducible apply State.lakeTake_frame
    | with_reducible apply State.netBad_frame
    | with_reducible apply State.setB_frame
    | with_reducible apply State.setI_frame
    | with_reducible apply State.set_frame
    | with_reducible apply State.flag_frame
    | with_reducible apply frame_ite
    | (extract_lets +onlyGivenNames -underBinder x; first | (refine frame_cut (fp := fp) (orig := orig) (x := x) ?_ ?_ <;> first | (intro h0; generalize x = y at h0 ⊢; clear x) | intro h0 | subst x) | (have h0 := Nat.zero_le x; generalize x = y at h0 ⊢; clear h0 x) | subst x)
    | (with_reducible refine frame_fst (by with_reducible assumption) ?_)
    | (with_reducible refine frame_snd (by with_reducible assumption) ?_)
    | split
    | dsimp only
    | (with_reducible refine frame_mk ?_)

theorem State.estimateLoss_frame {fp : List Part} {orig : State} {s : State}  (hs : Frame fp orig s)  (hdict : Part.dict ∈ fp := by assumption) :
    Frame fp orig (State.estimateLoss s) := by
  unfold State.estimateLoss
  repeat' first
    | intro _
    | with_reducible assumption
    | with_reducible apply State.lakeLost_frame
    | with_reducible apply frame_ite
    | (extract_lets +onlyGivenNames -underBinder x; first | (refine frame_cut (fp := fp) (orig := orig) (x := x) ?_ ?_ <;> first | (intro h0; generalize x = y at h0 ⊢; clear x) | intro h0 | subst x) | (have h0 := Nat.zero_le x; generalize x = y at h0 ⊢; clear h0 x) | subst x)
    | split
    | dsimp only
    | (with_reducible refine frame_mk ?_)

theorem State.lakeTick_frame {fp : List Part} {orig : State} {s : State}  (hs : Frame fp orig s)  (hdict : Part.dict ∈ fp := by assumption) (hlake : Part.lake ∈ fp := by assumption) :
    Frame fp orig (State.lakeTick s) := by
  unfold State.lakeTick
  repeat' first
    | intro _
    | with_reducible assumption
    | with_reducible apply State.lakeLost_frame
    | with_reducible apply State.steer_frame
    | with_reducible apply frame_ite
    | (extract_lets +onlyGivenNames -underBinder x; first | (refine frame_cut (fp := fp) (orig := orig) (x := x) ?_ ?_ <;> first | (intro h0; generalize x = y at h0 ⊢; clear x) | intro h0 | subst x) | (have h0 := Nat.zero_le x; generalize x = y at h0 ⊢; clear h0 x) | subst x)
    | split
    | dsimp only
    | (with_reducible refine frame_mk ?_)

theorem State.lakeStep_frame {fp : List Part} {orig : State} {s : State}  (hs : Frame fp orig s)  (hlake : Part.lake ∈ fp := by assumption) :
    Frame fp orig (State.lakeStep s) := by
  unfold State.lakeStep
  repeat' first
    | intro _
    | with_reducible assumption
    | dsimp only
    | (with_reducible refine frame_mk ?_)

theorem State.lakeReset_frame {fp : List Part} {orig : State} {s : State}  (hs : Frame fp orig s)  (hlake : Part.lake ∈ fp := by assumption) :
    Frame fp orig (State.lakeReset s) := by
  unfold State.lakeReset
  repeat' first
    | intro _
    | with_reducible assumption
    | dsimp only
    | (with_reducible refine frame_mk ?_)

end Sys2Proof.Machine
end

