-- ==== Sys2Proof/Laws/FrameRequests.lean ====
section
/-!
SUPPORT. What the operations leave alone: transactions, writes, protection, rings and requests.
-/

set_option linter.all false
set_option Elab.async false

namespace Sys2Proof.Machine

/-! ### Txn -/

theorem State.txnSend_frame {fp : List Part} {orig : State} {s : State} (t : TxnEnt) (hs : Frame fp orig s)  (hdict : Part.dict ∈ fp := by assumption) (hports : Part.ports ∈ fp := by assumption) (hnet : Part.net ∈ fp := by assumption) :
    Frame fp orig (State.txnSend s t) := by
  unfold State.txnSend
  repeat' first
    | intro _
    | with_reducible assumption
    | with_reducible apply State.peerSend_frame
    | with_reducible apply State.netSend_frame
    | with_reducible apply frame_ite
    | (extract_lets +onlyGivenNames -underBinder x; first | (refine frame_cut (fp := fp) (orig := orig) (x := x) ?_ ?_ <;> first | (intro h0; generalize x = y at h0 ⊢; clear x) | intro h0 | subst x) | (have h0 := Nat.zero_le x; generalize x = y at h0 ⊢; clear h0 x) | subst x)
    | split
    | dsimp only
    | (with_reducible refine frame_mk ?_)

theorem State.txnSubmit_frame {fp : List Part} {orig : State} {s : State} {dest : Nat} {payload : List Nat}
    {ring : Option (Nat × Nat)} {x : Nat × State} (h : s.txnSubmit dest payload ring = .ok x) (hs : Frame fp orig s) (hdict : Part.dict ∈ fp := by assumption) (hports : Part.ports ∈ fp := by assumption) (hnet : Part.net ∈ fp := by assumption) :
    Frame fp orig x.2 := by
  unfold State.txnSubmit at h
  by_cases h1 : 0xFFE < dest
  · rw [if_pos h1] at h
    exact absurd h (by simp)
  rw [if_neg h1] at h
  by_cases h2 : 256 ≤ s.net.txns.length
  · rw [if_pos h2] at h
    exact absurd h (by simp)
  rw [if_neg h2] at h
  split at h
  · exact absurd h (by simp)
  all_goals
    have h2 := Except.ok.inj h
    subst h2
    refine State.txnSend_frame _ (State.set_frame _ _ ?_)
    exact frame_mk (State.idTake_frame hs)

theorem State.txnEnd_frame {fp : List Part} {orig : State} {s : State} (t : TxnEnt) (status : Nat) (payload : List Nat) (hs : Frame fp orig s)  (hdict : Part.dict ∈ fp := by assumption) (hstreams : Part.streams ∈ fp := by assumption) (hcpu : Part.cpu ∈ fp := by assumption) (hnet : Part.net ∈ fp := by assumption) :
    Frame fp orig (State.txnEnd s t status payload) := by
  unfold State.txnEnd
  repeat' first
    | intro _
    | with_reducible assumption
    | with_reducible apply State.append_frame
    | with_reducible apply State.set_frame
    | with_reducible apply frame_ite
    | (extract_lets +onlyGivenNames -underBinder x; first | (refine frame_cut (fp := fp) (orig := orig) (x := x) ?_ ?_ <;> first | (intro h0; generalize x = y at h0 ⊢; clear x) | intro h0 | subst x) | (have h0 := Nat.zero_le x; generalize x = y at h0 ⊢; clear h0 x) | subst x)
    | split
    | dsimp only
    | (with_reducible refine frame_mk ?_)

theorem State.txnReply_frame {fp : List Part} {orig : State} {s : State}  (hs : Frame fp orig s)  (hdict : Part.dict ∈ fp := by assumption) (hstreams : Part.streams ∈ fp := by assumption) (hcpu : Part.cpu ∈ fp := by assumption) (hnet : Part.net ∈ fp := by assumption) :
    Frame fp orig (State.txnReply s) := by
  unfold State.txnReply
  repeat' first
    | intro _
    | with_reducible assumption
    | with_reducible apply State.txnEnd_frame
    | with_reducible apply State.staleDiscard_frame
    | with_reducible apply State.netBad_frame
    | with_reducible apply State.netTake_frame
    | with_reducible apply frame_ite
    | (with_reducible refine frame_fst (by with_reducible assumption) ?_)
    | (with_reducible refine frame_snd (by with_reducible assumption) ?_)
    | split
    | dsimp only
    | (with_reducible refine frame_mk ?_)

theorem State.txnAgain_frame {fp : List Part} {orig : State} {s : State}  (hs : Frame fp orig s)  (hdict : Part.dict ∈ fp := by assumption) (hstreams : Part.streams ∈ fp := by assumption) (hcpu : Part.cpu ∈ fp := by assumption) (hports : Part.ports ∈ fp := by assumption) (hnet : Part.net ∈ fp := by assumption) :
    Frame fp orig (State.txnAgain s) := by
  unfold State.txnAgain
  repeat' first
    | intro _
    | with_reducible assumption
    | with_reducible apply State.txnEnd_frame
    | with_reducible apply State.txnSend_frame
    | with_reducible apply State.flag_frame
    | with_reducible apply frame_ite
    | (extract_lets +onlyGivenNames -underBinder x; first | (refine frame_cut (fp := fp) (orig := orig) (x := x) ?_ ?_ <;> first | (intro h0; generalize x = y at h0 ⊢; clear x) | intro h0 | subst x) | (have h0 := Nat.zero_le x; generalize x = y at h0 ⊢; clear h0 x) | subst x)
    | split
    | dsimp only
    | (with_reducible refine frame_mk ?_)

theorem State.remoteSubmit_frame {fp : List Part} {orig : State} {s : State} (b : List Nat) (hs : Frame fp orig s)  (hdict : Part.dict ∈ fp := by assumption) (hreply : Part.reply ∈ fp := by assumption) (hports : Part.ports ∈ fp := by assumption) (hnet : Part.net ∈ fp := by assumption) :
    Frame fp orig (State.remoteSubmit s b) := by
  unfold State.remoteSubmit
  repeat' first
    | intro _
    | with_reducible assumption
    | with_reducible apply State.answer_frame
    | (with_reducible refine State.txnSubmit_frame (by with_reducible assumption) ?_)
    | exact State.txnSubmit_frame (by with_reducible assumption) (by with_reducible assumption)
    | split
    | dsimp only
    | (with_reducible refine frame_mk ?_)

theorem State.keepReply_frame {fp : List Part} {orig : State} {s : State} (source : Nat) (epoch : Nat) (number : Nat) (reply : List Nat) (hs : Frame fp orig s)  (hnet : Part.net ∈ fp := by assumption) :
    Frame fp orig (State.keepReply s source epoch number reply) := by
  unfold State.keepReply
  repeat' first
    | intro _
    | with_reducible assumption
    | (extract_lets +onlyGivenNames -underBinder x; first | (refine frame_cut (fp := fp) (orig := orig) (x := x) ?_ ?_ <;> first | (intro h0; generalize x = y at h0 ⊢; clear x) | intro h0 | subst x) | (have h0 := Nat.zero_le x; generalize x = y at h0 ⊢; clear h0 x) | subst x)
    | dsimp only
    | (with_reducible refine frame_mk ?_)

theorem State.epochSee_frame {fp : List Part} {orig : State} {s : State} (source : Nat) (epoch : Nat) (hs : Frame fp orig s)  (hnet : Part.net ∈ fp := by assumption) :
    Frame fp orig (State.epochSee s source epoch) := by
  unfold State.epochSee
  repeat' first
    | intro _
    | with_reducible assumption
    | dsimp only
    | (with_reducible refine frame_mk ?_)

/-! ### Writes -/

theorem State.powerArm_frame {fp : List Part} {orig : State} {s : State} (ctx : Ctx) (v : Nat) (hs : Frame fp orig s)  (hpower : Part.power ∈ fp := by assumption) :
    Frame fp orig (State.powerArm s ctx v) := by
  unfold State.powerArm
  repeat' first
    | intro _
    | with_reducible assumption
    | with_reducible apply frame_ite
    | split
    | dsimp only
    | (with_reducible refine frame_mk ?_)

theorem State.imageCommand_frame {fp : List Part} {orig : State} {s : State} (ctx : Ctx) (v : Nat) (hs : Frame fp orig s)  (hdict : Part.dict ∈ fp := by assumption) (hreply : Part.reply ∈ fp := by assumption) (hboot : Part.boot ∈ fp := by assumption) :
    Frame fp orig (State.imageCommand s ctx v) := by
  unfold State.imageCommand
  repeat' first
    | intro _
    | with_reducible assumption
    | with_reducible apply State.answer_frame
    | with_reducible apply State.set_frame
    | with_reducible apply frame_ite
    | (extract_lets +onlyGivenNames -underBinder x; first | (refine frame_cut (fp := fp) (orig := orig) (x := x) ?_ ?_ <;> first | (intro h0; generalize x = y at h0 ⊢; clear x) | intro h0 | subst x) | (have h0 := Nat.zero_le x; generalize x = y at h0 ⊢; clear h0 x) | subst x)
    | split
    | dsimp only
    | (with_reducible refine frame_mk ?_)

theorem State.imageWrite_frame {fp : List Part} {orig : State} {s : State} (b : List Nat) (hs : Frame fp orig s)  (hdict : Part.dict ∈ fp := by assumption) (hreply : Part.reply ∈ fp := by assumption) (hboot : Part.boot ∈ fp := by assumption) :
    Frame fp orig (State.imageWrite s b) := by
  unfold State.imageWrite
  repeat' first
    | intro _
    | with_reducible assumption
    | with_reducible apply State.answer_frame
    | with_reducible apply State.set_frame
    | with_reducible apply frame_foldl
    | with_reducible apply frame_foldl_fst
    | (extract_lets +onlyGivenNames -underBinder x; first | (refine frame_cut (fp := fp) (orig := orig) (x := x) ?_ ?_ <;> first | (intro h0; generalize x = y at h0 ⊢; clear x) | intro h0 | subst x) | (have h0 := Nat.zero_le x; generalize x = y at h0 ⊢; clear h0 x) | subst x)
    | dsimp only
    | (with_reducible refine frame_mk ?_)

theorem State.dupWindow_frame {fp : List Part} {orig : State} {s : State} (old : Nat) (hs : Frame fp orig s)  (hhost : Part.host ∈ fp := by assumption) :
    Frame fp orig (State.dupWindow s old) := by
  unfold State.dupWindow
  repeat' first
    | intro _
    | with_reducible assumption
    | with_reducible apply frame_ite
    | (extract_lets +onlyGivenNames -underBinder x; first | (refine frame_cut (fp := fp) (orig := orig) (x := x) ?_ ?_ <;> first | (intro h0; generalize x = y at h0 ⊢; clear x) | intro h0 | subst x) | (have h0 := Nat.zero_le x; generalize x = y at h0 ⊢; clear h0 x) | subst x)
    | split
    | dsimp only
    | (with_reducible refine frame_mk ?_)

theorem State.written_frame {fp : List Part} {orig : State} {s : State} (ctx : Ctx) (index : Nat) (sub : Nat) (old : Nat) (hs : Frame fp orig s)  (hdict : Part.dict ∈ fp := by assumption) (hstreams : Part.streams ∈ fp := by assumption) (hhost : Part.host ∈ fp := by assumption) (hout : Part.out ∈ fp := by assumption) (htmr : Part.tmr ∈ fp := by assumption) (hrx : Part.rx ∈ fp := by assumption) (herg : Part.erg ∈ fp := by assumption) (hsol : Part.sol ∈ fp := by assumption) (hports : Part.ports ∈ fp := by assumption) (hnet : Part.net ∈ fp := by assumption) (hpower : Part.power ∈ fp := by assumption) :
    Frame fp orig (State.written s ctx index sub old) := by
  unfold State.written
  repeat' first
    | intro _
    | with_reducible assumption
    | with_reducible apply State.dupWindow_frame
    | with_reducible apply State.powerArm_frame
    | with_reducible apply State.entryWritten_frame
    | with_reducible apply State.ptpWritten_frame
    | with_reducible apply State.portDisable_frame
    | with_reducible apply State.asymBegin_frame
    | with_reducible apply State.readerJudge_frame
    | with_reducible apply State.outputWritten_frame
    | with_reducible apply State.polarityCopy_frame
    | with_reducible apply State.positionWritten_frame
    | with_reducible apply State.chainWritten_frame
    | with_reducible apply State.outChanged_frame
    | with_reducible apply frame_ite
    | (extract_lets +onlyGivenNames -underBinder x; first | (refine frame_cut (fp := fp) (orig := orig) (x := x) ?_ ?_ <;> first | (intro h0; generalize x = y at h0 ⊢; clear x) | intro h0 | subst x) | (have h0 := Nat.zero_le x; generalize x = y at h0 ⊢; clear h0 x) | subst x)
    | split
    | dsimp only
    | (with_reducible refine frame_mk ?_)

theorem State.action_frame {fp : List Part} {orig : State} {s : State} (ctx : Ctx) (index : Nat) (sub : Nat) (v : Nat) (hs : Frame fp orig s)  (hdict : Part.dict ∈ fp := by assumption) (hstreams : Part.streams ∈ fp := by assumption) (hsilt : Part.silt ∈ fp := by assumption) (hreply : Part.reply ∈ fp := by assumption) (htime : Part.time ∈ fp := by assumption) (hcpu : Part.cpu ∈ fp := by assumption) (htmr : Part.tmr ∈ fp := by assumption) (hrx : Part.rx ∈ fp := by assumption) (hslots : Part.slots ∈ fp := by assumption) (hports : Part.ports ∈ fp := by assumption) (hnet : Part.net ∈ fp := by assumption) (hreader : Part.reader ∈ fp := by assumption) (hboot : Part.boot ∈ fp := by assumption) :
    Frame fp orig (State.action s ctx index sub v) := by
  unfold State.action
  repeat' first
    | intro _
    | with_reducible assumption
    | with_reducible apply State.imageWrite_frame
    | with_reducible apply State.imageCommand_frame
    | with_reducible apply State.remoteSubmit_frame
    | with_reducible apply State.subTake_frame
    | with_reducible apply State.channelCommand_frame
    | with_reducible apply State.launchAccept_frame
    | with_reducible apply State.retrain_frame
    | with_reducible apply State.scanStart_frame
    | with_reducible apply State.readerCommand_frame
    | with_reducible apply State.synthTrigger_frame
    | with_reducible apply State.hostLeap_frame
    | with_reducible apply State.releaseSlot_frame
    | with_reducible apply State.calRequest_frame
    | with_reducible apply State.groupStart_frame
    | with_reducible apply State.timerCommand_frame
    | with_reducible apply State.handOver_frame
    | with_reducible apply State.answer_frame
    | with_reducible apply frame_ite
    | (extract_lets +onlyGivenNames -underBinder x; first | (refine frame_cut (fp := fp) (orig := orig) (x := x) ?_ ?_ <;> first | (intro h0; generalize x = y at h0 ⊢; clear x) | intro h0 | subst x) | (have h0 := Nat.zero_le x; generalize x = y at h0 ⊢; clear h0 x) | subst x)
    | (with_reducible refine frame_fst (by with_reducible assumption) ?_)
    | (with_reducible refine frame_snd (by with_reducible assumption) ?_)
    | split
    | dsimp only
    | (with_reducible refine frame_mk ?_)

theorem State.settle_frame {fp : List Part} {orig : State} {s : State}  (hs : Frame fp orig s)  (hdict : Part.dict ∈ fp := by assumption) (hstreams : Part.streams ∈ fp := by assumption) (hsilt : Part.silt ∈ fp := by assumption) (hcpu : Part.cpu ∈ fp := by assumption) (htmr : Part.tmr ∈ fp := by assumption) (hreader : Part.reader ∈ fp := by assumption) :
    Frame fp orig (State.settle s) := by
  unfold State.settle
  repeat' first
    | intro _
    | with_reducible assumption
    | with_reducible apply State.readerSettle_frame
    | with_reducible apply State.timersSettle_frame
    | dsimp only
    | (with_reducible refine frame_mk ?_)

theorem State.putValue_frame {fp : List Part} {orig : State} {s : State} (ctx : Ctx) (index : Nat) (r : Row) (v : Nat) (hs : Frame fp orig s)  (hdict : Part.dict ∈ fp := by assumption) (hstreams : Part.streams ∈ fp := by assumption) (hsilt : Part.silt ∈ fp := by assumption) (hhost : Part.host ∈ fp := by assumption) (hreply : Part.reply ∈ fp := by assumption) (htime : Part.time ∈ fp := by assumption) (hout : Part.out ∈ fp := by assumption) (hcpu : Part.cpu ∈ fp := by assumption) (htmr : Part.tmr ∈ fp := by assumption) (hrx : Part.rx ∈ fp := by assumption) (hslots : Part.slots ∈ fp := by assumption) (herg : Part.erg ∈ fp := by assumption) (hsol : Part.sol ∈ fp := by assumption) (hports : Part.ports ∈ fp := by assumption) (hnet : Part.net ∈ fp := by assumption) (hreader : Part.reader ∈ fp := by assumption) (hpower : Part.power ∈ fp := by assumption) (hboot : Part.boot ∈ fp := by assumption) :
    Frame fp orig (State.putValue s ctx index r v) := by
  unfold State.putValue
  repeat' first
    | intro _
    | with_reducible assumption
    | with_reducible apply State.action_frame
    | with_reducible apply State.written_frame
    | with_reducible apply State.set_frame
    | with_reducible apply frame_ite
    | (extract_lets +onlyGivenNames -underBinder x; first | (refine frame_cut (fp := fp) (orig := orig) (x := x) ?_ ?_ <;> first | (intro h0; generalize x = y at h0 ⊢; clear x) | intro h0 | subst x) | (have h0 := Nat.zero_le x; generalize x = y at h0 ⊢; clear h0 x) | subst x)
    | split
    | dsimp only
    | (with_reducible refine frame_mk ?_)

/-! ### Protect -/

theorem State.modProt_frame {fp : List Part} {orig : State} {s : State} (f : ProtSt → ProtSt) (hs : Frame fp orig s)  (hprot : Part.prot ∈ fp := by assumption) :
    Frame fp orig (State.modProt s f) := by
  unfold State.modProt
  repeat' first
    | intro _
    | with_reducible assumption
    | dsimp only
    | (with_reducible refine frame_mk ?_)

theorem State.changeClose_frame {fp : List Part} {orig : State} {s : State} (c : Pending) (outcome : Nat) (hs : Frame fp orig s)  (hprot : Part.prot ∈ fp := by assumption) :
    Frame fp orig (State.changeClose s c outcome) := by
  unfold State.changeClose
  repeat' first
    | intro _
    | with_reducible assumption
    | with_reducible apply State.modProt_frame
    | dsimp only
    | (with_reducible refine frame_mk ?_)

theorem State.changeReport_frame {fp : List Part} {orig : State} {s : State} (c : Pending) (result : Nat) (hs : Frame fp orig s)  (hdict : Part.dict ∈ fp := by assumption) :
    Frame fp orig (State.changeReport s c result) := by
  unfold State.changeReport
  repeat' first
    | intro _
    | with_reducible assumption
    | with_reducible apply State.set_frame
    | dsimp only
    | (with_reducible refine frame_mk ?_)

theorem State.changeExpire_frame {fp : List Part} {orig : State} {s : State} (c : Pending) (hs : Frame fp orig s)  (hdict : Part.dict ∈ fp := by assumption) (hsilt : Part.silt ∈ fp := by assumption) (hprot : Part.prot ∈ fp := by assumption) :
    Frame fp orig (State.changeExpire s c) := by
  unfold State.changeExpire
  repeat' first
    | intro _
    | with_reducible assumption
    | with_reducible apply State.changeReport_frame
    | with_reducible apply State.changeClose_frame
    | with_reducible apply State.flag_frame
    | with_reducible apply State.log_frame
    | (extract_lets +onlyGivenNames -underBinder x; first | (refine frame_cut (fp := fp) (orig := orig) (x := x) ?_ ?_ <;> first | (intro h0; generalize x = y at h0 ⊢; clear x) | intro h0 | subst x) | (have h0 := Nat.zero_le x; generalize x = y at h0 ⊢; clear h0 x) | subst x)
    | dsimp only
    | (with_reducible refine frame_mk ?_)

theorem State.changesExpire_frame {fp : List Part} {orig : State} {s : State}  (hs : Frame fp orig s)  (hdict : Part.dict ∈ fp := by assumption) (hsilt : Part.silt ∈ fp := by assumption) (hprot : Part.prot ∈ fp := by assumption) :
    Frame fp orig (State.changesExpire s) := by
  unfold State.changesExpire
  repeat' first
    | intro _
    | with_reducible assumption
    | with_reducible apply State.changeExpire_frame
    | with_reducible apply frame_foldl
    | with_reducible apply frame_foldl_fst
    | dsimp only
    | (with_reducible refine frame_mk ?_)

theorem State.changesDiscard_frame {fp : List Part} {orig : State} {s : State}  (hs : Frame fp orig s)  (hdict : Part.dict ∈ fp := by assumption) (hsilt : Part.silt ∈ fp := by assumption) (hprot : Part.prot ∈ fp := by assumption) :
    Frame fp orig (State.changesDiscard s) := by
  unfold State.changesDiscard
  repeat' first
    | intro _
    | with_reducible assumption
    | with_reducible apply State.changeExpire_frame
    | with_reducible apply frame_foldl
    | with_reducible apply frame_foldl_fst
    | dsimp only
    | (with_reducible refine frame_mk ?_)

theorem State.changeCancel_frame {fp : List Part} {orig : State} {s : State} (c : Pending) (by_ : Principal) (hs : Frame fp orig s)  (hdict : Part.dict ∈ fp := by assumption) (hsilt : Part.silt ∈ fp := by assumption) (hprot : Part.prot ∈ fp := by assumption) :
    Frame fp orig (State.changeCancel s c by_) := by
  unfold State.changeCancel
  repeat' first
    | intro _
    | with_reducible assumption
    | with_reducible apply State.changeClose_frame
    | with_reducible apply State.log_frame
    | dsimp only
    | (with_reducible refine frame_mk ?_)

theorem State.slotCancels_frame {fp : List Part} {orig : State} {s : State} (k : Nat) (hs : Frame fp orig s)  (hdict : Part.dict ∈ fp := by assumption) (hsilt : Part.silt ∈ fp := by assumption) (hprot : Part.prot ∈ fp := by assumption) :
    Frame fp orig (State.slotCancels s k) := by
  unfold State.slotCancels
  repeat' first
    | intro _
    | with_reducible assumption
    | with_reducible apply State.changeCancel_frame
    | with_reducible apply frame_foldl
    | with_reducible apply frame_foldl_fst
    | dsimp only
    | (with_reducible refine frame_mk ?_)

theorem State.logClear_frame {fp : List Part} {orig : State} {s : State} (c : Pending) (by_ : Principal) (hs : Frame fp orig s)  (hdict : Part.dict ∈ fp := by assumption) (hsilt : Part.silt ∈ fp := by assumption) :
    Frame fp orig (State.logClear s c by_) := by
  unfold State.logClear
  repeat' first
    | intro _
    | with_reducible assumption
    | with_reducible apply State.bump_frame
    | (extract_lets +onlyGivenNames -underBinder x; first | (refine frame_cut (fp := fp) (orig := orig) (x := x) ?_ ?_ <;> first | (intro h0; generalize x = y at h0 ⊢; clear x) | intro h0 | subst x) | (have h0 := Nat.zero_le x; generalize x = y at h0 ⊢; clear h0 x) | subst x)
    | dsimp only
    | (with_reducible refine frame_mk ?_)

theorem State.changeApply_frame {fp : List Part} {orig : State} {s : State} (c : Pending) (by_ : Principal) (hs : Frame fp orig s)  (hdict : Part.dict ∈ fp := by assumption) (hstreams : Part.streams ∈ fp := by assumption) (hsilt : Part.silt ∈ fp := by assumption) (htime : Part.time ∈ fp := by assumption) (hprot : Part.prot ∈ fp := by assumption) (hreader : Part.reader ∈ fp := by assumption) :
    Frame fp orig (State.changeApply s c by_).1 := by
  unfold State.changeApply
  repeat' first
    | intro _
    | with_reducible assumption
    | with_reducible apply State.logClear_frame
    | with_reducible apply State.slotCancels_frame
    | with_reducible apply State.modProt_frame
    | with_reducible apply State.protoNarrowed_frame
    | with_reducible apply State.keyPut_frame
    | with_reducible apply State.set_frame
    | with_reducible apply frame_ite
    | with_reducible apply frame_ite_fst
    | (extract_lets +onlyGivenNames -underBinder x; first | (refine frame_cut (fp := fp) (orig := orig) (x := x) ?_ ?_ <;> first | (intro h0; generalize x = y at h0 ⊢; clear x) | intro h0 | subst x) | (have h0 := Nat.zero_le x; generalize x = y at h0 ⊢; clear h0 x) | subst x)
    | split
    | dsimp only
    | (with_reducible refine frame_mk ?_)

theorem State.propose_frame {fp : List Part} {orig : State} {s : State} (ctx : Ctx) (b : List Nat) (hs : Frame fp orig s)  (hdict : Part.dict ∈ fp := by assumption) (hsilt : Part.silt ∈ fp := by assumption) (hreply : Part.reply ∈ fp := by assumption) (hprot : Part.prot ∈ fp := by assumption) :
    Frame fp orig (State.propose s ctx b) := by
  unfold State.propose
  repeat' first
    | intro _
    | with_reducible assumption
    | with_reducible apply State.modProt_frame
    | with_reducible apply State.answer_frame
    | with_reducible apply State.log_frame
    | with_reducible apply frame_ite
    | (extract_lets +onlyGivenNames -underBinder x; first | (refine frame_cut (fp := fp) (orig := orig) (x := x) ?_ ?_ <;> first | (intro h0; generalize x = y at h0 ⊢; clear x) | intro h0 | subst x) | (have h0 := Nat.zero_le x; generalize x = y at h0 ⊢; clear h0 x) | subst x)
    | split
    | dsimp only
    | (with_reducible refine frame_mk ?_)

theorem State.confirmBy_frame {fp : List Part} {orig : State} {s : State} (c : Pending) (by_ : Principal) (card : Bool) (hs : Frame fp orig s)  (hdict : Part.dict ∈ fp := by assumption) (hstreams : Part.streams ∈ fp := by assumption) (hsilt : Part.silt ∈ fp := by assumption) (hreply : Part.reply ∈ fp := by assumption) (htime : Part.time ∈ fp := by assumption) (hprot : Part.prot ∈ fp := by assumption) (hreader : Part.reader ∈ fp := by assumption) :
    Frame fp orig (State.confirmBy s c by_ card) := by
  unfold State.confirmBy
  repeat' first
    | intro _
    | with_reducible assumption
    | with_reducible apply State.changeApply_frame
    | with_reducible apply State.changeReport_frame
    | with_reducible apply State.changeClose_frame
    | with_reducible apply State.answer_frame
    | with_reducible apply State.log_frame
    | with_reducible apply frame_ite
    | (extract_lets +onlyGivenNames -underBinder x; first | (refine frame_cut (fp := fp) (orig := orig) (x := x) ?_ ?_ <;> first | (intro h0; generalize x = y at h0 ⊢; clear x) | intro h0 | subst x) | (have h0 := Nat.zero_le x; generalize x = y at h0 ⊢; clear h0 x) | subst x)
    | (with_reducible refine frame_fst (by with_reducible assumption) ?_)
    | (with_reducible refine frame_snd (by with_reducible assumption) ?_)
    | split
    | dsimp only
    | (with_reducible refine frame_mk ?_)

theorem State.confirm_frame {fp : List Part} {orig : State} {s : State} (ctx : Ctx) (b : List Nat) (hs : Frame fp orig s)  (hdict : Part.dict ∈ fp := by assumption) (hstreams : Part.streams ∈ fp := by assumption) (hsilt : Part.silt ∈ fp := by assumption) (hreply : Part.reply ∈ fp := by assumption) (htime : Part.time ∈ fp := by assumption) (hprot : Part.prot ∈ fp := by assumption) (hreader : Part.reader ∈ fp := by assumption) :
    Frame fp orig (State.confirm s ctx b) := by
  unfold State.confirm
  repeat' first
    | intro _
    | with_reducible assumption
    | with_reducible apply State.confirmBy_frame
    | with_reducible apply State.answer_frame
    | with_reducible apply frame_ite
    | (extract_lets +onlyGivenNames -underBinder x; first | (refine frame_cut (fp := fp) (orig := orig) (x := x) ?_ ?_ <;> first | (intro h0; generalize x = y at h0 ⊢; clear x) | intro h0 | subst x) | (have h0 := Nat.zero_le x; generalize x = y at h0 ⊢; clear h0 x) | subst x)
    | split
    | dsimp only
    | (with_reducible refine frame_mk ?_)

theorem State.cancel_frame {fp : List Part} {orig : State} {s : State} (ctx : Ctx) (b : List Nat) (hs : Frame fp orig s)  (hdict : Part.dict ∈ fp := by assumption) (hsilt : Part.silt ∈ fp := by assumption) (hreply : Part.reply ∈ fp := by assumption) (hprot : Part.prot ∈ fp := by assumption) :
    Frame fp orig (State.cancel s ctx b) := by
  unfold State.cancel
  repeat' first
    | intro _
    | with_reducible assumption
    | with_reducible apply State.changeCancel_frame
    | with_reducible apply State.answer_frame
    | with_reducible apply frame_ite
    | (extract_lets +onlyGivenNames -underBinder x; first | (refine frame_cut (fp := fp) (orig := orig) (x := x) ?_ ?_ <;> first | (intro h0; generalize x = y at h0 ⊢; clear x) | intro h0 | subst x) | (have h0 := Nat.zero_le x; generalize x = y at h0 ⊢; clear h0 x) | subst x)
    | split
    | dsimp only
    | (with_reducible refine frame_mk ?_)

theorem State.cardPoll_frame {fp : List Part} {orig : State} {s : State} (present : Bool) (select : List Nat) (answer : List Nat) (challenge : List Nat) (e : JobEnd) (us : Nat) (hs : Frame fp orig s)  (hdict : Part.dict ∈ fp := by assumption) (hstreams : Part.streams ∈ fp := by assumption) (hsilt : Part.silt ∈ fp := by assumption) (hreply : Part.reply ∈ fp := by assumption) (htime : Part.time ∈ fp := by assumption) (hprot : Part.prot ∈ fp := by assumption) (hreader : Part.reader ∈ fp := by assumption) :
    Frame fp orig (State.cardPoll s present select answer challenge e us) := by
  unfold State.cardPoll
  repeat' first
    | intro _
    | with_reducible assumption
    | with_reducible apply State.confirmBy_frame
    | with_reducible apply State.modProt_frame
    | with_reducible apply State.jobResult_frame
    | with_reducible apply State.flag_frame
    | (with_reducible refine State.jobField_frame (by with_reducible assumption) ?_)
    | with_reducible apply frame_ite
    | (extract_lets +onlyGivenNames -underBinder x; first | (refine frame_cut (fp := fp) (orig := orig) (x := x) ?_ ?_ <;> first | (intro h0; generalize x = y at h0 ⊢; clear x) | intro h0 | subst x) | (have h0 := Nat.zero_le x; generalize x = y at h0 ⊢; clear h0 x) | subst x)
    | split
    | dsimp only
    | (with_reducible refine frame_mk ?_)

/-! ### Rings -/

theorem State.plainSet_frame {fp : List Part} {orig : State} {s : State} (c : Nat) (a : Nat) (w : Word) (hs : Frame fp orig s)  (hcpu : Part.cpu ∈ fp := by assumption) :
    Frame fp orig (State.plainSet s c a w) := by
  unfold State.plainSet
  repeat' first
    | intro _
    | with_reducible assumption
    | with_reducible apply State.set_frame
    | with_reducible apply State.modCore_frame
    | with_reducible apply frame_ite
    | split
    | dsimp only
    | (with_reducible refine frame_mk ?_)

theorem State.bufferPut_frame {fp : List Part} {orig : State} {s : State} (c : Nat) (a : Nat) (b : List Nat) (hs : Frame fp orig s)  (hcpu : Part.cpu ∈ fp := by assumption) :
    Frame fp orig (State.bufferPut s c a b) := by
  unfold State.bufferPut
  repeat' first
    | intro _
    | with_reducible assumption
    | with_reducible apply State.plainSet_frame
    | with_reducible apply frame_foldl
    | with_reducible apply frame_foldl_fst
    | (extract_lets +onlyGivenNames -underBinder x; first | (refine frame_cut (fp := fp) (orig := orig) (x := x) ?_ ?_ <;> first | (intro h0; generalize x = y at h0 ⊢; clear x) | intro h0 | subst x) | (have h0 := Nat.zero_le x; generalize x = y at h0 ⊢; clear h0 x) | subst x)
    | dsimp only
    | (with_reducible refine frame_mk ?_)

theorem State.ringEnd_frame {fp : List Part} {orig : State} {s : State} (d : RingDone) (hs : Frame fp orig s)  (hcpu : Part.cpu ∈ fp := by assumption) :
    Frame fp orig (State.ringEnd s d) := by
  unfold State.ringEnd
  repeat' first
    | intro _
    | with_reducible assumption
    | dsimp only
    | (with_reducible refine frame_mk ?_)

theorem State.ringTakeOne_frame {fp : List Part} {orig : State} {s : State} (c : Nat) (r : Nat) (i : Nat) (hs : Frame fp orig s)  (hdict : Part.dict ∈ fp := by assumption) (hcpu : Part.cpu ∈ fp := by assumption) (hports : Part.ports ∈ fp := by assumption) (hnet : Part.net ∈ fp := by assumption) :
    Frame fp orig (State.ringTakeOne s c r i) := by
  unfold State.ringTakeOne
  repeat' first
    | intro _
    | with_reducible assumption
    | with_reducible apply State.ringEnd_frame
    | with_reducible apply State.launchAccept_frame
    | (with_reducible refine State.txnSubmit_frame (by with_reducible assumption) ?_)
    | exact State.txnSubmit_frame (by with_reducible assumption) (by with_reducible assumption)
    | with_reducible apply frame_ite
    | (extract_lets +onlyGivenNames -underBinder x; first | (refine frame_cut (fp := fp) (orig := orig) (x := x) ?_ ?_ <;> first | (intro h0; generalize x = y at h0 ⊢; clear x) | intro h0 | subst x) | (have h0 := Nat.zero_le x; generalize x = y at h0 ⊢; clear h0 x) | subst x)
    | (with_reducible refine frame_fst (by with_reducible assumption) ?_)
    | (with_reducible refine frame_snd (by with_reducible assumption) ?_)
    | split
    | dsimp only
    | (with_reducible refine frame_mk ?_)

theorem State.ringTake_frame {fp : List Part} {orig : State} {s : State} (c r fuel : Nat) (hs : Frame fp orig s) (hdict : Part.dict ∈ fp := by assumption) (hcpu : Part.cpu ∈ fp := by assumption) (hports : Part.ports ∈ fp := by assumption) (hnet : Part.net ∈ fp := by assumption) :
    Frame fp orig (State.ringTake s c r fuel) := by
  induction fuel generalizing s with
  | zero => exact hs
  | succ k ih =>
    unfold State.ringTake
    repeat' first
    | with_reducible assumption
    | with_reducible apply ih
    | with_reducible apply State.modCore_frame
    | with_reducible apply State.ringTakeOne_frame
    | (extract_lets +onlyGivenNames -underBinder x; first | (refine frame_cut (fp := fp) (orig := orig) (x := x) ?_ ?_ <;> first | (intro h0; generalize x = y at h0 ⊢; clear x) | intro h0 | subst x) | (have h0 := Nat.zero_le x; generalize x = y at h0 ⊢; clear h0 x) | subst x)
    | intro _
    | with_reducible apply frame_foldl
    | with_reducible apply frame_ite
    | split
    | dsimp only
    | (with_reducible refine frame_mk ?_)

theorem State.ringHead_frame {fp : List Part} {orig : State} {s : State} (c : Nat) (r : Nat) (w : Word) (hs : Frame fp orig s)  (hdict : Part.dict ∈ fp := by assumption) (hcpu : Part.cpu ∈ fp := by assumption) (hports : Part.ports ∈ fp := by assumption) (hnet : Part.net ∈ fp := by assumption) :
    Frame fp orig (State.ringHead s c r w) := by
  unfold State.ringHead
  repeat' first
    | intro _
    | with_reducible assumption
    | with_reducible apply State.ringTake_frame
    | with_reducible apply State.modCore_frame
    | dsimp only
    | (with_reducible refine frame_mk ?_)

theorem State.tailMove_frame {fp : List Part} {orig : State} {s : State} (c r : Nat) (user : Bool) (fuel : Nat) (hs : Frame fp orig s) (hcpu : Part.cpu ∈ fp := by assumption) :
    Frame fp orig (State.tailMove s c r user fuel) := by
  induction fuel generalizing s with
  | zero => exact hs
  | succ k ih =>
    unfold State.tailMove
    repeat' first
    | with_reducible assumption
    | with_reducible apply ih
    | with_reducible apply State.modCore_frame
    | (extract_lets +onlyGivenNames -underBinder x; first | (refine frame_cut (fp := fp) (orig := orig) (x := x) ?_ ?_ <;> first | (intro h0; generalize x = y at h0 ⊢; clear x) | intro h0 | subst x) | (have h0 := Nat.zero_le x; generalize x = y at h0 ⊢; clear h0 x) | subst x)
    | intro _
    | with_reducible apply frame_foldl
    | with_reducible apply frame_ite
    | split
    | dsimp only
    | (with_reducible refine frame_mk ?_)

theorem State.descriptorPut_frame {fp : List Part} {orig : State} {s : State} (d : RingDone) (hs : Frame fp orig s)  (hcpu : Part.cpu ∈ fp := by assumption) :
    Frame fp orig (State.descriptorPut s d) := by
  unfold State.descriptorPut
  repeat' first
    | intro _
    | with_reducible assumption
    | with_reducible apply State.tailMove_frame
    | with_reducible apply State.bufferPut_frame
    | with_reducible apply State.plainSet_frame
    | with_reducible apply State.raiseInt_frame
    | with_reducible apply frame_ite
    | (extract_lets +onlyGivenNames -underBinder x; first | (refine frame_cut (fp := fp) (orig := orig) (x := x) ?_ ?_ <;> first | (intro h0; generalize x = y at h0 ⊢; clear x) | intro h0 | subst x) | (have h0 := Nat.zero_le x; generalize x = y at h0 ⊢; clear h0 x) | subst x)
    | split
    | dsimp only
    | (with_reducible refine frame_mk ?_)

theorem State.descriptorComplete_frame {fp : List Part} {orig : State} {s : State} (c : Nat) (r : Nat) (hs : Frame fp orig s)  (hcpu : Part.cpu ∈ fp := by assumption) :
    Frame fp orig (State.descriptorComplete s c r) := by
  unfold State.descriptorComplete
  repeat' first
    | intro _
    | with_reducible assumption
    | with_reducible apply State.descriptorPut_frame
    | split
    | dsimp only
    | (with_reducible refine frame_mk ?_)

theorem State.ringsRetire_frame {fp : List Part} {orig : State} {s : State} (c : Nat) (hs : Frame fp orig s)  (hdict : Part.dict ∈ fp := by assumption) (hcpu : Part.cpu ∈ fp := by assumption) (hnet : Part.net ∈ fp := by assumption) :
    Frame fp orig (State.ringsRetire s c) := by
  unfold State.ringsRetire
  repeat' first
    | intro _
    | with_reducible assumption
    | with_reducible apply State.descriptorPut_frame
    | with_reducible apply State.set_frame
    | with_reducible apply frame_foldl
    | with_reducible apply frame_foldl_fst
    | with_reducible apply frame_ite
    | (extract_lets +onlyGivenNames -underBinder x; first | (refine frame_cut (fp := fp) (orig := orig) (x := x) ?_ ?_ <;> first | (intro h0; generalize x = y at h0 ⊢; clear x) | intro h0 | subst x) | (have h0 := Nat.zero_le x; generalize x = y at h0 ⊢; clear h0 x) | subst x)
    | split
    | dsimp only
    | (with_reducible refine frame_mk ?_)

/-! ### Requests -/

theorem State.refuse_frame {fp : List Part} {orig : State} {s : State} (r : Refused) (hs : Frame fp orig s)  (hreply : Part.reply ∈ fp := by assumption) :
    Frame fp orig (State.refuse s r) := by
  unfold State.refuse
  repeat' first
    | intro _
    | with_reducible assumption
    | with_reducible apply State.answer_frame
    | dsimp only
    | (with_reducible refine frame_mk ?_)

theorem State.siltRead_frame {fp : List Part} {orig : State} {s : State} (i : Nat) (hs : Frame fp orig s)  (hdict : Part.dict ∈ fp := by assumption) :
    Frame fp orig (State.siltRead s i) := by
  unfold State.siltRead
  repeat' first
    | intro _
    | with_reducible assumption
    | with_reducible apply State.set_frame
    | with_reducible apply State.flag_frame
    | with_reducible apply frame_ite
    | (extract_lets +onlyGivenNames -underBinder x; first | (refine frame_cut (fp := fp) (orig := orig) (x := x) ?_ ?_ <;> first | (intro h0; generalize x = y at h0 ⊢; clear x) | intro h0 | subst x) | (have h0 := Nat.zero_le x; generalize x = y at h0 ⊢; clear h0 x) | subst x)
    | split
    | dsimp only
    | (with_reducible refine frame_mk ?_)

theorem State.readTakes_frame {fp : List Part} {orig : State} {s : State} (index : Nat) (sub : Nat) (hs : Frame fp orig s)  (hdict : Part.dict ∈ fp := by assumption) (hfree : Part.free ∈ fp := by assumption) (htmr : Part.tmr ∈ fp := by assumption) :
    Frame fp orig (State.readTakes s index sub) := by
  unfold State.readTakes
  repeat' first
    | intro _
    | with_reducible assumption
    | with_reducible apply State.siltRead_frame
    | with_reducible apply State.captureTake_frame
    | with_reducible apply State.takeFree_frame
    | with_reducible apply frame_ite
    | (extract_lets +onlyGivenNames -underBinder x; first | (refine frame_cut (fp := fp) (orig := orig) (x := x) ?_ ?_ <;> first | (intro h0; generalize x = y at h0 ⊢; clear x) | intro h0 | subst x) | (have h0 := Nat.zero_le x; generalize x = y at h0 ⊢; clear h0 x) | subst x)
    | split
    | dsimp only
    | (with_reducible refine frame_mk ?_)

theorem State.opRead_frame {fp : List Part} {orig : State} {s : State} (ctx : Ctx) (index : Nat) (sub : Nat) (len : Nat) (hs : Frame fp orig s)  (hdict : Part.dict ∈ fp := by assumption) (hreply : Part.reply ∈ fp := by assumption) (hfree : Part.free ∈ fp := by assumption) (htmr : Part.tmr ∈ fp := by assumption) :
    Frame fp orig (State.opRead s ctx index sub len) := by
  unfold State.opRead
  repeat' first
    | intro _
    | with_reducible assumption
    | with_reducible apply State.readTakes_frame
    | with_reducible apply State.refuse_frame
    | with_reducible apply State.answer_frame
    | split
    | dsimp only
    | (with_reducible refine frame_mk ?_)

theorem State.opStream_frame {fp : List Part} {orig : State} {s : State} (ctx : Ctx) (index : Nat) (sub : Nat) (len : Nat) (hs : Frame fp orig s)  (hdict : Part.dict ∈ fp := by assumption) (hstreams : Part.streams ∈ fp := by assumption) (hreply : Part.reply ∈ fp := by assumption) (hnet : Part.net ∈ fp := by assumption) :
    Frame fp orig (State.opStream s ctx index sub len) := by
  unfold State.opStream
  repeat' first
    | intro _
    | with_reducible assumption
    | with_reducible apply State.deliveryTaken_frame
    | with_reducible apply State.answer_frame
    | with_reducible apply State.setStream_frame
    | with_reducible apply frame_ite
    | (extract_lets +onlyGivenNames -underBinder x; first | (refine frame_cut (fp := fp) (orig := orig) (x := x) ?_ ?_ <;> first | (intro h0; generalize x = y at h0 ⊢; clear x) | intro h0 | subst x) | (have h0 := Nat.zero_le x; generalize x = y at h0 ⊢; clear h0 x) | subst x)
    | split
    | dsimp only
    | (with_reducible refine frame_mk ?_)

theorem State.opSnapshot_frame {fp : List Part} {orig : State} {s : State} (ctx : Ctx) (index : Nat) (len : Nat) (hs : Frame fp orig s)  (hreply : Part.reply ∈ fp := by assumption) :
    Frame fp orig (State.opSnapshot s ctx index len) := by
  unfold State.opSnapshot
  repeat' first
    | intro _
    | with_reducible assumption
    | with_reducible apply State.answer_frame
    | with_reducible apply frame_ite
    | split
    | dsimp only
    | (with_reducible refine frame_mk ?_)

theorem State.opDescribe_frame {fp : List Part} {orig : State} {s : State} (ctx : Ctx) (index : Nat) (sub : Nat) (len : Nat) (hs : Frame fp orig s)  (hreply : Part.reply ∈ fp := by assumption) :
    Frame fp orig (State.opDescribe s ctx index sub len) := by
  unfold State.opDescribe
  repeat' first
    | intro _
    | with_reducible assumption
    | with_reducible apply State.answer_frame
    | with_reducible apply frame_ite
    | (extract_lets +onlyGivenNames -underBinder x; first | (refine frame_cut (fp := fp) (orig := orig) (x := x) ?_ ?_ <;> first | (intro h0; generalize x = y at h0 ⊢; clear x) | intro h0 | subst x) | (have h0 := Nat.zero_le x; generalize x = y at h0 ⊢; clear h0 x) | subst x)
    | split
    | dsimp only
    | (with_reducible refine frame_mk ?_)

theorem State.opWrite_frame {fp : List Part} {orig : State} {s : State} (ctx : Ctx) (index : Nat) (sub : Nat) (b : List Nat) (hs : Frame fp orig s)  (hdict : Part.dict ∈ fp := by assumption) (hstreams : Part.streams ∈ fp := by assumption) (hsilt : Part.silt ∈ fp := by assumption) (hhost : Part.host ∈ fp := by assumption) (hreply : Part.reply ∈ fp := by assumption) (htime : Part.time ∈ fp := by assumption) (hout : Part.out ∈ fp := by assumption) (hcpu : Part.cpu ∈ fp := by assumption) (htmr : Part.tmr ∈ fp := by assumption) (hrx : Part.rx ∈ fp := by assumption) (hslots : Part.slots ∈ fp := by assumption) (herg : Part.erg ∈ fp := by assumption) (hsol : Part.sol ∈ fp := by assumption) (hports : Part.ports ∈ fp := by assumption) (hnet : Part.net ∈ fp := by assumption) (hprot : Part.prot ∈ fp := by assumption) (hreader : Part.reader ∈ fp := by assumption) (hpower : Part.power ∈ fp := by assumption) (hboot : Part.boot ∈ fp := by assumption) :
    Frame fp orig (State.opWrite s ctx index sub b) := by
  unfold State.opWrite
  repeat' first
    | intro _
    | with_reducible assumption
    | with_reducible apply State.refuse_frame
    | with_reducible apply State.cancel_frame
    | with_reducible apply State.confirm_frame
    | with_reducible apply State.propose_frame
    | with_reducible apply State.putValue_frame
    | with_reducible apply State.settle_frame
    | with_reducible apply State.fscopePropose_frame
    | with_reducible apply State.answer_frame
    | with_reducible apply frame_ite
    | (extract_lets +onlyGivenNames -underBinder x; first | (refine frame_cut (fp := fp) (orig := orig) (x := x) ?_ ?_ <;> first | (intro h0; generalize x = y at h0 ⊢; clear x) | intro h0 | subst x) | (have h0 := Nat.zero_le x; generalize x = y at h0 ⊢; clear h0 x) | subst x)
    | split
    | dsimp only
    | (with_reducible refine frame_mk ?_)

theorem State.opRecord_frame {fp : List Part} {orig : State} {s : State} (ctx : Ctx) (index : Nat) (b : List Nat) (hs : Frame fp orig s)  (hdict : Part.dict ∈ fp := by assumption) (hstreams : Part.streams ∈ fp := by assumption) (hsilt : Part.silt ∈ fp := by assumption) (hhost : Part.host ∈ fp := by assumption) (hreply : Part.reply ∈ fp := by assumption) (hout : Part.out ∈ fp := by assumption) (hcpu : Part.cpu ∈ fp := by assumption) (htmr : Part.tmr ∈ fp := by assumption) (hrx : Part.rx ∈ fp := by assumption) (herg : Part.erg ∈ fp := by assumption) (hsol : Part.sol ∈ fp := by assumption) (hports : Part.ports ∈ fp := by assumption) (hnet : Part.net ∈ fp := by assumption) (hreader : Part.reader ∈ fp := by assumption) (hpower : Part.power ∈ fp := by assumption) :
    Frame fp orig (State.opRecord s ctx index b) := by
  unfold State.opRecord
  repeat' first
    | intro _
    | with_reducible assumption
    | with_reducible apply State.settle_frame
    | with_reducible apply State.written_frame
    | with_reducible apply State.fscopePropose_frame
    | with_reducible apply State.answer_frame
    | with_reducible apply State.set_frame
    | with_reducible apply frame_foldl
    | with_reducible apply frame_foldl_fst
    | with_reducible apply frame_ite
    | (extract_lets +onlyGivenNames -underBinder x; first | (refine frame_cut (fp := fp) (orig := orig) (x := x) ?_ ?_ <;> first | (intro h0; generalize x = y at h0 ⊢; clear x) | intro h0 | subst x) | (have h0 := Nat.zero_le x; generalize x = y at h0 ⊢; clear h0 x) | subst x)
    | split
    | dsimp only
    | (with_reducible refine frame_mk ?_)

theorem State.served_frame {fp : List Part} {orig : State} {s : State}  (hs : Frame fp orig s)  (hdict : Part.dict ∈ fp := by assumption) :
    Frame fp orig (State.served s) := by
  unfold State.served
  repeat' first
    | intro _
    | with_reducible assumption
    | with_reducible apply State.journalRefused_frame
    | with_reducible apply State.flag_frame
    | with_reducible apply State.bump_frame
    | with_reducible apply frame_ite
    | (extract_lets +onlyGivenNames -underBinder x; first | (refine frame_cut (fp := fp) (orig := orig) (x := x) ?_ ?_ <;> first | (intro h0; generalize x = y at h0 ⊢; clear x) | intro h0 | subst x) | (have h0 := Nat.zero_le x; generalize x = y at h0 ⊢; clear h0 x) | subst x)
    | split
    | dsimp only
    | (with_reducible refine frame_mk ?_)

theorem State.execOp_frame {fp : List Part} {orig : State} {s : State} (ctx : Ctx) (op : Nat) (index : Nat) (sub : Nat) (len : Nat) (b : List Nat) (hs : Frame fp orig s)  (hdict : Part.dict ∈ fp := by assumption) (hstreams : Part.streams ∈ fp := by assumption) (hsilt : Part.silt ∈ fp := by assumption) (hhost : Part.host ∈ fp := by assumption) (hreply : Part.reply ∈ fp := by assumption) (hfree : Part.free ∈ fp := by assumption) (htime : Part.time ∈ fp := by assumption) (hout : Part.out ∈ fp := by assumption) (hcpu : Part.cpu ∈ fp := by assumption) (htmr : Part.tmr ∈ fp := by assumption) (hrx : Part.rx ∈ fp := by assumption) (hslots : Part.slots ∈ fp := by assumption) (herg : Part.erg ∈ fp := by assumption) (hsol : Part.sol ∈ fp := by assumption) (hports : Part.ports ∈ fp := by assumption) (hnet : Part.net ∈ fp := by assumption) (hprot : Part.prot ∈ fp := by assumption) (hreader : Part.reader ∈ fp := by assumption) (hpower : Part.power ∈ fp := by assumption) (hboot : Part.boot ∈ fp := by assumption) :
    Frame fp orig (State.execOp s ctx op index sub len b) := by
  unfold State.execOp
  repeat' first
    | intro _
    | with_reducible assumption
    | with_reducible apply State.served_frame
    | with_reducible apply State.opRecord_frame
    | with_reducible apply State.opWrite_frame
    | with_reducible apply State.opDescribe_frame
    | with_reducible apply State.opSnapshot_frame
    | with_reducible apply State.opStream_frame
    | with_reducible apply State.opRead_frame
    | with_reducible apply State.answer_frame
    | with_reducible apply frame_ite
    | (extract_lets +onlyGivenNames -underBinder x; first | (refine frame_cut (fp := fp) (orig := orig) (x := x) ?_ ?_ <;> first | (intro h0; generalize x = y at h0 ⊢; clear x) | intro h0 | subst x) | (have h0 := Nat.zero_le x; generalize x = y at h0 ⊢; clear h0 x) | subst x)
    | split
    | dsimp only
    | (with_reducible refine frame_mk ?_)

theorem State.modMspi_frame {fp : List Part} {orig : State} {s : State} (f : MspiSt → MspiSt) (hs : Frame fp orig s)  (hmspi : Part.mspi ∈ fp := by assumption) :
    Frame fp orig (State.modMspi s f) := by
  unfold State.modMspi
  repeat' first
    | intro _
    | with_reducible assumption
    | dsimp only
    | (with_reducible refine frame_mk ?_)

theorem State.statusSent_frame {fp : List Part} {orig : State} {s : State} (n : Nat) (hs : Frame fp orig s)  (hmspi : Part.mspi ∈ fp := by assumption) :
    Frame fp orig (State.statusSent s n) := by
  unfold State.statusSent
  repeat' first
    | intro _
    | with_reducible assumption
    | with_reducible apply State.modMspi_frame
    | with_reducible apply frame_ite
    | (extract_lets +onlyGivenNames -underBinder x; first | (refine frame_cut (fp := fp) (orig := orig) (x := x) ?_ ?_ <;> first | (intro h0; generalize x = y at h0 ⊢; clear x) | intro h0 | subst x) | (have h0 := Nat.zero_le x; generalize x = y at h0 ⊢; clear h0 x) | subst x)
    | split
    | dsimp only
    | (with_reducible refine frame_mk ?_)

theorem State.mspiReply_frame {fp : List Part} {orig : State} {s : State}  (hs : Frame fp orig s)  (hmspi : Part.mspi ∈ fp := by assumption) :
    Frame fp orig (State.mspiReply s) := by
  unfold State.mspiReply
  repeat' first
    | intro _
    | with_reducible assumption
    | with_reducible apply State.modMspi_frame
    | (extract_lets +onlyGivenNames -underBinder x; first | (refine frame_cut (fp := fp) (orig := orig) (x := x) ?_ ?_ <;> first | (intro h0; generalize x = y at h0 ⊢; clear x) | intro h0 | subst x) | (have h0 := Nat.zero_le x; generalize x = y at h0 ⊢; clear h0 x) | subst x)
    | split
    | dsimp only
    | (with_reducible refine frame_mk ?_)

theorem State.replyLeft_frame {fp : List Part} {orig : State} {s : State}  (hs : Frame fp orig s)  (hpower : Part.power ∈ fp := by assumption) (hboot : Part.boot ∈ fp := by assumption) :
    Frame fp orig (State.replyLeft s) := by
  unfold State.replyLeft
  repeat' first
    | intro _
    | with_reducible assumption
    | (extract_lets +onlyGivenNames -underBinder x; first | (refine frame_cut (fp := fp) (orig := orig) (x := x) ?_ ?_ <;> first | (intro h0; generalize x = y at h0 ⊢; clear x) | intro h0 | subst x) | (have h0 := Nat.zero_le x; generalize x = y at h0 ⊢; clear h0 x) | subst x)
    | dsimp only
    | (with_reducible refine frame_mk ?_)

theorem State.mspiFetch_frame {fp : List Part} {orig : State} {s : State} (n : Nat) (hs : Frame fp orig s)  (hmspi : Part.mspi ∈ fp := by assumption) (hpower : Part.power ∈ fp := by assumption) (hboot : Part.boot ∈ fp := by assumption) :
    Frame fp orig (State.mspiFetch s n) := by
  unfold State.mspiFetch
  repeat' first
    | intro _
    | with_reducible assumption
    | with_reducible apply State.replyLeft_frame
    | with_reducible apply State.statusSent_frame
    | with_reducible apply State.modMspi_frame
    | with_reducible apply frame_ite
    | (extract_lets +onlyGivenNames -underBinder x; first | (refine frame_cut (fp := fp) (orig := orig) (x := x) ?_ ?_ <;> first | (intro h0; generalize x = y at h0 ⊢; clear x) | intro h0 | subst x) | (have h0 := Nat.zero_le x; generalize x = y at h0 ⊢; clear h0 x) | subst x)
    | split
    | dsimp only
    | (with_reducible refine frame_mk ?_)

theorem State.mspiTransfer_frame {fp : List Part} {orig : State} {s : State} (b : List Nat) (hs : Frame fp orig s)  (hdict : Part.dict ∈ fp := by assumption) (hmspi : Part.mspi ∈ fp := by assumption) (hreply : Part.reply ∈ fp := by assumption) (hpower : Part.power ∈ fp := by assumption) (hboot : Part.boot ∈ fp := by assumption) :
    Frame fp orig (State.mspiTransfer s b) := by
  unfold State.mspiTransfer
  repeat' first
    | intro _
    | with_reducible assumption
    | with_reducible apply State.mspiFetch_frame
    | with_reducible apply State.statusSent_frame
    | with_reducible apply State.modMspi_frame
    | with_reducible apply State.served_frame
    | with_reducible apply State.answer_frame
    | with_reducible apply State.bump_frame
    | with_reducible apply frame_ite
    | (extract_lets +onlyGivenNames -underBinder x; first | (refine frame_cut (fp := fp) (orig := orig) (x := x) ?_ ?_ <;> first | (intro h0; generalize x = y at h0 ⊢; clear x) | intro h0 | subst x) | (have h0 := Nat.zero_le x; generalize x = y at h0 ⊢; clear h0 x) | subst x)
    | split
    | dsimp only
    | (with_reducible refine frame_mk ?_)

theorem State.putRun_frame {fp : List Part} {orig : State} {s : State} (r : Option FrameRun) (hs : Frame fp orig s)  (hnet : Part.net ∈ fp := by assumption) :
    Frame fp orig (State.putRun s r) := by
  unfold State.putRun
  repeat' first
    | intro _
    | with_reducible assumption
    | dsimp only
    | (with_reducible refine frame_mk ?_)

theorem State.frameEnd_frame {fp : List Part} {orig : State} {s : State} (r : FrameRun) (hs : Frame fp orig s)  (hdict : Part.dict ∈ fp := by assumption) (hhost : Part.host ∈ fp := by assumption) (hports : Part.ports ∈ fp := by assumption) (hnet : Part.net ∈ fp := by assumption) :
    Frame fp orig (State.frameEnd s r) := by
  unfold State.frameEnd
  repeat' first
    | intro _
    | with_reducible assumption
    | with_reducible apply State.putRun_frame
    | with_reducible apply State.keepReply_frame
    | with_reducible apply State.peerSend_frame
    | with_reducible apply State.netSend_frame
    | with_reducible apply State.authSign_frame
    | with_reducible apply State.count_frame
    | with_reducible apply frame_ite
    | (extract_lets +onlyGivenNames -underBinder x; first | (refine frame_cut (fp := fp) (orig := orig) (x := x) ?_ ?_ <;> first | (intro h0; generalize x = y at h0 ⊢; clear x) | intro h0 | subst x) | (have h0 := Nat.zero_le x; generalize x = y at h0 ⊢; clear h0 x) | subst x)
    | (with_reducible refine frame_fst (by with_reducible assumption) ?_)
    | (with_reducible refine frame_snd (by with_reducible assumption) ?_)
    | split
    | dsimp only
    | (with_reducible refine frame_mk ?_)

theorem State.frameGo_frame {fp : List Part} {orig : State} {s : State} (fuel : Nat) (hs : Frame fp orig s) (hdict : Part.dict ∈ fp := by assumption) (hstreams : Part.streams ∈ fp := by assumption) (hsilt : Part.silt ∈ fp := by assumption) (hhost : Part.host ∈ fp := by assumption) (hreply : Part.reply ∈ fp := by assumption) (hfree : Part.free ∈ fp := by assumption) (htime : Part.time ∈ fp := by assumption) (hout : Part.out ∈ fp := by assumption) (hcpu : Part.cpu ∈ fp := by assumption) (htmr : Part.tmr ∈ fp := by assumption) (hrx : Part.rx ∈ fp := by assumption) (hslots : Part.slots ∈ fp := by assumption) (herg : Part.erg ∈ fp := by assumption) (hsol : Part.sol ∈ fp := by assumption) (hports : Part.ports ∈ fp := by assumption) (hnet : Part.net ∈ fp := by assumption) (hprot : Part.prot ∈ fp := by assumption) (hreader : Part.reader ∈ fp := by assumption) (hpower : Part.power ∈ fp := by assumption) (hboot : Part.boot ∈ fp := by assumption) :
    Frame fp orig (State.frameGo s fuel) := by
  induction fuel generalizing s with
  | zero => exact hs
  | succ k ih =>
    unfold State.frameGo
    repeat' first
    | with_reducible assumption
    | with_reducible apply ih
    | with_reducible apply State.frameEnd_frame
    | with_reducible apply State.putRun_frame
    | with_reducible apply State.execOp_frame
    | (extract_lets +onlyGivenNames -underBinder x; first | (refine frame_cut (fp := fp) (orig := orig) (x := x) ?_ ?_ <;> first | (intro h0; generalize x = y at h0 ⊢; clear x) | intro h0 | subst x) | (have h0 := Nat.zero_le x; generalize x = y at h0 ⊢; clear h0 x) | subst x)
    | intro _
    | with_reducible apply frame_foldl
    | with_reducible apply frame_ite
    | split
    | dsimp only
    | (with_reducible refine frame_mk ?_)

theorem State.frameBegin_frame {fp : List Part} {orig : State} {s : State} (ctx : Ctx) (b : List Nat) (ops : List (Nat × Nat × Nat × Nat × List Nat)) (limit : Nat) (toward : Option (Nat × Nat × Nat)) (port : Nat) (head : List Nat) (mac : Nat) (hs : Frame fp orig s)  (hdict : Part.dict ∈ fp := by assumption) (hstreams : Part.streams ∈ fp := by assumption) (hsilt : Part.silt ∈ fp := by assumption) (hhost : Part.host ∈ fp := by assumption) (hreply : Part.reply ∈ fp := by assumption) (hfree : Part.free ∈ fp := by assumption) (htime : Part.time ∈ fp := by assumption) (hout : Part.out ∈ fp := by assumption) (hcpu : Part.cpu ∈ fp := by assumption) (htmr : Part.tmr ∈ fp := by assumption) (hrx : Part.rx ∈ fp := by assumption) (hslots : Part.slots ∈ fp := by assumption) (herg : Part.erg ∈ fp := by assumption) (hsol : Part.sol ∈ fp := by assumption) (hports : Part.ports ∈ fp := by assumption) (hnet : Part.net ∈ fp := by assumption) (hprot : Part.prot ∈ fp := by assumption) (hreader : Part.reader ∈ fp := by assumption) (hpower : Part.power ∈ fp := by assumption) (hboot : Part.boot ∈ fp := by assumption) :
    Frame fp orig (State.frameBegin s ctx b ops limit toward port head mac) := by
  unfold State.frameBegin
  repeat' first
    | intro _
    | with_reducible assumption
    | with_reducible apply State.frameGo_frame
    | with_reducible apply State.putRun_frame
    | (extract_lets +onlyGivenNames -underBinder x; first | (refine frame_cut (fp := fp) (orig := orig) (x := x) ?_ ?_ <;> first | (intro h0; generalize x = y at h0 ⊢; clear x) | intro h0 | subst x) | (have h0 := Nat.zero_le x; generalize x = y at h0 ⊢; clear h0 x) | subst x)
    | dsimp only
    | (with_reducible refine frame_mk ?_)

theorem State.hostBad_frame {fp : List Part} {orig : State} {s : State}  (hs : Frame fp orig s)  (hdict : Part.dict ∈ fp := by assumption) (hhost : Part.host ∈ fp := by assumption) :
    Frame fp orig (State.hostBad s) := by
  unfold State.hostBad
  repeat' first
    | intro _
    | with_reducible assumption
    | with_reducible apply State.bump_frame
    | dsimp only
    | (with_reducible refine frame_mk ?_)

theorem State.hostRequest_frame {fp : List Part} {orig : State} {s : State} (f : List Nat) (fcs : Bool) (at_ : Nat) (aon : Nat) (hs : Frame fp orig s)  (hdict : Part.dict ∈ fp := by assumption) (hstreams : Part.streams ∈ fp := by assumption) (hsilt : Part.silt ∈ fp := by assumption) (hhost : Part.host ∈ fp := by assumption) (hreply : Part.reply ∈ fp := by assumption) (hfree : Part.free ∈ fp := by assumption) (htime : Part.time ∈ fp := by assumption) (hout : Part.out ∈ fp := by assumption) (hcpu : Part.cpu ∈ fp := by assumption) (htmr : Part.tmr ∈ fp := by assumption) (hrx : Part.rx ∈ fp := by assumption) (hslots : Part.slots ∈ fp := by assumption) (herg : Part.erg ∈ fp := by assumption) (hsol : Part.sol ∈ fp := by assumption) (hports : Part.ports ∈ fp := by assumption) (hnet : Part.net ∈ fp := by assumption) (hprot : Part.prot ∈ fp := by assumption) (hreader : Part.reader ∈ fp := by assumption) (hpower : Part.power ∈ fp := by assumption) (hboot : Part.boot ∈ fp := by assumption) :
    Frame fp orig (State.hostRequest s f fcs at_ aon) := by
  unfold State.hostRequest
  repeat' first
    | intro _
    | with_reducible assumption
    | with_reducible apply State.hostBad_frame
    | with_reducible apply State.frameBegin_frame
    | with_reducible apply State.authFail_frame
    | with_reducible apply State.counterSee_frame
    | with_reducible apply State.count_frame
    | with_reducible apply State.bump_frame
    | with_reducible apply frame_ite
    | (extract_lets +onlyGivenNames -underBinder x; first | (refine frame_cut (fp := fp) (orig := orig) (x := x) ?_ ?_ <;> first | (intro h0; generalize x = y at h0 ⊢; clear x) | intro h0 | subst x) | (have h0 := Nat.zero_le x; generalize x = y at h0 ⊢; clear h0 x) | subst x)
    | split
    | dsimp only
    | (with_reducible refine frame_mk ?_)

theorem State.txnRequest_frame {fp : List Part} {orig : State} {s : State} (at_ : Nat) (aon : Nat) (hs : Frame fp orig s)  (hdict : Part.dict ∈ fp := by assumption) (hstreams : Part.streams ∈ fp := by assumption) (hsilt : Part.silt ∈ fp := by assumption) (hhost : Part.host ∈ fp := by assumption) (hreply : Part.reply ∈ fp := by assumption) (hfree : Part.free ∈ fp := by assumption) (htime : Part.time ∈ fp := by assumption) (hout : Part.out ∈ fp := by assumption) (hcpu : Part.cpu ∈ fp := by assumption) (htmr : Part.tmr ∈ fp := by assumption) (hrx : Part.rx ∈ fp := by assumption) (hslots : Part.slots ∈ fp := by assumption) (herg : Part.erg ∈ fp := by assumption) (hsol : Part.sol ∈ fp := by assumption) (hports : Part.ports ∈ fp := by assumption) (hnet : Part.net ∈ fp := by assumption) (hprot : Part.prot ∈ fp := by assumption) (hreader : Part.reader ∈ fp := by assumption) (hpower : Part.power ∈ fp := by assumption) (hboot : Part.boot ∈ fp := by assumption) :
    Frame fp orig (State.txnRequest s at_ aon) := by
  unfold State.txnRequest
  repeat' first
    | intro _
    | with_reducible assumption
    | with_reducible apply State.frameBegin_frame
    | with_reducible apply State.frameEnd_frame
    | with_reducible apply State.epochSee_frame
    | with_reducible apply State.netBad_frame
    | with_reducible apply State.netTake_frame
    | with_reducible apply frame_ite
    | (extract_lets +onlyGivenNames -underBinder x; first | (refine frame_cut (fp := fp) (orig := orig) (x := x) ?_ ?_ <;> first | (intro h0; generalize x = y at h0 ⊢; clear x) | intro h0 | subst x) | (have h0 := Nat.zero_le x; generalize x = y at h0 ⊢; clear h0 x) | subst x)
    | (with_reducible refine frame_fst (by with_reducible assumption) ?_)
    | (with_reducible refine frame_snd (by with_reducible assumption) ?_)
    | split
    | dsimp only
    | (with_reducible refine frame_mk ?_)

theorem State.dauEnd_frame {fp : List Part} {orig : State} {s : State} (c : Nat) (q : DauReq) (hs : Frame fp orig s)  (hcpu : Part.cpu ∈ fp := by assumption) :
    Frame fp orig (State.dauEnd s c q) := by
  unfold State.dauEnd
  repeat' first
    | intro _
    | with_reducible assumption
    | with_reducible apply State.plainSet_frame
    | with_reducible apply State.raiseInt_frame
    | with_reducible apply State.modCore_frame
    | with_reducible apply frame_foldl
    | with_reducible apply frame_foldl_fst
    | with_reducible apply frame_ite
    | (extract_lets +onlyGivenNames -underBinder x; first | (refine frame_cut (fp := fp) (orig := orig) (x := x) ?_ ?_ <;> first | (intro h0; generalize x = y at h0 ⊢; clear x) | intro h0 | subst x) | (have h0 := Nat.zero_le x; generalize x = y at h0 ⊢; clear h0 x) | subst x)
    | split
    | dsimp only
    | (with_reducible refine frame_mk ?_)

theorem State.dauRun_frame {fp : List Part} {orig : State} {s : State} (c : Nat) (at_ : Nat) (aon : Nat) (hs : Frame fp orig s)  (hdict : Part.dict ∈ fp := by assumption) (hstreams : Part.streams ∈ fp := by assumption) (hsilt : Part.silt ∈ fp := by assumption) (hhost : Part.host ∈ fp := by assumption) (hreply : Part.reply ∈ fp := by assumption) (hfree : Part.free ∈ fp := by assumption) (htime : Part.time ∈ fp := by assumption) (hout : Part.out ∈ fp := by assumption) (hcpu : Part.cpu ∈ fp := by assumption) (htmr : Part.tmr ∈ fp := by assumption) (hrx : Part.rx ∈ fp := by assumption) (hslots : Part.slots ∈ fp := by assumption) (herg : Part.erg ∈ fp := by assumption) (hsol : Part.sol ∈ fp := by assumption) (hports : Part.ports ∈ fp := by assumption) (hnet : Part.net ∈ fp := by assumption) (hprot : Part.prot ∈ fp := by assumption) (hreader : Part.reader ∈ fp := by assumption) (hpower : Part.power ∈ fp := by assumption) (hboot : Part.boot ∈ fp := by assumption) :
    Frame fp orig (State.dauRun s c at_ aon) := by
  unfold State.dauRun
  repeat' first
    | intro _
    | with_reducible assumption
    | with_reducible apply State.dauEnd_frame
    | with_reducible apply State.execOp_frame
    | with_reducible apply State.served_frame
    | with_reducible apply State.answer_frame
    | with_reducible apply frame_ite
    | (extract_lets +onlyGivenNames -underBinder x; first | (refine frame_cut (fp := fp) (orig := orig) (x := x) ?_ ?_ <;> first | (intro h0; generalize x = y at h0 ⊢; clear x) | intro h0 | subst x) | (have h0 := Nat.zero_le x; generalize x = y at h0 ⊢; clear h0 x) | subst x)
    | split
    | dsimp only
    | (with_reducible refine frame_mk ?_)

theorem State.instant_frame {fp : List Part} {orig : State} {s : State} (at_ : Nat) (aon : Nat) (hs : Frame fp orig s)  (hdict : Part.dict ∈ fp := by assumption) (hstreams : Part.streams ∈ fp := by assumption) (hsilt : Part.silt ∈ fp := by assumption) (htime : Part.time ∈ fp := by assumption) (hcpu : Part.cpu ∈ fp := by assumption) (htmr : Part.tmr ∈ fp := by assumption) (hprot : Part.prot ∈ fp := by assumption) (hreader : Part.reader ∈ fp := by assumption) :
    Frame fp orig (State.instant s at_ aon) := by
  unfold State.instant
  repeat' first
    | intro _
    | with_reducible assumption
    | with_reducible apply State.changesExpire_frame
    | with_reducible apply State.settle_frame
    | with_reducible apply State.reachAon_frame
    | with_reducible apply State.reach_frame
    | dsimp only
    | (with_reducible refine frame_mk ?_)

theorem State.comeTo_frame {fp : List Part} {orig : State} {s : State} (c : Ctx) (hs : Frame fp orig s)  (hdict : Part.dict ∈ fp := by assumption) (hstreams : Part.streams ∈ fp := by assumption) (hsilt : Part.silt ∈ fp := by assumption) (htime : Part.time ∈ fp := by assumption) (hcpu : Part.cpu ∈ fp := by assumption) (htmr : Part.tmr ∈ fp := by assumption) (hprot : Part.prot ∈ fp := by assumption) (hreader : Part.reader ∈ fp := by assumption) :
    Frame fp orig (State.comeTo s c) := by
  unfold State.comeTo
  repeat' first
    | intro _
    | with_reducible assumption
    | with_reducible apply State.instant_frame
    | dsimp only
    | (with_reducible refine frame_mk ?_)

theorem State.request_frame {fp : List Part} {orig : State} {s : State} (c : Ctx) (op : Nat) (index : Nat) (sub : Nat) (len : Nat) (b : List Nat) (hs : Frame fp orig s)  (hdict : Part.dict ∈ fp := by assumption) (hstreams : Part.streams ∈ fp := by assumption) (hsilt : Part.silt ∈ fp := by assumption) (hmspi : Part.mspi ∈ fp := by assumption) (hhost : Part.host ∈ fp := by assumption) (hreply : Part.reply ∈ fp := by assumption) (hfree : Part.free ∈ fp := by assumption) (htime : Part.time ∈ fp := by assumption) (hout : Part.out ∈ fp := by assumption) (hcpu : Part.cpu ∈ fp := by assumption) (htmr : Part.tmr ∈ fp := by assumption) (hrx : Part.rx ∈ fp := by assumption) (hslots : Part.slots ∈ fp := by assumption) (herg : Part.erg ∈ fp := by assumption) (hsol : Part.sol ∈ fp := by assumption) (hports : Part.ports ∈ fp := by assumption) (hnet : Part.net ∈ fp := by assumption) (hprot : Part.prot ∈ fp := by assumption) (hreader : Part.reader ∈ fp := by assumption) (hpower : Part.power ∈ fp := by assumption) (hboot : Part.boot ∈ fp := by assumption) :
    Frame fp orig (State.request s c op index sub len b) := by
  unfold State.request
  repeat' first
    | intro _
    | with_reducible assumption
    | with_reducible apply State.comeTo_frame
    | with_reducible apply State.mspiReply_frame
    | with_reducible apply State.execOp_frame
    | with_reducible apply frame_ite
    | (extract_lets +onlyGivenNames -underBinder x; first | (refine frame_cut (fp := fp) (orig := orig) (x := x) ?_ ?_ <;> first | (intro h0; generalize x = y at h0 ⊢; clear x) | intro h0 | subst x) | (have h0 := Nat.zero_le x; generalize x = y at h0 ⊢; clear h0 x) | subst x)
    | split
    | dsimp only
    | (with_reducible refine frame_mk ?_)

theorem State.submitDone_frame {fp : List Part} {orig : State} {s : State} (c : Ctx) (hs : Frame fp orig s)  (hdict : Part.dict ∈ fp := by assumption) (hstreams : Part.streams ∈ fp := by assumption) (hsilt : Part.silt ∈ fp := by assumption) (hmspi : Part.mspi ∈ fp := by assumption) (hhost : Part.host ∈ fp := by assumption) (hreply : Part.reply ∈ fp := by assumption) (hfree : Part.free ∈ fp := by assumption) (htime : Part.time ∈ fp := by assumption) (hout : Part.out ∈ fp := by assumption) (hcpu : Part.cpu ∈ fp := by assumption) (htmr : Part.tmr ∈ fp := by assumption) (hrx : Part.rx ∈ fp := by assumption) (hslots : Part.slots ∈ fp := by assumption) (herg : Part.erg ∈ fp := by assumption) (hsol : Part.sol ∈ fp := by assumption) (hports : Part.ports ∈ fp := by assumption) (hnet : Part.net ∈ fp := by assumption) (hprot : Part.prot ∈ fp := by assumption) (hreader : Part.reader ∈ fp := by assumption) (hpower : Part.power ∈ fp := by assumption) (hboot : Part.boot ∈ fp := by assumption) :
    Frame fp orig (State.submitDone s c) := by
  unfold State.submitDone
  repeat' first
    | intro _
    | with_reducible assumption
    | with_reducible apply State.dauEnd_frame
    | with_reducible apply State.frameGo_frame
    | with_reducible apply State.putRun_frame
    | with_reducible apply State.mspiReply_frame
    | with_reducible apply State.served_frame
    | (extract_lets +onlyGivenNames -underBinder x; first | (refine frame_cut (fp := fp) (orig := orig) (x := x) ?_ ?_ <;> first | (intro h0; generalize x = y at h0 ⊢; clear x) | intro h0 | subst x) | (have h0 := Nat.zero_le x; generalize x = y at h0 ⊢; clear h0 x) | subst x)
    | split
    | dsimp only
    | (with_reducible refine frame_mk ?_)

theorem State.submitEvent_frame {fp : List Part} {orig : State} {s : State} (f : State → State) (hs : Frame fp orig s) (hf : ∀ t, Frame fp orig t → Frame fp orig (f t)) (hdict : Part.dict ∈ fp := by assumption) (hstreams : Part.streams ∈ fp := by assumption) (hsilt : Part.silt ∈ fp := by assumption) (hmspi : Part.mspi ∈ fp := by assumption) (hhost : Part.host ∈ fp := by assumption) (hreply : Part.reply ∈ fp := by assumption) (hfree : Part.free ∈ fp := by assumption) (htime : Part.time ∈ fp := by assumption) (hout : Part.out ∈ fp := by assumption) (hcpu : Part.cpu ∈ fp := by assumption) (htmr : Part.tmr ∈ fp := by assumption) (hrx : Part.rx ∈ fp := by assumption) (hslots : Part.slots ∈ fp := by assumption) (herg : Part.erg ∈ fp := by assumption) (hsol : Part.sol ∈ fp := by assumption) (hports : Part.ports ∈ fp := by assumption) (hnet : Part.net ∈ fp := by assumption) (hprot : Part.prot ∈ fp := by assumption) (hreader : Part.reader ∈ fp := by assumption) (hpower : Part.power ∈ fp := by assumption) (hboot : Part.boot ∈ fp := by assumption) :
    Frame fp orig (State.submitEvent s f) := by
  unfold State.submitEvent
  repeat' first
    | intro _
    | with_reducible assumption
    | with_reducible apply State.submitDone_frame
    | with_reducible apply hf
    | with_reducible apply frame_ite
    | (extract_lets +onlyGivenNames -underBinder x; first | (refine frame_cut (fp := fp) (orig := orig) (x := x) ?_ ?_ <;> first | (intro h0; generalize x = y at h0 ⊢; clear x) | intro h0 | subst x) | (have h0 := Nat.zero_le x; generalize x = y at h0 ⊢; clear h0 x) | subst x)
    | split
    | dsimp only
    | (with_reducible refine frame_mk ?_)

theorem State.write_frame {fp : List Part} {orig : State} {s : State} (c : Ctx) (index : Nat) (sub : Nat) (b : List Nat) (hs : Frame fp orig s)  (hdict : Part.dict ∈ fp := by assumption) (hstreams : Part.streams ∈ fp := by assumption) (hsilt : Part.silt ∈ fp := by assumption) (hmspi : Part.mspi ∈ fp := by assumption) (hhost : Part.host ∈ fp := by assumption) (hreply : Part.reply ∈ fp := by assumption) (hfree : Part.free ∈ fp := by assumption) (htime : Part.time ∈ fp := by assumption) (hout : Part.out ∈ fp := by assumption) (hcpu : Part.cpu ∈ fp := by assumption) (htmr : Part.tmr ∈ fp := by assumption) (hrx : Part.rx ∈ fp := by assumption) (hslots : Part.slots ∈ fp := by assumption) (herg : Part.erg ∈ fp := by assumption) (hsol : Part.sol ∈ fp := by assumption) (hports : Part.ports ∈ fp := by assumption) (hnet : Part.net ∈ fp := by assumption) (hprot : Part.prot ∈ fp := by assumption) (hreader : Part.reader ∈ fp := by assumption) (hpower : Part.power ∈ fp := by assumption) (hboot : Part.boot ∈ fp := by assumption) :
    Frame fp orig (State.write s c index sub b) := by
  unfold State.write
  repeat' first
    | intro _
    | with_reducible assumption
    | with_reducible apply State.request_frame
    | dsimp only
    | (with_reducible refine frame_mk ?_)

theorem State.writeKey_frame {fp : List Part} {orig : State} {s : State} (c : Ctx) (k : Nat) (n : Nat) (v : Nat) (hs : Frame fp orig s)  (hdict : Part.dict ∈ fp := by assumption) (hstreams : Part.streams ∈ fp := by assumption) (hsilt : Part.silt ∈ fp := by assumption) (hmspi : Part.mspi ∈ fp := by assumption) (hhost : Part.host ∈ fp := by assumption) (hreply : Part.reply ∈ fp := by assumption) (hfree : Part.free ∈ fp := by assumption) (htime : Part.time ∈ fp := by assumption) (hout : Part.out ∈ fp := by assumption) (hcpu : Part.cpu ∈ fp := by assumption) (htmr : Part.tmr ∈ fp := by assumption) (hrx : Part.rx ∈ fp := by assumption) (hslots : Part.slots ∈ fp := by assumption) (herg : Part.erg ∈ fp := by assumption) (hsol : Part.sol ∈ fp := by assumption) (hports : Part.ports ∈ fp := by assumption) (hnet : Part.net ∈ fp := by assumption) (hprot : Part.prot ∈ fp := by assumption) (hreader : Part.reader ∈ fp := by assumption) (hpower : Part.power ∈ fp := by assumption) (hboot : Part.boot ∈ fp := by assumption) :
    Frame fp orig (State.writeKey s c k n v) := by
  unfold State.writeKey
  repeat' first
    | intro _
    | with_reducible assumption
    | with_reducible apply State.write_frame
    | dsimp only
    | (with_reducible refine frame_mk ?_)

theorem State.messageDelivery_frame {fp : List Part} {orig : State} {s : State} (at_ : Nat) (aon : Nat) (hs : Frame fp orig s)  (hdict : Part.dict ∈ fp := by assumption) (hstreams : Part.streams ∈ fp := by assumption) (hsilt : Part.silt ∈ fp := by assumption) (hhost : Part.host ∈ fp := by assumption) (hreply : Part.reply ∈ fp := by assumption) (hfree : Part.free ∈ fp := by assumption) (htime : Part.time ∈ fp := by assumption) (hout : Part.out ∈ fp := by assumption) (hcpu : Part.cpu ∈ fp := by assumption) (htmr : Part.tmr ∈ fp := by assumption) (hrx : Part.rx ∈ fp := by assumption) (hslots : Part.slots ∈ fp := by assumption) (herg : Part.erg ∈ fp := by assumption) (hsol : Part.sol ∈ fp := by assumption) (hports : Part.ports ∈ fp := by assumption) (hnet : Part.net ∈ fp := by assumption) (hprot : Part.prot ∈ fp := by assumption) (hreader : Part.reader ∈ fp := by assumption) (hpower : Part.power ∈ fp := by assumption) (hboot : Part.boot ∈ fp := by assumption) :
    Frame fp orig (State.messageDelivery s at_ aon) := by
  unfold State.messageDelivery
  repeat' first
    | intro _
    | with_reducible assumption
    | with_reducible apply State.instant_frame
    | with_reducible apply State.execOp_frame
    | with_reducible apply State.failedPresent_frame
    | with_reducible apply State.writeDone_frame
    | with_reducible apply State.present_frame
    | with_reducible apply frame_ite
    | (extract_lets +onlyGivenNames -underBinder x; first | (refine frame_cut (fp := fp) (orig := orig) (x := x) ?_ ?_ <;> first | (intro h0; generalize x = y at h0 ⊢; clear x) | intro h0 | subst x) | (have h0 := Nat.zero_le x; generalize x = y at h0 ⊢; clear h0 x) | subst x)
    | split
    | dsimp only
    | (with_reducible refine frame_mk ?_)

/-! ### LakeRoot -/

theorem State.gnssSteer_frame {fp : List Part} {orig : State} {s : State} (q : List (Nat × Int × Rat)) (lakeNow : Nat) (hs : Frame fp orig s)  (hdict : Part.dict ∈ fp := by assumption) (hlake : Part.lake ∈ fp := by assumption) :
    Frame fp orig (State.gnssSteer s q lakeNow) := by
  unfold State.gnssSteer
  repeat' first
    | intro _
    | with_reducible assumption
    | with_reducible apply State.set_frame
    | with_reducible apply State.flag_frame
    | with_reducible apply frame_foldl
    | with_reducible apply frame_foldl_fst
    | with_reducible apply frame_ite
    | (extract_lets +onlyGivenNames -underBinder x; first | (refine frame_cut (fp := fp) (orig := orig) (x := x) ?_ ?_ <;> first | (intro h0; generalize x = y at h0 ⊢; clear x) | intro h0 | subst x) | (have h0 := Nat.zero_le x; generalize x = y at h0 ⊢; clear h0 x) | subst x)
    | split
    | dsimp only
    | (with_reducible refine frame_mk ?_)

theorem State.replicaSend_frame {fp : List Part} {orig : State} {s : State} (toward : Nat) (hs : Frame fp orig s)  (hdict : Part.dict ∈ fp := by assumption) (hports : Part.ports ∈ fp := by assumption) (hnet : Part.net ∈ fp := by assumption) :
    Frame fp orig (State.replicaSend s toward) := by
  unfold State.replicaSend
  repeat' first
    | intro _
    | with_reducible assumption
    | with_reducible apply State.netSend_frame
    | with_reducible apply frame_foldl
    | with_reducible apply frame_foldl_fst
    | with_reducible apply frame_ite
    | split
    | dsimp only
    | (with_reducible refine frame_mk ?_)

theorem State.neighboursSend_frame {fp : List Part} {orig : State} {s : State}  (hs : Frame fp orig s)  (hdict : Part.dict ∈ fp := by assumption) (hports : Part.ports ∈ fp := by assumption) (hnet : Part.net ∈ fp := by assumption) (hlake : Part.lake ∈ fp := by assumption) :
    Frame fp orig (State.neighboursSend s) := by
  unfold State.neighboursSend
  repeat' first
    | intro _
    | with_reducible assumption
    | with_reducible apply State.netSend_frame
    | with_reducible apply frame_foldl
    | with_reducible apply frame_foldl_fst
    | with_reducible apply frame_ite
    | (extract_lets +onlyGivenNames -underBinder x; first | (refine frame_cut (fp := fp) (orig := orig) (x := x) ?_ ?_ <;> first | (intro h0; generalize x = y at h0 ⊢; clear x) | intro h0 | subst x) | (have h0 := Nat.zero_le x; generalize x = y at h0 ⊢; clear h0 x) | subst x)
    | split
    | dsimp only
    | (with_reducible refine frame_mk ?_)

theorem State.ensembleEpoch_frame {fp : List Part} {orig : State} {s : State} (origin : Nat) (hs : Frame fp orig s)  (hdict : Part.dict ∈ fp := by assumption) (hports : Part.ports ∈ fp := by assumption) (hnet : Part.net ∈ fp := by assumption) (hlake : Part.lake ∈ fp := by assumption) :
    Frame fp orig (State.ensembleEpoch s origin) := by
  unfold State.ensembleEpoch
  repeat' first
    | intro _
    | with_reducible assumption
    | with_reducible apply State.neighboursSend_frame
    | with_reducible apply State.replicaSend_frame
    | with_reducible apply State.gnssSteer_frame
    | with_reducible apply State.netSend_frame
    | with_reducible apply State.setI_frame
    | with_reducible apply State.set_frame
    | with_reducible apply State.flag_frame
    | with_reducible apply frame_foldl
    | with_reducible apply frame_foldl_fst
    | with_reducible apply frame_ite
    | (extract_lets +onlyGivenNames -underBinder x; first | (refine frame_cut (fp := fp) (orig := orig) (x := x) ?_ ?_ <;> first | (intro h0; generalize x = y at h0 ⊢; clear x) | intro h0 | subst x) | (have h0 := Nat.zero_le x; generalize x = y at h0 ⊢; clear h0 x) | subst x)
    | split
    | dsimp only
    | (with_reducible refine frame_mk ?_)

theorem State.reportIn_frame {fp : List Part} {orig : State} {s : State}  (hs : Frame fp orig s)  (hdict : Part.dict ∈ fp := by assumption) (hnet : Part.net ∈ fp := by assumption) (hlake : Part.lake ∈ fp := by assumption) :
    Frame fp orig (State.reportIn s) := by
  unfold State.reportIn
  repeat' first
    | intro _
    | with_reducible assumption
    | with_reducible apply State.lakeTake_frame
    | with_reducible apply State.netBad_frame
    | with_reducible apply frame_ite
    | (extract_lets +onlyGivenNames -underBinder x; first | (refine frame_cut (fp := fp) (orig := orig) (x := x) ?_ ?_ <;> first | (intro h0; generalize x = y at h0 ⊢; clear x) | intro h0 | subst x) | (have h0 := Nat.zero_le x; generalize x = y at h0 ⊢; clear h0 x) | subst x)
    | (with_reducible refine frame_fst (by with_reducible assumption) ?_)
    | (with_reducible refine frame_snd (by with_reducible assumption) ?_)
    | split
    | dsimp only
    | (with_reducible refine frame_mk ?_)

theorem State.realmBegin_frame {fp : List Part} {orig : State} {s : State}  (hs : Frame fp orig s)  (hlake : Part.lake ∈ fp := by assumption) :
    Frame fp orig (State.realmBegin s) := by
  unfold State.realmBegin
  repeat' first
    | intro _
    | with_reducible assumption
    | (extract_lets +onlyGivenNames -underBinder x; first | (refine frame_cut (fp := fp) (orig := orig) (x := x) ?_ ?_ <;> first | (intro h0; generalize x = y at h0 ⊢; clear x) | intro h0 | subst x) | (have h0 := Nat.zero_le x; generalize x = y at h0 ⊢; clear h0 x) | subst x)
    | dsimp only
    | (with_reducible refine frame_mk ?_)

theorem State.roleJudge_frame {fp : List Part} {orig : State} {s : State}  (hs : Frame fp orig s)  (hdict : Part.dict ∈ fp := by assumption) (hlake : Part.lake ∈ fp := by assumption) :
    Frame fp orig (State.roleJudge s) := by
  unfold State.roleJudge
  repeat' first
    | intro _
    | with_reducible assumption
    | with_reducible apply State.realmBegin_frame
    | with_reducible apply State.set_frame
    | with_reducible apply frame_foldl
    | with_reducible apply frame_foldl_fst
    | with_reducible apply frame_ite
    | (extract_lets +onlyGivenNames -underBinder x; first | (refine frame_cut (fp := fp) (orig := orig) (x := x) ?_ ?_ <;> first | (intro h0; generalize x = y at h0 ⊢; clear x) | intro h0 | subst x) | (have h0 := Nat.zero_le x; generalize x = y at h0 ⊢; clear h0 x) | subst x)
    | split
    | dsimp only
    | (with_reducible refine frame_mk ?_)

theorem State.rankSend_frame {fp : List Part} {orig : State} {s : State} (toward : Nat) (hs : Frame fp orig s)  (hdict : Part.dict ∈ fp := by assumption) (hfree : Part.free ∈ fp := by assumption) (hports : Part.ports ∈ fp := by assumption) (hnet : Part.net ∈ fp := by assumption) :
    Frame fp orig (State.rankSend s toward) := by
  unfold State.rankSend
  repeat' first
    | intro _
    | with_reducible assumption
    | with_reducible apply State.netSend_frame
    | with_reducible apply State.takeFree_frame
    | (extract_lets +onlyGivenNames -underBinder x; first | (refine frame_cut (fp := fp) (orig := orig) (x := x) ?_ ?_ <;> first | (intro h0; generalize x = y at h0 ⊢; clear x) | intro h0 | subst x) | (have h0 := Nat.zero_le x; generalize x = y at h0 ⊢; clear h0 x) | subst x)
    | dsimp only
    | (with_reducible refine frame_mk ?_)

theorem State.rootElection_frame {fp : List Part} {orig : State} {s : State} (replica : List (Nat × Nat)) (hs : Frame fp orig s)  (hdict : Part.dict ∈ fp := by assumption) (hfree : Part.free ∈ fp := by assumption) (hports : Part.ports ∈ fp := by assumption) (hnet : Part.net ∈ fp := by assumption) (hlake : Part.lake ∈ fp := by assumption) :
    Frame fp orig (State.rootElection s replica) := by
  unfold State.rootElection
  repeat' first
    | intro _
    | with_reducible assumption
    | with_reducible apply State.rankSend_frame
    | with_reducible apply State.roleJudge_frame
    | with_reducible apply State.electRoot_frame
    | with_reducible apply frame_foldl
    | with_reducible apply frame_foldl_fst
    | with_reducible apply frame_ite
    | (extract_lets +onlyGivenNames -underBinder x; first | (refine frame_cut (fp := fp) (orig := orig) (x := x) ?_ ?_ <;> first | (intro h0; generalize x = y at h0 ⊢; clear x) | intro h0 | subst x) | (have h0 := Nat.zero_le x; generalize x = y at h0 ⊢; clear h0 x) | subst x)
    | split
    | dsimp only
    | (with_reducible refine frame_mk ?_)

theorem State.roleGive_frame {fp : List Part} {orig : State} {s : State}  (hs : Frame fp orig s)  (hdict : Part.dict ∈ fp := by assumption) (hports : Part.ports ∈ fp := by assumption) (hnet : Part.net ∈ fp := by assumption) (hlake : Part.lake ∈ fp := by assumption) :
    Frame fp orig (State.roleGive s) := by
  unfold State.roleGive
  repeat' first
    | intro _
    | with_reducible assumption
    | with_reducible apply State.roleJudge_frame
    | with_reducible apply State.memberSet_frame
    | with_reducible apply State.set_frame
    | with_reducible apply State.flag_frame
    | with_reducible apply frame_ite
    | (extract_lets +onlyGivenNames -underBinder x; first | (refine frame_cut (fp := fp) (orig := orig) (x := x) ?_ ?_ <;> first | (intro h0; generalize x = y at h0 ⊢; clear x) | intro h0 | subst x) | (have h0 := Nat.zero_le x; generalize x = y at h0 ⊢; clear h0 x) | subst x)
    | split
    | dsimp only
    | (with_reducible refine frame_mk ?_)

theorem State.rankIn_frame {fp : List Part} {orig : State} {s : State}  (hs : Frame fp orig s)  (hdict : Part.dict ∈ fp := by assumption) (hports : Part.ports ∈ fp := by assumption) (hnet : Part.net ∈ fp := by assumption) (hlake : Part.lake ∈ fp := by assumption) :
    Frame fp orig (State.rankIn s) := by
  unfold State.rankIn
  repeat' first
    | intro _
    | with_reducible assumption
    | with_reducible apply State.roleGive_frame
    | with_reducible apply State.replicaSend_frame
    | with_reducible apply State.lakeTake_frame
    | with_reducible apply State.netBad_frame
    | with_reducible apply State.flag_frame
    | with_reducible apply frame_ite
    | (extract_lets +onlyGivenNames -underBinder x; first | (refine frame_cut (fp := fp) (orig := orig) (x := x) ?_ ?_ <;> first | (intro h0; generalize x = y at h0 ⊢; clear x) | intro h0 | subst x) | (have h0 := Nat.zero_le x; generalize x = y at h0 ⊢; clear h0 x) | subst x)
    | (with_reducible refine frame_fst (by with_reducible assumption) ?_)
    | (with_reducible refine frame_snd (by with_reducible assumption) ?_)
    | split
    | dsimp only
    | (with_reducible refine frame_mk ?_)

theorem State.replicaWhole_frame {fp : List Part} {orig : State} {s : State} (source : Nat) (r : Realm) (hs : Frame fp orig s)  (hdict : Part.dict ∈ fp := by assumption) (hports : Part.ports ∈ fp := by assumption) (hnet : Part.net ∈ fp := by assumption) (hlake : Part.lake ∈ fp := by assumption) :
    Frame fp orig (State.replicaWhole s source r) := by
  unfold State.replicaWhole
  repeat' first
    | intro _
    | with_reducible assumption
    | with_reducible apply State.replicaSend_frame
    | with_reducible apply frame_ite
    | (extract_lets +onlyGivenNames -underBinder x; first | (refine frame_cut (fp := fp) (orig := orig) (x := x) ?_ ?_ <;> first | (intro h0; generalize x = y at h0 ⊢; clear x) | intro h0 | subst x) | (have h0 := Nat.zero_le x; generalize x = y at h0 ⊢; clear h0 x) | subst x)
    | split
    | dsimp only
    | (with_reducible refine frame_mk ?_)

theorem State.replicaIn_frame {fp : List Part} {orig : State} {s : State}  (hs : Frame fp orig s)  (hdict : Part.dict ∈ fp := by assumption) (hports : Part.ports ∈ fp := by assumption) (hnet : Part.net ∈ fp := by assumption) (hlake : Part.lake ∈ fp := by assumption) :
    Frame fp orig (State.replicaIn s) := by
  unfold State.replicaIn
  repeat' first
    | intro _
    | with_reducible assumption
    | with_reducible apply State.replicaWhole_frame
    | with_reducible apply State.lakeTake_frame
    | with_reducible apply State.netBad_frame
    | with_reducible apply State.flag_frame
    | with_reducible apply frame_ite
    | (extract_lets +onlyGivenNames -underBinder x; first | (refine frame_cut (fp := fp) (orig := orig) (x := x) ?_ ?_ <;> first | (intro h0; generalize x = y at h0 ⊢; clear x) | intro h0 | subst x) | (have h0 := Nat.zero_le x; generalize x = y at h0 ⊢; clear h0 x) | subst x)
    | (with_reducible refine frame_fst (by with_reducible assumption) ?_)
    | (with_reducible refine frame_snd (by with_reducible assumption) ?_)
    | split
    | dsimp only
    | (with_reducible refine frame_mk ?_)

theorem State.actingTake_frame {fp : List Part} {orig : State} {s : State}  (hs : Frame fp orig s)  (hdict : Part.dict ∈ fp := by assumption) (hlake : Part.lake ∈ fp := by assumption) :
    Frame fp orig (State.actingTake s) := by
  unfold State.actingTake
  repeat' first
    | intro _
    | with_reducible assumption
    | with_reducible apply State.realmBegin_frame
    | with_reducible apply State.set_frame
    | with_reducible apply frame_ite
    | (extract_lets +onlyGivenNames -underBinder x; first | (refine frame_cut (fp := fp) (orig := orig) (x := x) ?_ ?_ <;> first | (intro h0; generalize x = y at h0 ⊢; clear x) | intro h0 | subst x) | (have h0 := Nat.zero_le x; generalize x = y at h0 ⊢; clear h0 x) | subst x)
    | split
    | dsimp only
    | (with_reducible refine frame_mk ?_)

end Sys2Proof.Machine
end

