-- ==== Sys2Proof/Laws/FrameDevice.lean ====
section
/-!
SUPPORT. What the operations leave alone: power, the cores, the tick and starts.
-/

set_option linter.all false
set_option Elab.async false

namespace Sys2Proof.Machine

/-! ### Power -/

theorem State.modPower_frame {fp : List Part} {orig : State} {s : State} (f : PowerSt → PowerSt) (hs : Frame fp orig s)  (hpower : Part.power ∈ fp := by assumption) :
    Frame fp orig (State.modPower s f) := by
  unfold State.modPower
  repeat' first
    | intro _
    | with_reducible assumption
    | dsimp only
    | (with_reducible refine frame_mk ?_)

theorem State.startLog_frame {fp : List Part} {orig : State} {s : State}  (hs : Frame fp orig s)  (hdict : Part.dict ∈ fp := by assumption) (hsilt : Part.silt ∈ fp := by assumption) (hpower : Part.power ∈ fp := by assumption) :
    Frame fp orig (State.startLog s) := by
  unfold State.startLog
  repeat' first
    | intro _
    | with_reducible assumption
    | with_reducible apply State.modPower_frame
    | with_reducible apply State.raise_frame
    | with_reducible apply State.bumpBy_frame
    | with_reducible apply State.set_frame
    | with_reducible apply frame_ite
    | (extract_lets +onlyGivenNames -underBinder x; first | (refine frame_cut (fp := fp) (orig := orig) (x := x) ?_ ?_ <;> first | (intro h0; generalize x = y at h0 ⊢; clear x) | intro h0 | subst x) | (have h0 := Nat.zero_le x; generalize x = y at h0 ⊢; clear h0 x) | subst x)
    | split
    | dsimp only
    | (with_reducible refine frame_mk ?_)

theorem State.entryDone_frame {fp : List Part} {orig : State} {s : State}  (hs : Frame fp orig s)  (hdict : Part.dict ∈ fp := by assumption) (hpower : Part.power ∈ fp := by assumption) :
    Frame fp orig (State.entryDone s) := by
  unfold State.entryDone
  repeat' first
    | intro _
    | with_reducible assumption
    | with_reducible apply State.modPower_frame
    | with_reducible apply State.set_frame
    | dsimp only
    | (with_reducible refine frame_mk ?_)

theorem State.entryRefused_frame {fp : List Part} {orig : State} {s : State} (b : Nat) (hs : Frame fp orig s)  (hdict : Part.dict ∈ fp := by assumption) (hsilt : Part.silt ∈ fp := by assumption) (hpower : Part.power ∈ fp := by assumption) :
    Frame fp orig (State.entryRefused s b) := by
  unfold State.entryRefused
  repeat' first
    | intro _
    | with_reducible assumption
    | with_reducible apply State.entryDone_frame
    | with_reducible apply State.set_frame
    | with_reducible apply State.flag_frame
    | with_reducible apply State.log_frame
    | (extract_lets +onlyGivenNames -underBinder x; first | (refine frame_cut (fp := fp) (orig := orig) (x := x) ?_ ?_ <;> first | (intro h0; generalize x = y at h0 ⊢; clear x) | intro h0 | subst x) | (have h0 := Nat.zero_le x; generalize x = y at h0 ⊢; clear h0 x) | subst x)
    | dsimp only
    | (with_reducible refine frame_mk ?_)

theorem State.portsDown_frame {fp : List Part} {orig : State} {s : State}  (hs : Frame fp orig s)  (hdict : Part.dict ∈ fp := by assumption) (hstreams : Part.streams ∈ fp := by assumption) (hports : Part.ports ∈ fp := by assumption) (hnet : Part.net ∈ fp := by assumption) :
    Frame fp orig (State.portsDown s) := by
  unfold State.portsDown
  repeat' first
    | intro _
    | with_reducible assumption
    | with_reducible apply State.portLeave_frame
    | with_reducible apply frame_foldl
    | with_reducible apply frame_foldl_fst
    | with_reducible apply frame_ite
    | split
    | dsimp only
    | (with_reducible refine frame_mk ?_)

theorem State.entryReached_frame {fp : List Part} {orig : State} {s : State} (mode : Nat) (hs : Frame fp orig s)  (hdict : Part.dict ∈ fp := by assumption) (hstreams : Part.streams ∈ fp := by assumption) (hsilt : Part.silt ∈ fp := by assumption) (htime : Part.time ∈ fp := by assumption) (hout : Part.out ∈ fp := by assumption) (htmr : Part.tmr ∈ fp := by assumption) (hslots : Part.slots ∈ fp := by assumption) (herg : Part.erg ∈ fp := by assumption) (hports : Part.ports ∈ fp := by assumption) (hnet : Part.net ∈ fp := by assumption) (hprot : Part.prot ∈ fp := by assumption) (hreader : Part.reader ∈ fp := by assumption) (hpower : Part.power ∈ fp := by assumption) :
    Frame fp orig (State.entryReached s mode) := by
  unfold State.entryReached
  repeat' first
    | intro _
    | with_reducible assumption
    | with_reducible apply State.portsDown_frame
    | with_reducible apply State.entryDone_frame
    | with_reducible apply State.modPower_frame
    | with_reducible apply State.changesDiscard_frame
    | with_reducible apply State.ergSleep_frame
    | with_reducible apply State.readerStop_frame
    | with_reducible apply State.outputsSleep_frame
    | with_reducible apply State.slotsHold_frame
    | with_reducible apply State.timersSleep_frame
    | with_reducible apply State.siltCommit_frame
    | with_reducible apply State.count_frame
    | with_reducible apply State.set_frame
    | with_reducible apply State.log_frame
    | with_reducible apply frame_ite
    | (extract_lets +onlyGivenNames -underBinder x; first | (refine frame_cut (fp := fp) (orig := orig) (x := x) ?_ ?_ <;> first | (intro h0; generalize x = y at h0 ⊢; clear x) | intro h0 | subst x) | (have h0 := Nat.zero_le x; generalize x = y at h0 ⊢; clear h0 x) | subst x)
    | split
    | dsimp only
    | (with_reducible refine frame_mk ?_)

theorem State.entryTry_frame {fp : List Part} {orig : State} {s : State} (mode : Nat) (e : EntryEnd) (hs : Frame fp orig s)  (hdict : Part.dict ∈ fp := by assumption) (hstreams : Part.streams ∈ fp := by assumption) (hsilt : Part.silt ∈ fp := by assumption) (htime : Part.time ∈ fp := by assumption) (hout : Part.out ∈ fp := by assumption) (htmr : Part.tmr ∈ fp := by assumption) (hslots : Part.slots ∈ fp := by assumption) (herg : Part.erg ∈ fp := by assumption) (hsol : Part.sol ∈ fp := by assumption) (hports : Part.ports ∈ fp := by assumption) (hnet : Part.net ∈ fp := by assumption) (hprot : Part.prot ∈ fp := by assumption) (hreader : Part.reader ∈ fp := by assumption) (hpower : Part.power ∈ fp := by assumption) :
    Frame fp orig (State.entryTry s mode e).1 := by
  unfold State.entryTry
  repeat' first
    | intro _
    | with_reducible assumption
    | with_reducible apply State.entryReached_frame
    | with_reducible apply State.entryRefused_frame
    | with_reducible apply State.synthRefChange_frame
    | with_reducible apply State.referenceLost_frame
    | with_reducible apply State.set_frame
    | with_reducible apply State.log_frame
    | with_reducible apply frame_ite
    | with_reducible apply frame_ite_fst
    | (extract_lets +onlyGivenNames -underBinder x; first | (refine frame_cut (fp := fp) (orig := orig) (x := x) ?_ ?_ <;> first | (intro h0; generalize x = y at h0 ⊢; clear x) | intro h0 | subst x) | (have h0 := Nat.zero_le x; generalize x = y at h0 ⊢; clear h0 x) | subst x)
    | split
    | dsimp only
    | (with_reducible refine frame_mk ?_)

theorem State.entryAttempt_frame {fp : List Part} {orig : State} {s : State} (e : EntryEnd) (hs : Frame fp orig s)  (hdict : Part.dict ∈ fp := by assumption) (hstreams : Part.streams ∈ fp := by assumption) (hsilt : Part.silt ∈ fp := by assumption) (htime : Part.time ∈ fp := by assumption) (hout : Part.out ∈ fp := by assumption) (htmr : Part.tmr ∈ fp := by assumption) (hslots : Part.slots ∈ fp := by assumption) (herg : Part.erg ∈ fp := by assumption) (hsol : Part.sol ∈ fp := by assumption) (hports : Part.ports ∈ fp := by assumption) (hnet : Part.net ∈ fp := by assumption) (hprot : Part.prot ∈ fp := by assumption) (hreader : Part.reader ∈ fp := by assumption) (hpower : Part.power ∈ fp := by assumption) :
    Frame fp orig (State.entryAttempt s e) := by
  unfold State.entryAttempt
  repeat' first
    | intro _
    | with_reducible assumption
    | with_reducible apply State.entryTry_frame
    | with_reducible apply State.set_frame
    | with_reducible apply frame_ite
    | (extract_lets +onlyGivenNames -underBinder x; first | (refine frame_cut (fp := fp) (orig := orig) (x := x) ?_ ?_ <;> first | (intro h0; generalize x = y at h0 ⊢; clear x) | intro h0 | subst x) | (have h0 := Nat.zero_le x; generalize x = y at h0 ⊢; clear h0 x) | subst x)
    | (with_reducible refine frame_fst (by with_reducible assumption) ?_)
    | (with_reducible refine frame_snd (by with_reducible assumption) ?_)
    | split
    | dsimp only
    | (with_reducible refine frame_mk ?_)

theorem State.wakeStart_frame {fp : List Part} {orig : State} {s : State}  (hs : Frame fp orig s)  (hdict : Part.dict ∈ fp := by assumption) (hpower : Part.power ∈ fp := by assumption) :
    Frame fp orig (State.wakeStart s) := by
  unfold State.wakeStart
  repeat' first
    | intro _
    | with_reducible assumption
    | with_reducible apply State.modPower_frame
    | with_reducible apply State.set_frame
    | dsimp only
    | (with_reducible refine frame_mk ?_)

theorem State.wakeBy_frame {fp : List Part} {orig : State} {s : State} (cause : Nat) (hs : Frame fp orig s)  (hdict : Part.dict ∈ fp := by assumption) (hpower : Part.power ∈ fp := by assumption) :
    Frame fp orig (State.wakeBy s cause) := by
  unfold State.wakeBy
  repeat' first
    | intro _
    | with_reducible assumption
    | with_reducible apply State.wakeStart_frame
    | with_reducible apply State.set_frame
    | with_reducible apply frame_ite
    | split
    | dsimp only
    | (with_reducible refine frame_mk ?_)

theorem State.refWake_frame {fp : List Part} {orig : State} {s : State}  (hs : Frame fp orig s)  (hdict : Part.dict ∈ fp := by assumption) (hsilt : Part.silt ∈ fp := by assumption) (htime : Part.time ∈ fp := by assumption) (hsol : Part.sol ∈ fp := by assumption) (hpower : Part.power ∈ fp := by assumption) :
    Frame fp orig (State.refWake s) := by
  unfold State.refWake
  repeat' first
    | intro _
    | with_reducible assumption
    | with_reducible apply State.wakeBy_frame
    | with_reducible apply State.referenceLost_frame
    | dsimp only
    | (with_reducible refine frame_mk ?_)

theorem State.wake_frame {fp : List Part} {orig : State} {s : State} (cause : Nat) (port : Nat) (hs : Frame fp orig s)  (hdict : Part.dict ∈ fp := by assumption) (hsilt : Part.silt ∈ fp := by assumption) (htime : Part.time ∈ fp := by assumption) (hsol : Part.sol ∈ fp := by assumption) (hpower : Part.power ∈ fp := by assumption) :
    Frame fp orig (State.wake s cause port) := by
  unfold State.wake
  repeat' first
    | intro _
    | with_reducible assumption
    | with_reducible apply State.refWake_frame
    | with_reducible apply State.wakeBy_frame
    | with_reducible apply frame_ite
    | split
    | dsimp only
    | (with_reducible refine frame_mk ?_)

theorem State.oasisBurst_frame {fp : List Part} {orig : State} {s : State}  (hs : Frame fp orig s)  (hdict : Part.dict ∈ fp := by assumption) (hpower : Part.power ∈ fp := by assumption) :
    Frame fp orig (State.oasisBurst s) := by
  unfold State.oasisBurst
  repeat' first
    | intro _
    | with_reducible assumption
    | with_reducible apply State.modPower_frame
    | with_reducible apply State.count_frame
    | with_reducible apply State.set_frame
    | with_reducible apply frame_ite
    | (extract_lets +onlyGivenNames -underBinder x; first | (refine frame_cut (fp := fp) (orig := orig) (x := x) ?_ ?_ <;> first | (intro h0; generalize x = y at h0 ⊢; clear x) | intro h0 | subst x) | (have h0 := Nat.zero_le x; generalize x = y at h0 ⊢; clear h0 x) | subst x)
    | split
    | dsimp only
    | (with_reducible refine frame_mk ?_)

theorem State.oasisBurstEnd_frame {fp : List Part} {orig : State} {s : State} (e : EntryEnd) (hs : Frame fp orig s)  (hdict : Part.dict ∈ fp := by assumption) (hstreams : Part.streams ∈ fp := by assumption) (hsilt : Part.silt ∈ fp := by assumption) (htime : Part.time ∈ fp := by assumption) (hout : Part.out ∈ fp := by assumption) (htmr : Part.tmr ∈ fp := by assumption) (hslots : Part.slots ∈ fp := by assumption) (herg : Part.erg ∈ fp := by assumption) (hsol : Part.sol ∈ fp := by assumption) (hports : Part.ports ∈ fp := by assumption) (hnet : Part.net ∈ fp := by assumption) (hprot : Part.prot ∈ fp := by assumption) (hreader : Part.reader ∈ fp := by assumption) (hpower : Part.power ∈ fp := by assumption) :
    Frame fp orig (State.oasisBurstEnd s e) := by
  unfold State.oasisBurstEnd
  repeat' first
    | intro _
    | with_reducible assumption
    | with_reducible apply State.wakeStart_frame
    | with_reducible apply State.entryTry_frame
    | with_reducible apply State.set_frame
    | with_reducible apply State.flag_frame
    | with_reducible apply frame_ite
    | (extract_lets +onlyGivenNames -underBinder x; first | (refine frame_cut (fp := fp) (orig := orig) (x := x) ?_ ?_ <;> first | (intro h0; generalize x = y at h0 ⊢; clear x) | intro h0 | subst x) | (have h0 := Nat.zero_le x; generalize x = y at h0 ⊢; clear h0 x) | subst x)
    | (with_reducible refine frame_fst (by with_reducible assumption) ?_)
    | (with_reducible refine frame_snd (by with_reducible assumption) ?_)
    | split
    | dsimp only
    | (with_reducible refine frame_mk ?_)

theorem State.regulatorTimeout_frame {fp : List Part} {orig : State} {s : State}  (hs : Frame fp orig s)  (htime : Part.time ∈ fp := by assumption) (hout : Part.out ∈ fp := by assumption) (hpower : Part.power ∈ fp := by assumption) :
    Frame fp orig (State.regulatorTimeout s) := by
  unfold State.regulatorTimeout
  repeat' first
    | intro _
    | with_reducible assumption
    | with_reducible apply State.modPower_frame
    | with_reducible apply frame_ite
    | (extract_lets +onlyGivenNames -underBinder x; first | (refine frame_cut (fp := fp) (orig := orig) (x := x) ?_ ?_ <;> first | (intro h0; generalize x = y at h0 ⊢; clear x) | intro h0 | subst x) | (have h0 := Nat.zero_le x; generalize x = y at h0 ⊢; clear h0 x) | subst x)
    | split
    | dsimp only
    | (with_reducible refine frame_mk ?_)

theorem State.refLate_frame {fp : List Part} {orig : State} {s : State}  (hs : Frame fp orig s)  (hdict : Part.dict ∈ fp := by assumption) (hsilt : Part.silt ∈ fp := by assumption) (htime : Part.time ∈ fp := by assumption) (hsol : Part.sol ∈ fp := by assumption) (hpower : Part.power ∈ fp := by assumption) :
    Frame fp orig (State.refLate s) := by
  unfold State.refLate
  repeat' first
    | intro _
    | with_reducible assumption
    | with_reducible apply State.modPower_frame
    | with_reducible apply State.referenceLost_frame
    | with_reducible apply State.flag_frame
    | with_reducible apply frame_ite
    | (extract_lets +onlyGivenNames -underBinder x; first | (refine frame_cut (fp := fp) (orig := orig) (x := x) ?_ ?_ <;> first | (intro h0; generalize x = y at h0 ⊢; clear x) | intro h0 | subst x) | (have h0 := Nat.zero_le x; generalize x = y at h0 ⊢; clear h0 x) | subst x)
    | split
    | dsimp only
    | (with_reducible refine frame_mk ?_)

theorem State.levelFail_frame {fp : List Part} {orig : State} {s : State}  (hs : Frame fp orig s)  (hdict : Part.dict ∈ fp := by assumption) (hsilt : Part.silt ∈ fp := by assumption) (hpower : Part.power ∈ fp := by assumption) :
    Frame fp orig (State.levelFail s) := by
  unfold State.levelFail
  repeat' first
    | intro _
    | with_reducible assumption
    | with_reducible apply State.modPower_frame
    | with_reducible apply State.set_frame
    | with_reducible apply State.flag_frame
    | with_reducible apply State.log_frame
    | with_reducible apply frame_ite
    | (extract_lets +onlyGivenNames -underBinder x; first | (refine frame_cut (fp := fp) (orig := orig) (x := x) ?_ ?_ <;> first | (intro h0; generalize x = y at h0 ⊢; clear x) | intro h0 | subst x) | (have h0 := Nat.zero_le x; generalize x = y at h0 ⊢; clear h0 x) | subst x)
    | split
    | dsimp only
    | (with_reducible refine frame_mk ?_)

/-! ### TimeCmds -/

theorem State.reseedFinish_frame {fp : List Part} {orig : State} {s : State} (v : Nat) (hs : Frame fp orig s)  (hdict : Part.dict ∈ fp := by assumption) (htime : Part.time ∈ fp := by assumption) :
    Frame fp orig (State.reseedFinish s v) := by
  unfold State.reseedFinish
  repeat' first
    | intro _
    | with_reducible assumption
    | with_reducible apply State.set_frame
    | with_reducible apply State.bump_frame
    | (extract_lets +onlyGivenNames -underBinder x; first | (refine frame_cut (fp := fp) (orig := orig) (x := x) ?_ ?_ <;> first | (intro h0; generalize x = y at h0 ⊢; clear x) | intro h0 | subst x) | (have h0 := Nat.zero_le x; generalize x = y at h0 ⊢; clear h0 x) | subst x)
    | dsimp only
    | (with_reducible refine frame_mk ?_)

theorem State.stepBlocks_frame {fp : List Part} {orig : State} {s : State} (old : Nat) (new : Nat) (hs : Frame fp orig s)  (hdict : Part.dict ∈ fp := by assumption) (hstreams : Part.streams ∈ fp := by assumption) (hsilt : Part.silt ∈ fp := by assumption) (hout : Part.out ∈ fp := by assumption) (hcpu : Part.cpu ∈ fp := by assumption) (htmr : Part.tmr ∈ fp := by assumption) (hrx : Part.rx ∈ fp := by assumption) (hslots : Part.slots ∈ fp := by assumption) (hnav : Part.nav ∈ fp := by assumption) (herg : Part.erg ∈ fp := by assumption) (hsol : Part.sol ∈ fp := by assumption) (hports : Part.ports ∈ fp := by assumption) (hnet : Part.net ∈ fp := by assumption) (hlake : Part.lake ∈ fp := by assumption) :
    Frame fp orig (State.stepBlocks s old new) := by
  unfold State.stepBlocks
  repeat' first
    | intro _
    | with_reducible assumption
    | with_reducible apply State.lakeStep_frame
    | with_reducible apply State.solStep_frame
    | with_reducible apply State.ergStep_frame
    | with_reducible apply State.messagesStep_frame
    | with_reducible apply State.portsStep_frame
    | with_reducible apply State.outputsStep_frame
    | with_reducible apply State.leapDue_frame
    | with_reducible apply State.slotsStep_frame
    | with_reducible apply State.rephase_frame
    | with_reducible apply State.timersPondStep_frame
    | (extract_lets +onlyGivenNames -underBinder x; first | (refine frame_cut (fp := fp) (orig := orig) (x := x) ?_ ?_ <;> first | (intro h0; generalize x = y at h0 ⊢; clear x) | intro h0 | subst x) | (have h0 := Nat.zero_le x; generalize x = y at h0 ⊢; clear h0 x) | subst x)
    | dsimp only
    | (with_reducible refine frame_mk ?_)

theorem State.pondStep_frame {fp : List Part} {orig : State} {s : State}  (hs : Frame fp orig s)  (hdict : Part.dict ∈ fp := by assumption) (hstreams : Part.streams ∈ fp := by assumption) (hsilt : Part.silt ∈ fp := by assumption) (htime : Part.time ∈ fp := by assumption) (hout : Part.out ∈ fp := by assumption) (hcpu : Part.cpu ∈ fp := by assumption) (htmr : Part.tmr ∈ fp := by assumption) (hrx : Part.rx ∈ fp := by assumption) (hslots : Part.slots ∈ fp := by assumption) (hnav : Part.nav ∈ fp := by assumption) (herg : Part.erg ∈ fp := by assumption) (hsol : Part.sol ∈ fp := by assumption) (hports : Part.ports ∈ fp := by assumption) (hnet : Part.net ∈ fp := by assumption) (hlake : Part.lake ∈ fp := by assumption) :
    Frame fp orig (State.pondStep s) := by
  unfold State.pondStep
  repeat' first
    | intro _
    | with_reducible assumption
    | with_reducible apply State.stepBlocks_frame
    | with_reducible apply State.reseedFinish_frame
    | with_reducible apply State.stepRate_frame
    | with_reducible apply State.stepState_frame
    | with_reducible apply State.stepReport_frame
    | with_reducible apply State.stepPond_frame
    | with_reducible apply frame_ite
    | (extract_lets +onlyGivenNames -underBinder x; first | (refine frame_cut (fp := fp) (orig := orig) (x := x) ?_ ?_ <;> first | (intro h0; generalize x = y at h0 ⊢; clear x) | intro h0 | subst x) | (have h0 := Nat.zero_le x; generalize x = y at h0 ⊢; clear h0 x) | subst x)
    | split
    | dsimp only
    | (with_reducible refine frame_mk ?_)

theorem State.reseedCome_frame {fp : List Part} {orig : State} {s : State}  (hs : Frame fp orig s)  (hdict : Part.dict ∈ fp := by assumption) (hsilt : Part.silt ∈ fp := by assumption) (htime : Part.time ∈ fp := by assumption) :
    Frame fp orig (State.reseedCome s) := by
  unfold State.reseedCome
  repeat' first
    | intro _
    | with_reducible assumption
    | with_reducible apply State.log_frame
    | with_reducible apply frame_ite
    | (extract_lets +onlyGivenNames -underBinder x; first | (refine frame_cut (fp := fp) (orig := orig) (x := x) ?_ ?_ <;> first | (intro h0; generalize x = y at h0 ⊢; clear x) | intro h0 | subst x) | (have h0 := Nat.zero_le x; generalize x = y at h0 ⊢; clear h0 x) | subst x)
    | split
    | dsimp only
    | (with_reducible refine frame_mk ?_)

theorem State.reseedHand_frame {fp : List Part} {orig : State} {s : State}  (hs : Frame fp orig s)  (hdict : Part.dict ∈ fp := by assumption) (htime : Part.time ∈ fp := by assumption) :
    Frame fp orig (State.reseedHand s) := by
  unfold State.reseedHand
  repeat' first
    | intro _
    | with_reducible assumption
    | with_reducible apply State.handOver_frame
    | with_reducible apply frame_ite
    | split
    | dsimp only
    | (with_reducible refine frame_mk ?_)

theorem State.reseedLate_frame {fp : List Part} {orig : State} {s : State}  (hs : Frame fp orig s)  (hdict : Part.dict ∈ fp := by assumption) (htime : Part.time ∈ fp := by assumption) :
    Frame fp orig (State.reseedLate s) := by
  unfold State.reseedLate
  repeat' first
    | intro _
    | with_reducible assumption
    | with_reducible apply State.set_frame
    | with_reducible apply frame_ite
    | split
    | dsimp only
    | (with_reducible refine frame_mk ?_)

theorem State.refLost_frame {fp : List Part} {orig : State} {s : State}  (hs : Frame fp orig s)  (hdict : Part.dict ∈ fp := by assumption) (hsilt : Part.silt ∈ fp := by assumption) (htime : Part.time ∈ fp := by assumption) (hsol : Part.sol ∈ fp := by assumption) (hreader : Part.reader ∈ fp := by assumption) (hpower : Part.power ∈ fp := by assumption) :
    Frame fp orig (State.refLost s) := by
  unfold State.refLost
  repeat' first
    | intro _
    | with_reducible assumption
    | with_reducible apply State.refWake_frame
    | with_reducible apply State.synthRefChange_frame
    | with_reducible apply State.referenceLost_frame
    | with_reducible apply frame_ite
    | split
    | dsimp only
    | (with_reducible refine frame_mk ?_)

theorem State.refReturns_frame {fp : List Part} {orig : State} {s : State}  (hs : Frame fp orig s)  (hdict : Part.dict ∈ fp := by assumption) (htime : Part.time ∈ fp := by assumption) :
    Frame fp orig (State.refReturns s) := by
  unfold State.refReturns
  repeat' first
    | intro _
    | with_reducible assumption
    | with_reducible apply State.referenceReturning_frame
    | with_reducible apply frame_ite
    | split
    | dsimp only
    | (with_reducible refine frame_mk ?_)

theorem State.refValid_frame {fp : List Part} {orig : State} {s : State}  (hs : Frame fp orig s)  (hdict : Part.dict ∈ fp := by assumption) (hreader : Part.reader ∈ fp := by assumption) :
    Frame fp orig (State.refValid s) := by
  unfold State.refValid
  repeat' first
    | intro _
    | with_reducible assumption
    | with_reducible apply State.synthRefChange_frame
    | with_reducible apply State.referenceValid_frame
    | with_reducible apply frame_ite
    | (extract_lets +onlyGivenNames -underBinder x; first | (refine frame_cut (fp := fp) (orig := orig) (x := x) ?_ ?_ <;> first | (intro h0; generalize x = y at h0 ⊢; clear x) | intro h0 | subst x) | (have h0 := Nat.zero_le x; generalize x = y at h0 ⊢; clear h0 x) | subst x)
    | split
    | dsimp only
    | (with_reducible refine frame_mk ?_)

/-! ### VMem -/

theorem State.userStop_frame {fp : List Part} {orig : State} {s : State}  (hs : Frame fp orig s)  (hcpu : Part.cpu ∈ fp := by assumption) :
    Frame fp orig (State.userStop s) := by
  unfold State.userStop
  repeat' first
    | intro _
    | with_reducible assumption
    | dsimp only
    | (with_reducible refine frame_mk ?_)

theorem State.mailbox_frame {fp : List Part} {orig : State} {s : State} (w : Word) (hs : Frame fp orig s)  (hcpu : Part.cpu ∈ fp := by assumption) :
    Frame fp orig (State.mailbox s w) := by
  unfold State.mailbox
  repeat' first
    | intro _
    | with_reducible assumption
    | with_reducible apply State.raiseInt_frame
    | with_reducible apply frame_foldl
    | with_reducible apply frame_foldl_fst
    | with_reducible apply frame_ite
    | split
    | dsimp only
    | (with_reducible refine frame_mk ?_)

theorem State.tickNow_frame {fp : List Part} {orig : State} {s : State} (c : Nat) (hs : Frame fp orig s)  (hcpu : Part.cpu ∈ fp := by assumption) :
    Frame fp orig (State.tickNow s c).2 := by
  unfold State.tickNow
  repeat' first
    | intro _
    | with_reducible assumption
    | with_reducible apply State.modCore_frame
    | with_reducible apply frame_ite_snd
    | (extract_lets +onlyGivenNames -underBinder x; first | (refine frame_cut (fp := fp) (orig := orig) (x := x) ?_ ?_ <;> first | (intro h0; generalize x = y at h0 ⊢; clear x) | intro h0 | subst x) | (have h0 := Nat.zero_le x; generalize x = y at h0 ⊢; clear h0 x) | subst x)
    | dsimp only
    | (with_reducible refine frame_mk ?_)

theorem State.tickDone_frame {fp : List Part} {orig : State} {s : State} (c : Nat) (hs : Frame fp orig s)  (hcpu : Part.cpu ∈ fp := by assumption) :
    Frame fp orig (State.tickDone s c) := by
  unfold State.tickDone
  repeat' first
    | intro _
    | with_reducible assumption
    | with_reducible apply State.modCore_frame
    | with_reducible apply frame_ite
    | (extract_lets +onlyGivenNames -underBinder x; first | (refine frame_cut (fp := fp) (orig := orig) (x := x) ?_ ?_ <;> first | (intro h0; generalize x = y at h0 ⊢; clear x) | intro h0 | subst x) | (have h0 := Nat.zero_le x; generalize x = y at h0 ⊢; clear h0 x) | subst x)
    | split
    | dsimp only
    | (with_reducible refine frame_mk ?_)

theorem State.ncoCommit_frame {fp : List Part} {orig : State} {s : State} (n : Nat) (hs : Frame fp orig s)  (hcpu : Part.cpu ∈ fp := by assumption) :
    Frame fp orig (State.ncoCommit s n) := by
  unfold State.ncoCommit
  repeat' first
    | intro _
    | with_reducible assumption
    | with_reducible apply State.set_frame
    | with_reducible apply frame_ite
    | (extract_lets +onlyGivenNames -underBinder x; first | (refine frame_cut (fp := fp) (orig := orig) (x := x) ?_ ?_ <;> first | (intro h0; generalize x = y at h0 ⊢; clear x) | intro h0 | subst x) | (have h0 := Nat.zero_le x; generalize x = y at h0 ⊢; clear h0 x) | subst x)
    | split
    | dsimp only
    | (with_reducible refine frame_mk ?_)

theorem State.dauGo_frame {fp : List Part} {orig : State} {s : State} (c : Nat) (hs : Frame fp orig s) (hcpu : Part.cpu ∈ fp := by assumption) :
    FrameOk fp orig (State.dauGo s c) := by
  unfold State.dauGo
  repeat' first
    | with_reducible assumption
    | with_reducible apply frameOk_ok
    | with_reducible apply frameOk_error
    | with_reducible apply frameOk2_ok
    | with_reducible apply frameOk2_error
    | with_reducible apply State.modCore_frame
    | (extract_lets +onlyGivenNames -underBinder x; first | (refine frame_cut (fp := fp) (orig := orig) (x := x) ?_ ?_ <;> first | (intro h0; generalize x = y at h0 ⊢; clear x) | intro h0 | subst x) | (have h0 := Nat.zero_le x; generalize x = y at h0 ⊢; clear h0 x) | subst x)
    | intro _
    | with_reducible apply frameOk_ite
    | with_reducible apply frameOk2_ite
    | with_reducible apply frame_ite
    | split
    | dsimp only
    | (with_reducible refine frame_mk ?_)

theorem State.specRead_frame {fp : List Part} {orig : State} {s : State} (c a : Nat) (hs : Frame fp orig s) (hdict : Part.dict ∈ fp := by assumption) (hcpu : Part.cpu ∈ fp := by assumption) (htmr : Part.tmr ∈ fp := by assumption) :
    FrameOk2 fp orig (State.specRead s c a) := by
  unfold State.specRead
  repeat' first
    | with_reducible assumption
    | with_reducible apply frameOk_ok
    | with_reducible apply frameOk_error
    | with_reducible apply frameOk2_ok
    | with_reducible apply frameOk2_error
    | with_reducible apply State.tickNow_frame
    | with_reducible apply State.timerRead_frame
    | with_reducible apply State.modCore_frame
    | (extract_lets +onlyGivenNames -underBinder x; first | (refine frame_cut (fp := fp) (orig := orig) (x := x) ?_ ?_ <;> first | (intro h0; generalize x = y at h0 ⊢; clear x) | intro h0 | subst x) | (have h0 := Nat.zero_le x; generalize x = y at h0 ⊢; clear h0 x) | subst x)
    | intro _
    | with_reducible apply frameOk_ite
    | with_reducible apply frameOk2_ite
    | with_reducible apply frame_ite
    | split
    | dsimp only
    | (with_reducible refine frame_mk ?_)

theorem State.ringWrite_frame {fp : List Part} {orig : State} {s : State} (c r o : Nat) (w : Word) (hs : Frame fp orig s) (hdict : Part.dict ∈ fp := by assumption) (hcpu : Part.cpu ∈ fp := by assumption) (hports : Part.ports ∈ fp := by assumption) (hnet : Part.net ∈ fp := by assumption) :
    FrameOk fp orig (State.ringWrite s c r o w) := by
  unfold State.ringWrite
  repeat' first
    | with_reducible assumption
    | with_reducible apply frameOk_ok
    | with_reducible apply frameOk_error
    | with_reducible apply frameOk2_ok
    | with_reducible apply frameOk2_error
    | with_reducible apply State.ringHead_frame
    | with_reducible apply State.modCore_frame
    | (extract_lets +onlyGivenNames -underBinder x; first | (refine frame_cut (fp := fp) (orig := orig) (x := x) ?_ ?_ <;> first | (intro h0; generalize x = y at h0 ⊢; clear x) | intro h0 | subst x) | (have h0 := Nat.zero_le x; generalize x = y at h0 ⊢; clear h0 x) | subst x)
    | intro _
    | with_reducible apply frameOk_ite
    | with_reducible apply frameOk2_ite
    | with_reducible apply frame_ite
    | split
    | dsimp only
    | (with_reducible refine frame_mk ?_)

theorem State.specWrite_frame {fp : List Part} {orig : State} {s : State} (c a : Nat) (w : Word) (hs : Frame fp orig s) (hdict : Part.dict ∈ fp := by assumption) (hcpu : Part.cpu ∈ fp := by assumption) (htmr : Part.tmr ∈ fp := by assumption) (hports : Part.ports ∈ fp := by assumption) (hnet : Part.net ∈ fp := by assumption) :
    FrameOk fp orig (State.specWrite s c a w) := by
  unfold State.specWrite
  repeat' first
    | with_reducible assumption
    | with_reducible apply frameOk_ok
    | with_reducible apply frameOk_error
    | with_reducible apply frameOk2_ok
    | with_reducible apply frameOk2_error
    | with_reducible apply State.ringWrite_frame
    | with_reducible apply State.timerWrite_frame
    | with_reducible apply State.dauGo_frame
    | with_reducible apply State.tickDone_frame
    | with_reducible apply State.mailbox_frame
    | with_reducible apply State.ncoCommit_frame
    | with_reducible apply State.modCore_frame
    | (extract_lets +onlyGivenNames -underBinder x; first | (refine frame_cut (fp := fp) (orig := orig) (x := x) ?_ ?_ <;> first | (intro h0; generalize x = y at h0 ⊢; clear x) | intro h0 | subst x) | (have h0 := Nat.zero_le x; generalize x = y at h0 ⊢; clear h0 x) | subst x)
    | intro _
    | with_reducible apply frameOk_ite
    | with_reducible apply frameOk2_ite
    | with_reducible apply frame_ite
    | split
    | dsimp only
    | (with_reducible refine frame_mk ?_)

theorem State.readWord_frame {fp : List Part} {orig : State} {s : State} (c : Nat) (a : Word) (hs : Frame fp orig s) (hdict : Part.dict ∈ fp := by assumption) (hcpu : Part.cpu ∈ fp := by assumption) (htmr : Part.tmr ∈ fp := by assumption) :
    FrameOk2 fp orig (State.readWord s c a) := by
  unfold State.readWord
  repeat' first
    | with_reducible assumption
    | with_reducible apply frameOk_ok
    | with_reducible apply frameOk_error
    | with_reducible apply frameOk2_ok
    | with_reducible apply frameOk2_error
    | with_reducible apply State.specRead_frame
    | with_reducible apply State.modCore_frame
    | (extract_lets +onlyGivenNames -underBinder x; first | (refine frame_cut (fp := fp) (orig := orig) (x := x) ?_ ?_ <;> first | (intro h0; generalize x = y at h0 ⊢; clear x) | intro h0 | subst x) | (have h0 := Nat.zero_le x; generalize x = y at h0 ⊢; clear h0 x) | subst x)
    | intro _
    | with_reducible apply frameOk_ite
    | with_reducible apply frameOk2_ite
    | with_reducible apply frame_ite
    | split
    | dsimp only
    | (with_reducible refine frame_mk ?_)

theorem State.writeWord_frame {fp : List Part} {orig : State} {s : State} (c : Nat) (a w : Word) (hs : Frame fp orig s) (hdict : Part.dict ∈ fp := by assumption) (hcpu : Part.cpu ∈ fp := by assumption) (htmr : Part.tmr ∈ fp := by assumption) (hports : Part.ports ∈ fp := by assumption) (hnet : Part.net ∈ fp := by assumption) :
    FrameOk fp orig (State.writeWord s c a w) := by
  unfold State.writeWord
  repeat' first
    | with_reducible assumption
    | with_reducible apply frameOk_ok
    | with_reducible apply frameOk_error
    | with_reducible apply frameOk2_ok
    | with_reducible apply frameOk2_error
    | with_reducible apply State.specWrite_frame
    | with_reducible apply State.plainSet_frame
    | with_reducible apply State.modCore_frame
    | (extract_lets +onlyGivenNames -underBinder x; first | (refine frame_cut (fp := fp) (orig := orig) (x := x) ?_ ?_ <;> first | (intro h0; generalize x = y at h0 ⊢; clear x) | intro h0 | subst x) | (have h0 := Nat.zero_le x; generalize x = y at h0 ⊢; clear h0 x) | subst x)
    | intro _
    | with_reducible apply frameOk_ite
    | with_reducible apply frameOk2_ite
    | with_reducible apply frame_ite
    | split
    | dsimp only
    | (with_reducible refine frame_mk ?_)

theorem State.push_frame {fp : List Part} {orig : State} {s : State} (c : Nat) (w : Word) (hs : Frame fp orig s) (hdict : Part.dict ∈ fp := by assumption) (hcpu : Part.cpu ∈ fp := by assumption) (htmr : Part.tmr ∈ fp := by assumption) (hports : Part.ports ∈ fp := by assumption) (hnet : Part.net ∈ fp := by assumption) :
    FrameOk fp orig (State.push s c w) := by
  unfold State.push
  dsimp only
  have h := State.writeWord_frame c ((s.core c).sp - 1) w hs
  split
  · split <;> exact frameOk_error _
  · split
    · exact frameOk_error _
    · exact frameOk_ok (State.modCore_frame _ _ (h.ok _ (by with_reducible assumption)))

theorem State.pop_frame {fp : List Part} {orig : State} {s : State} (c : Nat) (hs : Frame fp orig s) (hdict : Part.dict ∈ fp := by assumption) (hcpu : Part.cpu ∈ fp := by assumption) (htmr : Part.tmr ∈ fp := by assumption) :
    FrameOk2 fp orig (State.pop s c) := by
  unfold State.pop
  dsimp only
  have h := State.readWord_frame c (s.core c).sp hs
  split
  · split <;> exact frameOk2_error _
  · split
    · exact frameOk2_error _
    · exact frameOk2_ok (State.modCore_frame _ _ (h.ok _ (by with_reducible assumption)))

/-! ### Vuvan -/

theorem State.tryCore_frame {fp : List Part} {orig : State} {s : State} (c : Nat) (f : CoreSt → Except Trap CoreSt) (hs : Frame fp orig s) (hcpu : Part.cpu ∈ fp := by assumption) :
    FrameOk fp orig (State.tryCore s c f) := by
  unfold State.tryCore
  split
  · exact frameOk_ok (State.modCore_frame _ _ hs)
  · exact frameOk_error _

theorem State.waitRun_frame {fp : List Part} {orig : State} {s : State} (c : Nat) (pc : Word) (hs : Frame fp orig s)  (hcpu : Part.cpu ∈ fp := by assumption) :
    Frame fp orig (State.waitRun s c pc) := by
  unfold State.waitRun
  repeat' first
    | intro _
    | with_reducible assumption
    | with_reducible apply State.tickDone_frame
    | with_reducible apply State.userStop_frame
    | with_reducible apply State.modCore_frame
    | with_reducible apply frame_ite
    | (extract_lets +onlyGivenNames -underBinder x; first | (refine frame_cut (fp := fp) (orig := orig) (x := x) ?_ ?_ <;> first | (intro h0; generalize x = y at h0 ⊢; clear x) | intro h0 | subst x) | (have h0 := Nat.zero_le x; generalize x = y at h0 ⊢; clear h0 x) | subst x)
    | split
    | dsimp only
    | (with_reducible refine frame_mk ?_)

theorem State.putReg_frame {fp : List Part} {orig : State} {s : State} (c code : Nat) (w : Word) (hs : Frame fp orig s) (hcpu : Part.cpu ∈ fp := by assumption) :
    FrameOk fp orig (State.putReg s c code w) := by
  unfold State.putReg
  repeat' first
    | with_reducible assumption
    | with_reducible apply frameOk_ok
    | with_reducible apply frameOk_error
    | with_reducible apply frameOk2_ok
    | with_reducible apply frameOk2_error
    | with_reducible apply frameOk_bind
    | with_reducible apply State.tryCore_frame
    | (extract_lets +onlyGivenNames -underBinder x; first | (refine frame_cut (fp := fp) (orig := orig) (x := x) ?_ ?_ <;> first | (intro h0; generalize x = y at h0 ⊢; clear x) | intro h0 | subst x) | (have h0 := Nat.zero_le x; generalize x = y at h0 ⊢; clear h0 x) | subst x)
    | intro _
    | with_reducible apply frameOk_ite
    | with_reducible apply frameOk2_ite
    | with_reducible apply frame_ite
    | split
    | dsimp only
    | (with_reducible refine frame_mk ?_)

theorem State.rtiRun_frame {fp : List Part} {orig : State} {s : State} (c : Nat) (hs : Frame fp orig s) (hdict : Part.dict ∈ fp := by assumption) (hcpu : Part.cpu ∈ fp := by assumption) (htmr : Part.tmr ∈ fp := by assumption) :
    FrameOk fp orig (State.rtiRun s c) := by
  unfold State.rtiRun
  repeat' first
    | with_reducible assumption
    | with_reducible apply frameOk_ok
    | with_reducible apply frameOk_error
    | with_reducible apply frameOk2_ok
    | with_reducible apply frameOk2_error
    | with_reducible apply frameOk2_bind
    | with_reducible apply frameOk_bind
    | with_reducible apply State.pop_frame
    | with_reducible apply State.putReg_frame
    | with_reducible apply State.modCore_frame
    | (extract_lets +onlyGivenNames -underBinder x; first | (refine frame_cut (fp := fp) (orig := orig) (x := x) ?_ ?_ <;> first | (intro h0; generalize x = y at h0 ⊢; clear x) | intro h0 | subst x) | (have h0 := Nat.zero_le x; generalize x = y at h0 ⊢; clear h0 x) | subst x)
    | intro _
    | with_reducible apply frameOk_ite
    | with_reducible apply frameOk2_ite
    | with_reducible apply frame_ite
    | split
    | dsimp only
    | (with_reducible refine frame_mk ?_)

theorem State.jump_frame {fp : List Part} {orig : State} {s : State} (c : Nat) (a : Word) (hs : Frame fp orig s)  (hcpu : Part.cpu ∈ fp := by assumption) :
    Frame fp orig (State.jump s c a) := by
  unfold State.jump
  repeat' first
    | intro _
    | with_reducible assumption
    | with_reducible apply State.modCore_frame
    | dsimp only
    | (with_reducible refine frame_mk ?_)

theorem State.callTo_frame {fp : List Part} {orig : State} {s : State} (c : Nat) (a : Word) (hs : Frame fp orig s) (hdict : Part.dict ∈ fp := by assumption) (hcpu : Part.cpu ∈ fp := by assumption) (htmr : Part.tmr ∈ fp := by assumption) (hports : Part.ports ∈ fp := by assumption) (hnet : Part.net ∈ fp := by assumption) :
    FrameOk fp orig (State.callTo s c a) := by
  unfold State.callTo
  repeat' first
    | with_reducible assumption
    | with_reducible apply frameOk_ok
    | with_reducible apply frameOk_error
    | with_reducible apply frameOk2_ok
    | with_reducible apply frameOk2_error
    | with_reducible apply frameOk_bind
    | with_reducible apply State.push_frame
    | with_reducible apply State.modCore_frame
    | (extract_lets +onlyGivenNames -underBinder x; first | (refine frame_cut (fp := fp) (orig := orig) (x := x) ?_ ?_ <;> first | (intro h0; generalize x = y at h0 ⊢; clear x) | intro h0 | subst x) | (have h0 := Nat.zero_le x; generalize x = y at h0 ⊢; clear h0 x) | subst x)
    | intro _
    | with_reducible apply frameOk_ite
    | with_reducible apply frameOk2_ite
    | with_reducible apply frame_ite
    | split
    | dsimp only
    | (with_reducible refine frame_mk ?_)

theorem State.vEffect_frame {fp : List Part} {orig : State} {s : State} (c : Nat) (sh : List (Nat × Word)) (t : Nat) (pc : Word) (op : VOp) (w x : Word) (hs : Frame fp orig s) (hdict : Part.dict ∈ fp := by assumption) (hcpu : Part.cpu ∈ fp := by assumption) (htmr : Part.tmr ∈ fp := by assumption) (hports : Part.ports ∈ fp := by assumption) (hnet : Part.net ∈ fp := by assumption) :
    FrameOk fp orig (State.vEffect s c sh t pc op w x) := by
  unfold State.vEffect
  repeat' first
    | with_reducible assumption
    | with_reducible apply frameOk_ok
    | with_reducible apply frameOk_error
    | with_reducible apply frameOk2_ok
    | with_reducible apply frameOk2_error
    | with_reducible apply frameOk2_bind
    | with_reducible apply frameOk_bind
    | with_reducible apply State.waitRun_frame
    | with_reducible apply State.jump_frame
    | with_reducible apply State.rtiRun_frame
    | with_reducible apply State.callTo_frame
    | with_reducible apply State.push_frame
    | with_reducible apply State.pop_frame
    | with_reducible apply State.readWord_frame
    | with_reducible apply State.writeWord_frame
    | with_reducible apply State.putReg_frame
    | with_reducible apply State.tryCore_frame
    | with_reducible apply State.modCore_frame
    | (extract_lets +onlyGivenNames -underBinder x; first | (refine frame_cut (fp := fp) (orig := orig) (x := x) ?_ ?_ <;> first | (intro h0; generalize x = y at h0 ⊢; clear x) | intro h0 | subst x) | (have h0 := Nat.zero_le x; generalize x = y at h0 ⊢; clear h0 x) | subst x)
    | intro _
    | with_reducible apply frameOk_ite
    | with_reducible apply frameOk2_ite
    | with_reducible apply frame_ite
    | split
    | dsimp only
    | (with_reducible refine frame_mk ?_)

theorem State.userTrap_frame {fp : List Part} {orig : State} {s : State} (t : Trap) (hs : Frame fp orig s)  (hdict : Part.dict ∈ fp := by assumption) :
    Frame fp orig (State.userTrap s t) := by
  unfold State.userTrap
  repeat' first
    | intro _
    | with_reducible assumption
    | with_reducible apply State.set_frame
    | with_reducible apply State.flag_frame
    | with_reducible apply frame_ite
    | (extract_lets +onlyGivenNames -underBinder x; first | (refine frame_cut (fp := fp) (orig := orig) (x := x) ?_ ?_ <;> first | (intro h0; generalize x = y at h0 ⊢; clear x) | intro h0 | subst x) | (have h0 := Nat.zero_le x; generalize x = y at h0 ⊢; clear h0 x) | subst x)
    | split
    | dsimp only
    | (with_reducible refine frame_mk ?_)

theorem State.stackTrap_frame {fp : List Part} {orig : State} {s : State} (c : Nat) (pc : Word) (hs : Frame fp orig s)  (hdict : Part.dict ∈ fp := by assumption) (hcpu : Part.cpu ∈ fp := by assumption) :
    Frame fp orig (State.stackTrap s c pc) := by
  unfold State.stackTrap
  repeat' first
    | intro _
    | with_reducible assumption
    | with_reducible apply State.userTrap_frame
    | with_reducible apply State.userStop_frame
    | with_reducible apply State.modCore_frame
    | with_reducible apply frame_ite
    | (extract_lets +onlyGivenNames -underBinder x; first | (refine frame_cut (fp := fp) (orig := orig) (x := x) ?_ ?_ <;> first | (intro h0; generalize x = y at h0 ⊢; clear x) | intro h0 | subst x) | (have h0 := Nat.zero_le x; generalize x = y at h0 ⊢; clear h0 x) | subst x)
    | split
    | dsimp only
    | (with_reducible refine frame_mk ?_)

theorem State.vectorEntry_frame {fp : List Part} {orig : State} {s t : State} {c : Nat} {pushed vector : Word} {keepU : Bool}
    (h : s.vectorEntry c pushed vector keepU = some t) (hs : Frame fp orig s) (hdict : Part.dict ∈ fp := by assumption) (hcpu : Part.cpu ∈ fp := by assumption) (htmr : Part.tmr ∈ fp := by assumption) (hports : Part.ports ∈ fp := by assumption) (hnet : Part.net ∈ fp := by assumption) : Frame fp orig t := by
  unfold State.vectorEntry at h
  have k : FrameOk fp orig (do let t ← s.push c pushed; t.push c (s.core c).stRead : Except Trap State) :=
    frameOk_bind (State.push_frame _ _ hs) fun t h => State.push_frame _ _ h
  split at h
  · cases h
  · rename_i u e
    cases h
    exact State.modCore_frame _ _ (k.ok u e)

theorem State.takeTrap_frame {fp : List Part} {orig : State} {s : State} (c : Nat) (t : Trap) (pc : Word) (pushed : Word) (hs : Frame fp orig s)  (hdict : Part.dict ∈ fp := by assumption) (hcpu : Part.cpu ∈ fp := by assumption) (htmr : Part.tmr ∈ fp := by assumption) (hports : Part.ports ∈ fp := by assumption) (hnet : Part.net ∈ fp := by assumption) :
    Frame fp orig (State.takeTrap s c t pc pushed) := by
  unfold State.takeTrap
  repeat' first
    | intro _
    | with_reducible assumption
    | with_reducible apply State.stackTrap_frame
    | with_reducible apply State.userTrap_frame
    | with_reducible apply State.userStop_frame
    | with_reducible apply State.modCore_frame
    | (with_reducible refine State.vectorEntry_frame (by with_reducible assumption) ?_)
    | with_reducible apply frame_ite
    | (extract_lets +onlyGivenNames -underBinder x; first | (refine frame_cut (fp := fp) (orig := orig) (x := x) ?_ ?_ <;> first | (intro h0; generalize x = y at h0 ⊢; clear x) | intro h0 | subst x) | (have h0 := Nat.zero_le x; generalize x = y at h0 ⊢; clear h0 x) | subst x)
    | split
    | dsimp only
    | (with_reducible refine frame_mk ?_)

theorem State.dueTraps_frame {fp : List Part} {orig : State} {s : State} (c : Nat) (hs : Frame fp orig s)  (hdict : Part.dict ∈ fp := by assumption) (hcpu : Part.cpu ∈ fp := by assumption) (htmr : Part.tmr ∈ fp := by assumption) (hports : Part.ports ∈ fp := by assumption) (hnet : Part.net ∈ fp := by assumption) :
    Frame fp orig (State.dueTraps s c) := by
  unfold State.dueTraps
  repeat' first
    | intro _
    | with_reducible assumption
    | with_reducible apply State.takeTrap_frame
    | with_reducible apply State.modCore_frame
    | with_reducible apply frame_foldl
    | with_reducible apply frame_foldl_fst
    | with_reducible apply frame_ite
    | (extract_lets +onlyGivenNames -underBinder x; first | (refine frame_cut (fp := fp) (orig := orig) (x := x) ?_ ?_ <;> first | (intro h0; generalize x = y at h0 ⊢; clear x) | intro h0 | subst x) | (have h0 := Nat.zero_le x; generalize x = y at h0 ⊢; clear h0 x) | subst x)
    | split
    | dsimp only
    | (with_reducible refine frame_mk ?_)

theorem State.runOnce_frame {fp : List Part} {orig : State} {s t : State} {c : Nat} {op : VOp} {pc next w x : Word}
    (h : s.runOnce c op pc next w x = .ok t) (hs : Frame fp orig s) (hdict : Part.dict ∈ fp := by assumption) (hcpu : Part.cpu ∈ fp := by assumption) (htmr : Part.tmr ∈ fp := by assumption) (hports : Part.ports ∈ fp := by assumption) (hnet : Part.net ∈ fp := by assumption) : Frame fp orig t :=
  (State.vEffect_frame _ _ _ _ _ _ _ (State.modCore_frame c (fun k => { k with pcx := next, shadow := [], cyc := k.cyc + vCycles op w }) hs)).ok t h

theorem State.issue_frame {fp : List Part} {orig : State} {s : State} (c : Nat) (w : Word) (x : Word) (hs : Frame fp orig s)  (hdict : Part.dict ∈ fp := by assumption) (hcpu : Part.cpu ∈ fp := by assumption) (htmr : Part.tmr ∈ fp := by assumption) (hports : Part.ports ∈ fp := by assumption) (hnet : Part.net ∈ fp := by assumption) :
    Frame fp orig (State.issue s c w x) := by
  unfold State.issue
  repeat' first
    | intro _
    | with_reducible assumption
    | with_reducible apply State.takeTrap_frame
    | with_reducible apply State.modCore_frame
    | (with_reducible refine State.runOnce_frame (by with_reducible assumption) ?_)
    | with_reducible apply frame_ite
    | (extract_lets +onlyGivenNames -underBinder x; first | (refine frame_cut (fp := fp) (orig := orig) (x := x) ?_ ?_ <;> first | (intro h0; generalize x = y at h0 ⊢; clear x) | intro h0 | subst x) | (have h0 := Nat.zero_le x; generalize x = y at h0 ⊢; clear h0 x) | subst x)
    | split
    | dsimp only
    | (with_reducible refine frame_mk ?_)

theorem State.modCpu_frame {fp : List Part} {orig : State} {s : State} (f : CoresSt → CoresSt) (hs : Frame fp orig s)  (hcpu : Part.cpu ∈ fp := by assumption) :
    Frame fp orig (State.modCpu s f) := by
  unfold State.modCpu
  repeat' first
    | intro _
    | with_reducible assumption
    | dsimp only
    | (with_reducible refine frame_mk ?_)

theorem State.overrun_frame {fp : List Part} {orig : State} {s : State} (c : Nat) (hs : Frame fp orig s)  (hdict : Part.dict ∈ fp := by assumption) (hcpu : Part.cpu ∈ fp := by assumption) :
    Frame fp orig (State.overrun s c) := by
  unfold State.overrun
  repeat' first
    | intro _
    | with_reducible assumption
    | with_reducible apply State.raise_frame
    | with_reducible apply State.bump_frame
    | with_reducible apply State.modCore_frame
    | (extract_lets +onlyGivenNames -underBinder x; first | (refine frame_cut (fp := fp) (orig := orig) (x := x) ?_ ?_ <;> first | (intro h0; generalize x = y at h0 ⊢; clear x) | intro h0 | subst x) | (have h0 := Nat.zero_le x; generalize x = y at h0 ⊢; clear h0 x) | subst x)
    | dsimp only
    | (with_reducible refine frame_mk ?_)

theorem State.haltCore_frame {fp : List Part} {orig : State} {s : State} (c : Nat) (hs : Frame fp orig s)  (hdict : Part.dict ∈ fp := by assumption) (hcpu : Part.cpu ∈ fp := by assumption) :
    Frame fp orig (State.haltCore s c) := by
  unfold State.haltCore
  repeat' first
    | intro _
    | with_reducible assumption
    | with_reducible apply State.userStop_frame
    | with_reducible apply State.raise_frame
    | with_reducible apply State.set_frame
    | with_reducible apply State.bump_frame
    | with_reducible apply frame_ite
    | (extract_lets +onlyGivenNames -underBinder x; first | (refine frame_cut (fp := fp) (orig := orig) (x := x) ?_ ?_ <;> first | (intro h0; generalize x = y at h0 ⊢; clear x) | intro h0 | subst x) | (have h0 := Nat.zero_le x; generalize x = y at h0 ⊢; clear h0 x) | subst x)
    | split
    | dsimp only
    | (with_reducible refine frame_mk ?_)

theorem State.coreOverrun_frame {fp : List Part} {orig : State} {s : State} (c : Nat) (hs : Frame fp orig s)  (hdict : Part.dict ∈ fp := by assumption) (hcpu : Part.cpu ∈ fp := by assumption) :
    Frame fp orig (State.coreOverrun s c) := by
  unfold State.coreOverrun
  repeat' first
    | intro _
    | with_reducible assumption
    | with_reducible apply State.overrun_frame
    | with_reducible apply State.modCpu_frame
    | dsimp only
    | (with_reducible refine frame_mk ?_)

theorem State.repHalt_frame {fp : List Part} {orig : State} {s : State} (c : Nat) (hs : Frame fp orig s)  (hdict : Part.dict ∈ fp := by assumption) (hcpu : Part.cpu ∈ fp := by assumption) :
    Frame fp orig (State.repHalt s c) := by
  unfold State.repHalt
  repeat' first
    | intro _
    | with_reducible assumption
    | with_reducible apply State.coreOverrun_frame
    | with_reducible apply State.haltCore_frame
    | with_reducible apply State.tickDone_frame
    | with_reducible apply frame_ite
    | (extract_lets +onlyGivenNames -underBinder x; first | (refine frame_cut (fp := fp) (orig := orig) (x := x) ?_ ?_ <;> first | (intro h0; generalize x = y at h0 ⊢; clear x) | intro h0 | subst x) | (have h0 := Nat.zero_le x; generalize x = y at h0 ⊢; clear h0 x) | subst x)
    | split
    | dsimp only
    | (with_reducible refine frame_mk ?_)

theorem State.repeatRun_frame {fp : List Part} {orig : State} {s : State} (left n c : Nat) (op : VOp) (pc next w x : Word)
    (hs : Frame fp orig s) (hdict : Part.dict ∈ fp := by assumption) (hcpu : Part.cpu ∈ fp := by assumption) (htmr : Part.tmr ∈ fp := by assumption) (hports : Part.ports ∈ fp := by assumption) (hnet : Part.net ∈ fp := by assumption) : Frame fp orig (State.repeatRun left n s c op pc next w x) := by
  induction n generalizing s with
  | zero =>
    unfold State.repeatRun
    exact frame_ite hs (State.repHalt_frame _ hs)
  | succ n ih =>
    unfold State.repeatRun
    dsimp only
    have h1 := State.modCore_frame c (fun k => { k with nrep := BitVec.ofNat 24 (n + 1 + left) }) hs
    have h2 := State.modCore_frame c (fun k => k.landWhere fun e => decide (e.due ≤ k.cyc)) h1
    split
    · exact State.takeTrap_frame _ _ _ _ h2
    · have h3 := State.runOnce_frame (by with_reducible assumption) h2
      have h4 := State.modCore_frame c (fun k => { k with nrep := BitVec.ofNat 24 (n + left) }) h3
      split
      · exact State.modCore_frame _ _ h4
      · exact ih h4

theorem State.issueRep_frame {fp : List Part} {orig : State} {s : State} (c : Nat) (w : Word) (w2 : Word) (x2 : Word) (cut : Option Nat) (hs : Frame fp orig s)  (hdict : Part.dict ∈ fp := by assumption) (hcpu : Part.cpu ∈ fp := by assumption) (htmr : Part.tmr ∈ fp := by assumption) (hports : Part.ports ∈ fp := by assumption) (hnet : Part.net ∈ fp := by assumption) :
    Frame fp orig (State.issueRep s c w w2 x2 cut) := by
  unfold State.issueRep
  repeat' first
    | intro _
    | with_reducible assumption
    | with_reducible apply State.repeatRun_frame
    | with_reducible apply State.takeTrap_frame
    | with_reducible apply State.modCore_frame
    | with_reducible apply frame_ite
    | (extract_lets +onlyGivenNames -underBinder x; first | (refine frame_cut (fp := fp) (orig := orig) (x := x) ?_ ?_ <;> first | (intro h0; generalize x = y at h0 ⊢; clear x) | intro h0 | subst x) | (have h0 := Nat.zero_le x; generalize x = y at h0 ⊢; clear h0 x) | subst x)
    | split
    | dsimp only
    | (with_reducible refine frame_mk ?_)

theorem State.boundary_frame {fp : List Part} {orig : State} {s : State} (c : Nat) (hs : Frame fp orig s)  (hdict : Part.dict ∈ fp := by assumption) (hcpu : Part.cpu ∈ fp := by assumption) (htmr : Part.tmr ∈ fp := by assumption) (hports : Part.ports ∈ fp := by assumption) (hnet : Part.net ∈ fp := by assumption) :
    Frame fp orig (State.boundary s c).1 := by
  unfold State.boundary
  repeat' first
    | intro _
    | with_reducible assumption
    | with_reducible apply State.dueTraps_frame
    | with_reducible apply State.modCore_frame
    | with_reducible apply frame_ite
    | with_reducible apply frame_ite_fst
    | (extract_lets +onlyGivenNames -underBinder x; first | (refine frame_cut (fp := fp) (orig := orig) (x := x) ?_ ?_ <;> first | (intro h0; generalize x = y at h0 ⊢; clear x) | intro h0 | subst x) | (have h0 := Nat.zero_le x; generalize x = y at h0 ⊢; clear h0 x) | subst x)
    | split
    | dsimp only
    | (with_reducible refine frame_mk ?_)

theorem State.vuvan_frame {fp : List Part} {orig : State} {s : State} (i : Issue) (want : VOp → Bool) (run : State → State) (hs : Frame fp orig s) (hf : ∀ t, Frame fp orig t → Frame fp orig (run t)) (hdict : Part.dict ∈ fp := by assumption) (htime : Part.time ∈ fp := by assumption) (hcpu : Part.cpu ∈ fp := by assumption) (htmr : Part.tmr ∈ fp := by assumption) (hports : Part.ports ∈ fp := by assumption) (hnet : Part.net ∈ fp := by assumption) :
    Frame fp orig (State.vuvan s i want run) := by
  unfold State.vuvan
  repeat' first
    | intro _
    | with_reducible assumption
    | with_reducible apply State.boundary_frame
    | with_reducible apply State.reach_frame
    | with_reducible apply hf
    | with_reducible apply frame_ite
    | (extract_lets +onlyGivenNames -underBinder x; first | (refine frame_cut (fp := fp) (orig := orig) (x := x) ?_ ?_ <;> first | (intro h0; generalize x = y at h0 ⊢; clear x) | intro h0 | subst x) | (have h0 := Nat.zero_le x; generalize x = y at h0 ⊢; clear h0 x) | subst x)
    | (with_reducible refine frame_fst (by with_reducible assumption) ?_)
    | (with_reducible refine frame_snd (by with_reducible assumption) ?_)
    | split
    | dsimp only
    | (with_reducible refine frame_mk ?_)

theorem State.interrupt_frame {fp : List Part} {orig : State} {s : State} (c : Nat) (hs : Frame fp orig s)  (hdict : Part.dict ∈ fp := by assumption) (hcpu : Part.cpu ∈ fp := by assumption) (htmr : Part.tmr ∈ fp := by assumption) (hports : Part.ports ∈ fp := by assumption) (hnet : Part.net ∈ fp := by assumption) :
    Frame fp orig (State.interrupt s c) := by
  unfold State.interrupt
  repeat' first
    | intro _
    | with_reducible assumption
    | with_reducible apply State.dueTraps_frame
    | with_reducible apply State.stackTrap_frame
    | with_reducible apply State.modCore_frame
    | (with_reducible refine State.vectorEntry_frame (by with_reducible assumption) ?_)
    | with_reducible apply frame_ite
    | (extract_lets +onlyGivenNames -underBinder x; first | (refine frame_cut (fp := fp) (orig := orig) (x := x) ?_ ?_ <;> first | (intro h0; generalize x = y at h0 ⊢; clear x) | intro h0 | subst x) | (have h0 := Nat.zero_le x; generalize x = y at h0 ⊢; clear h0 x) | subst x)
    | split
    | dsimp only
    | (with_reducible refine frame_mk ?_)

theorem State.tickEntry_frame {fp : List Part} {orig : State} {s : State} (c : Nat) (hs : Frame fp orig s)  (hdict : Part.dict ∈ fp := by assumption) (hcpu : Part.cpu ∈ fp := by assumption) :
    Frame fp orig (State.tickEntry s c) := by
  unfold State.tickEntry
  repeat' first
    | intro _
    | with_reducible assumption
    | with_reducible apply State.set_frame
    | with_reducible apply State.modCore_frame
    | with_reducible apply frame_ite
    | (extract_lets +onlyGivenNames -underBinder x; first | (refine frame_cut (fp := fp) (orig := orig) (x := x) ?_ ?_ <;> first | (intro h0; generalize x = y at h0 ⊢; clear x) | intro h0 | subst x) | (have h0 := Nat.zero_le x; generalize x = y at h0 ⊢; clear h0 x) | subst x)
    | split
    | dsimp only
    | (with_reducible refine frame_mk ?_)

theorem State.userEnter_frame {fp : List Part} {orig : State} {s : State}  (hs : Frame fp orig s)  (hcpu : Part.cpu ∈ fp := by assumption) :
    Frame fp orig (State.userEnter s) := by
  unfold State.userEnter
  repeat' first
    | intro _
    | with_reducible assumption
    | with_reducible apply State.modCore_frame
    | (extract_lets +onlyGivenNames -underBinder x; first | (refine frame_cut (fp := fp) (orig := orig) (x := x) ?_ ?_ <;> first | (intro h0; generalize x = y at h0 ⊢; clear x) | intro h0 | subst x) | (have h0 := Nat.zero_le x; generalize x = y at h0 ⊢; clear h0 x) | subst x)
    | dsimp only
    | (with_reducible refine frame_mk ?_)

/-! ### Tick -/

theorem State.migrateTasks_frame {fp : List Part} {orig : State} {s : State} (tasks : Nat) (hs : Frame fp orig s)  (hdict : Part.dict ∈ fp := by assumption) (hcpu : Part.cpu ∈ fp := by assumption) :
    Frame fp orig (State.migrateTasks s tasks) := by
  unfold State.migrateTasks
  repeat' first
    | intro _
    | with_reducible assumption
    | with_reducible apply State.modCpu_frame
    | with_reducible apply State.set_frame
    | with_reducible apply frame_ite
    | (extract_lets +onlyGivenNames -underBinder x; first | (refine frame_cut (fp := fp) (orig := orig) (x := x) ?_ ?_ <;> first | (intro h0; generalize x = y at h0 ⊢; clear x) | intro h0 | subst x) | (have h0 := Nat.zero_le x; generalize x = y at h0 ⊢; clear h0 x) | subst x)
    | split
    | dsimp only
    | (with_reducible refine frame_mk ?_)

theorem State.coreUsage_frame {fp : List Part} {orig : State} {s : State} (c : Nat) (hs : Frame fp orig s)  (hdict : Part.dict ∈ fp := by assumption) (hfree : Part.free ∈ fp := by assumption) :
    Frame fp orig (State.coreUsage s c) := by
  unfold State.coreUsage
  repeat' first
    | intro _
    | with_reducible assumption
    | with_reducible apply State.tickDone_frame
    | with_reducible apply State.takeFree_frame
    | with_reducible apply State.set_frame
    | with_reducible apply frame_ite
    | (extract_lets +onlyGivenNames -underBinder x; first | (refine frame_cut (fp := fp) (orig := orig) (x := x) ?_ ?_ <;> first | (intro h0; generalize x = y at h0 ⊢; clear x) | intro h0 | subst x) | (have h0 := Nat.zero_le x; generalize x = y at h0 ⊢; clear h0 x) | subst x)
    | split
    | dsimp only
    | (with_reducible refine frame_mk ?_)

theorem State.tickJudge_frame {fp : List Part} {orig : State} {s : State}  (hs : Frame fp orig s)  (hcpu : Part.cpu ∈ fp := by assumption) (hboot : Part.boot ∈ fp := by assumption) :
    Frame fp orig (State.tickJudge s) := by
  unfold State.tickJudge
  repeat' first
    | intro _
    | with_reducible assumption
    | with_reducible apply State.modCpu_frame
    | with_reducible apply frame_ite
    | (extract_lets +onlyGivenNames -underBinder x; first | (refine frame_cut (fp := fp) (orig := orig) (x := x) ?_ ?_ <;> first | (intro h0; generalize x = y at h0 ⊢; clear x) | intro h0 | subst x) | (have h0 := Nat.zero_le x; generalize x = y at h0 ⊢; clear h0 x) | subst x)
    | split
    | dsimp only
    | (with_reducible refine frame_mk ?_)

theorem State.coresTick_frame {fp : List Part} {orig : State} {s : State}  (hs : Frame fp orig s)  (hdict : Part.dict ∈ fp := by assumption) (hfree : Part.free ∈ fp := by assumption) (hcpu : Part.cpu ∈ fp := by assumption) (hboot : Part.boot ∈ fp := by assumption) :
    Frame fp orig (State.coresTick s) := by
  unfold State.coresTick
  repeat' first
    | intro _
    | with_reducible assumption
    | with_reducible apply State.tickJudge_frame
    | with_reducible apply State.coreUsage_frame
    | with_reducible apply State.tickEntry_frame
    | with_reducible apply State.modCpu_frame
    | with_reducible apply frame_foldl
    | with_reducible apply frame_foldl_fst
    | (extract_lets +onlyGivenNames -underBinder x; first | (refine frame_cut (fp := fp) (orig := orig) (x := x) ?_ ?_ <;> first | (intro h0; generalize x = y at h0 ⊢; clear x) | intro h0 | subst x) | (have h0 := Nat.zero_le x; generalize x = y at h0 ⊢; clear h0 x) | subst x)
    | dsimp only
    | (with_reducible refine frame_mk ?_)

theorem State.budgetDeadline_frame {fp : List Part} {orig : State} {s : State}  (hs : Frame fp orig s)  (hdict : Part.dict ∈ fp := by assumption) (htime : Part.time ∈ fp := by assumption) (hcpu : Part.cpu ∈ fp := by assumption) (hslots : Part.slots ∈ fp := by assumption) (hsol : Part.sol ∈ fp := by assumption) :
    Frame fp orig (State.budgetDeadline s) := by
  unfold State.budgetDeadline
  repeat' first
    | intro _
    | with_reducible assumption
    | with_reducible apply State.coreOverrun_frame
    | with_reducible apply State.modCpu_frame
    | with_reducible apply State.tickDone_frame
    | with_reducible apply State.epochSkip_frame
    | with_reducible apply State.reach_frame
    | with_reducible apply State.modCore_frame
    | with_reducible apply frame_foldl
    | with_reducible apply frame_foldl_fst
    | with_reducible apply frame_ite
    | (extract_lets +onlyGivenNames -underBinder x; first | (refine frame_cut (fp := fp) (orig := orig) (x := x) ?_ ?_ <;> first | (intro h0; generalize x = y at h0 ⊢; clear x) | intro h0 | subst x) | (have h0 := Nat.zero_le x; generalize x = y at h0 ⊢; clear h0 x) | subst x)
    | split
    | dsimp only
    | (with_reducible refine frame_mk ?_)

theorem State.hardStop_frame {fp : List Part} {orig : State} {s : State}  (hs : Frame fp orig s)  (hdict : Part.dict ∈ fp := by assumption) (htime : Part.time ∈ fp := by assumption) (hcpu : Part.cpu ∈ fp := by assumption) :
    Frame fp orig (State.hardStop s) := by
  unfold State.hardStop
  repeat' first
    | intro _
    | with_reducible assumption
    | with_reducible apply State.haltCore_frame
    | with_reducible apply State.modCpu_frame
    | with_reducible apply State.reach_frame
    | with_reducible apply frame_foldl
    | with_reducible apply frame_foldl_fst
    | with_reducible apply frame_ite
    | (extract_lets +onlyGivenNames -underBinder x; first | (refine frame_cut (fp := fp) (orig := orig) (x := x) ?_ ?_ <;> first | (intro h0; generalize x = y at h0 ⊢; clear x) | intro h0 | subst x) | (have h0 := Nat.zero_le x; generalize x = y at h0 ⊢; clear h0 x) | subst x)
    | split
    | dsimp only
    | (with_reducible refine frame_mk ?_)

theorem State.dumpReady_frame {fp : List Part} {orig : State} {s : State}  (hs : Frame fp orig s)  (htime : Part.time ∈ fp := by assumption) (hcpu : Part.cpu ∈ fp := by assumption) :
    Frame fp orig (State.dumpReady s) := by
  unfold State.dumpReady
  repeat' first
    | intro _
    | with_reducible assumption
    | with_reducible apply State.modCpu_frame
    | with_reducible apply State.dumpWrite_frame
    | with_reducible apply State.raiseInt_frame
    | with_reducible apply State.reach_frame
    | with_reducible apply frame_foldl
    | with_reducible apply frame_foldl_fst
    | with_reducible apply frame_ite
    | (extract_lets +onlyGivenNames -underBinder x; first | (refine frame_cut (fp := fp) (orig := orig) (x := x) ?_ ?_ <;> first | (intro h0; generalize x = y at h0 ⊢; clear x) | intro h0 | subst x) | (have h0 := Nat.zero_le x; generalize x = y at h0 ⊢; clear h0 x) | subst x)
    | split
    | dsimp only
    | (with_reducible refine frame_mk ?_)

theorem State.userBudget_frame {fp : List Part} {orig : State} {s : State}  (hs : Frame fp orig s)  (hdict : Part.dict ∈ fp := by assumption) (hcpu : Part.cpu ∈ fp := by assumption) :
    Frame fp orig (State.userBudget s) := by
  unfold State.userBudget
  repeat' first
    | intro _
    | with_reducible assumption
    | with_reducible apply State.overrun_frame
    | with_reducible apply State.modCore_frame
    | with_reducible apply frame_ite
    | split
    | dsimp only
    | (with_reducible refine frame_mk ?_)

theorem State.userHardStop_frame {fp : List Part} {orig : State} {s : State}  (hs : Frame fp orig s)  (hdict : Part.dict ∈ fp := by assumption) (hcpu : Part.cpu ∈ fp := by assumption) :
    Frame fp orig (State.userHardStop s) := by
  unfold State.userHardStop
  repeat' first
    | intro _
    | with_reducible assumption
    | with_reducible apply State.haltCore_frame
    | with_reducible apply frame_ite
    | split
    | dsimp only
    | (with_reducible refine frame_mk ?_)

theorem State.shedStep_frame {fp : List Part} {orig : State} {s : State}  (hs : Frame fp orig s)  (hdict : Part.dict ∈ fp := by assumption) (hcpu : Part.cpu ∈ fp := by assumption) (hslots : Part.slots ∈ fp := by assumption) (hnav : Part.nav ∈ fp := by assumption) :
    Frame fp orig (State.shedStep s) := by
  unfold State.shedStep
  repeat' first
    | intro _
    | with_reducible assumption
    | with_reducible apply State.modCpu_frame
    | with_reducible apply State.slotsRelease_frame
    | with_reducible apply State.raise_frame
    | with_reducible apply State.set_frame
    | with_reducible apply State.bump_frame
    | with_reducible apply frame_ite
    | (extract_lets +onlyGivenNames -underBinder x; first | (refine frame_cut (fp := fp) (orig := orig) (x := x) ?_ ?_ <;> first | (intro h0; generalize x = y at h0 ⊢; clear x) | intro h0 | subst x) | (have h0 := Nat.zero_le x; generalize x = y at h0 ⊢; clear h0 x) | subst x)
    | split
    | dsimp only
    | (with_reducible refine frame_mk ?_)

theorem State.taskMigration_frame {fp : List Part} {orig : State} {s : State} (tasks : Nat) (hs : Frame fp orig s)  (hdict : Part.dict ∈ fp := by assumption) (hcpu : Part.cpu ∈ fp := by assumption) (hslots : Part.slots ∈ fp := by assumption) (hnav : Part.nav ∈ fp := by assumption) :
    Frame fp orig (State.taskMigration s tasks) := by
  unfold State.taskMigration
  repeat' first
    | intro _
    | with_reducible assumption
    | with_reducible apply State.migrateTasks_frame
    | with_reducible apply State.modCpu_frame
    | with_reducible apply State.slotsLimit_frame
    | with_reducible apply State.raise_frame
    | with_reducible apply State.set_frame
    | with_reducible apply State.bump_frame
    | with_reducible apply frame_ite
    | (extract_lets +onlyGivenNames -underBinder x; first | (refine frame_cut (fp := fp) (orig := orig) (x := x) ?_ ?_ <;> first | (intro h0; generalize x = y at h0 ⊢; clear x) | intro h0 | subst x) | (have h0 := Nat.zero_le x; generalize x = y at h0 ⊢; clear h0 x) | subst x)
    | split
    | dsimp only
    | (with_reducible refine frame_mk ?_)

theorem State.coreRetire_frame {fp : List Part} {orig : State} {s : State} (c : Nat) (hs : Frame fp orig s)  (hdict : Part.dict ∈ fp := by assumption) (hsilt : Part.silt ∈ fp := by assumption) (hcpu : Part.cpu ∈ fp := by assumption) (hnet : Part.net ∈ fp := by assumption) (hboot : Part.boot ∈ fp := by assumption) :
    Frame fp orig (State.coreRetire s c) := by
  unfold State.coreRetire
  repeat' first
    | intro _
    | with_reducible assumption
    | with_reducible apply State.modCpu_frame
    | with_reducible apply State.userStop_frame
    | with_reducible apply State.ringsRetire_frame
    | with_reducible apply State.set_frame
    | with_reducible apply State.flag_frame
    | with_reducible apply State.log_frame
    | with_reducible apply State.modCore_frame
    | with_reducible apply frame_ite
    | (extract_lets +onlyGivenNames -underBinder x; first | (refine frame_cut (fp := fp) (orig := orig) (x := x) ?_ ?_ <;> first | (intro h0; generalize x = y at h0 ⊢; clear x) | intro h0 | subst x) | (have h0 := Nat.zero_le x; generalize x = y at h0 ⊢; clear h0 x) | subst x)
    | split
    | dsimp only
    | (with_reducible refine frame_mk ?_)

theorem State.selfCheck_frame {fp : List Part} {orig : State} {s : State} (failed : List Nat) (hs : Frame fp orig s)  (hdict : Part.dict ∈ fp := by assumption) (hsilt : Part.silt ∈ fp := by assumption) (hcpu : Part.cpu ∈ fp := by assumption) (hnet : Part.net ∈ fp := by assumption) (hboot : Part.boot ∈ fp := by assumption) :
    Frame fp orig (State.selfCheck s failed) := by
  unfold State.selfCheck
  repeat' first
    | intro _
    | with_reducible assumption
    | with_reducible apply State.coreRetire_frame
    | with_reducible apply frame_foldl
    | with_reducible apply frame_foldl_fst
    | with_reducible apply frame_ite
    | split
    | dsimp only
    | (with_reducible refine frame_mk ?_)

theorem State.levelTick_frame {fp : List Part} {orig : State} {s : State} (ramp : Option Nat) (hs : Frame fp orig s)  (hdict : Part.dict ∈ fp := by assumption) (hsilt : Part.silt ∈ fp := by assumption) (hpower : Part.power ∈ fp := by assumption) :
    Frame fp orig (State.levelTick s ramp) := by
  unfold State.levelTick
  repeat' first
    | intro _
    | with_reducible assumption
    | with_reducible apply State.levelFail_frame
    | with_reducible apply State.modPower_frame
    | with_reducible apply State.set_frame
    | with_reducible apply frame_ite
    | (extract_lets +onlyGivenNames -underBinder x; first | (refine frame_cut (fp := fp) (orig := orig) (x := x) ?_ ?_ <;> first | (intro h0; generalize x = y at h0 ⊢; clear x) | intro h0 | subst x) | (have h0 := Nat.zero_le x; generalize x = y at h0 ⊢; clear h0 x) | subst x)
    | split
    | dsimp only
    | (with_reducible refine frame_mk ?_)

theorem State.deviceTick_frame {fp : List Part} {orig : State} {s : State}  (hs : Frame fp orig s)  (hdict : Part.dict ∈ fp := by assumption) (hsilt : Part.silt ∈ fp := by assumption) (hpower : Part.power ∈ fp := by assumption) (hboot : Part.boot ∈ fp := by assumption) :
    Frame fp orig (State.deviceTick s) := by
  unfold State.deviceTick
  repeat' first
    | intro _
    | with_reducible assumption
    | with_reducible apply State.startLog_frame
    | with_reducible apply State.set_frame
    | with_reducible apply State.flag_frame
    | with_reducible apply State.log_frame
    | with_reducible apply frame_ite
    | (extract_lets +onlyGivenNames -underBinder x; first | (refine frame_cut (fp := fp) (orig := orig) (x := x) ?_ ?_ <;> first | (intro h0; generalize x = y at h0 ⊢; clear x) | intro h0 | subst x) | (have h0 := Nat.zero_le x; generalize x = y at h0 ⊢; clear h0 x) | subst x)
    | split
    | dsimp only
    | (with_reducible refine frame_mk ?_)

theorem State.tickTime_frame {fp : List Part} {orig : State} {s : State}  (hs : Frame fp orig s)  (htime : Part.time ∈ fp := by assumption) (hsol : Part.sol ∈ fp := by assumption) :
    Frame fp orig (State.tickTime s) := by
  unfold State.tickTime
  repeat' first
    | intro _
    | with_reducible assumption
    | (extract_lets +onlyGivenNames -underBinder x; first | (refine frame_cut (fp := fp) (orig := orig) (x := x) ?_ ?_ <;> first | (intro h0; generalize x = y at h0 ⊢; clear x) | intro h0 | subst x) | (have h0 := Nat.zero_le x; generalize x = y at h0 ⊢; clear h0 x) | subst x)
    | dsimp only
    | (with_reducible refine frame_mk ?_)

theorem State.tickMeasure_frame {fp : List Part} {orig : State} {s : State} (i : TickIn) (hs : Frame fp orig s)  (hdict : Part.dict ∈ fp := by assumption) (hpower : Part.power ∈ fp := by assumption) :
    Frame fp orig (State.tickMeasure s i) := by
  unfold State.tickMeasure
  repeat' first
    | intro _
    | with_reducible assumption
    | with_reducible apply State.modPower_frame
    | with_reducible apply State.setI_frame
    | with_reducible apply State.set_frame
    | with_reducible apply State.flag_frame
    | with_reducible apply frame_ite
    | (extract_lets +onlyGivenNames -underBinder x; first | (refine frame_cut (fp := fp) (orig := orig) (x := x) ?_ ?_ <;> first | (intro h0; generalize x = y at h0 ⊢; clear x) | intro h0 | subst x) | (have h0 := Nat.zero_le x; generalize x = y at h0 ⊢; clear h0 x) | subst x)
    | split
    | dsimp only
    | (with_reducible refine frame_mk ?_)

theorem State.wakeEnd_frame {fp : List Part} {orig : State} {s : State}  (hs : Frame fp orig s)  (hdict : Part.dict ∈ fp := by assumption) (hstreams : Part.streams ∈ fp := by assumption) (htime : Part.time ∈ fp := by assumption) (hout : Part.out ∈ fp := by assumption) (hcpu : Part.cpu ∈ fp := by assumption) (htmr : Part.tmr ∈ fp := by assumption) (hslots : Part.slots ∈ fp := by assumption) (hnav : Part.nav ∈ fp := by assumption) (hports : Part.ports ∈ fp := by assumption) (hnet : Part.net ∈ fp := by assumption) (hreader : Part.reader ∈ fp := by assumption) (hpower : Part.power ∈ fp := by assumption) :
    Frame fp orig (State.wakeEnd s) := by
  unfold State.wakeEnd
  repeat' first
    | intro _
    | with_reducible assumption
    | with_reducible apply State.modPower_frame
    | with_reducible apply State.portTry_frame
    | with_reducible apply State.modReader_frame
    | with_reducible apply State.outputsWake_frame
    | with_reducible apply State.slotsResume_frame
    | with_reducible apply State.timersWake_frame
    | with_reducible apply frame_foldl
    | with_reducible apply frame_foldl_fst
    | (extract_lets +onlyGivenNames -underBinder x; first | (refine frame_cut (fp := fp) (orig := orig) (x := x) ?_ ?_ <;> first | (intro h0; generalize x = y at h0 ⊢; clear x) | intro h0 | subst x) | (have h0 := Nat.zero_le x; generalize x = y at h0 ⊢; clear h0 x) | subst x)
    | dsimp only
    | (with_reducible refine frame_mk ?_)

theorem State.tickRadio_frame {fp : List Part} {orig : State} {s : State} (i : TickIn) (d : Nat) (hs : Frame fp orig s)  (hdict : Part.dict ∈ fp := by assumption) (hstreams : Part.streams ∈ fp := by assumption) (hsilt : Part.silt ∈ fp := by assumption) (hfree : Part.free ∈ fp := by assumption) (hcpu : Part.cpu ∈ fp := by assumption) (hrx : Part.rx ∈ fp := by assumption) (hslots : Part.slots ∈ fp := by assumption) (hnav : Part.nav ∈ fp := by assumption) (herg : Part.erg ∈ fp := by assumption) (hsol : Part.sol ∈ fp := by assumption) (hprot : Part.prot ∈ fp := by assumption) (hreader : Part.reader ∈ fp := by assumption) :
    Frame fp orig (State.tickRadio s i d) := by
  unfold State.tickRadio
  repeat' first
    | intro _
    | with_reducible assumption
    | with_reducible apply State.surveysTick_frame
    | with_reducible apply State.epochTick_frame
    | with_reducible apply State.ergTick_frame
    | with_reducible apply State.antSelect_frame
    | with_reducible apply State.thermalCut_frame
    | with_reducible apply State.ceilingTick_frame
    | with_reducible apply State.readerTick_frame
    | with_reducible apply State.navTick_frame
    | with_reducible apply State.storeFlush_frame
    | with_reducible apply State.slotsTick_frame
    | with_reducible apply State.chainPower_frame
    | with_reducible apply State.chainTick_frame
    | with_reducible apply State.antTick_frame
    | with_reducible apply State.set_frame
    | with_reducible apply frame_foldl
    | with_reducible apply frame_foldl_fst
    | with_reducible apply frame_ite
    | (extract_lets +onlyGivenNames -underBinder x; first | (refine frame_cut (fp := fp) (orig := orig) (x := x) ?_ ?_ <;> first | (intro h0; generalize x = y at h0 ⊢; clear x) | intro h0 | subst x) | (have h0 := Nat.zero_le x; generalize x = y at h0 ⊢; clear h0 x) | subst x)
    | split
    | dsimp only
    | (with_reducible refine frame_mk ?_)

theorem State.tickTimed_frame {fp : List Part} {orig : State} {s : State} (i : TickIn) (hs : Frame fp orig s)  (hdict : Part.dict ∈ fp := by assumption) (hstreams : Part.streams ∈ fp := by assumption) (hsilt : Part.silt ∈ fp := by assumption) (hhost : Part.host ∈ fp := by assumption) (htime : Part.time ∈ fp := by assumption) (hout : Part.out ∈ fp := by assumption) (hcpu : Part.cpu ∈ fp := by assumption) (htmr : Part.tmr ∈ fp := by assumption) (hnav : Part.nav ∈ fp := by assumption) (hports : Part.ports ∈ fp := by assumption) (hnet : Part.net ∈ fp := by assumption) (hlake : Part.lake ∈ fp := by assumption) :
    Frame fp orig (State.tickTimed s i) := by
  unfold State.tickTimed
  repeat' first
    | intro _
    | with_reducible assumption
    | with_reducible apply State.roleJudge_frame
    | with_reducible apply State.lakeTick_frame
    | with_reducible apply State.blocksSend_frame
    | with_reducible apply State.offersSend_frame
    | with_reducible apply State.netTick_frame
    | with_reducible apply State.ptpTick_frame
    | with_reducible apply State.portsTick_frame
    | with_reducible apply State.delayTick_frame
    | with_reducible apply State.utcUpdate_frame
    | with_reducible apply State.timersTick_frame
    | with_reducible apply State.steerSource_frame
    | with_reducible apply State.holdTick_frame
    | with_reducible apply State.rateSlew_frame
    | with_reducible apply State.set_frame
    | with_reducible apply frame_ite
    | (extract_lets +onlyGivenNames -underBinder x; first | (refine frame_cut (fp := fp) (orig := orig) (x := x) ?_ ?_ <;> first | (intro h0; generalize x = y at h0 ⊢; clear x) | intro h0 | subst x) | (have h0 := Nat.zero_le x; generalize x = y at h0 ⊢; clear h0 x) | subst x)
    | split
    | dsimp only
    | (with_reducible refine frame_mk ?_)

theorem State.pinsTick_frame {fp : List Part} {orig : State} {s : State}  (hs : Frame fp orig s)  (hout : Part.out ∈ fp := by assumption) :
    Frame fp orig (State.pinsTick s) := by
  unfold State.pinsTick
  repeat' first
    | intro _
    | with_reducible assumption
    | with_reducible apply frame_ite
    | (extract_lets +onlyGivenNames -underBinder x; first | (refine frame_cut (fp := fp) (orig := orig) (x := x) ?_ ?_ <;> first | (intro h0; generalize x = y at h0 ⊢; clear x) | intro h0 | subst x) | (have h0 := Nat.zero_le x; generalize x = y at h0 ⊢; clear h0 x) | subst x)
    | split
    | dsimp only
    | (with_reducible refine frame_mk ?_)

theorem State.tickSettings_frame {fp : List Part} {orig : State} {s : State}  (hs : Frame fp orig s)  (hout : Part.out ∈ fp := by assumption) (hprot : Part.prot ∈ fp := by assumption) (hpower : Part.power ∈ fp := by assumption) :
    Frame fp orig (State.tickSettings s) := by
  unfold State.tickSettings
  repeat' first
    | intro _
    | with_reducible assumption
    | with_reducible apply State.pinsTick_frame
    | with_reducible apply State.modPower_frame
    | with_reducible apply State.modProt_frame
    | with_reducible apply frame_ite
    | (extract_lets +onlyGivenNames -underBinder x; first | (refine frame_cut (fp := fp) (orig := orig) (x := x) ?_ ?_ <;> first | (intro h0; generalize x = y at h0 ⊢; clear x) | intro h0 | subst x) | (have h0 := Nat.zero_le x; generalize x = y at h0 ⊢; clear h0 x) | subst x)
    | split
    | dsimp only
    | (with_reducible refine frame_mk ?_)

theorem State.tickRun_frame {fp : List Part} {orig : State} {s : State} (i : TickIn) (d : Nat) (hs : Frame fp orig s)  (hdict : Part.dict ∈ fp := by assumption) (hstreams : Part.streams ∈ fp := by assumption) (hsilt : Part.silt ∈ fp := by assumption) (hhost : Part.host ∈ fp := by assumption) (hfree : Part.free ∈ fp := by assumption) (htime : Part.time ∈ fp := by assumption) (hout : Part.out ∈ fp := by assumption) (hcpu : Part.cpu ∈ fp := by assumption) (htmr : Part.tmr ∈ fp := by assumption) (hrx : Part.rx ∈ fp := by assumption) (hslots : Part.slots ∈ fp := by assumption) (hnav : Part.nav ∈ fp := by assumption) (herg : Part.erg ∈ fp := by assumption) (hsol : Part.sol ∈ fp := by assumption) (hports : Part.ports ∈ fp := by assumption) (hnet : Part.net ∈ fp := by assumption) (hprot : Part.prot ∈ fp := by assumption) (hlake : Part.lake ∈ fp := by assumption) (hreader : Part.reader ∈ fp := by assumption) (hpower : Part.power ∈ fp := by assumption) (hboot : Part.boot ∈ fp := by assumption) :
    Frame fp orig (State.tickRun s i d) := by
  unfold State.tickRun
  repeat' first
    | intro _
    | with_reducible assumption
    | with_reducible apply State.tickSettings_frame
    | with_reducible apply State.tickTimed_frame
    | with_reducible apply State.tickRadio_frame
    | with_reducible apply State.tickMeasure_frame
    | with_reducible apply State.deviceTick_frame
    | with_reducible apply State.levelTick_frame
    | with_reducible apply State.coresTick_frame
    | with_reducible apply State.migrateTasks_frame
    | with_reducible apply State.reseedHand_frame
    | with_reducible apply State.timingLaunches_frame
    | with_reducible apply State.slotsLimit_frame
    | with_reducible apply State.rateSlew_frame
    | with_reducible apply State.siltOrder_frame
    | with_reducible apply State.siltCommit_frame
    | with_reducible apply State.set_frame
    | with_reducible apply frame_ite
    | (extract_lets +onlyGivenNames -underBinder x; first | (refine frame_cut (fp := fp) (orig := orig) (x := x) ?_ ?_ <;> first | (intro h0; generalize x = y at h0 ⊢; clear x) | intro h0 | subst x) | (have h0 := Nat.zero_le x; generalize x = y at h0 ⊢; clear h0 x) | subst x)
    | split
    | dsimp only
    | (with_reducible refine frame_mk ?_)

theorem State.tickBurst_frame {fp : List Part} {orig : State} {s : State} (i : TickIn) (hs : Frame fp orig s)  (hdict : Part.dict ∈ fp := by assumption) (hsilt : Part.silt ∈ fp := by assumption) (hfree : Part.free ∈ fp := by assumption) (htime : Part.time ∈ fp := by assumption) (hout : Part.out ∈ fp := by assumption) (hcpu : Part.cpu ∈ fp := by assumption) (hprot : Part.prot ∈ fp := by assumption) (hpower : Part.power ∈ fp := by assumption) (hboot : Part.boot ∈ fp := by assumption) :
    Frame fp orig (State.tickBurst s i) := by
  unfold State.tickBurst
  repeat' first
    | intro _
    | with_reducible assumption
    | with_reducible apply State.tickSettings_frame
    | with_reducible apply State.tickMeasure_frame
    | with_reducible apply State.deviceTick_frame
    | with_reducible apply State.coresTick_frame
    | with_reducible apply State.holdTick_frame
    | with_reducible apply State.rateSlew_frame
    | with_reducible apply State.siltOrder_frame
    | with_reducible apply State.siltCommit_frame
    | with_reducible apply frame_ite
    | (extract_lets +onlyGivenNames -underBinder x; first | (refine frame_cut (fp := fp) (orig := orig) (x := x) ?_ ?_ <;> first | (intro h0; generalize x = y at h0 ⊢; clear x) | intro h0 | subst x) | (have h0 := Nat.zero_le x; generalize x = y at h0 ⊢; clear h0 x) | subst x)
    | split
    | dsimp only
    | (with_reducible refine frame_mk ?_)

theorem State.tick_frame {fp : List Part} {orig : State} {s : State} (i : TickIn) (hs : Frame fp orig s)  (hdict : Part.dict ∈ fp := by assumption) (hstreams : Part.streams ∈ fp := by assumption) (hsilt : Part.silt ∈ fp := by assumption) (hhost : Part.host ∈ fp := by assumption) (hfree : Part.free ∈ fp := by assumption) (htime : Part.time ∈ fp := by assumption) (hout : Part.out ∈ fp := by assumption) (hcpu : Part.cpu ∈ fp := by assumption) (htmr : Part.tmr ∈ fp := by assumption) (hrx : Part.rx ∈ fp := by assumption) (hslots : Part.slots ∈ fp := by assumption) (hnav : Part.nav ∈ fp := by assumption) (herg : Part.erg ∈ fp := by assumption) (hsol : Part.sol ∈ fp := by assumption) (hports : Part.ports ∈ fp := by assumption) (hnet : Part.net ∈ fp := by assumption) (hprot : Part.prot ∈ fp := by assumption) (hlake : Part.lake ∈ fp := by assumption) (hreader : Part.reader ∈ fp := by assumption) (hpower : Part.power ∈ fp := by assumption) (hboot : Part.boot ∈ fp := by assumption) :
    Frame fp orig (State.tick s i) := by
  unfold State.tick
  repeat' first
    | intro _
    | with_reducible assumption
    | with_reducible apply State.tickBurst_frame
    | with_reducible apply State.tickRun_frame
    | with_reducible apply State.wakeEnd_frame
    | with_reducible apply State.tickTime_frame
    | with_reducible apply State.chainsWake_frame
    | with_reducible apply frame_ite
    | (extract_lets +onlyGivenNames -underBinder x; first | (refine frame_cut (fp := fp) (orig := orig) (x := x) ?_ ?_ <;> first | (intro h0; generalize x = y at h0 ⊢; clear x) | intro h0 | subst x) | (have h0 := Nat.zero_le x; generalize x = y at h0 ⊢; clear h0 x) | subst x)
    | split
    | dsimp only
    | (with_reducible refine frame_mk ?_)

/-! ### Boot -/

theorem State.modBoot_frame {fp : List Part} {orig : State} {s : State} (f : BootSt → BootSt) (hs : Frame fp orig s)  (hboot : Part.boot ∈ fp := by assumption) :
    Frame fp orig (State.modBoot s f) := by
  unfold State.modBoot
  repeat' first
    | intro _
    | with_reducible assumption
    | dsimp only
    | (with_reducible refine frame_mk ?_)

theorem State.imageRejected_frame {fp : List Part} {orig : State} {s : State} (reason : Nat) (b : List Nat) (hs : Frame fp orig s)  (hdict : Part.dict ∈ fp := by assumption) (hsilt : Part.silt ∈ fp := by assumption) :
    Frame fp orig (State.imageRejected s reason b) := by
  unfold State.imageRejected
  repeat' first
    | intro _
    | with_reducible assumption
    | with_reducible apply State.set_frame
    | with_reducible apply State.flag_frame
    | with_reducible apply State.log_frame
    | (extract_lets +onlyGivenNames -underBinder x; first | (refine frame_cut (fp := fp) (orig := orig) (x := x) ?_ ?_ <;> first | (intro h0; generalize x = y at h0 ⊢; clear x) | intro h0 | subst x) | (have h0 := Nat.zero_le x; generalize x = y at h0 ⊢; clear h0 x) | subst x)
    | dsimp only
    | (with_reducible refine frame_mk ?_)

theorem State.sectionLoad_frame {fp : List Part} {orig : State} {s : State} (x : Section) (hs : Frame fp orig s)  (hcpu : Part.cpu ∈ fp := by assumption) :
    Frame fp orig (State.sectionLoad s x) := by
  unfold State.sectionLoad
  repeat' first
    | intro _
    | with_reducible assumption
    | with_reducible apply State.modCpu_frame
    | with_reducible apply State.modCore_frame
    | with_reducible apply frame_foldl
    | with_reducible apply frame_foldl_fst
    | with_reducible apply frame_ite
    | split
    | dsimp only
    | (with_reducible refine frame_mk ?_)

theorem State.imageLoad_frame {fp : List Part} {orig : State} {s : State} (b : List Nat) (source : Nat) (hs : Frame fp orig s)  (hdict : Part.dict ∈ fp := by assumption) (hcpu : Part.cpu ∈ fp := by assumption) (hboot : Part.boot ∈ fp := by assumption) :
    Frame fp orig (State.imageLoad s b source) := by
  unfold State.imageLoad
  repeat' first
    | intro _
    | with_reducible assumption
    | with_reducible apply State.sectionLoad_frame
    | with_reducible apply State.modBoot_frame
    | with_reducible apply State.set_frame
    | with_reducible apply frame_foldl
    | with_reducible apply frame_foldl_fst
    | with_reducible apply frame_ite
    | (extract_lets +onlyGivenNames -underBinder x; first | (refine frame_cut (fp := fp) (orig := orig) (x := x) ?_ ?_ <;> first | (intro h0; generalize x = y at h0 ⊢; clear x) | intro h0 | subst x) | (have h0 := Nat.zero_le x; generalize x = y at h0 ⊢; clear h0 x) | subst x)
    | split
    | dsimp only
    | (with_reducible refine frame_mk ?_)

theorem State.bootHello_frame {fp : List Part} {orig : State} {s : State}  (hs : Frame fp orig s)  (hports : Part.ports ∈ fp := by assumption) :
    Frame fp orig (State.bootHello s) := by
  unfold State.bootHello
  repeat' first
    | intro _
    | with_reducible assumption
    | with_reducible apply State.portsHello_frame
    | with_reducible apply frame_ite
    | split
    | dsimp only
    | (with_reducible refine frame_mk ?_)

theorem State.bootBegin_frame {fp : List Part} {orig : State} {s : State} (update : Bool) (hs : Frame fp orig s)  (hdict : Part.dict ∈ fp := by assumption) (hports : Part.ports ∈ fp := by assumption) (hboot : Part.boot ∈ fp := by assumption) :
    Frame fp orig (State.bootBegin s update) := by
  unfold State.bootBegin
  repeat' first
    | intro _
    | with_reducible assumption
    | with_reducible apply State.bootHello_frame
    | with_reducible apply State.modBoot_frame
    | with_reducible apply State.set_frame
    | with_reducible apply frame_ite
    | (extract_lets +onlyGivenNames -underBinder x; first | (refine frame_cut (fp := fp) (orig := orig) (x := x) ?_ ?_ <;> first | (intro h0; generalize x = y at h0 ⊢; clear x) | intro h0 | subst x) | (have h0 := Nat.zero_le x; generalize x = y at h0 ⊢; clear h0 x) | subst x)
    | split
    | dsimp only
    | (with_reducible refine frame_mk ?_)

theorem State.bootNext_frame {fp : List Part} {orig : State} {s : State}  (hs : Frame fp orig s)  (hports : Part.ports ∈ fp := by assumption) (hboot : Part.boot ∈ fp := by assumption) :
    Frame fp orig (State.bootNext s) := by
  unfold State.bootNext
  repeat' first
    | intro _
    | with_reducible assumption
    | with_reducible apply State.bootHello_frame
    | with_reducible apply State.modBoot_frame
    | with_reducible apply frame_ite
    | (extract_lets +onlyGivenNames -underBinder x; first | (refine frame_cut (fp := fp) (orig := orig) (x := x) ?_ ?_ <;> first | (intro h0; generalize x = y at h0 ⊢; clear x) | intro h0 | subst x) | (have h0 := Nat.zero_le x; generalize x = y at h0 ⊢; clear h0 x) | subst x)
    | split
    | dsimp only
    | (with_reducible refine frame_mk ?_)

theorem State.flashVerified_frame {fp : List Part} {orig : State} {s : State} (b : List Nat) (hs : Frame fp orig s)  (hdict : Part.dict ∈ fp := by assumption) (hsilt : Part.silt ∈ fp := by assumption) (hcpu : Part.cpu ∈ fp := by assumption) (hports : Part.ports ∈ fp := by assumption) (hboot : Part.boot ∈ fp := by assumption) :
    Frame fp orig (State.flashVerified s b) := by
  unfold State.flashVerified
  repeat' first
    | intro _
    | with_reducible assumption
    | with_reducible apply State.bootNext_frame
    | with_reducible apply State.imageLoad_frame
    | with_reducible apply State.imageRejected_frame
    | with_reducible apply State.modBoot_frame
    | with_reducible apply State.flag_frame
    | with_reducible apply frame_ite
    | (extract_lets +onlyGivenNames -underBinder x; first | (refine frame_cut (fp := fp) (orig := orig) (x := x) ?_ ?_ <;> first | (intro h0; generalize x = y at h0 ⊢; clear x) | intro h0 | subst x) | (have h0 := Nat.zero_le x; generalize x = y at h0 ⊢; clear h0 x) | subst x)
    | split
    | dsimp only
    | (with_reducible refine frame_mk ?_)

theorem State.stagedVerified_frame {fp : List Part} {orig : State} {s : State} (cmd : Nat) (source : Nat) (hs : Frame fp orig s)  (hdict : Part.dict ∈ fp := by assumption) (hsilt : Part.silt ∈ fp := by assumption) (hcpu : Part.cpu ∈ fp := by assumption) (hboot : Part.boot ∈ fp := by assumption) :
    Frame fp orig (State.stagedVerified s cmd source) := by
  unfold State.stagedVerified
  repeat' first
    | intro _
    | with_reducible assumption
    | with_reducible apply State.imageLoad_frame
    | with_reducible apply State.imageRejected_frame
    | with_reducible apply State.modBoot_frame
    | with_reducible apply State.set_frame
    | with_reducible apply frame_ite
    | (extract_lets +onlyGivenNames -underBinder x; first | (refine frame_cut (fp := fp) (orig := orig) (x := x) ?_ ?_ <;> first | (intro h0; generalize x = y at h0 ⊢; clear x) | intro h0 | subst x) | (have h0 := Nat.zero_le x; generalize x = y at h0 ⊢; clear h0 x) | subst x)
    | split
    | dsimp only
    | (with_reducible refine frame_mk ?_)

theorem State.imageVerified_frame {fp : List Part} {orig : State} {s : State} (flash : List Nat) (hs : Frame fp orig s)  (hdict : Part.dict ∈ fp := by assumption) (hsilt : Part.silt ∈ fp := by assumption) (hcpu : Part.cpu ∈ fp := by assumption) (hports : Part.ports ∈ fp := by assumption) (hboot : Part.boot ∈ fp := by assumption) :
    Frame fp orig (State.imageVerified s flash) := by
  unfold State.imageVerified
  repeat' first
    | intro _
    | with_reducible assumption
    | with_reducible apply State.stagedVerified_frame
    | with_reducible apply State.flashVerified_frame
    | with_reducible apply frame_ite
    | split
    | dsimp only
    | (with_reducible refine frame_mk ?_)

theorem State.flashWritten_frame {fp : List Part} {orig : State} {s : State} (ok : Bool) (hs : Frame fp orig s)  (hdict : Part.dict ∈ fp := by assumption) (hboot : Part.boot ∈ fp := by assumption) :
    Frame fp orig (State.flashWritten s ok) := by
  unfold State.flashWritten
  repeat' first
    | intro _
    | with_reducible assumption
    | with_reducible apply State.modBoot_frame
    | with_reducible apply State.set_frame
    | with_reducible apply frame_ite
    | (extract_lets +onlyGivenNames -underBinder x; first | (refine frame_cut (fp := fp) (orig := orig) (x := x) ?_ ?_ <;> first | (intro h0; generalize x = y at h0 ⊢; clear x) | intro h0 | subst x) | (have h0 := Nat.zero_le x; generalize x = y at h0 ⊢; clear h0 x) | subst x)
    | split
    | dsimp only
    | (with_reducible refine frame_mk ?_)

theorem State.bootWaitOver_frame {fp : List Part} {orig : State} {s : State}  (hs : Frame fp orig s)  (hports : Part.ports ∈ fp := by assumption) (hboot : Part.boot ∈ fp := by assumption) :
    Frame fp orig (State.bootWaitOver s) := by
  unfold State.bootWaitOver
  repeat' first
    | intro _
    | with_reducible assumption
    | with_reducible apply State.bootNext_frame
    | with_reducible apply frame_ite
    | split
    | dsimp only
    | (with_reducible refine frame_mk ?_)

theorem State.siltDiscard_frame {fp : List Part} {orig : State} {s : State}  (hs : Frame fp orig s)  (hsilt : Part.silt ∈ fp := by assumption) :
    Frame fp orig (State.siltDiscard s) := by
  unfold State.siltDiscard
  repeat' first
    | intro _
    | with_reducible assumption
    | (extract_lets +onlyGivenNames -underBinder x; first | (refine frame_cut (fp := fp) (orig := orig) (x := x) ?_ ?_ <;> first | (intro h0; generalize x = y at h0 ⊢; clear x) | intro h0 | subst x) | (have h0 := Nat.zero_le x; generalize x = y at h0 ⊢; clear h0 x) | subst x)
    | split
    | dsimp only
    | (with_reducible refine frame_mk ?_)

theorem State.startRec_frame {fp : List Part} {orig : State} {s : State}  (hs : Frame fp orig s)  (hsilt : Part.silt ∈ fp := by assumption) :
    Frame fp orig (State.startRec s) := by
  unfold State.startRec
  repeat' first
    | intro _
    | with_reducible assumption
    | (extract_lets +onlyGivenNames -underBinder x; first | (refine frame_cut (fp := fp) (orig := orig) (x := x) ?_ ?_ <;> first | (intro h0; generalize x = y at h0 ⊢; clear x) | intro h0 | subst x) | (have h0 := Nat.zero_le x; generalize x = y at h0 ⊢; clear h0 x) | subst x)
    | dsimp only
    | (with_reducible refine frame_mk ?_)

theorem State.selfTests_frame {fp : List Part} {orig : State} {s : State} (was : List Nat × List Nat × List Nat × List Nat) (i : StartIn) (hs : Frame fp orig s)  (hdict : Part.dict ∈ fp := by assumption) (hcpu : Part.cpu ∈ fp := by assumption) (hrx : Part.rx ∈ fp := by assumption) (hslots : Part.slots ∈ fp := by assumption) (hnav : Part.nav ∈ fp := by assumption) :
    Frame fp orig (State.selfTests s was i) := by
  unfold State.selfTests
  repeat' first
    | intro _
    | with_reducible assumption
    | with_reducible apply State.slotFree_frame
    | with_reducible apply State.modChain_frame
    | with_reducible apply State.set_frame
    | with_reducible apply frame_foldl
    | with_reducible apply frame_foldl_fst
    | with_reducible apply frame_ite
    | (extract_lets +onlyGivenNames -underBinder x; first | (refine frame_cut (fp := fp) (orig := orig) (x := x) ?_ ?_ <;> first | (intro h0; generalize x = y at h0 ⊢; clear x) | intro h0 | subst x) | (have h0 := Nat.zero_le x; generalize x = y at h0 ⊢; clear h0 x) | subst x)
    | split
    | dsimp only
    | (with_reducible refine frame_mk ?_)

theorem State.coreTests_frame {fp : List Part} {orig : State} {s : State} (was : List Nat) (failed : List Nat) (hs : Frame fp orig s)  (hdict : Part.dict ∈ fp := by assumption) (hsilt : Part.silt ∈ fp := by assumption) (hcpu : Part.cpu ∈ fp := by assumption) (hnet : Part.net ∈ fp := by assumption) (hboot : Part.boot ∈ fp := by assumption) :
    Frame fp orig (State.coreTests s was failed) := by
  unfold State.coreTests
  repeat' first
    | intro _
    | with_reducible assumption
    | with_reducible apply State.coreRetire_frame
    | with_reducible apply State.modCpu_frame
    | with_reducible apply State.set_frame
    | with_reducible apply frame_foldl
    | with_reducible apply frame_foldl_fst
    | with_reducible apply frame_ite
    | (extract_lets +onlyGivenNames -underBinder x; first | (refine frame_cut (fp := fp) (orig := orig) (x := x) ?_ ?_ <;> first | (intro h0; generalize x = y at h0 ⊢; clear x) | intro h0 | subst x) | (have h0 := Nat.zero_le x; generalize x = y at h0 ⊢; clear h0 x) | subst x)
    | split
    | dsimp only
    | (with_reducible refine frame_mk ?_)

theorem State.resetCommon_frame {fp : List Part} {orig : State} {s : State} (keeps : Nat → Bool) (kind : StartKind) (cause : Nat) (hs : Frame fp orig s)  (hdict : Part.dict ∈ fp := by assumption) (hstreams : Part.streams ∈ fp := by assumption) (hsilt : Part.silt ∈ fp := by assumption) (hmspi : Part.mspi ∈ fp := by assumption) (hhost : Part.host ∈ fp := by assumption) (hprot : Part.prot ∈ fp := by assumption) (hboot : Part.boot ∈ fp := by assumption) :
    Frame fp orig (State.resetCommon s keeps kind cause) := by
  unfold State.resetCommon
  repeat' first
    | intro _
    | with_reducible assumption
    | with_reducible apply State.siltDiscard_frame
    | with_reducible apply State.modBoot_frame
    | with_reducible apply State.changesDiscard_frame
    | with_reducible apply State.modProt_frame
    | with_reducible apply State.set_frame
    | (extract_lets +onlyGivenNames -underBinder x; first | (refine frame_cut (fp := fp) (orig := orig) (x := x) ?_ ?_ <;> first | (intro h0; generalize x = y at h0 ⊢; clear x) | intro h0 | subst x) | (have h0 := Nat.zero_le x; generalize x = y at h0 ⊢; clear h0 x) | subst x)
    | dsimp only
    | (with_reducible refine frame_mk ?_)

theorem State.warmReset_frame {fp : List Part} {orig : State} {s : State} (cause : Nat) (update : Bool) (i : StartIn) (hs : Frame fp orig s)  (hdict : Part.dict ∈ fp := by assumption) (hstreams : Part.streams ∈ fp := by assumption) (hsilt : Part.silt ∈ fp := by assumption) (hmspi : Part.mspi ∈ fp := by assumption) (hhost : Part.host ∈ fp := by assumption) (htime : Part.time ∈ fp := by assumption) (hout : Part.out ∈ fp := by assumption) (hcpu : Part.cpu ∈ fp := by assumption) (htmr : Part.tmr ∈ fp := by assumption) (hrx : Part.rx ∈ fp := by assumption) (hslots : Part.slots ∈ fp := by assumption) (hnav : Part.nav ∈ fp := by assumption) (herg : Part.erg ∈ fp := by assumption) (hsol : Part.sol ∈ fp := by assumption) (hports : Part.ports ∈ fp := by assumption) (hnet : Part.net ∈ fp := by assumption) (hprot : Part.prot ∈ fp := by assumption) (hlake : Part.lake ∈ fp := by assumption) (hreader : Part.reader ∈ fp := by assumption) (hpower : Part.power ∈ fp := by assumption) (hboot : Part.boot ∈ fp := by assumption) :
    Frame fp orig (State.warmReset s cause update i) := by
  unfold State.warmReset
  repeat' first
    | intro _
    | with_reducible assumption
    | with_reducible apply State.resetCommon_frame
    | with_reducible apply State.coreTests_frame
    | with_reducible apply State.selfTests_frame
    | with_reducible apply State.startRec_frame
    | with_reducible apply State.bootBegin_frame
    | with_reducible apply State.wakeStart_frame
    | with_reducible apply State.modPower_frame
    | with_reducible apply State.lakeReset_frame
    | with_reducible apply State.solReset_frame
    | with_reducible apply State.ergReset_frame
    | with_reducible apply State.netReset_frame
    | with_reducible apply State.ptpReset_frame
    | with_reducible apply State.portsReset_frame
    | with_reducible apply State.readerWarm_frame
    | with_reducible apply State.fieldOff_frame
    | with_reducible apply State.todCut_frame
    | with_reducible apply State.navReset_frame
    | with_reducible apply State.storeFlush_frame
    | with_reducible apply State.leapReset_frame
    | with_reducible apply State.slotsHold_frame
    | with_reducible apply State.notchesRestart_frame
    | with_reducible apply State.notchesLeave_frame
    | with_reducible apply State.timersSettle_frame
    | with_reducible apply frame_ite
    | (extract_lets +onlyGivenNames -underBinder x; first | (refine frame_cut (fp := fp) (orig := orig) (x := x) ?_ ?_ <;> first | (intro h0; generalize x = y at h0 ⊢; clear x) | intro h0 | subst x) | (have h0 := Nat.zero_le x; generalize x = y at h0 ⊢; clear h0 x) | subst x)
    | split
    | dsimp only
    | (with_reducible refine frame_mk ?_)

theorem State.warmDue_frame {fp : List Part} {orig : State} {s : State} (i : StartIn) (hs : Frame fp orig s)  (hdict : Part.dict ∈ fp := by assumption) (hstreams : Part.streams ∈ fp := by assumption) (hsilt : Part.silt ∈ fp := by assumption) (hmspi : Part.mspi ∈ fp := by assumption) (hhost : Part.host ∈ fp := by assumption) (htime : Part.time ∈ fp := by assumption) (hout : Part.out ∈ fp := by assumption) (hcpu : Part.cpu ∈ fp := by assumption) (htmr : Part.tmr ∈ fp := by assumption) (hrx : Part.rx ∈ fp := by assumption) (hslots : Part.slots ∈ fp := by assumption) (hnav : Part.nav ∈ fp := by assumption) (herg : Part.erg ∈ fp := by assumption) (hsol : Part.sol ∈ fp := by assumption) (hports : Part.ports ∈ fp := by assumption) (hnet : Part.net ∈ fp := by assumption) (hprot : Part.prot ∈ fp := by assumption) (hlake : Part.lake ∈ fp := by assumption) (hreader : Part.reader ∈ fp := by assumption) (hpower : Part.power ∈ fp := by assumption) (hboot : Part.boot ∈ fp := by assumption) :
    Frame fp orig (State.warmDue s i) := by
  unfold State.warmDue
  repeat' first
    | intro _
    | with_reducible assumption
    | with_reducible apply State.warmReset_frame
    | with_reducible apply frame_ite
    | split
    | dsimp only
    | (with_reducible refine frame_mk ?_)

theorem State.coldReset_frame {fp : List Part} {orig : State} {s : State} (kind : StartKind) (cause : Nat) (i : StartIn) (hs : Frame fp orig s)  (hdict : Part.dict ∈ fp := by assumption) (hstreams : Part.streams ∈ fp := by assumption) (hsilt : Part.silt ∈ fp := by assumption) (hmspi : Part.mspi ∈ fp := by assumption) (hhost : Part.host ∈ fp := by assumption) (htime : Part.time ∈ fp := by assumption) (hout : Part.out ∈ fp := by assumption) (hcpu : Part.cpu ∈ fp := by assumption) (htmr : Part.tmr ∈ fp := by assumption) (hrx : Part.rx ∈ fp := by assumption) (hslots : Part.slots ∈ fp := by assumption) (hnav : Part.nav ∈ fp := by assumption) (herg : Part.erg ∈ fp := by assumption) (hsol : Part.sol ∈ fp := by assumption) (hports : Part.ports ∈ fp := by assumption) (hnet : Part.net ∈ fp := by assumption) (hprot : Part.prot ∈ fp := by assumption) (hlake : Part.lake ∈ fp := by assumption) (hreader : Part.reader ∈ fp := by assumption) (hpower : Part.power ∈ fp := by assumption) (hboot : Part.boot ∈ fp := by assumption) :
    Frame fp orig (State.coldReset s kind cause i) := by
  unfold State.coldReset
  repeat' first
    | intro _
    | with_reducible assumption
    | with_reducible apply State.resetCommon_frame
    | with_reducible apply State.coreTests_frame
    | with_reducible apply State.selfTests_frame
    | with_reducible apply State.startRec_frame
    | with_reducible apply State.bootBegin_frame
    | with_reducible apply State.modBoot_frame
    | with_reducible apply State.modPower_frame
    | with_reducible apply State.modProt_frame
    | with_reducible apply State.lakeReset_frame
    | with_reducible apply State.netReset_frame
    | with_reducible apply State.fieldOff_frame
    | with_reducible apply State.leapReset_frame
    | with_reducible apply State.set_frame
    | with_reducible apply frame_ite
    | (extract_lets +onlyGivenNames -underBinder x; first | (refine frame_cut (fp := fp) (orig := orig) (x := x) ?_ ?_ <;> first | (intro h0; generalize x = y at h0 ⊢; clear x) | intro h0 | subst x) | (have h0 := Nat.zero_le x; generalize x = y at h0 ⊢; clear h0 x) | subst x)
    | split
    | dsimp only
    | (with_reducible refine frame_mk ?_)

theorem State.coldDue_frame {fp : List Part} {orig : State} {s : State} (i : StartIn) (hs : Frame fp orig s)  (hdict : Part.dict ∈ fp := by assumption) (hstreams : Part.streams ∈ fp := by assumption) (hsilt : Part.silt ∈ fp := by assumption) (hmspi : Part.mspi ∈ fp := by assumption) (hhost : Part.host ∈ fp := by assumption) (htime : Part.time ∈ fp := by assumption) (hout : Part.out ∈ fp := by assumption) (hcpu : Part.cpu ∈ fp := by assumption) (htmr : Part.tmr ∈ fp := by assumption) (hrx : Part.rx ∈ fp := by assumption) (hslots : Part.slots ∈ fp := by assumption) (hnav : Part.nav ∈ fp := by assumption) (herg : Part.erg ∈ fp := by assumption) (hsol : Part.sol ∈ fp := by assumption) (hports : Part.ports ∈ fp := by assumption) (hnet : Part.net ∈ fp := by assumption) (hprot : Part.prot ∈ fp := by assumption) (hlake : Part.lake ∈ fp := by assumption) (hreader : Part.reader ∈ fp := by assumption) (hpower : Part.power ∈ fp := by assumption) (hboot : Part.boot ∈ fp := by assumption) :
    Frame fp orig (State.coldDue s i) := by
  unfold State.coldDue
  repeat' first
    | intro _
    | with_reducible assumption
    | with_reducible apply State.coldReset_frame
    | with_reducible apply frame_ite
    | (extract_lets +onlyGivenNames -underBinder x; first | (refine frame_cut (fp := fp) (orig := orig) (x := x) ?_ ?_ <;> first | (intro h0; generalize x = y at h0 ⊢; clear x) | intro h0 | subst x) | (have h0 := Nat.zero_le x; generalize x = y at h0 ⊢; clear h0 x) | subst x)
    | split
    | dsimp only
    | (with_reducible refine frame_mk ?_)

theorem State.powerUp_frame {fp : List Part} {orig : State} {s : State} (cause : Nat) (wake : Nat) (i : StartIn) (hs : Frame fp orig s)  (hdict : Part.dict ∈ fp := by assumption) (hstreams : Part.streams ∈ fp := by assumption) (hsilt : Part.silt ∈ fp := by assumption) (hmspi : Part.mspi ∈ fp := by assumption) (hhost : Part.host ∈ fp := by assumption) (htime : Part.time ∈ fp := by assumption) (hout : Part.out ∈ fp := by assumption) (hcpu : Part.cpu ∈ fp := by assumption) (htmr : Part.tmr ∈ fp := by assumption) (hrx : Part.rx ∈ fp := by assumption) (hslots : Part.slots ∈ fp := by assumption) (hnav : Part.nav ∈ fp := by assumption) (herg : Part.erg ∈ fp := by assumption) (hsol : Part.sol ∈ fp := by assumption) (hports : Part.ports ∈ fp := by assumption) (hnet : Part.net ∈ fp := by assumption) (hprot : Part.prot ∈ fp := by assumption) (hlake : Part.lake ∈ fp := by assumption) (hreader : Part.reader ∈ fp := by assumption) (hpower : Part.power ∈ fp := by assumption) (hboot : Part.boot ∈ fp := by assumption) (hjtag : Part.jtag ∈ fp := by assumption) :
    Frame fp orig (State.powerUp s cause wake i) := by
  unfold State.powerUp
  repeat' first
    | intro _
    | with_reducible assumption
    | with_reducible apply State.coldReset_frame
    | with_reducible apply State.set_frame
    | with_reducible apply frame_ite
    | (extract_lets +onlyGivenNames -underBinder x; first | (refine frame_cut (fp := fp) (orig := orig) (x := x) ?_ ?_ <;> first | (intro h0; generalize x = y at h0 ⊢; clear x) | intro h0 | subst x) | (have h0 := Nat.zero_le x; generalize x = y at h0 ⊢; clear h0 x) | subst x)
    | split
    | dsimp only
    | (with_reducible refine frame_mk ?_)

theorem State.powerStart_frame {fp : List Part} {orig : State} {s : State} (wake : Nat) (i : StartIn) (hs : Frame fp orig s)  (hdict : Part.dict ∈ fp := by assumption) (hstreams : Part.streams ∈ fp := by assumption) (hsilt : Part.silt ∈ fp := by assumption) (hmspi : Part.mspi ∈ fp := by assumption) (hhost : Part.host ∈ fp := by assumption) (htime : Part.time ∈ fp := by assumption) (hout : Part.out ∈ fp := by assumption) (hcpu : Part.cpu ∈ fp := by assumption) (htmr : Part.tmr ∈ fp := by assumption) (hrx : Part.rx ∈ fp := by assumption) (hslots : Part.slots ∈ fp := by assumption) (hnav : Part.nav ∈ fp := by assumption) (herg : Part.erg ∈ fp := by assumption) (hsol : Part.sol ∈ fp := by assumption) (hports : Part.ports ∈ fp := by assumption) (hnet : Part.net ∈ fp := by assumption) (hprot : Part.prot ∈ fp := by assumption) (hlake : Part.lake ∈ fp := by assumption) (hreader : Part.reader ∈ fp := by assumption) (hpower : Part.power ∈ fp := by assumption) (hboot : Part.boot ∈ fp := by assumption) (hjtag : Part.jtag ∈ fp := by assumption) :
    Frame fp orig (State.powerStart s wake i) := by
  unfold State.powerStart
  repeat' first
    | intro _
    | with_reducible assumption
    | with_reducible apply State.powerUp_frame
    | with_reducible apply State.modPower_frame
    | with_reducible apply frame_ite
    | (extract_lets +onlyGivenNames -underBinder x; first | (refine frame_cut (fp := fp) (orig := orig) (x := x) ?_ ?_ <;> first | (intro h0; generalize x = y at h0 ⊢; clear x) | intro h0 | subst x) | (have h0 := Nat.zero_le x; generalize x = y at h0 ⊢; clear h0 x) | subst x)
    | split
    | dsimp only
    | (with_reducible refine frame_mk ?_)

theorem State.wakeRetry_frame {fp : List Part} {orig : State} {s : State} (i : StartIn) (hs : Frame fp orig s)  (hdict : Part.dict ∈ fp := by assumption) (hstreams : Part.streams ∈ fp := by assumption) (hsilt : Part.silt ∈ fp := by assumption) (hmspi : Part.mspi ∈ fp := by assumption) (hhost : Part.host ∈ fp := by assumption) (htime : Part.time ∈ fp := by assumption) (hout : Part.out ∈ fp := by assumption) (hcpu : Part.cpu ∈ fp := by assumption) (htmr : Part.tmr ∈ fp := by assumption) (hrx : Part.rx ∈ fp := by assumption) (hslots : Part.slots ∈ fp := by assumption) (hnav : Part.nav ∈ fp := by assumption) (herg : Part.erg ∈ fp := by assumption) (hsol : Part.sol ∈ fp := by assumption) (hports : Part.ports ∈ fp := by assumption) (hnet : Part.net ∈ fp := by assumption) (hprot : Part.prot ∈ fp := by assumption) (hlake : Part.lake ∈ fp := by assumption) (hreader : Part.reader ∈ fp := by assumption) (hpower : Part.power ∈ fp := by assumption) (hboot : Part.boot ∈ fp := by assumption) (hjtag : Part.jtag ∈ fp := by assumption) :
    Frame fp orig (State.wakeRetry s i) := by
  unfold State.wakeRetry
  repeat' first
    | intro _
    | with_reducible assumption
    | with_reducible apply State.powerUp_frame
    | with_reducible apply frame_ite
    | split
    | dsimp only
    | (with_reducible refine frame_mk ?_)

theorem State.resetDue_frame {fp : List Part} {orig : State} {s : State} (kind : StartKind) (cause : Nat) (hs : Frame fp orig s)  (hboot : Part.boot ∈ fp := by assumption) :
    Frame fp orig (State.resetDue s kind cause) := by
  unfold State.resetDue
  repeat' first
    | intro _
    | with_reducible assumption
    | with_reducible apply State.modBoot_frame
    | with_reducible apply frame_ite
    | (extract_lets +onlyGivenNames -underBinder x; first | (refine frame_cut (fp := fp) (orig := orig) (x := x) ?_ ?_ <;> first | (intro h0; generalize x = y at h0 ⊢; clear x) | intro h0 | subst x) | (have h0 := Nat.zero_le x; generalize x = y at h0 ⊢; clear h0 x) | subst x)
    | split
    | dsimp only
    | (with_reducible refine frame_mk ?_)

theorem State.rstN_frame {fp : List Part} {orig : State} {s : State} (ns : Nat) (i : StartIn) (hs : Frame fp orig s)  (hdict : Part.dict ∈ fp := by assumption) (hstreams : Part.streams ∈ fp := by assumption) (hsilt : Part.silt ∈ fp := by assumption) (hmspi : Part.mspi ∈ fp := by assumption) (hhost : Part.host ∈ fp := by assumption) (htime : Part.time ∈ fp := by assumption) (hout : Part.out ∈ fp := by assumption) (hcpu : Part.cpu ∈ fp := by assumption) (htmr : Part.tmr ∈ fp := by assumption) (hrx : Part.rx ∈ fp := by assumption) (hslots : Part.slots ∈ fp := by assumption) (hnav : Part.nav ∈ fp := by assumption) (herg : Part.erg ∈ fp := by assumption) (hsol : Part.sol ∈ fp := by assumption) (hports : Part.ports ∈ fp := by assumption) (hnet : Part.net ∈ fp := by assumption) (hprot : Part.prot ∈ fp := by assumption) (hlake : Part.lake ∈ fp := by assumption) (hreader : Part.reader ∈ fp := by assumption) (hpower : Part.power ∈ fp := by assumption) (hboot : Part.boot ∈ fp := by assumption) (hjtag : Part.jtag ∈ fp := by assumption) :
    Frame fp orig (State.rstN s ns i) := by
  unfold State.rstN
  repeat' first
    | intro _
    | with_reducible assumption
    | with_reducible apply State.resetDue_frame
    | with_reducible apply State.powerUp_frame
    | with_reducible apply State.wakeStart_frame
    | with_reducible apply State.modPower_frame
    | with_reducible apply State.set_frame
    | with_reducible apply frame_ite
    | (extract_lets +onlyGivenNames -underBinder x; first | (refine frame_cut (fp := fp) (orig := orig) (x := x) ?_ ?_ <;> first | (intro h0; generalize x = y at h0 ⊢; clear x) | intro h0 | subst x) | (have h0 := Nat.zero_le x; generalize x = y at h0 ⊢; clear h0 x) | subst x)
    | split
    | dsimp only
    | (with_reducible refine frame_mk ?_)

theorem State.watchdog_frame {fp : List Part} {orig : State} {s : State}  (hs : Frame fp orig s)  (hdict : Part.dict ∈ fp := by assumption) (hboot : Part.boot ∈ fp := by assumption) :
    Frame fp orig (State.watchdog s) := by
  unfold State.watchdog
  repeat' first
    | intro _
    | with_reducible assumption
    | with_reducible apply State.resetDue_frame
    | with_reducible apply State.modBoot_frame
    | with_reducible apply State.flag_frame
    | with_reducible apply frame_ite
    | (extract_lets +onlyGivenNames -underBinder x; first | (refine frame_cut (fp := fp) (orig := orig) (x := x) ?_ ?_ <;> first | (intro h0; generalize x = y at h0 ⊢; clear x) | intro h0 | subst x) | (have h0 := Nat.zero_le x; generalize x = y at h0 ⊢; clear h0 x) | subst x)
    | split
    | dsimp only
    | (with_reducible refine frame_mk ?_)

theorem State.pllLock_frame {fp : List Part} {orig : State} {s : State}  (hs : Frame fp orig s)  (htime : Part.time ∈ fp := by assumption) (hpower : Part.power ∈ fp := by assumption) :
    Frame fp orig (State.pllLock s) := by
  unfold State.pllLock
  repeat' first
    | intro _
    | with_reducible assumption
    | with_reducible apply State.modPower_frame
    | with_reducible apply frame_ite
    | (extract_lets +onlyGivenNames -underBinder x; first | (refine frame_cut (fp := fp) (orig := orig) (x := x) ?_ ?_ <;> first | (intro h0; generalize x = y at h0 ⊢; clear x) | intro h0 | subst x) | (have h0 := Nat.zero_le x; generalize x = y at h0 ⊢; clear h0 x) | subst x)
    | split
    | dsimp only
    | (with_reducible refine frame_mk ?_)

theorem State.objectsLoaded_frame {fp : List Part} {orig : State} {s : State}  (hs : Frame fp orig s)  (hdict : Part.dict ∈ fp := by assumption) (hstreams : Part.streams ∈ fp := by assumption) (hout : Part.out ∈ fp := by assumption) (hports : Part.ports ∈ fp := by assumption) (hnet : Part.net ∈ fp := by assumption) :
    Frame fp orig (State.objectsLoaded s) := by
  unfold State.objectsLoaded
  repeat' first
    | intro _
    | with_reducible assumption
    | with_reducible apply State.portTry_frame
    | with_reducible apply State.outputsLoad_frame
    | with_reducible apply frame_foldl
    | with_reducible apply frame_foldl_fst
    | with_reducible apply frame_ite
    | split
    | dsimp only
    | (with_reducible refine frame_mk ?_)

theorem State.firmwareStart_frame {fp : List Part} {orig : State} {s : State}  (hs : Frame fp orig s)  (hdict : Part.dict ∈ fp := by assumption) (hsilt : Part.silt ∈ fp := by assumption) (htime : Part.time ∈ fp := by assumption) (hout : Part.out ∈ fp := by assumption) (hcpu : Part.cpu ∈ fp := by assumption) (hrx : Part.rx ∈ fp := by assumption) (hslots : Part.slots ∈ fp := by assumption) (hnav : Part.nav ∈ fp := by assumption) (hsol : Part.sol ∈ fp := by assumption) (hports : Part.ports ∈ fp := by assumption) (hnet : Part.net ∈ fp := by assumption) (hreader : Part.reader ∈ fp := by assumption) (hpower : Part.power ∈ fp := by assumption) (hboot : Part.boot ∈ fp := by assumption) :
    Frame fp orig (State.firmwareStart s) := by
  unfold State.firmwareStart
  repeat' first
    | intro _
    | with_reducible assumption
    | with_reducible apply State.modBoot_frame
    | with_reducible apply State.levelTick_frame
    | with_reducible apply State.reseedFinish_frame
    | with_reducible apply State.startLog_frame
    | with_reducible apply State.modPower_frame
    | with_reducible apply State.qualifyBegin_frame
    | with_reducible apply State.messagesRestart_frame
    | with_reducible apply State.portsHello_frame
    | with_reducible apply State.modReader_frame
    | with_reducible apply State.slotsResume_frame
    | with_reducible apply State.chainPower_frame
    | with_reducible apply State.set_frame
    | with_reducible apply State.log_frame
    | with_reducible apply State.modCore_frame
    | with_reducible apply frame_foldl
    | with_reducible apply frame_foldl_fst
    | with_reducible apply frame_ite
    | (extract_lets +onlyGivenNames -underBinder x; first | (refine frame_cut (fp := fp) (orig := orig) (x := x) ?_ ?_ <;> first | (intro h0; generalize x = y at h0 ⊢; clear x) | intro h0 | subst x) | (have h0 := Nat.zero_le x; generalize x = y at h0 ⊢; clear h0 x) | subst x)
    | split
    | dsimp only
    | (with_reducible refine frame_mk ?_)

theorem State.lanesDown_frame {fp : List Part} {orig : State} {s : State}  (hs : Frame fp orig s)  (hdict : Part.dict ∈ fp := by assumption) (hstreams : Part.streams ∈ fp := by assumption) (hports : Part.ports ∈ fp := by assumption) (hnet : Part.net ∈ fp := by assumption) :
    Frame fp orig (State.lanesDown s) := by
  unfold State.lanesDown
  repeat' first
    | intro _
    | with_reducible assumption
    | with_reducible apply State.portLeave_frame
    | with_reducible apply State.modPort_frame
    | with_reducible apply State.flag_frame
    | with_reducible apply frame_foldl
    | with_reducible apply frame_foldl_fst
    | with_reducible apply frame_ite
    | (extract_lets +onlyGivenNames -underBinder x; first | (refine frame_cut (fp := fp) (orig := orig) (x := x) ?_ ?_ <;> first | (intro h0; generalize x = y at h0 ⊢; clear x) | intro h0 | subst x) | (have h0 := Nat.zero_le x; generalize x = y at h0 ⊢; clear h0 x) | subst x)
    | split
    | dsimp only
    | (with_reducible refine frame_mk ?_)

theorem State.radioDown_frame {fp : List Part} {orig : State} {s : State}  (hs : Frame fp orig s)  (hdict : Part.dict ∈ fp := by assumption) (hrx : Part.rx ∈ fp := by assumption) :
    Frame fp orig (State.radioDown s) := by
  unfold State.radioDown
  repeat' first
    | intro _
    | with_reducible assumption
    | with_reducible apply State.calUnqueue_frame
    | with_reducible apply State.modChain_frame
    | with_reducible apply State.modAnt_frame
    | with_reducible apply State.raise_frame
    | with_reducible apply State.set_frame
    | with_reducible apply frame_foldl
    | with_reducible apply frame_foldl_fst
    | with_reducible apply frame_ite
    | (extract_lets +onlyGivenNames -underBinder x; first | (refine frame_cut (fp := fp) (orig := orig) (x := x) ?_ ?_ <;> first | (intro h0; generalize x = y at h0 ⊢; clear x) | intro h0 | subst x) | (have h0 := Nat.zero_le x; generalize x = y at h0 ⊢; clear h0 x) | subst x)
    | split
    | dsimp only
    | (with_reducible refine frame_mk ?_)

theorem State.supplyLost_frame {fp : List Part} {orig : State} {s : State} (b : Nat) (hs : Frame fp orig s)  (hdict : Part.dict ∈ fp := by assumption) (hstreams : Part.streams ∈ fp := by assumption) (hsilt : Part.silt ∈ fp := by assumption) (hrx : Part.rx ∈ fp := by assumption) (hports : Part.ports ∈ fp := by assumption) (hnet : Part.net ∈ fp := by assumption) (hreader : Part.reader ∈ fp := by assumption) :
    Frame fp orig (State.supplyLost s b) := by
  unfold State.supplyLost
  repeat' first
    | intro _
    | with_reducible assumption
    | with_reducible apply State.radioDown_frame
    | with_reducible apply State.lanesDown_frame
    | with_reducible apply State.readerSupply_frame
    | with_reducible apply State.set_frame
    | with_reducible apply frame_ite
    | split
    | dsimp only
    | (with_reducible refine frame_mk ?_)

theorem State.supplyDrop_frame {fp : List Part} {orig : State} {s : State} (mask : Nat) (hs : Frame fp orig s)  (hdict : Part.dict ∈ fp := by assumption) (hstreams : Part.streams ∈ fp := by assumption) (hsilt : Part.silt ∈ fp := by assumption) (htime : Part.time ∈ fp := by assumption) (hout : Part.out ∈ fp := by assumption) (hrx : Part.rx ∈ fp := by assumption) (hports : Part.ports ∈ fp := by assumption) (hnet : Part.net ∈ fp := by assumption) (hreader : Part.reader ∈ fp := by assumption) (hpower : Part.power ∈ fp := by assumption) (hboot : Part.boot ∈ fp := by assumption) :
    Frame fp orig (State.supplyDrop s mask) := by
  unfold State.supplyDrop
  repeat' first
    | intro _
    | with_reducible assumption
    | with_reducible apply State.supplyLost_frame
    | with_reducible apply State.resetDue_frame
    | with_reducible apply State.modBoot_frame
    | with_reducible apply State.modPower_frame
    | with_reducible apply State.raise_frame
    | with_reducible apply State.bumpBy_frame
    | with_reducible apply State.set_frame
    | with_reducible apply frame_foldl
    | with_reducible apply frame_foldl_fst
    | with_reducible apply frame_ite
    | (extract_lets +onlyGivenNames -underBinder x; first | (refine frame_cut (fp := fp) (orig := orig) (x := x) ?_ ?_ <;> first | (intro h0; generalize x = y at h0 ⊢; clear x) | intro h0 | subst x) | (have h0 := Nat.zero_le x; generalize x = y at h0 ⊢; clear h0 x) | subst x)
    | split
    | dsimp only
    | (with_reducible refine frame_mk ?_)

theorem State.supplyReturn_frame {fp : List Part} {orig : State} {s : State} (mask : Nat) (banks : Nat) (hs : Frame fp orig s)  (hdict : Part.dict ∈ fp := by assumption) (hstreams : Part.streams ∈ fp := by assumption) (hrx : Part.rx ∈ fp := by assumption) (hports : Part.ports ∈ fp := by assumption) (hnet : Part.net ∈ fp := by assumption) :
    Frame fp orig (State.supplyReturn s mask banks) := by
  unfold State.supplyReturn
  repeat' first
    | intro _
    | with_reducible assumption
    | with_reducible apply State.portTry_frame
    | with_reducible apply State.modAnt_frame
    | with_reducible apply State.set_frame
    | with_reducible apply frame_foldl
    | with_reducible apply frame_foldl_fst
    | with_reducible apply frame_ite
    | (extract_lets +onlyGivenNames -underBinder x; first | (refine frame_cut (fp := fp) (orig := orig) (x := x) ?_ ?_ <;> first | (intro h0; generalize x = y at h0 ⊢; clear x) | intro h0 | subst x) | (have h0 := Nat.zero_le x; generalize x = y at h0 ⊢; clear h0 x) | subst x)
    | split
    | dsimp only
    | (with_reducible refine frame_mk ?_)

/-! ### VuvanCmds -/

theorem State.storeWord_frame {fp : List Part} {orig : State} {s : State} (core at_ : Nat) (a w : Word) (hs : Frame fp orig s) (hdict : Part.dict ∈ fp := by assumption) (htime : Part.time ∈ fp := by assumption) (hcpu : Part.cpu ∈ fp := by assumption) (htmr : Part.tmr ∈ fp := by assumption) (hports : Part.ports ∈ fp := by assumption) (hnet : Part.net ∈ fp := by assumption) :
    Frame fp orig (State.storeWord s core at_ a w) := by
  unfold State.storeWord
  split
  · dsimp only
    split
    · exact (State.writeWord_frame _ _ _ (State.reach_frame _ hs)).ok _ (by with_reducible assumption)
    · exact State.takeTrap_frame _ _ _ _ (State.reach_frame _ hs)
  · exact hs

end Sys2Proof.Machine
end

