-- ==== Sys2Proof/Laws/ExecFrame.lean ====
section
/-!
SUPPORT. What each command leaves alone.
-/

set_option linter.all false
set_option Elab.async false

namespace Sys2Proof.Machine

variable {fp : List Part} {orig s : State}

theorem execCountingBegins_frame (n : Nat) (at_ : Nat) (hs : Frame fp orig s) (hdict : Part.dict ∈ fp := by exact of_decide_eq_true rfl) (htime : Part.time ∈ fp := by exact of_decide_eq_true rfl) (hcpu : Part.cpu ∈ fp := by exact of_decide_eq_true rfl) (htmr : Part.tmr ∈ fp := by exact of_decide_eq_true rfl) :
    ∃ t, execCountingBegins n at_ s = .next t ∧ Frame fp orig t := by
  refine ⟨_, rfl, ?_⟩
  repeat' first
    | intro _
    | with_reducible assumption
    | with_reducible apply State.timerStart_frame
    | with_reducible apply State.timersSettle_frame
    | with_reducible apply onlyIf_frame
    | dsimp only
    | (with_reducible refine frame_mk ?_)

theorem execUnderflow_frame (n : Nat) (at_ : Nat) (hs : Frame fp orig s) (hdict : Part.dict ∈ fp := by exact of_decide_eq_true rfl) (htime : Part.time ∈ fp := by exact of_decide_eq_true rfl) (hcpu : Part.cpu ∈ fp := by exact of_decide_eq_true rfl) (htmr : Part.tmr ∈ fp := by exact of_decide_eq_true rfl) :
    ∃ t, execUnderflow n at_ s = .next t ∧ Frame fp orig t := by
  refine ⟨_, rfl, ?_⟩
  repeat' first
    | intro _
    | with_reducible assumption
    | with_reducible apply State.timerEventAt_frame
    | with_reducible apply onlyIf_frame
    | dsimp only
    | (with_reducible refine frame_mk ?_)

theorem execCompareMatch_frame (n : Nat) (w : Nat) (at_ : Nat) (hs : Frame fp orig s) (hdict : Part.dict ∈ fp := by exact of_decide_eq_true rfl) (htime : Part.time ∈ fp := by exact of_decide_eq_true rfl) (hcpu : Part.cpu ∈ fp := by exact of_decide_eq_true rfl) (htmr : Part.tmr ∈ fp := by exact of_decide_eq_true rfl) :
    ∃ t, execCompareMatch n w at_ s = .next t ∧ Frame fp orig t := by
  refine ⟨_, rfl, ?_⟩
  repeat' first
    | intro _
    | with_reducible assumption
    | with_reducible apply State.timerEventAt_frame
    | with_reducible apply onlyIf_frame
    | dsimp only
    | (with_reducible refine frame_mk ?_)

theorem execCtoPulseEnd_frame (o : Nat) (at_ : Nat) (hs : Frame fp orig s) (hdict : Part.dict ∈ fp := by exact of_decide_eq_true rfl) (htime : Part.time ∈ fp := by exact of_decide_eq_true rfl) (hcpu : Part.cpu ∈ fp := by exact of_decide_eq_true rfl) (htmr : Part.tmr ∈ fp := by exact of_decide_eq_true rfl) :
    ∃ t, execCtoPulseEnd o at_ s = .next t ∧ Frame fp orig t := by
  refine ⟨_, rfl, ?_⟩
  repeat' first
    | intro _
    | with_reducible assumption
    | with_reducible apply State.timersSettle_frame
    | with_reducible apply State.pulseEnd_frame
    | with_reducible apply State.reach_frame
    | with_reducible apply onlyIf_frame
    | dsimp only
    | (with_reducible refine frame_mk ?_)

theorem execCapture_frame (i : Nat) (rising : Bool) (at_ : Nat) (hs : Frame fp orig s) (hdict : Part.dict ∈ fp := by exact of_decide_eq_true rfl) (htime : Part.time ∈ fp := by exact of_decide_eq_true rfl) (hcpu : Part.cpu ∈ fp := by exact of_decide_eq_true rfl) (htmr : Part.tmr ∈ fp := by exact of_decide_eq_true rfl) :
    ∃ t, execCapture i rising at_ s = .next t ∧ Frame fp orig t := by
  refine ⟨_, rfl, ?_⟩
  repeat' first
    | intro _
    | with_reducible assumption
    | with_reducible apply State.capture_frame
    | with_reducible apply State.reach_frame
    | with_reducible apply onlyIf_frame
    | with_reducible apply frame_ite
    | split
    | dsimp only
    | (with_reducible refine frame_mk ?_)

theorem execTimerPinEdge_frame (i : Nat) (rising : Bool) (at_ : Nat) (hs : Frame fp orig s) (hdict : Part.dict ∈ fp := by exact of_decide_eq_true rfl) (htime : Part.time ∈ fp := by exact of_decide_eq_true rfl) (hcpu : Part.cpu ∈ fp := by exact of_decide_eq_true rfl) (htmr : Part.tmr ∈ fp := by exact of_decide_eq_true rfl) :
    ∃ t, execTimerPinEdge i rising at_ s = .next t ∧ Frame fp orig t := by
  refine ⟨_, rfl, ?_⟩
  repeat' first
    | intro _
    | with_reducible assumption
    | with_reducible apply State.timersPin_frame
    | with_reducible apply State.timersSettle_frame
    | with_reducible apply State.reach_frame
    | with_reducible apply onlyIf_frame
    | with_reducible apply frame_ite
    | (extract_lets +onlyGivenNames -underBinder x; first | (refine frame_cut (fp := fp) (orig := orig) (x := x) ?_ ?_ <;> first | (intro h0; generalize x = y at h0 ⊢; clear x) | intro h0 | subst x) | (have h0 := Nat.zero_le x; generalize x = y at h0 ⊢; clear h0 x) | subst x)
    | split
    | dsimp only
    | (with_reducible refine frame_mk ?_)

theorem execAntennaShort_frame (a : Nat) (at_ : Nat) (hs : Frame fp orig s) (hdict : Part.dict ∈ fp := by exact of_decide_eq_true rfl) (htime : Part.time ∈ fp := by exact of_decide_eq_true rfl) (hrx : Part.rx ∈ fp := by exact of_decide_eq_true rfl) :
    ∃ t, execAntennaShort a at_ s = .next t ∧ Frame fp orig t := by
  refine ⟨_, rfl, ?_⟩
  repeat' first
    | intro _
    | with_reducible assumption
    | with_reducible apply State.antShort_frame
    | with_reducible apply State.reach_frame
    | with_reducible apply onlyIf_frame
    | dsimp only
    | (with_reducible refine frame_mk ?_)

theorem execShortTrial_frame (a : Nat) (current : Nat) (at_ : Nat) (hs : Frame fp orig s) (hdict : Part.dict ∈ fp := by exact of_decide_eq_true rfl) (htime : Part.time ∈ fp := by exact of_decide_eq_true rfl) (hrx : Part.rx ∈ fp := by exact of_decide_eq_true rfl) :
    ∃ t, execShortTrial a current at_ s = .next t ∧ Frame fp orig t := by
  refine ⟨_, rfl, ?_⟩
  repeat' first
    | intro _
    | with_reducible assumption
    | with_reducible apply State.antTrial_frame
    | with_reducible apply State.reach_frame
    | with_reducible apply onlyIf_frame
    | dsimp only
    | (with_reducible refine frame_mk ?_)

theorem execAntennaSupplyLow_frame (a : Nat) (mv : Nat) (hs : Frame fp orig s) (hdict : Part.dict ∈ fp := by exact of_decide_eq_true rfl) (hrx : Part.rx ∈ fp := by exact of_decide_eq_true rfl) :
    ∃ t, execAntennaSupplyLow a mv s = .next t ∧ Frame fp orig t := by
  refine ⟨_, rfl, ?_⟩
  repeat' first
    | intro _
    | with_reducible assumption
    | with_reducible apply State.antLow_frame
    | with_reducible apply onlyIf_frame
    | dsimp only
    | (with_reducible refine frame_mk ?_)

theorem execSupplyLowCleared_frame (a : Nat) (mv : Nat) (hs : Frame fp orig s) (hdict : Part.dict ∈ fp := by exact of_decide_eq_true rfl) (hrx : Part.rx ∈ fp := by exact of_decide_eq_true rfl) :
    ∃ t, execSupplyLowCleared a mv s = .next t ∧ Frame fp orig t := by
  refine ⟨_, rfl, ?_⟩
  repeat' first
    | intro _
    | with_reducible assumption
    | with_reducible apply State.antLowEnd_frame
    | with_reducible apply onlyIf_frame
    | dsimp only
    | (with_reducible refine frame_mk ?_)

theorem execAntennaOpen_frame (a : Nat) (current : Nat) (hs : Frame fp orig s) (hdict : Part.dict ∈ fp := by exact of_decide_eq_true rfl) (hrx : Part.rx ∈ fp := by exact of_decide_eq_true rfl) :
    ∃ t, execAntennaOpen a current s = .next t ∧ Frame fp orig t := by
  refine ⟨_, rfl, ?_⟩
  repeat' first
    | intro _
    | with_reducible assumption
    | with_reducible apply State.antOpen_frame
    | with_reducible apply onlyIf_frame
    | dsimp only
    | (with_reducible refine frame_mk ?_)

theorem execOpenCleared_frame (a : Nat) (current : Nat) (hs : Frame fp orig s) (hdict : Part.dict ∈ fp := by exact of_decide_eq_true rfl) (hrx : Part.rx ∈ fp := by exact of_decide_eq_true rfl) :
    ∃ t, execOpenCleared a current s = .next t ∧ Frame fp orig t := by
  refine ⟨_, rfl, ?_⟩
  repeat' first
    | intro _
    | with_reducible assumption
    | with_reducible apply State.antOpenEnd_frame
    | with_reducible apply onlyIf_frame
    | dsimp only
    | (with_reducible refine frame_mk ?_)

theorem execAgcBaselineLearned_frame (c : Nat) (hs : Frame fp orig s) (hdict : Part.dict ∈ fp := by exact of_decide_eq_true rfl) (hrx : Part.rx ∈ fp := by exact of_decide_eq_true rfl) :
    ∃ t, execAgcBaselineLearned c s = .next t ∧ Frame fp orig t := by
  refine ⟨_, rfl, ?_⟩
  repeat' first
    | intro _
    | with_reducible assumption
    | with_reducible apply State.baselineLearn_frame
    | with_reducible apply onlyIf_frame
    | dsimp only
    | (with_reducible refine frame_mk ?_)

theorem execNotchSpectrum_frame (c : Nat) (lines : List (Nat × Int × Nat)) (hs : Frame fp orig s) (hdict : Part.dict ∈ fp := by exact of_decide_eq_true rfl) (hrx : Part.rx ∈ fp := by exact of_decide_eq_true rfl) :
    ∃ t, execNotchSpectrum c lines s = .next t ∧ Frame fp orig t := by
  refine ⟨_, rfl, ?_⟩
  repeat' first
    | intro _
    | with_reducible assumption
    | with_reducible apply State.notchSpectrum_frame
    | with_reducible apply onlyIf_frame
    | dsimp only
    | (with_reducible refine frame_mk ?_)

theorem execLoUnlock_frame (c : Nat) (at_ : Nat) (hs : Frame fp orig s) (hdict : Part.dict ∈ fp := by exact of_decide_eq_true rfl) (htime : Part.time ∈ fp := by exact of_decide_eq_true rfl) (hrx : Part.rx ∈ fp := by exact of_decide_eq_true rfl) :
    ∃ t, execLoUnlock c at_ s = .next t ∧ Frame fp orig t := by
  refine ⟨_, rfl, ?_⟩
  repeat' first
    | intro _
    | with_reducible assumption
    | with_reducible apply State.loUnlock_frame
    | with_reducible apply State.reach_frame
    | with_reducible apply onlyIf_frame
    | dsimp only
    | (with_reducible refine frame_mk ?_)

theorem execCalStepComplete_frame (pass : Bool) (image : Nat) (at_ : Nat) (hs : Frame fp orig s) (hdict : Part.dict ∈ fp := by exact of_decide_eq_true rfl) (hsilt : Part.silt ∈ fp := by exact of_decide_eq_true rfl) (htime : Part.time ∈ fp := by exact of_decide_eq_true rfl) (hrx : Part.rx ∈ fp := by exact of_decide_eq_true rfl) :
    ∃ t, execCalStepComplete pass image at_ s = .next t ∧ Frame fp orig t := by
  refine ⟨_, rfl, ?_⟩
  repeat' first
    | intro _
    | with_reducible assumption
    | with_reducible apply State.calStepEnd_frame
    | with_reducible apply State.reach_frame
    | with_reducible apply onlyIf_frame
    | dsimp only
    | (with_reducible refine frame_mk ?_)

theorem execChainFaultRetry_frame (c : Nat) (hs : Frame fp orig s) (hrx : Part.rx ∈ fp := by exact of_decide_eq_true rfl) :
    ∃ t, execChainFaultRetry c s = .next t ∧ Frame fp orig t := by
  refine ⟨_, rfl, ?_⟩
  repeat' first
    | intro _
    | with_reducible assumption
    | with_reducible apply State.faultRetry_frame
    | with_reducible apply onlyIf_frame
    | dsimp only
    | (with_reducible refine frame_mk ?_)

theorem execSpectrumAveragingStart_frame  (hs : Frame fp orig s) (hrx : Part.rx ∈ fp := by exact of_decide_eq_true rfl) :
    ∃ t, execSpectrumAveragingStart s = .next t ∧ Frame fp orig t := by
  refine ⟨_, rfl, ?_⟩
  repeat' first
    | intro _
    | with_reducible assumption
    | with_reducible apply State.specStart_frame
    | with_reducible apply onlyIf_frame
    | dsimp only
    | (with_reducible refine frame_mk ?_)

theorem execSpectrumEntry_frame (powers : List Int) (hs : Frame fp orig s) (hdict : Part.dict ∈ fp := by exact of_decide_eq_true rfl) (hstreams : Part.streams ∈ fp := by exact of_decide_eq_true rfl) (hrx : Part.rx ∈ fp := by exact of_decide_eq_true rfl) :
    ∃ t, execSpectrumEntry powers s = .next t ∧ Frame fp orig t := by
  refine ⟨_, rfl, ?_⟩
  repeat' first
    | intro _
    | with_reducible assumption
    | with_reducible apply State.specEntry_frame
    | with_reducible apply onlyIf_frame
    | dsimp only
    | (with_reducible refine frame_mk ?_)

theorem execDumpLatch_frame (n : Nat) (data : List Int) (pilot : List Int) (mm : List Int) (hs : Frame fp orig s) (htime : Part.time ∈ fp := by exact of_decide_eq_true rfl) (hslots : Part.slots ∈ fp := by exact of_decide_eq_true rfl) :
    ∃ t, execDumpLatch n data pilot mm s = .next t ∧ Frame fp orig t := by
  refine ⟨_, rfl, ?_⟩
  repeat' first
    | intro _
    | with_reducible assumption
    | with_reducible apply State.dumpLatch_frame
    | with_reducible apply onlyIf_frame
    | dsimp only
    | (with_reducible refine frame_mk ?_)

theorem execSlotStateChange_frame (n : Nat) (hs : Frame fp orig s) (hdict : Part.dict ∈ fp := by exact of_decide_eq_true rfl) (hcpu : Part.cpu ∈ fp := by exact of_decide_eq_true rfl) (hslots : Part.slots ∈ fp := by exact of_decide_eq_true rfl) (hnav : Part.nav ∈ fp := by exact of_decide_eq_true rfl) :
    ∃ t, execSlotStateChange n s = .next t ∧ Frame fp orig t := by
  refine ⟨_, rfl, ?_⟩
  repeat' first
    | intro _
    | with_reducible assumption
    | with_reducible apply State.slotChange_frame
    | with_reducible apply onlyIf_frame
    | dsimp only
    | (with_reducible refine frame_mk ?_)

theorem execPullInFailed_frame (n : Nat) (hs : Frame fp orig s) (hdict : Part.dict ∈ fp := by exact of_decide_eq_true rfl) (hcpu : Part.cpu ∈ fp := by exact of_decide_eq_true rfl) (hslots : Part.slots ∈ fp := by exact of_decide_eq_true rfl) (hnav : Part.nav ∈ fp := by exact of_decide_eq_true rfl) :
    ∃ t, execPullInFailed n s = .next t ∧ Frame fp orig t := by
  refine ⟨_, rfl, ?_⟩
  repeat' first
    | intro _
    | with_reducible assumption
    | with_reducible apply State.pullInFailed_frame
    | with_reducible apply onlyIf_frame
    | dsimp only
    | (with_reducible refine frame_mk ?_)

theorem execLostTimeout_frame (n : Nat) (hs : Frame fp orig s) (hdict : Part.dict ∈ fp := by exact of_decide_eq_true rfl) (hcpu : Part.cpu ∈ fp := by exact of_decide_eq_true rfl) (hslots : Part.slots ∈ fp := by exact of_decide_eq_true rfl) (hnav : Part.nav ∈ fp := by exact of_decide_eq_true rfl) :
    ∃ t, execLostTimeout n s = .next t ∧ Frame fp orig t := by
  refine ⟨_, rfl, ?_⟩
  repeat' first
    | intro _
    | with_reducible assumption
    | with_reducible apply State.lostTimeout_frame
    | with_reducible apply onlyIf_frame
    | dsimp only
    | (with_reducible refine frame_mk ?_)

theorem execParityFault_frame (n : Nat) (again : Bool) (hs : Frame fp orig s) (hdict : Part.dict ∈ fp := by exact of_decide_eq_true rfl) (hslots : Part.slots ∈ fp := by exact of_decide_eq_true rfl) :
    ∃ t, execParityFault n again s = .next t ∧ Frame fp orig t := by
  refine ⟨_, rfl, ?_⟩
  repeat' first
    | intro _
    | with_reducible assumption
    | with_reducible apply State.parityFault_frame
    | with_reducible apply onlyIf_frame
    | dsimp only
    | (with_reducible refine frame_mk ?_)

theorem execSlotRetired_frame (n : Nat) (hs : Frame fp orig s) (hdict : Part.dict ∈ fp := by exact of_decide_eq_true rfl) (hsilt : Part.silt ∈ fp := by exact of_decide_eq_true rfl) (hcpu : Part.cpu ∈ fp := by exact of_decide_eq_true rfl) (hslots : Part.slots ∈ fp := by exact of_decide_eq_true rfl) (hnav : Part.nav ∈ fp := by exact of_decide_eq_true rfl) :
    ∃ t, execSlotRetired n s = .next t ∧ Frame fp orig t := by
  refine ⟨_, rfl, ?_⟩
  repeat' first
    | intro _
    | with_reducible assumption
    | with_reducible apply State.slotRetire_frame
    | with_reducible apply onlyIf_frame
    | dsimp only
    | (with_reducible refine frame_mk ?_)

theorem execCrossCorrDrop_frame (n : Nat) (hs : Frame fp orig s) (hdict : Part.dict ∈ fp := by exact of_decide_eq_true rfl) (hcpu : Part.cpu ∈ fp := by exact of_decide_eq_true rfl) (hslots : Part.slots ∈ fp := by exact of_decide_eq_true rfl) (hnav : Part.nav ∈ fp := by exact of_decide_eq_true rfl) :
    ∃ t, execCrossCorrDrop n s = .next t ∧ Frame fp orig t := by
  refine ⟨_, rfl, ?_⟩
  repeat' first
    | intro _
    | with_reducible assumption
    | with_reducible apply State.crossDrop_frame
    | with_reducible apply onlyIf_frame
    | dsimp only
    | (with_reducible refine frame_mk ?_)

theorem execHistogramRestart_frame (n : Nat) (hs : Frame fp orig s) (hslots : Part.slots ∈ fp := by exact of_decide_eq_true rfl) :
    ∃ t, execHistogramRestart n s = .next t ∧ Frame fp orig t := by
  refine ⟨_, rfl, ?_⟩
  repeat' first
    | intro _
    | with_reducible assumption
    | with_reducible apply State.modSlot_frame
    | with_reducible apply onlyIf_frame
    | with_reducible apply frame_ite
    | split
    | dsimp only
    | (with_reducible refine frame_mk ?_)

theorem execEphemerisExpired_frame (e : Nat) (hs : Frame fp orig s) (hdict : Part.dict ∈ fp := by exact of_decide_eq_true rfl) :
    ∃ t, execEphemerisExpired e s = .next t ∧ Frame fp orig t := by
  refine ⟨_, rfl, ?_⟩
  repeat' first
    | intro _
    | with_reducible assumption
    | with_reducible apply State.storeExpire_frame
    | with_reducible apply onlyIf_frame
    | dsimp only
    | (with_reducible refine frame_mk ?_)

theorem execLeapApplied_frame  (hs : Frame fp orig s) (hdict : Part.dict ∈ fp := by exact of_decide_eq_true rfl) (hsilt : Part.silt ∈ fp := by exact of_decide_eq_true rfl) :
    ∃ t, execLeapApplied s = .next t ∧ Frame fp orig t := by
  refine ⟨_, rfl, ?_⟩
  repeat' first
    | intro _
    | with_reducible assumption
    | with_reducible apply State.leapDue_frame
    | with_reducible apply onlyIf_frame
    | dsimp only
    | (with_reducible refine frame_mk ?_)

theorem execAidedWindowUpdate_frame (n : Nat) (at_ : Nat) (hs : Frame fp orig s) (hdict : Part.dict ∈ fp := by exact of_decide_eq_true rfl) (hfree : Part.free ∈ fp := by exact of_decide_eq_true rfl) (htime : Part.time ∈ fp := by exact of_decide_eq_true rfl) (hcpu : Part.cpu ∈ fp := by exact of_decide_eq_true rfl) (hslots : Part.slots ∈ fp := by exact of_decide_eq_true rfl) :
    ∃ t, execAidedWindowUpdate n at_ s = .next t ∧ Frame fp orig t := by
  refine ⟨_, rfl, ?_⟩
  repeat' first
    | intro _
    | with_reducible assumption
    | with_reducible apply State.aidedWindow_frame
    | with_reducible apply State.reach_frame
    | with_reducible apply onlyIf_frame
    | (extract_lets +onlyGivenNames -underBinder x; first | (refine frame_cut (fp := fp) (orig := orig) (x := x) ?_ ?_ <;> first | (intro h0; generalize x = y at h0 ⊢; clear x) | intro h0 | subst x) | (have h0 := Nat.zero_le x; generalize x = y at h0 ⊢; clear h0 x) | subst x)
    | dsimp only
    | (with_reducible refine frame_mk ?_)

theorem execDecodeComplete_frame (d : Nat) (at_ : Nat) (hs : Frame fp orig s) (hdict : Part.dict ∈ fp := by exact of_decide_eq_true rfl) (htime : Part.time ∈ fp := by exact of_decide_eq_true rfl) (hslots : Part.slots ∈ fp := by exact of_decide_eq_true rfl) (hnav : Part.nav ∈ fp := by exact of_decide_eq_true rfl) :
    ∃ t, execDecodeComplete d at_ s = .next t ∧ Frame fp orig t := by
  refine ⟨_, rfl, ?_⟩
  repeat' first
    | intro _
    | with_reducible assumption
    | with_reducible apply State.decodeComplete_frame
    | with_reducible apply State.reach_frame
    | with_reducible apply onlyIf_frame
    | (extract_lets +onlyGivenNames -underBinder x; first | (refine frame_cut (fp := fp) (orig := orig) (x := x) ?_ ?_ <;> first | (intro h0; generalize x = y at h0 ⊢; clear x) | intro h0 | subst x) | (have h0 := Nat.zero_le x; generalize x = y at h0 ⊢; clear h0 x) | subst x)
    | dsimp only
    | (with_reducible refine frame_mk ?_)

theorem execAsymCalPeriod_frame (n : Nat) (peer : Int) (sigma : Nat) (hs : Frame fp orig s) (hdict : Part.dict ∈ fp := by exact of_decide_eq_true rfl) (hports : Part.ports ∈ fp := by exact of_decide_eq_true rfl) :
    ∃ t, execAsymCalPeriod n peer sigma s = .next t ∧ Frame fp orig t := by
  refine ⟨_, rfl, ?_⟩
  repeat' first
    | intro _
    | with_reducible assumption
    | with_reducible apply State.asymCal_frame
    | with_reducible apply onlyIf_frame
    | dsimp only
    | (with_reducible refine frame_mk ?_)

theorem execSignalDetect_frame (n : Nat) (hs : Frame fp orig s) (hdict : Part.dict ∈ fp := by exact of_decide_eq_true rfl) (hstreams : Part.streams ∈ fp := by exact of_decide_eq_true rfl) (hports : Part.ports ∈ fp := by exact of_decide_eq_true rfl) (hnet : Part.net ∈ fp := by exact of_decide_eq_true rfl) :
    ∃ t, execSignalDetect n s = .next t ∧ Frame fp orig t := by
  refine ⟨_, rfl, ?_⟩
  repeat' first
    | intro _
    | with_reducible assumption
    | with_reducible apply State.signalDetect_frame
    | with_reducible apply onlyIf_frame
    | dsimp only
    | (with_reducible refine frame_mk ?_)

theorem execGroupReferenceValid_frame (k : Nat) (hs : Frame fp orig s) (hdict : Part.dict ∈ fp := by exact of_decide_eq_true rfl) (hstreams : Part.streams ∈ fp := by exact of_decide_eq_true rfl) (hports : Part.ports ∈ fp := by exact of_decide_eq_true rfl) (hnet : Part.net ∈ fp := by exact of_decide_eq_true rfl) :
    ∃ t, execGroupReferenceValid k s = .next t ∧ Frame fp orig t := by
  refine ⟨_, rfl, ?_⟩
  repeat' first
    | intro _
    | with_reducible assumption
    | with_reducible apply State.groupValid_frame
    | with_reducible apply onlyIf_frame
    | dsimp only
    | (with_reducible refine frame_mk ?_)

theorem execTrainingComplete_frame (n : Nat) (eth : Bool) (hs : Frame fp orig s) (hdict : Part.dict ∈ fp := by exact of_decide_eq_true rfl) (hports : Part.ports ∈ fp := by exact of_decide_eq_true rfl) (hnet : Part.net ∈ fp := by exact of_decide_eq_true rfl) :
    ∃ t, execTrainingComplete n eth s = .next t ∧ Frame fp orig t := by
  refine ⟨_, rfl, ?_⟩
  repeat' first
    | intro _
    | with_reducible assumption
    | with_reducible apply State.trainingComplete_frame
    | with_reducible apply onlyIf_frame
    | dsimp only
    | (with_reducible refine frame_mk ?_)

theorem execAutoModeSwitch_frame (n : Nat) (at_ : Nat) (hs : Frame fp orig s) (htime : Part.time ∈ fp := by exact of_decide_eq_true rfl) (hports : Part.ports ∈ fp := by exact of_decide_eq_true rfl) :
    ∃ t, execAutoModeSwitch n at_ s = .next t ∧ Frame fp orig t := by
  refine ⟨_, rfl, ?_⟩
  repeat' first
    | intro _
    | with_reducible assumption
    | with_reducible apply State.autoSwitch_frame
    | with_reducible apply State.reach_frame
    | with_reducible apply onlyIf_frame
    | dsimp only
    | (with_reducible refine frame_mk ?_)

theorem execTrainFail_frame (n : Nat) (at_ : Nat) (hs : Frame fp orig s) (hdict : Part.dict ∈ fp := by exact of_decide_eq_true rfl) (hstreams : Part.streams ∈ fp := by exact of_decide_eq_true rfl) (htime : Part.time ∈ fp := by exact of_decide_eq_true rfl) (hports : Part.ports ∈ fp := by exact of_decide_eq_true rfl) (hnet : Part.net ∈ fp := by exact of_decide_eq_true rfl) :
    ∃ t, execTrainFail n at_ s = .next t ∧ Frame fp orig t := by
  refine ⟨_, rfl, ?_⟩
  repeat' first
    | intro _
    | with_reducible assumption
    | with_reducible apply State.trainFail_frame
    | with_reducible apply State.reach_frame
    | with_reducible apply onlyIf_frame
    | dsimp only
    | (with_reducible refine frame_mk ?_)

theorem execTrainRetry_frame (n : Nat) (at_ : Nat) (hs : Frame fp orig s) (hdict : Part.dict ∈ fp := by exact of_decide_eq_true rfl) (hstreams : Part.streams ∈ fp := by exact of_decide_eq_true rfl) (htime : Part.time ∈ fp := by exact of_decide_eq_true rfl) (hports : Part.ports ∈ fp := by exact of_decide_eq_true rfl) (hnet : Part.net ∈ fp := by exact of_decide_eq_true rfl) :
    ∃ t, execTrainRetry n at_ s = .next t ∧ Frame fp orig t := by
  refine ⟨_, rfl, ?_⟩
  repeat' first
    | intro _
    | with_reducible assumption
    | with_reducible apply State.trainRetry_frame
    | with_reducible apply State.reach_frame
    | with_reducible apply onlyIf_frame
    | dsimp only
    | (with_reducible refine frame_mk ?_)

theorem execLos_frame (n : Nat) (group : Bool) (hs : Frame fp orig s) (hdict : Part.dict ∈ fp := by exact of_decide_eq_true rfl) (hstreams : Part.streams ∈ fp := by exact of_decide_eq_true rfl) (hports : Part.ports ∈ fp := by exact of_decide_eq_true rfl) (hnet : Part.net ∈ fp := by exact of_decide_eq_true rfl) :
    ∃ t, execLos n group s = .next t ∧ Frame fp orig t := by
  refine ⟨_, rfl, ?_⟩
  repeat' first
    | intro _
    | with_reducible assumption
    | with_reducible apply State.los_frame
    | with_reducible apply onlyIf_frame
    | dsimp only
    | (with_reducible refine frame_mk ?_)

theorem execHello_frame (n : Nat) (frame : List Nat) (hs : Frame fp orig s) (hdict : Part.dict ∈ fp := by exact of_decide_eq_true rfl) (hports : Part.ports ∈ fp := by exact of_decide_eq_true rfl) (hnet : Part.net ∈ fp := by exact of_decide_eq_true rfl) :
    ∃ t, execHello n frame s = .next t ∧ Frame fp orig t := by
  refine ⟨_, rfl, ?_⟩
  repeat' first
    | intro _
    | with_reducible assumption
    | with_reducible apply State.hello_frame
    | with_reducible apply onlyIf_frame
    | dsimp only
    | (with_reducible refine frame_mk ?_)

theorem execLinkData_frame (n : Nat) (frame : List Nat) (at_ : Nat) (hs : Frame fp orig s) (hdict : Part.dict ∈ fp := by exact of_decide_eq_true rfl) (htime : Part.time ∈ fp := by exact of_decide_eq_true rfl) (hports : Part.ports ∈ fp := by exact of_decide_eq_true rfl) (hnet : Part.net ∈ fp := by exact of_decide_eq_true rfl) :
    ∃ t, execLinkData n frame at_ s = .next t ∧ Frame fp orig t := by
  refine ⟨_, rfl, ?_⟩
  repeat' first
    | intro _
    | with_reducible assumption
    | with_reducible apply State.linkData_frame
    | with_reducible apply State.reach_frame
    | with_reducible apply onlyIf_frame
    | dsimp only
    | (with_reducible refine frame_mk ?_)

theorem execLinkAck_frame (n : Nat) (frame : List Nat) (at_ : Nat) (hs : Frame fp orig s) (hdict : Part.dict ∈ fp := by exact of_decide_eq_true rfl) (htime : Part.time ∈ fp := by exact of_decide_eq_true rfl) (hports : Part.ports ∈ fp := by exact of_decide_eq_true rfl) :
    ∃ t, execLinkAck n frame at_ s = .next t ∧ Frame fp orig t := by
  refine ⟨_, rfl, ?_⟩
  repeat' first
    | intro _
    | with_reducible assumption
    | with_reducible apply State.linkAck_frame
    | with_reducible apply State.reach_frame
    | with_reducible apply onlyIf_frame
    | dsimp only
    | (with_reducible refine frame_mk ?_)

theorem execNak_frame (n : Nat) (frame : List Nat) (at_ : Nat) (hs : Frame fp orig s) (hdict : Part.dict ∈ fp := by exact of_decide_eq_true rfl) (hstreams : Part.streams ∈ fp := by exact of_decide_eq_true rfl) (hsilt : Part.silt ∈ fp := by exact of_decide_eq_true rfl) (htime : Part.time ∈ fp := by exact of_decide_eq_true rfl) (hports : Part.ports ∈ fp := by exact of_decide_eq_true rfl) (hnet : Part.net ∈ fp := by exact of_decide_eq_true rfl) :
    ∃ t, execNak n frame at_ s = .next t ∧ Frame fp orig t := by
  refine ⟨_, rfl, ?_⟩
  repeat' first
    | intro _
    | with_reducible assumption
    | with_reducible apply State.linkNak_frame
    | with_reducible apply State.reach_frame
    | with_reducible apply onlyIf_frame
    | dsimp only
    | (with_reducible refine frame_mk ?_)

theorem execAckTimeout_frame (n : Nat) (at_ : Nat) (hs : Frame fp orig s) (hdict : Part.dict ∈ fp := by exact of_decide_eq_true rfl) (hstreams : Part.streams ∈ fp := by exact of_decide_eq_true rfl) (hsilt : Part.silt ∈ fp := by exact of_decide_eq_true rfl) (htime : Part.time ∈ fp := by exact of_decide_eq_true rfl) (hports : Part.ports ∈ fp := by exact of_decide_eq_true rfl) (hnet : Part.net ∈ fp := by exact of_decide_eq_true rfl) :
    ∃ t, execAckTimeout n at_ s = .next t ∧ Frame fp orig t := by
  refine ⟨_, rfl, ?_⟩
  repeat' first
    | intro _
    | with_reducible assumption
    | with_reducible apply State.ackExpire_frame
    | with_reducible apply State.reach_frame
    | with_reducible apply onlyIf_frame
    | dsimp only
    | (with_reducible refine frame_mk ?_)

theorem execTimingFrame_frame (n : Nat) (frame : List Nat) (at_ : Nat) (hs : Frame fp orig s) (hdict : Part.dict ∈ fp := by exact of_decide_eq_true rfl) (htime : Part.time ∈ fp := by exact of_decide_eq_true rfl) (hports : Part.ports ∈ fp := by exact of_decide_eq_true rfl) :
    ∃ t, execTimingFrame n frame at_ s = .next t ∧ Frame fp orig t := by
  refine ⟨_, rfl, ?_⟩
  repeat' first
    | intro _
    | with_reducible assumption
    | with_reducible apply State.timingFrameIn_frame
    | with_reducible apply State.reach_frame
    | with_reducible apply onlyIf_frame
    | dsimp only
    | (with_reducible refine frame_mk ?_)

theorem execTimingRecordPosted_frame (n : Nat) (at_ : Nat) (hs : Frame fp orig s) (hdict : Part.dict ∈ fp := by exact of_decide_eq_true rfl) (htime : Part.time ∈ fp := by exact of_decide_eq_true rfl) (hcpu : Part.cpu ∈ fp := by exact of_decide_eq_true rfl) (hports : Part.ports ∈ fp := by exact of_decide_eq_true rfl) :
    ∃ t, execTimingRecordPosted n at_ s = .next t ∧ Frame fp orig t := by
  refine ⟨_, rfl, ?_⟩
  repeat' first
    | intro _
    | with_reducible assumption
    | with_reducible apply State.recordPost_frame
    | with_reducible apply State.reach_frame
    | with_reducible apply onlyIf_frame
    | dsimp only
    | (with_reducible refine frame_mk ?_)

theorem execLinkMissing_frame (n : Nat) (hs : Frame fp orig s) (hdict : Part.dict ∈ fp := by exact of_decide_eq_true rfl) (htime : Part.time ∈ fp := by exact of_decide_eq_true rfl) (hcpu : Part.cpu ∈ fp := by exact of_decide_eq_true rfl) (hports : Part.ports ∈ fp := by exact of_decide_eq_true rfl) :
    ∃ t, execLinkMissing n s = .next t ∧ Frame fp orig t := by
  refine ⟨_, rfl, ?_⟩
  repeat' first
    | intro _
    | with_reducible assumption
    | with_reducible apply State.linkMissing_frame
    | with_reducible apply State.reach_frame
    | with_reducible apply onlyIf_frame
    | dsimp only
    | (with_reducible refine frame_mk ?_)

theorem execErrorSecond_frame (n : Nat) (errs : Nat) (hs : Frame fp orig s) (hdict : Part.dict ∈ fp := by exact of_decide_eq_true rfl) (hstreams : Part.streams ∈ fp := by exact of_decide_eq_true rfl) (hsilt : Part.silt ∈ fp := by exact of_decide_eq_true rfl) (hports : Part.ports ∈ fp := by exact of_decide_eq_true rfl) (hnet : Part.net ∈ fp := by exact of_decide_eq_true rfl) :
    ∃ t, execErrorSecond n errs s = .next t ∧ Frame fp orig t := by
  refine ⟨_, rfl, ?_⟩
  repeat' first
    | intro _
    | with_reducible assumption
    | with_reducible apply State.errorSecond_frame
    | with_reducible apply onlyIf_frame
    | dsimp only
    | (with_reducible refine frame_mk ?_)

theorem execDegradedRecovery_frame (n : Nat) (hs : Frame fp orig s) (hdict : Part.dict ∈ fp := by exact of_decide_eq_true rfl) (hports : Part.ports ∈ fp := by exact of_decide_eq_true rfl) (hnet : Part.net ∈ fp := by exact of_decide_eq_true rfl) :
    ∃ t, execDegradedRecovery n s = .next t ∧ Frame fp orig t := by
  refine ⟨_, rfl, ?_⟩
  repeat' first
    | intro _
    | with_reducible assumption
    | with_reducible apply State.recovery_frame
    | with_reducible apply onlyIf_frame
    | dsimp only
    | (with_reducible refine frame_mk ?_)

theorem execFrameLaunch_frame (n : Nat) (at_ : Nat) (hs : Frame fp orig s) (hdict : Part.dict ∈ fp := by exact of_decide_eq_true rfl) (hstreams : Part.streams ∈ fp := by exact of_decide_eq_true rfl) (htime : Part.time ∈ fp := by exact of_decide_eq_true rfl) (hports : Part.ports ∈ fp := by exact of_decide_eq_true rfl) :
    ∃ t, execFrameLaunch n at_ s = .next t ∧ Frame fp orig t := by
  refine ⟨_, rfl, ?_⟩
  repeat' first
    | intro _
    | with_reducible assumption
    | with_reducible apply State.frameLaunch_frame
    | with_reducible apply State.reach_frame
    | with_reducible apply onlyIf_frame
    | dsimp only
    | (with_reducible refine frame_mk ?_)

theorem execSyncInterval_frame (n : Nat) (at_ : Nat) (hs : Frame fp orig s) (hdict : Part.dict ∈ fp := by exact of_decide_eq_true rfl) (htime : Part.time ∈ fp := by exact of_decide_eq_true rfl) (hports : Part.ports ∈ fp := by exact of_decide_eq_true rfl) :
    ∃ t, execSyncInterval n at_ s = .next t ∧ Frame fp orig t := by
  refine ⟨_, rfl, ?_⟩
  repeat' first
    | intro _
    | with_reducible assumption
    | with_reducible apply State.syncSend_frame
    | with_reducible apply State.reach_frame
    | with_reducible apply onlyIf_frame
    | dsimp only
    | (with_reducible refine frame_mk ?_)

theorem execAnnounceInterval_frame (n : Nat) (at_ : Nat) (hs : Frame fp orig s) (hdict : Part.dict ∈ fp := by exact of_decide_eq_true rfl) (hfree : Part.free ∈ fp := by exact of_decide_eq_true rfl) (htime : Part.time ∈ fp := by exact of_decide_eq_true rfl) (hports : Part.ports ∈ fp := by exact of_decide_eq_true rfl) :
    ∃ t, execAnnounceInterval n at_ s = .next t ∧ Frame fp orig t := by
  refine ⟨_, rfl, ?_⟩
  repeat' first
    | intro _
    | with_reducible assumption
    | with_reducible apply State.announceSend_frame
    | with_reducible apply State.reach_frame
    | with_reducible apply onlyIf_frame
    | dsimp only
    | (with_reducible refine frame_mk ?_)

theorem execDelayReqInterval_frame (n : Nat) (at_ : Nat) (hs : Frame fp orig s) (hdict : Part.dict ∈ fp := by exact of_decide_eq_true rfl) (htime : Part.time ∈ fp := by exact of_decide_eq_true rfl) (hports : Part.ports ∈ fp := by exact of_decide_eq_true rfl) :
    ∃ t, execDelayReqInterval n at_ s = .next t ∧ Frame fp orig t := by
  refine ⟨_, rfl, ?_⟩
  repeat' first
    | intro _
    | with_reducible assumption
    | with_reducible apply State.delaySend_frame
    | with_reducible apply State.reach_frame
    | with_reducible apply onlyIf_frame
    | dsimp only
    | (with_reducible refine frame_mk ?_)

theorem execAnnounceReceiptTimeout_frame (n : Nat) (at_ : Nat) (hs : Frame fp orig s) (hdict : Part.dict ∈ fp := by exact of_decide_eq_true rfl) (htime : Part.time ∈ fp := by exact of_decide_eq_true rfl) (hports : Part.ports ∈ fp := by exact of_decide_eq_true rfl) :
    ∃ t, execAnnounceReceiptTimeout n at_ s = .next t ∧ Frame fp orig t := by
  refine ⟨_, rfl, ?_⟩
  repeat' first
    | intro _
    | with_reducible assumption
    | with_reducible apply State.announceTimeout_frame
    | with_reducible apply State.reach_frame
    | with_reducible apply onlyIf_frame
    | dsimp only
    | (with_reducible refine frame_mk ?_)

theorem execSync_frame (n : Nat) (m : PtpMsg) (at_ : Nat) (out : List (Nat × Nat)) (hs : Frame fp orig s) (hdict : Part.dict ∈ fp := by exact of_decide_eq_true rfl) (htime : Part.time ∈ fp := by exact of_decide_eq_true rfl) (hports : Part.ports ∈ fp := by exact of_decide_eq_true rfl) :
    ∃ t, execSync n m at_ out s = .next t ∧ Frame fp orig t := by
  refine ⟨_, rfl, ?_⟩
  repeat' first
    | intro _
    | with_reducible assumption
    | with_reducible apply State.syncIn_frame
    | with_reducible apply State.reach_frame
    | with_reducible apply onlyIf_frame
    | dsimp only
    | (with_reducible refine frame_mk ?_)

theorem execFollowUp_frame (n : Nat) (m : PtpMsg) (hs : Frame fp orig s) (hdict : Part.dict ∈ fp := by exact of_decide_eq_true rfl) (hports : Part.ports ∈ fp := by exact of_decide_eq_true rfl) :
    ∃ t, execFollowUp n m s = .next t ∧ Frame fp orig t := by
  refine ⟨_, rfl, ?_⟩
  repeat' first
    | intro _
    | with_reducible assumption
    | with_reducible apply State.followIn_frame
    | with_reducible apply onlyIf_frame
    | dsimp only
    | (with_reducible refine frame_mk ?_)

theorem execDelayReq_frame (n : Nat) (m : PtpMsg) (at_ : Nat) (out : List (Nat × Nat)) (hs : Frame fp orig s) (hdict : Part.dict ∈ fp := by exact of_decide_eq_true rfl) (htime : Part.time ∈ fp := by exact of_decide_eq_true rfl) (hports : Part.ports ∈ fp := by exact of_decide_eq_true rfl) :
    ∃ t, execDelayReq n m at_ out s = .next t ∧ Frame fp orig t := by
  refine ⟨_, rfl, ?_⟩
  repeat' first
    | intro _
    | with_reducible assumption
    | with_reducible apply State.delayReqIn_frame
    | with_reducible apply State.reach_frame
    | with_reducible apply onlyIf_frame
    | dsimp only
    | (with_reducible refine frame_mk ?_)

theorem execDelayResp_frame (n : Nat) (m : PtpMsg) (at_ : Nat) (out : List (Nat × Nat)) (hs : Frame fp orig s) (hdict : Part.dict ∈ fp := by exact of_decide_eq_true rfl) (htime : Part.time ∈ fp := by exact of_decide_eq_true rfl) (hports : Part.ports ∈ fp := by exact of_decide_eq_true rfl) :
    ∃ t, execDelayResp n m at_ out s = .next t ∧ Frame fp orig t := by
  refine ⟨_, rfl, ?_⟩
  repeat' first
    | intro _
    | with_reducible assumption
    | with_reducible apply State.delayRespIn_frame
    | with_reducible apply State.reach_frame
    | with_reducible apply onlyIf_frame
    | dsimp only
    | (with_reducible refine frame_mk ?_)

theorem execPdelayReq_frame (n : Nat) (m : PtpMsg) (at_ : Nat) (turn : Nat) (out : List (Nat × Nat)) (hs : Frame fp orig s) (hdict : Part.dict ∈ fp := by exact of_decide_eq_true rfl) (htime : Part.time ∈ fp := by exact of_decide_eq_true rfl) (hports : Part.ports ∈ fp := by exact of_decide_eq_true rfl) :
    ∃ t, execPdelayReq n m at_ turn out s = .next t ∧ Frame fp orig t := by
  refine ⟨_, rfl, ?_⟩
  repeat' first
    | intro _
    | with_reducible assumption
    | with_reducible apply State.pdelayReqIn_frame
    | with_reducible apply State.reach_frame
    | with_reducible apply onlyIf_frame
    | dsimp only
    | (with_reducible refine frame_mk ?_)

theorem execPdelayResp_frame (n : Nat) (m : PtpMsg) (at_ : Nat) (out : List (Nat × Nat)) (hs : Frame fp orig s) (hdict : Part.dict ∈ fp := by exact of_decide_eq_true rfl) (htime : Part.time ∈ fp := by exact of_decide_eq_true rfl) (hports : Part.ports ∈ fp := by exact of_decide_eq_true rfl) :
    ∃ t, execPdelayResp n m at_ out s = .next t ∧ Frame fp orig t := by
  refine ⟨_, rfl, ?_⟩
  repeat' first
    | intro _
    | with_reducible assumption
    | with_reducible apply State.pdelayRespIn_frame
    | with_reducible apply State.reach_frame
    | with_reducible apply onlyIf_frame
    | dsimp only
    | (with_reducible refine frame_mk ?_)

theorem execAnnounce_frame (n : Nat) (m : PtpMsg) (at_ : Nat) (out : List (Nat × Nat)) (hs : Frame fp orig s) (hdict : Part.dict ∈ fp := by exact of_decide_eq_true rfl) (htime : Part.time ∈ fp := by exact of_decide_eq_true rfl) (hports : Part.ports ∈ fp := by exact of_decide_eq_true rfl) :
    ∃ t, execAnnounce n m at_ out s = .next t ∧ Frame fp orig t := by
  refine ⟨_, rfl, ?_⟩
  repeat' first
    | intro _
    | with_reducible assumption
    | with_reducible apply State.announceIn_frame
    | with_reducible apply State.reach_frame
    | with_reducible apply onlyIf_frame
    | dsimp only
    | (with_reducible refine frame_mk ?_)

theorem execEthernetFrameReceived_frame (n : Nat) (hs : Frame fp orig s) (hdict : Part.dict ∈ fp := by exact of_decide_eq_true rfl) :
    ∃ t, execEthernetFrameReceived n s = .next t ∧ Frame fp orig t := by
  refine ⟨_, rfl, ?_⟩
  repeat' first
    | intro _
    | with_reducible assumption
    | with_reducible apply State.ethIn_frame
    | with_reducible apply onlyIf_frame
    | dsimp only
    | (with_reducible refine frame_mk ?_)

theorem execCalibrationStart_frame  (hs : Frame fp orig s) (hdict : Part.dict ∈ fp := by exact of_decide_eq_true rfl) (hstreams : Part.streams ∈ fp := by exact of_decide_eq_true rfl) (hrx : Part.rx ∈ fp := by exact of_decide_eq_true rfl) (herg : Part.erg ∈ fp := by exact of_decide_eq_true rfl) :
    ∃ t, execCalibrationStart s = .next t ∧ Frame fp orig t := by
  refine ⟨_, rfl, ?_⟩
  repeat' first
    | intro _
    | with_reducible assumption
    | with_reducible apply State.ergCal_frame
    | with_reducible apply State.calStart_frame
    | with_reducible apply onlyIf_frame
    | with_reducible apply frame_ite
    | split
    | dsimp only
    | (with_reducible refine frame_mk ?_)

theorem execCalibrationEnd_frame  (hs : Frame fp orig s) (hdict : Part.dict ∈ fp := by exact of_decide_eq_true rfl) (hstreams : Part.streams ∈ fp := by exact of_decide_eq_true rfl) (hrx : Part.rx ∈ fp := by exact of_decide_eq_true rfl) (herg : Part.erg ∈ fp := by exact of_decide_eq_true rfl) :
    ∃ t, execCalibrationEnd s = .next t ∧ Frame fp orig t := by
  refine ⟨_, rfl, ?_⟩
  repeat' first
    | intro _
    | with_reducible assumption
    | with_reducible apply State.ergCal_frame
    | with_reducible apply State.calEnd_frame
    | with_reducible apply onlyIf_frame
    | dsimp only
    | (with_reducible refine frame_mk ?_)

theorem execAntennaSwitch_frame  (hs : Frame fp orig s) (hdict : Part.dict ∈ fp := by exact of_decide_eq_true rfl) (hstreams : Part.streams ∈ fp := by exact of_decide_eq_true rfl) (hcpu : Part.cpu ∈ fp := by exact of_decide_eq_true rfl) (hslots : Part.slots ∈ fp := by exact of_decide_eq_true rfl) (hnav : Part.nav ∈ fp := by exact of_decide_eq_true rfl) (herg : Part.erg ∈ fp := by exact of_decide_eq_true rfl) :
    ∃ t, execAntennaSwitch s = .next t ∧ Frame fp orig t := by
  refine ⟨_, rfl, ?_⟩
  repeat' first
    | intro _
    | with_reducible assumption
    | with_reducible apply State.antSwitch_frame
    | with_reducible apply onlyIf_frame
    | dsimp only
    | (with_reducible refine frame_mk ?_)

theorem execAntennaRevert_frame  (hs : Frame fp orig s) (hdict : Part.dict ∈ fp := by exact of_decide_eq_true rfl) (hstreams : Part.streams ∈ fp := by exact of_decide_eq_true rfl) (hcpu : Part.cpu ∈ fp := by exact of_decide_eq_true rfl) (hslots : Part.slots ∈ fp := by exact of_decide_eq_true rfl) (hnav : Part.nav ∈ fp := by exact of_decide_eq_true rfl) (herg : Part.erg ∈ fp := by exact of_decide_eq_true rfl) :
    ∃ t, execAntennaRevert s = .next t ∧ Frame fp orig t := by
  refine ⟨_, rfl, ?_⟩
  repeat' first
    | intro _
    | with_reducible assumption
    | with_reducible apply State.antRevert_frame
    | with_reducible apply onlyIf_frame
    | dsimp only
    | (with_reducible refine frame_mk ?_)

theorem execLaneRunStart_frame (p : ErgPred) (hs : Frame fp orig s) (hdict : Part.dict ∈ fp := by exact of_decide_eq_true rfl) (herg : Part.erg ∈ fp := by exact of_decide_eq_true rfl) :
    ∃ t, execLaneRunStart p s = .next t ∧ Frame fp orig t := by
  refine ⟨_, rfl, ?_⟩
  repeat' first
    | intro _
    | with_reducible assumption
    | with_reducible apply State.laneStart_frame
    | with_reducible apply onlyIf_frame
    | dsimp only
    | (with_reducible refine frame_mk ?_)

theorem execPassDecision_frame (l : Nat) (cell : Nat) (line : Nat) (ratio : Nat) (at_ : Nat) (hs : Frame fp orig s) (hdict : Part.dict ∈ fp := by exact of_decide_eq_true rfl) (hstreams : Part.streams ∈ fp := by exact of_decide_eq_true rfl) (htime : Part.time ∈ fp := by exact of_decide_eq_true rfl) (herg : Part.erg ∈ fp := by exact of_decide_eq_true rfl) :
    ∃ t, execPassDecision l cell line ratio at_ s = .next t ∧ Frame fp orig t := by
  refine ⟨_, rfl, ?_⟩
  repeat' first
    | intro _
    | with_reducible assumption
    | with_reducible apply State.passDecision_frame
    | with_reducible apply State.reach_frame
    | with_reducible apply onlyIf_frame
    | dsimp only
    | (with_reducible refine frame_mk ?_)

theorem execVerification_frame (l : Nat) (powers : List Nat) (at_ : Nat) (hs : Frame fp orig s) (hdict : Part.dict ∈ fp := by exact of_decide_eq_true rfl) (hstreams : Part.streams ∈ fp := by exact of_decide_eq_true rfl) (htime : Part.time ∈ fp := by exact of_decide_eq_true rfl) (herg : Part.erg ∈ fp := by exact of_decide_eq_true rfl) :
    ∃ t, execVerification l powers at_ s = .next t ∧ Frame fp orig t := by
  refine ⟨_, rfl, ?_⟩
  repeat' first
    | intro _
    | with_reducible assumption
    | with_reducible apply State.verification_frame
    | with_reducible apply State.reach_frame
    | with_reducible apply onlyIf_frame
    | dsimp only
    | (with_reducible refine frame_mk ?_)

theorem execHandoffLoad_frame  (hs : Frame fp orig s) (hdict : Part.dict ∈ fp := by exact of_decide_eq_true rfl) (hstreams : Part.streams ∈ fp := by exact of_decide_eq_true rfl) (hslots : Part.slots ∈ fp := by exact of_decide_eq_true rfl) (herg : Part.erg ∈ fp := by exact of_decide_eq_true rfl) :
    ∃ t, execHandoffLoad s = .next t ∧ Frame fp orig t := by
  refine ⟨_, rfl, ?_⟩
  repeat' first
    | intro _
    | with_reducible assumption
    | with_reducible apply State.handoff_frame
    | with_reducible apply onlyIf_frame
    | dsimp only
    | (with_reducible refine frame_mk ?_)

theorem execNoSlot_frame  (hs : Frame fp orig s) (hdict : Part.dict ∈ fp := by exact of_decide_eq_true rfl) (hstreams : Part.streams ∈ fp := by exact of_decide_eq_true rfl) (herg : Part.erg ∈ fp := by exact of_decide_eq_true rfl) :
    ∃ t, execNoSlot s = .next t ∧ Frame fp orig t := by
  refine ⟨_, rfl, ?_⟩
  repeat' first
    | intro _
    | with_reducible assumption
    | with_reducible apply State.noSlot_frame
    | with_reducible apply onlyIf_frame
    | dsimp only
    | (with_reducible refine frame_mk ?_)

theorem execAutoListRefill_frame (predicted : List (Nat × Nat × Int)) (hs : Frame fp orig s) (hdict : Part.dict ∈ fp := by exact of_decide_eq_true rfl) (herg : Part.erg ∈ fp := by exact of_decide_eq_true rfl) :
    ∃ t, execAutoListRefill predicted s = .next t ∧ Frame fp orig t := by
  refine ⟨_, rfl, ?_⟩
  repeat' first
    | intro _
    | with_reducible assumption
    | with_reducible apply State.autoRefill_frame
    | with_reducible apply onlyIf_frame
    | dsimp only
    | (with_reducible refine frame_mk ?_)

theorem execSolutionSkipped_frame  (hs : Frame fp orig s) (hdict : Part.dict ∈ fp := by exact of_decide_eq_true rfl) (hsol : Part.sol ∈ fp := by exact of_decide_eq_true rfl) :
    ∃ t, execSolutionSkipped s = .next t ∧ Frame fp orig t := by
  refine ⟨_, rfl, ?_⟩
  repeat' first
    | intro _
    | with_reducible assumption
    | with_reducible apply State.solutionSkip_frame
    | with_reducible apply onlyIf_frame
    | dsimp only
    | (with_reducible refine frame_mk ?_)

theorem execSurveyRestart_frame (a : Nat) (hs : Frame fp orig s) (hdict : Part.dict ∈ fp := by exact of_decide_eq_true rfl) (hsol : Part.sol ∈ fp := by exact of_decide_eq_true rfl) :
    ∃ t, execSurveyRestart a s = .next t ∧ Frame fp orig t := by
  refine ⟨_, rfl, ?_⟩
  repeat' first
    | intro _
    | with_reducible assumption
    | with_reducible apply State.surveyRestart_frame
    | with_reducible apply onlyIf_frame
    | dsimp only
    | (with_reducible refine frame_mk ?_)

theorem execEpochStreamAppend_frame  (hs : Frame fp orig s) (hdict : Part.dict ∈ fp := by exact of_decide_eq_true rfl) (hstreams : Part.streams ∈ fp := by exact of_decide_eq_true rfl) (hsol : Part.sol ∈ fp := by exact of_decide_eq_true rfl) :
    ∃ t, execEpochStreamAppend s = .next t ∧ Frame fp orig t := by
  refine ⟨_, rfl, ?_⟩
  repeat' first
    | intro _
    | with_reducible assumption
    | with_reducible apply State.epochStream_frame
    | with_reducible apply onlyIf_frame
    | dsimp only
    | (with_reducible refine frame_mk ?_)

theorem execMeasurementEpoch_frame (at_ : Nat) (hs : Frame fp orig s) (hdict : Part.dict ∈ fp := by exact of_decide_eq_true rfl) (htime : Part.time ∈ fp := by exact of_decide_eq_true rfl) (hsol : Part.sol ∈ fp := by exact of_decide_eq_true rfl) (hports : Part.ports ∈ fp := by exact of_decide_eq_true rfl) (hnet : Part.net ∈ fp := by exact of_decide_eq_true rfl) (hlake : Part.lake ∈ fp := by exact of_decide_eq_true rfl) :
    ∃ t, execMeasurementEpoch at_ s = .next t ∧ Frame fp orig t := by
  refine ⟨_, rfl, ?_⟩
  repeat' first
    | intro _
    | with_reducible assumption
    | with_reducible apply State.measureEpoch_frame
    | with_reducible apply State.reach_frame
    | with_reducible apply onlyIf_frame
    | dsimp only
    | (with_reducible refine frame_mk ?_)

theorem execEntryAttempt_frame (e : EntryEnd) (at_ : Nat) (aon : Nat) (hs : Frame fp orig s) (hdict : Part.dict ∈ fp := by exact of_decide_eq_true rfl) (hstreams : Part.streams ∈ fp := by exact of_decide_eq_true rfl) (hsilt : Part.silt ∈ fp := by exact of_decide_eq_true rfl) (htime : Part.time ∈ fp := by exact of_decide_eq_true rfl) (hout : Part.out ∈ fp := by exact of_decide_eq_true rfl) (htmr : Part.tmr ∈ fp := by exact of_decide_eq_true rfl) (hslots : Part.slots ∈ fp := by exact of_decide_eq_true rfl) (herg : Part.erg ∈ fp := by exact of_decide_eq_true rfl) (hsol : Part.sol ∈ fp := by exact of_decide_eq_true rfl) (hports : Part.ports ∈ fp := by exact of_decide_eq_true rfl) (hnet : Part.net ∈ fp := by exact of_decide_eq_true rfl) (hprot : Part.prot ∈ fp := by exact of_decide_eq_true rfl) (hreader : Part.reader ∈ fp := by exact of_decide_eq_true rfl) (hpower : Part.power ∈ fp := by exact of_decide_eq_true rfl) :
    ∃ t, execEntryAttempt e at_ aon s = .next t ∧ Frame fp orig t := by
  refine ⟨_, rfl, ?_⟩
  repeat' first
    | intro _
    | with_reducible assumption
    | with_reducible apply State.entryAttempt_frame
    | with_reducible apply State.reachAon_frame
    | with_reducible apply State.reach_frame
    | with_reducible apply onlyIf_frame
    | dsimp only
    | (with_reducible refine frame_mk ?_)

theorem execWake_frame (cause : Nat) (port : Nat) (at_ : Nat) (aon : Nat) (hs : Frame fp orig s) (hdict : Part.dict ∈ fp := by exact of_decide_eq_true rfl) (hsilt : Part.silt ∈ fp := by exact of_decide_eq_true rfl) (htime : Part.time ∈ fp := by exact of_decide_eq_true rfl) (hsol : Part.sol ∈ fp := by exact of_decide_eq_true rfl) (hpower : Part.power ∈ fp := by exact of_decide_eq_true rfl) :
    ∃ t, execWake cause port at_ aon s = .next t ∧ Frame fp orig t := by
  refine ⟨_, rfl, ?_⟩
  repeat' first
    | intro _
    | with_reducible assumption
    | with_reducible apply State.wake_frame
    | with_reducible apply State.reachAon_frame
    | with_reducible apply State.reach_frame
    | with_reducible apply onlyIf_frame
    | dsimp only
    | (with_reducible refine frame_mk ?_)

theorem execRegulatorTimeout_frame (aon : Nat) (hs : Frame fp orig s) (htime : Part.time ∈ fp := by exact of_decide_eq_true rfl) (hout : Part.out ∈ fp := by exact of_decide_eq_true rfl) (hpower : Part.power ∈ fp := by exact of_decide_eq_true rfl) :
    ∃ t, execRegulatorTimeout aon s = .next t ∧ Frame fp orig t := by
  refine ⟨_, rfl, ?_⟩
  repeat' first
    | intro _
    | with_reducible assumption
    | with_reducible apply State.regulatorTimeout_frame
    | with_reducible apply State.reachAon_frame
    | with_reducible apply onlyIf_frame
    | dsimp only
    | (with_reducible refine frame_mk ?_)

theorem execRefLate_frame  (hs : Frame fp orig s) (hdict : Part.dict ∈ fp := by exact of_decide_eq_true rfl) (hsilt : Part.silt ∈ fp := by exact of_decide_eq_true rfl) (htime : Part.time ∈ fp := by exact of_decide_eq_true rfl) (hsol : Part.sol ∈ fp := by exact of_decide_eq_true rfl) (hpower : Part.power ∈ fp := by exact of_decide_eq_true rfl) :
    ∃ t, execRefLate s = .next t ∧ Frame fp orig t := by
  refine ⟨_, rfl, ?_⟩
  repeat' first
    | intro _
    | with_reducible assumption
    | with_reducible apply State.refLate_frame
    | with_reducible apply onlyIf_frame
    | dsimp only
    | (with_reducible refine frame_mk ?_)

theorem execOasisBurst_frame (at_ : Nat) (hs : Frame fp orig s) (hdict : Part.dict ∈ fp := by exact of_decide_eq_true rfl) (htime : Part.time ∈ fp := by exact of_decide_eq_true rfl) (hpower : Part.power ∈ fp := by exact of_decide_eq_true rfl) :
    ∃ t, execOasisBurst at_ s = .next t ∧ Frame fp orig t := by
  refine ⟨_, rfl, ?_⟩
  repeat' first
    | intro _
    | with_reducible assumption
    | with_reducible apply State.oasisBurst_frame
    | with_reducible apply State.reach_frame
    | with_reducible apply onlyIf_frame
    | dsimp only
    | (with_reducible refine frame_mk ?_)

theorem execOasisBurstEnd_frame (e : EntryEnd) (at_ : Nat) (aon : Nat) (hs : Frame fp orig s) (hdict : Part.dict ∈ fp := by exact of_decide_eq_true rfl) (hstreams : Part.streams ∈ fp := by exact of_decide_eq_true rfl) (hsilt : Part.silt ∈ fp := by exact of_decide_eq_true rfl) (htime : Part.time ∈ fp := by exact of_decide_eq_true rfl) (hout : Part.out ∈ fp := by exact of_decide_eq_true rfl) (htmr : Part.tmr ∈ fp := by exact of_decide_eq_true rfl) (hslots : Part.slots ∈ fp := by exact of_decide_eq_true rfl) (herg : Part.erg ∈ fp := by exact of_decide_eq_true rfl) (hsol : Part.sol ∈ fp := by exact of_decide_eq_true rfl) (hports : Part.ports ∈ fp := by exact of_decide_eq_true rfl) (hnet : Part.net ∈ fp := by exact of_decide_eq_true rfl) (hprot : Part.prot ∈ fp := by exact of_decide_eq_true rfl) (hreader : Part.reader ∈ fp := by exact of_decide_eq_true rfl) (hpower : Part.power ∈ fp := by exact of_decide_eq_true rfl) :
    ∃ t, execOasisBurstEnd e at_ aon s = .next t ∧ Frame fp orig t := by
  refine ⟨_, rfl, ?_⟩
  repeat' first
    | intro _
    | with_reducible assumption
    | with_reducible apply State.oasisBurstEnd_frame
    | with_reducible apply State.reachAon_frame
    | with_reducible apply State.reach_frame
    | with_reducible apply onlyIf_frame
    | dsimp only
    | (with_reducible refine frame_mk ?_)

theorem execLevelFail_frame (at_ : Nat) (hs : Frame fp orig s) (hdict : Part.dict ∈ fp := by exact of_decide_eq_true rfl) (hsilt : Part.silt ∈ fp := by exact of_decide_eq_true rfl) (htime : Part.time ∈ fp := by exact of_decide_eq_true rfl) (hpower : Part.power ∈ fp := by exact of_decide_eq_true rfl) :
    ∃ t, execLevelFail at_ s = .next t ∧ Frame fp orig t := by
  refine ⟨_, rfl, ?_⟩
  repeat' first
    | intro _
    | with_reducible assumption
    | with_reducible apply State.levelFail_frame
    | with_reducible apply State.reach_frame
    | with_reducible apply onlyIf_frame
    | dsimp only
    | (with_reducible refine frame_mk ?_)

theorem execSourceLost_frame  (hs : Frame fp orig s) (hdict : Part.dict ∈ fp := by exact of_decide_eq_true rfl) (htime : Part.time ∈ fp := by exact of_decide_eq_true rfl) (hsol : Part.sol ∈ fp := by exact of_decide_eq_true rfl) :
    ∃ t, execSourceLost s = .next t ∧ Frame fp orig t := by
  refine ⟨_, rfl, ?_⟩
  repeat' first
    | intro _
    | with_reducible assumption
    | with_reducible apply State.sourceLost_frame
    | with_reducible apply onlyIf_frame
    | dsimp only
    | (with_reducible refine frame_mk ?_)

theorem execStep_frame  (hs : Frame fp orig s) (hdict : Part.dict ∈ fp := by exact of_decide_eq_true rfl) (hstreams : Part.streams ∈ fp := by exact of_decide_eq_true rfl) (hsilt : Part.silt ∈ fp := by exact of_decide_eq_true rfl) (htime : Part.time ∈ fp := by exact of_decide_eq_true rfl) (hout : Part.out ∈ fp := by exact of_decide_eq_true rfl) (hcpu : Part.cpu ∈ fp := by exact of_decide_eq_true rfl) (htmr : Part.tmr ∈ fp := by exact of_decide_eq_true rfl) (hrx : Part.rx ∈ fp := by exact of_decide_eq_true rfl) (hslots : Part.slots ∈ fp := by exact of_decide_eq_true rfl) (hnav : Part.nav ∈ fp := by exact of_decide_eq_true rfl) (herg : Part.erg ∈ fp := by exact of_decide_eq_true rfl) (hsol : Part.sol ∈ fp := by exact of_decide_eq_true rfl) (hports : Part.ports ∈ fp := by exact of_decide_eq_true rfl) (hnet : Part.net ∈ fp := by exact of_decide_eq_true rfl) (hlake : Part.lake ∈ fp := by exact of_decide_eq_true rfl) :
    ∃ t, execStep s = .next t ∧ Frame fp orig t := by
  refine ⟨_, rfl, ?_⟩
  repeat' first
    | intro _
    | with_reducible assumption
    | with_reducible apply State.pondStep_frame
    | with_reducible apply onlyIf_frame
    | dsimp only
    | (with_reducible refine frame_mk ?_)

theorem execReseed_frame (at_ : Nat) (hs : Frame fp orig s) (hdict : Part.dict ∈ fp := by exact of_decide_eq_true rfl) (hsilt : Part.silt ∈ fp := by exact of_decide_eq_true rfl) (htime : Part.time ∈ fp := by exact of_decide_eq_true rfl) :
    ∃ t, execReseed at_ s = .next t ∧ Frame fp orig t := by
  refine ⟨_, rfl, ?_⟩
  repeat' first
    | intro _
    | with_reducible assumption
    | with_reducible apply State.reseedCome_frame
    | with_reducible apply State.reach_frame
    | with_reducible apply onlyIf_frame
    | dsimp only
    | (with_reducible refine frame_mk ?_)

theorem execReseedTimeout_frame (at_ : Nat) (hs : Frame fp orig s) (hdict : Part.dict ∈ fp := by exact of_decide_eq_true rfl) (htime : Part.time ∈ fp := by exact of_decide_eq_true rfl) :
    ∃ t, execReseedTimeout at_ s = .next t ∧ Frame fp orig t := by
  refine ⟨_, rfl, ?_⟩
  repeat' first
    | intro _
    | with_reducible assumption
    | with_reducible apply State.reseedLate_frame
    | with_reducible apply State.reach_frame
    | with_reducible apply onlyIf_frame
    | dsimp only
    | (with_reducible refine frame_mk ?_)

theorem execReferenceLost_frame (at_ : Nat) (hs : Frame fp orig s) (hdict : Part.dict ∈ fp := by exact of_decide_eq_true rfl) (hsilt : Part.silt ∈ fp := by exact of_decide_eq_true rfl) (htime : Part.time ∈ fp := by exact of_decide_eq_true rfl) (hsol : Part.sol ∈ fp := by exact of_decide_eq_true rfl) (hreader : Part.reader ∈ fp := by exact of_decide_eq_true rfl) (hpower : Part.power ∈ fp := by exact of_decide_eq_true rfl) :
    ∃ t, execReferenceLost at_ s = .next t ∧ Frame fp orig t := by
  refine ⟨_, rfl, ?_⟩
  repeat' first
    | intro _
    | with_reducible assumption
    | with_reducible apply State.refLost_frame
    | with_reducible apply State.reach_frame
    | with_reducible apply onlyIf_frame
    | dsimp only
    | (with_reducible refine frame_mk ?_)

theorem execReferenceReturning_frame (at_ : Nat) (hs : Frame fp orig s) (hdict : Part.dict ∈ fp := by exact of_decide_eq_true rfl) (htime : Part.time ∈ fp := by exact of_decide_eq_true rfl) :
    ∃ t, execReferenceReturning at_ s = .next t ∧ Frame fp orig t := by
  refine ⟨_, rfl, ?_⟩
  repeat' first
    | intro _
    | with_reducible assumption
    | with_reducible apply State.refReturns_frame
    | with_reducible apply State.reach_frame
    | with_reducible apply onlyIf_frame
    | dsimp only
    | (with_reducible refine frame_mk ?_)

theorem execReferenceValid_frame (at_ : Nat) (hs : Frame fp orig s) (hdict : Part.dict ∈ fp := by exact of_decide_eq_true rfl) (htime : Part.time ∈ fp := by exact of_decide_eq_true rfl) (hreader : Part.reader ∈ fp := by exact of_decide_eq_true rfl) :
    ∃ t, execReferenceValid at_ s = .next t ∧ Frame fp orig t := by
  refine ⟨_, rfl, ?_⟩
  repeat' first
    | intro _
    | with_reducible assumption
    | with_reducible apply State.refValid_frame
    | with_reducible apply State.reach_frame
    | with_reducible apply onlyIf_frame
    | dsimp only
    | (with_reducible refine frame_mk ?_)

theorem execTimePulseEdge_frame (p : Nat) (g : Nat) (hs : Frame fp orig s) (hdict : Part.dict ∈ fp := by exact of_decide_eq_true rfl) (htime : Part.time ∈ fp := by exact of_decide_eq_true rfl) (hout : Part.out ∈ fp := by exact of_decide_eq_true rfl) :
    ∃ t, execTimePulseEdge p g s = .next t ∧ Frame fp orig t := by
  refine ⟨_, rfl, ?_⟩
  repeat' first
    | intro _
    | with_reducible assumption
    | with_reducible apply State.tpEdge_frame
    | with_reducible apply State.reach_frame
    | with_reducible apply onlyIf_frame
    | (extract_lets +onlyGivenNames -underBinder x; first | (refine frame_cut (fp := fp) (orig := orig) (x := x) ?_ ?_ <;> first | (intro h0; generalize x = y at h0 ⊢; clear x) | intro h0 | subst x) | (have h0 := Nat.zero_le x; generalize x = y at h0 ⊢; clear h0 x) | subst x)
    | dsimp only
    | (with_reducible refine frame_mk ?_)

theorem execPulseWidthEnd_frame (p : Nat) (hs : Frame fp orig s) (htime : Part.time ∈ fp := by exact of_decide_eq_true rfl) (hout : Part.out ∈ fp := by exact of_decide_eq_true rfl) :
    ∃ t, execPulseWidthEnd p s = .next t ∧ Frame fp orig t := by
  refine ⟨_, rfl, ?_⟩
  repeat' first
    | intro _
    | with_reducible assumption
    | with_reducible apply State.tpEnd_frame
    | with_reducible apply State.reach_frame
    | with_reducible apply onlyIf_frame
    | dsimp only
    | (with_reducible refine frame_mk ?_)

theorem execClockRealign_frame (c : Nat) (g : Nat) (hs : Frame fp orig s) (hdict : Part.dict ∈ fp := by exact of_decide_eq_true rfl) (htime : Part.time ∈ fp := by exact of_decide_eq_true rfl) (hout : Part.out ∈ fp := by exact of_decide_eq_true rfl) :
    ∃ t, execClockRealign c g s = .next t ∧ Frame fp orig t := by
  refine ⟨_, rfl, ?_⟩
  repeat' first
    | intro _
    | with_reducible assumption
    | with_reducible apply State.ckoAlign_frame
    | with_reducible apply State.reach_frame
    | with_reducible apply onlyIf_frame
    | (extract_lets +onlyGivenNames -underBinder x; first | (refine frame_cut (fp := fp) (orig := orig) (x := x) ?_ ?_ <;> first | (intro h0; generalize x = y at h0 ⊢; clear x) | intro h0 | subst x) | (have h0 := Nat.zero_le x; generalize x = y at h0 ⊢; clear h0 x) | subst x)
    | dsimp only
    | (with_reducible refine frame_mk ?_)

theorem execPhaseResidualMeasure_frame (c : Nat) (r : Int) (at_ : Nat) (hs : Frame fp orig s) (hdict : Part.dict ∈ fp := by exact of_decide_eq_true rfl) (htime : Part.time ∈ fp := by exact of_decide_eq_true rfl) :
    ∃ t, execPhaseResidualMeasure c r at_ s = .next t ∧ Frame fp orig t := by
  refine ⟨_, rfl, ?_⟩
  repeat' first
    | intro _
    | with_reducible assumption
    | with_reducible apply State.ckoResidual_frame
    | with_reducible apply State.reach_frame
    | with_reducible apply onlyIf_frame
    | dsimp only
    | (with_reducible refine frame_mk ?_)

theorem execTodMessage_frame (sec : Nat) (hs : Frame fp orig s) (hdict : Part.dict ∈ fp := by exact of_decide_eq_true rfl) (htime : Part.time ∈ fp := by exact of_decide_eq_true rfl) (hout : Part.out ∈ fp := by exact of_decide_eq_true rfl) :
    ∃ t, execTodMessage sec s = .next t ∧ Frame fp orig t := by
  refine ⟨_, rfl, ?_⟩
  repeat' first
    | intro _
    | with_reducible assumption
    | with_reducible apply State.todSend_frame
    | with_reducible apply State.reach_frame
    | with_reducible apply onlyIf_frame
    | (extract_lets +onlyGivenNames -underBinder x; first | (refine frame_cut (fp := fp) (orig := orig) (x := x) ?_ ?_ <;> first | (intro h0; generalize x = y at h0 ⊢; clear x) | intro h0 | subst x) | (have h0 := Nat.zero_le x; generalize x = y at h0 ⊢; clear h0 x) | subst x)
    | dsimp only
    | (with_reducible refine frame_mk ?_)

theorem execIrigBFrame_frame (sec : Nat) (hs : Frame fp orig s) (hdict : Part.dict ∈ fp := by exact of_decide_eq_true rfl) (htime : Part.time ∈ fp := by exact of_decide_eq_true rfl) (hout : Part.out ∈ fp := by exact of_decide_eq_true rfl) :
    ∃ t, execIrigBFrame sec s = .next t ∧ Frame fp orig t := by
  refine ⟨_, rfl, ?_⟩
  repeat' first
    | intro _
    | with_reducible assumption
    | with_reducible apply State.irigSend_frame
    | with_reducible apply State.reach_frame
    | with_reducible apply onlyIf_frame
    | (extract_lets +onlyGivenNames -underBinder x; first | (refine frame_cut (fp := fp) (orig := orig) (x := x) ?_ ?_ <;> first | (intro h0; generalize x = y at h0 ⊢; clear x) | intro h0 | subst x) | (have h0 := Nat.zero_le x; generalize x = y at h0 ⊢; clear h0 x) | subst x)
    | dsimp only
    | (with_reducible refine frame_mk ?_)

theorem execLoopUpdate_frame (n : Nat) (at_ : Nat) (hs : Frame fp orig s) (hdict : Part.dict ∈ fp := by exact of_decide_eq_true rfl) (hfree : Part.free ∈ fp := by exact of_decide_eq_true rfl) (htime : Part.time ∈ fp := by exact of_decide_eq_true rfl) (hcpu : Part.cpu ∈ fp := by exact of_decide_eq_true rfl) (hslots : Part.slots ∈ fp := by exact of_decide_eq_true rfl) (hnav : Part.nav ∈ fp := by exact of_decide_eq_true rfl) (hports : Part.ports ∈ fp := by exact of_decide_eq_true rfl) (hnet : Part.net ∈ fp := by exact of_decide_eq_true rfl) :
    ∃ t, execLoopUpdate n at_ s = .next t ∧ Frame fp orig t := by
  refine ⟨_, rfl, ?_⟩
  repeat' first
    | intro _
    | with_reducible assumption
    | with_reducible apply State.blocksSend_frame
    | with_reducible apply State.loopUpdate_frame
    | with_reducible apply State.reach_frame
    | with_reducible apply onlyIf_frame
    | (extract_lets +onlyGivenNames -underBinder x; first | (refine frame_cut (fp := fp) (orig := orig) (x := x) ?_ ?_ <;> first | (intro h0; generalize x = y at h0 ⊢; clear x) | intro h0 | subst x) | (have h0 := Nat.zero_le x; generalize x = y at h0 ⊢; clear h0 x) | subst x)
    | dsimp only
    | (with_reducible refine frame_mk ?_)

theorem execPredictedBlock_frame (n : Nat) (e : Nat) (part : Nat) (start : Nat) (at_ : Nat) (hs : Frame fp orig s) (hdict : Part.dict ∈ fp := by exact of_decide_eq_true rfl) (htime : Part.time ∈ fp := by exact of_decide_eq_true rfl) (hnav : Part.nav ∈ fp := by exact of_decide_eq_true rfl) (hports : Part.ports ∈ fp := by exact of_decide_eq_true rfl) (hnet : Part.net ∈ fp := by exact of_decide_eq_true rfl) :
    ∃ t, execPredictedBlock n e part start at_ s = .next t ∧ Frame fp orig t := by
  refine ⟨_, rfl, ?_⟩
  repeat' first
    | intro _
    | with_reducible assumption
    | with_reducible apply State.blocksSend_frame
    | with_reducible apply State.predictedBlock_frame
    | with_reducible apply State.reach_frame
    | with_reducible apply onlyIf_frame
    | (extract_lets +onlyGivenNames -underBinder x; first | (refine frame_cut (fp := fp) (orig := orig) (x := x) ?_ ?_ <;> first | (intro h0; generalize x = y at h0 ⊢; clear x) | intro h0 | subst x) | (have h0 := Nat.zero_le x; generalize x = y at h0 ⊢; clear h0 x) | subst x)
    | dsimp only
    | (with_reducible refine frame_mk ?_)

theorem execSolution_frame (at_ : Nat) (hs : Frame fp orig s) (hdict : Part.dict ∈ fp := by exact of_decide_eq_true rfl) (hstreams : Part.streams ∈ fp := by exact of_decide_eq_true rfl) (hsilt : Part.silt ∈ fp := by exact of_decide_eq_true rfl) (hfree : Part.free ∈ fp := by exact of_decide_eq_true rfl) (htime : Part.time ∈ fp := by exact of_decide_eq_true rfl) (herg : Part.erg ∈ fp := by exact of_decide_eq_true rfl) (hsol : Part.sol ∈ fp := by exact of_decide_eq_true rfl) (hports : Part.ports ∈ fp := by exact of_decide_eq_true rfl) :
    ∃ t, execSolution at_ s = .next t ∧ Frame fp orig t := by
  refine ⟨_, rfl, ?_⟩
  repeat' first
    | intro _
    | with_reducible assumption
    | with_reducible apply State.solution_frame
    | with_reducible apply State.asymSee_frame
    | with_reducible apply State.reach_frame
    | with_reducible apply onlyIf_frame
    | with_reducible apply frame_ite
    | (extract_lets +onlyGivenNames -underBinder x; first | (refine frame_cut (fp := fp) (orig := orig) (x := x) ?_ ?_ <;> first | (intro h0; generalize x = y at h0 ⊢; clear x) | intro h0 | subst x) | (have h0 := Nat.zero_le x; generalize x = y at h0 ⊢; clear h0 x) | subst x)
    | split
    | dsimp only
    | (with_reducible refine frame_mk ?_)

theorem execTick_frame (i : TickIn) (hs : Frame fp orig s) (hdict : Part.dict ∈ fp := by exact of_decide_eq_true rfl) (hstreams : Part.streams ∈ fp := by exact of_decide_eq_true rfl) (hsilt : Part.silt ∈ fp := by exact of_decide_eq_true rfl) (hhost : Part.host ∈ fp := by exact of_decide_eq_true rfl) (hfree : Part.free ∈ fp := by exact of_decide_eq_true rfl) (htime : Part.time ∈ fp := by exact of_decide_eq_true rfl) (hout : Part.out ∈ fp := by exact of_decide_eq_true rfl) (hcpu : Part.cpu ∈ fp := by exact of_decide_eq_true rfl) (htmr : Part.tmr ∈ fp := by exact of_decide_eq_true rfl) (hrx : Part.rx ∈ fp := by exact of_decide_eq_true rfl) (hslots : Part.slots ∈ fp := by exact of_decide_eq_true rfl) (hnav : Part.nav ∈ fp := by exact of_decide_eq_true rfl) (herg : Part.erg ∈ fp := by exact of_decide_eq_true rfl) (hsol : Part.sol ∈ fp := by exact of_decide_eq_true rfl) (hports : Part.ports ∈ fp := by exact of_decide_eq_true rfl) (hnet : Part.net ∈ fp := by exact of_decide_eq_true rfl) (hprot : Part.prot ∈ fp := by exact of_decide_eq_true rfl) (hlake : Part.lake ∈ fp := by exact of_decide_eq_true rfl) (hreader : Part.reader ∈ fp := by exact of_decide_eq_true rfl) (hpower : Part.power ∈ fp := by exact of_decide_eq_true rfl) (hboot : Part.boot ∈ fp := by exact of_decide_eq_true rfl) :
    ∃ t, execTick i s = .next t ∧ Frame fp orig t := by
  refine ⟨_, rfl, ?_⟩
  repeat' first
    | intro _
    | with_reducible assumption
    | with_reducible apply State.tick_frame
    | with_reducible apply onlyIf_frame
    | dsimp only
    | (with_reducible refine frame_mk ?_)

theorem execDumpReady_frame  (hs : Frame fp orig s) (htime : Part.time ∈ fp := by exact of_decide_eq_true rfl) (hcpu : Part.cpu ∈ fp := by exact of_decide_eq_true rfl) :
    ∃ t, execDumpReady s = .next t ∧ Frame fp orig t := by
  refine ⟨_, rfl, ?_⟩
  repeat' first
    | intro _
    | with_reducible assumption
    | with_reducible apply State.dumpReady_frame
    | with_reducible apply onlyIf_frame
    | dsimp only
    | (with_reducible refine frame_mk ?_)

theorem execBudgetDeadline_frame  (hs : Frame fp orig s) (hdict : Part.dict ∈ fp := by exact of_decide_eq_true rfl) (htime : Part.time ∈ fp := by exact of_decide_eq_true rfl) (hcpu : Part.cpu ∈ fp := by exact of_decide_eq_true rfl) (hslots : Part.slots ∈ fp := by exact of_decide_eq_true rfl) (hsol : Part.sol ∈ fp := by exact of_decide_eq_true rfl) :
    ∃ t, execBudgetDeadline s = .next t ∧ Frame fp orig t := by
  refine ⟨_, rfl, ?_⟩
  repeat' first
    | intro _
    | with_reducible assumption
    | with_reducible apply State.budgetDeadline_frame
    | with_reducible apply onlyIf_frame
    | dsimp only
    | (with_reducible refine frame_mk ?_)

theorem execHardStop_frame  (hs : Frame fp orig s) (hdict : Part.dict ∈ fp := by exact of_decide_eq_true rfl) (htime : Part.time ∈ fp := by exact of_decide_eq_true rfl) (hcpu : Part.cpu ∈ fp := by exact of_decide_eq_true rfl) :
    ∃ t, execHardStop s = .next t ∧ Frame fp orig t := by
  refine ⟨_, rfl, ?_⟩
  repeat' first
    | intro _
    | with_reducible assumption
    | with_reducible apply State.hardStop_frame
    | with_reducible apply onlyIf_frame
    | dsimp only
    | (with_reducible refine frame_mk ?_)

theorem execUserBudgetExhausted_frame (at_ : Nat) (hs : Frame fp orig s) (hdict : Part.dict ∈ fp := by exact of_decide_eq_true rfl) (htime : Part.time ∈ fp := by exact of_decide_eq_true rfl) (hcpu : Part.cpu ∈ fp := by exact of_decide_eq_true rfl) :
    ∃ t, execUserBudgetExhausted at_ s = .next t ∧ Frame fp orig t := by
  refine ⟨_, rfl, ?_⟩
  repeat' first
    | intro _
    | with_reducible assumption
    | with_reducible apply State.userBudget_frame
    | with_reducible apply State.reach_frame
    | with_reducible apply onlyIf_frame
    | dsimp only
    | (with_reducible refine frame_mk ?_)

theorem execUserHardStop_frame (at_ : Nat) (hs : Frame fp orig s) (hdict : Part.dict ∈ fp := by exact of_decide_eq_true rfl) (htime : Part.time ∈ fp := by exact of_decide_eq_true rfl) (hcpu : Part.cpu ∈ fp := by exact of_decide_eq_true rfl) :
    ∃ t, execUserHardStop at_ s = .next t ∧ Frame fp orig t := by
  refine ⟨_, rfl, ?_⟩
  repeat' first
    | intro _
    | with_reducible assumption
    | with_reducible apply State.userHardStop_frame
    | with_reducible apply State.reach_frame
    | with_reducible apply onlyIf_frame
    | dsimp only
    | (with_reducible refine frame_mk ?_)

theorem execShedStep_frame  (hs : Frame fp orig s) (hdict : Part.dict ∈ fp := by exact of_decide_eq_true rfl) (hcpu : Part.cpu ∈ fp := by exact of_decide_eq_true rfl) (hslots : Part.slots ∈ fp := by exact of_decide_eq_true rfl) (hnav : Part.nav ∈ fp := by exact of_decide_eq_true rfl) :
    ∃ t, execShedStep s = .next t ∧ Frame fp orig t := by
  refine ⟨_, rfl, ?_⟩
  repeat' first
    | intro _
    | with_reducible assumption
    | with_reducible apply State.shedStep_frame
    | with_reducible apply onlyIf_frame
    | dsimp only
    | (with_reducible refine frame_mk ?_)

theorem execTaskMigration_frame (tasks : Nat) (hs : Frame fp orig s) (hdict : Part.dict ∈ fp := by exact of_decide_eq_true rfl) (hcpu : Part.cpu ∈ fp := by exact of_decide_eq_true rfl) (hslots : Part.slots ∈ fp := by exact of_decide_eq_true rfl) (hnav : Part.nav ∈ fp := by exact of_decide_eq_true rfl) :
    ∃ t, execTaskMigration tasks s = .next t ∧ Frame fp orig t := by
  refine ⟨_, rfl, ?_⟩
  repeat' first
    | intro _
    | with_reducible assumption
    | with_reducible apply State.taskMigration_frame
    | with_reducible apply onlyIf_frame
    | dsimp only
    | (with_reducible refine frame_mk ?_)

theorem execSelfCheck_frame (failed : List Nat) (at_ : Nat) (hs : Frame fp orig s) (hdict : Part.dict ∈ fp := by exact of_decide_eq_true rfl) (hsilt : Part.silt ∈ fp := by exact of_decide_eq_true rfl) (htime : Part.time ∈ fp := by exact of_decide_eq_true rfl) (hcpu : Part.cpu ∈ fp := by exact of_decide_eq_true rfl) (hnet : Part.net ∈ fp := by exact of_decide_eq_true rfl) (hboot : Part.boot ∈ fp := by exact of_decide_eq_true rfl) :
    ∃ t, execSelfCheck failed at_ s = .next t ∧ Frame fp orig t := by
  refine ⟨_, rfl, ?_⟩
  repeat' first
    | intro _
    | with_reducible assumption
    | with_reducible apply State.selfCheck_frame
    | with_reducible apply State.reach_frame
    | with_reducible apply onlyIf_frame
    | dsimp only
    | (with_reducible refine frame_mk ?_)

theorem execWakeRetry_frame (i : StartIn) (aon : Nat) (hs : Frame fp orig s) (hdict : Part.dict ∈ fp := by exact of_decide_eq_true rfl) (hstreams : Part.streams ∈ fp := by exact of_decide_eq_true rfl) (hsilt : Part.silt ∈ fp := by exact of_decide_eq_true rfl) (hmspi : Part.mspi ∈ fp := by exact of_decide_eq_true rfl) (hhost : Part.host ∈ fp := by exact of_decide_eq_true rfl) (htime : Part.time ∈ fp := by exact of_decide_eq_true rfl) (hout : Part.out ∈ fp := by exact of_decide_eq_true rfl) (hcpu : Part.cpu ∈ fp := by exact of_decide_eq_true rfl) (htmr : Part.tmr ∈ fp := by exact of_decide_eq_true rfl) (hrx : Part.rx ∈ fp := by exact of_decide_eq_true rfl) (hslots : Part.slots ∈ fp := by exact of_decide_eq_true rfl) (hnav : Part.nav ∈ fp := by exact of_decide_eq_true rfl) (herg : Part.erg ∈ fp := by exact of_decide_eq_true rfl) (hsol : Part.sol ∈ fp := by exact of_decide_eq_true rfl) (hports : Part.ports ∈ fp := by exact of_decide_eq_true rfl) (hnet : Part.net ∈ fp := by exact of_decide_eq_true rfl) (hprot : Part.prot ∈ fp := by exact of_decide_eq_true rfl) (hlake : Part.lake ∈ fp := by exact of_decide_eq_true rfl) (hreader : Part.reader ∈ fp := by exact of_decide_eq_true rfl) (hpower : Part.power ∈ fp := by exact of_decide_eq_true rfl) (hboot : Part.boot ∈ fp := by exact of_decide_eq_true rfl) (hjtag : Part.jtag ∈ fp := by exact of_decide_eq_true rfl) :
    ∃ t, execWakeRetry i aon s = .next t ∧ Frame fp orig t := by
  refine ⟨_, rfl, ?_⟩
  repeat' first
    | intro _
    | with_reducible assumption
    | with_reducible apply State.wakeRetry_frame
    | with_reducible apply State.reachAon_frame
    | with_reducible apply onlyIf_frame
    | dsimp only
    | (with_reducible refine frame_mk ?_)

theorem execPowerUp_frame (wake : Nat) (i : StartIn) (aon : Nat) (hs : Frame fp orig s) (hdict : Part.dict ∈ fp := by exact of_decide_eq_true rfl) (hstreams : Part.streams ∈ fp := by exact of_decide_eq_true rfl) (hsilt : Part.silt ∈ fp := by exact of_decide_eq_true rfl) (hmspi : Part.mspi ∈ fp := by exact of_decide_eq_true rfl) (hhost : Part.host ∈ fp := by exact of_decide_eq_true rfl) (htime : Part.time ∈ fp := by exact of_decide_eq_true rfl) (hout : Part.out ∈ fp := by exact of_decide_eq_true rfl) (hcpu : Part.cpu ∈ fp := by exact of_decide_eq_true rfl) (htmr : Part.tmr ∈ fp := by exact of_decide_eq_true rfl) (hrx : Part.rx ∈ fp := by exact of_decide_eq_true rfl) (hslots : Part.slots ∈ fp := by exact of_decide_eq_true rfl) (hnav : Part.nav ∈ fp := by exact of_decide_eq_true rfl) (herg : Part.erg ∈ fp := by exact of_decide_eq_true rfl) (hsol : Part.sol ∈ fp := by exact of_decide_eq_true rfl) (hports : Part.ports ∈ fp := by exact of_decide_eq_true rfl) (hnet : Part.net ∈ fp := by exact of_decide_eq_true rfl) (hprot : Part.prot ∈ fp := by exact of_decide_eq_true rfl) (hlake : Part.lake ∈ fp := by exact of_decide_eq_true rfl) (hreader : Part.reader ∈ fp := by exact of_decide_eq_true rfl) (hpower : Part.power ∈ fp := by exact of_decide_eq_true rfl) (hboot : Part.boot ∈ fp := by exact of_decide_eq_true rfl) (hjtag : Part.jtag ∈ fp := by exact of_decide_eq_true rfl) :
    ∃ t, execPowerUp wake i aon s = .next t ∧ Frame fp orig t := by
  refine ⟨_, rfl, ?_⟩
  repeat' first
    | intro _
    | with_reducible assumption
    | with_reducible apply State.powerStart_frame
    | with_reducible apply State.reachAon_frame
    | with_reducible apply onlyIf_frame
    | dsimp only
    | (with_reducible refine frame_mk ?_)

theorem execRstN_frame (ns : Nat) (i : StartIn) (aon : Nat) (hs : Frame fp orig s) (hdict : Part.dict ∈ fp := by exact of_decide_eq_true rfl) (hstreams : Part.streams ∈ fp := by exact of_decide_eq_true rfl) (hsilt : Part.silt ∈ fp := by exact of_decide_eq_true rfl) (hmspi : Part.mspi ∈ fp := by exact of_decide_eq_true rfl) (hhost : Part.host ∈ fp := by exact of_decide_eq_true rfl) (htime : Part.time ∈ fp := by exact of_decide_eq_true rfl) (hout : Part.out ∈ fp := by exact of_decide_eq_true rfl) (hcpu : Part.cpu ∈ fp := by exact of_decide_eq_true rfl) (htmr : Part.tmr ∈ fp := by exact of_decide_eq_true rfl) (hrx : Part.rx ∈ fp := by exact of_decide_eq_true rfl) (hslots : Part.slots ∈ fp := by exact of_decide_eq_true rfl) (hnav : Part.nav ∈ fp := by exact of_decide_eq_true rfl) (herg : Part.erg ∈ fp := by exact of_decide_eq_true rfl) (hsol : Part.sol ∈ fp := by exact of_decide_eq_true rfl) (hports : Part.ports ∈ fp := by exact of_decide_eq_true rfl) (hnet : Part.net ∈ fp := by exact of_decide_eq_true rfl) (hprot : Part.prot ∈ fp := by exact of_decide_eq_true rfl) (hlake : Part.lake ∈ fp := by exact of_decide_eq_true rfl) (hreader : Part.reader ∈ fp := by exact of_decide_eq_true rfl) (hpower : Part.power ∈ fp := by exact of_decide_eq_true rfl) (hboot : Part.boot ∈ fp := by exact of_decide_eq_true rfl) (hjtag : Part.jtag ∈ fp := by exact of_decide_eq_true rfl) :
    ∃ t, execRstN ns i aon s = .next t ∧ Frame fp orig t := by
  refine ⟨_, rfl, ?_⟩
  repeat' first
    | intro _
    | with_reducible assumption
    | with_reducible apply State.rstN_frame
    | with_reducible apply State.reachAon_frame
    | with_reducible apply onlyIf_frame
    | dsimp only
    | (with_reducible refine frame_mk ?_)

theorem execWatchdog_frame  (hs : Frame fp orig s) (hdict : Part.dict ∈ fp := by exact of_decide_eq_true rfl) (hboot : Part.boot ∈ fp := by exact of_decide_eq_true rfl) :
    ∃ t, execWatchdog s = .next t ∧ Frame fp orig t := by
  refine ⟨_, rfl, ?_⟩
  repeat' first
    | intro _
    | with_reducible assumption
    | with_reducible apply State.watchdog_frame
    | with_reducible apply onlyIf_frame
    | dsimp only
    | (with_reducible refine frame_mk ?_)

theorem execWarmReset_frame (i : StartIn) (at_ : Nat) (hs : Frame fp orig s) (hdict : Part.dict ∈ fp := by exact of_decide_eq_true rfl) (hstreams : Part.streams ∈ fp := by exact of_decide_eq_true rfl) (hsilt : Part.silt ∈ fp := by exact of_decide_eq_true rfl) (hmspi : Part.mspi ∈ fp := by exact of_decide_eq_true rfl) (hhost : Part.host ∈ fp := by exact of_decide_eq_true rfl) (htime : Part.time ∈ fp := by exact of_decide_eq_true rfl) (hout : Part.out ∈ fp := by exact of_decide_eq_true rfl) (hcpu : Part.cpu ∈ fp := by exact of_decide_eq_true rfl) (htmr : Part.tmr ∈ fp := by exact of_decide_eq_true rfl) (hrx : Part.rx ∈ fp := by exact of_decide_eq_true rfl) (hslots : Part.slots ∈ fp := by exact of_decide_eq_true rfl) (hnav : Part.nav ∈ fp := by exact of_decide_eq_true rfl) (herg : Part.erg ∈ fp := by exact of_decide_eq_true rfl) (hsol : Part.sol ∈ fp := by exact of_decide_eq_true rfl) (hports : Part.ports ∈ fp := by exact of_decide_eq_true rfl) (hnet : Part.net ∈ fp := by exact of_decide_eq_true rfl) (hprot : Part.prot ∈ fp := by exact of_decide_eq_true rfl) (hlake : Part.lake ∈ fp := by exact of_decide_eq_true rfl) (hreader : Part.reader ∈ fp := by exact of_decide_eq_true rfl) (hpower : Part.power ∈ fp := by exact of_decide_eq_true rfl) (hboot : Part.boot ∈ fp := by exact of_decide_eq_true rfl) :
    ∃ t, execWarmReset i at_ s = .next t ∧ Frame fp orig t := by
  refine ⟨_, rfl, ?_⟩
  repeat' first
    | intro _
    | with_reducible assumption
    | with_reducible apply State.warmDue_frame
    | with_reducible apply State.reach_frame
    | with_reducible apply onlyIf_frame
    | dsimp only
    | (with_reducible refine frame_mk ?_)

theorem execColdReset_frame (i : StartIn) (hs : Frame fp orig s) (hdict : Part.dict ∈ fp := by exact of_decide_eq_true rfl) (hstreams : Part.streams ∈ fp := by exact of_decide_eq_true rfl) (hsilt : Part.silt ∈ fp := by exact of_decide_eq_true rfl) (hmspi : Part.mspi ∈ fp := by exact of_decide_eq_true rfl) (hhost : Part.host ∈ fp := by exact of_decide_eq_true rfl) (htime : Part.time ∈ fp := by exact of_decide_eq_true rfl) (hout : Part.out ∈ fp := by exact of_decide_eq_true rfl) (hcpu : Part.cpu ∈ fp := by exact of_decide_eq_true rfl) (htmr : Part.tmr ∈ fp := by exact of_decide_eq_true rfl) (hrx : Part.rx ∈ fp := by exact of_decide_eq_true rfl) (hslots : Part.slots ∈ fp := by exact of_decide_eq_true rfl) (hnav : Part.nav ∈ fp := by exact of_decide_eq_true rfl) (herg : Part.erg ∈ fp := by exact of_decide_eq_true rfl) (hsol : Part.sol ∈ fp := by exact of_decide_eq_true rfl) (hports : Part.ports ∈ fp := by exact of_decide_eq_true rfl) (hnet : Part.net ∈ fp := by exact of_decide_eq_true rfl) (hprot : Part.prot ∈ fp := by exact of_decide_eq_true rfl) (hlake : Part.lake ∈ fp := by exact of_decide_eq_true rfl) (hreader : Part.reader ∈ fp := by exact of_decide_eq_true rfl) (hpower : Part.power ∈ fp := by exact of_decide_eq_true rfl) (hboot : Part.boot ∈ fp := by exact of_decide_eq_true rfl) :
    ∃ t, execColdReset i s = .next t ∧ Frame fp orig t := by
  refine ⟨_, rfl, ?_⟩
  repeat' first
    | intro _
    | with_reducible assumption
    | with_reducible apply State.coldDue_frame
    | with_reducible apply onlyIf_frame
    | dsimp only
    | (with_reducible refine frame_mk ?_)

theorem execSupplyDrop_frame (mask : Nat) (at_ : Nat) (hs : Frame fp orig s) (hdict : Part.dict ∈ fp := by exact of_decide_eq_true rfl) (hstreams : Part.streams ∈ fp := by exact of_decide_eq_true rfl) (hsilt : Part.silt ∈ fp := by exact of_decide_eq_true rfl) (htime : Part.time ∈ fp := by exact of_decide_eq_true rfl) (hout : Part.out ∈ fp := by exact of_decide_eq_true rfl) (hrx : Part.rx ∈ fp := by exact of_decide_eq_true rfl) (hports : Part.ports ∈ fp := by exact of_decide_eq_true rfl) (hnet : Part.net ∈ fp := by exact of_decide_eq_true rfl) (hreader : Part.reader ∈ fp := by exact of_decide_eq_true rfl) (hpower : Part.power ∈ fp := by exact of_decide_eq_true rfl) (hboot : Part.boot ∈ fp := by exact of_decide_eq_true rfl) :
    ∃ t, execSupplyDrop mask at_ s = .next t ∧ Frame fp orig t := by
  refine ⟨_, rfl, ?_⟩
  repeat' first
    | intro _
    | with_reducible assumption
    | with_reducible apply State.supplyDrop_frame
    | with_reducible apply State.reach_frame
    | with_reducible apply onlyIf_frame
    | dsimp only
    | (with_reducible refine frame_mk ?_)

theorem execFirmwareStart_frame  (hs : Frame fp orig s) (hdict : Part.dict ∈ fp := by exact of_decide_eq_true rfl) (hsilt : Part.silt ∈ fp := by exact of_decide_eq_true rfl) (htime : Part.time ∈ fp := by exact of_decide_eq_true rfl) (hout : Part.out ∈ fp := by exact of_decide_eq_true rfl) (hcpu : Part.cpu ∈ fp := by exact of_decide_eq_true rfl) (hrx : Part.rx ∈ fp := by exact of_decide_eq_true rfl) (hslots : Part.slots ∈ fp := by exact of_decide_eq_true rfl) (hnav : Part.nav ∈ fp := by exact of_decide_eq_true rfl) (hsol : Part.sol ∈ fp := by exact of_decide_eq_true rfl) (hports : Part.ports ∈ fp := by exact of_decide_eq_true rfl) (hnet : Part.net ∈ fp := by exact of_decide_eq_true rfl) (hreader : Part.reader ∈ fp := by exact of_decide_eq_true rfl) (hpower : Part.power ∈ fp := by exact of_decide_eq_true rfl) (hboot : Part.boot ∈ fp := by exact of_decide_eq_true rfl) :
    ∃ t, execFirmwareStart s = .next t ∧ Frame fp orig t := by
  refine ⟨_, rfl, ?_⟩
  repeat' first
    | intro _
    | with_reducible assumption
    | with_reducible apply State.firmwareStart_frame
    | with_reducible apply onlyIf_frame
    | dsimp only
    | (with_reducible refine frame_mk ?_)

theorem execBootWaitExpiry_frame  (hs : Frame fp orig s) (hports : Part.ports ∈ fp := by exact of_decide_eq_true rfl) (hboot : Part.boot ∈ fp := by exact of_decide_eq_true rfl) :
    ∃ t, execBootWaitExpiry s = .next t ∧ Frame fp orig t := by
  refine ⟨_, rfl, ?_⟩
  repeat' first
    | intro _
    | with_reducible assumption
    | with_reducible apply State.bootWaitOver_frame
    | with_reducible apply onlyIf_frame
    | dsimp only
    | (with_reducible refine frame_mk ?_)

theorem execImageVerifyDone_frame (flash : List Nat) (hs : Frame fp orig s) (hdict : Part.dict ∈ fp := by exact of_decide_eq_true rfl) (hsilt : Part.silt ∈ fp := by exact of_decide_eq_true rfl) (hcpu : Part.cpu ∈ fp := by exact of_decide_eq_true rfl) (hports : Part.ports ∈ fp := by exact of_decide_eq_true rfl) (hboot : Part.boot ∈ fp := by exact of_decide_eq_true rfl) :
    ∃ t, execImageVerifyDone flash s = .next t ∧ Frame fp orig t := by
  refine ⟨_, rfl, ?_⟩
  repeat' first
    | intro _
    | with_reducible assumption
    | with_reducible apply State.imageVerified_frame
    | with_reducible apply onlyIf_frame
    | dsimp only
    | (with_reducible refine frame_mk ?_)

theorem execSupplyReturn_frame (mask : Nat) (banks : Nat) (hs : Frame fp orig s) (hdict : Part.dict ∈ fp := by exact of_decide_eq_true rfl) (hstreams : Part.streams ∈ fp := by exact of_decide_eq_true rfl) (hrx : Part.rx ∈ fp := by exact of_decide_eq_true rfl) (hports : Part.ports ∈ fp := by exact of_decide_eq_true rfl) (hnet : Part.net ∈ fp := by exact of_decide_eq_true rfl) :
    ∃ t, execSupplyReturn mask banks s = .next t ∧ Frame fp orig t := by
  refine ⟨_, rfl, ?_⟩
  repeat' first
    | intro _
    | with_reducible assumption
    | with_reducible apply State.supplyReturn_frame
    | with_reducible apply onlyIf_frame
    | dsimp only
    | (with_reducible refine frame_mk ?_)

theorem execPllLock_frame  (hs : Frame fp orig s) (htime : Part.time ∈ fp := by exact of_decide_eq_true rfl) (hpower : Part.power ∈ fp := by exact of_decide_eq_true rfl) :
    ∃ t, execPllLock s = .next t ∧ Frame fp orig t := by
  refine ⟨_, rfl, ?_⟩
  repeat' first
    | intro _
    | with_reducible assumption
    | with_reducible apply State.pllLock_frame
    | with_reducible apply onlyIf_frame
    | dsimp only
    | (with_reducible refine frame_mk ?_)

theorem execPObjectsLoaded_frame (at_ : Nat) (hs : Frame fp orig s) (hdict : Part.dict ∈ fp := by exact of_decide_eq_true rfl) (hstreams : Part.streams ∈ fp := by exact of_decide_eq_true rfl) (htime : Part.time ∈ fp := by exact of_decide_eq_true rfl) (hout : Part.out ∈ fp := by exact of_decide_eq_true rfl) (hports : Part.ports ∈ fp := by exact of_decide_eq_true rfl) (hnet : Part.net ∈ fp := by exact of_decide_eq_true rfl) :
    ∃ t, execPObjectsLoaded at_ s = .next t ∧ Frame fp orig t := by
  refine ⟨_, rfl, ?_⟩
  repeat' first
    | intro _
    | with_reducible assumption
    | with_reducible apply State.objectsLoaded_frame
    | with_reducible apply State.reach_frame
    | with_reducible apply onlyIf_frame
    | dsimp only
    | (with_reducible refine frame_mk ?_)

theorem execFlashWriteComplete_frame (ok : Bool) (hs : Frame fp orig s) (hdict : Part.dict ∈ fp := by exact of_decide_eq_true rfl) (hboot : Part.boot ∈ fp := by exact of_decide_eq_true rfl) :
    ∃ t, execFlashWriteComplete ok s = .next t ∧ Frame fp orig t := by
  refine ⟨_, rfl, ?_⟩
  repeat' first
    | intro _
    | with_reducible assumption
    | with_reducible apply State.flashWritten_frame
    | with_reducible apply onlyIf_frame
    | dsimp only
    | (with_reducible refine frame_mk ?_)

theorem execTrstN_frame (asserted : Bool) (hs : Frame fp orig s) (hjtag : Part.jtag ∈ fp := by exact of_decide_eq_true rfl) :
    ∃ t, execTrstN asserted s = .next t ∧ Frame fp orig t := by
  refine ⟨_, rfl, ?_⟩
  constructor
  intro p hp
  cases p
  case jtag => exact absurd hjtag hp
  all_goals exact hs.same _ hp

theorem execTapClock_frame (tms : Bool) (tdi : Bool) (hs : Frame fp orig s) (hjtag : Part.jtag ∈ fp := by exact of_decide_eq_true rfl) :
    ∃ t, execTapClock tms tdi s = .next t ∧ Frame fp orig t := by
  refine ⟨_, rfl, ?_⟩
  constructor
  intro p hp
  cases p
  case jtag => exact absurd hjtag hp
  all_goals exact hs.same _ hp

theorem execLsa_frame (held : Bool) (at_ : Nat) (hs : Frame fp orig s) (hdict : Part.dict ∈ fp := by exact of_decide_eq_true rfl) (htime : Part.time ∈ fp := by exact of_decide_eq_true rfl) (hports : Part.ports ∈ fp := by exact of_decide_eq_true rfl) (hnet : Part.net ∈ fp := by exact of_decide_eq_true rfl) :
    ∃ t, execLsa held at_ s = .next t ∧ Frame fp orig t := by
  refine ⟨_, rfl, ?_⟩
  repeat' first
    | intro _
    | with_reducible assumption
    | with_reducible apply State.lsaIn_frame
    | with_reducible apply State.reach_frame
    | with_reducible apply onlyIf_frame
    | dsimp only
    | (with_reducible refine frame_mk ?_)

theorem execLsaRefresh_frame (at_ : Nat) (hs : Frame fp orig s) (hdict : Part.dict ∈ fp := by exact of_decide_eq_true rfl) (htime : Part.time ∈ fp := by exact of_decide_eq_true rfl) (hports : Part.ports ∈ fp := by exact of_decide_eq_true rfl) (hnet : Part.net ∈ fp := by exact of_decide_eq_true rfl) :
    ∃ t, execLsaRefresh at_ s = .next t ∧ Frame fp orig t := by
  refine ⟨_, rfl, ?_⟩
  repeat' first
    | intro _
    | with_reducible assumption
    | with_reducible apply State.lsaRefresh_frame
    | with_reducible apply State.reach_frame
    | with_reducible apply onlyIf_frame
    | dsimp only
    | (with_reducible refine frame_mk ?_)

theorem execLsaExpiry_frame (at_ : Nat) (hs : Frame fp orig s) (htime : Part.time ∈ fp := by exact of_decide_eq_true rfl) (hnet : Part.net ∈ fp := by exact of_decide_eq_true rfl) :
    ∃ t, execLsaExpiry at_ s = .next t ∧ Frame fp orig t := by
  refine ⟨_, rfl, ?_⟩
  repeat' first
    | intro _
    | with_reducible assumption
    | with_reducible apply State.lsaExpire_frame
    | with_reducible apply State.reach_frame
    | with_reducible apply onlyIf_frame
    | dsimp only
    | (with_reducible refine frame_mk ?_)

theorem execRootElection_frame (replica : List (Nat × Nat)) (at_ : Nat) (hs : Frame fp orig s) (hdict : Part.dict ∈ fp := by exact of_decide_eq_true rfl) (hfree : Part.free ∈ fp := by exact of_decide_eq_true rfl) (htime : Part.time ∈ fp := by exact of_decide_eq_true rfl) (hports : Part.ports ∈ fp := by exact of_decide_eq_true rfl) (hnet : Part.net ∈ fp := by exact of_decide_eq_true rfl) (hlake : Part.lake ∈ fp := by exact of_decide_eq_true rfl) :
    ∃ t, execRootElection replica at_ s = .next t ∧ Frame fp orig t := by
  refine ⟨_, rfl, ?_⟩
  repeat' first
    | intro _
    | with_reducible assumption
    | with_reducible apply State.rootElection_frame
    | with_reducible apply State.reach_frame
    | with_reducible apply onlyIf_frame
    | dsimp only
    | (with_reducible refine frame_mk ?_)

theorem execRouteCompute_frame (at_ : Nat) (hs : Frame fp orig s) (htime : Part.time ∈ fp := by exact of_decide_eq_true rfl) (hnet : Part.net ∈ fp := by exact of_decide_eq_true rfl) :
    ∃ t, execRouteCompute at_ s = .next t ∧ Frame fp orig t := by
  refine ⟨_, rfl, ?_⟩
  repeat' first
    | intro _
    | with_reducible assumption
    | with_reducible apply State.routeCompute_frame
    | with_reducible apply State.reach_frame
    | with_reducible apply onlyIf_frame
    | dsimp only
    | (with_reducible refine frame_mk ?_)

theorem execNetworkFrameForward_frame (at_ : Nat) (hs : Frame fp orig s) (hdict : Part.dict ∈ fp := by exact of_decide_eq_true rfl) (htime : Part.time ∈ fp := by exact of_decide_eq_true rfl) (hports : Part.ports ∈ fp := by exact of_decide_eq_true rfl) (hnet : Part.net ∈ fp := by exact of_decide_eq_true rfl) :
    ∃ t, execNetworkFrameForward at_ s = .next t ∧ Frame fp orig t := by
  refine ⟨_, rfl, ?_⟩
  repeat' first
    | intro _
    | with_reducible assumption
    | with_reducible apply State.netForward_frame
    | with_reducible apply State.reach_frame
    | with_reducible apply onlyIf_frame
    | dsimp only
    | (with_reducible refine frame_mk ?_)

theorem execJoin_frame (at_ : Nat) (hs : Frame fp orig s) (hdict : Part.dict ∈ fp := by exact of_decide_eq_true rfl) (htime : Part.time ∈ fp := by exact of_decide_eq_true rfl) (hports : Part.ports ∈ fp := by exact of_decide_eq_true rfl) (hnet : Part.net ∈ fp := by exact of_decide_eq_true rfl) :
    ∃ t, execJoin at_ s = .next t ∧ Frame fp orig t := by
  refine ⟨_, rfl, ?_⟩
  repeat' first
    | intro _
    | with_reducible assumption
    | with_reducible apply State.joinIn_frame
    | with_reducible apply State.reach_frame
    | with_reducible apply onlyIf_frame
    | dsimp only
    | (with_reducible refine frame_mk ?_)

theorem execJoinResend_frame (at_ : Nat) (hs : Frame fp orig s) (hdict : Part.dict ∈ fp := by exact of_decide_eq_true rfl) (htime : Part.time ∈ fp := by exact of_decide_eq_true rfl) (hports : Part.ports ∈ fp := by exact of_decide_eq_true rfl) (hnet : Part.net ∈ fp := by exact of_decide_eq_true rfl) :
    ∃ t, execJoinResend at_ s = .next t ∧ Frame fp orig t := by
  refine ⟨_, rfl, ?_⟩
  repeat' first
    | intro _
    | with_reducible assumption
    | with_reducible apply State.joinAgain_frame
    | with_reducible apply State.reach_frame
    | with_reducible apply onlyIf_frame
    | dsimp only
    | (with_reducible refine frame_mk ?_)

theorem execGrant_frame (at_ : Nat) (hs : Frame fp orig s) (hdict : Part.dict ∈ fp := by exact of_decide_eq_true rfl) (htime : Part.time ∈ fp := by exact of_decide_eq_true rfl) (hports : Part.ports ∈ fp := by exact of_decide_eq_true rfl) (hnet : Part.net ∈ fp := by exact of_decide_eq_true rfl) :
    ∃ t, execGrant at_ s = .next t ∧ Frame fp orig t := by
  refine ⟨_, rfl, ?_⟩
  repeat' first
    | intro _
    | with_reducible assumption
    | with_reducible apply State.grantIn_frame
    | with_reducible apply State.reach_frame
    | with_reducible apply onlyIf_frame
    | dsimp only
    | (with_reducible refine frame_mk ?_)

theorem execTxnReply_frame (at_ : Nat) (hs : Frame fp orig s) (hdict : Part.dict ∈ fp := by exact of_decide_eq_true rfl) (hstreams : Part.streams ∈ fp := by exact of_decide_eq_true rfl) (htime : Part.time ∈ fp := by exact of_decide_eq_true rfl) (hcpu : Part.cpu ∈ fp := by exact of_decide_eq_true rfl) (hnet : Part.net ∈ fp := by exact of_decide_eq_true rfl) :
    ∃ t, execTxnReply at_ s = .next t ∧ Frame fp orig t := by
  refine ⟨_, rfl, ?_⟩
  repeat' first
    | intro _
    | with_reducible assumption
    | with_reducible apply State.txnReply_frame
    | with_reducible apply State.reach_frame
    | with_reducible apply onlyIf_frame
    | dsimp only
    | (with_reducible refine frame_mk ?_)

theorem execTxnResend_frame (at_ : Nat) (hs : Frame fp orig s) (hdict : Part.dict ∈ fp := by exact of_decide_eq_true rfl) (hstreams : Part.streams ∈ fp := by exact of_decide_eq_true rfl) (htime : Part.time ∈ fp := by exact of_decide_eq_true rfl) (hcpu : Part.cpu ∈ fp := by exact of_decide_eq_true rfl) (hports : Part.ports ∈ fp := by exact of_decide_eq_true rfl) (hnet : Part.net ∈ fp := by exact of_decide_eq_true rfl) :
    ∃ t, execTxnResend at_ s = .next t ∧ Frame fp orig t := by
  refine ⟨_, rfl, ?_⟩
  repeat' first
    | intro _
    | with_reducible assumption
    | with_reducible apply State.txnAgain_frame
    | with_reducible apply State.reach_frame
    | with_reducible apply onlyIf_frame
    | dsimp only
    | (with_reducible refine frame_mk ?_)

theorem execChannelBroken_frame (k : Nat) (at_ : Nat) (hs : Frame fp orig s) (hdict : Part.dict ∈ fp := by exact of_decide_eq_true rfl) (hstreams : Part.streams ∈ fp := by exact of_decide_eq_true rfl) (htime : Part.time ∈ fp := by exact of_decide_eq_true rfl) (hports : Part.ports ∈ fp := by exact of_decide_eq_true rfl) (hnet : Part.net ∈ fp := by exact of_decide_eq_true rfl) :
    ∃ t, execChannelBroken k at_ s = .next t ∧ Frame fp orig t := by
  refine ⟨_, rfl, ?_⟩
  repeat' first
    | intro _
    | with_reducible assumption
    | with_reducible apply State.channelBroken_frame
    | with_reducible apply State.reach_frame
    | with_reducible apply onlyIf_frame
    | dsimp only
    | (with_reducible refine frame_mk ?_)

theorem execMessage_frame (at_ : Nat) (hs : Frame fp orig s) (hdict : Part.dict ∈ fp := by exact of_decide_eq_true rfl) (htime : Part.time ∈ fp := by exact of_decide_eq_true rfl) (hports : Part.ports ∈ fp := by exact of_decide_eq_true rfl) (hnet : Part.net ∈ fp := by exact of_decide_eq_true rfl) :
    ∃ t, execMessage at_ s = .next t ∧ Frame fp orig t := by
  refine ⟨_, rfl, ?_⟩
  repeat' first
    | intro _
    | with_reducible assumption
    | with_reducible apply State.msgIn_frame
    | with_reducible apply State.reach_frame
    | with_reducible apply onlyIf_frame
    | dsimp only
    | (with_reducible refine frame_mk ?_)

theorem execMessageAck_frame (at_ : Nat) (hs : Frame fp orig s) (hdict : Part.dict ∈ fp := by exact of_decide_eq_true rfl) (hstreams : Part.streams ∈ fp := by exact of_decide_eq_true rfl) (htime : Part.time ∈ fp := by exact of_decide_eq_true rfl) (hports : Part.ports ∈ fp := by exact of_decide_eq_true rfl) (hnet : Part.net ∈ fp := by exact of_decide_eq_true rfl) :
    ∃ t, execMessageAck at_ s = .next t ∧ Frame fp orig t := by
  refine ⟨_, rfl, ?_⟩
  repeat' first
    | intro _
    | with_reducible assumption
    | with_reducible apply State.ackIn_frame
    | with_reducible apply State.reach_frame
    | with_reducible apply onlyIf_frame
    | dsimp only
    | (with_reducible refine frame_mk ?_)

theorem execMessageResend_frame (i : Nat) (at_ : Nat) (hs : Frame fp orig s) (hdict : Part.dict ∈ fp := by exact of_decide_eq_true rfl) (htime : Part.time ∈ fp := by exact of_decide_eq_true rfl) (hports : Part.ports ∈ fp := by exact of_decide_eq_true rfl) (hnet : Part.net ∈ fp := by exact of_decide_eq_true rfl) :
    ∃ t, execMessageResend i at_ s = .next t ∧ Frame fp orig t := by
  refine ⟨_, rfl, ?_⟩
  repeat' first
    | intro _
    | with_reducible assumption
    | with_reducible apply State.msgResend_frame
    | with_reducible apply State.reach_frame
    | with_reducible apply onlyIf_frame
    | dsimp only
    | (with_reducible refine frame_mk ?_)

theorem execKeeperHold_frame (dest : Nat) (at_ : Nat) (hs : Frame fp orig s) (hdict : Part.dict ∈ fp := by exact of_decide_eq_true rfl) (htime : Part.time ∈ fp := by exact of_decide_eq_true rfl) (hports : Part.ports ∈ fp := by exact of_decide_eq_true rfl) (hnet : Part.net ∈ fp := by exact of_decide_eq_true rfl) :
    ∃ t, execKeeperHold dest at_ s = .next t ∧ Frame fp orig t := by
  refine ⟨_, rfl, ?_⟩
  repeat' first
    | intro _
    | with_reducible assumption
    | with_reducible apply State.keeperHold_frame
    | with_reducible apply State.reach_frame
    | with_reducible apply onlyIf_frame
    | dsimp only
    | (with_reducible refine frame_mk ?_)

theorem execKeeperRelease_frame (at_ : Nat) (hs : Frame fp orig s) (hdict : Part.dict ∈ fp := by exact of_decide_eq_true rfl) (htime : Part.time ∈ fp := by exact of_decide_eq_true rfl) (hnet : Part.net ∈ fp := by exact of_decide_eq_true rfl) :
    ∃ t, execKeeperRelease at_ s = .next t ∧ Frame fp orig t := by
  refine ⟨_, rfl, ?_⟩
  repeat' first
    | intro _
    | with_reducible assumption
    | with_reducible apply State.keeperRelease_frame
    | with_reducible apply State.reach_frame
    | with_reducible apply onlyIf_frame
    | dsimp only
    | (with_reducible refine frame_mk ?_)

theorem execKeeperTakeover_frame (at_ : Nat) (hs : Frame fp orig s) (hdict : Part.dict ∈ fp := by exact of_decide_eq_true rfl) (htime : Part.time ∈ fp := by exact of_decide_eq_true rfl) (hports : Part.ports ∈ fp := by exact of_decide_eq_true rfl) (hnet : Part.net ∈ fp := by exact of_decide_eq_true rfl) :
    ∃ t, execKeeperTakeover at_ s = .next t ∧ Frame fp orig t := by
  refine ⟨_, rfl, ?_⟩
  repeat' first
    | intro _
    | with_reducible assumption
    | with_reducible apply State.keeperTakeover_frame
    | with_reducible apply State.reach_frame
    | with_reducible apply onlyIf_frame
    | dsimp only
    | (with_reducible refine frame_mk ?_)

theorem execReceiveRecordFree_frame (at_ : Nat) (hs : Frame fp orig s) (hdict : Part.dict ∈ fp := by exact of_decide_eq_true rfl) (htime : Part.time ∈ fp := by exact of_decide_eq_true rfl) (hnet : Part.net ∈ fp := by exact of_decide_eq_true rfl) :
    ∃ t, execReceiveRecordFree at_ s = .next t ∧ Frame fp orig t := by
  refine ⟨_, rfl, ?_⟩
  repeat' first
    | intro _
    | with_reducible assumption
    | with_reducible apply State.recordsFree_frame
    | with_reducible apply State.reach_frame
    | with_reducible apply onlyIf_frame
    | dsimp only
    | (with_reducible refine frame_mk ?_)

theorem execStreamData_frame (at_ : Nat) (hs : Frame fp orig s) (hdict : Part.dict ∈ fp := by exact of_decide_eq_true rfl) (htime : Part.time ∈ fp := by exact of_decide_eq_true rfl) (hports : Part.ports ∈ fp := by exact of_decide_eq_true rfl) (hnet : Part.net ∈ fp := by exact of_decide_eq_true rfl) :
    ∃ t, execStreamData at_ s = .next t ∧ Frame fp orig t := by
  refine ⟨_, rfl, ?_⟩
  repeat' first
    | intro _
    | with_reducible assumption
    | with_reducible apply State.streamData_frame
    | with_reducible apply State.reach_frame
    | with_reducible apply onlyIf_frame
    | dsimp only
    | (with_reducible refine frame_mk ?_)

theorem execStreamOpen_frame (at_ : Nat) (hs : Frame fp orig s) (hdict : Part.dict ∈ fp := by exact of_decide_eq_true rfl) (htime : Part.time ∈ fp := by exact of_decide_eq_true rfl) (hports : Part.ports ∈ fp := by exact of_decide_eq_true rfl) (hnet : Part.net ∈ fp := by exact of_decide_eq_true rfl) :
    ∃ t, execStreamOpen at_ s = .next t ∧ Frame fp orig t := by
  refine ⟨_, rfl, ?_⟩
  repeat' first
    | intro _
    | with_reducible assumption
    | with_reducible apply State.streamOpen_frame
    | with_reducible apply State.reach_frame
    | with_reducible apply onlyIf_frame
    | dsimp only
    | (with_reducible refine frame_mk ?_)

theorem execStreamOpenAck_frame (at_ : Nat) (hs : Frame fp orig s) (hdict : Part.dict ∈ fp := by exact of_decide_eq_true rfl) (htime : Part.time ∈ fp := by exact of_decide_eq_true rfl) (hports : Part.ports ∈ fp := by exact of_decide_eq_true rfl) (hnet : Part.net ∈ fp := by exact of_decide_eq_true rfl) :
    ∃ t, execStreamOpenAck at_ s = .next t ∧ Frame fp orig t := by
  refine ⟨_, rfl, ?_⟩
  repeat' first
    | intro _
    | with_reducible assumption
    | with_reducible apply State.streamOpenAck_frame
    | with_reducible apply State.reach_frame
    | with_reducible apply onlyIf_frame
    | dsimp only
    | (with_reducible refine frame_mk ?_)

theorem execStreamAck_frame (at_ : Nat) (hs : Frame fp orig s) (hdict : Part.dict ∈ fp := by exact of_decide_eq_true rfl) (htime : Part.time ∈ fp := by exact of_decide_eq_true rfl) (hports : Part.ports ∈ fp := by exact of_decide_eq_true rfl) (hnet : Part.net ∈ fp := by exact of_decide_eq_true rfl) :
    ∃ t, execStreamAck at_ s = .next t ∧ Frame fp orig t := by
  refine ⟨_, rfl, ?_⟩
  repeat' first
    | intro _
    | with_reducible assumption
    | with_reducible apply State.streamAck_frame
    | with_reducible apply State.reach_frame
    | with_reducible apply onlyIf_frame
    | dsimp only
    | (with_reducible refine frame_mk ?_)

theorem execStreamClose_frame (at_ : Nat) (hs : Frame fp orig s) (hdict : Part.dict ∈ fp := by exact of_decide_eq_true rfl) (htime : Part.time ∈ fp := by exact of_decide_eq_true rfl) (hnet : Part.net ∈ fp := by exact of_decide_eq_true rfl) :
    ∃ t, execStreamClose at_ s = .next t ∧ Frame fp orig t := by
  refine ⟨_, rfl, ?_⟩
  repeat' first
    | intro _
    | with_reducible assumption
    | with_reducible apply State.streamClose_frame
    | with_reducible apply State.reach_frame
    | with_reducible apply onlyIf_frame
    | dsimp only
    | (with_reducible refine frame_mk ?_)

theorem execStreamReset_frame (at_ : Nat) (hs : Frame fp orig s) (hdict : Part.dict ∈ fp := by exact of_decide_eq_true rfl) (htime : Part.time ∈ fp := by exact of_decide_eq_true rfl) (hnet : Part.net ∈ fp := by exact of_decide_eq_true rfl) :
    ∃ t, execStreamReset at_ s = .next t ∧ Frame fp orig t := by
  refine ⟨_, rfl, ?_⟩
  repeat' first
    | intro _
    | with_reducible assumption
    | with_reducible apply State.streamReset_frame
    | with_reducible apply State.reach_frame
    | with_reducible apply onlyIf_frame
    | dsimp only
    | (with_reducible refine frame_mk ?_)

theorem execStreamResend_frame (at_ : Nat) (hs : Frame fp orig s) (hdict : Part.dict ∈ fp := by exact of_decide_eq_true rfl) (htime : Part.time ∈ fp := by exact of_decide_eq_true rfl) (hports : Part.ports ∈ fp := by exact of_decide_eq_true rfl) (hnet : Part.net ∈ fp := by exact of_decide_eq_true rfl) :
    ∃ t, execStreamResend at_ s = .next t ∧ Frame fp orig t := by
  refine ⟨_, rfl, ?_⟩
  repeat' first
    | intro _
    | with_reducible assumption
    | with_reducible apply State.streamResend_frame
    | with_reducible apply State.reach_frame
    | with_reducible apply onlyIf_frame
    | dsimp only
    | (with_reducible refine frame_mk ?_)

theorem execFscopePropose_frame (at_ : Nat) (hs : Frame fp orig s) (hdict : Part.dict ∈ fp := by exact of_decide_eq_true rfl) (htime : Part.time ∈ fp := by exact of_decide_eq_true rfl) (hports : Part.ports ∈ fp := by exact of_decide_eq_true rfl) (hnet : Part.net ∈ fp := by exact of_decide_eq_true rfl) :
    ∃ t, execFscopePropose at_ s = .next t ∧ Frame fp orig t := by
  refine ⟨_, rfl, ?_⟩
  repeat' first
    | intro _
    | with_reducible assumption
    | with_reducible apply State.fsProposeIn_frame
    | with_reducible apply State.reach_frame
    | with_reducible apply onlyIf_frame
    | dsimp only
    | (with_reducible refine frame_mk ?_)

theorem execFscopePrepare_frame (at_ : Nat) (hs : Frame fp orig s) (hdict : Part.dict ∈ fp := by exact of_decide_eq_true rfl) (htime : Part.time ∈ fp := by exact of_decide_eq_true rfl) (hports : Part.ports ∈ fp := by exact of_decide_eq_true rfl) (hnet : Part.net ∈ fp := by exact of_decide_eq_true rfl) :
    ∃ t, execFscopePrepare at_ s = .next t ∧ Frame fp orig t := by
  refine ⟨_, rfl, ?_⟩
  repeat' first
    | intro _
    | with_reducible assumption
    | with_reducible apply State.fsPrepareIn_frame
    | with_reducible apply State.reach_frame
    | with_reducible apply onlyIf_frame
    | dsimp only
    | (with_reducible refine frame_mk ?_)

theorem execFscopeReady_frame (at_ : Nat) (hs : Frame fp orig s) (hdict : Part.dict ∈ fp := by exact of_decide_eq_true rfl) (htime : Part.time ∈ fp := by exact of_decide_eq_true rfl) (hnet : Part.net ∈ fp := by exact of_decide_eq_true rfl) :
    ∃ t, execFscopeReady at_ s = .next t ∧ Frame fp orig t := by
  refine ⟨_, rfl, ?_⟩
  repeat' first
    | intro _
    | with_reducible assumption
    | with_reducible apply State.fsReadyIn_frame
    | with_reducible apply State.reach_frame
    | with_reducible apply onlyIf_frame
    | dsimp only
    | (with_reducible refine frame_mk ?_)

theorem execFscopeReadyDeadline_frame (at_ : Nat) (hs : Frame fp orig s) (hdict : Part.dict ∈ fp := by exact of_decide_eq_true rfl) (htime : Part.time ∈ fp := by exact of_decide_eq_true rfl) (hports : Part.ports ∈ fp := by exact of_decide_eq_true rfl) (hnet : Part.net ∈ fp := by exact of_decide_eq_true rfl) :
    ∃ t, execFscopeReadyDeadline at_ s = .next t ∧ Frame fp orig t := by
  refine ⟨_, rfl, ?_⟩
  repeat' first
    | intro _
    | with_reducible assumption
    | with_reducible apply State.fsDeadline_frame
    | with_reducible apply State.reach_frame
    | with_reducible apply onlyIf_frame
    | dsimp only
    | (with_reducible refine frame_mk ?_)

theorem execFscopeCommit_frame (at_ : Nat) (hs : Frame fp orig s) (hdict : Part.dict ∈ fp := by exact of_decide_eq_true rfl) (htime : Part.time ∈ fp := by exact of_decide_eq_true rfl) (hnet : Part.net ∈ fp := by exact of_decide_eq_true rfl) :
    ∃ t, execFscopeCommit at_ s = .next t ∧ Frame fp orig t := by
  refine ⟨_, rfl, ?_⟩
  repeat' first
    | intro _
    | with_reducible assumption
    | with_reducible apply State.fsCommitIn_frame
    | with_reducible apply State.reach_frame
    | with_reducible apply onlyIf_frame
    | dsimp only
    | (with_reducible refine frame_mk ?_)

theorem execFscopeAbort_frame (at_ : Nat) (hs : Frame fp orig s) (hdict : Part.dict ∈ fp := by exact of_decide_eq_true rfl) (htime : Part.time ∈ fp := by exact of_decide_eq_true rfl) (hnet : Part.net ∈ fp := by exact of_decide_eq_true rfl) :
    ∃ t, execFscopeAbort at_ s = .next t ∧ Frame fp orig t := by
  refine ⟨_, rfl, ?_⟩
  repeat' first
    | intro _
    | with_reducible assumption
    | with_reducible apply State.fsAbortIn_frame
    | with_reducible apply State.reach_frame
    | with_reducible apply onlyIf_frame
    | dsimp only
    | (with_reducible refine frame_mk ?_)

theorem execFscopeApply_frame  (hs : Frame fp orig s) (hdict : Part.dict ∈ fp := by exact of_decide_eq_true rfl) (hports : Part.ports ∈ fp := by exact of_decide_eq_true rfl) (hnet : Part.net ∈ fp := by exact of_decide_eq_true rfl) :
    ∃ t, execFscopeApply s = .next t ∧ Frame fp orig t := by
  refine ⟨_, rfl, ?_⟩
  repeat' first
    | intro _
    | with_reducible assumption
    | with_reducible apply State.fsEdge_frame
    | with_reducible apply onlyIf_frame
    | dsimp only
    | (with_reducible refine frame_mk ?_)

theorem execFscopeFetch_frame (at_ : Nat) (hs : Frame fp orig s) (hdict : Part.dict ∈ fp := by exact of_decide_eq_true rfl) (htime : Part.time ∈ fp := by exact of_decide_eq_true rfl) (hports : Part.ports ∈ fp := by exact of_decide_eq_true rfl) (hnet : Part.net ∈ fp := by exact of_decide_eq_true rfl) :
    ∃ t, execFscopeFetch at_ s = .next t ∧ Frame fp orig t := by
  refine ⟨_, rfl, ?_⟩
  repeat' first
    | intro _
    | with_reducible assumption
    | with_reducible apply State.fsFetchIn_frame
    | with_reducible apply State.reach_frame
    | with_reducible apply onlyIf_frame
    | dsimp only
    | (with_reducible refine frame_mk ?_)

theorem execFscopeValue_frame (at_ : Nat) (hs : Frame fp orig s) (hdict : Part.dict ∈ fp := by exact of_decide_eq_true rfl) (htime : Part.time ∈ fp := by exact of_decide_eq_true rfl) (hnet : Part.net ∈ fp := by exact of_decide_eq_true rfl) :
    ∃ t, execFscopeValue at_ s = .next t ∧ Frame fp orig t := by
  refine ⟨_, rfl, ?_⟩
  repeat' first
    | intro _
    | with_reducible assumption
    | with_reducible apply State.fsValueIn_frame
    | with_reducible apply State.reach_frame
    | with_reducible apply onlyIf_frame
    | dsimp only
    | (with_reducible refine frame_mk ?_)

theorem execFscopeLost_frame (at_ : Nat) (hs : Frame fp orig s) (hdict : Part.dict ∈ fp := by exact of_decide_eq_true rfl) (htime : Part.time ∈ fp := by exact of_decide_eq_true rfl) (hnet : Part.net ∈ fp := by exact of_decide_eq_true rfl) :
    ∃ t, execFscopeLost at_ s = .next t ∧ Frame fp orig t := by
  refine ⟨_, rfl, ?_⟩
  repeat' first
    | intro _
    | with_reducible assumption
    | with_reducible apply State.fsLost_frame
    | with_reducible apply State.reach_frame
    | with_reducible apply onlyIf_frame
    | dsimp only
    | (with_reducible refine frame_mk ?_)

theorem execLakeEpoch_frame (at_ : Nat) (hs : Frame fp orig s) (hdict : Part.dict ∈ fp := by exact of_decide_eq_true rfl) (htime : Part.time ∈ fp := by exact of_decide_eq_true rfl) (hsol : Part.sol ∈ fp := by exact of_decide_eq_true rfl) (hports : Part.ports ∈ fp := by exact of_decide_eq_true rfl) (hnet : Part.net ∈ fp := by exact of_decide_eq_true rfl) (hlake : Part.lake ∈ fp := by exact of_decide_eq_true rfl) :
    ∃ t, execLakeEpoch at_ s = .next t ∧ Frame fp orig t := by
  refine ⟨_, rfl, ?_⟩
  repeat' first
    | intro _
    | with_reducible assumption
    | with_reducible apply State.lakeEpoch_frame
    | with_reducible apply State.reach_frame
    | with_reducible apply onlyIf_frame
    | dsimp only
    | (with_reducible refine frame_mk ?_)

theorem execReport_frame (at_ : Nat) (hs : Frame fp orig s) (hdict : Part.dict ∈ fp := by exact of_decide_eq_true rfl) (htime : Part.time ∈ fp := by exact of_decide_eq_true rfl) (hnet : Part.net ∈ fp := by exact of_decide_eq_true rfl) (hlake : Part.lake ∈ fp := by exact of_decide_eq_true rfl) :
    ∃ t, execReport at_ s = .next t ∧ Frame fp orig t := by
  refine ⟨_, rfl, ?_⟩
  repeat' first
    | intro _
    | with_reducible assumption
    | with_reducible apply State.reportIn_frame
    | with_reducible apply State.reach_frame
    | with_reducible apply onlyIf_frame
    | dsimp only
    | (with_reducible refine frame_mk ?_)

theorem execEnsembleEpoch_frame (origin : Nat) (at_ : Nat) (hs : Frame fp orig s) (hdict : Part.dict ∈ fp := by exact of_decide_eq_true rfl) (htime : Part.time ∈ fp := by exact of_decide_eq_true rfl) (hports : Part.ports ∈ fp := by exact of_decide_eq_true rfl) (hnet : Part.net ∈ fp := by exact of_decide_eq_true rfl) (hlake : Part.lake ∈ fp := by exact of_decide_eq_true rfl) :
    ∃ t, execEnsembleEpoch origin at_ s = .next t ∧ Frame fp orig t := by
  refine ⟨_, rfl, ?_⟩
  repeat' first
    | intro _
    | with_reducible assumption
    | with_reducible apply State.ensembleEpoch_frame
    | with_reducible apply State.reach_frame
    | with_reducible apply onlyIf_frame
    | dsimp only
    | (with_reducible refine frame_mk ?_)

theorem execEstimate_frame (at_ : Nat) (hs : Frame fp orig s) (hdict : Part.dict ∈ fp := by exact of_decide_eq_true rfl) (hsilt : Part.silt ∈ fp := by exact of_decide_eq_true rfl) (htime : Part.time ∈ fp := by exact of_decide_eq_true rfl) (herg : Part.erg ∈ fp := by exact of_decide_eq_true rfl) (hsol : Part.sol ∈ fp := by exact of_decide_eq_true rfl) (hnet : Part.net ∈ fp := by exact of_decide_eq_true rfl) (hlake : Part.lake ∈ fp := by exact of_decide_eq_true rfl) :
    ∃ t, execEstimate at_ s = .next t ∧ Frame fp orig t := by
  refine ⟨_, rfl, ?_⟩
  repeat' first
    | intro _
    | with_reducible assumption
    | with_reducible apply State.estimateIn_frame
    | with_reducible apply State.reach_frame
    | with_reducible apply onlyIf_frame
    | dsimp only
    | (with_reducible refine frame_mk ?_)

theorem execEstimateLoss_frame (at_ : Nat) (hs : Frame fp orig s) (hdict : Part.dict ∈ fp := by exact of_decide_eq_true rfl) (htime : Part.time ∈ fp := by exact of_decide_eq_true rfl) :
    ∃ t, execEstimateLoss at_ s = .next t ∧ Frame fp orig t := by
  refine ⟨_, rfl, ?_⟩
  repeat' first
    | intro _
    | with_reducible assumption
    | with_reducible apply State.estimateLoss_frame
    | with_reducible apply State.reach_frame
    | with_reducible apply onlyIf_frame
    | dsimp only
    | (with_reducible refine frame_mk ?_)

theorem execReplica_frame (at_ : Nat) (hs : Frame fp orig s) (hdict : Part.dict ∈ fp := by exact of_decide_eq_true rfl) (htime : Part.time ∈ fp := by exact of_decide_eq_true rfl) (hports : Part.ports ∈ fp := by exact of_decide_eq_true rfl) (hnet : Part.net ∈ fp := by exact of_decide_eq_true rfl) (hlake : Part.lake ∈ fp := by exact of_decide_eq_true rfl) :
    ∃ t, execReplica at_ s = .next t ∧ Frame fp orig t := by
  refine ⟨_, rfl, ?_⟩
  repeat' first
    | intro _
    | with_reducible assumption
    | with_reducible apply State.replicaIn_frame
    | with_reducible apply State.reach_frame
    | with_reducible apply onlyIf_frame
    | dsimp only
    | (with_reducible refine frame_mk ?_)

theorem execActingTakeover_frame (at_ : Nat) (hs : Frame fp orig s) (hdict : Part.dict ∈ fp := by exact of_decide_eq_true rfl) (htime : Part.time ∈ fp := by exact of_decide_eq_true rfl) (hlake : Part.lake ∈ fp := by exact of_decide_eq_true rfl) :
    ∃ t, execActingTakeover at_ s = .next t ∧ Frame fp orig t := by
  refine ⟨_, rfl, ?_⟩
  repeat' first
    | intro _
    | with_reducible assumption
    | with_reducible apply State.actingTake_frame
    | with_reducible apply State.reach_frame
    | with_reducible apply onlyIf_frame
    | dsimp only
    | (with_reducible refine frame_mk ?_)

theorem execCvObs_frame (at_ : Nat) (hs : Frame fp orig s) (hdict : Part.dict ∈ fp := by exact of_decide_eq_true rfl) (htime : Part.time ∈ fp := by exact of_decide_eq_true rfl) (hnet : Part.net ∈ fp := by exact of_decide_eq_true rfl) (hlake : Part.lake ∈ fp := by exact of_decide_eq_true rfl) :
    ∃ t, execCvObs at_ s = .next t ∧ Frame fp orig t := by
  refine ⟨_, rfl, ?_⟩
  repeat' first
    | intro _
    | with_reducible assumption
    | with_reducible apply State.cvIn_frame
    | with_reducible apply State.reach_frame
    | with_reducible apply onlyIf_frame
    | dsimp only
    | (with_reducible refine frame_mk ?_)

theorem execNeighbours_frame (at_ : Nat) (hs : Frame fp orig s) (hdict : Part.dict ∈ fp := by exact of_decide_eq_true rfl) (htime : Part.time ∈ fp := by exact of_decide_eq_true rfl) (hports : Part.ports ∈ fp := by exact of_decide_eq_true rfl) (hnet : Part.net ∈ fp := by exact of_decide_eq_true rfl) (hlake : Part.lake ∈ fp := by exact of_decide_eq_true rfl) :
    ∃ t, execNeighbours at_ s = .next t ∧ Frame fp orig t := by
  refine ⟨_, rfl, ?_⟩
  repeat' first
    | intro _
    | with_reducible assumption
    | with_reducible apply State.neighboursIn_frame
    | with_reducible apply State.reach_frame
    | with_reducible apply onlyIf_frame
    | dsimp only
    | (with_reducible refine frame_mk ?_)

theorem execSightings_frame (at_ : Nat) (hs : Frame fp orig s) (hdict : Part.dict ∈ fp := by exact of_decide_eq_true rfl) (htime : Part.time ∈ fp := by exact of_decide_eq_true rfl) (hnav : Part.nav ∈ fp := by exact of_decide_eq_true rfl) (hnet : Part.net ∈ fp := by exact of_decide_eq_true rfl) :
    ∃ t, execSightings at_ s = .next t ∧ Frame fp orig t := by
  refine ⟨_, rfl, ?_⟩
  repeat' first
    | intro _
    | with_reducible assumption
    | with_reducible apply State.sightingsIn_frame
    | with_reducible apply State.reach_frame
    | with_reducible apply onlyIf_frame
    | dsimp only
    | (with_reducible refine frame_mk ?_)

theorem execLakeEphemeris_frame (at_ : Nat) (hs : Frame fp orig s) (hdict : Part.dict ∈ fp := by exact of_decide_eq_true rfl) (htime : Part.time ∈ fp := by exact of_decide_eq_true rfl) (hnav : Part.nav ∈ fp := by exact of_decide_eq_true rfl) (hports : Part.ports ∈ fp := by exact of_decide_eq_true rfl) (hnet : Part.net ∈ fp := by exact of_decide_eq_true rfl) :
    ∃ t, execLakeEphemeris at_ s = .next t ∧ Frame fp orig t := by
  refine ⟨_, rfl, ?_⟩
  repeat' first
    | intro _
    | with_reducible assumption
    | with_reducible apply State.ephemerisIn_frame
    | with_reducible apply State.reach_frame
    | with_reducible apply onlyIf_frame
    | dsimp only
    | (with_reducible refine frame_mk ?_)

theorem execSymbols_frame (at_ : Nat) (hs : Frame fp orig s) (hdict : Part.dict ∈ fp := by exact of_decide_eq_true rfl) (htime : Part.time ∈ fp := by exact of_decide_eq_true rfl) (hnav : Part.nav ∈ fp := by exact of_decide_eq_true rfl) (hnet : Part.net ∈ fp := by exact of_decide_eq_true rfl) :
    ∃ t, execSymbols at_ s = .next t ∧ Frame fp orig t := by
  refine ⟨_, rfl, ?_⟩
  repeat' first
    | intro _
    | with_reducible assumption
    | with_reducible apply State.symbolsTake_frame
    | with_reducible apply State.reach_frame
    | with_reducible apply onlyIf_frame
    | dsimp only
    | (with_reducible refine frame_mk ?_)

theorem execSubscribe_frame (at_ : Nat) (hs : Frame fp orig s) (hdict : Part.dict ∈ fp := by exact of_decide_eq_true rfl) (htime : Part.time ∈ fp := by exact of_decide_eq_true rfl) (hnet : Part.net ∈ fp := by exact of_decide_eq_true rfl) (hlake : Part.lake ∈ fp := by exact of_decide_eq_true rfl) :
    ∃ t, execSubscribe at_ s = .next t ∧ Frame fp orig t := by
  refine ⟨_, rfl, ?_⟩
  repeat' first
    | intro _
    | with_reducible assumption
    | with_reducible apply State.subscribeIn_frame
    | with_reducible apply State.reach_frame
    | with_reducible apply onlyIf_frame
    | dsimp only
    | (with_reducible refine frame_mk ?_)

theorem execSubscribeRenew_frame (at_ : Nat) (hs : Frame fp orig s) (hdict : Part.dict ∈ fp := by exact of_decide_eq_true rfl) (htime : Part.time ∈ fp := by exact of_decide_eq_true rfl) (hports : Part.ports ∈ fp := by exact of_decide_eq_true rfl) (hnet : Part.net ∈ fp := by exact of_decide_eq_true rfl) (hlake : Part.lake ∈ fp := by exact of_decide_eq_true rfl) :
    ∃ t, execSubscribeRenew at_ s = .next t ∧ Frame fp orig t := by
  refine ⟨_, rfl, ?_⟩
  repeat' first
    | intro _
    | with_reducible assumption
    | with_reducible apply State.subscribeRenew_frame
    | with_reducible apply State.reach_frame
    | with_reducible apply onlyIf_frame
    | dsimp only
    | (with_reducible refine frame_mk ?_)

theorem execRank_frame (at_ : Nat) (hs : Frame fp orig s) (hdict : Part.dict ∈ fp := by exact of_decide_eq_true rfl) (htime : Part.time ∈ fp := by exact of_decide_eq_true rfl) (hports : Part.ports ∈ fp := by exact of_decide_eq_true rfl) (hnet : Part.net ∈ fp := by exact of_decide_eq_true rfl) (hlake : Part.lake ∈ fp := by exact of_decide_eq_true rfl) :
    ∃ t, execRank at_ s = .next t ∧ Frame fp orig t := by
  refine ⟨_, rfl, ?_⟩
  repeat' first
    | intro _
    | with_reducible assumption
    | with_reducible apply State.rankIn_frame
    | with_reducible apply State.reach_frame
    | with_reducible apply onlyIf_frame
    | dsimp only
    | (with_reducible refine frame_mk ?_)

theorem execSubscriptionExpiry_frame (at_ : Nat) (hs : Frame fp orig s) (hdict : Part.dict ∈ fp := by exact of_decide_eq_true rfl) (htime : Part.time ∈ fp := by exact of_decide_eq_true rfl) (hlake : Part.lake ∈ fp := by exact of_decide_eq_true rfl) :
    ∃ t, execSubscriptionExpiry at_ s = .next t ∧ Frame fp orig t := by
  refine ⟨_, rfl, ?_⟩
  repeat' first
    | intro _
    | with_reducible assumption
    | with_reducible apply State.subscriptionsExpire_frame
    | with_reducible apply State.reach_frame
    | with_reducible apply onlyIf_frame
    | dsimp only
    | (with_reducible refine frame_mk ?_)

theorem execSightingExpiry_frame (at_ : Nat) (hs : Frame fp orig s) (hdict : Part.dict ∈ fp := by exact of_decide_eq_true rfl) (htime : Part.time ∈ fp := by exact of_decide_eq_true rfl) (hnav : Part.nav ∈ fp := by exact of_decide_eq_true rfl) :
    ∃ t, execSightingExpiry at_ s = .next t ∧ Frame fp orig t := by
  refine ⟨_, rfl, ?_⟩
  repeat' first
    | intro _
    | with_reducible assumption
    | with_reducible apply State.sightingsExpire_frame
    | with_reducible apply State.reach_frame
    | with_reducible apply onlyIf_frame
    | dsimp only
    | (with_reducible refine frame_mk ?_)

theorem execDescriptorComplete_frame (core : Nat) (ring : Nat) (at_ : Nat) (hs : Frame fp orig s) (htime : Part.time ∈ fp := by exact of_decide_eq_true rfl) (hcpu : Part.cpu ∈ fp := by exact of_decide_eq_true rfl) :
    ∃ t, execDescriptorComplete core ring at_ s = .next t ∧ Frame fp orig t := by
  refine ⟨_, rfl, ?_⟩
  repeat' first
    | intro _
    | with_reducible assumption
    | with_reducible apply State.descriptorComplete_frame
    | with_reducible apply State.reach_frame
    | with_reducible apply onlyIf_frame
    | dsimp only
    | (with_reducible refine frame_mk ?_)

theorem execSynthLock_frame (at_ : Nat) (hs : Frame fp orig s) (hdict : Part.dict ∈ fp := by exact of_decide_eq_true rfl) (hstreams : Part.streams ∈ fp := by exact of_decide_eq_true rfl) (hsilt : Part.silt ∈ fp := by exact of_decide_eq_true rfl) (htime : Part.time ∈ fp := by exact of_decide_eq_true rfl) (hreader : Part.reader ∈ fp := by exact of_decide_eq_true rfl) :
    ∃ t, execSynthLock at_ s = .next t ∧ Frame fp orig t := by
  refine ⟨_, rfl, ?_⟩
  repeat' first
    | intro _
    | with_reducible assumption
    | with_reducible apply State.synthLock_frame
    | with_reducible apply State.readerSettle_frame
    | with_reducible apply State.reach_frame
    | with_reducible apply onlyIf_frame
    | dsimp only
    | (with_reducible refine frame_mk ?_)

theorem execSynthLockTimeout_frame (at_ : Nat) (hs : Frame fp orig s) (hdict : Part.dict ∈ fp := by exact of_decide_eq_true rfl) (hstreams : Part.streams ∈ fp := by exact of_decide_eq_true rfl) (hsilt : Part.silt ∈ fp := by exact of_decide_eq_true rfl) (htime : Part.time ∈ fp := by exact of_decide_eq_true rfl) (hreader : Part.reader ∈ fp := by exact of_decide_eq_true rfl) :
    ∃ t, execSynthLockTimeout at_ s = .next t ∧ Frame fp orig t := by
  refine ⟨_, rfl, ?_⟩
  repeat' first
    | intro _
    | with_reducible assumption
    | with_reducible apply State.synthTimeout_frame
    | with_reducible apply State.readerSettle_frame
    | with_reducible apply State.reach_frame
    | with_reducible apply onlyIf_frame
    | dsimp only
    | (with_reducible refine frame_mk ?_)

theorem execSynthCalDone_frame (at_ : Nat) (hs : Frame fp orig s) (hdict : Part.dict ∈ fp := by exact of_decide_eq_true rfl) (htime : Part.time ∈ fp := by exact of_decide_eq_true rfl) (hreader : Part.reader ∈ fp := by exact of_decide_eq_true rfl) :
    ∃ t, execSynthCalDone at_ s = .next t ∧ Frame fp orig t := by
  refine ⟨_, rfl, ?_⟩
  repeat' first
    | intro _
    | with_reducible assumption
    | with_reducible apply State.synthCalDone_frame
    | with_reducible apply State.reach_frame
    | with_reducible apply onlyIf_frame
    | dsimp only
    | (with_reducible refine frame_mk ?_)

theorem execSynthBusy_frame (at_ : Nat) (hs : Frame fp orig s) (hdict : Part.dict ∈ fp := by exact of_decide_eq_true rfl) (hstreams : Part.streams ∈ fp := by exact of_decide_eq_true rfl) (hsilt : Part.silt ∈ fp := by exact of_decide_eq_true rfl) (htime : Part.time ∈ fp := by exact of_decide_eq_true rfl) (hreader : Part.reader ∈ fp := by exact of_decide_eq_true rfl) :
    ∃ t, execSynthBusy at_ s = .next t ∧ Frame fp orig t := by
  refine ⟨_, rfl, ?_⟩
  repeat' first
    | intro _
    | with_reducible assumption
    | with_reducible apply State.readerSettle_frame
    | with_reducible apply State.synthBusy_frame
    | with_reducible apply State.reach_frame
    | with_reducible apply onlyIf_frame
    | dsimp only
    | (with_reducible refine frame_mk ?_)

theorem execFieldTimeout_frame (at_ : Nat) (hs : Frame fp orig s) (hdict : Part.dict ∈ fp := by exact of_decide_eq_true rfl) (hstreams : Part.streams ∈ fp := by exact of_decide_eq_true rfl) (hsilt : Part.silt ∈ fp := by exact of_decide_eq_true rfl) (htime : Part.time ∈ fp := by exact of_decide_eq_true rfl) (hreader : Part.reader ∈ fp := by exact of_decide_eq_true rfl) :
    ∃ t, execFieldTimeout at_ s = .next t ∧ Frame fp orig t := by
  refine ⟨_, rfl, ?_⟩
  repeat' first
    | intro _
    | with_reducible assumption
    | with_reducible apply State.fieldTimeout_frame
    | with_reducible apply State.reach_frame
    | with_reducible apply onlyIf_frame
    | dsimp only
    | (with_reducible refine frame_mk ?_)

theorem execHardwareFieldTimeout_frame (at_ : Nat) (hs : Frame fp orig s) (hdict : Part.dict ∈ fp := by exact of_decide_eq_true rfl) (hstreams : Part.streams ∈ fp := by exact of_decide_eq_true rfl) (hsilt : Part.silt ∈ fp := by exact of_decide_eq_true rfl) (htime : Part.time ∈ fp := by exact of_decide_eq_true rfl) (hreader : Part.reader ∈ fp := by exact of_decide_eq_true rfl) :
    ∃ t, execHardwareFieldTimeout at_ s = .next t ∧ Frame fp orig t := by
  refine ⟨_, rfl, ?_⟩
  repeat' first
    | intro _
    | with_reducible assumption
    | with_reducible apply State.fieldTimeout_frame
    | with_reducible apply State.reach_frame
    | with_reducible apply onlyIf_frame
    | dsimp only
    | (with_reducible refine frame_mk ?_)

theorem execDutyLimit_frame (at_ : Nat) (hs : Frame fp orig s) (hdict : Part.dict ∈ fp := by exact of_decide_eq_true rfl) (hstreams : Part.streams ∈ fp := by exact of_decide_eq_true rfl) (hsilt : Part.silt ∈ fp := by exact of_decide_eq_true rfl) (htime : Part.time ∈ fp := by exact of_decide_eq_true rfl) (hreader : Part.reader ∈ fp := by exact of_decide_eq_true rfl) :
    ∃ t, execDutyLimit at_ s = .next t ∧ Frame fp orig t := by
  refine ⟨_, rfl, ?_⟩
  repeat' first
    | intro _
    | with_reducible assumption
    | with_reducible apply State.dutyLimit_frame
    | with_reducible apply State.reach_frame
    | with_reducible apply onlyIf_frame
    | dsimp only
    | (with_reducible refine frame_mk ?_)

theorem execResponseTimeout_frame (bins : List (Nat × Int)) (at_ : Nat) (hs : Frame fp orig s) (hdict : Part.dict ∈ fp := by exact of_decide_eq_true rfl) (hstreams : Part.streams ∈ fp := by exact of_decide_eq_true rfl) (hsilt : Part.silt ∈ fp := by exact of_decide_eq_true rfl) (htime : Part.time ∈ fp := by exact of_decide_eq_true rfl) (hreader : Part.reader ∈ fp := by exact of_decide_eq_true rfl) :
    ∃ t, execResponseTimeout bins at_ s = .next t ∧ Frame fp orig t := by
  refine ⟨_, rfl, ?_⟩
  repeat' first
    | intro _
    | with_reducible assumption
    | with_reducible apply State.responseTimeout_frame
    | with_reducible apply State.reach_frame
    | with_reducible apply onlyIf_frame
    | dsimp only
    | (with_reducible refine frame_mk ?_)

theorem execReaderFrameReceived_frame (f : RxFrame) (bins : List (Nat × Int)) (at_ : Nat) (hs : Frame fp orig s) (hdict : Part.dict ∈ fp := by exact of_decide_eq_true rfl) (hstreams : Part.streams ∈ fp := by exact of_decide_eq_true rfl) (hsilt : Part.silt ∈ fp := by exact of_decide_eq_true rfl) (htime : Part.time ∈ fp := by exact of_decide_eq_true rfl) (hreader : Part.reader ∈ fp := by exact of_decide_eq_true rfl) :
    ∃ t, execReaderFrameReceived f bins at_ s = .next t ∧ Frame fp orig t := by
  refine ⟨_, rfl, ?_⟩
  repeat' first
    | intro _
    | with_reducible assumption
    | with_reducible apply State.frameReceived_frame
    | with_reducible apply State.reach_frame
    | with_reducible apply onlyIf_frame
    | with_reducible apply frame_ite
    | (extract_lets +onlyGivenNames -underBinder x; first | (refine frame_cut (fp := fp) (orig := orig) (x := x) ?_ ?_ <;> first | (intro h0; generalize x = y at h0 ⊢; clear x) | intro h0 | subst x) | (have h0 := Nat.zero_le x; generalize x = y at h0 ⊢; clear h0 x) | subst x)
    | split
    | dsimp only
    | (with_reducible refine frame_mk ?_)

theorem execSecondSof_frame (f : RxFrame) (amp : Nat) (bins : List (Nat × Int)) (at_ : Nat) (hs : Frame fp orig s) (hdict : Part.dict ∈ fp := by exact of_decide_eq_true rfl) (hstreams : Part.streams ∈ fp := by exact of_decide_eq_true rfl) (hsilt : Part.silt ∈ fp := by exact of_decide_eq_true rfl) (htime : Part.time ∈ fp := by exact of_decide_eq_true rfl) (hreader : Part.reader ∈ fp := by exact of_decide_eq_true rfl) :
    ∃ t, execSecondSof f amp bins at_ s = .next t ∧ Frame fp orig t := by
  refine ⟨_, rfl, ?_⟩
  repeat' first
    | intro _
    | with_reducible assumption
    | with_reducible apply State.secondSof_frame
    | with_reducible apply State.reach_frame
    | with_reducible apply onlyIf_frame
    | with_reducible apply frame_ite
    | (extract_lets +onlyGivenNames -underBinder x; first | (refine frame_cut (fp := fp) (orig := orig) (x := x) ?_ ?_ <;> first | (intro h0; generalize x = y at h0 ⊢; clear x) | intro h0 | subst x) | (have h0 := Nat.zero_le x; generalize x = y at h0 ⊢; clear h0 x) | subst x)
    | split
    | dsimp only
    | (with_reducible refine frame_mk ?_)

theorem execCardDetectBurst_frame (amp : Nat) (at_ : Nat) (hs : Frame fp orig s) (hdict : Part.dict ∈ fp := by exact of_decide_eq_true rfl) (htime : Part.time ∈ fp := by exact of_decide_eq_true rfl) (hreader : Part.reader ∈ fp := by exact of_decide_eq_true rfl) (hpower : Part.power ∈ fp := by exact of_decide_eq_true rfl) :
    ∃ t, execCardDetectBurst amp at_ s = .next t ∧ Frame fp orig t := by
  refine ⟨_, rfl, ?_⟩
  repeat' first
    | intro _
    | with_reducible assumption
    | with_reducible apply State.wakeBy_frame
    | with_reducible apply State.cardBurst_frame
    | with_reducible apply State.reach_frame
    | with_reducible apply onlyIf_frame
    | with_reducible apply frame_ite
    | (extract_lets +onlyGivenNames -underBinder x; first | (refine frame_cut (fp := fp) (orig := orig) (x := x) ?_ ?_ <;> first | (intro h0; generalize x = y at h0 ⊢; clear x) | intro h0 | subst x) | (have h0 := Nat.zero_le x; generalize x = y at h0 ⊢; clear h0 x) | subst x)
    | split
    | dsimp only
    | (with_reducible refine frame_mk ?_)

theorem execDelayScan_frame (tags : List (List Nat × Option (List Nat))) (last : JobEnd) (us : Nat) (at_ : Nat) (hs : Frame fp orig s) (hdict : Part.dict ∈ fp := by exact of_decide_eq_true rfl) (hstreams : Part.streams ∈ fp := by exact of_decide_eq_true rfl) (hsilt : Part.silt ∈ fp := by exact of_decide_eq_true rfl) (htime : Part.time ∈ fp := by exact of_decide_eq_true rfl) (hreader : Part.reader ∈ fp := by exact of_decide_eq_true rfl) :
    ∃ t, execDelayScan tags last us at_ s = .next t ∧ Frame fp orig t := by
  refine ⟨_, rfl, ?_⟩
  repeat' first
    | intro _
    | with_reducible assumption
    | with_reducible apply State.delayScan_frame
    | with_reducible apply State.reach_frame
    | with_reducible apply onlyIf_frame
    | (extract_lets +onlyGivenNames -underBinder x; first | (refine frame_cut (fp := fp) (orig := orig) (x := x) ?_ ?_ <;> first | (intro h0; generalize x = y at h0 ⊢; clear x) | intro h0 | subst x) | (have h0 := Nat.zero_le x; generalize x = y at h0 ⊢; clear h0 x) | subst x)
    | dsimp only
    | (with_reducible refine frame_mk ?_)

theorem execRead_frame (c : Ctx) (index : Nat) (sub : Nat) (len : Nat) (hs : Frame fp orig s) (hdict : Part.dict ∈ fp := by exact of_decide_eq_true rfl) (hstreams : Part.streams ∈ fp := by exact of_decide_eq_true rfl) (hsilt : Part.silt ∈ fp := by exact of_decide_eq_true rfl) (hmspi : Part.mspi ∈ fp := by exact of_decide_eq_true rfl) (hhost : Part.host ∈ fp := by exact of_decide_eq_true rfl) (hreply : Part.reply ∈ fp := by exact of_decide_eq_true rfl) (hfree : Part.free ∈ fp := by exact of_decide_eq_true rfl) (htime : Part.time ∈ fp := by exact of_decide_eq_true rfl) (hout : Part.out ∈ fp := by exact of_decide_eq_true rfl) (hcpu : Part.cpu ∈ fp := by exact of_decide_eq_true rfl) (htmr : Part.tmr ∈ fp := by exact of_decide_eq_true rfl) (hrx : Part.rx ∈ fp := by exact of_decide_eq_true rfl) (hslots : Part.slots ∈ fp := by exact of_decide_eq_true rfl) (herg : Part.erg ∈ fp := by exact of_decide_eq_true rfl) (hsol : Part.sol ∈ fp := by exact of_decide_eq_true rfl) (hports : Part.ports ∈ fp := by exact of_decide_eq_true rfl) (hnet : Part.net ∈ fp := by exact of_decide_eq_true rfl) (hprot : Part.prot ∈ fp := by exact of_decide_eq_true rfl) (hreader : Part.reader ∈ fp := by exact of_decide_eq_true rfl) (hpower : Part.power ∈ fp := by exact of_decide_eq_true rfl) (hboot : Part.boot ∈ fp := by exact of_decide_eq_true rfl) :
    ∃ t, execRead c index sub len s = .next t ∧ Frame fp orig t := by
  refine ⟨_, rfl, ?_⟩
  repeat' first
    | intro _
    | with_reducible assumption
    | with_reducible apply State.request_frame
    | with_reducible apply onlyIf_frame
    | dsimp only
    | (with_reducible refine frame_mk ?_)

theorem execWrite_frame (c : Ctx) (index : Nat) (sub : Nat) (b_ : List Nat) (hs : Frame fp orig s) (hdict : Part.dict ∈ fp := by exact of_decide_eq_true rfl) (hstreams : Part.streams ∈ fp := by exact of_decide_eq_true rfl) (hsilt : Part.silt ∈ fp := by exact of_decide_eq_true rfl) (hmspi : Part.mspi ∈ fp := by exact of_decide_eq_true rfl) (hhost : Part.host ∈ fp := by exact of_decide_eq_true rfl) (hreply : Part.reply ∈ fp := by exact of_decide_eq_true rfl) (hfree : Part.free ∈ fp := by exact of_decide_eq_true rfl) (htime : Part.time ∈ fp := by exact of_decide_eq_true rfl) (hout : Part.out ∈ fp := by exact of_decide_eq_true rfl) (hcpu : Part.cpu ∈ fp := by exact of_decide_eq_true rfl) (htmr : Part.tmr ∈ fp := by exact of_decide_eq_true rfl) (hrx : Part.rx ∈ fp := by exact of_decide_eq_true rfl) (hslots : Part.slots ∈ fp := by exact of_decide_eq_true rfl) (herg : Part.erg ∈ fp := by exact of_decide_eq_true rfl) (hsol : Part.sol ∈ fp := by exact of_decide_eq_true rfl) (hports : Part.ports ∈ fp := by exact of_decide_eq_true rfl) (hnet : Part.net ∈ fp := by exact of_decide_eq_true rfl) (hprot : Part.prot ∈ fp := by exact of_decide_eq_true rfl) (hreader : Part.reader ∈ fp := by exact of_decide_eq_true rfl) (hpower : Part.power ∈ fp := by exact of_decide_eq_true rfl) (hboot : Part.boot ∈ fp := by exact of_decide_eq_true rfl) :
    ∃ t, execWrite c index sub b_ s = .next t ∧ Frame fp orig t := by
  refine ⟨_, rfl, ?_⟩
  repeat' first
    | intro _
    | with_reducible assumption
    | with_reducible apply State.write_frame
    | with_reducible apply onlyIf_frame
    | dsimp only
    | (with_reducible refine frame_mk ?_)

theorem execStreamRead_frame (c : Ctx) (index : Nat) (sub : Nat) (len : Nat) (hs : Frame fp orig s) (hdict : Part.dict ∈ fp := by exact of_decide_eq_true rfl) (hstreams : Part.streams ∈ fp := by exact of_decide_eq_true rfl) (hsilt : Part.silt ∈ fp := by exact of_decide_eq_true rfl) (hmspi : Part.mspi ∈ fp := by exact of_decide_eq_true rfl) (hhost : Part.host ∈ fp := by exact of_decide_eq_true rfl) (hreply : Part.reply ∈ fp := by exact of_decide_eq_true rfl) (hfree : Part.free ∈ fp := by exact of_decide_eq_true rfl) (htime : Part.time ∈ fp := by exact of_decide_eq_true rfl) (hout : Part.out ∈ fp := by exact of_decide_eq_true rfl) (hcpu : Part.cpu ∈ fp := by exact of_decide_eq_true rfl) (htmr : Part.tmr ∈ fp := by exact of_decide_eq_true rfl) (hrx : Part.rx ∈ fp := by exact of_decide_eq_true rfl) (hslots : Part.slots ∈ fp := by exact of_decide_eq_true rfl) (herg : Part.erg ∈ fp := by exact of_decide_eq_true rfl) (hsol : Part.sol ∈ fp := by exact of_decide_eq_true rfl) (hports : Part.ports ∈ fp := by exact of_decide_eq_true rfl) (hnet : Part.net ∈ fp := by exact of_decide_eq_true rfl) (hprot : Part.prot ∈ fp := by exact of_decide_eq_true rfl) (hreader : Part.reader ∈ fp := by exact of_decide_eq_true rfl) (hpower : Part.power ∈ fp := by exact of_decide_eq_true rfl) (hboot : Part.boot ∈ fp := by exact of_decide_eq_true rfl) :
    ∃ t, execStreamRead c index sub len s = .next t ∧ Frame fp orig t := by
  refine ⟨_, rfl, ?_⟩
  repeat' first
    | intro _
    | with_reducible assumption
    | with_reducible apply State.request_frame
    | with_reducible apply onlyIf_frame
    | dsimp only
    | (with_reducible refine frame_mk ?_)

theorem execSnapshot_frame (c : Ctx) (index : Nat) (len : Nat) (hs : Frame fp orig s) (hdict : Part.dict ∈ fp := by exact of_decide_eq_true rfl) (hstreams : Part.streams ∈ fp := by exact of_decide_eq_true rfl) (hsilt : Part.silt ∈ fp := by exact of_decide_eq_true rfl) (hmspi : Part.mspi ∈ fp := by exact of_decide_eq_true rfl) (hhost : Part.host ∈ fp := by exact of_decide_eq_true rfl) (hreply : Part.reply ∈ fp := by exact of_decide_eq_true rfl) (hfree : Part.free ∈ fp := by exact of_decide_eq_true rfl) (htime : Part.time ∈ fp := by exact of_decide_eq_true rfl) (hout : Part.out ∈ fp := by exact of_decide_eq_true rfl) (hcpu : Part.cpu ∈ fp := by exact of_decide_eq_true rfl) (htmr : Part.tmr ∈ fp := by exact of_decide_eq_true rfl) (hrx : Part.rx ∈ fp := by exact of_decide_eq_true rfl) (hslots : Part.slots ∈ fp := by exact of_decide_eq_true rfl) (herg : Part.erg ∈ fp := by exact of_decide_eq_true rfl) (hsol : Part.sol ∈ fp := by exact of_decide_eq_true rfl) (hports : Part.ports ∈ fp := by exact of_decide_eq_true rfl) (hnet : Part.net ∈ fp := by exact of_decide_eq_true rfl) (hprot : Part.prot ∈ fp := by exact of_decide_eq_true rfl) (hreader : Part.reader ∈ fp := by exact of_decide_eq_true rfl) (hpower : Part.power ∈ fp := by exact of_decide_eq_true rfl) (hboot : Part.boot ∈ fp := by exact of_decide_eq_true rfl) :
    ∃ t, execSnapshot c index len s = .next t ∧ Frame fp orig t := by
  refine ⟨_, rfl, ?_⟩
  repeat' first
    | intro _
    | with_reducible assumption
    | with_reducible apply State.request_frame
    | with_reducible apply onlyIf_frame
    | dsimp only
    | (with_reducible refine frame_mk ?_)

theorem execWriteRecord_frame (c : Ctx) (index : Nat) (b_ : List Nat) (hs : Frame fp orig s) (hdict : Part.dict ∈ fp := by exact of_decide_eq_true rfl) (hstreams : Part.streams ∈ fp := by exact of_decide_eq_true rfl) (hsilt : Part.silt ∈ fp := by exact of_decide_eq_true rfl) (hmspi : Part.mspi ∈ fp := by exact of_decide_eq_true rfl) (hhost : Part.host ∈ fp := by exact of_decide_eq_true rfl) (hreply : Part.reply ∈ fp := by exact of_decide_eq_true rfl) (hfree : Part.free ∈ fp := by exact of_decide_eq_true rfl) (htime : Part.time ∈ fp := by exact of_decide_eq_true rfl) (hout : Part.out ∈ fp := by exact of_decide_eq_true rfl) (hcpu : Part.cpu ∈ fp := by exact of_decide_eq_true rfl) (htmr : Part.tmr ∈ fp := by exact of_decide_eq_true rfl) (hrx : Part.rx ∈ fp := by exact of_decide_eq_true rfl) (hslots : Part.slots ∈ fp := by exact of_decide_eq_true rfl) (herg : Part.erg ∈ fp := by exact of_decide_eq_true rfl) (hsol : Part.sol ∈ fp := by exact of_decide_eq_true rfl) (hports : Part.ports ∈ fp := by exact of_decide_eq_true rfl) (hnet : Part.net ∈ fp := by exact of_decide_eq_true rfl) (hprot : Part.prot ∈ fp := by exact of_decide_eq_true rfl) (hreader : Part.reader ∈ fp := by exact of_decide_eq_true rfl) (hpower : Part.power ∈ fp := by exact of_decide_eq_true rfl) (hboot : Part.boot ∈ fp := by exact of_decide_eq_true rfl) :
    ∃ t, execWriteRecord c index b_ s = .next t ∧ Frame fp orig t := by
  refine ⟨_, rfl, ?_⟩
  repeat' first
    | intro _
    | with_reducible assumption
    | with_reducible apply State.request_frame
    | with_reducible apply onlyIf_frame
    | dsimp only
    | (with_reducible refine frame_mk ?_)

theorem execDescribe_frame (c : Ctx) (index : Nat) (sub : Nat) (len : Nat) (hs : Frame fp orig s) (hdict : Part.dict ∈ fp := by exact of_decide_eq_true rfl) (hstreams : Part.streams ∈ fp := by exact of_decide_eq_true rfl) (hsilt : Part.silt ∈ fp := by exact of_decide_eq_true rfl) (hmspi : Part.mspi ∈ fp := by exact of_decide_eq_true rfl) (hhost : Part.host ∈ fp := by exact of_decide_eq_true rfl) (hreply : Part.reply ∈ fp := by exact of_decide_eq_true rfl) (hfree : Part.free ∈ fp := by exact of_decide_eq_true rfl) (htime : Part.time ∈ fp := by exact of_decide_eq_true rfl) (hout : Part.out ∈ fp := by exact of_decide_eq_true rfl) (hcpu : Part.cpu ∈ fp := by exact of_decide_eq_true rfl) (htmr : Part.tmr ∈ fp := by exact of_decide_eq_true rfl) (hrx : Part.rx ∈ fp := by exact of_decide_eq_true rfl) (hslots : Part.slots ∈ fp := by exact of_decide_eq_true rfl) (herg : Part.erg ∈ fp := by exact of_decide_eq_true rfl) (hsol : Part.sol ∈ fp := by exact of_decide_eq_true rfl) (hports : Part.ports ∈ fp := by exact of_decide_eq_true rfl) (hnet : Part.net ∈ fp := by exact of_decide_eq_true rfl) (hprot : Part.prot ∈ fp := by exact of_decide_eq_true rfl) (hreader : Part.reader ∈ fp := by exact of_decide_eq_true rfl) (hpower : Part.power ∈ fp := by exact of_decide_eq_true rfl) (hboot : Part.boot ∈ fp := by exact of_decide_eq_true rfl) :
    ∃ t, execDescribe c index sub len s = .next t ∧ Frame fp orig t := by
  refine ⟨_, rfl, ?_⟩
  repeat' first
    | intro _
    | with_reducible assumption
    | with_reducible apply State.request_frame
    | with_reducible apply onlyIf_frame
    | dsimp only
    | (with_reducible refine frame_mk ?_)

theorem execStatus_frame (n : Nat) (at_ : Nat) (hs : Frame fp orig s) (hmspi : Part.mspi ∈ fp := by exact of_decide_eq_true rfl) (htime : Part.time ∈ fp := by exact of_decide_eq_true rfl) :
    ∃ t, execStatus n at_ s = .next t ∧ Frame fp orig t := by
  refine ⟨_, rfl, ?_⟩
  repeat' first
    | intro _
    | with_reducible assumption
    | with_reducible apply State.statusSent_frame
    | with_reducible apply State.modMspi_frame
    | with_reducible apply State.reach_frame
    | with_reducible apply onlyIf_frame
    | with_reducible apply frame_ite
    | split
    | dsimp only
    | (with_reducible refine frame_mk ?_)

theorem execFetch_frame (n : Nat) (at_ : Nat) (hs : Frame fp orig s) (hmspi : Part.mspi ∈ fp := by exact of_decide_eq_true rfl) (htime : Part.time ∈ fp := by exact of_decide_eq_true rfl) (hpower : Part.power ∈ fp := by exact of_decide_eq_true rfl) (hboot : Part.boot ∈ fp := by exact of_decide_eq_true rfl) :
    ∃ t, execFetch n at_ s = .next t ∧ Frame fp orig t := by
  refine ⟨_, rfl, ?_⟩
  repeat' first
    | intro _
    | with_reducible assumption
    | with_reducible apply State.mspiFetch_frame
    | with_reducible apply State.reach_frame
    | with_reducible apply onlyIf_frame
    | dsimp only
    | (with_reducible refine frame_mk ?_)

theorem execMspiTransfer_frame (b_ : List Nat) (at_ : Nat) (hs : Frame fp orig s) (hdict : Part.dict ∈ fp := by exact of_decide_eq_true rfl) (hmspi : Part.mspi ∈ fp := by exact of_decide_eq_true rfl) (hreply : Part.reply ∈ fp := by exact of_decide_eq_true rfl) (htime : Part.time ∈ fp := by exact of_decide_eq_true rfl) (hpower : Part.power ∈ fp := by exact of_decide_eq_true rfl) (hboot : Part.boot ∈ fp := by exact of_decide_eq_true rfl) :
    ∃ t, execMspiTransfer b_ at_ s = .next t ∧ Frame fp orig t := by
  refine ⟨_, rfl, ?_⟩
  repeat' first
    | intro _
    | with_reducible assumption
    | with_reducible apply State.mspiTransfer_frame
    | with_reducible apply State.reach_frame
    | with_reducible apply onlyIf_frame
    | dsimp only
    | (with_reducible refine frame_mk ?_)

theorem execHostRequest_frame (f : List Nat) (fcs : Bool) (at_ : Nat) (aon : Nat) (hs : Frame fp orig s) (hdict : Part.dict ∈ fp := by exact of_decide_eq_true rfl) (hstreams : Part.streams ∈ fp := by exact of_decide_eq_true rfl) (hsilt : Part.silt ∈ fp := by exact of_decide_eq_true rfl) (hhost : Part.host ∈ fp := by exact of_decide_eq_true rfl) (hreply : Part.reply ∈ fp := by exact of_decide_eq_true rfl) (hfree : Part.free ∈ fp := by exact of_decide_eq_true rfl) (htime : Part.time ∈ fp := by exact of_decide_eq_true rfl) (hout : Part.out ∈ fp := by exact of_decide_eq_true rfl) (hcpu : Part.cpu ∈ fp := by exact of_decide_eq_true rfl) (htmr : Part.tmr ∈ fp := by exact of_decide_eq_true rfl) (hrx : Part.rx ∈ fp := by exact of_decide_eq_true rfl) (hslots : Part.slots ∈ fp := by exact of_decide_eq_true rfl) (herg : Part.erg ∈ fp := by exact of_decide_eq_true rfl) (hsol : Part.sol ∈ fp := by exact of_decide_eq_true rfl) (hports : Part.ports ∈ fp := by exact of_decide_eq_true rfl) (hnet : Part.net ∈ fp := by exact of_decide_eq_true rfl) (hprot : Part.prot ∈ fp := by exact of_decide_eq_true rfl) (hreader : Part.reader ∈ fp := by exact of_decide_eq_true rfl) (hpower : Part.power ∈ fp := by exact of_decide_eq_true rfl) (hboot : Part.boot ∈ fp := by exact of_decide_eq_true rfl) :
    ∃ t, execHostRequest f fcs at_ aon s = .next t ∧ Frame fp orig t := by
  refine ⟨_, rfl, ?_⟩
  repeat' first
    | intro _
    | with_reducible assumption
    | with_reducible apply State.instant_frame
    | with_reducible apply State.hostRequest_frame
    | with_reducible apply onlyIf_frame
    | dsimp only
    | (with_reducible refine frame_mk ?_)

theorem execTxnRequest_frame (at_ : Nat) (aon : Nat) (hs : Frame fp orig s) (hdict : Part.dict ∈ fp := by exact of_decide_eq_true rfl) (hstreams : Part.streams ∈ fp := by exact of_decide_eq_true rfl) (hsilt : Part.silt ∈ fp := by exact of_decide_eq_true rfl) (hhost : Part.host ∈ fp := by exact of_decide_eq_true rfl) (hreply : Part.reply ∈ fp := by exact of_decide_eq_true rfl) (hfree : Part.free ∈ fp := by exact of_decide_eq_true rfl) (htime : Part.time ∈ fp := by exact of_decide_eq_true rfl) (hout : Part.out ∈ fp := by exact of_decide_eq_true rfl) (hcpu : Part.cpu ∈ fp := by exact of_decide_eq_true rfl) (htmr : Part.tmr ∈ fp := by exact of_decide_eq_true rfl) (hrx : Part.rx ∈ fp := by exact of_decide_eq_true rfl) (hslots : Part.slots ∈ fp := by exact of_decide_eq_true rfl) (herg : Part.erg ∈ fp := by exact of_decide_eq_true rfl) (hsol : Part.sol ∈ fp := by exact of_decide_eq_true rfl) (hports : Part.ports ∈ fp := by exact of_decide_eq_true rfl) (hnet : Part.net ∈ fp := by exact of_decide_eq_true rfl) (hprot : Part.prot ∈ fp := by exact of_decide_eq_true rfl) (hreader : Part.reader ∈ fp := by exact of_decide_eq_true rfl) (hpower : Part.power ∈ fp := by exact of_decide_eq_true rfl) (hboot : Part.boot ∈ fp := by exact of_decide_eq_true rfl) :
    ∃ t, execTxnRequest at_ aon s = .next t ∧ Frame fp orig t := by
  refine ⟨_, rfl, ?_⟩
  repeat' first
    | intro _
    | with_reducible assumption
    | with_reducible apply State.instant_frame
    | with_reducible apply State.txnRequest_frame
    | with_reducible apply onlyIf_frame
    | dsimp only
    | (with_reducible refine frame_mk ?_)

theorem execDauDone_frame (core : Nat) (at_ : Nat) (aon : Nat) (hs : Frame fp orig s) (hdict : Part.dict ∈ fp := by exact of_decide_eq_true rfl) (hstreams : Part.streams ∈ fp := by exact of_decide_eq_true rfl) (hsilt : Part.silt ∈ fp := by exact of_decide_eq_true rfl) (hhost : Part.host ∈ fp := by exact of_decide_eq_true rfl) (hreply : Part.reply ∈ fp := by exact of_decide_eq_true rfl) (hfree : Part.free ∈ fp := by exact of_decide_eq_true rfl) (htime : Part.time ∈ fp := by exact of_decide_eq_true rfl) (hout : Part.out ∈ fp := by exact of_decide_eq_true rfl) (hcpu : Part.cpu ∈ fp := by exact of_decide_eq_true rfl) (htmr : Part.tmr ∈ fp := by exact of_decide_eq_true rfl) (hrx : Part.rx ∈ fp := by exact of_decide_eq_true rfl) (hslots : Part.slots ∈ fp := by exact of_decide_eq_true rfl) (herg : Part.erg ∈ fp := by exact of_decide_eq_true rfl) (hsol : Part.sol ∈ fp := by exact of_decide_eq_true rfl) (hports : Part.ports ∈ fp := by exact of_decide_eq_true rfl) (hnet : Part.net ∈ fp := by exact of_decide_eq_true rfl) (hprot : Part.prot ∈ fp := by exact of_decide_eq_true rfl) (hreader : Part.reader ∈ fp := by exact of_decide_eq_true rfl) (hpower : Part.power ∈ fp := by exact of_decide_eq_true rfl) (hboot : Part.boot ∈ fp := by exact of_decide_eq_true rfl) :
    ∃ t, execDauDone core at_ aon s = .next t ∧ Frame fp orig t := by
  refine ⟨_, rfl, ?_⟩
  repeat' first
    | intro _
    | with_reducible assumption
    | with_reducible apply State.instant_frame
    | with_reducible apply State.dauRun_frame
    | with_reducible apply onlyIf_frame
    | dsimp only
    | (with_reducible refine frame_mk ?_)

theorem execKeeperHeld_frame (at_ : Nat) (hs : Frame fp orig s) (hdict : Part.dict ∈ fp := by exact of_decide_eq_true rfl) (hstreams : Part.streams ∈ fp := by exact of_decide_eq_true rfl) (hsilt : Part.silt ∈ fp := by exact of_decide_eq_true rfl) (hmspi : Part.mspi ∈ fp := by exact of_decide_eq_true rfl) (hhost : Part.host ∈ fp := by exact of_decide_eq_true rfl) (hreply : Part.reply ∈ fp := by exact of_decide_eq_true rfl) (hfree : Part.free ∈ fp := by exact of_decide_eq_true rfl) (htime : Part.time ∈ fp := by exact of_decide_eq_true rfl) (hout : Part.out ∈ fp := by exact of_decide_eq_true rfl) (hcpu : Part.cpu ∈ fp := by exact of_decide_eq_true rfl) (htmr : Part.tmr ∈ fp := by exact of_decide_eq_true rfl) (hrx : Part.rx ∈ fp := by exact of_decide_eq_true rfl) (hslots : Part.slots ∈ fp := by exact of_decide_eq_true rfl) (herg : Part.erg ∈ fp := by exact of_decide_eq_true rfl) (hsol : Part.sol ∈ fp := by exact of_decide_eq_true rfl) (hports : Part.ports ∈ fp := by exact of_decide_eq_true rfl) (hnet : Part.net ∈ fp := by exact of_decide_eq_true rfl) (hprot : Part.prot ∈ fp := by exact of_decide_eq_true rfl) (hreader : Part.reader ∈ fp := by exact of_decide_eq_true rfl) (hpower : Part.power ∈ fp := by exact of_decide_eq_true rfl) (hboot : Part.boot ∈ fp := by exact of_decide_eq_true rfl) :
    ∃ t, execKeeperHeld at_ s = .next t ∧ Frame fp orig t := by
  refine ⟨_, rfl, ?_⟩
  repeat' first
    | intro _
    | with_reducible assumption
    | with_reducible apply State.submitEvent_frame
    | with_reducible apply State.keeperHeld_frame
    | with_reducible apply State.reach_frame
    | with_reducible apply onlyIf_frame
    | dsimp only
    | (with_reducible refine frame_mk ?_)

theorem execKeeperHeldTimeout_frame (at_ : Nat) (hs : Frame fp orig s) (hdict : Part.dict ∈ fp := by exact of_decide_eq_true rfl) (hstreams : Part.streams ∈ fp := by exact of_decide_eq_true rfl) (hsilt : Part.silt ∈ fp := by exact of_decide_eq_true rfl) (hmspi : Part.mspi ∈ fp := by exact of_decide_eq_true rfl) (hhost : Part.host ∈ fp := by exact of_decide_eq_true rfl) (hreply : Part.reply ∈ fp := by exact of_decide_eq_true rfl) (hfree : Part.free ∈ fp := by exact of_decide_eq_true rfl) (htime : Part.time ∈ fp := by exact of_decide_eq_true rfl) (hout : Part.out ∈ fp := by exact of_decide_eq_true rfl) (hcpu : Part.cpu ∈ fp := by exact of_decide_eq_true rfl) (htmr : Part.tmr ∈ fp := by exact of_decide_eq_true rfl) (hrx : Part.rx ∈ fp := by exact of_decide_eq_true rfl) (hslots : Part.slots ∈ fp := by exact of_decide_eq_true rfl) (herg : Part.erg ∈ fp := by exact of_decide_eq_true rfl) (hsol : Part.sol ∈ fp := by exact of_decide_eq_true rfl) (hports : Part.ports ∈ fp := by exact of_decide_eq_true rfl) (hnet : Part.net ∈ fp := by exact of_decide_eq_true rfl) (hprot : Part.prot ∈ fp := by exact of_decide_eq_true rfl) (hreader : Part.reader ∈ fp := by exact of_decide_eq_true rfl) (hpower : Part.power ∈ fp := by exact of_decide_eq_true rfl) (hboot : Part.boot ∈ fp := by exact of_decide_eq_true rfl) :
    ∃ t, execKeeperHeldTimeout at_ s = .next t ∧ Frame fp orig t := by
  refine ⟨_, rfl, ?_⟩
  repeat' first
    | intro _
    | with_reducible assumption
    | with_reducible apply State.submitEvent_frame
    | with_reducible apply State.keeperTimeout_frame
    | with_reducible apply State.reach_frame
    | with_reducible apply onlyIf_frame
    | dsimp only
    | (with_reducible refine frame_mk ?_)

theorem execMessageDelivery_frame (at_ : Nat) (aon : Nat) (hs : Frame fp orig s) (hdict : Part.dict ∈ fp := by exact of_decide_eq_true rfl) (hstreams : Part.streams ∈ fp := by exact of_decide_eq_true rfl) (hsilt : Part.silt ∈ fp := by exact of_decide_eq_true rfl) (hhost : Part.host ∈ fp := by exact of_decide_eq_true rfl) (hreply : Part.reply ∈ fp := by exact of_decide_eq_true rfl) (hfree : Part.free ∈ fp := by exact of_decide_eq_true rfl) (htime : Part.time ∈ fp := by exact of_decide_eq_true rfl) (hout : Part.out ∈ fp := by exact of_decide_eq_true rfl) (hcpu : Part.cpu ∈ fp := by exact of_decide_eq_true rfl) (htmr : Part.tmr ∈ fp := by exact of_decide_eq_true rfl) (hrx : Part.rx ∈ fp := by exact of_decide_eq_true rfl) (hslots : Part.slots ∈ fp := by exact of_decide_eq_true rfl) (herg : Part.erg ∈ fp := by exact of_decide_eq_true rfl) (hsol : Part.sol ∈ fp := by exact of_decide_eq_true rfl) (hports : Part.ports ∈ fp := by exact of_decide_eq_true rfl) (hnet : Part.net ∈ fp := by exact of_decide_eq_true rfl) (hprot : Part.prot ∈ fp := by exact of_decide_eq_true rfl) (hreader : Part.reader ∈ fp := by exact of_decide_eq_true rfl) (hpower : Part.power ∈ fp := by exact of_decide_eq_true rfl) (hboot : Part.boot ∈ fp := by exact of_decide_eq_true rfl) :
    ∃ t, execMessageDelivery at_ aon s = .next t ∧ Frame fp orig t := by
  refine ⟨_, rfl, ?_⟩
  repeat' first
    | intro _
    | with_reducible assumption
    | with_reducible apply State.messageDelivery_frame
    | with_reducible apply onlyIf_frame
    | dsimp only
    | (with_reducible refine frame_mk ?_)

theorem execRemoteRequest_frame (c : Ctx) (b_ : List Nat) (hs : Frame fp orig s) (hdict : Part.dict ∈ fp := by exact of_decide_eq_true rfl) (hstreams : Part.streams ∈ fp := by exact of_decide_eq_true rfl) (hsilt : Part.silt ∈ fp := by exact of_decide_eq_true rfl) (hmspi : Part.mspi ∈ fp := by exact of_decide_eq_true rfl) (hhost : Part.host ∈ fp := by exact of_decide_eq_true rfl) (hreply : Part.reply ∈ fp := by exact of_decide_eq_true rfl) (hfree : Part.free ∈ fp := by exact of_decide_eq_true rfl) (htime : Part.time ∈ fp := by exact of_decide_eq_true rfl) (hout : Part.out ∈ fp := by exact of_decide_eq_true rfl) (hcpu : Part.cpu ∈ fp := by exact of_decide_eq_true rfl) (htmr : Part.tmr ∈ fp := by exact of_decide_eq_true rfl) (hrx : Part.rx ∈ fp := by exact of_decide_eq_true rfl) (hslots : Part.slots ∈ fp := by exact of_decide_eq_true rfl) (herg : Part.erg ∈ fp := by exact of_decide_eq_true rfl) (hsol : Part.sol ∈ fp := by exact of_decide_eq_true rfl) (hports : Part.ports ∈ fp := by exact of_decide_eq_true rfl) (hnet : Part.net ∈ fp := by exact of_decide_eq_true rfl) (hprot : Part.prot ∈ fp := by exact of_decide_eq_true rfl) (hreader : Part.reader ∈ fp := by exact of_decide_eq_true rfl) (hpower : Part.power ∈ fp := by exact of_decide_eq_true rfl) (hboot : Part.boot ∈ fp := by exact of_decide_eq_true rfl) :
    ∃ t, execRemoteRequest c b_ s = .next t ∧ Frame fp orig t := by
  refine ⟨_, rfl, ?_⟩
  repeat' first
    | intro _
    | with_reducible assumption
    | with_reducible apply State.write_frame
    | with_reducible apply onlyIf_frame
    | dsimp only
    | (with_reducible refine frame_mk ?_)

theorem execMessageSubmit_frame (c : Ctx) (b_ : List Nat) (hs : Frame fp orig s) (hdict : Part.dict ∈ fp := by exact of_decide_eq_true rfl) (hstreams : Part.streams ∈ fp := by exact of_decide_eq_true rfl) (hsilt : Part.silt ∈ fp := by exact of_decide_eq_true rfl) (hmspi : Part.mspi ∈ fp := by exact of_decide_eq_true rfl) (hhost : Part.host ∈ fp := by exact of_decide_eq_true rfl) (hreply : Part.reply ∈ fp := by exact of_decide_eq_true rfl) (hfree : Part.free ∈ fp := by exact of_decide_eq_true rfl) (htime : Part.time ∈ fp := by exact of_decide_eq_true rfl) (hout : Part.out ∈ fp := by exact of_decide_eq_true rfl) (hcpu : Part.cpu ∈ fp := by exact of_decide_eq_true rfl) (htmr : Part.tmr ∈ fp := by exact of_decide_eq_true rfl) (hrx : Part.rx ∈ fp := by exact of_decide_eq_true rfl) (hslots : Part.slots ∈ fp := by exact of_decide_eq_true rfl) (herg : Part.erg ∈ fp := by exact of_decide_eq_true rfl) (hsol : Part.sol ∈ fp := by exact of_decide_eq_true rfl) (hports : Part.ports ∈ fp := by exact of_decide_eq_true rfl) (hnet : Part.net ∈ fp := by exact of_decide_eq_true rfl) (hprot : Part.prot ∈ fp := by exact of_decide_eq_true rfl) (hreader : Part.reader ∈ fp := by exact of_decide_eq_true rfl) (hpower : Part.power ∈ fp := by exact of_decide_eq_true rfl) (hboot : Part.boot ∈ fp := by exact of_decide_eq_true rfl) :
    ∃ t, execMessageSubmit c b_ s = .next t ∧ Frame fp orig t := by
  refine ⟨_, rfl, ?_⟩
  repeat' first
    | intro _
    | with_reducible assumption
    | with_reducible apply State.write_frame
    | with_reducible apply onlyIf_frame
    | dsimp only
    | (with_reducible refine frame_mk ?_)

theorem execLaunchSubmit_frame (c : Ctx) (b_ : List Nat) (hs : Frame fp orig s) (hdict : Part.dict ∈ fp := by exact of_decide_eq_true rfl) (hstreams : Part.streams ∈ fp := by exact of_decide_eq_true rfl) (hsilt : Part.silt ∈ fp := by exact of_decide_eq_true rfl) (hmspi : Part.mspi ∈ fp := by exact of_decide_eq_true rfl) (hhost : Part.host ∈ fp := by exact of_decide_eq_true rfl) (hreply : Part.reply ∈ fp := by exact of_decide_eq_true rfl) (hfree : Part.free ∈ fp := by exact of_decide_eq_true rfl) (htime : Part.time ∈ fp := by exact of_decide_eq_true rfl) (hout : Part.out ∈ fp := by exact of_decide_eq_true rfl) (hcpu : Part.cpu ∈ fp := by exact of_decide_eq_true rfl) (htmr : Part.tmr ∈ fp := by exact of_decide_eq_true rfl) (hrx : Part.rx ∈ fp := by exact of_decide_eq_true rfl) (hslots : Part.slots ∈ fp := by exact of_decide_eq_true rfl) (herg : Part.erg ∈ fp := by exact of_decide_eq_true rfl) (hsol : Part.sol ∈ fp := by exact of_decide_eq_true rfl) (hports : Part.ports ∈ fp := by exact of_decide_eq_true rfl) (hnet : Part.net ∈ fp := by exact of_decide_eq_true rfl) (hprot : Part.prot ∈ fp := by exact of_decide_eq_true rfl) (hreader : Part.reader ∈ fp := by exact of_decide_eq_true rfl) (hpower : Part.power ∈ fp := by exact of_decide_eq_true rfl) (hboot : Part.boot ∈ fp := by exact of_decide_eq_true rfl) :
    ∃ t, execLaunchSubmit c b_ s = .next t ∧ Frame fp orig t := by
  refine ⟨_, rfl, ?_⟩
  repeat' first
    | intro _
    | with_reducible assumption
    | with_reducible apply State.write_frame
    | with_reducible apply onlyIf_frame
    | dsimp only
    | (with_reducible refine frame_mk ?_)

theorem execHostLeap_frame (c : Ctx) (b_ : List Nat) (hs : Frame fp orig s) (hdict : Part.dict ∈ fp := by exact of_decide_eq_true rfl) (hstreams : Part.streams ∈ fp := by exact of_decide_eq_true rfl) (hsilt : Part.silt ∈ fp := by exact of_decide_eq_true rfl) (hmspi : Part.mspi ∈ fp := by exact of_decide_eq_true rfl) (hhost : Part.host ∈ fp := by exact of_decide_eq_true rfl) (hreply : Part.reply ∈ fp := by exact of_decide_eq_true rfl) (hfree : Part.free ∈ fp := by exact of_decide_eq_true rfl) (htime : Part.time ∈ fp := by exact of_decide_eq_true rfl) (hout : Part.out ∈ fp := by exact of_decide_eq_true rfl) (hcpu : Part.cpu ∈ fp := by exact of_decide_eq_true rfl) (htmr : Part.tmr ∈ fp := by exact of_decide_eq_true rfl) (hrx : Part.rx ∈ fp := by exact of_decide_eq_true rfl) (hslots : Part.slots ∈ fp := by exact of_decide_eq_true rfl) (herg : Part.erg ∈ fp := by exact of_decide_eq_true rfl) (hsol : Part.sol ∈ fp := by exact of_decide_eq_true rfl) (hports : Part.ports ∈ fp := by exact of_decide_eq_true rfl) (hnet : Part.net ∈ fp := by exact of_decide_eq_true rfl) (hprot : Part.prot ∈ fp := by exact of_decide_eq_true rfl) (hreader : Part.reader ∈ fp := by exact of_decide_eq_true rfl) (hpower : Part.power ∈ fp := by exact of_decide_eq_true rfl) (hboot : Part.boot ∈ fp := by exact of_decide_eq_true rfl) :
    ∃ t, execHostLeap c b_ s = .next t ∧ Frame fp orig t := by
  refine ⟨_, rfl, ?_⟩
  repeat' first
    | intro _
    | with_reducible assumption
    | with_reducible apply State.write_frame
    | with_reducible apply onlyIf_frame
    | dsimp only
    | (with_reducible refine frame_mk ?_)

theorem execPondseed_frame (c : Ctx) (v : Nat) (hs : Frame fp orig s) (hdict : Part.dict ∈ fp := by exact of_decide_eq_true rfl) (hstreams : Part.streams ∈ fp := by exact of_decide_eq_true rfl) (hsilt : Part.silt ∈ fp := by exact of_decide_eq_true rfl) (hmspi : Part.mspi ∈ fp := by exact of_decide_eq_true rfl) (hhost : Part.host ∈ fp := by exact of_decide_eq_true rfl) (hreply : Part.reply ∈ fp := by exact of_decide_eq_true rfl) (hfree : Part.free ∈ fp := by exact of_decide_eq_true rfl) (htime : Part.time ∈ fp := by exact of_decide_eq_true rfl) (hout : Part.out ∈ fp := by exact of_decide_eq_true rfl) (hcpu : Part.cpu ∈ fp := by exact of_decide_eq_true rfl) (htmr : Part.tmr ∈ fp := by exact of_decide_eq_true rfl) (hrx : Part.rx ∈ fp := by exact of_decide_eq_true rfl) (hslots : Part.slots ∈ fp := by exact of_decide_eq_true rfl) (herg : Part.erg ∈ fp := by exact of_decide_eq_true rfl) (hsol : Part.sol ∈ fp := by exact of_decide_eq_true rfl) (hports : Part.ports ∈ fp := by exact of_decide_eq_true rfl) (hnet : Part.net ∈ fp := by exact of_decide_eq_true rfl) (hprot : Part.prot ∈ fp := by exact of_decide_eq_true rfl) (hreader : Part.reader ∈ fp := by exact of_decide_eq_true rfl) (hpower : Part.power ∈ fp := by exact of_decide_eq_true rfl) (hboot : Part.boot ∈ fp := by exact of_decide_eq_true rfl) :
    ∃ t, execPondseed c v s = .next t ∧ Frame fp orig t := by
  refine ⟨_, rfl, ?_⟩
  repeat' first
    | intro _
    | with_reducible assumption
    | with_reducible apply State.writeKey_frame
    | with_reducible apply onlyIf_frame
    | dsimp only
    | (with_reducible refine frame_mk ?_)

theorem execPropose_frame (c : Ctx) (b_ : List Nat) (hs : Frame fp orig s) (hdict : Part.dict ∈ fp := by exact of_decide_eq_true rfl) (hstreams : Part.streams ∈ fp := by exact of_decide_eq_true rfl) (hsilt : Part.silt ∈ fp := by exact of_decide_eq_true rfl) (hmspi : Part.mspi ∈ fp := by exact of_decide_eq_true rfl) (hhost : Part.host ∈ fp := by exact of_decide_eq_true rfl) (hreply : Part.reply ∈ fp := by exact of_decide_eq_true rfl) (hfree : Part.free ∈ fp := by exact of_decide_eq_true rfl) (htime : Part.time ∈ fp := by exact of_decide_eq_true rfl) (hout : Part.out ∈ fp := by exact of_decide_eq_true rfl) (hcpu : Part.cpu ∈ fp := by exact of_decide_eq_true rfl) (htmr : Part.tmr ∈ fp := by exact of_decide_eq_true rfl) (hrx : Part.rx ∈ fp := by exact of_decide_eq_true rfl) (hslots : Part.slots ∈ fp := by exact of_decide_eq_true rfl) (herg : Part.erg ∈ fp := by exact of_decide_eq_true rfl) (hsol : Part.sol ∈ fp := by exact of_decide_eq_true rfl) (hports : Part.ports ∈ fp := by exact of_decide_eq_true rfl) (hnet : Part.net ∈ fp := by exact of_decide_eq_true rfl) (hprot : Part.prot ∈ fp := by exact of_decide_eq_true rfl) (hreader : Part.reader ∈ fp := by exact of_decide_eq_true rfl) (hpower : Part.power ∈ fp := by exact of_decide_eq_true rfl) (hboot : Part.boot ∈ fp := by exact of_decide_eq_true rfl) :
    ∃ t, execPropose c b_ s = .next t ∧ Frame fp orig t := by
  refine ⟨_, rfl, ?_⟩
  repeat' first
    | intro _
    | with_reducible assumption
    | with_reducible apply State.write_frame
    | with_reducible apply onlyIf_frame
    | dsimp only
    | (with_reducible refine frame_mk ?_)

theorem execConfirm_frame (c : Ctx) (b_ : List Nat) (hs : Frame fp orig s) (hdict : Part.dict ∈ fp := by exact of_decide_eq_true rfl) (hstreams : Part.streams ∈ fp := by exact of_decide_eq_true rfl) (hsilt : Part.silt ∈ fp := by exact of_decide_eq_true rfl) (hmspi : Part.mspi ∈ fp := by exact of_decide_eq_true rfl) (hhost : Part.host ∈ fp := by exact of_decide_eq_true rfl) (hreply : Part.reply ∈ fp := by exact of_decide_eq_true rfl) (hfree : Part.free ∈ fp := by exact of_decide_eq_true rfl) (htime : Part.time ∈ fp := by exact of_decide_eq_true rfl) (hout : Part.out ∈ fp := by exact of_decide_eq_true rfl) (hcpu : Part.cpu ∈ fp := by exact of_decide_eq_true rfl) (htmr : Part.tmr ∈ fp := by exact of_decide_eq_true rfl) (hrx : Part.rx ∈ fp := by exact of_decide_eq_true rfl) (hslots : Part.slots ∈ fp := by exact of_decide_eq_true rfl) (herg : Part.erg ∈ fp := by exact of_decide_eq_true rfl) (hsol : Part.sol ∈ fp := by exact of_decide_eq_true rfl) (hports : Part.ports ∈ fp := by exact of_decide_eq_true rfl) (hnet : Part.net ∈ fp := by exact of_decide_eq_true rfl) (hprot : Part.prot ∈ fp := by exact of_decide_eq_true rfl) (hreader : Part.reader ∈ fp := by exact of_decide_eq_true rfl) (hpower : Part.power ∈ fp := by exact of_decide_eq_true rfl) (hboot : Part.boot ∈ fp := by exact of_decide_eq_true rfl) :
    ∃ t, execConfirm c b_ s = .next t ∧ Frame fp orig t := by
  refine ⟨_, rfl, ?_⟩
  repeat' first
    | intro _
    | with_reducible assumption
    | with_reducible apply State.write_frame
    | with_reducible apply onlyIf_frame
    | dsimp only
    | (with_reducible refine frame_mk ?_)

theorem execCancel_frame (c : Ctx) (id : Nat) (hs : Frame fp orig s) (hdict : Part.dict ∈ fp := by exact of_decide_eq_true rfl) (hstreams : Part.streams ∈ fp := by exact of_decide_eq_true rfl) (hsilt : Part.silt ∈ fp := by exact of_decide_eq_true rfl) (hmspi : Part.mspi ∈ fp := by exact of_decide_eq_true rfl) (hhost : Part.host ∈ fp := by exact of_decide_eq_true rfl) (hreply : Part.reply ∈ fp := by exact of_decide_eq_true rfl) (hfree : Part.free ∈ fp := by exact of_decide_eq_true rfl) (htime : Part.time ∈ fp := by exact of_decide_eq_true rfl) (hout : Part.out ∈ fp := by exact of_decide_eq_true rfl) (hcpu : Part.cpu ∈ fp := by exact of_decide_eq_true rfl) (htmr : Part.tmr ∈ fp := by exact of_decide_eq_true rfl) (hrx : Part.rx ∈ fp := by exact of_decide_eq_true rfl) (hslots : Part.slots ∈ fp := by exact of_decide_eq_true rfl) (herg : Part.erg ∈ fp := by exact of_decide_eq_true rfl) (hsol : Part.sol ∈ fp := by exact of_decide_eq_true rfl) (hports : Part.ports ∈ fp := by exact of_decide_eq_true rfl) (hnet : Part.net ∈ fp := by exact of_decide_eq_true rfl) (hprot : Part.prot ∈ fp := by exact of_decide_eq_true rfl) (hreader : Part.reader ∈ fp := by exact of_decide_eq_true rfl) (hpower : Part.power ∈ fp := by exact of_decide_eq_true rfl) (hboot : Part.boot ∈ fp := by exact of_decide_eq_true rfl) :
    ∃ t, execCancel c id s = .next t ∧ Frame fp orig t := by
  refine ⟨_, rfl, ?_⟩
  repeat' first
    | intro _
    | with_reducible assumption
    | with_reducible apply State.writeKey_frame
    | with_reducible apply onlyIf_frame
    | dsimp only
    | (with_reducible refine frame_mk ?_)

theorem execImageWrite_frame (c : Ctx) (b_ : List Nat) (hs : Frame fp orig s) (hdict : Part.dict ∈ fp := by exact of_decide_eq_true rfl) (hstreams : Part.streams ∈ fp := by exact of_decide_eq_true rfl) (hsilt : Part.silt ∈ fp := by exact of_decide_eq_true rfl) (hmspi : Part.mspi ∈ fp := by exact of_decide_eq_true rfl) (hhost : Part.host ∈ fp := by exact of_decide_eq_true rfl) (hreply : Part.reply ∈ fp := by exact of_decide_eq_true rfl) (hfree : Part.free ∈ fp := by exact of_decide_eq_true rfl) (htime : Part.time ∈ fp := by exact of_decide_eq_true rfl) (hout : Part.out ∈ fp := by exact of_decide_eq_true rfl) (hcpu : Part.cpu ∈ fp := by exact of_decide_eq_true rfl) (htmr : Part.tmr ∈ fp := by exact of_decide_eq_true rfl) (hrx : Part.rx ∈ fp := by exact of_decide_eq_true rfl) (hslots : Part.slots ∈ fp := by exact of_decide_eq_true rfl) (herg : Part.erg ∈ fp := by exact of_decide_eq_true rfl) (hsol : Part.sol ∈ fp := by exact of_decide_eq_true rfl) (hports : Part.ports ∈ fp := by exact of_decide_eq_true rfl) (hnet : Part.net ∈ fp := by exact of_decide_eq_true rfl) (hprot : Part.prot ∈ fp := by exact of_decide_eq_true rfl) (hreader : Part.reader ∈ fp := by exact of_decide_eq_true rfl) (hpower : Part.power ∈ fp := by exact of_decide_eq_true rfl) (hboot : Part.boot ∈ fp := by exact of_decide_eq_true rfl) :
    ∃ t, execImageWrite c b_ s = .next t ∧ Frame fp orig t := by
  refine ⟨_, rfl, ?_⟩
  repeat' first
    | intro _
    | with_reducible assumption
    | with_reducible apply State.write_frame
    | with_reducible apply onlyIf_frame
    | dsimp only
    | (with_reducible refine frame_mk ?_)

theorem execBegin_frame (c : Ctx) (hs : Frame fp orig s) (hdict : Part.dict ∈ fp := by exact of_decide_eq_true rfl) (hstreams : Part.streams ∈ fp := by exact of_decide_eq_true rfl) (hsilt : Part.silt ∈ fp := by exact of_decide_eq_true rfl) (hmspi : Part.mspi ∈ fp := by exact of_decide_eq_true rfl) (hhost : Part.host ∈ fp := by exact of_decide_eq_true rfl) (hreply : Part.reply ∈ fp := by exact of_decide_eq_true rfl) (hfree : Part.free ∈ fp := by exact of_decide_eq_true rfl) (htime : Part.time ∈ fp := by exact of_decide_eq_true rfl) (hout : Part.out ∈ fp := by exact of_decide_eq_true rfl) (hcpu : Part.cpu ∈ fp := by exact of_decide_eq_true rfl) (htmr : Part.tmr ∈ fp := by exact of_decide_eq_true rfl) (hrx : Part.rx ∈ fp := by exact of_decide_eq_true rfl) (hslots : Part.slots ∈ fp := by exact of_decide_eq_true rfl) (herg : Part.erg ∈ fp := by exact of_decide_eq_true rfl) (hsol : Part.sol ∈ fp := by exact of_decide_eq_true rfl) (hports : Part.ports ∈ fp := by exact of_decide_eq_true rfl) (hnet : Part.net ∈ fp := by exact of_decide_eq_true rfl) (hprot : Part.prot ∈ fp := by exact of_decide_eq_true rfl) (hreader : Part.reader ∈ fp := by exact of_decide_eq_true rfl) (hpower : Part.power ∈ fp := by exact of_decide_eq_true rfl) (hboot : Part.boot ∈ fp := by exact of_decide_eq_true rfl) :
    ∃ t, execBegin c s = .next t ∧ Frame fp orig t := by
  refine ⟨_, rfl, ?_⟩
  repeat' first
    | intro _
    | with_reducible assumption
    | with_reducible apply State.writeKey_frame
    | with_reducible apply onlyIf_frame
    | dsimp only
    | (with_reducible refine frame_mk ?_)

theorem execRun_frame (c : Ctx) (hs : Frame fp orig s) (hdict : Part.dict ∈ fp := by exact of_decide_eq_true rfl) (hstreams : Part.streams ∈ fp := by exact of_decide_eq_true rfl) (hsilt : Part.silt ∈ fp := by exact of_decide_eq_true rfl) (hmspi : Part.mspi ∈ fp := by exact of_decide_eq_true rfl) (hhost : Part.host ∈ fp := by exact of_decide_eq_true rfl) (hreply : Part.reply ∈ fp := by exact of_decide_eq_true rfl) (hfree : Part.free ∈ fp := by exact of_decide_eq_true rfl) (htime : Part.time ∈ fp := by exact of_decide_eq_true rfl) (hout : Part.out ∈ fp := by exact of_decide_eq_true rfl) (hcpu : Part.cpu ∈ fp := by exact of_decide_eq_true rfl) (htmr : Part.tmr ∈ fp := by exact of_decide_eq_true rfl) (hrx : Part.rx ∈ fp := by exact of_decide_eq_true rfl) (hslots : Part.slots ∈ fp := by exact of_decide_eq_true rfl) (herg : Part.erg ∈ fp := by exact of_decide_eq_true rfl) (hsol : Part.sol ∈ fp := by exact of_decide_eq_true rfl) (hports : Part.ports ∈ fp := by exact of_decide_eq_true rfl) (hnet : Part.net ∈ fp := by exact of_decide_eq_true rfl) (hprot : Part.prot ∈ fp := by exact of_decide_eq_true rfl) (hreader : Part.reader ∈ fp := by exact of_decide_eq_true rfl) (hpower : Part.power ∈ fp := by exact of_decide_eq_true rfl) (hboot : Part.boot ∈ fp := by exact of_decide_eq_true rfl) :
    ∃ t, execRun c s = .next t ∧ Frame fp orig t := by
  refine ⟨_, rfl, ?_⟩
  repeat' first
    | intro _
    | with_reducible assumption
    | with_reducible apply State.writeKey_frame
    | with_reducible apply onlyIf_frame
    | dsimp only
    | (with_reducible refine frame_mk ?_)

theorem execStoreAndRun_frame (c : Ctx) (hs : Frame fp orig s) (hdict : Part.dict ∈ fp := by exact of_decide_eq_true rfl) (hstreams : Part.streams ∈ fp := by exact of_decide_eq_true rfl) (hsilt : Part.silt ∈ fp := by exact of_decide_eq_true rfl) (hmspi : Part.mspi ∈ fp := by exact of_decide_eq_true rfl) (hhost : Part.host ∈ fp := by exact of_decide_eq_true rfl) (hreply : Part.reply ∈ fp := by exact of_decide_eq_true rfl) (hfree : Part.free ∈ fp := by exact of_decide_eq_true rfl) (htime : Part.time ∈ fp := by exact of_decide_eq_true rfl) (hout : Part.out ∈ fp := by exact of_decide_eq_true rfl) (hcpu : Part.cpu ∈ fp := by exact of_decide_eq_true rfl) (htmr : Part.tmr ∈ fp := by exact of_decide_eq_true rfl) (hrx : Part.rx ∈ fp := by exact of_decide_eq_true rfl) (hslots : Part.slots ∈ fp := by exact of_decide_eq_true rfl) (herg : Part.erg ∈ fp := by exact of_decide_eq_true rfl) (hsol : Part.sol ∈ fp := by exact of_decide_eq_true rfl) (hports : Part.ports ∈ fp := by exact of_decide_eq_true rfl) (hnet : Part.net ∈ fp := by exact of_decide_eq_true rfl) (hprot : Part.prot ∈ fp := by exact of_decide_eq_true rfl) (hreader : Part.reader ∈ fp := by exact of_decide_eq_true rfl) (hpower : Part.power ∈ fp := by exact of_decide_eq_true rfl) (hboot : Part.boot ∈ fp := by exact of_decide_eq_true rfl) :
    ∃ t, execStoreAndRun c s = .next t ∧ Frame fp orig t := by
  refine ⟨_, rfl, ?_⟩
  repeat' first
    | intro _
    | with_reducible assumption
    | with_reducible apply State.writeKey_frame
    | with_reducible apply onlyIf_frame
    | dsimp only
    | (with_reducible refine frame_mk ?_)

theorem execChannelOpen_frame (c : Ctx) (k : Nat) (hs : Frame fp orig s) (hdict : Part.dict ∈ fp := by exact of_decide_eq_true rfl) (hstreams : Part.streams ∈ fp := by exact of_decide_eq_true rfl) (hsilt : Part.silt ∈ fp := by exact of_decide_eq_true rfl) (hmspi : Part.mspi ∈ fp := by exact of_decide_eq_true rfl) (hhost : Part.host ∈ fp := by exact of_decide_eq_true rfl) (hreply : Part.reply ∈ fp := by exact of_decide_eq_true rfl) (hfree : Part.free ∈ fp := by exact of_decide_eq_true rfl) (htime : Part.time ∈ fp := by exact of_decide_eq_true rfl) (hout : Part.out ∈ fp := by exact of_decide_eq_true rfl) (hcpu : Part.cpu ∈ fp := by exact of_decide_eq_true rfl) (htmr : Part.tmr ∈ fp := by exact of_decide_eq_true rfl) (hrx : Part.rx ∈ fp := by exact of_decide_eq_true rfl) (hslots : Part.slots ∈ fp := by exact of_decide_eq_true rfl) (herg : Part.erg ∈ fp := by exact of_decide_eq_true rfl) (hsol : Part.sol ∈ fp := by exact of_decide_eq_true rfl) (hports : Part.ports ∈ fp := by exact of_decide_eq_true rfl) (hnet : Part.net ∈ fp := by exact of_decide_eq_true rfl) (hprot : Part.prot ∈ fp := by exact of_decide_eq_true rfl) (hreader : Part.reader ∈ fp := by exact of_decide_eq_true rfl) (hpower : Part.power ∈ fp := by exact of_decide_eq_true rfl) (hboot : Part.boot ∈ fp := by exact of_decide_eq_true rfl) :
    ∃ t, execChannelOpen c k s = .next t ∧ Frame fp orig t := by
  refine ⟨_, rfl, ?_⟩
  repeat' first
    | intro _
    | with_reducible assumption
    | with_reducible apply State.writeKey_frame
    | with_reducible apply onlyIf_frame
    | dsimp only
    | (with_reducible refine frame_mk ?_)

theorem execChannelClose_frame (c : Ctx) (k : Nat) (hs : Frame fp orig s) (hdict : Part.dict ∈ fp := by exact of_decide_eq_true rfl) (hstreams : Part.streams ∈ fp := by exact of_decide_eq_true rfl) (hsilt : Part.silt ∈ fp := by exact of_decide_eq_true rfl) (hmspi : Part.mspi ∈ fp := by exact of_decide_eq_true rfl) (hhost : Part.host ∈ fp := by exact of_decide_eq_true rfl) (hreply : Part.reply ∈ fp := by exact of_decide_eq_true rfl) (hfree : Part.free ∈ fp := by exact of_decide_eq_true rfl) (htime : Part.time ∈ fp := by exact of_decide_eq_true rfl) (hout : Part.out ∈ fp := by exact of_decide_eq_true rfl) (hcpu : Part.cpu ∈ fp := by exact of_decide_eq_true rfl) (htmr : Part.tmr ∈ fp := by exact of_decide_eq_true rfl) (hrx : Part.rx ∈ fp := by exact of_decide_eq_true rfl) (hslots : Part.slots ∈ fp := by exact of_decide_eq_true rfl) (herg : Part.erg ∈ fp := by exact of_decide_eq_true rfl) (hsol : Part.sol ∈ fp := by exact of_decide_eq_true rfl) (hports : Part.ports ∈ fp := by exact of_decide_eq_true rfl) (hnet : Part.net ∈ fp := by exact of_decide_eq_true rfl) (hprot : Part.prot ∈ fp := by exact of_decide_eq_true rfl) (hreader : Part.reader ∈ fp := by exact of_decide_eq_true rfl) (hpower : Part.power ∈ fp := by exact of_decide_eq_true rfl) (hboot : Part.boot ∈ fp := by exact of_decide_eq_true rfl) :
    ∃ t, execChannelClose c k s = .next t ∧ Frame fp orig t := by
  refine ⟨_, rfl, ?_⟩
  repeat' first
    | intro _
    | with_reducible assumption
    | with_reducible apply State.writeKey_frame
    | with_reducible apply onlyIf_frame
    | dsimp only
    | (with_reducible refine frame_mk ?_)

theorem execFabricScopeWrite_frame (c : Ctx) (index : Nat) (sub : Nat) (b_ : List Nat) (hs : Frame fp orig s) (hdict : Part.dict ∈ fp := by exact of_decide_eq_true rfl) (hstreams : Part.streams ∈ fp := by exact of_decide_eq_true rfl) (hsilt : Part.silt ∈ fp := by exact of_decide_eq_true rfl) (hmspi : Part.mspi ∈ fp := by exact of_decide_eq_true rfl) (hhost : Part.host ∈ fp := by exact of_decide_eq_true rfl) (hreply : Part.reply ∈ fp := by exact of_decide_eq_true rfl) (hfree : Part.free ∈ fp := by exact of_decide_eq_true rfl) (htime : Part.time ∈ fp := by exact of_decide_eq_true rfl) (hout : Part.out ∈ fp := by exact of_decide_eq_true rfl) (hcpu : Part.cpu ∈ fp := by exact of_decide_eq_true rfl) (htmr : Part.tmr ∈ fp := by exact of_decide_eq_true rfl) (hrx : Part.rx ∈ fp := by exact of_decide_eq_true rfl) (hslots : Part.slots ∈ fp := by exact of_decide_eq_true rfl) (herg : Part.erg ∈ fp := by exact of_decide_eq_true rfl) (hsol : Part.sol ∈ fp := by exact of_decide_eq_true rfl) (hports : Part.ports ∈ fp := by exact of_decide_eq_true rfl) (hnet : Part.net ∈ fp := by exact of_decide_eq_true rfl) (hprot : Part.prot ∈ fp := by exact of_decide_eq_true rfl) (hreader : Part.reader ∈ fp := by exact of_decide_eq_true rfl) (hpower : Part.power ∈ fp := by exact of_decide_eq_true rfl) (hboot : Part.boot ∈ fp := by exact of_decide_eq_true rfl) :
    ∃ t, execFabricScopeWrite c index sub b_ s = .next t ∧ Frame fp orig t := by
  refine ⟨_, rfl, ?_⟩
  repeat' first
    | intro _
    | with_reducible assumption
    | with_reducible apply State.write_frame
    | with_reducible apply onlyIf_frame
    | with_reducible apply frame_ite
    | split
    | dsimp only
    | (with_reducible refine frame_mk ?_)

theorem execRetrain_frame (c : Ctx) (n : Nat) (hs : Frame fp orig s) (hdict : Part.dict ∈ fp := by exact of_decide_eq_true rfl) (hstreams : Part.streams ∈ fp := by exact of_decide_eq_true rfl) (hsilt : Part.silt ∈ fp := by exact of_decide_eq_true rfl) (hmspi : Part.mspi ∈ fp := by exact of_decide_eq_true rfl) (hhost : Part.host ∈ fp := by exact of_decide_eq_true rfl) (hreply : Part.reply ∈ fp := by exact of_decide_eq_true rfl) (hfree : Part.free ∈ fp := by exact of_decide_eq_true rfl) (htime : Part.time ∈ fp := by exact of_decide_eq_true rfl) (hout : Part.out ∈ fp := by exact of_decide_eq_true rfl) (hcpu : Part.cpu ∈ fp := by exact of_decide_eq_true rfl) (htmr : Part.tmr ∈ fp := by exact of_decide_eq_true rfl) (hrx : Part.rx ∈ fp := by exact of_decide_eq_true rfl) (hslots : Part.slots ∈ fp := by exact of_decide_eq_true rfl) (herg : Part.erg ∈ fp := by exact of_decide_eq_true rfl) (hsol : Part.sol ∈ fp := by exact of_decide_eq_true rfl) (hports : Part.ports ∈ fp := by exact of_decide_eq_true rfl) (hnet : Part.net ∈ fp := by exact of_decide_eq_true rfl) (hprot : Part.prot ∈ fp := by exact of_decide_eq_true rfl) (hreader : Part.reader ∈ fp := by exact of_decide_eq_true rfl) (hpower : Part.power ∈ fp := by exact of_decide_eq_true rfl) (hboot : Part.boot ∈ fp := by exact of_decide_eq_true rfl) :
    ∃ t, execRetrain c n s = .next t ∧ Frame fp orig t := by
  refine ⟨_, rfl, ?_⟩
  repeat' first
    | intro _
    | with_reducible assumption
    | with_reducible apply State.writeKey_frame
    | with_reducible apply onlyIf_frame
    | dsimp only
    | (with_reducible refine frame_mk ?_)

theorem execRelease_frame (c : Ctx) (n : Nat) (hs : Frame fp orig s) (hdict : Part.dict ∈ fp := by exact of_decide_eq_true rfl) (hstreams : Part.streams ∈ fp := by exact of_decide_eq_true rfl) (hsilt : Part.silt ∈ fp := by exact of_decide_eq_true rfl) (hmspi : Part.mspi ∈ fp := by exact of_decide_eq_true rfl) (hhost : Part.host ∈ fp := by exact of_decide_eq_true rfl) (hreply : Part.reply ∈ fp := by exact of_decide_eq_true rfl) (hfree : Part.free ∈ fp := by exact of_decide_eq_true rfl) (htime : Part.time ∈ fp := by exact of_decide_eq_true rfl) (hout : Part.out ∈ fp := by exact of_decide_eq_true rfl) (hcpu : Part.cpu ∈ fp := by exact of_decide_eq_true rfl) (htmr : Part.tmr ∈ fp := by exact of_decide_eq_true rfl) (hrx : Part.rx ∈ fp := by exact of_decide_eq_true rfl) (hslots : Part.slots ∈ fp := by exact of_decide_eq_true rfl) (herg : Part.erg ∈ fp := by exact of_decide_eq_true rfl) (hsol : Part.sol ∈ fp := by exact of_decide_eq_true rfl) (hports : Part.ports ∈ fp := by exact of_decide_eq_true rfl) (hnet : Part.net ∈ fp := by exact of_decide_eq_true rfl) (hprot : Part.prot ∈ fp := by exact of_decide_eq_true rfl) (hreader : Part.reader ∈ fp := by exact of_decide_eq_true rfl) (hpower : Part.power ∈ fp := by exact of_decide_eq_true rfl) (hboot : Part.boot ∈ fp := by exact of_decide_eq_true rfl) :
    ∃ t, execRelease c n s = .next t ∧ Frame fp orig t := by
  refine ⟨_, rfl, ?_⟩
  repeat' first
    | intro _
    | with_reducible assumption
    | with_reducible apply State.writeKey_frame
    | with_reducible apply onlyIf_frame
    | dsimp only
    | (with_reducible refine frame_mk ?_)

theorem execCalRequest_frame (c : Ctx) (v : Nat) (hs : Frame fp orig s) (hdict : Part.dict ∈ fp := by exact of_decide_eq_true rfl) (hstreams : Part.streams ∈ fp := by exact of_decide_eq_true rfl) (hsilt : Part.silt ∈ fp := by exact of_decide_eq_true rfl) (hmspi : Part.mspi ∈ fp := by exact of_decide_eq_true rfl) (hhost : Part.host ∈ fp := by exact of_decide_eq_true rfl) (hreply : Part.reply ∈ fp := by exact of_decide_eq_true rfl) (hfree : Part.free ∈ fp := by exact of_decide_eq_true rfl) (htime : Part.time ∈ fp := by exact of_decide_eq_true rfl) (hout : Part.out ∈ fp := by exact of_decide_eq_true rfl) (hcpu : Part.cpu ∈ fp := by exact of_decide_eq_true rfl) (htmr : Part.tmr ∈ fp := by exact of_decide_eq_true rfl) (hrx : Part.rx ∈ fp := by exact of_decide_eq_true rfl) (hslots : Part.slots ∈ fp := by exact of_decide_eq_true rfl) (herg : Part.erg ∈ fp := by exact of_decide_eq_true rfl) (hsol : Part.sol ∈ fp := by exact of_decide_eq_true rfl) (hports : Part.ports ∈ fp := by exact of_decide_eq_true rfl) (hnet : Part.net ∈ fp := by exact of_decide_eq_true rfl) (hprot : Part.prot ∈ fp := by exact of_decide_eq_true rfl) (hreader : Part.reader ∈ fp := by exact of_decide_eq_true rfl) (hpower : Part.power ∈ fp := by exact of_decide_eq_true rfl) (hboot : Part.boot ∈ fp := by exact of_decide_eq_true rfl) :
    ∃ t, execCalRequest c v s = .next t ∧ Frame fp orig t := by
  refine ⟨_, rfl, ?_⟩
  repeat' first
    | intro _
    | with_reducible assumption
    | with_reducible apply State.writeKey_frame
    | with_reducible apply onlyIf_frame
    | dsimp only
    | (with_reducible refine frame_mk ?_)

theorem execFieldOn_frame (c : Ctx) (b_ : List Nat) (hs : Frame fp orig s) (hdict : Part.dict ∈ fp := by exact of_decide_eq_true rfl) (hstreams : Part.streams ∈ fp := by exact of_decide_eq_true rfl) (hsilt : Part.silt ∈ fp := by exact of_decide_eq_true rfl) (hmspi : Part.mspi ∈ fp := by exact of_decide_eq_true rfl) (hhost : Part.host ∈ fp := by exact of_decide_eq_true rfl) (hreply : Part.reply ∈ fp := by exact of_decide_eq_true rfl) (hfree : Part.free ∈ fp := by exact of_decide_eq_true rfl) (htime : Part.time ∈ fp := by exact of_decide_eq_true rfl) (hout : Part.out ∈ fp := by exact of_decide_eq_true rfl) (hcpu : Part.cpu ∈ fp := by exact of_decide_eq_true rfl) (htmr : Part.tmr ∈ fp := by exact of_decide_eq_true rfl) (hrx : Part.rx ∈ fp := by exact of_decide_eq_true rfl) (hslots : Part.slots ∈ fp := by exact of_decide_eq_true rfl) (herg : Part.erg ∈ fp := by exact of_decide_eq_true rfl) (hsol : Part.sol ∈ fp := by exact of_decide_eq_true rfl) (hports : Part.ports ∈ fp := by exact of_decide_eq_true rfl) (hnet : Part.net ∈ fp := by exact of_decide_eq_true rfl) (hprot : Part.prot ∈ fp := by exact of_decide_eq_true rfl) (hreader : Part.reader ∈ fp := by exact of_decide_eq_true rfl) (hpower : Part.power ∈ fp := by exact of_decide_eq_true rfl) (hboot : Part.boot ∈ fp := by exact of_decide_eq_true rfl) :
    ∃ t, execFieldOn c b_ s = .next t ∧ Frame fp orig t := by
  refine ⟨_, rfl, ?_⟩
  repeat' first
    | intro _
    | with_reducible assumption
    | with_reducible apply State.write_frame
    | with_reducible apply onlyIf_frame
    | dsimp only
    | (with_reducible refine frame_mk ?_)

theorem execFieldOff_frame (c : Ctx) (b_ : List Nat) (hs : Frame fp orig s) (hdict : Part.dict ∈ fp := by exact of_decide_eq_true rfl) (hstreams : Part.streams ∈ fp := by exact of_decide_eq_true rfl) (hsilt : Part.silt ∈ fp := by exact of_decide_eq_true rfl) (hmspi : Part.mspi ∈ fp := by exact of_decide_eq_true rfl) (hhost : Part.host ∈ fp := by exact of_decide_eq_true rfl) (hreply : Part.reply ∈ fp := by exact of_decide_eq_true rfl) (hfree : Part.free ∈ fp := by exact of_decide_eq_true rfl) (htime : Part.time ∈ fp := by exact of_decide_eq_true rfl) (hout : Part.out ∈ fp := by exact of_decide_eq_true rfl) (hcpu : Part.cpu ∈ fp := by exact of_decide_eq_true rfl) (htmr : Part.tmr ∈ fp := by exact of_decide_eq_true rfl) (hrx : Part.rx ∈ fp := by exact of_decide_eq_true rfl) (hslots : Part.slots ∈ fp := by exact of_decide_eq_true rfl) (herg : Part.erg ∈ fp := by exact of_decide_eq_true rfl) (hsol : Part.sol ∈ fp := by exact of_decide_eq_true rfl) (hports : Part.ports ∈ fp := by exact of_decide_eq_true rfl) (hnet : Part.net ∈ fp := by exact of_decide_eq_true rfl) (hprot : Part.prot ∈ fp := by exact of_decide_eq_true rfl) (hreader : Part.reader ∈ fp := by exact of_decide_eq_true rfl) (hpower : Part.power ∈ fp := by exact of_decide_eq_true rfl) (hboot : Part.boot ∈ fp := by exact of_decide_eq_true rfl) :
    ∃ t, execFieldOff c b_ s = .next t ∧ Frame fp orig t := by
  refine ⟨_, rfl, ?_⟩
  repeat' first
    | intro _
    | with_reducible assumption
    | with_reducible apply State.write_frame
    | with_reducible apply onlyIf_frame
    | dsimp only
    | (with_reducible refine frame_mk ?_)

theorem execTransceive_frame (c : Ctx) (b_ : List Nat) (hs : Frame fp orig s) (hdict : Part.dict ∈ fp := by exact of_decide_eq_true rfl) (hstreams : Part.streams ∈ fp := by exact of_decide_eq_true rfl) (hsilt : Part.silt ∈ fp := by exact of_decide_eq_true rfl) (hmspi : Part.mspi ∈ fp := by exact of_decide_eq_true rfl) (hhost : Part.host ∈ fp := by exact of_decide_eq_true rfl) (hreply : Part.reply ∈ fp := by exact of_decide_eq_true rfl) (hfree : Part.free ∈ fp := by exact of_decide_eq_true rfl) (htime : Part.time ∈ fp := by exact of_decide_eq_true rfl) (hout : Part.out ∈ fp := by exact of_decide_eq_true rfl) (hcpu : Part.cpu ∈ fp := by exact of_decide_eq_true rfl) (htmr : Part.tmr ∈ fp := by exact of_decide_eq_true rfl) (hrx : Part.rx ∈ fp := by exact of_decide_eq_true rfl) (hslots : Part.slots ∈ fp := by exact of_decide_eq_true rfl) (herg : Part.erg ∈ fp := by exact of_decide_eq_true rfl) (hsol : Part.sol ∈ fp := by exact of_decide_eq_true rfl) (hports : Part.ports ∈ fp := by exact of_decide_eq_true rfl) (hnet : Part.net ∈ fp := by exact of_decide_eq_true rfl) (hprot : Part.prot ∈ fp := by exact of_decide_eq_true rfl) (hreader : Part.reader ∈ fp := by exact of_decide_eq_true rfl) (hpower : Part.power ∈ fp := by exact of_decide_eq_true rfl) (hboot : Part.boot ∈ fp := by exact of_decide_eq_true rfl) :
    ∃ t, execTransceive c b_ s = .next t ∧ Frame fp orig t := by
  refine ⟨_, rfl, ?_⟩
  repeat' first
    | intro _
    | with_reducible assumption
    | with_reducible apply State.write_frame
    | with_reducible apply onlyIf_frame
    | dsimp only
    | (with_reducible refine frame_mk ?_)

theorem execInventory_frame (c : Ctx) (b_ : List Nat) (hs : Frame fp orig s) (hdict : Part.dict ∈ fp := by exact of_decide_eq_true rfl) (hstreams : Part.streams ∈ fp := by exact of_decide_eq_true rfl) (hsilt : Part.silt ∈ fp := by exact of_decide_eq_true rfl) (hmspi : Part.mspi ∈ fp := by exact of_decide_eq_true rfl) (hhost : Part.host ∈ fp := by exact of_decide_eq_true rfl) (hreply : Part.reply ∈ fp := by exact of_decide_eq_true rfl) (hfree : Part.free ∈ fp := by exact of_decide_eq_true rfl) (htime : Part.time ∈ fp := by exact of_decide_eq_true rfl) (hout : Part.out ∈ fp := by exact of_decide_eq_true rfl) (hcpu : Part.cpu ∈ fp := by exact of_decide_eq_true rfl) (htmr : Part.tmr ∈ fp := by exact of_decide_eq_true rfl) (hrx : Part.rx ∈ fp := by exact of_decide_eq_true rfl) (hslots : Part.slots ∈ fp := by exact of_decide_eq_true rfl) (herg : Part.erg ∈ fp := by exact of_decide_eq_true rfl) (hsol : Part.sol ∈ fp := by exact of_decide_eq_true rfl) (hports : Part.ports ∈ fp := by exact of_decide_eq_true rfl) (hnet : Part.net ∈ fp := by exact of_decide_eq_true rfl) (hprot : Part.prot ∈ fp := by exact of_decide_eq_true rfl) (hreader : Part.reader ∈ fp := by exact of_decide_eq_true rfl) (hpower : Part.power ∈ fp := by exact of_decide_eq_true rfl) (hboot : Part.boot ∈ fp := by exact of_decide_eq_true rfl) :
    ∃ t, execInventory c b_ s = .next t ∧ Frame fp orig t := by
  refine ⟨_, rfl, ?_⟩
  repeat' first
    | intro _
    | with_reducible assumption
    | with_reducible apply State.write_frame
    | with_reducible apply onlyIf_frame
    | dsimp only
    | (with_reducible refine frame_mk ?_)

theorem execCalibrate_frame (c : Ctx) (hs : Frame fp orig s) (hdict : Part.dict ∈ fp := by exact of_decide_eq_true rfl) (hstreams : Part.streams ∈ fp := by exact of_decide_eq_true rfl) (hsilt : Part.silt ∈ fp := by exact of_decide_eq_true rfl) (hmspi : Part.mspi ∈ fp := by exact of_decide_eq_true rfl) (hhost : Part.host ∈ fp := by exact of_decide_eq_true rfl) (hreply : Part.reply ∈ fp := by exact of_decide_eq_true rfl) (hfree : Part.free ∈ fp := by exact of_decide_eq_true rfl) (htime : Part.time ∈ fp := by exact of_decide_eq_true rfl) (hout : Part.out ∈ fp := by exact of_decide_eq_true rfl) (hcpu : Part.cpu ∈ fp := by exact of_decide_eq_true rfl) (htmr : Part.tmr ∈ fp := by exact of_decide_eq_true rfl) (hrx : Part.rx ∈ fp := by exact of_decide_eq_true rfl) (hslots : Part.slots ∈ fp := by exact of_decide_eq_true rfl) (herg : Part.erg ∈ fp := by exact of_decide_eq_true rfl) (hsol : Part.sol ∈ fp := by exact of_decide_eq_true rfl) (hports : Part.ports ∈ fp := by exact of_decide_eq_true rfl) (hnet : Part.net ∈ fp := by exact of_decide_eq_true rfl) (hprot : Part.prot ∈ fp := by exact of_decide_eq_true rfl) (hreader : Part.reader ∈ fp := by exact of_decide_eq_true rfl) (hpower : Part.power ∈ fp := by exact of_decide_eq_true rfl) (hboot : Part.boot ∈ fp := by exact of_decide_eq_true rfl) :
    ∃ t, execCalibrate c s = .next t ∧ Frame fp orig t := by
  refine ⟨_, rfl, ?_⟩
  repeat' first
    | intro _
    | with_reducible assumption
    | with_reducible apply State.writeKey_frame
    | with_reducible apply onlyIf_frame
    | dsimp only
    | (with_reducible refine frame_mk ?_)

theorem execScanCommand_frame (c : Ctx) (v : Nat) (hs : Frame fp orig s) (hdict : Part.dict ∈ fp := by exact of_decide_eq_true rfl) (hstreams : Part.streams ∈ fp := by exact of_decide_eq_true rfl) (hsilt : Part.silt ∈ fp := by exact of_decide_eq_true rfl) (hmspi : Part.mspi ∈ fp := by exact of_decide_eq_true rfl) (hhost : Part.host ∈ fp := by exact of_decide_eq_true rfl) (hreply : Part.reply ∈ fp := by exact of_decide_eq_true rfl) (hfree : Part.free ∈ fp := by exact of_decide_eq_true rfl) (htime : Part.time ∈ fp := by exact of_decide_eq_true rfl) (hout : Part.out ∈ fp := by exact of_decide_eq_true rfl) (hcpu : Part.cpu ∈ fp := by exact of_decide_eq_true rfl) (htmr : Part.tmr ∈ fp := by exact of_decide_eq_true rfl) (hrx : Part.rx ∈ fp := by exact of_decide_eq_true rfl) (hslots : Part.slots ∈ fp := by exact of_decide_eq_true rfl) (herg : Part.erg ∈ fp := by exact of_decide_eq_true rfl) (hsol : Part.sol ∈ fp := by exact of_decide_eq_true rfl) (hports : Part.ports ∈ fp := by exact of_decide_eq_true rfl) (hnet : Part.net ∈ fp := by exact of_decide_eq_true rfl) (hprot : Part.prot ∈ fp := by exact of_decide_eq_true rfl) (hreader : Part.reader ∈ fp := by exact of_decide_eq_true rfl) (hpower : Part.power ∈ fp := by exact of_decide_eq_true rfl) (hboot : Part.boot ∈ fp := by exact of_decide_eq_true rfl) :
    ∃ t, execScanCommand c v s = .next t ∧ Frame fp orig t := by
  refine ⟨_, rfl, ?_⟩
  repeat' first
    | intro _
    | with_reducible assumption
    | with_reducible apply State.writeKey_frame
    | with_reducible apply onlyIf_frame
    | dsimp only
    | (with_reducible refine frame_mk ?_)

theorem execStart_frame (c : Ctx) (n : Nat) (hs : Frame fp orig s) (hdict : Part.dict ∈ fp := by exact of_decide_eq_true rfl) (hstreams : Part.streams ∈ fp := by exact of_decide_eq_true rfl) (hsilt : Part.silt ∈ fp := by exact of_decide_eq_true rfl) (hmspi : Part.mspi ∈ fp := by exact of_decide_eq_true rfl) (hhost : Part.host ∈ fp := by exact of_decide_eq_true rfl) (hreply : Part.reply ∈ fp := by exact of_decide_eq_true rfl) (hfree : Part.free ∈ fp := by exact of_decide_eq_true rfl) (htime : Part.time ∈ fp := by exact of_decide_eq_true rfl) (hout : Part.out ∈ fp := by exact of_decide_eq_true rfl) (hcpu : Part.cpu ∈ fp := by exact of_decide_eq_true rfl) (htmr : Part.tmr ∈ fp := by exact of_decide_eq_true rfl) (hrx : Part.rx ∈ fp := by exact of_decide_eq_true rfl) (hslots : Part.slots ∈ fp := by exact of_decide_eq_true rfl) (herg : Part.erg ∈ fp := by exact of_decide_eq_true rfl) (hsol : Part.sol ∈ fp := by exact of_decide_eq_true rfl) (hports : Part.ports ∈ fp := by exact of_decide_eq_true rfl) (hnet : Part.net ∈ fp := by exact of_decide_eq_true rfl) (hprot : Part.prot ∈ fp := by exact of_decide_eq_true rfl) (hreader : Part.reader ∈ fp := by exact of_decide_eq_true rfl) (hpower : Part.power ∈ fp := by exact of_decide_eq_true rfl) (hboot : Part.boot ∈ fp := by exact of_decide_eq_true rfl) :
    ∃ t, execStart c n s = .next t ∧ Frame fp orig t := by
  refine ⟨_, rfl, ?_⟩
  repeat' first
    | intro _
    | with_reducible assumption
    | with_reducible apply State.writeKey_frame
    | with_reducible apply onlyIf_frame
    | dsimp only
    | (with_reducible refine frame_mk ?_)

theorem execStartLateOk_frame (c : Ctx) (n : Nat) (hs : Frame fp orig s) (hdict : Part.dict ∈ fp := by exact of_decide_eq_true rfl) (hstreams : Part.streams ∈ fp := by exact of_decide_eq_true rfl) (hsilt : Part.silt ∈ fp := by exact of_decide_eq_true rfl) (hmspi : Part.mspi ∈ fp := by exact of_decide_eq_true rfl) (hhost : Part.host ∈ fp := by exact of_decide_eq_true rfl) (hreply : Part.reply ∈ fp := by exact of_decide_eq_true rfl) (hfree : Part.free ∈ fp := by exact of_decide_eq_true rfl) (htime : Part.time ∈ fp := by exact of_decide_eq_true rfl) (hout : Part.out ∈ fp := by exact of_decide_eq_true rfl) (hcpu : Part.cpu ∈ fp := by exact of_decide_eq_true rfl) (htmr : Part.tmr ∈ fp := by exact of_decide_eq_true rfl) (hrx : Part.rx ∈ fp := by exact of_decide_eq_true rfl) (hslots : Part.slots ∈ fp := by exact of_decide_eq_true rfl) (herg : Part.erg ∈ fp := by exact of_decide_eq_true rfl) (hsol : Part.sol ∈ fp := by exact of_decide_eq_true rfl) (hports : Part.ports ∈ fp := by exact of_decide_eq_true rfl) (hnet : Part.net ∈ fp := by exact of_decide_eq_true rfl) (hprot : Part.prot ∈ fp := by exact of_decide_eq_true rfl) (hreader : Part.reader ∈ fp := by exact of_decide_eq_true rfl) (hpower : Part.power ∈ fp := by exact of_decide_eq_true rfl) (hboot : Part.boot ∈ fp := by exact of_decide_eq_true rfl) :
    ∃ t, execStartLateOk c n s = .next t ∧ Frame fp orig t := by
  refine ⟨_, rfl, ?_⟩
  repeat' first
    | intro _
    | with_reducible assumption
    | with_reducible apply State.writeKey_frame
    | with_reducible apply onlyIf_frame
    | dsimp only
    | (with_reducible refine frame_mk ?_)

theorem execStop_frame (c : Ctx) (n : Nat) (hs : Frame fp orig s) (hdict : Part.dict ∈ fp := by exact of_decide_eq_true rfl) (hstreams : Part.streams ∈ fp := by exact of_decide_eq_true rfl) (hsilt : Part.silt ∈ fp := by exact of_decide_eq_true rfl) (hmspi : Part.mspi ∈ fp := by exact of_decide_eq_true rfl) (hhost : Part.host ∈ fp := by exact of_decide_eq_true rfl) (hreply : Part.reply ∈ fp := by exact of_decide_eq_true rfl) (hfree : Part.free ∈ fp := by exact of_decide_eq_true rfl) (htime : Part.time ∈ fp := by exact of_decide_eq_true rfl) (hout : Part.out ∈ fp := by exact of_decide_eq_true rfl) (hcpu : Part.cpu ∈ fp := by exact of_decide_eq_true rfl) (htmr : Part.tmr ∈ fp := by exact of_decide_eq_true rfl) (hrx : Part.rx ∈ fp := by exact of_decide_eq_true rfl) (hslots : Part.slots ∈ fp := by exact of_decide_eq_true rfl) (herg : Part.erg ∈ fp := by exact of_decide_eq_true rfl) (hsol : Part.sol ∈ fp := by exact of_decide_eq_true rfl) (hports : Part.ports ∈ fp := by exact of_decide_eq_true rfl) (hnet : Part.net ∈ fp := by exact of_decide_eq_true rfl) (hprot : Part.prot ∈ fp := by exact of_decide_eq_true rfl) (hreader : Part.reader ∈ fp := by exact of_decide_eq_true rfl) (hpower : Part.power ∈ fp := by exact of_decide_eq_true rfl) (hboot : Part.boot ∈ fp := by exact of_decide_eq_true rfl) :
    ∃ t, execStop c n s = .next t ∧ Frame fp orig t := by
  refine ⟨_, rfl, ?_⟩
  repeat' first
    | intro _
    | with_reducible assumption
    | with_reducible apply State.writeKey_frame
    | with_reducible apply onlyIf_frame
    | dsimp only
    | (with_reducible refine frame_mk ?_)

theorem execGroupStart_frame (c : Ctx) (mask : Nat) (hs : Frame fp orig s) (hdict : Part.dict ∈ fp := by exact of_decide_eq_true rfl) (hstreams : Part.streams ∈ fp := by exact of_decide_eq_true rfl) (hsilt : Part.silt ∈ fp := by exact of_decide_eq_true rfl) (hmspi : Part.mspi ∈ fp := by exact of_decide_eq_true rfl) (hhost : Part.host ∈ fp := by exact of_decide_eq_true rfl) (hreply : Part.reply ∈ fp := by exact of_decide_eq_true rfl) (hfree : Part.free ∈ fp := by exact of_decide_eq_true rfl) (htime : Part.time ∈ fp := by exact of_decide_eq_true rfl) (hout : Part.out ∈ fp := by exact of_decide_eq_true rfl) (hcpu : Part.cpu ∈ fp := by exact of_decide_eq_true rfl) (htmr : Part.tmr ∈ fp := by exact of_decide_eq_true rfl) (hrx : Part.rx ∈ fp := by exact of_decide_eq_true rfl) (hslots : Part.slots ∈ fp := by exact of_decide_eq_true rfl) (herg : Part.erg ∈ fp := by exact of_decide_eq_true rfl) (hsol : Part.sol ∈ fp := by exact of_decide_eq_true rfl) (hports : Part.ports ∈ fp := by exact of_decide_eq_true rfl) (hnet : Part.net ∈ fp := by exact of_decide_eq_true rfl) (hprot : Part.prot ∈ fp := by exact of_decide_eq_true rfl) (hreader : Part.reader ∈ fp := by exact of_decide_eq_true rfl) (hpower : Part.power ∈ fp := by exact of_decide_eq_true rfl) (hboot : Part.boot ∈ fp := by exact of_decide_eq_true rfl) :
    ∃ t, execGroupStart c mask s = .next t ∧ Frame fp orig t := by
  refine ⟨_, rfl, ?_⟩
  repeat' first
    | intro _
    | with_reducible assumption
    | with_reducible apply State.writeKey_frame
    | with_reducible apply onlyIf_frame
    | dsimp only
    | (with_reducible refine frame_mk ?_)

theorem execCaptureRead_frame (c : Ctx) (i : Nat) (hs : Frame fp orig s) (hdict : Part.dict ∈ fp := by exact of_decide_eq_true rfl) (hstreams : Part.streams ∈ fp := by exact of_decide_eq_true rfl) (hsilt : Part.silt ∈ fp := by exact of_decide_eq_true rfl) (hmspi : Part.mspi ∈ fp := by exact of_decide_eq_true rfl) (hhost : Part.host ∈ fp := by exact of_decide_eq_true rfl) (hreply : Part.reply ∈ fp := by exact of_decide_eq_true rfl) (hfree : Part.free ∈ fp := by exact of_decide_eq_true rfl) (htime : Part.time ∈ fp := by exact of_decide_eq_true rfl) (hout : Part.out ∈ fp := by exact of_decide_eq_true rfl) (hcpu : Part.cpu ∈ fp := by exact of_decide_eq_true rfl) (htmr : Part.tmr ∈ fp := by exact of_decide_eq_true rfl) (hrx : Part.rx ∈ fp := by exact of_decide_eq_true rfl) (hslots : Part.slots ∈ fp := by exact of_decide_eq_true rfl) (herg : Part.erg ∈ fp := by exact of_decide_eq_true rfl) (hsol : Part.sol ∈ fp := by exact of_decide_eq_true rfl) (hports : Part.ports ∈ fp := by exact of_decide_eq_true rfl) (hnet : Part.net ∈ fp := by exact of_decide_eq_true rfl) (hprot : Part.prot ∈ fp := by exact of_decide_eq_true rfl) (hreader : Part.reader ∈ fp := by exact of_decide_eq_true rfl) (hpower : Part.power ∈ fp := by exact of_decide_eq_true rfl) (hboot : Part.boot ∈ fp := by exact of_decide_eq_true rfl) :
    ∃ t, execCaptureRead c i s = .next t ∧ Frame fp orig t := by
  refine ⟨_, rfl, ?_⟩
  repeat' first
    | intro _
    | with_reducible assumption
    | with_reducible apply State.request_frame
    | with_reducible apply onlyIf_frame
    | dsimp only
    | (with_reducible refine frame_mk ?_)

theorem execSiltRecordRead_frame (c : Ctx) (r : Nat) (hs : Frame fp orig s) (hdict : Part.dict ∈ fp := by exact of_decide_eq_true rfl) (hstreams : Part.streams ∈ fp := by exact of_decide_eq_true rfl) (hsilt : Part.silt ∈ fp := by exact of_decide_eq_true rfl) (hmspi : Part.mspi ∈ fp := by exact of_decide_eq_true rfl) (hhost : Part.host ∈ fp := by exact of_decide_eq_true rfl) (hreply : Part.reply ∈ fp := by exact of_decide_eq_true rfl) (hfree : Part.free ∈ fp := by exact of_decide_eq_true rfl) (htime : Part.time ∈ fp := by exact of_decide_eq_true rfl) (hout : Part.out ∈ fp := by exact of_decide_eq_true rfl) (hcpu : Part.cpu ∈ fp := by exact of_decide_eq_true rfl) (htmr : Part.tmr ∈ fp := by exact of_decide_eq_true rfl) (hrx : Part.rx ∈ fp := by exact of_decide_eq_true rfl) (hslots : Part.slots ∈ fp := by exact of_decide_eq_true rfl) (herg : Part.erg ∈ fp := by exact of_decide_eq_true rfl) (hsol : Part.sol ∈ fp := by exact of_decide_eq_true rfl) (hports : Part.ports ∈ fp := by exact of_decide_eq_true rfl) (hnet : Part.net ∈ fp := by exact of_decide_eq_true rfl) (hprot : Part.prot ∈ fp := by exact of_decide_eq_true rfl) (hreader : Part.reader ∈ fp := by exact of_decide_eq_true rfl) (hpower : Part.power ∈ fp := by exact of_decide_eq_true rfl) (hboot : Part.boot ∈ fp := by exact of_decide_eq_true rfl) :
    ∃ t, execSiltRecordRead c r s = .next t ∧ Frame fp orig t := by
  refine ⟨_, rfl, ?_⟩
  repeat' first
    | intro _
    | with_reducible assumption
    | with_reducible apply State.request_frame
    | with_reducible apply onlyIf_frame
    | dsimp only
    | (with_reducible refine frame_mk ?_)

theorem execPowerModeNone_frame (c : Ctx) (hs : Frame fp orig s) (hdict : Part.dict ∈ fp := by exact of_decide_eq_true rfl) (hstreams : Part.streams ∈ fp := by exact of_decide_eq_true rfl) (hsilt : Part.silt ∈ fp := by exact of_decide_eq_true rfl) (hmspi : Part.mspi ∈ fp := by exact of_decide_eq_true rfl) (hhost : Part.host ∈ fp := by exact of_decide_eq_true rfl) (hreply : Part.reply ∈ fp := by exact of_decide_eq_true rfl) (hfree : Part.free ∈ fp := by exact of_decide_eq_true rfl) (htime : Part.time ∈ fp := by exact of_decide_eq_true rfl) (hout : Part.out ∈ fp := by exact of_decide_eq_true rfl) (hcpu : Part.cpu ∈ fp := by exact of_decide_eq_true rfl) (htmr : Part.tmr ∈ fp := by exact of_decide_eq_true rfl) (hrx : Part.rx ∈ fp := by exact of_decide_eq_true rfl) (hslots : Part.slots ∈ fp := by exact of_decide_eq_true rfl) (herg : Part.erg ∈ fp := by exact of_decide_eq_true rfl) (hsol : Part.sol ∈ fp := by exact of_decide_eq_true rfl) (hports : Part.ports ∈ fp := by exact of_decide_eq_true rfl) (hnet : Part.net ∈ fp := by exact of_decide_eq_true rfl) (hprot : Part.prot ∈ fp := by exact of_decide_eq_true rfl) (hreader : Part.reader ∈ fp := by exact of_decide_eq_true rfl) (hpower : Part.power ∈ fp := by exact of_decide_eq_true rfl) (hboot : Part.boot ∈ fp := by exact of_decide_eq_true rfl) :
    ∃ t, execPowerModeNone c s = .next t ∧ Frame fp orig t := by
  refine ⟨_, rfl, ?_⟩
  repeat' first
    | intro _
    | with_reducible assumption
    | with_reducible apply State.writeKey_frame
    | with_reducible apply onlyIf_frame
    | dsimp only
    | (with_reducible refine frame_mk ?_)

theorem execPowerModeSleep_frame (c : Ctx) (hs : Frame fp orig s) (hdict : Part.dict ∈ fp := by exact of_decide_eq_true rfl) (hstreams : Part.streams ∈ fp := by exact of_decide_eq_true rfl) (hsilt : Part.silt ∈ fp := by exact of_decide_eq_true rfl) (hmspi : Part.mspi ∈ fp := by exact of_decide_eq_true rfl) (hhost : Part.host ∈ fp := by exact of_decide_eq_true rfl) (hreply : Part.reply ∈ fp := by exact of_decide_eq_true rfl) (hfree : Part.free ∈ fp := by exact of_decide_eq_true rfl) (htime : Part.time ∈ fp := by exact of_decide_eq_true rfl) (hout : Part.out ∈ fp := by exact of_decide_eq_true rfl) (hcpu : Part.cpu ∈ fp := by exact of_decide_eq_true rfl) (htmr : Part.tmr ∈ fp := by exact of_decide_eq_true rfl) (hrx : Part.rx ∈ fp := by exact of_decide_eq_true rfl) (hslots : Part.slots ∈ fp := by exact of_decide_eq_true rfl) (herg : Part.erg ∈ fp := by exact of_decide_eq_true rfl) (hsol : Part.sol ∈ fp := by exact of_decide_eq_true rfl) (hports : Part.ports ∈ fp := by exact of_decide_eq_true rfl) (hnet : Part.net ∈ fp := by exact of_decide_eq_true rfl) (hprot : Part.prot ∈ fp := by exact of_decide_eq_true rfl) (hreader : Part.reader ∈ fp := by exact of_decide_eq_true rfl) (hpower : Part.power ∈ fp := by exact of_decide_eq_true rfl) (hboot : Part.boot ∈ fp := by exact of_decide_eq_true rfl) :
    ∃ t, execPowerModeSleep c s = .next t ∧ Frame fp orig t := by
  refine ⟨_, rfl, ?_⟩
  repeat' first
    | intro _
    | with_reducible assumption
    | with_reducible apply State.writeKey_frame
    | with_reducible apply onlyIf_frame
    | dsimp only
    | (with_reducible refine frame_mk ?_)

theorem execPowerModeDeep_frame (c : Ctx) (hs : Frame fp orig s) (hdict : Part.dict ∈ fp := by exact of_decide_eq_true rfl) (hstreams : Part.streams ∈ fp := by exact of_decide_eq_true rfl) (hsilt : Part.silt ∈ fp := by exact of_decide_eq_true rfl) (hmspi : Part.mspi ∈ fp := by exact of_decide_eq_true rfl) (hhost : Part.host ∈ fp := by exact of_decide_eq_true rfl) (hreply : Part.reply ∈ fp := by exact of_decide_eq_true rfl) (hfree : Part.free ∈ fp := by exact of_decide_eq_true rfl) (htime : Part.time ∈ fp := by exact of_decide_eq_true rfl) (hout : Part.out ∈ fp := by exact of_decide_eq_true rfl) (hcpu : Part.cpu ∈ fp := by exact of_decide_eq_true rfl) (htmr : Part.tmr ∈ fp := by exact of_decide_eq_true rfl) (hrx : Part.rx ∈ fp := by exact of_decide_eq_true rfl) (hslots : Part.slots ∈ fp := by exact of_decide_eq_true rfl) (herg : Part.erg ∈ fp := by exact of_decide_eq_true rfl) (hsol : Part.sol ∈ fp := by exact of_decide_eq_true rfl) (hports : Part.ports ∈ fp := by exact of_decide_eq_true rfl) (hnet : Part.net ∈ fp := by exact of_decide_eq_true rfl) (hprot : Part.prot ∈ fp := by exact of_decide_eq_true rfl) (hreader : Part.reader ∈ fp := by exact of_decide_eq_true rfl) (hpower : Part.power ∈ fp := by exact of_decide_eq_true rfl) (hboot : Part.boot ∈ fp := by exact of_decide_eq_true rfl) :
    ∃ t, execPowerModeDeep c s = .next t ∧ Frame fp orig t := by
  refine ⟨_, rfl, ?_⟩
  repeat' first
    | intro _
    | with_reducible assumption
    | with_reducible apply State.writeKey_frame
    | with_reducible apply onlyIf_frame
    | dsimp only
    | (with_reducible refine frame_mk ?_)

theorem execPowerModeOff_frame (c : Ctx) (hs : Frame fp orig s) (hdict : Part.dict ∈ fp := by exact of_decide_eq_true rfl) (hstreams : Part.streams ∈ fp := by exact of_decide_eq_true rfl) (hsilt : Part.silt ∈ fp := by exact of_decide_eq_true rfl) (hmspi : Part.mspi ∈ fp := by exact of_decide_eq_true rfl) (hhost : Part.host ∈ fp := by exact of_decide_eq_true rfl) (hreply : Part.reply ∈ fp := by exact of_decide_eq_true rfl) (hfree : Part.free ∈ fp := by exact of_decide_eq_true rfl) (htime : Part.time ∈ fp := by exact of_decide_eq_true rfl) (hout : Part.out ∈ fp := by exact of_decide_eq_true rfl) (hcpu : Part.cpu ∈ fp := by exact of_decide_eq_true rfl) (htmr : Part.tmr ∈ fp := by exact of_decide_eq_true rfl) (hrx : Part.rx ∈ fp := by exact of_decide_eq_true rfl) (hslots : Part.slots ∈ fp := by exact of_decide_eq_true rfl) (herg : Part.erg ∈ fp := by exact of_decide_eq_true rfl) (hsol : Part.sol ∈ fp := by exact of_decide_eq_true rfl) (hports : Part.ports ∈ fp := by exact of_decide_eq_true rfl) (hnet : Part.net ∈ fp := by exact of_decide_eq_true rfl) (hprot : Part.prot ∈ fp := by exact of_decide_eq_true rfl) (hreader : Part.reader ∈ fp := by exact of_decide_eq_true rfl) (hpower : Part.power ∈ fp := by exact of_decide_eq_true rfl) (hboot : Part.boot ∈ fp := by exact of_decide_eq_true rfl) :
    ∃ t, execPowerModeOff c s = .next t ∧ Frame fp orig t := by
  refine ⟨_, rfl, ?_⟩
  repeat' first
    | intro _
    | with_reducible assumption
    | with_reducible apply State.writeKey_frame
    | with_reducible apply onlyIf_frame
    | dsimp only
    | (with_reducible refine frame_mk ?_)

theorem execPowerModeOasis_frame (c : Ctx) (hs : Frame fp orig s) (hdict : Part.dict ∈ fp := by exact of_decide_eq_true rfl) (hstreams : Part.streams ∈ fp := by exact of_decide_eq_true rfl) (hsilt : Part.silt ∈ fp := by exact of_decide_eq_true rfl) (hmspi : Part.mspi ∈ fp := by exact of_decide_eq_true rfl) (hhost : Part.host ∈ fp := by exact of_decide_eq_true rfl) (hreply : Part.reply ∈ fp := by exact of_decide_eq_true rfl) (hfree : Part.free ∈ fp := by exact of_decide_eq_true rfl) (htime : Part.time ∈ fp := by exact of_decide_eq_true rfl) (hout : Part.out ∈ fp := by exact of_decide_eq_true rfl) (hcpu : Part.cpu ∈ fp := by exact of_decide_eq_true rfl) (htmr : Part.tmr ∈ fp := by exact of_decide_eq_true rfl) (hrx : Part.rx ∈ fp := by exact of_decide_eq_true rfl) (hslots : Part.slots ∈ fp := by exact of_decide_eq_true rfl) (herg : Part.erg ∈ fp := by exact of_decide_eq_true rfl) (hsol : Part.sol ∈ fp := by exact of_decide_eq_true rfl) (hports : Part.ports ∈ fp := by exact of_decide_eq_true rfl) (hnet : Part.net ∈ fp := by exact of_decide_eq_true rfl) (hprot : Part.prot ∈ fp := by exact of_decide_eq_true rfl) (hreader : Part.reader ∈ fp := by exact of_decide_eq_true rfl) (hpower : Part.power ∈ fp := by exact of_decide_eq_true rfl) (hboot : Part.boot ∈ fp := by exact of_decide_eq_true rfl) :
    ∃ t, execPowerModeOasis c s = .next t ∧ Frame fp orig t := by
  refine ⟨_, rfl, ?_⟩
  repeat' first
    | intro _
    | with_reducible assumption
    | with_reducible apply State.writeKey_frame
    | with_reducible apply onlyIf_frame
    | dsimp only
    | (with_reducible refine frame_mk ?_)

theorem execWarm_frame (c : Ctx) (hs : Frame fp orig s) (hdict : Part.dict ∈ fp := by exact of_decide_eq_true rfl) (hstreams : Part.streams ∈ fp := by exact of_decide_eq_true rfl) (hsilt : Part.silt ∈ fp := by exact of_decide_eq_true rfl) (hmspi : Part.mspi ∈ fp := by exact of_decide_eq_true rfl) (hhost : Part.host ∈ fp := by exact of_decide_eq_true rfl) (hreply : Part.reply ∈ fp := by exact of_decide_eq_true rfl) (hfree : Part.free ∈ fp := by exact of_decide_eq_true rfl) (htime : Part.time ∈ fp := by exact of_decide_eq_true rfl) (hout : Part.out ∈ fp := by exact of_decide_eq_true rfl) (hcpu : Part.cpu ∈ fp := by exact of_decide_eq_true rfl) (htmr : Part.tmr ∈ fp := by exact of_decide_eq_true rfl) (hrx : Part.rx ∈ fp := by exact of_decide_eq_true rfl) (hslots : Part.slots ∈ fp := by exact of_decide_eq_true rfl) (herg : Part.erg ∈ fp := by exact of_decide_eq_true rfl) (hsol : Part.sol ∈ fp := by exact of_decide_eq_true rfl) (hports : Part.ports ∈ fp := by exact of_decide_eq_true rfl) (hnet : Part.net ∈ fp := by exact of_decide_eq_true rfl) (hprot : Part.prot ∈ fp := by exact of_decide_eq_true rfl) (hreader : Part.reader ∈ fp := by exact of_decide_eq_true rfl) (hpower : Part.power ∈ fp := by exact of_decide_eq_true rfl) (hboot : Part.boot ∈ fp := by exact of_decide_eq_true rfl) :
    ∃ t, execWarm c s = .next t ∧ Frame fp orig t := by
  refine ⟨_, rfl, ?_⟩
  repeat' first
    | intro _
    | with_reducible assumption
    | with_reducible apply State.writeKey_frame
    | with_reducible apply onlyIf_frame
    | dsimp only
    | (with_reducible refine frame_mk ?_)

theorem execCold_frame (c : Ctx) (hs : Frame fp orig s) (hdict : Part.dict ∈ fp := by exact of_decide_eq_true rfl) (hstreams : Part.streams ∈ fp := by exact of_decide_eq_true rfl) (hsilt : Part.silt ∈ fp := by exact of_decide_eq_true rfl) (hmspi : Part.mspi ∈ fp := by exact of_decide_eq_true rfl) (hhost : Part.host ∈ fp := by exact of_decide_eq_true rfl) (hreply : Part.reply ∈ fp := by exact of_decide_eq_true rfl) (hfree : Part.free ∈ fp := by exact of_decide_eq_true rfl) (htime : Part.time ∈ fp := by exact of_decide_eq_true rfl) (hout : Part.out ∈ fp := by exact of_decide_eq_true rfl) (hcpu : Part.cpu ∈ fp := by exact of_decide_eq_true rfl) (htmr : Part.tmr ∈ fp := by exact of_decide_eq_true rfl) (hrx : Part.rx ∈ fp := by exact of_decide_eq_true rfl) (hslots : Part.slots ∈ fp := by exact of_decide_eq_true rfl) (herg : Part.erg ∈ fp := by exact of_decide_eq_true rfl) (hsol : Part.sol ∈ fp := by exact of_decide_eq_true rfl) (hports : Part.ports ∈ fp := by exact of_decide_eq_true rfl) (hnet : Part.net ∈ fp := by exact of_decide_eq_true rfl) (hprot : Part.prot ∈ fp := by exact of_decide_eq_true rfl) (hreader : Part.reader ∈ fp := by exact of_decide_eq_true rfl) (hpower : Part.power ∈ fp := by exact of_decide_eq_true rfl) (hboot : Part.boot ∈ fp := by exact of_decide_eq_true rfl) :
    ∃ t, execCold c s = .next t ∧ Frame fp orig t := by
  refine ⟨_, rfl, ?_⟩
  repeat' first
    | intro _
    | with_reducible assumption
    | with_reducible apply State.writeKey_frame
    | with_reducible apply onlyIf_frame
    | dsimp only
    | (with_reducible refine frame_mk ?_)

theorem execUpdate_frame (c : Ctx) (hs : Frame fp orig s) (hdict : Part.dict ∈ fp := by exact of_decide_eq_true rfl) (hstreams : Part.streams ∈ fp := by exact of_decide_eq_true rfl) (hsilt : Part.silt ∈ fp := by exact of_decide_eq_true rfl) (hmspi : Part.mspi ∈ fp := by exact of_decide_eq_true rfl) (hhost : Part.host ∈ fp := by exact of_decide_eq_true rfl) (hreply : Part.reply ∈ fp := by exact of_decide_eq_true rfl) (hfree : Part.free ∈ fp := by exact of_decide_eq_true rfl) (htime : Part.time ∈ fp := by exact of_decide_eq_true rfl) (hout : Part.out ∈ fp := by exact of_decide_eq_true rfl) (hcpu : Part.cpu ∈ fp := by exact of_decide_eq_true rfl) (htmr : Part.tmr ∈ fp := by exact of_decide_eq_true rfl) (hrx : Part.rx ∈ fp := by exact of_decide_eq_true rfl) (hslots : Part.slots ∈ fp := by exact of_decide_eq_true rfl) (herg : Part.erg ∈ fp := by exact of_decide_eq_true rfl) (hsol : Part.sol ∈ fp := by exact of_decide_eq_true rfl) (hports : Part.ports ∈ fp := by exact of_decide_eq_true rfl) (hnet : Part.net ∈ fp := by exact of_decide_eq_true rfl) (hprot : Part.prot ∈ fp := by exact of_decide_eq_true rfl) (hreader : Part.reader ∈ fp := by exact of_decide_eq_true rfl) (hpower : Part.power ∈ fp := by exact of_decide_eq_true rfl) (hboot : Part.boot ∈ fp := by exact of_decide_eq_true rfl) :
    ∃ t, execUpdate c s = .next t ∧ Frame fp orig t := by
  refine ⟨_, rfl, ?_⟩
  repeat' first
    | intro _
    | with_reducible assumption
    | with_reducible apply State.writeKey_frame
    | with_reducible apply onlyIf_frame
    | dsimp only
    | (with_reducible refine frame_mk ?_)

theorem execCommission_frame (c : Ctx) (hs : Frame fp orig s) (hdict : Part.dict ∈ fp := by exact of_decide_eq_true rfl) (hstreams : Part.streams ∈ fp := by exact of_decide_eq_true rfl) (hsilt : Part.silt ∈ fp := by exact of_decide_eq_true rfl) (hmspi : Part.mspi ∈ fp := by exact of_decide_eq_true rfl) (hhost : Part.host ∈ fp := by exact of_decide_eq_true rfl) (hreply : Part.reply ∈ fp := by exact of_decide_eq_true rfl) (hfree : Part.free ∈ fp := by exact of_decide_eq_true rfl) (htime : Part.time ∈ fp := by exact of_decide_eq_true rfl) (hout : Part.out ∈ fp := by exact of_decide_eq_true rfl) (hcpu : Part.cpu ∈ fp := by exact of_decide_eq_true rfl) (htmr : Part.tmr ∈ fp := by exact of_decide_eq_true rfl) (hrx : Part.rx ∈ fp := by exact of_decide_eq_true rfl) (hslots : Part.slots ∈ fp := by exact of_decide_eq_true rfl) (herg : Part.erg ∈ fp := by exact of_decide_eq_true rfl) (hsol : Part.sol ∈ fp := by exact of_decide_eq_true rfl) (hports : Part.ports ∈ fp := by exact of_decide_eq_true rfl) (hnet : Part.net ∈ fp := by exact of_decide_eq_true rfl) (hprot : Part.prot ∈ fp := by exact of_decide_eq_true rfl) (hreader : Part.reader ∈ fp := by exact of_decide_eq_true rfl) (hpower : Part.power ∈ fp := by exact of_decide_eq_true rfl) (hboot : Part.boot ∈ fp := by exact of_decide_eq_true rfl) :
    ∃ t, execCommission c s = .next t ∧ Frame fp orig t := by
  refine ⟨_, rfl, ?_⟩
  repeat' first
    | intro _
    | with_reducible assumption
    | with_reducible apply State.writeKey_frame
    | with_reducible apply onlyIf_frame
    | dsimp only
    | (with_reducible refine frame_mk ?_)

theorem execOperate_frame (c : Ctx) (hs : Frame fp orig s) (hdict : Part.dict ∈ fp := by exact of_decide_eq_true rfl) (hstreams : Part.streams ∈ fp := by exact of_decide_eq_true rfl) (hsilt : Part.silt ∈ fp := by exact of_decide_eq_true rfl) (hmspi : Part.mspi ∈ fp := by exact of_decide_eq_true rfl) (hhost : Part.host ∈ fp := by exact of_decide_eq_true rfl) (hreply : Part.reply ∈ fp := by exact of_decide_eq_true rfl) (hfree : Part.free ∈ fp := by exact of_decide_eq_true rfl) (htime : Part.time ∈ fp := by exact of_decide_eq_true rfl) (hout : Part.out ∈ fp := by exact of_decide_eq_true rfl) (hcpu : Part.cpu ∈ fp := by exact of_decide_eq_true rfl) (htmr : Part.tmr ∈ fp := by exact of_decide_eq_true rfl) (hrx : Part.rx ∈ fp := by exact of_decide_eq_true rfl) (hslots : Part.slots ∈ fp := by exact of_decide_eq_true rfl) (herg : Part.erg ∈ fp := by exact of_decide_eq_true rfl) (hsol : Part.sol ∈ fp := by exact of_decide_eq_true rfl) (hports : Part.ports ∈ fp := by exact of_decide_eq_true rfl) (hnet : Part.net ∈ fp := by exact of_decide_eq_true rfl) (hprot : Part.prot ∈ fp := by exact of_decide_eq_true rfl) (hreader : Part.reader ∈ fp := by exact of_decide_eq_true rfl) (hpower : Part.power ∈ fp := by exact of_decide_eq_true rfl) (hboot : Part.boot ∈ fp := by exact of_decide_eq_true rfl) :
    ∃ t, execOperate c s = .next t ∧ Frame fp orig t := by
  refine ⟨_, rfl, ?_⟩
  repeat' first
    | intro _
    | with_reducible assumption
    | with_reducible apply State.writeKey_frame
    | with_reducible apply onlyIf_frame
    | dsimp only
    | (with_reducible refine frame_mk ?_)

theorem execTwoPartyExpired_frame (aon : Nat) (hs : Frame fp orig s) (hdict : Part.dict ∈ fp := by exact of_decide_eq_true rfl) (hsilt : Part.silt ∈ fp := by exact of_decide_eq_true rfl) (htime : Part.time ∈ fp := by exact of_decide_eq_true rfl) (hprot : Part.prot ∈ fp := by exact of_decide_eq_true rfl) :
    ∃ t, execTwoPartyExpired aon s = .next t ∧ Frame fp orig t := by
  refine ⟨_, rfl, ?_⟩
  repeat' first
    | intro _
    | with_reducible assumption
    | with_reducible apply State.changesExpire_frame
    | with_reducible apply State.reachAon_frame
    | with_reducible apply onlyIf_frame
    | dsimp only
    | (with_reducible refine frame_mk ?_)

theorem execCardPoll_frame (present : Bool) (select : List Nat) (answer : List Nat) (challenge : List Nat) (last : JobEnd) (us : Nat) (at_ : Nat) (hs : Frame fp orig s) (hdict : Part.dict ∈ fp := by exact of_decide_eq_true rfl) (hstreams : Part.streams ∈ fp := by exact of_decide_eq_true rfl) (hsilt : Part.silt ∈ fp := by exact of_decide_eq_true rfl) (hreply : Part.reply ∈ fp := by exact of_decide_eq_true rfl) (htime : Part.time ∈ fp := by exact of_decide_eq_true rfl) (hcpu : Part.cpu ∈ fp := by exact of_decide_eq_true rfl) (htmr : Part.tmr ∈ fp := by exact of_decide_eq_true rfl) (hprot : Part.prot ∈ fp := by exact of_decide_eq_true rfl) (hreader : Part.reader ∈ fp := by exact of_decide_eq_true rfl) :
    ∃ t, execCardPoll present select answer challenge last us at_ s = .next t ∧ Frame fp orig t := by
  refine ⟨_, rfl, ?_⟩
  repeat' first
    | intro _
    | with_reducible assumption
    | with_reducible apply State.cardPoll_frame
    | with_reducible apply State.settle_frame
    | with_reducible apply State.reach_frame
    | with_reducible apply onlyIf_frame
    | dsimp only
    | (with_reducible refine frame_mk ?_)

theorem execNop_frame (i : Issue) (hs : Frame fp orig s) (hdict : Part.dict ∈ fp := by exact of_decide_eq_true rfl) (htime : Part.time ∈ fp := by exact of_decide_eq_true rfl) (hcpu : Part.cpu ∈ fp := by exact of_decide_eq_true rfl) (htmr : Part.tmr ∈ fp := by exact of_decide_eq_true rfl) (hports : Part.ports ∈ fp := by exact of_decide_eq_true rfl) (hnet : Part.net ∈ fp := by exact of_decide_eq_true rfl) :
    ∃ t, execNop i s = .next t ∧ Frame fp orig t := by
  refine ⟨_, rfl, ?_⟩
  repeat' first
    | intro _
    | with_reducible assumption
    | with_reducible apply State.vuvan_frame
    | with_reducible apply State.issue_frame
    | with_reducible apply onlyIf_frame
    | dsimp only
    | (with_reducible refine frame_mk ?_)

theorem execWait_frame (i : Issue) (hs : Frame fp orig s) (hdict : Part.dict ∈ fp := by exact of_decide_eq_true rfl) (htime : Part.time ∈ fp := by exact of_decide_eq_true rfl) (hcpu : Part.cpu ∈ fp := by exact of_decide_eq_true rfl) (htmr : Part.tmr ∈ fp := by exact of_decide_eq_true rfl) (hports : Part.ports ∈ fp := by exact of_decide_eq_true rfl) (hnet : Part.net ∈ fp := by exact of_decide_eq_true rfl) :
    ∃ t, execWait i s = .next t ∧ Frame fp orig t := by
  refine ⟨_, rfl, ?_⟩
  repeat' first
    | intro _
    | with_reducible assumption
    | with_reducible apply State.vuvan_frame
    | with_reducible apply State.issue_frame
    | with_reducible apply onlyIf_frame
    | dsimp only
    | (with_reducible refine frame_mk ?_)

theorem execRts_frame (i : Issue) (hs : Frame fp orig s) (hdict : Part.dict ∈ fp := by exact of_decide_eq_true rfl) (htime : Part.time ∈ fp := by exact of_decide_eq_true rfl) (hcpu : Part.cpu ∈ fp := by exact of_decide_eq_true rfl) (htmr : Part.tmr ∈ fp := by exact of_decide_eq_true rfl) (hports : Part.ports ∈ fp := by exact of_decide_eq_true rfl) (hnet : Part.net ∈ fp := by exact of_decide_eq_true rfl) :
    ∃ t, execRts i s = .next t ∧ Frame fp orig t := by
  refine ⟨_, rfl, ?_⟩
  repeat' first
    | intro _
    | with_reducible assumption
    | with_reducible apply State.vuvan_frame
    | with_reducible apply State.issue_frame
    | with_reducible apply onlyIf_frame
    | dsimp only
    | (with_reducible refine frame_mk ?_)

theorem execRti_frame (i : Issue) (hs : Frame fp orig s) (hdict : Part.dict ∈ fp := by exact of_decide_eq_true rfl) (htime : Part.time ∈ fp := by exact of_decide_eq_true rfl) (hcpu : Part.cpu ∈ fp := by exact of_decide_eq_true rfl) (htmr : Part.tmr ∈ fp := by exact of_decide_eq_true rfl) (hports : Part.ports ∈ fp := by exact of_decide_eq_true rfl) (hnet : Part.net ∈ fp := by exact of_decide_eq_true rfl) :
    ∃ t, execRti i s = .next t ∧ Frame fp orig t := by
  refine ⟨_, rfl, ?_⟩
  repeat' first
    | intro _
    | with_reducible assumption
    | with_reducible apply State.vuvan_frame
    | with_reducible apply State.issue_frame
    | with_reducible apply onlyIf_frame
    | dsimp only
    | (with_reducible refine frame_mk ?_)

theorem execEi_frame (i : Issue) (hs : Frame fp orig s) (hdict : Part.dict ∈ fp := by exact of_decide_eq_true rfl) (htime : Part.time ∈ fp := by exact of_decide_eq_true rfl) (hcpu : Part.cpu ∈ fp := by exact of_decide_eq_true rfl) (htmr : Part.tmr ∈ fp := by exact of_decide_eq_true rfl) (hports : Part.ports ∈ fp := by exact of_decide_eq_true rfl) (hnet : Part.net ∈ fp := by exact of_decide_eq_true rfl) :
    ∃ t, execEi i s = .next t ∧ Frame fp orig t := by
  refine ⟨_, rfl, ?_⟩
  repeat' first
    | intro _
    | with_reducible assumption
    | with_reducible apply State.vuvan_frame
    | with_reducible apply State.issue_frame
    | with_reducible apply onlyIf_frame
    | dsimp only
    | (with_reducible refine frame_mk ?_)

theorem execDi_frame (i : Issue) (hs : Frame fp orig s) (hdict : Part.dict ∈ fp := by exact of_decide_eq_true rfl) (htime : Part.time ∈ fp := by exact of_decide_eq_true rfl) (hcpu : Part.cpu ∈ fp := by exact of_decide_eq_true rfl) (htmr : Part.tmr ∈ fp := by exact of_decide_eq_true rfl) (hports : Part.ports ∈ fp := by exact of_decide_eq_true rfl) (hnet : Part.net ∈ fp := by exact of_decide_eq_true rfl) :
    ∃ t, execDi i s = .next t ∧ Frame fp orig t := by
  refine ⟨_, rfl, ?_⟩
  repeat' first
    | intro _
    | with_reducible assumption
    | with_reducible apply State.vuvan_frame
    | with_reducible apply State.issue_frame
    | with_reducible apply onlyIf_frame
    | dsimp only
    | (with_reducible refine frame_mk ?_)

theorem execMov_frame (i : Issue) (hs : Frame fp orig s) (hdict : Part.dict ∈ fp := by exact of_decide_eq_true rfl) (htime : Part.time ∈ fp := by exact of_decide_eq_true rfl) (hcpu : Part.cpu ∈ fp := by exact of_decide_eq_true rfl) (htmr : Part.tmr ∈ fp := by exact of_decide_eq_true rfl) (hports : Part.ports ∈ fp := by exact of_decide_eq_true rfl) (hnet : Part.net ∈ fp := by exact of_decide_eq_true rfl) :
    ∃ t, execMov i s = .next t ∧ Frame fp orig t := by
  refine ⟨_, rfl, ?_⟩
  repeat' first
    | intro _
    | with_reducible assumption
    | with_reducible apply State.vuvan_frame
    | with_reducible apply State.issue_frame
    | with_reducible apply onlyIf_frame
    | dsimp only
    | (with_reducible refine frame_mk ?_)

theorem execLd_frame (i : Issue) (hs : Frame fp orig s) (hdict : Part.dict ∈ fp := by exact of_decide_eq_true rfl) (htime : Part.time ∈ fp := by exact of_decide_eq_true rfl) (hcpu : Part.cpu ∈ fp := by exact of_decide_eq_true rfl) (htmr : Part.tmr ∈ fp := by exact of_decide_eq_true rfl) (hports : Part.ports ∈ fp := by exact of_decide_eq_true rfl) (hnet : Part.net ∈ fp := by exact of_decide_eq_true rfl) :
    ∃ t, execLd i s = .next t ∧ Frame fp orig t := by
  refine ⟨_, rfl, ?_⟩
  repeat' first
    | intro _
    | with_reducible assumption
    | with_reducible apply State.vuvan_frame
    | with_reducible apply State.issue_frame
    | with_reducible apply onlyIf_frame
    | dsimp only
    | (with_reducible refine frame_mk ?_)

theorem execSt_frame (i : Issue) (hs : Frame fp orig s) (hdict : Part.dict ∈ fp := by exact of_decide_eq_true rfl) (htime : Part.time ∈ fp := by exact of_decide_eq_true rfl) (hcpu : Part.cpu ∈ fp := by exact of_decide_eq_true rfl) (htmr : Part.tmr ∈ fp := by exact of_decide_eq_true rfl) (hports : Part.ports ∈ fp := by exact of_decide_eq_true rfl) (hnet : Part.net ∈ fp := by exact of_decide_eq_true rfl) :
    ∃ t, execSt i s = .next t ∧ Frame fp orig t := by
  refine ⟨_, rfl, ?_⟩
  repeat' first
    | intro _
    | with_reducible assumption
    | with_reducible apply State.vuvan_frame
    | with_reducible apply State.issue_frame
    | with_reducible apply onlyIf_frame
    | dsimp only
    | (with_reducible refine frame_mk ?_)

theorem execLdi_frame (i : Issue) (hs : Frame fp orig s) (hdict : Part.dict ∈ fp := by exact of_decide_eq_true rfl) (htime : Part.time ∈ fp := by exact of_decide_eq_true rfl) (hcpu : Part.cpu ∈ fp := by exact of_decide_eq_true rfl) (htmr : Part.tmr ∈ fp := by exact of_decide_eq_true rfl) (hports : Part.ports ∈ fp := by exact of_decide_eq_true rfl) (hnet : Part.net ∈ fp := by exact of_decide_eq_true rfl) :
    ∃ t, execLdi i s = .next t ∧ Frame fp orig t := by
  refine ⟨_, rfl, ?_⟩
  repeat' first
    | intro _
    | with_reducible assumption
    | with_reducible apply State.vuvan_frame
    | with_reducible apply State.issue_frame
    | with_reducible apply onlyIf_frame
    | dsimp only
    | (with_reducible refine frame_mk ?_)

theorem execLdis_frame (i : Issue) (hs : Frame fp orig s) (hdict : Part.dict ∈ fp := by exact of_decide_eq_true rfl) (htime : Part.time ∈ fp := by exact of_decide_eq_true rfl) (hcpu : Part.cpu ∈ fp := by exact of_decide_eq_true rfl) (htmr : Part.tmr ∈ fp := by exact of_decide_eq_true rfl) (hports : Part.ports ∈ fp := by exact of_decide_eq_true rfl) (hnet : Part.net ∈ fp := by exact of_decide_eq_true rfl) :
    ∃ t, execLdis i s = .next t ∧ Frame fp orig t := by
  refine ⟨_, rfl, ?_⟩
  repeat' first
    | intro _
    | with_reducible assumption
    | with_reducible apply State.vuvan_frame
    | with_reducible apply State.issue_frame
    | with_reducible apply onlyIf_frame
    | dsimp only
    | (with_reducible refine frame_mk ?_)

theorem execLea_frame (i : Issue) (hs : Frame fp orig s) (hdict : Part.dict ∈ fp := by exact of_decide_eq_true rfl) (htime : Part.time ∈ fp := by exact of_decide_eq_true rfl) (hcpu : Part.cpu ∈ fp := by exact of_decide_eq_true rfl) (htmr : Part.tmr ∈ fp := by exact of_decide_eq_true rfl) (hports : Part.ports ∈ fp := by exact of_decide_eq_true rfl) (hnet : Part.net ∈ fp := by exact of_decide_eq_true rfl) :
    ∃ t, execLea i s = .next t ∧ Frame fp orig t := by
  refine ⟨_, rfl, ?_⟩
  repeat' first
    | intro _
    | with_reducible assumption
    | with_reducible apply State.vuvan_frame
    | with_reducible apply State.issue_frame
    | with_reducible apply onlyIf_frame
    | dsimp only
    | (with_reducible refine frame_mk ?_)

theorem execMaxm_frame (i : Issue) (hs : Frame fp orig s) (hdict : Part.dict ∈ fp := by exact of_decide_eq_true rfl) (htime : Part.time ∈ fp := by exact of_decide_eq_true rfl) (hcpu : Part.cpu ∈ fp := by exact of_decide_eq_true rfl) (htmr : Part.tmr ∈ fp := by exact of_decide_eq_true rfl) (hports : Part.ports ∈ fp := by exact of_decide_eq_true rfl) (hnet : Part.net ∈ fp := by exact of_decide_eq_true rfl) :
    ∃ t, execMaxm i s = .next t ∧ Frame fp orig t := by
  refine ⟨_, rfl, ?_⟩
  repeat' first
    | intro _
    | with_reducible assumption
    | with_reducible apply State.vuvan_frame
    | with_reducible apply State.issue_frame
    | with_reducible apply onlyIf_frame
    | dsimp only
    | (with_reducible refine frame_mk ?_)

theorem execMinm_frame (i : Issue) (hs : Frame fp orig s) (hdict : Part.dict ∈ fp := by exact of_decide_eq_true rfl) (htime : Part.time ∈ fp := by exact of_decide_eq_true rfl) (hcpu : Part.cpu ∈ fp := by exact of_decide_eq_true rfl) (htmr : Part.tmr ∈ fp := by exact of_decide_eq_true rfl) (hports : Part.ports ∈ fp := by exact of_decide_eq_true rfl) (hnet : Part.net ∈ fp := by exact of_decide_eq_true rfl) :
    ∃ t, execMinm i s = .next t ∧ Frame fp orig t := by
  refine ⟨_, rfl, ?_⟩
  repeat' first
    | intro _
    | with_reducible assumption
    | with_reducible apply State.vuvan_frame
    | with_reducible apply State.issue_frame
    | with_reducible apply onlyIf_frame
    | dsimp only
    | (with_reducible refine frame_mk ?_)

theorem execMaxam_frame (i : Issue) (hs : Frame fp orig s) (hdict : Part.dict ∈ fp := by exact of_decide_eq_true rfl) (htime : Part.time ∈ fp := by exact of_decide_eq_true rfl) (hcpu : Part.cpu ∈ fp := by exact of_decide_eq_true rfl) (htmr : Part.tmr ∈ fp := by exact of_decide_eq_true rfl) (hports : Part.ports ∈ fp := by exact of_decide_eq_true rfl) (hnet : Part.net ∈ fp := by exact of_decide_eq_true rfl) :
    ∃ t, execMaxam i s = .next t ∧ Frame fp orig t := by
  refine ⟨_, rfl, ?_⟩
  repeat' first
    | intro _
    | with_reducible assumption
    | with_reducible apply State.vuvan_frame
    | with_reducible apply State.issue_frame
    | with_reducible apply onlyIf_frame
    | dsimp only
    | (with_reducible refine frame_mk ?_)

theorem execB_frame (i : Issue) (hs : Frame fp orig s) (hdict : Part.dict ∈ fp := by exact of_decide_eq_true rfl) (htime : Part.time ∈ fp := by exact of_decide_eq_true rfl) (hcpu : Part.cpu ∈ fp := by exact of_decide_eq_true rfl) (htmr : Part.tmr ∈ fp := by exact of_decide_eq_true rfl) (hports : Part.ports ∈ fp := by exact of_decide_eq_true rfl) (hnet : Part.net ∈ fp := by exact of_decide_eq_true rfl) :
    ∃ t, execB i s = .next t ∧ Frame fp orig t := by
  refine ⟨_, rfl, ?_⟩
  repeat' first
    | intro _
    | with_reducible assumption
    | with_reducible apply State.vuvan_frame
    | with_reducible apply State.issue_frame
    | with_reducible apply onlyIf_frame
    | dsimp only
    | (with_reducible refine frame_mk ?_)

theorem execJmp_frame (i : Issue) (hs : Frame fp orig s) (hdict : Part.dict ∈ fp := by exact of_decide_eq_true rfl) (htime : Part.time ∈ fp := by exact of_decide_eq_true rfl) (hcpu : Part.cpu ∈ fp := by exact of_decide_eq_true rfl) (htmr : Part.tmr ∈ fp := by exact of_decide_eq_true rfl) (hports : Part.ports ∈ fp := by exact of_decide_eq_true rfl) (hnet : Part.net ∈ fp := by exact of_decide_eq_true rfl) :
    ∃ t, execJmp i s = .next t ∧ Frame fp orig t := by
  refine ⟨_, rfl, ?_⟩
  repeat' first
    | intro _
    | with_reducible assumption
    | with_reducible apply State.vuvan_frame
    | with_reducible apply State.issue_frame
    | with_reducible apply onlyIf_frame
    | dsimp only
    | (with_reducible refine frame_mk ?_)

theorem execCall_frame (i : Issue) (hs : Frame fp orig s) (hdict : Part.dict ∈ fp := by exact of_decide_eq_true rfl) (htime : Part.time ∈ fp := by exact of_decide_eq_true rfl) (hcpu : Part.cpu ∈ fp := by exact of_decide_eq_true rfl) (htmr : Part.tmr ∈ fp := by exact of_decide_eq_true rfl) (hports : Part.ports ∈ fp := by exact of_decide_eq_true rfl) (hnet : Part.net ∈ fp := by exact of_decide_eq_true rfl) :
    ∃ t, execCall i s = .next t ∧ Frame fp orig t := by
  refine ⟨_, rfl, ?_⟩
  repeat' first
    | intro _
    | with_reducible assumption
    | with_reducible apply State.vuvan_frame
    | with_reducible apply State.issue_frame
    | with_reducible apply onlyIf_frame
    | dsimp only
    | (with_reducible refine frame_mk ?_)

theorem execJmpr_frame (i : Issue) (hs : Frame fp orig s) (hdict : Part.dict ∈ fp := by exact of_decide_eq_true rfl) (htime : Part.time ∈ fp := by exact of_decide_eq_true rfl) (hcpu : Part.cpu ∈ fp := by exact of_decide_eq_true rfl) (htmr : Part.tmr ∈ fp := by exact of_decide_eq_true rfl) (hports : Part.ports ∈ fp := by exact of_decide_eq_true rfl) (hnet : Part.net ∈ fp := by exact of_decide_eq_true rfl) :
    ∃ t, execJmpr i s = .next t ∧ Frame fp orig t := by
  refine ⟨_, rfl, ?_⟩
  repeat' first
    | intro _
    | with_reducible assumption
    | with_reducible apply State.vuvan_frame
    | with_reducible apply State.issue_frame
    | with_reducible apply onlyIf_frame
    | dsimp only
    | (with_reducible refine frame_mk ?_)

theorem execCallr_frame (i : Issue) (hs : Frame fp orig s) (hdict : Part.dict ∈ fp := by exact of_decide_eq_true rfl) (htime : Part.time ∈ fp := by exact of_decide_eq_true rfl) (hcpu : Part.cpu ∈ fp := by exact of_decide_eq_true rfl) (htmr : Part.tmr ∈ fp := by exact of_decide_eq_true rfl) (hports : Part.ports ∈ fp := by exact of_decide_eq_true rfl) (hnet : Part.net ∈ fp := by exact of_decide_eq_true rfl) :
    ∃ t, execCallr i s = .next t ∧ Frame fp orig t := by
  refine ⟨_, rfl, ?_⟩
  repeat' first
    | intro _
    | with_reducible assumption
    | with_reducible apply State.vuvan_frame
    | with_reducible apply State.issue_frame
    | with_reducible apply onlyIf_frame
    | dsimp only
    | (with_reducible refine frame_mk ?_)

theorem execLoop_frame (i : Issue) (hs : Frame fp orig s) (hdict : Part.dict ∈ fp := by exact of_decide_eq_true rfl) (htime : Part.time ∈ fp := by exact of_decide_eq_true rfl) (hcpu : Part.cpu ∈ fp := by exact of_decide_eq_true rfl) (htmr : Part.tmr ∈ fp := by exact of_decide_eq_true rfl) (hports : Part.ports ∈ fp := by exact of_decide_eq_true rfl) (hnet : Part.net ∈ fp := by exact of_decide_eq_true rfl) :
    ∃ t, execLoop i s = .next t ∧ Frame fp orig t := by
  refine ⟨_, rfl, ?_⟩
  repeat' first
    | intro _
    | with_reducible assumption
    | with_reducible apply State.vuvan_frame
    | with_reducible apply State.issue_frame
    | with_reducible apply onlyIf_frame
    | dsimp only
    | (with_reducible refine frame_mk ?_)

theorem execLoopr_frame (i : Issue) (hs : Frame fp orig s) (hdict : Part.dict ∈ fp := by exact of_decide_eq_true rfl) (htime : Part.time ∈ fp := by exact of_decide_eq_true rfl) (hcpu : Part.cpu ∈ fp := by exact of_decide_eq_true rfl) (htmr : Part.tmr ∈ fp := by exact of_decide_eq_true rfl) (hports : Part.ports ∈ fp := by exact of_decide_eq_true rfl) (hnet : Part.net ∈ fp := by exact of_decide_eq_true rfl) :
    ∃ t, execLoopr i s = .next t ∧ Frame fp orig t := by
  refine ⟨_, rfl, ?_⟩
  repeat' first
    | intro _
    | with_reducible assumption
    | with_reducible apply State.vuvan_frame
    | with_reducible apply State.issue_frame
    | with_reducible apply onlyIf_frame
    | dsimp only
    | (with_reducible refine frame_mk ?_)

theorem execPush_frame (i : Issue) (hs : Frame fp orig s) (hdict : Part.dict ∈ fp := by exact of_decide_eq_true rfl) (htime : Part.time ∈ fp := by exact of_decide_eq_true rfl) (hcpu : Part.cpu ∈ fp := by exact of_decide_eq_true rfl) (htmr : Part.tmr ∈ fp := by exact of_decide_eq_true rfl) (hports : Part.ports ∈ fp := by exact of_decide_eq_true rfl) (hnet : Part.net ∈ fp := by exact of_decide_eq_true rfl) :
    ∃ t, execPush i s = .next t ∧ Frame fp orig t := by
  refine ⟨_, rfl, ?_⟩
  repeat' first
    | intro _
    | with_reducible assumption
    | with_reducible apply State.vuvan_frame
    | with_reducible apply State.issue_frame
    | with_reducible apply State.push_frame
    | with_reducible apply onlyIf_frame
    | dsimp only
    | (with_reducible refine frame_mk ?_)

theorem execPop_frame (i : Issue) (hs : Frame fp orig s) (hdict : Part.dict ∈ fp := by exact of_decide_eq_true rfl) (htime : Part.time ∈ fp := by exact of_decide_eq_true rfl) (hcpu : Part.cpu ∈ fp := by exact of_decide_eq_true rfl) (htmr : Part.tmr ∈ fp := by exact of_decide_eq_true rfl) (hports : Part.ports ∈ fp := by exact of_decide_eq_true rfl) (hnet : Part.net ∈ fp := by exact of_decide_eq_true rfl) :
    ∃ t, execPop i s = .next t ∧ Frame fp orig t := by
  refine ⟨_, rfl, ?_⟩
  repeat' first
    | intro _
    | with_reducible assumption
    | with_reducible apply State.vuvan_frame
    | with_reducible apply State.issue_frame
    | with_reducible apply State.pop_frame
    | with_reducible apply onlyIf_frame
    | dsimp only
    | (with_reducible refine frame_mk ?_)

theorem execFld_frame (i : Issue) (hs : Frame fp orig s) (hdict : Part.dict ∈ fp := by exact of_decide_eq_true rfl) (htime : Part.time ∈ fp := by exact of_decide_eq_true rfl) (hcpu : Part.cpu ∈ fp := by exact of_decide_eq_true rfl) (htmr : Part.tmr ∈ fp := by exact of_decide_eq_true rfl) (hports : Part.ports ∈ fp := by exact of_decide_eq_true rfl) (hnet : Part.net ∈ fp := by exact of_decide_eq_true rfl) :
    ∃ t, execFld i s = .next t ∧ Frame fp orig t := by
  refine ⟨_, rfl, ?_⟩
  repeat' first
    | intro _
    | with_reducible assumption
    | with_reducible apply State.vuvan_frame
    | with_reducible apply State.issue_frame
    | with_reducible apply onlyIf_frame
    | dsimp only
    | (with_reducible refine frame_mk ?_)

theorem execFst_frame (i : Issue) (hs : Frame fp orig s) (hdict : Part.dict ∈ fp := by exact of_decide_eq_true rfl) (htime : Part.time ∈ fp := by exact of_decide_eq_true rfl) (hcpu : Part.cpu ∈ fp := by exact of_decide_eq_true rfl) (htmr : Part.tmr ∈ fp := by exact of_decide_eq_true rfl) (hports : Part.ports ∈ fp := by exact of_decide_eq_true rfl) (hnet : Part.net ∈ fp := by exact of_decide_eq_true rfl) :
    ∃ t, execFst i s = .next t ∧ Frame fp orig t := by
  refine ⟨_, rfl, ?_⟩
  repeat' first
    | intro _
    | with_reducible assumption
    | with_reducible apply State.vuvan_frame
    | with_reducible apply State.issue_frame
    | with_reducible apply onlyIf_frame
    | dsimp only
    | (with_reducible refine frame_mk ?_)

theorem execAdd_frame (i : Issue) (hs : Frame fp orig s) (hdict : Part.dict ∈ fp := by exact of_decide_eq_true rfl) (htime : Part.time ∈ fp := by exact of_decide_eq_true rfl) (hcpu : Part.cpu ∈ fp := by exact of_decide_eq_true rfl) (htmr : Part.tmr ∈ fp := by exact of_decide_eq_true rfl) (hports : Part.ports ∈ fp := by exact of_decide_eq_true rfl) (hnet : Part.net ∈ fp := by exact of_decide_eq_true rfl) :
    ∃ t, execAdd i s = .next t ∧ Frame fp orig t := by
  refine ⟨_, rfl, ?_⟩
  repeat' first
    | intro _
    | with_reducible assumption
    | with_reducible apply State.vuvan_frame
    | with_reducible apply State.issue_frame
    | with_reducible apply onlyIf_frame
    | dsimp only
    | (with_reducible refine frame_mk ?_)

theorem execAdc_frame (i : Issue) (hs : Frame fp orig s) (hdict : Part.dict ∈ fp := by exact of_decide_eq_true rfl) (htime : Part.time ∈ fp := by exact of_decide_eq_true rfl) (hcpu : Part.cpu ∈ fp := by exact of_decide_eq_true rfl) (htmr : Part.tmr ∈ fp := by exact of_decide_eq_true rfl) (hports : Part.ports ∈ fp := by exact of_decide_eq_true rfl) (hnet : Part.net ∈ fp := by exact of_decide_eq_true rfl) :
    ∃ t, execAdc i s = .next t ∧ Frame fp orig t := by
  refine ⟨_, rfl, ?_⟩
  repeat' first
    | intro _
    | with_reducible assumption
    | with_reducible apply State.vuvan_frame
    | with_reducible apply State.issue_frame
    | with_reducible apply onlyIf_frame
    | dsimp only
    | (with_reducible refine frame_mk ?_)

theorem execSub_frame (i : Issue) (hs : Frame fp orig s) (hdict : Part.dict ∈ fp := by exact of_decide_eq_true rfl) (htime : Part.time ∈ fp := by exact of_decide_eq_true rfl) (hcpu : Part.cpu ∈ fp := by exact of_decide_eq_true rfl) (htmr : Part.tmr ∈ fp := by exact of_decide_eq_true rfl) (hports : Part.ports ∈ fp := by exact of_decide_eq_true rfl) (hnet : Part.net ∈ fp := by exact of_decide_eq_true rfl) :
    ∃ t, execSub i s = .next t ∧ Frame fp orig t := by
  refine ⟨_, rfl, ?_⟩
  repeat' first
    | intro _
    | with_reducible assumption
    | with_reducible apply State.vuvan_frame
    | with_reducible apply State.issue_frame
    | with_reducible apply onlyIf_frame
    | dsimp only
    | (with_reducible refine frame_mk ?_)

theorem execSbc_frame (i : Issue) (hs : Frame fp orig s) (hdict : Part.dict ∈ fp := by exact of_decide_eq_true rfl) (htime : Part.time ∈ fp := by exact of_decide_eq_true rfl) (hcpu : Part.cpu ∈ fp := by exact of_decide_eq_true rfl) (htmr : Part.tmr ∈ fp := by exact of_decide_eq_true rfl) (hports : Part.ports ∈ fp := by exact of_decide_eq_true rfl) (hnet : Part.net ∈ fp := by exact of_decide_eq_true rfl) :
    ∃ t, execSbc i s = .next t ∧ Frame fp orig t := by
  refine ⟨_, rfl, ?_⟩
  repeat' first
    | intro _
    | with_reducible assumption
    | with_reducible apply State.vuvan_frame
    | with_reducible apply State.issue_frame
    | with_reducible apply onlyIf_frame
    | dsimp only
    | (with_reducible refine frame_mk ?_)

theorem execCmp_frame (i : Issue) (hs : Frame fp orig s) (hdict : Part.dict ∈ fp := by exact of_decide_eq_true rfl) (htime : Part.time ∈ fp := by exact of_decide_eq_true rfl) (hcpu : Part.cpu ∈ fp := by exact of_decide_eq_true rfl) (htmr : Part.tmr ∈ fp := by exact of_decide_eq_true rfl) (hports : Part.ports ∈ fp := by exact of_decide_eq_true rfl) (hnet : Part.net ∈ fp := by exact of_decide_eq_true rfl) :
    ∃ t, execCmp i s = .next t ∧ Frame fp orig t := by
  refine ⟨_, rfl, ?_⟩
  repeat' first
    | intro _
    | with_reducible assumption
    | with_reducible apply State.vuvan_frame
    | with_reducible apply State.issue_frame
    | with_reducible apply onlyIf_frame
    | dsimp only
    | (with_reducible refine frame_mk ?_)

theorem execNeg_frame (i : Issue) (hs : Frame fp orig s) (hdict : Part.dict ∈ fp := by exact of_decide_eq_true rfl) (htime : Part.time ∈ fp := by exact of_decide_eq_true rfl) (hcpu : Part.cpu ∈ fp := by exact of_decide_eq_true rfl) (htmr : Part.tmr ∈ fp := by exact of_decide_eq_true rfl) (hports : Part.ports ∈ fp := by exact of_decide_eq_true rfl) (hnet : Part.net ∈ fp := by exact of_decide_eq_true rfl) :
    ∃ t, execNeg i s = .next t ∧ Frame fp orig t := by
  refine ⟨_, rfl, ?_⟩
  repeat' first
    | intro _
    | with_reducible assumption
    | with_reducible apply State.vuvan_frame
    | with_reducible apply State.issue_frame
    | with_reducible apply onlyIf_frame
    | dsimp only
    | (with_reducible refine frame_mk ?_)

theorem execAbs_frame (i : Issue) (hs : Frame fp orig s) (hdict : Part.dict ∈ fp := by exact of_decide_eq_true rfl) (htime : Part.time ∈ fp := by exact of_decide_eq_true rfl) (hcpu : Part.cpu ∈ fp := by exact of_decide_eq_true rfl) (htmr : Part.tmr ∈ fp := by exact of_decide_eq_true rfl) (hports : Part.ports ∈ fp := by exact of_decide_eq_true rfl) (hnet : Part.net ∈ fp := by exact of_decide_eq_true rfl) :
    ∃ t, execAbs i s = .next t ∧ Frame fp orig t := by
  refine ⟨_, rfl, ?_⟩
  repeat' first
    | intro _
    | with_reducible assumption
    | with_reducible apply State.vuvan_frame
    | with_reducible apply State.issue_frame
    | with_reducible apply onlyIf_frame
    | dsimp only
    | (with_reducible refine frame_mk ?_)

theorem execAnd_frame (i : Issue) (hs : Frame fp orig s) (hdict : Part.dict ∈ fp := by exact of_decide_eq_true rfl) (htime : Part.time ∈ fp := by exact of_decide_eq_true rfl) (hcpu : Part.cpu ∈ fp := by exact of_decide_eq_true rfl) (htmr : Part.tmr ∈ fp := by exact of_decide_eq_true rfl) (hports : Part.ports ∈ fp := by exact of_decide_eq_true rfl) (hnet : Part.net ∈ fp := by exact of_decide_eq_true rfl) :
    ∃ t, execAnd i s = .next t ∧ Frame fp orig t := by
  refine ⟨_, rfl, ?_⟩
  repeat' first
    | intro _
    | with_reducible assumption
    | with_reducible apply State.vuvan_frame
    | with_reducible apply State.issue_frame
    | with_reducible apply onlyIf_frame
    | dsimp only
    | (with_reducible refine frame_mk ?_)

theorem execOr_frame (i : Issue) (hs : Frame fp orig s) (hdict : Part.dict ∈ fp := by exact of_decide_eq_true rfl) (htime : Part.time ∈ fp := by exact of_decide_eq_true rfl) (hcpu : Part.cpu ∈ fp := by exact of_decide_eq_true rfl) (htmr : Part.tmr ∈ fp := by exact of_decide_eq_true rfl) (hports : Part.ports ∈ fp := by exact of_decide_eq_true rfl) (hnet : Part.net ∈ fp := by exact of_decide_eq_true rfl) :
    ∃ t, execOr i s = .next t ∧ Frame fp orig t := by
  refine ⟨_, rfl, ?_⟩
  repeat' first
    | intro _
    | with_reducible assumption
    | with_reducible apply State.vuvan_frame
    | with_reducible apply State.issue_frame
    | with_reducible apply onlyIf_frame
    | dsimp only
    | (with_reducible refine frame_mk ?_)

theorem execXor_frame (i : Issue) (hs : Frame fp orig s) (hdict : Part.dict ∈ fp := by exact of_decide_eq_true rfl) (htime : Part.time ∈ fp := by exact of_decide_eq_true rfl) (hcpu : Part.cpu ∈ fp := by exact of_decide_eq_true rfl) (htmr : Part.tmr ∈ fp := by exact of_decide_eq_true rfl) (hports : Part.ports ∈ fp := by exact of_decide_eq_true rfl) (hnet : Part.net ∈ fp := by exact of_decide_eq_true rfl) :
    ∃ t, execXor i s = .next t ∧ Frame fp orig t := by
  refine ⟨_, rfl, ?_⟩
  repeat' first
    | intro _
    | with_reducible assumption
    | with_reducible apply State.vuvan_frame
    | with_reducible apply State.issue_frame
    | with_reducible apply onlyIf_frame
    | dsimp only
    | (with_reducible refine frame_mk ?_)

theorem execAndn_frame (i : Issue) (hs : Frame fp orig s) (hdict : Part.dict ∈ fp := by exact of_decide_eq_true rfl) (htime : Part.time ∈ fp := by exact of_decide_eq_true rfl) (hcpu : Part.cpu ∈ fp := by exact of_decide_eq_true rfl) (htmr : Part.tmr ∈ fp := by exact of_decide_eq_true rfl) (hports : Part.ports ∈ fp := by exact of_decide_eq_true rfl) (hnet : Part.net ∈ fp := by exact of_decide_eq_true rfl) :
    ∃ t, execAndn i s = .next t ∧ Frame fp orig t := by
  refine ⟨_, rfl, ?_⟩
  repeat' first
    | intro _
    | with_reducible assumption
    | with_reducible apply State.vuvan_frame
    | with_reducible apply State.issue_frame
    | with_reducible apply onlyIf_frame
    | dsimp only
    | (with_reducible refine frame_mk ?_)

theorem execNot_frame (i : Issue) (hs : Frame fp orig s) (hdict : Part.dict ∈ fp := by exact of_decide_eq_true rfl) (htime : Part.time ∈ fp := by exact of_decide_eq_true rfl) (hcpu : Part.cpu ∈ fp := by exact of_decide_eq_true rfl) (htmr : Part.tmr ∈ fp := by exact of_decide_eq_true rfl) (hports : Part.ports ∈ fp := by exact of_decide_eq_true rfl) (hnet : Part.net ∈ fp := by exact of_decide_eq_true rfl) :
    ∃ t, execNot i s = .next t ∧ Frame fp orig t := by
  refine ⟨_, rfl, ?_⟩
  repeat' first
    | intro _
    | with_reducible assumption
    | with_reducible apply State.vuvan_frame
    | with_reducible apply State.issue_frame
    | with_reducible apply onlyIf_frame
    | dsimp only
    | (with_reducible refine frame_mk ?_)

theorem execTst_frame (i : Issue) (hs : Frame fp orig s) (hdict : Part.dict ∈ fp := by exact of_decide_eq_true rfl) (htime : Part.time ∈ fp := by exact of_decide_eq_true rfl) (hcpu : Part.cpu ∈ fp := by exact of_decide_eq_true rfl) (htmr : Part.tmr ∈ fp := by exact of_decide_eq_true rfl) (hports : Part.ports ∈ fp := by exact of_decide_eq_true rfl) (hnet : Part.net ∈ fp := by exact of_decide_eq_true rfl) :
    ∃ t, execTst i s = .next t ∧ Frame fp orig t := by
  refine ⟨_, rfl, ?_⟩
  repeat' first
    | intro _
    | with_reducible assumption
    | with_reducible apply State.vuvan_frame
    | with_reducible apply State.issue_frame
    | with_reducible apply onlyIf_frame
    | dsimp only
    | (with_reducible refine frame_mk ?_)

theorem execAsl_frame (i : Issue) (hs : Frame fp orig s) (hdict : Part.dict ∈ fp := by exact of_decide_eq_true rfl) (htime : Part.time ∈ fp := by exact of_decide_eq_true rfl) (hcpu : Part.cpu ∈ fp := by exact of_decide_eq_true rfl) (htmr : Part.tmr ∈ fp := by exact of_decide_eq_true rfl) (hports : Part.ports ∈ fp := by exact of_decide_eq_true rfl) (hnet : Part.net ∈ fp := by exact of_decide_eq_true rfl) :
    ∃ t, execAsl i s = .next t ∧ Frame fp orig t := by
  refine ⟨_, rfl, ?_⟩
  repeat' first
    | intro _
    | with_reducible assumption
    | with_reducible apply State.vuvan_frame
    | with_reducible apply State.issue_frame
    | with_reducible apply onlyIf_frame
    | dsimp only
    | (with_reducible refine frame_mk ?_)

theorem execAsr_frame (i : Issue) (hs : Frame fp orig s) (hdict : Part.dict ∈ fp := by exact of_decide_eq_true rfl) (htime : Part.time ∈ fp := by exact of_decide_eq_true rfl) (hcpu : Part.cpu ∈ fp := by exact of_decide_eq_true rfl) (htmr : Part.tmr ∈ fp := by exact of_decide_eq_true rfl) (hports : Part.ports ∈ fp := by exact of_decide_eq_true rfl) (hnet : Part.net ∈ fp := by exact of_decide_eq_true rfl) :
    ∃ t, execAsr i s = .next t ∧ Frame fp orig t := by
  refine ⟨_, rfl, ?_⟩
  repeat' first
    | intro _
    | with_reducible assumption
    | with_reducible apply State.vuvan_frame
    | with_reducible apply State.issue_frame
    | with_reducible apply onlyIf_frame
    | dsimp only
    | (with_reducible refine frame_mk ?_)

theorem execLsl_frame (i : Issue) (hs : Frame fp orig s) (hdict : Part.dict ∈ fp := by exact of_decide_eq_true rfl) (htime : Part.time ∈ fp := by exact of_decide_eq_true rfl) (hcpu : Part.cpu ∈ fp := by exact of_decide_eq_true rfl) (htmr : Part.tmr ∈ fp := by exact of_decide_eq_true rfl) (hports : Part.ports ∈ fp := by exact of_decide_eq_true rfl) (hnet : Part.net ∈ fp := by exact of_decide_eq_true rfl) :
    ∃ t, execLsl i s = .next t ∧ Frame fp orig t := by
  refine ⟨_, rfl, ?_⟩
  repeat' first
    | intro _
    | with_reducible assumption
    | with_reducible apply State.vuvan_frame
    | with_reducible apply State.issue_frame
    | with_reducible apply onlyIf_frame
    | dsimp only
    | (with_reducible refine frame_mk ?_)

theorem execLsr_frame (i : Issue) (hs : Frame fp orig s) (hdict : Part.dict ∈ fp := by exact of_decide_eq_true rfl) (htime : Part.time ∈ fp := by exact of_decide_eq_true rfl) (hcpu : Part.cpu ∈ fp := by exact of_decide_eq_true rfl) (htmr : Part.tmr ∈ fp := by exact of_decide_eq_true rfl) (hports : Part.ports ∈ fp := by exact of_decide_eq_true rfl) (hnet : Part.net ∈ fp := by exact of_decide_eq_true rfl) :
    ∃ t, execLsr i s = .next t ∧ Frame fp orig t := by
  refine ⟨_, rfl, ?_⟩
  repeat' first
    | intro _
    | with_reducible assumption
    | with_reducible apply State.vuvan_frame
    | with_reducible apply State.issue_frame
    | with_reducible apply onlyIf_frame
    | dsimp only
    | (with_reducible refine frame_mk ?_)

theorem execBtst_frame (i : Issue) (hs : Frame fp orig s) (hdict : Part.dict ∈ fp := by exact of_decide_eq_true rfl) (htime : Part.time ∈ fp := by exact of_decide_eq_true rfl) (hcpu : Part.cpu ∈ fp := by exact of_decide_eq_true rfl) (htmr : Part.tmr ∈ fp := by exact of_decide_eq_true rfl) (hports : Part.ports ∈ fp := by exact of_decide_eq_true rfl) (hnet : Part.net ∈ fp := by exact of_decide_eq_true rfl) :
    ∃ t, execBtst i s = .next t ∧ Frame fp orig t := by
  refine ⟨_, rfl, ?_⟩
  repeat' first
    | intro _
    | with_reducible assumption
    | with_reducible apply State.vuvan_frame
    | with_reducible apply State.issue_frame
    | with_reducible apply onlyIf_frame
    | dsimp only
    | (with_reducible refine frame_mk ?_)

theorem execBset_frame (i : Issue) (hs : Frame fp orig s) (hdict : Part.dict ∈ fp := by exact of_decide_eq_true rfl) (htime : Part.time ∈ fp := by exact of_decide_eq_true rfl) (hcpu : Part.cpu ∈ fp := by exact of_decide_eq_true rfl) (htmr : Part.tmr ∈ fp := by exact of_decide_eq_true rfl) (hports : Part.ports ∈ fp := by exact of_decide_eq_true rfl) (hnet : Part.net ∈ fp := by exact of_decide_eq_true rfl) :
    ∃ t, execBset i s = .next t ∧ Frame fp orig t := by
  refine ⟨_, rfl, ?_⟩
  repeat' first
    | intro _
    | with_reducible assumption
    | with_reducible apply State.vuvan_frame
    | with_reducible apply State.issue_frame
    | with_reducible apply onlyIf_frame
    | dsimp only
    | (with_reducible refine frame_mk ?_)

theorem execBclr_frame (i : Issue) (hs : Frame fp orig s) (hdict : Part.dict ∈ fp := by exact of_decide_eq_true rfl) (htime : Part.time ∈ fp := by exact of_decide_eq_true rfl) (hcpu : Part.cpu ∈ fp := by exact of_decide_eq_true rfl) (htmr : Part.tmr ∈ fp := by exact of_decide_eq_true rfl) (hports : Part.ports ∈ fp := by exact of_decide_eq_true rfl) (hnet : Part.net ∈ fp := by exact of_decide_eq_true rfl) :
    ∃ t, execBclr i s = .next t ∧ Frame fp orig t := by
  refine ⟨_, rfl, ?_⟩
  repeat' first
    | intro _
    | with_reducible assumption
    | with_reducible apply State.vuvan_frame
    | with_reducible apply State.issue_frame
    | with_reducible apply onlyIf_frame
    | dsimp only
    | (with_reducible refine frame_mk ?_)

theorem execBtgl_frame (i : Issue) (hs : Frame fp orig s) (hdict : Part.dict ∈ fp := by exact of_decide_eq_true rfl) (htime : Part.time ∈ fp := by exact of_decide_eq_true rfl) (hcpu : Part.cpu ∈ fp := by exact of_decide_eq_true rfl) (htmr : Part.tmr ∈ fp := by exact of_decide_eq_true rfl) (hports : Part.ports ∈ fp := by exact of_decide_eq_true rfl) (hnet : Part.net ∈ fp := by exact of_decide_eq_true rfl) :
    ∃ t, execBtgl i s = .next t ∧ Frame fp orig t := by
  refine ⟨_, rfl, ?_⟩
  repeat' first
    | intro _
    | with_reducible assumption
    | with_reducible apply State.vuvan_frame
    | with_reducible apply State.issue_frame
    | with_reducible apply onlyIf_frame
    | dsimp only
    | (with_reducible refine frame_mk ?_)

theorem execNorm_frame (i : Issue) (hs : Frame fp orig s) (hdict : Part.dict ∈ fp := by exact of_decide_eq_true rfl) (htime : Part.time ∈ fp := by exact of_decide_eq_true rfl) (hcpu : Part.cpu ∈ fp := by exact of_decide_eq_true rfl) (htmr : Part.tmr ∈ fp := by exact of_decide_eq_true rfl) (hports : Part.ports ∈ fp := by exact of_decide_eq_true rfl) (hnet : Part.net ∈ fp := by exact of_decide_eq_true rfl) :
    ∃ t, execNorm i s = .next t ∧ Frame fp orig t := by
  refine ⟨_, rfl, ?_⟩
  repeat' first
    | intro _
    | with_reducible assumption
    | with_reducible apply State.vuvan_frame
    | with_reducible apply State.issue_frame
    | with_reducible apply onlyIf_frame
    | dsimp only
    | (with_reducible refine frame_mk ?_)

theorem execMin_frame (i : Issue) (hs : Frame fp orig s) (hdict : Part.dict ∈ fp := by exact of_decide_eq_true rfl) (htime : Part.time ∈ fp := by exact of_decide_eq_true rfl) (hcpu : Part.cpu ∈ fp := by exact of_decide_eq_true rfl) (htmr : Part.tmr ∈ fp := by exact of_decide_eq_true rfl) (hports : Part.ports ∈ fp := by exact of_decide_eq_true rfl) (hnet : Part.net ∈ fp := by exact of_decide_eq_true rfl) :
    ∃ t, execMin i s = .next t ∧ Frame fp orig t := by
  refine ⟨_, rfl, ?_⟩
  repeat' first
    | intro _
    | with_reducible assumption
    | with_reducible apply State.vuvan_frame
    | with_reducible apply State.issue_frame
    | with_reducible apply onlyIf_frame
    | dsimp only
    | (with_reducible refine frame_mk ?_)

theorem execMax_frame (i : Issue) (hs : Frame fp orig s) (hdict : Part.dict ∈ fp := by exact of_decide_eq_true rfl) (htime : Part.time ∈ fp := by exact of_decide_eq_true rfl) (hcpu : Part.cpu ∈ fp := by exact of_decide_eq_true rfl) (htmr : Part.tmr ∈ fp := by exact of_decide_eq_true rfl) (hports : Part.ports ∈ fp := by exact of_decide_eq_true rfl) (hnet : Part.net ∈ fp := by exact of_decide_eq_true rfl) :
    ∃ t, execMax i s = .next t ∧ Frame fp orig t := by
  refine ⟨_, rfl, ?_⟩
  repeat' first
    | intro _
    | with_reducible assumption
    | with_reducible apply State.vuvan_frame
    | with_reducible apply State.issue_frame
    | with_reducible apply onlyIf_frame
    | dsimp only
    | (with_reducible refine frame_mk ?_)

theorem execMaxx_frame (i : Issue) (hs : Frame fp orig s) (hdict : Part.dict ∈ fp := by exact of_decide_eq_true rfl) (htime : Part.time ∈ fp := by exact of_decide_eq_true rfl) (hcpu : Part.cpu ∈ fp := by exact of_decide_eq_true rfl) (htmr : Part.tmr ∈ fp := by exact of_decide_eq_true rfl) (hports : Part.ports ∈ fp := by exact of_decide_eq_true rfl) (hnet : Part.net ∈ fp := by exact of_decide_eq_true rfl) :
    ∃ t, execMaxx i s = .next t ∧ Frame fp orig t := by
  refine ⟨_, rfl, ?_⟩
  repeat' first
    | intro _
    | with_reducible assumption
    | with_reducible apply State.vuvan_frame
    | with_reducible apply State.issue_frame
    | with_reducible apply onlyIf_frame
    | dsimp only
    | (with_reducible refine frame_mk ?_)

theorem execMinx_frame (i : Issue) (hs : Frame fp orig s) (hdict : Part.dict ∈ fp := by exact of_decide_eq_true rfl) (htime : Part.time ∈ fp := by exact of_decide_eq_true rfl) (hcpu : Part.cpu ∈ fp := by exact of_decide_eq_true rfl) (htmr : Part.tmr ∈ fp := by exact of_decide_eq_true rfl) (hports : Part.ports ∈ fp := by exact of_decide_eq_true rfl) (hnet : Part.net ∈ fp := by exact of_decide_eq_true rfl) :
    ∃ t, execMinx i s = .next t ∧ Frame fp orig t := by
  refine ⟨_, rfl, ?_⟩
  repeat' first
    | intro _
    | with_reducible assumption
    | with_reducible apply State.vuvan_frame
    | with_reducible apply State.issue_frame
    | with_reducible apply onlyIf_frame
    | dsimp only
    | (with_reducible refine frame_mk ?_)

theorem execAddd_frame (i : Issue) (hs : Frame fp orig s) (hdict : Part.dict ∈ fp := by exact of_decide_eq_true rfl) (htime : Part.time ∈ fp := by exact of_decide_eq_true rfl) (hcpu : Part.cpu ∈ fp := by exact of_decide_eq_true rfl) (htmr : Part.tmr ∈ fp := by exact of_decide_eq_true rfl) (hports : Part.ports ∈ fp := by exact of_decide_eq_true rfl) (hnet : Part.net ∈ fp := by exact of_decide_eq_true rfl) :
    ∃ t, execAddd i s = .next t ∧ Frame fp orig t := by
  refine ⟨_, rfl, ?_⟩
  repeat' first
    | intro _
    | with_reducible assumption
    | with_reducible apply State.vuvan_frame
    | with_reducible apply State.issue_frame
    | with_reducible apply onlyIf_frame
    | dsimp only
    | (with_reducible refine frame_mk ?_)

theorem execAdcd_frame (i : Issue) (hs : Frame fp orig s) (hdict : Part.dict ∈ fp := by exact of_decide_eq_true rfl) (htime : Part.time ∈ fp := by exact of_decide_eq_true rfl) (hcpu : Part.cpu ∈ fp := by exact of_decide_eq_true rfl) (htmr : Part.tmr ∈ fp := by exact of_decide_eq_true rfl) (hports : Part.ports ∈ fp := by exact of_decide_eq_true rfl) (hnet : Part.net ∈ fp := by exact of_decide_eq_true rfl) :
    ∃ t, execAdcd i s = .next t ∧ Frame fp orig t := by
  refine ⟨_, rfl, ?_⟩
  repeat' first
    | intro _
    | with_reducible assumption
    | with_reducible apply State.vuvan_frame
    | with_reducible apply State.issue_frame
    | with_reducible apply onlyIf_frame
    | dsimp only
    | (with_reducible refine frame_mk ?_)

theorem execSubd_frame (i : Issue) (hs : Frame fp orig s) (hdict : Part.dict ∈ fp := by exact of_decide_eq_true rfl) (htime : Part.time ∈ fp := by exact of_decide_eq_true rfl) (hcpu : Part.cpu ∈ fp := by exact of_decide_eq_true rfl) (htmr : Part.tmr ∈ fp := by exact of_decide_eq_true rfl) (hports : Part.ports ∈ fp := by exact of_decide_eq_true rfl) (hnet : Part.net ∈ fp := by exact of_decide_eq_true rfl) :
    ∃ t, execSubd i s = .next t ∧ Frame fp orig t := by
  refine ⟨_, rfl, ?_⟩
  repeat' first
    | intro _
    | with_reducible assumption
    | with_reducible apply State.vuvan_frame
    | with_reducible apply State.issue_frame
    | with_reducible apply onlyIf_frame
    | dsimp only
    | (with_reducible refine frame_mk ?_)

theorem execSbcd_frame (i : Issue) (hs : Frame fp orig s) (hdict : Part.dict ∈ fp := by exact of_decide_eq_true rfl) (htime : Part.time ∈ fp := by exact of_decide_eq_true rfl) (hcpu : Part.cpu ∈ fp := by exact of_decide_eq_true rfl) (htmr : Part.tmr ∈ fp := by exact of_decide_eq_true rfl) (hports : Part.ports ∈ fp := by exact of_decide_eq_true rfl) (hnet : Part.net ∈ fp := by exact of_decide_eq_true rfl) :
    ∃ t, execSbcd i s = .next t ∧ Frame fp orig t := by
  refine ⟨_, rfl, ?_⟩
  repeat' first
    | intro _
    | with_reducible assumption
    | with_reducible apply State.vuvan_frame
    | with_reducible apply State.issue_frame
    | with_reducible apply onlyIf_frame
    | dsimp only
    | (with_reducible refine frame_mk ?_)

theorem execMul_frame (i : Issue) (hs : Frame fp orig s) (hdict : Part.dict ∈ fp := by exact of_decide_eq_true rfl) (htime : Part.time ∈ fp := by exact of_decide_eq_true rfl) (hcpu : Part.cpu ∈ fp := by exact of_decide_eq_true rfl) (htmr : Part.tmr ∈ fp := by exact of_decide_eq_true rfl) (hports : Part.ports ∈ fp := by exact of_decide_eq_true rfl) (hnet : Part.net ∈ fp := by exact of_decide_eq_true rfl) :
    ∃ t, execMul i s = .next t ∧ Frame fp orig t := by
  refine ⟨_, rfl, ?_⟩
  repeat' first
    | intro _
    | with_reducible assumption
    | with_reducible apply State.vuvan_frame
    | with_reducible apply State.issue_frame
    | with_reducible apply onlyIf_frame
    | dsimp only
    | (with_reducible refine frame_mk ?_)

theorem execImul_frame (i : Issue) (hs : Frame fp orig s) (hdict : Part.dict ∈ fp := by exact of_decide_eq_true rfl) (htime : Part.time ∈ fp := by exact of_decide_eq_true rfl) (hcpu : Part.cpu ∈ fp := by exact of_decide_eq_true rfl) (htmr : Part.tmr ∈ fp := by exact of_decide_eq_true rfl) (hports : Part.ports ∈ fp := by exact of_decide_eq_true rfl) (hnet : Part.net ∈ fp := by exact of_decide_eq_true rfl) :
    ∃ t, execImul i s = .next t ∧ Frame fp orig t := by
  refine ⟨_, rfl, ?_⟩
  repeat' first
    | intro _
    | with_reducible assumption
    | with_reducible apply State.vuvan_frame
    | with_reducible apply State.issue_frame
    | with_reducible apply onlyIf_frame
    | dsimp only
    | (with_reducible refine frame_mk ?_)

theorem execUmul_frame (i : Issue) (hs : Frame fp orig s) (hdict : Part.dict ∈ fp := by exact of_decide_eq_true rfl) (htime : Part.time ∈ fp := by exact of_decide_eq_true rfl) (hcpu : Part.cpu ∈ fp := by exact of_decide_eq_true rfl) (htmr : Part.tmr ∈ fp := by exact of_decide_eq_true rfl) (hports : Part.ports ∈ fp := by exact of_decide_eq_true rfl) (hnet : Part.net ∈ fp := by exact of_decide_eq_true rfl) :
    ∃ t, execUmul i s = .next t ∧ Frame fp orig t := by
  refine ⟨_, rfl, ?_⟩
  repeat' first
    | intro _
    | with_reducible assumption
    | with_reducible apply State.vuvan_frame
    | with_reducible apply State.issue_frame
    | with_reducible apply onlyIf_frame
    | dsimp only
    | (with_reducible refine frame_mk ?_)

theorem execMpy_frame (i : Issue) (hs : Frame fp orig s) (hdict : Part.dict ∈ fp := by exact of_decide_eq_true rfl) (htime : Part.time ∈ fp := by exact of_decide_eq_true rfl) (hcpu : Part.cpu ∈ fp := by exact of_decide_eq_true rfl) (htmr : Part.tmr ∈ fp := by exact of_decide_eq_true rfl) (hports : Part.ports ∈ fp := by exact of_decide_eq_true rfl) (hnet : Part.net ∈ fp := by exact of_decide_eq_true rfl) :
    ∃ t, execMpy i s = .next t ∧ Frame fp orig t := by
  refine ⟨_, rfl, ?_⟩
  repeat' first
    | intro _
    | with_reducible assumption
    | with_reducible apply State.vuvan_frame
    | with_reducible apply State.issue_frame
    | with_reducible apply onlyIf_frame
    | dsimp only
    | (with_reducible refine frame_mk ?_)

theorem execMac_frame (i : Issue) (hs : Frame fp orig s) (hdict : Part.dict ∈ fp := by exact of_decide_eq_true rfl) (htime : Part.time ∈ fp := by exact of_decide_eq_true rfl) (hcpu : Part.cpu ∈ fp := by exact of_decide_eq_true rfl) (htmr : Part.tmr ∈ fp := by exact of_decide_eq_true rfl) (hports : Part.ports ∈ fp := by exact of_decide_eq_true rfl) (hnet : Part.net ∈ fp := by exact of_decide_eq_true rfl) :
    ∃ t, execMac i s = .next t ∧ Frame fp orig t := by
  refine ⟨_, rfl, ?_⟩
  repeat' first
    | intro _
    | with_reducible assumption
    | with_reducible apply State.vuvan_frame
    | with_reducible apply State.issue_frame
    | with_reducible apply onlyIf_frame
    | dsimp only
    | (with_reducible refine frame_mk ?_)

theorem execMsc_frame (i : Issue) (hs : Frame fp orig s) (hdict : Part.dict ∈ fp := by exact of_decide_eq_true rfl) (htime : Part.time ∈ fp := by exact of_decide_eq_true rfl) (hcpu : Part.cpu ∈ fp := by exact of_decide_eq_true rfl) (htmr : Part.tmr ∈ fp := by exact of_decide_eq_true rfl) (hports : Part.ports ∈ fp := by exact of_decide_eq_true rfl) (hnet : Part.net ∈ fp := by exact of_decide_eq_true rfl) :
    ∃ t, execMsc i s = .next t ∧ Frame fp orig t := by
  refine ⟨_, rfl, ?_⟩
  repeat' first
    | intro _
    | with_reducible assumption
    | with_reducible apply State.vuvan_frame
    | with_reducible apply State.issue_frame
    | with_reducible apply onlyIf_frame
    | dsimp only
    | (with_reducible refine frame_mk ?_)

theorem execMpyr_frame (i : Issue) (hs : Frame fp orig s) (hdict : Part.dict ∈ fp := by exact of_decide_eq_true rfl) (htime : Part.time ∈ fp := by exact of_decide_eq_true rfl) (hcpu : Part.cpu ∈ fp := by exact of_decide_eq_true rfl) (htmr : Part.tmr ∈ fp := by exact of_decide_eq_true rfl) (hports : Part.ports ∈ fp := by exact of_decide_eq_true rfl) (hnet : Part.net ∈ fp := by exact of_decide_eq_true rfl) :
    ∃ t, execMpyr i s = .next t ∧ Frame fp orig t := by
  refine ⟨_, rfl, ?_⟩
  repeat' first
    | intro _
    | with_reducible assumption
    | with_reducible apply State.vuvan_frame
    | with_reducible apply State.issue_frame
    | with_reducible apply onlyIf_frame
    | dsimp only
    | (with_reducible refine frame_mk ?_)

theorem execMacr_frame (i : Issue) (hs : Frame fp orig s) (hdict : Part.dict ∈ fp := by exact of_decide_eq_true rfl) (htime : Part.time ∈ fp := by exact of_decide_eq_true rfl) (hcpu : Part.cpu ∈ fp := by exact of_decide_eq_true rfl) (htmr : Part.tmr ∈ fp := by exact of_decide_eq_true rfl) (hports : Part.ports ∈ fp := by exact of_decide_eq_true rfl) (hnet : Part.net ∈ fp := by exact of_decide_eq_true rfl) :
    ∃ t, execMacr i s = .next t ∧ Frame fp orig t := by
  refine ⟨_, rfl, ?_⟩
  repeat' first
    | intro _
    | with_reducible assumption
    | with_reducible apply State.vuvan_frame
    | with_reducible apply State.issue_frame
    | with_reducible apply onlyIf_frame
    | dsimp only
    | (with_reducible refine frame_mk ?_)

theorem execImac_frame (i : Issue) (hs : Frame fp orig s) (hdict : Part.dict ∈ fp := by exact of_decide_eq_true rfl) (htime : Part.time ∈ fp := by exact of_decide_eq_true rfl) (hcpu : Part.cpu ∈ fp := by exact of_decide_eq_true rfl) (htmr : Part.tmr ∈ fp := by exact of_decide_eq_true rfl) (hports : Part.ports ∈ fp := by exact of_decide_eq_true rfl) (hnet : Part.net ∈ fp := by exact of_decide_eq_true rfl) :
    ∃ t, execImac i s = .next t ∧ Frame fp orig t := by
  refine ⟨_, rfl, ?_⟩
  repeat' first
    | intro _
    | with_reducible assumption
    | with_reducible apply State.vuvan_frame
    | with_reducible apply State.issue_frame
    | with_reducible apply onlyIf_frame
    | dsimp only
    | (with_reducible refine frame_mk ?_)

theorem execAadd_frame (i : Issue) (hs : Frame fp orig s) (hdict : Part.dict ∈ fp := by exact of_decide_eq_true rfl) (htime : Part.time ∈ fp := by exact of_decide_eq_true rfl) (hcpu : Part.cpu ∈ fp := by exact of_decide_eq_true rfl) (htmr : Part.tmr ∈ fp := by exact of_decide_eq_true rfl) (hports : Part.ports ∈ fp := by exact of_decide_eq_true rfl) (hnet : Part.net ∈ fp := by exact of_decide_eq_true rfl) :
    ∃ t, execAadd i s = .next t ∧ Frame fp orig t := by
  refine ⟨_, rfl, ?_⟩
  repeat' first
    | intro _
    | with_reducible assumption
    | with_reducible apply State.vuvan_frame
    | with_reducible apply State.issue_frame
    | with_reducible apply onlyIf_frame
    | dsimp only
    | (with_reducible refine frame_mk ?_)

theorem execAsub_frame (i : Issue) (hs : Frame fp orig s) (hdict : Part.dict ∈ fp := by exact of_decide_eq_true rfl) (htime : Part.time ∈ fp := by exact of_decide_eq_true rfl) (hcpu : Part.cpu ∈ fp := by exact of_decide_eq_true rfl) (htmr : Part.tmr ∈ fp := by exact of_decide_eq_true rfl) (hports : Part.ports ∈ fp := by exact of_decide_eq_true rfl) (hnet : Part.net ∈ fp := by exact of_decide_eq_true rfl) :
    ∃ t, execAsub i s = .next t ∧ Frame fp orig t := by
  refine ⟨_, rfl, ?_⟩
  repeat' first
    | intro _
    | with_reducible assumption
    | with_reducible apply State.vuvan_frame
    | with_reducible apply State.issue_frame
    | with_reducible apply onlyIf_frame
    | dsimp only
    | (with_reducible refine frame_mk ?_)

theorem execAmov_frame (i : Issue) (hs : Frame fp orig s) (hdict : Part.dict ∈ fp := by exact of_decide_eq_true rfl) (htime : Part.time ∈ fp := by exact of_decide_eq_true rfl) (hcpu : Part.cpu ∈ fp := by exact of_decide_eq_true rfl) (htmr : Part.tmr ∈ fp := by exact of_decide_eq_true rfl) (hports : Part.ports ∈ fp := by exact of_decide_eq_true rfl) (hnet : Part.net ∈ fp := by exact of_decide_eq_true rfl) :
    ∃ t, execAmov i s = .next t ∧ Frame fp orig t := by
  refine ⟨_, rfl, ?_⟩
  repeat' first
    | intro _
    | with_reducible assumption
    | with_reducible apply State.vuvan_frame
    | with_reducible apply State.issue_frame
    | with_reducible apply onlyIf_frame
    | dsimp only
    | (with_reducible refine frame_mk ?_)

theorem execAneg_frame (i : Issue) (hs : Frame fp orig s) (hdict : Part.dict ∈ fp := by exact of_decide_eq_true rfl) (htime : Part.time ∈ fp := by exact of_decide_eq_true rfl) (hcpu : Part.cpu ∈ fp := by exact of_decide_eq_true rfl) (htmr : Part.tmr ∈ fp := by exact of_decide_eq_true rfl) (hports : Part.ports ∈ fp := by exact of_decide_eq_true rfl) (hnet : Part.net ∈ fp := by exact of_decide_eq_true rfl) :
    ∃ t, execAneg i s = .next t ∧ Frame fp orig t := by
  refine ⟨_, rfl, ?_⟩
  repeat' first
    | intro _
    | with_reducible assumption
    | with_reducible apply State.vuvan_frame
    | with_reducible apply State.issue_frame
    | with_reducible apply onlyIf_frame
    | dsimp only
    | (with_reducible refine frame_mk ?_)

theorem execAabs_frame (i : Issue) (hs : Frame fp orig s) (hdict : Part.dict ∈ fp := by exact of_decide_eq_true rfl) (htime : Part.time ∈ fp := by exact of_decide_eq_true rfl) (hcpu : Part.cpu ∈ fp := by exact of_decide_eq_true rfl) (htmr : Part.tmr ∈ fp := by exact of_decide_eq_true rfl) (hports : Part.ports ∈ fp := by exact of_decide_eq_true rfl) (hnet : Part.net ∈ fp := by exact of_decide_eq_true rfl) :
    ∃ t, execAabs i s = .next t ∧ Frame fp orig t := by
  refine ⟨_, rfl, ?_⟩
  repeat' first
    | intro _
    | with_reducible assumption
    | with_reducible apply State.vuvan_frame
    | with_reducible apply State.issue_frame
    | with_reducible apply onlyIf_frame
    | dsimp only
    | (with_reducible refine frame_mk ?_)

theorem execAclr_frame (i : Issue) (hs : Frame fp orig s) (hdict : Part.dict ∈ fp := by exact of_decide_eq_true rfl) (htime : Part.time ∈ fp := by exact of_decide_eq_true rfl) (hcpu : Part.cpu ∈ fp := by exact of_decide_eq_true rfl) (htmr : Part.tmr ∈ fp := by exact of_decide_eq_true rfl) (hports : Part.ports ∈ fp := by exact of_decide_eq_true rfl) (hnet : Part.net ∈ fp := by exact of_decide_eq_true rfl) :
    ∃ t, execAclr i s = .next t ∧ Frame fp orig t := by
  refine ⟨_, rfl, ?_⟩
  repeat' first
    | intro _
    | with_reducible assumption
    | with_reducible apply State.vuvan_frame
    | with_reducible apply State.issue_frame
    | with_reducible apply onlyIf_frame
    | dsimp only
    | (with_reducible refine frame_mk ?_)

theorem execAcmp_frame (i : Issue) (hs : Frame fp orig s) (hdict : Part.dict ∈ fp := by exact of_decide_eq_true rfl) (htime : Part.time ∈ fp := by exact of_decide_eq_true rfl) (hcpu : Part.cpu ∈ fp := by exact of_decide_eq_true rfl) (htmr : Part.tmr ∈ fp := by exact of_decide_eq_true rfl) (hports : Part.ports ∈ fp := by exact of_decide_eq_true rfl) (hnet : Part.net ∈ fp := by exact of_decide_eq_true rfl) :
    ∃ t, execAcmp i s = .next t ∧ Frame fp orig t := by
  refine ⟨_, rfl, ?_⟩
  repeat' first
    | intro _
    | with_reducible assumption
    | with_reducible apply State.vuvan_frame
    | with_reducible apply State.issue_frame
    | with_reducible apply onlyIf_frame
    | dsimp only
    | (with_reducible refine frame_mk ?_)

theorem execRnd_frame (i : Issue) (hs : Frame fp orig s) (hdict : Part.dict ∈ fp := by exact of_decide_eq_true rfl) (htime : Part.time ∈ fp := by exact of_decide_eq_true rfl) (hcpu : Part.cpu ∈ fp := by exact of_decide_eq_true rfl) (htmr : Part.tmr ∈ fp := by exact of_decide_eq_true rfl) (hports : Part.ports ∈ fp := by exact of_decide_eq_true rfl) (hnet : Part.net ∈ fp := by exact of_decide_eq_true rfl) :
    ∃ t, execRnd i s = .next t ∧ Frame fp orig t := by
  refine ⟨_, rfl, ?_⟩
  repeat' first
    | intro _
    | with_reducible assumption
    | with_reducible apply State.vuvan_frame
    | with_reducible apply State.issue_frame
    | with_reducible apply onlyIf_frame
    | dsimp only
    | (with_reducible refine frame_mk ?_)

theorem execAsat_frame (i : Issue) (hs : Frame fp orig s) (hdict : Part.dict ∈ fp := by exact of_decide_eq_true rfl) (htime : Part.time ∈ fp := by exact of_decide_eq_true rfl) (hcpu : Part.cpu ∈ fp := by exact of_decide_eq_true rfl) (htmr : Part.tmr ∈ fp := by exact of_decide_eq_true rfl) (hports : Part.ports ∈ fp := by exact of_decide_eq_true rfl) (hnet : Part.net ∈ fp := by exact of_decide_eq_true rfl) :
    ∃ t, execAsat i s = .next t ∧ Frame fp orig t := by
  refine ⟨_, rfl, ?_⟩
  repeat' first
    | intro _
    | with_reducible assumption
    | with_reducible apply State.vuvan_frame
    | with_reducible apply State.issue_frame
    | with_reducible apply onlyIf_frame
    | dsimp only
    | (with_reducible refine frame_mk ?_)

theorem execAsh_frame (i : Issue) (hs : Frame fp orig s) (hdict : Part.dict ∈ fp := by exact of_decide_eq_true rfl) (htime : Part.time ∈ fp := by exact of_decide_eq_true rfl) (hcpu : Part.cpu ∈ fp := by exact of_decide_eq_true rfl) (htmr : Part.tmr ∈ fp := by exact of_decide_eq_true rfl) (hports : Part.ports ∈ fp := by exact of_decide_eq_true rfl) (hnet : Part.net ∈ fp := by exact of_decide_eq_true rfl) :
    ∃ t, execAsh i s = .next t ∧ Frame fp orig t := by
  refine ⟨_, rfl, ?_⟩
  repeat' first
    | intro _
    | with_reducible assumption
    | with_reducible apply State.vuvan_frame
    | with_reducible apply State.issue_frame
    | with_reducible apply onlyIf_frame
    | dsimp only
    | (with_reducible refine frame_mk ?_)

theorem execAget_frame (i : Issue) (hs : Frame fp orig s) (hdict : Part.dict ∈ fp := by exact of_decide_eq_true rfl) (htime : Part.time ∈ fp := by exact of_decide_eq_true rfl) (hcpu : Part.cpu ∈ fp := by exact of_decide_eq_true rfl) (htmr : Part.tmr ∈ fp := by exact of_decide_eq_true rfl) (hports : Part.ports ∈ fp := by exact of_decide_eq_true rfl) (hnet : Part.net ∈ fp := by exact of_decide_eq_true rfl) :
    ∃ t, execAget i s = .next t ∧ Frame fp orig t := by
  refine ⟨_, rfl, ?_⟩
  repeat' first
    | intro _
    | with_reducible assumption
    | with_reducible apply State.vuvan_frame
    | with_reducible apply State.issue_frame
    | with_reducible apply onlyIf_frame
    | dsimp only
    | (with_reducible refine frame_mk ?_)

theorem execAgets_frame (i : Issue) (hs : Frame fp orig s) (hdict : Part.dict ∈ fp := by exact of_decide_eq_true rfl) (htime : Part.time ∈ fp := by exact of_decide_eq_true rfl) (hcpu : Part.cpu ∈ fp := by exact of_decide_eq_true rfl) (htmr : Part.tmr ∈ fp := by exact of_decide_eq_true rfl) (hports : Part.ports ∈ fp := by exact of_decide_eq_true rfl) (hnet : Part.net ∈ fp := by exact of_decide_eq_true rfl) :
    ∃ t, execAgets i s = .next t ∧ Frame fp orig t := by
  refine ⟨_, rfl, ?_⟩
  repeat' first
    | intro _
    | with_reducible assumption
    | with_reducible apply State.vuvan_frame
    | with_reducible apply State.issue_frame
    | with_reducible apply onlyIf_frame
    | dsimp only
    | (with_reducible refine frame_mk ?_)

theorem execAgetr_frame (i : Issue) (hs : Frame fp orig s) (hdict : Part.dict ∈ fp := by exact of_decide_eq_true rfl) (htime : Part.time ∈ fp := by exact of_decide_eq_true rfl) (hcpu : Part.cpu ∈ fp := by exact of_decide_eq_true rfl) (htmr : Part.tmr ∈ fp := by exact of_decide_eq_true rfl) (hports : Part.ports ∈ fp := by exact of_decide_eq_true rfl) (hnet : Part.net ∈ fp := by exact of_decide_eq_true rfl) :
    ∃ t, execAgetr i s = .next t ∧ Frame fp orig t := by
  refine ⟨_, rfl, ?_⟩
  repeat' first
    | intro _
    | with_reducible assumption
    | with_reducible apply State.vuvan_frame
    | with_reducible apply State.issue_frame
    | with_reducible apply onlyIf_frame
    | dsimp only
    | (with_reducible refine frame_mk ?_)

theorem execFadd_frame (i : Issue) (hs : Frame fp orig s) (hdict : Part.dict ∈ fp := by exact of_decide_eq_true rfl) (htime : Part.time ∈ fp := by exact of_decide_eq_true rfl) (hcpu : Part.cpu ∈ fp := by exact of_decide_eq_true rfl) (htmr : Part.tmr ∈ fp := by exact of_decide_eq_true rfl) (hports : Part.ports ∈ fp := by exact of_decide_eq_true rfl) (hnet : Part.net ∈ fp := by exact of_decide_eq_true rfl) :
    ∃ t, execFadd i s = .next t ∧ Frame fp orig t := by
  refine ⟨_, rfl, ?_⟩
  repeat' first
    | intro _
    | with_reducible assumption
    | with_reducible apply State.vuvan_frame
    | with_reducible apply State.issue_frame
    | with_reducible apply onlyIf_frame
    | dsimp only
    | (with_reducible refine frame_mk ?_)

theorem execFsub_frame (i : Issue) (hs : Frame fp orig s) (hdict : Part.dict ∈ fp := by exact of_decide_eq_true rfl) (htime : Part.time ∈ fp := by exact of_decide_eq_true rfl) (hcpu : Part.cpu ∈ fp := by exact of_decide_eq_true rfl) (htmr : Part.tmr ∈ fp := by exact of_decide_eq_true rfl) (hports : Part.ports ∈ fp := by exact of_decide_eq_true rfl) (hnet : Part.net ∈ fp := by exact of_decide_eq_true rfl) :
    ∃ t, execFsub i s = .next t ∧ Frame fp orig t := by
  refine ⟨_, rfl, ?_⟩
  repeat' first
    | intro _
    | with_reducible assumption
    | with_reducible apply State.vuvan_frame
    | with_reducible apply State.issue_frame
    | with_reducible apply onlyIf_frame
    | dsimp only
    | (with_reducible refine frame_mk ?_)

theorem execFmul_frame (i : Issue) (hs : Frame fp orig s) (hdict : Part.dict ∈ fp := by exact of_decide_eq_true rfl) (htime : Part.time ∈ fp := by exact of_decide_eq_true rfl) (hcpu : Part.cpu ∈ fp := by exact of_decide_eq_true rfl) (htmr : Part.tmr ∈ fp := by exact of_decide_eq_true rfl) (hports : Part.ports ∈ fp := by exact of_decide_eq_true rfl) (hnet : Part.net ∈ fp := by exact of_decide_eq_true rfl) :
    ∃ t, execFmul i s = .next t ∧ Frame fp orig t := by
  refine ⟨_, rfl, ?_⟩
  repeat' first
    | intro _
    | with_reducible assumption
    | with_reducible apply State.vuvan_frame
    | with_reducible apply State.issue_frame
    | with_reducible apply onlyIf_frame
    | dsimp only
    | (with_reducible refine frame_mk ?_)

theorem execFdiv_frame (i : Issue) (hs : Frame fp orig s) (hdict : Part.dict ∈ fp := by exact of_decide_eq_true rfl) (htime : Part.time ∈ fp := by exact of_decide_eq_true rfl) (hcpu : Part.cpu ∈ fp := by exact of_decide_eq_true rfl) (htmr : Part.tmr ∈ fp := by exact of_decide_eq_true rfl) (hports : Part.ports ∈ fp := by exact of_decide_eq_true rfl) (hnet : Part.net ∈ fp := by exact of_decide_eq_true rfl) :
    ∃ t, execFdiv i s = .next t ∧ Frame fp orig t := by
  refine ⟨_, rfl, ?_⟩
  repeat' first
    | intro _
    | with_reducible assumption
    | with_reducible apply State.vuvan_frame
    | with_reducible apply State.issue_frame
    | with_reducible apply onlyIf_frame
    | dsimp only
    | (with_reducible refine frame_mk ?_)

theorem execFsqrt_frame (i : Issue) (hs : Frame fp orig s) (hdict : Part.dict ∈ fp := by exact of_decide_eq_true rfl) (htime : Part.time ∈ fp := by exact of_decide_eq_true rfl) (hcpu : Part.cpu ∈ fp := by exact of_decide_eq_true rfl) (htmr : Part.tmr ∈ fp := by exact of_decide_eq_true rfl) (hports : Part.ports ∈ fp := by exact of_decide_eq_true rfl) (hnet : Part.net ∈ fp := by exact of_decide_eq_true rfl) :
    ∃ t, execFsqrt i s = .next t ∧ Frame fp orig t := by
  refine ⟨_, rfl, ?_⟩
  repeat' first
    | intro _
    | with_reducible assumption
    | with_reducible apply State.vuvan_frame
    | with_reducible apply State.issue_frame
    | with_reducible apply onlyIf_frame
    | dsimp only
    | (with_reducible refine frame_mk ?_)

theorem execFneg_frame (i : Issue) (hs : Frame fp orig s) (hdict : Part.dict ∈ fp := by exact of_decide_eq_true rfl) (htime : Part.time ∈ fp := by exact of_decide_eq_true rfl) (hcpu : Part.cpu ∈ fp := by exact of_decide_eq_true rfl) (htmr : Part.tmr ∈ fp := by exact of_decide_eq_true rfl) (hports : Part.ports ∈ fp := by exact of_decide_eq_true rfl) (hnet : Part.net ∈ fp := by exact of_decide_eq_true rfl) :
    ∃ t, execFneg i s = .next t ∧ Frame fp orig t := by
  refine ⟨_, rfl, ?_⟩
  repeat' first
    | intro _
    | with_reducible assumption
    | with_reducible apply State.vuvan_frame
    | with_reducible apply State.issue_frame
    | with_reducible apply onlyIf_frame
    | dsimp only
    | (with_reducible refine frame_mk ?_)

theorem execFabs_frame (i : Issue) (hs : Frame fp orig s) (hdict : Part.dict ∈ fp := by exact of_decide_eq_true rfl) (htime : Part.time ∈ fp := by exact of_decide_eq_true rfl) (hcpu : Part.cpu ∈ fp := by exact of_decide_eq_true rfl) (htmr : Part.tmr ∈ fp := by exact of_decide_eq_true rfl) (hports : Part.ports ∈ fp := by exact of_decide_eq_true rfl) (hnet : Part.net ∈ fp := by exact of_decide_eq_true rfl) :
    ∃ t, execFabs i s = .next t ∧ Frame fp orig t := by
  refine ⟨_, rfl, ?_⟩
  repeat' first
    | intro _
    | with_reducible assumption
    | with_reducible apply State.vuvan_frame
    | with_reducible apply State.issue_frame
    | with_reducible apply onlyIf_frame
    | dsimp only
    | (with_reducible refine frame_mk ?_)

theorem execFmov_frame (i : Issue) (hs : Frame fp orig s) (hdict : Part.dict ∈ fp := by exact of_decide_eq_true rfl) (htime : Part.time ∈ fp := by exact of_decide_eq_true rfl) (hcpu : Part.cpu ∈ fp := by exact of_decide_eq_true rfl) (htmr : Part.tmr ∈ fp := by exact of_decide_eq_true rfl) (hports : Part.ports ∈ fp := by exact of_decide_eq_true rfl) (hnet : Part.net ∈ fp := by exact of_decide_eq_true rfl) :
    ∃ t, execFmov i s = .next t ∧ Frame fp orig t := by
  refine ⟨_, rfl, ?_⟩
  repeat' first
    | intro _
    | with_reducible assumption
    | with_reducible apply State.vuvan_frame
    | with_reducible apply State.issue_frame
    | with_reducible apply onlyIf_frame
    | dsimp only
    | (with_reducible refine frame_mk ?_)

theorem execFcmp_frame (i : Issue) (hs : Frame fp orig s) (hdict : Part.dict ∈ fp := by exact of_decide_eq_true rfl) (htime : Part.time ∈ fp := by exact of_decide_eq_true rfl) (hcpu : Part.cpu ∈ fp := by exact of_decide_eq_true rfl) (htmr : Part.tmr ∈ fp := by exact of_decide_eq_true rfl) (hports : Part.ports ∈ fp := by exact of_decide_eq_true rfl) (hnet : Part.net ∈ fp := by exact of_decide_eq_true rfl) :
    ∃ t, execFcmp i s = .next t ∧ Frame fp orig t := by
  refine ⟨_, rfl, ?_⟩
  repeat' first
    | intro _
    | with_reducible assumption
    | with_reducible apply State.vuvan_frame
    | with_reducible apply State.issue_frame
    | with_reducible apply onlyIf_frame
    | dsimp only
    | (with_reducible refine frame_mk ?_)

theorem execFitof_frame (i : Issue) (hs : Frame fp orig s) (hdict : Part.dict ∈ fp := by exact of_decide_eq_true rfl) (htime : Part.time ∈ fp := by exact of_decide_eq_true rfl) (hcpu : Part.cpu ∈ fp := by exact of_decide_eq_true rfl) (htmr : Part.tmr ∈ fp := by exact of_decide_eq_true rfl) (hports : Part.ports ∈ fp := by exact of_decide_eq_true rfl) (hnet : Part.net ∈ fp := by exact of_decide_eq_true rfl) :
    ∃ t, execFitof i s = .next t ∧ Frame fp orig t := by
  refine ⟨_, rfl, ?_⟩
  repeat' first
    | intro _
    | with_reducible assumption
    | with_reducible apply State.vuvan_frame
    | with_reducible apply State.issue_frame
    | with_reducible apply onlyIf_frame
    | dsimp only
    | (with_reducible refine frame_mk ?_)

theorem execFutof_frame (i : Issue) (hs : Frame fp orig s) (hdict : Part.dict ∈ fp := by exact of_decide_eq_true rfl) (htime : Part.time ∈ fp := by exact of_decide_eq_true rfl) (hcpu : Part.cpu ∈ fp := by exact of_decide_eq_true rfl) (htmr : Part.tmr ∈ fp := by exact of_decide_eq_true rfl) (hports : Part.ports ∈ fp := by exact of_decide_eq_true rfl) (hnet : Part.net ∈ fp := by exact of_decide_eq_true rfl) :
    ∃ t, execFutof i s = .next t ∧ Frame fp orig t := by
  refine ⟨_, rfl, ?_⟩
  repeat' first
    | intro _
    | with_reducible assumption
    | with_reducible apply State.vuvan_frame
    | with_reducible apply State.issue_frame
    | with_reducible apply onlyIf_frame
    | dsimp only
    | (with_reducible refine frame_mk ?_)

theorem execFftoi_frame (i : Issue) (hs : Frame fp orig s) (hdict : Part.dict ∈ fp := by exact of_decide_eq_true rfl) (htime : Part.time ∈ fp := by exact of_decide_eq_true rfl) (hcpu : Part.cpu ∈ fp := by exact of_decide_eq_true rfl) (htmr : Part.tmr ∈ fp := by exact of_decide_eq_true rfl) (hports : Part.ports ∈ fp := by exact of_decide_eq_true rfl) (hnet : Part.net ∈ fp := by exact of_decide_eq_true rfl) :
    ∃ t, execFftoi i s = .next t ∧ Frame fp orig t := by
  refine ⟨_, rfl, ?_⟩
  repeat' first
    | intro _
    | with_reducible assumption
    | with_reducible apply State.vuvan_frame
    | with_reducible apply State.issue_frame
    | with_reducible apply onlyIf_frame
    | dsimp only
    | (with_reducible refine frame_mk ?_)

theorem execFqtof_frame (i : Issue) (hs : Frame fp orig s) (hdict : Part.dict ∈ fp := by exact of_decide_eq_true rfl) (htime : Part.time ∈ fp := by exact of_decide_eq_true rfl) (hcpu : Part.cpu ∈ fp := by exact of_decide_eq_true rfl) (htmr : Part.tmr ∈ fp := by exact of_decide_eq_true rfl) (hports : Part.ports ∈ fp := by exact of_decide_eq_true rfl) (hnet : Part.net ∈ fp := by exact of_decide_eq_true rfl) :
    ∃ t, execFqtof i s = .next t ∧ Frame fp orig t := by
  refine ⟨_, rfl, ?_⟩
  repeat' first
    | intro _
    | with_reducible assumption
    | with_reducible apply State.vuvan_frame
    | with_reducible apply State.issue_frame
    | with_reducible apply onlyIf_frame
    | dsimp only
    | (with_reducible refine frame_mk ?_)

theorem execFftoq_frame (i : Issue) (hs : Frame fp orig s) (hdict : Part.dict ∈ fp := by exact of_decide_eq_true rfl) (htime : Part.time ∈ fp := by exact of_decide_eq_true rfl) (hcpu : Part.cpu ∈ fp := by exact of_decide_eq_true rfl) (htmr : Part.tmr ∈ fp := by exact of_decide_eq_true rfl) (hports : Part.ports ∈ fp := by exact of_decide_eq_true rfl) (hnet : Part.net ∈ fp := by exact of_decide_eq_true rfl) :
    ∃ t, execFftoq i s = .next t ∧ Frame fp orig t := by
  refine ⟨_, rfl, ?_⟩
  repeat' first
    | intro _
    | with_reducible assumption
    | with_reducible apply State.vuvan_frame
    | with_reducible apply State.issue_frame
    | with_reducible apply onlyIf_frame
    | dsimp only
    | (with_reducible refine frame_mk ?_)

theorem execFatof_frame (i : Issue) (hs : Frame fp orig s) (hdict : Part.dict ∈ fp := by exact of_decide_eq_true rfl) (htime : Part.time ∈ fp := by exact of_decide_eq_true rfl) (hcpu : Part.cpu ∈ fp := by exact of_decide_eq_true rfl) (htmr : Part.tmr ∈ fp := by exact of_decide_eq_true rfl) (hports : Part.ports ∈ fp := by exact of_decide_eq_true rfl) (hnet : Part.net ∈ fp := by exact of_decide_eq_true rfl) :
    ∃ t, execFatof i s = .next t ∧ Frame fp orig t := by
  refine ⟨_, rfl, ?_⟩
  repeat' first
    | intro _
    | with_reducible assumption
    | with_reducible apply State.vuvan_frame
    | with_reducible apply State.issue_frame
    | with_reducible apply onlyIf_frame
    | dsimp only
    | (with_reducible refine frame_mk ?_)

theorem execFftoa_frame (i : Issue) (hs : Frame fp orig s) (hdict : Part.dict ∈ fp := by exact of_decide_eq_true rfl) (htime : Part.time ∈ fp := by exact of_decide_eq_true rfl) (hcpu : Part.cpu ∈ fp := by exact of_decide_eq_true rfl) (htmr : Part.tmr ∈ fp := by exact of_decide_eq_true rfl) (hports : Part.ports ∈ fp := by exact of_decide_eq_true rfl) (hnet : Part.net ∈ fp := by exact of_decide_eq_true rfl) :
    ∃ t, execFftoa i s = .next t ∧ Frame fp orig t := by
  refine ⟨_, rfl, ?_⟩
  repeat' first
    | intro _
    | with_reducible assumption
    | with_reducible apply State.vuvan_frame
    | with_reducible apply State.issue_frame
    | with_reducible apply onlyIf_frame
    | dsimp only
    | (with_reducible refine frame_mk ?_)

theorem execRep_frame (i : Issue) (w2 : Word) (x2 : Word) (cut : Option Nat) (hs : Frame fp orig s) (hdict : Part.dict ∈ fp := by exact of_decide_eq_true rfl) (htime : Part.time ∈ fp := by exact of_decide_eq_true rfl) (hcpu : Part.cpu ∈ fp := by exact of_decide_eq_true rfl) (htmr : Part.tmr ∈ fp := by exact of_decide_eq_true rfl) (hports : Part.ports ∈ fp := by exact of_decide_eq_true rfl) (hnet : Part.net ∈ fp := by exact of_decide_eq_true rfl) :
    ∃ t, execRep i w2 x2 cut s = .next t ∧ Frame fp orig t := by
  refine ⟨_, rfl, ?_⟩
  repeat' first
    | intro _
    | with_reducible assumption
    | with_reducible apply State.vuvan_frame
    | with_reducible apply State.issueRep_frame
    | with_reducible apply onlyIf_frame
    | dsimp only
    | (with_reducible refine frame_mk ?_)

theorem execUndefinedInstruction_frame (i : Issue) (hs : Frame fp orig s) (hdict : Part.dict ∈ fp := by exact of_decide_eq_true rfl) (htime : Part.time ∈ fp := by exact of_decide_eq_true rfl) (hcpu : Part.cpu ∈ fp := by exact of_decide_eq_true rfl) (htmr : Part.tmr ∈ fp := by exact of_decide_eq_true rfl) (hports : Part.ports ∈ fp := by exact of_decide_eq_true rfl) (hnet : Part.net ∈ fp := by exact of_decide_eq_true rfl) :
    ∃ t, execUndefinedInstruction i s = .next t ∧ Frame fp orig t := by
  refine ⟨_, rfl, ?_⟩
  repeat' first
    | intro _
    | with_reducible assumption
    | with_reducible apply State.boundary_frame
    | with_reducible apply State.issue_frame
    | with_reducible apply State.reach_frame
    | with_reducible apply onlyIf_frame
    | with_reducible apply frame_ite
    | (extract_lets +onlyGivenNames -underBinder x; first | (refine frame_cut (fp := fp) (orig := orig) (x := x) ?_ ?_ <;> first | (intro h0; generalize x = y at h0 ⊢; clear x) | intro h0 | subst x) | (have h0 := Nat.zero_le x; generalize x = y at h0 ⊢; clear h0 x) | subst x)
    | split
    | dsimp only
    | (with_reducible refine frame_mk ?_)

theorem execPendingResultWrite_frame (core : Nat) (dest : Nat) (hs : Frame fp orig s) (hdict : Part.dict ∈ fp := by exact of_decide_eq_true rfl) (hcpu : Part.cpu ∈ fp := by exact of_decide_eq_true rfl) (htmr : Part.tmr ∈ fp := by exact of_decide_eq_true rfl) (hports : Part.ports ∈ fp := by exact of_decide_eq_true rfl) (hnet : Part.net ∈ fp := by exact of_decide_eq_true rfl) :
    ∃ t, execPendingResultWrite core dest s = .next t ∧ Frame fp orig t := by
  refine ⟨_, rfl, ?_⟩
  repeat' first
    | intro _
    | with_reducible assumption
    | with_reducible apply State.dueTraps_frame
    | with_reducible apply State.modCore_frame
    | with_reducible apply onlyIf_frame
    | with_reducible apply frame_ite
    | (extract_lets +onlyGivenNames -underBinder x; first | (refine frame_cut (fp := fp) (orig := orig) (x := x) ?_ ?_ <;> first | (intro h0; generalize x = y at h0 ⊢; clear x) | intro h0 | subst x) | (have h0 := Nat.zero_le x; generalize x = y at h0 ⊢; clear h0 x) | subst x)
    | split
    | dsimp only
    | (with_reducible refine frame_mk ?_)

theorem execInterruptEntry_frame (core : Nat) (at_ : Nat) (hs : Frame fp orig s) (hdict : Part.dict ∈ fp := by exact of_decide_eq_true rfl) (htime : Part.time ∈ fp := by exact of_decide_eq_true rfl) (hcpu : Part.cpu ∈ fp := by exact of_decide_eq_true rfl) (htmr : Part.tmr ∈ fp := by exact of_decide_eq_true rfl) (hports : Part.ports ∈ fp := by exact of_decide_eq_true rfl) (hnet : Part.net ∈ fp := by exact of_decide_eq_true rfl) :
    ∃ t, execInterruptEntry core at_ s = .next t ∧ Frame fp orig t := by
  refine ⟨_, rfl, ?_⟩
  repeat' first
    | intro _
    | with_reducible assumption
    | with_reducible apply State.interrupt_frame
    | with_reducible apply State.reach_frame
    | with_reducible apply onlyIf_frame
    | dsimp only
    | (with_reducible refine frame_mk ?_)

theorem execUserEntry_frame (at_ : Nat) (hs : Frame fp orig s) (htime : Part.time ∈ fp := by exact of_decide_eq_true rfl) (hcpu : Part.cpu ∈ fp := by exact of_decide_eq_true rfl) :
    ∃ t, execUserEntry at_ s = .next t ∧ Frame fp orig t := by
  refine ⟨_, rfl, ?_⟩
  repeat' first
    | intro _
    | with_reducible assumption
    | with_reducible apply State.userEnter_frame
    | with_reducible apply State.tickDone_frame
    | with_reducible apply State.reach_frame
    | with_reducible apply onlyIf_frame
    | with_reducible apply frame_ite
    | (extract_lets +onlyGivenNames -underBinder x; first | (refine frame_cut (fp := fp) (orig := orig) (x := x) ?_ ?_ <;> first | (intro h0; generalize x = y at h0 ⊢; clear x) | intro h0 | subst x) | (have h0 := Nat.zero_le x; generalize x = y at h0 ⊢; clear h0 x) | subst x)
    | split
    | dsimp only
    | (with_reducible refine frame_mk ?_)

theorem execNcoCommit_frame (core : Nat) (at_ : Nat) (n : Nat) (w : Word) (hs : Frame fp orig s) (hdict : Part.dict ∈ fp := by exact of_decide_eq_true rfl) (htime : Part.time ∈ fp := by exact of_decide_eq_true rfl) (hcpu : Part.cpu ∈ fp := by exact of_decide_eq_true rfl) (htmr : Part.tmr ∈ fp := by exact of_decide_eq_true rfl) (hports : Part.ports ∈ fp := by exact of_decide_eq_true rfl) (hnet : Part.net ∈ fp := by exact of_decide_eq_true rfl) :
    ∃ t, execNcoCommit core at_ n w s = .next t ∧ Frame fp orig t := by
  refine ⟨_, rfl, ?_⟩
  repeat' first
    | intro _
    | with_reducible assumption
    | with_reducible apply State.storeWord_frame
    | with_reducible apply onlyIf_frame
    | with_reducible apply frame_ite
    | split
    | dsimp only
    | (with_reducible refine frame_mk ?_)

theorem execMailboxSend_frame (core : Nat) (at_ : Nat) (w : Word) (hs : Frame fp orig s) (hdict : Part.dict ∈ fp := by exact of_decide_eq_true rfl) (htime : Part.time ∈ fp := by exact of_decide_eq_true rfl) (hcpu : Part.cpu ∈ fp := by exact of_decide_eq_true rfl) (htmr : Part.tmr ∈ fp := by exact of_decide_eq_true rfl) (hports : Part.ports ∈ fp := by exact of_decide_eq_true rfl) (hnet : Part.net ∈ fp := by exact of_decide_eq_true rfl) :
    ∃ t, execMailboxSend core at_ w s = .next t ∧ Frame fp orig t := by
  refine ⟨_, rfl, ?_⟩
  repeat' first
    | intro _
    | with_reducible assumption
    | with_reducible apply State.storeWord_frame
    | with_reducible apply onlyIf_frame
    | dsimp only
    | (with_reducible refine frame_mk ?_)

theorem execTickNow_frame (core : Nat) (at_ : Nat) (hs : Frame fp orig s) (htime : Part.time ∈ fp := by exact of_decide_eq_true rfl) (hcpu : Part.cpu ∈ fp := by exact of_decide_eq_true rfl) :
    ∃ t, execTickNow core at_ s = .next t ∧ Frame fp orig t := by
  refine ⟨_, rfl, ?_⟩
  repeat' first
    | intro _
    | with_reducible assumption
    | with_reducible apply State.tickNow_frame
    | with_reducible apply State.reach_frame
    | with_reducible apply onlyIf_frame
    | with_reducible apply frame_ite
    | split
    | dsimp only
    | (with_reducible refine frame_mk ?_)

theorem execTickDone_frame (core : Nat) (at_ : Nat) (w : Word) (hs : Frame fp orig s) (hdict : Part.dict ∈ fp := by exact of_decide_eq_true rfl) (htime : Part.time ∈ fp := by exact of_decide_eq_true rfl) (hcpu : Part.cpu ∈ fp := by exact of_decide_eq_true rfl) (htmr : Part.tmr ∈ fp := by exact of_decide_eq_true rfl) (hports : Part.ports ∈ fp := by exact of_decide_eq_true rfl) (hnet : Part.net ∈ fp := by exact of_decide_eq_true rfl) :
    ∃ t, execTickDone core at_ w s = .next t ∧ Frame fp orig t := by
  refine ⟨_, rfl, ?_⟩
  repeat' first
    | intro _
    | with_reducible assumption
    | with_reducible apply State.storeWord_frame
    | with_reducible apply onlyIf_frame
    | dsimp only
    | (with_reducible refine frame_mk ?_)

theorem execDauGo_frame (core : Nat) (at_ : Nat) (w : Word) (hs : Frame fp orig s) (hdict : Part.dict ∈ fp := by exact of_decide_eq_true rfl) (htime : Part.time ∈ fp := by exact of_decide_eq_true rfl) (hcpu : Part.cpu ∈ fp := by exact of_decide_eq_true rfl) (htmr : Part.tmr ∈ fp := by exact of_decide_eq_true rfl) (hports : Part.ports ∈ fp := by exact of_decide_eq_true rfl) (hnet : Part.net ∈ fp := by exact of_decide_eq_true rfl) :
    ∃ t, execDauGo core at_ w s = .next t ∧ Frame fp orig t := by
  refine ⟨_, rfl, ?_⟩
  repeat' first
    | intro _
    | with_reducible assumption
    | with_reducible apply State.storeWord_frame
    | with_reducible apply onlyIf_frame
    | dsimp only
    | (with_reducible refine frame_mk ?_)

theorem execRingHead_frame (core : Nat) (at_ : Nat) (ring : Nat) (w : Word) (hs : Frame fp orig s) (hdict : Part.dict ∈ fp := by exact of_decide_eq_true rfl) (htime : Part.time ∈ fp := by exact of_decide_eq_true rfl) (hcpu : Part.cpu ∈ fp := by exact of_decide_eq_true rfl) (htmr : Part.tmr ∈ fp := by exact of_decide_eq_true rfl) (hports : Part.ports ∈ fp := by exact of_decide_eq_true rfl) (hnet : Part.net ∈ fp := by exact of_decide_eq_true rfl) :
    ∃ t, execRingHead core at_ ring w s = .next t ∧ Frame fp orig t := by
  refine ⟨_, rfl, ?_⟩
  repeat' first
    | intro _
    | with_reducible assumption
    | with_reducible apply State.storeWord_frame
    | with_reducible apply onlyIf_frame
    | with_reducible apply frame_ite
    | split
    | dsimp only
    | (with_reducible refine frame_mk ?_)

end Sys2Proof.Machine
end

