-- ==== Sys2Proof/Laws/KeepsTime.lean ====
section
/-!
SUPPORT. What the operations keep: the shared operations, time, the timers and the chains.
-/

set_option linter.all false
set_option Elab.async false

namespace Sys2Proof.Machine

/-! ### State -/

/-! ### Ops -/

theorem State.setI_keeps {q : List Instr} {j : TapSt} {b : TimeBase} {s : State} (k : Nat) (n : Nat) (i : Int) (hs : Keeps q j b s) :
    Keeps q j b (State.setI s k n i) := by
  unfold State.setI
  repeat' first
    | intro _
    | with_reducible assumption
    | with_reducible apply State.set_keeps
    | with_reducible rfl
    | dsimp only
    | (with_reducible refine keeps_mk ?_ ⟨rfl, rfl, rfl, rfl, rfl⟩ ⟨rfl, rfl⟩)

theorem State.setB_keeps {q : List Instr} {j : TapSt} {b0 : TimeBase} {s : State} (k : Nat) (b : Bool) (hs : Keeps q j b0 s) :
    Keeps q j b0 (State.setB s k b) := by
  unfold State.setB
  repeat' first
    | intro _
    | with_reducible assumption
    | with_reducible apply State.set_keeps
    | with_reducible rfl
    | dsimp only
    | (with_reducible refine keeps_mk ?_ ⟨rfl, rfl, rfl, rfl, rfl⟩ ⟨rfl, rfl⟩)

theorem State.bumpBy_keeps {q : List Instr} {j : TapSt} {b : TimeBase} {s : State} (k : Nat) (m : Nat) (hs : Keeps q j b s) :
    Keeps q j b (State.bumpBy s k m) := by
  unfold State.bumpBy
  repeat' first
    | intro _
    | with_reducible assumption
    | with_reducible apply State.set_keeps
    | with_reducible rfl
    | dsimp only
    | (with_reducible refine keeps_mk ?_ ⟨rfl, rfl, rfl, rfl, rfl⟩ ⟨rfl, rfl⟩)

theorem State.count_keeps {q : List Instr} {j : TapSt} {b : TimeBase} {s : State} (k : Nat) (n : Nat) (hs : Keeps q j b s) :
    Keeps q j b (State.count s k n) := by
  unfold State.count
  repeat' first
    | intro _
    | with_reducible assumption
    | with_reducible apply State.set_keeps
    | with_reducible rfl
    | dsimp only
    | (with_reducible refine keeps_mk ?_ ⟨rfl, rfl, rfl, rfl, rfl⟩ ⟨rfl, rfl⟩)

theorem State.raise_keeps {q : List Instr} {j : TapSt} {b0 : TimeBase} {s : State} (word : Nat) (b : Nat) (hs : Keeps q j b0 s) :
    Keeps q j b0 (State.raise s word b) := by
  unfold State.raise
  repeat' first
    | intro _
    | with_reducible assumption
    | with_reducible apply State.set_keeps
    | with_reducible rfl
    | dsimp only
    | (with_reducible refine keeps_mk ?_ ⟨rfl, rfl, rfl, rfl, rfl⟩ ⟨rfl, rfl⟩)

theorem State.streamDrop_keeps {q : List Instr} {j : TapSt} {b : TimeBase} {s : State} (index : Nat) (n : Nat) (hs : Keeps q j b s) :
    Keeps q j b (State.streamDrop s index n) := by
  unfold State.streamDrop
  repeat' first
    | intro _
    | with_reducible assumption
    | with_reducible apply State.set_keeps
    | with_reducible apply State.bumpBy_keeps
    | with_reducible rfl
    | dsimp only
    | (with_reducible refine keeps_mk ?_ ⟨rfl, rfl, rfl, rfl, rfl⟩ ⟨rfl, rfl⟩)

theorem State.append_keeps {q : List Instr} {j : TapSt} {b : TimeBase} {s : State} (index : Nat) (kind : Nat) (body : List Nat) (hs : Keeps q j b s) :
    Keeps q j b (State.append s index kind body) := by
  unfold State.append
  repeat' first
    | intro _
    | with_reducible assumption
    | with_reducible apply State.streamDrop_keeps
    | with_reducible apply State.setStream_keeps
    | with_reducible apply keeps_ite
    | with_reducible rfl
    | split
    | dsimp only
    | (with_reducible refine keeps_mk ?_ ⟨rfl, rfl, rfl, rfl, rfl⟩ ⟨rfl, rfl⟩)

theorem State.answer_keeps {q : List Instr} {j : TapSt} {b : TimeBase} {s : State} (status : Nat) (data : List Nat) (hs : Keeps q j b s) :
    Keeps q j b (State.answer s status data) := by
  unfold State.answer
  repeat' first
    | intro _
    | with_reducible assumption
    | with_reducible rfl
    | dsimp only
    | (with_reducible refine keeps_mk ?_ ⟨rfl, rfl, rfl, rfl, rfl⟩ ⟨rfl, rfl⟩)

theorem State.takeFree_keeps {q : List Instr} {j : TapSt} {b : TimeBase} {s : State}  (hs : Keeps q j b s) :
    Keeps q j b (State.takeFree s) := by
  unfold State.takeFree
  repeat' first
    | intro _
    | with_reducible assumption
    | with_reducible rfl
    | dsimp only
    | (with_reducible refine keeps_mk ?_ ⟨rfl, rfl, rfl, rfl, rfl⟩ ⟨rfl, rfl⟩)

theorem State.reach_keeps {q : List Instr} {j : TapSt} {b : TimeBase} {s : State} (at_ : Nat) (hs : Keeps q j b s) :
    Keeps q j b (State.reach s at_) := by
  unfold State.reach
  repeat' first
    | intro _
    | with_reducible assumption
    | with_reducible rfl
    | dsimp only
    | (with_reducible refine keeps_mk ?_ ⟨rfl, rfl, rfl, rfl, rfl⟩ ⟨rfl, rfl⟩)

theorem State.reachAon_keeps {q : List Instr} {j : TapSt} {b : TimeBase} {s : State} (n : Nat) (hs : Keeps q j b s) :
    Keeps q j b (State.reachAon s n) := by
  unfold State.reachAon
  repeat' first
    | intro _
    | with_reducible assumption
    | with_reducible rfl
    | dsimp only
    | (with_reducible refine keeps_mk ?_ ⟨rfl, rfl, rfl, rfl, rfl⟩ ⟨rfl, rfl⟩)

theorem State.put_keeps {q : List Instr} {j : TapSt} {b : TimeBase} {s : State} (k : Nat) (v : Nat) (hs : Keeps q j b s) :
    Keeps q j b (State.put s k v) := by
  unfold State.put
  repeat' first
    | intro _
    | with_reducible assumption
    | with_reducible apply State.set_keeps
    | with_reducible rfl
    | dsimp only
    | (with_reducible refine keeps_mk ?_ ⟨rfl, rfl, rfl, rfl, rfl⟩ ⟨rfl, rfl⟩)

/-! ### Time -/

theorem State.setTiming_keeps {q : List Instr} {j : TapSt} {b : TimeBase} {s : State} (v : Nat) (hs : Keeps q j b s) :
    Keeps q j b (State.setTiming s v) := by
  unfold State.setTiming
  repeat' first
    | intro _
    | with_reducible assumption
    | with_reducible apply State.set_keeps
    | with_reducible rfl
    | dsimp only
    | (with_reducible refine keeps_mk ?_ ⟨rfl, rfl, rfl, rfl, rfl⟩ ⟨rfl, rfl⟩)

theorem State.holdEntry_keeps {q : List Instr} {j : TapSt} {b : TimeBase} {s : State} (v : Nat) (hs : Keeps q j b s) :
    Keeps q j b (State.holdEntry s v) := by
  unfold State.holdEntry
  repeat' first
    | intro _
    | with_reducible assumption
    | with_reducible apply State.set_keeps
    | with_reducible apply State.setTiming_keeps
    | with_reducible apply State.setB_keeps
    | with_reducible apply keeps_ite
    | with_reducible rfl
    | (extract_lets +onlyGivenNames -underBinder x; first | (refine keeps_cut (q := q) (j := j) (b := b) (x := x) ?_ ?_ <;> first | (intro h0; generalize x = y at h0 ⊢; clear x) | intro h0 | subst x) | (have h0 := Nat.zero_le x; generalize x = y at h0 ⊢; clear h0 x) | subst x)
    | split
    | dsimp only
    | (with_reducible refine keeps_mk ?_ ⟨rfl, rfl, rfl, rfl, rfl⟩ ⟨rfl, rfl⟩)

theorem State.recoverEnd_keeps {q : List Instr} {j : TapSt} {b : TimeBase} {s : State}  (hs : Keeps q j b s) :
    Keeps q j b (State.recoverEnd s) := by
  unfold State.recoverEnd
  repeat' first
    | intro _
    | with_reducible assumption
    | with_reducible apply State.setB_keeps
    | with_reducible rfl
    | (extract_lets +onlyGivenNames -underBinder x; first | (refine keeps_cut (q := q) (j := j) (b := b) (x := x) ?_ ?_ <;> first | (intro h0; generalize x = y at h0 ⊢; clear x) | intro h0 | subst x) | (have h0 := Nat.zero_le x; generalize x = y at h0 ⊢; clear h0 x) | subst x)
    | dsimp only
    | (with_reducible refine keeps_mk ?_ ⟨rfl, rfl, rfl, rfl, rfl⟩ ⟨rfl, rfl⟩)

theorem State.toHoldover_keeps {q : List Instr} {j : TapSt} {b : TimeBase} {s : State}  (hs : Keeps q j b s) :
    Keeps q j b (State.toHoldover s) := by
  unfold State.toHoldover
  repeat' first
    | intro _
    | with_reducible assumption
    | with_reducible apply State.recoverEnd_keeps
    | with_reducible apply State.holdEntry_keeps
    | with_reducible apply keeps_ite
    | with_reducible rfl
    | split
    | dsimp only
    | (with_reducible refine keeps_mk ?_ ⟨rfl, rfl, rfl, rfl, rfl⟩ ⟨rfl, rfl⟩)

theorem State.sourceLost_keeps {q : List Instr} {j : TapSt} {b : TimeBase} {s : State}  (hs : Keeps q j b s) :
    Keeps q j b (State.sourceLost s) := by
  unfold State.sourceLost
  repeat' first
    | intro _
    | with_reducible assumption
    | with_reducible apply State.flag_keeps
    | with_reducible apply State.toHoldover_keeps
    | with_reducible apply keeps_ite
    | with_reducible rfl
    | (extract_lets +onlyGivenNames -underBinder x; first | (refine keeps_cut (q := q) (j := j) (b := b) (x := x) ?_ ?_ <;> first | (intro h0; generalize x = y at h0 ⊢; clear x) | intro h0 | subst x) | (have h0 := Nat.zero_le x; generalize x = y at h0 ⊢; clear h0 x) | subst x)
    | split
    | dsimp only
    | (with_reducible refine keeps_mk ?_ ⟨rfl, rfl, rfl, rfl, rfl⟩ ⟨rfl, rfl⟩)

theorem State.steer_keeps {q : List Instr} {j : TapSt} {b : TimeBase} {s : State} (x : Int) (dt : Nat) (hs : Keeps q j b s) :
    Keeps q j b (State.steer s x dt) := by
  unfold State.steer
  repeat' first
    | intro _
    | with_reducible assumption
    | with_reducible apply State.set_keeps
    | with_reducible apply State.setI_keeps
    | with_reducible apply keeps_ite
    | with_reducible rfl
    | (extract_lets +onlyGivenNames -underBinder x; first | (refine keeps_cut (q := q) (j := j) (b := b) (x := x) ?_ ?_ <;> first | (intro h0; generalize x = y at h0 ⊢; clear x) | intro h0 | subst x) | (have h0 := Nat.zero_le x; generalize x = y at h0 ⊢; clear h0 x) | subst x)
    | split
    | dsimp only
    | (with_reducible refine keeps_mk ?_ ⟨rfl, rfl, rfl, rfl, rfl⟩ ⟨rfl, rfl⟩)

theorem State.lockJudge_keeps {q : List Instr} {j : TapSt} {b : TimeBase} {s : State} (x : Int) (hs : Keeps q j b s) :
    Keeps q j b (State.lockJudge s x) := by
  unfold State.lockJudge
  repeat' first
    | intro _
    | with_reducible assumption
    | with_reducible apply State.setTiming_keeps
    | with_reducible apply State.setB_keeps
    | with_reducible apply keeps_ite
    | with_reducible rfl
    | (extract_lets +onlyGivenNames -underBinder x; first | (refine keeps_cut (q := q) (j := j) (b := b) (x := x) ?_ ?_ <;> first | (intro h0; generalize x = y at h0 ⊢; clear x) | intro h0 | subst x) | (have h0 := Nat.zero_le x; generalize x = y at h0 ⊢; clear h0 x) | subst x)
    | split
    | dsimp only
    | (with_reducible refine keeps_mk ?_ ⟨rfl, rfl, rfl, rfl, rfl⟩ ⟨rfl, rfl⟩)

theorem State.ergSplit_keeps {q : List Instr} {j : TapSt} {b : TimeBase} {s : State}  (hs : Keeps q j b s) :
    Keeps q j b (State.ergSplit s) := by
  unfold State.ergSplit
  repeat' first
    | intro _
    | with_reducible assumption
    | with_reducible rfl
    | dsimp only
    | (with_reducible refine keeps_mk ?_ ⟨rfl, rfl, rfl, rfl, rfl⟩ ⟨rfl, rfl⟩)

theorem State.jumpRefused_keeps {q : List Instr} {j : TapSt} {b : TimeBase} {s : State} (x : Int) (hs : Keeps q j b s) :
    Keeps q j b (State.jumpRefused s x) := by
  unfold State.jumpRefused
  repeat' first
    | intro _
    | with_reducible assumption
    | with_reducible apply State.flag_keeps
    | with_reducible apply State.log_keeps
    | with_reducible apply State.ergSplit_keeps
    | with_reducible apply State.holdEntry_keeps
    | with_reducible apply State.setI_keeps
    | with_reducible apply keeps_ite
    | with_reducible rfl
    | (extract_lets +onlyGivenNames -underBinder x; first | (refine keeps_cut (q := q) (j := j) (b := b) (x := x) ?_ ?_ <;> first | (intro h0; generalize x = y at h0 ⊢; clear x) | intro h0 | subst x) | (have h0 := Nat.zero_le x; generalize x = y at h0 ⊢; clear h0 x) | subst x)
    | split
    | dsimp only
    | (with_reducible refine keeps_mk ?_ ⟨rfl, rfl, rfl, rfl, rfl⟩ ⟨rfl, rfl⟩)

theorem State.sourceUpdate_keeps {q : List Instr} {j : TapSt} {b : TimeBase} {s : State} (lake : Bool) (x : Int) (hs : Keeps q j b s) :
    Keeps q j b (State.sourceUpdate s lake x) := by
  unfold State.sourceUpdate
  repeat' first
    | intro _
    | with_reducible assumption
    | with_reducible apply State.jumpRefused_keeps
    | with_reducible apply State.lockJudge_keeps
    | with_reducible apply State.steer_keeps
    | with_reducible apply State.setB_keeps
    | with_reducible apply keeps_ite
    | with_reducible rfl
    | (extract_lets +onlyGivenNames -underBinder x; first | (refine keeps_cut (q := q) (j := j) (b := b) (x := x) ?_ ?_ <;> first | (intro h0; generalize x = y at h0 ⊢; clear x) | intro h0 | subst x) | (have h0 := Nat.zero_le x; generalize x = y at h0 ⊢; clear h0 x) | subst x)
    | split
    | dsimp only
    | (with_reducible refine keeps_mk ?_ ⟨rfl, rfl, rfl, rfl, rfl⟩ ⟨rfl, rfl⟩)

theorem State.handOver_keeps {q : List Instr} {j : TapSt} {b : TimeBase} {s : State} (d : StepDue) (hs : Keeps q j b s) :
    Keeps q j b (State.handOver s d) := by
  unfold State.handOver
  repeat' first
    | intro _
    | with_reducible assumption
    | with_reducible apply State.set_keeps
    | with_reducible apply State.setTiming_keeps
    | with_reducible apply keeps_ite
    | with_reducible rfl
    | (extract_lets +onlyGivenNames -underBinder x; first | (refine keeps_cut (q := q) (j := j) (b := b) (x := x) ?_ ?_ <;> first | (intro h0; generalize x = y at h0 ⊢; clear x) | intro h0 | subst x) | (have h0 := Nat.zero_le x; generalize x = y at h0 ⊢; clear h0 x) | subst x)
    | split
    | dsimp only
    | (with_reducible refine keeps_mk ?_ ⟨rfl, rfl, rfl, rfl, rfl⟩ ⟨rfl, rfl⟩)

theorem State.firstEstimate_keeps {q : List Instr} {j : TapSt} {b : TimeBase} {s : State} (src : StepSource) (x : Int) (freq : Option Int) (error : Nat) (hs : Keeps q j b s) :
    Keeps q j b (State.firstEstimate s src x freq error) := by
  unfold State.firstEstimate
  repeat' first
    | intro _
    | with_reducible assumption
    | with_reducible apply State.handOver_keeps
    | with_reducible apply keeps_ite
    | with_reducible rfl
    | split
    | dsimp only
    | (with_reducible refine keeps_mk ?_ ⟨rfl, rfl, rfl, rfl, rfl⟩ ⟨rfl, rfl⟩)

/-- A step of Pond time changes the base of time, and nothing else of this (R21). -/
theorem State.stepPond_keeps {q : List Instr} {j : TapSt} {b : TimeBase} {s : State} (d : StepDue) (hs : Keeps q j b s) :
    ∃ b', Keeps q j b' (State.stepPond s d) := ⟨_, keeps_time hs _⟩

theorem State.stepReport_keeps {q : List Instr} {j : TapSt} {b : TimeBase} {s : State} (d : StepDue) (v : Nat) (hs : Keeps q j b s) :
    Keeps q j b (State.stepReport s d v) := by
  unfold State.stepReport
  repeat' first
    | intro _
    | with_reducible assumption
    | with_reducible apply State.set_keeps
    | with_reducible apply State.flag_keeps
    | with_reducible apply State.log_keeps
    | with_reducible apply keeps_ite
    | with_reducible rfl
    | (extract_lets +onlyGivenNames -underBinder x; first | (refine keeps_cut (q := q) (j := j) (b := b) (x := x) ?_ ?_ <;> first | (intro h0; generalize x = y at h0 ⊢; clear x) | intro h0 | subst x) | (have h0 := Nat.zero_le x; generalize x = y at h0 ⊢; clear h0 x) | subst x)
    | split
    | dsimp only
    | (with_reducible refine keeps_mk ?_ ⟨rfl, rfl, rfl, rfl, rfl⟩ ⟨rfl, rfl⟩)

theorem State.stepState_keeps {q : List Instr} {j : TapSt} {b : TimeBase} {s : State} (d : StepDue) (hs : Keeps q j b s) :
    Keeps q j b (State.stepState s d) := by
  unfold State.stepState
  repeat' first
    | intro _
    | with_reducible assumption
    | with_reducible apply State.set_keeps
    | with_reducible apply State.toHoldover_keeps
    | with_reducible apply State.setTiming_keeps
    | with_reducible apply State.setB_keeps
    | with_reducible apply keeps_ite
    | with_reducible rfl
    | (extract_lets +onlyGivenNames -underBinder x; first | (refine keeps_cut (q := q) (j := j) (b := b) (x := x) ?_ ?_ <;> first | (intro h0; generalize x = y at h0 ⊢; clear x) | intro h0 | subst x) | (have h0 := Nat.zero_le x; generalize x = y at h0 ⊢; clear h0 x) | subst x)
    | split
    | dsimp only
    | (with_reducible refine keeps_mk ?_ ⟨rfl, rfl, rfl, rfl, rfl⟩ ⟨rfl, rfl⟩)

theorem State.stepRate_keeps {q : List Instr} {j : TapSt} {b : TimeBase} {s : State} (d : StepDue) (hs : Keeps q j b s) :
    Keeps q j b (State.stepRate s d) := by
  unfold State.stepRate
  repeat' first
    | intro _
    | with_reducible assumption
    | with_reducible apply State.setI_keeps
    | with_reducible apply keeps_ite
    | with_reducible rfl
    | (extract_lets +onlyGivenNames -underBinder x; first | (refine keeps_cut (q := q) (j := j) (b := b) (x := x) ?_ ?_ <;> first | (intro h0; generalize x = y at h0 ⊢; clear x) | intro h0 | subst x) | (have h0 := Nat.zero_le x; generalize x = y at h0 ⊢; clear h0 x) | subst x)
    | split
    | dsimp only
    | (with_reducible refine keeps_mk ?_ ⟨rfl, rfl, rfl, rfl, rfl⟩ ⟨rfl, rfl⟩)

theorem State.tuneMove_keeps {q : List Instr} {j : TapSt} {b : TimeBase} {s : State} (target : Nat) (hs : Keeps q j b s) :
    Keeps q j b (State.tuneMove s target) := by
  unfold State.tuneMove
  repeat' first
    | intro _
    | with_reducible assumption
    | with_reducible apply State.set_keeps
    | with_reducible apply keeps_ite
    | with_reducible rfl
    | (extract_lets +onlyGivenNames -underBinder x; first | (refine keeps_cut (q := q) (j := j) (b := b) (x := x) ?_ ?_ <;> first | (intro h0; generalize x = y at h0 ⊢; clear x) | intro h0 | subst x) | (have h0 := Nat.zero_le x; generalize x = y at h0 ⊢; clear h0 x) | subst x)
    | split
    | dsimp only
    | (with_reducible refine keeps_mk ?_ ⟨rfl, rfl, rfl, rfl, rfl⟩ ⟨rfl, rfl⟩)

theorem State.rateSlew_keeps {q : List Instr} {j : TapSt} {b : TimeBase} {s : State}  (hs : Keeps q j b s) :
    Keeps q j b (State.rateSlew s) := by
  unfold State.rateSlew
  repeat' first
    | intro _
    | with_reducible assumption
    | with_reducible apply State.flag_keeps
    | with_reducible apply State.tuneMove_keeps
    | with_reducible apply State.setI_keeps
    | with_reducible apply keeps_ite
    | with_reducible rfl
    | (extract_lets +onlyGivenNames -underBinder x; first | (refine keeps_cut (q := q) (j := j) (b := b) (x := x) ?_ ?_ <;> first | (intro h0; generalize x = y at h0 ⊢; clear x) | intro h0 | subst x) | (have h0 := Nat.zero_le x; generalize x = y at h0 ⊢; clear h0 x) | subst x)
    | split
    | dsimp only
    | (with_reducible refine keeps_mk ?_ ⟨rfl, rfl, rfl, rfl, rfl⟩ ⟨rfl, rfl⟩)

theorem State.holdRate_keeps {q : List Instr} {j : TapSt} {b : TimeBase} {s : State}  (hs : Keeps q j b s) :
    Keeps q j b (State.holdRate s) := by
  unfold State.holdRate
  repeat' first
    | intro _
    | with_reducible assumption
    | with_reducible apply State.setI_keeps
    | with_reducible apply keeps_ite
    | with_reducible rfl
    | (extract_lets +onlyGivenNames -underBinder x; first | (refine keeps_cut (q := q) (j := j) (b := b) (x := x) ?_ ?_ <;> first | (intro h0; generalize x = y at h0 ⊢; clear x) | intro h0 | subst x) | (have h0 := Nat.zero_le x; generalize x = y at h0 ⊢; clear h0 x) | subst x)
    | split
    | dsimp only
    | (with_reducible refine keeps_mk ?_ ⟨rfl, rfl, rfl, rfl, rfl⟩ ⟨rfl, rfl⟩)

theorem State.holdTick_keeps {q : List Instr} {j : TapSt} {b : TimeBase} {s : State}  (hs : Keeps q j b s) :
    Keeps q j b (State.holdTick s) := by
  unfold State.holdTick
  repeat' first
    | intro _
    | with_reducible assumption
    | with_reducible apply State.set_keeps
    | with_reducible apply State.holdRate_keeps
    | with_reducible apply keeps_ite
    | with_reducible rfl
    | (extract_lets +onlyGivenNames -underBinder x; first | (refine keeps_cut (q := q) (j := j) (b := b) (x := x) ?_ ?_ <;> first | (intro h0; generalize x = y at h0 ⊢; clear x) | intro h0 | subst x) | (have h0 := Nat.zero_le x; generalize x = y at h0 ⊢; clear h0 x) | subst x)
    | split
    | dsimp only
    | (with_reducible refine keeps_mk ?_ ⟨rfl, rfl, rfl, rfl, rfl⟩ ⟨rfl, rfl⟩)

theorem State.steerSource_keeps {q : List Instr} {j : TapSt} {b : TimeBase} {s : State}  (hs : Keeps q j b s) :
    Keeps q j b (State.steerSource s) := by
  unfold State.steerSource
  repeat' first
    | intro _
    | with_reducible assumption
    | with_reducible rfl
    | dsimp only
    | (with_reducible refine keeps_mk ?_ ⟨rfl, rfl, rfl, rfl, rfl⟩ ⟨rfl, rfl⟩)

theorem State.referenceLost_keeps {q : List Instr} {j : TapSt} {b : TimeBase} {s : State}  (hs : Keeps q j b s) :
    Keeps q j b (State.referenceLost s) := by
  unfold State.referenceLost
  repeat' first
    | intro _
    | with_reducible assumption
    | with_reducible apply State.set_keeps
    | with_reducible apply State.bump_keeps
    | with_reducible apply State.log_keeps
    | with_reducible apply State.toHoldover_keeps
    | with_reducible apply State.setB_keeps
    | with_reducible apply keeps_ite
    | with_reducible rfl
    | (extract_lets +onlyGivenNames -underBinder x; first | (refine keeps_cut (q := q) (j := j) (b := b) (x := x) ?_ ?_ <;> first | (intro h0; generalize x = y at h0 ⊢; clear x) | intro h0 | subst x) | (have h0 := Nat.zero_le x; generalize x = y at h0 ⊢; clear h0 x) | subst x)
    | split
    | dsimp only
    | (with_reducible refine keeps_mk ?_ ⟨rfl, rfl, rfl, rfl, rfl⟩ ⟨rfl, rfl⟩)

theorem State.referenceReturning_keeps {q : List Instr} {j : TapSt} {b : TimeBase} {s : State}  (hs : Keeps q j b s) :
    Keeps q j b (State.referenceReturning s) := by
  unfold State.referenceReturning
  repeat' first
    | intro _
    | with_reducible assumption
    | with_reducible apply State.set_keeps
    | with_reducible apply keeps_ite
    | with_reducible rfl
    | (extract_lets +onlyGivenNames -underBinder x; first | (refine keeps_cut (q := q) (j := j) (b := b) (x := x) ?_ ?_ <;> first | (intro h0; generalize x = y at h0 ⊢; clear x) | intro h0 | subst x) | (have h0 := Nat.zero_le x; generalize x = y at h0 ⊢; clear h0 x) | subst x)
    | split
    | dsimp only
    | (with_reducible refine keeps_mk ?_ ⟨rfl, rfl, rfl, rfl, rfl⟩ ⟨rfl, rfl⟩)

theorem State.referenceValid_keeps {q : List Instr} {j : TapSt} {b : TimeBase} {s : State}  (hs : Keeps q j b s) :
    Keeps q j b (State.referenceValid s) := by
  unfold State.referenceValid
  repeat' first
    | intro _
    | with_reducible assumption
    | with_reducible apply State.set_keeps
    | with_reducible apply keeps_ite
    | with_reducible rfl
    | split
    | dsimp only
    | (with_reducible refine keeps_mk ?_ ⟨rfl, rfl, rfl, rfl, rfl⟩ ⟨rfl, rfl⟩)

/-! ### Timers -/

theorem State.raiseInt_keeps {q : List Instr} {j : TapSt} {b : TimeBase} {s : State} (c : Nat) (v : Nat) (hs : Keeps q j b s) :
    Keeps q j b (State.raiseInt s c v) := by
  unfold State.raiseInt
  repeat' first
    | intro _
    | with_reducible assumption
    | with_reducible apply State.modCore_keeps
    | with_reducible rfl
    | dsimp only
    | (with_reducible refine keeps_mk ?_ ⟨rfl, rfl, rfl, rfl, rfl⟩ ⟨rfl, rfl⟩)

theorem State.modTimer_keeps {q : List Instr} {j : TapSt} {b : TimeBase} {s : State} (n : Nat) (f : TmrSt → TmrSt) (hs : Keeps q j b s) :
    Keeps q j b (State.modTimer s n f) := by
  unfold State.modTimer
  repeat' first
    | intro _
    | with_reducible assumption
    | with_reducible rfl
    | dsimp only
    | (with_reducible refine keeps_mk ?_ ⟨rfl, rfl, rfl, rfl, rfl⟩ ⟨rfl, rfl⟩)

theorem State.setTimerState_keeps {q : List Instr} {j : TapSt} {b : TimeBase} {s : State} (n : Nat) (v : Nat) (hs : Keeps q j b s) :
    Keeps q j b (State.setTimerState s n v) := by
  unfold State.setTimerState
  repeat' first
    | intro _
    | with_reducible assumption
    | with_reducible apply State.set_keeps
    | with_reducible rfl
    | dsimp only
    | (with_reducible refine keeps_mk ?_ ⟨rfl, rfl, rfl, rfl, rfl⟩ ⟨rfl, rfl⟩)

theorem State.timerEvent_keeps {q : List Instr} {j : TapSt} {b0 : TimeBase} {s : State} (n : Nat) (b : Nat) (counter : Nat) (hs : Keeps q j b0 s) :
    Keeps q j b0 (State.timerEvent s n b counter) := by
  unfold State.timerEvent
  repeat' first
    | intro _
    | with_reducible assumption
    | with_reducible apply State.flag_keeps
    | with_reducible apply State.raiseInt_keeps
    | with_reducible apply keeps_ite
    | with_reducible rfl
    | (extract_lets +onlyGivenNames -underBinder x; first | (refine keeps_cut (q := q) (j := j) (b := b0) (x := x) ?_ ?_ <;> first | (intro h0; generalize x = y at h0 ⊢; clear x) | intro h0 | subst x) | (have h0 := Nat.zero_le x; generalize x = y at h0 ⊢; clear h0 x) | subst x)
    | split
    | dsimp only
    | (with_reducible refine keeps_mk ?_ ⟨rfl, rfl, rfl, rfl, rfl⟩ ⟨rfl, rfl⟩)

theorem State.outFollow_keeps {q : List Instr} {j : TapSt} {b : TimeBase} {s : State} (n : Nat) (at_ : Nat) (under : Bool) (m0 : Bool) (m1 : Bool) (begins : Bool) (o : Nat) (hs : Keeps q j b s) :
    Keeps q j b (State.outFollow s n at_ under m0 m1 begins o) := by
  unfold State.outFollow
  repeat' first
    | intro _
    | with_reducible assumption
    | with_reducible apply State.setB_keeps
    | with_reducible apply keeps_ite
    | with_reducible rfl
    | (extract_lets +onlyGivenNames -underBinder x; first | (refine keeps_cut (q := q) (j := j) (b := b) (x := x) ?_ ?_ <;> first | (intro h0; generalize x = y at h0 ⊢; clear x) | intro h0 | subst x) | (have h0 := Nat.zero_le x; generalize x = y at h0 ⊢; clear h0 x) | subst x)
    | split
    | dsimp only
    | (with_reducible refine keeps_mk ?_ ⟨rfl, rfl, rfl, rfl, rfl⟩ ⟨rfl, rfl⟩)

theorem State.outsFollow_keeps {q : List Instr} {j : TapSt} {b : TimeBase} {s : State} (n : Nat) (at_ : Nat) (under : Bool) (m0 : Bool) (m1 : Bool) (begins : Bool) (hs : Keeps q j b s) :
    Keeps q j b (State.outsFollow s n at_ under m0 m1 begins) := by
  unfold State.outsFollow
  repeat' first
    | intro _
    | with_reducible assumption
    | with_reducible apply State.outFollow_keeps
    | with_reducible apply keeps_foldl
    | with_reducible apply keeps_foldl_fst
    | with_reducible rfl
    | dsimp only
    | (with_reducible refine keeps_mk ?_ ⟨rfl, rfl, rfl, rfl, rfl⟩ ⟨rfl, rfl⟩)

theorem State.outChanged_keeps {q : List Instr} {j : TapSt} {b : TimeBase} {s : State} (o : Nat) (hs : Keeps q j b s) :
    Keeps q j b (State.outChanged s o) := by
  unfold State.outChanged
  repeat' first
    | intro _
    | with_reducible assumption
    | with_reducible apply State.setB_keeps
    | with_reducible apply keeps_ite
    | with_reducible rfl
    | (extract_lets +onlyGivenNames -underBinder x; first | (refine keeps_cut (q := q) (j := j) (b := b) (x := x) ?_ ?_ <;> first | (intro h0; generalize x = y at h0 ⊢; clear x) | intro h0 | subst x) | (have h0 := Nat.zero_le x; generalize x = y at h0 ⊢; clear h0 x) | subst x)
    | split
    | dsimp only
    | (with_reducible refine keeps_mk ?_ ⟨rfl, rfl, rfl, rfl, rfl⟩ ⟨rfl, rfl⟩)

theorem State.pulseEnd_keeps {q : List Instr} {j : TapSt} {b : TimeBase} {s : State} (o : Nat) (at_ : Nat) (hs : Keeps q j b s) :
    Keeps q j b (State.pulseEnd s o at_) := by
  unfold State.pulseEnd
  repeat' first
    | intro _
    | with_reducible assumption
    | with_reducible apply State.setB_keeps
    | with_reducible apply keeps_ite
    | with_reducible rfl
    | (extract_lets +onlyGivenNames -underBinder x; first | (refine keeps_cut (q := q) (j := j) (b := b) (x := x) ?_ ?_ <;> first | (intro h0; generalize x = y at h0 ⊢; clear x) | intro h0 | subst x) | (have h0 := Nat.zero_le x; generalize x = y at h0 ⊢; clear h0 x) | subst x)
    | split
    | dsimp only
    | (with_reducible refine keeps_mk ?_ ⟨rfl, rfl, rfl, rfl, rfl⟩ ⟨rfl, rfl⟩)

theorem State.timerMoved_keeps {q : List Instr} {j : TapSt} {b : TimeBase} {s : State} (n : Nat) (at_ : Nat) (under : Bool) (begins : Bool) (hs : Keeps q j b s) :
    Keeps q j b (State.timerMoved s n at_ under begins) := by
  unfold State.timerMoved
  repeat' first
    | intro _
    | with_reducible assumption
    | with_reducible apply State.outsFollow_keeps
    | with_reducible apply State.timerEvent_keeps
    | with_reducible apply keeps_ite
    | with_reducible rfl
    | (extract_lets +onlyGivenNames -underBinder x; first | (refine keeps_cut (q := q) (j := j) (b := b) (x := x) ?_ ?_ <;> first | (intro h0; generalize x = y at h0 ⊢; clear x) | intro h0 | subst x) | (have h0 := Nat.zero_le x; generalize x = y at h0 ⊢; clear h0 x) | subst x)
    | split
    | dsimp only
    | (with_reducible refine keeps_mk ?_ ⟨rfl, rfl, rfl, rfl, rfl⟩ ⟨rfl, rfl⟩)

theorem State.timerBegin_keeps {q : List Instr} {j : TapSt} {b : TimeBase} {s : State} (fuel at_ n : Nat) (hs : Keeps q j b s) :
    Keeps q j b (State.timerBegin fuel at_ n s) := by
  induction fuel generalizing n s with
  | zero => exact hs
  | succ k ih =>
    unfold State.timerBegin
    repeat' first
    | with_reducible assumption
    | with_reducible apply ih
    | with_reducible apply State.set_keeps
    | with_reducible apply State.timerMoved_keeps
    | with_reducible apply State.modTimer_keeps
    | with_reducible apply State.setTimerState_keeps
    | with_reducible apply keeps_foldl
    | (extract_lets +onlyGivenNames -underBinder x; first | (refine keeps_cut (q := q) (j := j) (b := b) (x := x) ?_ ?_ <;> first | (intro h0; generalize x = y at h0 ⊢; clear x) | intro h0 | subst x) | (have h0 := Nat.zero_le x; generalize x = y at h0 ⊢; clear h0 x) | subst x)
    | intro _
    | with_reducible apply keeps_ite
    | split

theorem State.timerStep_keeps {q : List Instr} {j : TapSt} {b : TimeBase} {s : State} (fuel at_ n : Nat) (hs : Keeps q j b s) :
    Keeps q j b (State.timerStep fuel at_ n s) := by
  induction fuel generalizing n s with
  | zero => exact hs
  | succ k ih =>
    unfold State.timerStep
    repeat' first
    | with_reducible assumption
    | with_reducible apply ih
    | with_reducible apply State.timerBegin_keeps
    | with_reducible apply State.count_keeps
    | with_reducible apply State.set_keeps
    | with_reducible apply State.timerMoved_keeps
    | with_reducible apply State.modTimer_keeps
    | with_reducible apply State.setTimerState_keeps
    | with_reducible apply keeps_foldl
    | (extract_lets +onlyGivenNames -underBinder x; first | (refine keeps_cut (q := q) (j := j) (b := b) (x := x) ?_ ?_ <;> first | (intro h0; generalize x = y at h0 ⊢; clear x) | intro h0 | subst x) | (have h0 := Nat.zero_le x; generalize x = y at h0 ⊢; clear h0 x) | subst x)
    | intro _
    | with_reducible apply keeps_ite
    | split

theorem State.timerTo_keeps {q : List Instr} {j : TapSt} {b : TimeBase} {s : State} (n : Nat) (at_ : Nat) (hs : Keeps q j b s) :
    Keeps q j b (State.timerTo s n at_) := by
  unfold State.timerTo
  repeat' first
    | intro _
    | with_reducible assumption
    | with_reducible apply State.set_keeps
    | with_reducible apply State.timerStep_keeps
    | with_reducible apply keeps_ite
    | with_reducible rfl
    | (extract_lets +onlyGivenNames -underBinder x; first | (refine keeps_cut (q := q) (j := j) (b := b) (x := x) ?_ ?_ <;> first | (intro h0; generalize x = y at h0 ⊢; clear x) | intro h0 | subst x) | (have h0 := Nat.zero_le x; generalize x = y at h0 ⊢; clear h0 x) | subst x)
    | split
    | dsimp only
    | (with_reducible refine keeps_mk ?_ ⟨rfl, rfl, rfl, rfl, rfl⟩ ⟨rfl, rfl⟩)

theorem State.stopStep_keeps {q : List Instr} {j : TapSt} {b : TimeBase} {s : State} (t : Nat) (n : Nat) (hs : Keeps q j b s) :
    Keeps q j b (State.stopStep s t n) := by
  unfold State.stopStep
  repeat' first
    | intro _
    | with_reducible assumption
    | with_reducible apply State.timerTo_keeps
    | with_reducible apply State.timerBegin_keeps
    | with_reducible apply keeps_ite
    | with_reducible rfl
    | split
    | dsimp only
    | (with_reducible refine keeps_mk ?_ ⟨rfl, rfl, rfl, rfl, rfl⟩ ⟨rfl, rfl⟩)

theorem State.timerHalt_keeps {q : List Instr} {j : TapSt} {b : TimeBase} {s : State} (n : Nat) (hs : Keeps q j b s) :
    Keeps q j b (State.timerHalt s n) := by
  unfold State.timerHalt
  repeat' first
    | intro _
    | with_reducible assumption
    | with_reducible apply State.setTimerState_keeps
    | with_reducible apply State.modTimer_keeps
    | with_reducible apply keeps_ite
    | with_reducible rfl
    | (extract_lets +onlyGivenNames -underBinder x; first | (refine keeps_cut (q := q) (j := j) (b := b) (x := x) ?_ ?_ <;> first | (intro h0; generalize x = y at h0 ⊢; clear x) | intro h0 | subst x) | (have h0 := Nat.zero_le x; generalize x = y at h0 ⊢; clear h0 x) | subst x)
    | split
    | dsimp only
    | (with_reducible refine keeps_mk ?_ ⟨rfl, rfl, rfl, rfl, rfl⟩ ⟨rfl, rfl⟩)

theorem State.timersStop_keeps {q : List Instr} {j : TapSt} {b : TimeBase} {s : State} (before : Nat) (hs : Keeps q j b s) :
    Keeps q j b (State.timersStop s before) := by
  unfold State.timersStop
  repeat' first
    | intro _
    | with_reducible assumption
    | with_reducible apply State.timerHalt_keeps
    | with_reducible apply State.stopStep_keeps
    | with_reducible apply keeps_foldl
    | with_reducible apply keeps_foldl_fst
    | with_reducible rfl
    | (extract_lets +onlyGivenNames -underBinder x; first | (refine keeps_cut (q := q) (j := j) (b := b) (x := x) ?_ ?_ <;> first | (intro h0; generalize x = y at h0 ⊢; clear x) | intro h0 | subst x) | (have h0 := Nat.zero_le x; generalize x = y at h0 ⊢; clear h0 x) | subst x)
    | split
    | dsimp only
    | (with_reducible refine keeps_mk ?_ ⟨rfl, rfl, rfl, rfl, rfl⟩ ⟨rfl, rfl⟩)

theorem State.timersSettle_keeps {q : List Instr} {j : TapSt} {b : TimeBase} {s : State}  (hs : Keeps q j b s) :
    Keeps q j b (State.timersSettle s) := by
  unfold State.timersSettle
  repeat' first
    | intro _
    | with_reducible assumption
    | with_reducible apply State.timersStop_keeps
    | with_reducible rfl
    | dsimp only
    | (with_reducible refine keeps_mk ?_ ⟨rfl, rfl, rfl, rfl, rfl⟩ ⟨rfl, rfl⟩)

theorem State.timersTick_keeps {q : List Instr} {j : TapSt} {b : TimeBase} {s : State}  (hs : Keeps q j b s) :
    Keeps q j b (State.timersTick s) := by
  unfold State.timersTick
  repeat' first
    | intro _
    | with_reducible assumption
    | with_reducible apply State.timersSettle_keeps
    | with_reducible apply State.timersStop_keeps
    | with_reducible apply State.timerStep_keeps
    | with_reducible apply keeps_foldl
    | with_reducible apply keeps_foldl_fst
    | with_reducible rfl
    | (extract_lets +onlyGivenNames -underBinder x; first | (refine keeps_cut (q := q) (j := j) (b := b) (x := x) ?_ ?_ <;> first | (intro h0; generalize x = y at h0 ⊢; clear x) | intro h0 | subst x) | (have h0 := Nat.zero_le x; generalize x = y at h0 ⊢; clear h0 x) | subst x)
    | dsimp only
    | (with_reducible refine keeps_mk ?_ ⟨rfl, rfl, rfl, rfl, rfl⟩ ⟨rfl, rfl⟩)

theorem State.timerStart_keeps {q : List Instr} {j : TapSt} {b : TimeBase} {s : State} (n : Nat) (at_ : Nat) (hs : Keeps q j b s) :
    Keeps q j b (State.timerStart s n at_) := by
  unfold State.timerStart
  repeat' first
    | intro _
    | with_reducible assumption
    | with_reducible apply State.tick_keeps
    | with_reducible apply State.timerBegin_keeps
    | with_reducible apply State.reach_keeps
    | with_reducible apply keeps_ite
    | with_reducible rfl
    | (extract_lets +onlyGivenNames -underBinder x; first | (refine keeps_cut (q := q) (j := j) (b := b) (x := x) ?_ ?_ <;> first | (intro h0; generalize x = y at h0 ⊢; clear x) | intro h0 | subst x) | (have h0 := Nat.zero_le x; generalize x = y at h0 ⊢; clear h0 x) | subst x)
    | split
    | dsimp only
    | (with_reducible refine keeps_mk ?_ ⟨rfl, rfl, rfl, rfl, rfl⟩ ⟨rfl, rfl⟩)

theorem State.timersPin_keeps {q : List Instr} {j : TapSt} {b : TimeBase} {s : State} (i : Nat) (rising : Bool) (at_ : Nat) (hs : Keeps q j b s) :
    Keeps q j b (State.timersPin s i rising at_) := by
  unfold State.timersPin
  repeat' first
    | intro _
    | with_reducible assumption
    | with_reducible apply State.timerStep_keeps
    | with_reducible apply keeps_foldl
    | with_reducible apply keeps_foldl_fst
    | with_reducible rfl
    | (extract_lets +onlyGivenNames -underBinder x; first | (refine keeps_cut (q := q) (j := j) (b := b) (x := x) ?_ ?_ <;> first | (intro h0; generalize x = y at h0 ⊢; clear x) | intro h0 | subst x) | (have h0 := Nat.zero_le x; generalize x = y at h0 ⊢; clear h0 x) | subst x)
    | dsimp only
    | (with_reducible refine keeps_mk ?_ ⟨rfl, rfl, rfl, rfl, rfl⟩ ⟨rfl, rfl⟩)

theorem State.timerArm_keeps {q : List Instr} {j : TapSt} {b : TimeBase} {s : State} (n : Nat) (a : Arm) (hs : Keeps q j b s) :
    Keeps q j b (State.timerArm s n a) := by
  unfold State.timerArm
  repeat' first
    | intro _
    | with_reducible assumption
    | with_reducible apply State.set_keeps
    | with_reducible apply State.setTimerState_keeps
    | with_reducible apply State.modTimer_keeps
    | with_reducible rfl
    | (extract_lets +onlyGivenNames -underBinder x; first | (refine keeps_cut (q := q) (j := j) (b := b) (x := x) ?_ ?_ <;> first | (intro h0; generalize x = y at h0 ⊢; clear x) | intro h0 | subst x) | (have h0 := Nat.zero_le x; generalize x = y at h0 ⊢; clear h0 x) | subst x)
    | dsimp only
    | (with_reducible refine keeps_mk ?_ ⟨rfl, rfl, rfl, rfl, rfl⟩ ⟨rfl, rfl⟩)

theorem State.timerCommand_keeps {q : List Instr} {j : TapSt} {b : TimeBase} {s : State} (n : Nat) (cmd : Nat) (hs : Keeps q j b s) :
    Keeps q j b (State.timerCommand s n cmd) := by
  unfold State.timerCommand
  repeat' first
    | intro _
    | with_reducible assumption
    | with_reducible apply State.tick_keeps
    | with_reducible apply State.timerArm_keeps
    | with_reducible apply State.timerEvent_keeps
    | with_reducible apply State.modTimer_keeps
    | with_reducible apply keeps_ite
    | with_reducible rfl
    | (extract_lets +onlyGivenNames -underBinder x; first | (refine keeps_cut (q := q) (j := j) (b := b) (x := x) ?_ ?_ <;> first | (intro h0; generalize x = y at h0 ⊢; clear x) | intro h0 | subst x) | (have h0 := Nat.zero_le x; generalize x = y at h0 ⊢; clear h0 x) | subst x)
    | split
    | dsimp only
    | (with_reducible refine keeps_mk ?_ ⟨rfl, rfl, rfl, rfl, rfl⟩ ⟨rfl, rfl⟩)

theorem State.groupStart_keeps {q : List Instr} {j : TapSt} {b : TimeBase} {s : State} (mask : Nat) (hs : Keeps q j b s) :
    Keeps q j b (State.groupStart s mask) := by
  unfold State.groupStart
  repeat' first
    | intro _
    | with_reducible assumption
    | with_reducible apply State.timerArm_keeps
    | with_reducible apply State.timerEvent_keeps
    | with_reducible apply keeps_foldl
    | with_reducible apply keeps_foldl_fst
    | with_reducible apply keeps_ite
    | with_reducible rfl
    | (extract_lets +onlyGivenNames -underBinder x; first | (refine keeps_cut (q := q) (j := j) (b := b) (x := x) ?_ ?_ <;> first | (intro h0; generalize x = y at h0 ⊢; clear x) | intro h0 | subst x) | (have h0 := Nat.zero_le x; generalize x = y at h0 ⊢; clear h0 x) | subst x)
    | split
    | dsimp only
    | (with_reducible refine keeps_mk ?_ ⟨rfl, rfl, rfl, rfl, rfl⟩ ⟨rfl, rfl⟩)

theorem State.capture_keeps {q : List Instr} {j : TapSt} {b : TimeBase} {s : State} (i : Nat) (rising : Bool) (hs : Keeps q j b s) :
    Keeps q j b (State.capture s i rising) := by
  unfold State.capture
  repeat' first
    | intro _
    | with_reducible assumption
    | with_reducible apply State.flag_keeps
    | with_reducible apply State.raiseInt_keeps
    | with_reducible apply keeps_ite
    | with_reducible rfl
    | (extract_lets +onlyGivenNames -underBinder x; first | (refine keeps_cut (q := q) (j := j) (b := b) (x := x) ?_ ?_ <;> first | (intro h0; generalize x = y at h0 ⊢; clear x) | intro h0 | subst x) | (have h0 := Nat.zero_le x; generalize x = y at h0 ⊢; clear h0 x) | subst x)
    | split
    | dsimp only
    | (with_reducible refine keeps_mk ?_ ⟨rfl, rfl, rfl, rfl, rfl⟩ ⟨rfl, rfl⟩)

theorem State.captureTake_keeps {q : List Instr} {j : TapSt} {b : TimeBase} {s : State} (i : Nat) (hs : Keeps q j b s) :
    Keeps q j b (State.captureTake s i) := by
  unfold State.captureTake
  repeat' first
    | intro _
    | with_reducible assumption
    | with_reducible rfl
    | dsimp only
    | (with_reducible refine keeps_mk ?_ ⟨rfl, rfl, rfl, rfl, rfl⟩ ⟨rfl, rfl⟩)

theorem State.timerRead_keeps {q : List Instr} {j : TapSt} {b : TimeBase} {s : State} (a : Nat) (hs : Keeps q j b s) :
    Keeps q j b (State.timerRead s a).2 := by
  unfold State.timerRead
  repeat' first
    | intro _
    | with_reducible assumption
    | with_reducible apply State.captureTake_keeps
    | with_reducible apply State.timersSettle_keeps
    | with_reducible apply keeps_ite
    | with_reducible apply keeps_ite_snd
    | with_reducible rfl
    | (extract_lets +onlyGivenNames -underBinder x; first | (refine keeps_cut (q := q) (j := j) (b := b) (x := x) ?_ ?_ <;> first | (intro h0; generalize x = y at h0 ⊢; clear x) | intro h0 | subst x) | (have h0 := Nat.zero_le x; generalize x = y at h0 ⊢; clear h0 x) | subst x)
    | split
    | dsimp only
    | (with_reducible refine keeps_mk ?_ ⟨rfl, rfl, rfl, rfl, rfl⟩ ⟨rfl, rfl⟩)

theorem State.timerWrite_keeps {q : List Instr} {j : TapSt} {b : TimeBase} {s : State} (a : Nat) (w : Word) (hs : Keeps q j b s) :
    Keeps q j b (State.timerWrite s a w) := by
  unfold State.timerWrite
  repeat' first
    | intro _
    | with_reducible assumption
    | with_reducible apply State.set_keeps
    | with_reducible apply State.timerCommand_keeps
    | with_reducible apply State.timersSettle_keeps
    | with_reducible apply State.modTimer_keeps
    | with_reducible apply keeps_ite
    | with_reducible rfl
    | (extract_lets +onlyGivenNames -underBinder x; first | (refine keeps_cut (q := q) (j := j) (b := b) (x := x) ?_ ?_ <;> first | (intro h0; generalize x = y at h0 ⊢; clear x) | intro h0 | subst x) | (have h0 := Nat.zero_le x; generalize x = y at h0 ⊢; clear h0 x) | subst x)
    | split
    | dsimp only
    | (with_reducible refine keeps_mk ?_ ⟨rfl, rfl, rfl, rfl, rfl⟩ ⟨rfl, rfl⟩)

theorem State.timerPondStep_keeps {q : List Instr} {j : TapSt} {b : TimeBase} {s : State} (old : Nat) (new : Nat) (n : Nat) (hs : Keeps q j b s) :
    Keeps q j b (State.timerPondStep s old new n) := by
  unfold State.timerPondStep
  repeat' first
    | intro _
    | with_reducible assumption
    | with_reducible apply State.timerTo_keeps
    | with_reducible apply State.timerStep_keeps
    | with_reducible apply State.timerBegin_keeps
    | with_reducible apply State.timerEvent_keeps
    | with_reducible apply State.modTimer_keeps
    | with_reducible apply keeps_ite
    | with_reducible rfl
    | (extract_lets +onlyGivenNames -underBinder x; first | (refine keeps_cut (q := q) (j := j) (b := b) (x := x) ?_ ?_ <;> first | (intro h0; generalize x = y at h0 ⊢; clear x) | intro h0 | subst x) | (have h0 := Nat.zero_le x; generalize x = y at h0 ⊢; clear h0 x) | subst x)
    | split
    | dsimp only
    | (with_reducible refine keeps_mk ?_ ⟨rfl, rfl, rfl, rfl, rfl⟩ ⟨rfl, rfl⟩)

theorem State.timersPondStep_keeps {q : List Instr} {j : TapSt} {b : TimeBase} {s : State} (old : Nat) (new : Nat) (hs : Keeps q j b s) :
    Keeps q j b (State.timersPondStep s old new) := by
  unfold State.timersPondStep
  repeat' first
    | intro _
    | with_reducible assumption
    | with_reducible apply State.flag_keeps
    | with_reducible apply State.timerPondStep_keeps
    | with_reducible apply keeps_foldl
    | with_reducible apply keeps_foldl_fst
    | with_reducible apply keeps_ite
    | with_reducible rfl
    | (extract_lets +onlyGivenNames -underBinder x; first | (refine keeps_cut (q := q) (j := j) (b := b) (x := x) ?_ ?_ <;> first | (intro h0; generalize x = y at h0 ⊢; clear x) | intro h0 | subst x) | (have h0 := Nat.zero_le x; generalize x = y at h0 ⊢; clear h0 x) | subst x)
    | split
    | dsimp only
    | (with_reducible refine keeps_mk ?_ ⟨rfl, rfl, rfl, rfl, rfl⟩ ⟨rfl, rfl⟩)

theorem State.timersSleep_keeps {q : List Instr} {j : TapSt} {b : TimeBase} {s : State}  (hs : Keeps q j b s) :
    Keeps q j b (State.timersSleep s) := by
  unfold State.timersSleep
  repeat' first
    | intro _
    | with_reducible assumption
    | with_reducible apply State.setTimerState_keeps
    | with_reducible apply State.modTimer_keeps
    | with_reducible apply keeps_foldl
    | with_reducible apply keeps_foldl_fst
    | with_reducible rfl
    | (extract_lets +onlyGivenNames -underBinder x; first | (refine keeps_cut (q := q) (j := j) (b := b) (x := x) ?_ ?_ <;> first | (intro h0; generalize x = y at h0 ⊢; clear x) | intro h0 | subst x) | (have h0 := Nat.zero_le x; generalize x = y at h0 ⊢; clear h0 x) | subst x)
    | dsimp only
    | (with_reducible refine keeps_mk ?_ ⟨rfl, rfl, rfl, rfl, rfl⟩ ⟨rfl, rfl⟩)

theorem State.timersWake_keeps {q : List Instr} {j : TapSt} {b : TimeBase} {s : State}  (hs : Keeps q j b s) :
    Keeps q j b (State.timersWake s) := by
  unfold State.timersWake
  repeat' first
    | intro _
    | with_reducible assumption
    | with_reducible rfl
    | dsimp only
    | (with_reducible refine keeps_mk ?_ ⟨rfl, rfl, rfl, rfl, rfl⟩ ⟨rfl, rfl⟩)

theorem State.timerEventAt_keeps {q : List Instr} {j : TapSt} {b : TimeBase} {s : State} (n : Nat) (at_ : Nat) (due : State → Bool) (hs : Keeps q j b s) :
    Keeps q j b (State.timerEventAt s n at_ due) := by
  unfold State.timerEventAt
  repeat' first
    | intro _
    | with_reducible assumption
    | with_reducible apply State.timersSettle_keeps
    | with_reducible apply State.timersStop_keeps
    | with_reducible apply State.timerTo_keeps
    | with_reducible apply State.reach_keeps
    | with_reducible apply keeps_ite
    | with_reducible rfl
    | (extract_lets +onlyGivenNames -underBinder x; first | (refine keeps_cut (q := q) (j := j) (b := b) (x := x) ?_ ?_ <;> first | (intro h0; generalize x = y at h0 ⊢; clear x) | intro h0 | subst x) | (have h0 := Nat.zero_le x; generalize x = y at h0 ⊢; clear h0 x) | subst x)
    | split
    | dsimp only
    | (with_reducible refine keeps_mk ?_ ⟨rfl, rfl, rfl, rfl, rfl⟩ ⟨rfl, rfl⟩)

/-! ### Chains -/

theorem State.modAnt_keeps {q : List Instr} {j : TapSt} {b : TimeBase} {s : State} (a : Nat) (f : AntSt → AntSt) (hs : Keeps q j b s) :
    Keeps q j b (State.modAnt s a f) := by
  unfold State.modAnt
  repeat' first
    | intro _
    | with_reducible assumption
    | with_reducible rfl
    | dsimp only
    | (with_reducible refine keeps_mk ?_ ⟨rfl, rfl, rfl, rfl, rfl⟩ ⟨rfl, rfl⟩)

theorem State.modChain_keeps {q : List Instr} {j : TapSt} {b : TimeBase} {s : State} (c : Nat) (f : ChainSt → ChainSt) (hs : Keeps q j b s) :
    Keeps q j b (State.modChain s c f) := by
  unfold State.modChain
  repeat' first
    | intro _
    | with_reducible assumption
    | with_reducible rfl
    | dsimp only
    | (with_reducible refine keeps_mk ?_ ⟨rfl, rfl, rfl, rfl, rfl⟩ ⟨rfl, rfl⟩)

theorem State.modNotch_keeps {q : List Instr} {j : TapSt} {b : TimeBase} {s : State} (n : Nat) (f : NotchSt → NotchSt) (hs : Keeps q j b s) :
    Keeps q j b (State.modNotch s n f) := by
  unfold State.modNotch
  repeat' first
    | intro _
    | with_reducible assumption
    | with_reducible apply State.modChain_keeps
    | with_reducible rfl
    | dsimp only
    | (with_reducible refine keeps_mk ?_ ⟨rfl, rfl, rfl, rfl, rfl⟩ ⟨rfl, rfl⟩)

theorem State.buses_keeps {q : List Instr} {j : TapSt} {b : TimeBase} {s : State} (c : Nat) (hs : Keeps q j b s) :
    Keeps q j b (State.buses s c) := by
  unfold State.buses
  repeat' first
    | intro _
    | with_reducible assumption
    | with_reducible apply State.modChain_keeps
    | with_reducible apply keeps_ite
    | with_reducible rfl
    | (extract_lets +onlyGivenNames -underBinder x; first | (refine keeps_cut (q := q) (j := j) (b := b) (x := x) ?_ ?_ <;> first | (intro h0; generalize x = y at h0 ⊢; clear x) | intro h0 | subst x) | (have h0 := Nat.zero_le x; generalize x = y at h0 ⊢; clear h0 x) | subst x)
    | split
    | dsimp only
    | (with_reducible refine keeps_mk ?_ ⟨rfl, rfl, rfl, rfl, rfl⟩ ⟨rfl, rfl⟩)

theorem State.antUpdate_keeps {q : List Instr} {j : TapSt} {b : TimeBase} {s : State} (a : Nat) (hs : Keeps q j b s) :
    Keeps q j b (State.antUpdate s a) := by
  unfold State.antUpdate
  repeat' first
    | intro _
    | with_reducible assumption
    | with_reducible apply State.set_keeps
    | with_reducible apply State.flag_keeps
    | with_reducible apply keeps_ite
    | with_reducible rfl
    | (extract_lets +onlyGivenNames -underBinder x; first | (refine keeps_cut (q := q) (j := j) (b := b) (x := x) ?_ ?_ <;> first | (intro h0; generalize x = y at h0 ⊢; clear x) | intro h0 | subst x) | (have h0 := Nat.zero_le x; generalize x = y at h0 ⊢; clear h0 x) | subst x)
    | split
    | dsimp only
    | (with_reducible refine keeps_mk ?_ ⟨rfl, rfl, rfl, rfl, rfl⟩ ⟨rfl, rfl⟩)

theorem State.antShort_keeps {q : List Instr} {j : TapSt} {b : TimeBase} {s : State} (a : Nat) (hs : Keeps q j b s) :
    Keeps q j b (State.antShort s a) := by
  unfold State.antShort
  repeat' first
    | intro _
    | with_reducible assumption
    | with_reducible apply State.antUpdate_keeps
    | with_reducible apply State.modAnt_keeps
    | with_reducible apply keeps_ite
    | with_reducible rfl
    | (extract_lets +onlyGivenNames -underBinder x; first | (refine keeps_cut (q := q) (j := j) (b := b) (x := x) ?_ ?_ <;> first | (intro h0; generalize x = y at h0 ⊢; clear x) | intro h0 | subst x) | (have h0 := Nat.zero_le x; generalize x = y at h0 ⊢; clear h0 x) | subst x)
    | split
    | dsimp only
    | (with_reducible refine keeps_mk ?_ ⟨rfl, rfl, rfl, rfl, rfl⟩ ⟨rfl, rfl⟩)

theorem State.antTrial_keeps {q : List Instr} {j : TapSt} {b : TimeBase} {s : State} (a : Nat) (current : Nat) (hs : Keeps q j b s) :
    Keeps q j b (State.antTrial s a current) := by
  unfold State.antTrial
  repeat' first
    | intro _
    | with_reducible assumption
    | with_reducible apply State.set_keeps
    | with_reducible apply State.antUpdate_keeps
    | with_reducible apply State.modAnt_keeps
    | with_reducible apply keeps_ite
    | with_reducible rfl
    | (extract_lets +onlyGivenNames -underBinder x; first | (refine keeps_cut (q := q) (j := j) (b := b) (x := x) ?_ ?_ <;> first | (intro h0; generalize x = y at h0 ⊢; clear x) | intro h0 | subst x) | (have h0 := Nat.zero_le x; generalize x = y at h0 ⊢; clear h0 x) | subst x)
    | split
    | dsimp only
    | (with_reducible refine keeps_mk ?_ ⟨rfl, rfl, rfl, rfl, rfl⟩ ⟨rfl, rfl⟩)

theorem State.antLow_keeps {q : List Instr} {j : TapSt} {b : TimeBase} {s : State} (a : Nat) (mv : Nat) (hs : Keeps q j b s) :
    Keeps q j b (State.antLow s a mv) := by
  unfold State.antLow
  repeat' first
    | intro _
    | with_reducible assumption
    | with_reducible apply State.set_keeps
    | with_reducible apply State.antUpdate_keeps
    | with_reducible apply State.modAnt_keeps
    | with_reducible apply keeps_ite
    | with_reducible rfl
    | split
    | dsimp only
    | (with_reducible refine keeps_mk ?_ ⟨rfl, rfl, rfl, rfl, rfl⟩ ⟨rfl, rfl⟩)

theorem State.antLowEnd_keeps {q : List Instr} {j : TapSt} {b : TimeBase} {s : State} (a : Nat) (mv : Nat) (hs : Keeps q j b s) :
    Keeps q j b (State.antLowEnd s a mv) := by
  unfold State.antLowEnd
  repeat' first
    | intro _
    | with_reducible assumption
    | with_reducible apply State.set_keeps
    | with_reducible apply State.antUpdate_keeps
    | with_reducible apply State.modAnt_keeps
    | with_reducible apply keeps_ite
    | with_reducible rfl
    | split
    | dsimp only
    | (with_reducible refine keeps_mk ?_ ⟨rfl, rfl, rfl, rfl, rfl⟩ ⟨rfl, rfl⟩)

theorem State.antOpen_keeps {q : List Instr} {j : TapSt} {b : TimeBase} {s : State} (a : Nat) (current : Nat) (hs : Keeps q j b s) :
    Keeps q j b (State.antOpen s a current) := by
  unfold State.antOpen
  repeat' first
    | intro _
    | with_reducible assumption
    | with_reducible apply State.set_keeps
    | with_reducible apply State.antUpdate_keeps
    | with_reducible apply State.modAnt_keeps
    | with_reducible apply keeps_ite
    | with_reducible rfl
    | split
    | dsimp only
    | (with_reducible refine keeps_mk ?_ ⟨rfl, rfl, rfl, rfl, rfl⟩ ⟨rfl, rfl⟩)

theorem State.antOpenEnd_keeps {q : List Instr} {j : TapSt} {b : TimeBase} {s : State} (a : Nat) (current : Nat) (hs : Keeps q j b s) :
    Keeps q j b (State.antOpenEnd s a current) := by
  unfold State.antOpenEnd
  repeat' first
    | intro _
    | with_reducible assumption
    | with_reducible apply State.set_keeps
    | with_reducible apply State.antUpdate_keeps
    | with_reducible apply State.modAnt_keeps
    | with_reducible apply keeps_ite
    | with_reducible rfl
    | split
    | dsimp only
    | (with_reducible refine keeps_mk ?_ ⟨rfl, rfl, rfl, rfl, rfl⟩ ⟨rfl, rfl⟩)

theorem State.antTick_keeps {q : List Instr} {j : TapSt} {b : TimeBase} {s : State} (a : Nat) (hs : Keeps q j b s) :
    Keeps q j b (State.antTick s a) := by
  unfold State.antTick
  repeat' first
    | intro _
    | with_reducible assumption
    | with_reducible apply State.antUpdate_keeps
    | with_reducible apply State.modAnt_keeps
    | with_reducible apply keeps_ite
    | with_reducible rfl
    | (extract_lets +onlyGivenNames -underBinder x; first | (refine keeps_cut (q := q) (j := j) (b := b) (x := x) ?_ ?_ <;> first | (intro h0; generalize x = y at h0 ⊢; clear x) | intro h0 | subst x) | (have h0 := Nat.zero_le x; generalize x = y at h0 ⊢; clear h0 x) | subst x)
    | split
    | dsimp only
    | (with_reducible refine keeps_mk ?_ ⟨rfl, rfl, rfl, rfl, rfl⟩ ⟨rfl, rfl⟩)

theorem State.calQueue_keeps {q : List Instr} {j : TapSt} {b : TimeBase} {s : State} (c : Nat) (steps : Nat) (head : Bool) (hs : Keeps q j b s) :
    Keeps q j b (State.calQueue s c steps head) := by
  unfold State.calQueue
  repeat' first
    | intro _
    | with_reducible assumption
    | with_reducible apply State.modChain_keeps
    | with_reducible apply keeps_ite
    | with_reducible rfl
    | (extract_lets +onlyGivenNames -underBinder x; first | (refine keeps_cut (q := q) (j := j) (b := b) (x := x) ?_ ?_ <;> first | (intro h0; generalize x = y at h0 ⊢; clear x) | intro h0 | subst x) | (have h0 := Nat.zero_le x; generalize x = y at h0 ⊢; clear h0 x) | subst x)
    | split
    | dsimp only
    | (with_reducible refine keeps_mk ?_ ⟨rfl, rfl, rfl, rfl, rfl⟩ ⟨rfl, rfl⟩)

theorem State.calUnqueue_keeps {q : List Instr} {j : TapSt} {b : TimeBase} {s : State} (c : Nat) (hs : Keeps q j b s) :
    Keeps q j b (State.calUnqueue s c) := by
  unfold State.calUnqueue
  repeat' first
    | intro _
    | with_reducible assumption
    | with_reducible apply State.modChain_keeps
    | with_reducible rfl
    | dsimp only
    | (with_reducible refine keeps_mk ?_ ⟨rfl, rfl, rfl, rfl, rfl⟩ ⟨rfl, rfl⟩)

theorem State.calAnswered_keeps {q : List Instr} {j : TapSt} {b : TimeBase} {s : State} (c : Nat) (failed : Bool) (hs : Keeps q j b s) :
    Keeps q j b (State.calAnswered s c failed) := by
  unfold State.calAnswered
  repeat' first
    | intro _
    | with_reducible assumption
    | with_reducible apply State.set_keeps
    | with_reducible apply keeps_ite
    | with_reducible rfl
    | (extract_lets +onlyGivenNames -underBinder x; first | (refine keeps_cut (q := q) (j := j) (b := b) (x := x) ?_ ?_ <;> first | (intro h0; generalize x = y at h0 ⊢; clear x) | intro h0 | subst x) | (have h0 := Nat.zero_le x; generalize x = y at h0 ⊢; clear h0 x) | subst x)
    | split
    | dsimp only
    | (with_reducible refine keeps_mk ?_ ⟨rfl, rfl, rfl, rfl, rfl⟩ ⟨rfl, rfl⟩)

theorem State.notchFreeze_keeps {q : List Instr} {j : TapSt} {b : TimeBase} {s : State} (c : Nat) (hs : Keeps q j b s) :
    Keeps q j b (State.notchFreeze s c) := by
  unfold State.notchFreeze
  repeat' first
    | intro _
    | with_reducible assumption
    | with_reducible apply State.set_keeps
    | with_reducible apply State.modNotch_keeps
    | with_reducible apply keeps_foldl
    | with_reducible apply keeps_foldl_fst
    | with_reducible apply keeps_ite
    | with_reducible rfl
    | (extract_lets +onlyGivenNames -underBinder x; first | (refine keeps_cut (q := q) (j := j) (b := b) (x := x) ?_ ?_ <;> first | (intro h0; generalize x = y at h0 ⊢; clear x) | intro h0 | subst x) | (have h0 := Nat.zero_le x; generalize x = y at h0 ⊢; clear h0 x) | subst x)
    | split
    | dsimp only
    | (with_reducible refine keeps_mk ?_ ⟨rfl, rfl, rfl, rfl, rfl⟩ ⟨rfl, rfl⟩)

theorem State.notchMoved_keeps {q : List Instr} {j : TapSt} {b : TimeBase} {s : State} (n : Nat) (f : Int) (hs : Keeps q j b s) :
    Keeps q j b (State.notchMoved s n f) := by
  unfold State.notchMoved
  repeat' first
    | intro _
    | with_reducible assumption
    | with_reducible apply State.modChain_keeps
    | with_reducible apply keeps_ite
    | with_reducible rfl
    | split
    | dsimp only
    | (with_reducible refine keeps_mk ?_ ⟨rfl, rfl, rfl, rfl, rfl⟩ ⟨rfl, rfl⟩)

theorem State.notchEngage_keeps {q : List Instr} {j : TapSt} {b : TimeBase} {s : State} (n : Nat) (f : Int) (bin : Option Nat) (hs : Keeps q j b s) :
    Keeps q j b (State.notchEngage s n f bin) := by
  unfold State.notchEngage
  repeat' first
    | intro _
    | with_reducible assumption
    | with_reducible apply State.set_keeps
    | with_reducible apply State.bump_keeps
    | with_reducible apply State.notchMoved_keeps
    | with_reducible apply State.modNotch_keeps
    | with_reducible apply State.setI_keeps
    | with_reducible rfl
    | (extract_lets +onlyGivenNames -underBinder x; first | (refine keeps_cut (q := q) (j := j) (b := b) (x := x) ?_ ?_ <;> first | (intro h0; generalize x = y at h0 ⊢; clear x) | intro h0 | subst x) | (have h0 := Nat.zero_le x; generalize x = y at h0 ⊢; clear h0 x) | subst x)
    | dsimp only
    | (with_reducible refine keeps_mk ?_ ⟨rfl, rfl, rfl, rfl, rfl⟩ ⟨rfl, rfl⟩)

theorem State.notchRelease_keeps {q : List Instr} {j : TapSt} {b : TimeBase} {s : State} (n : Nat) (toward : Nat) (hs : Keeps q j b s) :
    Keeps q j b (State.notchRelease s n toward) := by
  unfold State.notchRelease
  repeat' first
    | intro _
    | with_reducible assumption
    | with_reducible apply State.set_keeps
    | with_reducible apply State.notchMoved_keeps
    | with_reducible apply State.modNotch_keeps
    | with_reducible apply State.reset_keeps
    | with_reducible apply keeps_ite
    | with_reducible rfl
    | (extract_lets +onlyGivenNames -underBinder x; first | (refine keeps_cut (q := q) (j := j) (b := b) (x := x) ?_ ?_ <;> first | (intro h0; generalize x = y at h0 ⊢; clear x) | intro h0 | subst x) | (have h0 := Nat.zero_le x; generalize x = y at h0 ⊢; clear h0 x) | subst x)
    | split
    | dsimp only
    | (with_reducible refine keeps_mk ?_ ⟨rfl, rfl, rfl, rfl, rfl⟩ ⟨rfl, rfl⟩)

theorem State.notchApply_keeps {q : List Instr} {j : TapSt} {b : TimeBase} {s : State} (n : Nat) (hs : Keeps q j b s) :
    Keeps q j b (State.notchApply s n) := by
  unfold State.notchApply
  repeat' first
    | intro _
    | with_reducible assumption
    | with_reducible apply State.set_keeps
    | with_reducible apply State.notchRelease_keeps
    | with_reducible apply State.notchEngage_keeps
    | with_reducible apply State.notchMoved_keeps
    | with_reducible apply State.setI_keeps
    | with_reducible apply keeps_ite
    | with_reducible rfl
    | (extract_lets +onlyGivenNames -underBinder x; first | (refine keeps_cut (q := q) (j := j) (b := b) (x := x) ?_ ?_ <;> first | (intro h0; generalize x = y at h0 ⊢; clear x) | intro h0 | subst x) | (have h0 := Nat.zero_le x; generalize x = y at h0 ⊢; clear h0 x) | subst x)
    | split
    | dsimp only
    | (with_reducible refine keeps_mk ?_ ⟨rfl, rfl, rfl, rfl, rfl⟩ ⟨rfl, rfl⟩)

theorem State.notchThaw_keeps {q : List Instr} {j : TapSt} {b : TimeBase} {s : State} (c : Nat) (hs : Keeps q j b s) :
    Keeps q j b (State.notchThaw s c) := by
  unfold State.notchThaw
  repeat' first
    | intro _
    | with_reducible assumption
    | with_reducible apply State.set_keeps
    | with_reducible apply State.notchApply_keeps
    | with_reducible apply State.modNotch_keeps
    | with_reducible apply keeps_foldl
    | with_reducible apply keeps_foldl_fst
    | with_reducible apply keeps_ite
    | with_reducible rfl
    | (extract_lets +onlyGivenNames -underBinder x; first | (refine keeps_cut (q := q) (j := j) (b := b) (x := x) ?_ ?_ <;> first | (intro h0; generalize x = y at h0 ⊢; clear x) | intro h0 | subst x) | (have h0 := Nat.zero_le x; generalize x = y at h0 ⊢; clear h0 x) | subst x)
    | split
    | dsimp only
    | (with_reducible refine keeps_mk ?_ ⟨rfl, rfl, rfl, rfl, rfl⟩ ⟨rfl, rfl⟩)

theorem State.specDiscard_keeps {q : List Instr} {j : TapSt} {b : TimeBase} {s : State} (c : Nat) (hs : Keeps q j b s) :
    Keeps q j b (State.specDiscard s c) := by
  unfold State.specDiscard
  repeat' first
    | intro _
    | with_reducible assumption
    | with_reducible apply State.bump_keeps
    | with_reducible apply keeps_ite
    | with_reducible rfl
    | split
    | dsimp only
    | (with_reducible refine keeps_mk ?_ ⟨rfl, rfl, rfl, rfl, rfl⟩ ⟨rfl, rfl⟩)

theorem State.calStart_keeps {q : List Instr} {j : TapSt} {b : TimeBase} {s : State}  (hs : Keeps q j b s) :
    Keeps q j b (State.calStart s) := by
  unfold State.calStart
  repeat' first
    | intro _
    | with_reducible assumption
    | with_reducible apply State.set_keeps
    | with_reducible apply State.specDiscard_keeps
    | with_reducible apply State.notchFreeze_keeps
    | with_reducible apply State.buses_keeps
    | with_reducible apply State.modChain_keeps
    | with_reducible apply keeps_ite
    | with_reducible rfl
    | (extract_lets +onlyGivenNames -underBinder x; first | (refine keeps_cut (q := q) (j := j) (b := b) (x := x) ?_ ?_ <;> first | (intro h0; generalize x = y at h0 ⊢; clear x) | intro h0 | subst x) | (have h0 := Nat.zero_le x; generalize x = y at h0 ⊢; clear h0 x) | subst x)
    | split
    | dsimp only
    | (with_reducible refine keeps_mk ?_ ⟨rfl, rfl, rfl, rfl, rfl⟩ ⟨rfl, rfl⟩)

theorem State.calOver_keeps {q : List Instr} {j : TapSt} {b : TimeBase} {s : State} (c : Nat) (hs : Keeps q j b s) :
    Keeps q j b (State.calOver s c) := by
  unfold State.calOver
  repeat' first
    | intro _
    | with_reducible assumption
    | with_reducible apply State.modChain_keeps
    | with_reducible apply keeps_ite
    | with_reducible rfl
    | (extract_lets +onlyGivenNames -underBinder x; first | (refine keeps_cut (q := q) (j := j) (b := b) (x := x) ?_ ?_ <;> first | (intro h0; generalize x = y at h0 ⊢; clear x) | intro h0 | subst x) | (have h0 := Nat.zero_le x; generalize x = y at h0 ⊢; clear h0 x) | subst x)
    | split
    | dsimp only
    | (with_reducible refine keeps_mk ?_ ⟨rfl, rfl, rfl, rfl, rfl⟩ ⟨rfl, rfl⟩)

theorem State.calFail_keeps {q : List Instr} {j : TapSt} {b : TimeBase} {s : State} (r : CalRun) (step : Nat) (hs : Keeps q j b s) :
    Keeps q j b (State.calFail s r step) := by
  unfold State.calFail
  repeat' first
    | intro _
    | with_reducible assumption
    | with_reducible apply State.set_keeps
    | with_reducible apply State.flag_keeps
    | with_reducible apply State.log_keeps
    | with_reducible apply State.calOver_keeps
    | with_reducible apply State.calAnswered_keeps
    | with_reducible apply State.calUnqueue_keeps
    | with_reducible apply State.buses_keeps
    | with_reducible apply State.modChain_keeps
    | with_reducible apply keeps_ite
    | with_reducible rfl
    | (extract_lets +onlyGivenNames -underBinder x; first | (refine keeps_cut (q := q) (j := j) (b := b) (x := x) ?_ ?_ <;> first | (intro h0; generalize x = y at h0 ⊢; clear x) | intro h0 | subst x) | (have h0 := Nat.zero_le x; generalize x = y at h0 ⊢; clear h0 x) | subst x)
    | split
    | dsimp only
    | (with_reducible refine keeps_mk ?_ ⟨rfl, rfl, rfl, rfl, rfl⟩ ⟨rfl, rfl⟩)

theorem State.chainDown_keeps {q : List Instr} {j : TapSt} {b : TimeBase} {s : State} (c : Nat) (hs : Keeps q j b s) :
    Keeps q j b (State.chainDown s c) := by
  unfold State.chainDown
  repeat' first
    | intro _
    | with_reducible assumption
    | with_reducible apply State.set_keeps
    | with_reducible apply State.calAnswered_keeps
    | with_reducible apply State.calUnqueue_keeps
    | with_reducible apply State.buses_keeps
    | with_reducible apply State.modChain_keeps
    | with_reducible apply keeps_ite
    | with_reducible rfl
    | (extract_lets +onlyGivenNames -underBinder x; first | (refine keeps_cut (q := q) (j := j) (b := b) (x := x) ?_ ?_ <;> first | (intro h0; generalize x = y at h0 ⊢; clear x) | intro h0 | subst x) | (have h0 := Nat.zero_le x; generalize x = y at h0 ⊢; clear h0 x) | subst x)
    | split
    | dsimp only
    | (with_reducible refine keeps_mk ?_ ⟨rfl, rfl, rfl, rfl, rfl⟩ ⟨rfl, rfl⟩)

theorem State.calStepEnd_keeps {q : List Instr} {j : TapSt} {b : TimeBase} {s : State} (pass : Bool) (image : Nat) (hs : Keeps q j b s) :
    Keeps q j b (State.calStepEnd s pass image) := by
  unfold State.calStepEnd
  repeat' first
    | intro _
    | with_reducible assumption
    | with_reducible apply State.set_keeps
    | with_reducible apply State.chainDown_keeps
    | with_reducible apply State.calFail_keeps
    | with_reducible apply State.calOver_keeps
    | with_reducible apply State.buses_keeps
    | with_reducible apply State.modChain_keeps
    | with_reducible apply keeps_ite
    | with_reducible rfl
    | (extract_lets +onlyGivenNames -underBinder x; first | (refine keeps_cut (q := q) (j := j) (b := b) (x := x) ?_ ?_ <;> first | (intro h0; generalize x = y at h0 ⊢; clear x) | intro h0 | subst x) | (have h0 := Nat.zero_le x; generalize x = y at h0 ⊢; clear h0 x) | subst x)
    | split
    | dsimp only
    | (with_reducible refine keeps_mk ?_ ⟨rfl, rfl, rfl, rfl, rfl⟩ ⟨rfl, rfl⟩)

theorem State.calEnd_keeps {q : List Instr} {j : TapSt} {b : TimeBase} {s : State}  (hs : Keeps q j b s) :
    Keeps q j b (State.calEnd s) := by
  unfold State.calEnd
  repeat' first
    | intro _
    | with_reducible assumption
    | with_reducible apply State.set_keeps
    | with_reducible apply State.chainDown_keeps
    | with_reducible apply State.calOver_keeps
    | with_reducible apply State.calStart_keeps
    | with_reducible apply State.calAnswered_keeps
    | with_reducible apply State.buses_keeps
    | with_reducible apply State.modChain_keeps
    | with_reducible apply keeps_ite
    | with_reducible rfl
    | (extract_lets +onlyGivenNames -underBinder x; first | (refine keeps_cut (q := q) (j := j) (b := b) (x := x) ?_ ?_ <;> first | (intro h0; generalize x = y at h0 ⊢; clear x) | intro h0 | subst x) | (have h0 := Nat.zero_le x; generalize x = y at h0 ⊢; clear h0 x) | subst x)
    | split
    | dsimp only
    | (with_reducible refine keeps_mk ?_ ⟨rfl, rfl, rfl, rfl, rfl⟩ ⟨rfl, rfl⟩)

theorem State.loUnlock_keeps {q : List Instr} {j : TapSt} {b : TimeBase} {s : State} (c : Nat) (hs : Keeps q j b s) :
    Keeps q j b (State.loUnlock s c) := by
  unfold State.loUnlock
  repeat' first
    | intro _
    | with_reducible assumption
    | with_reducible apply State.flag_keeps
    | with_reducible apply State.calQueue_keeps
    | with_reducible apply State.buses_keeps
    | with_reducible apply State.modChain_keeps
    | with_reducible apply keeps_ite
    | with_reducible rfl
    | (extract_lets +onlyGivenNames -underBinder x; first | (refine keeps_cut (q := q) (j := j) (b := b) (x := x) ?_ ?_ <;> first | (intro h0; generalize x = y at h0 ⊢; clear x) | intro h0 | subst x) | (have h0 := Nat.zero_le x; generalize x = y at h0 ⊢; clear h0 x) | subst x)
    | split
    | dsimp only
    | (with_reducible refine keeps_mk ?_ ⟨rfl, rfl, rfl, rfl, rfl⟩ ⟨rfl, rfl⟩)

theorem State.faultRetry_keeps {q : List Instr} {j : TapSt} {b : TimeBase} {s : State} (c : Nat) (hs : Keeps q j b s) :
    Keeps q j b (State.faultRetry s c) := by
  unfold State.faultRetry
  repeat' first
    | intro _
    | with_reducible assumption
    | with_reducible apply State.calQueue_keeps
    | with_reducible apply keeps_ite
    | with_reducible rfl
    | split
    | dsimp only
    | (with_reducible refine keeps_mk ?_ ⟨rfl, rfl, rfl, rfl, rfl⟩ ⟨rfl, rfl⟩)

theorem State.calRequest_keeps {q : List Instr} {j : TapSt} {b : TimeBase} {s : State} (v : Nat) (hs : Keeps q j b s) :
    Keeps q j b (State.calRequest s v) := by
  unfold State.calRequest
  repeat' first
    | intro _
    | with_reducible assumption
    | with_reducible apply State.set_keeps
    | with_reducible apply State.calQueue_keeps
    | with_reducible apply keeps_foldl
    | with_reducible apply keeps_foldl_fst
    | with_reducible apply keeps_ite
    | with_reducible rfl
    | (extract_lets +onlyGivenNames -underBinder x; first | (refine keeps_cut (q := q) (j := j) (b := b) (x := x) ?_ ?_ <;> first | (intro h0; generalize x = y at h0 ⊢; clear x) | intro h0 | subst x) | (have h0 := Nat.zero_le x; generalize x = y at h0 ⊢; clear h0 x) | subst x)
    | split
    | dsimp only
    | (with_reducible refine keeps_mk ?_ ⟨rfl, rfl, rfl, rfl, rfl⟩ ⟨rfl, rfl⟩)

theorem State.calTemp_keeps {q : List Instr} {j : TapSt} {b : TimeBase} {s : State} (c : Nat) (hs : Keeps q j b s) :
    Keeps q j b (State.calTemp s c) := by
  unfold State.calTemp
  repeat' first
    | intro _
    | with_reducible assumption
    | with_reducible apply State.flag_keeps
    | with_reducible apply State.calQueue_keeps
    | with_reducible apply State.modChain_keeps
    | with_reducible apply keeps_ite
    | with_reducible rfl
    | (extract_lets +onlyGivenNames -underBinder x; first | (refine keeps_cut (q := q) (j := j) (b := b) (x := x) ?_ ?_ <;> first | (intro h0; generalize x = y at h0 ⊢; clear x) | intro h0 | subst x) | (have h0 := Nat.zero_le x; generalize x = y at h0 ⊢; clear h0 x) | subst x)
    | split
    | dsimp only
    | (with_reducible refine keeps_mk ?_ ⟨rfl, rfl, rfl, rfl, rfl⟩ ⟨rfl, rfl⟩)

theorem State.chainSense_keeps {q : List Instr} {j : TapSt} {b : TimeBase} {s : State} (c : Nat) (r : ChainReading) (hs : Keeps q j b s) :
    Keeps q j b (State.chainSense s c r) := by
  unfold State.chainSense
  repeat' first
    | intro _
    | with_reducible assumption
    | with_reducible apply State.set_keeps
    | with_reducible apply State.modChain_keeps
    | with_reducible apply keeps_ite
    | with_reducible rfl
    | (extract_lets +onlyGivenNames -underBinder x; first | (refine keeps_cut (q := q) (j := j) (b := b) (x := x) ?_ ?_ <;> first | (intro h0; generalize x = y at h0 ⊢; clear x) | intro h0 | subst x) | (have h0 := Nat.zero_le x; generalize x = y at h0 ⊢; clear h0 x) | subst x)
    | split
    | dsimp only
    | (with_reducible refine keeps_mk ?_ ⟨rfl, rfl, rfl, rfl, rfl⟩ ⟨rfl, rfl⟩)

theorem State.baseline_keeps {q : List Instr} {j : TapSt} {b : TimeBase} {s : State} (c : Nat) (hs : Keeps q j b s) :
    Keeps q j b (State.baseline s c) := by
  unfold State.baseline
  repeat' first
    | intro _
    | with_reducible assumption
    | with_reducible apply State.set_keeps
    | with_reducible apply State.modChain_keeps
    | with_reducible apply keeps_ite
    | with_reducible rfl
    | (extract_lets +onlyGivenNames -underBinder x; first | (refine keeps_cut (q := q) (j := j) (b := b) (x := x) ?_ ?_ <;> first | (intro h0; generalize x = y at h0 ⊢; clear x) | intro h0 | subst x) | (have h0 := Nat.zero_le x; generalize x = y at h0 ⊢; clear h0 x) | subst x)
    | split
    | dsimp only
    | (with_reducible refine keeps_mk ?_ ⟨rfl, rfl, rfl, rfl, rfl⟩ ⟨rfl, rfl⟩)

theorem State.baselineLearn_keeps {q : List Instr} {j : TapSt} {b : TimeBase} {s : State} (c : Nat) (hs : Keeps q j b s) :
    Keeps q j b (State.baselineLearn s c) := by
  unfold State.baselineLearn
  repeat' first
    | intro _
    | with_reducible assumption
    | with_reducible apply State.set_keeps
    | with_reducible apply State.modChain_keeps
    | with_reducible apply keeps_ite
    | with_reducible rfl
    | split
    | dsimp only
    | (with_reducible refine keeps_mk ?_ ⟨rfl, rfl, rfl, rfl, rfl⟩ ⟨rfl, rfl⟩)

theorem State.chainTick_keeps {q : List Instr} {j : TapSt} {b : TimeBase} {s : State} (c : Nat) (r : ChainReading) (hs : Keeps q j b s) :
    Keeps q j b (State.chainTick s c r) := by
  unfold State.chainTick
  repeat' first
    | intro _
    | with_reducible assumption
    | with_reducible apply State.set_keeps
    | with_reducible apply State.flag_keeps
    | with_reducible apply State.baseline_keeps
    | with_reducible apply State.chainSense_keeps
    | with_reducible apply State.calTemp_keeps
    | with_reducible apply State.notchThaw_keeps
    | with_reducible apply State.modChain_keeps
    | with_reducible apply keeps_ite
    | with_reducible rfl
    | (extract_lets +onlyGivenNames -underBinder x; first | (refine keeps_cut (q := q) (j := j) (b := b) (x := x) ?_ ?_ <;> first | (intro h0; generalize x = y at h0 ⊢; clear x) | intro h0 | subst x) | (have h0 := Nat.zero_le x; generalize x = y at h0 ⊢; clear h0 x) | subst x)
    | split
    | dsimp only
    | (with_reducible refine keeps_mk ?_ ⟨rfl, rfl, rfl, rfl, rfl⟩ ⟨rfl, rfl⟩)

theorem State.chainPower_keeps {q : List Instr} {j : TapSt} {b : TimeBase} {s : State} (c : Nat) (hs : Keeps q j b s) :
    Keeps q j b (State.chainPower s c) := by
  unfold State.chainPower
  repeat' first
    | intro _
    | with_reducible assumption
    | with_reducible apply State.set_keeps
    | with_reducible apply State.chainDown_keeps
    | with_reducible apply State.calUnqueue_keeps
    | with_reducible apply State.calQueue_keeps
    | with_reducible apply State.buses_keeps
    | with_reducible apply State.modChain_keeps
    | with_reducible apply keeps_ite
    | with_reducible rfl
    | (extract_lets +onlyGivenNames -underBinder x; first | (refine keeps_cut (q := q) (j := j) (b := b) (x := x) ?_ ?_ <;> first | (intro h0; generalize x = y at h0 ⊢; clear x) | intro h0 | subst x) | (have h0 := Nat.zero_le x; generalize x = y at h0 ⊢; clear h0 x) | subst x)
    | split
    | dsimp only
    | (with_reducible refine keeps_mk ?_ ⟨rfl, rfl, rfl, rfl, rfl⟩ ⟨rfl, rfl⟩)

theorem State.notchSee_keeps {q : List Instr} {j : TapSt} {b : TimeBase} {s : State} (lines : List NotchLine) (n : Nat) (hs : Keeps q j b s) :
    Keeps q j b (State.notchSee s lines n) := by
  unfold State.notchSee
  repeat' first
    | intro _
    | with_reducible assumption
    | with_reducible apply State.set_keeps
    | with_reducible apply State.notchRelease_keeps
    | with_reducible apply State.notchEngage_keeps
    | with_reducible apply State.modNotch_keeps
    | with_reducible apply State.setI_keeps
    | with_reducible apply keeps_foldl
    | with_reducible apply keeps_foldl_fst
    | with_reducible apply keeps_ite
    | with_reducible rfl
    | (extract_lets +onlyGivenNames -underBinder x; first | (refine keeps_cut (q := q) (j := j) (b := b) (x := x) ?_ ?_ <;> first | (intro h0; generalize x = y at h0 ⊢; clear x) | intro h0 | subst x) | (have h0 := Nat.zero_le x; generalize x = y at h0 ⊢; clear h0 x) | subst x)
    | split
    | dsimp only
    | (with_reducible refine keeps_mk ?_ ⟨rfl, rfl, rfl, rfl, rfl⟩ ⟨rfl, rfl⟩)

theorem State.notchSpectrum_keeps {q : List Instr} {j : TapSt} {b : TimeBase} {s : State} (c : Nat) (lines : List NotchLine) (hs : Keeps q j b s) :
    Keeps q j b (State.notchSpectrum s c lines) := by
  unfold State.notchSpectrum
  repeat' first
    | intro _
    | with_reducible assumption
    | with_reducible apply State.notchSee_keeps
    | with_reducible apply State.modChain_keeps
    | with_reducible apply keeps_foldl
    | with_reducible apply keeps_foldl_fst
    | with_reducible apply keeps_ite
    | with_reducible rfl
    | (extract_lets +onlyGivenNames -underBinder x; first | (refine keeps_cut (q := q) (j := j) (b := b) (x := x) ?_ ?_ <;> first | (intro h0; generalize x = y at h0 ⊢; clear x) | intro h0 | subst x) | (have h0 := Nat.zero_le x; generalize x = y at h0 ⊢; clear h0 x) | subst x)
    | split
    | dsimp only
    | (with_reducible refine keeps_mk ?_ ⟨rfl, rfl, rfl, rfl, rfl⟩ ⟨rfl, rfl⟩)

theorem State.specStart_keeps {q : List Instr} {j : TapSt} {b : TimeBase} {s : State}  (hs : Keeps q j b s) :
    Keeps q j b (State.specStart s) := by
  unfold State.specStart
  repeat' first
    | intro _
    | with_reducible assumption
    | with_reducible apply keeps_ite
    | with_reducible rfl
    | (extract_lets +onlyGivenNames -underBinder x; first | (refine keeps_cut (q := q) (j := j) (b := b) (x := x) ?_ ?_ <;> first | (intro h0; generalize x = y at h0 ⊢; clear x) | intro h0 | subst x) | (have h0 := Nat.zero_le x; generalize x = y at h0 ⊢; clear h0 x) | subst x)
    | split
    | dsimp only
    | (with_reducible refine keeps_mk ?_ ⟨rfl, rfl, rfl, rfl, rfl⟩ ⟨rfl, rfl⟩)

theorem State.specEntry_keeps {q : List Instr} {j : TapSt} {b : TimeBase} {s : State} (powers : List Int) (hs : Keeps q j b s) :
    Keeps q j b (State.specEntry s powers) := by
  unfold State.specEntry
  repeat' first
    | intro _
    | with_reducible assumption
    | with_reducible apply State.append_keeps
    | with_reducible apply State.streamDrop_keeps
    | with_reducible apply keeps_foldl
    | with_reducible apply keeps_foldl_fst
    | with_reducible apply keeps_ite
    | with_reducible rfl
    | (extract_lets +onlyGivenNames -underBinder x; first | (refine keeps_cut (q := q) (j := j) (b := b) (x := x) ?_ ?_ <;> first | (intro h0; generalize x = y at h0 ⊢; clear x) | intro h0 | subst x) | (have h0 := Nat.zero_le x; generalize x = y at h0 ⊢; clear h0 x) | subst x)
    | split
    | dsimp only
    | (with_reducible refine keeps_mk ?_ ⟨rfl, rfl, rfl, rfl, rfl⟩ ⟨rfl, rfl⟩)

theorem State.rephase_keeps {q : List Instr} {j : TapSt} {b : TimeBase} {s : State}  (hs : Keeps q j b s) :
    Keeps q j b (State.rephase s) := by
  unfold State.rephase
  repeat' first
    | intro _
    | with_reducible assumption
    | with_reducible apply State.modChain_keeps
    | with_reducible apply keeps_foldl
    | with_reducible apply keeps_foldl_fst
    | with_reducible rfl
    | dsimp only
    | (with_reducible refine keeps_mk ?_ ⟨rfl, rfl, rfl, rfl, rfl⟩ ⟨rfl, rfl⟩)

theorem State.notchesLeave_keeps {q : List Instr} {j : TapSt} {b : TimeBase} {s : State}  (hs : Keeps q j b s) :
    Keeps q j b (State.notchesLeave s) := by
  unfold State.notchesLeave
  repeat' first
    | intro _
    | with_reducible assumption
    | with_reducible apply State.notchMoved_keeps
    | with_reducible apply keeps_foldl
    | with_reducible apply keeps_foldl_fst
    | with_reducible apply keeps_ite
    | with_reducible rfl
    | (extract_lets +onlyGivenNames -underBinder x; first | (refine keeps_cut (q := q) (j := j) (b := b) (x := x) ?_ ?_ <;> first | (intro h0; generalize x = y at h0 ⊢; clear x) | intro h0 | subst x) | (have h0 := Nat.zero_le x; generalize x = y at h0 ⊢; clear h0 x) | subst x)
    | split
    | dsimp only
    | (with_reducible refine keeps_mk ?_ ⟨rfl, rfl, rfl, rfl, rfl⟩ ⟨rfl, rfl⟩)

theorem State.notchesRestart_keeps {q : List Instr} {j : TapSt} {b : TimeBase} {s : State}  (hs : Keeps q j b s) :
    Keeps q j b (State.notchesRestart s) := by
  unfold State.notchesRestart
  repeat' first
    | intro _
    | with_reducible assumption
    | with_reducible apply State.set_keeps
    | with_reducible apply State.notchApply_keeps
    | with_reducible apply State.notchFreeze_keeps
    | with_reducible apply State.modNotch_keeps
    | with_reducible apply State.reset_keeps
    | with_reducible apply keeps_foldl
    | with_reducible apply keeps_foldl_fst
    | with_reducible apply keeps_ite
    | with_reducible rfl
    | (extract_lets +onlyGivenNames -underBinder x; first | (refine keeps_cut (q := q) (j := j) (b := b) (x := x) ?_ ?_ <;> first | (intro h0; generalize x = y at h0 ⊢; clear x) | intro h0 | subst x) | (have h0 := Nat.zero_le x; generalize x = y at h0 ⊢; clear h0 x) | subst x)
    | split
    | dsimp only
    | (with_reducible refine keeps_mk ?_ ⟨rfl, rfl, rfl, rfl, rfl⟩ ⟨rfl, rfl⟩)

theorem State.chainsWake_keeps {q : List Instr} {j : TapSt} {b : TimeBase} {s : State}  (hs : Keeps q j b s) :
    Keeps q j b (State.chainsWake s) := by
  unfold State.chainsWake
  repeat' first
    | intro _
    | with_reducible assumption
    | with_reducible apply State.specDiscard_keeps
    | with_reducible apply State.notchFreeze_keeps
    | with_reducible apply State.modChain_keeps
    | with_reducible apply keeps_foldl
    | with_reducible apply keeps_foldl_fst
    | with_reducible apply keeps_ite
    | with_reducible rfl
    | split
    | dsimp only
    | (with_reducible refine keeps_mk ?_ ⟨rfl, rfl, rfl, rfl, rfl⟩ ⟨rfl, rfl⟩)

theorem State.chainWritten_keeps {q : List Instr} {j : TapSt} {b : TimeBase} {s : State} (k : Nat) (hs : Keeps q j b s) :
    Keeps q j b (State.chainWritten s k) := by
  unfold State.chainWritten
  repeat' first
    | intro _
    | with_reducible assumption
    | with_reducible apply State.notchApply_keeps
    | with_reducible apply keeps_ite
    | with_reducible rfl
    | (extract_lets +onlyGivenNames -underBinder x; first | (refine keeps_cut (q := q) (j := j) (b := b) (x := x) ?_ ?_ <;> first | (intro h0; generalize x = y at h0 ⊢; clear x) | intro h0 | subst x) | (have h0 := Nat.zero_le x; generalize x = y at h0 ⊢; clear h0 x) | subst x)
    | split
    | dsimp only
    | (with_reducible refine keeps_mk ?_ ⟨rfl, rfl, rfl, rfl, rfl⟩ ⟨rfl, rfl⟩)

end Sys2Proof.Machine
end

