-- ==== Sys2Proof/Laws/KeepsGnss.lean ====
section
/-!
SUPPORT. What the operations keep: the slots and navigation.
-/

set_option linter.all false
set_option Elab.async false

namespace Sys2Proof.Machine

/-! ### Slots -/

theorem State.surveyBegin_keeps {q : List Instr} {j : TapSt} {b : TimeBase} {s : State} (a : Nat) (hs : Keeps q j b s) :
    Keeps q j b (State.surveyBegin s a) := by
  unfold State.surveyBegin
  repeat' first
    | intro _
    | with_reducible assumption
    | with_reducible apply State.set_keeps
    | with_reducible rfl
    | (extract_lets +onlyGivenNames -underBinder x; first | (refine keeps_cut (q := q) (j := j) (b := b) (x := x) ?_ ?_ <;> first | (intro h0; generalize x = y at h0 ⊢; clear x) | intro h0 | subst x) | (have h0 := Nat.zero_le x; generalize x = y at h0 ⊢; clear h0 x) | subst x)
    | dsimp only
    | (with_reducible refine keeps_mk ?_ ⟨rfl, rfl, rfl, rfl, rfl⟩ ⟨rfl, rfl⟩)

theorem State.positionWritten_keeps {q : List Instr} {j : TapSt} {b : TimeBase} {s : State} (a : Nat) (hs : Keeps q j b s) :
    Keeps q j b (State.positionWritten s a) := by
  unfold State.positionWritten
  repeat' first
    | intro _
    | with_reducible assumption
    | with_reducible apply State.set_keeps
    | with_reducible apply State.surveyBegin_keeps
    | with_reducible apply keeps_ite
    | with_reducible rfl
    | (extract_lets +onlyGivenNames -underBinder x; first | (refine keeps_cut (q := q) (j := j) (b := b) (x := x) ?_ ?_ <;> first | (intro h0; generalize x = y at h0 ⊢; clear x) | intro h0 | subst x) | (have h0 := Nat.zero_le x; generalize x = y at h0 ⊢; clear h0 x) | subst x)
    | split
    | dsimp only
    | (with_reducible refine keeps_mk ?_ ⟨rfl, rfl, rfl, rfl, rfl⟩ ⟨rfl, rfl⟩)

theorem State.putLock_keeps {q : List Instr} {j : TapSt} {b0 : TimeBase} {s : State} (n : Nat) (b : Nat) (v : Bool) (hs : Keeps q j b0 s) :
    Keeps q j b0 (State.putLock s n b v) := by
  unfold State.putLock
  repeat' first
    | intro _
    | with_reducible assumption
    | with_reducible apply State.set_keeps
    | with_reducible rfl
    | dsimp only
    | (with_reducible refine keeps_mk ?_ ⟨rfl, rfl, rfl, rfl, rfl⟩ ⟨rfl, rfl⟩)

theorem State.navUnsync_keeps {q : List Instr} {j : TapSt} {b : TimeBase} {s : State} (n : Nat) (hs : Keeps q j b s) :
    Keeps q j b (State.navUnsync s n) := by
  unfold State.navUnsync
  repeat' first
    | intro _
    | with_reducible assumption
    | with_reducible apply State.set_keeps
    | with_reducible apply State.modSlot_keeps
    | with_reducible rfl
    | (extract_lets +onlyGivenNames -underBinder x; first | (refine keeps_cut (q := q) (j := j) (b := b) (x := x) ?_ ?_ <;> first | (intro h0; generalize x = y at h0 ⊢; clear x) | intro h0 | subst x) | (have h0 := Nat.zero_le x; generalize x = y at h0 ⊢; clear h0 x) | subst x)
    | dsimp only
    | (with_reducible refine keeps_mk ?_ ⟨rfl, rfl, rfl, rfl, rfl⟩ ⟨rfl, rfl⟩)

theorem State.navClear_keeps {q : List Instr} {j : TapSt} {b : TimeBase} {s : State} (n : Nat) (hs : Keeps q j b s) :
    Keeps q j b (State.navClear s n) := by
  unfold State.navClear
  repeat' first
    | intro _
    | with_reducible assumption
    | with_reducible apply State.set_keeps
    | with_reducible apply State.navUnsync_keeps
    | with_reducible apply State.modSlot_keeps
    | with_reducible rfl
    | (extract_lets +onlyGivenNames -underBinder x; first | (refine keeps_cut (q := q) (j := j) (b := b) (x := x) ?_ ?_ <;> first | (intro h0; generalize x = y at h0 ⊢; clear x) | intro h0 | subst x) | (have h0 := Nat.zero_le x; generalize x = y at h0 ⊢; clear h0 x) | subst x)
    | dsimp only
    | (with_reducible refine keeps_mk ?_ ⟨rfl, rfl, rfl, rfl, rfl⟩ ⟨rfl, rfl⟩)

theorem State.slip_keeps {q : List Instr} {j : TapSt} {b : TimeBase} {s : State} (n : Nat) (hs : Keeps q j b s) :
    Keeps q j b (State.slip s n) := by
  unfold State.slip
  repeat' first
    | intro _
    | with_reducible assumption
    | with_reducible apply State.set_keeps
    | with_reducible apply State.flag_keeps
    | with_reducible apply State.modSlot_keeps
    | with_reducible rfl
    | (extract_lets +onlyGivenNames -underBinder x; first | (refine keeps_cut (q := q) (j := j) (b := b) (x := x) ?_ ?_ <;> first | (intro h0; generalize x = y at h0 ⊢; clear x) | intro h0 | subst x) | (have h0 := Nat.zero_le x; generalize x = y at h0 ⊢; clear h0 x) | subst x)
    | dsimp only
    | (with_reducible refine keeps_mk ?_ ⟨rfl, rfl, rfl, rfl, rfl⟩ ⟨rfl, rfl⟩)

theorem State.slotFree_keeps {q : List Instr} {j : TapSt} {b : TimeBase} {s : State} (n : Nat) (cause : Nat) (hs : Keeps q j b s) :
    Keeps q j b (State.slotFree s n cause) := by
  unfold State.slotFree
  repeat' first
    | intro _
    | with_reducible assumption
    | with_reducible apply State.set_keeps
    | with_reducible apply State.navClear_keeps
    | with_reducible apply State.modSlot_keeps
    | with_reducible apply State.reset_keeps
    | with_reducible apply keeps_foldl
    | with_reducible apply keeps_foldl_fst
    | with_reducible rfl
    | (extract_lets +onlyGivenNames -underBinder x; first | (refine keeps_cut (q := q) (j := j) (b := b) (x := x) ?_ ?_ <;> first | (intro h0; generalize x = y at h0 ⊢; clear x) | intro h0 | subst x) | (have h0 := Nat.zero_le x; generalize x = y at h0 ⊢; clear h0 x) | subst x)
    | dsimp only
    | (with_reducible refine keeps_mk ?_ ⟨rfl, rfl, rfl, rfl, rfl⟩ ⟨rfl, rfl⟩)

theorem State.windowBegin_keeps {q : List Instr} {j : TapSt} {b : TimeBase} {s : State} (n : Nat) (hs : Keeps q j b s) :
    Keeps q j b (State.windowBegin s n) := by
  unfold State.windowBegin
  repeat' first
    | intro _
    | with_reducible assumption
    | with_reducible apply State.set_keeps
    | with_reducible apply State.modSlot_keeps
    | with_reducible apply keeps_ite
    | with_reducible rfl
    | split
    | dsimp only
    | (with_reducible refine keeps_mk ?_ ⟨rfl, rfl, rfl, rfl, rfl⟩ ⟨rfl, rfl⟩)

theorem State.slotEnter_keeps {q : List Instr} {j : TapSt} {b : TimeBase} {s : State} (n : Nat) (toward : Nat) (slips : Bool) (hs : Keeps q j b s) :
    Keeps q j b (State.slotEnter s n toward slips) := by
  unfold State.slotEnter
  repeat' first
    | intro _
    | with_reducible assumption
    | with_reducible apply State.set_keeps
    | with_reducible apply State.windowBegin_keeps
    | with_reducible apply State.slip_keeps
    | with_reducible apply State.navClear_keeps
    | with_reducible apply State.putLock_keeps
    | with_reducible apply State.modSlot_keeps
    | with_reducible apply keeps_ite
    | with_reducible rfl
    | (extract_lets +onlyGivenNames -underBinder x; first | (refine keeps_cut (q := q) (j := j) (b := b) (x := x) ?_ ?_ <;> first | (intro h0; generalize x = y at h0 ⊢; clear x) | intro h0 | subst x) | (have h0 := Nat.zero_le x; generalize x = y at h0 ⊢; clear h0 x) | subst x)
    | split
    | dsimp only
    | (with_reducible refine keeps_mk ?_ ⟨rfl, rfl, rfl, rfl, rfl⟩ ⟨rfl, rfl⟩)

theorem State.aidBits_keeps {q : List Instr} {j : TapSt} {b : TimeBase} {s : State} (n : Nat) (hs : Keeps q j b s) :
    Keeps q j b (State.aidBits s n) := by
  unfold State.aidBits
  repeat' first
    | intro _
    | with_reducible assumption
    | with_reducible apply State.putLock_keeps
    | with_reducible rfl
    | dsimp only
    | (with_reducible refine keeps_mk ?_ ⟨rfl, rfl, rfl, rfl, rfl⟩ ⟨rfl, rfl⟩)

theorem State.dumpLatch_keeps {q : List Instr} {j : TapSt} {b : TimeBase} {s : State} (n : Nat) (data : List Int) (pilot : List Int) (mm : List Int) (hs : Keeps q j b s) :
    Keeps q j b (State.dumpLatch s n data pilot mm) := by
  unfold State.dumpLatch
  repeat' first
    | intro _
    | with_reducible assumption
    | with_reducible apply State.modSlot_keeps
    | with_reducible apply State.reach_keeps
    | with_reducible apply keeps_ite
    | with_reducible rfl
    | (extract_lets +onlyGivenNames -underBinder x; first | (refine keeps_cut (q := q) (j := j) (b := b) (x := x) ?_ ?_ <;> first | (intro h0; generalize x = y at h0 ⊢; clear x) | intro h0 | subst x) | (have h0 := Nat.zero_le x; generalize x = y at h0 ⊢; clear h0 x) | subst x)
    | split
    | dsimp only
    | (with_reducible refine keeps_mk ?_ ⟨rfl, rfl, rfl, rfl, rfl⟩ ⟨rfl, rfl⟩)

theorem State.dumpWrite_keeps {q : List Instr} {j : TapSt} {b : TimeBase} {s : State} (hs : Keeps q j b s) :
    Keeps q j b (State.dumpWrite s) := by
  unfold State.dumpWrite
  refine keeps_foldl _ _ hs fun t n h => keeps_foldl _ _ h fun t p h => ?_
  exact keeps_cpu h fun h => ⟨SMap.wf_set _ _ _ _ rfl _ h.1, h.2⟩

theorem State.slotDumps_keeps {q : List Instr} {j : TapSt} {b : TimeBase} {s : State} (n : Nat) (t0 : Nat) (hs : Keeps q j b s) :
    Keeps q j b (State.slotDumps s n t0) := by
  unfold State.slotDumps
  repeat' first
    | intro _
    | with_reducible assumption
    | with_reducible apply State.modSlot_keeps
    | with_reducible apply keeps_ite
    | with_reducible rfl
    | (extract_lets +onlyGivenNames -underBinder x; first | (refine keeps_cut (q := q) (j := j) (b := b) (x := x) ?_ ?_ <;> first | (intro h0; generalize x = y at h0 ⊢; clear x) | intro h0 | subst x) | (have h0 := Nat.zero_le x; generalize x = y at h0 ⊢; clear h0 x) | subst x)
    | split
    | dsimp only
    | (with_reducible refine keeps_mk ?_ ⟨rfl, rfl, rfl, rfl, rfl⟩ ⟨rfl, rfl⟩)

theorem State.slotAdvance_keeps {q : List Instr} {j : TapSt} {b : TimeBase} {s : State} (n : Nat) (d : Nat) (hs : Keeps q j b s) :
    Keeps q j b (State.slotAdvance s n d) := by
  unfold State.slotAdvance
  repeat' first
    | intro _
    | with_reducible assumption
    | with_reducible apply State.set_keeps
    | with_reducible apply State.modSlot_keeps
    | with_reducible apply State.setI_keeps
    | with_reducible rfl
    | (extract_lets +onlyGivenNames -underBinder x; first | (refine keeps_cut (q := q) (j := j) (b := b) (x := x) ?_ ?_ <;> first | (intro h0; generalize x = y at h0 ⊢; clear x) | intro h0 | subst x) | (have h0 := Nat.zero_le x; generalize x = y at h0 ⊢; clear h0 x) | subst x)
    | dsimp only
    | (with_reducible refine keeps_mk ?_ ⟨rfl, rfl, rfl, rfl, rfl⟩ ⟨rfl, rfl⟩)

theorem State.dopplerFollow_keeps {q : List Instr} {j : TapSt} {b : TimeBase} {s : State} (n : Nat) (d : Nat) (hs : Keeps q j b s) :
    Keeps q j b (State.dopplerFollow s n d) := by
  unfold State.dopplerFollow
  repeat' first
    | intro _
    | with_reducible assumption
    | with_reducible apply State.modSlot_keeps
    | with_reducible apply State.setI_keeps
    | with_reducible apply keeps_ite
    | with_reducible rfl
    | (extract_lets +onlyGivenNames -underBinder x; first | (refine keeps_cut (q := q) (j := j) (b := b) (x := x) ?_ ?_ <;> first | (intro h0; generalize x = y at h0 ⊢; clear x) | intro h0 | subst x) | (have h0 := Nat.zero_le x; generalize x = y at h0 ⊢; clear h0 x) | subst x)
    | split
    | dsimp only
    | (with_reducible refine keeps_mk ?_ ⟨rfl, rfl, rfl, rfl, rfl⟩ ⟨rfl, rfl⟩)

theorem State.slotTick_keeps {q : List Instr} {j : TapSt} {b : TimeBase} {s : State} (n : Nat) (d : Nat) (hs : Keeps q j b s) :
    Keeps q j b (State.slotTick s n d) := by
  unfold State.slotTick
  repeat' first
    | intro _
    | with_reducible assumption
    | with_reducible apply State.set_keeps
    | with_reducible apply State.flag_keeps
    | with_reducible apply State.dopplerFollow_keeps
    | with_reducible apply State.slotAdvance_keeps
    | with_reducible apply State.slotDumps_keeps
    | with_reducible apply State.aidBits_keeps
    | with_reducible apply State.windowBegin_keeps
    | with_reducible apply State.slip_keeps
    | with_reducible apply State.putLock_keeps
    | with_reducible apply State.modSlot_keeps
    | with_reducible apply keeps_ite
    | with_reducible rfl
    | (extract_lets +onlyGivenNames -underBinder x; first | (refine keeps_cut (q := q) (j := j) (b := b) (x := x) ?_ ?_ <;> first | (intro h0; generalize x = y at h0 ⊢; clear x) | intro h0 | subst x) | (have h0 := Nat.zero_le x; generalize x = y at h0 ⊢; clear h0 x) | subst x)
    | split
    | dsimp only
    | (with_reducible refine keeps_mk ?_ ⟨rfl, rfl, rfl, rfl, rfl⟩ ⟨rfl, rfl⟩)

theorem State.keptTick_keeps {q : List Instr} {j : TapSt} {b : TimeBase} {s : State} (n : Nat) (d : Nat) (hs : Keeps q j b s) :
    Keeps q j b (State.keptTick s n d) := by
  unfold State.keptTick
  repeat' first
    | intro _
    | with_reducible assumption
    | with_reducible apply State.modSlot_keeps
    | with_reducible rfl
    | (extract_lets +onlyGivenNames -underBinder x; first | (refine keeps_cut (q := q) (j := j) (b := b) (x := x) ?_ ?_ <;> first | (intro h0; generalize x = y at h0 ⊢; clear x) | intro h0 | subst x) | (have h0 := Nat.zero_le x; generalize x = y at h0 ⊢; clear h0 x) | subst x)
    | split
    | dsimp only
    | (with_reducible refine keeps_mk ?_ ⟨rfl, rfl, rfl, rfl, rfl⟩ ⟨rfl, rfl⟩)

theorem State.crossTick_keeps {q : List Instr} {j : TapSt} {b : TimeBase} {s : State}  (hs : Keeps q j b s) :
    Keeps q j b (State.crossTick s) := by
  unfold State.crossTick
  repeat' first
    | intro _
    | with_reducible assumption
    | with_reducible apply State.set_keeps
    | with_reducible apply State.modSlot_keeps
    | with_reducible apply keeps_foldl
    | with_reducible apply keeps_foldl_fst
    | with_reducible apply keeps_ite
    | with_reducible rfl
    | (extract_lets +onlyGivenNames -underBinder x; first | (refine keeps_cut (q := q) (j := j) (b := b) (x := x) ?_ ?_ <;> first | (intro h0; generalize x = y at h0 ⊢; clear x) | intro h0 | subst x) | (have h0 := Nat.zero_le x; generalize x = y at h0 ⊢; clear h0 x) | subst x)
    | split
    | dsimp only
    | (with_reducible refine keeps_mk ?_ ⟨rfl, rfl, rfl, rfl, rfl⟩ ⟨rfl, rfl⟩)

theorem State.ncoPut_keeps {q : List Instr} {j : TapSt} {b : TimeBase} {s : State} (n : Nat) (w : Nat × Nat) (hs : Keeps q j b s) :
    Keeps q j b (State.ncoPut s n w) := by
  unfold State.ncoPut
  repeat' first
    | intro _
    | with_reducible assumption
    | with_reducible apply State.set_keeps
    | with_reducible apply keeps_ite
    | with_reducible rfl
    | split
    | dsimp only
    | (with_reducible refine keeps_mk ?_ ⟨rfl, rfl, rfl, rfl, rfl⟩ ⟨rfl, rfl⟩)

theorem State.pliJudge_keeps {q : List Instr} {j : TapSt} {b : TimeBase} {s : State} (n : Nat) (prompt : Int × Int) (hs : Keeps q j b s) :
    Keeps q j b (State.pliJudge s n prompt).1 := by
  unfold State.pliJudge
  repeat' first
    | intro _
    | with_reducible assumption
    | with_reducible apply State.putLock_keeps
    | with_reducible apply State.modSlot_keeps
    | with_reducible apply State.takeFree_keeps
    | with_reducible apply State.setI_keeps
    | with_reducible apply keeps_ite
    | with_reducible apply keeps_ite_fst
    | with_reducible rfl
    | (extract_lets +onlyGivenNames -underBinder x; first | (refine keeps_cut (q := q) (j := j) (b := b) (x := x) ?_ ?_ <;> first | (intro h0; generalize x = y at h0 ⊢; clear x) | intro h0 | subst x) | (have h0 := Nat.zero_le x; generalize x = y at h0 ⊢; clear h0 x) | subst x)
    | split
    | dsimp only
    | (with_reducible refine keeps_mk ?_ ⟨rfl, rfl, rfl, rfl, rfl⟩ ⟨rfl, rfl⟩)

theorem State.cnoJudge_keeps {q : List Instr} {j : TapSt} {b : TimeBase} {s : State} (n : Nat) (t : Nat) (p : Nat) (noise : Nat) (hs : Keeps q j b s) :
    Keeps q j b (State.cnoJudge s n t p noise) := by
  unfold State.cnoJudge
  repeat' first
    | intro _
    | with_reducible assumption
    | with_reducible apply State.set_keeps
    | with_reducible apply State.putLock_keeps
    | with_reducible apply State.modSlot_keeps
    | with_reducible apply keeps_ite
    | with_reducible rfl
    | (extract_lets +onlyGivenNames -underBinder x; first | (refine keeps_cut (q := q) (j := j) (b := b) (x := x) ?_ ?_ <;> first | (intro h0; generalize x = y at h0 ⊢; clear x) | intro h0 | subst x) | (have h0 := Nat.zero_le x; generalize x = y at h0 ⊢; clear h0 x) | subst x)
    | split
    | dsimp only
    | (with_reducible refine keeps_mk ?_ ⟨rfl, rfl, rfl, rfl, rfl⟩ ⟨rfl, rfl⟩)

theorem State.mmJudge_keeps {q : List Instr} {j : TapSt} {b : TimeBase} {s : State} (n : Nat) (mm : List Int) (prompt : Int × Int) (hs : Keeps q j b s) :
    Keeps q j b (State.mmJudge s n mm prompt) := by
  unfold State.mmJudge
  repeat' first
    | intro _
    | with_reducible assumption
    | with_reducible apply State.flag_keeps
    | with_reducible apply State.modSlot_keeps
    | with_reducible apply State.takeFree_keeps
    | with_reducible apply State.setI_keeps
    | with_reducible apply keeps_ite
    | with_reducible rfl
    | (extract_lets +onlyGivenNames -underBinder x; first | (refine keeps_cut (q := q) (j := j) (b := b) (x := x) ?_ ?_ <;> first | (intro h0; generalize x = y at h0 ⊢; clear x) | intro h0 | subst x) | (have h0 := Nat.zero_le x; generalize x = y at h0 ⊢; clear h0 x) | subst x)
    | split
    | dsimp only
    | (with_reducible refine keeps_mk ?_ ⟨rfl, rfl, rfl, rfl, rfl⟩ ⟨rfl, rfl⟩)

theorem State.codeShift_keeps {q : List Instr} {j : TapSt} {b : TimeBase} {s : State} (n : Nat) (d : Int) (hs : Keeps q j b s) :
    Keeps q j b (State.codeShift s n d) := by
  unfold State.codeShift
  repeat' first
    | intro _
    | with_reducible assumption
    | with_reducible apply State.set_keeps
    | with_reducible apply State.modSlot_keeps
    | with_reducible rfl
    | (extract_lets +onlyGivenNames -underBinder x; first | (refine keeps_cut (q := q) (j := j) (b := b) (x := x) ?_ ?_ <;> first | (intro h0; generalize x = y at h0 ⊢; clear x) | intro h0 | subst x) | (have h0 := Nat.zero_le x; generalize x = y at h0 ⊢; clear h0 x) | subst x)
    | dsimp only
    | (with_reducible refine keeps_mk ?_ ⟨rfl, rfl, rfl, rfl, rfl⟩ ⟨rfl, rfl⟩)

theorem State.bumpJudge_keeps {q : List Instr} {j : TapSt} {b : TimeBase} {s : State} (n : Nat) (cs : List (List Int)) (hs : Keeps q j b s) :
    Keeps q j b (State.bumpJudge s n cs).1 := by
  unfold State.bumpJudge
  repeat' first
    | intro _
    | with_reducible assumption
    | with_reducible apply State.flag_keeps
    | with_reducible apply State.codeShift_keeps
    | with_reducible apply State.modSlot_keeps
    | with_reducible apply keeps_ite
    | with_reducible apply keeps_ite_fst
    | with_reducible rfl
    | (extract_lets +onlyGivenNames -underBinder x; first | (refine keeps_cut (q := q) (j := j) (b := b) (x := x) ?_ ?_ <;> first | (intro h0; generalize x = y at h0 ⊢; clear x) | intro h0 | subst x) | (have h0 := Nat.zero_le x; generalize x = y at h0 ⊢; clear h0 x) | subst x)
    | split
    | dsimp only
    | (with_reducible refine keeps_mk ?_ ⟨rfl, rfl, rfl, rfl, rfl⟩ ⟨rfl, rfl⟩)

theorem State.decide__keeps {q : List Instr} {j : TapSt} {b : TimeBase} {s : State} (n : Nat) (toward : Nat) (cause : Nat) (hs : Keeps q j b s) :
    Keeps q j b (State.decide_ s n toward cause) := by
  unfold State.decide_
  repeat' first
    | intro _
    | with_reducible assumption
    | with_reducible apply State.modSlot_keeps
    | with_reducible apply keeps_ite
    | with_reducible rfl
    | split
    | dsimp only
    | (with_reducible refine keeps_mk ?_ ⟨rfl, rfl, rfl, rfl, rfl⟩ ⟨rfl, rfl⟩)

theorem State.fallback_keeps {q : List Instr} {j : TapSt} {b : TimeBase} {s : State} (n : Nat) (hs : Keeps q j b s) :
    Keeps q j b (State.fallback s n) := by
  unfold State.fallback
  repeat' first
    | intro _
    | with_reducible assumption
    | with_reducible apply State.flag_keeps
    | with_reducible apply State.decide__keeps
    | with_reducible apply keeps_ite
    | with_reducible rfl
    | split
    | dsimp only
    | (with_reducible refine keeps_mk ?_ ⟨rfl, rfl, rfl, rfl, rfl⟩ ⟨rfl, rfl⟩)

theorem State.slotsTick_keeps {q : List Instr} {j : TapSt} {b : TimeBase} {s : State} (d : Nat) (hs : Keeps q j b s) :
    Keeps q j b (State.slotsTick s d) := by
  unfold State.slotsTick
  repeat' first
    | intro _
    | with_reducible assumption
    | with_reducible apply State.fallback_keeps
    | with_reducible apply State.crossTick_keeps
    | with_reducible apply State.keptTick_keeps
    | with_reducible apply State.slotTick_keeps
    | with_reducible apply keeps_foldl
    | with_reducible apply keeps_foldl_fst
    | with_reducible apply keeps_ite
    | with_reducible rfl
    | (extract_lets +onlyGivenNames -underBinder x; first | (refine keeps_cut (q := q) (j := j) (b := b) (x := x) ?_ ?_ <;> first | (intro h0; generalize x = y at h0 ⊢; clear x) | intro h0 | subst x) | (have h0 := Nat.zero_le x; generalize x = y at h0 ⊢; clear h0 x) | subst x)
    | split
    | dsimp only
    | (with_reducible refine keeps_mk ?_ ⟨rfl, rfl, rfl, rfl, rfl⟩ ⟨rfl, rfl⟩)

theorem State.slotJudge_keeps {q : List Instr} {j : TapSt} {b : TimeBase} {s : State} (n : Nat) (hs : Keeps q j b s) :
    Keeps q j b (State.slotJudge s n) := by
  unfold State.slotJudge
  repeat' first
    | intro _
    | with_reducible assumption
    | with_reducible apply State.fallback_keeps
    | with_reducible apply State.decide__keeps
    | with_reducible apply State.modSlot_keeps
    | with_reducible apply keeps_ite
    | with_reducible rfl
    | (extract_lets +onlyGivenNames -underBinder x; first | (refine keeps_cut (q := q) (j := j) (b := b) (x := x) ?_ ?_ <;> first | (intro h0; generalize x = y at h0 ⊢; clear x) | intro h0 | subst x) | (have h0 := Nat.zero_le x; generalize x = y at h0 ⊢; clear h0 x) | subst x)
    | split
    | dsimp only
    | (with_reducible refine keeps_mk ?_ ⟨rfl, rfl, rfl, rfl, rfl⟩ ⟨rfl, rfl⟩)

theorem State.histSee_keeps {q : List Instr} {j : TapSt} {b : TimeBase} {s : State} (n : Nat) (per : Int) (positive : Bool) (hs : Keeps q j b s) :
    Keeps q j b (State.histSee s n per positive) := by
  unfold State.histSee
  repeat' first
    | intro _
    | with_reducible assumption
    | with_reducible apply State.set_keeps
    | with_reducible apply State.navUnsync_keeps
    | with_reducible apply State.putLock_keeps
    | with_reducible apply State.modSlot_keeps
    | with_reducible apply keeps_foldl
    | with_reducible apply keeps_foldl_fst
    | with_reducible apply keeps_ite
    | with_reducible rfl
    | (extract_lets +onlyGivenNames -underBinder x; first | (refine keeps_cut (q := q) (j := j) (b := b) (x := x) ?_ ?_ <;> first | (intro h0; generalize x = y at h0 ⊢; clear x) | intro h0 | subst x) | (have h0 := Nat.zero_le x; generalize x = y at h0 ⊢; clear h0 x) | subst x)
    | split
    | dsimp only
    | (with_reducible refine keeps_mk ?_ ⟨rfl, rfl, rfl, rfl, rfl⟩ ⟨rfl, rfl⟩)

theorem State.secSee_keeps {q : List Instr} {j : TapSt} {b : TimeBase} {s : State} (n : Nat) (per : Int) (signs : List Bool) (hs : Keeps q j b s) :
    Keeps q j b (State.secSee s n per signs) := by
  unfold State.secSee
  repeat' first
    | intro _
    | with_reducible assumption
    | with_reducible apply State.set_keeps
    | with_reducible apply State.navUnsync_keeps
    | with_reducible apply State.putLock_keeps
    | with_reducible apply State.modSlot_keeps
    | with_reducible apply keeps_ite
    | with_reducible rfl
    | (extract_lets +onlyGivenNames -underBinder x; first | (refine keeps_cut (q := q) (j := j) (b := b) (x := x) ?_ ?_ <;> first | (intro h0; generalize x = y at h0 ⊢; clear x) | intro h0 | subst x) | (have h0 := Nat.zero_le x; generalize x = y at h0 ⊢; clear h0 x) | subst x)
    | split
    | dsimp only
    | (with_reducible refine keeps_mk ?_ ⟨rfl, rfl, rfl, rfl, rfl⟩ ⟨rfl, rfl⟩)

theorem State.dataSee_keeps {q : List Instr} {j : TapSt} {b : TimeBase} {s : State} (n : Nat) (per : Int) (signs : List Bool) (hs : Keeps q j b s) :
    Keeps q j b (State.dataSee s n per signs) := by
  unfold State.dataSee
  repeat' first
    | intro _
    | with_reducible assumption
    | with_reducible apply State.putLock_keeps
    | with_reducible apply State.modSlot_keeps
    | with_reducible apply keeps_ite
    | with_reducible rfl
    | (extract_lets +onlyGivenNames -underBinder x; first | (refine keeps_cut (q := q) (j := j) (b := b) (x := x) ?_ ?_ <;> first | (intro h0; generalize x = y at h0 ⊢; clear x) | intro h0 | subst x) | (have h0 := Nat.zero_le x; generalize x = y at h0 ⊢; clear h0 x) | subst x)
    | split
    | dsimp only
    | (with_reducible refine keeps_mk ?_ ⟨rfl, rfl, rfl, rfl, rfl⟩ ⟨rfl, rfl⟩)

theorem State.syncSee_keeps {q : List Instr} {j : TapSt} {b : TimeBase} {s : State} (n : Nat) (e : Dump) (hs : Keeps q j b s) :
    Keeps q j b (State.syncSee s n e) := by
  unfold State.syncSee
  repeat' first
    | intro _
    | with_reducible assumption
    | with_reducible apply State.dataSee_keeps
    | with_reducible apply State.secSee_keeps
    | with_reducible apply State.histSee_keeps
    | with_reducible apply State.putLock_keeps
    | with_reducible apply State.modSlot_keeps
    | with_reducible apply keeps_ite
    | with_reducible rfl
    | (extract_lets +onlyGivenNames -underBinder x; first | (refine keeps_cut (q := q) (j := j) (b := b) (x := x) ?_ ?_ <;> first | (intro h0; generalize x = y at h0 ⊢; clear x) | intro h0 | subst x) | (have h0 := Nat.zero_le x; generalize x = y at h0 ⊢; clear h0 x) | subst x)
    | split
    | dsimp only
    | (with_reducible refine keeps_mk ?_ ⟨rfl, rfl, rfl, rfl, rfl⟩ ⟨rfl, rfl⟩)

theorem State.slotChange_keeps {q : List Instr} {j : TapSt} {b : TimeBase} {s : State} (n : Nat) (hs : Keeps q j b s) :
    Keeps q j b (State.slotChange s n) := by
  unfold State.slotChange
  repeat' first
    | intro _
    | with_reducible assumption
    | with_reducible apply State.slotEnter_keeps
    | with_reducible apply State.slotFree_keeps
    | with_reducible apply keeps_ite
    | with_reducible rfl
    | split
    | dsimp only
    | (with_reducible refine keeps_mk ?_ ⟨rfl, rfl, rfl, rfl, rfl⟩ ⟨rfl, rfl⟩)

theorem State.pullInFailed_keeps {q : List Instr} {j : TapSt} {b : TimeBase} {s : State} (n : Nat) (hs : Keeps q j b s) :
    Keeps q j b (State.pullInFailed s n) := by
  unfold State.pullInFailed
  repeat' first
    | intro _
    | with_reducible assumption
    | with_reducible apply State.slotFree_keeps
    | with_reducible apply keeps_ite
    | with_reducible rfl
    | split
    | dsimp only
    | (with_reducible refine keeps_mk ?_ ⟨rfl, rfl, rfl, rfl, rfl⟩ ⟨rfl, rfl⟩)

theorem State.lostTimeout_keeps {q : List Instr} {j : TapSt} {b : TimeBase} {s : State} (n : Nat) (hs : Keeps q j b s) :
    Keeps q j b (State.lostTimeout s n) := by
  unfold State.lostTimeout
  repeat' first
    | intro _
    | with_reducible assumption
    | with_reducible apply State.slotFree_keeps
    | with_reducible apply keeps_ite
    | with_reducible rfl
    | split
    | dsimp only
    | (with_reducible refine keeps_mk ?_ ⟨rfl, rfl, rfl, rfl, rfl⟩ ⟨rfl, rfl⟩)

theorem State.crossDrop_keeps {q : List Instr} {j : TapSt} {b : TimeBase} {s : State} (n : Nat) (hs : Keeps q j b s) :
    Keeps q j b (State.crossDrop s n) := by
  unfold State.crossDrop
  repeat' first
    | intro _
    | with_reducible assumption
    | with_reducible apply State.flag_keeps
    | with_reducible apply State.slotFree_keeps
    | with_reducible apply keeps_ite
    | with_reducible rfl
    | split
    | dsimp only
    | (with_reducible refine keeps_mk ?_ ⟨rfl, rfl, rfl, rfl, rfl⟩ ⟨rfl, rfl⟩)

theorem State.parityFault_keeps {q : List Instr} {j : TapSt} {b : TimeBase} {s : State} (n : Nat) (again : Bool) (hs : Keeps q j b s) :
    Keeps q j b (State.parityFault s n again) := by
  unfold State.parityFault
  repeat' first
    | intro _
    | with_reducible assumption
    | with_reducible apply State.flag_keeps
    | with_reducible apply State.modSlot_keeps
    | with_reducible apply keeps_ite
    | with_reducible rfl
    | (extract_lets +onlyGivenNames -underBinder x; first | (refine keeps_cut (q := q) (j := j) (b := b) (x := x) ?_ ?_ <;> first | (intro h0; generalize x = y at h0 ⊢; clear x) | intro h0 | subst x) | (have h0 := Nat.zero_le x; generalize x = y at h0 ⊢; clear h0 x) | subst x)
    | split
    | dsimp only
    | (with_reducible refine keeps_mk ?_ ⟨rfl, rfl, rfl, rfl, rfl⟩ ⟨rfl, rfl⟩)

theorem State.slotRetire_keeps {q : List Instr} {j : TapSt} {b : TimeBase} {s : State} (n : Nat) (hs : Keeps q j b s) :
    Keeps q j b (State.slotRetire s n) := by
  unfold State.slotRetire
  repeat' first
    | intro _
    | with_reducible assumption
    | with_reducible apply State.set_keeps
    | with_reducible apply State.flag_keeps
    | with_reducible apply State.log_keeps
    | with_reducible apply State.slotFree_keeps
    | with_reducible apply keeps_ite
    | with_reducible rfl
    | (extract_lets +onlyGivenNames -underBinder x; first | (refine keeps_cut (q := q) (j := j) (b := b) (x := x) ?_ ?_ <;> first | (intro h0; generalize x = y at h0 ⊢; clear x) | intro h0 | subst x) | (have h0 := Nat.zero_le x; generalize x = y at h0 ⊢; clear h0 x) | subst x)
    | split
    | dsimp only
    | (with_reducible refine keeps_mk ?_ ⟨rfl, rfl, rfl, rfl, rfl⟩ ⟨rfl, rfl⟩)

theorem State.slotSelfTest_keeps {q : List Instr} {j : TapSt} {b : TimeBase} {s : State} (n : Nat) (pass : Bool) (hs : Keeps q j b s) :
    Keeps q j b (State.slotSelfTest s n pass) := by
  unfold State.slotSelfTest
  repeat' first
    | intro _
    | with_reducible assumption
    | with_reducible apply State.slotFree_keeps
    | with_reducible apply State.modSlot_keeps
    | with_reducible apply keeps_ite
    | with_reducible rfl
    | split
    | dsimp only
    | (with_reducible refine keeps_mk ?_ ⟨rfl, rfl, rfl, rfl, rfl⟩ ⟨rfl, rfl⟩)

theorem State.slotsRelease_keeps {q : List Instr} {j : TapSt} {b : TimeBase} {s : State} (m : Nat) (cause : Nat) (hs : Keeps q j b s) :
    Keeps q j b (State.slotsRelease s m cause) := by
  unfold State.slotsRelease
  repeat' first
    | intro _
    | with_reducible assumption
    | with_reducible apply State.flag_keeps
    | with_reducible apply State.slotFree_keeps
    | with_reducible apply keeps_foldl
    | with_reducible apply keeps_foldl_fst
    | with_reducible rfl
    | (extract_lets +onlyGivenNames -underBinder x; first | (refine keeps_cut (q := q) (j := j) (b := b) (x := x) ?_ ?_ <;> first | (intro h0; generalize x = y at h0 ⊢; clear x) | intro h0 | subst x) | (have h0 := Nat.zero_le x; generalize x = y at h0 ⊢; clear h0 x) | subst x)
    | dsimp only
    | (with_reducible refine keeps_mk ?_ ⟨rfl, rfl, rfl, rfl, rfl⟩ ⟨rfl, rfl⟩)

theorem State.slotsLimit_keeps {q : List Instr} {j : TapSt} {b : TimeBase} {s : State}  (hs : Keeps q j b s) :
    Keeps q j b (State.slotsLimit s) := by
  unfold State.slotsLimit
  repeat' first
    | intro _
    | with_reducible assumption
    | with_reducible apply State.slotsRelease_keeps
    | with_reducible apply keeps_ite
    | with_reducible rfl
    | (extract_lets +onlyGivenNames -underBinder x; first | (refine keeps_cut (q := q) (j := j) (b := b) (x := x) ?_ ?_ <;> first | (intro h0; generalize x = y at h0 ⊢; clear x) | intro h0 | subst x) | (have h0 := Nat.zero_le x; generalize x = y at h0 ⊢; clear h0 x) | subst x)
    | split
    | dsimp only
    | (with_reducible refine keeps_mk ?_ ⟨rfl, rfl, rfl, rfl, rfl⟩ ⟨rfl, rfl⟩)

theorem State.releaseSlot_keeps {q : List Instr} {j : TapSt} {b : TimeBase} {s : State} (n : Nat) (hs : Keeps q j b s) :
    Keeps q j b (State.releaseSlot s n) := by
  unfold State.releaseSlot
  repeat' first
    | intro _
    | with_reducible assumption
    | with_reducible apply State.modSlot_keeps
    | with_reducible rfl
    | dsimp only
    | (with_reducible refine keeps_mk ?_ ⟨rfl, rfl, rfl, rfl, rfl⟩ ⟨rfl, rfl⟩)

theorem State.slotsFreeWhere_keeps {q : List Instr} {j : TapSt} {b : TimeBase} {s : State} (p : State → Nat → Bool) (cause : Nat) (hs : Keeps q j b s) :
    Keeps q j b (State.slotsFreeWhere s p cause) := by
  unfold State.slotsFreeWhere
  repeat' first
    | intro _
    | with_reducible assumption
    | with_reducible apply State.slotFree_keeps
    | with_reducible apply keeps_foldl
    | with_reducible apply keeps_foldl_fst
    | with_reducible rfl
    | dsimp only
    | (with_reducible refine keeps_mk ?_ ⟨rfl, rfl, rfl, rfl, rfl⟩ ⟨rfl, rfl⟩)

theorem State.slotsStep_keeps {q : List Instr} {j : TapSt} {b : TimeBase} {s : State}  (hs : Keeps q j b s) :
    Keeps q j b (State.slotsStep s) := by
  unfold State.slotsStep
  repeat' first
    | intro _
    | with_reducible assumption
    | with_reducible apply State.flag_keeps
    | with_reducible apply State.slotEnter_keeps
    | with_reducible apply State.slotFree_keeps
    | with_reducible apply keeps_foldl
    | with_reducible apply keeps_foldl_fst
    | with_reducible rfl
    | split
    | dsimp only
    | (with_reducible refine keeps_mk ?_ ⟨rfl, rfl, rfl, rfl, rfl⟩ ⟨rfl, rfl⟩)

theorem State.slotsHold_keeps {q : List Instr} {j : TapSt} {b : TimeBase} {s : State} (l : List (Nat × SlotKept)) (hs : Keeps q j b s) :
    Keeps q j b (State.slotsHold s l) := by
  unfold State.slotsHold
  repeat' first
    | intro _
    | with_reducible assumption
    | with_reducible apply State.modSlot_keeps
    | with_reducible apply keeps_foldl
    | with_reducible apply keeps_foldl_fst
    | with_reducible rfl
    | dsimp only
    | (with_reducible refine keeps_mk ?_ ⟨rfl, rfl, rfl, rfl, rfl⟩ ⟨rfl, rfl⟩)

theorem State.slotsResume_keeps {q : List Instr} {j : TapSt} {b : TimeBase} {s : State}  (hs : Keeps q j b s) :
    Keeps q j b (State.slotsResume s) := by
  unfold State.slotsResume
  repeat' first
    | intro _
    | with_reducible assumption
    | with_reducible apply State.set_keeps
    | with_reducible apply State.slotEnter_keeps
    | with_reducible apply State.slotFree_keeps
    | with_reducible apply State.modSlot_keeps
    | with_reducible apply keeps_foldl
    | with_reducible apply keeps_foldl_fst
    | with_reducible apply keeps_ite
    | with_reducible rfl
    | (extract_lets +onlyGivenNames -underBinder x; first | (refine keeps_cut (q := q) (j := j) (b := b) (x := x) ?_ ?_ <;> first | (intro h0; generalize x = y at h0 ⊢; clear x) | intro h0 | subst x) | (have h0 := Nat.zero_le x; generalize x = y at h0 ⊢; clear h0 x) | subst x)
    | split
    | dsimp only
    | (with_reducible refine keeps_mk ?_ ⟨rfl, rfl, rfl, rfl, rfl⟩ ⟨rfl, rfl⟩)

/-! ### Nav -/

theorem State.utcUpdate_keeps {q : List Instr} {j : TapSt} {b : TimeBase} {s : State}  (hs : Keeps q j b s) :
    Keeps q j b (State.utcUpdate s) := by
  unfold State.utcUpdate
  repeat' first
    | intro _
    | with_reducible assumption
    | with_reducible apply State.setB_keeps
    | with_reducible rfl
    | (extract_lets +onlyGivenNames -underBinder x; first | (refine keeps_cut (q := q) (j := j) (b := b) (x := x) ?_ ?_ <;> first | (intro h0; generalize x = y at h0 ⊢; clear x) | intro h0 | subst x) | (have h0 := Nat.zero_le x; generalize x = y at h0 ⊢; clear h0 x) | subst x)
    | dsimp only
    | (with_reducible refine keeps_mk ?_ ⟨rfl, rfl, rfl, rfl, rfl⟩ ⟨rfl, rfl⟩)

theorem State.leapApply_keeps {q : List Instr} {j : TapSt} {b : TimeBase} {s : State}  (hs : Keeps q j b s) :
    Keeps q j b (State.leapApply s) := by
  unfold State.leapApply
  repeat' first
    | intro _
    | with_reducible assumption
    | with_reducible apply State.set_keeps
    | with_reducible apply State.flag_keeps
    | with_reducible apply State.log_keeps
    | with_reducible apply State.setI_keeps
    | with_reducible apply keeps_ite
    | with_reducible rfl
    | (extract_lets +onlyGivenNames -underBinder x; first | (refine keeps_cut (q := q) (j := j) (b := b) (x := x) ?_ ?_ <;> first | (intro h0; generalize x = y at h0 ⊢; clear x) | intro h0 | subst x) | (have h0 := Nat.zero_le x; generalize x = y at h0 ⊢; clear h0 x) | subst x)
    | split
    | dsimp only
    | (with_reducible refine keeps_mk ?_ ⟨rfl, rfl, rfl, rfl, rfl⟩ ⟨rfl, rfl⟩)

theorem State.leapDue_keeps {q : List Instr} {j : TapSt} {b : TimeBase} {s : State}  (hs : Keeps q j b s) :
    Keeps q j b (State.leapDue s) := by
  unfold State.leapDue
  repeat' first
    | intro _
    | with_reducible assumption
    | with_reducible apply State.leapApply_keeps
    | with_reducible apply State.utcUpdate_keeps
    | with_reducible apply keeps_ite
    | with_reducible rfl
    | split
    | dsimp only
    | (with_reducible refine keeps_mk ?_ ⟨rfl, rfl, rfl, rfl, rfl⟩ ⟨rfl, rfl⟩)

theorem State.leapCount_keeps {q : List Instr} {j : TapSt} {b : TimeBase} {s : State} (source : Nat) (offset : Int) (pending : Nat) (leapAt : Nat) (hs : Keeps q j b s) :
    Keeps q j b (State.leapCount s source offset pending leapAt) := by
  unfold State.leapCount
  repeat' first
    | intro _
    | with_reducible assumption
    | with_reducible apply State.set_keeps
    | with_reducible apply State.flag_keeps
    | with_reducible apply State.utcUpdate_keeps
    | with_reducible apply State.setI_keeps
    | with_reducible apply keeps_ite
    | with_reducible rfl
    | (extract_lets +onlyGivenNames -underBinder x; first | (refine keeps_cut (q := q) (j := j) (b := b) (x := x) ?_ ?_ <;> first | (intro h0; generalize x = y at h0 ⊢; clear x) | intro h0 | subst x) | (have h0 := Nat.zero_le x; generalize x = y at h0 ⊢; clear h0 x) | subst x)
    | split
    | dsimp only
    | (with_reducible refine keeps_mk ?_ ⟨rfl, rfl, rfl, rfl, rfl⟩ ⟨rfl, rfl⟩)

theorem State.leapBroadcast_keeps {q : List Instr} {j : TapSt} {b : TimeBase} {s : State} (system : Nat) (offset : Int) (pending : Nat) (leapAt : Nat) (hs : Keeps q j b s) :
    Keeps q j b (State.leapBroadcast s system offset pending leapAt) := by
  unfold State.leapBroadcast
  repeat' first
    | intro _
    | with_reducible assumption
    | with_reducible apply State.flag_keeps
    | with_reducible apply State.leapCount_keeps
    | with_reducible apply keeps_ite
    | with_reducible rfl
    | (extract_lets +onlyGivenNames -underBinder x; first | (refine keeps_cut (q := q) (j := j) (b := b) (x := x) ?_ ?_ <;> first | (intro h0; generalize x = y at h0 ⊢; clear x) | intro h0 | subst x) | (have h0 := Nat.zero_le x; generalize x = y at h0 ⊢; clear h0 x) | subst x)
    | split
    | dsimp only
    | (with_reducible refine keeps_mk ?_ ⟨rfl, rfl, rfl, rfl, rfl⟩ ⟨rfl, rfl⟩)

theorem State.hostLeap_keeps {q : List Instr} {j : TapSt} {b0 : TimeBase} {s : State} (b : List Nat) (hs : Keeps q j b0 s) :
    Keeps q j b0 (State.hostLeap s b) := by
  unfold State.hostLeap
  repeat' first
    | intro _
    | with_reducible assumption
    | with_reducible apply State.leapCount_keeps
    | with_reducible rfl
    | dsimp only
    | (with_reducible refine keeps_mk ?_ ⟨rfl, rfl, rfl, rfl, rfl⟩ ⟨rfl, rfl⟩)

theorem State.leapReset_keeps {q : List Instr} {j : TapSt} {b : TimeBase} {s : State}  (hs : Keeps q j b s) :
    Keeps q j b (State.leapReset s) := by
  unfold State.leapReset
  repeat' first
    | intro _
    | with_reducible assumption
    | with_reducible apply State.set_keeps
    | with_reducible apply State.utcUpdate_keeps
    | with_reducible apply keeps_ite
    | with_reducible rfl
    | (extract_lets +onlyGivenNames -underBinder x; first | (refine keeps_cut (q := q) (j := j) (b := b) (x := x) ?_ ?_ <;> first | (intro h0; generalize x = y at h0 ⊢; clear x) | intro h0 | subst x) | (have h0 := Nat.zero_le x; generalize x = y at h0 ⊢; clear h0 x) | subst x)
    | split
    | dsimp only
    | (with_reducible refine keeps_mk ?_ ⟨rfl, rfl, rfl, rfl, rfl⟩ ⟨rfl, rfl⟩)

theorem State.publish_keeps {q : List Instr} {j : TapSt} {b : TimeBase} {s : State} (n : Nat) (kind : Nat) (start : Option Int) (syms : List Bool) (hs : Keeps q j b s) :
    Keeps q j b (State.publish s n kind start syms) := by
  unfold State.publish
  repeat' first
    | intro _
    | with_reducible assumption
    | with_reducible apply keeps_ite
    | with_reducible rfl
    | split
    | dsimp only
    | (with_reducible refine keeps_mk ?_ ⟨rfl, rfl, rfl, rfl, rfl⟩ ⟨rfl, rfl⟩)

theorem State.symbolsIn_keeps {q : List Instr} {j : TapSt} {b : TimeBase} {s : State} (p : List Nat) (hs : Keeps q j b s) :
    Keeps q j b (State.symbolsIn s p) := by
  unfold State.symbolsIn
  repeat' first
    | intro _
    | with_reducible assumption
    | with_reducible apply State.flag_keeps
    | with_reducible apply keeps_foldl
    | with_reducible apply keeps_foldl_fst
    | with_reducible apply keeps_ite
    | with_reducible rfl
    | (extract_lets +onlyGivenNames -underBinder x; first | (refine keeps_cut (q := q) (j := j) (b := b) (x := x) ?_ ?_ <;> first | (intro h0; generalize x = y at h0 ⊢; clear x) | intro h0 | subst x) | (have h0 := Nat.zero_le x; generalize x = y at h0 ⊢; clear h0 x) | subst x)
    | split
    | dsimp only
    | (with_reducible refine keeps_mk ?_ ⟨rfl, rfl, rfl, rfl, rfl⟩ ⟨rfl, rfl⟩)

theorem State.modStore_keeps {q : List Instr} {j : TapSt} {b : TimeBase} {s : State} (e : Nat) (f : StoreSt → StoreSt) (hs : Keeps q j b s) :
    Keeps q j b (State.modStore s e f) := by
  unfold State.modStore
  repeat' first
    | intro _
    | with_reducible assumption
    | with_reducible apply State.set_keeps
    | with_reducible apply State.reset_keeps
    | with_reducible rfl
    | dsimp only
    | (with_reducible refine keeps_mk ?_ ⟨rfl, rfl, rfl, rfl, rfl⟩ ⟨rfl, rfl⟩)

theorem State.storeShow_keeps {q : List Instr} {j : TapSt} {b : TimeBase} {s : State} (e : Nat) (hs : Keeps q j b s) :
    Keeps q j b (State.storeShow s e) := by
  unfold State.storeShow
  repeat' first
    | intro _
    | with_reducible assumption
    | with_reducible apply State.set_keeps
    | with_reducible rfl
    | (extract_lets +onlyGivenNames -underBinder x; first | (refine keeps_cut (q := q) (j := j) (b := b) (x := x) ?_ ?_ <;> first | (intro h0; generalize x = y at h0 ⊢; clear x) | intro h0 | subst x) | (have h0 := Nat.zero_le x; generalize x = y at h0 ⊢; clear h0 x) | subst x)
    | split
    | dsimp only
    | (with_reducible refine keeps_mk ?_ ⟨rfl, rfl, rfl, rfl, rfl⟩ ⟨rfl, rfl⟩)

theorem State.storeValid_keeps {q : List Instr} {j : TapSt} {b : TimeBase} {s : State} (e : Nat) (flagsOr : Nat) (hs : Keeps q j b s) :
    Keeps q j b (State.storeValid s e flagsOr) := by
  unfold State.storeValid
  repeat' first
    | intro _
    | with_reducible assumption
    | with_reducible apply State.set_keeps
    | with_reducible apply State.modStore_keeps
    | with_reducible apply keeps_foldl
    | with_reducible apply keeps_foldl_fst
    | with_reducible rfl
    | (extract_lets +onlyGivenNames -underBinder x; first | (refine keeps_cut (q := q) (j := j) (b := b) (x := x) ?_ ?_ <;> first | (intro h0; generalize x = y at h0 ⊢; clear x) | intro h0 | subst x) | (have h0 := Nat.zero_le x; generalize x = y at h0 ⊢; clear h0 x) | subst x)
    | dsimp only
    | (with_reducible refine keeps_mk ?_ ⟨rfl, rfl, rfl, rfl, rfl⟩ ⟨rfl, rfl⟩)

theorem State.ephemerisJudge_keeps {q : List Instr} {j : TapSt} {b : TimeBase} {s : State} (e : Nat) (n : Nat) (hs : Keeps q j b s) :
    Keeps q j b (State.ephemerisJudge s e n) := by
  unfold State.ephemerisJudge
  repeat' first
    | intro _
    | with_reducible assumption
    | with_reducible apply State.set_keeps
    | with_reducible apply State.flag_keeps
    | with_reducible apply State.confirm_keeps
    | with_reducible apply State.storeValid_keeps
    | with_reducible apply State.modStore_keeps
    | with_reducible apply keeps_ite
    | with_reducible rfl
    | (extract_lets +onlyGivenNames -underBinder x; first | (refine keeps_cut (q := q) (j := j) (b := b) (x := x) ?_ ?_ <;> first | (intro h0; generalize x = y at h0 ⊢; clear x) | intro h0 | subst x) | (have h0 := Nat.zero_le x; generalize x = y at h0 ⊢; clear h0 x) | subst x)
    | split
    | dsimp only
    | (with_reducible refine keeps_mk ?_ ⟨rfl, rfl, rfl, rfl, rfl⟩ ⟨rfl, rfl⟩)

theorem State.storeJudge_keeps {q : List Instr} {j : TapSt} {b : TimeBase} {s : State} (e : Nat) (hs : Keeps q j b s) :
    Keeps q j b (State.storeJudge s e) := by
  unfold State.storeJudge
  repeat' first
    | intro _
    | with_reducible assumption
    | with_reducible apply State.set_keeps
    | with_reducible apply State.ephemerisJudge_keeps
    | with_reducible apply State.storeValid_keeps
    | with_reducible apply State.storeShow_keeps
    | with_reducible apply State.modStore_keeps
    | with_reducible apply keeps_ite
    | with_reducible rfl
    | (extract_lets +onlyGivenNames -underBinder x; first | (refine keeps_cut (q := q) (j := j) (b := b) (x := x) ?_ ?_ <;> first | (intro h0; generalize x = y at h0 ⊢; clear x) | intro h0 | subst x) | (have h0 := Nat.zero_le x; generalize x = y at h0 ⊢; clear h0 x) | subst x)
    | split
    | dsimp only
    | (with_reducible refine keeps_mk ?_ ⟨rfl, rfl, rfl, rfl, rfl⟩ ⟨rfl, rfl⟩)

theorem State.storePart_keeps {q : List Instr} {j : TapSt} {b : TimeBase} {s : State} (v : Nat) (kind : Nat) (sat : Nat) (issue : Nat) (new : StorePart) (given : Option (Nat × Nat)) (hs : Keeps q j b s) :
    Keeps q j b (State.storePart s v kind sat issue new given) := by
  unfold State.storePart
  repeat' first
    | intro _
    | with_reducible assumption
    | with_reducible apply State.set_keeps
    | with_reducible apply State.flag_keeps
    | with_reducible apply State.storeJudge_keeps
    | with_reducible apply State.modStore_keeps
    | with_reducible apply keeps_foldl
    | with_reducible apply keeps_foldl_fst
    | with_reducible apply keeps_ite
    | with_reducible rfl
    | (extract_lets +onlyGivenNames -underBinder x; first | (refine keeps_cut (q := q) (j := j) (b := b) (x := x) ?_ ?_ <;> first | (intro h0; generalize x = y at h0 ⊢; clear x) | intro h0 | subst x) | (have h0 := Nat.zero_le x; generalize x = y at h0 ⊢; clear h0 x) | subst x)
    | split
    | dsimp only
    | (with_reducible refine keeps_mk ?_ ⟨rfl, rfl, rfl, rfl, rfl⟩ ⟨rfl, rfl⟩)

theorem State.storeMessage_keeps {q : List Instr} {j : TapSt} {b : TimeBase} {s : State} (v : Nat) (sat : Nat) (at_ : Nat) (bits : List Bool) (hs : Keeps q j b s) :
    Keeps q j b (State.storeMessage s v sat at_ bits) := by
  unfold State.storeMessage
  repeat' first
    | intro _
    | with_reducible assumption
    | with_reducible apply State.storePart_keeps
    | with_reducible apply keeps_ite
    | with_reducible rfl
    | (extract_lets +onlyGivenNames -underBinder x; first | (refine keeps_cut (q := q) (j := j) (b := b) (x := x) ?_ ?_ <;> first | (intro h0; generalize x = y at h0 ⊢; clear x) | intro h0 | subst x) | (have h0 := Nat.zero_le x; generalize x = y at h0 ⊢; clear h0 x) | subst x)
    | split
    | dsimp only
    | (with_reducible refine keeps_mk ?_ ⟨rfl, rfl, rfl, rfl, rfl⟩ ⟨rfl, rfl⟩)

theorem State.storePeer_keeps {q : List Instr} {j : TapSt} {b : TimeBase} {s : State} (v : Nat) (kind : Nat) (sat : Nat) (issue : Nat) (content : Nat) (given : Nat × Nat) (hs : Keeps q j b s) :
    Keeps q j b (State.storePeer s v kind sat issue content given) := by
  unfold State.storePeer
  repeat' first
    | intro _
    | with_reducible assumption
    | with_reducible apply State.storePart_keeps
    | with_reducible apply keeps_foldl
    | with_reducible apply keeps_foldl_fst
    | with_reducible apply keeps_ite
    | with_reducible rfl
    | split
    | dsimp only
    | (with_reducible refine keeps_mk ?_ ⟨rfl, rfl, rfl, rfl, rfl⟩ ⟨rfl, rfl⟩)

theorem State.storeExpire_keeps {q : List Instr} {j : TapSt} {b : TimeBase} {s : State} (e : Nat) (hs : Keeps q j b s) :
    Keeps q j b (State.storeExpire s e) := by
  unfold State.storeExpire
  repeat' first
    | intro _
    | with_reducible assumption
    | with_reducible apply State.set_keeps
    | with_reducible apply keeps_ite
    | with_reducible rfl
    | (extract_lets +onlyGivenNames -underBinder x; first | (refine keeps_cut (q := q) (j := j) (b := b) (x := x) ?_ ?_ <;> first | (intro h0; generalize x = y at h0 ⊢; clear x) | intro h0 | subst x) | (have h0 := Nat.zero_le x; generalize x = y at h0 ⊢; clear h0 x) | subst x)
    | split
    | dsimp only
    | (with_reducible refine keeps_mk ?_ ⟨rfl, rfl, rfl, rfl, rfl⟩ ⟨rfl, rfl⟩)

theorem State.messageIn_keeps {q : List Instr} {j : TapSt} {b : TimeBase} {s : State} (n : Nat) (per : Int) (inverted : Bool) (bits : List Bool) (rxAt : Nat) (hs : Keeps q j b s) :
    Keeps q j b (State.messageIn s n per inverted bits rxAt) := by
  unfold State.messageIn
  repeat' first
    | intro _
    | with_reducible assumption
    | with_reducible apply State.set_keeps
    | with_reducible apply State.modSlot_keeps
    | with_reducible apply State.count_keeps
    | with_reducible rfl
    | (extract_lets +onlyGivenNames -underBinder x; first | (refine keeps_cut (q := q) (j := j) (b := b) (x := x) ?_ ?_ <;> first | (intro h0; generalize x = y at h0 ⊢; clear x) | intro h0 | subst x) | (have h0 := Nat.zero_le x; generalize x = y at h0 ⊢; clear h0 x) | subst x)
    | split
    | dsimp only
    | (with_reducible refine keeps_mk ?_ ⟨rfl, rfl, rfl, rfl, rfl⟩ ⟨rfl, rfl⟩)

theorem State.messageStore_keeps {q : List Instr} {j : TapSt} {b : TimeBase} {s : State} (i : NavIn) (hs : Keeps q j b s) :
    Keeps q j b (State.messageStore s i) := by
  unfold State.messageStore
  repeat' first
    | intro _
    | with_reducible assumption
    | with_reducible apply State.storeMessage_keeps
    | with_reducible apply State.publish_keeps
    | with_reducible apply State.leapBroadcast_keeps
    | with_reducible apply State.append_keeps
    | with_reducible apply State.count_keeps
    | with_reducible apply State.setI_keeps
    | with_reducible apply keeps_ite
    | with_reducible rfl
    | (extract_lets +onlyGivenNames -underBinder x; first | (refine keeps_cut (q := q) (j := j) (b := b) (x := x) ?_ ?_ <;> first | (intro h0; generalize x = y at h0 ⊢; clear x) | intro h0 | subst x) | (have h0 := Nat.zero_le x; generalize x = y at h0 ⊢; clear h0 x) | subst x)
    | split
    | dsimp only
    | (with_reducible refine keeps_mk ?_ ⟨rfl, rfl, rfl, rfl, rfl⟩ ⟨rfl, rfl⟩)

theorem State.storeFlush_keeps {q : List Instr} {j : TapSt} {b : TimeBase} {s : State}  (hs : Keeps q j b s) :
    Keeps q j b (State.storeFlush s) := by
  unfold State.storeFlush
  repeat' first
    | intro _
    | with_reducible assumption
    | with_reducible apply State.messageStore_keeps
    | with_reducible apply keeps_foldl
    | with_reducible apply keeps_foldl_fst
    | with_reducible rfl
    | (extract_lets +onlyGivenNames -underBinder x; first | (refine keeps_cut (q := q) (j := j) (b := b) (x := x) ?_ ?_ <;> first | (intro h0; generalize x = y at h0 ⊢; clear x) | intro h0 | subst x) | (have h0 := Nat.zero_le x; generalize x = y at h0 ⊢; clear h0 x) | subst x)
    | dsimp only
    | (with_reducible refine keeps_mk ?_ ⟨rfl, rfl, rfl, rfl, rfl⟩ ⟨rfl, rfl⟩)

theorem State.candShow_keeps {q : List Instr} {j : TapSt} {b : TimeBase} {s : State} (n : Nat) (hs : Keeps q j b s) :
    Keeps q j b (State.candShow s n) := by
  unfold State.candShow
  repeat' first
    | intro _
    | with_reducible assumption
    | with_reducible apply State.set_keeps
    | with_reducible apply keeps_ite
    | with_reducible rfl
    | (extract_lets +onlyGivenNames -underBinder x; first | (refine keeps_cut (q := q) (j := j) (b := b) (x := x) ?_ ?_ <;> first | (intro h0; generalize x = y at h0 ⊢; clear x) | intro h0 | subst x) | (have h0 := Nat.zero_le x; generalize x = y at h0 ⊢; clear h0 x) | subst x)
    | split
    | dsimp only
    | (with_reducible refine keeps_mk ?_ ⟨rfl, rfl, rfl, rfl, rfl⟩ ⟨rfl, rfl⟩)

theorem State.candDrop_keeps {q : List Instr} {j : TapSt} {b : TimeBase} {s : State} (n : Nat) (pos : Nat) (hs : Keeps q j b s) :
    Keeps q j b (State.candDrop s n pos) := by
  unfold State.candDrop
  repeat' first
    | intro _
    | with_reducible assumption
    | with_reducible apply State.bump_keeps
    | with_reducible apply State.candShow_keeps
    | with_reducible apply State.modSlot_keeps
    | with_reducible rfl
    | (extract_lets +onlyGivenNames -underBinder x; first | (refine keeps_cut (q := q) (j := j) (b := b) (x := x) ?_ ?_ <;> first | (intro h0; generalize x = y at h0 ⊢; clear x) | intro h0 | subst x) | (have h0 := Nat.zero_le x; generalize x = y at h0 ⊢; clear h0 x) | subst x)
    | dsimp only
    | (with_reducible refine keeps_mk ?_ ⟨rfl, rfl, rfl, rfl, rfl⟩ ⟨rfl, rfl⟩)

theorem State.frameLose_keeps {q : List Instr} {j : TapSt} {b : TimeBase} {s : State} (n : Nat) (hs : Keeps q j b s) :
    Keeps q j b (State.frameLose s n) := by
  unfold State.frameLose
  repeat' first
    | intro _
    | with_reducible assumption
    | with_reducible apply State.set_keeps
    | with_reducible apply State.candShow_keeps
    | with_reducible apply State.modSlot_keeps
    | with_reducible rfl
    | dsimp only
    | (with_reducible refine keeps_mk ?_ ⟨rfl, rfl, rfl, rfl, rfl⟩ ⟨rfl, rfl⟩)

theorem State.frameFail_keeps {q : List Instr} {j : TapSt} {b : TimeBase} {s : State} (n : Nat) (hs : Keeps q j b s) :
    Keeps q j b (State.frameFail s n) := by
  unfold State.frameFail
  repeat' first
    | intro _
    | with_reducible assumption
    | with_reducible apply State.flag_keeps
    | with_reducible apply State.bump_keeps
    | with_reducible apply State.frameLose_keeps
    | with_reducible apply State.modSlot_keeps
    | with_reducible apply keeps_ite
    | with_reducible rfl
    | (extract_lets +onlyGivenNames -underBinder x; first | (refine keeps_cut (q := q) (j := j) (b := b) (x := x) ?_ ?_ <;> first | (intro h0; generalize x = y at h0 ⊢; clear x) | intro h0 | subst x) | (have h0 := Nat.zero_le x; generalize x = y at h0 ⊢; clear h0 x) | subst x)
    | split
    | dsimp only
    | (with_reducible refine keeps_mk ?_ ⟨rfl, rfl, rfl, rfl, rfl⟩ ⟨rfl, rfl⟩)

theorem State.frameConfirm_keeps {q : List Instr} {j : TapSt} {b : TimeBase} {s : State} (n : Nat) (c : NavCand) (pos : Nat) (hs : Keeps q j b s) :
    Keeps q j b (State.frameConfirm s n c pos) := by
  unfold State.frameConfirm
  repeat' first
    | intro _
    | with_reducible assumption
    | with_reducible apply State.set_keeps
    | with_reducible apply State.candShow_keeps
    | with_reducible apply State.messageIn_keeps
    | with_reducible apply State.putLock_keeps
    | with_reducible apply State.modSlot_keeps
    | with_reducible apply State.setI_keeps
    | with_reducible apply keeps_ite
    | with_reducible rfl
    | (extract_lets +onlyGivenNames -underBinder x; first | (refine keeps_cut (q := q) (j := j) (b := b) (x := x) ?_ ?_ <;> first | (intro h0; generalize x = y at h0 ⊢; clear x) | intro h0 | subst x) | (have h0 := Nat.zero_le x; generalize x = y at h0 ⊢; clear h0 x) | subst x)
    | split
    | dsimp only
    | (with_reducible refine keeps_mk ?_ ⟨rfl, rfl, rfl, rfl, rfl⟩ ⟨rfl, rfl⟩)

theorem State.candFirst_keeps {q : List Instr} {j : TapSt} {b : TimeBase} {s : State} (n : Nat) (pos : Nat) (inverted : Bool) (hs : Keeps q j b s) :
    Keeps q j b (State.candFirst s n pos inverted) := by
  unfold State.candFirst
  repeat' first
    | intro _
    | with_reducible assumption
    | with_reducible apply State.frameConfirm_keeps
    | with_reducible rfl
    | (extract_lets +onlyGivenNames -underBinder x; first | (refine keeps_cut (q := q) (j := j) (b := b) (x := x) ?_ ?_ <;> first | (intro h0; generalize x = y at h0 ⊢; clear x) | intro h0 | subst x) | (have h0 := Nat.zero_le x; generalize x = y at h0 ⊢; clear h0 x) | subst x)
    | split
    | dsimp only
    | (with_reducible refine keeps_mk ?_ ⟨rfl, rfl, rfl, rfl, rfl⟩ ⟨rfl, rfl⟩)

theorem State.candMod_keeps {q : List Instr} {j : TapSt} {b : TimeBase} {s : State} (n : Nat) (pos : Nat) (f : NavCand → NavCand) (hs : Keeps q j b s) :
    Keeps q j b (State.candMod s n pos f) := by
  unfold State.candMod
  repeat' first
    | intro _
    | with_reducible assumption
    | with_reducible apply State.candShow_keeps
    | with_reducible apply State.modSlot_keeps
    | with_reducible apply keeps_ite
    | with_reducible rfl
    | split
    | dsimp only
    | (with_reducible refine keeps_mk ?_ ⟨rfl, rfl, rfl, rfl, rfl⟩ ⟨rfl, rfl⟩)

theorem State.checkEnd_keeps {q : List Instr} {j : TapSt} {b : TimeBase} {s : State} (n : Nat) (stage : Nat) (pos : Nat) (inverted : Bool) (got : Option (List Bool)) (at_ : Nat) (hs : Keeps q j b s) :
    Keeps q j b (State.checkEnd s n stage pos inverted got at_) := by
  unfold State.checkEnd
  repeat' first
    | intro _
    | with_reducible assumption
    | with_reducible apply State.candMod_keeps
    | with_reducible apply State.candFirst_keeps
    | with_reducible apply State.frameFail_keeps
    | with_reducible apply State.candDrop_keeps
    | with_reducible apply State.messageIn_keeps
    | with_reducible apply State.modSlot_keeps
    | with_reducible apply keeps_ite
    | with_reducible rfl
    | (extract_lets +onlyGivenNames -underBinder x; first | (refine keeps_cut (q := q) (j := j) (b := b) (x := x) ?_ ?_ <;> first | (intro h0; generalize x = y at h0 ⊢; clear x) | intro h0 | subst x) | (have h0 := Nat.zero_le x; generalize x = y at h0 ⊢; clear h0 x) | subst x)
    | split
    | dsimp only
    | (with_reducible refine keeps_mk ?_ ⟨rfl, rfl, rfl, rfl, rfl⟩ ⟨rfl, rfl⟩)

theorem State.jobPut_keeps {q : List Instr} {j0 : TapSt} {b : TimeBase} {s : State} (d : Nat) (j : NavJob) (hs : Keeps q j0 b s) :
    Keeps q j0 b (State.jobPut s d j) := by
  unfold State.jobPut
  repeat' first
    | intro _
    | with_reducible assumption
    | with_reducible apply State.flag_keeps
    | with_reducible apply State.checkEnd_keeps
    | with_reducible apply keeps_ite
    | with_reducible rfl
    | (extract_lets +onlyGivenNames -underBinder x; first | (refine keeps_cut (q := q) (j := j0) (b := b) (x := x) ?_ ?_ <;> first | (intro h0; generalize x = y at h0 ⊢; clear x) | intro h0 | subst x) | (have h0 := Nat.zero_le x; generalize x = y at h0 ⊢; clear h0 x) | subst x)
    | split
    | dsimp only
    | (with_reducible refine keeps_mk ?_ ⟨rfl, rfl, rfl, rfl, rfl⟩ ⟨rfl, rfl⟩)

theorem State.checkBegin_keeps {q : List Instr} {j : TapSt} {b : TimeBase} {s : State} (n : Nat) (i : Nat) (pos : Nat) (inverted : Bool) (hs : Keeps q j b s) :
    Keeps q j b (State.checkBegin s n i pos inverted) := by
  unfold State.checkBegin
  repeat' first
    | intro _
    | with_reducible assumption
    | with_reducible apply State.jobPut_keeps
    | with_reducible apply State.checkEnd_keeps
    | with_reducible rfl
    | (extract_lets +onlyGivenNames -underBinder x; first | (refine keeps_cut (q := q) (j := j) (b := b) (x := x) ?_ ?_ <;> first | (intro h0; generalize x = y at h0 ⊢; clear x) | intro h0 | subst x) | (have h0 := Nat.zero_le x; generalize x = y at h0 ⊢; clear h0 x) | subst x)
    | split
    | dsimp only
    | (with_reducible refine keeps_mk ?_ ⟨rfl, rfl, rfl, rfl, rfl⟩ ⟨rfl, rfl⟩)

theorem State.candOpen_keeps {q : List Instr} {j : TapSt} {b : TimeBase} {s : State} (n : Nat) (pos : Nat) (inverted : Bool) (hs : Keeps q j b s) :
    Keeps q j b (State.candOpen s n pos inverted) := by
  unfold State.candOpen
  repeat' first
    | intro _
    | with_reducible assumption
    | with_reducible apply State.candShow_keeps
    | with_reducible apply State.modSlot_keeps
    | with_reducible apply keeps_ite
    | with_reducible rfl
    | (extract_lets +onlyGivenNames -underBinder x; first | (refine keeps_cut (q := q) (j := j) (b := b) (x := x) ?_ ?_ <;> first | (intro h0; generalize x = y at h0 ⊢; clear x) | intro h0 | subst x) | (have h0 := Nat.zero_le x; generalize x = y at h0 ⊢; clear h0 x) | subst x)
    | split
    | dsimp only
    | (with_reducible refine keeps_mk ?_ ⟨rfl, rfl, rfl, rfl, rfl⟩ ⟨rfl, rfl⟩)

theorem State.alignedSee_keeps {q : List Instr} {j : TapSt} {b : TimeBase} {s : State} (n : Nat) (p : Nat) (hs : Keeps q j b s) :
    Keeps q j b (State.alignedSee s n p) := by
  unfold State.alignedSee
  repeat' first
    | intro _
    | with_reducible assumption
    | with_reducible apply State.set_keeps
    | with_reducible apply State.checkBegin_keeps
    | with_reducible apply State.frameLose_keeps
    | with_reducible apply State.modSlot_keeps
    | with_reducible apply keeps_ite
    | with_reducible rfl
    | (extract_lets +onlyGivenNames -underBinder x; first | (refine keeps_cut (q := q) (j := j) (b := b) (x := x) ?_ ?_ <;> first | (intro h0; generalize x = y at h0 ⊢; clear x) | intro h0 | subst x) | (have h0 := Nat.zero_le x; generalize x = y at h0 ⊢; clear h0 x) | subst x)
    | split
    | dsimp only
    | (with_reducible refine keeps_mk ?_ ⟨rfl, rfl, rfl, rfl, rfl⟩ ⟨rfl, rfl⟩)

theorem State.searchSee_keeps {q : List Instr} {j : TapSt} {b : TimeBase} {s : State} (n : Nat) (p : Nat) (start : Bool) (hs : Keeps q j b s) :
    Keeps q j b (State.searchSee s n p start) := by
  unfold State.searchSee
  repeat' first
    | intro _
    | with_reducible assumption
    | with_reducible apply State.candOpen_keeps
    | with_reducible apply State.checkBegin_keeps
    | with_reducible apply State.candDrop_keeps
    | with_reducible apply keeps_foldl
    | with_reducible apply keeps_foldl_fst
    | with_reducible apply keeps_ite
    | with_reducible rfl
    | (extract_lets +onlyGivenNames -underBinder x; first | (refine keeps_cut (q := q) (j := j) (b := b) (x := x) ?_ ?_ <;> first | (intro h0; generalize x = y at h0 ⊢; clear x) | intro h0 | subst x) | (have h0 := Nat.zero_le x; generalize x = y at h0 ⊢; clear h0 x) | subst x)
    | split
    | dsimp only
    | (with_reducible refine keeps_mk ?_ ⟨rfl, rfl, rfl, rfl, rfl⟩ ⟨rfl, rfl⟩)

theorem State.streamSee_keeps {q : List Instr} {j : TapSt} {b : TimeBase} {s : State} (n : Nat) (y : SoftSym) (start : Bool) (hs : Keeps q j b s) :
    Keeps q j b (State.streamSee s n y start) := by
  unfold State.streamSee
  repeat' first
    | intro _
    | with_reducible assumption
    | with_reducible apply State.searchSee_keeps
    | with_reducible apply State.alignedSee_keeps
    | with_reducible apply State.modSlot_keeps
    | with_reducible apply keeps_ite
    | with_reducible rfl
    | (extract_lets +onlyGivenNames -underBinder x; first | (refine keeps_cut (q := q) (j := j) (b := b) (x := x) ?_ ?_ <;> first | (intro h0; generalize x = y at h0 ⊢; clear x) | intro h0 | subst x) | (have h0 := Nat.zero_le x; generalize x = y at h0 ⊢; clear h0 x) | subst x)
    | split
    | dsimp only
    | (with_reducible refine keeps_mk ?_ ⟨rfl, rfl, rfl, rfl, rfl⟩ ⟨rfl, rfl⟩)

theorem State.symbolPut_keeps {q : List Instr} {j : TapSt} {b : TimeBase} {s : State} (n : Nat) (per : Int) (y : SoftSym) (start : Bool) (hs : Keeps q j b s) :
    Keeps q j b (State.symbolPut s n per y start) := by
  unfold State.symbolPut
  repeat' first
    | intro _
    | with_reducible assumption
    | with_reducible apply State.set_keeps
    | with_reducible apply State.streamSee_keeps
    | with_reducible apply State.jobPut_keeps
    | with_reducible apply State.publish_keeps
    | with_reducible apply State.modSlot_keeps
    | with_reducible apply keeps_ite
    | with_reducible rfl
    | (extract_lets +onlyGivenNames -underBinder x; first | (refine keeps_cut (q := q) (j := j) (b := b) (x := x) ?_ ?_ <;> first | (intro h0; generalize x = y at h0 ⊢; clear x) | intro h0 | subst x) | (have h0 := Nat.zero_le x; generalize x = y at h0 ⊢; clear h0 x) | subst x)
    | split
    | dsimp only
    | (with_reducible refine keeps_mk ?_ ⟨rfl, rfl, rfl, rfl, rfl⟩ ⟨rfl, rfl⟩)

theorem State.symbolGap_keeps {q : List Instr} {j : TapSt} {b : TimeBase} {s : State} (n : Nat) (k : Nat) (hs : Keeps q j b s) :
    Keeps q j b (State.symbolGap s n k) := by
  unfold State.symbolGap
  repeat' first
    | intro _
    | with_reducible assumption
    | with_reducible apply State.modSlot_keeps
    | with_reducible apply keeps_ite
    | with_reducible rfl
    | (extract_lets +onlyGivenNames -underBinder x; first | (refine keeps_cut (q := q) (j := j) (b := b) (x := x) ?_ ?_ <;> first | (intro h0; generalize x = y at h0 ⊢; clear x) | intro h0 | subst x) | (have h0 := Nat.zero_le x; generalize x = y at h0 ⊢; clear h0 x) | subst x)
    | split
    | dsimp only
    | (with_reducible refine keeps_mk ?_ ⟨rfl, rfl, rfl, rfl, rfl⟩ ⟨rfl, rfl⟩)

theorem State.symbolFill_keeps {q : List Instr} {j : TapSt} {b : TimeBase} {s : State} (n : Nat) (k : Nat) (at_ : Nat) (hs : Keeps q j b s) :
    Keeps q j b (State.symbolFill s n k at_) := by
  unfold State.symbolFill
  repeat' first
    | intro _
    | with_reducible assumption
    | with_reducible apply State.symbolGap_keeps
    | with_reducible apply State.symbolPut_keeps
    | with_reducible apply keeps_foldl
    | with_reducible apply keeps_foldl_fst
    | with_reducible apply keeps_ite
    | with_reducible rfl
    | (extract_lets +onlyGivenNames -underBinder x; first | (refine keeps_cut (q := q) (j := j) (b := b) (x := x) ?_ ?_ <;> first | (intro h0; generalize x = y at h0 ⊢; clear x) | intro h0 | subst x) | (have h0 := Nat.zero_le x; generalize x = y at h0 ⊢; clear h0 x) | subst x)
    | split
    | dsimp only
    | (with_reducible refine keeps_mk ?_ ⟨rfl, rfl, rfl, rfl, rfl⟩ ⟨rfl, rfl⟩)

theorem State.symbolSee_keeps {q : List Instr} {j : TapSt} {b : TimeBase} {s : State} (n : Nat) (e : Dump) (hs : Keeps q j b s) :
    Keeps q j b (State.symbolSee s n e) := by
  unfold State.symbolSee
  repeat' first
    | intro _
    | with_reducible assumption
    | with_reducible apply State.symbolFill_keeps
    | with_reducible apply State.symbolPut_keeps
    | with_reducible apply State.modSlot_keeps
    | with_reducible apply keeps_ite
    | with_reducible rfl
    | (extract_lets +onlyGivenNames -underBinder x; first | (refine keeps_cut (q := q) (j := j) (b := b) (x := x) ?_ ?_ <;> first | (intro h0; generalize x = y at h0 ⊢; clear x) | intro h0 | subst x) | (have h0 := Nat.zero_le x; generalize x = y at h0 ⊢; clear h0 x) | subst x)
    | split
    | dsimp only
    | (with_reducible refine keeps_mk ?_ ⟨rfl, rfl, rfl, rfl, rfl⟩ ⟨rfl, rfl⟩)

theorem State.trellisEnd_keeps {q : List Instr} {j0 : TapSt} {b : TimeBase} {s : State} (j : NavJob) (hs : Keeps q j0 b s) :
    Keeps q j0 b (State.trellisEnd s j) := by
  unfold State.trellisEnd
  repeat' first
    | intro _
    | with_reducible assumption
    | with_reducible apply State.streamSee_keeps
    | with_reducible apply State.modSlot_keeps
    | with_reducible apply keeps_foldl
    | with_reducible apply keeps_foldl_fst
    | with_reducible apply keeps_ite
    | with_reducible rfl
    | (extract_lets +onlyGivenNames -underBinder x; first | (refine keeps_cut (q := q) (j := j0) (b := b) (x := x) ?_ ?_ <;> first | (intro h0; generalize x = y at h0 ⊢; clear x) | intro h0 | subst x) | (have h0 := Nat.zero_le x; generalize x = y at h0 ⊢; clear h0 x) | subst x)
    | split
    | dsimp only
    | (with_reducible refine keeps_mk ?_ ⟨rfl, rfl, rfl, rfl, rfl⟩ ⟨rfl, rfl⟩)

theorem State.decodeComplete_keeps {q : List Instr} {j : TapSt} {b : TimeBase} {s : State} (d : Nat) (hs : Keeps q j b s) :
    Keeps q j b (State.decodeComplete s d) := by
  unfold State.decodeComplete
  repeat' first
    | intro _
    | with_reducible assumption
    | with_reducible apply State.trellisEnd_keeps
    | with_reducible apply State.jobPut_keeps
    | with_reducible apply State.checkEnd_keeps
    | with_reducible apply keeps_ite
    | with_reducible rfl
    | (extract_lets +onlyGivenNames -underBinder x; first | (refine keeps_cut (q := q) (j := j) (b := b) (x := x) ?_ ?_ <;> first | (intro h0; generalize x = y at h0 ⊢; clear x) | intro h0 | subst x) | (have h0 := Nat.zero_le x; generalize x = y at h0 ⊢; clear h0 x) | subst x)
    | split
    | dsimp only
    | (with_reducible refine keeps_mk ?_ ⟨rfl, rfl, rfl, rfl, rfl⟩ ⟨rfl, rfl⟩)

theorem State.predictedBlock_keeps {q : List Instr} {j : TapSt} {b : TimeBase} {s : State} (n : Nat) (e : Nat) (part : Nat) (start : Nat) (hs : Keeps q j b s) :
    Keeps q j b (State.predictedBlock s n e part start) := by
  unfold State.predictedBlock
  repeat' first
    | intro _
    | with_reducible assumption
    | with_reducible apply State.publish_keeps
    | with_reducible apply keeps_ite
    | with_reducible rfl
    | (extract_lets +onlyGivenNames -underBinder x; first | (refine keeps_cut (q := q) (j := j) (b := b) (x := x) ?_ ?_ <;> first | (intro h0; generalize x = y at h0 ⊢; clear x) | intro h0 | subst x) | (have h0 := Nat.zero_le x; generalize x = y at h0 ⊢; clear h0 x) | subst x)
    | split
    | dsimp only
    | (with_reducible refine keeps_mk ?_ ⟨rfl, rfl, rfl, rfl, rfl⟩ ⟨rfl, rfl⟩)

theorem State.navTick_keeps {q : List Instr} {j : TapSt} {b : TimeBase} {s : State}  (hs : Keeps q j b s) :
    Keeps q j b (State.navTick s) := by
  unfold State.navTick
  repeat' first
    | intro _
    | with_reducible assumption
    | with_reducible apply State.set_keeps
    | with_reducible apply State.modSlot_keeps
    | with_reducible apply keeps_foldl
    | with_reducible apply keeps_foldl_fst
    | with_reducible apply keeps_ite
    | with_reducible rfl
    | (extract_lets +onlyGivenNames -underBinder x; first | (refine keeps_cut (q := q) (j := j) (b := b) (x := x) ?_ ?_ <;> first | (intro h0; generalize x = y at h0 ⊢; clear x) | intro h0 | subst x) | (have h0 := Nat.zero_le x; generalize x = y at h0 ⊢; clear h0 x) | subst x)
    | split
    | dsimp only
    | (with_reducible refine keeps_mk ?_ ⟨rfl, rfl, rfl, rfl, rfl⟩ ⟨rfl, rfl⟩)

theorem State.navReset_keeps {q : List Instr} {j : TapSt} {b : TimeBase} {s : State}  (hs : Keeps q j b s) :
    Keeps q j b (State.navReset s) := by
  unfold State.navReset
  repeat' first
    | intro _
    | with_reducible assumption
    | with_reducible apply State.setStream_keeps
    | with_reducible rfl
    | (extract_lets +onlyGivenNames -underBinder x; first | (refine keeps_cut (q := q) (j := j) (b := b) (x := x) ?_ ?_ <;> first | (intro h0; generalize x = y at h0 ⊢; clear x) | intro h0 | subst x) | (have h0 := Nat.zero_le x; generalize x = y at h0 ⊢; clear h0 x) | subst x)
    | dsimp only
    | (with_reducible refine keeps_mk ?_ ⟨rfl, rfl, rfl, rfl, rfl⟩ ⟨rfl, rfl⟩)

/-! ### Loops -/

theorem State.updateJudge_keeps {q : List Instr} {j : TapSt} {b : TimeBase} {s : State} (n : Nat) (u : LoopSums) (ep : Int) (hs : Keeps q j b s) :
    Keeps q j b (State.updateJudge s n u ep) := by
  unfold State.updateJudge
  repeat' first
    | intro _
    | with_reducible assumption
    | with_reducible apply State.bumpJudge_keeps
    | with_reducible apply State.mmJudge_keeps
    | with_reducible apply State.cnoJudge_keeps
    | with_reducible apply State.pliJudge_keeps
    | with_reducible apply State.slip_keeps
    | with_reducible apply keeps_ite
    | with_reducible rfl
    | (extract_lets +onlyGivenNames -underBinder x; first | (refine keeps_cut (q := q) (j := j) (b := b) (x := x) ?_ ?_ <;> first | (intro h0; generalize x = y at h0 ⊢; clear x) | intro h0 | subst x) | (have h0 := Nat.zero_le x; generalize x = y at h0 ⊢; clear h0 x) | subst x)
    | (with_reducible refine keeps_fst (by with_reducible assumption) ?_)
    | (with_reducible refine keeps_snd (by with_reducible assumption) ?_)
    | split
    | dsimp only
    | (with_reducible refine keeps_mk ?_ ⟨rfl, rfl, rfl, rfl, rfl⟩ ⟨rfl, rfl⟩)

theorem State.loopPut_keeps {q : List Instr} {j : TapSt} {b : TimeBase} {s : State} (n : Nat) (cl : Int × Int) (ca : Int × Int × Int) (p : Int × Int) (hs : Keeps q j b s) :
    Keeps q j b (State.loopPut s n cl ca p) := by
  unfold State.loopPut
  repeat' first
    | intro _
    | with_reducible assumption
    | with_reducible apply State.ncoPut_keeps
    | with_reducible apply State.modSlot_keeps
    | with_reducible rfl
    | (extract_lets +onlyGivenNames -underBinder x; first | (refine keeps_cut (q := q) (j := j) (b := b) (x := x) ?_ ?_ <;> first | (intro h0; generalize x = y at h0 ⊢; clear x) | intro h0 | subst x) | (have h0 := Nat.zero_le x; generalize x = y at h0 ⊢; clear h0 x) | subst x)
    | dsimp only
    | (with_reducible refine keeps_mk ?_ ⟨rfl, rfl, rfl, rfl, rfl⟩ ⟨rfl, rfl⟩)

theorem State.loopClose_keeps {q : List Instr} {j : TapSt} {b : TimeBase} {s : State} (n : Nat) (u : LoopSums) (hs : Keeps q j b s) :
    Keeps q j b (State.loopClose s n u) := by
  unfold State.loopClose
  repeat' first
    | intro _
    | with_reducible assumption
    | with_reducible apply State.loopPut_keeps
    | with_reducible apply State.updateJudge_keeps
    | with_reducible apply State.takeFree_keeps
    | with_reducible apply keeps_ite
    | with_reducible rfl
    | (extract_lets +onlyGivenNames -underBinder x; first | (refine keeps_cut (q := q) (j := j) (b := b) (x := x) ?_ ?_ <;> first | (intro h0; generalize x = y at h0 ⊢; clear x) | intro h0 | subst x) | (have h0 := Nat.zero_le x; generalize x = y at h0 ⊢; clear h0 x) | subst x)
    | split
    | dsimp only
    | (with_reducible refine keeps_mk ?_ ⟨rfl, rfl, rfl, rfl, rfl⟩ ⟨rfl, rfl⟩)

theorem State.loopUpdate_keeps {q : List Instr} {j : TapSt} {b : TimeBase} {s : State} (n : Nat) (hs : Keeps q j b s) :
    Keeps q j b (State.loopUpdate s n) := by
  unfold State.loopUpdate
  repeat' first
    | intro _
    | with_reducible assumption
    | with_reducible apply State.set_keeps
    | with_reducible apply State.loopClose_keeps
    | with_reducible apply State.symbolSee_keeps
    | with_reducible apply State.syncSee_keeps
    | with_reducible apply State.slotJudge_keeps
    | with_reducible apply State.fallback_keeps
    | with_reducible apply State.aidBits_keeps
    | with_reducible apply State.modSlot_keeps
    | with_reducible apply keeps_foldl
    | with_reducible apply keeps_foldl_fst
    | with_reducible apply keeps_ite
    | with_reducible rfl
    | (extract_lets +onlyGivenNames -underBinder x; first | (refine keeps_cut (q := q) (j := j) (b := b) (x := x) ?_ ?_ <;> first | (intro h0; generalize x = y at h0 ⊢; clear x) | intro h0 | subst x) | (have h0 := Nat.zero_le x; generalize x = y at h0 ⊢; clear h0 x) | subst x)
    | split
    | dsimp only
    | (with_reducible refine keeps_mk ?_ ⟨rfl, rfl, rfl, rfl, rfl⟩ ⟨rfl, rfl⟩)

theorem State.windowClose_keeps {q : List Instr} {j : TapSt} {b : TimeBase} {s : State} (n : Nat) (act : Nat) (u : LoopSums) (hs : Keeps q j b s) :
    Keeps q j b (State.windowClose s n act u) := by
  unfold State.windowClose
  repeat' first
    | intro _
    | with_reducible assumption
    | with_reducible apply State.loopPut_keeps
    | with_reducible apply State.updateJudge_keeps
    | with_reducible apply State.takeFree_keeps
    | with_reducible apply keeps_ite
    | with_reducible rfl
    | (extract_lets +onlyGivenNames -underBinder x; first | (refine keeps_cut (q := q) (j := j) (b := b) (x := x) ?_ ?_ <;> first | (intro h0; generalize x = y at h0 ⊢; clear x) | intro h0 | subst x) | (have h0 := Nat.zero_le x; generalize x = y at h0 ⊢; clear h0 x) | subst x)
    | split
    | dsimp only
    | (with_reducible refine keeps_mk ?_ ⟨rfl, rfl, rfl, rfl, rfl⟩ ⟨rfl, rfl⟩)

theorem State.aidedWindow_keeps {q : List Instr} {j : TapSt} {b : TimeBase} {s : State} (n : Nat) (hs : Keeps q j b s) :
    Keeps q j b (State.aidedWindow s n) := by
  unfold State.aidedWindow
  repeat' first
    | intro _
    | with_reducible assumption
    | with_reducible apply State.set_keeps
    | with_reducible apply State.windowClose_keeps
    | with_reducible apply State.slotJudge_keeps
    | with_reducible apply State.aidBits_keeps
    | with_reducible apply State.modSlot_keeps
    | with_reducible apply keeps_ite
    | with_reducible rfl
    | (extract_lets +onlyGivenNames -underBinder x; first | (refine keeps_cut (q := q) (j := j) (b := b) (x := x) ?_ ?_ <;> first | (intro h0; generalize x = y at h0 ⊢; clear x) | intro h0 | subst x) | (have h0 := Nat.zero_le x; generalize x = y at h0 ⊢; clear h0 x) | subst x)
    | split
    | dsimp only
    | (with_reducible refine keeps_mk ?_ ⟨rfl, rfl, rfl, rfl, rfl⟩ ⟨rfl, rfl⟩)

end Sys2Proof.Machine
end

