-- ==== Sys2Proof/Laws/KeepsRadio.lean ====
section
/-!
SUPPORT. What the operations keep: the outputs, the reader and the ports.
-/

set_option linter.all false
set_option Elab.async false

namespace Sys2Proof.Machine

/-! ### Outputs -/

theorem State.delayChoose_keeps {q : List Instr} {j : TapSt} {b : TimeBase} {s : State} (k : Nat) (hs : Keeps q j b s) :
    Keeps q j b (State.delayChoose s k) := by
  unfold State.delayChoose
  repeat' first
    | intro _
    | with_reducible assumption
    | with_reducible apply State.set_keeps
    | with_reducible apply keeps_ite
    | with_reducible rfl
    | (extract_lets +onlyGivenNames -underBinder x; first | (refine keeps_cut (q := q) (j := j) (b := b) (x := x) ?_ ?_ <;> first | (intro h0; generalize x = y at h0 ⊢; clear x) | intro h0 | subst x) | (have h0 := Nat.zero_le x; generalize x = y at h0 ⊢; clear h0 x) | subst x)
    | split
    | dsimp only
    | (with_reducible refine keeps_mk ?_ ⟨rfl, rfl, rfl, rfl, rfl⟩ ⟨rfl, rfl⟩)

theorem State.delaySlew_keeps {q : List Instr} {j : TapSt} {b : TimeBase} {s : State} (k : Nat) (hs : Keeps q j b s) :
    Keeps q j b (State.delaySlew s k) := by
  unfold State.delaySlew
  repeat' first
    | intro _
    | with_reducible assumption
    | with_reducible apply State.set_keeps
    | with_reducible apply State.log_keeps
    | with_reducible apply State.setI_keeps
    | with_reducible apply keeps_ite
    | with_reducible rfl
    | (extract_lets +onlyGivenNames -underBinder x; first | (refine keeps_cut (q := q) (j := j) (b := b) (x := x) ?_ ?_ <;> first | (intro h0; generalize x = y at h0 ⊢; clear x) | intro h0 | subst x) | (have h0 := Nat.zero_le x; generalize x = y at h0 ⊢; clear h0 x) | subst x)
    | split
    | dsimp only
    | (with_reducible refine keeps_mk ?_ ⟨rfl, rfl, rfl, rfl, rfl⟩ ⟨rfl, rfl⟩)

theorem State.delayTick_keeps {q : List Instr} {j : TapSt} {b : TimeBase} {s : State}  (hs : Keeps q j b s) :
    Keeps q j b (State.delayTick s) := by
  unfold State.delayTick
  repeat' first
    | intro _
    | with_reducible assumption
    | with_reducible apply State.delaySlew_keeps
    | with_reducible apply State.delayChoose_keeps
    | with_reducible apply keeps_foldl
    | with_reducible apply keeps_foldl_fst
    | with_reducible apply keeps_ite
    | with_reducible rfl
    | split
    | dsimp only
    | (with_reducible refine keeps_mk ?_ ⟨rfl, rfl, rfl, rfl, rfl⟩ ⟨rfl, rfl⟩)

theorem State.modTp_keeps {q : List Instr} {j : TapSt} {b : TimeBase} {s : State} (p : Nat) (f : TpSt → TpSt) (hs : Keeps q j b s) :
    Keeps q j b (State.modTp s p f) := by
  unfold State.modTp
  repeat' first
    | intro _
    | with_reducible assumption
    | with_reducible rfl
    | dsimp only
    | (with_reducible refine keeps_mk ?_ ⟨rfl, rfl, rfl, rfl, rfl⟩ ⟨rfl, rfl⟩)

theorem State.irigCut_keeps {q : List Instr} {j : TapSt} {b : TimeBase} {s : State} (p : Nat) (at_ : Nat) (hs : Keeps q j b s) :
    Keeps q j b (State.irigCut s p at_) := by
  unfold State.irigCut
  repeat' first
    | intro _
    | with_reducible assumption
    | with_reducible apply State.modTp_keeps
    | with_reducible apply keeps_ite
    | with_reducible rfl
    | (extract_lets +onlyGivenNames -underBinder x; first | (refine keeps_cut (q := q) (j := j) (b := b) (x := x) ?_ ?_ <;> first | (intro h0; generalize x = y at h0 ⊢; clear x) | intro h0 | subst x) | (have h0 := Nat.zero_le x; generalize x = y at h0 ⊢; clear h0 x) | subst x)
    | split
    | dsimp only
    | (with_reducible refine keeps_mk ?_ ⟨rfl, rfl, rfl, rfl, rfl⟩ ⟨rfl, rfl⟩)

theorem State.tpEnable_keeps {q : List Instr} {j : TapSt} {b : TimeBase} {s : State} (p : Nat) (hs : Keeps q j b s) :
    Keeps q j b (State.tpEnable s p) := by
  unfold State.tpEnable
  repeat' first
    | intro _
    | with_reducible assumption
    | with_reducible apply State.irigCut_keeps
    | with_reducible apply State.modTp_keeps
    | with_reducible apply keeps_ite
    | with_reducible rfl
    | (extract_lets +onlyGivenNames -underBinder x; first | (refine keeps_cut (q := q) (j := j) (b := b) (x := x) ?_ ?_ <;> first | (intro h0; generalize x = y at h0 ⊢; clear x) | intro h0 | subst x) | (have h0 := Nat.zero_le x; generalize x = y at h0 ⊢; clear h0 x) | subst x)
    | split
    | dsimp only
    | (with_reducible refine keeps_mk ?_ ⟨rfl, rfl, rfl, rfl, rfl⟩ ⟨rfl, rfl⟩)

theorem State.tpRegrid_keeps {q : List Instr} {j : TapSt} {b : TimeBase} {s : State} (p : Nat) (hs : Keeps q j b s) :
    Keeps q j b (State.tpRegrid s p) := by
  unfold State.tpRegrid
  repeat' first
    | intro _
    | with_reducible assumption
    | with_reducible apply State.irigCut_keeps
    | with_reducible apply State.modTp_keeps
    | with_reducible apply keeps_ite
    | with_reducible rfl
    | (extract_lets +onlyGivenNames -underBinder x; first | (refine keeps_cut (q := q) (j := j) (b := b) (x := x) ?_ ?_ <;> first | (intro h0; generalize x = y at h0 ⊢; clear x) | intro h0 | subst x) | (have h0 := Nat.zero_le x; generalize x = y at h0 ⊢; clear h0 x) | subst x)
    | split
    | dsimp only
    | (with_reducible refine keeps_mk ?_ ⟨rfl, rfl, rfl, rfl, rfl⟩ ⟨rfl, rfl⟩)

theorem State.tpEdge_keeps {q : List Instr} {j : TapSt} {b : TimeBase} {s : State} (p : Nat) (g : Nat) (hs : Keeps q j b s) :
    Keeps q j b (State.tpEdge s p g) := by
  unfold State.tpEdge
  repeat' first
    | intro _
    | with_reducible assumption
    | with_reducible apply State.flag_keeps
    | with_reducible apply State.modTp_keeps
    | with_reducible apply State.count_keeps
    | with_reducible apply keeps_ite
    | with_reducible rfl
    | (extract_lets +onlyGivenNames -underBinder x; first | (refine keeps_cut (q := q) (j := j) (b := b) (x := x) ?_ ?_ <;> first | (intro h0; generalize x = y at h0 ⊢; clear x) | intro h0 | subst x) | (have h0 := Nat.zero_le x; generalize x = y at h0 ⊢; clear h0 x) | subst x)
    | split
    | dsimp only
    | (with_reducible refine keeps_mk ?_ ⟨rfl, rfl, rfl, rfl, rfl⟩ ⟨rfl, rfl⟩)

theorem State.tpEnd_keeps {q : List Instr} {j : TapSt} {b : TimeBase} {s : State} (p : Nat) (hs : Keeps q j b s) :
    Keeps q j b (State.tpEnd s p) := by
  unfold State.tpEnd
  repeat' first
    | intro _
    | with_reducible assumption
    | with_reducible apply State.tpRegrid_keeps
    | with_reducible apply State.modTp_keeps
    | with_reducible apply keeps_ite
    | with_reducible rfl
    | split
    | dsimp only
    | (with_reducible refine keeps_mk ?_ ⟨rfl, rfl, rfl, rfl, rfl⟩ ⟨rfl, rfl⟩)

theorem State.tpStep_keeps {q : List Instr} {j : TapSt} {b : TimeBase} {s : State} (old : Nat) (new : Nat) (p : Nat) (hs : Keeps q j b s) :
    Keeps q j b (State.tpStep s old new p) := by
  unfold State.tpStep
  repeat' first
    | intro _
    | with_reducible assumption
    | with_reducible apply State.irigCut_keeps
    | with_reducible apply State.modTp_keeps
    | with_reducible apply keeps_ite
    | with_reducible rfl
    | (extract_lets +onlyGivenNames -underBinder x; first | (refine keeps_cut (q := q) (j := j) (b := b) (x := x) ?_ ?_ <;> first | (intro h0; generalize x = y at h0 ⊢; clear x) | intro h0 | subst x) | (have h0 := Nat.zero_le x; generalize x = y at h0 ⊢; clear h0 x) | subst x)
    | split
    | dsimp only
    | (with_reducible refine keeps_mk ?_ ⟨rfl, rfl, rfl, rfl, rfl⟩ ⟨rfl, rfl⟩)

theorem State.modCko_keeps {q : List Instr} {j : TapSt} {b : TimeBase} {s : State} (c : Nat) (f : CkoSt → CkoSt) (hs : Keeps q j b s) :
    Keeps q j b (State.modCko s c f) := by
  unfold State.modCko
  repeat' first
    | intro _
    | with_reducible assumption
    | with_reducible rfl
    | dsimp only
    | (with_reducible refine keeps_mk ?_ ⟨rfl, rfl, rfl, rfl, rfl⟩ ⟨rfl, rfl⟩)

theorem State.ckoEnable_keeps {q : List Instr} {j : TapSt} {b : TimeBase} {s : State} (c : Nat) (hs : Keeps q j b s) :
    Keeps q j b (State.ckoEnable s c) := by
  unfold State.ckoEnable
  repeat' first
    | intro _
    | with_reducible assumption
    | with_reducible apply State.set_keeps
    | with_reducible apply State.modCko_keeps
    | with_reducible apply keeps_ite
    | with_reducible rfl
    | (extract_lets +onlyGivenNames -underBinder x; first | (refine keeps_cut (q := q) (j := j) (b := b) (x := x) ?_ ?_ <;> first | (intro h0; generalize x = y at h0 ⊢; clear x) | intro h0 | subst x) | (have h0 := Nat.zero_le x; generalize x = y at h0 ⊢; clear h0 x) | subst x)
    | split
    | dsimp only
    | (with_reducible refine keeps_mk ?_ ⟨rfl, rfl, rfl, rfl, rfl⟩ ⟨rfl, rfl⟩)

theorem State.ckoRestart_keeps {q : List Instr} {j : TapSt} {b : TimeBase} {s : State} (c : Nat) (from_ : Nat) (wait : Option Nat → Nat) (hs : Keeps q j b s) :
    Keeps q j b (State.ckoRestart s c from_ wait) := by
  unfold State.ckoRestart
  repeat' first
    | intro _
    | with_reducible assumption
    | with_reducible apply State.set_keeps
    | with_reducible apply State.modCko_keeps
    | with_reducible apply keeps_ite
    | with_reducible rfl
    | (extract_lets +onlyGivenNames -underBinder x; first | (refine keeps_cut (q := q) (j := j) (b := b) (x := x) ?_ ?_ <;> first | (intro h0; generalize x = y at h0 ⊢; clear x) | intro h0 | subst x) | (have h0 := Nat.zero_le x; generalize x = y at h0 ⊢; clear h0 x) | subst x)
    | split
    | dsimp only
    | (with_reducible refine keeps_mk ?_ ⟨rfl, rfl, rfl, rfl, rfl⟩ ⟨rfl, rfl⟩)

theorem State.ckoChange_keeps {q : List Instr} {j : TapSt} {b : TimeBase} {s : State} (c : Nat) (hs : Keeps q j b s) :
    Keeps q j b (State.ckoChange s c) := by
  unfold State.ckoChange
  repeat' first
    | intro _
    | with_reducible assumption
    | with_reducible apply State.ckoRestart_keeps
    | with_reducible rfl
    | dsimp only
    | (with_reducible refine keeps_mk ?_ ⟨rfl, rfl, rfl, rfl, rfl⟩ ⟨rfl, rfl⟩)

theorem State.ckoStep_keeps {q : List Instr} {j : TapSt} {b : TimeBase} {s : State} (old : Nat) (new : Nat) (c : Nat) (hs : Keeps q j b s) :
    Keeps q j b (State.ckoStep s old new c) := by
  unfold State.ckoStep
  repeat' first
    | intro _
    | with_reducible assumption
    | with_reducible apply State.ckoRestart_keeps
    | with_reducible rfl
    | split
    | dsimp only
    | (with_reducible refine keeps_mk ?_ ⟨rfl, rfl, rfl, rfl, rfl⟩ ⟨rfl, rfl⟩)

theorem State.ckoAlign_keeps {q : List Instr} {j : TapSt} {b : TimeBase} {s : State} (c : Nat) (g : Nat) (hs : Keeps q j b s) :
    Keeps q j b (State.ckoAlign s c g) := by
  unfold State.ckoAlign
  repeat' first
    | intro _
    | with_reducible assumption
    | with_reducible apply State.set_keeps
    | with_reducible apply State.flag_keeps
    | with_reducible apply State.modCko_keeps
    | with_reducible apply keeps_ite
    | with_reducible rfl
    | (extract_lets +onlyGivenNames -underBinder x; first | (refine keeps_cut (q := q) (j := j) (b := b) (x := x) ?_ ?_ <;> first | (intro h0; generalize x = y at h0 ⊢; clear x) | intro h0 | subst x) | (have h0 := Nat.zero_le x; generalize x = y at h0 ⊢; clear h0 x) | subst x)
    | split
    | dsimp only
    | (with_reducible refine keeps_mk ?_ ⟨rfl, rfl, rfl, rfl, rfl⟩ ⟨rfl, rfl⟩)

theorem State.ckoResidual_keeps {q : List Instr} {j : TapSt} {b : TimeBase} {s : State} (c : Nat) (r : Int) (hs : Keeps q j b s) :
    Keeps q j b (State.ckoResidual s c r) := by
  unfold State.ckoResidual
  repeat' first
    | intro _
    | with_reducible assumption
    | with_reducible apply State.flag_keeps
    | with_reducible apply State.setI_keeps
    | with_reducible apply keeps_ite
    | with_reducible rfl
    | (extract_lets +onlyGivenNames -underBinder x; first | (refine keeps_cut (q := q) (j := j) (b := b) (x := x) ?_ ?_ <;> first | (intro h0; generalize x = y at h0 ⊢; clear x) | intro h0 | subst x) | (have h0 := Nat.zero_le x; generalize x = y at h0 ⊢; clear h0 x) | subst x)
    | split
    | dsimp only
    | (with_reducible refine keeps_mk ?_ ⟨rfl, rfl, rfl, rfl, rfl⟩ ⟨rfl, rfl⟩)

theorem State.todSend_keeps {q : List Instr} {j : TapSt} {b : TimeBase} {s : State} (sec : Nat) (hs : Keeps q j b s) :
    Keeps q j b (State.todSend s sec) := by
  unfold State.todSend
  repeat' first
    | intro _
    | with_reducible assumption
    | with_reducible apply State.flag_keeps
    | with_reducible apply State.count_keeps
    | with_reducible apply keeps_ite
    | with_reducible rfl
    | (extract_lets +onlyGivenNames -underBinder x; first | (refine keeps_cut (q := q) (j := j) (b := b) (x := x) ?_ ?_ <;> first | (intro h0; generalize x = y at h0 ⊢; clear x) | intro h0 | subst x) | (have h0 := Nat.zero_le x; generalize x = y at h0 ⊢; clear h0 x) | subst x)
    | split
    | dsimp only
    | (with_reducible refine keeps_mk ?_ ⟨rfl, rfl, rfl, rfl, rfl⟩ ⟨rfl, rfl⟩)

theorem State.irigSend_keeps {q : List Instr} {j : TapSt} {b : TimeBase} {s : State} (sec : Nat) (hs : Keeps q j b s) :
    Keeps q j b (State.irigSend s sec) := by
  unfold State.irigSend
  repeat' first
    | intro _
    | with_reducible assumption
    | with_reducible apply State.flag_keeps
    | with_reducible apply State.modTp_keeps
    | with_reducible apply State.count_keeps
    | with_reducible apply keeps_ite
    | with_reducible rfl
    | (extract_lets +onlyGivenNames -underBinder x; first | (refine keeps_cut (q := q) (j := j) (b := b) (x := x) ?_ ?_ <;> first | (intro h0; generalize x = y at h0 ⊢; clear x) | intro h0 | subst x) | (have h0 := Nat.zero_le x; generalize x = y at h0 ⊢; clear h0 x) | subst x)
    | split
    | dsimp only
    | (with_reducible refine keeps_mk ?_ ⟨rfl, rfl, rfl, rfl, rfl⟩ ⟨rfl, rfl⟩)

theorem State.outputsLoad_keeps {q : List Instr} {j : TapSt} {b : TimeBase} {s : State}  (hs : Keeps q j b s) :
    Keeps q j b (State.outputsLoad s) := by
  unfold State.outputsLoad
  repeat' first
    | intro _
    | with_reducible assumption
    | with_reducible apply State.ckoEnable_keeps
    | with_reducible apply State.tpEnable_keeps
    | with_reducible apply State.delayChoose_keeps
    | with_reducible apply keeps_foldl
    | with_reducible apply keeps_foldl_fst
    | with_reducible rfl
    | (extract_lets +onlyGivenNames -underBinder x; first | (refine keeps_cut (q := q) (j := j) (b := b) (x := x) ?_ ?_ <;> first | (intro h0; generalize x = y at h0 ⊢; clear x) | intro h0 | subst x) | (have h0 := Nat.zero_le x; generalize x = y at h0 ⊢; clear h0 x) | subst x)
    | dsimp only
    | (with_reducible refine keeps_mk ?_ ⟨rfl, rfl, rfl, rfl, rfl⟩ ⟨rfl, rfl⟩)

theorem State.polarityCopy_keeps {q : List Instr} {j : TapSt} {b : TimeBase} {s : State} (i : Nat) (v : Nat) (hs : Keeps q j b s) :
    Keeps q j b (State.polarityCopy s i v) := by
  unfold State.polarityCopy
  repeat' first
    | intro _
    | with_reducible assumption
    | with_reducible apply keeps_ite
    | with_reducible rfl
    | split
    | dsimp only
    | (with_reducible refine keeps_mk ?_ ⟨rfl, rfl, rfl, rfl, rfl⟩ ⟨rfl, rfl⟩)

theorem State.outputsStep_keeps {q : List Instr} {j : TapSt} {b : TimeBase} {s : State} (old : Nat) (new : Nat) (hs : Keeps q j b s) :
    Keeps q j b (State.outputsStep s old new) := by
  unfold State.outputsStep
  repeat' first
    | intro _
    | with_reducible assumption
    | with_reducible apply State.ckoStep_keeps
    | with_reducible apply State.tpStep_keeps
    | with_reducible apply keeps_foldl
    | with_reducible apply keeps_foldl_fst
    | with_reducible rfl
    | (extract_lets +onlyGivenNames -underBinder x; first | (refine keeps_cut (q := q) (j := j) (b := b) (x := x) ?_ ?_ <;> first | (intro h0; generalize x = y at h0 ⊢; clear x) | intro h0 | subst x) | (have h0 := Nat.zero_le x; generalize x = y at h0 ⊢; clear h0 x) | subst x)
    | dsimp only
    | (with_reducible refine keeps_mk ?_ ⟨rfl, rfl, rfl, rfl, rfl⟩ ⟨rfl, rfl⟩)

theorem State.outputsSleep_keeps {q : List Instr} {j : TapSt} {b : TimeBase} {s : State}  (hs : Keeps q j b s) :
    Keeps q j b (State.outputsSleep s) := by
  unfold State.outputsSleep
  repeat' first
    | intro _
    | with_reducible assumption
    | with_reducible apply State.set_keeps
    | with_reducible apply State.irigCut_keeps
    | with_reducible apply keeps_foldl
    | with_reducible apply keeps_foldl_fst
    | with_reducible apply keeps_ite
    | with_reducible rfl
    | (extract_lets +onlyGivenNames -underBinder x; first | (refine keeps_cut (q := q) (j := j) (b := b) (x := x) ?_ ?_ <;> first | (intro h0; generalize x = y at h0 ⊢; clear x) | intro h0 | subst x) | (have h0 := Nat.zero_le x; generalize x = y at h0 ⊢; clear h0 x) | subst x)
    | split
    | dsimp only
    | (with_reducible refine keeps_mk ?_ ⟨rfl, rfl, rfl, rfl, rfl⟩ ⟨rfl, rfl⟩)

theorem State.outputsWake_keeps {q : List Instr} {j : TapSt} {b : TimeBase} {s : State}  (hs : Keeps q j b s) :
    Keeps q j b (State.outputsWake s) := by
  unfold State.outputsWake
  repeat' first
    | intro _
    | with_reducible assumption
    | with_reducible apply State.set_keeps
    | with_reducible apply State.modCko_keeps
    | with_reducible apply State.tpEnable_keeps
    | with_reducible apply keeps_foldl
    | with_reducible apply keeps_foldl_fst
    | with_reducible apply keeps_ite
    | with_reducible rfl
    | (extract_lets +onlyGivenNames -underBinder x; first | (refine keeps_cut (q := q) (j := j) (b := b) (x := x) ?_ ?_ <;> first | (intro h0; generalize x = y at h0 ⊢; clear x) | intro h0 | subst x) | (have h0 := Nat.zero_le x; generalize x = y at h0 ⊢; clear h0 x) | subst x)
    | split
    | dsimp only
    | (with_reducible refine keeps_mk ?_ ⟨rfl, rfl, rfl, rfl, rfl⟩ ⟨rfl, rfl⟩)

theorem State.todCut_keeps {q : List Instr} {j : TapSt} {b : TimeBase} {s : State}  (hs : Keeps q j b s) :
    Keeps q j b (State.todCut s) := by
  unfold State.todCut
  repeat' first
    | intro _
    | with_reducible assumption
    | with_reducible rfl
    | dsimp only
    | (with_reducible refine keeps_mk ?_ ⟨rfl, rfl, rfl, rfl, rfl⟩ ⟨rfl, rfl⟩)

theorem State.outputWritten_keeps {q : List Instr} {j : TapSt} {b : TimeBase} {s : State} (k : Nat) (old : Nat) (hs : Keeps q j b s) :
    Keeps q j b (State.outputWritten s k old) := by
  unfold State.outputWritten
  repeat' first
    | intro _
    | with_reducible assumption
    | with_reducible apply State.set_keeps
    | with_reducible apply State.ckoChange_keeps
    | with_reducible apply State.ckoEnable_keeps
    | with_reducible apply State.tpRegrid_keeps
    | with_reducible apply State.tpEnable_keeps
    | with_reducible apply State.delayChoose_keeps
    | with_reducible apply keeps_ite
    | with_reducible rfl
    | (extract_lets +onlyGivenNames -underBinder x; first | (refine keeps_cut (q := q) (j := j) (b := b) (x := x) ?_ ?_ <;> first | (intro h0; generalize x = y at h0 ⊢; clear x) | intro h0 | subst x) | (have h0 := Nat.zero_le x; generalize x = y at h0 ⊢; clear h0 x) | subst x)
    | split
    | dsimp only
    | (with_reducible refine keeps_mk ?_ ⟨rfl, rfl, rfl, rfl, rfl⟩ ⟨rfl, rfl⟩)

/-! ### Auth -/

theorem State.keyPut_keeps {q : List Instr} {j : TapSt} {b : TimeBase} {s : State} (k : Nat) (key : List Nat) (hs : Keeps q j b s) :
    Keeps q j b (State.keyPut s k key) := by
  unfold State.keyPut
  repeat' first
    | intro _
    | with_reducible assumption
    | with_reducible apply State.set_keeps
    | with_reducible rfl
    | (extract_lets +onlyGivenNames -underBinder x; first | (refine keeps_cut (q := q) (j := j) (b := b) (x := x) ?_ ?_ <;> first | (intro h0; generalize x = y at h0 ⊢; clear x) | intro h0 | subst x) | (have h0 := Nat.zero_le x; generalize x = y at h0 ⊢; clear h0 x) | subst x)
    | dsimp only
    | (with_reducible refine keeps_mk ?_ ⟨rfl, rfl, rfl, rfl, rfl⟩ ⟨rfl, rfl⟩)

theorem State.counterSee_keeps {q : List Instr} {j : TapSt} {b : TimeBase} {s : State} (sender : Nat) (k : Nat) (c : Nat) (hs : Keeps q j b s) :
    Keeps q j b (State.counterSee s sender k c) := by
  unfold State.counterSee
  repeat' first
    | intro _
    | with_reducible assumption
    | with_reducible apply keeps_ite
    | with_reducible rfl
    | (extract_lets +onlyGivenNames -underBinder x; first | (refine keeps_cut (q := q) (j := j) (b := b) (x := x) ?_ ?_ <;> first | (intro h0; generalize x = y at h0 ⊢; clear x) | intro h0 | subst x) | (have h0 := Nat.zero_le x; generalize x = y at h0 ⊢; clear h0 x) | subst x)
    | split
    | dsimp only
    | (with_reducible refine keeps_mk ?_ ⟨rfl, rfl, rfl, rfl, rfl⟩ ⟨rfl, rfl⟩)

theorem State.windowsLost_keeps {q : List Instr} {j : TapSt} {b : TimeBase} {s : State}  (hs : Keeps q j b s) :
    Keeps q j b (State.windowsLost s) := by
  unfold State.windowsLost
  repeat' first
    | intro _
    | with_reducible assumption
    | with_reducible rfl
    | dsimp only
    | (with_reducible refine keeps_mk ?_ ⟨rfl, rfl, rfl, rfl, rfl⟩ ⟨rfl, rfl⟩)

theorem State.authFail_keeps {q : List Instr} {j : TapSt} {b : TimeBase} {s : State} (slot : Option Nat) (hs : Keeps q j b s) :
    Keeps q j b (State.authFail s slot) := by
  unfold State.authFail
  repeat' first
    | intro _
    | with_reducible assumption
    | with_reducible apply State.flag_keeps
    | with_reducible apply State.bump_keeps
    | with_reducible rfl
    | (extract_lets +onlyGivenNames -underBinder x; first | (refine keeps_cut (q := q) (j := j) (b := b) (x := x) ?_ ?_ <;> first | (intro h0; generalize x = y at h0 ⊢; clear x) | intro h0 | subst x) | (have h0 := Nat.zero_le x; generalize x = y at h0 ⊢; clear h0 x) | subst x)
    | split
    | dsimp only
    | (with_reducible refine keeps_mk ?_ ⟨rfl, rfl, rfl, rfl, rfl⟩ ⟨rfl, rfl⟩)

theorem State.authSign_keeps {q : List Instr} {j : TapSt} {b : TimeBase} {s : State} (k : Nat) (msg : List Nat) (hs : Keeps q j b s) :
    Keeps q j b (State.authSign s k msg).1 := by
  unfold State.authSign
  repeat' first
    | intro _
    | with_reducible assumption
    | with_reducible apply State.set_keeps
    | with_reducible apply keeps_ite_fst
    | with_reducible rfl
    | (extract_lets +onlyGivenNames -underBinder x; first | (refine keeps_cut (q := q) (j := j) (b := b) (x := x) ?_ ?_ <;> first | (intro h0; generalize x = y at h0 ⊢; clear x) | intro h0 | subst x) | (have h0 := Nat.zero_le x; generalize x = y at h0 ⊢; clear h0 x) | subst x)
    | dsimp only
    | (with_reducible refine keeps_mk ?_ ⟨rfl, rfl, rfl, rfl, rfl⟩ ⟨rfl, rfl⟩)

/-! ### Reader -/

theorem State.modReader_keeps {q : List Instr} {j : TapSt} {b : TimeBase} {s : State} (f : ReaderSt → ReaderSt) (hs : Keeps q j b s) :
    Keeps q j b (State.modReader s f) := by
  unfold State.modReader
  repeat' first
    | intro _
    | with_reducible assumption
    | with_reducible rfl
    | dsimp only
    | (with_reducible refine keeps_mk ?_ ⟨rfl, rfl, rfl, rfl, rfl⟩ ⟨rfl, rfl⟩)

theorem State.readerJudge_keeps {q : List Instr} {j : TapSt} {b : TimeBase} {s : State}  (hs : Keeps q j b s) :
    Keeps q j b (State.readerJudge s) := by
  unfold State.readerJudge
  repeat' first
    | intro _
    | with_reducible assumption
    | with_reducible apply State.set_keeps
    | with_reducible apply keeps_ite
    | with_reducible rfl
    | split
    | dsimp only
    | (with_reducible refine keeps_mk ?_ ⟨rfl, rfl, rfl, rfl, rfl⟩ ⟨rfl, rfl⟩)

theorem State.synthTo_keeps {q : List Instr} {j : TapSt} {b : TimeBase} {s : State} (t : Nat) (v : Nat) (hs : Keeps q j b s) :
    Keeps q j b (State.synthTo s t v) := by
  unfold State.synthTo
  repeat' first
    | intro _
    | with_reducible assumption
    | with_reducible apply State.set_keeps
    | with_reducible apply State.modReader_keeps
    | with_reducible rfl
    | dsimp only
    | (with_reducible refine keeps_mk ?_ ⟨rfl, rfl, rfl, rfl, rfl⟩ ⟨rfl, rfl⟩)

theorem State.synthCal_keeps {q : List Instr} {j : TapSt} {b : TimeBase} {s : State} (t : Nat) (hs : Keeps q j b s) :
    Keeps q j b (State.synthCal s t) := by
  unfold State.synthCal
  repeat' first
    | intro _
    | with_reducible assumption
    | with_reducible apply State.synthTo_keeps
    | with_reducible apply State.modReader_keeps
    | with_reducible apply State.setI_keeps
    | with_reducible rfl
    | (extract_lets +onlyGivenNames -underBinder x; first | (refine keeps_cut (q := q) (j := j) (b := b) (x := x) ?_ ?_ <;> first | (intro h0; generalize x = y at h0 ⊢; clear x) | intro h0 | subst x) | (have h0 := Nat.zero_le x; generalize x = y at h0 ⊢; clear h0 x) | subst x)
    | dsimp only
    | (with_reducible refine keeps_mk ?_ ⟨rfl, rfl, rfl, rfl, rfl⟩ ⟨rfl, rfl⟩)

theorem State.synthPend_keeps {q : List Instr} {j : TapSt} {b : TimeBase} {s : State} (t : Nat) (hs : Keeps q j b s) :
    Keeps q j b (State.synthPend s t) := by
  unfold State.synthPend
  repeat' first
    | intro _
    | with_reducible assumption
    | with_reducible apply State.synthCal_keeps
    | with_reducible apply keeps_ite
    | with_reducible rfl
    | split
    | dsimp only
    | (with_reducible refine keeps_mk ?_ ⟨rfl, rfl, rfl, rfl, rfl⟩ ⟨rfl, rfl⟩)

theorem State.synthTrigger_keeps {q : List Instr} {j : TapSt} {b : TimeBase} {s : State}  (hs : Keeps q j b s) :
    Keeps q j b (State.synthTrigger s) := by
  unfold State.synthTrigger
  repeat' first
    | intro _
    | with_reducible assumption
    | with_reducible apply State.flag_keeps
    | with_reducible apply State.synthPend_keeps
    | with_reducible apply State.modReader_keeps
    | with_reducible apply keeps_ite
    | with_reducible rfl
    | split
    | dsimp only
    | (with_reducible refine keeps_mk ?_ ⟨rfl, rfl, rfl, rfl, rfl⟩ ⟨rfl, rfl⟩)

theorem State.synthStart_keeps {q : List Instr} {j : TapSt} {b : TimeBase} {s : State}  (hs : Keeps q j b s) :
    Keeps q j b (State.synthStart s) := by
  unfold State.synthStart
  repeat' first
    | intro _
    | with_reducible assumption
    | with_reducible apply State.synthTo_keeps
    | with_reducible apply State.modReader_keeps
    | with_reducible apply keeps_ite
    | with_reducible rfl
    | (extract_lets +onlyGivenNames -underBinder x; first | (refine keeps_cut (q := q) (j := j) (b := b) (x := x) ?_ ?_ <;> first | (intro h0; generalize x = y at h0 ⊢; clear x) | intro h0 | subst x) | (have h0 := Nat.zero_le x; generalize x = y at h0 ⊢; clear h0 x) | subst x)
    | split
    | dsimp only
    | (with_reducible refine keeps_mk ?_ ⟨rfl, rfl, rfl, rfl, rfl⟩ ⟨rfl, rfl⟩)

theorem State.synthRefChange_keeps {q : List Instr} {j : TapSt} {b : TimeBase} {s : State}  (hs : Keeps q j b s) :
    Keeps q j b (State.synthRefChange s) := by
  unfold State.synthRefChange
  repeat' first
    | intro _
    | with_reducible assumption
    | with_reducible apply State.synthTo_keeps
    | with_reducible apply keeps_ite
    | with_reducible rfl
    | split
    | dsimp only
    | (with_reducible refine keeps_mk ?_ ⟨rfl, rfl, rfl, rfl, rfl⟩ ⟨rfl, rfl⟩)

theorem State.frameAt_keeps {q : List Instr} {j : TapSt} {b : TimeBase} {s : State} (c : RdrCmd) (start : Nat) (hs : Keeps q j b s) :
    Keeps q j b (State.frameAt s c start) := by
  unfold State.frameAt
  repeat' first
    | intro _
    | with_reducible assumption
    | with_reducible apply State.modReader_keeps
    | with_reducible rfl
    | dsimp only
    | (with_reducible refine keeps_mk ?_ ⟨rfl, rfl, rfl, rfl, rfl⟩ ⟨rfl, rfl⟩)

theorem State.nextFrame_keeps {q : List Instr} {j : TapSt} {b : TimeBase} {s : State} (c : RdrCmd) (tries : Nat) (inv : InvSt) (hs : Keeps q j b s) :
    Keeps q j b (State.nextFrame s c tries inv) := by
  unfold State.nextFrame
  repeat' first
    | intro _
    | with_reducible assumption
    | with_reducible apply State.frameAt_keeps
    | with_reducible rfl
    | dsimp only
    | (with_reducible refine keeps_mk ?_ ⟨rfl, rfl, rfl, rfl, rfl⟩ ⟨rfl, rfl⟩)

theorem State.fieldOffAt_keeps {q : List Instr} {j : TapSt} {b : TimeBase} {s : State} (t : Nat) (hs : Keeps q j b s) :
    Keeps q j b (State.fieldOffAt s t) := by
  unfold State.fieldOffAt
  repeat' first
    | intro _
    | with_reducible assumption
    | with_reducible apply State.synthPend_keeps
    | with_reducible apply State.synthTo_keeps
    | with_reducible apply State.modReader_keeps
    | with_reducible apply State.setB_keeps
    | with_reducible apply keeps_ite
    | with_reducible rfl
    | (extract_lets +onlyGivenNames -underBinder x; first | (refine keeps_cut (q := q) (j := j) (b := b) (x := x) ?_ ?_ <;> first | (intro h0; generalize x = y at h0 ⊢; clear x) | intro h0 | subst x) | (have h0 := Nat.zero_le x; generalize x = y at h0 ⊢; clear h0 x) | subst x)
    | split
    | dsimp only
    | (with_reducible refine keeps_mk ?_ ⟨rfl, rfl, rfl, rfl, rfl⟩ ⟨rfl, rfl⟩)

theorem State.fieldOff_keeps {q : List Instr} {j : TapSt} {b : TimeBase} {s : State}  (hs : Keeps q j b s) :
    Keeps q j b (State.fieldOff s) := by
  unfold State.fieldOff
  repeat' first
    | intro _
    | with_reducible assumption
    | with_reducible apply State.fieldOffAt_keeps
    | with_reducible rfl
    | dsimp only
    | (with_reducible refine keeps_mk ?_ ⟨rfl, rfl, rfl, rfl, rfl⟩ ⟨rfl, rfl⟩)

theorem State.spansTrim_keeps {q : List Instr} {j : TapSt} {b : TimeBase} {s : State}  (hs : Keeps q j b s) :
    Keeps q j b (State.spansTrim s) := by
  unfold State.spansTrim
  repeat' first
    | intro _
    | with_reducible assumption
    | with_reducible apply State.modReader_keeps
    | with_reducible rfl
    | dsimp only
    | (with_reducible refine keeps_mk ?_ ⟨rfl, rfl, rfl, rfl, rfl⟩ ⟨rfl, rfl⟩)

theorem State.cmdEnd_keeps {q : List Instr} {j : TapSt} {b : TimeBase} {s : State} (outcome : Nat) (status : Nat) (r : RxReport) (hs : Keeps q j b s) :
    Keeps q j b (State.cmdEnd s outcome status r) := by
  unfold State.cmdEnd
  repeat' first
    | intro _
    | with_reducible assumption
    | with_reducible apply State.set_keeps
    | with_reducible apply State.fieldOff_keeps
    | with_reducible apply State.readerJudge_keeps
    | with_reducible apply State.modReader_keeps
    | with_reducible apply State.append_keeps
    | with_reducible apply keeps_ite
    | with_reducible rfl
    | (extract_lets +onlyGivenNames -underBinder x; first | (refine keeps_cut (q := q) (j := j) (b := b) (x := x) ?_ ?_ <;> first | (intro h0; generalize x = y at h0 ⊢; clear x) | intro h0 | subst x) | (have h0 := Nat.zero_le x; generalize x = y at h0 ⊢; clear h0 x) | subst x)
    | split
    | dsimp only
    | (with_reducible refine keeps_mk ?_ ⟨rfl, rfl, rfl, rfl, rfl⟩ ⟨rfl, rfl⟩)

theorem State.cmdOutcome_keeps {q : List Instr} {j : TapSt} {b : TimeBase} {s : State} (outcome : Nat) (r : RxReport) (hs : Keeps q j b s) :
    Keeps q j b (State.cmdOutcome s outcome r) := by
  unfold State.cmdOutcome
  repeat' first
    | intro _
    | with_reducible assumption
    | with_reducible apply State.cmdEnd_keeps
    | with_reducible rfl
    | dsimp only
    | (with_reducible refine keeps_mk ?_ ⟨rfl, rfl, rfl, rfl, rfl⟩ ⟨rfl, rfl⟩)

theorem State.fieldUp_keeps {q : List Instr} {j : TapSt} {b : TimeBase} {s : State} (t : Nat) (since : Nat) (hs : Keeps q j b s) :
    Keeps q j b (State.fieldUp s t since) := by
  unfold State.fieldUp
  repeat' first
    | intro _
    | with_reducible assumption
    | with_reducible apply State.set_keeps
    | with_reducible apply State.cmdOutcome_keeps
    | with_reducible apply State.frameAt_keeps
    | with_reducible apply State.modReader_keeps
    | with_reducible apply State.setB_keeps
    | with_reducible apply keeps_ite
    | with_reducible rfl
    | (extract_lets +onlyGivenNames -underBinder x; first | (refine keeps_cut (q := q) (j := j) (b := b) (x := x) ?_ ?_ <;> first | (intro h0; generalize x = y at h0 ⊢; clear x) | intro h0 | subst x) | (have h0 := Nat.zero_le x; generalize x = y at h0 ⊢; clear h0 x) | subst x)
    | split
    | dsimp only
    | (with_reducible refine keeps_mk ?_ ⟨rfl, rfl, rfl, rfl, rfl⟩ ⟨rfl, rfl⟩)

theorem State.fieldCut_keeps {q : List Instr} {j : TapSt} {b : TimeBase} {s : State} (t : Nat) (hs : Keeps q j b s) :
    Keeps q j b (State.fieldCut s t) := by
  unfold State.fieldCut
  repeat' first
    | intro _
    | with_reducible assumption
    | with_reducible apply State.cmdOutcome_keeps
    | with_reducible apply State.fieldOffAt_keeps
    | with_reducible apply State.readerJudge_keeps
    | with_reducible apply keeps_ite
    | with_reducible rfl
    | (extract_lets +onlyGivenNames -underBinder x; first | (refine keeps_cut (q := q) (j := j) (b := b) (x := x) ?_ ?_ <;> first | (intro h0; generalize x = y at h0 ⊢; clear x) | intro h0 | subst x) | (have h0 := Nat.zero_le x; generalize x = y at h0 ⊢; clear h0 x) | subst x)
    | split
    | dsimp only
    | (with_reducible refine keeps_mk ?_ ⟨rfl, rfl, rfl, rfl, rfl⟩ ⟨rfl, rfl⟩)

theorem State.timeoutCut_keeps {q : List Instr} {j : TapSt} {b : TimeBase} {s : State} (hard : Bool) (t : Nat) (hs : Keeps q j b s) :
    Keeps q j b (State.timeoutCut s hard t) := by
  unfold State.timeoutCut
  repeat' first
    | intro _
    | with_reducible assumption
    | with_reducible apply State.flag_keeps
    | with_reducible apply State.log_keeps
    | with_reducible apply State.fieldCut_keeps
    | with_reducible rfl
    | (extract_lets +onlyGivenNames -underBinder x; first | (refine keeps_cut (q := q) (j := j) (b := b) (x := x) ?_ ?_ <;> first | (intro h0; generalize x = y at h0 ⊢; clear x) | intro h0 | subst x) | (have h0 := Nat.zero_le x; generalize x = y at h0 ⊢; clear h0 x) | subst x)
    | dsimp only
    | (with_reducible refine keeps_mk ?_ ⟨rfl, rfl, rfl, rfl, rfl⟩ ⟨rfl, rfl⟩)

theorem State.dutyCut_keeps {q : List Instr} {j : TapSt} {b : TimeBase} {s : State} (t : Nat) (hs : Keeps q j b s) :
    Keeps q j b (State.dutyCut s t) := by
  unfold State.dutyCut
  repeat' first
    | intro _
    | with_reducible assumption
    | with_reducible apply State.flag_keeps
    | with_reducible apply State.fieldCut_keeps
    | with_reducible rfl
    | dsimp only
    | (with_reducible refine keeps_mk ?_ ⟨rfl, rfl, rfl, rfl, rfl⟩ ⟨rfl, rfl⟩)

theorem State.fieldOverdue_keeps {q : List Instr} {j : TapSt} {b : TimeBase} {s : State}  (hs : Keeps q j b s) :
    Keeps q j b (State.fieldOverdue s) := by
  unfold State.fieldOverdue
  repeat' first
    | intro _
    | with_reducible assumption
    | with_reducible apply State.dutyCut_keeps
    | with_reducible apply State.timeoutCut_keeps
    | with_reducible apply keeps_ite
    | with_reducible rfl
    | (extract_lets +onlyGivenNames -underBinder x; first | (refine keeps_cut (q := q) (j := j) (b := b) (x := x) ?_ ?_ <;> first | (intro h0; generalize x = y at h0 ⊢; clear x) | intro h0 | subst x) | (have h0 := Nat.zero_le x; generalize x = y at h0 ⊢; clear h0 x) | subst x)
    | split
    | dsimp only
    | (with_reducible refine keeps_mk ?_ ⟨rfl, rfl, rfl, rfl, rfl⟩ ⟨rfl, rfl⟩)

theorem State.synthBusy_keeps {q : List Instr} {j : TapSt} {b : TimeBase} {s : State}  (hs : Keeps q j b s) :
    Keeps q j b (State.synthBusy s) := by
  unfold State.synthBusy
  repeat' first
    | intro _
    | with_reducible assumption
    | with_reducible apply State.flag_keeps
    | with_reducible apply State.cmdOutcome_keeps
    | with_reducible apply keeps_ite
    | with_reducible rfl
    | split
    | dsimp only
    | (with_reducible refine keeps_mk ?_ ⟨rfl, rfl, rfl, rfl, rfl⟩ ⟨rfl, rfl⟩)

theorem State.readerSettle_keeps {q : List Instr} {j : TapSt} {b : TimeBase} {s : State}  (hs : Keeps q j b s) :
    Keeps q j b (State.readerSettle s) := by
  unfold State.readerSettle
  repeat' first
    | intro _
    | with_reducible assumption
    | with_reducible apply State.flag_keeps
    | with_reducible apply State.fieldOverdue_keeps
    | with_reducible apply State.fieldUp_keeps
    | with_reducible apply State.cmdOutcome_keeps
    | with_reducible apply keeps_ite
    | with_reducible rfl
    | (extract_lets +onlyGivenNames -underBinder x; first | (refine keeps_cut (q := q) (j := j) (b := b) (x := x) ?_ ?_ <;> first | (intro h0; generalize x = y at h0 ⊢; clear x) | intro h0 | subst x) | (have h0 := Nat.zero_le x; generalize x = y at h0 ⊢; clear h0 x) | subst x)
    | split
    | dsimp only
    | (with_reducible refine keeps_mk ?_ ⟨rfl, rfl, rfl, rfl, rfl⟩ ⟨rfl, rfl⟩)

theorem State.fieldAsk_keeps {q : List Instr} {j : TapSt} {b : TimeBase} {s : State} (p : Nat) (hs : Keeps q j b s) :
    Keeps q j b (State.fieldAsk s p) := by
  unfold State.fieldAsk
  repeat' first
    | intro _
    | with_reducible assumption
    | with_reducible apply State.flag_keeps
    | with_reducible apply State.readerSettle_keeps
    | with_reducible apply State.fieldUp_keeps
    | with_reducible apply State.cmdOutcome_keeps
    | with_reducible apply State.fieldOff_keeps
    | with_reducible apply State.modReader_keeps
    | with_reducible apply keeps_ite
    | with_reducible rfl
    | (extract_lets +onlyGivenNames -underBinder x; first | (refine keeps_cut (q := q) (j := j) (b := b) (x := x) ?_ ?_ <;> first | (intro h0; generalize x = y at h0 ⊢; clear x) | intro h0 | subst x) | (have h0 := Nat.zero_le x; generalize x = y at h0 ⊢; clear h0 x) | subst x)
    | split
    | dsimp only
    | (with_reducible refine keeps_mk ?_ ⟨rfl, rfl, rfl, rfl, rfl⟩ ⟨rfl, rfl⟩)

theorem State.fieldTimeout_keeps {q : List Instr} {j : TapSt} {b : TimeBase} {s : State} (hard : Bool) (hs : Keeps q j b s) :
    Keeps q j b (State.fieldTimeout s hard) := by
  unfold State.fieldTimeout
  repeat' first
    | intro _
    | with_reducible assumption
    | with_reducible apply State.readerSettle_keeps
    | with_reducible apply State.timeoutCut_keeps
    | with_reducible apply keeps_ite
    | with_reducible rfl
    | (extract_lets +onlyGivenNames -underBinder x; first | (refine keeps_cut (q := q) (j := j) (b := b) (x := x) ?_ ?_ <;> first | (intro h0; generalize x = y at h0 ⊢; clear x) | intro h0 | subst x) | (have h0 := Nat.zero_le x; generalize x = y at h0 ⊢; clear h0 x) | subst x)
    | split
    | dsimp only
    | (with_reducible refine keeps_mk ?_ ⟨rfl, rfl, rfl, rfl, rfl⟩ ⟨rfl, rfl⟩)

theorem State.dutyLimit_keeps {q : List Instr} {j : TapSt} {b : TimeBase} {s : State}  (hs : Keeps q j b s) :
    Keeps q j b (State.dutyLimit s) := by
  unfold State.dutyLimit
  repeat' first
    | intro _
    | with_reducible assumption
    | with_reducible apply State.readerSettle_keeps
    | with_reducible apply State.dutyCut_keeps
    | with_reducible apply keeps_ite
    | with_reducible rfl
    | (extract_lets +onlyGivenNames -underBinder x; first | (refine keeps_cut (q := q) (j := j) (b := b) (x := x) ?_ ?_ <;> first | (intro h0; generalize x = y at h0 ⊢; clear x) | intro h0 | subst x) | (have h0 := Nat.zero_le x; generalize x = y at h0 ⊢; clear h0 x) | subst x)
    | split
    | dsimp only
    | (with_reducible refine keeps_mk ?_ ⟨rfl, rfl, rfl, rfl, rfl⟩ ⟨rfl, rfl⟩)

theorem State.readerSupply_keeps {q : List Instr} {j : TapSt} {b : TimeBase} {s : State}  (hs : Keeps q j b s) :
    Keeps q j b (State.readerSupply s) := by
  unfold State.readerSupply
  repeat' first
    | intro _
    | with_reducible assumption
    | with_reducible apply State.readerSettle_keeps
    | with_reducible apply State.fieldCut_keeps
    | with_reducible rfl
    | (extract_lets +onlyGivenNames -underBinder x; first | (refine keeps_cut (q := q) (j := j) (b := b) (x := x) ?_ ?_ <;> first | (intro h0; generalize x = y at h0 ⊢; clear x) | intro h0 | subst x) | (have h0 := Nat.zero_le x; generalize x = y at h0 ⊢; clear h0 x) | subst x)
    | dsimp only
    | (with_reducible refine keeps_mk ?_ ⟨rfl, rfl, rfl, rfl, rfl⟩ ⟨rfl, rfl⟩)

theorem State.synthLock_keeps {q : List Instr} {j : TapSt} {b : TimeBase} {s : State}  (hs : Keeps q j b s) :
    Keeps q j b (State.synthLock s) := by
  unfold State.synthLock
  repeat' first
    | intro _
    | with_reducible assumption
    | with_reducible apply State.readerSettle_keeps
    | with_reducible apply State.synthPend_keeps
    | with_reducible apply State.synthTo_keeps
    | with_reducible apply State.readerJudge_keeps
    | with_reducible apply State.modReader_keeps
    | with_reducible apply keeps_ite
    | with_reducible rfl
    | (extract_lets +onlyGivenNames -underBinder x; first | (refine keeps_cut (q := q) (j := j) (b := b) (x := x) ?_ ?_ <;> first | (intro h0; generalize x = y at h0 ⊢; clear x) | intro h0 | subst x) | (have h0 := Nat.zero_le x; generalize x = y at h0 ⊢; clear h0 x) | subst x)
    | split
    | dsimp only
    | (with_reducible refine keeps_mk ?_ ⟨rfl, rfl, rfl, rfl, rfl⟩ ⟨rfl, rfl⟩)

theorem State.synthTimeout_keeps {q : List Instr} {j : TapSt} {b : TimeBase} {s : State}  (hs : Keeps q j b s) :
    Keeps q j b (State.synthTimeout s) := by
  unfold State.synthTimeout
  repeat' first
    | intro _
    | with_reducible assumption
    | with_reducible apply State.flag_keeps
    | with_reducible apply State.log_keeps
    | with_reducible apply State.cmdOutcome_keeps
    | with_reducible apply State.synthCal_keeps
    | with_reducible apply State.synthTo_keeps
    | with_reducible apply State.modReader_keeps
    | with_reducible apply keeps_ite
    | with_reducible rfl
    | (extract_lets +onlyGivenNames -underBinder x; first | (refine keeps_cut (q := q) (j := j) (b := b) (x := x) ?_ ?_ <;> first | (intro h0; generalize x = y at h0 ⊢; clear x) | intro h0 | subst x) | (have h0 := Nat.zero_le x; generalize x = y at h0 ⊢; clear h0 x) | subst x)
    | split
    | dsimp only
    | (with_reducible refine keeps_mk ?_ ⟨rfl, rfl, rfl, rfl, rfl⟩ ⟨rfl, rfl⟩)

theorem State.synthCalDone_keeps {q : List Instr} {j : TapSt} {b : TimeBase} {s : State}  (hs : Keeps q j b s) :
    Keeps q j b (State.synthCalDone s) := by
  unfold State.synthCalDone
  repeat' first
    | intro _
    | with_reducible assumption
    | with_reducible apply State.synthTo_keeps
    | with_reducible apply keeps_ite
    | with_reducible rfl
    | (extract_lets +onlyGivenNames -underBinder x; first | (refine keeps_cut (q := q) (j := j) (b := b) (x := x) ?_ ?_ <;> first | (intro h0; generalize x = y at h0 ⊢; clear x) | intro h0 | subst x) | (have h0 := Nat.zero_le x; generalize x = y at h0 ⊢; clear h0 x) | subst x)
    | split
    | dsimp only
    | (with_reducible refine keeps_mk ?_ ⟨rfl, rfl, rfl, rfl, rfl⟩ ⟨rfl, rfl⟩)

theorem State.readerCommand_keeps {q : List Instr} {j : TapSt} {b0 : TimeBase} {s : State} (b : List Nat) (hs : Keeps q j b0 s) :
    Keeps q j b0 (State.readerCommand s b) := by
  unfold State.readerCommand
  repeat' first
    | intro _
    | with_reducible assumption
    | with_reducible apply State.set_keeps
    | with_reducible apply State.fieldAsk_keeps
    | with_reducible apply State.cmdOutcome_keeps
    | with_reducible apply State.fieldOff_keeps
    | with_reducible apply State.readerJudge_keeps
    | with_reducible apply State.modReader_keeps
    | with_reducible apply keeps_ite
    | with_reducible rfl
    | (extract_lets +onlyGivenNames -underBinder x; first | (refine keeps_cut (q := q) (j := j) (b := b0) (x := x) ?_ ?_ <;> first | (intro h0; generalize x = y at h0 ⊢; clear x) | intro h0 | subst x) | (have h0 := Nat.zero_le x; generalize x = y at h0 ⊢; clear h0 x) | subst x)
    | split
    | dsimp only
    | (with_reducible refine keeps_mk ?_ ⟨rfl, rfl, rfl, rfl, rfl⟩ ⟨rfl, rfl⟩)

theorem State.protoNarrowed_keeps {q : List Instr} {j : TapSt} {b : TimeBase} {s : State}  (hs : Keeps q j b s) :
    Keeps q j b (State.protoNarrowed s) := by
  unfold State.protoNarrowed
  repeat' first
    | intro _
    | with_reducible assumption
    | with_reducible apply State.cmdEnd_keeps
    | with_reducible apply State.fieldOff_keeps
    | with_reducible apply State.readerJudge_keeps
    | with_reducible apply State.modReader_keeps
    | with_reducible apply keeps_ite
    | with_reducible rfl
    | split
    | dsimp only
    | (with_reducible refine keeps_mk ?_ ⟨rfl, rfl, rfl, rfl, rfl⟩ ⟨rfl, rfl⟩)

theorem State.agcFreeze_keeps {q : List Instr} {j : TapSt} {b : TimeBase} {s : State} (amp : Nat) (hs : Keeps q j b s) :
    Keeps q j b (State.agcFreeze s amp) := by
  unfold State.agcFreeze
  repeat' first
    | intro _
    | with_reducible assumption
    | with_reducible apply State.modReader_keeps
    | with_reducible rfl
    | dsimp only
    | (with_reducible refine keeps_mk ?_ ⟨rfl, rfl, rfl, rfl, rfl⟩ ⟨rfl, rfl⟩)

theorem State.agcHeld_keeps {q : List Instr} {j : TapSt} {b : TimeBase} {s : State} (amp : Nat) (hs : Keeps q j b s) :
    Keeps q j b (State.agcHeld s amp) := by
  unfold State.agcHeld
  repeat' first
    | intro _
    | with_reducible assumption
    | with_reducible apply State.agcFreeze_keeps
    | with_reducible apply keeps_ite
    | with_reducible rfl
    | split
    | dsimp only
    | (with_reducible refine keeps_mk ?_ ⟨rfl, rfl, rfl, rfl, rfl⟩ ⟨rfl, rfl⟩)

theorem State.agcFree_keeps {q : List Instr} {j : TapSt} {b : TimeBase} {s : State}  (hs : Keeps q j b s) :
    Keeps q j b (State.agcFree s) := by
  unfold State.agcFree
  repeat' first
    | intro _
    | with_reducible assumption
    | with_reducible apply State.modReader_keeps
    | with_reducible rfl
    | dsimp only
    | (with_reducible refine keeps_mk ?_ ⟨rfl, rfl, rfl, rfl, rfl⟩ ⟨rfl, rfl⟩)

theorem State.maskMeasure_keeps {q : List Instr} {j : TapSt} {b : TimeBase} {s : State} (bins : List (Nat × Int)) (hs : Keeps q j b s) :
    Keeps q j b (State.maskMeasure s bins) := by
  unfold State.maskMeasure
  repeat' first
    | intro _
    | with_reducible assumption
    | with_reducible apply State.flag_keeps
    | with_reducible apply State.setI_keeps
    | with_reducible apply keeps_foldl
    | with_reducible apply keeps_foldl_fst
    | with_reducible apply keeps_ite
    | with_reducible rfl
    | (extract_lets +onlyGivenNames -underBinder x; first | (refine keeps_cut (q := q) (j := j) (b := b) (x := x) ?_ ?_ <;> first | (intro h0; generalize x = y at h0 ⊢; clear x) | intro h0 | subst x) | (have h0 := Nat.zero_le x; generalize x = y at h0 ⊢; clear h0 x) | subst x)
    | split
    | dsimp only
    | (with_reducible refine keeps_mk ?_ ⟨rfl, rfl, rfl, rfl, rfl⟩ ⟨rfl, rfl⟩)

theorem State.frameStops_keeps {q : List Instr} {j : TapSt} {b : TimeBase} {s : State} (c : RdrCmd) (bins : List (Nat × Int)) (r : RxReport) (go : State → State) (hs : Keeps q j b s) (hf : ∀ t, Keeps q j b t → Keeps q j b (go t)) :
    Keeps q j b (State.frameStops s c bins r go) := by
  unfold State.frameStops
  repeat' first
    | intro _
    | with_reducible assumption
    | with_reducible apply State.maskMeasure_keeps
    | with_reducible apply State.agcFree_keeps
    | with_reducible apply State.fieldCut_keeps
    | with_reducible apply State.cmdEnd_keeps
    | with_reducible apply State.fieldOff_keeps
    | with_reducible apply State.readerJudge_keeps
    | with_reducible apply hf
    | with_reducible apply keeps_ite
    | with_reducible rfl
    | (extract_lets +onlyGivenNames -underBinder x; first | (refine keeps_cut (q := q) (j := j) (b := b) (x := x) ?_ ?_ <;> first | (intro h0; generalize x = y at h0 ⊢; clear x) | intro h0 | subst x) | (have h0 := Nat.zero_le x; generalize x = y at h0 ⊢; clear h0 x) | subst x)
    | split
    | dsimp only
    | (with_reducible refine keeps_mk ?_ ⟨rfl, rfl, rfl, rfl, rfl⟩ ⟨rfl, rfl⟩)

theorem State.tagFound_keeps {q : List Instr} {j : TapSt} {b : TimeBase} {s : State} (c : RdrCmd) (i : InvSt) (uid : List Nat) (info : Nat) (f : RxFrame) (hs : Keeps q j b s) :
    Keeps q j b (State.tagFound s c i uid info f).1 := by
  unfold State.tagFound
  repeat' first
    | intro _
    | with_reducible assumption
    | with_reducible apply State.append_keeps
    | with_reducible apply keeps_ite
    | with_reducible apply keeps_ite_fst
    | with_reducible rfl
    | (extract_lets +onlyGivenNames -underBinder x; first | (refine keeps_cut (q := q) (j := j) (b := b) (x := x) ?_ ?_ <;> first | (intro h0; generalize x = y at h0 ⊢; clear x) | intro h0 | subst x) | (have h0 := Nat.zero_le x; generalize x = y at h0 ⊢; clear h0 x) | subst x)
    | split
    | dsimp only
    | (with_reducible refine keeps_mk ?_ ⟨rfl, rfl, rfl, rfl, rfl⟩ ⟨rfl, rfl⟩)

theorem State.invEnd_keeps {q : List Instr} {j : TapSt} {b : TimeBase} {s : State} (i : InvSt) (full : Bool) (hs : Keeps q j b s) :
    Keeps q j b (State.invEnd s i full) := by
  unfold State.invEnd
  repeat' first
    | intro _
    | with_reducible assumption
    | with_reducible apply State.flag_keeps
    | with_reducible apply State.cmdOutcome_keeps
    | with_reducible apply State.modReader_keeps
    | with_reducible apply keeps_ite
    | with_reducible rfl
    | (extract_lets +onlyGivenNames -underBinder x; first | (refine keeps_cut (q := q) (j := j) (b := b) (x := x) ?_ ?_ <;> first | (intro h0; generalize x = y at h0 ⊢; clear x) | intro h0 | subst x) | (have h0 := Nat.zero_le x; generalize x = y at h0 ⊢; clear h0 x) | subst x)
    | split
    | dsimp only
    | (with_reducible refine keeps_mk ?_ ⟨rfl, rfl, rfl, rfl, rfl⟩ ⟨rfl, rfl⟩)

theorem State.invGo_keeps {q : List Instr} {j : TapSt} {b : TimeBase} {s : State} (c : RdrCmd) (i : InvSt) (hs : Keeps q j b s) :
    Keeps q j b (State.invGo s c i) := by
  unfold State.invGo
  repeat' first
    | intro _
    | with_reducible assumption
    | with_reducible apply State.nextFrame_keeps
    | with_reducible rfl
    | dsimp only
    | (with_reducible refine keeps_mk ?_ ⟨rfl, rfl, rfl, rfl, rfl⟩ ⟨rfl, rfl⟩)

theorem State.invNextSlot_keeps {q : List Instr} {j : TapSt} {b : TimeBase} {s : State} (c : RdrCmd) (i : InvSt) (hs : Keeps q j b s) :
    Keeps q j b (State.invNextSlot s c i) := by
  unfold State.invNextSlot
  repeat' first
    | intro _
    | with_reducible assumption
    | with_reducible apply State.invGo_keeps
    | with_reducible apply State.invEnd_keeps
    | with_reducible apply keeps_ite
    | with_reducible rfl
    | (extract_lets +onlyGivenNames -underBinder x; first | (refine keeps_cut (q := q) (j := j) (b := b) (x := x) ?_ ?_ <;> first | (intro h0; generalize x = y at h0 ⊢; clear x) | intro h0 | subst x) | (have h0 := Nat.zero_le x; generalize x = y at h0 ⊢; clear h0 x) | subst x)
    | split
    | dsimp only
    | (with_reducible refine keeps_mk ?_ ⟨rfl, rfl, rfl, rfl, rfl⟩ ⟨rfl, rfl⟩)

theorem State.invSlotted_keeps {q : List Instr} {j : TapSt} {b : TimeBase} {s : State} (c : RdrCmd) (f : Option RxFrame) (collision : Bool) (hs : Keeps q j b s) :
    Keeps q j b (State.invSlotted s c f collision) := by
  unfold State.invSlotted
  repeat' first
    | intro _
    | with_reducible assumption
    | with_reducible apply State.invNextSlot_keeps
    | with_reducible apply State.invGo_keeps
    | with_reducible apply State.invEnd_keeps
    | with_reducible apply State.tagFound_keeps
    | with_reducible apply State.frameAt_keeps
    | with_reducible apply keeps_ite
    | with_reducible rfl
    | (extract_lets +onlyGivenNames -underBinder x; first | (refine keeps_cut (q := q) (j := j) (b := b) (x := x) ?_ ?_ <;> first | (intro h0; generalize x = y at h0 ⊢; clear x) | intro h0 | subst x) | (have h0 := Nat.zero_le x; generalize x = y at h0 ⊢; clear h0 x) | subst x)
    | (with_reducible refine keeps_fst (by with_reducible assumption) ?_)
    | (with_reducible refine keeps_snd (by with_reducible assumption) ?_)
    | split
    | dsimp only
    | (with_reducible refine keeps_mk ?_ ⟨rfl, rfl, rfl, rfl, rfl⟩ ⟨rfl, rfl⟩)

theorem State.invTypeA_keeps {q : List Instr} {j : TapSt} {b : TimeBase} {s : State} (c : RdrCmd) (f : Option RxFrame) (hs : Keeps q j b s) :
    Keeps q j b (State.invTypeA s c f) := by
  unfold State.invTypeA
  repeat' first
    | intro _
    | with_reducible assumption
    | with_reducible apply State.invGo_keeps
    | with_reducible apply State.invEnd_keeps
    | with_reducible apply State.tagFound_keeps
    | with_reducible apply State.nextFrame_keeps
    | with_reducible apply keeps_foldl
    | with_reducible apply keeps_foldl_fst
    | with_reducible apply keeps_ite
    | with_reducible rfl
    | (extract_lets +onlyGivenNames -underBinder x; first | (refine keeps_cut (q := q) (j := j) (b := b) (x := x) ?_ ?_ <;> first | (intro h0; generalize x = y at h0 ⊢; clear x) | intro h0 | subst x) | (have h0 := Nat.zero_le x; generalize x = y at h0 ⊢; clear h0 x) | subst x)
    | (with_reducible refine keeps_fst (by with_reducible assumption) ?_)
    | (with_reducible refine keeps_snd (by with_reducible assumption) ?_)
    | split
    | dsimp only
    | (with_reducible refine keeps_mk ?_ ⟨rfl, rfl, rfl, rfl, rfl⟩ ⟨rfl, rfl⟩)

theorem State.invStep_keeps {q : List Instr} {j : TapSt} {b : TimeBase} {s : State} (c : RdrCmd) (f : Option RxFrame) (collision : Bool) (hs : Keeps q j b s) :
    Keeps q j b (State.invStep s c f collision) := by
  unfold State.invStep
  repeat' first
    | intro _
    | with_reducible assumption
    | with_reducible apply State.invTypeA_keeps
    | with_reducible apply State.invSlotted_keeps
    | with_reducible apply keeps_ite
    | with_reducible rfl
    | split
    | dsimp only
    | (with_reducible refine keeps_mk ?_ ⟨rfl, rfl, rfl, rfl, rfl⟩ ⟨rfl, rfl⟩)

theorem State.attemptFailed_keeps {q : List Instr} {j : TapSt} {b : TimeBase} {s : State} (c : RdrCmd) (outcome : Nat) (r : RxReport) (hs : Keeps q j b s) :
    Keeps q j b (State.attemptFailed s c outcome r) := by
  unfold State.attemptFailed
  repeat' first
    | intro _
    | with_reducible assumption
    | with_reducible apply State.cmdOutcome_keeps
    | with_reducible apply State.nextFrame_keeps
    | with_reducible apply keeps_ite
    | with_reducible rfl
    | split
    | dsimp only
    | (with_reducible refine keeps_mk ?_ ⟨rfl, rfl, rfl, rfl, rfl⟩ ⟨rfl, rfl⟩)

theorem State.frameReceived_keeps {q : List Instr} {j : TapSt} {b : TimeBase} {s : State} (f : RxFrame) (bins : List (Nat × Int)) (hs : Keeps q j b s) :
    Keeps q j b (State.frameReceived s f bins) := by
  unfold State.frameReceived
  repeat' first
    | intro _
    | with_reducible assumption
    | with_reducible apply State.attemptFailed_keeps
    | with_reducible apply State.invStep_keeps
    | with_reducible apply State.frameStops_keeps
    | with_reducible apply State.agcHeld_keeps
    | with_reducible apply State.readerSettle_keeps
    | with_reducible apply State.cmdOutcome_keeps
    | with_reducible apply keeps_ite
    | with_reducible rfl
    | (extract_lets +onlyGivenNames -underBinder x; first | (refine keeps_cut (q := q) (j := j) (b := b) (x := x) ?_ ?_ <;> first | (intro h0; generalize x = y at h0 ⊢; clear x) | intro h0 | subst x) | (have h0 := Nat.zero_le x; generalize x = y at h0 ⊢; clear h0 x) | subst x)
    | split
    | dsimp only
    | (with_reducible refine keeps_mk ?_ ⟨rfl, rfl, rfl, rfl, rfl⟩ ⟨rfl, rfl⟩)

theorem State.responseTimeout_keeps {q : List Instr} {j : TapSt} {b : TimeBase} {s : State} (bins : List (Nat × Int)) (hs : Keeps q j b s) :
    Keeps q j b (State.responseTimeout s bins) := by
  unfold State.responseTimeout
  repeat' first
    | intro _
    | with_reducible assumption
    | with_reducible apply State.attemptFailed_keeps
    | with_reducible apply State.invStep_keeps
    | with_reducible apply State.frameStops_keeps
    | with_reducible apply State.readerSettle_keeps
    | with_reducible apply keeps_ite
    | with_reducible rfl
    | (extract_lets +onlyGivenNames -underBinder x; first | (refine keeps_cut (q := q) (j := j) (b := b) (x := x) ?_ ?_ <;> first | (intro h0; generalize x = y at h0 ⊢; clear x) | intro h0 | subst x) | (have h0 := Nat.zero_le x; generalize x = y at h0 ⊢; clear h0 x) | subst x)
    | split
    | dsimp only
    | (with_reducible refine keeps_mk ?_ ⟨rfl, rfl, rfl, rfl, rfl⟩ ⟨rfl, rfl⟩)

theorem State.secondSof_keeps {q : List Instr} {j : TapSt} {b : TimeBase} {s : State} (f : RxFrame) (amp : Nat) (bins : List (Nat × Int)) (hs : Keeps q j b s) :
    Keeps q j b (State.secondSof s f amp bins) := by
  unfold State.secondSof
  repeat' first
    | intro _
    | with_reducible assumption
    | with_reducible apply State.flag_keeps
    | with_reducible apply State.invStep_keeps
    | with_reducible apply State.frameStops_keeps
    | with_reducible apply State.agcHeld_keeps
    | with_reducible apply State.agcFreeze_keeps
    | with_reducible apply State.readerSettle_keeps
    | with_reducible apply State.cmdOutcome_keeps
    | with_reducible apply State.append_keeps
    | with_reducible apply keeps_ite
    | with_reducible rfl
    | (extract_lets +onlyGivenNames -underBinder x; first | (refine keeps_cut (q := q) (j := j) (b := b) (x := x) ?_ ?_ <;> first | (intro h0; generalize x = y at h0 ⊢; clear x) | intro h0 | subst x) | (have h0 := Nat.zero_le x; generalize x = y at h0 ⊢; clear h0 x) | subst x)
    | split
    | dsimp only
    | (with_reducible refine keeps_mk ?_ ⟨rfl, rfl, rfl, rfl, rfl⟩ ⟨rfl, rfl⟩)

theorem State.burstJudge_keeps {q : List Instr} {j : TapSt} {b : TimeBase} {s : State} (port : Nat) (amp : Nat) (hs : Keeps q j b s) :
    Keeps q j b (State.burstJudge s port amp).1 := by
  unfold State.burstJudge
  repeat' first
    | intro _
    | with_reducible assumption
    | with_reducible apply State.set_keeps
    | with_reducible apply State.flag_keeps
    | with_reducible apply State.modReader_keeps
    | with_reducible apply keeps_ite
    | with_reducible apply keeps_ite_fst
    | with_reducible rfl
    | (extract_lets +onlyGivenNames -underBinder x; first | (refine keeps_cut (q := q) (j := j) (b := b) (x := x) ?_ ?_ <;> first | (intro h0; generalize x = y at h0 ⊢; clear x) | intro h0 | subst x) | (have h0 := Nat.zero_le x; generalize x = y at h0 ⊢; clear h0 x) | subst x)
    | split
    | dsimp only
    | (with_reducible refine keeps_mk ?_ ⟨rfl, rfl, rfl, rfl, rfl⟩ ⟨rfl, rfl⟩)

theorem State.cardBurst_keeps {q : List Instr} {j : TapSt} {b : TimeBase} {s : State} (asleep : Bool) (amp : Nat) (hs : Keeps q j b s) :
    Keeps q j b (State.cardBurst s asleep amp).1 := by
  unfold State.cardBurst
  repeat' first
    | intro _
    | with_reducible assumption
    | with_reducible apply State.set_keeps
    | with_reducible apply State.burstJudge_keeps
    | with_reducible apply State.synthStart_keeps
    | with_reducible apply State.synthTo_keeps
    | with_reducible apply State.modReader_keeps
    | with_reducible apply keeps_ite
    | with_reducible apply keeps_ite_fst
    | with_reducible rfl
    | (extract_lets +onlyGivenNames -underBinder x; first | (refine keeps_cut (q := q) (j := j) (b := b) (x := x) ?_ ?_ <;> first | (intro h0; generalize x = y at h0 ⊢; clear x) | intro h0 | subst x) | (have h0 := Nat.zero_le x; generalize x = y at h0 ⊢; clear h0 x) | subst x)
    | (with_reducible refine keeps_fst (by with_reducible assumption) ?_)
    | (with_reducible refine keeps_snd (by with_reducible assumption) ?_)
    | split
    | dsimp only
    | (with_reducible refine keeps_mk ?_ ⟨rfl, rfl, rfl, rfl, rfl⟩ ⟨rfl, rfl⟩)

theorem State.tagPost_keeps {q : List Instr} {j : TapSt} {b0 : TimeBase} {s : State} (k : Nat) (uid : List Nat) (b : List Nat) (hs : Keeps q j b0 s) :
    Keeps q j b0 (State.tagPost s k uid b) := by
  unfold State.tagPost
  repeat' first
    | intro _
    | with_reducible assumption
    | with_reducible apply State.set_keeps
    | with_reducible apply State.flag_keeps
    | with_reducible apply keeps_ite
    | with_reducible rfl
    | (extract_lets +onlyGivenNames -underBinder x; first | (refine keeps_cut (q := q) (j := j) (b := b0) (x := x) ?_ ?_ <;> first | (intro h0; generalize x = y at h0 ⊢; clear x) | intro h0 | subst x) | (have h0 := Nat.zero_le x; generalize x = y at h0 ⊢; clear h0 x) | subst x)
    | split
    | dsimp only
    | (with_reducible refine keeps_mk ?_ ⟨rfl, rfl, rfl, rfl, rfl⟩ ⟨rfl, rfl⟩)

theorem State.tagFail_keeps {q : List Instr} {j : TapSt} {b : TimeBase} {s : State} (k : Nat) (cause : Nat) (hs : Keeps q j b s) :
    Keeps q j b (State.tagFail s k cause) := by
  unfold State.tagFail
  repeat' first
    | intro _
    | with_reducible assumption
    | with_reducible apply State.set_keeps
    | with_reducible apply State.flag_keeps
    | with_reducible rfl
    | (extract_lets +onlyGivenNames -underBinder x; first | (refine keeps_cut (q := q) (j := j) (b := b) (x := x) ?_ ?_ <;> first | (intro h0; generalize x = y at h0 ⊢; clear x) | intro h0 | subst x) | (have h0 := Nat.zero_le x; generalize x = y at h0 ⊢; clear h0 x) | subst x)
    | dsimp only
    | (with_reducible refine keeps_mk ?_ ⟨rfl, rfl, rfl, rfl, rfl⟩ ⟨rfl, rfl⟩)

theorem State.scanEnd_keeps {q : List Instr} {j : TapSt} {b : TimeBase} {s : State}  (hs : Keeps q j b s) :
    Keeps q j b (State.scanEnd s) := by
  unfold State.scanEnd
  repeat' first
    | intro _
    | with_reducible assumption
    | with_reducible apply State.set_keeps
    | with_reducible apply State.readerJudge_keeps
    | with_reducible apply State.modReader_keeps
    | with_reducible rfl
    | (extract_lets +onlyGivenNames -underBinder x; first | (refine keeps_cut (q := q) (j := j) (b := b) (x := x) ?_ ?_ <;> first | (intro h0; generalize x = y at h0 ⊢; clear x) | intro h0 | subst x) | (have h0 := Nat.zero_le x; generalize x = y at h0 ⊢; clear h0 x) | subst x)
    | split
    | dsimp only
    | (with_reducible refine keeps_mk ?_ ⟨rfl, rfl, rfl, rfl, rfl⟩ ⟨rfl, rfl⟩)

theorem State.scanStart_keeps {q : List Instr} {j : TapSt} {b : TimeBase} {s : State} (l : List Nat) (hs : Keeps q j b s) :
    Keeps q j b (State.scanStart s l) := by
  unfold State.scanStart
  repeat' first
    | intro _
    | with_reducible assumption
    | with_reducible apply State.set_keeps
    | with_reducible apply State.scanEnd_keeps
    | with_reducible apply State.readerJudge_keeps
    | with_reducible apply State.modReader_keeps
    | with_reducible rfl
    | (extract_lets +onlyGivenNames -underBinder x; first | (refine keeps_cut (q := q) (j := j) (b := b) (x := x) ?_ ?_ <;> first | (intro h0; generalize x = y at h0 ⊢; clear x) | intro h0 | subst x) | (have h0 := Nat.zero_le x; generalize x = y at h0 ⊢; clear h0 x) | subst x)
    | dsimp only
    | (with_reducible refine keeps_mk ?_ ⟨rfl, rfl, rfl, rfl, rfl⟩ ⟨rfl, rfl⟩)

theorem State.jobResult_keeps {q : List Instr} {j : TapSt} {b : TimeBase} {s : State} (pos : Nat) (proto : Nat) (outcome : Nat) (e : JobEnd) (bytes : List Nat) (hs : Keeps q j b s) :
    Keeps q j b (State.jobResult s pos proto outcome e bytes) := by
  unfold State.jobResult
  repeat' first
    | intro _
    | with_reducible assumption
    | with_reducible apply State.append_keeps
    | with_reducible apply keeps_ite
    | with_reducible rfl
    | (extract_lets +onlyGivenNames -underBinder x; first | (refine keeps_cut (q := q) (j := j) (b := b) (x := x) ?_ ?_ <;> first | (intro h0; generalize x = y at h0 ⊢; clear x) | intro h0 | subst x) | (have h0 := Nat.zero_le x; generalize x = y at h0 ⊢; clear h0 x) | subst x)
    | split
    | dsimp only
    | (with_reducible refine keeps_mk ?_ ⟨rfl, rfl, rfl, rfl, rfl⟩ ⟨rfl, rfl⟩)

theorem State.jobField_keeps {q : List Instr} {j : TapSt} {b : TimeBase} {s t : State} {p step us : Nat}
    (h : s.jobField p step us = some t) (hs : Keeps q j b s) : Keeps q j b t := by
  unfold State.jobField at h
  split at h
  · have h2 := Option.some.inj h
    subst h2
    refine State.modReader_keeps _ (State.set_keeps _ _ ?_)
    split
    · exact State.fieldOff_keeps hs
    · exact hs
  · exact absurd h (by simp)

theorem State.delayScan_keeps {q : List Instr} {j : TapSt} {b : TimeBase} {s : State} (poll : Bool) (tags : List (List Nat × Option (List Nat))) (e : JobEnd) (us : Nat) (hs : Keeps q j b s) :
    Keeps q j b (State.delayScan s poll tags e us) := by
  unfold State.delayScan
  repeat' first
    | intro _
    | with_reducible assumption
    | with_reducible apply State.jobResult_keeps
    | with_reducible apply State.scanStart_keeps
    | with_reducible apply State.scanEnd_keeps
    | with_reducible apply State.tagFail_keeps
    | with_reducible apply State.tagPost_keeps
    | with_reducible apply State.readerSettle_keeps
    | with_reducible apply State.modReader_keeps
    | (with_reducible refine State.jobField_keeps (by with_reducible assumption) ?_)
    | with_reducible apply keeps_ite
    | with_reducible rfl
    | (extract_lets +onlyGivenNames -underBinder x; first | (refine keeps_cut (q := q) (j := j) (b := b) (x := x) ?_ ?_ <;> first | (intro h0; generalize x = y at h0 ⊢; clear x) | intro h0 | subst x) | (have h0 := Nat.zero_le x; generalize x = y at h0 ⊢; clear h0 x) | subst x)
    | split
    | dsimp only
    | (with_reducible refine keeps_mk ?_ ⟨rfl, rfl, rfl, rfl, rfl⟩ ⟨rfl, rfl⟩)

theorem State.readerTick_keeps {q : List Instr} {j : TapSt} {b : TimeBase} {s : State}  (hs : Keeps q j b s) :
    Keeps q j b (State.readerTick s) := by
  unfold State.readerTick
  repeat' first
    | intro _
    | with_reducible assumption
    | with_reducible apply State.readerSettle_keeps
    | with_reducible apply State.cmdOutcome_keeps
    | with_reducible apply State.spansTrim_keeps
    | with_reducible apply State.fieldOff_keeps
    | with_reducible apply State.synthStart_keeps
    | with_reducible apply State.synthTrigger_keeps
    | with_reducible apply State.synthTo_keeps
    | with_reducible apply State.readerJudge_keeps
    | with_reducible apply State.modReader_keeps
    | with_reducible apply keeps_ite
    | with_reducible rfl
    | (extract_lets +onlyGivenNames -underBinder x; first | (refine keeps_cut (q := q) (j := j) (b := b) (x := x) ?_ ?_ <;> first | (intro h0; generalize x = y at h0 ⊢; clear x) | intro h0 | subst x) | (have h0 := Nat.zero_le x; generalize x = y at h0 ⊢; clear h0 x) | subst x)
    | split
    | dsimp only
    | (with_reducible refine keeps_mk ?_ ⟨rfl, rfl, rfl, rfl, rfl⟩ ⟨rfl, rfl⟩)

theorem State.ceilingTick_keeps {q : List Instr} {j : TapSt} {b : TimeBase} {s : State}  (hs : Keeps q j b s) :
    Keeps q j b (State.ceilingTick s) := by
  unfold State.ceilingTick
  repeat' first
    | intro _
    | with_reducible assumption
    | with_reducible apply State.set_keeps
    | with_reducible apply State.flag_keeps
    | with_reducible apply State.fieldCut_keeps
    | with_reducible apply keeps_ite
    | with_reducible rfl
    | (extract_lets +onlyGivenNames -underBinder x; first | (refine keeps_cut (q := q) (j := j) (b := b) (x := x) ?_ ?_ <;> first | (intro h0; generalize x = y at h0 ⊢; clear x) | intro h0 | subst x) | (have h0 := Nat.zero_le x; generalize x = y at h0 ⊢; clear h0 x) | subst x)
    | split
    | dsimp only
    | (with_reducible refine keeps_mk ?_ ⟨rfl, rfl, rfl, rfl, rfl⟩ ⟨rfl, rfl⟩)

theorem State.thermalCut_keeps {q : List Instr} {j : TapSt} {b : TimeBase} {s : State}  (hs : Keeps q j b s) :
    Keeps q j b (State.thermalCut s) := by
  unfold State.thermalCut
  repeat' first
    | intro _
    | with_reducible assumption
    | with_reducible apply State.flag_keeps
    | with_reducible apply State.readerSettle_keeps
    | with_reducible apply State.cmdOutcome_keeps
    | with_reducible apply State.fieldOff_keeps
    | with_reducible apply State.modReader_keeps
    | with_reducible apply keeps_ite
    | with_reducible rfl
    | (extract_lets +onlyGivenNames -underBinder x; first | (refine keeps_cut (q := q) (j := j) (b := b) (x := x) ?_ ?_ <;> first | (intro h0; generalize x = y at h0 ⊢; clear x) | intro h0 | subst x) | (have h0 := Nat.zero_le x; generalize x = y at h0 ⊢; clear h0 x) | subst x)
    | split
    | dsimp only
    | (with_reducible refine keeps_mk ?_ ⟨rfl, rfl, rfl, rfl, rfl⟩ ⟨rfl, rfl⟩)

theorem State.readerWarm_keeps {q : List Instr} {j : TapSt} {b : TimeBase} {s : State}  (hs : Keeps q j b s) :
    Keeps q j b (State.readerWarm s) := by
  unfold State.readerWarm
  repeat' first
    | intro _
    | with_reducible assumption
    | with_reducible apply State.fieldOff_keeps
    | with_reducible apply State.modReader_keeps
    | with_reducible apply State.setStream_keeps
    | with_reducible rfl
    | (extract_lets +onlyGivenNames -underBinder x; first | (refine keeps_cut (q := q) (j := j) (b := b) (x := x) ?_ ?_ <;> first | (intro h0; generalize x = y at h0 ⊢; clear x) | intro h0 | subst x) | (have h0 := Nat.zero_le x; generalize x = y at h0 ⊢; clear h0 x) | subst x)
    | dsimp only
    | (with_reducible refine keeps_mk ?_ ⟨rfl, rfl, rfl, rfl, rfl⟩ ⟨rfl, rfl⟩)

theorem State.readerStop_keeps {q : List Instr} {j : TapSt} {b : TimeBase} {s : State}  (hs : Keeps q j b s) :
    Keeps q j b (State.readerStop s) := by
  unfold State.readerStop
  repeat' first
    | intro _
    | with_reducible assumption
    | with_reducible apply State.fieldOff_keeps
    | with_reducible apply State.synthTo_keeps
    | with_reducible rfl
    | dsimp only
    | (with_reducible refine keeps_mk ?_ ⟨rfl, rfl, rfl, rfl, rfl⟩ ⟨rfl, rfl⟩)

/-! ### Link -/

theorem State.modPort_keeps {q : List Instr} {j : TapSt} {b : TimeBase} {s : State} (n : Nat) (f : PortSt → PortSt) (hs : Keeps q j b s) :
    Keeps q j b (State.modPort s n f) := by
  unfold State.modPort
  repeat' first
    | intro _
    | with_reducible assumption
    | with_reducible apply keeps_ite
    | with_reducible rfl
    | split
    | dsimp only
    | (with_reducible refine keeps_mk ?_ ⟨rfl, rfl, rfl, rfl, rfl⟩ ⟨rfl, rfl⟩)

theorem State.sendCtl_keeps {q : List Instr} {j : TapSt} {b : TimeBase} {s : State} (n : Nat) (sub : Nat) (payload : List Nat) (hs : Keeps q j b s) :
    Keeps q j b (State.sendCtl s n sub payload) := by
  unfold State.sendCtl
  repeat' first
    | intro _
    | with_reducible assumption
    | with_reducible apply State.modPort_keeps
    | with_reducible rfl
    | dsimp only
    | (with_reducible refine keeps_mk ?_ ⟨rfl, rfl, rfl, rfl, rfl⟩ ⟨rfl, rfl⟩)

theorem State.sendHello_keeps {q : List Instr} {j : TapSt} {b : TimeBase} {s : State} (n : Nat) (hs : Keeps q j b s) :
    Keeps q j b (State.sendHello s n) := by
  unfold State.sendHello
  repeat' first
    | intro _
    | with_reducible assumption
    | with_reducible apply State.sendCtl_keeps
    | with_reducible apply State.modPort_keeps
    | with_reducible rfl
    | (extract_lets +onlyGivenNames -underBinder x; first | (refine keeps_cut (q := q) (j := j) (b := b) (x := x) ?_ ?_ <;> first | (intro h0; generalize x = y at h0 ⊢; clear x) | intro h0 | subst x) | (have h0 := Nat.zero_le x; generalize x = y at h0 ⊢; clear h0 x) | subst x)
    | dsimp only
    | (with_reducible refine keeps_mk ?_ ⟨rfl, rfl, rfl, rfl, rfl⟩ ⟨rfl, rfl⟩)

theorem State.netDrop_keeps {q : List Instr} {j : TapSt} {b : TimeBase} {s : State} (counter : Nat) (hs : Keeps q j b s) :
    Keeps q j b (State.netDrop s counter) := by
  unfold State.netDrop
  repeat' first
    | intro _
    | with_reducible assumption
    | with_reducible apply State.flag_keeps
    | with_reducible apply State.bump_keeps
    | with_reducible rfl
    | dsimp only
    | (with_reducible refine keeps_mk ?_ ⟨rfl, rfl, rfl, rfl, rfl⟩ ⟨rfl, rfl⟩)

theorem State.portAge_keeps {q : List Instr} {j : TapSt} {b : TimeBase} {s : State} (n : Nat) (hs : Keeps q j b s) :
    Keeps q j b (State.portAge s n) := by
  unfold State.portAge
  repeat' first
    | intro _
    | with_reducible assumption
    | with_reducible apply State.netDrop_keeps
    | with_reducible apply State.modPort_keeps
    | with_reducible apply keeps_foldl
    | with_reducible apply keeps_foldl_fst
    | with_reducible apply keeps_ite
    | with_reducible rfl
    | (extract_lets +onlyGivenNames -underBinder x; first | (refine keeps_cut (q := q) (j := j) (b := b) (x := x) ?_ ?_ <;> first | (intro h0; generalize x = y at h0 ⊢; clear x) | intro h0 | subst x) | (have h0 := Nat.zero_le x; generalize x = y at h0 ⊢; clear h0 x) | subst x)
    | split
    | dsimp only
    | (with_reducible refine keeps_mk ?_ ⟨rfl, rfl, rfl, rfl, rfl⟩ ⟨rfl, rfl⟩)

theorem State.portPump_keeps {q : List Instr} {j : TapSt} {b : TimeBase} {s : State} (n k : Nat) (hs : Keeps q j b s) :
    Keeps q j b (State.portPump s n k) := by
  induction k generalizing s with
  | zero => exact hs
  | succ k ih =>
    unfold State.portPump
    repeat' first
    | with_reducible assumption
    | with_reducible apply ih
    | with_reducible apply State.count_keeps
    | with_reducible apply State.modPort_keeps
    | (extract_lets +onlyGivenNames -underBinder x; first | (refine keeps_cut (q := q) (j := j) (b := b) (x := x) ?_ ?_ <;> first | (intro h0; generalize x = y at h0 ⊢; clear x) | intro h0 | subst x) | (have h0 := Nat.zero_le x; generalize x = y at h0 ⊢; clear h0 x) | subst x)
    | with_reducible apply keeps_ite
    | split

theorem State.portGo_keeps {q : List Instr} {j : TapSt} {b : TimeBase} {s : State} (n : Nat) (hs : Keeps q j b s) :
    Keeps q j b (State.portGo s n) := by
  unfold State.portGo
  repeat' first
    | intro _
    | with_reducible assumption
    | with_reducible apply State.portPump_keeps
    | with_reducible apply State.portAge_keeps
    | with_reducible rfl
    | (extract_lets +onlyGivenNames -underBinder x; first | (refine keeps_cut (q := q) (j := j) (b := b) (x := x) ?_ ?_ <;> first | (intro h0; generalize x = y at h0 ⊢; clear x) | intro h0 | subst x) | (have h0 := Nat.zero_le x; generalize x = y at h0 ⊢; clear h0 x) | subst x)
    | dsimp only
    | (with_reducible refine keeps_mk ?_ ⟨rfl, rfl, rfl, rfl, rfl⟩ ⟨rfl, rfl⟩)

theorem State.portPutAs_keeps {q : List Instr} {j : TapSt} {b : TimeBase} {s : State} (n : Nat) (f : OutFrame) (hs : Keeps q j b s) :
    Keeps q j b (State.portPutAs s n f) := by
  unfold State.portPutAs
  repeat' first
    | intro _
    | with_reducible assumption
    | with_reducible apply State.portGo_keeps
    | with_reducible apply State.netDrop_keeps
    | with_reducible apply State.modPort_keeps
    | with_reducible apply keeps_ite
    | with_reducible rfl
    | (extract_lets +onlyGivenNames -underBinder x; first | (refine keeps_cut (q := q) (j := j) (b := b) (x := x) ?_ ?_ <;> first | (intro h0; generalize x = y at h0 ⊢; clear x) | intro h0 | subst x) | (have h0 := Nat.zero_le x; generalize x = y at h0 ⊢; clear h0 x) | subst x)
    | split
    | dsimp only
    | (with_reducible refine keeps_mk ?_ ⟨rfl, rfl, rfl, rfl, rfl⟩ ⟨rfl, rfl⟩)

theorem State.portPut_keeps {q : List Instr} {j : TapSt} {b : TimeBase} {s : State} (n : Nat) (f : List Nat) (hs : Keeps q j b s) :
    Keeps q j b (State.portPut s n f) := by
  unfold State.portPut
  repeat' first
    | intro _
    | with_reducible assumption
    | with_reducible apply State.portPutAs_keeps
    | with_reducible rfl
    | dsimp only
    | (with_reducible refine keeps_mk ?_ ⟨rfl, rfl, rfl, rfl, rfl⟩ ⟨rfl, rfl⟩)

theorem State.netFrameAs_keeps {q : List Instr} {j : TapSt} {b : TimeBase} {s : State} (auth : Bool) (kind : Nat) (flags : Nat) (dest : Nat) (source : Nat) (body : List Nat) (hs : Keeps q j b s) :
    Keeps q j b (State.netFrameAs s auth kind flags dest source body).1 := by
  unfold State.netFrameAs
  repeat' first
    | intro _
    | with_reducible assumption
    | with_reducible apply State.authSign_keeps
    | with_reducible apply keeps_ite
    | with_reducible apply keeps_ite_fst
    | with_reducible rfl
    | (extract_lets +onlyGivenNames -underBinder x; first | (refine keeps_cut (q := q) (j := j) (b := b) (x := x) ?_ ?_ <;> first | (intro h0; generalize x = y at h0 ⊢; clear x) | intro h0 | subst x) | (have h0 := Nat.zero_le x; generalize x = y at h0 ⊢; clear h0 x) | subst x)
    | (with_reducible refine keeps_fst (by with_reducible assumption) ?_)
    | (with_reducible refine keeps_snd (by with_reducible assumption) ?_)
    | split
    | dsimp only
    | (with_reducible refine keeps_mk ?_ ⟨rfl, rfl, rfl, rfl, rfl⟩ ⟨rfl, rfl⟩)

theorem State.netFrame_keeps {q : List Instr} {j : TapSt} {b : TimeBase} {s : State} (kind : Nat) (flags : Nat) (dest : Nat) (source : Nat) (body : List Nat) (hs : Keeps q j b s) :
    Keeps q j b (State.netFrame s kind flags dest source body).1 := by
  unfold State.netFrame
  repeat' first
    | intro _
    | with_reducible assumption
    | with_reducible apply State.netFrameAs_keeps
    | with_reducible apply keeps_ite_fst
    | with_reducible rfl
    | (with_reducible refine keeps_fst (by with_reducible assumption) ?_)
    | (with_reducible refine keeps_snd (by with_reducible assumption) ?_)
    | dsimp only
    | (with_reducible refine keeps_mk ?_ ⟨rfl, rfl, rfl, rfl, rfl⟩ ⟨rfl, rfl⟩)

theorem State.loopBack_keeps {q : List Instr} {j : TapSt} {b : TimeBase} {s : State} (f : List Nat) (hs : Keeps q j b s) :
    Keeps q j b (State.loopBack s f) := by
  unfold State.loopBack
  repeat' first
    | intro _
    | with_reducible assumption
    | with_reducible rfl
    | dsimp only
    | (with_reducible refine keeps_mk ?_ ⟨rfl, rfl, rfl, rfl, rfl⟩ ⟨rfl, rfl⟩)

theorem State.netRouteAs_keeps {q : List Instr} {j : TapSt} {b : TimeBase} {s : State} (f : OutFrame) (hs : Keeps q j b s) :
    Keeps q j b (State.netRouteAs s f) := by
  unfold State.netRouteAs
  repeat' first
    | intro _
    | with_reducible assumption
    | with_reducible apply State.portPutAs_keeps
    | with_reducible apply State.netDrop_keeps
    | with_reducible rfl
    | split
    | dsimp only
    | (with_reducible refine keeps_mk ?_ ⟨rfl, rfl, rfl, rfl, rfl⟩ ⟨rfl, rfl⟩)

theorem State.netRoute_keeps {q : List Instr} {j : TapSt} {b : TimeBase} {s : State} (f : List Nat) (hs : Keeps q j b s) :
    Keeps q j b (State.netRoute s f) := by
  unfold State.netRoute
  repeat' first
    | intro _
    | with_reducible assumption
    | with_reducible apply State.netRouteAs_keeps
    | with_reducible rfl
    | dsimp only
    | (with_reducible refine keeps_mk ?_ ⟨rfl, rfl, rfl, rfl, rfl⟩ ⟨rfl, rfl⟩)

theorem State.lifeCheck_keeps {q : List Instr} {j : TapSt} {b : TimeBase} {s : State} (f : OutFrame) (hs : Keeps q j b s) :
    Keeps q j b (State.lifeCheck s f).2 := by
  unfold State.lifeCheck
  repeat' first
    | intro _
    | with_reducible assumption
    | with_reducible apply State.netDrop_keeps
    | with_reducible apply keeps_ite
    | with_reducible apply keeps_ite_snd
    | with_reducible rfl
    | (extract_lets +onlyGivenNames -underBinder x; first | (refine keeps_cut (q := q) (j := j) (b := b) (x := x) ?_ ?_ <;> first | (intro h0; generalize x = y at h0 ⊢; clear x) | intro h0 | subst x) | (have h0 := Nat.zero_le x; generalize x = y at h0 ⊢; clear h0 x) | subst x)
    | split
    | dsimp only
    | (with_reducible refine keeps_mk ?_ ⟨rfl, rfl, rfl, rfl, rfl⟩ ⟨rfl, rfl⟩)

theorem State.netSend_keeps {q : List Instr} {j : TapSt} {b : TimeBase} {s : State} (kind : Nat) (flags : Nat) (dest : Nat) (body : List Nat) (hs : Keeps q j b s) :
    Keeps q j b (State.netSend s kind flags dest body) := by
  unfold State.netSend
  repeat' first
    | intro _
    | with_reducible assumption
    | with_reducible apply State.netRoute_keeps
    | with_reducible apply State.loopBack_keeps
    | with_reducible apply State.netFrame_keeps
    | with_reducible apply keeps_ite
    | with_reducible rfl
    | (extract_lets +onlyGivenNames -underBinder x; first | (refine keeps_cut (q := q) (j := j) (b := b) (x := x) ?_ ?_ <;> first | (intro h0; generalize x = y at h0 ⊢; clear x) | intro h0 | subst x) | (have h0 := Nat.zero_le x; generalize x = y at h0 ⊢; clear h0 x) | subst x)
    | (with_reducible refine keeps_fst (by with_reducible assumption) ?_)
    | (with_reducible refine keeps_snd (by with_reducible assumption) ?_)
    | split
    | dsimp only
    | (with_reducible refine keeps_mk ?_ ⟨rfl, rfl, rfl, rfl, rfl⟩ ⟨rfl, rfl⟩)

theorem State.peerSend_keeps {q : List Instr} {j : TapSt} {b : TimeBase} {s : State} (n : Nat) (kind : Nat) (body : List Nat) (hs : Keeps q j b s) :
    Keeps q j b (State.peerSend s n kind body) := by
  unfold State.peerSend
  repeat' first
    | intro _
    | with_reducible assumption
    | with_reducible apply State.netFrame_keeps
    | with_reducible apply State.portPut_keeps
    | with_reducible apply keeps_ite
    | with_reducible rfl
    | (extract_lets +onlyGivenNames -underBinder x; first | (refine keeps_cut (q := q) (j := j) (b := b) (x := x) ?_ ?_ <;> first | (intro h0; generalize x = y at h0 ⊢; clear x) | intro h0 | subst x) | (have h0 := Nat.zero_le x; generalize x = y at h0 ⊢; clear h0 x) | subst x)
    | (with_reducible refine keeps_fst (by with_reducible assumption) ?_)
    | (with_reducible refine keeps_snd (by with_reducible assumption) ?_)
    | split
    | dsimp only
    | (with_reducible refine keeps_mk ?_ ⟨rfl, rfl, rfl, rfl, rfl⟩ ⟨rfl, rfl⟩)

theorem State.undelivered_keeps {q : List Instr} {j : TapSt} {b : TimeBase} {s : State} (n : Nat) (hs : Keeps q j b s) :
    Keeps q j b (State.undelivered s n) := by
  unfold State.undelivered
  repeat' first
    | intro _
    | with_reducible assumption
    | with_reducible apply State.lifeCheck_keeps
    | with_reducible apply State.netRouteAs_keeps
    | with_reducible apply State.modPort_keeps
    | with_reducible apply keeps_foldl
    | with_reducible apply keeps_foldl_fst
    | with_reducible rfl
    | (extract_lets +onlyGivenNames -underBinder x; first | (refine keeps_cut (q := q) (j := j) (b := b) (x := x) ?_ ?_ <;> first | (intro h0; generalize x = y at h0 ⊢; clear x) | intro h0 | subst x) | (have h0 := Nat.zero_le x; generalize x = y at h0 ⊢; clear h0 x) | subst x)
    | (with_reducible refine keeps_fst (by with_reducible assumption) ?_)
    | (with_reducible refine keeps_snd (by with_reducible assumption) ?_)
    | split
    | dsimp only
    | (with_reducible refine keeps_mk ?_ ⟨rfl, rfl, rfl, rfl, rfl⟩ ⟨rfl, rfl⟩)

/-! ### NetBase -/

theorem State.dbChanged_keeps {q : List Instr} {j : TapSt} {b : TimeBase} {s : State}  (hs : Keeps q j b s) :
    Keeps q j b (State.dbChanged s) := by
  unfold State.dbChanged
  repeat' first
    | intro _
    | with_reducible assumption
    | with_reducible apply keeps_ite
    | with_reducible rfl
    | (extract_lets +onlyGivenNames -underBinder x; first | (refine keeps_cut (q := q) (j := j) (b := b) (x := x) ?_ ?_ <;> first | (intro h0; generalize x = y at h0 ⊢; clear x) | intro h0 | subst x) | (have h0 := Nat.zero_le x; generalize x = y at h0 ⊢; clear h0 x) | subst x)
    | split
    | dsimp only
    | (with_reducible refine keeps_mk ?_ ⟨rfl, rfl, rfl, rfl, rfl⟩ ⟨rfl, rfl⟩)

theorem State.tableTick_keeps {q : List Instr} {j : TapSt} {b : TimeBase} {s : State}  (hs : Keeps q j b s) :
    Keeps q j b (State.tableTick s) := by
  unfold State.tableTick
  repeat' first
    | intro _
    | with_reducible assumption
    | with_reducible apply keeps_ite
    | with_reducible rfl
    | (extract_lets +onlyGivenNames -underBinder x; first | (refine keeps_cut (q := q) (j := j) (b := b) (x := x) ?_ ?_ <;> first | (intro h0; generalize x = y at h0 ⊢; clear x) | intro h0 | subst x) | (have h0 := Nat.zero_le x; generalize x = y at h0 ⊢; clear h0 x) | subst x)
    | split
    | dsimp only
    | (with_reducible refine keeps_mk ?_ ⟨rfl, rfl, rfl, rfl, rfl⟩ ⟨rfl, rfl⟩)

theorem State.flood_keeps {q : List Instr} {j : TapSt} {b : TimeBase} {s : State} (body : List Nat) (but : Nat) (hs : Keeps q j b s) :
    Keeps q j b (State.flood s body but) := by
  unfold State.flood
  repeat' first
    | intro _
    | with_reducible assumption
    | with_reducible apply State.netFrame_keeps
    | with_reducible apply State.portPut_keeps
    | with_reducible apply keeps_foldl
    | with_reducible apply keeps_foldl_fst
    | with_reducible apply keeps_ite
    | with_reducible rfl
    | (extract_lets +onlyGivenNames -underBinder x; first | (refine keeps_cut (q := q) (j := j) (b := b) (x := x) ?_ ?_ <;> first | (intro h0; generalize x = y at h0 ⊢; clear x) | intro h0 | subst x) | (have h0 := Nat.zero_le x; generalize x = y at h0 ⊢; clear h0 x) | subst x)
    | (with_reducible refine keeps_fst (by with_reducible assumption) ?_)
    | (with_reducible refine keeps_snd (by with_reducible assumption) ?_)
    | split
    | dsimp only
    | (with_reducible refine keeps_mk ?_ ⟨rfl, rfl, rfl, rfl, rfl⟩ ⟨rfl, rfl⟩)

theorem State.lsaSend_keeps {q : List Instr} {j : TapSt} {b : TimeBase} {s : State}  (hs : Keeps q j b s) :
    Keeps q j b (State.lsaSend s) := by
  unfold State.lsaSend
  repeat' first
    | intro _
    | with_reducible assumption
    | with_reducible apply State.flood_keeps
    | with_reducible rfl
    | (extract_lets +onlyGivenNames -underBinder x; first | (refine keeps_cut (q := q) (j := j) (b := b) (x := x) ?_ ?_ <;> first | (intro h0; generalize x = y at h0 ⊢; clear x) | intro h0 | subst x) | (have h0 := Nat.zero_le x; generalize x = y at h0 ⊢; clear h0 x) | subst x)
    | dsimp only
    | (with_reducible refine keeps_mk ?_ ⟨rfl, rfl, rfl, rfl, rfl⟩ ⟨rfl, rfl⟩)

theorem State.memberSet_keeps {q : List Instr} {j : TapSt} {b : TimeBase} {s : State} (v : Nat) (hs : Keeps q j b s) :
    Keeps q j b (State.memberSet s v) := by
  unfold State.memberSet
  repeat' first
    | intro _
    | with_reducible assumption
    | with_reducible apply State.set_keeps
    | with_reducible apply State.lsaSend_keeps
    | with_reducible apply keeps_ite
    | with_reducible rfl
    | split
    | dsimp only
    | (with_reducible refine keeps_mk ?_ ⟨rfl, rfl, rfl, rfl, rfl⟩ ⟨rfl, rfl⟩)

theorem State.linksJudge_keeps {q : List Instr} {j : TapSt} {b : TimeBase} {s : State}  (hs : Keeps q j b s) :
    Keeps q j b (State.linksJudge s) := by
  unfold State.linksJudge
  repeat' first
    | intro _
    | with_reducible assumption
    | with_reducible apply State.set_keeps
    | with_reducible apply State.lsaSend_keeps
    | with_reducible apply State.dbChanged_keeps
    | with_reducible apply keeps_ite
    | with_reducible rfl
    | (extract_lets +onlyGivenNames -underBinder x; first | (refine keeps_cut (q := q) (j := j) (b := b) (x := x) ?_ ?_ <;> first | (intro h0; generalize x = y at h0 ⊢; clear x) | intro h0 | subst x) | (have h0 := Nat.zero_le x; generalize x = y at h0 ⊢; clear h0 x) | subst x)
    | split
    | dsimp only
    | (with_reducible refine keeps_mk ?_ ⟨rfl, rfl, rfl, rfl, rfl⟩ ⟨rfl, rfl⟩)

theorem State.portJoined_keeps {q : List Instr} {j : TapSt} {b : TimeBase} {s : State} (n : Nat) (hs : Keeps q j b s) :
    Keeps q j b (State.portJoined s n) := by
  unfold State.portJoined
  repeat' first
    | intro _
    | with_reducible assumption
    | with_reducible apply State.linksJudge_keeps
    | with_reducible apply State.netFrame_keeps
    | with_reducible apply State.portPut_keeps
    | with_reducible apply keeps_foldl
    | with_reducible apply keeps_foldl_fst
    | with_reducible apply keeps_ite
    | with_reducible rfl
    | (extract_lets +onlyGivenNames -underBinder x; first | (refine keeps_cut (q := q) (j := j) (b := b) (x := x) ?_ ?_ <;> first | (intro h0; generalize x = y at h0 ⊢; clear x) | intro h0 | subst x) | (have h0 := Nat.zero_le x; generalize x = y at h0 ⊢; clear h0 x) | subst x)
    | (with_reducible refine keeps_fst (by with_reducible assumption) ?_)
    | (with_reducible refine keeps_snd (by with_reducible assumption) ?_)
    | split
    | dsimp only
    | (with_reducible refine keeps_mk ?_ ⟨rfl, rfl, rfl, rfl, rfl⟩ ⟨rfl, rfl⟩)

/-! ### Ports -/

theorem State.launchOutcome_keeps {q : List Instr} {j : TapSt} {b : TimeBase} {s : State} (e : LaunchEnt) (outcome : Nat) (stamp96 : Nat) (hs : Keeps q j b s) :
    Keeps q j b (State.launchOutcome s e outcome stamp96) := by
  unfold State.launchOutcome
  repeat' first
    | intro _
    | with_reducible assumption
    | with_reducible apply State.flag_keeps
    | with_reducible apply State.append_keeps
    | with_reducible apply keeps_ite
    | with_reducible rfl
    | (extract_lets +onlyGivenNames -underBinder x; first | (refine keeps_cut (q := q) (j := j) (b := b) (x := x) ?_ ?_ <;> first | (intro h0; generalize x = y at h0 ⊢; clear x) | intro h0 | subst x) | (have h0 := Nat.zero_le x; generalize x = y at h0 ⊢; clear h0 x) | subst x)
    | split
    | dsimp only
    | (with_reducible refine keeps_mk ?_ ⟨rfl, rfl, rfl, rfl, rfl⟩ ⟨rfl, rfl⟩)

theorem State.launchDrop_keeps {q : List Instr} {j : TapSt} {b : TimeBase} {s : State} (p : LaunchEnt → Bool) (outcome : Nat) (hs : Keeps q j b s) :
    Keeps q j b (State.launchDrop s p outcome) := by
  unfold State.launchDrop
  repeat' first
    | intro _
    | with_reducible assumption
    | with_reducible apply State.launchOutcome_keeps
    | with_reducible apply keeps_foldl
    | with_reducible apply keeps_foldl_fst
    | with_reducible rfl
    | dsimp only
    | (with_reducible refine keeps_mk ?_ ⟨rfl, rfl, rfl, rfl, rfl⟩ ⟨rfl, rfl⟩)

theorem State.portLeave_keeps {q : List Instr} {j : TapSt} {b : TimeBase} {s : State} (n : Nat) (toward : Nat) (hs : Keeps q j b s) :
    Keeps q j b (State.portLeave s n toward) := by
  unfold State.portLeave
  repeat' first
    | intro _
    | with_reducible assumption
    | with_reducible apply State.set_keeps
    | with_reducible apply State.launchDrop_keeps
    | with_reducible apply State.linksJudge_keeps
    | with_reducible apply State.undelivered_keeps
    | with_reducible apply State.modPort_keeps
    | with_reducible rfl
    | (extract_lets +onlyGivenNames -underBinder x; first | (refine keeps_cut (q := q) (j := j) (b := b) (x := x) ?_ ?_ <;> first | (intro h0; generalize x = y at h0 ⊢; clear x) | intro h0 | subst x) | (have h0 := Nat.zero_le x; generalize x = y at h0 ⊢; clear h0 x) | subst x)
    | dsimp only
    | (with_reducible refine keeps_mk ?_ ⟨rfl, rfl, rfl, rfl, rfl⟩ ⟨rfl, rfl⟩)

theorem State.portTrain_keeps {q : List Instr} {j : TapSt} {b : TimeBase} {s : State} (n : Nat) (hs : Keeps q j b s) :
    Keeps q j b (State.portTrain s n) := by
  unfold State.portTrain
  repeat' first
    | intro _
    | with_reducible assumption
    | with_reducible apply State.portLeave_keeps
    | with_reducible apply State.sendHello_keeps
    | with_reducible apply State.modPort_keeps
    | with_reducible apply keeps_ite
    | with_reducible rfl
    | (extract_lets +onlyGivenNames -underBinder x; first | (refine keeps_cut (q := q) (j := j) (b := b) (x := x) ?_ ?_ <;> first | (intro h0; generalize x = y at h0 ⊢; clear x) | intro h0 | subst x) | (have h0 := Nat.zero_le x; generalize x = y at h0 ⊢; clear h0 x) | subst x)
    | split
    | dsimp only
    | (with_reducible refine keeps_mk ?_ ⟨rfl, rfl, rfl, rfl, rfl⟩ ⟨rfl, rfl⟩)

theorem State.portTry_keeps {q : List Instr} {j : TapSt} {b : TimeBase} {s : State} (n : Nat) (hs : Keeps q j b s) :
    Keeps q j b (State.portTry s n) := by
  unfold State.portTry
  repeat' first
    | intro _
    | with_reducible assumption
    | with_reducible apply State.portTrain_keeps
    | with_reducible apply keeps_ite
    | with_reducible rfl
    | (extract_lets +onlyGivenNames -underBinder x; first | (refine keeps_cut (q := q) (j := j) (b := b) (x := x) ?_ ?_ <;> first | (intro h0; generalize x = y at h0 ⊢; clear x) | intro h0 | subst x) | (have h0 := Nat.zero_le x; generalize x = y at h0 ⊢; clear h0 x) | subst x)
    | split
    | dsimp only
    | (with_reducible refine keeps_mk ?_ ⟨rfl, rfl, rfl, rfl, rfl⟩ ⟨rfl, rfl⟩)

theorem State.signalDetect_keeps {q : List Instr} {j : TapSt} {b : TimeBase} {s : State} (n : Nat) (hs : Keeps q j b s) :
    Keeps q j b (State.signalDetect s n) := by
  unfold State.signalDetect
  repeat' first
    | intro _
    | with_reducible assumption
    | with_reducible apply State.portTry_keeps
    | with_reducible apply State.modPort_keeps
    | with_reducible rfl
    | dsimp only
    | (with_reducible refine keeps_mk ?_ ⟨rfl, rfl, rfl, rfl, rfl⟩ ⟨rfl, rfl⟩)

theorem State.groupValid_keeps {q : List Instr} {j : TapSt} {b : TimeBase} {s : State} (k : Nat) (hs : Keeps q j b s) :
    Keeps q j b (State.groupValid s k) := by
  unfold State.groupValid
  repeat' first
    | intro _
    | with_reducible assumption
    | with_reducible apply State.portTry_keeps
    | with_reducible apply keeps_foldl
    | with_reducible apply keeps_foldl_fst
    | with_reducible apply keeps_ite
    | with_reducible rfl
    | (extract_lets +onlyGivenNames -underBinder x; first | (refine keeps_cut (q := q) (j := j) (b := b) (x := x) ?_ ?_ <;> first | (intro h0; generalize x = y at h0 ⊢; clear x) | intro h0 | subst x) | (have h0 := Nat.zero_le x; generalize x = y at h0 ⊢; clear h0 x) | subst x)
    | split
    | dsimp only
    | (with_reducible refine keeps_mk ?_ ⟨rfl, rfl, rfl, rfl, rfl⟩ ⟨rfl, rfl⟩)

theorem State.trainingComplete_keeps {q : List Instr} {j : TapSt} {b : TimeBase} {s : State} (n : Nat) (eth : Bool) (hs : Keeps q j b s) :
    Keeps q j b (State.trainingComplete s n eth) := by
  unfold State.trainingComplete
  repeat' first
    | intro _
    | with_reducible assumption
    | with_reducible apply State.set_keeps
    | with_reducible apply State.portJoined_keeps
    | with_reducible apply State.modPort_keeps
    | with_reducible apply keeps_ite
    | with_reducible rfl
    | (extract_lets +onlyGivenNames -underBinder x; first | (refine keeps_cut (q := q) (j := j) (b := b) (x := x) ?_ ?_ <;> first | (intro h0; generalize x = y at h0 ⊢; clear x) | intro h0 | subst x) | (have h0 := Nat.zero_le x; generalize x = y at h0 ⊢; clear h0 x) | subst x)
    | split
    | dsimp only
    | (with_reducible refine keeps_mk ?_ ⟨rfl, rfl, rfl, rfl, rfl⟩ ⟨rfl, rfl⟩)

theorem State.autoSwitch_keeps {q : List Instr} {j : TapSt} {b : TimeBase} {s : State} (n : Nat) (hs : Keeps q j b s) :
    Keeps q j b (State.autoSwitch s n) := by
  unfold State.autoSwitch
  repeat' first
    | intro _
    | with_reducible assumption
    | with_reducible apply State.sendHello_keeps
    | with_reducible apply State.modPort_keeps
    | with_reducible apply keeps_ite
    | with_reducible rfl
    | (extract_lets +onlyGivenNames -underBinder x; first | (refine keeps_cut (q := q) (j := j) (b := b) (x := x) ?_ ?_ <;> first | (intro h0; generalize x = y at h0 ⊢; clear x) | intro h0 | subst x) | (have h0 := Nat.zero_le x; generalize x = y at h0 ⊢; clear h0 x) | subst x)
    | split
    | dsimp only
    | (with_reducible refine keeps_mk ?_ ⟨rfl, rfl, rfl, rfl, rfl⟩ ⟨rfl, rfl⟩)

theorem State.trainFail_keeps {q : List Instr} {j : TapSt} {b : TimeBase} {s : State} (n : Nat) (hs : Keeps q j b s) :
    Keeps q j b (State.trainFail s n) := by
  unfold State.trainFail
  repeat' first
    | intro _
    | with_reducible assumption
    | with_reducible apply State.flag_keeps
    | with_reducible apply State.portLeave_keeps
    | with_reducible apply State.modPort_keeps
    | with_reducible apply keeps_ite
    | with_reducible rfl
    | (extract_lets +onlyGivenNames -underBinder x; first | (refine keeps_cut (q := q) (j := j) (b := b) (x := x) ?_ ?_ <;> first | (intro h0; generalize x = y at h0 ⊢; clear x) | intro h0 | subst x) | (have h0 := Nat.zero_le x; generalize x = y at h0 ⊢; clear h0 x) | subst x)
    | split
    | dsimp only
    | (with_reducible refine keeps_mk ?_ ⟨rfl, rfl, rfl, rfl, rfl⟩ ⟨rfl, rfl⟩)

theorem State.trainRetry_keeps {q : List Instr} {j : TapSt} {b : TimeBase} {s : State} (n : Nat) (hs : Keeps q j b s) :
    Keeps q j b (State.trainRetry s n) := by
  unfold State.trainRetry
  repeat' first
    | intro _
    | with_reducible assumption
    | with_reducible apply State.portTrain_keeps
    | with_reducible apply State.modPort_keeps
    | with_reducible apply keeps_ite
    | with_reducible rfl
    | (extract_lets +onlyGivenNames -underBinder x; first | (refine keeps_cut (q := q) (j := j) (b := b) (x := x) ?_ ?_ <;> first | (intro h0; generalize x = y at h0 ⊢; clear x) | intro h0 | subst x) | (have h0 := Nat.zero_le x; generalize x = y at h0 ⊢; clear h0 x) | subst x)
    | split
    | dsimp only
    | (with_reducible refine keeps_mk ?_ ⟨rfl, rfl, rfl, rfl, rfl⟩ ⟨rfl, rfl⟩)

theorem State.los_keeps {q : List Instr} {j : TapSt} {b : TimeBase} {s : State} (n : Nat) (group : Bool) (hs : Keeps q j b s) :
    Keeps q j b (State.los s n group) := by
  unfold State.los
  repeat' first
    | intro _
    | with_reducible assumption
    | with_reducible apply State.flag_keeps
    | with_reducible apply State.portTrain_keeps
    | with_reducible apply State.modPort_keeps
    | with_reducible apply keeps_ite
    | with_reducible rfl
    | (extract_lets +onlyGivenNames -underBinder x; first | (refine keeps_cut (q := q) (j := j) (b := b) (x := x) ?_ ?_ <;> first | (intro h0; generalize x = y at h0 ⊢; clear x) | intro h0 | subst x) | (have h0 := Nat.zero_le x; generalize x = y at h0 ⊢; clear h0 x) | subst x)
    | split
    | dsimp only
    | (with_reducible refine keeps_mk ?_ ⟨rfl, rfl, rfl, rfl, rfl⟩ ⟨rfl, rfl⟩)

theorem State.portDegrade_keeps {q : List Instr} {j : TapSt} {b : TimeBase} {s : State} (n : Nat) (hs : Keeps q j b s) :
    Keeps q j b (State.portDegrade s n) := by
  unfold State.portDegrade
  repeat' first
    | intro _
    | with_reducible assumption
    | with_reducible apply State.set_keeps
    | with_reducible apply State.flag_keeps
    | with_reducible apply State.linksJudge_keeps
    | with_reducible apply State.modPort_keeps
    | with_reducible apply keeps_ite
    | with_reducible rfl
    | (extract_lets +onlyGivenNames -underBinder x; first | (refine keeps_cut (q := q) (j := j) (b := b) (x := x) ?_ ?_ <;> first | (intro h0; generalize x = y at h0 ⊢; clear x) | intro h0 | subst x) | (have h0 := Nat.zero_le x; generalize x = y at h0 ⊢; clear h0 x) | subst x)
    | split
    | dsimp only
    | (with_reducible refine keeps_mk ?_ ⟨rfl, rfl, rfl, rfl, rfl⟩ ⟨rfl, rfl⟩)

theorem State.portRetire_keeps {q : List Instr} {j : TapSt} {b : TimeBase} {s : State} (n : Nat) (cause : Nat) (hs : Keeps q j b s) :
    Keeps q j b (State.portRetire s n cause) := by
  unfold State.portRetire
  repeat' first
    | intro _
    | with_reducible assumption
    | with_reducible apply State.flag_keeps
    | with_reducible apply State.log_keeps
    | with_reducible apply State.portLeave_keeps
    | with_reducible apply keeps_foldl
    | with_reducible apply keeps_foldl_fst
    | with_reducible apply keeps_ite
    | with_reducible rfl
    | (extract_lets +onlyGivenNames -underBinder x; first | (refine keeps_cut (q := q) (j := j) (b := b) (x := x) ?_ ?_ <;> first | (intro h0; generalize x = y at h0 ⊢; clear x) | intro h0 | subst x) | (have h0 := Nat.zero_le x; generalize x = y at h0 ⊢; clear h0 x) | subst x)
    | split
    | dsimp only
    | (with_reducible refine keeps_mk ?_ ⟨rfl, rfl, rfl, rfl, rfl⟩ ⟨rfl, rfl⟩)

theorem State.ackTo_keeps {q : List Instr} {j : TapSt} {b : TimeBase} {s : State} (n : Nat) (a : Nat) (hs : Keeps q j b s) :
    Keeps q j b (State.ackTo s n a) := by
  unfold State.ackTo
  repeat' first
    | intro _
    | with_reducible assumption
    | with_reducible apply State.set_keeps
    | with_reducible apply State.portGo_keeps
    | with_reducible apply State.modPort_keeps
    | with_reducible apply keeps_ite
    | with_reducible rfl
    | (extract_lets +onlyGivenNames -underBinder x; first | (refine keeps_cut (q := q) (j := j) (b := b) (x := x) ?_ ?_ <;> first | (intro h0; generalize x = y at h0 ⊢; clear x) | intro h0 | subst x) | (have h0 := Nat.zero_le x; generalize x = y at h0 ⊢; clear h0 x) | subst x)
    | split
    | dsimp only
    | (with_reducible refine keeps_mk ?_ ⟨rfl, rfl, rfl, rfl, rfl⟩ ⟨rfl, rfl⟩)

theorem State.resend_keeps {q : List Instr} {j : TapSt} {b : TimeBase} {s : State} (n : Nat) (hs : Keeps q j b s) :
    Keeps q j b (State.resend s n) := by
  unfold State.resend
  repeat' first
    | intro _
    | with_reducible assumption
    | with_reducible apply State.set_keeps
    | with_reducible apply State.flag_keeps
    | with_reducible apply State.portRetire_keeps
    | with_reducible apply State.portDegrade_keeps
    | with_reducible apply State.modPort_keeps
    | with_reducible apply keeps_ite
    | with_reducible rfl
    | (extract_lets +onlyGivenNames -underBinder x; first | (refine keeps_cut (q := q) (j := j) (b := b) (x := x) ?_ ?_ <;> first | (intro h0; generalize x = y at h0 ⊢; clear x) | intro h0 | subst x) | (have h0 := Nat.zero_le x; generalize x = y at h0 ⊢; clear h0 x) | subst x)
    | split
    | dsimp only
    | (with_reducible refine keeps_mk ?_ ⟨rfl, rfl, rfl, rfl, rfl⟩ ⟨rfl, rfl⟩)

theorem State.badFrame_keeps {q : List Instr} {j : TapSt} {b : TimeBase} {s : State} (n : Nat) (nak : Bool) (hs : Keeps q j b s) :
    Keeps q j b (State.badFrame s n nak) := by
  unfold State.badFrame
  repeat' first
    | intro _
    | with_reducible assumption
    | with_reducible apply State.flag_keeps
    | with_reducible apply State.sendCtl_keeps
    | with_reducible apply State.modPort_keeps
    | with_reducible apply keeps_ite
    | with_reducible rfl
    | (extract_lets +onlyGivenNames -underBinder x; first | (refine keeps_cut (q := q) (j := j) (b := b) (x := x) ?_ ?_ <;> first | (intro h0; generalize x = y at h0 ⊢; clear x) | intro h0 | subst x) | (have h0 := Nat.zero_le x; generalize x = y at h0 ⊢; clear h0 x) | subst x)
    | split
    | dsimp only
    | (with_reducible refine keeps_mk ?_ ⟨rfl, rfl, rfl, rfl, rfl⟩ ⟨rfl, rfl⟩)

theorem State.linkData_keeps {q : List Instr} {j : TapSt} {b : TimeBase} {s : State} (n : Nat) (f : List Nat) (hs : Keeps q j b s) :
    Keeps q j b (State.linkData s n f) := by
  unfold State.linkData
  repeat' first
    | intro _
    | with_reducible assumption
    | with_reducible apply State.badFrame_keeps
    | with_reducible apply State.ackTo_keeps
    | with_reducible apply State.sendCtl_keeps
    | with_reducible apply State.modPort_keeps
    | with_reducible apply State.count_keeps
    | with_reducible apply keeps_ite
    | with_reducible rfl
    | (extract_lets +onlyGivenNames -underBinder x; first | (refine keeps_cut (q := q) (j := j) (b := b) (x := x) ?_ ?_ <;> first | (intro h0; generalize x = y at h0 ⊢; clear x) | intro h0 | subst x) | (have h0 := Nat.zero_le x; generalize x = y at h0 ⊢; clear h0 x) | subst x)
    | split
    | dsimp only
    | (with_reducible refine keeps_mk ?_ ⟨rfl, rfl, rfl, rfl, rfl⟩ ⟨rfl, rfl⟩)

theorem State.linkAck_keeps {q : List Instr} {j : TapSt} {b : TimeBase} {s : State} (n : Nat) (f : List Nat) (hs : Keeps q j b s) :
    Keeps q j b (State.linkAck s n f) := by
  unfold State.linkAck
  repeat' first
    | intro _
    | with_reducible assumption
    | with_reducible apply State.badFrame_keeps
    | with_reducible apply State.ackTo_keeps
    | with_reducible apply State.count_keeps
    | with_reducible apply keeps_ite
    | with_reducible rfl
    | (extract_lets +onlyGivenNames -underBinder x; first | (refine keeps_cut (q := q) (j := j) (b := b) (x := x) ?_ ?_ <;> first | (intro h0; generalize x = y at h0 ⊢; clear x) | intro h0 | subst x) | (have h0 := Nat.zero_le x; generalize x = y at h0 ⊢; clear h0 x) | subst x)
    | split
    | dsimp only
    | (with_reducible refine keeps_mk ?_ ⟨rfl, rfl, rfl, rfl, rfl⟩ ⟨rfl, rfl⟩)

theorem State.linkNak_keeps {q : List Instr} {j : TapSt} {b : TimeBase} {s : State} (n : Nat) (f : List Nat) (hs : Keeps q j b s) :
    Keeps q j b (State.linkNak s n f) := by
  unfold State.linkNak
  repeat' first
    | intro _
    | with_reducible assumption
    | with_reducible apply State.badFrame_keeps
    | with_reducible apply State.resend_keeps
    | with_reducible apply State.ackTo_keeps
    | with_reducible apply State.count_keeps
    | with_reducible apply keeps_ite
    | with_reducible rfl
    | (extract_lets +onlyGivenNames -underBinder x; first | (refine keeps_cut (q := q) (j := j) (b := b) (x := x) ?_ ?_ <;> first | (intro h0; generalize x = y at h0 ⊢; clear x) | intro h0 | subst x) | (have h0 := Nat.zero_le x; generalize x = y at h0 ⊢; clear h0 x) | subst x)
    | split
    | dsimp only
    | (with_reducible refine keeps_mk ?_ ⟨rfl, rfl, rfl, rfl, rfl⟩ ⟨rfl, rfl⟩)

theorem State.ackExpire_keeps {q : List Instr} {j : TapSt} {b : TimeBase} {s : State} (n : Nat) (hs : Keeps q j b s) :
    Keeps q j b (State.ackExpire s n) := by
  unfold State.ackExpire
  repeat' first
    | intro _
    | with_reducible assumption
    | with_reducible apply State.resend_keeps
    | with_reducible apply keeps_ite
    | with_reducible rfl
    | (extract_lets +onlyGivenNames -underBinder x; first | (refine keeps_cut (q := q) (j := j) (b := b) (x := x) ?_ ?_ <;> first | (intro h0; generalize x = y at h0 ⊢; clear x) | intro h0 | subst x) | (have h0 := Nat.zero_le x; generalize x = y at h0 ⊢; clear h0 x) | subst x)
    | split
    | dsimp only
    | (with_reducible refine keeps_mk ?_ ⟨rfl, rfl, rfl, rfl, rfl⟩ ⟨rfl, rfl⟩)

theorem State.asymBegin_keeps {q : List Instr} {j : TapSt} {b : TimeBase} {s : State} (n : Nat) (hs : Keeps q j b s) :
    Keeps q j b (State.asymBegin s n) := by
  unfold State.asymBegin
  repeat' first
    | intro _
    | with_reducible assumption
    | with_reducible apply State.modPort_keeps
    | with_reducible rfl
    | dsimp only
    | (with_reducible refine keeps_mk ?_ ⟨rfl, rfl, rfl, rfl, rfl⟩ ⟨rfl, rfl⟩)

theorem State.hello_keeps {q : List Instr} {j : TapSt} {b : TimeBase} {s : State} (n : Nat) (f : List Nat) (hs : Keeps q j b s) :
    Keeps q j b (State.hello s n f) := by
  unfold State.hello
  repeat' first
    | intro _
    | with_reducible assumption
    | with_reducible apply State.set_keeps
    | with_reducible apply State.asymBegin_keeps
    | with_reducible apply State.badFrame_keeps
    | with_reducible apply State.linksJudge_keeps
    | with_reducible apply State.undelivered_keeps
    | with_reducible apply State.sendHello_keeps
    | with_reducible apply State.modPort_keeps
    | with_reducible apply State.count_keeps
    | with_reducible apply keeps_ite
    | with_reducible rfl
    | (extract_lets +onlyGivenNames -underBinder x; first | (refine keeps_cut (q := q) (j := j) (b := b) (x := x) ?_ ?_ <;> first | (intro h0; generalize x = y at h0 ⊢; clear x) | intro h0 | subst x) | (have h0 := Nat.zero_le x; generalize x = y at h0 ⊢; clear h0 x) | subst x)
    | split
    | dsimp only
    | (with_reducible refine keeps_mk ?_ ⟨rfl, rfl, rfl, rfl, rfl⟩ ⟨rfl, rfl⟩)

theorem State.timingLaunch_keeps {q : List Instr} {j : TapSt} {b : TimeBase} {s : State} (n : Nat) (d : Nat) (hs : Keeps q j b s) :
    Keeps q j b (State.timingLaunch s n d) := by
  unfold State.timingLaunch
  repeat' first
    | intro _
    | with_reducible assumption
    | with_reducible apply State.tick_keeps
    | with_reducible apply State.modPort_keeps
    | with_reducible apply State.count_keeps
    | with_reducible apply keeps_ite
    | with_reducible rfl
    | (extract_lets +onlyGivenNames -underBinder x; first | (refine keeps_cut (q := q) (j := j) (b := b) (x := x) ?_ ?_ <;> first | (intro h0; generalize x = y at h0 ⊢; clear x) | intro h0 | subst x) | (have h0 := Nat.zero_le x; generalize x = y at h0 ⊢; clear h0 x) | subst x)
    | split
    | dsimp only
    | (with_reducible refine keeps_mk ?_ ⟨rfl, rfl, rfl, rfl, rfl⟩ ⟨rfl, rfl⟩)

theorem State.timingLaunches_keeps {q : List Instr} {j : TapSt} {b : TimeBase} {s : State} (l : List (Nat × Nat)) (hs : Keeps q j b s) :
    Keeps q j b (State.timingLaunches s l) := by
  unfold State.timingLaunches
  repeat' first
    | intro _
    | with_reducible assumption
    | with_reducible apply State.timingLaunch_keeps
    | with_reducible apply keeps_foldl
    | with_reducible apply keeps_foldl_fst
    | with_reducible rfl
    | dsimp only
    | (with_reducible refine keeps_mk ?_ ⟨rfl, rfl, rfl, rfl, rfl⟩ ⟨rfl, rfl⟩)

theorem State.asymTick_keeps {q : List Instr} {j : TapSt} {b : TimeBase} {s : State} (n : Nat) (hs : Keeps q j b s) :
    Keeps q j b (State.asymTick s n) := by
  unfold State.asymTick
  repeat' first
    | intro _
    | with_reducible assumption
    | with_reducible apply State.modPort_keeps
    | with_reducible apply State.setI_keeps
    | with_reducible apply keeps_ite
    | with_reducible rfl
    | (extract_lets +onlyGivenNames -underBinder x; first | (refine keeps_cut (q := q) (j := j) (b := b) (x := x) ?_ ?_ <;> first | (intro h0; generalize x = y at h0 ⊢; clear x) | intro h0 | subst x) | (have h0 := Nat.zero_le x; generalize x = y at h0 ⊢; clear h0 x) | subst x)
    | split
    | dsimp only
    | (with_reducible refine keeps_mk ?_ ⟨rfl, rfl, rfl, rfl, rfl⟩ ⟨rfl, rfl⟩)

theorem State.asymMeet_keeps {q : List Instr} {j : TapSt} {b : TimeBase} {s : State} (n : Nat) (peer : Nat) (theirs : Int) (hs : Keeps q j b s) :
    Keeps q j b (State.asymMeet s n peer theirs) := by
  unfold State.asymMeet
  repeat' first
    | intro _
    | with_reducible assumption
    | with_reducible apply State.flag_keeps
    | with_reducible apply State.setI_keeps
    | with_reducible apply keeps_ite
    | with_reducible rfl
    | (extract_lets +onlyGivenNames -underBinder x; first | (refine keeps_cut (q := q) (j := j) (b := b) (x := x) ?_ ?_ <;> first | (intro h0; generalize x = y at h0 ⊢; clear x) | intro h0 | subst x) | (have h0 := Nat.zero_le x; generalize x = y at h0 ⊢; clear h0 x) | subst x)
    | split
    | dsimp only
    | (with_reducible refine keeps_mk ?_ ⟨rfl, rfl, rfl, rfl, rfl⟩ ⟨rfl, rfl⟩)

theorem State.timingFrameIn_keeps {q : List Instr} {j : TapSt} {b : TimeBase} {s : State} (n : Nat) (f : List Nat) (hs : Keeps q j b s) :
    Keeps q j b (State.timingFrameIn s n f) := by
  unfold State.timingFrameIn
  repeat' first
    | intro _
    | with_reducible assumption
    | with_reducible apply State.tick_keeps
    | with_reducible apply State.asymMeet_keeps
    | with_reducible apply State.badFrame_keeps
    | with_reducible apply State.modPort_keeps
    | with_reducible apply State.count_keeps
    | with_reducible apply keeps_ite
    | with_reducible rfl
    | (extract_lets +onlyGivenNames -underBinder x; first | (refine keeps_cut (q := q) (j := j) (b := b) (x := x) ?_ ?_ <;> first | (intro h0; generalize x = y at h0 ⊢; clear x) | intro h0 | subst x) | (have h0 := Nat.zero_le x; generalize x = y at h0 ⊢; clear h0 x) | subst x)
    | split
    | dsimp only
    | (with_reducible refine keeps_mk ?_ ⟨rfl, rfl, rfl, rfl, rfl⟩ ⟨rfl, rfl⟩)

theorem State.sharedPut_keeps {q : List Instr} {j : TapSt} {b : TimeBase} {s : State} (a : Nat) (l : List Nat) (hs : Keeps q j b s) :
    Keeps q j b (State.sharedPut s a l) := by
  unfold State.sharedPut
  refine keeps_foldl _ _ hs fun t p h => ?_
  exact keeps_cpu h fun h => ⟨SMap.wf_set _ _ _ _ rfl _ h.1, h.2⟩

theorem State.recordPost_keeps {q : List Instr} {j : TapSt} {b : TimeBase} {s : State} (n : Nat) (hs : Keeps q j b s) :
    Keeps q j b (State.recordPost s n) := by
  unfold State.recordPost
  repeat' first
    | intro _
    | with_reducible assumption
    | with_reducible apply State.set_keeps
    | with_reducible apply State.flag_keeps
    | with_reducible apply State.tick_keeps
    | with_reducible apply State.sharedPut_keeps
    | with_reducible apply State.modPort_keeps
    | with_reducible apply State.setI_keeps
    | with_reducible apply keeps_ite
    | with_reducible rfl
    | (extract_lets +onlyGivenNames -underBinder x; first | (refine keeps_cut (q := q) (j := j) (b := b) (x := x) ?_ ?_ <;> first | (intro h0; generalize x = y at h0 ⊢; clear x) | intro h0 | subst x) | (have h0 := Nat.zero_le x; generalize x = y at h0 ⊢; clear h0 x) | subst x)
    | split
    | dsimp only
    | (with_reducible refine keeps_mk ?_ ⟨rfl, rfl, rfl, rfl, rfl⟩ ⟨rfl, rfl⟩)

theorem State.linkMissing_keeps {q : List Instr} {j : TapSt} {b : TimeBase} {s : State} (n : Nat) (hs : Keeps q j b s) :
    Keeps q j b (State.linkMissing s n) := by
  unfold State.linkMissing
  repeat' first
    | intro _
    | with_reducible assumption
    | with_reducible apply State.flag_keeps
    | with_reducible apply State.tick_keeps
    | with_reducible apply State.sharedPut_keeps
    | with_reducible apply State.modPort_keeps
    | with_reducible apply keeps_ite
    | with_reducible rfl
    | (extract_lets +onlyGivenNames -underBinder x; first | (refine keeps_cut (q := q) (j := j) (b := b) (x := x) ?_ ?_ <;> first | (intro h0; generalize x = y at h0 ⊢; clear x) | intro h0 | subst x) | (have h0 := Nat.zero_le x; generalize x = y at h0 ⊢; clear h0 x) | subst x)
    | split
    | dsimp only
    | (with_reducible refine keeps_mk ?_ ⟨rfl, rfl, rfl, rfl, rfl⟩ ⟨rfl, rfl⟩)

theorem State.asymSee_keeps {q : List Instr} {j : TapSt} {b : TimeBase} {s : State} (x : Int) (hs : Keeps q j b s) :
    Keeps q j b (State.asymSee s x) := by
  unfold State.asymSee
  repeat' first
    | intro _
    | with_reducible assumption
    | with_reducible apply State.modPort_keeps
    | with_reducible apply keeps_foldl
    | with_reducible apply keeps_foldl_fst
    | with_reducible rfl
    | (extract_lets +onlyGivenNames -underBinder x; first | (refine keeps_cut (q := q) (j := j) (b := b) (x := x) ?_ ?_ <;> first | (intro h0; generalize x = y at h0 ⊢; clear x) | intro h0 | subst x) | (have h0 := Nat.zero_le x; generalize x = y at h0 ⊢; clear h0 x) | subst x)
    | dsimp only
    | (with_reducible refine keeps_mk ?_ ⟨rfl, rfl, rfl, rfl, rfl⟩ ⟨rfl, rfl⟩)

theorem State.asymCal_keeps {q : List Instr} {j : TapSt} {b : TimeBase} {s : State} (n : Nat) (peer : Int) (sigma : Nat) (hs : Keeps q j b s) :
    Keeps q j b (State.asymCal s n peer sigma) := by
  unfold State.asymCal
  repeat' first
    | intro _
    | with_reducible assumption
    | with_reducible apply State.set_keeps
    | with_reducible apply State.asymBegin_keeps
    | with_reducible apply State.setI_keeps
    | with_reducible apply keeps_ite
    | with_reducible rfl
    | (extract_lets +onlyGivenNames -underBinder x; first | (refine keeps_cut (q := q) (j := j) (b := b) (x := x) ?_ ?_ <;> first | (intro h0; generalize x = y at h0 ⊢; clear x) | intro h0 | subst x) | (have h0 := Nat.zero_le x; generalize x = y at h0 ⊢; clear h0 x) | subst x)
    | split
    | dsimp only
    | (with_reducible refine keeps_mk ?_ ⟨rfl, rfl, rfl, rfl, rfl⟩ ⟨rfl, rfl⟩)

theorem State.errorSecond_keeps {q : List Instr} {j : TapSt} {b : TimeBase} {s : State} (n : Nat) (errs : Nat) (hs : Keeps q j b s) :
    Keeps q j b (State.errorSecond s n errs) := by
  unfold State.errorSecond
  repeat' first
    | intro _
    | with_reducible assumption
    | with_reducible apply State.set_keeps
    | with_reducible apply State.flag_keeps
    | with_reducible apply State.portRetire_keeps
    | with_reducible apply State.portDegrade_keeps
    | with_reducible apply State.modPort_keeps
    | with_reducible apply keeps_ite
    | with_reducible rfl
    | (extract_lets +onlyGivenNames -underBinder x; first | (refine keeps_cut (q := q) (j := j) (b := b) (x := x) ?_ ?_ <;> first | (intro h0; generalize x = y at h0 ⊢; clear x) | intro h0 | subst x) | (have h0 := Nat.zero_le x; generalize x = y at h0 ⊢; clear h0 x) | subst x)
    | split
    | dsimp only
    | (with_reducible refine keeps_mk ?_ ⟨rfl, rfl, rfl, rfl, rfl⟩ ⟨rfl, rfl⟩)

theorem State.recovery_keeps {q : List Instr} {j : TapSt} {b : TimeBase} {s : State} (n : Nat) (hs : Keeps q j b s) :
    Keeps q j b (State.recovery s n) := by
  unfold State.recovery
  repeat' first
    | intro _
    | with_reducible assumption
    | with_reducible apply State.set_keeps
    | with_reducible apply State.linksJudge_keeps
    | with_reducible apply keeps_ite
    | with_reducible rfl
    | split
    | dsimp only
    | (with_reducible refine keeps_mk ?_ ⟨rfl, rfl, rfl, rfl, rfl⟩ ⟨rfl, rfl⟩)

theorem State.retrain_keeps {q : List Instr} {j : TapSt} {b : TimeBase} {s : State} (n : Nat) (hs : Keeps q j b s) :
    Keeps q j b (State.retrain s n) := by
  unfold State.retrain
  repeat' first
    | intro _
    | with_reducible assumption
    | with_reducible apply State.portTrain_keeps
    | with_reducible apply State.modPort_keeps
    | with_reducible apply keeps_ite
    | with_reducible rfl
    | (extract_lets +onlyGivenNames -underBinder x; first | (refine keeps_cut (q := q) (j := j) (b := b) (x := x) ?_ ?_ <;> first | (intro h0; generalize x = y at h0 ⊢; clear x) | intro h0 | subst x) | (have h0 := Nat.zero_le x; generalize x = y at h0 ⊢; clear h0 x) | subst x)
    | split
    | dsimp only
    | (with_reducible refine keeps_mk ?_ ⟨rfl, rfl, rfl, rfl, rfl⟩ ⟨rfl, rfl⟩)

theorem State.launchAccept_keeps {q : List Instr} {j : TapSt} {b0 : TimeBase} {s : State} (b : List Nat) (hs : Keeps q j b0 s) :
    Keeps q j b0 (State.launchAccept s b).1 := by
  unfold State.launchAccept
  repeat' first
    | intro _
    | with_reducible assumption
    | with_reducible apply keeps_ite_fst
    | with_reducible rfl
    | (extract_lets +onlyGivenNames -underBinder x; first | (refine keeps_cut (q := q) (j := j) (b := b0) (x := x) ?_ ?_ <;> first | (intro h0; generalize x = y at h0 ⊢; clear x) | intro h0 | subst x) | (have h0 := Nat.zero_le x; generalize x = y at h0 ⊢; clear h0 x) | subst x)
    | dsimp only
    | (with_reducible refine keeps_mk ?_ ⟨rfl, rfl, rfl, rfl, rfl⟩ ⟨rfl, rfl⟩)

theorem State.frameLaunch_keeps {q : List Instr} {j : TapSt} {b : TimeBase} {s : State} (n : Nat) (hs : Keeps q j b s) :
    Keeps q j b (State.frameLaunch s n) := by
  unfold State.frameLaunch
  repeat' first
    | intro _
    | with_reducible assumption
    | with_reducible apply State.launchOutcome_keeps
    | with_reducible apply State.count_keeps
    | with_reducible apply keeps_ite
    | with_reducible rfl
    | (extract_lets +onlyGivenNames -underBinder x; first | (refine keeps_cut (q := q) (j := j) (b := b) (x := x) ?_ ?_ <;> first | (intro h0; generalize x = y at h0 ⊢; clear x) | intro h0 | subst x) | (have h0 := Nat.zero_le x; generalize x = y at h0 ⊢; clear h0 x) | subst x)
    | split
    | dsimp only
    | (with_reducible refine keeps_mk ?_ ⟨rfl, rfl, rfl, rfl, rfl⟩ ⟨rfl, rfl⟩)

theorem State.portsTick_keeps {q : List Instr} {j : TapSt} {b : TimeBase} {s : State}  (hs : Keeps q j b s) :
    Keeps q j b (State.portsTick s) := by
  unfold State.portsTick
  repeat' first
    | intro _
    | with_reducible assumption
    | with_reducible apply State.asymTick_keeps
    | with_reducible apply State.portTry_keeps
    | with_reducible apply State.portTrain_keeps
    | with_reducible apply State.portLeave_keeps
    | with_reducible apply State.portGo_keeps
    | with_reducible apply State.modPort_keeps
    | with_reducible apply keeps_foldl
    | with_reducible apply keeps_foldl_fst
    | with_reducible apply keeps_ite
    | with_reducible rfl
    | (extract_lets +onlyGivenNames -underBinder x; first | (refine keeps_cut (q := q) (j := j) (b := b) (x := x) ?_ ?_ <;> first | (intro h0; generalize x = y at h0 ⊢; clear x) | intro h0 | subst x) | (have h0 := Nat.zero_le x; generalize x = y at h0 ⊢; clear h0 x) | subst x)
    | split
    | dsimp only
    | (with_reducible refine keeps_mk ?_ ⟨rfl, rfl, rfl, rfl, rfl⟩ ⟨rfl, rfl⟩)

theorem State.portDisable_keeps {q : List Instr} {j : TapSt} {b : TimeBase} {s : State} (n : Nat) (hs : Keeps q j b s) :
    Keeps q j b (State.portDisable s n) := by
  unfold State.portDisable
  repeat' first
    | intro _
    | with_reducible assumption
    | with_reducible apply State.portLeave_keeps
    | with_reducible apply State.modPort_keeps
    | with_reducible apply keeps_ite
    | with_reducible rfl
    | split
    | dsimp only
    | (with_reducible refine keeps_mk ?_ ⟨rfl, rfl, rfl, rfl, rfl⟩ ⟨rfl, rfl⟩)

theorem State.portsStep_keeps {q : List Instr} {j : TapSt} {b : TimeBase} {s : State}  (hs : Keeps q j b s) :
    Keeps q j b (State.portsStep s) := by
  unfold State.portsStep
  repeat' first
    | intro _
    | with_reducible assumption
    | with_reducible apply State.launchDrop_keeps
    | with_reducible apply State.modPort_keeps
    | with_reducible apply keeps_foldl
    | with_reducible apply keeps_foldl_fst
    | with_reducible rfl
    | (extract_lets +onlyGivenNames -underBinder x; first | (refine keeps_cut (q := q) (j := j) (b := b) (x := x) ?_ ?_ <;> first | (intro h0; generalize x = y at h0 ⊢; clear x) | intro h0 | subst x) | (have h0 := Nat.zero_le x; generalize x = y at h0 ⊢; clear h0 x) | subst x)
    | dsimp only
    | (with_reducible refine keeps_mk ?_ ⟨rfl, rfl, rfl, rfl, rfl⟩ ⟨rfl, rfl⟩)

theorem State.portsReset_keeps {q : List Instr} {j : TapSt} {b : TimeBase} {s : State}  (hs : Keeps q j b s) :
    Keeps q j b (State.portsReset s) := by
  unfold State.portsReset
  repeat' first
    | intro _
    | with_reducible assumption
    | with_reducible apply State.modPort_keeps
    | with_reducible apply State.setStream_keeps
    | with_reducible apply keeps_foldl
    | with_reducible apply keeps_foldl_fst
    | with_reducible rfl
    | (extract_lets +onlyGivenNames -underBinder x; first | (refine keeps_cut (q := q) (j := j) (b := b) (x := x) ?_ ?_ <;> first | (intro h0; generalize x = y at h0 ⊢; clear x) | intro h0 | subst x) | (have h0 := Nat.zero_le x; generalize x = y at h0 ⊢; clear h0 x) | subst x)
    | dsimp only
    | (with_reducible refine keeps_mk ?_ ⟨rfl, rfl, rfl, rfl, rfl⟩ ⟨rfl, rfl⟩)

theorem State.portsHello_keeps {q : List Instr} {j : TapSt} {b : TimeBase} {s : State}  (hs : Keeps q j b s) :
    Keeps q j b (State.portsHello s) := by
  unfold State.portsHello
  repeat' first
    | intro _
    | with_reducible assumption
    | with_reducible apply State.sendHello_keeps
    | with_reducible apply keeps_foldl
    | with_reducible apply keeps_foldl_fst
    | with_reducible rfl
    | dsimp only
    | (with_reducible refine keeps_mk ?_ ⟨rfl, rfl, rfl, rfl, rfl⟩ ⟨rfl, rfl⟩)

theorem State.portsSelfTest_keeps {q : List Instr} {j : TapSt} {b : TimeBase} {s : State} (failed : List Nat) (hs : Keeps q j b s) :
    Keeps q j b (State.portsSelfTest s failed) := by
  unfold State.portsSelfTest
  repeat' first
    | intro _
    | with_reducible assumption
    | with_reducible apply State.set_keeps
    | with_reducible apply keeps_foldl
    | with_reducible apply keeps_foldl_fst
    | with_reducible apply keeps_ite
    | with_reducible rfl
    | split
    | dsimp only
    | (with_reducible refine keeps_mk ?_ ⟨rfl, rfl, rfl, rfl, rfl⟩ ⟨rfl, rfl⟩)

end Sys2Proof.Machine
end

