-- ==== Sys2Proof/Laws/KeepsNetwork.lean ====
section
/-!
SUPPORT. What the operations keep: precision time, the network, search, the time solution and the Lake.
-/

set_option linter.all false
set_option Elab.async false

namespace Sys2Proof.Machine

/-! ### Ptp -/

theorem State.modPtp_keeps {q : List Instr} {j : TapSt} {b : TimeBase} {s : State} (n : Nat) (f : PtpSt → PtpSt) (hs : Keeps q j b s) :
    Keeps q j b (State.modPtp s n f) := by
  unfold State.modPtp
  repeat' first
    | intro _
    | with_reducible assumption
    | with_reducible apply State.modPort_keeps
    | with_reducible rfl
    | dsimp only
    | (with_reducible refine keeps_mk ?_ ⟨rfl, rfl, rfl, rfl, rfl⟩ ⟨rfl, rfl⟩)

theorem State.ptpSend_keeps {q : List Instr} {j : TapSt} {b : TimeBase} {s : State} (n : Nat) (m : PtpMsg) (hs : Keeps q j b s) :
    Keeps q j b (State.ptpSend s n m) := by
  unfold State.ptpSend
  repeat' first
    | intro _
    | with_reducible assumption
    | with_reducible apply State.modPtp_keeps
    | with_reducible apply State.count_keeps
    | with_reducible rfl
    | dsimp only
    | (with_reducible refine keeps_mk ?_ ⟨rfl, rfl, rfl, rfl, rfl⟩ ⟨rfl, rfl⟩)

theorem State.ptpJudge_keeps {q : List Instr} {j : TapSt} {b : TimeBase} {s : State} (n : Nat) (hs : Keeps q j b s) :
    Keeps q j b (State.ptpJudge s n) := by
  unfold State.ptpJudge
  repeat' first
    | intro _
    | with_reducible assumption
    | with_reducible apply State.set_keeps
    | with_reducible apply State.modPtp_keeps
    | with_reducible apply keeps_ite
    | with_reducible rfl
    | (extract_lets +onlyGivenNames -underBinder x; first | (refine keeps_cut (q := q) (j := j) (b := b) (x := x) ?_ ?_ <;> first | (intro h0; generalize x = y at h0 ⊢; clear x) | intro h0 | subst x) | (have h0 := Nat.zero_le x; generalize x = y at h0 ⊢; clear h0 x) | subst x)
    | split
    | dsimp only
    | (with_reducible refine keeps_mk ?_ ⟨rfl, rfl, rfl, rfl, rfl⟩ ⟨rfl, rfl⟩)

theorem State.ptpTick_keeps {q : List Instr} {j : TapSt} {b : TimeBase} {s : State}  (hs : Keeps q j b s) :
    Keeps q j b (State.ptpTick s) := by
  unfold State.ptpTick
  repeat' first
    | intro _
    | with_reducible assumption
    | with_reducible apply State.set_keeps
    | with_reducible apply State.ptpJudge_keeps
    | with_reducible apply State.setI_keeps
    | with_reducible apply keeps_foldl
    | with_reducible apply keeps_foldl_fst
    | with_reducible apply keeps_ite
    | with_reducible rfl
    | (extract_lets +onlyGivenNames -underBinder x; first | (refine keeps_cut (q := q) (j := j) (b := b) (x := x) ?_ ?_ <;> first | (intro h0; generalize x = y at h0 ⊢; clear x) | intro h0 | subst x) | (have h0 := Nat.zero_le x; generalize x = y at h0 ⊢; clear h0 x) | subst x)
    | split
    | dsimp only
    | (with_reducible refine keeps_mk ?_ ⟨rfl, rfl, rfl, rfl, rfl⟩ ⟨rfl, rfl⟩)

theorem State.syncSend_keeps {q : List Instr} {j : TapSt} {b : TimeBase} {s : State} (n : Nat) (hs : Keeps q j b s) :
    Keeps q j b (State.syncSend s n) := by
  unfold State.syncSend
  repeat' first
    | intro _
    | with_reducible assumption
    | with_reducible apply State.ptpSend_keeps
    | with_reducible apply State.modPtp_keeps
    | with_reducible apply keeps_ite
    | with_reducible rfl
    | (extract_lets +onlyGivenNames -underBinder x; first | (refine keeps_cut (q := q) (j := j) (b := b) (x := x) ?_ ?_ <;> first | (intro h0; generalize x = y at h0 ⊢; clear x) | intro h0 | subst x) | (have h0 := Nat.zero_le x; generalize x = y at h0 ⊢; clear h0 x) | subst x)
    | split
    | dsimp only
    | (with_reducible refine keeps_mk ?_ ⟨rfl, rfl, rfl, rfl, rfl⟩ ⟨rfl, rfl⟩)

theorem State.announceSend_keeps {q : List Instr} {j : TapSt} {b : TimeBase} {s : State} (n : Nat) (hs : Keeps q j b s) :
    Keeps q j b (State.announceSend s n) := by
  unfold State.announceSend
  repeat' first
    | intro _
    | with_reducible assumption
    | with_reducible apply State.ptpSend_keeps
    | with_reducible apply State.modPtp_keeps
    | with_reducible apply State.takeFree_keeps
    | with_reducible apply keeps_ite
    | with_reducible rfl
    | (extract_lets +onlyGivenNames -underBinder x; first | (refine keeps_cut (q := q) (j := j) (b := b) (x := x) ?_ ?_ <;> first | (intro h0; generalize x = y at h0 ⊢; clear x) | intro h0 | subst x) | (have h0 := Nat.zero_le x; generalize x = y at h0 ⊢; clear h0 x) | subst x)
    | split
    | dsimp only
    | (with_reducible refine keeps_mk ?_ ⟨rfl, rfl, rfl, rfl, rfl⟩ ⟨rfl, rfl⟩)

theorem State.delaySend_keeps {q : List Instr} {j : TapSt} {b : TimeBase} {s : State} (n : Nat) (hs : Keeps q j b s) :
    Keeps q j b (State.delaySend s n) := by
  unfold State.delaySend
  repeat' first
    | intro _
    | with_reducible assumption
    | with_reducible apply State.ptpSend_keeps
    | with_reducible apply State.modPtp_keeps
    | with_reducible apply keeps_ite
    | with_reducible rfl
    | (extract_lets +onlyGivenNames -underBinder x; first | (refine keeps_cut (q := q) (j := j) (b := b) (x := x) ?_ ?_ <;> first | (intro h0; generalize x = y at h0 ⊢; clear x) | intro h0 | subst x) | (have h0 := Nat.zero_le x; generalize x = y at h0 ⊢; clear h0 x) | subst x)
    | split
    | dsimp only
    | (with_reducible refine keeps_mk ?_ ⟨rfl, rfl, rfl, rfl, rfl⟩ ⟨rfl, rfl⟩)

theorem State.ptpHeard_keeps {q : List Instr} {j : TapSt} {b : TimeBase} {s : State} (n : Nat) (kind : Nat) (m : PtpMsg) (f : State → State) (hs : Keeps q j b s) (hf : ∀ t, Keeps q j b t → Keeps q j b (f t)) :
    Keeps q j b (State.ptpHeard s n kind m f) := by
  unfold State.ptpHeard
  repeat' first
    | intro _
    | with_reducible assumption
    | with_reducible apply State.flag_keeps
    | with_reducible apply State.count_keeps
    | with_reducible apply hf
    | with_reducible apply keeps_ite
    | with_reducible rfl
    | (extract_lets +onlyGivenNames -underBinder x; first | (refine keeps_cut (q := q) (j := j) (b := b) (x := x) ?_ ?_ <;> first | (intro h0; generalize x = y at h0 ⊢; clear x) | intro h0 | subst x) | (have h0 := Nat.zero_le x; generalize x = y at h0 ⊢; clear h0 x) | subst x)
    | split
    | dsimp only
    | (with_reducible refine keeps_mk ?_ ⟨rfl, rfl, rfl, rfl, rfl⟩ ⟨rfl, rfl⟩)

theorem State.ptpForward_keeps {q : List Instr} {j : TapSt} {b : TimeBase} {s : State} (n : Nat) (m : PtpMsg) (event : Bool) (out : List (Nat × Nat)) (hs : Keeps q j b s) :
    Keeps q j b (State.ptpForward s n m event out) := by
  unfold State.ptpForward
  repeat' first
    | intro _
    | with_reducible assumption
    | with_reducible apply State.ptpSend_keeps
    | with_reducible apply State.modPtp_keeps
    | with_reducible apply keeps_foldl
    | with_reducible apply keeps_foldl_fst
    | with_reducible apply keeps_ite
    | with_reducible rfl
    | (extract_lets +onlyGivenNames -underBinder x; first | (refine keeps_cut (q := q) (j := j) (b := b) (x := x) ?_ ?_ <;> first | (intro h0; generalize x = y at h0 ⊢; clear x) | intro h0 | subst x) | (have h0 := Nat.zero_le x; generalize x = y at h0 ⊢; clear h0 x) | subst x)
    | split
    | dsimp only
    | (with_reducible refine keeps_mk ?_ ⟨rfl, rfl, rfl, rfl, rfl⟩ ⟨rfl, rfl⟩)

theorem State.syncUse_keeps {q : List Instr} {j : TapSt} {b : TimeBase} {s : State} (n : Nat) (down : Int) (hs : Keeps q j b s) :
    Keeps q j b (State.syncUse s n down) := by
  unfold State.syncUse
  repeat' first
    | intro _
    | with_reducible assumption
    | with_reducible apply State.modPtp_keeps
    | with_reducible apply State.setI_keeps
    | with_reducible rfl
    | (extract_lets +onlyGivenNames -underBinder x; first | (refine keeps_cut (q := q) (j := j) (b := b) (x := x) ?_ ?_ <;> first | (intro h0; generalize x = y at h0 ⊢; clear x) | intro h0 | subst x) | (have h0 := Nat.zero_le x; generalize x = y at h0 ⊢; clear h0 x) | subst x)
    | dsimp only
    | (with_reducible refine keeps_mk ?_ ⟨rfl, rfl, rfl, rfl, rfl⟩ ⟨rfl, rfl⟩)

theorem State.syncIn_keeps {q : List Instr} {j : TapSt} {b : TimeBase} {s : State} (n : Nat) (m : PtpMsg) (out : List (Nat × Nat)) (hs : Keeps q j b s) :
    Keeps q j b (State.syncIn s n m out) := by
  unfold State.syncIn
  repeat' first
    | intro _
    | with_reducible assumption
    | with_reducible apply State.syncUse_keeps
    | with_reducible apply State.ptpForward_keeps
    | with_reducible apply State.ptpHeard_keeps
    | with_reducible apply State.modPtp_keeps
    | with_reducible apply keeps_ite
    | with_reducible rfl
    | split
    | dsimp only
    | (with_reducible refine keeps_mk ?_ ⟨rfl, rfl, rfl, rfl, rfl⟩ ⟨rfl, rfl⟩)

theorem State.followIn_keeps {q : List Instr} {j : TapSt} {b : TimeBase} {s : State} (n : Nat) (m : PtpMsg) (hs : Keeps q j b s) :
    Keeps q j b (State.followIn s n m) := by
  unfold State.followIn
  repeat' first
    | intro _
    | with_reducible assumption
    | with_reducible apply State.syncUse_keeps
    | with_reducible apply State.ptpHeard_keeps
    | with_reducible apply State.ptpSend_keeps
    | with_reducible apply State.modPtp_keeps
    | with_reducible apply keeps_foldl
    | with_reducible apply keeps_foldl_fst
    | with_reducible apply keeps_ite
    | with_reducible rfl
    | split
    | dsimp only
    | (with_reducible refine keeps_mk ?_ ⟨rfl, rfl, rfl, rfl, rfl⟩ ⟨rfl, rfl⟩)

theorem State.delayReqIn_keeps {q : List Instr} {j : TapSt} {b : TimeBase} {s : State} (n : Nat) (m : PtpMsg) (out : List (Nat × Nat)) (hs : Keeps q j b s) :
    Keeps q j b (State.delayReqIn s n m out) := by
  unfold State.delayReqIn
  repeat' first
    | intro _
    | with_reducible assumption
    | with_reducible apply State.ptpForward_keeps
    | with_reducible apply State.ptpHeard_keeps
    | with_reducible apply State.ptpSend_keeps
    | with_reducible apply keeps_ite
    | with_reducible rfl
    | (extract_lets +onlyGivenNames -underBinder x; first | (refine keeps_cut (q := q) (j := j) (b := b) (x := x) ?_ ?_ <;> first | (intro h0; generalize x = y at h0 ⊢; clear x) | intro h0 | subst x) | (have h0 := Nat.zero_le x; generalize x = y at h0 ⊢; clear h0 x) | subst x)
    | split
    | dsimp only
    | (with_reducible refine keeps_mk ?_ ⟨rfl, rfl, rfl, rfl, rfl⟩ ⟨rfl, rfl⟩)

theorem State.delayRespIn_keeps {q : List Instr} {j : TapSt} {b : TimeBase} {s : State} (n : Nat) (m : PtpMsg) (out : List (Nat × Nat)) (hs : Keeps q j b s) :
    Keeps q j b (State.delayRespIn s n m out) := by
  unfold State.delayRespIn
  repeat' first
    | intro _
    | with_reducible assumption
    | with_reducible apply State.ptpForward_keeps
    | with_reducible apply State.ptpHeard_keeps
    | with_reducible apply State.modPtp_keeps
    | with_reducible apply State.setI_keeps
    | with_reducible apply keeps_ite
    | with_reducible rfl
    | (extract_lets +onlyGivenNames -underBinder x; first | (refine keeps_cut (q := q) (j := j) (b := b) (x := x) ?_ ?_ <;> first | (intro h0; generalize x = y at h0 ⊢; clear x) | intro h0 | subst x) | (have h0 := Nat.zero_le x; generalize x = y at h0 ⊢; clear h0 x) | subst x)
    | split
    | dsimp only
    | (with_reducible refine keeps_mk ?_ ⟨rfl, rfl, rfl, rfl, rfl⟩ ⟨rfl, rfl⟩)

theorem State.pdelayReqIn_keeps {q : List Instr} {j : TapSt} {b : TimeBase} {s : State} (n : Nat) (m : PtpMsg) (turn : Nat) (out : List (Nat × Nat)) (hs : Keeps q j b s) :
    Keeps q j b (State.pdelayReqIn s n m turn out) := by
  unfold State.pdelayReqIn
  repeat' first
    | intro _
    | with_reducible assumption
    | with_reducible apply State.ptpForward_keeps
    | with_reducible apply State.ptpHeard_keeps
    | with_reducible apply State.ptpSend_keeps
    | with_reducible apply keeps_ite
    | with_reducible rfl
    | (extract_lets +onlyGivenNames -underBinder x; first | (refine keeps_cut (q := q) (j := j) (b := b) (x := x) ?_ ?_ <;> first | (intro h0; generalize x = y at h0 ⊢; clear x) | intro h0 | subst x) | (have h0 := Nat.zero_le x; generalize x = y at h0 ⊢; clear h0 x) | subst x)
    | split
    | dsimp only
    | (with_reducible refine keeps_mk ?_ ⟨rfl, rfl, rfl, rfl, rfl⟩ ⟨rfl, rfl⟩)

theorem State.pdelayRespIn_keeps {q : List Instr} {j : TapSt} {b : TimeBase} {s : State} (n : Nat) (m : PtpMsg) (out : List (Nat × Nat)) (hs : Keeps q j b s) :
    Keeps q j b (State.pdelayRespIn s n m out) := by
  unfold State.pdelayRespIn
  repeat' first
    | intro _
    | with_reducible assumption
    | with_reducible apply State.ptpForward_keeps
    | with_reducible apply State.ptpHeard_keeps
    | with_reducible apply State.modPtp_keeps
    | with_reducible apply State.setI_keeps
    | with_reducible apply keeps_ite
    | with_reducible rfl
    | split
    | dsimp only
    | (with_reducible refine keeps_mk ?_ ⟨rfl, rfl, rfl, rfl, rfl⟩ ⟨rfl, rfl⟩)

theorem State.announceIn_keeps {q : List Instr} {j : TapSt} {b : TimeBase} {s : State} (n : Nat) (m : PtpMsg) (out : List (Nat × Nat)) (hs : Keeps q j b s) :
    Keeps q j b (State.announceIn s n m out) := by
  unfold State.announceIn
  repeat' first
    | intro _
    | with_reducible assumption
    | with_reducible apply State.flag_keeps
    | with_reducible apply State.ptpForward_keeps
    | with_reducible apply State.ptpHeard_keeps
    | with_reducible apply State.ptpJudge_keeps
    | with_reducible apply State.modPtp_keeps
    | with_reducible apply keeps_foldl
    | with_reducible apply keeps_foldl_fst
    | with_reducible apply keeps_ite
    | with_reducible rfl
    | (extract_lets +onlyGivenNames -underBinder x; first | (refine keeps_cut (q := q) (j := j) (b := b) (x := x) ?_ ?_ <;> first | (intro h0; generalize x = y at h0 ⊢; clear x) | intro h0 | subst x) | (have h0 := Nat.zero_le x; generalize x = y at h0 ⊢; clear h0 x) | subst x)
    | split
    | dsimp only
    | (with_reducible refine keeps_mk ?_ ⟨rfl, rfl, rfl, rfl, rfl⟩ ⟨rfl, rfl⟩)

theorem State.announceTimeout_keeps {q : List Instr} {j : TapSt} {b : TimeBase} {s : State} (n : Nat) (hs : Keeps q j b s) :
    Keeps q j b (State.announceTimeout s n) := by
  unfold State.announceTimeout
  repeat' first
    | intro _
    | with_reducible assumption
    | with_reducible apply State.flag_keeps
    | with_reducible apply State.ptpJudge_keeps
    | with_reducible apply State.modPtp_keeps
    | with_reducible apply keeps_foldl
    | with_reducible apply keeps_foldl_fst
    | with_reducible apply keeps_ite
    | with_reducible rfl
    | (extract_lets +onlyGivenNames -underBinder x; first | (refine keeps_cut (q := q) (j := j) (b := b) (x := x) ?_ ?_ <;> first | (intro h0; generalize x = y at h0 ⊢; clear x) | intro h0 | subst x) | (have h0 := Nat.zero_le x; generalize x = y at h0 ⊢; clear h0 x) | subst x)
    | split
    | dsimp only
    | (with_reducible refine keeps_mk ?_ ⟨rfl, rfl, rfl, rfl, rfl⟩ ⟨rfl, rfl⟩)

theorem State.ethIn_keeps {q : List Instr} {j : TapSt} {b : TimeBase} {s : State} (n : Nat) (hs : Keeps q j b s) :
    Keeps q j b (State.ethIn s n) := by
  unfold State.ethIn
  repeat' first
    | intro _
    | with_reducible assumption
    | with_reducible apply State.count_keeps
    | with_reducible apply keeps_ite
    | with_reducible rfl
    | split
    | dsimp only
    | (with_reducible refine keeps_mk ?_ ⟨rfl, rfl, rfl, rfl, rfl⟩ ⟨rfl, rfl⟩)

theorem State.ptpWritten_keeps {q : List Instr} {j : TapSt} {b : TimeBase} {s : State} (index : Nat) (sub : Nat) (hs : Keeps q j b s) :
    Keeps q j b (State.ptpWritten s index sub) := by
  unfold State.ptpWritten
  repeat' first
    | intro _
    | with_reducible assumption
    | with_reducible apply State.set_keeps
    | with_reducible apply State.ptpTick_keeps
    | with_reducible apply State.ptpJudge_keeps
    | with_reducible apply State.setI_keeps
    | with_reducible apply keeps_foldl
    | with_reducible apply keeps_foldl_fst
    | with_reducible apply keeps_ite
    | with_reducible rfl
    | (extract_lets +onlyGivenNames -underBinder x; first | (refine keeps_cut (q := q) (j := j) (b := b) (x := x) ?_ ?_ <;> first | (intro h0; generalize x = y at h0 ⊢; clear x) | intro h0 | subst x) | (have h0 := Nat.zero_le x; generalize x = y at h0 ⊢; clear h0 x) | subst x)
    | split
    | dsimp only
    | (with_reducible refine keeps_mk ?_ ⟨rfl, rfl, rfl, rfl, rfl⟩ ⟨rfl, rfl⟩)

theorem State.ptpReset_keeps {q : List Instr} {j : TapSt} {b : TimeBase} {s : State}  (hs : Keeps q j b s) :
    Keeps q j b (State.ptpReset s) := by
  unfold State.ptpReset
  repeat' first
    | intro _
    | with_reducible assumption
    | with_reducible apply State.modPtp_keeps
    | with_reducible apply State.reset_keeps
    | with_reducible apply keeps_foldl
    | with_reducible apply keeps_foldl_fst
    | with_reducible rfl
    | dsimp only
    | (with_reducible refine keeps_mk ?_ ⟨rfl, rfl, rfl, rfl, rfl⟩ ⟨rfl, rfl⟩)

/-! ### NetIn -/

theorem State.inboxTake_keeps {q : List Instr} {j : TapSt} {b : TimeBase} {s t : State} {test : List Nat → Bool} {e : InFrame}
    (h : s.inboxTake test = some (e, t)) (hs : Keeps q j b s) : Keeps q j b t := by
  unfold State.inboxTake at h
  split at h
  · exact absurd h (by simp)
  · have h2 := (Prod.mk.inj (Option.some.inj h)).2
    subst h2
    exact keeps_mk hs ⟨rfl, rfl, rfl, rfl, rfl⟩ ⟨rfl, rfl⟩

theorem State.netOpen_keeps {q : List Instr} {j : TapSt} {b : TimeBase} {s : State} (e : InFrame) (hs : Keeps q j b s) :
    Keeps q j b (State.netOpen s e).2 := by
  unfold State.netOpen
  repeat' first
    | intro _
    | with_reducible assumption
    | with_reducible apply State.netDrop_keeps
    | with_reducible apply State.authFail_keeps
    | with_reducible apply State.counterSee_keeps
    | with_reducible apply keeps_ite
    | with_reducible apply keeps_ite_snd
    | with_reducible rfl
    | (extract_lets +onlyGivenNames -underBinder x; first | (refine keeps_cut (q := q) (j := j) (b := b) (x := x) ?_ ?_ <;> first | (intro h0; generalize x = y at h0 ⊢; clear x) | intro h0 | subst x) | (have h0 := Nat.zero_le x; generalize x = y at h0 ⊢; clear h0 x) | subst x)
    | split
    | dsimp only
    | (with_reducible refine keeps_mk ?_ ⟨rfl, rfl, rfl, rfl, rfl⟩ ⟨rfl, rfl⟩)

theorem State.netTake_keeps {q : List Instr} {j : TapSt} {b : TimeBase} {s : State} (kind : Nat) (test : List Nat → Bool) (hs : Keeps q j b s) :
    Keeps q j b (State.netTake s kind test).2 := by
  unfold State.netTake
  repeat' first
    | intro _
    | with_reducible assumption
    | with_reducible apply State.netOpen_keeps
    | (with_reducible refine State.inboxTake_keeps (by with_reducible assumption) ?_)
    | with_reducible apply keeps_ite_snd
    | with_reducible rfl
    | (with_reducible refine keeps_fst (by with_reducible assumption) ?_)
    | (with_reducible refine keeps_snd (by with_reducible assumption) ?_)
    | split
    | dsimp only
    | (with_reducible refine keeps_mk ?_ ⟨rfl, rfl, rfl, rfl, rfl⟩ ⟨rfl, rfl⟩)

theorem State.netBad_keeps {q : List Instr} {j : TapSt} {b : TimeBase} {s : State}  (hs : Keeps q j b s) :
    Keeps q j b (State.netBad s) := by
  unfold State.netBad
  repeat' first
    | intro _
    | with_reducible assumption
    | with_reducible apply State.netDrop_keeps
    | with_reducible rfl
    | dsimp only
    | (with_reducible refine keeps_mk ?_ ⟨rfl, rfl, rfl, rfl, rfl⟩ ⟨rfl, rfl⟩)

theorem State.idNext_keeps {q : List Instr} {j : TapSt} {b : TimeBase} {s : State}  (hs : Keeps q j b s) :
    Keeps q j b (State.idNext s) := by
  unfold State.idNext
  repeat' first
    | intro _
    | with_reducible assumption
    | with_reducible apply State.set_keeps
    | with_reducible apply keeps_ite
    | with_reducible rfl
    | (extract_lets +onlyGivenNames -underBinder x; first | (refine keeps_cut (q := q) (j := j) (b := b) (x := x) ?_ ?_ <;> first | (intro h0; generalize x = y at h0 ⊢; clear x) | intro h0 | subst x) | (have h0 := Nat.zero_le x; generalize x = y at h0 ⊢; clear h0 x) | subst x)
    | split
    | dsimp only
    | (with_reducible refine keeps_mk ?_ ⟨rfl, rfl, rfl, rfl, rfl⟩ ⟨rfl, rfl⟩)

theorem State.idSkip_keeps {q : List Instr} {j : TapSt} {b : TimeBase} {s : State} (k : Nat) (hs : Keeps q j b s) :
    Keeps q j b (State.idSkip s k) := by
  induction k generalizing s with
  | zero => exact hs
  | succ k ih =>
    unfold State.idSkip
    split
    · exact ih (State.idNext_keeps hs)
    · exact hs

theorem State.idTake_keeps {q : List Instr} {j : TapSt} {b : TimeBase} {s : State}  (hs : Keeps q j b s) :
    Keeps q j b (State.idTake s).2 := by
  unfold State.idTake
  repeat' first
    | intro _
    | with_reducible assumption
    | with_reducible apply State.idSkip_keeps
    | with_reducible apply State.idNext_keeps
    | with_reducible apply keeps_ite_snd
    | with_reducible rfl
    | (extract_lets +onlyGivenNames -underBinder x; first | (refine keeps_cut (q := q) (j := j) (b := b) (x := x) ?_ ?_ <;> first | (intro h0; generalize x = y at h0 ⊢; clear x) | intro h0 | subst x) | (have h0 := Nat.zero_le x; generalize x = y at h0 ⊢; clear h0 x) | subst x)
    | dsimp only
    | (with_reducible refine keeps_mk ?_ ⟨rfl, rfl, rfl, rfl, rfl⟩ ⟨rfl, rfl⟩)

theorem State.staleDiscard_keeps {q : List Instr} {j : TapSt} {b : TimeBase} {s : State}  (hs : Keeps q j b s) :
    Keeps q j b (State.staleDiscard s) := by
  unfold State.staleDiscard
  repeat' first
    | intro _
    | with_reducible assumption
    | with_reducible apply State.flag_keeps
    | with_reducible rfl
    | dsimp only
    | (with_reducible refine keeps_mk ?_ ⟨rfl, rfl, rfl, rfl, rfl⟩ ⟨rfl, rfl⟩)

/-! ### Messages -/

theorem State.journalSpend_keeps {q : List Instr} {j : TapSt} {b : TimeBase} {s : State} (msgs : Nat) (bytes : Nat) (hs : Keeps q j b s) :
    Keeps q j b (State.journalSpend s msgs bytes) := by
  unfold State.journalSpend
  repeat' first
    | intro _
    | with_reducible assumption
    | with_reducible rfl
    | dsimp only
    | (with_reducible refine keeps_mk ?_ ⟨rfl, rfl, rfl, rfl, rfl⟩ ⟨rfl, rfl⟩)

theorem State.journalSync_keeps {q : List Instr} {j : TapSt} {b : TimeBase} {s : State}  (hs : Keeps q j b s) :
    Keeps q j b (State.journalSync s) := by
  unfold State.journalSync
  repeat' first
    | intro _
    | with_reducible assumption
    | with_reducible apply State.set_keeps
    | with_reducible rfl
    | dsimp only
    | (with_reducible refine keeps_mk ?_ ⟨rfl, rfl, rfl, rfl, rfl⟩ ⟨rfl, rfl⟩)

theorem State.journalRefused_keeps {q : List Instr} {j : TapSt} {b : TimeBase} {s : State}  (hs : Keeps q j b s) :
    Keeps q j b (State.journalRefused s) := by
  unfold State.journalRefused
  repeat' first
    | intro _
    | with_reducible assumption
    | with_reducible apply State.flag_keeps
    | with_reducible rfl
    | dsimp only
    | (with_reducible refine keeps_mk ?_ ⟨rfl, rfl, rfl, rfl, rfl⟩ ⟨rfl, rfl⟩)

theorem State.copySend_keeps {q : List Instr} {j : TapSt} {b : TimeBase} {s : State} (e : SrcEnt) (c : Copy) (hs : Keeps q j b s) :
    Keeps q j b (State.copySend s e c) := by
  unfold State.copySend
  repeat' first
    | intro _
    | with_reducible assumption
    | with_reducible apply State.netSend_keeps
    | with_reducible apply keeps_ite
    | with_reducible rfl
    | (extract_lets +onlyGivenNames -underBinder x; first | (refine keeps_cut (q := q) (j := j) (b := b) (x := x) ?_ ?_ <;> first | (intro h0; generalize x = y at h0 ⊢; clear x) | intro h0 | subst x) | (have h0 := Nat.zero_le x; generalize x = y at h0 ⊢; clear h0 x) | subst x)
    | split
    | dsimp only
    | (with_reducible refine keeps_mk ?_ ⟨rfl, rfl, rfl, rfl, rfl⟩ ⟨rfl, rfl⟩)

theorem State.modCopies_keeps {q : List Instr} {j : TapSt} {b : TimeBase} {s : State} (epoch : Nat) (number : Nat) (f : Copy → Copy) (hs : Keeps q j b s) :
    Keeps q j b (State.modCopies s epoch number f) := by
  unfold State.modCopies
  repeat' first
    | intro _
    | with_reducible assumption
    | with_reducible apply keeps_ite
    | with_reducible rfl
    | split
    | dsimp only
    | (with_reducible refine keeps_mk ?_ ⟨rfl, rfl, rfl, rfl, rfl⟩ ⟨rfl, rfl⟩)

theorem State.entryAccept_keeps {q : List Instr} {j : TapSt} {b : TimeBase} {s : State} (e : SrcEnt) (hs : Keeps q j b s) :
    Keeps q j b (State.entryAccept s e) := by
  unfold State.entryAccept
  repeat' first
    | intro _
    | with_reducible assumption
    | with_reducible apply State.set_keeps
    | with_reducible apply State.bump_keeps
    | with_reducible apply State.copySend_keeps
    | with_reducible apply State.journalSync_keeps
    | with_reducible apply State.journalSpend_keeps
    | with_reducible apply keeps_foldl
    | with_reducible apply keeps_foldl_fst
    | with_reducible rfl
    | (extract_lets +onlyGivenNames -underBinder x; first | (refine keeps_cut (q := q) (j := j) (b := b) (x := x) ?_ ?_ <;> first | (intro h0; generalize x = y at h0 ⊢; clear x) | intro h0 | subst x) | (have h0 := Nat.zero_le x; generalize x = y at h0 ⊢; clear h0 x) | subst x)
    | dsimp only
    | (with_reducible refine keeps_mk ?_ ⟨rfl, rfl, rfl, rfl, rfl⟩ ⟨rfl, rfl⟩)

theorem State.channelOutcome_keeps {q : List Instr} {j : TapSt} {b : TimeBase} {s : State} (e : SrcEnt) (k : Nat) (outcome : Nat) (hs : Keeps q j b s) :
    Keeps q j b (State.channelOutcome s e k outcome) := by
  unfold State.channelOutcome
  repeat' first
    | intro _
    | with_reducible assumption
    | with_reducible apply State.set_keeps
    | with_reducible apply keeps_ite
    | with_reducible rfl
    | (extract_lets +onlyGivenNames -underBinder x; first | (refine keeps_cut (q := q) (j := j) (b := b) (x := x) ?_ ?_ <;> first | (intro h0; generalize x = y at h0 ⊢; clear x) | intro h0 | subst x) | (have h0 := Nat.zero_le x; generalize x = y at h0 ⊢; clear h0 x) | subst x)
    | split
    | dsimp only
    | (with_reducible refine keeps_mk ?_ ⟨rfl, rfl, rfl, rfl, rfl⟩ ⟨rfl, rfl⟩)

theorem State.entryEnd_keeps {q : List Instr} {j : TapSt} {b : TimeBase} {s : State} (e : SrcEnt) (hs : Keeps q j b s) :
    Keeps q j b (State.entryEnd s e) := by
  unfold State.entryEnd
  repeat' first
    | intro _
    | with_reducible assumption
    | with_reducible apply State.journalSync_keeps
    | with_reducible apply State.netSend_keeps
    | with_reducible apply keeps_foldl
    | with_reducible apply keeps_foldl_fst
    | with_reducible apply keeps_ite
    | with_reducible rfl
    | (extract_lets +onlyGivenNames -underBinder x; first | (refine keeps_cut (q := q) (j := j) (b := b) (x := x) ?_ ?_ <;> first | (intro h0; generalize x = y at h0 ⊢; clear x) | intro h0 | subst x) | (have h0 := Nat.zero_le x; generalize x = y at h0 ⊢; clear h0 x) | subst x)
    | split
    | dsimp only
    | (with_reducible refine keeps_mk ?_ ⟨rfl, rfl, rfl, rfl, rfl⟩ ⟨rfl, rfl⟩)

theorem State.copyClose_keeps {q : List Instr} {j : TapSt} {b : TimeBase} {s : State} (epoch : Nat) (number : Nat) (channel : Nat) (outcome : Nat) (hs : Keeps q j b s) :
    Keeps q j b (State.copyClose s epoch number channel outcome) := by
  unfold State.copyClose
  repeat' first
    | intro _
    | with_reducible assumption
    | with_reducible apply State.set_keeps
    | with_reducible apply State.flag_keeps
    | with_reducible apply State.entryEnd_keeps
    | with_reducible apply State.channelOutcome_keeps
    | with_reducible apply State.modCopies_keeps
    | with_reducible apply State.append_keeps
    | with_reducible apply keeps_ite
    | with_reducible rfl
    | (extract_lets +onlyGivenNames -underBinder x; first | (refine keeps_cut (q := q) (j := j) (b := b) (x := x) ?_ ?_ <;> first | (intro h0; generalize x = y at h0 ⊢; clear x) | intro h0 | subst x) | (have h0 := Nat.zero_le x; generalize x = y at h0 ⊢; clear h0 x) | subst x)
    | split
    | dsimp only
    | (with_reducible refine keeps_mk ?_ ⟨rfl, rfl, rfl, rfl, rfl⟩ ⟨rfl, rfl⟩)

theorem State.openRefused_keeps {q : List Instr} {j : TapSt} {b : TimeBase} {s : State} (e : SrcEnt) (k : Nat) (hs : Keeps q j b s) :
    Keeps q j b (State.openRefused s e k) := by
  unfold State.openRefused
  repeat' first
    | intro _
    | with_reducible assumption
    | with_reducible apply State.set_keeps
    | with_reducible apply State.journalSync_keeps
    | with_reducible apply keeps_ite
    | with_reducible rfl
    | (extract_lets +onlyGivenNames -underBinder x; first | (refine keeps_cut (q := q) (j := j) (b := b) (x := x) ?_ ?_ <;> first | (intro h0; generalize x = y at h0 ⊢; clear x) | intro h0 | subst x) | (have h0 := Nat.zero_le x; generalize x = y at h0 ⊢; clear h0 x) | subst x)
    | split
    | dsimp only
    | (with_reducible refine keeps_mk ?_ ⟨rfl, rfl, rfl, rfl, rfl⟩ ⟨rfl, rfl⟩)

theorem State.channelCommand_keeps {q : List Instr} {j : TapSt} {b : TimeBase} {s : State} (k : Nat) (v : Nat) (hs : Keeps q j b s) :
    Keeps q j b (State.channelCommand s k v) := by
  unfold State.channelCommand
  repeat' first
    | intro _
    | with_reducible assumption
    | with_reducible apply State.set_keeps
    | with_reducible apply State.entryAccept_keeps
    | with_reducible apply State.journalRefused_keeps
    | with_reducible apply State.idTake_keeps
    | with_reducible apply State.answer_keeps
    | with_reducible apply keeps_ite
    | with_reducible rfl
    | (extract_lets +onlyGivenNames -underBinder x; first | (refine keeps_cut (q := q) (j := j) (b := b) (x := x) ?_ ?_ <;> first | (intro h0; generalize x = y at h0 ⊢; clear x) | intro h0 | subst x) | (have h0 := Nat.zero_le x; generalize x = y at h0 ⊢; clear h0 x) | subst x)
    | (with_reducible refine keeps_fst (by with_reducible assumption) ?_)
    | (with_reducible refine keeps_snd (by with_reducible assumption) ?_)
    | split
    | dsimp only
    | (with_reducible refine keeps_mk ?_ ⟨rfl, rfl, rfl, rfl, rfl⟩ ⟨rfl, rfl⟩)

theorem State.subAccept_keeps {q : List Instr} {j : TapSt} {b : TimeBase} {s : State} (e : SrcEnt) (hs : Keeps q j b s) :
    Keeps q j b (State.subAccept s e) := by
  unfold State.subAccept
  repeat' first
    | intro _
    | with_reducible assumption
    | with_reducible apply State.set_keeps
    | with_reducible apply State.entryAccept_keeps
    | with_reducible apply State.answer_keeps
    | with_reducible apply State.count_keeps
    | with_reducible apply keeps_foldl
    | with_reducible apply keeps_foldl_fst
    | with_reducible apply keeps_ite
    | with_reducible rfl
    | (extract_lets +onlyGivenNames -underBinder x; first | (refine keeps_cut (q := q) (j := j) (b := b) (x := x) ?_ ?_ <;> first | (intro h0; generalize x = y at h0 ⊢; clear x) | intro h0 | subst x) | (have h0 := Nat.zero_le x; generalize x = y at h0 ⊢; clear h0 x) | subst x)
    | split
    | dsimp only
    | (with_reducible refine keeps_mk ?_ ⟨rfl, rfl, rfl, rfl, rfl⟩ ⟨rfl, rfl⟩)

theorem State.subTake_keeps {q : List Instr} {j : TapSt} {b0 : TimeBase} {s : State} (ctx : Ctx) (b : List Nat) (hs : Keeps q j b0 s) :
    Keeps q j b0 (State.subTake s ctx b) := by
  unfold State.subTake
  repeat' first
    | intro _
    | with_reducible assumption
    | with_reducible apply State.subAccept_keeps
    | with_reducible apply State.idTake_keeps
    | with_reducible apply State.netSend_keeps
    | with_reducible apply keeps_foldl
    | with_reducible apply keeps_foldl_fst
    | with_reducible apply keeps_ite
    | with_reducible rfl
    | (extract_lets +onlyGivenNames -underBinder x; first | (refine keeps_cut (q := q) (j := j) (b := b0) (x := x) ?_ ?_ <;> first | (intro h0; generalize x = y at h0 ⊢; clear x) | intro h0 | subst x) | (have h0 := Nat.zero_le x; generalize x = y at h0 ⊢; clear h0 x) | subst x)
    | (with_reducible refine keeps_fst (by with_reducible assumption) ?_)
    | (with_reducible refine keeps_snd (by with_reducible assumption) ?_)
    | split
    | dsimp only
    | (with_reducible refine keeps_mk ?_ ⟨rfl, rfl, rfl, rfl, rfl⟩ ⟨rfl, rfl⟩)

theorem State.subDrop_keeps {q : List Instr} {j : TapSt} {b : TimeBase} {s : State} (w : SubWait) (status : Nat) (hs : Keeps q j b s) :
    Keeps q j b (State.subDrop s w status) := by
  unfold State.subDrop
  repeat' first
    | intro _
    | with_reducible assumption
    | with_reducible apply State.netSend_keeps
    | with_reducible apply State.answer_keeps
    | with_reducible apply keeps_foldl
    | with_reducible apply keeps_foldl_fst
    | with_reducible apply keeps_ite
    | with_reducible rfl
    | (extract_lets +onlyGivenNames -underBinder x; first | (refine keeps_cut (q := q) (j := j) (b := b) (x := x) ?_ ?_ <;> first | (intro h0; generalize x = y at h0 ⊢; clear x) | intro h0 | subst x) | (have h0 := Nat.zero_le x; generalize x = y at h0 ⊢; clear h0 x) | subst x)
    | split
    | dsimp only
    | (with_reducible refine keeps_mk ?_ ⟨rfl, rfl, rfl, rfl, rfl⟩ ⟨rfl, rfl⟩)

theorem State.subFinish_keeps {q : List Instr} {j : TapSt} {b : TimeBase} {s : State} (w : SubWait) (hs : Keeps q j b s) :
    Keeps q j b (State.subFinish s w) := by
  unfold State.subFinish
  repeat' first
    | intro _
    | with_reducible assumption
    | with_reducible apply State.subDrop_keeps
    | with_reducible apply State.subAccept_keeps
    | with_reducible apply State.copyClose_keeps
    | with_reducible apply keeps_foldl
    | with_reducible apply keeps_foldl_fst
    | with_reducible apply keeps_ite
    | with_reducible rfl
    | (extract_lets +onlyGivenNames -underBinder x; first | (refine keeps_cut (q := q) (j := j) (b := b) (x := x) ?_ ?_ <;> first | (intro h0; generalize x = y at h0 ⊢; clear x) | intro h0 | subst x) | (have h0 := Nat.zero_le x; generalize x = y at h0 ⊢; clear h0 x) | subst x)
    | split
    | dsimp only
    | (with_reducible refine keeps_mk ?_ ⟨rfl, rfl, rfl, rfl, rfl⟩ ⟨rfl, rfl⟩)

theorem State.keeperHeld_keeps {q : List Instr} {j : TapSt} {b : TimeBase} {s : State}  (hs : Keeps q j b s) :
    Keeps q j b (State.keeperHeld s) := by
  unfold State.keeperHeld
  repeat' first
    | intro _
    | with_reducible assumption
    | with_reducible apply State.subFinish_keeps
    | with_reducible apply State.staleDiscard_keeps
    | with_reducible apply State.netBad_keeps
    | with_reducible apply State.netTake_keeps
    | with_reducible apply keeps_ite
    | with_reducible rfl
    | (extract_lets +onlyGivenNames -underBinder x; first | (refine keeps_cut (q := q) (j := j) (b := b) (x := x) ?_ ?_ <;> first | (intro h0; generalize x = y at h0 ⊢; clear x) | intro h0 | subst x) | (have h0 := Nat.zero_le x; generalize x = y at h0 ⊢; clear h0 x) | subst x)
    | (with_reducible refine keeps_fst (by with_reducible assumption) ?_)
    | (with_reducible refine keeps_snd (by with_reducible assumption) ?_)
    | split
    | dsimp only
    | (with_reducible refine keeps_mk ?_ ⟨rfl, rfl, rfl, rfl, rfl⟩ ⟨rfl, rfl⟩)

theorem State.keeperTimeout_keeps {q : List Instr} {j : TapSt} {b : TimeBase} {s : State}  (hs : Keeps q j b s) :
    Keeps q j b (State.keeperTimeout s) := by
  unfold State.keeperTimeout
  repeat' first
    | intro _
    | with_reducible assumption
    | with_reducible apply State.subDrop_keeps
    | with_reducible apply keeps_ite
    | with_reducible rfl
    | split
    | dsimp only
    | (with_reducible refine keeps_mk ?_ ⟨rfl, rfl, rfl, rfl, rfl⟩ ⟨rfl, rfl⟩)

theorem State.recvSet_keeps {q : List Instr} {j : TapSt} {b : TimeBase} {s : State} (source : Nat) (channel : Nat) (next : Nat) (hs : Keeps q j b s) :
    Keeps q j b (State.recvSet s source channel next) := by
  unfold State.recvSet
  repeat' first
    | intro _
    | with_reducible assumption
    | with_reducible rfl
    | (extract_lets +onlyGivenNames -underBinder x; first | (refine keeps_cut (q := q) (j := j) (b := b) (x := x) ?_ ?_ <;> first | (intro h0; generalize x = y at h0 ⊢; clear x) | intro h0 | subst x) | (have h0 := Nat.zero_le x; generalize x = y at h0 ⊢; clear h0 x) | subst x)
    | split
    | dsimp only
    | (with_reducible refine keeps_mk ?_ ⟨rfl, rfl, rfl, rfl, rfl⟩ ⟨rfl, rfl⟩)

theorem State.recvFree_keeps {q : List Instr} {j : TapSt} {b : TimeBase} {s : State} (source : Nat) (channel : Nat) (hs : Keeps q j b s) :
    Keeps q j b (State.recvFree s source channel) := by
  unfold State.recvFree
  repeat' first
    | intro _
    | with_reducible assumption
    | with_reducible apply keeps_ite
    | with_reducible rfl
    | split
    | dsimp only
    | (with_reducible refine keeps_mk ?_ ⟨rfl, rfl, rfl, rfl, rfl⟩ ⟨rfl, rfl⟩)

theorem State.msgAck_keeps {q : List Instr} {j : TapSt} {b : TimeBase} {s : State} (f : NetFrame) (m : Msg) (status : Nat) (hs : Keeps q j b s) :
    Keeps q j b (State.msgAck s f m status) := by
  unfold State.msgAck
  repeat' first
    | intro _
    | with_reducible assumption
    | with_reducible apply State.netSend_keeps
    | with_reducible apply keeps_ite
    | with_reducible rfl
    | split
    | dsimp only
    | (with_reducible refine keeps_mk ?_ ⟨rfl, rfl, rfl, rfl, rfl⟩ ⟨rfl, rfl⟩)

theorem State.deliveryMove_keeps {q : List Instr} {j : TapSt} {b : TimeBase} {s : State}  (hs : Keeps q j b s) :
    Keeps q j b (State.deliveryMove s) := by
  unfold State.deliveryMove
  repeat' first
    | intro _
    | with_reducible assumption
    | with_reducible apply keeps_ite
    | with_reducible rfl
    | (extract_lets +onlyGivenNames -underBinder x; first | (refine keeps_cut (q := q) (j := j) (b := b) (x := x) ?_ ?_ <;> first | (intro h0; generalize x = y at h0 ⊢; clear x) | intro h0 | subst x) | (have h0 := Nat.zero_le x; generalize x = y at h0 ⊢; clear h0 x) | subst x)
    | split
    | dsimp only
    | (with_reducible refine keeps_mk ?_ ⟨rfl, rfl, rfl, rfl, rfl⟩ ⟨rfl, rfl⟩)

theorem State.receiptTake_keeps {q : List Instr} {j : TapSt} {b : TimeBase} {s : State} (f : NetFrame) (m : Msg) (hs : Keeps q j b s) :
    Keeps q j b (State.receiptTake s f m) := by
  unfold State.receiptTake
  repeat' first
    | intro _
    | with_reducible assumption
    | with_reducible apply State.flag_keeps
    | with_reducible apply State.deliveryMove_keeps
    | with_reducible apply State.msgAck_keeps
    | with_reducible apply State.recvSet_keeps
    | with_reducible apply State.journalRefused_keeps
    | with_reducible apply State.journalSync_keeps
    | with_reducible apply State.journalSpend_keeps
    | with_reducible apply keeps_ite
    | with_reducible rfl
    | (extract_lets +onlyGivenNames -underBinder x; first | (refine keeps_cut (q := q) (j := j) (b := b) (x := x) ?_ ?_ <;> first | (intro h0; generalize x = y at h0 ⊢; clear x) | intro h0 | subst x) | (have h0 := Nat.zero_le x; generalize x = y at h0 ⊢; clear h0 x) | subst x)
    | split
    | dsimp only
    | (with_reducible refine keeps_mk ?_ ⟨rfl, rfl, rfl, rfl, rfl⟩ ⟨rfl, rfl⟩)

theorem State.msgIn_keeps {q : List Instr} {j : TapSt} {b : TimeBase} {s : State}  (hs : Keeps q j b s) :
    Keeps q j b (State.msgIn s) := by
  unfold State.msgIn
  repeat' first
    | intro _
    | with_reducible assumption
    | with_reducible apply State.flag_keeps
    | with_reducible apply State.receiptTake_keeps
    | with_reducible apply State.msgAck_keeps
    | with_reducible apply State.recvFree_keeps
    | with_reducible apply State.recvSet_keeps
    | with_reducible apply State.journalRefused_keeps
    | with_reducible apply State.journalSync_keeps
    | with_reducible apply State.netBad_keeps
    | with_reducible apply State.netTake_keeps
    | with_reducible apply keeps_ite
    | with_reducible rfl
    | (extract_lets +onlyGivenNames -underBinder x; first | (refine keeps_cut (q := q) (j := j) (b := b) (x := x) ?_ ?_ <;> first | (intro h0; generalize x = y at h0 ⊢; clear x) | intro h0 | subst x) | (have h0 := Nat.zero_le x; generalize x = y at h0 ⊢; clear h0 x) | subst x)
    | (with_reducible refine keeps_fst (by with_reducible assumption) ?_)
    | (with_reducible refine keeps_snd (by with_reducible assumption) ?_)
    | split
    | dsimp only
    | (with_reducible refine keeps_mk ?_ ⟨rfl, rfl, rfl, rfl, rfl⟩ ⟨rfl, rfl⟩)

theorem State.ackIn_keeps {q : List Instr} {j : TapSt} {b : TimeBase} {s : State}  (hs : Keeps q j b s) :
    Keeps q j b (State.ackIn s) := by
  unfold State.ackIn
  repeat' first
    | intro _
    | with_reducible assumption
    | with_reducible apply State.openRefused_keeps
    | with_reducible apply State.copyClose_keeps
    | with_reducible apply State.modCopies_keeps
    | with_reducible apply State.journalSync_keeps
    | with_reducible apply State.staleDiscard_keeps
    | with_reducible apply State.netBad_keeps
    | with_reducible apply State.netTake_keeps
    | with_reducible apply keeps_ite
    | with_reducible rfl
    | (extract_lets +onlyGivenNames -underBinder x; first | (refine keeps_cut (q := q) (j := j) (b := b) (x := x) ?_ ?_ <;> first | (intro h0; generalize x = y at h0 ⊢; clear x) | intro h0 | subst x) | (have h0 := Nat.zero_le x; generalize x = y at h0 ⊢; clear h0 x) | subst x)
    | (with_reducible refine keeps_fst (by with_reducible assumption) ?_)
    | (with_reducible refine keeps_snd (by with_reducible assumption) ?_)
    | split
    | dsimp only
    | (with_reducible refine keeps_mk ?_ ⟨rfl, rfl, rfl, rfl, rfl⟩ ⟨rfl, rfl⟩)

theorem State.keeperSend_keeps {q : List Instr} {j : TapSt} {b : TimeBase} {s : State} (k : KeeperEnt) (hs : Keeps q j b s) :
    Keeps q j b (State.keeperSend s k) := by
  unfold State.keeperSend
  repeat' first
    | intro _
    | with_reducible assumption
    | with_reducible apply State.netRoute_keeps
    | with_reducible apply State.loopBack_keeps
    | with_reducible apply State.netFrame_keeps
    | with_reducible apply keeps_ite
    | with_reducible rfl
    | (extract_lets +onlyGivenNames -underBinder x; first | (refine keeps_cut (q := q) (j := j) (b := b) (x := x) ?_ ?_ <;> first | (intro h0; generalize x = y at h0 ⊢; clear x) | intro h0 | subst x) | (have h0 := Nat.zero_le x; generalize x = y at h0 ⊢; clear h0 x) | subst x)
    | (with_reducible refine keeps_fst (by with_reducible assumption) ?_)
    | (with_reducible refine keeps_snd (by with_reducible assumption) ?_)
    | split
    | dsimp only
    | (with_reducible refine keeps_mk ?_ ⟨rfl, rfl, rfl, rfl, rfl⟩ ⟨rfl, rfl⟩)

theorem State.msgResend_keeps {q : List Instr} {j : TapSt} {b : TimeBase} {s : State} (i : Nat) (hs : Keeps q j b s) :
    Keeps q j b (State.msgResend s i) := by
  unfold State.msgResend
  repeat' first
    | intro _
    | with_reducible assumption
    | with_reducible apply State.keeperSend_keeps
    | with_reducible apply State.modCopies_keeps
    | with_reducible apply State.copySend_keeps
    | with_reducible apply keeps_foldl
    | with_reducible apply keeps_foldl_fst
    | with_reducible apply keeps_ite
    | with_reducible rfl
    | (extract_lets +onlyGivenNames -underBinder x; first | (refine keeps_cut (q := q) (j := j) (b := b) (x := x) ?_ ?_ <;> first | (intro h0; generalize x = y at h0 ⊢; clear x) | intro h0 | subst x) | (have h0 := Nat.zero_le x; generalize x = y at h0 ⊢; clear h0 x) | subst x)
    | split
    | dsimp only
    | (with_reducible refine keeps_mk ?_ ⟨rfl, rfl, rfl, rfl, rfl⟩ ⟨rfl, rfl⟩)

theorem State.channelBroken_keeps {q : List Instr} {j : TapSt} {b : TimeBase} {s : State} (k : Nat) (hs : Keeps q j b s) :
    Keeps q j b (State.channelBroken s k) := by
  unfold State.channelBroken
  repeat' first
    | intro _
    | with_reducible assumption
    | with_reducible apply State.set_keeps
    | with_reducible apply State.copyClose_keeps
    | with_reducible apply keeps_foldl
    | with_reducible apply keeps_foldl_fst
    | with_reducible apply keeps_ite
    | with_reducible rfl
    | (extract_lets +onlyGivenNames -underBinder x; first | (refine keeps_cut (q := q) (j := j) (b := b) (x := x) ?_ ?_ <;> first | (intro h0; generalize x = y at h0 ⊢; clear x) | intro h0 | subst x) | (have h0 := Nat.zero_le x; generalize x = y at h0 ⊢; clear h0 x) | subst x)
    | split
    | dsimp only
    | (with_reducible refine keeps_mk ?_ ⟨rfl, rfl, rfl, rfl, rfl⟩ ⟨rfl, rfl⟩)

theorem State.keeperHold_keeps {q : List Instr} {j : TapSt} {b : TimeBase} {s : State} (dest : Nat) (hs : Keeps q j b s) :
    Keeps q j b (State.keeperHold s dest) := by
  unfold State.keeperHold
  repeat' first
    | intro _
    | with_reducible assumption
    | with_reducible apply State.journalSync_keeps
    | with_reducible apply State.journalSpend_keeps
    | with_reducible apply State.netBad_keeps
    | with_reducible apply State.netTake_keeps
    | with_reducible apply State.netSend_keeps
    | with_reducible apply keeps_ite
    | with_reducible rfl
    | (extract_lets +onlyGivenNames -underBinder x; first | (refine keeps_cut (q := q) (j := j) (b := b) (x := x) ?_ ?_ <;> first | (intro h0; generalize x = y at h0 ⊢; clear x) | intro h0 | subst x) | (have h0 := Nat.zero_le x; generalize x = y at h0 ⊢; clear h0 x) | subst x)
    | (with_reducible refine keeps_fst (by with_reducible assumption) ?_)
    | (with_reducible refine keeps_snd (by with_reducible assumption) ?_)
    | split
    | dsimp only
    | (with_reducible refine keeps_mk ?_ ⟨rfl, rfl, rfl, rfl, rfl⟩ ⟨rfl, rfl⟩)

theorem State.keeperRelease_keeps {q : List Instr} {j : TapSt} {b : TimeBase} {s : State}  (hs : Keeps q j b s) :
    Keeps q j b (State.keeperRelease s) := by
  unfold State.keeperRelease
  repeat' first
    | intro _
    | with_reducible assumption
    | with_reducible apply State.journalSync_keeps
    | with_reducible apply State.staleDiscard_keeps
    | with_reducible apply State.netBad_keeps
    | with_reducible apply State.netTake_keeps
    | with_reducible apply keeps_ite
    | with_reducible rfl
    | (extract_lets +onlyGivenNames -underBinder x; first | (refine keeps_cut (q := q) (j := j) (b := b) (x := x) ?_ ?_ <;> first | (intro h0; generalize x = y at h0 ⊢; clear x) | intro h0 | subst x) | (have h0 := Nat.zero_le x; generalize x = y at h0 ⊢; clear h0 x) | subst x)
    | (with_reducible refine keeps_fst (by with_reducible assumption) ?_)
    | (with_reducible refine keeps_snd (by with_reducible assumption) ?_)
    | split
    | dsimp only
    | (with_reducible refine keeps_mk ?_ ⟨rfl, rfl, rfl, rfl, rfl⟩ ⟨rfl, rfl⟩)

theorem State.keeperTakeover_keeps {q : List Instr} {j : TapSt} {b : TimeBase} {s : State}  (hs : Keeps q j b s) :
    Keeps q j b (State.keeperTakeover s) := by
  unfold State.keeperTakeover
  repeat' first
    | intro _
    | with_reducible assumption
    | with_reducible apply State.flag_keeps
    | with_reducible apply State.keeperSend_keeps
    | with_reducible apply keeps_ite
    | with_reducible rfl
    | (extract_lets +onlyGivenNames -underBinder x; first | (refine keeps_cut (q := q) (j := j) (b := b) (x := x) ?_ ?_ <;> first | (intro h0; generalize x = y at h0 ⊢; clear x) | intro h0 | subst x) | (have h0 := Nat.zero_le x; generalize x = y at h0 ⊢; clear h0 x) | subst x)
    | split
    | dsimp only
    | (with_reducible refine keeps_mk ?_ ⟨rfl, rfl, rfl, rfl, rfl⟩ ⟨rfl, rfl⟩)

theorem State.delivered_keeps {q : List Instr} {j : TapSt} {b : TimeBase} {s : State} (r : Receipt) (hs : Keeps q j b s) :
    Keeps q j b (State.delivered s r) := by
  unfold State.delivered
  repeat' first
    | intro _
    | with_reducible assumption
    | with_reducible apply State.recvFree_keeps
    | with_reducible apply State.journalSync_keeps
    | with_reducible apply State.count_keeps
    | with_reducible apply keeps_ite
    | with_reducible rfl
    | (extract_lets +onlyGivenNames -underBinder x; first | (refine keeps_cut (q := q) (j := j) (b := b) (x := x) ?_ ?_ <;> first | (intro h0; generalize x = y at h0 ⊢; clear x) | intro h0 | subst x) | (have h0 := Nat.zero_le x; generalize x = y at h0 ⊢; clear h0 x) | subst x)
    | split
    | dsimp only
    | (with_reducible refine keeps_mk ?_ ⟨rfl, rfl, rfl, rfl, rfl⟩ ⟨rfl, rfl⟩)

theorem State.modReceipt_keeps {q : List Instr} {j : TapSt} {b : TimeBase} {s : State} (r : Receipt) (x : Receipt) (hs : Keeps q j b s) :
    Keeps q j b (State.modReceipt s r x) := by
  unfold State.modReceipt
  repeat' first
    | intro _
    | with_reducible assumption
    | with_reducible apply keeps_ite
    | with_reducible rfl
    | split
    | dsimp only
    | (with_reducible refine keeps_mk ?_ ⟨rfl, rfl, rfl, rfl, rfl⟩ ⟨rfl, rfl⟩)

theorem State.present_keeps {q : List Instr} {j : TapSt} {b : TimeBase} {s : State} (r : Receipt) (payload : List Nat) (gone : Bool) (hs : Keeps q j b s) :
    Keeps q j b (State.present s r payload gone) := by
  unfold State.present
  repeat' first
    | intro _
    | with_reducible assumption
    | with_reducible apply State.flag_keeps
    | with_reducible apply State.modReceipt_keeps
    | with_reducible apply State.journalSync_keeps
    | with_reducible apply State.append_keeps
    | with_reducible apply keeps_ite
    | with_reducible rfl
    | (extract_lets +onlyGivenNames -underBinder x; first | (refine keeps_cut (q := q) (j := j) (b := b) (x := x) ?_ ?_ <;> first | (intro h0; generalize x = y at h0 ⊢; clear x) | intro h0 | subst x) | (have h0 := Nat.zero_le x; generalize x = y at h0 ⊢; clear h0 x) | subst x)
    | split
    | dsimp only
    | (with_reducible refine keeps_mk ?_ ⟨rfl, rfl, rfl, rfl, rfl⟩ ⟨rfl, rfl⟩)

theorem State.writeDone_keeps {q : List Instr} {j : TapSt} {b : TimeBase} {s : State} (r : Receipt) (status : Nat) (hs : Keeps q j b s) :
    Keeps q j b (State.writeDone s r status) := by
  unfold State.writeDone
  repeat' first
    | intro _
    | with_reducible assumption
    | with_reducible apply State.present_keeps
    | with_reducible apply State.delivered_keeps
    | with_reducible apply State.journalSync_keeps
    | with_reducible apply keeps_ite
    | with_reducible rfl
    | (extract_lets +onlyGivenNames -underBinder x; first | (refine keeps_cut (q := q) (j := j) (b := b) (x := x) ?_ ?_ <;> first | (intro h0; generalize x = y at h0 ⊢; clear x) | intro h0 | subst x) | (have h0 := Nat.zero_le x; generalize x = y at h0 ⊢; clear h0 x) | subst x)
    | split
    | dsimp only
    | (with_reducible refine keeps_mk ?_ ⟨rfl, rfl, rfl, rfl, rfl⟩ ⟨rfl, rfl⟩)

theorem State.failedPresent_keeps {q : List Instr} {j : TapSt} {b : TimeBase} {s : State}  (hs : Keeps q j b s) :
    Keeps q j b (State.failedPresent s) := by
  unfold State.failedPresent
  repeat' first
    | intro _
    | with_reducible assumption
    | with_reducible apply State.present_keeps
    | with_reducible rfl
    | split
    | dsimp only
    | (with_reducible refine keeps_mk ?_ ⟨rfl, rfl, rfl, rfl, rfl⟩ ⟨rfl, rfl⟩)

theorem State.deliveryTaken_keeps {q : List Instr} {j : TapSt} {b : TimeBase} {s : State} (taken : List (List Nat)) (hs : Keeps q j b s) :
    Keeps q j b (State.deliveryTaken s taken) := by
  unfold State.deliveryTaken
  repeat' first
    | intro _
    | with_reducible assumption
    | with_reducible apply State.delivered_keeps
    | with_reducible apply keeps_foldl
    | with_reducible apply keeps_foldl_fst
    | with_reducible rfl
    | (extract_lets +onlyGivenNames -underBinder x; first | (refine keeps_cut (q := q) (j := j) (b := b) (x := x) ?_ ?_ <;> first | (intro h0; generalize x = y at h0 ⊢; clear x) | intro h0 | subst x) | (have h0 := Nat.zero_le x; generalize x = y at h0 ⊢; clear h0 x) | subst x)
    | split
    | dsimp only
    | (with_reducible refine keeps_mk ?_ ⟨rfl, rfl, rfl, rfl, rfl⟩ ⟨rfl, rfl⟩)

theorem State.recordsFree_keeps {q : List Instr} {j : TapSt} {b : TimeBase} {s : State}  (hs : Keeps q j b s) :
    Keeps q j b (State.recordsFree s) := by
  unfold State.recordsFree
  repeat' first
    | intro _
    | with_reducible assumption
    | with_reducible apply State.journalSync_keeps
    | with_reducible rfl
    | (extract_lets +onlyGivenNames -underBinder x; first | (refine keeps_cut (q := q) (j := j) (b := b) (x := x) ?_ ?_ <;> first | (intro h0; generalize x = y at h0 ⊢; clear x) | intro h0 | subst x) | (have h0 := Nat.zero_le x; generalize x = y at h0 ⊢; clear h0 x) | subst x)
    | split
    | dsimp only
    | (with_reducible refine keeps_mk ?_ ⟨rfl, rfl, rfl, rfl, rfl⟩ ⟨rfl, rfl⟩)

theorem State.messagesStep_keeps {q : List Instr} {j : TapSt} {b : TimeBase} {s : State} (old : Nat) (new : Nat) (hs : Keeps q j b s) :
    Keeps q j b (State.messagesStep s old new) := by
  unfold State.messagesStep
  repeat' first
    | intro _
    | with_reducible assumption
    | with_reducible apply State.deliveryMove_keeps
    | with_reducible apply keeps_ite
    | with_reducible rfl
    | (extract_lets +onlyGivenNames -underBinder x; first | (refine keeps_cut (q := q) (j := j) (b := b) (x := x) ?_ ?_ <;> first | (intro h0; generalize x = y at h0 ⊢; clear x) | intro h0 | subst x) | (have h0 := Nat.zero_le x; generalize x = y at h0 ⊢; clear h0 x) | subst x)
    | split
    | dsimp only
    | (with_reducible refine keeps_mk ?_ ⟨rfl, rfl, rfl, rfl, rfl⟩ ⟨rfl, rfl⟩)

theorem State.messagesTick_keeps {q : List Instr} {j : TapSt} {b : TimeBase} {s : State}  (hs : Keeps q j b s) :
    Keeps q j b (State.messagesTick s) := by
  unfold State.messagesTick
  repeat' first
    | intro _
    | with_reducible assumption
    | with_reducible apply State.deliveryMove_keeps
    | with_reducible rfl
    | (extract_lets +onlyGivenNames -underBinder x; first | (refine keeps_cut (q := q) (j := j) (b := b) (x := x) ?_ ?_ <;> first | (intro h0; generalize x = y at h0 ⊢; clear x) | intro h0 | subst x) | (have h0 := Nat.zero_le x; generalize x = y at h0 ⊢; clear h0 x) | subst x)
    | split
    | dsimp only
    | (with_reducible refine keeps_mk ?_ ⟨rfl, rfl, rfl, rfl, rfl⟩ ⟨rfl, rfl⟩)

theorem State.messagesReset_keeps {q : List Instr} {j : TapSt} {b : TimeBase} {s : State}  (hs : Keeps q j b s) :
    Keeps q j b (State.messagesReset s) := by
  unfold State.messagesReset
  repeat' first
    | intro _
    | with_reducible assumption
    | with_reducible apply keeps_ite
    | with_reducible rfl
    | split
    | dsimp only
    | (with_reducible refine keeps_mk ?_ ⟨rfl, rfl, rfl, rfl, rfl⟩ ⟨rfl, rfl⟩)

theorem State.messagesRestart_keeps {q : List Instr} {j : TapSt} {b : TimeBase} {s : State}  (hs : Keeps q j b s) :
    Keeps q j b (State.messagesRestart s) := by
  unfold State.messagesRestart
  repeat' first
    | intro _
    | with_reducible assumption
    | with_reducible apply State.copySend_keeps
    | with_reducible apply keeps_foldl
    | with_reducible apply keeps_foldl_fst
    | with_reducible apply keeps_ite
    | with_reducible rfl
    | (extract_lets +onlyGivenNames -underBinder x; first | (refine keeps_cut (q := q) (j := j) (b := b) (x := x) ?_ ?_ <;> first | (intro h0; generalize x = y at h0 ⊢; clear x) | intro h0 | subst x) | (have h0 := Nat.zero_le x; generalize x = y at h0 ⊢; clear h0 x) | subst x)
    | split
    | dsimp only
    | (with_reducible refine keeps_mk ?_ ⟨rfl, rfl, rfl, rfl, rfl⟩ ⟨rfl, rfl⟩)

/-! ### Network -/

theorem State.passOn_keeps {q : List Instr} {j : TapSt} {b : TimeBase} {s : State} (e : InFrame) (hs : Keeps q j b s) :
    Keeps q j b (State.passOn s e).2 := by
  unfold State.passOn
  repeat' first
    | intro _
    | with_reducible assumption
    | with_reducible apply State.lifeCheck_keeps
    | with_reducible apply keeps_ite_snd
    | with_reducible rfl
    | (with_reducible refine keeps_fst (by with_reducible assumption) ?_)
    | (with_reducible refine keeps_snd (by with_reducible assumption) ?_)
    | dsimp only
    | (with_reducible refine keeps_mk ?_ ⟨rfl, rfl, rfl, rfl, rfl⟩ ⟨rfl, rfl⟩)

theorem State.netForward_keeps {q : List Instr} {j : TapSt} {b : TimeBase} {s : State}  (hs : Keeps q j b s) :
    Keeps q j b (State.netForward s) := by
  unfold State.netForward
  repeat' first
    | intro _
    | with_reducible assumption
    | with_reducible apply State.passOn_keeps
    | with_reducible apply State.netBad_keeps
    | with_reducible apply State.netRouteAs_keeps
    | with_reducible apply keeps_ite
    | with_reducible rfl
    | (extract_lets +onlyGivenNames -underBinder x; first | (refine keeps_cut (q := q) (j := j) (b := b) (x := x) ?_ ?_ <;> first | (intro h0; generalize x = y at h0 ⊢; clear x) | intro h0 | subst x) | (have h0 := Nat.zero_le x; generalize x = y at h0 ⊢; clear h0 x) | subst x)
    | (with_reducible refine keeps_fst (by with_reducible assumption) ?_)
    | (with_reducible refine keeps_snd (by with_reducible assumption) ?_)
    | split
    | dsimp only
    | (with_reducible refine keeps_mk ?_ ⟨rfl, rfl, rfl, rfl, rfl⟩ ⟨rfl, rfl⟩)

theorem State.joinSend_keeps {q : List Instr} {j : TapSt} {b : TimeBase} {s : State}  (hs : Keeps q j b s) :
    Keeps q j b (State.joinSend s) := by
  unfold State.joinSend
  repeat' first
    | intro _
    | with_reducible assumption
    | with_reducible apply State.peerSend_keeps
    | with_reducible rfl
    | split
    | dsimp only
    | (with_reducible refine keeps_mk ?_ ⟨rfl, rfl, rfl, rfl, rfl⟩ ⟨rfl, rfl⟩)

theorem State.joinTry_keeps {q : List Instr} {j : TapSt} {b : TimeBase} {s : State}  (hs : Keeps q j b s) :
    Keeps q j b (State.joinTry s) := by
  unfold State.joinTry
  repeat' first
    | intro _
    | with_reducible assumption
    | with_reducible apply State.joinSend_keeps
    | with_reducible apply keeps_ite
    | with_reducible rfl
    | split
    | dsimp only
    | (with_reducible refine keeps_mk ?_ ⟨rfl, rfl, rfl, rfl, rfl⟩ ⟨rfl, rfl⟩)

theorem State.addressConflict_keeps {q : List Instr} {j : TapSt} {b : TimeBase} {s : State}  (hs : Keeps q j b s) :
    Keeps q j b (State.addressConflict s) := by
  unfold State.addressConflict
  repeat' first
    | intro _
    | with_reducible assumption
    | with_reducible apply State.set_keeps
    | with_reducible apply State.flag_keeps
    | with_reducible apply State.memberSet_keeps
    | with_reducible apply State.lsaSend_keeps
    | with_reducible apply State.dbChanged_keeps
    | with_reducible rfl
    | (extract_lets +onlyGivenNames -underBinder x; first | (refine keeps_cut (q := q) (j := j) (b := b) (x := x) ?_ ?_ <;> first | (intro h0; generalize x = y at h0 ⊢; clear x) | intro h0 | subst x) | (have h0 := Nat.zero_le x; generalize x = y at h0 ⊢; clear h0 x) | subst x)
    | dsimp only
    | (with_reducible refine keeps_mk ?_ ⟨rfl, rfl, rfl, rfl, rfl⟩ ⟨rfl, rfl⟩)

theorem State.lsaStore_keeps {q : List Instr} {j : TapSt} {b : TimeBase} {s : State} (l : Lsa) (hs : Keeps q j b s) :
    Keeps q j b (State.lsaStore s l) := by
  unfold State.lsaStore
  repeat' first
    | intro _
    | with_reducible assumption
    | with_reducible rfl
    | dsimp only
    | (with_reducible refine keeps_mk ?_ ⟨rfl, rfl, rfl, rfl, rfl⟩ ⟨rfl, rfl⟩)

theorem State.lsaIn_keeps {q : List Instr} {j : TapSt} {b : TimeBase} {s : State} (held : Bool) (hs : Keeps q j b s) :
    Keeps q j b (State.lsaIn s held) := by
  unfold State.lsaIn
  repeat' first
    | intro _
    | with_reducible assumption
    | with_reducible apply State.lsaStore_keeps
    | with_reducible apply State.addressConflict_keeps
    | with_reducible apply State.joinTry_keeps
    | with_reducible apply State.passOn_keeps
    | with_reducible apply State.netBad_keeps
    | with_reducible apply State.netOpen_keeps
    | with_reducible apply State.linksJudge_keeps
    | with_reducible apply State.lsaSend_keeps
    | with_reducible apply State.dbChanged_keeps
    | with_reducible apply State.portPutAs_keeps
    | with_reducible apply State.modPort_keeps
    | with_reducible apply keeps_foldl
    | with_reducible apply keeps_foldl_fst
    | (with_reducible refine State.inboxTake_keeps (by with_reducible assumption) ?_)
    | with_reducible apply keeps_ite
    | with_reducible rfl
    | (extract_lets +onlyGivenNames -underBinder x; first | (refine keeps_cut (q := q) (j := j) (b := b) (x := x) ?_ ?_ <;> first | (intro h0; generalize x = y at h0 ⊢; clear x) | intro h0 | subst x) | (have h0 := Nat.zero_le x; generalize x = y at h0 ⊢; clear h0 x) | subst x)
    | (with_reducible refine keeps_fst (by with_reducible assumption) ?_)
    | (with_reducible refine keeps_snd (by with_reducible assumption) ?_)
    | split
    | dsimp only
    | (with_reducible refine keeps_mk ?_ ⟨rfl, rfl, rfl, rfl, rfl⟩ ⟨rfl, rfl⟩)

theorem State.lsaRefresh_keeps {q : List Instr} {j : TapSt} {b : TimeBase} {s : State}  (hs : Keeps q j b s) :
    Keeps q j b (State.lsaRefresh s) := by
  unfold State.lsaRefresh
  repeat' first
    | intro _
    | with_reducible assumption
    | with_reducible apply State.lsaSend_keeps
    | with_reducible apply State.dbChanged_keeps
    | with_reducible apply keeps_ite
    | with_reducible rfl
    | split
    | dsimp only
    | (with_reducible refine keeps_mk ?_ ⟨rfl, rfl, rfl, rfl, rfl⟩ ⟨rfl, rfl⟩)

theorem State.lsaExpire_keeps {q : List Instr} {j : TapSt} {b : TimeBase} {s : State}  (hs : Keeps q j b s) :
    Keeps q j b (State.lsaExpire s) := by
  unfold State.lsaExpire
  repeat' first
    | intro _
    | with_reducible assumption
    | with_reducible apply State.dbChanged_keeps
    | with_reducible apply keeps_ite
    | with_reducible rfl
    | (extract_lets +onlyGivenNames -underBinder x; first | (refine keeps_cut (q := q) (j := j) (b := b) (x := x) ?_ ?_ <;> first | (intro h0; generalize x = y at h0 ⊢; clear x) | intro h0 | subst x) | (have h0 := Nat.zero_le x; generalize x = y at h0 ⊢; clear h0 x) | subst x)
    | split
    | dsimp only
    | (with_reducible refine keeps_mk ?_ ⟨rfl, rfl, rfl, rfl, rfl⟩ ⟨rfl, rfl⟩)

theorem State.routeCompute_keeps {q : List Instr} {j : TapSt} {b : TimeBase} {s : State}  (hs : Keeps q j b s) :
    Keeps q j b (State.routeCompute s) := by
  unfold State.routeCompute
  repeat' first
    | intro _
    | with_reducible assumption
    | with_reducible apply keeps_ite
    | with_reducible rfl
    | split
    | dsimp only
    | (with_reducible refine keeps_mk ?_ ⟨rfl, rfl, rfl, rfl, rfl⟩ ⟨rfl, rfl⟩)

theorem State.routesTick_keeps {q : List Instr} {j : TapSt} {b : TimeBase} {s : State}  (hs : Keeps q j b s) :
    Keeps q j b (State.routesTick s) := by
  unfold State.routesTick
  repeat' first
    | intro _
    | with_reducible assumption
    | with_reducible apply State.flag_keeps
    | with_reducible apply State.routeCompute_keeps
    | with_reducible apply keeps_ite
    | with_reducible rfl
    | (extract_lets +onlyGivenNames -underBinder x; first | (refine keeps_cut (q := q) (j := j) (b := b) (x := x) ?_ ?_ <;> first | (intro h0; generalize x = y at h0 ⊢; clear x) | intro h0 | subst x) | (have h0 := Nat.zero_le x; generalize x = y at h0 ⊢; clear h0 x) | subst x)
    | split
    | dsimp only
    | (with_reducible refine keeps_mk ?_ ⟨rfl, rfl, rfl, rfl, rfl⟩ ⟨rfl, rfl⟩)

theorem State.addrPut_keeps {q : List Instr} {j : TapSt} {b : TimeBase} {s : State} (uid : Nat) (a : Nat) (hs : Keeps q j b s) :
    Keeps q j b (State.addrPut s uid a) := by
  unfold State.addrPut
  repeat' first
    | intro _
    | with_reducible assumption
    | with_reducible rfl
    | (extract_lets +onlyGivenNames -underBinder x; first | (refine keeps_cut (q := q) (j := j) (b := b) (x := x) ?_ ?_ <;> first | (intro h0; generalize x = y at h0 ⊢; clear x) | intro h0 | subst x) | (have h0 := Nat.zero_le x; generalize x = y at h0 ⊢; clear h0 x) | subst x)
    | dsimp only
    | (with_reducible refine keeps_mk ?_ ⟨rfl, rfl, rfl, rfl, rfl⟩ ⟨rfl, rfl⟩)

theorem State.grantSend_keeps {q : List Instr} {j : TapSt} {b : TimeBase} {s : State} (f : NetFrame) (uid : Nat) (a : Nat) (status : Nat) (hs : Keeps q j b s) :
    Keeps q j b (State.grantSend s f uid a status) := by
  unfold State.grantSend
  repeat' first
    | intro _
    | with_reducible assumption
    | with_reducible apply State.peerSend_keeps
    | with_reducible apply State.netSend_keeps
    | with_reducible apply keeps_ite
    | with_reducible rfl
    | (extract_lets +onlyGivenNames -underBinder x; first | (refine keeps_cut (q := q) (j := j) (b := b) (x := x) ?_ ?_ <;> first | (intro h0; generalize x = y at h0 ⊢; clear x) | intro h0 | subst x) | (have h0 := Nat.zero_le x; generalize x = y at h0 ⊢; clear h0 x) | subst x)
    | split
    | dsimp only
    | (with_reducible refine keeps_mk ?_ ⟨rfl, rfl, rfl, rfl, rfl⟩ ⟨rfl, rfl⟩)

theorem State.joinIn_keeps {q : List Instr} {j : TapSt} {b : TimeBase} {s : State}  (hs : Keeps q j b s) :
    Keeps q j b (State.joinIn s) := by
  unfold State.joinIn
  repeat' first
    | intro _
    | with_reducible assumption
    | with_reducible apply State.grantSend_keeps
    | with_reducible apply State.addrPut_keeps
    | with_reducible apply State.netBad_keeps
    | with_reducible apply State.netTake_keeps
    | with_reducible apply State.netRoute_keeps
    | with_reducible apply State.netFrameAs_keeps
    | with_reducible apply keeps_ite
    | with_reducible rfl
    | (extract_lets +onlyGivenNames -underBinder x; first | (refine keeps_cut (q := q) (j := j) (b := b) (x := x) ?_ ?_ <;> first | (intro h0; generalize x = y at h0 ⊢; clear x) | intro h0 | subst x) | (have h0 := Nat.zero_le x; generalize x = y at h0 ⊢; clear h0 x) | subst x)
    | (with_reducible refine keeps_fst (by with_reducible assumption) ?_)
    | (with_reducible refine keeps_snd (by with_reducible assumption) ?_)
    | split
    | dsimp only
    | (with_reducible refine keeps_mk ?_ ⟨rfl, rfl, rfl, rfl, rfl⟩ ⟨rfl, rfl⟩)

theorem State.joinAgain_keeps {q : List Instr} {j : TapSt} {b : TimeBase} {s : State}  (hs : Keeps q j b s) :
    Keeps q j b (State.joinAgain s) := by
  unfold State.joinAgain
  repeat' first
    | intro _
    | with_reducible assumption
    | with_reducible apply State.joinSend_keeps
    | with_reducible apply keeps_ite
    | with_reducible rfl
    | split
    | dsimp only
    | (with_reducible refine keeps_mk ?_ ⟨rfl, rfl, rfl, rfl, rfl⟩ ⟨rfl, rfl⟩)

theorem State.memberJoined_keeps {q : List Instr} {j : TapSt} {b : TimeBase} {s : State}  (hs : Keeps q j b s) :
    Keeps q j b (State.memberJoined s) := by
  unfold State.memberJoined
  repeat' first
    | intro _
    | with_reducible assumption
    | with_reducible apply State.memberSet_keeps
    | with_reducible apply keeps_ite
    | with_reducible rfl
    | (extract_lets +onlyGivenNames -underBinder x; first | (refine keeps_cut (q := q) (j := j) (b := b) (x := x) ?_ ?_ <;> first | (intro h0; generalize x = y at h0 ⊢; clear x) | intro h0 | subst x) | (have h0 := Nat.zero_le x; generalize x = y at h0 ⊢; clear h0 x) | subst x)
    | split
    | dsimp only
    | (with_reducible refine keeps_mk ?_ ⟨rfl, rfl, rfl, rfl, rfl⟩ ⟨rfl, rfl⟩)

theorem State.grantIn_keeps {q : List Instr} {j : TapSt} {b : TimeBase} {s : State}  (hs : Keeps q j b s) :
    Keeps q j b (State.grantIn s) := by
  unfold State.grantIn
  repeat' first
    | intro _
    | with_reducible assumption
    | with_reducible apply State.set_keeps
    | with_reducible apply State.netBad_keeps
    | with_reducible apply State.netTake_keeps
    | with_reducible apply State.lsaSend_keeps
    | with_reducible apply State.dbChanged_keeps
    | with_reducible apply State.peerSend_keeps
    | with_reducible apply State.netSend_keeps
    | with_reducible apply keeps_foldl
    | with_reducible apply keeps_foldl_fst
    | with_reducible apply keeps_ite
    | with_reducible rfl
    | (extract_lets +onlyGivenNames -underBinder x; first | (refine keeps_cut (q := q) (j := j) (b := b) (x := x) ?_ ?_ <;> first | (intro h0; generalize x = y at h0 ⊢; clear x) | intro h0 | subst x) | (have h0 := Nat.zero_le x; generalize x = y at h0 ⊢; clear h0 x) | subst x)
    | (with_reducible refine keeps_fst (by with_reducible assumption) ?_)
    | (with_reducible refine keeps_snd (by with_reducible assumption) ?_)
    | split
    | dsimp only
    | (with_reducible refine keeps_mk ?_ ⟨rfl, rfl, rfl, rfl, rfl⟩ ⟨rfl, rfl⟩)

theorem State.toMembers_keeps {q : List Instr} {j : TapSt} {b : TimeBase} {s : State} (kind : Nat) (body : List Nat) (hs : Keeps q j b s) :
    Keeps q j b (State.toMembers s kind body) := by
  unfold State.toMembers
  repeat' first
    | intro _
    | with_reducible assumption
    | with_reducible apply State.netSend_keeps
    | with_reducible apply keeps_foldl
    | with_reducible apply keeps_foldl_fst
    | with_reducible rfl
    | dsimp only
    | (with_reducible refine keeps_mk ?_ ⟨rfl, rfl, rfl, rfl, rfl⟩ ⟨rfl, rfl⟩)

theorem State.fsResult_keeps {q : List Instr} {j : TapSt} {b : TimeBase} {s : State} (cseq : Nat) (status : Nat) (hs : Keeps q j b s) :
    Keeps q j b (State.fsResult s cseq status) := by
  unfold State.fsResult
  repeat' first
    | intro _
    | with_reducible assumption
    | with_reducible apply State.set_keeps
    | with_reducible apply keeps_ite
    | with_reducible rfl
    | split
    | dsimp only
    | (with_reducible refine keeps_mk ?_ ⟨rfl, rfl, rfl, rfl, rfl⟩ ⟨rfl, rfl⟩)

theorem State.fsDrop_keeps {q : List Instr} {j : TapSt} {b : TimeBase} {s : State} (cseq : Nat) (hs : Keeps q j b s) :
    Keeps q j b (State.fsDrop s cseq) := by
  unfold State.fsDrop
  repeat' first
    | intro _
    | with_reducible assumption
    | with_reducible apply State.fsResult_keeps
    | with_reducible rfl
    | (extract_lets +onlyGivenNames -underBinder x; first | (refine keeps_cut (q := q) (j := j) (b := b) (x := x) ?_ ?_ <;> first | (intro h0; generalize x = y at h0 ⊢; clear x) | intro h0 | subst x) | (have h0 := Nat.zero_le x; generalize x = y at h0 ⊢; clear h0 x) | subst x)
    | dsimp only
    | (with_reducible refine keeps_mk ?_ ⟨rfl, rfl, rfl, rfl, rfl⟩ ⟨rfl, rfl⟩)

theorem State.rootTake_keeps {q : List Instr} {j : TapSt} {b : TimeBase} {s : State} (replica : List (Nat × Nat)) (hs : Keeps q j b s) :
    Keeps q j b (State.rootTake s replica) := by
  unfold State.rootTake
  repeat' first
    | intro _
    | with_reducible assumption
    | with_reducible apply State.set_keeps
    | with_reducible apply State.tick_keeps
    | with_reducible apply State.fsDrop_keeps
    | with_reducible apply State.toMembers_keeps
    | with_reducible apply State.addrPut_keeps
    | with_reducible apply State.memberSet_keeps
    | with_reducible apply State.lsaSend_keeps
    | with_reducible apply State.dbChanged_keeps
    | with_reducible apply keeps_foldl
    | with_reducible apply keeps_foldl_fst
    | with_reducible apply keeps_ite
    | with_reducible rfl
    | (extract_lets +onlyGivenNames -underBinder x; first | (refine keeps_cut (q := q) (j := j) (b := b) (x := x) ?_ ?_ <;> first | (intro h0; generalize x = y at h0 ⊢; clear x) | intro h0 | subst x) | (have h0 := Nat.zero_le x; generalize x = y at h0 ⊢; clear h0 x) | subst x)
    | split
    | dsimp only
    | (with_reducible refine keeps_mk ?_ ⟨rfl, rfl, rfl, rfl, rfl⟩ ⟨rfl, rfl⟩)

theorem State.electRoot_keeps {q : List Instr} {j : TapSt} {b : TimeBase} {s : State} (replica : List (Nat × Nat)) (hs : Keeps q j b s) :
    Keeps q j b (State.electRoot s replica) := by
  unfold State.electRoot
  repeat' first
    | intro _
    | with_reducible assumption
    | with_reducible apply State.set_keeps
    | with_reducible apply State.flag_keeps
    | with_reducible apply State.rootTake_keeps
    | with_reducible apply State.joinTry_keeps
    | with_reducible apply State.memberSet_keeps
    | with_reducible apply keeps_ite
    | with_reducible rfl
    | (extract_lets +onlyGivenNames -underBinder x; first | (refine keeps_cut (q := q) (j := j) (b := b) (x := x) ?_ ?_ <;> first | (intro h0; generalize x = y at h0 ⊢; clear x) | intro h0 | subst x) | (have h0 := Nat.zero_le x; generalize x = y at h0 ⊢; clear h0 x) | subst x)
    | split
    | dsimp only
    | (with_reducible refine keeps_mk ?_ ⟨rfl, rfl, rfl, rfl, rfl⟩ ⟨rfl, rfl⟩)

theorem State.fscopePropose_keeps {q : List Instr} {j : TapSt} {b : TimeBase} {s : State} (index : Nat) (sub : Nat) (value : List Nat) (hs : Keeps q j b s) :
    Keeps q j b (State.fscopePropose s index sub value) := by
  unfold State.fscopePropose
  repeat' first
    | intro _
    | with_reducible assumption
    | with_reducible apply State.set_keeps
    | with_reducible apply State.netSend_keeps
    | with_reducible apply State.answer_keeps
    | with_reducible rfl
    | (extract_lets +onlyGivenNames -underBinder x; first | (refine keeps_cut (q := q) (j := j) (b := b) (x := x) ?_ ?_ <;> first | (intro h0; generalize x = y at h0 ⊢; clear x) | intro h0 | subst x) | (have h0 := Nat.zero_le x; generalize x = y at h0 ⊢; clear h0 x) | subst x)
    | dsimp only
    | (with_reducible refine keeps_mk ?_ ⟨rfl, rfl, rfl, rfl, rfl⟩ ⟨rfl, rfl⟩)

theorem State.fsTake_keeps {q : List Instr} {j : TapSt} {b : TimeBase} {s : State} (op : Nat) (hs : Keeps q j b s) :
    Keeps q j b (State.fsTake s op).2 := by
  unfold State.fsTake
  repeat' first
    | intro _
    | with_reducible assumption
    | with_reducible apply State.netBad_keeps
    | with_reducible apply State.netTake_keeps
    | with_reducible apply keeps_ite_snd
    | with_reducible rfl
    | (with_reducible refine keeps_fst (by with_reducible assumption) ?_)
    | (with_reducible refine keeps_snd (by with_reducible assumption) ?_)
    | split
    | dsimp only
    | (with_reducible refine keeps_mk ?_ ⟨rfl, rfl, rfl, rfl, rfl⟩ ⟨rfl, rfl⟩)

theorem State.fsPrepare_keeps {q : List Instr} {j : TapSt} {b : TimeBase} {s : State} (c : FsChange) (hs : Keeps q j b s) :
    Keeps q j b (State.fsPrepare s c) := by
  unfold State.fsPrepare
  repeat' first
    | intro _
    | with_reducible assumption
    | with_reducible apply keeps_ite
    | with_reducible rfl
    | (extract_lets +onlyGivenNames -underBinder x; first | (refine keeps_cut (q := q) (j := j) (b := b) (x := x) ?_ ?_ <;> first | (intro h0; generalize x = y at h0 ⊢; clear x) | intro h0 | subst x) | (have h0 := Nat.zero_le x; generalize x = y at h0 ⊢; clear h0 x) | subst x)
    | split
    | dsimp only
    | (with_reducible refine keeps_mk ?_ ⟨rfl, rfl, rfl, rfl, rfl⟩ ⟨rfl, rfl⟩)

theorem State.fsProposeIn_keeps {q : List Instr} {j : TapSt} {b : TimeBase} {s : State}  (hs : Keeps q j b s) :
    Keeps q j b (State.fsProposeIn s) := by
  unfold State.fsProposeIn
  repeat' first
    | intro _
    | with_reducible assumption
    | with_reducible apply State.tick_keeps
    | with_reducible apply State.fsPrepare_keeps
    | with_reducible apply State.fsTake_keeps
    | with_reducible apply State.toMembers_keeps
    | with_reducible apply State.netSend_keeps
    | with_reducible apply keeps_ite
    | with_reducible rfl
    | (extract_lets +onlyGivenNames -underBinder x; first | (refine keeps_cut (q := q) (j := j) (b := b) (x := x) ?_ ?_ <;> first | (intro h0; generalize x = y at h0 ⊢; clear x) | intro h0 | subst x) | (have h0 := Nat.zero_le x; generalize x = y at h0 ⊢; clear h0 x) | subst x)
    | (with_reducible refine keeps_fst (by with_reducible assumption) ?_)
    | (with_reducible refine keeps_snd (by with_reducible assumption) ?_)
    | split
    | dsimp only
    | (with_reducible refine keeps_mk ?_ ⟨rfl, rfl, rfl, rfl, rfl⟩ ⟨rfl, rfl⟩)

theorem State.fsPrepareIn_keeps {q : List Instr} {j : TapSt} {b : TimeBase} {s : State}  (hs : Keeps q j b s) :
    Keeps q j b (State.fsPrepareIn s) := by
  unfold State.fsPrepareIn
  repeat' first
    | intro _
    | with_reducible assumption
    | with_reducible apply State.tick_keeps
    | with_reducible apply State.fsPrepare_keeps
    | with_reducible apply State.fsTake_keeps
    | with_reducible apply State.netSend_keeps
    | with_reducible rfl
    | (with_reducible refine keeps_fst (by with_reducible assumption) ?_)
    | (with_reducible refine keeps_snd (by with_reducible assumption) ?_)
    | split
    | dsimp only
    | (with_reducible refine keeps_mk ?_ ⟨rfl, rfl, rfl, rfl, rfl⟩ ⟨rfl, rfl⟩)

theorem State.fsReadyIn_keeps {q : List Instr} {j : TapSt} {b : TimeBase} {s : State}  (hs : Keeps q j b s) :
    Keeps q j b (State.fsReadyIn s) := by
  unfold State.fsReadyIn
  repeat' first
    | intro _
    | with_reducible assumption
    | with_reducible apply State.fsTake_keeps
    | with_reducible apply keeps_ite
    | with_reducible rfl
    | (extract_lets +onlyGivenNames -underBinder x; first | (refine keeps_cut (q := q) (j := j) (b := b) (x := x) ?_ ?_ <;> first | (intro h0; generalize x = y at h0 ⊢; clear x) | intro h0 | subst x) | (have h0 := Nat.zero_le x; generalize x = y at h0 ⊢; clear h0 x) | subst x)
    | (with_reducible refine keeps_fst (by with_reducible assumption) ?_)
    | (with_reducible refine keeps_snd (by with_reducible assumption) ?_)
    | split
    | dsimp only
    | (with_reducible refine keeps_mk ?_ ⟨rfl, rfl, rfl, rfl, rfl⟩ ⟨rfl, rfl⟩)

theorem State.fsCommit_keeps {q : List Instr} {j : TapSt} {b : TimeBase} {s : State} (cseq : Nat) (hs : Keeps q j b s) :
    Keeps q j b (State.fsCommit s cseq) := by
  unfold State.fsCommit
  repeat' first
    | intro _
    | with_reducible assumption
    | with_reducible apply keeps_ite
    | with_reducible rfl
    | (extract_lets +onlyGivenNames -underBinder x; first | (refine keeps_cut (q := q) (j := j) (b := b) (x := x) ?_ ?_ <;> first | (intro h0; generalize x = y at h0 ⊢; clear x) | intro h0 | subst x) | (have h0 := Nat.zero_le x; generalize x = y at h0 ⊢; clear h0 x) | subst x)
    | split
    | dsimp only
    | (with_reducible refine keeps_mk ?_ ⟨rfl, rfl, rfl, rfl, rfl⟩ ⟨rfl, rfl⟩)

theorem State.fsDeadline_keeps {q : List Instr} {j : TapSt} {b : TimeBase} {s : State}  (hs : Keeps q j b s) :
    Keeps q j b (State.fsDeadline s) := by
  unfold State.fsDeadline
  repeat' first
    | intro _
    | with_reducible assumption
    | with_reducible apply State.tick_keeps
    | with_reducible apply State.fsCommit_keeps
    | with_reducible apply State.fsDrop_keeps
    | with_reducible apply State.toMembers_keeps
    | with_reducible apply keeps_ite
    | with_reducible rfl
    | (extract_lets +onlyGivenNames -underBinder x; first | (refine keeps_cut (q := q) (j := j) (b := b) (x := x) ?_ ?_ <;> first | (intro h0; generalize x = y at h0 ⊢; clear x) | intro h0 | subst x) | (have h0 := Nat.zero_le x; generalize x = y at h0 ⊢; clear h0 x) | subst x)
    | split
    | dsimp only
    | (with_reducible refine keeps_mk ?_ ⟨rfl, rfl, rfl, rfl, rfl⟩ ⟨rfl, rfl⟩)

theorem State.fsCommitIn_keeps {q : List Instr} {j : TapSt} {b : TimeBase} {s : State}  (hs : Keeps q j b s) :
    Keeps q j b (State.fsCommitIn s) := by
  unfold State.fsCommitIn
  repeat' first
    | intro _
    | with_reducible assumption
    | with_reducible apply State.fsCommit_keeps
    | with_reducible apply State.fsTake_keeps
    | with_reducible rfl
    | (with_reducible refine keeps_fst (by with_reducible assumption) ?_)
    | (with_reducible refine keeps_snd (by with_reducible assumption) ?_)
    | split
    | dsimp only
    | (with_reducible refine keeps_mk ?_ ⟨rfl, rfl, rfl, rfl, rfl⟩ ⟨rfl, rfl⟩)

theorem State.fsAbortIn_keeps {q : List Instr} {j : TapSt} {b : TimeBase} {s : State}  (hs : Keeps q j b s) :
    Keeps q j b (State.fsAbortIn s) := by
  unfold State.fsAbortIn
  repeat' first
    | intro _
    | with_reducible assumption
    | with_reducible apply State.set_keeps
    | with_reducible apply State.fsTake_keeps
    | with_reducible apply State.fsDrop_keeps
    | with_reducible apply keeps_ite
    | with_reducible rfl
    | (with_reducible refine keeps_fst (by with_reducible assumption) ?_)
    | (with_reducible refine keeps_snd (by with_reducible assumption) ?_)
    | split
    | dsimp only
    | (with_reducible refine keeps_mk ?_ ⟨rfl, rfl, rfl, rfl, rfl⟩ ⟨rfl, rfl⟩)

theorem State.fsApply_keeps {q : List Instr} {j : TapSt} {b : TimeBase} {s : State} (c : FsChange) (hs : Keeps q j b s) :
    Keeps q j b (State.fsApply s c) := by
  unfold State.fsApply
  repeat' first
    | intro _
    | with_reducible assumption
    | with_reducible apply State.set_keeps
    | with_reducible apply keeps_foldl
    | with_reducible apply keeps_foldl_fst
    | with_reducible apply keeps_ite
    | with_reducible rfl
    | split
    | dsimp only
    | (with_reducible refine keeps_mk ?_ ⟨rfl, rfl, rfl, rfl, rfl⟩ ⟨rfl, rfl⟩)

theorem State.fsEdge_keeps {q : List Instr} {j : TapSt} {b : TimeBase} {s : State}  (hs : Keeps q j b s) :
    Keeps q j b (State.fsEdge s) := by
  unfold State.fsEdge
  repeat' first
    | intro _
    | with_reducible assumption
    | with_reducible apply State.flag_keeps
    | with_reducible apply State.tick_keeps
    | with_reducible apply State.fsApply_keeps
    | with_reducible apply State.fsResult_keeps
    | with_reducible apply State.netSend_keeps
    | with_reducible apply keeps_foldl
    | with_reducible apply keeps_foldl_fst
    | with_reducible apply keeps_ite
    | with_reducible rfl
    | (extract_lets +onlyGivenNames -underBinder x; first | (refine keeps_cut (q := q) (j := j) (b := b) (x := x) ?_ ?_ <;> first | (intro h0; generalize x = y at h0 ⊢; clear x) | intro h0 | subst x) | (have h0 := Nat.zero_le x; generalize x = y at h0 ⊢; clear h0 x) | subst x)
    | split
    | dsimp only
    | (with_reducible refine keeps_mk ?_ ⟨rfl, rfl, rfl, rfl, rfl⟩ ⟨rfl, rfl⟩)

theorem State.fsFetchIn_keeps {q : List Instr} {j : TapSt} {b : TimeBase} {s : State}  (hs : Keeps q j b s) :
    Keeps q j b (State.fsFetchIn s) := by
  unfold State.fsFetchIn
  repeat' first
    | intro _
    | with_reducible assumption
    | with_reducible apply State.fsTake_keeps
    | with_reducible apply State.netSend_keeps
    | with_reducible apply keeps_ite
    | with_reducible rfl
    | (extract_lets +onlyGivenNames -underBinder x; first | (refine keeps_cut (q := q) (j := j) (b := b) (x := x) ?_ ?_ <;> first | (intro h0; generalize x = y at h0 ⊢; clear x) | intro h0 | subst x) | (have h0 := Nat.zero_le x; generalize x = y at h0 ⊢; clear h0 x) | subst x)
    | (with_reducible refine keeps_fst (by with_reducible assumption) ?_)
    | (with_reducible refine keeps_snd (by with_reducible assumption) ?_)
    | split
    | dsimp only
    | (with_reducible refine keeps_mk ?_ ⟨rfl, rfl, rfl, rfl, rfl⟩ ⟨rfl, rfl⟩)

theorem State.fsValueIn_keeps {q : List Instr} {j : TapSt} {b : TimeBase} {s : State}  (hs : Keeps q j b s) :
    Keeps q j b (State.fsValueIn s) := by
  unfold State.fsValueIn
  repeat' first
    | intro _
    | with_reducible assumption
    | with_reducible apply State.fsTake_keeps
    | with_reducible rfl
    | (with_reducible refine keeps_fst (by with_reducible assumption) ?_)
    | (with_reducible refine keeps_snd (by with_reducible assumption) ?_)
    | split
    | dsimp only
    | (with_reducible refine keeps_mk ?_ ⟨rfl, rfl, rfl, rfl, rfl⟩ ⟨rfl, rfl⟩)

theorem State.fsTick_keeps {q : List Instr} {j : TapSt} {b : TimeBase} {s : State}  (hs : Keeps q j b s) :
    Keeps q j b (State.fsTick s) := by
  unfold State.fsTick
  repeat' first
    | intro _
    | with_reducible assumption
    | with_reducible apply State.fsApply_keeps
    | with_reducible apply State.fsResult_keeps
    | with_reducible apply State.memberJoined_keeps
    | with_reducible apply keeps_foldl
    | with_reducible apply keeps_foldl_fst
    | with_reducible apply keeps_ite
    | with_reducible rfl
    | (extract_lets +onlyGivenNames -underBinder x; first | (refine keeps_cut (q := q) (j := j) (b := b) (x := x) ?_ ?_ <;> first | (intro h0; generalize x = y at h0 ⊢; clear x) | intro h0 | subst x) | (have h0 := Nat.zero_le x; generalize x = y at h0 ⊢; clear h0 x) | subst x)
    | split
    | dsimp only
    | (with_reducible refine keeps_mk ?_ ⟨rfl, rfl, rfl, rfl, rfl⟩ ⟨rfl, rfl⟩)

theorem State.fsLost_keeps {q : List Instr} {j : TapSt} {b : TimeBase} {s : State}  (hs : Keeps q j b s) :
    Keeps q j b (State.fsLost s) := by
  unfold State.fsLost
  repeat' first
    | intro _
    | with_reducible assumption
    | with_reducible apply State.set_keeps
    | with_reducible apply keeps_ite
    | with_reducible rfl
    | split
    | dsimp only
    | (with_reducible refine keeps_mk ?_ ⟨rfl, rfl, rfl, rfl, rfl⟩ ⟨rfl, rfl⟩)

theorem State.streamTake_keeps {q : List Instr} {j : TapSt} {b : TimeBase} {s : State} (op : Nat) (hs : Keeps q j b s) :
    Keeps q j b (State.streamTake s op).2 := by
  unfold State.streamTake
  repeat' first
    | intro _
    | with_reducible assumption
    | with_reducible apply State.netBad_keeps
    | with_reducible apply State.netTake_keeps
    | with_reducible apply keeps_ite
    | with_reducible apply keeps_ite_snd
    | with_reducible rfl
    | (with_reducible refine keeps_fst (by with_reducible assumption) ?_)
    | (with_reducible refine keeps_snd (by with_reducible assumption) ?_)
    | split
    | dsimp only
    | (with_reducible refine keeps_mk ?_ ⟨rfl, rfl, rfl, rfl, rfl⟩ ⟨rfl, rfl⟩)

theorem State.rxPut_keeps {q : List Instr} {j : TapSt} {b : TimeBase} {s : State} (r : StreamRx) (hs : Keeps q j b s) :
    Keeps q j b (State.rxPut s r) := by
  unfold State.rxPut
  repeat' first
    | intro _
    | with_reducible assumption
    | with_reducible rfl
    | dsimp only
    | (with_reducible refine keeps_mk ?_ ⟨rfl, rfl, rfl, rfl, rfl⟩ ⟨rfl, rfl⟩)

theorem State.streamOpen_keeps {q : List Instr} {j : TapSt} {b : TimeBase} {s : State}  (hs : Keeps q j b s) :
    Keeps q j b (State.streamOpen s) := by
  unfold State.streamOpen
  repeat' first
    | intro _
    | with_reducible assumption
    | with_reducible apply State.rxPut_keeps
    | with_reducible apply State.streamTake_keeps
    | with_reducible apply State.netSend_keeps
    | with_reducible apply keeps_ite
    | with_reducible rfl
    | (extract_lets +onlyGivenNames -underBinder x; first | (refine keeps_cut (q := q) (j := j) (b := b) (x := x) ?_ ?_ <;> first | (intro h0; generalize x = y at h0 ⊢; clear x) | intro h0 | subst x) | (have h0 := Nat.zero_le x; generalize x = y at h0 ⊢; clear h0 x) | subst x)
    | (with_reducible refine keeps_fst (by with_reducible assumption) ?_)
    | (with_reducible refine keeps_snd (by with_reducible assumption) ?_)
    | split
    | dsimp only
    | (with_reducible refine keeps_mk ?_ ⟨rfl, rfl, rfl, rfl, rfl⟩ ⟨rfl, rfl⟩)

theorem State.streamData_keeps {q : List Instr} {j : TapSt} {b : TimeBase} {s : State}  (hs : Keeps q j b s) :
    Keeps q j b (State.streamData s) := by
  unfold State.streamData
  repeat' first
    | intro _
    | with_reducible assumption
    | with_reducible apply State.rxPut_keeps
    | with_reducible apply State.netBad_keeps
    | with_reducible apply State.netTake_keeps
    | with_reducible apply State.netSend_keeps
    | with_reducible apply keeps_ite
    | with_reducible rfl
    | (extract_lets +onlyGivenNames -underBinder x; first | (refine keeps_cut (q := q) (j := j) (b := b) (x := x) ?_ ?_ <;> first | (intro h0; generalize x = y at h0 ⊢; clear x) | intro h0 | subst x) | (have h0 := Nat.zero_le x; generalize x = y at h0 ⊢; clear h0 x) | subst x)
    | (with_reducible refine keeps_fst (by with_reducible assumption) ?_)
    | (with_reducible refine keeps_snd (by with_reducible assumption) ?_)
    | split
    | dsimp only
    | (with_reducible refine keeps_mk ?_ ⟨rfl, rfl, rfl, rfl, rfl⟩ ⟨rfl, rfl⟩)

theorem State.modTx_keeps {q : List Instr} {j : TapSt} {b : TimeBase} {s : State} (dest : Nat) (stream : Nat) (inc : Nat) (g : StreamTx → StreamTx) (hs : Keeps q j b s) :
    Keeps q j b (State.modTx s dest stream inc g) := by
  unfold State.modTx
  repeat' first
    | intro _
    | with_reducible assumption
    | with_reducible apply keeps_ite
    | with_reducible rfl
    | split
    | dsimp only
    | (with_reducible refine keeps_mk ?_ ⟨rfl, rfl, rfl, rfl, rfl⟩ ⟨rfl, rfl⟩)

theorem State.txPump_keeps {q : List Instr} {j : TapSt} {b : TimeBase} {s : State} (t : StreamTx) (hs : Keeps q j b s) :
    Keeps q j b (State.txPump s t) := by
  unfold State.txPump
  repeat' first
    | intro _
    | with_reducible assumption
    | with_reducible apply State.modTx_keeps
    | with_reducible apply State.netSend_keeps
    | with_reducible apply keeps_foldl
    | with_reducible apply keeps_foldl_fst
    | with_reducible apply keeps_ite
    | with_reducible rfl
    | (extract_lets +onlyGivenNames -underBinder x; first | (refine keeps_cut (q := q) (j := j) (b := b) (x := x) ?_ ?_ <;> first | (intro h0; generalize x = y at h0 ⊢; clear x) | intro h0 | subst x) | (have h0 := Nat.zero_le x; generalize x = y at h0 ⊢; clear h0 x) | subst x)
    | split
    | dsimp only
    | (with_reducible refine keeps_mk ?_ ⟨rfl, rfl, rfl, rfl, rfl⟩ ⟨rfl, rfl⟩)

theorem State.streamOpenAck_keeps {q : List Instr} {j : TapSt} {b : TimeBase} {s : State}  (hs : Keeps q j b s) :
    Keeps q j b (State.streamOpenAck s) := by
  unfold State.streamOpenAck
  repeat' first
    | intro _
    | with_reducible assumption
    | with_reducible apply State.txPump_keeps
    | with_reducible apply State.modTx_keeps
    | with_reducible apply State.streamTake_keeps
    | with_reducible rfl
    | (extract_lets +onlyGivenNames -underBinder x; first | (refine keeps_cut (q := q) (j := j) (b := b) (x := x) ?_ ?_ <;> first | (intro h0; generalize x = y at h0 ⊢; clear x) | intro h0 | subst x) | (have h0 := Nat.zero_le x; generalize x = y at h0 ⊢; clear h0 x) | subst x)
    | (with_reducible refine keeps_fst (by with_reducible assumption) ?_)
    | (with_reducible refine keeps_snd (by with_reducible assumption) ?_)
    | split
    | dsimp only
    | (with_reducible refine keeps_mk ?_ ⟨rfl, rfl, rfl, rfl, rfl⟩ ⟨rfl, rfl⟩)

theorem State.streamAck_keeps {q : List Instr} {j : TapSt} {b : TimeBase} {s : State}  (hs : Keeps q j b s) :
    Keeps q j b (State.streamAck s) := by
  unfold State.streamAck
  repeat' first
    | intro _
    | with_reducible assumption
    | with_reducible apply State.txPump_keeps
    | with_reducible apply State.modTx_keeps
    | with_reducible apply State.streamTake_keeps
    | with_reducible apply keeps_ite
    | with_reducible rfl
    | (extract_lets +onlyGivenNames -underBinder x; first | (refine keeps_cut (q := q) (j := j) (b := b) (x := x) ?_ ?_ <;> first | (intro h0; generalize x = y at h0 ⊢; clear x) | intro h0 | subst x) | (have h0 := Nat.zero_le x; generalize x = y at h0 ⊢; clear h0 x) | subst x)
    | (with_reducible refine keeps_fst (by with_reducible assumption) ?_)
    | (with_reducible refine keeps_snd (by with_reducible assumption) ?_)
    | split
    | dsimp only
    | (with_reducible refine keeps_mk ?_ ⟨rfl, rfl, rfl, rfl, rfl⟩ ⟨rfl, rfl⟩)

theorem State.streamClose_keeps {q : List Instr} {j : TapSt} {b : TimeBase} {s : State}  (hs : Keeps q j b s) :
    Keeps q j b (State.streamClose s) := by
  unfold State.streamClose
  repeat' first
    | intro _
    | with_reducible assumption
    | with_reducible apply State.streamTake_keeps
    | with_reducible rfl
    | (extract_lets +onlyGivenNames -underBinder x; first | (refine keeps_cut (q := q) (j := j) (b := b) (x := x) ?_ ?_ <;> first | (intro h0; generalize x = y at h0 ⊢; clear x) | intro h0 | subst x) | (have h0 := Nat.zero_le x; generalize x = y at h0 ⊢; clear h0 x) | subst x)
    | (with_reducible refine keeps_fst (by with_reducible assumption) ?_)
    | (with_reducible refine keeps_snd (by with_reducible assumption) ?_)
    | split
    | dsimp only
    | (with_reducible refine keeps_mk ?_ ⟨rfl, rfl, rfl, rfl, rfl⟩ ⟨rfl, rfl⟩)

theorem State.streamReset_keeps {q : List Instr} {j : TapSt} {b : TimeBase} {s : State}  (hs : Keeps q j b s) :
    Keeps q j b (State.streamReset s) := by
  unfold State.streamReset
  repeat' first
    | intro _
    | with_reducible assumption
    | with_reducible apply State.streamTake_keeps
    | with_reducible rfl
    | (extract_lets +onlyGivenNames -underBinder x; first | (refine keeps_cut (q := q) (j := j) (b := b) (x := x) ?_ ?_ <;> first | (intro h0; generalize x = y at h0 ⊢; clear x) | intro h0 | subst x) | (have h0 := Nat.zero_le x; generalize x = y at h0 ⊢; clear h0 x) | subst x)
    | (with_reducible refine keeps_fst (by with_reducible assumption) ?_)
    | (with_reducible refine keeps_snd (by with_reducible assumption) ?_)
    | split
    | dsimp only
    | (with_reducible refine keeps_mk ?_ ⟨rfl, rfl, rfl, rfl, rfl⟩ ⟨rfl, rfl⟩)

theorem State.streamResend_keeps {q : List Instr} {j : TapSt} {b : TimeBase} {s : State}  (hs : Keeps q j b s) :
    Keeps q j b (State.streamResend s) := by
  unfold State.streamResend
  repeat' first
    | intro _
    | with_reducible assumption
    | with_reducible apply State.txPump_keeps
    | with_reducible apply State.modTx_keeps
    | with_reducible rfl
    | (extract_lets +onlyGivenNames -underBinder x; first | (refine keeps_cut (q := q) (j := j) (b := b) (x := x) ?_ ?_ <;> first | (intro h0; generalize x = y at h0 ⊢; clear x) | intro h0 | subst x) | (have h0 := Nat.zero_le x; generalize x = y at h0 ⊢; clear h0 x) | subst x)
    | split
    | dsimp only
    | (with_reducible refine keeps_mk ?_ ⟨rfl, rfl, rfl, rfl, rfl⟩ ⟨rfl, rfl⟩)

theorem State.netTick_keeps {q : List Instr} {j : TapSt} {b : TimeBase} {s : State}  (hs : Keeps q j b s) :
    Keeps q j b (State.netTick s) := by
  unfold State.netTick
  repeat' first
    | intro _
    | with_reducible assumption
    | with_reducible apply State.set_keeps
    | with_reducible apply State.fsTick_keeps
    | with_reducible apply State.routesTick_keeps
    | with_reducible apply State.messagesTick_keeps
    | with_reducible apply State.tableTick_keeps
    | with_reducible apply State.setB_keeps
    | with_reducible rfl
    | (extract_lets +onlyGivenNames -underBinder x; first | (refine keeps_cut (q := q) (j := j) (b := b) (x := x) ?_ ?_ <;> first | (intro h0; generalize x = y at h0 ⊢; clear x) | intro h0 | subst x) | (have h0 := Nat.zero_le x; generalize x = y at h0 ⊢; clear h0 x) | subst x)
    | dsimp only
    | (with_reducible refine keeps_mk ?_ ⟨rfl, rfl, rfl, rfl, rfl⟩ ⟨rfl, rfl⟩)

theorem State.netReset_keeps {q : List Instr} {j : TapSt} {b : TimeBase} {s : State}  (hs : Keeps q j b s) :
    Keeps q j b (State.netReset s) := by
  unfold State.netReset
  repeat' first
    | intro _
    | with_reducible assumption
    | with_reducible apply State.set_keeps
    | with_reducible apply State.messagesReset_keeps
    | with_reducible apply State.windowsLost_keeps
    | with_reducible apply State.reset_keeps
    | with_reducible rfl
    | (extract_lets +onlyGivenNames -underBinder x; first | (refine keeps_cut (q := q) (j := j) (b := b) (x := x) ?_ ?_ <;> first | (intro h0; generalize x = y at h0 ⊢; clear x) | intro h0 | subst x) | (have h0 := Nat.zero_le x; generalize x = y at h0 ⊢; clear h0 x) | subst x)
    | dsimp only
    | (with_reducible refine keeps_mk ?_ ⟨rfl, rfl, rfl, rfl, rfl⟩ ⟨rfl, rfl⟩)

/-! ### Erg -/

theorem State.modErg_keeps {q : List Instr} {j : TapSt} {b : TimeBase} {s : State} (f : ErgSt → ErgSt) (hs : Keeps q j b s) :
    Keeps q j b (State.modErg s f) := by
  unfold State.modErg
  repeat' first
    | intro _
    | with_reducible assumption
    | with_reducible rfl
    | dsimp only
    | (with_reducible refine keeps_mk ?_ ⟨rfl, rfl, rfl, rfl, rfl⟩ ⟨rfl, rfl⟩)

theorem State.antWatch_keeps {q : List Instr} {j : TapSt} {b : TimeBase} {s : State} (a : Nat) (hs : Keeps q j b s) :
    Keeps q j b (State.antWatch s a) := by
  unfold State.antWatch
  repeat' first
    | intro _
    | with_reducible assumption
    | with_reducible apply State.modAnt_keeps
    | with_reducible apply keeps_ite
    | with_reducible rfl
    | (extract_lets +onlyGivenNames -underBinder x; first | (refine keeps_cut (q := q) (j := j) (b := b) (x := x) ?_ ?_ <;> first | (intro h0; generalize x = y at h0 ⊢; clear x) | intro h0 | subst x) | (have h0 := Nat.zero_le x; generalize x = y at h0 ⊢; clear h0 x) | subst x)
    | split
    | dsimp only
    | (with_reducible refine keeps_mk ?_ ⟨rfl, rfl, rfl, rfl, rfl⟩ ⟨rfl, rfl⟩)

theorem State.ergOutcome_keeps {q : List Instr} {j : TapSt} {b : TimeBase} {s : State} (lane : Nat) (r : ErgRun) (outcome : Nat) (pk : Peak) (cn0 : Nat) (sec : Bool) (slot : Option Nat) (hs : Keeps q j b s) :
    Keeps q j b (State.ergOutcome s lane r outcome pk cn0 sec slot) := by
  unfold State.ergOutcome
  repeat' first
    | intro _
    | with_reducible assumption
    | with_reducible apply State.set_keeps
    | with_reducible apply State.append_keeps
    | with_reducible apply keeps_ite
    | with_reducible rfl
    | (extract_lets +onlyGivenNames -underBinder x; first | (refine keeps_cut (q := q) (j := j) (b := b) (x := x) ?_ ?_ <;> first | (intro h0; generalize x = y at h0 ⊢; clear x) | intro h0 | subst x) | (have h0 := Nat.zero_le x; generalize x = y at h0 ⊢; clear h0 x) | subst x)
    | split
    | dsimp only
    | (with_reducible refine keeps_mk ?_ ⟨rfl, rfl, rfl, rfl, rfl⟩ ⟨rfl, rfl⟩)

theorem State.laneFree_keeps {q : List Instr} {j : TapSt} {b : TimeBase} {s : State} (l : Nat) (hs : Keeps q j b s) :
    Keeps q j b (State.laneFree s l) := by
  unfold State.laneFree
  repeat' first
    | intro _
    | with_reducible assumption
    | with_reducible apply State.count_keeps
    | with_reducible rfl
    | (extract_lets +onlyGivenNames -underBinder x; first | (refine keeps_cut (q := q) (j := j) (b := b) (x := x) ?_ ?_ <;> first | (intro h0; generalize x = y at h0 ⊢; clear x) | intro h0 | subst x) | (have h0 := Nat.zero_le x; generalize x = y at h0 ⊢; clear h0 x) | subst x)
    | dsimp only
    | (with_reducible refine keeps_mk ?_ ⟨rfl, rfl, rfl, rfl, rfl⟩ ⟨rfl, rfl⟩)

theorem State.runEnd_keeps {q : List Instr} {j : TapSt} {b : TimeBase} {s : State} (l : Nat) (outcome : Nat) (hs : Keeps q j b s) :
    Keeps q j b (State.runEnd s l outcome) := by
  unfold State.runEnd
  repeat' first
    | intro _
    | with_reducible assumption
    | with_reducible apply State.flag_keeps
    | with_reducible apply State.laneFree_keeps
    | with_reducible apply State.ergOutcome_keeps
    | with_reducible apply keeps_ite
    | with_reducible rfl
    | (extract_lets +onlyGivenNames -underBinder x; first | (refine keeps_cut (q := q) (j := j) (b := b) (x := x) ?_ ?_ <;> first | (intro h0; generalize x = y at h0 ⊢; clear x) | intro h0 | subst x) | (have h0 := Nat.zero_le x; generalize x = y at h0 ⊢; clear h0 x) | subst x)
    | split
    | dsimp only
    | (with_reducible refine keeps_mk ?_ ⟨rfl, rfl, rfl, rfl, rfl⟩ ⟨rfl, rfl⟩)

theorem State.runsAbort_keeps {q : List Instr} {j : TapSt} {b : TimeBase} {s : State} (p : ErgRun → Bool) (hs : Keeps q j b s) :
    Keeps q j b (State.runsAbort s p) := by
  unfold State.runsAbort
  repeat' first
    | intro _
    | with_reducible assumption
    | with_reducible apply State.runEnd_keeps
    | with_reducible apply keeps_foldl
    | with_reducible apply keeps_foldl_fst
    | with_reducible apply keeps_ite
    | with_reducible rfl
    | split
    | dsimp only
    | (with_reducible refine keeps_mk ?_ ⟨rfl, rfl, rfl, rfl, rfl⟩ ⟨rfl, rfl⟩)

theorem State.resultsDrop_keeps {q : List Instr} {j : TapSt} {b : TimeBase} {s : State} (p : ErgResult → Bool) (hs : Keeps q j b s) :
    Keeps q j b (State.resultsDrop s p) := by
  unfold State.resultsDrop
  repeat' first
    | intro _
    | with_reducible assumption
    | with_reducible apply State.ergOutcome_keeps
    | with_reducible apply keeps_foldl
    | with_reducible apply keeps_foldl_fst
    | with_reducible rfl
    | (extract_lets +onlyGivenNames -underBinder x; first | (refine keeps_cut (q := q) (j := j) (b := b) (x := x) ?_ ?_ <;> first | (intro h0; generalize x = y at h0 ⊢; clear x) | intro h0 | subst x) | (have h0 := Nat.zero_le x; generalize x = y at h0 ⊢; clear h0 x) | subst x)
    | dsimp only
    | (with_reducible refine keeps_mk ?_ ⟨rfl, rfl, rfl, rfl, rfl⟩ ⟨rfl, rfl⟩)

theorem State.ergCal_keeps {q : List Instr} {j : TapSt} {b : TimeBase} {s : State}  (hs : Keeps q j b s) :
    Keeps q j b (State.ergCal s) := by
  unfold State.ergCal
  repeat' first
    | intro _
    | with_reducible assumption
    | with_reducible apply State.runsAbort_keeps
    | with_reducible rfl
    | dsimp only
    | (with_reducible refine keeps_mk ?_ ⟨rfl, rfl, rfl, rfl, rfl⟩ ⟨rfl, rfl⟩)

theorem State.antLeave_keeps {q : List Instr} {j : TapSt} {b : TimeBase} {s : State} (a : Nat) (hs : Keeps q j b s) :
    Keeps q j b (State.antLeave s a) := by
  unfold State.antLeave
  repeat' first
    | intro _
    | with_reducible assumption
    | with_reducible apply State.resultsDrop_keeps
    | with_reducible apply State.runsAbort_keeps
    | with_reducible apply State.slotsFreeWhere_keeps
    | with_reducible rfl
    | (extract_lets +onlyGivenNames -underBinder x; first | (refine keeps_cut (q := q) (j := j) (b := b) (x := x) ?_ ?_ <;> first | (intro h0; generalize x = y at h0 ⊢; clear x) | intro h0 | subst x) | (have h0 := Nat.zero_le x; generalize x = y at h0 ⊢; clear h0 x) | subst x)
    | dsimp only
    | (with_reducible refine keeps_mk ?_ ⟨rfl, rfl, rfl, rfl, rfl⟩ ⟨rfl, rfl⟩)

theorem State.serve_keeps {q : List Instr} {j : TapSt} {b : TimeBase} {s : State} (toward : Nat) (hs : Keeps q j b s) :
    Keeps q j b (State.serve s toward) := by
  unfold State.serve
  repeat' first
    | intro _
    | with_reducible assumption
    | with_reducible apply State.set_keeps
    | with_reducible apply State.flag_keeps
    | with_reducible apply State.antLeave_keeps
    | with_reducible apply keeps_foldl
    | with_reducible apply keeps_foldl_fst
    | with_reducible apply keeps_ite
    | with_reducible rfl
    | (extract_lets +onlyGivenNames -underBinder x; first | (refine keeps_cut (q := q) (j := j) (b := b) (x := x) ?_ ?_ <;> first | (intro h0; generalize x = y at h0 ⊢; clear x) | intro h0 | subst x) | (have h0 := Nat.zero_le x; generalize x = y at h0 ⊢; clear h0 x) | subst x)
    | split
    | dsimp only
    | (with_reducible refine keeps_mk ?_ ⟨rfl, rfl, rfl, rfl, rfl⟩ ⟨rfl, rfl⟩)

theorem State.antSelect_keeps {q : List Instr} {j : TapSt} {b : TimeBase} {s : State}  (hs : Keeps q j b s) :
    Keeps q j b (State.antSelect s) := by
  unfold State.antSelect
  repeat' first
    | intro _
    | with_reducible assumption
    | with_reducible apply State.serve_keeps
    | with_reducible apply State.antWatch_keeps
    | with_reducible apply keeps_ite
    | with_reducible rfl
    | (extract_lets +onlyGivenNames -underBinder x; first | (refine keeps_cut (q := q) (j := j) (b := b) (x := x) ?_ ?_ <;> first | (intro h0; generalize x = y at h0 ⊢; clear x) | intro h0 | subst x) | (have h0 := Nat.zero_le x; generalize x = y at h0 ⊢; clear h0 x) | subst x)
    | split
    | dsimp only
    | (with_reducible refine keeps_mk ?_ ⟨rfl, rfl, rfl, rfl, rfl⟩ ⟨rfl, rfl⟩)

theorem State.antSwitch_keeps {q : List Instr} {j : TapSt} {b : TimeBase} {s : State}  (hs : Keeps q j b s) :
    Keeps q j b (State.antSwitch s) := by
  unfold State.antSwitch
  repeat' first
    | intro _
    | with_reducible assumption
    | with_reducible apply State.serve_keeps
    | with_reducible apply keeps_ite
    | with_reducible rfl
    | (extract_lets +onlyGivenNames -underBinder x; first | (refine keeps_cut (q := q) (j := j) (b := b) (x := x) ?_ ?_ <;> first | (intro h0; generalize x = y at h0 ⊢; clear x) | intro h0 | subst x) | (have h0 := Nat.zero_le x; generalize x = y at h0 ⊢; clear h0 x) | subst x)
    | split
    | dsimp only
    | (with_reducible refine keeps_mk ?_ ⟨rfl, rfl, rfl, rfl, rfl⟩ ⟨rfl, rfl⟩)

theorem State.antRevert_keeps {q : List Instr} {j : TapSt} {b : TimeBase} {s : State}  (hs : Keeps q j b s) :
    Keeps q j b (State.antRevert s) := by
  unfold State.antRevert
  repeat' first
    | intro _
    | with_reducible assumption
    | with_reducible apply State.serve_keeps
    | with_reducible apply keeps_ite
    | with_reducible rfl
    | (extract_lets +onlyGivenNames -underBinder x; first | (refine keeps_cut (q := q) (j := j) (b := b) (x := x) ?_ ?_ <;> first | (intro h0; generalize x = y at h0 ⊢; clear x) | intro h0 | subst x) | (have h0 := Nat.zero_le x; generalize x = y at h0 ⊢; clear h0 x) | subst x)
    | split
    | dsimp only
    | (with_reducible refine keeps_mk ?_ ⟨rfl, rfl, rfl, rfl, rfl⟩ ⟨rfl, rfl⟩)

theorem State.laneStart_keeps {q : List Instr} {j : TapSt} {b : TimeBase} {s : State} (p : ErgPred) (hs : Keeps q j b s) :
    Keeps q j b (State.laneStart s p) := by
  unfold State.laneStart
  repeat' first
    | intro _
    | with_reducible assumption
    | with_reducible apply State.set_keeps
    | with_reducible apply State.bump_keeps
    | with_reducible apply State.count_keeps
    | with_reducible apply keeps_ite
    | with_reducible rfl
    | (extract_lets +onlyGivenNames -underBinder x; first | (refine keeps_cut (q := q) (j := j) (b := b) (x := x) ?_ ?_ <;> first | (intro h0; generalize x = y at h0 ⊢; clear x) | intro h0 | subst x) | (have h0 := Nat.zero_le x; generalize x = y at h0 ⊢; clear h0 x) | subst x)
    | split
    | dsimp only
    | (with_reducible refine keeps_mk ?_ ⟨rfl, rfl, rfl, rfl, rfl⟩ ⟨rfl, rfl⟩)

theorem State.modRun_keeps {q : List Instr} {j : TapSt} {b : TimeBase} {s : State} (l : Nat) (f : ErgRun → ErgRun) (hs : Keeps q j b s) :
    Keeps q j b (State.modRun s l f) := by
  unfold State.modRun
  repeat' first
    | intro _
    | with_reducible assumption
    | with_reducible rfl
    | dsimp only
    | (with_reducible refine keeps_mk ?_ ⟨rfl, rfl, rfl, rfl, rfl⟩ ⟨rfl, rfl⟩)

theorem State.runNext_keeps {q : List Instr} {j : TapSt} {b : TimeBase} {s : State} (l : Nat) (r : ErgRun) (hs : Keeps q j b s) :
    Keeps q j b (State.runNext s l r) := by
  unfold State.runNext
  repeat' first
    | intro _
    | with_reducible assumption
    | with_reducible apply State.modRun_keeps
    | with_reducible apply State.runEnd_keeps
    | with_reducible apply keeps_ite
    | with_reducible rfl
    | split
    | dsimp only
    | (with_reducible refine keeps_mk ?_ ⟨rfl, rfl, rfl, rfl, rfl⟩ ⟨rfl, rfl⟩)

theorem State.passDecision_keeps {q : List Instr} {j : TapSt} {b : TimeBase} {s : State} (l : Nat) (cell : Nat) (line : Nat) (ratio : Nat) (hs : Keeps q j b s) :
    Keeps q j b (State.passDecision s l cell line ratio) := by
  unfold State.passDecision
  repeat' first
    | intro _
    | with_reducible assumption
    | with_reducible apply State.runNext_keeps
    | with_reducible apply State.modRun_keeps
    | with_reducible apply keeps_ite
    | with_reducible rfl
    | (extract_lets +onlyGivenNames -underBinder x; first | (refine keeps_cut (q := q) (j := j) (b := b) (x := x) ?_ ?_ <;> first | (intro h0; generalize x = y at h0 ⊢; clear x) | intro h0 | subst x) | (have h0 := Nat.zero_le x; generalize x = y at h0 ⊢; clear h0 x) | subst x)
    | split
    | dsimp only
    | (with_reducible refine keeps_mk ?_ ⟨rfl, rfl, rfl, rfl, rfl⟩ ⟨rfl, rfl⟩)

theorem State.resultPost_keeps {q : List Instr} {j : TapSt} {b : TimeBase} {s : State} (x : ErgResult) (hs : Keeps q j b s) :
    Keeps q j b (State.resultPost s x) := by
  unfold State.resultPost
  repeat' first
    | intro _
    | with_reducible assumption
    | with_reducible rfl
    | (extract_lets +onlyGivenNames -underBinder x; first | (refine keeps_cut (q := q) (j := j) (b := b) (x := x) ?_ ?_ <;> first | (intro h0; generalize x = y at h0 ⊢; clear x) | intro h0 | subst x) | (have h0 := Nat.zero_le x; generalize x = y at h0 ⊢; clear h0 x) | subst x)
    | dsimp only
    | (with_reducible refine keeps_mk ?_ ⟨rfl, rfl, rfl, rfl, rfl⟩ ⟨rfl, rfl⟩)

theorem State.verification_keeps {q : List Instr} {j : TapSt} {b : TimeBase} {s : State} (l : Nat) (powers : List Nat) (hs : Keeps q j b s) :
    Keeps q j b (State.verification s l powers) := by
  unfold State.verification
  repeat' first
    | intro _
    | with_reducible assumption
    | with_reducible apply State.flag_keeps
    | with_reducible apply State.resultPost_keeps
    | with_reducible apply State.runNext_keeps
    | with_reducible apply State.modRun_keeps
    | with_reducible apply State.runEnd_keeps
    | with_reducible apply State.laneFree_keeps
    | with_reducible apply keeps_foldl
    | with_reducible apply keeps_foldl_fst
    | with_reducible apply keeps_ite
    | with_reducible rfl
    | (extract_lets +onlyGivenNames -underBinder x; first | (refine keeps_cut (q := q) (j := j) (b := b) (x := x) ?_ ?_ <;> first | (intro h0; generalize x = y at h0 ⊢; clear x) | intro h0 | subst x) | (have h0 := Nat.zero_le x; generalize x = y at h0 ⊢; clear h0 x) | subst x)
    | split
    | dsimp only
    | (with_reducible refine keeps_mk ?_ ⟨rfl, rfl, rfl, rfl, rfl⟩ ⟨rfl, rfl⟩)

theorem State.handoff_keeps {q : List Instr} {j : TapSt} {b : TimeBase} {s : State}  (hs : Keeps q j b s) :
    Keeps q j b (State.handoff s) := by
  unfold State.handoff
  repeat' first
    | intro _
    | with_reducible assumption
    | with_reducible apply State.set_keeps
    | with_reducible apply State.ergOutcome_keeps
    | with_reducible apply State.modSlot_keeps
    | with_reducible apply State.count_keeps
    | with_reducible apply State.setI_keeps
    | with_reducible apply State.reset_keeps
    | with_reducible apply keeps_ite
    | with_reducible rfl
    | (extract_lets +onlyGivenNames -underBinder x; first | (refine keeps_cut (q := q) (j := j) (b := b) (x := x) ?_ ?_ <;> first | (intro h0; generalize x = y at h0 ⊢; clear x) | intro h0 | subst x) | (have h0 := Nat.zero_le x; generalize x = y at h0 ⊢; clear h0 x) | subst x)
    | split
    | dsimp only
    | (with_reducible refine keeps_mk ?_ ⟨rfl, rfl, rfl, rfl, rfl⟩ ⟨rfl, rfl⟩)

theorem State.noSlot_keeps {q : List Instr} {j : TapSt} {b : TimeBase} {s : State}  (hs : Keeps q j b s) :
    Keeps q j b (State.noSlot s) := by
  unfold State.noSlot
  repeat' first
    | intro _
    | with_reducible assumption
    | with_reducible apply State.flag_keeps
    | with_reducible apply State.ergOutcome_keeps
    | with_reducible apply keeps_ite
    | with_reducible rfl
    | (extract_lets +onlyGivenNames -underBinder x; first | (refine keeps_cut (q := q) (j := j) (b := b) (x := x) ?_ ?_ <;> first | (intro h0; generalize x = y at h0 ⊢; clear x) | intro h0 | subst x) | (have h0 := Nat.zero_le x; generalize x = y at h0 ⊢; clear h0 x) | subst x)
    | split
    | dsimp only
    | (with_reducible refine keeps_mk ?_ ⟨rfl, rfl, rfl, rfl, rfl⟩ ⟨rfl, rfl⟩)

theorem State.autoFill_keeps {q : List Instr} {j : TapSt} {b : TimeBase} {s : State} (e : Nat) (c : Nat × Nat × Nat × Nat) (hs : Keeps q j b s) :
    Keeps q j b (State.autoFill s e c) := by
  unfold State.autoFill
  repeat' first
    | intro _
    | with_reducible assumption
    | with_reducible apply State.set_keeps
    | with_reducible apply keeps_foldl
    | with_reducible apply keeps_foldl_fst
    | with_reducible apply keeps_ite
    | with_reducible rfl
    | (extract_lets +onlyGivenNames -underBinder x; first | (refine keeps_cut (q := q) (j := j) (b := b) (x := x) ?_ ?_ <;> first | (intro h0; generalize x = y at h0 ⊢; clear x) | intro h0 | subst x) | (have h0 := Nat.zero_le x; generalize x = y at h0 ⊢; clear h0 x) | subst x)
    | split
    | dsimp only
    | (with_reducible refine keeps_mk ?_ ⟨rfl, rfl, rfl, rfl, rfl⟩ ⟨rfl, rfl⟩)

theorem State.autoRefill_keeps {q : List Instr} {j : TapSt} {b : TimeBase} {s : State} (predicted : List (Nat × Nat × Int)) (hs : Keeps q j b s) :
    Keeps q j b (State.autoRefill s predicted) := by
  unfold State.autoRefill
  repeat' first
    | intro _
    | with_reducible assumption
    | with_reducible apply State.set_keeps
    | with_reducible apply State.autoFill_keeps
    | with_reducible apply keeps_foldl
    | with_reducible apply keeps_foldl_fst
    | with_reducible apply keeps_ite
    | with_reducible rfl
    | (extract_lets +onlyGivenNames -underBinder x; first | (refine keeps_cut (q := q) (j := j) (b := b) (x := x) ?_ ?_ <;> first | (intro h0; generalize x = y at h0 ⊢; clear x) | intro h0 | subst x) | (have h0 := Nat.zero_le x; generalize x = y at h0 ⊢; clear h0 x) | subst x)
    | split
    | dsimp only
    | (with_reducible refine keeps_mk ?_ ⟨rfl, rfl, rfl, rfl, rfl⟩ ⟨rfl, rfl⟩)

theorem State.entryWritten_keeps {q : List Instr} {j : TapSt} {b : TimeBase} {s : State} (e : Nat) (v : Nat) (hs : Keeps q j b s) :
    Keeps q j b (State.entryWritten s e v) := by
  unfold State.entryWritten
  repeat' first
    | intro _
    | with_reducible assumption
    | with_reducible apply State.set_keeps
    | with_reducible apply State.runEnd_keeps
    | with_reducible apply keeps_ite
    | with_reducible rfl
    | (extract_lets +onlyGivenNames -underBinder x; first | (refine keeps_cut (q := q) (j := j) (b := b) (x := x) ?_ ?_ <;> first | (intro h0; generalize x = y at h0 ⊢; clear x) | intro h0 | subst x) | (have h0 := Nat.zero_le x; generalize x = y at h0 ⊢; clear h0 x) | subst x)
    | split
    | dsimp only
    | (with_reducible refine keeps_mk ?_ ⟨rfl, rfl, rfl, rfl, rfl⟩ ⟨rfl, rfl⟩)

theorem State.ergTick_keeps {q : List Instr} {j : TapSt} {b : TimeBase} {s : State}  (hs : Keeps q j b s) :
    Keeps q j b (State.ergTick s) := by
  unfold State.ergTick
  repeat' first
    | intro _
    | with_reducible assumption
    | with_reducible apply State.set_keeps
    | with_reducible apply State.resultsDrop_keeps
    | with_reducible apply State.runsAbort_keeps
    | with_reducible apply State.runEnd_keeps
    | with_reducible apply State.modErg_keeps
    | with_reducible apply State.slotsFreeWhere_keeps
    | with_reducible apply keeps_foldl
    | with_reducible apply keeps_foldl_fst
    | with_reducible apply keeps_ite
    | with_reducible rfl
    | (extract_lets +onlyGivenNames -underBinder x; first | (refine keeps_cut (q := q) (j := j) (b := b) (x := x) ?_ ?_ <;> first | (intro h0; generalize x = y at h0 ⊢; clear x) | intro h0 | subst x) | (have h0 := Nat.zero_le x; generalize x = y at h0 ⊢; clear h0 x) | subst x)
    | split
    | dsimp only
    | (with_reducible refine keeps_mk ?_ ⟨rfl, rfl, rfl, rfl, rfl⟩ ⟨rfl, rfl⟩)

theorem State.ergStep_keeps {q : List Instr} {j : TapSt} {b : TimeBase} {s : State}  (hs : Keeps q j b s) :
    Keeps q j b (State.ergStep s) := by
  unfold State.ergStep
  repeat' first
    | intro _
    | with_reducible assumption
    | with_reducible apply State.resultsDrop_keeps
    | with_reducible apply State.runsAbort_keeps
    | with_reducible rfl
    | dsimp only
    | (with_reducible refine keeps_mk ?_ ⟨rfl, rfl, rfl, rfl, rfl⟩ ⟨rfl, rfl⟩)

theorem State.ergSleep_keeps {q : List Instr} {j : TapSt} {b : TimeBase} {s : State}  (hs : Keeps q j b s) :
    Keeps q j b (State.ergSleep s) := by
  unfold State.ergSleep
  repeat' first
    | intro _
    | with_reducible assumption
    | with_reducible apply State.runsAbort_keeps
    | with_reducible rfl
    | dsimp only
    | (with_reducible refine keeps_mk ?_ ⟨rfl, rfl, rfl, rfl, rfl⟩ ⟨rfl, rfl⟩)

theorem State.ergReset_keeps {q : List Instr} {j : TapSt} {b : TimeBase} {s : State}  (hs : Keeps q j b s) :
    Keeps q j b (State.ergReset s) := by
  unfold State.ergReset
  repeat' first
    | intro _
    | with_reducible assumption
    | with_reducible apply State.setStream_keeps
    | with_reducible rfl
    | dsimp only
    | (with_reducible refine keeps_mk ?_ ⟨rfl, rfl, rfl, rfl, rfl⟩ ⟨rfl, rfl⟩)

/-! ### Solution -/

theorem State.modSol_keeps {q : List Instr} {j : TapSt} {b : TimeBase} {s : State} (f : SolSt → SolSt) (hs : Keeps q j b s) :
    Keeps q j b (State.modSol s f) := by
  unfold State.modSol
  repeat' first
    | intro _
    | with_reducible assumption
    | with_reducible rfl
    | dsimp only
    | (with_reducible refine keeps_mk ?_ ⟨rfl, rfl, rfl, rfl, rfl⟩ ⟨rfl, rfl⟩)

theorem State.epochObserve_keeps {q : List Instr} {j : TapSt} {b : TimeBase} {s : State} (te : Nat) (hs : Keeps q j b s) :
    Keeps q j b (State.epochObserve s te) := by
  unfold State.epochObserve
  repeat' first
    | intro _
    | with_reducible assumption
    | with_reducible apply State.modSlot_keeps
    | with_reducible apply State.takeFree_keeps
    | with_reducible apply keeps_foldl
    | with_reducible apply keeps_foldl_fst
    | with_reducible apply keeps_ite
    | with_reducible rfl
    | (extract_lets +onlyGivenNames -underBinder x; first | (refine keeps_cut (q := q) (j := j) (b := b) (x := x) ?_ ?_ <;> first | (intro h0; generalize x = y at h0 ⊢; clear x) | intro h0 | subst x) | (have h0 := Nat.zero_le x; generalize x = y at h0 ⊢; clear h0 x) | subst x)
    | split
    | dsimp only
    | (with_reducible refine keeps_mk ?_ ⟨rfl, rfl, rfl, rfl, rfl⟩ ⟨rfl, rfl⟩)

theorem State.measure_keeps {q : List Instr} {j : TapSt} {b : TimeBase} {s : State}  (hs : Keeps q j b s) :
    Keeps q j b (State.measure s) := by
  unfold State.measure
  repeat' first
    | intro _
    | with_reducible assumption
    | with_reducible apply State.count_keeps
    | with_reducible apply keeps_ite
    | with_reducible rfl
    | (extract_lets +onlyGivenNames -underBinder x; first | (refine keeps_cut (q := q) (j := j) (b := b) (x := x) ?_ ?_ <;> first | (intro h0; generalize x = y at h0 ⊢; clear x) | intro h0 | subst x) | (have h0 := Nat.zero_le x; generalize x = y at h0 ⊢; clear h0 x) | subst x)
    | split
    | dsimp only
    | (with_reducible refine keeps_mk ?_ ⟨rfl, rfl, rfl, rfl, rfl⟩ ⟨rfl, rfl⟩)

theorem State.epochAppend_keeps {q : List Instr} {j : TapSt} {b : TimeBase} {s : State} (e : EpochSt) (hs : Keeps q j b s) :
    Keeps q j b (State.epochAppend s e) := by
  unfold State.epochAppend
  repeat' first
    | intro _
    | with_reducible assumption
    | with_reducible apply State.append_keeps
    | with_reducible apply State.streamDrop_keeps
    | with_reducible apply keeps_foldl
    | with_reducible apply keeps_foldl_fst
    | with_reducible apply keeps_ite
    | with_reducible rfl
    | (extract_lets +onlyGivenNames -underBinder x; first | (refine keeps_cut (q := q) (j := j) (b := b) (x := x) ?_ ?_ <;> first | (intro h0; generalize x = y at h0 ⊢; clear x) | intro h0 | subst x) | (have h0 := Nat.zero_le x; generalize x = y at h0 ⊢; clear h0 x) | subst x)
    | split
    | dsimp only
    | (with_reducible refine keeps_mk ?_ ⟨rfl, rfl, rfl, rfl, rfl⟩ ⟨rfl, rfl⟩)

theorem State.epochStream_keeps {q : List Instr} {j : TapSt} {b : TimeBase} {s : State}  (hs : Keeps q j b s) :
    Keeps q j b (State.epochStream s) := by
  unfold State.epochStream
  repeat' first
    | intro _
    | with_reducible assumption
    | with_reducible apply State.solution_keeps
    | with_reducible apply State.epochAppend_keeps
    | with_reducible rfl
    | split
    | dsimp only
    | (with_reducible refine keeps_mk ?_ ⟨rfl, rfl, rfl, rfl, rfl⟩ ⟨rfl, rfl⟩)

theorem State.epochSkip_keeps {q : List Instr} {j : TapSt} {b : TimeBase} {s : State}  (hs : Keeps q j b s) :
    Keeps q j b (State.epochSkip s) := by
  unfold State.epochSkip
  repeat' first
    | intro _
    | with_reducible assumption
    | with_reducible apply State.flag_keeps
    | with_reducible apply State.modSlot_keeps
    | with_reducible apply keeps_foldl
    | with_reducible apply keeps_foldl_fst
    | with_reducible apply keeps_ite
    | with_reducible rfl
    | (extract_lets +onlyGivenNames -underBinder x; first | (refine keeps_cut (q := q) (j := j) (b := b) (x := x) ?_ ?_ <;> first | (intro h0; generalize x = y at h0 ⊢; clear x) | intro h0 | subst x) | (have h0 := Nat.zero_le x; generalize x = y at h0 ⊢; clear h0 x) | subst x)
    | split
    | dsimp only
    | (with_reducible refine keeps_mk ?_ ⟨rfl, rfl, rfl, rfl, rfl⟩ ⟨rfl, rfl⟩)

theorem State.epochTick_keeps {q : List Instr} {j : TapSt} {b : TimeBase} {s : State}  (hs : Keeps q j b s) :
    Keeps q j b (State.epochTick s) := by
  unfold State.epochTick
  repeat' first
    | intro _
    | with_reducible assumption
    | with_reducible apply State.epochObserve_keeps
    | with_reducible apply keeps_ite
    | with_reducible rfl
    | (extract_lets +onlyGivenNames -underBinder x; first | (refine keeps_cut (q := q) (j := j) (b := b) (x := x) ?_ ?_ <;> first | (intro h0; generalize x = y at h0 ⊢; clear x) | intro h0 | subst x) | (have h0 := Nat.zero_le x; generalize x = y at h0 ⊢; clear h0 x) | subst x)
    | split
    | dsimp only
    | (with_reducible refine keeps_mk ?_ ⟨rfl, rfl, rfl, rfl, rfl⟩ ⟨rfl, rfl⟩)

theorem State.qualifyBegin_keeps {q : List Instr} {j : TapSt} {b : TimeBase} {s : State}  (hs : Keeps q j b s) :
    Keeps q j b (State.qualifyBegin s) := by
  unfold State.qualifyBegin
  repeat' first
    | intro _
    | with_reducible assumption
    | with_reducible rfl
    | dsimp only
    | (with_reducible refine keeps_mk ?_ ⟨rfl, rfl, rfl, rfl, rfl⟩ ⟨rfl, rfl⟩)

theorem State.qualifyStep_keeps {q : List Instr} {j : TapSt} {b0 : TimeBase} {s : State} (b : Int) (rates : Int) (sigma : Nat) (hs : Keeps q j b0 s) :
    Keeps q j b0 (State.qualifyStep s b rates sigma).1 := by
  unfold State.qualifyStep
  repeat' first
    | intro _
    | with_reducible assumption
    | with_reducible apply keeps_ite
    | with_reducible apply keeps_ite_fst
    | with_reducible rfl
    | (extract_lets +onlyGivenNames -underBinder x; first | (refine keeps_cut (q := q) (j := j) (b := b0) (x := x) ?_ ?_ <;> first | (intro h0; generalize x = y at h0 ⊢; clear x) | intro h0 | subst x) | (have h0 := Nat.zero_le x; generalize x = y at h0 ⊢; clear h0 x) | subst x)
    | split
    | dsimp only
    | (with_reducible refine keeps_mk ?_ ⟨rfl, rfl, rfl, rfl, rfl⟩ ⟨rfl, rfl⟩)

theorem State.trustFail_keeps {q : List Instr} {j : TapSt} {b : TimeBase} {s : State} (k : Nat) (d : Option Int) (hs : Keeps q j b s) :
    Keeps q j b (State.trustFail s k d) := by
  unfold State.trustFail
  repeat' first
    | intro _
    | with_reducible assumption
    | with_reducible apply State.set_keeps
    | with_reducible apply State.flag_keeps
    | with_reducible apply State.log_keeps
    | with_reducible apply State.setI_keeps
    | with_reducible rfl
    | (extract_lets +onlyGivenNames -underBinder x; first | (refine keeps_cut (q := q) (j := j) (b := b) (x := x) ?_ ?_ <;> first | (intro h0; generalize x = y at h0 ⊢; clear x) | intro h0 | subst x) | (have h0 := Nat.zero_le x; generalize x = y at h0 ⊢; clear h0 x) | subst x)
    | split
    | dsimp only
    | (with_reducible refine keeps_mk ?_ ⟨rfl, rfl, rfl, rfl, rfl⟩ ⟨rfl, rfl⟩)

theorem State.trustCheck_keeps {q : List Instr} {j : TapSt} {b : TimeBase} {s : State} (i : Nat) (k : Nat) (dwell : Nat) (cond : Bool) (d : Option Int) (hs : Keeps q j b s) :
    Keeps q j b (State.trustCheck s i k dwell cond d) := by
  unfold State.trustCheck
  repeat' first
    | intro _
    | with_reducible assumption
    | with_reducible apply State.trustFail_keeps
    | with_reducible apply State.setI_keeps
    | with_reducible apply keeps_ite
    | with_reducible rfl
    | (extract_lets +onlyGivenNames -underBinder x; first | (refine keeps_cut (q := q) (j := j) (b := b) (x := x) ?_ ?_ <;> first | (intro h0; generalize x = y at h0 ⊢; clear x) | intro h0 | subst x) | (have h0 := Nat.zero_le x; generalize x = y at h0 ⊢; clear h0 x) | subst x)
    | split
    | dsimp only
    | (with_reducible refine keeps_mk ?_ ⟨rfl, rfl, rfl, rfl, rfl⟩ ⟨rfl, rfl⟩)

theorem State.trustJudge_keeps {q : List Instr} {j : TapSt} {b : TimeBase} {s : State} (e : EpochSt) (x : Int) (sigma : Nat) (far : List (Nat × Bool)) (hs : Keeps q j b s) :
    Keeps q j b (State.trustJudge s e x sigma far) := by
  unfold State.trustJudge
  repeat' first
    | intro _
    | with_reducible assumption
    | with_reducible apply State.set_keeps
    | with_reducible apply State.trustCheck_keeps
    | with_reducible apply State.qualifyBegin_keeps
    | with_reducible apply keeps_foldl
    | with_reducible apply keeps_foldl_fst
    | with_reducible apply keeps_ite
    | with_reducible rfl
    | (extract_lets +onlyGivenNames -underBinder x; first | (refine keeps_cut (q := q) (j := j) (b := b) (x := x) ?_ ?_ <;> first | (intro h0; generalize x = y at h0 ⊢; clear x) | intro h0 | subst x) | (have h0 := Nat.zero_le x; generalize x = y at h0 ⊢; clear h0 x) | subst x)
    | split
    | dsimp only
    | (with_reducible refine keeps_mk ?_ ⟨rfl, rfl, rfl, rfl, rfl⟩ ⟨rfl, rfl⟩)

theorem State.surveyAdd_keeps {q : List Instr} {j : TapSt} {b : TimeBase} {s : State} (a : Nat) (x : Int) (y : Int) (z : Int) (var : Rat) (hs : Keeps q j b s) :
    Keeps q j b (State.surveyAdd s a x y z var) := by
  unfold State.surveyAdd
  repeat' first
    | intro _
    | with_reducible assumption
    | with_reducible apply State.set_keeps
    | with_reducible apply State.log_keeps
    | with_reducible apply State.raise_keeps
    | with_reducible apply State.count_keeps
    | with_reducible apply State.setI_keeps
    | with_reducible apply keeps_ite
    | with_reducible rfl
    | (extract_lets +onlyGivenNames -underBinder x; first | (refine keeps_cut (q := q) (j := j) (b := b) (x := x) ?_ ?_ <;> first | (intro h0; generalize x = y at h0 ⊢; clear x) | intro h0 | subst x) | (have h0 := Nat.zero_le x; generalize x = y at h0 ⊢; clear h0 x) | subst x)
    | split
    | dsimp only
    | (with_reducible refine keeps_mk ?_ ⟨rfl, rfl, rfl, rfl, rfl⟩ ⟨rfl, rfl⟩)

theorem State.surveyRestart_keeps {q : List Instr} {j : TapSt} {b : TimeBase} {s : State} (a : Nat) (hs : Keeps q j b s) :
    Keeps q j b (State.surveyRestart s a) := by
  unfold State.surveyRestart
  repeat' first
    | intro _
    | with_reducible assumption
    | with_reducible apply State.flag_keeps
    | with_reducible apply State.surveyBegin_keeps
    | with_reducible apply keeps_ite
    | with_reducible rfl
    | split
    | dsimp only
    | (with_reducible refine keeps_mk ?_ ⟨rfl, rfl, rfl, rfl, rfl⟩ ⟨rfl, rfl⟩)

theorem State.surveysTick_keeps {q : List Instr} {j : TapSt} {b : TimeBase} {s : State}  (hs : Keeps q j b s) :
    Keeps q j b (State.surveysTick s) := by
  unfold State.surveysTick
  repeat' first
    | intro _
    | with_reducible assumption
    | with_reducible apply State.surveyBegin_keeps
    | with_reducible apply keeps_foldl
    | with_reducible apply keeps_foldl_fst
    | with_reducible apply keeps_ite
    | with_reducible rfl
    | split
    | dsimp only
    | (with_reducible refine keeps_mk ?_ ⟨rfl, rfl, rfl, rfl, rfl⟩ ⟨rfl, rfl⟩)

theorem State.surveys_keeps {q : List Instr} {j : TapSt} {b : TimeBase} {s : State} (e : EpochSt) (hs : Keeps q j b s) :
    Keeps q j b (State.surveys s e) := by
  unfold State.surveys
  repeat' first
    | intro _
    | with_reducible assumption
    | with_reducible apply State.surveyAdd_keeps
    | with_reducible apply keeps_foldl
    | with_reducible apply keeps_foldl_fst
    | with_reducible apply keeps_ite
    | with_reducible rfl
    | (extract_lets +onlyGivenNames -underBinder x; first | (refine keeps_cut (q := q) (j := j) (b := b) (x := x) ?_ ?_ <;> first | (intro h0; generalize x = y at h0 ⊢; clear x) | intro h0 | subst x) | (have h0 := Nat.zero_le x; generalize x = y at h0 ⊢; clear h0 x) | subst x)
    | split
    | dsimp only
    | (with_reducible refine keeps_mk ?_ ⟨rfl, rfl, rfl, rfl, rfl⟩ ⟨rfl, rfl⟩)

theorem State.offsetsShow_keeps {q : List Instr} {j : TapSt} {b : TimeBase} {s : State} (e : EpochSt) (r : Solved) (hs : Keeps q j b s) :
    Keeps q j b (State.offsetsShow s e r) := by
  unfold State.offsetsShow
  repeat' first
    | intro _
    | with_reducible assumption
    | with_reducible apply State.set_keeps
    | with_reducible apply State.setI_keeps
    | with_reducible apply keeps_foldl
    | with_reducible apply keeps_foldl_fst
    | with_reducible apply keeps_ite
    | with_reducible rfl
    | (extract_lets +onlyGivenNames -underBinder x; first | (refine keeps_cut (q := q) (j := j) (b := b) (x := x) ?_ ?_ <;> first | (intro h0; generalize x = y at h0 ⊢; clear x) | intro h0 | subst x) | (have h0 := Nat.zero_le x; generalize x = y at h0 ⊢; clear h0 x) | subst x)
    | split
    | dsimp only
    | (with_reducible refine keeps_mk ?_ ⟨rfl, rfl, rfl, rfl, rfl⟩ ⟨rfl, rfl⟩)

theorem State.tdopShow_keeps {q : List Instr} {j : TapSt} {b : TimeBase} {s : State} (r : Solved) (hs : Keeps q j b s) :
    Keeps q j b (State.tdopShow s r) := by
  unfold State.tdopShow
  repeat' first
    | intro _
    | with_reducible assumption
    | with_reducible apply State.set_keeps
    | with_reducible apply State.takeFree_keeps
    | with_reducible rfl
    | split
    | dsimp only
    | (with_reducible refine keeps_mk ?_ ⟨rfl, rfl, rfl, rfl, rfl⟩ ⟨rfl, rfl⟩)

theorem State.solutionValid_keeps {q : List Instr} {j : TapSt} {b : TimeBase} {s : State} (e : EpochSt) (r : Solved) (f : Fit) (unv : Bool) (hs : Keeps q j b s) :
    Keeps q j b (State.solutionValid s e r f unv) := by
  unfold State.solutionValid
  repeat' first
    | intro _
    | with_reducible assumption
    | with_reducible apply State.set_keeps
    | with_reducible apply State.tdopShow_keeps
    | with_reducible apply State.surveys_keeps
    | with_reducible apply State.trustJudge_keeps
    | with_reducible apply State.qualifyStep_keeps
    | with_reducible apply State.modSol_keeps
    | with_reducible apply State.firstEstimate_keeps
    | with_reducible apply State.sourceUpdate_keeps
    | with_reducible apply State.setB_keeps
    | with_reducible apply State.setI_keeps
    | with_reducible apply keeps_foldl
    | with_reducible apply keeps_foldl_fst
    | with_reducible apply keeps_ite
    | with_reducible rfl
    | (extract_lets +onlyGivenNames -underBinder x; first | (refine keeps_cut (q := q) (j := j) (b := b) (x := x) ?_ ?_ <;> first | (intro h0; generalize x = y at h0 ⊢; clear x) | intro h0 | subst x) | (have h0 := Nat.zero_le x; generalize x = y at h0 ⊢; clear h0 x) | subst x)
    | (with_reducible refine keeps_fst (by with_reducible assumption) ?_)
    | (with_reducible refine keeps_snd (by with_reducible assumption) ?_)
    | split
    | dsimp only
    | (with_reducible refine keeps_mk ?_ ⟨rfl, rfl, rfl, rfl, rfl⟩ ⟨rfl, rfl⟩)

theorem State.solution_keeps {q : List Instr} {j : TapSt} {b : TimeBase} {s : State}  (hs : Keeps q j b s) :
    Keeps q j b (State.solution s) := by
  unfold State.solution
  repeat' first
    | intro _
    | with_reducible assumption
    | with_reducible apply State.set_keeps
    | with_reducible apply State.flag_keeps
    | with_reducible apply State.solutionValid_keeps
    | with_reducible apply State.offsetsShow_keeps
    | with_reducible apply State.epochAppend_keeps
    | with_reducible apply State.fallback_keeps
    | with_reducible apply State.raise_keeps
    | with_reducible apply State.setB_keeps
    | with_reducible apply keeps_foldl
    | with_reducible apply keeps_foldl_fst
    | with_reducible apply keeps_ite
    | with_reducible rfl
    | (extract_lets +onlyGivenNames -underBinder x; first | (refine keeps_cut (q := q) (j := j) (b := b) (x := x) ?_ ?_ <;> first | (intro h0; generalize x = y at h0 ⊢; clear x) | intro h0 | subst x) | (have h0 := Nat.zero_le x; generalize x = y at h0 ⊢; clear h0 x) | subst x)
    | split
    | dsimp only
    | (with_reducible refine keeps_mk ?_ ⟨rfl, rfl, rfl, rfl, rfl⟩ ⟨rfl, rfl⟩)

theorem State.solutionSkip_keeps {q : List Instr} {j : TapSt} {b : TimeBase} {s : State}  (hs : Keeps q j b s) :
    Keeps q j b (State.solutionSkip s) := by
  unfold State.solutionSkip
  repeat' first
    | intro _
    | with_reducible assumption
    | with_reducible apply State.flag_keeps
    | with_reducible apply State.solution_keeps
    | with_reducible apply State.setB_keeps
    | with_reducible rfl
    | (extract_lets +onlyGivenNames -underBinder x; first | (refine keeps_cut (q := q) (j := j) (b := b) (x := x) ?_ ?_ <;> first | (intro h0; generalize x = y at h0 ⊢; clear x) | intro h0 | subst x) | (have h0 := Nat.zero_le x; generalize x = y at h0 ⊢; clear h0 x) | subst x)
    | split
    | dsimp only
    | (with_reducible refine keeps_mk ?_ ⟨rfl, rfl, rfl, rfl, rfl⟩ ⟨rfl, rfl⟩)

theorem State.solStep_keeps {q : List Instr} {j : TapSt} {b : TimeBase} {s : State}  (hs : Keeps q j b s) :
    Keeps q j b (State.solStep s) := by
  unfold State.solStep
  repeat' first
    | intro _
    | with_reducible assumption
    | with_reducible apply State.solution_keeps
    | with_reducible apply State.qualifyBegin_keeps
    | with_reducible apply State.modSlot_keeps
    | with_reducible apply keeps_foldl
    | with_reducible apply keeps_foldl_fst
    | with_reducible rfl
    | (extract_lets +onlyGivenNames -underBinder x; first | (refine keeps_cut (q := q) (j := j) (b := b) (x := x) ?_ ?_ <;> first | (intro h0; generalize x = y at h0 ⊢; clear x) | intro h0 | subst x) | (have h0 := Nat.zero_le x; generalize x = y at h0 ⊢; clear h0 x) | subst x)
    | dsimp only
    | (with_reducible refine keeps_mk ?_ ⟨rfl, rfl, rfl, rfl, rfl⟩ ⟨rfl, rfl⟩)

theorem State.solReset_keeps {q : List Instr} {j : TapSt} {b : TimeBase} {s : State}  (hs : Keeps q j b s) :
    Keeps q j b (State.solReset s) := by
  unfold State.solReset
  repeat' first
    | intro _
    | with_reducible assumption
    | with_reducible apply State.flag_keeps
    | with_reducible apply State.setStream_keeps
    | with_reducible apply State.reset_keeps
    | with_reducible apply keeps_foldl
    | with_reducible apply keeps_foldl_fst
    | with_reducible apply keeps_ite
    | with_reducible rfl
    | (extract_lets +onlyGivenNames -underBinder x; first | (refine keeps_cut (q := q) (j := j) (b := b) (x := x) ?_ ?_ <;> first | (intro h0; generalize x = y at h0 ⊢; clear x) | intro h0 | subst x) | (have h0 := Nat.zero_le x; generalize x = y at h0 ⊢; clear h0 x) | subst x)
    | split
    | dsimp only
    | (with_reducible refine keeps_mk ?_ ⟨rfl, rfl, rfl, rfl, rfl⟩ ⟨rfl, rfl⟩)

/-! ### LakeMember -/

theorem State.modLake_keeps {q : List Instr} {j : TapSt} {b : TimeBase} {s : State} (f : LakeSt → LakeSt) (hs : Keeps q j b s) :
    Keeps q j b (State.modLake s f) := by
  unfold State.modLake
  repeat' first
    | intro _
    | with_reducible assumption
    | with_reducible rfl
    | dsimp only
    | (with_reducible refine keeps_mk ?_ ⟨rfl, rfl, rfl, rfl, rfl⟩ ⟨rfl, rfl⟩)

theorem State.lakeTake_keeps {q : List Instr} {j : TapSt} {b : TimeBase} {s : State} (op : Nat) (hs : Keeps q j b s) :
    Keeps q j b (State.lakeTake s op).2 := by
  unfold State.lakeTake
  repeat' first
    | intro _
    | with_reducible assumption
    | with_reducible apply State.netTake_keeps
    | with_reducible apply keeps_ite_snd
    | with_reducible rfl
    | (with_reducible refine keeps_fst (by with_reducible assumption) ?_)
    | (with_reducible refine keeps_snd (by with_reducible assumption) ?_)
    | dsimp only
    | (with_reducible refine keeps_mk ?_ ⟨rfl, rfl, rfl, rfl, rfl⟩ ⟨rfl, rfl⟩)

theorem State.sightingsSend_keeps {q : List Instr} {j : TapSt} {b : TimeBase} {s : State}  (hs : Keeps q j b s) :
    Keeps q j b (State.sightingsSend s) := by
  unfold State.sightingsSend
  repeat' first
    | intro _
    | with_reducible assumption
    | with_reducible apply State.netSend_keeps
    | with_reducible apply keeps_foldl
    | with_reducible apply keeps_foldl_fst
    | with_reducible apply keeps_ite
    | with_reducible rfl
    | (extract_lets +onlyGivenNames -underBinder x; first | (refine keeps_cut (q := q) (j := j) (b := b) (x := x) ?_ ?_ <;> first | (intro h0; generalize x = y at h0 ⊢; clear x) | intro h0 | subst x) | (have h0 := Nat.zero_le x; generalize x = y at h0 ⊢; clear h0 x) | subst x)
    | split
    | dsimp only
    | (with_reducible refine keeps_mk ?_ ⟨rfl, rfl, rfl, rfl, rfl⟩ ⟨rfl, rfl⟩)

theorem State.offersSend_keeps {q : List Instr} {j : TapSt} {b : TimeBase} {s : State}  (hs : Keeps q j b s) :
    Keeps q j b (State.offersSend s) := by
  unfold State.offersSend
  repeat' first
    | intro _
    | with_reducible assumption
    | with_reducible apply State.netSend_keeps
    | with_reducible apply keeps_foldl
    | with_reducible apply keeps_foldl_fst
    | with_reducible apply keeps_ite
    | with_reducible rfl
    | (extract_lets +onlyGivenNames -underBinder x; first | (refine keeps_cut (q := q) (j := j) (b := b) (x := x) ?_ ?_ <;> first | (intro h0; generalize x = y at h0 ⊢; clear x) | intro h0 | subst x) | (have h0 := Nat.zero_le x; generalize x = y at h0 ⊢; clear h0 x) | subst x)
    | split
    | dsimp only
    | (with_reducible refine keeps_mk ?_ ⟨rfl, rfl, rfl, rfl, rfl⟩ ⟨rfl, rfl⟩)

theorem State.blocksSend_keeps {q : List Instr} {j : TapSt} {b : TimeBase} {s : State}  (hs : Keeps q j b s) :
    Keeps q j b (State.blocksSend s) := by
  unfold State.blocksSend
  repeat' first
    | intro _
    | with_reducible assumption
    | with_reducible apply State.netSend_keeps
    | with_reducible apply State.count_keeps
    | with_reducible apply keeps_foldl
    | with_reducible apply keeps_foldl_fst
    | with_reducible apply keeps_ite
    | with_reducible rfl
    | (extract_lets +onlyGivenNames -underBinder x; first | (refine keeps_cut (q := q) (j := j) (b := b) (x := x) ?_ ?_ <;> first | (intro h0; generalize x = y at h0 ⊢; clear x) | intro h0 | subst x) | (have h0 := Nat.zero_le x; generalize x = y at h0 ⊢; clear h0 x) | subst x)
    | split
    | dsimp only
    | (with_reducible refine keeps_mk ?_ ⟨rfl, rfl, rfl, rfl, rfl⟩ ⟨rfl, rfl⟩)

theorem State.sightingsKeep_keeps {q : List Instr} {j : TapSt} {b : TimeBase} {s : State} (l : List Sighting) (hs : Keeps q j b s) :
    Keeps q j b (State.sightingsKeep s l) := by
  unfold State.sightingsKeep
  repeat' first
    | intro _
    | with_reducible assumption
    | with_reducible apply State.set_keeps
    | with_reducible rfl
    | (extract_lets +onlyGivenNames -underBinder x; first | (refine keeps_cut (q := q) (j := j) (b := b) (x := x) ?_ ?_ <;> first | (intro h0; generalize x = y at h0 ⊢; clear x) | intro h0 | subst x) | (have h0 := Nat.zero_le x; generalize x = y at h0 ⊢; clear h0 x) | subst x)
    | dsimp only
    | (with_reducible refine keeps_mk ?_ ⟨rfl, rfl, rfl, rfl, rfl⟩ ⟨rfl, rfl⟩)

theorem State.sightingsIn_keeps {q : List Instr} {j : TapSt} {b : TimeBase} {s : State}  (hs : Keeps q j b s) :
    Keeps q j b (State.sightingsIn s) := by
  unfold State.sightingsIn
  repeat' first
    | intro _
    | with_reducible assumption
    | with_reducible apply State.sightingsKeep_keeps
    | with_reducible apply State.lakeTake_keeps
    | with_reducible apply State.netBad_keeps
    | with_reducible apply keeps_ite
    | with_reducible rfl
    | (extract_lets +onlyGivenNames -underBinder x; first | (refine keeps_cut (q := q) (j := j) (b := b) (x := x) ?_ ?_ <;> first | (intro h0; generalize x = y at h0 ⊢; clear x) | intro h0 | subst x) | (have h0 := Nat.zero_le x; generalize x = y at h0 ⊢; clear h0 x) | subst x)
    | (with_reducible refine keeps_fst (by with_reducible assumption) ?_)
    | (with_reducible refine keeps_snd (by with_reducible assumption) ?_)
    | split
    | dsimp only
    | (with_reducible refine keeps_mk ?_ ⟨rfl, rfl, rfl, rfl, rfl⟩ ⟨rfl, rfl⟩)

theorem State.sightingsExpire_keeps {q : List Instr} {j : TapSt} {b : TimeBase} {s : State}  (hs : Keeps q j b s) :
    Keeps q j b (State.sightingsExpire s) := by
  unfold State.sightingsExpire
  repeat' first
    | intro _
    | with_reducible assumption
    | with_reducible apply State.sightingsKeep_keeps
    | with_reducible rfl
    | dsimp only
    | (with_reducible refine keeps_mk ?_ ⟨rfl, rfl, rfl, rfl, rfl⟩ ⟨rfl, rfl⟩)

theorem State.ephemerisIn_keeps {q : List Instr} {j : TapSt} {b : TimeBase} {s : State}  (hs : Keeps q j b s) :
    Keeps q j b (State.ephemerisIn s) := by
  unfold State.ephemerisIn
  repeat' first
    | intro _
    | with_reducible assumption
    | with_reducible apply State.offersSend_keeps
    | with_reducible apply State.lakeTake_keeps
    | with_reducible apply State.netBad_keeps
    | with_reducible apply State.storePeer_keeps
    | with_reducible apply keeps_ite
    | with_reducible rfl
    | (extract_lets +onlyGivenNames -underBinder x; first | (refine keeps_cut (q := q) (j := j) (b := b) (x := x) ?_ ?_ <;> first | (intro h0; generalize x = y at h0 ⊢; clear x) | intro h0 | subst x) | (have h0 := Nat.zero_le x; generalize x = y at h0 ⊢; clear h0 x) | subst x)
    | (with_reducible refine keeps_fst (by with_reducible assumption) ?_)
    | (with_reducible refine keeps_snd (by with_reducible assumption) ?_)
    | split
    | dsimp only
    | (with_reducible refine keeps_mk ?_ ⟨rfl, rfl, rfl, rfl, rfl⟩ ⟨rfl, rfl⟩)

theorem State.symbolsTake_keeps {q : List Instr} {j : TapSt} {b : TimeBase} {s : State}  (hs : Keeps q j b s) :
    Keeps q j b (State.symbolsTake s) := by
  unfold State.symbolsTake
  repeat' first
    | intro _
    | with_reducible assumption
    | with_reducible apply State.lakeTake_keeps
    | with_reducible apply State.symbolsIn_keeps
    | with_reducible rfl
    | (with_reducible refine keeps_fst (by with_reducible assumption) ?_)
    | (with_reducible refine keeps_snd (by with_reducible assumption) ?_)
    | split
    | dsimp only
    | (with_reducible refine keeps_mk ?_ ⟨rfl, rfl, rfl, rfl, rfl⟩ ⟨rfl, rfl⟩)

theorem State.subscribeIn_keeps {q : List Instr} {j : TapSt} {b : TimeBase} {s : State}  (hs : Keeps q j b s) :
    Keeps q j b (State.subscribeIn s) := by
  unfold State.subscribeIn
  repeat' first
    | intro _
    | with_reducible assumption
    | with_reducible apply State.set_keeps
    | with_reducible apply State.flag_keeps
    | with_reducible apply State.lakeTake_keeps
    | with_reducible apply State.netBad_keeps
    | with_reducible apply keeps_foldl
    | with_reducible apply keeps_foldl_fst
    | with_reducible apply keeps_ite
    | with_reducible rfl
    | (extract_lets +onlyGivenNames -underBinder x; first | (refine keeps_cut (q := q) (j := j) (b := b) (x := x) ?_ ?_ <;> first | (intro h0; generalize x = y at h0 ⊢; clear x) | intro h0 | subst x) | (have h0 := Nat.zero_le x; generalize x = y at h0 ⊢; clear h0 x) | subst x)
    | (with_reducible refine keeps_fst (by with_reducible assumption) ?_)
    | (with_reducible refine keeps_snd (by with_reducible assumption) ?_)
    | split
    | dsimp only
    | (with_reducible refine keeps_mk ?_ ⟨rfl, rfl, rfl, rfl, rfl⟩ ⟨rfl, rfl⟩)

theorem State.subscriptionsExpire_keeps {q : List Instr} {j : TapSt} {b : TimeBase} {s : State}  (hs : Keeps q j b s) :
    Keeps q j b (State.subscriptionsExpire s) := by
  unfold State.subscriptionsExpire
  repeat' first
    | intro _
    | with_reducible assumption
    | with_reducible apply State.set_keeps
    | with_reducible rfl
    | (extract_lets +onlyGivenNames -underBinder x; first | (refine keeps_cut (q := q) (j := j) (b := b) (x := x) ?_ ?_ <;> first | (intro h0; generalize x = y at h0 ⊢; clear x) | intro h0 | subst x) | (have h0 := Nat.zero_le x; generalize x = y at h0 ⊢; clear h0 x) | subst x)
    | dsimp only
    | (with_reducible refine keeps_mk ?_ ⟨rfl, rfl, rfl, rfl, rfl⟩ ⟨rfl, rfl⟩)

theorem State.subscribeRenew_keeps {q : List Instr} {j : TapSt} {b : TimeBase} {s : State}  (hs : Keeps q j b s) :
    Keeps q j b (State.subscribeRenew s) := by
  unfold State.subscribeRenew
  repeat' first
    | intro _
    | with_reducible assumption
    | with_reducible apply State.set_keeps
    | with_reducible apply State.netSend_keeps
    | with_reducible apply keeps_foldl
    | with_reducible apply keeps_foldl_fst
    | with_reducible apply keeps_ite
    | with_reducible rfl
    | (extract_lets +onlyGivenNames -underBinder x; first | (refine keeps_cut (q := q) (j := j) (b := b) (x := x) ?_ ?_ <;> first | (intro h0; generalize x = y at h0 ⊢; clear x) | intro h0 | subst x) | (have h0 := Nat.zero_le x; generalize x = y at h0 ⊢; clear h0 x) | subst x)
    | split
    | dsimp only
    | (with_reducible refine keeps_mk ?_ ⟨rfl, rfl, rfl, rfl, rfl⟩ ⟨rfl, rfl⟩)

theorem State.modCv_keeps {q : List Instr} {j : TapSt} {b : TimeBase} {s : State} (p : Nat) (x : CvSt) (hs : Keeps q j b s) :
    Keeps q j b (State.modCv s p x) := by
  unfold State.modCv
  repeat' first
    | intro _
    | with_reducible assumption
    | with_reducible apply keeps_ite
    | with_reducible rfl
    | split
    | dsimp only
    | (with_reducible refine keeps_mk ?_ ⟨rfl, rfl, rfl, rfl, rfl⟩ ⟨rfl, rfl⟩)

theorem State.cvSend_keeps {q : List Instr} {j : TapSt} {b : TimeBase} {s : State} (te : Nat) (obs : List CvObs) (hs : Keeps q j b s) :
    Keeps q j b (State.cvSend s te obs) := by
  unfold State.cvSend
  repeat' first
    | intro _
    | with_reducible assumption
    | with_reducible apply State.netSend_keeps
    | with_reducible apply keeps_foldl
    | with_reducible apply keeps_foldl_fst
    | with_reducible apply keeps_ite
    | with_reducible rfl
    | (extract_lets +onlyGivenNames -underBinder x; first | (refine keeps_cut (q := q) (j := j) (b := b) (x := x) ?_ ?_ <;> first | (intro h0; generalize x = y at h0 ⊢; clear x) | intro h0 | subst x) | (have h0 := Nat.zero_le x; generalize x = y at h0 ⊢; clear h0 x) | subst x)
    | split
    | dsimp only
    | (with_reducible refine keeps_mk ?_ ⟨rfl, rfl, rfl, rfl, rfl⟩ ⟨rfl, rfl⟩)

theorem State.measureEpoch_keeps {q : List Instr} {j : TapSt} {b : TimeBase} {s : State}  (hs : Keeps q j b s) :
    Keeps q j b (State.measureEpoch s) := by
  unfold State.measureEpoch
  repeat' first
    | intro _
    | with_reducible assumption
    | with_reducible apply State.cvSend_keeps
    | with_reducible apply State.modLake_keeps
    | with_reducible apply State.measure_keeps
    | with_reducible apply keeps_ite
    | with_reducible rfl
    | (extract_lets +onlyGivenNames -underBinder x; first | (refine keeps_cut (q := q) (j := j) (b := b) (x := x) ?_ ?_ <;> first | (intro h0; generalize x = y at h0 ⊢; clear x) | intro h0 | subst x) | (have h0 := Nat.zero_le x; generalize x = y at h0 ⊢; clear h0 x) | subst x)
    | split
    | dsimp only
    | (with_reducible refine keeps_mk ?_ ⟨rfl, rfl, rfl, rfl, rfl⟩ ⟨rfl, rfl⟩)

theorem State.cvAdvance_keeps {q : List Instr} {j : TapSt} {b : TimeBase} {s : State} (p : Nat) (sec : Nat) (own : List CvObs) (peer : List CvObs) (hs : Keeps q j b s) :
    Keeps q j b (State.cvAdvance s p sec own peer) := by
  unfold State.cvAdvance
  repeat' first
    | intro _
    | with_reducible assumption
    | with_reducible apply State.set_keeps
    | with_reducible apply State.flag_keeps
    | with_reducible apply State.modCv_keeps
    | with_reducible apply State.setI_keeps
    | with_reducible apply keeps_ite
    | with_reducible rfl
    | (extract_lets +onlyGivenNames -underBinder x; first | (refine keeps_cut (q := q) (j := j) (b := b) (x := x) ?_ ?_ <;> first | (intro h0; generalize x = y at h0 ⊢; clear x) | intro h0 | subst x) | (have h0 := Nat.zero_le x; generalize x = y at h0 ⊢; clear h0 x) | subst x)
    | split
    | dsimp only
    | (with_reducible refine keeps_mk ?_ ⟨rfl, rfl, rfl, rfl, rfl⟩ ⟨rfl, rfl⟩)

theorem State.cvIn_keeps {q : List Instr} {j : TapSt} {b : TimeBase} {s : State}  (hs : Keeps q j b s) :
    Keeps q j b (State.cvIn s) := by
  unfold State.cvIn
  repeat' first
    | intro _
    | with_reducible assumption
    | with_reducible apply State.cvAdvance_keeps
    | with_reducible apply State.lakeTake_keeps
    | with_reducible apply State.netBad_keeps
    | with_reducible apply keeps_ite
    | with_reducible rfl
    | (extract_lets +onlyGivenNames -underBinder x; first | (refine keeps_cut (q := q) (j := j) (b := b) (x := x) ?_ ?_ <;> first | (intro h0; generalize x = y at h0 ⊢; clear x) | intro h0 | subst x) | (have h0 := Nat.zero_le x; generalize x = y at h0 ⊢; clear h0 x) | subst x)
    | (with_reducible refine keeps_fst (by with_reducible assumption) ?_)
    | (with_reducible refine keeps_snd (by with_reducible assumption) ?_)
    | split
    | dsimp only
    | (with_reducible refine keeps_mk ?_ ⟨rfl, rfl, rfl, rfl, rfl⟩ ⟨rfl, rfl⟩)

theorem State.neighboursIn_keeps {q : List Instr} {j : TapSt} {b : TimeBase} {s : State}  (hs : Keeps q j b s) :
    Keeps q j b (State.neighboursIn s) := by
  unfold State.neighboursIn
  repeat' first
    | intro _
    | with_reducible assumption
    | with_reducible apply State.set_keeps
    | with_reducible apply State.flag_keeps
    | with_reducible apply State.modCv_keeps
    | with_reducible apply State.lakeTake_keeps
    | with_reducible apply State.netBad_keeps
    | with_reducible apply State.netSend_keeps
    | with_reducible apply State.reset_keeps
    | with_reducible apply keeps_foldl
    | with_reducible apply keeps_foldl_fst
    | with_reducible apply keeps_ite
    | with_reducible rfl
    | (extract_lets +onlyGivenNames -underBinder x; first | (refine keeps_cut (q := q) (j := j) (b := b) (x := x) ?_ ?_ <;> first | (intro h0; generalize x = y at h0 ⊢; clear x) | intro h0 | subst x) | (have h0 := Nat.zero_le x; generalize x = y at h0 ⊢; clear h0 x) | subst x)
    | (with_reducible refine keeps_fst (by with_reducible assumption) ?_)
    | (with_reducible refine keeps_snd (by with_reducible assumption) ?_)
    | split
    | dsimp only
    | (with_reducible refine keeps_mk ?_ ⟨rfl, rfl, rfl, rfl, rfl⟩ ⟨rfl, rfl⟩)

theorem State.lakeEpoch_keeps {q : List Instr} {j : TapSt} {b : TimeBase} {s : State}  (hs : Keeps q j b s) :
    Keeps q j b (State.lakeEpoch s) := by
  unfold State.lakeEpoch
  repeat' first
    | intro _
    | with_reducible assumption
    | with_reducible apply State.set_keeps
    | with_reducible apply State.flag_keeps
    | with_reducible apply State.tick_keeps
    | with_reducible apply State.sightingsSend_keeps
    | with_reducible apply State.modLake_keeps
    | with_reducible apply State.modSol_keeps
    | with_reducible apply State.netSend_keeps
    | with_reducible apply State.modPort_keeps
    | with_reducible apply keeps_foldl
    | with_reducible apply keeps_foldl_fst
    | with_reducible apply keeps_ite
    | with_reducible rfl
    | (extract_lets +onlyGivenNames -underBinder x; first | (refine keeps_cut (q := q) (j := j) (b := b) (x := x) ?_ ?_ <;> first | (intro h0; generalize x = y at h0 ⊢; clear x) | intro h0 | subst x) | (have h0 := Nat.zero_le x; generalize x = y at h0 ⊢; clear h0 x) | subst x)
    | split
    | dsimp only
    | (with_reducible refine keeps_mk ?_ ⟨rfl, rfl, rfl, rfl, rfl⟩ ⟨rfl, rfl⟩)

theorem State.lakeLost_keeps {q : List Instr} {j : TapSt} {b : TimeBase} {s : State}  (hs : Keeps q j b s) :
    Keeps q j b (State.lakeLost s) := by
  unfold State.lakeLost
  repeat' first
    | intro _
    | with_reducible assumption
    | with_reducible apply State.flag_keeps
    | with_reducible apply State.setB_keeps
    | with_reducible apply keeps_ite
    | with_reducible rfl
    | split
    | dsimp only
    | (with_reducible refine keeps_mk ?_ ⟨rfl, rfl, rfl, rfl, rfl⟩ ⟨rfl, rfl⟩)

theorem State.estimateUse_keeps {q : List Instr} {j : TapSt} {b : TimeBase} {s : State} (x : Int) (rate : Int) (edge : Nat) (hs : Keeps q j b s) :
    Keeps q j b (State.estimateUse s x rate edge) := by
  unfold State.estimateUse
  repeat' first
    | intro _
    | with_reducible assumption
    | with_reducible apply State.set_keeps
    | with_reducible apply State.firstEstimate_keeps
    | with_reducible apply State.sourceUpdate_keeps
    | with_reducible apply keeps_ite
    | with_reducible rfl
    | (extract_lets +onlyGivenNames -underBinder x; first | (refine keeps_cut (q := q) (j := j) (b := b) (x := x) ?_ ?_ <;> first | (intro h0; generalize x = y at h0 ⊢; clear x) | intro h0 | subst x) | (have h0 := Nat.zero_le x; generalize x = y at h0 ⊢; clear h0 x) | subst x)
    | split
    | dsimp only
    | (with_reducible refine keeps_mk ?_ ⟨rfl, rfl, rfl, rfl, rfl⟩ ⟨rfl, rfl⟩)

theorem State.estimateIn_keeps {q : List Instr} {j : TapSt} {b : TimeBase} {s : State}  (hs : Keeps q j b s) :
    Keeps q j b (State.estimateIn s) := by
  unfold State.estimateIn
  repeat' first
    | intro _
    | with_reducible assumption
    | with_reducible apply State.set_keeps
    | with_reducible apply State.flag_keeps
    | with_reducible apply State.estimateUse_keeps
    | with_reducible apply State.lakeLost_keeps
    | with_reducible apply State.lakeTake_keeps
    | with_reducible apply State.netBad_keeps
    | with_reducible apply State.setB_keeps
    | with_reducible apply State.setI_keeps
    | with_reducible apply keeps_ite
    | with_reducible rfl
    | (extract_lets +onlyGivenNames -underBinder x; first | (refine keeps_cut (q := q) (j := j) (b := b) (x := x) ?_ ?_ <;> first | (intro h0; generalize x = y at h0 ⊢; clear x) | intro h0 | subst x) | (have h0 := Nat.zero_le x; generalize x = y at h0 ⊢; clear h0 x) | subst x)
    | (with_reducible refine keeps_fst (by with_reducible assumption) ?_)
    | (with_reducible refine keeps_snd (by with_reducible assumption) ?_)
    | split
    | dsimp only
    | (with_reducible refine keeps_mk ?_ ⟨rfl, rfl, rfl, rfl, rfl⟩ ⟨rfl, rfl⟩)

theorem State.estimateLoss_keeps {q : List Instr} {j : TapSt} {b : TimeBase} {s : State}  (hs : Keeps q j b s) :
    Keeps q j b (State.estimateLoss s) := by
  unfold State.estimateLoss
  repeat' first
    | intro _
    | with_reducible assumption
    | with_reducible apply State.lakeLost_keeps
    | with_reducible apply keeps_ite
    | with_reducible rfl
    | (extract_lets +onlyGivenNames -underBinder x; first | (refine keeps_cut (q := q) (j := j) (b := b) (x := x) ?_ ?_ <;> first | (intro h0; generalize x = y at h0 ⊢; clear x) | intro h0 | subst x) | (have h0 := Nat.zero_le x; generalize x = y at h0 ⊢; clear h0 x) | subst x)
    | split
    | dsimp only
    | (with_reducible refine keeps_mk ?_ ⟨rfl, rfl, rfl, rfl, rfl⟩ ⟨rfl, rfl⟩)

theorem State.lakeTick_keeps {q : List Instr} {j : TapSt} {b : TimeBase} {s : State}  (hs : Keeps q j b s) :
    Keeps q j b (State.lakeTick s) := by
  unfold State.lakeTick
  repeat' first
    | intro _
    | with_reducible assumption
    | with_reducible apply State.lakeLost_keeps
    | with_reducible apply State.steer_keeps
    | with_reducible apply keeps_ite
    | with_reducible rfl
    | (extract_lets +onlyGivenNames -underBinder x; first | (refine keeps_cut (q := q) (j := j) (b := b) (x := x) ?_ ?_ <;> first | (intro h0; generalize x = y at h0 ⊢; clear x) | intro h0 | subst x) | (have h0 := Nat.zero_le x; generalize x = y at h0 ⊢; clear h0 x) | subst x)
    | split
    | dsimp only
    | (with_reducible refine keeps_mk ?_ ⟨rfl, rfl, rfl, rfl, rfl⟩ ⟨rfl, rfl⟩)

theorem State.lakeStep_keeps {q : List Instr} {j : TapSt} {b : TimeBase} {s : State}  (hs : Keeps q j b s) :
    Keeps q j b (State.lakeStep s) := by
  unfold State.lakeStep
  repeat' first
    | intro _
    | with_reducible assumption
    | with_reducible rfl
    | dsimp only
    | (with_reducible refine keeps_mk ?_ ⟨rfl, rfl, rfl, rfl, rfl⟩ ⟨rfl, rfl⟩)

theorem State.lakeReset_keeps {q : List Instr} {j : TapSt} {b : TimeBase} {s : State}  (hs : Keeps q j b s) :
    Keeps q j b (State.lakeReset s) := by
  unfold State.lakeReset
  repeat' first
    | intro _
    | with_reducible assumption
    | with_reducible apply State.reset_keeps
    | with_reducible rfl
    | dsimp only
    | (with_reducible refine keeps_mk ?_ ⟨rfl, rfl, rfl, rfl, rfl⟩ ⟨rfl, rfl⟩)

end Sys2Proof.Machine
end

