-- ==== Sys2Proof/Laws/KeepsRequests.lean ====
section
/-!
SUPPORT. What the operations keep: transactions, writes, protection, rings and requests.
-/

set_option linter.all false
set_option Elab.async false

namespace Sys2Proof.Machine

/-! ### Txn -/

theorem State.txnSend_keeps {q : List Instr} {j : TapSt} {b : TimeBase} {s : State} (t : TxnEnt) (hs : Keeps q j b s) :
    Keeps q j b (State.txnSend s t) := by
  unfold State.txnSend
  repeat' first
    | intro _
    | with_reducible assumption
    | with_reducible apply State.peerSend_keeps
    | with_reducible apply State.netSend_keeps
    | with_reducible apply keeps_ite
    | with_reducible rfl
    | (extract_lets +onlyGivenNames -underBinder x; first | (refine keeps_cut (q := q) (j := j) (b := b) (x := x) ?_ ?_ <;> first | (intro h0; generalize x = y at h0 ⊢; clear x) | intro h0 | subst x) | (have h0 := Nat.zero_le x; generalize x = y at h0 ⊢; clear h0 x) | subst x)
    | split
    | dsimp only
    | (with_reducible refine keeps_mk ?_ ⟨rfl, rfl, rfl, rfl, rfl⟩ ⟨rfl, rfl⟩)

theorem State.txnSubmit_keeps {q : List Instr} {j : TapSt} {b : TimeBase} {s : State} {dest : Nat} {payload : List Nat}
    {ring : Option (Nat × Nat)} {x : Nat × State} (h : s.txnSubmit dest payload ring = .ok x) (hs : Keeps q j b s) :
    Keeps q j b x.2 := by
  unfold State.txnSubmit at h
  by_cases h1 : 0xFFE < dest
  · rw [if_pos h1] at h
    exact absurd h (by simp)
  rw [if_neg h1] at h
  by_cases h2 : 256 ≤ s.net.txns.length
  · rw [if_pos h2] at h
    exact absurd h (by simp)
  rw [if_neg h2] at h
  split at h
  · exact absurd h (by simp)
  all_goals
    have h2 := Except.ok.inj h
    subst h2
    refine State.txnSend_keeps _ (State.set_keeps _ _ ?_)
    exact keeps_mk (State.idTake_keeps hs) ⟨rfl, rfl, rfl, rfl, rfl⟩ ⟨rfl, rfl⟩

theorem State.txnEnd_keeps {q : List Instr} {j : TapSt} {b : TimeBase} {s : State} (t : TxnEnt) (status : Nat) (payload : List Nat) (hs : Keeps q j b s) :
    Keeps q j b (State.txnEnd s t status payload) := by
  unfold State.txnEnd
  repeat' first
    | intro _
    | with_reducible assumption
    | with_reducible apply State.set_keeps
    | with_reducible apply State.append_keeps
    | with_reducible apply keeps_ite
    | with_reducible rfl
    | (extract_lets +onlyGivenNames -underBinder x; first | (refine keeps_cut (q := q) (j := j) (b := b) (x := x) ?_ ?_ <;> first | (intro h0; generalize x = y at h0 ⊢; clear x) | intro h0 | subst x) | (have h0 := Nat.zero_le x; generalize x = y at h0 ⊢; clear h0 x) | subst x)
    | split
    | dsimp only
    | (with_reducible refine keeps_mk ?_ ⟨rfl, rfl, rfl, rfl, rfl⟩ ⟨rfl, rfl⟩)

theorem State.txnReply_keeps {q : List Instr} {j : TapSt} {b : TimeBase} {s : State}  (hs : Keeps q j b s) :
    Keeps q j b (State.txnReply s) := by
  unfold State.txnReply
  repeat' first
    | intro _
    | with_reducible assumption
    | with_reducible apply State.txnEnd_keeps
    | with_reducible apply State.staleDiscard_keeps
    | with_reducible apply State.netBad_keeps
    | with_reducible apply State.netTake_keeps
    | with_reducible apply keeps_ite
    | with_reducible rfl
    | (with_reducible refine keeps_fst (by with_reducible assumption) ?_)
    | (with_reducible refine keeps_snd (by with_reducible assumption) ?_)
    | split
    | dsimp only
    | (with_reducible refine keeps_mk ?_ ⟨rfl, rfl, rfl, rfl, rfl⟩ ⟨rfl, rfl⟩)

theorem State.txnAgain_keeps {q : List Instr} {j : TapSt} {b : TimeBase} {s : State}  (hs : Keeps q j b s) :
    Keeps q j b (State.txnAgain s) := by
  unfold State.txnAgain
  repeat' first
    | intro _
    | with_reducible assumption
    | with_reducible apply State.flag_keeps
    | with_reducible apply State.txnEnd_keeps
    | with_reducible apply State.txnSend_keeps
    | with_reducible apply keeps_ite
    | with_reducible rfl
    | (extract_lets +onlyGivenNames -underBinder x; first | (refine keeps_cut (q := q) (j := j) (b := b) (x := x) ?_ ?_ <;> first | (intro h0; generalize x = y at h0 ⊢; clear x) | intro h0 | subst x) | (have h0 := Nat.zero_le x; generalize x = y at h0 ⊢; clear h0 x) | subst x)
    | split
    | dsimp only
    | (with_reducible refine keeps_mk ?_ ⟨rfl, rfl, rfl, rfl, rfl⟩ ⟨rfl, rfl⟩)

theorem State.remoteSubmit_keeps {q : List Instr} {j : TapSt} {b0 : TimeBase} {s : State} (b : List Nat) (hs : Keeps q j b0 s) :
    Keeps q j b0 (State.remoteSubmit s b) := by
  unfold State.remoteSubmit
  repeat' first
    | intro _
    | with_reducible assumption
    | with_reducible apply State.answer_keeps
    | (with_reducible refine State.txnSubmit_keeps (by with_reducible assumption) ?_)
    | exact State.txnSubmit_keeps (by with_reducible assumption) (by with_reducible assumption)
    | with_reducible rfl
    | split
    | dsimp only
    | (with_reducible refine keeps_mk ?_ ⟨rfl, rfl, rfl, rfl, rfl⟩ ⟨rfl, rfl⟩)

theorem State.keepReply_keeps {q : List Instr} {j : TapSt} {b : TimeBase} {s : State} (source : Nat) (epoch : Nat) (number : Nat) (reply : List Nat) (hs : Keeps q j b s) :
    Keeps q j b (State.keepReply s source epoch number reply) := by
  unfold State.keepReply
  repeat' first
    | intro _
    | with_reducible assumption
    | with_reducible rfl
    | (extract_lets +onlyGivenNames -underBinder x; first | (refine keeps_cut (q := q) (j := j) (b := b) (x := x) ?_ ?_ <;> first | (intro h0; generalize x = y at h0 ⊢; clear x) | intro h0 | subst x) | (have h0 := Nat.zero_le x; generalize x = y at h0 ⊢; clear h0 x) | subst x)
    | dsimp only
    | (with_reducible refine keeps_mk ?_ ⟨rfl, rfl, rfl, rfl, rfl⟩ ⟨rfl, rfl⟩)

theorem State.epochSee_keeps {q : List Instr} {j : TapSt} {b : TimeBase} {s : State} (source : Nat) (epoch : Nat) (hs : Keeps q j b s) :
    Keeps q j b (State.epochSee s source epoch) := by
  unfold State.epochSee
  repeat' first
    | intro _
    | with_reducible assumption
    | with_reducible rfl
    | dsimp only
    | (with_reducible refine keeps_mk ?_ ⟨rfl, rfl, rfl, rfl, rfl⟩ ⟨rfl, rfl⟩)

/-! ### Writes -/

theorem State.powerArm_keeps {q : List Instr} {j : TapSt} {b : TimeBase} {s : State} (ctx : Ctx) (v : Nat) (hs : Keeps q j b s) :
    Keeps q j b (State.powerArm s ctx v) := by
  unfold State.powerArm
  repeat' first
    | intro _
    | with_reducible assumption
    | with_reducible apply keeps_ite
    | with_reducible rfl
    | split
    | dsimp only
    | (with_reducible refine keeps_mk ?_ ⟨rfl, rfl, rfl, rfl, rfl⟩ ⟨rfl, rfl⟩)

theorem State.imageCommand_keeps {q : List Instr} {j : TapSt} {b : TimeBase} {s : State} (ctx : Ctx) (v : Nat) (hs : Keeps q j b s) :
    Keeps q j b (State.imageCommand s ctx v) := by
  unfold State.imageCommand
  repeat' first
    | intro _
    | with_reducible assumption
    | with_reducible apply State.set_keeps
    | with_reducible apply State.answer_keeps
    | with_reducible apply keeps_ite
    | with_reducible rfl
    | (extract_lets +onlyGivenNames -underBinder x; first | (refine keeps_cut (q := q) (j := j) (b := b) (x := x) ?_ ?_ <;> first | (intro h0; generalize x = y at h0 ⊢; clear x) | intro h0 | subst x) | (have h0 := Nat.zero_le x; generalize x = y at h0 ⊢; clear h0 x) | subst x)
    | split
    | dsimp only
    | (with_reducible refine keeps_mk ?_ ⟨rfl, rfl, rfl, rfl, rfl⟩ ⟨rfl, rfl⟩)

theorem State.imageWrite_keeps {q : List Instr} {j : TapSt} {b0 : TimeBase} {s : State} (b : List Nat) (hs : Keeps q j b0 s) :
    Keeps q j b0 (State.imageWrite s b) := by
  unfold State.imageWrite
  repeat' first
    | intro _
    | with_reducible assumption
    | with_reducible apply State.set_keeps
    | with_reducible apply State.answer_keeps
    | with_reducible apply keeps_foldl
    | with_reducible apply keeps_foldl_fst
    | with_reducible rfl
    | (extract_lets +onlyGivenNames -underBinder x; first | (refine keeps_cut (q := q) (j := j) (b := b0) (x := x) ?_ ?_ <;> first | (intro h0; generalize x = y at h0 ⊢; clear x) | intro h0 | subst x) | (have h0 := Nat.zero_le x; generalize x = y at h0 ⊢; clear h0 x) | subst x)
    | dsimp only
    | (with_reducible refine keeps_mk ?_ ⟨rfl, rfl, rfl, rfl, rfl⟩ ⟨rfl, rfl⟩)

theorem State.dupWindow_keeps {q : List Instr} {j : TapSt} {b : TimeBase} {s : State} (old : Nat) (hs : Keeps q j b s) :
    Keeps q j b (State.dupWindow s old) := by
  unfold State.dupWindow
  repeat' first
    | intro _
    | with_reducible assumption
    | with_reducible apply keeps_ite
    | with_reducible rfl
    | (extract_lets +onlyGivenNames -underBinder x; first | (refine keeps_cut (q := q) (j := j) (b := b) (x := x) ?_ ?_ <;> first | (intro h0; generalize x = y at h0 ⊢; clear x) | intro h0 | subst x) | (have h0 := Nat.zero_le x; generalize x = y at h0 ⊢; clear h0 x) | subst x)
    | split
    | dsimp only
    | (with_reducible refine keeps_mk ?_ ⟨rfl, rfl, rfl, rfl, rfl⟩ ⟨rfl, rfl⟩)

theorem State.written_keeps {q : List Instr} {j : TapSt} {b : TimeBase} {s : State} (ctx : Ctx) (index : Nat) (sub : Nat) (old : Nat) (hs : Keeps q j b s) :
    Keeps q j b (State.written s ctx index sub old) := by
  unfold State.written
  repeat' first
    | intro _
    | with_reducible assumption
    | with_reducible apply State.dupWindow_keeps
    | with_reducible apply State.powerArm_keeps
    | with_reducible apply State.entryWritten_keeps
    | with_reducible apply State.ptpWritten_keeps
    | with_reducible apply State.portDisable_keeps
    | with_reducible apply State.asymBegin_keeps
    | with_reducible apply State.readerJudge_keeps
    | with_reducible apply State.outputWritten_keeps
    | with_reducible apply State.polarityCopy_keeps
    | with_reducible apply State.positionWritten_keeps
    | with_reducible apply State.chainWritten_keeps
    | with_reducible apply State.outChanged_keeps
    | with_reducible apply keeps_ite
    | with_reducible rfl
    | (extract_lets +onlyGivenNames -underBinder x; first | (refine keeps_cut (q := q) (j := j) (b := b) (x := x) ?_ ?_ <;> first | (intro h0; generalize x = y at h0 ⊢; clear x) | intro h0 | subst x) | (have h0 := Nat.zero_le x; generalize x = y at h0 ⊢; clear h0 x) | subst x)
    | split
    | dsimp only
    | (with_reducible refine keeps_mk ?_ ⟨rfl, rfl, rfl, rfl, rfl⟩ ⟨rfl, rfl⟩)

theorem State.action_keeps {q : List Instr} {j : TapSt} {b : TimeBase} {s : State} (ctx : Ctx) (index : Nat) (sub : Nat) (v : Nat) (hs : Keeps q j b s) :
    Keeps q j b (State.action s ctx index sub v) := by
  unfold State.action
  repeat' first
    | intro _
    | with_reducible assumption
    | with_reducible apply State.imageWrite_keeps
    | with_reducible apply State.imageCommand_keeps
    | with_reducible apply State.remoteSubmit_keeps
    | with_reducible apply State.subTake_keeps
    | with_reducible apply State.channelCommand_keeps
    | with_reducible apply State.launchAccept_keeps
    | with_reducible apply State.retrain_keeps
    | with_reducible apply State.scanStart_keeps
    | with_reducible apply State.readerCommand_keeps
    | with_reducible apply State.synthTrigger_keeps
    | with_reducible apply State.hostLeap_keeps
    | with_reducible apply State.releaseSlot_keeps
    | with_reducible apply State.calRequest_keeps
    | with_reducible apply State.groupStart_keeps
    | with_reducible apply State.timerCommand_keeps
    | with_reducible apply State.handOver_keeps
    | with_reducible apply State.answer_keeps
    | with_reducible apply keeps_ite
    | with_reducible rfl
    | (extract_lets +onlyGivenNames -underBinder x; first | (refine keeps_cut (q := q) (j := j) (b := b) (x := x) ?_ ?_ <;> first | (intro h0; generalize x = y at h0 ⊢; clear x) | intro h0 | subst x) | (have h0 := Nat.zero_le x; generalize x = y at h0 ⊢; clear h0 x) | subst x)
    | (with_reducible refine keeps_fst (by with_reducible assumption) ?_)
    | (with_reducible refine keeps_snd (by with_reducible assumption) ?_)
    | split
    | dsimp only
    | (with_reducible refine keeps_mk ?_ ⟨rfl, rfl, rfl, rfl, rfl⟩ ⟨rfl, rfl⟩)

theorem State.settle_keeps {q : List Instr} {j : TapSt} {b : TimeBase} {s : State}  (hs : Keeps q j b s) :
    Keeps q j b (State.settle s) := by
  unfold State.settle
  repeat' first
    | intro _
    | with_reducible assumption
    | with_reducible apply State.readerSettle_keeps
    | with_reducible apply State.timersSettle_keeps
    | with_reducible rfl
    | dsimp only
    | (with_reducible refine keeps_mk ?_ ⟨rfl, rfl, rfl, rfl, rfl⟩ ⟨rfl, rfl⟩)

theorem State.putValue_keeps {q : List Instr} {j : TapSt} {b : TimeBase} {s : State} (ctx : Ctx) (index : Nat) (r : Row) (v : Nat) (hs : Keeps q j b s) :
    Keeps q j b (State.putValue s ctx index r v) := by
  unfold State.putValue
  repeat' first
    | intro _
    | with_reducible assumption
    | with_reducible apply State.set_keeps
    | with_reducible apply State.action_keeps
    | with_reducible apply State.written_keeps
    | with_reducible apply keeps_ite
    | with_reducible rfl
    | (extract_lets +onlyGivenNames -underBinder x; first | (refine keeps_cut (q := q) (j := j) (b := b) (x := x) ?_ ?_ <;> first | (intro h0; generalize x = y at h0 ⊢; clear x) | intro h0 | subst x) | (have h0 := Nat.zero_le x; generalize x = y at h0 ⊢; clear h0 x) | subst x)
    | split
    | dsimp only
    | (with_reducible refine keeps_mk ?_ ⟨rfl, rfl, rfl, rfl, rfl⟩ ⟨rfl, rfl⟩)

/-! ### Protect -/

theorem State.modProt_keeps {q : List Instr} {j : TapSt} {b : TimeBase} {s : State} (f : ProtSt → ProtSt) (hs : Keeps q j b s) :
    Keeps q j b (State.modProt s f) := by
  unfold State.modProt
  repeat' first
    | intro _
    | with_reducible assumption
    | with_reducible rfl
    | dsimp only
    | (with_reducible refine keeps_mk ?_ ⟨rfl, rfl, rfl, rfl, rfl⟩ ⟨rfl, rfl⟩)

theorem State.changeClose_keeps {q : List Instr} {j : TapSt} {b : TimeBase} {s : State} (c : Pending) (outcome : Nat) (hs : Keeps q j b s) :
    Keeps q j b (State.changeClose s c outcome) := by
  unfold State.changeClose
  repeat' first
    | intro _
    | with_reducible assumption
    | with_reducible apply State.modProt_keeps
    | with_reducible rfl
    | dsimp only
    | (with_reducible refine keeps_mk ?_ ⟨rfl, rfl, rfl, rfl, rfl⟩ ⟨rfl, rfl⟩)

theorem State.changeReport_keeps {q : List Instr} {j : TapSt} {b : TimeBase} {s : State} (c : Pending) (result : Nat) (hs : Keeps q j b s) :
    Keeps q j b (State.changeReport s c result) := by
  unfold State.changeReport
  repeat' first
    | intro _
    | with_reducible assumption
    | with_reducible apply State.set_keeps
    | with_reducible rfl
    | dsimp only
    | (with_reducible refine keeps_mk ?_ ⟨rfl, rfl, rfl, rfl, rfl⟩ ⟨rfl, rfl⟩)

theorem State.changeExpire_keeps {q : List Instr} {j : TapSt} {b : TimeBase} {s : State} (c : Pending) (hs : Keeps q j b s) :
    Keeps q j b (State.changeExpire s c) := by
  unfold State.changeExpire
  repeat' first
    | intro _
    | with_reducible assumption
    | with_reducible apply State.flag_keeps
    | with_reducible apply State.log_keeps
    | with_reducible apply State.changeReport_keeps
    | with_reducible apply State.changeClose_keeps
    | with_reducible rfl
    | (extract_lets +onlyGivenNames -underBinder x; first | (refine keeps_cut (q := q) (j := j) (b := b) (x := x) ?_ ?_ <;> first | (intro h0; generalize x = y at h0 ⊢; clear x) | intro h0 | subst x) | (have h0 := Nat.zero_le x; generalize x = y at h0 ⊢; clear h0 x) | subst x)
    | dsimp only
    | (with_reducible refine keeps_mk ?_ ⟨rfl, rfl, rfl, rfl, rfl⟩ ⟨rfl, rfl⟩)

theorem State.changesExpire_keeps {q : List Instr} {j : TapSt} {b : TimeBase} {s : State}  (hs : Keeps q j b s) :
    Keeps q j b (State.changesExpire s) := by
  unfold State.changesExpire
  repeat' first
    | intro _
    | with_reducible assumption
    | with_reducible apply State.changeExpire_keeps
    | with_reducible apply keeps_foldl
    | with_reducible apply keeps_foldl_fst
    | with_reducible rfl
    | dsimp only
    | (with_reducible refine keeps_mk ?_ ⟨rfl, rfl, rfl, rfl, rfl⟩ ⟨rfl, rfl⟩)

theorem State.changesDiscard_keeps {q : List Instr} {j : TapSt} {b : TimeBase} {s : State}  (hs : Keeps q j b s) :
    Keeps q j b (State.changesDiscard s) := by
  unfold State.changesDiscard
  repeat' first
    | intro _
    | with_reducible assumption
    | with_reducible apply State.changeExpire_keeps
    | with_reducible apply keeps_foldl
    | with_reducible apply keeps_foldl_fst
    | with_reducible rfl
    | dsimp only
    | (with_reducible refine keeps_mk ?_ ⟨rfl, rfl, rfl, rfl, rfl⟩ ⟨rfl, rfl⟩)

theorem State.changeCancel_keeps {q : List Instr} {j : TapSt} {b : TimeBase} {s : State} (c : Pending) (by_ : Principal) (hs : Keeps q j b s) :
    Keeps q j b (State.changeCancel s c by_) := by
  unfold State.changeCancel
  repeat' first
    | intro _
    | with_reducible assumption
    | with_reducible apply State.log_keeps
    | with_reducible apply State.changeClose_keeps
    | with_reducible rfl
    | dsimp only
    | (with_reducible refine keeps_mk ?_ ⟨rfl, rfl, rfl, rfl, rfl⟩ ⟨rfl, rfl⟩)

theorem State.slotCancels_keeps {q : List Instr} {j : TapSt} {b : TimeBase} {s : State} (k : Nat) (hs : Keeps q j b s) :
    Keeps q j b (State.slotCancels s k) := by
  unfold State.slotCancels
  repeat' first
    | intro _
    | with_reducible assumption
    | with_reducible apply State.changeCancel_keeps
    | with_reducible apply keeps_foldl
    | with_reducible apply keeps_foldl_fst
    | with_reducible rfl
    | dsimp only
    | (with_reducible refine keeps_mk ?_ ⟨rfl, rfl, rfl, rfl, rfl⟩ ⟨rfl, rfl⟩)

theorem State.logClear_keeps {q : List Instr} {j : TapSt} {b : TimeBase} {s : State} (c : Pending) (by_ : Principal) (hs : Keeps q j b s) :
    Keeps q j b (State.logClear s c by_) := by
  unfold State.logClear
  dsimp only
  refine State.bump_keeps _ _ (keeps_silt hs ⟨?_, ?_⟩)
  · have := hs.inv.2.1.1
    simp only [List.length_map, List.length_zip, List.length_range]
    omega
  · unfold siltCap
    exact Nat.le_of_ble_eq_true rfl

theorem State.changeApply_keeps {q : List Instr} {j : TapSt} {b : TimeBase} {s : State} (c : Pending) (by_ : Principal) (hs : Keeps q j b s) :
    Keeps q j b (State.changeApply s c by_).1 := by
  unfold State.changeApply
  repeat' first
    | intro _
    | with_reducible assumption
    | with_reducible apply State.set_keeps
    | with_reducible apply State.logClear_keeps
    | with_reducible apply State.slotCancels_keeps
    | with_reducible apply State.modProt_keeps
    | with_reducible apply State.protoNarrowed_keeps
    | with_reducible apply State.keyPut_keeps
    | with_reducible apply keeps_ite
    | with_reducible apply keeps_ite_fst
    | with_reducible rfl
    | (extract_lets +onlyGivenNames -underBinder x; first | (refine keeps_cut (q := q) (j := j) (b := b) (x := x) ?_ ?_ <;> first | (intro h0; generalize x = y at h0 ⊢; clear x) | intro h0 | subst x) | (have h0 := Nat.zero_le x; generalize x = y at h0 ⊢; clear h0 x) | subst x)
    | split
    | dsimp only
    | (with_reducible refine keeps_mk ?_ ⟨rfl, rfl, rfl, rfl, rfl⟩ ⟨rfl, rfl⟩)

theorem State.propose_keeps {q : List Instr} {j : TapSt} {b0 : TimeBase} {s : State} (ctx : Ctx) (b : List Nat) (hs : Keeps q j b0 s) :
    Keeps q j b0 (State.propose s ctx b) := by
  unfold State.propose
  repeat' first
    | intro _
    | with_reducible assumption
    | with_reducible apply State.log_keeps
    | with_reducible apply State.modProt_keeps
    | with_reducible apply State.answer_keeps
    | with_reducible apply keeps_ite
    | with_reducible rfl
    | (extract_lets +onlyGivenNames -underBinder x; first | (refine keeps_cut (q := q) (j := j) (b := b0) (x := x) ?_ ?_ <;> first | (intro h0; generalize x = y at h0 ⊢; clear x) | intro h0 | subst x) | (have h0 := Nat.zero_le x; generalize x = y at h0 ⊢; clear h0 x) | subst x)
    | split
    | dsimp only
    | (with_reducible refine keeps_mk ?_ ⟨rfl, rfl, rfl, rfl, rfl⟩ ⟨rfl, rfl⟩)

theorem State.confirmBy_keeps {q : List Instr} {j : TapSt} {b : TimeBase} {s : State} (c : Pending) (by_ : Principal) (card : Bool) (hs : Keeps q j b s) :
    Keeps q j b (State.confirmBy s c by_ card) := by
  unfold State.confirmBy
  repeat' first
    | intro _
    | with_reducible assumption
    | with_reducible apply State.log_keeps
    | with_reducible apply State.changeApply_keeps
    | with_reducible apply State.changeReport_keeps
    | with_reducible apply State.changeClose_keeps
    | with_reducible apply State.answer_keeps
    | with_reducible apply keeps_ite
    | with_reducible rfl
    | (extract_lets +onlyGivenNames -underBinder x; first | (refine keeps_cut (q := q) (j := j) (b := b) (x := x) ?_ ?_ <;> first | (intro h0; generalize x = y at h0 ⊢; clear x) | intro h0 | subst x) | (have h0 := Nat.zero_le x; generalize x = y at h0 ⊢; clear h0 x) | subst x)
    | (with_reducible refine keeps_fst (by with_reducible assumption) ?_)
    | (with_reducible refine keeps_snd (by with_reducible assumption) ?_)
    | split
    | dsimp only
    | (with_reducible refine keeps_mk ?_ ⟨rfl, rfl, rfl, rfl, rfl⟩ ⟨rfl, rfl⟩)

theorem State.confirm_keeps {q : List Instr} {j : TapSt} {b0 : TimeBase} {s : State} (ctx : Ctx) (b : List Nat) (hs : Keeps q j b0 s) :
    Keeps q j b0 (State.confirm s ctx b) := by
  unfold State.confirm
  repeat' first
    | intro _
    | with_reducible assumption
    | with_reducible apply State.confirmBy_keeps
    | with_reducible apply State.answer_keeps
    | with_reducible apply keeps_ite
    | with_reducible rfl
    | (extract_lets +onlyGivenNames -underBinder x; first | (refine keeps_cut (q := q) (j := j) (b := b0) (x := x) ?_ ?_ <;> first | (intro h0; generalize x = y at h0 ⊢; clear x) | intro h0 | subst x) | (have h0 := Nat.zero_le x; generalize x = y at h0 ⊢; clear h0 x) | subst x)
    | split
    | dsimp only
    | (with_reducible refine keeps_mk ?_ ⟨rfl, rfl, rfl, rfl, rfl⟩ ⟨rfl, rfl⟩)

theorem State.cancel_keeps {q : List Instr} {j : TapSt} {b0 : TimeBase} {s : State} (ctx : Ctx) (b : List Nat) (hs : Keeps q j b0 s) :
    Keeps q j b0 (State.cancel s ctx b) := by
  unfold State.cancel
  repeat' first
    | intro _
    | with_reducible assumption
    | with_reducible apply State.changeCancel_keeps
    | with_reducible apply State.answer_keeps
    | with_reducible apply keeps_ite
    | with_reducible rfl
    | (extract_lets +onlyGivenNames -underBinder x; first | (refine keeps_cut (q := q) (j := j) (b := b0) (x := x) ?_ ?_ <;> first | (intro h0; generalize x = y at h0 ⊢; clear x) | intro h0 | subst x) | (have h0 := Nat.zero_le x; generalize x = y at h0 ⊢; clear h0 x) | subst x)
    | split
    | dsimp only
    | (with_reducible refine keeps_mk ?_ ⟨rfl, rfl, rfl, rfl, rfl⟩ ⟨rfl, rfl⟩)

theorem State.cardPoll_keeps {q : List Instr} {j : TapSt} {b : TimeBase} {s : State} (present : Bool) (select : List Nat) (answer : List Nat) (challenge : List Nat) (e : JobEnd) (us : Nat) (hs : Keeps q j b s) :
    Keeps q j b (State.cardPoll s present select answer challenge e us) := by
  unfold State.cardPoll
  repeat' first
    | intro _
    | with_reducible assumption
    | with_reducible apply State.flag_keeps
    | with_reducible apply State.confirmBy_keeps
    | with_reducible apply State.modProt_keeps
    | with_reducible apply State.jobResult_keeps
    | (with_reducible refine State.jobField_keeps (by with_reducible assumption) ?_)
    | with_reducible apply keeps_ite
    | with_reducible rfl
    | (extract_lets +onlyGivenNames -underBinder x; first | (refine keeps_cut (q := q) (j := j) (b := b) (x := x) ?_ ?_ <;> first | (intro h0; generalize x = y at h0 ⊢; clear x) | intro h0 | subst x) | (have h0 := Nat.zero_le x; generalize x = y at h0 ⊢; clear h0 x) | subst x)
    | split
    | dsimp only
    | (with_reducible refine keeps_mk ?_ ⟨rfl, rfl, rfl, rfl, rfl⟩ ⟨rfl, rfl⟩)

/-! ### Rings -/

theorem CoreSt.modRing_mem (k : CoreSt) (r : Nat) (f : Ring → Ring) : (k.modRing r f).mem = k.mem := by
  unfold CoreSt.modRing
  split <;> rfl

theorem State.plainSet_keeps {q : List Instr} {j : TapSt} {b : TimeBase} {s : State} (c a : Nat) (w : Word) (hs : Keeps q j b s) :
    Keeps q j b (State.plainSet s c a w) := by
  unfold State.plainSet
  split
  · exact State.modCore_mem_keeps _ _ hs fun k h => SMap.wf_set _ _ _ _ rfl _ h
  · exact keeps_cpu hs fun h => ⟨SMap.wf_set _ _ _ _ rfl _ h.1, h.2⟩

theorem State.bufferPut_keeps {q : List Instr} {j : TapSt} {b0 : TimeBase} {s : State} (c : Nat) (a : Nat) (b : List Nat) (hs : Keeps q j b0 s) :
    Keeps q j b0 (State.bufferPut s c a b) := by
  unfold State.bufferPut
  repeat' first
    | intro _
    | with_reducible assumption
    | with_reducible apply State.plainSet_keeps
    | with_reducible apply keeps_foldl
    | with_reducible apply keeps_foldl_fst
    | with_reducible rfl
    | (extract_lets +onlyGivenNames -underBinder x; first | (refine keeps_cut (q := q) (j := j) (b := b0) (x := x) ?_ ?_ <;> first | (intro h0; generalize x = y at h0 ⊢; clear x) | intro h0 | subst x) | (have h0 := Nat.zero_le x; generalize x = y at h0 ⊢; clear h0 x) | subst x)
    | dsimp only
    | (with_reducible refine keeps_mk ?_ ⟨rfl, rfl, rfl, rfl, rfl⟩ ⟨rfl, rfl⟩)

theorem State.ringEnd_keeps {q : List Instr} {j : TapSt} {b : TimeBase} {s : State} (d : RingDone) (hs : Keeps q j b s) :
    Keeps q j b (State.ringEnd s d) := by
  unfold State.ringEnd
  repeat' first
    | intro _
    | with_reducible assumption
    | with_reducible rfl
    | dsimp only
    | (with_reducible refine keeps_mk ?_ ⟨rfl, rfl, rfl, rfl, rfl⟩ ⟨rfl, rfl⟩)

theorem State.ringTakeOne_keeps {q : List Instr} {j : TapSt} {b : TimeBase} {s : State} (c : Nat) (r : Nat) (i : Nat) (hs : Keeps q j b s) :
    Keeps q j b (State.ringTakeOne s c r i) := by
  unfold State.ringTakeOne
  repeat' first
    | intro _
    | with_reducible assumption
    | with_reducible apply State.ringEnd_keeps
    | with_reducible apply State.launchAccept_keeps
    | (with_reducible refine State.txnSubmit_keeps (by with_reducible assumption) ?_)
    | exact State.txnSubmit_keeps (by with_reducible assumption) (by with_reducible assumption)
    | with_reducible apply keeps_ite
    | with_reducible rfl
    | (extract_lets +onlyGivenNames -underBinder x; first | (refine keeps_cut (q := q) (j := j) (b := b) (x := x) ?_ ?_ <;> first | (intro h0; generalize x = y at h0 ⊢; clear x) | intro h0 | subst x) | (have h0 := Nat.zero_le x; generalize x = y at h0 ⊢; clear h0 x) | subst x)
    | (with_reducible refine keeps_fst (by with_reducible assumption) ?_)
    | (with_reducible refine keeps_snd (by with_reducible assumption) ?_)
    | split
    | dsimp only
    | (with_reducible refine keeps_mk ?_ ⟨rfl, rfl, rfl, rfl, rfl⟩ ⟨rfl, rfl⟩)

theorem State.ringTake_keeps {q : List Instr} {j : TapSt} {b : TimeBase} {s : State} (c r k : Nat) (hs : Keeps q j b s) :
    Keeps q j b (State.ringTake s c r k) := by
  induction k generalizing s with
  | zero => exact hs
  | succ k ih =>
    unfold State.ringTake
    dsimp only
    split
    · exact hs
    · exact ih (State.modCore_keeps _ _ (State.ringTakeOne_keeps _ _ _ hs) fun _ => CoreSt.modRing_mem _ _ _)

theorem State.ringHead_keeps {q : List Instr} {j : TapSt} {b : TimeBase} {s : State} (c : Nat) (r : Nat) (w : Word) (hs : Keeps q j b s) :
    Keeps q j b (State.ringHead s c r w) := by
  unfold State.ringHead
  repeat' first
    | intro _
    | with_reducible assumption
    | with_reducible apply State.modCore_keeps
    | with_reducible apply State.ringTake_keeps
    | exact CoreSt.modRing_mem _ _ _
    | with_reducible rfl
    | dsimp only
    | (with_reducible refine keeps_mk ?_ ⟨rfl, rfl, rfl, rfl, rfl⟩ ⟨rfl, rfl⟩)

theorem State.tailMove_keeps {q : List Instr} {j : TapSt} {b : TimeBase} {s : State} (c r : Nat) (user : Bool) (k : Nat)
    (hs : Keeps q j b s) : Keeps q j b (State.tailMove s c r user k) := by
  induction k generalizing s with
  | zero => exact hs
  | succ k ih =>
    unfold State.tailMove
    dsimp only
    split
    · exact hs
    split
    · exact hs
    · exact ih (State.modCore_keeps _ _ hs fun _ => CoreSt.modRing_mem _ _ _)

theorem State.descriptorPut_keeps {q : List Instr} {j : TapSt} {b : TimeBase} {s : State} (d : RingDone) (hs : Keeps q j b s) :
    Keeps q j b (State.descriptorPut s d) := by
  unfold State.descriptorPut
  repeat' first
    | intro _
    | with_reducible assumption
    | with_reducible apply State.tailMove_keeps
    | with_reducible apply State.bufferPut_keeps
    | with_reducible apply State.plainSet_keeps
    | with_reducible apply State.raiseInt_keeps
    | with_reducible apply keeps_ite
    | with_reducible rfl
    | (extract_lets +onlyGivenNames -underBinder x; first | (refine keeps_cut (q := q) (j := j) (b := b) (x := x) ?_ ?_ <;> first | (intro h0; generalize x = y at h0 ⊢; clear x) | intro h0 | subst x) | (have h0 := Nat.zero_le x; generalize x = y at h0 ⊢; clear h0 x) | subst x)
    | split
    | dsimp only
    | (with_reducible refine keeps_mk ?_ ⟨rfl, rfl, rfl, rfl, rfl⟩ ⟨rfl, rfl⟩)

theorem State.descriptorComplete_keeps {q : List Instr} {j : TapSt} {b : TimeBase} {s : State} (c : Nat) (r : Nat) (hs : Keeps q j b s) :
    Keeps q j b (State.descriptorComplete s c r) := by
  unfold State.descriptorComplete
  repeat' first
    | intro _
    | with_reducible assumption
    | with_reducible apply State.descriptorPut_keeps
    | with_reducible rfl
    | split
    | dsimp only
    | (with_reducible refine keeps_mk ?_ ⟨rfl, rfl, rfl, rfl, rfl⟩ ⟨rfl, rfl⟩)

theorem State.ringsRetire_keeps {q : List Instr} {j : TapSt} {b : TimeBase} {s : State} (c : Nat) (hs : Keeps q j b s) :
    Keeps q j b (State.ringsRetire s c) := by
  unfold State.ringsRetire
  repeat' first
    | intro _
    | with_reducible assumption
    | with_reducible apply State.set_keeps
    | with_reducible apply State.descriptorPut_keeps
    | with_reducible apply keeps_foldl
    | with_reducible apply keeps_foldl_fst
    | with_reducible apply keeps_ite
    | with_reducible rfl
    | (extract_lets +onlyGivenNames -underBinder x; first | (refine keeps_cut (q := q) (j := j) (b := b) (x := x) ?_ ?_ <;> first | (intro h0; generalize x = y at h0 ⊢; clear x) | intro h0 | subst x) | (have h0 := Nat.zero_le x; generalize x = y at h0 ⊢; clear h0 x) | subst x)
    | split
    | dsimp only
    | (with_reducible refine keeps_mk ?_ ⟨rfl, rfl, rfl, rfl, rfl⟩ ⟨rfl, rfl⟩)

/-! ### Requests -/

theorem State.refuse_keeps {q : List Instr} {j : TapSt} {b : TimeBase} {s : State} (r : Refused) (hs : Keeps q j b s) :
    Keeps q j b (State.refuse s r) := by
  unfold State.refuse
  repeat' first
    | intro _
    | with_reducible assumption
    | with_reducible apply State.answer_keeps
    | with_reducible rfl
    | dsimp only
    | (with_reducible refine keeps_mk ?_ ⟨rfl, rfl, rfl, rfl, rfl⟩ ⟨rfl, rfl⟩)

theorem State.siltRead_keeps {q : List Instr} {j : TapSt} {b : TimeBase} {s : State} (i : Nat) (hs : Keeps q j b s) :
    Keeps q j b (State.siltRead s i) := by
  unfold State.siltRead
  repeat' first
    | intro _
    | with_reducible assumption
    | with_reducible apply State.set_keeps
    | with_reducible apply State.flag_keeps
    | with_reducible apply keeps_ite
    | with_reducible rfl
    | (extract_lets +onlyGivenNames -underBinder x; first | (refine keeps_cut (q := q) (j := j) (b := b) (x := x) ?_ ?_ <;> first | (intro h0; generalize x = y at h0 ⊢; clear x) | intro h0 | subst x) | (have h0 := Nat.zero_le x; generalize x = y at h0 ⊢; clear h0 x) | subst x)
    | split
    | dsimp only
    | (with_reducible refine keeps_mk ?_ ⟨rfl, rfl, rfl, rfl, rfl⟩ ⟨rfl, rfl⟩)

theorem State.readTakes_keeps {q : List Instr} {j : TapSt} {b : TimeBase} {s : State} (index : Nat) (sub : Nat) (hs : Keeps q j b s) :
    Keeps q j b (State.readTakes s index sub) := by
  unfold State.readTakes
  repeat' first
    | intro _
    | with_reducible assumption
    | with_reducible apply State.siltRead_keeps
    | with_reducible apply State.captureTake_keeps
    | with_reducible apply State.takeFree_keeps
    | with_reducible apply keeps_ite
    | with_reducible rfl
    | (extract_lets +onlyGivenNames -underBinder x; first | (refine keeps_cut (q := q) (j := j) (b := b) (x := x) ?_ ?_ <;> first | (intro h0; generalize x = y at h0 ⊢; clear x) | intro h0 | subst x) | (have h0 := Nat.zero_le x; generalize x = y at h0 ⊢; clear h0 x) | subst x)
    | split
    | dsimp only
    | (with_reducible refine keeps_mk ?_ ⟨rfl, rfl, rfl, rfl, rfl⟩ ⟨rfl, rfl⟩)

theorem State.opRead_keeps {q : List Instr} {j : TapSt} {b : TimeBase} {s : State} (ctx : Ctx) (index : Nat) (sub : Nat) (len : Nat) (hs : Keeps q j b s) :
    Keeps q j b (State.opRead s ctx index sub len) := by
  unfold State.opRead
  repeat' first
    | intro _
    | with_reducible assumption
    | with_reducible apply State.readTakes_keeps
    | with_reducible apply State.refuse_keeps
    | with_reducible apply State.answer_keeps
    | with_reducible rfl
    | split
    | dsimp only
    | (with_reducible refine keeps_mk ?_ ⟨rfl, rfl, rfl, rfl, rfl⟩ ⟨rfl, rfl⟩)

theorem State.opStream_keeps {q : List Instr} {j : TapSt} {b : TimeBase} {s : State} (ctx : Ctx) (index : Nat) (sub : Nat) (len : Nat) (hs : Keeps q j b s) :
    Keeps q j b (State.opStream s ctx index sub len) := by
  unfold State.opStream
  repeat' first
    | intro _
    | with_reducible assumption
    | with_reducible apply State.deliveryTaken_keeps
    | with_reducible apply State.answer_keeps
    | with_reducible apply State.setStream_keeps
    | with_reducible apply keeps_ite
    | with_reducible rfl
    | (extract_lets +onlyGivenNames -underBinder x; first | (refine keeps_cut (q := q) (j := j) (b := b) (x := x) ?_ ?_ <;> first | (intro h0; generalize x = y at h0 ⊢; clear x) | intro h0 | subst x) | (have h0 := Nat.zero_le x; generalize x = y at h0 ⊢; clear h0 x) | subst x)
    | split
    | dsimp only
    | (with_reducible refine keeps_mk ?_ ⟨rfl, rfl, rfl, rfl, rfl⟩ ⟨rfl, rfl⟩)

theorem State.opSnapshot_keeps {q : List Instr} {j : TapSt} {b : TimeBase} {s : State} (ctx : Ctx) (index : Nat) (len : Nat) (hs : Keeps q j b s) :
    Keeps q j b (State.opSnapshot s ctx index len) := by
  unfold State.opSnapshot
  repeat' first
    | intro _
    | with_reducible assumption
    | with_reducible apply State.answer_keeps
    | with_reducible apply keeps_ite
    | with_reducible rfl
    | split
    | dsimp only
    | (with_reducible refine keeps_mk ?_ ⟨rfl, rfl, rfl, rfl, rfl⟩ ⟨rfl, rfl⟩)

theorem State.opDescribe_keeps {q : List Instr} {j : TapSt} {b : TimeBase} {s : State} (ctx : Ctx) (index : Nat) (sub : Nat) (len : Nat) (hs : Keeps q j b s) :
    Keeps q j b (State.opDescribe s ctx index sub len) := by
  unfold State.opDescribe
  repeat' first
    | intro _
    | with_reducible assumption
    | with_reducible apply State.answer_keeps
    | with_reducible apply keeps_ite
    | with_reducible rfl
    | (extract_lets +onlyGivenNames -underBinder x; first | (refine keeps_cut (q := q) (j := j) (b := b) (x := x) ?_ ?_ <;> first | (intro h0; generalize x = y at h0 ⊢; clear x) | intro h0 | subst x) | (have h0 := Nat.zero_le x; generalize x = y at h0 ⊢; clear h0 x) | subst x)
    | split
    | dsimp only
    | (with_reducible refine keeps_mk ?_ ⟨rfl, rfl, rfl, rfl, rfl⟩ ⟨rfl, rfl⟩)

theorem State.opWrite_keeps {q : List Instr} {j : TapSt} {b0 : TimeBase} {s : State} (ctx : Ctx) (index : Nat) (sub : Nat) (b : List Nat) (hs : Keeps q j b0 s) :
    Keeps q j b0 (State.opWrite s ctx index sub b) := by
  unfold State.opWrite
  repeat' first
    | intro _
    | with_reducible assumption
    | with_reducible apply State.refuse_keeps
    | with_reducible apply State.cancel_keeps
    | with_reducible apply State.confirm_keeps
    | with_reducible apply State.propose_keeps
    | with_reducible apply State.putValue_keeps
    | with_reducible apply State.settle_keeps
    | with_reducible apply State.fscopePropose_keeps
    | with_reducible apply State.answer_keeps
    | with_reducible apply keeps_ite
    | with_reducible rfl
    | (extract_lets +onlyGivenNames -underBinder x; first | (refine keeps_cut (q := q) (j := j) (b := b0) (x := x) ?_ ?_ <;> first | (intro h0; generalize x = y at h0 ⊢; clear x) | intro h0 | subst x) | (have h0 := Nat.zero_le x; generalize x = y at h0 ⊢; clear h0 x) | subst x)
    | split
    | dsimp only
    | (with_reducible refine keeps_mk ?_ ⟨rfl, rfl, rfl, rfl, rfl⟩ ⟨rfl, rfl⟩)

theorem State.opRecord_keeps {q : List Instr} {j : TapSt} {b0 : TimeBase} {s : State} (ctx : Ctx) (index : Nat) (b : List Nat) (hs : Keeps q j b0 s) :
    Keeps q j b0 (State.opRecord s ctx index b) := by
  unfold State.opRecord
  repeat' first
    | intro _
    | with_reducible assumption
    | with_reducible apply State.set_keeps
    | with_reducible apply State.settle_keeps
    | with_reducible apply State.written_keeps
    | with_reducible apply State.fscopePropose_keeps
    | with_reducible apply State.answer_keeps
    | with_reducible apply keeps_foldl
    | with_reducible apply keeps_foldl_fst
    | with_reducible apply keeps_ite
    | with_reducible rfl
    | (extract_lets +onlyGivenNames -underBinder x; first | (refine keeps_cut (q := q) (j := j) (b := b0) (x := x) ?_ ?_ <;> first | (intro h0; generalize x = y at h0 ⊢; clear x) | intro h0 | subst x) | (have h0 := Nat.zero_le x; generalize x = y at h0 ⊢; clear h0 x) | subst x)
    | split
    | dsimp only
    | (with_reducible refine keeps_mk ?_ ⟨rfl, rfl, rfl, rfl, rfl⟩ ⟨rfl, rfl⟩)

theorem State.served_keeps {q : List Instr} {j : TapSt} {b : TimeBase} {s : State}  (hs : Keeps q j b s) :
    Keeps q j b (State.served s) := by
  unfold State.served
  repeat' first
    | intro _
    | with_reducible assumption
    | with_reducible apply State.flag_keeps
    | with_reducible apply State.bump_keeps
    | with_reducible apply State.journalRefused_keeps
    | with_reducible apply keeps_ite
    | with_reducible rfl
    | (extract_lets +onlyGivenNames -underBinder x; first | (refine keeps_cut (q := q) (j := j) (b := b) (x := x) ?_ ?_ <;> first | (intro h0; generalize x = y at h0 ⊢; clear x) | intro h0 | subst x) | (have h0 := Nat.zero_le x; generalize x = y at h0 ⊢; clear h0 x) | subst x)
    | split
    | dsimp only
    | (with_reducible refine keeps_mk ?_ ⟨rfl, rfl, rfl, rfl, rfl⟩ ⟨rfl, rfl⟩)

theorem State.execOp_keeps {q : List Instr} {j : TapSt} {b0 : TimeBase} {s : State} (ctx : Ctx) (op : Nat) (index : Nat) (sub : Nat) (len : Nat) (b : List Nat) (hs : Keeps q j b0 s) :
    Keeps q j b0 (State.execOp s ctx op index sub len b) := by
  unfold State.execOp
  repeat' first
    | intro _
    | with_reducible assumption
    | with_reducible apply State.served_keeps
    | with_reducible apply State.opRecord_keeps
    | with_reducible apply State.opWrite_keeps
    | with_reducible apply State.opDescribe_keeps
    | with_reducible apply State.opSnapshot_keeps
    | with_reducible apply State.opStream_keeps
    | with_reducible apply State.opRead_keeps
    | with_reducible apply State.answer_keeps
    | with_reducible apply keeps_ite
    | with_reducible rfl
    | (extract_lets +onlyGivenNames -underBinder x; first | (refine keeps_cut (q := q) (j := j) (b := b0) (x := x) ?_ ?_ <;> first | (intro h0; generalize x = y at h0 ⊢; clear x) | intro h0 | subst x) | (have h0 := Nat.zero_le x; generalize x = y at h0 ⊢; clear h0 x) | subst x)
    | split
    | dsimp only
    | (with_reducible refine keeps_mk ?_ ⟨rfl, rfl, rfl, rfl, rfl⟩ ⟨rfl, rfl⟩)

theorem State.modMspi_keeps {q : List Instr} {j : TapSt} {b : TimeBase} {s : State} (f : MspiSt → MspiSt) (hs : Keeps q j b s) :
    Keeps q j b (State.modMspi s f) := by
  unfold State.modMspi
  repeat' first
    | intro _
    | with_reducible assumption
    | with_reducible rfl
    | dsimp only
    | (with_reducible refine keeps_mk ?_ ⟨rfl, rfl, rfl, rfl, rfl⟩ ⟨rfl, rfl⟩)

theorem State.statusSent_keeps {q : List Instr} {j : TapSt} {b : TimeBase} {s : State} (n : Nat) (hs : Keeps q j b s) :
    Keeps q j b (State.statusSent s n) := by
  unfold State.statusSent
  repeat' first
    | intro _
    | with_reducible assumption
    | with_reducible apply State.modMspi_keeps
    | with_reducible apply keeps_ite
    | with_reducible rfl
    | (extract_lets +onlyGivenNames -underBinder x; first | (refine keeps_cut (q := q) (j := j) (b := b) (x := x) ?_ ?_ <;> first | (intro h0; generalize x = y at h0 ⊢; clear x) | intro h0 | subst x) | (have h0 := Nat.zero_le x; generalize x = y at h0 ⊢; clear h0 x) | subst x)
    | split
    | dsimp only
    | (with_reducible refine keeps_mk ?_ ⟨rfl, rfl, rfl, rfl, rfl⟩ ⟨rfl, rfl⟩)

theorem State.mspiReply_keeps {q : List Instr} {j : TapSt} {b : TimeBase} {s : State}  (hs : Keeps q j b s) :
    Keeps q j b (State.mspiReply s) := by
  unfold State.mspiReply
  repeat' first
    | intro _
    | with_reducible assumption
    | with_reducible apply State.modMspi_keeps
    | with_reducible rfl
    | (extract_lets +onlyGivenNames -underBinder x; first | (refine keeps_cut (q := q) (j := j) (b := b) (x := x) ?_ ?_ <;> first | (intro h0; generalize x = y at h0 ⊢; clear x) | intro h0 | subst x) | (have h0 := Nat.zero_le x; generalize x = y at h0 ⊢; clear h0 x) | subst x)
    | split
    | dsimp only
    | (with_reducible refine keeps_mk ?_ ⟨rfl, rfl, rfl, rfl, rfl⟩ ⟨rfl, rfl⟩)

theorem State.replyLeft_keeps {q : List Instr} {j : TapSt} {b : TimeBase} {s : State}  (hs : Keeps q j b s) :
    Keeps q j b (State.replyLeft s) := by
  unfold State.replyLeft
  repeat' first
    | intro _
    | with_reducible assumption
    | with_reducible rfl
    | (extract_lets +onlyGivenNames -underBinder x; first | (refine keeps_cut (q := q) (j := j) (b := b) (x := x) ?_ ?_ <;> first | (intro h0; generalize x = y at h0 ⊢; clear x) | intro h0 | subst x) | (have h0 := Nat.zero_le x; generalize x = y at h0 ⊢; clear h0 x) | subst x)
    | dsimp only
    | (with_reducible refine keeps_mk ?_ ⟨rfl, rfl, rfl, rfl, rfl⟩ ⟨rfl, rfl⟩)

theorem State.mspiFetch_keeps {q : List Instr} {j : TapSt} {b : TimeBase} {s : State} (n : Nat) (hs : Keeps q j b s) :
    Keeps q j b (State.mspiFetch s n) := by
  unfold State.mspiFetch
  repeat' first
    | intro _
    | with_reducible assumption
    | with_reducible apply State.replyLeft_keeps
    | with_reducible apply State.statusSent_keeps
    | with_reducible apply State.modMspi_keeps
    | with_reducible apply keeps_ite
    | with_reducible rfl
    | (extract_lets +onlyGivenNames -underBinder x; first | (refine keeps_cut (q := q) (j := j) (b := b) (x := x) ?_ ?_ <;> first | (intro h0; generalize x = y at h0 ⊢; clear x) | intro h0 | subst x) | (have h0 := Nat.zero_le x; generalize x = y at h0 ⊢; clear h0 x) | subst x)
    | split
    | dsimp only
    | (with_reducible refine keeps_mk ?_ ⟨rfl, rfl, rfl, rfl, rfl⟩ ⟨rfl, rfl⟩)

theorem State.mspiTransfer_keeps {q : List Instr} {j : TapSt} {b0 : TimeBase} {s : State} (b : List Nat) (hs : Keeps q j b0 s) :
    Keeps q j b0 (State.mspiTransfer s b) := by
  unfold State.mspiTransfer
  repeat' first
    | intro _
    | with_reducible assumption
    | with_reducible apply State.bump_keeps
    | with_reducible apply State.mspiFetch_keeps
    | with_reducible apply State.statusSent_keeps
    | with_reducible apply State.modMspi_keeps
    | with_reducible apply State.served_keeps
    | with_reducible apply State.answer_keeps
    | with_reducible apply keeps_ite
    | with_reducible rfl
    | (extract_lets +onlyGivenNames -underBinder x; first | (refine keeps_cut (q := q) (j := j) (b := b0) (x := x) ?_ ?_ <;> first | (intro h0; generalize x = y at h0 ⊢; clear x) | intro h0 | subst x) | (have h0 := Nat.zero_le x; generalize x = y at h0 ⊢; clear h0 x) | subst x)
    | split
    | dsimp only
    | (with_reducible refine keeps_mk ?_ ⟨rfl, rfl, rfl, rfl, rfl⟩ ⟨rfl, rfl⟩)

theorem State.putRun_keeps {q : List Instr} {j : TapSt} {b : TimeBase} {s : State} (r : Option FrameRun) (hs : Keeps q j b s) :
    Keeps q j b (State.putRun s r) := by
  unfold State.putRun
  repeat' first
    | intro _
    | with_reducible assumption
    | with_reducible rfl
    | dsimp only
    | (with_reducible refine keeps_mk ?_ ⟨rfl, rfl, rfl, rfl, rfl⟩ ⟨rfl, rfl⟩)

theorem State.frameEnd_keeps {q : List Instr} {j : TapSt} {b : TimeBase} {s : State} (r : FrameRun) (hs : Keeps q j b s) :
    Keeps q j b (State.frameEnd s r) := by
  unfold State.frameEnd
  repeat' first
    | intro _
    | with_reducible assumption
    | with_reducible apply State.putRun_keeps
    | with_reducible apply State.keepReply_keeps
    | with_reducible apply State.peerSend_keeps
    | with_reducible apply State.netSend_keeps
    | with_reducible apply State.authSign_keeps
    | with_reducible apply State.count_keeps
    | with_reducible apply keeps_ite
    | with_reducible rfl
    | (extract_lets +onlyGivenNames -underBinder x; first | (refine keeps_cut (q := q) (j := j) (b := b) (x := x) ?_ ?_ <;> first | (intro h0; generalize x = y at h0 ⊢; clear x) | intro h0 | subst x) | (have h0 := Nat.zero_le x; generalize x = y at h0 ⊢; clear h0 x) | subst x)
    | (with_reducible refine keeps_fst (by with_reducible assumption) ?_)
    | (with_reducible refine keeps_snd (by with_reducible assumption) ?_)
    | split
    | dsimp only
    | (with_reducible refine keeps_mk ?_ ⟨rfl, rfl, rfl, rfl, rfl⟩ ⟨rfl, rfl⟩)

theorem State.frameGo_keeps {q : List Instr} {j : TapSt} {b : TimeBase} {s : State} (n : Nat) (hs : Keeps q j b s) :
    Keeps q j b (State.frameGo s n) := by
  induction n generalizing s with
  | zero => exact hs
  | succ k ih =>
    unfold State.frameGo
    repeat' first
    | with_reducible assumption
    | with_reducible apply ih
    | with_reducible apply State.frameEnd_keeps
    | with_reducible apply State.putRun_keeps
    | with_reducible apply State.execOp_keeps
    | (extract_lets +onlyGivenNames -underBinder x; first | (refine keeps_cut (q := q) (j := j) (b := b) (x := x) ?_ ?_ <;> first | (intro h0; generalize x = y at h0 ⊢; clear x) | intro h0 | subst x) | (have h0 := Nat.zero_le x; generalize x = y at h0 ⊢; clear h0 x) | subst x)
    | intro _
    | with_reducible apply keeps_ite
    | split

theorem State.frameBegin_keeps {q : List Instr} {j : TapSt} {b0 : TimeBase} {s : State} (ctx : Ctx) (b : List Nat) (ops : List (Nat × Nat × Nat × Nat × List Nat)) (limit : Nat) (toward : Option (Nat × Nat × Nat)) (port : Nat) (head : List Nat) (mac : Nat) (hs : Keeps q j b0 s) :
    Keeps q j b0 (State.frameBegin s ctx b ops limit toward port head mac) := by
  unfold State.frameBegin
  repeat' first
    | intro _
    | with_reducible assumption
    | with_reducible apply State.frameGo_keeps
    | with_reducible apply State.putRun_keeps
    | with_reducible rfl
    | (extract_lets +onlyGivenNames -underBinder x; first | (refine keeps_cut (q := q) (j := j) (b := b0) (x := x) ?_ ?_ <;> first | (intro h0; generalize x = y at h0 ⊢; clear x) | intro h0 | subst x) | (have h0 := Nat.zero_le x; generalize x = y at h0 ⊢; clear h0 x) | subst x)
    | dsimp only
    | (with_reducible refine keeps_mk ?_ ⟨rfl, rfl, rfl, rfl, rfl⟩ ⟨rfl, rfl⟩)

theorem State.hostBad_keeps {q : List Instr} {j : TapSt} {b : TimeBase} {s : State}  (hs : Keeps q j b s) :
    Keeps q j b (State.hostBad s) := by
  unfold State.hostBad
  repeat' first
    | intro _
    | with_reducible assumption
    | with_reducible apply State.bump_keeps
    | with_reducible rfl
    | dsimp only
    | (with_reducible refine keeps_mk ?_ ⟨rfl, rfl, rfl, rfl, rfl⟩ ⟨rfl, rfl⟩)

theorem State.hostRequest_keeps {q : List Instr} {j : TapSt} {b : TimeBase} {s : State} (f : List Nat) (fcs : Bool) (at_ : Nat) (aon : Nat) (hs : Keeps q j b s) :
    Keeps q j b (State.hostRequest s f fcs at_ aon) := by
  unfold State.hostRequest
  repeat' first
    | intro _
    | with_reducible assumption
    | with_reducible apply State.bump_keeps
    | with_reducible apply State.hostBad_keeps
    | with_reducible apply State.frameBegin_keeps
    | with_reducible apply State.authFail_keeps
    | with_reducible apply State.counterSee_keeps
    | with_reducible apply State.count_keeps
    | with_reducible apply keeps_ite
    | with_reducible rfl
    | (extract_lets +onlyGivenNames -underBinder x; first | (refine keeps_cut (q := q) (j := j) (b := b) (x := x) ?_ ?_ <;> first | (intro h0; generalize x = y at h0 ⊢; clear x) | intro h0 | subst x) | (have h0 := Nat.zero_le x; generalize x = y at h0 ⊢; clear h0 x) | subst x)
    | split
    | dsimp only
    | (with_reducible refine keeps_mk ?_ ⟨rfl, rfl, rfl, rfl, rfl⟩ ⟨rfl, rfl⟩)

theorem State.txnRequest_keeps {q : List Instr} {j : TapSt} {b : TimeBase} {s : State} (at_ : Nat) (aon : Nat) (hs : Keeps q j b s) :
    Keeps q j b (State.txnRequest s at_ aon) := by
  unfold State.txnRequest
  repeat' first
    | intro _
    | with_reducible assumption
    | with_reducible apply State.frameBegin_keeps
    | with_reducible apply State.frameEnd_keeps
    | with_reducible apply State.epochSee_keeps
    | with_reducible apply State.netBad_keeps
    | with_reducible apply State.netTake_keeps
    | with_reducible apply keeps_ite
    | with_reducible rfl
    | (extract_lets +onlyGivenNames -underBinder x; first | (refine keeps_cut (q := q) (j := j) (b := b) (x := x) ?_ ?_ <;> first | (intro h0; generalize x = y at h0 ⊢; clear x) | intro h0 | subst x) | (have h0 := Nat.zero_le x; generalize x = y at h0 ⊢; clear h0 x) | subst x)
    | (with_reducible refine keeps_fst (by with_reducible assumption) ?_)
    | (with_reducible refine keeps_snd (by with_reducible assumption) ?_)
    | split
    | dsimp only
    | (with_reducible refine keeps_mk ?_ ⟨rfl, rfl, rfl, rfl, rfl⟩ ⟨rfl, rfl⟩)

theorem State.dauEnd_keeps {q0 : List Instr} {j : TapSt} {b : TimeBase} {s : State} (c : Nat) (q : DauReq) (hs : Keeps q0 j b s) :
    Keeps q0 j b (State.dauEnd s c q) := by
  unfold State.dauEnd
  repeat' first
    | intro _
    | with_reducible assumption
    | with_reducible apply State.modCore_keeps
    | with_reducible apply State.plainSet_keeps
    | with_reducible apply State.raiseInt_keeps
    | with_reducible apply keeps_foldl
    | with_reducible apply keeps_foldl_fst
    | with_reducible apply keeps_ite
    | with_reducible rfl
    | (extract_lets +onlyGivenNames -underBinder x; first | (refine keeps_cut (q := q0) (j := j) (b := b) (x := x) ?_ ?_ <;> first | (intro h0; generalize x = y at h0 ⊢; clear x) | intro h0 | subst x) | (have h0 := Nat.zero_le x; generalize x = y at h0 ⊢; clear h0 x) | subst x)
    | split
    | dsimp only
    | (with_reducible refine keeps_mk ?_ ⟨rfl, rfl, rfl, rfl, rfl⟩ ⟨rfl, rfl⟩)

theorem State.dauRun_keeps {q : List Instr} {j : TapSt} {b : TimeBase} {s : State} (c : Nat) (at_ : Nat) (aon : Nat) (hs : Keeps q j b s) :
    Keeps q j b (State.dauRun s c at_ aon) := by
  unfold State.dauRun
  repeat' first
    | intro _
    | with_reducible assumption
    | with_reducible apply State.dauEnd_keeps
    | with_reducible apply State.execOp_keeps
    | with_reducible apply State.served_keeps
    | with_reducible apply State.answer_keeps
    | with_reducible apply keeps_ite
    | with_reducible rfl
    | (extract_lets +onlyGivenNames -underBinder x; first | (refine keeps_cut (q := q) (j := j) (b := b) (x := x) ?_ ?_ <;> first | (intro h0; generalize x = y at h0 ⊢; clear x) | intro h0 | subst x) | (have h0 := Nat.zero_le x; generalize x = y at h0 ⊢; clear h0 x) | subst x)
    | split
    | dsimp only
    | (with_reducible refine keeps_mk ?_ ⟨rfl, rfl, rfl, rfl, rfl⟩ ⟨rfl, rfl⟩)

theorem State.instant_keeps {q : List Instr} {j : TapSt} {b : TimeBase} {s : State} (at_ : Nat) (aon : Nat) (hs : Keeps q j b s) :
    Keeps q j b (State.instant s at_ aon) := by
  unfold State.instant
  repeat' first
    | intro _
    | with_reducible assumption
    | with_reducible apply State.changesExpire_keeps
    | with_reducible apply State.settle_keeps
    | with_reducible apply State.reachAon_keeps
    | with_reducible apply State.reach_keeps
    | with_reducible rfl
    | dsimp only
    | (with_reducible refine keeps_mk ?_ ⟨rfl, rfl, rfl, rfl, rfl⟩ ⟨rfl, rfl⟩)

theorem State.comeTo_keeps {q : List Instr} {j : TapSt} {b : TimeBase} {s : State} (c : Ctx) (hs : Keeps q j b s) :
    Keeps q j b (State.comeTo s c) := by
  unfold State.comeTo
  repeat' first
    | intro _
    | with_reducible assumption
    | with_reducible apply State.instant_keeps
    | with_reducible rfl
    | dsimp only
    | (with_reducible refine keeps_mk ?_ ⟨rfl, rfl, rfl, rfl, rfl⟩ ⟨rfl, rfl⟩)

theorem State.request_keeps {q : List Instr} {j : TapSt} {b0 : TimeBase} {s : State} (c : Ctx) (op : Nat) (index : Nat) (sub : Nat) (len : Nat) (b : List Nat) (hs : Keeps q j b0 s) :
    Keeps q j b0 (State.request s c op index sub len b) := by
  unfold State.request
  repeat' first
    | intro _
    | with_reducible assumption
    | with_reducible apply State.comeTo_keeps
    | with_reducible apply State.mspiReply_keeps
    | with_reducible apply State.execOp_keeps
    | with_reducible apply keeps_ite
    | with_reducible rfl
    | (extract_lets +onlyGivenNames -underBinder x; first | (refine keeps_cut (q := q) (j := j) (b := b0) (x := x) ?_ ?_ <;> first | (intro h0; generalize x = y at h0 ⊢; clear x) | intro h0 | subst x) | (have h0 := Nat.zero_le x; generalize x = y at h0 ⊢; clear h0 x) | subst x)
    | split
    | dsimp only
    | (with_reducible refine keeps_mk ?_ ⟨rfl, rfl, rfl, rfl, rfl⟩ ⟨rfl, rfl⟩)

theorem State.submitDone_keeps {q : List Instr} {j : TapSt} {b : TimeBase} {s : State} (c : Ctx) (hs : Keeps q j b s) :
    Keeps q j b (State.submitDone s c) := by
  unfold State.submitDone
  repeat' first
    | intro _
    | with_reducible assumption
    | with_reducible apply State.dauEnd_keeps
    | with_reducible apply State.frameGo_keeps
    | with_reducible apply State.putRun_keeps
    | with_reducible apply State.mspiReply_keeps
    | with_reducible apply State.served_keeps
    | with_reducible rfl
    | (extract_lets +onlyGivenNames -underBinder x; first | (refine keeps_cut (q := q) (j := j) (b := b) (x := x) ?_ ?_ <;> first | (intro h0; generalize x = y at h0 ⊢; clear x) | intro h0 | subst x) | (have h0 := Nat.zero_le x; generalize x = y at h0 ⊢; clear h0 x) | subst x)
    | split
    | dsimp only
    | (with_reducible refine keeps_mk ?_ ⟨rfl, rfl, rfl, rfl, rfl⟩ ⟨rfl, rfl⟩)

theorem State.submitEvent_keeps {q : List Instr} {j : TapSt} {b : TimeBase} {s : State} (f : State → State) (hs : Keeps q j b s) (hf : ∀ t, Keeps q j b t → Keeps q j b (f t)) :
    Keeps q j b (State.submitEvent s f) := by
  unfold State.submitEvent
  repeat' first
    | intro _
    | with_reducible assumption
    | with_reducible apply State.submitDone_keeps
    | with_reducible apply hf
    | with_reducible apply keeps_ite
    | with_reducible rfl
    | (extract_lets +onlyGivenNames -underBinder x; first | (refine keeps_cut (q := q) (j := j) (b := b) (x := x) ?_ ?_ <;> first | (intro h0; generalize x = y at h0 ⊢; clear x) | intro h0 | subst x) | (have h0 := Nat.zero_le x; generalize x = y at h0 ⊢; clear h0 x) | subst x)
    | split
    | dsimp only
    | (with_reducible refine keeps_mk ?_ ⟨rfl, rfl, rfl, rfl, rfl⟩ ⟨rfl, rfl⟩)

theorem State.write_keeps {q : List Instr} {j : TapSt} {b0 : TimeBase} {s : State} (c : Ctx) (index : Nat) (sub : Nat) (b : List Nat) (hs : Keeps q j b0 s) :
    Keeps q j b0 (State.write s c index sub b) := by
  unfold State.write
  repeat' first
    | intro _
    | with_reducible assumption
    | with_reducible apply State.request_keeps
    | with_reducible rfl
    | dsimp only
    | (with_reducible refine keeps_mk ?_ ⟨rfl, rfl, rfl, rfl, rfl⟩ ⟨rfl, rfl⟩)

theorem State.writeKey_keeps {q : List Instr} {j : TapSt} {b : TimeBase} {s : State} (c : Ctx) (k : Nat) (n : Nat) (v : Nat) (hs : Keeps q j b s) :
    Keeps q j b (State.writeKey s c k n v) := by
  unfold State.writeKey
  repeat' first
    | intro _
    | with_reducible assumption
    | with_reducible apply State.write_keeps
    | with_reducible rfl
    | dsimp only
    | (with_reducible refine keeps_mk ?_ ⟨rfl, rfl, rfl, rfl, rfl⟩ ⟨rfl, rfl⟩)

theorem State.messageDelivery_keeps {q : List Instr} {j : TapSt} {b : TimeBase} {s : State} (at_ : Nat) (aon : Nat) (hs : Keeps q j b s) :
    Keeps q j b (State.messageDelivery s at_ aon) := by
  unfold State.messageDelivery
  repeat' first
    | intro _
    | with_reducible assumption
    | with_reducible apply State.instant_keeps
    | with_reducible apply State.execOp_keeps
    | with_reducible apply State.failedPresent_keeps
    | with_reducible apply State.writeDone_keeps
    | with_reducible apply State.present_keeps
    | with_reducible apply keeps_ite
    | with_reducible rfl
    | (extract_lets +onlyGivenNames -underBinder x; first | (refine keeps_cut (q := q) (j := j) (b := b) (x := x) ?_ ?_ <;> first | (intro h0; generalize x = y at h0 ⊢; clear x) | intro h0 | subst x) | (have h0 := Nat.zero_le x; generalize x = y at h0 ⊢; clear h0 x) | subst x)
    | split
    | dsimp only
    | (with_reducible refine keeps_mk ?_ ⟨rfl, rfl, rfl, rfl, rfl⟩ ⟨rfl, rfl⟩)

/-! ### LakeRoot -/

theorem State.gnssSteer_keeps {q0 : List Instr} {j : TapSt} {b : TimeBase} {s : State} (q : List (Nat × Int × Rat)) (lakeNow : Nat) (hs : Keeps q0 j b s) :
    Keeps q0 j b (State.gnssSteer s q lakeNow) := by
  unfold State.gnssSteer
  repeat' first
    | intro _
    | with_reducible assumption
    | with_reducible apply State.set_keeps
    | with_reducible apply State.flag_keeps
    | with_reducible apply keeps_foldl
    | with_reducible apply keeps_foldl_fst
    | with_reducible apply keeps_ite
    | with_reducible rfl
    | (extract_lets +onlyGivenNames -underBinder x; first | (refine keeps_cut (q := q0) (j := j) (b := b) (x := x) ?_ ?_ <;> first | (intro h0; generalize x = y at h0 ⊢; clear x) | intro h0 | subst x) | (have h0 := Nat.zero_le x; generalize x = y at h0 ⊢; clear h0 x) | subst x)
    | split
    | dsimp only
    | (with_reducible refine keeps_mk ?_ ⟨rfl, rfl, rfl, rfl, rfl⟩ ⟨rfl, rfl⟩)

theorem State.replicaSend_keeps {q : List Instr} {j : TapSt} {b : TimeBase} {s : State} (toward : Nat) (hs : Keeps q j b s) :
    Keeps q j b (State.replicaSend s toward) := by
  unfold State.replicaSend
  repeat' first
    | intro _
    | with_reducible assumption
    | with_reducible apply State.netSend_keeps
    | with_reducible apply keeps_foldl
    | with_reducible apply keeps_foldl_fst
    | with_reducible apply keeps_ite
    | with_reducible rfl
    | split
    | dsimp only
    | (with_reducible refine keeps_mk ?_ ⟨rfl, rfl, rfl, rfl, rfl⟩ ⟨rfl, rfl⟩)

theorem State.neighboursSend_keeps {q : List Instr} {j : TapSt} {b : TimeBase} {s : State}  (hs : Keeps q j b s) :
    Keeps q j b (State.neighboursSend s) := by
  unfold State.neighboursSend
  repeat' first
    | intro _
    | with_reducible assumption
    | with_reducible apply State.netSend_keeps
    | with_reducible apply keeps_foldl
    | with_reducible apply keeps_foldl_fst
    | with_reducible apply keeps_ite
    | with_reducible rfl
    | (extract_lets +onlyGivenNames -underBinder x; first | (refine keeps_cut (q := q) (j := j) (b := b) (x := x) ?_ ?_ <;> first | (intro h0; generalize x = y at h0 ⊢; clear x) | intro h0 | subst x) | (have h0 := Nat.zero_le x; generalize x = y at h0 ⊢; clear h0 x) | subst x)
    | split
    | dsimp only
    | (with_reducible refine keeps_mk ?_ ⟨rfl, rfl, rfl, rfl, rfl⟩ ⟨rfl, rfl⟩)

theorem State.ensembleEpoch_keeps {q : List Instr} {j : TapSt} {b : TimeBase} {s : State} (origin : Nat) (hs : Keeps q j b s) :
    Keeps q j b (State.ensembleEpoch s origin) := by
  unfold State.ensembleEpoch
  repeat' first
    | intro _
    | with_reducible assumption
    | with_reducible apply State.set_keeps
    | with_reducible apply State.flag_keeps
    | with_reducible apply State.tick_keeps
    | with_reducible apply State.neighboursSend_keeps
    | with_reducible apply State.replicaSend_keeps
    | with_reducible apply State.gnssSteer_keeps
    | with_reducible apply State.netSend_keeps
    | with_reducible apply State.setI_keeps
    | with_reducible apply keeps_foldl
    | with_reducible apply keeps_foldl_fst
    | with_reducible apply keeps_ite
    | with_reducible rfl
    | (extract_lets +onlyGivenNames -underBinder x; first | (refine keeps_cut (q := q) (j := j) (b := b) (x := x) ?_ ?_ <;> first | (intro h0; generalize x = y at h0 ⊢; clear x) | intro h0 | subst x) | (have h0 := Nat.zero_le x; generalize x = y at h0 ⊢; clear h0 x) | subst x)
    | split
    | dsimp only
    | (with_reducible refine keeps_mk ?_ ⟨rfl, rfl, rfl, rfl, rfl⟩ ⟨rfl, rfl⟩)

theorem State.reportIn_keeps {q : List Instr} {j : TapSt} {b : TimeBase} {s : State}  (hs : Keeps q j b s) :
    Keeps q j b (State.reportIn s) := by
  unfold State.reportIn
  repeat' first
    | intro _
    | with_reducible assumption
    | with_reducible apply State.tick_keeps
    | with_reducible apply State.lakeTake_keeps
    | with_reducible apply State.netBad_keeps
    | with_reducible apply keeps_ite
    | with_reducible rfl
    | (extract_lets +onlyGivenNames -underBinder x; first | (refine keeps_cut (q := q) (j := j) (b := b) (x := x) ?_ ?_ <;> first | (intro h0; generalize x = y at h0 ⊢; clear x) | intro h0 | subst x) | (have h0 := Nat.zero_le x; generalize x = y at h0 ⊢; clear h0 x) | subst x)
    | (with_reducible refine keeps_fst (by with_reducible assumption) ?_)
    | (with_reducible refine keeps_snd (by with_reducible assumption) ?_)
    | split
    | dsimp only
    | (with_reducible refine keeps_mk ?_ ⟨rfl, rfl, rfl, rfl, rfl⟩ ⟨rfl, rfl⟩)

theorem State.realmBegin_keeps {q : List Instr} {j : TapSt} {b : TimeBase} {s : State}  (hs : Keeps q j b s) :
    Keeps q j b (State.realmBegin s) := by
  unfold State.realmBegin
  repeat' first
    | intro _
    | with_reducible assumption
    | with_reducible apply State.reset_keeps
    | with_reducible rfl
    | (extract_lets +onlyGivenNames -underBinder x; first | (refine keeps_cut (q := q) (j := j) (b := b) (x := x) ?_ ?_ <;> first | (intro h0; generalize x = y at h0 ⊢; clear x) | intro h0 | subst x) | (have h0 := Nat.zero_le x; generalize x = y at h0 ⊢; clear h0 x) | subst x)
    | dsimp only
    | (with_reducible refine keeps_mk ?_ ⟨rfl, rfl, rfl, rfl, rfl⟩ ⟨rfl, rfl⟩)

theorem State.roleJudge_keeps {q : List Instr} {j : TapSt} {b : TimeBase} {s : State}  (hs : Keeps q j b s) :
    Keeps q j b (State.roleJudge s) := by
  unfold State.roleJudge
  repeat' first
    | intro _
    | with_reducible assumption
    | with_reducible apply State.set_keeps
    | with_reducible apply State.realmBegin_keeps
    | with_reducible apply State.reset_keeps
    | with_reducible apply keeps_foldl
    | with_reducible apply keeps_foldl_fst
    | with_reducible apply keeps_ite
    | with_reducible rfl
    | (extract_lets +onlyGivenNames -underBinder x; first | (refine keeps_cut (q := q) (j := j) (b := b) (x := x) ?_ ?_ <;> first | (intro h0; generalize x = y at h0 ⊢; clear x) | intro h0 | subst x) | (have h0 := Nat.zero_le x; generalize x = y at h0 ⊢; clear h0 x) | subst x)
    | split
    | dsimp only
    | (with_reducible refine keeps_mk ?_ ⟨rfl, rfl, rfl, rfl, rfl⟩ ⟨rfl, rfl⟩)

theorem State.rankSend_keeps {q : List Instr} {j : TapSt} {b : TimeBase} {s : State} (toward : Nat) (hs : Keeps q j b s) :
    Keeps q j b (State.rankSend s toward) := by
  unfold State.rankSend
  repeat' first
    | intro _
    | with_reducible assumption
    | with_reducible apply State.netSend_keeps
    | with_reducible apply State.takeFree_keeps
    | with_reducible rfl
    | (extract_lets +onlyGivenNames -underBinder x; first | (refine keeps_cut (q := q) (j := j) (b := b) (x := x) ?_ ?_ <;> first | (intro h0; generalize x = y at h0 ⊢; clear x) | intro h0 | subst x) | (have h0 := Nat.zero_le x; generalize x = y at h0 ⊢; clear h0 x) | subst x)
    | dsimp only
    | (with_reducible refine keeps_mk ?_ ⟨rfl, rfl, rfl, rfl, rfl⟩ ⟨rfl, rfl⟩)

theorem State.rootElection_keeps {q : List Instr} {j : TapSt} {b : TimeBase} {s : State} (replica : List (Nat × Nat)) (hs : Keeps q j b s) :
    Keeps q j b (State.rootElection s replica) := by
  unfold State.rootElection
  repeat' first
    | intro _
    | with_reducible assumption
    | with_reducible apply State.rankSend_keeps
    | with_reducible apply State.roleJudge_keeps
    | with_reducible apply State.electRoot_keeps
    | with_reducible apply keeps_foldl
    | with_reducible apply keeps_foldl_fst
    | with_reducible apply keeps_ite
    | with_reducible rfl
    | (extract_lets +onlyGivenNames -underBinder x; first | (refine keeps_cut (q := q) (j := j) (b := b) (x := x) ?_ ?_ <;> first | (intro h0; generalize x = y at h0 ⊢; clear x) | intro h0 | subst x) | (have h0 := Nat.zero_le x; generalize x = y at h0 ⊢; clear h0 x) | subst x)
    | split
    | dsimp only
    | (with_reducible refine keeps_mk ?_ ⟨rfl, rfl, rfl, rfl, rfl⟩ ⟨rfl, rfl⟩)

theorem State.roleGive_keeps {q : List Instr} {j : TapSt} {b : TimeBase} {s : State}  (hs : Keeps q j b s) :
    Keeps q j b (State.roleGive s) := by
  unfold State.roleGive
  repeat' first
    | intro _
    | with_reducible assumption
    | with_reducible apply State.set_keeps
    | with_reducible apply State.flag_keeps
    | with_reducible apply State.roleJudge_keeps
    | with_reducible apply State.memberSet_keeps
    | with_reducible apply keeps_ite
    | with_reducible rfl
    | (extract_lets +onlyGivenNames -underBinder x; first | (refine keeps_cut (q := q) (j := j) (b := b) (x := x) ?_ ?_ <;> first | (intro h0; generalize x = y at h0 ⊢; clear x) | intro h0 | subst x) | (have h0 := Nat.zero_le x; generalize x = y at h0 ⊢; clear h0 x) | subst x)
    | split
    | dsimp only
    | (with_reducible refine keeps_mk ?_ ⟨rfl, rfl, rfl, rfl, rfl⟩ ⟨rfl, rfl⟩)

theorem State.rankIn_keeps {q : List Instr} {j : TapSt} {b : TimeBase} {s : State}  (hs : Keeps q j b s) :
    Keeps q j b (State.rankIn s) := by
  unfold State.rankIn
  repeat' first
    | intro _
    | with_reducible assumption
    | with_reducible apply State.flag_keeps
    | with_reducible apply State.roleGive_keeps
    | with_reducible apply State.replicaSend_keeps
    | with_reducible apply State.lakeTake_keeps
    | with_reducible apply State.netBad_keeps
    | with_reducible apply keeps_ite
    | with_reducible rfl
    | (extract_lets +onlyGivenNames -underBinder x; first | (refine keeps_cut (q := q) (j := j) (b := b) (x := x) ?_ ?_ <;> first | (intro h0; generalize x = y at h0 ⊢; clear x) | intro h0 | subst x) | (have h0 := Nat.zero_le x; generalize x = y at h0 ⊢; clear h0 x) | subst x)
    | (with_reducible refine keeps_fst (by with_reducible assumption) ?_)
    | (with_reducible refine keeps_snd (by with_reducible assumption) ?_)
    | split
    | dsimp only
    | (with_reducible refine keeps_mk ?_ ⟨rfl, rfl, rfl, rfl, rfl⟩ ⟨rfl, rfl⟩)

theorem State.replicaWhole_keeps {q : List Instr} {j : TapSt} {b : TimeBase} {s : State} (source : Nat) (r : Realm) (hs : Keeps q j b s) :
    Keeps q j b (State.replicaWhole s source r) := by
  unfold State.replicaWhole
  repeat' first
    | intro _
    | with_reducible assumption
    | with_reducible apply State.replicaSend_keeps
    | with_reducible apply keeps_ite
    | with_reducible rfl
    | (extract_lets +onlyGivenNames -underBinder x; first | (refine keeps_cut (q := q) (j := j) (b := b) (x := x) ?_ ?_ <;> first | (intro h0; generalize x = y at h0 ⊢; clear x) | intro h0 | subst x) | (have h0 := Nat.zero_le x; generalize x = y at h0 ⊢; clear h0 x) | subst x)
    | split
    | dsimp only
    | (with_reducible refine keeps_mk ?_ ⟨rfl, rfl, rfl, rfl, rfl⟩ ⟨rfl, rfl⟩)

theorem State.replicaIn_keeps {q : List Instr} {j : TapSt} {b : TimeBase} {s : State}  (hs : Keeps q j b s) :
    Keeps q j b (State.replicaIn s) := by
  unfold State.replicaIn
  repeat' first
    | intro _
    | with_reducible assumption
    | with_reducible apply State.flag_keeps
    | with_reducible apply State.replicaWhole_keeps
    | with_reducible apply State.lakeTake_keeps
    | with_reducible apply State.netBad_keeps
    | with_reducible apply keeps_ite
    | with_reducible rfl
    | (extract_lets +onlyGivenNames -underBinder x; first | (refine keeps_cut (q := q) (j := j) (b := b) (x := x) ?_ ?_ <;> first | (intro h0; generalize x = y at h0 ⊢; clear x) | intro h0 | subst x) | (have h0 := Nat.zero_le x; generalize x = y at h0 ⊢; clear h0 x) | subst x)
    | (with_reducible refine keeps_fst (by with_reducible assumption) ?_)
    | (with_reducible refine keeps_snd (by with_reducible assumption) ?_)
    | split
    | dsimp only
    | (with_reducible refine keeps_mk ?_ ⟨rfl, rfl, rfl, rfl, rfl⟩ ⟨rfl, rfl⟩)

theorem State.actingTake_keeps {q : List Instr} {j : TapSt} {b : TimeBase} {s : State}  (hs : Keeps q j b s) :
    Keeps q j b (State.actingTake s) := by
  unfold State.actingTake
  repeat' first
    | intro _
    | with_reducible assumption
    | with_reducible apply State.set_keeps
    | with_reducible apply State.realmBegin_keeps
    | with_reducible apply keeps_ite
    | with_reducible rfl
    | (extract_lets +onlyGivenNames -underBinder x; first | (refine keeps_cut (q := q) (j := j) (b := b) (x := x) ?_ ?_ <;> first | (intro h0; generalize x = y at h0 ⊢; clear x) | intro h0 | subst x) | (have h0 := Nat.zero_le x; generalize x = y at h0 ⊢; clear h0 x) | subst x)
    | split
    | dsimp only
    | (with_reducible refine keeps_mk ?_ ⟨rfl, rfl, rfl, rfl, rfl⟩ ⟨rfl, rfl⟩)

end Sys2Proof.Machine
end

