-- ==== Sys2Proof/Laws/KeepsDevice.lean ====
section
/-!
SUPPORT. What the operations keep: power, the cores, the tick and starts.
-/

set_option linter.all false
set_option Elab.async false

namespace Sys2Proof.Machine

/-! ### Power -/

theorem State.modPower_keeps {q : List Instr} {j : TapSt} {b : TimeBase} {s : State} (f : PowerSt → PowerSt) (hs : Keeps q j b s) :
    Keeps q j b (State.modPower s f) := by
  unfold State.modPower
  repeat' first
    | intro _
    | with_reducible assumption
    | with_reducible rfl
    | dsimp only
    | (with_reducible refine keeps_mk ?_ ⟨rfl, rfl, rfl, rfl, rfl⟩ ⟨rfl, rfl⟩)

theorem State.startLog_keeps {q : List Instr} {j : TapSt} {b : TimeBase} {s : State} (hs : Keeps q j b s) :
    Keeps q j b (State.startLog s) := by
  unfold State.startLog
  split
  · exact hs
  · extract_lets +onlyGivenNames -underBinder rest power fails wf first all base l n
    have hl : l.length ≤ 64 := by
      subst l
      simp only [List.length_map, List.length_zip, List.length_range]
      omega
    generalize l = l' at hl ⊢
    have h0 : Keeps q j b { s with silt := { s.silt with
        start := none, queue := l', nextSeq := base + l'.length, lost := s.silt.lost + n } } :=
      keeps_silt hs ⟨hl, hs.inv.2.1.2⟩
    have h1 := keeps_ite (c := n = 0) h0 (State.bumpBy_keeps K.siltLog_LostRecords n (State.raise_keeps K.siltLog_LogFlags 0 h0))
    refine keeps_ite h1 ?_
    have h2 := keeps_ite (c := fails.isEmpty = true) h1
      (State.bumpBy_keeps K.powerControl_WakeFailEvents fails.length (State.raise_keeps K.powerControl_PowerFlags 1 h1))
    exact State.modPower_keeps _ (State.set_keeps _ _ (State.set_keeps _ _ (State.set_keeps _ _ h2)))

theorem State.entryDone_keeps {q : List Instr} {j : TapSt} {b : TimeBase} {s : State}  (hs : Keeps q j b s) :
    Keeps q j b (State.entryDone s) := by
  unfold State.entryDone
  repeat' first
    | intro _
    | with_reducible assumption
    | with_reducible apply State.set_keeps
    | with_reducible apply State.modPower_keeps
    | with_reducible rfl
    | dsimp only
    | (with_reducible refine keeps_mk ?_ ⟨rfl, rfl, rfl, rfl, rfl⟩ ⟨rfl, rfl⟩)

theorem State.entryRefused_keeps {q : List Instr} {j : TapSt} {b0 : TimeBase} {s : State} (b : Nat) (hs : Keeps q j b0 s) :
    Keeps q j b0 (State.entryRefused s b) := by
  unfold State.entryRefused
  repeat' first
    | intro _
    | with_reducible assumption
    | with_reducible apply State.set_keeps
    | with_reducible apply State.flag_keeps
    | with_reducible apply State.log_keeps
    | with_reducible apply State.entryDone_keeps
    | with_reducible rfl
    | (extract_lets +onlyGivenNames -underBinder x; first | (refine keeps_cut (q := q) (j := j) (b := b0) (x := x) ?_ ?_ <;> first | (intro h0; generalize x = y at h0 ⊢; clear x) | intro h0 | subst x) | (have h0 := Nat.zero_le x; generalize x = y at h0 ⊢; clear h0 x) | subst x)
    | dsimp only
    | (with_reducible refine keeps_mk ?_ ⟨rfl, rfl, rfl, rfl, rfl⟩ ⟨rfl, rfl⟩)

theorem State.portsDown_keeps {q : List Instr} {j : TapSt} {b : TimeBase} {s : State}  (hs : Keeps q j b s) :
    Keeps q j b (State.portsDown s) := by
  unfold State.portsDown
  repeat' first
    | intro _
    | with_reducible assumption
    | with_reducible apply State.portLeave_keeps
    | with_reducible apply keeps_foldl
    | with_reducible apply keeps_foldl_fst
    | with_reducible apply keeps_ite
    | with_reducible rfl
    | split
    | dsimp only
    | (with_reducible refine keeps_mk ?_ ⟨rfl, rfl, rfl, rfl, rfl⟩ ⟨rfl, rfl⟩)

theorem State.entryReached_keeps {q : List Instr} {j : TapSt} {b : TimeBase} {s : State} (mode : Nat) (hs : Keeps q j b s) :
    Keeps q j b (State.entryReached s mode) := by
  unfold State.entryReached
  repeat' first
    | intro _
    | with_reducible assumption
    | with_reducible apply State.set_keeps
    | with_reducible apply State.log_keeps
    | with_reducible apply State.portsDown_keeps
    | with_reducible apply State.entryDone_keeps
    | with_reducible apply State.modPower_keeps
    | with_reducible apply State.changesDiscard_keeps
    | with_reducible apply State.ergSleep_keeps
    | with_reducible apply State.readerStop_keeps
    | with_reducible apply State.outputsSleep_keeps
    | with_reducible apply State.slotsHold_keeps
    | with_reducible apply State.timersSleep_keeps
    | with_reducible apply State.siltCommit_keeps
    | with_reducible apply State.count_keeps
    | with_reducible apply keeps_ite
    | with_reducible rfl
    | (extract_lets +onlyGivenNames -underBinder x; first | (refine keeps_cut (q := q) (j := j) (b := b) (x := x) ?_ ?_ <;> first | (intro h0; generalize x = y at h0 ⊢; clear x) | intro h0 | subst x) | (have h0 := Nat.zero_le x; generalize x = y at h0 ⊢; clear h0 x) | subst x)
    | split
    | dsimp only
    | (with_reducible refine keeps_mk ?_ ⟨rfl, rfl, rfl, rfl, rfl⟩ ⟨rfl, rfl⟩)

theorem State.entryTry_keeps {q : List Instr} {j : TapSt} {b : TimeBase} {s : State} (mode : Nat) (e : EntryEnd) (hs : Keeps q j b s) :
    Keeps q j b (State.entryTry s mode e).1 := by
  unfold State.entryTry
  repeat' first
    | intro _
    | with_reducible assumption
    | with_reducible apply State.set_keeps
    | with_reducible apply State.log_keeps
    | with_reducible apply State.wake_keeps
    | with_reducible apply State.entryReached_keeps
    | with_reducible apply State.entryRefused_keeps
    | with_reducible apply State.synthRefChange_keeps
    | with_reducible apply State.referenceLost_keeps
    | with_reducible apply keeps_ite
    | with_reducible apply keeps_ite_fst
    | with_reducible rfl
    | (extract_lets +onlyGivenNames -underBinder x; first | (refine keeps_cut (q := q) (j := j) (b := b) (x := x) ?_ ?_ <;> first | (intro h0; generalize x = y at h0 ⊢; clear x) | intro h0 | subst x) | (have h0 := Nat.zero_le x; generalize x = y at h0 ⊢; clear h0 x) | subst x)
    | split
    | dsimp only
    | (with_reducible refine keeps_mk ?_ ⟨rfl, rfl, rfl, rfl, rfl⟩ ⟨rfl, rfl⟩)

theorem State.entryAttempt_keeps {q : List Instr} {j : TapSt} {b : TimeBase} {s : State} (e : EntryEnd) (hs : Keeps q j b s) :
    Keeps q j b (State.entryAttempt s e) := by
  unfold State.entryAttempt
  repeat' first
    | intro _
    | with_reducible assumption
    | with_reducible apply State.set_keeps
    | with_reducible apply State.entryTry_keeps
    | with_reducible apply keeps_ite
    | with_reducible rfl
    | (extract_lets +onlyGivenNames -underBinder x; first | (refine keeps_cut (q := q) (j := j) (b := b) (x := x) ?_ ?_ <;> first | (intro h0; generalize x = y at h0 ⊢; clear x) | intro h0 | subst x) | (have h0 := Nat.zero_le x; generalize x = y at h0 ⊢; clear h0 x) | subst x)
    | (with_reducible refine keeps_fst (by with_reducible assumption) ?_)
    | (with_reducible refine keeps_snd (by with_reducible assumption) ?_)
    | split
    | dsimp only
    | (with_reducible refine keeps_mk ?_ ⟨rfl, rfl, rfl, rfl, rfl⟩ ⟨rfl, rfl⟩)

theorem State.wakeStart_keeps {q : List Instr} {j : TapSt} {b : TimeBase} {s : State}  (hs : Keeps q j b s) :
    Keeps q j b (State.wakeStart s) := by
  unfold State.wakeStart
  repeat' first
    | intro _
    | with_reducible assumption
    | with_reducible apply State.set_keeps
    | with_reducible apply State.modPower_keeps
    | with_reducible rfl
    | dsimp only
    | (with_reducible refine keeps_mk ?_ ⟨rfl, rfl, rfl, rfl, rfl⟩ ⟨rfl, rfl⟩)

theorem State.wakeBy_keeps {q : List Instr} {j : TapSt} {b : TimeBase} {s : State} (cause : Nat) (hs : Keeps q j b s) :
    Keeps q j b (State.wakeBy s cause) := by
  unfold State.wakeBy
  repeat' first
    | intro _
    | with_reducible assumption
    | with_reducible apply State.set_keeps
    | with_reducible apply State.wakeStart_keeps
    | with_reducible apply keeps_ite
    | with_reducible rfl
    | split
    | dsimp only
    | (with_reducible refine keeps_mk ?_ ⟨rfl, rfl, rfl, rfl, rfl⟩ ⟨rfl, rfl⟩)

theorem State.refWake_keeps {q : List Instr} {j : TapSt} {b : TimeBase} {s : State}  (hs : Keeps q j b s) :
    Keeps q j b (State.refWake s) := by
  unfold State.refWake
  repeat' first
    | intro _
    | with_reducible assumption
    | with_reducible apply State.wakeBy_keeps
    | with_reducible apply State.referenceLost_keeps
    | with_reducible rfl
    | dsimp only
    | (with_reducible refine keeps_mk ?_ ⟨rfl, rfl, rfl, rfl, rfl⟩ ⟨rfl, rfl⟩)

theorem State.wake_keeps {q : List Instr} {j : TapSt} {b : TimeBase} {s : State} (cause : Nat) (port : Nat) (hs : Keeps q j b s) :
    Keeps q j b (State.wake s cause port) := by
  unfold State.wake
  repeat' first
    | intro _
    | with_reducible assumption
    | with_reducible apply State.refWake_keeps
    | with_reducible apply State.wakeBy_keeps
    | with_reducible apply keeps_ite
    | with_reducible rfl
    | split
    | dsimp only
    | (with_reducible refine keeps_mk ?_ ⟨rfl, rfl, rfl, rfl, rfl⟩ ⟨rfl, rfl⟩)

theorem State.oasisBurst_keeps {q : List Instr} {j : TapSt} {b : TimeBase} {s : State}  (hs : Keeps q j b s) :
    Keeps q j b (State.oasisBurst s) := by
  unfold State.oasisBurst
  repeat' first
    | intro _
    | with_reducible assumption
    | with_reducible apply State.set_keeps
    | with_reducible apply State.modPower_keeps
    | with_reducible apply State.count_keeps
    | with_reducible apply keeps_ite
    | with_reducible rfl
    | (extract_lets +onlyGivenNames -underBinder x; first | (refine keeps_cut (q := q) (j := j) (b := b) (x := x) ?_ ?_ <;> first | (intro h0; generalize x = y at h0 ⊢; clear x) | intro h0 | subst x) | (have h0 := Nat.zero_le x; generalize x = y at h0 ⊢; clear h0 x) | subst x)
    | split
    | dsimp only
    | (with_reducible refine keeps_mk ?_ ⟨rfl, rfl, rfl, rfl, rfl⟩ ⟨rfl, rfl⟩)

theorem State.oasisBurstEnd_keeps {q : List Instr} {j : TapSt} {b : TimeBase} {s : State} (e : EntryEnd) (hs : Keeps q j b s) :
    Keeps q j b (State.oasisBurstEnd s e) := by
  unfold State.oasisBurstEnd
  repeat' first
    | intro _
    | with_reducible assumption
    | with_reducible apply State.set_keeps
    | with_reducible apply State.flag_keeps
    | with_reducible apply State.wakeStart_keeps
    | with_reducible apply State.entryTry_keeps
    | with_reducible apply keeps_ite
    | with_reducible rfl
    | (extract_lets +onlyGivenNames -underBinder x; first | (refine keeps_cut (q := q) (j := j) (b := b) (x := x) ?_ ?_ <;> first | (intro h0; generalize x = y at h0 ⊢; clear x) | intro h0 | subst x) | (have h0 := Nat.zero_le x; generalize x = y at h0 ⊢; clear h0 x) | subst x)
    | (with_reducible refine keeps_fst (by with_reducible assumption) ?_)
    | (with_reducible refine keeps_snd (by with_reducible assumption) ?_)
    | split
    | dsimp only
    | (with_reducible refine keeps_mk ?_ ⟨rfl, rfl, rfl, rfl, rfl⟩ ⟨rfl, rfl⟩)

theorem State.regulatorTimeout_keeps {q : List Instr} {j : TapSt} {b : TimeBase} {s : State}  (hs : Keeps q j b s) :
    Keeps q j b (State.regulatorTimeout s) := by
  unfold State.regulatorTimeout
  repeat' first
    | intro _
    | with_reducible assumption
    | with_reducible apply State.modPower_keeps
    | with_reducible apply keeps_ite
    | with_reducible rfl
    | (extract_lets +onlyGivenNames -underBinder x; first | (refine keeps_cut (q := q) (j := j) (b := b) (x := x) ?_ ?_ <;> first | (intro h0; generalize x = y at h0 ⊢; clear x) | intro h0 | subst x) | (have h0 := Nat.zero_le x; generalize x = y at h0 ⊢; clear h0 x) | subst x)
    | split
    | dsimp only
    | (with_reducible refine keeps_mk ?_ ⟨rfl, rfl, rfl, rfl, rfl⟩ ⟨rfl, rfl⟩)

theorem State.refLate_keeps {q : List Instr} {j : TapSt} {b : TimeBase} {s : State}  (hs : Keeps q j b s) :
    Keeps q j b (State.refLate s) := by
  unfold State.refLate
  repeat' first
    | intro _
    | with_reducible assumption
    | with_reducible apply State.flag_keeps
    | with_reducible apply State.modPower_keeps
    | with_reducible apply State.referenceLost_keeps
    | with_reducible apply keeps_ite
    | with_reducible rfl
    | (extract_lets +onlyGivenNames -underBinder x; first | (refine keeps_cut (q := q) (j := j) (b := b) (x := x) ?_ ?_ <;> first | (intro h0; generalize x = y at h0 ⊢; clear x) | intro h0 | subst x) | (have h0 := Nat.zero_le x; generalize x = y at h0 ⊢; clear h0 x) | subst x)
    | split
    | dsimp only
    | (with_reducible refine keeps_mk ?_ ⟨rfl, rfl, rfl, rfl, rfl⟩ ⟨rfl, rfl⟩)

theorem State.levelFail_keeps {q : List Instr} {j : TapSt} {b : TimeBase} {s : State}  (hs : Keeps q j b s) :
    Keeps q j b (State.levelFail s) := by
  unfold State.levelFail
  repeat' first
    | intro _
    | with_reducible assumption
    | with_reducible apply State.set_keeps
    | with_reducible apply State.flag_keeps
    | with_reducible apply State.log_keeps
    | with_reducible apply State.modPower_keeps
    | with_reducible apply keeps_ite
    | with_reducible rfl
    | (extract_lets +onlyGivenNames -underBinder x; first | (refine keeps_cut (q := q) (j := j) (b := b) (x := x) ?_ ?_ <;> first | (intro h0; generalize x = y at h0 ⊢; clear x) | intro h0 | subst x) | (have h0 := Nat.zero_le x; generalize x = y at h0 ⊢; clear h0 x) | subst x)
    | split
    | dsimp only
    | (with_reducible refine keeps_mk ?_ ⟨rfl, rfl, rfl, rfl, rfl⟩ ⟨rfl, rfl⟩)

/-! ### TimeCmds -/

theorem State.reseedFinish_keeps {q : List Instr} {j : TapSt} {b : TimeBase} {s : State} (v : Nat) (hs : Keeps q j b s) :
    Keeps q j b (State.reseedFinish s v) := by
  unfold State.reseedFinish
  repeat' first
    | intro _
    | with_reducible assumption
    | with_reducible apply State.set_keeps
    | with_reducible apply State.bump_keeps
    | with_reducible rfl
    | (extract_lets +onlyGivenNames -underBinder x; first | (refine keeps_cut (q := q) (j := j) (b := b) (x := x) ?_ ?_ <;> first | (intro h0; generalize x = y at h0 ⊢; clear x) | intro h0 | subst x) | (have h0 := Nat.zero_le x; generalize x = y at h0 ⊢; clear h0 x) | subst x)
    | dsimp only
    | (with_reducible refine keeps_mk ?_ ⟨rfl, rfl, rfl, rfl, rfl⟩ ⟨rfl, rfl⟩)

theorem State.stepBlocks_keeps {q : List Instr} {j : TapSt} {b : TimeBase} {s : State} (old : Nat) (new : Nat) (hs : Keeps q j b s) :
    Keeps q j b (State.stepBlocks s old new) := by
  unfold State.stepBlocks
  repeat' first
    | intro _
    | with_reducible assumption
    | with_reducible apply State.lakeStep_keeps
    | with_reducible apply State.solStep_keeps
    | with_reducible apply State.ergStep_keeps
    | with_reducible apply State.messagesStep_keeps
    | with_reducible apply State.portsStep_keeps
    | with_reducible apply State.outputsStep_keeps
    | with_reducible apply State.leapDue_keeps
    | with_reducible apply State.slotsStep_keeps
    | with_reducible apply State.rephase_keeps
    | with_reducible apply State.timersPondStep_keeps
    | with_reducible rfl
    | (extract_lets +onlyGivenNames -underBinder x; first | (refine keeps_cut (q := q) (j := j) (b := b) (x := x) ?_ ?_ <;> first | (intro h0; generalize x = y at h0 ⊢; clear x) | intro h0 | subst x) | (have h0 := Nat.zero_le x; generalize x = y at h0 ⊢; clear h0 x) | subst x)
    | dsimp only
    | (with_reducible refine keeps_mk ?_ ⟨rfl, rfl, rfl, rfl, rfl⟩ ⟨rfl, rfl⟩)

theorem State.pondStep_keeps {q : List Instr} {j : TapSt} {b : TimeBase} {s : State} (hs : Keeps q j b s) :
    ∃ b', Keeps q j b' (State.pondStep s) := by
  unfold State.pondStep
  split
  · exact ⟨b, hs⟩
  split
  · rename_i d _ _
    dsimp only
    obtain ⟨b', h⟩ := State.stepPond_keeps d (State.stepRate_keeps d (State.stepReport_keeps d (stepValue s.time.t0 d) hs))
    have h1 := State.stepBlocks_keeps s.time.t0 (stepTarget s.time.t0 d) (State.stepState_keeps d h)
    refine ⟨b', keeps_ite h1 (keeps_ite (State.reseedFinish_keeps _ h1) ?_)⟩
    with_reducible exact keeps_mk h1 ⟨rfl, rfl, rfl, rfl, rfl⟩ ⟨rfl, rfl⟩
  · exact ⟨b, hs⟩

theorem State.reseedCome_keeps {q : List Instr} {j : TapSt} {b : TimeBase} {s : State}  (hs : Keeps q j b s) :
    Keeps q j b (State.reseedCome s) := by
  unfold State.reseedCome
  repeat' first
    | intro _
    | with_reducible assumption
    | with_reducible apply State.log_keeps
    | with_reducible apply keeps_ite
    | with_reducible rfl
    | (extract_lets +onlyGivenNames -underBinder x; first | (refine keeps_cut (q := q) (j := j) (b := b) (x := x) ?_ ?_ <;> first | (intro h0; generalize x = y at h0 ⊢; clear x) | intro h0 | subst x) | (have h0 := Nat.zero_le x; generalize x = y at h0 ⊢; clear h0 x) | subst x)
    | split
    | dsimp only
    | (with_reducible refine keeps_mk ?_ ⟨rfl, rfl, rfl, rfl, rfl⟩ ⟨rfl, rfl⟩)

theorem State.reseedHand_keeps {q : List Instr} {j : TapSt} {b : TimeBase} {s : State}  (hs : Keeps q j b s) :
    Keeps q j b (State.reseedHand s) := by
  unfold State.reseedHand
  repeat' first
    | intro _
    | with_reducible assumption
    | with_reducible apply State.handOver_keeps
    | with_reducible apply keeps_ite
    | with_reducible rfl
    | split
    | dsimp only
    | (with_reducible refine keeps_mk ?_ ⟨rfl, rfl, rfl, rfl, rfl⟩ ⟨rfl, rfl⟩)

theorem State.reseedLate_keeps {q : List Instr} {j : TapSt} {b : TimeBase} {s : State}  (hs : Keeps q j b s) :
    Keeps q j b (State.reseedLate s) := by
  unfold State.reseedLate
  repeat' first
    | intro _
    | with_reducible assumption
    | with_reducible apply State.set_keeps
    | with_reducible apply keeps_ite
    | with_reducible rfl
    | split
    | dsimp only
    | (with_reducible refine keeps_mk ?_ ⟨rfl, rfl, rfl, rfl, rfl⟩ ⟨rfl, rfl⟩)

theorem State.refLost_keeps {q : List Instr} {j : TapSt} {b : TimeBase} {s : State}  (hs : Keeps q j b s) :
    Keeps q j b (State.refLost s) := by
  unfold State.refLost
  repeat' first
    | intro _
    | with_reducible assumption
    | with_reducible apply State.refWake_keeps
    | with_reducible apply State.synthRefChange_keeps
    | with_reducible apply State.referenceLost_keeps
    | with_reducible apply keeps_ite
    | with_reducible rfl
    | split
    | dsimp only
    | (with_reducible refine keeps_mk ?_ ⟨rfl, rfl, rfl, rfl, rfl⟩ ⟨rfl, rfl⟩)

theorem State.refReturns_keeps {q : List Instr} {j : TapSt} {b : TimeBase} {s : State}  (hs : Keeps q j b s) :
    Keeps q j b (State.refReturns s) := by
  unfold State.refReturns
  repeat' first
    | intro _
    | with_reducible assumption
    | with_reducible apply State.referenceReturning_keeps
    | with_reducible apply keeps_ite
    | with_reducible rfl
    | split
    | dsimp only
    | (with_reducible refine keeps_mk ?_ ⟨rfl, rfl, rfl, rfl, rfl⟩ ⟨rfl, rfl⟩)

theorem State.refValid_keeps {q : List Instr} {j : TapSt} {b : TimeBase} {s : State}  (hs : Keeps q j b s) :
    Keeps q j b (State.refValid s) := by
  unfold State.refValid
  repeat' first
    | intro _
    | with_reducible assumption
    | with_reducible apply State.synthRefChange_keeps
    | with_reducible apply State.referenceValid_keeps
    | with_reducible apply keeps_ite
    | with_reducible rfl
    | (extract_lets +onlyGivenNames -underBinder x; first | (refine keeps_cut (q := q) (j := j) (b := b) (x := x) ?_ ?_ <;> first | (intro h0; generalize x = y at h0 ⊢; clear x) | intro h0 | subst x) | (have h0 := Nat.zero_le x; generalize x = y at h0 ⊢; clear h0 x) | subst x)
    | split
    | dsimp only
    | (with_reducible refine keeps_mk ?_ ⟨rfl, rfl, rfl, rfl, rfl⟩ ⟨rfl, rfl⟩)

/-! ### VMem -/

theorem State.userStop_keeps {q : List Instr} {j : TapSt} {b : TimeBase} {s : State}  (hs : Keeps q j b s) :
    Keeps q j b (State.userStop s) := by
  unfold State.userStop
  repeat' first
    | intro _
    | with_reducible assumption
    | with_reducible rfl
    | dsimp only
    | (with_reducible refine keeps_mk ?_ ⟨rfl, rfl, rfl, rfl, rfl⟩ ⟨rfl, rfl⟩)

theorem State.mailbox_keeps {q : List Instr} {j : TapSt} {b : TimeBase} {s : State} (w : Word) (hs : Keeps q j b s) :
    Keeps q j b (State.mailbox s w) := by
  unfold State.mailbox
  repeat' first
    | intro _
    | with_reducible assumption
    | with_reducible apply State.raiseInt_keeps
    | with_reducible apply keeps_foldl
    | with_reducible apply keeps_foldl_fst
    | with_reducible apply keeps_ite
    | with_reducible rfl
    | split
    | dsimp only
    | (with_reducible refine keeps_mk ?_ ⟨rfl, rfl, rfl, rfl, rfl⟩ ⟨rfl, rfl⟩)

theorem State.tickNow_keeps {q : List Instr} {j : TapSt} {b : TimeBase} {s : State} (c : Nat) (hs : Keeps q j b s) :
    Keeps q j b (State.tickNow s c).2 := by
  unfold State.tickNow
  repeat' first
    | intro _
    | with_reducible assumption
    | with_reducible apply State.modCore_keeps
    | with_reducible apply State.tick_keeps
    | with_reducible apply keeps_ite_snd
    | with_reducible rfl
    | (extract_lets +onlyGivenNames -underBinder x; first | (refine keeps_cut (q := q) (j := j) (b := b) (x := x) ?_ ?_ <;> first | (intro h0; generalize x = y at h0 ⊢; clear x) | intro h0 | subst x) | (have h0 := Nat.zero_le x; generalize x = y at h0 ⊢; clear h0 x) | subst x)
    | dsimp only
    | (with_reducible refine keeps_mk ?_ ⟨rfl, rfl, rfl, rfl, rfl⟩ ⟨rfl, rfl⟩)

theorem State.tickDone_keeps {q : List Instr} {j : TapSt} {b : TimeBase} {s : State} (c : Nat) (hs : Keeps q j b s) :
    Keeps q j b (State.tickDone s c) := by
  unfold State.tickDone
  repeat' first
    | intro _
    | with_reducible assumption
    | with_reducible apply State.modCore_keeps
    | with_reducible apply keeps_ite
    | with_reducible rfl
    | (extract_lets +onlyGivenNames -underBinder x; first | (refine keeps_cut (q := q) (j := j) (b := b) (x := x) ?_ ?_ <;> first | (intro h0; generalize x = y at h0 ⊢; clear x) | intro h0 | subst x) | (have h0 := Nat.zero_le x; generalize x = y at h0 ⊢; clear h0 x) | subst x)
    | split
    | dsimp only
    | (with_reducible refine keeps_mk ?_ ⟨rfl, rfl, rfl, rfl, rfl⟩ ⟨rfl, rfl⟩)

theorem State.ncoCommit_keeps {q : List Instr} {j : TapSt} {b : TimeBase} {s : State} (n : Nat) (hs : Keeps q j b s) :
    Keeps q j b (State.ncoCommit s n) := by
  unfold State.ncoCommit
  repeat' first
    | intro _
    | with_reducible assumption
    | with_reducible apply State.set_keeps
    | with_reducible apply keeps_ite
    | with_reducible rfl
    | (extract_lets +onlyGivenNames -underBinder x; first | (refine keeps_cut (q := q) (j := j) (b := b) (x := x) ?_ ?_ <;> first | (intro h0; generalize x = y at h0 ⊢; clear x) | intro h0 | subst x) | (have h0 := Nat.zero_le x; generalize x = y at h0 ⊢; clear h0 x) | subst x)
    | split
    | dsimp only
    | (with_reducible refine keeps_mk ?_ ⟨rfl, rfl, rfl, rfl, rfl⟩ ⟨rfl, rfl⟩)

theorem CoreSt.land1_mem (k : CoreSt) (e : Exposed) : (k.land1 e).mem = k.mem := by
  unfold CoreSt.land1
  dsimp only
  split <;> split <;> rfl

theorem CoreSt.landWhere_mem (k : CoreSt) (p : Exposed → Bool) : (k.landWhere p).mem = k.mem := by
  unfold CoreSt.landWhere
  dsimp only
  generalize k.exposed.filter p = l
  have h : ∀ (l : List Exposed) (k : CoreSt), (l.foldl CoreSt.land1 k).mem = k.mem := by
    intro l
    induction l with
    | nil => intro _; rfl
    | cons a l ih => intro k; rw [List.foldl_cons, ih, CoreSt.land1_mem]
  rw [h]

theorem CoreSt.modify_mem (k : CoreSt) (sh : List (Nat × Word)) (p : Option (Nat × Word)) : (k.modify sh p).mem = k.mem := by
  unfold CoreSt.modify
  split
  · rfl
  · split <;> rfl

theorem memR_ok {k t : CoreSt} (h : t.mem = k.mem) : ∀ u, (.ok t : Except Trap CoreSt) = .ok u → u.mem = k.mem := by
  intro u e
  cases e
  exact h

theorem memR_error {k : CoreSt} (e : Trap) : ∀ u, (.error e : Except Trap CoreSt) = .ok u → u.mem = k.mem := by
  intro u h
  cases h

theorem memR_ite {k : CoreSt} {c : Prop} [Decidable c] {x y : Except Trap CoreSt} (hx : ∀ u, x = .ok u → u.mem = k.mem)
    (hy : ∀ u, y = .ok u → u.mem = k.mem) : ∀ u, (if c then x else y) = .ok u → u.mem = k.mem := by
  split <;> assumption

theorem CoreSt.writeReg_mem (k : CoreSt) (core c : Nat) (w : Word) : ∀ t, k.writeReg core c w = .ok t → t.mem = k.mem := by
  unfold CoreSt.writeReg
  extract_lets +onlyGivenNames k'
  have hk : k'.mem = k.mem := by
    subst k'
    split <;> rfl
  clear_value k'
  repeat' refine memR_ite ?_ ?_
  all_goals first
    | exact memR_error _
    | exact memR_ok hk
    | exact memR_ok ((CoreSt.landWhere_mem _ _).trans hk)

theorem State.dauGo_keeps {q : List Instr} {j : TapSt} {b : TimeBase} {s : State} (c : Nat) (hs : Keeps q j b s) :
    KeepsOk q j b (State.dauGo s c) := by
  unfold State.dauGo
  repeat' first
    | with_reducible assumption
    | with_reducible apply keepsOk_ok
    | with_reducible apply keepsOk_error
    | with_reducible apply keepsOk2_ok
    | with_reducible apply keepsOk2_error
    | with_reducible apply State.modCore_keeps
    | with_reducible rfl
    | (extract_lets +onlyGivenNames -underBinder x; first | (refine keeps_cut (q := q) (j := j) (b := b) (x := x) ?_ ?_ <;> first | (intro h0; generalize x = y at h0 ⊢; clear x) | intro h0 | subst x) | (have h0 := Nat.zero_le x; generalize x = y at h0 ⊢; clear h0 x) | subst x)
    | intro _
    | with_reducible apply keepsOk_ite
    | with_reducible apply keepsOk2_ite
    | with_reducible apply keeps_ite
    | split
    | dsimp only
    | (with_reducible refine keeps_mk ?_ ⟨rfl, rfl, rfl, rfl, rfl⟩ ⟨rfl, rfl⟩)

theorem State.specRead_keeps {q : List Instr} {j : TapSt} {b : TimeBase} {s : State} (c a : Nat) (hs : Keeps q j b s) :
    KeepsOk2 q j b (State.specRead s c a) := by
  unfold State.specRead
  repeat' first
    | with_reducible assumption
    | with_reducible apply keepsOk_ok
    | with_reducible apply keepsOk_error
    | with_reducible apply keepsOk2_ok
    | with_reducible apply keepsOk2_error
    | with_reducible apply State.tickNow_keeps
    | with_reducible apply State.timerRead_keeps
    | with_reducible apply State.modCore_keeps
    | with_reducible rfl
    | (extract_lets +onlyGivenNames -underBinder x; first | (refine keeps_cut (q := q) (j := j) (b := b) (x := x) ?_ ?_ <;> first | (intro h0; generalize x = y at h0 ⊢; clear x) | intro h0 | subst x) | (have h0 := Nat.zero_le x; generalize x = y at h0 ⊢; clear h0 x) | subst x)
    | intro _
    | with_reducible apply keepsOk_ite
    | with_reducible apply keepsOk2_ite
    | with_reducible apply keeps_ite
    | split
    | dsimp only
    | (with_reducible refine keeps_mk ?_ ⟨rfl, rfl, rfl, rfl, rfl⟩ ⟨rfl, rfl⟩)

theorem State.ringWrite_keeps {q : List Instr} {j : TapSt} {b : TimeBase} {s : State} (c r o : Nat) (w : Word) (hs : Keeps q j b s) :
    KeepsOk q j b (State.ringWrite s c r o w) := by
  unfold State.ringWrite
  repeat' first
    | with_reducible assumption
    | with_reducible apply keepsOk_ok
    | with_reducible apply keepsOk_error
    | with_reducible apply keepsOk2_ok
    | with_reducible apply keepsOk2_error
    | with_reducible apply State.ringHead_keeps
    | with_reducible apply State.modCore_keeps
    | with_reducible apply CoreSt.modRing_mem
    | with_reducible rfl
    | (extract_lets +onlyGivenNames -underBinder x; first | (refine keeps_cut (q := q) (j := j) (b := b) (x := x) ?_ ?_ <;> first | (intro h0; generalize x = y at h0 ⊢; clear x) | intro h0 | subst x) | (have h0 := Nat.zero_le x; generalize x = y at h0 ⊢; clear h0 x) | subst x)
    | intro _
    | with_reducible apply keepsOk_ite
    | with_reducible apply keepsOk2_ite
    | with_reducible apply keeps_ite
    | split
    | dsimp only
    | (with_reducible refine keeps_mk ?_ ⟨rfl, rfl, rfl, rfl, rfl⟩ ⟨rfl, rfl⟩)

theorem State.specWrite_keeps {q : List Instr} {j : TapSt} {b : TimeBase} {s : State} (c a : Nat) (w : Word) (hs : Keeps q j b s) :
    KeepsOk q j b (State.specWrite s c a w) := by
  unfold State.specWrite
  repeat' first
    | with_reducible assumption
    | with_reducible apply keepsOk_ok
    | with_reducible apply keepsOk_error
    | with_reducible apply keepsOk2_ok
    | with_reducible apply keepsOk2_error
    | with_reducible apply State.ringWrite_keeps
    | with_reducible apply State.timerWrite_keeps
    | with_reducible apply State.dauGo_keeps
    | with_reducible apply State.tickDone_keeps
    | with_reducible apply State.mailbox_keeps
    | with_reducible apply State.ncoCommit_keeps
    | with_reducible apply State.modCore_keeps
    | with_reducible rfl
    | (extract_lets +onlyGivenNames -underBinder x; first | (refine keeps_cut (q := q) (j := j) (b := b) (x := x) ?_ ?_ <;> first | (intro h0; generalize x = y at h0 ⊢; clear x) | intro h0 | subst x) | (have h0 := Nat.zero_le x; generalize x = y at h0 ⊢; clear h0 x) | subst x)
    | intro _
    | with_reducible apply keepsOk_ite
    | with_reducible apply keepsOk2_ite
    | with_reducible apply keeps_ite
    | split
    | dsimp only
    | (with_reducible refine keeps_mk ?_ ⟨rfl, rfl, rfl, rfl, rfl⟩ ⟨rfl, rfl⟩)

theorem State.readWord_keeps {q : List Instr} {j : TapSt} {b : TimeBase} {s : State} (c : Nat) (a : Word) (hs : Keeps q j b s) :
    KeepsOk2 q j b (State.readWord s c a) := by
  unfold State.readWord
  repeat' first
    | with_reducible assumption
    | with_reducible apply keepsOk_ok
    | with_reducible apply keepsOk_error
    | with_reducible apply keepsOk2_ok
    | with_reducible apply keepsOk2_error
    | with_reducible apply State.specRead_keeps
    | with_reducible apply State.modCore_keeps
    | with_reducible rfl
    | (extract_lets +onlyGivenNames -underBinder x; first | (refine keeps_cut (q := q) (j := j) (b := b) (x := x) ?_ ?_ <;> first | (intro h0; generalize x = y at h0 ⊢; clear x) | intro h0 | subst x) | (have h0 := Nat.zero_le x; generalize x = y at h0 ⊢; clear h0 x) | subst x)
    | intro _
    | with_reducible apply keepsOk_ite
    | with_reducible apply keepsOk2_ite
    | with_reducible apply keeps_ite
    | split
    | dsimp only
    | (with_reducible refine keeps_mk ?_ ⟨rfl, rfl, rfl, rfl, rfl⟩ ⟨rfl, rfl⟩)

theorem State.writeWord_keeps {q : List Instr} {j : TapSt} {b : TimeBase} {s : State} (c : Nat) (a w : Word) (hs : Keeps q j b s) :
    KeepsOk q j b (State.writeWord s c a w) := by
  unfold State.writeWord
  repeat' first
    | with_reducible assumption
    | with_reducible apply keepsOk_ok
    | with_reducible apply keepsOk_error
    | with_reducible apply keepsOk2_ok
    | with_reducible apply keepsOk2_error
    | with_reducible apply State.specWrite_keeps
    | with_reducible apply State.plainSet_keeps
    | with_reducible apply State.modCore_keeps
    | with_reducible rfl
    | (extract_lets +onlyGivenNames -underBinder x; first | (refine keeps_cut (q := q) (j := j) (b := b) (x := x) ?_ ?_ <;> first | (intro h0; generalize x = y at h0 ⊢; clear x) | intro h0 | subst x) | (have h0 := Nat.zero_le x; generalize x = y at h0 ⊢; clear h0 x) | subst x)
    | intro _
    | with_reducible apply keepsOk_ite
    | with_reducible apply keepsOk2_ite
    | with_reducible apply keeps_ite
    | split
    | dsimp only
    | (with_reducible refine keeps_mk ?_ ⟨rfl, rfl, rfl, rfl, rfl⟩ ⟨rfl, rfl⟩)

theorem State.push_keeps {q : List Instr} {j : TapSt} {b : TimeBase} {s : State} (c : Nat) (w : Word) (hs : Keeps q j b s) :
    KeepsOk q j b (State.push s c w) := by
  unfold State.push
  dsimp only
  have h := State.writeWord_keeps c ((s.core c).sp - 1) w hs
  split
  · split <;> exact keepsOk_error _
  · split
    · exact keepsOk_error _
    · exact keepsOk_ok (State.modCore_keeps _ _ (h.ok _ (by with_reducible assumption)) fun _ => rfl)

theorem State.pop_keeps {q : List Instr} {j : TapSt} {b : TimeBase} {s : State} (c : Nat) (hs : Keeps q j b s) :
    KeepsOk2 q j b (State.pop s c) := by
  unfold State.pop
  dsimp only
  have h := State.readWord_keeps c (s.core c).sp hs
  split
  · split <;> exact keepsOk2_error _
  · split
    · exact keepsOk2_error _
    · exact keepsOk2_ok (State.modCore_keeps _ _ (h.ok _ (by with_reducible assumption)) fun _ => rfl)

/-! ### Vuvan -/

theorem CoreSt.expose_mem (k : CoreSt) (t : Nat) (pc : Word) (dest : Nat) (r : FReg × FExc) (lat : Nat) (busy : Bool) :
    (k.expose t pc dest r lat busy).mem = k.mem := rfl

theorem CoreSt.fpExc_mem (k : CoreSt) (pc : Word) (e : FExc) : (k.fpExc pc e).mem = k.mem := by
  unfold CoreSt.fpExc
  dsimp only
  split <;> rfl

theorem CoreSt.search_mem (k : CoreSt) (gd : Nat) (m : Bool) (v i : Word) : (k.search gd m v i).mem = k.mem := by
  unfold CoreSt.search
  split <;> rfl

theorem CoreSt.aluRun_mem (k : CoreSt) (t : Nat) (pc : Word) (op : Alu) (gd : Nat) (a b : Word) :
    (k.aluRun t pc op gd a b).mem = k.mem := by
  unfold CoreSt.aluRun
  split <;> first | rfl | exact CoreSt.search_mem _ _ _ _ _ | (dsimp only; split <;> rfl)

theorem CoreSt.accRun_mem (k : CoreSt) (op : AccOp) (w : Word) : (k.accRun op w).mem = k.mem := by
  unfold CoreSt.accRun
  dsimp only
  split <;> rfl

theorem CoreSt.fpRun_mem (k : CoreSt) (t : Nat) (pc : Word) (op : FOp) (w : Word) : (k.fpRun t pc op w).mem = k.mem := by
  unfold CoreSt.fpRun
  dsimp only
  split
  · exact CoreSt.fpExc_mem _ _ _
  · rw [CoreSt.expose_mem]
    dsimp only
    split
    · exact CoreSt.landWhere_mem _ _
    · rfl

theorem CoreSt.fcvRun_mem (k : CoreSt) (t : Nat) (pc : Word) (op : FConv) (w : Word) : (k.fcvRun t pc op w).mem = k.mem := by
  unfold CoreSt.fcvRun
  dsimp only
  split <;> first | exact CoreSt.fpExc_mem _ _ _ | exact CoreSt.expose_mem _ _ _ _ _ _ _

theorem CoreSt.loopRun_mem (k : CoreSt) (count : Nat) (le : Word) : ∀ t, k.loopRun count le = .ok t → t.mem = k.mem := by
  unfold CoreSt.loopRun
  dsimp only
  refine memR_ite (memR_error _) (memR_ite (memR_ok rfl) (memR_ok rfl))

theorem CoreSt.loopEnd_mem (k : CoreSt) (sh : List (Nat × Word)) (pc : Word) : (k.loopEnd sh pc).mem = k.mem := by
  unfold CoreSt.loopEnd
  dsimp only
  repeat' split
  all_goals rfl

theorem State.tryCore_keeps {q : List Instr} {j : TapSt} {b : TimeBase} {s : State} (c : Nat) (f : CoreSt → Except Trap CoreSt)
    (hs : Keeps q j b s) (hf : ∀ k t, f k = .ok t → t.mem = k.mem) : KeepsOk q j b (State.tryCore s c f) := by
  unfold State.tryCore
  split
  · rename_i k e
    refine keepsOk_ok (keeps_cpu hs fun m => ⟨m.1, fun i => ?_⟩)
    show SMap.wf _ ((vecMod s.cpu.core c fun _ => k)[i]).mem = true
    rw [vecMod_get]
    split
    · rename_i hc
      rw [hf _ _ e, ← hc]
      have h2 := m.2 i
      rw [show s.core i.val = s.cpu.core[i] from by simp [State.core, Vector.getD]]
      exact h2
    · exact m.2 i
  · exact keepsOk_error _

theorem State.waitRun_keeps {q : List Instr} {j : TapSt} {b : TimeBase} {s : State} (c : Nat) (pc : Word) (hs : Keeps q j b s) :
    Keeps q j b (State.waitRun s c pc) := by
  unfold State.waitRun
  repeat' first
    | intro _
    | with_reducible assumption
    | with_reducible apply State.modCore_keeps
    | with_reducible apply State.tickDone_keeps
    | with_reducible apply State.userStop_keeps
    | with_reducible apply keeps_ite
    | with_reducible rfl
    | (extract_lets +onlyGivenNames -underBinder x; first | (refine keeps_cut (q := q) (j := j) (b := b) (x := x) ?_ ?_ <;> first | (intro h0; generalize x = y at h0 ⊢; clear x) | intro h0 | subst x) | (have h0 := Nat.zero_le x; generalize x = y at h0 ⊢; clear h0 x) | subst x)
    | split
    | dsimp only
    | (with_reducible refine keeps_mk ?_ ⟨rfl, rfl, rfl, rfl, rfl⟩ ⟨rfl, rfl⟩)

theorem State.putReg_keeps {q : List Instr} {j : TapSt} {b : TimeBase} {s : State} (c code : Nat) (w : Word) (hs : Keeps q j b s) :
    KeepsOk q j b (State.putReg s c code w) := by
  unfold State.putReg
  repeat' first
    | with_reducible assumption
    | with_reducible apply keepsOk_ok
    | with_reducible apply keepsOk_error
    | with_reducible apply keepsOk2_ok
    | with_reducible apply keepsOk2_error
    | with_reducible apply keepsOk_bind
    | with_reducible apply State.tryCore_keeps
    | with_reducible rfl
    | exact fun k => CoreSt.writeReg_mem k _ _ _
    | exact fun k => CoreSt.loopRun_mem k _ _
    | (extract_lets +onlyGivenNames -underBinder x; first | (refine keeps_cut (q := q) (j := j) (b := b) (x := x) ?_ ?_ <;> first | (intro h0; generalize x = y at h0 ⊢; clear x) | intro h0 | subst x) | (have h0 := Nat.zero_le x; generalize x = y at h0 ⊢; clear h0 x) | subst x)
    | intro _
    | with_reducible apply keepsOk_ite
    | with_reducible apply keepsOk2_ite
    | with_reducible apply keeps_ite
    | split
    | dsimp only
    | (with_reducible refine keeps_mk ?_ ⟨rfl, rfl, rfl, rfl, rfl⟩ ⟨rfl, rfl⟩)

theorem State.rtiRun_keeps {q : List Instr} {j : TapSt} {b : TimeBase} {s : State} (c : Nat) (hs : Keeps q j b s) :
    KeepsOk q j b (State.rtiRun s c) := by
  unfold State.rtiRun
  repeat' first
    | with_reducible assumption
    | with_reducible apply keepsOk_ok
    | with_reducible apply keepsOk_error
    | with_reducible apply keepsOk2_ok
    | with_reducible apply keepsOk2_error
    | with_reducible apply keepsOk2_bind
    | with_reducible apply keepsOk_bind
    | with_reducible apply State.pop_keeps
    | with_reducible apply State.putReg_keeps
    | with_reducible apply State.modCore_keeps
    | with_reducible rfl
    | exact fun k => CoreSt.writeReg_mem k _ _ _
    | exact fun k => CoreSt.loopRun_mem k _ _
    | (extract_lets +onlyGivenNames -underBinder x; first | (refine keeps_cut (q := q) (j := j) (b := b) (x := x) ?_ ?_ <;> first | (intro h0; generalize x = y at h0 ⊢; clear x) | intro h0 | subst x) | (have h0 := Nat.zero_le x; generalize x = y at h0 ⊢; clear h0 x) | subst x)
    | intro _
    | with_reducible apply keepsOk_ite
    | with_reducible apply keepsOk2_ite
    | with_reducible apply keeps_ite
    | split
    | dsimp only
    | (with_reducible refine keeps_mk ?_ ⟨rfl, rfl, rfl, rfl, rfl⟩ ⟨rfl, rfl⟩)

theorem State.jump_keeps {q : List Instr} {j : TapSt} {b : TimeBase} {s : State} (c : Nat) (a : Word) (hs : Keeps q j b s) :
    Keeps q j b (State.jump s c a) := by
  unfold State.jump
  repeat' first
    | intro _
    | with_reducible assumption
    | with_reducible apply State.modCore_keeps
    | with_reducible rfl
    | dsimp only
    | (with_reducible refine keeps_mk ?_ ⟨rfl, rfl, rfl, rfl, rfl⟩ ⟨rfl, rfl⟩)

theorem State.callTo_keeps {q : List Instr} {j : TapSt} {b : TimeBase} {s : State} (c : Nat) (a : Word) (hs : Keeps q j b s) :
    KeepsOk q j b (State.callTo s c a) := by
  unfold State.callTo
  repeat' first
    | with_reducible assumption
    | with_reducible apply keepsOk_ok
    | with_reducible apply keepsOk_error
    | with_reducible apply keepsOk2_ok
    | with_reducible apply keepsOk2_error
    | with_reducible apply keepsOk_bind
    | with_reducible apply State.push_keeps
    | with_reducible apply State.modCore_keeps
    | with_reducible rfl
    | (extract_lets +onlyGivenNames -underBinder x; first | (refine keeps_cut (q := q) (j := j) (b := b) (x := x) ?_ ?_ <;> first | (intro h0; generalize x = y at h0 ⊢; clear x) | intro h0 | subst x) | (have h0 := Nat.zero_le x; generalize x = y at h0 ⊢; clear h0 x) | subst x)
    | intro _
    | with_reducible apply keepsOk_ite
    | with_reducible apply keepsOk2_ite
    | with_reducible apply keeps_ite
    | split
    | dsimp only
    | (with_reducible refine keeps_mk ?_ ⟨rfl, rfl, rfl, rfl, rfl⟩ ⟨rfl, rfl⟩)

theorem State.vEffect_keeps {q : List Instr} {j : TapSt} {b : TimeBase} {s : State} (c : Nat) (sh : List (Nat × Word)) (t : Nat) (pc : Word) (op : VOp) (w x : Word) (hs : Keeps q j b s) :
    KeepsOk q j b (State.vEffect s c sh t pc op w x) := by
  unfold State.vEffect
  repeat' first
    | with_reducible assumption
    | with_reducible apply keepsOk_ok
    | with_reducible apply keepsOk_error
    | with_reducible apply keepsOk2_ok
    | with_reducible apply keepsOk2_error
    | with_reducible apply keepsOk2_bind
    | with_reducible apply keepsOk_bind
    | with_reducible apply State.waitRun_keeps
    | with_reducible apply State.jump_keeps
    | with_reducible apply State.rtiRun_keeps
    | with_reducible apply State.callTo_keeps
    | with_reducible apply State.push_keeps
    | with_reducible apply State.pop_keeps
    | with_reducible apply State.readWord_keeps
    | with_reducible apply State.writeWord_keeps
    | with_reducible apply State.putReg_keeps
    | with_reducible apply State.tryCore_keeps
    | with_reducible apply State.modCore_keeps
    | with_reducible rfl
    | (simp only [CoreSt.landWhere_mem, CoreSt.modify_mem, CoreSt.aluRun_mem, CoreSt.accRun_mem, CoreSt.fpRun_mem, CoreSt.fcvRun_mem, CoreSt.search_mem]; done)
    | exact fun k => CoreSt.writeReg_mem k _ _ _
    | exact fun k => CoreSt.loopRun_mem k _ _
    | (extract_lets +onlyGivenNames -underBinder x; first | (refine keeps_cut (q := q) (j := j) (b := b) (x := x) ?_ ?_ <;> first | (intro h0; generalize x = y at h0 ⊢; clear x) | intro h0 | subst x) | (have h0 := Nat.zero_le x; generalize x = y at h0 ⊢; clear h0 x) | subst x)
    | intro _
    | with_reducible apply keepsOk_ite
    | with_reducible apply keepsOk2_ite
    | with_reducible apply keeps_ite
    | split
    | dsimp only
    | (with_reducible refine keeps_mk ?_ ⟨rfl, rfl, rfl, rfl, rfl⟩ ⟨rfl, rfl⟩)

theorem State.userTrap_keeps {q : List Instr} {j : TapSt} {b : TimeBase} {s : State} (t : Trap) (hs : Keeps q j b s) :
    Keeps q j b (State.userTrap s t) := by
  unfold State.userTrap
  repeat' first
    | intro _
    | with_reducible assumption
    | with_reducible apply State.set_keeps
    | with_reducible apply State.flag_keeps
    | with_reducible apply keeps_ite
    | with_reducible rfl
    | (extract_lets +onlyGivenNames -underBinder x; first | (refine keeps_cut (q := q) (j := j) (b := b) (x := x) ?_ ?_ <;> first | (intro h0; generalize x = y at h0 ⊢; clear x) | intro h0 | subst x) | (have h0 := Nat.zero_le x; generalize x = y at h0 ⊢; clear h0 x) | subst x)
    | split
    | dsimp only
    | (with_reducible refine keeps_mk ?_ ⟨rfl, rfl, rfl, rfl, rfl⟩ ⟨rfl, rfl⟩)

theorem State.stackTrap_keeps {q : List Instr} {j : TapSt} {b : TimeBase} {s : State} (c : Nat) (pc : Word) (hs : Keeps q j b s) :
    Keeps q j b (State.stackTrap s c pc) := by
  unfold State.stackTrap
  repeat' first
    | intro _
    | with_reducible assumption
    | with_reducible apply State.modCore_keeps
    | with_reducible apply State.userTrap_keeps
    | with_reducible apply State.userStop_keeps
    | with_reducible apply keeps_ite
    | with_reducible rfl
    | (extract_lets +onlyGivenNames -underBinder x; first | (refine keeps_cut (q := q) (j := j) (b := b) (x := x) ?_ ?_ <;> first | (intro h0; generalize x = y at h0 ⊢; clear x) | intro h0 | subst x) | (have h0 := Nat.zero_le x; generalize x = y at h0 ⊢; clear h0 x) | subst x)
    | split
    | dsimp only
    | (with_reducible refine keeps_mk ?_ ⟨rfl, rfl, rfl, rfl, rfl⟩ ⟨rfl, rfl⟩)

theorem State.vectorEntry_keeps {q : List Instr} {j : TapSt} {b : TimeBase} {s t : State} {c : Nat} {pushed vector : Word} {keepU : Bool}
    (h : s.vectorEntry c pushed vector keepU = some t) (hs : Keeps q j b s) : Keeps q j b t := by
  unfold State.vectorEntry at h
  have k : KeepsOk q j b (do let t ← s.push c pushed; t.push c (s.core c).stRead : Except Trap State) :=
    keepsOk_bind (State.push_keeps _ _ hs) fun t h => State.push_keeps _ _ h
  split at h
  · cases h
  · rename_i u e
    cases h
    exact State.modCore_keeps _ _ (k.ok u e) fun _ => rfl

theorem State.takeTrap_keeps {q : List Instr} {j : TapSt} {b : TimeBase} {s : State} (c : Nat) (t : Trap) (pc : Word) (pushed : Word) (hs : Keeps q j b s) :
    Keeps q j b (State.takeTrap s c t pc pushed) := by
  unfold State.takeTrap
  repeat' first
    | intro _
    | with_reducible assumption
    | with_reducible apply State.modCore_keeps
    | with_reducible apply State.stackTrap_keeps
    | with_reducible apply State.userTrap_keeps
    | with_reducible apply State.userStop_keeps
    | exact CoreSt.landWhere_mem _ _
    | (with_reducible refine State.vectorEntry_keeps (by with_reducible assumption) ?_)
    | with_reducible apply keeps_ite
    | with_reducible rfl
    | (extract_lets +onlyGivenNames -underBinder x; first | (refine keeps_cut (q := q) (j := j) (b := b) (x := x) ?_ ?_ <;> first | (intro h0; generalize x = y at h0 ⊢; clear x) | intro h0 | subst x) | (have h0 := Nat.zero_le x; generalize x = y at h0 ⊢; clear h0 x) | subst x)
    | split
    | dsimp only
    | (with_reducible refine keeps_mk ?_ ⟨rfl, rfl, rfl, rfl, rfl⟩ ⟨rfl, rfl⟩)

theorem State.dueTraps_keeps {q : List Instr} {j : TapSt} {b : TimeBase} {s : State} (c : Nat) (hs : Keeps q j b s) :
    Keeps q j b (State.dueTraps s c) := by
  unfold State.dueTraps
  repeat' first
    | intro _
    | with_reducible assumption
    | with_reducible apply State.modCore_keeps
    | with_reducible apply State.takeTrap_keeps
    | with_reducible apply keeps_foldl
    | with_reducible apply keeps_foldl_fst
    | with_reducible apply keeps_ite
    | with_reducible rfl
    | (extract_lets +onlyGivenNames -underBinder x; first | (refine keeps_cut (q := q) (j := j) (b := b) (x := x) ?_ ?_ <;> first | (intro h0; generalize x = y at h0 ⊢; clear x) | intro h0 | subst x) | (have h0 := Nat.zero_le x; generalize x = y at h0 ⊢; clear h0 x) | subst x)
    | split
    | dsimp only
    | (with_reducible refine keeps_mk ?_ ⟨rfl, rfl, rfl, rfl, rfl⟩ ⟨rfl, rfl⟩)

theorem State.runOnce_keeps {q : List Instr} {j : TapSt} {b : TimeBase} {s t : State} {c : Nat} {op : VOp} {pc next w x : Word}
    (h : s.runOnce c op pc next w x = .ok t) (hs : Keeps q j b s) : Keeps q j b t :=
  (State.vEffect_keeps _ _ _ _ _ _ _ (State.modCore_keeps c (fun k => { k with pcx := next, shadow := [], cyc := k.cyc + vCycles op w }) hs fun _ => rfl)).ok t h

theorem State.issue_keeps {q : List Instr} {j : TapSt} {b : TimeBase} {s : State} (c : Nat) (w : Word) (x : Word) (hs : Keeps q j b s) :
    Keeps q j b (State.issue s c w x) := by
  unfold State.issue
  repeat' first
    | intro _
    | with_reducible assumption
    | with_reducible apply State.modCore_keeps
    | with_reducible apply State.takeTrap_keeps
    | exact CoreSt.loopEnd_mem _ _ _
    | (with_reducible refine State.runOnce_keeps (by with_reducible assumption) ?_)
    | with_reducible apply keeps_ite
    | with_reducible rfl
    | (extract_lets +onlyGivenNames -underBinder x; first | (refine keeps_cut (q := q) (j := j) (b := b) (x := x) ?_ ?_ <;> first | (intro h0; generalize x = y at h0 ⊢; clear x) | intro h0 | subst x) | (have h0 := Nat.zero_le x; generalize x = y at h0 ⊢; clear h0 x) | subst x)
    | split
    | dsimp only
    | (with_reducible refine keeps_mk ?_ ⟨rfl, rfl, rfl, rfl, rfl⟩ ⟨rfl, rfl⟩)

theorem State.modCpu_keeps {q : List Instr} {j : TapSt} {b : TimeBase} {s : State} (f : CoresSt → CoresSt) (hs : Keeps q j b s)
    (hf : ∀ k, (f k).shared = k.shared ∧ (f k).core = k.core) : Keeps q j b (State.modCpu s f) :=
  keeps_mk hs ⟨rfl, rfl, rfl, rfl, rfl⟩ (hf s.cpu)

theorem State.overrun_keeps {q : List Instr} {j : TapSt} {b : TimeBase} {s : State} (c : Nat) (hs : Keeps q j b s) :
    Keeps q j b (State.overrun s c) := by
  unfold State.overrun
  repeat' first
    | intro _
    | with_reducible assumption
    | with_reducible apply State.bump_keeps
    | with_reducible apply State.modCore_keeps
    | with_reducible apply State.raise_keeps
    | with_reducible rfl
    | (extract_lets +onlyGivenNames -underBinder x; first | (refine keeps_cut (q := q) (j := j) (b := b) (x := x) ?_ ?_ <;> first | (intro h0; generalize x = y at h0 ⊢; clear x) | intro h0 | subst x) | (have h0 := Nat.zero_le x; generalize x = y at h0 ⊢; clear h0 x) | subst x)
    | dsimp only
    | (with_reducible refine keeps_mk ?_ ⟨rfl, rfl, rfl, rfl, rfl⟩ ⟨rfl, rfl⟩)

theorem State.haltCore_keeps {q : List Instr} {j : TapSt} {b : TimeBase} {s : State} (c : Nat) (hs : Keeps q j b s) :
    Keeps q j b (State.haltCore s c) := by
  unfold State.haltCore
  repeat' first
    | intro _
    | with_reducible assumption
    | with_reducible apply State.set_keeps
    | with_reducible apply State.bump_keeps
    | with_reducible apply State.userStop_keeps
    | with_reducible apply State.raise_keeps
    | with_reducible apply keeps_ite
    | with_reducible rfl
    | (extract_lets +onlyGivenNames -underBinder x; first | (refine keeps_cut (q := q) (j := j) (b := b) (x := x) ?_ ?_ <;> first | (intro h0; generalize x = y at h0 ⊢; clear x) | intro h0 | subst x) | (have h0 := Nat.zero_le x; generalize x = y at h0 ⊢; clear h0 x) | subst x)
    | split
    | dsimp only
    | (with_reducible refine keeps_mk ?_ ⟨rfl, rfl, rfl, rfl, rfl⟩ ⟨rfl, rfl⟩)

theorem State.coreOverrun_keeps {q : List Instr} {j : TapSt} {b : TimeBase} {s : State} (c : Nat) (hs : Keeps q j b s) :
    Keeps q j b (State.coreOverrun s c) := by
  unfold State.coreOverrun
  repeat' first
    | intro _
    | with_reducible assumption
    | with_reducible apply State.overrun_keeps
    | with_reducible apply State.modCpu_keeps
    | exact ⟨rfl, rfl⟩
    | with_reducible rfl
    | dsimp only
    | (with_reducible refine keeps_mk ?_ ⟨rfl, rfl, rfl, rfl, rfl⟩ ⟨rfl, rfl⟩)

theorem State.repHalt_keeps {q : List Instr} {j : TapSt} {b : TimeBase} {s : State} (c : Nat) (hs : Keeps q j b s) :
    Keeps q j b (State.repHalt s c) := by
  unfold State.repHalt
  repeat' first
    | intro _
    | with_reducible assumption
    | with_reducible apply State.coreOverrun_keeps
    | with_reducible apply State.haltCore_keeps
    | with_reducible apply State.tickDone_keeps
    | with_reducible apply keeps_ite
    | with_reducible rfl
    | (extract_lets +onlyGivenNames -underBinder x; first | (refine keeps_cut (q := q) (j := j) (b := b) (x := x) ?_ ?_ <;> first | (intro h0; generalize x = y at h0 ⊢; clear x) | intro h0 | subst x) | (have h0 := Nat.zero_le x; generalize x = y at h0 ⊢; clear h0 x) | subst x)
    | split
    | dsimp only
    | (with_reducible refine keeps_mk ?_ ⟨rfl, rfl, rfl, rfl, rfl⟩ ⟨rfl, rfl⟩)

theorem State.repeatRun_keeps {q : List Instr} {j : TapSt} {b : TimeBase} {s : State} (left n c : Nat) (op : VOp) (pc next w x : Word)
    (hs : Keeps q j b s) : Keeps q j b (State.repeatRun left n s c op pc next w x) := by
  induction n generalizing s with
  | zero =>
    unfold State.repeatRun
    exact keeps_ite hs (State.repHalt_keeps _ hs)
  | succ n ih =>
    unfold State.repeatRun
    dsimp only
    have h1 := State.modCore_keeps c (fun k => { k with nrep := BitVec.ofNat 24 (n + 1 + left) }) hs fun _ => rfl
    have h2 := State.modCore_keeps c (fun k => k.landWhere fun e => decide (e.due ≤ k.cyc)) h1 fun _ => CoreSt.landWhere_mem _ _
    split
    · exact State.takeTrap_keeps _ _ _ _ h2
    · have h3 := State.runOnce_keeps (by with_reducible assumption) h2
      have h4 := State.modCore_keeps c (fun k => { k with nrep := BitVec.ofNat 24 (n + left) }) h3 fun _ => rfl
      split
      · exact State.modCore_keeps _ _ h4 fun _ => CoreSt.loopEnd_mem _ _ _
      · exact ih h4

theorem State.issueRep_keeps {q : List Instr} {j : TapSt} {b : TimeBase} {s : State} (c : Nat) (w : Word) (w2 : Word) (x2 : Word) (cut : Option Nat) (hs : Keeps q j b s) :
    Keeps q j b (State.issueRep s c w w2 x2 cut) := by
  unfold State.issueRep
  repeat' first
    | intro _
    | with_reducible assumption
    | with_reducible apply State.modCore_keeps
    | with_reducible apply State.repeatRun_keeps
    | with_reducible apply State.takeTrap_keeps
    | exact CoreSt.loopEnd_mem _ _ _
    | with_reducible apply keeps_ite
    | with_reducible rfl
    | (extract_lets +onlyGivenNames -underBinder x; first | (refine keeps_cut (q := q) (j := j) (b := b) (x := x) ?_ ?_ <;> first | (intro h0; generalize x = y at h0 ⊢; clear x) | intro h0 | subst x) | (have h0 := Nat.zero_le x; generalize x = y at h0 ⊢; clear h0 x) | subst x)
    | split
    | dsimp only
    | (with_reducible refine keeps_mk ?_ ⟨rfl, rfl, rfl, rfl, rfl⟩ ⟨rfl, rfl⟩)

theorem State.boundary_keeps {q : List Instr} {j : TapSt} {b : TimeBase} {s : State} (c : Nat) (hs : Keeps q j b s) :
    Keeps q j b (State.boundary s c).1 := by
  unfold State.boundary
  repeat' first
    | intro _
    | with_reducible assumption
    | with_reducible apply State.modCore_keeps
    | with_reducible apply State.dueTraps_keeps
    | exact CoreSt.landWhere_mem _ _
    | with_reducible apply keeps_ite
    | with_reducible apply keeps_ite_fst
    | with_reducible rfl
    | (extract_lets +onlyGivenNames -underBinder x; first | (refine keeps_cut (q := q) (j := j) (b := b) (x := x) ?_ ?_ <;> first | (intro h0; generalize x = y at h0 ⊢; clear x) | intro h0 | subst x) | (have h0 := Nat.zero_le x; generalize x = y at h0 ⊢; clear h0 x) | subst x)
    | split
    | dsimp only
    | (with_reducible refine keeps_mk ?_ ⟨rfl, rfl, rfl, rfl, rfl⟩ ⟨rfl, rfl⟩)

theorem State.vuvan_keeps {q : List Instr} {j : TapSt} {b : TimeBase} {s : State} (i : Issue) (want : VOp → Bool) (run : State → State) (hs : Keeps q j b s) (hf : ∀ t, Keeps q j b t → Keeps q j b (run t)) :
    Keeps q j b (State.vuvan s i want run) := by
  unfold State.vuvan
  repeat' first
    | intro _
    | with_reducible assumption
    | with_reducible apply State.boundary_keeps
    | with_reducible apply State.reach_keeps
    | with_reducible apply hf
    | with_reducible apply keeps_ite
    | with_reducible rfl
    | (extract_lets +onlyGivenNames -underBinder x; first | (refine keeps_cut (q := q) (j := j) (b := b) (x := x) ?_ ?_ <;> first | (intro h0; generalize x = y at h0 ⊢; clear x) | intro h0 | subst x) | (have h0 := Nat.zero_le x; generalize x = y at h0 ⊢; clear h0 x) | subst x)
    | (with_reducible refine keeps_fst (by with_reducible assumption) ?_)
    | (with_reducible refine keeps_snd (by with_reducible assumption) ?_)
    | split
    | dsimp only
    | (with_reducible refine keeps_mk ?_ ⟨rfl, rfl, rfl, rfl, rfl⟩ ⟨rfl, rfl⟩)

theorem State.interrupt_keeps {q : List Instr} {j : TapSt} {b : TimeBase} {s : State} (c : Nat) (hs : Keeps q j b s) :
    Keeps q j b (State.interrupt s c) := by
  unfold State.interrupt
  repeat' first
    | intro _
    | with_reducible assumption
    | with_reducible apply State.modCore_keeps
    | with_reducible apply State.dueTraps_keeps
    | with_reducible apply State.stackTrap_keeps
    | exact CoreSt.landWhere_mem _ _
    | (with_reducible refine State.vectorEntry_keeps (by with_reducible assumption) ?_)
    | with_reducible apply keeps_ite
    | with_reducible rfl
    | (extract_lets +onlyGivenNames -underBinder x; first | (refine keeps_cut (q := q) (j := j) (b := b) (x := x) ?_ ?_ <;> first | (intro h0; generalize x = y at h0 ⊢; clear x) | intro h0 | subst x) | (have h0 := Nat.zero_le x; generalize x = y at h0 ⊢; clear h0 x) | subst x)
    | split
    | dsimp only
    | (with_reducible refine keeps_mk ?_ ⟨rfl, rfl, rfl, rfl, rfl⟩ ⟨rfl, rfl⟩)

theorem State.tickEntry_keeps {q : List Instr} {j : TapSt} {b : TimeBase} {s : State} (c : Nat) (hs : Keeps q j b s) :
    Keeps q j b (State.tickEntry s c) := by
  unfold State.tickEntry
  repeat' first
    | intro _
    | with_reducible assumption
    | with_reducible apply State.set_keeps
    | with_reducible apply State.modCore_keeps
    | exact CoreSt.landWhere_mem _ _
    | with_reducible apply keeps_ite
    | with_reducible rfl
    | (extract_lets +onlyGivenNames -underBinder x; first | (refine keeps_cut (q := q) (j := j) (b := b) (x := x) ?_ ?_ <;> first | (intro h0; generalize x = y at h0 ⊢; clear x) | intro h0 | subst x) | (have h0 := Nat.zero_le x; generalize x = y at h0 ⊢; clear h0 x) | subst x)
    | split
    | dsimp only
    | (with_reducible refine keeps_mk ?_ ⟨rfl, rfl, rfl, rfl, rfl⟩ ⟨rfl, rfl⟩)

theorem State.userEnter_keeps {q : List Instr} {j : TapSt} {b : TimeBase} {s : State}  (hs : Keeps q j b s) :
    Keeps q j b (State.userEnter s) := by
  unfold State.userEnter
  repeat' first
    | intro _
    | with_reducible assumption
    | with_reducible apply State.modCore_keeps
    | with_reducible rfl
    | (extract_lets +onlyGivenNames -underBinder x; first | (refine keeps_cut (q := q) (j := j) (b := b) (x := x) ?_ ?_ <;> first | (intro h0; generalize x = y at h0 ⊢; clear x) | intro h0 | subst x) | (have h0 := Nat.zero_le x; generalize x = y at h0 ⊢; clear h0 x) | subst x)
    | dsimp only
    | (with_reducible refine keeps_mk ?_ ⟨rfl, rfl, rfl, rfl, rfl⟩ ⟨rfl, rfl⟩)

/-! ### Tick -/

theorem State.migrateTasks_keeps {q : List Instr} {j : TapSt} {b : TimeBase} {s : State} (tasks : Nat) (hs : Keeps q j b s) :
    Keeps q j b (State.migrateTasks s tasks) := by
  unfold State.migrateTasks
  repeat' first
    | intro _
    | with_reducible assumption
    | with_reducible apply State.set_keeps
    | with_reducible apply State.modCpu_keeps
    | exact ⟨rfl, rfl⟩
    | with_reducible apply keeps_ite
    | with_reducible rfl
    | (extract_lets +onlyGivenNames -underBinder x; first | (refine keeps_cut (q := q) (j := j) (b := b) (x := x) ?_ ?_ <;> first | (intro h0; generalize x = y at h0 ⊢; clear x) | intro h0 | subst x) | (have h0 := Nat.zero_le x; generalize x = y at h0 ⊢; clear h0 x) | subst x)
    | split
    | dsimp only
    | (with_reducible refine keeps_mk ?_ ⟨rfl, rfl, rfl, rfl, rfl⟩ ⟨rfl, rfl⟩)

theorem State.coreUsage_keeps {q : List Instr} {j : TapSt} {b : TimeBase} {s : State} (c : Nat) (hs : Keeps q j b s) :
    Keeps q j b (State.coreUsage s c) := by
  unfold State.coreUsage
  repeat' first
    | intro _
    | with_reducible assumption
    | with_reducible apply State.set_keeps
    | with_reducible apply State.tickDone_keeps
    | with_reducible apply State.takeFree_keeps
    | with_reducible apply keeps_ite
    | with_reducible rfl
    | (extract_lets +onlyGivenNames -underBinder x; first | (refine keeps_cut (q := q) (j := j) (b := b) (x := x) ?_ ?_ <;> first | (intro h0; generalize x = y at h0 ⊢; clear x) | intro h0 | subst x) | (have h0 := Nat.zero_le x; generalize x = y at h0 ⊢; clear h0 x) | subst x)
    | split
    | dsimp only
    | (with_reducible refine keeps_mk ?_ ⟨rfl, rfl, rfl, rfl, rfl⟩ ⟨rfl, rfl⟩)

theorem State.tickJudge_keeps {q : List Instr} {j : TapSt} {b : TimeBase} {s : State}  (hs : Keeps q j b s) :
    Keeps q j b (State.tickJudge s) := by
  unfold State.tickJudge
  repeat' first
    | intro _
    | with_reducible assumption
    | with_reducible apply State.modCpu_keeps
    | exact ⟨rfl, rfl⟩
    | with_reducible apply keeps_ite
    | with_reducible rfl
    | (extract_lets +onlyGivenNames -underBinder x; first | (refine keeps_cut (q := q) (j := j) (b := b) (x := x) ?_ ?_ <;> first | (intro h0; generalize x = y at h0 ⊢; clear x) | intro h0 | subst x) | (have h0 := Nat.zero_le x; generalize x = y at h0 ⊢; clear h0 x) | subst x)
    | split
    | dsimp only
    | (with_reducible refine keeps_mk ?_ ⟨rfl, rfl, rfl, rfl, rfl⟩ ⟨rfl, rfl⟩)

theorem State.coresTick_keeps {q : List Instr} {j : TapSt} {b : TimeBase} {s : State}  (hs : Keeps q j b s) :
    Keeps q j b (State.coresTick s) := by
  unfold State.coresTick
  repeat' first
    | intro _
    | with_reducible assumption
    | with_reducible apply State.tickJudge_keeps
    | with_reducible apply State.coreUsage_keeps
    | with_reducible apply State.tickEntry_keeps
    | with_reducible apply State.modCpu_keeps
    | exact ⟨rfl, rfl⟩
    | with_reducible apply keeps_foldl
    | with_reducible apply keeps_foldl_fst
    | with_reducible rfl
    | (extract_lets +onlyGivenNames -underBinder x; first | (refine keeps_cut (q := q) (j := j) (b := b) (x := x) ?_ ?_ <;> first | (intro h0; generalize x = y at h0 ⊢; clear x) | intro h0 | subst x) | (have h0 := Nat.zero_le x; generalize x = y at h0 ⊢; clear h0 x) | subst x)
    | dsimp only
    | (with_reducible refine keeps_mk ?_ ⟨rfl, rfl, rfl, rfl, rfl⟩ ⟨rfl, rfl⟩)

theorem State.budgetDeadline_keeps {q : List Instr} {j : TapSt} {b : TimeBase} {s : State}  (hs : Keeps q j b s) :
    Keeps q j b (State.budgetDeadline s) := by
  unfold State.budgetDeadline
  repeat' first
    | intro _
    | with_reducible assumption
    | with_reducible apply State.modCore_keeps
    | with_reducible apply State.coreOverrun_keeps
    | with_reducible apply State.modCpu_keeps
    | with_reducible apply State.tickDone_keeps
    | with_reducible apply State.epochSkip_keeps
    | with_reducible apply State.reach_keeps
    | exact ⟨rfl, rfl⟩
    | with_reducible apply keeps_foldl
    | with_reducible apply keeps_foldl_fst
    | with_reducible apply keeps_ite
    | with_reducible rfl
    | (extract_lets +onlyGivenNames -underBinder x; first | (refine keeps_cut (q := q) (j := j) (b := b) (x := x) ?_ ?_ <;> first | (intro h0; generalize x = y at h0 ⊢; clear x) | intro h0 | subst x) | (have h0 := Nat.zero_le x; generalize x = y at h0 ⊢; clear h0 x) | subst x)
    | split
    | dsimp only
    | (with_reducible refine keeps_mk ?_ ⟨rfl, rfl, rfl, rfl, rfl⟩ ⟨rfl, rfl⟩)

theorem State.hardStop_keeps {q : List Instr} {j : TapSt} {b : TimeBase} {s : State}  (hs : Keeps q j b s) :
    Keeps q j b (State.hardStop s) := by
  unfold State.hardStop
  repeat' first
    | intro _
    | with_reducible assumption
    | with_reducible apply State.haltCore_keeps
    | with_reducible apply State.modCpu_keeps
    | with_reducible apply State.reach_keeps
    | exact ⟨rfl, rfl⟩
    | with_reducible apply keeps_foldl
    | with_reducible apply keeps_foldl_fst
    | with_reducible apply keeps_ite
    | with_reducible rfl
    | (extract_lets +onlyGivenNames -underBinder x; first | (refine keeps_cut (q := q) (j := j) (b := b) (x := x) ?_ ?_ <;> first | (intro h0; generalize x = y at h0 ⊢; clear x) | intro h0 | subst x) | (have h0 := Nat.zero_le x; generalize x = y at h0 ⊢; clear h0 x) | subst x)
    | split
    | dsimp only
    | (with_reducible refine keeps_mk ?_ ⟨rfl, rfl, rfl, rfl, rfl⟩ ⟨rfl, rfl⟩)

theorem State.dumpReady_keeps {q : List Instr} {j : TapSt} {b : TimeBase} {s : State}  (hs : Keeps q j b s) :
    Keeps q j b (State.dumpReady s) := by
  unfold State.dumpReady
  repeat' first
    | intro _
    | with_reducible assumption
    | with_reducible apply State.modCpu_keeps
    | with_reducible apply State.dumpWrite_keeps
    | with_reducible apply State.raiseInt_keeps
    | with_reducible apply State.reach_keeps
    | exact ⟨rfl, rfl⟩
    | with_reducible apply keeps_foldl
    | with_reducible apply keeps_foldl_fst
    | with_reducible apply keeps_ite
    | with_reducible rfl
    | (extract_lets +onlyGivenNames -underBinder x; first | (refine keeps_cut (q := q) (j := j) (b := b) (x := x) ?_ ?_ <;> first | (intro h0; generalize x = y at h0 ⊢; clear x) | intro h0 | subst x) | (have h0 := Nat.zero_le x; generalize x = y at h0 ⊢; clear h0 x) | subst x)
    | split
    | dsimp only
    | (with_reducible refine keeps_mk ?_ ⟨rfl, rfl, rfl, rfl, rfl⟩ ⟨rfl, rfl⟩)

theorem State.userBudget_keeps {q : List Instr} {j : TapSt} {b : TimeBase} {s : State}  (hs : Keeps q j b s) :
    Keeps q j b (State.userBudget s) := by
  unfold State.userBudget
  repeat' first
    | intro _
    | with_reducible assumption
    | with_reducible apply State.modCore_keeps
    | with_reducible apply State.overrun_keeps
    | with_reducible apply keeps_ite
    | with_reducible rfl
    | split
    | dsimp only
    | (with_reducible refine keeps_mk ?_ ⟨rfl, rfl, rfl, rfl, rfl⟩ ⟨rfl, rfl⟩)

theorem State.userHardStop_keeps {q : List Instr} {j : TapSt} {b : TimeBase} {s : State}  (hs : Keeps q j b s) :
    Keeps q j b (State.userHardStop s) := by
  unfold State.userHardStop
  repeat' first
    | intro _
    | with_reducible assumption
    | with_reducible apply State.haltCore_keeps
    | with_reducible apply keeps_ite
    | with_reducible rfl
    | split
    | dsimp only
    | (with_reducible refine keeps_mk ?_ ⟨rfl, rfl, rfl, rfl, rfl⟩ ⟨rfl, rfl⟩)

theorem State.shedStep_keeps {q : List Instr} {j : TapSt} {b : TimeBase} {s : State}  (hs : Keeps q j b s) :
    Keeps q j b (State.shedStep s) := by
  unfold State.shedStep
  repeat' first
    | intro _
    | with_reducible assumption
    | with_reducible apply State.set_keeps
    | with_reducible apply State.bump_keeps
    | with_reducible apply State.modCpu_keeps
    | with_reducible apply State.slotsRelease_keeps
    | with_reducible apply State.raise_keeps
    | exact ⟨rfl, rfl⟩
    | with_reducible apply keeps_ite
    | with_reducible rfl
    | (extract_lets +onlyGivenNames -underBinder x; first | (refine keeps_cut (q := q) (j := j) (b := b) (x := x) ?_ ?_ <;> first | (intro h0; generalize x = y at h0 ⊢; clear x) | intro h0 | subst x) | (have h0 := Nat.zero_le x; generalize x = y at h0 ⊢; clear h0 x) | subst x)
    | split
    | dsimp only
    | (with_reducible refine keeps_mk ?_ ⟨rfl, rfl, rfl, rfl, rfl⟩ ⟨rfl, rfl⟩)

theorem State.taskMigration_keeps {q : List Instr} {j : TapSt} {b : TimeBase} {s : State} (tasks : Nat) (hs : Keeps q j b s) :
    Keeps q j b (State.taskMigration s tasks) := by
  unfold State.taskMigration
  repeat' first
    | intro _
    | with_reducible assumption
    | with_reducible apply State.set_keeps
    | with_reducible apply State.bump_keeps
    | with_reducible apply State.migrateTasks_keeps
    | with_reducible apply State.modCpu_keeps
    | with_reducible apply State.slotsLimit_keeps
    | with_reducible apply State.raise_keeps
    | exact ⟨rfl, rfl⟩
    | with_reducible apply keeps_ite
    | with_reducible rfl
    | (extract_lets +onlyGivenNames -underBinder x; first | (refine keeps_cut (q := q) (j := j) (b := b) (x := x) ?_ ?_ <;> first | (intro h0; generalize x = y at h0 ⊢; clear x) | intro h0 | subst x) | (have h0 := Nat.zero_le x; generalize x = y at h0 ⊢; clear h0 x) | subst x)
    | split
    | dsimp only
    | (with_reducible refine keeps_mk ?_ ⟨rfl, rfl, rfl, rfl, rfl⟩ ⟨rfl, rfl⟩)

theorem State.coreRetire_keeps {q : List Instr} {j : TapSt} {b : TimeBase} {s : State} (c : Nat) (hs : Keeps q j b s) :
    Keeps q j b (State.coreRetire s c) := by
  unfold State.coreRetire
  repeat' first
    | intro _
    | with_reducible assumption
    | with_reducible apply State.set_keeps
    | with_reducible apply State.flag_keeps
    | with_reducible apply State.log_keeps
    | with_reducible apply State.modCore_keeps
    | with_reducible apply State.modCpu_keeps
    | with_reducible apply State.userStop_keeps
    | with_reducible apply State.ringsRetire_keeps
    | exact ⟨rfl, rfl⟩
    | with_reducible apply keeps_ite
    | with_reducible rfl
    | (extract_lets +onlyGivenNames -underBinder x; first | (refine keeps_cut (q := q) (j := j) (b := b) (x := x) ?_ ?_ <;> first | (intro h0; generalize x = y at h0 ⊢; clear x) | intro h0 | subst x) | (have h0 := Nat.zero_le x; generalize x = y at h0 ⊢; clear h0 x) | subst x)
    | split
    | dsimp only
    | (with_reducible refine keeps_mk ?_ ⟨rfl, rfl, rfl, rfl, rfl⟩ ⟨rfl, rfl⟩)

theorem State.selfCheck_keeps {q : List Instr} {j : TapSt} {b : TimeBase} {s : State} (failed : List Nat) (hs : Keeps q j b s) :
    Keeps q j b (State.selfCheck s failed) := by
  unfold State.selfCheck
  repeat' first
    | intro _
    | with_reducible assumption
    | with_reducible apply State.coreRetire_keeps
    | with_reducible apply keeps_foldl
    | with_reducible apply keeps_foldl_fst
    | with_reducible apply keeps_ite
    | with_reducible rfl
    | split
    | dsimp only
    | (with_reducible refine keeps_mk ?_ ⟨rfl, rfl, rfl, rfl, rfl⟩ ⟨rfl, rfl⟩)

theorem State.levelTick_keeps {q : List Instr} {j : TapSt} {b : TimeBase} {s : State} (ramp : Option Nat) (hs : Keeps q j b s) :
    Keeps q j b (State.levelTick s ramp) := by
  unfold State.levelTick
  repeat' first
    | intro _
    | with_reducible assumption
    | with_reducible apply State.set_keeps
    | with_reducible apply State.levelFail_keeps
    | with_reducible apply State.modPower_keeps
    | with_reducible apply keeps_ite
    | with_reducible rfl
    | (extract_lets +onlyGivenNames -underBinder x; first | (refine keeps_cut (q := q) (j := j) (b := b) (x := x) ?_ ?_ <;> first | (intro h0; generalize x = y at h0 ⊢; clear x) | intro h0 | subst x) | (have h0 := Nat.zero_le x; generalize x = y at h0 ⊢; clear h0 x) | subst x)
    | split
    | dsimp only
    | (with_reducible refine keeps_mk ?_ ⟨rfl, rfl, rfl, rfl, rfl⟩ ⟨rfl, rfl⟩)

theorem State.deviceTick_keeps {q : List Instr} {j : TapSt} {b : TimeBase} {s : State}  (hs : Keeps q j b s) :
    Keeps q j b (State.deviceTick s) := by
  unfold State.deviceTick
  repeat' first
    | intro _
    | with_reducible assumption
    | with_reducible apply State.set_keeps
    | with_reducible apply State.flag_keeps
    | with_reducible apply State.log_keeps
    | with_reducible apply State.startLog_keeps
    | with_reducible apply keeps_ite
    | with_reducible rfl
    | (extract_lets +onlyGivenNames -underBinder x; first | (refine keeps_cut (q := q) (j := j) (b := b) (x := x) ?_ ?_ <;> first | (intro h0; generalize x = y at h0 ⊢; clear x) | intro h0 | subst x) | (have h0 := Nat.zero_le x; generalize x = y at h0 ⊢; clear h0 x) | subst x)
    | split
    | dsimp only
    | (with_reducible refine keeps_mk ?_ ⟨rfl, rfl, rfl, rfl, rfl⟩ ⟨rfl, rfl⟩)

/-- A tick moves the base of time, and nothing else of this (R9, R10). -/
theorem State.tickTime_keeps {q : List Instr} {j : TapSt} {b : TimeBase} {s : State} (hs : Keeps q j b s) :
    ∃ b', Keeps q j b' (State.tickTime s) := by
  have key : ∀ (t : TimeSt) (x : SolSt), Keeps q j t.base { s with sol := x, time := t } :=
    fun t x => ⟨hs.pending, hs.jtag, rfl, hs.inv.1, hs.inv.2.1, hs.inv.2.2⟩
  unfold State.tickTime
  exact ⟨_, key _ _⟩

theorem State.tickMeasure_keeps {q : List Instr} {j : TapSt} {b : TimeBase} {s : State} (i : TickIn) (hs : Keeps q j b s) :
    Keeps q j b (State.tickMeasure s i) := by
  unfold State.tickMeasure
  repeat' first
    | intro _
    | with_reducible assumption
    | with_reducible apply State.set_keeps
    | with_reducible apply State.flag_keeps
    | with_reducible apply State.modPower_keeps
    | with_reducible apply State.setI_keeps
    | with_reducible apply keeps_ite
    | with_reducible rfl
    | (extract_lets +onlyGivenNames -underBinder x; first | (refine keeps_cut (q := q) (j := j) (b := b) (x := x) ?_ ?_ <;> first | (intro h0; generalize x = y at h0 ⊢; clear x) | intro h0 | subst x) | (have h0 := Nat.zero_le x; generalize x = y at h0 ⊢; clear h0 x) | subst x)
    | split
    | dsimp only
    | (with_reducible refine keeps_mk ?_ ⟨rfl, rfl, rfl, rfl, rfl⟩ ⟨rfl, rfl⟩)

theorem State.wakeEnd_keeps {q : List Instr} {j : TapSt} {b : TimeBase} {s : State}  (hs : Keeps q j b s) :
    Keeps q j b (State.wakeEnd s) := by
  unfold State.wakeEnd
  repeat' first
    | intro _
    | with_reducible assumption
    | with_reducible apply State.modPower_keeps
    | with_reducible apply State.portTry_keeps
    | with_reducible apply State.modReader_keeps
    | with_reducible apply State.outputsWake_keeps
    | with_reducible apply State.slotsResume_keeps
    | with_reducible apply State.timersWake_keeps
    | with_reducible apply keeps_foldl
    | with_reducible apply keeps_foldl_fst
    | with_reducible rfl
    | (extract_lets +onlyGivenNames -underBinder x; first | (refine keeps_cut (q := q) (j := j) (b := b) (x := x) ?_ ?_ <;> first | (intro h0; generalize x = y at h0 ⊢; clear x) | intro h0 | subst x) | (have h0 := Nat.zero_le x; generalize x = y at h0 ⊢; clear h0 x) | subst x)
    | dsimp only
    | (with_reducible refine keeps_mk ?_ ⟨rfl, rfl, rfl, rfl, rfl⟩ ⟨rfl, rfl⟩)

theorem State.tickRadio_keeps {q : List Instr} {j : TapSt} {b : TimeBase} {s : State} (i : TickIn) (d : Nat) (hs : Keeps q j b s) :
    Keeps q j b (State.tickRadio s i d) := by
  unfold State.tickRadio
  repeat' first
    | intro _
    | with_reducible assumption
    | with_reducible apply State.set_keeps
    | with_reducible apply State.surveysTick_keeps
    | with_reducible apply State.epochTick_keeps
    | with_reducible apply State.ergTick_keeps
    | with_reducible apply State.antSelect_keeps
    | with_reducible apply State.thermalCut_keeps
    | with_reducible apply State.ceilingTick_keeps
    | with_reducible apply State.readerTick_keeps
    | with_reducible apply State.navTick_keeps
    | with_reducible apply State.storeFlush_keeps
    | with_reducible apply State.slotsTick_keeps
    | with_reducible apply State.chainPower_keeps
    | with_reducible apply State.chainTick_keeps
    | with_reducible apply State.antTick_keeps
    | with_reducible apply keeps_foldl
    | with_reducible apply keeps_foldl_fst
    | with_reducible apply keeps_ite
    | with_reducible rfl
    | (extract_lets +onlyGivenNames -underBinder x; first | (refine keeps_cut (q := q) (j := j) (b := b) (x := x) ?_ ?_ <;> first | (intro h0; generalize x = y at h0 ⊢; clear x) | intro h0 | subst x) | (have h0 := Nat.zero_le x; generalize x = y at h0 ⊢; clear h0 x) | subst x)
    | split
    | dsimp only
    | (with_reducible refine keeps_mk ?_ ⟨rfl, rfl, rfl, rfl, rfl⟩ ⟨rfl, rfl⟩)

theorem State.tickTimed_keeps {q : List Instr} {j : TapSt} {b : TimeBase} {s : State} (i : TickIn) (hs : Keeps q j b s) :
    Keeps q j b (State.tickTimed s i) := by
  unfold State.tickTimed
  repeat' first
    | intro _
    | with_reducible assumption
    | with_reducible apply State.set_keeps
    | with_reducible apply State.roleJudge_keeps
    | with_reducible apply State.lakeTick_keeps
    | with_reducible apply State.blocksSend_keeps
    | with_reducible apply State.offersSend_keeps
    | with_reducible apply State.netTick_keeps
    | with_reducible apply State.ptpTick_keeps
    | with_reducible apply State.portsTick_keeps
    | with_reducible apply State.delayTick_keeps
    | with_reducible apply State.utcUpdate_keeps
    | with_reducible apply State.timersTick_keeps
    | with_reducible apply State.steerSource_keeps
    | with_reducible apply State.holdTick_keeps
    | with_reducible apply State.rateSlew_keeps
    | with_reducible apply keeps_ite
    | with_reducible rfl
    | (extract_lets +onlyGivenNames -underBinder x; first | (refine keeps_cut (q := q) (j := j) (b := b) (x := x) ?_ ?_ <;> first | (intro h0; generalize x = y at h0 ⊢; clear x) | intro h0 | subst x) | (have h0 := Nat.zero_le x; generalize x = y at h0 ⊢; clear h0 x) | subst x)
    | split
    | dsimp only
    | (with_reducible refine keeps_mk ?_ ⟨rfl, rfl, rfl, rfl, rfl⟩ ⟨rfl, rfl⟩)

theorem State.pinsTick_keeps {q : List Instr} {j : TapSt} {b : TimeBase} {s : State}  (hs : Keeps q j b s) :
    Keeps q j b (State.pinsTick s) := by
  unfold State.pinsTick
  repeat' first
    | intro _
    | with_reducible assumption
    | with_reducible apply keeps_ite
    | with_reducible rfl
    | (extract_lets +onlyGivenNames -underBinder x; first | (refine keeps_cut (q := q) (j := j) (b := b) (x := x) ?_ ?_ <;> first | (intro h0; generalize x = y at h0 ⊢; clear x) | intro h0 | subst x) | (have h0 := Nat.zero_le x; generalize x = y at h0 ⊢; clear h0 x) | subst x)
    | split
    | dsimp only
    | (with_reducible refine keeps_mk ?_ ⟨rfl, rfl, rfl, rfl, rfl⟩ ⟨rfl, rfl⟩)

theorem State.tickSettings_keeps {q : List Instr} {j : TapSt} {b : TimeBase} {s : State}  (hs : Keeps q j b s) :
    Keeps q j b (State.tickSettings s) := by
  unfold State.tickSettings
  repeat' first
    | intro _
    | with_reducible assumption
    | with_reducible apply State.pinsTick_keeps
    | with_reducible apply State.modPower_keeps
    | with_reducible apply State.modProt_keeps
    | with_reducible apply keeps_ite
    | with_reducible rfl
    | (extract_lets +onlyGivenNames -underBinder x; first | (refine keeps_cut (q := q) (j := j) (b := b) (x := x) ?_ ?_ <;> first | (intro h0; generalize x = y at h0 ⊢; clear x) | intro h0 | subst x) | (have h0 := Nat.zero_le x; generalize x = y at h0 ⊢; clear h0 x) | subst x)
    | split
    | dsimp only
    | (with_reducible refine keeps_mk ?_ ⟨rfl, rfl, rfl, rfl, rfl⟩ ⟨rfl, rfl⟩)

theorem State.tickRun_keeps {q : List Instr} {j : TapSt} {b : TimeBase} {s : State} (i : TickIn) (d : Nat) (hs : Keeps q j b s) :
    Keeps q j b (State.tickRun s i d) := by
  unfold State.tickRun
  repeat' first
    | intro _
    | with_reducible assumption
    | with_reducible apply State.set_keeps
    | with_reducible apply State.tickSettings_keeps
    | with_reducible apply State.tickTimed_keeps
    | with_reducible apply State.tickRadio_keeps
    | with_reducible apply State.tickMeasure_keeps
    | with_reducible apply State.deviceTick_keeps
    | with_reducible apply State.levelTick_keeps
    | with_reducible apply State.coresTick_keeps
    | with_reducible apply State.migrateTasks_keeps
    | with_reducible apply State.reseedHand_keeps
    | with_reducible apply State.timingLaunches_keeps
    | with_reducible apply State.slotsLimit_keeps
    | with_reducible apply State.rateSlew_keeps
    | with_reducible apply State.siltOrder_keeps
    | with_reducible apply State.siltCommit_keeps
    | with_reducible apply keeps_ite
    | with_reducible rfl
    | (extract_lets +onlyGivenNames -underBinder x; first | (refine keeps_cut (q := q) (j := j) (b := b) (x := x) ?_ ?_ <;> first | (intro h0; generalize x = y at h0 ⊢; clear x) | intro h0 | subst x) | (have h0 := Nat.zero_le x; generalize x = y at h0 ⊢; clear h0 x) | subst x)
    | split
    | dsimp only
    | (with_reducible refine keeps_mk ?_ ⟨rfl, rfl, rfl, rfl, rfl⟩ ⟨rfl, rfl⟩)

theorem State.tickBurst_keeps {q : List Instr} {j : TapSt} {b : TimeBase} {s : State} (i : TickIn) (hs : Keeps q j b s) :
    Keeps q j b (State.tickBurst s i) := by
  unfold State.tickBurst
  repeat' first
    | intro _
    | with_reducible assumption
    | with_reducible apply State.tickSettings_keeps
    | with_reducible apply State.tickMeasure_keeps
    | with_reducible apply State.deviceTick_keeps
    | with_reducible apply State.coresTick_keeps
    | with_reducible apply State.holdTick_keeps
    | with_reducible apply State.rateSlew_keeps
    | with_reducible apply State.siltOrder_keeps
    | with_reducible apply State.siltCommit_keeps
    | with_reducible apply keeps_ite
    | with_reducible rfl
    | (extract_lets +onlyGivenNames -underBinder x; first | (refine keeps_cut (q := q) (j := j) (b := b) (x := x) ?_ ?_ <;> first | (intro h0; generalize x = y at h0 ⊢; clear x) | intro h0 | subst x) | (have h0 := Nat.zero_le x; generalize x = y at h0 ⊢; clear h0 x) | subst x)
    | split
    | dsimp only
    | (with_reducible refine keeps_mk ?_ ⟨rfl, rfl, rfl, rfl, rfl⟩ ⟨rfl, rfl⟩)

theorem State.tick_keeps {q : List Instr} {j : TapSt} {b : TimeBase} {s : State} (i : TickIn) (hs : Keeps q j b s) :
    ∃ b', Keeps q j b' (State.tick s i) := by
  obtain ⟨b', h⟩ := State.tickTime_keeps hs
  unfold State.tick
  split
  · exact ⟨b, hs⟩
  split
  · exact ⟨b', keeps_ite (State.tickBurst_keeps _ h) h⟩
  split
  · exact ⟨b, hs⟩
  split
  · exact ⟨b', keeps_ite (State.chainsWake_keeps (State.tickRun_keeps _ _ (State.wakeEnd_keeps h))) h⟩
  · exact ⟨b', State.tickRun_keeps _ _ h⟩

/-! ### Boot -/

theorem State.modBoot_keeps {q : List Instr} {j : TapSt} {b : TimeBase} {s : State} (f : BootSt → BootSt) (hs : Keeps q j b s) :
    Keeps q j b (State.modBoot s f) := by
  unfold State.modBoot
  repeat' first
    | intro _
    | with_reducible assumption
    | with_reducible rfl
    | dsimp only
    | (with_reducible refine keeps_mk ?_ ⟨rfl, rfl, rfl, rfl, rfl⟩ ⟨rfl, rfl⟩)

theorem State.imageRejected_keeps {q : List Instr} {j : TapSt} {b0 : TimeBase} {s : State} (reason : Nat) (b : List Nat) (hs : Keeps q j b0 s) :
    Keeps q j b0 (State.imageRejected s reason b) := by
  unfold State.imageRejected
  repeat' first
    | intro _
    | with_reducible assumption
    | with_reducible apply State.set_keeps
    | with_reducible apply State.flag_keeps
    | with_reducible apply State.log_keeps
    | with_reducible rfl
    | (extract_lets +onlyGivenNames -underBinder x; first | (refine keeps_cut (q := q) (j := j) (b := b0) (x := x) ?_ ?_ <;> first | (intro h0; generalize x = y at h0 ⊢; clear x) | intro h0 | subst x) | (have h0 := Nat.zero_le x; generalize x = y at h0 ⊢; clear h0 x) | subst x)
    | dsimp only
    | (with_reducible refine keeps_mk ?_ ⟨rfl, rfl, rfl, rfl, rfl⟩ ⟨rfl, rfl⟩)

theorem memPut_wf (m : SMap Word) (dest : Nat) (l : List Nat) (h : SMap.wf (fun _ => (0 : Word)) m = true) :
    SMap.wf (fun _ => (0 : Word)) (memPut m dest l) = true := by
  unfold memPut
  generalize List.zip (List.range l.length) l = z
  induction z generalizing m with
  | nil => exact h
  | cons a z ih => exact ih _ (SMap.wf_set _ _ _ _ rfl _ h)

theorem State.sectionLoad_keeps {q : List Instr} {j : TapSt} {b : TimeBase} {s : State} (x : Section) (hs : Keeps q j b s) :
    Keeps q j b (State.sectionLoad s x) := by
  unfold State.sectionLoad
  refine keeps_ite (keeps_foldl _ _ hs fun t c h => ?_) (keeps_cpu hs fun h => ⟨memPut_wf _ _ _ h.1, h.2⟩)
  exact keeps_ite (State.modCore_mem_keeps _ _ h fun k hk => memPut_wf _ _ _ hk) h

theorem State.imageLoad_keeps {q : List Instr} {j : TapSt} {b0 : TimeBase} {s : State} (b : List Nat) (source : Nat) (hs : Keeps q j b0 s) :
    Keeps q j b0 (State.imageLoad s b source) := by
  unfold State.imageLoad
  repeat' first
    | intro _
    | with_reducible assumption
    | with_reducible apply State.set_keeps
    | with_reducible apply State.sectionLoad_keeps
    | with_reducible apply State.modBoot_keeps
    | with_reducible apply keeps_foldl
    | with_reducible apply keeps_foldl_fst
    | with_reducible apply keeps_ite
    | with_reducible rfl
    | (extract_lets +onlyGivenNames -underBinder x; first | (refine keeps_cut (q := q) (j := j) (b := b0) (x := x) ?_ ?_ <;> first | (intro h0; generalize x = y at h0 ⊢; clear x) | intro h0 | subst x) | (have h0 := Nat.zero_le x; generalize x = y at h0 ⊢; clear h0 x) | subst x)
    | split
    | dsimp only
    | (with_reducible refine keeps_mk ?_ ⟨rfl, rfl, rfl, rfl, rfl⟩ ⟨rfl, rfl⟩)

theorem State.bootHello_keeps {q : List Instr} {j : TapSt} {b : TimeBase} {s : State}  (hs : Keeps q j b s) :
    Keeps q j b (State.bootHello s) := by
  unfold State.bootHello
  repeat' first
    | intro _
    | with_reducible assumption
    | with_reducible apply State.portsHello_keeps
    | with_reducible apply keeps_ite
    | with_reducible rfl
    | split
    | dsimp only
    | (with_reducible refine keeps_mk ?_ ⟨rfl, rfl, rfl, rfl, rfl⟩ ⟨rfl, rfl⟩)

theorem State.bootBegin_keeps {q : List Instr} {j : TapSt} {b : TimeBase} {s : State} (update : Bool) (hs : Keeps q j b s) :
    Keeps q j b (State.bootBegin s update) := by
  unfold State.bootBegin
  repeat' first
    | intro _
    | with_reducible assumption
    | with_reducible apply State.set_keeps
    | with_reducible apply State.bootHello_keeps
    | with_reducible apply State.modBoot_keeps
    | with_reducible apply keeps_ite
    | with_reducible rfl
    | (extract_lets +onlyGivenNames -underBinder x; first | (refine keeps_cut (q := q) (j := j) (b := b) (x := x) ?_ ?_ <;> first | (intro h0; generalize x = y at h0 ⊢; clear x) | intro h0 | subst x) | (have h0 := Nat.zero_le x; generalize x = y at h0 ⊢; clear h0 x) | subst x)
    | split
    | dsimp only
    | (with_reducible refine keeps_mk ?_ ⟨rfl, rfl, rfl, rfl, rfl⟩ ⟨rfl, rfl⟩)

theorem State.bootNext_keeps {q : List Instr} {j : TapSt} {b : TimeBase} {s : State}  (hs : Keeps q j b s) :
    Keeps q j b (State.bootNext s) := by
  unfold State.bootNext
  repeat' first
    | intro _
    | with_reducible assumption
    | with_reducible apply State.bootHello_keeps
    | with_reducible apply State.modBoot_keeps
    | with_reducible apply keeps_ite
    | with_reducible rfl
    | (extract_lets +onlyGivenNames -underBinder x; first | (refine keeps_cut (q := q) (j := j) (b := b) (x := x) ?_ ?_ <;> first | (intro h0; generalize x = y at h0 ⊢; clear x) | intro h0 | subst x) | (have h0 := Nat.zero_le x; generalize x = y at h0 ⊢; clear h0 x) | subst x)
    | split
    | dsimp only
    | (with_reducible refine keeps_mk ?_ ⟨rfl, rfl, rfl, rfl, rfl⟩ ⟨rfl, rfl⟩)

theorem State.flashVerified_keeps {q : List Instr} {j : TapSt} {b0 : TimeBase} {s : State} (b : List Nat) (hs : Keeps q j b0 s) :
    Keeps q j b0 (State.flashVerified s b) := by
  unfold State.flashVerified
  repeat' first
    | intro _
    | with_reducible assumption
    | with_reducible apply State.flag_keeps
    | with_reducible apply State.bootNext_keeps
    | with_reducible apply State.imageLoad_keeps
    | with_reducible apply State.imageRejected_keeps
    | with_reducible apply State.modBoot_keeps
    | with_reducible apply keeps_ite
    | with_reducible rfl
    | (extract_lets +onlyGivenNames -underBinder x; first | (refine keeps_cut (q := q) (j := j) (b := b0) (x := x) ?_ ?_ <;> first | (intro h0; generalize x = y at h0 ⊢; clear x) | intro h0 | subst x) | (have h0 := Nat.zero_le x; generalize x = y at h0 ⊢; clear h0 x) | subst x)
    | split
    | dsimp only
    | (with_reducible refine keeps_mk ?_ ⟨rfl, rfl, rfl, rfl, rfl⟩ ⟨rfl, rfl⟩)

theorem State.stagedVerified_keeps {q : List Instr} {j : TapSt} {b : TimeBase} {s : State} (cmd : Nat) (source : Nat) (hs : Keeps q j b s) :
    Keeps q j b (State.stagedVerified s cmd source) := by
  unfold State.stagedVerified
  repeat' first
    | intro _
    | with_reducible assumption
    | with_reducible apply State.set_keeps
    | with_reducible apply State.imageLoad_keeps
    | with_reducible apply State.imageRejected_keeps
    | with_reducible apply State.modBoot_keeps
    | with_reducible apply keeps_ite
    | with_reducible rfl
    | (extract_lets +onlyGivenNames -underBinder x; first | (refine keeps_cut (q := q) (j := j) (b := b) (x := x) ?_ ?_ <;> first | (intro h0; generalize x = y at h0 ⊢; clear x) | intro h0 | subst x) | (have h0 := Nat.zero_le x; generalize x = y at h0 ⊢; clear h0 x) | subst x)
    | split
    | dsimp only
    | (with_reducible refine keeps_mk ?_ ⟨rfl, rfl, rfl, rfl, rfl⟩ ⟨rfl, rfl⟩)

theorem State.imageVerified_keeps {q : List Instr} {j : TapSt} {b : TimeBase} {s : State} (flash : List Nat) (hs : Keeps q j b s) :
    Keeps q j b (State.imageVerified s flash) := by
  unfold State.imageVerified
  repeat' first
    | intro _
    | with_reducible assumption
    | with_reducible apply State.stagedVerified_keeps
    | with_reducible apply State.flashVerified_keeps
    | with_reducible apply keeps_ite
    | with_reducible rfl
    | split
    | dsimp only
    | (with_reducible refine keeps_mk ?_ ⟨rfl, rfl, rfl, rfl, rfl⟩ ⟨rfl, rfl⟩)

theorem State.flashWritten_keeps {q : List Instr} {j : TapSt} {b : TimeBase} {s : State} (ok : Bool) (hs : Keeps q j b s) :
    Keeps q j b (State.flashWritten s ok) := by
  unfold State.flashWritten
  repeat' first
    | intro _
    | with_reducible assumption
    | with_reducible apply State.set_keeps
    | with_reducible apply State.modBoot_keeps
    | with_reducible apply keeps_ite
    | with_reducible rfl
    | (extract_lets +onlyGivenNames -underBinder x; first | (refine keeps_cut (q := q) (j := j) (b := b) (x := x) ?_ ?_ <;> first | (intro h0; generalize x = y at h0 ⊢; clear x) | intro h0 | subst x) | (have h0 := Nat.zero_le x; generalize x = y at h0 ⊢; clear h0 x) | subst x)
    | split
    | dsimp only
    | (with_reducible refine keeps_mk ?_ ⟨rfl, rfl, rfl, rfl, rfl⟩ ⟨rfl, rfl⟩)

theorem State.bootWaitOver_keeps {q : List Instr} {j : TapSt} {b : TimeBase} {s : State}  (hs : Keeps q j b s) :
    Keeps q j b (State.bootWaitOver s) := by
  unfold State.bootWaitOver
  repeat' first
    | intro _
    | with_reducible assumption
    | with_reducible apply State.bootNext_keeps
    | with_reducible apply keeps_ite
    | with_reducible rfl
    | split
    | dsimp only
    | (with_reducible refine keeps_mk ?_ ⟨rfl, rfl, rfl, rfl, rfl⟩ ⟨rfl, rfl⟩)

theorem State.siltDiscard_keeps {q : List Instr} {j : TapSt} {b : TimeBase} {s : State} (hs : Keeps q j b s) :
    Keeps q j b (State.siltDiscard s) :=
  keeps_silt hs ⟨Nat.zero_le _, hs.inv.2.1.2⟩

theorem State.startRec_keeps {q : List Instr} {j : TapSt} {b : TimeBase} {s : State} (hs : Keeps q j b s) :
    Keeps q j b (State.startRec s) :=
  keeps_silt hs ⟨hs.inv.2.1.1, hs.inv.2.1.2⟩

theorem State.selfTests_keeps {q : List Instr} {j : TapSt} {b : TimeBase} {s : State} (was : List Nat × List Nat × List Nat × List Nat) (i : StartIn) (hs : Keeps q j b s) :
    Keeps q j b (State.selfTests s was i) := by
  unfold State.selfTests
  repeat' first
    | intro _
    | with_reducible assumption
    | with_reducible apply State.set_keeps
    | with_reducible apply State.slotFree_keeps
    | with_reducible apply State.modChain_keeps
    | with_reducible apply keeps_foldl
    | with_reducible apply keeps_foldl_fst
    | with_reducible apply keeps_ite
    | with_reducible rfl
    | (extract_lets +onlyGivenNames -underBinder x; first | (refine keeps_cut (q := q) (j := j) (b := b) (x := x) ?_ ?_ <;> first | (intro h0; generalize x = y at h0 ⊢; clear x) | intro h0 | subst x) | (have h0 := Nat.zero_le x; generalize x = y at h0 ⊢; clear h0 x) | subst x)
    | split
    | dsimp only
    | (with_reducible refine keeps_mk ?_ ⟨rfl, rfl, rfl, rfl, rfl⟩ ⟨rfl, rfl⟩)

theorem State.coreTests_keeps {q : List Instr} {j : TapSt} {b : TimeBase} {s : State} (was : List Nat) (failed : List Nat) (hs : Keeps q j b s) :
    Keeps q j b (State.coreTests s was failed) := by
  unfold State.coreTests
  repeat' first
    | intro _
    | with_reducible assumption
    | with_reducible apply State.set_keeps
    | with_reducible apply State.coreRetire_keeps
    | with_reducible apply State.modCpu_keeps
    | exact ⟨rfl, rfl⟩
    | with_reducible apply keeps_foldl
    | with_reducible apply keeps_foldl_fst
    | with_reducible apply keeps_ite
    | with_reducible rfl
    | (extract_lets +onlyGivenNames -underBinder x; first | (refine keeps_cut (q := q) (j := j) (b := b) (x := x) ?_ ?_ <;> first | (intro h0; generalize x = y at h0 ⊢; clear x) | intro h0 | subst x) | (have h0 := Nat.zero_le x; generalize x = y at h0 ⊢; clear h0 x) | subst x)
    | split
    | dsimp only
    | (with_reducible refine keeps_mk ?_ ⟨rfl, rfl, rfl, rfl, rfl⟩ ⟨rfl, rfl⟩)

theorem State.resetCommon_keeps {q : List Instr} {j : TapSt} {b : TimeBase} {s : State} (keeps : Nat → Bool) (kind : StartKind) (cause : Nat)
    (hs : Keeps q j b s) : Keeps q j b (State.resetCommon s keeps kind cause) := by
  unfold State.resetCommon
  have h0 := State.siltDiscard_keeps hs
  dsimp only
  refine State.modProt_keeps _ (State.changesDiscard_keeps (State.modBoot_keeps _ (State.set_keeps _ _ ?_)))
  exact ⟨h0.pending, h0.jtag, h0.base, ⟨SMap.wf_keep _ _ _ h0.inv.1.1, rfl, h0.inv.1.2.2⟩, h0.inv.2.1, h0.inv.2.2⟩

theorem CoresSt.afterWarm_memOk {k : CoresSt} (h : k.MemOk) : k.afterWarm.MemOk := by
  refine ⟨h.1, fun i => ?_⟩
  show SMap.wf _ ((Vector.ofFn fun (i : Fin 4) => { CoreSt.reset with mem := k.core[i].mem }) : Vector CoreSt 4)[i].mem = true
  rw [Fin.getElem_fin, Vector.getElem_ofFn]
  exact h.2 i

theorem State.warmReset_keeps {q : List Instr} {j : TapSt} {b : TimeBase} {s : State} (cause : Nat) (update : Bool) (i : StartIn)
    (hs : Keeps q j b s) : Keeps q j b (State.warmReset s cause update i) := by
  unfold State.warmReset
  have h0 := State.fieldOff_keeps (State.storeFlush_keeps (State.notchesLeave_keeps (State.timersSettle_keeps hs)))
  dsimp only
  generalize s.timersSettle.notchesLeave.storeFlush.fieldOff = y at h0 ⊢
  have h1 := State.notchesRestart_keeps (State.todCut_keeps (State.readerWarm_keeps (State.ergReset_keeps (State.navReset_keeps
    (State.solReset_keeps (State.portsReset_keeps (State.ptpReset_keeps (State.lakeReset_keeps (State.netReset_keeps
      (State.resetCommon_keeps (warmKeeps y) .warm cause h0))))))))))
  generalize State.notchesRestart _ = z at h1 ⊢
  have h2 : ∀ (t : TimeSt) tmr rx, t.base = z.time.base →
      Keeps q j b { z with slots := [], tmr := tmr, cpu := z.cpu.afterWarm, time := t, rx := rx } :=
    fun t _ _ ht => ⟨h1.pending, h1.jtag, ht.trans h1.base, ⟨h1.inv.1.1, h1.inv.1.2.1, rfl⟩, h1.inv.2.1, CoresSt.afterWarm_memOk h1.inv.2.2⟩
  have h3 : ∀ {t}, Keeps q j b t → Keeps q j b (if t.power.phase == .sleep then t.wakeStart else t) :=
    fun h => keeps_ite (State.wakeStart_keeps h) h
  refine State.startRec_keeps (State.coreTests_keeps _ _ (keeps_ite ?_ (State.bootBegin_keeps _ ?_)))
  all_goals
    refine State.selfTests_keeps _ _ (State.slotsHold_keeps _ (h3 (State.modPower_keeps _ (State.leapReset_keeps ?_))))
    exact h2 _ _ _ rfl

theorem State.warmDue_keeps {q : List Instr} {j : TapSt} {b : TimeBase} {s : State} (i : StartIn) (hs : Keeps q j b s) :
    Keeps q j b (State.warmDue s i) := by
  unfold State.warmDue
  repeat' first
    | intro _
    | with_reducible assumption
    | with_reducible apply State.warmReset_keeps
    | with_reducible apply keeps_ite
    | with_reducible rfl
    | split
    | dsimp only
    | (with_reducible refine keeps_mk ?_ ⟨rfl, rfl, rfl, rfl, rfl⟩ ⟨rfl, rfl⟩)

theorem CoresSt.reset_memOk : CoresSt.reset.MemOk := by
  refine ⟨rfl, fun i => ?_⟩
  show SMap.wf _ (Vector.replicate 4 CoreSt.reset)[i].mem = true
  rw [Fin.getElem_fin, Vector.getElem_replicate]
  rfl

theorem State.coldReset_keeps {q : List Instr} {j : TapSt} {b : TimeBase} {s : State} (kind : StartKind) (cause : Nat) (i : StartIn)
    (hs : Keeps q j b s) : ∃ b', Keeps q j b' (State.coldReset s kind cause i) := by
  refine ⟨s.fieldOff.time.afterCold.base, ?_⟩
  unfold State.coldReset
  have hf := State.fieldOff_keeps hs
  have h1 := State.lakeReset_keeps (State.netReset_keeps (State.resetCommon_keeps
    (fun k => keyStands k || k == K.supplyMonitor_SupplyStatus || k == K.ioBanks) kind cause
      (keeps_time hf s.fieldOff.time.afterCold)))
  dsimp only
  refine State.startRec_keeps (State.coreTests_keeps _ _ (State.bootBegin_keeps _ (State.selfTests_keeps _ _ (keeps_mk
    (State.modBoot_keeps _ (State.set_keeps _ _ (State.set_keeps _ _ (State.set_keeps _ _ (State.modPower_keeps _
      (State.leapReset_keeps (State.modProt_keeps _ ?_))))))) ⟨rfl, rfl, rfl, rfl, rfl⟩ ⟨rfl, rfl⟩))))
  exact ⟨h1.pending, h1.jtag, h1.base, ⟨h1.inv.1.1, h1.inv.1.2.1, rfl⟩, h1.inv.2.1, CoresSt.reset_memOk⟩

theorem State.coldDue_keeps {q : List Instr} {j : TapSt} {b : TimeBase} {s : State} (i : StartIn) (hs : Keeps q j b s) :
    ∃ b', Keeps q j b' (State.coldDue s i) := by
  unfold State.coldDue
  split
  · dsimp only
    split
    · exact State.coldReset_keeps _ _ _ hs
    · exact ⟨b, hs⟩
  · exact ⟨b, hs⟩

theorem State.powerUp_keeps {q : List Instr} {j : TapSt} {b : TimeBase} {s : State} (cause wake : Nat) (i : StartIn) (hs : Keeps q j b s) :
    ∃ j' b', Keeps q j' b' (State.powerUp s cause wake i) := by
  unfold State.powerUp
  split
  · exact ⟨j, b, hs⟩
  dsimp only
  have h1 : ∀ (t : TimeSt) (x : TapSt), Keeps q x t.base { s with time := t, jtag := x } :=
    fun t x => ⟨hs.pending, rfl, rfl, hs.inv.1, hs.inv.2.1, hs.inv.2.2⟩
  obtain ⟨b', h2⟩ := State.coldReset_keeps .power cause i (h1 { s.time.operate
      (if s.power.phase == .deep then (s.time.aon - s.power.reachedAon) * 1000 else 0) with
      cycles := if s.power.phase == .deep then s.time.cycles else min (2 ^ 24 - 1) (s.time.cycles + 1) }
    { TapSt.reset with trst := s.jtag.trst })
  exact ⟨_, b', State.set_keeps _ _ (State.set_keeps _ _ (State.set_keeps _ _ h2))⟩

theorem State.powerStart_keeps {q : List Instr} {j : TapSt} {b : TimeBase} {s : State} (wake : Nat) (i : StartIn) (hs : Keeps q j b s) :
    ∃ j' b', Keeps q j' b' (State.powerStart s wake i) := by
  unfold State.powerStart
  have h := State.modPower_keeps (fun p => { p with fails := 0 }) hs
  split
  · split
    · exact State.powerUp_keeps _ _ _ h
    · exact ⟨j, b, hs⟩
  · split
    · exact State.powerUp_keeps _ _ _ h
    · split
      · exact State.powerUp_keeps _ _ _ h
      · exact ⟨j, b, hs⟩
  · dsimp only
    split
    · exact State.powerUp_keeps _ _ _ h
    · exact ⟨j, b, hs⟩
  · exact ⟨j, b, hs⟩

theorem State.wakeRetry_keeps {q : List Instr} {j : TapSt} {b : TimeBase} {s : State} (i : StartIn) (hs : Keeps q j b s) :
    ∃ j' b', Keeps q j' b' (State.wakeRetry s i) := by
  unfold State.wakeRetry
  split
  · exact State.powerUp_keeps _ _ _ hs
  · exact ⟨j, b, hs⟩

theorem State.resetDue_keeps {q : List Instr} {j : TapSt} {b : TimeBase} {s : State} (kind : StartKind) (cause : Nat) (hs : Keeps q j b s) :
    Keeps q j b (State.resetDue s kind cause) := by
  unfold State.resetDue
  repeat' first
    | intro _
    | with_reducible assumption
    | with_reducible apply State.modBoot_keeps
    | with_reducible apply keeps_ite
    | with_reducible rfl
    | (extract_lets +onlyGivenNames -underBinder x; first | (refine keeps_cut (q := q) (j := j) (b := b) (x := x) ?_ ?_ <;> first | (intro h0; generalize x = y at h0 ⊢; clear x) | intro h0 | subst x) | (have h0 := Nat.zero_le x; generalize x = y at h0 ⊢; clear h0 x) | subst x)
    | split
    | dsimp only
    | (with_reducible refine keeps_mk ?_ ⟨rfl, rfl, rfl, rfl, rfl⟩ ⟨rfl, rfl⟩)

theorem State.rstN_keeps {q : List Instr} {j : TapSt} {b : TimeBase} {s : State} (ns : Nat) (i : StartIn) (hs : Keeps q j b s) :
    ∃ j' b', Keeps q j' b' (State.rstN s ns i) := by
  unfold State.rstN
  split
  · exact ⟨j, b, hs⟩
  have due : ∀ t, Keeps q j b t → Keeps q j b (if ns < 10000000 then t.resetDue .warm 2 else t.resetDue .cold 3) :=
    fun t h => keeps_ite (State.resetDue_keeps _ _ h) (State.resetDue_keeps _ _ h)
  have one := State.set_keeps K.powerControl_LastWakeCause 0 hs
  dsimp only
  split
  · exact ⟨j, b, keeps_ite (keeps_ite (due _ one) one) (due _ hs)⟩
  · exact ⟨j, b, keeps_ite (keeps_ite (due _ one) one) (due _ hs)⟩
  · exact ⟨j, b, due _ (State.wakeStart_keeps one)⟩
  · exact State.powerUp_keeps _ _ _ (State.modPower_keeps _ hs)
  · exact ⟨j, b, hs⟩

theorem State.watchdog_keeps {q : List Instr} {j : TapSt} {b : TimeBase} {s : State}  (hs : Keeps q j b s) :
    Keeps q j b (State.watchdog s) := by
  unfold State.watchdog
  repeat' first
    | intro _
    | with_reducible assumption
    | with_reducible apply State.flag_keeps
    | with_reducible apply State.resetDue_keeps
    | with_reducible apply State.modBoot_keeps
    | with_reducible apply keeps_ite
    | with_reducible rfl
    | (extract_lets +onlyGivenNames -underBinder x; first | (refine keeps_cut (q := q) (j := j) (b := b) (x := x) ?_ ?_ <;> first | (intro h0; generalize x = y at h0 ⊢; clear x) | intro h0 | subst x) | (have h0 := Nat.zero_le x; generalize x = y at h0 ⊢; clear h0 x) | subst x)
    | split
    | dsimp only
    | (with_reducible refine keeps_mk ?_ ⟨rfl, rfl, rfl, rfl, rfl⟩ ⟨rfl, rfl⟩)

theorem State.pllLock_keeps {q : List Instr} {j : TapSt} {b : TimeBase} {s : State} (hs : Keeps q j b s) :
    ∃ b', Keeps q j b' (State.pllLock s) := by
  unfold State.pllLock
  dsimp only
  split
  · exact ⟨_, State.modPower_keeps _ (keeps_time hs _)⟩
  · exact ⟨b, hs⟩

theorem State.objectsLoaded_keeps {q : List Instr} {j : TapSt} {b : TimeBase} {s : State}  (hs : Keeps q j b s) :
    Keeps q j b (State.objectsLoaded s) := by
  unfold State.objectsLoaded
  repeat' first
    | intro _
    | with_reducible assumption
    | with_reducible apply State.portTry_keeps
    | with_reducible apply State.outputsLoad_keeps
    | with_reducible apply keeps_foldl
    | with_reducible apply keeps_foldl_fst
    | with_reducible apply keeps_ite
    | with_reducible rfl
    | split
    | dsimp only
    | (with_reducible refine keeps_mk ?_ ⟨rfl, rfl, rfl, rfl, rfl⟩ ⟨rfl, rfl⟩)

theorem State.firmwareStart_keeps {q : List Instr} {j : TapSt} {b : TimeBase} {s : State}  (hs : Keeps q j b s) :
    Keeps q j b (State.firmwareStart s) := by
  unfold State.firmwareStart
  repeat' first
    | intro _
    | with_reducible assumption
    | with_reducible apply State.set_keeps
    | with_reducible apply State.log_keeps
    | with_reducible apply State.modCore_keeps
    | with_reducible apply State.modBoot_keeps
    | with_reducible apply State.levelTick_keeps
    | with_reducible apply State.reseedFinish_keeps
    | with_reducible apply State.startLog_keeps
    | with_reducible apply State.modPower_keeps
    | with_reducible apply State.qualifyBegin_keeps
    | with_reducible apply State.messagesRestart_keeps
    | with_reducible apply State.portsHello_keeps
    | with_reducible apply State.modReader_keeps
    | with_reducible apply State.slotsResume_keeps
    | with_reducible apply State.chainPower_keeps
    | with_reducible apply keeps_foldl
    | with_reducible apply keeps_foldl_fst
    | with_reducible apply keeps_ite
    | with_reducible rfl
    | (extract_lets +onlyGivenNames -underBinder x; first | (refine keeps_cut (q := q) (j := j) (b := b) (x := x) ?_ ?_ <;> first | (intro h0; generalize x = y at h0 ⊢; clear x) | intro h0 | subst x) | (have h0 := Nat.zero_le x; generalize x = y at h0 ⊢; clear h0 x) | subst x)
    | split
    | dsimp only
    | (with_reducible refine keeps_mk ?_ ⟨rfl, rfl, rfl, rfl, rfl⟩ ⟨rfl, rfl⟩)

theorem State.lanesDown_keeps {q : List Instr} {j : TapSt} {b : TimeBase} {s : State}  (hs : Keeps q j b s) :
    Keeps q j b (State.lanesDown s) := by
  unfold State.lanesDown
  repeat' first
    | intro _
    | with_reducible assumption
    | with_reducible apply State.flag_keeps
    | with_reducible apply State.portLeave_keeps
    | with_reducible apply State.modPort_keeps
    | with_reducible apply keeps_foldl
    | with_reducible apply keeps_foldl_fst
    | with_reducible apply keeps_ite
    | with_reducible rfl
    | (extract_lets +onlyGivenNames -underBinder x; first | (refine keeps_cut (q := q) (j := j) (b := b) (x := x) ?_ ?_ <;> first | (intro h0; generalize x = y at h0 ⊢; clear x) | intro h0 | subst x) | (have h0 := Nat.zero_le x; generalize x = y at h0 ⊢; clear h0 x) | subst x)
    | split
    | dsimp only
    | (with_reducible refine keeps_mk ?_ ⟨rfl, rfl, rfl, rfl, rfl⟩ ⟨rfl, rfl⟩)

theorem State.radioDown_keeps {q : List Instr} {j : TapSt} {b : TimeBase} {s : State}  (hs : Keeps q j b s) :
    Keeps q j b (State.radioDown s) := by
  unfold State.radioDown
  repeat' first
    | intro _
    | with_reducible assumption
    | with_reducible apply State.set_keeps
    | with_reducible apply State.calUnqueue_keeps
    | with_reducible apply State.modChain_keeps
    | with_reducible apply State.modAnt_keeps
    | with_reducible apply State.raise_keeps
    | with_reducible apply keeps_foldl
    | with_reducible apply keeps_foldl_fst
    | with_reducible apply keeps_ite
    | with_reducible rfl
    | (extract_lets +onlyGivenNames -underBinder x; first | (refine keeps_cut (q := q) (j := j) (b := b) (x := x) ?_ ?_ <;> first | (intro h0; generalize x = y at h0 ⊢; clear x) | intro h0 | subst x) | (have h0 := Nat.zero_le x; generalize x = y at h0 ⊢; clear h0 x) | subst x)
    | split
    | dsimp only
    | (with_reducible refine keeps_mk ?_ ⟨rfl, rfl, rfl, rfl, rfl⟩ ⟨rfl, rfl⟩)

theorem State.supplyLost_keeps {q : List Instr} {j : TapSt} {b0 : TimeBase} {s : State} (b : Nat) (hs : Keeps q j b0 s) :
    Keeps q j b0 (State.supplyLost s b) := by
  unfold State.supplyLost
  repeat' first
    | intro _
    | with_reducible assumption
    | with_reducible apply State.set_keeps
    | with_reducible apply State.radioDown_keeps
    | with_reducible apply State.lanesDown_keeps
    | with_reducible apply State.readerSupply_keeps
    | with_reducible apply keeps_ite
    | with_reducible rfl
    | split
    | dsimp only
    | (with_reducible refine keeps_mk ?_ ⟨rfl, rfl, rfl, rfl, rfl⟩ ⟨rfl, rfl⟩)

theorem State.supplyDrop_keeps {q : List Instr} {j : TapSt} {b : TimeBase} {s : State} (mask : Nat) (hs : Keeps q j b s) :
    Keeps q j b (State.supplyDrop s mask) := by
  unfold State.supplyDrop
  repeat' first
    | intro _
    | with_reducible assumption
    | with_reducible apply State.set_keeps
    | with_reducible apply State.supplyLost_keeps
    | with_reducible apply State.resetDue_keeps
    | with_reducible apply State.modBoot_keeps
    | with_reducible apply State.modPower_keeps
    | with_reducible apply State.raise_keeps
    | with_reducible apply State.bumpBy_keeps
    | with_reducible apply keeps_foldl
    | with_reducible apply keeps_foldl_fst
    | with_reducible apply keeps_ite
    | with_reducible rfl
    | (extract_lets +onlyGivenNames -underBinder x; first | (refine keeps_cut (q := q) (j := j) (b := b) (x := x) ?_ ?_ <;> first | (intro h0; generalize x = y at h0 ⊢; clear x) | intro h0 | subst x) | (have h0 := Nat.zero_le x; generalize x = y at h0 ⊢; clear h0 x) | subst x)
    | split
    | dsimp only
    | (with_reducible refine keeps_mk ?_ ⟨rfl, rfl, rfl, rfl, rfl⟩ ⟨rfl, rfl⟩)

theorem State.supplyReturn_keeps {q : List Instr} {j : TapSt} {b : TimeBase} {s : State} (mask : Nat) (banks : Nat) (hs : Keeps q j b s) :
    Keeps q j b (State.supplyReturn s mask banks) := by
  unfold State.supplyReturn
  repeat' first
    | intro _
    | with_reducible assumption
    | with_reducible apply State.set_keeps
    | with_reducible apply State.portTry_keeps
    | with_reducible apply State.modAnt_keeps
    | with_reducible apply keeps_foldl
    | with_reducible apply keeps_foldl_fst
    | with_reducible apply keeps_ite
    | with_reducible rfl
    | (extract_lets +onlyGivenNames -underBinder x; first | (refine keeps_cut (q := q) (j := j) (b := b) (x := x) ?_ ?_ <;> first | (intro h0; generalize x = y at h0 ⊢; clear x) | intro h0 | subst x) | (have h0 := Nat.zero_le x; generalize x = y at h0 ⊢; clear h0 x) | subst x)
    | split
    | dsimp only
    | (with_reducible refine keeps_mk ?_ ⟨rfl, rfl, rfl, rfl, rfl⟩ ⟨rfl, rfl⟩)

/-! ### VuvanCmds -/

theorem State.storeWord_keeps {q : List Instr} {j : TapSt} {b : TimeBase} {s : State} (core at_ : Nat) (a w : Word) (hs : Keeps q j b s) :
    Keeps q j b (State.storeWord s core at_ a w) := by
  unfold State.storeWord
  split
  · dsimp only
    split
    · exact (State.writeWord_keeps _ _ _ (State.reach_keeps _ hs)).ok _ (by with_reducible assumption)
    · exact State.takeTrap_keeps _ _ _ _ (State.reach_keeps _ hs)
  · exact hs

end Sys2Proof.Machine
end

