-- ==== Sys2Proof/Laws/ExecKeeps.lean ====
section
/-!
SUPPORT. What each command keeps, and that it answers a next state.
-/

set_option linter.all false
set_option Elab.async false

namespace Sys2Proof.Machine

variable {q : List Instr} {j : TapSt} {b : TimeBase} {s : State}

theorem execCountingBegins_keeps (n : Nat) (at_ : Nat) (hs : Keeps q j b s) :
    ∃ t, execCountingBegins n at_ s = .next t ∧ Keeps q j b t := by
  refine ⟨_, rfl, ?_⟩
  repeat' first
    | intro _
    | with_reducible assumption
    | with_reducible apply State.timerStart_keeps
    | with_reducible apply State.timersSettle_keeps
    | with_reducible apply onlyIf_keeps
    | dsimp only
    | (with_reducible refine keeps_mk ?_ ⟨rfl, rfl, rfl, rfl, rfl⟩ ⟨rfl, rfl⟩)

theorem execUnderflow_keeps (n : Nat) (at_ : Nat) (hs : Keeps q j b s) :
    ∃ t, execUnderflow n at_ s = .next t ∧ Keeps q j b t := by
  refine ⟨_, rfl, ?_⟩
  repeat' first
    | intro _
    | with_reducible assumption
    | with_reducible apply State.timerEventAt_keeps
    | with_reducible apply onlyIf_keeps
    | dsimp only
    | (with_reducible refine keeps_mk ?_ ⟨rfl, rfl, rfl, rfl, rfl⟩ ⟨rfl, rfl⟩)

theorem execCompareMatch_keeps (n : Nat) (w : Nat) (at_ : Nat) (hs : Keeps q j b s) :
    ∃ t, execCompareMatch n w at_ s = .next t ∧ Keeps q j b t := by
  refine ⟨_, rfl, ?_⟩
  repeat' first
    | intro _
    | with_reducible assumption
    | with_reducible apply State.timerEventAt_keeps
    | with_reducible apply onlyIf_keeps
    | dsimp only
    | (with_reducible refine keeps_mk ?_ ⟨rfl, rfl, rfl, rfl, rfl⟩ ⟨rfl, rfl⟩)

theorem execCtoPulseEnd_keeps (o : Nat) (at_ : Nat) (hs : Keeps q j b s) :
    ∃ t, execCtoPulseEnd o at_ s = .next t ∧ Keeps q j b t := by
  refine ⟨_, rfl, ?_⟩
  repeat' first
    | intro _
    | with_reducible assumption
    | with_reducible apply State.timersSettle_keeps
    | with_reducible apply State.pulseEnd_keeps
    | with_reducible apply State.reach_keeps
    | with_reducible apply onlyIf_keeps
    | dsimp only
    | (with_reducible refine keeps_mk ?_ ⟨rfl, rfl, rfl, rfl, rfl⟩ ⟨rfl, rfl⟩)

theorem execCapture_keeps (i : Nat) (rising : Bool) (at_ : Nat) (hs : Keeps q j b s) :
    ∃ t, execCapture i rising at_ s = .next t ∧ Keeps q j b t := by
  refine ⟨_, rfl, ?_⟩
  repeat' first
    | intro _
    | with_reducible assumption
    | with_reducible apply State.capture_keeps
    | with_reducible apply State.reach_keeps
    | with_reducible apply onlyIf_keeps
    | with_reducible apply keeps_ite
    | split
    | dsimp only
    | (with_reducible refine keeps_mk ?_ ⟨rfl, rfl, rfl, rfl, rfl⟩ ⟨rfl, rfl⟩)

theorem execTimerPinEdge_keeps (i : Nat) (rising : Bool) (at_ : Nat) (hs : Keeps q j b s) :
    ∃ t, execTimerPinEdge i rising at_ s = .next t ∧ Keeps q j b t := by
  refine ⟨_, rfl, ?_⟩
  repeat' first
    | intro _
    | with_reducible assumption
    | with_reducible apply State.timersPin_keeps
    | with_reducible apply State.timersSettle_keeps
    | with_reducible apply State.reach_keeps
    | with_reducible apply onlyIf_keeps
    | with_reducible apply keeps_ite
    | (extract_lets +onlyGivenNames -underBinder x; first | (refine keeps_cut (q := q) (j := j) (b := b) (x := x) ?_ ?_ <;> first | (intro h0; generalize x = y at h0 ⊢; clear x) | intro h0 | subst x) | subst x)
    | split
    | dsimp only
    | (with_reducible refine keeps_mk ?_ ⟨rfl, rfl, rfl, rfl, rfl⟩ ⟨rfl, rfl⟩)

theorem execAntennaShort_keeps (a : Nat) (at_ : Nat) (hs : Keeps q j b s) :
    ∃ t, execAntennaShort a at_ s = .next t ∧ Keeps q j b t := by
  refine ⟨_, rfl, ?_⟩
  repeat' first
    | intro _
    | with_reducible assumption
    | with_reducible apply State.antShort_keeps
    | with_reducible apply State.reach_keeps
    | with_reducible apply onlyIf_keeps
    | dsimp only
    | (with_reducible refine keeps_mk ?_ ⟨rfl, rfl, rfl, rfl, rfl⟩ ⟨rfl, rfl⟩)

theorem execShortTrial_keeps (a : Nat) (current : Nat) (at_ : Nat) (hs : Keeps q j b s) :
    ∃ t, execShortTrial a current at_ s = .next t ∧ Keeps q j b t := by
  refine ⟨_, rfl, ?_⟩
  repeat' first
    | intro _
    | with_reducible assumption
    | with_reducible apply State.antTrial_keeps
    | with_reducible apply State.reach_keeps
    | with_reducible apply onlyIf_keeps
    | dsimp only
    | (with_reducible refine keeps_mk ?_ ⟨rfl, rfl, rfl, rfl, rfl⟩ ⟨rfl, rfl⟩)

theorem execAntennaSupplyLow_keeps (a : Nat) (mv : Nat) (hs : Keeps q j b s) :
    ∃ t, execAntennaSupplyLow a mv s = .next t ∧ Keeps q j b t := by
  refine ⟨_, rfl, ?_⟩
  repeat' first
    | intro _
    | with_reducible assumption
    | with_reducible apply State.antLow_keeps
    | with_reducible apply onlyIf_keeps
    | dsimp only
    | (with_reducible refine keeps_mk ?_ ⟨rfl, rfl, rfl, rfl, rfl⟩ ⟨rfl, rfl⟩)

theorem execSupplyLowCleared_keeps (a : Nat) (mv : Nat) (hs : Keeps q j b s) :
    ∃ t, execSupplyLowCleared a mv s = .next t ∧ Keeps q j b t := by
  refine ⟨_, rfl, ?_⟩
  repeat' first
    | intro _
    | with_reducible assumption
    | with_reducible apply State.antLowEnd_keeps
    | with_reducible apply onlyIf_keeps
    | dsimp only
    | (with_reducible refine keeps_mk ?_ ⟨rfl, rfl, rfl, rfl, rfl⟩ ⟨rfl, rfl⟩)

theorem execAntennaOpen_keeps (a : Nat) (current : Nat) (hs : Keeps q j b s) :
    ∃ t, execAntennaOpen a current s = .next t ∧ Keeps q j b t := by
  refine ⟨_, rfl, ?_⟩
  repeat' first
    | intro _
    | with_reducible assumption
    | with_reducible apply State.antOpen_keeps
    | with_reducible apply onlyIf_keeps
    | dsimp only
    | (with_reducible refine keeps_mk ?_ ⟨rfl, rfl, rfl, rfl, rfl⟩ ⟨rfl, rfl⟩)

theorem execOpenCleared_keeps (a : Nat) (current : Nat) (hs : Keeps q j b s) :
    ∃ t, execOpenCleared a current s = .next t ∧ Keeps q j b t := by
  refine ⟨_, rfl, ?_⟩
  repeat' first
    | intro _
    | with_reducible assumption
    | with_reducible apply State.antOpenEnd_keeps
    | with_reducible apply onlyIf_keeps
    | dsimp only
    | (with_reducible refine keeps_mk ?_ ⟨rfl, rfl, rfl, rfl, rfl⟩ ⟨rfl, rfl⟩)

theorem execAgcBaselineLearned_keeps (c : Nat) (hs : Keeps q j b s) :
    ∃ t, execAgcBaselineLearned c s = .next t ∧ Keeps q j b t := by
  refine ⟨_, rfl, ?_⟩
  repeat' first
    | intro _
    | with_reducible assumption
    | with_reducible apply State.baselineLearn_keeps
    | with_reducible apply onlyIf_keeps
    | dsimp only
    | (with_reducible refine keeps_mk ?_ ⟨rfl, rfl, rfl, rfl, rfl⟩ ⟨rfl, rfl⟩)

theorem execNotchSpectrum_keeps (c : Nat) (lines : List (Nat × Int × Nat)) (hs : Keeps q j b s) :
    ∃ t, execNotchSpectrum c lines s = .next t ∧ Keeps q j b t := by
  refine ⟨_, rfl, ?_⟩
  repeat' first
    | intro _
    | with_reducible assumption
    | with_reducible apply State.notchSpectrum_keeps
    | with_reducible apply onlyIf_keeps
    | dsimp only
    | (with_reducible refine keeps_mk ?_ ⟨rfl, rfl, rfl, rfl, rfl⟩ ⟨rfl, rfl⟩)

theorem execLoUnlock_keeps (c : Nat) (at_ : Nat) (hs : Keeps q j b s) :
    ∃ t, execLoUnlock c at_ s = .next t ∧ Keeps q j b t := by
  refine ⟨_, rfl, ?_⟩
  repeat' first
    | intro _
    | with_reducible assumption
    | with_reducible apply State.loUnlock_keeps
    | with_reducible apply State.reach_keeps
    | with_reducible apply onlyIf_keeps
    | dsimp only
    | (with_reducible refine keeps_mk ?_ ⟨rfl, rfl, rfl, rfl, rfl⟩ ⟨rfl, rfl⟩)

theorem execCalStepComplete_keeps (pass : Bool) (image : Nat) (at_ : Nat) (hs : Keeps q j b s) :
    ∃ t, execCalStepComplete pass image at_ s = .next t ∧ Keeps q j b t := by
  refine ⟨_, rfl, ?_⟩
  repeat' first
    | intro _
    | with_reducible assumption
    | with_reducible apply State.calStepEnd_keeps
    | with_reducible apply State.reach_keeps
    | with_reducible apply onlyIf_keeps
    | dsimp only
    | (with_reducible refine keeps_mk ?_ ⟨rfl, rfl, rfl, rfl, rfl⟩ ⟨rfl, rfl⟩)

theorem execChainFaultRetry_keeps (c : Nat) (hs : Keeps q j b s) :
    ∃ t, execChainFaultRetry c s = .next t ∧ Keeps q j b t := by
  refine ⟨_, rfl, ?_⟩
  repeat' first
    | intro _
    | with_reducible assumption
    | with_reducible apply State.faultRetry_keeps
    | with_reducible apply onlyIf_keeps
    | dsimp only
    | (with_reducible refine keeps_mk ?_ ⟨rfl, rfl, rfl, rfl, rfl⟩ ⟨rfl, rfl⟩)

theorem execSpectrumAveragingStart_keeps  (hs : Keeps q j b s) :
    ∃ t, execSpectrumAveragingStart s = .next t ∧ Keeps q j b t := by
  refine ⟨_, rfl, ?_⟩
  repeat' first
    | intro _
    | with_reducible assumption
    | with_reducible apply State.specStart_keeps
    | with_reducible apply onlyIf_keeps
    | dsimp only
    | (with_reducible refine keeps_mk ?_ ⟨rfl, rfl, rfl, rfl, rfl⟩ ⟨rfl, rfl⟩)

theorem execSpectrumEntry_keeps (powers : List Int) (hs : Keeps q j b s) :
    ∃ t, execSpectrumEntry powers s = .next t ∧ Keeps q j b t := by
  refine ⟨_, rfl, ?_⟩
  repeat' first
    | intro _
    | with_reducible assumption
    | with_reducible apply State.specEntry_keeps
    | with_reducible apply onlyIf_keeps
    | dsimp only
    | (with_reducible refine keeps_mk ?_ ⟨rfl, rfl, rfl, rfl, rfl⟩ ⟨rfl, rfl⟩)

theorem execDumpLatch_keeps (n : Nat) (data : List Int) (pilot : List Int) (mm : List Int) (hs : Keeps q j b s) :
    ∃ t, execDumpLatch n data pilot mm s = .next t ∧ Keeps q j b t := by
  refine ⟨_, rfl, ?_⟩
  repeat' first
    | intro _
    | with_reducible assumption
    | with_reducible apply State.dumpLatch_keeps
    | with_reducible apply onlyIf_keeps
    | dsimp only
    | (with_reducible refine keeps_mk ?_ ⟨rfl, rfl, rfl, rfl, rfl⟩ ⟨rfl, rfl⟩)

theorem execSlotStateChange_keeps (n : Nat) (hs : Keeps q j b s) :
    ∃ t, execSlotStateChange n s = .next t ∧ Keeps q j b t := by
  refine ⟨_, rfl, ?_⟩
  repeat' first
    | intro _
    | with_reducible assumption
    | with_reducible apply State.slotChange_keeps
    | with_reducible apply onlyIf_keeps
    | dsimp only
    | (with_reducible refine keeps_mk ?_ ⟨rfl, rfl, rfl, rfl, rfl⟩ ⟨rfl, rfl⟩)

theorem execPullInFailed_keeps (n : Nat) (hs : Keeps q j b s) :
    ∃ t, execPullInFailed n s = .next t ∧ Keeps q j b t := by
  refine ⟨_, rfl, ?_⟩
  repeat' first
    | intro _
    | with_reducible assumption
    | with_reducible apply State.pullInFailed_keeps
    | with_reducible apply onlyIf_keeps
    | dsimp only
    | (with_reducible refine keeps_mk ?_ ⟨rfl, rfl, rfl, rfl, rfl⟩ ⟨rfl, rfl⟩)

theorem execLostTimeout_keeps (n : Nat) (hs : Keeps q j b s) :
    ∃ t, execLostTimeout n s = .next t ∧ Keeps q j b t := by
  refine ⟨_, rfl, ?_⟩
  repeat' first
    | intro _
    | with_reducible assumption
    | with_reducible apply State.lostTimeout_keeps
    | with_reducible apply onlyIf_keeps
    | dsimp only
    | (with_reducible refine keeps_mk ?_ ⟨rfl, rfl, rfl, rfl, rfl⟩ ⟨rfl, rfl⟩)

theorem execParityFault_keeps (n : Nat) (again : Bool) (hs : Keeps q j b s) :
    ∃ t, execParityFault n again s = .next t ∧ Keeps q j b t := by
  refine ⟨_, rfl, ?_⟩
  repeat' first
    | intro _
    | with_reducible assumption
    | with_reducible apply State.parityFault_keeps
    | with_reducible apply onlyIf_keeps
    | dsimp only
    | (with_reducible refine keeps_mk ?_ ⟨rfl, rfl, rfl, rfl, rfl⟩ ⟨rfl, rfl⟩)

theorem execSlotRetired_keeps (n : Nat) (hs : Keeps q j b s) :
    ∃ t, execSlotRetired n s = .next t ∧ Keeps q j b t := by
  refine ⟨_, rfl, ?_⟩
  repeat' first
    | intro _
    | with_reducible assumption
    | with_reducible apply State.slotRetire_keeps
    | with_reducible apply onlyIf_keeps
    | dsimp only
    | (with_reducible refine keeps_mk ?_ ⟨rfl, rfl, rfl, rfl, rfl⟩ ⟨rfl, rfl⟩)

theorem execCrossCorrDrop_keeps (n : Nat) (hs : Keeps q j b s) :
    ∃ t, execCrossCorrDrop n s = .next t ∧ Keeps q j b t := by
  refine ⟨_, rfl, ?_⟩
  repeat' first
    | intro _
    | with_reducible assumption
    | with_reducible apply State.crossDrop_keeps
    | with_reducible apply onlyIf_keeps
    | dsimp only
    | (with_reducible refine keeps_mk ?_ ⟨rfl, rfl, rfl, rfl, rfl⟩ ⟨rfl, rfl⟩)

theorem execHistogramRestart_keeps (n : Nat) (hs : Keeps q j b s) :
    ∃ t, execHistogramRestart n s = .next t ∧ Keeps q j b t := by
  refine ⟨_, rfl, ?_⟩
  repeat' first
    | intro _
    | with_reducible assumption
    | with_reducible apply State.modSlot_keeps
    | with_reducible apply onlyIf_keeps
    | with_reducible apply keeps_ite
    | split
    | dsimp only
    | (with_reducible refine keeps_mk ?_ ⟨rfl, rfl, rfl, rfl, rfl⟩ ⟨rfl, rfl⟩)

theorem execEphemerisExpired_keeps (e : Nat) (hs : Keeps q j b s) :
    ∃ t, execEphemerisExpired e s = .next t ∧ Keeps q j b t := by
  refine ⟨_, rfl, ?_⟩
  repeat' first
    | intro _
    | with_reducible assumption
    | with_reducible apply State.storeExpire_keeps
    | with_reducible apply onlyIf_keeps
    | dsimp only
    | (with_reducible refine keeps_mk ?_ ⟨rfl, rfl, rfl, rfl, rfl⟩ ⟨rfl, rfl⟩)

theorem execLeapApplied_keeps  (hs : Keeps q j b s) :
    ∃ t, execLeapApplied s = .next t ∧ Keeps q j b t := by
  refine ⟨_, rfl, ?_⟩
  repeat' first
    | intro _
    | with_reducible assumption
    | with_reducible apply State.leapDue_keeps
    | with_reducible apply onlyIf_keeps
    | dsimp only
    | (with_reducible refine keeps_mk ?_ ⟨rfl, rfl, rfl, rfl, rfl⟩ ⟨rfl, rfl⟩)

theorem execAidedWindowUpdate_keeps (n : Nat) (at_ : Nat) (hs : Keeps q j b s) :
    ∃ t, execAidedWindowUpdate n at_ s = .next t ∧ Keeps q j b t := by
  refine ⟨_, rfl, ?_⟩
  repeat' first
    | intro _
    | with_reducible assumption
    | with_reducible apply State.aidedWindow_keeps
    | with_reducible apply State.reach_keeps
    | with_reducible apply onlyIf_keeps
    | (extract_lets +onlyGivenNames -underBinder x; first | (refine keeps_cut (q := q) (j := j) (b := b) (x := x) ?_ ?_ <;> first | (intro h0; generalize x = y at h0 ⊢; clear x) | intro h0 | subst x) | subst x)
    | dsimp only
    | (with_reducible refine keeps_mk ?_ ⟨rfl, rfl, rfl, rfl, rfl⟩ ⟨rfl, rfl⟩)

theorem execDecodeComplete_keeps (d : Nat) (at_ : Nat) (hs : Keeps q j b s) :
    ∃ t, execDecodeComplete d at_ s = .next t ∧ Keeps q j b t := by
  refine ⟨_, rfl, ?_⟩
  repeat' first
    | intro _
    | with_reducible assumption
    | with_reducible apply State.decodeComplete_keeps
    | with_reducible apply State.reach_keeps
    | with_reducible apply onlyIf_keeps
    | (extract_lets +onlyGivenNames -underBinder x; first | (refine keeps_cut (q := q) (j := j) (b := b) (x := x) ?_ ?_ <;> first | (intro h0; generalize x = y at h0 ⊢; clear x) | intro h0 | subst x) | subst x)
    | dsimp only
    | (with_reducible refine keeps_mk ?_ ⟨rfl, rfl, rfl, rfl, rfl⟩ ⟨rfl, rfl⟩)

theorem execAsymCalPeriod_keeps (n : Nat) (peer : Int) (sigma : Nat) (hs : Keeps q j b s) :
    ∃ t, execAsymCalPeriod n peer sigma s = .next t ∧ Keeps q j b t := by
  refine ⟨_, rfl, ?_⟩
  repeat' first
    | intro _
    | with_reducible assumption
    | with_reducible apply State.asymCal_keeps
    | with_reducible apply onlyIf_keeps
    | dsimp only
    | (with_reducible refine keeps_mk ?_ ⟨rfl, rfl, rfl, rfl, rfl⟩ ⟨rfl, rfl⟩)

theorem execSignalDetect_keeps (n : Nat) (hs : Keeps q j b s) :
    ∃ t, execSignalDetect n s = .next t ∧ Keeps q j b t := by
  refine ⟨_, rfl, ?_⟩
  repeat' first
    | intro _
    | with_reducible assumption
    | with_reducible apply State.signalDetect_keeps
    | with_reducible apply onlyIf_keeps
    | dsimp only
    | (with_reducible refine keeps_mk ?_ ⟨rfl, rfl, rfl, rfl, rfl⟩ ⟨rfl, rfl⟩)

theorem execGroupReferenceValid_keeps (k : Nat) (hs : Keeps q j b s) :
    ∃ t, execGroupReferenceValid k s = .next t ∧ Keeps q j b t := by
  refine ⟨_, rfl, ?_⟩
  repeat' first
    | intro _
    | with_reducible assumption
    | with_reducible apply State.groupValid_keeps
    | with_reducible apply onlyIf_keeps
    | dsimp only
    | (with_reducible refine keeps_mk ?_ ⟨rfl, rfl, rfl, rfl, rfl⟩ ⟨rfl, rfl⟩)

theorem execTrainingComplete_keeps (n : Nat) (eth : Bool) (hs : Keeps q j b s) :
    ∃ t, execTrainingComplete n eth s = .next t ∧ Keeps q j b t := by
  refine ⟨_, rfl, ?_⟩
  repeat' first
    | intro _
    | with_reducible assumption
    | with_reducible apply State.trainingComplete_keeps
    | with_reducible apply onlyIf_keeps
    | dsimp only
    | (with_reducible refine keeps_mk ?_ ⟨rfl, rfl, rfl, rfl, rfl⟩ ⟨rfl, rfl⟩)

theorem execAutoModeSwitch_keeps (n : Nat) (at_ : Nat) (hs : Keeps q j b s) :
    ∃ t, execAutoModeSwitch n at_ s = .next t ∧ Keeps q j b t := by
  refine ⟨_, rfl, ?_⟩
  repeat' first
    | intro _
    | with_reducible assumption
    | with_reducible apply State.autoSwitch_keeps
    | with_reducible apply State.reach_keeps
    | with_reducible apply onlyIf_keeps
    | dsimp only
    | (with_reducible refine keeps_mk ?_ ⟨rfl, rfl, rfl, rfl, rfl⟩ ⟨rfl, rfl⟩)

theorem execTrainFail_keeps (n : Nat) (at_ : Nat) (hs : Keeps q j b s) :
    ∃ t, execTrainFail n at_ s = .next t ∧ Keeps q j b t := by
  refine ⟨_, rfl, ?_⟩
  repeat' first
    | intro _
    | with_reducible assumption
    | with_reducible apply State.trainFail_keeps
    | with_reducible apply State.reach_keeps
    | with_reducible apply onlyIf_keeps
    | dsimp only
    | (with_reducible refine keeps_mk ?_ ⟨rfl, rfl, rfl, rfl, rfl⟩ ⟨rfl, rfl⟩)

theorem execTrainRetry_keeps (n : Nat) (at_ : Nat) (hs : Keeps q j b s) :
    ∃ t, execTrainRetry n at_ s = .next t ∧ Keeps q j b t := by
  refine ⟨_, rfl, ?_⟩
  repeat' first
    | intro _
    | with_reducible assumption
    | with_reducible apply State.trainRetry_keeps
    | with_reducible apply State.reach_keeps
    | with_reducible apply onlyIf_keeps
    | dsimp only
    | (with_reducible refine keeps_mk ?_ ⟨rfl, rfl, rfl, rfl, rfl⟩ ⟨rfl, rfl⟩)

theorem execLos_keeps (n : Nat) (group : Bool) (hs : Keeps q j b s) :
    ∃ t, execLos n group s = .next t ∧ Keeps q j b t := by
  refine ⟨_, rfl, ?_⟩
  repeat' first
    | intro _
    | with_reducible assumption
    | with_reducible apply State.los_keeps
    | with_reducible apply onlyIf_keeps
    | dsimp only
    | (with_reducible refine keeps_mk ?_ ⟨rfl, rfl, rfl, rfl, rfl⟩ ⟨rfl, rfl⟩)

theorem execHello_keeps (n : Nat) (frame : List Nat) (hs : Keeps q j b s) :
    ∃ t, execHello n frame s = .next t ∧ Keeps q j b t := by
  refine ⟨_, rfl, ?_⟩
  repeat' first
    | intro _
    | with_reducible assumption
    | with_reducible apply State.hello_keeps
    | with_reducible apply onlyIf_keeps
    | dsimp only
    | (with_reducible refine keeps_mk ?_ ⟨rfl, rfl, rfl, rfl, rfl⟩ ⟨rfl, rfl⟩)

theorem execLinkData_keeps (n : Nat) (frame : List Nat) (at_ : Nat) (hs : Keeps q j b s) :
    ∃ t, execLinkData n frame at_ s = .next t ∧ Keeps q j b t := by
  refine ⟨_, rfl, ?_⟩
  repeat' first
    | intro _
    | with_reducible assumption
    | with_reducible apply State.linkData_keeps
    | with_reducible apply State.reach_keeps
    | with_reducible apply onlyIf_keeps
    | dsimp only
    | (with_reducible refine keeps_mk ?_ ⟨rfl, rfl, rfl, rfl, rfl⟩ ⟨rfl, rfl⟩)

theorem execLinkAck_keeps (n : Nat) (frame : List Nat) (at_ : Nat) (hs : Keeps q j b s) :
    ∃ t, execLinkAck n frame at_ s = .next t ∧ Keeps q j b t := by
  refine ⟨_, rfl, ?_⟩
  repeat' first
    | intro _
    | with_reducible assumption
    | with_reducible apply State.linkAck_keeps
    | with_reducible apply State.reach_keeps
    | with_reducible apply onlyIf_keeps
    | dsimp only
    | (with_reducible refine keeps_mk ?_ ⟨rfl, rfl, rfl, rfl, rfl⟩ ⟨rfl, rfl⟩)

theorem execNak_keeps (n : Nat) (frame : List Nat) (at_ : Nat) (hs : Keeps q j b s) :
    ∃ t, execNak n frame at_ s = .next t ∧ Keeps q j b t := by
  refine ⟨_, rfl, ?_⟩
  repeat' first
    | intro _
    | with_reducible assumption
    | with_reducible apply State.linkNak_keeps
    | with_reducible apply State.reach_keeps
    | with_reducible apply onlyIf_keeps
    | dsimp only
    | (with_reducible refine keeps_mk ?_ ⟨rfl, rfl, rfl, rfl, rfl⟩ ⟨rfl, rfl⟩)

theorem execAckTimeout_keeps (n : Nat) (at_ : Nat) (hs : Keeps q j b s) :
    ∃ t, execAckTimeout n at_ s = .next t ∧ Keeps q j b t := by
  refine ⟨_, rfl, ?_⟩
  repeat' first
    | intro _
    | with_reducible assumption
    | with_reducible apply State.ackExpire_keeps
    | with_reducible apply State.reach_keeps
    | with_reducible apply onlyIf_keeps
    | dsimp only
    | (with_reducible refine keeps_mk ?_ ⟨rfl, rfl, rfl, rfl, rfl⟩ ⟨rfl, rfl⟩)

theorem execTimingFrame_keeps (n : Nat) (frame : List Nat) (at_ : Nat) (hs : Keeps q j b s) :
    ∃ t, execTimingFrame n frame at_ s = .next t ∧ Keeps q j b t := by
  refine ⟨_, rfl, ?_⟩
  repeat' first
    | intro _
    | with_reducible assumption
    | with_reducible apply State.timingFrameIn_keeps
    | with_reducible apply State.reach_keeps
    | with_reducible apply onlyIf_keeps
    | dsimp only
    | (with_reducible refine keeps_mk ?_ ⟨rfl, rfl, rfl, rfl, rfl⟩ ⟨rfl, rfl⟩)

theorem execTimingRecordPosted_keeps (n : Nat) (at_ : Nat) (hs : Keeps q j b s) :
    ∃ t, execTimingRecordPosted n at_ s = .next t ∧ Keeps q j b t := by
  refine ⟨_, rfl, ?_⟩
  repeat' first
    | intro _
    | with_reducible assumption
    | with_reducible apply State.recordPost_keeps
    | with_reducible apply State.reach_keeps
    | with_reducible apply onlyIf_keeps
    | dsimp only
    | (with_reducible refine keeps_mk ?_ ⟨rfl, rfl, rfl, rfl, rfl⟩ ⟨rfl, rfl⟩)

theorem execLinkMissing_keeps (n : Nat) (hs : Keeps q j b s) :
    ∃ t, execLinkMissing n s = .next t ∧ Keeps q j b t := by
  refine ⟨_, rfl, ?_⟩
  repeat' first
    | intro _
    | with_reducible assumption
    | with_reducible apply State.linkMissing_keeps
    | with_reducible apply State.reach_keeps
    | with_reducible apply onlyIf_keeps
    | dsimp only
    | (with_reducible refine keeps_mk ?_ ⟨rfl, rfl, rfl, rfl, rfl⟩ ⟨rfl, rfl⟩)

theorem execErrorSecond_keeps (n : Nat) (errs : Nat) (hs : Keeps q j b s) :
    ∃ t, execErrorSecond n errs s = .next t ∧ Keeps q j b t := by
  refine ⟨_, rfl, ?_⟩
  repeat' first
    | intro _
    | with_reducible assumption
    | with_reducible apply State.errorSecond_keeps
    | with_reducible apply onlyIf_keeps
    | dsimp only
    | (with_reducible refine keeps_mk ?_ ⟨rfl, rfl, rfl, rfl, rfl⟩ ⟨rfl, rfl⟩)

theorem execDegradedRecovery_keeps (n : Nat) (hs : Keeps q j b s) :
    ∃ t, execDegradedRecovery n s = .next t ∧ Keeps q j b t := by
  refine ⟨_, rfl, ?_⟩
  repeat' first
    | intro _
    | with_reducible assumption
    | with_reducible apply State.recovery_keeps
    | with_reducible apply onlyIf_keeps
    | dsimp only
    | (with_reducible refine keeps_mk ?_ ⟨rfl, rfl, rfl, rfl, rfl⟩ ⟨rfl, rfl⟩)

theorem execFrameLaunch_keeps (n : Nat) (at_ : Nat) (hs : Keeps q j b s) :
    ∃ t, execFrameLaunch n at_ s = .next t ∧ Keeps q j b t := by
  refine ⟨_, rfl, ?_⟩
  repeat' first
    | intro _
    | with_reducible assumption
    | with_reducible apply State.frameLaunch_keeps
    | with_reducible apply State.reach_keeps
    | with_reducible apply onlyIf_keeps
    | dsimp only
    | (with_reducible refine keeps_mk ?_ ⟨rfl, rfl, rfl, rfl, rfl⟩ ⟨rfl, rfl⟩)

theorem execSyncInterval_keeps (n : Nat) (at_ : Nat) (hs : Keeps q j b s) :
    ∃ t, execSyncInterval n at_ s = .next t ∧ Keeps q j b t := by
  refine ⟨_, rfl, ?_⟩
  repeat' first
    | intro _
    | with_reducible assumption
    | with_reducible apply State.syncSend_keeps
    | with_reducible apply State.reach_keeps
    | with_reducible apply onlyIf_keeps
    | dsimp only
    | (with_reducible refine keeps_mk ?_ ⟨rfl, rfl, rfl, rfl, rfl⟩ ⟨rfl, rfl⟩)

theorem execAnnounceInterval_keeps (n : Nat) (at_ : Nat) (hs : Keeps q j b s) :
    ∃ t, execAnnounceInterval n at_ s = .next t ∧ Keeps q j b t := by
  refine ⟨_, rfl, ?_⟩
  repeat' first
    | intro _
    | with_reducible assumption
    | with_reducible apply State.announceSend_keeps
    | with_reducible apply State.reach_keeps
    | with_reducible apply onlyIf_keeps
    | dsimp only
    | (with_reducible refine keeps_mk ?_ ⟨rfl, rfl, rfl, rfl, rfl⟩ ⟨rfl, rfl⟩)

theorem execDelayReqInterval_keeps (n : Nat) (at_ : Nat) (hs : Keeps q j b s) :
    ∃ t, execDelayReqInterval n at_ s = .next t ∧ Keeps q j b t := by
  refine ⟨_, rfl, ?_⟩
  repeat' first
    | intro _
    | with_reducible assumption
    | with_reducible apply State.delaySend_keeps
    | with_reducible apply State.reach_keeps
    | with_reducible apply onlyIf_keeps
    | dsimp only
    | (with_reducible refine keeps_mk ?_ ⟨rfl, rfl, rfl, rfl, rfl⟩ ⟨rfl, rfl⟩)

theorem execAnnounceReceiptTimeout_keeps (n : Nat) (at_ : Nat) (hs : Keeps q j b s) :
    ∃ t, execAnnounceReceiptTimeout n at_ s = .next t ∧ Keeps q j b t := by
  refine ⟨_, rfl, ?_⟩
  repeat' first
    | intro _
    | with_reducible assumption
    | with_reducible apply State.announceTimeout_keeps
    | with_reducible apply State.reach_keeps
    | with_reducible apply onlyIf_keeps
    | dsimp only
    | (with_reducible refine keeps_mk ?_ ⟨rfl, rfl, rfl, rfl, rfl⟩ ⟨rfl, rfl⟩)

theorem execSync_keeps (n : Nat) (m : PtpMsg) (at_ : Nat) (out : List (Nat × Nat)) (hs : Keeps q j b s) :
    ∃ t, execSync n m at_ out s = .next t ∧ Keeps q j b t := by
  refine ⟨_, rfl, ?_⟩
  repeat' first
    | intro _
    | with_reducible assumption
    | with_reducible apply State.syncIn_keeps
    | with_reducible apply State.reach_keeps
    | with_reducible apply onlyIf_keeps
    | dsimp only
    | (with_reducible refine keeps_mk ?_ ⟨rfl, rfl, rfl, rfl, rfl⟩ ⟨rfl, rfl⟩)

theorem execFollowUp_keeps (n : Nat) (m : PtpMsg) (hs : Keeps q j b s) :
    ∃ t, execFollowUp n m s = .next t ∧ Keeps q j b t := by
  refine ⟨_, rfl, ?_⟩
  repeat' first
    | intro _
    | with_reducible assumption
    | with_reducible apply State.followIn_keeps
    | with_reducible apply onlyIf_keeps
    | dsimp only
    | (with_reducible refine keeps_mk ?_ ⟨rfl, rfl, rfl, rfl, rfl⟩ ⟨rfl, rfl⟩)

theorem execDelayReq_keeps (n : Nat) (m : PtpMsg) (at_ : Nat) (out : List (Nat × Nat)) (hs : Keeps q j b s) :
    ∃ t, execDelayReq n m at_ out s = .next t ∧ Keeps q j b t := by
  refine ⟨_, rfl, ?_⟩
  repeat' first
    | intro _
    | with_reducible assumption
    | with_reducible apply State.delayReqIn_keeps
    | with_reducible apply State.reach_keeps
    | with_reducible apply onlyIf_keeps
    | dsimp only
    | (with_reducible refine keeps_mk ?_ ⟨rfl, rfl, rfl, rfl, rfl⟩ ⟨rfl, rfl⟩)

theorem execDelayResp_keeps (n : Nat) (m : PtpMsg) (at_ : Nat) (out : List (Nat × Nat)) (hs : Keeps q j b s) :
    ∃ t, execDelayResp n m at_ out s = .next t ∧ Keeps q j b t := by
  refine ⟨_, rfl, ?_⟩
  repeat' first
    | intro _
    | with_reducible assumption
    | with_reducible apply State.delayRespIn_keeps
    | with_reducible apply State.reach_keeps
    | with_reducible apply onlyIf_keeps
    | dsimp only
    | (with_reducible refine keeps_mk ?_ ⟨rfl, rfl, rfl, rfl, rfl⟩ ⟨rfl, rfl⟩)

theorem execPdelayReq_keeps (n : Nat) (m : PtpMsg) (at_ : Nat) (turn : Nat) (out : List (Nat × Nat)) (hs : Keeps q j b s) :
    ∃ t, execPdelayReq n m at_ turn out s = .next t ∧ Keeps q j b t := by
  refine ⟨_, rfl, ?_⟩
  repeat' first
    | intro _
    | with_reducible assumption
    | with_reducible apply State.pdelayReqIn_keeps
    | with_reducible apply State.reach_keeps
    | with_reducible apply onlyIf_keeps
    | dsimp only
    | (with_reducible refine keeps_mk ?_ ⟨rfl, rfl, rfl, rfl, rfl⟩ ⟨rfl, rfl⟩)

theorem execPdelayResp_keeps (n : Nat) (m : PtpMsg) (at_ : Nat) (out : List (Nat × Nat)) (hs : Keeps q j b s) :
    ∃ t, execPdelayResp n m at_ out s = .next t ∧ Keeps q j b t := by
  refine ⟨_, rfl, ?_⟩
  repeat' first
    | intro _
    | with_reducible assumption
    | with_reducible apply State.pdelayRespIn_keeps
    | with_reducible apply State.reach_keeps
    | with_reducible apply onlyIf_keeps
    | dsimp only
    | (with_reducible refine keeps_mk ?_ ⟨rfl, rfl, rfl, rfl, rfl⟩ ⟨rfl, rfl⟩)

theorem execAnnounce_keeps (n : Nat) (m : PtpMsg) (at_ : Nat) (out : List (Nat × Nat)) (hs : Keeps q j b s) :
    ∃ t, execAnnounce n m at_ out s = .next t ∧ Keeps q j b t := by
  refine ⟨_, rfl, ?_⟩
  repeat' first
    | intro _
    | with_reducible assumption
    | with_reducible apply State.announceIn_keeps
    | with_reducible apply State.reach_keeps
    | with_reducible apply onlyIf_keeps
    | dsimp only
    | (with_reducible refine keeps_mk ?_ ⟨rfl, rfl, rfl, rfl, rfl⟩ ⟨rfl, rfl⟩)

theorem execEthernetFrameReceived_keeps (n : Nat) (hs : Keeps q j b s) :
    ∃ t, execEthernetFrameReceived n s = .next t ∧ Keeps q j b t := by
  refine ⟨_, rfl, ?_⟩
  repeat' first
    | intro _
    | with_reducible assumption
    | with_reducible apply State.ethIn_keeps
    | with_reducible apply onlyIf_keeps
    | dsimp only
    | (with_reducible refine keeps_mk ?_ ⟨rfl, rfl, rfl, rfl, rfl⟩ ⟨rfl, rfl⟩)

theorem execCalibrationStart_keeps  (hs : Keeps q j b s) :
    ∃ t, execCalibrationStart s = .next t ∧ Keeps q j b t := by
  refine ⟨_, rfl, ?_⟩
  repeat' first
    | intro _
    | with_reducible assumption
    | with_reducible apply State.ergCal_keeps
    | with_reducible apply State.calStart_keeps
    | with_reducible apply onlyIf_keeps
    | with_reducible apply keeps_ite
    | split
    | dsimp only
    | (with_reducible refine keeps_mk ?_ ⟨rfl, rfl, rfl, rfl, rfl⟩ ⟨rfl, rfl⟩)

theorem execCalibrationEnd_keeps  (hs : Keeps q j b s) :
    ∃ t, execCalibrationEnd s = .next t ∧ Keeps q j b t := by
  refine ⟨_, rfl, ?_⟩
  repeat' first
    | intro _
    | with_reducible assumption
    | with_reducible apply State.ergCal_keeps
    | with_reducible apply State.calEnd_keeps
    | with_reducible apply onlyIf_keeps
    | dsimp only
    | (with_reducible refine keeps_mk ?_ ⟨rfl, rfl, rfl, rfl, rfl⟩ ⟨rfl, rfl⟩)

theorem execAntennaSwitch_keeps  (hs : Keeps q j b s) :
    ∃ t, execAntennaSwitch s = .next t ∧ Keeps q j b t := by
  refine ⟨_, rfl, ?_⟩
  repeat' first
    | intro _
    | with_reducible assumption
    | with_reducible apply State.antSwitch_keeps
    | with_reducible apply onlyIf_keeps
    | dsimp only
    | (with_reducible refine keeps_mk ?_ ⟨rfl, rfl, rfl, rfl, rfl⟩ ⟨rfl, rfl⟩)

theorem execAntennaRevert_keeps  (hs : Keeps q j b s) :
    ∃ t, execAntennaRevert s = .next t ∧ Keeps q j b t := by
  refine ⟨_, rfl, ?_⟩
  repeat' first
    | intro _
    | with_reducible assumption
    | with_reducible apply State.antRevert_keeps
    | with_reducible apply onlyIf_keeps
    | dsimp only
    | (with_reducible refine keeps_mk ?_ ⟨rfl, rfl, rfl, rfl, rfl⟩ ⟨rfl, rfl⟩)

theorem execLaneRunStart_keeps (p : ErgPred) (hs : Keeps q j b s) :
    ∃ t, execLaneRunStart p s = .next t ∧ Keeps q j b t := by
  refine ⟨_, rfl, ?_⟩
  repeat' first
    | intro _
    | with_reducible assumption
    | with_reducible apply State.laneStart_keeps
    | with_reducible apply onlyIf_keeps
    | dsimp only
    | (with_reducible refine keeps_mk ?_ ⟨rfl, rfl, rfl, rfl, rfl⟩ ⟨rfl, rfl⟩)

theorem execPassDecision_keeps (l : Nat) (cell : Nat) (line : Nat) (ratio : Nat) (at_ : Nat) (hs : Keeps q j b s) :
    ∃ t, execPassDecision l cell line ratio at_ s = .next t ∧ Keeps q j b t := by
  refine ⟨_, rfl, ?_⟩
  repeat' first
    | intro _
    | with_reducible assumption
    | with_reducible apply State.passDecision_keeps
    | with_reducible apply State.reach_keeps
    | with_reducible apply onlyIf_keeps
    | dsimp only
    | (with_reducible refine keeps_mk ?_ ⟨rfl, rfl, rfl, rfl, rfl⟩ ⟨rfl, rfl⟩)

theorem execVerification_keeps (l : Nat) (powers : List Nat) (at_ : Nat) (hs : Keeps q j b s) :
    ∃ t, execVerification l powers at_ s = .next t ∧ Keeps q j b t := by
  refine ⟨_, rfl, ?_⟩
  repeat' first
    | intro _
    | with_reducible assumption
    | with_reducible apply State.verification_keeps
    | with_reducible apply State.reach_keeps
    | with_reducible apply onlyIf_keeps
    | dsimp only
    | (with_reducible refine keeps_mk ?_ ⟨rfl, rfl, rfl, rfl, rfl⟩ ⟨rfl, rfl⟩)

theorem execHandoffLoad_keeps  (hs : Keeps q j b s) :
    ∃ t, execHandoffLoad s = .next t ∧ Keeps q j b t := by
  refine ⟨_, rfl, ?_⟩
  repeat' first
    | intro _
    | with_reducible assumption
    | with_reducible apply State.handoff_keeps
    | with_reducible apply onlyIf_keeps
    | dsimp only
    | (with_reducible refine keeps_mk ?_ ⟨rfl, rfl, rfl, rfl, rfl⟩ ⟨rfl, rfl⟩)

theorem execNoSlot_keeps  (hs : Keeps q j b s) :
    ∃ t, execNoSlot s = .next t ∧ Keeps q j b t := by
  refine ⟨_, rfl, ?_⟩
  repeat' first
    | intro _
    | with_reducible assumption
    | with_reducible apply State.noSlot_keeps
    | with_reducible apply onlyIf_keeps
    | dsimp only
    | (with_reducible refine keeps_mk ?_ ⟨rfl, rfl, rfl, rfl, rfl⟩ ⟨rfl, rfl⟩)

theorem execAutoListRefill_keeps (predicted : List (Nat × Nat × Int)) (hs : Keeps q j b s) :
    ∃ t, execAutoListRefill predicted s = .next t ∧ Keeps q j b t := by
  refine ⟨_, rfl, ?_⟩
  repeat' first
    | intro _
    | with_reducible assumption
    | with_reducible apply State.autoRefill_keeps
    | with_reducible apply onlyIf_keeps
    | dsimp only
    | (with_reducible refine keeps_mk ?_ ⟨rfl, rfl, rfl, rfl, rfl⟩ ⟨rfl, rfl⟩)

theorem execSolutionSkipped_keeps  (hs : Keeps q j b s) :
    ∃ t, execSolutionSkipped s = .next t ∧ Keeps q j b t := by
  refine ⟨_, rfl, ?_⟩
  repeat' first
    | intro _
    | with_reducible assumption
    | with_reducible apply State.solutionSkip_keeps
    | with_reducible apply onlyIf_keeps
    | dsimp only
    | (with_reducible refine keeps_mk ?_ ⟨rfl, rfl, rfl, rfl, rfl⟩ ⟨rfl, rfl⟩)

theorem execSurveyRestart_keeps (a : Nat) (hs : Keeps q j b s) :
    ∃ t, execSurveyRestart a s = .next t ∧ Keeps q j b t := by
  refine ⟨_, rfl, ?_⟩
  repeat' first
    | intro _
    | with_reducible assumption
    | with_reducible apply State.surveyRestart_keeps
    | with_reducible apply onlyIf_keeps
    | dsimp only
    | (with_reducible refine keeps_mk ?_ ⟨rfl, rfl, rfl, rfl, rfl⟩ ⟨rfl, rfl⟩)

theorem execEpochStreamAppend_keeps  (hs : Keeps q j b s) :
    ∃ t, execEpochStreamAppend s = .next t ∧ Keeps q j b t := by
  refine ⟨_, rfl, ?_⟩
  repeat' first
    | intro _
    | with_reducible assumption
    | with_reducible apply State.epochStream_keeps
    | with_reducible apply onlyIf_keeps
    | dsimp only
    | (with_reducible refine keeps_mk ?_ ⟨rfl, rfl, rfl, rfl, rfl⟩ ⟨rfl, rfl⟩)

theorem execMeasurementEpoch_keeps (at_ : Nat) (hs : Keeps q j b s) :
    ∃ t, execMeasurementEpoch at_ s = .next t ∧ Keeps q j b t := by
  refine ⟨_, rfl, ?_⟩
  repeat' first
    | intro _
    | with_reducible assumption
    | with_reducible apply State.measureEpoch_keeps
    | with_reducible apply State.reach_keeps
    | with_reducible apply onlyIf_keeps
    | dsimp only
    | (with_reducible refine keeps_mk ?_ ⟨rfl, rfl, rfl, rfl, rfl⟩ ⟨rfl, rfl⟩)

theorem execEntryAttempt_keeps (e : EntryEnd) (at_ : Nat) (aon : Nat) (hs : Keeps q j b s) :
    ∃ t, execEntryAttempt e at_ aon s = .next t ∧ Keeps q j b t := by
  refine ⟨_, rfl, ?_⟩
  repeat' first
    | intro _
    | with_reducible assumption
    | with_reducible apply State.entryAttempt_keeps
    | with_reducible apply State.reachAon_keeps
    | with_reducible apply State.reach_keeps
    | with_reducible apply onlyIf_keeps
    | dsimp only
    | (with_reducible refine keeps_mk ?_ ⟨rfl, rfl, rfl, rfl, rfl⟩ ⟨rfl, rfl⟩)

theorem execWake_keeps (cause : Nat) (port : Nat) (at_ : Nat) (aon : Nat) (hs : Keeps q j b s) :
    ∃ t, execWake cause port at_ aon s = .next t ∧ Keeps q j b t := by
  refine ⟨_, rfl, ?_⟩
  repeat' first
    | intro _
    | with_reducible assumption
    | with_reducible apply State.wake_keeps
    | with_reducible apply State.reachAon_keeps
    | with_reducible apply State.reach_keeps
    | with_reducible apply onlyIf_keeps
    | dsimp only
    | (with_reducible refine keeps_mk ?_ ⟨rfl, rfl, rfl, rfl, rfl⟩ ⟨rfl, rfl⟩)

theorem execRegulatorTimeout_keeps (aon : Nat) (hs : Keeps q j b s) :
    ∃ t, execRegulatorTimeout aon s = .next t ∧ Keeps q j b t := by
  refine ⟨_, rfl, ?_⟩
  repeat' first
    | intro _
    | with_reducible assumption
    | with_reducible apply State.regulatorTimeout_keeps
    | with_reducible apply State.reachAon_keeps
    | with_reducible apply onlyIf_keeps
    | dsimp only
    | (with_reducible refine keeps_mk ?_ ⟨rfl, rfl, rfl, rfl, rfl⟩ ⟨rfl, rfl⟩)

theorem execRefLate_keeps  (hs : Keeps q j b s) :
    ∃ t, execRefLate s = .next t ∧ Keeps q j b t := by
  refine ⟨_, rfl, ?_⟩
  repeat' first
    | intro _
    | with_reducible assumption
    | with_reducible apply State.refLate_keeps
    | with_reducible apply onlyIf_keeps
    | dsimp only
    | (with_reducible refine keeps_mk ?_ ⟨rfl, rfl, rfl, rfl, rfl⟩ ⟨rfl, rfl⟩)

theorem execOasisBurst_keeps (at_ : Nat) (hs : Keeps q j b s) :
    ∃ t, execOasisBurst at_ s = .next t ∧ Keeps q j b t := by
  refine ⟨_, rfl, ?_⟩
  repeat' first
    | intro _
    | with_reducible assumption
    | with_reducible apply State.oasisBurst_keeps
    | with_reducible apply State.reach_keeps
    | with_reducible apply onlyIf_keeps
    | dsimp only
    | (with_reducible refine keeps_mk ?_ ⟨rfl, rfl, rfl, rfl, rfl⟩ ⟨rfl, rfl⟩)

theorem execOasisBurstEnd_keeps (e : EntryEnd) (at_ : Nat) (aon : Nat) (hs : Keeps q j b s) :
    ∃ t, execOasisBurstEnd e at_ aon s = .next t ∧ Keeps q j b t := by
  refine ⟨_, rfl, ?_⟩
  repeat' first
    | intro _
    | with_reducible assumption
    | with_reducible apply State.oasisBurstEnd_keeps
    | with_reducible apply State.reachAon_keeps
    | with_reducible apply State.reach_keeps
    | with_reducible apply onlyIf_keeps
    | dsimp only
    | (with_reducible refine keeps_mk ?_ ⟨rfl, rfl, rfl, rfl, rfl⟩ ⟨rfl, rfl⟩)

theorem execLevelFail_keeps (at_ : Nat) (hs : Keeps q j b s) :
    ∃ t, execLevelFail at_ s = .next t ∧ Keeps q j b t := by
  refine ⟨_, rfl, ?_⟩
  repeat' first
    | intro _
    | with_reducible assumption
    | with_reducible apply State.levelFail_keeps
    | with_reducible apply State.reach_keeps
    | with_reducible apply onlyIf_keeps
    | dsimp only
    | (with_reducible refine keeps_mk ?_ ⟨rfl, rfl, rfl, rfl, rfl⟩ ⟨rfl, rfl⟩)

theorem execSourceLost_keeps  (hs : Keeps q j b s) :
    ∃ t, execSourceLost s = .next t ∧ Keeps q j b t := by
  refine ⟨_, rfl, ?_⟩
  repeat' first
    | intro _
    | with_reducible assumption
    | with_reducible apply State.sourceLost_keeps
    | with_reducible apply onlyIf_keeps
    | dsimp only
    | (with_reducible refine keeps_mk ?_ ⟨rfl, rfl, rfl, rfl, rfl⟩ ⟨rfl, rfl⟩)

theorem execStep_keeps  (hs : Keeps q j b s) :
    ∃ t b', execStep s = .next t ∧ Keeps q j b' t := by
  obtain ⟨b', h⟩ := State.pondStep_keeps hs
  exact ⟨_, b', rfl, h⟩

theorem execReseed_keeps (at_ : Nat) (hs : Keeps q j b s) :
    ∃ t, execReseed at_ s = .next t ∧ Keeps q j b t := by
  refine ⟨_, rfl, ?_⟩
  repeat' first
    | intro _
    | with_reducible assumption
    | with_reducible apply State.reseedCome_keeps
    | with_reducible apply State.reach_keeps
    | with_reducible apply onlyIf_keeps
    | dsimp only
    | (with_reducible refine keeps_mk ?_ ⟨rfl, rfl, rfl, rfl, rfl⟩ ⟨rfl, rfl⟩)

theorem execReseedTimeout_keeps (at_ : Nat) (hs : Keeps q j b s) :
    ∃ t, execReseedTimeout at_ s = .next t ∧ Keeps q j b t := by
  refine ⟨_, rfl, ?_⟩
  repeat' first
    | intro _
    | with_reducible assumption
    | with_reducible apply State.reseedLate_keeps
    | with_reducible apply State.reach_keeps
    | with_reducible apply onlyIf_keeps
    | dsimp only
    | (with_reducible refine keeps_mk ?_ ⟨rfl, rfl, rfl, rfl, rfl⟩ ⟨rfl, rfl⟩)

theorem execReferenceLost_keeps (at_ : Nat) (hs : Keeps q j b s) :
    ∃ t, execReferenceLost at_ s = .next t ∧ Keeps q j b t := by
  refine ⟨_, rfl, ?_⟩
  repeat' first
    | intro _
    | with_reducible assumption
    | with_reducible apply State.refLost_keeps
    | with_reducible apply State.reach_keeps
    | with_reducible apply onlyIf_keeps
    | dsimp only
    | (with_reducible refine keeps_mk ?_ ⟨rfl, rfl, rfl, rfl, rfl⟩ ⟨rfl, rfl⟩)

theorem execReferenceReturning_keeps (at_ : Nat) (hs : Keeps q j b s) :
    ∃ t, execReferenceReturning at_ s = .next t ∧ Keeps q j b t := by
  refine ⟨_, rfl, ?_⟩
  repeat' first
    | intro _
    | with_reducible assumption
    | with_reducible apply State.refReturns_keeps
    | with_reducible apply State.reach_keeps
    | with_reducible apply onlyIf_keeps
    | dsimp only
    | (with_reducible refine keeps_mk ?_ ⟨rfl, rfl, rfl, rfl, rfl⟩ ⟨rfl, rfl⟩)

theorem execReferenceValid_keeps (at_ : Nat) (hs : Keeps q j b s) :
    ∃ t, execReferenceValid at_ s = .next t ∧ Keeps q j b t := by
  refine ⟨_, rfl, ?_⟩
  repeat' first
    | intro _
    | with_reducible assumption
    | with_reducible apply State.refValid_keeps
    | with_reducible apply State.reach_keeps
    | with_reducible apply onlyIf_keeps
    | dsimp only
    | (with_reducible refine keeps_mk ?_ ⟨rfl, rfl, rfl, rfl, rfl⟩ ⟨rfl, rfl⟩)

theorem execTimePulseEdge_keeps (p : Nat) (g : Nat) (hs : Keeps q j b s) :
    ∃ t, execTimePulseEdge p g s = .next t ∧ Keeps q j b t := by
  refine ⟨_, rfl, ?_⟩
  repeat' first
    | intro _
    | with_reducible assumption
    | with_reducible apply State.tpEdge_keeps
    | with_reducible apply State.reach_keeps
    | with_reducible apply onlyIf_keeps
    | (extract_lets +onlyGivenNames -underBinder x; first | (refine keeps_cut (q := q) (j := j) (b := b) (x := x) ?_ ?_ <;> first | (intro h0; generalize x = y at h0 ⊢; clear x) | intro h0 | subst x) | subst x)
    | dsimp only
    | (with_reducible refine keeps_mk ?_ ⟨rfl, rfl, rfl, rfl, rfl⟩ ⟨rfl, rfl⟩)

theorem execPulseWidthEnd_keeps (p : Nat) (hs : Keeps q j b s) :
    ∃ t, execPulseWidthEnd p s = .next t ∧ Keeps q j b t := by
  refine ⟨_, rfl, ?_⟩
  repeat' first
    | intro _
    | with_reducible assumption
    | with_reducible apply State.tpEnd_keeps
    | with_reducible apply State.reach_keeps
    | with_reducible apply onlyIf_keeps
    | dsimp only
    | (with_reducible refine keeps_mk ?_ ⟨rfl, rfl, rfl, rfl, rfl⟩ ⟨rfl, rfl⟩)

theorem execClockRealign_keeps (c : Nat) (g : Nat) (hs : Keeps q j b s) :
    ∃ t, execClockRealign c g s = .next t ∧ Keeps q j b t := by
  refine ⟨_, rfl, ?_⟩
  repeat' first
    | intro _
    | with_reducible assumption
    | with_reducible apply State.ckoAlign_keeps
    | with_reducible apply State.reach_keeps
    | with_reducible apply onlyIf_keeps
    | (extract_lets +onlyGivenNames -underBinder x; first | (refine keeps_cut (q := q) (j := j) (b := b) (x := x) ?_ ?_ <;> first | (intro h0; generalize x = y at h0 ⊢; clear x) | intro h0 | subst x) | subst x)
    | dsimp only
    | (with_reducible refine keeps_mk ?_ ⟨rfl, rfl, rfl, rfl, rfl⟩ ⟨rfl, rfl⟩)

theorem execPhaseResidualMeasure_keeps (c : Nat) (r : Int) (at_ : Nat) (hs : Keeps q j b s) :
    ∃ t, execPhaseResidualMeasure c r at_ s = .next t ∧ Keeps q j b t := by
  refine ⟨_, rfl, ?_⟩
  repeat' first
    | intro _
    | with_reducible assumption
    | with_reducible apply State.ckoResidual_keeps
    | with_reducible apply State.reach_keeps
    | with_reducible apply onlyIf_keeps
    | dsimp only
    | (with_reducible refine keeps_mk ?_ ⟨rfl, rfl, rfl, rfl, rfl⟩ ⟨rfl, rfl⟩)

theorem execTodMessage_keeps (sec : Nat) (hs : Keeps q j b s) :
    ∃ t, execTodMessage sec s = .next t ∧ Keeps q j b t := by
  refine ⟨_, rfl, ?_⟩
  repeat' first
    | intro _
    | with_reducible assumption
    | with_reducible apply State.todSend_keeps
    | with_reducible apply State.reach_keeps
    | with_reducible apply onlyIf_keeps
    | (extract_lets +onlyGivenNames -underBinder x; first | (refine keeps_cut (q := q) (j := j) (b := b) (x := x) ?_ ?_ <;> first | (intro h0; generalize x = y at h0 ⊢; clear x) | intro h0 | subst x) | subst x)
    | dsimp only
    | (with_reducible refine keeps_mk ?_ ⟨rfl, rfl, rfl, rfl, rfl⟩ ⟨rfl, rfl⟩)

theorem execIrigBFrame_keeps (sec : Nat) (hs : Keeps q j b s) :
    ∃ t, execIrigBFrame sec s = .next t ∧ Keeps q j b t := by
  refine ⟨_, rfl, ?_⟩
  repeat' first
    | intro _
    | with_reducible assumption
    | with_reducible apply State.irigSend_keeps
    | with_reducible apply State.reach_keeps
    | with_reducible apply onlyIf_keeps
    | (extract_lets +onlyGivenNames -underBinder x; first | (refine keeps_cut (q := q) (j := j) (b := b) (x := x) ?_ ?_ <;> first | (intro h0; generalize x = y at h0 ⊢; clear x) | intro h0 | subst x) | subst x)
    | dsimp only
    | (with_reducible refine keeps_mk ?_ ⟨rfl, rfl, rfl, rfl, rfl⟩ ⟨rfl, rfl⟩)

theorem execLoopUpdate_keeps (n : Nat) (at_ : Nat) (hs : Keeps q j b s) :
    ∃ t, execLoopUpdate n at_ s = .next t ∧ Keeps q j b t := by
  refine ⟨_, rfl, ?_⟩
  repeat' first
    | intro _
    | with_reducible assumption
    | with_reducible apply State.blocksSend_keeps
    | with_reducible apply State.loopUpdate_keeps
    | with_reducible apply State.reach_keeps
    | with_reducible apply onlyIf_keeps
    | (extract_lets +onlyGivenNames -underBinder x; first | (refine keeps_cut (q := q) (j := j) (b := b) (x := x) ?_ ?_ <;> first | (intro h0; generalize x = y at h0 ⊢; clear x) | intro h0 | subst x) | subst x)
    | dsimp only
    | (with_reducible refine keeps_mk ?_ ⟨rfl, rfl, rfl, rfl, rfl⟩ ⟨rfl, rfl⟩)

theorem execPredictedBlock_keeps (n : Nat) (e : Nat) (part : Nat) (start : Nat) (at_ : Nat) (hs : Keeps q j b s) :
    ∃ t, execPredictedBlock n e part start at_ s = .next t ∧ Keeps q j b t := by
  refine ⟨_, rfl, ?_⟩
  repeat' first
    | intro _
    | with_reducible assumption
    | with_reducible apply State.blocksSend_keeps
    | with_reducible apply State.predictedBlock_keeps
    | with_reducible apply State.reach_keeps
    | with_reducible apply onlyIf_keeps
    | (extract_lets +onlyGivenNames -underBinder x; first | (refine keeps_cut (q := q) (j := j) (b := b) (x := x) ?_ ?_ <;> first | (intro h0; generalize x = y at h0 ⊢; clear x) | intro h0 | subst x) | subst x)
    | dsimp only
    | (with_reducible refine keeps_mk ?_ ⟨rfl, rfl, rfl, rfl, rfl⟩ ⟨rfl, rfl⟩)

theorem execSolution_keeps (at_ : Nat) (hs : Keeps q j b s) :
    ∃ t, execSolution at_ s = .next t ∧ Keeps q j b t := by
  refine ⟨_, rfl, ?_⟩
  repeat' first
    | intro _
    | with_reducible assumption
    | with_reducible apply State.solution_keeps
    | with_reducible apply State.asymSee_keeps
    | with_reducible apply State.reach_keeps
    | with_reducible apply onlyIf_keeps
    | with_reducible apply keeps_ite
    | (extract_lets +onlyGivenNames -underBinder x; first | (refine keeps_cut (q := q) (j := j) (b := b) (x := x) ?_ ?_ <;> first | (intro h0; generalize x = y at h0 ⊢; clear x) | intro h0 | subst x) | subst x)
    | split
    | dsimp only
    | (with_reducible refine keeps_mk ?_ ⟨rfl, rfl, rfl, rfl, rfl⟩ ⟨rfl, rfl⟩)

theorem execTick_keeps (i : TickIn) (hs : Keeps q j b s) :
    ∃ t b', execTick i s = .next t ∧ Keeps q j b' t := by
  obtain ⟨b', h⟩ := State.tick_keeps i hs
  exact ⟨_, b', rfl, h⟩

theorem execDumpReady_keeps  (hs : Keeps q j b s) :
    ∃ t, execDumpReady s = .next t ∧ Keeps q j b t := by
  refine ⟨_, rfl, ?_⟩
  repeat' first
    | intro _
    | with_reducible assumption
    | with_reducible apply State.dumpReady_keeps
    | with_reducible apply onlyIf_keeps
    | dsimp only
    | (with_reducible refine keeps_mk ?_ ⟨rfl, rfl, rfl, rfl, rfl⟩ ⟨rfl, rfl⟩)

theorem execBudgetDeadline_keeps  (hs : Keeps q j b s) :
    ∃ t, execBudgetDeadline s = .next t ∧ Keeps q j b t := by
  refine ⟨_, rfl, ?_⟩
  repeat' first
    | intro _
    | with_reducible assumption
    | with_reducible apply State.budgetDeadline_keeps
    | with_reducible apply onlyIf_keeps
    | dsimp only
    | (with_reducible refine keeps_mk ?_ ⟨rfl, rfl, rfl, rfl, rfl⟩ ⟨rfl, rfl⟩)

theorem execHardStop_keeps  (hs : Keeps q j b s) :
    ∃ t, execHardStop s = .next t ∧ Keeps q j b t := by
  refine ⟨_, rfl, ?_⟩
  repeat' first
    | intro _
    | with_reducible assumption
    | with_reducible apply State.hardStop_keeps
    | with_reducible apply onlyIf_keeps
    | dsimp only
    | (with_reducible refine keeps_mk ?_ ⟨rfl, rfl, rfl, rfl, rfl⟩ ⟨rfl, rfl⟩)

theorem execUserBudgetExhausted_keeps (at_ : Nat) (hs : Keeps q j b s) :
    ∃ t, execUserBudgetExhausted at_ s = .next t ∧ Keeps q j b t := by
  refine ⟨_, rfl, ?_⟩
  repeat' first
    | intro _
    | with_reducible assumption
    | with_reducible apply State.userBudget_keeps
    | with_reducible apply State.reach_keeps
    | with_reducible apply onlyIf_keeps
    | dsimp only
    | (with_reducible refine keeps_mk ?_ ⟨rfl, rfl, rfl, rfl, rfl⟩ ⟨rfl, rfl⟩)

theorem execUserHardStop_keeps (at_ : Nat) (hs : Keeps q j b s) :
    ∃ t, execUserHardStop at_ s = .next t ∧ Keeps q j b t := by
  refine ⟨_, rfl, ?_⟩
  repeat' first
    | intro _
    | with_reducible assumption
    | with_reducible apply State.userHardStop_keeps
    | with_reducible apply State.reach_keeps
    | with_reducible apply onlyIf_keeps
    | dsimp only
    | (with_reducible refine keeps_mk ?_ ⟨rfl, rfl, rfl, rfl, rfl⟩ ⟨rfl, rfl⟩)

theorem execShedStep_keeps  (hs : Keeps q j b s) :
    ∃ t, execShedStep s = .next t ∧ Keeps q j b t := by
  refine ⟨_, rfl, ?_⟩
  repeat' first
    | intro _
    | with_reducible assumption
    | with_reducible apply State.shedStep_keeps
    | with_reducible apply onlyIf_keeps
    | dsimp only
    | (with_reducible refine keeps_mk ?_ ⟨rfl, rfl, rfl, rfl, rfl⟩ ⟨rfl, rfl⟩)

theorem execTaskMigration_keeps (tasks : Nat) (hs : Keeps q j b s) :
    ∃ t, execTaskMigration tasks s = .next t ∧ Keeps q j b t := by
  refine ⟨_, rfl, ?_⟩
  repeat' first
    | intro _
    | with_reducible assumption
    | with_reducible apply State.taskMigration_keeps
    | with_reducible apply onlyIf_keeps
    | dsimp only
    | (with_reducible refine keeps_mk ?_ ⟨rfl, rfl, rfl, rfl, rfl⟩ ⟨rfl, rfl⟩)

theorem execSelfCheck_keeps (failed : List Nat) (at_ : Nat) (hs : Keeps q j b s) :
    ∃ t, execSelfCheck failed at_ s = .next t ∧ Keeps q j b t := by
  refine ⟨_, rfl, ?_⟩
  repeat' first
    | intro _
    | with_reducible assumption
    | with_reducible apply State.selfCheck_keeps
    | with_reducible apply State.reach_keeps
    | with_reducible apply onlyIf_keeps
    | dsimp only
    | (with_reducible refine keeps_mk ?_ ⟨rfl, rfl, rfl, rfl, rfl⟩ ⟨rfl, rfl⟩)

theorem execWakeRetry_keeps (i : StartIn) (aon : Nat) (hs : Keeps q j b s) :
    ∃ t j' b', execWakeRetry i aon s = .next t ∧ Keeps q j' b' t := by
  obtain ⟨j', b', h⟩ := State.wakeRetry_keeps i (State.reachAon_keeps aon hs)
  exact ⟨_, j', b', rfl, h⟩

theorem execPowerUp_keeps (wake : Nat) (i : StartIn) (aon : Nat) (hs : Keeps q j b s) :
    ∃ t j' b', execPowerUp wake i aon s = .next t ∧ Keeps q j' b' t := by
  obtain ⟨j', b', h⟩ := State.powerStart_keeps wake i (State.reachAon_keeps aon hs)
  exact ⟨_, j', b', rfl, h⟩

theorem execRstN_keeps (ns : Nat) (i : StartIn) (aon : Nat) (hs : Keeps q j b s) :
    ∃ t j' b', execRstN ns i aon s = .next t ∧ Keeps q j' b' t := by
  obtain ⟨j', b', h⟩ := State.rstN_keeps ns i (State.reachAon_keeps aon hs)
  exact ⟨_, j', b', rfl, h⟩

theorem execWatchdog_keeps  (hs : Keeps q j b s) :
    ∃ t, execWatchdog s = .next t ∧ Keeps q j b t := by
  refine ⟨_, rfl, ?_⟩
  repeat' first
    | intro _
    | with_reducible assumption
    | with_reducible apply State.watchdog_keeps
    | with_reducible apply onlyIf_keeps
    | dsimp only
    | (with_reducible refine keeps_mk ?_ ⟨rfl, rfl, rfl, rfl, rfl⟩ ⟨rfl, rfl⟩)

theorem execWarmReset_keeps (i : StartIn) (at_ : Nat) (hs : Keeps q j b s) :
    ∃ t, execWarmReset i at_ s = .next t ∧ Keeps q j b t := by
  refine ⟨_, rfl, ?_⟩
  repeat' first
    | intro _
    | with_reducible assumption
    | with_reducible apply State.warmDue_keeps
    | with_reducible apply State.reach_keeps
    | with_reducible apply onlyIf_keeps
    | dsimp only
    | (with_reducible refine keeps_mk ?_ ⟨rfl, rfl, rfl, rfl, rfl⟩ ⟨rfl, rfl⟩)

theorem execColdReset_keeps (i : StartIn) (hs : Keeps q j b s) :
    ∃ t b', execColdReset i s = .next t ∧ Keeps q j b' t := by
  obtain ⟨b', h⟩ := State.coldDue_keeps i hs
  exact ⟨_, b', rfl, h⟩

theorem execSupplyDrop_keeps (mask : Nat) (at_ : Nat) (hs : Keeps q j b s) :
    ∃ t, execSupplyDrop mask at_ s = .next t ∧ Keeps q j b t := by
  refine ⟨_, rfl, ?_⟩
  repeat' first
    | intro _
    | with_reducible assumption
    | with_reducible apply State.supplyDrop_keeps
    | with_reducible apply State.reach_keeps
    | with_reducible apply onlyIf_keeps
    | dsimp only
    | (with_reducible refine keeps_mk ?_ ⟨rfl, rfl, rfl, rfl, rfl⟩ ⟨rfl, rfl⟩)

theorem execFirmwareStart_keeps  (hs : Keeps q j b s) :
    ∃ t, execFirmwareStart s = .next t ∧ Keeps q j b t := by
  refine ⟨_, rfl, ?_⟩
  repeat' first
    | intro _
    | with_reducible assumption
    | with_reducible apply State.firmwareStart_keeps
    | with_reducible apply onlyIf_keeps
    | dsimp only
    | (with_reducible refine keeps_mk ?_ ⟨rfl, rfl, rfl, rfl, rfl⟩ ⟨rfl, rfl⟩)

theorem execBootWaitExpiry_keeps  (hs : Keeps q j b s) :
    ∃ t, execBootWaitExpiry s = .next t ∧ Keeps q j b t := by
  refine ⟨_, rfl, ?_⟩
  repeat' first
    | intro _
    | with_reducible assumption
    | with_reducible apply State.bootWaitOver_keeps
    | with_reducible apply onlyIf_keeps
    | dsimp only
    | (with_reducible refine keeps_mk ?_ ⟨rfl, rfl, rfl, rfl, rfl⟩ ⟨rfl, rfl⟩)

theorem execImageVerifyDone_keeps (flash : List Nat) (hs : Keeps q j b s) :
    ∃ t, execImageVerifyDone flash s = .next t ∧ Keeps q j b t := by
  refine ⟨_, rfl, ?_⟩
  repeat' first
    | intro _
    | with_reducible assumption
    | with_reducible apply State.imageVerified_keeps
    | with_reducible apply onlyIf_keeps
    | dsimp only
    | (with_reducible refine keeps_mk ?_ ⟨rfl, rfl, rfl, rfl, rfl⟩ ⟨rfl, rfl⟩)

theorem execSupplyReturn_keeps (mask : Nat) (banks : Nat) (hs : Keeps q j b s) :
    ∃ t, execSupplyReturn mask banks s = .next t ∧ Keeps q j b t := by
  refine ⟨_, rfl, ?_⟩
  repeat' first
    | intro _
    | with_reducible assumption
    | with_reducible apply State.supplyReturn_keeps
    | with_reducible apply onlyIf_keeps
    | dsimp only
    | (with_reducible refine keeps_mk ?_ ⟨rfl, rfl, rfl, rfl, rfl⟩ ⟨rfl, rfl⟩)

theorem execPllLock_keeps  (hs : Keeps q j b s) :
    ∃ t b', execPllLock s = .next t ∧ Keeps q j b' t := by
  obtain ⟨b', h⟩ := State.pllLock_keeps hs
  exact ⟨_, b', rfl, h⟩

theorem execPObjectsLoaded_keeps (at_ : Nat) (hs : Keeps q j b s) :
    ∃ t, execPObjectsLoaded at_ s = .next t ∧ Keeps q j b t := by
  refine ⟨_, rfl, ?_⟩
  repeat' first
    | intro _
    | with_reducible assumption
    | with_reducible apply State.objectsLoaded_keeps
    | with_reducible apply State.reach_keeps
    | with_reducible apply onlyIf_keeps
    | dsimp only
    | (with_reducible refine keeps_mk ?_ ⟨rfl, rfl, rfl, rfl, rfl⟩ ⟨rfl, rfl⟩)

theorem execFlashWriteComplete_keeps (ok : Bool) (hs : Keeps q j b s) :
    ∃ t, execFlashWriteComplete ok s = .next t ∧ Keeps q j b t := by
  refine ⟨_, rfl, ?_⟩
  repeat' first
    | intro _
    | with_reducible assumption
    | with_reducible apply State.flashWritten_keeps
    | with_reducible apply onlyIf_keeps
    | dsimp only
    | (with_reducible refine keeps_mk ?_ ⟨rfl, rfl, rfl, rfl, rfl⟩ ⟨rfl, rfl⟩)

theorem execTrstN_keeps (asserted : Bool) (hs : Keeps q j b s) :
    ∃ t j', execTrstN asserted s = .next t ∧ Keeps q j' b t := by
  exact ⟨_, _, rfl, keeps_jtag hs _⟩

theorem execTapClock_keeps (tms : Bool) (tdi : Bool) (hs : Keeps q j b s) :
    ∃ t j', execTapClock tms tdi s = .next t ∧ Keeps q j' b t := by
  exact ⟨_, _, rfl, keeps_jtag hs _⟩

theorem execLsa_keeps (held : Bool) (at_ : Nat) (hs : Keeps q j b s) :
    ∃ t, execLsa held at_ s = .next t ∧ Keeps q j b t := by
  refine ⟨_, rfl, ?_⟩
  repeat' first
    | intro _
    | with_reducible assumption
    | with_reducible apply State.lsaIn_keeps
    | with_reducible apply State.reach_keeps
    | with_reducible apply onlyIf_keeps
    | dsimp only
    | (with_reducible refine keeps_mk ?_ ⟨rfl, rfl, rfl, rfl, rfl⟩ ⟨rfl, rfl⟩)

theorem execLsaRefresh_keeps (at_ : Nat) (hs : Keeps q j b s) :
    ∃ t, execLsaRefresh at_ s = .next t ∧ Keeps q j b t := by
  refine ⟨_, rfl, ?_⟩
  repeat' first
    | intro _
    | with_reducible assumption
    | with_reducible apply State.lsaRefresh_keeps
    | with_reducible apply State.reach_keeps
    | with_reducible apply onlyIf_keeps
    | dsimp only
    | (with_reducible refine keeps_mk ?_ ⟨rfl, rfl, rfl, rfl, rfl⟩ ⟨rfl, rfl⟩)

theorem execLsaExpiry_keeps (at_ : Nat) (hs : Keeps q j b s) :
    ∃ t, execLsaExpiry at_ s = .next t ∧ Keeps q j b t := by
  refine ⟨_, rfl, ?_⟩
  repeat' first
    | intro _
    | with_reducible assumption
    | with_reducible apply State.lsaExpire_keeps
    | with_reducible apply State.reach_keeps
    | with_reducible apply onlyIf_keeps
    | dsimp only
    | (with_reducible refine keeps_mk ?_ ⟨rfl, rfl, rfl, rfl, rfl⟩ ⟨rfl, rfl⟩)

theorem execRootElection_keeps (replica : List (Nat × Nat)) (at_ : Nat) (hs : Keeps q j b s) :
    ∃ t, execRootElection replica at_ s = .next t ∧ Keeps q j b t := by
  refine ⟨_, rfl, ?_⟩
  repeat' first
    | intro _
    | with_reducible assumption
    | with_reducible apply State.rootElection_keeps
    | with_reducible apply State.reach_keeps
    | with_reducible apply onlyIf_keeps
    | dsimp only
    | (with_reducible refine keeps_mk ?_ ⟨rfl, rfl, rfl, rfl, rfl⟩ ⟨rfl, rfl⟩)

theorem execRouteCompute_keeps (at_ : Nat) (hs : Keeps q j b s) :
    ∃ t, execRouteCompute at_ s = .next t ∧ Keeps q j b t := by
  refine ⟨_, rfl, ?_⟩
  repeat' first
    | intro _
    | with_reducible assumption
    | with_reducible apply State.routeCompute_keeps
    | with_reducible apply State.reach_keeps
    | with_reducible apply onlyIf_keeps
    | dsimp only
    | (with_reducible refine keeps_mk ?_ ⟨rfl, rfl, rfl, rfl, rfl⟩ ⟨rfl, rfl⟩)

theorem execNetworkFrameForward_keeps (at_ : Nat) (hs : Keeps q j b s) :
    ∃ t, execNetworkFrameForward at_ s = .next t ∧ Keeps q j b t := by
  refine ⟨_, rfl, ?_⟩
  repeat' first
    | intro _
    | with_reducible assumption
    | with_reducible apply State.netForward_keeps
    | with_reducible apply State.reach_keeps
    | with_reducible apply onlyIf_keeps
    | dsimp only
    | (with_reducible refine keeps_mk ?_ ⟨rfl, rfl, rfl, rfl, rfl⟩ ⟨rfl, rfl⟩)

theorem execJoin_keeps (at_ : Nat) (hs : Keeps q j b s) :
    ∃ t, execJoin at_ s = .next t ∧ Keeps q j b t := by
  refine ⟨_, rfl, ?_⟩
  repeat' first
    | intro _
    | with_reducible assumption
    | with_reducible apply State.joinIn_keeps
    | with_reducible apply State.reach_keeps
    | with_reducible apply onlyIf_keeps
    | dsimp only
    | (with_reducible refine keeps_mk ?_ ⟨rfl, rfl, rfl, rfl, rfl⟩ ⟨rfl, rfl⟩)

theorem execJoinResend_keeps (at_ : Nat) (hs : Keeps q j b s) :
    ∃ t, execJoinResend at_ s = .next t ∧ Keeps q j b t := by
  refine ⟨_, rfl, ?_⟩
  repeat' first
    | intro _
    | with_reducible assumption
    | with_reducible apply State.joinAgain_keeps
    | with_reducible apply State.reach_keeps
    | with_reducible apply onlyIf_keeps
    | dsimp only
    | (with_reducible refine keeps_mk ?_ ⟨rfl, rfl, rfl, rfl, rfl⟩ ⟨rfl, rfl⟩)

theorem execGrant_keeps (at_ : Nat) (hs : Keeps q j b s) :
    ∃ t, execGrant at_ s = .next t ∧ Keeps q j b t := by
  refine ⟨_, rfl, ?_⟩
  repeat' first
    | intro _
    | with_reducible assumption
    | with_reducible apply State.grantIn_keeps
    | with_reducible apply State.reach_keeps
    | with_reducible apply onlyIf_keeps
    | dsimp only
    | (with_reducible refine keeps_mk ?_ ⟨rfl, rfl, rfl, rfl, rfl⟩ ⟨rfl, rfl⟩)

theorem execTxnReply_keeps (at_ : Nat) (hs : Keeps q j b s) :
    ∃ t, execTxnReply at_ s = .next t ∧ Keeps q j b t := by
  refine ⟨_, rfl, ?_⟩
  repeat' first
    | intro _
    | with_reducible assumption
    | with_reducible apply State.txnReply_keeps
    | with_reducible apply State.reach_keeps
    | with_reducible apply onlyIf_keeps
    | dsimp only
    | (with_reducible refine keeps_mk ?_ ⟨rfl, rfl, rfl, rfl, rfl⟩ ⟨rfl, rfl⟩)

theorem execTxnResend_keeps (at_ : Nat) (hs : Keeps q j b s) :
    ∃ t, execTxnResend at_ s = .next t ∧ Keeps q j b t := by
  refine ⟨_, rfl, ?_⟩
  repeat' first
    | intro _
    | with_reducible assumption
    | with_reducible apply State.txnAgain_keeps
    | with_reducible apply State.reach_keeps
    | with_reducible apply onlyIf_keeps
    | dsimp only
    | (with_reducible refine keeps_mk ?_ ⟨rfl, rfl, rfl, rfl, rfl⟩ ⟨rfl, rfl⟩)

theorem execChannelBroken_keeps (k : Nat) (at_ : Nat) (hs : Keeps q j b s) :
    ∃ t, execChannelBroken k at_ s = .next t ∧ Keeps q j b t := by
  refine ⟨_, rfl, ?_⟩
  repeat' first
    | intro _
    | with_reducible assumption
    | with_reducible apply State.channelBroken_keeps
    | with_reducible apply State.reach_keeps
    | with_reducible apply onlyIf_keeps
    | dsimp only
    | (with_reducible refine keeps_mk ?_ ⟨rfl, rfl, rfl, rfl, rfl⟩ ⟨rfl, rfl⟩)

theorem execMessage_keeps (at_ : Nat) (hs : Keeps q j b s) :
    ∃ t, execMessage at_ s = .next t ∧ Keeps q j b t := by
  refine ⟨_, rfl, ?_⟩
  repeat' first
    | intro _
    | with_reducible assumption
    | with_reducible apply State.msgIn_keeps
    | with_reducible apply State.reach_keeps
    | with_reducible apply onlyIf_keeps
    | dsimp only
    | (with_reducible refine keeps_mk ?_ ⟨rfl, rfl, rfl, rfl, rfl⟩ ⟨rfl, rfl⟩)

theorem execMessageAck_keeps (at_ : Nat) (hs : Keeps q j b s) :
    ∃ t, execMessageAck at_ s = .next t ∧ Keeps q j b t := by
  refine ⟨_, rfl, ?_⟩
  repeat' first
    | intro _
    | with_reducible assumption
    | with_reducible apply State.ackIn_keeps
    | with_reducible apply State.reach_keeps
    | with_reducible apply onlyIf_keeps
    | dsimp only
    | (with_reducible refine keeps_mk ?_ ⟨rfl, rfl, rfl, rfl, rfl⟩ ⟨rfl, rfl⟩)

theorem execMessageResend_keeps (i : Nat) (at_ : Nat) (hs : Keeps q j b s) :
    ∃ t, execMessageResend i at_ s = .next t ∧ Keeps q j b t := by
  refine ⟨_, rfl, ?_⟩
  repeat' first
    | intro _
    | with_reducible assumption
    | with_reducible apply State.msgResend_keeps
    | with_reducible apply State.reach_keeps
    | with_reducible apply onlyIf_keeps
    | dsimp only
    | (with_reducible refine keeps_mk ?_ ⟨rfl, rfl, rfl, rfl, rfl⟩ ⟨rfl, rfl⟩)

theorem execKeeperHold_keeps (dest : Nat) (at_ : Nat) (hs : Keeps q j b s) :
    ∃ t, execKeeperHold dest at_ s = .next t ∧ Keeps q j b t := by
  refine ⟨_, rfl, ?_⟩
  repeat' first
    | intro _
    | with_reducible assumption
    | with_reducible apply State.keeperHold_keeps
    | with_reducible apply State.reach_keeps
    | with_reducible apply onlyIf_keeps
    | dsimp only
    | (with_reducible refine keeps_mk ?_ ⟨rfl, rfl, rfl, rfl, rfl⟩ ⟨rfl, rfl⟩)

theorem execKeeperRelease_keeps (at_ : Nat) (hs : Keeps q j b s) :
    ∃ t, execKeeperRelease at_ s = .next t ∧ Keeps q j b t := by
  refine ⟨_, rfl, ?_⟩
  repeat' first
    | intro _
    | with_reducible assumption
    | with_reducible apply State.keeperRelease_keeps
    | with_reducible apply State.reach_keeps
    | with_reducible apply onlyIf_keeps
    | dsimp only
    | (with_reducible refine keeps_mk ?_ ⟨rfl, rfl, rfl, rfl, rfl⟩ ⟨rfl, rfl⟩)

theorem execKeeperTakeover_keeps (at_ : Nat) (hs : Keeps q j b s) :
    ∃ t, execKeeperTakeover at_ s = .next t ∧ Keeps q j b t := by
  refine ⟨_, rfl, ?_⟩
  repeat' first
    | intro _
    | with_reducible assumption
    | with_reducible apply State.keeperTakeover_keeps
    | with_reducible apply State.reach_keeps
    | with_reducible apply onlyIf_keeps
    | dsimp only
    | (with_reducible refine keeps_mk ?_ ⟨rfl, rfl, rfl, rfl, rfl⟩ ⟨rfl, rfl⟩)

theorem execReceiveRecordFree_keeps (at_ : Nat) (hs : Keeps q j b s) :
    ∃ t, execReceiveRecordFree at_ s = .next t ∧ Keeps q j b t := by
  refine ⟨_, rfl, ?_⟩
  repeat' first
    | intro _
    | with_reducible assumption
    | with_reducible apply State.recordsFree_keeps
    | with_reducible apply State.reach_keeps
    | with_reducible apply onlyIf_keeps
    | dsimp only
    | (with_reducible refine keeps_mk ?_ ⟨rfl, rfl, rfl, rfl, rfl⟩ ⟨rfl, rfl⟩)

theorem execStreamData_keeps (at_ : Nat) (hs : Keeps q j b s) :
    ∃ t, execStreamData at_ s = .next t ∧ Keeps q j b t := by
  refine ⟨_, rfl, ?_⟩
  repeat' first
    | intro _
    | with_reducible assumption
    | with_reducible apply State.streamData_keeps
    | with_reducible apply State.reach_keeps
    | with_reducible apply onlyIf_keeps
    | dsimp only
    | (with_reducible refine keeps_mk ?_ ⟨rfl, rfl, rfl, rfl, rfl⟩ ⟨rfl, rfl⟩)

theorem execStreamOpen_keeps (at_ : Nat) (hs : Keeps q j b s) :
    ∃ t, execStreamOpen at_ s = .next t ∧ Keeps q j b t := by
  refine ⟨_, rfl, ?_⟩
  repeat' first
    | intro _
    | with_reducible assumption
    | with_reducible apply State.streamOpen_keeps
    | with_reducible apply State.reach_keeps
    | with_reducible apply onlyIf_keeps
    | dsimp only
    | (with_reducible refine keeps_mk ?_ ⟨rfl, rfl, rfl, rfl, rfl⟩ ⟨rfl, rfl⟩)

theorem execStreamOpenAck_keeps (at_ : Nat) (hs : Keeps q j b s) :
    ∃ t, execStreamOpenAck at_ s = .next t ∧ Keeps q j b t := by
  refine ⟨_, rfl, ?_⟩
  repeat' first
    | intro _
    | with_reducible assumption
    | with_reducible apply State.streamOpenAck_keeps
    | with_reducible apply State.reach_keeps
    | with_reducible apply onlyIf_keeps
    | dsimp only
    | (with_reducible refine keeps_mk ?_ ⟨rfl, rfl, rfl, rfl, rfl⟩ ⟨rfl, rfl⟩)

theorem execStreamAck_keeps (at_ : Nat) (hs : Keeps q j b s) :
    ∃ t, execStreamAck at_ s = .next t ∧ Keeps q j b t := by
  refine ⟨_, rfl, ?_⟩
  repeat' first
    | intro _
    | with_reducible assumption
    | with_reducible apply State.streamAck_keeps
    | with_reducible apply State.reach_keeps
    | with_reducible apply onlyIf_keeps
    | dsimp only
    | (with_reducible refine keeps_mk ?_ ⟨rfl, rfl, rfl, rfl, rfl⟩ ⟨rfl, rfl⟩)

theorem execStreamClose_keeps (at_ : Nat) (hs : Keeps q j b s) :
    ∃ t, execStreamClose at_ s = .next t ∧ Keeps q j b t := by
  refine ⟨_, rfl, ?_⟩
  repeat' first
    | intro _
    | with_reducible assumption
    | with_reducible apply State.streamClose_keeps
    | with_reducible apply State.reach_keeps
    | with_reducible apply onlyIf_keeps
    | dsimp only
    | (with_reducible refine keeps_mk ?_ ⟨rfl, rfl, rfl, rfl, rfl⟩ ⟨rfl, rfl⟩)

theorem execStreamReset_keeps (at_ : Nat) (hs : Keeps q j b s) :
    ∃ t, execStreamReset at_ s = .next t ∧ Keeps q j b t := by
  refine ⟨_, rfl, ?_⟩
  repeat' first
    | intro _
    | with_reducible assumption
    | with_reducible apply State.streamReset_keeps
    | with_reducible apply State.reach_keeps
    | with_reducible apply onlyIf_keeps
    | dsimp only
    | (with_reducible refine keeps_mk ?_ ⟨rfl, rfl, rfl, rfl, rfl⟩ ⟨rfl, rfl⟩)

theorem execStreamResend_keeps (at_ : Nat) (hs : Keeps q j b s) :
    ∃ t, execStreamResend at_ s = .next t ∧ Keeps q j b t := by
  refine ⟨_, rfl, ?_⟩
  repeat' first
    | intro _
    | with_reducible assumption
    | with_reducible apply State.streamResend_keeps
    | with_reducible apply State.reach_keeps
    | with_reducible apply onlyIf_keeps
    | dsimp only
    | (with_reducible refine keeps_mk ?_ ⟨rfl, rfl, rfl, rfl, rfl⟩ ⟨rfl, rfl⟩)

theorem execFscopePropose_keeps (at_ : Nat) (hs : Keeps q j b s) :
    ∃ t, execFscopePropose at_ s = .next t ∧ Keeps q j b t := by
  refine ⟨_, rfl, ?_⟩
  repeat' first
    | intro _
    | with_reducible assumption
    | with_reducible apply State.fsProposeIn_keeps
    | with_reducible apply State.reach_keeps
    | with_reducible apply onlyIf_keeps
    | dsimp only
    | (with_reducible refine keeps_mk ?_ ⟨rfl, rfl, rfl, rfl, rfl⟩ ⟨rfl, rfl⟩)

theorem execFscopePrepare_keeps (at_ : Nat) (hs : Keeps q j b s) :
    ∃ t, execFscopePrepare at_ s = .next t ∧ Keeps q j b t := by
  refine ⟨_, rfl, ?_⟩
  repeat' first
    | intro _
    | with_reducible assumption
    | with_reducible apply State.fsPrepareIn_keeps
    | with_reducible apply State.reach_keeps
    | with_reducible apply onlyIf_keeps
    | dsimp only
    | (with_reducible refine keeps_mk ?_ ⟨rfl, rfl, rfl, rfl, rfl⟩ ⟨rfl, rfl⟩)

theorem execFscopeReady_keeps (at_ : Nat) (hs : Keeps q j b s) :
    ∃ t, execFscopeReady at_ s = .next t ∧ Keeps q j b t := by
  refine ⟨_, rfl, ?_⟩
  repeat' first
    | intro _
    | with_reducible assumption
    | with_reducible apply State.fsReadyIn_keeps
    | with_reducible apply State.reach_keeps
    | with_reducible apply onlyIf_keeps
    | dsimp only
    | (with_reducible refine keeps_mk ?_ ⟨rfl, rfl, rfl, rfl, rfl⟩ ⟨rfl, rfl⟩)

theorem execFscopeReadyDeadline_keeps (at_ : Nat) (hs : Keeps q j b s) :
    ∃ t, execFscopeReadyDeadline at_ s = .next t ∧ Keeps q j b t := by
  refine ⟨_, rfl, ?_⟩
  repeat' first
    | intro _
    | with_reducible assumption
    | with_reducible apply State.fsDeadline_keeps
    | with_reducible apply State.reach_keeps
    | with_reducible apply onlyIf_keeps
    | dsimp only
    | (with_reducible refine keeps_mk ?_ ⟨rfl, rfl, rfl, rfl, rfl⟩ ⟨rfl, rfl⟩)

theorem execFscopeCommit_keeps (at_ : Nat) (hs : Keeps q j b s) :
    ∃ t, execFscopeCommit at_ s = .next t ∧ Keeps q j b t := by
  refine ⟨_, rfl, ?_⟩
  repeat' first
    | intro _
    | with_reducible assumption
    | with_reducible apply State.fsCommitIn_keeps
    | with_reducible apply State.reach_keeps
    | with_reducible apply onlyIf_keeps
    | dsimp only
    | (with_reducible refine keeps_mk ?_ ⟨rfl, rfl, rfl, rfl, rfl⟩ ⟨rfl, rfl⟩)

theorem execFscopeAbort_keeps (at_ : Nat) (hs : Keeps q j b s) :
    ∃ t, execFscopeAbort at_ s = .next t ∧ Keeps q j b t := by
  refine ⟨_, rfl, ?_⟩
  repeat' first
    | intro _
    | with_reducible assumption
    | with_reducible apply State.fsAbortIn_keeps
    | with_reducible apply State.reach_keeps
    | with_reducible apply onlyIf_keeps
    | dsimp only
    | (with_reducible refine keeps_mk ?_ ⟨rfl, rfl, rfl, rfl, rfl⟩ ⟨rfl, rfl⟩)

theorem execFscopeApply_keeps  (hs : Keeps q j b s) :
    ∃ t, execFscopeApply s = .next t ∧ Keeps q j b t := by
  refine ⟨_, rfl, ?_⟩
  repeat' first
    | intro _
    | with_reducible assumption
    | with_reducible apply State.fsEdge_keeps
    | with_reducible apply onlyIf_keeps
    | dsimp only
    | (with_reducible refine keeps_mk ?_ ⟨rfl, rfl, rfl, rfl, rfl⟩ ⟨rfl, rfl⟩)

theorem execFscopeFetch_keeps (at_ : Nat) (hs : Keeps q j b s) :
    ∃ t, execFscopeFetch at_ s = .next t ∧ Keeps q j b t := by
  refine ⟨_, rfl, ?_⟩
  repeat' first
    | intro _
    | with_reducible assumption
    | with_reducible apply State.fsFetchIn_keeps
    | with_reducible apply State.reach_keeps
    | with_reducible apply onlyIf_keeps
    | dsimp only
    | (with_reducible refine keeps_mk ?_ ⟨rfl, rfl, rfl, rfl, rfl⟩ ⟨rfl, rfl⟩)

theorem execFscopeValue_keeps (at_ : Nat) (hs : Keeps q j b s) :
    ∃ t, execFscopeValue at_ s = .next t ∧ Keeps q j b t := by
  refine ⟨_, rfl, ?_⟩
  repeat' first
    | intro _
    | with_reducible assumption
    | with_reducible apply State.fsValueIn_keeps
    | with_reducible apply State.reach_keeps
    | with_reducible apply onlyIf_keeps
    | dsimp only
    | (with_reducible refine keeps_mk ?_ ⟨rfl, rfl, rfl, rfl, rfl⟩ ⟨rfl, rfl⟩)

theorem execFscopeLost_keeps (at_ : Nat) (hs : Keeps q j b s) :
    ∃ t, execFscopeLost at_ s = .next t ∧ Keeps q j b t := by
  refine ⟨_, rfl, ?_⟩
  repeat' first
    | intro _
    | with_reducible assumption
    | with_reducible apply State.fsLost_keeps
    | with_reducible apply State.reach_keeps
    | with_reducible apply onlyIf_keeps
    | dsimp only
    | (with_reducible refine keeps_mk ?_ ⟨rfl, rfl, rfl, rfl, rfl⟩ ⟨rfl, rfl⟩)

theorem execLakeEpoch_keeps (at_ : Nat) (hs : Keeps q j b s) :
    ∃ t, execLakeEpoch at_ s = .next t ∧ Keeps q j b t := by
  refine ⟨_, rfl, ?_⟩
  repeat' first
    | intro _
    | with_reducible assumption
    | with_reducible apply State.lakeEpoch_keeps
    | with_reducible apply State.reach_keeps
    | with_reducible apply onlyIf_keeps
    | dsimp only
    | (with_reducible refine keeps_mk ?_ ⟨rfl, rfl, rfl, rfl, rfl⟩ ⟨rfl, rfl⟩)

theorem execReport_keeps (at_ : Nat) (hs : Keeps q j b s) :
    ∃ t, execReport at_ s = .next t ∧ Keeps q j b t := by
  refine ⟨_, rfl, ?_⟩
  repeat' first
    | intro _
    | with_reducible assumption
    | with_reducible apply State.reportIn_keeps
    | with_reducible apply State.reach_keeps
    | with_reducible apply onlyIf_keeps
    | dsimp only
    | (with_reducible refine keeps_mk ?_ ⟨rfl, rfl, rfl, rfl, rfl⟩ ⟨rfl, rfl⟩)

theorem execEnsembleEpoch_keeps (origin : Nat) (at_ : Nat) (hs : Keeps q j b s) :
    ∃ t, execEnsembleEpoch origin at_ s = .next t ∧ Keeps q j b t := by
  refine ⟨_, rfl, ?_⟩
  repeat' first
    | intro _
    | with_reducible assumption
    | with_reducible apply State.ensembleEpoch_keeps
    | with_reducible apply State.reach_keeps
    | with_reducible apply onlyIf_keeps
    | dsimp only
    | (with_reducible refine keeps_mk ?_ ⟨rfl, rfl, rfl, rfl, rfl⟩ ⟨rfl, rfl⟩)

theorem execEstimate_keeps (at_ : Nat) (hs : Keeps q j b s) :
    ∃ t, execEstimate at_ s = .next t ∧ Keeps q j b t := by
  refine ⟨_, rfl, ?_⟩
  repeat' first
    | intro _
    | with_reducible assumption
    | with_reducible apply State.estimateIn_keeps
    | with_reducible apply State.reach_keeps
    | with_reducible apply onlyIf_keeps
    | dsimp only
    | (with_reducible refine keeps_mk ?_ ⟨rfl, rfl, rfl, rfl, rfl⟩ ⟨rfl, rfl⟩)

theorem execEstimateLoss_keeps (at_ : Nat) (hs : Keeps q j b s) :
    ∃ t, execEstimateLoss at_ s = .next t ∧ Keeps q j b t := by
  refine ⟨_, rfl, ?_⟩
  repeat' first
    | intro _
    | with_reducible assumption
    | with_reducible apply State.estimateLoss_keeps
    | with_reducible apply State.reach_keeps
    | with_reducible apply onlyIf_keeps
    | dsimp only
    | (with_reducible refine keeps_mk ?_ ⟨rfl, rfl, rfl, rfl, rfl⟩ ⟨rfl, rfl⟩)

theorem execReplica_keeps (at_ : Nat) (hs : Keeps q j b s) :
    ∃ t, execReplica at_ s = .next t ∧ Keeps q j b t := by
  refine ⟨_, rfl, ?_⟩
  repeat' first
    | intro _
    | with_reducible assumption
    | with_reducible apply State.replicaIn_keeps
    | with_reducible apply State.reach_keeps
    | with_reducible apply onlyIf_keeps
    | dsimp only
    | (with_reducible refine keeps_mk ?_ ⟨rfl, rfl, rfl, rfl, rfl⟩ ⟨rfl, rfl⟩)

theorem execActingTakeover_keeps (at_ : Nat) (hs : Keeps q j b s) :
    ∃ t, execActingTakeover at_ s = .next t ∧ Keeps q j b t := by
  refine ⟨_, rfl, ?_⟩
  repeat' first
    | intro _
    | with_reducible assumption
    | with_reducible apply State.actingTake_keeps
    | with_reducible apply State.reach_keeps
    | with_reducible apply onlyIf_keeps
    | dsimp only
    | (with_reducible refine keeps_mk ?_ ⟨rfl, rfl, rfl, rfl, rfl⟩ ⟨rfl, rfl⟩)

theorem execCvObs_keeps (at_ : Nat) (hs : Keeps q j b s) :
    ∃ t, execCvObs at_ s = .next t ∧ Keeps q j b t := by
  refine ⟨_, rfl, ?_⟩
  repeat' first
    | intro _
    | with_reducible assumption
    | with_reducible apply State.cvIn_keeps
    | with_reducible apply State.reach_keeps
    | with_reducible apply onlyIf_keeps
    | dsimp only
    | (with_reducible refine keeps_mk ?_ ⟨rfl, rfl, rfl, rfl, rfl⟩ ⟨rfl, rfl⟩)

theorem execNeighbours_keeps (at_ : Nat) (hs : Keeps q j b s) :
    ∃ t, execNeighbours at_ s = .next t ∧ Keeps q j b t := by
  refine ⟨_, rfl, ?_⟩
  repeat' first
    | intro _
    | with_reducible assumption
    | with_reducible apply State.neighboursIn_keeps
    | with_reducible apply State.reach_keeps
    | with_reducible apply onlyIf_keeps
    | dsimp only
    | (with_reducible refine keeps_mk ?_ ⟨rfl, rfl, rfl, rfl, rfl⟩ ⟨rfl, rfl⟩)

theorem execSightings_keeps (at_ : Nat) (hs : Keeps q j b s) :
    ∃ t, execSightings at_ s = .next t ∧ Keeps q j b t := by
  refine ⟨_, rfl, ?_⟩
  repeat' first
    | intro _
    | with_reducible assumption
    | with_reducible apply State.sightingsIn_keeps
    | with_reducible apply State.reach_keeps
    | with_reducible apply onlyIf_keeps
    | dsimp only
    | (with_reducible refine keeps_mk ?_ ⟨rfl, rfl, rfl, rfl, rfl⟩ ⟨rfl, rfl⟩)

theorem execLakeEphemeris_keeps (at_ : Nat) (hs : Keeps q j b s) :
    ∃ t, execLakeEphemeris at_ s = .next t ∧ Keeps q j b t := by
  refine ⟨_, rfl, ?_⟩
  repeat' first
    | intro _
    | with_reducible assumption
    | with_reducible apply State.ephemerisIn_keeps
    | with_reducible apply State.reach_keeps
    | with_reducible apply onlyIf_keeps
    | dsimp only
    | (with_reducible refine keeps_mk ?_ ⟨rfl, rfl, rfl, rfl, rfl⟩ ⟨rfl, rfl⟩)

theorem execSymbols_keeps (at_ : Nat) (hs : Keeps q j b s) :
    ∃ t, execSymbols at_ s = .next t ∧ Keeps q j b t := by
  refine ⟨_, rfl, ?_⟩
  repeat' first
    | intro _
    | with_reducible assumption
    | with_reducible apply State.symbolsTake_keeps
    | with_reducible apply State.reach_keeps
    | with_reducible apply onlyIf_keeps
    | dsimp only
    | (with_reducible refine keeps_mk ?_ ⟨rfl, rfl, rfl, rfl, rfl⟩ ⟨rfl, rfl⟩)

theorem execSubscribe_keeps (at_ : Nat) (hs : Keeps q j b s) :
    ∃ t, execSubscribe at_ s = .next t ∧ Keeps q j b t := by
  refine ⟨_, rfl, ?_⟩
  repeat' first
    | intro _
    | with_reducible assumption
    | with_reducible apply State.subscribeIn_keeps
    | with_reducible apply State.reach_keeps
    | with_reducible apply onlyIf_keeps
    | dsimp only
    | (with_reducible refine keeps_mk ?_ ⟨rfl, rfl, rfl, rfl, rfl⟩ ⟨rfl, rfl⟩)

theorem execSubscribeRenew_keeps (at_ : Nat) (hs : Keeps q j b s) :
    ∃ t, execSubscribeRenew at_ s = .next t ∧ Keeps q j b t := by
  refine ⟨_, rfl, ?_⟩
  repeat' first
    | intro _
    | with_reducible assumption
    | with_reducible apply State.subscribeRenew_keeps
    | with_reducible apply State.reach_keeps
    | with_reducible apply onlyIf_keeps
    | dsimp only
    | (with_reducible refine keeps_mk ?_ ⟨rfl, rfl, rfl, rfl, rfl⟩ ⟨rfl, rfl⟩)

theorem execRank_keeps (at_ : Nat) (hs : Keeps q j b s) :
    ∃ t, execRank at_ s = .next t ∧ Keeps q j b t := by
  refine ⟨_, rfl, ?_⟩
  repeat' first
    | intro _
    | with_reducible assumption
    | with_reducible apply State.rankIn_keeps
    | with_reducible apply State.reach_keeps
    | with_reducible apply onlyIf_keeps
    | dsimp only
    | (with_reducible refine keeps_mk ?_ ⟨rfl, rfl, rfl, rfl, rfl⟩ ⟨rfl, rfl⟩)

theorem execSubscriptionExpiry_keeps (at_ : Nat) (hs : Keeps q j b s) :
    ∃ t, execSubscriptionExpiry at_ s = .next t ∧ Keeps q j b t := by
  refine ⟨_, rfl, ?_⟩
  repeat' first
    | intro _
    | with_reducible assumption
    | with_reducible apply State.subscriptionsExpire_keeps
    | with_reducible apply State.reach_keeps
    | with_reducible apply onlyIf_keeps
    | dsimp only
    | (with_reducible refine keeps_mk ?_ ⟨rfl, rfl, rfl, rfl, rfl⟩ ⟨rfl, rfl⟩)

theorem execSightingExpiry_keeps (at_ : Nat) (hs : Keeps q j b s) :
    ∃ t, execSightingExpiry at_ s = .next t ∧ Keeps q j b t := by
  refine ⟨_, rfl, ?_⟩
  repeat' first
    | intro _
    | with_reducible assumption
    | with_reducible apply State.sightingsExpire_keeps
    | with_reducible apply State.reach_keeps
    | with_reducible apply onlyIf_keeps
    | dsimp only
    | (with_reducible refine keeps_mk ?_ ⟨rfl, rfl, rfl, rfl, rfl⟩ ⟨rfl, rfl⟩)

theorem execDescriptorComplete_keeps (core : Nat) (ring : Nat) (at_ : Nat) (hs : Keeps q j b s) :
    ∃ t, execDescriptorComplete core ring at_ s = .next t ∧ Keeps q j b t := by
  refine ⟨_, rfl, ?_⟩
  repeat' first
    | intro _
    | with_reducible assumption
    | with_reducible apply State.descriptorComplete_keeps
    | with_reducible apply State.reach_keeps
    | with_reducible apply onlyIf_keeps
    | dsimp only
    | (with_reducible refine keeps_mk ?_ ⟨rfl, rfl, rfl, rfl, rfl⟩ ⟨rfl, rfl⟩)

theorem execSynthLock_keeps (at_ : Nat) (hs : Keeps q j b s) :
    ∃ t, execSynthLock at_ s = .next t ∧ Keeps q j b t := by
  refine ⟨_, rfl, ?_⟩
  repeat' first
    | intro _
    | with_reducible assumption
    | with_reducible apply State.synthLock_keeps
    | with_reducible apply State.readerSettle_keeps
    | with_reducible apply State.reach_keeps
    | with_reducible apply onlyIf_keeps
    | dsimp only
    | (with_reducible refine keeps_mk ?_ ⟨rfl, rfl, rfl, rfl, rfl⟩ ⟨rfl, rfl⟩)

theorem execSynthLockTimeout_keeps (at_ : Nat) (hs : Keeps q j b s) :
    ∃ t, execSynthLockTimeout at_ s = .next t ∧ Keeps q j b t := by
  refine ⟨_, rfl, ?_⟩
  repeat' first
    | intro _
    | with_reducible assumption
    | with_reducible apply State.synthTimeout_keeps
    | with_reducible apply State.readerSettle_keeps
    | with_reducible apply State.reach_keeps
    | with_reducible apply onlyIf_keeps
    | dsimp only
    | (with_reducible refine keeps_mk ?_ ⟨rfl, rfl, rfl, rfl, rfl⟩ ⟨rfl, rfl⟩)

theorem execSynthCalDone_keeps (at_ : Nat) (hs : Keeps q j b s) :
    ∃ t, execSynthCalDone at_ s = .next t ∧ Keeps q j b t := by
  refine ⟨_, rfl, ?_⟩
  repeat' first
    | intro _
    | with_reducible assumption
    | with_reducible apply State.synthCalDone_keeps
    | with_reducible apply State.reach_keeps
    | with_reducible apply onlyIf_keeps
    | dsimp only
    | (with_reducible refine keeps_mk ?_ ⟨rfl, rfl, rfl, rfl, rfl⟩ ⟨rfl, rfl⟩)

theorem execSynthBusy_keeps (at_ : Nat) (hs : Keeps q j b s) :
    ∃ t, execSynthBusy at_ s = .next t ∧ Keeps q j b t := by
  refine ⟨_, rfl, ?_⟩
  repeat' first
    | intro _
    | with_reducible assumption
    | with_reducible apply State.readerSettle_keeps
    | with_reducible apply State.synthBusy_keeps
    | with_reducible apply State.reach_keeps
    | with_reducible apply onlyIf_keeps
    | dsimp only
    | (with_reducible refine keeps_mk ?_ ⟨rfl, rfl, rfl, rfl, rfl⟩ ⟨rfl, rfl⟩)

theorem execFieldTimeout_keeps (at_ : Nat) (hs : Keeps q j b s) :
    ∃ t, execFieldTimeout at_ s = .next t ∧ Keeps q j b t := by
  refine ⟨_, rfl, ?_⟩
  repeat' first
    | intro _
    | with_reducible assumption
    | with_reducible apply State.fieldTimeout_keeps
    | with_reducible apply State.reach_keeps
    | with_reducible apply onlyIf_keeps
    | dsimp only
    | (with_reducible refine keeps_mk ?_ ⟨rfl, rfl, rfl, rfl, rfl⟩ ⟨rfl, rfl⟩)

theorem execHardwareFieldTimeout_keeps (at_ : Nat) (hs : Keeps q j b s) :
    ∃ t, execHardwareFieldTimeout at_ s = .next t ∧ Keeps q j b t := by
  refine ⟨_, rfl, ?_⟩
  repeat' first
    | intro _
    | with_reducible assumption
    | with_reducible apply State.fieldTimeout_keeps
    | with_reducible apply State.reach_keeps
    | with_reducible apply onlyIf_keeps
    | dsimp only
    | (with_reducible refine keeps_mk ?_ ⟨rfl, rfl, rfl, rfl, rfl⟩ ⟨rfl, rfl⟩)

theorem execDutyLimit_keeps (at_ : Nat) (hs : Keeps q j b s) :
    ∃ t, execDutyLimit at_ s = .next t ∧ Keeps q j b t := by
  refine ⟨_, rfl, ?_⟩
  repeat' first
    | intro _
    | with_reducible assumption
    | with_reducible apply State.dutyLimit_keeps
    | with_reducible apply State.reach_keeps
    | with_reducible apply onlyIf_keeps
    | dsimp only
    | (with_reducible refine keeps_mk ?_ ⟨rfl, rfl, rfl, rfl, rfl⟩ ⟨rfl, rfl⟩)

theorem execResponseTimeout_keeps (bins : List (Nat × Int)) (at_ : Nat) (hs : Keeps q j b s) :
    ∃ t, execResponseTimeout bins at_ s = .next t ∧ Keeps q j b t := by
  refine ⟨_, rfl, ?_⟩
  repeat' first
    | intro _
    | with_reducible assumption
    | with_reducible apply State.responseTimeout_keeps
    | with_reducible apply State.reach_keeps
    | with_reducible apply onlyIf_keeps
    | dsimp only
    | (with_reducible refine keeps_mk ?_ ⟨rfl, rfl, rfl, rfl, rfl⟩ ⟨rfl, rfl⟩)

theorem execReaderFrameReceived_keeps (f : RxFrame) (bins : List (Nat × Int)) (at_ : Nat) (hs : Keeps q j b s) :
    ∃ t, execReaderFrameReceived f bins at_ s = .next t ∧ Keeps q j b t := by
  refine ⟨_, rfl, ?_⟩
  repeat' first
    | intro _
    | with_reducible assumption
    | with_reducible apply State.frameReceived_keeps
    | with_reducible apply State.reach_keeps
    | with_reducible apply onlyIf_keeps
    | with_reducible apply keeps_ite
    | (extract_lets +onlyGivenNames -underBinder x; first | (refine keeps_cut (q := q) (j := j) (b := b) (x := x) ?_ ?_ <;> first | (intro h0; generalize x = y at h0 ⊢; clear x) | intro h0 | subst x) | subst x)
    | split
    | dsimp only
    | (with_reducible refine keeps_mk ?_ ⟨rfl, rfl, rfl, rfl, rfl⟩ ⟨rfl, rfl⟩)

theorem execSecondSof_keeps (f : RxFrame) (amp : Nat) (bins : List (Nat × Int)) (at_ : Nat) (hs : Keeps q j b s) :
    ∃ t, execSecondSof f amp bins at_ s = .next t ∧ Keeps q j b t := by
  refine ⟨_, rfl, ?_⟩
  repeat' first
    | intro _
    | with_reducible assumption
    | with_reducible apply State.secondSof_keeps
    | with_reducible apply State.reach_keeps
    | with_reducible apply onlyIf_keeps
    | with_reducible apply keeps_ite
    | (extract_lets +onlyGivenNames -underBinder x; first | (refine keeps_cut (q := q) (j := j) (b := b) (x := x) ?_ ?_ <;> first | (intro h0; generalize x = y at h0 ⊢; clear x) | intro h0 | subst x) | subst x)
    | split
    | dsimp only
    | (with_reducible refine keeps_mk ?_ ⟨rfl, rfl, rfl, rfl, rfl⟩ ⟨rfl, rfl⟩)

theorem execCardDetectBurst_keeps (amp : Nat) (at_ : Nat) (hs : Keeps q j b s) :
    ∃ t, execCardDetectBurst amp at_ s = .next t ∧ Keeps q j b t := by
  refine ⟨_, rfl, ?_⟩
  repeat' first
    | intro _
    | with_reducible assumption
    | with_reducible apply State.wakeBy_keeps
    | with_reducible apply State.cardBurst_keeps
    | with_reducible apply State.reach_keeps
    | with_reducible apply onlyIf_keeps
    | with_reducible apply keeps_ite
    | (extract_lets +onlyGivenNames -underBinder x; first | (refine keeps_cut (q := q) (j := j) (b := b) (x := x) ?_ ?_ <;> first | (intro h0; generalize x = y at h0 ⊢; clear x) | intro h0 | subst x) | subst x)
    | split
    | dsimp only
    | (with_reducible refine keeps_mk ?_ ⟨rfl, rfl, rfl, rfl, rfl⟩ ⟨rfl, rfl⟩)

theorem execDelayScan_keeps (tags : List (List Nat × Option (List Nat))) (last : JobEnd) (us : Nat) (at_ : Nat) (hs : Keeps q j b s) :
    ∃ t, execDelayScan tags last us at_ s = .next t ∧ Keeps q j b t := by
  refine ⟨_, rfl, ?_⟩
  repeat' first
    | intro _
    | with_reducible assumption
    | with_reducible apply State.delayScan_keeps
    | with_reducible apply State.reach_keeps
    | with_reducible apply onlyIf_keeps
    | (extract_lets +onlyGivenNames -underBinder x; first | (refine keeps_cut (q := q) (j := j) (b := b) (x := x) ?_ ?_ <;> first | (intro h0; generalize x = y at h0 ⊢; clear x) | intro h0 | subst x) | subst x)
    | dsimp only
    | (with_reducible refine keeps_mk ?_ ⟨rfl, rfl, rfl, rfl, rfl⟩ ⟨rfl, rfl⟩)

theorem execRead_keeps (c : Ctx) (index : Nat) (sub : Nat) (len : Nat) (hs : Keeps q j b s) :
    ∃ t, execRead c index sub len s = .next t ∧ Keeps q j b t := by
  refine ⟨_, rfl, ?_⟩
  repeat' first
    | intro _
    | with_reducible assumption
    | with_reducible apply State.request_keeps
    | with_reducible apply onlyIf_keeps
    | dsimp only
    | (with_reducible refine keeps_mk ?_ ⟨rfl, rfl, rfl, rfl, rfl⟩ ⟨rfl, rfl⟩)

theorem execWrite_keeps (c : Ctx) (index : Nat) (sub : Nat) (b_ : List Nat) (hs : Keeps q j b s) :
    ∃ t, execWrite c index sub b_ s = .next t ∧ Keeps q j b t := by
  refine ⟨_, rfl, ?_⟩
  repeat' first
    | intro _
    | with_reducible assumption
    | with_reducible apply State.write_keeps
    | with_reducible apply onlyIf_keeps
    | dsimp only
    | (with_reducible refine keeps_mk ?_ ⟨rfl, rfl, rfl, rfl, rfl⟩ ⟨rfl, rfl⟩)

theorem execStreamRead_keeps (c : Ctx) (index : Nat) (sub : Nat) (len : Nat) (hs : Keeps q j b s) :
    ∃ t, execStreamRead c index sub len s = .next t ∧ Keeps q j b t := by
  refine ⟨_, rfl, ?_⟩
  repeat' first
    | intro _
    | with_reducible assumption
    | with_reducible apply State.request_keeps
    | with_reducible apply onlyIf_keeps
    | dsimp only
    | (with_reducible refine keeps_mk ?_ ⟨rfl, rfl, rfl, rfl, rfl⟩ ⟨rfl, rfl⟩)

theorem execSnapshot_keeps (c : Ctx) (index : Nat) (len : Nat) (hs : Keeps q j b s) :
    ∃ t, execSnapshot c index len s = .next t ∧ Keeps q j b t := by
  refine ⟨_, rfl, ?_⟩
  repeat' first
    | intro _
    | with_reducible assumption
    | with_reducible apply State.request_keeps
    | with_reducible apply onlyIf_keeps
    | dsimp only
    | (with_reducible refine keeps_mk ?_ ⟨rfl, rfl, rfl, rfl, rfl⟩ ⟨rfl, rfl⟩)

theorem execWriteRecord_keeps (c : Ctx) (index : Nat) (b_ : List Nat) (hs : Keeps q j b s) :
    ∃ t, execWriteRecord c index b_ s = .next t ∧ Keeps q j b t := by
  refine ⟨_, rfl, ?_⟩
  repeat' first
    | intro _
    | with_reducible assumption
    | with_reducible apply State.request_keeps
    | with_reducible apply onlyIf_keeps
    | dsimp only
    | (with_reducible refine keeps_mk ?_ ⟨rfl, rfl, rfl, rfl, rfl⟩ ⟨rfl, rfl⟩)

theorem execDescribe_keeps (c : Ctx) (index : Nat) (sub : Nat) (len : Nat) (hs : Keeps q j b s) :
    ∃ t, execDescribe c index sub len s = .next t ∧ Keeps q j b t := by
  refine ⟨_, rfl, ?_⟩
  repeat' first
    | intro _
    | with_reducible assumption
    | with_reducible apply State.request_keeps
    | with_reducible apply onlyIf_keeps
    | dsimp only
    | (with_reducible refine keeps_mk ?_ ⟨rfl, rfl, rfl, rfl, rfl⟩ ⟨rfl, rfl⟩)

theorem execStatus_keeps (n : Nat) (at_ : Nat) (hs : Keeps q j b s) :
    ∃ t, execStatus n at_ s = .next t ∧ Keeps q j b t := by
  refine ⟨_, rfl, ?_⟩
  repeat' first
    | intro _
    | with_reducible assumption
    | with_reducible apply State.statusSent_keeps
    | with_reducible apply State.modMspi_keeps
    | with_reducible apply State.reach_keeps
    | with_reducible apply onlyIf_keeps
    | with_reducible apply keeps_ite
    | split
    | dsimp only
    | (with_reducible refine keeps_mk ?_ ⟨rfl, rfl, rfl, rfl, rfl⟩ ⟨rfl, rfl⟩)

theorem execFetch_keeps (n : Nat) (at_ : Nat) (hs : Keeps q j b s) :
    ∃ t, execFetch n at_ s = .next t ∧ Keeps q j b t := by
  refine ⟨_, rfl, ?_⟩
  repeat' first
    | intro _
    | with_reducible assumption
    | with_reducible apply State.mspiFetch_keeps
    | with_reducible apply State.reach_keeps
    | with_reducible apply onlyIf_keeps
    | dsimp only
    | (with_reducible refine keeps_mk ?_ ⟨rfl, rfl, rfl, rfl, rfl⟩ ⟨rfl, rfl⟩)

theorem execMspiTransfer_keeps (b_ : List Nat) (at_ : Nat) (hs : Keeps q j b s) :
    ∃ t, execMspiTransfer b_ at_ s = .next t ∧ Keeps q j b t := by
  refine ⟨_, rfl, ?_⟩
  repeat' first
    | intro _
    | with_reducible assumption
    | with_reducible apply State.mspiTransfer_keeps
    | with_reducible apply State.reach_keeps
    | with_reducible apply onlyIf_keeps
    | dsimp only
    | (with_reducible refine keeps_mk ?_ ⟨rfl, rfl, rfl, rfl, rfl⟩ ⟨rfl, rfl⟩)

theorem execHostRequest_keeps (f : List Nat) (fcs : Bool) (at_ : Nat) (aon : Nat) (hs : Keeps q j b s) :
    ∃ t, execHostRequest f fcs at_ aon s = .next t ∧ Keeps q j b t := by
  refine ⟨_, rfl, ?_⟩
  repeat' first
    | intro _
    | with_reducible assumption
    | with_reducible apply State.instant_keeps
    | with_reducible apply State.hostRequest_keeps
    | with_reducible apply onlyIf_keeps
    | dsimp only
    | (with_reducible refine keeps_mk ?_ ⟨rfl, rfl, rfl, rfl, rfl⟩ ⟨rfl, rfl⟩)

theorem execTxnRequest_keeps (at_ : Nat) (aon : Nat) (hs : Keeps q j b s) :
    ∃ t, execTxnRequest at_ aon s = .next t ∧ Keeps q j b t := by
  refine ⟨_, rfl, ?_⟩
  repeat' first
    | intro _
    | with_reducible assumption
    | with_reducible apply State.instant_keeps
    | with_reducible apply State.txnRequest_keeps
    | with_reducible apply onlyIf_keeps
    | dsimp only
    | (with_reducible refine keeps_mk ?_ ⟨rfl, rfl, rfl, rfl, rfl⟩ ⟨rfl, rfl⟩)

theorem execDauDone_keeps (core : Nat) (at_ : Nat) (aon : Nat) (hs : Keeps q j b s) :
    ∃ t, execDauDone core at_ aon s = .next t ∧ Keeps q j b t := by
  refine ⟨_, rfl, ?_⟩
  repeat' first
    | intro _
    | with_reducible assumption
    | with_reducible apply State.instant_keeps
    | with_reducible apply State.dauRun_keeps
    | with_reducible apply onlyIf_keeps
    | dsimp only
    | (with_reducible refine keeps_mk ?_ ⟨rfl, rfl, rfl, rfl, rfl⟩ ⟨rfl, rfl⟩)

theorem execKeeperHeld_keeps (at_ : Nat) (hs : Keeps q j b s) :
    ∃ t, execKeeperHeld at_ s = .next t ∧ Keeps q j b t := by
  refine ⟨_, rfl, ?_⟩
  repeat' first
    | intro _
    | with_reducible assumption
    | with_reducible apply State.submitEvent_keeps
    | with_reducible apply State.keeperHeld_keeps
    | with_reducible apply State.reach_keeps
    | with_reducible apply onlyIf_keeps
    | dsimp only
    | (with_reducible refine keeps_mk ?_ ⟨rfl, rfl, rfl, rfl, rfl⟩ ⟨rfl, rfl⟩)

theorem execKeeperHeldTimeout_keeps (at_ : Nat) (hs : Keeps q j b s) :
    ∃ t, execKeeperHeldTimeout at_ s = .next t ∧ Keeps q j b t := by
  refine ⟨_, rfl, ?_⟩
  repeat' first
    | intro _
    | with_reducible assumption
    | with_reducible apply State.submitEvent_keeps
    | with_reducible apply State.keeperTimeout_keeps
    | with_reducible apply State.reach_keeps
    | with_reducible apply onlyIf_keeps
    | dsimp only
    | (with_reducible refine keeps_mk ?_ ⟨rfl, rfl, rfl, rfl, rfl⟩ ⟨rfl, rfl⟩)

theorem execMessageDelivery_keeps (at_ : Nat) (aon : Nat) (hs : Keeps q j b s) :
    ∃ t, execMessageDelivery at_ aon s = .next t ∧ Keeps q j b t := by
  refine ⟨_, rfl, ?_⟩
  repeat' first
    | intro _
    | with_reducible assumption
    | with_reducible apply State.messageDelivery_keeps
    | with_reducible apply onlyIf_keeps
    | dsimp only
    | (with_reducible refine keeps_mk ?_ ⟨rfl, rfl, rfl, rfl, rfl⟩ ⟨rfl, rfl⟩)

theorem execRemoteRequest_keeps (c : Ctx) (b_ : List Nat) (hs : Keeps q j b s) :
    ∃ t, execRemoteRequest c b_ s = .next t ∧ Keeps q j b t := by
  refine ⟨_, rfl, ?_⟩
  repeat' first
    | intro _
    | with_reducible assumption
    | with_reducible apply State.write_keeps
    | with_reducible apply onlyIf_keeps
    | dsimp only
    | (with_reducible refine keeps_mk ?_ ⟨rfl, rfl, rfl, rfl, rfl⟩ ⟨rfl, rfl⟩)

theorem execMessageSubmit_keeps (c : Ctx) (b_ : List Nat) (hs : Keeps q j b s) :
    ∃ t, execMessageSubmit c b_ s = .next t ∧ Keeps q j b t := by
  refine ⟨_, rfl, ?_⟩
  repeat' first
    | intro _
    | with_reducible assumption
    | with_reducible apply State.write_keeps
    | with_reducible apply onlyIf_keeps
    | dsimp only
    | (with_reducible refine keeps_mk ?_ ⟨rfl, rfl, rfl, rfl, rfl⟩ ⟨rfl, rfl⟩)

theorem execLaunchSubmit_keeps (c : Ctx) (b_ : List Nat) (hs : Keeps q j b s) :
    ∃ t, execLaunchSubmit c b_ s = .next t ∧ Keeps q j b t := by
  refine ⟨_, rfl, ?_⟩
  repeat' first
    | intro _
    | with_reducible assumption
    | with_reducible apply State.write_keeps
    | with_reducible apply onlyIf_keeps
    | dsimp only
    | (with_reducible refine keeps_mk ?_ ⟨rfl, rfl, rfl, rfl, rfl⟩ ⟨rfl, rfl⟩)

theorem execHostLeap_keeps (c : Ctx) (b_ : List Nat) (hs : Keeps q j b s) :
    ∃ t, execHostLeap c b_ s = .next t ∧ Keeps q j b t := by
  refine ⟨_, rfl, ?_⟩
  repeat' first
    | intro _
    | with_reducible assumption
    | with_reducible apply State.write_keeps
    | with_reducible apply onlyIf_keeps
    | dsimp only
    | (with_reducible refine keeps_mk ?_ ⟨rfl, rfl, rfl, rfl, rfl⟩ ⟨rfl, rfl⟩)

theorem execPondseed_keeps (c : Ctx) (v : Nat) (hs : Keeps q j b s) :
    ∃ t, execPondseed c v s = .next t ∧ Keeps q j b t := by
  refine ⟨_, rfl, ?_⟩
  repeat' first
    | intro _
    | with_reducible assumption
    | with_reducible apply State.writeKey_keeps
    | with_reducible apply onlyIf_keeps
    | dsimp only
    | (with_reducible refine keeps_mk ?_ ⟨rfl, rfl, rfl, rfl, rfl⟩ ⟨rfl, rfl⟩)

theorem execPropose_keeps (c : Ctx) (b_ : List Nat) (hs : Keeps q j b s) :
    ∃ t, execPropose c b_ s = .next t ∧ Keeps q j b t := by
  refine ⟨_, rfl, ?_⟩
  repeat' first
    | intro _
    | with_reducible assumption
    | with_reducible apply State.write_keeps
    | with_reducible apply onlyIf_keeps
    | dsimp only
    | (with_reducible refine keeps_mk ?_ ⟨rfl, rfl, rfl, rfl, rfl⟩ ⟨rfl, rfl⟩)

theorem execConfirm_keeps (c : Ctx) (b_ : List Nat) (hs : Keeps q j b s) :
    ∃ t, execConfirm c b_ s = .next t ∧ Keeps q j b t := by
  refine ⟨_, rfl, ?_⟩
  repeat' first
    | intro _
    | with_reducible assumption
    | with_reducible apply State.write_keeps
    | with_reducible apply onlyIf_keeps
    | dsimp only
    | (with_reducible refine keeps_mk ?_ ⟨rfl, rfl, rfl, rfl, rfl⟩ ⟨rfl, rfl⟩)

theorem execCancel_keeps (c : Ctx) (id : Nat) (hs : Keeps q j b s) :
    ∃ t, execCancel c id s = .next t ∧ Keeps q j b t := by
  refine ⟨_, rfl, ?_⟩
  repeat' first
    | intro _
    | with_reducible assumption
    | with_reducible apply State.writeKey_keeps
    | with_reducible apply onlyIf_keeps
    | dsimp only
    | (with_reducible refine keeps_mk ?_ ⟨rfl, rfl, rfl, rfl, rfl⟩ ⟨rfl, rfl⟩)

theorem execImageWrite_keeps (c : Ctx) (b_ : List Nat) (hs : Keeps q j b s) :
    ∃ t, execImageWrite c b_ s = .next t ∧ Keeps q j b t := by
  refine ⟨_, rfl, ?_⟩
  repeat' first
    | intro _
    | with_reducible assumption
    | with_reducible apply State.write_keeps
    | with_reducible apply onlyIf_keeps
    | dsimp only
    | (with_reducible refine keeps_mk ?_ ⟨rfl, rfl, rfl, rfl, rfl⟩ ⟨rfl, rfl⟩)

theorem execBegin_keeps (c : Ctx) (hs : Keeps q j b s) :
    ∃ t, execBegin c s = .next t ∧ Keeps q j b t := by
  refine ⟨_, rfl, ?_⟩
  repeat' first
    | intro _
    | with_reducible assumption
    | with_reducible apply State.writeKey_keeps
    | with_reducible apply onlyIf_keeps
    | dsimp only
    | (with_reducible refine keeps_mk ?_ ⟨rfl, rfl, rfl, rfl, rfl⟩ ⟨rfl, rfl⟩)

theorem execRun_keeps (c : Ctx) (hs : Keeps q j b s) :
    ∃ t, execRun c s = .next t ∧ Keeps q j b t := by
  refine ⟨_, rfl, ?_⟩
  repeat' first
    | intro _
    | with_reducible assumption
    | with_reducible apply State.writeKey_keeps
    | with_reducible apply onlyIf_keeps
    | dsimp only
    | (with_reducible refine keeps_mk ?_ ⟨rfl, rfl, rfl, rfl, rfl⟩ ⟨rfl, rfl⟩)

theorem execStoreAndRun_keeps (c : Ctx) (hs : Keeps q j b s) :
    ∃ t, execStoreAndRun c s = .next t ∧ Keeps q j b t := by
  refine ⟨_, rfl, ?_⟩
  repeat' first
    | intro _
    | with_reducible assumption
    | with_reducible apply State.writeKey_keeps
    | with_reducible apply onlyIf_keeps
    | dsimp only
    | (with_reducible refine keeps_mk ?_ ⟨rfl, rfl, rfl, rfl, rfl⟩ ⟨rfl, rfl⟩)

theorem execChannelOpen_keeps (c : Ctx) (k : Nat) (hs : Keeps q j b s) :
    ∃ t, execChannelOpen c k s = .next t ∧ Keeps q j b t := by
  refine ⟨_, rfl, ?_⟩
  repeat' first
    | intro _
    | with_reducible assumption
    | with_reducible apply State.writeKey_keeps
    | with_reducible apply onlyIf_keeps
    | dsimp only
    | (with_reducible refine keeps_mk ?_ ⟨rfl, rfl, rfl, rfl, rfl⟩ ⟨rfl, rfl⟩)

theorem execChannelClose_keeps (c : Ctx) (k : Nat) (hs : Keeps q j b s) :
    ∃ t, execChannelClose c k s = .next t ∧ Keeps q j b t := by
  refine ⟨_, rfl, ?_⟩
  repeat' first
    | intro _
    | with_reducible assumption
    | with_reducible apply State.writeKey_keeps
    | with_reducible apply onlyIf_keeps
    | dsimp only
    | (with_reducible refine keeps_mk ?_ ⟨rfl, rfl, rfl, rfl, rfl⟩ ⟨rfl, rfl⟩)

theorem execFabricScopeWrite_keeps (c : Ctx) (index : Nat) (sub : Nat) (b_ : List Nat) (hs : Keeps q j b s) :
    ∃ t, execFabricScopeWrite c index sub b_ s = .next t ∧ Keeps q j b t := by
  refine ⟨_, rfl, ?_⟩
  repeat' first
    | intro _
    | with_reducible assumption
    | with_reducible apply State.write_keeps
    | with_reducible apply onlyIf_keeps
    | with_reducible apply keeps_ite
    | split
    | dsimp only
    | (with_reducible refine keeps_mk ?_ ⟨rfl, rfl, rfl, rfl, rfl⟩ ⟨rfl, rfl⟩)

theorem execRetrain_keeps (c : Ctx) (n : Nat) (hs : Keeps q j b s) :
    ∃ t, execRetrain c n s = .next t ∧ Keeps q j b t := by
  refine ⟨_, rfl, ?_⟩
  repeat' first
    | intro _
    | with_reducible assumption
    | with_reducible apply State.writeKey_keeps
    | with_reducible apply onlyIf_keeps
    | dsimp only
    | (with_reducible refine keeps_mk ?_ ⟨rfl, rfl, rfl, rfl, rfl⟩ ⟨rfl, rfl⟩)

theorem execRelease_keeps (c : Ctx) (n : Nat) (hs : Keeps q j b s) :
    ∃ t, execRelease c n s = .next t ∧ Keeps q j b t := by
  refine ⟨_, rfl, ?_⟩
  repeat' first
    | intro _
    | with_reducible assumption
    | with_reducible apply State.writeKey_keeps
    | with_reducible apply onlyIf_keeps
    | dsimp only
    | (with_reducible refine keeps_mk ?_ ⟨rfl, rfl, rfl, rfl, rfl⟩ ⟨rfl, rfl⟩)

theorem execCalRequest_keeps (c : Ctx) (v : Nat) (hs : Keeps q j b s) :
    ∃ t, execCalRequest c v s = .next t ∧ Keeps q j b t := by
  refine ⟨_, rfl, ?_⟩
  repeat' first
    | intro _
    | with_reducible assumption
    | with_reducible apply State.writeKey_keeps
    | with_reducible apply onlyIf_keeps
    | dsimp only
    | (with_reducible refine keeps_mk ?_ ⟨rfl, rfl, rfl, rfl, rfl⟩ ⟨rfl, rfl⟩)

theorem execFieldOn_keeps (c : Ctx) (b_ : List Nat) (hs : Keeps q j b s) :
    ∃ t, execFieldOn c b_ s = .next t ∧ Keeps q j b t := by
  refine ⟨_, rfl, ?_⟩
  repeat' first
    | intro _
    | with_reducible assumption
    | with_reducible apply State.write_keeps
    | with_reducible apply onlyIf_keeps
    | dsimp only
    | (with_reducible refine keeps_mk ?_ ⟨rfl, rfl, rfl, rfl, rfl⟩ ⟨rfl, rfl⟩)

theorem execFieldOff_keeps (c : Ctx) (b_ : List Nat) (hs : Keeps q j b s) :
    ∃ t, execFieldOff c b_ s = .next t ∧ Keeps q j b t := by
  refine ⟨_, rfl, ?_⟩
  repeat' first
    | intro _
    | with_reducible assumption
    | with_reducible apply State.write_keeps
    | with_reducible apply onlyIf_keeps
    | dsimp only
    | (with_reducible refine keeps_mk ?_ ⟨rfl, rfl, rfl, rfl, rfl⟩ ⟨rfl, rfl⟩)

theorem execTransceive_keeps (c : Ctx) (b_ : List Nat) (hs : Keeps q j b s) :
    ∃ t, execTransceive c b_ s = .next t ∧ Keeps q j b t := by
  refine ⟨_, rfl, ?_⟩
  repeat' first
    | intro _
    | with_reducible assumption
    | with_reducible apply State.write_keeps
    | with_reducible apply onlyIf_keeps
    | dsimp only
    | (with_reducible refine keeps_mk ?_ ⟨rfl, rfl, rfl, rfl, rfl⟩ ⟨rfl, rfl⟩)

theorem execInventory_keeps (c : Ctx) (b_ : List Nat) (hs : Keeps q j b s) :
    ∃ t, execInventory c b_ s = .next t ∧ Keeps q j b t := by
  refine ⟨_, rfl, ?_⟩
  repeat' first
    | intro _
    | with_reducible assumption
    | with_reducible apply State.write_keeps
    | with_reducible apply onlyIf_keeps
    | dsimp only
    | (with_reducible refine keeps_mk ?_ ⟨rfl, rfl, rfl, rfl, rfl⟩ ⟨rfl, rfl⟩)

theorem execCalibrate_keeps (c : Ctx) (hs : Keeps q j b s) :
    ∃ t, execCalibrate c s = .next t ∧ Keeps q j b t := by
  refine ⟨_, rfl, ?_⟩
  repeat' first
    | intro _
    | with_reducible assumption
    | with_reducible apply State.writeKey_keeps
    | with_reducible apply onlyIf_keeps
    | dsimp only
    | (with_reducible refine keeps_mk ?_ ⟨rfl, rfl, rfl, rfl, rfl⟩ ⟨rfl, rfl⟩)

theorem execScanCommand_keeps (c : Ctx) (v : Nat) (hs : Keeps q j b s) :
    ∃ t, execScanCommand c v s = .next t ∧ Keeps q j b t := by
  refine ⟨_, rfl, ?_⟩
  repeat' first
    | intro _
    | with_reducible assumption
    | with_reducible apply State.writeKey_keeps
    | with_reducible apply onlyIf_keeps
    | dsimp only
    | (with_reducible refine keeps_mk ?_ ⟨rfl, rfl, rfl, rfl, rfl⟩ ⟨rfl, rfl⟩)

theorem execStart_keeps (c : Ctx) (n : Nat) (hs : Keeps q j b s) :
    ∃ t, execStart c n s = .next t ∧ Keeps q j b t := by
  refine ⟨_, rfl, ?_⟩
  repeat' first
    | intro _
    | with_reducible assumption
    | with_reducible apply State.writeKey_keeps
    | with_reducible apply onlyIf_keeps
    | dsimp only
    | (with_reducible refine keeps_mk ?_ ⟨rfl, rfl, rfl, rfl, rfl⟩ ⟨rfl, rfl⟩)

theorem execStartLateOk_keeps (c : Ctx) (n : Nat) (hs : Keeps q j b s) :
    ∃ t, execStartLateOk c n s = .next t ∧ Keeps q j b t := by
  refine ⟨_, rfl, ?_⟩
  repeat' first
    | intro _
    | with_reducible assumption
    | with_reducible apply State.writeKey_keeps
    | with_reducible apply onlyIf_keeps
    | dsimp only
    | (with_reducible refine keeps_mk ?_ ⟨rfl, rfl, rfl, rfl, rfl⟩ ⟨rfl, rfl⟩)

theorem execStop_keeps (c : Ctx) (n : Nat) (hs : Keeps q j b s) :
    ∃ t, execStop c n s = .next t ∧ Keeps q j b t := by
  refine ⟨_, rfl, ?_⟩
  repeat' first
    | intro _
    | with_reducible assumption
    | with_reducible apply State.writeKey_keeps
    | with_reducible apply onlyIf_keeps
    | dsimp only
    | (with_reducible refine keeps_mk ?_ ⟨rfl, rfl, rfl, rfl, rfl⟩ ⟨rfl, rfl⟩)

theorem execGroupStart_keeps (c : Ctx) (mask : Nat) (hs : Keeps q j b s) :
    ∃ t, execGroupStart c mask s = .next t ∧ Keeps q j b t := by
  refine ⟨_, rfl, ?_⟩
  repeat' first
    | intro _
    | with_reducible assumption
    | with_reducible apply State.writeKey_keeps
    | with_reducible apply onlyIf_keeps
    | dsimp only
    | (with_reducible refine keeps_mk ?_ ⟨rfl, rfl, rfl, rfl, rfl⟩ ⟨rfl, rfl⟩)

theorem execCaptureRead_keeps (c : Ctx) (i : Nat) (hs : Keeps q j b s) :
    ∃ t, execCaptureRead c i s = .next t ∧ Keeps q j b t := by
  refine ⟨_, rfl, ?_⟩
  repeat' first
    | intro _
    | with_reducible assumption
    | with_reducible apply State.request_keeps
    | with_reducible apply onlyIf_keeps
    | dsimp only
    | (with_reducible refine keeps_mk ?_ ⟨rfl, rfl, rfl, rfl, rfl⟩ ⟨rfl, rfl⟩)

theorem execSiltRecordRead_keeps (c : Ctx) (r : Nat) (hs : Keeps q j b s) :
    ∃ t, execSiltRecordRead c r s = .next t ∧ Keeps q j b t := by
  refine ⟨_, rfl, ?_⟩
  repeat' first
    | intro _
    | with_reducible assumption
    | with_reducible apply State.request_keeps
    | with_reducible apply onlyIf_keeps
    | dsimp only
    | (with_reducible refine keeps_mk ?_ ⟨rfl, rfl, rfl, rfl, rfl⟩ ⟨rfl, rfl⟩)

theorem execPowerModeNone_keeps (c : Ctx) (hs : Keeps q j b s) :
    ∃ t, execPowerModeNone c s = .next t ∧ Keeps q j b t := by
  refine ⟨_, rfl, ?_⟩
  repeat' first
    | intro _
    | with_reducible assumption
    | with_reducible apply State.writeKey_keeps
    | with_reducible apply onlyIf_keeps
    | dsimp only
    | (with_reducible refine keeps_mk ?_ ⟨rfl, rfl, rfl, rfl, rfl⟩ ⟨rfl, rfl⟩)

theorem execPowerModeSleep_keeps (c : Ctx) (hs : Keeps q j b s) :
    ∃ t, execPowerModeSleep c s = .next t ∧ Keeps q j b t := by
  refine ⟨_, rfl, ?_⟩
  repeat' first
    | intro _
    | with_reducible assumption
    | with_reducible apply State.writeKey_keeps
    | with_reducible apply onlyIf_keeps
    | dsimp only
    | (with_reducible refine keeps_mk ?_ ⟨rfl, rfl, rfl, rfl, rfl⟩ ⟨rfl, rfl⟩)

theorem execPowerModeDeep_keeps (c : Ctx) (hs : Keeps q j b s) :
    ∃ t, execPowerModeDeep c s = .next t ∧ Keeps q j b t := by
  refine ⟨_, rfl, ?_⟩
  repeat' first
    | intro _
    | with_reducible assumption
    | with_reducible apply State.writeKey_keeps
    | with_reducible apply onlyIf_keeps
    | dsimp only
    | (with_reducible refine keeps_mk ?_ ⟨rfl, rfl, rfl, rfl, rfl⟩ ⟨rfl, rfl⟩)

theorem execPowerModeOff_keeps (c : Ctx) (hs : Keeps q j b s) :
    ∃ t, execPowerModeOff c s = .next t ∧ Keeps q j b t := by
  refine ⟨_, rfl, ?_⟩
  repeat' first
    | intro _
    | with_reducible assumption
    | with_reducible apply State.writeKey_keeps
    | with_reducible apply onlyIf_keeps
    | dsimp only
    | (with_reducible refine keeps_mk ?_ ⟨rfl, rfl, rfl, rfl, rfl⟩ ⟨rfl, rfl⟩)

theorem execPowerModeOasis_keeps (c : Ctx) (hs : Keeps q j b s) :
    ∃ t, execPowerModeOasis c s = .next t ∧ Keeps q j b t := by
  refine ⟨_, rfl, ?_⟩
  repeat' first
    | intro _
    | with_reducible assumption
    | with_reducible apply State.writeKey_keeps
    | with_reducible apply onlyIf_keeps
    | dsimp only
    | (with_reducible refine keeps_mk ?_ ⟨rfl, rfl, rfl, rfl, rfl⟩ ⟨rfl, rfl⟩)

theorem execWarm_keeps (c : Ctx) (hs : Keeps q j b s) :
    ∃ t, execWarm c s = .next t ∧ Keeps q j b t := by
  refine ⟨_, rfl, ?_⟩
  repeat' first
    | intro _
    | with_reducible assumption
    | with_reducible apply State.writeKey_keeps
    | with_reducible apply onlyIf_keeps
    | dsimp only
    | (with_reducible refine keeps_mk ?_ ⟨rfl, rfl, rfl, rfl, rfl⟩ ⟨rfl, rfl⟩)

theorem execCold_keeps (c : Ctx) (hs : Keeps q j b s) :
    ∃ t, execCold c s = .next t ∧ Keeps q j b t := by
  refine ⟨_, rfl, ?_⟩
  repeat' first
    | intro _
    | with_reducible assumption
    | with_reducible apply State.writeKey_keeps
    | with_reducible apply onlyIf_keeps
    | dsimp only
    | (with_reducible refine keeps_mk ?_ ⟨rfl, rfl, rfl, rfl, rfl⟩ ⟨rfl, rfl⟩)

theorem execUpdate_keeps (c : Ctx) (hs : Keeps q j b s) :
    ∃ t, execUpdate c s = .next t ∧ Keeps q j b t := by
  refine ⟨_, rfl, ?_⟩
  repeat' first
    | intro _
    | with_reducible assumption
    | with_reducible apply State.writeKey_keeps
    | with_reducible apply onlyIf_keeps
    | dsimp only
    | (with_reducible refine keeps_mk ?_ ⟨rfl, rfl, rfl, rfl, rfl⟩ ⟨rfl, rfl⟩)

theorem execCommission_keeps (c : Ctx) (hs : Keeps q j b s) :
    ∃ t, execCommission c s = .next t ∧ Keeps q j b t := by
  refine ⟨_, rfl, ?_⟩
  repeat' first
    | intro _
    | with_reducible assumption
    | with_reducible apply State.writeKey_keeps
    | with_reducible apply onlyIf_keeps
    | dsimp only
    | (with_reducible refine keeps_mk ?_ ⟨rfl, rfl, rfl, rfl, rfl⟩ ⟨rfl, rfl⟩)

theorem execOperate_keeps (c : Ctx) (hs : Keeps q j b s) :
    ∃ t, execOperate c s = .next t ∧ Keeps q j b t := by
  refine ⟨_, rfl, ?_⟩
  repeat' first
    | intro _
    | with_reducible assumption
    | with_reducible apply State.writeKey_keeps
    | with_reducible apply onlyIf_keeps
    | dsimp only
    | (with_reducible refine keeps_mk ?_ ⟨rfl, rfl, rfl, rfl, rfl⟩ ⟨rfl, rfl⟩)

theorem execTwoPartyExpired_keeps (aon : Nat) (hs : Keeps q j b s) :
    ∃ t, execTwoPartyExpired aon s = .next t ∧ Keeps q j b t := by
  refine ⟨_, rfl, ?_⟩
  repeat' first
    | intro _
    | with_reducible assumption
    | with_reducible apply State.changesExpire_keeps
    | with_reducible apply State.reachAon_keeps
    | with_reducible apply onlyIf_keeps
    | dsimp only
    | (with_reducible refine keeps_mk ?_ ⟨rfl, rfl, rfl, rfl, rfl⟩ ⟨rfl, rfl⟩)

theorem execCardPoll_keeps (present : Bool) (select : List Nat) (answer : List Nat) (challenge : List Nat) (last : JobEnd) (us : Nat) (at_ : Nat) (hs : Keeps q j b s) :
    ∃ t, execCardPoll present select answer challenge last us at_ s = .next t ∧ Keeps q j b t := by
  refine ⟨_, rfl, ?_⟩
  repeat' first
    | intro _
    | with_reducible assumption
    | with_reducible apply State.cardPoll_keeps
    | with_reducible apply State.settle_keeps
    | with_reducible apply State.reach_keeps
    | with_reducible apply onlyIf_keeps
    | dsimp only
    | (with_reducible refine keeps_mk ?_ ⟨rfl, rfl, rfl, rfl, rfl⟩ ⟨rfl, rfl⟩)

theorem execNop_keeps (i : Issue) (hs : Keeps q j b s) :
    ∃ t, execNop i s = .next t ∧ Keeps q j b t := by
  refine ⟨_, rfl, ?_⟩
  repeat' first
    | intro _
    | with_reducible assumption
    | with_reducible apply State.vuvan_keeps
    | with_reducible apply State.issue_keeps
    | with_reducible apply onlyIf_keeps
    | dsimp only
    | (with_reducible refine keeps_mk ?_ ⟨rfl, rfl, rfl, rfl, rfl⟩ ⟨rfl, rfl⟩)

theorem execWait_keeps (i : Issue) (hs : Keeps q j b s) :
    ∃ t, execWait i s = .next t ∧ Keeps q j b t := by
  refine ⟨_, rfl, ?_⟩
  repeat' first
    | intro _
    | with_reducible assumption
    | with_reducible apply State.vuvan_keeps
    | with_reducible apply State.issue_keeps
    | with_reducible apply onlyIf_keeps
    | dsimp only
    | (with_reducible refine keeps_mk ?_ ⟨rfl, rfl, rfl, rfl, rfl⟩ ⟨rfl, rfl⟩)

theorem execRts_keeps (i : Issue) (hs : Keeps q j b s) :
    ∃ t, execRts i s = .next t ∧ Keeps q j b t := by
  refine ⟨_, rfl, ?_⟩
  repeat' first
    | intro _
    | with_reducible assumption
    | with_reducible apply State.vuvan_keeps
    | with_reducible apply State.issue_keeps
    | with_reducible apply onlyIf_keeps
    | dsimp only
    | (with_reducible refine keeps_mk ?_ ⟨rfl, rfl, rfl, rfl, rfl⟩ ⟨rfl, rfl⟩)

theorem execRti_keeps (i : Issue) (hs : Keeps q j b s) :
    ∃ t, execRti i s = .next t ∧ Keeps q j b t := by
  refine ⟨_, rfl, ?_⟩
  repeat' first
    | intro _
    | with_reducible assumption
    | with_reducible apply State.vuvan_keeps
    | with_reducible apply State.issue_keeps
    | with_reducible apply onlyIf_keeps
    | dsimp only
    | (with_reducible refine keeps_mk ?_ ⟨rfl, rfl, rfl, rfl, rfl⟩ ⟨rfl, rfl⟩)

theorem execEi_keeps (i : Issue) (hs : Keeps q j b s) :
    ∃ t, execEi i s = .next t ∧ Keeps q j b t := by
  refine ⟨_, rfl, ?_⟩
  repeat' first
    | intro _
    | with_reducible assumption
    | with_reducible apply State.vuvan_keeps
    | with_reducible apply State.issue_keeps
    | with_reducible apply onlyIf_keeps
    | dsimp only
    | (with_reducible refine keeps_mk ?_ ⟨rfl, rfl, rfl, rfl, rfl⟩ ⟨rfl, rfl⟩)

theorem execDi_keeps (i : Issue) (hs : Keeps q j b s) :
    ∃ t, execDi i s = .next t ∧ Keeps q j b t := by
  refine ⟨_, rfl, ?_⟩
  repeat' first
    | intro _
    | with_reducible assumption
    | with_reducible apply State.vuvan_keeps
    | with_reducible apply State.issue_keeps
    | with_reducible apply onlyIf_keeps
    | dsimp only
    | (with_reducible refine keeps_mk ?_ ⟨rfl, rfl, rfl, rfl, rfl⟩ ⟨rfl, rfl⟩)

theorem execMov_keeps (i : Issue) (hs : Keeps q j b s) :
    ∃ t, execMov i s = .next t ∧ Keeps q j b t := by
  refine ⟨_, rfl, ?_⟩
  repeat' first
    | intro _
    | with_reducible assumption
    | with_reducible apply State.vuvan_keeps
    | with_reducible apply State.issue_keeps
    | with_reducible apply onlyIf_keeps
    | dsimp only
    | (with_reducible refine keeps_mk ?_ ⟨rfl, rfl, rfl, rfl, rfl⟩ ⟨rfl, rfl⟩)

theorem execLd_keeps (i : Issue) (hs : Keeps q j b s) :
    ∃ t, execLd i s = .next t ∧ Keeps q j b t := by
  refine ⟨_, rfl, ?_⟩
  repeat' first
    | intro _
    | with_reducible assumption
    | with_reducible apply State.vuvan_keeps
    | with_reducible apply State.issue_keeps
    | with_reducible apply onlyIf_keeps
    | dsimp only
    | (with_reducible refine keeps_mk ?_ ⟨rfl, rfl, rfl, rfl, rfl⟩ ⟨rfl, rfl⟩)

theorem execSt_keeps (i : Issue) (hs : Keeps q j b s) :
    ∃ t, execSt i s = .next t ∧ Keeps q j b t := by
  refine ⟨_, rfl, ?_⟩
  repeat' first
    | intro _
    | with_reducible assumption
    | with_reducible apply State.vuvan_keeps
    | with_reducible apply State.issue_keeps
    | with_reducible apply onlyIf_keeps
    | dsimp only
    | (with_reducible refine keeps_mk ?_ ⟨rfl, rfl, rfl, rfl, rfl⟩ ⟨rfl, rfl⟩)

theorem execLdi_keeps (i : Issue) (hs : Keeps q j b s) :
    ∃ t, execLdi i s = .next t ∧ Keeps q j b t := by
  refine ⟨_, rfl, ?_⟩
  repeat' first
    | intro _
    | with_reducible assumption
    | with_reducible apply State.vuvan_keeps
    | with_reducible apply State.issue_keeps
    | with_reducible apply onlyIf_keeps
    | dsimp only
    | (with_reducible refine keeps_mk ?_ ⟨rfl, rfl, rfl, rfl, rfl⟩ ⟨rfl, rfl⟩)

theorem execLdis_keeps (i : Issue) (hs : Keeps q j b s) :
    ∃ t, execLdis i s = .next t ∧ Keeps q j b t := by
  refine ⟨_, rfl, ?_⟩
  repeat' first
    | intro _
    | with_reducible assumption
    | with_reducible apply State.vuvan_keeps
    | with_reducible apply State.issue_keeps
    | with_reducible apply onlyIf_keeps
    | dsimp only
    | (with_reducible refine keeps_mk ?_ ⟨rfl, rfl, rfl, rfl, rfl⟩ ⟨rfl, rfl⟩)

theorem execLea_keeps (i : Issue) (hs : Keeps q j b s) :
    ∃ t, execLea i s = .next t ∧ Keeps q j b t := by
  refine ⟨_, rfl, ?_⟩
  repeat' first
    | intro _
    | with_reducible assumption
    | with_reducible apply State.vuvan_keeps
    | with_reducible apply State.issue_keeps
    | with_reducible apply onlyIf_keeps
    | dsimp only
    | (with_reducible refine keeps_mk ?_ ⟨rfl, rfl, rfl, rfl, rfl⟩ ⟨rfl, rfl⟩)

theorem execMaxm_keeps (i : Issue) (hs : Keeps q j b s) :
    ∃ t, execMaxm i s = .next t ∧ Keeps q j b t := by
  refine ⟨_, rfl, ?_⟩
  repeat' first
    | intro _
    | with_reducible assumption
    | with_reducible apply State.vuvan_keeps
    | with_reducible apply State.issue_keeps
    | with_reducible apply onlyIf_keeps
    | dsimp only
    | (with_reducible refine keeps_mk ?_ ⟨rfl, rfl, rfl, rfl, rfl⟩ ⟨rfl, rfl⟩)

theorem execMinm_keeps (i : Issue) (hs : Keeps q j b s) :
    ∃ t, execMinm i s = .next t ∧ Keeps q j b t := by
  refine ⟨_, rfl, ?_⟩
  repeat' first
    | intro _
    | with_reducible assumption
    | with_reducible apply State.vuvan_keeps
    | with_reducible apply State.issue_keeps
    | with_reducible apply onlyIf_keeps
    | dsimp only
    | (with_reducible refine keeps_mk ?_ ⟨rfl, rfl, rfl, rfl, rfl⟩ ⟨rfl, rfl⟩)

theorem execMaxam_keeps (i : Issue) (hs : Keeps q j b s) :
    ∃ t, execMaxam i s = .next t ∧ Keeps q j b t := by
  refine ⟨_, rfl, ?_⟩
  repeat' first
    | intro _
    | with_reducible assumption
    | with_reducible apply State.vuvan_keeps
    | with_reducible apply State.issue_keeps
    | with_reducible apply onlyIf_keeps
    | dsimp only
    | (with_reducible refine keeps_mk ?_ ⟨rfl, rfl, rfl, rfl, rfl⟩ ⟨rfl, rfl⟩)

theorem execB_keeps (i : Issue) (hs : Keeps q j b s) :
    ∃ t, execB i s = .next t ∧ Keeps q j b t := by
  refine ⟨_, rfl, ?_⟩
  repeat' first
    | intro _
    | with_reducible assumption
    | with_reducible apply State.vuvan_keeps
    | with_reducible apply State.issue_keeps
    | with_reducible apply onlyIf_keeps
    | dsimp only
    | (with_reducible refine keeps_mk ?_ ⟨rfl, rfl, rfl, rfl, rfl⟩ ⟨rfl, rfl⟩)

theorem execJmp_keeps (i : Issue) (hs : Keeps q j b s) :
    ∃ t, execJmp i s = .next t ∧ Keeps q j b t := by
  refine ⟨_, rfl, ?_⟩
  repeat' first
    | intro _
    | with_reducible assumption
    | with_reducible apply State.vuvan_keeps
    | with_reducible apply State.issue_keeps
    | with_reducible apply onlyIf_keeps
    | dsimp only
    | (with_reducible refine keeps_mk ?_ ⟨rfl, rfl, rfl, rfl, rfl⟩ ⟨rfl, rfl⟩)

theorem execCall_keeps (i : Issue) (hs : Keeps q j b s) :
    ∃ t, execCall i s = .next t ∧ Keeps q j b t := by
  refine ⟨_, rfl, ?_⟩
  repeat' first
    | intro _
    | with_reducible assumption
    | with_reducible apply State.vuvan_keeps
    | with_reducible apply State.issue_keeps
    | with_reducible apply onlyIf_keeps
    | dsimp only
    | (with_reducible refine keeps_mk ?_ ⟨rfl, rfl, rfl, rfl, rfl⟩ ⟨rfl, rfl⟩)

theorem execJmpr_keeps (i : Issue) (hs : Keeps q j b s) :
    ∃ t, execJmpr i s = .next t ∧ Keeps q j b t := by
  refine ⟨_, rfl, ?_⟩
  repeat' first
    | intro _
    | with_reducible assumption
    | with_reducible apply State.vuvan_keeps
    | with_reducible apply State.issue_keeps
    | with_reducible apply onlyIf_keeps
    | dsimp only
    | (with_reducible refine keeps_mk ?_ ⟨rfl, rfl, rfl, rfl, rfl⟩ ⟨rfl, rfl⟩)

theorem execCallr_keeps (i : Issue) (hs : Keeps q j b s) :
    ∃ t, execCallr i s = .next t ∧ Keeps q j b t := by
  refine ⟨_, rfl, ?_⟩
  repeat' first
    | intro _
    | with_reducible assumption
    | with_reducible apply State.vuvan_keeps
    | with_reducible apply State.issue_keeps
    | with_reducible apply onlyIf_keeps
    | dsimp only
    | (with_reducible refine keeps_mk ?_ ⟨rfl, rfl, rfl, rfl, rfl⟩ ⟨rfl, rfl⟩)

theorem execLoop_keeps (i : Issue) (hs : Keeps q j b s) :
    ∃ t, execLoop i s = .next t ∧ Keeps q j b t := by
  refine ⟨_, rfl, ?_⟩
  repeat' first
    | intro _
    | with_reducible assumption
    | with_reducible apply State.vuvan_keeps
    | with_reducible apply State.issue_keeps
    | with_reducible apply onlyIf_keeps
    | dsimp only
    | (with_reducible refine keeps_mk ?_ ⟨rfl, rfl, rfl, rfl, rfl⟩ ⟨rfl, rfl⟩)

theorem execLoopr_keeps (i : Issue) (hs : Keeps q j b s) :
    ∃ t, execLoopr i s = .next t ∧ Keeps q j b t := by
  refine ⟨_, rfl, ?_⟩
  repeat' first
    | intro _
    | with_reducible assumption
    | with_reducible apply State.vuvan_keeps
    | with_reducible apply State.issue_keeps
    | with_reducible apply onlyIf_keeps
    | dsimp only
    | (with_reducible refine keeps_mk ?_ ⟨rfl, rfl, rfl, rfl, rfl⟩ ⟨rfl, rfl⟩)

theorem execPush_keeps (i : Issue) (hs : Keeps q j b s) :
    ∃ t, execPush i s = .next t ∧ Keeps q j b t := by
  refine ⟨_, rfl, ?_⟩
  repeat' first
    | intro _
    | with_reducible assumption
    | with_reducible apply State.vuvan_keeps
    | with_reducible apply State.issue_keeps
    | with_reducible apply State.push_keeps
    | with_reducible apply onlyIf_keeps
    | dsimp only
    | (with_reducible refine keeps_mk ?_ ⟨rfl, rfl, rfl, rfl, rfl⟩ ⟨rfl, rfl⟩)

theorem execPop_keeps (i : Issue) (hs : Keeps q j b s) :
    ∃ t, execPop i s = .next t ∧ Keeps q j b t := by
  refine ⟨_, rfl, ?_⟩
  repeat' first
    | intro _
    | with_reducible assumption
    | with_reducible apply State.vuvan_keeps
    | with_reducible apply State.issue_keeps
    | with_reducible apply State.pop_keeps
    | with_reducible apply onlyIf_keeps
    | dsimp only
    | (with_reducible refine keeps_mk ?_ ⟨rfl, rfl, rfl, rfl, rfl⟩ ⟨rfl, rfl⟩)

theorem execFld_keeps (i : Issue) (hs : Keeps q j b s) :
    ∃ t, execFld i s = .next t ∧ Keeps q j b t := by
  refine ⟨_, rfl, ?_⟩
  repeat' first
    | intro _
    | with_reducible assumption
    | with_reducible apply State.vuvan_keeps
    | with_reducible apply State.issue_keeps
    | with_reducible apply onlyIf_keeps
    | dsimp only
    | (with_reducible refine keeps_mk ?_ ⟨rfl, rfl, rfl, rfl, rfl⟩ ⟨rfl, rfl⟩)

theorem execFst_keeps (i : Issue) (hs : Keeps q j b s) :
    ∃ t, execFst i s = .next t ∧ Keeps q j b t := by
  refine ⟨_, rfl, ?_⟩
  repeat' first
    | intro _
    | with_reducible assumption
    | with_reducible apply State.vuvan_keeps
    | with_reducible apply State.issue_keeps
    | with_reducible apply onlyIf_keeps
    | dsimp only
    | (with_reducible refine keeps_mk ?_ ⟨rfl, rfl, rfl, rfl, rfl⟩ ⟨rfl, rfl⟩)

theorem execAdd_keeps (i : Issue) (hs : Keeps q j b s) :
    ∃ t, execAdd i s = .next t ∧ Keeps q j b t := by
  refine ⟨_, rfl, ?_⟩
  repeat' first
    | intro _
    | with_reducible assumption
    | with_reducible apply State.vuvan_keeps
    | with_reducible apply State.issue_keeps
    | with_reducible apply onlyIf_keeps
    | dsimp only
    | (with_reducible refine keeps_mk ?_ ⟨rfl, rfl, rfl, rfl, rfl⟩ ⟨rfl, rfl⟩)

theorem execAdc_keeps (i : Issue) (hs : Keeps q j b s) :
    ∃ t, execAdc i s = .next t ∧ Keeps q j b t := by
  refine ⟨_, rfl, ?_⟩
  repeat' first
    | intro _
    | with_reducible assumption
    | with_reducible apply State.vuvan_keeps
    | with_reducible apply State.issue_keeps
    | with_reducible apply onlyIf_keeps
    | dsimp only
    | (with_reducible refine keeps_mk ?_ ⟨rfl, rfl, rfl, rfl, rfl⟩ ⟨rfl, rfl⟩)

theorem execSub_keeps (i : Issue) (hs : Keeps q j b s) :
    ∃ t, execSub i s = .next t ∧ Keeps q j b t := by
  refine ⟨_, rfl, ?_⟩
  repeat' first
    | intro _
    | with_reducible assumption
    | with_reducible apply State.vuvan_keeps
    | with_reducible apply State.issue_keeps
    | with_reducible apply onlyIf_keeps
    | dsimp only
    | (with_reducible refine keeps_mk ?_ ⟨rfl, rfl, rfl, rfl, rfl⟩ ⟨rfl, rfl⟩)

theorem execSbc_keeps (i : Issue) (hs : Keeps q j b s) :
    ∃ t, execSbc i s = .next t ∧ Keeps q j b t := by
  refine ⟨_, rfl, ?_⟩
  repeat' first
    | intro _
    | with_reducible assumption
    | with_reducible apply State.vuvan_keeps
    | with_reducible apply State.issue_keeps
    | with_reducible apply onlyIf_keeps
    | dsimp only
    | (with_reducible refine keeps_mk ?_ ⟨rfl, rfl, rfl, rfl, rfl⟩ ⟨rfl, rfl⟩)

theorem execCmp_keeps (i : Issue) (hs : Keeps q j b s) :
    ∃ t, execCmp i s = .next t ∧ Keeps q j b t := by
  refine ⟨_, rfl, ?_⟩
  repeat' first
    | intro _
    | with_reducible assumption
    | with_reducible apply State.vuvan_keeps
    | with_reducible apply State.issue_keeps
    | with_reducible apply onlyIf_keeps
    | dsimp only
    | (with_reducible refine keeps_mk ?_ ⟨rfl, rfl, rfl, rfl, rfl⟩ ⟨rfl, rfl⟩)

theorem execNeg_keeps (i : Issue) (hs : Keeps q j b s) :
    ∃ t, execNeg i s = .next t ∧ Keeps q j b t := by
  refine ⟨_, rfl, ?_⟩
  repeat' first
    | intro _
    | with_reducible assumption
    | with_reducible apply State.vuvan_keeps
    | with_reducible apply State.issue_keeps
    | with_reducible apply onlyIf_keeps
    | dsimp only
    | (with_reducible refine keeps_mk ?_ ⟨rfl, rfl, rfl, rfl, rfl⟩ ⟨rfl, rfl⟩)

theorem execAbs_keeps (i : Issue) (hs : Keeps q j b s) :
    ∃ t, execAbs i s = .next t ∧ Keeps q j b t := by
  refine ⟨_, rfl, ?_⟩
  repeat' first
    | intro _
    | with_reducible assumption
    | with_reducible apply State.vuvan_keeps
    | with_reducible apply State.issue_keeps
    | with_reducible apply onlyIf_keeps
    | dsimp only
    | (with_reducible refine keeps_mk ?_ ⟨rfl, rfl, rfl, rfl, rfl⟩ ⟨rfl, rfl⟩)

theorem execAnd_keeps (i : Issue) (hs : Keeps q j b s) :
    ∃ t, execAnd i s = .next t ∧ Keeps q j b t := by
  refine ⟨_, rfl, ?_⟩
  repeat' first
    | intro _
    | with_reducible assumption
    | with_reducible apply State.vuvan_keeps
    | with_reducible apply State.issue_keeps
    | with_reducible apply onlyIf_keeps
    | dsimp only
    | (with_reducible refine keeps_mk ?_ ⟨rfl, rfl, rfl, rfl, rfl⟩ ⟨rfl, rfl⟩)

theorem execOr_keeps (i : Issue) (hs : Keeps q j b s) :
    ∃ t, execOr i s = .next t ∧ Keeps q j b t := by
  refine ⟨_, rfl, ?_⟩
  repeat' first
    | intro _
    | with_reducible assumption
    | with_reducible apply State.vuvan_keeps
    | with_reducible apply State.issue_keeps
    | with_reducible apply onlyIf_keeps
    | dsimp only
    | (with_reducible refine keeps_mk ?_ ⟨rfl, rfl, rfl, rfl, rfl⟩ ⟨rfl, rfl⟩)

theorem execXor_keeps (i : Issue) (hs : Keeps q j b s) :
    ∃ t, execXor i s = .next t ∧ Keeps q j b t := by
  refine ⟨_, rfl, ?_⟩
  repeat' first
    | intro _
    | with_reducible assumption
    | with_reducible apply State.vuvan_keeps
    | with_reducible apply State.issue_keeps
    | with_reducible apply onlyIf_keeps
    | dsimp only
    | (with_reducible refine keeps_mk ?_ ⟨rfl, rfl, rfl, rfl, rfl⟩ ⟨rfl, rfl⟩)

theorem execAndn_keeps (i : Issue) (hs : Keeps q j b s) :
    ∃ t, execAndn i s = .next t ∧ Keeps q j b t := by
  refine ⟨_, rfl, ?_⟩
  repeat' first
    | intro _
    | with_reducible assumption
    | with_reducible apply State.vuvan_keeps
    | with_reducible apply State.issue_keeps
    | with_reducible apply onlyIf_keeps
    | dsimp only
    | (with_reducible refine keeps_mk ?_ ⟨rfl, rfl, rfl, rfl, rfl⟩ ⟨rfl, rfl⟩)

theorem execNot_keeps (i : Issue) (hs : Keeps q j b s) :
    ∃ t, execNot i s = .next t ∧ Keeps q j b t := by
  refine ⟨_, rfl, ?_⟩
  repeat' first
    | intro _
    | with_reducible assumption
    | with_reducible apply State.vuvan_keeps
    | with_reducible apply State.issue_keeps
    | with_reducible apply onlyIf_keeps
    | dsimp only
    | (with_reducible refine keeps_mk ?_ ⟨rfl, rfl, rfl, rfl, rfl⟩ ⟨rfl, rfl⟩)

theorem execTst_keeps (i : Issue) (hs : Keeps q j b s) :
    ∃ t, execTst i s = .next t ∧ Keeps q j b t := by
  refine ⟨_, rfl, ?_⟩
  repeat' first
    | intro _
    | with_reducible assumption
    | with_reducible apply State.vuvan_keeps
    | with_reducible apply State.issue_keeps
    | with_reducible apply onlyIf_keeps
    | dsimp only
    | (with_reducible refine keeps_mk ?_ ⟨rfl, rfl, rfl, rfl, rfl⟩ ⟨rfl, rfl⟩)

theorem execAsl_keeps (i : Issue) (hs : Keeps q j b s) :
    ∃ t, execAsl i s = .next t ∧ Keeps q j b t := by
  refine ⟨_, rfl, ?_⟩
  repeat' first
    | intro _
    | with_reducible assumption
    | with_reducible apply State.vuvan_keeps
    | with_reducible apply State.issue_keeps
    | with_reducible apply onlyIf_keeps
    | dsimp only
    | (with_reducible refine keeps_mk ?_ ⟨rfl, rfl, rfl, rfl, rfl⟩ ⟨rfl, rfl⟩)

theorem execAsr_keeps (i : Issue) (hs : Keeps q j b s) :
    ∃ t, execAsr i s = .next t ∧ Keeps q j b t := by
  refine ⟨_, rfl, ?_⟩
  repeat' first
    | intro _
    | with_reducible assumption
    | with_reducible apply State.vuvan_keeps
    | with_reducible apply State.issue_keeps
    | with_reducible apply onlyIf_keeps
    | dsimp only
    | (with_reducible refine keeps_mk ?_ ⟨rfl, rfl, rfl, rfl, rfl⟩ ⟨rfl, rfl⟩)

theorem execLsl_keeps (i : Issue) (hs : Keeps q j b s) :
    ∃ t, execLsl i s = .next t ∧ Keeps q j b t := by
  refine ⟨_, rfl, ?_⟩
  repeat' first
    | intro _
    | with_reducible assumption
    | with_reducible apply State.vuvan_keeps
    | with_reducible apply State.issue_keeps
    | with_reducible apply onlyIf_keeps
    | dsimp only
    | (with_reducible refine keeps_mk ?_ ⟨rfl, rfl, rfl, rfl, rfl⟩ ⟨rfl, rfl⟩)

theorem execLsr_keeps (i : Issue) (hs : Keeps q j b s) :
    ∃ t, execLsr i s = .next t ∧ Keeps q j b t := by
  refine ⟨_, rfl, ?_⟩
  repeat' first
    | intro _
    | with_reducible assumption
    | with_reducible apply State.vuvan_keeps
    | with_reducible apply State.issue_keeps
    | with_reducible apply onlyIf_keeps
    | dsimp only
    | (with_reducible refine keeps_mk ?_ ⟨rfl, rfl, rfl, rfl, rfl⟩ ⟨rfl, rfl⟩)

theorem execBtst_keeps (i : Issue) (hs : Keeps q j b s) :
    ∃ t, execBtst i s = .next t ∧ Keeps q j b t := by
  refine ⟨_, rfl, ?_⟩
  repeat' first
    | intro _
    | with_reducible assumption
    | with_reducible apply State.vuvan_keeps
    | with_reducible apply State.issue_keeps
    | with_reducible apply onlyIf_keeps
    | dsimp only
    | (with_reducible refine keeps_mk ?_ ⟨rfl, rfl, rfl, rfl, rfl⟩ ⟨rfl, rfl⟩)

theorem execBset_keeps (i : Issue) (hs : Keeps q j b s) :
    ∃ t, execBset i s = .next t ∧ Keeps q j b t := by
  refine ⟨_, rfl, ?_⟩
  repeat' first
    | intro _
    | with_reducible assumption
    | with_reducible apply State.vuvan_keeps
    | with_reducible apply State.issue_keeps
    | with_reducible apply onlyIf_keeps
    | dsimp only
    | (with_reducible refine keeps_mk ?_ ⟨rfl, rfl, rfl, rfl, rfl⟩ ⟨rfl, rfl⟩)

theorem execBclr_keeps (i : Issue) (hs : Keeps q j b s) :
    ∃ t, execBclr i s = .next t ∧ Keeps q j b t := by
  refine ⟨_, rfl, ?_⟩
  repeat' first
    | intro _
    | with_reducible assumption
    | with_reducible apply State.vuvan_keeps
    | with_reducible apply State.issue_keeps
    | with_reducible apply onlyIf_keeps
    | dsimp only
    | (with_reducible refine keeps_mk ?_ ⟨rfl, rfl, rfl, rfl, rfl⟩ ⟨rfl, rfl⟩)

theorem execBtgl_keeps (i : Issue) (hs : Keeps q j b s) :
    ∃ t, execBtgl i s = .next t ∧ Keeps q j b t := by
  refine ⟨_, rfl, ?_⟩
  repeat' first
    | intro _
    | with_reducible assumption
    | with_reducible apply State.vuvan_keeps
    | with_reducible apply State.issue_keeps
    | with_reducible apply onlyIf_keeps
    | dsimp only
    | (with_reducible refine keeps_mk ?_ ⟨rfl, rfl, rfl, rfl, rfl⟩ ⟨rfl, rfl⟩)

theorem execNorm_keeps (i : Issue) (hs : Keeps q j b s) :
    ∃ t, execNorm i s = .next t ∧ Keeps q j b t := by
  refine ⟨_, rfl, ?_⟩
  repeat' first
    | intro _
    | with_reducible assumption
    | with_reducible apply State.vuvan_keeps
    | with_reducible apply State.issue_keeps
    | with_reducible apply onlyIf_keeps
    | dsimp only
    | (with_reducible refine keeps_mk ?_ ⟨rfl, rfl, rfl, rfl, rfl⟩ ⟨rfl, rfl⟩)

theorem execMin_keeps (i : Issue) (hs : Keeps q j b s) :
    ∃ t, execMin i s = .next t ∧ Keeps q j b t := by
  refine ⟨_, rfl, ?_⟩
  repeat' first
    | intro _
    | with_reducible assumption
    | with_reducible apply State.vuvan_keeps
    | with_reducible apply State.issue_keeps
    | with_reducible apply onlyIf_keeps
    | dsimp only
    | (with_reducible refine keeps_mk ?_ ⟨rfl, rfl, rfl, rfl, rfl⟩ ⟨rfl, rfl⟩)

theorem execMax_keeps (i : Issue) (hs : Keeps q j b s) :
    ∃ t, execMax i s = .next t ∧ Keeps q j b t := by
  refine ⟨_, rfl, ?_⟩
  repeat' first
    | intro _
    | with_reducible assumption
    | with_reducible apply State.vuvan_keeps
    | with_reducible apply State.issue_keeps
    | with_reducible apply onlyIf_keeps
    | dsimp only
    | (with_reducible refine keeps_mk ?_ ⟨rfl, rfl, rfl, rfl, rfl⟩ ⟨rfl, rfl⟩)

theorem execMaxx_keeps (i : Issue) (hs : Keeps q j b s) :
    ∃ t, execMaxx i s = .next t ∧ Keeps q j b t := by
  refine ⟨_, rfl, ?_⟩
  repeat' first
    | intro _
    | with_reducible assumption
    | with_reducible apply State.vuvan_keeps
    | with_reducible apply State.issue_keeps
    | with_reducible apply onlyIf_keeps
    | dsimp only
    | (with_reducible refine keeps_mk ?_ ⟨rfl, rfl, rfl, rfl, rfl⟩ ⟨rfl, rfl⟩)

theorem execMinx_keeps (i : Issue) (hs : Keeps q j b s) :
    ∃ t, execMinx i s = .next t ∧ Keeps q j b t := by
  refine ⟨_, rfl, ?_⟩
  repeat' first
    | intro _
    | with_reducible assumption
    | with_reducible apply State.vuvan_keeps
    | with_reducible apply State.issue_keeps
    | with_reducible apply onlyIf_keeps
    | dsimp only
    | (with_reducible refine keeps_mk ?_ ⟨rfl, rfl, rfl, rfl, rfl⟩ ⟨rfl, rfl⟩)

theorem execAddd_keeps (i : Issue) (hs : Keeps q j b s) :
    ∃ t, execAddd i s = .next t ∧ Keeps q j b t := by
  refine ⟨_, rfl, ?_⟩
  repeat' first
    | intro _
    | with_reducible assumption
    | with_reducible apply State.vuvan_keeps
    | with_reducible apply State.issue_keeps
    | with_reducible apply onlyIf_keeps
    | dsimp only
    | (with_reducible refine keeps_mk ?_ ⟨rfl, rfl, rfl, rfl, rfl⟩ ⟨rfl, rfl⟩)

theorem execAdcd_keeps (i : Issue) (hs : Keeps q j b s) :
    ∃ t, execAdcd i s = .next t ∧ Keeps q j b t := by
  refine ⟨_, rfl, ?_⟩
  repeat' first
    | intro _
    | with_reducible assumption
    | with_reducible apply State.vuvan_keeps
    | with_reducible apply State.issue_keeps
    | with_reducible apply onlyIf_keeps
    | dsimp only
    | (with_reducible refine keeps_mk ?_ ⟨rfl, rfl, rfl, rfl, rfl⟩ ⟨rfl, rfl⟩)

theorem execSubd_keeps (i : Issue) (hs : Keeps q j b s) :
    ∃ t, execSubd i s = .next t ∧ Keeps q j b t := by
  refine ⟨_, rfl, ?_⟩
  repeat' first
    | intro _
    | with_reducible assumption
    | with_reducible apply State.vuvan_keeps
    | with_reducible apply State.issue_keeps
    | with_reducible apply onlyIf_keeps
    | dsimp only
    | (with_reducible refine keeps_mk ?_ ⟨rfl, rfl, rfl, rfl, rfl⟩ ⟨rfl, rfl⟩)

theorem execSbcd_keeps (i : Issue) (hs : Keeps q j b s) :
    ∃ t, execSbcd i s = .next t ∧ Keeps q j b t := by
  refine ⟨_, rfl, ?_⟩
  repeat' first
    | intro _
    | with_reducible assumption
    | with_reducible apply State.vuvan_keeps
    | with_reducible apply State.issue_keeps
    | with_reducible apply onlyIf_keeps
    | dsimp only
    | (with_reducible refine keeps_mk ?_ ⟨rfl, rfl, rfl, rfl, rfl⟩ ⟨rfl, rfl⟩)

theorem execMul_keeps (i : Issue) (hs : Keeps q j b s) :
    ∃ t, execMul i s = .next t ∧ Keeps q j b t := by
  refine ⟨_, rfl, ?_⟩
  repeat' first
    | intro _
    | with_reducible assumption
    | with_reducible apply State.vuvan_keeps
    | with_reducible apply State.issue_keeps
    | with_reducible apply onlyIf_keeps
    | dsimp only
    | (with_reducible refine keeps_mk ?_ ⟨rfl, rfl, rfl, rfl, rfl⟩ ⟨rfl, rfl⟩)

theorem execImul_keeps (i : Issue) (hs : Keeps q j b s) :
    ∃ t, execImul i s = .next t ∧ Keeps q j b t := by
  refine ⟨_, rfl, ?_⟩
  repeat' first
    | intro _
    | with_reducible assumption
    | with_reducible apply State.vuvan_keeps
    | with_reducible apply State.issue_keeps
    | with_reducible apply onlyIf_keeps
    | dsimp only
    | (with_reducible refine keeps_mk ?_ ⟨rfl, rfl, rfl, rfl, rfl⟩ ⟨rfl, rfl⟩)

theorem execUmul_keeps (i : Issue) (hs : Keeps q j b s) :
    ∃ t, execUmul i s = .next t ∧ Keeps q j b t := by
  refine ⟨_, rfl, ?_⟩
  repeat' first
    | intro _
    | with_reducible assumption
    | with_reducible apply State.vuvan_keeps
    | with_reducible apply State.issue_keeps
    | with_reducible apply onlyIf_keeps
    | dsimp only
    | (with_reducible refine keeps_mk ?_ ⟨rfl, rfl, rfl, rfl, rfl⟩ ⟨rfl, rfl⟩)

theorem execMpy_keeps (i : Issue) (hs : Keeps q j b s) :
    ∃ t, execMpy i s = .next t ∧ Keeps q j b t := by
  refine ⟨_, rfl, ?_⟩
  repeat' first
    | intro _
    | with_reducible assumption
    | with_reducible apply State.vuvan_keeps
    | with_reducible apply State.issue_keeps
    | with_reducible apply onlyIf_keeps
    | dsimp only
    | (with_reducible refine keeps_mk ?_ ⟨rfl, rfl, rfl, rfl, rfl⟩ ⟨rfl, rfl⟩)

theorem execMac_keeps (i : Issue) (hs : Keeps q j b s) :
    ∃ t, execMac i s = .next t ∧ Keeps q j b t := by
  refine ⟨_, rfl, ?_⟩
  repeat' first
    | intro _
    | with_reducible assumption
    | with_reducible apply State.vuvan_keeps
    | with_reducible apply State.issue_keeps
    | with_reducible apply onlyIf_keeps
    | dsimp only
    | (with_reducible refine keeps_mk ?_ ⟨rfl, rfl, rfl, rfl, rfl⟩ ⟨rfl, rfl⟩)

theorem execMsc_keeps (i : Issue) (hs : Keeps q j b s) :
    ∃ t, execMsc i s = .next t ∧ Keeps q j b t := by
  refine ⟨_, rfl, ?_⟩
  repeat' first
    | intro _
    | with_reducible assumption
    | with_reducible apply State.vuvan_keeps
    | with_reducible apply State.issue_keeps
    | with_reducible apply onlyIf_keeps
    | dsimp only
    | (with_reducible refine keeps_mk ?_ ⟨rfl, rfl, rfl, rfl, rfl⟩ ⟨rfl, rfl⟩)

theorem execMpyr_keeps (i : Issue) (hs : Keeps q j b s) :
    ∃ t, execMpyr i s = .next t ∧ Keeps q j b t := by
  refine ⟨_, rfl, ?_⟩
  repeat' first
    | intro _
    | with_reducible assumption
    | with_reducible apply State.vuvan_keeps
    | with_reducible apply State.issue_keeps
    | with_reducible apply onlyIf_keeps
    | dsimp only
    | (with_reducible refine keeps_mk ?_ ⟨rfl, rfl, rfl, rfl, rfl⟩ ⟨rfl, rfl⟩)

theorem execMacr_keeps (i : Issue) (hs : Keeps q j b s) :
    ∃ t, execMacr i s = .next t ∧ Keeps q j b t := by
  refine ⟨_, rfl, ?_⟩
  repeat' first
    | intro _
    | with_reducible assumption
    | with_reducible apply State.vuvan_keeps
    | with_reducible apply State.issue_keeps
    | with_reducible apply onlyIf_keeps
    | dsimp only
    | (with_reducible refine keeps_mk ?_ ⟨rfl, rfl, rfl, rfl, rfl⟩ ⟨rfl, rfl⟩)

theorem execImac_keeps (i : Issue) (hs : Keeps q j b s) :
    ∃ t, execImac i s = .next t ∧ Keeps q j b t := by
  refine ⟨_, rfl, ?_⟩
  repeat' first
    | intro _
    | with_reducible assumption
    | with_reducible apply State.vuvan_keeps
    | with_reducible apply State.issue_keeps
    | with_reducible apply onlyIf_keeps
    | dsimp only
    | (with_reducible refine keeps_mk ?_ ⟨rfl, rfl, rfl, rfl, rfl⟩ ⟨rfl, rfl⟩)

theorem execAadd_keeps (i : Issue) (hs : Keeps q j b s) :
    ∃ t, execAadd i s = .next t ∧ Keeps q j b t := by
  refine ⟨_, rfl, ?_⟩
  repeat' first
    | intro _
    | with_reducible assumption
    | with_reducible apply State.vuvan_keeps
    | with_reducible apply State.issue_keeps
    | with_reducible apply onlyIf_keeps
    | dsimp only
    | (with_reducible refine keeps_mk ?_ ⟨rfl, rfl, rfl, rfl, rfl⟩ ⟨rfl, rfl⟩)

theorem execAsub_keeps (i : Issue) (hs : Keeps q j b s) :
    ∃ t, execAsub i s = .next t ∧ Keeps q j b t := by
  refine ⟨_, rfl, ?_⟩
  repeat' first
    | intro _
    | with_reducible assumption
    | with_reducible apply State.vuvan_keeps
    | with_reducible apply State.issue_keeps
    | with_reducible apply onlyIf_keeps
    | dsimp only
    | (with_reducible refine keeps_mk ?_ ⟨rfl, rfl, rfl, rfl, rfl⟩ ⟨rfl, rfl⟩)

theorem execAmov_keeps (i : Issue) (hs : Keeps q j b s) :
    ∃ t, execAmov i s = .next t ∧ Keeps q j b t := by
  refine ⟨_, rfl, ?_⟩
  repeat' first
    | intro _
    | with_reducible assumption
    | with_reducible apply State.vuvan_keeps
    | with_reducible apply State.issue_keeps
    | with_reducible apply onlyIf_keeps
    | dsimp only
    | (with_reducible refine keeps_mk ?_ ⟨rfl, rfl, rfl, rfl, rfl⟩ ⟨rfl, rfl⟩)

theorem execAneg_keeps (i : Issue) (hs : Keeps q j b s) :
    ∃ t, execAneg i s = .next t ∧ Keeps q j b t := by
  refine ⟨_, rfl, ?_⟩
  repeat' first
    | intro _
    | with_reducible assumption
    | with_reducible apply State.vuvan_keeps
    | with_reducible apply State.issue_keeps
    | with_reducible apply onlyIf_keeps
    | dsimp only
    | (with_reducible refine keeps_mk ?_ ⟨rfl, rfl, rfl, rfl, rfl⟩ ⟨rfl, rfl⟩)

theorem execAabs_keeps (i : Issue) (hs : Keeps q j b s) :
    ∃ t, execAabs i s = .next t ∧ Keeps q j b t := by
  refine ⟨_, rfl, ?_⟩
  repeat' first
    | intro _
    | with_reducible assumption
    | with_reducible apply State.vuvan_keeps
    | with_reducible apply State.issue_keeps
    | with_reducible apply onlyIf_keeps
    | dsimp only
    | (with_reducible refine keeps_mk ?_ ⟨rfl, rfl, rfl, rfl, rfl⟩ ⟨rfl, rfl⟩)

theorem execAclr_keeps (i : Issue) (hs : Keeps q j b s) :
    ∃ t, execAclr i s = .next t ∧ Keeps q j b t := by
  refine ⟨_, rfl, ?_⟩
  repeat' first
    | intro _
    | with_reducible assumption
    | with_reducible apply State.vuvan_keeps
    | with_reducible apply State.issue_keeps
    | with_reducible apply onlyIf_keeps
    | dsimp only
    | (with_reducible refine keeps_mk ?_ ⟨rfl, rfl, rfl, rfl, rfl⟩ ⟨rfl, rfl⟩)

theorem execAcmp_keeps (i : Issue) (hs : Keeps q j b s) :
    ∃ t, execAcmp i s = .next t ∧ Keeps q j b t := by
  refine ⟨_, rfl, ?_⟩
  repeat' first
    | intro _
    | with_reducible assumption
    | with_reducible apply State.vuvan_keeps
    | with_reducible apply State.issue_keeps
    | with_reducible apply onlyIf_keeps
    | dsimp only
    | (with_reducible refine keeps_mk ?_ ⟨rfl, rfl, rfl, rfl, rfl⟩ ⟨rfl, rfl⟩)

theorem execRnd_keeps (i : Issue) (hs : Keeps q j b s) :
    ∃ t, execRnd i s = .next t ∧ Keeps q j b t := by
  refine ⟨_, rfl, ?_⟩
  repeat' first
    | intro _
    | with_reducible assumption
    | with_reducible apply State.vuvan_keeps
    | with_reducible apply State.issue_keeps
    | with_reducible apply onlyIf_keeps
    | dsimp only
    | (with_reducible refine keeps_mk ?_ ⟨rfl, rfl, rfl, rfl, rfl⟩ ⟨rfl, rfl⟩)

theorem execAsat_keeps (i : Issue) (hs : Keeps q j b s) :
    ∃ t, execAsat i s = .next t ∧ Keeps q j b t := by
  refine ⟨_, rfl, ?_⟩
  repeat' first
    | intro _
    | with_reducible assumption
    | with_reducible apply State.vuvan_keeps
    | with_reducible apply State.issue_keeps
    | with_reducible apply onlyIf_keeps
    | dsimp only
    | (with_reducible refine keeps_mk ?_ ⟨rfl, rfl, rfl, rfl, rfl⟩ ⟨rfl, rfl⟩)

theorem execAsh_keeps (i : Issue) (hs : Keeps q j b s) :
    ∃ t, execAsh i s = .next t ∧ Keeps q j b t := by
  refine ⟨_, rfl, ?_⟩
  repeat' first
    | intro _
    | with_reducible assumption
    | with_reducible apply State.vuvan_keeps
    | with_reducible apply State.issue_keeps
    | with_reducible apply onlyIf_keeps
    | dsimp only
    | (with_reducible refine keeps_mk ?_ ⟨rfl, rfl, rfl, rfl, rfl⟩ ⟨rfl, rfl⟩)

theorem execAget_keeps (i : Issue) (hs : Keeps q j b s) :
    ∃ t, execAget i s = .next t ∧ Keeps q j b t := by
  refine ⟨_, rfl, ?_⟩
  repeat' first
    | intro _
    | with_reducible assumption
    | with_reducible apply State.vuvan_keeps
    | with_reducible apply State.issue_keeps
    | with_reducible apply onlyIf_keeps
    | dsimp only
    | (with_reducible refine keeps_mk ?_ ⟨rfl, rfl, rfl, rfl, rfl⟩ ⟨rfl, rfl⟩)

theorem execAgets_keeps (i : Issue) (hs : Keeps q j b s) :
    ∃ t, execAgets i s = .next t ∧ Keeps q j b t := by
  refine ⟨_, rfl, ?_⟩
  repeat' first
    | intro _
    | with_reducible assumption
    | with_reducible apply State.vuvan_keeps
    | with_reducible apply State.issue_keeps
    | with_reducible apply onlyIf_keeps
    | dsimp only
    | (with_reducible refine keeps_mk ?_ ⟨rfl, rfl, rfl, rfl, rfl⟩ ⟨rfl, rfl⟩)

theorem execAgetr_keeps (i : Issue) (hs : Keeps q j b s) :
    ∃ t, execAgetr i s = .next t ∧ Keeps q j b t := by
  refine ⟨_, rfl, ?_⟩
  repeat' first
    | intro _
    | with_reducible assumption
    | with_reducible apply State.vuvan_keeps
    | with_reducible apply State.issue_keeps
    | with_reducible apply onlyIf_keeps
    | dsimp only
    | (with_reducible refine keeps_mk ?_ ⟨rfl, rfl, rfl, rfl, rfl⟩ ⟨rfl, rfl⟩)

theorem execFadd_keeps (i : Issue) (hs : Keeps q j b s) :
    ∃ t, execFadd i s = .next t ∧ Keeps q j b t := by
  refine ⟨_, rfl, ?_⟩
  repeat' first
    | intro _
    | with_reducible assumption
    | with_reducible apply State.vuvan_keeps
    | with_reducible apply State.issue_keeps
    | with_reducible apply onlyIf_keeps
    | dsimp only
    | (with_reducible refine keeps_mk ?_ ⟨rfl, rfl, rfl, rfl, rfl⟩ ⟨rfl, rfl⟩)

theorem execFsub_keeps (i : Issue) (hs : Keeps q j b s) :
    ∃ t, execFsub i s = .next t ∧ Keeps q j b t := by
  refine ⟨_, rfl, ?_⟩
  repeat' first
    | intro _
    | with_reducible assumption
    | with_reducible apply State.vuvan_keeps
    | with_reducible apply State.issue_keeps
    | with_reducible apply onlyIf_keeps
    | dsimp only
    | (with_reducible refine keeps_mk ?_ ⟨rfl, rfl, rfl, rfl, rfl⟩ ⟨rfl, rfl⟩)

theorem execFmul_keeps (i : Issue) (hs : Keeps q j b s) :
    ∃ t, execFmul i s = .next t ∧ Keeps q j b t := by
  refine ⟨_, rfl, ?_⟩
  repeat' first
    | intro _
    | with_reducible assumption
    | with_reducible apply State.vuvan_keeps
    | with_reducible apply State.issue_keeps
    | with_reducible apply onlyIf_keeps
    | dsimp only
    | (with_reducible refine keeps_mk ?_ ⟨rfl, rfl, rfl, rfl, rfl⟩ ⟨rfl, rfl⟩)

theorem execFdiv_keeps (i : Issue) (hs : Keeps q j b s) :
    ∃ t, execFdiv i s = .next t ∧ Keeps q j b t := by
  refine ⟨_, rfl, ?_⟩
  repeat' first
    | intro _
    | with_reducible assumption
    | with_reducible apply State.vuvan_keeps
    | with_reducible apply State.issue_keeps
    | with_reducible apply onlyIf_keeps
    | dsimp only
    | (with_reducible refine keeps_mk ?_ ⟨rfl, rfl, rfl, rfl, rfl⟩ ⟨rfl, rfl⟩)

theorem execFsqrt_keeps (i : Issue) (hs : Keeps q j b s) :
    ∃ t, execFsqrt i s = .next t ∧ Keeps q j b t := by
  refine ⟨_, rfl, ?_⟩
  repeat' first
    | intro _
    | with_reducible assumption
    | with_reducible apply State.vuvan_keeps
    | with_reducible apply State.issue_keeps
    | with_reducible apply onlyIf_keeps
    | dsimp only
    | (with_reducible refine keeps_mk ?_ ⟨rfl, rfl, rfl, rfl, rfl⟩ ⟨rfl, rfl⟩)

theorem execFneg_keeps (i : Issue) (hs : Keeps q j b s) :
    ∃ t, execFneg i s = .next t ∧ Keeps q j b t := by
  refine ⟨_, rfl, ?_⟩
  repeat' first
    | intro _
    | with_reducible assumption
    | with_reducible apply State.vuvan_keeps
    | with_reducible apply State.issue_keeps
    | with_reducible apply onlyIf_keeps
    | dsimp only
    | (with_reducible refine keeps_mk ?_ ⟨rfl, rfl, rfl, rfl, rfl⟩ ⟨rfl, rfl⟩)

theorem execFabs_keeps (i : Issue) (hs : Keeps q j b s) :
    ∃ t, execFabs i s = .next t ∧ Keeps q j b t := by
  refine ⟨_, rfl, ?_⟩
  repeat' first
    | intro _
    | with_reducible assumption
    | with_reducible apply State.vuvan_keeps
    | with_reducible apply State.issue_keeps
    | with_reducible apply onlyIf_keeps
    | dsimp only
    | (with_reducible refine keeps_mk ?_ ⟨rfl, rfl, rfl, rfl, rfl⟩ ⟨rfl, rfl⟩)

theorem execFmov_keeps (i : Issue) (hs : Keeps q j b s) :
    ∃ t, execFmov i s = .next t ∧ Keeps q j b t := by
  refine ⟨_, rfl, ?_⟩
  repeat' first
    | intro _
    | with_reducible assumption
    | with_reducible apply State.vuvan_keeps
    | with_reducible apply State.issue_keeps
    | with_reducible apply onlyIf_keeps
    | dsimp only
    | (with_reducible refine keeps_mk ?_ ⟨rfl, rfl, rfl, rfl, rfl⟩ ⟨rfl, rfl⟩)

theorem execFcmp_keeps (i : Issue) (hs : Keeps q j b s) :
    ∃ t, execFcmp i s = .next t ∧ Keeps q j b t := by
  refine ⟨_, rfl, ?_⟩
  repeat' first
    | intro _
    | with_reducible assumption
    | with_reducible apply State.vuvan_keeps
    | with_reducible apply State.issue_keeps
    | with_reducible apply onlyIf_keeps
    | dsimp only
    | (with_reducible refine keeps_mk ?_ ⟨rfl, rfl, rfl, rfl, rfl⟩ ⟨rfl, rfl⟩)

theorem execFitof_keeps (i : Issue) (hs : Keeps q j b s) :
    ∃ t, execFitof i s = .next t ∧ Keeps q j b t := by
  refine ⟨_, rfl, ?_⟩
  repeat' first
    | intro _
    | with_reducible assumption
    | with_reducible apply State.vuvan_keeps
    | with_reducible apply State.issue_keeps
    | with_reducible apply onlyIf_keeps
    | dsimp only
    | (with_reducible refine keeps_mk ?_ ⟨rfl, rfl, rfl, rfl, rfl⟩ ⟨rfl, rfl⟩)

theorem execFutof_keeps (i : Issue) (hs : Keeps q j b s) :
    ∃ t, execFutof i s = .next t ∧ Keeps q j b t := by
  refine ⟨_, rfl, ?_⟩
  repeat' first
    | intro _
    | with_reducible assumption
    | with_reducible apply State.vuvan_keeps
    | with_reducible apply State.issue_keeps
    | with_reducible apply onlyIf_keeps
    | dsimp only
    | (with_reducible refine keeps_mk ?_ ⟨rfl, rfl, rfl, rfl, rfl⟩ ⟨rfl, rfl⟩)

theorem execFftoi_keeps (i : Issue) (hs : Keeps q j b s) :
    ∃ t, execFftoi i s = .next t ∧ Keeps q j b t := by
  refine ⟨_, rfl, ?_⟩
  repeat' first
    | intro _
    | with_reducible assumption
    | with_reducible apply State.vuvan_keeps
    | with_reducible apply State.issue_keeps
    | with_reducible apply onlyIf_keeps
    | dsimp only
    | (with_reducible refine keeps_mk ?_ ⟨rfl, rfl, rfl, rfl, rfl⟩ ⟨rfl, rfl⟩)

theorem execFqtof_keeps (i : Issue) (hs : Keeps q j b s) :
    ∃ t, execFqtof i s = .next t ∧ Keeps q j b t := by
  refine ⟨_, rfl, ?_⟩
  repeat' first
    | intro _
    | with_reducible assumption
    | with_reducible apply State.vuvan_keeps
    | with_reducible apply State.issue_keeps
    | with_reducible apply onlyIf_keeps
    | dsimp only
    | (with_reducible refine keeps_mk ?_ ⟨rfl, rfl, rfl, rfl, rfl⟩ ⟨rfl, rfl⟩)

theorem execFftoq_keeps (i : Issue) (hs : Keeps q j b s) :
    ∃ t, execFftoq i s = .next t ∧ Keeps q j b t := by
  refine ⟨_, rfl, ?_⟩
  repeat' first
    | intro _
    | with_reducible assumption
    | with_reducible apply State.vuvan_keeps
    | with_reducible apply State.issue_keeps
    | with_reducible apply onlyIf_keeps
    | dsimp only
    | (with_reducible refine keeps_mk ?_ ⟨rfl, rfl, rfl, rfl, rfl⟩ ⟨rfl, rfl⟩)

theorem execFatof_keeps (i : Issue) (hs : Keeps q j b s) :
    ∃ t, execFatof i s = .next t ∧ Keeps q j b t := by
  refine ⟨_, rfl, ?_⟩
  repeat' first
    | intro _
    | with_reducible assumption
    | with_reducible apply State.vuvan_keeps
    | with_reducible apply State.issue_keeps
    | with_reducible apply onlyIf_keeps
    | dsimp only
    | (with_reducible refine keeps_mk ?_ ⟨rfl, rfl, rfl, rfl, rfl⟩ ⟨rfl, rfl⟩)

theorem execFftoa_keeps (i : Issue) (hs : Keeps q j b s) :
    ∃ t, execFftoa i s = .next t ∧ Keeps q j b t := by
  refine ⟨_, rfl, ?_⟩
  repeat' first
    | intro _
    | with_reducible assumption
    | with_reducible apply State.vuvan_keeps
    | with_reducible apply State.issue_keeps
    | with_reducible apply onlyIf_keeps
    | dsimp only
    | (with_reducible refine keeps_mk ?_ ⟨rfl, rfl, rfl, rfl, rfl⟩ ⟨rfl, rfl⟩)

theorem execRep_keeps (i : Issue) (w2 : Word) (x2 : Word) (cut : Option Nat) (hs : Keeps q j b s) :
    ∃ t, execRep i w2 x2 cut s = .next t ∧ Keeps q j b t := by
  refine ⟨_, rfl, ?_⟩
  repeat' first
    | intro _
    | with_reducible assumption
    | with_reducible apply State.vuvan_keeps
    | with_reducible apply State.issueRep_keeps
    | with_reducible apply onlyIf_keeps
    | dsimp only
    | (with_reducible refine keeps_mk ?_ ⟨rfl, rfl, rfl, rfl, rfl⟩ ⟨rfl, rfl⟩)

theorem execUndefinedInstruction_keeps (i : Issue) (hs : Keeps q j b s) :
    ∃ t, execUndefinedInstruction i s = .next t ∧ Keeps q j b t := by
  refine ⟨_, rfl, ?_⟩
  repeat' first
    | intro _
    | with_reducible assumption
    | with_reducible apply State.boundary_keeps
    | with_reducible apply State.issue_keeps
    | with_reducible apply State.reach_keeps
    | with_reducible apply onlyIf_keeps
    | with_reducible apply keeps_ite
    | (extract_lets +onlyGivenNames -underBinder x; first | (refine keeps_cut (q := q) (j := j) (b := b) (x := x) ?_ ?_ <;> first | (intro h0; generalize x = y at h0 ⊢; clear x) | intro h0 | subst x) | subst x)
    | split
    | dsimp only
    | (with_reducible refine keeps_mk ?_ ⟨rfl, rfl, rfl, rfl, rfl⟩ ⟨rfl, rfl⟩)

theorem execPendingResultWrite_keeps (core : Nat) (dest : Nat) (hs : Keeps q j b s) :
    ∃ t, execPendingResultWrite core dest s = .next t ∧ Keeps q j b t := by
  refine ⟨_, rfl, ?_⟩
  repeat' first
    | intro _
    | with_reducible assumption
    | with_reducible apply State.dueTraps_keeps
    | with_reducible apply State.modCore_keeps
    | with_reducible apply onlyIf_keeps
    | with_reducible apply keeps_ite
    | (extract_lets +onlyGivenNames -underBinder x; first | (refine keeps_cut (q := q) (j := j) (b := b) (x := x) ?_ ?_ <;> first | (intro h0; generalize x = y at h0 ⊢; clear x) | intro h0 | subst x) | subst x)
    | split
    | dsimp only
    | exact CoreSt.land1_mem _ _
    | exact CoreSt.landWhere_mem _ _
    | (with_reducible refine keeps_mk ?_ ⟨rfl, rfl, rfl, rfl, rfl⟩ ⟨rfl, rfl⟩)

theorem execInterruptEntry_keeps (core : Nat) (at_ : Nat) (hs : Keeps q j b s) :
    ∃ t, execInterruptEntry core at_ s = .next t ∧ Keeps q j b t := by
  refine ⟨_, rfl, ?_⟩
  repeat' first
    | intro _
    | with_reducible assumption
    | with_reducible apply State.interrupt_keeps
    | with_reducible apply State.reach_keeps
    | with_reducible apply onlyIf_keeps
    | dsimp only
    | (with_reducible refine keeps_mk ?_ ⟨rfl, rfl, rfl, rfl, rfl⟩ ⟨rfl, rfl⟩)

theorem execUserEntry_keeps (at_ : Nat) (hs : Keeps q j b s) :
    ∃ t, execUserEntry at_ s = .next t ∧ Keeps q j b t := by
  refine ⟨_, rfl, ?_⟩
  repeat' first
    | intro _
    | with_reducible assumption
    | with_reducible apply State.userEnter_keeps
    | with_reducible apply State.tickDone_keeps
    | with_reducible apply State.reach_keeps
    | with_reducible apply onlyIf_keeps
    | with_reducible apply keeps_ite
    | (extract_lets +onlyGivenNames -underBinder x; first | (refine keeps_cut (q := q) (j := j) (b := b) (x := x) ?_ ?_ <;> first | (intro h0; generalize x = y at h0 ⊢; clear x) | intro h0 | subst x) | subst x)
    | split
    | dsimp only
    | (with_reducible refine keeps_mk ?_ ⟨rfl, rfl, rfl, rfl, rfl⟩ ⟨rfl, rfl⟩)

theorem execNcoCommit_keeps (core : Nat) (at_ : Nat) (n : Nat) (w : Word) (hs : Keeps q j b s) :
    ∃ t, execNcoCommit core at_ n w s = .next t ∧ Keeps q j b t := by
  refine ⟨_, rfl, ?_⟩
  repeat' first
    | intro _
    | with_reducible assumption
    | with_reducible apply State.storeWord_keeps
    | with_reducible apply onlyIf_keeps
    | with_reducible apply keeps_ite
    | split
    | dsimp only
    | (with_reducible refine keeps_mk ?_ ⟨rfl, rfl, rfl, rfl, rfl⟩ ⟨rfl, rfl⟩)

theorem execMailboxSend_keeps (core : Nat) (at_ : Nat) (w : Word) (hs : Keeps q j b s) :
    ∃ t, execMailboxSend core at_ w s = .next t ∧ Keeps q j b t := by
  refine ⟨_, rfl, ?_⟩
  repeat' first
    | intro _
    | with_reducible assumption
    | with_reducible apply State.storeWord_keeps
    | with_reducible apply onlyIf_keeps
    | dsimp only
    | (with_reducible refine keeps_mk ?_ ⟨rfl, rfl, rfl, rfl, rfl⟩ ⟨rfl, rfl⟩)

theorem execTickNow_keeps (core : Nat) (at_ : Nat) (hs : Keeps q j b s) :
    ∃ t, execTickNow core at_ s = .next t ∧ Keeps q j b t := by
  refine ⟨_, rfl, ?_⟩
  repeat' first
    | intro _
    | with_reducible assumption
    | with_reducible apply State.tickNow_keeps
    | with_reducible apply State.reach_keeps
    | with_reducible apply onlyIf_keeps
    | with_reducible apply keeps_ite
    | split
    | dsimp only
    | (with_reducible refine keeps_mk ?_ ⟨rfl, rfl, rfl, rfl, rfl⟩ ⟨rfl, rfl⟩)

theorem execTickDone_keeps (core : Nat) (at_ : Nat) (w : Word) (hs : Keeps q j b s) :
    ∃ t, execTickDone core at_ w s = .next t ∧ Keeps q j b t := by
  refine ⟨_, rfl, ?_⟩
  repeat' first
    | intro _
    | with_reducible assumption
    | with_reducible apply State.storeWord_keeps
    | with_reducible apply onlyIf_keeps
    | dsimp only
    | (with_reducible refine keeps_mk ?_ ⟨rfl, rfl, rfl, rfl, rfl⟩ ⟨rfl, rfl⟩)

theorem execDauGo_keeps (core : Nat) (at_ : Nat) (w : Word) (hs : Keeps q j b s) :
    ∃ t, execDauGo core at_ w s = .next t ∧ Keeps q j b t := by
  refine ⟨_, rfl, ?_⟩
  repeat' first
    | intro _
    | with_reducible assumption
    | with_reducible apply State.storeWord_keeps
    | with_reducible apply onlyIf_keeps
    | dsimp only
    | (with_reducible refine keeps_mk ?_ ⟨rfl, rfl, rfl, rfl, rfl⟩ ⟨rfl, rfl⟩)

theorem execRingHead_keeps (core : Nat) (at_ : Nat) (ring : Nat) (w : Word) (hs : Keeps q j b s) :
    ∃ t, execRingHead core at_ ring w s = .next t ∧ Keeps q j b t := by
  refine ⟨_, rfl, ?_⟩
  repeat' first
    | intro _
    | with_reducible assumption
    | with_reducible apply State.storeWord_keeps
    | with_reducible apply onlyIf_keeps
    | with_reducible apply keeps_ite
    | split
    | dsimp only
    | (with_reducible refine keeps_mk ?_ ⟨rfl, rfl, rfl, rfl, rfl⟩ ⟨rfl, rfl⟩)

end Sys2Proof.Machine
end

