-- ==== Sys2Proof/Laws/Values.lean ====
section
/-!
SUPPORT. Values of the dictionary read after others are set, in a dictionary in canonical form.
-/

namespace Sys2Proof.Machine

variable {s : State}

/-- The dictionary lists rising keys and no value equal to its default. -/
def State.DictOk (s : State) : Prop := SMap.wf dfltOf s.dict = true

theorem State.Inv.dictOk (h : s.Inv) : s.DictOk := h.1.1

theorem State.DictOk.set (h : s.DictOk) (k v : Nat) : (s.set k v).DictOk := SMap.wf_set dfltOf (dfltOf k) k v rfl s.dict h

theorem State.DictOk.bump (h : s.DictOk) (k n : Nat) : (s.bump k n).DictOk := by
  unfold State.bump
  dsimp only
  split <;> exact h.set _ _

theorem State.DictOk.raise (h : s.DictOk) (w b : Nat) : (s.raise w b).DictOk := h.set _ _

theorem State.DictOk.flag (h : s.DictOk) (w b k : Nat) : (s.flag w b k).DictOk := (h.set _ _).bump _ _

theorem State.get_set_same (h : s.DictOk) (k v : Nat) : (s.set k v).get k = v := SMap.get_set_same dfltOf (dfltOf k) k v s.dict h

theorem State.get_set_other (h : s.DictOk) (k v : Nat) {j : Nat} (hj : j ≠ k) : (s.set k v).get j = s.get j :=
  SMap.get_set_other (dfltOf k) (dfltOf j) k j v s.dict dfltOf hj h

theorem State.get_bump_other (h : s.DictOk) (k n : Nat) {j : Nat} (hj : j ≠ k) : (s.bump k n).get j = s.get j := by
  unfold State.bump
  dsimp only
  split <;> exact State.get_set_other h _ _ hj

/-- A counter after one more: it holds at its largest value (R47). -/
theorem State.get_bump_same (h : s.DictOk) (k n : Nat) :
    (s.bump k n).get k = min (s.get k + 1) (2 ^ (8 * n) - 1) := by
  unfold State.bump
  dsimp only
  split
  · rw [State.get_set_same h]
    omega
  · rw [State.get_set_same h]
    omega

theorem State.get_raise_same (h : s.DictOk) (w b : Nat) : (s.raise w b).get w = setBit (s.get w) b := State.get_set_same h _ _

theorem State.get_raise_other (h : s.DictOk) (w b : Nat) {j : Nat} (hj : j ≠ w) : (s.raise w b).get j = s.get j :=
  State.get_set_other h _ _ hj

theorem State.get_flag_other (h : s.DictOk) (w b k : Nat) {j : Nat} (hw : j ≠ w) (hk : j ≠ k) : (s.flag w b k).get j = s.get j := by
  unfold State.flag
  rw [State.get_bump_other (h.set _ _) _ _ hk, State.get_set_other h _ _ hw]

theorem State.get_flag_word (h : s.DictOk) (w b k : Nat) (hk : w ≠ k) : (s.flag w b k).get w = setBit (s.get w) b := by
  unfold State.flag
  rw [State.get_bump_other (h.set _ _) _ _ hk, State.get_set_same h]

theorem State.get_flag_counter (h : s.DictOk) (w b k : Nat) (hk : k ≠ w) :
    (s.flag w b k).get k = min (s.get k + 1) 65535 := by
  unfold State.flag
  rw [State.get_bump_same (h.set _ _), State.get_set_other h _ _ hk]
  rfl

end Sys2Proof.Machine
end

