-- ==== Sys2Proof/Machine/Pins.lean ====
section
/-!
DEFINITION. The balls of the package (R587 to R591) and the level the device gives to the outputs among them (R109, R589,
R590, R594).
-/

namespace Sys2Proof.Machine

/-! ### The grid (R587 to R591) -/

/-- What a ball carries: a leg of a port (RX or TX, _N or _P), a leg of a lane clock, a supply by its bit of SupplyStatus, VSS,
a signal by its name, or nothing. -/
inductive Ball where
  | lane (port : Nat) (rx neg : Bool)
  | laneClock (g : Nat) (neg : Bool)
  | supply (b : Nat)
  | vss
  | signal (name : String)
  | reserved
  deriving DecidableEq, Repr

/-- The signals of the interior (R589): row, first column, the names at consecutive columns. -/
def signalRuns : List (Nat × Nat × List String) := [
  (8, 12, ["ANT_A"]), (8, 23, ["ANT_B"]), (8, 9, ["ANT_A_PWR"]), (8, 26, ["ANT_B_PWR"]),
  (11, 17, ["REF_P", "REF_N"]), (11, 20, ["OCXO_TUNE"]), (13, 11, ["CKO0_P", "CKO0_N"]), (13, 23, ["CKO1_P", "CKO1_N"]),
  (14, 6, ["TP0", "TP1", "TP2", "TP3", "TOD_TX"]), (15, 6, ["CAP0", "CAP1", "CAP2", "CAP3", "CAP4", "CAP5"]),
  (16, 6, ["CAP6", "CAP7", "CTO0", "CTO1", "CTO2", "CTO3"]), (17, 6, ["CTO4", "CTO5", "CTO6", "CTO7"]),
  (18, 6, ["MSCK", "MSI", "MSO", "MSS_N"]), (19, 6, ["QSCK", "QSS_N", "QD0", "QD1", "QD2", "QD3"]),
  (20, 6, ["STRAP0", "STRAP1", "STRAP2", "STRAP3", "STRAP4", "STRAP5"]), (21, 6, ["TCK", "TMS", "TDI", "TDO", "TRST_N"]),
  (22, 6, ["WAKE_N", "RST_N", "IRQ_N", "ALERT_N"]), (23, 6, ["CORE_EN", "CORE_VSEL0", "CORE_VSEL1", "CORE_PGOOD"]),
  (14, 26, ["DW0_TXP", "DW0_TXN"]), (15, 26, ["DW1_TXP", "DW1_TXN"]), (17, 26, ["DW2_TXP", "DW2_TXN"]),
  (19, 26, ["DW3_TXP", "DW3_TXN"]), (14, 29, ["DW0_RXIN"]), (15, 29, ["DW1_RXIN"]), (17, 29, ["DW2_RXIN"]),
  (19, 29, ["DW3_RXIN"]), (20, 26, ["DWSEL0", "DWSEL1", "DWSEL2", "DWSEL3"]), (21, 26, ["DWSEL4"])]

/-- The reserved balls of the interior. -/
def reservedBalls : List (Nat × Nat) := [(6, 6), (6, 29), (29, 6), (29, 29), (13, 17), (13, 18)]

/-- The supplies of the interior (R591): bit of SupplyStatus, row, first and last column. VDD_CORE has its own rule. -/
def supplyRuns : List (Nat × Nat × Nat × Nat) := [
  (3, 9, 6, 29), (1, 12, 12, 25), (4, 18, 10, 11), (4, 22, 10, 11), (4, 23, 10, 11), (5, 14, 11, 11), (5, 17, 10, 11),
  (6, 21, 27, 28), (7, 16, 26, 29), (7, 18, 26, 29), (7, 14, 28, 28), (7, 15, 28, 28), (7, 17, 28, 28), (7, 19, 28, 28),
  (8, 24, 6, 7)]

/-- A leg of a port of an edge whose first port is `first`: `line` is the place across the edge, `pos` along it. -/
def lanePlace (first tx rx line pos : Nat) : Option Ball :=
  if 5 ≤ pos ∧ pos < 29 ∧ (pos - 5) % 3 < 2 ∧ (line = tx ∨ line = rx) then
    some (.lane (first + (pos - 5) / 3) (line == rx) ((pos - 5) % 3 == 1))
  else none

/-- The lane clocks (R588): row and column of the _P and _N legs. -/
def laneClocks : List (Nat × Nat × Nat × Bool) := [
  (2, 30, 0, false), (2, 31, 0, true), (3, 32, 1, false), (3, 33, 1, true), (33, 30, 2, false), (33, 31, 2, true),
  (29, 2, 3, false), (29, 3, 3, true)]

/-- A ball of the lane ring (R588). -/
def ringBall (row col : Nat) : Ball :=
  if row = 1 ∨ row = 34 ∨ col = 1 ∨ col = 34 then .supply 2
  else match laneClocks.find? fun c => c.1 == row && c.2.1 == col with
    | some c => .laneClock c.2.2.1 c.2.2.2
    | none =>
      ((lanePlace 0 2 4 row col).orElse fun _ => (lanePlace 8 33 31 col row).orElse fun _ =>
        (lanePlace 16 33 31 row col).orElse fun _ => lanePlace 24 2 4 col row).getD .vss

/-- A ball of the interior (R589, R591). -/
def innerBall (row col : Nat) : Ball :=
  match signalRuns.find? fun r => r.1 == row && decide (r.2.1 ≤ col) && decide (col < r.2.1 + r.2.2.length) with
  | some r => .signal (r.2.2.getD (col - r.2.1) "")
  | none =>
    if reservedBalls.contains (row, col) then .reserved
    else match supplyRuns.find? fun r => r.2.1 == row && decide (r.2.2.1 ≤ col) && decide (col ≤ r.2.2.2) with
      | some r => .supply r.1
      | none => if 14 ≤ row ∧ row ≤ 29 ∧ 13 ≤ col ∧ col ≤ 25 ∧ col % 2 = 1 then .supply 0 else .vss

/-- What the ball of a row and column carries, both from 1 to 34 (R587). -/
def ballAt (row col : Nat) : Ball :=
  if row ≤ 5 ∨ 30 ≤ row ∨ col ≤ 5 ∨ 30 ≤ col then ringBall row col else innerBall row col

/-! ### Levels of outputs (R109, R589, R590, R594) -/

/-- An IRIG-B frame is in the active part of one of its elements. -/
def irigHigh (s : State) (p : Nat) : Bool :=
  match (s.tp p).lastEdge with
  | some g =>
    let d := s.time.now - g
    let e := s.out.tod.frame.getD (d / (10 * MS)) 3
    decide (e < 3) && decide (d % (10 * MS) < (if e = 0 then 2 else if e = 1 then 5 else 8) * MS)
  | none => false

/-- TP output `p` is high; none while it is not driven. Before the P objects load it is inactive, by the copy of Polarity. -/
def tpLevel (s : State) (p : Nat) : Option Bool :=
  let t := s.tp p
  if s.out.undriven || !bankUp s 1 then none
  else if !s.out.loaded then some (bit s.out.polarity p)
  else some ((t.active && (!t.irig || irigHigh s p)) != (t.polarity != 0))

/-- CTO output `o` is high; none while it is not driven. -/
def ctoLevel (s : State) (o : Nat) : Option Bool :=
  if s.out.undriven || !bankUp s 1 then none
  else some ((s.out.loaded && s.getB (K.timerOutput_OutLevel o)) != bit s.out.polarity (4 + o))

/-- DWSEL0 to DWSEL4, as a number; none while they are not driven. -/
def dwselLevel (s : State) : Option Nat :=
  if s.out.undriven || !bankUp s 2 then none else some (s.reader.pos % 32)

/-- TOD_TX is idle, at its high level. -/
def todIdle (s : State) : Bool := !(s.out.tod.busyUntil.any fun t => decide (s.time.now < t))

/-- Clock output `c` is stopped low: _P low and _N high (R109). -/
def ckoLow (s : State) (c : Nat) : Bool := s.get (K.clockOut_ClockState c) != 2

end Sys2Proof.Machine
end

