-- ==== Sys2Proof/WellFormed.lean ====
section
/-!
DEFINITION. Well-formed commands: every operand lies in the range the spec gives what it names. A core is one of 4, a slot
one of 512, a port one of 32, a timer one of 16, a byte lies below 256, an index has 16 bits and a subindex 8. An operand
that is a measurement, an instant or a count has no bound of this kind.
-/

namespace Sys2Proof

/-- Every number of a list lies below a bound. -/
def allBelow (n : Nat) (l : List Nat) : Bool := l.all fun b => decide (b < n)

/-- A list of bytes. -/
def bytesOk (l : List Nat) : Bool := allBelow 256 l

/-- An access (R401): a key slot is one of 16 (R403), a device address lies below 4095 (R327), a TAG or core is a byte. -/
def Ctx.wf (c : Ctx) : Bool :=
  (match c.slot with | none => true | some k => decide (k < 16)) && decide (c.source < 4095) && decide (c.tag < 256)

/-- An instruction is issued by one of the four cores (R25). -/
def Issue.wf (i : Issue) : Bool := decide (i.core < 4)

/-- What a power-up finds: six straps, cores, slots, ports and chains that exist, nine supplies, three banks. -/
def StartIn.wf (i : StartIn) : Bool :=
  decide (i.straps < 64) && allBelow 4 i.cores && allBelow 512 i.slots && allBelow 32 i.ports && allBelow 4 i.chains
    && decide (i.supplies < 512) && decide (i.banks < 64)

/-- What a tick edge measures: readings for four chains and two antenna inputs, launches of ports that exist. -/
def TickIn.wf (i : TickIn) : Bool :=
  decide (i.chains.length = 4) && decide (i.bias.length = 2) && allBelow 32 (i.launches.map (·.1))

/-- A command is well formed. -/
def Instr.wf : Instr → Bool
  | .tick i | .nop i | .wait i | .rts i | .rti i | .ei i | .di i | .mov i | .ld i | .st i | .ldi i | .ldis i | .lea i
  | .add i | .adc i | .sub i | .sbc i | .cmp i | .neg i | .abs i | .and i | .or i | .xor i | .andn i | .not i | .tst i
  | .asl i | .asr i | .lsl i | .lsr i | .btst i | .bset i | .bclr i | .btgl i | .norm i | .min i | .max i | .maxx i
  | .minx i | .addd i | .adcd i | .subd i | .sbcd i | .mul i | .imul i | .umul i | .mpy i | .mac i | .msc i | .mpyr i
  | .macr i | .imac i | .aadd i | .asub i | .amov i | .aneg i | .aabs i | .aclr i | .acmp i | .rnd i | .asat i | .ash i
  | .aget i | .agets i | .agetr i | .maxm i | .minm i | .maxam i | .b i | .jmp i | .call i | .jmpr i | .callr i
  | .loop i | .loopr i | .rep i .. | .push i | .pop i | .fadd i | .fsub i | .fmul i | .fdiv i | .fsqrt i | .fneg i
  | .fabs i | .fmov i | .fcmp i | .fitof i | .futof i | .fftoi i | .fqtof i | .fftoq i | .fatof i | .fftoa i | .fld i
  | .fst i | .wakeRetry i .. | .powerUp _ i .. | .rstN _ i .. | .warmReset i .. | .coldReset i
  | .undefinedInstruction i => i.wf
  | .dumpReady | .budgetDeadline | .hardStop | .userBudgetExhausted .. | .userHardStop .. | .shedStep
  | .taskMigration .. | .status .. | .fetch .. | .sourceLost | .step | .reseed .. | .reseedTimeout ..
  | .referenceLost .. | .referenceReturning .. | .referenceValid .. | .todMessage .. | .irigBFrame ..
  | .calibrationStart | .calStepComplete .. | .calibrationEnd | .spectrumAveragingStart | .spectrumEntry ..
  | .antennaSwitch | .antennaRevert | .laneRunStart .. | .handoffLoad | .noSlot | .autoListRefill ..
  | .measurementEpoch .. | .solution .. | .solutionSkipped | .leapApplied | .lsa .. | .lsaRefresh .. | .lsaExpiry ..
  | .rootElection .. | .routeCompute .. | .networkFrameForward .. | .join .. | .joinResend .. | .grant ..
  | .txnRequest .. | .txnReply .. | .txnResend .. | .message .. | .messageAck .. | .messageResend .. | .keeperHeld ..
  | .keeperRelease .. | .keeperTakeover .. | .messageDelivery .. | .receiveRecordFree .. | .streamData ..
  | .streamOpen .. | .streamOpenAck .. | .streamAck .. | .streamClose .. | .streamReset .. | .streamResend ..
  | .fscopePropose .. | .fscopePrepare .. | .fscopeReady .. | .fscopeReadyDeadline .. | .fscopeCommit ..
  | .fscopeAbort .. | .fscopeApply | .fscopeFetch .. | .fscopeValue .. | .fscopeLost .. | .lakeEpoch .. | .report ..
  | .ensembleEpoch .. | .estimate .. | .estimateLoss .. | .replica .. | .actingTakeover .. | .cvObs .. | .neighbours ..
  | .sightings .. | .lakeEphemeris .. | .symbols .. | .subscribe .. | .subscribeRenew .. | .rank ..
  | .twoPartyExpired .. | .userEntry .. | .synthLock .. | .synthLockTimeout .. | .synthCalDone .. | .synthBusy ..
  | .fieldTimeout .. | .hardwareFieldTimeout .. | .dutyLimit .. | .responseTimeout .. | .cardDetectBurst ..
  | .delayScan .. | .entryAttempt .. | .regulatorTimeout .. | .refLate | .oasisBurst .. | .oasisBurstEnd ..
  | .levelFail .. | .watchdog | .firmwareStart | .bootWaitExpiry | .pllLock | .pObjectsLoaded ..
  | .keeperHeldTimeout .. | .subscriptionExpiry .. | .sightingExpiry .. | .epochStreamAppend | .flashWriteComplete ..
  | .trstN .. | .tapClock .. => true
  | .tickDone core .. | .interruptEntry core .. | .mailboxSend core .. | .tickNow core .. | .dauGo core ..
  | .dauDone core .. => decide (core < 4)
  | .read c index sub_ len | .streamRead c index sub_ len | .describe c index sub_ len =>
    c.wf && decide (index < 65536) && decide (sub_ < 256) && decide (len < 65536)
  | .write c index sub_ b_ | .fabricScopeWrite c index sub_ b_ =>
    c.wf && decide (index < 65536) && decide (sub_ < 256) && bytesOk b_
  | .snapshot c index len => c.wf && decide (index < 65536) && decide (len < 65536)
  | .writeRecord c index b_ => c.wf && decide (index < 65536) && bytesOk b_
  | .mspiTransfer b_ .. => bytesOk b_
  | .hostRequest f .. => bytesOk f
  | .pondseed c v => c.wf && decide (v < 79228162514264337593543950336)
  | .timePulseEdge p .. | .pulseWidthEnd p => decide (p < 4)
  | .clockRealign c .. | .phaseResidualMeasure c .. => decide (c < 2)
  | .antennaShort a .. | .shortTrial a .. | .antennaSupplyLow a .. | .supplyLowCleared a .. | .antennaOpen a ..
  | .openCleared a .. | .surveyRestart a => decide (a < 2)
  | .agcBaselineLearned c | .notchSpectrum c .. | .loUnlock c .. | .chainFaultRetry c => decide (c < 4)
  | .calRequest c v | .scanCommand c v => c.wf && decide (v < 256)
  | .passDecision l .. => decide (l < 8)
  | .verification l powers _ => decide (l < 8) && decide (powers.length = 9)
  | .dumpLatch n .. | .loopUpdate n .. | .slotStateChange n | .pullInFailed n | .lostTimeout n
  | .aidedWindowUpdate n .. | .parityFault n .. | .slotRetired n | .crossCorrDrop n | .histogramRestart n
  | .predictedBlock n .. => decide (n < 512)
  | .release c n => c.wf && decide (n < 512)
  | .decodeComplete d .. => decide (d < 5)
  | .ephemerisExpired e => decide (e < 256)
  | .hostLeap c b_ | .launchSubmit c b_ | .remoteRequest c b_ | .messageSubmit c b_ | .propose c b_ | .confirm c b_
  | .fieldOn c b_ | .fieldOff c b_ | .transceive c b_ | .inventory c b_ | .imageWrite c b_ => c.wf && bytesOk b_
  | .asymCalPeriod n .. | .signalDetect n | .trainingComplete n .. | .autoModeSwitch n .. | .trainFail n ..
  | .trainRetry n .. | .los n .. | .ackTimeout n .. | .timingRecordPosted n .. | .linkMissing n | .errorSecond n ..
  | .degradedRecovery n | .syncInterval n .. | .announceInterval n .. | .delayReqInterval n ..
  | .announceReceiptTimeout n .. | .sync n .. | .followUp n .. | .delayReq n .. | .delayResp n .. | .pdelayReq n ..
  | .pdelayResp n .. | .announce n .. | .frameLaunch n .. | .ethernetFrameReceived n => decide (n < 32)
  | .hello n frame | .linkData n frame .. | .linkAck n frame .. | .nak n frame .. | .timingFrame n frame .. =>
    decide (n < 32) && bytesOk frame
  | .retrain c n => c.wf && decide (n < 32)
  | .channelOpen c k | .channelClose c k => c.wf && decide (k < 64)
  | .channelBroken k .. => decide (k < 64)
  | .keeperHold dest .. => decide (dest < 4095)
  | .cancel c id => c.wf && decide (id < 65536)
  | .cardPoll _ select answer challenge .. => bytesOk select && bytesOk answer && bytesOk challenge
  | .pendingResultWrite core dest => decide (core < 4) && decide (dest < 5)
  | .ncoCommit core _ n .. => decide (core < 4) && decide (n < 512)
  | .ringHead core _ ring .. | .descriptorComplete core ring .. => decide (core < 4) && decide (ring < 2)
  | .selfCheck failed .. => allBelow 4 failed
  | .calibrate c | .powerModeSleep c | .powerModeDeep c | .powerModeOff c | .powerModeOasis c | .powerModeNone c
  | .resetWarm c | .resetCold c | .resetUpdate c | .imageBegin c | .imageRun c | .imageStoreAndRun c | .commission c
  | .operate c => c.wf
  | .readerFrameReceived f .. | .secondSof f .. => bytesOk f.bytes
  | .timerStart c n | .timerStartLateOk c n | .timerStop c n => c.wf && decide (n < 16)
  | .groupStart c mask => c.wf && decide (mask < 65536)
  | .countingBegins n .. | .underflow n .. => decide (n < 16)
  | .compareMatch n w .. => decide (n < 16) && decide (w < 2)
  | .ctoPulseEnd o .. => decide (o < 8)
  | .capture i .. | .timerPinEdge i .. => decide (i < 8)
  | .captureRead c i => c.wf && decide (i < 8)
  | .wake _ port .. => decide (port < 32)
  | .supplyDrop mask .. => decide (mask < 512)
  | .imageVerifyDone flash => bytesOk flash
  | .siltRecordRead c r => c.wf && decide (r < 5)
  | .groupReferenceValid k => decide (k < 4)
  | .supplyReturn mask banks => decide (mask < 512) && decide (banks < 64)

end Sys2Proof
end

