-- ==== Sys2Proof/Tests/Slice0.lean ====
section
/-!
SUPPORT. Tests: a check of each bound of WellFormed, a concrete state and operands for the hypotheses of every statement, and
single steps whose results the spec or a hand calculation from it gives.
-/

set_option Elab.async false

namespace Sys2Proof.Tests

open Sys2Proof.Machine

/-! ### States the tests start from -/

/-- A core that runs, at the words its test places. -/
def core : CoreSt := { CoreSt.reset with running := true, pcx := 0x100 }

/-- Firmware runs (OPERATE) at the edge of a tick, 1000 s after the start: every core runs, Pond time stands at 1000 s. -/
def run : State :=
  { (State.reset.set K.deviceState 2) with
    time := { TimeSt.reset with running := true, now := 1000 * SEC, t0 := 1000 * SEC, tick := 1000000, ms := 1000000,
                                refOk := true, refSince := 0 },
    cpu := { CoresSt.reset with core := .replicate 4 core },
    power := { PowerSt.reset with phase := .run } }

/-- The same with another core 0. -/
def withCore (k : CoreSt) : State := run.modCore 0 fun _ => k

/-- An instruction of core 0. -/
def issue (w : Word) (x : Word := 0) : Issue := ⟨0, w, x, 0⟩

/-- A condition on every element of a list. -/
def holds {α : Type} (l : List α) (p : α → Prop) [DecidablePred p] : Bool := l.all fun a => decide (p a)

theorem run_inv : run.Inv := by decide +kernel

/-! ### Words of the Vuvan instructions (R457, R458) -/

/-- A word of a major and its other bits. -/
def word (major rest : Nat) : Word := BitVec.ofNat 24 (major * 2 ^ 18 + rest)
/-- Format R3. -/
def r3 (d a b minor : Nat) : Word := word 0x08 (d * 2 ^ 14 + a * 2 ^ 10 + b * 2 ^ 6 + minor)
/-- Format R2I. -/
def r2i (d a minor : Nat) : Word := word 0x09 (d * 2 ^ 14 + a * 2 ^ 10 + minor * 2 ^ 4)
/-- Format A. -/
def accW (ad as_ ga gb minor : Nat) : Word := word 0x0C (ad * 2 ^ 16 + as_ * 2 ^ 14 + ga * 2 ^ 10 + gb * 2 ^ 6 + minor)
/-- Format F. -/
def fpW (d a b minor : Nat) : Word := word 0x20 (d * 2 ^ 16 + a * 2 ^ 14 + b * 2 ^ 12 + minor)
/-- Format FC. -/
def fcvW (f a g minor : Nat) : Word := word 0x21 (f * 2 ^ 16 + a * 2 ^ 14 + g * 2 ^ 10 + minor)
/-- Format M, and others with a register code in bits 17 to 11. -/
def regW (major code rest : Nat) : Word := word major (code * 2 ^ 11 + rest)

/-- Core 0 with G0 and G1, at word 0x100. -/
def withG (a b : Word) : State := withCore { core with g := vecMod (vecMod core.g 0 fun _ => a) 1 fun _ => b }

/-! ### Witnesses: instructions -/

theorem witness_AddSubtractCompare :
    (holds [(r3 2 0 1 0, Alu.add), (r3 2 0 1 1, .adc), (r3 2 0 1 2, .sub), (r3 2 0 1 3, .sbc), (r3 0 0 1 4, .cmp), (r3 2 0 0 5, .neg),
      (r3 2 0 0 6, .abs)] fun p => Ready (withG 0x7FFFFF 1) (issue p.1) (.alu p.2 false)) ∧
    (∀ p ∈ [(r2i 2 0 0, Alu.add), (r2i 2 0 1, .adc), (r2i 2 0 2, .sub), (r2i 2 0 3, .sbc), (r2i 0 0 4, .cmp)],
      Ready (withG 0x800000 0) (issue p.1 0xFFFFFF) (.alu p.2 true)) := by decide +kernel

theorem witness_LogicalOperations :
    (holds [(r3 2 0 1 8, Alu.and), (r3 2 0 1 9, .or), (r3 2 0 1 10, .xor), (r3 2 0 1 11, .andn), (r3 2 0 0 12, .not),
      (r3 0 0 1 13, .tst)] fun p => Ready (withG 0xFF00FF 0x0F0F0F) (issue p.1) (.alu p.2 false)) ∧
    (∀ p ∈ [(r2i 2 0 8, Alu.and), (r2i 2 0 9, .or), (r2i 2 0 10, .xor), (r2i 2 0 11, .andn), (r2i 0 0 13, .tst)],
      Ready (withG 0xFF00FF 0) (issue p.1 0x0F0F0F) (.alu p.2 true)) := by decide +kernel

theorem witness_Shifts :
    (holds [(0 : Word), 24, 25, 63] fun n => ∀ p ∈ [(r3 2 0 1 16, Alu.asl), (r3 2 0 1 17, .asr), (r3 2 0 1 18, .lsl), (r3 2 0 1 19, .lsr)],
      Ready (withG 0x800001 n) (issue p.1) (.alu p.2 false)) ∧
    (∀ p ∈ [(r2i 2 0 16, Alu.asl), (r2i 2 0 17, .asr), (r2i 2 0 18, .lsl), (r2i 2 0 19, .lsr)],
      Ready (withG 0x800001 0) (issue p.1 1) (.alu p.2 true)) := by decide +kernel

theorem witness_BitsNormMinMax :
    (holds [(0 : Word), 23, 24, 31] fun n => ∀ p ∈ [(r3 0 0 1 0x18, Alu.btst), (r3 2 0 1 0x19, .bset), (r3 2 0 1 0x1A, .bclr),
      (r3 2 0 1 0x1B, .btgl), (r3 2 0 0 0x1C, .norm), (r3 2 0 1 0x20, .min), (r3 2 0 1 0x21, .max)],
      Ready (withG 0xFFFFFF n) (issue p.1) (.alu p.2 false)) ∧
    (holds [(r2i 0 0 0x18, Alu.btst), (r2i 2 0 0x19, .bset), (r2i 2 0 0x1A, .bclr), (r2i 2 0 0x1B, .btgl), (r2i 2 0 0x20, .min),
      (r2i 2 0 0x21, .max)] fun p => Ready (withG 1 0) (issue p.1 23) (.alu p.2 true)) := by decide +kernel

theorem witness_PackedDecimal :
    (holds [(0x000000 : Word), 0x999999, 0x00000A] fun b => holds [(r3 2 0 1 0x28, Alu.addd), (r3 2 0 1 0x29, .adcd), (r3 2 0 1 0x2A, .subd),
      (r3 2 0 1 0x2B, .sbcd)] fun p => Ready (withG 0x123456 b) (issue p.1) (.alu p.2 false)) ∧
    (∀ j < 6, (0x999999 : Word).toNat / 16 ^ j % 16 ≤ 9) ∧ ¬ (∀ j < 6, (0x00000A : Word).toNat / 16 ^ j % 16 ≤ 9) ∧
    (∀ p ∈ [(r2i 2 0 0x28, Alu.addd), (r2i 2 0 0x29, .adcd), (r2i 2 0 0x2A, .subd), (r2i 2 0 0x2B, .sbcd)],
      Ready (withG 0x999999 0) (issue p.1 1) (.alu p.2 true)) := by decide +kernel

theorem witness_Products :
    (holds [(0x800000 : Word), 0x7FFFFF] fun a => ∀ p ∈ [(r3 0 0 1 0x30, Alu.mul), (r3 0 0 1 0x31, .imul), (r3 0 0 1 0x32, .umul)],
      Ready (withG a 0x800000) (issue p.1) (.alu p.2 false)) ∧
    (∀ p ∈ [(r2i 0 0 0x30, Alu.mul), (r2i 0 0 0x31, .imul), (r2i 0 0 0x32, .umul)],
      Ready (withG 3 0) (issue p.1 5) (.alu p.2 true)) := by decide +kernel

/-- G2 holds the running extreme: it is beaten by 6 for MAXX and not by 5, and the other way round for MINX. -/
theorem witness_SearchWithIndex :
    let s (a : Word) := withCore { core with g := vecMod (vecMod core.g 0 fun _ => a) 2 fun _ => 5 }
    (holds [(5 : Word), 6, 4] fun a => ∀ p ∈ [(r3 2 0 1 0x22, Alu.maxx), (r3 2 0 1 0x23, .minx)],
      Ready (s a) (issue p.1) (.alu p.2 false)) ∧
    (holds [(r2i 2 0 0x22, Alu.maxx), (r2i 2 0 0x23, .minx)] fun p => Ready (s 6) (issue p.1 0x1000) (.alu p.2 true)) := by
  decide +kernel

theorem witness_AccumulatorWrites :
    ∀ p ∈ [(accW 0 0 0 1 0, AccOp.mpy), (accW 0 0 0 1 1, .mac), (accW 0 0 0 1 2, .msc), (accW 0 0 0 1 3, .mpyr), (accW 0 0 0 1 4, .macr),
      (accW 0 0 0 1 5, .imac), (accW 0 3 0 0 8, .aadd), (accW 0 3 0 0 9, .asub), (accW 0 3 0 0 10, .amov), (accW 0 3 0 0 11, .aneg),
      (accW 0 3 0 0 12, .aabs), (accW 3 0 0 0 13, .aclr), (accW 0 3 0 0 16, .rnd), (accW 0 3 0 0 17, .asat), (accW 0 3 0 0 18, .ash)],
      Ready (withG 0x800000 0x800000) (issue p.1) (.acc p.2) := by decide +kernel

theorem witness_AccumulatorReads :
    ∀ p ∈ [(accW 0 3 0 0 14, AccOp.acmp), (accW 0 3 15 0 0x14, .aget), (accW 0 3 15 0 0x15, .agets), (accW 0 3 15 0 0x16, .agetr)],
      Ready (withG 0 0) (issue p.1) (.acc p.2) := by decide +kernel

/-- FDIV and FSQRT with the unit idle, and while a division due 10 cycles later is in progress. -/
theorem witness_FloatingPoint :
    (holds [(fpW 3 0 1 0, FOp.fadd), (fpW 3 0 1 1, .fsub), (fpW 3 0 1 2, .fmul), (fpW 3 0 1 3, .fdiv), (fpW 3 0 0 4, .fsqrt),
      (fpW 3 0 0 5, .fneg), (fpW 3 0 0 6, .fabs), (fpW 3 0 0 7, .fmov)] fun p => Ready (withG 0 0) (issue p.1) (.fp p.2)) ∧
    ((withG 0 0).found (issue 0)).fbusy = false ∧
    (let e : Exposed := ⟨2, 0x3FF0000000000000, 10, 0, 0x0FF, true⟩
     let s := withCore { core with exposed := [e] }
     (holds [(fpW 3 0 1 3, FOp.fdiv), (fpW 3 0 0 4, .fsqrt)] fun p => Ready s (issue p.1) (.fp p.2)) ∧
       (s.found (issue 0)).exposed.filter (fun e => e.busy) = [e] ∧ (s.found (issue 0)).cyc ≤ e.due) := by decide +kernel

/-- The number is a NaN (R478). -/
def isNan (x : FReg) : Bool := x.toNat / 2 ^ 52 % 2048 == 2047 && x.toNat % 2 ^ 52 != 0

/-- A quiet and a signalling NaN, and equal numbers. -/
theorem witness_FloatCompare :
    isNan 0x7FF8000000000000 = true ∧ BitVec.getLsbD (0x7FF8000000000000 : FReg) 51 = true ∧ isNan 0x7FF0000000000001 = true ∧
      BitVec.getLsbD (0x7FF0000000000001 : FReg) 51 = false ∧ isNan 0x3FF0000000000000 = false ∧
      (holds [0x7FF8000000000000, 0x7FF0000000000001, 0x3FF0000000000000] fun x =>
        Ready (withCore { core with f := vecMod core.f 0 fun _ => BitVec.ofNat 64 x }) (issue (fpW 0 0 0 8)) (.fp .fcmp)) := by
  decide +kernel

/-- 1 over 0, and the root of −1. -/
theorem witness_FloatResults :
    let finite (x : FReg) : Bool := decide (x.toNat / 2 ^ 52 % 2048 ≠ 2047)
    finite 0x3FF0000000000000 = true ∧ (0x3FF0000000000000 : FReg).toNat % 2 ^ 63 ≠ 0 ∧ (0x8000000000000000 : FReg).toNat % 2 ^ 63 = 0 ∧
      finite 0xBFF0000000000000 = true ∧ (0xBFF0000000000000 : FReg).msb = true ∧ (0xBFF0000000000000 : FReg).toNat % 2 ^ 63 ≠ 0 := by
  decide +kernel

theorem witness_Conversions :
    holds [(fcvW 3 0 15 0, FConv.fitof), (fcvW 3 0 15 1, .futof), (fcvW 3 0 15 2, .fftoi), (fcvW 3 0 15 3, .fqtof), (fcvW 3 0 15 4, .fftoq),
      (fcvW 3 3 0 5, .fatof), (fcvW 3 3 0 6, .fftoa)] fun p => Ready (withG 0 0) (issue p.1) (.fcv p.2) := by decide +kernel

theorem witness_RegisterCodes :
    ∀ c ∈ [0x00, 0x0F, 0x10, 0x2F, 0x30, 0x33, 0x34, 0x37, 0x38, 0x3B, 0x3C, 0x3F, 0x40, 0x41, 0x43, 0x44, 0x45, 0x48, 0x53],
      regListed c = true ∧ c ≠ 0x42 := by decide +kernel

/-- A word for each mode of R460, with J7 and where the mode has one M7, and a buffer of length 0 and of length 5. -/
theorem witness_AddressModes :
    (∀ m < 8, fld (BitVec.ofNat 24 (m * 64)) 8 6 = m) ∧
    (let k := { core with l := vecMod core.l 7 fun _ => 5 }
     (k.late [] (0x28 + fld (0x78 : Word) 5 3)).toNat = 5 ∧ (core.late [] (0x28 + fld (0x78 : Word) 5 3)).toNat = 0) := by
  decide +kernel

/-- MOV, LDI and LDIS to the last listed codes, to PCX, and LEA. -/
theorem witness_Moves :
    (holds [0x00, 0x44, 0x53] fun c => Ready run (issue (regW 0x01 c (0x44 * 16))) .mov ∧ Ready run (issue (regW 0x04 c 0) 7) .ldi ∧
      Ready run (issue (regW 0x05 c 0x7FF)) .ldis) ∧ OffLoopEnd run (issue 0) ∧
    (∃ k', ((run.found (issue 0)).passed 1 1).writeReg 0 0x53 0x123456 = .ok k') ∧
    Ready run (issue (word 0x06 (7 * 2 ^ 15 + 5 * 64)) 0xFFFFFF) .lea := by
  refine ⟨by decide +kernel, by decide +kernel, ⟨_, rfl⟩, by decide +kernel⟩

/-- Addresses at the ends of local memory and of shared memory, and in the timing windows. -/
theorem witness_MemoryReads :
    let free (a : Nat) : Bool := decide (plainRw (run.userMode 0) a = true ∨ 0x2F8000 ≤ a ∧ a ≤ 0x2F83FF)
    (holds [(0 : Word), 0xFFFF, 0x2F8000, 0x2F83FF] fun a => free a.toNat ∧ (run.found (issue 0 a)).ea [] 0x1C0 a = (a, none)) ∧
    Ready run (issue (regW 0x02 0x53 0x1C0) 0x2F83FF) .ld ∧ OffLoopEnd run (issue 0) ∧
    Ready run (issue (word 0x0E (2 * 2 ^ 14 + 0x1C0)) 0xFFFF) .maxm ∧ Ready run (issue (word 0x0E (2 * 2 ^ 14 + 0x1000 + 0x1C0)) 0) .minm ∧
    Ready run (issue (word 0x0E (2 * 2 ^ 14 + 0x2000 + 0x1C0)) 0) .maxam ∧ Ready run (issue (word 0x22 (3 * 2 ^ 16 + 0x1C0)) 0xFFFD) .fld ∧
    free 0xFFFD ∧ free 0xFFFE := by decide +kernel

theorem witness_MemoryWrites :
    let free (a : Word) : Bool := plainRw (run.userMode 0) a.toNat
    run.cpu.MemOk ∧ Ready run (issue (regW 0x03 0x53 0x1C0) 0xFFFF) .st ∧ free 0xFFFF ∧ free 0 ∧
      Ready run (issue (word 0x23 (3 * 2 ^ 16 + 0x1C0)) 0xFFFD) .fst ∧ free 0xFFFD ∧ free 0xFFFE := by decide +kernel

/-- SP at both ends of the stack. -/
theorem witness_PushPop :
    let s (sp : Word) := withCore { core with sp := sp, stackLow := 0xE000 }
    (holds [(0xE001 : Word), 0x10000] fun sp => Ready (s sp) (issue (regW 0x18 0x53 0)) .push ∧
      plainRw false (sp - 1).toNat = true ∧ ((s sp).found (issue 0)).stackLow.toNat ≤ (sp - 1).toNat) ∧
    (holds [(0xE000 : Word), 0xFFFF] fun sp => Ready (s sp) (issue (regW 0x18 0x53 1)) .pop ∧ plainRw false sp.toNat = true ∧
      sp.toNat < ((s sp).found (issue 0)).stackHigh.toNat ∧ OffLoopEnd (s sp) (issue 0)) ∧
    (∃ k', ({ ((s 0xFFFF).found (issue 0)).passed 1 1 with sp := 0x10000 } : CoreSt).writeReg 0 0x53 0 = .ok k') := by
  refine ⟨by decide +kernel, by decide +kernel, ⟨_, rfl⟩⟩

theorem witness_Branches :
    OffLoopEnd run (issue 0) ∧ (∀ c < 16, Ready run (issue (word 0x10 (c * 2 ^ 14 + 0x3FFF))) .b ∧
      Ready run (issue (word 0x11 (c * 2 ^ 14)) 0xFFFF) .jmp ∧ Ready run (issue (word 0x13 (c * 2 ^ 10))) .jmpr) := by decide +kernel

/-- A call taken and not taken; RTS and RTI with their words on the stack. -/
theorem witness_CallsAndReturns :
    let s := withCore { core with sp := 0xFFFE, stackLow := 0xE000 }
    OffLoopEnd s (issue 0) ∧ Ready s (issue (word 0x12 0) 0x200) .call ∧ Ready s (issue (word 0x13 1)) .callr ∧
      condHolds 0 (s.found (issue 0)).stRead = true ∧ condHolds 1 (s.found (issue 0)).stRead = false ∧
      plainRw false 0xFFFD = true ∧ (0xE000 : Word).toNat ≤ (0xFFFD : Word).toNat ∧
      Ready s (issue 2) .rts ∧ Ready s (issue 3) .rti ∧ plainRw false 0xFFFE = true ∧ plainRw false 0xFFFF = true ∧
      (0xFFFF : Word).toNat < (s.found (issue 0)).stackHigh.toNat ∧ stUser (s.found (issue 0)).st = false := by decide +kernel

/-- Loop depth 0, and at each depth the end of the innermost loop with a count of 1 and of 2. -/
theorem witness_NopAndLoopEnd :
    let s (d : Nat) (n : Word) := withCore { core with st := stSetLd 0 d, le := .replicate 4 0x100, lc := .replicate 4 n }
    Ready run (issue 4) .ei ∧ Ready run (issue 5) .di ∧ Ready run (issue 0) .nop ∧ (run.found (issue 0)).shadow = [] ∧
      stLd (run.found (issue 0)).st = 0 ∧
      (∀ d : Fin 4, holds [(1 : Word), 2] fun n => Ready (s (d.val + 1) n) (issue 0) .nop ∧
        stLd ((s (d.val + 1) n).found (issue 0)).st = d.val + 1 ∧ ((s (d.val + 1) n).found (issue 0)).shadow = [] ∧
        ((s (d.val + 1) n).found (issue 0)).le[d] = ((s (d.val + 1) n).found (issue 0)).pcx) ∧
      (withCore { core with st := stSetLd 0 1 }).core 0 ≠ core ∧
      ((withCore { core with st := stSetLd 0 1 }).found (issue 0)).le[0] ≠ core.pcx := by decide +kernel

/-- LOOP with a count of 4095 and of 0, LOOPR with 1 and 0, at depths 0 and 3. -/
theorem witness_Loops :
    holds [0, 3] fun d => OffLoopEnd (withCore { core with st := stSetLd 0 d, g := vecMod core.g 0 fun _ => 1 }) (issue 0) ∧
      (holds [0, 4095] fun n => Ready (withCore { core with st := stSetLd 0 d }) (issue (word 0x14 (n * 64)) 0x110) .loop) ∧
      Ready (withCore { core with st := stSetLd 0 d, g := vecMod core.g 0 fun _ => 1 }) (issue (word 0x15 0) 0x110) .loopr ∧
      Ready (withCore { core with st := stSetLd 0 d }) (issue (word 0x15 0) 0x110) .loopr ∧
      stLd (stSetLd 0 d) = d := by decide +kernel

/-- REP with a count of 0 in NREP, and with 4095, before NOP; in the guard interval with a hard stop after 4094 of them. -/
theorem witness_Repeat :
    (holds [0, 4095] fun n => Ready run (issue (word 0x16 (n * 64))) .rep) ∧ OffLoopEnd run (issue 0) ∧ canFetch false 0x101 = true ∧
      vDecode 0 = some .nop ∧ vResv .nop 0 = false ∧ vNoRepeat .nop 0 = false ∧ (run.found (issue 0)).nrep = 0 ∧
      (run.found (issue 0)).exposed = [] ∧ stLd (run.found (issue 0)).st = 0 ∧
      (let s := { run with cpu := { run.cpu with guard := true } }
       Ready s (issue (word 0x16 (4095 * 64))) .rep ∧ OffLoopEnd s (issue 0) ∧ s.cpu.hard = false ∧ s.cpu.guard = true ∧
        (s.found (issue 0)).waited = false ∧ (s.found (issue 0)).exposed = []) := by decide +kernel

theorem witness_Wait : Ready run (issue 1) .wait ∧ OffLoopEnd run (issue 1) := by decide +kernel

/-! ### Witnesses: entries, the words of a core's own area, rings -/

/-- Core 3 in USER mode. -/
def userRun : State := run.modCore 3 fun k => { k with st := stPut 0 12 true, pcx := 0x4100 }

/-- A word that no major gives, on a firmware core and in USER mode, with room on the stack and without. -/
theorem witness_UndefinedInstructions :
    run.Inv ∧ userRun.Inv ∧ (withCore { core with sp := 0 }).Inv ∧
    (holds [(run, 0), (userRun, 3), (withCore { core with sp := 0, stackLow := 1 }, 0)] fun p =>
      p.1.coreActive p.2 = true ∧ vDecode 0xFFFFFF = none ∧ (p.1.found ⟨p.2, 0xFFFFFF, 0, 0⟩).trapDue = false ∧
        canFetch (p.1.userMode p.2) (p.1.found ⟨p.2, 0xFFFFFF, 0, 0⟩).landed.pcx.toNat = true) ∧
    EntryRoom (run.found (issue 0xFFFFFF)).landed (run.userMode 0) ∧
    EntryRoom (userRun.found ⟨3, 0xFFFFFF, 0, 0⟩).landed (userRun.userMode 3) ∧
    (let k := ((withCore { core with sp := 0x8000, stackLow := 0x8000 }).found (issue 0xFFFFFF)).landed
     (k.sp - 1).toNat < k.stackLow.toNat) := by decide +kernel

/-- Each interrupt alone, all of them together, and DUMP_READY on core 3 in USER mode; IE set and clear. -/
theorem witness_InterruptEntries :
    let s (c : Nat) (st p : Word) := userRun.modCore c fun k => { k with st := st, intEnable := 0xFF, intPending := p }
    (holds [(0, 0x80, 0x08), (0, 0x80, 0x80), (0, 0x80, 0x10), (0, 0x80, 0x20), (0, 0x80, 0x40), (0, 0x80, 0xF8), (3, 0x1080, 0xF8),
        (2, 0, 0xF8)] fun p =>
      let t := s p.1 (BitVec.ofNat 24 p.2.1) (BitVec.ofNat 24 p.2.2)
      t.Inv ∧ p.1 < 4 ∧ t.clocked = true ∧ (t.core p.1).running = true ∧ t.get (K.coreTick_CoreState p.1) = 0 ∧
        EntryRoom (t.core p.1).landed (t.userMode p.1) ∧ (t.core p.1).landed.trapDue = false ∧
        stBit (t.core p.1).landed.st 7 = decide (p.2.1 ≠ 0)) ∧
    (s 3 0x1080 0xF8).userMode 3 = true ∧ (s 0 0x80 0x08).userMode 0 = false ∧
    (holds [3, 7, 4, 5, 6] fun v => ((s 0 0x80 0xF8).core 0).landed.intPending.getLsbD v = true) := by decide +kernel

/-- A product, an F register and an F register with a trap to take. -/
theorem witness_ResultWrites :
    holds [(⟨4, 6, 9, 0, 0xFF, false⟩ : Exposed), ⟨3, 0x3FF0000000000000, 9, 0, 0xFF, false⟩, ⟨0, 0, 9, 1, 0xFF, false⟩] fun e =>
      let s := withCore { core with exposed := [e], fpCtrl := 1 }
      s.Inv ∧ (s.core 0).exposed = e :: [] ∧ (s.core 0).trapDue = false ∧ s.coreActive 0 = true ∧
        EntryRoom (s.core 0) (s.userMode 0) := by decide +kernel

/-- The commands of a core's own area, at both ends of the words that NCO_COMMIT names, in and out of the guard interval. -/
theorem witness_WordActions :
    run.coreActive 0 = true ∧ run.userMode 0 = false ∧ (run.core 0).tickDone = false ∧ (0x80000F : Word).getLsbD 23 = true ∧
    (let s := { run with cpu := { run.cpu with userEnable := true, window := true } }
     s.coreActive 3 = true ∧ s.cpu.userEnable = true ∧ s.cpu.userEntered = false ∧ stUser (s.core 3).st = false ∧
      s.cpu.window = true ∧ s.cpu.migrated = none) ∧
    (let s := { run with cpu := { run.cpu with userEnable := true, window := true, migrated := some 100 } }
     ((s.modCore 3 fun k => { k with tickDone := true }).core 3).tickDone = true) := by decide +kernel

theorem witness_SpecialWords : run.userMode 0 = false ∧ run.userMode 3 = false ∧ (run.core 3).dauReq = none := by decide +kernel

/-- A request of core 0 and of core 3, and DeviceState read. -/
theorem witness_DictionaryAccessUnit :
    (run.core 0).dauReq = none ∧ bufferOk (run.userMode 0) (run.core 0).dauBuf.toNat (min (run.core 0).dauCap.toNat 1024) = true ∧
    (holds [0, 3] fun c =>
      let q : DauReq := ⟨1, 0x1010, 0, 0, 0x200, 64, false⟩
      let s := run.modCore c fun k => { k with dauReq := some q }
      let u := s.instant 0 0
      let x : Ctx := ⟨if c = 3 then .user else .firmware, none, 0, c, 0, 0⟩
      s.Inv ∧ engineTakes u x.path = true ∧ u.get (K.coreTick_CoreState c) ≠ 2 ∧ (u.core c).dauReq = some q ∧
        firstRefused (readRefusals u x 0x1010 0 0) = none ∧
        (findRow 0x1010 0).map (fun r => decide ((replyWords 1 0x1010 0 ⟨St.ok, toBytes r.ty.bytes (readValue u 0x1010 0)⟩).length
          ≤ q.cap)) = some true) := by decide +kernel

/-- A ring of four descriptors at 0x1000 whose first describes a launch of 1 byte, and of 1530. -/
def ringRun (n : Nat) : State :=
  withCore { core with
    ring0 := ⟨0x1000, 4, 0, 0, 0⟩,
    mem := [(0x1000, BitVec.ofNat 24 (0x800000 + n)), (0x1001, 0x2000)] }

theorem witness_DescriptorRings :
    (holds [1, 1530] fun n =>
      let s := ringRun n
      let q := (s.core 0).ring 0
      let w0 := (s.plainGet 0 (q.slot q.taken)).toNat
      s.coreActive 0 = true ∧ 2 ≤ q.size.toNat ∧ q.taken < q.size.toNat ∧ (1 : Word).toNat = (q.taken + 1) % q.size.toNat ∧
        bufferOk (s.userMode 0) (q.slot q.taken) 4 = true ∧ bit w0 23 = true ∧ bits w0 21 11 = 0 ∧ 0 < w0 % 2048 ∧ w0 % 2048 ≤ 1530 ∧
        bufferOk (s.userMode 0) (s.plainGet 0 (q.slot q.taken + 1)).toNat ((w0 % 2048 + 2) / 3) = true) ∧
    (launchRefuses run (List.replicate 1530 0) 1514).isSome = true ∧
    (let d : RingDone := ⟨0, 0, 3, 0, 7, none⟩
     let s : State := { withCore { core with ring0 := ⟨0x1000, 4, 0, 3, 0⟩, mem := [(0x100C, 0xC00001)] } with
      cpu := { (withCore { core with ring0 := ⟨0x1000, 4, 0, 3, 0⟩, mem := [(0x100C, 0xC00001)] }).cpu with ringDone := [d] } }
     s.Inv ∧ s.clocked = true ∧ s.cpu.ringDone = [d] ∧ bufferOk (s.userMode 0) (((s.core 0).ring 0).slot 3) 4 = true ∧
      bit (s.plainGet 0 (((s.core 0).ring 0).slot 3)).toNat 22 = true ∧ ((s.core 0).ring 0).tail.toNat = 3 ∧
      ((s.core 0).ring 0).taken = (3 + 1) % 4) := by decide +kernel

/-! ### Witnesses: the block as a whole, the tick -/

theorem witness_StepTakesFront : State.reset.pending = [] := by decide +kernel

theorem witness_StepKeepsInvariant : run.Inv ∧ ∃ t, step { run with pending := [.nop (issue 0)] } = .next t :=
  ⟨run_inv, _, rfl⟩

theorem witness_TimeBaseAndTestPort : run.Inv ∧ (∃ t, exec (.nop (issue 0)) run = .next t) ∧ ∃ t, exec (.tapClock true false) run = .next t :=
  ⟨run_inv, ⟨_, rfl⟩, _, rfl⟩

/-- The first edge in RUN, one in SLEEP, one after a wake before the PLL has relocked. -/
theorem witness_Tick :
    let s := { run with power := { run.power with phase := .sleep } }
    run.Inv ∧ run.time.running = true ∧ run.power.phase = .run ∧ run.power.waking = false ∧
      (run.core 3).running = true ∧ s.Inv ∧ s.time.running = true ∧ s.power.phase = .sleep ∧ s.power.burst = none ∧
      (let w := { run with power := { run.power with waking := true, wakeAt := run.elapsed } }
       w.Inv ∧ w.time.running = true ∧ w.power.phase = .run ∧ w.power.waking = true ∧
        (w.time.ms + 1) * MS < w.power.wakeAt + 2500 * US) := by decide +kernel

/-- Each instant of the window at its first moment. -/
theorem witness_BudgetWindow :
    let w := { run with cpu := { run.cpu with window := true } }
    let g := { run with cpu := { run.cpu with guard := true } }
    run.Inv ∧ run.clocked = true ∧ run.cpu.window = false ∧ run.cpu.guard = false ∧ run.time.now ≤ run.time.t0 + 2 * US ∧
      coreUp run 2 = true ∧ w.Inv ∧ w.cpu.window = true ∧ w.get (K.coreTick_CoreState 2) = 0 ∧ (w.core 2).waited = false ∧
      g.Inv ∧ g.cpu.guard = true ∧ g.cpu.hard = false ∧
      (let u := { (userRun.set K.tickBudget_UserBudgetGranted 10) with cpu := { userRun.cpu with userSince := some 0 } }
       u.Inv ∧ u.clocked = true ∧ u.coreActive 3 = true ∧ u.userMode 3 = true ∧ (u.core 3).budgetAt = none ∧
        u.get K.tickBudget_UserBudgetGranted * 125 ≤ (u.reach (u.time.t0 + 10 * US)).userTime) ∧
      (let u := userRun.modCore 3 fun k => { k with budgetAt := some 0 }
       u.Inv ∧ (u.core 3).budgetAt = some 0 ∧ coreUp u 3 = true ∧ u.get (K.coreTick_CoreState 3) = 0 ∧ u.userMode 3 = true ∧
        (u.core 3).waited = false ∧ 0 + 10 * US ≤ max u.time.now (u.time.t0 + 10 * US) - u.time.t0) := by decide +kernel

theorem witness_ShedMigrateRetire :
    (holds [0, 2] fun p =>
      let s := { ((run.set K.tickBudget_ShedPolicy p).set K.performance_LevelCeiling 3) with cpu := { run.cpu with shedDue := true } }
      s.Inv ∧ s.atEdge = true ∧ s.cpu.shedDue = true ∧ s.get K.tickBudget_ShedPolicy = p) ∧
    (let s := (run.set K.tickBudget_ShedPolicy 0).set K.performance_LevelApplied 2
     s.get K.performance_LevelApplied < s.get K.performance_LevelCeiling) ∧
    (let s := { (run.set (K.coreTick_CoreState 2) 2) with cpu := { run.cpu with toMove := 4 } }
     s.Inv ∧ s.atEdge = true ∧ s.inRun = true ∧ s.cpu.toMove ≠ 0 ∧ s.get (K.coreTick_CoreState 3) ≠ 2 ∧ firmwareCores s ≠ 3) ∧
    run.Inv ∧ run.clocked = true ∧ coreUp run 0 = true ∧ coreUp run 3 = true := by decide +kernel

/-! ### Witnesses: Pond time and its outputs -/

/-- LossDelay has passed in STEPPED, in LOCKED and, Recovering, in HOLDOVER; steps to a value and by an amount, of a re-seed and not;
re-seeds from each source, and one of 10 s; the reference. -/
theorem witness_PondTimeSources :
    (holds [1, 2, 3] fun v =>
      let s := { ((run.set K.timingState v).set K.pondTime_Recovering 1) with
        time := { run.time with lastUpdate := some (1000000 - run.get K.steering_LossDelay) } }
      s.Inv ∧ s.clocked = true ∧ s.fwUp = true ∧ s.firstDue = false ∧ s.get K.steering_LossDelay ≤ 1000000 ∧
        s.time.ms - (1000000 - s.get K.steering_LossDelay) = s.get K.steering_LossDelay ∧ s.timing = v ∧
        s.getB K.pondTime_Recovering = true) ∧
    (holds [(true, false), (false, true)] fun b =>
      let d : StepDue := ⟨b.1, 2000 * SEC, 1000000, .host, none, 0, b.2⟩
      let s := { run with time := { run.time with due := some d } }
      s.Inv ∧ s.time.due = some d ∧ s.atEdge = true ∧ d.notBefore ≤ s.time.ms ∧ s.fwUp = true) ∧
    (holds [0, 1, 2] fun v =>
      let r : Reseed := ⟨v, 5, run.elapsed - 10 * SEC, 1, none⟩
      let s := { run with
        time := { run.time with reseed := some r }, sol := { run.sol with good := some (run.elapsed, 7, 0, 50) },
        lake := { run.lake with est := some (9, 0, run.elapsed), estAt := some run.elapsed } }
      s.Inv ∧ s.time.reseed = some r ∧ s.time.due = none ∧ s.fwWorks = true ∧ r.source = v ∧ r.since < run.elapsed ∧
        (s.reach (s.time.t0 + 0)).elapsed ≤ r.since + 10 * SEC ∧ s.silt.queue.length < 64 ∧
        s.lake.estAt = some run.elapsed ∧ s.sol.good = some (run.elapsed, 7, 0, 50)) ∧
    (let r : Reseed := ⟨2, 5, run.elapsed - 10 * SEC, 1, none⟩
     let s := { run with time := { run.time with reseed := some r } }
     s.Inv ∧ s.time.reseed = some r ∧ r.logged = none ∧ s.time.due = none ∧ s.fwWorks = true ∧ r.source = 2 ∧
       r.since + 10 * SEC ≤ (s.reach (s.time.t0 + 0)).elapsed) ∧
    run.Inv ∧ run.inRun = true ∧ run.get K.reference_RefStatus = 0 ∧
    (holds [1, 2] fun v =>
      let s := run.set K.reference_RefStatus v
      s.Inv ∧ s.inRun = true ∧ s.get K.reference_RefStatus = v) ∧
    run.time.refOk = true ∧ 10000 ≤ run.time.ms - run.time.refSince := by decide +kernel

/-- The last output of each kind runs: TP3, CKO1, the message and the frame of second 1000. -/
def outRun : State :=
  { ((run.set (K.clockOut_ClockState 1) 1).set K.timeOfDay_TodEnable 1) with
    out := { OutSt.reset with
      loaded := true, cko := [⟨none, false⟩, ⟨some 0, false⟩],
      tp := [TpSt.reset, TpSt.reset, TpSt.reset, { TpSt.reset with from_ := some 0 }] } }

/-- The outputs at another instant. -/
def outAt (s : State) (t : Nat) : State := { s with time := { s.time with t0 := t, now := t } }

theorem witness_TimingOutputs :
    (holds [none, some 1] fun l =>
     let s := { outRun with out := { outRun.out with
        tp := [TpSt.reset, TpSt.reset, TpSt.reset, { TpSt.reset with from_ := some 0, lastEdge := l, fresh := true }] } }
     s.Inv ∧ s.time.running = true ∧ s.out.loaded = true ∧ (s.tp 3).irig = false ∧ (s.tp 3).from_ = some 0 ∧
      (s.tp 3).active = false ∧ SEC % ((s.tp 3).period * US) = 0 ∧ (s.tp 3).lastEdge = l ∧ (s.tp 3).fresh = true ∧
      SEC - 1 < (s.tp 3).period * US ∧
      s.out.tp.length = 4 ∧ (s.cko 1).from_ = some 0 ∧ s.get (K.clockOut_ClockState 1) = 1 ∧ s.get (K.clockOut_FreqDen 1) = 1) ∧
    (holds [0, 1] fun m =>
     let s := { (outRun.set (K.timePulse_Mode 3) m) with out := { outRun.out with
        tp := [TpSt.reset, TpSt.reset, TpSt.reset, { TpSt.reset with active := true, endsAt := 1000 * SEC }] } }
     s.Inv ∧ s.time.running = true ∧ (s.tp 3).endsAt < s.tickAhead ∧ (s.tp 3).active = true ∧ s.out.tp.length = 4) ∧
    (run.set (K.clockOut_ClockState 1) 2).get (K.clockOut_ClockState 1) = 2 ∧
    (let s := outAt outRun (1000 * SEC + outRun.get K.timeOfDay_TodLatency * MS)
     let l := 1000 * SEC + s.get K.timeOfDay_TodLatency * MS
     let m := zda (s.reach l) 1000
     s.inRun = true ∧ s.fwUp = true ∧ s.out.asleep = false ∧ s.out.undriven = false ∧ s.out.tod.resumeAt ≤ 1000 * SEC ∧
      s.get K.timeOfDay_TodEnable = 1 ∧ s.inTick l = true ∧
      s.get K.timeOfDay_TodLatency * MS + m.length * 10 * SEC / s.get K.timeOfDay_BaudRate < SEC) ∧
    (let s := { outRun with out := { outRun.out with
        tp := [TpSt.reset, TpSt.reset, TpSt.reset, { TpSt.reset with from_ := some 0, irig := true }] } }
     s.Inv ∧ s.time.running = true ∧ s.out.loaded = true ∧ (s.tp 3).irig = true ∧ (s.tp 3).active = false ∧
      (s.tp 3).from_ = some 0) := by
  decide +kernel

theorem inTick_outAt (s : State) (x : Int) (h : 0 ≤ x) : (outAt s x.toNat).inTick x = true := by
  unfold State.inTick
  exact decide_eq_true (by simp only [State.tickAhead, outAt, MS]; omega)

/-- Whatever the factory delays are, an output's instant can lie in the present tick: of a pulse, a clock, a frame. -/
theorem witness_TimingOutputs_instants :
    (∀ adv : Int, ∃ (k t : Nat), (outAt outRun t).inTick (((k * SEC : Nat) : Int) - adv) = true) ∧
    (∀ t, tpAdvance (outAt outRun t) 3 = tpAdvance outRun 3) ∧ ∀ t, ckoAdvance (outAt outRun t) 1 = ckoAdvance outRun 1 := by
  refine ⟨fun adv => ⟨adv.natAbs + 1, _, inTick_outAt outRun _ ?_⟩, fun t => ?_, fun t => ?_⟩
  · simp only [SEC]; omega
  · simp only [tpAdvance, slewFactory, State.getI, State.get, outAt]
  · simp only [ckoAdvance, State.getI, State.get, outAt]

/-! ### Witnesses: antennas, chains, search -/

/-- Both inputs, with internal bias, without and with each condition, at the bounds of the readings. -/
theorem witness_AntennaConditions :
    (holds [0, 1] fun a =>
      let s := { run with rx := { RxSt.reset with ant := .replicate 2 { AntSt.reset with bias := 1 } } }
      s.Inv ∧ (s.ant a).bias = 1 ∧ (s.ant a).short = false) ∧
    (let s := { run with rx := { RxSt.reset with ant := .replicate 2 { AntSt.reset with bias := 1, short := true, trialAt := 999 * SEC } } }
     s.Inv ∧ (s.ant 1).bias = 1 ∧ (s.ant 1).short = true ∧ SEC ≤ (s.reach (s.time.t0 + 0)).elapsed - (s.ant 1).trialAt ∧
      (s.ant 1).low = false ∧ (s.ant 1).opened = false) ∧
    (let s := run
     0 < s.get (K.antennaInput_CurrentLimit 1) ∧ 0 < s.get (K.antennaInput_OpenThreshold 1)) := by decide +kernel

/-- Chain 3 in each state that a clause asks for. -/
def rxRun (state : Nat) (c : ChainSt) (f : RxSt → RxSt) : State :=
  { (run.set (K.chain_ChainState 3) state) with rx := f { RxSt.reset with chain := vecMod RxSt.reset.chain 3 fun _ => c } }

theorem witness_ChainCalibration :
    (holds [1, 2, 3, 4] fun v =>
      let s := rxRun v ChainSt.reset id
      s.Inv ∧ s.inRun = true ∧ s.chainState 3 = v ∧ s.rx.run = none ∧ ((List.range 4).all fun e => !(s.chain e).urgent) = true) ∧
    (let r : CalRun := ⟨3, [2, 3], true, false, false, 0⟩
     let s := rxRun 2 ChainSt.reset fun x => { x with run := some r }
     s.Inv ∧ s.chainState 3 = 2 ∧ s.rx.run = some r) ∧
    (let s := rxRun 1 { ChainSt.reset with queued := 15 } fun x => { x with queue := [3] }
     s.Inv ∧ s.atEdge = true ∧ s.rx.run = none ∧ s.rx.queue = [3]) ∧
    (holds [(0, false, 0), (2, false, 2), (1, true, 0)] fun p =>
      let r : CalRun := ⟨3, [p.1], true, p.2.1, false, 0⟩
      let s := rxRun 2 { ChainSt.reset with failRuns := p.2.2 } fun x => { x with run := some r }
      s.Inv ∧ s.rx.run = some r ∧ r.steps = [p.1] ∧ r.disabled = p.2.1 ∧ (s.chain 3).failRuns = p.2.2 ∧
        r.since + stepTime p.1 ≤ (s.reach (s.time.t0 + 0)).elapsed ∧ (s.chain 3).powered = false ∧ s.chainState 3 ≠ 5) ∧
    (holds [true, false] fun b =>
      let r : CalRun := ⟨3, [], true, b, false, 0⟩
      let s := rxRun 2 ChainSt.reset fun x => { x with run := some r }
      s.Inv ∧ s.rx.run = some r ∧ s.atEdge = true ∧ r.since + settleTime ≤ s.elapsed ∧ s.rx.queue = [] ∧
        (s.chain 3).powered = false ∧ s.chainState 3 ≠ 5) ∧
    (let s := rxRun 4 { ChainSt.reset with powered := true, faultAt := 990 * SEC } id
     s.Inv ∧ s.chainState 3 = 4 ∧ (s.chain 3).powered = true ∧ (s.chain 3).queued = 0 ∧
      (s.chain 3).faultAt + 10 * SEC ≤ s.elapsed ∧ s.rx.queue = []) ∧
    (let s := rxRun 3 { ChainSt.reset with clean := 600000, gains := [(40, 600000)] } id
     s.Inv ∧ s.get (K.chain_AgcBaseline 3) = 0 ∧ 600000 ≤ (s.chain 3).clean) ∧
    (let s := ((rxRun 3 { ChainSt.reset with notch := vecMod ChainSt.reset.notch 0 fun n => { n with runs := [(100, 2)] } } id).set
        (K.notch_NotchMode 12) 2).set (K.notch_NotchState 12) 1
     s.Inv ∧ s.chainState 3 = 3 ∧ (s.chain 3).lineAt + 10 * MS ≤ s.elapsed ∧ s.get (K.notch_NotchMode (4 * 3)) = 2 ∧ s.get (K.notch_NotchState (4 * 3)) = 1 ∧
      SMap.get 0 100 (s.notch (4 * 3)).runs = 2 ∧ s.get (K.notch_DetectMargin (4 * 3)) < 200) := by decide +kernel

theorem witness_SpectrumMonitor :
    (holds [(true, some 1000000), (false, none), (false, some 0)] fun p =>
     let s := ((rxRun 3 ChainSt.reset fun x => { x with specRedo := p.1, specLast := p.2 }).set
        K.spectrumMonitor_SpecEnable 1).set K.spectrumMonitor_SpecChain 3
     s.Inv ∧ s.inRun = true ∧ s.atEdge = true ∧ s.fwUp = true ∧ s.getB K.spectrumMonitor_SpecEnable = true ∧ s.rx.spec = none ∧
      s.rx.specRedo = p.1 ∧ s.rx.specLast = p.2 ∧ 0 + s.get K.spectrumMonitor_SpecInterval * MS ≤ s.elapsed ∧
      specNext s = some 3) ∧
    (let r : SpecRun := ⟨3, 0, 16, 0, 0, 0, 0⟩
     let s := rxRun 3 ChainSt.reset fun x => { x with spec := some r }
     s.Inv ∧ s.rx.spec = some r ∧ r.start + specTime r.frames ≤ s.elapsed ∧ streamWords (s.stream 0x3051) + 2112 ≤ 8448) ∧
    (let r : SpecRun := ⟨3, 0, 16, 0, 0, 0, 0⟩
     let s := { (rxRun 3 ChainSt.reset fun x => { x with spec := some r }) with streams := [(0x3051, [List.replicate 6337 0])] }
     s.Inv ∧ s.rx.spec = some r ∧ 8448 < streamWords (s.stream 0x3051) + 2112) := by decide +kernel

/-- Both antennas with a chain up; input 1 usable for RevertDelay. -/
def antRun (mode primary active shorted : Nat) : State :=
  { ((((run.set (K.chain_ChainState 0) 3).set (K.chain_ChainState 2) 3).set K.antennaRedundancy_ActiveAntenna active).set
      (K.antennaInput_AntennaState shorted) 3) with
    rx := { RxSt.reset with mode := mode, primary := primary, ant := .replicate 2 { AntSt.reset with usableSince := some 0 } } }

theorem witness_AntennaSelection :
    (let s := antRun 1 0 0 0
     s.Inv ∧ s.inRun = true ∧ s.atEdge = true ∧ s.rx.mode = 1 ∧ s.get K.antennaRedundancy_ActiveAntenna = 0 ∧ usable s 0 = false ∧
      usable s 1 = true) ∧
    (let s := antRun 0 0 2 1
     s.Inv ∧ s.rx.mode = 0 ∧ s.get K.antennaRedundancy_ActiveAntenna = 2 ∧ usable s 0 = true ∧ usable s 1 = false) ∧
    (let s := (antRun 1 1 0 0).set K.antennaRedundancy_Revertive 1
     s.Inv ∧ s.rx.mode = 1 ∧ s.getB K.antennaRedundancy_Revertive = true ∧ s.get K.antennaRedundancy_ActiveAntenna = 0 ∧
      s.rx.primary = 1 ∧ usable s s.rx.primary = true ∧ (s.ant s.rx.primary).usableSince = some 0 ∧
      s.get K.antennaRedundancy_RevertDelay * 1000 ≤ s.time.ms - 0) := by decide +kernel

/-- A run of entry 0 on lane 7: its pass, of 1 ms, has ended. -/
def laneRun (verifying : Bool) (pass : Nat) : ErgRun :=
  { entry := 0, ant := 0, signal := 0, satellite := 1, level := 1, tc := 1, n := 1, pfa := 2, win := ⟨1, 1, 0, 0⟩, phase := 0,
    passes := 2, pass := pass, verifying := verifying, began := 999999, start := 999999, status := 0, best := ⟨0, 0, 0, 0⟩,
    cand := if verifying then some ⟨0, 0, ⟨0, 0, 0, 0⟩, 0⟩ else none, outcome := 2, waiting := false, split := false }

/-- The search engine with a run on lane 7. -/
def ergRun (r : ErgRun) : State := { run with erg := { ErgSt.reset with lane := vecMod ErgSt.reset.lane 7 fun _ => some r } }

theorem witness_SearchEngine :
    (let s := { (((run.set (K.searchEntry_EntryEnable 255) 1).set (K.searchEntry_Assist 255) 0).set (K.chain_ChainState 0) 3) with
        erg := { ErgSt.reset with enable := true, lanes := 128, signals := 65535 } }
     s.Inv ∧ s.inRun = true ∧ s.erg.enable = true ∧ bit s.erg.lanes 7 = true ∧ s.erg.lane.getD 7 none = none ∧
      (∀ k < 7, bit s.erg.lanes k = false) ∧ bestEntry s = some (255, 0)) ∧
    (holds [(false, 1), (false, 2), (true, 1), (true, 2)] fun p =>
      let s := ergRun (laneRun p.1 p.2)
      s.Inv ∧ s.erg.lane.getD 7 none = some (laneRun p.1 p.2) ∧ blocksDone s (laneRun p.1 p.2) = true ∧
        (laneRun p.1 p.2).verifying = p.1 ∧ (laneRun p.1 p.2).cand.isSome = p.1 ∧ (laneRun p.1 p.2).pass = p.2 ∧
        detects (laneRun p.1 p.2) (64 * 65536) = true ∧ detects (laneRun p.1 p.2) 0 = false) ∧
    (∀ p c, crossRejects (ergRun (laneRun true 1)) (laneRun true 1) p c = false) ∧
    (holds [false, true] fun tried =>
      let r : ErgResult := ⟨7, laneRun true 1, ⟨0, 0, 64 * 65536, 0⟩, none, 400, 1000000, 1000000, 0, 0, tried⟩
      let s := (({ run with erg := { ErgSt.reset with held := [r] } }).set K.tickBudget_SlotsHeldLimit 512).set (K.slot_SlotState 0) 6
      s.Inv ∧ s.erg.held = [r] ∧ r.from_ ≤ s.time.ms ∧
        slotHolds s r.run.signal r.run.satellite r.run.ant (fun st => decide (1 ≤ st ∧ st ≤ 5)) = false ∧
        s.slotState 1 = 0 ∧ s.slotState 0 ≠ 0 ∧ s.slotsInUse < s.get K.tickBudget_SlotsHeldLimit ∧
        s.get K.erg_HandoffHold < s.time.ms - r.posted) ∧
    (let s := { run with erg := { ErgSt.reset with auto := true, signals := 0 } }
     s.Inv ∧ s.erg.auto = true ∧ s.fwUp = true ∧ s.erg.refill = none ∧ autoList s [] = [] ∧ ∀ e < 256, laneOf s e = none) ∧
    (let s := { (((run.set (K.storeEntry_Kind 0) 2).set (K.storeEntry_Satellite 0) 1).set (K.storeEntry_EntryState 0) 2) with
        erg := { ErgSt.reset with auto := true, signals := 1 } }
     s.Inv ∧ autoList s [(sigSystem 0, 1, 90)] = [(0, 1, 2, 2000)] ∧
      (∀ e < 256, 128 ≤ e → s.get (K.searchEntry_EntryEnable e) ≠ 2 ∧ laneOf s e = none)) := by
  refine ⟨by decide +kernel, by decide +kernel, fun p c => ?_, by decide +kernel, by decide +kernel, by decide +kernel⟩
  have h : ((ergRun (laneRun true 1)).slotsWhere fun v => v == 3 || v == 4) = [] := by decide +kernel
  simp [crossRejects, h]

/-! ### Witnesses: slots, navigation data, the time solution -/

/-- Slot 511 with signal 1 (a data and a pilot component) in a state. -/
def slotRun (state : Nat) (f : SlotSt → SlotSt) (n : Nat := 511) (signal : Nat := 1) : State :=
  ((run.set (K.slot_SlotState n) state).set (K.slot_SignalId n) signal).modSlot n f

/-- A code epoch within the tick: the code runs at its nominal rate and 230 chips of it are left. Signals with a pilot and without,
the chain's buses carrying samples and zeros. -/
theorem witness_SlotCorrelators :
    (holds [(2, 1, none), (5, 0, some 0)] fun v =>
      let s := (slotRun v.1 (fun x => { x with codeRate := 1023000 * 2 ^ 24 }) 511 v.2.1).set (K.slot_CodePhase 511)
        ((sigChips v.2.1 - 230) * 2 ^ 32)
      let s := { s with rx := { s.rx with chain := .replicate 4 { ChainSt.reset with zeroAt := v.2.2 } } }
      s.Inv ∧ s.inRun = true ∧ s.slotState 511 = v.1 ∧ (s.slot 511).startMs ≤ s.time.ms ∧
        nextEpoch s 511 ≤ s.tickAhead - s.time.t0 ∧ (s.chain (s.slotChain 511)).zeroAt = v.2.2 ∧ sigPilot (s.slotSig 511) = v.2.2.isNone ∧
        0 + sigPeriod (s.slotSig 511) * MS ≤ (s.reach (s.time.t0 + nextEpoch s 511)).elapsed) ∧
    (List.replicate 12 (-5 : Int)).length = 12 ∧ (List.replicate 4 (-5 : Int)).length = 4 ∧
    (let s := slotRun 5 id
     s.Inv ∧ s.slotState 511 ≠ 6) ∧
    (let s := slotRun 4 fun x => { x with parity := [999001, 999500, 1000000] }
     s.Inv ∧ s.inRun = true ∧ s.atEdge = true ∧ s.slotState 511 ≠ 6 ∧ 3 ≤ (s.slot 511).parity.length) := by decide +kernel

theorem witness_SlotStates :
    (let s := slotRun 1 id
     s.Inv ∧ s.inRun = true ∧ s.atEdge = true ∧ (s.slot 511).next = none ∧ s.slotState 511 = 1 ∧ (s.slot 511).startMs ≤ s.time.ms) ∧
    (holds [(0, 4), (1, 0), (5, 0)] fun w =>
      let s := slotRun 5 fun x => { x with next := some w }
      s.Inv ∧ s.atEdge = true ∧ (s.slot 511).next = some w ∧ 1 ≤ s.slotState 511 ∧ s.slotState 511 ≤ 5) ∧
    (let s := slotRun 2 fun x => { x with age := 100000 }
     s.Inv ∧ (s.slot 511).next = none ∧ s.slotState 511 = 2 ∧ s.get (K.trackingProfile_PullInTimeout (s.slotSig 511)) ≤ (s.slot 511).age) ∧
    (let s := slotRun 5 fun x => { x with age := 1000000 }
     s.Inv ∧ (s.slot 511).next = none ∧ s.slotState 511 = 5 ∧ s.get (K.trackingProfile_LostHold (s.slotSig 511)) ≤ (s.slot 511).age) ∧
    (holds [3, 4] fun v =>
      let s := slotRun v fun x => { x with cross := [(7, 999001)] }
      s.Inv ∧ s.atEdge = true ∧ (7, 999001) ∈ (s.slot 511).cross ∧ (s.slotState 511 = 3 ∨ s.slotState 511 = 4) ∧
        (7, 999001).2 + 999 ≤ s.time.ms) ∧
    (let s := slotRun 3 (fun x => { x with histAt := 990000 }) 511 0
     s.Inv ∧ 1 ≤ s.slotState 511 ∧ s.slotState 511 ≤ 5 ∧ sigHistogram (s.slotSig 511) (s.slotSat 511) ≠ 0 ∧
      s.lockBit 511 4 = false ∧ 10000 ≤ s.time.ms - (s.slot 511).histAt) := by decide +kernel

/-- A dump of code period `per`, latched at `at_`: E, P, L and the outer taps of a code nearly aligned. -/
def dumpOf (per : Int) (at_ : Nat) (bad cal : Bool) : Dump :=
  let l : List Int := [100, 0, 900, 0, 2000, 100, 900, 0, 100, 0, 0, 0]
  { per := per, at_ := at_, spacing := (64, 128, 32), data := l, pilot := l, mm := [], coast := false, bad := bad, cal := cal }

/-- PULL_IN, TRACK and AIDED before its first window, with a pilot and without, before alignment, with a good dump and with a bad one; and two
windows of AIDED: one that its dumps fill, whose symbols are in hand or late, and one mostly calibrated over. -/
theorem witness_TrackingLoops :
    (holds [(2, 3), (3, 0), (4, 10)] fun v => holds [true, false] fun bad =>
      let s := (slotRun v.1 (fun x => { x with inbox := [dumpOf 0 (999 * SEC) bad false, dumpOf 1 (1000 * SEC) false false] }) 511 v.2).set
        (K.slot_CoherentInUse 511) (sigPeriod v.2)
      let s := { s with rx := { s.rx with chain := .replicate 4 { ChainSt.reset with zeroAt := none } } }
      let e := dumpOf 0 (999 * SEC) bad false
      let p := tap e.data 2
      s.Inv ∧ s.fwWorks = true ∧ s.slotState 511 = v.1 ∧ (s.slot 511).windowed = false ∧ loopSynced s 511 = false ∧
      groupTake s 511 (sigPeriod v.2) = some ([e], [dumpOf 1 (1000 * SEC) false false]) ∧
      ([e].filter (fun x => !x.bad && !x.cal) = if bad then [] else [e]) ∧ chainCal s (s.slotChain 511) = false ∧
      dataSums s 511 [e] = [e.data] ∧ pilotSum s 511 [e] = e.pilot ∧
      (codeDisc s (s.get (K.trackingProfile_DllDiscriminator v.2)) v.2 64 (v.1 == 2) [e.data, e.pilot] e.pilot).2 = false ∧
      (codeDisc s (s.get (K.trackingProfile_DllDiscriminator v.2)) v.2 64 (v.1 == 2) [e.data] e.data).2 = false ∧
      (carrierDisc s (s.get (K.trackingProfile_PllDiscriminator v.2)) p).2 = false) ∧
    (let s := slotRun 5 id
     s.Inv ∧ s.fwWorks = true ∧ s.slotState 511 = 5) ∧
    (holds [false, true] fun cal =>
      let w := 998 * SEC
      let l := (List.range 20).map fun (k : Nat) => dumpOf k (w + (k + 1) * MS) false cal
      let x := (List.range 20).map fun (k : Nat) => (k, ((1, 1) : Nat × Nat))
      let s := ((slotRun 4 (fun x => { x with windowed := true, winAt := w, window := l, txRef := some (0, 0) }) 511 0).set
        (K.slot_CoherentInUse 511) 20).set (K.slot_Satellite 511) 1
      let s := { s with nav := { s.nav with peers := [⟨0, 1, x, 0⟩] } }
      let use := l.filter fun e => !e.cal && !e.bad
      let taps := sumTaps (windowTerms (s.reach (s.time.t0 + 0)) 511 use).1
      s.Inv ∧ s.fwWorks = true ∧ s.slotState 511 = 4 ∧ (s.slot 511).windowed = true ∧ w + 20 * MS ≤ s.time.t0 ∧
        chainCal s (s.slotChain 511) = false ∧ ((s.slot 511).window.filter fun e => decide (w < e.at_) && decide (e.at_ ≤ w + 20 * MS)) = l ∧
        (l.all fun e => match dumpSymbol (s.reach (s.time.t0 + 0)) 511 e with | some k => peerHas s 0 1 k | none => false) = true ∧
        w + 20 * MS + s.get K.tracking_AidedLatencyLimit * MS ≤ (s.reach (s.time.t0 + 0)).time.now ∧
        2 * ((l.filter fun e => e.cal).length * sigPeriod 0) = (if cal then 40 else 0) ∧
        (cal = false → use.getLast? = some (dumpOf 19 (w + 20 * MS) false false) ∧
          (windowTerms (s.reach (s.time.t0 + 0)) 511 use).1 ≠ [] ∧
          (codeDisc s 2 0 64 false [taps] taps).2 = false ∧ (carrierDisc s 1 (tap taps 2)).2 = false)) := by decide +kernel

/-- A block of slot 511 for a stage of its decoder, at a stream position. -/
def jobOf (pos stage : Nat) : NavJob := ⟨511, some stage, pos, false, [1, 0, 1], 999 * SEC⟩

/-- What a check answers is the uninterpreted Config.navCheck of the block: the clauses for an answer and for none exclude each other, and
the witness meets all else that each asks for. The same holds of the bits that Config.navPredict gives. -/
theorem witness_NavigationData :
    (holds [0, 2] fun r =>
      let s := ({ (slotRun 3 (fun x => { x with failRun := r, framePos := 600 }) 511 15) with
        nav := { NavSt.reset with queue := vecMod NavSt.reset.queue 4 fun _ => [jobOf 350 0, jobOf 600 0] } }).set (K.slotNav_FrameState 511) 3
      s.Inv ∧ s.fwWorks = true ∧ s.nav.queue.getD 4 [] = [jobOf 350 0, jobOf 600 0] ∧ (jobOf 350 0).stage = some 0 ∧ s.frameState 511 = 3 ∧
        (jobOf 350 0).pos % frameLen 15 = (s.slot 511).framePos % frameLen 15 ∧ lastStage 15 = 0 ∧ bchFirst 15 = false ∧
        (s.slot 511).failRun = r) ∧
    (let s := ({ (slotRun 3 (fun x => { x with cands := [⟨350, false, true, none⟩, ⟨600, false, false, none⟩] }) 511 15) with
        nav := { NavSt.reset with queue := vecMod NavSt.reset.queue 4 fun _ => [jobOf 600 0] } }).set (K.slotNav_FrameState 511) 2
     s.Inv ∧ s.fwWorks = true ∧ s.frameState 511 = 2 ∧ s.nav.queue.getD 4 [] = [jobOf 600 0] ∧
       (s.slot 511).cands = [⟨350, false, true, none⟩, ⟨600, false, false, none⟩] ∧ 350 + frameLen 15 = (jobOf 600 0).pos ∧
       inRotation (s.slot 511) 15 600 = true) ∧
    (∀ bits, Config.navPredictable 0 bits = true →
      ([⟨0, bits, []⟩] : List StorePart).find? (fun p => p.part == 0 && Config.navPredictable 0 p.bits) = some ⟨0, bits, []⟩) ∧
    (let s := (((((slotRun 3 (fun x => { x with txRef := some (0, 1000 * SEC) }) 511 0).set (K.slotNav_FrameState 511) 3).set K.network_MemberState 2).set
        (K.storeEntry_Kind 255) 1).set (K.storeEntry_Satellite 255) 1).set (K.slot_Satellite 511) 1
     let s := { s with lake := { s.lake with subIn := [(9, 0, 1, s.elapsed)] } }
     let now : Int := (1000 * SEC : Nat) + codeTime s 511 + (((s.reach (s.time.t0 + 0)).time.now - s.time.t0 : Nat) : Int)
     s.Inv ∧ s.fwWorks = true ∧ txAt s 511 (s.slot 511).periods = some ((1000 * SEC : Nat) : Int) ∧ s.get (K.storeEntry_Kind 255) ≠ 0 ∧
      navFamily (s.get (K.storeEntry_SignalId 255)) = navFamily 0 ∧ storeIs s 255 1 0 1 = true ∧ s.nav.stepAt = none ∧
      (((1000 * SEC : Nat) : Int) - sysOffset s 0) % ((20 * MS : Nat) : Int) = 0 ∧ now ≤ ((1000 * SEC : Nat) : Int) ∧
      ((1000 * SEC + 1 * (20 * MS) : Nat) : Int) ≤ now + ((s.nav.horizon * MS : Nat) : Int) ∧ publishes s 511 = true ∧
      s.nav.blocks = [] ∧ lakeActive s = true ∧ blockTargets (s.reach (s.time.t0 + 0)) ⟨0, 1, 0, 1000 * SEC, [true]⟩ ≠ []) ∧
    (holds [2, 3] fun v =>
      let s := ((run.set (K.storeEntry_Kind 255) 1).set (K.storeEntry_EntryState 255) v).set K.timingState 3
      s.Inv ∧ s.inRun = true ∧ s.timing ≠ 0 ∧ s.get (K.storeEntry_Kind 255) = 1 ∧ s.get (K.storeEntry_EntryState 255) = v ∧
        s.get (K.storeEntry_FitEnd 255) ≤ s.now96) ∧
    (holds [1, 2] fun v =>
      let s := (run.set K.utc_LeapPending v).set K.timingState 1
      s.Inv ∧ s.get K.utc_LeapPending = v ∧ s.timing ≠ 0 ∧ s.get K.utc_LeapAt ≤ s.now96) ∧
    (let s := { run with nav := { NavSt.reset with sightings := [⟨1, 0, 1, 40, 0, 990 * SEC⟩, ⟨2, 0, 1, 40, 0, 0⟩] } }
     s.Inv ∧ s.inRun = true) := by
  refine ⟨by decide +kernel, by decide +kernel, fun bits h => ?_, by decide +kernel, by decide +kernel, by decide +kernel, by decide +kernel⟩
  simp [List.find?, h]

/-- The settings of an epoch: both antennas at one fixed position, the reference's offset known, any two satellites fit. -/
def cfgOf : EpochCfg := { mode := 0, dual := 4, pfa := 4, excl := 0, fixed := [true, true], pos := [(0, 0, 0), (0, 0, 0)], known := [(0, 0)],
                          klob := some (0, 0), lake := none, rates := 0, steers := 0 }

theorem witness_MeasurementEpochs :
    (let s := { ((slotRun 3 (fun x => { x with txRef := some (0, 0) })).set (K.slot_LockStatus 511) 1) with
        sol := { SolSt.reset with due := some ⟨1000 * SEC, 0, cfgOf, [], []⟩ } }
     s.Inv ∧ s.inRun = true ∧ s.sol.due = some ⟨1000 * SEC, 0, cfgOf, [], []⟩ ∧ s.cpu.guard = false ∧ s.fwUp = true ∧
      (s.slotState 511 == 3 || s.slotState 511 == 4) = true ∧ s.lockBit 511 0 = true ∧ (txAt s 511 (s.slot 511).periods).isSome = true) ∧
    (let e : EpochSt := ⟨999 * SEC, 999700, 2, [], cfgOf, false⟩
     let s := ({ run with sol := { SolSt.reset with epochs := [e] } }).set K.measurement_MeasStreamEnable 1
     s.Inv ∧ s.sol.epochs = [e] ∧ e.solution = false ∧ e.ms + 300 ≤ s.time.ms ∧ s.get K.measurement_MeasStreamEnable ≠ 0 ∧
      streamWords (s.stream 0x5011) + (7 + 15 * e.obs.length) ≤ 16384 ∧
      (let s := { s with streams := [(0x5011, [List.replicate 16380 0])] }
       s.Inv ∧ 16384 < streamWords (s.stream 0x5011) + (7 + 15 * e.obs.length))) := by decide +kernel

/-- What the ephemeris in use and the models say of satellite 1 from the antennas' position: its path, the troposphere, the ionosphere. -/
def pathOf : Int :=
  Config.ephDelay 0 1 7 (0, 0, 0) (1000 * SEC) (0, 0) +
    (troposphere (Config.height (0, 0, 0)) (Config.ephSin2 0 1 7 (0, 0, 0) (1000 * SEC)) : Int) +
    divRound ((Config.klobuchar 0 0 0 1 7 (0, 0, 0) (1000 * SEC) : Int) * 1575420000 * 1575420000) ((sigCarrier 0 1 : Int) * sigCarrier 0 1)

/-- The observation of that satellite on an antenna, whose transit time differs from that by `x`. -/
def obsOf (a : Nat) (x : Int) : ObsRec :=
  { slot := a, signal := 0, ant := a, aided := false, satellite := 1, flags := 0, transit := pathOf + x, phase := 0, doppler := 0, cn0 := 45,
    lock := 60, elev := none, fe := 0, residual := none, delay := 0, eph := some (0, 7) }

/-- An epoch of both antennas, the second `x` later than the first. -/
def solEpoch (x : Int) : EpochSt := ⟨1000 * SEC, 1000000, 0, [obsOf 0 0, obsOf 1 x], cfgOf, true⟩

/-- The measurement an antenna gives. -/
def solMeas (a : Nat) (x : Int) : Meas :=
  let l := Config.ephLine 0 1 7 (0, 0, 0) (1000 * SEC)
  ⟨0, a, [a], false, x, baseVar (Config.ephSin2 0 1 7 (0, 0, 0) (1000 * SEC)) 45, l.1, l.2.1, l.2.2⟩

/-- The state with an epoch to solve. -/
def solWith (x : Int) : State := { run with sol := { SolSt.reset with epochs := [solEpoch x] } }

theorem aux_measOf (x : Int) (a : Nat) (y : Int) (h : (a = 0 ∧ y = 0) ∨ (a = 1 ∧ y = x)) :
    measOf (solEpoch x) (solEpoch x).obs ⟨0, 1, a, (0, 7)⟩ true true = some (solMeas a y) ∧
    measOf (solEpoch x) (solEpoch x).obs ⟨0, 1, a, (0, 7)⟩ true false = none := by
  have hp : epochPos (solEpoch x) a = (0, 0, 0) := by obtain ⟨rfl, rfl⟩ | ⟨rfl, rfl⟩ := h <;> rfl
  have hm : ((solEpoch x).obs.filter fun o => sigSystem o.signal == 0 && o.satellite == 1 && o.ant == a) = [obsOf a y] := by
    obtain ⟨rfl, rfl⟩ | ⟨rfl, rfl⟩ := h <;> rfl
  have hf : feFactor [obsOf a y] = 1 := by
    have h1 : (obsOf a y).fe = 0 := rfl
    have h2 : (obsOf a y).flags = 0 := rfl
    simp [feFactor, h1, h2, bit]
  simp only [measOf, hp, hm]
  refine ⟨?_, rfl⟩
  simp only [List.foldl_nil, hf]
  have hk : ¬ (solEpoch x).cfg.klob.isNone = true := Bool.false_ne_true
  have n : ¬ (0 : Nat) = 3 := by decide
  have e (p t i : Int) : p + t + i + y - 0 - p - t - i = y := by omega
  show some _ = some _
  refine congrArg some ?_
  rw [Nat.mul_one, if_neg hk, if_neg n, Nat.add_zero]
  have c (z : Int) (h : z = y) : ({ solMeas a y with z := z } : Meas) = solMeas a y := by subst h; rfl
  refine c _ ?_
  show pathOf + y - 0 - _ - _ - _ = y
  delta pathOf
  exact e _ _ _

theorem aux_measures (s : State) (x : Int) (b : Bool) (hu : s.getB (K.signalBias_UseInSolution 0) = true) :
    (measures s (solEpoch x) [0, 1] b).1 = [solMeas 0 0, solMeas 1 x] := by
  obtain ⟨h1, h2⟩ := aux_measOf x 0 0 (.inl ⟨rfl, rfl⟩)
  obtain ⟨h3, h4⟩ := aux_measOf x 1 x (.inr ⟨rfl, rfl⟩)
  have e (a : Nat) (y : Int) : eligible s b (obsOf a y) = true := by
    have h1 : (obsOf a y).fe = 0 := rfl
    have h2 : (obsOf a y).flags = 0 := rfl
    have h5 : (obsOf a y).signal = 0 := rfl
    simp [eligible, feBad, bit, h1, h2, h5, hu]
  have he : (solEpoch x).obs.filter (fun o => [0, 1].contains o.ant && eligible s b o) = (solEpoch x).obs := by
    have ho : (solEpoch x).obs = [obsOf 0 0, obsOf 1 x] := rfl
    have a (k : Nat) (y : Int) : (obsOf k y).ant = k := rfl
    simp [ho, e, a]
  have hg : epochSats (solEpoch x) [0, 1] = [⟨0, 1, 0, (0, 7)⟩, ⟨0, 1, 1, (0, 7)⟩] := rfl
  have hm : (solEpoch x).cfg = cfgOf := rfl
  simp only [measures, he, hg, hm, List.filterMap_cons, List.filterMap_nil, h1, h2, h3, h4]
  have hk : cfgOf.known = [(0, 0)] := rfl
  have hs (a : Nat) (y : Int) : (solMeas a y).system = 0 := rfl
  have hd : cfgOf.mode = 0 ∧ cfgOf.dual = 4 := ⟨rfl, rfl⟩
  have eta (m : Meas) (h : m.system = 0) : (⟨0, m.ant, m.slots, m.dual, m.z, m.var, m.losX, m.losY, m.losZ⟩ : Meas) = m := by
    cases m; simp_all
  simp [hk, hs, hd, eta]

/-- Two measurements of one satellite: the offset lies midway, and each is off by half of what they differ by. -/
theorem aux_fit (m n : Meas) (x : Int) (hv : weight n = weight m) (z0 : m.z = 0) (z1 : n.z = x) (hp : 0 < weight m) :
    ∃ f, fit [.clock] [m, n] = some f ∧ f.res = [-((x : Rat) / 2), (x : Rat) / 2] := by
  generalize hw : weight m = w at hv hp
  have hz : ¬ (w + w = 0) := by positivity
  simp only [fit, List.map, hv, hw, z0, z1, coef, List.length, List.range, List.range.loop, List.zip, List.zipWith, List.foldl,
    List.getD_cons_zero, mul_one, zero_add]
  simp [inverse, gauss, dot, hz, List.range, List.range.loop]
  constructor <;> field_simp <;> ring

/-- Fault detection passes them where they agree, and fails where they differ by more than any elevation's sigma allows. -/
theorem aux_fde (m n : Meas) (x : Int) (hm : m.system = 0) (hn : n.system = 0) (hv : weight n = weight m) (z0 : m.z = 0)
    (z1 : n.z = x) (hp : 1 ≤ weight m) :
    (x = 0 → (fde [0] [] 4 0 [m, n] []).state = 2 ∧ (fde [0] [] 4 0 [m, n] []).fit.isSome = true) ∧
    (x = 2 ^ 100 → (fde [0] [] 4 0 [m, n] []).state = 3) := by
  obtain ⟨f, hf, hr⟩ := aux_fit m n x hv z0 z1 (by linarith)
  have he : estimated [0] [m, n] = [] := by simp [estimated, hm, hn, List.range, List.range.loop]
  have ha : admitted [0] [m, n] = [m, n] := by simp [admitted, he, hm, hn]
  have hq : ratSum ((List.zip f.res [m, n]).map fun p => p.1 * p.1 * weight p.2) / 281474976710656 =
      (x : Rat) * x * weight m / 2 / 281474976710656 := by
    simp only [hr, List.zip, List.zipWith, List.map, hv, ratSum, List.foldl]
    ring
  constructor
  · intro h0
    have hc : chiPasses 1 4 0 1 = true := by decide +kernel
    have h : (0 : Rat) * 0 * weight m / 2 / 281474976710656 = 0 := by ring
    unfold fde
    simp only [h0, Int.cast_zero, h] at hq
    simp [ha, he, hf, hq, hc]
  · intro h0
    have hc : chiPasses 1 4 ((x : Rat) * x * weight m / 2 / 281474976710656).num.toNat
        ((x : Rat) * x * weight m / 2 / 281474976710656).den = false := by
      have hb : (8000 : Rat) ≤ (x : Rat) * x * weight m / 2 / 281474976710656 := by
        rw [h0]; push_cast; linarith
      generalize (x : Rat) * x * weight m / 2 / 281474976710656 = q at hb
      have hd := q.den_pos
      have hn : 8000 * q.den ≤ q.num.toNat := by
        have h := Rat.num_div_den q
        have hd' : (0 : Rat) < q.den := by exact_mod_cast hd
        rw [← h, le_div_iff₀ hd'] at hb
        have hb' : (8000 : Int) * q.den ≤ q.num := by exact_mod_cast hb
        omega
      have hl : 8000 * P256 ≤ q.num.toNat * P256 / q.den := by
        rw [Nat.le_div_iff_mul_le hd]
        calc 8000 * P256 * q.den = 8000 * q.den * P256 := by ring
          _ ≤ _ := Nat.mul_le_mul_right _ hn
      have hx : 2000 * P256 ≤ q.num.toNat * P256 / q.den / 2 := by
        generalize q.num.toNat * P256 / q.den = y at hl
        generalize P256 = p at *
        omega
      have ht : chiTail 1 (q.num.toNat * P256 / q.den) = 0 := by simp only [chiTail, if_pos hx]
      have hz : ¬ P256 ≤ 0 * 10 ^ 4 := by decide +kernel
      simp only [chiPasses, if_neg (Nat.ne_of_gt hd), ht, decide_eq_false hz]
    unfold fde
    simp [ha, he, hf, hq, hc]

theorem aux_weight (m n : Meas) (h : m.var = n.var) : weight m = weight n := by simp only [weight, h]

/-- The elevation stands above the horizon: what an observation of that satellite weighs. -/
def Above : Prop := 1 ≤ weight (solMeas 0 0)

theorem aux_solve (s : State) (hu : s.getB (K.signalBias_UseInSolution 0) = true) (hw : Above) :
    ((solve s (solEpoch 0)).1.state = 2 ∧ (solve s (solEpoch 0)).1.fit.isSome = true) ∧
    (∀ x, x = 2 ^ 100 → (solve s (solEpoch x)).1.state = 3) := by
  have hr (x : Int) : (solMeas 1 x).var = (solMeas 0 0).var := rfl
  have hv (x : Int) : weight (solMeas 1 x) = weight (solMeas 0 0) := aux_weight _ _ (hr x)
  have z (a : Nat) (y : Int) : (solMeas a y).z = y := rfl
  have y (a : Nat) (y : Int) : (solMeas a y).system = 0 := rfl
  have h (x : Int) := aux_fde _ _ x (y 0 0) (y 1 x) (hv x) (z 0 0) (z 1 x) hw
  have m (x : Int) (b : Bool) := aux_measures s x b hu
  have b0 : bit 0 6 = false := by decide +kernel
  have fl (a : Nat) (y : Int) : (obsOf a y).flags = 0 := by simp only [obsOf]
  have ob (x : Int) : (solEpoch x).obs = [obsOf 0 0, obsOf 1 x] := by simp only [solEpoch]
  have c (x : Int) : (solEpoch x).cfg = cfgOf := by simp only [solEpoch]
  have hf (x : Int) : (solEpoch x).fixedAnts = [0, 1] ∧ (solEpoch x).surveyAnts = [] := by
    simp only [EpochSt.fixedAnts, EpochSt.surveyAnts, c, cfgOf]; decide
  have a (x : Int) : attempts (solEpoch x) = [([0, 1], false), ([0, 1], false), ([0, 1], true), ([0, 1], true)] := by
    simp [attempts, hf, ob, fl, b0]
  have f (x : Int) (l : List Meas) : (solEpoch x).fdeOf [] l = fde [0] [] 4 0 l [] := by
    simp only [EpochSt.fdeOf, c]; rfl
  refine ⟨?_, ?_⟩
  · have h0 := (h 0).1 rfl
    simp [solve, a, (hf 0).2, m, f, h0]
  · intro x hx
    have h3 := (h x).2 hx
    simp [solve, a, (hf x).2, m, f, h3]

/-- An epoch solved VALID, one that fails detection and, of no observation, one that is insufficient; skipped epochs; a survey. The first two
hold wherever the ephemeris, uninterpreted, puts the satellite above the horizon. -/
theorem witness_TimeSolution :
    (∀ x, (solWith x).Inv ∧ (solWith x).inRun = true ∧ (solWith x).fwUp = true ∧
      (solWith x).sol.epochs.find? (fun e => e.solution) = some (solEpoch x) ∧ (solWith x).time.ms ≤ (solEpoch x).ms + 300 ∧
      (solWith x).timing = 0 ∧ (solWith x).get K.timeSolution_FdeExclusions ≤ 65535) ∧
    (Above → (∃ f, (solve (solWith 0) (solEpoch 0)).1.state = 2 ∧ (solve (solWith 0) (solEpoch 0)).1.fit = some f) ∧
      ∀ x, x = 2 ^ 100 → (solve (solWith x) (solEpoch x)).1.state = 3) ∧
    (let e : EpochSt := ⟨1000 * SEC, 1000000, 0, [], cfgOf, true⟩
     let s := { run with sol := { SolSt.reset with epochs := [e] } }
     s.Inv ∧ s.sol.epochs.find? (fun e => e.solution) = some e ∧ s.time.ms ≤ e.ms + 300 ∧ (solve s e).1.state = 1) ∧
    (let e : EpochSt := ⟨999 * SEC, 999700, 2, [], cfgOf, true⟩
     let s := { run with sol := { SolSt.reset with epochs := [e], survey := .replicate 2 (some ⟨0, 0, 0, 0, 0⟩) } }
     s.Inv ∧ s.inRun = true ∧ s.sol.epochs.find? (fun x => x.solution && decide (x.ms + 300 ≤ s.time.ms)) = some e ∧
      s.sol.survey.getD 1 none = some ⟨0, 0, 0, 0, 0⟩ ∧
      (let s := s.set (K.antennaPosition_SurveyMaxTime 1) 1000
       s.Inv ∧ s.get (K.antennaPosition_SurveyMaxTime 1) * 1000 ≤ s.time.ms - 0)) := by
  have hu (x : Int) : (solWith x).getB (K.signalBias_UseInSolution 0) = true := by
    have h : run.getB (K.signalBias_UseInSolution 0) = true := by decide +kernel
    exact h
  refine ⟨fun x => ⟨?_, ?_, ?_, rfl, ?_, ?_, ?_⟩, fun hw => ⟨?_, fun x hx => (aux_solve _ (hu x) hw).2 x hx⟩, by decide +kernel, by decide +kernel⟩
  · exact run_inv
  · have h : run.inRun = true := by decide +kernel
    exact h
  · have h : run.fwUp = true := by decide +kernel
    exact h
  · have h : run.time.ms ≤ 1000000 + 300 := by decide +kernel
    exact h
  · have h : run.timing = 0 := by decide +kernel
    exact h
  · have h : run.get K.timeSolution_FdeExclusions ≤ 65535 := by decide +kernel
    exact h
  · obtain ⟨h2, hf⟩ := (aux_solve (solWith 0) (hu 0) hw).1
    obtain ⟨f, hf⟩ := Option.isSome_iff_exists.mp hf
    exact ⟨f, h2, hf⟩

/-! ### Witnesses: ports, links, precision time -/

/-- Port 31 in a state and an ActiveMode, with a beyond-record state. -/
def portRun (state active : Nat) (f : PortSt → PortSt) : State :=
  ((run.set (K.port_PortState 31) state).set (K.port_ActiveMode 31) active).modPort 31 f

/-- Every group has its reference. -/
def withGroups (s : State) : State := { s with ports := { s.ports with group := .replicate 4 true } }

theorem witness_PortStates :
    (let s := withGroups (portRun 0 0 fun p => { p with signal := true })
     let p := s.port 31
     s.Inv ∧ s.portState 31 = 0 ∧ s.inRun = true ∧ portMode p ≠ 0 ∧ p.failAt = none ∧ portMode p ≠ 2 ∧
      s.ports.group.toList.getD (31 / 8) false = true ∧ p.signal = true) ∧
    (let s := withGroups (portRun 1 0 fun p => { p with host := true })
     s.Inv ∧ s.portState 31 = 1 ∧ (s.port 31).host = true ∧ s.ports.group.toList.getD (31 / 8) false = true) ∧
    (holds [(1, false), (2, false), (3, false), (3, true)] fun m =>
      let s := withGroups (portRun 1 0 fun p => { p with mode := m.1, tryEth := m.2, helloIn := true, helloOut := true })
      s.Inv ∧ s.portState 31 = 1 ∧ (s.port 31).host = false ∧ s.ports.group.toList.getD (31 / 8) false = true ∧
        portMode (s.port 31) = m.1 ∧ (s.port 31).tryEth = m.2 ∧ (s.port 31).helloIn = true ∧ (s.port 31).helloOut = true) ∧
    (let s := portRun 1 0 fun p => { p with mode := 3, tryAt := 0, since := 0 }
     let el := (s.reach (s.time.t0 + 0)).elapsed
     portMode (s.port 31) = 3 ∧ (s.port 31).tryAt + 50 * MS ≤ el ∧ (s.port 31).since + 200 * MS ≤ el) ∧
    (let s := portRun 0 0 fun p => { p with failAt := some 0 }
     s.Inv ∧ (s.port 31).failAt = some 0 ∧ s.portState 31 = 0 ∧ 0 + SEC ≤ (s.reach (s.time.t0 + 0)).elapsed) ∧
    (holds [(2, 1), (5, 2)] fun v => holds [0, 9] fun r =>
      let s := portRun v.1 v.2 fun p => { p with badRun := r }
      s.Inv ∧ 2 ≤ s.portState 31 ∧ s.portState 31 ≤ 5 ∧ s.atEdge = true ∧ s.time.t0 % SEC = 0 ∧ (s.port 31).badRun = r ∧
        (s.port 31).bad = 0) ∧
    (let s := portRun 5 1 fun p => { p with clean := 60 }
     s.Inv ∧ s.portState 31 = 5 ∧ 60 ≤ (s.port 31).clean) := by decide +kernel

/-- A DATA frame with a sequence number, an ACK and a NAK, a HELLO, and a frame whose check fails. -/
def dataFrame (seq : Nat) : List Nat := linkFrame 1 0 seq 0 (List.replicate 40 7)
def ackFrame (sub ack : Nat) : List Nat := linkFrame 2 sub 0 ack []
def helloFrame : List Nat := linkFrame 2 3 0 0 [0x0F, 0xFE, 31, 1]
def badFrame : List Nat := (dataFrame 0).set 20 8

theorem witness_LinkFrames :
    (holds [(2, 1), (5, 1)] fun v =>
      let s := portRun v.1 v.2 fun p => { p with rxSeq := 65535, restart := false }
      s.Inv ∧ linkRuns s 31 = true ∧ fabricUp s 31 = true ∧ (s.port 31).rxSeq = 65535) ∧
    (holds [65535, 65534, 0] fun q =>
      linkGood (dataFrame q) = true ∧ byteAt (dataFrame q) 0 = 0x10 ∧ field (dataFrame q) 2 2 = q) ∧
    32768 ≤ (65535 + 65536 - field (dataFrame 0) 2 2) % 65536 ∧
    (let b : List (Nat × OutFrame) := [(65535, ⟨[1], 0, none⟩), (0, ⟨[2], 0, none⟩)]
     let s := portRun 2 1 fun p => { p with buf := b, retrying := false, restart := false }
     let p := s.port 31
     s.Inv ∧ linkRuns s 31 = true ∧ p.buf = b ∧ 2 ≤ p.buf.length ∧ p.wait = [] ∧ p.retrying = false ∧
      (holds [(1, 0, 1), (1, 1, 2), (2, 65535, 0)] fun x =>
        let f := ackFrame x.1 x.2.1
        linkGood f = true ∧ byteAt f 0 = 0x20 ∧ byteAt f 1 = x.1 ∧ (field f 4 2 + 65536 - 65535) % 65536 = x.2.2)) ∧
    (linkGood badFrame = false) ∧
    (holds [(true, true), (true, false), (false, true)] fun x =>
      let s := (portRun 2 1 fun p => 
        { p with buf := [(0, ⟨[2], 0, none⟩)], retrying := x.1, locked := x.2, restart := false }).set (K.port_FailedRetryRun 31) 15
      s.Inv ∧ linkRuns s 31 = true ∧ (s.port 31).buf ≠ [] ∧
        (s.port 31).sentAt + ackTimeout s 31 ≤ (s.reach (s.time.t0 + 0)).elapsed ∧ (s.port 31).retrying = x.1 ∧
        (s.port 31).locked = x.2 ∧ min 16 (s.get (K.port_FailedRetryRun 31) + 1) = 16) ∧
    (linkGood helloFrame = true ∧ byteAt helloFrame 0 = 0x20 ∧ byteAt helloFrame 1 = 3 ∧ (portRun 1 0 id).Inv ∧
      (portRun 1 0 id).portState 31 = 1 ∧ portMode ((portRun 1 0 id).port 31) ≠ 2) ∧
    (let e : LaunchEnt := ⟨1, 31, 0, false, true, [1, 2, 3]⟩
     let s := { portRun 3 2 id with ports := { (portRun 3 2 id).ports with launch := [e] } }
     s.Inv ∧ s.ports.launch.find? (fun x => x.port == 31) = some e ∧ ethUp s 31 = true ∧
      e.at96 ≤ (s.reach (s.time.t0 + 0)).now96 ∧ s.streamFits 0x7061 6 = true) := by decide +kernel

/-- A timing frame of 50 bytes. -/
def timingFrameBytes : List Nat :=
  let m := [1, 2] ++ toBytes 2 0 ++ toBytes 8 999999 ++ toBytes 12 5 ++ List.replicate 22 0
  m ++ toBytes 4 (crc32c m)

theorem witness_LinkTiming :
    (let l : Launch := ⟨999999, 0, none, some 4, false, false⟩
     let s := portRun 2 1 fun p => { p with launches := [l] }
     s.Inv ∧ fabricUp s 31 = true ∧ timingGood timingFrameBytes = true ∧ (s.port 31).launches = [l] ∧ l.t34 = none ∧
      l.t2.isSome = true ∧ l.t1 = 0 ∧ (s.port 31).due = []) ∧
    (let l : Launch := ⟨999999, 1000, some (3000, 4000), some 2500, false, false⟩
     let s := portRun 2 1 fun p => { p with due := [(l, 0)] }
     let x := exchange l (s.getI (K.linkTiming_AsymInUse 31) 8)
     s.Inv ∧ fabricUp s 31 = true ∧ (s.port 31).due = (l, 0) :: [] ∧ 0 ≤ (s.reach (s.time.t0 + 0)).time.now ∧
      x.1 < (2 ^ 63 : Nat) ∧ -(2 ^ 63 : Nat) ≤ x.1 ∧ x.2 < (2 ^ 63 : Nat) ∧ -(2 ^ 63 : Nat) ≤ x.2) ∧
    (let l : Launch := ⟨999999, 0, none, some 4, false, false⟩
     let s := portRun 5 1 fun p => { p with launches := [l] }
     s.Inv ∧ fabricUp s 31 = true ∧ l ∈ openLaunches s 31 ∧ l.tick = s.time.tick - 1 ∧ l.missed = false) ∧
    (holds [(0 : Int), 60] fun k =>
     let s := ((portRun 2 1 fun p => { p with asymN := k.toNat, asymSum := k }).set (K.linkTiming_AsymmetrySource 31) 1).set (K.linkTiming_AsymCalTime 31) 60
     s.Inv ∧ fabricUp s 31 = true ∧ s.get (K.linkTiming_AsymmetrySource 31) = 1 ∧
      s.get (K.linkTiming_AsymCalTime 31) * 1000 ≤ s.time.ms - (s.port 31).asymAt ∧ (s.port 31).asymN = k.toNat ∧
      (k ≠ 0 → divRound ((s.port 31).asymSum + 2 * (s.port 31).asymN * 5) (s.port 31).asymN < (2 ^ 63 : Nat) ∧
        -(2 ^ 63 : Nat) ≤ divRound ((s.port 31).asymSum + 2 * (s.port 31).asymN * 5) (s.port 31).asymN)) := by decide +kernel

/-- Port 31 as an Ethernet port in a PTP state. -/
def ptpRun (st role mech : Nat) (f : PtpSt → PtpSt) : State :=
  ((((portRun 3 2 fun p => { p with ptp := f p.ptp }).set (K.ptpPort_PtpState 31) st).set (K.ptpPort_PortRole 31) role).set
    (K.ptpPort_DelayMechanism 31) mech).set K.timingState 2

/-- A message of a kind in the domain of the device. -/
def ptpOfKind (kind : Nat) (two : Bool) (q : Option PtpQuality) (requester : Nat := 0) : PtpMsg :=
  ⟨kind, run.get K.ptpClock_DomainNumber, 7, 9, two, 0, 1000000000, requester, q⟩

def someQuality : PtpQuality := ⟨128, 6, 0x20, 0x4E5D, 128, 5, 0, 0x20⟩

theorem witness_PtpPorts :
    (let s := ptpRun 2 0 0 id
     let every (k : Nat) : Nat := logInterval (s.getI k 1)
     let r := s.reach (s.time.t0 + 0)
     s.Inv ∧ s.fwUp = true ∧ ptpState s 31 = 2 ∧ (s.ptp 31).syncAt + every (K.ptpPort_LogSyncInterval 31) ≤ r.elapsed ∧
      (s.ptp 31).annAt + every (K.ptpPort_LogAnnounceInterval 31) ≤ r.elapsed) ∧
    (holds [(3, 0), (1, 1), (4, 1)] fun v =>
      let s := ptpRun v.1 1 v.2 id
      s.Inv ∧ (s.ptp 31).reqAt + logInterval (s.getI (K.ptpPort_LogDelayReqInterval 31) 1) ≤ (s.reach (s.time.t0 + 0)).elapsed ∧
        s.get (K.ptpPort_DelayMechanism 31) = v.2 ∧ ptpState s 31 = v.1 ∧ s.timing ≠ 0) ∧
    (let s := ptpRun 3 1 0 fun p => { p with foreign := some (someQuality, 9), sync := some (7, 9, 0, 0), req := some (7, 0), down := some 5 }
     s.Inv ∧ ethUp s 31 = true ∧ ptpState s 31 = 3 ∧ (ptpOfKind 0 false none).domain = s.get K.ptpClock_DomainNumber ∧
      s.get (K.ptpPort_PortRole 31) ≠ 2 ∧ (s.ptp 31).foreign = some (someQuality, (ptpOfKind 0 true none).source) ∧
      (s.ptp 31).sync = some ((ptpOfKind 8 false none).seq, (ptpOfKind 8 false none).source, 0, 0) ∧
      (s.ptp 31).req = some ((ptpOfKind 9 false none).seq, 0) ∧ (s.ptp 31).down = some 5 ∧ s.get (K.ptpPort_DelayMechanism 31) = 0) ∧
    (∀ k, (ptpOfKind k false none (portIdentity (ptpRun 3 1 0 id) 31)).requester = portIdentity (ptpRun 3 1 0 id) 31) ∧
    (let s := ptpRun 2 0 0 id
     s.Inv ∧ ethUp s 31 = true ∧ ptpState s 31 = 2 ∧ s.get (K.ptpPort_DelayMechanism 31) = 0 ∧ s.get (K.ptpPort_PortRole 31) ≠ 2 ∧
      (s.ptp 31).foreign = none ∧ (ptpOfKind 11 false (some someQuality)).quality = some someQuality) ∧
    (let s := ptpRun 4 1 1 fun p => { p with req := some (7, 0) }
     s.Inv ∧ ethUp s 31 = true ∧ ptpState s 31 = 4 ∧ s.get (K.ptpPort_DelayMechanism 31) ≠ 0 ∧
      (s.ptp 31).req = some ((ptpOfKind 3 false none).seq, 0) ∧ (ptpOfKind 3 false none).twoStep = false) ∧
    (let s := ((((ptpRun 1 2 0 id).set (K.port_PortState 0) 3).set (K.port_ActiveMode 0) 2).set (K.ptpPort_PortRole 0) 2).set
        (K.ptpPort_PtpPortEnable 0) 1
     s.Inv ∧ ethUp s 31 = true ∧ ethUp s 0 = true ∧ 1 ≤ ptpState s 31 ∧ ptpState s 31 ≤ 4 ∧ s.get (K.ptpPort_PortRole 31) = 2 ∧
      s.get (K.ptpPort_PortRole 0) = 2 ∧ s.get (K.ptpPort_PtpPortEnable 0) ≠ 0 ∧ s.get (K.ptpPort_DelayMechanism 31) = 0) ∧
    (holds [1, 3, 4] fun v =>
      let s := ptpRun v 1 0 id
      s.Inv ∧ s.get (K.ptpPort_PortRole 31) = 1 ∧ ptpState s 31 = v ∧ s.timing ≠ 0 ∧
        (s.ptp 31).heardAt + s.get (K.ptpPort_AnnounceReceiptTimeout 31) * logInterval (s.getI (K.ptpPort_LogAnnounceInterval 31) 1) ≤
          (s.reach (s.time.t0 + 0)).elapsed) := by
  refine ⟨by decide +kernel, by decide +kernel, by decide +kernel, fun _ => rfl, by decide +kernel, by decide +kernel, by decide +kernel, by decide +kernel⟩

/-! ### Witnesses: the network -/

/-- A device whose DeviceUid the factory has set to a number; that number is not the default of the model's device. -/
def withUid (v : Nat) (s : State) : State := { s with dict := SMap.set (v + 1) K.network_DeviceUid v s.dict }

theorem aux_set (k v d : Nat) (h : d ≠ v) (m : SMap Nat) : SMap.set (v + 1) k v m = SMap.set d k v m := by
  have h1 : ¬ v = v + 1 := by omega
  have h2 : ¬ v = d := fun e => h e.symm
  induction m with
  | nil => simp only [SMap.set, h1, h2, if_false]
  | cons e m ih => simp only [SMap.set, h1, h2, if_false, ih]

/-- Of two devices with different numbers one at least is a device that the model has. -/
theorem aux_uid (f : Nat → State) (h : ∀ v, (f v).Inv) : ∃ v ∈ [5, 6], (withUid v (f v)).Inv := by
  have key (v : Nat) (hd : dfltOf K.network_DeviceUid ≠ v) : (withUid v (f v)).Inv := by
    obtain ⟨⟨hm, hs, hk⟩, hb, hc⟩ := h v
    refine ⟨⟨?_, hs, hk⟩, hb, hc⟩
    show SMap.wf dfltOf (SMap.set (v + 1) K.network_DeviceUid v (f v).dict) = true
    rw [aux_set _ _ _ hd]
    exact SMap.wf_set dfltOf _ _ _ rfl _ hm
  by_cases h5 : dfltOf K.network_DeviceUid = 5
  · exact ⟨6, by simp, key 6 (by omega)⟩
  · exact ⟨5, by simp, key 5 h5⟩

/-- A network frame with a good check: from device 9 to `dest`, without a trailer. -/
def frameOf (kind dest : Nat) (body : List Nat) (age : Nat := 0) (hops : Nat := 16) (flags : Nat := 0) : List Nat :=
  let m := [1, kind, (kindClass kind).getD 0 + flags, hops] ++ toBytes 2 dest ++ toBytes 2 9 ++ toBytes 2 age ++ toBytes 2 body.length ++ body
  m ++ toBytes 4 (crc32c (zeroLife m))

/-- A member of address 5 in a MemberState, with what its network layer holds. -/
def netRun (ms : Nat) (f : NetSt → NetSt) : State :=
  let s := (run.set K.network_MemberState ms).set K.network_DeviceAddress 5
  { s with net := f NetSt.reset }

/-- A frame has just arrived on port 31. -/
def arrive (s : State) (f : List Nat) : State := { s with net := { s.net with inbox := [⟨31, s.elapsed, f⟩] } }

/-- It is for this device and passes the checks. -/
def arrives (s : State) (f : List Nat) (kind : Nat) : Bool := decide ((arrive s f).Arrives ⟨31, s.elapsed, f⟩ [] kind)

theorem witness_NetworkFrames :
    (let f := (frameOf 2 5 (List.replicate 10 0)).set 15 1
     let s := arrive (netRun 2 id) f
     s.Inv ∧ s.inRun = true ∧ s.net.inbox = [⟨31, (netRun 2 id).elapsed, f⟩] ∧ forUs s f = true ∧ byteAt f 1 = 2 ∧ netGood f = false) ∧
    (holds [50000, 65535] fun a =>
      let f := frameOf 2 5 (List.replicate 10 0) a
      forUs (netRun 2 id) f = true ∧ byteAt f 1 = 2 ∧ netGood f = true ∧ 50000 ≤ field f 8 2) ∧
    (let f := frameOf 2 5 (List.replicate 10 0) 49999
     let s := { netRun 2 id with prot := { ProtSt.reset with required := 16 } }
     (arrive s f).Inv ∧ forUs s f = true ∧ byteAt f 1 = 2 ∧ netGood f = true ∧ field f 8 2 < 50000 ∧ bit (byteAt f 2) 4 = false ∧
      bit s.prot.required 4 = true) ∧
    (holds [frameOf 99 5 [], frameOf 4 5 [0], frameOf 12 5 [11]] fun f => forUs (netRun 2 id) f = true ∧ unlisted f = true) ∧
    (let s := netRun 2 id
     let up (e : List Nat) : Nat := field e 8 2 + linkDelayUs s 31 + upUs (s.elapsed - s.elapsed)
     s.Inv ∧ (holds [(0, 0), (1, 49990), (1, 49989)] fun x =>
       let f := frameOf 2 9 (List.replicate 10 0) x.2 x.1
       forUs s f = false ∧ netGood f = true ∧ byteAt f 3 = x.1 ∧ up f = x.2 + 10) ∧
     portFor s 9 false = none) ∧
    (let s := ((netRun 2 fun n => { n with routes := [⟨9, 31, none⟩] }).set (K.port_PortState 31) 2).set (K.port_ActiveMode 31) 1
     s.Inv ∧ portFor s 9 false = some 31 ∧ (s.port 31).wait = []) := by decide +kernel

/-- The LSA of a device: its UID, address 9, SEQ, priority 10, a state, no links. -/
def lsaBody (uid seq state : Nat) : List Nat := toBytes 8 uid ++ toBytes 2 9 ++ toBytes 4 seq ++ [10, state, 0, 0]

/-- A database that holds the LSA of device 7, live. -/
def dbOf (seq state : Nat) (n : NetSt) : NetSt :=
  { n with lsas := [⟨7, 9, seq, 10, state, [], 999999, false⟩], live := [(5, 0), (6, 0), (7, 0)], lsaSeq := 1, unsettled := true, dirty := true }

theorem witness_Membership :
    (∃ v ∈ [5, 6], (withUid v (netRun 2 (dbOf 1 4))).Inv) ∧ (∃ v ∈ [5, 6], (withUid v (netRun 1 (dbOf 1 4))).Inv) ∧
    (∃ v ∈ [5, 6], (withUid v (netRun 4 id)).Inv) ∧
    (holds [5, 6] fun v =>
      let s := withUid v (netRun 2 (dbOf 1 4))
      let b := lsaBody 7 2 4
      arrives s (frameOf 1 0xFFF b) 1 = true ∧ netBody (frameOf 1 0xFFF b) = b ∧ lsaOf b s.time.ms false = some ⟨7, 9, 2, 10, 4, [], 1000000, false⟩ ∧
        7 ≠ ownUid s ∧ (s.net.lsas.all fun o => serialNewer 32 2 o.seq) = true) ∧
    (holds [5, 6] fun v => holds [0, 1] fun adm => holds [0, 4095] fun claim =>
      let s := (withUid v (netRun 4 id)).set K.protection_AdmissionSlots adm
      let b := toBytes 8 7 ++ toBytes 2 claim
      arrives s (frameOf 2 5 b) 2 = true ∧ b.length = 10 ∧ field b 8 2 < 4096 ∧ memberState s = 4 ∧
        joinRefuses (s.took []) none = (if adm = 0 then none else some St.notAuthorised) ∧ (addrGrant (s.took []) 7 claim).isSome = true) ∧
    (holds [5, 6] fun v =>
      let s := withUid v (netRun 1 id)
      let b := toBytes 8 v ++ toBytes 2 4095 ++ toBytes 2 St.ok
      arrives s (frameOf 3 5 b) 3 = true ∧ b.length = 12 ∧ field b 8 2 < 4096 ∧ field b 0 8 = ownUid s ∧ memberState s = 1 ∧
        s.net.joined = false ∧ field b 10 2 = St.ok) ∧
    (holds [5, 6] fun v =>
      let s := ((withUid v (netRun 1 (dbOf 1 4))).set (K.port_PortState 31) 2).set (K.port_ActiveMode 31) 1
      let r := s.reach (s.time.t0 + 0)
      memberState s ≠ 0 ∧ ownLinks s = s.net.links ∧ 10000 ≤ s.time.ms - s.net.lsaAt ∧ s.net.dirty = true ∧ memberState s = 1 ∧
        s.net.joined = false ∧ (knownRoot r).isSome = true ∧ fabricPorts s ≠ [] ∧ s.net.joinAt = 0) ∧
    (holds [5, 6] fun v =>
      let s := withUid v (netRun 2 (dbOf 1 4))
      let r := s.reach (s.time.t0 + 0)
      s.inRun = true ∧ r.atEdge = true ∧ 200 ≤ s.time.ms - s.net.dbAt ∧ memberState s ≠ 0 ∧ memberState s ≠ 4 ∧
        (elect r).1.map (·.uid) = some 7 ∧ 7 ≠ ownUid s) ∧
    (holds [5, 6] fun v =>
      let s := withUid v (netRun 4 id)
      let r := s.reach (s.time.t0 + 0)
      otherRoots r = [] ∧ (elect { r with net := { r.net with live := [(v, 0)] } }).1.map (·.uid) = some (ownUid s)) := by
  have h1 (m : Nat) (hm : m = 1 ∨ m = 2) : ((netRun m (dbOf 1 4)).Inv) := by obtain rfl | rfl := hm <;> decide +kernel
  have h4 : (netRun 4 id).Inv := by decide +kernel
  exact ⟨aux_uid _ fun _ => h1 2 (.inr rfl), aux_uid _ fun _ => h1 1 (.inl rfl), aux_uid _ fun _ => h4, by decide +kernel, by decide +kernel,
    by decide +kernel, by decide +kernel, by decide +kernel, by decide +kernel⟩

/-- A transaction to device 9 and a source entry with one copy. -/
def txnOf (ring : Option (Nat × Nat)) (tries : Nat) : TxnEnt := ⟨9, 1, 3, [1, 2], 0, tries, ring⟩
def copyOf : Copy := ⟨63, 4, 9, 0, 500, 0, none⟩
def entOf : SrcEnt := ⟨1, 3, 77, 0, 0, 2 ^ 96 - 1, [1, 2], [copyOf]⟩

/-- An acknowledgement of that copy. -/
def ackBody (status : Nat) : List Nat := toBytes 2 1 ++ toBytes 2 3 ++ [63, 0] ++ toBytes 6 4 ++ toBytes 2 status

theorem witness_TransactionsAndCopies :
    (let b := toBytes 2 1 ++ toBytes 2 3 ++ [7, 7]
     let f := frameOf 6 5 b
     netBody f = b ∧ field f 6 2 = 9 ∧ 4 ≤ b.length ∧ field b 0 2 = 1 ∧ field b 2 2 = 3 ∧ arrives (netRun 2 id) f 6 = true ∧
      (arrive (netRun 2 id) f).Inv ∧ (netRun 2 id).net.txns = [] ∧
      (holds [none, some (3, 5)] fun g =>
        let s := arrive (netRun 2 fun n => { n with txns := [txnOf g 1] }) f
        s.Inv ∧ s.inRun = true ∧ s.net.txns.find? (fun t => (t.dest == 9 || t.dest == 0) && t.epoch == 1 && t.number == 3) = some (txnOf g 1) ∧
          s.streamFits 0x7051 (4 + (octetWords (b.drop 4)).length) = true)) ∧
    (holds [St.ok, St.timeout, St.journalFull] fun st =>
      let s := netRun 2 fun n => { n with entries := [entOf] }
      let b := ackBody st
      let f := frameOf 8 5 b
      (arrive s f).Inv ∧ arrives s f 8 = true ∧ netBody f = b ∧ b.length = 14 ∧ byteAt b 5 = 0 ∧ byteAt b 4 < 64 ∧ entOf.copies = [copyOf] ∧
        copyOf.outcome = none ∧ entOf.epoch = field b 0 2 ∧ entOf.number = field b 2 2 ∧ copyOf.channel = byteAt b 4 ∧
        copyOf.chseq = field b 6 6 ∧ copyOf.dest = field f 6 2 ∧ bit entOf.flags 3 = false ∧ bit entOf.flags 4 = false ∧
        field b 12 2 = st ∧ s.streamFits 0x7032 7 = true) ∧
    (holds [2, 3] fun n =>
      let s := netRun 2 fun x => { x with txns := [txnOf none n] }
      let el := (s.reach (s.time.t0 + 0)).elapsed
      s.Inv ∧ s.net.txns.find? (fun t => decide (t.at_ + s.get K.remote_TxnTimeout * MS ≤ el)) = some (txnOf none n)) ∧
    (let s := netRun 2 fun n => { n with entries := [entOf] }
     s.Inv ∧ s.net.entries = [entOf] ∧ copyOf.channel < 64 ∧ copyOf.at_ + copyOf.interval * MS ≤ (s.reach (s.time.t0 + 0)).elapsed) ∧
    (let m : Msg := ⟨1, 3, 63, 0, 4, 5, 0, 2 ^ 96 - 1, [1]⟩
     let k : KeeperEnt := ⟨9, 4, m, true, 500, 0⟩
     let s := netRun 2 fun n => { n with keepers := [k] }
     s.Inv ∧ s.net.keepers[0]? = some k ∧ k.relayed = true ∧ k.at_ + k.interval * MS ≤ (s.reach (s.time.t0 + 0)).elapsed) ∧
    (holds [1, 2, 3] fun v =>
      let s := ((netRun 2 fun n => { n with deadSince := [(9, 0)] }).set (K.outChannel_ChannelState 63) v).set (K.outChannel_Destination 63) 9
      s.Inv ∧ s.get (K.outChannel_ChannelState 63) = v ∧ s.get (K.outChannel_Destination 63) = 9 ∧
        s.get K.messages_ChannelDeadTime * 1000 ≤ s.time.ms - 0) := by decide +kernel

/-- A MESSAGE to channel 63 with a CHSEQ, expiring at an instant, and what it says. -/
def msgBody (chseq flags expires : Nat) : List Nat :=
  toBytes 2 1 ++ toBytes 2 3 ++ [63, flags] ++ toBytes 6 chseq ++ toBytes 2 0 ++ toBytes 12 0 ++ toBytes 12 expires ++ toBytes 2 2 ++ [1, 2]
def msgIs (chseq flags expires : Nat) : Msg := ⟨1, 3, 63, flags, chseq, 0, 0, expires, [1, 2]⟩

theorem witness_ReceiptsAndKeepers :
    (let s := netRun 2 fun n => { n with recvs := [⟨9, 63, 4, none⟩] }
     (holds [3, 4, 5] fun q =>
      let e := 2 ^ 96 - 1
      let f := frameOf 7 5 (msgBody q 0 e)
      (arrive s f).Inv ∧ arrives s f 7 = true ∧ msgOf (netBody f) = some (msgIs q 0 e) ∧ recvOf s (field f 6 2) 63 = some ⟨9, 63, 4, none⟩ ∧
        (msgIs q 0 e).open_ = false ∧ (s.reach (s.time.t0 + 0)).now96 ≤ e ∧ journalFits s 1 (64 + 2) = true)) ∧
    (let s := netRun 2 id
     let f := frameOf 7 5 (msgBody 1 2 (2 ^ 96 - 1))
     (holds [1, 2, 4, 8, 16] fun fl =>
       (msgIs 1 fl 0).open_ = true → arrives s (frameOf 7 5 (msgBody 1 fl (2 ^ 96 - 1))) 7 = true ∧
         msgOf (netBody (frameOf 7 5 (msgBody 1 fl (2 ^ 96 - 1)))) = some (msgIs 1 fl (2 ^ 96 - 1))) ∧
     (∃ fl ∈ [1, 2, 4, 8, 16], (msgIs 1 fl 0).open_ = true) ∧ (arrive s f).Inv ∧ recvOf s 9 63 = none ∧ s.net.recvs.length < 4096) ∧
    (let s := netRun 2 id
     let b := [1, 0] ++ msgBody 1 0 0
     let f := frameOf 9 5 b
     (arrive s f).Inv ∧ arrives s f 9 = true ∧ netBody f = b ∧ byteAt b 0 = 1 ∧ byteAt b 1 = 0 ∧ msgOf (b.drop 2) = some (msgIs 1 0 0) ∧
      s.net.keepers = [] ∧ journalFits s 1 (64 + 2) = true) ∧
    (let s := netRun 2 id
     let b := [3, 0] ++ toBytes 2 1 ++ toBytes 2 3 ++ [63, 0] ++ List.replicate 6 0
     let f := frameOf 9 5 b
     arrives s f 9 = true ∧ netBody f = b ∧ byteAt b 0 = 3 ∧ b.length = 14 ∧ byteAt b 1 = 0 ∧ byteAt b 7 = 0) ∧
    (let k : KeeperEnt := ⟨9, 4, msgIs 1 0 0, false, 0, 0⟩
     let s := netRun 2 fun n => { n with keepers := [k], deadSince := [(9, 0)] }
     s.Inv ∧ s.net.keepers.find? (fun k => !k.relayed && s.net.deadSince.any fun p => p.1 == k.source
        && decide (s.get K.messages_KeeperTakeover ≤ s.time.ms - p.2)) = some k) := by decide +kernel

/-- A stream frame's control body: stream 2, incarnation 3, an operation and a SEQ. -/
def ctlBody (op seq : Nat) : List Nat := toBytes 2 2 ++ toBytes 2 3 ++ [op, 0] ++ toBytes 6 seq

theorem witness_StreamChannels :
    (let s := netRun 2 fun n => { n with rx := [⟨9, 2, 3, 7, 0⟩] }
     (holds [7, 8] fun q => holds [0, 60] fun n =>
      let b := toBytes 2 2 ++ toBytes 2 3 ++ toBytes 6 q ++ List.replicate n 1
      let f := frameOf 10 5 b
      (arrive s f).Inv ∧ arrives s f 10 = true ∧ netBody f = b ∧ 10 ≤ b.length ∧ b.length ≤ 2010 ∧
        rxOf s (field f 6 2) (field b 0 2) = some ⟨9, 2, 3, 7, 0⟩ ∧ field b 2 2 = 3 ∧ field b 4 6 = q)) ∧
    (holds [1, 2, 3, 4, 5] fun op =>
      let b := ctlBody op 8
      let f := frameOf 11 5 b
      (arrive (netRun 2 id) f).Inv ∧ arrives (netRun 2 id) f 11 = true ∧ netBody f = b ∧ b.length = 12 ∧ byteAt b 5 = 0 ∧ byteAt b 4 = op ∧
        rxOf (netRun 2 id) 9 2 = none ∧ serialNewer 16 (field b 2 2) 2 = true) ∧
    (holds [false, true] fun o => holds [1, 2] fun n =>
      let x : StreamTx := ⟨9, 2, 3, o, 8 - n, [[1], [2]], 2, 0⟩
      let s := netRun 2 fun y => { y with tx := [x] }
      let b := ctlBody 3 8
      let d := (field b 6 6 + 2 ^ 48 - x.base) % 2 ^ 48
      s.Inv ∧ s.net.tx = [x] ∧ x.dest = 9 ∧ x.stream = field b 0 2 ∧ x.inc = field b 2 2 ∧ x.open_ = o ∧ 0 < d ∧ d ≤ x.sent ∧ 0 < x.sent ∧
        x.at_ + 20 * MS ≤ (s.reach (s.time.t0 + 0)).elapsed) := by decide +kernel

/-- A fabric-scope frame and the change it names: CvEnable of LakeEnsemble, or what `sub` names. -/
def fsFrame (op cseq tick : Nat) (value : List Nat) (sub : Nat := 1) : List Nat := fsBody op cseq tick 0xE600 sub value
def fsIs (cseq tick : Nat) (value : List Nat) (committed : Bool := false) (sub : Nat := 1) : FsChange := ⟨cseq, tick, 0xE600, sub, value, committed⟩

theorem witness_FabricScope :
    (holds [1, 2, 3, 4, 5, 6, 7] fun op => holds [0, 3] fun q =>
      let b := fsFrame op q 1000100 [1]
      let f := frameOf 4 5 b
      (arrive (netRun 4 id) f).Inv ∧ arrives (netRun 4 id) f 4 = true ∧ netBody f = b ∧ fsOf b = some (fsIs q 1000100 [1]) ∧ byteAt b 0 = op ∧
        memberState (netRun 4 id) = 4) ∧
    (holds [5, 6] fun v =>
      quorum ((withUid v (netRun 4 id)).took []) = true ∧
      quorum ((withUid v (netRun 4 fun n => { n with table := [⟨1, 1, 1000000⟩, ⟨2, 2, 1000000⟩] })).took []) = false) ∧
    (∃ v ∈ [5, 6], (withUid v (netRun 4 id)).Inv) ∧
    (let s := netRun 2 fun n => { n with proposed := some (0xE600, 1, [1]), mine := some 3, rootAt := some 999000 }
     s.Inv ∧ s.net.proposed = some ((fsIs 3 0 [1]).index, (fsIs 3 0 [1]).sub, (fsIs 3 0 [1]).value) ∧ s.net.mine = some (fsIs 3 0 [1]).cseq ∧
      s.net.rootAt = some 999000 ∧ s.net.proposed.isSome = true ∧ 1000 ≤ s.time.ms - 999000) ∧
    (∃ k ∈ fscopeKeys, (findRow k.1 k.2).isSome = true ∧ k.1 = 0xE600) ∧
    (holds [true, false] fun live =>
      let x : FsRoot := ⟨fsIs 3 1000005 [1], 9, [9]⟩
      let s := netRun 4 fun n => (if live then dbOf 1 2 n else n)
      let s := { s with net := { s.net with fsRoot := [x], fsHeld := [fsIs 3 1000005 [1]] } }
      s.Inv ∧ s.net.fsRoot.find? (fun x => decide (x.change.tick ≤ s.time.tick + 5)) = some x ∧
        liveAddr (withUid 5 s |>.reach (s.time.t0 + 0)) 9 = live) ∧
    (holds [true, false] fun c => holds fscopeKeys fun k =>
      let d := fsIs 3 1000000 [1] c k.2
      let s := netRun 2 fun n => { n with fsHeld := [d], mine := some 3 }
      s.Inv ∧ s.atEdge = true ∧ s.net.fsHeld = [d] ∧ d.tick ≤ s.time.tick ∧ d.committed = c ∧ (d.index, d.sub) ∈ fscopeKeys ∧
        SMap.get 0 (d.index * 256 + d.sub) s.net.fsDone ≤ d.cseq ∧ s.net.mine = some d.cseq) := by
  have h4 : (netRun 4 id).Inv := by decide +kernel
  exact ⟨by decide +kernel, by decide +kernel, aux_uid _ fun _ => h4, by decide +kernel, by decide +kernel, by decide +kernel, by decide +kernel⟩

/-! ### Witnesses: Lake time and the data service -/

/-- A member with what Lake time holds. -/
def lakeRun (ms role : Nat) (f : LakeSt → LakeSt) : State :=
  let s := ((netRun ms id).set K.lakeRoot_EnsembleRole role).set K.network_RootAddress 9
  { s with lake := f LakeSt.reset }

/-- A REPORT without links; an ESTIMATE of the epoch of tick `k`; a REPLICA of no members; a RANK. -/
def reportBody : List Nat := [1, 0] ++ List.replicate 66 0
def estimateBody (k flags : Nat) : List Nat :=
  [2, flags] ++ toBytes 4 7 ++ toBytes 8 k ++ toBytes 12 (toTime96 (1000 * SEC)) ++ toBytes 6 3 ++ toBytes 4 50 ++ toBytes 4 60 ++ toBytes 2 9
def replicaBody : List Nat := [3, 0, 1] ++ List.replicate 48 0
def rankBody (trace err n : Nat) : List Nat := [10] ++ toBytes 4 7 ++ [trace, 0] ++ toBytes 4 err ++ toBytes 2 n ++ List.replicate 12 0

theorem witness_LakeTime :
    (holds [0, 1, 2, 3] fun role =>
      let s := lakeRun 2 role id
      s.Inv ∧ s.time.tick % 100 = 0 ∧ s.lake.epoch ≠ some s.time.tick ∧ lakeActive s = true ∧ s.time.running = true ∧
        s.lake.stopActing = false ∧ s.get K.lake_LakeEnable ≠ 0) ∧
    (holds [1, 3] fun role =>
      let s := lakeRun 2 role fun l => { l with open_ := some (1000 * SEC, 999970 * MS) }
      let f := frameOf 12 5 reportBody
      (arrive s f).Inv ∧ arrives s f 12 = true ∧ netBody f = reportBody ∧ byteAt reportBody 0 = 1 ∧ (reportOf (field f 6 2) reportBody).isSome = true ∧
        s.lake.open_ = some (1000 * SEC, 999970 * MS) ∧ (s.reach (s.time.t0 + 0)).elapsed = 999970 * MS + 30 * MS) ∧
    (holds [0, 15] fun fl =>
      let s := (lakeRun 2 0 fun l => { l with sent := [(999900, 999900 * MS)] }).set K.lake_LakeEnable 1
      let b := estimateBody 999900 fl
      let f := frameOf 12 5 b
      (arrive s f).Inv ∧ arrives s f 12 = true ∧ netBody f = b ∧ byteAt b 0 = 2 ∧ b.length = 42 ∧ byteAt b 1 < 16 ∧
        s.get K.lake_LakeEnable ≠ 0 ∧ lakeActive s = true ∧ field f 6 2 = s.get K.network_RootAddress ∧
        s.lake.sent.find? (fun p => p.1 == field b 6 8) = some (field b 6 8, 999900 * MS)) ∧
    (let s := lakeRun 3 2 id
     let f := frameOf 12 5 replicaBody
     (arrive s f).Inv ∧ arrives s f 12 = true ∧ netBody f = replicaBody ∧ byteAt replicaBody 0 = 3 ∧
      replicaBody.length = 51 + 32 * field replicaBody 3 2 + 16 * field replicaBody 5 2 ∧ field replicaBody 3 2 = 0 ∧ field replicaBody 5 2 = 0 ∧
      s.get K.lakeRoot_EnsembleRole = 2 ∧ byteAt replicaBody 1 = 0 ∧ byteAt replicaBody 2 = 1 ∧
      field f 6 2 = s.get K.network_RootAddress ∧ s.lake.frags = none) ∧
    (∃ v ∈ [5, 6], (withUid v (lakeRun 4 1 id)).Inv) ∧
    (holds [5, 6] fun v => holds [true, false] fun here =>
      let s := withUid v (lakeRun 4 1 id)
      let s := if here then { s with net := { s.net with live := [(v, 0)] } }
        else { s with net := dbOf 1 4 { s.net with live := [] } }
      let s := { s with net := { s.net with live := (v, 0) :: s.net.live, lsas := s.net.lsas.map fun x => { x with prio := 0 } } }
      let b := rankBody 1 50 2
      let f := frameOf 12 5 b
      arrives s f 12 = true ∧ netBody f = b ∧ byteAt b 0 = 10 ∧ b.length = 25 ∧ byteAt b 5 < 2 ∧ byteAt b 6 = 0 ∧ memberState s = 4 ∧
        electedHere (s.took []) = here) ∧
    (holds [1, 3] fun role => holds [30, 50, 51] fun d =>
      let s := lakeRun 2 role fun l => { l with open_ := some (1000 * SEC, (1000000 - d) * MS) }
      s.Inv ∧ s.lake.open_ = some (1000 * SEC, (1000000 - d) * MS) ∧ (s.reach (s.time.t0 + 0)).elapsed = (1000000 - d) * MS + d * MS) ∧
    (let s := (lakeRun 2 0 fun l => { l with estAt := some 0 }).set K.lake_LakeValid 1
     s.Inv ∧ s.lake.estAt = some 0 ∧ 0 + SEC < (s.reach (s.time.t0 + 0)).elapsed ∧ s.get K.lake_LakeValid ≠ 0) ∧
    (let s := ((lakeRun 3 2 fun l => { l with silent := 3, epoch := some 999950, silentRoot := 9, replica := some (Realm.reset, 0) }).set K.network_Standby1 5).set K.lake_LakeEnable 1
     s.Inv ∧ memberState s = 3 ∧ s.get K.network_Standby1 = ownAddr s ∧ ownAddr s ≠ 0 ∧ threeSilent s = true ∧
      s.lake.silentRoot = s.get K.network_RootAddress ∧ s.get K.lakeRoot_EnsembleRole = 2 ∧ s.get K.lake_LakeEnable ≠ 0 ∧
      s.lake.replica = some (Realm.reset, 0)) := by
  have h : (lakeRun 4 1 id).Inv := by decide +kernel
  exact ⟨by decide +kernel, by decide +kernel, by decide +kernel, by decide +kernel, aux_uid _ fun _ => h, by decide +kernel, by decide +kernel,
    by decide +kernel, by decide +kernel⟩

/-- CV_OBS, NEIGHBOURS, SIGHTINGS, EPHEMERIS, SYMBOLS and SUBSCRIBE, with one element where they have any. How many messages a store
entry's content makes is the uninterpreted Config.entrySplit. -/
def cvBody (n : Nat) : List Nat := [4, 0, n, 0] ++ toBytes 12 (toTime96 (999 * SEC)) ++ (List.range n).flatMap fun _ => [0, 1, 1] ++ List.replicate 13 0
def neighboursBody (n : Nat) : List Nat := [5, n] ++ (List.range n).flatMap fun i => toBytes 2 (20 + i) ++ [0, 1, 7, 0]
def sightingsBody (n : Nat) : List Nat :=
  [6, 0] ++ toBytes 2 n ++ toBytes 12 (toTime96 (990 * SEC)) ++ (List.range n).flatMap fun i => [0, i + 1] ++ toBytes 2 400 ++ toBytes 4 5
def ephemerisBody (kind : Nat) : List Nat := [7, kind, 15] ++ List.replicate 236 0
def symbolsBody (n : Nat) : List Nat := [8, 1, 15, 1, 2] ++ toBytes 12 (toTime96 (1000 * SEC)) ++ toBytes 2 n ++ List.replicate ((n + 7) / 8) 255

set_option maxRecDepth 20000 in
theorem witness_DataService :
    (holds [true, false] fun go => holds [0, 1] fun n =>
      let at_ := if go then 998 * SEC else 990 * SEC
      let s := (((lakeRun 2 0 fun l => { l with cv := .replicate 4 { CvSt.reset with at_ := at_, live := true } }).set K.lakeEnsemble_CvEnable 1).set
        (K.cvPartner_Partner 3) 9).set (K.cvPartner_CvRole 3) 1
      let b := cvBody n
      let f := frameOf 12 5 b
      (arrive s f).Inv ∧ arrives s f 12 = true ∧ netBody f = b ∧ byteAt b 0 = 4 ∧ b.length = 16 + 16 * byteAt b 2 ∧ byteAt b 2 ≤ 126 ∧
        byteAt b 1 = 0 ∧ byteAt b 3 = 0 ∧ (∀ i < byteAt b 2, byteAt b (16 + 16 * i + 2) < 2 ∧ byteAt b (16 + 16 * i + 3) = 0) ∧ s.get K.lakeEnsemble_CvEnable ≠ 0 ∧
        (List.range 4).find? (fun p => s.get (K.cvPartner_Partner p) == field f 6 2 && s.get (K.cvPartner_CvRole p) == 1) = some 3 ∧
        (cvAt s 3).live = true ∧ decide ((cvAt s 3).at_ + SEC = ofTime96 (field b 4 12)) = go) ∧
    (holds [0, 16] fun n =>
      let s := lakeRun 2 0 id
      let b := neighboursBody n
      let f := frameOf 12 5 b
      (arrive s f).Inv ∧ arrives s f 12 = true ∧ netBody f = b ∧ byteAt b 0 = 5 ∧ b.length = 2 + 6 * byteAt b 1 ∧ byteAt b 1 ≤ 16 ∧
        (∀ i < byteAt b 1, byteAt b (6 + 6 * i) < 8 ∧ byteAt b (7 + 6 * i) = 0) ∧ field f 6 2 = s.get K.network_RootAddress) ∧
    (holds [0, 2] fun n =>
      let s := lakeRun 2 0 id
      let b := sightingsBody n
      let f := frameOf 12 5 b
      (arrive s f).Inv ∧ arrives s f 12 = true ∧ netBody f = b ∧ byteAt b 0 = 6 ∧ b.length = 16 + 8 * field b 2 2 ∧ field b 2 2 ≤ 240 ∧
        byteAt b 1 = 0 ∧ s.lake.neighbours = [] ∧
        ((s.reach (s.time.t0 + 0)).elapsed : Int) ≤ sightedAt (s.reach (s.time.t0 + 0)) (ofTime96 (field b 4 12)) + (10 * SEC : Nat)) ∧
    (holds [1, 4] fun k =>
      let s := lakeRun 2 0 id
      let b := ephemerisBody k
      let f := frameOf 12 5 b
      (arrive s f).Inv ∧ arrives s f 12 = true ∧ netBody f = b ∧ byteAt b 0 = 7 ∧ b.length = 239 ∧
        byteAt b 2 ≤ 15 ∧ byteAt b 1 = k ∧
        storeJoins s (byteAt b 2) (byteAt b 1) (byteAt b 3) (field b 6 2) = none ∧ storePlace s = some 0) ∧
    (holds [1, 400] fun n =>
      let s := lakeRun 2 0 id
      let b := symbolsBody n
      let f := frameOf 12 5 b
      (arrive s f).Inv ∧ arrives s f 12 = true ∧ netBody f = b ∧ byteAt b 0 = 8 ∧ field b 17 2 = n ∧ b.length = 19 + (n + 7) / 8 ∧ byteAt b 1 = 1 ∧
        byteAt b 2 < 16 ∧ byteAt b 4 < 3 ∧ n ≤ 4000 ∧ ofTime96 (field b 5 12) % (sigSymbol (byteAt b 2) (byteAt b 3) * MS) = 0) ∧
    (let s := lakeRun 2 0 fun l => { l with subIn := List.replicate 127 (1, 0, 0, 0) }
     let b := [9, 1, 15, 3]
     let f := frameOf 12 5 b
     (arrive s f).Inv ∧ arrives s f 12 = true ∧ netBody f = b ∧ byteAt b 0 = 9 ∧ b.length = 4 ∧ byteAt b 1 = 1 ∧ s.lake.subIn.length < 128) ∧
    (let s := lakeRun 2 0 fun l => { l with subAt := some 0 }
     s.Inv ∧ lakeActive s = true ∧ s.lake.subAt = some 0 ∧ 0 + 5 * SEC ≤ (s.reach (s.time.t0 + 0)).elapsed) := by decide +kernel

/-! ### Witnesses: the reader, the timers, the power states -/

/-- The reader enabled, in a SynthState, with the field on, since now, or off. -/
def rdrRun (synthState on : Nat) (f : ReaderSt → ReaderSt) : State :=
  let s := (run.set K.reader_SynthState synthState).set K.reader_FieldOn on
  { s with reader := f { ReaderSt.reset with enabled := true, onAt := run.elapsed } }

/-- A TRANSCEIVE of ISO/IEC 15693 in its first of two attempts. -/
def rdrCmd : RdrCmd :=
  { op := 3, flags := 0, ref := 7, pos := 0, proto := 0x30, retries := 1, timeout := 100, txbits := 8, data := [0x26], tries := 1,
    startAt := some 0, endAt := 0, started := 0, inv := InvSt.reset, last := RxReport.none, took := 0, drop := false }

theorem witness_ReaderSynthesiser :
    (holds [(true, false, 3), (false, false, 3), (false, false, 1), (false, true, 3)] fun x =>
      let c := { rdrCmd with op := x.2.2 }
      let s := rdrRun 1 0 fun r => { r with synthAt := run.elapsed - 200 * US, calDue := x.1, want := some (0, run.elapsed), pos := 0,
                                            cmd := some c, cut := x.2.1 }
      let n := s.reach (s.time.t0 + 0)
      s.Inv ∧ synth s = 1 ∧ n.elapsed ≤ s.reader.synthAt + 200 * US ∧ s.reader.calDue = x.1 ∧ fieldOn s = false ∧
        s.reader.want = some (0, run.elapsed) ∧ s.reader.pos = 0 ∧ run.elapsed ≤ n.elapsed ∧ n.elapsed ≤ run.elapsed + MS ∧
        s.reader.cmd = some c ∧ c.op = x.2.2 ∧ fieldRefused n = (if x.2.1 then some false else none) ∧
        s.streamFits 0x8002 ((resultEntry c 1 0 RxReport.none).length + 1) = true) ∧
    (let s := rdrRun 1 1 fun r => { r with synthAt := run.elapsed, calDue := true }
     let n := s.reach (s.time.t0 + 0)
     s.Inv ∧ synth s = 1 ∧ n.elapsed ≤ s.reader.synthAt + 200 * US ∧ fieldOn s = true ∧ s.reader.want = none ∧ s.reader.calDue = true ∧
      n.elapsed ≤ timeoutAt s false ∧ n.elapsed ≤ timeoutAt s true ∧ dutyMet n n.elapsed = false) ∧
    (holds [(1, true, 2), (2, true, 3), (2, false, 2)] fun x =>
      let s := rdrRun 1 0 fun r => { r with calFails := x.1, calTried := x.2.1, want := some (0, run.elapsed), cmd := some rdrCmd }
      let n := s.reach (s.time.t0 + 0)
      s.Inv ∧ synth s = 1 ∧ s.reader.synthAt + 200 * US ≤ n.elapsed ∧ n.elapsed ≤ run.elapsed + MS ∧ fieldOn s = false ∧
        (s.reader.calFails + if s.reader.calTried = true then 1 else 0) = x.2.2 ∧ s.reader.want ≠ none) ∧
    (let s := rdrRun 3 0 id
     s.Inv ∧ synth s = 3 ∧ s.reader.synthAt + 500 * US ≤ (s.reach (s.time.t0 + 0)).elapsed) ∧
    (holds [0, 1, 3] fun v =>
      let s := rdrRun v 0 fun r => { r with want := some (0, 5), cmd := some rdrCmd }
      s.Inv ∧ synth s ≠ 2 ∧ synth s ≠ 4 ∧ 5 + MS ≤ (s.reach (s.time.t0 + 0)).elapsed ∧ fieldOn s = false ∧
        s.streamFits 0x8002 ((resultEntry rdrCmd 1 7 RxReport.none).length + 1) = true) ∧
    (holds [(100, 10000, 1000), (100, 100, 1000), (101, 10000, 100)] fun x => holds [none, some 0] fun start =>
     let s := ((rdrRun 2 1 fun r => { r with cmd := some { rdrCmd with startAt := start }, onAt := run.elapsed - 100 * MS }).set
        K.field_FieldTimeout x.1).set K.regulatoryLocks_FieldTimeoutCeiling x.2.1
     let s := s.set K.regulatoryLocks_DutyCeiling x.2.2
     let n := s.reach (s.time.t0 + 0)
     s.Inv ∧ s.reader.want = none ∧ fieldOn s = true ∧ s.reader.cmd.isSome = true ∧ timeoutAt s false ≤ timeoutAt s true ∧
      (x.2.1 = 100 → timeoutAt s true ≤ timeoutAt s false) ∧
      (if x.1 = 100 then timeoutAt s false ≤ n.elapsed ∧ dutyMet n (timeoutAt s false) = false
       else n.elapsed ≤ timeoutAt s false ∧ dutyMet n n.elapsed = true)) := by decide +kernel

/-- A frame received at a time, with bits, a violation and bytes. -/
def rxFrame (nbits : Nat) (viol : Option Nat) (bytes : List Nat) : RxFrame :=
  { respAt := 5000, e0 := 9, e1 := 8, es := 3, en := 100, amp := 200, viol := viol, nbits := nbits, bytes := bytes }

/-- Bytes with the check of ISO/IEC 15693. -/
def vicinity (b : List Nat) : List Nat := b ++ crcBytes 0x30 b

/-- A command in progress. -/
def cmdRun (c : RdrCmd) : State := rdrRun 2 1 fun r => { r with cmd := some c }

/-- It has begun, no limit of the field is reached, and nothing breaks the mask. -/
def cmdGoes (c : RdrCmd) : Bool :=
  let s := cmdRun c
  let n := s.reach (s.time.t0 + 0)
  decide (s.Inv ∧ s.reader.want = none ∧ s.reader.cmd = some c ∧ c.startAt = some 0 ∧ 0 ≤ n.elapsed ∧ n.elapsed ≤ timeoutAt s false ∧
    n.elapsed ≤ timeoutAt s true ∧ dutyMet n n.elapsed = false ∧ maskStops s [] = false)

/-- A frame of it is heard. -/
def cmdHears (c : RdrCmd) (f : RxFrame) : Bool :=
  let s := cmdRun c
  decide (radioUp s = true ∧ inWindow c f.respAt = true ∧ c.endAt + fcDu f.respAt ≤ (s.reach (s.time.t0 + 0)).elapsed)

theorem witness_ReaderExchanges :
    (holds [(1, 1), (2, 1)] fun x => holds [0, 2, 8] fun fl =>
      let c := { rdrCmd with tries := x.1, retries := x.2, flags := fl }
      let s := cmdRun c
      cmdGoes c = true ∧ c.op = 3 ∧ c.drop = false ∧ c.tries = x.1 ∧ c.retries = x.2 ∧
        c.endAt + fcDu (c.timeout * 128) ≤ (s.reach (s.time.t0 + 0)).elapsed ∧
        (holds [rxFrame 32 (some 7) [1], rxFrame 32 none [1, 2, 3], rxFrame 32 none (vicinity [1, 2])] fun f =>
          cmdHears c f = true ∧ s.streamFits 0x8002 ((resultEntry c c.tries 3 (reportOfFrame c f f.bytes)).length + 1) = true)) ∧
    (bit 2 1 = true ∧ bit 0 1 = false ∧ bit 8 3 = true ∧ bit 8 1 = false) ∧
    (crcHolds 0x30 [1, 2, 3] = false ∧ crcHolds 0x30 (vicinity [1, 2]) = true) ∧
    (holds [rxFrame 4 (some 7) [1], rxFrame 4 (some 9) [1], rxFrame 8 (some 8) [1], rxFrame 8 none [1], rxFrame 4 none [1]] fun f =>
      cmdHears rdrCmd f = true) ∧
    ((rxFrame 8 none [1]).amp + (cmdRun rdrCmd).get K.reader_CollisionMargin ≤ 4000 ∧
      ¬ (rxFrame 8 none [1]).amp + (cmdRun rdrCmd).get K.reader_CollisionMargin ≤ 200) ∧
    (let s := (cmdRun rdrCmd).set K.spectralMask_MaskAction 1
     s.Inv ∧ maskStops s [(65535, -32768)] = true ∧ fieldOn s = true) ∧
    (let c := { rdrCmd with drop := true }
     cmdGoes c = true ∧ c.drop = true ∧ 3 ≤ c.op) ∧
    (let c := { rdrCmd with op := 4, inv := { InvSt.reset with slot := 14, found := [[9]] } }
     let f := rxFrame 96 none (vicinity [0, 0, 1, 2, 3, 4, 5, 6, 7, 8])
     cmdGoes c = true ∧ c.op = 4 ∧ c.proto / 16 = 3 ∧ c.inv.stage ≠ 4 ∧ c.inv.slot < 15 ∧ cmdHears c f = true ∧ f.viol = none ∧
      crcHolds c.proto f.bytes = true ∧ ((f.bytes.drop 2).take 8) ∉ c.inv.found ∧ c.inv.found.length < 256) ∧
    (let c := { rdrCmd with op := 4, proto := 0x10 }
     let s := cmdRun c
     cmdGoes c = true ∧ c.proto / 16 = 1 ∧ c.inv.stage = 0 ∧ c.endAt + fcDu (c.timeout * 128) ≤ (s.reach (s.time.t0 + 0)).elapsed) := by
  decide +kernel

/-- A delay record for an item of the kind of item 0, and the same with a wrong check. -/
def tagRecord (check : Nat) : List Nat :=
  let b := [0xD7, 0x1E, 1, 0] ++ toBytes 8 65536 ++ toBytes 3 20 ++ [0] ++ [0x20, 0x25, 0x01, 0x01] ++ List.replicate 8 0 ++ [0, 0]
  b ++ toBytes 2 (crc16 b + check)

/-- A state for the reader's jobs: coil port 0 enabled with one position, items 0 and 1 named by tags there. -/
def jobRun (f : ReaderSt → ReaderSt) : State :=
  ((((((((rdrRun 2 0 f).set (K.coilPort_PortEnable 0) 1).set K.cardDetect_CdPosition 0).set K.cardDetect_CdEnable 1).set (K.delay_Source 0) 1).set
    (K.delay_TagPosition 0) 0).set K.delayScan_ScanMode 1).set (K.coilPort_MuxPositions 0) 1)

theorem witness_ReaderJobs :
    (holds [0, 100] fun ref =>
      let s := (jobRun id).set (K.coilPort_CoilDetuneRef 0) ref
      let n := s.reach (s.time.t0 + 0)
      let pos := s.get K.cardDetect_CdPosition
      s.Inv ∧ s.inRun = true ∧ s.reader.enabled = true ∧ s.reader.cmd = none ∧ s.reader.want = none ∧ s.reader.scan = none ∧
        s.reader.burstAt + s.get K.cardDetect_CdInterval * MS ≤ n.elapsed ∧ s.getB K.cardDetect_CdEnable = true ∧ synth s = 2 ∧
        posUsable s pos = true ∧ fieldOn s = false ∧ fieldRefused n = none ∧ s.get (K.coilPort_CoilDetuneRef (pos / 32)) = ref) ∧
    (let s := jobRun fun r => { r with scanDue := true }
     s.Inv ∧ scanIsDue (s.reach (s.time.t0 + 0)) = true ∧ scanItems s (List.range 10) ≠ []) ∧
    (holds [[0], [0, 9]] fun l => holds [true, false] fun ok =>
      let s := jobRun fun r => { r with scan := some l }
      let s := if ok then s else s.set K.regulatoryLocks_AllowedProtocols 3
      let n := s.reach (s.time.t0 + 0)
      s.Inv ∧ s.reader.scan = some l ∧ l.length ≠ 0 ∧ l.getD 0 0 = 0 ∧ cardPollDue n = false ∧ protoAllowed s 0x30 = ok ∧
        posUsable s (s.get (K.delay_TagPosition 0)) = true ∧ synth s = 2 ∧ fieldRefused n = none) ∧
    recordValid 0 (tagRecord 0) = true ∧ recordValid 0 (tagRecord 1) = false ∧
    (jobRun id).get (K.delay_TagId 0) ≠ ofBytes [1, 2, 3, 4, 5, 6, 7, 8] ∧ (jobRun id).get (K.delay_TagId 0) = ofBytes [0] := by decide +kernel

/-- Timer 15 in a state, with a Count, a ClockSource and what it holds beyond its record. -/
def tmrRun (state count clock : Nat) (f : TmrSt → TmrSt) : State :=
  let s := ((run.set (K.cadenceTimer_TimerState 15) state).set (K.cadenceTimer_Count 15) count).set (K.cadenceTimer_ClockSource 15) clock
  { s with tmr := { TimersSt.reset with tmr := vecMod TimersSt.reset.tmr 15 f } }

theorem witness_CadenceTimers :
    (let s := tmrRun 1 5 0 fun t => { t with arm := .at_ (1000 * SEC) }
     s.Inv ∧ (∀ m < 16, (s.timer m).stopAt = none) ∧ s.time.running = true ∧ s.tmr.stopped = false ∧ bankUp s 1 = true ∧
      16 * gridStep ≤ s.tickAhead ∧ s.timerState 15 = 1 ∧ armInstant (s.timer 15).arm = some (1000 * SEC)) ∧
    (let s := ((tmrRun 1 5 0 fun t => { t with arm := .tick 999999 }).set (K.cadenceTimer_TimerState 0) 1)
     let s := { s with tmr := { s.tmr with tmr := vecMod s.tmr.tmr 0 fun t => { t with arm := .master 15 } } }
     s.Inv ∧ (∀ m < 16, (s.timer m).stopAt = none) ∧ (s.timer 15).arm = .tick 999999 ∧ 999999 < s.time.ms ∧ s.timerState 0 = 1 ∧
      (s.timer 0).arm = .master 15) ∧
    (holds [0, 1] fun mode => holds [0, 1, 3] fun c =>
      let s := (((((tmrRun 2 c 0 id).set (K.cadenceTimer_TimerMode 15) mode).set (K.cadenceTimer_TimerState 0) 2).set (K.cadenceTimer_ClockSource 0) 2).set
        (K.cadenceTimer_SourceSelect 0) 15).set (K.cadenceTimer_Count 0) 2
      s.Inv ∧ s.underflowDue 15 (max 1 c * gridStep) = true ∧ s.get (K.cadenceTimer_TimerMode 15) = mode ∧ s.timerState 0 = 2 ∧
        s.get (K.cadenceTimer_ClockSource 0) = 2 ∧ s.get (K.cadenceTimer_SourceSelect 0) = 15 ∧ 1 < s.get (K.cadenceTimer_Count 0)) ∧
    (let s := ((tmrRun 2 3 0 id).set (K.cadenceTimer_Compare0 15) 2).set (K.cadenceTimer_Compare1 15) 1
     s.Inv ∧ s.matchDue 15 0 gridStep = true ∧ s.matchDue 15 1 (2 * gridStep) = true ∧ 1 ≤ s.get (K.cadenceTimer_Count 15)) ∧
    (holds [(5, true), (5, false), (3, true), (4, false)] fun x =>
      let s := (tmrRun 2 2 x.1 id).set (K.cadenceTimer_SourceSelect 15) 7
      s.Inv ∧ s.timerState 15 = 2 ∧ s.get (K.cadenceTimer_SourceSelect 15) = 7 ∧
        (s.get (K.cadenceTimer_ClockSource 15) = 5 ∨ s.get (K.cadenceTimer_ClockSource 15) = (if x.2 = true then 3 else 4)) ∧
        1 < s.get (K.cadenceTimer_Count 15)) := by decide +kernel

theorem witness_CaptureAndOutputs :
    (let s := { run with tmr := { TimersSt.reset with pulse := .replicate 8 (some (1000 * SEC)) } }
     s.Inv ∧ (∀ m < 16, (s.timer m).stopAt = none) ∧ s.tmr.pulse.getD 7 none = some (1000 * SEC)) ∧
    (holds [(3, true), (3, false), (1, true), (2, false)] fun x => holds [(3, none), (4, some 0)] fun n =>
      let s := ((run.set (K.capture_CaptureEdge 7) x.1).set (K.capture_IrqOnCapture 7) 1).set K.timerGlobal_TimerIrqCore 3
      let s := { s with tmr := { TimersSt.reset with queue := .replicate 8 (List.replicate n.1 0), capAt := .replicate 8 n.2 } }
      s.Inv ∧ s.time.running = true ∧ bankUp s 1 = true ∧ s.tmr.stopped = false ∧ s.tmr.capAt.getD 7 none = n.2 ∧
        0 + capFilter (s.reach (1000 * SEC)) * NS ≤ (s.reach (1000 * SEC)).elapsed ∧ (s.get (K.capture_CaptureEdge 7) = 3 ∨ s.get (K.capture_CaptureEdge 7) = (if x.2 = true then 1 else 2)) ∧
        (s.captures 7).length = n.1 ∧ s.getB (K.capture_IrqOnCapture 7) = true ∧ s.get K.timerGlobal_TimerIrqCore = 3) := by decide +kernel

/-- Every core waits, and an attempt for a mode is armed whose reply has left. -/
def armedRun (m : Nat) : State :=
  let s := (run.set K.powerControl_PowerMode m).set K.powerControl_WakeEnable 0xFFFF
  { s with cpu := { s.cpu with core := .replicate 4 { core with waiting := true, waited := true } }, power := { s.power with armed := some 0 } }

theorem witness_EntryAttempts :
    (holds [1, 2, 3, 4] fun m =>
      let s := armedRun m
      let n := (s.reach (s.time.t0 + 0)).reachAon 0
      let v := if m = 4 then n.set K.oasis_OasisBursts 0 else n
      let s1 := { s with rx := { s.rx with run := some ⟨0, [], false, false, false, 0⟩ } }
      let n1 := (s1.reach (s1.time.t0 + 0)).reachAon 0
      let v1 := if m = 4 then n1.set K.oasis_OasisBursts 0 else n1
      s.Inv ∧ s1.Inv ∧ s.inRun = true ∧ s.power.armed = some 0 ∧ s.get K.powerControl_PowerMode = m ∧ coresWait s = true ∧ coresWait s1 = true ∧
        refusingBlock v = none ∧ refusingBlock v1 = some 7 ∧ wakeEnabled s (m == 1 || m == 4) 1 = true ∧ wakeEnabled s (m == 1 || m == 4) 4 = true ∧
        s.power.oasis = none) := by decide +kernel

/-- The device sleeps, every wake source enabled. -/
def sleepRun : State :=
  let s := ((run.set K.powerControl_WakeEnable 0xFFFF).set K.powerControl_WakeAlarm 1).set K.powerControl_LinkWakePorts 0x80000000
  { s with power := { s.power with phase := .sleep } }

/-- A burst of OASIS that has begun at power-up, with an error estimate beside a limit of 10; a calibration may be running. -/
def burstRun (e : Nat) (ok : Bool) : State :=
  let s := ((armedRun 4).set K.pondTime_ErrorEstimate e).set K.oasis_OasisErrorLimit 10
  { s with power := { s.power with armed := none, burst := some 0, oasis := some 0 },
           rx := { s.rx with run := if ok then none else some ⟨0, [], false, false, false, 0⟩ } }

/-- The state whose blocks vote at the end of the burst. -/
def afterBurst (s : State) : State :=
  let n := (s.reach (s.time.t0 + 0)).reachAon 0
  if errExceeds (s.get K.pondTime_ErrorEstimate) (s.get K.oasis_OasisErrorLimit) = true then
    n.flag K.powerControl_PowerFlags 4 K.powerControl_OasisLimitEvents else n

theorem witness_WakesAndFailures :
    (holds [1, 2, 4, 5, 6] fun c =>
      let n := (sleepRun.reach (sleepRun.time.t0 + 0)).reachAon 32768
      sleepRun.Inv ∧ sleepRun.power.phase = .sleep ∧ wakeEnabled sleepRun true c = true ∧
        sleepRun.power.reachedAon + 32768 * sleepRun.get K.powerControl_WakeAlarm ≤ n.time.aon ∧
        bit (sleepRun.get K.powerControl_LinkWakePorts) 31 = true ∧ sleepRun.get K.reference_RefStatus ≠ 1) ∧
    (holds [0, 1, 2, 3] fun f =>
      let s := { run with power := { run.power with waking := true, fails := f } }
      s.Inv ∧ s.power.waking = true ∧ s.power.fails = f ∧ 65536 < (max s.time.aon (s.time.aon + 66) + 1 - s.power.rampAon) * 1000) ∧
    (let s := State.reset
     s.Inv ∧ s.power.phase = .starting ∧ s.time.running = false ∧ s.time.refOk = false ∧ s.get K.reference_RefStatus = 0) ∧
    (let s := sleepRun.set K.oasis_OasisPeriod 1000
     let e := s.elapsed - 1000 * MS
     let s := { s with power := { s.power with oasis := some e } }
     let n := (s.reach (s.time.t0 + 0)).reachAon 0
     s.Inv ∧ s.power.phase = .sleep ∧ s.power.oasis = some e ∧ s.power.burst = none ∧ e < n.elapsed ∧
      (n.elapsed - e) % (s.get K.oasis_OasisPeriod * MS) = 0) ∧
    (holds [(10, true), (11, true), (10, false), (11, false)] fun x =>
      (burstRun x.1 x.2).Inv ∧ (burstRun x.1 x.2).power.burst = some 0 ∧
        0 + (burstRun x.1 x.2).get K.oasis_OasisBurst * MS ≤ ((burstRun x.1 x.2).reach ((burstRun x.1 x.2).time.t0 + 0)).elapsed ∧
        errExceeds ((burstRun x.1 x.2).get K.pondTime_ErrorEstimate) ((burstRun x.1 x.2).get K.oasis_OasisErrorLimit) = decide (x.1 = 11) ∧
        refusingBlock (afterBurst (burstRun x.1 x.2)) = if x.2 then none else some 7) ∧
    (let s := { run with power := { run.power with ramp := some (3, 0) } }
     s.Inv ∧ s.power.ramp = some (3, 0) ∧ 0 + 2 * MS ≤ ((s.reach (s.time.t0 + 0)).reachAon 0).elapsed) := by decide +kernel

/-! ### Witnesses: reset, boot, supplies, the test access port -/

/-- What a power-up finds: every supply, no failed resource. -/
def startIn (straps : Nat) : StartIn := ⟨straps, [], [], [], [], 0x1FF, 0x2A⟩

theorem witness_ResetsAndPowerUps :
    (holds [Phase.run, Phase.starting, Phase.sleep] fun ph => holds [(0, 0, false), (0, 1, true), (0, 1, false), (9, 1, false)] fun x =>
      let s := run.set K.powerControl_LastWakeCause x.2.1
      let s := { s with power := { s.power with phase := ph, rampAon := x.1, waking := x.2.2 } }
      s.Inv ∧ s.power.phase = ph ∧ s.boot.due = none ∧ s.power.waking = x.2.2 ∧ max s.time.aon 0 = 0 ∧ s.power.rampAon = x.1 ∧
        s.get K.powerControl_LastWakeCause = x.2.1) ∧
    (let s := { run with boot := { run.boot with halts := .replicate 3 16 } }
     s.Inv ∧ s.clocked = true ∧ (∀ c : Fin 3, s.get K.deviceControl_WatchdogTicks ≤ s.boot.halts[c]) ∧ s.boot.due = none) ∧
    (holds [(true, false, 2), (true, true, 2), (false, false, 2), (true, false, 0)] fun x =>
      let s := run.set K.deviceState x.2.2
      let l : Loaded := ⟨[], List.replicate 4 (sha256 [])⟩
      let s := { s with boot := { s.boot with due := some (.warm, 2, 0, x.2.1), image := true, loaded := if x.1 then some l else none } }
      let n := (s.reach (s.time.t0 + 0)).timersSettle
      s.Inv ∧ s.clocked = true ∧ (startIn 0).cores = [] ∧ s.boot.due = some (.warm, 2, 0, x.2.1) ∧ imageStands n = x.1 ∧
        n.fwUp = decide (x.2.2 = 2)) ∧
    (let s := { run with boot := { run.boot with due := some (.cold, 3, 0, false) } }
     s.Inv ∧ s.boot.due = some (.cold, 3, 0, false) ∧ s.power.phase = .run ∧ suppliesUp (startIn 0).supplies = true) ∧
    (holds [Phase.held, Phase.off, Phase.deep] fun ph =>
      let s := (run.set K.powerControl_WakeEnable 0xFFFF)
      let s := { s with power := { s.power with phase := ph, fails := 2, failAon := 0 } }
      s.Inv ∧ s.power.phase = ph ∧ wakeEnabled s false 1 = true ∧ wakeEnabled s false 4 = true ∧ 1 ≤ s.power.fails ∧ s.power.fails < 3 ∧
        s.power.failAon + 32768 ≤ max s.time.aon 32768) := by decide +kernel

/-- An image without sections: its key, and its signature by it. -/
def imageKey : Nat × Nat :=
  (0x7cf27b188d034f7e8a52380304b51ac3c08969e277f21b35a60b48fc47669978, 0x7775510db8ed040293d9ac69f7430dbba7dade63ce982299e04b79d227873d1)
def imageSig : Nat × Nat :=
  (0xb7a205252fa20e3969a5c6e1e84c55493d1d2b347c0fe15b0b68c4436be7ec8a, 0x7eef7bbc17ee8fb478ff03d8059fcce83e1fb4fa3fed626fa5162fdcbc9ad2c3)
def imageBytes : List Nat :=
  [0x4B, 0x5A, 0x50, 0x4D, 1, 0, 0, 0] ++ toBytes 4 7 ++ [200, 0, 0, 0] ++ toBytes 4 0 ++
    toBytes 32 0xe3b0c44298fc1c149afbf4c8996fb92427ae41e4649b934ca495991b7852b855 ++ toBytes 32 imageKey.1 ++ toBytes 32 imageKey.2 ++
    toBytes 32 imageSig.1 ++ toBytes 32 imageSig.2

/-- The two multiples of the signature's check, in the order R415's standard adds them. -/
theorem aux_mulG :
    ecMul 256 0xf8202b58ea337a114c0ca85212e291238860a18cb2d2904fe8b606023882e1f2 (some p256g) none = some
      (25922018884895486090021191162010797886201052963959549380883228149053267074124,
        20843428897982994063923719851435040894119921804295270174413089226864293940611) := by decide +kernel

theorem aux_mulQ :
    ecMul 256 0x3efea530ae642f7d9f9abd6f68eb76e1a432c907a22871a8581e26061f02942 (some imageKey) none = some
      (93042381028918208513253561705839971684648907202739023450495402893982697384356,
        40672472268091469128878404652584720148950314593221272252919974142258837677461) := by decide +kernel

theorem aux_scalars :
    let w := invMod p256n imageSig.2
    0xf198e4cc10a234399ac9a8c95c819099979d651bfccf1cf520c09b0895522a9b * w % p256n =
        0xf8202b58ea337a114c0ca85212e291238860a18cb2d2904fe8b606023882e1f2 ∧
      imageSig.1 * w % p256n = 0x3efea530ae642f7d9f9abd6f68eb76e1a432c907a22871a8581e26061f02942 := by decide +kernel

/-- SHA-256 of a string that fills two blocks with its padding. -/
theorem aux_sha2 (l b c : List Nat)
    (h : l ++ [0x80] ++ List.replicate ((119 - l.length % 64) % 64) 0 ++ toBytes 8 (8 * l.length) = b ++ c) (hb : b.length = 64)
    (hc : c.length = 64) : sha256 l = (shaBlock (shaBlock shaInit b) c).flatMap (toBytes 4) := by
  have t : (b ++ c).take 64 = b := by rw [← hb, List.take_left]
  have d : (b ++ c).drop 64 = c := by rw [← hb, List.drop_left]
  have e : c.take 64 = c := by rw [← hc, List.take_length]
  have n : (b ++ c).length / 64 = 2 := by rw [List.length_append, hb, hc]
  unfold sha256
  simp only [h, n, shaBlocks, t, d, e]

/-- The two blocks of the signed header as SHA-256 takes them, and its state after the first. -/
def blockHead1 : List Nat :=
  [75, 90, 80, 77, 1, 0, 0, 0, 0, 0, 0, 7, 200, 0, 0, 0, 0, 0, 0, 0, 227, 176, 196, 66, 152, 252, 28, 20, 154, 
   251, 244, 200, 153, 111, 185, 36, 39, 174, 65, 228, 100, 155, 147, 76, 164, 149, 153, 27, 120, 82, 184, 85, 
   124, 242, 123, 24, 141, 3, 79, 126, 138, 82, 56, 3]
def blockHead2 : List Nat :=
  [4, 181, 26, 195, 192, 137, 105, 226, 119, 242, 27, 53, 166, 11, 72, 252, 71, 102, 153, 120, 7, 119, 85, 16, 
   219, 142, 208, 64, 41, 61, 154, 198, 159, 116, 48, 219, 186, 125, 173, 230, 60, 233, 130, 41, 158, 4, 183, 157, 
   34, 120, 115, 209, 128, 0, 0, 0, 0, 0, 0, 0, 0, 0, 3, 160]
def stateHead : List Nat :=
  [1903401359, 358067663, 1652690112, 4081200184, 3559607196, 2007722110, 1940694861, 2360687544]

theorem aux_blockHead1 : shaBlock shaInit blockHead1 = stateHead := by decide +kernel

theorem aux_blockHead2 : (shaBlock stateHead blockHead2).flatMap (toBytes 4) = toBytes 32 0xf198e4cc10a234399ac9a8c95c819099979d651bfccf1cf520c09b0895522a9b := by
  decide +kernel

theorem aux_blocksHead :
    let l := imageBytes.take 116
    l ++ [0x80] ++ List.replicate ((119 - l.length % 64) % 64) 0 ++ toBytes 8 (8 * l.length) = blockHead1 ++ blockHead2 := by decide +kernel

theorem aux_shaHead : sha256 (imageBytes.take 116) = toBytes 32 0xf198e4cc10a234399ac9a8c95c819099979d651bfccf1cf520c09b0895522a9b := by
  rw [aux_sha2 _ _ _ aux_blocksHead (by decide +kernel) (by decide +kernel), aux_blockHead1, aux_blockHead2]

/-- The two blocks of the key as SHA-256 takes them, and its state after the first. -/
def blockKey1 : List Nat :=
  [124, 242, 123, 24, 141, 3, 79, 126, 138, 82, 56, 3, 4, 181, 26, 195, 192, 137, 105, 226, 119, 242, 27, 53, 166, 
   11, 72, 252, 71, 102, 153, 120, 7, 119, 85, 16, 219, 142, 208, 64, 41, 61, 154, 198, 159, 116, 48, 219, 186, 
   125, 173, 230, 60, 233, 130, 41, 158, 4, 183, 157, 34, 120, 115, 209]
def blockKey2 : List Nat :=
  [128, 0, 0, 0, 0, 0, 0, 0, 0, 0, 0, 0, 0, 0, 0, 0, 0, 0, 0, 0, 0, 0, 0, 0, 0, 0, 0, 0, 0, 0, 0, 0, 0, 0, 0, 0, 
   0, 0, 0, 0, 0, 0, 0, 0, 0, 0, 0, 0, 0, 0, 0, 0, 0, 0, 0, 0, 0, 0, 0, 0, 0, 0, 2, 0]
def stateKey : List Nat :=
  [1762277369, 3755297652, 3296456650, 1582420502, 1989498955, 2632574587, 418605114, 1700744278]

theorem aux_blockKey1 : shaBlock shaInit blockKey1 = stateKey := by decide +kernel

theorem aux_blockKey2 : (shaBlock stateKey blockKey2).flatMap (toBytes 4) = toBytes 32 0xd07aeb134840b15242e12d4a06ce3ab493cbd020ebc3bd5aaecd822f51e0c3d8 := by
  decide +kernel

theorem aux_blocksKey :
    let l := (imageBytes.drop 52).take 64
    l ++ [0x80] ++ List.replicate ((119 - l.length % 64) % 64) 0 ++ toBytes 8 (8 * l.length) = blockKey1 ++ blockKey2 := by decide +kernel

theorem aux_shaKey : sha256 ((imageBytes.drop 52).take 64) = toBytes 32 0xd07aeb134840b15242e12d4a06ce3ab493cbd020ebc3bd5aaecd822f51e0c3d8 := by
  rw [aux_sha2 _ _ _ aux_blocksKey (by decide +kernel) (by decide +kernel), aux_blockKey1, aux_blockKey2]

theorem aux_hash : ofBytes (sha256 (imageBytes.take 116)) = 0xf198e4cc10a234399ac9a8c95c819099979d651bfccf1cf520c09b0895522a9b := by
  rw [aux_shaHead]
  decide +kernel

theorem aux_fields :
    field imageBytes 52 32 = imageKey.1 ∧ field imageBytes 84 32 = imageKey.2 ∧ field imageBytes 116 32 = imageSig.1 ∧
      field imageBytes 148 32 = imageSig.2 := by decide +kernel

theorem aux_verify :
    ecdsaVerify (field imageBytes 52 32) (field imageBytes 84 32) (field imageBytes 116 32) (field imageBytes 148 32)
      (sha256 (imageBytes.take 116)) = true := by
  obtain ⟨h1, h2, h3, h4⟩ := aux_fields
  obtain ⟨k1, k2⟩ := aux_scalars
  have hg : (decide (imageKey.1 < p256p) && decide (imageKey.2 < p256p) &&
      decide (imageKey.2 * imageKey.2 % p256p = (imageKey.1 * imageKey.1 * imageKey.1 + (p256p - 3) * imageKey.1 + p256b) % p256p) &&
      decide (0 < imageSig.1) && decide (imageSig.1 < p256n) && decide (0 < imageSig.2) && decide (imageSig.2 < p256n)) = true := by
    decide +kernel
  rw [h1, h2, h3, h4]
  unfold ecdsaVerify
  simp only [hg, if_true, aux_hash, k1, k2, aux_mulG, Prod.mk.eta, aux_mulQ]
  decide +kernel

/-- The image passes in a device whose root key hash 0 is that of its key. -/
theorem aux_image (s : State) (h1 : s.get K.imageSecurity_RootKeyRevoked = 0)
    (h2 : s.get K.imageSecurity_RootKeyHash0 = 0xd07aeb134840b15242e12d4a06ce3ab493cbd020ebc3bd5aaecd822f51e0c3d8)
    (h3 : s.get K.imageSecurity_AntiRollback = 0) : imageReject s imageBytes = 0 := by
  have a1 : headerOk imageBytes = true := by decide +kernel
  have a2 : byteAt imageBytes 5 = 0 := by decide +kernel
  have a3 : ofBytes (toBytes 32 0xd07aeb134840b15242e12d4a06ce3ab493cbd020ebc3bd5aaecd822f51e0c3d8) =
      0xd07aeb134840b15242e12d4a06ce3ab493cbd020ebc3bd5aaecd822f51e0c3d8 := by decide +kernel
  have a4 : field imageBytes 16 4 = 0 := by decide +kernel
  have a5 : sha256 [] = (imageBytes.drop 20).take 32 := by decide +kernel
  have a6 : (imageSections imageBytes).isNone = false := by decide +kernel
  have a7 : bit 0 0 = false := by decide +kernel
  simp only [imageReject, rootHash, a1, a2, aux_shaKey, a3, aux_verify, a4, Nat.add_zero, h1, h2, h3, a6, a7, List.take_zero, ← a5]
  simp

/-- A device in BOOTING or SAFE with 180 bytes received; then one whose root key hash 0 is that of the image's key. -/
def bootBase (device : Nat) (f : BootSt → BootSt) : State :=
  let s := (run.set K.deviceState device).set K.boot_BytesReceived 180
  { s with boot := f BootSt.reset }
def bootRun (device : Nat) (f : BootSt → BootSt) : State :=
  (bootBase device f).set K.imageSecurity_RootKeyHash0 0xd07aeb134840b15242e12d4a06ce3ab493cbd020ebc3bd5aaecd822f51e0c3d8

theorem aux_bootInv (device : Nat) (f : BootSt → BootSt) : (bootBase device f).Inv ∧ (bootRun device f).Inv := by
  have h : (bootBase device f).Inv := by
    obtain ⟨⟨hm, hs, hk⟩, hb, hc⟩ := run_inv
    refine ⟨⟨?_, hs, hk⟩, hb, hc⟩
    exact State.DictOk.set (State.DictOk.set hm _ _) _ _
  exact ⟨h, ⟨State.DictOk.set h.dictOk _ _, h.1.2⟩, h.2⟩

theorem aux_bootGet (device : Nat) (f : BootSt → BootSt) {j : Nat} (h : j ≠ K.imageSecurity_RootKeyHash0) :
    (bootRun device f).get j = (bootBase device f).get j := State.get_set_other (aux_bootInv device f).1.dictOk _ _ h

/-- The image passes there. -/
theorem aux_bootPasses (device : Nat) (f : BootSt → BootSt) (h1 : (bootBase device f).get K.imageSecurity_RootKeyRevoked = 0)
    (h3 : (bootBase device f).get K.imageSecurity_AntiRollback = 0) : imageReject (bootRun device f) imageBytes = 0 := by
  refine aux_image _ ?_ (State.get_set_same (aux_bootInv device f).1.dictOk _ _) ?_
  · rw [aux_bootGet _ _ (by decide), h1]
  · rw [aux_bootGet _ _ (by decide), h3]

/-- The image, staged and to be verified; and a flash slot being read, the other one of the two or not. -/
def stagedBoot (b : BootSt) : BootSt :=
  { b with staged := (List.range 180).map fun i => (i, imageBytes.getD i 0), verify := some (2, 3), sources := [] }
def flashBoot (other : Bool) (b : BootSt) : BootSt := { b with sources := [0, 2], other := other }

theorem aux_staged (device : Nat) : stagedBytes (bootRun device stagedBoot) = imageBytes := by
  have h : spread 0 (stagedBoot BootSt.reset).staged = imageBytes := by decide +kernel
  have l : imageBytes.length = 180 := by decide +kernel
  have g : (bootRun device stagedBoot).get K.boot_BytesReceived = 180 := by
    rw [aux_bootGet _ _ (by decide)]
    exact State.get_set_same (State.DictOk.set run_inv.dictOk _ _) _ _
  have e : (bootRun device stagedBoot).boot = stagedBoot BootSt.reset := rfl
  simp only [stagedBytes, e, h, l, g]
  simp

theorem witness_BootSequence :
    (let s := { State.reset with time := { State.reset.time with refOk := true } }
     s.Inv ∧ s.power.phase = .starting ∧ s.time.running = false ∧ s.time.refOk = true ∧
      (∀ b ∈ [0, 1, 4], bit (s.get K.supplyMonitor_SupplyStatus) b = true)) ∧
    (run.inRun = true ∧ run.time.running = true ∧ run.out.loaded = false) ∧
    (holds [[2], [1, 2]] fun l =>
      let s := bootBase 0 fun b => { b with sources := l }
      s.Inv ∧ s.boot.sources = l ∧ l.getD 0 0 ≠ 0 ∧ s.device = 0 ∧ s.boot.next = none ∧
        s.boot.sourceAt + s.get K.boot_BootWait * SEC ≤ s.elapsed) ∧
    (∀ d, d = 0 ∨ d = 3 →
      (let s := bootRun d stagedBoot
       s.Inv ∧ s.device = d ∧ s.boot.writing = false ∧ s.boot.verify = some (2, 3) ∧ imageReject s (stagedBytes s) = 0 ∧
        stagedClash (stagedBytes s) = false) ∧
      (let s := bootBase d fun b => { b with verify := some (2, 3) }
       s.Inv ∧ s.boot.verify = some (2, 3) ∧ imageReject s (stagedBytes s) ≠ 0) ∧
      ∀ other, let s := bootRun d (flashBoot other)
        s.Inv ∧ s.device = d ∧ s.boot.writing = false ∧ s.boot.verify = none ∧ s.boot.sources = [0, 2] ∧ s.boot.other = other ∧
          (∀ x ∈ imageBytes, x < 256) ∧ imageReject s imageBytes = 0 ∧ imageReject s [] ≠ 0) ∧
    (holds [0, 4] fun v =>
      let s := (bootBase 3 fun b => { b with writing := true }).set K.boot_StrapValue v
      s.Inv ∧ s.boot.writing = true ∧ bit (s.get K.boot_StrapValue) 2 = decide (v = 4)) ∧
    (holds [0, 2] fun v =>
      let s := (((bootBase 0 fun b => { b with image := true, kind := .warm }).set (K.coreTick_CoreState 0) v).set (K.coreTick_CoreState 1) v).set
        (K.coreTick_CoreState 2) v
      let s := { s with cpu := CoresSt.reset, out := { s.out with loaded := true } }
      s.Inv ∧ s.atEdge = true ∧ s.inRun = true ∧ s.time.running = true ∧ s.out.loaded = true ∧ s.boot.image = true ∧ s.fwUp = false ∧
        s.boot.next = none ∧ (∀ c < 4, (s.core c).running = false) ∧ s.boot.releasedAt + 3 * MS ≤ s.elapsed ∧
        firmwareCores s = (if v = 2 then 0 else 3)) := by
  refine ⟨by decide +kernel, by decide +kernel, by decide +kernel, fun d hd => ⟨?_, ?_, fun other => ?_⟩, by decide +kernel, by decide +kernel⟩
  · refine ⟨(aux_bootInv d _).2, ?_, rfl, rfl, ?_, ?_⟩
    · show (bootRun d stagedBoot).get K.deviceState = d
      rw [aux_bootGet _ _ (by decide)]
      obtain rfl | rfl := hd <;> decide +kernel
    · rw [aux_staged]
      obtain rfl | rfl := hd <;> exact aux_bootPasses _ _ (by decide +kernel) (by decide +kernel)
    · rw [aux_staged]; decide +kernel
  · obtain rfl | rfl := hd <;> decide +kernel
  · refine ⟨(aux_bootInv d _).2, ?_, rfl, rfl, rfl, rfl, by decide +kernel, ?_, ?_⟩
    · show (bootRun d (flashBoot other)).get K.deviceState = d
      rw [aux_bootGet _ _ (by decide)]
      obtain rfl | rfl := hd <;> cases other <;> decide +kernel
    · obtain rfl | rfl := hd <;> cases other <;> exact aux_bootPasses _ _ (by decide +kernel) (by decide +kernel)
    · have h : headerOk [] = false := by decide +kernel
      simp [imageReject, h]

theorem witness_Supplies :
    (holds [0, 3, 8] fun b => holds [Phase.run, Phase.sleep, Phase.starting] fun ph =>
      let s := (run.set (K.chain_ChainState 0) 1).set (K.chain_ChainState 3) 4
      let s := { s with power := { s.power with phase := ph } }
      s.Inv ∧ bit (s.get K.supplyMonitor_SupplyStatus) b = true ∧ s.power.phase = ph ∧ s.power.ramp = none ∧ s.boot.due = none ∧ s.chainState 0 = 1 ∧ s.chainState 3 = 4) ∧
    (let s := run.set K.supplyMonitor_SupplyStatus 0
     s.Inv ∧ (∀ b < 9, bit (s.get K.supplyMonitor_SupplyStatus) b = false)) := by decide +kernel

theorem witness_TestAccess :
    State.reset.jtag.trst = true ∧
    (holds [Tap.shiftIr, Tap.shiftDr, Tap.exit1Ir, Tap.exit1Dr, Tap.captureDr] fun v =>
      let s := { run with jtag := ⟨v, [true, false], [], [], none, false⟩ }
      s.jtag.trst = false ∧ s.jtag.shift = true :: [false] ∧ s.jtag.state = v) ∧
    Tap.exit1Ir.next true = .updateIr ∧ Tap.exit1Dr.next true = .updateDr ∧ Tap.captureDr.next false = .shiftDr := by decide +kernel

/-! ### Witnesses: the access paths and their requests -/

/-- The MSPI port with requests in its queue. -/
def mspiRun (q : List MspiEntry) : State := { run with mspi := ⟨q, false, false, false, []⟩ }

/-- A request that has its reply, and one that waits. -/
def answered : MspiEntry := ⟨⟨1, 7, 0x1000, 1, 0, []⟩, some ⟨St.ok, [1, 2]⟩⟩
def waiting : MspiEntry := ⟨⟨1, 9, 0xC000, 1, 0, []⟩, none⟩

/-- A request over a local path. -/
def via (p : Path) (slot : Option Nat := none) (tag : Nat := 0) : Ctx := ⟨p, slot, 0, tag, 0, 0⟩

/-- A request over MSPI with its check. -/
def mspiFrame (op len : Nat) (data : List Nat) : List Nat :=
  let m := [op, 7, 0xC0, 0, 1] ++ toBytes 2 len ++ data
  m ++ [crc8 m]

theorem witness_MspiPort :
    (sleepRun.Inv ∧ engineUp sleepRun = false) ∧ run.Inv ∧ engineUp run = true ∧
    (let s := mspiRun [answered]
     let f := replyFrame 7 ⟨St.ok, [1, 2]⟩
     s.Inv ∧ engineUp s = true ∧ s.mspi.queue = [answered] ∧ f.length ≤ f.length ∧ f.length < f.length + 1 ∧ 0 < f.length) ∧
    (let b := [1]
     b ≠ [] ∧ b.length ≠ 8) ∧
    (let b := mspiFrame 1 1025 []
     b.length = 8 ∧ field b 5 2 = 1025) ∧
    (let b := (mspiFrame 1 1024 []).set 1 6
     b.length = 8 + 0 ∧ field b 5 2 = 1024 ∧ byteAt b (7 + 0) ≠ crc8 (b.take (7 + 0))) ∧
    (let b := mspiFrame 2 3 [1, 2, 3]
     b.length = 8 + 3 ∧ field b 5 2 = 3 ∧ byteAt b (7 + 3) = crc8 (b.take (7 + 3))) ∧
    (let s := mspiRun [answered, waiting, waiting, waiting]
     s.Inv ∧ engineUp s = true ∧ 4 ≤ s.mspi.queue.length) ∧
    (let s := mspiRun [answered, waiting, waiting]
     s.Inv ∧ engineUp s = true ∧ s.mspi.queue.length < 4) ∧
    (let s := mspiRun [answered, waiting]
     s.Inv ∧ s.Serves (via .mspi none 9) 1 0xC000 1 0 [] ∧ s.mspi.queue = [answered] ++ ⟨waiting.req, none⟩ :: [] ∧
      (∀ e ∈ [answered], e.reply.isSome = true)) := by
  refine ⟨?_, ?_, ?_, ?_, ?_, ?_, ?_, ?_, ?_, ?_, ?_⟩ <;> decide +kernel

theorem witness_MspiPort_codes :
    (∀ x ∈ [(0, mspiFrame 0 0 []), (4, mspiFrame 4 0 [])], x.2 ≠ [] ∧ byteAt x.2 0 = x.1) ∧
    (∀ x ∈ [(true, mspiFrame 9 0 []), (false, mspiFrame 1 0 [])], x.2.length = 8 ∧ byteAt x.2 0 ≠ 0 ∧ byteAt x.2 0 ≠ 4 ∧
      byteAt x.2 7 = crc8 (x.2.take 7) ∧ opReserved (byteAt x.2 0) = x.1) := by decide +kernel

theorem witness_MspiReplies :
    (let s := mspiRun [answered]
     s.Inv ∧ engineUp s = true ∧ s.mspi.queue = [⟨answered.req, some ⟨St.ok, [1, 2]⟩⟩]) ∧
    (let f := replyFrame 7 ⟨St.ok, [1, 2]⟩
     0 < f.length ∧ f.length ≤ f.length ∧ f.length < f.length + 1) ∧
    (let s := mspiRun [answered, waiting]
     mspiNext s ≠ some { op := 1, tag := 7, index := 0xC000, sub := 1, len := 0, data := [] }) ∧
    byteAt (mspiFrame 9 0 []) 0 ≠ 4 := by decide +kernel

theorem witness_Crc8 : (∀ y ∈ [255, 0], y < 256) ∧ 255 < 256 := by decide

theorem witness_ResetPriority :
    (sleepRun.Inv ∧ sleepRun.power.phase = .sleep ∧ sleepRun.boot.due = none) ∧
    (holds [Phase.run, Phase.starting] fun ph => holds [StartKind.warm, StartKind.cold] fun k =>
      let s := { run with power := { run.power with phase := ph }, boot := { run.boot with due := some (k, 4, 0, false) } }
      s.Inv ∧ s.power.phase = ph ∧ s.boot.due = some (k, 4, 0, false) ∧ s.get K.powerControl_LastWakeCause = 0) ∧
    (let s := { run with power := { run.power with waking := true, rampAon := run.time.aon } }
     s.Inv ∧ s.power.phase = .run ∧ s.power.waking = true ∧ s.power.rampAon = max s.time.aon s.time.aon ∧ s.boot.due = none) := by decide +kernel

theorem witness_TimerVotes :
    (holds [1, 2] fun m =>
      let s := armedRun m
      let a := (s.set (K.cadenceTimer_TimerState 15) 2)
      s.Inv ∧ a.Inv ∧ s.inRun = true ∧ s.power.armed = some 0 ∧ coresWait s = true ∧ s.get K.powerControl_PowerMode = m ∧
        a.inRun = true ∧ coresWait a = true ∧ a.get K.powerControl_PowerMode = m ∧ blockRefuses a 9 = true ∧
        refusingBlock ((s.reach (s.time.t0 + 0)).reachAon 0) = none) ∧
    (let s := { run with tmr := { TimersSt.reset with stopped := true } }
     s.Inv ∧ s.tmr.stopped = true) := by decide +kernel

/-- A request by firmware, by the user core, by MSPI (role 2). -/
def fw : Ctx := via .firmware

theorem witness_SystemRequests :
    (holds [1, 2, 3] fun v => run.PassesKey fw K.deviceControl_ResetCommand 1 v) ∧
    run.PassesKey fw K.deviceControl_StateCommand 1 1 ∧
    (let s := run.set K.deviceState 1
     s.Inv ∧ s.PassesKey fw K.deviceControl_StateCommand 1 2) ∧
    (holds [0, 1, 2, 3, 4] fun v => run.PassesKey fw K.powerControl_PowerMode 1 v) ∧
    (let s := run.set K.deviceState 3
     s.Inv ∧ holds [1, 2, 3] fun v => s.PassesKey fw K.boot_ImageCommand 1 v) ∧
    (holds [(0, 1024), (6291455, 1)] fun x =>
      let s := run.set K.deviceState 3
      let b := toBytes 4 x.1 ++ toBytes 2 x.2 ++ List.replicate x.2 255 ++ List.replicate (1024 - x.2) 0
      s.Inv ∧ s.Passes fw 0xD000 5 b ∧ (∀ x ∈ b, x < 256) ∧ SMap.wf (fun _ => 0) s.boot.staged = true) := by decide +kernel

/-- A timer with a period, in a state, with a StartMode and a StartAt. -/
def timerRun (n state mode at_ : Nat) : State :=
  ((((run.set (K.cadenceTimer_TimerMode n) 1).set (K.cadenceTimer_TimerState n) state).set (K.cadenceTimer_StartMode n) mode).set
    (K.cadenceTimer_StartAt n) at_).set (K.cadenceTimer_StartMaster n) 3

/-- A record of the log. -/
def logRec (seq : Nat) : SiltRec := ⟨seq, 0, 0, false, 0, 1, 0, 2, 0, [], 0⟩

theorem witness_TimerAndLogRequests :
    (holds [0, 15] fun n => holds [0, 1, 2, 3] fun mode =>
      let s := timerRun n 0 mode (toTime96 (1000 * SEC))
      s.Inv ∧ s.PassesKey fw (K.cadenceTimer_TimerCommand n) 1 1) ∧
    (holds [0, 15] fun n => holds [0, 1, 2, 3] fun mode =>
      let s := timerRun n 3 mode (toTime96 (999 * SEC))
      s.Inv ∧ s.PassesKey fw (K.cadenceTimer_TimerCommand n) 1 2 ∧ ofTime96 ((s.meets fw).get (K.cadenceTimer_StartAt n)) < (s.meets fw).time.now) ∧
    (holds [0, 15] fun n => holds [1, 2] fun st =>
      let s := timerRun n st 0 0
      s.Inv ∧ s.PassesKey fw (K.cadenceTimer_TimerCommand n) 1 3) ∧
    (holds [0, toTime96 (999 * SEC), toTime96 (1001 * SEC)] fun g =>
      let s := ((timerRun 0 0 0 0).set (K.cadenceTimer_TimerMode 15) 1).set K.timerGlobal_GroupStartAt g
      let s := s.set K.timerGlobal_GroupStartLateOk 1
      s.Inv ∧ s.PassesKey fw K.timerGlobal_GroupStart 2 0x8001) ∧
    (holds [0, 7] fun i =>
      let s := { run with tmr := { TimersSt.reset with queue := .replicate 8 [5, 6] } }
      s.Inv ∧ s.Serves fw 1 (0x9030 + i) 2 0 [] ∧ firstRefused (readRefusals (s.comeTo fw) fw (0x9030 + i) 2 0) = none) ∧
    (holds [(0, 3, true), (4, 3, true), (0, 5, false)] fun x =>
      let s := (run.set (K.siltCursor_Cursor x.1) x.2.1)
      let s := { s with silt := ⟨[logRec 4, logRec 5], [], 6, 0, none⟩ }
      s.Inv ∧ s.Serves fw 1 (0xB010 + x.1) 2 0 [] ∧ firstRefused (readRefusals (s.comeTo fw) fw (0xB010 + x.1) 2 0) = none ∧
        (∃ r ∈ s.silt.recs, siltAt (s.comeTo fw) (s.get (K.siltCursor_Cursor x.1)) = (some r, x.2.2))) := by decide +kernel

/-! ### Witnesses: requests to the reader, to time, to the radio and to the network -/

/-- A reader command without its OP: position 0, ISO/IEC 14443 A, no retry, a timeout of 100, 8 bits to send. -/
def rdrBytes (op : Nat) : List Nat := [0, 1, 0, 0, if op = 2 then 0 else 0x10, 0, 0, 0, 100, 0, if op = 4 then 0 else 8, if op = 3 then 0x26 else 0] ++ List.replicate 255 0

/-- The reader READY or busy with nothing, position 0 in use. -/
def rdrReady (st sy on : Nat) (f : ReaderSt → ReaderSt) : State :=
  (((rdrRun sy on f).set K.reader_ReaderState st).set (K.coilPort_PortEnable 0) 1).set K.regulatoryLocks_AllowedProtocols 7

theorem witness_ReaderRequests :
    (∀ op < 5, ∀ x ∈ rdrBytes op, x < 256) ∧
    (holds [1, 3] fun st => holds [0, 1] fun on =>
      let s := rdrReady st 2 on id
      s.Inv ∧ s.Passes fw 0x8001 0 (2 :: rdrBytes 2)) ∧
    (holds [1, 3, 4] fun op => holds [some true, some false, none] fun d =>
      let s := rdrReady 1 (if d = none then 0 else 2) 0 fun r => { r with spans := if d = some true then [(0, run.elapsed)] else [], cut := d == some false }
      s.Inv ∧ s.Passes fw 0x8001 0 (op :: rdrBytes op) ∧ fieldOn (s.meets fw) = false ∧ fieldRefused (s.meets fw) = d ∧
        (d = none → synth (s.meets fw) ≠ 2 ∧ synth (s.meets fw) ≠ 4 ∧ (s.meets fw).reader.enabled = true)) ∧
    (holds [1, 3, 4] fun op =>
      let s := (rdrReady 3 4 1 fun r => { r with onAt := run.elapsed }).set K.regulatoryLocks_DutyCeiling 1000
      s.Inv ∧ s.Passes fw 0x8001 0 (op :: rdrBytes op) ∧ fieldOn (s.meets fw) = true ∧ (s.meets fw).reader.pos = byteAt (rdrBytes op) 3) ∧
    (holds [(2, 0), (0, 0), (4, 1)] fun x =>
      let s := rdrReady 1 x.1 x.2 id
      s.Inv ∧ s.PassesKey fw K.reader_SynthCalibrate 1 1 ∧ synth (s.meets fw) = x.1 ∧ fieldOn (s.meets fw) = (x.2 == 1)) ∧
    (holds [0, 9, 255] fun v =>
      let s := rdrReady 1 2 0 id
      let t := (s.set (K.delay_Source v) 1).set (K.delay_TagPosition v) 0
      s.Inv ∧ s.PassesKey fw K.delayScan_ScanCommand 1 v ∧ scanItems (s.meets fw) [v] = [] ∧
        (v ≠ 255 → t.Inv ∧ t.PassesKey fw K.delayScan_ScanCommand 1 v ∧ scanItems (t.meets fw) [v] = [v])) := by
  refine ⟨?_, ?_, ?_, ?_, ?_, ?_⟩ <;> decide +kernel

theorem witness_TimeAndRadioRequests :
    (holds [0, toTime96 (2000 * SEC)] fun v =>
      let s := run.set K.protection_StepAuthority 0x20
      s.Inv ∧ v < 2 ^ 96 ∧ s.PassesKey fw K.seeding_PondSeed 12 v) ∧
    (holds [0, 2] fun p =>
      let b := [0, 37, p] ++ toBytes 12 (toTime96 (2000 * SEC))
      run.Passes fw 0x5030 7 b ∧ (∀ x ∈ b, x < 256)) ∧
    (holds [0x01, 0x88, 0xFF] fun v =>
      let s := (((run.set (K.chain_ChainState 0) 1).set (K.chain_ChainState 1) 1).set (K.chain_ChainState 2) 1).set (K.chain_ChainState 3) 2
      s.Inv ∧ v < 65536 ∧ s.PassesKey fw K.calibration_CalRequest 2 v) ∧
    (holds [0, 511] fun n => holds [1, 5] fun st =>
      let s := slotRun st id n
      s.Inv ∧ s.PassesKey fw (K.slot_SlotCommand n) 1 1) ∧
    (holds [0, 1, 2, 5] fun st =>
      let s := portRun st (if 2 ≤ st then 1 else 0) id
      s.Inv ∧ s.PassesKey fw (K.port_PortCommand 31) 1 1 ∧ s.portState 31 = st) ∧
    (let s := portRun 1 0 fun p => { p with retraining := true }
     let w := s.meets fw
     s.Inv ∧ s.Serves fw 2 0x711F 0x1B 1 [1] ∧ tableRefuses w fw true 0x711F 0x1B = none ∧ writeStateRefuses w 0x711F 0x1B 1 = none ∧
      s.portState 31 = 1 ∧ (s.port 31).retraining = true) := by
  refine ⟨?_, ?_, ?_, ?_, ?_, ?_⟩ <;> decide +kernel

/-- A submission to one channel, with a reference and two bytes. -/
def submission (channel flags : Nat) : List Nat :=
  [1, flags, channel] ++ List.replicate 7 0 ++ toBytes 4 77 ++ List.replicate 24 0 ++ toBytes 2 2 ++ [1, 2] ++ List.replicate 1022 0

/-- A member with a channel in a state, its keeper, a route to 9 by port 31. -/
def chRun (channel st keeper : Nat) (f : NetSt → NetSt) : State :=
  let s := ((netRun 2 fun n => f { n with routes := [⟨9, 31, none⟩] }).set (K.port_PortState 31) 2).set (K.port_ActiveMode 31) 1
  ((s.set (K.outChannel_ChannelState channel) st).set (K.outChannel_Keeper channel) keeper).set (K.outChannel_Destination channel) 9

theorem witness_NetworkRequests :
    (holds [0, 9] fun d =>
      let s := chRun 0 0 0 id
      let b := toBytes 2 d ++ [1, 0, 0, 5, 1, 0, 1, 0x10, 0, 1, 0, 0] ++ List.replicate 1012 0
      s.Inv ∧ s.Passes fw 0x7050 1 b ∧ (∀ x ∈ b, x < 256)) ∧
    (let s := portRun 5 2 id
     let b := [31, 0] ++ toBytes 12 (toTime96 (1001 * SEC)) ++ toBytes 2 984 ++ List.replicate 984 7
     s.Inv ∧ s.Passes fw 0x7060 1 b ∧ (∀ x ∈ b, x < 256)) ∧
    (holds [0, 9] fun k =>
      let s := chRun 63 2 k id
      s.Inv ∧ s.Passes fw 0x7030 1 (submission 63 0) ∧ (∀ x ∈ submission 63 0, x < 256) ∧
        (if k = 0 then (∀ c ∈ subChannels (submission 63 0), s.get (K.outChannel_Keeper c) = 0)
         else ∃ c ∈ subChannels (submission 63 0), s.get (K.outChannel_Keeper c) ≠ 0)) ∧
    (holds [2, 4] fun m =>
      let s := netRun m id
      let b := toBytes 2 61
      s.Inv ∧ s.Passes fw 0xE600 1 b ∧ (findRow 0xE600 1).isSome = true ∧ ∀ r ∈ findRow 0xE600 1, r.acc ≠ .pw) ∧
    (holds [(1, 0), (1, 4), (2, 2)] fun x => holds [0, 250] fun spent =>
      let s := chRun 63 x.2 0 fun n => { n with spentMsgs := spent }
      s.Inv ∧ s.PassesKey fw (K.outChannel_ChannelCommand 63) 1 x.1 ∧ journalFits (s.meets fw) 1 (acceptBytes 1 0) = (spent == 0)) := by
  refine ⟨?_, ?_, ?_, ?_, ?_⟩ <;> decide +kernel

/-! ### Witnesses: requests in frames -/

/-- A device one of whose factory values has been set to a number; that number is not the default of the model's device. -/
def withKey (k v : Nat) (s : State) : State := { s with dict := SMap.set (v + 1) k v s.dict }

theorem aux_key (k : Nat) (f : Nat → State) (h : ∀ v, (f v).Inv) : ∃ v ∈ [5, 6], (withKey k v (f v)).Inv := by
  have key (v : Nat) (hd : dfltOf k ≠ v) : (withKey k v (f v)).Inv := by
    obtain ⟨⟨hm, hs, hk⟩, hb, hc⟩ := h v
    refine ⟨⟨?_, hs, hk⟩, hb, hc⟩
    show SMap.wf dfltOf (SMap.set (v + 1) k v (f v).dict) = true
    rw [aux_set _ _ _ hd]
    exact SMap.wf_set dfltOf _ _ _ rfl _ hm
  by_cases h5 : dfltOf k = 5
  · exact ⟨6, by simp, key 6 (by omega)⟩
  · exact ⟨5, by simp, key 5 h5⟩

/-- The host port: port 31. -/
def hostBase (required : Nat) (kept : List HostKept) : State :=
  let s := run.set (K.port_PortState 31) 4
  { s with host := { s.host with port := 31, kept := kept }, prot := { ProtSt.reset with required := required } }

/-- The same with a MAC address. -/
def hostRun (v required : Nat) (kept : List HostKept) : State := withKey (K.port_MacAddress 31) v (hostBase required kept)

/-- A READ of 0x1020 subindex 1 as the body of a frame, and a host frame from address 9 that carries it. -/
def readBody : List Nat := [1, 0, 0, 7, 1, 0, 1, 0x10, 0x20, 1, 0, 0]
def hostFrame (v pad : Nat) : List Nat :=
  toBytes 6 v ++ toBytes 6 9 ++ toBytes 2 (run.get K.hostAccess_HostEtherType) ++ readBody ++ List.replicate pad 0

/-- A body holds that READ alone. -/
def readsOne (b : List Nat) : Bool :=
  match payloadOps b with
  | some ([(1, 0x1020, 1, 0, [])], 12) => true
  | _ => false

theorem witness_HostFrames :
    (holds [0, 1] fun q => (hostBase q []).Inv ∧ (hostBase q [⟨9, 7, [1], 1000000⟩]).Inv) ∧
    (∀ q kept, (hostBase q kept).Inv → ∃ v ∈ [5, 6], (hostRun v q kept).Inv) ∧
    (holds [5, 6] fun v => holds [0, 1] fun q =>
      let s := hostRun v q []
      let n := s.instant 0 0
      engineFree n = true ∧ s.net.run = none ∧ s.host.port = 31 ∧ s.portState 31 = 4 ∧ (hostFrame v 0).take 6 = toBytes 6 (s.get (K.port_MacAddress 31)) ∧
      (hostFrame (v + 1) 0).take 6 ≠ toBytes 6 (s.get (K.port_MacAddress 31)) ∧
      (holds [0, 34] fun pad =>
        let f := hostFrame v pad
        14 ≤ f.length ∧ f.length ≤ 1514 ∧ field f 12 2 ≠ 0x8100 ∧ field f 12 2 = s.get K.hostAccess_HostEtherType ∧
        readsOne (f.drop 14) = true ∧ bit (byteAt (f.drop 14) 1) 0 = false ∧ bit s.prot.required 0 = (q == 1) ∧
        hostKept n (field f 6 6) (field (f.drop 14) 2 2) = none ∧
        hostKept ((hostRun v q [⟨9, 7, [1], 1000000⟩]).instant 0 0) (field f 6 6) (field (f.drop 14) 2 2) = some ⟨9, 7, [1], 1000000⟩) ∧
      s.get K.hostAccess_DuplicateWindow ≠ 0 ∧
      (let m := n.count (K.port_FramesRx 31) 6
       firstRefused (readRefusals m ⟨.host, none, 0, 0, 0, 0⟩ 0x1020 1 0) = none ∧ (findRow 0x1020 1).isSome = true ∧
         ∀ r ∈ findRow 0x1020 1, 6 + (resultBytes 1 0x1020 1 ⟨St.ok, toBytes r.ty.bytes (readValue m 0x1020 1)⟩).length ≤ 1500)) := by
  refine ⟨by decide +kernel, ?_, by decide +kernel⟩
  intro q kept h
  exact aux_key _ (fun _ => hostBase q kept) fun _ => h

theorem aux_writable : ∃ r, findRow 0x7100 4 = some r ∧ r.acc = .rw ∧ 0x7100 < 0xE000 := ⟨_, rfl, by decide⟩

theorem witness_FramedRequests :
    (holds [[(9, 2, 1000000)], []] fun ep =>
      let s := netRun 2 fun n => { n with epochs := ep }
      let f := frameOf 5 5 (toBytes 2 1 ++ toBytes 2 3 ++ readBody)
      let n := (arrive s f).instant 0 0
      let m := (n.took []).epochSee 9 1
      (arrive s f).Inv ∧ arrives s f 5 = true ∧ waits (arrive s f) = false ∧ (arrive s f).net.run = none ∧ 4 ≤ (netBody f).length ∧
        readsOne ((netBody f).drop 4) = true ∧
        epochStale n (field f 6 2) (field (netBody f) 0 2) = (ep != []) ∧
        keptReply m 9 1 3 = none ∧ firstRefused (readRefusals m ⟨.remote, none, 9, 0, 0, 0⟩ 0x1020 1 0) = none ∧
        ∀ r ∈ findRow 0x1020 1, 6 + (resultBytes 1 0x1020 1 ⟨St.ok, toBytes r.ty.bytes (readValue m 0x1020 1)⟩).length ≤ 2004) ∧
    (holds [false, true] fun late => holds [[63], [63, 62]] fun await =>
      let y : Copy := ⟨63, 4, 9, 9, 0, 0, none⟩
      let w : SubWait := ⟨via .firmware, ⟨1, 3, 77, 0, 0, 2 ^ 96 - 1, [1, 2], [y]⟩, await, run.elapsed - 10 * MS, late⟩
      let s := netRun 2 fun n => { n with submit := some w }
      let f := frameOf 9 5 ([2, 0] ++ toBytes 2 1 ++ toBytes 2 3 ++ [63, 0] ++ toBytes 6 4)
      let b := netBody f
      s.Inv ∧ (arrive s f).Inv ∧ (arrive s f).net.submit = some w ∧ s.inRun = true ∧ s.net.run = none ∧ (∀ y ∈ w.ent.copies, y.channel < 64) ∧
        w.at_ + 10 * MS ≤ (s.reach (s.time.t0 + 0)).elapsed ∧ arrives s f 9 = true ∧ b.length = 14 ∧ byteAt b 0 = 2 ∧ byteAt b 1 = 0 ∧
        byteAt b 7 = 0 ∧ w.ent.epoch = field b 2 2 ∧ w.ent.number = field b 4 2 ∧ y ∈ w.ent.copies ∧ y.channel = byteAt b 6 ∧
        y.keeper = field f 6 2 ∧ y.chseq = field b 8 6 ∧ w.await.contains y.channel = true ∧ (w.await.filter (· != 63) = [] ↔ await = [63]) ∧
        s.get (K.outChannel_ChannelState 63) ≠ 4) ∧
    (holds [(0, false), (0, true), (2, false)] fun x =>
      let p := if x.1 = 2 then [0x71, 0, 4, 0, 1, 1] else [1, 2]
      let r : Receipt := ⟨9, ⟨1, 3, 63, x.1, 4, 0, 0, 2 ^ 96 - 1, p⟩, none, false, 1000 * SEC, false, false, 1, none⟩
      let s := netRun 2 fun n => { n with receipts := [r] }
      let s := s.set (K.accessRights 4) 0x3FFFFFFF
      let s := { s with streams := if x.2 = true then [(0x7031, .replicate 128 (.replicate 128 0))] else [] }
      let n := s.instant 0 0
      s.Inv ∧ (∀ x ∈ s.net.receipts, x.failed = none) ∧ nextDue n = some r ∧ bit r.msg.flags 1 = (x.1 == 2) ∧
        (let c : Ctx := ⟨.remote, none, 9, 0, n.time.now - n.time.t0, 0⟩
         (x.1 = 2 → field p 0 2 = 0x7100 ∧ byteAt p 2 = 4 ∧ (p.drop 5).take (field p 3 2) = [1] ∧ field p 3 2 = 1 ∧
           firstRefused (writeRefusals n.settle c 0x7100 4 [1] false) = none)) ∧
        n.streamFits 0x7031 ((deliveryWords n r false r.msg.payload).length + 1) = !x.2 ∧ engineFree n = true) := by
  refine ⟨?_, ?_, ?_⟩ <;> decide +kernel

/-! ### Witnesses: the operations of a request and its checks -/

theorem witness_Operations :
    (∀ i < 5, 0x7100 * 256 + 4 ≠ K.siltCursor_Record i) ∧
    (run.Inv ∧ run.Serves fw 1 0x7100 4 0 [] ∧ firstRefused (readRefusals (run.comeTo fw) fw 0x7100 4 0) = none ∧ (findRow 0x7100 4).isSome = true) ∧
    (let s := State.reset
     s.Inv ∧ s.Serves fw 1 0x1020 1 0 [] ∧ firstRefused (readRefusals (s.comeTo fw) fw 0x1020 1 0) = none ∧ (findRow 0x1020 1).isSome = true) ∧
    (holds [[], [[1, 2], [3]]] fun st => holds [2, 3] fun len =>
      let s := { run with streams := if st = [] then [] else [(0x7031, st)] }
      let n := s.comeTo fw
      s.Inv ∧ s.Serves fw 3 0x7031 1 len [] ∧ tableRefuses n fw false 0x7031 1 = none ∧ isStream 0x7031 = true ∧
        stateRefuses n false 0x7031 1 = none ∧ (n.stream 0x7031 = [] ∨ streamTakeable len (n.stream 0x7031) ≠ [])) ∧
    (run.Serves fw 5 0x2040 0 0 [] ∧ objectRefuses (run.comeTo fw) fw false 0x2040 = none ∧ stateRefuses (run.comeTo fw) false 0x2040 0 = none) ∧
    (run.Serves fw 7 0x7100 4 0 [] ∧ (findObj 0x7100).isSome = true ∧ (findRow 0x7100 4).isSome = true ∧
      mayRead (run.comeTo fw) (roleOf (run.comeTo fw) fw) 0x7100 = true ∧ stateRefuses (run.comeTo fw) false 0x7100 4 = none) ∧
    (run.Passes fw 0x7100 4 [0] ∧ (findRow 0x7100 4).map (·.acc) = some .rw ∧ 0x7100 * 256 + 4 ∉ requestKeys) ∧
    (let s := run.set 0x71000F 3
     s.Inv ∧ s.Passes fw 0x7100 0x0F [0, 2] ∧ (findRow 0x7100 0x0F).map (fun r => (r.acc, r.ty)) = some (.rc, .bits16) ∧
      0x7100 * 256 + 0x0F ∉ requestKeys) ∧
    (let s := run.set 0x710010 3
     s.Inv ∧ s.Passes fw 0x7100 0x10 [0, 1] ∧ (findRow 0x7100 0x10).map (fun r => (r.acc, r.ty)) = some (.rc, .u16) ∧
      0x7100 * 256 + 0x10 ∉ requestKeys) ∧
    (let b := [2, 3, 232]
     run.Serves fw 6 0x1020 0 b.length b ∧ objectRefuses (run.comeTo fw) fw true 0x1020 = none ∧
      b.length = ((recordRows 0x1020).map fun r => r.ty.bytes).sum ∧ 0 < b.length ∧
      firstRefused (recordRefusals (run.meets fw) fw 0x1020 b) = none) := by
  refine ⟨?_, ?_, ?_, ?_, ?_, ?_, ?_, ?_, ?_, ?_⟩ <;> decide +kernel

/-- A row there is and what it says. -/
def rowIs (index sub : Nat) (p : Row → Bool) : Bool := (findRow index sub).any p

theorem witness_RequestChecks :
    (run.Inv ∧ run.Serves fw 2 0 0 1 [0] ∧ findObj 0 = none ∧ (findObj 0x7100).isSome = true ∧ findRow 0x7100 250 = none) ∧
    (let c := via .remote
     run.Serves c 2 0x2040 4 1 [0] ∧ rowIs 0x2040 4 (fun _ => true) = true ∧ isImageObject 0x2040 4 = false ∧
      mayWrite (run.meets c) (roleOf (run.meets c) c) 0x2040 = false) ∧
    (let w := run.meets fw
     (∀ i ∈ [0x0020, 0x1020, 0x2010, 0x2040, 0x7100, 0x7050, 0xC060, 0xC000], i ≠ 0xC040 ∧ mayWrite w (roleOf w fw) i = true) ∧
     rowIs 0x7100 2 (fun r => r.acc == .ro) = true ∧ rowIs 0x7100 8 (fun r => r.keep == .f) = true ∧
     rowIs 0x7100 4 (fun r => r.acc != .ro && r.keep != .f && !(lengthOk r.ty 2) && lengthOk r.ty 1 && valueStatus w r (imageOf r.ty [2]) == St.outOfRange &&
       valueStatus w r (imageOf r.ty [1]) == St.ok) = true ∧
     rowIs 0x7100 0x0F (fun r => valueStatus w r (imageOf r.ty [0xFF, 0]) == St.reservedBits) = true ∧
     rowIs 0x7100 1 (fun r => valueStatus w r (imageOf r.ty [9]) == St.valueReserved && familyRefuses w fw 0x7100 1 9 == []) = true) ∧
    (let w := run.meets fw
     run.Serves fw 2 0x2010 2 1 [1] ∧ rowIs 0x2010 2 (fun r => r.acc != .ro && r.keep != .f && lengthOk r.ty 1 && valueStatus w r (imageOf r.ty [1]) == St.ok &&
       familyRefuses w fw 0x2010 2 (imageOf r.ty [1]) == [] &&
       relationBad w 0x2010 (fun j => if j = 2 then imageOf r.ty [1] else w.get (0x2010 * 256 + j)) [2]) = true) ∧
    (let s := run.set K.deviceState 3
     let w := s.meets fw
     s.Inv ∧ s.Serves fw 2 0x7100 4 1 [0] ∧ rowIs 0x7100 4 (fun r => valueStatus w r (imageOf r.ty [0]) == St.ok &&
       familyRefuses w fw 0x7100 4 0 == [] && !(relationBad w 0x7100 (fun j => if j = 4 then 0 else w.get (0x7100 * 256 + j)) [4])) = true ∧
      (writeStateRefuses w 0x7100 4 0).isSome = true) ∧
    (holds [0, 1] fun lock =>
      let s := run.set K.regulatoryLocks_RegLocked lock
      let w := s.meets fw
      s.Inv ∧ s.Serves fw 2 0xC060 1 1 [0] ∧ rowIs 0xC060 1 (fun r => r.acc == .pw && lengthOk r.ty 1 && valueStatus w r (imageOf r.ty [0]) == St.ok &&
        familyRefuses w fw 0xC060 1 0 == [] && !(relationBad w 0xC060 (fun j => if j = 1 then 0 else w.get (0xC060 * 256 + j)) [1])) = true ∧
        writeStateRefuses w 0xC060 1 0 = none ∧ lockRefuses w 0xC060 1 0 false = (lock == 1)) ∧
    (run.Serves fw 1 0 0 0 [] ∧ run.Serves fw 1 0x7100 250 0 []) ∧
    (let s := run.set (K.accessRights 5) 0
     s.Inv ∧ s.Serves fw 1 0x7100 4 0 [] ∧ isImageObject 0x7100 4 = false ∧ mayRead (s.comeTo fw) (roleOf (s.comeTo fw) fw) 0x7100 = false) ∧
    (let n := run.comeTo fw
     run.Serves fw 1 0xC020 4 0 [] ∧ rowIs 0xC020 4 (readBarred 0xC020) = true ∧ mayRead n (roleOf n fw) 0xC020 = true ∧
      run.Serves fw 1 0x7031 1 0 [] ∧ rowIs 0x7031 1 (fun r => !(readBarred 0x7031 r)) = true ∧ mayRead n (roleOf n fw) 0x7031 = true ∧
      isStream 0x7031 = true ∧ run.Serves fw 1 0x7100 4 1 [] ∧ rowIs 0x7100 4 (fun r => !(readBarred 0x7100 r)) = true ∧
      mayRead n (roleOf n fw) 0x7100 = true ∧ isStream 0x7100 = false) ∧
    (let s := run.set K.deviceState 0
     let n := s.comeTo fw
     s.Inv ∧ s.Serves fw 1 0x7100 4 0 [] ∧ mayRead n (roleOf n fw) 0x7100 = true ∧ (stateRefuses n false 0x7100 4).isSome = true) := by
  refine ⟨?_, ?_, ?_, ?_, ?_, ?_, ?_, ?_, ?_, ?_⟩ <;> decide +kernel

theorem witness_RequestChecks_record :
    (run.Serves fw 6 0 0 1 [0] ∧ (objectRefuses (run.comeTo fw) fw true 0).isSome = true) ∧
    (objectRefuses (run.comeTo fw) fw true 0x1020 = none ∧ ((recordRows 0x1020).map fun r => r.ty.bytes).sum = 3) ∧
    run.Serves fw 6 0x1020 0 2 [2, 3] ∧
    (run.Serves fw 6 0x1020 0 3 [255, 3, 232] ∧ (firstRefused (recordRefusals (run.meets fw) fw 0x1020 [255, 3, 232])).isSome = true) := by
  refine ⟨?_, ?_, ?_, ?_⟩ <;> decide +kernel

theorem witness_OctetsAndText :
    rowIs 0x2040 4 (fun r => r.ty == .text 2 && r.acc == .rw && r.keep != .f) = true ∧
    rowIs 0x7050 1 (fun r => r.ty == .octets 1026 && r.acc != .ro && r.keep != .f) = true ∧
    rowIs 0x2030 4 (fun r => r.ty == .octets 8) = true ∧
    (let w := run.meets fw
     (∀ i ∈ [0x2040, 0x7050], mayWrite w (roleOf w fw) i = true) ∧ run.Serves fw 2 0x2040 4 3 [65, 65, 65] ∧ (∀ x ∈ [65, 65, 65], x < 256) ∧
      run.Serves fw 2 0x7050 1 1 [255]) ∧
    run.Passes fw 0x2040 4 [65, 90] ∧
    (holds [(0x2040, 4), (0x2030, 4)] fun x =>
      run.Serves fw 1 x.1 x.2 0 [] ∧ firstRefused (readRefusals (run.comeTo fw) fw x.1 x.2 0) = none) := by
  refine ⟨?_, ?_, ?_, ?_, ?_, ?_⟩ <;> decide +kernel

/-! ### Witnesses: two-party change -/

/-- Key slot 15 holds a key of a role, and changes are pending. -/
def tpRun (p : List Pending) (role : Nat) : State :=
  let s := (((run.set (K.keySlot_KeyState 15) 1).set (K.keySlot_KeyRole 15) role).set (K.keySlot_KeyId 15) 77).set K.timingState 2
  { s with prot := { ProtSt.reset with pending := p, keys := [(15, 5)] } }

/-- The holder of the key of slot 15, by the host port. -/
def keyed : Ctx := via .host (some 15)

/-- A pending change that MSPI has proposed. -/
def change (index sub : Nat) (value : List Nat) (card : Bool := false) : Pending :=
  ⟨7, index, sub, value, ⟨0x10, 0⟩, 2, card, [1, 2, 3, 4, 5, 6, 7, 8], 0⟩

/-- The bytes of a PROPOSE. -/
def proposal (index sub len : Nat) (value : List Nat) (card : Nat := 0) : List Nat :=
  toBytes 2 index ++ [sub, card] ++ toBytes 2 len ++ value ++ List.replicate (1034 - value.length) 0

theorem witness_TwoPartyProposals :
    (holds [(0x7100, 4, [9], keyed, []), (0xC060, 2, [5], fw, []), (0xC060, 2, [5], keyed, [change 0xC060 2 [5]]), (0xC060, 2, [5], keyed, [])] fun x =>
      let s := tpRun x.2.2.2.2 3
      let c := x.2.2.2.1
      let b := proposal x.1 x.2.1 1 x.2.2.1
      let n := s.comeTo c
      let value := (b.drop 6).take 1
      s.Inv ∧ s.Serves c 2 0xC040 1 1040 b ∧ b.length = 1040 ∧ writeRefusals n c 0xC040 1 b false = [] ∧ byteAt b 3 < 2 ∧ field b 4 2 = 1 ∧
        field b 0 2 = x.1 ∧ (b.drop 7).all (· == 0) = true ∧
        (if x.1 = 0x7100 then (firstRefused (writeRefusals n c 0x7100 4 value false)).isSome = true ∧ rowIs 0x7100 4 (fun r => r.acc != .pw) = true
         else writeRefusals n c 0xC060 2 value false = [] ∧ rowIs 0xC060 2 (fun r => r.acc == .pw && lengthOk r.ty 1) = true ∧
           pwBad n c 0xC060 2 (ofBytes value) = [] ∧
           ((proposalRefuses n c 0xC060 2 false).isSome = (c == fw || !x.2.2.2.2.isEmpty)))) := by decide +kernel

theorem witness_TwoPartyConfirmations :
    (holds [false, true] fun match_ => holds [[change 0xC060 2 [5]], []] fun p =>
      let s := tpRun p 3
      let b := toBytes 2 7 ++ [1, 2, 3, 4, 5, 6, 7, if match_ then 8 else 9]
      let n := s.comeTo keyed
      s.Inv ∧ s.Serves keyed 2 0xC040 2 10 b ∧ b.length = 10 ∧ writeRefusals n keyed 0xC040 2 b false = [] ∧
        n.prot.pending.find? (fun (p : Pending) => p.id == field b 0 2) = p.head? ∧ (∀ x ∈ n.prot.closed, x.id ≠ field b 0 2) ∧
        (∀ q ∈ p, ((b.drop 2).take 8 = q.digest ↔ match_ = true) ∧ (principalOf keyed).same q.proposer = false ∧ q.sub < 256 ∧
          confirmRefuses n q (principalOf keyed) false = none)) ∧
    (let p := { change 0xC060 2 [5] with proposer := ⟨15, 0⟩ }
     let s := tpRun [p] 3
     s.Inv ∧ (principalOf keyed).same p.proposer = true) ∧
    (let s := tpRun [change 0xC060 2 [5]] 2
     s.Inv ∧ (confirmRefuses (s.comeTo keyed) (change 0xC060 2 [5]) (principalOf keyed) false).isSome = true) ∧
    (holds [change (K.imageSecurity_RollbackAdvance / 256) (K.imageSecurity_RollbackAdvance % 256) [1], change (K.siltLog_LogClear / 256) (K.siltLog_LogClear % 256) [1],
        change (K.seeding_ReseedRequest / 256) (K.seeding_ReseedRequest % 256) (0 :: List.replicate 12 0), change 0xC020 1 [2],
        change 0xC02F 1 [2], change 0xC020 4 (List.replicate 16 3 ++ List.replicate 8 0)] fun p =>
      let s := tpRun [p] (if p.index < 0xC000 then 1 else 3)
      let n := s.comeTo keyed
      s.Inv ∧ n.prot.pending.find? (fun (p : Pending) => p.id == 7) = some p ∧ confirmRefuses n p (principalOf keyed) false = none ∧
        (p.sub = 4 ∧ p.index = 0xC020 → (keyOfProposal n p.proposer.slot (ofBytes p.value)).isSome = true)) := by
  refine ⟨?_, ?_, ?_, ?_⟩ <;> decide +kernel

theorem witness_TwoPartyCancellations :
    (holds [keyed, fw] fun c => holds [2, 3] fun role => holds [[change 0xC060 2 [5]], []] fun p => holds [7, 65535] fun id =>
      let s := tpRun p role
      let n := s.comeTo c
      s.Inv ∧ id < 65536 ∧ s.Serves c 2 0xC040 3 2 (toBytes 2 id) ∧ writeRefusals n c 0xC040 3 (toBytes 2 id) false = [] ∧
        n.prot.pending.find? (fun (p : Pending) => p.id == id) = (if id = 7 then p.head? else none) ∧ (∀ x ∈ n.prot.closed, x.id ≠ id) ∧
        roleOf n c = (if c = fw then 5 else role) ∧ (principalOf c).same ⟨0x10, 0⟩ = false) ∧
    (let p := { change 0xC060 2 [5] with proposer := ⟨0x40, 0⟩ }
     (tpRun [p] 3).Inv ∧ (principalOf fw).same p.proposer = true) ∧
    (let p := change 0xC060 2 [5]
     let s := tpRun [p] 3
     s.Inv ∧ s.prot.pending = [p] ∧ p.at_ + 3932160 < max s.time.aon 3932161) := by
  refine ⟨?_, ?_, ?_⟩ <;> decide +kernel

/-- The reader READY with the position of the card in use, and a change that a card has to confirm. -/
def cardRun : State :=
  let s := (((((tpRun [change 0xC060 2 [5] true] 3).set K.reader_SynthState 2).set K.reader_ReaderState 1).set (K.coilPort_PortEnable 0) 1).set
    K.regulatoryLocks_AllowedProtocols 7).set K.twoParty_CardPosition 0
  { s with reader := { ReaderSt.reset with enabled := true } }

/-- A card's answer: its KeyId, a MAC, the status 9000. -/
def cardAnswer (mac : List Nat) : List Nat := toBytes 8 77 ++ mac ++ [0x90, 0x00]

/-- The MAC that the card has to give for the challenge of 8 ones. -/
def cardMac : List Nat :=
  cmac (keyOf cardRun 15) (toBytes 2 7 ++ [1, 2, 3, 4, 5, 6, 7, 8] ++ List.replicate 8 1 ++ toBytes 8 77)

theorem aux_macLength : cardMac.length = 16 := by decide +kernel

theorem witness_TwoPartyCards :
    (let s := cardRun
     let m := (s.reach (s.time.t0 + 0)).settle
     let p := change 0xC060 2 [5] true
     s.Inv ∧ cardPollDue m = true ∧ m.reader.cmd = none ∧ m.reader.enabled = true ∧ posUsable m (m.get K.twoParty_CardPosition) = true ∧
      synth m = 2 ∧ fieldRefused m = none ∧ s.prot.cardHeld = false ∧ s.prot.pending.find? (·.card) = some p ∧
      confirmRefuses m p ⟨0x60 + 15, 0⟩ (s.get (K.keySlot_KeyRole 15) == 3) = none ∧
      ((List.range 16).find? fun k => s.get (K.keySlot_KeyState k) == 1 && s.get (K.keySlot_KeyId k) == ofBytes (toBytes 8 77)) = some 15) ∧
    (∀ mac ∈ [cardMac, cardMac.map (· + 1)], (cardAnswer mac).length = 26 ∧ (cardAnswer mac).drop 24 = [0x90, 0x00] ∧
      (cardAnswer mac).take 8 = toBytes 8 77 ∧ ((cardAnswer mac).drop 8).take 16 = mac) ∧
    cardMac ≠ cardMac.map (· + 1) := by
  refine ⟨by decide +kernel, ?_, ?_⟩
  · intro mac h
    have hl : mac.length = 16 := by
      obtain rfl | h := List.mem_cons.1 h
      · exact aux_macLength
      · obtain rfl := List.mem_singleton.1 h
        simpa using aux_macLength
    have h8 : (toBytes 8 77).length = 8 := rfl
    simp only [cardAnswer]
    refine ⟨by simp [hl, h8], ?_, ?_, ?_⟩
    · rw [List.drop_append_of_le_length (by simp [hl, h8])]; simp [hl, h8]
    · simp [h8]
    · simp [h8, hl]
  · intro e
    have hl := aux_macLength
    cases hc : cardMac with
    | nil => simp [hc] at hl
    | cons x l => simp [hc] at e

/-! ### Well-formedness: each check admits its last value and refuses the next -/

/-- A context with a slot, a source and a TAG. -/
def ctxOf (slot source tag : Nat) : Ctx := ⟨.host, some slot, source, tag, 0, 0⟩

theorem test_wf_context :
    (Instr.operate (ctxOf 15 4094 255)).wf = true ∧ (Instr.operate (ctxOf 16 0 0)).wf = false ∧ (Instr.operate (ctxOf 0 4095 0)).wf = false ∧
      (Instr.operate (ctxOf 0 0 256)).wf = false := by decide

theorem test_wf_issue : (Instr.nop ⟨3, 0, 0, 0⟩).wf = true ∧ (Instr.nop ⟨4, 0, 0, 0⟩).wf = false := by decide

theorem test_wf_start :
    (StartIn.wf ⟨63, [3], [511], [31], [3], 511, 63⟩) = true ∧
    (∀ i ∈ [StartIn.mk 64 [] [] [] [] 0 0, ⟨0, [4], [], [], [], 0, 0⟩, ⟨0, [], [512], [], [], 0, 0⟩, ⟨0, [], [], [32], [], 0, 0⟩,
      ⟨0, [], [], [], [4], 0, 0⟩, ⟨0, [], [], [], [], 512, 0⟩, ⟨0, [], [], [], [], 0, 64⟩], (Instr.powerUp 0 i 0).wf = false) := by decide

theorem test_wf_tick :
    let l4 := List.replicate 4 (0, 0)
    let l2 := List.replicate 2 (0, 0)
    let c4 := List.replicate 4 (0, [(0, 0)])
    (Instr.tick ⟨0, 0, c4, l2, none, none, [(31, 0)], 0, false⟩).wf = true ∧
      (Instr.tick ⟨0, 0, c4.take 2, l2, none, none, [], 0, false⟩).wf = false ∧
      (Instr.tick ⟨0, 0, c4, l4, none, none, [], 0, false⟩).wf = false ∧
      (Instr.tick ⟨0, 0, c4, l2, none, none, [(32, 0)], 0, false⟩).wf = false := by
  decide

theorem test_wf_cores :
    (Instr.dauGo 3 0 0).wf = true ∧ (Instr.dauGo 4 0 0).wf = false ∧ (Instr.pendingResultWrite 3 4).wf = true ∧
      (Instr.pendingResultWrite 4 0).wf = false ∧ (Instr.pendingResultWrite 0 5).wf = false ∧ (Instr.ncoCommit 3 0 511 0).wf = true ∧
      (Instr.ncoCommit 4 0 0 0).wf = false ∧ (Instr.ncoCommit 0 0 512 0).wf = false ∧ (Instr.ringHead 3 0 1 0).wf = true ∧
      (Instr.ringHead 4 0 0 0).wf = false ∧ (Instr.ringHead 0 0 2 0).wf = false ∧ (Instr.selfCheck [3] 0).wf = true ∧
      (Instr.selfCheck [4] 0).wf = false := by decide

theorem test_wf_requests :
    let j : JobEnd := ⟨rxFrame 8 none [], 1, 0⟩
    (Instr.read fw 65535 255 65535).wf = true ∧ (Instr.read fw 65536 0 0).wf = false ∧ (Instr.read fw 0 256 0).wf = false ∧
      (Instr.read fw 0 0 65536).wf = false ∧ (Instr.write fw 65535 255 [255]).wf = true ∧ (Instr.write fw 65536 0 []).wf = false ∧
      (Instr.write fw 0 256 []).wf = false ∧ (Instr.write fw 0 0 [256]).wf = false ∧ (Instr.snapshot fw 65535 65535).wf = true ∧
      (Instr.snapshot fw 65536 0).wf = false ∧ (Instr.snapshot fw 0 65536).wf = false ∧ (Instr.writeRecord fw 65535 [255]).wf = true ∧
      (Instr.writeRecord fw 65536 []).wf = false ∧ (Instr.writeRecord fw 0 [256]).wf = false ∧ (Instr.mspiTransfer [256] 0).wf = false ∧
      (Instr.hostRequest [256] true 0 0).wf = false ∧ (Instr.propose fw [256]).wf = false ∧ (Instr.cancel fw 65536).wf = false ∧
      (Instr.cardPoll true [256] [] [] j 0 0).wf = false ∧ (Instr.cardPoll true [] [256] [] j 0 0).wf = false ∧
      (Instr.cardPoll true [] [] [256] j 0 0).wf = false ∧ (Instr.imageVerifyDone [256]).wf = false := by decide

theorem test_wf_time_and_radio :
    (Instr.pondseed fw (2 ^ 96 - 1)).wf = true ∧ (Instr.pondseed fw (2 ^ 96)).wf = false ∧ (Instr.timePulseEdge 4 0).wf = false ∧
      (Instr.clockRealign 2 0).wf = false ∧ (Instr.antennaShort 2 0).wf = false ∧ (Instr.agcBaselineLearned 4).wf = false ∧
      (Instr.calRequest fw 256).wf = false ∧ (Instr.passDecision 8 0 0 0 0).wf = false ∧ (Instr.slotRetired 512).wf = false ∧
      (Instr.release fw 512).wf = false ∧ (Instr.decodeComplete 5 0).wf = false ∧ (Instr.ephemerisExpired 256).wf = false ∧
      (Instr.timePulseEdge 3 0).wf = true ∧ (Instr.clockRealign 1 0).wf = true ∧ (Instr.antennaShort 1 0).wf = true ∧
      (Instr.agcBaselineLearned 3).wf = true ∧ (Instr.calRequest fw 255).wf = true ∧ (Instr.passDecision 7 0 0 0 0).wf = true ∧
      (Instr.slotRetired 511).wf = true ∧ (Instr.release fw 511).wf = true ∧ (Instr.decodeComplete 4 0).wf = true ∧
      (Instr.ephemerisExpired 255).wf = true ∧ (Instr.verification 7 (List.replicate 9 0) 0).wf = true ∧
      (Instr.verification 8 (List.replicate 9 0) 0).wf = false ∧ (Instr.verification 7 (List.replicate 8 0) 0).wf = false := by decide

theorem test_wf_ports_timers_supplies :
    (Instr.signalDetect 32).wf = false ∧ (Instr.hello 32 []).wf = false ∧ (Instr.hello 31 [256]).wf = false ∧ (Instr.retrain fw 32).wf = false ∧
      (Instr.channelOpen fw 64).wf = false ∧ (Instr.channelBroken 64 0).wf = false ∧ (Instr.keeperHold 4095 0).wf = false ∧
      (Instr.timerStart fw 16).wf = false ∧ (Instr.groupStart fw 65536).wf = false ∧ (Instr.underflow 16 0).wf = false ∧
      (Instr.compareMatch 16 0 0).wf = false ∧ (Instr.compareMatch 0 2 0).wf = false ∧ (Instr.ctoPulseEnd 8 0).wf = false ∧
      (Instr.capture 8 true 0).wf = false ∧ (Instr.captureRead fw 8).wf = false ∧ (Instr.wake 0 32 0 0).wf = false ∧
      (Instr.supplyDrop 512 0).wf = false ∧ (Instr.siltRecordRead fw 5).wf = false ∧ (Instr.groupReferenceValid 4).wf = false ∧
      (Instr.supplyReturn 512 0).wf = false ∧ (Instr.supplyReturn 0 64).wf = false ∧
      (Instr.readerFrameReceived (rxFrame 8 none [256]) [] 0).wf = false ∧
      (Instr.hello 31 [255]).wf = true ∧ (Instr.channelOpen fw 63).wf = true ∧ (Instr.keeperHold 4094 0).wf = true ∧
      (Instr.timerStart fw 15).wf = true ∧ (Instr.groupStart fw 65535).wf = true ∧ (Instr.compareMatch 15 1 0).wf = true ∧
      (Instr.ctoPulseEnd 7 0).wf = true ∧ (Instr.capture 7 true 0).wf = true ∧ (Instr.wake 0 31 0 0).wf = true ∧
      (Instr.siltRecordRead fw 4).wf = true ∧ (Instr.groupReferenceValid 3).wf = true ∧ (Instr.supplyReturn 511 63).wf = true := by decide

/-! ### Values and single steps that the spec itself works out -/

/-- R70 and the worked example of spec/02: the CRC of a READ of TimingState. -/
theorem test_crc8_request : crc8 [0x01, 0x01, 0x20, 0x01, 0, 0, 0] = 0x84 := by decide +kernel

/-- The check value of the CRC-16 that spec/03 gives over its check string. -/
theorem test_crc16 : crc16 [0x31, 0x32, 0x33, 0x34, 0x35, 0x36, 0x37, 0x38, 0x39] = 0x29B1 := by decide +kernel

/-- R302: the check value of the CRC-32C. -/
theorem test_crc32c : crc32c [0x31, 0x32, 0x33, 0x34, 0x35, 0x36, 0x37, 0x38, 0x39] = 0xE3069283 := by decide +kernel

/-- The worked example of spec/00: 1,400,000,000.25 s on a link. -/
theorem test_time96_bytes :
    toBytes 12 (toTime96 (1400000000 * SEC + SEC / 4)) = [0, 0, 0x53, 0x72, 0x4E, 0, 0x40, 0, 0, 0, 0, 0] := by decide +kernel

/-- The next state of a command. -/
def after (i : Instr) (s : State) : Option State :=
  match exec i s with
  | .next t => some t
  | _ => none

/-- The worked example of spec/02: the host fetches the reply to a READ of TimingState, LOCKED. -/
theorem test_fetch_reply :
    (after (.fetch 8 0) (mspiRun [⟨⟨1, 1, 0x2001, 0, 0, []⟩, some ⟨0, [2]⟩⟩])).map (·.mspi.sent) =
      some [0x89, 0x01, 0x00, 0x00, 0x00, 0x01, 0x02, 0x32] := by decide +kernel

/-- The same example: the READ executes. -/
theorem test_read_timing_state :
    (after (.read (via .mspi none 1) 0x2001 0 0) ((mspiRun [⟨⟨1, 1, 0x2001, 0, 0, []⟩, none⟩]).set K.timingState 2)).map (·.mspi.queue) =
      some [⟨⟨1, 1, 0x2001, 0, 0, []⟩, some ⟨0, [2]⟩⟩] := by decide +kernel

/-- The worked example of spec/02 on CoreSpreadEnable: its reply. -/
theorem test_write_reply : replyFrame 2 ⟨St.ok, []⟩ = [0x02, 0x00, 0x00, 0x00, 0x00, 0xC4] := by decide +kernel

/-- The example of spec/14: 0x999990 ADDD 0x000015. -/
theorem test_addd_carry :
    (after (.addd (issue (r3 2 0 1 0x28))) (withG 0x999990 0x000015)).map (fun t => (t.core 0).g.toList.getD 2 0) = some 0x000005 := by
  decide +kernel

/-- ADD of 0x7FFFFF and 1 wraps to 0x800000 without SAT. -/
theorem test_add_wraps :
    (after (.add (issue (r3 2 0 1 0))) (withG 0x7FFFFF 1)).map (fun t => (t.core 0).g.toList.getD 2 0) = some 0x800000 := by
  decide +kernel

end Sys2Proof.Tests
end

/-!
PROOF. The CRC-8 of MSPI (R70): a byte taken bit by bit, from the most significant, is the byte added to the register and then
eight steps of the register.
-/

namespace Sys2Proof.Machine

/-- One step of the register of the CRC-8 while no bit comes in. -/
def crc8Step (c : Nat) : Nat := if 128 ≤ c then Nat.xor (2 * c % 256) 0x07 else 2 * c

theorem bit_eq_testBit (v i : Nat) : bit v i = v.testBit i := by
  rw [Nat.testBit_eq_decide_div_mod_eq]
  rfl

theorem bit_xor (a b i : Nat) : bit (a ^^^ b) i = (bit a i != bit b i) := by
  simp only [bit_eq_testBit, Nat.testBit_xor]

theorem crc8Step_lt {c : Nat} (hc : c < 256) : crc8Step c < 256 := by
  unfold crc8Step
  split
  · exact Nat.xor_lt_two_pow (n := 8) (Nat.mod_lt _ (by decide)) (by decide)
  · omega

theorem crc8Step_iterate_lt {c : Nat} (hc : c < 256) (n : Nat) : crc8Step^[n] c < 256 := by
  induction n with
  | zero => exact hc
  | succ n ih =>
    rw [Function.iterate_succ_apply']
    exact crc8Step_lt ih

/-- A register that already holds the bits `y` still to come takes the first of them in a step of its own. -/
theorem crcBit_xor {d : Nat} (y : Nat) (hd : d < 256) : crcBit 8 7 (d ^^^ y) (bit y 7) = crc8Step d ^^^ (2 * y % 256) := by
  have top : (bit (d ^^^ y) 7 != bit y 7) = decide (128 ≤ d) := by
    have hb : bit d 7 = decide (128 ≤ d) := by
      unfold bit
      rw [beq_eq_decide]
      exact decide_eq_decide.mpr (by omega)
    rw [bit_xor, hb]
    cases bit y 7 <;> simp
  have shift : (d ^^^ y) * 2 % 2 ^ 8 = (2 * d % 256) ^^^ (2 * y % 256) := by
    have h := Nat.shiftLeft_xor_distrib (a := d) (b := y) (i := 1)
    rw [Nat.shiftLeft_eq, Nat.shiftLeft_eq, Nat.shiftLeft_eq] at h
    rw [Nat.pow_one] at h
    rw [h, Nat.xor_mod_two_pow, Nat.mul_comm d, Nat.mul_comm y]
  unfold crcBit crc8Step
  rw [show 8 - 1 = 7 from rfl, top, shift]
  by_cases h : 128 ≤ d
  · simp only [h, decide_true, if_true]
    exact Nat.xor_right_comm _ _ _
  · simp only [h, decide_false, if_false, Bool.false_eq_true]
    rw [Nat.mod_eq_of_lt (by omega : 2 * d < 256)]

/-- The first bits of a byte from the most significant: the register has taken as many steps from the sum with the byte, and
still holds the bits to come. -/
theorem crcBit_foldl {c x : Nat} (hc : c < 256) (hx : x < 256) (n : Nat) (hn : n ≤ 8) :
    (List.range n).foldl (fun c i => crcBit 8 7 c (bit x (7 - i))) c = crc8Step^[n] (c ^^^ x) ^^^ (2 ^ n * x % 256) := by
  induction n with
  | zero =>
    show c = c ^^^ x ^^^ (2 ^ 0 * x % 256)
    rw [Nat.pow_zero, Nat.one_mul, Nat.mod_eq_of_lt hx, Nat.xor_assoc, Nat.xor_self, Nat.xor_zero]
  | succ n ih =>
    have hd : crc8Step^[n] (c ^^^ x) < 256 := crc8Step_iterate_lt (Nat.xor_lt_two_pow (n := 8) hc hx) n
    have hbit : bit x (7 - n) = bit (2 ^ n * x % 256) 7 := by
      rw [bit_eq_testBit, bit_eq_testBit, show 256 = 2 ^ 8 from rfl, Nat.testBit_mod_two_pow, Nat.testBit_two_pow_mul]
      simp [show n ≤ 7 by omega]
    have hnext : 2 * (2 ^ n * x % 256) % 256 = 2 ^ (n + 1) * x % 256 := by
      rw [Nat.mul_mod_mod, ← Nat.mul_assoc, Nat.pow_succ']
    rw [List.range_succ, List.foldl_append, ih (by omega), List.foldl_cons, List.foldl_nil, hbit, crcBit_xor _ hd, hnext,
      Function.iterate_succ_apply']

theorem crcByte_eq_iterate {c x : Nat} (hc : c < 256) (hx : x < 256) : crcByte 8 7 c x = crc8Step^[8] (c ^^^ x) := by
  have h := crcBit_foldl hc hx 8 (Nat.le_refl 8)
  rwa [show 2 ^ 8 = 256 from rfl, Nat.mul_mod_right, Nat.xor_zero] at h

theorem iterate_eight (f : Nat → Nat) (c : Nat) : f^[8] c = f (f (f (f (f (f (f (f c))))))) := rfl

theorem crc8_append (b : List Nat) (x : Nat) : crc8 (b ++ [x]) = crcByte 8 7 (crc8 b) x := by
  unfold crc8 crc
  rw [List.foldl_append]
  rfl

theorem crc8_lt {b : List Nat} (hb : ∀ y ∈ b, y < 256) : crc8 b < 256 := by
  induction b using List.reverseRecOn with
  | nil => decide
  | append_singleton b x ih =>
    have hx : x < 256 := hb x (by simp)
    have hc : crc8 b < 256 := ih fun y hy => hb y (by simp [hy])
    rw [crc8_append, crcByte_eq_iterate hc hx]
    exact crc8Step_iterate_lt (Nat.xor_lt_two_pow (n := 8) hc hx) 8

end Sys2Proof.Machine

namespace Sys2Proof.Proofs

open Machine

/-- Settles O56: a byte is added to the register and eight steps follow, as `crcByte_eq_iterate` says. -/
theorem crc8 : Obligations.Crc8 := by
  unfold Obligations.Crc8
  intro step
  have hs : step = crc8Step := rfl
  clear_value step
  subst hs
  refine ⟨rfl, fun b x hb hx => ⟨?_, crc8_lt ?_⟩, by decide +kernel⟩
  · rw [crc8_append, crcByte_eq_iterate (crc8_lt hb) hx]
    exact iterate_eight crc8Step _
  · exact fun y hy => (List.mem_append.mp hy).elim (hb y) fun h => List.mem_singleton.mp h ▸ hx

end Sys2Proof.Proofs

/-!
PROOF. The transfers of MSPI (R69 to R73): what a FETCH sends and when it takes the reply from the queue, and what a request
transfer adds to it.
-/

namespace Sys2Proof.Machine

variable {s : State}

/-! ### What the operations of the port leave in it -/

theorem engineUp_of_power {t : State} (h : t.power = s.power) : engineUp t = engineUp s := by
  unfold engineUp State.clocked State.inRun
  rw [h]

theorem State.bump_mspi (k n : Nat) : (s.bump k n).mspi = s.mspi := by
  unfold State.bump
  dsimp only
  split <;> rfl

theorem State.served_mspi : s.served.mspi = s.mspi :=
  (State.served_frame (fp := [.dict]) (frame_refl s) (by decide)).same .mspi (by decide)

@[simp] theorem State.statusSent_queue (n : Nat) : (s.statusSent n).mspi.queue = s.mspi.queue := by
  unfold State.statusSent
  split <;> rfl

theorem State.statusSent_power (n : Nat) : (s.statusSent n).power = s.power := by
  unfold State.statusSent
  split <;> rfl

@[simp] theorem State.replyLeft_mspi : s.replyLeft.mspi = s.mspi := rfl

/-! ### FETCH -/

section
variable {r : MspiReq} {y : Reply} {l : List MspiEntry} {m : Nat}

/-- A FETCH of a reply: its bytes follow the status byte, and it leaves the queue when the transfer holds them all (R71, R72). -/
theorem State.mspiFetch_reply (up : engineUp s = true) (hq : s.mspi.queue = ⟨r, some y⟩ :: l) (hm : 0 < m) :
    s.mspiFetch m =
      let t := (s.statusSent m).modMspi fun p =>
        { p with sent := ((statusByte s :: replyFrame r.tag y) ++ List.replicate m 0).take m }
      if 1 + (replyFrame r.tag y).length ≤ m then (t.modMspi fun p => { p with queue := l }).replyLeft else t := by
  unfold State.mspiFetch
  rw [up, if_neg (by decide), if_neg (by omega)]
  dsimp only
  rw [State.statusSent_queue, hq]

/-- After the status byte: the bytes of a list, filled with zero bytes. -/
theorem tail_take_fill (b : Nat) (f : List Nat) (hm : 0 < m) :
    (((b :: f) ++ List.replicate m 0).take m).tail = f.take (m - 1) ++ List.replicate (m - 1 - f.length) 0 := by
  obtain ⟨k, rfl⟩ : ∃ k, m = k + 1 := ⟨m - 1, by omega⟩
  rw [List.cons_append, List.take_succ_cons, List.tail_cons, List.take_append, List.take_replicate, Nat.add_sub_cancel,
    Nat.min_eq_left (by omega)]

/-- A transfer that clocks out the whole reply takes it from the queue (R72). -/
theorem State.mspiFetch_whole (up : engineUp s = true) (hq : s.mspi.queue = ⟨r, some y⟩ :: l)
    (hm : (replyFrame r.tag y).length < m) :
    (s.mspiFetch m).mspi.queue = l ∧ (s.mspiFetch m).mspi.sent.tail =
      replyFrame r.tag y ++ List.replicate (m - 1 - (replyFrame r.tag y).length) 0 := by
  rw [State.mspiFetch_reply up hq (by omega)]
  dsimp only
  rw [if_pos (by omega)]
  refine ⟨rfl, (tail_take_fill (statusByte s) (replyFrame r.tag y) (by omega)).trans ?_⟩
  rw [List.take_of_length_le (by omega)]

/-- A transfer that ends before the reply does leaves the queue as it is (R72). -/
theorem State.mspiFetch_part (up : engineUp s = true) (hq : s.mspi.queue = ⟨r, some y⟩ :: l) (hm : 0 < m)
    (hf : m ≤ (replyFrame r.tag y).length) :
    (s.mspiFetch m).mspi.queue = s.mspi.queue ∧ (s.mspiFetch m).mspi.sent.tail = (replyFrame r.tag y).take (m - 1) ∧
      engineUp (s.mspiFetch m) = true := by
  rw [State.mspiFetch_reply up hq hm]
  dsimp only
  rw [if_neg (by omega)]
  refine ⟨State.statusSent_queue m, (tail_take_fill (statusByte s) (replyFrame r.tag y) hm).trans ?_,
    (engineUp_of_power (State.statusSent_power m)).trans up⟩
  rw [show m - 1 - (replyFrame r.tag y).length = 0 by omega, List.replicate_zero, List.append_nil]

end

/-! ### A request transfer -/

/-- A transfer that is no FETCH leaves the queue as it is, or adds its request at the end: answered already where its operation
code is reserved, else without a reply (R53, R69, R73). -/
theorem State.mspiTransfer_queue (b : List Nat) (h4 : byteAt b 0 ≠ 4) :
    (s.mspiTransfer b).mspi.queue = s.mspi.queue ∨
      ∃ q y, (s.mspiTransfer b).mspi.queue = s.mspi.queue ++ [⟨q, y⟩] ∧ (y.isSome = true ↔ opReserved q.op = true) := by
  unfold State.mspiTransfer
  by_cases up : engineUp s = true
  case neg => exact .inl (by rw [if_pos (by simpa using up)]; rfl)
  rw [if_neg (by simpa using up)]
  by_cases empty : b.isEmpty = true
  case pos => exact .inl (by rw [if_pos empty])
  rw [if_neg empty]
  by_cases status : byteAt b 0 = 0
  case pos => exact .inl (by rw [if_pos status, State.statusSent_queue])
  rw [if_neg status, if_neg h4]
  extract_lets t op len d r put
  have ht : t.mspi.queue = s.mspi.queue := State.statusSent_queue _
  by_cases framing : b.length ≠ 8 + d ∨ 1024 < len
  case pos => exact .inl (by rw [if_pos framing, State.bump_mspi]; exact ht)
  rw [if_neg framing]
  by_cases crc : byteAt b (7 + d) ≠ crc8 (b.take (7 + d))
  case pos => exact .inl (by rw [if_pos crc, State.bump_mspi]; exact ht)
  rw [if_neg crc]
  by_cases full : 4 ≤ t.mspi.queue.length
  case pos => exact .inl (by rw [if_pos full, State.bump_mspi]; exact ht)
  rw [if_neg full]
  by_cases reserved : opReserved op = true
  · refine .inr ⟨r, some ⟨St.valueReserved, []⟩, ?_, iff_of_true rfl reserved⟩
    rw [if_pos reserved, State.modMspi_mspi, State.served_mspi, State.answer_mspi, ht]
  · refine .inr ⟨r, none, ?_, iff_of_false Bool.false_ne_true reserved⟩
    rw [if_neg reserved, State.modMspi_mspi, ht]

/-! ### The request that executes -/

/-- A READ is the next request of the queue only as the whole request it was sent as. -/
theorem mspiIs_read {tag index sub len : Nat} (h : mspiIs s tag 1 index sub len [] = true) :
    mspiNext s = some { op := 1, tag := tag, index := index, sub := sub, len := len, data := [] } := by
  unfold mspiIs at h
  split at h
  next q hq =>
    obtain ⟨op, tag', index', sub', len', data⟩ := q
    simp only [Bool.and_eq_true, Bool.or_eq_true, beq_iff_eq, Nat.reduceEqDiff, or_false] at h
    obtain ⟨⟨⟨⟨⟨rfl, rfl⟩, rfl⟩, rfl⟩, rfl⟩, rfl⟩ := h
    exact hq
  next => exact absurd h Bool.false_ne_true

/-- Over MSPI a request that is not the next of the queue does not execute (log entry 55). -/
theorem State.request_mspi_of_not_next {c : Ctx} {op index sub len : Nat} {b : List Nat} (hc : c.path = .mspi)
    (h : mspiIs s c.tag op index sub len b = false) : s.request c op index sub len b = s := by
  unfold State.request
  rw [if_pos hc, h]
  exact ite_self s

end Sys2Proof.Machine

namespace Sys2Proof.Proofs

open Machine

/-- Settles O58, from `State.mspiFetch_whole`, `State.mspiFetch_part`, `State.mspiTransfer_queue` and `mspiIs_read`. -/
theorem mspiReplies : Obligations.MspiReplies := by
  unfold Obligations.MspiReplies
  intro s at_ _ up
  refine ⟨fun r y l m hq hm => ⟨fun whole => ?_, fun part => ?_⟩, fun b h4 => ?_, fun c index sub len hc hn => ?_⟩
  · exact ⟨_, rfl, State.mspiFetch_whole (s := s.reach _) up hq whole⟩
  · obtain ⟨queue, sent, up'⟩ := State.mspiFetch_part (s := s.reach (s.time.t0 + at_)) up hq hm part
    refine ⟨_, rfl, queue, sent, fun k hk => ⟨_, rfl, ?_⟩⟩
    exact State.mspiFetch_whole (s := State.reach _ _) up' (queue.trans hq) hk
  · exact ⟨_, rfl, State.mspiTransfer_queue (s := s.reach _) b h4⟩
  · have h : mspiIs s c.tag 1 index sub len [] = false := Bool.eq_false_iff.mpr fun h => hn (mspiIs_read h)
    exact congrArg Host.Outcome.next (State.request_mspi_of_not_next hc h)

end Sys2Proof.Proofs

/-!
PROOF. A request that is served: the operation executes at its instant and its reply is kept; what the counting of requests
leaves alone.
-/

namespace Sys2Proof.Machine

variable {s : State} {c : Ctx}

/-! ### Waiting submissions -/

theorem waits_of_net {t : State} (h : t.net = s.net) : waits t = waits s := by
  unfold waits
  rw [h]

theorem State.settle_net (s : State) : s.settle.net = s.net :=
  (State.settle_frame (fp := [.dict, .streams, .silt, .cpu, .tmr, .reader]) (frame_refl s) (by decide) (by decide) (by decide)
    (by decide) (by decide) (by decide)).same .net (by decide)

theorem State.comeTo_net (s : State) (c : Ctx) : (s.comeTo c).net = s.net :=
  (State.comeTo_frame (fp := [.dict, .streams, .silt, .time, .cpu, .tmr, .prot, .reader]) c (frame_refl s) (by decide) (by decide)
    (by decide) (by decide) (by decide) (by decide) (by decide) (by decide)).same .net (by decide)

theorem State.readTakes_net (s : State) (index sub : Nat) : (s.readTakes index sub).net = s.net :=
  (State.readTakes_frame (fp := [.dict, .free, .tmr]) index sub (frame_refl s) (by decide) (by decide) (by decide)).same .net
    (by decide)

/-- The engine serves no request while a submission waits. -/
theorem State.Serves.waits {op index sub len : Nat} {b : List Nat} (h : s.Serves c op index sub len b) : waits s = false := by
  have takes := h.1
  simp only [engineTakes, engineFree, Bool.and_eq_true, Bool.not_eq_true'] at takes
  obtain ⟨⟨_, free⟩, _⟩ := takes
  exact free

/-- So none waits while the parts of the network are as the request found them. -/
theorem State.Serves.waits_of_net {op index sub len : Nat} {b : List Nat} (h : s.Serves c op index sub len b) {t : State}
    (ht : t.net = s.net) : Machine.waits t = false := (Machine.waits_of_net ht).trans h.waits

theorem State.meets_net (s : State) (c : Ctx) : (s.meets c).net = s.net := by
  unfold State.meets
  rw [State.settle_net, State.comeTo_net]

/-! ### The invariant at the instant of a request -/

theorem State.Inv.comeTo (h : s.Inv) (c : Ctx) : (s.comeTo c).Inv :=
  (State.comeTo_keeps c (⟨rfl, rfl, rfl, h⟩ : Keeps s.pending s.jtag s.time.base s)).inv

theorem State.Inv.settle (h : s.Inv) : s.settle.Inv :=
  (State.settle_keeps (⟨rfl, rfl, rfl, h⟩ : Keeps s.pending s.jtag s.time.base s)).inv

theorem State.Inv.meets (h : s.Inv) (c : Ctx) : (s.meets c).Inv := by
  unfold State.meets
  exact State.Inv.settle (State.Inv.comeTo h c)

/-! ### The reply and the counters -/

/-- A request that is served executes at its instant; over MSPI its reply then joins the queue, and nothing else changes. -/
theorem State.Serves.request_frame {op index sub len : Nat} {b : List Nat} (h : s.Serves c op index sub len b) :
    Frame [.mspi] ((s.comeTo c).execOp c op index sub len b) (s.request c op index sub len b) := by
  obtain ⟨takes, ok, next⟩ := h
  unfold State.request
  rw [takes, ok, if_neg (by decide)]
  split
  next path =>
    rw [next path, if_pos rfl]
    dsimp only
    split
    · exact frame_refl _
    · exact State.mspiReply_frame (frame_refl _) (by decide)
  next => exact frame_refl _

theorem State.served_reply (s : State) : s.served.reply = s.reply :=
  (State.served_frame (fp := [.dict]) (frame_refl s) (by decide)).same .reply (by decide)

/-- Apart from the keys that count requests, the dictionary is as the operation left it, JOURNAL_FULL excepted (R80, R401). -/
theorem State.get_served_other (hd : s.DictOk) (hs : s.reply.status ≠ St.journalFull) {j : Nat} (hj : j ∉ requestKeys) :
    s.served.get j = s.get j := by
  simp only [requestKeys, List.mem_cons, List.not_mem_nil, or_false, not_or] at hj
  obtain ⟨served, notInState, flags, notAuthorised⟩ := hj
  have bumped := State.get_bump_other hd K.hostAccessCounters_RequestsServed 4 served
  have hr : (s.bump K.hostAccessCounters_RequestsServed 4).reply = s.reply := by
    unfold State.bump
    dsimp only
    split <;> rfl
  unfold State.served
  dsimp only
  rw [hr, if_neg hs]
  split
  · exact (State.get_bump_other (hd.bump _ _) _ _ notInState).trans bumped
  · split
    · exact (State.get_flag_other (hd.bump _ _) _ _ _ flags notAuthorised).trans bumped
    · exact bumped

/-- The same of an operation that only answers. -/
theorem State.get_served_answer (hd : s.DictOk) {status : Nat} (hs : status ≠ St.journalFull) (data : List Nat) {j : Nat}
    (hj : j ∉ requestKeys) : (s.answer status data).served.get j = s.get j :=
  State.get_served_other (s := s.answer status data) hd hs hj

/-! ### One operation -/

theorem State.execOp_read {index sub len : Nat} {b : List Nat} (h : waits (s.opRead c index sub len) = false) :
    s.execOp c 1 index sub len b = (s.opRead c index sub len).served := by
  show (if waits (s.opRead c index sub len) then _ else _) = _
  rw [h]
  rfl

theorem State.execOp_write {index sub : Nat} {b : List Nat} (h : waits (s.opWrite c index sub b) = false) :
    s.execOp c 2 index sub b.length b = (s.opWrite c index sub b).served := by
  unfold State.execOp
  rw [if_pos rfl]
  show (if waits (s.opWrite c index sub b) then _ else _) = _
  rw [h]
  rfl

/-- A READ that passes every check answers the value of its row (R65). -/
theorem State.opRead_of_accepted {index sub len : Nat} {r : Row} (hr : findRow index sub = some r)
    (h : firstRefused (readRefusals s c index sub len) = none) :
    s.opRead c index sub len = (s.readTakes index sub).answer St.ok (toBytes r.ty.bytes (readValue s index sub)) := by
  unfold State.opRead
  rw [h, hr]

/-- A served READ that passes every check: its reply. -/
theorem State.Serves.read_reply {index sub len : Nat} {r : Row} (h : s.Serves c 1 index sub len [])
    (hr : findRow index sub = some r) (hok : firstRefused (readRefusals (s.comeTo c) c index sub len) = none) :
    (s.request c 1 index sub len []).reply = ⟨St.ok, toBytes r.ty.bytes (readValue (s.comeTo c) index sub)⟩ := by
  have hw : Machine.waits ((s.comeTo c).opRead c index sub len) = false := by
    rw [State.opRead_of_accepted hr hok]
    refine State.Serves.waits_of_net h ?_
    rw [State.answer_net, State.readTakes_net, State.comeTo_net]
  refine (h.request_frame.same .reply (by decide)).trans ?_
  rw [State.execOp_read hw, State.served_reply, State.opRead_of_accepted hr hok]
  rfl

/-! ### The checks of a write -/

theorem findRow_findObj {index sub : Nat} {r : Row} (h : findRow index sub = some r) : ∃ o, findObj index = some o := by
  unfold findRow at h
  split at h
  next => cases h
  next o ho => exact ⟨o, ho⟩

theorem firstRefused_eq_none {l : List Refused} : firstRefused l = none ↔ l = [] := by
  rcases List.eq_nil_or_concat l with rfl | ⟨init, x, rfl⟩
  · exact iff_of_true rfl rfl
  · refine iff_of_false (fun h => ?_) (by simp)
    unfold firstRefused at h
    rw [List.concat_eq_append, List.foldl_append, List.foldl_cons, List.foldl_nil] at h
    split at h
    · cases h
    · split at h <;> cases h

/-- The table lets a role that may write the object write a row that is not read-only (positions 1 to 4 of R53). -/
theorem tableRefuses_write {index sub : Nat} {r : Row} (hr : findRow index sub = some r)
    (hm : mayWrite s (roleOf s c) index = true) (ha : r.acc ≠ .ro) (hk : r.keep ≠ .f) :
    tableRefuses s c true index sub = none := by
  obtain ⟨o, ho⟩ := findRow_findObj hr
  unfold tableRefuses
  rw [ho, hr]
  dsimp only
  simp [hm, ha, hk]

/-- A write of a length that the type does not allow is refused for that alone (R45, R53). -/
theorem writeRefusals_length {index sub : Nat} {b : List Nat} {r : Row} (hr : findRow index sub = some r)
    (ht : tableRefuses s c true index sub = none) (hl : lengthOk r.ty b.length = false) :
    writeRefusals s c index sub b false = [⟨St.lengthMismatch, [], sub⟩] := by
  unfold writeRefusals
  rw [ht, hr]
  dsimp only
  rw [hl]
  rfl

theorem lengthOk_of_passes {index sub : Nat} {b : List Nat} {r : Row} (hr : findRow index sub = some r)
    (h : firstRefused (writeRefusals s c index sub b false) = none) : lengthOk r.ty b.length = true := by
  by_contra hl
  have hn := firstRefused_eq_none.mp h
  cases ht : tableRefuses s c true index sub with
  | none =>
    rw [writeRefusals_length hr ht (by simpa using hl)] at hn
    exact List.cons_ne_nil _ _ hn
  | some e =>
    unfold writeRefusals at hn
    rw [ht] at hn
    exact List.cons_ne_nil _ _ hn

/-! ### A write of one value -/

/-- The two-party commands are written with the lengths of their types (R408 to R410). -/
theorem twoParty_lengthOk {index sub n : Nat} {r : Row} (hr : findRow index sub = some r)
    (h : index = 0xC040 ∧ (sub = 1 ∧ n = 1040 ∨ sub = 2 ∧ n = 10 ∨ sub = 3 ∧ n = 2)) : lengthOk r.ty n = true := by
  have key : ∀ p ∈ [(1, 1040), (2, 10), (3, 2)], (findRow 0xC040 p.1).all (fun r => lengthOk r.ty p.2) = true := by
    decide +kernel
  obtain ⟨rfl, h⟩ := h
  have hp : (sub, n) ∈ [(1, 1040), (2, 10), (3, 2)] := by simpa using h
  have := key (sub, n) hp
  rwa [hr] at this

/-- A write of a length that the type does not allow changes nothing but what is due by then (R45). -/
theorem State.opWrite_length {index sub : Nat} {b : List Nat} {r : Row} (hr : findRow index sub = some r)
    (ht : tableRefuses s.settle c true index sub = none) (hl : lengthOk r.ty b.length = false) :
    s.opWrite c index sub b = s.settle.answer St.lengthMismatch [] := by
  have plain : ¬ (index = 0xC040 ∧ (sub = 1 ∧ b.length = 1040 ∨ sub = 2 ∧ b.length = 10 ∨ sub = 3 ∧ b.length = 2)) :=
    fun h => Bool.false_ne_true (hl.symm.trans (twoParty_lengthOk hr h))
  unfold State.opWrite
  rw [if_neg (by tauto), if_neg (by tauto), if_neg (by tauto)]
  dsimp only
  rw [writeRefusals_length hr ht hl, hr]
  dsimp only
  cases r.acc <;> rfl

/-- A write to an RW value that passes every check (R44 to R53): the value is held, and does what its chapter says. -/
theorem State.opWrite_rw {index sub : Nat} {b : List Nat} {r : Row} (hr : findRow index sub = some r) (ha : r.acc = .rw)
    (hi : index < 0xE000) (h0 : index ≠ 0xC040) (h : firstRefused (writeRefusals s.settle c index sub b false) = none) :
    s.opWrite c index sub b = (((s.settle.set (index * 256 + r.sub) (imageOf r.ty b)).written c index r.sub
      (s.settle.get (index * 256 + r.sub))).answer St.ok []) := by
  unfold State.opWrite
  rw [if_neg (by tauto), if_neg (by tauto), if_neg (by tauto)]
  dsimp only
  rw [firstRefused_eq_none.mp h, hr]
  dsimp only
  rw [ha]
  show (if 0xE000 ≤ index then _ else _) = _
  rw [if_neg (by omega)]
  unfold State.putValue
  rw [ha]
  rfl

end Sys2Proof.Machine

/-!
PROOF. Values of OCTETS and TEXT (R45): the bytes that a write brings and a read returns, and the lengths that are refused.
-/

namespace Sys2Proof.Machine

variable {s : State} {c : Ctx}

/-! ### Bytes and rows -/

/-- OCTETS or TEXT. -/
def Ty.isBytes : Ty → Bool
  | .octets _ | .text _ => true
  | _ => false

theorem toBytes_length (n v : Nat) : (toBytes n v).length = n := by
  induction n with
  | zero => rfl
  | succ n ih => rw [toBytes, List.length_cons, ih]

theorem toBytes_succ (n v : Nat) : toBytes (n + 1) v = toBytes n (v / 256) ++ [v % 256] := by
  induction n with
  | zero => simp [toBytes]
  | succ n ih =>
    rw [toBytes, ih, toBytes, List.cons_append, Nat.div_div_eq_div_mul, ← Nat.pow_succ']

/-- The bytes of the number that bytes spell are those bytes (R43). -/
theorem toBytes_ofBytes {b : List Nat} (hb : ∀ x ∈ b, x < 256) : toBytes b.length (ofBytes b) = b := by
  induction b using List.reverseRecOn with
  | nil => rfl
  | append_singleton b x ih =>
    have hx : x < 256 := hb x (by simp)
    have hv : ofBytes (b ++ [x]) = ofBytes b * 256 + x := by
      unfold ofBytes
      rw [List.foldl_append, List.foldl_cons, List.foldl_nil, Nat.mod_eq_of_lt hx]
    rw [List.length_append, List.length_singleton, toBytes_succ, hv, show (ofBytes b * 256 + x) / 256 = ofBytes b by omega,
      show (ofBytes b * 256 + x) % 256 = x by omega, ih fun y hy => hb y (by simp [hy])]

/-- The value that a write of OCTETS or TEXT brings holds its bytes, the rest 0 (R45). -/
theorem toBytes_imageOf {t : Ty} {b : List Nat} (ht : t.isBytes = true) (hl : lengthOk t b.length = true) (hb : ∀ x ∈ b, x < 256) :
    toBytes t.bytes (imageOf t b) = b ++ List.replicate (t.bytes - b.length) 0 := by
  cases t with
  | octets n =>
    have hn : b.length = n := by simpa [lengthOk, Ty.bytes] using hl
    show toBytes n (ofBytes b) = b ++ List.replicate (n - b.length) 0
    rw [← hn, toBytes_ofBytes hb, Nat.sub_self, List.replicate_zero, List.append_nil]
  | text n =>
    have hn : b.length ≤ n := by simpa [lengthOk] using hl
    have fill : (b ++ List.replicate n 0).take n = b ++ List.replicate (n - b.length) 0 := by
      rw [List.take_append, List.take_of_length_le hn, List.take_replicate, Nat.min_eq_left (by omega)]
    show toBytes n (ofBytes ((b ++ List.replicate n 0).take n)) = _
    rw [fill]
    have h := toBytes_ofBytes (b := b ++ List.replicate (n - b.length) 0) (by
      intro x hx
      rcases List.mem_append.mp hx with h | h
      · exact hb x h
      · rw [List.eq_of_mem_replicate h]
        decide)
    rwa [List.length_append, List.length_replicate, Nat.add_sub_cancel' hn] at h
  | _ => cases ht

/-- A row answers as the table lists it, its access class apart where R402 fixes it. -/
theorem findRow_listed {index sub : Nat} {r : Row} (h : findRow index sub = some r) :
    ∃ o ∈ objs, (o.base ≤ index ∧ index < o.base + o.count) ∧ ∃ q ∈ o.rows, q.sub = sub ∧ r.sub = q.sub ∧ r.ty = q.ty ∧
      (r.acc = q.acc ∨ r.acc = .ro) := by
  unfold findRow at h
  split at h
  next => cases h
  next o ho =>
    have range := List.find?_some ho
    simp only [Bool.and_eq_true, decide_eq_true_eq] at range
    refine ⟨o, List.mem_of_find?_eq_some ho, range, ?_⟩
    split at h
    next => cases h
    next q hq =>
      refine ⟨q, List.mem_of_find?_eq_some hq, by simpa using List.find?_some hq, ?_⟩
      dsimp only at h
      split_ifs at h <;> cases h <;> simp

/-- The one value of OCTETS or TEXT outside the fabric scope that is written as RW is TalkerId, a TEXT(2) (R105). -/
theorem findRow_bytes_rw {index sub : Nat} {r : Row} (h : findRow index sub = some r) (ht : r.ty.isBytes = true) (ha : r.acc = .rw) :
    index = 0x2040 ∧ sub = 4 ∧ r.sub = 4 ∧ r.ty = .text 2 := by
  have key : ∀ o ∈ objs, ∀ q ∈ o.rows, q.ty.isBytes = true → q.acc = .rw →
      o.base = 0x2040 ∧ o.count = 1 ∧ q.sub = 4 ∧ q.ty = .text 2 := by decide +kernel
  obtain ⟨o, ho, hi, q, hq, rfl, hs, hy, hacc⟩ := findRow_listed h
  have rw : q.acc = .rw := hacc.elim (fun e => e.symm.trans ha) fun e => absurd (ha.symm.trans e) (by decide)
  obtain ⟨base, count, four, text⟩ := key o ho q hq (hy ▸ ht) rw
  exact ⟨by omega, four, hs.trans four, hy.trans text⟩

/-! ### Writes and reads as requests -/

theorem State.get_of_dict {t : State} (h : t.dict = s.dict) (j : Nat) : t.get j = s.get j := by
  unfold State.get
  rw [h]

/-- A served WRITE of a length that the type does not allow: it is refused, and only the counters of requests move (R45, R80). -/
theorem State.Serves.write_length {index sub : Nat} {b : List Nat} {r : Row} (h : s.Serves c 2 index sub b.length b) (hs : s.Inv)
    (hr : findRow index sub = some r) (ht : tableRefuses (s.meets c) c true index sub = none) (hl : lengthOk r.ty b.length = false) :
    (s.write c index sub b).reply = ⟨St.lengthMismatch, []⟩ ∧
      ∀ j, j ∉ requestKeys → (s.write c index sub b).get j = (s.meets c).get j := by
  have hop : (s.comeTo c).opWrite c index sub b = (s.meets c).answer St.lengthMismatch [] := State.opWrite_length hr ht hl
  have hw : Machine.waits ((s.comeTo c).opWrite c index sub b) = false := by
    rw [hop]
    refine State.Serves.waits_of_net h ?_
    rw [State.answer_net, State.meets_net]
  have hx := State.execOp_write hw
  rw [hop] at hx
  have hf := h.request_frame
  rw [hx] at hf
  refine ⟨(hf.same .reply (by decide)).trans (State.served_reply _), fun j hj => ?_⟩
  refine (State.get_of_dict (hf.same .dict (by decide)) j).trans ?_
  exact State.get_served_answer (State.Inv.dictOk (hs.meets c)) (by decide) [] hj

/-- A served WRITE of TalkerId that passes every check: the value is held (R44, R105). -/
theorem State.Passes.write_talkerId {b : List Nat} {r : Row} (h : s.Passes c 0x2040 4 b) (hs : s.Inv)
    (hr : findRow 0x2040 4 = some r) (ha : r.acc = .rw) (hsub : r.sub = 4) :
    (s.write c 0x2040 4 b).get K.timeOfDay_TalkerId = imageOf r.ty b := by
  obtain ⟨serves, checks⟩ := h
  have hop : (s.comeTo c).opWrite c 0x2040 4 b =
      ((s.meets c).set K.timeOfDay_TalkerId (imageOf r.ty b)).answer St.ok [] := by
    rw [State.opWrite_rw hr ha (by decide) (by decide) checks, hsub]
    rfl
  have hw : Machine.waits ((s.comeTo c).opWrite c 0x2040 4 b) = false := by
    rw [hop]
    refine State.Serves.waits_of_net serves ?_
    rw [State.answer_net, State.set_net, State.meets_net]
  have hf := serves.request_frame
  rw [State.execOp_write hw, hop] at hf
  refine (State.get_of_dict (hf.same .dict (by decide)) _).trans ?_
  have hd : (s.meets c).DictOk := State.Inv.dictOk (hs.meets c)
  exact (State.get_served_answer (hd.set _ _) (by decide) [] (by decide)).trans (State.get_set_same hd _ _)

end Sys2Proof.Machine

namespace Sys2Proof.Proofs

open Machine

/-- Settles O57: a wrong length is refused in its place of R53, TalkerId is the one such value written as RW, and a read returns
the bytes of the type. -/
theorem octetsAndText : Obligations.OctetsAndText := by
  unfold Obligations.OctetsAndText
  intro s c index sub n len b r hs hr hty hb w
  have bytes : r.ty.isBytes = true := by rcases hty with h | h <;> rw [h] <;> rfl
  have size : r.ty.bytes = n := by rcases hty with h | h <;> rw [h] <;> rfl
  have fits : lengthOk r.ty b.length = true ↔ b.length ≤ n ∧ (r.ty = .octets n → b.length = n) := by
    rcases hty with h | h
    · simp only [h, lengthOk, Ty.bytes, beq_iff_eq, true_implies]
      omega
    · simp [h, lengthOk]
  refine ⟨fun serves hm ha hk hl => ?_, fun passes ha hi => ?_, fun serves hok => ?_⟩
  · have wrong : lengthOk r.ty b.length = false := by
      rw [Bool.eq_false_iff, Ne, fits]
      exact fun ⟨short, exact_⟩ => hl.elim (fun long => absurd short (by omega)) fun ⟨octets, ne⟩ => ne (exact_ octets)
    exact ⟨_, rfl, State.Serves.write_length serves hs hr (tableRefuses_write hr hm ha hk) wrong⟩
  · have ok := lengthOk_of_passes hr passes.2
    obtain ⟨rfl, rfl, hsub, text⟩ := findRow_bytes_rw hr bytes ha
    refine ⟨(fits.mp ok).1, (fits.mp ok).2, _, rfl, ?_⟩
    have held := State.Passes.write_talkerId passes hs hr ha hsub
    rw [← size, ← toBytes_imageOf bytes ok hb, ← held]
    rfl
  · have reply := State.Serves.read_reply serves hr hok
    refine ⟨_, rfl, congrArg Reply.status reply, ?_⟩
    rw [← size]
    exact (congrArg (fun y : Reply => y.data.length) reply).trans (toBytes_length _ _)

end Sys2Proof.Proofs

/-!
PROOF. The timer unit and the power states (R533): its vote, and that from entry to SLEEP to the return every timer is STOPPED.
-/

namespace Sys2Proof.Machine

variable {s t : State}

/-! ### Timers at rest -/

/-- The timer unit as SLEEP leaves it (R533): no capture is stamped and every timer is STOPPED. -/
structure State.TimersRest (s : State) : Prop where
  dictOk : s.DictOk
  stopped : s.tmr.stopped = true
  state : ∀ n < 16, s.timerState n = 0

/-- The key is the TimerState of no timer. -/
abbrev NotTimerState (k : Nat) : Prop := ∀ n < 16, K.cadenceTimer_TimerState n ≠ k

theorem State.TimersRest.of_same (h : s.TimersRest) (hd : t.dict = s.dict) (ht : t.tmr = s.tmr) : t.TimersRest where
  dictOk := by
    unfold State.DictOk
    rw [hd]
    exact h.dictOk
  stopped := (congrArg TimersSt.stopped ht).trans h.stopped
  state n hn := (State.get_of_dict hd _).trans (h.state n hn)

theorem State.TimersRest.of_frame {fp : List Part} (h : s.TimersRest) (hf : Frame fp s t) (hd : Part.dict ∉ fp)
    (ht : Part.tmr ∉ fp) : t.TimersRest := h.of_same (hf.same .dict hd) (hf.same .tmr ht)

theorem State.TimersRest.modPower (h : s.TimersRest) (f : PowerSt → PowerSt) : (s.modPower f).TimersRest := h.of_same rfl rfl

theorem State.TimersRest.set (h : s.TimersRest) {k : Nat} (v : Nat) (hk : NotTimerState k) : (s.set k v).TimersRest where
  dictOk := h.dictOk.set k v
  stopped := h.stopped
  state n hn := (State.get_set_other h.dictOk k v (hk n hn)).trans (h.state n hn)

theorem State.TimersRest.flag (h : s.TimersRest) {w k : Nat} (b : Nat) (hw : NotTimerState w) (hk : NotTimerState k) :
    (s.flag w b k).TimersRest := by
  unfold State.flag State.bump
  dsimp only
  split <;> exact (h.set _ hw).set _ hk

theorem State.TimersRest.log (h : s.TimersRest) (code status : Nat) (data : List Nat) : (s.log code status data).TimersRest := by
  unfold State.log State.logAt
  split
  · exact (h.flag 0 (w := K.siltLog_LogFlags) (k := K.siltLog_LostRecords) (by decide) (by decide)).of_same rfl rfl
  · exact h.of_same rfl rfl

theorem State.TimersRest.siltCommit (h : s.TimersRest) (n : Nat) : (s.siltCommit n).TimersRest := by
  unfold State.siltCommit
  split
  · exact h
  · extract_lets done log kept
    have held : kept.TimersRest := h.of_same rfl rfl
    split
    · exact held
    · exact (held.log _ _ _).of_same rfl rfl

theorem State.TimersRest.synthTo (h : s.TimersRest) (t v : Nat) : (s.synthTo t v).TimersRest :=
  (h.set (k := K.reader_SynthState) v (by decide)).of_same rfl rfl

theorem State.TimersRest.synthPend (h : s.TimersRest) (t : Nat) : (s.synthPend t).TimersRest := by
  unfold State.synthPend
  split
  · exact ((h.set (k := K.reader_SynthCalTemperature) _ (by decide)).synthTo t 3).of_same rfl rfl
  · exact h

/-- The reader's clock stops: only objects of the reader change. -/
theorem State.TimersRest.readerStop (h : s.TimersRest) : s.readerStop.TimersRest := by
  have off : s.fieldOff.TimersRest := by
    unfold State.fieldOff State.fieldOffAt
    split
    · have hr : ((s.setB K.reader_FieldOn false).modReader fun r =>
          { r with offAt := some s.elapsed, spans := (r.onAt, s.elapsed) :: r.spans, frozen := false }).TimersRest :=
        (h.set (k := K.reader_FieldOn) _ (by decide)).of_same rfl rfl
      dsimp only
      split
      · exact (hr.synthTo _ 1).synthPend _
      · exact hr.synthPend _
    · exact h
  exact off.synthTo _ 0

/-- The outputs stop: of the dictionary only ClockState changes (R109). -/
theorem State.TimersRest.outputsSleep (h : s.TimersRest) : s.outputsSleep.TimersRest := by
  unfold State.outputsSleep
  refine List.foldlRecOn (motive := State.TimersRest) _ _ ?_ fun u hu c hc => ?_
  · have cut : Frame [.out] s ((List.range 4).foldl (fun u p => u.irigCut p u.time.now) s) :=
      frame_foldl _ _ (frame_refl s) fun u p hu => State.irigCut_frame p u.time.now hu (by decide)
    exact (h.of_frame cut (by decide) (by decide)).of_same rfl rfl
  · have clock : NotTimerState (K.clockOut_ClockState c) := by
      have hc2 : c < 2 := List.mem_range.mp hc
      intro n hn
      unfold K.cadenceTimer_TimerState K.clockOut_ClockState
      omega
    split
    · exact hu.set 1 clock
    · exact hu

theorem State.TimersRest.slotsHold (h : s.TimersRest) (l : List (Nat × SlotKept)) : (s.slotsHold l).TimersRest :=
  h.of_frame (State.slotsHold_frame (fp := [.slots]) l (frame_refl s) (by decide)) (by decide) (by decide)

/-! ### Entry to SLEEP -/

/-- One timer STOPPED. -/
def State.timerToStopped (s : State) (n : Nat) : State :=
  (s.setTimerState n 0).modTimer n fun t => { t with arm := .none, stopAt := none }

theorem State.timerState_timerToStopped (h : s.DictOk) (n k : Nat) :
    (s.timerToStopped n).timerState k = if k = n then 0 else s.timerState k := by
  show (s.set (K.cadenceTimer_TimerState n) 0).get (K.cadenceTimer_TimerState k) = _
  split
  next hk => rw [hk, State.get_set_same h]
  next hk =>
    refine State.get_set_other h _ _ fun e => hk ?_
    unfold K.cadenceTimer_TimerState at e
    omega

/-- The first timers STOPPED one after the other. -/
theorem State.timerState_foldl_timerToStopped (h : s.DictOk) (m : Nat) :
    ((List.range m).foldl State.timerToStopped s).DictOk ∧ ∀ k < m, ((List.range m).foldl State.timerToStopped s).timerState k = 0 := by
  induction m with
  | zero => exact ⟨h, fun k hk => absurd hk (Nat.not_lt_zero k)⟩
  | succ m ih =>
    obtain ⟨ok, rest⟩ := ih
    rw [List.range_succ, List.foldl_append, List.foldl_cons, List.foldl_nil]
    refine ⟨ok.set _ _, fun k hk => ?_⟩
    rw [State.timerState_timerToStopped ok]
    split
    next => rfl
    next hne => exact rest k (by omega)

theorem State.timersSleep_eq (s : State) : s.timersSleep =
    let t := (List.range 16).foldl State.timerToStopped s
    { t with tmr := { t.tmr with stopped := true, pulse := .replicate 8 none } } := rfl

theorem State.timersSleep_rest (h : s.DictOk) : s.timersSleep.TimersRest := by
  obtain ⟨ok, rest⟩ := State.timerState_foldl_timerToStopped h 16
  rw [State.timersSleep_eq]
  generalize (List.range 16).foldl State.timerToStopped s = u at ok rest ⊢
  exact ⟨ok, rfl, rest⟩

/-- The state of a mode is reached with the timers at rest (R533, R538). -/
theorem State.entryReached_rest (h : s.Inv) (mode : Nat) : (s.entryReached mode).TimersRest := by
  have keeps : Keeps s.pending s.jtag s.time.base s := ⟨rfl, rfl, rfl, h⟩
  unfold State.entryReached
  extract_lets was logged done answered counted stopped held quiet deep time out undriven
  have before : Keeps s.pending s.jtag s.time.base counted.portsDown.ergSleep :=
    State.ergSleep_keeps (State.portsDown_keeps (State.count_keeps _ _ (State.set_keeps _ _ (State.set_keeps _ _
      (State.entryDone_keeps (State.changesDiscard_keeps (State.log_keeps _ _ _ keeps)))))))
  have stopped_rest : stopped.TimersRest := (State.timersSleep_rest (State.Inv.dictOk before.inv)).readerStop
  have quiet_rest : quiet.TimersRest := (((stopped_rest.slotsHold _).siltCommit 64).siltCommit 64).outputsSleep
  clear_value quiet
  have undriven_rest : undriven.TimersRest := by
    unfold undriven
    split
    · exact quiet_rest.of_same rfl rfl
    · exact quiet_rest
  exact undriven_rest.modPower _

theorem State.entryReached_sleep (s : State) : (s.entryReached 1).power.phase = .sleep := by
  unfold State.entryReached
  extract_lets
  rfl

/-! ### The vote -/

/-- Block 9 is the timer unit. -/
theorem blockRefuses_timers : blockRefuses s 9 = s.timersBusy := rfl

/-- The timer unit votes against leaving RUN while a timer is ARMED or RUNNING (R533). -/
theorem blockRefuses_timers_iff : blockRefuses s 9 = true ↔ ∃ k < 16, s.timerState k = 1 ∨ s.timerState k = 2 := by
  simp [blockRefuses_timers, State.timersBusy]

theorem blockRefuses_timers_of_dict (h : t.dict = s.dict) : blockRefuses t 9 = blockRefuses s 9 := by
  simp only [blockRefuses_timers, State.timersBusy, State.timerState, State.get_of_dict h]

/-- Where a block refuses, some block is the first that does. -/
theorem refusingBlock_of_blockRefuses {b : Nat} (hb : b < 12) (h : blockRefuses s b = true) : ∃ k, refusingBlock s = some k := by
  refine Option.isSome_iff_exists.mp ?_
  unfold refusingBlock
  rw [List.find?_isSome]
  exact ⟨b, List.mem_range.mpr hb, h⟩

theorem State.get_log_other (h : s.DictOk) (code status : Nat) (data : List Nat) {j : Nat} (hf : j ≠ K.siltLog_LogFlags)
    (hl : j ≠ K.siltLog_LostRecords) : (s.log code status data).get j = s.get j := by
  unfold State.log State.logAt
  split
  · exact State.get_flag_other h _ _ _ hf hl
  · rfl

/-- A refused attempt leaves the device in RUN with the result REFUSED (R539). -/
theorem State.entryRefused_result (h : s.DictOk) (b : Nat) :
    (s.entryRefused b).inRun = s.inRun ∧ (s.entryRefused b).get K.powerControl_EntryResult = St.refused := by
  have done : s.entryDone.DictOk := h.set _ _
  have ended : ((s.entryDone.set K.powerControl_EntryResult St.refused).set K.powerControl_RefusingBlock b).DictOk :=
    (done.set _ _).set _ _
  constructor
  · have power : (s.entryRefused b).power = s.entryDone.power :=
      (State.log_frame (fp := [.dict, .silt]) _ _ _ (State.flag_frame _ _ _ (State.set_frame _ _ (State.set_frame _ _
        (frame_refl s.entryDone) (by decide)) (by decide)) (by decide)) (by decide) (by decide)).same .power (by decide)
    unfold State.inRun
    rw [power]
    rfl
  · unfold State.entryRefused
    dsimp only
    rw [State.get_log_other (ended.flag _ _ _) _ _ _ (by decide) (by decide), State.get_flag_other ended _ _ _ (by decide) (by decide),
      State.get_set_other (done.set _ _) _ _ (by decide), State.get_set_same done]

/-- An attempt at a state other than OASIS, in RUN with every core in WAIT, meets the votes (R536 to R538). -/
theorem State.entryAttempt_eq {mode : Nat} (e : EntryEnd) (run : s.inRun = true) (armed : s.power.armed = some 0)
    (wait : coresWait s = true) (hm : s.get K.powerControl_PowerMode = mode) (h0 : mode ≠ 0) (h4 : mode ≠ 4) :
    s.entryAttempt e = (s.entryTry mode e).1 := by
  subst hm
  unfold State.entryAttempt
  simp [run, armed, wait, h0, h4]

theorem State.entryTry_refused {k : Nat} (mode : Nat) (e : EntryEnd) (h : refusingBlock s = some k) :
    (s.entryTry mode e).1 = s.entryRefused k := by
  unfold State.entryTry
  rw [h]

theorem State.entryTry_reached (mode : Nat) (h : refusingBlock s = none) : (s.entryTry mode .none).1 = s.entryReached mode := by
  unfold State.entryTry
  rw [h]

/-- An attempt while the timer unit votes against it is refused (R533, R539). -/
theorem exec_entryAttempt_refused (hs : s.Inv) {mode : Nat} (h0 : mode ≠ 0) (h4 : mode ≠ 4) (run : s.inRun = true)
    (armed : s.power.armed = some 0) (wait : coresWait s = true) (hm : s.get K.powerControl_PowerMode = mode) (e : EntryEnd)
    (at_ aon : Nat) (busy : blockRefuses s 9 = true) :
    ∃ t, exec (.entryAttempt e at_ aon) s = .next t ∧ t.inRun = true ∧ t.get K.powerControl_EntryResult = St.refused := by
  let n := (s.reach (s.time.t0 + at_)).reachAon aon
  have votes : blockRefuses n 9 = true := (blockRefuses_timers_of_dict (s := s) (t := n) rfl).trans busy
  obtain ⟨b, hb⟩ := refusingBlock_of_blockRefuses (by decide) votes
  obtain ⟨stays, result⟩ := State.entryRefused_result (s := n) (State.Inv.dictOk hs) b
  refine ⟨_, rfl, ?_⟩
  rw [State.entryAttempt_eq (s := n) e run armed wait hm h0 h4, State.entryTry_refused mode e hb]
  exact ⟨stays.trans run, result⟩

/-! ### The return -/

theorem State.TimersRest.wakeStart (h : s.TimersRest) : s.wakeStart.TimersRest :=
  (h.set (k := K.powerControl_PowerState) 0 (by decide)).modPower _

/-- WAKE_N in SLEEP starts the return to RUN whatever WakeEnable holds (R540, R541). -/
theorem State.wake_wakeN (h : s.power.phase = .sleep) (port : Nat) :
    s.wake 1 port = (s.set K.powerControl_LastWakeCause 1).wakeStart := by
  unfold State.wake State.wakeBy
  simp [h, wakeEnabled]

/-- The return by WAKE_N finds every timer STOPPED (R533). -/
theorem State.TimersRest.exec_wakeN (h : s.TimersRest) (hp : s.power.phase = .sleep) (at_ aon : Nat) :
    ∃ u, exec (.wake 1 0 at_ aon) s = .next u ∧ u.power.phase = .run ∧ u.TimersRest := by
  have reached : ((s.reach (s.time.t0 + at_)).reachAon aon).TimersRest := h.of_same rfl rfl
  refine ⟨_, rfl, ?_⟩
  rw [State.wake_wakeN (s := (s.reach (s.time.t0 + at_)).reachAon aon) hp]
  exact ⟨rfl, (reached.set (k := K.powerControl_LastWakeCause) 1 (by decide)).wakeStart⟩

/-! ### Captures -/

/-- While the timer unit rests an edge at a capture input leaves no stamp (R533). -/
theorem State.capture_stopped (h : s.tmr.stopped = true) (i : Nat) (rising : Bool) : s.capture i rising = s := by
  unfold State.capture
  exact if_pos (.inr (.inl h))

end Sys2Proof.Machine

namespace Sys2Proof.Proofs

open Machine

/-- Settles O60, from `blockRefuses_timers_iff`, `State.capture_stopped`, `exec_entryAttempt_refused`, `State.entryReached_rest` and
`State.TimersRest.exec_wakeN`. -/
theorem timerVotes : Obligations.TimerVotes := by
  unfold Obligations.TimerVotes
  intro s e at_ aon hs n
  refine ⟨blockRefuses_timers_iff, fun stopped i rising a => ⟨_, rfl, ?_⟩, fun run armed wait hm => ?_,
    fun run armed wait hm => ⟨?_, ?_⟩⟩
  · split
    · rw [State.capture_stopped (s := s.reach a) stopped]
      exact ⟨rfl, rfl, rfl⟩
    · exact ⟨rfl, rfl, rfl⟩
  · exact exec_entryAttempt_refused hs (by decide) (by decide) run armed wait hm e at_ aon
  · exact exec_entryAttempt_refused hs (by decide) (by decide) run armed wait hm e at_ aon
  · rintro votes rfl
    refine ⟨_, rfl, ?_⟩
    have rest : (n.entryReached 1).TimersRest := State.entryReached_rest (s := n) hs 1
    rw [State.entryAttempt_eq (s := n) .none run armed wait hm (by decide) (by decide), State.entryTry_reached 1 votes]
    refine ⟨State.entryReached_sleep n, rest.stopped, rest.state, fun x => ?_⟩
    obtain ⟨u, woken, run', rest'⟩ := rest.exec_wakeN (State.entryReached_sleep n) at_ x
    exact ⟨u, woken, run', rest'.state⟩

end Sys2Proof.Proofs

/-!
PROOF. RST_N where it meets a wake source or a reset that is due already (R571): what the reset is taken for, and that the record of
the wake is gone.
-/

namespace Sys2Proof.Machine

variable {s : State}

/-! ### A reset that becomes due -/

@[simp] theorem State.resetDue_get (kind : StartKind) (cause k : Nat) : (s.resetDue kind cause).get k = s.get k := by
  refine State.get_of_dict ?_ k
  unfold State.resetDue
  extract_lets keep
  split <;> rfl

/-- With no reset due the one that comes is due. -/
theorem State.resetDue_of_none (h : s.boot.due = none) (kind : StartKind) (cause : Nat) :
    (s.resetDue kind cause).boot.due = some (kind, cause, 0, false) := by
  unfold State.resetDue
  rw [h]
  rfl

/-- A cold reset takes the place of a warm one that is due (R571). -/
theorem State.resetDue_cold_of_warm {x : Nat × Nat × Bool} (h : s.boot.due = some (.warm, x)) (cause : Nat) :
    (s.resetDue .cold cause).boot.due = some (.cold, cause, 0, false) := by
  unfold State.resetDue
  rw [h]
  rfl

/-- A cold reset that is due stays due, whatever reset comes (R571). -/
theorem State.resetDue_of_cold {x : Nat × Nat × Bool} (h : s.boot.due = some (.cold, x)) (kind : StartKind) (cause : Nat) :
    s.resetDue kind cause = s := by
  unfold State.resetDue
  rw [h]
  rfl

/-! ### The reset of RST_N -/

/-- The reset that RST_N asks for by the time it is asserted (R558). -/
def rstReset (ns : Nat) : StartKind × Nat × Nat × Bool :=
  if ns < 10000000 then (.warm, 2, 0, false) else (.cold, 3, 0, false)

/-- The reset of RST_N becomes due. -/
def State.rstDue (s : State) (ns : Nat) : State := if ns < 10000000 then s.resetDue .warm 2 else s.resetDue .cold 3

theorem State.rstDue_eq (s : State) (ns : Nat) : s.rstDue ns = s.resetDue (rstReset ns).1 (rstReset ns).2.1 := by
  unfold State.rstDue rstReset
  split <;> rfl

@[simp] theorem State.rstDue_get (ns k : Nat) : (s.rstDue ns).get k = s.get k := by
  rw [State.rstDue_eq, State.resetDue_get]

theorem State.rstDue_of_none (h : s.boot.due = none) (ns : Nat) : (s.rstDue ns).boot.due = some (rstReset ns) := by
  rw [State.rstDue_eq, State.resetDue_of_none h]
  unfold rstReset
  split <;> rfl

/-- RST_N held for 10 ms is a cold reset and takes the place of a warm one that is due (R558, R571). -/
theorem State.rstDue_of_warm {x : Nat × Nat × Bool} {ns : Nat} (h : s.boot.due = some (.warm, x)) (long : 10000000 ≤ ns) :
    (s.rstDue ns).boot.due = some (rstReset ns) := by
  unfold State.rstDue rstReset
  rw [if_neg (by omega), if_neg (by omega)]
  exact State.resetDue_cold_of_warm h 3

theorem State.rstDue_of_cold {x : Nat × Nat × Bool} (h : s.boot.due = some (.cold, x)) (ns : Nat) : s.rstDue ns = s := by
  rw [State.rstDue_eq, State.resetDue_of_cold h]

/-! ### RST_N and a wake source in one CK_AON cycle -/

/-- The wake that LastWakeCause tells of acted in the present CK_AON cycle. -/
def State.WokeNow (s : State) : Prop := s.power.rampAon = s.time.aon ∧ s.get K.powerControl_LastWakeCause ≠ 0

/-- The test of RST_N for a wake in its cycle. -/
theorem State.wokeNow_iff :
    (decide (s.power.rampAon = s.time.aon) && s.get K.powerControl_LastWakeCause != 0) = true ↔ s.WokeNow := by
  simp [State.WokeNow]

/-- Nothing is recorded any more of what woke the device. -/
def State.wakeForgotten (s : State) : State := s.set K.powerControl_LastWakeCause 0

theorem State.wakeForgotten_cause (h : s.DictOk) : s.wakeForgotten.get K.powerControl_LastWakeCause = 0 := State.get_set_same h _ _

theorem State.wakeForgotten_wakeStart_cause (h : s.DictOk) :
    s.wakeForgotten.wakeStart.get K.powerControl_LastWakeCause = 0 :=
  (State.get_set_other (h.set _ _) _ _ (by decide)).trans (State.wakeForgotten_cause h)

/-- RST_N in SLEEP: the device returns to RUN for the reset, not for a wake source. -/
theorem State.rstN_sleep {ns : Nat} (pulse : 200 ≤ ns) (i : StartIn) (h : s.power.phase = .sleep) :
    s.rstN ns i = s.wakeForgotten.wakeStart.rstDue ns := by
  unfold State.rstN
  rw [if_neg (by omega), h]
  rfl

section
variable {ns : Nat} (pulse : 200 ≤ ns) (awake : s.power.phase = .run ∨ s.power.phase = .starting)
include pulse awake

/-- RST_N in no cycle of a wake: its reset becomes due. -/
theorem State.rstN_apart (i : StartIn) (h : ¬ s.WokeNow) : s.rstN ns i = s.rstDue ns := by
  unfold State.rstN
  rw [if_neg (by omega)]
  rcases awake with phase | phase <;> rw [phase] <;> exact if_neg (mt State.wokeNow_iff.mp h)

/-- RST_N in the cycle of a wake: the wake is forgotten, and while the device is on its way to RUN the reset becomes due. -/
theorem State.rstN_meets (i : StartIn) (h : s.WokeNow) :
    s.rstN ns i = if s.power.waking then s.wakeForgotten.rstDue ns else s.wakeForgotten := by
  unfold State.rstN
  rw [if_neg (by omega)]
  rcases awake with phase | phase <;> rw [phase] <;> exact if_pos (State.wokeNow_iff.mpr h)

/-- But for a wake of this cycle that is over already, the reset of RST_N becomes due. -/
theorem State.rstN_due (i : StartIn) (h : s.power.waking = true ∨ ¬ s.WokeNow) :
    ∃ t : State, s.rstN ns i = t.rstDue ns ∧ t.boot = s.boot := by
  by_cases meets : s.WokeNow
  · have waking : s.power.waking = true := h.resolve_right (not_not_intro meets)
    exact ⟨s.wakeForgotten, (State.rstN_meets pulse awake i meets).trans (if_pos waking), rfl⟩
  · exact ⟨s, State.rstN_apart pulse awake i meets, rfl⟩

/-- In the cycle of a wake RST_N leaves LastWakeCause NONE (R571). -/
theorem State.rstN_cause (hd : s.DictOk) (i : StartIn) (cycle : s.power.rampAon = s.time.aon) :
    (s.rstN ns i).get K.powerControl_LastWakeCause = 0 := by
  by_cases meets : s.WokeNow
  · rw [State.rstN_meets pulse awake i meets]
    split
    · exact (State.rstDue_get _ _).trans (State.wakeForgotten_cause hd)
    · exact State.wakeForgotten_cause hd
  · rw [State.rstN_apart pulse awake i meets, State.rstDue_get]
    exact not_not.mp fun cause => meets ⟨cycle, cause⟩

/-- A cold reset that is due stays due over RST_N (R571). -/
theorem State.rstN_of_cold {x : Nat × Nat × Bool} (h : s.boot.due = some (.cold, x)) (i : StartIn) :
    (s.rstN ns i).boot.due = some (.cold, x) := by
  by_cases meets : s.WokeNow
  · rw [State.rstN_meets pulse awake i meets, State.rstDue_of_cold (s := s.wakeForgotten) h, ite_self]
    exact h
  · rw [State.rstN_apart pulse awake i meets, State.rstDue_of_cold h]
    exact h

end

end Sys2Proof.Machine

namespace Sys2Proof.Proofs

open Machine

/-- Settles O59, from `State.rstN_sleep`, `State.rstN_due`, `State.rstN_cause` and `State.rstN_of_cold`. -/
theorem resetPriority : Obligations.ResetPriority := by
  unfold Obligations.ResetPriority
  intro s i ns aon hs pulse due
  have dictOk : (s.reachAon aon).DictOk := State.Inv.dictOk hs
  refine ⟨fun sleep idle => ⟨_, rfl, ?_⟩, fun awake => ⟨fun x warm long apart => ⟨_, rfl, ?_⟩,
    fun waking cycle idle => ⟨_, rfl, ?_, ?_⟩, fun x cold => ⟨_, rfl, ?_⟩⟩⟩
  · rw [State.rstN_sleep (s := s.reachAon aon) pulse i sleep]
    exact ⟨State.rstDue_of_none (s := (s.reachAon aon).wakeForgotten.wakeStart) idle ns,
      (State.rstDue_get _ _).trans (State.wakeForgotten_wakeStart_cause dictOk)⟩
  · have taken : s.power.waking = true ∨ ¬ (s.reachAon aon).WokeNow :=
      apart.imp_right fun h ⟨cycle, cause⟩ => h.elim (· cycle) cause
    obtain ⟨t, reset, boot⟩ := State.rstN_due (s := s.reachAon aon) pulse awake i taken
    rw [reset]
    exact State.rstDue_of_warm ((congrArg BootSt.due boot).trans warm) long
  · obtain ⟨t, reset, boot⟩ := State.rstN_due (s := s.reachAon aon) pulse awake i (.inl waking)
    rw [reset]
    exact State.rstDue_of_none ((congrArg BootSt.due boot).trans idle) ns
  · exact State.rstN_cause (s := s.reachAon aon) pulse awake dictOk i cycle
  · exact State.rstN_of_cold (s := s.reachAon aon) pulse awake cold i

end Sys2Proof.Proofs
